-- ==== Sys2Proof/Word.lean ====
section
/-! DEFINITION. The word types of the block: registers of both parts are 32 bits wide (R5), frames and memory are
strings of bytes. -/

namespace Sys2Proof

/-- A register word (R5). -/
abbrev Word := BitVec 32

/-- A byte of a frame or of memory. -/
abbrev Byte := BitVec 8

/-- A 16-bit half word, as CRC-16 values and handles are. -/
abbrev Half := BitVec 16

/-- A 64-bit value: unique IDs, period numbers as software sees them. -/
abbrev DWord := BitVec 64

end Sys2Proof
end

