-- ==== Sys2Proof/Syntax.lean ====
section
/-! DEFINITION. The commands that the block takes from outside: one constructor of Instr per row of the table of
operations and events, with the operands its rule names. Indices whose range the spec fixes are Fin; frames, telegrams
and messages are byte strings as they stand on the wire. -/

namespace Sys2Proof

/-- Where a command or register access comes from: a bus master by its code of R420, a CAN FD port, or a UDP session. -/
inductive Via where
  | master (code : Fin 19)
  | can (port : Fin 2)
  | udp (session : Fin 16)
  deriving DecidableEq, Repr

/-- One event on an error line of the collector: the source, and what the capture of R420 records of it. -/
structure Raise where
  src : Fin 128
  access : Fin 6
  master : Fin 19
  addr : BitVec 36
  deriving DecidableEq, Repr

/-- The report a self-test leaves (R44): the failing bits of ST_REF, ST_ISLAND, ST_BANK, ST_LANE_LO, ST_LANE_HI and
ST_SAFE, and the duration in units of 0.1 ms. -/
structure StReport where
  ref : BitVec 5
  islands : BitVec 18
  banks : BitVec 32
  lanesLo : BitVec 32
  lanesHi : BitVec 24
  safe : BitVec 6
  duration : BitVec 16
  deriving DecidableEq, Repr

/-- The result of secure start (R493, R494), with the security versions of the images of TYPE 00h to 08h. -/
structure SecResult where
  ok : Bool
  slot : Fin 2
  key : Fin 4
  code : Fin 16
  partOk : BitVec 8
  partFail : BitVec 8
  pcode : Fin 16
  svn : List (Fin 64)
  deriving DecidableEq, Repr


/-- The end of a link: a strand port of the KC8400, a tie lane, an accord port, or a port of a cell: 0 P, 1 Q, 2 D. -/
inductive LinkEnd where
  | strand (port : Fin 48)
  | tie (lane : Fin 2)
  | accord (port : Fin 4)
  | cell (id : BitVec 64) (port : Fin 3)
  deriving DecidableEq, Repr

/-- The conversions of a central SAR converter for one t0, the one held nearest to t0 first: raw code and range, 0
within, 1 above, 2 below (R274). Empty: they have not ended. -/
abbrev SarSample := List (BitVec 16 × Fin 3)

/-- What the block samples at a boundary t0 (R271): the SAR conversions by converter, and by decimator the bits received
since the last t0, or since the last clock loss ended, oldest first. -/
structure Samples where
  sar : List SarSample
  sd : List (List Bool)
  deriving DecidableEq, Repr

/-- A memory error that the control engine meets in a window: a coefficient word of a context, corrected or not (R81), or
an entry of a repetitive table that cannot be corrected (R109). -/
inductive EngineError where
  | coef (ctx : Fin 256) (word : Fin 1392) (corrected : Bool)
  | entry (ctx : Fin 256) (table : Fin 4) (entry : Fin 4096)
  deriving DecidableEq, Repr

/-- A PTP message as a port takes it (R354). An Announce carries the state that the best master clock algorithm of IEEE
1588-2019 recommends for the port: 0 master, 1 slave, 2 passive. A Sync is complete with its Follow_Up: the T64 it was sent
at and the correction in units of 0.1 ns. A delay exchange gives the mean path delay in units of 0.1 ns. A request asks the
port for an answer; `discarded` is a management message or one that is not supported. -/
inductive PtpMsg where
  | announce (role : Fin 3)
  | sync (origin : BitVec 80) (correction : BitVec 48)
  | delay (mean : BitVec 32)
  | request (type : Fin 16) (sequence : BitVec 16)
  | discarded
  deriving DecidableEq, Repr

/-- A word of a stored safe parameter set: offset in the island window and value (R405). -/
abbrev ParamWord := BitVec 16 × BitVec 32

/-- What an island cycle reads at its pins (R374, R384, R387, R395): which mate channels are live, bit 0 A and bit 1 B; the
readback of each switch, bits 2n high side and 2n + 1 low side of channel n; SOn_FBK; and TPn_FB. -/
structure SafePins where
  mate : BitVec 2
  readback : BitVec 4
  feedback : BitVec 2
  tp : BitVec 4
  deriving DecidableEq, Repr

/-- How a safe telegram arrives (R396): in a UDP datagram on NETA (0) or NETB (1) from an address, or in a CAN FD frame. -/
inductive TelegramPath where
  | ethernet (port : Fin 2) (source : BitVec 32)
  | can (port : Fin 2) (id : BitVec 29) (extended : Bool)
  deriving DecidableEq, Repr

/-- Who asks the object service (R533, R550): a UDP session by its slot, a client node-ID on a CAN FD port, or the top lead
for one of its sessions. -/
inductive Client where
  | udp (slot : Fin 8)
  | can (port : Fin 2) (node : BitVec 7)
  | routed (session : BitVec 16)
  deriving DecidableEq, Repr

/-- A UDP datagram at a station port (R541, R542): source and destination; `plain` where it is no fragment, has no VLAN tag
and no IPv4 options. -/
structure Datagram where
  net : Fin 2
  source : BitVec 32
  sourcePort : BitVec 16
  dest : BitVec 32
  destPort : BitVec 16
  plain : Bool
  bytes : List Byte
  deriving DecidableEq, Repr

/-- The commands of the block, one per row of the table of operations and events, in its order. -/
inductive Instr where
  /-- R31: Power-on, or VDD_CORE falling below its power-on threshold, takes the KC8400 to RESET. -/
  | powerOn
  /-- R31: SYS_RST_N going low takes the KC8400 to RESET and the safety island, unless it is in HALT, to RESET. -/
  | sysRstNLow
  /-- R31: SYS_RST_N going high with all supply monitors good starts SELF-TEST and the island test. -/
  | sysRstNHigh (pairId : Bool)
  /-- R44: The self-test verdict completes, the report registers are written and secure start or LOCKED follows. -/
  | selfTestEnd (report : StReport)
  /-- R45: The SYS watchdog ends a self-test still running 400 ms after SYS_RST_N rose and counts it as failed. -/
  | selfTestTimeout (step : Fin 6)
  /-- R493: Secure start completes, SEC_STATUS is written, the resident firmware starts and the KC8400 enters SAFE HOLD. -/
  | secureStartEnd (res : SecResult)
  /-- R36: State command CONFIGURE takes SAFE HOLD to CONFIGURED if self-test, secure start and the configuration checks pass. -/
  | configure (via : Via)
  /-- R38: State command ENERGISE checks R37, fixes P_1 and starts the cell preparation, or is refused. -/
  | energise (via : Via)
  /-- R38: At 200 µs before t_1, an unfinished preparation or an arm short of AVAIL_MIN refuses ENERGISE with 0Dh and restores maintenance boundaries. -/
  | prepDeadline
  /-- R38: At t_1 the committed layout replaces the maintenance period, the epoch advances and the state becomes ENERGISED. -/
  | energiseTakesEffect (samples : Samples)
  /-- R39: State command DEBLOCK takes ENERGISED to DEBLOCKED at the boundary given by R32, or is refused. -/
  | deblock (via : Via)
  /-- R55: State command DRYDOWN starts the wait phase of the dry-down in DEBLOCKED. -/
  | drydown (via : Via)
  /-- R55: After DRY_HOLD consecutive periods with every arm current at or below DRY_ILIM the dry-down enters its block phase. -/
  | dryWaitEnd
  /-- R55: An arm whose sampled current sign reversed blocks at the boundary t0 + T_c of that period. -/
  | dryArmBlock (arm : Fin 6)
  /-- R57: Expiry of DRY_TIMEOUT blocks every remaining arm at the next boundary and enters ENERGISED with cause 0Bh. -/
  | dryTimeout
  /-- R31: State command CLEAR takes FAULT-BLOCK to ENERGISED at the next boundary if nothing Block-class or above is latched and Safe Block is inactive. -/
  | clear (via : Via)
  /-- R40: State command DEENERGISE takes ENERGISED or FAULT-BLOCK to CONFIGURED if every good slot reports at most VCELL_SAFE. -/
  | deenergise (via : Via)
  /-- R31: State command RESTART with KEY 5A5Ah takes SAFE HOLD, CONFIGURED or FAULT-BLOCK to RESET. -/
  | restart (via : Via) (key : BitVec 16)
  /-- R351: The period timer reaches t0: the KC8400 samples its converters and decimators, pending transitions take effect and a new period starts. -/
  | periodBoundary (samples : Samples) (follow : Option (Fin 8))
  /-- R191: The launch queue reaches t_CL and the head port launches the downstream collection frame. -/
  | collectionLaunch (port : Fin 48)
  /-- R76: At t_CA the control engine gathers inputs and evaluates every enabled context in order up to the launch fence. -/
  | controlEngineWindow (errors : List EngineError)
  /-- R150: At t_LE the level engine builds keys, sorts, selects and builds every record and commutation event. -/
  | levelEngineWindow
  /-- R124: After ADMIT_N consecutive qualifying periods a cell becomes eligible again. -/
  | cellAdmission (cell : BitVec 64)
  /-- R123: MISS_N consecutive missing slots make the cell ineligible with CAUSE 4h. -/
  | cellMissIneligible (cell : BitVec 64)
  /-- R125: CELL_MISS reaching MISS_BYP sets BYP_REQ in the cell's records and raises the bypass-request source. -/
  | bypassRequest (cell : BitVec 64)
  /-- R346: EPOCH_BYP consecutive periods of stale epoch echo set BYP_REQ for the cell and raise the bypass-request source. -/
  | epochBypass (cell : BitVec 64)
  /-- R135: At every boundary whose period number is a multiple of 2^SW_DECAY every switching count is halved. -/
  | swcDecay
  /-- R138: A cell that held PWM for ROT_LIM consecutive records is rotation-barred for the next period. -/
  | rotationBar (cell : BitVec 64)
  /-- R191: The launch queue reaches t_ML and the head port launches the command frame with any mailbox request. -/
  | commandLaunch (port : Fin 48)
  /-- R148: A rising edge on LVL_SYNC_IN is time-stamped and realigns carriers, is ignored or counts as an error per state. -/
  | lvlSyncInEdge
  /-- R17: At t_H a cell judges whether it holds a good record for the next boundary and chooses its side in a pair. -/
  | cellHoldLimit (cell : BitVec 64)
  /-- R171: At a cell boundary the cell applies its record or plays its horizon, fires its sample strobe and updates its state. -/
  | cellBoundary (cell : BitVec 64)
  /-- R161: The insertion or zero part of a PWM entry ends at its computed tick and the gate demand changes. -/
  | pwmPartEnd (cell : BitVec 64)
  /-- R165: The duty crosses the triangular carrier and the leg demand changes. -/
  | carrierCrossing (cell : BitVec 64) (leg : Fin 2)
  /-- R160: A gate turns on when its partner has been off for the leg's dead time. -/
  | deadTimeEnd (cell : BitVec 64) (gate : Fin 4)
  /-- R168: At t_b + 20 ns × (ZC_OFF − GUARD) the cell opens its masks. -/
  | maskOpen (cell : BitVec 64)
  /-- R168: After OPEN_MAX boundaries open with unchanged sign the cell returns to the mask set of s. -/
  | maskOpenMax (cell : BitVec 64)
  /-- R171: At the fourth boundary after the last good record a coasting cell enters BLOCKED and its gates go off. -/
  | horizonPlayedOut (cell : BitVec 64)
  /-- R170: A rising SYNCI edge in follow mode sets t_s if within TOL, else is counted in ERR_CNT. -/
  | synciEdge (cell : BitVec 64)
  /-- R170: Two carrier periods without a valid SYNCI edge set SYNC_LOST. -/
  | syncLost (cell : BitVec 64)
  /-- R173: A comparator's filtered, qualified output becomes active and latches its trip, turning all gates off. -/
  | comparatorActive (cell : BitVec 64) (cmp : Fin 4)
  /-- R263: A comparator returns past its threshold by HYST and its live cause ends. -/
  | comparatorInactive (cell : BitVec 64) (cmp : Fin 4)
  /-- R179: CMP3 crossing its overvoltage threshold asserts BYP through the hardwired path and forces the gates off. -/
  | hwBypass (cell : BitVec 64)
  /-- R175: A write of 1 to a TRIP bit clears the trip latch, or is refused while the comparator is active. -/
  | tripClear (cell : BitVec 64) (value : BitVec 32)
  /-- R177: A gate pin differing from its driven level for 100 ns sets GATE_FLT and turns all gates off. -/
  | gateReadbackFault (cell : BitVec 64) (gate : Fin 4)
  /-- R180: BYP differing from its driven level for 100 ns sets BYP_FLT and raises its source. -/
  | bypReadbackFault (cell : BitVec 64)
  /-- R178: A write of BYP_CMD with BYPASS = 1 and KEY A5A5h starts a bypass at once. -/
  | bypCmd (cell : BitVec 64) (value : BitVec 32)
  /-- R178: BYP_DLY ticks after a bypass starts, BYP asserts and stays asserted until RESET. -/
  | bypAssert (cell : BitVec 64)
  /-- R51: VSUP below the supervisor reset threshold takes the KS210 to RESET and clears its Lock latch. -/
  | vsupReset (cell : BitVec 64)
  /-- R51: The supervisor releases reset and the KS210 starts its self-test. -/
  | supervisorRelease (cell : BitVec 64) (bridge : Bool)
  /-- R54: The KS210 self-test ends and the cell enters SAFE HOLD or LOCKED. -/
  | cellSelfTestEnd (cell : BitVec 64) (pass : Bool)
  /-- R54: A KS210 self-test not ended 25 ms after reset release counts as failed. -/
  | cellSelfTestTimeout (cell : BitVec 64)
  /-- R51: No good frame for 1 s takes a cell in ENUMERATED or BLOCKED to SAFE HOLD. -/
  | cellFrameTimeout (cell : BitVec 64)
  /-- R184: A receiver gains block lock after 64 consecutive valid sync headers. -/
  | blockLock (link : LinkEnd)
  /-- R184: 16 invalid sync headers within 64 blocks lose block lock; an upstream loss counts as link lost. -/
  | blockLockLoss (link : LinkEnd)
  /-- R216: A port receiving 8 identical TS_UP becomes the upstream port and the cell takes its position. -/
  | upstreamSelected (cell : BitVec 64) (port : Fin 2) (d2 : BitVec 8) (d3 : BitVec 8)
  /-- R186: A strand segment completes its training-set exchange and carries frames. -/
  | segmentTrained (link : LinkEnd) (d2 : BitVec 8) (d3 : BitVec 8) (members : BitVec 8) (prop : BitVec 16)
  /-- R187: A segment not trained 1 s after signal reports TRAIN_FAIL. -/
  | trainFail (port : Fin 48)
  /-- R195: A cell receiving a BLOCK ordered set forwards it, turns its gates off and enters BLOCKED. -/
  | blockOrderedSet (cell : BitVec 64) (port : Fin 2) (d2 : BitVec 8) (d3 : BitVec 8)
  /-- R202: A cell checks a passing command frame, takes BLOCK, mailbox request, event and its record. -/
  | commandFrameAtCell (cell : BitVec 64) (port : Fin 2) (frame : List Byte)
  /-- R201: A cell writes its status and sillage slots, and any owed mailbox response, into a passing collection frame. -/
  | collectionFrameAtCell (cell : BitVec 64) (port : Fin 3) (frame : List Byte)
  /-- R192: At T_ORIG the far-end or originating cell originates the upstream collection frame. -/
  | upstreamOriginate (cell : BitVec 64)
  /-- R295: At t0 + 0.40 µs the cell latches its status for both collection frames. -/
  | statusLatch (cell : BitVec 64)
  /-- R203: The KC8400 takes a collection frame at a strand end and uses each slot on its own CRC. -/
  | collectionFrameReceived (port : Fin 48) (frame : List Byte)
  /-- R300: The partner compares a good command slot and event at its tail with its own. -/
  | commandFrameAtTail (port : Fin 48) (frame : List Byte)
  /-- R211: A write of MB_CTRL.GO opens a mailbox transaction on the port or is refused. -/
  | mbGo (port : Fin 48)
  /-- R205: A cell executes a mailbox READ of the register at ADDR. -/
  | mbRead (cell : BitVec 64)
  /-- R205: A cell executes a mailbox WRITE of DATA to ADDR. -/
  | mbWrite (cell : BitVec 64)
  /-- R205: A cell reads ADDR and writes the value back, clearing its W1C bits. -/
  | mbReadClear (cell : BitVec 64)
  /-- R205: A cell executes the mailbox RESET command and resets at once. -/
  | mbCmdReset (cell : BitVec 64)
  /-- R205: A cell executes the mailbox BYPASS command and starts a bypass. -/
  | mbCmdBypass (cell : BitVec 64)
  /-- R205: Every cell of the strand changes the masked bits of ADDR to DATA. -/
  | mbMaskedWrite (cell : BitVec 64)
  /-- R217: OP 6h returns one identity item of the cell or member. -/
  | mbIdentify (cell : BitVec 64)
  /-- R218: OP 7h ACCEPT takes a cell from SAFE HOLD to ENUMERATED if its state, self-test and UID check pass. -/
  | mbAccept (cell : BitVec 64)
  /-- R211: A matching mailbox response arrives at the KC8400 and closes the transaction. -/
  | mbResponse (port : Fin 48)
  /-- R211: No response MB_TO periods after the expected period resends the request or, after MB_RETRY, sets TIMEOUT. -/
  | mbTimeout (port : Fin 48)
  /-- R213: A write of ERR_CLR.CLR clears the port's error counters. -/
  | errClr (port : Fin 48)
  /-- R214: A write of LNK_CLR.CLR clears the cell's link error counters. -/
  | lnkClr (cell : BitVec 64)
  /-- R219: A write of ENUM_CTRL.START, or a completed training with AUTO = 1, starts the enumeration walk of a port. -/
  | enumStart (port : Fin 48)
  /-- R221: ENUM_CTRL.ACCEPT copies the reported UID into the expected entry and issues OP 7h, or is refused. -/
  | enumAccept (port : Fin 48) (value : BitVec 32)
  /-- R223: One second after a failed join sequence the KC8400 starts it again. -/
  | cellJoinRetry (cell : BitVec 64)
  /-- R246: A KS210 conversion ends and its calibrated result is delivered. -/
  | conversionDone (cell : BitVec 64) (kind : Fin 3) (raw : BitVec 16) (range : Fin 3)
  /-- R252: A write of INJ_REQ queues an injected conversion or is refused on a full queue. -/
  | injReq (cell : BitVec 64) (ch : Fin 16) (urgent : Bool)
  /-- R255: CAL_CMD STEP 1 starts the zero calibration step of a channel. -/
  | calZero (cell : BitVec 64) (ch : Fin 16)
  /-- R255: CAL_CMD STEP 2 starts the full-scale calibration step with REF. -/
  | calFull (cell : BitVec 64) (ch : Fin 16) (ref : BitVec 16)
  /-- R255: CAL_CMD STEP 3 ends the running calibration step with ERR_CODE 3. -/
  | calAbort (cell : BitVec 64)
  /-- R256: A calibration step completes, writing Z or OFF and GAIN, or fails with CAL_ERR. -/
  | calStepDone (cell : BitVec 64)
  /-- R261: Every PER periods the cell runs the reference and test conversions of a channel's open-wire test. -/
  | openWireTest (cell : BitVec 64) (ch : Fin 12)
  /-- R262: An open-wire test completes and N counting tests set OW_OPEN. -/
  | openWireDone (cell : BitVec 64) (ref : BitVec 16) (test : BitVec 16) (refRange : Fin 3) (testRange : Fin 3)
  /-- R274: A central conversion not ended 250 ns after its hold sets FAULT and raises the central-converter source. -/
  | sarFault (n : Fin 8)
  /-- R277: A modulator clock gap reaching 1 µs sets CLK_LOSS and raises the sigma-delta source. -/
  | sdClkLoss (d : Fin 24)
  /-- R277: A run of 64 equal bits sets MOD_FAULT and raises the sigma-delta source. -/
  | sdModFault (d : Fin 24) (level : Bool)
  /-- R278: A filtered edge on a pulse input counts, is time-stamped, or is an illegal quadrature transition. -/
  | piEdge (n : Fin 4) (a : Bool) (b : Bool)
  /-- R285: A write of PI_CNT presets the pulse count. -/
  | piCntPreset (n : Fin 4) (value : BitVec 32)
  /-- R282: A filtered GPIO edge becomes an event in the FIFO, or chatter, and updates external sources. -/
  | gpioEdge (line : Fin 64) (level : Bool)
  /-- R283: RATE_W without a filtered edge clears FROZEN and may record a RELEASE event. -/
  | gpioChatterRelease (line : Fin 64)
  /-- R284: A line active longer than MAX_ACT sets STUCK and raises the stuck source. -/
  | gpioStuck (line : Fin 64)
  /-- R286: A write to GPIO_RATE or GPIO_STUCK clears the line's edge history and restarts its stuck time. -/
  | gpioRateWrite (line : Fin 64) (stuck : Bool) (value : BitVec 32)
  /-- R282: A write of EVT_NEXT discards the oldest event of the FIFO. -/
  | evtNext
  /-- R93: An accepted write of SP_VALUE is a fresh value for an object-source channel. -/
  | spValueWrite (c : Fin 256) (value : BitVec 32)
  /-- R96: A channel's age reaching to_periods makes it lost, holds its output and raises the set-point-lost source. -/
  | setpointLost (c : Fin 256)
  /-- R111: TO_N consecutive stale periods drop a measurement. -/
  | feedbackTimeoutDrop (ctx : Fin 256) (j : Fin 16)
  /-- R111: FRZ_N identical fresh samples drop a measurement. -/
  | frozenDrop (ctx : Fin 256) (j : Fin 16)
  /-- R111: GATE_N consecutive innovations above GATE drop a measurement. -/
  | gateDrop (ctx : Fin 256) (j : Fin 16)
  /-- R114: RECOV_N consecutive passes return a dropped measurement with AUTO_READMIT = 1. -/
  | autoReadmit (ctx : Fin 256) (j : Fin 16)
  /-- R113: COAST_CMD.DROP drops the named measurements from the next window. -/
  | coastDrop (ctx : Fin 256) (mask : BitVec 16)
  /-- R114: COAST_CMD.READMIT returns the named measurements from the next window. -/
  | coastReadmit (ctx : Fin 256) (mask : BitVec 16)
  /-- R113: COAST_TIME reaching the coast limit raises the feedback-lost source and sets LIMIT. -/
  | coastLimit (ctx : Fin 256)
  /-- R77: A write to a descriptor, binding or table word is checked for consistency and discarded with CHECK_CODE if it fails. -/
  | descriptorWrite (addr : BitVec 32) (value : BitVec 32)
  /-- R84: SWAP_CMD GO with SWAP = 1 schedules a page swap of the selected contexts. -/
  | swap (loadX0 : Bool)
  /-- R85: SWAP_CMD GO with LOAD_X0 = 1 schedules loading x̂ from X0 for the selected contexts. -/
  | loadX0
  /-- R81: CTL_INJECT FORCE_OVR marks one context unfinished in the next window. -/
  | forceOvr (ctx : Fin 256)
  /-- R87: CTL_CLEAR.PEAK clears CTL_PEAK. -/
  | clearPeak
  /-- R87: CTL_CLEAR.OVR_COUNT clears CTL_OVR_COUNT. -/
  | clearOvrCount
  /-- R87: CTL_CLEAR.NUM_COUNT clears CTL_NUM_COUNT. -/
  | clearNumCount
  /-- R87: CTL_CLEAR.CTX_COUNTS clears DESC_COUNT of every context. -/
  | clearCtxCounts
  /-- R83: An aperture access reaches the selected page; active-page accesses wait out the window and writes there are discarded. -/
  | coefApertureAccess (word : Fin 2048) (write : Option (BitVec 32))
  /-- R289: A tie lane completes training and the link version is set. -/
  | tieLaneTrained (lane : Fin 2) (lowest : BitVec 8) (highest : BitVec 8) (d2 : BitVec 8)
  /-- R321: The tie link goes down; both units raise the tie-link source and the STANDBY bridges every period. -/
  | tieLinkDown
  /-- R321: TIE_HOLD after the link went down the STANDBY becomes RELAY. -/
  | tieHoldExpiry
  /-- R291: TIE_WAIT after entry to SAFE HOLD without a link, a PAIR_ID 0 unit becomes SOLO. -/
  | tieWaitExpiry
  /-- R296: The partner receives INPUT with central inputs, set-points, writes and merge exceptions. -/
  | inputMessage (lane : Fin 2) (message : List Byte)
  /-- R296: The partner receives LVLW with the writes for the level engine window. -/
  | lvlwMessage (lane : Fin 2) (message : List Byte)
  /-- R297: A unit asks its partner for its copy of a bad or stomped status slot. -/
  | slotReq (lane : Fin 2) (message : List Byte)
  /-- R297: A unit receives the partner's good copy of a status slot. -/
  | slotMessage (lane : Fin 2) (message : List Byte)
  /-- R300: A unit receives the partner's DIGEST and judges a mismatch period explained or unexplained. -/
  | digest (lane : Fin 2) (message : List Byte)
  /-- R312: A unit receives a strand frame over the tie link and launches or returns it at the tail. -/
  | tailframe (lane : Fin 2) (message : List Byte)
  /-- R303: A CONTROL YIELD message arrives and arms takeover at the next boundary. -/
  | controlYield (lane : Fin 2) (message : List Byte)
  /-- R322: An ACTIVE receiving CONTROL TAKEOVER yields at once. -/
  | controlTakeover (lane : Fin 2) (message : List Byte)
  /-- R324: A CONTROL ROLE message reports the sender's role change. -/
  | controlRole (lane : Fin 2) (message : List Byte)
  /-- R324: A CONTROL BROKEN message tells the partner which ports to serve from the tail. -/
  | controlBroken (lane : Fin 2) (message : List Byte)
  /-- R324: A CONTROL INTACT message tells the partner to stop serving ports from the tail. -/
  | controlIntact (lane : Fin 2) (message : List Byte)
  /-- R299: The partner compares swept state words with its own and overwrites differences. -/
  | sweep (lane : Fin 2) (message : List Byte)
  /-- R316: A joining unit receives mirrored fields in IMAGE messages. -/
  | image (lane : Fin 2) (message : List Byte)
  /-- R315: A mailbox request or response passes between the units of a pair. -/
  | mailboxMessage (lane : Fin 2) (message : List Byte)
  /-- R319: A unit receives the partner's HEALTH report into PART_HEALTHw. -/
  | healthMessage (lane : Fin 2) (message : List Byte)
  /-- R303: YIELD_IN changes level and, after 40 ns high, arms a takeover. -/
  | yieldInChange (level : Bool)
  /-- R305: A ready STANDBY becomes ACTIVE at the boundary and makes its ports heads. -/
  | takeover
  /-- R304: YIELD_IN high for two boundaries with live partner messages sets YIELD_FLT. -/
  | yieldPinFault
  /-- R311: Two periods without a good header at the tail mark the port broken and raise strand-broken. -/
  | strandBroken (port : Fin 48)
  /-- R314: Two periods with good headers from the head at the tail make a broken port intact. -/
  | strandIntact (port : Fin 48)
  /-- R313: A tail port sends TS_UP from the tail when broken or after 1 ms without training sets. -/
  | tailTrainingStart (port : Fin 48)
  /-- R316: At the first boundary after the image is complete the joining unit takes the ACTIVE's state. -/
  | joinImageComplete (state : Fin 8)
  /-- R316: After a sweep cycle and a matching DIGEST period the joining unit becomes STANDBY. -/
  | joinComplete
  /-- R317: TIE_CMD SWITCH makes the ACTIVE yield at t_LE for a planned switch. -/
  | tieSwitch (key : BitVec 16)
  /-- R317: TIE_CMD DEMOTE makes a STANDBY a RELAY at the next boundary. -/
  | tieDemote (key : BitVec 16)
  /-- R317: TIE_CMD JOIN starts joining again. -/
  | tieJoin (key : BitVec 16)
  /-- R326: TIE_CLR.CLR clears the tie compare, sweep, bridge and lane counters. -/
  | tieClr
  /-- R319: Every 100 ms a unit sends its HEALTH message. -/
  | healthSend
  /-- R319: Three missed HEALTH reports set HEALTH_LATE and raise partner-health. -/
  | healthLate
  /-- R322: Headers launched from the other end on most head ports in two periods set DUAL_HEAD. -/
  | dualHead
  /-- R327: An accord port completes training and its version is set. -/
  | accordPortTrained (port : Fin 4) (lowest : BitVec 8) (highest : BitVec 8) (d2 : BitVec 8) (prop : BitVec 16) (ownPair : Bool)
  /-- R330: A unit forwards an accord frame on the next port of its route. -/
  | accordFrameForward (port : Fin 4) (frame : List Byte)
  /-- R338: The lead receives a member's AGG frame with published values and state. -/
  | agg (port : Fin 4) (frame : List Byte)
  /-- R344: A member receives the lead's DIST frame and may take a committed change or FAULT-BLOCK. -/
  | dist (port : Fin 4) (frame : List Byte)
  /-- R341: A member checks a staged command and stages it or refuses. -/
  | stage (port : Fin 4) (frame : List Byte)
  /-- R341: The lead receives a member's acknowledgement or refusal. -/
  | ack (port : Fin 4) (frame : List Byte)
  /-- R342: A staged unit receives COMMIT with P_act and the activation instant. -/
  | commit (port : Fin 4) (frame : List Byte)
  /-- R343: A staged unit receives CANCEL and reverts. -/
  | cancel (port : Fin 4) (frame : List Byte)
  /-- R550: A member serves an object request routed from the top lead. -/
  | odreq (port : Fin 4) (frame : List Byte)
  /-- R550: The top lead receives an object response from a member. -/
  | odrsp (port : Fin 4) (frame : List Byte)
  /-- R550: Entries without ODRSP after 100 ms are answered with 0504_0000h. -/
  | odrspTimeout (tag : BitVec 16)
  /-- R334: Frames from candidates over 16 maintenance periods elect the lead and form the accord. -/
  | leadElection (level : Fin 1024) (cand : BitVec 8)
  /-- R343: t_LE of DEADLINE without every ACK makes the top lead send CANCEL. -/
  | stageDeadline
  /-- R342: At t0 of P_act every unit's committed transition takes effect. -/
  | activationInstant
  /-- R344: A staged unit without COMMIT, CANCEL or DIST by its limit reverts and raises accord-member-lost. -/
  | stageRevert
  /-- R340: LOST_N periods without a good AGG raise the accord-member-lost source. -/
  | accordMemberLost (level : Fin 1024) (member : Fin 8)
  /-- R340: LOST_N periods without a good DIST raise the accord-lead-lost source. -/
  | accordLeadLost (level : Fin 1024)
  /-- R449: A member receives the acquisition ARM frame with P_arm. -/
  | acqFrameArm (port : Fin 4) (frame : List Byte)
  /-- R450: The top lead receives a member's trigger request. -/
  | acqFrameReq (port : Fin 4) (frame : List Byte)
  /-- R450: A member receives P_trig and records from it. -/
  | acqFrameTrig (port : Fin 4) (frame : List Byte)
  /-- R450: The top lead receives a member's CLOSED for a record. -/
  | acqFrameClosed (port : Fin 4) (frame : List Byte)
  /-- R449: A member receives the acquisition DISARM frame. -/
  | acqFrameDisarm (port : Fin 4) (frame : List Byte)
  /-- R352: TIM_SET.GO steps the time in SAFE HOLD or CONFIGURED, or is refused. -/
  | timSetGo (value : BitVec 32)
  /-- R354: A PTP message is received and stamped, and the servo updates offset, delay and rate. -/
  | ptpMessage (port : Fin 2) (domain : BitVec 8) (msg : PtpMsg)
  /-- R355: Announce receipt timeout on every slave port starts holdover. -/
  | announceTimeout
  /-- R355: After HOLD_LIM s in holdover master ports announce HOLD_CLASS. -/
  | holdoverLimit
  /-- R358: A write of NEXT discards the oldest transmit stamp. -/
  | txtsNext (port : Fin 2)
  /-- R359: A PUSH appends a timed launch entry or sets FULL_REF. -/
  | launchPush (port : Fin 2) (value : BitVec 32)
  /-- R359: A station frame launches at its launch time or is discarded late. -/
  | timedLaunch (port : Fin 2)
  /-- R360: A DLY_REQ ordered set arrives at the responder. -/
  | dlyReq (link : LinkEnd) (d2 : BitVec 8) (d3 : BitVec 8)
  /-- R360: Exactly 16 block times after a DLY_REQ the responder sends DLY_RSP. -/
  | dlyRspSend (link : LinkEnd)
  /-- R360: The initiator receives DLY_RSP and computes the propagation delay. -/
  | dlyRsp (link : LinkEnd) (d2 : BitVec 8) (d3 : BitVec 8) (rtt : BitVec 40)
  /-- R362: A write of TM_CTL ARM arms a cell time load at period PER, or is refused in RUNNING or COASTING. -/
  | tmArm (cell : BitVec 64) (per : BitVec 8) (frac : BitVec 8)
  /-- R363: A write of TM_BOUND schedules the cell's next boundary and step, or is refused. -/
  | tmBoundWrite (cell : BitVec 64) (value : BitVec 32)
  /-- R372: VDD_SAFE power-on takes the safety island to RESET. -/
  | vddSafePowerOn
  /-- R372: The island test ends and the island enters WAIT or HALT. -/
  | islandTestEnd (fails : BitVec 6)
  /-- R405: Every 10 ms in WAIT the island looks for a stored parameter set and enters RUN if it is good. -/
  | paramSetPoll (found : Option (List ParamWord))
  /-- R372: A mismatch of the island cores takes the island to HALT. -/
  | islandLockstepMismatch
  /-- R372: Island watchdog expiry takes the island to HALT. -/
  | islandWatchdogExpiry
  /-- R372: An uncorrectable island memory error takes the island to HALT. -/
  | islandMemoryError (corrected : Bool)
  /-- R372: An island oscillator deviation above ±2 % from REFCLK takes the island to HALT. -/
  | islandOscDeviation (absent : Bool) (dev : BitVec 8)
  /-- R370: Island clock stop or VDD_SAFE out of range asserts BLOCK and turns safe outputs off by hardware. -/
  | safeMonitorTrip
  /-- R374: Every 50 µs the island evaluates inputs, functions and outputs and reads the STATE lines. -/
  | islandCycle (pins : SafePins)
  /-- R374: A safe channel's filtered level changes after FILT × 50 µs of stable samples. -/
  | safeInputFilter (input : Fin 8) (chanB : Bool) (level : Bool)
  /-- R376: A disagreement longer than DISC sets DISC_FLT and latches the input's demand. -/
  | discrepancyFault (input : Fin 8)
  /-- R377: A test-pulse output goes dark for TP_W × 50 µs in its slot of the blotter cycle. -/
  | testPulseDark (tp : Fin 4) (samples : BitVec 16)
  /-- R379: At the check instant of TPn the island checks channels for stuck lines and cross-shorts. -/
  | testPulseCheck (tp : Fin 4) (samples : BitVec 16)
  /-- R379: TP_SET × 10 µs after the pulse the island distinguishes a cross-short from a real opening. -/
  | testPulseSettleCheck (tp : Fin 4) (samples : BitVec 16)
  /-- R380: TPn_FB differing from TPn sets TP_FLT and latches the inputs on TPn. -/
  | tpFeedbackFault (tp : Fin 4) (level : Bool)
  /-- R382: SRST_N goes low and the island starts measuring the press. -/
  | resetButtonPress
  /-- R382: Release of a press of 0.1 to 5.0 s is a valid reset. -/
  | resetButtonRelease
  /-- R382: A press reaching 5.0 s sets RST_STUCK and raises reset-stuck. -/
  | resetStuck (conn : Option (Fin 8))
  /-- R385: A readback differing from its drive longer than RB_T sets RB_FLT. -/
  | outputReadbackFault (out : Fin 2) (low : Bool) (level : Bool)
  /-- R386: Every DP_PER s an output channel starts a dark or light test of one switch. -/
  | outputTestStart (out : Fin 2) (low : Bool)
  /-- R386: At the end of the test window the readback is checked and DP_FLT set on failure. -/
  | outputTestEnd (out : Fin 2) (level : Bool)
  /-- R387: FBK_T after a channel change the feedback must show its expected level, else FBK_FLT. -/
  | outputFeedbackCheck (out : Fin 2) (level : Bool)
  /-- R392: With SBC_MODE = 1, SBC_DLY after Safe Brake Control begins Safe Block is demanded. -/
  | sbcBlockDelay
  /-- R393: FBK_T into the brake test the feedback must show the brake applied. -/
  | brakeTestFeedback (levels : BitVec 2)
  /-- R393: After BT_DUR the brake test passes or sets FAILED and INHIBIT. -/
  | brakeTestEnd
  /-- R393: Each hour in RUN advances the brake-test count and sets DUE or INHIBIT at their limits. -/
  | brakeTestHour
  /-- R395: A mate channel without a valid toggle for 40 µs demands Safe Block. -/
  | mateNotLive (chanB : Bool)
  /-- R395: One mate channel live and the other not for 5 ms sets MATE_FLT. -/
  | mateFault
  /-- R399: A safe telegram copy is validated, held or paired and accepted. -/
  | telegramReceived (path : TelegramPath) (bytes : List Byte)
  /-- R399: A held copy without its partner within SKEW is discarded and counted in SINGLE. -/
  | telegramSkewExpiry (conn : Fin 8)
  /-- R400: No accepted pair for WD ms makes the connection LOST and latches it. -/
  | connectionWatchdog (conn : Fin 8)
  /-- R401: Every PERIOD ms the island sends a telegram on both networks. -/
  | telegramSend (conn : Fin 8)
  /-- R404: A parameter STAGE request opens a transaction or adds entries. -/
  | paramStage (conn : Fin 8) (payload : List Byte)
  /-- R404: A parameter COMMIT applies the staged set in the safe state, sets START and stores the set. -/
  | paramCommit (conn : Fin 8) (payload : List Byte)
  /-- R404: A parameter ABORT discards the open transaction. -/
  | paramAbort (conn : Fin 8) (payload : List Byte)
  /-- R404: A parameter READ returns the word at entry 0's offset. -/
  | paramRead (conn : Fin 8) (payload : List Byte)
  /-- R404: 10 s without a request discards the open parameter transaction. -/
  | paramTransactionTimeout
  /-- R410: An error line raises a KC8400 source, which latches with its class. -/
  | faultSourceRaise (events : List Raise)
  /-- R411: A level source's live cause goes absent and FLT_LIVE clears. -/
  | faultCauseAbsent (src : Fin 128)
  /-- R418: Writing 1 to FLT_STAT bits clears latches, except Lock class and present level causes. -/
  | fltStatClear (w : Fin 4) (mask : BitVec 32)
  /-- R427: FLT_CTRL INJ with KEY raises one event of the named source. -/
  | fltInject (src : Fin 128) (key : BitVec 16)
  /-- R420: FLT_CTRL REARM clears VALID and arms the first-error capture. -/
  | fltRearm
  /-- R418: FLT_CTRL CLR_ALL with KEY writes 1 to every latch bit. -/
  | fltClrAll (key : BitVec 16)
  /-- R421: FLT_CTRL APP raises one event of source 31. -/
  | fltApp
  /-- R412: A source configuration write is checked against its floor and empties the history. -/
  | fltSrcConfig (src : Fin 128) (win : Bool) (value : BitVec 32)
  /-- R424: A KS210 source latches and acts by class, possibly holding gates off, locking or bypassing. -/
  | cellSourceLatch (cell : BitVec 64) (src : Fin 32)
  /-- R425: Writing 1 to CFLT_STAT bits clears cell latches except Lock class and present causes. -/
  | cfltStatClear (cell : BitVec 64) (mask : BitVec 32)
  /-- R430: A write of REARM arms the cell's first-source capture. -/
  | cfltRearm (cell : BitVec 64)
  /-- R444: ACQ_CTRL ARM checks the configuration and starts FILL, or is refused with ARM_ERR. -/
  | acqArm
  /-- R443: ACQ_CTRL DISARM ends a running record with TRUNC and enters IDLE. -/
  | acqDisarm
  /-- R440: ACQ_CTRL FORCE makes a trigger request at the next evaluation. -/
  | acqForce
  /-- R435: At t_LE, or t0 + 45 µs in maintenance, a row is appended and the sequencer evaluated. -/
  | acqEvaluation
  /-- R438: CNT_N matches move the sequencer to NEXT, with a request if FIRE is set. -/
  | sequencerMatch
  /-- R438: TMO evaluations without a match move the sequencer to TMO_NEXT. -/
  | sequencerTimeout
  /-- R446: The copy of a record's last row and header to DDR4 completes and the record closes. -/
  | recordClose (copied : Option (BitVec 25))
  /-- R451: A write of ACQ_MARK_NEXT discards the oldest mark-log entry. -/
  | acqMarkNext
  /-- R452: ACQ_CLR clears the acquisition counters and ACQ_DEAD_MAX. -/
  | acqClr
  /-- R431: A write of CTRG_CMD.FORCE fires the cell trigger with cause 4. -/
  | ctrgForce (cell : BitVec 64)
  /-- R432: After HOLDOFF boundaries the cell trigger accepts causes again. -/
  | ctrgHoldoffEnd (cell : BitVec 64)
  /-- R456: A core pair's comparator mismatch stops the pair and latches its lockstep source. -/
  | lockstepMismatch (hart : Fin 6)
  /-- R457: SCH_LS INJ with KEY injects one test mismatch into each selected pair. -/
  | lockstepInject (mask : BitVec 6) (key : BitVec 16) (missed : BitVec 6)
  /-- R318: Every 100 ms a STANDBY or RELAY injects into every running pair. -/
  | lockstepInjectPeriodic (missed : BitVec 6)
  /-- R460: A user partition's fault ends its item and raises the user-partition source. -/
  | partitionFault (hart : Fin 6)
  /-- R460: A partition reaching its cycle budget takes interrupt 18 and is suspended until t0. -/
  | partitionBudgetExhausted (hart : Fin 6)
  /-- R459: A write of H_CFG.PART returns prefetched items the new partition may not hold. -/
  | partWrite (hart : Fin 6) (part : Fin 9)
  /-- R461: A write of Q_CFG.DEPTH discards the queue's items, or is refused above the store size. -/
  | queueDepthWrite (queue : Fin 64) (depth : BitVec 11)
  /-- R463: A write of SCH_PUSH commits the staged item to a queue, stalls, or reports its RESULT. -/
  | schPush (master : Fin 19) (queue : Fin 64) (nb : Bool)
  /-- R464: A stalled push completes as soon as its queue has a place. -/
  | pushStallComplete (master : Fin 19)
  /-- R464: No place within BP_TO ends the push with RESULT 2 and raises source 29. -/
  | pushBackpressureTimeout (master : Fin 19)
  /-- R465: At t0 + TICK_OFF the period timer pushes a tick item or drops it. -/
  | queueTick (queue : Fin 64)
  /-- R467: A read of SCH_GET takes the item in the oldest filled slot. -/
  | schGet (hart : Fin 6)
  /-- R467: A read of SCH_GET_WAIT takes an item or stalls until one arrives. -/
  | schGetWait (hart : Fin 6)
  /-- R467: An item arriving for a stalled SCH_GET_WAIT completes the read. -/
  | getWaitResume (hart : Fin 6)
  /-- R467: GET_TO without an item ends SCH_GET_WAIT with VALID = 0. -/
  | getWaitTimeout (hart : Fin 6)
  /-- R469: At the t0 closing each LOAD_WIN window the hart's LOAD is updated. -/
  | hartLoadUpdate (hart : Fin 6) (busy : BitVec 48) (cycles : BitVec 48)
  /-- R475: SCH_CLR clears queue and hart counts, peaks, histograms and trace status. -/
  | schClr
  /-- R472: A 48-bit counter wraps, sets WRAP and may raise interrupt 17. -/
  | counterWrap (hart : Fin 6) (n : Fin 12)
  /-- R473: A write of CNTn_HI sets the whole counter from both words. -/
  | counterWrite (master : Fin 19) (hart : Fin 6) (n : Fin 12) (high : Bool) (value : BitVec 32)
  /-- R473: PMC_CTRL.FREEZE stops or restarts every counter of every hart. -/
  | pmcFreeze (freeze : Bool) (advance : List (BitVec 48))
  /-- R474: A write of SNAP_GO starts a snapshot of all counters. -/
  | snapshotGo (advance : List (BitVec 48))
  /-- R474: At t0 + SNAP_OFF in snapshot modes 1 and 2 a snapshot starts. -/
  | snapshotTimed (advance : List (BitVec 48))
  /-- R479: A read finds a corrected or uncorrectable SECDED error and raises source 14 or 15. -/
  | sramEccError (access : Fin 6) (master : Fin 19) (addr : BitVec 32) (corrected : Bool)
  /-- R486: A write to a protected code region ends with a bus error and raises source 22. -/
  | protectedWrite (master : Fin 19) (addr : BitVec 32)
  /-- R482: A MEM_PWRw write requests bank power states or is refused with PWR_REF. -/
  | memPwrWrite (w : Fin 4) (value : BitVec 32)
  /-- R481: A bank completes its power transition and MEM_PSTATw shows it. -/
  | bankPowerDone (bank : Fin 32)
  /-- R483: Every GAP × 10 ns the background test starts a region, deferred outside engine windows. -/
  | bgTestRegion
  /-- R485: A region test completes and its errors or March failure are handled. -/
  | bgTestRegionDone (corrected : Option (BitVec 32)) (uncorrectable : Option (BitVec 32)) (march : Option (BitVec 32))
  /-- R486: Every FW_CHK_S s the SHA-384 of each code region is recomputed and compared. -/
  | codeCheck (bad : BitVec 9)
  /-- R488: DDR_CTRL.INIT starts DDR4 initialisation and training in SAFE HOLD or CONFIGURED. -/
  | ddrInit
  /-- R488: DDR4 training completes and sets READY or TRAIN_FAIL. -/
  | ddrInitDone (ok : Bool)
  /-- R488: Every 32 ms the controller reads the components' temperature and sets the refresh rate. -/
  | ddrTempRead (temp : BitVec 8)
  /-- R489: Every SCRUB_H hours a patrol scrub reads the installed capacity. -/
  | ddrScrub
  /-- R489: A DDR4 beat error is corrected or uncorrectable and raises source 20 or 21. -/
  | ddrEccError (master : Fin 19) (addr : BitVec 36) (corrected : Bool)
  /-- R495: SEC_CMD ROLL sets a rollback counter to the running SVN, or is refused. -/
  | secRoll (type : Fin 16) (key : BitVec 16) (vpp : Bool)
  /-- R495: SEC_CMD REVOKE revokes a key slot, or is refused. -/
  | secRevoke (slot : Fin 4) (key : BitVec 16) (vpp : Bool)
  /-- R495: Fuse programming completes within 10 ms and sets CMD_DONE. -/
  | fuseProgramDone
  /-- R497: 1 s after entry to BYPASSED the KS210 puts its SRAM banks in RETENTION. -/
  | cellSramRetention (cell : BitVec 64)
  /-- R497: Every GAP the KS210 background test tests one region. -/
  | cellBgTestRegion (cell : BitVec 64) (corrected : Bool) (uncorrectable : Bool) (march : Bool)
  /-- R505: Every 10 ms of counted time TEMP feeds the rainflow count. -/
  | tempSample (cell : BitVec 64)
  /-- R506: Each second of counted time adds 1 to the HRS bin of the present temperature. -/
  | hoursTick (cell : BitVec 64)
  /-- R507: Every DMG_S s the cell computes the damage figure D and its components. -/
  | damageCalc (cell : BitVec 64)
  /-- R508: Every 86,400 s of counted time code(D) enters the history and DAYS is recomputed. -/
  | dailyHistory (cell : BitVec 64)
  /-- R513: Once per second each arm's cells are ranked by kept DAYS. -/
  | healthRank
  /-- R514: Every SAVE_M minutes the KC8400 reads the accumulators of each cell into its image. -/
  | healthImageSave
  /-- R515: A write of HCTL.LOADED clears FRESH. -/
  | hctlLoaded (cell : BitVec 64)
  /-- R502: A write of C_NOM or ESR0 resets the estimator state. -/
  | hcfgNomWrite (cell : BitVec 64) (esr : Bool) (value : BitVec 32)
  /-- R516: Every MON_S s each ageing monitor measures δ_m and HLT_CHIP is recomputed. -/
  | ageingMeasure (ratios : List (BitVec 32))
  /-- R517: Each whole hour with VDD_CORE up increments AGE_H. -/
  | ageHour
  /-- R529: An object read returns the field, right-aligned, or aborts. -/
  | odRead (client : Client) (index : BitVec 16) (sub : BitVec 8)
  /-- R530: An object write is one read-modify-write of its register, or aborts. -/
  | odWrite (client : Client) (index : BitVec 16) (sub : BitVec 8) (data : BitVec 64)
  /-- R524: A write of sub-index 01h sets the session's SELECT or aborts. -/
  | odSelectWrite (client : Client) (index : BitVec 16) (data : BitVec 32)
  /-- R534: A write of 2500h:40 selects the session's cell or all cells. -/
  | odCellWrite (client : Client) (data : BitVec 64)
  /-- R538: Writing "save" to 1010h:01 stores the configuration to the boot flash. -/
  | odStore (client : Client) (data : BitVec 32)
  /-- R539: Writing "load" to 1011h:01 erases both stored copies at the next entry to SAFE HOLD. -/
  | odRestoreDefaults (client : Client) (data : BitVec 32)
  /-- R551: OD_REPLAY.CLR empties the replay list. -/
  | odReplayClr
  /-- R537: Every 10 ms during a FULL step the KC8400 polls CAL_STATUS and records the new CAL_c. -/
  | calFullPoll (cell : BitVec 64)
  /-- R540: A CANopen FD USDO request is served for a client session. -/
  | usdoRequest (port : Fin 2) (node : BitVec 7) (index : BitVec 16) (sub : BitVec 8) (write : Option (List Byte))
  /-- R540: A CAN client silent for IDLE seconds loses its session. -/
  | canSessionIdle (port : Fin 2) (node : BitVec 7)
  /-- R523: Every producer heartbeat time a heartbeat with the state code is sent. -/
  | heartbeat (port : Fin 2)
  /-- R544: HELLO opens a UDP session at the negotiated version. -/
  | hello (d : Datagram)
  /-- R543: BYE closes the UDP session after the response. -/
  | bye (d : Datagram)
  /-- R545: A UDP READ executes its entries in order. -/
  | udpRead (d : Datagram)
  /-- R545: A UDP WRITE executes its entries in order, stopping at the first abort. -/
  | udpWrite (d : Datagram)
  /-- R547: DREAD reads a range of the health image domain. -/
  | dread (d : Datagram)
  /-- R547: DWRITE writes a range of the health image domain in SAFE HOLD or CONFIGURED. -/
  | dwrite (d : Datagram)
  /-- R548: A SETPOINT message delivers set-point values to station-Ethernet slots. -/
  | setpoint (d : Datagram)
  /-- R544: A session without a good datagram for IDLE seconds closes. -/
  | udpSessionIdle (slot : Fin 8)
  /-- R541: A station port answers an ARP request. -/
  | arpRequest (net : Fin 2) (asker : BitVec 32) (target : BitVec 32)
  /-- R541: A station port answers an ICMP echo request. -/
  | icmpEcho (net : Fin 2) (source : BitVec 32) (dest : BitVec 32) (plain : Bool) (payload : List Byte)
  /-- R575: A supply leaving its monitor window raises source 11 or holds RESET. -/
  | supplyMonitor (supply : Fin 16)
  /-- R46: Every 10 ms the clock monitors compare the three reference clocks. -/
  | clockMonitorWindow (ref : BitVec 32) (sd0 : BitVec 32) (sd1 : BitVec 32)
  /-- R591: A write to a register without its own row takes effect whole or is discarded whole. -/
  | registerWrite (master : Fin 19) (addr : BitVec 36) (width : Fin 9) (data : BitVec 64)
  /-- R31: With SYS_RST_N already high, the last KC8400 supply monitor returning inside its window takes RESET to SELF-TEST. -/
  | supplyMonitorsGood
  /-- R538: The stored configuration copy has been written and read back, or has failed, and the 1010h write is answered. -/
  | storeComplete (ok : Bool)
  /-- R474: A snapshot completes, SNAP_SEQ increments, PMC_SNAP_T is written and BUSY clears. -/
  | snapshotComplete
  /-- R425: The live cause of a KS210 level source ends (VIOG back in range, junction cooled, VSUP above 2.7 V, readback mismatch gone), CFLT LIVE clears and the latch becomes clearable. -/
  | cellLiveCauseAbsent (cell : BitVec 64) (src : Fin 32)
  deriving DecidableEq, Repr

end Sys2Proof
end

