-- ==== Sys2Proof/Decode.lean ====
section
/-! DEFINITION. Commands from words. The table of operations and events gives its rows no bits, so no word spells one. -/

namespace Sys2Proof

def decodeTableWord (_nbits _w : Nat) : Option Instr := none

end Sys2Proof
end

