-- ==== Sys2Proof/Config.lean ====
section
/-! DEFINITION. What a part or an implementation fixes and the spec leaves open: free values. None has a body, so
nothing rests on a value of it. -/

namespace Sys2Proof

/-- A value that the spec leaves open, numbered by how many were drawn before it (log entry 2). -/
opaque Config.freeValue : Nat → BitVec 32

/-- The unique ID fused into a KS210, by its extended address (log entry 4). -/
opaque Config.cellUid : Nat → BitVec 64

/-- The unique ID fused into the KC8400 (log entry 4). -/
opaque Config.unitUid : BitVec 64

/-- A word of the SRAM of a KS210, whose content its firmware decides: by unique ID, address and time (log entry 17). -/
opaque Config.cellSram : Nat → Nat → Nat → BitVec 32

/-- Sign and payload of the quiet NaN that a binary32 operation delivers, by its operands (log entry 15). -/
opaque Config.nanBits : Nat → Nat → BitVec 23

/-- A power in binary32 by the patterns of base and exponent, whose rounding the spec does not state (log entry 19). -/
opaque Config.agePower : Nat → Nat → BitVec 32

end Sys2Proof
end

