-- ==== Sys2Proof/Machine/Maps.lean ====
section
/-! DEFINITION. Sparse maps as plain data: a list of key and value pairs in one canonical form, the keys strictly
rising and no entry equal to what an unlisted key reads as. Memory, the register banks and every per-index record of the
block are held so. -/

namespace Sys2Proof.Machine

/-- A sparse map from natural numbers. -/
abbrev NMap (α : Type) := List (Nat × α)

/-- What key `k` reads as, `d k` being what an unlisted key reads as. -/
def mapGet {α : Type} (d : Nat → α) : NMap α → Nat → α
  | [], k => d k
  | (k', v) :: r, k => if k' = k then v else mapGet d r k

/-- The map without key `k`. -/
def mapErase {α : Type} (m : NMap α) (k : Nat) : NMap α :=
  m.filter fun e => e.1 != k

/-- `(k, v)` put before the first larger key. -/
def mapInsert {α : Type} (k : Nat) (v : α) : NMap α → NMap α
  | [] => [(k, v)]
  | e :: r => if k < e.1 then (k, v) :: e :: r else e :: mapInsert k v r

/-- The map with key `k` reading `v`; an entry equal to what an unlisted key reads as is not listed. -/
def mapSet {α : Type} [DecidableEq α] (d : Nat → α) (m : NMap α) (k : Nat) (v : α) : NMap α :=
  if v = d k then mapErase m k else mapInsert k v (mapErase m k)

/-- Keys strictly rising, each above `lo` where a bound is given. -/
def mapSorted {α : Type} : Option Nat → NMap α → Bool
  | _, [] => true
  | none, (k, _) :: r => mapSorted (some k) r
  | some lo, (k, _) :: r => decide (lo < k) && mapSorted (some k) r

/-- The canonical form: keys strictly rising and no entry equal to what an unlisted key reads as. -/
def mapWf {α : Type} [DecidableEq α] (d : Nat → α) (m : NMap α) : Bool :=
  mapSorted none m && m.all fun e => !decide (e.2 = d e.1)

/-- The keys listed, rising. -/
def mapKeys {α : Type} (m : NMap α) : List Nat := m.map Prod.fst

/-- Key `k` changed by `f`. -/
def mapUpd {α : Type} [DecidableEq α] (d : Nat → α) (m : NMap α) (k : Nat) (f : α → α) : NMap α :=
  mapSet d m k (f (mapGet d m k))

end Sys2Proof.Machine
end

