-- ==== Sys2Proof/Machine/Bits.lean ====
section
/-! DEFINITION. Bit fields of words, byte strings and their byte order, saturating counts, and the two check codes that
frames and datagrams use. -/

namespace Sys2Proof.Machine

/-- Bits `lo` to `lo + w - 1` of `n`. -/
def bitsOf (n lo w : Nat) : Nat := n / 2 ^ lo % 2 ^ w

/-- `n` with bits `lo` to `lo + w - 1` replaced by `v`. -/
def setBits (n lo w v : Nat) : Nat :=
  n % 2 ^ lo + (v % 2 ^ w) * 2 ^ lo + n / 2 ^ (lo + w) * 2 ^ (lo + w)

/-- Bit `i` of `n`. -/
def bitOf (n i : Nat) : Bool := n / 2 ^ i % 2 == 1

/-- `n` with bit `i` set to `b`. -/
def putBit (n i : Nat) (b : Bool) : Nat := setBits n i 1 b.toNat

/-- A number as a two's-complement integer of `w` bits. -/
def toSigned (w n : Nat) : Int :=
  let m := n % 2 ^ w
  if m < 2 ^ (w - 1) then (m : Int) else (m : Int) - 2 ^ w

/-- The `w`-bit two's-complement pattern of an integer. -/
def ofSigned (w : Nat) (i : Int) : Nat := (i % (2 ^ w : Int)).toNat

/-- An integer held between two bounds. -/
def clampInt (lo hi i : Int) : Int := if i < lo then lo else if hi < i then hi else i

/-- A count that saturates at the largest value of `w` bits. -/
def satAdd (w a b : Nat) : Nat := min (2 ^ w - 1) (a + b)

/-- Little-endian bytes of `n`, `k` of them. -/
def bytesLE : Nat → Nat → List Byte
  | 0, _ => []
  | k + 1, n => BitVec.ofNat 8 n :: bytesLE k (n / 256)

/-- Big-endian bytes of `n`, `k` of them. -/
def bytesBE (k n : Nat) : List Byte := (bytesLE k n).reverse

/-- The number a little-endian byte string spells. -/
def natLE : List Byte → Nat
  | [] => 0
  | b :: r => b.toNat + 256 * natLE r

/-- The number a big-endian byte string spells. -/
def natBE (l : List Byte) : Nat := natLE l.reverse

/-- Byte `i` of a string, 0 past its end. -/
def byteAt (l : List Byte) (i : Nat) : Nat := (l.getD i 0#8).toNat

/-- `k` bytes from offset `i` on, read little-endian. -/
def leAt (l : List Byte) (i k : Nat) : Nat := natLE ((l.drop i).take k)

/-- `k` bytes from offset `i` on, read big-endian. -/
def beAt (l : List Byte) (i k : Nat) : Nat := natBE ((l.drop i).take k)

/-- `n` shifted left bit by bit into a check register of `w` bits with polynomial `p`, most significant bit first. -/
def crcMsbBits (w p : Nat) : Nat → Nat → Nat
  | 0, c => c
  | k + 1, c => crcMsbBits w p k (if c / 2 ^ (w - 1) % 2 = 1 then (2 * c % 2 ^ w) ^^^ p else 2 * c % 2 ^ w)

/-- CRC-16 with polynomial 1021h over bytes, most significant bit first, from check value `c`. -/
def crc16From (c : Nat) (l : List Byte) : Nat :=
  l.foldl (fun c b => crcMsbBits 16 0x1021 8 (c ^^^ (b.toNat * 256))) c

/-- One byte into a check register whose low bit leads, with reversed polynomial `p`. -/
def crcLsbBits (p : Nat) : Nat → Nat → Nat
  | 0, c => c
  | k + 1, c => crcLsbBits p k (if c % 2 = 1 then (c / 2) ^^^ p else c / 2)

/-- CRC-32C (Castagnoli, reversed polynomial 82F6_3B78h, initial value and final inversion all ones). -/
def crc32c (l : List Byte) : Nat :=
  (l.foldl (fun c b => crcLsbBits 0x82F63B78 8 (c ^^^ b.toNat)) 0xFFFFFFFF) ^^^ 0xFFFFFFFF

/-- The largest of a list, 0 when empty. -/
def maxOf (l : List Nat) : Nat := l.foldl Nat.max 0

/-- The sum of a list. -/
def sumOf (l : List Nat) : Nat := l.foldl (· + ·) 0

/-- The numbers 0 to `n - 1`. -/
def upto (n : Nat) : List Nat := List.range n

/-- An element put before the first whose key is no smaller. -/
def insertBy {α : Type} (key : α → Nat) (x : α) : List α → List α
  | [] => [x]
  | y :: r => if key x ≤ key y then x :: y :: r else y :: insertBy key x r

/-- A list in rising order of a key, equals in their order. -/
def sortBy {α : Type} (key : α → Nat) (l : List α) : List α := l.foldr (insertBy key) []

/-- Round to nearest, ties to even, of a quotient. -/
def rneDiv (a b : Nat) : Nat :=
  let q := a / b
  let r := a % b
  if 2 * r < b then q else if b < 2 * r then q + 1 else if q % 2 = 0 then q else q + 1

/-- Round to nearest, ties to even, of a signed quotient. -/
def rneDivInt (a : Int) (b : Nat) : Int :=
  if 0 ≤ a then (rneDiv a.toNat b : Int) else -(rneDiv (-a).toNat b : Int)

/-- `a / b` rounded up. -/
def ceilDiv (a b : Nat) : Nat := (a + b - 1) / b

end Sys2Proof.Machine
end

