-- ==== Sys2Proof/Machine/Fields.lean ====
section
/-! DEFINITION. The fields of the registers by name: a field is the byte address of its register, its lowest bit and its
width. `R.<REGISTER>_<FIELD>` names a field of the KC8400, `K.<REGISTER>_<FIELD>` one of a KS210, as the register tables
of the spec give them; the arguments are the indices of a register array, then of a field array. -/

namespace Sys2Proof.Machine

/-- A field of a register: the register's byte address, the lowest bit, the width. -/
structure Fld where
  addr : Nat
  lo : Nat
  width : Nat
  deriving DecidableEq, Repr


def K.DEV_UID_LO_UID_LO : Fld := ⟨0x0, 0, 32⟩
def K.DEV_UID_HI_UID_HI : Fld := ⟨0x4, 0, 32⟩
def K.DEV_REV_REV : Fld := ⟨0x8, 0, 32⟩
def K.DEV_VER_VER : Fld := ⟨0xC, 0, 32⟩
def K.LNK_CFG_CMD_OFF : Fld := ⟨0x10000, 0, 12⟩
def K.LNK_CFG_CDN_OFF : Fld := ⟨0x10000, 16, 12⟩
def K.LNK_CFG2_CUP_OFF : Fld := ⟨0x10004, 0, 12⟩
def K.LNK_CFG2_SILL_EN : Fld := ⟨0x10004, 12, 1⟩
def K.LNK_CFG2_FAR_END : Fld := ⟨0x10004, 13, 1⟩
def K.LNK_CFG2_SIL_CH0 : Fld := ⟨0x10004, 14, 4⟩
def K.LNK_CFG2_SIL_CH1 : Fld := ⟨0x10004, 18, 4⟩
def K.LNK_ORIG_T_ORIG : Fld := ⟨0x10008, 0, 16⟩
def K.LNK_ORIG_NCELL : Fld := ⟨0x10008, 16, 7⟩
def K.LNK_STATUS_UP_PORT : Fld := ⟨0x1000C, 0, 1⟩
def K.LNK_STATUS_LOCK_UP : Fld := ⟨0x1000C, 1, 1⟩
def K.LNK_STATUS_LOCK_DN : Fld := ⟨0x1000C, 2, 1⟩
def K.LNK_STATUS_ORIGINATES : Fld := ⟨0x1000C, 3, 1⟩
def K.LNK_STATUS_POS : Fld := ⟨0x1000C, 8, 7⟩
def K.LNK_STATUS_VER_MIN : Fld := ⟨0x1000C, 16, 4⟩
def K.LNK_STATUS_VER_MAJ : Fld := ⟨0x1000C, 20, 4⟩
def K.LNK_ERR_CMD_CRC : Fld := ⟨0x10010, 0, 16⟩
def K.LNK_ERR_HDR_CRC : Fld := ⟨0x10010, 16, 16⟩
def K.LNK_ERR2_BLK_ERR : Fld := ⟨0x10014, 0, 16⟩
def K.LNK_ERR2_PER_ERR : Fld := ⟨0x10014, 16, 8⟩
def K.LNK_ERR2_MB_COLL : Fld := ⟨0x10014, 24, 8⟩
def K.LNK_CLR_CLR : Fld := ⟨0x10018, 0, 1⟩
def K.SUB_CFG_HEAD_EN : Fld := ⟨0x10100, 0, 1⟩
def K.SUB_CFG_SUB_LAUNCH : Fld := ⟨0x10100, 16, 16⟩
def K.SUB_STATUS_K : Fld := ⟨0x10104, 0, 4⟩
def K.SUB_STATUS_SUB_OVER : Fld := ⟨0x10104, 4, 1⟩
def K.SUB_STATUS_SUB_LONG : Fld := ⟨0x10104, 5, 1⟩
def K.SUB_STATUS_UNREACH : Fld := ⟨0x10104, 6, 1⟩
def K.SUB_STATUS_LVL_OVER : Fld := ⟨0x10104, 7, 1⟩
def K.SUB_STATUS_USABLE : Fld := ⟨0x10104, 8, 8⟩
def K.SUB_STATUS_SUB_VER : Fld := ⟨0x10104, 16, 8⟩
def K.SUB_STATUS_LEVEL_SHORT : Fld := ⟨0x10104, 24, 1⟩
def K.SUB_LAT_A : Fld := ⟨0x10108, 0, 16⟩
def K.SUB_LAT_PROP : Fld := ⟨0x10108, 16, 16⟩
def K.PWM_CFG_BRIDGE : Fld := ⟨0x20000, 0, 1⟩
def K.PWM_CFG_UPD : Fld := ⟨0x20000, 1, 1⟩
def K.PWM_CFG_POLICY : Fld := ⟨0x20000, 2, 2⟩
def K.PWM_CFG_ZSEL : Fld := ⟨0x20000, 4, 1⟩
def K.PWM_CFG_MASK_EN : Fld := ⟨0x20000, 5, 1⟩
def K.PWM_CFG_SYNC_MODE : Fld := ⟨0x20000, 6, 2⟩
def K.PWM_DT1_DT_H : Fld := ⟨0x20004, 0, 11⟩
def K.PWM_DT1_DT_L : Fld := ⟨0x20004, 16, 11⟩
def K.PWM_DT2_DT_H : Fld := ⟨0x20008, 0, 11⟩
def K.PWM_DT2_DT_L : Fld := ⟨0x20008, 16, 11⟩
def K.PWM_MINP_MINP : Fld := ⟨0x2000C, 0, 11⟩
def K.PWM_TIME_TC : Fld := ⟨0x20010, 0, 16⟩
def K.PWM_TIME_CAR_N : Fld := ⟨0x20010, 16, 12⟩
def K.PWM_TIME_ARM : Fld := ⟨0x20010, 28, 3⟩
def K.PWM_PHASE_PHI : Fld := ⟨0x20014, 0, 28⟩
def K.PWM_CAR_ALIGN : Fld := ⟨0x20018, 0, 12⟩
def K.PWM_MASKA_ZERO : Fld := ⟨0x2001C, 0, 4⟩
def K.PWM_MASKA_IPOS : Fld := ⟨0x2001C, 4, 4⟩
def K.PWM_MASKA_INEG : Fld := ⟨0x2001C, 8, 4⟩
def K.PWM_MASKB_ZERO : Fld := ⟨0x20020, 0, 4⟩
def K.PWM_MASKB_IPOS : Fld := ⟨0x20020, 4, 4⟩
def K.PWM_MASKB_INEG : Fld := ⟨0x20020, 8, 4⟩
def K.PWM_MASKT_GUARD : Fld := ⟨0x20024, 0, 10⟩
def K.PWM_MASKT_OPEN_MAX : Fld := ⟨0x20024, 16, 8⟩
def K.PWM_SYNC_TOL : Fld := ⟨0x20028, 0, 8⟩
def K.PWM_SYNC_COMP : Fld := ⟨0x20028, 8, 8⟩
def K.PWM_POL_INV : Fld := ⟨0x2002C, 0, 4⟩
def K.PWM_BYP_BYP_DLY : Fld := ⟨0x20030, 0, 11⟩
def K.TRIP_CFG_TRIP_EN : Fld := ⟨0x20034, 0, 4⟩
def K.BYP_CMD_BYPASS : Fld := ⟨0x20038, 0, 1⟩
def K.BYP_CMD_KEY : Fld := ⟨0x20038, 16, 16⟩
def K.PWM_STATUS_ENTRY : Fld := ⟨0x20040, 0, 2⟩
def K.PWM_STATUS_STATE : Fld := ⟨0x20040, 4, 4⟩
def K.PWM_STATUS_MASK_ACT : Fld := ⟨0x20040, 8, 2⟩
def K.PWM_STATUS_SYNC_LOST : Fld := ⟨0x20040, 10, 1⟩
def K.PWM_STATUS_ACC_POL : Fld := ⟨0x20040, 11, 1⟩
def K.PWM_STATUS_GATES : Fld := ⟨0x20040, 12, 4⟩
def K.PWM_ACC_ACC : Fld := ⟨0x20044, 0, 32⟩
def K.PWM_CNT_SHORT : Fld := ⟨0x20048, 0, 16⟩
def K.PWM_CNT_LOST : Fld := ⟨0x20048, 16, 16⟩
def K.TRIP_STATUS_TRIP : Fld := ⟨0x20050, 0, 4⟩
def K.TRIP_STATUS_CMP_ACT : Fld := ⟨0x20050, 4, 4⟩
def K.TRIP_STATUS_GATE_FLT : Fld := ⟨0x20050, 8, 4⟩
def K.TRIP_STATUS_BYP_FLT : Fld := ⟨0x20050, 12, 1⟩
def K.TRIP_STATUS_HW_BYP : Fld := ⟨0x20050, 13, 1⟩
def K.TRIP_STATUS_CLEAR_REFUSED : Fld := ⟨0x20050, 16, 1⟩
def K.GATE_RB_PIN : Fld := ⟨0x20054, 0, 4⟩
def K.GATE_RB_BYP_PIN : Fld := ⟨0x20054, 4, 1⟩
def K.PWM_SYNCST_ERR_CNT : Fld := ⟨0x20058, 0, 8⟩
def K.ADC_CFG_ALIGN : Fld := ⟨0x30000, 0, 1⟩
def K.ADC_CFG_DIFF01 : Fld := ⟨0x30000, 1, 1⟩
def K.ADC_CFG_DIFF23 : Fld := ⟨0x30000, 2, 1⟩
def K.ADC_CFG_CAL_N : Fld := ⟨0x30000, 3, 2⟩
def K.SEQ_CFG_SEQ_LEN : Fld := ⟨0x30004, 0, 5⟩
def K.SEQ_CFG_SIM_N : Fld := ⟨0x30004, 5, 2⟩
def K.SEQ_EL0_EL (k : Nat) : Fld := ⟨0x30008, 4 * k, 4⟩
def K.SEQ_EL1_EL (k : Nat) : Fld := ⟨0x3000C, 4 * k, 4⟩
def K.VCAP_CFG_CH : Fld := ⟨0x30010, 0, 4⟩
def K.VCAP_CFG_SCALE : Fld := ⟨0x30010, 8, 24⟩
def K.TEMP_CFG_MASK : Fld := ⟨0x30014, 0, 12⟩
def K.TEMP_CFG_TOFF : Fld := ⟨0x30014, 16, 16⟩
def K.TEMP_SCALE_TSCALE : Fld := ⟨0x30018, 0, 16⟩
def K.ADC_STATUS_CAL_BUSY : Fld := ⟨0x3001C, 0, 1⟩
def K.ADC_STATUS_CONV_BUSY : Fld := ⟨0x3001C, 1, 1⟩
def K.ADC_STATUS_SKIP_CNT : Fld := ⟨0x3001C, 8, 8⟩
def K.ADC_STATUS_RESTART_CNT : Fld := ⟨0x3001C, 16, 16⟩
def K.INJ_REQ_CH : Fld := ⟨0x30020, 0, 4⟩
def K.INJ_REQ_URGENT : Fld := ⟨0x30020, 4, 1⟩
def K.INJ_STATUS_DEPTH : Fld := ⟨0x30024, 0, 3⟩
def K.INJ_STATUS_OVF : Fld := ⟨0x30024, 3, 1⟩
def K.INJ_STATUS_DONE : Fld := ⟨0x30024, 4, 1⟩
def K.INJ_STATUS_COUNT : Fld := ⟨0x30024, 8, 8⟩
def K.INJ_RESULT_VALUE : Fld := ⟨0x30028, 0, 32⟩
def K.INJ_INFO_CH : Fld := ⟨0x3002C, 0, 4⟩
def K.INJ_INFO_URGENT : Fld := ⟨0x3002C, 4, 1⟩
def K.INJ_INFO_SUSPECT : Fld := ⟨0x3002C, 5, 1⟩
def K.INJ_INFO_OVR : Fld := ⟨0x3002C, 6, 1⟩
def K.INJ_TIME_TIME : Fld := ⟨0x30030, 0, 32⟩
def K.CAL_CMD_CH : Fld := ⟨0x30034, 0, 4⟩
def K.CAL_CMD_STEP : Fld := ⟨0x30034, 4, 2⟩
def K.CAL_CMD_REF : Fld := ⟨0x30034, 16, 16⟩
def K.CAL_STATUS_CAL_BUSY : Fld := ⟨0x30038, 0, 1⟩
def K.CAL_STATUS_ZERO_DONE : Fld := ⟨0x30038, 1, 1⟩
def K.CAL_STATUS_DONE : Fld := ⟨0x30038, 2, 1⟩
def K.CAL_STATUS_CAL_ERR : Fld := ⟨0x30038, 3, 1⟩
def K.CAL_STATUS_ERR_CODE : Fld := ⟨0x30038, 4, 2⟩
def K.CAL_STATUS_CH : Fld := ⟨0x30038, 8, 4⟩
def K.CAL_STATUS_CONV : Fld := ⟨0x30038, 16, 7⟩
def K.OVR_FLAG_OVR : Fld := ⟨0x3003C, 0, 12⟩
def K.OW_OPEN_OPEN : Fld := ⟨0x30040, 0, 12⟩
def K.RES_VALUE (i : Nat) : Fld := ⟨0x30100 + 0x10 * i, 0, 32⟩
def K.RES_ST_SUSPECT (i : Nat) : Fld := ⟨0x30104 + 0x10 * i, 0, 1⟩
def K.RES_ST_OVR_LAST (i : Nat) : Fld := ⟨0x30104 + 0x10 * i, 1, 1⟩
def K.RES_ST_RESTARTED (i : Nat) : Fld := ⟨0x30104 + 0x10 * i, 2, 1⟩
def K.RES_ST_STALE (i : Nat) : Fld := ⟨0x30104 + 0x10 * i, 3, 1⟩
def K.CAL_OFF (i : Nat) : Fld := ⟨0x30108 + 0x10 * i, 0, 16⟩
def K.CAL_GAIN (i : Nat) : Fld := ⟨0x30108 + 0x10 * i, 16, 16⟩
def K.OW_CFG_EN (i : Nat) : Fld := ⟨0x3010C + 0x10 * i, 0, 1⟩
def K.OW_CFG_DIR (i : Nat) : Fld := ⟨0x3010C + 0x10 * i, 1, 1⟩
def K.OW_CFG_CUR (i : Nat) : Fld := ⟨0x3010C + 0x10 * i, 2, 1⟩
def K.OW_CFG_PER (i : Nat) : Fld := ⟨0x3010C + 0x10 * i, 8, 8⟩
def K.OW_CFG_DELTA (i : Nat) : Fld := ⟨0x3010C + 0x10 * i, 16, 8⟩
def K.OW_CFG_N (i : Nat) : Fld := ⟨0x3010C + 0x10 * i, 24, 4⟩
def K.CMP_CFG_SRC (i : Nat) : Fld := ⟨0x30200 + 0x10 * i, 0, 4⟩
def K.CMP_CFG_HI_EN (i : Nat) : Fld := ⟨0x30200 + 0x10 * i, 4, 1⟩
def K.CMP_CFG_LO_EN (i : Nat) : Fld := ⟨0x30200 + 0x10 * i, 5, 1⟩
def K.CMP_CFG_HYST (i : Nat) : Fld := ⟨0x30200 + 0x10 * i, 6, 2⟩
def K.CMP_CFG_FILT (i : Nat) : Fld := ⟨0x30200 + 0x10 * i, 8, 5⟩
def K.CMP_CFG_QUAL (i : Nat) : Fld := ⟨0x30200 + 0x10 * i, 13, 3⟩
def K.CMP_CFG_BLANK (i : Nat) : Fld := ⟨0x30200 + 0x10 * i, 16, 11⟩
def K.CMP_THR_LO (i : Nat) : Fld := ⟨0x30204 + 0x10 * i, 0, 12⟩
def K.CMP_THR_HI (i : Nat) : Fld := ⟨0x30204 + 0x10 * i, 16, 12⟩
def K.TM_NOW : Fld := ⟨0x40000, 0, 32⟩
def K.TM_LOAD_VAL : Fld := ⟨0x40004, 0, 32⟩
def K.TM_CTL_ARM : Fld := ⟨0x40008, 0, 1⟩
def K.TM_CTL_PER : Fld := ⟨0x40008, 8, 8⟩
def K.TM_CTL_FRAC : Fld := ⟨0x40008, 16, 8⟩
def K.TM_BOUND : Fld := ⟨0x4000C, 0, 32⟩
def K.TM_STEP : Fld := ⟨0x40010, 0, 9⟩
def K.TM_STEP_LAYOUT : Fld := ⟨0x40010, 9, 1⟩
def K.TM_SEG : Fld := ⟨0x40014, 0, 24⟩
def K.TM_FWD_FWD_PQ : Fld := ⟨0x40018, 0, 16⟩
def K.TM_FWD_FWD_QP : Fld := ⟨0x40018, 16, 16⟩
def K.TM_ST_LOADED : Fld := ⟨0x4001C, 0, 1⟩
def K.TM_ST_ARMED : Fld := ⟨0x4001C, 1, 1⟩
def K.TM_ST_MISSED : Fld := ⟨0x4001C, 2, 1⟩
def K.CFLT_STAT_STAT : Fld := ⟨0x50000, 0, 32⟩
def K.CFLT_LIVE_LIVE : Fld := ⟨0x50004, 0, 32⟩
def K.CFLT_CLASS_CLASS (i k : Nat) : Fld := ⟨0x50008 + 0x4 * i, 4 * k, 3⟩
def K.CFLT_CLASS_BYP (i k : Nat) : Fld := ⟨0x50008 + 0x4 * i, 3 + 4 * k, 1⟩
def K.CFLT_SUM_CLASS : Fld := ⟨0x50018, 0, 3⟩
def K.CFLT_SUM_SRC : Fld := ⟨0x50018, 3, 5⟩
def K.CFLT_SUM_CLEAR_REFUSED : Fld := ⟨0x50018, 8, 1⟩
def K.CFLT_SUM_LOCK_LATCH : Fld := ⟨0x50018, 9, 1⟩
def K.CFLT_FIRST_SRC : Fld := ⟨0x5001C, 0, 5⟩
def K.CFLT_FIRST_VALID : Fld := ⟨0x5001C, 5, 1⟩
def K.CFLT_FIRST_CLASS : Fld := ⟨0x5001C, 8, 3⟩
def K.CFLT_FTIME_FTIME : Fld := ⟨0x50020, 0, 32⟩
def K.CFLT_REARM_REARM : Fld := ⟨0x50024, 0, 1⟩
def K.CTRG_CFG_EN : Fld := ⟨0x60000, 0, 1⟩
def K.CTRG_CFG_CH_EN : Fld := ⟨0x60000, 1, 1⟩
def K.CTRG_CFG_DIR : Fld := ⟨0x60000, 2, 1⟩
def K.CTRG_CFG_CMP_MASK : Fld := ⟨0x60000, 4, 4⟩
def K.CTRG_CFG_CH : Fld := ⟨0x60000, 8, 4⟩
def K.CTRG_CFG_HOLDOFF : Fld := ⟨0x60000, 16, 16⟩
def K.CTRG_THR_THR : Fld := ⟨0x60004, 0, 16⟩
def K.CTRG_MASK_MASK : Fld := ⟨0x60008, 0, 32⟩
def K.CTRG_CMD_FORCE : Fld := ⟨0x6000C, 0, 1⟩
def K.CTRG_ST_CAUSE : Fld := ⟨0x60010, 0, 3⟩
def K.CTRG_ST_HOLD : Fld := ⟨0x60010, 3, 1⟩
def K.CTRG_ST_IGNORED : Fld := ⟨0x60010, 8, 8⟩
def K.CTRG_ST_FIRES : Fld := ⟨0x60010, 16, 16⟩
def K.CTRG_TIME_TIME : Fld := ⟨0x60014, 0, 32⟩
def K.SMEM_STATE_STATE : Fld := ⟨0x70000, 0, 8⟩
def K.SMEM_ECC_CE : Fld := ⟨0x70004, 0, 16⟩
def K.SMEM_ECC_UE : Fld := ⟨0x70004, 16, 16⟩
def K.SMEM_BT_EN : Fld := ⟨0x70008, 0, 1⟩
def K.SMEM_BT_GAP : Fld := ⟨0x70008, 16, 16⟩
def K.SMEM_BTST_REGION : Fld := ⟨0x7000C, 0, 10⟩
def K.SMEM_BTST_PASSES : Fld := ⟨0x7000C, 16, 16⟩
def K.HCFG_EN : Fld := ⟨0x80000, 0, 1⟩
def K.HCFG_CE_EN : Fld := ⟨0x80000, 1, 1⟩
def K.HCFG_ICH : Fld := ⟨0x80000, 2, 4⟩
def K.HCFG_VON_EN : Fld := ⟨0x80000, 6, 4⟩
def K.HCFG_TR_HYST : Fld := ⟨0x80000, 16, 8⟩
def K.HCFG_BIN_W : Fld := ⟨0x80000, 24, 8⟩
def K.HCFG2_HT_LO : Fld := ⟨0x80004, 0, 16⟩
def K.HCFG2_HT_W : Fld := ⟨0x80004, 16, 8⟩
def K.HCFG2_RATE_D : Fld := ⟨0x80004, 24, 8⟩
def K.H_ISCALE_ISCALE : Fld := ⟨0x80008, 0, 32⟩
def K.H_IOFF_IOFF : Fld := ⟨0x8000C, 0, 16⟩
def K.H_C_NOM_C_NOM : Fld := ⟨0x80010, 0, 32⟩
def K.H_ESR0_ESR0 : Fld := ⟨0x80014, 0, 32⟩
def K.H_LAMBDA_LAMBDA : Fld := ⟨0x80018, 0, 32⟩
def K.H_MINN_MINN : Fld := ⟨0x8001C, 0, 16⟩
def K.H_MINN_DMG_S : Fld := ⟨0x8001C, 16, 16⟩
def K.H_I_REF_I_REF : Fld := ⟨0x80020, 0, 32⟩
def K.H_VON_SCALE_VON_SCALE : Fld := ⟨0x80024, 0, 32⟩
def K.H_VON_T_VON_T : Fld := ⟨0x80028, 0, 16⟩
def K.H_VON_T_VON_CH (k : Nat) : Fld := ⟨0x80028, 16 + 4 * k, 4⟩
def K.H_CAP_DROP_CAP_DROP : Fld := ⟨0x8002C, 0, 32⟩
def K.H_ESR_LIM_ESR_LIM : Fld := ⟨0x80030, 0, 32⟩
def K.H_VON_LIM_VON_LIM : Fld := ⟨0x80034, 0, 32⟩
def K.H_ALM_ALM_DAYS : Fld := ⟨0x80038, 0, 16⟩
def K.H_ALM_ALM_D : Fld := ⟨0x80038, 16, 16⟩
def K.H_W_W (i : Nat) : Fld := ⟨0x80040 + 0x4 * i, 0, 32⟩
def K.H_L_L (i : Nat) : Fld := ⟨0x80080 + 0x4 * i, 0, 32⟩
def K.H_C_EST_C_EST : Fld := ⟨0x800A0, 0, 32⟩
def K.H_R_EST_R_EST : Fld := ⟨0x800A4, 0, 32⟩
def K.H_D_D : Fld := ⟨0x800A8, 0, 32⟩
def K.H_D_WEAR_D_WEAR : Fld := ⟨0x800AC, 0, 32⟩
def K.H_DAYS_DAYS : Fld := ⟨0x800B0, 0, 16⟩
def K.H_DAYS_FLAGS : Fld := ⟨0x800B0, 16, 16⟩
def K.H_N_UPD_N_UPD : Fld := ⟨0x800B4, 0, 32⟩
def K.HCTL_FRESH : Fld := ⟨0x800C0, 0, 1⟩
def K.HCTL_LOADED : Fld := ⟨0x800C0, 1, 1⟩
def K.A_RF_RF (i : Nat) : Fld := ⟨0x80100 + 0x4 * i, 0, 32⟩
def K.A_HRS_HRS (i : Nat) : Fld := ⟨0x80140 + 0x4 * i, 0, 32⟩
def K.A_VON0_VON0 (i : Nat) : Fld := ⟨0x80160 + 0x4 * i, 0, 32⟩
def K.A_HIST_HIST (i : Nat) : Fld := ⟨0x80170 + 0x4 * i, 0, 32⟩
def K.A_HISTN_HIST_N : Fld := ⟨0x801B0, 0, 6⟩
def K.A_HISTN_HIST_SEC : Fld := ⟨0x801B0, 6, 26⟩
def K.A_THETA0_THETA0 : Fld := ⟨0x801B4, 0, 32⟩
def K.A_THETA1_THETA1 : Fld := ⟨0x801B8, 0, 32⟩
def K.A_P00_P00 : Fld := ⟨0x801BC, 0, 32⟩
def K.A_P01_P01 : Fld := ⟨0x801C0, 0, 32⟩
def K.A_P11_P11 : Fld := ⟨0x801C4, 0, 32⟩
def R.CTL_STATUS_ENABLED : Fld := ⟨0x40000000, 0, 9⟩
def R.CTL_STATUS_CHAIN_D : Fld := ⟨0x40000000, 9, 9⟩
def R.CTL_STATUS_RUNNING : Fld := ⟨0x40000000, 18, 1⟩
def R.CTL_STATUS_CHECK_ERR : Fld := ⟨0x40000000, 19, 1⟩
def R.CTL_STATUS_CHECK_CODE : Fld := ⟨0x40000000, 20, 4⟩
def R.CTL_STATUS_CHECK_CTX : Fld := ⟨0x40000000, 24, 8⟩
def R.CTL_USED_LAST : Fld := ⟨0x40000004, 0, 18⟩
def R.CTL_PEAK_PEAK : Fld := ⟨0x40000008, 0, 18⟩
def R.CTL_OVR_COUNT_COUNT : Fld := ⟨0x4000000C, 0, 32⟩
def R.CTL_OVR_LAST_FIRST_CTX : Fld := ⟨0x40000010, 0, 8⟩
def R.CTL_OVR_LAST_UNFINISHED : Fld := ⟨0x40000010, 8, 9⟩
def R.CTL_OVR_LAST_INJECTED : Fld := ⟨0x40000010, 17, 1⟩
def R.CTL_OVR_PERIOD_PERIOD : Fld := ⟨0x40000014, 0, 32⟩
def R.CTL_NUM_COUNT_COUNT : Fld := ⟨0x40000018, 0, 32⟩
def R.CTL_CLEAR_PEAK : Fld := ⟨0x4000001C, 0, 1⟩
def R.CTL_CLEAR_OVR_COUNT : Fld := ⟨0x4000001C, 1, 1⟩
def R.CTL_CLEAR_NUM_COUNT : Fld := ⟨0x4000001C, 2, 1⟩
def R.CTL_CLEAR_CTX_COUNTS : Fld := ⟨0x4000001C, 3, 1⟩
def R.SWAP_CMD_GO : Fld := ⟨0x40000020, 0, 1⟩
def R.SWAP_CMD_SWAP : Fld := ⟨0x40000020, 1, 1⟩
def R.SWAP_CMD_LOAD_X0 : Fld := ⟨0x40000020, 2, 1⟩
def R.SWAP_STATUS_PENDING : Fld := ⟨0x40000024, 0, 1⟩
def R.SWAP_STATUS_REFUSED : Fld := ⟨0x40000024, 1, 1⟩
def R.SWAP_STATUS_LIMIT_ERR : Fld := ⟨0x40000024, 2, 1⟩
def R.SWAP_STATUS_LIMIT_CTX : Fld := ⟨0x40000024, 8, 8⟩
def R.COEF_SEL_CTX : Fld := ⟨0x40000028, 0, 8⟩
def R.COEF_SEL_VIEW : Fld := ⟨0x40000028, 8, 1⟩
def R.CTL_INJECT_CTX : Fld := ⟨0x4000002C, 0, 8⟩
def R.CTL_INJECT_FORCE_OVR : Fld := ⟨0x4000002C, 8, 1⟩
def R.SWAP_SEL_SEL (i : Nat) : Fld := ⟨0x40000040 + 0x4 * i, 0, 32⟩
def R.CTL_OVR_FLAG_OVR (i : Nat) : Fld := ⟨0x40000060 + 0x4 * i, 0, 32⟩
def R.NUM_FLAG_NUM (i : Nat) : Fld := ⟨0x40000080 + 0x4 * i, 0, 32⟩
def R.ACT_PAGE_PAGE (i : Nat) : Fld := ⟨0x400000A0 + 0x4 * i, 0, 32⟩
def R.DESC_DIM_N_STATE (i : Nat) : Fld := ⟨0x40010000 + 0x40 * i, 0, 5⟩
def R.DESC_DIM_N_MEAS (i : Nat) : Fld := ⟨0x40010000 + 0x40 * i, 5, 5⟩
def R.DESC_DIM_N_OUT (i : Nat) : Fld := ⟨0x40010000 + 0x40 * i, 10, 4⟩
def R.DESC_DIM_N_REF (i : Nat) : Fld := ⟨0x40010000 + 0x40 * i, 14, 4⟩
def R.DESC_CTRL_EN (i : Nat) : Fld := ⟨0x40010004 + 0x40 * i, 0, 1⟩
def R.DESC_CTRL_OBS_BLK (i : Nat) : Fld := ⟨0x40010004 + 0x40 * i, 1, 1⟩
def R.DESC_CTRL_ARM (i : Nat) : Fld := ⟨0x40010004 + 0x40 * i, 2, 3⟩
def R.DESC_CTRL_REP_EN (i : Nat) : Fld := ⟨0x40010004 + 0x40 * i, 5, 1⟩
def R.DESC_CTRL_GROUP_EN (i : Nat) : Fld := ⟨0x40010004 + 0x40 * i, 6, 1⟩
def R.DESC_CTRL_GROUP (i : Nat) : Fld := ⟨0x40010004 + 0x40 * i, 7, 5⟩
def R.DESC_CTRL_GROUP_OUT (i : Nat) : Fld := ⟨0x40010004 + 0x40 * i, 12, 3⟩
def R.DESC_COST_MACS (i : Nat) : Fld := ⟨0x40010008 + 0x40 * i, 0, 11⟩
def R.DESC_COST_COST (i : Nat) : Fld := ⟨0x40010008 + 0x40 * i, 16, 5⟩
def R.DESC_ORDER_SLOT (i : Nat) : Fld := ⟨0x4001000C + 0x40 * i, 0, 8⟩
def R.DESC_ORDER_DEPTH (i : Nat) : Fld := ⟨0x4001000C + 0x40 * i, 8, 9⟩
def R.DESC_INSTAT_Y_STALE (i : Nat) : Fld := ⟨0x40010010 + 0x40 * i, 0, 16⟩
def R.DESC_INSTAT_R_STALE (i : Nat) : Fld := ⟨0x40010010 + 0x40 * i, 16, 8⟩
def R.DESC_INSTAT_F_STALE (i : Nat) : Fld := ⟨0x40010010 + 0x40 * i, 24, 8⟩
def R.DESC_COUNT_OVR_CNT (i : Nat) : Fld := ⟨0x40010014 + 0x40 * i, 0, 16⟩
def R.DESC_COUNT_NUM_CNT (i : Nat) : Fld := ⟨0x40010014 + 0x40 * i, 16, 16⟩
def R.BIND_KIND (i j : Nat) : Fld := ⟨0x40020000 + 0x180 * i + 0xc * j, 0, 4⟩
def R.BIND_INDEX (i j : Nat) : Fld := ⟨0x40020000 + 0x180 * i + 0xc * j, 4, 12⟩
def R.BIND_GAIN_GAIN (i j : Nat) : Fld := ⟨0x40020004 + 0x180 * i + 0xc * j, 0, 32⟩
def R.BIND_OFFSET_OFFSET (i j : Nat) : Fld := ⟨0x40020008 + 0x180 * i + 0xc * j, 0, 32⟩
def R.SP_CFG_SRC (i : Nat) : Fld := ⟨0x400A0000 + 0x40 * i, 0, 3⟩
def R.SP_CFG_WRAP (i : Nat) : Fld := ⟨0x400A0000 + 0x40 * i, 3, 1⟩
def R.SP_CFG_INDEX (i : Nat) : Fld := ⟨0x400A0000 + 0x40 * i, 8, 6⟩
def R.SP_CFG_TIMEOUT (i : Nat) : Fld := ⟨0x400A0000 + 0x40 * i, 16, 16⟩
def R.SP_GAIN_GAIN (i : Nat) : Fld := ⟨0x400A0004 + 0x40 * i, 0, 32⟩
def R.SP_OFFSET_OFFSET (i : Nat) : Fld := ⟨0x400A0008 + 0x40 * i, 0, 32⟩
def R.SP_RATE_RATE (i : Nat) : Fld := ⟨0x400A000C + 0x40 * i, 0, 32⟩
def R.SP_MIN_MIN (i : Nat) : Fld := ⟨0x400A0010 + 0x40 * i, 0, 32⟩
def R.SP_MAX_MAX (i : Nat) : Fld := ⟨0x400A0014 + 0x40 * i, 0, 32⟩
def R.SP_VALUE_VALUE (i : Nat) : Fld := ⟨0x400A0018 + 0x40 * i, 0, 32⟩
def R.SP_OUT_OUT (i : Nat) : Fld := ⟨0x400A001C + 0x40 * i, 0, 32⟩
def R.SP_STATUS_STALE (i : Nat) : Fld := ⟨0x400A0020 + 0x40 * i, 0, 1⟩
def R.SP_STATUS_LOST (i : Nat) : Fld := ⟨0x400A0020 + 0x40 * i, 1, 1⟩
def R.SP_STATUS_LOST_SEEN (i : Nat) : Fld := ⟨0x400A0020 + 0x40 * i, 2, 1⟩
def R.SP_STATUS_AGE (i : Nat) : Fld := ⟨0x400A0020 + 0x40 * i, 16, 16⟩
def R.GRP_WIN_LOOP (i : Nat) : Fld := ⟨0x400B0000 + 0x10 * i, 0, 3⟩
def R.GRP_WIN_ACTIVE (i : Nat) : Fld := ⟨0x400B0000 + 0x10 * i, 3, 1⟩
def R.GRP_WIN_CTX (i : Nat) : Fld := ⟨0x400B0000 + 0x10 * i, 4, 8⟩
def R.GRP_WIN_MEMBERS (i : Nat) : Fld := ⟨0x400B0000 + 0x10 * i, 12, 4⟩
def R.GRP_WIN_UNFINISHED (i : Nat) : Fld := ⟨0x400B0000 + 0x10 * i, 16, 1⟩
def R.GRP_WIN_TIE (i : Nat) : Fld := ⟨0x400B0000 + 0x10 * i, 17, 1⟩
def R.GRP_VALUE_VALUE (i : Nat) : Fld := ⟨0x400B0004 + 0x10 * i, 0, 32⟩
def R.GRP_CHANGES_CHANGES (i : Nat) : Fld := ⟨0x400B0008 + 0x10 * i, 0, 32⟩
def R.GRP_CHG_PERIOD_CHG_PERIOD (i : Nat) : Fld := ⟨0x400B000C + 0x10 * i, 0, 32⟩
def R.FB_CFG_TO_EN (i j : Nat) : Fld := ⟨0x400C0000 + 0x100 * i + 0x10 * j, 0, 1⟩
def R.FB_CFG_FRZ_EN (i j : Nat) : Fld := ⟨0x400C0000 + 0x100 * i + 0x10 * j, 1, 1⟩
def R.FB_CFG_GATE_EN (i j : Nat) : Fld := ⟨0x400C0000 + 0x100 * i + 0x10 * j, 2, 1⟩
def R.FB_CFG_AUTO_READMIT (i j : Nat) : Fld := ⟨0x400C0000 + 0x100 * i + 0x10 * j, 3, 1⟩
def R.FB_CFG_TO_N (i j : Nat) : Fld := ⟨0x400C0000 + 0x100 * i + 0x10 * j, 8, 8⟩
def R.FB_CFG_FRZ_N (i j : Nat) : Fld := ⟨0x400C0000 + 0x100 * i + 0x10 * j, 16, 8⟩
def R.FB_CFG_GATE_N (i j : Nat) : Fld := ⟨0x400C0000 + 0x100 * i + 0x10 * j, 24, 8⟩
def R.FB_GATE_GATE (i j : Nat) : Fld := ⟨0x400C0004 + 0x100 * i + 0x10 * j, 0, 32⟩
def R.FB_RECOV_RECOV_N (i j : Nat) : Fld := ⟨0x400C0008 + 0x100 * i + 0x10 * j, 0, 8⟩
def R.FB_COUNT_TO_CNT (i j : Nat) : Fld := ⟨0x400C000C + 0x100 * i + 0x10 * j, 0, 8⟩
def R.FB_COUNT_FRZ_CNT (i j : Nat) : Fld := ⟨0x400C000C + 0x100 * i + 0x10 * j, 8, 8⟩
def R.FB_COUNT_GATE_CNT (i j : Nat) : Fld := ⟨0x400C000C + 0x100 * i + 0x10 * j, 16, 8⟩
def R.FB_COUNT_PASS_CNT (i j : Nat) : Fld := ⟨0x400C000C + 0x100 * i + 0x10 * j, 24, 8⟩
def R.COAST_CFG_COAST_LIM (i : Nat) : Fld := ⟨0x400D0000 + 0x20 * i, 0, 16⟩
def R.COAST_CMD_DROP (i : Nat) : Fld := ⟨0x400D0004 + 0x20 * i, 0, 16⟩
def R.COAST_CMD_READMIT (i : Nat) : Fld := ⟨0x400D0004 + 0x20 * i, 16, 16⟩
def R.COAST_STATUS_DROPPED (i : Nat) : Fld := ⟨0x400D0008 + 0x20 * i, 0, 16⟩
def R.COAST_STATUS_COASTING (i : Nat) : Fld := ⟨0x400D0008 + 0x20 * i, 16, 1⟩
def R.COAST_STATUS_LIMIT (i : Nat) : Fld := ⟨0x400D0008 + 0x20 * i, 17, 1⟩
def R.DROP_CAUSE_CAUSE (i : Nat) : Fld := ⟨0x400D000C + 0x20 * i, 0, 32⟩
def R.COAST_TIME_PERIODS (i : Nat) : Fld := ⟨0x400D0010 + 0x20 * i, 0, 32⟩
def R.REP_CFG_EN (i j : Nat) : Fld := ⟨0x400E0000 + 0x80 * i + 0x20 * j, 0, 1⟩
def R.REP_CFG_OUT (i j : Nat) : Fld := ⟨0x400E0000 + 0x80 * i + 0x20 * j, 1, 3⟩
def R.REP_CFG_ERR_KIND (i j : Nat) : Fld := ⟨0x400E0000 + 0x80 * i + 0x20 * j, 4, 1⟩
def R.REP_CFG_ERR_Y (i j : Nat) : Fld := ⟨0x400E0000 + 0x80 * i + 0x20 * j, 5, 4⟩
def R.REP_CFG_ERR_R (i j : Nat) : Fld := ⟨0x400E0000 + 0x80 * i + 0x20 * j, 9, 3⟩
def R.REP_CFG_FREEZE (i j : Nat) : Fld := ⟨0x400E0000 + 0x80 * i + 0x20 * j, 12, 1⟩
def R.REP_CFG_LEN (i j : Nat) : Fld := ⟨0x400E0000 + 0x80 * i + 0x20 * j, 16, 13⟩
def R.REP_PHASE_PH_SRC (i j : Nat) : Fld := ⟨0x400E0004 + 0x80 * i + 0x20 * j, 0, 2⟩
def R.REP_PHASE_PH_IDX (i j : Nat) : Fld := ⟨0x400E0004 + 0x80 * i + 0x20 * j, 2, 11⟩
def R.REP_PHASE_LEAD (i j : Nat) : Fld := ⟨0x400E0004 + 0x80 * i + 0x20 * j, 16, 12⟩
def R.REP_GAIN_GAIN (i j : Nat) : Fld := ⟨0x400E0008 + 0x80 * i + 0x20 * j, 0, 32⟩
def R.REP_FORGET_FORGET (i j : Nat) : Fld := ⟨0x400E000C + 0x80 * i + 0x20 * j, 0, 32⟩
def R.REP_Q0_Q0 (i j : Nat) : Fld := ⟨0x400E0010 + 0x80 * i + 0x20 * j, 0, 32⟩
def R.REP_Q1_Q1 (i j : Nat) : Fld := ⟨0x400E0014 + 0x80 * i + 0x20 * j, 0, 32⟩
def R.REP_Q2_Q2 (i j : Nat) : Fld := ⟨0x400E0018 + 0x80 * i + 0x20 * j, 0, 32⟩
def R.REP_TLIM_TLIM (i j : Nat) : Fld := ⟨0x400E001C + 0x80 * i + 0x20 * j, 0, 32⟩
def R.REP_BASE_BASE : Fld := ⟨0x400E8000, 0, 32⟩
def R.REP_STATUS_FROZEN (i : Nat) : Fld := ⟨0x400E8100 + 0x4 * i, 0, 4⟩
def R.REP_STATUS_SAT (i : Nat) : Fld := ⟨0x400E8100 + 0x4 * i, 4, 4⟩
def R.REP_STATUS_ECC (i : Nat) : Fld := ⟨0x400E8100 + 0x4 * i, 8, 4⟩
def R.REP_STATUS_NUM (i : Nat) : Fld := ⟨0x400E8100 + 0x4 * i, 12, 4⟩
def R.REP_STATUS_INDEX0 (i : Nat) : Fld := ⟨0x400E8100 + 0x4 * i, 16, 12⟩
def R.LVL_STATUS_IN_SERVICE : Fld := ⟨0x40100000, 0, 6⟩
def R.LVL_STATUS_BLOCKED : Fld := ⟨0x40100000, 8, 6⟩
def R.LVL_STATUS_CHECK_ERR : Fld := ⟨0x40100000, 16, 1⟩
def R.LVL_STATUS_CHECK_CODE : Fld := ⟨0x40100000, 17, 3⟩
def R.SYNC_CFG_OUT_EN : Fld := ⟨0x40100008, 0, 1⟩
def R.SYNC_CFG_IN_EN : Fld := ⟨0x40100008, 1, 1⟩
def R.SYNC_CFG_SYNC_ARM : Fld := ⟨0x40100008, 2, 3⟩
def R.SYNC_CFG_TOL : Fld := ⟨0x40100008, 16, 16⟩
def R.SYNC_STATUS_ALIGNED : Fld := ⟨0x4010000C, 0, 1⟩
def R.SYNC_STATUS_ERR : Fld := ⟨0x4010000C, 1, 1⟩
def R.SYNC_STATUS_ERR_CNT : Fld := ⟨0x4010000C, 8, 8⟩
def R.STRAND_ARM_ARM (i k : Nat) : Fld := ⟨0x40100010 + 0x4 * i, 4 * k, 3⟩
def R.CELL_SEL_HANDLE : Fld := ⟨0x40100F00, 0, 16⟩
def R.CELL_LSTAT_VALID : Fld := ⟨0x40100F04, 0, 1⟩
def R.CELL_LSTAT_ELIGIBLE : Fld := ⟨0x40100F04, 1, 1⟩
def R.CELL_LSTAT_CAUSE : Fld := ⟨0x40100F04, 2, 3⟩
def R.CELL_LSTAT_ARM : Fld := ⟨0x40100F04, 5, 3⟩
def R.CELL_LSTAT_KEY_INDEX : Fld := ⟨0x40100F04, 8, 10⟩
def R.CELL_LSTAT_SWC : Fld := ⟨0x40100F04, 18, 8⟩
def R.CELL_LSTAT_ROT_BAR : Fld := ⟨0x40100F04, 26, 1⟩
def R.CELL_LSTAT_BYP_REQ : Fld := ⟨0x40100F04, 27, 1⟩
def R.CELL_VPRED_VPRED : Fld := ⟨0x40100F08, 0, 32⟩
def R.CELL_HP_HP : Fld := ⟨0x40100F0C, 0, 16⟩
def R.CELL_MISS_MISS : Fld := ⟨0x40100F10, 0, 16⟩
def R.CELL_REC_REC (i : Nat) : Fld := ⟨0x40100F14 + 0x4 * i, 0, 32⟩
def R.CELL_FLT_CLASS : Fld := ⟨0x40100F24, 0, 3⟩
def R.CELL_FLT_SRC : Fld := ⟨0x40100F24, 3, 5⟩
def R.CELL_FLT_TRIP : Fld := ⟨0x40100F24, 8, 4⟩
def R.CELL_FLT_GFLT : Fld := ⟨0x40100F24, 12, 1⟩
def R.CELL_FLT_BYPF : Fld := ⟨0x40100F24, 13, 1⟩
def R.CELL_FLT_RISES : Fld := ⟨0x40100F24, 16, 16⟩
def R.CELL_HLT_ITEM_LO (i : Nat) : Fld := ⟨0x40100F28 + 0x4 * i, 0, 16⟩
def R.CELL_HLT_ITEM_HI (i : Nat) : Fld := ⟨0x40100F28 + 0x4 * i, 16, 16⟩
def R.ARM_CFG_EN (i : Nat) : Fld := ⟨0x40101000 + 0x100 * i, 0, 1⟩
def R.ARM_CFG_MODE (i : Nat) : Fld := ⟨0x40101000 + 0x100 * i, 1, 1⟩
def R.ARM_CFG_BRIDGE (i : Nat) : Fld := ⟨0x40101000 + 0x100 * i, 2, 1⟩
def R.ARM_CFG_CAP_SRC (i : Nat) : Fld := ⟨0x40101000 + 0x100 * i, 3, 1⟩
def R.ARM_CFG_FRAC_N (i : Nat) : Fld := ⟨0x40101000 + 0x100 * i, 4, 3⟩
def R.ARM_CFG_ROT_LIM (i : Nat) : Fld := ⟨0x40101000 + 0x100 * i, 8, 8⟩
def R.ARM_CFG_RUN_MIN (i : Nat) : Fld := ⟨0x40101000 + 0x100 * i, 16, 11⟩
def R.ARM_REF_CTX (i : Nat) : Fld := ⟨0x40101004 + 0x100 * i, 0, 8⟩
def R.ARM_REF_OUT (i : Nat) : Fld := ⟨0x40101004 + 0x100 * i, 8, 3⟩
def R.ARM_ISRC_KIND (i : Nat) : Fld := ⟨0x40101008 + 0x100 * i, 0, 4⟩
def R.ARM_ISRC_INDEX (i : Nat) : Fld := ⟨0x40101008 + 0x100 * i, 4, 12⟩
def R.ARM_IGAIN_IGAIN (i : Nat) : Fld := ⟨0x4010100C + 0x100 * i, 0, 32⟩
def R.ARM_IOFFSET_IOFFSET (i : Nat) : Fld := ⟨0x40101010 + 0x100 * i, 0, 32⟩
def R.ARM_IHYST_IHYST (i : Nat) : Fld := ⟨0x40101014 + 0x100 * i, 0, 32⟩
def R.ARM_CAP_CAP (i : Nat) : Fld := ⟨0x40101018 + 0x100 * i, 0, 32⟩
def R.ARM_BAL_HYST (i : Nat) : Fld := ⟨0x4010101C + 0x100 * i, 0, 14⟩
def R.ARM_BAL_SW_W (i : Nat) : Fld := ⟨0x4010101C + 0x100 * i, 16, 8⟩
def R.ARM_BAL_SW_DECAY (i : Nat) : Fld := ⟨0x4010101C + 0x100 * i, 24, 5⟩
def R.ARM_MISS_MISS_N (i : Nat) : Fld := ⟨0x40101020 + 0x100 * i, 0, 8⟩
def R.ARM_MISS_ADMIT_N (i : Nat) : Fld := ⟨0x40101020 + 0x100 * i, 8, 8⟩
def R.ARM_MISS_MISS_BYP (i : Nat) : Fld := ⟨0x40101020 + 0x100 * i, 16, 16⟩
def R.ARM_PSC_CAR_N (i : Nat) : Fld := ⟨0x40101024 + 0x100 * i, 0, 12⟩
def R.ARM_PSCBAL_BAL_G (i : Nat) : Fld := ⟨0x40101028 + 0x100 * i, 0, 32⟩
def R.ARM_STATUS_BLOCKED (i : Nat) : Fld := ⟨0x40101040 + 0x100 * i, 0, 1⟩
def R.ARM_STATUS_BLOCK_CAUSE (i : Nat) : Fld := ⟨0x40101040 + 0x100 * i, 1, 2⟩
def R.ARM_STATUS_INS_SAT (i : Nat) : Fld := ⟨0x40101040 + 0x100 * i, 3, 1⟩
def R.ARM_STATUS_SHORT (i : Nat) : Fld := ⟨0x40101040 + 0x100 * i, 4, 1⟩
def R.ARM_STATUS_N_AVAIL (i : Nat) : Fld := ⟨0x40101040 + 0x100 * i, 16, 11⟩
def R.ARM_INS_N_INT (i : Nat) : Fld := ⟨0x40101044 + 0x100 * i, 0, 11⟩
def R.ARM_INS_POL (i : Nat) : Fld := ⟨0x40101044 + 0x100 * i, 11, 1⟩
def R.ARM_INS_D (i : Nat) : Fld := ⟨0x40101044 + 0x100 * i, 16, 12⟩
def R.ARM_NSTAR_NSTAR (i : Nat) : Fld := ⟨0x40101048 + 0x100 * i, 0, 32⟩
def R.ARM_COMM_SIGN (i : Nat) : Fld := ⟨0x4010104C + 0x100 * i, 0, 1⟩
def R.ARM_COMM_ZC_VALID (i : Nat) : Fld := ⟨0x4010104C + 0x100 * i, 1, 1⟩
def R.ARM_COMM_ZC_OFF (i : Nat) : Fld := ⟨0x4010104C + 0x100 * i, 16, 16⟩
def R.ARM_CNT_SWITCHED (i : Nat) : Fld := ⟨0x40101050 + 0x100 * i, 0, 11⟩
def R.ARM_CNT_MISSING (i : Nat) : Fld := ⟨0x40101050 + 0x100 * i, 16, 11⟩
def R.ARM_AGG_AGG (i j : Nat) : Fld := ⟨0x40101080 + 0x100 * i + 0x4 * j, 0, 32⟩
def R.PORT_CFG_EN (i : Nat) : Fld := ⟨0x40201000 + 0x100 * i, 0, 1⟩
def R.PORT_CFG_MB_RETRY (i : Nat) : Fld := ⟨0x40201000 + 0x100 * i, 4, 4⟩
def R.PORT_CFG_MB_TO (i : Nat) : Fld := ⟨0x40201000 + 0x100 * i, 8, 8⟩
def R.PORT_STATUS_LOCK (i : Nat) : Fld := ⟨0x40201004 + 0x100 * i, 0, 1⟩
def R.PORT_STATUS_TRAINED (i : Nat) : Fld := ⟨0x40201004 + 0x100 * i, 1, 1⟩
def R.PORT_STATUS_TRAIN_FAIL (i : Nat) : Fld := ⟨0x40201004 + 0x100 * i, 2, 1⟩
def R.PORT_STATUS_END (i : Nat) : Fld := ⟨0x40201004 + 0x100 * i, 3, 2⟩
def R.PORT_STATUS_MOD_ABS (i : Nat) : Fld := ⟨0x40201004 + 0x100 * i, 5, 1⟩
def R.PORT_STATUS_RX_LOS (i : Nat) : Fld := ⟨0x40201004 + 0x100 * i, 6, 1⟩
def R.PORT_STATUS_TX_FAULT (i : Nat) : Fld := ⟨0x40201004 + 0x100 * i, 7, 1⟩
def R.PORT_STATUS_VER_MAJ (i : Nat) : Fld := ⟨0x40201004 + 0x100 * i, 8, 4⟩
def R.PORT_STATUS_VER_MIN (i : Nat) : Fld := ⟨0x40201004 + 0x100 * i, 12, 4⟩
def R.PORT_STATUS_NCELL (i : Nat) : Fld := ⟨0x40201004 + 0x100 * i, 16, 7⟩
def R.PORT_LAUNCH_T_COL (i : Nat) : Fld := ⟨0x40201008 + 0x100 * i, 0, 16⟩
def R.PORT_LAUNCH_T_CMD (i : Nat) : Fld := ⟨0x40201008 + 0x100 * i, 16, 16⟩
def R.PORT_FAR_T_ORIG (i : Nat) : Fld := ⟨0x4020100C + 0x100 * i, 0, 16⟩
def R.PORT_FAR_FAR_POS (i : Nat) : Fld := ⟨0x4020100C + 0x100 * i, 16, 7⟩
def R.ERR_A_HDR_CRC (i : Nat) : Fld := ⟨0x40201010 + 0x100 * i, 0, 16⟩
def R.ERR_A_FRAME_MISS (i : Nat) : Fld := ⟨0x40201010 + 0x100 * i, 16, 16⟩
def R.ERR_B_SLOT_CRC (i : Nat) : Fld := ⟨0x40201014 + 0x100 * i, 0, 16⟩
def R.ERR_B_SLOT_STOMP (i : Nat) : Fld := ⟨0x40201014 + 0x100 * i, 16, 16⟩
def R.ERR_C_BLK_ERR (i : Nat) : Fld := ⟨0x40201018 + 0x100 * i, 0, 16⟩
def R.ERR_C_LOCK_LOSS (i : Nat) : Fld := ⟨0x40201018 + 0x100 * i, 16, 8⟩
def R.ERR_C_LATE (i : Nat) : Fld := ⟨0x40201018 + 0x100 * i, 24, 8⟩
def R.ERR_CLR_CLR (i : Nat) : Fld := ⟨0x4020101C + 0x100 * i, 0, 1⟩
def R.MB_REQ_OP (i : Nat) : Fld := ⟨0x40201020 + 0x100 * i, 0, 4⟩
def R.MB_REQ_POS (i : Nat) : Fld := ⟨0x40201020 + 0x100 * i, 8, 7⟩
def R.MB_REQ_BC (i : Nat) : Fld := ⟨0x40201020 + 0x100 * i, 15, 1⟩
def R.MB_REQ_ORIG (i : Nat) : Fld := ⟨0x40201020 + 0x100 * i, 16, 1⟩
def R.MB_PATH_PATH (i : Nat) : Fld := ⟨0x40201024 + 0x100 * i, 0, 32⟩
def R.MB_ADDR_ADDR (i : Nat) : Fld := ⟨0x40201028 + 0x100 * i, 0, 32⟩
def R.MB_DATA_DATA (i : Nat) : Fld := ⟨0x4020102C + 0x100 * i, 0, 32⟩
def R.MB_CTRL_GO (i : Nat) : Fld := ⟨0x40201030 + 0x100 * i, 0, 1⟩
def R.MB_STATUS_BUSY (i : Nat) : Fld := ⟨0x40201034 + 0x100 * i, 0, 1⟩
def R.MB_STATUS_DONE (i : Nat) : Fld := ⟨0x40201034 + 0x100 * i, 1, 1⟩
def R.MB_STATUS_TIMEOUT (i : Nat) : Fld := ⟨0x40201034 + 0x100 * i, 2, 1⟩
def R.MB_STATUS_REFUSED (i : Nat) : Fld := ⟨0x40201034 + 0x100 * i, 3, 1⟩
def R.MB_STATUS_SEQ (i : Nat) : Fld := ⟨0x40201034 + 0x100 * i, 4, 4⟩
def R.MB_STATUS_RESULT (i : Nat) : Fld := ⟨0x40201034 + 0x100 * i, 8, 8⟩
def R.MB_STATUS_TRIES (i : Nat) : Fld := ⟨0x40201034 + 0x100 * i, 16, 4⟩
def R.MB_RDATA_RDATA (i : Nat) : Fld := ⟨0x40201038 + 0x100 * i, 0, 32⟩
def R.ENUM_CTRL_AUTO (i : Nat) : Fld := ⟨0x40204000 + 0x40 * i, 0, 1⟩
def R.ENUM_CTRL_START (i : Nat) : Fld := ⟨0x40204000 + 0x40 * i, 1, 1⟩
def R.ENUM_CTRL_ACCEPT (i : Nat) : Fld := ⟨0x40204000 + 0x40 * i, 2, 1⟩
def R.ENUM_CTRL_ALL (i : Nat) : Fld := ⟨0x40204000 + 0x40 * i, 3, 1⟩
def R.ENUM_CTRL_MEMBER (i : Nat) : Fld := ⟨0x40204000 + 0x40 * i, 4, 1⟩
def R.ENUM_CTRL_POS (i : Nat) : Fld := ⟨0x40204000 + 0x40 * i, 8, 7⟩
def R.ENUM_CTRL_IDX (i : Nat) : Fld := ⟨0x40204000 + 0x40 * i, 16, 10⟩
def R.ENUM_STATUS_BUSY (i : Nat) : Fld := ⟨0x40204004 + 0x40 * i, 0, 1⟩
def R.ENUM_STATUS_DONE (i : Nat) : Fld := ⟨0x40204004 + 0x40 * i, 1, 1⟩
def R.ENUM_STATUS_OVERLONG (i : Nat) : Fld := ⟨0x40204004 + 0x40 * i, 2, 1⟩
def R.ENUM_STATUS_REFUSED (i : Nat) : Fld := ⟨0x40204004 + 0x40 * i, 3, 1⟩
def R.ENUM_STATUS_MEMBER_FULL (i : Nat) : Fld := ⟨0x40204004 + 0x40 * i, 4, 1⟩
def R.ENUM_STATUS_LAYOUT_CHG (i : Nat) : Fld := ⟨0x40204004 + 0x40 * i, 5, 1⟩
def R.ENUM_STATUS_N_OK (i : Nat) : Fld := ⟨0x40204004 + 0x40 * i, 8, 7⟩
def R.ENUM_STATUS_N_FOREIGN (i : Nat) : Fld := ⟨0x40204004 + 0x40 * i, 16, 7⟩
def R.ENUM_STATUS_N_OTHER (i : Nat) : Fld := ⟨0x40204004 + 0x40 * i, 24, 7⟩
def R.ENUM_VER_RUN (i : Nat) : Fld := ⟨0x40204008 + 0x40 * i, 0, 8⟩
def R.ENUM_VER_LIMIT_POS (i : Nat) : Fld := ⟨0x40204008 + 0x40 * i, 8, 7⟩
def R.ENUM_VER_LIMIT_KC (i : Nat) : Fld := ⟨0x40204008 + 0x40 * i, 15, 1⟩
def R.EXP_W0_UID_LO (i j : Nat) : Fld := ⟨0x40208000 + 0x1000 * i + 0x20 * j, 0, 32⟩
def R.EXP_W1_UID_HI (i j : Nat) : Fld := ⟨0x40208004 + 0x1000 * i + 0x20 * j, 0, 32⟩
def R.EXP_W2_EXPECT (i j : Nat) : Fld := ⟨0x40208008 + 0x1000 * i + 0x20 * j, 0, 1⟩
def R.EXP_W2_EXP_PORT (i j : Nat) : Fld := ⟨0x40208008 + 0x1000 * i + 0x20 * j, 1, 2⟩
def R.EXP_W3_VERDICT (i j : Nat) : Fld := ⟨0x4020800C + 0x1000 * i + 0x20 * j, 0, 3⟩
def R.EXP_W3_SWAPPED (i j : Nat) : Fld := ⟨0x4020800C + 0x1000 * i + 0x20 * j, 3, 1⟩
def R.EXP_W3_DUAL_UP (i j : Nat) : Fld := ⟨0x4020800C + 0x1000 * i + 0x20 * j, 4, 1⟩
def R.EXP_W3_VER (i j : Nat) : Fld := ⟨0x4020800C + 0x1000 * i + 0x20 * j, 8, 8⟩
def R.EXP_W3_L (i j : Nat) : Fld := ⟨0x4020800C + 0x1000 * i + 0x20 * j, 16, 8⟩
def R.EXP_RPTLO_UID (i j : Nat) : Fld := ⟨0x40208010 + 0x1000 * i + 0x20 * j, 0, 32⟩
def R.EXP_RPTHI_UID (i j : Nat) : Fld := ⟨0x40208014 + 0x1000 * i + 0x20 * j, 0, 32⟩
def R.MEMB_W0_UID_LO (i : Nat) : Fld := ⟨0x40240000 + 0x20 * i, 0, 32⟩
def R.MEMB_W1_UID_HI (i : Nat) : Fld := ⟨0x40240004 + 0x20 * i, 0, 32⟩
def R.MEMB_W2_EXPECT (i : Nat) : Fld := ⟨0x40240008 + 0x20 * i, 0, 1⟩
def R.MEMB_W2_EXP_PORT (i : Nat) : Fld := ⟨0x40240008 + 0x20 * i, 1, 2⟩
def R.MEMB_W3_VERDICT (i : Nat) : Fld := ⟨0x4024000C + 0x20 * i, 0, 3⟩
def R.MEMB_W3_SWAPPED (i : Nat) : Fld := ⟨0x4024000C + 0x20 * i, 3, 1⟩
def R.MEMB_W3_DUAL_UP (i : Nat) : Fld := ⟨0x4024000C + 0x20 * i, 4, 1⟩
def R.MEMB_W3_VER (i : Nat) : Fld := ⟨0x4024000C + 0x20 * i, 8, 8⟩
def R.MEMB_W3_L (i : Nat) : Fld := ⟨0x4024000C + 0x20 * i, 16, 8⟩
def R.MEMB_RPTLO_UID (i : Nat) : Fld := ⟨0x40240010 + 0x20 * i, 0, 32⟩
def R.MEMB_RPTHI_UID (i : Nat) : Fld := ⟨0x40240014 + 0x20 * i, 0, 32⟩
def R.MEMB_W6_HEAD (i : Nat) : Fld := ⟨0x40240018 + 0x20 * i, 0, 16⟩
def R.MEMB_W7_PATH (i : Nat) : Fld := ⟨0x4024001C + 0x20 * i, 0, 32⟩
def R.TIE_CFG_TIE_WAIT : Fld := ⟨0x40300000, 0, 16⟩
def R.TIE_CFG_TIE_HOLD : Fld := ⟨0x40300000, 16, 16⟩
def R.TIE_CMD_SWITCH : Fld := ⟨0x40300004, 0, 1⟩
def R.TIE_CMD_DEMOTE : Fld := ⟨0x40300004, 1, 1⟩
def R.TIE_CMD_JOIN : Fld := ⟨0x40300004, 2, 1⟩
def R.TIE_CMD_KEY : Fld := ⟨0x40300004, 16, 16⟩
def R.TIE_STATUS_PAIR_ID : Fld := ⟨0x40300008, 0, 1⟩
def R.TIE_STATUS_LANES : Fld := ⟨0x40300008, 1, 2⟩
def R.TIE_STATUS_ID_CONFLICT : Fld := ⟨0x40300008, 3, 1⟩
def R.TIE_STATUS_PART_ROLE : Fld := ⟨0x40300008, 4, 3⟩
def R.TIE_STATUS_YIELD_IN : Fld := ⟨0x40300008, 7, 1⟩
def R.TIE_STATUS_YIELD_OUT : Fld := ⟨0x40300008, 8, 1⟩
def R.TIE_STATUS_YIELD_FLT : Fld := ⟨0x40300008, 9, 1⟩
def R.TIE_STATUS_READY : Fld := ⟨0x40300008, 10, 1⟩
def R.TIE_STATUS_IMAGE_DONE : Fld := ⟨0x40300008, 11, 1⟩
def R.TIE_STATUS_SWEEP_DONE : Fld := ⟨0x40300008, 12, 1⟩
def R.TIE_STATUS_DUAL_HEAD : Fld := ⟨0x40300008, 13, 1⟩
def R.TIE_STATUS_HEALTH_LATE : Fld := ⟨0x40300008, 14, 1⟩
def R.TIE_STATUS_AE : Fld := ⟨0x40300008, 16, 8⟩
def R.TIE_TAKE_CAUSE : Fld := ⟨0x4030000C, 0, 2⟩
def R.TIE_TAKE_BRIDGE : Fld := ⟨0x4030000C, 8, 8⟩
def R.TIE_TAKE_PER_PERIOD : Fld := ⟨0x40300010, 0, 32⟩
def R.TIE_CMP_EXPLAINED : Fld := ⟨0x40300014, 0, 16⟩
def R.TIE_CMP_UNEXPLAINED : Fld := ⟨0x40300014, 16, 16⟩
def R.TIE_SWEEP_FIX : Fld := ⟨0x40300018, 0, 16⟩
def R.TIE_SWEEP_CYCLES : Fld := ⟨0x40300018, 16, 16⟩
def R.TIE_BRIDGE_BRIDGE_CNT : Fld := ⟨0x4030001C, 0, 32⟩
def R.TIE_BROKEN_LO_BROKEN : Fld := ⟨0x40300020, 0, 32⟩
def R.TIE_BROKEN_HI_BROKEN : Fld := ⟨0x40300024, 0, 16⟩
def R.TIE_BROKEN_HI_UNSERVED : Fld := ⟨0x40300024, 16, 16⟩
def R.TIE_LANE_BLK_ERR (i : Nat) : Fld := ⟨0x40300028 + 0x4 * i, 0, 16⟩
def R.TIE_LANE_LOCK_LOSS (i : Nat) : Fld := ⟨0x40300028 + 0x4 * i, 16, 8⟩
def R.TIE_LANE_CRC_ERR (i : Nat) : Fld := ⟨0x40300028 + 0x4 * i, 24, 8⟩
def R.TIE_DELAY_T_TIE : Fld := ⟨0x40300030, 0, 16⟩
def R.TIE_DELAY_L_R : Fld := ⟨0x40300030, 16, 16⟩
def R.TIE_CLR_CLR : Fld := ⟨0x40300034, 0, 1⟩
def R.PART_HEALTH_REPORT (i : Nat) : Fld := ⟨0x40300100 + 0x4 * i, 0, 32⟩
def R.ACD_CFG_EN : Fld := ⟨0x40400000, 0, 1⟩
def R.ACD_CFG_LVLS : Fld := ⟨0x40400000, 1, 11⟩
def R.ACD_CFG_STAGE_TO : Fld := ⟨0x40400000, 16, 8⟩
def R.ACD_CFG_ACT_LEAD : Fld := ⟨0x40400000, 24, 8⟩
def R.ACD_EPOCH_EPOCH_BYP : Fld := ⟨0x40400004, 0, 16⟩
def R.ACD_EPOCH_LOST_N : Fld := ⟨0x40400004, 16, 8⟩
def R.ACD_STATUS_FORMED : Fld := ⟨0x40400008, 0, 1⟩
def R.ACD_STATUS_TOP : Fld := ⟨0x40400008, 1, 1⟩
def R.ACD_STATUS_ELECT_DIFF : Fld := ⟨0x40400008, 2, 1⟩
def R.ACD_STATUS_WIRING : Fld := ⟨0x40400008, 3, 1⟩
def R.ACD_STATUS_LATE_COMMIT : Fld := ⟨0x40400008, 4, 1⟩
def R.ACD_STATUS_PH : Fld := ⟨0x40400008, 5, 3⟩
def R.ACD_STATUS_EPOCH : Fld := ⟨0x40400008, 8, 8⟩
def R.ACD_STATUS_ACT_MIN : Fld := ⟨0x40400008, 16, 10⟩
def R.ACD_MODE_CMD : Fld := ⟨0x4040000C, 0, 8⟩
def R.ACD_MODE_NEW_EPOCH : Fld := ⟨0x4040000C, 8, 8⟩
def R.ACD_MODE_RESULT : Fld := ⟨0x4040000C, 16, 2⟩
def R.ACD_MODE_CODE : Fld := ⟨0x4040000C, 24, 8⟩
def R.ACD_MODE_P_P_ACT : Fld := ⟨0x40400010, 0, 32⟩
def R.ACD_ROOT_DEPTH : Fld := ⟨0x40400014, 0, 10⟩
def R.ACD_VIEW_MIDX : Fld := ⟨0x40400018, 0, 3⟩
def R.ACD_VIEW_VDEPTH : Fld := ⟨0x40400018, 3, 4⟩
def R.ACD_VIEW_AIDX : Fld := ⟨0x40400018, 7, 12⟩
def R.ACD_VIEW_LOCAL : Fld := ⟨0x40400018, 31, 1⟩
def R.ACD_PORTST_TRAINED (i : Nat) : Fld := ⟨0x40400020 + 0x8 * i, 0, 1⟩
def R.ACD_PORTST_LONG (i : Nat) : Fld := ⟨0x40400020 + 0x8 * i, 1, 1⟩
def R.ACD_PORTST_PEER_ID (i : Nat) : Fld := ⟨0x40400020 + 0x8 * i, 2, 1⟩
def R.ACD_PORTST_VER (i : Nat) : Fld := ⟨0x40400020 + 0x8 * i, 8, 8⟩
def R.ACD_PORTST_DELAY (i : Nat) : Fld := ⟨0x40400020 + 0x8 * i, 16, 16⟩
def R.ACD_PORTERR_BLK_ERR (i : Nat) : Fld := ⟨0x40400024 + 0x8 * i, 0, 16⟩
def R.ACD_PORTERR_LOCK_LOSS (i : Nat) : Fld := ⟨0x40400024 + 0x8 * i, 16, 8⟩
def R.ACD_PORTERR_CRC_ERR (i : Nat) : Fld := ⟨0x40400024 + 0x8 * i, 24, 8⟩
def R.ACD_SLOT_LVL (i : Nat) : Fld := ⟨0x40400400 + 0x4 * i, 0, 10⟩
def R.ACD_SLOT_DIR (i : Nat) : Fld := ⟨0x40400400 + 0x4 * i, 10, 1⟩
def R.ACD_SLOT_MEMBER (i : Nat) : Fld := ⟨0x40400400 + 0x4 * i, 11, 3⟩
def R.ACD_SLOT_VALUE (i : Nat) : Fld := ⟨0x40400400 + 0x4 * i, 14, 5⟩
def R.ACD_SLOT_EN (i : Nat) : Fld := ⟨0x40400400 + 0x4 * i, 19, 1⟩
def R.ACD_SLOT_STALE (i : Nat) : Fld := ⟨0x40400400 + 0x4 * i, 20, 1⟩
def R.LVLE_W0_TAG (i : Nat) : Fld := ⟨0x40404000 + 0x100 * i, 0, 16⟩
def R.LVLE_W0_MIDX (i : Nat) : Fld := ⟨0x40404000 + 0x100 * i, 16, 3⟩
def R.LVLE_W0_CAND (i : Nat) : Fld := ⟨0x40404000 + 0x100 * i, 19, 1⟩
def R.LVLE_W0_NMEM (i : Nat) : Fld := ⟨0x40404000 + 0x100 * i, 20, 3⟩
def R.LVLE_W0_ROOT_SEL (i : Nat) : Fld := ⟨0x40404000 + 0x100 * i, 23, 3⟩
def R.LVLE_W1_LEAD (i : Nat) : Fld := ⟨0x40404004 + 0x100 * i, 0, 3⟩
def R.LVLE_W1_IS_LEAD (i : Nat) : Fld := ⟨0x40404004 + 0x100 * i, 3, 1⟩
def R.LVLE_W1_PRESENT (i : Nat) : Fld := ⟨0x40404004 + 0x100 * i, 4, 8⟩
def R.LVLE_W1_ACKED (i : Nat) : Fld := ⟨0x40404004 + 0x100 * i, 12, 8⟩
def R.LVLE_W2_H (i : Nat) : Fld := ⟨0x40404008 + 0x100 * i, 0, 4⟩
def R.LVLE_W2_C_LEAD (i : Nat) : Fld := ⟨0x40404008 + 0x100 * i, 16, 16⟩
def R.LVLE_ROUTE_HOPS (i j : Nat) : Fld := ⟨0x40404010 + 0x100 * i + 0x4 * j, 0, 4⟩
def R.LVLE_ROUTE_ROUTE (i j : Nat) : Fld := ⟨0x40404010 + 0x100 * i + 0x4 * j, 4, 16⟩
def R.LVLE_PUB_KIND (i j : Nat) : Fld := ⟨0x40404080 + 0x100 * i + 0x4 * j, 0, 4⟩
def R.LVLE_PUB_INDEX (i j : Nat) : Fld := ⟨0x40404080 + 0x100 * i + 0x4 * j, 4, 12⟩
def R.LVLE_PUB_EN (i j : Nat) : Fld := ⟨0x40404080 + 0x100 * i + 0x4 * j, 16, 1⟩
def R.TIM_NOW_NS_NS : Fld := ⟨0x40500000, 0, 32⟩
def R.TIM_NOW_SECLO_SEC_LO : Fld := ⟨0x40500004, 0, 32⟩
def R.TIM_NOW_SECHI_SEC_HI : Fld := ⟨0x40500008, 0, 16⟩
def R.TIM_CFG_SRC : Fld := ⟨0x4050000C, 0, 2⟩
def R.TIM_CFG_PROFILE : Fld := ⟨0x4050000C, 2, 1⟩
def R.TIM_CFG_RATE_MAX : Fld := ⟨0x4050000C, 8, 6⟩
def R.TIM_CFG_STEP_THR : Fld := ⟨0x4050000C, 16, 16⟩
def R.TIM_SET_NS_NS : Fld := ⟨0x40500010, 0, 32⟩
def R.TIM_SET_SECLO_SEC_LO : Fld := ⟨0x40500014, 0, 32⟩
def R.TIM_SET_SECHI_SEC_HI : Fld := ⟨0x40500018, 0, 16⟩
def R.TIM_SET_SECHI_GO : Fld := ⟨0x40500018, 31, 1⟩
def R.TIM_STATUS_VALID : Fld := ⟨0x4050001C, 0, 1⟩
def R.TIM_STATUS_FOLLOWER : Fld := ⟨0x4050001C, 1, 1⟩
def R.TIM_STATUS_LOCKED : Fld := ⟨0x4050001C, 2, 1⟩
def R.TIM_STATUS_HOLDOVER : Fld := ⟨0x4050001C, 3, 1⟩
def R.TIM_STATUS_SLEWING : Fld := ⟨0x4050001C, 4, 1⟩
def R.TIM_STATUS_RATE_LIM : Fld := ⟨0x4050001C, 5, 1⟩
def R.TIM_STATUS_STEPPED : Fld := ⟨0x4050001C, 6, 1⟩
def R.TIM_STATUS_STEP_REFUSED : Fld := ⟨0x4050001C, 7, 1⟩
def R.TIM_OFFSET_OFFSET : Fld := ⟨0x40500020, 0, 32⟩
def R.TIM_RATE_RATE : Fld := ⟨0x40500024, 0, 32⟩
def R.TIM_HOLD_HOLD_S : Fld := ⟨0x40500028, 0, 16⟩
def R.TIM_HOLD_HOLD_LIM : Fld := ⟨0x40500028, 16, 16⟩
def R.PER_T0_NS_NS : Fld := ⟨0x40500030, 0, 32⟩
def R.PER_T0_SECLO_SEC_LO : Fld := ⟨0x40500034, 0, 32⟩
def R.PER_T0_SECHI_SEC_HI : Fld := ⟨0x40500038, 0, 16⟩
def R.PTP_CFG_EN (i : Nat) : Fld := ⟨0x40500100 + 0x80 * i, 0, 1⟩
def R.PTP_CFG_ONE_STEP (i : Nat) : Fld := ⟨0x40500100 + 0x80 * i, 1, 1⟩
def R.PTP_CFG_SLAVE_ONLY (i : Nat) : Fld := ⟨0x40500100 + 0x80 * i, 2, 1⟩
def R.PTP_CFG_ALL_RX (i : Nat) : Fld := ⟨0x40500100 + 0x80 * i, 3, 1⟩
def R.PTP_CFG_DOMAIN (i : Nat) : Fld := ⟨0x40500100 + 0x80 * i, 8, 8⟩
def R.PTP_CFG_PRIO1 (i : Nat) : Fld := ⟨0x40500100 + 0x80 * i, 16, 8⟩
def R.PTP_CFG_PRIO2 (i : Nat) : Fld := ⟨0x40500100 + 0x80 * i, 24, 8⟩
def R.PTP_STATE_CLASS (i : Nat) : Fld := ⟨0x40500104 + 0x80 * i, 0, 8⟩
def R.PTP_STATE_HOLD_CLASS (i : Nat) : Fld := ⟨0x40500104 + 0x80 * i, 8, 8⟩
def R.PTP_STATE_PSTATE (i : Nat) : Fld := ⟨0x40500104 + 0x80 * i, 16, 4⟩
def R.PTP_LAT_RX_LAT (i : Nat) : Fld := ⟨0x40500108 + 0x80 * i, 0, 16⟩
def R.PTP_LAT_TX_LAT (i : Nat) : Fld := ⟨0x40500108 + 0x80 * i, 16, 16⟩
def R.PTP_DLY_MEAN_DLY (i : Nat) : Fld := ⟨0x4050010C + 0x80 * i, 0, 32⟩
def R.PTP_TXTS_NS_TS_NS (i : Nat) : Fld := ⟨0x40500110 + 0x80 * i, 0, 32⟩
def R.PTP_TXTS_SECLO_TS_SEC_LO (i : Nat) : Fld := ⟨0x40500114 + 0x80 * i, 0, 32⟩
def R.PTP_TXTS_SECHI_TS_SEC_HI (i : Nat) : Fld := ⟨0x40500118 + 0x80 * i, 0, 16⟩
def R.PTP_TXTS_ID_SEQ_ID (i : Nat) : Fld := ⟨0x4050011C + 0x80 * i, 0, 16⟩
def R.PTP_TXTS_ID_MSG_TYPE (i : Nat) : Fld := ⟨0x4050011C + 0x80 * i, 16, 4⟩
def R.PTP_TXTS_ID_VALID (i : Nat) : Fld := ⟨0x4050011C + 0x80 * i, 20, 1⟩
def R.PTP_TXTS_ID_OVF (i : Nat) : Fld := ⟨0x4050011C + 0x80 * i, 21, 1⟩
def R.PTP_TXTS_NEXT_NEXT (i : Nat) : Fld := ⟨0x40500120 + 0x80 * i, 0, 1⟩
def R.LQ_ADDR_ADDR (i : Nat) : Fld := ⟨0x40500140 + 0x80 * i, 0, 32⟩
def R.LQ_LEN_LEN (i : Nat) : Fld := ⟨0x40500144 + 0x80 * i, 0, 14⟩
def R.LQ_NS_T_NS (i : Nat) : Fld := ⟨0x40500148 + 0x80 * i, 0, 32⟩
def R.LQ_SECLO_T_SEC_LO (i : Nat) : Fld := ⟨0x4050014C + 0x80 * i, 0, 32⟩
def R.LQ_SECHI_T_SEC_HI (i : Nat) : Fld := ⟨0x40500150 + 0x80 * i, 0, 16⟩
def R.LQ_SECHI_PUSH (i : Nat) : Fld := ⟨0x40500150 + 0x80 * i, 31, 1⟩
def R.LQ_STATUS_DEPTH (i : Nat) : Fld := ⟨0x40500154 + 0x80 * i, 0, 5⟩
def R.LQ_STATUS_FULL_REF (i : Nat) : Fld := ⟨0x40500154 + 0x80 * i, 5, 1⟩
def R.LQ_STATUS_LATE (i : Nat) : Fld := ⟨0x40500154 + 0x80 * i, 16, 16⟩
def R.STR_DLY_D_HEAD (i : Nat) : Fld := ⟨0x40501000 + 0x4 * i, 0, 24⟩
def R.SDCLK_CFG_DIV (k : Nat) : Fld := ⟨0x40600000, 8 * k, 5⟩
def R.SAR_CFG_EN (i : Nat) : Fld := ⟨0x40600100 + 0x10 * i, 0, 1⟩
def R.SAR_CFG_SIGNED (i : Nat) : Fld := ⟨0x40600100 + 0x10 * i, 1, 1⟩
def R.SAR_CFG_AVG (i : Nat) : Fld := ⟨0x40600100 + 0x10 * i, 2, 3⟩
def R.SAR_CAL_OFF (i : Nat) : Fld := ⟨0x40600104 + 0x10 * i, 0, 16⟩
def R.SAR_CAL_GAIN (i : Nat) : Fld := ⟨0x40600104 + 0x10 * i, 16, 16⟩
def R.SAR_RES_CODE (i : Nat) : Fld := ⟨0x40600108 + 0x10 * i, 0, 16⟩
def R.SAR_STATUS_OVR (i : Nat) : Fld := ⟨0x4060010C + 0x10 * i, 0, 1⟩
def R.SAR_STATUS_FAULT (i : Nat) : Fld := ⟨0x4060010C + 0x10 * i, 1, 1⟩
def R.SAR_STATUS_STALE (i : Nat) : Fld := ⟨0x4060010C + 0x10 * i, 2, 1⟩
def R.SD_CFG_EN (i : Nat) : Fld := ⟨0x40600400 + 0x10 * i, 0, 1⟩
def R.SD_CFG_ORDER (i : Nat) : Fld := ⟨0x40600400 + 0x10 * i, 1, 1⟩
def R.SD_CFG_OSR (i : Nat) : Fld := ⟨0x40600400 + 0x10 * i, 2, 3⟩
def R.SD_CFG_CLK (i : Nat) : Fld := ⟨0x40600400 + 0x10 * i, 5, 3⟩
def R.SD_CFG_INV (i : Nat) : Fld := ⟨0x40600400 + 0x10 * i, 8, 1⟩
def R.SD_RES_CODE (i : Nat) : Fld := ⟨0x40600404 + 0x10 * i, 0, 32⟩
def R.SD_STATUS_SAT (i : Nat) : Fld := ⟨0x40600408 + 0x10 * i, 0, 1⟩
def R.SD_STATUS_MOD_FAULT (i : Nat) : Fld := ⟨0x40600408 + 0x10 * i, 1, 1⟩
def R.SD_STATUS_CLK_LOSS (i : Nat) : Fld := ⟨0x40600408 + 0x10 * i, 2, 1⟩
def R.SD_STATUS_STALE (i : Nat) : Fld := ⟨0x40600408 + 0x10 * i, 3, 1⟩
def R.PI_CFG_MODE (i : Nat) : Fld := ⟨0x40600800 + 0x20 * i, 0, 2⟩
def R.PI_CFG_DIR_INV (i : Nat) : Fld := ⟨0x40600800 + 0x20 * i, 2, 1⟩
def R.PI_CFG_FILT (i : Nat) : Fld := ⟨0x40600800 + 0x20 * i, 4, 6⟩
def R.PI_CFG_FWIN (i : Nat) : Fld := ⟨0x40600800 + 0x20 * i, 16, 8⟩
def R.PI_MOD_MODULUS (i : Nat) : Fld := ⟨0x40600804 + 0x20 * i, 0, 25⟩
def R.PI_OUT_OUT (i : Nat) : Fld := ⟨0x40600808 + 0x20 * i, 0, 32⟩
def R.PI_CNT_CNT (i : Nat) : Fld := ⟨0x4060080C + 0x20 * i, 0, 32⟩
def R.PI_STATUS_STALE (i : Nat) : Fld := ⟨0x40600810 + 0x20 * i, 0, 1⟩
def R.PI_STATUS_LOW_F (i : Nat) : Fld := ⟨0x40600810 + 0x20 * i, 1, 1⟩
def R.PI_STATUS_QERR (i : Nat) : Fld := ⟨0x40600810 + 0x20 * i, 2, 1⟩
def R.PI_STATUS_QERR_CNT (i : Nat) : Fld := ⟨0x40600810 + 0x20 * i, 16, 16⟩
def R.ACQ_CTRL_ARM : Fld := ⟨0x40700000, 0, 1⟩
def R.ACQ_CTRL_DISARM : Fld := ⟨0x40700000, 1, 1⟩
def R.ACQ_CTRL_FORCE : Fld := ⟨0x40700000, 2, 1⟩
def R.ACQ_STATUS_STATE : Fld := ⟨0x40700004, 0, 3⟩
def R.ACQ_STATUS_MODE : Fld := ⟨0x40700004, 3, 1⟩
def R.ACQ_STATUS_SEQ_ST : Fld := ⟨0x40700004, 4, 3⟩
def R.ACQ_STATUS_ARM_ERR : Fld := ⟨0x40700004, 8, 4⟩
def R.ACQ_STATUS_OVERRUN : Fld := ⟨0x40700004, 12, 1⟩
def R.ACQ_STATUS_TRUNC : Fld := ⟨0x40700004, 13, 1⟩
def R.ACQ_STATUS_SLOT : Fld := ⟨0x40700004, 16, 8⟩
def R.ACQ_CFG_N_VAL : Fld := ⟨0x40700008, 0, 6⟩
def R.ACQ_CFG_CELL_FMT : Fld := ⟨0x40700008, 6, 1⟩
def R.ACQ_CFG_SEQ_LEN : Fld := ⟨0x40700008, 8, 4⟩
def R.ACQ_CFG_CELL_ARMS : Fld := ⟨0x40700008, 16, 6⟩
def R.ACQ_PRE_PRE : Fld := ⟨0x4070000C, 0, 24⟩
def R.ACQ_POST_POST : Fld := ⟨0x40700010, 0, 24⟩
def R.ACQ_RING_BASE : Fld := ⟨0x40700014, 0, 7⟩
def R.ACQ_RING_SIZE : Fld := ⟨0x40700014, 8, 8⟩
def R.ACQ_DDR_BASE : Fld := ⟨0x40700018, 0, 15⟩
def R.ACQ_SLOT_SLOT_MB : Fld := ⟨0x4070001C, 0, 12⟩
def R.ACQ_SLOT_N_SLOT : Fld := ⟨0x4070001C, 16, 8⟩
def R.ACQ_LAYOUT_ROW_B : Fld := ⟨0x40700020, 0, 16⟩
def R.ACQ_LAYOUT_N_CELL : Fld := ⟨0x40700020, 16, 13⟩
def R.ACQ_RINGROWS_N_RING : Fld := ⟨0x40700024, 0, 32⟩
def R.ACQ_CNT_A_EARLY_TRIG : Fld := ⟨0x40700028, 0, 16⟩
def R.ACQ_CNT_A_MISSED_TRIG : Fld := ⟨0x40700028, 16, 16⟩
def R.ACQ_CNT_B_IN_REC : Fld := ⟨0x4070002C, 0, 16⟩
def R.ACQ_CNT_B_RECORDS : Fld := ⟨0x4070002C, 16, 16⟩
def R.ACQ_DEAD_LAST_LAST : Fld := ⟨0x40700030, 0, 32⟩
def R.ACQ_DEAD_MAX_MAX : Fld := ⟨0x40700034, 0, 32⟩
def R.ACQ_REC_SEQ_SEQ : Fld := ⟨0x40700038, 0, 32⟩
def R.ACQ_TRIG_LO_P_LO : Fld := ⟨0x4070003C, 0, 32⟩
def R.ACQ_TRIG_HI_P_HI : Fld := ⟨0x40700040, 0, 32⟩
def R.ACQ_CLR_CLR : Fld := ⟨0x40700044, 0, 1⟩
def R.ACQ_MARK_P_PERIOD : Fld := ⟨0x40700048, 0, 32⟩
def R.ACQ_MARK_INFO_CAUSE : Fld := ⟨0x4070004C, 0, 8⟩
def R.ACQ_MARK_INFO_OUTCOME : Fld := ⟨0x4070004C, 8, 3⟩
def R.ACQ_MARK_INFO_VALID : Fld := ⟨0x4070004C, 11, 1⟩
def R.ACQ_MARK_INFO_DEPTH : Fld := ⟨0x4070004C, 16, 5⟩
def R.ACQ_MARK_INFO_LOG_LOST : Fld := ⟨0x4070004C, 24, 8⟩
def R.ACQ_MARK_NEXT_NEXT : Fld := ⟨0x40700050, 0, 1⟩
def R.ACQ_VAL_KIND (i : Nat) : Fld := ⟨0x40700100 + 0x4 * i, 0, 4⟩
def R.ACQ_VAL_INDEX (i : Nat) : Fld := ⟨0x40700100 + 0x4 * i, 4, 12⟩
def R.SQ_CFG_COND (i : Nat) : Fld := ⟨0x40700200 + 0x10 * i, 0, 3⟩
def R.SQ_CFG_OP (i : Nat) : Fld := ⟨0x40700200 + 0x10 * i, 3, 2⟩
def R.SQ_CFG_FIRE (i : Nat) : Fld := ⟨0x40700200 + 0x10 * i, 5, 1⟩
def R.SQ_CFG_CONSEC (i : Nat) : Fld := ⟨0x40700200 + 0x10 * i, 6, 1⟩
def R.SQ_CFG_NEXT (i : Nat) : Fld := ⟨0x40700200 + 0x10 * i, 8, 3⟩
def R.SQ_CFG_TMO_NEXT (i : Nat) : Fld := ⟨0x40700200 + 0x10 * i, 12, 3⟩
def R.SQ_CFG_CNT_N (i : Nat) : Fld := ⟨0x40700200 + 0x10 * i, 16, 8⟩
def R.SQ_SRC_SRC (i : Nat) : Fld := ⟨0x40700204 + 0x10 * i, 0, 16⟩
def R.SQ_THR_THR (i : Nat) : Fld := ⟨0x40700208 + 0x10 * i, 0, 32⟩
def R.SQ_TIM_TMO (i : Nat) : Fld := ⟨0x4070020C + 0x10 * i, 0, 24⟩
def R.FLT_STAT_LATCH (i : Nat) : Fld := ⟨0x40800000 + 0x4 * i, 0, 32⟩
def R.FLT_LIVE_LIVE (i : Nat) : Fld := ⟨0x40800010 + 0x4 * i, 0, 32⟩
def R.FLT_ESC_ESC (i : Nat) : Fld := ⟨0x40800020 + 0x4 * i, 0, 32⟩
def R.FLT_SUMMARY_WORST : Fld := ⟨0x40800030, 0, 3⟩
def R.FLT_SUMMARY_CLR_REFUSED : Fld := ⟨0x40800030, 3, 1⟩
def R.FLT_SUMMARY_LOCK_LATCH : Fld := ⟨0x40800030, 4, 1⟩
def R.FLT_SUMMARY_LATCHED : Fld := ⟨0x40800030, 8, 8⟩
def R.FLT_SUMMARY_WORST_SRC : Fld := ⟨0x40800030, 16, 7⟩
def R.FLT_SUMMARY_TRIP_OUT : Fld := ⟨0x40800030, 23, 1⟩
def R.FLT_CTRL_SRC : Fld := ⟨0x40800034, 0, 7⟩
def R.FLT_CTRL_INJ : Fld := ⟨0x40800034, 7, 1⟩
def R.FLT_CTRL_REARM : Fld := ⟨0x40800034, 8, 1⟩
def R.FLT_CTRL_CLR_ALL : Fld := ⟨0x40800034, 9, 1⟩
def R.FLT_CTRL_APP : Fld := ⟨0x40800034, 10, 1⟩
def R.FLT_CTRL_KEY : Fld := ⟨0x40800034, 16, 16⟩
def R.FLT_FIRST_INFO_SRC : Fld := ⟨0x40800040, 0, 7⟩
def R.FLT_FIRST_INFO_VALID : Fld := ⟨0x40800040, 7, 1⟩
def R.FLT_FIRST_INFO_ACCESS : Fld := ⟨0x40800040, 8, 3⟩
def R.FLT_FIRST_INFO_MASTER : Fld := ⟨0x40800040, 11, 5⟩
def R.FLT_FIRST_INFO_CLASS : Fld := ⟨0x40800040, 16, 3⟩
def R.FLT_FIRST_INFO_ESC : Fld := ⟨0x40800040, 19, 1⟩
def R.FLT_FIRST_INFO_TIED : Fld := ⟨0x40800040, 20, 1⟩
def R.FLT_FIRST_INFO_FOLLOW : Fld := ⟨0x40800040, 24, 8⟩
def R.FLT_FIRST_ADDR_LO_ADDR : Fld := ⟨0x40800044, 0, 32⟩
def R.FLT_FIRST_ADDR_HI_ADDR : Fld := ⟨0x40800048, 0, 4⟩
def R.FLT_FIRST_NS_NS : Fld := ⟨0x4080004C, 0, 32⟩
def R.FLT_FIRST_SECLO_SEC_LO : Fld := ⟨0x40800050, 0, 32⟩
def R.FLT_FIRST_SECHI_SEC_HI : Fld := ⟨0x40800054, 0, 16⟩
def R.FLT_CELLCNT0_NOTICE : Fld := ⟨0x40800060, 0, 13⟩
def R.FLT_CELLCNT0_DEGRADE : Fld := ⟨0x40800060, 16, 13⟩
def R.FLT_CELLCNT1_BLOCK : Fld := ⟨0x40800064, 0, 13⟩
def R.FLT_CELLCNT1_TRIP : Fld := ⟨0x40800064, 16, 13⟩
def R.FLT_CELLCNT2_LOCK : Fld := ⟨0x40800068, 0, 13⟩
def R.CELL_CLASS_DEF_CLASS (i k : Nat) : Fld := ⟨0x40800080 + 0x4 * i, 4 * k, 3⟩
def R.CELL_CLASS_DEF_BYP (i k : Nat) : Fld := ⟨0x40800080 + 0x4 * i, 3 + 4 * k, 1⟩
def R.FLT_EXT_LINE (i : Nat) : Fld := ⟨0x40800100 + 0x4 * i, 0, 6⟩
def R.FLT_EXT_EN (i : Nat) : Fld := ⟨0x40800100 + 0x4 * i, 6, 1⟩
def R.FLT_EXT_EDGE (i : Nat) : Fld := ⟨0x40800100 + 0x4 * i, 7, 1⟩
def R.FLT_SRC_CFG_BASE (i : Nat) : Fld := ⟨0x40800400 + 0x10 * i, 0, 3⟩
def R.FLT_SRC_CFG_ESC_CLASS (i : Nat) : Fld := ⟨0x40800400 + 0x10 * i, 4, 3⟩
def R.FLT_SRC_CFG_ESC_N (i : Nat) : Fld := ⟨0x40800400 + 0x10 * i, 8, 8⟩
def R.FLT_SRC_CFG_FLOOR (i : Nat) : Fld := ⟨0x40800400 + 0x10 * i, 16, 3⟩
def R.FLT_SRC_CFG_KIND (i : Nat) : Fld := ⟨0x40800400 + 0x10 * i, 19, 1⟩
def R.FLT_SRC_CFG_SIDE (i : Nat) : Fld := ⟨0x40800400 + 0x10 * i, 20, 1⟩
def R.FLT_SRC_WIN_ESC_W (i : Nat) : Fld := ⟨0x40800404 + 0x10 * i, 0, 16⟩
def R.FLT_SRC_ST_LCLASS (i : Nat) : Fld := ⟨0x40800408 + 0x10 * i, 0, 3⟩
def R.FLT_SRC_ST_ESC (i : Nat) : Fld := ⟨0x40800408 + 0x10 * i, 3, 1⟩
def R.FLT_SRC_ST_EVT_CNT (i : Nat) : Fld := ⟨0x40800408 + 0x10 * i, 16, 16⟩
def R.SCH_CFG_BP_TO : Fld := ⟨0x40900000, 0, 10⟩
def R.SCH_STATUS_USED : Fld := ⟨0x40900004, 0, 13⟩
def R.SCH_STATUS_ALLOT_ERR : Fld := ⟨0x40900004, 13, 1⟩
def R.SCH_STATUS_HELD : Fld := ⟨0x40900004, 16, 13⟩
def R.SCH_LS_INJ : Fld := ⟨0x40900008, 0, 6⟩
def R.SCH_LS_STOPPED : Fld := ⟨0x40900008, 8, 6⟩
def R.SCH_LS_KEY : Fld := ⟨0x40900008, 16, 16⟩
def R.SCH_LS_STAT_INJ_FAIL : Fld := ⟨0x4090000C, 0, 6⟩
def R.SCH_LS_STAT_INJ_PASS : Fld := ⟨0x4090000C, 16, 16⟩
def R.SCH_PUSHD_DATA (i : Nat) : Fld := ⟨0x40900010 + 0x4 * i, 0, 32⟩
def R.SCH_PUSH_Q : Fld := ⟨0x40900030, 0, 6⟩
def R.SCH_PUSH_NB : Fld := ⟨0x40900030, 6, 1⟩
def R.SCH_PUSH_ST_RESULT : Fld := ⟨0x40900034, 0, 3⟩
def R.SCH_PUSH_ST_Q : Fld := ⟨0x40900034, 8, 6⟩
def R.SCH_GET_VALID : Fld := ⟨0x40900040, 0, 1⟩
def R.SCH_GET_SLOT : Fld := ⟨0x40900040, 1, 1⟩
def R.SCH_GET_Q : Fld := ⟨0x40900040, 8, 6⟩
def R.SCH_GET_WAIT_VALID : Fld := ⟨0x40900044, 0, 1⟩
def R.SCH_GET_WAIT_SLOT : Fld := ⟨0x40900044, 1, 1⟩
def R.SCH_GET_WAIT_Q : Fld := ⟨0x40900044, 8, 6⟩
def R.SCH_ITEM_DATA (i : Nat) : Fld := ⟨0x40900050 + 0x4 * i, 0, 32⟩
def R.TRC_CFG_EN : Fld := ⟨0x40900080, 0, 1⟩
def R.TRC_CFG_STOP : Fld := ⟨0x40900080, 1, 1⟩
def R.TRC_CFG_KINDS : Fld := ⟨0x40900080, 4, 4⟩
def R.TRC_BASE_BASE : Fld := ⟨0x40900084, 0, 32⟩
def R.TRC_SIZE_SIZE : Fld := ⟨0x40900088, 0, 25⟩
def R.TRC_WR_WR : Fld := ⟨0x4090008C, 0, 25⟩
def R.TRC_STAT_LOST : Fld := ⟨0x40900090, 0, 16⟩
def R.TRC_STAT_FULL : Fld := ⟨0x40900090, 16, 1⟩
def R.SCH_CLR_CLR : Fld := ⟨0x40900094, 0, 1⟩
def R.Q_CFG_DEPTH (i : Nat) : Fld := ⟨0x40901000 + 0x10 * i, 0, 11⟩
def R.Q_CFG_PRIO (i : Nat) : Fld := ⟨0x40901000 + 0x10 * i, 11, 3⟩
def R.Q_CFG_TICK (i : Nat) : Fld := ⟨0x40901000 + 0x10 * i, 14, 1⟩
def R.Q_CFG_TICK_OFF (i : Nat) : Fld := ⟨0x40901000 + 0x10 * i, 16, 16⟩
def R.Q_OWN_OWN (i : Nat) : Fld := ⟨0x40901004 + 0x10 * i, 0, 9⟩
def R.Q_STAT_COUNT (i : Nat) : Fld := ⟨0x40901008 + 0x10 * i, 0, 11⟩
def R.Q_STAT_PEAK (i : Nat) : Fld := ⟨0x40901008 + 0x10 * i, 16, 11⟩
def R.Q_CNT_DROP (i : Nat) : Fld := ⟨0x4090100C + 0x10 * i, 0, 16⟩
def R.Q_CNT_DISCARD (i : Nat) : Fld := ⟨0x4090100C + 0x10 * i, 16, 16⟩
def R.H_MASK_LO_MASK (i : Nat) : Fld := ⟨0x40902000 + 0x40 * i, 0, 32⟩
def R.H_MASK_HI_MASK (i : Nat) : Fld := ⟨0x40902004 + 0x40 * i, 0, 32⟩
def R.H_CFG_PREF_N (i : Nat) : Fld := ⟨0x40902008 + 0x40 * i, 0, 2⟩
def R.H_CFG_PART (i : Nat) : Fld := ⟨0x40902008 + 0x40 * i, 4, 4⟩
def R.H_CFG_GET_TO (i : Nat) : Fld := ⟨0x40902008 + 0x40 * i, 16, 16⟩
def R.H_STAT_SLOTS (i : Nat) : Fld := ⟨0x4090200C + 0x40 * i, 0, 2⟩
def R.H_STAT_ELIG (i : Nat) : Fld := ⟨0x4090200C + 0x40 * i, 3, 13⟩
def R.H_STAT_PEAK_ELIG (i : Nat) : Fld := ⟨0x4090200C + 0x40 * i, 16, 13⟩
def R.H_LOAD_LOAD (i : Nat) : Fld := ⟨0x40902010 + 0x40 * i, 0, 16⟩
def R.H_LOAD_LOAD_WIN (i : Nat) : Fld := ⟨0x40902010 + 0x40 * i, 16, 16⟩
def R.H_CNT_LOST (i : Nat) : Fld := ⟨0x40902014 + 0x40 * i, 0, 16⟩
def R.H_CNT_RETURNED (i : Nat) : Fld := ⟨0x40902014 + 0x40 * i, 16, 16⟩
def R.H_HIST_COUNT (i j : Nat) : Fld := ⟨0x40903000 + 0x40 * i + 0x4 * j, 0, 32⟩
def R.P_BUDGET_BUDGET (i : Nat) : Fld := ⟨0x40904000 + 0x4 * i, 0, 24⟩
def R.PMC_CTRL_FREEZE : Fld := ⟨0x40A00000, 0, 1⟩
def R.PMC_CTRL_SNAP_GO : Fld := ⟨0x40A00000, 1, 1⟩
def R.PMC_CTRL_SNAP_MODE : Fld := ⟨0x40A00000, 2, 2⟩
def R.PMC_CTRL_SNAP_N : Fld := ⟨0x40A00000, 16, 16⟩
def R.PMC_SNAP_OFF_SNAP_OFF : Fld := ⟨0x40A00004, 0, 16⟩
def R.PMC_SNAP_ST_SNAP_SEQ : Fld := ⟨0x40A00008, 0, 16⟩
def R.PMC_SNAP_ST_BUSY : Fld := ⟨0x40A00008, 16, 1⟩
def R.PMC_SNAP_ST_REFUSED : Fld := ⟨0x40A00008, 17, 1⟩
def R.PMC_SNAP_NS_NS : Fld := ⟨0x40A0000C, 0, 32⟩
def R.PMC_SNAP_SECLO_SEC_LO : Fld := ⟨0x40A00010, 0, 32⟩
def R.PMC_SNAP_SECHI_SEC_HI : Fld := ⟨0x40A00014, 0, 16⟩
def R.PMC_CNT_LO_LO (i j : Nat) : Fld := ⟨0x40A01000 + 0x100 * i + 0x8 * j, 0, 32⟩
def R.PMC_CNT_HI_HI (i j : Nat) : Fld := ⟨0x40A01004 + 0x100 * i + 0x8 * j, 0, 16⟩
def R.PMC_WRAP_WRAP (i : Nat) : Fld := ⟨0x40A01060 + 0x100 * i, 0, 12⟩
def R.PMC_WRAP_WRAP_IE (i : Nat) : Fld := ⟨0x40A01060 + 0x100 * i, 16, 12⟩
def R.PMC_EVT_EVENT (i j : Nat) : Fld := ⟨0x40A01064 + 0x100 * i + 0x4 * j, 0, 8⟩
def R.PMC_EVT_M (i j : Nat) : Fld := ⟨0x40A01064 + 0x100 * i + 0x4 * j, 8, 1⟩
def R.PMC_EVT_S (i j : Nat) : Fld := ⟨0x40A01064 + 0x100 * i + 0x4 * j, 9, 1⟩
def R.PMC_EVT_U (i j : Nat) : Fld := ⟨0x40A01064 + 0x100 * i + 0x4 * j, 10, 1⟩
def R.PMC_SCNT_LO_LO (i j : Nat) : Fld := ⟨0x40A04000 + 0x100 * i + 0x8 * j, 0, 32⟩
def R.PMC_SCNT_HI_HI (i j : Nat) : Fld := ⟨0x40A04004 + 0x100 * i + 0x8 * j, 0, 16⟩
def R.PMC_SWRAP_SWRAP (i : Nat) : Fld := ⟨0x40A04060 + 0x100 * i, 0, 12⟩
def R.MEM_PWR_REQ (i k : Nat) : Fld := ⟨0x40B00000 + 0x4 * i, 2 * k, 2⟩
def R.MEM_PSTAT_STATE (i k : Nat) : Fld := ⟨0x40B00010 + 0x4 * i, 2 * k, 2⟩
def R.MEM_STATUS_AVAIL : Fld := ⟨0x40B00020, 0, 8⟩
def R.MEM_STATUS_PWR_REF : Fld := ⟨0x40B00020, 8, 1⟩
def R.MEM_ECC_CE : Fld := ⟨0x40B00024, 0, 16⟩
def R.MEM_ECC_UE : Fld := ⟨0x40B00024, 16, 16⟩
def R.MEM_CE_ADDR_ADDR : Fld := ⟨0x40B00028, 0, 32⟩
def R.MEM_UE_ADDR_ADDR : Fld := ⟨0x40B0002C, 0, 32⟩
def R.BGT_CFG_EN : Fld := ⟨0x40B00040, 0, 1⟩
def R.BGT_CFG_GAP : Fld := ⟨0x40B00040, 16, 16⟩
def R.BGT_STATUS_REGION : Fld := ⟨0x40B00044, 0, 19⟩
def R.BGT_PASS_PASS_MS : Fld := ⟨0x40B00048, 0, 16⟩
def R.BGT_PASS_PASSES : Fld := ⟨0x40B00048, 16, 16⟩
def R.BGT_CNT_SKIPPED : Fld := ⟨0x40B0004C, 0, 16⟩
def R.BGT_CNT_DEFER : Fld := ⟨0x40B0004C, 16, 8⟩
def R.BGT_CNT_UE : Fld := ⟨0x40B0004C, 24, 8⟩
def R.BGT_FAIL_ADDR : Fld := ⟨0x40B00050, 0, 32⟩
def R.FW_CHK_FW_CHK_S : Fld := ⟨0x40B00060, 0, 16⟩
def R.FW_CHK_COUNT : Fld := ⟨0x40B00060, 16, 8⟩
def R.FW_CHK_FAIL : Fld := ⟨0x40B00060, 24, 1⟩
def R.DDR_CFG_RATE : Fld := ⟨0x40B00100, 0, 2⟩
def R.DDR_CFG_WIDTH : Fld := ⟨0x40B00100, 2, 1⟩
def R.DDR_CFG_RANKS : Fld := ⟨0x40B00100, 3, 1⟩
def R.DDR_CFG_DENSITY : Fld := ⟨0x40B00100, 4, 1⟩
def R.DDR_CFG_SCRUB_H : Fld := ⟨0x40B00100, 16, 16⟩
def R.DDR_CTRL_INIT : Fld := ⟨0x40B00104, 0, 1⟩
def R.DDR_STATUS_READY : Fld := ⟨0x40B00108, 0, 1⟩
def R.DDR_STATUS_TRAIN_FAIL : Fld := ⟨0x40B00108, 1, 1⟩
def R.DDR_STATUS_SIZE_GB : Fld := ⟨0x40B00108, 8, 6⟩
def R.DDR_ECC_CE : Fld := ⟨0x40B0010C, 0, 16⟩
def R.DDR_ECC_UE : Fld := ⟨0x40B0010C, 16, 16⟩
def R.SEC_STATUS_OK : Fld := ⟨0x40B00200, 0, 1⟩
def R.SEC_STATUS_SLOT : Fld := ⟨0x40B00200, 1, 1⟩
def R.SEC_STATUS_KEY : Fld := ⟨0x40B00200, 2, 2⟩
def R.SEC_STATUS_CODE : Fld := ⟨0x40B00200, 4, 4⟩
def R.SEC_STATUS_PART_OK : Fld := ⟨0x40B00200, 8, 8⟩
def R.SEC_STATUS_PART_FAIL : Fld := ⟨0x40B00200, 16, 8⟩
def R.SEC_STATUS_PCODE : Fld := ⟨0x40B00200, 24, 4⟩
def R.SEC_STATUS_CMD_DONE : Fld := ⟨0x40B00200, 28, 1⟩
def R.SEC_STATUS_CMD_REF : Fld := ⟨0x40B00200, 29, 1⟩
def R.SEC_ROLL0_ROLL (k : Nat) : Fld := ⟨0x40B00204, 6 * k, 6⟩
def R.SEC_ROLL1_ROLL (k : Nat) : Fld := ⟨0x40B00208, 6 * k, 6⟩
def R.SEC_KEYS_PROG : Fld := ⟨0x40B0020C, 0, 4⟩
def R.SEC_KEYS_REVOKED : Fld := ⟨0x40B0020C, 4, 4⟩
def R.SEC_CMD_ROLL : Fld := ⟨0x40B00210, 0, 1⟩
def R.SEC_CMD_REVOKE : Fld := ⟨0x40B00210, 1, 1⟩
def R.SEC_CMD_SLOT : Fld := ⟨0x40B00210, 2, 2⟩
def R.SEC_CMD_TYPE : Fld := ⟨0x40B00210, 4, 4⟩
def R.SEC_CMD_KEY : Fld := ⟨0x40B00210, 16, 16⟩
def R.HLT_CFG_IMG_EN : Fld := ⟨0x40C00000, 0, 1⟩
def R.HLT_CFG_SAVE_M : Fld := ⟨0x40C00000, 16, 16⟩
def R.IMG_BASE_BASE : Fld := ⟨0x40C00004, 0, 32⟩
def R.HLT_IMG_ST_RESTORED : Fld := ⟨0x40C00008, 0, 16⟩
def R.HLT_IMG_ST_RESTORE_SKIP : Fld := ⟨0x40C00008, 16, 15⟩
def R.HLT_IMG_ST_IMG_ERR : Fld := ⟨0x40C00008, 31, 1⟩
def R.MON_CFG_MON_S : Fld := ⟨0x40C00010, 0, 16⟩
def R.MON_DLIM_DLIM : Fld := ⟨0x40C00014, 0, 32⟩
def R.MON_NEXP_NEXP : Fld := ⟨0x40C00018, 0, 32⟩
def R.AGE_H : Fld := ⟨0x40C0001C, 0, 32⟩
def R.HLT_CHIP_DAYS : Fld := ⟨0x40C00020, 0, 32⟩
def R.HLT_CHIP_ST_WORST_MON : Fld := ⟨0x40C00024, 0, 4⟩
def R.HLT_CHIP_ST_ALARM : Fld := ⟨0x40C00024, 4, 1⟩
def R.HLT_CHIP_ST_CHIP_ALM_DAYS : Fld := ⟨0x40C00024, 16, 16⟩
def R.HLT_MON_DELTA (i : Nat) : Fld := ⟨0x40C00040 + 0x4 * i, 0, 16⟩
def R.HARM_CFG_HP_MODE (i : Nat) : Fld := ⟨0x40C00100 + 0x20 * i, 0, 1⟩
def R.HP_G (i : Nat) : Fld := ⟨0x40C00104 + 0x20 * i, 0, 32⟩
def R.HARM_ST_N_ALARM (i : Nat) : Fld := ⟨0x40C00108 + 0x20 * i, 0, 11⟩
def R.HARM_ST_N_KNOWN (i : Nat) : Fld := ⟨0x40C00108 + 0x20 * i, 16, 11⟩
def R.HARM_WORST_DAYS (i : Nat) : Fld := ⟨0x40C0010C + 0x20 * i, 0, 16⟩
def R.HARM_WORST_HANDLE (i : Nat) : Fld := ⟨0x40C0010C + 0x20 * i, 16, 16⟩
def R.HLT_RANK_HANDLE (i j : Nat) : Fld := ⟨0x40C00200 + 0x20 * i + 0x4 * j, 0, 16⟩
def R.HLT_RANK_DAYS (i j : Nat) : Fld := ⟨0x40C00200 + 0x20 * i + 0x4 * j, 16, 16⟩
def R.GPIO_OUT_LO_OUT : Fld := ⟨0x40F00000, 0, 32⟩
def R.GPIO_OUT_HI_OUT : Fld := ⟨0x40F00004, 0, 32⟩
def R.EVT_STATUS_DEPTH : Fld := ⟨0x40F00010, 0, 9⟩
def R.EVT_STATUS_LOST : Fld := ⟨0x40F00010, 16, 16⟩
def R.EVT_HEAD0_NS : Fld := ⟨0x40F00014, 0, 32⟩
def R.EVT_HEAD1_SEC_LO : Fld := ⟨0x40F00018, 0, 32⟩
def R.EVT_HEAD2_SEC_HI : Fld := ⟨0x40F0001C, 0, 16⟩
def R.EVT_HEAD2_LINE : Fld := ⟨0x40F0001C, 16, 6⟩
def R.EVT_HEAD2_RISE : Fld := ⟨0x40F0001C, 22, 1⟩
def R.EVT_HEAD2_VALID : Fld := ⟨0x40F0001C, 23, 1⟩
def R.EVT_HEAD2_RELEASE : Fld := ⟨0x40F0001C, 24, 1⟩
def R.EVT_NEXT_NEXT : Fld := ⟨0x40F00020, 0, 1⟩
def R.GPIO_CFG_DIR (i : Nat) : Fld := ⟨0x40F01000 + 0x10 * i, 0, 1⟩
def R.GPIO_CFG_POL (i : Nat) : Fld := ⟨0x40F01000 + 0x10 * i, 1, 1⟩
def R.GPIO_CFG_EDGE (i : Nat) : Fld := ⟨0x40F01000 + 0x10 * i, 2, 2⟩
def R.GPIO_CFG_FILT (i : Nat) : Fld := ⟨0x40F01000 + 0x10 * i, 4, 10⟩
def R.GPIO_RATE_RATE_N (i : Nat) : Fld := ⟨0x40F01004 + 0x10 * i, 0, 4⟩
def R.GPIO_RATE_RATE_W (i : Nat) : Fld := ⟨0x40F01004 + 0x10 * i, 16, 16⟩
def R.GPIO_STUCK_MAX_ACT (i : Nat) : Fld := ⟨0x40F01008 + 0x10 * i, 0, 16⟩
def R.GPIO_STATUS_RAW (i : Nat) : Fld := ⟨0x40F0100C + 0x10 * i, 0, 1⟩
def R.GPIO_STATUS_FILTERED (i : Nat) : Fld := ⟨0x40F0100C + 0x10 * i, 1, 1⟩
def R.GPIO_STATUS_DELIVERED (i : Nat) : Fld := ⟨0x40F0100C + 0x10 * i, 2, 1⟩
def R.GPIO_STATUS_FROZEN (i : Nat) : Fld := ⟨0x40F0100C + 0x10 * i, 3, 1⟩
def R.GPIO_STATUS_CHATTER (i : Nat) : Fld := ⟨0x40F0100C + 0x10 * i, 4, 1⟩
def R.GPIO_STATUS_STUCK (i : Nat) : Fld := ⟨0x40F0100C + 0x10 * i, 5, 1⟩
def R.GPIO_STATUS_STUCK_SEEN (i : Nat) : Fld := ⟨0x40F0100C + 0x10 * i, 6, 1⟩
def R.GPIO_STATUS_CHAT_CNT (i : Nat) : Fld := ⟨0x40F0100C + 0x10 * i, 16, 16⟩
def R.SAFE_STATE_STATE : Fld := ⟨0x41000000, 0, 3⟩
def R.SAFE_STATE_PARAM_VALID : Fld := ⟨0x41000000, 3, 1⟩
def R.SAFE_STATE_SB : Fld := ⟨0x41000000, 4, 1⟩
def R.SAFE_STATE_ST : Fld := ⟨0x41000000, 5, 1⟩
def R.SAFE_STATE_SBC : Fld := ⟨0x41000000, 6, 1⟩
def R.SAFE_STATE_BRK_OPEN : Fld := ⟨0x41000000, 7, 1⟩
def R.SAFE_STATE_TRIP_ON : Fld := ⟨0x41000000, 8, 1⟩
def R.SAFE_STATE_RST_NOEFF : Fld := ⟨0x41000000, 9, 1⟩
def R.SAFE_STATE_RST_STUCK : Fld := ⟨0x41000000, 10, 1⟩
def R.SAFE_STATE_HALT_CAUSE : Fld := ⟨0x41000000, 12, 4⟩
def R.SAFE_DEMAND_SI : Fld := ⟨0x41000004, 0, 8⟩
def R.SAFE_DEMAND_CONN : Fld := ⟨0x41000004, 8, 8⟩
def R.SAFE_DEMAND_MATE : Fld := ⟨0x41000004, 16, 1⟩
def R.SAFE_DEMAND_SO0 : Fld := ⟨0x41000004, 17, 1⟩
def R.SAFE_DEMAND_SO1 : Fld := ⟨0x41000004, 18, 1⟩
def R.SAFE_DEMAND_BT_FAIL : Fld := ⟨0x41000004, 19, 1⟩
def R.SAFE_DEMAND_NO_PARAM : Fld := ⟨0x41000004, 20, 1⟩
def R.SAFE_DEMAND_START : Fld := ⟨0x41000004, 21, 1⟩
def R.SAFE_LATCH_SI : Fld := ⟨0x41000008, 0, 8⟩
def R.SAFE_LATCH_CONN : Fld := ⟨0x41000008, 8, 8⟩
def R.SAFE_LATCH_MATE : Fld := ⟨0x41000008, 16, 1⟩
def R.SAFE_LATCH_SO0 : Fld := ⟨0x41000008, 17, 1⟩
def R.SAFE_LATCH_SO1 : Fld := ⟨0x41000008, 18, 1⟩
def R.SAFE_LATCH_BT_FAIL : Fld := ⟨0x41000008, 19, 1⟩
def R.SAFE_LATCH_NO_PARAM : Fld := ⟨0x41000008, 20, 1⟩
def R.SAFE_LATCH_START : Fld := ⟨0x41000008, 21, 1⟩
def R.SAFE_PCRC_PARAM_CRC : Fld := ⟨0x4100000C, 0, 32⟩
def R.SAFE_DIAG_ECC_CNT : Fld := ⟨0x41000010, 0, 16⟩
def R.SAFE_DIAG_OSC_DEV : Fld := ⟨0x41000010, 16, 8⟩
def R.SAFE_DIAG_REF_ABSENT : Fld := ⟨0x41000010, 24, 1⟩
def R.SAFE_RST_PIN_EN : Fld := ⟨0x41000014, 0, 1⟩
def R.SAFE_RST_PRESSED : Fld := ⟨0x41000014, 8, 1⟩
def R.SAFE_RST_VALID_CNT : Fld := ⟨0x41000014, 16, 16⟩
def R.SAFE_NET_SAFE_UDP : Fld := ⟨0x41000018, 0, 16⟩
def R.SI_CFG_MODE (i : Nat) : Fld := ⟨0x41000100 + 0x10 * i, 0, 2⟩
def R.SI_CFG_TPA (i : Nat) : Fld := ⟨0x41000100 + 0x10 * i, 2, 3⟩
def R.SI_CFG_TPB (i : Nat) : Fld := ⟨0x41000100 + 0x10 * i, 5, 3⟩
def R.SI_CFG_RESTART (i : Nat) : Fld := ⟨0x41000100 + 0x10 * i, 8, 1⟩
def R.SI_CFG_MAP_SB (i : Nat) : Fld := ⟨0x41000100 + 0x10 * i, 9, 1⟩
def R.SI_CFG_MAP_ST (i : Nat) : Fld := ⟨0x41000100 + 0x10 * i, 10, 1⟩
def R.SI_CFG_MAP_SBC (i : Nat) : Fld := ⟨0x41000100 + 0x10 * i, 11, 1⟩
def R.SI_CFG_FILT (i : Nat) : Fld := ⟨0x41000100 + 0x10 * i, 16, 5⟩
def R.SI_CFG_DISC (i : Nat) : Fld := ⟨0x41000100 + 0x10 * i, 21, 10⟩
def R.SI_STATUS_LVL_A (i : Nat) : Fld := ⟨0x41000104 + 0x10 * i, 0, 1⟩
def R.SI_STATUS_LVL_B (i : Nat) : Fld := ⟨0x41000104 + 0x10 * i, 1, 1⟩
def R.SI_STATUS_DEMAND (i : Nat) : Fld := ⟨0x41000104 + 0x10 * i, 2, 1⟩
def R.SI_STATUS_WAIT_RST (i : Nat) : Fld := ⟨0x41000104 + 0x10 * i, 3, 1⟩
def R.SI_STATUS_DISC_FLT (i : Nat) : Fld := ⟨0x41000104 + 0x10 * i, 4, 1⟩
def R.SI_STATUS_STUCK_A (i : Nat) : Fld := ⟨0x41000104 + 0x10 * i, 5, 1⟩
def R.SI_STATUS_STUCK_B (i : Nat) : Fld := ⟨0x41000104 + 0x10 * i, 6, 1⟩
def R.SI_STATUS_XS_A (i : Nat) : Fld := ⟨0x41000104 + 0x10 * i, 7, 1⟩
def R.SI_STATUS_XS_B (i : Nat) : Fld := ⟨0x41000104 + 0x10 * i, 8, 1⟩
def R.SI_STATUS_XS_TP_A (i : Nat) : Fld := ⟨0x41000104 + 0x10 * i, 9, 2⟩
def R.SI_STATUS_XS_TP_B (i : Nat) : Fld := ⟨0x41000104 + 0x10 * i, 11, 2⟩
def R.SI_STATUS_TP_FLT (i : Nat) : Fld := ⟨0x41000104 + 0x10 * i, 13, 1⟩
def R.SI_STATUS_DISC_MAX (i : Nat) : Fld := ⟨0x41000104 + 0x10 * i, 16, 16⟩
def R.TP_CFG_TP_PER : Fld := ⟨0x41000180, 0, 10⟩
def R.TP_CFG_TP_W : Fld := ⟨0x41000180, 16, 5⟩
def R.TP_CFG_TP_SET : Fld := ⟨0x41000180, 24, 7⟩
def R.TP_STATUS_TP_FLT : Fld := ⟨0x41000184, 0, 4⟩
def R.TP_STATUS_FB : Fld := ⟨0x41000184, 4, 4⟩
def R.MATE_MATE_EN : Fld := ⟨0x41000188, 0, 1⟩
def R.MATE_LIVE_A : Fld := ⟨0x41000188, 1, 1⟩
def R.MATE_LIVE_B : Fld := ⟨0x41000188, 2, 1⟩
def R.MATE_MATE_FLT : Fld := ⟨0x41000188, 3, 1⟩
def R.SO_CFG_FUNC (i : Nat) : Fld := ⟨0x41000200 + 0x20 * i, 0, 2⟩
def R.SO_CFG_FBK_EN (i : Nat) : Fld := ⟨0x41000200 + 0x20 * i, 2, 1⟩
def R.SO_CFG_FBK_POL (i : Nat) : Fld := ⟨0x41000200 + 0x20 * i, 3, 1⟩
def R.SO_CFG_FBK_T (i : Nat) : Fld := ⟨0x41000200 + 0x20 * i, 4, 8⟩
def R.SO_CFG_RB_T (i : Nat) : Fld := ⟨0x41000200 + 0x20 * i, 16, 7⟩
def R.SO_TEST_DP_PER (i : Nat) : Fld := ⟨0x41000204 + 0x20 * i, 0, 12⟩
def R.SO_TEST_DP_W (i : Nat) : Fld := ⟨0x41000204 + 0x20 * i, 12, 4⟩
def R.SO_STATUS_HS_DRV (i : Nat) : Fld := ⟨0x41000208 + 0x20 * i, 0, 1⟩
def R.SO_STATUS_LS_DRV (i : Nat) : Fld := ⟨0x41000208 + 0x20 * i, 1, 1⟩
def R.SO_STATUS_HS_RB (i : Nat) : Fld := ⟨0x41000208 + 0x20 * i, 2, 1⟩
def R.SO_STATUS_LS_RB (i : Nat) : Fld := ⟨0x41000208 + 0x20 * i, 3, 1⟩
def R.SO_STATUS_FBK (i : Nat) : Fld := ⟨0x41000208 + 0x20 * i, 4, 1⟩
def R.SO_STATUS_ENERGISED (i : Nat) : Fld := ⟨0x41000208 + 0x20 * i, 5, 1⟩
def R.SO_STATUS_RB_FLT (i : Nat) : Fld := ⟨0x41000208 + 0x20 * i, 6, 1⟩
def R.SO_STATUS_DP_FLT (i : Nat) : Fld := ⟨0x41000208 + 0x20 * i, 7, 1⟩
def R.SO_STATUS_FBK_FLT (i : Nat) : Fld := ⟨0x41000208 + 0x20 * i, 8, 1⟩
def R.SO_STATUS_OPEN_FAIL (i : Nat) : Fld := ⟨0x41000208 + 0x20 * i, 9, 1⟩
def R.SO_STATUS_DP_CNT (i : Nat) : Fld := ⟨0x41000208 + 0x20 * i, 16, 16⟩
def R.SBC_CFG_SBC_MODE : Fld := ⟨0x41000280, 0, 1⟩
def R.SBC_CFG_REL_SRC : Fld := ⟨0x41000280, 1, 1⟩
def R.SBC_CFG_REL_CONN : Fld := ⟨0x41000280, 2, 3⟩
def R.SBC_CFG_SBC_DLY : Fld := ⟨0x41000280, 8, 8⟩
def R.BT_CFG_BT_INT : Fld := ⟨0x41000284, 0, 10⟩
def R.BT_CFG_BT_GRACE : Fld := ⟨0x41000284, 10, 6⟩
def R.BT_CFG_BT_DUR : Fld := ⟨0x41000284, 16, 8⟩
def R.BT_CFG_STILL_IN : Fld := ⟨0x41000284, 24, 3⟩
def R.BT_STATUS_RUNNING : Fld := ⟨0x41000288, 0, 1⟩
def R.BT_STATUS_PASSED : Fld := ⟨0x41000288, 1, 1⟩
def R.BT_STATUS_FAILED : Fld := ⟨0x41000288, 2, 1⟩
def R.BT_STATUS_DUE : Fld := ⟨0x41000288, 3, 1⟩
def R.BT_STATUS_INHIBIT : Fld := ⟨0x41000288, 4, 1⟩
def R.BT_STATUS_HOURS : Fld := ⟨0x41000288, 16, 16⟩
def R.CONN_CFG_EN (i : Nat) : Fld := ⟨0x41000400 + 0x40 * i, 0, 1⟩
def R.CONN_CFG_NETS (i : Nat) : Fld := ⟨0x41000400 + 0x40 * i, 1, 1⟩
def R.CONN_CFG_CANP (i : Nat) : Fld := ⟨0x41000400 + 0x40 * i, 2, 1⟩
def R.CONN_CFG_PARAM_EN (i : Nat) : Fld := ⟨0x41000400 + 0x40 * i, 3, 1⟩
def R.CONN_CFG_RST_EN (i : Nat) : Fld := ⟨0x41000400 + 0x40 * i, 4, 1⟩
def R.CONN_CFG_LOSS_SB (i : Nat) : Fld := ⟨0x41000400 + 0x40 * i, 5, 1⟩
def R.CONN_CFG_LOSS_ST (i : Nat) : Fld := ⟨0x41000400 + 0x40 * i, 6, 1⟩
def R.CONN_CFG_LOSS_SBC (i : Nat) : Fld := ⟨0x41000400 + 0x40 * i, 7, 1⟩
def R.CONN_CFG_CONN_ID (i : Nat) : Fld := ⟨0x41000400 + 0x40 * i, 16, 16⟩
def R.CONN_TIME_PERIOD (i : Nat) : Fld := ⟨0x41000404 + 0x40 * i, 0, 8⟩
def R.CONN_TIME_WD (i : Nat) : Fld := ⟨0x41000404 + 0x40 * i, 8, 16⟩
def R.CONN_TIME_SKEW (i : Nat) : Fld := ⟨0x41000404 + 0x40 * i, 24, 8⟩
def R.CONN_SEED_SEED (i : Nat) : Fld := ⟨0x41000408 + 0x40 * i, 0, 32⟩
def R.CONN_CAN_CAN_ID (i : Nat) : Fld := ⟨0x4100040C + 0x40 * i, 0, 29⟩
def R.CONN_CAN_EXT (i : Nat) : Fld := ⟨0x4100040C + 0x40 * i, 29, 1⟩
def R.CONN_STATE_CSTATE (i : Nat) : Fld := ⟨0x41000410 + 0x40 * i, 0, 2⟩
def R.CONN_STATE_AGE (i : Nat) : Fld := ⟨0x41000410 + 0x40 * i, 16, 16⟩
def R.CONN_ERR_CRC_ERR (i : Nat) : Fld := ⟨0x41000414 + 0x40 * i, 0, 8⟩
def R.CONN_ERR_OLD (i : Nat) : Fld := ⟨0x41000414 + 0x40 * i, 8, 8⟩
def R.CONN_ERR_SINGLE (i : Nat) : Fld := ⟨0x41000414 + 0x40 * i, 16, 8⟩
def R.CONN_ERR_MISMATCH (i : Nat) : Fld := ⟨0x41000414 + 0x40 * i, 24, 8⟩
def R.CONN_SEQ_SEQ (i : Nat) : Fld := ⟨0x41000418 + 0x40 * i, 0, 32⟩
def R.CONN_DATA_DATA (i j : Nat) : Fld := ⟨0x41000420 + 0x40 * i + 0x4 * j, 0, 32⟩
def R.PT_STATUS_OPEN : Fld := ⟨0x41000800, 0, 1⟩
def R.PT_STATUS_TXID : Fld := ⟨0x41000800, 8, 8⟩
def R.PT_STATUS_STAGED : Fld := ⟨0x41000800, 16, 9⟩
def R.PT_CRC_CRC : Fld := ⟨0x41000804, 0, 32⟩
def R.PT_LAST_RESULT : Fld := ⟨0x41000808, 0, 8⟩
def R.PT_LAST_OP : Fld := ⟨0x41000808, 8, 8⟩
def R.PT_LAST_CONN : Fld := ⟨0x41000808, 16, 8⟩
def R.DEV_STATE_STATE : Fld := ⟨0x41100000, 0, 4⟩
def R.DEV_STATE_PREV : Fld := ⟨0x41100000, 4, 4⟩
def R.DEV_STATE_ROLE : Fld := ⟨0x41100000, 8, 3⟩
def R.DEV_STATE_BUSY : Fld := ⟨0x41100000, 11, 1⟩
def R.DEV_STATE_SAFE_BLOCK : Fld := ⟨0x41100000, 12, 1⟩
def R.DEV_STATE_ST_PASS : Fld := ⟨0x41100000, 13, 1⟩
def R.DEV_STATE_DRY_ACTIVE : Fld := ⟨0x41100000, 14, 1⟩
def R.STATE_CMD_CMD : Fld := ⟨0x41100004, 0, 8⟩
def R.STATE_CMD_KEY : Fld := ⟨0x41100004, 16, 16⟩
def R.STATE_CAUSE_CAUSE : Fld := ⟨0x41100008, 0, 8⟩
def R.STATE_CAUSE_REFUSE : Fld := ⟨0x41100008, 8, 8⟩
def R.STATE_CAUSE_REFUSED_CMD : Fld := ⟨0x41100008, 16, 8⟩
def R.TRANS_PERIOD_PERIOD : Fld := ⟨0x4110000C, 0, 32⟩
def R.ENERGISE_CFG_VCELL_MIN : Fld := ⟨0x41100020, 0, 12⟩
def R.ENERGISE_CFG_AVAIL_MIN : Fld := ⟨0x41100020, 12, 11⟩
def R.ENERGISE_CFG_AUTOCONF : Fld := ⟨0x41100020, 23, 1⟩
def R.ENERGISE_CFG_PREP : Fld := ⟨0x41100020, 24, 8⟩
def R.DISCHARGE_CFG_VCELL_SAFE : Fld := ⟨0x41100024, 0, 12⟩
def R.DRYDOWN_CFG_DRY_TIMEOUT : Fld := ⟨0x41100028, 0, 16⟩
def R.DRYDOWN_CFG_DRY_HOLD : Fld := ⟨0x41100028, 16, 8⟩
def R.DRY_ILIM_ILIM : Fld := ⟨0x4110002C, 0, 32⟩
def R.DRY_STATUS_ARM_BLOCKED : Fld := ⟨0x41100030, 0, 6⟩
def R.DRY_STATUS_PHASE : Fld := ⟨0x41100030, 6, 2⟩
def R.DRY_STATUS_DRY_FORCED : Fld := ⟨0x41100030, 8, 1⟩
def R.ST_SUMMARY_DONE : Fld := ⟨0x41100040, 0, 1⟩
def R.ST_SUMMARY_PASS : Fld := ⟨0x41100040, 1, 1⟩
def R.ST_SUMMARY_REF_FAIL : Fld := ⟨0x41100040, 2, 1⟩
def R.ST_SUMMARY_LBIST_FAIL : Fld := ⟨0x41100040, 3, 1⟩
def R.ST_SUMMARY_MBIST_FAIL : Fld := ⟨0x41100040, 4, 1⟩
def R.ST_SUMMARY_SERDES_FAIL : Fld := ⟨0x41100040, 5, 1⟩
def R.ST_SUMMARY_SAFE_FAIL : Fld := ⟨0x41100040, 6, 1⟩
def R.ST_SUMMARY_TIMEOUT : Fld := ⟨0x41100040, 7, 1⟩
def R.ST_SUMMARY_STEP : Fld := ⟨0x41100040, 8, 3⟩
def R.ST_SUMMARY_SECURE_FAIL : Fld := ⟨0x41100040, 11, 1⟩
def R.ST_SUMMARY_RUN_COUNT : Fld := ⟨0x41100040, 12, 4⟩
def R.ST_SUMMARY_DURATION : Fld := ⟨0x41100040, 16, 16⟩
def R.ST_ISLAND_ISLAND : Fld := ⟨0x41100044, 0, 18⟩
def R.ST_BANK_BANK : Fld := ⟨0x41100048, 0, 32⟩
def R.ST_LANE_LO_STRAND_LO : Fld := ⟨0x4110004C, 0, 32⟩
def R.ST_LANE_HI_STRAND_HI : Fld := ⟨0x41100050, 0, 16⟩
def R.ST_LANE_HI_TIE : Fld := ⟨0x41100050, 16, 2⟩
def R.ST_LANE_HI_ACCORD : Fld := ⟨0x41100050, 18, 4⟩
def R.ST_LANE_HI_NETA : Fld := ⟨0x41100050, 22, 1⟩
def R.ST_LANE_HI_NETB : Fld := ⟨0x41100050, 23, 1⟩
def R.ST_REF_REFCLK : Fld := ⟨0x41100054, 0, 1⟩
def R.ST_REF_SDREFCLK0 : Fld := ⟨0x41100054, 1, 1⟩
def R.ST_REF_SDREFCLK1 : Fld := ⟨0x41100054, 2, 1⟩
def R.ST_REF_SUPPLY : Fld := ⟨0x41100054, 3, 1⟩
def R.ST_REF_ADC_REF : Fld := ⟨0x41100054, 4, 1⟩
def R.ST_SAFE_LOCKSTEP : Fld := ⟨0x41100058, 0, 1⟩
def R.ST_SAFE_MEMORY : Fld := ⟨0x41100058, 1, 1⟩
def R.ST_SAFE_OSC : Fld := ⟨0x41100058, 2, 1⟩
def R.ST_SAFE_BLOCK_PATH : Fld := ⟨0x41100058, 3, 1⟩
def R.ST_SAFE_SO_READBACK : Fld := ⟨0x41100058, 4, 1⟩
def R.ST_SAFE_TP_READBACK : Fld := ⟨0x41100058, 5, 1⟩
def R.PERIOD_CFG_TC : Fld := ⟨0x41100100, 0, 9⟩
def R.PERIOD_CFG_DS : Fld := ⟨0x41100100, 16, 14⟩
def R.LAYOUT_0_T_CA : Fld := ⟨0x41100104, 0, 16⟩
def R.LAYOUT_0_T_LE : Fld := ⟨0x41100104, 16, 16⟩
def R.LAYOUT_1_T_ML : Fld := ⟨0x41100108, 0, 16⟩
def R.LAYOUT_1_T_H : Fld := ⟨0x41100108, 16, 16⟩
def R.CE_DEMAND_DEMAND : Fld := ⟨0x4110010C, 0, 18⟩
def R.CE_WINDOW_WINDOW : Fld := ⟨0x41100110, 0, 18⟩
def R.STRAND_WORST_D_MAX : Fld := ⟨0x41100114, 0, 14⟩
def R.STRAND_WORST_STRAND : Fld := ⟨0x41100114, 16, 6⟩
def R.FIT_STATUS_FIT_OK : Fld := ⟨0x41100118, 0, 1⟩
def R.FIT_STATUS_STRAND_OVER : Fld := ⟨0x41100118, 1, 1⟩
def R.FIT_STATUS_CE_OVER : Fld := ⟨0x41100118, 2, 1⟩
def R.FIT_STATUS_WINDOW_SHORT : Fld := ⟨0x41100118, 3, 1⟩
def R.FIT_STATUS_ACCORD_OVER : Fld := ⟨0x41100118, 4, 1⟩
def R.IF_VER_LOW (i : Nat) : Fld := ⟨0x41100200 + 0x4 * i, 0, 8⟩
def R.IF_VER_HIGH (i : Nat) : Fld := ⟨0x41100200 + 0x4 * i, 8, 8⟩
def R.IF_VER_RUN (i : Nat) : Fld := ⟨0x41100200 + 0x4 * i, 16, 8⟩
def R.IF_VER_NONE (i : Nat) : Fld := ⟨0x41100200 + 0x4 * i, 24, 1⟩
def R.OD_NET_IP_IP (i : Nat) : Fld := ⟨0x41100300 + 0xc * i, 0, 32⟩
def R.OD_NET_MASK_MASK (i : Nat) : Fld := ⟨0x41100304 + 0xc * i, 0, 32⟩
def R.OD_NET_GW_GW (i : Nat) : Fld := ⟨0x41100308 + 0xc * i, 0, 32⟩
def R.OD_UDP_PORT : Fld := ⟨0x41100318, 0, 16⟩
def R.OD_UDP_IDLE : Fld := ⟨0x41100318, 16, 8⟩
def R.OD_UDP_SESSIONS : Fld := ⟨0x41100318, 24, 4⟩
def R.OD_UDP_BAD : Fld := ⟨0x41100318, 28, 4⟩
def R.OD_SP_SRC_SP_SRC : Fld := ⟨0x4110031C, 0, 32⟩
def R.OD_CAN_NODE_ID : Fld := ⟨0x41100320, 0, 7⟩
def R.OD_CAN_NOM : Fld := ⟨0x41100320, 8, 2⟩
def R.OD_CAN_DATA : Fld := ⟨0x41100320, 10, 3⟩
def R.OD_CAN_EN0 : Fld := ⟨0x41100320, 13, 1⟩
def R.OD_CAN_EN1 : Fld := ⟨0x41100320, 14, 1⟩
def R.OD_CAN_HB_MS : Fld := ⟨0x41100320, 16, 16⟩
def R.OD_STORE_STORED : Fld := ⟨0x41100324, 0, 1⟩
def R.OD_STORE_COPY : Fld := ⟨0x41100324, 1, 1⟩
def R.OD_STORE_RESTORE_ERR : Fld := ⟨0x41100324, 2, 1⟩
def R.OD_STORE_LOAD_PEND : Fld := ⟨0x41100324, 3, 1⟩
def R.OD_STORE_STORES : Fld := ⟨0x41100324, 16, 16⟩
def R.OD_REPLAY_USED : Fld := ⟨0x41100328, 0, 13⟩
def R.OD_REPLAY_FULL_REF : Fld := ⟨0x41100328, 13, 1⟩
def R.OD_REPLAY_CLR : Fld := ⟨0x41100328, 14, 1⟩
def R.OD_REPLAY_REPLAY_ERR : Fld := ⟨0x41100328, 16, 16⟩
def R.SAFE_PEER_A_PEER_A (i : Nat) : Fld := ⟨0x41100340 + 0x8 * i, 0, 32⟩
def R.SAFE_PEER_B_PEER_B (i : Nat) : Fld := ⟨0x41100344 + 0x8 * i, 0, 32⟩

end Sys2Proof.Machine
end

