-- ==== Sys2Proof/Machine/RegTable.lean ====
section
/-! DEFINITION. The register tables of both parts, row by row from the register tables of the spec: where a register or
a register array stands, its fields, their access codes (R7), the values a part leaves RESET with, and the values a write
may give them. The rows carry no behaviour. -/

namespace Sys2Proof.Machine

/-- Access codes of R7. -/
inductive Access where
  | rw | ro | w1c | wo | rwl | rws
  deriving DecidableEq, Repr

/-- What a binary32 field may hold, where its table bounds it. -/
inductive F32Legal where
  /-- neither NaN nor infinite -/
  | finite
  /-- not NaN -/
  | notNaN
  /-- at least 0; +Inf allowed -/
  | nonneg
  /-- at least 0 and finite -/
  | nonnegFin
  /-- above 0; +Inf allowed -/
  | pos
  /-- above 0 and finite -/
  | posFin
  /-- above a bound given by its bits -/
  | above (bits : Nat)
  /-- between two bounds given by their bits, both allowed -/
  | within (lo hi : Nat)
  deriving DecidableEq, Repr

/-- The values a write may give a field. -/
inductive Legal where
  | any
  | range (lo hi : Nat)
  | except (v : Nat)
  | zeroOr (lo hi : Nat)
  | step (by' lo hi : Nat)
  | f32 (k : F32Legal)
  deriving DecidableEq, Repr

/-- One field of a register. -/
structure FieldRow where
  lo : Nat
  width : Nat
  acc : Access
  reset : Nat
  legal : Legal
  deriving DecidableEq, Repr

/-- One register, or an array of them: `n1` of stride `s1`, each of `n2` of stride `s2`. -/
structure RegRow where
  base : Nat
  n1 : Nat
  s1 : Nat
  n2 : Nat
  s2 : Nat
  fields : List FieldRow
  deriving DecidableEq, Repr


/-- Register rows of the KS210 tables, part 1. -/
def cellRows0 : List RegRow := [
  -- DEV_UID_LO
  ⟨0x0, 1, 0x4, 1, 0x4, [⟨0, 32, .ro, 0, .any⟩]⟩,
  -- DEV_UID_HI
  ⟨0x4, 1, 0x4, 1, 0x4, [⟨0, 32, .ro, 0, .any⟩]⟩,
  -- DEV_REV
  ⟨0x8, 1, 0x4, 1, 0x4, [⟨0, 32, .ro, 0x10002, .any⟩]⟩,
  -- DEV_VER
  ⟨0xc, 1, 0x4, 1, 0x4, [⟨0, 32, .ro, 0, .any⟩]⟩,
  -- LNK_CFG
  ⟨0x10000, 1, 0x4, 1, 0x4, [⟨0, 12, .rwl, 0, .any⟩, ⟨16, 12, .rwl, 0, .any⟩]⟩,
  -- LNK_CFG2
  ⟨0x10004, 1, 0x4, 1, 0x4, [⟨0, 12, .rwl, 0, .any⟩, ⟨12, 1, .rwl, 0, .any⟩, ⟨13, 1, .rwl, 0, .any⟩, ⟨14, 4, .rwl, 0, .range 0 11⟩, ⟨18, 4, .rwl, 1, .range 0 11⟩]⟩,
  -- LNK_ORIG
  ⟨0x10008, 1, 0x4, 1, 0x4, [⟨0, 16, .rwl, 0x14, .any⟩, ⟨16, 7, .rwl, 0, .any⟩]⟩,
  -- LNK_STATUS
  ⟨0x1000c, 1, 0x4, 1, 0x4, [⟨0, 1, .ro, 0, .any⟩, ⟨1, 1, .ro, 0, .any⟩, ⟨2, 1, .ro, 0, .any⟩, ⟨3, 1, .ro, 0, .any⟩, ⟨8, 7, .ro, 0, .any⟩, ⟨16, 4, .ro, 0, .any⟩, ⟨20, 4, .ro, 0, .any⟩]⟩,
  -- LNK_ERR
  ⟨0x10010, 1, 0x4, 1, 0x4, [⟨0, 16, .ro, 0, .any⟩, ⟨16, 16, .ro, 0, .any⟩]⟩,
  -- LNK_ERR2
  ⟨0x10014, 1, 0x4, 1, 0x4, [⟨0, 16, .ro, 0, .any⟩, ⟨16, 8, .ro, 0, .any⟩, ⟨24, 8, .ro, 0, .any⟩]⟩,
  -- LNK_CLR
  ⟨0x10018, 1, 0x4, 1, 0x4, [⟨0, 1, .wo, 0, .any⟩]⟩,
  -- SUB_CFG
  ⟨0x10100, 1, 0x4, 1, 0x4, [⟨0, 1, .rwl, 1, .any⟩, ⟨16, 16, .rwl, 0x28, .any⟩]⟩,
  -- SUB_STATUS
  ⟨0x10104, 1, 0x4, 1, 0x4, [⟨0, 4, .ro, 0, .any⟩, ⟨4, 1, .ro, 0, .any⟩, ⟨5, 1, .ro, 0, .any⟩, ⟨6, 1, .ro, 0, .any⟩, ⟨7, 1, .ro, 0, .any⟩, ⟨8, 8, .ro, 0, .any⟩, ⟨16, 8, .ro, 0, .any⟩, ⟨24, 1, .w1c, 0, .any⟩]⟩,
  -- SUB_LAT
  ⟨0x10108, 1, 0x4, 1, 0x4, [⟨0, 16, .ro, 0, .any⟩, ⟨16, 16, .ro, 0, .any⟩]⟩,
  -- PWM_CFG
  ⟨0x20000, 1, 0x4, 1, 0x4, [⟨0, 1, .ro, 0, .any⟩, ⟨1, 1, .rwl, 0, .any⟩, ⟨2, 2, .rwl, 0, .range 0 2⟩, ⟨4, 1, .rwl, 0, .any⟩, ⟨5, 1, .rwl, 0, .any⟩, ⟨6, 2, .rwl, 0, .any⟩]⟩,
  -- PWM_DT1
  ⟨0x20004, 1, 0x4, 1, 0x4, [⟨0, 11, .rwl, 0x190, .any⟩, ⟨16, 11, .rwl, 0x190, .any⟩]⟩,
  -- PWM_DT2
  ⟨0x20008, 1, 0x4, 1, 0x4, [⟨0, 11, .rwl, 0x190, .any⟩, ⟨16, 11, .rwl, 0x190, .any⟩]⟩,
  -- PWM_MINP
  ⟨0x2000c, 1, 0x4, 1, 0x4, [⟨0, 11, .rwl, 0xc8, .any⟩]⟩,
  -- PWM_TIME
  ⟨0x20010, 1, 0x4, 1, 0x4, [⟨0, 16, .rwl, 0x7d0, .step 100 2000 40000⟩, ⟨16, 12, .rwl, 1, .range 1 4095⟩, ⟨28, 3, .rwl, 7, .except 6⟩]⟩,
  -- PWM_PHASE
  ⟨0x20014, 1, 0x4, 1, 0x4, [⟨0, 28, .rwl, 0, .any⟩]⟩,
  -- PWM_CAR
  ⟨0x20018, 1, 0x4, 1, 0x4, [⟨0, 12, .rw, 0, .any⟩]⟩,
  -- PWM_MASKA
  ⟨0x2001c, 1, 0x4, 1, 0x4, [⟨0, 4, .rwl, 0xf, .any⟩, ⟨4, 4, .rwl, 0xf, .any⟩, ⟨8, 4, .rwl, 0xf, .any⟩]⟩,
  -- PWM_MASKB
  ⟨0x20020, 1, 0x4, 1, 0x4, [⟨0, 4, .rwl, 0xf, .any⟩, ⟨4, 4, .rwl, 0xf, .any⟩, ⟨8, 4, .rwl, 0xf, .any⟩]⟩,
  -- PWM_MASKT
  ⟨0x20024, 1, 0x4, 1, 0x4, [⟨0, 10, .rw, 0x32, .any⟩, ⟨16, 8, .rw, 8, .range 1 255⟩]⟩]

/-- Register rows of the KS210 tables, part 2. -/
def cellRows1 : List RegRow := [
  -- PWM_SYNC
  ⟨0x20028, 1, 0x4, 1, 0x4, [⟨0, 8, .rw, 4, .any⟩, ⟨8, 8, .rw, 0, .any⟩]⟩,
  -- PWM_POL
  ⟨0x2002c, 1, 0x4, 1, 0x4, [⟨0, 4, .rwl, 0, .any⟩]⟩,
  -- PWM_BYP
  ⟨0x20030, 1, 0x4, 1, 0x4, [⟨0, 11, .rwl, 0x190, .any⟩]⟩,
  -- TRIP_CFG
  ⟨0x20034, 1, 0x4, 1, 0x4, [⟨0, 4, .rwl, 0xf, .any⟩]⟩,
  -- BYP_CMD
  ⟨0x20038, 1, 0x4, 1, 0x4, [⟨0, 1, .wo, 0, .any⟩, ⟨16, 16, .wo, 0, .any⟩]⟩,
  -- PWM_STATUS
  ⟨0x20040, 1, 0x4, 1, 0x4, [⟨0, 2, .ro, 0, .any⟩, ⟨4, 4, .ro, 0, .any⟩, ⟨8, 2, .ro, 0, .any⟩, ⟨10, 1, .ro, 0, .any⟩, ⟨11, 1, .ro, 0, .any⟩, ⟨12, 4, .ro, 0, .any⟩]⟩,
  -- PWM_ACC
  ⟨0x20044, 1, 0x4, 1, 0x4, [⟨0, 32, .ro, 0, .any⟩]⟩,
  -- PWM_CNT
  ⟨0x20048, 1, 0x4, 1, 0x4, [⟨0, 16, .ro, 0, .any⟩, ⟨16, 16, .ro, 0, .any⟩]⟩,
  -- TRIP_STATUS
  ⟨0x20050, 1, 0x4, 1, 0x4, [⟨0, 4, .w1c, 0, .any⟩, ⟨4, 4, .ro, 0, .any⟩, ⟨8, 4, .w1c, 0, .any⟩, ⟨12, 1, .w1c, 0, .any⟩, ⟨13, 1, .ro, 0, .any⟩, ⟨16, 1, .w1c, 0, .any⟩]⟩,
  -- GATE_RB
  ⟨0x20054, 1, 0x4, 1, 0x4, [⟨0, 4, .ro, 0, .any⟩, ⟨4, 1, .ro, 0, .any⟩]⟩,
  -- PWM_SYNCST
  ⟨0x20058, 1, 0x4, 1, 0x4, [⟨0, 8, .ro, 0, .any⟩]⟩,
  -- ADC_CFG
  ⟨0x30000, 1, 0x4, 1, 0x4, [⟨0, 1, .rwl, 0, .any⟩, ⟨1, 1, .rwl, 0, .any⟩, ⟨2, 1, .rwl, 0, .any⟩, ⟨3, 2, .rwl, 1, .any⟩]⟩,
  -- SEQ_CFG
  ⟨0x30004, 1, 0x4, 1, 0x4, [⟨0, 5, .rwl, 1, .range 1 16⟩, ⟨5, 2, .rwl, 1, .range 1 3⟩]⟩,
  -- SEQ_EL0
  ⟨0x30008, 1, 0x4, 1, 0x4, [⟨0, 4, .rwl, 4, .range 0 11⟩, ⟨4, 4, .rwl, 0, .range 0 11⟩, ⟨8, 4, .rwl, 0, .range 0 11⟩, ⟨12, 4, .rwl, 0, .range 0 11⟩, ⟨16, 4, .rwl, 0, .range 0 11⟩, ⟨20, 4, .rwl, 0, .range 0 11⟩, ⟨24, 4, .rwl, 0, .range 0 11⟩, ⟨28, 4, .rwl, 0, .range 0 11⟩]⟩,
  -- SEQ_EL1
  ⟨0x3000c, 1, 0x4, 1, 0x4, [⟨0, 4, .rwl, 0, .range 0 11⟩, ⟨4, 4, .rwl, 0, .range 0 11⟩, ⟨8, 4, .rwl, 0, .range 0 11⟩, ⟨12, 4, .rwl, 0, .range 0 11⟩, ⟨16, 4, .rwl, 0, .range 0 11⟩, ⟨20, 4, .rwl, 0, .range 0 11⟩, ⟨24, 4, .rwl, 0, .range 0 11⟩, ⟨28, 4, .rwl, 0, .range 0 11⟩]⟩,
  -- VCAP_CFG
  ⟨0x30010, 1, 0x4, 1, 0x4, [⟨0, 4, .rwl, 4, .any⟩, ⟨8, 24, .rwl, 0x10000, .any⟩]⟩,
  -- TEMP_CFG
  ⟨0x30014, 1, 0x4, 1, 0x4, [⟨0, 12, .rwl, 0, .any⟩, ⟨16, 16, .rwl, 0, .any⟩]⟩,
  -- TEMP_SCALE
  ⟨0x30018, 1, 0x4, 1, 0x4, [⟨0, 16, .rwl, 0, .any⟩]⟩,
  -- ADC_STATUS
  ⟨0x3001c, 1, 0x4, 1, 0x4, [⟨0, 1, .ro, 0, .any⟩, ⟨1, 1, .ro, 0, .any⟩, ⟨8, 8, .ro, 0, .any⟩, ⟨16, 16, .ro, 0, .any⟩]⟩,
  -- INJ_REQ
  ⟨0x30020, 1, 0x4, 1, 0x4, [⟨0, 4, .wo, 0, .range 0 11⟩, ⟨4, 1, .wo, 0, .any⟩]⟩,
  -- INJ_STATUS
  ⟨0x30024, 1, 0x4, 1, 0x4, [⟨0, 3, .ro, 0, .any⟩, ⟨3, 1, .w1c, 0, .any⟩, ⟨4, 1, .w1c, 0, .any⟩, ⟨8, 8, .ro, 0, .any⟩]⟩,
  -- INJ_RESULT
  ⟨0x30028, 1, 0x4, 1, 0x4, [⟨0, 32, .ro, 0, .any⟩]⟩,
  -- INJ_INFO
  ⟨0x3002c, 1, 0x4, 1, 0x4, [⟨0, 4, .ro, 0, .any⟩, ⟨4, 1, .ro, 0, .any⟩, ⟨5, 1, .ro, 0, .any⟩, ⟨6, 1, .ro, 0, .any⟩]⟩,
  -- INJ_TIME
  ⟨0x30030, 1, 0x4, 1, 0x4, [⟨0, 32, .ro, 0, .any⟩]⟩]

/-- Register rows of the KS210 tables, part 3. -/
def cellRows2 : List RegRow := [
  -- CAL_CMD
  ⟨0x30034, 1, 0x4, 1, 0x4, [⟨0, 4, .wo, 0, .any⟩, ⟨4, 2, .wo, 0, .any⟩, ⟨16, 16, .wo, 0, .any⟩]⟩,
  -- CAL_STATUS
  ⟨0x30038, 1, 0x4, 1, 0x4, [⟨0, 1, .ro, 0, .any⟩, ⟨1, 1, .ro, 0, .any⟩, ⟨2, 1, .w1c, 0, .any⟩, ⟨3, 1, .w1c, 0, .any⟩, ⟨4, 2, .ro, 0, .any⟩, ⟨8, 4, .ro, 0, .any⟩, ⟨16, 7, .ro, 0, .any⟩]⟩,
  -- OVR_FLAG
  ⟨0x3003c, 1, 0x4, 1, 0x4, [⟨0, 12, .w1c, 0, .any⟩]⟩,
  -- OW_OPEN
  ⟨0x30040, 1, 0x4, 1, 0x4, [⟨0, 12, .w1c, 0, .any⟩]⟩,
  -- RES
  ⟨0x30100, 12, 0x10, 1, 0x4, [⟨0, 32, .ro, 0, .any⟩]⟩,
  -- RES_ST
  ⟨0x30104, 12, 0x10, 1, 0x4, [⟨0, 1, .ro, 0, .any⟩, ⟨1, 1, .ro, 0, .any⟩, ⟨2, 1, .ro, 0, .any⟩, ⟨3, 1, .ro, 0, .any⟩]⟩,
  -- CAL
  ⟨0x30108, 12, 0x10, 1, 0x4, [⟨0, 16, .rwl, 0, .any⟩, ⟨16, 16, .rwl, 0x8000, .range 16384 65535⟩]⟩,
  -- OW_CFG
  ⟨0x3010c, 12, 0x10, 1, 0x4, [⟨0, 1, .rw, 0, .any⟩, ⟨1, 1, .rw, 0, .any⟩, ⟨2, 1, .rw, 0, .any⟩, ⟨8, 8, .rw, 0x64, .range 1 255⟩, ⟨16, 8, .rw, 0x10, .range 1 255⟩, ⟨24, 4, .rw, 3, .range 1 15⟩]⟩,
  -- CMP_CFG
  ⟨0x30200, 1, 0x10, 1, 0x4, [⟨0, 4, .rwl, 0, .range 0 11⟩, ⟨4, 1, .rwl, 0, .any⟩, ⟨5, 1, .rwl, 0, .any⟩, ⟨6, 2, .rwl, 1, .any⟩, ⟨8, 5, .rwl, 2, .any⟩, ⟨13, 3, .rwl, 0, .range 0 4⟩, ⟨16, 11, .rwl, 0xc8, .any⟩]⟩,
  -- CMP_CFG
  ⟨0x30210, 1, 0x10, 1, 0x4, [⟨0, 4, .rwl, 1, .range 0 11⟩, ⟨4, 1, .rwl, 0, .any⟩, ⟨5, 1, .rwl, 0, .any⟩, ⟨6, 2, .rwl, 1, .any⟩, ⟨8, 5, .rwl, 2, .any⟩, ⟨13, 3, .rwl, 0, .range 0 4⟩, ⟨16, 11, .rwl, 0xc8, .any⟩]⟩,
  -- CMP_CFG
  ⟨0x30220, 1, 0x10, 1, 0x4, [⟨0, 4, .rwl, 2, .range 0 11⟩, ⟨4, 1, .rwl, 0, .any⟩, ⟨5, 1, .rwl, 0, .any⟩, ⟨6, 2, .rwl, 1, .any⟩, ⟨8, 5, .rwl, 2, .any⟩, ⟨13, 3, .rwl, 0, .range 0 4⟩, ⟨16, 11, .rwl, 0xc8, .any⟩]⟩,
  -- CMP_CFG
  ⟨0x30230, 1, 0x10, 1, 0x4, [⟨0, 4, .ro, 4, .range 0 11⟩, ⟨4, 1, .ro, 1, .any⟩, ⟨5, 1, .ro, 0, .any⟩, ⟨6, 2, .rwl, 1, .any⟩, ⟨8, 5, .rwl, 2, .any⟩, ⟨13, 3, .ro, 0, .range 0 4⟩, ⟨16, 11, .rwl, 0xc8, .any⟩]⟩,
  -- CMP_THR
  ⟨0x30204, 3, 0x10, 1, 0x4, [⟨0, 12, .rwl, 0, .any⟩, ⟨16, 12, .rwl, 0xfff, .any⟩]⟩,
  -- CMP_THR
  ⟨0x30234, 1, 0x10, 1, 0x4, [⟨0, 12, .rwl, 0, .any⟩, ⟨16, 12, .rwl, 0xf00, .any⟩]⟩,
  -- TM_NOW
  ⟨0x40000, 1, 0x4, 1, 0x4, [⟨0, 32, .ro, 0, .any⟩]⟩,
  -- TM_LOAD
  ⟨0x40004, 1, 0x4, 1, 0x4, [⟨0, 32, .rw, 0, .any⟩]⟩,
  -- TM_CTL
  ⟨0x40008, 1, 0x4, 1, 0x4, [⟨0, 1, .wo, 0, .any⟩, ⟨8, 8, .rw, 0, .any⟩, ⟨16, 8, .rw, 0, .any⟩]⟩,
  -- TM_BOUND
  ⟨0x4000c, 1, 0x4, 1, 0x4, [⟨0, 32, .rw, 0, .any⟩]⟩,
  -- TM_STEP
  ⟨0x40010, 1, 0x4, 1, 0x4, [⟨0, 9, .rw, 0xc8, .range 20 400⟩, ⟨9, 1, .rw, 0, .any⟩]⟩,
  -- TM_SEG
  ⟨0x40014, 1, 0x4, 1, 0x4, [⟨0, 24, .ro, 0, .any⟩]⟩,
  -- TM_FWD
  ⟨0x40018, 1, 0x4, 1, 0x4, [⟨0, 16, .ro, 0, .any⟩, ⟨16, 16, .ro, 0, .any⟩]⟩,
  -- TM_ST
  ⟨0x4001c, 1, 0x4, 1, 0x4, [⟨0, 1, .ro, 0, .any⟩, ⟨1, 1, .ro, 0, .any⟩, ⟨2, 1, .w1c, 0, .any⟩]⟩,
  -- CFLT_STAT
  ⟨0x50000, 1, 0x4, 1, 0x4, [⟨0, 32, .w1c, 0, .any⟩]⟩,
  -- CFLT_LIVE
  ⟨0x50004, 1, 0x4, 1, 0x4, [⟨0, 32, .ro, 0, .any⟩]⟩]

/-- Register rows of the KS210 tables, part 4. -/
def cellRows3 : List RegRow := [
  -- CFLT_CLASS
  ⟨0x50008, 1, 0x4, 1, 0x4, [⟨0, 3, .rwl, 4, .range 0 5⟩, ⟨4, 3, .rwl, 4, .range 0 5⟩, ⟨8, 3, .rwl, 4, .range 0 5⟩, ⟨12, 3, .rwl, 4, .range 0 5⟩, ⟨16, 3, .rwl, 3, .range 0 5⟩, ⟨20, 3, .rwl, 4, .range 0 5⟩, ⟨24, 3, .rwl, 3, .range 0 5⟩, ⟨28, 3, .rwl, 1, .range 0 5⟩, ⟨3, 1, .rwl, 0, .any⟩, ⟨7, 1, .rwl, 0, .any⟩, ⟨11, 1, .rwl, 0, .any⟩, ⟨15, 1, .rwl, 0, .any⟩, ⟨19, 1, .rwl, 0, .any⟩, ⟨23, 1, .rwl, 0, .any⟩, ⟨27, 1, .rwl, 0, .any⟩, ⟨31, 1, .rwl, 0, .any⟩]⟩,
  -- CFLT_CLASS
  ⟨0x5000c, 1, 0x4, 1, 0x4, [⟨0, 3, .rwl, 1, .range 0 5⟩, ⟨4, 3, .rwl, 2, .range 0 5⟩, ⟨8, 3, .rwl, 1, .range 0 5⟩, ⟨12, 3, .rwl, 1, .range 0 5⟩, ⟨16, 3, .rwl, 1, .range 0 5⟩, ⟨20, 3, .rwl, 1, .range 0 5⟩, ⟨24, 3, .rwl, 1, .range 0 5⟩, ⟨28, 3, .rwl, 1, .range 0 5⟩, ⟨3, 1, .rwl, 0, .any⟩, ⟨7, 1, .rwl, 0, .any⟩, ⟨11, 1, .rwl, 0, .any⟩, ⟨15, 1, .rwl, 0, .any⟩, ⟨19, 1, .rwl, 0, .any⟩, ⟨23, 1, .rwl, 0, .any⟩, ⟨27, 1, .rwl, 0, .any⟩, ⟨31, 1, .rwl, 0, .any⟩]⟩,
  -- CFLT_CLASS
  ⟨0x50010, 1, 0x4, 1, 0x4, [⟨0, 3, .rwl, 5, .range 0 5⟩, ⟨4, 3, .rwl, 5, .range 0 5⟩, ⟨8, 3, .rwl, 3, .range 0 5⟩, ⟨12, 3, .rwl, 2, .range 0 5⟩, ⟨16, 3, .rwl, 1, .range 0 5⟩, ⟨20, 3, .rwl, 3, .range 0 5⟩, ⟨24, 3, .rwl, 3, .range 0 5⟩, ⟨28, 3, .rwl, 5, .range 0 5⟩, ⟨3, 1, .rwl, 0, .any⟩, ⟨7, 1, .rwl, 0, .any⟩, ⟨11, 1, .rwl, 0, .any⟩, ⟨15, 1, .rwl, 0, .any⟩, ⟨19, 1, .rwl, 0, .any⟩, ⟨23, 1, .rwl, 0, .any⟩, ⟨27, 1, .rwl, 0, .any⟩, ⟨31, 1, .rwl, 0, .any⟩]⟩,
  -- CFLT_CLASS
  ⟨0x50014, 1, 0x4, 1, 0x4, [⟨0, 3, .rwl, 3, .range 0 5⟩, ⟨4, 3, .rwl, 1, .range 0 5⟩, ⟨8, 3, .rwl, 1, .range 0 5⟩, ⟨12, 3, .rwl, 1, .range 0 5⟩, ⟨16, 3, .rwl, 2, .range 0 5⟩, ⟨20, 3, .rwl, 1, .range 0 5⟩, ⟨24, 3, .rwl, 5, .range 0 5⟩, ⟨28, 3, .rwl, 1, .range 0 5⟩, ⟨3, 1, .rwl, 0, .any⟩, ⟨7, 1, .rwl, 0, .any⟩, ⟨11, 1, .rwl, 0, .any⟩, ⟨15, 1, .rwl, 0, .any⟩, ⟨19, 1, .rwl, 0, .any⟩, ⟨23, 1, .rwl, 0, .any⟩, ⟨27, 1, .rwl, 0, .any⟩, ⟨31, 1, .rwl, 0, .any⟩]⟩,
  -- CFLT_SUM
  ⟨0x50018, 1, 0x4, 1, 0x4, [⟨0, 3, .ro, 0, .any⟩, ⟨3, 5, .ro, 0, .any⟩, ⟨8, 1, .w1c, 0, .any⟩, ⟨9, 1, .ro, 0, .any⟩]⟩,
  -- CFLT_FIRST
  ⟨0x5001c, 1, 0x4, 1, 0x4, [⟨0, 5, .ro, 0, .any⟩, ⟨5, 1, .ro, 0, .any⟩, ⟨8, 3, .ro, 0, .any⟩]⟩,
  -- CFLT_FTIME
  ⟨0x50020, 1, 0x4, 1, 0x4, [⟨0, 32, .ro, 0, .any⟩]⟩,
  -- CFLT_REARM
  ⟨0x50024, 1, 0x4, 1, 0x4, [⟨0, 1, .wo, 0, .any⟩]⟩,
  -- CTRG_CFG
  ⟨0x60000, 1, 0x4, 1, 0x4, [⟨0, 1, .rw, 0, .any⟩, ⟨1, 1, .rw, 0, .any⟩, ⟨2, 1, .rw, 0, .any⟩, ⟨4, 4, .rw, 0, .any⟩, ⟨8, 4, .rw, 0, .range 0 11⟩, ⟨16, 16, .rw, 0, .any⟩]⟩,
  -- CTRG_THR
  ⟨0x60004, 1, 0x4, 1, 0x4, [⟨0, 16, .rw, 0, .any⟩]⟩,
  -- CTRG_MASK
  ⟨0x60008, 1, 0x4, 1, 0x4, [⟨0, 32, .rw, 0, .any⟩]⟩,
  -- CTRG_CMD
  ⟨0x6000c, 1, 0x4, 1, 0x4, [⟨0, 1, .wo, 0, .any⟩]⟩,
  -- CTRG_ST
  ⟨0x60010, 1, 0x4, 1, 0x4, [⟨0, 3, .ro, 0, .any⟩, ⟨3, 1, .ro, 0, .any⟩, ⟨8, 8, .ro, 0, .any⟩, ⟨16, 16, .ro, 0, .any⟩]⟩,
  -- CTRG_TIME
  ⟨0x60014, 1, 0x4, 1, 0x4, [⟨0, 32, .ro, 0, .any⟩]⟩,
  -- SMEM_STATE
  ⟨0x70000, 1, 0x4, 1, 0x4, [⟨0, 8, .ro, 0, .any⟩]⟩,
  -- SMEM_ECC
  ⟨0x70004, 1, 0x4, 1, 0x4, [⟨0, 16, .ro, 0, .any⟩, ⟨16, 16, .ro, 0, .any⟩]⟩,
  -- SMEM_BT
  ⟨0x70008, 1, 0x4, 1, 0x4, [⟨0, 1, .rw, 1, .any⟩, ⟨16, 16, .rw, 0x7d0, .range 10 65535⟩]⟩,
  -- SMEM_BTST
  ⟨0x7000c, 1, 0x4, 1, 0x4, [⟨0, 10, .ro, 0, .any⟩, ⟨16, 16, .ro, 0, .any⟩]⟩,
  -- HCFG
  ⟨0x80000, 1, 0x4, 1, 0x4, [⟨0, 1, .rw, 1, .any⟩, ⟨1, 1, .rw, 0, .any⟩, ⟨2, 4, .rw, 0, .any⟩, ⟨6, 4, .rw, 0, .any⟩, ⟨16, 8, .rw, 4, .range 1 255⟩, ⟨24, 8, .rw, 0x14, .range 1 255⟩]⟩,
  -- HCFG2
  ⟨0x80004, 1, 0x4, 1, 0x4, [⟨0, 16, .rw, 0xa00, .any⟩, ⟨16, 8, .rw, 0xa, .range 1 255⟩, ⟨24, 8, .rw, 0x1e, .range 1 31⟩]⟩,
  -- H_ISCALE
  ⟨0x80008, 1, 0x4, 1, 0x4, [⟨0, 32, .rw, 0, .any⟩]⟩,
  -- H_IOFF
  ⟨0x8000c, 1, 0x4, 1, 0x4, [⟨0, 16, .rw, 0, .any⟩]⟩,
  -- H_C_NOM
  ⟨0x80010, 1, 0x4, 1, 0x4, [⟨0, 32, .rw, 0x3c23d70a, .f32 .posFin⟩]⟩,
  -- H_ESR0
  ⟨0x80014, 1, 0x4, 1, 0x4, [⟨0, 32, .rw, 0, .f32 .nonnegFin⟩]⟩]

/-- Register rows of the KS210 tables, part 5. -/
def cellRows4 : List RegRow := [
  -- H_LAMBDA
  ⟨0x80018, 1, 0x4, 1, 0x4, [⟨0, 32, .rw, 0x3f7ff972, .f32 (.within 0x3F7D70A4 0x3F800000)⟩]⟩,
  -- H_MINN
  ⟨0x8001c, 1, 0x4, 1, 0x4, [⟨0, 16, .rw, 0x7d0, .any⟩, ⟨16, 16, .rw, 0x3c, .range 1 65535⟩]⟩,
  -- H_I_REF
  ⟨0x80020, 1, 0x4, 1, 0x4, [⟨0, 32, .rw, 0, .any⟩]⟩,
  -- H_VON_SCALE
  ⟨0x80024, 1, 0x4, 1, 0x4, [⟨0, 32, .rw, 0, .any⟩]⟩,
  -- H_VON_T
  ⟨0x80028, 1, 0x4, 1, 0x4, [⟨0, 16, .rw, 0x1900, .any⟩, ⟨16, 4, .rw, 0, .any⟩, ⟨20, 4, .rw, 0, .any⟩, ⟨24, 4, .rw, 0, .any⟩, ⟨28, 4, .rw, 0, .any⟩]⟩,
  -- H_CAP_DROP
  ⟨0x8002c, 1, 0x4, 1, 0x4, [⟨0, 32, .rw, 0x3dcccccd, .f32 .pos⟩]⟩,
  -- H_ESR_LIM
  ⟨0x80030, 1, 0x4, 1, 0x4, [⟨0, 32, .rw, 0x40000000, .f32 (.above 0x3F800000)⟩]⟩,
  -- H_VON_LIM
  ⟨0x80034, 1, 0x4, 1, 0x4, [⟨0, 32, .rw, 0x3dcccccd, .f32 .pos⟩]⟩,
  -- H_ALM
  ⟨0x80038, 1, 0x4, 1, 0x4, [⟨0, 16, .rw, 0x16d, .any⟩, ⟨16, 16, .rw, 0xe666, .any⟩]⟩,
  -- H_W
  ⟨0x80040, 16, 0x4, 1, 0x4, [⟨0, 32, .rw, 0, .f32 .nonnegFin⟩]⟩,
  -- H_L
  ⟨0x80080, 8, 0x4, 1, 0x4, [⟨0, 32, .rw, 0x7f800000, .f32 .pos⟩]⟩,
  -- H_C_EST
  ⟨0x800a0, 1, 0x4, 1, 0x4, [⟨0, 32, .ro, 0, .any⟩]⟩,
  -- H_R_EST
  ⟨0x800a4, 1, 0x4, 1, 0x4, [⟨0, 32, .ro, 0, .any⟩]⟩,
  -- H_D
  ⟨0x800a8, 1, 0x4, 1, 0x4, [⟨0, 32, .ro, 0, .any⟩]⟩,
  -- H_D_WEAR
  ⟨0x800ac, 1, 0x4, 1, 0x4, [⟨0, 32, .ro, 0, .any⟩]⟩,
  -- H_DAYS
  ⟨0x800b0, 1, 0x4, 1, 0x4, [⟨0, 16, .ro, 0xffff, .any⟩, ⟨16, 16, .ro, 0, .any⟩]⟩,
  -- H_N_UPD
  ⟨0x800b4, 1, 0x4, 1, 0x4, [⟨0, 32, .ro, 0, .any⟩]⟩,
  -- HCTL
  ⟨0x800c0, 1, 0x4, 1, 0x4, [⟨0, 1, .ro, 1, .any⟩, ⟨1, 1, .wo, 0, .any⟩]⟩,
  -- A_RF
  ⟨0x80100, 16, 0x4, 1, 0x4, [⟨0, 32, .rw, 0, .any⟩]⟩,
  -- A_HRS
  ⟨0x80140, 8, 0x4, 1, 0x4, [⟨0, 32, .rw, 0, .any⟩]⟩,
  -- A_VON0
  ⟨0x80160, 4, 0x4, 1, 0x4, [⟨0, 32, .rw, 0, .any⟩]⟩,
  -- A_HIST
  ⟨0x80170, 16, 0x4, 1, 0x4, [⟨0, 32, .rw, 0, .any⟩]⟩,
  -- A_HISTN
  ⟨0x801b0, 1, 0x4, 1, 0x4, [⟨0, 6, .rw, 0, .range 0 32⟩, ⟨6, 26, .rw, 0, .any⟩]⟩,
  -- A_THETA0
  ⟨0x801b4, 1, 0x4, 1, 0x4, [⟨0, 32, .rw, 0x42c80000, .any⟩]⟩]

/-- Register rows of the KS210 tables, part 6. -/
def cellRows5 : List RegRow := [
  -- A_THETA1
  ⟨0x801b8, 1, 0x4, 1, 0x4, [⟨0, 32, .rw, 0, .any⟩]⟩,
  -- A_P00
  ⟨0x801bc, 1, 0x4, 1, 0x4, [⟨0, 32, .rw, 0x461c4000, .any⟩]⟩,
  -- A_P01
  ⟨0x801c0, 1, 0x4, 1, 0x4, [⟨0, 32, .rw, 0, .any⟩]⟩,
  -- A_P11
  ⟨0x801c4, 1, 0x4, 1, 0x4, [⟨0, 32, .rw, 0x358637be, .any⟩]⟩,
  -- A_RSVD
  ⟨0x801c8, 1, 0x4, 1, 0x4, []⟩]

/-- Register rows of the KS210 tables. -/
def cellRows : List RegRow := cellRows0 ++ cellRows1 ++ cellRows2 ++ cellRows3 ++ cellRows4 ++ cellRows5

/-- Register rows of the CTL tables, part 1. -/
def ctlRows0 : List RegRow := [
  -- CTL_STATUS
  ⟨0x40000000, 1, 0x4, 1, 0x4, [⟨0, 9, .ro, 0, .any⟩, ⟨9, 9, .ro, 0, .any⟩, ⟨18, 1, .ro, 0, .any⟩, ⟨19, 1, .w1c, 0, .any⟩, ⟨20, 4, .ro, 0, .any⟩, ⟨24, 8, .ro, 0, .any⟩]⟩,
  -- CTL_USED
  ⟨0x40000004, 1, 0x4, 1, 0x4, [⟨0, 18, .ro, 0, .any⟩]⟩,
  -- CTL_PEAK
  ⟨0x40000008, 1, 0x4, 1, 0x4, [⟨0, 18, .ro, 0, .any⟩]⟩,
  -- CTL_OVR_COUNT
  ⟨0x4000000c, 1, 0x4, 1, 0x4, [⟨0, 32, .ro, 0, .any⟩]⟩,
  -- CTL_OVR_LAST
  ⟨0x40000010, 1, 0x4, 1, 0x4, [⟨0, 8, .ro, 0, .any⟩, ⟨8, 9, .ro, 0, .any⟩, ⟨17, 1, .ro, 0, .any⟩]⟩,
  -- CTL_OVR_PERIOD
  ⟨0x40000014, 1, 0x4, 1, 0x4, [⟨0, 32, .ro, 0, .any⟩]⟩,
  -- CTL_NUM_COUNT
  ⟨0x40000018, 1, 0x4, 1, 0x4, [⟨0, 32, .ro, 0, .any⟩]⟩,
  -- CTL_CLEAR
  ⟨0x4000001c, 1, 0x4, 1, 0x4, [⟨0, 1, .wo, 0, .any⟩, ⟨1, 1, .wo, 0, .any⟩, ⟨2, 1, .wo, 0, .any⟩, ⟨3, 1, .wo, 0, .any⟩]⟩,
  -- SWAP_CMD
  ⟨0x40000020, 1, 0x4, 1, 0x4, [⟨0, 1, .wo, 0, .any⟩, ⟨1, 1, .wo, 0, .any⟩, ⟨2, 1, .wo, 0, .any⟩]⟩,
  -- SWAP_STATUS
  ⟨0x40000024, 1, 0x4, 1, 0x4, [⟨0, 1, .ro, 0, .any⟩, ⟨1, 1, .w1c, 0, .any⟩, ⟨2, 1, .w1c, 0, .any⟩, ⟨8, 8, .ro, 0, .any⟩]⟩,
  -- COEF_SEL
  ⟨0x40000028, 1, 0x4, 1, 0x4, [⟨0, 8, .rw, 0, .any⟩, ⟨8, 1, .rw, 0, .any⟩]⟩,
  -- CTL_INJECT
  ⟨0x4000002c, 1, 0x4, 1, 0x4, [⟨0, 8, .wo, 0, .any⟩, ⟨8, 1, .wo, 0, .any⟩]⟩,
  -- SWAP_SEL
  ⟨0x40000040, 8, 0x4, 1, 0x4, [⟨0, 32, .rw, 0, .any⟩]⟩,
  -- CTL_OVR_FLAG
  ⟨0x40000060, 8, 0x4, 1, 0x4, [⟨0, 32, .w1c, 0, .any⟩]⟩,
  -- NUM_FLAG
  ⟨0x40000080, 8, 0x4, 1, 0x4, [⟨0, 32, .w1c, 0, .any⟩]⟩,
  -- ACT_PAGE
  ⟨0x400000a0, 8, 0x4, 1, 0x4, [⟨0, 32, .ro, 0, .any⟩]⟩,
  -- DESC_DIM
  ⟨0x40010000, 256, 0x40, 1, 0x4, [⟨0, 5, .rwl, 1, .range 1 16⟩, ⟨5, 5, .rwl, 0, .range 0 16⟩, ⟨10, 4, .rwl, 1, .range 1 8⟩, ⟨14, 4, .rwl, 0, .range 0 8⟩]⟩,
  -- DESC_CTRL
  ⟨0x40010004, 256, 0x40, 1, 0x4, [⟨0, 1, .rwl, 0, .any⟩, ⟨1, 1, .rwl, 1, .any⟩, ⟨2, 3, .rwl, 7, .except 6⟩, ⟨5, 1, .rwl, 0, .any⟩, ⟨6, 1, .rwl, 0, .any⟩, ⟨7, 5, .rwl, 0, .any⟩, ⟨12, 3, .rwl, 0, .any⟩]⟩,
  -- DESC_COST
  ⟨0x40010008, 256, 0x40, 1, 0x4, [⟨0, 11, .ro, 3, .any⟩, ⟨16, 5, .ro, 4, .any⟩]⟩,
  -- DESC_ORDER
  ⟨0x4001000c, 256, 0x40, 1, 0x4, [⟨0, 8, .ro, 0, .any⟩, ⟨8, 9, .ro, 0, .any⟩]⟩,
  -- DESC_INSTAT
  ⟨0x40010010, 256, 0x40, 1, 0x4, [⟨0, 16, .ro, 0, .any⟩, ⟨16, 8, .ro, 0, .any⟩, ⟨24, 8, .ro, 0, .any⟩]⟩,
  -- DESC_COUNT
  ⟨0x40010014, 256, 0x40, 1, 0x4, [⟨0, 16, .ro, 0, .any⟩, ⟨16, 16, .ro, 0, .any⟩]⟩,
  -- BIND
  ⟨0x40020000, 256, 0x180, 32, 0xc, [⟨0, 4, .rwl, 0, .any⟩, ⟨4, 12, .rwl, 0, .any⟩]⟩,
  -- BIND_GAIN
  ⟨0x40020004, 256, 0x180, 32, 0xc, [⟨0, 32, .rwl, 0x3f800000, .f32 .finite⟩]⟩]

/-- Register rows of the CTL tables, part 2. -/
def ctlRows1 : List RegRow := [
  -- BIND_OFFSET
  ⟨0x40020008, 256, 0x180, 32, 0xc, [⟨0, 32, .rwl, 0, .f32 .finite⟩]⟩,
  -- SP_CFG
  ⟨0x400a0000, 256, 0x40, 1, 0x4, [⟨0, 3, .rwl, 0, .any⟩, ⟨3, 1, .rwl, 0, .any⟩, ⟨8, 6, .rwl, 0, .any⟩, ⟨16, 16, .rw, 0, .any⟩]⟩,
  -- SP_GAIN
  ⟨0x400a0004, 256, 0x40, 1, 0x4, [⟨0, 32, .rw, 0x3f800000, .f32 .finite⟩]⟩,
  -- SP_OFFSET
  ⟨0x400a0008, 256, 0x40, 1, 0x4, [⟨0, 32, .rw, 0, .f32 .finite⟩]⟩,
  -- SP_RATE
  ⟨0x400a000c, 256, 0x40, 1, 0x4, [⟨0, 32, .rw, 0x7f800000, .f32 .nonneg⟩]⟩,
  -- SP_MIN
  ⟨0x400a0010, 256, 0x40, 1, 0x4, [⟨0, 32, .rw, 0xff800000, .f32 .notNaN⟩]⟩,
  -- SP_MAX
  ⟨0x400a0014, 256, 0x40, 1, 0x4, [⟨0, 32, .rw, 0x7f800000, .f32 .notNaN⟩]⟩,
  -- SP_VALUE
  ⟨0x400a0018, 256, 0x40, 1, 0x4, [⟨0, 32, .rw, 0, .f32 .finite⟩]⟩,
  -- SP_OUT
  ⟨0x400a001c, 256, 0x40, 1, 0x4, [⟨0, 32, .ro, 0, .any⟩]⟩,
  -- SP_STATUS
  ⟨0x400a0020, 256, 0x40, 1, 0x4, [⟨0, 1, .ro, 0, .any⟩, ⟨1, 1, .ro, 0, .any⟩, ⟨2, 1, .w1c, 0, .any⟩, ⟨16, 16, .ro, 0, .any⟩]⟩,
  -- GRP_WIN
  ⟨0x400b0000, 32, 0x10, 1, 0x4, [⟨0, 3, .ro, 0, .any⟩, ⟨3, 1, .ro, 0, .any⟩, ⟨4, 8, .ro, 0, .any⟩, ⟨12, 4, .ro, 0, .any⟩, ⟨16, 1, .ro, 0, .any⟩, ⟨17, 1, .ro, 0, .any⟩]⟩,
  -- GRP_VALUE
  ⟨0x400b0004, 32, 0x10, 1, 0x4, [⟨0, 32, .ro, 0, .any⟩]⟩,
  -- GRP_CHANGES
  ⟨0x400b0008, 32, 0x10, 1, 0x4, [⟨0, 32, .ro, 0, .any⟩]⟩,
  -- GRP_CHG_PERIOD
  ⟨0x400b000c, 32, 0x10, 1, 0x4, [⟨0, 32, .ro, 0, .any⟩]⟩,
  -- FB_CFG
  ⟨0x400c0000, 256, 0x100, 16, 0x10, [⟨0, 1, .rw, 0, .any⟩, ⟨1, 1, .rw, 0, .any⟩, ⟨2, 1, .rw, 0, .any⟩, ⟨3, 1, .rw, 1, .any⟩, ⟨8, 8, .rw, 3, .range 1 255⟩, ⟨16, 8, .rw, 0x20, .range 2 255⟩, ⟨24, 8, .rw, 5, .range 1 255⟩]⟩,
  -- FB_GATE
  ⟨0x400c0004, 256, 0x100, 16, 0x10, [⟨0, 32, .rw, 0x7f800000, .f32 .pos⟩]⟩,
  -- FB_RECOV
  ⟨0x400c0008, 256, 0x100, 16, 0x10, [⟨0, 8, .rw, 0x10, .range 1 255⟩]⟩,
  -- FB_COUNT
  ⟨0x400c000c, 256, 0x100, 16, 0x10, [⟨0, 8, .ro, 0, .any⟩, ⟨8, 8, .ro, 0, .any⟩, ⟨16, 8, .ro, 0, .any⟩, ⟨24, 8, .ro, 0, .any⟩]⟩,
  -- COAST_CFG
  ⟨0x400d0000, 256, 0x20, 1, 0x4, [⟨0, 16, .rw, 0x1f4, .range 1 65535⟩]⟩,
  -- COAST_CMD
  ⟨0x400d0004, 256, 0x20, 1, 0x4, [⟨0, 16, .wo, 0, .any⟩, ⟨16, 16, .wo, 0, .any⟩]⟩,
  -- COAST_STATUS
  ⟨0x400d0008, 256, 0x20, 1, 0x4, [⟨0, 16, .ro, 0, .any⟩, ⟨16, 1, .ro, 0, .any⟩, ⟨17, 1, .w1c, 0, .any⟩]⟩,
  -- DROP_CAUSE
  ⟨0x400d000c, 256, 0x20, 1, 0x4, [⟨0, 32, .ro, 0, .any⟩]⟩,
  -- COAST_TIME
  ⟨0x400d0010, 256, 0x20, 1, 0x4, [⟨0, 32, .ro, 0, .any⟩]⟩,
  -- REP_CFG
  ⟨0x400e0000, 256, 0x80, 4, 0x20, [⟨0, 1, .rwl, 0, .any⟩, ⟨1, 3, .rwl, 0, .any⟩, ⟨4, 1, .rwl, 0, .any⟩, ⟨5, 4, .rwl, 0, .any⟩, ⟨9, 3, .rwl, 0, .any⟩, ⟨12, 1, .rw, 0, .any⟩, ⟨16, 13, .rwl, 0x1000, .range 16 4096⟩]⟩]

/-- Register rows of the CTL tables, part 3. -/
def ctlRows2 : List RegRow := [
  -- REP_PHASE
  ⟨0x400e0004, 256, 0x80, 4, 0x20, [⟨0, 2, .rwl, 0, .any⟩, ⟨2, 11, .rwl, 0, .any⟩, ⟨16, 12, .rw, 0, .any⟩]⟩,
  -- REP_GAIN
  ⟨0x400e0008, 256, 0x80, 4, 0x20, [⟨0, 32, .rw, 0, .f32 .finite⟩]⟩,
  -- REP_FORGET
  ⟨0x400e000c, 256, 0x80, 4, 0x20, [⟨0, 32, .rw, 0x3f800000, .f32 (.within 0 0x3F800000)⟩]⟩,
  -- REP_Q0
  ⟨0x400e0010, 256, 0x80, 4, 0x20, [⟨0, 32, .rw, 0, .f32 .finite⟩]⟩,
  -- REP_Q1
  ⟨0x400e0014, 256, 0x80, 4, 0x20, [⟨0, 32, .rw, 0x3f800000, .f32 .finite⟩]⟩,
  -- REP_Q2
  ⟨0x400e0018, 256, 0x80, 4, 0x20, [⟨0, 32, .rw, 0, .f32 .finite⟩]⟩,
  -- REP_TLIM
  ⟨0x400e001c, 256, 0x80, 4, 0x20, [⟨0, 32, .rw, 0x7f800000, .f32 .nonneg⟩]⟩,
  -- REP_BASE
  ⟨0x400e8000, 1, 0x4, 1, 0x4, [⟨0, 32, .rwl, 0x17000000, .step 0x1000000 0x11000000 0x17000000⟩]⟩,
  -- REP_STATUS
  ⟨0x400e8100, 256, 0x4, 1, 0x4, [⟨0, 4, .ro, 0, .any⟩, ⟨4, 4, .w1c, 0, .any⟩, ⟨8, 4, .w1c, 0, .any⟩, ⟨12, 4, .w1c, 0, .any⟩, ⟨16, 12, .ro, 0, .any⟩]⟩]

/-- Register rows of the CTL tables. -/
def ctlRows : List RegRow := ctlRows0 ++ ctlRows1 ++ ctlRows2

/-- Register rows of the LVL tables, part 1. -/
def lvlRows0 : List RegRow := [
  -- LVL_STATUS
  ⟨0x40100000, 1, 0x4, 1, 0x4, [⟨0, 6, .ro, 0, .any⟩, ⟨8, 6, .ro, 0, .any⟩, ⟨16, 1, .w1c, 0, .any⟩, ⟨17, 3, .ro, 0, .any⟩]⟩,
  -- SYNC_CFG
  ⟨0x40100008, 1, 0x4, 1, 0x4, [⟨0, 1, .rwl, 0, .any⟩, ⟨1, 1, .rwl, 0, .any⟩, ⟨2, 3, .rwl, 0, .range 0 5⟩, ⟨16, 16, .rwl, 0xa, .range 1 65535⟩]⟩,
  -- SYNC_STATUS
  ⟨0x4010000c, 1, 0x4, 1, 0x4, [⟨0, 1, .ro, 0, .any⟩, ⟨1, 1, .w1c, 0, .any⟩, ⟨8, 8, .ro, 0, .any⟩]⟩,
  -- STRAND_ARM
  ⟨0x40100010, 6, 0x4, 1, 0x4, [⟨0, 3, .rwl, 7, .except 6⟩, ⟨4, 3, .rwl, 7, .except 6⟩, ⟨8, 3, .rwl, 7, .except 6⟩, ⟨12, 3, .rwl, 7, .except 6⟩, ⟨16, 3, .rwl, 7, .except 6⟩, ⟨20, 3, .rwl, 7, .except 6⟩, ⟨24, 3, .rwl, 7, .except 6⟩, ⟨28, 3, .rwl, 7, .except 6⟩]⟩,
  -- CELL_SEL
  ⟨0x40100f00, 1, 0x4, 1, 0x4, [⟨0, 16, .rw, 0, .any⟩]⟩,
  -- CELL_LSTAT
  ⟨0x40100f04, 1, 0x4, 1, 0x4, [⟨0, 1, .ro, 0, .any⟩, ⟨1, 1, .ro, 0, .any⟩, ⟨2, 3, .ro, 0, .any⟩, ⟨5, 3, .ro, 7, .any⟩, ⟨8, 10, .ro, 0, .any⟩, ⟨18, 8, .ro, 0, .any⟩, ⟨26, 1, .ro, 0, .any⟩, ⟨27, 1, .ro, 0, .any⟩]⟩,
  -- CELL_VPRED
  ⟨0x40100f08, 1, 0x4, 1, 0x4, [⟨0, 32, .ro, 0, .any⟩]⟩,
  -- CELL_HP
  ⟨0x40100f0c, 1, 0x4, 1, 0x4, [⟨0, 16, .rw, 0, .any⟩]⟩,
  -- CELL_MISS
  ⟨0x40100f10, 1, 0x4, 1, 0x4, [⟨0, 16, .ro, 0, .any⟩]⟩,
  -- CELL_REC
  ⟨0x40100f14, 4, 0x4, 1, 0x4, [⟨0, 32, .ro, 0, .any⟩]⟩,
  -- CELL_FLT
  ⟨0x40100f24, 1, 0x4, 1, 0x4, [⟨0, 3, .ro, 0, .any⟩, ⟨3, 5, .ro, 0, .any⟩, ⟨8, 4, .ro, 0, .any⟩, ⟨12, 1, .ro, 0, .any⟩, ⟨13, 1, .ro, 0, .any⟩, ⟨16, 16, .ro, 0, .any⟩]⟩,
  -- CELL_HLT
  ⟨0x40100f28, 5, 0x4, 1, 0x4, [⟨0, 16, .ro, 0xffff, .any⟩, ⟨16, 16, .ro, 0xffff, .any⟩]⟩,
  -- ARM_CFG
  ⟨0x40101000, 6, 0x100, 1, 0x4, [⟨0, 1, .rwl, 0, .any⟩, ⟨1, 1, .rwl, 0, .any⟩, ⟨2, 1, .rwl, 0, .any⟩, ⟨3, 1, .rw, 0, .any⟩, ⟨4, 3, .rwl, 1, .range 1 4⟩, ⟨8, 8, .rw, 0, .any⟩, ⟨16, 11, .rw, 0, .range 0 1024⟩]⟩,
  -- ARM_REF
  ⟨0x40101004, 6, 0x100, 1, 0x4, [⟨0, 8, .rwl, 0, .any⟩, ⟨8, 3, .rwl, 0, .any⟩]⟩,
  -- ARM_ISRC
  ⟨0x40101008, 6, 0x100, 1, 0x4, [⟨0, 4, .rwl, 0, .any⟩, ⟨4, 12, .rwl, 0, .any⟩]⟩,
  -- ARM_IGAIN
  ⟨0x4010100c, 6, 0x100, 1, 0x4, [⟨0, 32, .rwl, 0x3f800000, .f32 .finite⟩]⟩,
  -- ARM_IOFFSET
  ⟨0x40101010, 6, 0x100, 1, 0x4, [⟨0, 32, .rwl, 0, .any⟩]⟩,
  -- ARM_IHYST
  ⟨0x40101014, 6, 0x100, 1, 0x4, [⟨0, 32, .rw, 0x41a00000, .f32 .nonneg⟩]⟩,
  -- ARM_CAP
  ⟨0x40101018, 6, 0x100, 1, 0x4, [⟨0, 32, .rw, 0x3c23d70a, .f32 .posFin⟩]⟩,
  -- ARM_BAL
  ⟨0x4010101c, 6, 0x100, 1, 0x4, [⟨0, 14, .rw, 0, .any⟩, ⟨16, 8, .rw, 0, .any⟩, ⟨24, 5, .rw, 0xa, .range 4 20⟩]⟩,
  -- ARM_MISS
  ⟨0x40101020, 6, 0x100, 1, 0x4, [⟨0, 8, .rw, 2, .range 1 255⟩, ⟨8, 8, .rw, 0x10, .range 1 255⟩, ⟨16, 16, .rw, 0, .any⟩]⟩,
  -- ARM_PSC
  ⟨0x40101024, 6, 0x100, 1, 0x4, [⟨0, 12, .rwl, 1, .range 1 4095⟩]⟩,
  -- ARM_PSCBAL
  ⟨0x40101028, 6, 0x100, 1, 0x4, [⟨0, 32, .rw, 0, .f32 .finite⟩]⟩,
  -- ARM_STATUS
  ⟨0x40101040, 6, 0x100, 1, 0x4, [⟨0, 1, .ro, 1, .any⟩, ⟨1, 2, .ro, 1, .any⟩, ⟨3, 1, .w1c, 0, .any⟩, ⟨4, 1, .ro, 0, .any⟩, ⟨16, 11, .ro, 0, .any⟩]⟩]

/-- Register rows of the LVL tables, part 2. -/
def lvlRows1 : List RegRow := [
  -- ARM_INS
  ⟨0x40101044, 6, 0x100, 1, 0x4, [⟨0, 11, .ro, 0, .any⟩, ⟨11, 1, .ro, 0, .any⟩, ⟨16, 12, .ro, 0, .any⟩]⟩,
  -- ARM_NSTAR
  ⟨0x40101048, 6, 0x100, 1, 0x4, [⟨0, 32, .ro, 0, .any⟩]⟩,
  -- ARM_COMM
  ⟨0x4010104c, 6, 0x100, 1, 0x4, [⟨0, 1, .ro, 0, .any⟩, ⟨1, 1, .ro, 0, .any⟩, ⟨16, 16, .ro, 0, .any⟩]⟩,
  -- ARM_CNT
  ⟨0x40101050, 6, 0x100, 1, 0x4, [⟨0, 11, .ro, 0, .any⟩, ⟨16, 11, .ro, 0, .any⟩]⟩,
  -- ARM_AGG
  ⟨0x40101080, 6, 0x100, 16, 0x4, [⟨0, 32, .ro, 0, .any⟩]⟩]

/-- Register rows of the LVL tables. -/
def lvlRows : List RegRow := lvlRows0 ++ lvlRows1

/-- Register rows of the STR tables, part 1. -/
def strRows0 : List RegRow := [
  -- PORT_CFG
  ⟨0x40201000, 48, 0x100, 1, 0x4, [⟨0, 1, .rwl, 1, .any⟩, ⟨4, 4, .rw, 3, .any⟩, ⟨8, 8, .rw, 4, .range 1 255⟩]⟩,
  -- PORT_STATUS
  ⟨0x40201004, 48, 0x100, 1, 0x4, [⟨0, 1, .ro, 0, .any⟩, ⟨1, 1, .ro, 0, .any⟩, ⟨2, 1, .ro, 0, .any⟩, ⟨3, 2, .ro, 0, .any⟩, ⟨5, 1, .ro, 0, .any⟩, ⟨6, 1, .ro, 0, .any⟩, ⟨7, 1, .ro, 0, .any⟩, ⟨8, 4, .ro, 0, .any⟩, ⟨12, 4, .ro, 0, .any⟩, ⟨16, 7, .ro, 0, .any⟩]⟩,
  -- PORT_LAUNCH
  ⟨0x40201008, 48, 0x100, 1, 0x4, [⟨0, 16, .ro, 0, .any⟩, ⟨16, 16, .ro, 0, .any⟩]⟩,
  -- PORT_FAR
  ⟨0x4020100c, 48, 0x100, 1, 0x4, [⟨0, 16, .ro, 0, .any⟩, ⟨16, 7, .ro, 0, .any⟩]⟩,
  -- ERR_A
  ⟨0x40201010, 48, 0x100, 1, 0x4, [⟨0, 16, .ro, 0, .any⟩, ⟨16, 16, .ro, 0, .any⟩]⟩,
  -- ERR_B
  ⟨0x40201014, 48, 0x100, 1, 0x4, [⟨0, 16, .ro, 0, .any⟩, ⟨16, 16, .ro, 0, .any⟩]⟩,
  -- ERR_C
  ⟨0x40201018, 48, 0x100, 1, 0x4, [⟨0, 16, .ro, 0, .any⟩, ⟨16, 8, .ro, 0, .any⟩, ⟨24, 8, .ro, 0, .any⟩]⟩,
  -- ERR_CLR
  ⟨0x4020101c, 48, 0x100, 1, 0x4, [⟨0, 1, .wo, 0, .any⟩]⟩,
  -- MB_REQ
  ⟨0x40201020, 48, 0x100, 1, 0x4, [⟨0, 4, .rw, 0, .any⟩, ⟨8, 7, .rw, 0, .range 0 95⟩, ⟨15, 1, .rw, 0, .any⟩, ⟨16, 1, .ro, 0, .any⟩]⟩,
  -- MB_PATH
  ⟨0x40201024, 48, 0x100, 1, 0x4, [⟨0, 32, .rw, 0, .any⟩]⟩,
  -- MB_ADDR
  ⟨0x40201028, 48, 0x100, 1, 0x4, [⟨0, 32, .rw, 0, .any⟩]⟩,
  -- MB_DATA
  ⟨0x4020102c, 48, 0x100, 1, 0x4, [⟨0, 32, .rw, 0, .any⟩]⟩,
  -- MB_CTRL
  ⟨0x40201030, 48, 0x100, 1, 0x4, [⟨0, 1, .wo, 0, .any⟩]⟩,
  -- MB_STATUS
  ⟨0x40201034, 48, 0x100, 1, 0x4, [⟨0, 1, .ro, 0, .any⟩, ⟨1, 1, .w1c, 0, .any⟩, ⟨2, 1, .w1c, 0, .any⟩, ⟨3, 1, .w1c, 0, .any⟩, ⟨4, 4, .ro, 0, .any⟩, ⟨8, 8, .ro, 0, .any⟩, ⟨16, 4, .ro, 0, .any⟩]⟩,
  -- MB_RDATA
  ⟨0x40201038, 48, 0x100, 1, 0x4, [⟨0, 32, .ro, 0, .any⟩]⟩,
  -- ENUM_CTRL
  ⟨0x40204000, 48, 0x40, 1, 0x4, [⟨0, 1, .rw, 1, .any⟩, ⟨1, 1, .wo, 0, .any⟩, ⟨2, 1, .wo, 0, .any⟩, ⟨3, 1, .wo, 0, .any⟩, ⟨4, 1, .wo, 0, .any⟩, ⟨8, 7, .rw, 0, .range 0 95⟩, ⟨16, 10, .rw, 0, .any⟩]⟩,
  -- ENUM_STATUS
  ⟨0x40204004, 48, 0x40, 1, 0x4, [⟨0, 1, .ro, 0, .any⟩, ⟨1, 1, .w1c, 0, .any⟩, ⟨2, 1, .ro, 0, .any⟩, ⟨3, 1, .w1c, 0, .any⟩, ⟨4, 1, .w1c, 0, .any⟩, ⟨5, 1, .w1c, 0, .any⟩, ⟨8, 7, .ro, 0, .any⟩, ⟨16, 7, .ro, 0, .any⟩, ⟨24, 7, .ro, 0, .any⟩]⟩,
  -- ENUM_VER
  ⟨0x40204008, 48, 0x40, 1, 0x4, [⟨0, 8, .ro, 0, .any⟩, ⟨8, 7, .ro, 0, .any⟩, ⟨15, 1, .ro, 0, .any⟩]⟩,
  -- EXP_W0
  ⟨0x40208000, 48, 0x1000, 96, 0x20, [⟨0, 32, .rwl, 0, .any⟩]⟩,
  -- EXP_W1
  ⟨0x40208004, 48, 0x1000, 96, 0x20, [⟨0, 32, .rwl, 0, .any⟩]⟩,
  -- EXP_W2
  ⟨0x40208008, 48, 0x1000, 96, 0x20, [⟨0, 1, .rwl, 0, .any⟩, ⟨1, 2, .rwl, 2, .range 0 2⟩]⟩,
  -- EXP_W3
  ⟨0x4020800c, 48, 0x1000, 96, 0x20, [⟨0, 3, .ro, 0, .any⟩, ⟨3, 1, .ro, 0, .any⟩, ⟨4, 1, .ro, 0, .any⟩, ⟨8, 8, .ro, 0, .any⟩, ⟨16, 8, .ro, 0, .any⟩]⟩,
  -- EXP_RPTLO
  ⟨0x40208010, 48, 0x1000, 96, 0x20, [⟨0, 32, .ro, 0, .any⟩]⟩,
  -- EXP_RPTHI
  ⟨0x40208014, 48, 0x1000, 96, 0x20, [⟨0, 32, .ro, 0, .any⟩]⟩]

/-- Register rows of the STR tables, part 2. -/
def strRows1 : List RegRow := [
  -- MEMB_W0
  ⟨0x40240000, 1024, 0x20, 1, 0x4, [⟨0, 32, .rwl, 0, .any⟩]⟩,
  -- MEMB_W1
  ⟨0x40240004, 1024, 0x20, 1, 0x4, [⟨0, 32, .rwl, 0, .any⟩]⟩,
  -- MEMB_W2
  ⟨0x40240008, 1024, 0x20, 1, 0x4, [⟨0, 1, .rwl, 0, .any⟩, ⟨1, 2, .rwl, 2, .range 0 2⟩]⟩,
  -- MEMB_W3
  ⟨0x4024000c, 1024, 0x20, 1, 0x4, [⟨0, 3, .ro, 0, .any⟩, ⟨3, 1, .ro, 0, .any⟩, ⟨4, 1, .ro, 0, .any⟩, ⟨8, 8, .ro, 0, .any⟩, ⟨16, 8, .ro, 0, .any⟩]⟩,
  -- MEMB_RPTLO
  ⟨0x40240010, 1024, 0x20, 1, 0x4, [⟨0, 32, .ro, 0, .any⟩]⟩,
  -- MEMB_RPTHI
  ⟨0x40240014, 1024, 0x20, 1, 0x4, [⟨0, 32, .ro, 0, .any⟩]⟩,
  -- MEMB_W6
  ⟨0x40240018, 1024, 0x20, 1, 0x4, [⟨0, 16, .rwl, 0, .any⟩]⟩,
  -- MEMB_W7
  ⟨0x4024001c, 1024, 0x20, 1, 0x4, [⟨0, 32, .rwl, 0, .any⟩]⟩]

/-- Register rows of the STR tables. -/
def strRows : List RegRow := strRows0 ++ strRows1

/-- Register rows of the TIE tables. -/
def tieRows : List RegRow := [
  -- TIE_CFG
  ⟨0x40300000, 1, 0x4, 1, 0x4, [⟨0, 16, .rwl, 0x3e8, .any⟩, ⟨16, 16, .rw, 0x64, .range 1 65535⟩]⟩,
  -- TIE_CMD
  ⟨0x40300004, 1, 0x4, 1, 0x4, [⟨0, 1, .wo, 0, .any⟩, ⟨1, 1, .wo, 0, .any⟩, ⟨2, 1, .wo, 0, .any⟩, ⟨16, 16, .wo, 0, .any⟩]⟩,
  -- TIE_STATUS
  ⟨0x40300008, 1, 0x4, 1, 0x4, [⟨0, 1, .ro, 0, .any⟩, ⟨1, 2, .ro, 0, .any⟩, ⟨3, 1, .ro, 0, .any⟩, ⟨4, 3, .ro, 0, .any⟩, ⟨7, 1, .ro, 0, .any⟩, ⟨8, 1, .ro, 0, .any⟩, ⟨9, 1, .w1c, 0, .any⟩, ⟨10, 1, .ro, 0, .any⟩, ⟨11, 1, .ro, 0, .any⟩, ⟨12, 1, .ro, 0, .any⟩, ⟨13, 1, .w1c, 0, .any⟩, ⟨14, 1, .w1c, 0, .any⟩, ⟨16, 8, .ro, 0, .any⟩]⟩,
  -- TIE_TAKE
  ⟨0x4030000c, 1, 0x4, 1, 0x4, [⟨0, 2, .ro, 0, .any⟩, ⟨8, 8, .ro, 0, .any⟩]⟩,
  -- TIE_TAKE_PER
  ⟨0x40300010, 1, 0x4, 1, 0x4, [⟨0, 32, .ro, 0, .any⟩]⟩,
  -- TIE_CMP
  ⟨0x40300014, 1, 0x4, 1, 0x4, [⟨0, 16, .ro, 0, .any⟩, ⟨16, 16, .ro, 0, .any⟩]⟩,
  -- TIE_SWEEP
  ⟨0x40300018, 1, 0x4, 1, 0x4, [⟨0, 16, .ro, 0, .any⟩, ⟨16, 16, .ro, 0, .any⟩]⟩,
  -- TIE_BRIDGE
  ⟨0x4030001c, 1, 0x4, 1, 0x4, [⟨0, 32, .ro, 0, .any⟩]⟩,
  -- TIE_BROKEN_LO
  ⟨0x40300020, 1, 0x4, 1, 0x4, [⟨0, 32, .ro, 0, .any⟩]⟩,
  -- TIE_BROKEN_HI
  ⟨0x40300024, 1, 0x4, 1, 0x4, [⟨0, 16, .ro, 0, .any⟩, ⟨16, 16, .ro, 0, .any⟩]⟩,
  -- TIE_LANE
  ⟨0x40300028, 2, 0x4, 1, 0x4, [⟨0, 16, .ro, 0, .any⟩, ⟨16, 8, .ro, 0, .any⟩, ⟨24, 8, .ro, 0, .any⟩]⟩,
  -- TIE_DELAY
  ⟨0x40300030, 1, 0x4, 1, 0x4, [⟨0, 16, .ro, 0, .any⟩, ⟨16, 16, .ro, 0, .any⟩]⟩,
  -- TIE_CLR
  ⟨0x40300034, 1, 0x4, 1, 0x4, [⟨0, 1, .wo, 0, .any⟩]⟩,
  -- PART_HEALTH
  ⟨0x40300100, 16, 0x4, 1, 0x4, [⟨0, 32, .ro, 0, .any⟩]⟩]

/-- Register rows of the ACD tables. -/
def acdRows : List RegRow := [
  -- ACD_CFG
  ⟨0x40400000, 1, 0x4, 1, 0x4, [⟨0, 1, .rwl, 0, .any⟩, ⟨1, 11, .rwl, 0, .range 0 1024⟩, ⟨16, 8, .rw, 8, .range 1 255⟩, ⟨24, 8, .rw, 2, .range 1 255⟩]⟩,
  -- ACD_EPOCH
  ⟨0x40400004, 1, 0x4, 1, 0x4, [⟨0, 16, .rw, 0, .any⟩, ⟨16, 8, .rw, 3, .range 3 255⟩]⟩,
  -- ACD_STATUS
  ⟨0x40400008, 1, 0x4, 1, 0x4, [⟨0, 1, .ro, 0, .any⟩, ⟨1, 1, .ro, 0, .any⟩, ⟨2, 1, .ro, 0, .any⟩, ⟨3, 1, .ro, 0, .any⟩, ⟨4, 1, .w1c, 0, .any⟩, ⟨5, 3, .ro, 0, .any⟩, ⟨8, 8, .ro, 0, .any⟩, ⟨16, 10, .ro, 0, .any⟩]⟩,
  -- ACD_MODE
  ⟨0x4040000c, 1, 0x4, 1, 0x4, [⟨0, 8, .ro, 0, .any⟩, ⟨8, 8, .ro, 0, .any⟩, ⟨16, 2, .ro, 0, .any⟩, ⟨24, 8, .ro, 0, .any⟩]⟩,
  -- ACD_MODE_P
  ⟨0x40400010, 1, 0x4, 1, 0x4, [⟨0, 32, .ro, 0, .any⟩]⟩,
  -- ACD_ROOT
  ⟨0x40400014, 1, 0x4, 1, 0x4, [⟨0, 10, .rw, 0, .any⟩]⟩,
  -- ACD_VIEW
  ⟨0x40400018, 1, 0x4, 1, 0x4, [⟨0, 3, .rw, 0, .any⟩, ⟨3, 4, .rw, 0, .range 0 4⟩, ⟨7, 12, .rw, 0, .any⟩, ⟨31, 1, .rw, 1, .any⟩]⟩,
  -- ACD_PORTST
  ⟨0x40400020, 4, 0x8, 1, 0x4, [⟨0, 1, .ro, 0, .any⟩, ⟨1, 1, .ro, 0, .any⟩, ⟨2, 1, .ro, 0, .any⟩, ⟨8, 8, .ro, 0, .any⟩, ⟨16, 16, .ro, 0, .any⟩]⟩,
  -- ACD_PORTERR
  ⟨0x40400024, 4, 0x8, 1, 0x4, [⟨0, 16, .ro, 0, .any⟩, ⟨16, 8, .ro, 0, .any⟩, ⟨24, 8, .ro, 0, .any⟩]⟩,
  -- ACD_SLOT
  ⟨0x40400400, 256, 0x4, 1, 0x4, [⟨0, 10, .rwl, 0, .any⟩, ⟨10, 1, .rwl, 0, .any⟩, ⟨11, 3, .rwl, 0, .any⟩, ⟨14, 5, .rwl, 0, .any⟩, ⟨19, 1, .rwl, 0, .any⟩, ⟨20, 1, .ro, 0, .any⟩]⟩,
  -- LVLE_W0
  ⟨0x40404000, 1024, 0x100, 1, 0x4, [⟨0, 16, .rwl, 0, .any⟩, ⟨16, 3, .rwl, 0, .any⟩, ⟨19, 1, .rwl, 0, .any⟩, ⟨20, 3, .rwl, 0, .any⟩, ⟨23, 3, .rwl, 0, .any⟩]⟩,
  -- LVLE_W1
  ⟨0x40404004, 1024, 0x100, 1, 0x4, [⟨0, 3, .ro, 0, .any⟩, ⟨3, 1, .ro, 0, .any⟩, ⟨4, 8, .ro, 0, .any⟩, ⟨12, 8, .ro, 0, .any⟩]⟩,
  -- LVLE_W2
  ⟨0x40404008, 1024, 0x100, 1, 0x4, [⟨0, 4, .ro, 0, .any⟩, ⟨16, 16, .ro, 0, .any⟩]⟩,
  -- LVLE_ROUTE
  ⟨0x40404010, 1024, 0x100, 16, 0x4, [⟨0, 4, .rwl, 0, .range 0 8⟩, ⟨4, 16, .rwl, 0, .any⟩]⟩,
  -- LVLE_PUB
  ⟨0x40404080, 1024, 0x100, 32, 0x4, [⟨0, 4, .rwl, 0, .any⟩, ⟨4, 12, .rwl, 0, .any⟩, ⟨16, 1, .rwl, 0, .any⟩]⟩]

/-- Register rows of the TIM tables, part 1. -/
def timRows0 : List RegRow := [
  -- TIM_NOW_NS
  ⟨0x40500000, 1, 0x4, 1, 0x4, [⟨0, 32, .ro, 0, .any⟩]⟩,
  -- TIM_NOW_SECLO
  ⟨0x40500004, 1, 0x4, 1, 0x4, [⟨0, 32, .ro, 0, .any⟩]⟩,
  -- TIM_NOW_SECHI
  ⟨0x40500008, 1, 0x4, 1, 0x4, [⟨0, 16, .ro, 0, .any⟩]⟩,
  -- TIM_CFG
  ⟨0x4050000c, 1, 0x4, 1, 0x4, [⟨0, 2, .rwl, 0, .any⟩, ⟨2, 1, .rwl, 0, .any⟩, ⟨8, 6, .rw, 0x14, .range 1 50⟩, ⟨16, 16, .rw, 0x3e8, .range 1 65535⟩]⟩,
  -- TIM_SET_NS
  ⟨0x40500010, 1, 0x4, 1, 0x4, [⟨0, 32, .rw, 0, .any⟩]⟩,
  -- TIM_SET_SECLO
  ⟨0x40500014, 1, 0x4, 1, 0x4, [⟨0, 32, .rw, 0, .any⟩]⟩,
  -- TIM_SET_SECHI
  ⟨0x40500018, 1, 0x4, 1, 0x4, [⟨0, 16, .rw, 0, .any⟩, ⟨31, 1, .wo, 0, .any⟩]⟩,
  -- TIM_STATUS
  ⟨0x4050001c, 1, 0x4, 1, 0x4, [⟨0, 1, .ro, 0, .any⟩, ⟨1, 1, .ro, 0, .any⟩, ⟨2, 1, .ro, 0, .any⟩, ⟨3, 1, .ro, 0, .any⟩, ⟨4, 1, .ro, 0, .any⟩, ⟨5, 1, .w1c, 0, .any⟩, ⟨6, 1, .w1c, 0, .any⟩, ⟨7, 1, .w1c, 0, .any⟩]⟩,
  -- TIM_OFFSET
  ⟨0x40500020, 1, 0x4, 1, 0x4, [⟨0, 32, .ro, 0, .any⟩]⟩,
  -- TIM_RATE
  ⟨0x40500024, 1, 0x4, 1, 0x4, [⟨0, 32, .ro, 0, .any⟩]⟩,
  -- TIM_HOLD
  ⟨0x40500028, 1, 0x4, 1, 0x4, [⟨0, 16, .ro, 0, .any⟩, ⟨16, 16, .rw, 0x3c, .any⟩]⟩,
  -- PER_T0_NS
  ⟨0x40500030, 1, 0x4, 1, 0x4, [⟨0, 32, .ro, 0, .any⟩]⟩,
  -- PER_T0_SECLO
  ⟨0x40500034, 1, 0x4, 1, 0x4, [⟨0, 32, .ro, 0, .any⟩]⟩,
  -- PER_T0_SECHI
  ⟨0x40500038, 1, 0x4, 1, 0x4, [⟨0, 16, .ro, 0, .any⟩]⟩,
  -- PTP_CFG
  ⟨0x40500100, 2, 0x80, 1, 0x4, [⟨0, 1, .rwl, 0, .any⟩, ⟨1, 1, .rwl, 0, .any⟩, ⟨2, 1, .rwl, 0, .any⟩, ⟨3, 1, .rw, 0, .any⟩, ⟨8, 8, .rwl, 0, .any⟩, ⟨16, 8, .rwl, 0x80, .any⟩, ⟨24, 8, .rwl, 0x80, .any⟩]⟩,
  -- PTP_STATE
  ⟨0x40500104, 2, 0x80, 1, 0x4, [⟨0, 8, .rw, 0xf8, .any⟩, ⟨8, 8, .rw, 0xf8, .any⟩, ⟨16, 4, .ro, 1, .any⟩]⟩,
  -- PTP_LAT
  ⟨0x40500108, 2, 0x80, 1, 0x4, [⟨0, 16, .rw, 0, .any⟩, ⟨16, 16, .rw, 0, .any⟩]⟩,
  -- PTP_DLY
  ⟨0x4050010c, 2, 0x80, 1, 0x4, [⟨0, 32, .ro, 0, .any⟩]⟩,
  -- PTP_TXTS_NS
  ⟨0x40500110, 2, 0x80, 1, 0x4, [⟨0, 32, .ro, 0, .any⟩]⟩,
  -- PTP_TXTS_SECLO
  ⟨0x40500114, 2, 0x80, 1, 0x4, [⟨0, 32, .ro, 0, .any⟩]⟩,
  -- PTP_TXTS_SECHI
  ⟨0x40500118, 2, 0x80, 1, 0x4, [⟨0, 16, .ro, 0, .any⟩]⟩,
  -- PTP_TXTS_ID
  ⟨0x4050011c, 2, 0x80, 1, 0x4, [⟨0, 16, .ro, 0, .any⟩, ⟨16, 4, .ro, 0, .any⟩, ⟨20, 1, .ro, 0, .any⟩, ⟨21, 1, .w1c, 0, .any⟩]⟩,
  -- PTP_TXTS_NEXT
  ⟨0x40500120, 2, 0x80, 1, 0x4, [⟨0, 1, .wo, 0, .any⟩]⟩,
  -- LQ_ADDR
  ⟨0x40500140, 2, 0x80, 1, 0x4, [⟨0, 32, .rw, 0, .any⟩]⟩]

/-- Register rows of the TIM tables, part 2. -/
def timRows1 : List RegRow := [
  -- LQ_LEN
  ⟨0x40500144, 2, 0x80, 1, 0x4, [⟨0, 14, .rw, 0, .range 60 9600⟩]⟩,
  -- LQ_NS
  ⟨0x40500148, 2, 0x80, 1, 0x4, [⟨0, 32, .rw, 0, .any⟩]⟩,
  -- LQ_SECLO
  ⟨0x4050014c, 2, 0x80, 1, 0x4, [⟨0, 32, .rw, 0, .any⟩]⟩,
  -- LQ_SECHI
  ⟨0x40500150, 2, 0x80, 1, 0x4, [⟨0, 16, .rw, 0, .any⟩, ⟨31, 1, .wo, 0, .any⟩]⟩,
  -- LQ_STATUS
  ⟨0x40500154, 2, 0x80, 1, 0x4, [⟨0, 5, .ro, 0, .any⟩, ⟨5, 1, .w1c, 0, .any⟩, ⟨16, 16, .ro, 0, .any⟩]⟩,
  -- STR_DLY
  ⟨0x40501000, 48, 0x4, 1, 0x4, [⟨0, 24, .ro, 0, .any⟩]⟩]

/-- Register rows of the TIM tables. -/
def timRows : List RegRow := timRows0 ++ timRows1

/-- Register rows of the ADC tables. -/
def adcRows : List RegRow := [
  -- SDCLK_CFG
  ⟨0x40600000, 1, 0x4, 1, 0x4, [⟨0, 5, .rwl, 0, .zeroOr 4 20⟩, ⟨8, 5, .rwl, 0, .zeroOr 4 20⟩, ⟨16, 5, .rwl, 0, .zeroOr 4 20⟩, ⟨24, 5, .rwl, 0, .zeroOr 4 20⟩]⟩,
  -- SAR_CFG
  ⟨0x40600100, 8, 0x10, 1, 0x4, [⟨0, 1, .rwl, 0, .any⟩, ⟨1, 1, .rwl, 0, .any⟩, ⟨2, 3, .rwl, 0, .range 0 4⟩]⟩,
  -- SAR_CAL
  ⟨0x40600104, 8, 0x10, 1, 0x4, [⟨0, 16, .rwl, 0, .any⟩, ⟨16, 16, .rwl, 0x8000, .range 16384 65535⟩]⟩,
  -- SAR_RES
  ⟨0x40600108, 8, 0x10, 1, 0x4, [⟨0, 16, .ro, 0, .any⟩]⟩,
  -- SAR_STATUS
  ⟨0x4060010c, 8, 0x10, 1, 0x4, [⟨0, 1, .w1c, 0, .any⟩, ⟨1, 1, .w1c, 0, .any⟩, ⟨2, 1, .ro, 0, .any⟩]⟩,
  -- SD_CFG
  ⟨0x40600400, 24, 0x10, 1, 0x4, [⟨0, 1, .rwl, 0, .any⟩, ⟨1, 1, .rwl, 0, .any⟩, ⟨2, 3, .rwl, 0, .range 0 4⟩, ⟨5, 3, .rwl, 0, .range 0 4⟩, ⟨8, 1, .rwl, 0, .any⟩]⟩,
  -- SD_RES
  ⟨0x40600404, 24, 0x10, 1, 0x4, [⟨0, 32, .ro, 0, .any⟩]⟩,
  -- SD_STATUS
  ⟨0x40600408, 24, 0x10, 1, 0x4, [⟨0, 1, .w1c, 0, .any⟩, ⟨1, 1, .w1c, 0, .any⟩, ⟨2, 1, .w1c, 0, .any⟩, ⟨3, 1, .ro, 0, .any⟩]⟩,
  -- PI_CFG
  ⟨0x40600800, 4, 0x20, 1, 0x4, [⟨0, 2, .rwl, 0, .any⟩, ⟨2, 1, .rwl, 0, .any⟩, ⟨4, 6, .rwl, 1, .any⟩, ⟨16, 8, .rw, 0x32, .range 1 255⟩]⟩,
  -- PI_MOD
  ⟨0x40600804, 4, 0x20, 1, 0x4, [⟨0, 25, .rwl, 0, .zeroOr 2 16777216⟩]⟩,
  -- PI_OUT
  ⟨0x40600808, 4, 0x20, 1, 0x4, [⟨0, 32, .ro, 0, .any⟩]⟩,
  -- PI_CNT
  ⟨0x4060080c, 4, 0x20, 1, 0x4, [⟨0, 32, .rw, 0, .any⟩]⟩,
  -- PI_STATUS
  ⟨0x40600810, 4, 0x20, 1, 0x4, [⟨0, 1, .ro, 0, .any⟩, ⟨1, 1, .ro, 0, .any⟩, ⟨2, 1, .w1c, 0, .any⟩, ⟨16, 16, .ro, 0, .any⟩]⟩]

/-- Register rows of the ACQ tables, part 1. -/
def acqRows0 : List RegRow := [
  -- ACQ_CTRL
  ⟨0x40700000, 1, 0x4, 1, 0x4, [⟨0, 1, .wo, 0, .any⟩, ⟨1, 1, .wo, 0, .any⟩, ⟨2, 1, .wo, 0, .any⟩]⟩,
  -- ACQ_STATUS
  ⟨0x40700004, 1, 0x4, 1, 0x4, [⟨0, 3, .ro, 0, .any⟩, ⟨3, 1, .ro, 0, .any⟩, ⟨4, 3, .ro, 0, .any⟩, ⟨8, 4, .ro, 0, .any⟩, ⟨12, 1, .w1c, 0, .any⟩, ⟨13, 1, .w1c, 0, .any⟩, ⟨16, 8, .ro, 0, .any⟩]⟩,
  -- ACQ_CFG
  ⟨0x40700008, 1, 0x4, 1, 0x4, [⟨0, 6, .rw, 0, .range 0 32⟩, ⟨6, 1, .rw, 0, .any⟩, ⟨8, 4, .rw, 1, .range 1 8⟩, ⟨16, 6, .rw, 0, .any⟩]⟩,
  -- ACQ_PRE
  ⟨0x4070000c, 1, 0x4, 1, 0x4, [⟨0, 24, .rw, 0x3e8, .any⟩]⟩,
  -- ACQ_POST
  ⟨0x40700010, 1, 0x4, 1, 0x4, [⟨0, 24, .rw, 0x3e8, .any⟩]⟩,
  -- ACQ_RING
  ⟨0x40700014, 1, 0x4, 1, 0x4, [⟨0, 7, .rw, 0x40, .any⟩, ⟨8, 8, .rw, 0x20, .range 1 128⟩]⟩,
  -- ACQ_DDR
  ⟨0x40700018, 1, 0x4, 1, 0x4, [⟨0, 15, .rw, 0, .any⟩]⟩,
  -- ACQ_SLOT
  ⟨0x4070001c, 1, 0x4, 1, 0x4, [⟨0, 12, .rw, 0x80, .range 1 4095⟩, ⟨16, 8, .rw, 1, .range 1 255⟩]⟩,
  -- ACQ_LAYOUT
  ⟨0x40700020, 1, 0x4, 1, 0x4, [⟨0, 16, .ro, 0, .any⟩, ⟨16, 13, .ro, 0, .any⟩]⟩,
  -- ACQ_RINGROWS
  ⟨0x40700024, 1, 0x4, 1, 0x4, [⟨0, 32, .ro, 0, .any⟩]⟩,
  -- ACQ_CNT_A
  ⟨0x40700028, 1, 0x4, 1, 0x4, [⟨0, 16, .ro, 0, .any⟩, ⟨16, 16, .ro, 0, .any⟩]⟩,
  -- ACQ_CNT_B
  ⟨0x4070002c, 1, 0x4, 1, 0x4, [⟨0, 16, .ro, 0, .any⟩, ⟨16, 16, .ro, 0, .any⟩]⟩,
  -- ACQ_DEAD_LAST
  ⟨0x40700030, 1, 0x4, 1, 0x4, [⟨0, 32, .ro, 0, .any⟩]⟩,
  -- ACQ_DEAD_MAX
  ⟨0x40700034, 1, 0x4, 1, 0x4, [⟨0, 32, .ro, 0, .any⟩]⟩,
  -- ACQ_REC_SEQ
  ⟨0x40700038, 1, 0x4, 1, 0x4, [⟨0, 32, .ro, 0, .any⟩]⟩,
  -- ACQ_TRIG_LO
  ⟨0x4070003c, 1, 0x4, 1, 0x4, [⟨0, 32, .ro, 0, .any⟩]⟩,
  -- ACQ_TRIG_HI
  ⟨0x40700040, 1, 0x4, 1, 0x4, [⟨0, 32, .ro, 0, .any⟩]⟩,
  -- ACQ_CLR
  ⟨0x40700044, 1, 0x4, 1, 0x4, [⟨0, 1, .wo, 0, .any⟩]⟩,
  -- ACQ_MARK_P
  ⟨0x40700048, 1, 0x4, 1, 0x4, [⟨0, 32, .ro, 0, .any⟩]⟩,
  -- ACQ_MARK_INFO
  ⟨0x4070004c, 1, 0x4, 1, 0x4, [⟨0, 8, .ro, 0, .any⟩, ⟨8, 3, .ro, 0, .any⟩, ⟨11, 1, .ro, 0, .any⟩, ⟨16, 5, .ro, 0, .any⟩, ⟨24, 8, .ro, 0, .any⟩]⟩,
  -- ACQ_MARK_NEXT
  ⟨0x40700050, 1, 0x4, 1, 0x4, [⟨0, 1, .wo, 0, .any⟩]⟩,
  -- ACQ_VAL
  ⟨0x40700100, 32, 0x4, 1, 0x4, [⟨0, 4, .rw, 0, .range 1 8⟩, ⟨4, 12, .rw, 0, .any⟩]⟩,
  -- SQ_CFG
  ⟨0x40700200, 8, 0x10, 1, 0x4, [⟨0, 3, .rw, 0, .any⟩, ⟨3, 2, .rw, 0, .any⟩, ⟨5, 1, .rw, 0, .any⟩, ⟨6, 1, .rw, 1, .any⟩, ⟨8, 3, .rw, 0, .any⟩, ⟨12, 3, .rw, 0, .any⟩, ⟨16, 8, .rw, 1, .range 1 255⟩]⟩,
  -- SQ_SRC
  ⟨0x40700204, 8, 0x10, 1, 0x4, [⟨0, 16, .rw, 0, .any⟩]⟩]

/-- Register rows of the ACQ tables, part 2. -/
def acqRows1 : List RegRow := [
  -- SQ_THR
  ⟨0x40700208, 8, 0x10, 1, 0x4, [⟨0, 32, .rw, 0, .f32 .notNaN⟩]⟩,
  -- SQ_TIM
  ⟨0x4070020c, 8, 0x10, 1, 0x4, [⟨0, 24, .rw, 0, .any⟩]⟩]

/-- Register rows of the ACQ tables. -/
def acqRows : List RegRow := acqRows0 ++ acqRows1

/-- Register rows of the FLT tables, part 1. -/
def fltRows0 : List RegRow := [
  -- FLT_STAT
  ⟨0x40800000, 4, 0x4, 1, 0x4, [⟨0, 32, .w1c, 0, .any⟩]⟩,
  -- FLT_LIVE
  ⟨0x40800010, 4, 0x4, 1, 0x4, [⟨0, 32, .ro, 0, .any⟩]⟩,
  -- FLT_ESC
  ⟨0x40800020, 4, 0x4, 1, 0x4, [⟨0, 32, .ro, 0, .any⟩]⟩,
  -- FLT_SUMMARY
  ⟨0x40800030, 1, 0x4, 1, 0x4, [⟨0, 3, .ro, 0, .any⟩, ⟨3, 1, .w1c, 0, .any⟩, ⟨4, 1, .ro, 0, .any⟩, ⟨8, 8, .ro, 0, .any⟩, ⟨16, 7, .ro, 0, .any⟩, ⟨23, 1, .ro, 0, .any⟩]⟩,
  -- FLT_CTRL
  ⟨0x40800034, 1, 0x4, 1, 0x4, [⟨0, 7, .wo, 0, .any⟩, ⟨7, 1, .wo, 0, .any⟩, ⟨8, 1, .wo, 0, .any⟩, ⟨9, 1, .wo, 0, .any⟩, ⟨10, 1, .wo, 0, .any⟩, ⟨16, 16, .wo, 0, .any⟩]⟩,
  -- FLT_FIRST_INFO
  ⟨0x40800040, 1, 0x4, 1, 0x4, [⟨0, 7, .ro, 0, .any⟩, ⟨7, 1, .ro, 0, .any⟩, ⟨8, 3, .ro, 0, .any⟩, ⟨11, 5, .ro, 0, .any⟩, ⟨16, 3, .ro, 0, .any⟩, ⟨19, 1, .ro, 0, .any⟩, ⟨20, 1, .ro, 0, .any⟩, ⟨24, 8, .ro, 0, .any⟩]⟩,
  -- FLT_FIRST_ADDR_LO
  ⟨0x40800044, 1, 0x4, 1, 0x4, [⟨0, 32, .ro, 0, .any⟩]⟩,
  -- FLT_FIRST_ADDR_HI
  ⟨0x40800048, 1, 0x4, 1, 0x4, [⟨0, 4, .ro, 0, .any⟩]⟩,
  -- FLT_FIRST_NS
  ⟨0x4080004c, 1, 0x4, 1, 0x4, [⟨0, 32, .ro, 0, .any⟩]⟩,
  -- FLT_FIRST_SECLO
  ⟨0x40800050, 1, 0x4, 1, 0x4, [⟨0, 32, .ro, 0, .any⟩]⟩,
  -- FLT_FIRST_SECHI
  ⟨0x40800054, 1, 0x4, 1, 0x4, [⟨0, 16, .ro, 0, .any⟩]⟩,
  -- FLT_CELLCNT0
  ⟨0x40800060, 1, 0x4, 1, 0x4, [⟨0, 13, .ro, 0, .any⟩, ⟨16, 13, .ro, 0, .any⟩]⟩,
  -- FLT_CELLCNT1
  ⟨0x40800064, 1, 0x4, 1, 0x4, [⟨0, 13, .ro, 0, .any⟩, ⟨16, 13, .ro, 0, .any⟩]⟩,
  -- FLT_CELLCNT2
  ⟨0x40800068, 1, 0x4, 1, 0x4, [⟨0, 13, .ro, 0, .any⟩]⟩,
  -- CELL_CLASS_DEF
  ⟨0x40800080, 1, 0x4, 1, 0x4, [⟨0, 3, .rwl, 4, .range 0 5⟩, ⟨4, 3, .rwl, 4, .range 0 5⟩, ⟨8, 3, .rwl, 4, .range 0 5⟩, ⟨12, 3, .rwl, 4, .range 0 5⟩, ⟨16, 3, .rwl, 3, .range 0 5⟩, ⟨20, 3, .rwl, 4, .range 0 5⟩, ⟨24, 3, .rwl, 3, .range 0 5⟩, ⟨28, 3, .rwl, 1, .range 0 5⟩, ⟨3, 1, .rwl, 0, .any⟩, ⟨7, 1, .rwl, 0, .any⟩, ⟨11, 1, .rwl, 0, .any⟩, ⟨15, 1, .rwl, 0, .any⟩, ⟨19, 1, .rwl, 0, .any⟩, ⟨23, 1, .rwl, 0, .any⟩, ⟨27, 1, .rwl, 0, .any⟩, ⟨31, 1, .rwl, 0, .any⟩]⟩,
  -- CELL_CLASS_DEF
  ⟨0x40800084, 1, 0x4, 1, 0x4, [⟨0, 3, .rwl, 1, .range 0 5⟩, ⟨4, 3, .rwl, 2, .range 0 5⟩, ⟨8, 3, .rwl, 1, .range 0 5⟩, ⟨12, 3, .rwl, 1, .range 0 5⟩, ⟨16, 3, .rwl, 1, .range 0 5⟩, ⟨20, 3, .rwl, 1, .range 0 5⟩, ⟨24, 3, .rwl, 1, .range 0 5⟩, ⟨28, 3, .rwl, 1, .range 0 5⟩, ⟨3, 1, .rwl, 0, .any⟩, ⟨7, 1, .rwl, 0, .any⟩, ⟨11, 1, .rwl, 0, .any⟩, ⟨15, 1, .rwl, 0, .any⟩, ⟨19, 1, .rwl, 0, .any⟩, ⟨23, 1, .rwl, 0, .any⟩, ⟨27, 1, .rwl, 0, .any⟩, ⟨31, 1, .rwl, 0, .any⟩]⟩,
  -- CELL_CLASS_DEF
  ⟨0x40800088, 1, 0x4, 1, 0x4, [⟨0, 3, .rwl, 5, .range 0 5⟩, ⟨4, 3, .rwl, 5, .range 0 5⟩, ⟨8, 3, .rwl, 3, .range 0 5⟩, ⟨12, 3, .rwl, 2, .range 0 5⟩, ⟨16, 3, .rwl, 1, .range 0 5⟩, ⟨20, 3, .rwl, 3, .range 0 5⟩, ⟨24, 3, .rwl, 3, .range 0 5⟩, ⟨28, 3, .rwl, 5, .range 0 5⟩, ⟨3, 1, .rwl, 0, .any⟩, ⟨7, 1, .rwl, 0, .any⟩, ⟨11, 1, .rwl, 0, .any⟩, ⟨15, 1, .rwl, 0, .any⟩, ⟨19, 1, .rwl, 0, .any⟩, ⟨23, 1, .rwl, 0, .any⟩, ⟨27, 1, .rwl, 0, .any⟩, ⟨31, 1, .rwl, 0, .any⟩]⟩,
  -- CELL_CLASS_DEF
  ⟨0x4080008c, 1, 0x4, 1, 0x4, [⟨0, 3, .rwl, 3, .range 0 5⟩, ⟨4, 3, .rwl, 1, .range 0 5⟩, ⟨8, 3, .rwl, 1, .range 0 5⟩, ⟨12, 3, .rwl, 1, .range 0 5⟩, ⟨16, 3, .rwl, 2, .range 0 5⟩, ⟨20, 3, .rwl, 1, .range 0 5⟩, ⟨24, 3, .rwl, 5, .range 0 5⟩, ⟨28, 3, .rwl, 1, .range 0 5⟩, ⟨3, 1, .rwl, 0, .any⟩, ⟨7, 1, .rwl, 0, .any⟩, ⟨11, 1, .rwl, 0, .any⟩, ⟨15, 1, .rwl, 0, .any⟩, ⟨19, 1, .rwl, 0, .any⟩, ⟨23, 1, .rwl, 0, .any⟩, ⟨27, 1, .rwl, 0, .any⟩, ⟨31, 1, .rwl, 0, .any⟩]⟩,
  -- FLT_EXT
  ⟨0x40800100, 8, 0x4, 1, 0x4, [⟨0, 6, .rwl, 0, .any⟩, ⟨6, 1, .rwl, 0, .any⟩, ⟨7, 1, .rwl, 0, .any⟩]⟩,
  -- FLT_SRC_CFG
  ⟨0x40800400, 7, 0x10, 1, 0x4, [⟨0, 3, .rwl, 4, .range 0 5⟩, ⟨4, 3, .rwl, 0, .range 0 5⟩, ⟨8, 8, .rwl, 0, .except 1⟩, ⟨16, 3, .ro, 4, .any⟩, ⟨19, 1, .ro, 0, .any⟩, ⟨20, 1, .ro, 1, .any⟩]⟩,
  -- FLT_SRC_CFG
  ⟨0x40800470, 5, 0x10, 1, 0x4, [⟨0, 3, .rwl, 4, .range 0 5⟩, ⟨4, 3, .rwl, 0, .range 0 5⟩, ⟨8, 8, .rwl, 0, .except 1⟩, ⟨16, 3, .ro, 4, .any⟩, ⟨19, 1, .ro, 1, .any⟩, ⟨20, 1, .ro, 1, .any⟩]⟩,
  -- FLT_SRC_CFG
  ⟨0x408004c0, 1, 0x10, 1, 0x4, [⟨0, 3, .rwl, 2, .range 0 5⟩, ⟨4, 3, .rwl, 0, .range 0 5⟩, ⟨8, 8, .rwl, 0, .except 1⟩, ⟨16, 3, .ro, 0, .any⟩, ⟨19, 1, .ro, 1, .any⟩, ⟨20, 1, .ro, 1, .any⟩]⟩,
  -- FLT_SRC_CFG
  ⟨0x408004d0, 1, 0x10, 1, 0x4, [⟨0, 3, .rwl, 4, .range 0 5⟩, ⟨4, 3, .rwl, 0, .range 0 5⟩, ⟨8, 8, .rwl, 0, .except 1⟩, ⟨16, 3, .ro, 4, .any⟩, ⟨19, 1, .ro, 1, .any⟩, ⟨20, 1, .ro, 1, .any⟩]⟩,
  -- FLT_SRC_CFG
  ⟨0x408004e0, 1, 0x10, 1, 0x4, [⟨0, 3, .rwl, 1, .range 0 5⟩, ⟨4, 3, .rwl, 2, .range 0 5⟩, ⟨8, 8, .rwl, 0x10, .except 1⟩, ⟨16, 3, .ro, 0, .any⟩, ⟨19, 1, .ro, 0, .any⟩, ⟨20, 1, .ro, 1, .any⟩]⟩]

/-- Register rows of the FLT tables, part 2. -/
def fltRows1 : List RegRow := [
  -- FLT_SRC_CFG
  ⟨0x408004f0, 2, 0x10, 1, 0x4, [⟨0, 3, .rwl, 4, .range 0 5⟩, ⟨4, 3, .rwl, 0, .range 0 5⟩, ⟨8, 8, .rwl, 0, .except 1⟩, ⟨16, 3, .ro, 3, .any⟩, ⟨19, 1, .ro, 0, .any⟩, ⟨20, 1, .ro, 1, .any⟩]⟩,
  -- FLT_SRC_CFG
  ⟨0x40800510, 1, 0x10, 1, 0x4, [⟨0, 3, .rwl, 1, .range 0 5⟩, ⟨4, 3, .rwl, 2, .range 0 5⟩, ⟨8, 8, .rwl, 0x10, .except 1⟩, ⟨16, 3, .ro, 0, .any⟩, ⟨19, 1, .ro, 0, .any⟩, ⟨20, 1, .ro, 1, .any⟩]⟩,
  -- FLT_SRC_CFG
  ⟨0x40800520, 2, 0x10, 1, 0x4, [⟨0, 3, .rwl, 4, .range 0 5⟩, ⟨4, 3, .rwl, 0, .range 0 5⟩, ⟨8, 8, .rwl, 0, .except 1⟩, ⟨16, 3, .ro, 4, .any⟩, ⟨19, 1, .ro, 0, .any⟩, ⟨20, 1, .ro, 1, .any⟩]⟩,
  -- FLT_SRC_CFG
  ⟨0x40800540, 1, 0x10, 1, 0x4, [⟨0, 3, .rwl, 1, .range 0 5⟩, ⟨4, 3, .rwl, 2, .range 0 5⟩, ⟨8, 8, .rwl, 0x10, .except 1⟩, ⟨16, 3, .ro, 0, .any⟩, ⟨19, 1, .ro, 0, .any⟩, ⟨20, 1, .ro, 1, .any⟩]⟩,
  -- FLT_SRC_CFG
  ⟨0x40800550, 1, 0x10, 1, 0x4, [⟨0, 3, .rwl, 2, .range 0 5⟩, ⟨4, 3, .rwl, 0, .range 0 5⟩, ⟨8, 8, .rwl, 0, .except 1⟩, ⟨16, 3, .ro, 0, .any⟩, ⟨19, 1, .ro, 0, .any⟩, ⟨20, 1, .ro, 1, .any⟩]⟩,
  -- FLT_SRC_CFG
  ⟨0x40800560, 1, 0x10, 1, 0x4, [⟨0, 3, .rwl, 1, .range 0 5⟩, ⟨4, 3, .rwl, 0, .range 0 5⟩, ⟨8, 8, .rwl, 0, .except 1⟩, ⟨16, 3, .ro, 0, .any⟩, ⟨19, 1, .ro, 0, .any⟩, ⟨20, 1, .ro, 1, .any⟩]⟩,
  -- FLT_SRC_CFG
  ⟨0x40800570, 1, 0x10, 1, 0x4, [⟨0, 3, .rwl, 5, .range 0 5⟩, ⟨4, 3, .rwl, 0, .range 0 5⟩, ⟨8, 8, .rwl, 0, .except 1⟩, ⟨16, 3, .ro, 5, .any⟩, ⟨19, 1, .ro, 0, .any⟩, ⟨20, 1, .ro, 1, .any⟩]⟩,
  -- FLT_SRC_CFG
  ⟨0x40800580, 1, 0x10, 1, 0x4, [⟨0, 3, .rwl, 5, .range 0 5⟩, ⟨4, 3, .rwl, 0, .range 0 5⟩, ⟨8, 8, .rwl, 0, .except 1⟩, ⟨16, 3, .ro, 5, .any⟩, ⟨19, 1, .ro, 1, .any⟩, ⟨20, 1, .ro, 1, .any⟩]⟩,
  -- FLT_SRC_CFG
  ⟨0x40800590, 1, 0x10, 1, 0x4, [⟨0, 3, .rwl, 4, .range 0 5⟩, ⟨4, 3, .rwl, 0, .range 0 5⟩, ⟨8, 8, .rwl, 0, .except 1⟩, ⟨16, 3, .ro, 4, .any⟩, ⟨19, 1, .ro, 0, .any⟩, ⟨20, 1, .ro, 1, .any⟩]⟩,
  -- FLT_SRC_CFG
  ⟨0x408005a0, 1, 0x10, 1, 0x4, [⟨0, 3, .rwl, 3, .range 0 5⟩, ⟨4, 3, .rwl, 0, .range 0 5⟩, ⟨8, 8, .rwl, 0, .except 1⟩, ⟨16, 3, .ro, 3, .any⟩, ⟨19, 1, .ro, 1, .any⟩, ⟨20, 1, .ro, 1, .any⟩]⟩,
  -- FLT_SRC_CFG
  ⟨0x408005b0, 1, 0x10, 1, 0x4, [⟨0, 3, .rwl, 4, .range 0 5⟩, ⟨4, 3, .rwl, 0, .range 0 5⟩, ⟨8, 8, .rwl, 0, .except 1⟩, ⟨16, 3, .ro, 3, .any⟩, ⟨19, 1, .ro, 0, .any⟩, ⟨20, 1, .ro, 1, .any⟩]⟩,
  -- FLT_SRC_CFG
  ⟨0x408005c0, 1, 0x10, 1, 0x4, [⟨0, 3, .rwl, 2, .range 0 5⟩, ⟨4, 3, .rwl, 3, .range 0 5⟩, ⟨8, 8, .rwl, 3, .except 1⟩, ⟨16, 3, .ro, 0, .any⟩, ⟨19, 1, .ro, 0, .any⟩, ⟨20, 1, .ro, 1, .any⟩]⟩,
  -- FLT_SRC_CFG
  ⟨0x408005d0, 2, 0x10, 1, 0x4, [⟨0, 3, .rwl, 1, .range 0 5⟩, ⟨4, 3, .rwl, 0, .range 0 5⟩, ⟨8, 8, .rwl, 0, .except 1⟩, ⟨16, 3, .ro, 0, .any⟩, ⟨19, 1, .ro, 0, .any⟩, ⟨20, 1, .ro, 1, .any⟩]⟩,
  -- FLT_SRC_CFG
  ⟨0x408005f0, 1, 0x10, 1, 0x4, [⟨0, 3, .rwl, 1, .range 0 5⟩, ⟨4, 3, .rwl, 0, .range 0 5⟩, ⟨8, 8, .rwl, 0, .except 1⟩, ⟨16, 3, .ro, 0, .any⟩, ⟨19, 1, .ro, 0, .any⟩, ⟨20, 1, .ro, 0, .any⟩]⟩,
  -- FLT_SRC_CFG
  ⟨0x40800600, 1, 0x10, 1, 0x4, [⟨0, 3, .rwl, 0, .range 0 5⟩, ⟨4, 3, .rwl, 2, .range 0 5⟩, ⟨8, 8, .rwl, 3, .except 1⟩, ⟨16, 3, .ro, 0, .any⟩, ⟨19, 1, .ro, 0, .any⟩, ⟨20, 1, .ro, 0, .any⟩]⟩,
  -- FLT_SRC_CFG
  ⟨0x40800610, 1, 0x10, 1, 0x4, [⟨0, 3, .rwl, 0, .range 0 5⟩, ⟨4, 3, .rwl, 3, .range 0 5⟩, ⟨8, 8, .rwl, 0x14, .except 1⟩, ⟨16, 3, .ro, 0, .any⟩, ⟨19, 1, .ro, 0, .any⟩, ⟨20, 1, .ro, 0, .any⟩]⟩,
  -- FLT_SRC_CFG
  ⟨0x40800620, 1, 0x10, 1, 0x4, [⟨0, 3, .rwl, 2, .range 0 5⟩, ⟨4, 3, .rwl, 3, .range 0 5⟩, ⟨8, 8, .rwl, 3, .except 1⟩, ⟨16, 3, .ro, 0, .any⟩, ⟨19, 1, .ro, 0, .any⟩, ⟨20, 1, .ro, 0, .any⟩]⟩,
  -- FLT_SRC_CFG
  ⟨0x40800630, 1, 0x10, 1, 0x4, [⟨0, 3, .rwl, 2, .range 0 5⟩, ⟨4, 3, .rwl, 0, .range 0 5⟩, ⟨8, 8, .rwl, 0, .except 1⟩, ⟨16, 3, .ro, 0, .any⟩, ⟨19, 1, .ro, 0, .any⟩, ⟨20, 1, .ro, 0, .any⟩]⟩,
  -- FLT_SRC_CFG
  ⟨0x40800640, 1, 0x10, 1, 0x4, [⟨0, 3, .rwl, 1, .range 0 5⟩, ⟨4, 3, .rwl, 0, .range 0 5⟩, ⟨8, 8, .rwl, 0, .except 1⟩, ⟨16, 3, .ro, 0, .any⟩, ⟨19, 1, .ro, 0, .any⟩, ⟨20, 1, .ro, 0, .any⟩]⟩,
  -- FLT_SRC_CFG
  ⟨0x40800650, 1, 0x10, 1, 0x4, [⟨0, 3, .rwl, 3, .range 0 5⟩, ⟨4, 3, .rwl, 0, .range 0 5⟩, ⟨8, 8, .rwl, 0, .except 1⟩, ⟨16, 3, .ro, 0, .any⟩, ⟨19, 1, .ro, 0, .any⟩, ⟨20, 1, .ro, 0, .any⟩]⟩,
  -- FLT_SRC_CFG
  ⟨0x40800660, 1, 0x10, 1, 0x4, [⟨0, 3, .rwl, 1, .range 0 5⟩, ⟨4, 3, .rwl, 2, .range 0 5⟩, ⟨8, 8, .rwl, 3, .except 1⟩, ⟨16, 3, .ro, 0, .any⟩, ⟨19, 1, .ro, 0, .any⟩, ⟨20, 1, .ro, 0, .any⟩]⟩,
  -- FLT_SRC_CFG
  ⟨0x40800670, 1, 0x10, 1, 0x4, [⟨0, 3, .rwl, 2, .range 0 5⟩, ⟨4, 3, .rwl, 0, .range 0 5⟩, ⟨8, 8, .rwl, 0, .except 1⟩, ⟨16, 3, .ro, 0, .any⟩, ⟨19, 1, .ro, 1, .any⟩, ⟨20, 1, .ro, 0, .any⟩]⟩,
  -- FLT_SRC_CFG
  ⟨0x40800680, 1, 0x10, 1, 0x4, [⟨0, 3, .rwl, 3, .range 0 5⟩, ⟨4, 3, .rwl, 0, .range 0 5⟩, ⟨8, 8, .rwl, 0, .except 1⟩, ⟨16, 3, .ro, 0, .any⟩, ⟨19, 1, .ro, 1, .any⟩, ⟨20, 1, .ro, 0, .any⟩]⟩,
  -- FLT_SRC_CFG
  ⟨0x40800690, 2, 0x10, 1, 0x4, [⟨0, 3, .rwl, 1, .range 0 5⟩, ⟨4, 3, .rwl, 0, .range 0 5⟩, ⟨8, 8, .rwl, 0, .except 1⟩, ⟨16, 3, .ro, 0, .any⟩, ⟨19, 1, .ro, 0, .any⟩, ⟨20, 1, .ro, 0, .any⟩]⟩]

/-- Register rows of the FLT tables, part 3. -/
def fltRows2 : List RegRow := [
  -- FLT_SRC_CFG
  ⟨0x408006b0, 1, 0x10, 1, 0x4, [⟨0, 3, .rwl, 0, .range 0 5⟩, ⟨4, 3, .rwl, 1, .range 0 5⟩, ⟨8, 8, .rwl, 0x64, .except 1⟩, ⟨16, 3, .ro, 0, .any⟩, ⟨19, 1, .ro, 0, .any⟩, ⟨20, 1, .ro, 0, .any⟩]⟩,
  -- FLT_SRC_CFG
  ⟨0x408006c0, 1, 0x10, 1, 0x4, [⟨0, 3, .rwl, 2, .range 0 5⟩, ⟨4, 3, .rwl, 0, .range 0 5⟩, ⟨8, 8, .rwl, 0, .except 1⟩, ⟨16, 3, .ro, 0, .any⟩, ⟨19, 1, .ro, 0, .any⟩, ⟨20, 1, .ro, 0, .any⟩]⟩,
  -- FLT_SRC_CFG
  ⟨0x408006d0, 1, 0x10, 1, 0x4, [⟨0, 3, .rwl, 0, .range 0 5⟩, ⟨4, 3, .rwl, 0, .range 0 5⟩, ⟨8, 8, .rwl, 0, .except 1⟩, ⟨16, 3, .ro, 0, .any⟩, ⟨19, 1, .ro, 0, .any⟩, ⟨20, 1, .ro, 0, .any⟩]⟩,
  -- FLT_SRC_CFG
  ⟨0x408006e0, 2, 0x10, 1, 0x4, [⟨0, 3, .rwl, 1, .range 0 5⟩, ⟨4, 3, .rwl, 0, .range 0 5⟩, ⟨8, 8, .rwl, 0, .except 1⟩, ⟨16, 3, .ro, 0, .any⟩, ⟨19, 1, .ro, 0, .any⟩, ⟨20, 1, .ro, 0, .any⟩]⟩,
  -- FLT_SRC_CFG
  ⟨0x40800700, 1, 0x10, 1, 0x4, [⟨0, 3, .rwl, 1, .range 0 5⟩, ⟨4, 3, .rwl, 2, .range 0 5⟩, ⟨8, 8, .rwl, 4, .except 1⟩, ⟨16, 3, .ro, 0, .any⟩, ⟨19, 1, .ro, 0, .any⟩, ⟨20, 1, .ro, 0, .any⟩]⟩,
  -- FLT_SRC_CFG
  ⟨0x40800710, 1, 0x10, 1, 0x4, [⟨0, 3, .rwl, 2, .range 0 5⟩, ⟨4, 3, .rwl, 0, .range 0 5⟩, ⟨8, 8, .rwl, 0, .except 1⟩, ⟨16, 3, .ro, 0, .any⟩, ⟨19, 1, .ro, 0, .any⟩, ⟨20, 1, .ro, 0, .any⟩]⟩,
  -- FLT_SRC_CFG
  ⟨0x40800720, 3, 0x10, 1, 0x4, [⟨0, 3, .rwl, 1, .range 0 5⟩, ⟨4, 3, .rwl, 0, .range 0 5⟩, ⟨8, 8, .rwl, 0, .except 1⟩, ⟨16, 3, .ro, 0, .any⟩, ⟨19, 1, .ro, 0, .any⟩, ⟨20, 1, .ro, 0, .any⟩]⟩,
  -- FLT_SRC_CFG
  ⟨0x40800750, 2, 0x10, 1, 0x4, [⟨0, 3, .rwl, 2, .range 0 5⟩, ⟨4, 3, .rwl, 0, .range 0 5⟩, ⟨8, 8, .rwl, 0, .except 1⟩, ⟨16, 3, .ro, 0, .any⟩, ⟨19, 1, .ro, 0, .any⟩, ⟨20, 1, .ro, 0, .any⟩]⟩,
  -- FLT_SRC_CFG
  ⟨0x40800770, 3, 0x10, 1, 0x4, [⟨0, 3, .rwl, 1, .range 0 5⟩, ⟨4, 3, .rwl, 0, .range 0 5⟩, ⟨8, 8, .rwl, 0, .except 1⟩, ⟨16, 3, .ro, 0, .any⟩, ⟨19, 1, .ro, 0, .any⟩, ⟨20, 1, .ro, 0, .any⟩]⟩,
  -- FLT_SRC_CFG
  ⟨0x408007a0, 6, 0x10, 1, 0x4, [⟨0, 3, .ro, 0, .any⟩, ⟨4, 3, .ro, 0, .any⟩, ⟨8, 8, .ro, 0, .any⟩, ⟨16, 3, .ro, 0, .any⟩, ⟨19, 1, .ro, 0, .any⟩, ⟨20, 1, .ro, 0, .any⟩]⟩,
  -- FLT_SRC_CFG
  ⟨0x40800800, 1, 0x10, 1, 0x4, [⟨0, 3, .rwl, 0, .range 0 5⟩, ⟨4, 3, .rwl, 1, .range 0 5⟩, ⟨8, 8, .rwl, 0x64, .except 1⟩, ⟨16, 3, .ro, 0, .any⟩, ⟨19, 1, .ro, 0, .any⟩, ⟨20, 1, .ro, 0, .any⟩]⟩,
  -- FLT_SRC_CFG
  ⟨0x40800810, 1, 0x10, 1, 0x4, [⟨0, 3, .rwl, 1, .range 0 5⟩, ⟨4, 3, .rwl, 2, .range 0 5⟩, ⟨8, 8, .rwl, 0xa, .except 1⟩, ⟨16, 3, .ro, 0, .any⟩, ⟨19, 1, .ro, 0, .any⟩, ⟨20, 1, .ro, 0, .any⟩]⟩,
  -- FLT_SRC_CFG
  ⟨0x40800820, 1, 0x10, 1, 0x4, [⟨0, 3, .rwl, 1, .range 0 5⟩, ⟨4, 3, .rwl, 0, .range 0 5⟩, ⟨8, 8, .rwl, 0, .except 1⟩, ⟨16, 3, .ro, 0, .any⟩, ⟨19, 1, .ro, 0, .any⟩, ⟨20, 1, .ro, 0, .any⟩]⟩,
  -- FLT_SRC_CFG
  ⟨0x40800830, 1, 0x10, 1, 0x4, [⟨0, 3, .rwl, 1, .range 0 5⟩, ⟨4, 3, .rwl, 0, .range 0 5⟩, ⟨8, 8, .rwl, 0, .except 1⟩, ⟨16, 3, .ro, 0, .any⟩, ⟨19, 1, .ro, 1, .any⟩, ⟨20, 1, .ro, 0, .any⟩]⟩,
  -- FLT_SRC_CFG
  ⟨0x40800840, 1, 0x10, 1, 0x4, [⟨0, 3, .rwl, 2, .range 0 5⟩, ⟨4, 3, .rwl, 0, .range 0 5⟩, ⟨8, 8, .rwl, 0, .except 1⟩, ⟨16, 3, .ro, 0, .any⟩, ⟨19, 1, .ro, 0, .any⟩, ⟨20, 1, .ro, 1, .any⟩]⟩,
  -- FLT_SRC_CFG
  ⟨0x40800850, 1, 0x10, 1, 0x4, [⟨0, 3, .rwl, 1, .range 0 5⟩, ⟨4, 3, .rwl, 0, .range 0 5⟩, ⟨8, 8, .rwl, 0, .except 1⟩, ⟨16, 3, .ro, 0, .any⟩, ⟨19, 1, .ro, 1, .any⟩, ⟨20, 1, .ro, 0, .any⟩]⟩,
  -- FLT_SRC_CFG
  ⟨0x40800860, 1, 0x10, 1, 0x4, [⟨0, 3, .rwl, 2, .range 0 5⟩, ⟨4, 3, .rwl, 0, .range 0 5⟩, ⟨8, 8, .rwl, 0, .except 1⟩, ⟨16, 3, .ro, 0, .any⟩, ⟨19, 1, .ro, 1, .any⟩, ⟨20, 1, .ro, 0, .any⟩]⟩,
  -- FLT_SRC_CFG
  ⟨0x40800870, 1, 0x10, 1, 0x4, [⟨0, 3, .rwl, 1, .range 0 5⟩, ⟨4, 3, .rwl, 2, .range 0 5⟩, ⟨8, 8, .rwl, 3, .except 1⟩, ⟨16, 3, .ro, 0, .any⟩, ⟨19, 1, .ro, 0, .any⟩, ⟨20, 1, .ro, 1, .any⟩]⟩,
  -- FLT_SRC_CFG
  ⟨0x40800880, 4, 0x10, 1, 0x4, [⟨0, 3, .rwl, 2, .range 0 5⟩, ⟨4, 3, .rwl, 0, .range 0 5⟩, ⟨8, 8, .rwl, 0, .except 1⟩, ⟨16, 3, .ro, 0, .any⟩, ⟨19, 1, .ro, 1, .any⟩, ⟨20, 1, .ro, 1, .any⟩]⟩,
  -- FLT_SRC_CFG
  ⟨0x408008c0, 1, 0x10, 1, 0x4, [⟨0, 3, .rwl, 1, .range 0 5⟩, ⟨4, 3, .rwl, 0, .range 0 5⟩, ⟨8, 8, .rwl, 0, .except 1⟩, ⟨16, 3, .ro, 0, .any⟩, ⟨19, 1, .ro, 0, .any⟩, ⟨20, 1, .ro, 1, .any⟩]⟩,
  -- FLT_SRC_CFG
  ⟨0x408008d0, 2, 0x10, 1, 0x4, [⟨0, 3, .rwl, 3, .range 0 5⟩, ⟨4, 3, .rwl, 0, .range 0 5⟩, ⟨8, 8, .rwl, 0, .except 1⟩, ⟨16, 3, .ro, 0, .any⟩, ⟨19, 1, .ro, 0, .any⟩, ⟨20, 1, .ro, 0, .any⟩]⟩,
  -- FLT_SRC_CFG
  ⟨0x408008f0, 1, 0x10, 1, 0x4, [⟨0, 3, .rwl, 1, .range 0 5⟩, ⟨4, 3, .rwl, 0, .range 0 5⟩, ⟨8, 8, .rwl, 0, .except 1⟩, ⟨16, 3, .ro, 0, .any⟩, ⟨19, 1, .ro, 1, .any⟩, ⟨20, 1, .ro, 0, .any⟩]⟩,
  -- FLT_SRC_CFG
  ⟨0x40800900, 1, 0x10, 1, 0x4, [⟨0, 3, .rwl, 1, .range 0 5⟩, ⟨4, 3, .rwl, 0, .range 0 5⟩, ⟨8, 8, .rwl, 0, .except 1⟩, ⟨16, 3, .ro, 0, .any⟩, ⟨19, 1, .ro, 1, .any⟩, ⟨20, 1, .ro, 1, .any⟩]⟩,
  -- FLT_SRC_CFG
  ⟨0x40800910, 1, 0x10, 1, 0x4, [⟨0, 3, .rwl, 1, .range 0 5⟩, ⟨4, 3, .rwl, 0, .range 0 5⟩, ⟨8, 8, .rwl, 0, .except 1⟩, ⟨16, 3, .ro, 0, .any⟩, ⟨19, 1, .ro, 0, .any⟩, ⟨20, 1, .ro, 1, .any⟩]⟩]

/-- Register rows of the FLT tables, part 4. -/
def fltRows3 : List RegRow := [
  -- FLT_SRC_CFG
  ⟨0x40800920, 4, 0x10, 1, 0x4, [⟨0, 3, .rwl, 1, .range 0 5⟩, ⟨4, 3, .rwl, 0, .range 0 5⟩, ⟨8, 8, .rwl, 0, .except 1⟩, ⟨16, 3, .ro, 0, .any⟩, ⟨19, 1, .ro, 1, .any⟩, ⟨20, 1, .ro, 1, .any⟩]⟩,
  -- FLT_SRC_CFG
  ⟨0x40800960, 10, 0x10, 1, 0x4, [⟨0, 3, .ro, 0, .any⟩, ⟨4, 3, .ro, 0, .any⟩, ⟨8, 8, .ro, 0, .any⟩, ⟨16, 3, .ro, 0, .any⟩, ⟨19, 1, .ro, 0, .any⟩, ⟨20, 1, .ro, 0, .any⟩]⟩,
  -- FLT_SRC_CFG
  ⟨0x40800a00, 10, 0x10, 1, 0x4, [⟨0, 3, .rwl, 1, .range 0 5⟩, ⟨4, 3, .rwl, 0, .range 0 5⟩, ⟨8, 8, .rwl, 0, .except 1⟩, ⟨16, 3, .ro, 0, .any⟩, ⟨19, 1, .ro, 1, .any⟩, ⟨20, 1, .ro, 0, .any⟩]⟩,
  -- FLT_SRC_CFG
  ⟨0x40800aa0, 1, 0x10, 1, 0x4, [⟨0, 3, .rwl, 5, .range 0 5⟩, ⟨4, 3, .rwl, 0, .range 0 5⟩, ⟨8, 8, .rwl, 0, .except 1⟩, ⟨16, 3, .ro, 5, .any⟩, ⟨19, 1, .ro, 1, .any⟩, ⟨20, 1, .ro, 1, .any⟩]⟩,
  -- FLT_SRC_CFG
  ⟨0x40800ab0, 1, 0x10, 1, 0x4, [⟨0, 3, .rwl, 1, .range 0 5⟩, ⟨4, 3, .rwl, 0, .range 0 5⟩, ⟨8, 8, .rwl, 0, .except 1⟩, ⟨16, 3, .ro, 0, .any⟩, ⟨19, 1, .ro, 1, .any⟩, ⟨20, 1, .ro, 1, .any⟩]⟩,
  -- FLT_SRC_CFG
  ⟨0x40800ac0, 12, 0x10, 1, 0x4, [⟨0, 3, .ro, 0, .any⟩, ⟨4, 3, .ro, 0, .any⟩, ⟨8, 8, .ro, 0, .any⟩, ⟨16, 3, .ro, 0, .any⟩, ⟨19, 1, .ro, 0, .any⟩, ⟨20, 1, .ro, 0, .any⟩]⟩,
  -- FLT_SRC_CFG
  ⟨0x40800b80, 8, 0x10, 1, 0x4, [⟨0, 3, .rwl, 1, .range 0 5⟩, ⟨4, 3, .rwl, 0, .range 0 5⟩, ⟨8, 8, .rwl, 0, .except 1⟩, ⟨16, 3, .ro, 0, .any⟩, ⟨19, 1, .ro, 1, .any⟩, ⟨20, 1, .ro, 0, .any⟩]⟩,
  -- FLT_SRC_WIN
  ⟨0x40800404, 28, 0x10, 1, 0x4, [⟨0, 16, .rwl, 0x3e8, .range 1 65535⟩]⟩,
  -- FLT_SRC_WIN
  ⟨0x408005c4, 1, 0x10, 1, 0x4, [⟨0, 16, .rwl, 0x2710, .range 1 65535⟩]⟩,
  -- FLT_SRC_WIN
  ⟨0x408005d4, 14, 0x10, 1, 0x4, [⟨0, 16, .rwl, 0x3e8, .range 1 65535⟩]⟩,
  -- FLT_SRC_WIN
  ⟨0x408006b4, 1, 0x10, 1, 0x4, [⟨0, 16, .rwl, 0x64, .range 1 65535⟩]⟩,
  -- FLT_SRC_WIN
  ⟨0x408006c4, 14, 0x10, 1, 0x4, [⟨0, 16, .rwl, 0x3e8, .range 1 65535⟩]⟩,
  -- FLT_SRC_WIN
  ⟨0x408007a4, 6, 0x10, 1, 0x4, [⟨0, 16, .ro, 0, .any⟩]⟩,
  -- FLT_SRC_WIN
  ⟨0x40800804, 1, 0x10, 1, 0x4, [⟨0, 16, .rwl, 0x3e8, .range 1 65535⟩]⟩,
  -- FLT_SRC_WIN
  ⟨0x40800814, 1, 0x10, 1, 0x4, [⟨0, 16, .rwl, 0x64, .range 1 65535⟩]⟩,
  -- FLT_SRC_WIN
  ⟨0x40800824, 20, 0x10, 1, 0x4, [⟨0, 16, .rwl, 0x3e8, .range 1 65535⟩]⟩,
  -- FLT_SRC_WIN
  ⟨0x40800964, 10, 0x10, 1, 0x4, [⟨0, 16, .ro, 0, .any⟩]⟩,
  -- FLT_SRC_WIN
  ⟨0x40800a04, 12, 0x10, 1, 0x4, [⟨0, 16, .rwl, 0x3e8, .range 1 65535⟩]⟩,
  -- FLT_SRC_WIN
  ⟨0x40800ac4, 12, 0x10, 1, 0x4, [⟨0, 16, .ro, 0, .any⟩]⟩,
  -- FLT_SRC_WIN
  ⟨0x40800b84, 8, 0x10, 1, 0x4, [⟨0, 16, .rwl, 0x3e8, .range 1 65535⟩]⟩,
  -- FLT_SRC_ST
  ⟨0x40800408, 128, 0x10, 1, 0x4, [⟨0, 3, .ro, 0, .any⟩, ⟨3, 1, .ro, 0, .any⟩, ⟨16, 16, .ro, 0, .any⟩]⟩]

/-- Register rows of the FLT tables. -/
def fltRows : List RegRow := fltRows0 ++ fltRows1 ++ fltRows2 ++ fltRows3

/-- Register rows of the SCH tables, part 1. -/
def schRows0 : List RegRow := [
  -- SCH_CFG
  ⟨0x40900000, 1, 0x4, 1, 0x4, [⟨0, 10, .rw, 0x64, .range 1 1000⟩]⟩,
  -- SCH_STATUS
  ⟨0x40900004, 1, 0x4, 1, 0x4, [⟨0, 13, .ro, 0, .any⟩, ⟨13, 1, .w1c, 0, .any⟩, ⟨16, 13, .ro, 0, .any⟩]⟩,
  -- SCH_LS
  ⟨0x40900008, 1, 0x4, 1, 0x4, [⟨0, 6, .wo, 0, .any⟩, ⟨8, 6, .ro, 0, .any⟩, ⟨16, 16, .wo, 0, .any⟩]⟩,
  -- SCH_LS_STAT
  ⟨0x4090000c, 1, 0x4, 1, 0x4, [⟨0, 6, .w1c, 0, .any⟩, ⟨16, 16, .ro, 0, .any⟩]⟩,
  -- SCH_PUSHD
  ⟨0x40900010, 8, 0x4, 1, 0x4, [⟨0, 32, .rw, 0, .any⟩]⟩,
  -- SCH_PUSH
  ⟨0x40900030, 1, 0x4, 1, 0x4, [⟨0, 6, .wo, 0, .any⟩, ⟨6, 1, .wo, 0, .any⟩]⟩,
  -- SCH_PUSH_ST
  ⟨0x40900034, 1, 0x4, 1, 0x4, [⟨0, 3, .ro, 0, .any⟩, ⟨8, 6, .ro, 0, .any⟩]⟩,
  -- SCH_GET
  ⟨0x40900040, 1, 0x4, 1, 0x4, [⟨0, 1, .ro, 0, .any⟩, ⟨1, 1, .ro, 0, .any⟩, ⟨8, 6, .ro, 0, .any⟩]⟩,
  -- SCH_GET_WAIT
  ⟨0x40900044, 1, 0x4, 1, 0x4, [⟨0, 1, .ro, 0, .any⟩, ⟨1, 1, .ro, 0, .any⟩, ⟨8, 6, .ro, 0, .any⟩]⟩,
  -- SCH_ITEM
  ⟨0x40900050, 8, 0x4, 1, 0x4, [⟨0, 32, .ro, 0, .any⟩]⟩,
  -- TRC_CFG
  ⟨0x40900080, 1, 0x4, 1, 0x4, [⟨0, 1, .rw, 0, .any⟩, ⟨1, 1, .rw, 0, .any⟩, ⟨4, 4, .rw, 0xf, .any⟩]⟩,
  -- TRC_BASE
  ⟨0x40900084, 1, 0x4, 1, 0x4, [⟨0, 32, .rw, 0x16000000, .step 16 0x11000000 0x17FFFFF0⟩]⟩,
  -- TRC_SIZE
  ⟨0x40900088, 1, 0x4, 1, 0x4, [⟨0, 25, .rw, 0x100000, .step 16 16 0x1000000⟩]⟩,
  -- TRC_WR
  ⟨0x4090008c, 1, 0x4, 1, 0x4, [⟨0, 25, .ro, 0, .any⟩]⟩,
  -- TRC_STAT
  ⟨0x40900090, 1, 0x4, 1, 0x4, [⟨0, 16, .ro, 0, .any⟩, ⟨16, 1, .w1c, 0, .any⟩]⟩,
  -- SCH_CLR
  ⟨0x40900094, 1, 0x4, 1, 0x4, [⟨0, 1, .wo, 0, .any⟩]⟩,
  -- Q_CFG
  ⟨0x40901000, 64, 0x10, 1, 0x4, [⟨0, 11, .rwl, 0, .range 0 1024⟩, ⟨11, 3, .rw, 0, .any⟩, ⟨14, 1, .rwl, 0, .any⟩, ⟨16, 16, .rwl, 0, .any⟩]⟩,
  -- Q_OWN
  ⟨0x40901004, 64, 0x10, 1, 0x4, [⟨0, 9, .rwl, 1, .any⟩]⟩,
  -- Q_STAT
  ⟨0x40901008, 64, 0x10, 1, 0x4, [⟨0, 11, .ro, 0, .any⟩, ⟨16, 11, .ro, 0, .any⟩]⟩,
  -- Q_CNT
  ⟨0x4090100c, 64, 0x10, 1, 0x4, [⟨0, 16, .ro, 0, .any⟩, ⟨16, 16, .ro, 0, .any⟩]⟩,
  -- H_MASK_LO
  ⟨0x40902000, 6, 0x40, 1, 0x4, [⟨0, 32, .rw, 0xffffffff, .any⟩]⟩,
  -- H_MASK_HI
  ⟨0x40902004, 6, 0x40, 1, 0x4, [⟨0, 32, .rw, 0xffffffff, .any⟩]⟩,
  -- H_CFG
  ⟨0x40902008, 6, 0x40, 1, 0x4, [⟨0, 2, .rw, 2, .range 1 2⟩, ⟨4, 4, .rw, 0, .range 0 8⟩, ⟨16, 16, .rw, 0x3e8, .range 1 65535⟩]⟩,
  -- H_STAT
  ⟨0x4090200c, 6, 0x40, 1, 0x4, [⟨0, 2, .ro, 0, .any⟩, ⟨3, 13, .ro, 0, .any⟩, ⟨16, 13, .ro, 0, .any⟩]⟩]

/-- Register rows of the SCH tables, part 2. -/
def schRows1 : List RegRow := [
  -- H_LOAD
  ⟨0x40902010, 6, 0x40, 1, 0x4, [⟨0, 16, .ro, 0, .any⟩, ⟨16, 16, .rw, 0x3e8, .range 1 65535⟩]⟩,
  -- H_CNT
  ⟨0x40902014, 6, 0x40, 1, 0x4, [⟨0, 16, .ro, 0, .any⟩, ⟨16, 16, .ro, 0, .any⟩]⟩,
  -- H_HIST
  ⟨0x40903000, 6, 0x40, 16, 0x4, [⟨0, 32, .ro, 0, .any⟩]⟩,
  -- P_BUDGET
  ⟨0x40904000, 9, 0x4, 1, 0x4, [⟨0, 24, .rw, 0, .any⟩]⟩]

/-- Register rows of the SCH tables. -/
def schRows : List RegRow := schRows0 ++ schRows1

/-- Register rows of the PMC tables. -/
def pmcRows : List RegRow := [
  -- PMC_CTRL
  ⟨0x40a00000, 1, 0x4, 1, 0x4, [⟨0, 1, .rw, 0, .any⟩, ⟨1, 1, .wo, 0, .any⟩, ⟨2, 2, .rw, 0, .range 0 2⟩, ⟨16, 16, .rw, 1, .range 1 65535⟩]⟩,
  -- PMC_SNAP_OFF
  ⟨0x40a00004, 1, 0x4, 1, 0x4, [⟨0, 16, .rw, 0, .any⟩]⟩,
  -- PMC_SNAP_ST
  ⟨0x40a00008, 1, 0x4, 1, 0x4, [⟨0, 16, .ro, 0, .any⟩, ⟨16, 1, .ro, 0, .any⟩, ⟨17, 1, .w1c, 0, .any⟩]⟩,
  -- PMC_SNAP_NS
  ⟨0x40a0000c, 1, 0x4, 1, 0x4, [⟨0, 32, .ro, 0, .any⟩]⟩,
  -- PMC_SNAP_SECLO
  ⟨0x40a00010, 1, 0x4, 1, 0x4, [⟨0, 32, .ro, 0, .any⟩]⟩,
  -- PMC_SNAP_SECHI
  ⟨0x40a00014, 1, 0x4, 1, 0x4, [⟨0, 16, .ro, 0, .any⟩]⟩,
  -- PMC_CNT_LO
  ⟨0x40a01000, 6, 0x100, 12, 0x8, [⟨0, 32, .rw, 0, .any⟩]⟩,
  -- PMC_CNT_HI
  ⟨0x40a01004, 6, 0x100, 12, 0x8, [⟨0, 16, .rw, 0, .any⟩]⟩,
  -- PMC_WRAP
  ⟨0x40a01060, 6, 0x100, 1, 0x4, [⟨0, 12, .w1c, 0, .any⟩, ⟨16, 12, .rw, 0, .any⟩]⟩,
  -- PMC_EVT
  ⟨0x40a01064, 6, 0x100, 8, 0x4, [⟨0, 8, .rw, 0, .range 0 13⟩, ⟨8, 1, .rw, 1, .any⟩, ⟨9, 1, .rw, 1, .any⟩, ⟨10, 1, .rw, 1, .any⟩]⟩,
  -- PMC_SCNT_LO
  ⟨0x40a04000, 6, 0x100, 12, 0x8, [⟨0, 32, .ro, 0, .any⟩]⟩,
  -- PMC_SCNT_HI
  ⟨0x40a04004, 6, 0x100, 12, 0x8, [⟨0, 16, .ro, 0, .any⟩]⟩,
  -- PMC_SWRAP
  ⟨0x40a04060, 6, 0x100, 1, 0x4, [⟨0, 12, .ro, 0, .any⟩]⟩]

/-- Register rows of the MEM tables. -/
def memRows : List RegRow := [
  -- MEM_PWR
  ⟨0x40b00000, 4, 0x4, 1, 0x4, [⟨0, 2, .rw, 0, .range 0 2⟩, ⟨2, 2, .rw, 0, .range 0 2⟩, ⟨4, 2, .rw, 0, .range 0 2⟩, ⟨6, 2, .rw, 0, .range 0 2⟩, ⟨8, 2, .rw, 0, .range 0 2⟩, ⟨10, 2, .rw, 0, .range 0 2⟩, ⟨12, 2, .rw, 0, .range 0 2⟩, ⟨14, 2, .rw, 0, .range 0 2⟩]⟩,
  -- MEM_PSTAT
  ⟨0x40b00010, 4, 0x4, 1, 0x4, [⟨0, 2, .ro, 0, .any⟩, ⟨2, 2, .ro, 0, .any⟩, ⟨4, 2, .ro, 0, .any⟩, ⟨6, 2, .ro, 0, .any⟩, ⟨8, 2, .ro, 0, .any⟩, ⟨10, 2, .ro, 0, .any⟩, ⟨12, 2, .ro, 0, .any⟩, ⟨14, 2, .ro, 0, .any⟩]⟩,
  -- MEM_STATUS
  ⟨0x40b00020, 1, 0x4, 1, 0x4, [⟨0, 8, .ro, 0xff, .any⟩, ⟨8, 1, .w1c, 0, .any⟩]⟩,
  -- MEM_ECC
  ⟨0x40b00024, 1, 0x4, 1, 0x4, [⟨0, 16, .ro, 0, .any⟩, ⟨16, 16, .ro, 0, .any⟩]⟩,
  -- MEM_CE_ADDR
  ⟨0x40b00028, 1, 0x4, 1, 0x4, [⟨0, 32, .ro, 0, .any⟩]⟩,
  -- MEM_UE_ADDR
  ⟨0x40b0002c, 1, 0x4, 1, 0x4, [⟨0, 32, .ro, 0, .any⟩]⟩,
  -- BGT_CFG
  ⟨0x40b00040, 1, 0x4, 1, 0x4, [⟨0, 1, .rw, 1, .any⟩, ⟨16, 16, .rw, 0x17d, .range 50 65535⟩]⟩,
  -- BGT_STATUS
  ⟨0x40b00044, 1, 0x4, 1, 0x4, [⟨0, 19, .ro, 0, .any⟩]⟩,
  -- BGT_PASS
  ⟨0x40b00048, 1, 0x4, 1, 0x4, [⟨0, 16, .ro, 0, .any⟩, ⟨16, 16, .ro, 0, .any⟩]⟩,
  -- BGT_CNT
  ⟨0x40b0004c, 1, 0x4, 1, 0x4, [⟨0, 16, .ro, 0, .any⟩, ⟨16, 8, .ro, 0, .any⟩, ⟨24, 8, .ro, 0, .any⟩]⟩,
  -- BGT_FAIL
  ⟨0x40b00050, 1, 0x4, 1, 0x4, [⟨0, 32, .ro, 0, .any⟩]⟩,
  -- FW_CHK
  ⟨0x40b00060, 1, 0x4, 1, 0x4, [⟨0, 16, .rw, 0xa, .range 1 65535⟩, ⟨16, 8, .ro, 0, .any⟩, ⟨24, 1, .ro, 0, .any⟩]⟩,
  -- DDR_CFG
  ⟨0x40b00100, 1, 0x4, 1, 0x4, [⟨0, 2, .rwl, 2, .range 0 2⟩, ⟨2, 1, .rwl, 0, .any⟩, ⟨3, 1, .rwl, 0, .any⟩, ⟨4, 1, .rwl, 1, .any⟩, ⟨16, 16, .rw, 0x18, .any⟩]⟩,
  -- DDR_CTRL
  ⟨0x40b00104, 1, 0x4, 1, 0x4, [⟨0, 1, .wo, 0, .any⟩]⟩,
  -- DDR_STATUS
  ⟨0x40b00108, 1, 0x4, 1, 0x4, [⟨0, 1, .ro, 0, .any⟩, ⟨1, 1, .ro, 0, .any⟩, ⟨8, 6, .ro, 0, .any⟩]⟩,
  -- DDR_ECC
  ⟨0x40b0010c, 1, 0x4, 1, 0x4, [⟨0, 16, .ro, 0, .any⟩, ⟨16, 16, .ro, 0, .any⟩]⟩,
  -- SEC_STATUS
  ⟨0x40b00200, 1, 0x4, 1, 0x4, [⟨0, 1, .ro, 0, .any⟩, ⟨1, 1, .ro, 0, .any⟩, ⟨2, 2, .ro, 0, .any⟩, ⟨4, 4, .ro, 0, .any⟩, ⟨8, 8, .ro, 0, .any⟩, ⟨16, 8, .ro, 0, .any⟩, ⟨24, 4, .ro, 0, .any⟩, ⟨28, 1, .w1c, 0, .any⟩, ⟨29, 1, .w1c, 0, .any⟩]⟩,
  -- SEC_ROLL0
  ⟨0x40b00204, 1, 0x4, 1, 0x4, [⟨0, 6, .ro, 0, .any⟩, ⟨6, 6, .ro, 0, .any⟩, ⟨12, 6, .ro, 0, .any⟩, ⟨18, 6, .ro, 0, .any⟩, ⟨24, 6, .ro, 0, .any⟩]⟩,
  -- SEC_ROLL1
  ⟨0x40b00208, 1, 0x4, 1, 0x4, [⟨0, 6, .ro, 0, .any⟩, ⟨6, 6, .ro, 0, .any⟩, ⟨12, 6, .ro, 0, .any⟩, ⟨18, 6, .ro, 0, .any⟩, ⟨24, 6, .ro, 0, .any⟩]⟩,
  -- SEC_KEYS
  ⟨0x40b0020c, 1, 0x4, 1, 0x4, [⟨0, 4, .ro, 0, .any⟩, ⟨4, 4, .ro, 0, .any⟩]⟩,
  -- SEC_CMD
  ⟨0x40b00210, 1, 0x4, 1, 0x4, [⟨0, 1, .wo, 0, .any⟩, ⟨1, 1, .wo, 0, .any⟩, ⟨2, 2, .wo, 0, .any⟩, ⟨4, 4, .wo, 0, .range 0 8⟩, ⟨16, 16, .wo, 0, .any⟩]⟩]

/-- Register rows of the HLT tables. -/
def hltRows : List RegRow := [
  -- HLT_CFG
  ⟨0x40c00000, 1, 0x4, 1, 0x4, [⟨0, 1, .rwl, 0, .any⟩, ⟨16, 16, .rw, 0x3c, .range 1 65535⟩]⟩,
  -- IMG_BASE
  ⟨0x40c00004, 1, 0x4, 1, 0x4, [⟨0, 32, .rwl, 0x12000000, .step 0x100000 0x11000000 0x17F00000⟩]⟩,
  -- HLT_IMG_ST
  ⟨0x40c00008, 1, 0x4, 1, 0x4, [⟨0, 16, .ro, 0, .any⟩, ⟨16, 15, .ro, 0, .any⟩, ⟨31, 1, .w1c, 0, .any⟩]⟩,
  -- MON_CFG
  ⟨0x40c00010, 1, 0x4, 1, 0x4, [⟨0, 16, .rw, 0xe10, .range 1 65535⟩]⟩,
  -- MON_DLIM
  ⟨0x40c00014, 1, 0x4, 1, 0x4, [⟨0, 32, .rw, 0x3d23d70a, .f32 (.within 1 0x3F7FFFFF)⟩]⟩,
  -- MON_NEXP
  ⟨0x40c00018, 1, 0x4, 1, 0x4, [⟨0, 32, .rw, 0x3e4ccccd, .f32 (.within 1 0x3F800000)⟩]⟩,
  -- AGE_H
  ⟨0x40c0001c, 1, 0x4, 1, 0x4, [⟨0, 32, .rw, 0, .any⟩]⟩,
  -- HLT_CHIP
  ⟨0x40c00020, 1, 0x4, 1, 0x4, [⟨0, 32, .ro, 0xffffffff, .any⟩]⟩,
  -- HLT_CHIP_ST
  ⟨0x40c00024, 1, 0x4, 1, 0x4, [⟨0, 4, .ro, 0, .any⟩, ⟨4, 1, .ro, 0, .any⟩, ⟨16, 16, .rw, 0x721, .any⟩]⟩,
  -- HLT_MON
  ⟨0x40c00040, 16, 0x4, 1, 0x4, [⟨0, 16, .ro, 0, .any⟩]⟩,
  -- HARM_CFG
  ⟨0x40c00100, 6, 0x20, 1, 0x4, [⟨0, 1, .rw, 0, .any⟩]⟩,
  -- HP_G
  ⟨0x40c00104, 6, 0x20, 1, 0x4, [⟨0, 32, .rw, 0x447a0000, .f32 .nonnegFin⟩]⟩,
  -- HARM_ST
  ⟨0x40c00108, 6, 0x20, 1, 0x4, [⟨0, 11, .ro, 0, .any⟩, ⟨16, 11, .ro, 0, .any⟩]⟩,
  -- HARM_WORST
  ⟨0x40c0010c, 6, 0x20, 1, 0x4, [⟨0, 16, .ro, 0xffff, .any⟩, ⟨16, 16, .ro, 0xffff, .any⟩]⟩,
  -- HLT_RANK
  ⟨0x40c00200, 6, 0x20, 8, 0x4, [⟨0, 16, .ro, 0xffff, .any⟩, ⟨16, 16, .ro, 0xffff, .any⟩]⟩]

/-- Register rows of the GPIO tables. -/
def gpioRows : List RegRow := [
  -- GPIO_OUT_LO
  ⟨0x40f00000, 1, 0x4, 1, 0x4, [⟨0, 32, .rw, 0, .any⟩]⟩,
  -- GPIO_OUT_HI
  ⟨0x40f00004, 1, 0x4, 1, 0x4, [⟨0, 32, .rw, 0, .any⟩]⟩,
  -- EVT_STATUS
  ⟨0x40f00010, 1, 0x4, 1, 0x4, [⟨0, 9, .ro, 0, .any⟩, ⟨16, 16, .ro, 0, .any⟩]⟩,
  -- EVT_HEAD0
  ⟨0x40f00014, 1, 0x4, 1, 0x4, [⟨0, 32, .ro, 0, .any⟩]⟩,
  -- EVT_HEAD1
  ⟨0x40f00018, 1, 0x4, 1, 0x4, [⟨0, 32, .ro, 0, .any⟩]⟩,
  -- EVT_HEAD2
  ⟨0x40f0001c, 1, 0x4, 1, 0x4, [⟨0, 16, .ro, 0, .any⟩, ⟨16, 6, .ro, 0, .any⟩, ⟨22, 1, .ro, 0, .any⟩, ⟨23, 1, .ro, 0, .any⟩, ⟨24, 1, .ro, 0, .any⟩]⟩,
  -- EVT_NEXT
  ⟨0x40f00020, 1, 0x4, 1, 0x4, [⟨0, 1, .wo, 0, .any⟩]⟩,
  -- GPIO_CFG
  ⟨0x40f01000, 64, 0x10, 1, 0x4, [⟨0, 1, .rwl, 0, .any⟩, ⟨1, 1, .rwl, 0, .any⟩, ⟨2, 2, .rw, 0, .any⟩, ⟨4, 10, .rw, 0x19, .any⟩]⟩,
  -- GPIO_RATE
  ⟨0x40f01004, 64, 0x10, 1, 0x4, [⟨0, 4, .rw, 0, .any⟩, ⟨16, 16, .rw, 0x3e8, .range 1 65535⟩]⟩,
  -- GPIO_STUCK
  ⟨0x40f01008, 64, 0x10, 1, 0x4, [⟨0, 16, .rw, 0, .any⟩]⟩,
  -- GPIO_STATUS
  ⟨0x40f0100c, 64, 0x10, 1, 0x4, [⟨0, 1, .ro, 0, .any⟩, ⟨1, 1, .ro, 0, .any⟩, ⟨2, 1, .ro, 0, .any⟩, ⟨3, 1, .ro, 0, .any⟩, ⟨4, 1, .w1c, 0, .any⟩, ⟨5, 1, .ro, 0, .any⟩, ⟨6, 1, .w1c, 0, .any⟩, ⟨16, 16, .ro, 0, .any⟩]⟩]

/-- Register rows of the SAFE tables, part 1. -/
def safeRows0 : List RegRow := [
  -- SAFE_STATE
  ⟨0x41000000, 1, 0x4, 1, 0x4, [⟨0, 3, .ro, 0, .any⟩, ⟨3, 1, .ro, 0, .any⟩, ⟨4, 1, .ro, 1, .any⟩, ⟨5, 1, .ro, 1, .any⟩, ⟨6, 1, .ro, 1, .any⟩, ⟨7, 1, .ro, 0, .any⟩, ⟨8, 1, .ro, 0, .any⟩, ⟨9, 1, .ro, 0, .any⟩, ⟨10, 1, .ro, 0, .any⟩, ⟨12, 4, .ro, 0, .any⟩]⟩,
  -- SAFE_DEMAND
  ⟨0x41000004, 1, 0x4, 1, 0x4, [⟨0, 8, .ro, 0, .any⟩, ⟨8, 8, .ro, 0, .any⟩, ⟨16, 1, .ro, 0, .any⟩, ⟨17, 1, .ro, 0, .any⟩, ⟨18, 1, .ro, 0, .any⟩, ⟨19, 1, .ro, 0, .any⟩, ⟨20, 1, .ro, 1, .any⟩, ⟨21, 1, .ro, 0, .any⟩]⟩,
  -- SAFE_LATCH
  ⟨0x41000008, 1, 0x4, 1, 0x4, [⟨0, 8, .ro, 0, .any⟩, ⟨8, 8, .ro, 0, .any⟩, ⟨16, 1, .ro, 0, .any⟩, ⟨17, 1, .ro, 0, .any⟩, ⟨18, 1, .ro, 0, .any⟩, ⟨19, 1, .ro, 0, .any⟩, ⟨20, 1, .ro, 1, .any⟩, ⟨21, 1, .ro, 0, .any⟩]⟩,
  -- SAFE_PCRC
  ⟨0x4100000c, 1, 0x4, 1, 0x4, [⟨0, 32, .ro, 0, .any⟩]⟩,
  -- SAFE_DIAG
  ⟨0x41000010, 1, 0x4, 1, 0x4, [⟨0, 16, .ro, 0, .any⟩, ⟨16, 8, .ro, 0, .any⟩, ⟨24, 1, .ro, 0, .any⟩]⟩,
  -- SAFE_RST
  ⟨0x41000014, 1, 0x4, 1, 0x4, [⟨0, 1, .rws, 1, .any⟩, ⟨8, 1, .ro, 0, .any⟩, ⟨16, 16, .ro, 0, .any⟩]⟩,
  -- SAFE_NET
  ⟨0x41000018, 1, 0x4, 1, 0x4, [⟨0, 16, .rws, 0x15f5, .range 1 65535⟩]⟩,
  -- SI_CFG
  ⟨0x41000100, 8, 0x10, 1, 0x4, [⟨0, 2, .rws, 0, .any⟩, ⟨2, 3, .rws, 4, .range 0 4⟩, ⟨5, 3, .rws, 4, .range 0 4⟩, ⟨8, 1, .rws, 1, .any⟩, ⟨9, 1, .rws, 0, .any⟩, ⟨10, 1, .rws, 0, .any⟩, ⟨11, 1, .rws, 0, .any⟩, ⟨16, 5, .rws, 2, .range 0 20⟩, ⟨21, 10, .rws, 0x64, .range 5 1000⟩]⟩,
  -- SI_STATUS
  ⟨0x41000104, 8, 0x10, 1, 0x4, [⟨0, 1, .ro, 0, .any⟩, ⟨1, 1, .ro, 0, .any⟩, ⟨2, 1, .ro, 0, .any⟩, ⟨3, 1, .ro, 0, .any⟩, ⟨4, 1, .ro, 0, .any⟩, ⟨5, 1, .ro, 0, .any⟩, ⟨6, 1, .ro, 0, .any⟩, ⟨7, 1, .ro, 0, .any⟩, ⟨8, 1, .ro, 0, .any⟩, ⟨9, 2, .ro, 0, .any⟩, ⟨11, 2, .ro, 0, .any⟩, ⟨13, 1, .ro, 0, .any⟩, ⟨16, 16, .ro, 0, .any⟩]⟩,
  -- TP_CFG
  ⟨0x41000180, 1, 0x4, 1, 0x4, [⟨0, 10, .rws, 0x64, .range 10 1000⟩, ⟨16, 5, .rws, 6, .range 2 20⟩, ⟨24, 7, .rws, 0xa, .range 0 100⟩]⟩,
  -- TP_STATUS
  ⟨0x41000184, 1, 0x4, 1, 0x4, [⟨0, 4, .ro, 0, .any⟩, ⟨4, 4, .ro, 0, .any⟩]⟩,
  -- MATE
  ⟨0x41000188, 1, 0x4, 1, 0x4, [⟨0, 1, .rws, 0, .any⟩, ⟨1, 1, .ro, 0, .any⟩, ⟨2, 1, .ro, 0, .any⟩, ⟨3, 1, .ro, 0, .any⟩]⟩,
  -- SO_CFG
  ⟨0x41000200, 2, 0x20, 1, 0x4, [⟨0, 2, .rws, 0, .range 0 2⟩, ⟨2, 1, .rws, 0, .any⟩, ⟨3, 1, .rws, 0, .any⟩, ⟨4, 8, .rws, 0x1e, .range 1 200⟩, ⟨16, 7, .rws, 0x14, .range 5 100⟩]⟩,
  -- SO_TEST
  ⟨0x41000204, 2, 0x20, 1, 0x4, [⟨0, 12, .rws, 0x3c, .range 1 3600⟩, ⟨12, 4, .rws, 6, .range 2 10⟩]⟩,
  -- SO_STATUS
  ⟨0x41000208, 2, 0x20, 1, 0x4, [⟨0, 1, .ro, 0, .any⟩, ⟨1, 1, .ro, 0, .any⟩, ⟨2, 1, .ro, 0, .any⟩, ⟨3, 1, .ro, 0, .any⟩, ⟨4, 1, .ro, 0, .any⟩, ⟨5, 1, .ro, 0, .any⟩, ⟨6, 1, .ro, 0, .any⟩, ⟨7, 1, .ro, 0, .any⟩, ⟨8, 1, .ro, 0, .any⟩, ⟨9, 1, .ro, 0, .any⟩, ⟨16, 16, .ro, 0, .any⟩]⟩,
  -- SBC_CFG
  ⟨0x41000280, 1, 0x4, 1, 0x4, [⟨0, 1, .rws, 0, .any⟩, ⟨1, 1, .rws, 0, .any⟩, ⟨2, 3, .rws, 0, .any⟩, ⟨8, 8, .rws, 0, .any⟩]⟩,
  -- BT_CFG
  ⟨0x41000284, 1, 0x4, 1, 0x4, [⟨0, 10, .rws, 0, .any⟩, ⟨10, 6, .rws, 8, .any⟩, ⟨16, 8, .rws, 0x14, .range 1 100⟩, ⟨24, 3, .rws, 0, .any⟩]⟩,
  -- BT_STATUS
  ⟨0x41000288, 1, 0x4, 1, 0x4, [⟨0, 1, .ro, 0, .any⟩, ⟨1, 1, .ro, 0, .any⟩, ⟨2, 1, .ro, 0, .any⟩, ⟨3, 1, .ro, 0, .any⟩, ⟨4, 1, .ro, 0, .any⟩, ⟨16, 16, .ro, 0, .any⟩]⟩,
  -- CONN_CFG
  ⟨0x41000400, 8, 0x40, 1, 0x4, [⟨0, 1, .rws, 0, .any⟩, ⟨1, 1, .rws, 0, .any⟩, ⟨2, 1, .rws, 0, .any⟩, ⟨3, 1, .rws, 0, .any⟩, ⟨4, 1, .rws, 0, .any⟩, ⟨5, 1, .rws, 1, .any⟩, ⟨6, 1, .rws, 0, .any⟩, ⟨7, 1, .rws, 1, .any⟩, ⟨16, 16, .rws, 0, .any⟩]⟩,
  -- CONN_TIME
  ⟨0x41000404, 8, 0x40, 1, 0x4, [⟨0, 8, .rws, 0xa, .range 1 255⟩, ⟨8, 16, .rws, 0x1e, .range 2 65535⟩, ⟨24, 8, .rws, 0x14, .range 1 255⟩]⟩,
  -- CONN_SEED
  ⟨0x41000408, 8, 0x40, 1, 0x4, [⟨0, 32, .rws, 0, .any⟩]⟩,
  -- CONN_CAN
  ⟨0x4100040c, 8, 0x40, 1, 0x4, [⟨0, 29, .rws, 0, .any⟩, ⟨29, 1, .rws, 0, .any⟩]⟩,
  -- CONN_STATE
  ⟨0x41000410, 8, 0x40, 1, 0x4, [⟨0, 2, .ro, 0, .any⟩, ⟨16, 16, .ro, 0, .any⟩]⟩,
  -- CONN_ERR
  ⟨0x41000414, 8, 0x40, 1, 0x4, [⟨0, 8, .ro, 0, .any⟩, ⟨8, 8, .ro, 0, .any⟩, ⟨16, 8, .ro, 0, .any⟩, ⟨24, 8, .ro, 0, .any⟩]⟩]

/-- Register rows of the SAFE tables, part 2. -/
def safeRows1 : List RegRow := [
  -- CONN_SEQ
  ⟨0x41000418, 8, 0x40, 1, 0x4, [⟨0, 32, .ro, 0, .any⟩]⟩,
  -- CONN_DATA
  ⟨0x41000420, 8, 0x40, 8, 0x4, [⟨0, 32, .ro, 0, .any⟩]⟩,
  -- PT_STATUS
  ⟨0x41000800, 1, 0x4, 1, 0x4, [⟨0, 1, .ro, 0, .any⟩, ⟨8, 8, .ro, 0, .any⟩, ⟨16, 9, .ro, 0, .any⟩]⟩,
  -- PT_CRC
  ⟨0x41000804, 1, 0x4, 1, 0x4, [⟨0, 32, .ro, 0, .any⟩]⟩,
  -- PT_LAST
  ⟨0x41000808, 1, 0x4, 1, 0x4, [⟨0, 8, .ro, 0, .any⟩, ⟨8, 8, .ro, 0, .any⟩, ⟨16, 8, .ro, 0, .any⟩]⟩]

/-- Register rows of the SAFE tables. -/
def safeRows : List RegRow := safeRows0 ++ safeRows1

/-- Register rows of the SYS tables, part 1. -/
def sysRows0 : List RegRow := [
  -- DEV_STATE
  ⟨0x41100000, 1, 0x4, 1, 0x4, [⟨0, 4, .ro, 1, .any⟩, ⟨4, 4, .ro, 0, .any⟩, ⟨8, 3, .ro, 3, .any⟩, ⟨11, 1, .ro, 0, .any⟩, ⟨12, 1, .ro, 0, .any⟩, ⟨13, 1, .ro, 0, .any⟩, ⟨14, 1, .ro, 0, .any⟩]⟩,
  -- STATE_CMD
  ⟨0x41100004, 1, 0x4, 1, 0x4, [⟨0, 8, .wo, 0, .any⟩, ⟨16, 16, .wo, 0, .any⟩]⟩,
  -- STATE_CAUSE
  ⟨0x41100008, 1, 0x4, 1, 0x4, [⟨0, 8, .ro, 1, .any⟩, ⟨8, 8, .ro, 0, .any⟩, ⟨16, 8, .ro, 0, .any⟩]⟩,
  -- TRANS_PERIOD
  ⟨0x4110000c, 1, 0x4, 1, 0x4, [⟨0, 32, .ro, 0, .any⟩]⟩,
  -- ENERGISE_CFG
  ⟨0x41100020, 1, 0x4, 1, 0x4, [⟨0, 12, .rwl, 0xc8, .any⟩, ⟨12, 11, .rwl, 0, .range 0 1024⟩, ⟨23, 1, .rwl, 0, .any⟩, ⟨24, 8, .rwl, 0x64, .range 20 255⟩]⟩,
  -- DISCHARGE_CFG
  ⟨0x41100024, 1, 0x4, 1, 0x4, [⟨0, 12, .rwl, 0x32, .any⟩]⟩,
  -- DRYDOWN_CFG
  ⟨0x41100028, 1, 0x4, 1, 0x4, [⟨0, 16, .rwl, 0x3e8, .range 1 65535⟩, ⟨16, 8, .rwl, 0x10, .range 1 255⟩]⟩,
  -- DRY_ILIM
  ⟨0x4110002c, 1, 0x4, 1, 0x4, [⟨0, 32, .rwl, 0x42480000, .f32 .nonnegFin⟩]⟩,
  -- DRY_STATUS
  ⟨0x41100030, 1, 0x4, 1, 0x4, [⟨0, 6, .ro, 0, .any⟩, ⟨6, 2, .ro, 0, .any⟩, ⟨8, 1, .ro, 0, .any⟩]⟩,
  -- ST_SUMMARY
  ⟨0x41100040, 1, 0x4, 1, 0x4, [⟨0, 1, .ro, 0, .any⟩, ⟨1, 1, .ro, 0, .any⟩, ⟨2, 1, .ro, 0, .any⟩, ⟨3, 1, .ro, 0, .any⟩, ⟨4, 1, .ro, 0, .any⟩, ⟨5, 1, .ro, 0, .any⟩, ⟨6, 1, .ro, 0, .any⟩, ⟨7, 1, .ro, 0, .any⟩, ⟨8, 3, .ro, 0, .any⟩, ⟨11, 1, .ro, 0, .any⟩, ⟨12, 4, .ro, 0, .any⟩, ⟨16, 16, .ro, 0, .any⟩]⟩,
  -- ST_ISLAND
  ⟨0x41100044, 1, 0x4, 1, 0x4, [⟨0, 18, .ro, 0, .any⟩]⟩,
  -- ST_BANK
  ⟨0x41100048, 1, 0x4, 1, 0x4, [⟨0, 32, .ro, 0, .any⟩]⟩,
  -- ST_LANE_LO
  ⟨0x4110004c, 1, 0x4, 1, 0x4, [⟨0, 32, .ro, 0, .any⟩]⟩,
  -- ST_LANE_HI
  ⟨0x41100050, 1, 0x4, 1, 0x4, [⟨0, 16, .ro, 0, .any⟩, ⟨16, 2, .ro, 0, .any⟩, ⟨18, 4, .ro, 0, .any⟩, ⟨22, 1, .ro, 0, .any⟩, ⟨23, 1, .ro, 0, .any⟩]⟩,
  -- ST_REF
  ⟨0x41100054, 1, 0x4, 1, 0x4, [⟨0, 1, .ro, 0, .any⟩, ⟨1, 1, .ro, 0, .any⟩, ⟨2, 1, .ro, 0, .any⟩, ⟨3, 1, .ro, 0, .any⟩, ⟨4, 1, .ro, 0, .any⟩]⟩,
  -- ST_SAFE
  ⟨0x41100058, 1, 0x4, 1, 0x4, [⟨0, 1, .ro, 0, .any⟩, ⟨1, 1, .ro, 0, .any⟩, ⟨2, 1, .ro, 0, .any⟩, ⟨3, 1, .ro, 0, .any⟩, ⟨4, 1, .ro, 0, .any⟩, ⟨5, 1, .ro, 0, .any⟩]⟩,
  -- PERIOD_CFG
  ⟨0x41100100, 1, 0x4, 1, 0x4, [⟨0, 9, .rwl, 0x14, .range 20 400⟩, ⟨16, 14, .rwl, 0x168, .range 50 9935⟩]⟩,
  -- LAYOUT_0
  ⟨0x41100104, 1, 0x4, 1, 0x4, [⟨0, 16, .ro, 0, .any⟩, ⟨16, 16, .ro, 0, .any⟩]⟩,
  -- LAYOUT_1
  ⟨0x41100108, 1, 0x4, 1, 0x4, [⟨0, 16, .ro, 0, .any⟩, ⟨16, 16, .ro, 0, .any⟩]⟩,
  -- CE_DEMAND
  ⟨0x4110010c, 1, 0x4, 1, 0x4, [⟨0, 18, .ro, 0, .any⟩]⟩,
  -- CE_WINDOW
  ⟨0x41100110, 1, 0x4, 1, 0x4, [⟨0, 18, .ro, 0, .any⟩]⟩,
  -- STRAND_WORST
  ⟨0x41100114, 1, 0x4, 1, 0x4, [⟨0, 14, .ro, 0, .any⟩, ⟨16, 6, .ro, 0, .any⟩]⟩,
  -- FIT_STATUS
  ⟨0x41100118, 1, 0x4, 1, 0x4, [⟨0, 1, .ro, 0, .any⟩, ⟨1, 1, .ro, 0, .any⟩, ⟨2, 1, .ro, 0, .any⟩, ⟨3, 1, .ro, 0, .any⟩, ⟨4, 1, .ro, 0, .any⟩]⟩,
  -- IF_VER
  ⟨0x41100200, 1, 0x4, 1, 0x4, [⟨0, 8, .ro, 0x10, .any⟩, ⟨8, 8, .ro, 0x13, .any⟩, ⟨16, 8, .ro, 0, .any⟩, ⟨24, 1, .ro, 0, .any⟩]⟩]

/-- Register rows of the SYS tables, part 2. -/
def sysRows1 : List RegRow := [
  -- IF_VER
  ⟨0x41100204, 2, 0x4, 1, 0x4, [⟨0, 8, .ro, 0x10, .any⟩, ⟨8, 8, .ro, 0x11, .any⟩, ⟨16, 8, .ro, 0, .any⟩, ⟨24, 1, .ro, 0, .any⟩]⟩,
  -- IF_VER
  ⟨0x4110020c, 1, 0x4, 1, 0x4, [⟨0, 8, .ro, 0x10, .any⟩, ⟨8, 8, .ro, 0x12, .any⟩, ⟨16, 8, .ro, 0, .any⟩, ⟨24, 1, .ro, 0, .any⟩]⟩,
  -- OD_NET_IP
  ⟨0x41100300, 2, 0xc, 1, 0x4, [⟨0, 32, .rwl, 0, .any⟩]⟩,
  -- OD_NET_MASK
  ⟨0x41100304, 2, 0xc, 1, 0x4, [⟨0, 32, .rwl, 0, .any⟩]⟩,
  -- OD_NET_GW
  ⟨0x41100308, 2, 0xc, 1, 0x4, [⟨0, 32, .rwl, 0, .any⟩]⟩,
  -- OD_UDP
  ⟨0x41100318, 1, 0x4, 1, 0x4, [⟨0, 16, .rwl, 0x15f4, .range 1 65535⟩, ⟨16, 8, .rw, 0x3c, .range 1 255⟩, ⟨24, 4, .ro, 0, .any⟩, ⟨28, 4, .ro, 0, .any⟩]⟩,
  -- OD_SP_SRC
  ⟨0x4110031c, 1, 0x4, 1, 0x4, [⟨0, 32, .rw, 0, .any⟩]⟩,
  -- OD_CAN
  ⟨0x41100320, 1, 0x4, 1, 0x4, [⟨0, 7, .rwl, 1, .range 1 127⟩, ⟨8, 2, .rwl, 2, .any⟩, ⟨10, 3, .rwl, 2, .range 0 4⟩, ⟨13, 1, .rwl, 1, .any⟩, ⟨14, 1, .rwl, 1, .any⟩, ⟨16, 16, .rw, 0, .any⟩]⟩,
  -- OD_STORE
  ⟨0x41100324, 1, 0x4, 1, 0x4, [⟨0, 1, .ro, 0, .any⟩, ⟨1, 1, .ro, 0, .any⟩, ⟨2, 1, .w1c, 0, .any⟩, ⟨3, 1, .ro, 0, .any⟩, ⟨16, 16, .ro, 0, .any⟩]⟩,
  -- OD_REPLAY
  ⟨0x41100328, 1, 0x4, 1, 0x4, [⟨0, 13, .ro, 0, .any⟩, ⟨13, 1, .w1c, 0, .any⟩, ⟨14, 1, .wo, 0, .any⟩, ⟨16, 16, .ro, 0, .any⟩]⟩,
  -- SAFE_PEER_A
  ⟨0x41100340, 8, 0x8, 1, 0x4, [⟨0, 32, .rwl, 0, .any⟩]⟩,
  -- SAFE_PEER_B
  ⟨0x41100344, 8, 0x8, 1, 0x4, [⟨0, 32, .rwl, 0, .any⟩]⟩]

/-- Register rows of the SYS tables. -/
def sysRows : List RegRow := sysRows0 ++ sysRows1

end Sys2Proof.Machine
end

