-- ==== Sys2Proof/Machine/State.lean ====
section
/-! DEFINITION. The state of the block as plain data: the register banks of the KC8400 and of its cells, and beside them
what the spec gives each unit that no register shows. -/

namespace Sys2Proof.Machine

/-- The ways the model can stop with a fault: none. A wrong access is answered by the block itself (R5, R591), so no
command ends in a fault; the type has no constructor, which is safe. -/
inductive Fault
  deriving DecidableEq, Repr

/-- The ways the model can decline a command. -/
inductive Refusal where
  /-- Raised by an arm of exec whose command has no meaning yet; safe, since the run stops. -/
  | notModelled (mnemonic : String)
  deriving DecidableEq, Repr

/-- What the block sends or answers, as its peers see it. -/
inductive Emission where
  /-- a strand frame leaves a port of the KC8400 -/
  | frame (port : Nat) (bytes : List Byte)
  /-- an ordered set with data bytes D1 to D3 leaves a strand port of the KC8400 -/
  | orderedSet (port : Nat) (d1 d2 d3 : Nat)
  /-- a frame or ordered set leaves port 0 P, 1 Q or 2 D of a cell -/
  | cellFrame (cell port : Nat) (bytes : List Byte)
  | cellSet (cell port : Nat) (d1 d2 d3 : Nat)
  /-- a tie message (R323) leaves a tie lane -/
  | tie (lane : Nat) (bytes : List Byte)
  /-- the IMAGE messages of R316 leave lane 1: the mirrored words, by address, that differ from their reset values; every
  other mirrored word goes at its reset value -/
  | image (words : List (Nat × Nat))
  /-- a frame leaves accord port 0 to 3 -/
  | accord (port : Nat) (bytes : List Byte)
  /-- an ordered set leaves tie lane 0 or 1, or accord port 0 to 3 -/
  | tieSet (lane d1 d2 d3 : Nat)
  | accordSet (port d1 d2 d3 : Nat)
  /-- a frame leaves station port 0 NETA or 1 NETB -/
  | station (port : Nat) (bytes : List Byte)
  /-- a PTP message of a type leaves a station port with its sequenceId and the clockClass announced (R354) -/
  | ptp (port type seq cls : Nat)
  /-- a UDP payload leaves a station port for an address and port -/
  | udp (port ip dst : Nat) (bytes : List Byte)
  /-- a CAN FD frame leaves a port -/
  | can (port id : Nat) (bytes : List Byte)
  /-- the answer to an access: data read or 0, and the abort code, 0 for success -/
  | reply (data abort : Nat)
  /-- the answer to an object access: index, sub-index, value read and abort code (R531) -/
  | object (client : Client) (index sub : Nat) (value : List Byte) (abort : Nat)
  /-- a station port answers an ARP request for its address, and an ICMP echo request (R541) -/
  | arp (port ip asker : Nat)
  | echo (port ip : Nat) (bytes : List Byte)
  /-- a bus error response -/
  | busError (addr : Nat)
  /-- a 100 ns pulse on SYNCO of a cell, or on LVL_SYNC_OUT -/
  | synco (cell : Nat)
  | syncOut
  /-- an interrupt to a hart -/
  | irq (hart number : Nat)
  deriving DecidableEq, Repr



/-- A commanded transition that has been accepted and has not taken effect (R32): its command code, the state it leads
to, and the period number at whose boundary it takes effect, absent while an accord has not fixed it. -/
structure Pend where
  cmd : Nat
  target : Nat
  atPeriod : Option Nat
  deriving DecidableEq, Repr

/-- The cell preparation of R38: the first committed period P_1, its boundary t_1, when ENERGISE was accepted, and the
cells that count as not available for it. -/
structure Prep where
  p1 : Nat
  t1 : Nat
  accepted : Nat
  dropped : List Nat
  deriving DecidableEq, Repr

/-- The dry-down beyond DRY_STATUS (R55 to R57). -/
structure Dry where
  /-- consecutive periods with every arm at or below DRY_ILIM -/
  count : Nat
  /-- t0 must follow this instant for the first counted period, and the timeout runs from it -/
  accepted : Nat
  /-- arms whose last sample was above and below 0, one bit each -/
  above : Nat
  below : Nat
  /-- arms that block at the next boundary, one bit each -/
  reversed : Nat
  deriving DecidableEq, Repr

structure Sys where
  /-- level of SYS_RST_N -/
  rstHigh : Bool
  /-- supplies outside their monitor windows, one bit each -/
  supplyBad : Nat
  /-- level of the PAIR_ID strap, sampled at the rising edge of SYS_RST_N -/
  pairId : Bool
  /-- the self-test runs; its steps end with SELF_TEST_END or SELF_TEST_TIMEOUT -/
  selfTest : Bool
  /-- secure start runs after the self-test -/
  secure : Bool
  /-- self-tests ended since power-on -/
  runCount : Nat
  /-- period number P, the time of its boundary t0, and the mode epoch -/
  period : Nat
  t0 : Nat
  epoch : Nat
  /-- epoch that the last command headers launched before the present period carried (R41) -/
  echoEpoch : Nat
  /-- epoch carried by the command headers of the present period, once launched -/
  sentEpoch : Nat
  /-- the committed layout is in force; otherwise the maintenance period of R30 -/
  committed : Bool
  /-- no frame leaves from t_m to t_1 (R38) -/
  quiet : Bool
  /-- the maintenance boundaries of the cells are to be restored (R38) -/
  restore : Bool
  /-- t_LE of the present period has passed (R32) -/
  leDone : Bool
  /-- the registers as they stood at the last commit (R25) -/
  com : NMap Word
  pend : Option Pend
  prep : Option Prep
  dry : Dry
  /-- the interrupt lines BLOCK path of the island into STR (R29) -/
  hardBlock : Bool
  deriving DecidableEq, Repr

/-- After power-on, with SYS_RST_N high and the supplies good: the self-test runs. -/
def Sys.reset : Sys :=
  { rstHigh := true, supplyBad := 0, pairId := false, selfTest := true, secure := false, runCount := 0,
    period := 0, t0 := 0, epoch := 0, echoEpoch := 0, sentEpoch := 0, committed := false, quiet := false, restore := false, leDone := false,
    com := [], pend := none, prep := none, dry := ⟨0, 0, 0, 0, 0⟩, hardBlock := true }


/-- The live values of a context (R90) and what else it keeps. An element list may be shorter than its dimension; an
absent element is +0.0. -/
structure Ctx where
  xhat : List Nat
  v : List Nat
  out : List Nat
  uol : List Nat
  h : List Nat
  y : List Nat
  r : List Nat
  ff : List Nat
  frep : List Nat
  e : List Nat
  /-- last fresh raw value of each measurement (R111) -/
  raws : NMap (Option Nat)
  /-- measurements named by COAST_CMD for the next window -/
  drop : Nat
  back : Nat
  /-- measurements that a detection dropped for the next window, with the cause -/
  found : List (Nat × Nat)
  /-- measurements that return from the next evaluation -/
  pass : Nat
  /-- the present coast has reached its limit -/
  limited : Bool
  deriving DecidableEq, Repr

def Ctx.reset : Ctx :=
  { xhat := [], v := [], out := [], uol := [], h := [], y := [], r := [], ff := [], frep := [], e := [], raws := [],
    drop := 0, back := 0, found := [], pass := 0, limited := false }

/-- A set-point channel beyond SP_OUT and SP_STATUS (R95, R97). -/
structure SpC where
  target : Nat
  first : Bool
  deriving DecidableEq, Repr

def SpC.reset : SpC := { target := 0, first := true }

/-- A GO of SWAP_CMD that waits (R84): the contexts selected, what to do, and the period whose window does it. -/
structure SwapC where
  sel : List Nat
  swap : Bool
  load : Bool
  atPeriod : Nat
  deriving DecidableEq, Repr

structure Ctl where
  ctx : NMap Ctx
  sp : NMap SpC
  /-- channels whose SP_VALUE has been written, and slots for which a message has come, since the last input gathering -/
  spNew : List Nat
  slotNew : List Nat
  /-- last good value of each station-Ethernet slot -/
  slotVal : NMap Nat
  /-- coefficient words, by (2 × context + page) × 2048 + word -/
  coef : NMap Word
  /-- contexts that CTL_INJECT marked for the next window -/
  inject : List Nat
  swap : Option SwapC
  /-- contexts that load X0 in the next window -/
  load : List Nat
  /-- loop index that won each group in the last window -/
  winner : NMap (Option Nat)
  /-- phase index of each table, by 4 × context + table -/
  phase : NMap Nat
  /-- no window since entry to ENERGISED from CONFIGURED -/
  first : Bool
  /-- a numeric event has arisen in the window (R70) -/
  num : Bool
  /-- enabled contexts in the order of R75, from the last commit -/
  order : List Nat
  deriving DecidableEq, Repr

def Ctl.reset : Ctl :=
  { ctx := [], sp := [], spNew := [], slotNew := [], slotVal := [], coef := [], inject := [], swap := none, load := [],
    winner := [], phase := [], first := true, num := false, order := [] }


/-- What a cell samples at one strobe for its estimators (R500, R502): current and capacitor voltage in binary32, the signed
insertion at t0, neither result marked, and the cell switching. -/
structure Strobe where
  i : Nat
  v : Nat
  sig : Int
  good : Bool
  run : Bool
  deriving DecidableEq, Repr

/-- The health estimators of a cell beyond its registers (R500 to R508). -/
structure HealthC where
  /-- signed inserted time of the present period up to `insAt`, in ns, and of the last closed period -/
  ins : Int
  insAt : Nat
  avg : Int
  /-- σ_t0 of the present period; the cell ran at its strobe -/
  sig : Int
  run : Bool
  /-- a trip or gate-fault latch was set in the present period, and in the last closed one -/
  tripped : Bool
  wasTripped : Bool
  /-- strobes of the present and of the last period -/
  cur : Option Strobe
  prev : Option Strobe
  /-- gates driven on from t0 of the present period -/
  on0 : Nat
  /-- on-state voltages by switch of the present period and of the last one, and the last 256 valid samples, oldest first -/
  von : NMap Nat
  vonPrev : NMap Nat
  win : NMap (List Nat)
  /-- rainflow: extreme of the present run in Q9.6, its direction 0 none, 1 up, 2 down, and the reversals, newest first -/
  ext : Option Int
  dir : Nat
  stack : List Int
  /-- where the next entry of the daily history goes -/
  histAt : Nat
  deriving DecidableEq, Repr

def HealthC.reset : HealthC :=
  { ins := 0, insAt := 0, avg := 0, sig := 0, run := false, tripped := false, wasTripped := false, cur := none, prev := none,
    on0 := 0, von := [], vonPrev := [], win := [], ext := none, dir := 0, stack := [], histAt := 0 }



/-- A mailbox request as it stands in header bytes 12 to 27 (R204). -/
structure MbReq where
  op : Nat
  seq : Nat
  pos : Nat
  bc : Bool
  path : Nat
  addr : Nat
  data : Nat
  orig : Nat
  deriving DecidableEq, Repr

/-- A response that a cell owes, and the period from whose collection frames on it is due (R207); the result code and
data go with the request's own fields. -/
structure MbRsp where
  req : MbReq
  result : Nat
  data : Nat
  due : Nat
  deriving DecidableEq, Repr

/-- A command record with the header that delivered it (R141, R193). -/
structure Rec where
  header : List Byte
  body : List Byte
  deriving DecidableEq, Repr

/-- The strand side of a cell beyond its registers (R182 to R236, R307 to R309). Ports are 0 P, 1 Q, 2 D. -/
structure LinkC where
  /-- ports with block lock, and ports whose segment has trained, one bit each -/
  locks : Nat
  trained : Nat
  /-- the upstream port of R216, and the reference port of R308 -/
  up : Option Nat
  ref : Option Nat
  /-- the position came from a tail's TS_UP (R215) -/
  fromTail : Bool
  dualUp : Bool
  /-- the direction is the high side (R307) -/
  high : Bool
  /-- version of the upstream TS_UP, and the version of the sub-strand's members -/
  upVer : Nat
  /-- 32 bytes of the last good command header; empty before the first -/
  header : List Byte
  /-- a good command header has arrived since the last training (R192) -/
  headerSince : Bool
  /-- period count, and whether a good header has set it since training (R202) -/
  period : Nat
  counted : Bool
  /-- MAINT of the previous good header -/
  maint : Bool
  /-- EPOCH of the last command header with a good HCRC, as the status slot echoes it -/
  epoch : Nat
  /-- sides with a good command header of the present period, bit 0 low, bit 1 high -/
  got : Nat
  /-- good records of the present period by side -/
  recLow : Option Rec
  recHigh : Option Rec
  /-- the record that t_H chose for the next boundary (R17, R307) -/
  next : Option Rec
  /-- time of the last good frame (R51) -/
  lastGood : Nat
  /-- the cell originated the upstream frame of this period (R192) -/
  originated : Bool
  /-- the request taken and not yet executed -/
  inbox : Option MbReq
  /-- last request executed for each ORIG, with its response (R210) -/
  done0 : Option MbRsp
  done1 : Option MbRsp
  /-- responses waiting for a collection frame -/
  owed : List MbRsp
  /-- collection frames of the present period that carried the first response owed, bit 0 downstream, bit 1 upstream -/
  sentOn : Nat
  /-- a request for a member that waits for the next sub-strand command frame (R229) -/
  subReq : Option MbReq
  /-- the slots of the members in the last sub-strand collection frame, by member index; only good ones -/
  members : NMap (List Byte)
  deriving DecidableEq, Repr

/-- The cell's time and boundaries beyond the registers (R362, R363). -/
structure TimeC where
  /-- TM_NOW is T64 plus this, in units of 1/256 ns -/
  off : Nat
  /-- PER and FRAC of the armed load are in TM_CTL; the load waits -/
  armed : Bool
  /-- next boundary, 32-bit ns, and the step in force in 0.5 µs -/
  bound : Nat
  step : Nat
  layout : Bool
  /-- TM_BOUND written and not yet reached -/
  pend : Option Nat
  deriving DecidableEq, Repr

/-- The switching unit beyond its registers (R154 to R181). Gates are bits GH1, GL1, GH2, GL2. -/
structure PwmC where
  /-- time of the boundary t_b -/
  tb : Nat
  /-- entries of the record that plays, E0 first, with N_PRED; header BLOCK aside -/
  entries : List Nat
  nPred : Nat
  /-- entry index being played; 4 once the horizon is out -/
  ix : Nat
  /-- gates the entry demands, before masks -/
  demand : Nat
  /-- gates that wait for their dead time -/
  wait : Nat
  /-- time each gate last turned off -/
  offAt : List Nat
  /-- part ends of a PWM entry still to come: ticks after t_b and the class code demanded from there on -/
  parts : List (Nat × Nat)
  /-- time of the last boundary at which the carrier started, valley offset included (R165) -/
  carAt : Nat
  /-- legs whose turn-on R166 suppressed or holds, bits leg 1 and leg 2 -/
  skip : Nat
  /-- arm-current sign in force, true for +1; and while open, the sign at opening and the boundaries since -/
  pos : Bool
  opened : Option (Bool × Nat)
  /-- the opening was begun by COASTING (R595) -/
  coastOpen : Bool
  /-- ticks after t_b at which masks open -/
  openAt : Option Nat
  /-- a bypass has been started and BYP waits for BYP_DLY -/
  bypassing : Bool
  byp : Bool
  /-- gates are held off by R176 until the next boundary -/
  held : Bool
  /-- until when a gate stays on by STRETCH of R166 -/
  stretch : List Nat
  /-- TC differed from the committed step at the last boundary (R155) -/
  tcBad : Bool
  /-- the word of PWM_SYNC at the last carrier start, whose TOL and COMP are in force (R181) -/
  sync : Nat
  deriving DecidableEq, Repr

/-- The measurement unit beyond its registers (R241 to R269). -/
structure AdcC where
  /-- injected requests: channel and urgent -/
  inj : List (Nat × Bool)
  /-- Z of the last ZERO step, its channel -/
  zero : Option (Nat × Int)
  /-- step running: 1 ZERO or 2 FULL, channel, REF, number of conversions, sum of raw codes -/
  cal : Option (Nat × Nat × Nat × Nat × Int)
  /-- conversions that are still to carry SUSPECT (R259), and the end of the last over-range one -/
  suspect : Nat
  ovrEnd : Option Nat
  /-- channels that have delivered a result since reset, 16-bit code of the last by channel -/
  have' : Nat
  codes : NMap Nat
  /-- codes held by the group at the last strobe, by element -/
  group : List Nat
  /-- element of the sequence that runs next; a conversion was aborted -/
  elem : Nat
  aborted : Bool
  /-- open-wire: periods since the last test, reference code, run of counting tests, by channel -/
  owPer : NMap Nat
  owRun : NMap Nat
  owOn : Option Nat
  /-- the previous regular result of the trigger channel not marked SUSPECT (R431) -/
  prev : Option Nat
  /-- the words that act from a strobe on, as they stood at the last strobe (R267, R431, R509) -/
  held : NMap Word
  deriving DecidableEq, Repr

/-- The status that a cell latches once per period, its trigger and its counters (R197, R431 to R433). -/
structure StatusC where
  /-- bytes 0 to 13 of the status slot and 0 to 5 of the sillage slot -/
  slot : List Byte
  sillage : List Byte
  aux : Nat
  silSeq : Nat
  /-- fire to report with the next status, and whether a fire was taken since the last latch -/
  fire : Option Nat
  holdoff : Nat
  deriving DecidableEq, Repr

structure Cell where
  /-- register words that differ from their reset words, by KS210 address -/
  regs : NMap Word
  /-- state code of R50 -/
  mode : Nat
  /-- the supervisor holds reset (R51) -/
  down : Bool
  stFail : Bool
  /-- CFG_BRIDGE strap -/
  bridge : Bool
  /-- latched class of each latched source (R424) -/
  cls : NMap Nat
  armed : Bool
  lk : LinkC
  tm : TimeC
  pw : PwmC
  ad : AdcC
  sl : StatusC
  hl : HealthC
  deriving DecidableEq, Repr

def LinkC.reset : LinkC :=
  { locks := 0, trained := 0, up := none, ref := none, fromTail := false, dualUp := false, high := false, upVer := 0,
    header := [], headerSince := false, period := 0, counted := false, maint := false, epoch := 0, got := 0,
    recLow := none, recHigh := none, next := none, lastGood := 0, originated := false, inbox := none, done0 := none,
    done1 := none, owed := [], sentOn := 0, subReq := none, members := [] }

def TimeC.reset : TimeC := { off := 0, armed := false, bound := 0, step := 200, layout := false, pend := none }

def PwmC.reset : PwmC :=
  { tb := 0, entries := [], nPred := 0, ix := 4, demand := 0, wait := 0, offAt := [0, 0, 0, 0], parts := [],
    carAt := 0, skip := 0, pos := true, opened := none, coastOpen := false, openAt := none,
    bypassing := false, byp := false, held := false, stretch := [0, 0, 0, 0], tcBad := false, sync := 4 }

def AdcC.reset : AdcC :=
  { inj := [], zero := none, cal := none, suspect := 0, ovrEnd := none, have' := 0, codes := [], group := [], elem := 0,
    aborted := false, owPer := [], owRun := [], owOn := none, prev := none, held := [] }

def StatusC.reset : StatusC :=
  { slot := List.replicate 14 0#8, sillage := List.replicate 6 0#8, aux := 0, silSeq := 0, fire := none, holdoff := 0 }

/-- A cell whose supply has not come up: its supervisor holds RESET. -/
def Cell.reset : Cell :=
  { regs := [], mode := 0, down := true, stFail := false, bridge := false, cls := [], armed := true, lk := LinkC.reset,
    tm := TimeC.reset, pw := PwmC.reset, ad := AdcC.reset, sl := StatusC.reset, hl := HealthC.reset }



/-- What a mailbox transaction of the KC8400 serves (R211): software, the partner, enumeration (R219), the expected
layout and time of a cell, the preparation of R38, the joining of R223, the health image, the replay list or an object
access. -/
inductive Tag where
  | soft
  | partner
  /-- identity item of a position, or of the member that a PATH names -/
  | item (pos path item : Nat)
  /-- LNK_STATUS of a position, where the number of cells is not known -/
  | below (pos : Nat)
  | accept (pos path : Nat)
  /-- TM_SEG and TM_FWD of a position -/
  | seg (pos : Nat)
  | fwd (pos : Nat)
  /-- a write without more to do when it ends -/
  | plain
  /-- a broadcast of R38, sent in two consecutive maintenance periods -/
  | prepAll
  /-- a step of R38 for a cell, with the value a READ must return -/
  | prep (cell : Nat) (want : Option Nat) (last : Bool)
  /-- a step of R223 for a cell -/
  | join (cell : Nat) (last : Bool)
  /-- HCTL of a cell read before its health image is saved or restored; a word of it read, and one written back (R514, R515) -/
  | imageFresh (cell : Nat) (save : Bool)
  | imageRead (cell : Nat) (word : Nat)
  | imageWrite (cell : Nat) (last : Bool)
  /-- the poll of CAL_STATUS after a FULL step, and the read of its CAL_c (R537) -/
  | calPoll (cell : Nat)
  | calRead (cell ch : Nat)
  /-- a cell access of an object job (R534): stage 0 a read, 1 the read and 2 the write of a field, 3 a broadcast; with the
  mask and value of the fields written -/
  | object (job stage addr mask value : Nat)
  /-- the read and the write that replay an entry for a cell (R536) -/
  | replayRead (cell addr mask value : Nat)
  | replayWrite (cell : Nat)
  /-- the broadcast of ALIGN after a realignment of the carriers (R148) -/
  | align
  deriving DecidableEq, Repr

/-- A transaction asked for, its SEQ not yet given. -/
structure Own where
  tag : Tag
  req : MbReq
  /-- DATA is formed when the transaction opens: 1 TM_LOAD, 2 TM_CTL, 3 TM_BOUND -/
  late : Nat
  deriving DecidableEq, Repr

/-- An open transaction (R211). -/
structure Txn where
  tag : Tag
  req : MbReq
  /-- it goes into the next command frame -/
  ready : Bool
  /-- period number whose collection frames should answer it -/
  due : Nat
  tries : Nat
  deriving DecidableEq, Repr

/-- An enumeration walk (R219): targets still to visit as position and PATH, items read of the present one, number of
cells where known, highest version so far and the position that set it, and the last position that answered. -/
structure Walk where
  work : List (Nat × Nat)
  items : List Nat
  n : Nat
  ver : Nat
  limit : Option Nat
  last : Option Nat
  deriving DecidableEq, Repr

/-- What enumeration learned of a position: item 4 and delays in units of 10 ps. -/
structure CellInfo where
  compound : Nat
  seg : Nat
  fwdPq : Nat
  fwdQp : Nat
  upQ : Bool
  deriving DecidableEq, Repr

structure Port where
  /-- launch queue: frame type and instant after t0 in units of 10 ns -/
  queue : List (Nat × Nat)
  seq : Nat
  txn : Option Txn
  own : List Own
  partner : List MbReq
  /-- header bytes 12 to 31 of a response frame that has arrived and is not yet matched -/
  rsp : Option (List Byte)
  walk : Option Walk
  info : NMap CellInfo
  /-- version that the first cell stated in TS_DN, in force until enumeration sets the running one -/
  ver0 : Nat
  /-- period of the time load last formed, and its FRAC (R362) -/
  loadP : Nat
  loadFrac : Nat
  /-- cells whose joining failed and waits for its retry, as position and PATH (R223) -/
  joinFailed : List (Nat × Nat)
  /-- D_strand was found above D_S at a re-training in service (R26) -/
  out : Bool
  /-- positions whose status slot was good in the present period, and in the last one -/
  good : List Nat
  goodLast : List Nat
  /-- the collection frame of the present period has been received complete -/
  gotFrame : Bool
  /-- positions of the present period whose slot came as a copy from the partner or through a tail frame (R296, R312) -/
  viaTail : List Nat
  /-- positions last reached through tail frames -/
  beyond : List Nat
  deriving DecidableEq, Repr

def CellInfo.none : CellInfo := { compound := 1, seg := 0, fwdPq := 0, fwdQp := 0, upQ := false }

def Port.reset : Port :=
  { queue := [], seq := 0, txn := .none, own := [], partner := [], rsp := .none, walk := .none, info := [], ver0 := 0x10, loadP := 0, loadFrac := 0, joinFailed := [],
    out := false, good := [], goodLast := [], gotFrame := false, viaTail := [], beyond := [] }

/-- A delay measurement between DLY_REQ and DLY_RSP (R360): the sequence number out, exchanges done and the sum of their
round trips in units of 10 ps; and as responder the D2 to answer. -/
structure Dly where
  out : Option Nat
  done : Nat
  sum : Nat
  answer : Option Nat
  deriving DecidableEq, Repr


/-- What the KC8400 keeps of a cell (R123 to R138, R197, R426, R511). -/
structure View where
  /-- kept class and source, and TRIP, GFLT and BYPF of the last good slot -/
  cls : Nat
  src : Nat
  trip : Nat
  gflt : Bool
  bypf : Bool
  rises : Nat
  /-- last value of each AUX item received -/
  items : NMap Nat
  /-- bytes 0 to 13 of the last good status slot; empty before the first -/
  slot : List Byte
  /-- that slot echoed the epoch in force (R41) -/
  epochOk : Bool
  /-- bytes 0 to 5 of the sillage slot of the present period; empty where it is lost -/
  sil : List Byte
  missed : Nat
  hp : Nat
  swc : Nat
  /-- state of entry 0 of the last record, absent before the first build -/
  last : Option Nat
  /-- consecutive records with PWM in entry 0 -/
  pwmRun : Nat
  /-- for each of its keys: admitted, consecutive qualifying periods, and eligible at the last test -/
  admitted : List Bool
  runAdmit : List Nat
  bypReq : Bool
  /-- consecutive periods of stale epoch echo (R346) -/
  stale : Nat
  eligible : List Bool
  cause : Nat
  vpred : Nat
  rotBar : Bool
  deriving DecidableEq, Repr

def View.reset : View :=
  { cls := 0, src := 0, trip := 0, gflt := false, bypf := false, rises := 0, items := [], slot := [], epochOk := false,
    sil := [], missed := 0, hp := 0, swc := 0, last := none, pwmRun := 0, admitted := [], runAdmit := [], bypReq := false,
    stale := 0, eligible := [], cause := 0, vpred := 0, rotBar := false }

/-- What an arm carries from one build to the next (R128 to R130, R139). -/
structure ArmL where
  uPrev : Nat
  /-- n* of the previous period; absent on entry to ENERGISED and while the arm is blocked -/
  nPrev : Option Nat
  iPrev : Option Nat
  /-- the sign s is -1 -/
  neg : Bool
  /-- the slot of an eligible key was missing when the aggregates were formed last (R72) -/
  aggStale : Bool
  deriving DecidableEq, Repr

def ArmL.reset : ArmL := { uPrev := 0, nPrev := none, iPrev := none, neg := false, aggStale := false }

structure Lvl where
  /-- 14-byte records built last, by strand port × 128 + position -/
  records : NMap (List Byte)
  /-- number of keys of each arm, and the key index of a cell by strand port × 128 + position, of the last commit -/
  keys : List Nat
  keyOf : NMap Nat
  /-- levels of a cell as declared before the last commit -/
  levels : NMap Nat
  /-- P_align of R147, and the value that takes effect at the next boundary -/
  pAlign : Nat
  alignNext : Option Nat
  /-- the last edge on LVL_SYNC_IN was an error -/
  syncErr : Bool
  views : NMap View
  arms : NMap ArmL
  /-- header BLOCK of the last command frames launched -/
  sentBlock : Bool
  /-- a bad status slot or collection header in the present period -/
  slotBad : Bool
  /-- the switching counts have been halved in the present period where they are due -/
  decayed : Bool
  deriving DecidableEq, Repr

def Lvl.reset : Lvl :=
  { records := [], keys := [], keyOf := [], levels := [], pAlign := 0, alignNext := none, syncErr := false, views := [],
    arms := [], sentBlock := true, slotBad := false, decayed := false }

/-- One event of the event FIFO (R282): edge time in ns of the 80-bit time. -/
structure Evt where
  time : Nat
  line : Nat
  rise : Bool
  release : Bool
  deriving DecidableEq, Repr

structure Inp where
  /-- SAR configuration and calibration words in force, by 2 × converter + (0 or 1), and those that wait for the next t0
  but one (R274) -/
  sarForce : NMap Word
  sarWait : NMap Word
  /-- bits of each decimator since its last fault or configuration change, newest first, at most one longest span -/
  sdBits : NMap (List Bool)
  /-- the level whose run is a modulator fault that has not ended -/
  sdRun : NMap (Option Bool)
  /-- filtered levels of the pulse pins, one bit per input -/
  piA : Nat
  piB : Nat
  /-- stamps of accepted rising edges in units of 10 ns, oldest first (R280) -/
  piTimes : NMap (List Nat)
  /-- times of the last filtered edges of a line, oldest first, and since when it has been active (R283, R284) -/
  edges : NMap (List Nat)
  since : NMap (Option Nat)
  fifo : List Evt
  deriving DecidableEq, Repr

def Inp.reset : Inp :=
  { sarForce := [], sarWait := [], sdBits := [], sdRun := [], piA := 0, piB := 0, piTimes := [], edges := [], since := [],
    fifo := [] }


/-- What an INPUT message gives the partner's engines for its period (R296, R325). -/
structure Shadow where
  sar : List Nat
  sd : List Nat
  pi : List Nat
  /-- freshness bits -/
  sarFresh : Nat
  sdFresh : Nat
  piFresh : Nat
  /-- set-point updates: channel and raw value -/
  points : List (Nat × Nat)
  deriving DecidableEq, Repr

/-- What a HEALTH report counts since the last one (R319). -/
structure Since where
  memBad : Bool
  injBad : Bool
  unexplained : Bool
  regions : Nat
  corrected : Nat
  injections : Nat
  compared : Nat
  mismatches : Nat
  deriving DecidableEq, Repr

structure Tie where
  /-- the unit has yielded under R301 and holds YIELD_OUT until RESET (R302) -/
  yielded : Bool
  /-- frames of the period in which it yielded still leave (R301) -/
  lastPeriod : Bool
  /-- it yielded under a unit-side Trip while its partner was not ready (R417) -/
  tripYield : Bool
  /-- its self-diagnosis has failed as STANDBY or RELAY (R302) -/
  selfBad : Bool
  /-- running tie version, major in bits 7 to 4 -/
  ver : Nat
  /-- time at which the link went down; absent while it is up -/
  downSince : Option Nat
  /-- time of the last entry to SAFE HOLD, TIE_WAIT taken there in ms, and whether the unit has held a role other than
  RELAY or yielded since (R291) -/
  safeAt : Nat
  wait : Nat
  held : Bool
  /-- a CONTROL YIELD has arrived since the last boundary; true for a planned switch -/
  yieldMsg : Option Bool
  /-- boundaries with YIELD_IN high while a lane has lock and the partner's messages carry YIELD = 0, and whether the pin is
  ignored until it reads low (R304) -/
  yieldHigh : Nat
  yieldIgnored : Bool
  /-- YIELD of the partner's last message -/
  partYield : Bool
  /-- tail ports with a good command header of the present period; consecutive periods without and with one, by port -/
  tailGot : List Nat
  tailMiss : NMap Nat
  tailRun : NMap Nat
  /-- a command slot or event at a tail differed from the unit's own in the present period; the period has been judged -/
  tailDiff : Bool
  judged : Bool
  /-- body of the unit's own DIGEST of the present period; empty before -/
  digest : List Byte
  /-- body of the partner's DIGEST of the present period; empty before -/
  partDigest : List Byte
  /-- the turn period after a takeover, in which no collection frame leaves -/
  turn : Bool
  /-- the present period is a bridge period (R298), and how many ran in a row before it -/
  bridge : Bool
  bridgeRun : Nat
  /-- inputs of the ACTIVE for the present period; absent in a bridge period -/
  shadow : Option Shadow
  /-- LVLW of the present period has arrived -/
  lvlw : Bool
  /-- mirrored writes that the next INPUT and the next LVLW carry: address and data -/
  outInput : List (Nat × Nat)
  outLvlw : List (Nat × Nat)
  /-- the unit joins; it has taken the ACTIVE's state; a complete sweep cycle has been followed by a matching DIGEST -/
  joining : Bool
  shadowing : Bool
  matched : Bool
  /-- a planned switch waits for t_LE; the unit was the ACTIVE of one; a DEMOTE waits for the boundary -/
  switch : Bool
  planned : Bool
  demote : Bool
  /-- next chunk of the sweep that an ACTIVE sends -/
  sweepAt : Nat
  /-- reports of the partner missed in a row -/
  healthMiss : Nat
  since : Since
  deriving DecidableEq, Repr

def Since.reset : Since :=
  { memBad := false, injBad := false, unexplained := false, regions := 0, corrected := 0, injections := 0,
    compared := 0, mismatches := 0 }

def Tie.reset : Tie :=
  { yielded := false, lastPeriod := false, tripYield := false, selfBad := false, ver := 0, downSince := some 0, safeAt := 0,
    wait := 0, held := false, yieldMsg := none, yieldHigh := 0, yieldIgnored := false, partYield := false, tailGot := [],
    tailMiss := [], tailRun := [], tailDiff := false, judged := false, digest := [], partDigest := [], turn := false, bridge := false,
    bridgeRun := 0, shadow := none, lvlw := false, outInput := [], outLvlw := [], joining := false, shadowing := false,
    matched := false, switch := false, planned := false, demote := false, sweepAt := 0, healthMiss := 0, since := Since.reset }


/-- A mode change that a unit has staged (R341): its command, the new epoch, DEADLINE, the terms of R24 of the levels
above in ns, P_1 for ENERGISE, the first refusal code known, 0 for none, and whether the unit has acknowledged. -/
structure Staged where
  cmd : Nat
  epoch : Nat
  deadline : Nat
  above : Nat
  p1 : Nat
  code : Nat
  acked : Bool
  deriving DecidableEq, Repr

structure Acd where
  /-- accord aggregates by slot as last received, binary32; when the frame of each arrived in the present period, in ns
  after t0; and the slots whose value is fresh -/
  agg : NMap Nat
  arrived : NMap Nat
  fresh : List Nat
  /-- ABOVE of the last ENERGISE: the terms of R24 of the levels that other pairs lead, in ns -/
  above : Nat
  staged : Option Staged
  /-- P_act of the change committed -/
  pAct : Option Nat
  /-- frames due at the next t_ML: STAGE, COMMIT, and CANCEL with its code -/
  stageDue : Bool
  commitDue : Bool
  cancelDue : Option Nat
  /-- good AGG frames of the present period, by 8 × level + member, and good DIST frames, by level -/
  aggGot : List Nat
  distGot : List Nat
  /-- periods in a row without a good AGG and DIST (R340) -/
  aggMiss : NMap Nat
  distMiss : NMap Nat
  /-- members heard in the present period, and maintenance periods in a row with frames of each, by 8 × level + member -/
  heard : List Nat
  heardRun : NMap Nat
  /-- lead that each member reports, by 8 × level + member -/
  leads : NMap Nat
  /-- epoch and state that a DIST gives for the next boundary (R344) -/
  follow : Option (Nat × Nat)
  /-- an AGG or DIST has reported FAULT-BLOCK (R345) -/
  fault : Bool
  deriving DecidableEq, Repr

def Acd.reset : Acd :=
  { agg := [], arrived := [], fresh := [], above := 0, staged := none, pAct := none, stageDue := false, commitDue := false, cancelDue := none, aggGot := [],
    distGot := [], aggMiss := [], distMiss := [], heard := [], heardRun := [], leads := [], follow := none, fault := false }


/-- A transmit stamp (R358): time in ns, sequenceId and messageType. -/
structure Stamp where
  time : Nat
  seq : Nat
  type : Nat
  deriving DecidableEq, Repr

/-- An entry of a station launch queue (R359). -/
structure LaunchE where
  addr : Nat
  len : Nat
  time : Nat
  deriving DecidableEq, Repr

structure Tim where
  /-- words of a time that a read of its nanoseconds has latched, by register address -/
  latch : NMap Nat
  /-- a follower has a value for the upper bits of the period number (R350) -/
  valid : Bool
  /-- holdover has outlasted HOLD_LIM: HOLD_CLASS is announced -/
  limit : Bool
  /-- transmit stamps of a port, oldest first -/
  stamps : NMap (List Stamp)
  /-- launch queue of a port, head first -/
  queue : NMap (List LaunchE)
  /-- sequenceId of the next event message that a port sends of its own -/
  seq : NMap Nat
  deriving DecidableEq, Repr

def Tim.reset : Tim := { latch := [], valid := false, limit := false, stamps := [], queue := [], seq := [] }


/-- A telegram copy that waits for its partner from the other network (R399). -/
structure Held where
  seq : Nat
  net : Nat
  bytes : List Byte
  at' : Nat
  deriving DecidableEq, Repr

/-- A safe connection beyond its registers (R396 to R402). -/
structure ConnI where
  held : List Held
  /-- when the last pair was accepted, or the connection entered WAIT -/
  since : Nat
  /-- sequence number of the next telegram sent -/
  tx : Nat
  /-- payload of a parameter response that replaces the next cyclic telegram -/
  rsp : Option (List Byte)
  /-- an accepted cyclic pair has come since the connection entered WAIT; BTEST of the last one -/
  data : Bool
  btest : Bool
  /-- RESET pressed since, and whether that press has been called stuck -/
  press : Option Nat
  stuck : Bool
  deriving DecidableEq, Repr

def ConnI.reset : ConnI :=
  { held := [], since := 0, tx := 0, rsp := none, data := false, btest := false, press := none, stuck := false }

structure Isl where
  /-- the hardware monitor of R370 holds the BLOCK path and the outputs -/
  monitor : Bool
  /-- consecutive cycles of disagreement of each input -/
  disc : NMap Nat
  /-- inputs whose channels agreed throughout the press, one bit each: by connection, 8 for SRST_N -/
  agree : NMap Nat
  press : Option Nat
  stuck : Bool
  /-- test pulses whose excluded window is open, one bit each -/
  excl : Nat
  /-- unfiltered samples before the dark pulse, and channels found low at the check instant, bits A and B of each input -/
  pre : Nat
  low : Nat
  /-- inputs and test pulses with a failed check in the present blotter cycle and in the last complete one -/
  badNow : Nat
  badLast : Nat
  tpNow : Nat
  tpLast : Nat
  /-- since when Safe Brake Control is active, and whether SBC_DLY has passed -/
  sbcAt : Option Nat
  sbcBlock : Bool
  /-- DEV_STATE.STATE as last read on the STATE lines -/
  dev : Nat
  /-- SAFE_MOA and SAFE_MOB toggle -/
  mateOut : Bool
  /-- switch under test of each output, true for the low side -/
  test : NMap (Option Bool)
  /-- brake test: 0 none, 1 waiting for the feedback, 2 step 3; and the standstill input has demanded in step 3 -/
  bt : Nat
  btBad : Bool
  conns : NMap ConnI
  /-- entries of the open transaction in staging order: offset and value -/
  staged : List (Nat × Nat)
  /-- a committed set waits for the end of the cycle -/
  commit : Option (List (Nat × Nat))
  /-- the set in the exchange area, and the copy that the resident firmware stores (R404, R496) -/
  area : Option (List (Nat × Nat))
  stored : Option (List (Nat × Nat))
  deriving DecidableEq, Repr

def Isl.reset : Isl :=
  { monitor := false, disc := [], agree := [], press := none, stuck := false, excl := 0, pre := 0, low := 0, badNow := 0,
    badLast := 0, tpNow := 0, tpLast := 0, sbcAt := none, sbcBlock := false, dev := 0, mateOut := false, test := [], bt := 0,
    btBad := false, conns := [], staged := [], commit := none, area := none, stored := none }

structure Flt where
  /-- event times of a source's escalation history in µs, oldest first (R413) -/
  hist : NMap (List Nat)
  /-- the first-error capture waits for a source (R420) -/
  armed : Bool
  /-- time of the captured latch, seconds words latched by a read of its nanoseconds -/
  firstTime : Nat
  /-- sources with an event since the last evaluation of the trigger sequencer (R439) -/
  events : List Nat
  deriving DecidableEq, Repr

def Flt.reset : Flt := { hist := [], armed := true, firstTime := 0, events := [] }



/-- A record under way (R441, R446, R447). Rows are numbered from the first after ARM. -/
structure RecA where
  cause : Nat
  pTrig : Nat
  /-- time of the t0 of P_trig -/
  time : Nat
  /-- rows before the trigger row; number of the trigger row, of the last row, and of the next row to copy -/
  pre : Nat
  trig : Nat
  last : Nat
  next : Nat
  slot : Nat
  /-- flags of header byte 35 -/
  flags : Nat
  dead : Nat
  missed : Nat
  early : Nat
  /-- AE when the record began -/
  ae : Nat
  deriving DecidableEq, Repr

/-- An entry of the mark log (R451). -/
structure MarkA where
  period : Nat
  cause : Nat
  outcome : Nat
  deriving DecidableEq, Repr

structure Acq where
  /-- handles of the recorded cells in row order, fixed by ARM -/
  cells : List Nat
  /-- rows written since ARM, and since the fill began -/
  total : Nat
  fill : Nat
  /-- count and timer of the sequencer state -/
  cnt : Nat
  tmr : Nat
  /-- FORCE waits for the evaluation -/
  force : Bool
  /-- last fresh value of each row value, and of each sequencer state's source -/
  vals : NMap Nat
  prev : NMap (Option Nat)
  /-- context outputs delivered at the last evaluation, by 8 × context + output, where a value names them -/
  outs : NMap Nat
  /-- lines active at the last evaluation -/
  lines : List Nat
  /-- state entered at the boundary of the present period -/
  entered : Option Nat
  rec' : Option RecA
  /-- the record is copied whole and its close waits for the members; members that have reported CLOSED -/
  closed : Bool
  closedBy : List Nat
  /-- a DISARM in CLOSE -/
  disarm : Bool
  /-- P_arm of the first row in an accord -/
  armAt : Option Nat
  /-- requests of members: period and cause (R450) -/
  reqs : List (Nat × Nat)
  /-- a record has closed since ARM; missed and early triggers since then; the next slot -/
  had : Bool
  missed : Nat
  early : Nat
  dead : Nat
  slot : Nat
  marks : List MarkA
  deriving DecidableEq, Repr

def Acq.reset : Acq :=
  { cells := [], total := 0, fill := 0, cnt := 0, tmr := 0, force := false, vals := [], prev := [], outs := [], lines := [],
    entered := none, rec' := none, closed := false, closedBy := [], disarm := false, armAt := none, reqs := [], had := false,
    missed := 0, early := 0, dead := 0, slot := 0, marks := [] }


/-- An item: its eight words, and when it was pushed (R461, R459). -/
structure Item where
  words : List Nat
  pushed : Nat
  deriving DecidableEq, Repr

/-- A filled prefetch slot of a hart (R466). -/
structure SlotI where
  slot : Nat
  queue : Nat
  item : Item
  deriving DecidableEq, Repr

/-- A push that stalls its master (R464). -/
structure StallI where
  master : Nat
  queue : Nat
  words : List Nat
  deriving DecidableEq, Repr

structure Sch where
  /-- items of each queue; R462 gives them no order -/
  queues : NMap (List Item)
  /-- filled slots of each hart, oldest first; the queue each was last filled from -/
  slots : NMap (List SlotI)
  lastQ : NMap Nat
  /-- staging words and push result of each master, and item words of each hart -/
  staged : NMap (List Nat)
  pushSt : NMap (Nat × Nat)
  item : NMap (List Nat)
  stalls : List StallI
  /-- harts stalled in SCH_GET_WAIT -/
  waiting : List Nat
  /-- time of the last injection into each pair -/
  injAt : NMap (Option Nat)
  /-- partitions suspended until the next t0 -/
  suspended : List Nat
  /-- trace ring in force since EN was set, and when the writer last took an entry -/
  trcBase : Nat
  trcSize : Nat
  trcAt : Option Nat
  cntHold : NMap Nat
  /-- strobe time of the snapshot in progress; the single timed snapshot has been taken -/
  snapAt : Nat
  snapDone : Bool
  deriving DecidableEq, Repr

def Sch.reset : Sch :=
  { queues := [], slots := [], lastQ := [], staged := [], pushSt := [], item := [], stalls := [], waiting := [], injAt := [],
    suspended := [], trcBase := 0, trcSize := 0, trcAt := none, cntHold := [], snapAt := 0, snapDone := false }


structure Mem where
  /-- SRAM and DDR4 bytes by address; an unlisted one reads 0 -/
  bytes : NMap Byte
  /-- the background test runs in a region; a start waits for a region, or for the end of the level engine window -/
  testing : Bool
  startWaits : Bool
  /-- when the present pass began -/
  passAt : Nat
  /-- DDR4 initialisation runs; refresh at the high rate -/
  ddrInit : Bool
  fastRefresh : Bool
  /-- security versions of the images that run, by TYPE -/
  svn : NMap Nat
  /-- fuses being programmed: a counter and its new value, and a key slot -/
  roll : Option (Nat × Nat)
  revoke : Option Nat
  /-- user partitions stopped by the code check until RESET, one bit each -/
  stopped : Nat
  deriving DecidableEq, Repr

def Mem.reset : Mem :=
  { bytes := [], testing := false, startWaits := false, passAt := 0, ddrInit := false, fastRefresh := false, svn := [], roll := none,
    revoke := none, stopped := 0 }


structure Hlt where
  /-- words read so far for the image entry of a cell, in address order, by extended address (R514) -/
  image : NMap (List Nat)
  deriving DecidableEq, Repr

def Hlt.reset : Hlt := { image := [] }


/-- One object access (R529, R530, R545, R547): index, sub-index, the SELECT it brings (0: the session's), the value it
writes, the length in bytes that a CAN FD client gave it, and offset, length and data of a domain access. -/
structure ObjAccess where
  index : Nat
  sub : Nat
  select : Nat
  write : Bool
  data : Nat
  len : Option Nat
  dom : Option (Nat × Nat × List Byte)
  deriving DecidableEq, Repr

/-- What an access came to: the object, the abort code or 0, and the value read, little-endian. -/
structure Answer where
  index : Nat
  sub : Nat
  abort : Nat
  value : List Byte
  /-- the value is extended by its sign -/
  signed : Bool
  deriving DecidableEq, Repr

/-- What a job waits for. -/
inductive Wait where
  | ready
  /-- answers still to come from mailboxes, and the value and abort code so far -/
  | mail (left value abort : Nat)
  /-- an ODRSP with a transaction tag, for the first accesses of the rest -/
  | routed (tag count : Nat)
  /-- the store, until its copy is written and read back -/
  | store
  deriving DecidableEq, Repr

/-- How a request came and how its answer goes out: one object access, a CANopen FD request, a UDP datagram with its OP,
SEQ, network and source, or an ODREQ with OP, SEQ, level, sender's member index and tag. -/
inductive Form where
  | single
  | usdo
  | udp (op seq net ip port : Nat)
  | routed (op seq level member tag : Nat)
  deriving DecidableEq, Repr

/-- A request in service (R533). -/
structure Job where
  id : Nat
  client : Client
  form : Form
  /-- offset and length of a DREAD or DWRITE -/
  range : Option (Nat × Nat)
  rest : List ObjAccess
  done : List Answer
  /-- an access has ended with an abort, so those that follow are not executed (R545) -/
  failed : Bool
  wait : Wait
  deriving DecidableEq, Repr

/-- A staged companion (R530): the register address, the cell it lies in where it is one of 2500h, the field and its value. -/
structure Stage where
  cell : Nat
  addr : Nat
  lo : Nat
  width : Nat
  value : Nat
  deriving DecidableEq, Repr

/-- A session (R533, R544): SELECT by index, CELL once it is set, staged companions; its SESSION; for UDP its version and
network; the last request's SEQ and response (R546); the last SETPOINT SEQ (R548). -/
structure Session where
  client : Client
  id : Nat
  ver : Nat
  net : Nat
  select : NMap Nat
  cell : Option Nat
  staged : List Stage
  last : Option (Nat × Option (List Byte))
  spSeq : Option Nat
  deriving DecidableEq, Repr

/-- An entry of the replay list (R536): extended address, or 2^64 for all cells; register address, field mask, value. -/
structure Replay where
  scope : Nat
  addr : Nat
  mask : Nat
  value : Nat
  deriving DecidableEq, Repr

/-- A stored copy (R538): the area it stands in, its register words, and its replay list. -/
structure Copy where
  area : Nat
  words : List (Nat × Nat)
  replay : List Replay
  deriving DecidableEq, Repr

structure Od where
  sessions : List Session
  /-- SESSION given last -/
  lastId : Nat
  jobs : List Job
  lastJob : Nat
  /-- transaction tag of the last ODREQ (R331) -/
  lastTag : Nat
  /-- answers from mailboxes that jobs have not taken: job, abort code, word -/
  answers : List (Nat × Nat × Nat)
  replay : List Replay
  /-- cells whose FULL calibration step is polled (R537) -/
  calDue : List Nat
  /-- good stored copies, newest first, in the boot flash (R538) -/
  copies : List Copy
  /-- the copies are erased at the next entry to SAFE HOLD (R539) -/
  loadPend : Bool
  deriving DecidableEq, Repr

def Od.reset : Od :=
  { sessions := [], lastId := 0, jobs := [], lastJob := 0, lastTag := 0, answers := [], replay := [], calDue := [],
    copies := [], loadPend := false }

/-- The state of the block. -/
structure State where
  /-- commands that wait, first in, first out -/
  pending : List Instr
  /-- the 80-bit time as a count of nanoseconds, T64 of R349 -/
  now : Nat
  /-- its fraction below a nanosecond, in units of 10^-12 ns -/
  nowFrac : Nat
  /-- free values drawn so far (the model's own, log entry 2) -/
  draws : Nat
  /-- register words of the KC8400 that differ from their reset words, by byte address -/
  regs : NMap Word
  /-- what the block has sent, newest first -/
  sent : List Emission
  /-- device state machine, period timer and pins beyond the registers (R28 to R59) -/
  sys : Sys
  /-- control engine, set-points, competition, repetitive tables and feedback beyond the registers (R60 to R119) -/
  ctl : Ctl
  /-- the KS210 cells and members, by extended address (R224) with KC index 0; an unlisted one is as `Cell.reset` -/
  cells : NMap Cell
  /-- what each strand port holds beyond its registers (R191, R211, R219 to R223) -/
  ports : NMap Port
  /-- delay measurements, by link end (R360) -/
  dly : NMap Dly
  /-- level engine beyond the registers (R118 to R153) -/
  lvl : Lvl
  /-- central inputs beyond the registers (R270 to R286) -/
  inp : Inp
  /-- tie link, YIELD pins, takeover and joining beyond the registers (R287 to R326) -/
  tie : Tie
  /-- accord beyond the registers (R327 to R347) -/
  acd : Acd
  /-- time, PTP ports and station launch queues beyond the registers (R349 to R359) -/
  tim : Tim
  /-- safety island beyond its registers (R368 to R405) -/
  isl : Isl
  /-- fault collector beyond the registers (R410 to R420) -/
  flt : Flt
  /-- disturbance capture beyond its registers (R435 to R451) -/
  acq : Acq
  /-- hardware scheduler and performance counters beyond their registers (R455 to R474) -/
  sch : Sch
  /-- SRAM, DDR4, boot flash and bank power beyond the registers (R477 to R497) -/
  mem : Mem
  /-- health aggregation beyond the registers (R510 to R516) -/
  hlt : Hlt
  /-- object dictionary and sessions beyond the registers (R519 to R551) -/
  od : Od
  deriving DecidableEq, Repr

/-- The block right after reset. -/
def State.reset : State :=
  { pending := [],
    now := 0,
    nowFrac := 0,
    draws := 0,
    regs := [],
    sent := [],
    sys := Sys.reset,
    ctl := Ctl.reset,
    cells := [],
    ports := [],
    dly := [],
    lvl := Lvl.reset,
    inp := Inp.reset,
    tie := Tie.reset,
    acd := Acd.reset,
    tim := Tim.reset,
    isl := Isl.reset,
    flt := Flt.reset,
    acq := Acq.reset,
    sch := Sch.reset,
    mem := Mem.reset,
    hlt := Hlt.reset,
    od := Od.reset }

end Sys2Proof.Machine
end

