-- ==== Sys2Proof/Machine/Ops.lean ====
section
/-! DEFINITION. The named operations over the state: reading and writing register fields, counts, time, free values and
what the block sends. -/

namespace Sys2Proof.Machine

/-- What a meaning answers. -/
abbrev Out := Host.Outcome State Fault Refusal

/-! ### Register words at reset -/

/-- Whether address `a` is a register of the row, and which. -/
def RegRow.covers (r : RegRow) (a : Nat) : Bool :=
  decide (r.base ≤ a) &&
    let d := a - r.base
    let i := d / r.s1
    let e := d % r.s1
    if r.n2 = 1 then decide (i < r.n1) && e == 0 else decide (i < r.n1) && decide (e / r.s2 < r.n2) && e % r.s2 == 0

/-- The first row that covers an address. -/
def findRow : List RegRow → Nat → Option RegRow
  | [], _ => none
  | r :: l, a => if r.covers a then some r else findRow l a

/-- The word a register leaves RESET with. -/
def RegRow.resetWord (r : RegRow) : Nat := r.fields.foldl (fun n f => setBits n f.lo f.width f.reset) 0

/-- The register rows of the block at an address of the KC8400, by its base address. -/
def kcRowsAt (a : Nat) : List RegRow :=
  match a / 0x100000 with
  | 0x400 => ctlRows
  | 0x401 => lvlRows
  | 0x402 => strRows
  | 0x403 => tieRows
  | 0x404 => acdRows
  | 0x405 => timRows
  | 0x406 => adcRows
  | 0x407 => acqRows
  | 0x408 => fltRows
  | 0x409 => schRows
  | 0x40A => pmcRows
  | 0x40B => memRows
  | 0x40C => hltRows
  | 0x40F => gpioRows
  | 0x410 => safeRows
  | 0x411 => sysRows
  | _ => []

/-- The row of a register of the KC8400. -/
def kcRow (a : Nat) : Option RegRow := findRow (kcRowsAt a) a

/-- The row of a register of a KS210. -/
def cellRow (a : Nat) : Option RegRow := findRow cellRows a

/-- What a register word of the KC8400 reads as when nothing has changed it (R7). -/
def kcReset (a : Nat) : Word := BitVec.ofNat 32 (((kcRow a).map RegRow.resetWord).getD 0)

/-- What a register word of a KS210 reads as when nothing has changed it (R7). -/
def cellReset (a : Nat) : Word := BitVec.ofNat 32 (((cellRow a).map RegRow.resetWord).getD 0)

/-! ### Register fields of the KC8400 -/

def State.word (s : State) (a : Nat) : Nat := (mapGet kcReset s.regs a).toNat

def State.setWord (s : State) (a v : Nat) : State :=
  { s with regs := mapSet kcReset s.regs a (BitVec.ofNat 32 v) }

/-- The value of a field. -/
def State.rd (s : State) (f : Fld) : Nat := bitsOf (s.word f.addr) f.lo f.width

/-- A field set by hardware. -/
def State.wr (s : State) (f : Fld) (v : Nat) : State :=
  s.setWord f.addr (setBits (s.word f.addr) f.lo f.width v)

/-- A one-bit field as a flag. -/
def State.on (s : State) (f : Fld) : Bool := s.rd f == 1

/-- A one-bit field set or cleared. -/
def State.put (s : State) (f : Fld) (b : Bool) : State := s.wr f b.toNat

/-- Bit `i` of a field. -/
def State.bit (s : State) (f : Fld) (i : Nat) : Bool := bitOf (s.rd f) i

/-- Bit `i` of a field set or cleared. -/
def State.putBit (s : State) (f : Fld) (i : Nat) (b : Bool) : State := s.wr f (Machine.putBit (s.rd f) i b)

/-- A count raised by `n`, saturating at the width of its field. -/
def State.inc (s : State) (f : Fld) (n : Nat := 1) : State := s.wr f (satAdd f.width (s.rd f) n)

/-- A count raised by `n`, modulo the width of its field. -/
def State.incMod (s : State) (f : Fld) (n : Nat := 1) : State := s.wr f (s.rd f + n)

/-- A field as it stood at the last commit (R25). -/
def State.crd (s : State) (f : Fld) : Nat := bitsOf (mapGet kcReset s.sys.com f.addr).toNat f.lo f.width

/-- A one-bit field as it stood at the last commit. -/
def State.con (s : State) (f : Fld) : Bool := s.crd f == 1

/-- A field in force: as committed while the committed layout runs, else as written. -/
def State.cfg (s : State) (f : Fld) : Nat := if s.sys.committed then s.crd f else s.rd f

/-! ### Sending, free values, loops -/

/-- Something the block sends. -/
def State.send (s : State) (e : Emission) : State := { s with sent := e :: s.sent }

/-- A free value and the state after drawing it (log entry 2). -/
def State.draw (s : State) : BitVec 32 × State := (Config.freeValue s.draws, { s with draws := s.draws + 1 })

/-- A change applied for each number below `n`, in rising order. -/
def State.forN (s : State) (n : Nat) (f : Nat → State → State) : State := (upto n).foldl (fun s i => f i s) s

/-- A change applied for each element of a list. -/
def State.forL {α : Type} (s : State) (l : List α) (f : α → State → State) : State := l.foldl (fun s a => f a s) s

/-- A change applied where a condition holds. -/
def State.when (s : State) (c : Bool) (f : State → State) : State := if c then f s else s

/-! ### Roles and states -/

namespace St
/-- Codes of DEV_STATE.STATE (R28). -/
def reset : Nat := 0
def selfTest : Nat := 1
def safeHold : Nat := 2
def configured : Nat := 3
def energised : Nat := 4
def deblocked : Nat := 5
def faultBlock : Nat := 6
def locked : Nat := 7
end St

namespace Role
/-- Codes of DEV_STATE.ROLE. -/
def solo : Nat := 0
def active : Nat := 1
def standby : Nat := 2
def relay : Nat := 3
end Role

/-- The present state of the KC8400. -/
def State.st (s : State) : Nat := s.rd R.DEV_STATE_STATE

/-- The present role. -/
def State.role (s : State) : Nat := s.rd R.DEV_STATE_ROLE

/-- The state is one in which the committed layout runs. -/
def State.inService (s : State) : Bool := s.st == St.energised || s.st == St.deblocked || s.st == St.faultBlock

/-- Registers answer: the unit is past SELF-TEST. -/
def State.answers (s : State) : Bool := s.st != St.reset && s.st != St.selfTest

/-- RWL fields may change (R7). -/
def State.writable (s : State) : Bool := s.st == St.safeHold || s.st == St.configured

/-- The control period in force, in ns: 100 µs in the maintenance period, else the committed T_c (R30, R351). -/
def State.periodNs (s : State) : Nat := if s.sys.committed then s.crd R.PERIOD_CFG_TC * 500 else 100000

end Sys2Proof.Machine
end

