-- ==== Sys2Proof/Machine/Memory.lean ====
section
/-! DEFINITION. The bytes of SRAM and DDR4 (R477): read and written little-endian, in one canonical list. -/

namespace Sys2Proof.Machine

/-- What a byte that nothing has written reads as (R481, log entry 16). -/
def memDefault (_ : Nat) : Byte := 0#8

def State.loadByte (s : State) (a : Nat) : Byte := mapGet memDefault s.mem.bytes a

def State.storeByte (s : State) (a : Nat) (b : Byte) : State :=
  { s with mem := { s.mem with bytes := mapSet memDefault s.mem.bytes a b } }

/-- `k` bytes from an address, little-endian. -/
def State.load (s : State) (a : Nat) : Nat → Nat
  | 0 => 0
  | k + 1 => (s.loadByte a).toNat + 256 * s.load (a + 1) k

/-- Bytes put from an address on. -/
def State.storeBytes (s : State) (a : Nat) : List Byte → State
  | [] => s
  | b :: r => (s.storeByte a b).storeBytes (a + 1) r

def State.loadBytes (s : State) (a n : Nat) : List Byte := (upto n).map fun i => s.loadByte (a + i)

def State.load32 (s : State) (a : Nat) : Nat := s.load a 4

def State.store32 (s : State) (a v : Nat) : State := s.storeBytes a (bytesLE 4 v)

/-! ### Regions of the SRAM -/

/-- Two ranges given by base and size overlap. -/
def overlaps (a n b m : Nat) : Bool := decide (a < b + m) && decide (b < a + n) && n != 0 && m != 0

/-- The health image while IMG_EN = 1: 5,632 entries of 256 bytes (R514). -/
def State.imageRegion (s : State) : Option (Nat × Nat) :=
  if s.on R.HLT_CFG_IMG_EN then some (s.rd R.IMG_BASE_BASE, 5632 * 256) else none

/-- SRAM groups that a range touches. -/
def groupsOf (r : Nat × Nat) : List Nat :=
  (upto 8).filter fun g => overlaps r.1 r.2 (0x10000000 + g * 2 ^ 24) (2 ^ 24)

/-- A range lies in the SRAM, outside group 0, in available groups (R477, R482). -/
def State.sramFits (s : State) (r : Nat × Nat) : Bool :=
  decide (0x11000000 ≤ r.1) && decide (r.1 + r.2 ≤ 0x18000000) && (groupsOf r).all fun g => s.bit R.MEM_STATUS_AVAIL g

end Sys2Proof.Machine
end

