-- ==== Sys2Proof/Machine/Operands.lean ====
section
/-! DEFINITION. The layouts on the wire: ordered sets, tie messages, strand frames with their header, slots and mailbox
field, accord frames and datagrams, built and taken apart in one place. -/

namespace Sys2Proof.Machine

/-! ### Check codes and padding -/

/-- Bytes padded with zeros up to a multiple of 8. -/
def pad8 (l : List Byte) : List Byte := l ++ List.replicate ((8 - l.length % 8) % 8) 0#8

/-- The first `n` bytes, zeros where there are fewer. -/
def fitTo (n : Nat) (l : List Byte) : List Byte := l.take n ++ List.replicate (n - l.length) 0#8

/-- Bytes `i` on of `l` replaced by `v`. -/
def patch (l : List Byte) (i : Nat) (v : List Byte) : List Byte := l.take i ++ v ++ l.drop (i + v.length)

/-- A check field as found: right, stomped (the right one with every bit inverted, R199), or bad. -/
inductive CrcState where
  | good
  | stomped
  | bad
  deriving DecidableEq, Repr

/-- How a check field of `w` bits compares with the code computed. -/
def crcState (w got want : Nat) : CrcState :=
  if got = want then .good else if got = 2 ^ w - 1 - want then .stomped else .bad

/-! ### Tie messages (R323, R324) -/

/-- A tie message of a type with its ARG and body. -/
def State.tieMessage (s : State) (type arg : Nat) (body : List Byte) : List Byte :=
  let b := pad8 body
  let head := [BitVec.ofNat 8 type, BitVec.ofNat 8 s.tie.ver,
      BitVec.ofNat 8 (s.rd R.TIE_STATUS_PAIR_ID + 2 * s.role + 16 * s.rd R.TIE_STATUS_YIELD_OUT),
      BitVec.ofNat 8 (s.rd R.TIE_STATUS_AE)] ++ bytesLE 4 s.sys.period ++ bytesLE 2 b.length ++ bytesLE 2 arg
  head ++ bytesLE 4 (crc32c head) ++ b ++ bytesLE 4 (crc32c b) ++ bytesLE 4 0

/-- A tie lane has lock, that is, is trained. -/
def State.tieUp (s : State) : Bool := s.rd R.TIE_STATUS_LANES != 0

/-- The lane a type travels on: types 01h to 07h on lane 0, the others on lane 1, all on the other while one lacks
lock. -/
def State.tieLane (s : State) (type : Nat) : Nat :=
  let own := if type ≤ 7 then 0 else 1
  if s.bit R.TIE_STATUS_LANES own then own else 1 - own

/-- A tie message is sent; nothing leaves while the link is down or carries no messages (R291). -/
def State.sendTie (s : State) (type arg : Nat) (body : List Byte) : State :=
  if s.tieUp && !s.on R.TIE_STATUS_ID_CONFLICT then s.send (.tie (s.tieLane type) (s.tieMessage type arg body)) else s

/-! ### Strand ports -/

/-- The ports that are heads and have trained. -/
def State.heads (s : State) : List Nat :=
  (upto 48).filter fun p => s.rd (R.PORT_STATUS_END p) == 1 && s.on (R.PORT_STATUS_TRAINED p)

/-- Three BLOCK ordered sets on every head port at once (R188). -/
def State.sendBlockSets (s : State) : State :=
  s.forL s.heads fun p s => (s.send (.orderedSet p 0x0B 0x5A 0xA5)).send (.orderedSet p 0x0B 0x5A 0xA5)
    |>.send (.orderedSet p 0x0B 0x5A 0xA5)

end Sys2Proof.Machine
end

