-- ==== Sys2Proof/Machine/AcqCore.lean ====
section
/-! DEFINITION. Records of the disturbance capture (R441 to R447): the ring, the copy to DDR4 and the end of a record. -/

namespace Sys2Proof.Machine

namespace Aq
/-- Codes of ACQ_STATUS.STATE (R452). -/
def idle : Nat := 0
def fill : Nat := 1
def ready : Nat := 2
def post : Nat := 3
def close : Nat := 4
def done : Nat := 5
end Aq

def State.aqs (s : State) : Nat := s.rd R.ACQ_STATUS_STATE

def State.setAqs (s : State) (n : Nat) : State := s.wr R.ACQ_STATUS_STATE n

/-- The sequencer runs and rows are written (R435, R438). -/
def State.acqRuns (s : State) : Bool := decide (1 ≤ s.aqs) && decide (s.aqs ≤ 4)

/-- Address of a row of the ring, by its number since ARM (R435). -/
def State.rowAddr (s : State) (i : Nat) : Nat :=
  0x10000000 + s.rd R.ACQ_RING_BASE * 2 ^ 20 + i % Nat.max 1 (s.rd R.ACQ_RINGROWS_N_RING) * s.rd R.ACQ_LAYOUT_ROW_B

/-- Base of a slot in the DDR4 window (R446). -/
def State.slotAddr (s : State) (k : Nat) : Nat :=
  0x800000000 + (s.rd R.ACQ_DDR_BASE + k * s.rd R.ACQ_SLOT_SLOT_MB) * 2 ^ 20

/-- The descriptor of R447. -/
def State.acqDescriptor (s : State) : List Byte :=
  let d := ((upto (s.rd R.ACQ_CFG_N_VAL)).map fun v => bytesLE 4 (s.rd (R.ACQ_VAL_KIND v) + 16 * s.rd (R.ACQ_VAL_INDEX v))).flatten ++
    (s.acq.cells.map fun h => bytesLE 2 h).flatten
  d ++ List.replicate ((16 - d.length % 16) % 16) 0#8

/-- Rows written and not yet copied go to the record's slot, oldest first (R446). -/
def State.copyRows (s : State) : State :=
  match s.acq.rec' with
  | none => s
  | some r =>
    let stop := min s.acq.total (r.last + 1)
    let rb := s.rd R.ACQ_LAYOUT_ROW_B
    let base := s.slotAddr r.slot + 64 + s.acqDescriptor.length
    let s := s.forN (stop - r.next) fun i s =>
      let n := r.next + i
      s.storeBytes (base + (n - (r.trig - r.pre)) * rb) (s.loadBytes (s.rowAddr n) rb)
    { s with acq := { s.acq with rec' := some { r with next := Nat.max r.next stop } } }

/-- The header and descriptor are written, rows that are absent read FFh, and the record counts (R442, R446, R447). -/
def State.finishRecord (s : State) (r : RecA) (flags : Nat) : State :=
  let rb := s.rd R.ACQ_LAYOUT_ROW_B
  let d := s.acqDescriptor
  let a := s.slotAddr r.slot
  let have' := r.next - (r.trig - r.pre)
  let rows := r.last + 1 - (r.trig - r.pre)
  let s := s.storeBytes (a + 64) d
  let s := s.storeBytes (a + 64 + d.length + have' * rb) (List.replicate ((rows - have') * rb) 0xFF#8)
  let seq := s.rd R.ACQ_REC_SEQ_SEQ + 1
  let head := bytesLE 2 1 ++ bytesLE 2 d.length ++ bytesLE 4 rb ++ bytesLE 4 r.pre ++ bytesLE 4 (r.last - r.trig) ++
    bytesLE 8 r.pTrig ++ bytesLE 4 (r.time % 1000000000) ++ bytesLE 6 (r.time / 1000000000) ++
    [BitVec.ofNat 8 r.cause, BitVec.ofNat 8 flags] ++ bytesLE 4 seq ++ bytesLE 4 r.dead ++ bytesLE 2 r.missed ++
    bytesLE 2 r.early ++ bytesLE 4 s.periodNs ++ bytesLE 2 s.acq.cells.length ++
    [BitVec.ofNat 8 (s.rd R.ACQ_CFG_N_VAL),
     BitVec.ofNat 8 (s.rd R.ACQ_CFG_CELL_FMT + 2 * if s.on R.ACD_CFG_EN then s.rd (R.LVLE_W0_MIDX 0) else 0)] ++
    bytesLE 4 (crc32c (s.loadBytes (a + 64) (d.length + rows * rb)))
  let s := s.storeBytes a (head ++ bytesLE 4 (crc32c head))
  let s := (((s.wr R.ACQ_REC_SEQ_SEQ seq).wr R.ACQ_TRIG_LO_P_LO r.pTrig).wr R.ACQ_TRIG_HI_P_HI (r.pTrig / 2 ^ 32)).inc
    R.ACQ_CNT_B_RECORDS
  let s := (s.wr R.ACQ_STATUS_SLOT r.slot).when (bitOf flags 1) fun s => s.put R.ACQ_STATUS_OVERRUN true
  let s := s.when (bitOf flags 2) fun s => s.put R.ACQ_STATUS_TRUNC true
  { s with acq := { s.acq with rec' := none, had := true, slot := (r.slot + 1) % Nat.max 1 (s.rd R.ACQ_SLOT_N_SLOT) } }

/-- Flags of a record at its end: those it has, and TAKEOVER where AE changed (R448). -/
def State.endFlags (s : State) (r : RecA) : Nat :=
  if r.ae = s.rd R.TIE_STATUS_AE then r.flags else Machine.putBit r.flags 3 true

/-- DISARM, a change of layout or a yield (R441, R443, R448): a running record ends at the last row written with TRUNC; one
in CLOSE closes first. -/
def State.acqStop (s : State) : State :=
  if s.aqs = Aq.idle then s
  else if s.aqs = Aq.close ∧ s.acq.rec'.isSome then { s with acq := { s.acq with disarm := true } }
  else
    let s := match s.acq.rec' with
      | some r => s.finishRecord r (Machine.putBit (s.endFlags r) 2 true)
      | none => s
    { s.setAqs Aq.idle with acq := { s.acq with force := false, armAt := none, reqs := [] } }

end Sys2Proof.Machine
end

