-- ==== Sys2Proof/Machine/Flags.lean ====
section
/-! DEFINITION. Status fields that are computed from others: the summary of the fault collector and its trip output. -/

namespace Sys2Proof.Machine

/-- The unit accepts state commands (R34): SOLO or ACTIVE and, in a formed accord, of the lead pair. -/
def State.accepting (s : State) : Bool :=
  (s.role == Role.solo || s.role == Role.active) && (!s.on R.ACD_STATUS_FORMED || s.on R.ACD_STATUS_TOP)

/-- Source `i` is latched. -/
def State.latched (s : State) (i : Nat) : Bool := s.bit (R.FLT_STAT_LATCH (i / 32)) (i % 32)

/-- The latched class of source `i`, 0 while not latched. -/
def State.lclass (s : State) (i : Nat) : Nat := s.rd (R.FLT_SRC_ST_LCLASS i)

/-- Source `i` is unit-side (R416). -/
def State.unitSide (s : State) (i : Nat) : Bool := s.on (R.FLT_SRC_CFG_SIDE i)

/-- The collector's latched sources. -/
def State.latchedList (s : State) : List Nat := (upto 128).filter s.latched

/-- A Block-, Trip- or Lock-class source is latched. -/
def State.blockLatched (s : State) : Bool := (upto 128).any fun i => decide (3 ≤ s.lclass i)

/-- FLT_TRIP_N is driven low (R417). -/
def State.tripOut (s : State) : Bool :=
  (upto 128).any fun i => s.lclass i == 4 &&
    (if s.unitSide i then s.role == Role.solo || s.tie.tripYield else s.accepting)

/-- FLT_SUMMARY recomputed from the latches; CLR_REFUSED and LOCK_LATCH keep their values. -/
def State.summarise (s : State) : State :=
  let worst := maxOf (s.latchedList.map s.lclass)
  let src := ((s.latchedList.filter fun i => s.lclass i == worst).head?).getD 0
  ((((s.wr R.FLT_SUMMARY_WORST worst).wr R.FLT_SUMMARY_LATCHED s.latchedList.length).wr R.FLT_SUMMARY_WORST_SRC src).put
    R.FLT_SUMMARY_TRIP_OUT s.tripOut)

end Sys2Proof.Machine
end

