-- ==== Sys2Proof/Machine/Trans.lean ====
section
/-! DEFINITION. Changes of the KC8400 state that faults, the safety island and commands share (R31 to R35), and the
yield of R301. -/

namespace Sys2Proof.Machine

namespace Cause
/-- Codes of STATE_CAUSE.CAUSE (R59). -/
def powerOn : Nat := 1
def sysRst : Nat := 2
def restart : Nat := 3
def testEnd : Nat := 4
def command : Nat := 5
def block : Nat := 6
def trip : Nat := 7
def lock : Nat := 8
def safeBlock : Nat := 9
def dryDone : Nat := 0xA
def dryTimeout : Nat := 0xB
def follow : Nat := 0xC
end Cause

namespace Cmd
/-- Codes of STATE_CMD.CMD (R59). -/
def configure : Nat := 1
def energise : Nat := 2
def deblock : Nat := 3
def drydown : Nat := 4
def clear : Nat := 5
def deenergise : Nat := 6
def restart : Nat := 7
end Cmd

/-- The state becomes `dst` with a cause; `per` is the period number recorded. Leaving DEBLOCKED sends the BLOCK ordered
sets, but not from a unit that has yielded (R188, R302). -/
def State.goto (s : State) (dst cause per : Nat) : State :=
  let blocks := s.st == St.deblocked && dst != St.deblocked && !s.tie.yielded
  ((((s.when blocks State.sendBlockSets).wr R.DEV_STATE_PREV s.st).wr R.DEV_STATE_STATE dst).wr R.STATE_CAUSE_CAUSE cause).wr
    R.TRANS_PERIOD_PERIOD per

/-- The period number that a transition taken now records: 0 outside the committed layout (R59). -/
def State.transPeriod (s : State) : Nat := if s.sys.committed then s.sys.period else 0

/-- A refused command changes nothing but the record of its refusal (R35). -/
def State.refuse (s : State) (cmd code : Nat) : State :=
  (s.wr R.STATE_CAUSE_REFUSE code).wr R.STATE_CAUSE_REFUSED_CMD cmd

/-- The dry-down that runs ends: the flags of it drop, DRY_STATUS keeps which arms blocked (R58). -/
def State.endDry (s : State) : State :=
  if s.on R.DEV_STATE_DRY_ACTIVE then
    ((s.put R.DEV_STATE_DRY_ACTIVE false).put R.DEV_STATE_BUSY false).wr R.DRY_STATUS_PHASE 0
  else s

/-- The accepted command that has not taken effect is dropped and recorded as refused with a code (R33). -/
def State.dropPending (s : State) (code : Nat) : State :=
  match s.sys.pend with
  | none => s
  | some p =>
    let s := (s.refuse p.cmd code).put R.DEV_STATE_BUSY false
    { s with sys := { s.sys with pend := none, prep := none, restore := s.sys.restore || s.sys.prep.isSome } }

/-- The reaction of Block and Trip class and of Safe Block: FAULT-BLOCK from ENERGISED or DEBLOCKED, at once; a pending
command is dropped with code 07h and a dry-down ends (R31, R33, R58). In the other states it changes nothing. -/
def State.faultBlock (s : State) (cause : Nat) : State :=
  if s.st == St.energised || s.st == St.deblocked then (s.dropPending 7).endDry.goto St.faultBlock cause s.transPeriod else s

/-- YIELD_OUT as R560 gives: low from SAFE HOLD on for SOLO, ACTIVE and STANDBY that have neither yielded nor failed their
self-diagnosis, else high. -/
def State.driveYield (s : State) : State :=
  let low := (s.role == Role.solo || s.role == Role.active || s.role == Role.standby) && !s.tie.yielded && !s.tie.selfBad &&
    s.st != St.locked && s.st != St.reset && s.st != St.selfTest
  s.put R.TIE_STATUS_YIELD_OUT (!low)

/-- A role is taken; one other than RELAY counts as held (R291). -/
def State.takeRole (s : State) (r : Nat) : State :=
  let s := { s with tie := { s.tie with held := s.tie.held || r != Role.relay } }
  (s.wr R.DEV_STATE_ROLE r).driveYield

/-- The unit yields (R301): YIELD_OUT high, CONTROL YIELD on the tie link, ROLE reads RELAY; the frames of the present
period still leave. In LOCKED the role keeps its value (R43). -/
def State.yield (s : State) : State :=
  let notReady := !s.on R.TIE_STATUS_READY
  let s := { s with tie := { s.tie with yielded := true, lastPeriod := true, held := true,
                                        tripYield := s.tie.tripYield || notReady } }
  let s := (s.put R.TIE_STATUS_YIELD_OUT true).when (s.st != St.locked) fun s => s.wr R.DEV_STATE_ROLE Role.relay
  ((s.sendTie 7 1 (bytesLE 8 0)).put R.TIE_STATUS_READY false).acqStop

/-- LOCKED (R42): no strand frame is launched or forwarded, the timeline stops, YIELD_OUT is asserted, and the Lock latch
sets. An ACTIVE yields by entering it (R301); ROLE keeps its value (R43). -/
def State.lock (s : State) : State :=
  let s := s.put R.FLT_SUMMARY_LOCK_LATCH true
  if s.st == St.reset || s.st == St.selfTest || s.st == St.locked then s
  else
    let active := s.role == Role.active
    let s := ((s.dropPending 7).endDry.when s.sys.committed State.acqStop)
    let s := s.goto St.locked Cause.lock s.transPeriod
    let s := { s with sys := { s.sys with committed := false, quiet := false } }
    (s.when active State.yield).put R.TIE_STATUS_YIELD_OUT true

end Sys2Proof.Machine
end

