-- ==== Sys2Proof/Machine/Collector.lean ====
section
/-! DEFINITION. The fault collector of the KC8400 (R410 to R422): events and live causes, latching and escalation, the
first-error capture, the reaction of each class, and clearing. -/

namespace Sys2Proof.Machine

/-- The numbers that R421 reserves. -/
def reservedSource (i : Nat) : Bool :=
  (decide (58 ≤ i) && decide (i ≤ 63)) || (decide (86 ≤ i) && decide (i ≤ 95)) || (decide (108 ≤ i) && decide (i ≤ 119)) ||
    decide (128 ≤ i)

/-- A level source has a live cause; an external source is one of level kind where its EDGE is 0 (R421, R422). -/
def State.levelSource (s : State) (i : Nat) : Bool :=
  if 120 ≤ i then !s.on (R.FLT_EXT_EDGE (i - 120)) else s.on (R.FLT_SRC_CFG_KIND i)

/-- The time of the block in µs, the resolution of event times (R413). -/
def State.us (s : State) : Nat := s.now / 1000

/-- The event history of a source after an event now, at most ESC_N long, and whether it escalates (R413). -/
def State.escalation (s : State) (i : Nat) : List Nat × Bool :=
  let n := s.rd (R.FLT_SRC_CFG_ESC_N i)
  if n = 0 then ([], false)
  else
    let h := mapGet (fun _ => []) s.flt.hist i ++ [s.us]
    let h := h.drop (h.length - n)
    (h, h.length == n && decide (s.us - h.headD 0 < s.rd (R.FLT_SRC_WIN_ESC_W i) * 1000))

def State.setHist (s : State) (i : Nat) (h : List Nat) : State :=
  { s with flt := { s.flt with hist := mapSet (fun _ => []) s.flt.hist i h } }

/-- One event of source `i`: it counts, and the source latches with the more severe of its base class and, where it
escalates, its escalation class (R412 to R414). -/
def State.fltEvent (s : State) (i : Nat) : State :=
  let (h, esc) := s.escalation i
  let base := s.rd (R.FLT_SRC_CFG_BASE i)
  let cls := if esc then Nat.max base (s.rd (R.FLT_SRC_CFG_ESC_CLASS i)) else base
  let s := (s.inc (R.FLT_SRC_ST_EVT_CNT i)).setHist i h
  let s := { s with flt := { s.flt with events := if s.flt.events.contains i then s.flt.events else s.flt.events ++ [i] } }
  if cls = 0 then s
  else
    let s := (s.putBit (R.FLT_STAT_LATCH (i / 32)) (i % 32) true).wr (R.FLT_SRC_ST_LCLASS i) (Nat.max (s.lclass i) cls)
    s.when esc fun s => (s.put (R.FLT_SRC_ST_ESC i) true).putBit (R.FLT_ESC_ESC (i / 32)) (i % 32) true

/-- The first-error capture takes the lowest-numbered of the sources that latched in one cycle (R420). -/
def State.capture (s : State) (new : List Raise) : State :=
  match new with
  | [] => s
  | r0 :: rest =>
    if s.flt.armed then
      let r := rest.foldl (fun a b => if b.src < a.src then b else a) r0
      let i := r.src.val
      let s := ((((((s.wr R.FLT_FIRST_INFO_SRC i).put R.FLT_FIRST_INFO_VALID true).wr R.FLT_FIRST_INFO_ACCESS r.access).wr
        R.FLT_FIRST_INFO_MASTER r.master).wr R.FLT_FIRST_INFO_CLASS (s.lclass i)).put R.FLT_FIRST_INFO_ESC
        (s.on (R.FLT_SRC_ST_ESC i))).put R.FLT_FIRST_INFO_TIED (!rest.isEmpty)
      let s := ((s.wr R.FLT_FIRST_INFO_FOLLOW 0).wr R.FLT_FIRST_ADDR_LO_ADDR r.addr.toNat).wr R.FLT_FIRST_ADDR_HI_ADDR
        (r.addr.toNat / 2 ^ 32)
      { s with flt := { s.flt with armed := false, firstTime := s.now } }
    else s.when (s.on R.FLT_FIRST_INFO_VALID) fun s => s.inc R.FLT_FIRST_INFO_FOLLOW new.length

/-- What a unit does by self-diagnosis that fails while it is STANDBY or RELAY (R302): YIELD_OUT high, not ready. -/
def State.selfDiagnosisFails (s : State) : State :=
  let s := { s with tie := { s.tie with selfBad := true } }
  (s.put R.TIE_STATUS_YIELD_OUT true).put R.TIE_STATUS_READY false

/-- The reaction of a class at this unit, plant-side or unit-side (R415, R416). -/
def State.react (s : State) (unit : Bool) (cls : Nat) : State :=
  match unit, cls with
  | false, 3 => s.when s.accepting fun s => s.faultBlock Cause.block
  | false, 4 => s.when s.accepting fun s => s.faultBlock Cause.trip
  | false, 5 => s.when s.accepting State.lock
  | true, 3 =>
    if s.role = Role.solo ∨ s.role = Role.active then s.faultBlock Cause.block else s.put R.TIE_STATUS_READY false
  | true, 4 =>
    if s.role = Role.solo then s.faultBlock Cause.trip
    else if s.role = Role.active then s.yield.faultBlock Cause.trip
    else s.selfDiagnosisFails
  | true, 5 => s.lock
  | _, _ => s

/-- The most severe class, among sources of one side that had an event, that they hold after it. -/
def State.worstOf (s : State) (unit : Bool) (rs : List Raise) : Nat :=
  maxOf (rs.map fun r => if s.unitSide r.src.val = unit then s.lclass r.src.val else 0)

/-- Events of one cycle: every source latches per its class, the lowest new latch is captured, and the most severe class
decides the reaction (R410 to R416, R420). Reserved sources never latch. -/
def State.raiseAll (s : State) (rs : List Raise) : State :=
  let rs := rs.filter fun r => !reservedSource r.src.val
  let was := rs.filter fun r => !s.latched r.src.val
  let s := s.forL rs fun r s => (s.when (s.levelSource r.src.val) fun s =>
    s.putBit (R.FLT_LIVE_LIVE (r.src.val / 32)) (r.src.val % 32) true).fltEvent r.src.val
  let s := s.capture (was.filter fun r => s.latched r.src.val)
  let u := s.worstOf true rs
  let p := s.worstOf false rs
  (if p ≤ u then (s.react true u).react false p else (s.react false p).react true u).summarise

/-- One event of a source, with what the capture would record. -/
def State.raiseAt (s : State) (i access master addr : Nat) : State :=
  s.raiseAll [{ src := Fin.ofNat 128 i, access := Fin.ofNat 6 access, master := Fin.ofNat 19 master,
                addr := BitVec.ofNat 36 addr }]

/-- One event of a source with no access. -/
def State.raise (s : State) (i : Nat) : State := s.raiseAt i 0 0 0

/-- The live cause of a level source appears; one that is present already raises nothing more. -/
def State.causePresent (s : State) (i : Nat) : State :=
  if s.bit (R.FLT_LIVE_LIVE (i / 32)) (i % 32) then s else s.raise i

/-- The live cause of a level source goes. -/
def State.causeAbsent (s : State) (i : Nat) : State := s.putBit (R.FLT_LIVE_LIVE (i / 32)) (i % 32) false

/-- The live cause of a level source follows a condition. -/
def State.causeIs (s : State) (i : Nat) (b : Bool) : State := if b then s.causePresent i else s.causeAbsent i

/-- A 1 written to the latch bit of a source (R418): refused for a latched Lock class and for a live cause. -/
def State.clearLatch (s : State) (i : Nat) : State :=
  if !s.latched i then s.setHist i []
  else if s.lclass i = 5 ∨ s.bit (R.FLT_LIVE_LIVE (i / 32)) (i % 32) then s.put R.FLT_SUMMARY_CLR_REFUSED true
  else
    ((((s.putBit (R.FLT_STAT_LATCH (i / 32)) (i % 32) false).putBit (R.FLT_ESC_ESC (i / 32)) (i % 32) false).wr
      (R.FLT_SRC_ST_LCLASS i) 0).put (R.FLT_SRC_ST_ESC i) false).setHist i []

/-- A write of 1s to latch bits of word `w`. -/
def State.clearWord (s : State) (w mask : Nat) : State :=
  (s.forN 32 fun b s => s.when (bitOf mask b) fun s => s.clearLatch (32 * w + b)).summarise

/-- The capture is armed again (R420). -/
def State.rearmFirst (s : State) : State :=
  let s := s.put R.FLT_FIRST_INFO_VALID false
  { s with flt := { s.flt with armed := true } }

/-- One event of a source by injection (R427): it counts as real, and no live cause stands behind it. -/
def State.injectEvent (s : State) (i : Nat) : State :=
  let live := s.bit (R.FLT_LIVE_LIVE (i / 32)) (i % 32)
  (s.raise i).putBit (R.FLT_LIVE_LIVE (i / 32)) (i % 32) live

/-- A write of FLT_CTRL: with INJ or CLR_ALL it needs the key, else all of it is discarded (R427). -/
def State.fltCtrl (s : State) (v : Nat) : State × Nat :=
  let src := bitsOf v 0 7
  if (bitOf v 7 || bitOf v 9) && bitsOf v 16 16 != 0x5A5A then (s, 0x08000020)
  else if bitOf v 7 && reservedSource src then (s, 0x08000020)
  else
    let s := s.when (bitOf v 7) fun s => s.injectEvent src
    let s := s.when (bitOf v 8) State.rearmFirst
    let s := s.when (bitOf v 9) fun s => s.forN 4 fun w s => s.clearWord w 0xFFFFFFFF
    (s.when (bitOf v 10) fun s => s.raise 31, 0)

/-- A configuration write of a source (R412): discarded as a whole where it breaks the floor or the escalation rules, or
outside SAFE HOLD and CONFIGURED; a good one empties the history. Answers the abort code, 0 for success. -/
def State.fltSrcWrite (s : State) (i : Nat) (win : Bool) (v : Nat) : State × Nat :=
  if reservedSource i then (s, 0)
  else if win then
    let w := bitsOf v 0 16
    if w = s.rd (R.FLT_SRC_WIN_ESC_W i) then (s.setHist i [], 0)
    else if !s.writable then (s, 0x08000022)
    else if w = 0 then (s, 0x06090030)
    else ((s.wr (R.FLT_SRC_WIN_ESC_W i) w).setHist i [], 0)
  else
    let base := bitsOf v 0 3
    let ec := bitsOf v 4 3
    let n := bitsOf v 8 8
    let floor := s.rd (R.FLT_SRC_CFG_FLOOR i)
    if base = s.rd (R.FLT_SRC_CFG_BASE i) ∧ ec = s.rd (R.FLT_SRC_CFG_ESC_CLASS i) ∧ n = s.rd (R.FLT_SRC_CFG_ESC_N i) then
      (s.setHist i [], 0)
    else if !s.writable then (s, 0x08000022)
    else if 5 < base ∨ 5 < ec ∨ base < floor ∨ n = 1 ∨ (n ≠ 0 ∧ ec ≤ base) ∨ ec < floor then (s, 0x06090030)
    else ((((s.wr (R.FLT_SRC_CFG_BASE i) base).wr (R.FLT_SRC_CFG_ESC_CLASS i) ec).wr (R.FLT_SRC_CFG_ESC_N i) n).setHist i [], 0)

end Sys2Proof.Machine
end

