-- ==== Sys2Proof/Machine/RegCore.lean ====
section
/-! DEFINITION. What a write does to one register word (R5 to R8, R591): every field is judged, and the word changes whole
or not at all. -/

namespace Sys2Proof.Machine

/-! ### binary32 patterns -/

/-- Not a number. -/
def f32NaN (b : Nat) : Bool := bitsOf b 23 8 == 255 && bitsOf b 0 23 != 0

/-- Neither infinite nor not a number. -/
def f32Finite (b : Nat) : Bool := bitsOf b 23 8 != 255

/-- Above zero. -/
def f32Positive (b : Nat) : Bool := !bitOf b 31 && b % 2 ^ 31 != 0

/-- An integer that orders finite and infinite patterns as their values. -/
def f32Key (b : Nat) : Int := if bitOf b 31 then -((b % 2 ^ 31 : Nat) : Int) else (b % 2 ^ 31 : Nat)

def F32Legal.ok (k : F32Legal) (b : Nat) : Bool :=
  match k with
  | .finite => f32Finite b
  | .notNaN => !f32NaN b
  | .nonneg => !f32NaN b && decide (0 ≤ f32Key b)
  | .nonnegFin => f32Finite b && decide (0 ≤ f32Key b)
  | .pos => !f32NaN b && decide (0 < f32Key b)
  | .posFin => f32Finite b && decide (0 < f32Key b)
  | .above m => !f32NaN b && decide (f32Key m < f32Key b)
  | .within lo hi => !f32NaN b && decide (f32Key lo ≤ f32Key b) && decide (f32Key b ≤ f32Key hi)

def Legal.ok (l : Legal) (v : Nat) : Bool :=
  match l with
  | .any => true
  | .range lo hi => decide (lo ≤ v) && decide (v ≤ hi)
  | .except x => v != x
  | .zeroOr lo hi => v == 0 || (decide (lo ≤ v) && decide (v ≤ hi))
  | .step k lo hi => decide (lo ≤ v) && decide (v ≤ hi) && (v - lo) % k == 0
  | .f32 k => k.ok v

/-! ### One field, one word -/

/-- What a field holds after a write of `new` over `old` (R7). -/
def FieldRow.after (f : FieldRow) (old new : Nat) : Nat :=
  match f.acc with
  | .rw | .rwl | .rws => bitsOf new f.lo f.width
  | .w1c => bitsOf old f.lo f.width &&& (2 ^ f.width - 1 - bitsOf new f.lo f.width)
  | .ro | .wo => bitsOf old f.lo f.width

/-- The value of a field that its range is judged by: what it would hold, or for a WO field what is written. -/
def FieldRow.judged (f : FieldRow) (old new : Nat) : Nat :=
  match f.acc with
  | .wo => bitsOf new f.lo f.width
  | _ => f.after old new

/-- Why a write is refused. -/
inductive Refused where
  /-- an RWL field would change in a state in which it may not (R8, R156) -/
  | state
  /-- an RWS field would change from outside the island (R8) -/
  | island
  /-- a field would be left outside its range -/
  | range
  deriving DecidableEq, Repr

/-- A write to a register word: the word after it, or why the whole access is discarded. -/
def RegRow.write (r : RegRow) (old new : Nat) (lockOpen island : Bool) : Except Refused Nat :=
  let changes := fun (f : FieldRow) => f.after old new != bitsOf old f.lo f.width
  if r.fields.any fun f => f.acc == .rws && changes f && !island then .error .island
  else if r.fields.any fun f => f.acc == .rwl && changes f && !lockOpen then .error .state
  else if r.fields.any fun f => f.acc != .ro && f.acc != .w1c && !f.legal.ok (f.judged old new) then .error .range
  else .ok (r.fields.foldl (fun w f => setBits w f.lo f.width (f.after old new)) old)

/-- What the word reads: WO fields and reserved bits read 0 (R6, R7). -/
def RegRow.read (r : RegRow) (word : Nat) : Nat :=
  r.fields.foldl (fun w f => if f.acc == .wo then w else setBits w f.lo f.width (bitsOf word f.lo f.width)) 0

/-- The word to write so that only the bits of a mask change (R205): outside the mask an RW bit keeps its value, and a
W1C or WO bit is written 0. -/
def RegRow.masked (r : RegRow) (old mask data : Nat) : Nat :=
  let keep := r.fields.foldl (fun w f =>
    if f.acc == .rw || f.acc == .rwl || f.acc == .rws then setBits w f.lo f.width (bitsOf old f.lo f.width) else w) 0
  (keep &&& (2 ^ 32 - 1 - mask)) ||| (data &&& mask)

end Sys2Proof.Machine
end

