-- ==== Sys2Proof/Machine/Float.lean ====
section
/-! DEFINITION. binary32 arithmetic of the engines (R64, R65, R67): rounding to nearest with ties to even, no fused
operation, subnormals read and written as zeros of their sign. A value is its 32-bit pattern. -/

namespace Sys2Proof.Machine

/-- +0.0, 1.0 and the two infinities. -/
def f0 : Nat := 0
def f1 : Nat := 0x3F800000
def fInf : Nat := 0x7F800000
def fNegInf : Nat := 0xFF800000

def fSign (a : Nat) : Bool := bitOf a 31

/-- A subnormal pattern becomes the zero of its sign (R64). -/
def fFlush (a : Nat) : Nat := if bitsOf a 23 8 = 0 then a / 2 ^ 31 * 2 ^ 31 else a

def fIsZero (a : Nat) : Bool := bitsOf a 23 8 == 0

def fIsInf (a : Nat) : Bool := a % 2 ^ 31 == fInf

/-- The quiet NaN that an operation on two operands delivers. -/
def fNaN (a b : Nat) : Nat :=
  let p := (Config.nanBits a b).toNat
  p / 2 ^ 22 % 2 * 2 ^ 31 + 0x7FC00000 + p % 2 ^ 22

/-- A signed zero or infinity. -/
def fWith (neg : Bool) (mag : Nat) : Nat := neg.toNat * 2 ^ 31 + mag

/-- `(-1)^neg · m · 2^q` rounded to nearest, ties to even; a subnormal result is the zero of its sign. -/
def fRound (neg : Bool) (m : Nat) (q : Int) : Nat :=
  if m = 0 then fWith neg 0
  else
    let e : Int := (Nat.log2 m : Int) + q
    let lsb : Int := (if e < -126 then -126 else e) - 23
    let d := lsb - q
    let r := if d ≤ 0 then m * 2 ^ (-d).toNat else rneDiv m (2 ^ d.toNat)
    let r' := if r = 2 ^ 24 then 2 ^ 23 else r
    let lsb' := if r = 2 ^ 24 then lsb + 1 else lsb
    if r' < 2 ^ 23 then fWith neg 0
    else if 104 < lsb' then fWith neg fInf
    else fWith neg ((lsb' + 150).toNat * 2 ^ 23 + r' % 2 ^ 23)

/-- The significand and exponent of a finite value: magnitude `m · 2^q`. -/
def fMant (a : Nat) : Nat := if bitsOf a 23 8 = 0 then 0 else 2 ^ 23 + bitsOf a 0 23

def fExp (a : Nat) : Int := (bitsOf a 23 8 : Int) - 150

/-- The value of a finite pattern in units of `2^q`, `q` being no larger than its exponent. -/
def fScaled (a : Nat) (q : Int) : Int :=
  let m : Int := (fMant a * 2 ^ (fExp a - q).toNat : Nat)
  if fSign a then -m else m

def fAdd (a b : Nat) : Nat :=
  if f32NaN a ∨ f32NaN b then fNaN a b
  else if fIsInf a then (if fIsInf b ∧ fSign a ≠ fSign b then fNaN a b else a)
  else if fIsInf b then b
  else
    let a := fFlush a
    let b := fFlush b
    if fIsZero a ∧ fIsZero b then (if fSign a ∧ fSign b then fWith true 0 else f0)
    else if fIsZero a then b
    else if fIsZero b then a
    else
      let q := min (fExp a) (fExp b)
      let v := fScaled a q + fScaled b q
      if v = 0 then f0 else fRound (decide (v < 0)) v.natAbs q

/-- The sign turned. -/
def fNeg (a : Nat) : Nat := if fSign a then a - 2 ^ 31 else a + 2 ^ 31

def fAbs (a : Nat) : Nat := a % 2 ^ 31

def fSub (a b : Nat) : Nat := if f32NaN b then fNaN a b else fAdd a (fNeg b)

def fMul (a b : Nat) : Nat :=
  let neg := fSign a != fSign b
  if f32NaN a ∨ f32NaN b then fNaN a b
  else if fIsInf a ∨ fIsInf b then (if fIsZero a ∨ fIsZero b then fNaN a b else fWith neg fInf)
  else fRound neg (fMant a * fMant b) (fExp a + fExp b)

/-- `(-1)^neg · a / b · 2^q` rounded, `b` not 0. -/
def fRatio (neg : Bool) (a b : Nat) (q : Int) : Nat :=
  let n := a * 2 ^ 64
  fRound neg (2 * (n / b) + (if n % b = 0 then 0 else 1)) (q - 65)

def fDiv (a b : Nat) : Nat :=
  let neg := fSign a != fSign b
  if f32NaN a ∨ f32NaN b then fNaN a b
  else if fIsInf a then (if fIsInf b then fNaN a b else fWith neg fInf)
  else if fIsInf b then fWith neg 0
  else if fIsZero b then (if fIsZero a then fNaN a b else fWith neg fInf)
  else fRatio neg (fMant a) (fMant b) (fExp a - fExp b)

/-- `a < b`; false where either is not a number, and zeros of both signs are equal. -/
def fLt (a b : Nat) : Bool :=
  !f32NaN a && !f32NaN b && decide (f32Key (fFlush a) < f32Key (fFlush b))

def fLe (a b : Nat) : Bool :=
  !f32NaN a && !f32NaN b && decide (f32Key (fFlush a) ≤ f32Key (fFlush b))

def fEq (a b : Nat) : Bool := fLe a b && fLe b a

/-- R67. -/
def fClamp (x lo hi : Nat) : Nat := if fLt x lo then lo else if fLt hi x then hi else x

/-- An integer as binary32. -/
def fOfInt (i : Int) : Nat := fRound (decide (i < 0)) i.natAbs 0

def fOfNat (n : Nat) : Nat := fOfInt n

/-- The integer below a finite value. -/
def fFloorInt (a : Nat) : Int :=
  let m : Int := if fSign a then -(fMant a : Int) else (fMant a : Int)
  if 0 ≤ fExp a then m * 2 ^ (fExp a).toNat else m / 2 ^ (-(fExp a)).toNat

/-- The nearest integer of a finite value, ties to even. -/
def fRneInt (a : Nat) : Int :=
  let n := if 0 ≤ fExp a then fMant a * 2 ^ (fExp a).toNat else rneDiv (fMant a) (2 ^ (-(fExp a)).toNat)
  if fSign a then -(n : Int) else (n : Int)

/-- floor as a value; zeros keep their sign, infinities and NaN pass. -/
def fFloor (a : Nat) : Nat :=
  if !f32Finite a then a
  else if fIsZero a then fFlush a
  else if 0 ≤ fExp a then a
  else fOfInt (fFloorInt a)

/-- Sums of neighbours; a last one without a neighbour stays. -/
def fPairs : List Nat → List Nat
  | a :: b :: r => fAdd a b :: fPairs r
  | l => l

/-- The pairwise tree over 16 leaves, absent ones +0.0 (R65). -/
def fTree16 (l : List Nat) : Nat :=
  (fPairs (fPairs (fPairs (fPairs (l ++ List.replicate (16 - l.length) f0))))).headD f0

/-- The pairwise tree over 8 leaves. -/
def fTree8 (l : List Nat) : Nat := (fPairs (fPairs (fPairs (l ++ List.replicate (8 - l.length) f0)))).headD f0

/-- The sum in order, one addend at a time, starting from +0.0. -/
def fSum (l : List Nat) : Nat := l.foldl fAdd f0

/-- The lower of two by R67; the first where they are equal or the second is not a number. -/
def fMin (a b : Nat) : Nat := if fLt b a then b else a

def fMax (a b : Nat) : Nat := if fLt a b then b else a

end Sys2Proof.Machine
end

