-- ==== Sys2Proof/Machine/Inputs.lean ====
section
/-! DEFINITION. Central inputs (R270 to R286): SAR converters, sigma-delta decimators, pulse inputs, event and GPIO
lines. -/

namespace Sys2Proof.Machine

/-- The central inputs run in every state after SELF-TEST (R270). -/
def State.inputsRun (s : State) : Bool := s.st != St.reset && s.st != St.selfTest

def noneAt {α : Type} (_ : Nat) : List α := []

/-! ### SAR converters -/

/-- What a SAR word is while nothing has been written: the reset word of its register. -/
def sarDefault (k : Nat) : Word :=
  kcReset ((if k % 2 = 0 then (R.SAR_CFG_EN (k / 2)).addr else (R.SAR_CAL_OFF (k / 2)).addr))

/-- SAR_CFG or SAR_CAL in force for the next t0. -/
def State.sarWord (s : State) (k : Nat) : Nat := (mapGet sarDefault s.inp.sarForce k).toNat

/-- A write of SAR_CFG or SAR_CAL: in force from the next t0 unless it comes later than 3.2 µs before it (R274). -/
def State.sarWritten (s : State) (k v : Nat) : State :=
  let w := BitVec.ofNat 32 v
  if s.now + 3200 ≤ s.sys.t0 + s.periodNs then
    { s with inp := { s.inp with sarForce := mapSet sarDefault s.inp.sarForce k w, sarWait := mapErase s.inp.sarWait k } }
  else { s with inp := { s.inp with sarWait := mapInsert k w (mapErase s.inp.sarWait k) } }

/-- The words that waited for this t0 to pass come into force. -/
def State.sarPromote (s : State) : State :=
  let f := s.inp.sarWait.foldl (fun m e => mapSet sarDefault m e.1 e.2) s.inp.sarForce
  { s with inp := { s.inp with sarForce := f, sarWait := [] } }

/-- The mean of the conversions after correction, and whether it is over-range (R244, R258, R274), as a 16-bit code. -/
def sarResult (signed : Bool) (cal : Nat) (conv : SarSample) : Nat × Bool :=
  match conv.find? fun c => c.2 != 0 with
  | some c =>
    (if c.2 = 1 then (if signed then 0x7FFF else 0xFFFF) else (if signed then 0x8000 else 0), true)
  | none =>
    let int := fun (c : BitVec 16) => if signed then toSigned 16 c.toNat else (c.toNat : Int)
    let mean := rneDivInt ((conv.map fun c => int c.1).foldl (· + ·) 0) conv.length
    let v := rneDivInt ((mean - toSigned 16 (bitsOf cal 0 16)) * (bitsOf cal 16 16 : Int)) 32768
    (if signed then ofSigned 16 (clampInt (-32768) 32767 v) else (clampInt 0 65535 v).toNat, false)

/-- Converter `n` at t0 (R271, R274): without its conversions the result is stale and keeps its value. -/
def State.sarSample (s : State) (n : Nat) (conv : SarSample) : State :=
  let cfg := s.sarWord (2 * n)
  if !bitOf cfg 0 || conv.length < 2 ^ bitsOf cfg 2 3 then s.put (R.SAR_STATUS_STALE n) true
  else
    let (code, ovr) := sarResult (bitOf cfg 1) (s.sarWord (2 * n + 1)) (conv.take (2 ^ bitsOf cfg 2 3))
    let s := (s.wr (R.SAR_RES_CODE n) code).put (R.SAR_STATUS_STALE n) false
    if ovr && !s.on (R.SAR_STATUS_OVR n) then (s.put (R.SAR_STATUS_OVR n) true).raise 52 else s

def execSarFault (n : Fin 8) (s : State) : Out :=
  .next (s.when s.inputsRun fun s => ((s.put (R.SAR_STATUS_FAULT n) true).put (R.SAR_STATUS_STALE n) true).raise 53)

/-! ### Sigma-delta decimators -/

/-- One more factor (1 + z^-1 + … + z^-(R-1)) over a list of coefficients. -/
def boxcar (r : Nat) (l : List Nat) : List Nat :=
  let n := l.length + r - 1
  (upto n).map fun i => sumOf ((l.drop (i + 1 - r)).take (Nat.min r (i + 1)))

/-- The coefficients h_i of R275. -/
def sincTaps : Nat → Nat → List Nat
  | 0, _ => [1]
  | k + 1, r => boxcar r (sincTaps k r)

/-- K and R of a decimator, and its span in bits. -/
def State.sdOrder (s : State) (d : Nat) : Nat := if s.on (R.SD_CFG_ORDER d) then 5 else 3

def State.sdRate (s : State) (d : Nat) : Nat := 16 * 2 ^ s.rd (R.SD_CFG_OSR d)

def State.sdSpan (s : State) (d : Nat) : Nat := s.sdOrder d * (s.sdRate d - 1) + 1

/-- The code of R276 and whether it saturated; `log` is log2 R. -/
def sdCode (k r log sum : Nat) : Int × Bool :=
  let b := k * log
  let x : Int := 2 * (sum : Int) - (r ^ k : Nat)
  let c := if b ≤ 23 then x * (2 ^ (23 - b) : Nat) else x / (2 ^ (b - 23) : Nat)
  (clampInt (-0x800000) 0x7FFFFF c, decide (0x7FFFFF < c) || decide (c < -0x800000))

/-- Bits received by a decimator: those that go on a run found faulty are left out, up to the first that differs
(R277). -/
def State.sdBits (s : State) (d : Nat) (bits : List Bool) : State :=
  let run := mapGet (fun _ => none) s.inp.sdRun d
  let good := match run with
    | some b => bits.dropWhile (· == b)
    | none => bits
  let run' := if good.isEmpty then run else none
  let all := (good.reverse ++ mapGet noneAt s.inp.sdBits d).take 1276
  { s with inp := { s.inp with sdBits := mapSet noneAt s.inp.sdBits d all, sdRun := mapSet (fun _ => none) s.inp.sdRun d run' } }

/-- The bits of a decimator count anew (R277). -/
def State.sdClear (s : State) (d : Nat) (run : Option Bool) : State :=
  { s with inp := { s.inp with sdBits := mapSet noneAt s.inp.sdBits d [], sdRun := mapSet (fun _ => none) s.inp.sdRun d run } }

/-- Decimator `d` at t0 (R271, R275 to R277). -/
def State.sdSample (s : State) (d : Nat) (bits : List Bool) : State :=
  if !s.on (R.SD_CFG_EN d) then s.put (R.SD_STATUS_STALE d) true
  else
    let s := s.sdBits d bits
    let got := (mapGet noneAt s.inp.sdBits d).take (s.sdSpan d)
    if got.length < s.sdSpan d then s.put (R.SD_STATUS_STALE d) true
    else
      let taps := sincTaps (s.sdOrder d) (s.sdRate d)
      let sum := sumOf ((taps.zip got).map fun e => if e.2 != s.on (R.SD_CFG_INV d) then e.1 else 0)
      let (code, sat) := sdCode (s.sdOrder d) (s.sdRate d) (4 + s.rd (R.SD_CFG_OSR d)) sum
      let s := (s.wr (R.SD_RES_CODE d) (ofSigned 32 code)).put (R.SD_STATUS_STALE d) false
      s.when sat fun s => s.put (R.SD_STATUS_SAT d) true

def execSdClkLoss (d : Fin 24) (s : State) : Out :=
  .next (s.when (s.inputsRun && s.on (R.SD_CFG_EN d)) fun s =>
    ((s.sdClear d none).put (R.SD_STATUS_CLK_LOSS d) true).raise 54)

def execSdModFault (d : Fin 24) (level : Bool) (s : State) : Out :=
  .next (s.when (s.inputsRun && s.on (R.SD_CFG_EN d)) fun s =>
    ((s.sdClear d (some level)).put (R.SD_STATUS_MOD_FAULT d) true).raise 54)

/-! ### Pulse inputs -/

/-- A count moved by one, DIR_INV reversing. -/
def State.piCount (s : State) (i : Nat) (up : Bool) : State :=
  let f := R.PI_CNT_CNT i
  if up != s.on (R.PI_CFG_DIR_INV i) then s.wr f (s.rd f + 1) else s.wr f (s.rd f + 0xFFFFFFFF)

/-- The filtered levels of a pulse input change (R278, R280). -/
def State.piEdge (s : State) (i : Nat) (a b : Bool) : State :=
  let a0 := bitOf s.inp.piA i
  let b0 := bitOf s.inp.piB i
  let s := { s with inp := { s.inp with piA := Machine.putBit s.inp.piA i a, piB := Machine.putBit s.inp.piB i b } }
  match s.rd (R.PI_CFG_MODE i) with
  | 1 =>
    if a && !a0 then
      { s with inp := { s.inp with piTimes := mapUpd noneAt s.inp.piTimes i fun l => l ++ [s.now / 10] } }
    else s
  | 2 => if a && !a0 then s.piCount i (!b) else s
  | 3 =>
    if a != a0 && b != b0 then
      let first := !s.on (R.PI_STATUS_QERR i)
      ((s.inc (R.PI_STATUS_QERR_CNT i)).put (R.PI_STATUS_QERR i) true).when first fun s => s.raise 55
    else if a != a0 then s.piCount i (a != b)
    else if b != b0 then s.piCount i (a == b)
    else s
  | _ => s

def execPiEdge (i : Fin 4) (a b : Bool) (s : State) : Out := .next (s.when s.inputsRun fun s => s.piEdge i a b)

/-- The value delivered by a count (R279). -/
def piValue (modulus cnt : Nat) : Nat :=
  if modulus = 0 then fOfInt (toSigned 24 cnt) else fOfInt (toSigned 32 cnt % (modulus : Int))

/-- Pulse input `i` at t0 (R271, R279, R280). -/
def State.piSample (s : State) (i : Nat) : State :=
  match s.rd (R.PI_CFG_MODE i) with
  | 0 => s.put (R.PI_STATUS_STALE i) true
  | 1 =>
    let from' := (s.sys.t0 - s.rd (R.PI_CFG_FWIN i) * s.periodNs) / 10
    let ts := (mapGet noneAt s.inp.piTimes i).filter fun t => decide (from' ≤ t)
    let s := { s with inp := { s.inp with piTimes := mapSet noneAt s.inp.piTimes i ts } }
    let n := ts.length
    let span := ts.getLastD 0 - ts.headD 0
    let low := decide (n < 2) || span == 0
    let s := (s.put (R.PI_STATUS_LOW_F i) low).put (R.PI_STATUS_STALE i) low
    if low then s else s.wr (R.PI_OUT_OUT i) (fRatio false ((n - 1) * 100000000) span 0)
  | _ =>
    ((s.wr (R.PI_OUT_OUT i) (piValue (s.rd (R.PI_MOD_MODULUS i)) (s.rd (R.PI_CNT_CNT i)))).put (R.PI_STATUS_STALE i) false).put
      (R.PI_STATUS_LOW_F i) false

/-- Everything that is latched for t0 (R271 to R280). -/
def State.sampleInputs (s : State) (x : Samples) : State :=
  if !s.inputsRun then s
  else
    let s := s.forN 8 fun n s => s.sarSample n (x.sar.getD n [])
    let s := s.sarPromote
    let s := s.forN 24 fun d s => s.sdSample d (x.sd.getD d [])
    s.forN 4 fun i s => s.piSample i

/-! ### Event and GPIO lines -/

/-- The registers that show the front of the event FIFO. -/
def State.showEvents (s : State) : State :=
  let s := s.wr R.EVT_STATUS_DEPTH s.inp.fifo.length
  match s.inp.fifo with
  | [] => ((s.setWord R.EVT_HEAD0_NS.addr 0).setWord R.EVT_HEAD1_SEC_LO.addr 0).setWord R.EVT_HEAD2_SEC_HI.addr 0
  | e :: _ =>
    let sec := e.time / 1000000000
    let s := (s.wr R.EVT_HEAD0_NS (e.time % 1000000000)).wr R.EVT_HEAD1_SEC_LO (sec % 2 ^ 32)
    ((((s.wr R.EVT_HEAD2_SEC_HI (sec / 2 ^ 32)).wr R.EVT_HEAD2_LINE e.line).put R.EVT_HEAD2_RISE e.rise).put
      R.EVT_HEAD2_VALID true).put R.EVT_HEAD2_RELEASE e.release

/-- An event put in order of edge time, then of line (R282). -/
def insertEvt (e : Evt) : List Evt → List Evt
  | [] => [e]
  | x :: r => if e.time < x.time ∨ (e.time = x.time ∧ e.line < x.line) then e :: x :: r else x :: insertEvt e r

/-- An event enters the FIFO, or is lost where it is full (R282). -/
def State.addEvent (s : State) (e : Evt) : State :=
  if 256 ≤ s.inp.fifo.length then s.inc R.EVT_STATUS_LOST
  else { s with inp := { s.inp with fifo := insertEvt e s.inp.fifo } }.showEvents

/-- A level counts as active on a line (R281). -/
def State.lineActive (s : State) (n : Nat) (level : Bool) : Bool := level != s.on (R.GPIO_CFG_POL n)

/-- The external sources that name a line follow its delivered level (R422); `rose` says that it became active now. -/
def State.externals (s : State) (n : Nat) (rose : Bool) : State :=
  let active := s.lineActive n (s.on (R.GPIO_STATUS_DELIVERED n))
  s.forN 8 fun e s =>
    s.when (s.on (R.FLT_EXT_EN e) && s.rd (R.FLT_EXT_LINE e) == n) fun s =>
      if s.on (R.FLT_EXT_EDGE e) then s.when rose fun s => s.raise (120 + e) else s.causeIs (120 + e) active

/-- The delivered level of a line takes a value; an event is recorded where one is due. -/
def State.deliver (s : State) (n : Nat) (level : Bool) (event : Option Evt) : State :=
  let was := s.lineActive n (s.on (R.GPIO_STATUS_DELIVERED n))
  let s := s.put (R.GPIO_STATUS_DELIVERED n) level
  let s := match event with
    | some e => s.addEvent e
    | none => s
  s.externals n (s.lineActive n level && !was)

/-- A filtered edge of an input line (R281 to R284). -/
def State.gpioEdge (s : State) (n : Nat) (level : Bool) : State :=
  if s.on (R.GPIO_CFG_DIR n) || s.on (R.GPIO_STATUS_FILTERED n) == level then s
  else
    let rn := s.rd (R.GPIO_RATE_RATE_N n)
    let h := mapGet noneAt s.inp.edges n
    let chatter := decide (0 < rn) && decide (rn ≤ h.length) &&
      decide (s.now - h.getD (h.length - rn) 0 < s.rd (R.GPIO_RATE_RATE_W n) * 1000)
    let h := (h ++ [s.now]).drop (h.length + 1 - Nat.max 1 rn)
    let active := s.lineActive n level
    let s := { s with inp := { s.inp with edges := mapSet noneAt s.inp.edges n h, since := mapSet (fun _ => none) s.inp.since n (if active then some s.now else none) } }
    let s := (s.put (R.GPIO_STATUS_RAW n) level).put (R.GPIO_STATUS_FILTERED n) level
    let s := s.when (!active) fun s => s.put (R.GPIO_STATUS_STUCK n) false
    if chatter || s.on (R.GPIO_STATUS_FROZEN n) then
      let first := !s.on (R.GPIO_STATUS_FROZEN n)
      let s := s.inc (R.GPIO_STATUS_CHAT_CNT n)
      s.when first fun s => ((s.put (R.GPIO_STATUS_FROZEN n) true).put (R.GPIO_STATUS_CHATTER n) true).raise 56
    else
      let edge := s.rd (R.GPIO_CFG_EDGE n)
      let picked := if level then edge % 2 == 1 else decide (2 ≤ edge)
      let e : Evt := { time := s.now - 4 * (s.rd (R.GPIO_CFG_FILT n) + 2), line := n, rise := level, release := false }
      s.deliver n level (if picked then some e else none)

def execGpioEdge (line : Fin 64) (level : Bool) (s : State) : Out :=
  .next (s.when s.inputsRun fun s => s.gpioEdge line level)

/-- RATE_W has passed without a filtered edge (R283). -/
def State.gpioRelease (s : State) (n : Nat) : State :=
  let last := (mapGet noneAt s.inp.edges n).getLastD 0
  if s.on (R.GPIO_STATUS_FROZEN n) && decide (last + s.rd (R.GPIO_RATE_RATE_W n) * 1000 ≤ s.now) then
    let s := s.put (R.GPIO_STATUS_FROZEN n) false
    let level := s.on (R.GPIO_STATUS_FILTERED n)
    if level == s.on (R.GPIO_STATUS_DELIVERED n) then s
    else s.deliver n level (some { time := s.now, line := n, rise := level, release := true })
  else s

def execGpioChatterRelease (line : Fin 64) (s : State) : Out := .next (s.when s.inputsRun fun s => s.gpioRelease line)

/-- A line has been active for longer than MAX_ACT (R284). -/
def State.gpioStuck (s : State) (n : Nat) : State :=
  let m := s.rd (R.GPIO_STUCK_MAX_ACT n)
  match mapGet (fun _ => none) s.inp.since n with
  | some t =>
    if m ≠ 0 ∧ t + m * 1000000 < s.now ∧ !s.on (R.GPIO_STATUS_STUCK n) then
      ((s.put (R.GPIO_STATUS_STUCK n) true).put (R.GPIO_STATUS_STUCK_SEEN n) true).raise 57
    else s
  | none => s

def execGpioStuck (line : Fin 64) (s : State) : Out := .next (s.when s.inputsRun fun s => s.gpioStuck line)

/-- What a write of GPIO_RATE or GPIO_STUCK does beside the register: the history clears and the stuck time restarts
(R286). -/
def State.lineRestart (s : State) (n : Nat) : State :=
  let active := s.lineActive n (s.on (R.GPIO_STATUS_FILTERED n))
  { s with inp := { s.inp with edges := mapSet noneAt s.inp.edges n [], since := mapSet (fun _ => none) s.inp.since n (if active then some s.now else none) } }

/-- The oldest event leaves the FIFO. -/
def State.nextEvent (s : State) : State := { s with inp := { s.inp with fifo := s.inp.fifo.drop 1 } }.showEvents

end Sys2Proof.Machine
end

