-- ==== Sys2Proof/Machine/CellOps.lean ====
section
/-! DEFINITION. The named operations over one KS210: its registers and clock, its fault sources and their reaction
(R423 to R425, R594), its gates (R157 to R160, R167, R174 to R176), its bypass and its RESET. -/

namespace Sys2Proof.Machine

namespace Mode
/-- Codes of the KS210 states (R50). -/
def reset : Nat := 0
def selfTest : Nat := 1
def safeHold : Nat := 2
def enumerated : Nat := 3
def blocked : Nat := 4
def running : Nat := 5
def coasting : Nat := 6
def bypassed : Nat := 7
def locked : Nat := 8
end Mode

/-- What an unlisted cell is. -/
def cellDefault (_ : Nat) : Cell := Cell.reset

/-- Where the cell of an extended address is held: under its address with KC index 0, whatever the index of the pair is
in an accord, for the cells stay on their strands when an accord changes. -/
def homeKey (id : Nat) : Nat := setBits id 13 3 0

/-- The cell at an extended address. -/
def State.cell (s : State) (id : Nat) : Cell := mapGet cellDefault s.cells (homeKey id)

def State.setCell (s : State) (id : Nat) (c : Cell) : State :=
  { s with cells := mapSet cellDefault s.cells (homeKey id) c }

/-- A change of one cell. -/
def State.onCell (s : State) (id : Nat) (f : Cell → Cell) : State := s.setCell id (f (s.cell id))

/-! ### Registers of a cell -/

def Cell.word (c : Cell) (a : Nat) : Nat := (mapGet cellReset c.regs a).toNat

def Cell.setWord (c : Cell) (a v : Nat) : Cell := { c with regs := mapSet cellReset c.regs a (BitVec.ofNat 32 v) }

def Cell.rd (c : Cell) (f : Fld) : Nat := bitsOf (c.word f.addr) f.lo f.width

def Cell.wr (c : Cell) (f : Fld) (v : Nat) : Cell := c.setWord f.addr (setBits (c.word f.addr) f.lo f.width v)

def Cell.on (c : Cell) (f : Fld) : Bool := c.rd f == 1

def Cell.put (c : Cell) (f : Fld) (b : Bool) : Cell := c.wr f b.toNat

def Cell.bit (c : Cell) (f : Fld) (i : Nat) : Bool := bitOf (c.rd f) i

def Cell.putBit (c : Cell) (f : Fld) (i : Nat) (b : Bool) : Cell := c.wr f (Machine.putBit (c.rd f) i b)

/-- The words whose fields act from the first strobe after a write (R267, R431, R509): the sequence and the values of the
slots, the cell trigger's configuration, and the estimators'. -/
def strobeWord (a : Nat) : Bool :=
  (decide (0x30000 ≤ a) && decide (a ≤ 0x30018)) || a == 0x60000 || a == 0x60004 || a == 0x80000 || a == 0x80008 || a == 0x8000C ||
    (decide (0x80020 ≤ a) && decide (a ≤ 0x80028))

/-- The words of the cell as they act after a strobe now. -/
def Cell.hold (c : Cell) : Cell := { c with ad := { c.ad with held := c.regs.filter fun e => strobeWord e.1 } }

/-- A field of such a word, as it acts since the last strobe. -/
def Cell.hrd (c : Cell) (f : Fld) : Nat := bitsOf (mapGet cellReset c.ad.held f.addr).toNat f.lo f.width

def Cell.hon (c : Cell) (f : Fld) : Bool := c.hrd f == 1

def Cell.hbit (c : Cell) (f : Fld) (i : Nat) : Bool := bitOf (c.hrd f) i

/-- A count of a cell raised, saturating. -/
def Cell.inc (c : Cell) (f : Fld) (n : Nat := 1) : Cell := c.wr f (satAdd f.width (c.rd f) n)

def Cell.when (c : Cell) (b : Bool) (f : Cell → Cell) : Cell := if b then f c else c

def Cell.forN (c : Cell) (n : Nat) (f : Nat → Cell → Cell) : Cell := (upto n).foldl (fun c i => f i c) c

/-- The 32-bit time of the cell at a time of the block (R362). -/
def Cell.clock (c : Cell) (now : Nat) : Nat := (now * 256 + c.tm.off) / 256 % 2 ^ 32

/-- RWL fields of the cell may change (R156). -/
def Cell.writable (c : Cell) : Bool := c.mode == Mode.safeHold || c.mode == Mode.enumerated

/-! ### Gates -/

/-- The gate that shares a leg: GH1 with GL1, GH2 with GL2. -/
def otherGate (g : Nat) : Nat := if g % 2 = 0 then g + 1 else g - 1

/-- The dead time before gate `g` turns on, in ticks (R160). -/
def Cell.deadTime (c : Cell) (g : Nat) : Nat :=
  match g with
  | 0 => c.rd K.PWM_DT1_DT_H
  | 1 => c.rd K.PWM_DT1_DT_L
  | 2 => c.rd K.PWM_DT2_DT_H
  | _ => c.rd K.PWM_DT2_DT_L

/-- The gates a state class demands (R157): 0 OFF, 1 ZERO, 2 INSERT_POS, 3 INSERT_NEG. -/
def Cell.demandOf (c : Cell) (cls : Nat) : Nat :=
  match c.bridge, cls with
  | false, 1 => 0b0010
  | false, 2 => 0b0001
  | true, 1 => if c.on K.PWM_CFG_ZSEL then 0b0101 else 0b1010
  | true, 2 => 0b1001
  | true, 3 => 0b0110
  | _, _ => 0

/-- The class that a momentary demand forms (R167). -/
def Cell.classOf (c : Cell) (demand : Nat) : Nat :=
  if c.bridge then
    if demand = 0b0101 ∨ demand = 0b1010 then 1 else if demand = 0b1001 then 2 else if demand = 0b0110 then 3 else 0
  else if demand = 0b0010 then 1 else if demand = 0b0001 then 2 else 0

/-- A latch of stage 1 of R159 is set: the hardwired bypass path, a trip or gate-fault latch, or a latched source of Block
or Trip class (R424). -/
def Cell.heldOff (c : Cell) : Bool :=
  c.on K.TRIP_STATUS_HW_BYP || c.rd K.TRIP_STATUS_TRIP != 0 || c.rd K.TRIP_STATUS_GATE_FLT != 0 ||
    c.cls.any fun e => e.2 == 3 || e.2 == 4

/-- Stages 1 to 3 of R159 let the entry act. -/
def Cell.driving (c : Cell) : Bool :=
  !c.heldOff && !c.pw.held && !c.pw.bypassing && (c.mode == Mode.running || c.mode == Mode.coasting)

/-- The gates that the mask set in force allows (R167, R168). -/
def Cell.allow (c : Cell) : Nat :=
  if !c.on K.PWM_CFG_MASK_EN || c.rd K.PWM_TIME_ARM == 7 || c.pw.opened.isSome then 0xF
  else
    match c.classOf c.pw.demand, c.pw.pos with
    | 1, true => c.rd K.PWM_MASKA_ZERO
    | 2, true => c.rd K.PWM_MASKA_IPOS
    | 3, true => c.rd K.PWM_MASKA_INEG
    | 1, false => c.rd K.PWM_MASKB_ZERO
    | 2, false => c.rd K.PWM_MASKB_IPOS
    | 3, false => c.rd K.PWM_MASKB_INEG
    | _, _ => 0xF

/-- MASK_ACT: 0 unmasked, 1 set A, 2 set B, 3 open (R181). -/
def Cell.maskAct (c : Cell) : Nat :=
  if !c.on K.PWM_CFG_MASK_EN || c.rd K.PWM_TIME_ARM == 7 then 0
  else if c.pw.opened.isSome then 3 else if c.pw.pos then 1 else 2

/-- The time gate `g` last turned off. -/
def Cell.offAt (c : Cell) (g : Nat) : Nat := c.pw.offAt.getD g 0

/-- What a gate should do at a time: 0 off, 1 on, 2 wait for its dead time. -/
def Cell.gateLevel (c : Cell) (now gates g : Nat) : Nat :=
  if !c.driving then 0
  else if bitOf (c.pw.demand &&& c.allow) g then
    if bitOf gates g then 1
    else if bitOf gates (otherGate g) then 2
    else if c.offAt (otherGate g) + 5 * c.deadTime g ≤ now then 1 else 2
  else if bitOf gates g && decide (now < c.pw.stretch.getD g 0) then 1
  else 0

/-- The pin levels that the gates show, after polarity, and BYP (R159 stage 7). -/
def Cell.pins (c : Cell) : Cell :=
  (c.wr K.GATE_RB_PIN (c.rd K.PWM_STATUS_GATES ^^^ c.rd K.PWM_POL_INV)).put K.GATE_RB_BYP_PIN c.pw.byp

/-- The gates formed anew at a time (R159, R160, R169): gates turn off first, then the others turn on or wait. -/
def Cell.regate (c : Cell) (now : Nat) : Cell :=
  let old := c.rd K.PWM_STATUS_GATES
  let keep := (upto 4).foldl (fun n g => Machine.putBit n g (bitOf old g && c.gateLevel now old g == 1)) old
  let offAt := (upto 4).map fun g => if bitOf old g && !bitOf keep g then now else c.offAt g
  let c := { c with pw := { c.pw with offAt := offAt } }
  let new := (upto 4).foldl (fun n g => Machine.putBit n g (c.gateLevel now keep g == 1)) keep
  let wait := (upto 4).foldl (fun n g => Machine.putBit n g (c.gateLevel now keep g == 2)) 0
  let c := { c with pw := { c.pw with wait := wait } }
  ((c.wr K.PWM_STATUS_GATES new).wr K.PWM_STATUS_MASK_ACT c.maskAct).pins

/-- The signed insertion that the demand forms: +1, -1 or 0 (R501). -/
def Cell.sigma (c : Cell) : Int := if c.classOf c.pw.demand = 2 then 1 else if c.classOf c.pw.demand = 3 then -1 else 0

/-- The inserted time of the period counted up to a time (R501). -/
def Cell.tally (c : Cell) (now : Nat) : Cell :=
  { c with hl := { c.hl with ins := c.hl.ins + c.sigma * ((now : Int) - c.hl.insAt), insAt := now } }

/-- A new demand by state class. -/
def Cell.demandClass (c : Cell) (now cls : Nat) : Cell :=
  { c.tally now with pw := { c.pw with demand := c.demandOf cls } }.regate now

/-! ### Entering states -/

/-- Records and the schedule horizon are discarded; the accumulator is 0 (R164, R195). -/
def Cell.discard (c : Cell) : Cell :=
  let c := (c.wr K.PWM_ACC_ACC 0).put K.PWM_STATUS_ACC_POL false
  { c with lk := { c.lk with recLow := none, recHigh := none, next := none },
           pw := { c.pw with entries := [], nPred := 0, ix := 4, parts := [], demand := 0, openAt := none } }

/-- BLOCKED is entered: gates off, accumulator 0. -/
def Cell.toBlocked (c : Cell) (now : Nat) : Cell := ({ c.tally now with mode := Mode.blocked }.discard).regate now

/-- A BLOCK ordered set or header blocks the cell at once (R195). -/
def Cell.block (c : Cell) (now : Nat) : Cell :=
  if c.mode = Mode.running ∨ c.mode = Mode.coasting then c.toBlocked now else c.discard

/-- A bypass starts (R178): all gates off at once, BYPASSED unless RESET or LOCKED; BYP follows after BYP_DLY. -/
def Cell.startBypass (c : Cell) (now : Nat) : Cell :=
  if c.mode = Mode.reset ∨ c.pw.byp then c
  else
    let mode := if c.mode = Mode.locked then Mode.locked else Mode.bypassed
    let c := c.tally now
    let c := { c with mode := mode, pw := { c.pw with bypassing := true } }
    c.discard.regate now

/-! ### Trigger of the cell (R431, R432) -/

/-- A cause of the trigger at a 32-bit time: it fires, or is ignored and counted. -/
def Cell.trigger (c : Cell) (cause time : Nat) : Cell :=
  if !c.hon K.CTRG_CFG_EN then c
  else if c.on K.CTRG_ST_HOLD ∨ (c.hrd K.CTRG_CFG_HOLDOFF = 0 ∧ c.sl.fire.isSome) then c.inc K.CTRG_ST_IGNORED
  else
    let c := { c with sl := { c.sl with fire := some time, holdoff := c.hrd K.CTRG_CFG_HOLDOFF } }
    (((c.wr K.CTRG_ST_CAUSE cause).put K.CTRG_ST_HOLD (c.sl.holdoff != 0)).inc K.CTRG_ST_FIRES).wr K.CTRG_TIME_TIME time

/-! ### Fault sources -/

/-- Source `i` of the cell is latched. -/
def Cell.latched (c : Cell) (i : Nat) : Bool := c.bit K.CFLT_STAT_STAT i

/-- A level source of R423: 0 to 6, 10, 19, 21 to 24, 28 to 30. -/
def cellLevelSource (i : Nat) : Bool :=
  decide (i ≤ 6) || [10, 19, 21, 22, 23, 24, 28, 29, 30].contains i

/-- CFLT_SUM: the most severe latched class and its lowest-numbered source (R425, R430). -/
def Cell.summarise (c : Cell) : Cell :=
  let worst := maxOf (c.cls.map Prod.snd)
  (c.wr K.CFLT_SUM_CLASS worst).wr K.CFLT_SUM_SRC ((((c.cls.filter fun e => e.2 == worst).head?).map Prod.fst).getD 0)

/-- A source latches with its class and acts by it (R424, R594). A source of class None does not latch; one that is
latched already only keeps the more severe class. -/
def Cell.latch (c : Cell) (now i : Nat) : Cell :=
  let cls := c.rd (K.CFLT_CLASS_CLASS (i / 8) (i % 8))
  if cls = 0 then c
  else
    let new := !c.latched i
    let c := c.putBit K.CFLT_STAT_STAT i true
    let c := { c with cls := mapSet (fun _ => 0) c.cls i (Nat.max cls (mapGet (fun _ => 0) c.cls i)) }
    let c := c.when (new && c.armed) fun c =>
      { ((((c.wr K.CFLT_FIRST_SRC i).put K.CFLT_FIRST_VALID true).wr K.CFLT_FIRST_CLASS cls).wr K.CFLT_FTIME_FTIME
          (c.clock now)) with armed := false }
    let c := c.when (new && c.on (K.CFLT_CLASS_BYP (i / 8) (i % 8))) fun c => c.startBypass now
    let c := c.when (cls == 5) fun c =>
      let c := c.put K.CFLT_SUM_LOCK_LATCH true
      if c.mode = Mode.reset then c else ({ c.tally now with mode := Mode.locked }.discard)
    let c := c.when (new && c.bit K.CTRG_MASK_MASK i) fun c => c.trigger 3 (c.clock now)
    (c.regate now).summarise

/-- A level source's live cause appears: it latches (R424). -/
def Cell.raiseLevel (c : Cell) (now i : Nat) : Cell := (c.putBit K.CFLT_LIVE_LIVE i true).latch now i

/-- A cause: an event source latches, a level source becomes live and latches. -/
def Cell.cause (c : Cell) (now i : Nat) : Cell := if cellLevelSource i then c.raiseLevel now i else c.latch now i

/-- The live cause of a level source ends. -/
def Cell.absent (c : Cell) (i : Nat) : Cell := c.putBit K.CFLT_LIVE_LIVE i false

/-- A clear was refused: the two flags of R425. -/
def Cell.refuseClear (c : Cell) : Cell := (c.put K.TRIP_STATUS_CLEAR_REFUSED true).put K.CFLT_SUM_CLEAR_REFUSED true

/-- The latch of source `i` goes, and with it the trip, gate-fault or bypass-fault bits that are the same latch. -/
def Cell.unlatch (c : Cell) (i : Nat) : Cell :=
  let c := { c.putBit K.CFLT_STAT_STAT i false with cls := mapErase c.cls i }
  if i ≤ 3 then c.putBit K.TRIP_STATUS_TRIP i false
  else if i = 5 then c.wr K.TRIP_STATUS_GATE_FLT 0
  else if i = 6 then c.put K.TRIP_STATUS_BYP_FLT false
  else c

/-- A 1 written to the latch bit of a source (R425): a live level source stays and says so, a Lock class stays. -/
def Cell.clearLatch (c : Cell) (i : Nat) : Cell :=
  if !c.latched i then c
  else if mapGet (fun _ => 0) c.cls i = 5 then c.put K.CFLT_SUM_CLEAR_REFUSED true
  else if cellLevelSource i && c.bit K.CFLT_LIVE_LIVE i then c.refuseClear
  else c.unlatch i

/-- A clear through TRIP_STATUS of a latch that it shares with CFLT_STAT: one of Lock class stays (R425). -/
def Cell.clearShared (c : Cell) (i : Nat) : Cell :=
  if mapGet (fun _ => 0) c.cls i = 5 then c.put K.CFLT_SUM_CLEAR_REFUSED true else c.unlatch i

/-- After clears: where the last latch that held the gates has gone, they stay off until the next boundary (R176). -/
def Cell.afterClear (c was : Cell) (now : Nat) : Cell :=
  let c := { c with pw := { c.pw with held := c.pw.held || (was.heldOff && !c.heldOff) } }
  (c.regate now).summarise

/-- A write of 1s to CFLT_STAT. -/
def Cell.clearStat (c : Cell) (now mask : Nat) : Cell :=
  (c.forN 32 fun i c => c.when (bitOf mask i) fun c => c.clearLatch i).afterClear c now

/-- A write to TRIP_STATUS (R175, R177, R180): trips and gate faults are refused while their cause is present. -/
def Cell.clearTrip (c : Cell) (now v : Nat) : Cell :=
  let c1 := c.when (bitOf v 16) fun c => c.put K.TRIP_STATUS_CLEAR_REFUSED false
  let c1 := c1.forN 4 fun i c => c.when (bitOf v i && c.bit K.TRIP_STATUS_TRIP i) fun c =>
    if c.bit K.TRIP_STATUS_CMP_ACT i then c.refuseClear else c.clearShared i
  let gf := bitsOf v 8 4 &&& c1.rd K.TRIP_STATUS_GATE_FLT
  let c1 := c1.when (gf != 0) fun c =>
    if c.bit K.CFLT_LIVE_LIVE 5 then c.refuseClear
    else if c.rd K.TRIP_STATUS_GATE_FLT = gf then c.clearShared 5
    else c.wr K.TRIP_STATUS_GATE_FLT (c.rd K.TRIP_STATUS_GATE_FLT ^^^ gf)
  let c1 := c1.when (bitOf v 12 && c1.on K.TRIP_STATUS_BYP_FLT) fun c =>
    if c.bit K.CFLT_LIVE_LIVE 6 then c.refuseClear else c.clearShared 6
  c1.afterClear c now

/-- The capture of the cell is armed again (R430). -/
def Cell.rearm (c : Cell) : Cell := { c.put K.CFLT_FIRST_VALID false with armed := true }

/-! ### RESET of a cell -/

/-- Live causes that a RESET does not end: comparators, supply, bank supply, junction, oscillator, fuses. -/
def cellKeptCauses : Nat := 0x40E8000F

/-- RESET by command (R51, R425): every latch but those of Lock class goes, and the first-source capture stays. -/
def Cell.doReset (c : Cell) (now : Nat) : Cell :=
  let kept := c.cls.filter fun e => e.2 == 5
  let r : Cell := { Cell.reset with down := c.down, bridge := c.bridge, cls := kept, armed := c.armed }
  let r := r.wr K.CFLT_STAT_STAT (kept.foldl (fun n e => Machine.putBit n e.1 true) 0)
  let r := (r.put K.CFLT_SUM_LOCK_LATCH (c.on K.CFLT_SUM_LOCK_LATCH)).wr K.CFLT_LIVE_LIVE
    (c.rd K.CFLT_LIVE_LIVE &&& cellKeptCauses)
  let r := ((r.wr K.CFLT_FIRST_SRC (c.rd K.CFLT_FIRST_SRC)).put K.CFLT_FIRST_VALID (c.on K.CFLT_FIRST_VALID)).wr
    K.CFLT_FIRST_CLASS (c.rd K.CFLT_FIRST_CLASS)
  let r := (r.wr K.CFLT_FTIME_FTIME (c.rd K.CFLT_FTIME_FTIME)).wr K.TRIP_STATUS_CMP_ACT (c.rd K.TRIP_STATUS_CMP_ACT)
  ((r.put K.PWM_CFG_BRIDGE c.bridge).regate now).summarise

end Sys2Proof.Machine
end

