-- ==== Sys2Proof/Machine/CellPwm.lean ====
section
/-! DEFINITION. Cell switching (R154 to R180): the boundary, entries and their parts, carriers, dead time, masks,
synchronisation, trips and bypass of one KS210, and its states of reset and self-test (R51 to R54). -/

namespace Sys2Proof.Machine

/-! ### PWM entries -/

/-- The gates that turn on when the demand changes from one class to another: the largest dead time among them (R162). -/
def Cell.openingDead (c : Cell) (src dst : Nat) : Nat :=
  let g0 := c.demandOf src
  let g1 := c.demandOf dst
  maxOf ((upto 4).map fun g => if bitOf g1 g && !bitOf g0 g then c.deadTime g else 0)

/-- A PWM entry of one polarity with duty code `d` (R161 to R163): the insertion time in ticks, and the cell with its
accumulator and counts after it. -/
def Cell.pwmTime (c : Cell) (neg : Bool) (d : Nat) : Nat × Cell :=
  let tc := c.rd K.PWM_TIME_TC
  let policy := c.rd K.PWM_CFG_POLICY
  let ins := if neg then 3 else 2
  let minp := c.rd K.PWM_MINP_MINP
  let thrOn := minp + c.openingDead 1 ins
  let thrOff := minp + c.openingDead ins 1
  let t0 := rneDiv (d * tc) 4096
  let acc := toSigned 32 (c.rd K.PWM_ACC_ACC)
  let same := c.on K.PWM_STATUS_ACC_POL == neg
  let use := policy == 0 && acc != 0
  let t1 := if use && same then (clampInt 0 tc ((t0 : Int) + acc)).toNat else t0
  let c := c.when (use && !same) fun c => c.inc K.PWM_CNT_LOST
  let c := c.when use fun c => c.wr K.PWM_ACC_ACC 0
  if 0 < t1 ∧ t1 < thrOn then
    let c := c.inc K.PWM_CNT_SHORT
    let c := c.when (policy == 0) fun c => (c.wr K.PWM_ACC_ACC t1).put K.PWM_STATUS_ACC_POL neg
    (if policy = 1 then Nat.min thrOn tc else 0, c)
  else if t1 < tc ∧ tc - t1 < thrOff then
    let c := c.inc K.PWM_CNT_SHORT
    let c := c.when (policy == 0) fun c =>
      (c.wr K.PWM_ACC_ACC (ofSigned 32 ((t1 : Int) - tc))).put K.PWM_STATUS_ACC_POL neg
    (if policy = 1 then tc - thrOff else tc, c)
  else (t1, c)

/-- The parts of a PWM entry: the class at t_b and the changes after it (R161). -/
def pwmParts (upd : Bool) (tc ton ins : Nat) : Nat × List (Nat × Nat) :=
  if ton = 0 then (1, [])
  else if tc ≤ ton then (ins, [])
  else if upd then
    let a := (tc - ton) / 2
    if a = 0 then (ins, [(ton, 1)]) else (1, [(a, ins), (a + ton, 1)])
  else (ins, [(ton, 1)])

/-! ### Carriers -/

/-- T_car in ticks (R165). -/
def Cell.tCar (c : Cell) : Nat := c.rd K.PWM_TIME_CAR_N * c.rd K.PWM_TIME_TC

/-- Ticks since the carrier's valley at a time, within one carrier period. -/
def Cell.carPhase (c : Cell) (now : Nat) : Nat :=
  let t : Int := ((now : Int) - (c.pw.carAt : Int)) / 5 - (c.rd K.PWM_PHASE_PHI : Int)
  (t % (c.tCar : Int)).toNat

/-- The duty of the entry in force: UQ0.12 for a half-bridge, signed Q0.11 for a full-bridge. -/
def Cell.duty (c : Cell) : Int :=
  let d := bitsOf (c.pw.entries.getD c.pw.ix 0) 4 12
  if c.bridge then toSigned 12 d else d

/-- Whether the high gate of a leg is demanded at a time (R165): `d > c(t)` for a half-bridge and for leg 1, `-d > c(t)`
for leg 2. -/
def Cell.legHigh (c : Cell) (now leg : Nat) : Bool :=
  let t := c.tCar
  let x := c.carPhase now
  let up : Nat := if 2 * x < t then 2 * x else 2 * (t - x)
  if c.bridge then
    let d := if leg = 0 then c.duty else -c.duty
    decide (((2 * up : Nat) : Int) * 2048 - (t : Int) * 2048 < d * t)
  else decide (((up * 4096 : Nat) : Int) < c.duty * t)

/-- The time a gate of a leg would conduct in each carrier period at the duty in force, in ticks, before dead time. -/
def Cell.legWidth (c : Cell) (leg : Nat) (high : Bool) : Nat :=
  let t := c.tCar
  let w : Int := if c.bridge then
      let d := if leg = 0 then c.duty else -c.duty
      (d + 2048) * t / 4096
    else c.duty * t / 4096
  let h := (clampInt 0 t w).toNat
  if high then h else t - h

/-- The demand with a leg driven high or low. -/
def legDemand (demand leg : Nat) (high : Bool) : Nat :=
  Machine.putBit (Machine.putBit demand (2 * leg) high) (2 * leg + 1) (!high)

/-- A leg changes over by the carrier (R165, R166): a part that would conduct for less than MINP is suppressed with its
turn-off under CARRY and DROP, and held until MINP has elapsed under STRETCH. -/
def Cell.crossLeg (c : Cell) (now leg : Nat) (high : Bool) : Cell :=
  if bitOf c.pw.demand (2 * leg) = high && (bitOf c.pw.demand (2 * leg) || bitOf c.pw.demand (2 * leg + 1)) then
    { c with pw := { c.pw with skip := Machine.putBit c.pw.skip leg false } }
  else
    let g := if high then 2 * leg else 2 * leg + 1
    let minp := c.rd K.PWM_MINP_MINP
    let short := decide (c.legWidth leg high - c.deadTime g < minp)
    if bitOf c.pw.skip leg then { c with pw := { c.pw with skip := Machine.putBit c.pw.skip leg false } }
    else if short && c.rd K.PWM_CFG_POLICY != 1 then
      ({ c with pw := { c.pw with skip := Machine.putBit c.pw.skip leg true } }).inc K.PWM_CNT_SHORT
    else
      let c := c.when short fun c =>
        ({ c with pw := { c.pw with stretch := c.pw.stretch.set g (now + 5 * (c.deadTime g + minp)) } }).inc K.PWM_CNT_SHORT
      { c.tally now with pw := { c.pw with demand := legDemand c.pw.demand leg high } }.regate now

/-! ### Entries -/

/-- An accumulator that is not zero is cleared and counted (R164). -/
def Cell.dropAcc (c : Cell) : Cell :=
  if c.rd K.PWM_ACC_ACC = 0 then c else (c.wr K.PWM_ACC_ACC 0).inc K.PWM_CNT_LOST

/-- A STATE code that the cell cannot play: reserved, or reserved for its bridge (R143). -/
def Cell.badState (c : Cell) (st : Nat) : Bool := decide (7 ≤ st) || (!c.bridge && (st == 3 || st == 5))

/-- The entry plays from t_b (R157, R158, R161 to R165). -/
def Cell.playEntry (c : Cell) (now e : Nat) : Cell :=
  let st := bitsOf e 0 4
  let d := bitsOf e 4 12
  let bad := c.badState st
  let st := if bad || c.pw.tcBad then 0 else st
  let c := c.when bad fun c => c.cause now 7
  let c := c.wr K.PWM_STATUS_STATE st
  let c := { c with pw := { c.pw with parts := [], skip := 0 } }
  if st = 4 ∨ st = 5 then
    let (ton, c) := c.pwmTime (st == 5) d
    let (first, parts) := pwmParts (c.on K.PWM_CFG_UPD) (c.rd K.PWM_TIME_TC) ton (if st = 5 then 3 else 2)
    { c with pw := { c.pw with parts := parts } }.demandClass now first
  else
    let c := c.dropAcc
    if st = 6 then
      let c := c.crossLeg now 0 (c.legHigh now 0)
      if c.bridge then c.crossLeg now 1 (c.legHigh now 1) else c
    else c.demandClass now st

/-! ### Masks at a boundary -/

/-- The commutation event of a header for this cell: sign, ZC_VALID and ZC_OFF; none where its ARM is another or 7
(R168, R595). -/
def Cell.eventOf (c : Cell) (h : List Byte) : Option (Bool × Bool × Nat) :=
  let b := byteAt h 9
  if bitsOf b 0 3 = c.rd K.PWM_TIME_ARM ∧ bitsOf b 0 3 ≠ 7 then some (!bitOf b 3, bitOf b 4, leAt h 10 2) else none

/-- The mask state at a boundary at which a record applies (R168, R595). -/
def Cell.maskAt (c : Cell) (h : List Byte) : Cell :=
  let opened := if c.pw.coastOpen then none else c.pw.opened
  let (s, zv, off) := (c.eventOf h).getD (c.pw.pos, false, 0)
  let c := { c with pw := { c.pw with coastOpen := false, openAt := none, opened := opened } }
  match opened with
  | some (s0, n) =>
    if s = s0 then { c with pw := { c.pw with opened := some (s0, n + 1) } }
    else { c with pw := { c.pw with opened := none, pos := s } }
  | none =>
    let c := { c with pw := { c.pw with pos := s } }
    if !zv then c
    else if off ≤ c.rd K.PWM_MASKT_GUARD then { c with pw := { c.pw with opened := some (s, 0) } }
    else { c with pw := { c.pw with openAt := some (4 * (off - c.rd K.PWM_MASKT_GUARD)) } }

/-- The mask state at a boundary without a good record: open from the first one on (R168); such a boundary does not count
toward OPEN_MAX. -/
def Cell.maskCoast (c : Cell) : Cell :=
  let c := { c with pw := { c.pw with openAt := none } }
  match c.pw.opened with
  | none => { c with pw := { c.pw with opened := some (c.pw.pos, 0), coastOpen := true } }
  | some _ => c

/-! ### The boundary -/

/-- The sample strobe (R245 to R247): elements that could not start in the closing period are skipped and stale, and the
sequence starts anew, with the words as they act from now on. -/
def Cell.strobe (c : Cell) : Cell :=
  let len := c.hrd K.SEQ_CFG_SEQ_LEN
  let left := (upto len).filter fun j => decide (c.ad.elem ≤ j) && decide (0 < c.ad.elem)
  let chan := fun j => if j < 8 then c.hrd (K.SEQ_EL0_EL j) else c.hrd (K.SEQ_EL1_EL (j - 8))
  let c := left.foldl (fun c j => (c.put (K.RES_ST_STALE (chan j)) true).inc K.ADC_STATUS_SKIP_CNT) c
  let c := c.hold
  let len := c.hrd K.SEQ_CFG_SEQ_LEN
  let chan := fun j => if j < 8 then c.hrd (K.SEQ_EL0_EL j) else c.hrd (K.SEQ_EL1_EL (j - 8))
  let c := c.forN 12 fun i c => c.when (!(upto len).any fun j => chan j == i) fun c => c.put (K.RES_ST_STALE i) true
  let ow := (upto 12).foldl (fun m i => if c.on (K.OW_CFG_EN i) then mapUpd (fun _ => 0) m i (· + 1) else m) c.ad.owPer
  { c with ad := { c.ad with elem := 0, group := [], aborted := false, owPer := ow } }

/-- The boundaries of the cell move on (R363): one that TM_BOUND named starts the step that TM_STEP then holds. -/
def Cell.nextBound (c : Cell) : Cell :=
  let due := match c.tm.pend with
    | none => false
    | some b => decide ((b + 2 ^ 32 - c.tm.bound) % 2 ^ 32 = 0) || decide (2 ^ 31 ≤ (b + 2 ^ 32 - c.tm.bound) % 2 ^ 32)
  if due then
    let b := c.tm.pend.getD 0
    let step := c.rd K.TM_STEP
    { c with tm := { c.tm with bound := (b + step * 500) % 2 ^ 32, step := step, layout := c.on K.TM_STEP_LAYOUT, pend := none } }
  else { c with tm := { c.tm with bound := (c.tm.bound + c.tm.step * 500) % 2 ^ 32 } }

/-- TOL and COMP of PWM_SYNC as they act since the last carrier start, in ticks. -/
def Cell.syncTol (c : Cell) : Nat := bitsOf c.pw.sync 0 8

def Cell.syncComp (c : Cell) : Nat := bitsOf c.pw.sync 8 8

/-- The carrier starts at a boundary whose period count fits (R165). -/
def Cell.carrierStart (c : Cell) (now : Nat) : Cell × Bool :=
  let n := c.rd K.PWM_TIME_CAR_N
  if n != 0 && (c.lk.period + n - c.rd K.PWM_CAR_ALIGN % n) % n == 0 then
    let c := { c with pw := { c.pw with sync := c.word 0x20028 } }
    let follow := c.rd K.PWM_CFG_SYNC_MODE == 2 && decide (now ≤ c.pw.carAt + 5 * c.syncTol)
    (if follow then c else { c with pw := { c.pw with carAt := now } }, c.rd K.PWM_CFG_SYNC_MODE == 1 ||
      (c.rd K.PWM_CFG_SYNC_MODE == 2 && !follow))
  else (c, false)

/-- The link state of a period that starts. -/
def Cell.newPeriod (c : Cell) : Cell :=
  { c with lk := { c.lk with period := if c.lk.counted then (c.lk.period + 1) % 2 ^ 32 else c.lk.period, got := 0,
                             recLow := none, recHigh := none, next := none, originated := false,
                             owed := if c.lk.sentOn = 0 then c.lk.owed else c.lk.owed.drop 1, sentOn := 0, members := [] } }

/-- A record applies: its format and entries are taken, entry 0 plays (R141, R158). -/
def Cell.takeRecord (c : Cell) (now : Nat) (r : Rec) : Cell :=
  let f := bitsOf (byteAt r.body 0) 0 4
  let c := c.when (decide (2 < f)) fun c => c.cause now 7
  let es := if f = 1 ∨ f = 2 then (upto 4).map fun j => leAt r.body (2 + 3 * j) 3 else [0, 0, 0, 0]
  { c with pw := { c.pw with entries := es, nPred := bitsOf (byteAt r.body 1) 0 2, ix := 0 } }

/-- The estimators' period closes: its insertion and its samples become those of the last period (R501, R502, R504). -/
def Cell.closePeriod (c : Cell) (now : Nat) : Cell :=
  let c := c.tally now
  { c with hl := { c.hl with ins := 0, avg := c.hl.ins, wasTripped := c.hl.tripped, prev := c.hl.cur, cur := none, von := [],
                             vonPrev := c.hl.von } }

/-- What the estimators need of the instant t0 (R501, R502, R504). -/
def Cell.openPeriod (c : Cell) : Cell :=
  { c with hl := { c.hl with sig := c.sigma, run := c.mode == Mode.running || c.mode == Mode.coasting,
                             tripped := c.rd K.TRIP_STATUS_TRIP != 0 || c.rd K.TRIP_STATUS_GATE_FLT != 0,
                             on0 := c.rd K.PWM_STATUS_GATES } }

/-- A cell boundary (R17, R51, R171, R178): the record that t_H chose applies, or the cell coasts and plays the next entry
of its horizon; masks, carrier, sample strobe and boundaries follow. The second part says whether SYNCO pulses. -/
def Cell.boundaryActs (c : Cell) (now : Nat) : Cell × Bool :=
  let rec0 := c.lk.next
  let c := { c with pw := { c.pw with tb := now, held := false } }
  let c := (c.newPeriod.nextBound).strobe
  let bad := c.tm.layout && c.rd K.PWM_TIME_TC != 100 * c.tm.step
  let c := c.when (bad && !c.pw.tcBad) fun c => c.cause now 7
  let c := { c with pw := { c.pw with tcBad := bad } }
  let (c, pulse) := c.carrierStart now
  let c := { c with sl := { c.sl with holdoff := c.sl.holdoff - 1 } }
  match rec0 with
  | some r =>
    let run := !bitOf (byteAt r.header 0) 3
    let c := if run && (c.mode == Mode.blocked || c.mode == Mode.coasting) then { c with mode := Mode.running } else c
    if c.mode = Mode.running then
      let c := (c.maskAt r.header).takeRecord now r
      let c := (c.playEntry now (c.pw.entries.getD 0 0)).wr K.PWM_STATUS_ENTRY 0
      (if bitOf (byteAt r.body 0) 4 then c.startBypass now else c, pulse)
    else (if bitOf (byteAt r.body 0) 4 && c.mode == Mode.blocked then c.startBypass now else c.regate now, pulse)
  | none =>
    let c := if c.mode = Mode.running then { c with mode := Mode.coasting } else c
    if c.mode = Mode.coasting then
      let ix := Nat.min 4 (c.pw.ix + 1)
      let c := { c.maskCoast with pw := { c.maskCoast.pw with ix := ix } }
      let e := if ix ≤ c.pw.nPred then c.pw.entries.getD ix 0 else 0
      ((c.playEntry now e).wr K.PWM_STATUS_ENTRY (Nat.min 3 ix), pulse)
    else (c.regate now, pulse)

/-- The boundary with the estimators' period that closes before it and the one that opens with it. -/
def Cell.boundary (c : Cell) (now : Nat) : Cell × Bool :=
  let (c, pulse) := (c.closePeriod now).boundaryActs now
  (c.openPeriod, pulse)

/-- At t_H the cell judges whether it holds a good record, and chooses its side (R17, R307): the side of its direction
if a good header of the period came there, else the other, which then is its direction. -/
def Cell.holdLimit (c : Cell) : Cell :=
  let own := if c.lk.high then 1 else 0
  let swap := !bitOf c.lk.got own && bitOf c.lk.got (1 - own)
  let high := if swap then !c.lk.high else c.lk.high
  { c with lk := { c.lk with high := high, next := if high then c.lk.recHigh else c.lk.recLow } }

/-! ### Meanings -/

def execCellHoldLimit (cell : BitVec 64) (s : State) : Out := .next (s.onCell cell.toNat Cell.holdLimit)

def execCellBoundary (cell : BitVec 64) (s : State) : Out :=
  let (c, pulse) := (s.cell cell.toNat).boundary s.now
  .next ((s.setCell cell.toNat c).when pulse fun s => s.send (.synco cell.toNat))

/-- The fourth boundary after the last good record: BLOCKED, and the played-out source (R51, R171). -/
def Cell.playedOut (c : Cell) (now : Nat) : Cell :=
  if c.mode = Mode.coasting ∧ 3 ≤ c.pw.ix then (c.toBlocked now).cause now 25 else c

def execHorizonPlayedOut (cell : BitVec 64) (s : State) : Out :=
  .next (s.onCell cell.toNat fun c => c.playedOut s.now)

/-- The next part of the PWM entry begins (R161). -/
def Cell.partEnd (c : Cell) (now : Nat) : Cell :=
  match c.pw.parts with
  | [] => c
  | (_, cls) :: rest => { c with pw := { c.pw with parts := rest } }.demandClass now cls

def execPwmPartEnd (cell : BitVec 64) (s : State) : Out := .next (s.onCell cell.toNat fun c => c.partEnd s.now)

/-- The duty crosses the carrier on a leg: the demand of that leg changes over, in a CARRIER entry that plays. -/
def Cell.crossing (c : Cell) (now leg : Nat) : Cell :=
  if c.rd K.PWM_STATUS_STATE = 6 ∧ (leg = 0 ∨ c.bridge = true) then c.crossLeg now leg (!bitOf c.pw.demand (2 * leg)) else c

def execCarrierCrossing (cell : BitVec 64) (leg : Fin 2) (s : State) : Out :=
  .next (s.onCell cell.toNat fun c => c.crossing s.now leg)

/-- A gate that waited for its dead time turns on, its partner having been off for that time (R160). -/
def Cell.deadEnd (c : Cell) (now g : Nat) : Cell :=
  if !bitOf c.pw.wait g then c
  else
    let o := otherGate g
    if bitOf (c.rd K.PWM_STATUS_GATES) o && decide (c.pw.stretch.getD o 0 ≤ now) then c.regate now
    else if bitOf (c.rd K.PWM_STATUS_GATES) o then c
    else
      let c := { c with pw := { c.pw with wait := Machine.putBit c.pw.wait g false } }
      (c.putBit K.PWM_STATUS_GATES g true).pins

def execDeadTimeEnd (cell : BitVec 64) (gate : Fin 4) (s : State) : Out :=
  .next (s.onCell cell.toNat fun c => c.deadEnd s.now gate)

/-- The pending opening begins (R168). -/
def Cell.maskOpen (c : Cell) (now : Nat) : Cell :=
  match c.pw.openAt with
  | none => c
  | some _ => { c with pw := { c.pw with openAt := none, opened := some (c.pw.pos, 0) } }.regate now

def execMaskOpen (cell : BitVec 64) (s : State) : Out := .next (s.onCell cell.toNat fun c => c.maskOpen s.now)

/-- OPEN_MAX boundaries open with unchanged sign: the set of s applies again (R168); a cell that coasts stays open. -/
def Cell.maskOpenMax (c : Cell) (now : Nat) : Cell :=
  match c.pw.opened with
  | some (s, n) =>
    if c.rd K.PWM_MASKT_OPEN_MAX ≤ n && !c.pw.coastOpen && c.mode != Mode.coasting then
      { c with pw := { c.pw with opened := none, pos := s } }.regate now
    else c
  | none => c

def execMaskOpenMax (cell : BitVec 64) (s : State) : Out := .next (s.onCell cell.toNat fun c => c.maskOpenMax s.now)

/-- A rising SYNCI edge in follow mode (R170): within TOL ticks of a carrier start it sets t_s, else it counts. -/
def Cell.synci (c : Cell) (now : Nat) : Cell × Bool :=
  if c.rd K.PWM_CFG_SYNC_MODE != 2 then (c, false)
  else
    let edge : Int := (now : Int) - 5 * (c.syncComp : Int)
    let t : Int := 5 * (c.tCar : Int)
    let d : Int := (edge - (c.pw.carAt : Int)) % t
    let dist : Int := if 2 * d ≤ t then d else t - d
    if dist ≤ 5 * (c.syncTol : Int) then
      (({ c with pw := { c.pw with carAt := edge.toNat } }.put K.PWM_STATUS_SYNC_LOST false).absent 10, true)
    else (c.inc K.PWM_SYNCST_ERR_CNT, false)

def execSynciEdge (cell : BitVec 64) (s : State) : Out :=
  let (c, ok) := (s.cell cell.toNat).synci s.now
  .next ((s.setCell cell.toNat c).when ok fun s => s.send (.synco cell.toNat))

/-- Two carrier periods without a valid edge (R170). -/
def execSyncLost (cell : BitVec 64) (s : State) : Out :=
  .next (s.onCell cell.toNat fun c =>
    c.when (c.rd K.PWM_CFG_SYNC_MODE == 2) fun c => (c.put K.PWM_STATUS_SYNC_LOST true).raiseLevel s.now 10)

/-- A comparator's filtered and qualified output becomes active: an enabled one latches its trip, and all gates go off
(R173, R174); the cell trigger may fire (R431). -/
def Cell.compActive (c : Cell) (now i : Nat) : Cell :=
  let c := c.putBit K.TRIP_STATUS_CMP_ACT i true
  let c := c.when (c.hbit K.CTRG_CFG_CMP_MASK i) fun c => c.trigger 1 (c.clock now)
  c.when (c.bit K.TRIP_CFG_TRIP_EN i) fun c =>
    (({ c.putBit K.TRIP_STATUS_TRIP i true with hl := { c.hl with tripped := true } }).raiseLevel now i).regate now

def execComparatorActive (cell : BitVec 64) (cmp : Fin 4) (s : State) : Out :=
  .next (s.onCell cell.toNat fun c => c.compActive s.now cmp)

def execComparatorInactive (cell : BitVec 64) (cmp : Fin 4) (s : State) : Out :=
  .next (s.onCell cell.toNat fun c => (c.putBit K.TRIP_STATUS_CMP_ACT cmp false).absent cmp)

/-- The hardwired path (R179): BYP at once, gates off, in every state of R50; it enters BYPASSED but from RESET and
LOCKED. -/
def Cell.hwBypass (c : Cell) (now : Nat) : Cell :=
  let mode := if c.mode = Mode.reset ∨ c.mode = Mode.locked then c.mode else Mode.bypassed
  let c := { (c.tally now).put K.TRIP_STATUS_HW_BYP true with mode := mode, pw := { c.pw with byp := true, bypassing := false } }
  (c.discard.raiseLevel now 4).regate now

def execHwBypass (cell : BitVec 64) (s : State) : Out := .next (s.onCell cell.toNat fun c => c.hwBypass s.now)

def execTripClear (cell : BitVec 64) (value : BitVec 32) (s : State) : Out :=
  .next (s.onCell cell.toNat fun c => c.clearTrip s.now value.toNat)

/-- A gate pin differs from its driven level (R177): latched like a trip, all gates off. -/
def Cell.gateFault (c : Cell) (now g : Nat) : Cell :=
  let c := { c with hl := { c.hl with tripped := true } }
  (((c.putBit K.TRIP_STATUS_GATE_FLT g true).raiseLevel now 5).regate now).putBit K.GATE_RB_PIN g
    (!bitOf (c.rd K.GATE_RB_PIN) g)

def execGateReadbackFault (cell : BitVec 64) (gate : Fin 4) (s : State) : Out :=
  .next (s.onCell cell.toNat fun c => c.gateFault s.now gate)

/-- BYP differs from its driven level (R180): the source is raised, the output stays driven. -/
def Cell.bypFault (c : Cell) (now : Nat) : Cell :=
  ((c.put K.TRIP_STATUS_BYP_FLT true).raiseLevel now 6).put K.GATE_RB_BYP_PIN (!c.pw.byp)

def execBypReadbackFault (cell : BitVec 64) (s : State) : Out := .next (s.onCell cell.toNat fun c => c.bypFault s.now)

/-- BYP_CMD: BYPASS = 1 with the key starts a bypass; any other write is discarded (R181). -/
def Cell.bypCmd (c : Cell) (now v : Nat) : Cell :=
  c.when (bitOf v 0 && bitsOf v 16 16 == 0xA5A5) fun c => c.startBypass now

def execBypCmd (cell : BitVec 64) (value : BitVec 32) (s : State) : Out :=
  .next (s.onCell cell.toNat fun c => c.bypCmd s.now value.toNat)

/-- BYP_DLY ticks after a bypass started, BYP asserts (R178, R594). -/
def Cell.bypAssert (c : Cell) : Cell :=
  if c.pw.bypassing then { c with pw := { c.pw with bypassing := false, byp := true } }.pins else c

def execBypAssert (cell : BitVec 64) (s : State) : Out := .next (s.onCell cell.toNat Cell.bypAssert)

/-! ### Reset, self-test and states -/

/-- VSUP below the supervisor threshold: RESET, and every latch of the cell goes (R51, R425, R430). -/
def execVsupReset (cell : BitVec 64) (s : State) : Out :=
  .next (s.onCell cell.toNat fun c => { Cell.reset with bridge := c.bridge })

/-- The supervisor releases reset: CFG_BRIDGE is sampled, level causes that are present are raised again, and the
self-test starts (R51, R425, R563). -/
def Cell.release (c : Cell) (now : Nat) (bridge : Bool) : Cell :=
  if c.mode ≠ Mode.reset then c
  else
    let c := { c with down := false, mode := Mode.selfTest, bridge := bridge }
    let c := c.put K.PWM_CFG_BRIDGE bridge
    let live := c.rd K.CFLT_LIVE_LIVE
    let c := c.forN 4 fun i c => c.when (c.bit K.TRIP_STATUS_CMP_ACT i && c.bit K.TRIP_CFG_TRIP_EN i) fun c =>
      (c.putBit K.TRIP_STATUS_TRIP i true).raiseLevel now i
    c.forN 32 fun i c => c.when (decide (4 ≤ i) && bitOf live i) fun c => c.raiseLevel now i

def execSupervisorRelease (cell : BitVec 64) (bridge : Bool) (s : State) : Out :=
  .next (s.onCell cell.toNat fun c => c.release s.now bridge)

/-- The self-test of the cell ends: LOCKED with the Lock latch, else SAFE HOLD; a failure raises source 24 (R51, R52). -/
def Cell.testEnd (c : Cell) (now : Nat) (pass : Bool) : Cell :=
  if c.mode ≠ Mode.selfTest then c
  else
    let c := { c with mode := if c.on K.CFLT_SUM_LOCK_LATCH then Mode.locked else Mode.safeHold, stFail := !pass }
    c.when (!pass) fun c => c.raiseLevel now 24

def execCellSelfTestEnd (cell : BitVec 64) (pass : Bool) (s : State) : Out :=
  .next (s.onCell cell.toNat fun c => c.testEnd s.now pass)

/-- Not ended 25 ms after reset release: it counts as failed (R54). -/
def execCellSelfTestTimeout (cell : BitVec 64) (s : State) : Out :=
  .next (s.onCell cell.toNat fun c => c.testEnd s.now false)

/-- No good frame for 1 s: ENUMERATED or BLOCKED goes to SAFE HOLD (R51). -/
def execCellFrameTimeout (cell : BitVec 64) (s : State) : Out :=
  .next (s.onCell cell.toNat fun c =>
    if c.mode = Mode.enumerated ∨ c.mode = Mode.blocked then { c.discard with mode := Mode.safeHold } else c)

/-! ### Fault sources -/

def execCellSourceLatch (cell : BitVec 64) (src : Fin 32) (s : State) : Out :=
  .next (s.onCell cell.toNat fun c => c.cause s.now src)

def execCfltStatClear (cell : BitVec 64) (mask : BitVec 32) (s : State) : Out :=
  .next (s.onCell cell.toNat fun c => c.clearStat s.now mask.toNat)

def execCfltRearm (cell : BitVec 64) (s : State) : Out := .next (s.onCell cell.toNat Cell.rearm)

/-- The live cause of a level source ends (R425); a readback mismatch that has gone shows the driven level again. -/
def execCellLiveCauseAbsent (cell : BitVec 64) (src : Fin 32) (s : State) : Out :=
  .next (s.onCell cell.toNat fun c => (c.absent src).pins)

/-- CTRG_CMD.FORCE = 1 fires the trigger with cause 4 (R431). -/
def execCtrgForce (cell : BitVec 64) (s : State) : Out :=
  .next (s.onCell cell.toNat fun c => c.trigger 4 (c.clock s.now))

/-- HOLDOFF boundaries have passed: the trigger accepts causes again (R432). -/
def execCtrgHoldoffEnd (cell : BitVec 64) (s : State) : Out :=
  .next (s.onCell cell.toNat fun c => c.when (c.sl.holdoff == 0) fun c => c.put K.CTRG_ST_HOLD false)

end Sys2Proof.Machine
end

