-- ==== Sys2Proof/Machine/CellAdc.lean ====
section
/-! DEFINITION. Cell measurement (R241 to R262): regular, injected and calibration conversions, system calibration,
over-range and the open-wire test of one KS210. -/

namespace Sys2Proof.Machine

/-- Channel 0 or 2 is one of a differential pair and so signed (R242). -/
def Cell.signed (c : Cell) (ch : Nat) : Bool :=
  (ch == 0 && c.hon K.ADC_CFG_DIFF01) || (ch == 2 && c.hon K.ADC_CFG_DIFF23)

/-- A channel code that can be converted: 0 to 11 and no second code of a differential pair (R242). -/
def Cell.channelOk (c : Cell) (ch : Nat) : Bool :=
  decide (ch < 12) && !(ch == 1 && c.hon K.ADC_CFG_DIFF01) && !(ch == 3 && c.hon K.ADC_CFG_DIFF23)

/-- The channel of element `j` of the sequence. -/
def Cell.element (c : Cell) (j : Nat) : Nat :=
  if j < 8 then c.hrd (K.SEQ_EL0_EL j) else c.hrd (K.SEQ_EL1_EL (j - 8))

/-- The integer that a 16-bit code of a channel stands for. -/
def Cell.codeInt (c : Cell) (ch code : Nat) : Int := if c.signed ch then toSigned 16 code else code

/-- A raw code after the system calibration (R244), as a 16-bit pattern. -/
def Cell.calibrated (c : Cell) (ch raw : Nat) : Nat :=
  let off := toSigned 16 (c.rd (K.CAL_OFF ch))
  let v := rneDivInt ((c.codeInt ch raw - off) * (c.rd (K.CAL_GAIN ch) : Int)) 32768
  if c.signed ch then ofSigned 16 (clampInt (-32768) 32767 v) else (clampInt 0 65535 v).toNat

/-- The code an over-range conversion delivers: range 1 above, 2 below (R258). -/
def Cell.limitCode (c : Cell) (ch range : Nat) : Nat :=
  if c.signed ch then if range = 1 then 0x7FFF else 0x8000 else if range = 1 then 0xFFFF else 0

/-- A 16-bit code in a 32-bit result register (R243). -/
def Cell.aligned (c : Cell) (ch code : Nat) : Nat :=
  if c.hon K.ADC_CFG_ALIGN then code * 65536 else if c.signed ch then ofSigned 32 (toSigned 16 code) else code

/-- A conversion ended: whether it carries SUSPECT, and the over-range marks it leaves (R258, R259). `hold` is its hold
instant and `inj` says that it was injected. -/
def Cell.ended (c : Cell) (now hold ch range : Nat) (inj : Bool) : Bool × Cell :=
  let near := match c.ad.ovrEnd with
    | some e => inj && decide (hold < e + 1000)
    | none => false
  let sus := decide (0 < c.ad.suspect) || near
  let c := { c with ad := { c.ad with suspect := c.ad.suspect - 1 } }
  if range = 0 then (sus, c)
  else
    let first := c.rd K.OVR_FLAG_OVR == 0
    let c := { c.putBit K.OVR_FLAG_OVR ch true with ad := { c.ad with suspect := 2, ovrEnd := some now } }
    (sus, c.when first fun c => c.cause now 8)

/-- The converter cause of the cell trigger (R431): a regular result not marked SUSPECT crosses THR. -/
def Cell.triggerOn (c : Cell) (hold ch code : Nat) : Cell :=
  if !(c.hon K.CTRG_CFG_CH_EN && c.hrd K.CTRG_CFG_CH == ch) then c
  else
    let thr := c.codeInt ch (c.hrd K.CTRG_THR_THR)
    let past := fun (x : Nat) => if c.hon K.CTRG_CFG_DIR then decide (c.codeInt ch x < thr) else decide (thr < c.codeInt ch x)
    let fire := match c.ad.prev with
      | some p => past code && !past p
      | none => false
    let c := { c with ad := { c.ad with prev := some code } }
    c.when fire fun c => c.trigger 2 (c.clock hold)

/-- A regular result that neither is SUSPECT nor over-range: the switches whose channel it is and that were on from t0 to
its hold instant keep its voltage. -/
def Cell.keepVon (c : Cell) (hold ch code : Nat) : Cell :=
  let on := fun s => c.hbit K.HCFG_VON_EN s && c.hrd (K.H_VON_T_VON_CH s) == ch && bitOf c.hl.on0 s &&
    (decide (c.offAt s ≤ c.pw.tb) || decide (hold < c.offAt s))
  let v := fMul (fOfInt (c.codeInt ch code)) (c.hrd K.H_VON_SCALE_VON_SCALE)
  { c with hl := { c.hl with von := ((upto 4).filter on).foldl (fun m s => mapSet (fun _ => 2 ^ 32) m s v) c.hl.von } }

/-- The next element of the regular sequence delivers its result (R246, R247, R258). -/
def Cell.regularDone (c : Cell) (now raw range : Nat) : Cell :=
  let j := c.ad.elem
  let ch := c.element j
  if c.hrd K.SEQ_CFG_SEQ_LEN ≤ j ∨ c.channelOk ch = false then c
  else
    let inGroup := decide (j < c.hrd K.SEQ_CFG_SIM_N)
    let hold := if inGroup then c.pw.tb else now - 120
    let (sus, c) := c.ended now hold ch range false
    let code := if range = 0 then c.calibrated ch raw else c.limitCode ch range
    let c := c.wr (K.RES_VALUE ch) (c.aligned ch code)
    let c := (((c.put (K.RES_ST_SUSPECT ch) sus).put (K.RES_ST_OVR_LAST ch) (range != 0)).put (K.RES_ST_RESTARTED ch)
      c.ad.aborted).put (K.RES_ST_STALE ch) false
    let c := { c with ad := { c.ad with have' := Machine.putBit c.ad.have' ch true, codes := mapSet (fun _ => 0) c.ad.codes ch code,
                                        group := if inGroup then c.ad.group ++ [code] else c.ad.group, elem := j + 1,
                                        aborted := false } }
    c.when (!sus) fun c => (c.when (range == 0) fun c => c.keepVon hold ch code).triggerOn hold ch code

/-- The injected request that runs: the first urgent one, else the first (R252). -/
def injNext (q : List (Nat × Bool)) : Option (Nat × Bool) := (q.find? Prod.snd).or q.head?

/-- An injected conversion ends (R252). -/
def Cell.injectedDone (c : Cell) (now raw range : Nat) : Cell :=
  match injNext c.ad.inj with
  | none => c
  | some (ch, urgent) =>
    let (sus, c) := c.ended now (now - 120) ch range true
    let code := if range = 0 then c.calibrated ch raw else c.limitCode ch range
    let c := { c with ad := { c.ad with inj := c.ad.inj.erase (ch, urgent) } }
    let c := c.wr K.INJ_RESULT_VALUE (c.aligned ch code)
    let c := (((c.wr K.INJ_INFO_CH ch).put K.INJ_INFO_URGENT urgent).put K.INJ_INFO_SUSPECT sus).put K.INJ_INFO_OVR (range != 0)
    let c := ((c.wr K.INJ_TIME_TIME (c.clock (now - 120))).put K.INJ_STATUS_DONE true).wr K.INJ_STATUS_DEPTH c.ad.inj.length
    c.wr K.INJ_STATUS_COUNT (c.rd K.INJ_STATUS_COUNT + 1)

/-- The calibration step ends with an error code (R256): the coefficients stay, and source 31 is raised. -/
def Cell.calFail (c : Cell) (now code : Nat) : Cell :=
  let c := { c with ad := { c.ad with cal := none } }
  ((((c.put K.CAL_STATUS_CAL_BUSY false).put K.ADC_STATUS_CAL_BUSY false).put K.CAL_STATUS_CAL_ERR true).wr
    K.CAL_STATUS_ERR_CODE code).cause now 31

/-- How many conversions a step that starts now takes (R255). -/
def Cell.calN (c : Cell) : Nat := 8 * 2 ^ c.rd K.ADC_CFG_CAL_N

/-- A calibration conversion ends (R256, R257): over-range fails the step, SUSPECT is repeated, others count. -/
def Cell.calDone (c : Cell) (now raw range : Nat) : Cell :=
  match c.ad.cal with
  | none => c
  | some (step, ch, ref, n, sum) =>
    let (sus, c) := c.ended now (now - 120) ch range false
    if range ≠ 0 then c.calFail now 1
    else if sus ∨ n ≤ c.rd K.CAL_STATUS_CONV then c
    else
      let c := { c with ad := { c.ad with cal := some (step, ch, ref, n, sum + c.codeInt ch raw) } }
      c.wr K.CAL_STATUS_CONV (c.rd K.CAL_STATUS_CONV + 1)

/-- CONVERSION_DONE: kind 0 regular, 1 injected, 2 calibration; `range` 0 in range, 1 above, 2 below. -/
def execConversionDone (cell : BitVec 64) (kind : Fin 3) (raw : BitVec 16) (range : Fin 3) (s : State) : Out :=
  .next (s.onCell cell.toNat fun c =>
    match kind with
    | 0 => c.regularDone s.now raw.toNat range
    | 1 => c.injectedDone s.now raw.toNat range
    | _ => c.calDone s.now raw.toNat range)

/-- An injected request (R252, R254): refused on a bad channel or a full queue; an urgent one aborts a sequential element
that runs. Answers the mailbox result. -/
def Cell.injReq (c : Cell) (now ch : Nat) (urgent : Bool) : Cell × Nat :=
  if !c.hold.channelOk ch then (c, 3)
  else if 4 ≤ c.ad.inj.length then (c.put K.INJ_STATUS_OVF true, 2)
  else
    let ts := c.tm.step * 500
    let sim := c.hrd K.SEQ_CFG_SIM_N
    let running := decide (sim ≤ c.ad.elem) && decide (c.ad.elem < c.hrd K.SEQ_CFG_SEQ_LEN)
    let fits := decide (now - c.pw.tb + 1000 ≤ ts)
    let abort := urgent && running && fits && !c.ad.inj.any Prod.snd
    let c := { c with ad := { c.ad with inj := c.ad.inj ++ [(ch, urgent)], aborted := c.ad.aborted || abort } }
    let c := c.when abort fun c => c.inc K.ADC_STATUS_RESTART_CNT
    (c.wr K.INJ_STATUS_DEPTH c.ad.inj.length, 0)

def execInjReq (cell : BitVec 64) (ch : Fin 16) (urgent : Bool) (s : State) : Out :=
  .next (s.onCell cell.toNat fun c => (c.injReq s.now ch urgent).1)

/-- CAL_CMD (R255, R256): STEP 1 ZERO, 2 FULL with REF, 3 ABORT, 0 nothing. Answers the mailbox result. -/
def Cell.calCmd (c : Cell) (now ch step ref : Nat) : Cell × Nat :=
  match step with
  | 0 => (c, 0)
  | 3 => if c.on K.CAL_STATUS_CAL_BUSY then (c.calFail now 3, 0) else (c, 2)
  | _ =>
    if !c.writable || c.on K.CAL_STATUS_CAL_BUSY then (c, 2)
    else if !c.hold.channelOk ch then (c, 3)
    else
      let zeroed := c.ad.zero.map Prod.fst == some ch
      let c := { c with ad := { c.ad with cal := some (step, ch, ref, c.calN, 0) } }
      let c := (((c.put K.CAL_STATUS_CAL_BUSY true).put K.ADC_STATUS_CAL_BUSY true).wr K.CAL_STATUS_CH ch).wr K.CAL_STATUS_CONV 0
      let c := c.put K.CAL_STATUS_ZERO_DONE zeroed
      if step = 2 ∧ zeroed = false then (c.calFail now 3, 0) else (c, 0)

def execCalZero (cell : BitVec 64) (ch : Fin 16) (s : State) : Out :=
  .next (s.onCell cell.toNat fun c => (c.calCmd s.now ch 1 0).1)

def execCalFull (cell : BitVec 64) (ch : Fin 16) (ref : BitVec 16) (s : State) : Out :=
  .next (s.onCell cell.toNat fun c => (c.calCmd s.now ch 2 ref.toNat).1)

def execCalAbort (cell : BitVec 64) (s : State) : Out :=
  .next (s.onCell cell.toNat fun c => (c.calCmd s.now 0 3 0).1)

/-- A step that has its conversions completes (R255, R256): ZERO keeps Z; FULL writes OFF and GAIN, or fails where GAIN
leaves 4000h to FFFFh. -/
def Cell.calStepDone (c : Cell) (now : Nat) : Cell :=
  match c.ad.cal with
  | none => c
  | some (step, ch, ref, n, sum) =>
    if c.rd K.CAL_STATUS_CONV < n then c
    else
      let avg := rneDivInt sum n
      let fin := fun (c : Cell) => ((({ c with ad := { c.ad with cal := none } }.put K.CAL_STATUS_CAL_BUSY false).put
        K.ADC_STATUS_CAL_BUSY false).put K.CAL_STATUS_DONE true)
      if step = 1 then (fin { c with ad := { c.ad with zero := some (ch, avg) } }).put K.CAL_STATUS_ZERO_DONE true
      else
        let z := match c.ad.zero with
          | some (_, z) => z
          | none => 0
        let d := avg - z
        let num := c.codeInt ch ref * 32768
        let num := if d < 0 then -num else num
        let gain := if d = 0 then 0 else rneDivInt num d.natAbs
        if gain < 0x4000 ∨ 0xFFFF < gain then c.calFail now 2
        else
          let c := (c.wr (K.CAL_OFF ch) (ofSigned 16 z)).wr (K.CAL_GAIN ch) gain.toNat
          (fin { c with ad := { c.ad with zero := none } }).put K.CAL_STATUS_ZERO_DONE false

def execCalStepDone (cell : BitVec 64) (s : State) : Out := .next (s.onCell cell.toNat fun c => c.calStepDone s.now)

/-- An open-wire test of a channel starts where it is due (R261): enabled, PER periods after the last, no non-urgent
injected conversion pending. -/
def Cell.owTest (c : Cell) (ch : Nat) : Cell :=
  if c.on (K.OW_CFG_EN ch) && c.channelOk ch && decide (c.rd (K.OW_CFG_PER ch) ≤ mapGet (fun _ => 0) c.ad.owPer ch) &&
      !(c.ad.inj.any fun e => !e.2) then
    { c with ad := { c.ad with owPer := mapSet (fun _ => 0) c.ad.owPer ch 0, owOn := some ch } }
  else c

def execOpenWireTest (cell : BitVec 64) (ch : Fin 12) (s : State) : Out :=
  .next (s.onCell cell.toNat fun c => c.owTest ch)

/-- The open-wire test that runs completes with its reference and test codes and their ranges (R258, R259, R261, R262): a
conversion that is over-range or SUSPECT leaves the run as it is. -/
def Cell.owDone (c : Cell) (now : Nat) (ref test : Int) (rangeR rangeT : Nat) : Cell :=
  match c.ad.owOn with
  | none => c
  | some ch =>
    let r := { c with ad := { c.ad with owOn := none } }.ended now (now - 620) ch rangeR false
    let t := r.2.ended now (now - 120) ch rangeT false
    let c := t.2
    if r.1 ∨ t.1 ∨ rangeR ≠ 0 ∨ rangeT ≠ 0 then c
    else if (c.rd (K.OW_CFG_DELTA ch) : Int) * 16 < (test - ref).natAbs then
      let n := mapGet (fun _ => 0) c.ad.owRun ch + 1
      if c.rd (K.OW_CFG_N ch) ≤ n then
        let new := !c.bit K.OW_OPEN_OPEN ch
        let c := { c.putBit K.OW_OPEN_OPEN ch true with ad := { c.ad with owRun := mapSet (fun _ => 0) c.ad.owRun ch 0 } }
        c.when new fun c => c.cause now 9
      else { c with ad := { c.ad with owRun := mapSet (fun _ => 0) c.ad.owRun ch n } }
    else { c with ad := { c.ad with owRun := mapSet (fun _ => 0) c.ad.owRun ch 0 } }

def execOpenWireDone (cell : BitVec 64) (ref test : BitVec 16) (refRange testRange : Fin 3) (s : State) : Out :=
  .next (s.onCell cell.toNat fun c =>
    let ch := c.ad.owOn.getD 0
    c.owDone s.now (c.codeInt ch ref.toNat) (c.codeInt ch test.toNat) refRange testRange)

/-! ### Values of the status slot -/

/-- VCAP, UQ16.8 in V, from the first group element that names the channel of VCAP_CFG (R249). -/
def Cell.vcap (c : Cell) : Nat :=
  match (upto (c.hrd K.SEQ_CFG_SIM_N)).find? fun j => c.element j == c.hrd K.VCAP_CFG_CH with
  | none => 0
  | some j => Nat.min 0xFFFFFF ((c.ad.group.getD j 0 * c.hrd K.VCAP_CFG_SCALE + 0x8000) / 0x10000)

/-- TEMP, Q9.6 in °C: the highest over the channels of TEMP_CFG.MASK that have delivered a result; 8000h without one
(R251). -/
def Cell.temp (c : Cell) : Nat :=
  let cs := (upto 12).filter fun i => c.hbit K.TEMP_CFG_MASK i && bitOf c.ad.have' i
  let one := fun i => clampInt (-32768) 32767
    (c.codeInt i (mapGet (fun _ => 0) c.ad.codes i) * toSigned 16 (c.hrd K.TEMP_SCALE_TSCALE) / 32768 +
      toSigned 16 (c.hrd K.TEMP_CFG_TOFF))
  match cs with
  | [] => 0x8000
  | i :: r => ofSigned 16 (r.foldl (fun m j => max m (one j)) (one i))

end Sys2Proof.Machine
end

