-- ==== Sys2Proof/Machine/CellLink.lean ====
section
/-! DEFINITION. The strand side of one KS210 (R184 to R236, R295, R307 to R309): positions from training, blocking, command
and collection frames as they pass, its status, origination, and the sub-strand of a compound head. -/

namespace Sys2Proof.Machine

/-- The highest strand version of the KS210 A2, major in bits 7 to 4 (R236). -/
def cellVersion : Nat := 0x12

/-! ### Header fields (R193) -/

namespace Hdr
def type (h : List Byte) : Nat := bitsOf (byteAt h 0) 0 3
def block (h : List Byte) : Bool := bitOf (byteAt h 0) 3
def safe (h : List Byte) : Bool := bitOf (byteAt h 0) 4
def maint (h : List Byte) : Bool := bitOf (byteAt h 0) 5
def nblock (h : List Byte) : Bool := bitOf (byteAt h 0) 7
def ver (h : List Byte) : Nat := byteAt h 1
def ncell (h : List Byte) : Nat := bitsOf (leAt h 2 2) 9 7
def period (h : List Byte) : Nat := leAt h 4 4
def epoch (h : List Byte) : Nat := byteAt h 8
/-- How the HCRC of a header stands. -/
def crc (h : List Byte) : CrcState := crcState 32 (leAt h 28 4) (crc32c (h.take 28))
end Hdr

/-- The mailbox field of a header (R204). -/
def mbReqOf (h : List Byte) : MbReq :=
  { op := bitsOf (byteAt h 12) 0 4, seq := bitsOf (byteAt h 12) 4 4, pos := bitsOf (byteAt h 13) 0 7, bc := bitOf (byteAt h 13) 7,
    path := leAt h 14 4, addr := leAt h 18 4, data := leAt h 22 4, orig := bitsOf (byteAt h 26) 0 1 }

/-- Header bytes 12 to 27 for a request or response. -/
def mbBytes (r : MbReq) (data result : Nat) : List Byte :=
  [BitVec.ofNat 8 (r.op + 16 * r.seq), BitVec.ofNat 8 (r.pos + 128 * r.bc.toNat)] ++ bytesLE 4 r.path ++ bytesLE 4 r.addr ++
    bytesLE 4 data ++ [BitVec.ofNat 8 r.orig, BitVec.ofNat 8 result]

/-- The 16 bytes of a slot with its CRC-16 over the prefix of position and period (R198). -/
def slotBytes (pos period : Nat) (body : List Byte) : List Byte :=
  body ++ bytesLE 2 (crc16From 0xFFFF (BitVec.ofNat 8 pos :: BitVec.ofNat 8 period :: body))

/-- A slot filled with FFh and stomped (R199). -/
def stompedSlot (pos period len : Nat) : List Byte :=
  let body := List.replicate (len - 2) 0xFF#8
  body ++ bytesLE 2 (0xFFFF - crc16From 0xFFFF (BitVec.ofNat 8 pos :: BitVec.ofNat 8 period :: body))

/-- How a slot of `len` bytes at an offset of a frame stands; a frame that ends before it has it bad. -/
def slotState (pos : Nat) (f : List Byte) (off len : Nat) : CrcState :=
  let b := (f.drop off).take len
  if b.length < len then .bad
  else crcState 16 (leAt b (len - 2) 2)
    (crc16From 0xFFFF (BitVec.ofNat 8 pos :: BitVec.ofNat 8 (Hdr.period f) :: b.take (len - 2)))

/-! ### Positions and sides -/

/-- The position of the cell; none where LNK_STATUS.POS reads 7Fh (R215). -/
def Cell.pos (c : Cell) : Nat := c.rd K.LNK_STATUS_POS

def Cell.hasPos (c : Cell) : Bool := c.lk.up.isSome && c.pos != 0x7F

/-- A port is the low side (R307): the upstream port, or the downstream one where the position came from a tail. -/
def Cell.isLow (c : Cell) (port : Nat) : Bool := (c.lk.up == some port) != c.lk.fromTail

/-- The other strand port. -/
def otherPort (port : Nat) : Nat := 1 - port

/-- Frames that arrive on a port leave by the other, where that has lock and is trained. -/
def Cell.forwards (c : Cell) (port : Nat) : Bool :=
  bitOf c.lk.trained (otherPort port) && bitOf c.lk.locks (otherPort port) && c.mode != Mode.reset && c.mode != Mode.selfTest

/-- The slot size of the cell in collection frames. -/
def Cell.slotLen (c : Cell) : Nat := if c.on K.LNK_CFG2_SILL_EN then 24 else 16

/-! ### Training -/

/-- What D3 of a TS_UP gives: the position, whether from a tail, and the D3 sent on (R215). -/
def hopOf (d3 : Nat) : Option (Nat × Bool) × Nat :=
  if d3 ≤ 0x5F then (some (d3, false), d3 + 1)
  else if 0x80 ≤ d3 ∧ d3 ≤ 0xDF then (some (d3 - 0x80, true), if d3 = 0x80 then 0xFF else d3 - 1)
  else (none, 0x7F)

/-- A port has received 8 identical TS_UP (R186, R216, R234): it becomes upstream, the cell answers TS_DN there and sends
TS_UP on; on another port than the upstream it only sets DUAL_UP. -/
def Cell.upstream (c : Cell) (now port d2 d3 : Nat) : Cell × List (Nat × Nat × Nat × Nat) :=
  if c.mode = Mode.reset ∨ c.mode = Mode.selfTest then (c, [])
  else
    match c.lk.up with
    | some p => if p = port then (c, []) else (({ c with lk := { c.lk with dualUp := true } }).cause now 26, [])
    | none =>
      let (h, next) := hopOf d3
      let ver := Nat.min d2 cellVersion
      let c := { c with lk := { c.lk with up := some port, ref := some port, upVer := ver, high := false,
                                          fromTail := match h with
                                            | some (_, t) => t
                                            | none => false } }
      let c := (c.put K.LNK_STATUS_UP_PORT (port == 1)).wr K.LNK_STATUS_POS ((h.map Prod.fst).getD 0x7F)
      (c, [(port, 2, cellVersion, 0), (otherPort port, 1, ver, next)])

/-- The lock bits of LNK_STATUS follow the ports. -/
def Cell.showLocks (c : Cell) : Cell :=
  match c.lk.up with
  | none => (c.put K.LNK_STATUS_LOCK_UP false).put K.LNK_STATUS_LOCK_DN false
  | some p => (c.put K.LNK_STATUS_LOCK_UP (bitOf c.lk.locks p)).put K.LNK_STATUS_LOCK_DN (bitOf c.lk.locks (otherPort p))

/-- A port gains block lock. -/
def Cell.gainLock (c : Cell) (port : Nat) : Cell :=
  { c with lk := { c.lk with locks := Machine.putBit c.lk.locks port true } }.showLocks

/-- A port loses block lock (R14, R51, R184, R216, R308): the reference moves to the other port where that has lock, else
the link is lost and records are dropped; an upstream port gives up its role. -/
def Cell.loseLock (c : Cell) (now port : Nat) : Cell :=
  let c := { c with lk := { c.lk with locks := Machine.putBit c.lk.locks port false, trained := Machine.putBit c.lk.trained port false } }
  let c := if port < 2 ∧ c.lk.ref = some port then
      if bitOf c.lk.locks (otherPort port) then { c with lk := { c.lk with ref := some (otherPort port) } }
      else ({ c with lk := { c.lk with recLow := none, recHigh := none, next := none } }).cause now 11
    else c
  let c := if port < 2 ∧ c.lk.up = some port ∧ bitOf c.lk.locks (otherPort port) = false then
      { c with lk := { c.lk with up := none } } else c
  let c := if port = 2 then { c with lk := { c.lk with members := [] } }.wr K.SUB_STATUS_K 0 else c
  c.showLocks

/-- A_h of a head with `k` members in units of 0.1 ns, A_in being the largest declared by a member (R228). -/
def headLatency (k aIn : Nat) : Nat := 400 + 240 * k + 8 * (32 + 16 * k) + aIn

/-- A segment of the cell has trained (R186, R202, R226, R362): on a strand port the period count and the time wait for a
good header; on port D the members, their number and propagation in units of 0.1 ns are known. -/
def Cell.segment (c : Cell) (now port d2 k prop : Nat) : Cell :=
  if c.mode = Mode.reset ∨ c.mode = Mode.selfTest then c
  else
    let c := { c with lk := { c.lk with trained := Machine.putBit c.lk.trained port true, locks := Machine.putBit c.lk.locks port true } }.showLocks
    if port = 2 then
      let many := decide (8 < k)
      let long := decide (100 < prop)
      let n := Nat.min k 8
      let c := ((c.wr K.SUB_STATUS_K n).put K.SUB_STATUS_SUB_OVER many).put K.SUB_STATUS_SUB_LONG long
      let c := ((c.wr K.SUB_LAT_PROP prop).wr K.SUB_LAT_A (headLatency n 0)).wr K.SUB_STATUS_SUB_VER
        (Nat.min d2 (if c.lk.header.isEmpty then cellVersion else Hdr.ver c.lk.header))
      if many || long then c.cause now 28 else c.absent 28
    else
      let c := if c.lk.up = some port then { c with lk := { c.lk with headerSince := false, counted := false } } else c
      c.put K.TM_ST_LOADED false

/-! ### Compound heads (R225 to R231) -/

/-- The cell is in head mode (R225). -/
def Cell.headMode (c : Cell) : Bool :=
  c.on K.SUB_CFG_HEAD_EN && bitOf c.lk.trained 2 && decide (0 < c.rd K.SUB_STATUS_K) &&
    decide (0x12 ≤ Hdr.ver c.lk.header) && !c.on K.SUB_STATUS_SUB_LONG && !c.on K.SUB_STATUS_LVL_OVER

/-- A member's status slot counts in this period (R231). -/
def Cell.memberUsable (c : Cell) (m : List Byte) : Bool :=
  let st := bitsOf (byteAt m 0) 0 4
  (st == Mode.blocked || st == Mode.running || st == Mode.coasting) && byteAt m 1 == c.lk.epoch &&
    bitOf (byteAt m 0) 4 == c.bridge && decide (bitsOf (byteAt m 8) 0 3 < 3)

/-- The usable members of the present period with their levels and mean voltage: (index, levels, VCAP). -/
def Cell.usable (c : Cell) : List (Nat × Nat × Nat) :=
  (c.lk.members.filter fun m => c.memberUsable m.2).map fun m =>
    (m.1, if bitOf (byteAt m.2 0) 5 then byteAt m.2 5 else 1, leAt m.2 2 3)

/-- Usable levels of a head: its own, if not bypassed, plus its members' (R231). -/
def Cell.levels (c : Cell) : Nat :=
  (if c.mode = Mode.bypassed then 0 else 1) + sumOf (c.usable.map fun u => u.2.1)

/-- Units placed in order by mean voltage, ascending when charging; ties keep the order given (R230). -/
def insertUnit (asc : Bool) (u : Nat × Nat × Nat) : List (Nat × Nat × Nat) → List (Nat × Nat × Nat)
  | [] => [u]
  | v :: r => if (if asc then decide (u.2.2 < v.2.2) else decide (v.2.2 < u.2.2)) then u :: v :: r else v :: insertUnit asc u r

def sortUnits (asc : Bool) (l : List (Nat × Nat × Nat)) : List (Nat × Nat × Nat) :=
  l.foldl (fun acc u => insertUnit asc u acc) []

/-- The share of each unit in one entry (R230): a list of (unit, entry); unit 8 is the head's own bridge. The second part
says that levels were left over. -/
def shareEntry (e : Nat) : Nat → List (Nat × Nat × Nat) → List (Nat × Nat) × Bool
  | left, [] => ([], decide (0 < left))
  | left, (i, lv, _) :: r =>
    let st := bitsOf e 0 4
    let pwm := st == 4 || st == 5
    let ins := if st = 4 then 2 else if st = 5 then 3 else st
    let active := pwm || st == 2 || st == 3
    if !active || left == 0 then
      let (rest, sh) := shareEntry e (if active then left else 0) r
      ((i, if st = 0 then 0 else 1) :: rest, sh)
    else
      let take := Nat.min left lv
      let m := pwm && left - take == 0
      let own := if m then bitsOf e 0 16 + 65536 * take else ins + 65536 * take
      let (rest, sh) := shareEntry e (left - take) r
      ((i, own) :: rest, sh)

/-- The records of a head's own bridge (unit 8) and of each member from its own record (R230): FORMAT 0h or a bypassed
head gives every member FORMAT 0h. -/
def Cell.shareRecord (c : Cell) (r : Rec) : List (Nat × List Byte) × Bool × Bool :=
  let f := bitsOf (byteAt r.body 0) 0 4
  let units := (8, 1, c.vcap) :: c.usable
  let es := (upto 4).map fun j => leAt r.body (2 + 3 * j) 3
  let total := c.levels
  let excess := es.any fun e => decide (total < e / 65536)
  let shares := es.map fun e =>
    let pol := if bitsOf e 0 4 = 3 ∨ bitsOf e 0 4 = 5 then false else true
    let chg := (match c.eventOf r.header with
      | some (s, _, _) => s
      | none => c.pw.pos) == pol
    let e' := if total < e / 65536 then 0 else e
    shareEntry e' (e' / 65536) (sortUnits chg units)
  let short := shares.any Prod.snd
  let body := fun i =>
    if f = 0 ∨ c.mode = Mode.bypassed then List.replicate 14 0#8
    else (r.body.take 2) ++ (shares.map fun sh =>
      bytesLE 3 (((sh.1.find? fun x => x.1 == i).map Prod.snd).getD 0)).flatten
  ((upto (c.rd K.SUB_STATUS_K)).map (fun i => (i, body i)) ++ [(8, body 8)], short, excess)

/-- The sub-strand command frame (R226, R229): header copied from the head's last good one, the member records in order
last member first, or all stomped where the head's own record is not good. -/
def Cell.subFrame (c : Cell) (recs : Option (List (Nat × List Byte))) : List Byte :=
  let h := c.lk.header
  let k := c.rd K.SUB_STATUS_K
  let mb := match c.lk.subReq with
    | none => List.replicate 16 0#8
    | some r => mbBytes r r.data 0
  let head := [BitVec.ofNat 8 (byteAt h 0), BitVec.ofNat 8 (c.rd K.SUB_STATUS_SUB_VER)] ++
    bytesLE 2 (bitsOf (leAt h 2 2) 0 9 + 512 * k) ++ (h.drop 4).take 8 ++ mb
  let slots := (upto k).map fun j =>
    let i := k - 1 - j
    match recs with
    | none => stompedSlot i (Hdr.period h) 16
    | some l => slotBytes i (Hdr.period h) (((l.find? fun x => x.1 == i).map Prod.snd).getD (List.replicate 14 0#8))
  head ++ bytesLE 4 (crc32c head) ++ slots.flatten

/-! ### Command frames -/

/-- A header arrived that blocks (R195): a command or downstream collection header with BLOCK = 1 or NBLOCK = 0. -/
def Cell.blockByHeader (c : Cell) (now : Nat) (f : List Byte) : Cell :=
  c.when (!f.isEmpty && (Hdr.type f == 1 || Hdr.type f == 2) && (Hdr.block f || !Hdr.nblock f)) fun c => c.block now

/-- An armed time load meets the header of a command frame (R362): it loads at the matching period, and is missed once
the count has passed it. -/
def Cell.timeLoad (c : Cell) (now period : Nat) : Cell :=
  if !c.tm.armed then c
  else
    let per := c.rd K.TM_CTL_PER
    if period % 256 = per then
      let want := c.rd K.TM_LOAD_VAL * 256 + c.rd K.TM_CTL_FRAC
      let off := (want + 2 ^ 40 - now * 256 % 2 ^ 40) % 2 ^ 40
      let c := { c with tm := { c.tm with armed := false, off := off } }
      (c.put K.TM_ST_ARMED false).put K.TM_ST_LOADED true
    else if (period + 256 - per) % 256 < 128 then
      let c := { c with tm := { c.tm with armed := false } }
      ((c.put K.TM_ST_ARMED false).put K.TM_ST_MISSED true).cause now 14
    else c

/-- A request has been executed: its response is kept for its ORIG and owed two periods later, unless none is sent
(R207, R209, R210). -/
def Cell.respond (c : Cell) (r : MbReq) (result data : Nat) : Cell :=
  let d : MbRsp := { req := r, result := result, data := data, due := c.lk.period + 2 }
  let c := { c with lk := { c.lk with inbox := none } }
  let c := if r.orig = 0 then { c with lk := { c.lk with done0 := some d } } else { c with lk := { c.lk with done1 := some d } }
  if r.bc then c else { c with lk := { c.lk with owed := c.lk.owed ++ [d] } }

/-- A request that the cell has not executed before (R205 to R207): a PATH that names no member, a reserved operation and a
masked write to one cell are answered at once; every other waits for its execution. -/
def Cell.newRequest (c : Cell) (r : MbReq) (depth : Nat) : Cell :=
  if 0 < depth then c.respond r 5 0
  else if r.op = 5 ∨ 7 < r.op then c.respond r 4 0
  else { c with lk := { c.lk with inbox := some r } }

/-- The request of a header, if the cell takes it (R204, R207, R209, R210): a repeated one has its stored response sent
again, one for a member waits for the sub-strand. -/
def Cell.takeRequest (c : Cell) (r : MbReq) : Cell :=
  let depth := if r.bc then 0 else bitsOf r.path 0 4
  let old := if r.orig = 0 then c.lk.done0 else c.lk.done1
  if r.op = 0 ∨ c.hasPos = false then c
  else if r.bc then
    match old with
    | some d => if d.req.seq = r.seq then c else { c with lk := { c.lk with inbox := some r, subReq := if c.headMode then some r else c.lk.subReq } }
    | none => { c with lk := { c.lk with inbox := some r, subReq := if c.headMode then some r else c.lk.subReq } }
  else if r.pos ≠ c.pos then c
  else if 0 < depth ∧ c.headMode = true ∧ bitsOf r.path 4 3 < c.rd K.SUB_STATUS_K then
    { c with lk := { c.lk with subReq := some { r with pos := bitsOf r.path 4 3, path := (depth - 1) + r.path / 128 * 16 } } }
  else
    match old with
    | some d =>
      if d.req.seq = r.seq then { c with lk := { c.lk with owed := c.lk.owed ++ [{ d with due := c.lk.period + 2 }] } }
      else c.newRequest r depth
    | none => c.newRequest r depth

/-- A good header updates period count, echo, reference port and state (R51, R202, R308). Answers whether the record of
its frame may be good. -/
def Cell.goodHeader (c : Cell) (now port : Nat) (f : List Byte) : Cell × Bool :=
  let p := Hdr.period f
  let jump := !c.lk.counted || c.lk.maint != Hdr.maint f
  let wrong := !jump && p != c.lk.period
  let c := c.when wrong fun c => (c.inc K.LNK_ERR2_PER_ERR).cause now 13
  let stale := c.mode == Mode.blocked && Hdr.maint f && Hdr.epoch f != c.lk.epoch
  let c := if stale then { c with mode := Mode.enumerated } else c
  let c := if c.mode = Mode.enumerated ∧ Hdr.maint f = false ∧ c.tm.layout ∧ c.tm.pend = none then c.toBlocked now else c
  let side := if c.isLow port then 1 else 2
  let c := { c with lk := { c.lk with
    period := p, counted := true, maint := Hdr.maint f, epoch := Hdr.epoch f, header := f.take 32, headerSince := true,
    ref := some port, lastGood := now, got := c.lk.got ||| side } }
  ((c.wr K.LNK_STATUS_VER_MAJ (Hdr.ver f / 16)).wr K.LNK_STATUS_VER_MIN (Hdr.ver f % 16), !wrong)

/-- The offset of the cell's command slot on the side on which a frame arrives (R307). -/
def Cell.cmdOff (c : Cell) (port : Nat) : Nat := if c.isLow port then c.rd K.LNK_CFG_CMD_OFF else 32 + 16 * c.pos

/-- A command frame passes the cell on a strand port (R195, R202, R235). The second part is the sub-strand frame that
leaves on port D (R229). -/
def Cell.commandFrame (c : Cell) (now port : Nat) (f : List Byte) : Cell × Option (List Byte) :=
  if c.mode = Mode.reset ∨ c.mode = Mode.selfTest then (c, none)
  else
    let c := c.blockByHeader now f
    if Hdr.type f ≠ 1 then (if Hdr.type f = 2 ∨ Hdr.type f = 3 then c else c.inc K.LNK_ERR_HDR_CRC, none)
    else if Hdr.crc f ≠ .good ∨ f.length < 32 ∨ cellVersion < Hdr.ver f then ((c.inc K.LNK_ERR_HDR_CRC).cause now 12, none)
    else
      let (c, ok) := c.goodHeader now port f
      let c := (c.timeLoad now (Hdr.period f)).takeRequest (mbReqOf f)
      if !c.hasPos then (c, none)
      else
        let off := c.cmdOff port
        let good := ok && slotState c.pos f off 16 == .good
        let c := c.when (slotState c.pos f off 16 != .good) fun c => c.inc K.LNK_ERR_CMD_CRC
        let c := c.when (!good) fun c => c.cause now 12
        let r : Rec := { header := f.take 32, body := (f.drop off).take 14 }
        let head := c.headMode
        let (shares, short, excess) := c.shareRecord r
        let c := c.when (good && head && excess) fun c => c.cause now 7
        let c := c.when (good && head && short) fun c => (c.put K.SUB_STATUS_LEVEL_SHORT true).cause now 27
        let own : Rec := if head then
            { r with body := (((shares.find? fun x => x.1 == 8).map Prod.snd).getD r.body) } else r
        let c := if good && !Hdr.maint f then
            if c.isLow port then { c with lk := { c.lk with recLow := some own } } else { c with lk := { c.lk with recHigh := some own } }
          else c
        if head then
          let sub := c.subFrame (if good then some shares else none)
          ({ c with lk := { c.lk with subReq := none } }, some sub)
        else (c, none)

/-! ### Collection frames -/

/-- The offset of the cell's slot in a collection frame on the side on which it arrives (R307). -/
def Cell.colOff (c : Cell) (port : Nat) : Nat := if c.isLow port then c.rd K.LNK_CFG_CDN_OFF else c.rd K.LNK_CFG2_CUP_OFF

/-- The status slot and, where enabled, the sillage slot for a frame of a period (R197, R198). -/
def Cell.ownSlots (c : Cell) (period : Nat) : List Byte :=
  slotBytes c.pos period c.sl.slot ++ (if c.on K.LNK_CFG2_SILL_EN then slotBytes c.pos period c.sl.sillage else [])

/-- The frame with the cell's slots at their offset (R196, R201). An offset below 32, as before enumeration, lies in the
header and names no slot; bytes past the end of the frame are lost (DEDUCED, log entry 115). -/
def Cell.putSlots (c : Cell) (off : Nat) (f : List Byte) : List Byte :=
  if off < 32 then f else (patch f off (c.ownSlots (Hdr.period f))).take f.length

/-- A response that is due goes into a header that arrives with OP = 0h; one that arrives with another is a collision
(R201, R208). -/
def Cell.putResponse (c : Cell) (f : List Byte) : Cell × List Byte :=
  match c.lk.owed with
  | [] => (c, f)
  | r :: rest =>
    if Hdr.period f < r.due then (c, f)
    else if bitsOf (byteAt f 12) 0 4 ≠ 0 then
      ((c.inc K.LNK_ERR2_MB_COLL), f)
    else
      let h := patch f 12 (mbBytes r.req r.data r.result)
      let code := crc32c (h.take 28)
      let code := if Hdr.crc f = .good then code else 0xFFFFFFFF - code
      let bit := if Hdr.type f = 2 then 1 else 2
      let c := { c with lk := { c.lk with sentOn := c.lk.sentOn ||| bit, owed := r :: rest } }
      (c, patch h 28 (bytesLE 4 code))

/-- A collection frame passes the cell (R195, R201): its slots and a response owed are written, other bytes pass. -/
def Cell.collectionFrame (c : Cell) (now port : Nat) (f : List Byte) : Cell × List Byte :=
  if c.mode = Mode.reset ∨ c.mode = Mode.selfTest then (c, f)
  else
    let c := c.blockByHeader now f
    if Hdr.type f ≠ 2 ∧ Hdr.type f ≠ 3 then (c.inc K.LNK_ERR_HDR_CRC, f)
    else if !c.hasPos then (c, f)
    else c.putResponse (c.putSlots (c.colOff port) f)

/-- The cell is one that originates the upstream frame (R192, R309). -/
def Cell.originator (c : Cell) : Bool :=
  match c.lk.up with
  | none => false
  | some up =>
    let dn := if c.lk.high != c.lk.fromTail then up else otherPort up
    c.hasPos && c.lk.headerSince &&
      ((if c.lk.high then c.pos == 0 else c.on K.LNK_CFG2_FAR_END) || !bitOf c.lk.locks dn)

/-- The port towards the launching unit: the side of the direction. -/
def Cell.towardsHead (c : Cell) : Nat :=
  let up := c.lk.up.getD 0
  if c.lk.high != c.lk.fromTail then otherPort up else up

/-- Stomped slots of positions `a` to `a + n - 1` in rising order. -/
def stompedRun (period a n len : Nat) : List Byte := ((upto n).map fun i => stompedSlot (a + i) period len).flatten

/-- The upstream collection frame as the cell originates it (R192, R193, R199): slots of positions below its own and, from
beyond, above it, stomped; its own slots written. -/
def Cell.originateFrame (c : Cell) : List Byte :=
  let h := c.lk.header
  let p := c.lk.period
  let head := [BitVec.ofNat 8 (3 + byteAt h 0 / 8 * 8), BitVec.ofNat 8 (byteAt h 1)] ++ (h.drop 2).take 2 ++ bytesLE 4 p ++
    [BitVec.ofNat 8 (byteAt h 8), 7#8, 0#8, 0#8] ++ List.replicate 16 0#8
  let before := c.rd K.LNK_CFG2_CUP_OFF - 32
  let after := c.rd K.LNK_CFG_CDN_OFF - 32
  let size := fun bytes n => if n = 0 then 16 else bytes / n
  let n := c.rd K.LNK_ORIG_NCELL
  head ++ bytesLE 4 (crc32c head) ++ stompedRun p 0 c.pos (size before c.pos) ++ c.ownSlots p ++
    stompedRun p (c.pos + 1) (n - 1 - c.pos) (size after (n - 1 - c.pos))

/-! ### Status (R197, R231, R295, R433) -/

/-- Highest of two Q9.6 temperatures, 8000h being none. -/
def maxTemp (a b : Nat) : Nat := if toSigned 16 a < toSigned 16 b then b else a

/-- The status and sillage bytes latched at t0 + 0.40 µs, with the item AUX_ID of value `auxVal`. -/
def Cell.latchStatus (c : Cell) (auxVal : Nat) : Cell :=
  let head := c.headMode
  let ms := if head then c.lk.members.map Prod.snd else []
  let any := fun (byte bit : Nat) (own : Bool) => own || ms.any fun m => bitOf (byteAt m byte) bit
  let fires := c.sl.fire.isSome && decide (0x11 ≤ Hdr.ver c.lk.header)
  let mark := fires && c.on K.LNK_CFG2_SILL_EN
  let time := c.sl.fire.getD 0
  let worst := maxOf (c.rd K.CFLT_SUM_CLASS :: ms.map fun m => bitsOf (byteAt m 8) 0 3)
  let src := if c.rd K.CFLT_SUM_CLASS = worst then c.rd K.CFLT_SUM_SRC
    else (((ms.filter fun m => bitsOf (byteAt m 8) 0 3 == worst).head?).map fun m => bitsOf (byteAt m 8) 3 5).getD 0
  let lv := if head then c.levels else 0
  let sumV := (if c.mode = Mode.bypassed then 0 else c.vcap) + sumOf (c.usable.map fun u => u.2.1 * u.2.2)
  let vcap := if head && decide (1 < lv) then sumV / lv else c.vcap
  let temp := ms.foldl (fun t m => maxTemp t (leAt m 6 2)) c.temp
  let trip := ms.foldl (fun t m => t ||| bitsOf (byteAt m 9) 0 4) (c.rd K.TRIP_STATUS_TRIP)
  let b0 := c.mode + 16 * c.bridge.toNat + 32 * head.toNat + 64 * (any 0 6 fires).toNat + 128 * c.stFail.toNat
  let b9 := trip + 16 * (any 9 4 (c.rd K.TRIP_STATUS_GATE_FLT != 0)).toNat + 32 * (any 9 5 (c.on K.TRIP_STATUS_BYP_FLT)).toNat +
    64 * (any 9 6 (c.rd K.OVR_FLAG_OVR != 0)).toNat + 128 * (!c.lk.owed.isEmpty).toNat
  let b10 := c.rd K.LNK_ERR_CMD_CRC % 16 + 16 * (c.rd K.LNK_ERR_HDR_CRC % 16)
  let slot := [BitVec.ofNat 8 b0, BitVec.ofNat 8 c.lk.epoch] ++ bytesLE 3 vcap ++ [BitVec.ofNat 8 lv] ++ bytesLE 2 temp ++
    [BitVec.ofNat 8 (worst + 8 * src), BitVec.ofNat 8 b9, BitVec.ofNat 8 b10,
      BitVec.ofNat 8 (if mark then 0xFF else c.sl.aux)] ++ bytesLE 2 (if mark then time else auxVal)
  let at' := fun ch => (upto (c.hrd K.SEQ_CFG_SIM_N)).find? fun j => c.element j == ch
  let code := fun ch => ((at' ch).map fun j => c.ad.group.getD j 0).getD 0
  let flag := fun (ch : Nat) (f : Nat → Fld) => c.on (f ch)
  let ch0 := c.rd K.LNK_CFG2_SIL_CH0
  let ch1 := c.rd K.LNK_CFG2_SIL_CH1
  let sus := flag ch0 K.RES_ST_SUSPECT || (!mark && flag ch1 K.RES_ST_SUSPECT)
  let ovr := flag ch0 K.RES_ST_OVR_LAST || (!mark && flag ch1 K.RES_ST_OVR_LAST)
  let sil := bytesLE 2 (code ch0) ++ bytesLE 2 (if mark then time / 65536 else code ch1) ++
    [BitVec.ofNat 8 (mark.toNat + 2 * sus.toNat + 4 * ovr.toNat), BitVec.ofNat 8 c.sl.silSeq]
  let c := c.wr K.SUB_STATUS_USABLE lv
  { c with sl := { c.sl with slot := slot, sillage := sil, fire := none, silSeq := (c.sl.silSeq + 1) % 256,
                             aux := if mark then c.sl.aux else (c.sl.aux + 1) % 9 } }

end Sys2Proof.Machine
end

