-- ==== Sys2Proof/Machine/CellHealth.lean ====
section
/-! DEFINITION. Health of one KS210 (R500 to R510): capacitance and ESR, on-state voltage, thermal cycles, hours, damage,
prediction and the items it reports. -/

namespace Sys2Proof.Machine

/-! ### The estimator state -/

/-- 0.1, 0.001 and 10^6 in binary32. -/
def fTenth : Nat := 0x3DCCCCCD
def fMilli : Nat := 0x3A83126F
def fMega : Nat := 0x49742400

/-- θ and P as they start (R502). -/
def Cell.estStart (c : Cell) : Cell :=
  let inv := fDiv f1 (c.rd K.H_C_NOM_C_NOM)
  let r := fAdd (c.rd K.H_ESR0_ESR0) fMilli
  ((((c.wr K.A_THETA0_THETA0 inv).wr K.A_THETA1_THETA1 (c.rd K.H_ESR0_ESR0)).wr K.A_P00_P00 (fMul inv inv)).wr
    K.A_P01_P01 f0).wr K.A_P11_P11 (fMul r r)

/-- C_NOM or ESR0 is written (R502). -/
def Cell.estReset (c : Cell) : Cell := c.estStart.wr K.H_N_UPD_N_UPD 0

/-- Time is counted (R505). -/
def Cell.counted (c : Cell) : Bool := decide (Mode.safeHold ≤ c.mode) && decide (c.mode ≤ Mode.coasting)

/-! ### Capacitance and ESR (R500 to R503) -/

/-- The strobe of the present period, once its group has results. -/
def Cell.takeStrobe (c : Cell) : Option Strobe :=
  let ich := c.hrd K.HCFG_ICH
  let vch := c.hrd K.VCAP_CFG_CH
  let at' := fun ch => (upto c.ad.group.length).find? fun j => c.element j == ch
  let clean := fun ch => !c.on (K.RES_ST_SUSPECT ch) && !c.on (K.RES_ST_OVR_LAST ch)
  match at' ich, at' vch with
  | some a, some b =>
    let code := c.codeInt ich (c.ad.group.getD a 0) - toSigned 16 (c.hrd K.H_IOFF_IOFF)
    some { i := fMul (fOfInt code) (c.hrd K.H_ISCALE_ISCALE),
           v := fRatio false (c.ad.group.getD b 0 * c.hrd K.VCAP_CFG_SCALE) (2 ^ 24) 0,
           sig := c.hl.sig, good := clean ich && clean vch, run := c.hl.run }
  | _, _ => none

/-- The charge of the last closed period: its insertion as a fraction of its ticks, times current and period. -/
def Cell.charge (c : Cell) (ia : Nat) : Nat :=
  let tc := c.rd K.PWM_TIME_TC * 5
  let n := c.hl.avg
  fMul (fMul (fRatio (decide (n < 0)) n.natAbs tc 0) ia) (fRatio false tc 1000000000 0)

/-- One estimator update from two consecutive strobes (R502); one whose result is not finite starts θ and P anew. -/
def Cell.estimate (c : Cell) (k k1 : Strobe) : Cell :=
  let ia := fDiv (fAdd k.i k1.i) (fOfNat 2)
  let q := c.charge ia
  let d := fSub (fMul (fOfInt k1.sig) k1.i) (fMul (fOfInt k.sig) k.i)
  let t0 := c.rd K.A_THETA0_THETA0
  let t1 := c.rd K.A_THETA1_THETA1
  let p00 := c.rd K.A_P00_P00
  let p01 := c.rd K.A_P01_P01
  let p11 := c.rd K.A_P11_P11
  let lam := c.rd K.H_LAMBDA_LAMBDA
  if c.hl.wasTripped || !k.good || !k1.good || !k.run || !k1.run || !fLe (fMul (c.rd K.H_C_NOM_C_NOM) fTenth) (fAbs q) then c
  else
    let e := fSub (fSub k1.v k.v) (fAdd (fMul q t0) (fMul d t1))
    let x0 := fAdd (fMul p00 q) (fMul p01 d)
    let x1 := fAdd (fMul p01 q) (fMul p11 d)
    let den := fAdd lam (fAdd (fMul q x0) (fMul d x1))
    let g0 := fDiv x0 den
    let g1 := fDiv x1 den
    let n0 := fAdd t0 (fMul g0 e)
    let n1 := fAdd t1 (fMul g1 e)
    let m00 := fDiv (fSub p00 (fMul g0 x0)) lam
    let m01 := fDiv (fSub p01 (fMul g0 x1)) lam
    let m11 := fDiv (fSub p11 (fMul g1 x1)) lam
    let est := fDiv f1 n0
    if [n0, n1, m00, m01, m11, est].all f32Finite then
      ((((((c.wr K.A_THETA0_THETA0 n0).wr K.A_THETA1_THETA1 n1).wr K.A_P00_P00 m00).wr K.A_P01_P01 m01).wr K.A_P11_P11 m11).wr
        K.H_C_EST_C_EST est).wr K.H_R_EST_R_EST n1 |>.inc K.H_N_UPD_N_UPD
    else c.estStart

def Cell.enough (c : Cell) : Bool := decide (c.rd K.H_MINN_MINN ≤ c.rd K.H_N_UPD_N_UPD)

/-- C_EST is valid (R503). -/
def Cell.capValid (c : Cell) : Bool :=
  let nom := c.rd K.H_C_NOM_C_NOM
  c.enough && fLe (fMul nom 0x3F000000) (c.rd K.H_C_EST_C_EST) && fLe (c.rd K.H_C_EST_C_EST) (fMul nom (fOfNat 2))

/-- R_EST is valid (R503). -/
def Cell.esrValid (c : Cell) : Bool :=
  let r0 := c.rd K.H_ESR0_ESR0
  c.enough && fLt f0 r0 && fLe f0 (c.rd K.H_R_EST_R_EST) && fLe (c.rd K.H_R_EST_R_EST) (fMul r0 (fOfNat 20))

/-! ### On-state voltage (R504) -/

/-- The last 256 valid samples of a switch. -/
def Cell.window (c : Cell) (s : Nat) : List Nat := mapGet (fun _ => []) c.hl.win s

/-- The mean of 256 samples. -/
def meanVon (l : List Nat) : Nat := fDiv (fSum l) (fOfNat 256)

/-- A valid sample enters: while VON0 is 0 the first 256 make it, after that the window moves on. -/
def Cell.addVon (c : Cell) (s v : Nat) : Cell :=
  let w := c.window s ++ [v]
  let put := fun (c : Cell) (w : List Nat) => { c with hl := { c.hl with win := mapSet (fun _ => []) c.hl.win s w } }
  if fIsZero (c.rd (K.A_VON0_VON0 s)) then
    if w.length < 256 then put c w else (put c []).wr (K.A_VON0_VON0 s) (meanVon w)
  else put c (w.drop (w.length - 256))

/-- The samples of the last period are judged by its current and by TEMP. -/
def Cell.judgeVon (c : Cell) (k : Strobe) : Cell :=
  let ref := c.hrd K.H_I_REF_I_REF
  let near := fLe (fAbs (fSub (fAbs k.i) ref)) (fMul (fAbs ref) fTenth)
  let t := toSigned 16 c.temp
  let warm := c.temp != 0x8000 && decide ((t - toSigned 16 (c.hrd K.H_VON_T_VON_T)).natAbs ≤ 320)
  if near && warm then c.hl.vonPrev.foldl (fun c e => c.addVon e.1 e.2) c else c

def Cell.driftValid (c : Cell) (s : Nat) : Bool :=
  (c.window s).length == 256 && !fIsZero (c.rd (K.A_VON0_VON0 s)) && (c.bridge || decide (s < 2))

def Cell.drift (c : Cell) (s : Nat) : Nat := fSub (meanVon (c.window s)) (c.rd (K.A_VON0_VON0 s))

/-! ### Thermal cycles and hours (R505, R506) -/

/-- A closed cycle or a half cycle of range `dt` in Q9.6 adds half cycles to its bin. -/
def Cell.addCycle (c : Cell) (dt n : Nat) : Cell :=
  c.inc (K.A_RF_RF (Nat.min 15 (dt / (16 * Nat.max 1 (c.rd K.HCFG_BIN_W))))) n

/-- Cycles that the four newest reversals close (R505), at most one for each pair on the stack. -/
def Cell.closeCycles : Nat → Cell → Cell
  | 0, c => c
  | n + 1, c =>
    match c.hl.stack with
    | d :: x :: y :: a :: r =>
      let inner := (x - y).natAbs
      if inner ≤ (a - y).natAbs ∧ inner ≤ (d - x).natAbs then
        Cell.closeCycles n ({ c with hl := { c.hl with stack := d :: a :: r } }.addCycle inner 2)
      else c
    | _ => c

/-- A reversal goes on the stack of 64; where it is full, the oldest leaves as a half cycle. -/
def Cell.pushReversal (c : Cell) (t : Int) : Cell :=
  let st := c.hl.stack
  let c := if st.length < 64 then c
    else c.addCycle (st.getLastD 0 - (st.dropLast).getLastD 0).natAbs 1
  let st := if st.length < 64 then st else st.dropLast
  Cell.closeCycles 32 { c with hl := { c.hl with stack := t :: st } }

/-- One sample of TEMP: the run goes on, or has turned by TR_HYST and its extreme is a reversal. -/
def Cell.tempSample (c : Cell) : Cell :=
  let h : Int := 16 * c.rd K.HCFG_TR_HYST
  if !c.hon K.HCFG_EN || !c.counted || c.hrd K.TEMP_CFG_MASK == 0 || c.temp == 0x8000 then c
  else
    let t := toSigned 16 c.temp
    match c.hl.ext with
    | none => { c with hl := { c.hl with ext := some t } }
    | some e =>
      let turn := fun (c : Cell) (d : Nat) => { c.pushReversal e with hl := { (c.pushReversal e).hl with ext := some t, dir := d } }
      let go := { c with hl := { c.hl with ext := some t } }
      if c.hl.dir = 1 then (if e ≤ t then go else if h ≤ e - t then turn c 2 else c)
      else if c.hl.dir = 2 then (if t ≤ e then go else if h ≤ t - e then turn c 1 else c)
      else if h ≤ t - e then turn c 1
      else if h ≤ e - t then turn c 2
      else c

/-- A second of counted time (R506, R508). -/
def Cell.hourSecond (c : Cell) : Cell :=
  if !c.counted then c
  else
    let c := c.inc K.A_HISTN_HIST_SEC
    if c.temp = 0x8000 ∨ c.hon K.HCFG_EN = false then c
    else
      let d := toSigned 16 c.temp - toSigned 16 (c.rd K.HCFG2_HT_LO)
      c.inc (K.A_HRS_HRS (clampInt 0 7 (d / ((64 * Nat.max 1 (c.rd K.HCFG2_HT_W) : Nat) : Int))).toNat)

/-! ### Damage and prediction (R507 to R509) -/

/-- code(D) (R508). -/
def codeOf (d : Nat) : Nat :=
  let x := fMul d (fOfNat 65536)
  if f32Finite x then (min 0xFFFF (fFloorInt x)).toNat else 0xFFFF

/-- D_wear, D_cap, D_esr and D_von in that order; an estimate that is not valid counts as 0. -/
def Cell.components (c : Cell) : List Nat :=
  let rf := (upto 16).map fun b => fMul (fDiv (fOfNat (c.rd (K.A_RF_RF b))) (fOfNat 2)) (c.rd (K.H_W_W b))
  let hr := (upto 8).map fun j => fDiv (fDiv (fOfNat (c.rd (K.A_HRS_HRS j))) (fOfNat 3600)) (c.rd (K.H_L_L j))
  let nom := c.rd K.H_C_NOM_C_NOM
  let cap := fDiv (fSub nom (c.rd K.H_C_EST_C_EST)) (fMul nom (c.rd K.H_CAP_DROP_CAP_DROP))
  let esr := fDiv (fSub (fDiv (c.rd K.H_R_EST_R_EST) (c.rd K.H_ESR0_ESR0)) f1) (fSub (c.rd K.H_ESR_LIM_ESR_LIM) f1)
  let von := ((upto 4).filter c.driftValid).map fun s => fMax f0 (fDiv (c.drift s) (c.rd K.H_VON_LIM_VON_LIM))
  [fAdd (fSum rf) (fSum hr), if c.capValid then fMax f0 cap else f0, if c.esrValid then fMax f0 esr else f0,
    von.foldl fMax f0]

/-- Item 8 of R510 with a given DOM. -/
def Cell.flagsOf (c : Cell) (dom : Nat) : Nat :=
  c.capValid.toNat + 2 * c.esrValid.toNat + sumOf ((upto 4).map fun s => 2 ^ (s + 2) * (c.driftValid s).toNat) +
    64 * (c.rd K.H_DAYS_DAYS != 0xFFFF).toNat + 128 * (c.bit K.CFLT_LIVE_LIVE 29).toNat + 256 * (c.hon K.HCFG_EN).toNat + 512 * dom

/-- FLAGS follows what it shows. -/
def Cell.showFlags (c : Cell) : Cell := c.wr K.H_DAYS_FLAGS (c.flagsOf (bitsOf (c.rd K.H_DAYS_FLAGS) 9 2))

/-- The alarm condition is the live cause of source 29 (R509). -/
def Cell.judgeAlarm (c : Cell) (now : Nat) : Cell :=
  let days := c.rd K.H_DAYS_DAYS
  let bad := decide (c.rd K.H_ALM_ALM_D ≤ codeOf (c.rd K.H_D_D)) || (days != 0xFFFF && decide (days ≤ c.rd K.H_ALM_ALM_DAYS))
  (if bad then (if c.bit K.CFLT_LIVE_LIVE 29 then c else c.raiseLevel now 29) else c.absent 29).showFlags

/-- The damage figure (R507). -/
def Cell.damage (c : Cell) (now : Nat) : Cell :=
  if !c.counted then c
  else
    let l := c.components
    let d := l.foldl fMax f0
    let dom := ((upto 4).find? fun i => fEq (l.getD i 0) d).getD 0
    let c := (c.wr K.H_D_D d).wr K.H_D_WEAR_D_WEAR (l.getD 0 0)
    (c.wr K.H_DAYS_FLAGS (c.flagsOf dom)).judgeAlarm now

/-- Entry `i` of the daily history. -/
def Cell.histEntry (c : Cell) (i : Nat) : Nat := bitsOf (c.rd (K.A_HIST_HIST (i % 32 / 2))) (i % 2 * 16) 16

/-- DAYS from the history (R508). -/
def Cell.daysLeft (c : Cell) : Nat :=
  let d := c.rd K.H_D_D
  let n := c.rd K.A_HISTN_HIST_N
  let m := Nat.min (c.rd K.HCFG2_RATE_D) (n - 1)
  let new := c.hl.histAt + 31
  let diff : Int := (c.histEntry new : Int) - c.histEntry (new + 32 - m)
  if fLe f1 d then 0
  else if m < 1 ∨ diff ≤ 0 then 0xFFFF
  else
    let x := fDiv (fSub f1 d) (fDiv (fOfInt diff) (fOfNat (65536 * m)))
    if f32Finite x then (min 65534 (fFloorInt x)).toNat else 65534

/-- A day of counted time (R508). -/
def Cell.daily (c : Cell) (now : Nat) : Cell :=
  if !c.counted then c
  else
    let i := c.hl.histAt
    let w := K.A_HIST_HIST (i % 32 / 2)
    let c := c.wr w (setBits (c.rd w) (i % 2 * 16) 16 (codeOf (c.rd K.H_D_D)))
    let c := (c.wr K.A_HISTN_HIST_N (Nat.min 32 (c.rd K.A_HISTN_HIST_N + 1))).wr K.A_HISTN_HIST_SEC 0
    let c := { c with hl := { c.hl with histAt := (i + 1) % 32 } }
    (c.wr K.H_DAYS_DAYS c.daysLeft).judgeAlarm now

/-! ### Reporting (R510) -/

/-- An unsigned item of an estimate in millionths. -/
def itemOf (valid : Bool) (x : Nat) : Nat :=
  let y := fMul x fMega
  if !valid || !f32Finite y || decide (65534 < fRneInt y) then 0xFFFF else (fRneInt y).toNat

/-- AUX_VAL of an item. -/
def Cell.auxItem (c : Cell) (n : Nat) : Nat :=
  match n with
  | 0 => itemOf c.capValid (c.rd K.H_C_EST_C_EST)
  | 1 => itemOf c.esrValid (c.rd K.H_R_EST_R_EST)
  | 6 => codeOf (c.rd K.H_D_D)
  | 7 => c.rd K.H_DAYS_DAYS
  | 8 => c.flagsOf (bitsOf (c.rd K.H_DAYS_FLAGS) 9 2)
  | _ =>
    let s := n - 2
    let y := fMul (c.drift s) (fOfNat 10000)
    if !c.driftValid s then 0x8000
    else if !f32Finite y then (if fSign y then 0x8001 else 0x7FFF)
    else ofSigned 16 (clampInt (-0x7FFF) 0x7FFF (fRneInt y))

/-- At t0 + 0.40 µs the status is latched (R197, R295, R433, R510), and the estimators take the period's strobe with what
the last period leaves them (R502, R504). -/
def Cell.latchAll (c : Cell) : Cell :=
  let c := c.latchStatus (c.auxItem c.sl.aux)
  let cur := c.takeStrobe
  let c := { c with hl := { c.hl with cur := cur } }
  let c := if !c.hon K.HCFG_EN then c
    else
      let c := match c.hl.prev with
        | some k => c.judgeVon k
        | none => c
      if !c.hon K.HCFG_CE_EN then c
      else
        match c.hl.prev, cur with
        | some k, some k1 => c.estimate k k1
        | _, _ => c
  { c with hl := { c.hl with vonPrev := [] } }.showFlags

end Sys2Proof.Machine
end

