-- ==== Sys2Proof/Machine/CellRegs.lean ====
section
/-! DEFINITION. Register access and mailbox execution at one KS210 (R156, R181, R205 to R218, R267, R362, R363). -/

namespace Sys2Proof.Machine

/-- Item 3 of R217. -/
def Cell.verItem (c : Cell) : Nat :=
  cellVersion + 256 * 0x10 + 65536 * Hdr.ver c.lk.header + 2 ^ 24 * (c.lk.up == some 1).toNat + 2 ^ 25 * c.lk.dualUp.toNat +
    2 ^ 26 * c.stFail.toNat + 2 ^ 27 * c.bridge.toNat + 2 ^ 28 * (bitOf c.lk.trained 2).toNat + 2 ^ 29 * c.headMode.toNat

/-- Declared levels L of the cell: its own and one per member that is plain (R227). -/
def Cell.declared (c : Cell) : Nat :=
  if c.headMode then 1 + sumOf ((upto (c.rd K.SUB_STATUS_K)).map fun i =>
    match c.lk.members.find? fun m => m.1 == i with
    | some m => if bitOf (byteAt m.2 0) 5 then byteAt m.2 5 else 1
    | none => 1) else 1

/-- Item 4 of R217. -/
def Cell.compoundItem (c : Cell) : Nat :=
  c.declared + 256 * c.rd K.SUB_STATUS_K + 2 ^ 12 * c.rd K.SUB_STATUS_SUB_OVER + 2 ^ 13 * c.rd K.SUB_STATUS_SUB_LONG +
    2 ^ 14 * c.rd K.SUB_STATUS_UNREACH + 2 ^ 15 * c.rd K.SUB_STATUS_LVL_OVER + 2 ^ 16 * c.rd K.SUB_LAT_A

/-- An address of the SRAM of the KS210 (R497). -/
def cellSramAt (a : Nat) : Bool := decide (0x100000 ≤ a) && decide (a < 0x140000)

/-- The word of a register, or of the SRAM, as it reads now; none at an address that is not mapped (R206, R497). -/
def Cell.readReg (c : Cell) (now uid a : Nat) : Option Nat :=
  match cellRow a with
  | none => if cellSramAt a then some (Config.cellSram uid a now).toNat else none
  | some r =>
    some (if a = 0x00 then uid % 2 ^ 32
      else if a = 0x04 then uid / 2 ^ 32 % 2 ^ 32
      else if a = 0x0C then c.verItem
      else if a = 0x40000 then c.clock now
      else r.read (c.word a))

/-- Some element of the simultaneous group, under given registers, names a channel (R246). -/
def Cell.inGroup (c : Cell) (ch : Nat) : Bool := (upto (c.rd K.SEQ_CFG_SIM_N)).any fun j => c.element j == ch

/-- The consistency rules of the measurement and comparator registers, judged on the cell as a write would leave it at
the next strobe (R242, R246, R249, R250, R263, R266). -/
def Cell.measureOk (c : Cell) : Bool :=
  decide (c.rd K.SEQ_CFG_SIM_N ≤ c.rd K.SEQ_CFG_SEQ_LEN) &&
    (upto (c.rd K.SEQ_CFG_SEQ_LEN)).all (fun j => c.channelOk (c.element j)) &&
    c.inGroup (c.rd K.VCAP_CFG_CH) && !c.signed (c.rd K.VCAP_CFG_CH) &&
    (!c.on K.LNK_CFG2_SILL_EN ||
      (c.inGroup (c.rd K.LNK_CFG2_SIL_CH0) && c.inGroup (c.rd K.LNK_CFG2_SIL_CH1) &&
        c.channelOk (c.rd K.LNK_CFG2_SIL_CH0) && c.channelOk (c.rd K.LNK_CFG2_SIL_CH1))) &&
    c.ad.inj.all (fun e => c.channelOk e.1) &&
    (match c.ad.cal with
      | none => true
      | some (_, ch, _) => c.channelOk ch)

/-- A comparator is consistent: both sides enabled only with LO at most HI (R263). -/
def Cell.compOk (c : Cell) (i : Nat) : Bool :=
  !(c.on (K.CMP_CFG_HI_EN i) && c.on (K.CMP_CFG_LO_EN i)) || decide (c.rd (K.CMP_THR_LO i) ≤ c.rd (K.CMP_THR_HI i))

/-- The class floors of R423: Trip for the trips and gate faults, Block for what R423 says, Lock for 23 and 30. -/
def cellFloor (i : Nat) : Nat :=
  if i ≤ 3 ∨ i = 5 then 4
  else if i = 4 ∨ i = 6 ∨ i = 16 ∨ i = 17 ∨ i = 18 ∨ i = 21 ∨ i = 22 ∨ i = 24 then 3
  else if i = 23 ∨ i = 30 then 5 else 0

/-- Rules beyond the ranges of the fields, on the cell as the write of `a` would leave it. -/
def Cell.consistent (c : Cell) (a : Nat) : Bool :=
  if a = 0x10004 ∧ c.on K.LNK_CFG2_SILL_EN ∧ Hdr.ver c.lk.header < 0x11 then false
  else if a = 0x10004 ∨ a = 0x30000 ∨ a = 0x30004 ∨ a = 0x30008 ∨ a = 0x3000C ∨ a = 0x30010 then c.measureOk
  else if a = 0x20014 then decide (c.rd K.PWM_PHASE_PHI < c.tCar)
  else if a = 0x20018 then decide (c.rd K.PWM_CAR_ALIGN < c.rd K.PWM_TIME_CAR_N)
  else if a = 0x80000 then
    c.inGroup (c.rd K.HCFG_ICH) && (!c.signed (c.rd K.HCFG_ICH) || !fIsZero (c.rd K.H_ISCALE_ISCALE))
  else if 0x30200 ≤ a ∧ a < 0x30240 then c.compOk ((a - 0x30200) / 16)
  else if 0x50008 ≤ a ∧ a < 0x50018 then
    (upto 8).all fun j => decide (cellFloor (8 * ((a - 0x50008) / 4) + j) ≤ c.rd (K.CFLT_CLASS_CLASS ((a - 0x50008) / 4) j))
  else true

/-- TM_CTL: ARM = 1 arms a load at PER, but is refused in RUNNING and COASTING (R362). -/
def Cell.tmCtl (c : Cell) (v : Nat) : Cell × Nat :=
  if bitOf v 0 && (c.mode == Mode.running || c.mode == Mode.coasting) then (c, 2)
  else
    let c := (c.wr K.TM_CTL_PER (bitsOf v 8 8)).wr K.TM_CTL_FRAC (bitsOf v 16 8)
    if bitOf v 0 then ({ c with tm := { c.tm with armed := true } }.put K.TM_ST_ARMED true, 0) else (c, 0)

/-- TM_BOUND: refused unless it lies 0 to 2^31 ns ahead of TM_NOW; one beyond the next boundary leaves the boundaries in
force until it comes (R363). -/
def Cell.tmBound (c : Cell) (now v : Nat) : Cell × Nat :=
  if 2 ^ 31 < (v + 2 ^ 32 - c.clock now) % 2 ^ 32 then (c, 3)
  else ({ c with tm := { c.tm with pend := some (v % 2 ^ 32) } }.wr K.TM_BOUND v, 0)

/-- The effect of an accepted write beyond the word itself, by address. -/
def Cell.writeEffect (c : Cell) (now a v : Nat) : Cell :=
  if a = 0x10018 ∧ bitOf v 0 then (c.setWord 0x10010 0).setWord 0x10014 0
  else if a = 0x20038 then c.bypCmd now v
  else if a = 0x50024 ∧ bitOf v 0 then c.rearm
  else if a = 0x6000C ∧ bitOf v 0 then c.trigger 4 (c.clock now)
  else if a = 0x2002C ∨ a = 0x20000 then c.regate now
  else if a = 0x80010 ∨ a = 0x80014 then c.estReset
  else if a = 0x800C0 ∧ bitOf v 1 then c.put K.HCTL_FRESH false
  else if a = 0x801B0 then { c with hl := { c.hl with histAt := bitsOf v 0 6 % 32 } }
  else c

/-- A write to a register of the cell, whole or not at all, with its mailbox result (R156, R206, R591). The classes of
CFLT_CLASS below their floor are refused (R423). -/
def Cell.writeReg (c : Cell) (now a v : Nat) : Cell × Nat :=
  if a % 4 ≠ 0 then (c, 8)
  else
    match cellRow a with
    | none => (c, if cellSramAt a then 2 else 1)
    | some r =>
      if c.mode = Mode.locked then (c, 2)
      else if a = 0x20050 then (c.clearTrip now v, 0)
      else if a = 0x50000 then (c.clearStat now v, 0)
      else if a = 0x30020 then c.injReq now (bitsOf v 0 4) (bitOf v 4)
      else if a = 0x30034 then c.calCmd now (bitsOf v 0 4) (bitsOf v 4 2) (bitsOf v 16 16)
      else if a = 0x40008 then c.tmCtl v
      else if a = 0x4000C then c.tmBound now v
      else
        match r.write (c.word a) v c.writable false with
        | .error .state => (c, 2)
        | .error _ => (c, 3)
        | .ok w =>
          let c1 := c.setWord a w
          if c1.hold.consistent a then (c1.writeEffect now a v, 0) else (c, 3)

/-- A masked write (R205). -/
def Cell.maskedWrite (c : Cell) (now a mask data : Nat) : Cell :=
  match cellRow a with
  | none => c
  | some r => (c.writeReg now a (r.masked (c.word a) mask data)).1

/-! ### Mailbox (R205 to R218) -/

/-- The request in the inbox, if it has an operation code and fits a test. -/
def Cell.request (c : Cell) (op : Nat) : Option MbReq :=
  match c.lk.inbox with
  | none => none
  | some r => if r.op = op then some r else none

/-- The running version of the strand as the cell knows it from headers. -/
def Cell.runVer (c : Cell) : Nat := Hdr.ver c.lk.header

/-- OP 1h. -/
def Cell.mbRead (c : Cell) (now uid : Nat) : Cell :=
  match c.request 1 with
  | none => c
  | some r =>
    if r.addr % 4 ≠ 0 then c.respond r 8 0
    else
      match c.readReg now uid r.addr with
      | none => c.respond r 1 0
      | some d => c.respond r 0 d

/-- OP 2h. -/
def Cell.mbWrite (c : Cell) (now : Nat) : Cell :=
  match c.request 2 with
  | none => c
  | some r =>
    let (c, res) := c.writeReg now r.addr r.data
    c.respond r res 0

/-- OP 3h, from version 1.3 (R205, R206). -/
def Cell.mbReadClear (c : Cell) (now uid : Nat) : Cell :=
  match c.request 3 with
  | none => c
  | some r =>
    if c.runVer < 0x13 then c.respond r 4 0
    else if r.addr % 4 ≠ 0 then c.respond r 8 0
    else
      match c.readReg now uid r.addr with
      | none => c.respond r 1 0
      | some d =>
        let (c, res) := c.writeReg now r.addr d
        c.respond r res d

/-- OP 4h with ADDR 0001h: the cell resets at once, and sends no response (R51, R209). -/
def Cell.mbReset (c : Cell) (now : Nat) : Cell :=
  match c.request 4 with
  | none => c
  | some r =>
    if r.addr ≠ 1 then c
    else if c.mode = Mode.safeHold ∨ c.mode = Mode.enumerated ∨ c.mode = Mode.blocked ∨ c.mode = Mode.bypassed then
      c.doReset now
    else c.respond r 2 0

/-- OP 4h with ADDR 0002h and DATA A5A5h: a bypass starts; another command code is unknown (R205, R206). -/
def Cell.mbBypass (c : Cell) (now : Nat) : Cell :=
  match c.request 4 with
  | none => c
  | some r =>
    if r.addr = 1 then c
    else if r.addr ≠ 2 then c.respond r 1 0
    else if c.mode = Mode.reset ∨ c.mode = Mode.locked then c.respond r 2 0
    else if r.data ≠ 0xA5A5 then c.respond r 3 0
    else (c.startBypass now).respond r 0 0

/-- OP 5h, broadcast only: the bits of MASK change (R205); no response. -/
def Cell.mbMasked (c : Cell) (now : Nat) : Cell :=
  match c.request 5 with
  | none => c
  | some r => ((if c.mode = Mode.locked then c else c.maskedWrite now r.addr r.path r.data)).respond { r with bc := true } 0 0

/-- OP 6h: an identity item (R217). -/
def Cell.mbIdentify (c : Cell) (uid : Nat) : Cell :=
  match c.request 6 with
  | none => c
  | some r =>
    match r.addr with
    | 0 => c.respond r 0 (uid % 2 ^ 32)
    | 1 => c.respond r 0 (uid / 2 ^ 32)
    | 2 => c.respond r 0 0x00010002
    | 3 => c.respond r 0 c.verItem
    | 4 => c.respond r 0 c.compoundItem
    | 5 => c.respond r 0 (c.rd K.SUB_LAT_PROP)
    | _ => c.respond r 1 0

/-- OP 7h: ACCEPT, judged by state, self-test and UID in that order (R218). -/
def Cell.mbAccept (c : Cell) (uid : Nat) : Cell :=
  match c.request 7 with
  | none => c
  | some r =>
    if r.addr ≠ 1 then c.respond r 1 0
    else if c.mode ≠ Mode.safeHold ∧ c.mode ≠ Mode.enumerated then c.respond r 2 0
    else if c.stFail then c.respond r 2 0
    else if r.data ≠ uid % 2 ^ 32 then c.respond r 3 0
    else { c with mode := Mode.enumerated }.respond r 0 0

/-- The UID of the cell at an extended address. -/
def uidOf (id : Nat) : Nat := (Config.cellUid id).toNat

/-! ### Meanings -/

def execMbRead (cell : BitVec 64) (s : State) : Out :=
  .next (s.onCell cell.toNat fun c => c.mbRead s.now (uidOf cell.toNat))

def execMbWrite (cell : BitVec 64) (s : State) : Out := .next (s.onCell cell.toNat fun c => c.mbWrite s.now)

def execMbReadClear (cell : BitVec 64) (s : State) : Out :=
  .next (s.onCell cell.toNat fun c => c.mbReadClear s.now (uidOf cell.toNat))

def execMbCmdReset (cell : BitVec 64) (s : State) : Out := .next (s.onCell cell.toNat fun c => c.mbReset s.now)

def execMbCmdBypass (cell : BitVec 64) (s : State) : Out := .next (s.onCell cell.toNat fun c => c.mbBypass s.now)

def execMbMaskedWrite (cell : BitVec 64) (s : State) : Out := .next (s.onCell cell.toNat fun c => c.mbMasked s.now)

def execMbIdentify (cell : BitVec 64) (s : State) : Out :=
  .next (s.onCell cell.toNat fun c => c.mbIdentify (uidOf cell.toNat))

def execMbAccept (cell : BitVec 64) (s : State) : Out :=
  .next (s.onCell cell.toNat fun c => c.mbAccept (uidOf cell.toNat))

/-- A write of LNK_CLR.CLR clears LNK_ERR and LNK_ERR2 (R214). -/
def execLnkClr (cell : BitVec 64) (s : State) : Out :=
  .next (s.onCell cell.toNat fun c => c.writeEffect s.now 0x10018 1)

/-- A write of TM_CTL with ARM = 1, PER and FRAC (R362). -/
def execTmArm (cell : BitVec 64) (per frac : BitVec 8) (s : State) : Out :=
  .next (s.onCell cell.toNat fun c => (c.tmCtl (1 + 256 * per.toNat + 65536 * frac.toNat)).1)

/-- A write of TM_BOUND (R363). -/
def execTmBoundWrite (cell : BitVec 64) (value : BitVec 32) (s : State) : Out :=
  .next (s.onCell cell.toNat fun c => (c.tmBound s.now value.toNat).1)

/-- A command frame passes a cell: it forwards the frame unaltered on its other strand port, and a head launches its
sub-strand frame on port D (R200 to R202, R229). -/
def State.commandAtCell (s : State) (id : Nat) (port : Fin 2) (frame : List Byte) : State :=
  let fwd := (s.cell id).forwards port
  let (c, sub) := (s.cell id).commandFrame s.now port frame
  let s := (s.setCell id c).when fwd fun s => s.send (.cellFrame id (otherPort port) frame)
  match sub with
  | none => s
  | some f => s.send (.cellFrame id 2 f)

/-- The member frame that reaches a head on port D: good slots are kept for the period, and a member's response goes into
the head's next upstream pass (R229, R231). -/
def Cell.memberFrame (c : Cell) (f : List Byte) : Cell :=
  let k := c.rd K.SUB_STATUS_K
  let good := (upto k).filter fun i => slotState i f (32 + 16 * i) 16 == .good
  let ms := good.map fun i => (i, (f.drop (32 + 16 * i)).take 14)
  let r := mbReqOf f
  let up : MbReq := { r with pos := c.pos, bc := false, path := (bitsOf r.path 0 4 + 1) + 16 * r.pos + r.path / 16 * 128 }
  let c := { c with lk := { c.lk with members := ms } }
  if r.op ≠ 0 ∧ Hdr.crc f = .good then
    { c with lk := { c.lk with owed := c.lk.owed ++ [{ req := up, result := byteAt f 27, data := r.data, due := c.lk.period }] } }
  else c

/-- A collection frame passes a cell and leaves with its slots, but the cell forwards no upstream frame of a period in
which it originated one, and a frame on port D ends at the head (R192, R201, R226). -/
def execCollectionFrameAtCell (cell : BitVec 64) (port : Fin 3) (frame : List Byte) (s : State) : Out :=
  let id := cell.toNat
  if port.val = 2 then .next (s.onCell id fun c => c.memberFrame frame)
  else
    let fwd := (s.cell id).forwards port && !((s.cell id).lk.originated && Hdr.type frame == 3)
    let (c, f) := (s.cell id).collectionFrame s.now port frame
    .next ((s.setCell id c).when fwd fun s => s.send (.cellFrame id (otherPort port) f))

/-- At T_ORIG an originating cell sends the upstream collection frame towards the launching unit (R192). -/
def execUpstreamOriginate (cell : BitVec 64) (s : State) : Out :=
  let id := cell.toNat
  let c := s.cell id
  if c.originator then
    let (c, f) := c.putResponse c.originateFrame
    let c := { c.put K.LNK_STATUS_ORIGINATES true with lk := { c.lk with originated := true } }
    .next ((s.setCell id c).send (.cellFrame id c.towardsHead f))
  else .next (s.setCell id (c.put K.LNK_STATUS_ORIGINATES false))

/-- A BLOCK ordered set: with another pattern it is an errored block; else it is forwarded at once and the cell blocks
(R185, R195, R229). -/
def execBlockOrderedSet (cell : BitVec 64) (port : Fin 2) (d2 d3 : BitVec 8) (s : State) : Out :=
  let id := cell.toNat
  let c := s.cell id
  if c.mode = Mode.reset ∨ c.mode = Mode.selfTest then .next s
  else if d2 ≠ 0x5A#8 ∨ d3 ≠ 0xA5#8 then .next (s.setCell id (c.inc K.LNK_ERR2_BLK_ERR))
  else
    let s' := (s.setCell id (c.block s.now)).when (c.forwards port) fun s => s.send (.cellSet id (otherPort port) 0x0B 0x5A 0xA5)
    .next (s'.when (c.on K.SUB_CFG_HEAD_EN && bitOf c.lk.trained 2) fun s => s.send (.cellSet id 2 0x0B 0x5A 0xA5))

/-- Eight identical TS_UP on a port of a cell (R186, R215, R216). -/
def execUpstreamSelected (cell : BitVec 64) (port : Fin 2) (d2 d3 : BitVec 8) (s : State) : Out :=
  let (c, out) := (s.cell cell.toNat).upstream s.now port d2.toNat d3.toNat
  .next ((s.setCell cell.toNat c).forL out fun o s => s.send (.cellSet cell.toNat o.1 o.2.1 o.2.2.1 o.2.2.2))

end Sys2Proof.Machine
end

