-- ==== Sys2Proof/Machine/Strand.lean ====
section
/-! DEFINITION. The strand ports of the KC8400: the frames they build (R189 to R199), the launch queue (R190, R191), the
mailbox machine (R204 to R212), and what of a strand the period layout needs (R18 to R22). -/

namespace Sys2Proof.Machine

def portDefault (_ : Nat) : Port := Port.reset

def State.port (s : State) (p : Nat) : Port := mapGet portDefault s.ports p

def State.setPort (s : State) (p : Nat) (x : Port) : State := { s with ports := mapSet portDefault s.ports p x }

def State.onPort (s : State) (p : Nat) (f : Port → Port) : State := s.setPort p (f (s.port p))

/-! ### Service, versions, addresses -/

/-- The arm that STRAND_ARMw assigns to a port; above 5 none. -/
def State.portArm (s : State) (p : Nat) : Nat := s.cfg (R.STRAND_ARM_ARM (p / 8) (p % 8))

/-- A strand in service: its port is enabled and assigned to an arm (log entry 20). -/
def State.strandInService (s : State) (p : Nat) : Bool := s.on (R.PORT_CFG_EN p) && decide (s.portArm p ≤ 5)

/-- The KC index of this unit in its accord; 0 stand-alone. -/
def State.kcx (s : State) : Nat := if s.on R.ACD_CFG_EN then s.rd (R.LVLE_W0_MIDX 0) else 0

/-- The handle of a position (R224). -/
def State.handle (s : State) (p pos : Nat) : Nat := s.kcx * 2 ^ 13 + p * 2 ^ 7 + pos

/-- The extended address of a position or of the member that a mailbox PATH names (R224). -/
def State.extAddr (s : State) (p pos path : Nat) : Nat :=
  s.handle p pos + 2 ^ 16 * bitsOf path 0 4 +
    sumOf ((upto (bitsOf path 0 4)).map fun l => bitsOf path (3 * l + 4) 3 * 2 ^ (3 * l + 20))

/-- The mailbox PATH of an extended address (R224). -/
def pathOf (ext : Nat) : Nat :=
  let d := bitsOf ext 16 4
  d + sumOf ((upto d).map fun l => bitsOf ext (3 * l + 20) 3 * 2 ^ (3 * l + 4))

/-- The running version of a port: what enumeration set, before it what the first cell stated (R234). -/
def State.runVer (s : State) (p : Nat) : Nat :=
  if s.rd (R.ENUM_VER_RUN p) = 0 then (s.port p).ver0 else s.rd (R.ENUM_VER_RUN p)

/-- N of a port: the committed number in the committed layout, else the one learned (R222). -/
def State.ncell (s : State) (p : Nat) : Nat :=
  if s.sys.committed then s.crd (R.PORT_STATUS_NCELL p) else s.rd (R.PORT_STATUS_NCELL p)

/-! ### Slot sizes and offsets (R196), in the layout loaded into the cells -/

/-- Cells of a port whose sillage is enabled. -/
def State.sillage (s : State) (p pos : Nat) : Bool := (s.cell (s.handle p pos)).on K.LNK_CFG2_SILL_EN

def State.slotSize (s : State) (p pos : Nat) : Nat := if s.sillage p pos then 24 else 16

/-- The offset of a position's slot in the downstream, and in the upstream collection frame. -/
def State.cdnOff (s : State) (p pos n : Nat) : Nat := 32 + sumOf ((upto (n - 1 - pos)).map fun i => s.slotSize p (pos + 1 + i))

def State.cupOff (s : State) (p pos : Nat) : Nat := 32 + sumOf ((upto pos).map fun i => s.slotSize p i)

/-! ### Frames that the KC8400 launches -/

/-- DEBLOCKED takes effect at the next boundary, so the commands of this period are built for it (R32, R342). -/
def State.deblocks (s : State) : Bool :=
  s.st == St.energised && match s.sys.pend with
    | some q => q.target == St.deblocked && q.atPeriod == some (s.sys.period + 1)
    | none => false

/-- Header BLOCK of a frame of a type (R29, R32, R194): 1 unless the state is DEBLOCKED, or for a command frame becomes so
with its records, and the hardwired path of the island is inactive. -/
def State.headerBlock (s : State) (type : Nat) : Bool :=
  (s.st != St.deblocked && !(type == 1 && s.deblocks)) || s.sys.hardBlock

/-- Header bytes 9 to 11: the commutation event of an arm, or ARM = 7 (R193). -/
def State.eventBytes (s : State) (arm : Nat) : List Byte :=
  if arm ≤ 5 then
    BitVec.ofNat 8 (arm + 8 * s.rd (R.ARM_COMM_SIGN arm) + 16 * s.rd (R.ARM_COMM_ZC_VALID arm)) ::
      bytesLE 2 (s.rd (R.ARM_COMM_ZC_OFF arm))
  else [7#8, 0#8, 0#8]

/-- The 32-byte header of a frame of a type on a port with a mailbox field (R193). -/
def State.header (s : State) (p type arm : Nat) (mb : List Byte) : List Byte :=
  let b := s.headerBlock type
  let h := [BitVec.ofNat 8 (type + 8 * b.toNat + 16 * s.sys.hardBlock.toNat + 32 * (!s.sys.committed).toNat +
      128 * (!b).toNat), BitVec.ofNat 8 (s.runVer p)] ++ bytesLE 2 (p + 64 * s.kcx + 512 * s.ncell p) ++
    bytesLE 4 s.sys.period ++ [BitVec.ofNat 8 s.sys.epoch] ++ s.eventBytes arm ++ mb
  h ++ bytesLE 4 (crc32c h)

/-- Records of the keys of a cell outside the level table: FORMAT 0h. -/
def idleRecord : List Byte := List.replicate 14 0#8

/-- The record for a position, as the level engine built it last. -/
def State.record (s : State) (p pos : Nat) : List Byte :=
  if s.sys.committed then mapGet (fun _ => idleRecord) s.lvl.records (p * 128 + pos) else idleRecord

/-- The command frame of a port: slots of the position that the frame reaches last first (R12, R196). -/
def State.commandFrame (s : State) (p : Nat) (mb : List Byte) : List Byte :=
  let n := s.ncell p
  s.header p 1 (s.portArm p) mb ++
    ((upto n).map fun i => slotBytes (n - 1 - i) s.sys.period (s.record p (n - 1 - i))).flatten

/-- The downstream collection frame as the head launches it: every slot stomped (R199). -/
def State.collectionFrame (s : State) (p : Nat) : List Byte :=
  let n := s.ncell p
  s.header p 2 7 (List.replicate 16 0#8) ++
    ((upto n).map fun i =>
      let pos := n - 1 - i
      stompedSlot pos s.sys.period 16 ++ if s.sillage p pos then stompedSlot pos s.sys.period 8 else []).flatten

/-! ### Delays of a strand (R18, R21, R22, R228), in units of 10 ps where not said otherwise -/

def State.info (s : State) (p pos : Nat) : CellInfo := mapGet (fun _ => CellInfo.none) (s.port p).info pos

/-- t_f: all segments between head and tail as measured. -/
def State.fibre (s : State) (p : Nat) : Nat :=
  s.rd (R.STR_DLY_D_HEAD p) + sumOf ((upto (s.ncell p)).map fun i => (s.info p i).seg)

/-- A_max: the largest declared aggregation latency on the strand, in units of 0.1 ns. -/
def State.aMax (s : State) (p : Nat) : Nat := maxOf ((upto (s.ncell p)).map fun i => (s.info p i).compound / 65536)

/-- F_col in bytes. -/
def State.fCol (s : State) (p : Nat) : Nat := 32 + sumOf ((upto (s.ncell p)).map fun i => s.slotSize p i)

/-- D_strand in units of 10 ns, rounded up (R18). -/
def State.dStrand (s : State) (p : Nat) : Nat :=
  let n := s.ncell p
  let dCol := s.fibre p + n * 2400 + s.fCol p * 80 + s.aMax p * 10
  let dCmd := s.fibre p + (n - 1) * 2400 + 48 * 80 + s.aMax p * 10
  ceilDiv (Nat.max dCol dCmd) 1000

/-- The collection launch of a strand in units of 10 ns after t0, delayed by R21. -/
def State.tColOf (s : State) (p : Nat) : Nat :=
  let n := s.ncell p
  let b := s.fCol p - Nat.max (s.slotSize p 0) (s.slotSize p (n - 1))
  let ready := 4000 + s.aMax p
  Nat.max 20 (ceilDiv (ready + 64 - 8 * b) 100)

/-! ### Mailbox machine -/

/-- The header bytes 12 to 27 of a request. -/
def reqBytes (r : MbReq) : List Byte := mbBytes r r.data 0

/-- The period in force of the strand, in ns. -/
def State.stepNs (s : State) : Nat := s.periodNs

/-- ARR of a position in units of 10 ps (R361). -/
def State.arrival (s : State) (p pos : Nat) : Nat :=
  s.rd (R.STR_DLY_D_HEAD p) + sumOf ((upto pos).map fun i =>
    let x := s.info p i
    (if x.upQ then x.fwdQp else x.fwdPq) + x.seg)

/-- The command launch after t0 in units of 10 ns. -/
def State.tCmd (s : State) : Nat := if s.sys.committed then s.rd R.LAYOUT_1_T_ML else 5000

/-- A time load for a position is formed (R362): VAL and FRAC for the command frame of eight periods ahead (log entry 22).
The launch is up to 6.4 ns early by an open amount (R190). -/
def State.formLoad (s : State) (p pos : Nat) : Nat × State :=
  let per := s.sys.period + 8
  let (r, s) := s.draw
  let t := per * s.stepNs * 100 + s.tCmd * 1000 + s.arrival p pos - r.toNat % 640
  let frac := rneDiv (t % 100 * 256) 100
  let val := (t / 100 + frac / 256) % 2 ^ 32
  (val, s.onPort p fun x => { x with loadP := per, loadFrac := frac % 256 })

/-- The next boundary of the layout in force at least 1 ms ahead, as 32-bit time (R38, R223). -/
def State.formBound (s : State) : Nat := ceilDiv (s.now + 1000000) s.stepNs * s.stepNs % 2 ^ 32

/-- DATA of a transaction as it opens. -/
def State.lateData (s : State) (p : Nat) (o : Own) : Nat × State :=
  match o.late with
  | 1 => s.formLoad p o.req.pos
  | 2 => (1 + 256 * ((s.port p).loadP % 256) + 65536 * (s.port p).loadFrac, s)
  | 3 => (s.formBound, s)
  | _ => (o.req.data, s)

/-- The unit controls its strands. -/
def State.controls (s : State) : Bool := s.role == Role.solo || s.role == Role.active

/-- A transaction opens: SEQ advances, MB_STATUS shows BUSY (R211); the partner of the launching unit sends its request
over the tie link. ORIG is the unit's own PAIR_ID (R292). -/
def State.openTxn (s : State) (p : Nat) (o : Own) : State :=
  let (data, s) := s.lateData p o
  let q := (s.port p).seq + 1
  let req := { o.req with data := data, seq := q % 16, orig := s.rd R.TIE_STATUS_PAIR_ID }
  let s := s.onPort p fun x => { x with seq := q % 16, txn := some { tag := o.tag, req := req, ready := true, due := 0, tries := 0 } }
  let s := ((s.put (R.MB_STATUS_BUSY p) true).wr (R.MB_STATUS_SEQ p) (q % 16)).wr (R.MB_STATUS_TRIES p) 0
  s.when (!s.controls) fun s => s.sendTie 0x0A p (reqBytes req)

/-- The next transaction of the KC8400's own, or of the partner, starts where the port is free. -/
def State.nextOwn (s : State) (p : Nat) : State :=
  match (s.port p).txn with
  | some _ => s
  | none =>
    match (s.port p).own with
    | o :: rest => (s.onPort p fun x => { x with own := rest }).openTxn p o
    | [] =>
      match (s.port p).partner with
      | r :: rest =>
        let s := s.onPort p fun x => { x with partner := rest, txn := some { tag := .partner, req := r, ready := true, due := 0, tries := 0 } }
        s.put (R.MB_STATUS_BUSY p) true
      | [] => s

/-- What a unit that does not control its strands asks of them: what software and the object service want, and the reads
of enumeration. -/
def Tag.served : Tag → Bool
  | .soft | .item _ _ _ | .below _ | .seg _ | .fwd _ | .object _ _ _ _ _ | .calPoll _ | .calRead _ _ => true
  | .partner | .accept _ _ | .plain | .prepAll | .prep _ _ _ | .join _ _ | .imageFresh _ _ | .imageRead _ _
  | .imageWrite _ _ | .replayRead _ _ _ _ | .replayWrite _ | .align => false

/-- The transactions of a list that this unit asks for. -/
def State.asked (s : State) (os : List Own) : List Own := os.filter fun o => s.controls || o.tag.served

/-- Transactions of the KC8400's own are asked for. -/
def State.ask (s : State) (p : Nat) (os : List Own) : State :=
  (s.onPort p fun x => { x with own := x.own ++ s.asked os }).nextOwn p

/-- Transactions that go before all others that wait. -/
def State.askFirst (s : State) (p : Nat) (os : List Own) : State :=
  (s.onPort p fun x => { x with own := s.asked os ++ x.own }).nextOwn p

/-- A request to one position or member. -/
def reqTo (op pos path addr data : Nat) : MbReq :=
  { op := op, seq := 0, pos := pos, bc := false, path := path, addr := addr, data := data, orig := 0 }

/-- A broadcast request. -/
def reqAll (op path addr data : Nat) : MbReq :=
  { op := op, seq := 0, pos := 0, bc := true, path := path, addr := addr, data := data, orig := 0 }

/-- Why a GO is refused: an operation that a broadcast may not carry, a masked write to one cell, or a path deeper than
nine levels (R207, R209); 4 for a feature above the running version (R212). -/
def State.goRefused (s : State) (p : Nat) (r : MbReq) : Option Nat :=
  let v := s.runVer p
  let depth := if r.op = 5 then 0 else bitsOf r.path 0 4
  if r.bc ∧ r.op ≠ 2 ∧ r.op ≠ 5 ∧ ¬(r.op = 4 ∧ r.addr = 2) then some 0
  else if r.op = 5 ∧ r.bc = false then some 0
  else if 9 < depth then some 0
  else if (r.op = 3 ∧ v < 0x13) ∨ (0 < depth ∧ v < 0x12) then some 4
  else none

/-- The request that the MB registers of a port hold. -/
def State.softReq (s : State) (p : Nat) : MbReq :=
  { op := s.rd (R.MB_REQ_OP p), seq := 0, pos := s.rd (R.MB_REQ_POS p), bc := s.on (R.MB_REQ_BC p), path := s.rd (R.MB_PATH_PATH p),
    addr := s.rd (R.MB_ADDR_ADDR p), data := s.rd (R.MB_DATA_DATA p), orig := 0 }

/-- A write of MB_CTRL.GO (R211, R212): refused while BUSY, for a bad combination, or above the running version. -/
def State.mbGo (s : State) (p : Nat) : State :=
  let r := s.softReq p
  if s.on (R.MB_STATUS_BUSY p) then s.put (R.MB_STATUS_REFUSED p) true
  else
    match s.goRefused p r with
    | some code => (s.put (R.MB_STATUS_REFUSED p) true).when (code != 0) fun s => s.wr (R.MB_STATUS_RESULT p) code
    | none => (s.openTxn p { tag := .soft, req := r, late := 0 }).wr (R.MB_REQ_ORIG p) (s.rd R.TIE_STATUS_PAIR_ID)

end Sys2Proof.Machine
end

