-- ==== Sys2Proof/Machine/Enum.lean ====
section
/-! DEFINITION. Enumeration of a strand (R215 to R223, R234), loading of a cell's layout and time (R196, R361 to R363), the
joining of a late cell (R223), and what the end of each transaction of the KC8400's own does (R211). -/

namespace Sys2Proof.Machine

namespace Verdict
/-- Codes of R220. -/
def empty : Nat := 0
def ok : Nat := 1
def foreign : Nat := 2
def unexpected : Nat := 3
def version : Nat := 4
def stFail : Nat := 5
def unreachable : Nat := 6
def silent : Nat := 7
end Verdict

/-- An own transaction. -/
def own (tag : Tag) (req : MbReq) : Own := { tag := tag, req := req, late := 0 }

/-- One whose DATA is formed when it opens. -/
def ownLate (tag : Tag) (req : MbReq) (late : Nat) : Own := { tag := tag, req := req, late := late }

/-! ### Expected entries -/

/-- The member entry of a head's handle and a PATH. -/
def State.memberEntry (s : State) (handle path : Nat) : Option Nat :=
  (upto 1024).find? fun e => s.on (R.MEMB_W2_EXPECT e) && s.rd (R.MEMB_W6_HEAD e) == handle && s.rd (R.MEMB_W7_PATH e) == path

/-- What an entry expects: the UID, whether a cell is expected, and the port. -/
def State.expected (s : State) (p pos : Nat) : Nat × Bool × Nat :=
  (s.rd (R.EXP_W0_UID_LO p pos) + 2 ^ 32 * s.rd (R.EXP_W1_UID_HI p pos), s.on (R.EXP_W2_EXPECT p pos), s.rd (R.EXP_W2_EXP_PORT p pos))

/-- The verdict on what a position or member reported (R220): items 0 to 4 of R217. -/
def State.judge (s : State) (p : Nat) (exp : Option (Nat × Bool × Nat)) (uid ver : Nat) : Nat :=
  let low := bitsOf ver 8 8
  let high := bitsOf ver 0 8
  let run := if s.rd (R.ENUM_VER_RUN p) = 0 then 0x13 else s.rd (R.ENUM_VER_RUN p)
  if run < low ∨ high / 16 ≠ 1 then Verdict.version
  else
    match exp with
    | none => Verdict.unexpected
    | some (u, e, _) =>
      if !e then Verdict.unexpected
      else if u ≠ uid then Verdict.foreign
      else if bitOf ver 26 then Verdict.stFail else Verdict.ok

/-- Counts of ENUM_STATUS, from the verdicts of the port. -/
def State.recount (s : State) (p : Nat) : State :=
  let vs := (upto 96).map fun i => s.rd (R.EXP_W3_VERDICT p i)
  let count := fun (f : Nat → Bool) => (vs.filter f).length
  ((s.wr (R.ENUM_STATUS_N_OK p) (count (· == Verdict.ok))).wr (R.ENUM_STATUS_N_FOREIGN p) (count (· == Verdict.foreign))).wr
    (R.ENUM_STATUS_N_OTHER p) (count fun v => v != Verdict.ok && v != Verdict.foreign && v != Verdict.empty)

/-- The result words of a position. -/
def State.reportPos (s : State) (p pos v uid ver compound : Nat) : State :=
  let expPort := s.rd (R.EXP_W2_EXP_PORT p pos)
  let swapped := decide (expPort < 2) && decide (bitsOf ver 24 1 ≠ expPort)
  let s := ((s.wr (R.EXP_W3_VERDICT p pos) v).put (R.EXP_W3_SWAPPED p pos) swapped).put (R.EXP_W3_DUAL_UP p pos) (bitOf ver 25)
  let s := (s.wr (R.EXP_W3_VER p pos) (bitsOf ver 0 8)).wr (R.EXP_W3_L p pos) (bitsOf compound 0 8)
  let s := (s.wr (R.EXP_RPTLO_UID p pos) (uid % 2 ^ 32)).wr (R.EXP_RPTHI_UID p pos) (uid / 2 ^ 32)
  s.onPort p fun x => { x with info := mapUpd (fun _ => CellInfo.none) x.info pos fun i =>
    { i with compound := compound, upQ := bitOf ver 24 } }

/-- The result words of a member entry. -/
def State.reportMember (s : State) (e v uid ver compound : Nat) : State :=
  let expPort := s.rd (R.MEMB_W2_EXP_PORT e)
  let swapped := decide (expPort < 2) && decide (bitsOf ver 24 1 ≠ expPort)
  let s := ((s.wr (R.MEMB_W3_VERDICT e) v).put (R.MEMB_W3_SWAPPED e) swapped).put (R.MEMB_W3_DUAL_UP e) (bitOf ver 25)
  ((s.wr (R.MEMB_W3_VER e) (bitsOf ver 0 8)).wr (R.MEMB_W3_L e) (bitsOf compound 0 8)).wr (R.MEMB_RPTLO_UID e) (uid % 2 ^ 32)
    |>.wr (R.MEMB_RPTHI_UID e) (uid / 2 ^ 32)

/-! ### Layout and time of a cell -/

/-- The writes of a cell's layout: offsets, T_ORIG, FAR_END, and SUB_LAUNCH of a head (R196, R219, R228). -/
def State.layoutWrites (s : State) (p pos n : Nat) : List Own :=
  let c := s.cell (s.handle p pos)
  let cfg := 32 + 16 * (n - 1 - pos) + 65536 * s.cdnOff p pos n
  let cfg2 := setBits (setBits (c.word 0x10004) 0 12 (s.cupOff p pos)) 13 1 (if pos + 1 = n then 1 else 0)
  let orig := s.tColOf p + 65536 * n
  let w := fun a d => own .plain (reqTo 2 pos 0 a d)
  let members := bitsOf (s.info p pos).compound 8 4
  let sub := if members = 0 then [] else [w 0x10100 (1 + 65536 * (40 + ceilDiv ((s.info p pos).compound / 65536) 100))]
  [w 0x10000 cfg, w 0x10004 cfg2, w 0x10008 orig] ++ sub

/-- The broadcast of CELL_CLASS_DEFw into every cell of a strand (R423). -/
def State.classWrites (s : State) : List Own :=
  (upto 4).map fun w => own .plain (reqAll 2 0 (0x50008 + 4 * w) (s.word (0x40800080 + 4 * w)))

/-- Reads of a cell's delays (R361). -/
def delayReads (pos : Nat) : List Own := [own (.seg pos) (reqTo 1 pos 0 0x40014 0), own (.fwd pos) (reqTo 1 pos 0 0x40018 0)]

/-- The time load of a position or member (R362). -/
def loadWrites (tag : Tag) (pos path : Nat) : List Own :=
  [ownLate tag (reqTo 2 pos path 0x40004 0) 1, ownLate tag (reqTo 2 pos path 0x40008 0) 2]

/-- Time, step and boundary of the maintenance layout after a load (R363). -/
def maintWrites (pos path : Nat) : List Own :=
  loadWrites .plain pos path ++ [own .plain (reqTo 2 pos path 0x40010 200), ownLate .plain (reqTo 2 pos path 0x4000C 0) 3]

/-- Every cell as the scope of a replay entry (R536). -/
def allCells : Nat := 2 ^ 64

/-- The replay list's entries for a cell, in list order: a whole word is written, fewer bits need the word first (R536). -/
def State.replayWrites (s : State) (ext pos path : Nat) : List Own :=
  (s.od.replay.filter fun r => r.scope == ext || r.scope == allCells).map fun r =>
    if r.mask = 2 ^ 32 - 1 then own (.replayWrite ext) (reqTo 2 pos path r.addr r.value)
    else own (.replayRead ext r.addr r.mask r.value) (reqTo 1 pos path r.addr 0)

/-- The read of HCTL that decides whether a cell's health image is restored (R515), while images are kept. -/
def State.imageCheck (s : State) (ext pos path : Nat) : List Own :=
  if s.on R.HLT_CFG_IMG_EN then [own (.imageFresh ext false) (reqTo 1 pos path 0x800C0 0)] else []

/-- The carrier phase of a cell with key index `j` in an arm (R145), in ticks. -/
def State.carrierPhase (s : State) (arm j : Nat) : Nat :=
  let b := if s.cfg (R.ARM_CFG_BRIDGE arm) = 1 then 2 else 1
  let n := s.lvl.keys.getD arm 0
  let tc := s.cfg R.PERIOD_CFG_TC * 100
  if n = 0 then 0 else rneDiv (j * (s.cfg (R.ARM_PSC_CAR_N arm) * tc)) (b * n)

/-- PWM_TIME of an arm with the committed TC. -/
def State.pwmTime (s : State) (arm : Nat) : Nat :=
  s.cfg R.PERIOD_CFG_TC * 100 + 65536 * s.cfg (R.ARM_PSC_CAR_N arm) + 2 ^ 28 * (if arm ≤ 5 then arm else 7)

/-- The arm works with phase-shifted carriers. -/
def State.carrierArm (s : State) (arm : Nat) : Bool := decide (arm ≤ 5) && s.cfg (R.ARM_CFG_MODE arm) == 1

/-- P_align mod CAR_N of an arm (R147). -/
def State.alignOf (s : State) (arm : Nat) : Nat :=
  let n := s.cfg (R.ARM_PSC_CAR_N arm)
  if n = 0 then 0 else s.lvl.pAlign % n

/-- The steps of R223 for a cell that comes up in the committed layout. -/
def State.joinWrites (s : State) (p pos path : Nat) : List Own :=
  let ext := s.extAddr p pos path
  let arm := s.portArm p
  let t := Tag.join ext false
  let w := fun a d => own t (reqTo 2 pos path a d)
  let car := if s.carrierArm arm then
      [w 0x20018 (s.alignOf arm), w 0x20014 (s.carrierPhase arm (mapGet (fun _ => 0) s.lvl.keyOf (p * 128 + pos)))] else []
  loadWrites t pos path ++ [w 0x20010 (s.pwmTime arm)] ++ car ++
    [w 0x40010 (s.cfg R.PERIOD_CFG_TC + 512), ownLate t (reqTo 2 pos path 0x4000C 0) 3] ++
    s.replayWrites ext pos path ++ s.imageCheck ext pos path ++ [own (.join ext true) (reqTo 1 pos path 0x4000C 0)]

/-- The joining of a cell starts. -/
def State.startJoin (s : State) (p pos path : Nat) : State :=
  (s.onPort p fun x => { x with joinFailed := x.joinFailed.filter (· != (pos, path)) }).ask p (s.joinWrites p pos path)

/-- A cell accepted in the maintenance period gets its delays read, its time, and its replayed settings (R361 to R363,
R515, R536). -/
def State.settleCell (s : State) (p pos path : Nat) : State :=
  let ext := s.extAddr p pos path
  s.ask p ((if path = 0 then delayReads pos else []) ++ maintWrites pos path ++ s.replayWrites ext pos path ++
    s.imageCheck ext pos path)

/-! ### The walk -/

/-- The five reads of a target. -/
def itemReads (pos path : Nat) : List Own := (upto 5).map fun i => own (.item pos path i) (reqTo 6 pos path i 0)

/-- The running version of a port and IF_VER (R234, R240). -/
def State.setRun (s : State) (p : Nat) (w : Walk) : State :=
  let kc := decide (0x13 ≤ w.ver)
  let run := Nat.min 0x13 w.ver
  let s := ((s.wr (R.ENUM_VER_RUN p) run).wr (R.ENUM_VER_LIMIT_POS p) (w.limit.getD 0)).put (R.ENUM_VER_LIMIT_KC p) kc
  let s := (s.wr (R.PORT_STATUS_VER_MAJ p) (run / 16)).wr (R.PORT_STATUS_VER_MIN p) (run % 16)
  let runs := ((upto 48).map fun q => s.rd (R.ENUM_VER_RUN q)).filter (· != 0)
  s.wr (R.IF_VER_RUN 0) (runs.foldl Nat.min run)

/-- The walk of a port ends: EMPTY beyond the last answer, the running version and the layout where the state allows them,
and DONE (R219, R220, R222, R234). -/
def State.endWalk (s : State) (p : Nat) (w : Walk) : State :=
  let n := match w.last with
    | none => 0
    | some l => l + 1
  let open' := s.writable
  let s := s.forN 96 fun i s => s.when (decide (n ≤ i)) fun s => s.wr (R.EXP_W3_VERDICT p i) Verdict.empty
  let s := (s.recount p).onPort p fun x => { x with walk := .none }
  let s := (s.put (R.ENUM_STATUS_BUSY p) false).put (R.ENUM_STATUS_DONE p) true
  if !open' then
    s.when (decide (s.ncell p < n)) fun s => s.put (R.ENUM_STATUS_LAYOUT_CHG p) true
  else if w.last.isNone then s
  else
    let s := (s.setRun p w).wr (R.PORT_STATUS_NCELL p) n
    let s := (s.wr (R.PORT_FAR_T_ORIG p) (s.tColOf p)).wr (R.PORT_FAR_FAR_POS p) (n - 1)
    let s := s.forN n fun pos s => s.when (s.rd (R.EXP_W3_VERDICT p pos) != Verdict.silent) fun s => s.ask p (s.layoutWrites p pos n)
    let s := s.ask p s.classWrites
    s.forN n fun pos s => s.when (s.rd (R.EXP_W3_VERDICT p pos) == Verdict.ok) fun s => s.settleCell p pos 0

/-- The walk goes on with its next target, or ends. -/
def State.walkOn (s : State) (p : Nat) : State :=
  match (s.port p).walk with
  | none => s
  | some w =>
    match w.work with
    | [] => s.endWalk p w
    | (pos, path) :: rest =>
      let s := s.onPort p fun x => { x with walk := some { w with work := rest, items := [] } }
      s.ask p (itemReads pos path)

/-- A walk starts at given targets (R219, R222). -/
def State.startWalk (s : State) (p n : Nat) (work : List (Nat × Nat)) : State :=
  let s := s.onPort p fun x =>
    { x with walk := some { work := work, items := [], n := n, ver := 0x13, limit := .none, last := .none } }
  (s.put (R.ENUM_STATUS_BUSY p) true).walkOn p

/-- Enumeration of a port starts: over the N known, else until no trained downstream; discarded while it runs. -/
def State.enumerate (s : State) (p : Nat) : State :=
  if s.on (R.ENUM_STATUS_BUSY p) then s
  else
    let n := s.rd (R.PORT_STATUS_NCELL p)
    s.startWalk p n (if n = 0 then [(0, 0)] else (upto (Nat.min n 96)).map fun i => (i, 0))

/-- A member that a head reports is visited next, in ascending index (R219, R220): below the ninth level it is
UNREACHABLE. -/
def memberPaths (path k : Nat) : List Nat :=
  let d := bitsOf path 0 4
  (upto k).map fun i => setBits (setBits path 0 4 (d + 1)) (3 * d + 4) 3 i

/-- The entry of a member: its own, else a free one that then shows an UNEXPECTED member. -/
def State.memberSlot (s : State) (handle path : Nat) : State × Option Nat :=
  match s.memberEntry handle path with
  | some e => (s, some e)
  | none =>
    let shown := (upto 1024).find? fun e => !s.on (R.MEMB_W2_EXPECT e) && s.rd (R.MEMB_W6_HEAD e) == handle &&
      s.rd (R.MEMB_W7_PATH e) == path && s.rd (R.MEMB_W3_VERDICT e) != 0
    let free := (upto 1024).find? fun e => !s.on (R.MEMB_W2_EXPECT e) && s.rd (R.MEMB_W3_VERDICT e) == 0
    match shown.or free with
    | some e => ((s.wr (R.MEMB_W6_HEAD e) handle).wr (R.MEMB_W7_PATH e) path, some e)
    | none => (s, none)

/-- A target gets its verdict (R220); one that is not OK raises source 50, one that is OK is accepted by OP 7h. -/
def State.verdictFor (s : State) (p pos path v uid ver compound : Nat) : State :=
  let ext := s.extAddr p pos path
  let s := if path = 0 then (s.reportPos p pos v uid ver compound).recount p
    else
      match s.memberSlot (s.handle p pos) path with
      | (s, some e) => s.reportMember e v uid ver compound
      | (s, none) => s.put (R.ENUM_STATUS_MEMBER_FULL p) true
  let s := s.when (v != Verdict.ok && v != Verdict.empty) fun s => s.raiseAt 50 0 0 (ext % 2 ^ 16)
  s.when (v == Verdict.ok) fun s => s.ask p [own (.accept pos path) (reqTo 7 pos path 1 (uid % 2 ^ 32))]

/-- All five items of a target have been read. -/
def State.judgeTarget (s : State) (p pos path : Nat) (items : List Nat) : State :=
  match (s.port p).walk with
  | none => s
  | some w =>
    let uid := items.getD 0 0 + 2 ^ 32 * items.getD 1 0
    let ver := items.getD 3 0
    let compound := items.getD 4 0
    let exp := if path = 0 then some (s.expected p pos)
      else (s.memberEntry (s.handle p pos) path).map fun e =>
        (s.rd (R.MEMB_W0_UID_LO e) + 2 ^ 32 * s.rd (R.MEMB_W1_UID_HI e), true, s.rd (R.MEMB_W2_EXP_PORT e))
    let old := (s.info p pos).compound
    let v := s.judge p exp uid ver
    let high := bitsOf ver 0 8
    let deep := bitsOf compound 13 1 = 1 ∨ bitsOf compound 15 1 = 1 ∨ bitOf ver 29 = false ∨ bitsOf path 0 4 = 9
    let kids := (memberPaths path (Nat.min 8 (bitsOf compound 8 4))).map fun q => (pos, q)
    let w' := { w with work := (if deep then [] else kids) ++ w.work,
                       ver := if path = 0 then Nat.min w.ver high else w.ver,
                       limit := if path = 0 ∧ high < w.ver then some pos else w.limit,
                       last := if path = 0 then some (Nat.max pos (w.last.getD 0)) else w.last }
    let s := s.onPort p fun x => { x with walk := some w' }
    let s := s.when (s.inService && path == 0 && old != compound) fun s => s.put (R.ENUM_STATUS_LAYOUT_CHG p) true
    let s := s.verdictFor p pos path v uid ver compound
    let s := if deep then s.forL kids fun k s => s.verdictFor p k.1 k.2 Verdict.unreachable 0 0 0 else s
    if path = 0 ∧ w.n = 0 then s.ask p [own (.below pos) (reqTo 1 pos 0 0x1000C 0)] else s.walkOn p

/-- A read of an identity item ends (R219): no response makes the target SILENT and skips its other items. -/
def State.itemDone (s : State) (p pos path : Nat) (r : Option (Nat × Nat)) : State :=
  match (s.port p).walk, r with
  | none, _ => s
  | some w, some (_, data) =>
    let items := w.items ++ [data]
    let s := s.onPort p fun x => { x with walk := some { w with items := items } }
    if items.length = 5 then s.judgeTarget p pos path items else s
  | some _, none =>
    let s := s.onPort p fun x => { x with own := x.own.filter fun o => match o.tag with
      | .item a b _ => !(a == pos && b == path)
      | _ => true }
    (s.verdictFor p pos path Verdict.silent 0 0 0).walkOn p

/-- LNK_STATUS of the last position read, in a walk without N: it goes on below a trained downstream (R215, R219). -/
def State.belowDone (s : State) (p pos : Nat) (r : Option (Nat × Nat)) : State :=
  match (s.port p).walk, r with
  | some w, some (_, data) =>
    if bitOf data 2 then
      if pos = 95 then (s.put (R.ENUM_STATUS_OVERLONG p) true).walkOn p
      else (s.onPort p fun x => { x with walk := some { w with work := w.work ++ [(pos + 1, 0)] } }).walkOn p
    else s.walkOn p
  | _, _ => s.walkOn p

/-- An ACCEPT ends (R218, R222, R223): a cell accepted in service joins; one accepted otherwise is settled here only after
a walk has ended, since the walk's end does it for its own. -/
def State.acceptDone (s : State) (p pos path : Nat) (r : Option (Nat × Nat)) : State :=
  match r with
  | some (0, _) =>
    if s.inService then s.startJoin p pos path
    else if (s.port p).walk.isNone || path != 0 then s.settleCell p pos path else s
  | _ => s

/-! ### Ends of the other own transactions -/

/-- A step of R38 failed for a cell: it counts as not available for this ENERGISE. -/
def State.prepDrop (s : State) (p cell : Nat) : State :=
  let s := s.onPort p fun x => { x with own := x.own.filter fun o => match o.tag with
    | .prep c _ _ => c != cell
    | _ => true }
  { s with sys := { s.sys with prep := s.sys.prep.map fun q => { q with dropped := q.dropped ++ [cell] } } }

/-- Whether a waiting transaction belongs to no joining of a cell. -/
def notJoining (cell : Nat) (o : Own) : Bool :=
  match o.tag with
  | .join c _ => c != cell
  | .imageFresh c _ => c != cell
  | .imageWrite c _ => c != cell
  | .replayRead c _ _ _ => c != cell
  | .replayWrite c => c != cell
  | _ => true

/-- A step of R223 failed: the sequence ends, and the cell waits for its retry. -/
def State.joinDrop (s : State) (p cell : Nat) : State :=
  let pos := bitsOf cell 0 7
  s.onPort p fun x => { x with own := x.own.filter (notJoining cell), joinFailed := x.joinFailed ++ [(pos, pathOf cell)] }

/-! ### Health images (R514, R515) -/

/-- The SRAM groups of the image are available. -/
def State.imageAvailable (s : State) : Bool := s.on R.HLT_CFG_IMG_EN && s.sramFits (s.rd R.IMG_BASE_BASE, 5632 * 256)

/-- The image functions stop: IMG_ERR. -/
def State.imageError (s : State) : State := s.when (s.on R.HLT_CFG_IMG_EN) fun s => s.put R.HLT_IMG_ST_IMG_ERR true

/-- Where the entry of a cell stands, and its UID as the report words show it. -/
def State.imageEntry (s : State) (p cell : Nat) : Option (Nat × Nat) :=
  let pos := bitsOf cell 0 7
  if pathOf cell = 0 then
    some (s.rd R.IMG_BASE_BASE + (96 * p + pos) * 256, s.rd (R.EXP_RPTLO_UID p pos) + 2 ^ 32 * s.rd (R.EXP_RPTHI_UID p pos))
  else (s.memberEntry (s.handle p pos) (pathOf cell)).map fun e =>
    (s.rd R.IMG_BASE_BASE + (4608 + e) * 256, s.rd (R.MEMB_RPTLO_UID e) + 2 ^ 32 * s.rd (R.MEMB_RPTHI_UID e))

/-- Transactions of a cell's image that wait are dropped, and the words read so far. -/
def State.imageDrop (s : State) (p cell : Nat) : State :=
  let s := s.onPort p fun x => { x with own := x.own.filter fun o => match o.tag with
    | .imageRead c _ => c != cell
    | .imageWrite c _ => c != cell
    | _ => true }
  { s with hlt := { s.hlt with image := mapErase s.hlt.image cell } }

/-- A request to the cell of an image. -/
def imageReq (op cell addr data : Nat) : MbReq := reqTo op (bitsOf cell 0 7) (pathOf cell) addr data

/-- A cell with FRESH = 0: its 51 words are read. -/
def State.imageSave (s : State) (p cell : Nat) : State :=
  s.askFirst p ((upto 51).map fun i => own (.imageRead cell (0x80100 + 4 * i)) (imageReq 1 cell (0x80100 + 4 * i) 0))

/-- A word of a cell's image has been read; with the last the entry is rewritten. -/
def State.keepImage (s : State) (p cell word d : Nat) : State :=
  let ws := mapGet (fun _ => []) s.hlt.image cell ++ [d]
  if word ≠ 0x801C8 then { s with hlt := { s.hlt with image := mapSet (fun _ => []) s.hlt.image cell ws } }
  else
    let s := { s with hlt := { s.hlt with image := mapErase s.hlt.image cell } }
    if !s.imageAvailable then s.imageError
    else
      match s.imageEntry p cell with
      | none => s
      | some (a, uid) =>
        let b := fitTo 252 (bytesLE 8 uid ++ (ws.map (bytesLE 4)).flatten)
        s.storeBytes a (b ++ bytesLE 4 (crc32c b))

/-- A cell with FRESH = 1 after its ACCEPT: the words of its entry go back and LOADED follows, if the CRC and the UID of
the entry are right; else the restore is skipped. -/
def State.imageRestore (s : State) (p cell : Nat) : State :=
  if !s.imageAvailable then s.imageError
  else
    let skip := s.inc R.HLT_IMG_ST_RESTORE_SKIP
    match s.imageEntry p cell with
    | none => skip
    | some (a, uid) =>
      let b := s.loadBytes a 256
      if crc32c (b.take 252) ≠ leAt b 252 4 ∨ leAt b 0 8 ≠ uid then skip
      else s.askFirst p (((upto 51).map fun i => own (.imageWrite cell false) (imageReq 2 cell (0x80100 + 4 * i) (leAt b (8 + 4 * i) 4))) ++
        [own (.imageWrite cell true) (imageReq 2 cell 0x800C0 2)])

/-- The calibration step of a cell has ended: it is polled no more (R537). -/
def State.calPolled (s : State) (cell : Nat) : State :=
  { s with od := { s.od with calDue := s.od.calDue.filter (· != cell) } }

/-- An entry enters the replay list: one with the same scope, address and mask is replaced in place, and one for all cells
removes those of single cells (R536). -/
def replayPut (e : Replay) (l : List Replay) : List Replay :=
  let same := fun (r : Replay) => r.scope == e.scope && r.addr == e.addr && r.mask == e.mask
  let l := if e.scope = allCells then l.filter fun r => r.scope == allCells || r.addr != e.addr || r.mask != e.mask else l
  if l.any same then l.map fun r => if same r then e else r else l ++ [e]

/-- The replay list with its count in OD_REPLAY. -/
def State.setReplay (s : State) (l : List Replay) : State :=
  { s with od := { s.od with replay := l } }.wr R.OD_REPLAY_USED l.length

/-- The calibration word of a channel of a cell enters the replay list, while it has a place (R537). -/
def State.keepCal (s : State) (cell ch d : Nat) : State :=
  let l := replayPut { scope := cell, addr := (K.CAL_OFF ch).addr, mask := 2 ^ 32 - 1, value := d } s.od.replay
  if 4096 < l.length then s.put R.OD_REPLAY_FULL_REF true else s.setReplay l

/-- The mailbox result or time-out of an object access as an abort code (R531, R534). -/
def mailAbort : Option (Nat × Nat) → Nat
  | some (0, _) => 0
  | some (1, _) | some (5, _) => 0x06090011
  | some (2, _) => 0x08000022
  | some (3, _) => 0x06090030
  | some _ => 0x08000020
  | none => 0x05040000

/-- An answer for an object job. -/
def State.answerJob (s : State) (job abort word : Nat) : State :=
  { s with od := { s.od with answers := s.od.answers ++ [(job, abort, word)] } }

/-- The word that a write of some fields leaves of a KS210 register as it was read. -/
def mergeCell (addr old mask value : Nat) : Nat :=
  match cellRow addr with
  | some r => r.masked old mask value
  | none => value &&& mask

/-- A mailbox step of an object job has ended (R534). -/
def State.objectStep (s : State) (p : Nat) (req : MbReq) (job stage addr mask value : Nat) (r : Option (Nat × Nat)) : State :=
  match stage, r with
  | 1, some (0, d) =>
    s.askFirst p [own (.object job 2 addr mask value) { req with op := 2, addr := addr, data := mergeCell addr d mask value }]
  | _, r => s.answerJob job (mailAbort r) ((r.map Prod.snd).getD 0)

/-- A replay step has ended (R536): what the cell refuses is counted and skipped. -/
def State.replayStep (s : State) (p cell : Nat) (next : List Own) (r : Option (Nat × Nat)) : State :=
  match r with
  | some (0, _) => s.askFirst p next
  | some _ => s.inc R.OD_REPLAY_REPLAY_ERR
  | none => s.when s.inService fun s => s.joinDrop p cell

/-- A broadcast of ALIGN waits or is out on some port (R148). -/
def State.aligning (s : State) : Bool :=
  (upto 48).any fun p => (s.port p).own.any (fun o => o.tag == .align) ||
    match (s.port p).txn with
    | some t => t.tag == .align
    | none => false

/-- An own transaction with its request has ended: `some (result, data)` with its response, `none` on TIMEOUT. -/
def State.finish (s : State) (p : Nat) (t : Tag) (req : MbReq) (r : Option (Nat × Nat)) : State :=
  match t with
  | .soft | .partner | .plain | .prepAll => s
  | .align => s.when (s.sys.pend.isNone && !s.aligning) fun s => s.put R.DEV_STATE_BUSY false
  | .item pos path _ => s.itemDone p pos path r
  | .below pos => s.belowDone p pos r
  | .accept pos path => s.acceptDone p pos path r
  | .seg pos =>
    match r with
    | some (0, d) => s.onPort p fun x => { x with info := mapUpd (fun _ => CellInfo.none) x.info pos fun i => { i with seg := d % 2 ^ 24 } }
    | _ => s
  | .fwd pos =>
    match r with
    | some (0, d) => s.onPort p fun x => { x with info := mapUpd (fun _ => CellInfo.none) x.info pos fun i =>
        { i with fwdPq := d % 65536, fwdQp := d / 65536 } }
    | _ => s
  | .prep cell want _ =>
    match r with
    | some (0, d) => if want = none ∨ want = some d then s else s.prepDrop p cell
    | _ => s.prepDrop p cell
  | .join cell _ =>
    match r with
    | some (0, _) => s
    | _ => s.joinDrop p cell
  | .imageFresh cell save =>
    match r with
    | some (0, d) =>
      if save then (if bitOf d 0 then s else s.imageSave p cell) else if bitOf d 0 then s.imageRestore p cell else s
    | _ => s
  | .imageRead cell word =>
    match r with
    | some (0, d) => s.keepImage p cell word d
    | _ => s.imageDrop p cell
  | .imageWrite cell last =>
    match r with
    | some (0, _) => s.when last fun s => s.inc R.HLT_IMG_ST_RESTORED
    | _ => s.imageDrop p cell
  | .calPoll cell =>
    match r with
    | some (0, d) =>
      if bitOf d 0 then s
      else
        let s := s.calPolled cell
        if bitOf d 2 && !bitOf d 3 then
          s.askFirst p [own (.calRead cell (bitsOf d 8 4)) { req with op := 1, addr := (K.CAL_OFF (bitsOf d 8 4)).addr }]
        else s
    | _ => s
  | .calRead cell ch =>
    match r with
    | some (0, d) => s.keepCal cell ch d
    | _ => s
  | .object job stage addr mask value => s.objectStep p req job stage addr mask value r
  | .replayRead cell addr mask value =>
    s.replayStep p cell (match r with
      | some (_, d) => [own (.replayWrite cell) { req with op := 2, addr := addr, data := mergeCell addr d mask value }]
      | none => []) r
  | .replayWrite cell => s.replayStep p cell [] r

/-- A transaction closes: MB_STATUS and MB_RDATA show it, its end acts, and the next one starts (R209, R211). -/
def State.closeTxn (s : State) (p : Nat) (r : Option (Nat × Nat)) (sent : Bool) : State :=
  match (s.port p).txn with
  | none => s
  | some t =>
    let s := s.onPort p fun x => { x with txn := .none }
    let s := s.put (R.MB_STATUS_BUSY p) false
    let s := match r with
      | some (res, data) =>
        ((s.put (R.MB_STATUS_DONE p) true).wr (R.MB_STATUS_RESULT p) res).when (!sent) fun s => s.wr (R.MB_RDATA_RDATA p) data
      | none => s.put (R.MB_STATUS_TIMEOUT p) true
    (s.finish p t.tag t.req r).nextOwn p

end Sys2Proof.Machine
end

