-- ==== Sys2Proof/Machine/Ports.lean ====
section
/-! DEFINITION. What happens at the strand ports of the KC8400: block lock and training (R184 to R187, R215, R219, R222),
delay measurement (R360, R361), the launches (R190, R191), the collection frames (R203, R426, R511, R512), and the mailbox
and enumeration commands (R211 to R213, R219, R221, R223). -/

namespace Sys2Proof.Machine

/-! ### Views of cells -/

def viewDefault (_ : Nat) : View := View.reset

/-- The key of a cell within the unit: strand port × 128 + position. -/
def cellKey (p pos : Nat) : Nat := p * 128 + pos

def State.view (s : State) (k : Nat) : View := mapGet viewDefault s.lvl.views k

def State.onView (s : State) (k : Nat) (f : View → View) : State :=
  { s with lvl := { s.lvl with views := mapUpd viewDefault s.lvl.views k f } }

/-! ### Block lock, delay measurement -/

/-- The loopback of a strand lane failed in the self-test. -/
def State.laneFailed (s : State) (p : Nat) : Bool :=
  if p < 32 then s.bit R.ST_LANE_LO_STRAND_LO p else s.bit R.ST_LANE_HI_STRAND_HI (p - 32)

/-- Ports train and carry frames: not in RESET, SELF-TEST and LOCKED, only with EN = 1, and not after a failed loopback
(R42, R49, R213). -/
def State.portLive (s : State) (p : Nat) : Bool :=
  s.on (R.PORT_CFG_EN p) && !s.laneFailed p && s.st != St.reset && s.st != St.selfTest && s.st != St.locked

/-- The unit launches strand frames from its heads: SOLO or ACTIVE, or in the period in which it yielded (R301). -/
def State.launching (s : State) : Bool := s.role == Role.solo || s.role == Role.active || s.tie.lastPeriod

def dlyDefault (_ : Nat) : Dly := { out := none, done := 0, sum := 0, answer := none }

/-- A number for each link end. -/
def linkKey : LinkEnd → Nat
  | .strand p => p
  | .tie l => 64 + l
  | .accord a => 72 + a
  | .cell id p => 128 + 4 * id.toNat + p

def State.dlyAt (s : State) (e : LinkEnd) : Dly := mapGet dlyDefault s.dly (linkKey e)

def State.onDly (s : State) (e : LinkEnd) (f : Dly → Dly) : State :=
  { s with dly := mapUpd dlyDefault s.dly (linkKey e) f }

/-- An ordered set leaves a link end (R185). -/
def State.sendSet (s : State) (e : LinkEnd) (d1 d2 : Nat) : State :=
  match e with
  | .strand p => s.send (.orderedSet p d1 d2 d2)
  | .tie l => s.send (.tieSet l d1 d2 d2)
  | .accord a => s.send (.accordSet a d1 d2 d2)
  | .cell id p => s.send (.cellSet id.toNat p d1 d2 d2)

/-- The measurement of a link starts: 16 exchanges, the first under number 0 (R360). -/
def State.startDly (s : State) (e : LinkEnd) : State :=
  (s.onDly e fun d => { d with out := some 0, done := 0, sum := 0 }).sendSet e 3 0

/-- T_TURN in units of 10 ps. -/
def turnTime : LinkEnd → Nat
  | .strand _ | .cell _ _ => 10240
  | .tie _ | .accord _ => 4096

/-- An errored block at a link end (R182, R185, R360). -/
def State.erroredBlock (s : State) (e : LinkEnd) : State :=
  match e with
  | .strand p => s.inc (R.ERR_C_BLK_ERR p)
  | .cell id _ => s.onCell id.toNat fun c => c.inc K.LNK_ERR2_BLK_ERR
  | .tie l => s.inc (R.TIE_LANE_BLK_ERR l)
  | .accord a => s.inc (R.ACD_PORTERR_BLK_ERR a)

/-- A strand found longer than the budget at a re-training in service stays out of service (R26). -/
def State.checkOver (s : State) (p : Nat) : State :=
  if s.inService && decide (p < 48) then
    let long := decide (s.crd R.PERIOD_CFG_DS < s.dStrand p)
    let s := s.onPort p fun x => { x with out := long }
    if long then (s.put R.FIT_STATUS_STRAND_OVER true).causePresent 39
    else s.causeIs 39 ((upto 48).any fun q => (s.port q).out)
  else s

/-- WIRING and LONG keep source 79 live (R328, R329). -/
def State.accordLinkCause (s : State) : State :=
  s.causeIs 79 (s.on R.ACD_STATUS_WIRING || (upto 4).any fun k => s.on (R.ACD_PORTST_LONG k))

/-- The result of a measurement goes to its register (R292, R329, R360, R361), in units of 10 ps. -/
def State.dlyResult (s : State) (e : LinkEnd) (d : Nat) : State :=
  match e with
  | .strand p => (s.wr (R.STR_DLY_D_HEAD p) d).checkOver p
  | .cell id _ => s.onCell id.toNat fun c => c.wr K.TM_SEG d
  | .tie _ => s.wr R.TIE_DELAY_T_TIE (rneDiv d 10)
  | .accord a => ((s.wr (R.ACD_PORTST_DELAY a) (rneDiv d 10)).put (R.ACD_PORTST_LONG a) (decide (10000 < d))).accordLinkCause

def execDlyReq (link : LinkEnd) (d2 d3 : BitVec 8) (s : State) : Out :=
  .next (if d2 = d3 then s.onDly link fun d => { d with answer := some d2.toNat } else s.erroredBlock link)

def execDlyRspSend (link : LinkEnd) (s : State) : Out :=
  .next (match (s.dlyAt link).answer with
    | some n => (s.onDly link fun d => { d with answer := none }).sendSet link 4 n
    | none => s)

/-- A response counts where its number is the one out; the sixteenth gives the average (R360). -/
def State.dlyRsp (s : State) (e : LinkEnd) (n rtt : Nat) : State :=
  let d := s.dlyAt e
  if d.out = some n then
    let sum := d.sum + rtt
    if d.done + 1 < 16 then
      (s.onDly e fun d => { d with out := some ((n + 1) % 256), done := d.done + 1, sum := sum }).sendSet e 3 ((n + 1) % 256)
    else
      (s.onDly e fun d => { d with out := none, done := 0, sum := 0 }).dlyResult e (rneDiv (sum - 16 * turnTime e) 32)
  else s

def execDlyRsp (link : LinkEnd) (d2 d3 : BitVec 8) (rtt : BitVec 40) (s : State) : Out :=
  .next (if d2 = d3 then s.dlyRsp link d2.toNat rtt.toNat else s.erroredBlock link)

/-! ### Lock and training -/

/-- Some port reports TRAIN_FAIL: the live cause of source 67. -/
def State.trainFailCause (s : State) : State := s.causeIs 67 ((upto 48).any fun p => s.on (R.PORT_STATUS_TRAIN_FAIL p))

def execBlockLock (link : LinkEnd) (s : State) : Out :=
  .next (match link with
    | .strand p => s.when (s.portLive p) fun s => s.put (R.PORT_STATUS_LOCK p) true
    | .cell id p => s.onCell id.toNat fun c => if c.mode = Mode.reset ∨ c.mode = Mode.selfTest then c else c.gainLock p
    | _ => s)

/-- A strand port loses lock: the segment is no longer trained, and source 66 has an event (R184, R213, R421). -/
def State.portLost (s : State) (p : Nat) : State :=
  if s.on (R.PORT_STATUS_LOCK p) then
    (((s.put (R.PORT_STATUS_LOCK p) false).put (R.PORT_STATUS_TRAINED p) false).inc (R.ERR_C_LOCK_LOSS p)).raise 66
  else s

/-- The walk of a port that is BUSY restarts at the lowest position beyond a segment that re-trained (R222). -/
def State.restartWalk (s : State) (p from' : Nat) : State :=
  match (s.port p).walk with
  | none => s
  | some w =>
    let ahead := if w.n = 0 then [(from', 0)] else ((upto (Nat.min w.n 96)).filter fun i => decide (from' ≤ i)).map fun i => (i, 0)
    let x := s.port p
    let keep := x.own.filter fun o => match o.tag with
      | .item _ _ _ => false
      | .below _ => false
      | _ => true
    let open' := match x.txn with
      | some t => (match t.tag with
        | .item _ _ _ => none
        | .below _ => none
        | _ => some t)
      | none => none
    let s := s.setPort p { x with walk := some { w with work := ahead, items := [] }, own := keep, txn := open' }
    (s.put (R.MB_STATUS_BUSY p) open'.isSome).walkOn p

/-- The targets of R222: every position and member whose status slot has been missing since the last good one. -/
def State.missingTargets (s : State) (p : Nat) : List (Nat × Nat) :=
  let n := s.ncell p
  (((upto n).filter fun i => (s.view (cellKey p i)).missed != 0).map fun i =>
    (i, 0) :: ((upto 1024).filter fun e => s.on (R.MEMB_W2_EXPECT e) && s.rd (R.MEMB_W6_HEAD e) == s.handle p i).map fun e =>
      (i, s.rd (R.MEMB_W7_PATH e))).flatten

/-- A segment of a strand has trained, the lowest position beyond it being `from'` (R219, R222). -/
def State.segmentUp (s : State) (p from' : Nat) (head : Bool) : State :=
  if !s.launching then s
  else if s.on (R.ENUM_STATUS_BUSY p) then s.restartWalk p from'
  else if s.inService then
    match s.missingTargets p with
    | [] => s
    | ts => s.startWalk p (s.ncell p) ts
  else s.when (head && s.on (R.ENUM_CTRL_AUTO p)) fun s => s.enumerate p

/-- A strand port has trained (R186, R187, R215): a head takes the version the first cell states, a tail learns N. -/
def State.portTrained (s : State) (p d2 d3 : Nat) : State :=
  let head := s.launching
  let s := ((s.put (R.PORT_STATUS_LOCK p) true).put (R.PORT_STATUS_TRAINED p) true).put (R.PORT_STATUS_TRAIN_FAIL p) false
  let s := (s.wr (R.PORT_STATUS_END p) (if head then 1 else 2)).trainFailCause
  let s := s.when (decide (0x60 ≤ d3 ∧ d3 < 0x80) || decide (0xE0 ≤ d3)) fun s => s.put (R.ENUM_STATUS_OVERLONG p) true
  if head then
    ((s.onPort p fun x => { x with ver0 := Nat.min 0x13 d2 }).startDly (.strand (Fin.ofNat 48 p))).segmentUp p 0 true
  else s.when (decide (0 < d3 ∧ d3 ≤ 96)) fun s => s.wr (R.PORT_STATUS_NCELL p) d3

/-- The port that a position's cell belongs to, for a cell of this unit outside sub-strands. -/
def cellPort (id : Nat) : Option Nat := if id < 2 ^ 13 ∧ bitsOf id 7 6 < 48 then some (bitsOf id 7 6) else none

def execSegmentTrained (link : LinkEnd) (d2 d3 members : BitVec 8) (prop : BitVec 16) (s : State) : Out :=
  .next (match link with
    | .strand p => s.when (s.portLive p) fun s => (s.portTrained p d2.toNat d3.toNat).checkOver p
    | .cell id p =>
      let s := s.onCell id.toNat fun c => c.segment s.now p d2.toNat members.toNat prop.toNat
      let c := s.cell id.toNat
      if bitOf c.lk.trained p then
        let down := c.lk.up != some p.val
        let s := s.when down fun s => s.startDly link
        match cellPort id.toNat with
        | some q => s.when (p.val < 2) fun s => s.segmentUp q (c.pos + if down then 1 else 0) false
        | none => s
      else s
    | _ => s)

def execTrainFail (port : Fin 48) (s : State) : Out :=
  .next (s.when (s.portLive port && !s.on (R.PORT_STATUS_TRAINED port)) fun s =>
    (s.put (R.PORT_STATUS_TRAIN_FAIL port) true).trainFailCause)

/-! ### Launches -/

/-- A head port that may launch a frame now. -/
def State.mayLaunch (s : State) (p : Nat) : Bool :=
  s.launching && s.portLive p && !s.sys.quiet && s.on (R.PORT_STATUS_TRAINED p) && s.rd (R.PORT_STATUS_END p) == 1 &&
    !(s.port p).out

/-- The entry of a frame type leaves the front of the launch queue (R191): launched where its instant has not passed, else
dropped and counted. -/
def State.launch (s : State) (p type : Nat) (go : State → State) : State :=
  match (s.port p).queue with
  | (t, at') :: rest =>
    if t = type then
      let s := s.onPort p fun x => { x with queue := rest }
      if s.sys.t0 + 10 * at' < s.now then (s.inc (R.ERR_C_LATE p)).raise 68
      else if s.mayLaunch p then go s else s
    else s
  | [] => s

/-- A broadcast, or the RESET of one cell, closes once its frame has launched (R209); those of R38 go out in two
consecutive periods. -/
def Txn.closesAtLaunch (t : Txn) : Bool := t.req.bc || (t.req.op == 4 && t.req.addr == 1)

/-- The command frame leaves, with the mailbox request that is ready (R191, R204, R211). -/
def State.launchCommand (s : State) (p : Nat) : State :=
  let s := { s with lvl := { s.lvl with sentBlock := s.headerBlock 1 }, sys := { s.sys with sentEpoch := s.sys.epoch } }
  match (s.port p).txn with
  | some t =>
    if t.ready && (s.role == Role.solo || s.role == Role.active) then
      let s := s.send (.frame p (s.commandFrame p (reqBytes t.req)))
      let again := t.tag == .prepAll && decide (t.tries = 0)
      let depth := if t.req.op = 5 then 0 else bitsOf t.req.path 0 4
      let t := { t with ready := again, tries := t.tries + 1, due := s.sys.period + 2 + 2 * depth }
      let s := (s.onPort p fun x => { x with txn := some t }).wr (R.MB_STATUS_TRIES p) (Nat.min 15 t.tries)
      if t.closesAtLaunch && !again then (s.wr (R.MB_STATUS_TRIES p) 1).closeTxn p (some (0, 0)) true else s
    else s.send (.frame p (s.commandFrame p (List.replicate 16 0#8)))
  | none => s.send (.frame p (s.commandFrame p (List.replicate 16 0#8)))

/-! ### Collection frames -/

/-- t_CA of the layout in force, in ns after t0 (R16, R30). -/
def State.tCa (s : State) : Nat := if s.sys.committed then s.crd R.LAYOUT_0_T_CA * 10 else 45000

/-- CELL_HP as it follows item 6 of a cell (R512). -/
def State.healthPenalty (s : State) (arm val : Nat) : Nat :=
  let x := fMul (s.rd (R.HP_G arm)) (fRatio false val 65536 0)
  if f32Finite x then (min 0xFFFF (fFloorInt x)).toNat else 0xFFFF

/-- A good status slot of a cell (R41, R426, R511, R512): the first of a period counts. -/
def State.takeSlot (s : State) (p pos : Nat) (slot : List Byte) : State :=
  if (s.port p).good.contains pos then s
  else
    let k := cellKey p pos
    let v := s.view k
    let cls := bitsOf (byteAt slot 8) 0 3
    let aux := byteAt slot 11
    let val := leAt slot 12 2
    let items := if aux = 0xFF then v.items else mapSet (fun _ => 0x10000) v.items aux val
    let arm := s.portArm p
    let hp := if arm ≤ 5 ∧ s.on (R.HARM_CFG_HP_MODE arm) ∧ aux = 6 then s.healthPenalty arm val
      else v.hp
    let v' := { v with cls := cls, src := bitsOf (byteAt slot 8) 3 5, trip := bitsOf (byteAt slot 9) 0 4,
                       gflt := bitOf (byteAt slot 9) 4, bypf := bitOf (byteAt slot 9) 5,
                       rises := if v.cls < cls then satAdd 16 v.rises 1 else v.rises,
                       items := items, slot := slot, epochOk := decide (byteAt slot 1 = s.sys.echoEpoch % 256), hp := hp }
    let s := (s.onView k fun _ => v').onPort p fun x => { x with good := x.good ++ [pos] }
    s.when (decide (v.cls < cls ∧ cls ≤ 5)) fun s => s.raiseAt (44 + cls) 5 0 (s.handle p pos)

/-- A bad or stomped slot is asked of the partner at once (R297). -/
def State.slotRequest (s : State) (p pos : Nat) : State :=
  s.sendTie 3 p (BitVec.ofNat 8 pos :: List.replicate 7 0xFF#8)

/-- The slots of one position in a collection frame. -/
def State.takePosition (s : State) (p pos : Nat) (f : List Byte) (off : Nat) : State :=
  let s := match slotState pos f off 16 with
    | .good => s.takeSlot p pos ((f.drop off).take 14)
    | .stomped => (s.inc (R.ERR_B_SLOT_STOMP p)).slotRequest p pos
    | .bad =>
      if f.length < off + 16 then s
      else
        let s := { s with lvl := { s.lvl with slotBad := true } }
        (s.inc (R.ERR_B_SLOT_CRC p)).slotRequest p pos
  if s.sillage p pos then
    match slotState pos f (off + 16) 8 with
    | .good => s.onView (cellKey p pos) fun v => { v with sil := (f.drop (off + 16)).take 6 }
    | _ => s.onView (cellKey p pos) fun v => { v with sil := [] }
  else s

/-- A mailbox response that a collection frame carries: one of this unit's own is kept for its match, the partner's goes
over the tie link (R211, R315). -/
def State.takeResponse (s : State) (p : Nat) (mb : List Byte) : State :=
  let mine := bitOf (byteAt mb 14) 0 == s.on R.TIE_STATUS_PAIR_ID
  if bitsOf (byteAt mb 0) 0 4 = 0 then s
  else if mine then s.onPort p fun x => { x with rsp := some mb }
  else (s.when s.launching fun s => s.onPort p fun x => { x with rsp := some mb }).sendTie 0x0A p (mb.take 16)

/-- A collection frame at a strand end, read in the layout of the low or the high side (R20, R203, R211, R307). -/
def State.collectionAt (s : State) (p : Nat) (f : List Byte) (low : Bool) : State :=
  let good := Hdr.crc f == .good
  let s := s.when (!good) fun s =>
    let s := { s with lvl := { s.lvl with slotBad := true } }
    s.inc (R.ERR_A_HDR_CRC p)
  let n := s.ncell p
  let late := decide (s.sys.t0 + s.tCa < s.now)
  let s := if late then s
    else
      let s := s.forN n fun pos s => s.takePosition p pos f (if low then s.cupOff p pos else s.cdnOff p pos n)
      s.when (decide (s.fCol p ≤ f.length)) fun s => s.onPort p fun x => { x with gotFrame := true }
  s.when good fun s => s.takeResponse p ((f.drop 12).take 20)

/-- A collection frame received at a strand port: at a head the upstream one, at a tail the downstream one. -/
def State.collectionReceived (s : State) (p : Nat) (f : List Byte) : State :=
  let head := s.rd (R.PORT_STATUS_END p) == 1
  if !s.on (R.PORT_STATUS_TRAINED p) || Hdr.type f != (if head then 3 else 2) then s else s.collectionAt p f head

def execCollectionFrameReceived (port : Fin 48) (frame : List Byte) (s : State) : Out :=
  .next (s.collectionReceived port frame)

/-! ### Mailbox and enumeration commands -/

/-- A response that has arrived is matched with the open transaction (R211); one that does not match is dropped. -/
def State.mbResponse (s : State) (p : Nat) : State :=
  match (s.port p).rsp with
  | none => s
  | some b =>
    let s := s.onPort p fun x => { x with rsp := none }
    match (s.port p).txn with
    | none => s
    | some t =>
      let r := mbReqOf (List.replicate 12 0#8 ++ b)
      if r.op = t.req.op ∧ r.seq = t.req.seq ∧ r.pos = t.req.pos ∧ r.orig = t.req.orig ∧ (0 < t.tries ∨ !s.launching) then
        s.closeTxn p (some (byteAt b 15, leAt b 10 4)) false
      else s

/-- MB_TO periods after the expected period have passed without a response (R211). -/
def State.mbTimeout (s : State) (p : Nat) : State :=
  match (s.port p).txn with
  | none => s
  | some t =>
    if t.ready || s.sys.period < t.due + s.rd (R.PORT_CFG_MB_TO p) then s
    else if t.tries ≤ s.rd (R.PORT_CFG_MB_RETRY p) then s.onPort p fun x => { x with txn := some { t with ready := true } }
    else s.closeTxn p none false

/-- A write of ERR_CLR (R213). -/
def State.errClr (s : State) (p : Nat) : State :=
  ((s.setWord (R.ERR_A_HDR_CRC p).addr 0).setWord (R.ERR_B_SLOT_CRC p).addr 0).setWord (R.ERR_C_BLK_ERR p).addr 0

/-- A position or member is accepted whose verdict allows it (R221): its reported UID becomes the expected one. -/
def State.acceptPos (s : State) (p pos : Nat) : State :=
  let lo := s.rd (R.EXP_RPTLO_UID p pos)
  let s := (s.wr (R.EXP_W0_UID_LO p pos) lo).wr (R.EXP_W1_UID_HI p pos) (s.rd (R.EXP_RPTHI_UID p pos))
  let s := ((s.put (R.EXP_W2_EXPECT p pos) true).wr (R.EXP_W3_VERDICT p pos) Verdict.ok).recount p
  s.ask p [own (.accept pos 0) (reqTo 7 pos 0 1 lo)]

def State.acceptMember (s : State) (p e : Nat) : State :=
  let lo := s.rd (R.MEMB_RPTLO_UID e)
  let s := (s.wr (R.MEMB_W0_UID_LO e) lo).wr (R.MEMB_W1_UID_HI e) (s.rd (R.MEMB_RPTHI_UID e))
  let s := (s.put (R.MEMB_W2_EXPECT e) true).wr (R.MEMB_W3_VERDICT e) Verdict.ok
  let pos := bitsOf (s.rd (R.MEMB_W6_HEAD e)) 0 7
  let path := s.rd (R.MEMB_W7_PATH e)
  s.ask p [own (.accept pos path) (reqTo 7 pos path 1 lo)]

/-- FOREIGN and UNEXPECTED are the verdicts that an ACCEPT may overrule. -/
def acceptable (v : Nat) : Bool := v == Verdict.foreign || v == Verdict.unexpected

/-- ENUM_CTRL.ACCEPT with the target that the written word names (R221); the flag tells whether it is refused. -/
def State.enumAccept (s : State) (p v : Nat) : State × Bool :=
  let pos := bitsOf v 8 7
  let idx := bitsOf v 16 10
  let refused := (s.put (R.ENUM_STATUS_REFUSED p) true, true)
  if !s.writable || s.on (R.ENUM_STATUS_BUSY p) then refused
  else if bitOf v 3 then
    let s := s.forN 96 fun i s => s.when (acceptable (s.rd (R.EXP_W3_VERDICT p i))) fun s => s.acceptPos p i
    (s.forN 1024 fun e s => s.when (acceptable (s.rd (R.MEMB_W3_VERDICT e)) && bitsOf (s.rd (R.MEMB_W6_HEAD e)) 7 6 == p) fun s =>
      s.acceptMember p e, false)
  else if bitOf v 4 then
    if acceptable (s.rd (R.MEMB_W3_VERDICT idx)) then (s.acceptMember p idx, false) else refused
  else if acceptable (s.rd (R.EXP_W3_VERDICT p pos)) then (s.acceptPos p pos, false) else refused

/-- One second after a joining failed it starts again (R223). -/
def execCellJoinRetry (cell : BitVec 64) (s : State) : Out :=
  let id := cell.toNat
  let p := bitsOf id 7 6
  .next (s.when (s.inService && (s.port p).joinFailed.contains (bitsOf id 0 7, pathOf id)) fun s =>
    s.startJoin p (bitsOf id 0 7) (pathOf id))

end Sys2Proof.Machine
end

