-- ==== Sys2Proof/Machine/Control.lean ====
section
/-! DEFINITION. The control engine (R60 to R91) with its set-points, competition groups, repetitive tables and feedback
monitors (R92 to R119). -/

namespace Sys2Proof.Machine

/-! ### Configuration as read -/

/-- A way to read fields: as written, or as committed. -/
abbrev Cfg := Fld → Nat

def ctxOn (c : Cfg) (i : Nat) : Bool := c (R.DESC_CTRL_EN i) == 1
def ctxN (c : Cfg) (i : Nat) : Nat := c (R.DESC_DIM_N_STATE i)
def ctxM (c : Cfg) (i : Nat) : Nat := c (R.DESC_DIM_N_MEAS i)
def ctxP (c : Cfg) (i : Nat) : Nat := c (R.DESC_DIM_N_OUT i)
def ctxQ (c : Cfg) (i : Nat) : Nat := c (R.DESC_DIM_N_REF i)

/-- M and c_i of R23. -/
def ctxMacs (c : Cfg) (i : Nat) : Nat :=
  let n := ctxN c i
  n * n + 2 * n * ctxM c i + 2 * n * ctxP c i + ctxP c i * ctxQ c i

def ctxCost (c : Cfg) (i : Nat) : Nat := ceilDiv (ctxMacs c i) 128 + 3

def groupOf (c : Cfg) (i : Nat) : Option Nat :=
  if ctxOn c i ∧ c (R.DESC_CTRL_GROUP_EN i) = 1 then some (c (R.DESC_CTRL_GROUP i)) else none

/-- The bindings that a context uses: measurements, references, feed-forward elements (R73, R89). -/
def usedBinds (c : Cfg) (i : Nat) : List Nat :=
  upto (ctxM c i) ++ (upto (ctxQ c i)).map (· + 16) ++ (upto (ctxP c i)).map (· + 24)

def enabledCtx (c : Cfg) : List Nat := (upto 256).filter (ctxOn c)

/-- Enabled members of a group, ascending (R99). -/
def members (c : Cfg) (g : Nat) : List Nat := (enabledCtx c).filter fun i => groupOf c i == some g

/-- The contexts that make one node with `i` (R74). -/
def nodeOf (c : Cfg) (i : Nat) : List Nat :=
  match groupOf c i with
  | some g => members c g
  | none => [i]

/-- Same-period producers of a context. -/
def producers (c : Cfg) (i : Nat) : List Nat :=
  ((usedBinds c i).filter fun e => c (R.BIND_KIND i e) == 4).map fun e => c (R.BIND_INDEX i e) / 8

/-- Each enabled context with the producers of its node outside it. -/
def depsOf (c : Cfg) : List (Nat × List Nat) :=
  (enabledCtx c).map fun i =>
    let node := nodeOf c i
    (i, ((node.map (producers c)).flatten).filter fun k => !node.contains k)

def depthIn (d : List (Nat × Nat)) (i : Nat) : Nat := ((d.find? fun e => e.1 == i).map Prod.snd).getD 0

def relaxDepth (deps : List (Nat × List Nat)) (d : List (Nat × Nat)) : List (Nat × Nat) :=
  deps.map fun e => (e.1, 1 + maxOf (e.2.map (depthIn d)))

def iterDepth (deps : List (Nat × List Nat)) : Nat → List (Nat × Nat) → List (Nat × Nat)
  | 0, d => d
  | k + 1, d => iterDepth deps k (relaxDepth deps d)

/-- Depths of the enabled contexts (R74). -/
def depthsOf (c : Cfg) : List (Nat × Nat) :=
  let deps := depsOf c
  iterDepth deps deps.length (deps.map fun e => (e.1, 1))

/-- The same-period links close a cycle (R77). -/
def hasCycle (c : Cfg) : Bool :=
  let deps := depsOf c
  let d := iterDepth deps deps.length (deps.map fun e => (e.1, 1))
  relaxDepth deps d != d

/-- d of R23 and R74. -/
def chainDepth (c : Cfg) : Nat := maxOf ((depthsOf c).map Prod.snd)

/-- C_CE of R23. -/
def engineDemand (c : Cfg) : Nat := sumOf ((enabledCtx c).map (ctxCost c)) + 60 + 24 * (chainDepth c - 1)

/-- The order of R75. -/
def orderOf (c : Cfg) : List Nat :=
  let d := depthsOf c
  sortBy (fun i => depthIn d i * 2 ^ 20 + (nodeOf c i).headD i * 2 ^ 10 + i) (enabledCtx c)

/-! ### Contexts and coefficients -/

def ctxDefault (_ : Nat) : Ctx := Ctx.reset

def State.ctxAt (s : State) (i : Nat) : Ctx := mapGet ctxDefault s.ctl.ctx i

def State.onCtx (s : State) (i : Nat) (f : Ctx → Ctx) : State :=
  { s with ctl := { s.ctl with ctx := mapUpd ctxDefault s.ctl.ctx i f } }

/-- What a coefficient word holds after SELF-TEST (R82). -/
def coefDefault (k : Nat) : Word :=
  let w := k % 2048
  if 1360 ≤ w ∧ w < 1376 then 0x7F800000#32
  else if 1376 ≤ w ∧ w < 1384 then 0xFF800000#32
  else if 1384 ≤ w ∧ w < 1392 then 0x7F800000#32 else 0#32

/-- The active page of a context. -/
def State.page (s : State) (i : Nat) : Nat := (s.bit (R.ACT_PAGE_PAGE (i / 32)) (i % 32)).toNat

def State.coefAt (s : State) (i page w : Nat) : Nat := (mapGet coefDefault s.ctl.coef ((2 * i + page) * 2048 + w)).toNat

def State.setCoef (s : State) (i page w v : Nat) : State :=
  { s with ctl := { s.ctl with coef := mapSet coefDefault s.ctl.coef ((2 * i + page) * 2048 + w) (BitVec.ofNat 32 v) } }

/-- A word of the active page. -/
def State.coef (s : State) (i w : Nat) : Nat := s.coefAt i (s.page i) w

def el (l : List Nat) (j : Nat) : Nat := l.getD j f0

/-- Rows of a matrix of 16 columns times a vector (R65, R82). -/
def State.mat16 (s : State) (i base rows cols : Nat) (x : List Nat) : List Nat :=
  (upto rows).map fun a => fTree16 ((upto cols).map fun j => fMul (s.coef i (base + 16 * a + j)) (el x j))

/-- Rows of a matrix of 8 columns times a vector. -/
def State.mat8 (s : State) (i base rows cols : Nat) (x : List Nat) : List Nat :=
  (upto rows).map fun a => fTree8 ((upto cols).map fun j => fMul (s.coef i (base + 8 * a + j)) (el x j))

def vAdd (n : Nat) (a b : List Nat) : List Nat := (upto n).map fun j => fAdd (el a j) (el b j)

/-- clamp to UMIN and UMAX of the active page. -/
def State.clampU (s : State) (i : Nat) (l : List Nat) : List Nat :=
  (upto l.length).map fun j => fClamp (el l j) (s.coef i (1376 + j)) (s.coef i (1384 + j))

/-- X0 of the active page. -/
def State.x0 (s : State) (i : Nat) : List Nat := (upto (ctxN s.crd i)).map fun j => s.coef i (1344 + j)

/-- v = −K·x̂. -/
def State.vOf (s : State) (i : Nat) (x : List Nat) : List Nat := (s.mat16 i 896 (ctxP s.crd i) (ctxN s.crd i) x).map fNeg

/-- A numeric event of a context (R68 to R70, R87, R88). -/
def State.numEvent (s : State) (i : Nat) : State :=
  let s := (s.putBit (R.NUM_FLAG_NUM (i / 32)) (i % 32) true).inc (R.DESC_COUNT_NUM_CNT i)
  { s with ctl := { s.ctl with num := true } }

/-! ### Sources (R71, R72) -/

/-- A signed or unsigned SAR code as binary32, and whether it is fresh for the period. -/
def State.sarValue (s : State) (n : Nat) : Nat × Bool :=
  let (code, fresh) := match s.tie.shadow with
    | some x => (x.sar.getD n 0, bitOf x.sarFresh n)
    | none => (s.rd (R.SAR_RES_CODE n), !s.on (R.SAR_STATUS_STALE n))
  (if bitOf (s.sarWord (2 * n)) 1 then fOfInt (toSigned 16 code) else fOfNat code, fresh)

def State.sdValue (s : State) (d : Nat) : Nat × Bool :=
  match s.tie.shadow with
  | some x => (fOfInt (toSigned 32 (x.sd.getD d 0)), bitOf x.sdFresh d)
  | none => (fOfInt (toSigned 32 (s.rd (R.SD_RES_CODE d))), !s.on (R.SD_STATUS_STALE d))

def State.piValueNow (s : State) (i : Nat) : Nat × Bool :=
  match s.tie.shadow with
  | some x => (x.pi.getD i 0, bitOf x.piFresh i)
  | none => (s.rd (R.PI_OUT_OUT i), !s.on (R.PI_STATUS_STALE i))

def armDefault (_ : Nat) : ArmL := ArmL.reset

def State.armL (s : State) (a : Nat) : ArmL := mapGet armDefault s.lvl.arms a

def State.onArm (s : State) (a : Nat) (f : ArmL → ArmL) : State :=
  { s with lvl := { s.lvl with arms := mapUpd armDefault s.lvl.arms a f } }

/-- Outputs as delivered in period k − 1, by context and element. -/
abbrev Delivered := Nat → Nat → Nat

def State.delivered (s : State) : Delivered := fun i j => el (s.ctxAt i).out j

/-- The raw value of a source and whether it is fresh; `prev` gives the outputs of period k − 1. An aggregate formed from
slots is stale in a period with a missing slot of its arm. -/
def State.source (s : State) (prev : Delivered) (kind index : Nat) : Nat × Bool :=
  match kind with
  | 1 => s.sarValue index
  | 2 => s.sdValue index
  | 3 =>
    let a := index / 16
    let g := index % 16
    let slots := decide (g ≤ 4) || g == 10
    (s.rd (R.ARM_AGG_AGG a g), !(slots && (s.armL a).aggStale))
  | 4 => (s.delivered (index / 8) (index % 8), true)
  | 5 => (prev (index / 8) (index % 8), true)
  | 6 => (s.rd (R.SP_OUT_OUT index), !s.on (R.SP_STATUS_LOST index))
  | 7 => (mapGet (fun _ => f0) s.acd.agg index, s.acd.fresh.contains index)
  | 8 => s.piValueNow index
  | _ => (f0, true)

/-- The element of a binding: GAIN × (raw − OFFSET), the raw value and its freshness. -/
def State.element (s : State) (prev : Delivered) (i e : Nat) : Nat × Nat × Bool :=
  let (raw, fresh) := s.source prev (s.crd (R.BIND_KIND i e)) (s.crd (R.BIND_INDEX i e))
  (fMul (s.crd (R.BIND_GAIN_GAIN i e)) (fSub raw (s.crd (R.BIND_OFFSET_OFFSET i e))), raw, fresh)

/-! ### Set-point channels (R92 to R98) -/

def spDefault (_ : Nat) : SpC := SpC.reset

def State.spAt (s : State) (c : Nat) : SpC := mapGet spDefault s.ctl.sp c

/-- The raw value of a channel where it is fresh for this period (R93). -/
def State.spFresh (s : State) (c : Nat) : Option Nat :=
  match s.tie.shadow with
  | some x => (x.points.find? fun e => e.1 == c).map Prod.snd
  | none =>
    let idx := s.crd (R.SP_CFG_INDEX c)
    match s.crd (R.SP_CFG_SRC c) with
    | 1 => if s.ctl.spNew.contains c || s.ctl.first then some (s.rd (R.SP_VALUE_VALUE c)) else none
    | 2 => if (s.sarValue idx).2 then some (s.sarValue idx).1 else none
    | 3 => if (s.piValueNow idx).2 then some (s.piValueNow idx).1 else none
    | 4 => if s.ctl.slotNew.contains idx then some (mapGet (fun _ => f0) s.ctl.slotVal idx) else none
    | _ => none

/-- to_periods of R95. -/
def State.spTimeout (s : State) (c : Nat) : Nat := ceilDiv (s.rd (R.SP_CFG_TIMEOUT c) * 1000000) s.periodNs

/-- A channel is lost (R96): once. -/
def State.spLose (s : State) (c : Nat) : State :=
  if s.on (R.SP_STATUS_LOST c) then s
  else ((s.put (R.SP_STATUS_LOST c) true).put (R.SP_STATUS_LOST_SEEN c) true).raise 35

/-- The age of a channel has reached its timeout. -/
def State.spExpired (s : State) (c : Nat) : Bool :=
  s.spTimeout c != 0 && decide (s.spTimeout c ≤ s.rd (R.SP_STATUS_AGE c))

/-- T_c in seconds, rounded to binary32. -/
def State.tcSeconds (s : State) : Nat := fRatio false s.periodNs 1000000000 0

/-- The target of a fresh raw value (R95). -/
def State.spTarget (s : State) (c raw : Nat) : Nat :=
  let t := fMul (s.rd (R.SP_GAIN_GAIN c)) (fSub raw (s.rd (R.SP_OFFSET_OFFSET c)))
  if s.crd (R.SP_CFG_WRAP c) = 1 then
    let t := fSub t (fFloor t)
    if fEq t f1 then f0 else t
  else fClamp t (s.rd (R.SP_MIN_MIN c)) (s.rd (R.SP_MAX_MAX c))

/-- One period of a channel (R95). -/
def State.spUpdate (s : State) (c : Nat) : State :=
  if s.crd (R.SP_CFG_SRC c) = 0 then s.wr (R.SP_OUT_OUT c) f0
  else
    let fresh := s.spFresh c
    let x := s.spAt c
    let target := match fresh with
      | some raw => s.spTarget c raw
      | none => x.target
    let s := s.put (R.SP_STATUS_STALE c) fresh.isNone
    let s := match fresh with
      | some _ => (s.wr (R.SP_STATUS_AGE c) 0).put (R.SP_STATUS_LOST c) false
      | none => s.inc (R.SP_STATUS_AGE c)
    let s := s.when (s.spExpired c) fun s => s.spLose c
    let rate := s.rd (R.SP_RATE_RATE c)
    let out := s.rd (R.SP_OUT_OUT c)
    let step := fMul rate s.tcSeconds
    let out' :=
      if s.crd (R.SP_CFG_WRAP c) = 1 || x.first || rate == fInf then target
      else if s.on (R.SP_STATUS_LOST c) then out
      else fAdd out (fClamp (fSub target out) (fNeg step) step)
    { s with ctl := { s.ctl with sp := mapSet spDefault s.ctl.sp c { target := target, first := false } } }.wr (R.SP_OUT_OUT c) out'

def execSetpointLost (c : Fin 256) (s : State) : Out :=
  .next (s.when (s.inService && s.spExpired c) fun s => s.spLose c)

/-! ### Blocked arms (R63) -/

def State.armBlocked (s : State) (a : Nat) : Bool :=
  s.st != St.deblocked || (s.on R.DEV_STATE_DRY_ACTIVE && s.bit R.DRY_STATUS_ARM_BLOCKED a) || s.on (R.ARM_STATUS_BLOCKED a)

/-- A context counts as blocked: its arm, or with ARM = 7 all arms. -/
def State.ctxBlocked (s : State) (i : Nat) : Bool :=
  let a := s.crd (R.DESC_CTRL_ARM i)
  if a ≤ 5 then s.armBlocked a else s.st != St.deblocked || (upto 6).all s.armBlocked

/-! ### Repetitive tables (R105 to R110) -/

def repActive (c : Cfg) (i t : Nat) : Bool := ctxOn c i && c (R.DESC_CTRL_REP_EN i) == 1 && c (R.REP_CFG_EN i t) == 1

def State.repAddr (s : State) (i t e : Nat) : Nat := s.crd R.REP_BASE_BASE + 0x4000 * (4 * i + t) + 4 * e

/-- The phase index of a table in this period (R106); none where the phase gives none. -/
def State.repIndex (s : State) (prev : Delivered) (i t : Nat) : Option Nat :=
  let len := s.crd (R.REP_CFG_LEN i t)
  let idx := s.crd (R.REP_PHASE_PH_IDX i t)
  let turn := fun (phi : Nat) =>
    if f32Finite phi then some (Nat.min (len - 1) (fFloorInt (fMul (fSub phi (fFloor phi)) (fOfNat len))).toNat) else none
  match s.crd (R.REP_PHASE_PH_SRC i t) with
  | 0 => some (mapGet (fun _ => 0) s.ctl.phase (4 * i + t))
  | 1 => turn (prev (idx / 8) (idx % 8))
  | _ => turn (s.rd (R.SP_OUT_OUT idx))

/-- An entry as the engine reads it: +0.0 where it cannot be corrected (R109). -/
def State.repEntry (s : State) (errs : List EngineError) (i t e : Nat) : Nat :=
  if errs.contains (.entry (Fin.ofNat 256 i) (Fin.ofNat 4 t) (Fin.ofNat 4096 e)) then f0 else s.load32 (s.repAddr i t e)

/-- f_rep of a context. -/
def State.repTerm (s : State) (prev : Delivered) (errs : List EngineError) (i : Nat) : List Nat :=
  (upto 4).foldl (fun f t =>
    if repActive s.crd i t then
      let out := s.crd (R.REP_CFG_OUT i t)
      let len := s.crd (R.REP_CFG_LEN i t)
      let x := match s.repIndex prev i t with
        | some k => s.repEntry errs i t ((k + s.rd (R.REP_PHASE_LEAD i t)) % len)
        | none => f0
      f.set out (fAdd (el f out) x)
    else f) (List.replicate (ctxP s.crd i) f0)

/-- The period counters of the tables advance (R106). -/
def State.repCount (s : State) : State :=
  (enabledCtx s.crd).foldl (fun s i => s.forN 4 fun t s =>
    s.when (repActive s.crd i t && s.crd (R.REP_PHASE_PH_SRC i t) == 0) fun s =>
      let k := 4 * i + t
      let n := if s.ctl.first then 0 else (mapGet (fun _ => 0) s.ctl.phase k + 1) % s.crd (R.REP_CFG_LEN i t)
      { s with ctl := { s.ctl with phase := mapSet (fun _ => 0) s.ctl.phase k n } }) s

/-! ### One context -/

/-- What a context has formed up to its clamped output (R62). -/
structure Eval where
  i : Nat
  y : List Nat
  raws : List (Nat × Bool)
  r : List Nat
  ff : List Nat
  frep : List Nat
  h : List Nat
  /-- v + h before the clamp -/
  pre : List Nat
  u : List Nat

/-- The steps of R62 up to the clamp. -/
def State.outputStep (s : State) (prev : Delivered) (errs : List EngineError) (i : Nat) : Eval :=
  let c := s.crd
  let p := ctxP c i
  let ys := (upto (ctxM c i)).map fun j => s.element prev i j
  let rs := (upto (ctxQ c i)).map fun j => s.element prev i (16 + j)
  let fs := (upto p).map fun j => s.element prev i (24 + j)
  let r := rs.map fun x => x.1
  let ff := fs.map fun x => x.1
  let frep := s.repTerm prev errs i
  let h := vAdd p (vAdd p (s.mat8 i 1024 p (ctxQ c i) r) frep) ff
  let pre := vAdd p (s.ctxAt i).v h
  { i := i, y := ys.map fun x => x.1, raws := ys.map fun x => x.2, r := r, ff := ff, frep := frep, h := h, pre := pre,
    u := s.clampU i pre }

/-- Bits of the elements that are not fresh (R72). -/
def staleBits (l : List Bool) : Nat := (upto l.length).foldl (fun n j => Machine.putBit n j (!l.getD j true)) 0

def State.showStale (s : State) (prev : Delivered) (i : Nat) : State :=
  let fr := fun (b n : Nat) => staleBits ((upto n).map fun j => (s.element prev i (b + j)).2.2)
  ((s.wr (R.DESC_INSTAT_Y_STALE i) (fr 0 (ctxM s.crd i))).wr (R.DESC_INSTAT_R_STALE i) (fr 16 (ctxQ s.crd i))).wr
    (R.DESC_INSTAT_F_STALE i) (fr 24 (ctxP s.crd i))

/-- An output is delivered: elements that are not finite are replaced by those of the previous period (R68). -/
def State.deliverOut (s : State) (i : Nat) (u : List Nat) : State :=
  let last := (s.ctxAt i).out
  let bad := u.any fun x => !f32Finite x
  let u := (upto u.length).map fun j => if f32Finite (el u j) then el u j else el last j
  (s.onCtx i fun x => { x with out := u }).when bad fun s => s.numEvent i

/-- Whether measurement `j` is dropped. -/
def State.dropped (s : State) (i j : Nat) : Bool := s.bit (R.COAST_STATUS_DROPPED i) j

/-- A detection fires for a measurement that is not dropped (R111): the drop acts from the next window; the first of
timeout, frozen, gate is recorded. -/
def State.fire (s : State) (i j cause : Nat) : State :=
  if s.dropped i j || (s.ctxAt i).found.any (fun e => e.1 == j) then s
  else s.onCtx i fun x => { x with found := x.found ++ [(j, cause)] }

def State.timeoutFires (s : State) (i j : Nat) : Bool :=
  s.on (R.FB_CFG_TO_EN i j) && decide (s.rd (R.FB_CFG_TO_N i j) ≤ s.rd (R.FB_COUNT_TO_CNT i j))

def State.frozenFires (s : State) (i j : Nat) : Bool :=
  s.on (R.FB_CFG_FRZ_EN i j) && decide (s.rd (R.FB_CFG_FRZ_N i j) ≤ s.rd (R.FB_COUNT_FRZ_CNT i j))

def State.gateFires (s : State) (i j : Nat) : Bool :=
  s.on (R.FB_CFG_GATE_EN i j) && decide (s.rd (R.FB_CFG_GATE_N i j) ≤ s.rd (R.FB_COUNT_GATE_CNT i j))

/-- RECOV_N consecutive passes of a measurement that a detection dropped return it where AUTO_READMIT allows (R114). -/
def State.autoReturns (s : State) (i j : Nat) : Bool :=
  s.dropped i j && bitsOf (s.rd (R.DROP_CAUSE_CAUSE i)) (2 * j) 2 != 0 && s.on (R.FB_CFG_AUTO_READMIT i j) &&
    decide (s.rd (R.FB_RECOV_RECOV_N i j) ≤ s.rd (R.FB_COUNT_PASS_CNT i j))

def State.markReturn (s : State) (i j : Nat) : State :=
  s.onCtx i fun x => { x with pass := Machine.putBit x.pass j true }

/-- The detections and passes of measurement `j` at the end of an evaluation (R111, R114): `meas` as measured, `cx` as
predicted, `e` the innovation. -/
def State.monitor (s : State) (i j raw : Nat) (fresh : Bool) (meas cx e : Nat) : State :=
  let last := mapGet (fun _ => none) (s.ctxAt i).raws j
  let same := last == some raw
  let gate := s.rd (R.FB_GATE_GATE i j)
  let out := !fLe (fAbs e) gate
  let s := s.wr (R.FB_COUNT_TO_CNT i j) (if fresh || !s.on (R.FB_CFG_TO_EN i j) then 0 else satAdd 8 (s.rd (R.FB_COUNT_TO_CNT i j)) 1)
  let s := s.wr (R.FB_COUNT_FRZ_CNT i j)
    (if !s.on (R.FB_CFG_FRZ_EN i j) then 0
     else if !fresh then s.rd (R.FB_COUNT_FRZ_CNT i j)
     else if same then satAdd 8 (s.rd (R.FB_COUNT_FRZ_CNT i j)) 1 else 1)
  let s := s.wr (R.FB_COUNT_GATE_CNT i j)
    (if out && s.on (R.FB_CFG_GATE_EN i j) then satAdd 8 (s.rd (R.FB_COUNT_GATE_CNT i j)) 1 else 0)
  let passes := fresh && last.isSome && !same && fLe (fAbs (fSub meas cx)) gate
  let forced := bitsOf (s.rd (R.DROP_CAUSE_CAUSE i)) (2 * j) 2 == 0
  let s := s.wr (R.FB_COUNT_PASS_CNT i j)
    (if s.dropped i j && !forced && passes then satAdd 8 (s.rd (R.FB_COUNT_PASS_CNT i j)) 1 else 0)
  let s := s.when fresh fun s => s.onCtx i fun x => { x with raws := mapSet (fun _ => none) x.raws j (some raw) }
  let s := s.when (s.timeoutFires i j) fun s => s.fire i j 1
  let s := s.when (s.frozenFires i j) fun s => s.fire i j 2
  let s := s.when (s.gateFires i j) fun s => s.fire i j 3
  s.when (s.autoReturns i j) fun s => s.markReturn i j

/-- A measurement returns: its counts clear (R114). -/
def State.readmit (s : State) (i j : Nat) : State :=
  let s := (s.putBit (R.COAST_STATUS_DROPPED i) j false).setWord (R.FB_COUNT_TO_CNT i j).addr 0
  s.onCtx i fun x => { x with pass := Machine.putBit x.pass j false }

/-- The coast limit of a context in periods. -/
def State.coastLimit (s : State) (i : Nat) : Nat := ceilDiv (s.rd (R.COAST_CFG_COAST_LIM i) * 100000) s.periodNs

/-- The coast time has reached its limit, once for the coast (R113). -/
def State.coastExpire (s : State) (i : Nat) : State :=
  if s.on (R.COAST_STATUS_COASTING i) && !(s.ctxAt i).limited && decide (s.coastLimit i ≤ s.rd (R.COAST_TIME_PERIODS i)) then
    ((s.onCtx i fun x => { x with limited := true }).put (R.COAST_STATUS_LIMIT i) true).raise 37
  else s

/-- One period of a context's coast, finished or not (R113); the coast ends with the last dropped measurement (R114). -/
def State.coastTick (s : State) (i : Nat) : State :=
  if s.rd (R.COAST_STATUS_DROPPED i) = 0 then
    ((s.put (R.COAST_STATUS_COASTING i) false).wr (R.COAST_TIME_PERIODS i) 0).onCtx i fun x => { x with limited := false }
  else if s.on (R.COAST_STATUS_COASTING i) then (s.inc (R.COAST_TIME_PERIODS i)).coastExpire i
  else (((s.put (R.COAST_STATUS_COASTING i) true).wr (R.COAST_TIME_PERIODS i) 1).raise 36).coastExpire i

/-- A table after the output and the innovation (R107, R108): flags, and one entry where it learns. -/
def State.repLearn (s : State) (prev : Delivered) (errs : List EngineError) (ev : Eval) (y e : List Nat) (lost : Bool) (t : Nat) :
    State :=
  let i := ev.i
  if !repActive s.crd i t then s
  else
    let len := s.crd (R.REP_CFG_LEN i t)
    let out := s.crd (R.REP_CFG_OUT i t)
    let idx := s.repIndex prev i t
    let k := idx.getD 0
    let at' := fun (n : Nat) => n % len
    let read := [at' (k + s.rd (R.REP_PHASE_LEAD i t)), at' (k + len - 1), at' (k + 1), k]
    let ecc := idx.isSome && read.any fun n => errs.contains (.entry (Fin.ofNat 256 i) (Fin.ofNat 4 t) (Fin.ofNat 4096 n))
    let err := if s.crd (R.REP_CFG_ERR_KIND i t) = 0 then
        fSub (el ev.r (s.crd (R.REP_CFG_ERR_R i t))) (el y (s.crd (R.REP_CFG_ERR_Y i t)))
      else el e (s.crd (R.REP_CFG_ERR_Y i t))
    let sat := el ev.pre out != el ev.u out || (lost && s.crd (R.DESC_CTRL_GROUP_OUT i) == out)
    let num := !f32Finite err || idx.isNone
    let learns := !s.on (R.REP_CFG_FREEZE i t) && !s.ctxBlocked i && !s.on (R.COAST_STATUS_COASTING i) && !sat && !num
    let x := fun (n : Nat) => s.repEntry errs i t n
    let sum := fAdd (fAdd (fMul (s.rd (R.REP_Q0_Q0 i t)) (x (at' (k + len - 1)))) (fMul (s.rd (R.REP_Q2_Q2 i t)) (x (at' (k + 1)))))
      (fMul (s.rd (R.REP_Q1_Q1 i t)) (x k))
    let w := fAdd (fMul (s.rd (R.REP_FORGET_FORGET i t)) sum) (fMul (s.rd (R.REP_GAIN_GAIN i t)) err)
    let tl := s.rd (R.REP_TLIM_TLIM i t)
    let s := s.when (learns && f32Finite w) fun s => s.store32 (s.repAddr i t k) (fClamp w (fNeg tl) tl)
    let bad := num || (learns && !f32Finite w)
    let s := s.putBit (R.REP_STATUS_FROZEN i) t (!learns)
    let s := s.when sat fun s => s.putBit (R.REP_STATUS_SAT i) t true
    let s := s.when ecc fun s => (s.putBit (R.REP_STATUS_ECC i) t true).raise 15
    let s := s.when (t == 0 && idx.isSome) fun s => s.wr (R.REP_STATUS_INDEX0 i) k
    s.when bad fun s => (s.putBit (R.REP_STATUS_NUM i) t true).numEvent i

/-- The steps of R62 after resolution: `u` as resolved, `lost` says that the context lost its group. -/
def State.finishStep (s : State) (prev : Delivered) (errs : List EngineError) (ev : Eval) (u : List Nat) (lost : Bool) : State :=
  let i := ev.i
  let c := s.crd
  let n := ctxN c i
  let m := ctxM c i
  let p := ctxP c i
  let x := (s.ctxAt i).xhat
  let back := (s.ctxAt i).pass
  let s := s.deliverOut i u
  let out := (s.ctxAt i).out
  let s := (upto m).foldl (fun s j => s.when (bitOf back j && s.dropped i j) fun s => s.readmit i j) s
  let s := s.coastTick i
  let ua := if c (R.DESC_CTRL_OBS_BLK i) = 1 ∧ s.ctxBlocked i then List.replicate p f0 else out
  let cx := s.mat16 i 384 m n x
  let y := (upto m).map fun j => if s.dropped i j then el cx j else el ev.y j
  let e := (upto m).map fun j => if s.dropped i j then f0 else fSub (el ev.y j) (el cx j)
  let gain := if s.on (R.COAST_STATUS_COASTING i) then 1088 else 640
  let xn := vAdd n (vAdd n (s.mat16 i 0 n n x) (s.mat8 i 256 n p ua)) (s.mat16 i gain n m e)
  let xn := (upto n).map fun j => fClamp (el xn j) (fNeg (s.coef i (1360 + j))) (s.coef i (1360 + j))
  let bad := xn.any fun z => !f32Finite z
  let s := s.when bad fun s => s.numEvent i
  let xn := if bad then s.x0 i else xn
  let s := (upto 4).foldl (fun s t => s.repLearn prev errs ev y e lost t) s
  let v := s.vOf i xn
  let uol := s.clampU i (vAdd p v ev.h)
  let s := s.onCtx i fun z => { z with xhat := xn, v := v, uol := uol, h := ev.h, y := y, r := ev.r, ff := ev.ff, frep := ev.frep, e := e }
  (upto m).foldl (fun s j =>
    let raw := ev.raws.getD j (0, false)
    s.monitor i j raw.1 raw.2 (el ev.y j) (el cx j) (el e j)) s

/-- An unfinished context (R79, R113): its coast, flags and counts; its output is delivered by the caller. -/
def State.unfinished (s : State) (i : Nat) : State :=
  let s := s.coastTick i
  let s := (s.putBit (R.CTL_OVR_FLAG_OVR (i / 32)) (i % 32) true).inc (R.DESC_COUNT_OVR_CNT i)
  (upto 4).foldl (fun s t => s.when (repActive s.crd i t) fun s => s.putBit (R.REP_STATUS_FROZEN i) t true) s

/-! ### Competition (R99 to R104) -/

/-- The winner among candidates (loop index, value): the lowest value, the lowest loop index on ties; values that are not
numbers do not compete (R101). -/
def winnerOf (l : List (Nat × Nat)) : Option (Nat × Nat) :=
  (l.filter fun e => !f32NaN e.2).foldl (fun b e =>
    match b with
    | none => some e
    | some x => if fLt e.2 x.2 then some e else b) none

/-- A group has been resolved among candidates in loop order (R104). -/
def State.groupResolved (s : State) (g : Nat) (ms : List Nat) (cand : List (Nat × Nat)) (unf : Bool) : State :=
  let w := winnerOf cand
  let s := ((s.put (R.GRP_WIN_ACTIVE g) true).wr (R.GRP_WIN_MEMBERS g) ms.length).put (R.GRP_WIN_UNFINISHED g) unf
  match w with
  | none => (s.put (R.GRP_WIN_TIE g) false).wr (R.GRP_VALUE_VALUE g) ((cand.headD (0, f0)).2)
  | some (k, v) =>
    let tie := cand.any fun e => e.1 != k && fEq e.2 v
    let s := (((s.wr (R.GRP_WIN_LOOP g) k).wr (R.GRP_WIN_CTX g) (ms.getD k 0)).put (R.GRP_WIN_TIE g) tie).wr (R.GRP_VALUE_VALUE g) v
    let was := mapGet (fun _ => none) s.ctl.winner g
    let s := { s with ctl := { s.ctl with winner := mapSet (fun _ => none) s.ctl.winner g (some k) } }
    if was.isSome && was != some k then
      (s.inc (R.GRP_CHANGES_CHANGES g)).wr (R.GRP_CHG_PERIOD_CHG_PERIOD g) (s.sys.period % 2 ^ 32)
    else s

/-- A node runs: one context or a group, each member marked as finished or not (R79, R100 to R103). -/
def State.runNode (s : State) (prev : Delivered) (errs : List EngineError) (ms : List (Nat × Bool)) : State :=
  let evs := ms.map fun m => if m.2 then some (s.outputStep prev errs m.1) else none
  let s := ms.foldl (fun s m => s.when m.2 fun s => s.showStale prev m.1) s
  let out := fun (k : Nat) =>
    match evs.getD k none with
    | some ev => ev.u
    | none => (s.ctxAt (ms.getD k (0, false)).1).uol
  match groupOf s.crd (ms.headD (0, false)).1 with
  | none =>
    (upto ms.length).foldl (fun s k =>
      match evs.getD k none with
      | some ev => s.finishStep prev errs ev ev.u false
      | none => (s.unfinished (ms.getD k (0, false)).1).deliverOut (ms.getD k (0, false)).1 (out k)) s
  | some g =>
    let go := s.crd (R.DESC_CTRL_GROUP_OUT (ms.headD (0, false)).1)
    let cand := (upto ms.length).map fun k => (k, el (out k) go)
    let w := ((winnerOf cand).map Prod.snd).getD ((cand.headD (0, f0)).2)
    let win := (winnerOf cand).map Prod.fst
    let s := s.groupResolved g (ms.map Prod.fst) cand (ms.any fun m => !m.2)
    (upto ms.length).foldl (fun s k =>
      let u := (out k).set go w
      match evs.getD k none with
      | some ev => s.finishStep prev errs ev u (win != some k)
      | none => (s.unfinished (ms.getD k (0, false)).1).deliverOut (ms.getD k (0, false)).1 u) s

/-! ### The window (R76, R78 to R81) -/

/-- What accumulates along the order: the cycle the engine is free from, whether the fence has cut, when each finished
context ended, and the unfinished contexts with whether only CTL_INJECT made them so. -/
structure Run where
  t : Nat
  cut : Bool
  ends : List (Nat × Nat)
  unf : List (Nat × Bool)

/-- W_CE in cycles, from t_CA to t_LE (R16). -/
def State.windowCycles (s : State) : Nat := (s.crd R.LAYOUT_0_T_LE - s.crd R.LAYOUT_0_T_CA) * 10

/-- The accord aggregates that a context binds. -/
def aggBinds (c : Cfg) (i : Nat) : List Nat :=
  ((usedBinds c i).filter fun e => c (R.BIND_KIND i e) == 7).map fun e => c (R.BIND_INDEX i e)

/-- The scheduled instant of an accord slot in ns after t0 (R339): an AGG comes up through the levels below its own, a
DIST after all levels have been up and down; a standby adds 0.4 µs. -/
def State.slotDue (s : State) (g : Nat) : Nat :=
  let l := s.crd (R.ACD_SLOT_LVL g)
  let up := sumOf ((upto l).map fun j => s.crd (R.LVLE_W2_H j) * 300 + s.crd (R.LVLE_W2_C_LEAD j))
  s.crd R.LAYOUT_0_T_CA * 10 + up + (if s.crd (R.ACD_SLOT_DIR g) = 0 then s.crd (R.LVLE_W2_H l) * 300 else s.acd.above) +
    (if s.role = Role.standby then 400 else 0)

/-- The slack of R339: W_CE less the sum of R24. -/
def State.accordSlack (s : State) : Nat := s.crd R.CE_WINDOW_WINDOW - s.crd R.CE_DEMAND_DEMAND

/-- The frame of a slot is there by the scheduled instant plus the slack. -/
def State.slotInTime (s : State) (g : Nat) : Bool :=
  match s.acd.arrived.find? fun e => e.1 == g with
  | some e => decide (e.2 ≤ s.slotDue g + s.accordSlack)
  | none => false

/-- The cycle from which a context's accord aggregates are there; none where one misses its arrival (R76, R81). A slot that
is not in use keeps no context waiting. -/
def State.aggCycle (s : State) (i : Nat) : Option Nat :=
  let used := (aggBinds s.crd i).filter fun g => s.crd (R.ACD_SLOT_EN g) == 1
  let start := s.crd R.LAYOUT_0_T_CA * 10 + (if s.role = Role.standby then 400 else 0)
  if used.all s.slotInTime then
    some (maxOf (used.map fun g => Nat.max (s.slotDue g) (mapGet (fun _ => 0) s.acd.arrived g) - start))
  else none

/-- A context cannot be finished in this window for a cause of R81: an injected mark, an error, or a late aggregate. -/
def State.marked (s : State) (errs : List EngineError) (i : Nat) : Bool × Bool :=
  let inj := s.ctl.inject.contains i
  let bad := errs.any fun e => match e with
    | .coef c _ ok => c.val == i && !ok
    | .entry _ _ _ => false
  (inj || bad || (s.aggCycle i).isNone, inj && !bad && (s.aggCycle i).isSome)

/-- Cycles of a context: its cost, LOAD_X0 and corrected errors (R81, R85). -/
def State.cyclesOf (s : State) (errs : List EngineError) (i : Nat) : Nat :=
  let fixed := (errs.filter fun e => match e with
    | .coef c _ ok => c.val == i && ok
    | .entry _ _ _ => false).length
  ctxCost s.crd i + 4 * fixed +
    (if s.ctl.load.contains i then ceilDiv (ctxN s.crd i * ctxP s.crd i) 128 else 0)

/-- The nodes in the order of R75. -/
def nodesOf (c : Cfg) : List Nat → List (List Nat)
  | [] => []
  | i :: r =>
    let node := nodeOf c i
    if node.headD i = i then node :: nodesOf c r else nodesOf c r

/-- One node is scheduled and run. -/
def State.scheduleNode (prev : Delivered) (errs : List EngineError) (x : State × Run) (ms : List Nat) : State × Run :=
  let (s, r) := x
  let live := ms.filter fun i => !(s.marked errs i).1
  let prods := (ms.map (producers s.crd)).flatten
  let ready := maxOf (prods.map fun k => ((r.ends.find? fun e => e.1 == k).map fun e => e.2 + 24).getD 0)
  let aggs := maxOf (live.map fun i => (s.aggCycle i).getD 0)
  let start := Nat.max r.t (Nat.max ready aggs)
  let cost := sumOf (live.map (s.cyclesOf errs))
  let fits := !r.cut && decide (start + cost + 20 ≤ s.windowCycles)
  if live.isEmpty then
    (s.runNode prev errs (ms.map fun i => (i, false)),
      { r with unf := r.unf ++ ms.map fun i => (i, (s.marked errs i).2) })
  else if fits then
    (s.runNode prev errs (ms.map fun i => (i, live.contains i)),
      { r with t := start + cost, ends := r.ends ++ ms.map (fun i => (i, start + cost)),
               unf := r.unf ++ (ms.filter fun i => !live.contains i).map fun i => (i, (s.marked errs i).2) })
  else
    (s.runNode prev errs (ms.map fun i => (i, false)), { r with cut := true, unf := r.unf ++ ms.map fun i => (i, false) })

/-- The overrun event of a period (R79, R80). -/
def State.overrun (s : State) (unf : List (Nat × Bool)) : State :=
  match unf with
  | [] => s
  | (first, _) :: _ =>
    let s := (s.inc R.CTL_OVR_COUNT_COUNT).wr R.CTL_OVR_LAST_FIRST_CTX first
    let s := (s.wr R.CTL_OVR_LAST_UNFINISHED unf.length).put R.CTL_OVR_LAST_INJECTED (unf.all Prod.snd)
    ((s.wr R.CTL_OVR_PERIOD_PERIOD (s.sys.period % 2 ^ 32)).raise 32).raise 33

/-! ### Coasting (R112, R113) -/

/-- Drops and returns act as a window starts (R111, R113, R114); of a DROP and a READMIT the DROP acts. -/
def State.coastStart (s : State) (i : Nat) : State :=
  let x := s.ctxAt i
  let s := (upto (ctxM s.crd i)).foldl (fun s j =>
    let cause := ((x.found.find? fun e => e.1 == j).map Prod.snd)
    if bitOf x.drop j || (cause.isSome && !bitOf x.back j && !s.dropped i j) then
      let code := if bitOf x.drop j then 0 else cause.getD 0
      let s := (s.putBit (R.COAST_STATUS_DROPPED i) j true).wr (R.DROP_CAUSE_CAUSE i)
        (setBits (s.rd (R.DROP_CAUSE_CAUSE i)) (2 * j) 2 code)
      s.onCtx i fun x => { x with pass := Machine.putBit x.pass j false }
    else if bitOf x.back j && (cause.isSome || s.dropped i j) then s.readmit i j
    else s) s
  s.onCtx i fun x => { x with drop := 0, back := 0, found := [] }

/-! ### Page swaps (R84 to R86) -/

/-- The limits of a page, of the elements in use (R73), let it become active (R85). -/
def State.pageOk (s : State) (i page : Nat) : Bool :=
  let w := fun k => s.coefAt i page k
  (upto (ctxP s.crd i)).all (fun j => fLe (w (1376 + j)) (w (1384 + j))) &&
    (upto (ctxN s.crd i)).all fun j => !f32NaN (w (1360 + j)) && fLe f0 (w (1360 + j))

/-- A GO applies: pages change places, X0 is loaded. -/
def State.applySwap (s : State) (x : SwapC) : State :=
  let sel := fun (i : Nat) => bitOf (x.sel.getD (i / 32) 0) (i % 32)
  let s := s.forN 256 fun i s =>
    if !sel i then s
    else
      let s := if !x.swap then s
        else if s.pageOk i (1 - s.page i) then s.putBit (R.ACT_PAGE_PAGE (i / 32)) (i % 32) (s.page i == 0)
        else (s.put R.SWAP_STATUS_LIMIT_ERR true).wr R.SWAP_STATUS_LIMIT_CTX i
      s.when x.load fun s => (s.onCtx i fun z => { z with xhat := s.x0 i, v := s.vOf i (s.x0 i) })
  let load := if x.load then (upto 256).filter sel else []
  { s with ctl := { s.ctl with swap := none, load := load } }.put R.SWAP_STATUS_PENDING false

/-- A write of SWAP_CMD.GO (R84). -/
def State.swapGo (s : State) (swap load : Bool) : State :=
  if s.on R.SWAP_STATUS_PENDING then s.put R.SWAP_STATUS_REFUSED true
  else
    let x : SwapC := { sel := (upto 8).map fun w => s.rd (R.SWAP_SEL_SEL w), swap := swap, load := load,
                       atPeriod := if s.now < s.sys.t0 + s.tCa then s.sys.period else s.sys.period + 1 }
    if s.inService then { s with ctl := { s.ctl with swap := some x } }.put R.SWAP_STATUS_PENDING true
    else { s.applySwap x with ctl := { (s.applySwap x).ctl with load := [] } }

/-! ### The engine's part of the window -/

/-- Input gathering and every context, from t_CA to the hand-off (R60, R76). -/
def State.runEngine (s : State) (errs : List EngineError) : State :=
  let prev := s.delivered
  let s := { s with ctl := { s.ctl with num := false, load := [] } }
  let s := match s.ctl.swap with
    | some x => if x.atPeriod ≤ s.sys.period then s.applySwap x else s
    | none => s
  let s := s.forN 256 fun c s => s.spUpdate c
  let s := (enabledCtx s.crd).foldl (fun s i => s.coastStart i) s
  let s := s.repCount
  let s := s.forN 32 fun g s => s.put (R.GRP_WIN_ACTIVE g) false
  let (s, r) := (nodesOf s.crd s.ctl.order).foldl (State.scheduleNode prev errs)
    (s, { t := 40, cut := false, ends := [], unf := [] })
  let used := r.t + 20
  let s := (s.wr R.CTL_USED_LAST used).wr R.CTL_PEAK_PEAK (Nat.max used (s.rd R.CTL_PEAK_PEAK))
  let s := s.overrun r.unf
  let s := s.when s.ctl.num fun s => (s.inc R.CTL_NUM_COUNT_COUNT).raise 34
  let bad := fun (ok : Bool) => errs.any fun e => match e with
    | .coef _ _ k => k == ok
    | .entry _ _ _ => false
  let s := (s.when (bad false) fun s => s.raise 16).when (bad true) fun s => s.raise 17
  { s with ctl := { s.ctl with first := false, spNew := [], slotNew := [], inject := [], load := [] } }

/-- Entry to ENERGISED from CONFIGURED (R86, R97, R104, R115). -/
def State.initEngine (s : State) : State :=
  let s := (enabledCtx s.crd).foldl (fun s i =>
    let x0 := s.x0 i
    let v := s.vOf i x0
    let u := s.clampU i v
    s.onCtx i fun z => { z with xhat := x0, v := v, h := List.replicate (ctxP s.crd i) f0, uol := u, out := u }) s
  let s := s.forN 256 fun i s =>
    let s := s.onCtx i fun z => { z with raws := [], found := [], pass := 0, limited := false }
    let s := ((s.setWord (R.COAST_STATUS_DROPPED i).addr (setBits (s.word (R.COAST_STATUS_DROPPED i).addr) 0 17 0)).wr
      (R.COAST_TIME_PERIODS i) 0)
    s.forN 16 fun j s => s.setWord (R.FB_COUNT_TO_CNT i j).addr 0
  let s := s.forN 256 fun c s =>
    let t := if s.crd (R.SP_CFG_WRAP c) = 1 then f0 else fClamp f0 (s.rd (R.SP_MIN_MIN c)) (s.rd (R.SP_MAX_MAX c))
    let s := (s.wr (R.SP_STATUS_AGE c) 0).put (R.SP_STATUS_LOST c) false
    { s with ctl := { s.ctl with sp := mapSet spDefault s.ctl.sp c { target := t, first := true } } }
  let s := s.forN 32 fun g s => s.wr (R.GRP_CHANGES_CHANGES g) 0
  { s with ctl := { s.ctl with winner := [], first := true, inject := [] } }

/-! ### Commands of the engine -/

def execFeedbackTimeoutDrop (ctx : Fin 256) (j : Fin 16) (s : State) : Out :=
  .next (s.when (s.inService && s.timeoutFires ctx j) fun s => s.fire ctx j 1)

def execFrozenDrop (ctx : Fin 256) (j : Fin 16) (s : State) : Out :=
  .next (s.when (s.inService && s.frozenFires ctx j) fun s => s.fire ctx j 2)

def execGateDrop (ctx : Fin 256) (j : Fin 16) (s : State) : Out :=
  .next (s.when (s.inService && s.gateFires ctx j) fun s => s.fire ctx j 3)

def execAutoReadmit (ctx : Fin 256) (j : Fin 16) (s : State) : Out :=
  .next (s.when (s.inService && s.autoReturns ctx j) fun s => s.markReturn ctx j)

/-- A write of COAST_CMD (R113, R114): measurements to drop and to return, one bit each; a drop prevails. -/
def State.coastCmd (s : State) (i drop back : Nat) : State :=
  s.onCtx i fun x =>
    let d := x.drop ||| drop
    { x with drop := d, back := (x.back ||| back) &&& (0xFFFF - d) }

def execCoastLimit (ctx : Fin 256) (s : State) : Out := .next (s.when s.inService fun s => s.coastExpire ctx)

/-- A write of CTL_INJECT.FORCE_OVR (R87): discarded while the engine does not compute. -/
def State.injectOverrun (s : State) (i : Nat) : State :=
  s.when s.inService fun s => { s with ctl := { s.ctl with inject := s.ctl.inject ++ [i] } }

/-- A write of CTL_CLEAR (R87): PEAK, OVR_COUNT, NUM_COUNT and CTX_COUNTS by bit. -/
def State.ctlClear (s : State) (v : Nat) : State :=
  let s := s.when (bitOf v 0) fun s => s.wr R.CTL_PEAK_PEAK 0
  let s := s.when (bitOf v 1) fun s => s.wr R.CTL_OVR_COUNT_COUNT 0
  let s := s.when (bitOf v 2) fun s => s.wr R.CTL_NUM_COUNT_COUNT 0
  s.when (bitOf v 3) fun s => s.forN 256 fun i s => s.setWord (R.DESC_COUNT_OVR_CNT i).addr 0

end Sys2Proof.Machine
end

