-- ==== Sys2Proof/Machine/Level.lean ====
section
/-! DEFINITION. The level engine (R118 to R153): keys of an arm, eligibility and admission, bypass requests, insertion,
direction, prediction, selection, records, carriers and aggregates. -/

namespace Sys2Proof.Machine

/-! ### Keys (R120, R121) -/

/-- Cells of an arm that hold keys, in ascending key index: their strand port × 128 + position. -/
def State.armCells (s : State) (a : Nat) : List Nat := (mapKeys s.lvl.levels).filter fun k => s.portArm (k / 128) == a

/-- Keys of a cell, 0 for a cell without. -/
def State.levelsOf (s : State) (k : Nat) : Nat := mapGet (fun _ => 0) s.lvl.levels k

/-- The arm of a cell that holds keys; 7 without. -/
def State.cellArm (s : State) (k : Nat) : Nat := if s.levelsOf k = 0 then 7 else s.portArm (k / 128)

/-- The positions of a port that EXPECT names. -/
def State.expectedOn (s : State) (p : Nat) : List Nat := (upto 96).filter fun i => s.on (R.EXP_W2_EXPECT p i)

/-- The declared levels of a position (R121). -/
def State.declared (s : State) (p pos : Nat) : Nat := Nat.max 1 (s.rd (R.EXP_W3_L p pos))

/-- Cells and their declared levels of every arm as the registers stand: what a commit fixes. -/
def State.keyCells (s : State) : List (Nat × Nat) :=
  ((upto 48).map fun p =>
    if s.rd (R.STRAND_ARM_ARM (p / 8) (p % 8)) ≤ 5 then (s.expectedOn p).map fun i => (cellKey p i, s.declared p i) else []).flatten

/-- First key index of each cell: one walk per arm in key order. -/
def State.keyIndices (s : State) (cells : List (Nat × Nat)) : NMap Nat :=
  let arm := fun (k : Nat) => s.rd (R.STRAND_ARM_ARM (k / 128 / 8) (k / 128 % 8))
  cells.map fun c => (c.1, sumOf ((cells.filter fun d => arm d.1 == arm c.1 && decide (d.1 < c.1)).map Prod.snd))

/-- Keys of each arm (R121). -/
def State.keyCounts (s : State) (cells : List (Nat × Nat)) : List Nat :=
  let arm := fun (k : Nat) => s.rd (R.STRAND_ARM_ARM (k / 128 / 8) (k / 128 % 8))
  (upto 6).map fun a => sumOf ((cells.filter fun c => arm c.1 == a).map Prod.snd)

/-- The keys of every arm fit: at most 1,024, and no compound head in carrier mode (R121). -/
def State.keysFit (s : State) : Bool :=
  let cells := s.keyCells
  let arm := fun (k : Nat) => s.rd (R.STRAND_ARM_ARM (k / 128 / 8) (k / 128 % 8))
  (s.keyCounts cells).all (fun n => decide (n ≤ 1024)) &&
    cells.all fun c => !(s.on (R.ARM_CFG_MODE (arm c.1)) && decide (1 < c.2))

/-- A cell keeps its keys in the arm that it had at the last commit. -/
def State.staysInArm (s : State) (cells : List (Nat × Nat)) (k : Nat) : Bool :=
  (cells.any fun c => c.1 == k) &&
    s.crd (R.STRAND_ARM_ARM (k / 128 / 8) (k / 128 % 8)) == s.rd (R.STRAND_ARM_ARM (k / 128 / 8) (k / 128 % 8))

/-- A commit fixes the keys; a request for bypass ends for a cell that leaves its arm (R125). -/
def State.commitKeys (s : State) : State :=
  let cells := s.keyCells
  let stays := s.staysInArm cells
  let s := s.forL (mapKeys s.lvl.levels) fun k s => s.when (!stays k && (s.view k).bypReq) fun s =>
    s.onView k fun v => { v with bypReq := false }
  { s with lvl := { s.lvl with levels := cells, keyOf := (s.keyIndices cells).filter fun e => e.2 != 0, keys := s.keyCounts cells } }

/-! ### What a cell reports -/

/-- The status slot of the present period is missing at t_CA (R20, R125). -/
def State.slotMissing (s : State) (k : Nat) : Bool := !(s.port (k / 128)).good.contains (k % 128)

/-- Bridge and turn periods are neutral for cells (R306). -/
def State.neutral (s : State) : Bool := s.tie.turn || s.tie.bridge

namespace View
def state (v : View) : Nat := bitsOf (byteAt v.slot 0) 0 4
def bridge (v : View) : Bool := bitOf (byteAt v.slot 0) 4
def vcap (v : View) : Nat := leAt v.slot 2 3
def levels (v : View) : Nat := byteAt v.slot 5
end View

/-- The echo of the last good slot is that of the last headers launched before this period (R41). -/
def State.echoes (s : State) (v : View) : Bool := !v.slot.isEmpty && byteAt v.slot 1 == s.sys.echoEpoch % 256

/-- V_meas (R125, R132): the slot's voltage, or V_pred of the previous period. -/
def State.vMeas (s : State) (k : Nat) : Nat :=
  if s.slotMissing k then (s.view k).vpred else fRatio false (s.view k).vcap 256 0

/-! ### Eligibility (R123, R124, R232) -/

/-- The first of conditions 1h to 6h that a cell fails, 0 for none; `missed` is the count after this period. -/
def State.cellCause (s : State) (k : Nat) (v : View) : Nat :=
  let p := k / 128
  let a := s.portArm p
  if s.rd (R.EXP_W3_VERDICT p (k % 128)) = Verdict.foreign then 1
  else if !s.echoes v then 2
  else if v.state < 4 ∨ 6 < v.state ∨ 3 ≤ v.cls then 3
  else if s.rd (R.ARM_MISS_MISS_N a) ≤ v.missed then 4
  else if v.bridge != (s.crd (R.ARM_CFG_BRIDGE a) == 1) then 5
  else if v.state = Mode.bypassed then 6
  else 0

/-- A missing slot counts, a good one sets the count to 0 (R125). -/
def State.countMissed (s : State) (k : Nat) (v : View) : View :=
  if !s.slotMissing k then { v with missed := 0 }
  else if s.neutral then v
  else { v with missed := satAdd 16 v.missed 1 }

/-- The stale-echo count of R346. -/
def State.countStale (s : State) (k : Nat) (v : View) : View :=
  if s.neutral || s.slotMissing k then v
  else if s.echoes v then { v with stale := 0 }
  else { v with stale := satAdd 16 v.stale 1 }

/-- One key of a cell is tested: whether it is eligible now, whether it is admitted and its count from now on. -/
def admitKey (ok qualifies : Bool) (need : Nat) (admitted : Bool) (count : Nat) : Bool × Bool × Nat :=
  if !ok then (false, false, 0)
  else if admitted then (true, true, 0)
  else if !qualifies then (false, false, 0)
  else if need ≤ count + 1 then (false, true, 0)
  else (false, false, count + 1)

/-- The test of one cell's keys. A key beyond the levels that a compound reports fails with CAUSE 6h; a cell that is
admitted starts with a switching count of 0. -/
def State.testCell (s : State) (k : Nat) (v : View) : View :=
  let v := s.countStale k (s.countMissed k v)
  let l := s.levelsOf k
  let cause := s.cellCause k v
  let hold := s.neutral && s.slotMissing k
  let volts := !s.slotMissing k && decide (s.rd R.ENERGISE_CFG_VCELL_MIN * 256 ≤ v.vcap)
  let res := (upto l).map fun j =>
    let ok := cause == 0 && (l ≤ 1 || decide (j < v.levels))
    let was := v.admitted.getD j false
    if hold && ok && !was then (false, false, v.runAdmit.getD j 0)
    else admitKey ok volts (s.rd (R.ARM_MISS_ADMIT_N (s.portArm (k / 128)))) was (v.runAdmit.getD j 0)
  let fresh := (upto l).any fun j => (res.getD j (false, false, 0)).2.1 && !v.admitted.getD j false
  let elig := res.map fun r => r.1
  { v with eligible := elig, admitted := res.map fun r => r.2.1, runAdmit := res.map fun r => r.2.2,
           cause := if cause ≠ 0 then cause else if elig.headD false then 0
             else if l ≤ 1 ∨ 0 < v.levels then 7 else 6,
           swc := if fresh && !elig.any id then 0 else v.swc }

/-- Every cell of every arm is tested (R123). -/
def State.testCells (s : State) : State :=
  s.forL (mapKeys s.lvl.levels) fun k s => s.onView k fun v => s.testCell k v

/-- Keys of an arm as (cell, level), in key order. -/
def State.armKeys (s : State) (a : Nat) : List (Nat × Nat) :=
  ((s.armCells a).map fun k => (upto (s.levelsOf k)).map fun j => (k, j)).flatten

def State.keyEligible (s : State) (x : Nat × Nat) : Bool := (s.view x.1).eligible.getD x.2 false

/-- The eligible keys of an arm, in key order. -/
def State.eligibleKeys (s : State) (a : Nat) : List (Nat × Nat) := (s.armKeys a).filter s.keyEligible

/-- N_avail. -/
def State.nAvail (s : State) (a : Nat) : Nat := (s.eligibleKeys a).length

/-- Entry to ENERGISED from CONFIGURED: available cells are admitted at once, and nothing has been built (R124, R128 to
R130, R135, R147). -/
def State.enterLevels (s : State) (available : List Nat) : State :=
  let s := s.forL (mapKeys s.lvl.levels) fun k s => s.onView k fun v =>
    let l := s.levelsOf k
    let ok := (upto l).map fun j => available.contains k && (l ≤ 1 || decide (j < v.levels))
    { v with admitted := ok, runAdmit := List.replicate l 0, eligible := ok, swc := 0, last := none, pwmRun := 0, missed := 0,
             stale := 0, rotBar := false, cause := if ok.headD false then 0 else 7 }
  { s with lvl := { s.lvl with records := [], arms := [], pAlign := 0, alignNext := none } }

/-! ### Bypass requests (R125, R346) -/

/-- MISS_BYP has been reached. -/
def State.missBypDue (s : State) (k : Nat) : Bool :=
  let n := s.rd (R.ARM_MISS_MISS_BYP (s.portArm (k / 128)))
  n != 0 && decide (n ≤ (s.view k).missed) && !(s.view k).bypReq && s.levelsOf k != 0

/-- EPOCH_BYP has been reached. -/
def State.epochBypDue (s : State) (k : Nat) : Bool :=
  let n := s.rd R.ACD_EPOCH_EPOCH_BYP
  n != 0 && decide (n ≤ (s.view k).stale) && !(s.view k).bypReq && s.levelsOf k != 0

/-- BYP_REQ goes into every record of the cell from now on; source 41 has one event. -/
def State.requestBypass (s : State) (k : Nat) : State :=
  let rec' := mapGet (fun _ => idleRecord) s.lvl.records k
  let rec' := patch rec' 0 [BitVec.ofNat 8 (Machine.putBit (byteAt rec' 0) 4 true)]
  let s := s.onView k fun v => { v with bypReq := true }
  ({ s with lvl := { s.lvl with records := mapSet (fun _ => idleRecord) s.lvl.records k rec' } }).raiseAt 41 0 0
    (s.handle (k / 128) (k % 128))

/-- The request ends when the cell reports BYPASSED. -/
def State.bypassDone (s : State) (k : Nat) : State :=
  s.when (!s.slotMissing k && (s.view k).state == Mode.bypassed) fun s =>
    s.onView k fun v => { v with bypReq := false, stale := 0 }

def State.bypassRequests (s : State) : State :=
  s.forL (mapKeys s.lvl.levels) fun k s =>
    let s := s.bypassDone k
    s.when (s.missBypDue k || s.epochBypDue k) fun s => s.requestBypass k

/-- Strand port × 128 + position of a cell of this unit outside sub-strands. -/
def keyOfExt (id : Nat) : Nat := bitsOf id 7 6 * 128 + bitsOf id 0 7

def execBypassRequest (cell : BitVec 64) (s : State) : Out :=
  .next (s.when (s.inService && s.missBypDue (keyOfExt cell.toNat)) fun s => s.requestBypass (keyOfExt cell.toNat))

def execEpochBypass (cell : BitVec 64) (s : State) : Out :=
  .next (s.when (s.inService && s.epochBypDue (keyOfExt cell.toNat)) fun s => s.requestBypass (keyOfExt cell.toNat))

def execCellAdmission (cell : BitVec 64) (s : State) : Out :=
  let k := keyOfExt cell.toNat
  .next (s.when (s.inService && s.levelsOf k != 0) fun s => s.onView k fun v =>
    let need := s.rd (R.ARM_MISS_ADMIT_N (s.portArm (k / 128)))
    let go := fun j => s.cellCause k v == 0 && decide (need ≤ v.runAdmit.getD j 0)
    if (upto (s.levelsOf k)).any go then
      { v with admitted := (upto (s.levelsOf k)).map (fun j => v.admitted.getD j false || go j),
               swc := if v.eligible.any id then v.swc else 0 }
    else v)

def execCellMissIneligible (cell : BitVec 64) (s : State) : Out :=
  let k := keyOfExt cell.toNat
  .next (s.when (s.inService && s.levelsOf k != 0) fun s => s.onView k fun v =>
    if s.cellCause k v = 4 then
      { v with eligible := List.replicate (s.levelsOf k) false, admitted := List.replicate (s.levelsOf k) false,
               runAdmit := List.replicate (s.levelsOf k) 0, cause := 4 }
    else v)

/-! ### Switching counts and rotation (R135, R138) -/

/-- Counts of the arms whose interval ends with this period are halved, once in a period. -/
def State.decay (s : State) : State :=
  if s.lvl.decayed then s
  else
    let s := s.forN 6 fun a s =>
      s.when (s.sys.period % 2 ^ s.rd (R.ARM_BAL_SW_DECAY a) == 0) fun s =>
        s.forL (s.armCells a) fun k s => s.onView k fun v => { v with swc := v.swc / 2 }
    { s with lvl := { s.lvl with decayed := true } }

def execSwcDecay (s : State) : Out := .next (s.when s.inService fun s => s.decay)

/-- A cell has held PWM in entry 0 for ROT_LIM records in a row. -/
def State.rotationDue (s : State) (k : Nat) : Bool :=
  let n := s.rd (R.ARM_CFG_ROT_LIM (s.portArm (k / 128)))
  n != 0 && decide (n ≤ (s.view k).pwmRun)

def execRotationBar (cell : BitVec 64) (s : State) : Out :=
  let k := keyOfExt cell.toNat
  .next (s.when (s.inService && s.levelsOf k != 0 && s.rotationDue k) fun s => s.onView k fun v => { v with rotBar := true })

/-! ### Arm current and commutation event (R129 to R131) -/

/-- The arm current at t_CA: outputs are those of period k − 1. -/
def State.armCurrent (s : State) (a : Nat) : Nat :=
  fMul (s.crd (R.ARM_IGAIN_IGAIN a))
    (fSub (s.source s.delivered (s.crd (R.ARM_ISRC_KIND a)) (s.crd (R.ARM_ISRC_INDEX a))).1 (s.crd (R.ARM_IOFFSET_IOFFSET a)))

/-- The arm current at t_LE: with KIND 5h the value that stood at t_CA. -/
def State.armCurrentLe (s : State) (a : Nat) : Nat :=
  if s.crd (R.ARM_ISRC_KIND a) = 5 then s.rd (R.ARM_AGG_AGG a 7) else s.armCurrent a

/-- The sign s[k] is −1. -/
def State.signNeg (s : State) (a i : Nat) : Bool :=
  let h := s.rd (R.ARM_IHYST_IHYST a)
  if !f32Finite i then (s.armL a).neg
  else if fLt h i then false
  else if fLt i (fNeg h) then true
  else (s.armL a).neg

/-- The predicted crossing: how many periods after t0, as a quotient of scaled values (infinite slope: at t0), and
ZC_OFF; none where ZC_VALID = 0 (R130). -/
def State.crossing (s : State) (a i : Nat) : Option (Nat × Nat × Nat) :=
  match (s.armL a).iPrev with
  | none => none
  | some p =>
    let slope := fSub i p
    if !f32Finite i || !f32Finite p || fIsZero slope || (!fIsZero i && fSign slope == fSign i) then none
    else
      let (num, den) := if fIsInf slope then (0, 1)
        else
          let q := min (fExp i) (fExp slope)
          ((fScaled i q).natAbs, (fScaled slope q).natAbs)
      let off := if num ≤ den then 0 else (num - den) * s.periodNs / (den * 20)
      if 5 * den < num then none else some (num, den, off)

/-! ### Prediction and keys (R132 to R134) -/

/-- Entry `e` of a record: state code, duty, levels. -/
def entryOf (r : List Byte) (e : Nat) : Nat × Nat × Nat :=
  let w := leAt r (2 + 3 * e) 3
  (bitsOf w 0 4, bitsOf w 4 12, bitsOf w 16 8)

/-- σ of an entry as binary32. -/
def sigmaOf (full : Bool) (state duty : Nat) : Nat :=
  match state with
  | 2 => f1
  | 3 => fNeg f1
  | 4 => fRatio false duty 4096 0
  | 5 => fRatio true duty 4096 0
  | 6 => if full then fMul (fOfInt (toSigned 12 duty)) (fRatio false 1 2048 0) else fRatio false duty 4096 0
  | _ => f0

def State.fullBridge (s : State) (a : Nat) : Bool := s.crd (R.ARM_CFG_BRIDGE a) == 1

/-- The effective insertion of a cell during this period. -/
def State.sigma (s : State) (k : Nat) : Nat :=
  if s.lvl.sentBlock then f0
  else
    let e := entryOf (mapGet (fun _ => idleRecord) s.lvl.records k) 0
    sigmaOf (s.fullBridge (s.portArm (k / 128))) e.1 e.2.1

/-- The capacitance of a cell (R132): its own estimate in µF where CAP_SRC selects one that is valid. -/
def State.capacitance (s : State) (a k : Nat) : Nat :=
  let item := mapGet (fun _ => 0x10000) (s.view k).items 0
  if s.on (R.ARM_CFG_CAP_SRC a) && item != 0x10000 && item != 0xFFFF && item != 0 then fRatio false item 1000000 0
  else s.rd (R.ARM_CAP_CAP a)

def State.vPred (s : State) (a i k : Nat) : Nat :=
  let i := if f32Finite i then i else f0
  fAdd (s.vMeas k) (fDiv (fMul (fMul i (s.sigma k)) s.tcSeconds) (s.capacitance a k))

/-- vq of R133. -/
def quantise (v : Nat) : Nat :=
  let x := fMul v 0x40800000
  if f32NaN x then 16383
  else if !f32Finite x then (if fSign x then 0 else 16383)
  else (clampInt 0 16383 (fRneInt x)).toNat

/-- Entry 0 of the last record inserts or modulates with a polarity (R134). -/
def State.prevIns (s : State) (k j : Nat) (neg : Bool) : Bool :=
  let e := entryOf (mapGet (fun _ => idleRecord) s.lvl.records k) 0
  (if neg then e.1 == 3 || e.1 == 5 else e.1 == 2 || e.1 == 4) && (s.levelsOf k ≤ 1 || decide (j < e.2.2))

/-- The key index of a key. -/
def State.keyIndex (s : State) (x : Nat × Nat) : Nat := mapGet (fun _ => 0) s.lvl.keyOf x.1 + x.2

/-- The key word of an eligible key; V_pred has been written to the cell's view. -/
def State.keyWord (s : State) (a : Nat) (chg neg : Bool) (x : Nat × Nat) : Nat :=
  let v := s.view x.1
  let vq := quantise v.vpred
  let score := (if chg then vq else 16383 - vq) + v.hp + s.rd (R.ARM_BAL_SW_W a) * v.swc +
    (if s.prevIns x.1 x.2 neg then 0 else s.rd (R.ARM_BAL_HYST a))
  Nat.min 0x1FFFFF score * 1024 + s.keyIndex x

/-- The eligible keys in rank order (R136). -/
def State.ranked (s : State) (a : Nat) (chg neg : Bool) : List (Nat × Nat) :=
  let l := s.eligibleKeys a
  let keyed := l.map fun x => (s.keyWord a chg neg x, x)
  (keyed.mergeSort fun x y => decide (x.1 ≤ y.1)).map Prod.snd

/-! ### Insertion and selection (R128, R136 to R139) -/

/-- n* taken apart: the polarity is −1, n_int and d. -/
def split (n : Nat) : Bool × Nat × Nat :=
  let neg := fLt n f0
  let m := fAbs n
  let i := (fFloorInt m).toNat
  let d := (fRneInt (fMul (fSub m (fOfNat i)) 0x45800000)).toNat
  if d = 4096 then (neg, i + 1, 0) else (neg, i, d)

/-- The share of the `r`-th of `k` fractional ranks (R137). -/
def share (d k r : Nat) : Nat := d / k + if r < d % k then 1 else 0

def insertState (neg : Bool) : Nat := if neg then 3 else 2
def pwmState (neg : Bool) : Nat := if neg then 5 else 4

/-- State and duty of a fractional rank; a share of 0 gives ZERO. -/
def fracState (neg : Bool) (sh : Nat) : Nat × Nat := if sh = 0 then (1, 0) else (pwmState neg, sh)

/-- Entry 0 by rank (R136 to R138): the fractional roles go to the first ranks that are not barred. -/
def State.entry0 (s : State) (order : List (Nat × Nat)) (neg : Bool) (n d frac : Nat) : List (Nat × Nat) :=
  let free := (upto order.length).filter fun r => decide (n ≤ r) && !(s.view (order.getD r (0, 0)).1).rotBar
  let roles := if d = 0 then [] else free.take frac
  (upto order.length).map fun r =>
    if r < n then (insertState neg, 0)
    else
      match roles.idxOf? r with
      | some x => fracState neg (share d roles.length x)
      | none => (1, 0)

/-- A prediction entry by rank (R139): `down` takes the inserted ranks from the top. -/
def entryAhead (avail : Nat) (neg : Bool) (n d frac : Nat) (down : Bool) : List (Nat × Nat) :=
  let k := if d = 0 then 0 else Nat.min frac (avail - n)
  (upto avail).map fun r =>
    let r := if down then avail - 1 - r else r
    if r < n then (insertState neg, 0) else if r - n < k then fracState neg (share d k (r - n)) else (1, 0)

/-- clamp to the levels that an arm has. -/
def State.clampN (s : State) (a avail x : Nat) : Nat :=
  fClamp x (if s.fullBridge a then fNeg (fOfNat avail) else f0) (fOfNat avail)

/-- n*_j. -/
def State.ahead (s : State) (a avail n prev j : Nat) : Nat :=
  s.clampN a avail (fAdd n (fMul (fOfNat j) (fSub n prev)))

/-! ### Records (R140 to R143) -/

/-- An entry word. -/
def entryWord (state duty levels : Nat) : Nat := state + 16 * (duty % 4096) + 65536 * (levels % 256)

/-- A record of a format with four entry words. -/
def recordOf (format : Nat) (byp : Bool) (es : List Nat) : List Byte :=
  let frac := bitsOf (es.headD 0) 0 4 == 4 || bitsOf (es.headD 0) 0 4 == 5
  [BitVec.ofNat 8 (format + 16 * byp.toNat), BitVec.ofNat 8 (3 + 4 * frac.toNat)] ++
    ((upto 4).map fun e => bytesLE 3 (es.getD e 0)).flatten

/-- The entry of a cell from those of its keys (log entry 26): a plain cell takes its key's; a compound states the levels
inserted or modulated, with the duty of its first fractional key. -/
def joinKeys (levels : Nat) (es : List (Nat × Nat)) : Nat :=
  if levels ≤ 1 then
    let e := es.headD (1, 0)
    entryWord e.1 e.2 0
  else
    let on := es.filter fun e => decide (2 ≤ e.1)
    match on.find? fun e => decide (4 ≤ e.1) with
    | some e => entryWord e.1 e.2 on.length
    | none =>
      match on.head? with
      | some e => entryWord e.1 0 on.length
      | none => entryWord 1 0 0

/-- The entries of the keys of a cell, by rank lists. -/
def keyEntries (order : List (Nat × Nat)) (ranks : List (Nat × Nat)) (k levels : Nat) : List (Nat × Nat) :=
  (((order.zip ranks).filter fun e => e.1.1 == k).map Prod.snd) |> fun l => if levels ≤ 1 then l.take 1 else l

/-! ### Carriers (R145, R146) -/

/-- d_c coded: a state and a duty. A duty that is not a number has no stated code; `free` is then drawn. -/
def carrierCode (full : Bool) (free dc : Nat) : Nat × Nat :=
  let scale := if full then 0x45000000 else 0x45800000
  let code : Int := if f32Finite dc then fRneInt (fMul dc scale)
    else if full then (free % 4097 : Nat) - 2048 else (free % 4097 : Nat)
  if full then
    if 2048 ≤ code then (2, 0) else if code ≤ -2048 then (3, 0) else (6, ofSigned 12 code)
  else if code ≤ 0 then (1, 0) else if 4096 ≤ code then (2, 0) else (6, code.toNat)

/-- d_c of a cell for a duty uc. -/
def State.carrierDuty (s : State) (a uc mean vpred : Nat) (neg : Bool) : Nat :=
  let lo := if s.fullBridge a then fNeg f1 else f0
  let sgn := if neg then fNeg f1 else f1
  fClamp (fAdd uc (fDiv (fMul (fMul (s.rd (R.ARM_PSCBAL_BAL_G a)) sgn) (fSub mean vpred)) mean)) lo f1

/-! ### The build of an arm -/

/-- BLOCK_CAUSE of an arm, 0 where it is not blocked (R140). -/
def State.blockCause (s : State) (a avail : Nat) : Nat :=
  if s.crd (R.ARM_CFG_EN a) = 0 then 1
  else if s.on R.DEV_STATE_DRY_ACTIVE && (s.bit R.DRY_STATUS_ARM_BLOCKED a || bitOf s.sys.dry.reversed a) then 2
  else if avail = 0 then 3 else 0

/-- The record of a cell is kept, its class compared with the last one's (R135), and its run of PWM counted (R138). -/
def State.keepRecord (s : State) (a k : Nat) (rec' : List Byte) : State :=
  let st := (entryOf rec' 0).1
  let v := s.view k
  let changed := match v.last with
    | some l => l != st
    | none => false
  let s := s.onView k fun v => { v with last := some st, swc := if changed then satAdd 8 v.swc 1 else v.swc,
                                        pwmRun := if st = 4 ∨ st = 5 then satAdd 8 v.pwmRun 1 else 0 }
  let s := { s with lvl := { s.lvl with records := mapSet (fun _ => idleRecord) s.lvl.records k rec' } }
  s.when changed fun s => s.inc (R.ARM_CNT_SWITCHED a)

/-- Records of an arm in sorted insertion. -/
def State.buildSorted (s : State) (a : Nat) (n prev : Nat) (i : Nat) : State :=
  let neg := (split n).1
  let chg := (s.armL a).neg == neg
  let order := s.ranked a chg neg
  let avail := order.length
  let frac := s.crd (R.ARM_CFG_FRAC_N a)
  let zc := s.crossing a i
  let e0 := s.entry0 order neg (split n).2.1 (split n).2.2 frac
  let later := [1, 2, 3].map fun j =>
    let x := split (s.ahead a avail n prev j)
    let down := match zc with
      | some (num, den, _) => decide (num ≤ (1 + j) * den)
      | none => false
    entryAhead avail x.1 x.2.1 x.2.2 frac down
  s.forL (s.armCells a) fun k s =>
    let l := s.levelsOf k
    let es := (e0 :: later).map fun ranks => joinKeys l (keyEntries order ranks k l)
    s.keepRecord a k (recordOf 1 (s.view k).bypReq es)

/-- Records of an arm with phase-shifted carriers. -/
def State.buildCarrier (s : State) (a uc n prev : Nat) : State :=
  let keys := s.eligibleKeys a
  let avail := keys.length
  let neg := (s.armL a).neg
  let full := s.fullBridge a
  let mean := fDiv (fSum (keys.map fun x => (s.view x.1).vpred)) (fOfNat avail)
  let us := uc :: [1, 2, 3].map fun j => fDiv (s.ahead a avail n prev j) (fOfNat avail)
  s.forL (s.armCells a) fun k s =>
    if s.keyEligible (k, 0) then
      let ds := us.map fun u => s.carrierDuty a u mean (s.view k).vpred neg
      let (r, s) := if ds.all f32Finite then (0#32, s) else s.draw
      let es := ds.map fun d => let c := carrierCode full r.toNat d; entryWord c.1 c.2 0
      s.keepRecord a k (recordOf 2 (s.view k).bypReq es)
    else s.keepRecord a k (recordOf 2 (s.view k).bypReq (List.replicate 4 (entryWord 1 0 0)))

/-- SHORT of an arm (R127). -/
def State.armShort (s : State) (a avail : Nat) : Bool :=
  let m := s.rd (R.ARM_CFG_RUN_MIN a)
  m != 0 && decide (avail < m)

/-- One arm is built (R128 to R140); the flag says that its insertion saturated. -/
def State.buildArm (s : State) (a : Nat) : State × Bool :=
  let i := s.armCurrentLe a
  let neg := s.signNeg a i
  let zc := s.crossing a i
  let s := ((s.wr (R.ARM_COMM_SIGN a) neg.toNat).wr (R.ARM_COMM_ZC_VALID a) zc.isSome.toNat).wr (R.ARM_COMM_ZC_OFF a)
    (match zc with
      | some z => z.2.2
      | none => 0)
  let s := s.onArm a fun x => { x with neg := neg }
  let s := (s.armCells a).foldl (fun t k => t.onView k fun v =>
    { v with vpred := s.vPred a i k, rotBar := s.rotationDue k && v.eligible.any id }) s
  let avail := s.nAvail a
  let cause := s.blockCause a avail
  let s := ((s.wr (R.ARM_STATUS_N_AVAIL a) avail).wr (R.ARM_STATUS_BLOCK_CAUSE a) cause).put (R.ARM_STATUS_BLOCKED a) (cause != 0)
  let s := (s.put (R.ARM_STATUS_SHORT a) (s.armShort a avail)).putBit R.LVL_STATUS_BLOCKED a (cause != 0)
  let s := (s.wr (R.ARM_CNT_SWITCHED a) 0).wr (R.ARM_CNT_MISSING a) ((s.armCells a).filter s.slotMissing).length
  let (s, sat) :=
    if cause ≠ 0 then
      let s := ((s.setWord (R.ARM_INS_N_INT a).addr 0).wr (R.ARM_NSTAR_NSTAR a) f0).onArm a fun x => { x with nPrev := none }
      (s.forL (s.armCells a) fun k s => s.keepRecord a k (recordOf 0 (s.view k).bypReq [0, 0, 0, 0]), false)
    else
      let u := el (s.ctxAt (s.crd (R.ARM_REF_CTX a))).out (s.crd (R.ARM_REF_OUT a))
      let lo := if s.fullBridge a then fNeg f1 else f0
      let c := fClamp u lo f1
      let sat := !f32Finite u || !fEq c u
      let uc := if f32Finite u then c else (s.armL a).uPrev
      let n := fMul uc (fOfNat avail)
      let prev := (s.armL a).nPrev.getD n
      let x := split n
      let s := (((s.wr (R.ARM_INS_N_INT a) x.2.1).wr (R.ARM_INS_POL a) x.1.toNat).wr (R.ARM_INS_D a) x.2.2).wr (R.ARM_NSTAR_NSTAR a) n
      let s := if s.crd (R.ARM_CFG_MODE a) = 1 then s.buildCarrier a uc n prev else s.buildSorted a n prev i
      let s := s.onArm a fun y => { y with uPrev := uc, nPrev := some n }
      (s.when sat fun s => s.put (R.ARM_STATUS_INS_SAT a) true, sat)
  (s.onArm a fun x => { x with iPrev := some i }, sat)

/-- The whole build at t_LE (R150): every arm slot, in service or not. -/
def State.buildLevels (s : State) : State :=
  let s := (s.decay.testCells).bypassRequests
  let (s, sat) := (upto 6).foldl (fun (x : State × Bool) a =>
    let (s, b) := x.1.buildArm a
    (s, x.2 || b)) (s, false)
  let s := s.causeIs 40 ((upto 6).any fun a => s.on (R.ARM_STATUS_SHORT a))
  s.when sat fun s => s.raise 43

/-! ### Aggregates (R149) -/

/-- The highest and lowest of values. -/
def fMaxOf (l : List Nat) : Nat := l.tail.foldl fMax (l.headD f0)
def fMinOf (l : List Nat) : Nat := l.tail.foldl fMin (l.headD f0)

/-- Aggregates of an arm at t_CA, judged by the test `t` that t_LE will make of the same slots (log entry 27). -/
def State.armAggregates (t s : State) (a : Nat) : State :=
  let keys := t.eligibleKeys a
  let vs := keys.map fun x => s.vMeas x.1
  let n := keys.length
  let sum := fSum vs
  let ins := fSum (keys.map fun x => fMul (s.sigma x.1) (s.vMeas x.1))
  let hi := fMaxOf vs
  let lo := fMinOf vs
  let miss := ((s.armCells a).filter s.slotMissing).length
  let g := [sum, ins, if n = 0 then f0 else fDiv sum (fOfNat n), hi, lo, fOfNat n, s.rd (R.ARM_NSTAR_NSTAR a), s.armCurrent a,
    fOfNat (s.rd (R.ARM_CNT_SWITCHED a)), fOfNat miss, fSub hi lo, fOfNat ((s.armKeys a).length - n)]
  let stale := !s.neutral && keys.any fun x => s.slotMissing x.1
  (s.forN 12 fun j s => s.wr (R.ARM_AGG_AGG a j) (el g j)).onArm a fun x => { x with aggStale := stale }

def State.formAggregates (s : State) : State := s.forN 6 fun a x => State.armAggregates s.testCells x a

/-! ### External alignment (R147, R148) -/

/-- Ports of the arms in carrier mode. -/
def State.carrierPorts (s : State) : List Nat :=
  (upto 48).filter fun p => s.strandInService p && s.carrierArm (s.portArm p)

/-- The boundary nearest to now, as a period number, where now lies within TOL of it. -/
def State.nearBoundary (s : State) : Option Nat :=
  let tol := s.crd R.SYNC_CFG_TOL * 10
  if s.now ≤ s.sys.t0 + tol then some s.sys.period
  else if s.sys.t0 + s.periodNs ≤ s.now + tol then some (s.sys.period + 1) else none

/-- An ignored edge counts. -/
def State.syncIgnored (s : State) : State := s.inc R.SYNC_STATUS_ERR_CNT

/-- Period `k` is a carrier start of the arms in carrier mode (R147). -/
def State.carrierStart (s : State) (a k : Nat) : Bool :=
  let n := s.crd (R.ARM_PSC_CAR_N a)
  n != 0 && (k + n * s.lvl.pAlign - s.lvl.pAlign) % n == 0

/-- A valid edge while the cells are blocked: P_align moves from the next boundary, and ALIGN goes to the cells. -/
def State.realign (s : State) (k : Nat) : State :=
  let s := { s with lvl := { s.lvl with alignNext := some k, syncErr := false } }
  let s := s.put R.SYNC_STATUS_ALIGNED true
  s.forL s.carrierPorts fun p s =>
    let n := s.crd (R.ARM_PSC_CAR_N (s.portArm p))
    (s.when s.controls fun s => s.put R.DEV_STATE_BUSY true).askFirst p [own .align (reqAll 2 0 0x20018 (if n = 0 then 0 else k % n))]

def State.syncEdge (s : State) : State :=
  if s.rd R.SYNC_CFG_IN_EN = 0 then s
  else
    match s.nearBoundary with
    | none => s.syncIgnored
    | some k =>
      if s.st == St.energised || s.st == St.faultBlock then s.realign k
      else if s.st == St.deblocked then
        let carriers := (upto 6).filter fun a => s.crd (R.ARM_CFG_EN a) == 1 && s.crd (R.ARM_CFG_MODE a) == 1
        if carriers.all fun a => s.carrierStart a k then { s with lvl := { s.lvl with syncErr := false } }
        else
          let first := !s.lvl.syncErr
          let s := { s with lvl := { s.lvl with syncErr := true } }
          (s.put R.SYNC_STATUS_ERR true).syncIgnored.when first fun s => s.raise 42
      else s

def execLvlSyncInEdge (s : State) : Out :=
  .next (s.when (s.st != St.reset && s.st != St.selfTest && s.st != St.locked) State.syncEdge)

/-- At a boundary: the alignment that waits takes effect, and LVL_SYNC_OUT marks a carrier start (R147, R148). -/
def State.syncBoundary (s : State) : State :=
  let s := match s.lvl.alignNext with
    | some k => { s with lvl := { s.lvl with pAlign := k, alignNext := none } }
    | none => s
  let a := s.crd R.SYNC_CFG_SYNC_ARM
  s.when (s.inService && s.crd R.SYNC_CFG_OUT_EN == 1 && decide (a ≤ 5) && s.carrierStart a s.sys.period) fun s => s.send .syncOut

/-! ### The cell window (R153) -/

/-- CELL_LSTAT of a handle. -/
def State.cellLstat (s : State) (h : Nat) : Nat :=
  let k := keyOfExt h
  let l := s.levelsOf k
  if l = 0 ∨ 2 ^ 13 ≤ h then 7 * 32
  else
    let v := s.view k
    let r := mapGet (fun _ => idleRecord) s.lvl.records k
    1 + 2 * (v.eligible.headD false).toNat + 4 * v.cause + 32 * s.cellArm k + 256 * mapGet (fun _ => 0) s.lvl.keyOf k +
      2 ^ 18 * v.swc + 2 ^ 26 * v.rotBar.toNat + 2 ^ 27 * (bitOf (byteAt r 0) 4).toNat

end Sys2Proof.Machine
end

