-- ==== Sys2Proof/Machine/Health.lean ====
section
/-! DEFINITION. The commands of health and ageing: the status latch and the estimators of a cell (R295, R502 to R509), and
the KC8400's ranking, images and ageing monitors (R513 to R517). -/

namespace Sys2Proof.Machine

/-! ### Cells -/

def execStatusLatch (cell : BitVec 64) (s : State) : Out := .next (s.onCell cell.toNat Cell.latchAll)

def execTempSample (cell : BitVec 64) (s : State) : Out := .next (s.onCell cell.toNat Cell.tempSample)

def execHoursTick (cell : BitVec 64) (s : State) : Out := .next (s.onCell cell.toNat Cell.hourSecond)

def execDamageCalc (cell : BitVec 64) (s : State) : Out := .next (s.onCell cell.toNat fun c => c.damage s.now)

def execDailyHistory (cell : BitVec 64) (s : State) : Out := .next (s.onCell cell.toNat fun c => c.daily s.now)

/-- A write of HCTL with LOADED = 1 clears FRESH (R515). -/
def execHctlLoaded (cell : BitVec 64) (s : State) : Out :=
  .next (s.onCell cell.toNat fun c => (c.writeReg s.now 0x800C0 2).1)

/-- A write of C_NOM, or of ESR0 (R502). -/
def execHcfgNomWrite (cell : BitVec 64) (esr : Bool) (value : BitVec 32) (s : State) : Out :=
  .next (s.onCell cell.toNat fun c => (c.writeReg s.now (if esr then 0x80014 else 0x80010) value.toNat).1)

/-! ### Ranking (R511, R513) -/

/-- The kept value of an item of a cell; 1_0000h before the first. -/
def State.keptItem (s : State) (k n : Nat) : Nat := mapGet (fun _ => 0x10000) (s.view k).items n

/-- The kept DAYS of a cell, FFFFh where they are not known. -/
def State.keptDays (s : State) (k : Nat) : Nat := Nat.min 0xFFFF (s.keptItem k 7)

/-- Cells of an arm by kept DAYS and handle, without those that report BYPASSED. -/
def State.healthOrder (s : State) (a : Nat) : List Nat :=
  let live := (s.armCells a).filter fun k => bitsOf (byteAt (s.view k).slot 0) 0 4 != Mode.bypassed || (s.view k).slot.isEmpty
  sortBy (fun k => s.keptDays k * 2 ^ 13 + k) live

/-- The rank words of an arm and its counts. -/
def State.rankArm (s : State) (a : Nat) : State :=
  let order := s.healthOrder a
  let handle := fun k => s.kcx * 2 ^ 13 + k
  let s' := s.forN 8 fun r x =>
    match order[r]? with
    | some k => (x.wr (R.HLT_RANK_HANDLE a r) (handle k)).wr (R.HLT_RANK_DAYS a r) (s.keptDays k)
    | none => (x.wr (R.HLT_RANK_HANDLE a r) 0xFFFF).wr (R.HLT_RANK_DAYS a r) 0xFFFF
  let count := fun b => ((s.armCells a).filter fun k => bitOf (s.keptItem k 8) b).length
  let s' := (s'.wr (R.HARM_ST_N_ALARM a) (count 7)).wr (R.HARM_ST_N_KNOWN a) (count 6)
  (s'.wr (R.HARM_WORST_DAYS a) (s'.rd (R.HLT_RANK_DAYS a 0))).wr (R.HARM_WORST_HANDLE a) (s'.rd (R.HLT_RANK_HANDLE a 0))

def execHealthRank (s : State) : Out :=
  .next (s.forN 6 fun a s => s.when (s.on (R.ARM_CFG_EN a)) fun s => s.rankArm a)

/-! ### Images (R514) -/

/-- Cells of a port with verdict OK: positions, then members of the port's heads. -/
def State.okCells (s : State) (p : Nat) : List Nat :=
  let ps := ((upto 96).filter fun i => s.rd (R.EXP_W3_VERDICT p i) == Verdict.ok).map fun i => s.extAddr p i 0
  let ms := ((upto 1024).filter fun e =>
      s.on (R.MEMB_W2_EXPECT e) && s.rd (R.MEMB_W3_VERDICT e) == Verdict.ok && bitsOf (s.rd (R.MEMB_W6_HEAD e)) 7 6 == p).map fun e =>
    s.extAddr p (bitsOf (s.rd (R.MEMB_W6_HEAD e)) 0 7) (s.rd (R.MEMB_W7_PATH e))
  ps ++ ms

/-- SAVE_M minutes have passed: HCTL of each cell is read, and where FRESH = 0 the words of its image. -/
def execHealthImageSave (s : State) : Out :=
  .next (if !s.on R.HLT_CFG_IMG_EN then s
    else if !s.imageAvailable then s.imageError
    else s.forN 48 fun p s => s.ask p ((s.okCells p).map fun c => own (.imageFresh c true) (imageReq 1 c 0x800C0 0)))

/-! ### Ageing monitors (R516, R517) -/

/-- DAYS of one monitor: none where it gives no value. -/
def State.monitorDays (s : State) (delta : Nat) : Option Nat :=
  let h := s.rd R.AGE_H
  let lim := s.rd R.MON_DLIM_DLIM
  if !fLt f0 delta ∨ h = 0 then none
  else if fLe lim delta then some 0
  else
    let x := (Config.agePower (fDiv lim delta) (fDiv f1 (s.rd R.MON_NEXP_NEXP))).toNat
    let y := fSub (fMul (fOfNat h) x) (fOfNat h)
    if !f32Finite y then some 0xFFFFFFFE
    else some ((clampInt 0 (0xFFFFFFFE * 24) (fFloorInt y) / 24).toNat)

/-- δ in units of 10^-5. -/
def deltaCode (delta : Nat) : Nat :=
  let y := fMul delta (fOfNat 100000)
  if !f32Finite y then (if fSign y then 0x8000 else 0x7FFF) else ofSigned 16 (clampInt (-0x8000) 0x7FFF (fRneInt y))

/-- A measurement of the sixteen monitors, each given as (f_s / f_u) / RATIO0; none without REFCLK. -/
def State.ageingMeasure (s : State) (ratios : List Nat) : State :=
  if ratios.isEmpty then s
  else
    let ds := (upto 16).map fun m => fSub f1 (ratios.getD m f1)
    let s := s.forN 16 fun m s => s.wr (R.HLT_MON_DELTA m) (deltaCode (ds.getD m 0))
    let days := (ds.zipIdx).filterMap fun x => (s.monitorDays x.1).map fun n => (n, x.2)
    let best := days.foldl (fun b x => match b with
      | none => some x
      | some y => if x.1 < y.1 then some x else b) none
    let s := match best with
      | some (n, m) => (s.wr R.HLT_CHIP_DAYS n).wr R.HLT_CHIP_ST_WORST_MON m
      | none => (s.wr R.HLT_CHIP_DAYS 0xFFFFFFFF).wr R.HLT_CHIP_ST_WORST_MON 0
    s.put R.HLT_CHIP_ST_ALARM (decide (s.rd R.HLT_CHIP_DAYS ≤ s.rd R.HLT_CHIP_ST_CHIP_ALM_DAYS))

def execAgeingMeasure (ratios : List (BitVec 32)) (s : State) : Out := .next (s.ageingMeasure (ratios.map BitVec.toNat))

/-- A whole hour with VDD_CORE up after SELF-TEST (R517). -/
def execAgeHour (s : State) : Out := .next (s.when (s.st != St.reset && s.st != St.selfTest) fun s => s.inc R.AGE_H)

end Sys2Proof.Machine
end

