-- ==== Sys2Proof/Machine/Faults.lean ====
section
/-! DEFINITION. Commands of the fault collector (R410 to R422, R427, R428) and the counts and windows of cell faults
(R426, R429). -/

namespace Sys2Proof.Machine

def execFaultSourceRaise (events : List Raise) (s : State) : Out := .next (s.raiseAll events)

def execFaultCauseAbsent (src : Fin 128) (s : State) : Out :=
  .next (s.when (s.levelSource src && !reservedSource src) fun s => s.causeAbsent src)

/-- Cells whose kept class is `c` (R426). -/
def State.cellCount (s : State) (c : Nat) : Nat := (s.lvl.views.filter fun e => e.2.cls == c).length

/-- FLT_CELLCNTn as read. -/
def State.cellCounts (s : State) (n : Nat) : Nat :=
  match n with
  | 0 => s.cellCount 1 + 65536 * s.cellCount 2
  | 1 => s.cellCount 3 + 65536 * s.cellCount 4
  | _ => s.cellCount 5

/-- CELL_FLT of a handle. -/
def State.cellFlt (s : State) (h : Nat) : Nat :=
  let v := s.view (bitsOf h 7 6 * 128 + bitsOf h 0 7)
  v.cls + 8 * v.src + 256 * v.trip + 2 ^ 12 * v.gflt.toNat + 2 ^ 13 * v.bypf.toNat + 65536 * v.rises

end Sys2Proof.Machine
end

