-- ==== Sys2Proof/Machine/Time.lean ====
section
/-! DEFINITION. The 80-bit time (R349 to R353), IEEE 1588 (R354 to R356), transmit stamps and timed launches (R357 to
R359), and the time loads that cells miss (R362). -/

namespace Sys2Proof.Machine

/-! ### Stepping the time (R352) -/

/-- The seconds words and nanoseconds of a time. -/
def secOf (t : Nat) : Nat := t / 1000000000
def nsOf (t : Nat) : Nat := t % 1000000000

/-- A time moved by a step, never below 0. -/
def stepNat (d : Int) (t : Nat) : Nat := ((t : Int) + d).toNat

/-- The instants that a cell keeps move with the KC8400's time, so that its own clock does not. -/
def Cell.stepTime (c : Cell) (d : Int) : Cell :=
  { c with tm := { c.tm with off := (((c.tm.off : Int) - 256 * d) % (2 ^ 40 : Int)).toNat },
           pw := { c.pw with tb := stepNat d c.pw.tb, offAt := c.pw.offAt.map (stepNat d), carAt := stepNat d c.pw.carAt,
                             stretch := c.pw.stretch.map (stepNat d) },
           lk := { c.lk with lastGood := stepNat d c.lk.lastGood } }

/-- Time, step and boundary are loaded anew into every enumerated cell and member of a port (R352, R362). -/
def State.reloadPort (s : State) (p : Nat) : State :=
  let s := s.forN 96 fun pos s => s.when (s.rd (R.EXP_W3_VERDICT p pos) == Verdict.ok) fun s => s.ask p (maintWrites pos 0)
  s.forN 1024 fun e s =>
    s.when (s.rd (R.MEMB_W3_VERDICT e) == Verdict.ok && bitsOf (s.rd (R.MEMB_W6_HEAD e)) 7 6 == p) fun s =>
      s.ask p (maintWrites (bitsOf (s.rd (R.MEMB_W6_HEAD e)) 0 7) (s.rd (R.MEMB_W7_PATH e)))

/-- The time steps to `t`; the period number and its boundary follow (R351). -/
def State.stepTo (s : State) (t : Nat) : State :=
  let d : Int := (t : Int) - (s.now : Int)
  let cells := (mapKeys s.cells).foldl (fun m k => mapUpd cellDefault m k fun c => c.stepTime d) s.cells
  let p := t / s.periodNs
  let s := { s with now := t, nowFrac := 0, cells := cells, sys := { s.sys with period := p, t0 := p * s.periodNs } }
  let s := s.put R.TIM_STATUS_STEPPED true
  (upto 48).foldl (fun s p => s.reloadPort p) s

/-- A write of TIM_SET.GO (R352). -/
def State.timSetGo (s : State) (v : Nat) : State :=
  if s.writable then
    let s := s.wr R.TIM_SET_SECHI_SEC_HI (bitsOf v 0 16)
    let t := (bitsOf v 0 16 * 2 ^ 32 + s.rd R.TIM_SET_SECLO_SEC_LO) * 1000000000 + s.rd R.TIM_SET_NS_NS
    let s := s.stepTo t
    { s with tim := { s.tim with valid := true } }
  else s.when s.inService fun s => s.put R.TIM_STATUS_STEP_REFUSED true

def execTimSetGo (value : BitVec 32) (s : State) : Out := .next (s.timSetGo value.toNat)

/-! ### IEEE 1588 (R353 to R356) -/

/-- The unit steers from its own servo (R350): SOLO or ACTIVE and, in a formed accord, of the top lead. -/
def State.timeSource (s : State) : Bool := s.accepting

/-- The ports that SRC lets run PTP: 1 NETA, 2 NETB, 3 both. -/
def State.ptpOn (s : State) (n : Nat) : Bool := bitOf (s.rd R.TIM_CFG_SRC) n && s.on (R.PTP_CFG_EN n)

/-- An event message has left a port: its stamp enters the FIFO, or is discarded where it is full (R358). -/
def State.addStamp (s : State) (n : Nat) (e : Stamp) : State :=
  let l := mapGet noneAt s.tim.stamps n
  if 16 ≤ l.length then s.put (R.PTP_TXTS_ID_OVF n) true
  else { s with tim := { s.tim with stamps := mapSet noneAt s.tim.stamps n (l ++ [e]) } }

/-- TX_LAT in ns, rounded to nearest. -/
def State.txLat (s : State) (n : Nat) : Nat := rneDiv (s.rd (R.PTP_LAT_TX_LAT n)) 10

/-- A port sends a PTP event message: its stamp refers to the reference plane (R357). -/
def State.sendPtp (s : State) (n type seq : Nat) : State :=
  let cls := if s.tim.limit then s.rd (R.PTP_STATE_HOLD_CLASS n) else s.rd (R.PTP_STATE_CLASS n)
  (s.send (.ptp n type seq cls)).when (decide (type < 4)) fun s => s.addStamp n ⟨s.now + s.txLat n, seq, type⟩

/-- Once per second each running port sends what its state asks for: a master Announce and Sync, a slave of profile 1 its
Delay_Req, and every port of profile 0 its Pdelay_Req (R354). -/
def State.ptpSecond (s : State) : State :=
  s.forN 2 fun n s =>
    if !s.ptpOn n then s
    else
      let q := mapGet (fun _ => 0) s.tim.seq n
      let s := { s with tim := { s.tim with seq := mapSet (fun _ => 0) s.tim.seq n ((q + 1) % 65536) } }
      let st := s.rd (R.PTP_STATE_PSTATE n)
      let s := s.when (st == 6) fun s => (s.sendPtp n 11 q).sendPtp n 0 q
      if s.on R.TIM_CFG_PROFILE then s.when (st == 9) fun s => s.sendPtp n 1 q else s.sendPtp n 2 q

/-- Holdover ends: a master is valid again (R355). -/
def State.holdoverEnds (s : State) : State :=
  let s := (s.put R.TIM_STATUS_HOLDOVER false).causeAbsent 80
  { s with tim := { s.tim with limit := false } }

/-- The rate correction the servo asks for, held within RATE_MAX (R353): what it asks for is open (log entry 29). -/
def State.servo (s : State) : State :=
  let (r, s) := s.draw
  let lim : Int := (s.rd R.TIM_CFG_RATE_MAX : Int) * 1000000
  let want := r.toInt
  let s := s.wr R.TIM_RATE_RATE (ofSigned 32 (clampInt (-lim) lim want))
  s.when (decide (want < -lim) || decide (lim < want)) fun s => (s.put R.TIM_STATUS_RATE_LIM true).raise 81

/-- A new offset from the master, in ns (R352, R353, R355). -/
def State.newOffset (s : State) (off : Int) : State :=
  let s := s.wr R.TIM_OFFSET_OFFSET (ofSigned 32 (clampInt (-0x80000000) 0x7FFFFFFF off))
  if !s.timeSource then { s with tim := { s.tim with valid := true } }
  else
    let s := s.holdoverEnds
    if s.writable && decide (s.rd R.TIM_CFG_STEP_THR * 1000 < off.natAbs) then
      ((s.stepTo (stepNat (-off) s.now)).put R.TIM_STATUS_SLEWING false).put R.TIM_STATUS_LOCKED true
    else ((s.servo).put R.TIM_STATUS_SLEWING (decide (1000 < off.natAbs))).put R.TIM_STATUS_LOCKED true

/-- portState of a recommendation: master, slave or passive, a slave-only port never master. -/
def State.portState (s : State) (n role : Nat) : Nat :=
  if role = 0 then (if s.on (R.PTP_CFG_SLAVE_ONLY n) then 4 else 6) else if role = 1 then 9 else 7

def State.ptpMessage (s : State) (n : Nat) : PtpMsg → State
  | .announce role => s.wr (R.PTP_STATE_PSTATE n) (s.portState n role)
  | .sync origin corr =>
    if s.rd (R.PTP_STATE_PSTATE n) = 9 then
      let rx : Int := (s.now : Int) * 10 - (s.rd (R.PTP_LAT_RX_LAT n) : Int)
      let off := rx - (origin.toNat : Int) * 10 - corr.toInt - (s.rd (R.PTP_DLY_MEAN_DLY n) : Int)
      s.newOffset (rneDivInt off 10)
    else s
  | .delay mean => s.wr (R.PTP_DLY_MEAN_DLY n) mean.toNat
  | .request type seq => s.sendPtp n (if type.val = 2 then 3 else 9) seq.toNat
  | .discarded => s

def execPtpMessage (port : Fin 2) (domain : BitVec 8) (msg : PtpMsg) (s : State) : Out :=
  .next (s.when (s.inputsRun && s.ptpOn port && domain.toNat == s.rd (R.PTP_CFG_DOMAIN port)) fun s => s.ptpMessage port msg)

def execAnnounceTimeout (s : State) : Out :=
  .next (s.when (s.timeSource && s.rd R.TIM_CFG_SRC != 0 && !s.on R.TIM_STATUS_HOLDOVER) fun s =>
    (((s.put R.TIM_STATUS_HOLDOVER true).put R.TIM_STATUS_LOCKED false).wr R.TIM_HOLD_HOLD_S 0).causePresent 80)

def execHoldoverLimit (s : State) : Out :=
  .next (s.when (s.on R.TIM_STATUS_HOLDOVER && decide (s.rd R.TIM_HOLD_HOLD_LIM ≤ s.rd R.TIM_HOLD_HOLD_S)) fun s =>
    { s with tim := { s.tim with limit := true } })

/-! ### Transmit stamps and timed launches -/

def execTxtsNext (port : Fin 2) (s : State) : Out :=
  .next { s with tim := { s.tim with stamps := mapUpd noneAt s.tim.stamps port.val (List.drop 1) } }

/-- The words of the oldest stamp of a port, +10h to +1Ch. -/
def State.stampWord (s : State) (n i : Nat) : Nat :=
  let ovf := 2 ^ 21 * s.rd (R.PTP_TXTS_ID_OVF n)
  match mapGet noneAt s.tim.stamps n with
  | [] => if i = 3 then ovf else 0
  | e :: _ =>
    match i with
    | 0 => nsOf e.time
    | 1 => secOf e.time % 2 ^ 32
    | 2 => secOf e.time / 2 ^ 32 % 2 ^ 16
    | _ => e.seq + 65536 * e.type + 2 ^ 20 + ovf

/-- A push with the word that carries SEC_HI and PUSH (R359). -/
def State.launchPush (s : State) (n v : Nat) : State :=
  let s := s.wr (R.LQ_SECHI_T_SEC_HI n) (bitsOf v 0 16)
  let l := mapGet noneAt s.tim.queue n
  if 16 ≤ l.length then s.put (R.LQ_STATUS_FULL_REF n) true
  else
    let t := (s.rd (R.LQ_SECHI_T_SEC_HI n) * 2 ^ 32 + s.rd (R.LQ_SECLO_T_SEC_LO n)) * 1000000000 + s.rd (R.LQ_NS_T_NS n)
    let e : LaunchE := { addr := s.rd (R.LQ_ADDR_ADDR n), len := s.rd (R.LQ_LEN_LEN n), time := t }
    { s with tim := { s.tim with queue := mapSet noneAt s.tim.queue n (l ++ [e]) } }.wr (R.LQ_STATUS_DEPTH n) (l.length + 1)

def execLaunchPush (port : Fin 2) (value : BitVec 32) (s : State) : Out := .next (s.launchPush port value.toNat)

/-- The head entry of a queue comes up: it is sent for its launch time, or discarded where that has passed (R359). -/
def State.timedLaunch (s : State) (n : Nat) : State :=
  match mapGet noneAt s.tim.queue n with
  | [] => s
  | e :: rest =>
    let s := { s with tim := { s.tim with queue := mapSet noneAt s.tim.queue n rest } }.wr (R.LQ_STATUS_DEPTH n) rest.length
    if e.time < s.now then s.inc (R.LQ_STATUS_LATE n) else s.send (.station n (s.loadBytes e.addr e.len))

def execTimedLaunch (port : Fin 2) (s : State) : Out := .next (s.timedLaunch port)

/-- TIM_STATUS as read: VALID and FOLLOWER follow the role (R350). -/
def State.timStatus (s : State) : Nat :=
  setBits (setBits (s.word (R.TIM_STATUS_VALID).addr) 0 1 (s.timeSource || s.tim.valid).toNat) 1 1 (!s.timeSource).toNat

/-- One second of time has passed at the KC8400: the seconds of holdover count, and PTP ports send (R354, R355). -/
def State.secondPassed (s : State) : State :=
  let s := s.when (s.on R.TIM_STATUS_HOLDOVER) fun s => s.inc R.TIM_HOLD_HOLD_S
  s.when s.inputsRun State.ptpSecond

/-! ### Command frames at a cell, and the loads it misses -/

/-- A command frame passes a cell. Where the cell's armed time load has passed by unused, the KC8400 loads again and
source 51 has an event (R362). -/
def execCommandFrameAtCell (cell : BitVec 64) (port : Fin 2) (frame : List Byte) (s : State) : Out :=
  let id := cell.toNat
  let was := (s.cell id).on K.TM_ST_MISSED
  let s := s.commandAtCell id port frame
  .next (
    if !was && (s.cell id).on K.TM_ST_MISSED then
      match cellPort (id % 2 ^ 13) with
      | some p => (s.raiseAt 51 0 0 (id % 2 ^ 16)).ask p (loadWrites .plain (bitsOf id 0 7) (pathOf id))
      | none => s
    else s)

end Sys2Proof.Machine
end

