-- ==== Sys2Proof/Machine/TieLink.lean ====
section
/-! DEFINITION. The tie link of a pair (R287 to R292, R297, R300, R319 to R324): training and roles, the messages as they
are taken, slot copies, mailbox traffic, health and comparison. -/

namespace Sys2Proof.Machine

/-! ### Link and roles (R289, R291, R321) -/

/-- The highest version that two ranges share; none where they share none or differ in their major (R233). -/
def sharedVersion (lo hi lo' hi' : Nat) : Option Nat :=
  let l := Nat.max lo lo'
  let h := Nat.min hi hi'
  if lo / 16 = lo' / 16 ∧ l ≤ h then some h else none

/-- The partner of an ACTIVE is ready: STANDBY, not late, and the link is up (R319). -/
def State.partnerReady (s : State) : Bool :=
  s.tieUp && s.rd R.TIE_STATUS_PART_ROLE == Role.standby && !s.tie.partYield && decide (s.tie.healthMiss < 3)

/-- READY and the redundancy-lost source of an ACTIVE follow its partner (R319). -/
def State.redundancy (s : State) : State :=
  if s.role = Role.active then (s.put R.TIE_STATUS_READY s.partnerReady).causeIs 74 (!s.partnerReady) else s.causeAbsent 74

/-- The role changes and the partner is told (R291, R324). -/
def State.changeRole (s : State) (r : Nat) : State :=
  if s.role = r then s else ((s.takeRole r).sendTie 7 3 (bytesLE 8 0)).redundancy

/-- A unit starts joining (R316). -/
def State.startJoining (s : State) : State :=
  let s := { s with tie := { s.tie with joining := true, shadowing := false, matched := false } }
  ((s.put R.TIE_STATUS_IMAGE_DONE false).put R.TIE_STATUS_SWEEP_DONE false).put R.TIE_STATUS_READY false

/-! ### What is mirrored (R293, R316) -/

/-- A field reached through the mirrored objects (R293, R526). -/
def mirrored (a : Nat) : Bool :=
  match a / 0x100000 with
  | 0x411 => a != R.STATE_CMD_CMD.addr && !(decide (0x41100200 ≤ a) && decide (a < 0x41100210))
  | 0x400 | 0x407 | 0x408 | 0x406 | 0x40F => true
  | 0x401 => !(decide (0x40100F00 ≤ a) && decide (a < 0x40101000))
  | 0x402 => !(decide (0x40201000 ≤ a) && decide (a < 0x40204000) && decide (0x20 ≤ a % 0x100) && decide (a % 0x100 < 0x3C))
  | 0x404 => !(decide (0x40400020 ≤ a) && decide (a < 0x40400040))
  | _ => false

/-- The internal address of a coefficient word, as mirrored writes carry it. -/
def coefAddr (i page w : Nat) : Nat := 0x30000000 + ((2 * i + page) * 2048 + w) * 4

/-- The ACTIVE sends every mirrored field to a unit that joins (R316). -/
def State.sendImage (s : State) : State :=
  if s.role = Role.active && s.tieUp && s.inService then
    s.send (.image ((s.regs.filter fun e => mirrored e.1).map (fun e => (e.1, e.2.toNat)) ++
      s.ctl.coef.map fun e => (0x30000000 + 4 * e.1, e.2.toNat)))
  else s

/-- The role that R291 gives as the link trains. -/
def State.roleAtTraining (s : State) (claim : Bool) : Nat :=
  if claim then Role.relay
  else if s.role = Role.solo ∨ s.role = Role.active ∨ s.rd R.TIE_STATUS_PAIR_ID = 0 then Role.active
  else Role.relay

/-- A lane completes training: each side's version range and the second set with PAIR_ID and CLAIM (R289, R291). -/
def State.laneTrained (s : State) (lane lo hi d2 : Nat) : State :=
  match sharedVersion 0x10 0x11 lo hi with
  | none => s.put (R.IF_VER_NONE 1) true
  | some v =>
    let was := s.tieUp
    let s := (s.putBit R.TIE_STATUS_LANES lane true).wr (R.IF_VER_RUN 1) v
    let s := s.put (R.IF_VER_NONE 1) false
    let s := { s with tie := { s.tie with ver := v, downSince := none } }
    let s := s.startDly (.tie (Fin.ofNat 2 lane))
    if was then s
    else
      let s := s.causeAbsent 75
      if bitOf d2 0 == s.on R.TIE_STATUS_PAIR_ID then s.put R.TIE_STATUS_ID_CONFLICT true
      else
        let s := s.put R.TIE_STATUS_ID_CONFLICT false
        if s.st = St.reset ∨ s.st = St.selfTest ∨ s.st = St.locked ∨ s.tie.yielded then s
        else
          let r := s.roleAtTraining (bitOf d2 1)
          let s := s.changeRole r
          (s.when (r == Role.relay) State.startJoining).sendImage

def execTieLaneTrained (lane : Fin 2) (lowest highest d2 : BitVec 8) (s : State) : Out :=
  .next (s.when (s.st != St.reset && s.st != St.selfTest) fun s => s.laneTrained lane lowest.toNat highest.toNat d2.toNat)

/-- The link is down (R321): both units raise the tie-link source; a STANDBY bridges every period from now on. -/
def State.linkDown (s : State) : State :=
  let s := s.wr R.TIE_STATUS_LANES 0
  let s := { s with tie := { s.tie with downSince := some s.now, joining := false, shadowing := false } }
  (s.causePresent 75).redundancy

def execTieLinkDown (s : State) : Out := .next (s.when s.tieUp State.linkDown)

/-- A tie lane loses block lock (R184, R288, R326). -/
def State.laneLost (s : State) (lane : Nat) : State :=
  if s.bit R.TIE_STATUS_LANES lane then
    let s := (s.putBit R.TIE_STATUS_LANES lane false).inc (R.TIE_LANE_LOCK_LOSS lane)
    s.when (!s.tieUp) State.linkDown
  else s

/-- The time since the link went down, in ns; none while it is up. -/
def State.downFor (s : State) : Option Nat := s.tie.downSince.map fun t => s.now - t

def execTieHoldExpiry (s : State) : Out :=
  .next (match s.downFor with
    | some d => s.when (s.role == Role.standby && decide (s.rd R.TIE_CFG_TIE_HOLD * 1000000 ≤ d)) fun s =>
        (s.put R.TIE_STATUS_READY false).changeRole Role.relay
    | none => s)

/-- The row of R291 that makes a unit without a link SOLO. -/
def State.soloDue (s : State) : Bool :=
  !s.tieUp && !s.on R.TIE_STATUS_PAIR_ID && !s.tie.held && !s.tie.yielded && s.role == Role.relay && s.inputsRun &&
    s.st != St.locked && decide (s.tie.safeAt + s.tie.wait * 1000000 ≤ s.now)

def execTieWaitExpiry (s : State) : Out := .next (s.when s.soloDue fun s => s.changeRole Role.solo)

/-! ### Messages as taken (R323) -/

namespace Msg
def type (m : List Byte) : Nat := byteAt m 0
def role (m : List Byte) : Nat := bitsOf (byteAt m 2) 1 3
def yieldOut (m : List Byte) : Bool := bitOf (byteAt m 2) 4
def ae (m : List Byte) : Nat := byteAt m 3
def period (m : List Byte) : Nat := leAt m 4 4
def length (m : List Byte) : Nat := leAt m 8 2
def arg (m : List Byte) : Nat := leAt m 10 2
def body (m : List Byte) : List Byte := (m.drop 16).take (length m)
/-- Header and body carry their check codes. -/
def good (m : List Byte) : Bool :=
  m.length == 24 + length m && length m % 8 == 0 && leAt m 12 4 == crc32c (m.take 12) &&
    leAt m (16 + length m) 4 == crc32c (body m)
end Msg

/-- A follower takes the low 32 bits of the period number from the messages of its source and the upper bits that put the
boundary nearest to its own time (R290, R350). -/
def State.followPeriod (s : State) (low : Nat) : State :=
  if s.timeSource || !s.tim.valid || s.sys.period % 2 ^ 32 == low then s
  else
    let guess := s.now / s.periodNs
    let base := guess - guess % 2 ^ 32 + low
    let p := if guess + 2 ^ 31 < base ∧ 2 ^ 32 ≤ base then base - 2 ^ 32 else if base + 2 ^ 31 < guess then base + 2 ^ 32 else base
    { s with sys := { s.sys with period := p, t0 := p * s.periodNs } }

/-- A message of a type arrives on a lane: a bad one is discarded and counts (R323); a good one shows the partner's role
and YIELD, and then acts. -/
def State.tieMessageIn (s : State) (lane type : Nat) (m : List Byte) (act : State → State) : State :=
  if !s.bit R.TIE_STATUS_LANES lane || s.on R.TIE_STATUS_ID_CONFLICT then s
  else if !Msg.good m then (s.inc (R.TIE_LANE_CRC_ERR lane)).raise 76
  else if Msg.type m ≠ type then s
  else
    let s := s.wr R.TIE_STATUS_PART_ROLE (Msg.role m)
    let s := { s with tie := { s.tie with partYield := Msg.yieldOut m } }
    let s := if Msg.role m = Role.active then (s.followPeriod (Msg.period m)).when (s.role == Role.standby || s.role == Role.relay) fun s =>
        s.wr R.TIE_STATUS_AE (Msg.ae m) else s
    (act s).redundancy

/-! ### Slot copies (R297) -/

/-- The unit's own good copy of a status slot of the present period, as it goes into a SLOT message. -/
def State.slotCopy (s : State) (p pos : Nat) : List Byte :=
  if (s.port p).good.contains pos then
    BitVec.ofNat 8 pos :: List.replicate 7 0#8 ++ slotBytes pos s.sys.period (s.view (cellKey p pos)).slot
  else []

def execSlotReq (lane : Fin 2) (message : List Byte) (s : State) : Out :=
  .next (s.tieMessageIn lane 3 message fun s =>
    let p := Msg.arg message
    let want := (Msg.body message).filter fun b => decide (b.toNat < 96)
    let copies := (want.map fun b => s.slotCopy p b.toNat).flatten
    if copies.isEmpty || 48 ≤ p then s else s.sendTie 4 p copies)

/-- Good copies are used where they arrive by t_CA. -/
def State.takeCopies (s : State) (p : Nat) : Nat → List Byte → State
  | 0, _ => s
  | k + 1, b =>
    let pos := byteAt b 0
    let slot := (b.drop 8).take 16
    let ok := decide (24 ≤ b.length) && decide (pos < 96) && !(s.port p).good.contains pos &&
      crc16From 0xFFFF (BitVec.ofNat 8 pos :: BitVec.ofNat 8 s.sys.period :: slot.take 14) == leAt slot 14 2
    let s := s.when ok fun s =>
      (s.takeSlot p pos (slot.take 14)).onPort p fun x => { x with viaTail := x.viaTail ++ [pos] }
    s.takeCopies p k (b.drop 24)

def execSlotMessage (lane : Fin 2) (message : List Byte) (s : State) : Out :=
  .next (s.tieMessageIn lane 4 message fun s =>
    let p := Msg.arg message
    s.when (decide (p < 48) && decide (s.now ≤ s.sys.t0 + s.tCa)) fun s =>
      s.takeCopies p (Msg.length message / 24) (Msg.body message))

/-! ### Comparison (R300) -/

/-- A period with a difference is judged, once. -/
def State.judgeMismatch (s : State) (explained : Bool) : State :=
  if s.tie.judged then s
  else
    let q := s.tie.since
    let s := { s with tie := { s.tie with judged := true,
                                          since := { q with mismatches := q.mismatches + 1, unexplained := q.unexplained || !explained } } }
    if explained then s.inc R.TIE_CMP_EXPLAINED else (s.inc R.TIE_CMP_UNEXPLAINED).raise 71

/-- The body of the unit's DIGEST (R324). -/
def State.digestBody (s : State) (memErr : Bool) : List Byte :=
  let words := fun (l : List Nat) => (l.map (bytesLE 4)).flatten
  let live := ((enabledCtx s.crd).map fun i =>
    let x := s.ctxAt i
    words x.xhat ++ words x.v ++ words x.uol ++ words x.h).flatten
  let recs := ((mapKeys s.lvl.levels).map fun k => mapGet (fun _ => idleRecord) s.lvl.records k).flatten
  bytesLE 4 (crc32c live) ++ bytesLE 4 (crc32c recs) ++ [BitVec.ofNat 8 (memErr.toNat + 2 * s.tie.bridge.toNat)] ++
    List.replicate 7 0#8

/-- The DIGESTs of both units are compared once both are there (R300, R316, R317). -/
def State.compareDigests (s : State) : State :=
  let mine := s.tie.digest
  let theirs := s.tie.partDigest
  let differs := s.tie.tailDiff || theirs.take 8 != mine.take 8
  let explained := s.neutral || byteAt theirs 8 != 0 || byteAt mine 8 != 0
  if mine.isEmpty || theirs.isEmpty then s
  else if differs then { s with tie := { s.tie with matched := false } }.judgeMismatch explained
  else
    let ok := s.tie.planned || (s.tie.joining && s.on R.TIE_STATUS_SWEEP_DONE && !s.neutral)
    { s with tie := { s.tie with matched := s.tie.matched || ok } }

def execDigest (lane : Fin 2) (message : List Byte) (s : State) : Out :=
  .next (s.tieMessageIn lane 5 message fun s => { s with tie := { s.tie with partDigest := Msg.body message } }.compareDigests)

/-- A command frame passes the last cell and reaches this end of a strand (R300, R303, R309, R322): each good slot and the
header's event are compared with the unit's own. -/
def State.tailFrame (s : State) (p : Nat) (f : List Byte) : State :=
  if !s.on (R.PORT_STATUS_TRAINED p) || Hdr.type f != 1 then s
  else if Hdr.crc f != .good then s.inc (R.ERR_A_HDR_CRC p)
  else if Hdr.period f != s.sys.period % 2 ^ 32 then s
  else
    let s := { s with tie := { s.tie with tailGot := s.tie.tailGot ++ [p] } }
    if s.role ≠ Role.standby ∧ !s.tie.shadowing then s
    else
      let n := s.ncell p
      let good := (upto n).filter fun pos => slotState pos f (32 + 16 * (n - 1 - pos)) 16 == .good
      let diff := good.any fun pos => ((f.drop (32 + 16 * (n - 1 - pos))).take 14) != s.record p pos
      let event := ((f.drop 9).take 3) != s.eventBytes (s.portArm p)
      let q := s.tie.since
      { s with tie := { s.tie with tailDiff := s.tie.tailDiff || diff || event,
                                   since := { q with compared := q.compared + good.length } } }

def execCommandFrameAtTail (port : Fin 48) (frame : List Byte) (s : State) : Out :=
  .next (s.when (s.portLive port) fun s => s.tailFrame port frame)

/-! ### Mailbox traffic between the units (R211, R315) -/

def execMailboxMessage (lane : Fin 2) (message : List Byte) (s : State) : Out :=
  .next (s.tieMessageIn lane 0x0A message fun s =>
    let p := Msg.arg message
    let b := Msg.body message
    if 48 ≤ p then s
    else if s.launching then
      let r := mbReqOf (List.replicate 12 0#8 ++ b)
      (s.onPort p fun x => { x with partner := x.partner ++ [r] }).nextOwn p
    else s.onPort p fun x => { x with rsp := some b })

/-! ### Health (R318, R319) -/

/-- The 64 bytes of a HEALTH payload; the junction temperature and the SerDes monitor's limit are open (log entry 41). -/
def State.healthBody (s : State) (temp : Nat) (serdes : Bool) : List Byte :=
  let q := s.tie.since
  let blk := sumOf ((upto 48).map fun p => if s.rd (R.PORT_STATUS_END p) = 2 then s.rd (R.ERR_C_BLK_ERR p) else 0) +
    sumOf ((upto 2).map fun l => s.rd (R.TIE_LANE_BLK_ERR l))
  let clk := (upto 3).any fun i => s.bit (R.FLT_LIVE_LIVE 0) (7 + i)
  bytesLE 4 s.sys.period ++
    [BitVec.ofNat 8 (s.st + 16 * s.role + 128 * s.rd R.TIE_STATUS_YIELD_OUT),
     BitVec.ofNat 8 (q.memBad.toNat + 2 * q.injBad.toNat + 4 * serdes.toNat + 8 * q.unexplained.toNat + 16 * clk.toNat), 0#8, 0#8] ++
    bytesLE 4 q.regions ++ bytesLE 4 q.corrected ++ bytesLE 4 q.injections ++ bytesLE 4 blk ++ bytesLE 4 q.compared ++
    bytesLE 4 q.mismatches ++ [BitVec.ofNat 8 (s.rd R.FLT_SUMMARY_WORST), BitVec.ofNat 8 (s.rd R.FLT_SUMMARY_LATCHED)] ++
    bytesLE 2 temp ++ bytesLE 4 (s.rd R.HLT_CHIP_DAYS) ++ List.replicate 24 0#8

def execHealthSend (s : State) : Out :=
  let (r, t) := s.draw
  .next (if s.tieUp then
      let u := t.sendTie 0x0B 0 (t.healthBody (r.toNat % 65536) (bitOf r.toNat 16))
      { u with tie := { u.tie with since := Since.reset } }
    else s)

def execHealthMessage (lane : Fin 2) (message : List Byte) (s : State) : Out :=
  .next (s.tieMessageIn lane 0x0B message fun s =>
    let b := Msg.body message
    let s := s.forN 16 fun w s => s.wr (R.PART_HEALTH_REPORT w) (leAt b (4 * w) 4)
    { s with tie := { s.tie with healthMiss := 0 } }.causeAbsent 73)

/-- One more report has not come: the third in a row sets HEALTH_LATE (R319). -/
def State.healthMissed (s : State) : State :=
  let n := s.tie.healthMiss + 1
  let s := { s with tie := { s.tie with healthMiss := Nat.min 3 n } }
  (s.when (decide (3 ≤ n)) fun s => (s.put R.TIE_STATUS_HEALTH_LATE true).causePresent 73).redundancy

/-- The time of three reports has passed without one. -/
def execHealthLate (s : State) : Out :=
  .next ({ s with tie := { s.tie with healthMiss := 2 } }.healthMissed)

/-! ### Clears -/

def execTieClr (s : State) : Out :=
  .next (((((s.setWord R.TIE_CMP_EXPLAINED.addr 0).setWord R.TIE_SWEEP_FIX.addr 0).setWord R.TIE_BRIDGE_BRIDGE_CNT.addr 0).setWord
    (R.TIE_LANE_BLK_ERR 0).addr 0).setWord (R.TIE_LANE_BLK_ERR 1).addr 0)

end Sys2Proof.Machine
end

