-- ==== Sys2Proof/Machine/Tie.lean ====
section
/-! DEFINITION. Yield, takeover, strand breaks, relay, joining and planned switch of a pair (R298 to R318, R322). -/

namespace Sys2Proof.Machine

/-! ### Commands and pins of the pair -/

def execControlYield (lane : Fin 2) (message : List Byte) (s : State) : Out :=
  .next (s.tieMessageIn lane 7 message fun s => s.when (Msg.arg message == 1) fun s =>
    { s with tie := { s.tie with yieldMsg := some (Msg.role message == Role.active) } })

/-- An ACTIVE that hears of a takeover yields at once (R322). -/
def execControlTakeover (lane : Fin 2) (message : List Byte) (s : State) : Out :=
  .next (s.tieMessageIn lane 7 message fun s => s.when (Msg.arg message == 2 && s.role == Role.active) State.yield)

def execControlRole (lane : Fin 2) (message : List Byte) (s : State) : Out :=
  .next (s.tieMessageIn lane 7 message fun s => s.when (Msg.arg message == 3) fun s =>
    s.when (Msg.role message == Role.relay) State.sendImage)

/-- Ports broken, as a bitmap of 48. -/
def State.broken (s : State) : Nat := s.rd R.TIE_BROKEN_LO_BROKEN + 2 ^ 32 * s.rd R.TIE_BROKEN_HI_BROKEN

def State.setBroken (s : State) (m : Nat) : State :=
  (s.wr R.TIE_BROKEN_LO_BROKEN (m % 2 ^ 32)).wr R.TIE_BROKEN_HI_BROKEN (m / 2 ^ 32)

/-- Bytes of the tail command frame and of the tail collection frame of a port. -/
def State.tailBytes (s : State) (p : Nat) : Nat := Nat.max (32 + 16 * s.ncell p) (s.fCol p)

/-- L_R of a broken port in units of 10 ps (R312). -/
def State.lR (s : State) (p : Nat) : Nat :=
  20000 + s.rd R.TIE_DELAY_T_TIE * 10 +
    32 * sumOf (((upto p).filter fun q => bitOf s.broken q).map s.tailBytes)

/-- A broken port is served from the tail (R312, R315). -/
def State.servedFromTail (s : State) (p : Nat) : Bool :=
  bitOf s.broken p && (!s.sys.committed || decide (s.dStrand p * 1000 + s.lR p ≤ s.crd R.PERIOD_CFG_DS * 1000))

/-- L_R of the first broken port and the count of ports that do not fit. -/
def State.showBroken (s : State) : State :=
  let ps := (upto 48).filter fun p => bitOf s.broken p
  let l := match ps.head? with
    | some p => ceilDiv (s.lR p) 1000
    | none => 0
  (s.wr R.TIE_DELAY_L_R l).wr R.TIE_BROKEN_HI_UNSERVED (ps.filter fun p => !s.servedFromTail p).length

/-- CONTROL BROKEN names the ports that the partner serves from the tail from now on (R324). -/
def execControlBroken (lane : Fin 2) (message : List Byte) (s : State) : Out :=
  .next (s.tieMessageIn lane 7 message fun s => s.when (Msg.arg message == 4) fun s =>
    (s.setBroken (s.broken ||| (leAt (Msg.body message) 0 8 % 2 ^ 48))).showBroken)

def execControlIntact (lane : Fin 2) (message : List Byte) (s : State) : Out :=
  .next (s.tieMessageIn lane 7 message fun s => s.when (Msg.arg message == 5) fun s =>
    (s.setBroken (s.broken &&& (2 ^ 48 - 1 - leAt (Msg.body message) 0 8 % 2 ^ 48))).showBroken)

/-- The filtered level of YIELD_IN (R303, R304): a low level ends what R304 found. -/
def execYieldInChange (level : Bool) (s : State) : Out :=
  let s := s.put R.TIE_STATUS_YIELD_IN level
  .next (if level then s
    else { s with tie := { s.tie with yieldHigh := 0, yieldIgnored := false } }.causeAbsent 72)

/-- YIELD_IN has been high for two boundaries against the partner's messages (R304). -/
def State.yieldPinBad (s : State) : State :=
  if decide (2 ≤ s.tie.yieldHigh) && !s.tie.yieldIgnored then
    let s := { s with tie := { s.tie with yieldIgnored := true } }
    (s.put R.TIE_STATUS_YIELD_FLT true).causePresent 72
  else s

def execYieldPinFault (s : State) : Out := .next s.yieldPinBad

/-! ### Takeover (R303, R305) -/

/-- In-service ports that this unit does not serve from the tail. -/
def State.countedTails (s : State) : List Nat :=
  (upto 48).filter fun p => s.strandInService p && s.rd (R.PORT_STATUS_END p) == 2 && !s.servedFromTail p

/-- The cause of a takeover that is due at the next boundary: 1 YIELD, 2 missing frames, 3 planned switch; 0 none. -/
def State.takeoverCause (s : State) : Nat :=
  let pin := s.on R.TIE_STATUS_YIELD_IN && !s.tie.yieldIgnored
  let tails := s.countedTails
  let missing := (tails.filter fun p => decide (2 ≤ mapGet (fun _ => 0) s.tie.tailMiss p)).length
  if s.role ≠ Role.standby ∨ !s.on R.TIE_STATUS_READY then 0
  else if pin && (s.tie.yieldMsg.isSome || !s.tieUp) then (if s.tie.yieldMsg = some true then 3 else 1)
  else if tails.length < 2 * missing then 2 else 0

/-- Open requests of either unit are sent again with the ORIG and SEQ they carried (R305). -/
def State.resendMailbox (s : State) : State :=
  s.forN 48 fun p s => s.onPort p fun x => { x with txn := x.txn.map fun t => { t with ready := true } }

/-- The new ACTIVE at the takeover boundary (R305): its ports become heads, and the period that begins is the turn
period. -/
def State.takeover (s : State) (cause : Nat) : State :=
  let s := (s.wr R.TIE_TAKE_CAUSE cause).wr R.TIE_TAKE_BRIDGE (Nat.min 255 s.tie.bridgeRun)
  let s := (s.wr R.TIE_TAKE_PER_PERIOD (s.sys.period % 2 ^ 32)).incMod R.TIE_STATUS_AE
  let s := (s.dropPending 1).takeRole Role.active
  let s := s.sendTie 7 2 (bytesLE 8 0)
  let s := s.forN 48 fun p s => s.when (s.on (R.PORT_STATUS_TRAINED p)) fun s => s.wr (R.PORT_STATUS_END p) 1
  let s := { s with tie := { s.tie with turn := true, bridge := false, bridgeRun := 0, yieldMsg := none, shadow := none } }
  s.resendMailbox.redundancy

def execTakeover (s : State) : Out := .next (s.when (s.takeoverCause != 0) fun s => s.takeover s.takeoverCause)

/-! ### Strand breaks (R311 to R314) -/

/-- The ACTIVE marks a port broken and tells the partner (R311, R324). -/
def State.strandBroken (s : State) (p : Nat) : State :=
  if s.role = Role.active && !bitOf s.broken p then
    let s := (s.setBroken (s.broken ||| 2 ^ p)).showBroken
    (s.causePresent 70).sendTie 7 4 (bytesLE 8 (2 ^ p))
  else s

def execStrandBroken (port : Fin 48) (s : State) : Out := .next (s.strandBroken port)

/-- A broken port is intact again (R314). -/
def State.strandIntact (s : State) (p : Nat) : State :=
  if s.role = Role.active && bitOf s.broken p then
    let s := (s.setBroken (s.broken ^^^ 2 ^ p)).showBroken
    let s := s.onPort p fun x => { x with beyond := [] }
    (s.causeIs 70 (s.broken != 0)).sendTie 7 5 (bytesLE 8 (2 ^ p))
  else s

def execStrandIntact (port : Fin 48) (s : State) : Out := .next (s.strandIntact port)

/-- N as the last training gave it, else one more than the highest expected position. -/
def State.tailN (s : State) (p : Nat) : Nat :=
  if s.rd (R.PORT_STATUS_NCELL p) = 0 then maxOf ((s.expectedOn p).map (· + 1)) else s.rd (R.PORT_STATUS_NCELL p)

/-- A tail port sends TS_UP from the tail (R185, R313). -/
def execTailTrainingStart (port : Fin 48) (s : State) : Out :=
  .next (s.when (s.portLive port && !s.launching && s.on (R.PORT_STATUS_LOCK port) && (bitOf s.broken port || s.writable) &&
      s.tailN port != 0) fun s =>
    s.send (.orderedSet port 1 (s.runVer port) (0x80 + s.tailN port - 1)))

/-- Positions of a broken port that the head reaches: good lately and not through the tail. -/
def State.reached (s : State) (p pos : Nat) : Bool :=
  let x := s.port p
  (x.good.contains pos || x.goodLast.contains pos) && !x.beyond.contains pos

/-- The tail-side command frame in the layout of the high side (R307, R312): the slots of positions that the head reaches
are stomped. -/
def State.tailCommand (s : State) (p : Nat) (mb : List Byte) : List Byte :=
  s.header p 1 (s.portArm p) mb ++
    ((upto (s.ncell p)).map fun pos =>
      if s.reached p pos then stompedSlot pos s.sys.period 16 else slotBytes pos s.sys.period (s.record p pos)).flatten

/-- The tail-side collection frame. -/
def State.tailCollection (s : State) (p : Nat) : List Byte :=
  s.header p 2 7 (List.replicate 16 0#8) ++
    ((upto (s.ncell p)).map fun pos =>
      stompedSlot pos s.sys.period 16 ++ if s.sillage p pos then stompedSlot pos s.sys.period 8 else []).flatten

/-- The ACTIVE hands the tail-side frame of a broken port to the tie link at its launch instant. -/
def State.handTail (s : State) (p type : Nat) : State :=
  if s.servedFromTail p && s.launching then
    let mb := match (s.port p).txn with
      | some t => if t.ready then reqBytes t.req else List.replicate 16 0#8
      | none => List.replicate 16 0#8
    s.sendTie 6 p (if type = 1 then s.tailCommand p mb else s.tailCollection p)
  else s

/-- A collection frame leaves its head port (R190, R191, R305, R312). -/
def execCollectionLaunch (port : Fin 48) (s : State) : Out :=
  .next (s.launch port 2 fun s =>
    if s.tie.turn then s else (s.send (.frame port (s.collectionFrame port))).handTail port 2)

/-- A command frame leaves its head port (R190, R191, R204, R312). -/
def State.commandLaunch (s : State) (p : Nat) : State := s.launch p 1 fun s => (s.handTail p 1).launchCommand p

/-- A strand frame over the tie link: the partner of the ACTIVE launches it at the tail, the ACTIVE takes the collection
frame that came back (R312). -/
def execTailframe (lane : Fin 2) (message : List Byte) (s : State) : Out :=
  .next (s.tieMessageIn lane 6 message fun s =>
    let p := Msg.arg message
    let f := Msg.body message
    if 48 ≤ p ∨ !bitOf s.broken p then s
    else if s.launching then
      let was := (s.port p).good
      let s := if Hdr.type f = 2 ∨ Hdr.type f = 3 then s.collectionAt p f false else s
      s.onPort p fun x =>
        let new := x.good.filter fun i => !was.contains i
        { x with viaTail := x.viaTail ++ new, beyond := x.beyond.filter (fun i => !new.contains i) ++ new }
    else s.when (s.servedFromTail p || s.role == Role.relay) fun s => s.send (.frame p f))

/-! ### Joining and planned switch (R315 to R317) -/

/-- The last step of joining, and the return of the former ACTIVE of a planned switch, at a boundary (R316, R317). -/
def State.joinEnds (s : State) : State :=
  if s.role = Role.relay && s.tie.matched && (s.tie.planned || (s.tie.joining && s.on R.TIE_STATUS_SWEEP_DONE)) then
    let s := { s with tie := { s.tie with joining := false, planned := false, matched := false } }
    (s.changeRole Role.standby).put R.TIE_STATUS_READY true
  else s

def execJoinComplete (s : State) : Out := .next s.joinEnds

def execTieSwitch (key : BitVec 16) (s : State) : Out :=
  .next (s.when (key == 0x5A5A#16 && s.role == Role.active && s.partnerReady) fun s =>
    { s with tie := { s.tie with switch := true } })

def execTieDemote (key : BitVec 16) (s : State) : Out :=
  .next (s.when (key == 0x5A5A#16 && s.role == Role.standby) fun s => { s with tie := { s.tie with demote := true } })

def execTieJoin (key : BitVec 16) (s : State) : Out :=
  .next (s.when (key == 0x5A5A#16 && s.role == Role.relay && s.tieUp && !s.tie.yielded) State.startJoining)

/-- At t_LE the ACTIVE of a planned switch yields, without the causes of R301 (R317). -/
def State.plannedYield (s : State) : State :=
  if s.tie.switch then
    let s := (s.put R.TIE_STATUS_YIELD_OUT true).sendTie 7 1 (bytesLE 8 0)
    { s with tie := { s.tie with switch := false, planned := true, lastPeriod := true } }
  else s

/-- At the boundary a planned switch makes the former ACTIVE a RELAY, and DEMOTE a STANDBY (R317). -/
def State.roleBoundary (s : State) : State :=
  let s := s.when (s.tie.planned && s.role == Role.active) fun s =>
    let s := s.changeRole Role.relay
    s.forN 48 fun p s => s.when (s.on (R.PORT_STATUS_TRAINED p)) fun s => s.wr (R.PORT_STATUS_END p) 2
  s.when s.tie.demote fun s =>
    let s := { s with tie := { s.tie with demote := false } }
    s.when (s.role == Role.standby) fun s => (s.put R.TIE_STATUS_READY false).changeRole Role.relay

/-- Headers launched from the other end have come in two periods at more than half of the in-service head ports (R322). -/
def execDualHead (s : State) : Out :=
  let heads := s.heads.filter s.strandInService
  let seen := (heads.filter fun p => decide (2 ≤ mapGet (fun _ => 0) s.tie.tailRun p)).length
  .next (s.when (s.role == Role.active && decide (heads.length < 2 * seen)) fun s =>
    (s.put R.TIE_STATUS_DUAL_HEAD true).when (!s.tieUp) State.yield)

/-! ### The sweep (R299) -/

/-- A swept word: a live value of a context by its word offset of R90, what a set-point channel or group holds, what the
level engine keeps of a cell, an entry of a repetitive table by address. -/
inductive SweepAddr where
  | live (ctx word : Nat)
  | point (c word : Nat)
  | group (g word : Nat)
  | cell (k word : Nat)
  | entry (addr : Nat)
  deriving DecidableEq, Repr

/-- The list of a context that a live word belongs to, and its place in it. -/
def liveVec (x : Ctx) (w : Nat) : List Nat × Nat :=
  if w < 16 then (x.xhat, w)
  else if w < 24 then (x.v, w - 16)
  else if w < 32 then (x.out, w - 24)
  else if w < 40 then (x.uol, w - 32)
  else (x.h, w - 40)

/-- A list with place `j` set, filled up with +0.0. -/
def putEl (l : List Nat) (j v : Nat) : List Nat := (l ++ List.replicate (j + 1 - l.length) f0).set j v

def putLive (x : Ctx) (w v : Nat) : Ctx :=
  if w < 16 then { x with xhat := putEl x.xhat w v }
  else if w < 24 then { x with v := putEl x.v (w - 16) v }
  else if w < 32 then { x with out := putEl x.out (w - 24) v }
  else if w < 40 then { x with uol := putEl x.uol (w - 32) v }
  else { x with h := putEl x.h (w - 40) v }

/-- Bits of a list of flags. -/
def maskOf (l : List Bool) : Nat := (upto l.length).foldl (fun n j => Machine.putBit n j (l.getD j false)) 0

/-- Words that hold one flag per level of a cell. -/
def State.levelWords (s : State) (k : Nat) : Nat := ceilDiv (s.levelsOf k) 32

def State.sweepGet (s : State) : SweepAddr → Nat
  | .live i w => let v := liveVec (s.ctxAt i) w; el v.1 v.2
  | .point c 0 => (s.spAt c).target
  | .point c 1 => s.rd (R.SP_OUT_OUT c)
  | .point c _ => setBits (s.word (R.SP_STATUS_STALE c).addr) 4 1 (s.spAt c).first.toNat
  | .group g 0 => ((mapGet (fun _ => none) s.ctl.winner g).map (· + 1)).getD 0
  | .group g w => s.word ((R.GRP_WIN_LOOP g).addr + 4 * (w - 1))
  | .cell k 0 => let v := s.view k; v.missed + 65536 * v.swc + 2 ^ 24 * Nat.min 255 v.stale
  | .cell k 1 => (s.view k).vpred
  | .cell k 2 => let v := s.view k; v.pwmRun + 256 * ((v.last.map (· + 1)).getD 0) + 2 ^ 16 * v.bypReq.toNat
  | .cell k w =>
    let n := s.levelWords k
    if w < 3 + n then bitsOf (maskOf (s.view k).admitted) (32 * (w - 3)) 32
    else bitsOf (maskOf (s.view k).eligible) (32 * (w - 3 - n)) 32
  | .entry a => s.load32 a

def flagsOf (n m : Nat) : List Bool := (upto n).map fun j => bitOf m j

def State.sweepPut (s : State) (a : SweepAddr) (v : Nat) : State :=
  match a with
  | .live i w => s.onCtx i fun x => putLive x w v
  | .point c 0 => { s with ctl := { s.ctl with sp := mapUpd spDefault s.ctl.sp c fun x => { x with target := v } } }
  | .point c 1 => s.wr (R.SP_OUT_OUT c) v
  | .point c _ =>
    let s := { s with ctl := { s.ctl with sp := mapUpd spDefault s.ctl.sp c fun x => { x with first := bitOf v 4 } } }
    s.setWord (R.SP_STATUS_STALE c).addr (setBits v 4 1 0)
  | .group g 0 => { s with ctl := { s.ctl with winner := mapSet (fun _ => none) s.ctl.winner g (if v = 0 then none else some (v - 1)) } }
  | .group g w => s.setWord ((R.GRP_WIN_LOOP g).addr + 4 * (w - 1)) v
  | .cell k 0 => s.onView k fun x => { x with missed := bitsOf v 0 16, swc := bitsOf v 16 8, stale := bitsOf v 24 8 }
  | .cell k 1 => s.onView k fun x => { x with vpred := v }
  | .cell k 2 => s.onView k fun x => { x with pwmRun := bitsOf v 0 8, last := if bitsOf v 8 8 = 0 then none else some (bitsOf v 8 8 - 1), bypReq := bitOf v 16 }
  | .cell k w =>
    let n := s.levelWords k
    let part := fun (l : List Bool) (j : Nat) => flagsOf (s.levelsOf k) (setBits (maskOf l) (32 * j) 32 v)
    if w < 3 + n then s.onView k fun x => { x with admitted := part x.admitted (w - 3) }
    else s.onView k fun x => { x with eligible := part x.eligible (w - 3 - n) }
  | .entry a => s.store32 a v

/-- The words of the sweep in their fixed order. -/
def State.sweepMap (s : State) : List SweepAddr :=
  ((enabledCtx s.crd).map fun i => (upto 48).map (SweepAddr.live i)).flatten ++
    ((upto 256).map fun c => (upto 3).map (SweepAddr.point c)).flatten ++
    ((upto 32).map fun g => (upto 5).map (SweepAddr.group g)).flatten ++
    ((mapKeys s.lvl.levels).map fun k => (upto (3 + 2 * s.levelWords k)).map (SweepAddr.cell k)).flatten ++
    ((enabledCtx s.crd).map fun i => ((upto 4).map fun t =>
      if repActive s.crd i t then (upto (s.crd (R.REP_CFG_LEN i t))).map fun e => SweepAddr.entry (s.repAddr i t e) else []).flatten).flatten

/-- The message of chunk `n`: 512 words. -/
def State.sweepBody (s : State) (n : Nat) : List Byte :=
  let ws := ((s.sweepMap.drop (512 * n)).take 512).map s.sweepGet
  bytesLE 8 n ++ fitTo 2048 (ws.map (bytesLE 4)).flatten

/-- After t_ML the ACTIVE sends the next chunk. -/
def State.sendSweep (s : State) : State :=
  if s.role = Role.active && s.tieUp then
    let n := s.tie.sweepAt
    let s := s.sendTie 8 n (s.sweepBody n)
    { s with tie := { s.tie with sweepAt := if s.sweepMap.length ≤ 512 * (n + 1) then 0 else n + 1 } }
  else s

/-- The partner overwrites what differs and counts it; the last chunk completes a cycle. -/
def State.applySweep (s : State) (n : Nat) (b : List Byte) : State :=
  let map := s.sweepMap
  let part := (map.drop (512 * n)).take 512
  let s := (upto part.length).foldl (fun s i =>
    match part[i]? with
    | some a =>
      let v := leAt b (8 + 4 * i) 4
      if s.sweepGet a = v then s else (s.sweepPut a v).inc R.TIE_SWEEP_FIX
    | none => s) s
  if map.length ≤ 512 * (n + 1) then (s.inc R.TIE_SWEEP_CYCLES).when s.tie.joining fun s => s.put R.TIE_STATUS_SWEEP_DONE true else s

def execSweep (lane : Fin 2) (message : List Byte) (s : State) : Out :=
  .next (s.tieMessageIn lane 8 message fun s =>
    s.when (s.inService && (s.role == Role.standby || s.tie.shadowing)) fun s => s.applySweep (Msg.arg message) (Msg.body message))

/-! ### Boundary of the pair -/

/-- What the tie side does at a boundary, after the period number has advanced (R303, R304, R311, R313, R317): the runs of
missing and foreign headers, the yield pin, roles, takeover, joining. -/
def State.tieBoundary (s : State) : State :=
  let got := s.tie.tailGot
  let step := fun (m : NMap Nat) (p : Nat) (b : Bool) => mapSet (fun _ => 0) m p (if b then Nat.min 255 (mapGet (fun _ => 0) m p + 1) else 0)
  let ends := (upto 48).filter fun p => s.on (R.PORT_STATUS_TRAINED p)
  let miss := ends.foldl (fun m p => step m p (!got.contains p)) s.tie.tailMiss
  let run := ends.foldl (fun m p => step m p (got.contains p)) s.tie.tailRun
  let pin := s.on R.TIE_STATUS_YIELD_IN && s.tieUp && !s.tie.partYield
  let s := { s with tie := { s.tie with tailMiss := miss, tailRun := run, tailGot := [],
                                        yieldHigh := if pin then Nat.min 3 (s.tie.yieldHigh + 1) else 0 } }
  let s := s.when (s.tie.tailDiff && !s.tie.judged) fun s => s.judgeMismatch s.neutral
  let s := s.yieldPinBad
  let cause := s.takeoverCause
  let s := { s with tie := { s.tie with lastPeriod := false, turn := false, bridge := false, shadow := none, lvlw := false, tailDiff := false, judged := false, digest := [], partDigest := [] } }
  let s := s.when (cause != 0) fun s => s.takeover cause
  let s := s.roleBoundary.joinEnds
  { s with tie := { s.tie with yieldMsg := none } }

/-- The present period is found to be a bridge period (R298). -/
def State.bridgePeriod (s : State) : State :=
  if s.tie.bridge then s
  else { s with tie := { s.tie with bridge := true, bridgeRun := s.tie.bridgeRun + 1, matched := false } }.inc R.TIE_BRIDGE_BRIDGE_CNT

/-- Block lock of a link end is lost (R184). -/
def execBlockLockLoss (link : LinkEnd) (s : State) : Out :=
  .next (match link with
    | .strand p => s.portLost p
    | .cell id p => s.onCell id.toNat fun c => c.loseLock s.now p
    | .tie l => s.laneLost l
    | .accord a => s.when (s.on (R.ACD_PORTST_TRAINED a)) fun s =>
        (s.put (R.ACD_PORTST_TRAINED a) false).inc (R.ACD_PORTERR_LOCK_LOSS a))

end Sys2Proof.Machine
end

