-- ==== Sys2Proof/Machine/States.lean ====
section
/-! DEFINITION. The device state machine (R28 to R59): the fit check, the state commands with their conditions, the cell
preparation, the dry-down, and RESET. -/

namespace Sys2Proof.Machine

/-! ### Fit check (R18 to R25, R339) -/

/-- The strands that the layout must hold: in service, with their cells counted. -/
def State.fitPorts (s : State) : List Nat := (upto 48).filter fun p => s.strandInService p && s.rd (R.PORT_STATUS_NCELL p) != 0

/-- A strand fits D_S: its own delay, and its delayed launch (R19, R21). -/
def State.strandFits (s : State) (p : Nat) : Bool :=
  let ds := s.rd R.PERIOD_CFG_DS
  decide (s.dStrand p ≤ ds) && decide (s.tColOf p + s.dStrand p ≤ 20 + ds)

/-- The level entries in use. -/
def State.levelEntries (s : State) : List Nat := if s.on R.ACD_CFG_EN then upto (s.rd R.ACD_CFG_LVLS) else []

/-- The level entries whose accord this pair leads. -/
def State.ledLevels (s : State) : List Nat := s.levelEntries.filter fun l => s.on (R.LVLE_W1_IS_LEAD l)

/-- h_l of R339, from the routes of the entry: to every unit of the other members for a lead, else to the lead's units. -/
def State.hopsOf (s : State) (l : Nat) : Nat :=
  let own := s.rd (R.LVLE_W0_MIDX l)
  let ms := if s.on (R.LVLE_W1_IS_LEAD l) then (upto (s.rd (R.LVLE_W0_NMEM l) + 1)).filter (· != own) else [s.rd (R.LVLE_W1_LEAD l)]
  maxOf ((ms.map fun m => [s.rd (R.LVLE_ROUTE_HOPS l (2 * m)), s.rd (R.LVLE_ROUTE_HOPS l (2 * m + 1))]).flatten)

/-- Contexts and all that feed them through same-period links. -/
def closeProducers (c : Cfg) : Nat → List Nat → List Nat
  | 0, l => l
  | k + 1, l => closeProducers c k (l ++ ((l.map (producers c)).flatten.filter fun i => !l.contains i).dedup)

/-- The contexts whose demand is C_lead,l (R339): those bound to AGG slots of the level, and those that feed its DIST list. -/
def State.leadContexts (s : State) (l : Nat) : List Nat :=
  let c := s.rd
  let binds := (enabledCtx c).filter fun i => (aggBinds c i).any fun g =>
    s.on (R.ACD_SLOT_EN g) && s.rd (R.ACD_SLOT_LVL g) == l && s.rd (R.ACD_SLOT_DIR g) == 0
  let feeds := ((upto 32).filter fun v => s.on (R.LVLE_PUB_EN l v) && s.rd (R.LVLE_PUB_KIND l v) == 4).map fun v =>
    s.rd (R.LVLE_PUB_INDEX l v) / 8
  let all := closeProducers c 8 feeds
  (enabledCtx c).filter fun i => binds.contains i || all.contains i

/-- C_lead,l in cycles, by R23 over those contexts. -/
def State.leadDemand (s : State) (l : Nat) : Nat :=
  let c := s.rd
  let ms := s.leadContexts l
  let deps := (depsOf c).filter fun e => ms.contains e.1
  let d := maxOf ((iterDepth deps deps.length (deps.map fun e => (e.1, 1))).map Prod.snd)
  if ms.isEmpty then 0 else sumOf (ms.map (ctxCost c)) + 60 + 24 * (d - 1)

/-- The terms of R24 of the levels that this pair leads, in ns. -/
def State.ledTerms (s : State) : Nat := sumOf (s.ledLevels.map fun l => 2 * s.hopsOf l * 300 + s.leadDemand l)

/-- H and C_LEAD of every entry in use. -/
def State.showLevels (s : State) : State :=
  s.forL s.levelEntries fun l t => (t.wr (R.LVLE_W2_H l) (s.hopsOf l)).wr (R.LVLE_W2_C_LEAD l)
    (if s.on (R.LVLE_W1_IS_LEAD l) then s.leadDemand l else 0)

/-- A wiring error or a long link makes the accord terms fail (R328, R329). -/
def State.accordLinksBad (s : State) : Bool :=
  s.on R.ACD_CFG_EN && (s.on R.ACD_STATUS_WIRING || (upto 4).any fun k => s.on (R.ACD_PORTST_LONG k))

/-- The fit check (R25), with the terms of the levels above: it writes its report, and the layout registers if it passes. -/
def State.fitCheck (s : State) (above : Nat) : State × Bool :=
  let ports := s.fitPorts
  let long := ports.any fun p => !s.strandFits p
  let worst := maxOf (ports.map s.dStrand)
  let port := ((ports.filter fun p => s.dStrand p == worst).head?).getD 0
  let tc := s.rd R.PERIOD_CFG_TC * 500
  let ds := s.rd R.PERIOD_CFG_DS
  let window := tc - (1200 + 20 * ds)
  let own := engineDemand s.rd
  let all := own + above + s.ledTerms
  let short := window == 0
  let ceOver := decide (window < own)
  let acdOver := !ceOver && (decide (window < all) || s.accordLinksBad)
  let ok := !long && !short && !ceOver && !acdOver
  let hs := sumOf (s.levelEntries.map s.hopsOf)
  let s := s.showLevels
  let s := ((s.wr R.CE_DEMAND_DEMAND all).wr R.CE_WINDOW_WINDOW window).wr R.STRAND_WORST_D_MAX worst
  let s := (s.wr R.STRAND_WORST_STRAND port).wr R.ACD_STATUS_ACT_MIN (1 + ceilDiv (600 + 300 * hs) tc)
  let s := ((s.put R.FIT_STATUS_FIT_OK ok).put R.FIT_STATUS_STRAND_OVER long).put R.FIT_STATUS_CE_OVER ceOver
  let s := (s.put R.FIT_STATUS_WINDOW_SHORT short).put R.FIT_STATUS_ACCORD_OVER acdOver
  let ca := 20 + ds
  let le := ca + window / 10
  let ml := le + 60
  (s.when ok fun s => (((s.wr R.LAYOUT_0_T_CA ca).wr R.LAYOUT_0_T_LE le).wr R.LAYOUT_1_T_ML ml).wr R.LAYOUT_1_T_H (ml + ds), ok)

/-! ### Cells available (R37, R39, R40) -/

/-- Positions whose slot was good in the last period: the present one once its t_CA has passed. -/
def State.lastGood (s : State) (p : Nat) : List Nat :=
  if s.sys.t0 + s.tCa ≤ s.now then (s.port p).good else (s.port p).goodLast

/-- Expected positions of an arm, by port and position. -/
def State.armPositions (s : State) (a : Nat) : List (Nat × Nat) :=
  (((upto 48).filter fun p => s.strandInService p && s.portArm p == a).map fun p =>
    (s.expectedOn p).map fun i => (p, i)).flatten

/-- A cell available for ENERGISE (R37). -/
def State.availableCold (s : State) (p pos : Nat) : Bool :=
  let v := s.view (cellKey p pos)
  let verdict := s.rd (R.EXP_W3_VERDICT p pos)
  verdict != Verdict.foreign && verdict != Verdict.stFail && v.state == Mode.enumerated && (s.lastGood p).contains pos &&
    decide (s.rd R.ENERGISE_CFG_VCELL_MIN * 256 ≤ v.vcap)

/-- A cell available for DEBLOCK (R39, R41). -/
def State.availableHot (s : State) (p pos : Nat) : Bool :=
  let v := s.view (cellKey p pos)
  v.state == Mode.blocked && v.epochOk && (s.lastGood p).contains pos && decide (s.rd R.ENERGISE_CFG_VCELL_MIN * 256 ≤ v.vcap)

/-- Every arm in service has AVAIL_MIN cells that meet a test; with AVAIL_MIN = 0 all its expected positions. -/
def State.armsHave (s : State) (ok : Nat → Nat → Bool) : Bool :=
  (upto 6).all fun a =>
    let ps := s.armPositions a
    let n := (ps.filter fun x => ok x.1 x.2).length
    let need := s.rd R.ENERGISE_CFG_AVAIL_MIN
    s.cfg (R.ARM_CFG_EN a) == 0 || (if need = 0 then n == ps.length else decide (need ≤ n))

/-- A cell that is still available for the ENERGISE under way (R38). -/
def State.prepared (s : State) (p pos : Nat) : Bool :=
  s.availableCold p pos && !(((s.sys.prep.map Prep.dropped).getD []).contains (s.handle p pos))

/-! ### Conditions of the commands (R36 to R40): a refusal code, 0 for none -/

/-- CONFIGURE (R36, R47). -/
def State.configureCode (s : State) : Nat :=
  if !s.on R.ST_SUMMARY_PASS then 3
  else if !s.on R.SEC_STATUS_OK then 0xC
  else if (upto 48).all fun p => !s.strandInService p || !(s.expectedOn p).isEmpty then 0 else 4

/-- The repetitive region of every enabled table is available (R482). -/
def State.regionAvailable (s : State) : Bool :=
  let used := (enabledCtx s.rd).any fun i => (upto 4).any fun t => repActive s.rd i t
  !used || s.bit R.MEM_STATUS_AVAIL ((s.rd R.REP_BASE_BASE - 0x10000000) / 0x1000000)

/-- ARM_REF of every arm in service names an enabled context and an output below its p (R152). -/
def State.refsFit (s : State) : Bool :=
  (upto 6).all fun a => !s.on (R.ARM_CFG_EN a) ||
    (ctxOn s.rd (s.rd (R.ARM_REF_CTX a)) && decide (s.rd (R.ARM_REF_OUT a) < ctxP s.rd (s.rd (R.ARM_REF_CTX a))))

/-- ENERGISE before the cell preparation (R37): the fit check comes first and leaves its report. -/
def State.energiseCode (s : State) (above : Nat) : State × Nat :=
  let (s, fits) := s.fitCheck above
  (s,
    if !fits then 5
    else if s.blockLatched then 7
    else if !s.armsHave s.availableCold then 6
    else if !s.keysFit || !s.refsFit || (s.on R.ACD_CFG_EN && !s.on R.ACD_STATUS_FORMED) || !s.regionAvailable then 4
    else 0)

/-- DEBLOCK (R39). -/
def State.deblockCode (s : State) : Nat :=
  if s.on R.DEV_STATE_SAFE_BLOCK then 8
  else if s.blockLatched then 7
  else if s.armsHave s.availableHot then 0 else 6

/-- CLEAR (R31). -/
def State.clearCode (s : State) : Nat :=
  if s.blockLatched then 7 else if s.on R.DEV_STATE_SAFE_BLOCK then 8 else 0

/-- DEENERGISE (R40). -/
def State.deenergiseCode (s : State) : Nat :=
  let high := (upto 48).any fun p => (s.lastGood p).any fun pos =>
    decide (s.rd R.DISCHARGE_CFG_VCELL_SAFE * 256 < (s.view (cellKey p pos)).vcap)
  if high then 9 else 0

/-! ### Cell preparation (R38) -/

/-- What a commit fixes: the registers, the keys and the order of the contexts (R25, R75, R121). -/
def State.commit (s : State) : State :=
  let order := orderOf s.rd
  let depths := depthsOf s.rd
  let s := (s.wr R.CTL_STATUS_ENABLED order.length).wr R.CTL_STATUS_CHAIN_D (maxOf (depths.map Prod.snd))
  let s := s.forN 256 fun i s => (s.wr (R.DESC_ORDER_SLOT i) (if order.contains i then order.idxOf i else 0)).wr
    (R.DESC_ORDER_DEPTH i) (depthIn depths i)
  let s := s.commitKeys
  { s with sys := { s.sys with com := s.regs }, ctl := { s.ctl with order := order } }

/-- Usable members below an available cell, by path (R38). -/
def State.usableMembers (s : State) (p pos : Nat) : List Nat :=
  let es := (upto 1024).filter fun e => s.rd (R.MEMB_W6_HEAD e) == s.handle p pos && s.rd (R.MEMB_W3_VERDICT e) == Verdict.ok
  sortBy id (es.map fun e => s.rd (R.MEMB_W7_PATH e))

/-- Steps 1 to 5 of a port for the boundary t_1, given as 32-bit time. -/
def State.prepWrites (s : State) (p t1 : Nat) : List Own :=
  let arm := s.portArm p
  let all := fun a d => own .prepAll (reqAll 2 0 a d)
  let car := s.carrierArm arm
  let cell := fun (pos path j : Nat) =>
    let ext := s.extAddr p pos path
    (if car then [own (.prep ext none false) (reqTo 2 pos path 0x20014 (s.carrierPhase arm j))] else []) ++
      [own (.prep ext (some (s.pwmTime arm)) false) (reqTo 1 pos path 0x20010 0),
       own (.prep ext (some t1) true) (reqTo 1 pos path 0x4000C 0)]
  let cells := (s.expectedOn p).filter fun i => s.availableCold p i
  [all 0x20010 (s.pwmTime arm)] ++ (if car then [all 0x20018 (s.alignOf arm)] else []) ++
    [all 0x40010 (s.rd R.PERIOD_CFG_TC + 512), all 0x4000C t1] ++
    (cells.map fun i => (0 :: s.usableMembers p i).map fun q => cell i q (mapGet (fun _ => 0) s.lvl.keyOf (cellKey p i))).flatten.flatten

/-- The cell preparation starts for P_1. -/
def State.startPrep (s : State) (p1 : Nat) : State :=
  let t1 := p1 * (s.rd R.PERIOD_CFG_TC * 500)
  let s := { s with lvl := { s.lvl with pAlign := 0, alignNext := none } }
  let s := { s with sys := { s.sys with prep := some { p1 := p1, t1 := t1, accepted := s.now, dropped := [] } } }
  s.forL ((upto 48).filter s.strandInService) fun p s => s.ask p (s.prepWrites p (t1 % 2 ^ 32))

/-- Whether a transaction belongs to the cell preparation. -/
def prepTag : Tag → Bool
  | .prepAll | .prep _ _ _ => true
  | _ => false

/-- Step 5 has not ended on some port. -/
def State.prepOpen (s : State) : Bool :=
  (upto 48).any fun p => (s.port p).own.any (fun o => prepTag o.tag) || ((s.port p).txn.map fun t => prepTag t.tag).getD false

/-- The preparation has ended, and every arm still has its cells. -/
def State.prepDone (s : State) : Bool := s.sys.prep.isSome && !s.prepOpen && s.armsHave s.prepared

/-- Transactions of a preparation that still wait are given up. -/
def State.prepStop (s : State) : State :=
  s.forN 48 fun p s => s.onPort p fun x => { x with own := x.own.filter fun o => !prepTag o.tag }

/-- The maintenance boundaries of every cell are restored (R38). -/
def State.restoreBounds (s : State) : State :=
  let s := s.prepStop
  let s := { s with sys := { s.sys with restore := false, quiet := false } }
  s.forL ((upto 48).filter s.strandInService) fun p s =>
    s.ask p [own .plain (reqAll 2 0 0x40010 200), ownLate .plain (reqAll 2 0 0x4000C 0) 3]

/-- The staged change of an accord ends with a refusal code known to this unit (R341, R343). -/
def State.stagedFails (s : State) (code : Nat) : State :=
  { s with acd := { s.acd with staged := s.acd.staged.map fun g => if g.code = 0 then { g with code := code } else g } }

/-- ENERGISE is refused after its acceptance (R38). -/
def State.energiseFails (s : State) (code : Nat) : State := ((s.dropPending code).stagedFails code).restoreBounds

/-- 200 µs before t_1: the preparation must have ended with enough cells. -/
def State.prepDeadline (s : State) : State :=
  match s.sys.prep with
  | none => s
  | some q => s.when (decide (q.t1 ≤ s.now + 200000) && !s.prepDone) fun s => s.energiseFails 0xD

def execPrepDeadline (s : State) : Out := .next s.prepDeadline

/-! ### Transitions as they take effect -/

/-- A boundary begins at an instant: the number, t0, and the epoch that the last headers carried (R41, R351). -/
def State.beginPeriod (s : State) (p t0 : Nat) : State :=
  { s with now := Nat.max s.now t0,
           sys := { s.sys with period := p, t0 := t0, echoEpoch := s.sys.sentEpoch, leDone := false } }

/-- The mode epoch advances (R41). -/
def State.nextEpoch (s : State) : State :=
  let e := (s.sys.epoch + 1) % 256
  { s with sys := { s.sys with epoch := e } }.wr R.ACD_STATUS_EPOCH e

/-- The accepted command has taken effect: BUSY drops. -/
def State.settled (s : State) : State :=
  ({ s with sys := { s.sys with pend := none, prep := none } }).put R.DEV_STATE_BUSY false

/-- ENERGISED at t_1 (R30, R38, R86, R124): refused at the boundary where a Block-, Trip- or Lock-class source has latched
(R33), and left at once for FAULT-BLOCK where Safe Block is active (R31). -/
def State.energiseNow (s : State) (q : Prep) (cause : Nat) : State :=
  let cells := ((upto 48).map fun p => ((s.expectedOn p).filter (s.prepared p)).map (cellKey p)).flatten
  let s := s.acqStop
  let s := { s with acq := { s.acq with entered := some St.energised } }
  let s := { s with sys := { s.sys with committed := true, quiet := false } }.beginPeriod q.p1 q.t1
  let s := (s.settled.nextEpoch).goto St.energised cause q.p1
  let s := (s.initEngine).enterLevels cells
  let s := s.when (s.rd R.TIE_STATUS_PART_ROLE == Role.relay) State.sendImage
  s.when (s.on R.DEV_STATE_SAFE_BLOCK) fun s => s.faultBlock Cause.safeBlock

/-- The cause that a transition by command records: following, at a unit that has not accepted it (R341). -/
def State.commandCause (s : State) : Nat := if s.accepting then Cause.command else Cause.follow

/-- t_1 is reached. -/
def State.energiseDue (s : State) : State :=
  match s.sys.prep with
  | none => s
  | some q =>
    if s.blockLatched then s.energiseFails 7
    else if s.prepDone && (s.acd.staged.isNone || s.acd.pAct.isSome) then s.energiseNow q s.commandCause
    else s.energiseFails 0xD

def execEnergiseTakesEffect (samples : Samples) (s : State) : Out :=
  .next (s.when s.sys.prep.isSome fun s =>
    let s := s.energiseDue
    s.when s.sys.committed fun s => s.sampleInputs samples)

/-- ENERGISED is left for CONFIGURED (R31, R38, R41): the maintenance timeline goes on with its next boundary. -/
def State.deenergiseNow (s : State) (cause : Nat) : State :=
  let s := (s.acqStop.settled.nextEpoch).goto St.configured cause s.transPeriod
  let s := { s with sys := { s.sys with committed := false, period := s.now / 100000, t0 := s.now / 100000 * 100000 } }
  { s.restoreBounds with sys := { s.restoreBounds.sys with quiet := true } }

/-- CLEAR takes effect, unless a fault or Safe Block forbids it at the boundary (R33). -/
def State.clearNow (s : State) (cause : Nat) : State :=
  if s.clearCode = 0 then s.settled.goto St.energised cause s.transPeriod else s.dropPending 7

/-! ### Dry-down (R55 to R58) -/

/-- A dry-down starts: phase 1. -/
def State.startDry (s : State) : State :=
  let s := ((s.put R.DEV_STATE_BUSY true).put R.DEV_STATE_DRY_ACTIVE true).wr R.DRY_STATUS_PHASE 1
  let s := s.wr R.DRY_STATUS_ARM_BLOCKED 0
  { s with sys := { s.sys with dry := { count := 0, accepted := s.now, above := 0, below := 0, reversed := 0 } } }

/-- The samples of t0 as the dry-down judges them: the wait counts, and in phase 2 an arm whose sign is the opposite of the
previous sample's blocks at the next boundary. A sample of 0 has no sign. -/
def State.drySample (s : State) : State :=
  if !s.on R.DEV_STATE_DRY_ACTIVE then s
  else
    let arms := (upto 6).filter fun a => s.crd (R.ARM_CFG_EN a) == 1
    let i := s.armCurrent
    let above := maskOf ((upto 6).map fun a => fLt f0 (i a))
    let below := maskOf ((upto 6).map fun a => fLt (i a) f0)
    let low := arms.all fun a => fLe (fAbs (i a)) (s.rd R.DRY_ILIM_ILIM)
    let d := s.sys.dry
    let wait := s.rd R.DRY_STATUS_PHASE == 1
    let count := if wait && decide (d.accepted < s.sys.t0) then (if low then d.count + 1 else 0) else d.count
    let turned := if wait then 0 else maskOf ((upto 6).map fun a =>
      (bitOf d.above a && bitOf below a) || (bitOf d.below a && bitOf above a))
    { s with sys := { s.sys with dry := { d with count := count, above := above, below := below, reversed := d.reversed ||| turned } } }

/-- The wait has lasted DRY_HOLD periods: phase 2, with arms out of service counted as blocked (R56). -/
def State.dryWaitEnd (s : State) : State :=
  s.when (s.on R.DEV_STATE_DRY_ACTIVE && s.rd R.DRY_STATUS_PHASE == 1 && decide (s.rd R.DRYDOWN_CFG_DRY_HOLD ≤ s.sys.dry.count)) fun s =>
    let out := maskOf ((upto 6).map fun a => s.crd (R.ARM_CFG_EN a) == 0)
    (s.wr R.DRY_STATUS_PHASE 2).wr R.DRY_STATUS_ARM_BLOCKED (s.rd R.DRY_STATUS_ARM_BLOCKED ||| out)

def execDryWaitEnd (s : State) : Out := .next s.dryWaitEnd

/-- Every arm has blocked: ENERGISED (R56, R57). -/
def State.dryComplete (s : State) : State :=
  s.when (s.on R.DEV_STATE_DRY_ACTIVE && s.rd R.DRY_STATUS_ARM_BLOCKED == 0x3F) fun s =>
    let cause := if s.on R.DRY_STATUS_DRY_FORCED then Cause.dryTimeout else Cause.dryDone
    s.endDry.settled.goto St.energised cause s.transPeriod

/-- An arm whose sign reversed blocks at this boundary. -/
def State.dryArmBlock (s : State) (a : Nat) : State :=
  s.when (s.on R.DEV_STATE_DRY_ACTIVE && bitOf s.sys.dry.reversed a && !s.bit R.DRY_STATUS_ARM_BLOCKED a) fun s =>
    (s.putBit R.DRY_STATUS_ARM_BLOCKED a true).dryComplete

def execDryArmBlock (arm : Fin 6) (s : State) : Out := .next (s.dryArmBlock arm)

/-- DRY_TIMEOUT has run out since acceptance: what has not blocked blocks at the next boundary (R57). -/
def State.dryExpire (s : State) : State :=
  s.when (s.on R.DEV_STATE_DRY_ACTIVE && !s.on R.DRY_STATUS_DRY_FORCED &&
      decide (s.sys.dry.accepted + s.rd R.DRYDOWN_CFG_DRY_TIMEOUT * 1000000 ≤ s.now)) fun s =>
    let s := s.put R.DRY_STATUS_DRY_FORCED true
    { s with sys := { s.sys with dry := { s.sys.dry with reversed := 0x3F } } }.raise 44

def execDryTimeout (s : State) : Out := .next s.dryExpire

/-- A boundary in a dry-down. -/
def State.dryBoundary (s : State) : State := (s.forN 6 fun a s => s.dryArmBlock a).dryWaitEnd

/-! ### RESET (R31, R411, R419, R420) -/

/-- Registers of the KC8400 that keep their word in RESET: the safety island, the fuses, the first-error capture, the
stores since power-on, and what shows a pin. -/
def keptInReset (a : Nat) : Bool :=
  a / 0x100000 == 0x410 || (decide (0x40B00204 ≤ a) && decide (a ≤ 0x40B0020C)) ||
    (decide (0x40800040 ≤ a) && decide (a ≤ 0x40800054)) || a == 0x41100324

/-- Causes that lie outside what RESET resets: clocks, supplies, temperature, fuses, and the safety island. -/
def outsideCause (i : Nat) : Bool :=
  (decide (7 ≤ i) && decide (i ≤ 13)) || i == 24 || (decide (96 ≤ i) && decide (i ≤ 107)) || decide (120 ≤ i)

/-- The KC8400 enters RESET with a cause. Pins, the fuses, the safety island, the cells, Lock-class latches, the capture and
what the boot flash stores keep; everything else takes its reset value. -/
def State.enterReset (s : State) (cause : Nat) : State :=
  let locked := (upto 128).filter fun i => s.lclass i == 5
  let causes := (upto 128).filter fun i => outsideCause i && s.bit (R.FLT_LIVE_LIVE (i / 32)) (i % 32)
  let t := { State.reset with
    pending := s.pending, draws := s.draws, sent := s.sent, cells := s.cells,
    regs := s.regs.filter fun e => keptInReset e.1,
    sys := { Sys.reset with rstHigh := s.sys.rstHigh, supplyBad := s.sys.supplyBad, pairId := s.sys.pairId,
                            selfTest := false, runCount := s.sys.runCount, hardBlock := s.sys.hardBlock },
    flt := { Flt.reset with armed := s.flt.armed, firstTime := s.flt.firstTime },
    isl := s.isl, od := { Od.reset with copies := s.od.copies, loadPend := s.od.loadPend },
    mem := { Mem.reset with bytes := s.mem.bytes.filter fun e => decide (0x800000000 ≤ e.1) } }
  let t := t.forL locked fun i t => (t.putBit (R.FLT_STAT_LATCH (i / 32)) (i % 32) true).wr (R.FLT_SRC_ST_LCLASS i) 5
  let t := t.forL causes fun i t => t.putBit (R.FLT_LIVE_LIVE (i / 32)) (i % 32) true
  let t := (t.put R.FLT_SUMMARY_LOCK_LATCH (s.on R.FLT_SUMMARY_LOCK_LATCH)).put R.TIE_STATUS_YIELD_IN (s.on R.TIE_STATUS_YIELD_IN)
  let t := ((t.put R.OD_STORE_RESTORE_ERR false).put R.DEV_STATE_SAFE_BLOCK (s.on R.DEV_STATE_SAFE_BLOCK)).put R.TIE_STATUS_PAIR_ID s.sys.pairId
  (((t.wr R.DEV_STATE_PREV s.st).wr R.DEV_STATE_STATE St.reset).wr R.STATE_CAUSE_CAUSE cause).driveYield.summarise

/-- RESET ends: SELF-TEST, and each cause that stands raises its source again (R31, R411). -/
def State.endReset (s : State) : State :=
  if s.st = St.reset ∧ s.sys.rstHigh ∧ s.sys.supplyBad = 0 then
    let s := (s.wr R.DEV_STATE_PREV s.st).wr R.DEV_STATE_STATE St.selfTest
    let s := { s with sys := { s.sys with selfTest := true } }
    s.forN 128 fun i s => s.when (s.bit (R.FLT_LIVE_LIVE (i / 32)) (i % 32)) fun s => (s.causeAbsent i).raise i
  else s

/-! ### State commands (R31 to R35) -/

/-- The first code that refuses a command for reasons other than its own conditions: role, BUSY, state (R33 to R35). -/
def State.gateCode (s : State) (from' : List Nat) : Nat :=
  if !s.accepting then 0xA else if s.on R.DEV_STATE_BUSY then 2 else if from'.contains s.st then 0 else 1

/-- The change goes through the two phases of R341: the unit is the top lead of a formed accord. -/
def State.twoPhase (s : State) : Bool := s.on R.ACD_STATUS_FORMED && s.on R.ACD_STATUS_TOP

/-- The top lead stages an accepted command (R341). -/
def State.stageOwn (s : State) (cmd p1 deadline : Nat) : State :=
  let epoch := if cmd = Cmd.energise ∨ cmd = Cmd.deenergise then (s.sys.epoch + 1) % 256 else s.sys.epoch
  let g := { cmd := cmd, epoch := epoch, deadline := deadline, above := 0, p1 := p1, code := 0, acked := false }
  let s := { s with acd := { s.acd with staged := some g, pAct := none, stageDue := true, commitDue := false, cancelDue := none } }
  let s := s.forL s.ledLevels fun l s => s.wr (R.LVLE_W1_ACKED l) 0
  let s := ((s.wr R.ACD_MODE_CMD cmd).wr R.ACD_MODE_NEW_EPOCH epoch).wr R.ACD_MODE_RESULT 0
  (s.wr R.ACD_MODE_CODE 0).wr R.ACD_STATUS_PH 1

/-- A command is accepted and waits for its boundary: `at'` stand-alone, the activation instant in an accord. -/
def State.acceptCommand (s : State) (cmd target at' : Nat) : State :=
  let two := s.twoPhase
  let s := { s with sys := { s.sys with pend := some { cmd := cmd, target := target, atPeriod := if two then none else some at' } } }
  (s.put R.DEV_STATE_BUSY true).when two fun s => s.stageOwn cmd 0 (s.sys.period + s.rd R.ACD_CFG_STAGE_TO)

/-- CONFIGURED is entered, at once. -/
def State.configureNow (s : State) (cause : Nat) : State := s.settled.goto St.configured cause s.transPeriod

def State.configure (s : State) : State × Nat :=
  let g := s.gateCode [St.safeHold]
  let code := if g = 0 then s.configureCode else g
  if code ≠ 0 then (s.refuse Cmd.configure code, code)
  else if s.twoPhase then (s.acceptCommand Cmd.configure St.configured 0, 0)
  else (s.configureNow Cause.command, 0)

/-- P_1: the first committed boundary at least PREP ms after acceptance (R38). -/
def State.firstPeriod (s : State) : Nat :=
  ceilDiv (s.now + s.rd R.ENERGISE_CFG_PREP * 1000000) (s.rd R.PERIOD_CFG_TC * 500)

/-- DEADLINE of a staged ENERGISE: the last maintenance period that ends at least 200 µs before t_1 (R38). -/
def State.energiseDeadline (s : State) (p1 : Nat) : Nat := (p1 * (s.rd R.PERIOD_CFG_TC * 500) - 200000) / 100000 - 1

/-- ENERGISE is accepted or staged: the commit and the cell preparation (R25, R38). -/
def State.energiseStarts (s : State) (p1 : Nat) : State :=
  let s := s.commit.startPrep p1
  { s with sys := { s.sys with pend := some { cmd := Cmd.energise, target := St.energised, atPeriod := none } } }.put R.DEV_STATE_BUSY true

def State.energise (s : State) : State × Nat :=
  let g := s.gateCode [St.configured]
  if g ≠ 0 then (s.refuse Cmd.energise g, g)
  else
    let (s, code) := s.energiseCode 0
    if code ≠ 0 then (s.refuse Cmd.energise code, code)
    else
      let p1 := s.firstPeriod
      let s := s.energiseStarts p1
      let s := { s with acd := { s.acd with above := 0 } }
      (s.when s.twoPhase fun s => s.stageOwn Cmd.energise p1 (s.energiseDeadline p1), 0)

def State.deblock (s : State) : State × Nat :=
  let g := s.gateCode [St.energised]
  let code := if g = 0 then s.deblockCode else g
  if code ≠ 0 then (s.refuse Cmd.deblock code, code)
  else ((s.put R.DRY_STATUS_DRY_FORCED false).acceptCommand Cmd.deblock St.deblocked
    (s.sys.period + if s.sys.leDone then 2 else 1), 0)

/-- The commands that a dry-down refuses with 02h meet BUSY (R58). -/
def State.drydown (s : State) : State × Nat :=
  let g := s.gateCode [St.deblocked]
  if g ≠ 0 then (s.refuse Cmd.drydown g, g)
  else if s.twoPhase then (s.acceptCommand Cmd.drydown St.energised 0, 0)
  else
    let s := { s with sys := { s.sys with pend := some { cmd := Cmd.drydown, target := St.energised, atPeriod := none } } }
    (s.startDry, 0)

def State.clear (s : State) : State × Nat :=
  let g := s.gateCode [St.faultBlock]
  let code := if g = 0 then s.clearCode else g
  if code ≠ 0 then (s.refuse Cmd.clear code, code)
  else (s.acceptCommand Cmd.clear St.energised (s.sys.period + 1), 0)

def State.deenergise (s : State) : State × Nat :=
  let g := s.gateCode [St.energised, St.faultBlock]
  let code := if g = 0 then s.deenergiseCode else g
  if code ≠ 0 then (s.refuse Cmd.deenergise code, code)
  else (s.acceptCommand Cmd.deenergise St.configured (s.sys.period + 1), 0)

/-- RESTART enters RESET at once and leaves it while SYS_RST_N is high and the supplies are good. -/
def State.restartNow (s : State) : State := (s.enterReset Cause.restart).endReset

def State.restart (s : State) (key : Nat) : State × Nat :=
  let g := s.gateCode [St.safeHold, St.configured, St.faultBlock]
  let code := if g = 0 then (if key = 0x5A5A then 0 else 0xB) else g
  if code ≠ 0 then (s.refuse Cmd.restart code, code)
  else if s.twoPhase then (s.acceptCommand Cmd.restart St.reset 0, 0)
  else (s.restartNow, 0)

/-- A write of STATE_CMD (R31, R35): the command, with the refusal code, 0 for none. -/
def State.stateCommand (s : State) (cmd key : Nat) : State × Nat :=
  match cmd with
  | 1 => s.configure
  | 2 => s.energise
  | 3 => s.deblock
  | 4 => s.drydown
  | 5 => s.clear
  | 6 => s.deenergise
  | 7 => s.restart key
  | _ => (s.refuse cmd 1, 1)

/-- The answer to an access through the object dictionary; a local bus master gets none. -/
def State.answer (s : State) (via : Via) (data abort : Nat) : State :=
  match via with
  | .master _ => s
  | .can _ | .udp _ => s.send (.reply data abort)

/-- The answer to a state command (R35). -/
def commanded (via : Via) (x : State × Nat) : Out := .next (x.1.answer via 0 (if x.2 = 0 then 0 else 0x08000022))

def execConfigure (via : Via) (s : State) : Out := commanded via s.configure
def execEnergise (via : Via) (s : State) : Out := commanded via s.energise
def execDeblock (via : Via) (s : State) : Out := commanded via s.deblock
def execDrydown (via : Via) (s : State) : Out := commanded via s.drydown
def execClear (via : Via) (s : State) : Out := commanded via s.clear
def execDeenergise (via : Via) (s : State) : Out := commanded via s.deenergise
def execRestart (via : Via) (key : BitVec 16) (s : State) : Out := commanded via (s.restart key.toNat)

/-- A command takes effect (R32, R342). -/
def State.applyCommand (s : State) (cmd cause : Nat) : State :=
  match cmd with
  | 1 => s.configureNow cause
  | 3 => s.settled.goto St.deblocked cause s.transPeriod
  | 4 => s.startDry
  | 5 => s.clearNow cause
  | 6 => s.deenergiseNow cause
  | 7 => s.restartNow
  | _ => s

/-- The pending transition takes effect at the boundary that has begun. -/
def State.pendingBoundary (s : State) : State :=
  match s.sys.pend with
  | some q => s.when (q.atPeriod == some s.sys.period && q.cmd != Cmd.energise) fun s => s.applyCommand q.cmd s.commandCause
  | none => s

end Sys2Proof.Machine
end

