-- ==== Sys2Proof/Machine/Accord.lean ====
section
/-! DEFINITION. Accords (R327 to R347): links and frames, the values within the period, the lead, and the two-phase mode
change. -/

namespace Sys2Proof.Machine

/-! ### Links (R327 to R329) -/

/-- A port trains: version range and PAIR_ID of the other end, the propagation measured in units of 0.1 ns, and whether the
other end belongs to the unit's own pair. -/
def State.accordTrained (s : State) (k lo hi d2 prop : Nat) (ownPair : Bool) : State :=
  match sharedVersion 0x10 0x11 lo hi with
  | none => s.put (R.IF_VER_NONE 2) true
  | some v =>
    let s := ((s.wr (R.IF_VER_RUN 2) v).put (R.IF_VER_NONE 2) false).put (R.ACD_PORTST_TRAINED k) true
    let s := ((s.wr (R.ACD_PORTST_VER k) v).put (R.ACD_PORTST_PEER_ID k) (bitOf d2 0)).wr (R.ACD_PORTST_DELAY k) prop
    let s := (s.put (R.ACD_PORTST_LONG k) (decide (1000 < prop))).when (ownPair != (k == 3)) fun s => s.put R.ACD_STATUS_WIRING true
    s.accordLinkCause.startDly (.accord (Fin.ofNat 4 k))

def execAccordPortTrained (port : Fin 4) (lowest highest d2 : BitVec 8) (prop : BitVec 16) (ownPair : Bool) (s : State) : Out :=
  .next (s.when s.inputsRun fun s => s.accordTrained port lowest.toNat highest.toNat d2.toNat prop.toNat ownPair)

/-! ### Frames (R330, R331) -/

namespace Acf
def type (f : List Byte) : Nat := byteAt f 0
def hops (f : List Byte) : Nat := bitsOf (byteAt f 2) 0 4
def hop (f : List Byte) : Nat := bitsOf (byteAt f 2) 4 4
def route (f : List Byte) : Nat := leAt f 4 2
def tag (f : List Byte) : Nat := leAt f 6 2
def sender (f : List Byte) : Nat := bitsOf (byteAt f 8) 0 3
def length (f : List Byte) : Nat := leAt f 10 2
def arg (f : List Byte) : Nat := leAt f 16 2
def body (f : List Byte) : List Byte := (f.drop 24).take (length f)
def headGood (f : List Byte) : Bool := leAt f 20 4 == crc32c (f.take 20)
def good (f : List Byte) : Bool :=
  f.length == 32 + length f && headGood f && leAt f (24 + length f) 4 == crc32c (body f)
end Acf

/-- An accord frame of level entry `l` for unit `u` of member `m`, on the route that the entry gives; nothing leaves where
it gives none, or from a unit that is not trained on the port. -/
def State.sendAccordTo (s : State) (l type arg : Nat) (body : List Byte) (m u : Nat) : State :=
  let hops := s.rd (R.LVLE_ROUTE_HOPS l (2 * m + u))
  let route := s.rd (R.LVLE_ROUTE_ROUTE l (2 * m + u))
  let port := route % 4
  let b := pad8 body
  let h := [BitVec.ofNat 8 type, BitVec.ofNat 8 (s.rd (R.IF_VER_RUN 2)), BitVec.ofNat 8 (hops + 16), 0#8] ++ bytesLE 2 route ++
    bytesLE 2 (s.rd (R.LVLE_W0_TAG l)) ++
    [BitVec.ofNat 8 (s.rd (R.LVLE_W0_MIDX l) + 8 * s.rd R.TIE_STATUS_PAIR_ID + 16 * m + 128 * u), 0#8] ++ bytesLE 2 b.length ++
    bytesLE 4 s.sys.period ++ bytesLE 2 arg ++ bytesLE 2 0
  if hops = 0 ∨ !s.on (R.ACD_PORTST_TRAINED port) then s
  else s.send (.accord port (h ++ bytesLE 4 (crc32c h) ++ b ++ bytesLE 4 (crc32c b) ++ bytesLE 4 0))

/-- Two copies, one for each unit of a member's pair. -/
def State.sendAccord (s : State) (l type arg : Nat) (body : List Byte) (m : Nat) : State :=
  (s.sendAccordTo l type arg body m 0).sendAccordTo l type arg body m 1

/-- The other members of a level entry. -/
def State.otherMembers (s : State) (l : Nat) : List Nat :=
  (upto (s.rd (R.LVLE_W0_NMEM l) + 1)).filter (· != s.rd (R.LVLE_W0_MIDX l))

/-- To every other member of an accord. -/
def State.sendMembers (s : State) (l type arg : Nat) (body : List Byte) : State :=
  s.forL (s.otherMembers l) fun m s => s.sendAccord l type arg body m

/-- To every other member and to the lead's own partner, which acts in step (R331). -/
def State.sendStaged (s : State) (l type : Nat) (body : List Byte) : State :=
  (s.sendMembers l type 0 body).sendAccordTo l type 0 body (s.rd (R.LVLE_W0_MIDX l)) (1 - s.rd R.TIE_STATUS_PAIR_ID)

/-- To the lead. -/
def State.sendLead (s : State) (l type arg : Nat) (body : List Byte) : State := s.sendAccord l type arg body (s.rd (R.LVLE_W1_LEAD l))

/-- The unit speaks for its pair. -/
def State.speaks (s : State) : Bool := s.controls

/-- A frame that is not at its destination goes on (R329, R330). -/
def State.forwardAccord (s : State) (f : List Byte) : State :=
  let hop := Acf.hop f
  let port := bitsOf (Acf.route f) (2 * hop) 2
  let h := patch (f.take 20) 2 [BitVec.ofNat 8 (Acf.hops f + 16 * (hop + 1))]
  let c := crc32c h
  let c := if Acf.headGood f then c else 2 ^ 32 - 1 - c
  if 32 ≤ f.length ∧ hop < Acf.hops f ∧ s.on (R.ACD_PORTST_TRAINED port) then
    s.send (.accord port (h ++ bytesLE 4 c ++ f.drop 24))
  else s

/-- A unit in RESET, SELF-TEST or LOCKED forwards and takes nothing. -/
def State.accordLive (s : State) (k : Nat) : Bool := s.inputsRun && s.st != St.locked && s.on (R.ACD_PORTST_TRAINED k)

def execAccordFrameForward (port : Fin 4) (frame : List Byte) (s : State) : Out :=
  .next (s.when (s.accordLive port) fun s => s.forwardAccord frame)

/-- A frame of a type at its destination: a bad one, or one with a TAG not held, is discarded and counts; a good one shows
that its sender is there, and acts for its level entry and sender. -/
def State.accordIn (s : State) (k type : Nat) (f : List Byte) (act : Nat → Nat → State → State) : State :=
  if !s.accordLive k || Acf.hop f != Acf.hops f then s
  else
    match s.levelEntries.find? fun l => s.rd (R.LVLE_W0_TAG l) == Acf.tag f with
    | some l =>
      if !Acf.good f then s.inc (R.ACD_PORTERR_CRC_ERR k)
      else if Acf.type f ≠ type then s
      else
        let m := Acf.sender f
        act l m { s with acd := { s.acd with heard := s.acd.heard ++ [8 * l + m] } }
    | none => s.inc (R.ACD_PORTERR_CRC_ERR k)

/-! ### Values within the period (R332, R338 to R340) -/

/-- The body of AGG and DIST for a level entry. -/
def State.valueBody (s : State) (l : Nat) : List Byte :=
  let vals := (upto 32).map fun v =>
    if s.on (R.LVLE_PUB_EN l v) then s.source s.delivered (s.rd (R.LVLE_PUB_KIND l v)) (s.rd (R.LVLE_PUB_INDEX l v)) else (f0, false)
  (vals.map fun x => bytesLE 4 x.1).flatten ++ bytesLE 4 (maskOf (vals.map Prod.snd)) ++
    [BitVec.ofNat 8 s.sys.epoch, BitVec.ofNat 8 (s.st + 16 * s.rd R.ACD_STATUS_PH), BitVec.ofNat 8 (s.rd (R.LVLE_W1_LEAD l)), 0#8]

/-- AGG and DIST of the period leave (R338): a lead's DIST, and a member's AGG. -/
def State.sendValues (s : State) : State :=
  s.when s.speaks fun s => s.forL s.levelEntries fun l s =>
    if s.on (R.LVLE_W1_IS_LEAD l) then s.sendMembers l 2 0 (s.valueBody l) else s.sendLead l 1 0 (s.valueBody l)

/-- The slots that a frame of a level, direction and member feeds take its values. -/
def State.takeValues (s : State) (l dir m : Nat) (b : List Byte) : State :=
  s.forN 256 fun g s =>
    if s.cfg (R.ACD_SLOT_EN g) = 1 ∧ s.cfg (R.ACD_SLOT_LVL g) = l ∧ s.cfg (R.ACD_SLOT_DIR g) = dir ∧
        (dir = 1 ∨ s.cfg (R.ACD_SLOT_MEMBER g) = m) then
      let v := s.cfg (R.ACD_SLOT_VALUE g)
      let x := s.acd
      let s := { s with acd := { x with agg := mapSet (fun _ => 0) x.agg g (leAt b (4 * v) 4),
                                        arrived := mapSet (fun _ => 0) x.arrived g (s.now - s.sys.t0) } }
      if bitOf (leAt b 128 4) v && (!s.inService || s.slotInTime g) then { s with acd := { s.acd with fresh := s.acd.fresh ++ [g] } } else s
    else s

/-- What every AGG and DIST reports beside its values: the lead that the sender holds, and FAULT-BLOCK (R334, R345). -/
def State.takeReport (s : State) (l m : Nat) (b : List Byte) : State :=
  let fault := bitsOf (byteAt b 133) 0 4 == St.faultBlock && (s.st == St.energised || s.st == St.deblocked)
  { s with acd := { s.acd with leads := mapSet (fun _ => 8) s.acd.leads (8 * l + m) (bitsOf (byteAt b 134) 0 3),
                               fault := s.acd.fault || fault } }

def execAgg (port : Fin 4) (frame : List Byte) (s : State) : Out :=
  .next (s.accordIn port 1 frame fun l m s =>
    let b := Acf.body frame
    let s := (s.takeValues l 0 m b).takeReport l m b
    { s with acd := { s.acd with aggGot := s.acd.aggGot ++ [8 * l + m] } })

def execDist (port : Fin 4) (frame : List Byte) (s : State) : Out :=
  .next (s.accordIn port 2 frame fun l m s =>
    let b := Acf.body frame
    let s := (s.takeValues l 1 m b).takeReport l m b
    let s := { s with acd := { s.acd with distGot := s.acd.distGot ++ [l] } }
    let epoch := byteAt b 132
    let st := bitsOf (byteAt b 133) 0 4
    let late := s.acd.staged.isSome && s.acd.pAct.isNone && bitsOf (byteAt b 133) 4 3 == 2 && (epoch != s.sys.epoch || st != s.st)
    if late then { s with acd := { s.acd with follow := some (epoch, st) } } else s)

/-- Which slots were stale in the window (R347). -/
def State.showSlots (s : State) : State :=
  s.forN 256 fun g s => s.when (s.cfg (R.ACD_SLOT_EN g) == 1) fun s => s.put (R.ACD_SLOT_STALE g) (!s.acd.fresh.contains g)

/-- A member has been lost for LOST_N periods: once (R340). -/
def State.memberLost (s : State) (l m : Nat) : State :=
  s.when (mapGet (fun _ => 0) s.acd.aggMiss (8 * l + m) == s.rd R.ACD_EPOCH_LOST_N) fun s => s.raiseAt 77 0 0 m

def State.leadLost (s : State) (l : Nat) : State :=
  s.when (mapGet (fun _ => 0) s.acd.distMiss l == s.rd R.ACD_EPOCH_LOST_N) fun s => s.raise 78

/-- The periods without a good AGG of each member, and without a good DIST, as the period ends. -/
def State.countValues (s : State) : State :=
  let step := fun (m : NMap Nat) (k : Nat) (got : Bool) => mapSet (fun _ => 0) m k (if got then 0 else min 65535 (mapGet (fun _ => 0) m k + 1))
  s.forL s.levelEntries fun l s =>
    if s.on (R.LVLE_W1_IS_LEAD l) then
      s.forL (s.otherMembers l) fun m s =>
        ({ s with acd := { s.acd with aggMiss := step s.acd.aggMiss (8 * l + m) (s.acd.aggGot.contains (8 * l + m)) } }).memberLost l m
    else ({ s with acd := { s.acd with distMiss := step s.acd.distMiss l (s.acd.distGot.contains l) } }).leadLost l

/-- One more period without a good frame reaches LOST_N. -/
def execAccordMemberLost (level : Fin 1024) (member : Fin 8) (s : State) : Out :=
  .next (s.when ((s.inService || s.on R.ACD_STATUS_FORMED) && s.on R.ACD_CFG_EN && s.on (R.LVLE_W1_IS_LEAD level)) fun s =>
    let k := 8 * level.val + member.val
    let n := s.rd R.ACD_EPOCH_LOST_N
    s.when (mapGet (fun _ => 0) s.acd.aggMiss k + 1 == n) fun s =>
      ({ s with acd := { s.acd with aggMiss := mapSet (fun _ => 0) s.acd.aggMiss k n } }).memberLost level member)

def execAccordLeadLost (level : Fin 1024) (s : State) : Out :=
  .next (s.when ((s.inService || s.on R.ACD_STATUS_FORMED) && s.on R.ACD_CFG_EN && !s.on (R.LVLE_W1_IS_LEAD level)) fun s =>
    let n := s.rd R.ACD_EPOCH_LOST_N
    s.when (mapGet (fun _ => 0) s.acd.distMiss level + 1 == n) fun s =>
      ({ s with acd := { s.acd with distMiss := mapSet (fun _ => 0) s.acd.distMiss level n } }).leadLost level)

/-! ### The lead (R334) -/

/-- Members of an accord from which frames have arrived in each of the last 16 maintenance periods, with the pair itself. -/
def State.presentMembers (s : State) (l : Nat) : List Nat :=
  (upto (s.rd (R.LVLE_W0_NMEM l) + 1)).filter fun m =>
    m == s.rd (R.LVLE_W0_MIDX l) || decide (16 ≤ mapGet (fun _ => 0) s.acd.heardRun (8 * l + m))

/-- FORMED, TOP and ELECT_DIFF. -/
def State.showFormed (s : State) : State :=
  let ls := s.levelEntries
  let lead := fun l => s.rd (R.LVLE_W1_LEAD l)
  let agrees := fun l m => m == s.rd (R.LVLE_W0_MIDX l) || mapGet (fun _ => 8) s.acd.leads (8 * l + m) == lead l
  let all := fun l => upto (s.rd (R.LVLE_W0_NMEM l) + 1)
  let formed := !ls.isEmpty && ls.all fun l => (all l).all fun m => (s.presentMembers l).contains m && agrees l m
  let diff := ls.any fun l => (s.presentMembers l).any fun m => mapGet (fun _ => 8) s.acd.leads (8 * l + m) != 8 && !agrees l m
  let top := formed && ls.all fun l => s.on (R.LVLE_W1_IS_LEAD l)
  ((s.put R.ACD_STATUS_FORMED formed).put R.ACD_STATUS_ELECT_DIFF diff).put R.ACD_STATUS_TOP top

/-- The lead of an accord: the lowest index that is a candidate and present; `cand` says which members have CAND = 1. -/
def State.elect (s : State) (l cand : Nat) : State :=
  let here := s.presentMembers l
  let own := s.rd (R.LVLE_W0_MIDX l)
  let may := here.filter fun m => if m = own then s.on (R.LVLE_W0_CAND l) else bitOf cand m
  let s := s.wr (R.LVLE_W1_PRESENT l) (maskOf ((upto 8).map fun m => here.contains m))
  match may with
  | [] => s.showFormed
  | m :: _ => ((s.wr (R.LVLE_W1_LEAD l) m).put (R.LVLE_W1_IS_LEAD l) (m == own)).showFormed

def execLeadElection (level : Fin 1024) (cand : BitVec 8) (s : State) : Out :=
  .next (s.when (s.writable && s.levelEntries.contains level.val) fun s => s.elect level cand.toNat)

/-! ### Mode changes (R341 to R345) -/

/-- The state that a command leads to. -/
def targetOf : Nat → Nat
  | 1 => St.configured
  | 3 => St.deblocked
  | 6 => St.configured
  | 7 => St.reset
  | _ => St.energised

/-- The conditions of a staged command at this unit (R341); ENERGISE leaves the report of its fit check. -/
def State.stagedCode (s : State) (cmd above : Nat) : State × Nat :=
  match cmd with
  | 1 => (s, s.configureCode)
  | 2 => s.energiseCode above
  | 3 => (s, s.deblockCode)
  | 5 => (s, s.clearCode)
  | 6 => (s, s.deenergiseCode)
  | _ => (s, 0)

/-- The states from which a command may be staged (R31). -/
def stagedFrom (cmd st : Nat) : Bool :=
  match cmd with
  | 1 => st == St.safeHold
  | 2 => st == St.configured
  | 3 => st == St.energised
  | 4 => st == St.deblocked
  | 5 => st == St.faultBlock
  | 6 => st == St.energised || st == St.faultBlock
  | 7 => st == St.safeHold || st == St.configured || st == St.faultBlock
  | _ => false

/-- The number with given low 32 bits that lies nearest to another. -/
def nearest32 (near low : Nat) : Nat :=
  let p := near - near % 2 ^ 32 + low
  if near + 2 ^ 31 < p ∧ 2 ^ 32 ≤ p then p - 2 ^ 32 else if p + 2 ^ 31 < near then p + 2 ^ 32 else p

/-- ACK with a result to the lead of a level entry. -/
def State.sendAck (s : State) (l cmd code : Nat) : State :=
  if s.speaks then s.sendLead l 4 0 ([BitVec.ofNat 8 cmd, BitVec.ofNat 8 code] ++ List.replicate 6 0#8) else s

/-- The level entry whose lead is another pair: the way up. -/
def State.upLevel (s : State) : Option Nat := s.levelEntries.find? fun l => !s.on (R.LVLE_W1_IS_LEAD l)

def execStage (port : Fin 4) (frame : List Byte) (s : State) : Out :=
  .next (s.accordIn port 3 frame fun l _ s =>
    let b := Acf.body frame
    let cmd := byteAt b 0
    let above := leAt b 8 4
    let busy := s.on R.DEV_STATE_BUSY
    let (s, code) := if busy then (s, 2) else if !stagedFrom cmd s.st then (s, 1) else s.stagedCode cmd above
    if code ≠ 0 then s.sendAck l cmd code
    else
      let near := s.now / (if cmd = Cmd.energise then s.rd R.PERIOD_CFG_TC * 500 else s.periodNs)
      let p1 := nearest32 near (leAt b 12 4)
      let g : Staged := { cmd := cmd, epoch := byteAt b 1, deadline := nearest32 s.sys.period (leAt b 4 4), above := above, p1 := p1,
                          code := 0, acked := false }
      let s := if cmd = Cmd.energise then s.energiseStarts p1
        else { s with sys := { s.sys with pend := some { cmd := cmd, target := targetOf cmd, atPeriod := none } } }.put R.DEV_STATE_BUSY true
      let s := { s with acd := { s.acd with staged := some g, pAct := none, stageDue := !s.ledLevels.isEmpty, commitDue := false,
                                            cancelDue := none, above := above } }
      let s := s.forL s.ledLevels fun l s => s.wr (R.LVLE_W1_ACKED l) 0
      let s := ((s.wr R.ACD_MODE_CMD cmd).wr R.ACD_MODE_NEW_EPOCH g.epoch).wr R.ACD_MODE_RESULT 0
      (s.wr R.ACD_MODE_CODE 0).wr R.ACD_STATUS_PH 1)

/-- Every member of the accords that this pair leads has acknowledged. -/
def State.allAcked (s : State) : Bool :=
  s.ledLevels.all fun l => (s.otherMembers l).all fun m => s.bit (R.LVLE_W1_ACKED l) m

/-- A refusal of the staged change is known: the top lead cancels at its next t_ML, another unit passes it upward. -/
def State.refusalKnown (s : State) (code : Nat) : State :=
  let s := s.stagedFails code
  if s.twoPhase then { s with acd := { s.acd with cancelDue := s.acd.cancelDue.or (some code) } }
  else
    match s.acd.staged, s.upLevel with
    | some g, some l => s.sendAck l g.cmd g.code
    | _, _ => s

def execAck (port : Fin 4) (frame : List Byte) (s : State) : Out :=
  .next (s.accordIn port 4 frame fun l m s =>
    let b := Acf.body frame
    match s.acd.staged with
    | none => s
    | some g =>
      if byteAt b 0 ≠ g.cmd ∨ !s.on (R.LVLE_W1_IS_LEAD l) ∨ s.acd.pAct.isSome then s
      else if byteAt b 1 = 0 then s.putBit (R.LVLE_W1_ACKED l) m true
      else s.refusalKnown (byteAt b 1))

/-- A unit that takes no acknowledgement upward yet sends it at t_CA (R341, R345): ready, refused by its own preparation,
or in FAULT-BLOCK since it staged. -/
def State.ackDue (s : State) : State :=
  match s.acd.staged, s.upLevel with
  | some g, some l =>
    if g.acked ∨ s.acd.pAct.isSome then s
    else
      let lost := s.sys.pend.isNone
      let code := if g.code ≠ 0 then g.code else if lost then 7 else 0
      let ready := code ≠ 0 || ((g.cmd != Cmd.energise || s.prepDone) && s.allAcked)
      if ready then ({ s with acd := { s.acd with staged := some { g with acked := true } } }).sendAck l g.cmd code else s
  | _, _ => s

/-- The body of a COMMIT. -/
def State.commitBody (s : State) (g : Staged) (p : Nat) : List Byte :=
  let t := if g.cmd = Cmd.energise then (s.sys.prep.map Prep.t1).getD 0 else p * s.periodNs
  [BitVec.ofNat 8 g.cmd, BitVec.ofNat 8 g.epoch, 0#8, 0#8] ++ bytesLE 4 p ++ bytesLE 4 (nsOf t) ++ bytesLE 6 (secOf t) ++
    List.replicate 6 0#8

/-- The change is committed at this unit for a period (R342). -/
def State.commitChange (s : State) (p : Nat) : State :=
  let s := { s with acd := { s.acd with pAct := some p },
                    sys := { s.sys with pend := s.sys.pend.map fun (q : Pend) => { q with atPeriod := some p } } }
  ((s.wr R.ACD_MODE_RESULT 1).wr R.ACD_MODE_P_P_ACT p).wr R.ACD_STATUS_PH 2

/-- The top lead commits where every acknowledgement is there by t_LE of a period no later than DEADLINE (R342). -/
def State.commitOwn (s : State) : State :=
  match s.acd.staged with
  | none => s
  | some g =>
    if s.twoPhase && s.acd.pAct.isNone && s.acd.cancelDue.isNone && g.code == 0 && s.sys.pend.isSome && s.allAcked &&
        (g.cmd != Cmd.energise || s.prepDone) && decide (s.sys.period ≤ g.deadline) then
      let p := if g.cmd = Cmd.energise then g.p1 else s.sys.period + Nat.max (s.rd R.ACD_CFG_ACT_LEAD) (s.rd R.ACD_STATUS_ACT_MIN)
      let s := s.commitChange p
      { s with acd := { s.acd with commitDue := true, stageDue := false } }
    else s

/-- t_LE of DEADLINE has passed without every ACK: CANCEL, with 04h where an acknowledgement is missing (R343). -/
def State.stageDeadline (s : State) : State :=
  match s.acd.staged with
  | none => s
  | some g =>
    if s.twoPhase && s.acd.pAct.isNone && s.acd.cancelDue.isNone then
      if s.sys.pend.isNone then { s with acd := { s.acd with cancelDue := some (if g.code = 0 then 7 else g.code) } }
      else if decide (g.deadline ≤ s.sys.period) && !s.allAcked then { s with acd := { s.acd with cancelDue := some 4 } }
      else s
    else s

def execStageDeadline (s : State) : Out := .next s.commitOwn.stageDeadline

/-- A staged change is given up: state and epoch stay (R343). -/
def State.revert (s : State) (result code : Nat) : State :=
  let energise := s.sys.prep.isSome
  let s := { s with acd := { s.acd with staged := none, pAct := none, stageDue := false, commitDue := false, cancelDue := none } }
  let s := (s.settled.wr R.ACD_STATUS_PH 0).wr R.ACD_MODE_RESULT result
  (s.wr R.ACD_MODE_CODE code).when energise State.restoreBounds

/-- The body of a CANCEL. -/
def cancelBody (cmd code : Nat) : List Byte := [BitVec.ofNat 8 cmd, BitVec.ofNat 8 code] ++ List.replicate 6 0#8

/-- STAGE, COMMIT and CANCEL leave at t_ML (R341 to R343). A STANDBY clears what its ACTIVE has sent. -/
def State.sendModes (s : State) : State :=
  match s.acd.staged with
  | none => s
  | some g =>
    match s.acd.cancelDue with
    | some code =>
      let top := s.twoPhase
      let s := s.when s.speaks fun s => s.forL s.ledLevels fun l s => s.sendStaged l 6 (cancelBody g.cmd code)
      if top then (s.revert (if code = 4 ∧ g.code = 0 then 3 else 2) code).refuse g.cmd code else s.revert (if code = 4 then 3 else 2) code
    | none =>
      let above := g.above + s.ledTerms
      let stage := [BitVec.ofNat 8 g.cmd, BitVec.ofNat 8 g.epoch, 0#8, 0#8] ++ bytesLE 4 g.deadline ++ bytesLE 4 above ++
        bytesLE 4 (if g.cmd = Cmd.energise then g.p1 else 0)
      let s := s.when (s.acd.stageDue && s.speaks) fun s => s.forL s.ledLevels fun l s => s.sendStaged l 3 stage
      let s := s.when (s.acd.commitDue && s.speaks) fun s => s.forL s.ledLevels fun l s =>
        s.sendStaged l 5 (s.commitBody g (s.acd.pAct.getD 0))
      { s with acd := { s.acd with stageDue := false, commitDue := false } }

def execCommit (port : Fin 4) (frame : List Byte) (s : State) : Out :=
  .next (s.accordIn port 5 frame fun _ _ s =>
    let b := Acf.body frame
    match s.acd.staged with
    | none => s
    | some g =>
      if byteAt b 0 ≠ g.cmd ∨ s.sys.pend.isNone then s
      else
        let p := nearest32 (if g.cmd = Cmd.energise then g.p1 else s.sys.period) (leAt b 4 4)
        let s := s.commitChange p
        s.when s.speaks fun s => s.forL s.ledLevels fun l s => s.sendStaged l 5 b)

def execCancel (port : Fin 4) (frame : List Byte) (s : State) : Out :=
  .next (s.accordIn port 6 frame fun _ _ s =>
    let b := Acf.body frame
    match s.acd.staged with
    | none => s
    | some g =>
      if byteAt b 0 ≠ g.cmd then s
      else if s.ledLevels.isEmpty then s.revert (if byteAt b 1 = 4 then 3 else 2) (byteAt b 1)
      else { s with acd := { s.acd with cancelDue := some (byteAt b 1) } })

/-- The last period in which a staged unit waits for COMMIT (R344). -/
def State.stageLimit (s : State) (g : Staged) : Nat := g.deadline + s.rd R.ACD_CFG_ACT_LEAD + s.rd R.ACD_EPOCH_LOST_N

/-- A staged unit without COMMIT reverts at its limit and raises source 77 (R344). -/
def State.stageRevert (s : State) : State :=
  match s.acd.staged with
  | none => s
  | some g => s.when (!s.twoPhase && s.acd.pAct.isNone && decide (s.stageLimit g ≤ s.sys.period)) fun s => (s.revert 3 4).raise 77

def execStageRevert (s : State) : Out := .next s.stageRevert

/-- The change that DIST gave takes effect at the boundary (R344). -/
def State.followDist (s : State) : State :=
  match s.acd.follow with
  | none => s
  | some (epoch, st) =>
    let s := { s with acd := { s.acd with follow := none } }
    match s.acd.staged with
    | none => s
    | some g =>
      let s := (s.put R.ACD_STATUS_LATE_COMMIT true).commitChange s.sys.period
      let s := if st = s.st then s
        else if g.cmd = Cmd.energise then
          match s.sys.prep with
          | some q => s.energiseNow q Cause.follow
          | none => s
        else s.applyCommand g.cmd Cause.follow
      { s with sys := { s.sys with epoch := epoch } }.wr R.ACD_STATUS_EPOCH epoch

/-- The activation instant: t0 of P_act (R342). ENERGISE takes effect at t_1 by the same boundary. -/
def State.activation (s : State) : State :=
  s.when (s.acd.pAct == some s.sys.period) State.pendingBoundary

def execActivationInstant (s : State) : Out := .next s.activation

/-- What the accord does at a boundary, after the period number has advanced: the counts, FAULT-BLOCK reported by another
member, late commits, and what is heard in the maintenance period. -/
def State.accordBoundary (s : State) : State :=
  if !s.on R.ACD_CFG_EN then s
  else
    let s := s.when (s.inService || s.on R.ACD_STATUS_FORMED) State.countValues
    let s := if s.writable then
        let keys := (s.levelEntries.map fun l => (s.otherMembers l).map fun m => 8 * l + m).flatten
        let runs := keys.foldl (fun m k => mapSet (fun _ => 0) m k
          (if s.acd.heard.contains k then min 16 (mapGet (fun _ => 0) m k + 1) else 0)) s.acd.heardRun
        { s with acd := { s.acd with heardRun := runs } }.showFormed
      else s
    let s := s.when (s.acd.fault && (s.st == St.energised || s.st == St.deblocked)) fun s => s.faultBlock Cause.follow
    let s := (s.followDist).stageRevert
    let done := match s.acd.staged with
      | some g => s.acd.pAct.isSome && s.sys.pend.isNone && decide (s.stageLimit g ≤ s.sys.period)
      | none => false
    let s := if done then { s with acd := { s.acd with staged := none, pAct := none } }.wr R.ACD_STATUS_PH 0 else s
    { s with acd := { s.acd with fault := false, heard := [], aggGot := [], distGot := [], arrived := [], fresh := [] } }

end Sys2Proof.Machine
end

