-- ==== Sys2Proof/Machine/Acq.lean ====
section
/-! DEFINITION. The disturbance capture (R434 to R452): rows, the trigger sequencer, requests, and what an accord's members
exchange. -/

namespace Sys2Proof.Machine

/-! ### Arming (R444) -/

/-- Cells of the arms set in CELL_ARMS, in ascending port and position (R436, R437). -/
def State.recorded (s : State) : List Nat :=
  ((upto 48).filter fun p => decide (s.portArm p < 6) && s.bit R.ACQ_CFG_CELL_ARMS (s.portArm p)).flatMap fun p =>
    (upto (s.ncell p)).map fun pos => s.handle p pos

/-- R_B of R436. -/
def State.rowBytes (s : State) : Nat :=
  let e := if s.on R.ACQ_CFG_CELL_FMT then 8 else 2
  ceilDiv (16 + 4 * s.rd R.ACQ_CFG_N_VAL + e * s.recorded.length) 16 * 16

/-- The repetitive region is enabled (R482). -/
def State.repRegion (s : State) : Option (Nat × Nat) :=
  if (upto 256).any fun i => s.on (R.DESC_CTRL_EN i) && s.on (R.DESC_CTRL_REP_EN i) then some (s.rd R.REP_BASE_BASE, 2 ^ 24) else none

/-- The trace ring while TRC_CFG.EN = 1. -/
def State.traceRegion (s : State) : Option (Nat × Nat) :=
  if s.on R.TRC_CFG_EN then some (s.rd R.TRC_BASE_BASE, s.rd R.TRC_SIZE_SIZE) else none

def State.ringRegion (s : State) : Nat × Nat := (0x10000000 + s.rd R.ACQ_RING_BASE * 2 ^ 20, s.rd R.ACQ_RING_SIZE * 2 ^ 20)

/-- The code that refuses an ARM, 0 for none; the lowest where several apply. -/
def State.armCode (s : State) (gate : Bool) : Nat :=
  let rb := s.rowBytes
  let ring := s.ringRegion
  let n := ring.2 / rb
  let pre := s.rd R.ACQ_PRE_PRE
  let acd := s.on R.ACD_CFG_EN
  let d := ceilDiv (4 * s.rd R.ACQ_CFG_N_VAL + 2 * s.recorded.length) 16 * 16
  let rec' := 64 + d + (pre + 1 + s.rd R.ACQ_POST_POST) * rb
  let clash := fun (r : Option (Nat × Nat)) => (r.map fun x => overlaps ring.1 ring.2 x.1 x.2).getD false
  let len := s.rd R.ACQ_CFG_SEQ_LEN
  if !gate || (s.aqs != Aq.idle && s.aqs != Aq.done) then 1
  else if n < pre + 1 + (if acd then 16 else 0) then 2
  else if s.rd R.ACQ_SLOT_SLOT_MB * 2 ^ 20 < rec' ∨
      s.rd R.DDR_STATUS_SIZE_GB * 1024 < s.rd R.ACQ_DDR_BASE + s.rd R.ACQ_SLOT_N_SLOT * s.rd R.ACQ_SLOT_SLOT_MB then 3
  else if !s.sramFits ring || clash s.repRegion || clash s.traceRegion || clash s.imageRegion then 4
  else if s.periodNs < rb then 5
  else if acd && (upto 4).any fun k => s.on (R.ACD_PORTST_TRAINED k) && s.rd (R.ACD_PORTST_VER k) == 0x10 then 6
  else if !s.on R.DDR_STATUS_READY then 7
  else if (upto len).any fun q => decide (len ≤ s.rd (R.SQ_CFG_NEXT q)) ||
      (s.rd (R.SQ_TIM_TMO q) != 0 && decide (len ≤ s.rd (R.SQ_CFG_TMO_NEXT q))) then 8
  else 0

/-- The capture starts: FILL, the sequencer in state 0, the layout fixed (R437, R438, R441). -/
def State.acqStart (s : State) (armAt : Option Nat) : State :=
  let rb := s.rowBytes
  let s := (((s.setAqs Aq.fill).put R.ACQ_STATUS_MODE (s.on R.ACD_CFG_EN)).wr R.ACQ_STATUS_SEQ_ST 0).wr R.ACQ_STATUS_ARM_ERR 0
  let s := ((s.wr R.ACQ_LAYOUT_ROW_B rb).wr R.ACQ_LAYOUT_N_CELL s.recorded.length).wr R.ACQ_RINGROWS_N_RING (s.ringRegion.2 / rb)
  let lines := (upto 64).filter fun n => s.lineActive n (s.on (R.GPIO_STATUS_DELIVERED n))
  { s with acq := { Acq.reset with cells := s.recorded, lines := lines, entered := s.acq.entered, armAt := armAt, marks := s.acq.marks },
           flt := { s.flt with events := [] } }

/-- An acquisition frame to members, or to the lead (R449). -/
def State.acqBody (s : State) (p cause : Nat) : List Byte :=
  bytesLE 8 p ++ bytesLE 4 (s.rd R.ACQ_REC_SEQ_SEQ) ++ [BitVec.ofNat 8 cause, 0#8, 0#8, 0#8]

def State.acqDown (s : State) (arg p cause : Nat) : State :=
  s.when s.speaks fun s => s.forL s.ledLevels fun l s => s.sendMembers l 9 arg (s.acqBody p cause)

def State.acqUp (s : State) (arg p cause : Nat) : State :=
  s.when s.speaks fun s => (s.upLevel.map fun l => s.sendLead l 9 arg (s.acqBody p cause)).getD s

/-- The top lead of an accord, or a unit in none. -/
def State.acqLeads (s : State) : Bool := !s.on R.ACD_CFG_EN || s.upLevel.isNone

/-- ARM at this unit: refused with its code, or started; in an accord the members are armed for P_arm (R444, R449). -/
def State.acqArm (s : State) (gate : Bool) : State × Nat :=
  let c := s.armCode gate
  if c ≠ 0 then (s.wr R.ACQ_STATUS_ARM_ERR c, 0x08000022)
  else if s.on R.ACD_CFG_EN then ((s.acqStart (some (s.sys.period + 2))).acqDown 1 (s.sys.period + 2) 0, 0)
  else (s.acqStart none, 0)

def State.acqDisarm (s : State) : State := s.acqStop.acqDown 5 s.sys.period 0

/-! ### Mark log (R451) -/

/-- The oldest entry and the depth show. -/
def State.showMarks (s : State) : State :=
  let m := s.acq.marks.headD (MarkA.mk 0 0 0)
  ((((s.wr R.ACQ_MARK_P_PERIOD m.period).wr R.ACQ_MARK_INFO_CAUSE m.cause).wr R.ACQ_MARK_INFO_OUTCOME m.outcome).put
    R.ACQ_MARK_INFO_VALID (!s.acq.marks.isEmpty)).wr R.ACQ_MARK_INFO_DEPTH s.acq.marks.length

def State.addMark (s : State) (period cause outcome : Nat) : State :=
  if 16 ≤ s.acq.marks.length then s.inc R.ACQ_MARK_INFO_LOG_LOST
  else { s with acq := { s.acq with marks := s.acq.marks ++ [MarkA.mk (period % 2 ^ 32) cause outcome] } }.showMarks

def State.markNext (s : State) : State := { s with acq := { s.acq with marks := s.acq.marks.tail } }.showMarks

/-- FORCE waits for the evaluation; in IDLE and DONE it is discarded and logged (R440, R451). -/
def State.acqForce (s : State) : State :=
  if s.acqRuns then { s with acq := { s.acq with force := true } } else s.addMark s.sys.period 16 4

def State.acqClr (s : State) : State :=
  ((s.setWord R.ACQ_CNT_A_EARLY_TRIG.addr 0).setWord R.ACQ_CNT_B_IN_REC.addr 0).wr R.ACQ_DEAD_MAX_MAX 0

/-! ### The trigger sequencer (R438, R439) -/

/-- Delivered outputs of the last evaluation, for KIND 5h. -/
def State.acqPrev (s : State) : Delivered := fun i j => mapGet (fun _ => f0) s.acq.outs (8 * i + j)

/-- A cell's slot of the present period reports FIRE. -/
def State.cellFired (s : State) (h : Nat) : Bool :=
  let k := keyOfExt h
  !s.slotMissing k && bitOf (byteAt (s.view k).slot 0) 6

/-- The condition of a sequencer state. -/
def State.sqCond (s : State) (q : Nat) : Bool :=
  let src := s.rd (R.SQ_SRC_SRC q)
  let op := s.rd (R.SQ_CFG_OP q)
  match s.rd (R.SQ_CFG_COND q) with
  | 1 => true
  | 2 =>
    let (x, fresh) := s.source s.acqPrev (src % 16) (src / 16)
    let thr := s.rd (R.SQ_THR_THR q)
    let up := ((mapGet (fun _ => none) s.acq.prev q).map fun p => fLe p thr && fLt thr x).getD false
    let hit := if op = 0 then fLt thr x else if op = 1 then fLt x thr else if op = 2 then up else fLt thr (fAbs x)
    fresh && f32Finite x && hit
  | 3 =>
    let n := src % 64
    let act := s.lineActive n (s.on (R.GPIO_STATUS_DELIVERED n))
    let was := s.acq.lines.contains n
    match op with
    | 0 => act
    | 1 => !act
    | 2 => act && !was
    | _ => !act && was
  | 4 => if op = 0 then s.latched (src % 128) else s.flt.events.contains (src % 128)
  | 5 =>
    if op = 0 then
      (upto 48).any fun p => decide (s.portArm p < 6) && bitOf src (s.portArm p) &&
        (upto (s.ncell p)).any fun pos => s.cellFired (s.handle p pos)
    else s.cellFired src
  | 6 => if op = 0 then s.acq.entered == some (src % 16) else s.st == src % 16
  | _ => false

/-- A sequencer state is entered: its count and timer start at 0. -/
def State.sqEnter (s : State) (q : Nat) : State :=
  { s.wr R.ACQ_STATUS_SEQ_ST q with acq := { s.acq with cnt := 0, tmr := 0 } }

/-- CNT_N matches are reached: NEXT, with a request where FIRE is set. -/
def State.sqMatch (s : State) : State × Option Nat :=
  let q := s.rd R.ACQ_STATUS_SEQ_ST
  (s.sqEnter (s.rd (R.SQ_CFG_NEXT q)), if s.on (R.SQ_CFG_FIRE q) then some (q + 8) else none)

def State.sqMatched (s : State) : Bool := decide (s.rd (R.SQ_CFG_CNT_N (s.rd R.ACQ_STATUS_SEQ_ST)) ≤ s.acq.cnt)

def State.sqTimedOut (s : State) : Bool :=
  let t := s.rd (R.SQ_TIM_TMO (s.rd R.ACQ_STATUS_SEQ_ST))
  t != 0 && decide (t ≤ s.acq.tmr)

def State.sqTimeout (s : State) : State := s.sqEnter (s.rd (R.SQ_CFG_TMO_NEXT (s.rd R.ACQ_STATUS_SEQ_ST)))

/-- One evaluation of the sequencer, with the cause of the request it makes. -/
def State.sequencer (s : State) : State × Option Nat :=
  let q := s.rd R.ACQ_STATUS_SEQ_ST
  let cnt := if s.sqCond q then s.acq.cnt + 1 else if s.on (R.SQ_CFG_CONSEC q) then 0 else s.acq.cnt
  let s := { s with acq := { s.acq with cnt := cnt } }
  if s.sqMatched then s.sqMatch
  else
    let s := { s with acq := { s.acq with tmr := s.acq.tmr + 1 } }
    (s.when s.sqTimedOut State.sqTimeout, none)

def execSequencerMatch (s : State) : Out :=
  .next (if s.acqRuns && s.sqMatched then
    let x := s.sqMatch
    match x.2 with
    | some c =>
      if x.1.acqLeads then { x.1 with acq := { x.1.acq with reqs := x.1.acq.reqs ++ [(x.1.sys.period, c)] } }
      else x.1.acqUp 2 x.1.sys.period c
    | none => x.1
  else s)

def execSequencerTimeout (s : State) : Out := .next (s.when (s.acqRuns && !s.sqMatched && s.sqTimedOut) State.sqTimeout)

/-! ### Rows (R436, R437) -/

/-- A cell's entry in a row. -/
def State.cellEntry (s : State) (full : Bool) (h : Nat) : List Byte :=
  let k := keyOfExt h
  let v := s.view k
  let missing := s.slotMissing k
  let sill := s.sillage (k / 128) (k % 128)
  let volt := if missing then 0xFFFF else min 0xFFFE (leAt v.slot 2 3 / 32)
  let w := bytesLE 2 volt
  if !full then w
  else if missing || !sill || v.sil.isEmpty then
    w ++ bytesLE 4 0 ++ [BitVec.ofNat 8 ((if missing || (sill && v.sil.isEmpty) then 8 else 0) + if sill then 0 else 16), 0#8]
  else
    let mark := bitOf (byteAt v.sil 4) 0
    let ch0 := if mark then leAt v.slot 12 2 else leAt v.sil 0 2
    w ++ bytesLE 2 ch0 ++ bytesLE 2 (leAt v.sil 2 2) ++
      [BitVec.ofNat 8 (bitsOf (byteAt v.sil 4) 0 3 + if bitOf (byteAt v.slot 0) 6 then 32 else 0), BitVec.ofNat 8 (byteAt v.sil 5)]

/-- The values of a row: each with its freshness, a stale one as it was last. -/
def State.rowValues (s : State) : List (Nat × Bool) :=
  (upto (s.rd R.ACQ_CFG_N_VAL)).map fun v =>
    let (x, fresh) := s.source s.acqPrev (s.rd (R.ACQ_VAL_KIND v)) (s.rd (R.ACQ_VAL_INDEX v))
    (if fresh then x else mapGet (fun _ => f0) s.acq.vals v, fresh)

/-- The row of the present period goes into the ring (R435). -/
def State.writeRow (s : State) (mark trig : Bool) : State :=
  let vals := s.rowValues
  let missing := (s.acq.cells.filter fun h => s.slotMissing (keyOfExt h)).length
  let b8 := s.st + 16 * mark.toNat + 32 * trig.toNat + 64 * s.neutral.toNat
  let row := bytesLE 8 s.sys.period ++ [BitVec.ofNat 8 b8, BitVec.ofNat 8 (s.rd R.ACQ_STATUS_SEQ_ST)] ++ bytesLE 2 missing ++
    bytesLE 4 (maskOf (vals.map Prod.snd)) ++ (vals.map fun x => bytesLE 4 x.1).flatten ++
    (s.acq.cells.map (s.cellEntry (s.on R.ACQ_CFG_CELL_FMT))).flatten
  let s := s.storeBytes (s.rowAddr s.acq.total) (fitTo (s.rd R.ACQ_LAYOUT_ROW_B) row)
  { s with acq := { s.acq with total := s.acq.total + 1, fill := s.acq.fill + 1,
                               vals := (vals.zipIdx).map fun x => (x.2, x.1.1) } }

/-! ### Requests and records (R440 to R442, R450) -/

/-- A record begins with the row of period `p`, which is `back` rows before the present one. -/
def State.beginRecord (s : State) (p back cause : Nat) : State :=
  let trig := s.acq.total - back
  let held := min (s.acq.fill - back) (s.rd R.ACQ_RINGROWS_N_RING - back - 1)
  let pre := min (s.rd R.ACQ_PRE_PRE) held
  let r : RecA :=
    { cause := cause, pTrig := p, time := s.sys.t0 - back * s.periodNs, pre := pre, trig := trig, last := trig + s.rd R.ACQ_POST_POST,
      next := trig - pre, slot := s.acq.slot, flags := (decide (pre < s.rd R.ACQ_PRE_PRE)).toNat,
      dead := if s.acq.had then s.acq.dead else 0, missed := s.acq.missed, early := s.acq.early, ae := s.rd R.TIE_STATUS_AE }
  let s := { s.setAqs Aq.post with acq := { s.acq with rec' := some r, missed := 0, early := 0, closed := false, closedBy := [] } }
  let a := s.rowAddr trig + 8
  s.when (back != 0) fun s => s.storeByte a (BitVec.ofNat 8 (Machine.putBit (s.loadByte a).toNat 5 true))

/-- The outcome of a request for period `p`, judged by the state of the present evaluation (R440, R450). -/
def State.judge' (s : State) (p cause : Nat) : State × Nat :=
  let back := s.sys.period - p
  let held := decide (s.rd R.ACQ_PRE_PRE + back ≤ s.acq.fill) && decide (s.rd R.ACQ_PRE_PRE + back < s.rd R.ACQ_RINGROWS_N_RING)
  if s.aqs = Aq.ready ∧ (back = 0 ∨ held) then (s.beginRecord p back cause, 0)
  else if s.aqs = Aq.post then (s.inc R.ACQ_CNT_B_IN_REC, 2)
  else if s.aqs = Aq.close then
    ({ s.inc R.ACQ_CNT_A_MISSED_TRIG with acq := { s.acq with missed := satAdd 16 s.acq.missed 1 } }, 3)
  else ({ s.inc R.ACQ_CNT_A_EARLY_TRIG with acq := { s.acq with early := satAdd 16 s.acq.early 1 } }, 1)

/-- A fill that holds PRE rows is ready; the first evaluation in READY ends the dead time (R441, R442). -/
def State.acqReady (s : State) : State :=
  if s.aqs = Aq.fill ∧ s.rd R.ACQ_PRE_PRE ≤ s.acq.fill then
    let s := s.setAqs Aq.ready
    s.when s.acq.had fun s =>
      let d := s.acq.fill
      let s := (s.wr R.ACQ_DEAD_LAST_LAST d).wr R.ACQ_DEAD_MAX_MAX (Nat.max (s.rd R.ACQ_DEAD_MAX_MAX) d)
      { s with acq := { s.acq with dead := d } }
  else s

/-- The last row of a record has been written: CLOSE, and the next fill begins (R441). -/
def State.acqClose (s : State) : State :=
  match s.acq.rec' with
  | some r =>
    if s.aqs = Aq.post ∧ r.last < s.acq.total then
      { s.setAqs Aq.close with acq := { s.acq with fill := s.acq.total - (r.last + 1) } }
    else s
  | none => s

/-- What the next evaluation compares with. -/
def State.acqRemember (s : State) : State :=
  let srcs := (upto 8).map fun q => s.rd (R.SQ_SRC_SRC q)
  let named := (srcs.filter fun x => x % 16 == 5).map (· / 16) ++
    ((upto 32).filter fun v => s.rd (R.ACQ_VAL_KIND v) == 5).map fun v => s.rd (R.ACQ_VAL_INDEX v)
  let prev := (upto 8).foldl (fun m q =>
    let x := s.source s.acqPrev (s.rd (R.SQ_SRC_SRC q) % 16) (s.rd (R.SQ_SRC_SRC q) / 16)
    if s.rd (R.SQ_CFG_COND q) = 2 ∧ x.2 then mapSet (fun _ => none) m q (some x.1) else m) s.acq.prev
  { s with acq := { s.acq with prev := prev, outs := named.foldl (fun m x => mapSet (fun _ => f0) m x (s.delivered (x / 8) (x % 8))) [],
                               lines := (upto 64).filter fun n => s.lineActive n (s.on (R.GPIO_STATUS_DELIVERED n)) },
           flt := { s.flt with events := [] } }

/-- One evaluation: the fill, the sequencer, the requests with their outcomes, the row, and the end of a record. -/
def State.acqEvaluate (s : State) : State :=
  if !s.acqRuns || (s.acq.armAt.map fun p => decide (s.sys.period < p)).getD false then s
  else
    let s := s.acqReady
    let (s, fired) := s.sequencer
    let own := if fired.isSome || s.acq.force then some (fired.getD 0 + if s.acq.force then 16 else 0) else none
    let leads := s.acqLeads
    let p := s.sys.period
    let reqs := sortBy Prod.fst (s.acq.reqs ++ (own.map fun c => (p, c)).toList)
    let s := { s with acq := { s.acq with force := false, armAt := none, reqs := [] } }
    let s := if leads then
        s.forL reqs fun r s =>
          let (s, outcome) := s.judge' r.1 r.2
          (s.addMark r.1 r.2 outcome).when (outcome == 0) fun s => s.acqDown 3 r.1 r.2
      else
        match own with
        | none => s
        | some c =>
          let outcome := if s.aqs = Aq.post then 2 else if s.aqs = Aq.close then 3 else if s.aqs = Aq.ready then 0 else 1
          (s.addMark p c outcome).acqUp 2 p c
    let trig := (s.acq.rec'.map fun r => r.trig == s.acq.total).getD false
    ((s.writeRow own.isSome trig).copyRows.acqClose).acqRemember

def execAcqEvaluation (s : State) : Out := .next (s.when (s.inputsRun && s.st != St.locked) State.acqEvaluate)

/-- Every member of the levels led has reported CLOSED. -/
def State.allClosed (s : State) : Bool :=
  s.ledLevels.all fun l => (s.otherMembers l).all fun m => s.acq.closedBy.contains (8 * l + m)

/-- A record that is copied whole leaves CLOSE: DONE in single mode, the next fill in continuous mode once every member has
closed, or IDLE after a DISARM (R441, R443, R450). -/
def State.leaveClose (s : State) : State :=
  if s.aqs ≠ Aq.close ∨ !s.acq.closed then s
  else if s.acq.disarm then
    { s.setAqs Aq.idle with acq := { s.acq with disarm := false, closed := false, force := false, armAt := none, reqs := [] } }
  else if !s.on R.ACQ_STATUS_MODE then s.setAqs Aq.done
  else if s.allClosed then
    let p := s.rd R.ACQ_TRIG_LO_P_LO + 2 ^ 32 * s.rd R.ACQ_TRIG_HI_P_HI
    let s := { s.setAqs Aq.fill with acq := { s.acq with closed := false, closedBy := [] } }
    (s.acqReady).acqUp 4 (p + s.rd R.ACQ_POST_POST) 0
  else s

/-- The copy of a record ends; `copied` is how many of its rows were copied where the ring overwrote one first (R446). -/
def State.recordClose (s : State) (copied : Option Nat) : State :=
  match s.acq.rec' with
  | none => s
  | some r =>
    if s.aqs ≠ Aq.close then s
    else
      let first := r.trig - r.pre
      let flags := s.endFlags r
      let (r, flags) := match copied with
        | some n => if first + n < r.next then ({ r with next := first + n }, Machine.putBit flags 1 true) else (r, flags)
        | none => (r, flags)
      let s := s.finishRecord r flags
      { s with acq := { s.acq with closed := true } }.leaveClose

def execRecordClose (copied : Option (BitVec 25)) (s : State) : Out := .next (s.recordClose (copied.map BitVec.toNat))

/-! ### Acquisition frames (R449, R450) -/

/-- An acquisition frame with an ARG at its destination. -/
def State.acqFrame (s : State) (k arg : Nat) (f : List Byte) (act : Nat → Nat → Nat → Nat → State → State) : State :=
  s.accordIn k 9 f fun l m s => s.when (Acf.arg f == arg) fun s => act l m (leAt (Acf.body f) 0 8) (byteAt (Acf.body f) 12) s

def execAcqFrameArm (port : Fin 4) (frame : List Byte) (s : State) : Out :=
  .next (s.acqFrame port 1 frame fun _ _ p _ s =>
    let c := s.armCode true
    if c ≠ 0 then s.wr R.ACQ_STATUS_ARM_ERR c else (s.acqStart (some p)).acqDown 1 p 0)

/-- A request of a member reaches the lead, which judges it at its evaluation or, below the top, sends it on. -/
def execAcqFrameReq (port : Fin 4) (frame : List Byte) (s : State) : Out :=
  .next (s.acqFrame port 2 frame fun _ _ p c s =>
    if s.acqLeads then s.when s.acqRuns fun s => { s with acq := { s.acq with reqs := s.acq.reqs ++ [(p, putBit c 5 true)] } }
    else s.acqUp 2 p c)

/-- P_trig of every member: it records from there, or from its oldest row. -/
def execAcqFrameTrig (port : Fin 4) (frame : List Byte) (s : State) : Out :=
  .next (s.acqFrame port 3 frame fun _ _ p c s =>
    let s := s.acqDown 3 p c
    if s.aqs = Aq.fill ∨ s.aqs = Aq.ready then
      let back := s.sys.period - p
      let s := s.beginRecord p (if s.acq.total ≤ back then s.acq.total else back) (putBit c 5 true)
      s.copyRows.acqClose
    else s)

def execAcqFrameClosed (port : Fin 4) (frame : List Byte) (s : State) : Out :=
  .next (s.acqFrame port 4 frame fun l m _ _ s =>
    s.when (s.aqs == Aq.close || s.aqs == Aq.post) fun s =>
      { s with acq := { s.acq with closedBy := s.acq.closedBy ++ [8 * l + m] } }.leaveClose)

def execAcqFrameDisarm (port : Fin 4) (frame : List Byte) (s : State) : Out :=
  .next (s.acqFrame port 5 frame fun _ _ p _ s => s.acqStop.acqDown 5 p 0)

end Sys2Proof.Machine
end

