-- ==== Sys2Proof/Machine/Island.lean ====
section
/-! DEFINITION. The functions of the safety island (R371 to R395): its state, safe inputs and blotter faults, the demand
table, outputs, monitored reset and brake test. -/

namespace Sys2Proof.Machine

namespace Is
/-- Codes of SAFE_STATE.STATE (R371). -/
def reset : Nat := 0
def test : Nat := 1
def wait : Nat := 2
def run : Nat := 3
def halt : Nat := 4
end Is

def State.ist (s : State) : Nat := s.rd R.SAFE_STATE_STATE

/-- The island evaluates: WAIT or RUN. -/
def State.islandUp (s : State) : Bool := s.ist == Is.wait || s.ist == Is.run

def State.conn (s : State) (c : Nat) : ConnI := mapGet (fun _ => ConnI.reset) s.isl.conns c

def State.setConn (s : State) (c : Nat) (x : ConnI) : State :=
  { s with isl := { s.isl with conns := mapSet (fun _ => ConnI.reset) s.isl.conns c x } }

/-! ### Safe inputs -/

/-- Channel A (or B) of an input stands at its demanding level (R373). -/
def State.siAway (s : State) (n : Nat) (b : Bool) : Bool :=
  let lvl := if b then s.on (R.SI_STATUS_LVL_B n) else s.on (R.SI_STATUS_LVL_A n)
  if s.rd (R.SI_CFG_MODE n) = 3 ∧ b then lvl else !lvl

/-- The test pulse that a checked channel is assigned to (R373). -/
def State.siTp (s : State) (n : Nat) (b : Bool) : Option Nat :=
  let tp := if b then s.rd (R.SI_CFG_TPB n) else s.rd (R.SI_CFG_TPA n)
  let checked := s.rd (R.SI_CFG_MODE n) == 1 || (s.rd (R.SI_CFG_MODE n) == 3 && !b)
  if checked && decide (tp < 4) then some tp else none

/-- A channel is excluded from demand evaluation (R378). -/
def State.siHeld (s : State) (n : Nat) (b : Bool) : Bool := ((s.siTp n b).map fun t => bitOf s.isl.excl t).getD false

/-- A fault of the input is latched. -/
def State.siFault (s : State) (n : Nat) : Bool :=
  s.on (R.SI_STATUS_DISC_FLT n) || s.on (R.SI_STATUS_STUCK_A n) || s.on (R.SI_STATUS_STUCK_B n) || s.on (R.SI_STATUS_XS_A n) ||
    s.on (R.SI_STATUS_XS_B n) || s.on (R.SI_STATUS_TP_FLT n)

/-- One of the channels demands (R374). -/
def State.siNow (s : State) (n : Nat) : Bool := s.rd (R.SI_CFG_MODE n) != 0 && (s.siAway n false || s.siAway n true)

/-- The channels disagree (R376). -/
def State.siSplit (s : State) (n : Nat) : Bool := s.rd (R.SI_CFG_MODE n) != 0 && s.siAway n false != s.siAway n true

/-- The count of disagreeing cycles exceeds DISC (R376). -/
def State.siTooLong (s : State) (n : Nat) : Bool :=
  decide (s.rd (R.SI_CFG_DISC n) * 20 < mapGet (fun _ => 0) s.isl.disc n)

/-- An input demands, waits for a reset or releases (R375). -/
def State.siDemand (s : State) (n : Nat) : State :=
  let now := s.siNow n || s.siFault n
  let waits := !now && s.on (R.SI_STATUS_DEMAND n) && s.on (R.SI_CFG_RESTART n) && s.rd (R.SI_CFG_MODE n) != 0
  (s.put (R.SI_STATUS_DEMAND n) (now || waits)).put (R.SI_STATUS_WAIT_RST n) waits

/-- One cycle of an input: the disagreement counts and its longest run shows (R376), then the demand follows. -/
def State.siCycle (s : State) (n : Nat) : State :=
  let k := if s.siSplit n then mapGet (fun _ => 0) s.isl.disc n + 1 else 0
  let s := { s with isl := { s.isl with disc := mapSet (fun _ => 0) s.isl.disc n k } }
  let s := s.wr (R.SI_STATUS_DISC_MAX n) (Nat.max (s.rd (R.SI_STATUS_DISC_MAX n)) (min 65535 (k / 20)))
  (s.when (s.siTooLong n) fun s => s.put (R.SI_STATUS_DISC_FLT n) true).siDemand n

/-- Inputs that disagree now drop out of the agreement that every running press keeps (R376). -/
def State.noteAgreement (s : State) : State :=
  let split := sumOf ((upto 8).map fun n => if s.siSplit n then 2 ^ n else 0)
  s.forN 9 fun k s => { s with isl := { s.isl with agree := mapUpd (fun _ => 0) s.isl.agree k fun a => a &&& (255 - split) } }

/-! ### The demand table (R389) -/

def State.soFault (s : State) (n : Nat) : Bool :=
  s.on (R.SO_STATUS_RB_FLT n) || s.on (R.SO_STATUS_DP_FLT n) || s.on (R.SO_STATUS_FBK_FLT n)

/-- What a demanding source asks for: Safe Block, Safe Trip, Safe Brake Control. -/
structure Fn where
  sb : Bool
  st : Bool
  sbc : Bool
  deriving DecidableEq, Repr

def Fn.none : Fn := ⟨false, false, false⟩

def Fn.all : Fn := ⟨true, true, true⟩

def Fn.join (a b : Fn) : Fn := ⟨a.sb || b.sb, a.st || b.st, a.sbc || b.sbc⟩

def Fn.any (a : Fn) : Bool := a.sb || a.st || a.sbc

def State.siFn (s : State) (n : Nat) : Fn :=
  if s.on (R.SI_STATUS_DEMAND n) then ⟨s.on (R.SI_CFG_MAP_SB n), s.on (R.SI_CFG_MAP_ST n), s.on (R.SI_CFG_MAP_SBC n)⟩ else Fn.none

/-- A connection demands per its OK bits in RUN and per its LOSS bits in WAIT, LOST or while LOST is latched. Until a
cyclic pair has come its OK bits count as 0. -/
def State.connFn (s : State) (c : Nat) : Fn :=
  let st := s.rd (R.CONN_STATE_CSTATE c)
  let loss : Fn := ⟨s.on (R.CONN_CFG_LOSS_SB c), s.on (R.CONN_CFG_LOSS_ST c), s.on (R.CONN_CFG_LOSS_SBC c)⟩
  let d := if (s.conn c).data then s.rd (R.CONN_DATA_DATA c 0) else 0
  let run : Fn := ⟨!bitOf d 0, !bitOf d 1, !bitOf d 2⟩
  if st = 0 then Fn.none
  else if st = 2 then (if s.bit R.SAFE_LATCH_CONN c then run.join loss else run)
  else loss

def State.mateFn (s : State) : Fn :=
  ⟨s.on R.MATE_MATE_EN && (!(s.on R.MATE_LIVE_A && s.on R.MATE_LIVE_B) || s.on R.MATE_MATE_FLT), false, false⟩

def State.soFn (s : State) (n : Nat) : Fn :=
  if s.soFault n then
    match s.rd (R.SO_CFG_FUNC n) with
    | 1 => ⟨true, true, false⟩
    | 2 => ⟨true, false, true⟩
    | _ => Fn.none
  else Fn.none

def State.noParam (s : State) : Bool := !s.on R.SAFE_STATE_PARAM_VALID || s.ist != Is.run

/-- The functions that the sources other than the mate link demand, before the functions act on one another. -/
def State.ownFn (s : State) : Fn :=
  let l := (upto 8).map s.siFn ++ (upto 8).map s.connFn ++ (upto 2).map s.soFn ++
    [if s.on R.SAFE_LATCH_BT_FAIL then ⟨true, false, true⟩ else Fn.none,
     if s.noParam || s.on R.SAFE_LATCH_START then Fn.all else Fn.none]
  l.foldl Fn.join Fn.none

/-- Safe Trip demands the other two; Safe Brake Control demands Safe Block at once, or once SBC_DLY has passed. -/
def State.closeFn (s : State) (f : Fn) : Fn :=
  let sbc := f.sbc || f.st
  ⟨f.sb || f.st || (sbc && (!s.on R.SBC_CFG_SBC_MODE || s.isl.sbcBlock || s.rd R.SBC_CFG_SBC_DLY == 0)), f.st, sbc⟩

/-- SAFE_DEMAND and SAFE_LATCH from the sources. -/
def State.showSources (s : State) : State :=
  let si := fun (f : Nat → Bool) => sumOf ((upto 8).map fun n => if f n then 2 ^ n else 0)
  let s := s.wr R.SAFE_DEMAND_SI (si fun n => s.on (R.SI_STATUS_DEMAND n))
  let s := s.wr R.SAFE_LATCH_SI (si fun n => s.siFault n || (s.on (R.SI_STATUS_DEMAND n) && s.on (R.SI_CFG_RESTART n)))
  let s := s.wr R.SAFE_DEMAND_CONN (si fun c => (s.connFn c).any)
  let s := (s.put R.SAFE_DEMAND_MATE s.mateFn.sb).put R.SAFE_LATCH_MATE (s.on R.MATE_MATE_FLT)
  let s := (s.put R.SAFE_DEMAND_SO0 (s.soFault 0)).put R.SAFE_LATCH_SO0 (s.soFault 0)
  let s := (s.put R.SAFE_DEMAND_SO1 (s.soFault 1)).put R.SAFE_LATCH_SO1 (s.soFault 1)
  let s := s.put R.SAFE_DEMAND_BT_FAIL (s.on R.SAFE_LATCH_BT_FAIL)
  let s := (s.put R.SAFE_DEMAND_NO_PARAM s.noParam).put R.SAFE_LATCH_NO_PARAM s.noParam
  s.put R.SAFE_DEMAND_START (s.on R.SAFE_LATCH_START)

/-! ### Outputs (R384 to R392) -/

/-- The BLOCK path as it must stand: asserted while Safe Block is active or the monitor of R370 holds it. -/
def State.drivePath (s : State) : State :=
  let b := s.on R.SAFE_STATE_SB || s.isl.monitor
  let rises := b && !s.sys.hardBlock
  { s.when rises State.sendBlockSets with sys := { s.sys with hardBlock := b } }

/-- A release request of the brake (R392). -/
def State.releaseAsked (s : State) : Bool :=
  if s.on R.SBC_CFG_REL_SRC then s.isl.dev == St.deblocked
  else (s.conn (s.rd R.SBC_CFG_REL_CONN)).data && bitOf (s.rd (R.CONN_DATA_DATA (s.rd R.SBC_CFG_REL_CONN) 0)) 4

/-- Whether a channel is to be energised. INHIBIT refuses a release but does not apply a released brake. -/
def State.soWanted (s : State) (n : Nat) : Bool :=
  s.ist == Is.run && !s.isl.monitor && !s.soFault n &&
    match s.rd (R.SO_CFG_FUNC n) with
    | 1 => !s.on R.SAFE_STATE_ST
    | 2 => !s.on R.SAFE_STATE_SBC && s.isl.bt == 0 && s.releaseAsked &&
        (s.on (R.SO_STATUS_ENERGISED n) || !s.on R.BT_STATUS_INHIBIT)
    | _ => false

def State.setTest (s : State) (n : Nat) (t : Option Bool) : State :=
  { s with isl := { s.isl with test := mapSet (fun _ => none) s.isl.test n t } }

/-- The switches of a channel follow; a change ends a test that runs, and without a change the test keeps its switch while
the island runs (R370, R371, R386). -/
def State.driveSo (s : State) (n : Nat) : State :=
  let e := s.soWanted n
  let tests := s.ist == Is.run && !s.isl.monitor && mapGet (fun _ => none) s.isl.test n != none
  if tests && e == s.on (R.SO_STATUS_ENERGISED n) then s
  else (((s.setTest n none).put (R.SO_STATUS_ENERGISED n) e).put (R.SO_STATUS_HS_DRV n) e).put (R.SO_STATUS_LS_DRV n) e

/-- The level sources of the collector that the island drives, and whether each is present (R421). -/
def State.islandCauses (s : State) : List (Nat × Bool) :=
  let anySi := fun (f : Nat → Bool) => (upto 8).any f
  [(96, s.on R.SAFE_STATE_SB), (97, s.on R.SAFE_STATE_ST), (98, s.on R.SAFE_STATE_SBC),
   (99, anySi fun n => s.on (R.SI_STATUS_DISC_FLT n)),
   (100, anySi fun n => s.siFault n && (s.on (R.SI_STATUS_STUCK_A n) || s.on (R.SI_STATUS_STUCK_B n) ||
      s.on (R.SI_STATUS_XS_A n) || s.on (R.SI_STATUS_XS_B n) || s.on (R.SI_STATUS_TP_FLT n))),
   (101, s.soFault 0 || s.soFault 1),
   (102, s.on R.BT_STATUS_FAILED || s.on R.BT_STATUS_INHIBIT),
   (103, s.on R.SAFE_STATE_RST_STUCK),
   (104, anySi fun c => s.rd (R.CONN_STATE_CSTATE c) == 3),
   (105, s.on R.MATE_MATE_FLT),
   (106, s.ist == Is.halt),
   (107, s.on R.SAFE_DIAG_REF_ABSENT || decide (10 < (toSigned 8 (s.rd R.SAFE_DIAG_OSC_DEV)).natAbs))]

/-- The live causes of a list of level sources follow; those that appear are events of one cycle. -/
def State.causesAre (s : State) (l : List (Nat × Bool)) : State :=
  let gone := s.forL (l.filter fun e => !e.2) fun e s => s.causeAbsent e.1
  let new := l.filter fun e => e.2 && !s.bit (R.FLT_LIVE_LIVE (e.1 / 32)) (e.1 % 32)
  if new.isEmpty then gone
  else gone.raiseAll (new.map fun e => { src := Fin.ofNat 128 e.1, access := 0, master := 0, addr := 0#36 })

/-- Functions, outputs, the BLOCK path and the SAFE_BLOCK line follow the sources (R389 to R392). Safe Block that begins
takes the KC8400 to FAULT-BLOCK (R390). -/
def State.islandUpdate (s : State) : State :=
  let own := s.closeFn s.ownFn
  let f := s.closeFn (s.ownFn.join s.mateFn)
  let f := if s.islandUp then f else Fn.all
  let at' := if f.sbc then some (s.isl.sbcAt.getD s.now) else none
  let s := { s with isl := { s.isl with sbcAt := at', sbcBlock := s.isl.sbcBlock && f.sbc,
                                        mateOut := s.on R.MATE_MATE_EN && s.islandUp && !own.sb } }
  let s := ((s.showSources.put R.SAFE_STATE_SB f.sb).put R.SAFE_STATE_ST f.st).put R.SAFE_STATE_SBC f.sbc
  let s := s.forN 2 fun n s => s.driveSo n
  let is := fun (k n : Nat) => s.rd (R.SO_CFG_FUNC n) == k && s.on (R.SO_STATUS_ENERGISED n)
  let s := (s.put R.SAFE_STATE_BRK_OPEN (is 2 0 || is 2 1)).put R.SAFE_STATE_TRIP_ON (is 1 0 || is 1 1)
  let rises := f.sb && !s.on R.DEV_STATE_SAFE_BLOCK
  let s := (s.drivePath.put R.DEV_STATE_SAFE_BLOCK f.sb).when rises fun s => s.faultBlock Cause.safeBlock
  s.causesAre s.islandCauses

/-! ### States of the island -/

/-- Every register of the island takes its reset value, and what it keeps beside them is lost but for the stored sets. -/
def State.islandClear (s : State) : State :=
  { s with regs := s.regs.filter fun e => !(decide (0x41000000 ≤ e.1) && decide (e.1 < 0x41100000)),
           isl := { Isl.reset with area := s.isl.area, stored := s.isl.stored } }

/-- RESET of the island (R372). -/
def State.islandReset (s : State) : State := s.islandClear.islandUpdate

/-- HALT with a cause, from any state but RESET (R372). -/
def State.islandHalt (s : State) (cause : Nat) : State :=
  if s.ist = Is.reset ∨ s.ist = Is.halt then s
  else
    let s := ((s.wr R.SAFE_STATE_STATE Is.halt).wr R.SAFE_STATE_HALT_CAUSE cause).put R.BT_STATUS_RUNNING false
    { s with isl := { s.isl with bt := 0, excl := 0 } }.islandUpdate

/-- Entry to RUN: START sets, every enabled connection waits, the hours of the brake test start at BT_INT, and a press that
stands counts as stuck (R372, R382, R393, R400). -/
def State.islandRun (s : State) : State :=
  let s := (s.wr R.SAFE_STATE_STATE Is.run).put R.SAFE_LATCH_START true
  let s := s.forN 8 fun c s =>
    let x := { s.conn c with held := [], since := s.now, data := false, btest := false, press := none, stuck := false }
    (s.wr (R.CONN_STATE_CSTATE c) (s.rd (R.CONN_CFG_EN c))).setConn c x
  let bt := s.rd R.BT_CFG_BT_INT
  let s := ((s.wr R.BT_STATUS_HOURS bt).put R.BT_STATUS_DUE (bt != 0)).put R.BT_STATUS_INHIBIT
    (s.on R.BT_STATUS_INHIBIT || (bt != 0 && s.rd R.BT_CFG_BT_GRACE == 0))
  s.when (s.on R.SAFE_RST_PRESSED) fun s =>
    { s.put R.SAFE_STATE_RST_STUCK true with isl := { s.isl with stuck := true } }

/-! ### Monitored reset (R382, R383) -/

/-- The level that SOn_FBK must show (R387): none where the check does not apply. -/
def State.fbkExpected (s : State) (n : Nat) : Option Bool :=
  let e := s.on (R.SO_STATUS_ENERGISED n)
  if !s.on (R.SO_CFG_FBK_EN n) || (s.rd (R.SO_CFG_FUNC n) == 1 && e) then none
  else some (e == s.on (R.SO_CFG_FBK_POL n))

/-- Readback and feedback of a channel agree with its driven levels (R388). -/
def State.soAgrees (s : State) (n : Nat) : Bool :=
  s.rd (R.SO_STATUS_HS_RB n) == s.rd (R.SO_STATUS_HS_DRV n) && s.rd (R.SO_STATUS_LS_RB n) == s.rd (R.SO_STATUS_LS_DRV n) &&
    ((s.fbkExpected n).map fun e => s.on (R.SO_STATUS_FBK n) == e).getD true

/-- An input at a valid reset: its faults clear where their causes have gone, and it releases where both channels stand
released (R375, R376, R381). -/
def State.siReset (s : State) (agree n : Nat) : State :=
  let s := s.when (bitOf agree n && !s.siSplit n) fun s => s.put (R.SI_STATUS_DISC_FLT n) false
  let clean := !bitOf s.isl.badNow n && !bitOf s.isl.badLast n
  let s := s.when clean fun s =>
    (((s.put (R.SI_STATUS_STUCK_A n) false).put (R.SI_STATUS_STUCK_B n) false).put (R.SI_STATUS_XS_A n) false).put
      (R.SI_STATUS_XS_B n) false
  let tps := (s.siTp n false).toList ++ (s.siTp n true).toList
  let tpOk := tps.all fun t => !bitOf s.isl.tpNow t && !bitOf s.isl.tpLast t
  let s := s.when tpOk fun s => s.put (R.SI_STATUS_TP_FLT n) false
  if s.siNow n || s.siFault n then s
  else (s.put (R.SI_STATUS_DEMAND n) false).put (R.SI_STATUS_WAIT_RST n) false

/-- A source that latches is still latched. -/
def State.anyLatch (s : State) : Bool :=
  (upto 8).any s.siFault || s.rd R.SAFE_LATCH_CONN != 0 || s.on R.MATE_MATE_FLT || s.soFault 0 || s.soFault 1 ||
    s.on R.SAFE_LATCH_BT_FAIL || s.on R.SAFE_LATCH_START

/-- A valid reset, `agree` being the inputs whose channels agreed throughout the press. -/
def State.validReset (s : State) (agree : Nat) : State :=
  let s := s.inc R.SAFE_RST_VALID_CNT
  let s := s.forN 8 fun n s => s.siReset agree n
  let s := s.forN 4 fun t s => s.when (!bitOf s.isl.tpNow t && !bitOf s.isl.tpLast t) fun s =>
    s.putBit R.TP_STATUS_TP_FLT t false
  let s := s.forN 2 fun n s => s.when (s.soAgrees n) fun s =>
    (((s.put (R.SO_STATUS_RB_FLT n) false).put (R.SO_STATUS_DP_FLT n) false).put (R.SO_STATUS_FBK_FLT n) false).put
      (R.SO_STATUS_OPEN_FAIL n) false
  let s := (s.put R.SAFE_LATCH_BT_FAIL false).put R.BT_STATUS_FAILED false
  let s := s.when (s.on R.MATE_LIVE_A && s.on R.MATE_LIVE_B) fun s => s.put R.MATE_MATE_FLT false
  let s := s.forN 8 fun c s => s.when (s.rd (R.CONN_STATE_CSTATE c) != 3) fun s => s.putBit R.SAFE_LATCH_CONN c false
  let s := s.put R.SAFE_LATCH_START false
  (s.put R.SAFE_STATE_RST_NOEFF s.anyLatch).islandUpdate

/-- Inputs whose channels agree now, one bit each. -/
def State.agreeing (s : State) : Nat := sumOf ((upto 8).map fun n => if s.siSplit n then 0 else 2 ^ n)

def State.setAgree (s : State) (k : Nat) : State :=
  { s with isl := { s.isl with agree := mapSet (fun _ => 0) s.isl.agree k s.agreeing } }

/-- A press since `since` that ends now is valid: at least 0.1 s and less than 5.0 s, measured to 1 ms (R382). -/
def State.validPress (s : State) (since : Nat) : Bool :=
  let ms := (s.now - since) / 1000000
  decide (100 ≤ ms) && decide (ms < 5000)

/-! ### Brake test (R393) -/

def State.failBrakeTest (s : State) : State :=
  let s := { s with isl := { s.isl with bt := 0 } }
  ((((s.put R.BT_STATUS_RUNNING false).put R.BT_STATUS_PASSED false).put R.BT_STATUS_FAILED true).put R.BT_STATUS_INHIBIT
    true).put R.SAFE_LATCH_BT_FAIL true

/-- A rising edge of BTEST starts a test in RUN unless one runs. -/
def State.startBrakeTest (s : State) : State :=
  if s.ist = Is.run ∧ s.isl.bt = 0 then { s with isl := { s.isl with bt := 1, btBad := false } } else s

end Sys2Proof.Machine
end

