-- ==== Sys2Proof/Machine/Telegram.lean ====
section
/-! DEFINITION. Safe telegrams and safe parameter transactions (R396 to R405). -/

namespace Sys2Proof.Machine

/-! ### Safe parameters -/

/-- Addresses of the island's register words that hold RWS fields, rising (R405). -/
def rwsWords : List Nat :=
  safeRows.flatMap fun r =>
    if r.fields.any fun f => f.acc == .rws then (upto r.n1).map fun i => r.base + r.s1 * i else []

/-- The RWS words in address order. -/
def rwsOrder : List Nat := sortBy (fun a => a) rwsWords

/-- Only the RWS bits of a word (R405). -/
def RegRow.rwsOf (r : RegRow) (w : Nat) : Nat :=
  r.fields.foldl (fun a f => if f.acc == .rws then setBits a f.lo f.width (bitsOf w f.lo f.width) else a) 0

/-- The RWS fields of a word take a value; its other fields keep theirs. -/
def State.putRws (s : State) (a v : Nat) : State :=
  match kcRow a with
  | none => s
  | some r =>
    s.setWord a (r.fields.foldl (fun w f => if f.acc == .rws then setBits w f.lo f.width (bitsOf v f.lo f.width) else w) (s.word a))

/-- The present set: every RWS word by its offset in the window. -/
def State.safeSet (s : State) : List (Nat × Nat) :=
  rwsOrder.map fun a => (a - 0x41000000, ((kcRow a).map fun r => r.rwsOf (s.word a)).getD 0)

/-- PARAM_CRC of the present set (R405). -/
def State.paramCrc (s : State) : Nat := crc32c (s.safeSet.flatMap fun e => bytesLE 4 e.2)

/-- The entries of a set applied. -/
def State.applySet (s : State) (l : List (Nat × Nat)) : State := s.forL l fun e s => s.putRws (0x41000000 + e.1) e.2

/-- The rules across fields (R407, R409). -/
def State.setLegal (s : State) : Bool :=
  decide (4 * (s.rd R.TP_CFG_TP_W * 50 + s.rd R.TP_CFG_TP_SET * 10) < s.rd R.TP_CFG_TP_PER * 1000) &&
    ((upto 8).all fun n => s.rd (R.SI_CFG_MODE n) != 1 || s.rd (R.SI_CFG_TPA n) != s.rd (R.SI_CFG_TPB n)) &&
    ((upto 8).all fun c => decide (2 * s.rd (R.CONN_TIME_PERIOD c) ≤ s.rd (R.CONN_TIME_WD c)) &&
      (s.on (R.CONN_CAN_EXT c) || decide (s.rd (R.CONN_CAN_CAN_ID c) < 0x7FF)))

/-- An offset holds an RWS field; the row of its word. -/
def rwsRow (off : Nat) : Option RegRow :=
  (kcRow (0x41000000 + off)).bind fun r => if r.fields.any fun f => f.acc == .rws then some r else none

/-- A value lies in the range of each RWS field of its word. -/
def rwsLegal (off v : Nat) : Bool :=
  ((rwsRow off).map fun r => r.fields.all fun f => f.acc != .rws || f.legal.ok (bitsOf v f.lo f.width)).getD false

/-- The set takes effect: PARAM_CRC follows, connections switched on wait and those switched off go to OFF (R400, R404). -/
def State.takeSet (s : State) (l : List (Nat × Nat)) : State :=
  let s := s.applySet l
  let s := (s.wr R.SAFE_PCRC_PARAM_CRC s.paramCrc).put R.SAFE_STATE_PARAM_VALID true
  s.forN 8 fun c s =>
    if !s.on (R.CONN_CFG_EN c) then (s.wr (R.CONN_STATE_CSTATE c) 0).putBit R.SAFE_LATCH_CONN c false
    else if s.rd (R.CONN_STATE_CSTATE c) = 0 then
      (s.wr (R.CONN_STATE_CSTATE c) 1).setConn c { s.conn c with held := [], since := s.now, data := false }
    else s

/-- The stored set that the exchange area holds is taken in WAIT, and the island enters RUN (R405). -/
def State.loadSet (s : State) (l : List (Nat × Nat)) : State := (s.takeSet l).islandRun.islandUpdate

/-- A committed set applies at the end of a cycle: START sets, the set goes to the exchange area and is stored, and from
WAIT the island enters RUN (R372, R404, R496). -/
def State.applyCommit (s : State) : State :=
  match s.isl.commit with
  | none => s
  | some l =>
    let s := (s.takeSet l).put R.SAFE_LATCH_START true
    let s := { s with isl := { s.isl with commit := none, area := some s.safeSet, stored := some s.safeSet } }
    if s.ist = Is.wait then s.islandRun else s

def State.closeTransaction (s : State) : State :=
  let s := (((s.put R.PT_STATUS_OPEN false).wr R.PT_STATUS_STAGED 0).wr R.PT_CRC_CRC 0).wr R.PT_STATUS_TXID 0
  { s with isl := { s.isl with staged := [] } }

/-- Entry `i` of a request: offset and value (R403). -/
def reqEntry (p : List Byte) (i : Nat) : Nat × Nat := (leAt p (4 + 8 * i) 2, leAt p (8 + 8 * i) 4)

/-- The staged CRC over the 8-byte forms of the entries, 0 while nothing is staged (R404). -/
def stagedCrc (l : List (Nat × Nat)) : Nat :=
  if l.isEmpty then 0 else crc32c (l.flatMap fun e => bytesLE 4 e.1 ++ bytesLE 4 e.2)

/-- The response to a request is kept for the next telegram of the connection, and PT_LAST records the result. -/
def State.answerParam (s : State) (c : Nat) (p : List Byte) (result value : Nat) : State :=
  let s := ((s.wr R.PT_LAST_RESULT result).wr R.PT_LAST_OP (byteAt p 0)).wr R.PT_LAST_CONN c
  let rsp := [BitVec.ofNat 8 (byteAt p 0), BitVec.ofNat 8 (byteAt p 1), BitVec.ofNat 8 result, 0#8] ++
    bytesLE 2 s.isl.staged.length ++ bytesLE 2 0 ++ bytesLE 4 (s.rd R.PT_CRC_CRC) ++ bytesLE 4 value ++ bytesLE 16 0
  s.setConn c { s.conn c with rsp := some rsp }

/-- STAGE opens a transaction or adds entries; nothing of a refused request is staged (R403, R404). -/
def State.paramStageOp (s : State) (c : Nat) (p : List Byte) : State :=
  let es := (upto (byteAt p 2)).map (reqEntry p)
  if s.on R.PT_STATUS_OPEN ∧ s.rd R.PT_STATUS_TXID ≠ byteAt p 1 then s.answerParam c p 5 0
  else if 3 < byteAt p 2 then s.answerParam c p 3 0
  else if es.any fun e => (rwsRow e.1).isNone then s.answerParam c p 1 0
  else if es.any fun e => !rwsLegal e.1 e.2 then s.answerParam c p 3 0
  else if 256 < s.isl.staged.length + es.length then s.answerParam c p 6 0
  else
    let l := s.isl.staged ++ es
    let s := (((s.put R.PT_STATUS_OPEN true).wr R.PT_STATUS_TXID (byteAt p 1)).wr R.PT_STATUS_STAGED l.length).wr R.PT_CRC_CRC
      (stagedCrc l)
    { s with isl := { s.isl with staged := l } }.answerParam c p 0 0

/-- COMMIT (R404); refused with 02h, 03h or 04h it leaves the transaction open. -/
def State.paramCommitOp (s : State) (c : Nat) (p : List Byte) : State :=
  if !s.on R.PT_STATUS_OPEN ∨ s.rd R.PT_STATUS_TXID ≠ byteAt p 1 then s.answerParam c p 5 0
  else if leAt p 28 4 ≠ s.rd R.PT_CRC_CRC then s.answerParam c p 4 0
  else if !(s.on R.SAFE_STATE_SB && s.on R.SAFE_STATE_ST && s.on R.SAFE_STATE_SBC) || s.on (R.SO_STATUS_ENERGISED 0) ||
      s.on (R.SO_STATUS_ENERGISED 1) then s.answerParam c p 2 0
  else if !(s.applySet s.isl.staged).setLegal then s.answerParam c p 3 0
  else
    let l := s.isl.staged
    let s := { s with isl := { s.isl with commit := some l } }
    (s.answerParam c p 0 0).closeTransaction

/-- ABORT discards the open transaction. -/
def State.paramAbortOp (s : State) (c : Nat) (p : List Byte) : State :=
  if !s.on R.PT_STATUS_OPEN ∨ s.rd R.PT_STATUS_TXID ≠ byteAt p 1 then s.answerParam c p 5 0
  else s.closeTransaction.answerParam c p 0 0

/-- READ returns the word at entry 0's offset and stages nothing. -/
def State.paramReadOp (s : State) (c : Nat) (p : List Byte) : State :=
  let off := (reqEntry p 0).1
  match kcRow (0x41000000 + off) with
  | none => s.answerParam c p 1 0
  | some r => s.answerParam c p 0 (r.read (s.word (0x41000000 + off)))

/-- A request that a connection with PARAM_EN brings; an OP that R403 does not list has no effect. -/
def State.paramRequest (s : State) (c : Nat) (p : List Byte) : State :=
  if !s.on (R.CONN_CFG_PARAM_EN c) || !s.islandUp then s
  else
    match byteAt p 0 with
    | 1 => s.paramStageOp c p
    | 2 => s.paramCommitOp c p
    | 3 => s.paramAbortOp c p
    | 4 => s.paramReadOp c p
    | _ => s

/-! ### Telegrams in (R396 to R400) -/

/-- A connection becomes LOST, which latches its source (R400). -/
def State.connLost (s : State) (c : Nat) : State :=
  ((s.wr (R.CONN_STATE_CSTATE c) 3).putBit R.SAFE_LATCH_CONN c true).setConn c { s.conn c with held := [], data := false }

/-- The network of a connection on which a copy comes, 0 or 1; none where the connection does not use it (R396). -/
def State.pathNet (s : State) (c : Nat) (p : TelegramPath) : Option Nat :=
  match p with
  | .ethernet port _ => if port.val = 0 then some 0 else if s.on (R.CONN_CFG_NETS c) then none else some 1
  | .can port id ext =>
    if s.on (R.CONN_CFG_NETS c) ∧ s.rd (R.CONN_CFG_CANP c) = port.val ∧ s.rd (R.CONN_CAN_CAN_ID c) = id.toNat ∧
      s.on (R.CONN_CAN_EXT c) = ext then some 1 else none

/-- The copy comes from the peer's address (R549). -/
def State.pathPeer (s : State) (c : Nat) (p : TelegramPath) : Bool :=
  match p with
  | .ethernet port src =>
    if port.val = 0 then s.rd (R.SAFE_PEER_A_PEER_A c) == src.toNat else s.rd (R.SAFE_PEER_B_PEER_B c) == src.toNat
  | .can _ _ _ => true

/-- The telegram in a datagram or frame: 44 bytes, on CAN FD followed by 4 zero bytes (R396). -/
def telegramOf (p : TelegramPath) (l : List Byte) : Option (List Byte) :=
  match p with
  | .ethernet _ _ => if l.length = 44 then some l else none
  | .can _ _ _ => if l.length = 48 ∧ leAt l 44 4 = 0 then some (l.take 44) else none

/-- CRC of a telegram under a connection's seed (R398). -/
def State.telegramCrc (s : State) (c : Nat) (l : List Byte) : Nat := crc32c (bytesLE 4 (s.rd (R.CONN_SEED_SEED c)) ++ l.take 40)

/-- A telegram that passes the checks of R399 item 1 at connection `c`. -/
def State.telegramGood (s : State) (c : Nat) (p : TelegramPath) (l : List Byte) : Bool :=
  match telegramOf p l with
  | none => false
  | some t =>
    (s.pathNet c p).isSome && s.pathPeer c p && leAt t 0 2 == s.rd (R.CONN_CFG_CONN_ID c) && !bitOf (byteAt t 2) 7 &&
      decide (1 ≤ byteAt t 2 % 16) && decide (byteAt t 2 % 16 ≤ 3) && leAt t 40 4 == s.telegramCrc c t

/-- The connection a copy belongs to: by CONN_ID, else by the way it came. -/
def State.telegramConn (s : State) (p : TelegramPath) (l : List Byte) : Option Nat :=
  let on := (upto 8).filter fun c => s.on (R.CONN_CFG_EN c)
  match on.find? fun c => s.rd (R.CONN_CFG_CONN_ID c) == leAt l 0 2 with
  | some c => some c
  | none => on.find? fun c => (s.pathNet c p).isSome && s.pathPeer c p

/-- The RESET bit of an accepted cyclic pair, 1 standing for pressed (R382). -/
def State.connReset (s : State) (c : Nat) (pressed : Bool) : State :=
  let x := s.conn c
  match x.press with
  | none => if pressed ∧ s.on (R.CONN_CFG_RST_EN c) then (s.setConn c { x with press := some s.now, stuck := false }).setAgree c else s
  | some t =>
    if pressed then s
    else
      let s' := s.setConn c { x with press := none, stuck := false }
      if x.stuck then s'.put R.SAFE_STATE_RST_STUCK false
      else if s.on (R.CONN_CFG_RST_EN c) && s.validPress t then s'.validReset (mapGet (fun _ => 0) s.isl.agree c)
      else s'

/-- What an accepted pair does: the connection runs; a cyclic one gives data, OK bits, RESET and BTEST; a request is
served (R399 to R403). In WAIT of the island only requests are consumed (R371). -/
def State.acceptPair (s : State) (c : Nat) (t : List Byte) : State :=
  let x := s.conn c
  let seq := leAt t 4 4
  let s := (s.wr (R.CONN_STATE_CSTATE c) 2).wr (R.CONN_SEQ_SEQ c) seq
  let s := s.setConn c { x with since := s.now, held := x.held.filter fun h => h.seq != seq }
  let p := (t.drop 8).take 32
  match byteAt t 2 % 16 with
  | 1 =>
    if s.ist ≠ Is.run then s
    else
      let was := (s.conn c).data && (s.conn c).btest
      let s := s.forN 8 fun w s => s.wr (R.CONN_DATA_DATA c w) (leAt p (4 * w) 4)
      let b := bitOf (byteAt p 0) 5
      let s := s.setConn c { s.conn c with data := true, btest := b }
      let s := s.when (b && !was && s.rd R.SBC_CFG_REL_CONN == c) State.startBrakeTest
      s.connReset c (bitOf (byteAt p 0) 3)
  | 2 => s.paramRequest c p
  | _ => s

/-- A copy that passed item 1 of R399 at a connection, with its network. -/
def State.takeCopy (s : State) (c net : Nat) (t : List Byte) : State :=
  let x := s.conn c
  let seq := leAt t 4 4
  let ahead := (seq + 2 ^ 32 - s.rd (R.CONN_SEQ_SEQ c)) % 2 ^ 32
  let late := x.held.filter fun h => h.seq == seq && decide (s.rd (R.CONN_TIME_SKEW c) * 100000 < s.now - h.at')
  let s := (s.inc (R.CONN_ERR_SINGLE c) late.length).setConn c { x with held := x.held.filter fun h => !late.contains h }
  let x := s.conn c
  if s.rd (R.CONN_STATE_CSTATE c) = 2 ∧ (ahead = 0 ∨ 16 < ahead) then s.inc (R.CONN_ERR_OLD c)
  else
    match x.held.find? fun h => h.seq == seq with
    | none => s.setConn c { x with held := x.held ++ [{ seq := seq, net := net, bytes := t, at' := s.now }] }
    | some h =>
      if h.net = net then s.inc (R.CONN_ERR_OLD c)
      else if h.bytes = t then s.acceptPair c t
      else (s.inc (R.CONN_ERR_MISMATCH c)).connLost c

/-- A telegram copy received (R399). -/
def State.telegramIn (s : State) (p : TelegramPath) (l : List Byte) : State :=
  if !s.islandUp then s
  else
    match s.telegramConn p l with
    | none => s
    | some c =>
      if s.telegramGood c p l then
        (s.takeCopy c ((s.pathNet c p).getD 0) ((telegramOf p l).getD [])).islandUpdate
      else s.inc (R.CONN_ERR_CRC_ERR c)

/-! ### Telegrams out (R401, R402) -/

/-- The cyclic payload that the island sends on a connection (R402). -/
def State.cyclicPayload (s : State) (c : Nat) : List Byte :=
  let bits := fun (l : List Bool) => sumOf ((l.zipIdx).map fun e => if e.1 then 2 ^ e.2 else 0)
  let b0 := bits [s.on R.SAFE_STATE_SB, s.on R.SAFE_STATE_ST, s.on R.SAFE_STATE_SBC, s.on R.SAFE_STATE_BRK_OPEN,
    s.on R.SAFE_STATE_TRIP_ON, s.on R.BT_STATUS_RUNNING, s.on R.BT_STATUS_INHIBIT, s.on R.SAFE_STATE_PARAM_VALID]
  [BitVec.ofNat 8 b0, BitVec.ofNat 8 s.ist, BitVec.ofNat 8 (s.rd R.SAFE_DEMAND_SI),
   BitVec.ofNat 8 (bits ((upto 8).map s.siFault))] ++
    bytesLE 4 (s.word R.SAFE_LATCH_SI.addr) ++ bytesLE 4 (s.rd R.SAFE_PCRC_PARAM_CRC) ++
    bytesLE 2 (s.word (R.SO_STATUS_HS_DRV 0).addr) ++ bytesLE 2 (s.word (R.SO_STATUS_HS_DRV 1).addr) ++
    bytesLE 4 (s.rd (R.CONN_SEQ_SEQ c)) ++ bytesLE 12 0

/-- A telegram leaves on both networks with identical bytes. -/
def State.telegramOut (s : State) (c : Nat) : State :=
  if !s.islandUp || !s.on (R.CONN_CFG_EN c) then s
  else
    let x := s.conn c
    let type := if x.rsp.isSome then 3 else 1
    let head := bytesLE 2 (s.rd (R.CONN_CFG_CONN_ID c)) ++ [BitVec.ofNat 8 (type + 128), 0#8] ++ bytesLE 4 x.tx ++
      x.rsp.getD (s.cyclicPayload c)
    let t := head ++ bytesLE 4 (s.telegramCrc c head)
    let s := s.setConn c { x with tx := (x.tx + 1) % 2 ^ 32, rsp := none }
    let s := s.send (.udp 0 (s.rd (R.SAFE_PEER_A_PEER_A c)) (s.rd R.SAFE_NET_SAFE_UDP) t)
    if s.on (R.CONN_CFG_NETS c) then
      s.send (.can (s.rd (R.CONN_CFG_CANP c)) (s.rd (R.CONN_CAN_CAN_ID c) + 1) (t ++ bytesLE 4 0))
    else s.send (.udp 1 (s.rd (R.SAFE_PEER_B_PEER_B c)) (s.rd R.SAFE_NET_SAFE_UDP) t)

end Sys2Proof.Machine
end

