-- ==== Sys2Proof/Machine/MemCmds.lean ====
section
/-! DEFINITION. Memory, boot flash fuses and secure start as they act in service (R477 to R499). -/

namespace Sys2Proof.Machine

/-- A bus error response to a master (R5, R591). -/
def State.busFault (s : State) (access master addr : Nat) : State :=
  (s.send (.busError addr)).raiseAt 22 access master addr

/-! ### Errors (R479, R486, R489) -/

/-- A SECDED error of the SRAM: a corrected one is counted; an uncorrectable one ends the access of a core or bus master
with a bus error response. -/
def State.sramError (s : State) (access master addr : Nat) (corrected : Bool) : State :=
  if corrected then
    let s := (s.inc R.MEM_ECC_CE).wr R.MEM_CE_ADDR_ADDR addr
    { s with tie := { s.tie with since := { s.tie.since with corrected := s.tie.since.corrected + 1 } } }.raiseAt 14 access master addr
  else
    let s := (s.inc R.MEM_ECC_UE).wr R.MEM_UE_ADDR_ADDR addr
    (s.when (access != 4) fun s => s.send (.busError addr)).raiseAt 15 access master addr

def execSramEccError (access : Fin 6) (master : Fin 19) (addr : BitVec 32) (corrected : Bool) (s : State) : Out :=
  .next (s.sramError access master addr.toNat corrected)

def execProtectedWrite (master : Fin 19) (addr : BitVec 32) (s : State) : Out := .next (s.busFault 2 master addr.toNat)

/-- A DDR4 error; one that the copy of a record meets marks the record (R446). -/
def execDdrEccError (master : Fin 19) (addr : BitVec 36) (corrected : Bool) (s : State) : Out :=
  .next (if corrected then (s.inc R.DDR_ECC_CE).raiseAt 20 1 master addr.toNat
  else
    let s := (s.inc R.DDR_ECC_UE).when (decide (1 ≤ master.val) && decide (master.val ≤ 6)) fun s => s.send (.busError addr.toNat)
    let s := if master.val = 17 then
        { s with acq := { s.acq with rec' := s.acq.rec'.map fun (r : RecA) => { r with flags := Machine.putBit r.flags 4 true } } }
      else s
    s.raiseAt 21 1 master addr.toNat)

/-! ### Bank power (R481, R482) -/

def State.bankState (s : State) (b : Nat) : Nat := s.rd (R.MEM_PSTAT_STATE (b / 8) (b % 8))

/-- Groups with an enabled region: the repetitive region, the acquisition ring and the trace ring. -/
def State.enabledGroups (s : State) : List Nat :=
  ((s.repRegion.map groupsOf).getD []) ++ ((s.traceRegion.map groupsOf).getD []) ++
    (if s.acqRuns then groupsOf s.ringRegion else [])

/-- A write of MEM_PWRw: discarded whole where a field is 3, or where it would take a bank out of ON in group 0 or in a
group with an enabled region. Answers the abort code. -/
def State.pwrWrite (s : State) (w v : Nat) : State × Nat :=
  if (upto 8).any fun j => bitsOf v (2 * j) 2 == 3 then (s, 0x06090030)
  else
    let bad := (upto 8).any fun j =>
      let g := (8 * w + j) / 4
      bitsOf v (2 * j) 2 != 0 && s.bankState (8 * w + j) == 0 && (g == 0 || s.enabledGroups.contains g)
    if bad then (s.put R.MEM_STATUS_PWR_REF true, 0x08000022)
    else (s.setWord (R.MEM_PWR_REQ w 0).addr (bitsOf v 0 16), 0)

def execMemPwrWrite (w : Fin 4) (value : BitVec 32) (s : State) : Out :=
  .next (if s.answers then (s.pwrWrite w value.toNat).1 else s)

/-- The bank of an SRAM address (R477). -/
def bankOf (a : Nat) : Nat := (a - 0x10000000) / 2 ^ 24 * 4 + a / 8 % 4

/-- The content of a bank is lost; a bank switched on again reads 0. -/
def State.wipeBank (s : State) (b : Nat) : State :=
  { s with mem := { s.mem with bytes := s.mem.bytes.filter fun e =>
      !(decide (0x10000000 ≤ e.1) && decide (e.1 < 0x18000000) && bankOf e.1 == b) } }

/-- A bank reaches the state requested; OFF to RETENTION is refused, and the bank stays OFF. -/
def State.bankDone (s : State) (b : Nat) : State :=
  let req := s.rd (R.MEM_PWR_REQ (b / 8) (b % 8))
  let old := s.bankState b
  if req = old ∨ (old = 2 ∧ req = 1) then s
  else
    let s := (s.wr (R.MEM_PSTAT_STATE (b / 8) (b % 8)) req).when (req == 2 || old == 2) fun s => s.wipeBank b
    let g := b / 4
    s.putBit R.MEM_STATUS_AVAIL g ((upto 4).all fun k => s.bankState (4 * g + k) == 0)

def execBankPowerDone (bank : Fin 32) (s : State) : Out := .next (s.bankDone bank)

/-! ### Background test (R483 to R485) -/

/-- An instant in which no region may start (R484). -/
def State.windowsBusy (s : State) : Bool :=
  let t := s.now - s.sys.t0
  s.inService && decide (s.tCa ≤ t + 400) && decide (t < s.crd R.LAYOUT_0_T_LE * 10 + 600)

/-- The first region at or after `r` in an available group, with how many were skipped; none where no group is. -/
def State.nextRegion (s : State) (r : Nat) : Option (Nat × Nat) :=
  let gs := (upto 9).map fun k => (r / 65536 + k) % 8
  match (gs.zipIdx).find? fun x => s.bit R.MEM_STATUS_AVAIL x.1 with
  | none => none
  | some (g, 0) => if g = r / 65536 then some (r, 0) else none
  | some (g, k) => some (g * 65536, k * 65536 - r % 65536)

/-- REGION moves on; after the last a pass is complete. -/
def State.regionAt (s : State) (r : Nat) (wraps : Bool) : State :=
  let s := s.wr R.BGT_STATUS_REGION r
  if wraps then
    let ms := (s.now - s.mem.passAt) / 1000000
    let s := (s.wr R.BGT_PASS_PASS_MS (min 65535 ms)).inc R.BGT_PASS_PASSES
    { s with mem := { s.mem with passAt := s.now } }
  else s

/-- A region starts: skipped ones count, and one that may not start now waits. -/
def State.startRegion (s : State) : State :=
  if !s.on R.BGT_CFG_EN || s.st == St.reset || s.st == St.selfTest then s
  else if s.mem.testing then { s with mem := { s.mem with startWaits := true } }
  else if s.windowsBusy then { s.inc R.BGT_CNT_DEFER with mem := { s.mem with startWaits := true } }
  else
    let r := s.rd R.BGT_STATUS_REGION
    match s.nextRegion r with
    | none => s
    | some (r', k) =>
      let s := (s.inc R.BGT_CNT_SKIPPED k).when (k != 0) fun s => s.regionAt r' (decide (r' < r))
      { s with mem := { s.mem with testing := true, startWaits := false } }

def execBgTestRegion (s : State) : Out := .next s.startRegion

/-- A region ends: its errors are handled, and a start that waited follows. -/
def State.regionDone (s : State) (corrected uncorrectable march : Option Nat) : State :=
  if !s.mem.testing then s
  else
    let q := s.tie.since
    let s := { s with mem := { s.mem with testing := false },
                      tie := { s.tie with since := { q with regions := q.regions + 1, memBad := q.memBad || march.isSome } } }
    let s := match corrected with
      | some a => s.sramError 1 18 a true
      | none => s
    let s := match uncorrectable with
      | some a => ((s.inc R.BGT_CNT_UE).inc R.MEM_ECC_UE).wr R.MEM_UE_ADDR_ADDR a |>.raiseAt 15 1 18 a
      | none => s
    let s := match march with
      | some a => (s.wr R.BGT_FAIL_ADDR a).raiseAt 18 1 18 a
      | none => s
    let r := s.rd R.BGT_STATUS_REGION + 1
    (s.regionAt (r % 524288) (r == 524288)).when s.mem.startWaits State.startRegion

def execBgTestRegionDone (corrected uncorrectable march : Option (BitVec 32)) (s : State) : Out :=
  .next (s.regionDone (corrected.map BitVec.toNat) (uncorrectable.map BitVec.toNat) (march.map BitVec.toNat))

/-- The code regions are compared with their hashes: bit 0 the resident firmware, bit p partition p (R486). -/
def execCodeCheck (bad : BitVec 9) (s : State) : Out :=
  .next (if s.st = St.reset ∨ s.st = St.selfTest then s
  else
    let s := (s.incMod R.FW_CHK_COUNT).when (bad != 0#9) fun s => s.put R.FW_CHK_FAIL true
    let s := { s with mem := { s.mem with stopped := s.mem.stopped ||| bad.toNat / 2 } }
    let s := s.when (bad.getLsbD 0) fun s => s.raise 23
    s.forN 8 fun p s => s.when (bad.getLsbD (p + 1)) fun s => s.raise 28)

/-! ### DDR4 (R488, R489) -/

/-- Capacity in GB of the configuration: 64 data bits of x8 or x16 components of 8 or 16 Gb, in one or two ranks. -/
def State.ddrSize (s : State) : Nat :=
  (if s.on R.DDR_CFG_WIDTH then 4 else 8) * (1 + s.rd R.DDR_CFG_DENSITY) * (1 + s.rd R.DDR_CFG_RANKS)

def State.startDdr (s : State) : State :=
  if s.writable then
    { ((s.put R.DDR_STATUS_READY false).put R.DDR_STATUS_TRAIN_FAIL false) with mem := { s.mem with ddrInit := true } }
  else s

def execDdrInit (s : State) : Out := .next s.startDdr

def execDdrInitDone (ok : Bool) (s : State) : Out :=
  .next (if s.mem.ddrInit then
    let s := { s with mem := { s.mem with ddrInit := false } }
    let s := (s.put R.DDR_STATUS_READY ok).put R.DDR_STATUS_TRAIN_FAIL (!ok)
    s.when ok fun s => s.wr R.DDR_STATUS_SIZE_GB s.ddrSize
  else s)

/-- Components above 85 °C are refreshed at the high rate; the temperature is in °C, signed. -/
def execDdrTempRead (temp : BitVec 8) (s : State) : Out :=
  .next (s.when (s.on R.DDR_STATUS_READY) fun s =>
    { s with mem := { s.mem with fastRefresh := decide (85 < toSigned 8 temp.toNat) } })

/-- The patrol scrub reads the capacity once; what it finds comes as errors of its own, and a read changes nothing. -/
def execDdrScrub (s : State) : Out := .next s

/-! ### Fuses (R495) -/

/-- Rollback counter of a TYPE 0 to 8. -/
def rollField (t : Nat) : Fld := if t < 5 then R.SEC_ROLL0_ROLL t else R.SEC_ROLL1_ROLL (t - 5)

def State.fuseBusy (s : State) : Bool := s.mem.roll.isSome || s.mem.revoke.isSome

def State.secRoll (s : State) (t : Nat) (vpp : Bool) : State :=
  let v := mapGet (fun _ => 0) s.mem.svn t
  if t ≤ 8 ∧ s.writable ∧ vpp ∧ !s.fuseBusy ∧ s.rd (rollField t) < v then { s with mem := { s.mem with roll := some (t, v) } }
  else s.put R.SEC_STATUS_CMD_REF true

def State.secRevoke (s : State) (k : Nat) (vpp : Bool) : State :=
  let left := (upto 4).filter fun i => !s.bit R.SEC_KEYS_REVOKED i
  if s.writable ∧ vpp ∧ !s.fuseBusy ∧ s.rd R.SEC_STATUS_KEY ≠ k ∧ left ≠ [k] then { s with mem := { s.mem with revoke := some k } }
  else s.put R.SEC_STATUS_CMD_REF true

def execSecRoll (type : Fin 16) (key : BitVec 16) (vpp : Bool) (s : State) : Out :=
  .next (s.when (key == 0x5A5A#16) fun s => s.secRoll type vpp)

def execSecRevoke (slot : Fin 4) (key : BitVec 16) (vpp : Bool) (s : State) : Out :=
  .next (s.when (key == 0x5A5A#16) fun s => s.secRevoke slot vpp)

/-- The fuses of an accepted command are programmed. -/
def execFuseProgramDone (s : State) : Out :=
  .next (if s.fuseBusy then
    let s := match s.mem.roll with
      | some (t, v) => s.wr (rollField t) v
      | none => s
    let s := match s.mem.revoke with
      | some k => s.putBit R.SEC_KEYS_REVOKED k true
      | none => s
    { s with mem := { s.mem with roll := none, revoke := none } }.put R.SEC_STATUS_CMD_DONE true
  else s)

/-! ### KS210 memory (R497) -/

def execCellSramRetention (cell : BitVec 64) (s : State) : Out :=
  .next (s.onCell cell.toNat fun c => c.when (c.mode == Mode.bypassed) fun c => c.wr K.SMEM_STATE_STATE 0x55)

/-- One region of 64 words, with what it found. -/
def Cell.testRegion (c : Cell) (now : Nat) (corrected uncorrectable march : Bool) : Cell :=
  if c.mode < Mode.safeHold ∨ c.mode = Mode.bypassed ∨ !c.on K.SMEM_BT_EN then c
  else
    let r := c.rd K.SMEM_BTST_REGION
    let c := (c.wr K.SMEM_BTST_REGION ((r + 1) % 1024)).when (r == 1023) fun c => c.inc K.SMEM_BTST_PASSES
    let c := c.when corrected fun c => (c.inc K.SMEM_ECC_CE).cause now 15
    let c := c.when uncorrectable fun c => (c.inc K.SMEM_ECC_UE).cause now 16
    c.when march fun c => c.cause now 17

def execCellBgTestRegion (cell : BitVec 64) (corrected uncorrectable march : Bool) (s : State) : Out :=
  .next (s.onCell cell.toNat fun c => c.testRegion s.now corrected uncorrectable march)

end Sys2Proof.Machine
end

