-- ==== Sys2Proof/Machine/Windows.lean ====
section
/-! DEFINITION. The two engine windows of a period as commands: what the KC8400 does at t_CA (R76, R149, R203, R296, R338,
R341) and at t_LE with what follows up to t_ML (R150, R296, R299, R300, R317, R341 to R343). -/

namespace Sys2Proof.Machine

/-! ### t_CA -/

/-- A port from which a collection frame is due in the present period. -/
def State.expectsFrame (s : State) (p : Nat) : Bool :=
  s.portLive p && s.on (R.PORT_STATUS_TRAINED p) && !s.sys.quiet && !s.tie.turn && !(s.port p).out &&
    ((s.launching && s.rd (R.PORT_STATUS_END p) == 1) || s.rd (R.PORT_STATUS_END p) == 2)

/-- At t_CA the frames of the period are judged (R203): one not complete counts, and a bad slot or header of any port makes
one event. -/
def State.judgeFrames (s : State) : State :=
  let s := s.forN 48 fun p s => s.when (s.expectsFrame p && !(s.port p).gotFrame) fun s => (s.inc (R.ERR_A_FRAME_MISS p)).raise 65
  s.when s.lvl.slotBad fun s => { s with lvl := { s.lvl with slotBad := false } }.raise 64

/-- The unit computes in its windows: not a RELAY, unless it shadows while it joins (R315, R316). -/
def State.computes (s : State) : Bool := s.inService && (s.role != Role.relay || (s.tie.joining && s.tie.shadowing))

/-- The unit computes in shadow of an ACTIVE. -/
def State.shadows (s : State) : Bool := s.role == Role.standby || s.role == Role.relay

/-- Set-point channels fresh in this period, with their raw values. -/
def State.freshPoints (s : State) : List (Nat × Nat) :=
  ((upto 256).filterMap fun c => (s.spFresh c).map fun v => (c, v)).take 255

/-- Positions whose head copy the ACTIVE did not use: port, position, and whether it used the tail copy (R296). -/
def State.mergeExceptions (s : State) : List (Nat × Nat × Bool) :=
  (((upto 48).filter s.strandInService).map fun p =>
    let x := s.port p
    (((upto (s.ncell p)).filter fun i => !x.good.contains i || x.viaTail.contains i).map fun i => (p, i, x.good.contains i))).flatten.take 255

/-- A mirrored write as an entry. -/
def writeEntry (e : Nat × Nat) : List Byte := bytesLE 4 e.1 ++ bytesLE 4 e.2

/-- The body of INPUT (R325). -/
def State.inputBody (s : State) : List Byte :=
  let ps := s.freshPoints
  let ws := s.tie.outInput.take 255
  let xs := s.mergeExceptions
  ((upto 8).map fun n => bytesLE 2 (s.rd (R.SAR_RES_CODE n))).flatten ++
    ((upto 24).map fun d => bytesLE 4 (s.rd (R.SD_RES_CODE d))).flatten ++
    ((upto 4).map fun i => bytesLE 4 (s.rd (R.PI_OUT_OUT i))).flatten ++
    bytesLE 4 (maskOf ((upto 8).map fun n => (s.sarValue n).2) + 256 * maskOf ((upto 24).map fun d => (s.sdValue d).2)) ++
    [BitVec.ofNat 8 (maskOf ((upto 4).map fun i => (s.piValueNow i).2)), BitVec.ofNat 8 ps.length, BitVec.ofNat 8 ws.length,
     BitVec.ofNat 8 xs.length] ++
    (ps.map fun e => bytesLE 4 e.1 ++ bytesLE 4 e.2).flatten ++ (ws.map writeEntry).flatten ++
    (xs.map fun e => bytesLE 4 (e.1 + 256 * e.2.1 + 65536 * e.2.2.toNat)).flatten

/-- The ACTIVE sends INPUT (R296). -/
def State.sendInput (s : State) : State :=
  if s.role = Role.active then
    let s := s.sendTie 1 0 s.inputBody
    { s with tie := { s.tie with outInput := s.tie.outInput.drop 255 } }
  else s

/-- At t_CA: frames are judged, the aggregates form, INPUT leaves, the engine runs, and the accord's values and
acknowledgements leave. Outside the committed layout the engine idles (R28). -/
def State.controlWindow (s : State) (errs : List EngineError) : State :=
  let s := s.judgeFrames
  let s := if s.computes then
      let s := s.when (s.shadows && s.tie.shadow.isNone) State.bridgePeriod
      (s.formAggregates.sendInput).runEngine errs
    else s.sendInput
  (s.showSlots.sendValues).ackDue

def execControlEngineWindow (errors : List EngineError) (s : State) : Out :=
  .next (s.when (s.inputsRun && s.st != St.locked) fun s => s.controlWindow errors)

/-! ### t_LE to t_ML -/

/-- The ACTIVE sends LVLW with the writes for the level engine window (R296). -/
def State.sendLvlw (s : State) : State :=
  if s.role = Role.active then
    let ws := s.tie.outLvlw
    let s := s.sendTie 2 ws.length (ws.map writeEntry).flatten
    { s with tie := { s.tie with outLvlw := [] } }
  else s

/-- The DIGEST of the period goes to the partner once the window has ended (R300, R324). -/
def State.sendDigest (s : State) : State :=
  if s.role = Role.active ∨ s.shadows then
    let b := s.digestBody false
    let s := { s with tie := { s.tie with digest := b } }
    (s.sendTie 5 0 b).compareDigests
  else s

/-- At t_LE: accord changes are decided, the level engine builds, and at t_ML sweep and mode changes leave. -/
def State.levelWindow (s : State) : State :=
  let s := (s.commitOwn).stageDeadline
  let s := if s.computes then
      let s := s.drySample
      let s := s.when (s.shadows && !s.tie.lvlw) State.bridgePeriod
      let s := (s.plannedYield.sendLvlw).buildLevels
      s.sendDigest.sendSweep
    else s.sendLvlw
  { s.sendModes with sys := { s.sendModes.sys with leDone := true } }

def execLevelEngineWindow (s : State) : Out := .next (s.when (s.inputsRun && s.st != St.locked) State.levelWindow)

end Sys2Proof.Machine
end

