-- ==== Sys2Proof/Machine/RegRead.lean ====
section
/-! DEFINITION. What a register of the KC8400 reads as (R6, R7), with the windows and times that are formed at the read. -/

namespace Sys2Proof.Machine

/-- A live value of a context by its word offset (R90). -/
def liveWord (x : Ctx) (w : Nat) : Nat :=
  if w < 48 then let (l, j) := liveVec x w; el l j
  else if w < 64 then el x.y (w - 48)
  else if w < 72 then el x.r (w - 64)
  else if w < 80 then el x.ff (w - 72)
  else if w < 88 then el x.frep (w - 80)
  else if w < 104 then el x.e (w - 88)
  else 0

/-- The page of the coefficient aperture that COEF_SEL shows (R83). -/
def State.shownPage (s : State) (i : Nat) : Nat := if s.on R.COEF_SEL_VIEW then s.page i else 1 - s.page i

/-- A word of the coefficient aperture (R82, R91); words 1,392 to 2,047 are reserved. -/
def State.apertureWord (s : State) (w : Nat) : Nat :=
  let i := s.rd R.COEF_SEL_CTX
  if w < 1392 then s.coefAt i (s.shownPage i) w else 0

/-- The cell window for a handle (R153, R429, R511), by offset from 4010_0F00h. -/
def State.cellWindow (s : State) (h off : Nat) : Nat :=
  let k := bitsOf h 7 6 * 128 + bitsOf h 0 7
  let v := s.view k
  let item := fun (n : Nat) => mapGet (fun _ => 0x10000) v.items n % 65536
  if off = 4 then s.cellLstat h
  else if 2 ^ 13 ≤ h then 0
  else if off = 8 then v.vpred
  else if off = 12 then v.hp
  else if off = 16 then v.missed
  else if off < 0x24 then leAt (fitTo 16 (mapGet (fun _ => idleRecord) s.lvl.records k)) (off - 0x14) 4
  else if off = 0x24 then s.cellFlt h
  else if off < 0x3C then let w := (off - 0x28) / 4; item (2 * w) + 65536 * item (2 * w + 1)
  else 0

/-- The words of a time as nanoseconds, low and high seconds. -/
def timePart (t i : Nat) : Nat :=
  match i with
  | 0 => nsOf t
  | 1 => secOf t % 2 ^ 32
  | _ => secOf t / 2 ^ 32 % 2 ^ 16

/-- AGE of a connection: ms since the last accepted pair (R408). -/
def State.connAge (s : State) (c : Nat) : Nat :=
  if s.rd (R.CONN_STATE_CSTATE c) = 0 then 0 else Nat.min 65535 ((s.now - (s.conn c).since) / 1000000)

/-- A register word as it stands now, with no side effect. -/
def State.peek (s : State) (a : Nat) : Nat :=
  if 0x40040000 ≤ a ∧ a < 0x40060000 then liveWord (s.ctxAt ((a - 0x40040000) / 0x200)) (a % 0x200 / 4)
  else if 0x40080000 ≤ a ∧ a < 0x40082000 then s.apertureWord ((a - 0x40080000) / 4)
  else if 0x40100F04 ≤ a ∧ a < 0x40101000 then s.cellWindow (s.rd R.CELL_SEL_HANDLE) (a - 0x40100F00)
  else if 0x40500000 ≤ a ∧ a < 0x4050000C then timePart s.now ((a - 0x40500000) / 4)
  else if 0x40500030 ≤ a ∧ a < 0x4050003C then timePart s.sys.t0 ((a - 0x40500030) / 4)
  else if a = R.TIM_STATUS_VALID.addr then s.timStatus
  else if 0x40500110 ≤ a ∧ a < 0x40500200 ∧ a % 0x80 / 16 = 1 then s.stampWord ((a - 0x40500100) / 0x80) (a % 16 / 4)
  else if 0x40800060 ≤ a ∧ a < 0x4080006C then s.cellCounts ((a - 0x40800060) / 4)
  else if a = R.CTL_STATUS_RUNNING.addr then setBits (s.word a) 18 1 s.computes.toNat
  else if 0x41000400 ≤ a ∧ a < 0x41000600 ∧ a % 0x40 = 0x10 then setBits (s.word a) 16 16 (s.connAge ((a - 0x41000400) / 0x40))
  else ((kcRow a).map fun r => r.read (s.word a)).getD 0

/-- The groups whose first word latches the others when it is read: first address and words (R366, R427, R473, R476,
R529). -/
def latchGroups : List (Nat × Nat) :=
  [(0x40500000, 3), (0x40500010, 3), (0x40500030, 3), (0x40500110, 4), (0x40500190, 4), (0x4080004C, 3), (0x40A0000C, 3), (0x40F00014, 3)]

/-- The group of a register, or for a counter its two words. -/
def latchGroup (a : Nat) : Option (Nat × Nat) :=
  if 0x40A01000 ≤ a ∧ a < 0x40A01600 ∧ a % 0x100 < 0x60 then some (a / 8 * 8, 2)
  else latchGroups.find? fun g => decide (g.1 ≤ a) && decide (a < g.1 + 4 * g.2)

/-- A read of a register: the word, after the latching that it does. -/
def State.readKc (s : State) (a : Nat) : Nat × State :=
  match latchGroup a with
  | none => (s.peek a, s)
  | some (b, n) =>
    if a = b then
      let l := (upto (n - 1)).foldl (fun m i => mapInsert (b + 4 * (i + 1)) (s.peek (b + 4 * (i + 1))) (mapErase m (b + 4 * (i + 1)))) s.tim.latch
      (s.peek a, { s with tim := { s.tim with latch := l } })
    else (((s.tim.latch.find? fun e => e.1 == a).map Prod.snd).getD (s.peek a), s)

/-- One coherent read of a word (R529): the word that latches its group is read first. -/
def State.readWhole (s : State) (a : Nat) : Nat × State :=
  match latchGroup a with
  | none => s.readKc a
  | some (b, _) => if a = b then s.readKc a else (s.readKc b).2.readKc a

end Sys2Proof.Machine
end

