-- ==== Sys2Proof/Machine/Sched.lean ====
section
/-! DEFINITION. Core pairs, the hardware scheduler and the performance counters (R455 to R476). -/

namespace Sys2Proof.Machine

/-! ### Trace (R468) -/

/-- A scheduler event of a traced kind: an entry in the ring, or a lost one where the writer took another less than 4 ns
before. -/
def State.trace (s : State) (kind q who result count wait : Nat) : State :=
  if !s.on R.TRC_CFG_EN || !s.bit R.TRC_CFG_KINDS kind || (s.on R.TRC_CFG_STOP && s.on R.TRC_STAT_FULL) then s
  else if (s.sch.trcAt.map fun t => decide (s.now < t + 4)).getD false then s.inc R.TRC_STAT_LOST
  else
    let wr := s.rd R.TRC_WR_WR
    let e := bytesLE 4 s.now ++ [BitVec.ofNat 8 kind, BitVec.ofNat 8 q, BitVec.ofNat 8 who, BitVec.ofNat 8 result] ++
      bytesLE 2 count ++ bytesLE 2 0 ++ bytesLE 4 (min 0xFFFFFFFF wait)
    let s := s.storeBytes (s.sch.trcBase + wr) e
    let s := { s with sch := { s.sch with trcAt := some s.now } }
    if wr + 16 < s.sch.trcSize then s.wr R.TRC_WR_WR (wr + 16)
    else (s.wr R.TRC_WR_WR 0).when (s.on R.TRC_CFG_STOP) fun s => s.put R.TRC_STAT_FULL true

/-- TRC_CFG.EN is set: the ring in force and its first entry (R475). -/
def State.traceOn (s : State) : State :=
  { s.wr R.TRC_WR_WR 0 with sch := { s.sch with trcBase := s.rd R.TRC_BASE_BASE, trcSize := s.rd R.TRC_SIZE_SIZE, trcAt := none } }

/-! ### Queues and slots -/

def State.queue (s : State) (q : Nat) : List Item := mapGet (fun _ => []) s.sch.queues q

def State.setQueue (s : State) (q : Nat) (l : List Item) : State :=
  { s with sch := { s.sch with queues := mapSet (fun _ => []) s.sch.queues q l } }

def State.slots (s : State) (h : Nat) : List SlotI := mapGet (fun _ => []) s.sch.slots h

def State.setSlots (s : State) (h : Nat) (l : List SlotI) : State :=
  { s with sch := { s.sch with slots := mapSet (fun _ => []) s.sch.slots h l } }

def State.stopped (s : State) (h : Nat) : Bool := s.bit R.SCH_LS_STOPPED h

/-- A queue serves a hart: its bit in H_MASK, and Q_OWN of the hart's partition (R466). -/
def State.serves (s : State) (h q : Nat) : Bool :=
  (if q < 32 then s.bit (R.H_MASK_LO_MASK h) q else s.bit (R.H_MASK_HI_MASK h) (q - 32)) &&
    s.bit (R.Q_OWN_OWN q) (s.rd (R.H_CFG_PART h))

def State.eligible (s : State) (h q : Nat) : Bool := s.serves h q && !(s.queue q).isEmpty

/-- Counts and peaks of queues and harts follow (R469, R475). -/
def State.schShow (s : State) : State :=
  let s := s.forN 64 fun q s =>
    let n := (s.queue q).length
    (s.wr (R.Q_STAT_COUNT q) n).wr (R.Q_STAT_PEAK q) (Nat.max n (s.rd (R.Q_STAT_PEAK q)))
  let s := s.forN 6 fun h s =>
    let e := sumOf (((upto 64).filter (s.serves h)).map fun q => (s.queue q).length)
    ((s.wr (R.H_STAT_SLOTS h) (s.slots h).length).wr (R.H_STAT_ELIG h) e).wr (R.H_STAT_PEAK_ELIG h)
      (Nat.max e (s.rd (R.H_STAT_PEAK_ELIG h)))
  s.wr R.SCH_STATUS_HELD (sumOf ((upto 64).map fun q => (s.queue q).length) + sumOf ((upto 6).map fun h => (s.slots h).length))

/-- The queue that a hart is filled from: the highest PRIO, and of that the first after the last one, wrapping (R466). -/
def State.pickQueue (s : State) (h : Nat) : Option Nat :=
  let last := mapGet (fun _ => 63) s.sch.lastQ h
  let cands := ((upto 64).map fun i => (last + 1 + i) % 64).filter (s.eligible h)
  let top := maxOf (cands.map fun q => s.rd (R.Q_CFG_PRIO q))
  cands.find? fun q => s.rd (R.Q_CFG_PRIO q) == top

/-- One item of a queue leaves it: the only one, or any one (R462, R466). -/
def State.anyItem (s : State) (q : Nat) : Option (Item × State) :=
  match s.queue q with
  | [] => none
  | [x] => some (x, s.setQueue q [])
  | l =>
    let (v, s) := s.draw
    let i := v.toNat % l.length
    (l[i]?).map fun x => (x, s.setQueue q (l.eraseIdx i))

/-- One slot of a hart is filled where one is empty and an item is there. -/
def State.fillSlot (s : State) (h : Nat) : State :=
  if s.stopped h || decide (s.rd (R.H_CFG_PREF_N h) ≤ (s.slots h).length) then s
  else
    match s.pickQueue h with
    | none => s
    | some q =>
      match s.anyItem q with
      | none => s
      | some (x, s) =>
        let used := (s.slots h).map SlotI.slot
        let k := if used.contains 0 then 1 else 0
        let s := s.setSlots h (s.slots h ++ [{ slot := k, queue := q, item := x }])
        let s := { s with sch := { s.sch with lastQ := mapSet (fun _ => 63) s.sch.lastQ h q } }
        s.trace 1 q h k (s.queue q).length 0

/-- The scheduler's fill: harts in order, up to two slots each. -/
def State.fillAll (s : State) : State := s.forN 6 fun h s => (s.fillSlot h).fillSlot h

/-! ### Pushes (R463 to R465) -/

/-- The partition that a master pushes for: a hart's PART, else 0. -/
def State.pushPart (s : State) (m : Nat) : Nat := if 1 ≤ m ∧ m ≤ 6 then s.rd (R.H_CFG_PART (m - 1)) else 0

def State.setPushSt (s : State) (m result q : Nat) : State :=
  { s with sch := { s.sch with pushSt := mapSet (fun _ => (0, 0)) s.sch.pushSt m (result, q) } }

def State.full (s : State) (q : Nat) : Bool := decide (s.rd (R.Q_CFG_DEPTH q) ≤ (s.queue q).length)

/-- An item is committed whole. -/
def State.commitPush (s : State) (m q : Nat) (words : List Nat) : State :=
  let s := s.setQueue q (s.queue q ++ [{ words := words, pushed := s.now }])
  let n := (s.queue q).length
  let s := s.wr (R.Q_STAT_PEAK q) (Nat.max n (s.rd (R.Q_STAT_PEAK q)))
  (s.trace 0 q m 0 n 0).setPushSt m 0 q

/-- A push that ends without its item. -/
def State.dropPush (s : State) (m q result : Nat) : State := (s.trace 3 q m result (s.queue q).length 0).setPushSt m result q

/-! ### Takes (R467, R469) -/

/-- The bin of a waiting time. -/
def waitBin (w : Nat) : Nat := ((upto 15).filter fun b => decide (64 * 2 ^ b ≤ w)).length

/-- The answer of SCH_GET. -/
def getWord (valid : Bool) (slot q : Nat) : Nat := valid.toNat + 2 * slot + 256 * q

/-- A hart takes the item of its oldest filled slot. -/
def State.takeItem (s : State) (h : Nat) : Option State :=
  match s.slots h with
  | [] => none
  | x :: r =>
    let w := s.now - x.item.pushed
    let s := s.setSlots h r
    let s := { s with sch := { s.sch with item := mapSet (fun _ => []) s.sch.item h x.item.words } }
    let s := s.inc (R.H_HIST_COUNT h (waitBin w))
    let s := s.trace 2 x.queue h x.slot (s.queue x.queue).length w
    some (s.send (.reply (getWord true x.slot x.queue) 0))

/-- A stalled push completes where its queue has a place, lower master codes first (R464, R466). -/
def State.completeStalls (s : State) : State :=
  s.forL (sortBy StallI.master s.sch.stalls) fun x s =>
    if s.full x.queue || !s.sch.stalls.contains x then s
    else { s with sch := { s.sch with stalls := s.sch.stalls.filter (· != x) } }.commitPush x.master x.queue x.words

/-- A stalled SCH_GET_WAIT completes where an item has come. -/
def State.completeWaits (s : State) : State :=
  s.forL s.sch.waiting fun h (s : State) =>
    match s.takeItem h with
    | none => s
    | some (s : State) => { s with sch := { s.sch with waiting := s.sch.waiting.filter (· != h) } }

/-- What follows from a change: slots fill, stalled pushes and reads complete, until nothing more can. Each round settles at
least one of at most 19 stalls and 6 reads. -/
def State.settleRounds : Nat → State → State
  | 0, s => s.fillAll
  | k + 1, s =>
    let t := s.fillAll.completeWaits.completeStalls
    if t.sch.stalls = s.sch.stalls ∧ t.sch.waiting = s.sch.waiting then t.fillAll else State.settleRounds k t

def State.settle (s : State) : State := (State.settleRounds 26 s).schShow

/-- A write of SCH_PUSH by a master (R463). -/
def State.push (s : State) (m q : Nat) (nb : Bool) : State :=
  let words := mapGet (fun _ => List.replicate 8 0) s.sch.staged m
  if s.sch.stalls.any fun x => x.master == m then s
  else if s.rd (R.Q_CFG_DEPTH q) = 0 then (s.dropPush m q 4).settle
  else if !s.bit (R.Q_OWN_OWN q) (s.pushPart m) then ((s.dropPush m q 3).raise 28).settle
  else if !s.full q then (s.commitPush m q words).settle
  else if nb then (s.dropPush m q 1).settle
  else { s with sch := { s.sch with stalls := s.sch.stalls ++ [StallI.mk m q words] } }.settle

def execSchPush (master : Fin 19) (queue : Fin 64) (nb : Bool) (s : State) : Out :=
  .next (s.when s.answers fun s => s.push master queue nb)

def execPushStallComplete (master : Fin 19) (s : State) : Out :=
  .next (if s.sch.stalls.any fun x => x.master == master.val then s.settle else s)

def execPushBackpressureTimeout (master : Fin 19) (s : State) : Out :=
  .next (match s.sch.stalls.find? fun x => x.master == master.val with
  | none => s
  | some x =>
    let s := { s with sch := { s.sch with stalls := s.sch.stalls.filter (· != x) } }
    (((s.inc (R.Q_CNT_DROP x.queue)).dropPush x.master x.queue 2).raise 29).settle)

/-- The tick item of a period (R465). -/
def State.queueTick (s : State) (q : Nat) : State :=
  let words := [s.sys.period % 2 ^ 32, s.sys.period / 2 ^ 32 % 2 ^ 32, q, 0, 0, 0, 0, 0]
  if !s.on (R.Q_CFG_TICK q) || s.rd (R.Q_CFG_DEPTH q) == 0 then s
  else if s.full q then (((s.inc (R.Q_CNT_DROP q)).trace 3 q 0 2 (s.queue q).length 0).raise 29).settle
  else
    let s := s.setQueue q (s.queue q ++ [{ words := words, pushed := s.now }])
    let n := (s.queue q).length
    let s := s.wr (R.Q_STAT_PEAK q) (Nat.max n (s.rd (R.Q_STAT_PEAK q)))
    (s.trace 0 q 0 0 n 0).settle

def execQueueTick (queue : Fin 64) (s : State) : Out := .next (s.when s.answers fun s => s.queueTick queue)

/-- SCH_GET: the oldest filled slot, or VALID = 0. -/
def State.get (s : State) (h : Nat) : State :=
  match s.takeItem h with
  | some s => s.settle
  | none => s.send (.reply (getWord false 0 0) 0)

def execSchGet (hart : Fin 6) (s : State) : Out := .next (if s.stopped hart || !s.answers then s else s.get hart)

def execSchGetWait (hart : Fin 6) (s : State) : Out :=
  .next (if s.stopped hart || !s.answers || s.sch.waiting.contains hart.val then s
  else
    match s.takeItem hart with
    | some s => s.settle
    | none => { s with sch := { s.sch with waiting := s.sch.waiting ++ [hart.val] } })

def execGetWaitResume (hart : Fin 6) (s : State) : Out := .next (if s.sch.waiting.contains hart.val then s.settle else s)

def execGetWaitTimeout (hart : Fin 6) (s : State) : Out :=
  .next (if s.sch.waiting.contains hart.val then
    { s with sch := { s.sch with waiting := s.sch.waiting.filter (· != hart.val) } }.send (.reply (getWord false 0 0) 0)
  else s)

/-! ### Configuration (R459, R461) -/

/-- PART of a hart changes: items whose queue does not grant the new partition return to their queue. -/
def State.setPart (s : State) (h part : Nat) : State :=
  if s.rd (R.H_CFG_PART h) = part then s
  else
    let s := s.wr (R.H_CFG_PART h) part
    let back := (s.slots h).filter fun x => !s.bit (R.Q_OWN_OWN x.queue) part
    let s := s.setSlots h ((s.slots h).filter fun x => s.bit (R.Q_OWN_OWN x.queue) part)
    let s := s.forL back fun x s =>
      let s := s.setQueue x.queue (s.queue x.queue ++ [x.item])
      s.trace 3 x.queue (h + 1) 0 (s.queue x.queue).length 0
    (s.inc (R.H_CNT_RETURNED h) back.length).settle

def execPartWrite (hart : Fin 6) (part : Fin 9) (s : State) : Out :=
  .next (s.when s.answers fun s => s.setPart hart part)

/-- Sum of DEPTH. -/
def State.allotted (s : State) : Nat := sumOf ((upto 64).map fun q => s.rd (R.Q_CFG_DEPTH q))

/-- A write of DEPTH: refused above 4,096 in all, else the queue's items are discarded (R461). -/
def State.setDepth (s : State) (q depth : Nat) : State :=
  if 4096 < s.allotted - s.rd (R.Q_CFG_DEPTH q) + depth then s.put R.SCH_STATUS_ALLOT_ERR true
  else
    let n := (s.queue q).length
    let s := (s.setQueue q []).wr (R.Q_CFG_DEPTH q) depth
    let s := (s.inc (R.Q_CNT_DISCARD q) n).when (n != 0) fun s => s.trace 3 q 0 0 0 0
    (s.wr R.SCH_STATUS_USED s.allotted).settle

def execQueueDepthWrite (queue : Fin 64) (depth : BitVec 11) (s : State) : Out :=
  .next (if depth.toNat = s.rd (R.Q_CFG_DEPTH queue) ∨ !s.writable ∨ 1024 < depth.toNat then s else s.setDepth queue depth.toNat)

/-- SCH_CLR (R469, R475). -/
def State.schClr (s : State) : State :=
  let s := s.forN 64 fun q s => (s.setWord (R.Q_CNT_DROP q).addr 0).wr (R.Q_STAT_PEAK q) 0
  let s := s.forN 6 fun h s =>
    ((s.setWord (R.H_CNT_LOST h).addr 0).wr (R.H_STAT_PEAK_ELIG h) 0).forN 16 fun b s => s.wr (R.H_HIST_COUNT h b) 0
  (s.wr R.TRC_STAT_LOST 0).put R.TRC_STAT_FULL false

def execSchClr (s : State) : Out := .next (s.when s.answers State.schClr)

/-- LOAD at the end of a window: busy over all cycles, in UQ0.16 (R469). -/
def execHartLoadUpdate (hart : Fin 6) (busy cycles : BitVec 48) (s : State) : Out :=
  .next (if cycles.toNat = 0 then s else s.wr (R.H_LOAD_LOAD hart) (min 65535 (busy.toNat * 65536 / cycles.toNat)))

/-! ### Core pairs and partitions (R456, R457, R460) -/

/-- A pair stops: its slots are discarded and its lockstep source latches. -/
def State.stopPair (s : State) (h : Nat) : State :=
  if s.stopped h then s
  else
    let n := (s.slots h).length
    let s := ((s.putBit R.SCH_LS_STOPPED h true).setSlots h []).inc (R.H_CNT_LOST h) n
    let s := { s with sch := { s.sch with waiting := s.sch.waiting.filter (· != h) } }
    (s.schShow).raise h

def execLockstepMismatch (hart : Fin 6) (s : State) : Out := .next (s.stopPair hart)

/-- One test mismatch into a running pair; one within 1 µs of the previous is discarded. -/
def State.injectPair (s : State) (h : Nat) (missed : Bool) : State :=
  let busy := ((mapGet (fun _ => none) s.sch.injAt h).map fun t => decide (s.now < t + 1000)).getD false
  if s.stopped h || busy then s
  else
    let q := s.tie.since
    let s := { s with sch := { s.sch with injAt := mapSet (fun _ => none) s.sch.injAt h (some s.now) },
                      tie := { s.tie with since := { q with injections := q.injections + (!missed).toNat, injBad := q.injBad || missed } } }
    if missed then (s.putBit R.SCH_LS_STAT_INJ_FAIL h true).raise h else s.inc R.SCH_LS_STAT_INJ_PASS

def State.injectMask (s : State) (mask missed : Nat) : State :=
  s.forN 6 fun h s => s.when (bitOf mask h) fun s => s.injectPair h (bitOf missed h)

def execLockstepInject (mask : BitVec 6) (key : BitVec 16) (missed : BitVec 6) (s : State) : Out :=
  .next (s.when (s.answers && key == 0x5A5A#16) fun s => s.injectMask mask.toNat missed.toNat)

/-- Every 100 ms a STANDBY or RELAY that has not yielded tests every running pair (R318). -/
def execLockstepInjectPeriodic (missed : BitVec 6) (s : State) : Out :=
  .next (s.when ((s.role == Role.standby || s.role == Role.relay) && !s.tie.yielded && s.st != St.reset && s.st != St.selfTest) fun s =>
    s.injectMask 63 missed.toNat)

/-- A user partition's fault ends its item and raises source 28 (R460). -/
def execPartitionFault (hart : Fin 6) (s : State) : Out :=
  .next (s.when (s.rd (R.H_CFG_PART hart) != 0 && !s.stopped hart) fun s => s.raise 28)

/-- A partition has used its budget: local interrupt 18, source 28, and suspension until the next t0 (R460). -/
def execPartitionBudgetExhausted (hart : Fin 6) (s : State) : Out :=
  let p := s.rd (R.H_CFG_PART hart)
  .next (s.when (p != 0 && !s.stopped hart && s.rd (R.P_BUDGET_BUDGET p) != 0) fun s =>
    let s := { s.send (.irq hart 18) with sch := { s.sch with suspended := if s.sch.suspended.contains p then s.sch.suspended else s.sch.suspended ++ [p] } }
    s.raise 28)

/-! ### Performance counters (R470 to R474) -/

def State.counter (s : State) (h n : Nat) : Nat := s.rd (R.PMC_CNT_LO_LO h n) + 2 ^ 32 * s.rd (R.PMC_CNT_HI_HI h n)

def State.setCounter (s : State) (h n v : Nat) : State := (s.wr (R.PMC_CNT_LO_LO h n) v).wr (R.PMC_CNT_HI_HI h n) (v / 2 ^ 32)

/-- A counter wraps: WRAP sets, and interrupt 17 of the hart where enabled. -/
def State.wrapped (s : State) (h n : Nat) : State :=
  (s.putBit (R.PMC_WRAP_WRAP h) n true).when (s.bit (R.PMC_WRAP_WRAP_IE h) n) fun s => s.send (.irq h 17)

/-- How far each counter has come, by 12 × hart + counter, since it was last brought up to date. -/
def State.advance (s : State) (l : List (BitVec 48)) : State :=
  if s.on R.PMC_CTRL_FREEZE then s
  else
    s.forN 72 fun k s =>
      let a := ((l[k]?).map BitVec.toNat).getD 0
      let v := s.counter (k / 12) (k % 12) + a
      if a = 0 then s
      else (s.setCounter (k / 12) (k % 12) (v % 2 ^ 48)).when (decide (2 ^ 48 ≤ v)) fun s => s.wrapped (k / 12) (k % 12)

def execCounterWrap (hart : Fin 6) (n : Fin 12) (s : State) : Out :=
  .next (if s.on R.PMC_CTRL_FREEZE then s else (s.setCounter hart n 0).wrapped hart n)

/-- Key of a master's held word for a counter. -/
def cntKey (m h n : Nat) : Nat := (m * 6 + h) * 12 + n

/-- A write of CNTn_LO is held for its master; a write of CNTn_HI sets the counter from both (R473). -/
def State.counterWrite (s : State) (m h n : Nat) (high : Bool) (v : Nat) : State :=
  if high then s.setCounter h n (mapGet (fun _ => 0) s.sch.cntHold (cntKey m h n) + 2 ^ 32 * (v % 65536))
  else { s with sch := { s.sch with cntHold := mapSet (fun _ => 0) s.sch.cntHold (cntKey m h n) v } }

def execCounterWrite (master : Fin 19) (hart : Fin 6) (n : Fin 12) (high : Bool) (value : BitVec 32) (s : State) : Out :=
  .next (s.when s.answers fun s => s.counterWrite master hart n high value.toNat)

def execPmcFreeze (freeze : Bool) (advance : List (BitVec 48)) (s : State) : Out :=
  .next (s.when s.answers fun s => (s.advance advance).put R.PMC_CTRL_FREEZE freeze)

/-- A snapshot starts, or is refused while one runs (R474). -/
def State.snapshot (s : State) (advance : List (BitVec 48)) : State :=
  if s.on R.PMC_SNAP_ST_BUSY then s.put R.PMC_SNAP_ST_REFUSED true
  else
    let s := s.advance advance
    let s := s.forN 72 fun k s =>
      let v := s.counter (k / 12) (k % 12)
      (s.wr (R.PMC_SCNT_LO_LO (k / 12) (k % 12)) v).wr (R.PMC_SCNT_HI_HI (k / 12) (k % 12)) (v / 2 ^ 32)
    let s := s.forN 6 fun h s => s.wr (R.PMC_SWRAP_SWRAP h) (s.rd (R.PMC_WRAP_WRAP h))
    { s.put R.PMC_SNAP_ST_BUSY true with sch := { s.sch with snapAt := s.now } }

def execSnapshotGo (advance : List (BitVec 48)) (s : State) : Out := .next (s.when s.answers fun s => s.snapshot advance)

def execSnapshotTimed (advance : List (BitVec 48)) (s : State) : Out :=
  let mode := s.rd R.PMC_CTRL_SNAP_MODE
  .next (if mode = 2 ∨ (mode = 1 ∧ !s.sch.snapDone) then
    let s := s.snapshot advance
    { s with sch := { s.sch with snapDone := mode == 1 } }
  else s)

/-- The snapshot in progress completes: SNAP_SEQ counts and the strobe's time shows. -/
def execSnapshotComplete (s : State) : Out :=
  .next (if s.on R.PMC_SNAP_ST_BUSY then
    let t := s.sch.snapAt
    let s := (s.put R.PMC_SNAP_ST_BUSY false).incMod R.PMC_SNAP_ST_SNAP_SEQ
    ((s.wr R.PMC_SNAP_NS_NS (t % 1000000000)).wr R.PMC_SNAP_SECLO_SEC_LO (t / 1000000000)).wr R.PMC_SNAP_SECHI_SEC_HI
      (t / 1000000000 / 2 ^ 32)
  else s)

end Sys2Proof.Machine
end

