-- ==== Sys2Proof/Machine/RegWrite.lean ====
section
/-! DEFINITION. Writes to the registers of the KC8400 (R5 to R8, R591, R532): the checks of each block, what a write
triggers, mirroring to the partner (R293), and the commands that are writes. A write answers the abort code that the object
service gives for it, 0 where it is accepted. -/

namespace Sys2Proof.Machine

namespace Abort
def width : Nat := 0x06070010
def readOnly : Nat := 0x06010002
def writeOnly : Nat := 0x06010001
def noIndex : Nat := 0x06020000
def busError : Nat := 0x06060000
def noSub : Nat := 0x06090011
def range : Nat := 0x06090030
def notRun : Nat := 0x08000000
def discard : Nat := 0x08000020
def own : Nat := 0x08000021
def state : Nat := 0x08000022
def timeout : Nat := 0x05040000
end Abort

/-! ### Control engine (R77, R98, R118, R119) -/

/-- The highest INDEX of a KIND (R71). -/
def kindMax (k : Nat) : Option Nat := [0, 7, 23, 95, 2047, 2047, 255, 255, 3][k]?

def kindOk (k index : Nat) : Bool := (kindMax k).any fun m => decide (index ≤ m)

/-- The context whose words an address lies in (R77). -/
def ctlContext (a : Nat) : Option Nat :=
  if 0x40010000 ≤ a ∧ a < 0x40014000 then some ((a - 0x40010000) / 0x40)
  else if 0x40020000 ≤ a ∧ a < 0x40038000 then some ((a - 0x40020000) / 0x180)
  else if 0x400C0000 ≤ a ∧ a < 0x400D0000 then some ((a - 0x400C0000) / 0x100)
  else if 0x400D0000 ≤ a ∧ a < 0x400D2000 then some ((a - 0x400D0000) / 0x20)
  else if 0x400E0000 ≤ a ∧ a < 0x400E8000 then some ((a - 0x400E0000) / 0x80)
  else none

/-- A refused write shows in CTL_STATUS (R77). -/
def State.ctlCheck (s : State) (a code : Nat) : State :=
  let s := (s.put R.CTL_STATUS_CHECK_ERR true).wr R.CTL_STATUS_CHECK_CODE code
  match ctlContext a with
  | some i => s.wr R.CTL_STATUS_CHECK_CTX i
  | none => s

def State.lvlCheck (s : State) (code : Nat) : State :=
  (s.put R.LVL_STATUS_CHECK_ERR true).wr R.LVL_STATUS_CHECK_CODE code

/-- A binding in use takes a context output that is not there. -/
def brokenLink (c : Cfg) (i e : Nat) : Bool :=
  let k := c (R.BIND_KIND i e)
  let x := c (R.BIND_INDEX i e)
  (k == 4 || k == 5) && (!ctxOn c (x / 8) || decide (ctxP c (x / 8) ≤ x % 8))

/-- A table of a context names an element that the context does not have (R118). -/
def tableOut (c : Cfg) (i t : Nat) : Bool :=
  c (R.REP_CFG_EN i t) == 1 &&
    (decide (ctxP c i ≤ c (R.REP_CFG_OUT i t)) || decide (ctxM c i ≤ c (R.REP_CFG_ERR_Y i t)) ||
      (c (R.REP_CFG_ERR_KIND i t) == 0 && decide (ctxQ c i ≤ c (R.REP_CFG_ERR_R i t))))

/-- A table takes its phase from a context output that is not there. -/
def phaseOut (c : Cfg) (k t i : Nat) : Bool :=
  c (R.REP_CFG_EN k t) == 1 && c (R.REP_PHASE_PH_SRC k t) == 1 && c (R.REP_PHASE_PH_IDX k t) / 8 == i &&
    (!ctxOn c i || decide (ctxP c i ≤ c (R.REP_PHASE_PH_IDX k t) % 8))

/-- The contexts other than `i` that may name an output of it. -/
def others (i : Nat) : List Nat := (upto 256).filter (· != i)

/-- Cause 2: the same-period links close a cycle; a context that waits for itself does too. -/
def causeCycle (c : Cfg) (i : Nat) : Bool := (ctxOn c i && (producers c i).contains i) || hasCycle c

/-- Cause 3: a binding of the context names a disabled context, or an output at or above that context's p. -/
def causeLink (c : Cfg) (i : Nat) : Bool := ctxOn c i && (usedBinds c i).any (brokenLink c i)

/-- Cause 4: an output that another context takes goes, or an element that an enabled table of the context uses. -/
def causeLost (old c : Cfg) (i : Nat) : Bool :=
  ((others i).any fun k =>
    (ctxOn c k && (usedBinds c k).any fun e => brokenLink c k e && c (R.BIND_INDEX k e) / 8 == i) ||
    (upto 4).any fun t => phaseOut c k t i && !phaseOut old k t i) ||
  (upto 4).any (tableOut c i)

/-- Cause 5: the group of the context is inconsistent (R99). -/
def causeGroup (c : Cfg) (i : Nat) : Bool :=
  match groupOf c i with
  | none => false
  | some g =>
    let ms := members c g
    decide (8 < ms.length) ||
      ms.any fun k => c (R.DESC_CTRL_GROUP_OUT k) != c (R.DESC_CTRL_GROUP_OUT i) ||
        decide (ctxP c k ≤ c (R.DESC_CTRL_GROUP_OUT k)) || (producers c k).any fun q => q != k && ms.contains q

/-- The lowest cause that a descriptor or binding word of context `i` has after the write, 0 for none (R77). -/
def checkContext (old c : Cfg) (i : Nat) (bindingOk : Bool) : Nat :=
  if !bindingOk then 1
  else if causeCycle c i then 2
  else if causeLink c i then 3
  else if causeLost old c i then 4
  else if causeGroup c i then 5
  else 0

/-- The words of a repetitive table agree (R118): LEAD below LEN, the elements of an enabled table, and its phase source. -/
def checkTable (c : Cfg) (i t : Nat) : Bool :=
  let src := c (R.REP_PHASE_PH_SRC i t)
  let idx := c (R.REP_PHASE_PH_IDX i t)
  decide (c (R.REP_PHASE_LEAD i t) < c (R.REP_CFG_LEN i t)) && !tableOut c i t &&
    ((src == 0 && idx == 0) || src == 1 || (src == 2 && decide (idx < 256)))

/-- The words of a set-point channel agree (R93, R98). -/
def checkPoint (c : Cfg) (i : Nat) : Bool :=
  let src := c (R.SP_CFG_SRC i)
  let idx := c (R.SP_CFG_INDEX i)
  fLe (c (R.SP_MIN_MIN i)) (c (R.SP_MAX_MAX i)) &&
    ((decide (src ≤ 1) && idx == 0) || (src == 2 && decide (idx < 8)) || (src == 3 && decide (idx < 4)) || src == 4)

/-- The abort code of a refusal by R77. -/
def checkAbort (code : Nat) : Nat := if code = 0 then 0 else if code = 1 then Abort.range else Abort.discard

/-- A write to the control engine: `w` is the word as it would stand, `v` as it was written. -/
def State.ctlWrite (s : State) (a w v : Nat) : State × Nat :=
  let t := s.setWord a w
  let judge := fun (code : Nat) (ok : State) => if code = 0 then (ok, 0) else (s.ctlCheck a code, checkAbort code)
  if a = R.CTL_CLEAR_PEAK.addr then (s.ctlClear v, 0)
  else if a = R.SWAP_CMD_GO.addr then
    if !bitOf v 0 then (s, 0)
    else (s.swapGo (bitOf v 1) (bitOf v 2), if s.on R.SWAP_STATUS_PENDING then Abort.discard else 0)
  else if a = R.CTL_INJECT_CTX.addr then
    if !bitOf v 8 then (s, 0) else (s.injectOverrun (bitsOf v 0 8), if s.inService then 0 else Abort.discard)
  else if 0x40010000 ≤ a ∧ a < 0x40014000 then
    let i := (a - 0x40010000) / 0x40
    judge (checkContext s.rd t.rd i true) ((t.wr (R.DESC_COST_MACS i) (ctxMacs t.rd i)).wr (R.DESC_COST_COST i) (ctxCost t.rd i))
  else if 0x40020000 ≤ a ∧ a < 0x40038000 then
    if (a - 0x40020000) % 12 = 0 then judge (checkContext s.rd t.rd ((a - 0x40020000) / 0x180) (kindOk (bitsOf w 0 4) (bitsOf w 4 12))) t
    else (t, 0)
  else if 0x400A0000 ≤ a ∧ a < 0x400A4000 then
    let c := (a - 0x400A0000) / 0x40
    let fresh := fun (t : State) => if a % 0x40 = 0x18 then
        { t with ctl := { t.ctl with spNew := if t.ctl.spNew.contains c then t.ctl.spNew else t.ctl.spNew ++ [c] } } else t
    judge (if checkPoint t.rd c then 0 else 1) (fresh t)
  else if 0x400C0000 ≤ a ∧ a < 0x400D0000 then
    (t.when (a % 16 == 0) fun t => t.setWord (R.FB_COUNT_TO_CNT ((a - 0x400C0000) / 0x100) (a / 16 % 16)).addr 0, 0)
  else if 0x400D0000 ≤ a ∧ a < 0x400D2000 ∧ a % 0x20 = 4 then (s.coastCmd ((a - 0x400D0000) / 0x20) (bitsOf v 0 16) (bitsOf v 16 16), 0)
  else if 0x400E0000 ≤ a ∧ a < 0x400E8000 then
    judge (if checkTable t.rd ((a - 0x400E0000) / 0x80) (a / 0x20 % 4) then 0 else 1) t
  else (t, 0)

/-- A write through the coefficient aperture, or by an object to a page: the shadow page takes it; the active page and the
reserved words do not (R82, R83). -/
def State.coefWrite (s : State) (i page w v : Nat) : State × Nat :=
  if 1392 ≤ w then (s, 0)
  else if page = s.page i then (s, Abort.discard)
  else (s.setCoef i page w v, 0)

/-! ### Level engine (R118, R129, R151, R512) -/

def State.lvlWrite (s : State) (a w v : Nat) : State × Nat :=
  if a = R.CELL_HP_HP.addr then
    let h := s.rd R.CELL_SEL_HANDLE
    let k := keyOfExt h
    let arm := s.cellArm k
    if 2 ^ 13 ≤ h then (s, 0)
    else if arm ≤ 5 ∧ s.on (R.HARM_CFG_HP_MODE arm) then (s, Abort.discard)
    else (s.onView k fun x => { x with hp := bitsOf v 0 16 }, 0)
  else if 0x40101000 ≤ a ∧ a < 0x40101600 then
    let arm := (a - 0x40101000) / 0x100
    let off := a % 0x100
    let kind := bitsOf w 0 4
    let bad := (off == 8 && !((kind == 1 || kind == 2 || kind == 4 || kind == 5) && kindOk kind (bitsOf w 4 12))) ||
      (off == 0x20 && bitsOf w 16 16 != 0 && decide (bitsOf w 16 16 < bitsOf w 0 8))
    if bad then (s.lvlCheck 1, Abort.range)
    else ((s.setWord a w).when (off == 0) fun s => s.putBit R.LVL_STATUS_IN_SERVICE arm (bitOf w 0), 0)
  else (s.setWord a w, 0)

/-! ### Strand ports (R211, R213, R219, R221) -/

def State.strWrite (s : State) (a w v : Nat) : State × Nat :=
  if 0x40201000 ≤ a ∧ a < 0x40204000 then
    let p := (a - 0x40201000) / 0x100
    let off := a % 0x100
    if off = 0x1C then (s.when (bitOf v 0) fun s => s.errClr p, 0)
    else if off = 0x30 then
      if !bitOf v 0 then (s, 0)
      else (s.mbGo p, if s.on (R.MB_STATUS_BUSY p) || (s.goRefused p (s.softReq p)).isSome then Abort.discard else 0)
    else (s.setWord a w, 0)
  else if 0x40204000 ≤ a ∧ a < 0x40204C00 ∧ a % 0x40 = 0 then
    let p := (a - 0x40204000) / 0x40
    let start := fun (s : State) => if bitOf v 1 then s.enumerate p else s
    if bitOf v 1 ∧ s.on (R.ENUM_STATUS_BUSY p) then (s, Abort.discard)
    else if bitOf v 2 then
      match (s.setWord a w).enumAccept p v with
      | (t, false) => (start t, 0)
      | (_, true) => (s.put (R.ENUM_STATUS_REFUSED p) true, Abort.state)
    else (start (s.setWord a w), 0)
  else (s.setWord a w, 0)

/-! ### Tie link and time (R317, R352, R358, R359) -/

/-- A write of TIE_CMD: each command named takes effect where it may, with the key. -/
def State.tieCmd (s : State) (v : Nat) : State × Nat :=
  if v % 8 = 0 then (s, 0)
  else if bitsOf v 16 16 ≠ 0x5A5A then (s, Abort.discard)
  else
    let can := (!bitOf v 0 || (s.role == Role.active && s.partnerReady)) && (!bitOf v 1 || s.role == Role.standby) &&
      (!bitOf v 2 || (s.role == Role.relay && s.tieUp && !s.tie.yielded))
    if !can then (s, Abort.discard)
    else
      let s := s.when (bitOf v 0) fun s => { s with tie := { s.tie with switch := true } }
      let s := s.when (bitOf v 1) fun s => { s with tie := { s.tie with demote := true } }
      (s.when (bitOf v 2) State.startJoining, 0)

def State.tieClear (s : State) : State :=
  ((((s.setWord R.TIE_CMP_EXPLAINED.addr 0).setWord R.TIE_SWEEP_FIX.addr 0).setWord R.TIE_BRIDGE_BRIDGE_CNT.addr 0).setWord
    (R.TIE_LANE_BLK_ERR 0).addr 0).setWord (R.TIE_LANE_BLK_ERR 1).addr 0

def State.tieWrite (s : State) (a w v : Nat) : State × Nat :=
  if a = R.TIE_CMD_SWITCH.addr then s.tieCmd v
  else if a = R.TIE_CLR_CLR.addr then (s.when (bitOf v 0) State.tieClear, 0)
  else (s.setWord a w, 0)

/-- The oldest transmit stamp of a port is discarded. -/
def State.stampNext (s : State) (n : Nat) : State :=
  { s with tim := { s.tim with stamps := mapUpd noneAt s.tim.stamps n (List.drop 1) } }

def State.timWrite (s : State) (a w v : Nat) : State × Nat :=
  let n := (a - 0x40500100) / 0x80
  if a = R.TIM_SET_SECHI_GO.addr then
    if bitOf v 31 then (s.timSetGo v, if s.writable then 0 else Abort.state) else (s.setWord a w, 0)
  else if 0x40500100 ≤ a ∧ a % 0x80 = 0x20 then (s.when (bitOf v 0) fun s => s.stampNext n, 0)
  else if 0x40500100 ≤ a ∧ a % 0x80 = 0x50 ∧ bitOf v 31 then
    (s.launchPush n v, if 16 ≤ (mapGet noneAt s.tim.queue n).length then Abort.discard else 0)
  else (s.setWord a w, 0)

/-! ### Central inputs (R274, R277, R282, R285, R286) -/

def State.adcWrite (s : State) (a w v : Nat) : State × Nat :=
  if 0x40600100 ≤ a ∧ a < 0x40600180 ∧ a % 16 < 8 then
    ((s.setWord a w).sarWritten (2 * ((a - 0x40600100) / 16) + a % 16 / 4) w, 0)
  else if 0x40600400 ≤ a ∧ a < 0x40600580 ∧ a % 16 = 0 then ((s.setWord a w).sdClear ((a - 0x40600400) / 16) none, 0)
  else if a = (R.SDCLK_CFG_DIV 0).addr then
    let old := s.word a
    ((s.setWord a w).forN 24 fun d t =>
      let k := s.rd (R.SD_CFG_CLK d)
      t.when (decide (k < 4) && bitsOf old (8 * k) 5 != bitsOf w (8 * k) 5) fun t => t.sdClear d none, 0)
  else if 0x40600800 ≤ a ∧ a < 0x40600880 ∧ a % 32 = 12 then (s.setWord a v, 0)
  else (s.setWord a w, 0)

def State.gpioWrite (s : State) (a w v : Nat) : State × Nat :=
  if a = R.EVT_NEXT_NEXT.addr then (s.when (bitOf v 0) State.nextEvent, 0)
  else if 0x40F01000 ≤ a ∧ a < 0x40F01400 ∧ (a % 16 = 4 ∨ a % 16 = 8) then ((s.setWord a w).lineRestart ((a - 0x40F01000) / 16), 0)
  else (s.setWord a w, 0)

/-! ### Disturbance capture (R439, R444, R445, R451) -/

/-- COND, OP and SRC of a sequencer state are a row of R439. SRC of the conditions Never and Always is not used. -/
def sqListed (cond op src : Nat) : Bool :=
  match cond with
  | 0 | 1 => op == 0
  | 2 => decide (1 ≤ src % 16) && kindOk (src % 16) (src / 16)
  | 3 => decide (src < 64)
  | 4 => decide (op ≤ 1) && decide (src < 128)
  | 5 => op == 1 || (op == 0 && decide (src < 64))
  | 6 => decide (op ≤ 1) && decide (src < 16)
  | _ => false

/-- The words that only IDLE and DONE let change (R445). -/
def acqConfig (a : Nat) : Bool :=
  (decide (0x40700008 ≤ a) && decide (a < 0x40700020)) || (decide (0x40700100 ≤ a) && decide (a < 0x40700280))

def State.acqWrite (s : State) (a w v : Nat) (gate : Bool) : State × Nat :=
  if acqConfig a && s.acqRuns then (s, Abort.discard)
  else if a = R.ACQ_CTRL_ARM.addr then
    let (s, c) := if bitOf v 0 then s.acqArm gate else (s, 0)
    let s := s.when (bitOf v 1) State.acqDisarm
    (s.when (bitOf v 2) State.acqForce, c)
  else if a = R.ACQ_CLR_CLR.addr then (s.when (bitOf v 0) State.acqClr, 0)
  else if a = R.ACQ_MARK_NEXT_NEXT.addr then (s.when (bitOf v 0) State.markNext, 0)
  else if 0x40700100 ≤ a ∧ a < 0x40700180 ∧ !kindOk (bitsOf w 0 4) (bitsOf w 4 12) then (s, Abort.range)
  else if 0x40700200 ≤ a ∧ a < 0x40700280 ∧ a % 16 < 8 then
    let q := (a - 0x40700200) / 16
    let t := s.setWord a w
    if sqListed (t.rd (R.SQ_CFG_COND q)) (t.rd (R.SQ_CFG_OP q)) (t.rd (R.SQ_SRC_SRC q)) then (t, 0) else (s, Abort.range)
  else (s.setWord a w, 0)

/-! ### Fault collector (R412, R418, R427) -/

def State.fltWrite (s : State) (a w v : Nat) : State × Nat :=
  if a < 0x40800010 then (s.clearWord ((a - 0x40800000) / 4) v, 0)
  else if a = R.FLT_CTRL_SRC.addr then s.fltCtrl v
  else if 0x40800100 ≤ a ∧ a < 0x40800120 then
    let t := s.setWord a w
    let e := (a - 0x40800100) / 4
    let line := t.rd (R.FLT_EXT_LINE e)
    let live := t.on (R.FLT_EXT_EN e) && !t.on (R.FLT_EXT_EDGE e) && t.lineActive line (t.on (R.GPIO_STATUS_DELIVERED line))
    (t.causeIs (120 + e) live, 0)
  else if 0x40800400 ≤ a ∧ a < 0x40800C00 ∧ a % 16 < 8 then s.fltSrcWrite ((a - 0x40800400) / 16) (a % 16 == 4) v
  else (s.setWord a w, 0)

/-! ### Scheduler and counters (R457, R459, R461, R463, R468, R473, R474) -/

def State.schWrite (s : State) (m a w v : Nat) : State × Nat :=
  if 0x40900010 ≤ a ∧ a < 0x40900030 then
    let d := fun (_ : Nat) => List.replicate 8 0
    let words := (mapGet d s.sch.staged m).set ((a - 0x40900010) / 4) v
    ({ s with sch := { s.sch with staged := mapSet d s.sch.staged m words } }, 0)
  else if a = R.SCH_PUSH_Q.addr then (s.push m (bitsOf v 0 6) (bitOf v 6), 0)
  else if a = R.SCH_LS_INJ.addr then
    if bitsOf v 0 6 = 0 then (s, 0)
    else if bitsOf v 16 16 ≠ 0x5A5A then (s, Abort.discard) else (s.injectMask (bitsOf v 0 6) 0, 0)
  else if a = R.SCH_CLR_CLR.addr then (s.when (bitOf v 0) State.schClr, 0)
  else if a = R.TRC_CFG_EN.addr then
    if bitOf w 0 && !s.on R.TRC_CFG_EN then
      if s.sramFits (s.rd R.TRC_BASE_BASE, s.rd R.TRC_SIZE_SIZE) then ((s.setWord a w).traceOn, 0)
      else (s.put R.MEM_STATUS_PWR_REF true, Abort.discard)
    else (s.setWord a w, 0)
  else if 0x40901000 ≤ a ∧ a < 0x40901400 ∧ a % 16 = 0 then
    let q := (a - 0x40901000) / 16
    let depth := bitsOf w 0 11
    if depth = s.rd (R.Q_CFG_DEPTH q) then (s.setWord a w, 0)
    else if 4096 < s.allotted - s.rd (R.Q_CFG_DEPTH q) + depth then (s.put R.SCH_STATUS_ALLOT_ERR true, Abort.range)
    else ((s.setDepth q depth).setWord a w, 0)
  else if 0x40902000 ≤ a ∧ a < 0x40902180 ∧ a % 64 = 8 then
    let h := (a - 0x40902000) / 64
    ((s.setPart h (bitsOf w 4 4)).setWord a w, 0)
  else if (0x40901000 ≤ a ∧ a < 0x40901400 ∧ a % 16 = 4) ∨ (0x40902000 ≤ a ∧ a < 0x40902180 ∧ a % 64 < 8) then
    ((s.setWord a w).settle, 0)
  else (s.setWord a w, 0)

def State.pmcWrite (s : State) (m a w v : Nat) : State × Nat :=
  if a = R.PMC_CTRL_FREEZE.addr then
    let mode := bitsOf w 2 2
    let s := if mode = s.rd R.PMC_CTRL_SNAP_MODE then s else { s with sch := { s.sch with snapDone := false } }
    let busy := s.on R.PMC_SNAP_ST_BUSY
    if bitOf v 1 && busy then (s.put R.PMC_SNAP_ST_REFUSED true, Abort.discard)
    else ((s.setWord a w).when (bitOf v 1) fun s => s.snapshot [], 0)
  else if 0x40A01000 ≤ a ∧ a < 0x40A01600 ∧ a % 0x100 < 0x60 then
    (s.counterWrite m ((a - 0x40A01000) / 0x100) (a % 0x100 / 8) (a % 8 == 4) v, 0)
  else (s.setWord a w, 0)

/-! ### Memory, boot flash fuses and the system block (R482, R488, R495, R541, R536) -/

def State.memWrite (s : State) (a w v : Nat) : State × Nat :=
  if a < 0x40B00010 then s.pwrWrite ((a - 0x40B00000) / 4) v
  else if a = R.DDR_CTRL_INIT.addr then
    if !bitOf v 0 then (s, 0) else if s.writable then (s.startDdr, 0) else (s, Abort.discard)
  else if a = R.SEC_CMD_ROLL.addr then
    if !bitOf v 0 && !bitOf v 1 then (s, 0)
    else if bitsOf v 16 16 ≠ 0x5A5A then (s, Abort.discard)
    else
      let t := s.when (bitOf v 0) fun s => s.secRoll (bitsOf v 4 4) true
      let t := t.when (bitOf v 1) fun s => s.secRevoke (bitsOf v 2 2) true
      (t, if t.fuseBusy && !s.fuseBusy then 0 else Abort.discard)
  else (s.setWord a w, 0)

/-- A session of the UDP service. -/
def Session.isUdp (x : Session) : Bool :=
  match x.client with
  | .udp _ => true
  | _ => false

/-- The sessions in service, and their count (R551); requests of a session that has closed are dropped. -/
def State.setSessions (s : State) (l : List Session) : State :=
  let jobs := s.od.jobs.filter fun j => l.any fun x => x.client == j.client
  { s with od := { s.od with sessions := l, jobs := jobs } }.wr R.OD_UDP_SESSIONS (l.filter Session.isUdp).length

/-- The sessions of a station port close (R551). -/
def State.closeNet (s : State) (n : Nat) : State := s.setSessions (s.od.sessions.filter fun x => !(x.isUdp && x.net == n))

/-- A write to the system block, STATE_CMD apart. -/
def State.sysWrite (s : State) (a w v : Nat) : State × Nat :=
  if 0x41100300 ≤ a ∧ a < 0x41100318 then ((s.setWord a w).closeNet ((a - 0x41100300) / 12), 0)
  else if a = R.OD_REPLAY_CLR.addr then ((s.setWord a w).when (bitOf v 14) fun s => s.setReplay [], 0)
  else (s.setWord a w, 0)

/-! ### One write -/

/-- What an accepted write does, by block: `m` is the master, `w` the word as it would stand, `v` the word written, and
`gate` whether an ARM comes to the accepting unit (R444). -/
def State.applyWrite (s : State) (m a w v : Nat) (gate : Bool) : State × Nat :=
  match a / 0x100000 with
  | 0x400 => s.ctlWrite a w v
  | 0x401 => s.lvlWrite a w v
  | 0x402 => s.strWrite a w v
  | 0x403 => s.tieWrite a w v
  | 0x405 => s.timWrite a w v
  | 0x406 => s.adcWrite a w v
  | 0x407 => s.acqWrite a w v gate
  | 0x408 => s.fltWrite a w v
  | 0x409 => s.schWrite m a w v
  | 0x40A => s.pmcWrite m a w v
  | 0x40B => s.memWrite a w v
  | 0x40F => s.gpioWrite a w v
  | 0x411 =>
    if a = R.STATE_CMD_CMD.addr then
      let (s, c) := s.stateCommand (bitsOf v 0 8) (bitsOf v 16 16)
      (s, if c = 0 then 0 else Abort.state)
    else s.sysWrite a w v
  | _ => (s.setWord a w, 0)

/-- The unit is the partner of one that controls. -/
def State.isPartner (s : State) : Bool := s.role == Role.standby || (s.role == Role.relay && s.tieUp)

/-- A mirrored write accepted on the ACTIVE goes to the partner: with LVLW for the level engine, else with INPUT (R296). -/
def State.mirror (s : State) (a v : Nat) : State :=
  if s.role ≠ Role.active then s
  else if a / 0x100000 = 0x401 then { s with tie := { s.tie with outLvlw := s.tie.outLvlw ++ [(a, v)] } }
  else { s with tie := { s.tie with outInput := s.tie.outInput ++ [(a, v)] } }

/-- A refusal by a field of the word, with the report of its block. -/
def State.fieldRefused (s : State) (a : Nat) (why : Refused) : State × Nat :=
  match why with
  | .state => (s, Abort.state)
  | .island => (s, Abort.readOnly)
  | .range =>
    if a / 0x100000 = 0x400 then (s.ctlCheck a 1, Abort.range)
    else if a / 0x100000 = 0x401 then
      (s.lvlCheck (if 0x40100010 ≤ a ∧ a < 0x40100028 then 2 else 1), Abort.range)
    else (s, Abort.range)

/-- A write of one register word by a master of the chip outside the safety island, or by the object service (R5 to R8,
R293, R591). In RESET and SELF-TEST nothing is written. -/
def State.regWrite (s : State) (m a v : Nat) : State × Nat :=
  if s.st = St.reset ∨ s.st = St.selfTest then (s, Abort.state)
  else if 0x40080000 ≤ a ∧ a < 0x40082000 then
    let i := s.rd R.COEF_SEL_CTX
    let w := (a - 0x40080000) / 4
    if s.isPartner then (s, Abort.state)
    else
      let x := s.coefWrite i (s.shownPage i) w v
      (if x.2 = 0 ∧ w < 1392 then x.1.mirror (coefAddr i (s.shownPage i) w) v else x.1, x.2)
  else
    match kcRow a with
    | none => (s, 0)
    | some r =>
      if a / 0x100000 = 0x410 then (s, if r.fields.all fun f => f.after (s.word a) v == bitsOf (s.word a) f.lo f.width then 0 else Abort.readOnly)
      else if s.isPartner && mirrored a then (s, Abort.state)
      else if a = R.CELL_HP_HP.addr then s.lvlWrite a v v
      else
        match r.write (s.word a) v s.writable false with
        | .error e => s.fieldRefused a e
        | .ok w =>
          let x := s.applyWrite m a w v s.accepting
          (if x.2 = 0 && mirrored a then x.1.mirror a v else x.1, x.2)

/-! ### Commands that are register writes -/

/-- A word written by a local master. -/
def State.write (s : State) (f : Fld) (v : Nat) : Out := .next (s.regWrite 0 f.addr v).1

def execDescriptorWrite (addr value : BitVec 32) (s : State) : Out :=
  .next (if (ctlContext addr.toNat).isSome || (decide (0x400A0000 ≤ addr.toNat) && decide (addr.toNat < 0x400A4000)) then
    (s.regWrite 0 addr.toNat value.toNat).1 else s)

def execSwap (loadX0 : Bool) (s : State) : Out := s.write R.SWAP_CMD_GO (3 + 4 * loadX0.toNat)
def execLoadX0 (s : State) : Out := s.write R.SWAP_CMD_GO 5
def execSpValueWrite (c : Fin 256) (value : BitVec 32) (s : State) : Out := s.write (R.SP_VALUE_VALUE c) value.toNat
def execCoastDrop (ctx : Fin 256) (mask : BitVec 16) (s : State) : Out := s.write (R.COAST_CMD_DROP ctx) mask.toNat
def execCoastReadmit (ctx : Fin 256) (mask : BitVec 16) (s : State) : Out :=
  s.write (R.COAST_CMD_DROP ctx) (65536 * mask.toNat)
def execForceOvr (ctx : Fin 256) (s : State) : Out := s.write R.CTL_INJECT_CTX (ctx.val + 256)
def execClearPeak (s : State) : Out := s.write R.CTL_CLEAR_PEAK 1
def execClearOvrCount (s : State) : Out := s.write R.CTL_CLEAR_PEAK 2
def execClearNumCount (s : State) : Out := s.write R.CTL_CLEAR_PEAK 4
def execClearCtxCounts (s : State) : Out := s.write R.CTL_CLEAR_PEAK 8

/-- An access to a word of the aperture: a write, or a read with its answer. -/
def execCoefApertureAccess (word : Fin 2048) (write : Option (BitVec 32)) (s : State) : Out :=
  .next (match write with
  | some v => (s.regWrite 0 (0x40080000 + 4 * word.val) v.toNat).1
  | none => s.send (.reply (s.apertureWord word) 0))

def execPiCntPreset (i : Fin 4) (value : BitVec 32) (s : State) : Out := s.write (R.PI_CNT_CNT i) value.toNat
def execGpioRateWrite (line : Fin 64) (stuck : Bool) (value : BitVec 32) (s : State) : Out :=
  s.write (if stuck then R.GPIO_STUCK_MAX_ACT line else R.GPIO_RATE_RATE_N line) value.toNat
def execEvtNext (s : State) : Out := s.write R.EVT_NEXT_NEXT 1
def execErrClr (port : Fin 48) (s : State) : Out := s.write (R.ERR_CLR_CLR port) 1

/-- START in a write of ENUM_CTRL that keeps its other fields. -/
def execEnumStart (port : Fin 48) (s : State) : Out :=
  s.write (R.ENUM_CTRL_START port) (setBits (s.word (R.ENUM_CTRL_START port).addr) 1 1 1)

/-- ACCEPT with the target fields of `value`. -/
def execEnumAccept (port : Fin 48) (value : BitVec 32) (s : State) : Out :=
  s.write (R.ENUM_CTRL_ACCEPT port) (setBits (setBits value.toNat 1 1 0) 2 1 1)

def execMbGo (port : Fin 48) (s : State) : Out := s.write (R.MB_CTRL_GO port) 1
def execFltStatClear (w : Fin 4) (mask : BitVec 32) (s : State) : Out := s.write (R.FLT_STAT_LATCH w) mask.toNat
def execFltInject (src : Fin 128) (key : BitVec 16) (s : State) : Out :=
  s.write R.FLT_CTRL_SRC (src.val + 128 + 65536 * key.toNat)
def execFltRearm (s : State) : Out := s.write R.FLT_CTRL_SRC 256
def execFltClrAll (key : BitVec 16) (s : State) : Out := s.write R.FLT_CTRL_SRC (512 + 65536 * key.toNat)
def execFltApp (s : State) : Out := s.write R.FLT_CTRL_SRC 1024
def execFltSrcConfig (src : Fin 128) (win : Bool) (value : BitVec 32) (s : State) : Out :=
  s.write (if win then R.FLT_SRC_WIN_ESC_W src else R.FLT_SRC_CFG_BASE src) value.toNat
def execAcqArm (s : State) : Out := s.write R.ACQ_CTRL_ARM 1
def execAcqDisarm (s : State) : Out := s.write R.ACQ_CTRL_ARM 2
def execAcqForce (s : State) : Out := s.write R.ACQ_CTRL_ARM 4
def execAcqMarkNext (s : State) : Out := s.write R.ACQ_MARK_NEXT_NEXT 1
def execAcqClr (s : State) : Out := s.write R.ACQ_CLR_CLR 1
def execOdReplayClr (s : State) : Out := s.write R.OD_REPLAY_CLR (2 ^ 14)

/-! ### A write by a bus master -/

/-- A store to the repetitive region by a master of the ACTIVE is mirrored, an 8-byte one as two words (R293). -/
def State.mirrorStore (s : State) (a n v : Nat) : State :=
  if !((s.repRegion.map fun r => overlaps a n r.1 r.2).getD false) then s
  else if n = 8 then (s.mirror a (v % 2 ^ 32)).mirror (a + 4) (v / 2 ^ 32)
  else s.mirror (a / 4 * 4) (s.load32 (a / 4 * 4))

/-- A write by a master: a register takes one aligned word; the SRAM and an initialised DDR4 take their bytes; anything
else, and a group that is not available, ends with a bus error response (R5, R481, R488). -/
def State.busWrite (s : State) (m a n v : Nat) : State :=
  if s.st = St.reset ∨ s.st = St.selfTest then s
  else if 0x40000000 ≤ a ∧ a < 0x41200000 then
    if n = 4 ∧ a % 4 = 0 then (s.regWrite m a v).1 else s.busFault 2 m a
  else if 0x10000000 ≤ a ∧ a + n ≤ 0x18000000 then
    let rep := (s.repRegion.map fun r => overlaps a n r.1 r.2).getD false
    if !s.bit R.MEM_STATUS_AVAIL ((a - 0x10000000) / 2 ^ 24) then s.busFault 2 m a
    else if rep && s.isPartner then s.busFault 2 m a
    else (s.storeBytes a (bytesLE n v)).mirrorStore a n v
  else if 0x800000000 ≤ a ∧ a + n ≤ 0x1000000000 ∧ s.on R.DDR_STATUS_READY ∧
      a + n ≤ 0x800000000 + s.rd R.DDR_STATUS_SIZE_GB * 2 ^ 30 then s.storeBytes a (bytesLE n v)
  else s.busFault 2 m a

def execRegisterWrite (master : Fin 19) (addr : BitVec 36) (width : Fin 9) (data : BitVec 64) (s : State) : Out :=
  .next (if width.val = 0 then s else s.busWrite master addr.toNat width (data.toNat % 2 ^ (8 * width.val)))

end Sys2Proof.Machine
end

