-- ==== Sys2Proof/Machine/Mirror.lean ====
section
/-! DEFINITION. What the partner does with the ACTIVE's writes, inputs and merge (R293, R296, R298, R316). -/

namespace Sys2Proof.Machine

/-- Entries of 8 bytes, address and data, from an offset of a body. -/
def entriesAt (b : List Byte) (off n : Nat) : List (Nat × Nat) := (upto n).map fun i => (leAt b (off + 8 * i) 4, leAt b (off + 8 * i + 4) 4)

/-- A write of the ACTIVE takes effect on its partner: a coefficient word, an entry of a repetitive table, or a register
word (R293). The ACTIVE has judged it. -/
def State.takeWrite (s : State) (e : Nat × Nat) : State :=
  let (a, v) := e
  if 0x30000000 ≤ a ∧ a < 0x40000000 then
    let k := (a - 0x30000000) / 4
    s.setCoef (k / 4096) (k / 2048 % 2) (k % 2048) v
  else if 0x10000000 ≤ a ∧ a < 0x18000000 then s.store32 a v
  else
    match kcRow a with
    | none => s
    | some r =>
      if !mirrored a then s
      else
        match r.write (s.word a) v true false with
        | .error _ => s
        | .ok w => (s.applyWrite 0 a w v true).1

/-- A status field that the joining unit takes from the image: of the engines, the committed layout, enumeration and the
level table. Status of the unit itself, its links and its faults stays its own (log entry 28). -/
def imageStatus (a lo : Nat) : Bool :=
  match a / 0x100000 with
  | 0x400 | 0x401 => true
  | 0x411 => decide (0x41100100 ≤ a) && decide (a ≤ 0x41100118)
  | 0x402 =>
    (decide (0x40201000 ≤ a) && decide (a < 0x40204000) && ((a % 0x100 == 4 && decide (8 ≤ lo)) || a % 0x100 == 8 || a % 0x100 == 12)) ||
      (decide (0x40204000 ≤ a) && decide (a < 0x40205000) && a % 0x40 == 8) || decide (0x40208000 ≤ a)
  | 0x404 => decide (0x40404000 ≤ a)
  | _ => false

/-- A word of the image: its settings, and the status that goes with them. -/
def State.takeImage (s : State) (e : Nat × Nat) : State :=
  let (a, v) := e
  if 0x30000000 ≤ a ∧ a < 0x40000000 then s.takeWrite e
  else
    match kcRow a with
    | none => s
    | some r =>
      if !mirrored a then s
      else s.setWord a (r.fields.foldl (fun w f =>
        if f.acc == .rw || f.acc == .rwl || (f.acc != .wo && imageStatus a f.lo) then setBits w f.lo f.width (bitsOf v f.lo f.width)
        else w) (s.word a))

/-- The inputs of an INPUT body (R325). -/
def inputsOf (b : List Byte) : Shadow :=
  { sar := (upto 8).map fun n => leAt b (2 * n) 2,
    sd := (upto 24).map fun d => leAt b (16 + 4 * d) 4,
    pi := (upto 4).map fun i => leAt b (112 + 4 * i) 4,
    sarFresh := byteAt b 128,
    sdFresh := leAt b 129 3,
    piFresh := byteAt b 132 % 16,
    points := (entriesAt b 136 (byteAt b 133)).map fun e => (e.1 % 256, e.2) }

/-- The merge exceptions of an INPUT body: port, position, and whether a tail copy was used. -/
def exceptionsOf (b : List Byte) : List (Nat × Nat × Bool) :=
  let off := 136 + 8 * byteAt b 133 + 8 * byteAt b 134
  (upto (byteAt b 135)).map fun i =>
    let w := leAt b (off + 4 * i) 4
    (bitsOf w 0 6, bitsOf w 8 7, bitsOf w 16 2 == 1)

/-- The positions that the ACTIVE took as missing. -/
def missingAt (xs : List (Nat × Nat × Bool)) (p : Nat) : List Nat :=
  (xs.filter fun x => x.1 == p && !x.2.2).map fun x => x.2.1

/-- The partner lacks a slot copy that the merge names (R298). -/
def State.mergeLacks (s : State) (xs : List (Nat × Nat × Bool)) : Bool :=
  ((upto 48).filter s.strandInService).any fun p =>
    (upto (s.ncell p)).any fun i => !(missingAt xs p).contains i && !(s.port p).good.contains i

/-- The ACTIVE's merge, applied exactly (R297). -/
def State.applyMerge (s : State) (xs : List (Nat × Nat × Bool)) : State :=
  s.forN 48 fun p s =>
    let gone := missingAt xs p
    if gone.isEmpty then s else s.onPort p fun x => { x with good := x.good.filter fun i => !gone.contains i }

/-- Too late for the shadow window that starts 0.4 µs after an instant of the period (R294, R298). -/
def State.tooLate (s : State) (after : Nat) : Bool := s.inService && decide (s.sys.t0 + after + 400 < s.now)

/-- INPUT at the partner: in service the inputs and the merge count for the period, unless it comes too late or a slot copy
is lacking, which makes a bridge period without writes. -/
def State.takeInput (s : State) (b : List Byte) : State :=
  let xs := exceptionsOf b
  if s.tooLate s.tCa then s
  else if s.computes && s.mergeLacks xs then s.bridgePeriod
  else
    let s := { s with tie := { s.tie with shadow := if s.computes then some (inputsOf b) else none } }
    let s := s.when s.computes fun s => s.applyMerge xs
    s.forL (entriesAt b (136 + 8 * byteAt b 133) (byteAt b 134)) fun e s => s.takeWrite e

/-- LVLW at the partner. -/
def State.takeLvlw (s : State) (n : Nat) (b : List Byte) : State :=
  if s.tooLate (s.crd R.LAYOUT_0_T_LE * 10) || s.tie.bridge then s
  else
    let s := s.forL (entriesAt b 0 (Nat.min n (b.length / 8))) fun e s => s.takeWrite e
    { s with tie := { s.tie with lvlw := true } }

def execInputMessage (lane : Fin 2) (message : List Byte) (s : State) : Out :=
  .next (s.tieMessageIn lane 1 message fun s =>
    s.when (s.isPartner && Msg.role message == Role.active) fun s => s.takeInput (Msg.body message))

def execLvlwMessage (lane : Fin 2) (message : List Byte) (s : State) : Out :=
  .next (s.tieMessageIn lane 2 message fun s =>
    s.when (s.isPartner && Msg.role message == Role.active) fun s => s.takeLvlw (Msg.arg message) (Msg.body message))

/-- A chunk of the image: consecutive words from the address in the first 8 bytes of its body. -/
def execImage (lane : Fin 2) (message : List Byte) (s : State) : Out :=
  .next (s.tieMessageIn lane 9 message fun s =>
    s.when (s.tie.joining && s.role == Role.relay) fun s =>
      let b := Msg.body message
      s.forN (b.length / 4 - 2) fun i s => s.takeImage (leAt b 0 8 + 4 * i, leAt b (8 + 4 * i) 4))

/-- The layout that the ACTIVE works with comes into force at its partner: the configuration is committed, and the period
number follows the time (R25, R290). -/
def State.followLayout (s : State) : State :=
  let s := s.commit
  let s := { s with sys := { s.sys with committed := true, quiet := false } }
  let p := s.now / s.periodNs
  { s with sys := { s.sys with period := p, t0 := p * s.periodNs } }

/-- At the first boundary after the image: the joining unit takes the ACTIVE's state (R316). -/
def execJoinImageComplete (state : Fin 8) (s : State) : Out :=
  .next (s.when (s.tie.joining && s.role == Role.relay && !s.tie.shadowing && (state.val == 4 || state.val == 5 || state.val == 6)) fun s =>
    let s := s.followLayout
    let s := (s.put R.TIE_STATUS_IMAGE_DONE true).goto state Cause.follow s.transPeriod
    { s with tie := { s.tie with shadowing := true, matched := false } })

end Sys2Proof.Machine
end

