-- ==== Sys2Proof/Machine/OdTable.lean ====
section
/-! DEFINITION. From register field to object (R524 to R528): the groups of every Glothal index, the numbering of their
fields, signed types and companions. -/

namespace Sys2Proof.Machine

/-- A run of registers of a group: first and last byte address for the first index and instance, and how far they move per
index, and per quotient and remainder of the instance. -/
structure OdSeg where
  first : Nat
  last : Nat
  perIndex : Nat
  perDiv : Nat
  perMod : Nat
  deriving DecidableEq, Repr

/-- A group of R526: its first index and how many indices have it, its number, its instances from `lo` for `n`, and the
divisor that splits an instance. -/
structure OdGroup where
  index : Nat
  count : Nat
  group : Nat
  lo : Nat
  n : Nat
  div : Nat
  segs : List OdSeg
  deriving DecidableEq, Repr

/-- Registers that an index and an instance do not move. -/
def odOne (index group : Nat) (runs : List (Nat × Nat)) : OdGroup :=
  { index := index, count := 1, group := group, lo := 0, n := 1, div := 1, segs := runs.map fun r => ⟨r.1, r.2, 0, 0, 0⟩ }

/-- A run per instance. -/
def odArr (index group n first last step : Nat) : OdGroup :=
  { index := index, count := 1, group := group, lo := 0, n := n, div := 1, segs := [⟨first, last, 0, step, 0⟩] }

def odGroups0 : List OdGroup := [
  odOne 0x2000 0 [(0x41100000, 0x41100058)],
  odOne 0x2000 1 [(0x41100100, 0x41100118)],
  odOne 0x2000 2 [(0x41100300, 0x41100328)],
  odArr 0x2000 3 8 0x41100340 0x41100344 8,
  odArr 0x2010 0 4 0x41100200 0x41100200 4,
  { index := 0x2100, count := 256, group := 0, lo := 0, n := 1, div := 1,
    segs := [⟨0x40010000, 0x40010014, 0x40, 0, 0⟩, ⟨0x400D0000, 0x400D0010, 0x20, 0, 0⟩] },
  { index := 0x2100, count := 256, group := 1, lo := 0, n := 32, div := 1, segs := [⟨0x40020000, 0x40020008, 0x180, 12, 0⟩] },
  { index := 0x2100, count := 256, group := 2, lo := 0, n := 16, div := 1, segs := [⟨0x400C0000, 0x400C000C, 0x100, 16, 0⟩] },
  odOne 0x2100 5 [(0x40000000, 0x4000002C)],
  { index := 0x2100, count := 1, group := 6, lo := 0, n := 8, div := 1,
    segs := [⟨0x40000040, 0x40000040, 0, 4, 0⟩, ⟨0x40000060, 0x40000060, 0, 4, 0⟩, ⟨0x40000080, 0x40000080, 0, 4, 0⟩,
             ⟨0x400000A0, 0x400000A0, 0, 4, 0⟩] },
  odArr 0x2100 7 256 0x400A0000 0x400A0020 0x40,
  odArr 0x2100 8 32 0x400B0000 0x400B000C 16,
  odOne 0x2200 0 [(0x400E8000, 0x400E8000)],
  odArr 0x2200 1 1024 0x400E0000 0x400E001C 0x20,
  odArr 0x2200 2 256 0x400E8100 0x400E8100 4,
  { index := 0x2300, count := 6, group := 0, lo := 0, n := 1, div := 1, segs := [⟨0x40101000, 0x40101050, 0x100, 0, 0⟩] },
  { index := 0x2300, count := 6, group := 1, lo := 0, n := 16, div := 1, segs := [⟨0x40101080, 0x40101080, 0x100, 4, 0⟩] },
  odOne 0x2306 0 [(0x40100000, 0x4010000C)],
  odArr 0x2306 1 6 0x40100010 0x40100010 4,
  { index := 0x2400, count := 48, group := 0, lo := 0, n := 1, div := 1, segs := [⟨0x40201000, 0x4020101C, 0x100, 0, 0⟩] },
  { index := 0x2400, count := 48, group := 1, lo := 0, n := 1, div := 1, segs := [⟨0x40201020, 0x40201038, 0x100, 0, 0⟩] },
  { index := 0x2400, count := 48, group := 2, lo := 0, n := 1, div := 1, segs := [⟨0x40204000, 0x40204008, 0x40, 0, 0⟩] },
  { index := 0x2400, count := 48, group := 3, lo := 0, n := 96, div := 1, segs := [⟨0x40208000, 0x4020801C, 0x1000, 0x20, 0⟩] },
  { index := 0x2400, count := 48, group := 4, lo := 0, n := 1024, div := 1, segs := [⟨0x40240000, 0x4024001C, 0, 0x20, 0⟩] }]

/-- The cell groups of 2500h, at KS210 addresses; group 17 is the cell window of the KC8400. -/
def odGroups1 : List OdGroup := [
  odOne 0x2500 0 [(0x0, 0xC), (0x10000, 0x10018), (0x10100, 0x10108)],
  odOne 0x2500 1 [(0x20000, 0x20058)],
  odOne 0x2500 2 [(0x30000, 0x30040)],
  odArr 0x2500 3 12 0x30100 0x3010C 16,
  odArr 0x2500 4 4 0x30200 0x30204 16,
  odOne 0x2500 5 [(0x40000, 0x4001C)],
  odOne 0x2500 6 [(0x50000, 0x50004), (0x50018, 0x50024)],
  odArr 0x2500 7 4 0x50008 0x50008 4,
  odOne 0x2500 8 [(0x60000, 0x60014)],
  odOne 0x2500 9 [(0x70000, 0x7000C)],
  odOne 0x2500 10 [(0x80000, 0x80038), (0x800A0, 0x800C0), (0x801B0, 0x801C4)],
  odArr 0x2500 11 16 0x80040 0x80040 4,
  odArr 0x2500 12 8 0x80080 0x80080 4,
  odArr 0x2500 13 16 0x80100 0x80100 4,
  odArr 0x2500 14 8 0x80140 0x80140 4,
  odArr 0x2500 15 4 0x80160 0x80160 4,
  odArr 0x2500 16 16 0x80170 0x80170 4,
  odOne 0x2500 17 [(0x40100F04, 0x40100F38)]]

def odGroups2 : List OdGroup := [
  odOne 0x2600 0 [(0x40500000, 0x40500028), (0x40500030, 0x40500038)],
  odArr 0x2600 1 2 0x40500100 0x40500154 0x80,
  odArr 0x2600 2 48 0x40501000 0x40501000 4,
  odOne 0x2700 0 [(0x41000000, 0x41000018)],
  odArr 0x2700 1 8 0x41000100 0x41000104 16,
  odOne 0x2700 2 [(0x41000180, 0x41000188), (0x41000280, 0x41000288), (0x41000800, 0x41000808)],
  odArr 0x2700 3 2 0x41000200 0x41000208 32,
  odArr 0x2700 4 8 0x41000400 0x4100043C 64,
  odOne 0x2800 0 [(0x40800030, 0x40800054), (0x40800060, 0x40800068)],
  { index := 0x2800, count := 1, group := 1, lo := 0, n := 4, div := 1,
    segs := [⟨0x40800000, 0x40800000, 0, 4, 0⟩, ⟨0x40800010, 0x40800010, 0, 4, 0⟩, ⟨0x40800020, 0x40800020, 0, 4, 0⟩] },
  odArr 0x2800 2 4 0x40800080 0x40800080 4,
  odArr 0x2800 3 8 0x40800100 0x40800100 4,
  odArr 0x2800 4 128 0x40800400 0x40800408 16,
  odOne 0x2900 0 [(0x40700000, 0x40700050)],
  odArr 0x2900 1 32 0x40700100 0x40700100 4,
  odArr 0x2900 2 8 0x40700200 0x4070020C 16,
  odOne 0x2A00 0 [(0x40900000, 0x4090000C), (0x40900080, 0x40900094), (0x40A00000, 0x40A00014)],
  odArr 0x2A00 1 64 0x40901000 0x4090100C 16,
  odArr 0x2A00 2 6 0x40902000 0x40902014 64,
  { index := 0x2A00, count := 1, group := 3, lo := 0, n := 96, div := 16, segs := [⟨0x40903000, 0x40903000, 0, 64, 4⟩] },
  { index := 0x2A00, count := 1, group := 4, lo := 1, n := 8, div := 1, segs := [⟨0x40904000, 0x40904000, 0, 4, 0⟩] },
  odArr 0x2A00 5 6 0x40A01000 0x40A01080 0x100,
  odArr 0x2A00 6 6 0x40A04000 0x40A04060 0x100,
  odOne 0x2B00 0 [(0x40B00020, 0x40B00060), (0x40B00100, 0x40B0010C)],
  odOne 0x2B00 1 [(0x40B00200, 0x40B00210)],
  { index := 0x2B00, count := 1, group := 2, lo := 0, n := 4, div := 1,
    segs := [⟨0x40B00000, 0x40B00000, 0, 4, 0⟩, ⟨0x40B00010, 0x40B00010, 0, 4, 0⟩] },
  odOne 0x2C00 0 [(0x40C00000, 0x40C00024)],
  odArr 0x2C00 1 16 0x40C00040 0x40C00040 4,
  odArr 0x2C00 2 6 0x40C00100 0x40C0010C 32,
  { index := 0x2C00, count := 1, group := 3, lo := 0, n := 48, div := 8, segs := [⟨0x40C00200, 0x40C00200, 0, 32, 4⟩] },
  odOne 0x2D00 0 [(0x40300000, 0x40300024), (0x40300030, 0x40300034)],
  odArr 0x2D00 1 2 0x40300028 0x40300028 4,
  odArr 0x2D00 2 16 0x40300100 0x40300100 4,
  odOne 0x2E00 0 [(0x40400000, 0x40400018)],
  odArr 0x2E00 1 4 0x40400020 0x40400024 8,
  odArr 0x2E00 2 256 0x40400400 0x40400400 4,
  odArr 0x2E00 3 1024 0x40404000 0x4040400C 0x100,
  { index := 0x2E00, count := 1, group := 4, lo := 0, n := 16384, div := 16, segs := [⟨0x40404010, 0x40404010, 0, 0x100, 4⟩] },
  { index := 0x2E00, count := 1, group := 5, lo := 0, n := 32768, div := 32, segs := [⟨0x40404080, 0x40404080, 0, 0x100, 4⟩] },
  odOne 0x2F00 0 [(0x40600000, 0x40600000), (0x40F00000, 0x40F00020)],
  odArr 0x2F00 1 8 0x40600100 0x4060010C 16,
  odArr 0x2F00 2 24 0x40600400 0x40600408 16,
  odArr 0x2F00 3 4 0x40600800 0x40600810 32,
  odArr 0x2F00 4 64 0x40F01000 0x40F0100C 16]

def odGroups : List OdGroup := odGroups0 ++ odGroups1 ++ odGroups2

/-- A cell group of 2500h. -/
def cellGroup (index group : Nat) : Bool := index == 0x2500 && decide (group < 17)

/-- The group of an index. -/
def odGroup (index group : Nat) : Option OdGroup :=
  odGroups.find? fun g => decide (g.index ≤ index) && decide (index < g.index + g.count) && g.group == group

/-- A special group of words: the live values and the coefficients of a context (R526). -/
inductive OdWords where
  | live
  | coef
  deriving DecidableEq, Repr

def odWords (index group : Nat) : Option OdWords :=
  if 0x2100 ≤ index ∧ index < 0x2200 then
    if group = 3 then some .live else if group = 4 then some .coef else none
  else none

/-- An index that the Glothal area implements. -/
def odIndex (index : Nat) : Bool := odGroups.any fun g => decide (g.index ≤ index) && decide (index < g.index + g.count)

/-- SELECT names a group of the index and an instance in its range (R524). -/
def selectOk (index select : Nat) : Bool :=
  let inst := select % 65536
  match odWords index (select / 65536) with
  | some .live => decide (inst < 104)
  | some .coef => decide (inst < 1392) || (decide (2048 ≤ inst) && decide (inst < 3440))
  | none =>
    match odGroup index (select / 65536) with
    | some g => decide (g.lo ≤ inst) && decide (inst < g.lo + g.n)
    | none => false

/-- The word addresses of a segment. -/
def OdSeg.addrs (x : OdSeg) (g : OdGroup) (index inst : Nat) : List Nat :=
  let base := x.first + x.perIndex * (index - g.index) + x.perDiv * (inst / g.div) + x.perMod * (inst % g.div)
  (upto ((x.last - x.first) / 4 + 1)).map fun k => base + 4 * k

/-- One field of the dictionary: whether it is a KS210 field, its register address and row. -/
structure OdField where
  cell : Bool
  addr : Nat
  row : FieldRow
  deriving DecidableEq, Repr

/-- The place of a word in a segment: offset of the index, instance, and number of the word. -/
def OdSeg.place (x : OdSeg) (g : OdGroup) (a : Nat) : Option (Nat × Nat × Nat) :=
  if a < x.first then none
  else
    let part := fun (d step : Nat) => if step = 0 then (0, d) else (d / step, d % step)
    let (i, d) := part (a - x.first) x.perIndex
    let (q, d) := part d x.perDiv
    let (r, d) := part d x.perMod
    let inst := q * g.div + r
    if i < g.count ∧ g.lo ≤ inst ∧ inst < g.lo + g.n ∧ d ≤ x.last - x.first then some (i, inst, d / 4) else none

/-- The place of a register word in the dictionary as one number that rises with index, group, instance and sub-index. -/
def odPlace (a : Nat) : Option Nat :=
  (odGroups.filter fun g => !cellGroup g.index g.group).findSome? fun g =>
    ((List.range g.segs.length).zip g.segs).findSome? fun e =>
      (e.2.place g a).map fun (p : Nat × Nat × Nat) =>
        (((g.index + p.1) * 16 + g.group) * 2 ^ 16 + p.2.1) * 2 ^ 16 + e.1 * 2 ^ 10 + p.2.2

/-- The fields of a group and instance, in the order of R525. -/
def odFields (index select : Nat) : List OdField :=
  match odGroup index (select / 65536) with
  | none => []
  | some g =>
    let cell := cellGroup index g.group
    let addrs := (g.segs.map fun x => x.addrs g index (select % 65536)).flatten
    (addrs.map fun a =>
      (((if cell then cellRow a else kcRow a).map RegRow.fields).getD []).map fun f => OdField.mk cell a f).flatten

/-- The bytes of a field's type (R527). -/
def typeBytes (width : Nat) : Nat := if width ≤ 8 then 1 else if width ≤ 16 then 2 else 4

/-- A field that its description makes signed (R527): its register is in a run of addresses. -/
def signedField (f : OdField) : Bool :=
  let a := f.addr
  if f.cell then
    a == 0x20044 || (a == 0x30014 && f.row.lo == 16) || a == 0x30018 ||
      (decide (0x30100 ≤ a) && decide (a < 0x301C0) && a % 16 == 8 && f.row.lo == 0) || (a == 0x80004 && f.row.lo == 0) ||
      (a == 0x8000C && f.row.lo == 0) || (a == 0x80028 && f.row.lo == 0)
  else
    (decide (0x40600100 ≤ a) && decide (a < 0x40600180) && a % 16 == 4 && f.row.lo == 0) ||
      (decide (0x40600400 ≤ a) && decide (a < 0x40600580) && a % 16 == 4) ||
      (decide (0x40600800 ≤ a) && decide (a < 0x40600880) && a % 32 == 12) || a == 0x40500020 || a == 0x40500024 ||
      (a == 0x41000010 && f.row.lo == 16) || (decide (0x40C00040 ≤ a) && decide (a < 0x40C00080))

/-- The value of a field as its object shows it (R529): the bytes of its type, sign-extended for a signed one. -/
def OdField.bytes (f : OdField) (word : Nat) : List Byte :=
  let v := bitsOf word f.row.lo f.row.width
  let n := typeBytes f.row.width
  bytesLE n (if signedField f then ofSigned (8 * n) (toSigned f.row.width v) else v)

/-- The fields X of a register, by lowest bit, for whose write a WO field waits as a staged companion (R530). -/
def companionOf (f : OdField) : List Nat :=
  let a := f.addr
  let lo := f.row.lo
  if f.row.acc ≠ .wo then []
  else if f.cell then
    if a = 0x20038 ∧ lo = 16 then [0] else if a = 0x30034 ∧ lo = 16 then [4] else []
  else if a = 0x41100004 ∧ lo = 16 then [0]
  else if a = 0x40000020 ∧ (lo = 1 ∨ lo = 2) then [0]
  else if a = 0x4000002C ∧ lo = 0 then [8]
  else if 0x40204000 ≤ a ∧ a < 0x40204C00 ∧ (lo = 3 ∨ lo = 4) then [2]
  else if a = 0x40800034 ∧ lo = 0 then [7]
  else if a = 0x40800034 ∧ lo = 16 then [7, 9]
  else if a = 0x40900008 ∧ lo = 16 then [0]
  else if a = 0x40B00210 ∧ lo = 2 then [1]
  else if a = 0x40B00210 ∧ lo = 4 then [0]
  else if a = 0x40B00210 ∧ lo = 16 then [0, 1]
  else if a = 0x40300004 ∧ lo = 16 then [0, 1, 2]
  else []

/-- A field that the KC8400 writes itself (R535): no object writes it. -/
def ownField (a lo : Nat) : Bool :=
  a == 0x10000 || (a == 0x10004 && (lo == 0 || lo == 13)) || a == 0x10008 || (a == 0x10100 && lo == 16) || a == 0x20010 ||
    a == 0x20014 || a == 0x20018 || (decide (0x40000 ≤ a) && decide (a < 0x40020))

end Sys2Proof.Machine
end

