-- ==== Sys2Proof/Machine/OdAccess.lean ====
section
/-! DEFINITION. One object access of a session (R521 to R539): communication objects, SELECT and CELL, fields of the
KC8400 and of the cells, the image domain, and the way to a member of an accord. -/

namespace Sys2Proof.Machine

/-- What an access comes to at once: an answer, or a wait. -/
inductive Done where
  | ans (abort : Nat) (value : List Byte) (signed : Bool)
  | wait (w : Wait)
  deriving DecidableEq, Repr

/-- An access that ends with an abort code. -/
def fails (s : State) (code : Nat) : State × Done := (s, .ans code [] false)

/-- A read that ends with its value. -/
def reads (s : State) (v : List Byte) : State × Done := (s, .ans 0 v false)

/-- A write that has been done. -/
def wrote (s : State) : State × Done := (s, .ans 0 [] false)

/-! ### Sessions (R533, R544) -/

def Session.fresh (c : Client) (id ver net : Nat) : Session :=
  { client := c, id := id, ver := ver, net := net, select := [], cell := none, staged := [], last := none, spSeq := none }

def State.session (s : State) (c : Client) : Option Session := s.od.sessions.find? fun x => x.client == c

/-- A session that stays open takes new contents. -/
def State.putSession (s : State) (x : Session) : State :=
  { s with od := { s.od with sessions := s.od.sessions.map fun y => if y.client == x.client then x else y } }

def State.closeSession (s : State) (c : Client) : State := s.setSessions (s.od.sessions.filter fun x => x.client != c)

/-- SESSION of the next session: 1 to FFFEh, none that is open. -/
def State.nextId (s : State) : Nat :=
  (((upto 32).map fun i => (s.od.lastId + i) % 0xFFFE + 1).find? fun n => s.od.sessions.all fun x => x.id != n).getD 1

/-- A session opens. -/
def State.addSession (s : State) (c : Client) (ver net : Nat) : State :=
  let id := s.nextId
  ({ s with od := { s.od with lastId := id } }).setSessions (s.od.sessions ++ [Session.fresh c id ver net])

/-- SELECT of an index (R524). -/
def Session.sel (x : Session) (index : Nat) : Nat := mapGet (fun _ => 0) x.select index

/-- The SELECT that an access uses: its own where it is not 0 (R545). -/
def Session.selFor (x : Session) (a : ObjAccess) : Nat := if a.select ≠ 0 then a.select else x.sel a.index

/-! ### Values (R527, R530) -/

/-- The value that a write brings for a field of some bits, signed or not: a CAN client gives the bytes of the type, a UDP
entry 8 bytes extended. -/
def ObjAccess.value (a : ObjAccess) (width : Nat) (signed : Bool) : Except Nat Nat :=
  let n := typeBytes width
  if (a.len.getD n) ≠ n then .error Abort.width
  else if signed then
    let bits := match a.len with
      | some k => 8 * k
      | none => 64
    let v := toSigned bits a.data
    if -(2 ^ (width - 1) : Int) ≤ v ∧ v < (2 ^ (width - 1) : Int) then .ok (ofSigned width v) else .error Abort.range
  else if a.data < 2 ^ width then .ok a.data else .error Abort.range

/-- The value for an object of some whole bytes. -/
def ObjAccess.bytes (a : ObjAccess) (n : Nat) : Except Nat Nat :=
  if (a.len.getD n) ≠ n then .error Abort.width
  else if a.data < 2 ^ (8 * n) then .ok a.data else .error Abort.range

/-! ### Communication objects (R522, R523) -/

/-- 1001h: bit 0 at Degrade or above, bit 7 at Block or above. -/
def State.errorRegister (s : State) : Nat :=
  let w := s.rd R.FLT_SUMMARY_WORST
  (decide (2 ≤ w)).toNat + 128 * (decide (3 ≤ w)).toNat

/-- The state code of heartbeats and the boot-up message. -/
def State.nmtState (s : State) : Nat :=
  if s.st = St.locked then 4 else if s.inService then 5 else 0x7F

/-- A number below 100 in decimal digits. -/
def decimal (n : Nat) : List Byte :=
  if n < 10 then [BitVec.ofNat 8 (48 + n)] else [BitVec.ofNat 8 (48 + n / 10 % 10), BitVec.ofNat 8 (48 + n % 10)]

def textBytes (t : List Nat) : List Byte := t.map (BitVec.ofNat 8)

/-- The communication indices. -/
def commIndex (i : Nat) : Bool :=
  [0x1000, 0x1001, 0x1008, 0x1009, 0x100A, 0x1010, 0x1011, 0x1017, 0x1018].contains i

/-- What a communication object reads as. -/
def State.commRead (s : State) (index sub : Nat) : Option (List Byte) :=
  match index, sub with
  | 0x1000, 0 => some (bytesLE 4 0)
  | 0x1001, 0 => some (bytesLE 1 s.errorRegister)
  | 0x1008, 0 => some (textBytes [0x4B, 0x43, 0x38, 0x34, 0x30, 0x30])
  | 0x1009, 0 => some (textBytes [0x42, 0x30])
  | 0x100A, 0 => some (textBytes [0x53, 0x56, 0x4E] ++ decimal (mapGet (fun _ => 0) s.mem.svn 0))
  | 0x1010, 1 | 0x1011, 1 => some (bytesLE 4 s.writable.toNat)
  | 0x1017, 0 => some (bytesLE 2 (s.rd R.OD_CAN_HB_MS))
  | 0x1018, 0 => some (bytesLE 1 4)
  | 0x1018, 1 => some (bytesLE 4 0x7A3)
  | 0x1018, 2 => some (bytesLE 4 0x8400)
  | 0x1018, 3 => some (bytesLE 4 0x20000)
  | 0x1018, 4 => some (bytesLE 4 (Config.unitUid.toNat % 2 ^ 32))
  | _, _ => none

/-- "save" and "load", little-endian as numbers. -/
def saveCode : Nat := 0x65766173
def loadCode : Nat := 0x64616F6C

/-- A write of 1010h:01 or 1011h:01 (R538, R539). -/
def State.storeWrite (s : State) (a : ObjAccess) : State × Done :=
  match a.bytes 4 with
  | .error e => fails s e
  | .ok v =>
    if v ≠ (if a.index = 0x1010 then saveCode else loadCode) then fails s Abort.range
    else if !s.writable then fails s Abort.state
    else if a.index = 0x1010 then (s, .wait .store)
    else wrote ({ s with od := { s.od with loadPend := true } }.put R.OD_STORE_LOAD_PEND true)

/-- A write of a field of a register of this unit through the object service, with the fields that go with it. -/
def State.mergeWrite (s : State) (addr mask value : Nat) : State × Nat :=
  match kcRow addr with
  | some r => s.regWrite 1 addr (r.masked (s.peek addr) mask value)
  | none => (s, Abort.discard)

/-- The unit belongs to an accord and is not its top lead, which alone serves accesses that change a member (R335). -/
def State.isMember (s : State) (c : Client) : Bool :=
  s.on R.ACD_CFG_EN && !s.on R.ACD_STATUS_TOP &&
    match c with
    | .routed _ => false
    | _ => true

def State.comm (s : State) (c : Client) (a : ObjAccess) : State × Done :=
  match s.commRead a.index a.sub with
  | none => fails s (if commIndex a.index then Abort.noSub else Abort.noIndex)
  | some v =>
    if !a.write then reads s v
    else if a.index = 0x1010 ∨ a.index = 0x1011 then s.storeWrite a
    else if a.index = 0x1017 then
      match a.bytes 2 with
      | .error e => fails s e
      | .ok v =>
        if s.isMember c || s.st == St.locked then fails s Abort.state
        else let (t, e) := s.mergeWrite R.OD_CAN_HB_MS.addr (0xFFFF * 2 ^ 16) (v * 2 ^ 16); (t, .ans e [] false)
    else fails s Abort.readOnly

/-! ### The way to a member (R335, R336, R550) -/

/-- The indices of an extended address from the outermost one to the KC index. -/
def extIndices (ext : Nat) : List Nat :=
  ((upto (bitsOf ext 47 4)).map fun i => bitsOf ext (51 + 3 * i) 3).reverse ++ [bitsOf ext 13 3]

/-- An extended address with other indices, from the outermost one to the KC index. -/
def withIndices (ext : Nat) (l : List Nat) : Nat :=
  let up := (l.dropLast).reverse
  setBits (ext % 2 ^ 47) 13 3 (l.getLast?.getD 0) + up.length * 2 ^ 47 +
    sumOf ((upto up.length).map fun i => up.getD i 0 * 2 ^ (51 + 3 * i))

/-- An extended address keeps R224: at most 9 compound and 4 accord levels, and 0 above those in use. -/
def extLegal (ext : Nat) : Bool :=
  let d := bitsOf ext 16 4
  let n := bitsOf ext 47 4
  decide (d ≤ 9) && decide (n ≤ 4) && bitsOf ext (20 + 3 * d) (27 - 3 * d) == 0 && bitsOf ext (51 + 3 * n) (13 - 3 * n) == 0

/-- Where a descent leads: this unit, or a member at a level, with the number of root steps and the indices left for it. -/
inductive Way where
  | here
  | member (level m root : Nat) (rest : List Nat)
  deriving DecidableEq, Repr

/-- The descent from level `n - 1` down: `root` steps by ROOT_SEL, then the indices. -/
def State.descend (s : State) : Nat → Nat → List Nat → Except Nat Way
  | _, 0, [] => .ok .here
  | 0, _, _ => .error Abort.range
  | n + 1, root + 1, rest =>
    let m := s.rd (R.LVLE_W0_ROOT_SEL n)
    if s.rd (R.LVLE_W0_NMEM n) < m then .error Abort.range
    else if m = s.rd (R.LVLE_W0_MIDX n) then s.descend n root rest
    else .ok (.member n m root (if root = 0 then m :: rest else rest))
  | n + 1, 0, m :: rest =>
    if s.rd (R.LVLE_W0_NMEM n) < m ∨ n < rest.length then .error Abort.range
    else if m = s.rd (R.LVLE_W0_MIDX n) then s.descend n 0 rest
    else .ok (.member n m 0 (m :: rest))

/-- The level below which a request descends: the top of the table, or where an ODREQ arrived. -/
def State.descent (s : State) (arrived : Option Nat) (ixs : List Nat) : Except Nat Way :=
  let root := s.rd R.ACD_ROOT_DEPTH
  match arrived with
  | none => s.descend (s.rd R.ACD_CFG_LVLS) root ixs
  | some l => if root = 0 then s.descend (l + 1) 0 ixs else s.descend l root ixs

/-- The indices of ACD_VIEW. -/
def State.viewIndices (s : State) : List Nat :=
  ((upto (s.rd R.ACD_VIEW_VDEPTH)).map fun i => bitsOf (s.rd R.ACD_VIEW_AIDX) (3 * i) 3).reverse ++ [s.rd R.ACD_VIEW_MIDX]

/-- Every cell of the unit as CELL. -/
def everyCell : Nat := 2 ^ 64 - 1

/-- The unit routes accesses: the top lead for its own sessions, a member for what an ODREQ brings. -/
def State.routes (s : State) (arrived : Option Nat) : Bool :=
  s.on R.ACD_CFG_EN && s.controls && (s.on R.ACD_STATUS_TOP || arrived.isSome)

/-- The way of an access: by CELL for a cell, else by ACD_VIEW for 2100h to 2F00h. -/
def State.wayOf (s : State) (x : Session) (arrived : Option Nat) (a : ObjAccess) : Except Nat Way :=
  let byView := if s.on R.ACD_VIEW_LOCAL then .ok .here else
    match arrived with
    | none => s.descent none s.viewIndices
    | some l => s.descend l (s.rd R.ACD_ROOT_DEPTH) s.viewIndices
  if !s.routes arrived then .ok .here
  else if a.index < 0x2100 ∨ 0x2F00 < a.index ∨ a.sub < 2 then .ok .here
  else if a.index ≠ 0x2500 then byView
  else
    let cell := if a.sub = 0x40 ∧ a.write then some a.data else x.cell
    match cell with
    | none => byView
    | some c => if c = everyCell then byView else if extLegal c then s.descent arrived (extIndices c) else .error Abort.range

/-! ### CELL (R534) -/

/-- The address of a cell of this unit that a CELL value selects. -/
def State.localExt (s : State) (c : Nat) : Nat := setBits (c % 2 ^ 47) 13 3 s.kcx

/-- A CELL value selects an enumerated position or member of this unit, or every cell. -/
def State.cellKnown (s : State) (c : Nat) : Bool :=
  let e := s.localExt c
  let p := bitsOf e 7 6
  let pos := bitsOf e 0 7
  c == everyCell ||
    (extLegal c && (s.on R.ACD_CFG_EN || decide (c < 2 ^ 47) && bitsOf c 13 3 == 0) && decide (p < 48) && decide (pos < 96) &&
      if pathOf e = 0 then s.rd (R.EXP_W3_VERDICT p pos) != 0
      else ((s.memberEntry (e % 2 ^ 16) (pathOf e)).map fun n => s.rd (R.MEMB_W3_VERDICT n) != 0).getD false)

def State.cellObject (s : State) (x : Session) (a : ObjAccess) : State × Done :=
  if !a.write then reads s (bytesLE 8 (x.cell.getD 0))
  else
    match a.bytes 8 with
    | .error e => fails s e
    | .ok c => if s.cellKnown c then wrote (s.putSession { x with cell := some c }) else fails s Abort.range

/-! ### The image domain (R514, R547) -/

def imageBytes : Nat := 5632 * 256

def State.domain (s : State) (a : ObjAccess) : State × Done :=
  match a.dom with
  | none => fails s Abort.width
  | some (off, len, data) =>
    let base := s.rd R.IMG_BASE_BASE
    if imageBytes < off + len ∨ (a.len.isNone ∧ (len = 0 ∨ 1024 < len)) then fails s Abort.range
    else if a.write ∧ !s.writable then fails s Abort.state
    else if !s.sramFits (base, imageBytes) then fails s Abort.busError
    else if a.write then wrote (s.storeBytes (base + off) (fitTo len data))
    else reads s (s.loadBytes (base + off) len)

/-! ### Words of a context (R82, R90) -/

def State.wordsAccess (s : State) (x : Session) (w : OdWords) (i inst : Nat) (a : ObjAccess) : State × Done :=
  match w with
  | .live =>
    if a.write then fails s Abort.readOnly
    else let (v, t) := s.readWhole (0x40040000 + 0x200 * i + 4 * inst); reads t (bytesLE 4 v)
  | .coef =>
    let page := if inst < 2048 then 1 - s.page i else s.page i
    let k := inst % 2048
    if !a.write then reads s (bytesLE 4 (s.coefAt i page k))
    else if 2048 ≤ inst then fails s Abort.readOnly
    else
      match a.value 32 false with
      | .error e => fails s e
      | .ok v =>
        if s.isPartner || s.isMember x.client || s.st == St.locked then fails s Abort.state
        else
          let (t, e) := s.coefWrite i page k v
          (if e = 0 then t.mirror (coefAddr i page k) v else t, .ans e [] false)

/-! ### Fields -/

/-- The mask and value that the staged companions of a session add to a write of a field (R530). -/
def Session.companions (x : Session) (fs : List OdField) (cell : Nat) (f : OdField) : List Stage :=
  x.staged.filter fun g => g.cell == cell && g.addr == f.addr &&
    fs.any fun (h : OdField) => h.addr == g.addr && h.row.lo == g.lo && (companionOf h).contains f.row.lo

def stageMask (l : List Stage) : Nat := l.foldl (fun m g => m ||| (2 ^ g.width - 1) * 2 ^ g.lo) 0
def stageValue (l : List Stage) : Nat := l.foldl (fun m g => m ||| g.value * 2 ^ g.lo) 0

/-- A companion is staged in place of an earlier one of its field. -/
def Session.stage (x : Session) (g : Stage) : Session :=
  { x with staged := (x.staged.filter fun h => h.cell != g.cell || h.addr != g.addr || h.lo != g.lo) ++ [g] }

def FieldRow.mask (f : FieldRow) : Nat := (2 ^ f.width - 1) * 2 ^ f.lo

/-- A field of a register of this unit. -/
def State.ownAccess (s : State) (x : Session) (fs : List OdField) (f : OdField) (a : ObjAccess) : State × Done :=
  if !a.write then
    if f.row.acc = .wo then fails s Abort.writeOnly
    else let (v, t) := s.readWhole f.addr; (t, .ans 0 (f.bytes v) (signedField f))
  else if f.row.acc = .ro ∨ f.row.acc = .rws ∨ f.addr / 0x100000 = 0x410 then fails s Abort.readOnly
  else
    match a.value f.row.width (signedField f) with
    | .error e => fails s e
    | .ok v =>
      if (s.isMember x.client && mirrored f.addr) || s.st == St.locked then fails s Abort.state
      else if companionOf f ≠ [] then wrote (s.putSession (x.stage ⟨0, f.addr, f.row.lo, f.row.width, v⟩))
      else
        let with' := x.companions fs 0 f
        let s := s.putSession { x with staged := x.staged.filter fun g => !with'.contains g }
        let (t, e) := s.mergeWrite f.addr (f.row.mask ||| stageMask with') (v * 2 ^ f.row.lo ||| stageValue with')
        (t, .ans e [] false)

/-- The ports whose cells a write to every cell reaches. -/
def State.servedPorts (s : State) : List Nat := (upto 48).filter s.strandInService

/-- The entry that a write of a field of some cells leaves in the replay list (R536). -/
def replayOf (scope : Nat) (f : OdField) (v : Nat) : Replay :=
  { scope := scope, addr := f.addr, mask := f.row.mask, value := v * 2 ^ f.row.lo }

/-- A write of such a field needs a place. -/
def enters (f : OdField) : Bool := f.row.acc == .rw || f.row.acc == .rwl

/-- A transaction of a port for an access: asked for, or refused as MB_CTRL.GO refuses it. -/
def State.askAccess (s : State) (p : Nat) (o : Own) : State × Done :=
  match s.goRefused p o.req with
  | some _ => fails s Abort.discard
  | none => (s.ask p [o], .wait (.mail 1 0 0))

/-- A field of a KS210 (R534 to R536): `c` is CELL. -/
def State.cellAccess (s : State) (x : Session) (job c : Nat) (fs : List OdField) (f : OdField) (a : ObjAccess) : State × Done :=
  let e := s.localExt c
  let p := bitsOf e 7 6
  let pos := bitsOf e 0 7
  if !a.write then
    if c = everyCell then fails s Abort.discard
    else if f.row.acc = .wo then fails s Abort.writeOnly
    else s.askAccess p (own (.object job 0 f.addr 0 0) (reqTo 1 pos (pathOf e) f.addr 0))
  else if f.row.acc = .ro ∨ f.row.acc = .rws then fails s Abort.readOnly
  else if ownField f.addr f.row.lo then fails s Abort.own
  else
    match a.value f.row.width (signedField f) with
    | .error e => fails s e
    | .ok v =>
      let scope := if c = everyCell then allCells else e
      let full := enters f && decide (4096 < (replayPut (replayOf scope f v) s.od.replay).length)
      if s.isMember x.client || s.st == St.locked then fails s Abort.state
      else if companionOf f ≠ [] then wrote (s.putSession (x.stage ⟨c, f.addr, f.row.lo, f.row.width, v⟩))
      else if full then fails (s.put R.OD_REPLAY_FULL_REF true) Abort.discard
      else
        let with' := x.companions fs c f
        let s := s.putSession { x with staged := x.staged.filter fun g => !with'.contains g }
        let mask := f.row.mask ||| stageMask with'
        let value := v * 2 ^ f.row.lo ||| stageValue with'
        if c ≠ everyCell then s.askAccess p (own (.object job 1 f.addr mask value) (reqTo 1 pos (pathOf e) f.addr 0))
        else
          let ps := s.servedPorts
          (s.forL ps fun p s => s.ask p [own (.object job 3 f.addr mask value) (reqAll 5 mask f.addr value)],
            .wait (.mail ps.length 0 0))

/-- A cell access of which every answer has come: the field read, or the entry that an accepted write leaves, and the poll
that a FULL step starts (R536, R537). -/
def State.cellEnded (s : State) (x : Session) (a : ObjAccess) (abort word : Nat) : State × Done :=
  match (odFields a.index (x.selFor a))[a.sub - 2]? with
  | none => fails s Abort.noSub
  | some f =>
    if abort ≠ 0 then fails s abort
    else if !a.write then (s, .ans 0 (f.bytes word) (signedField f))
    else
      match x.cell, a.value f.row.width (signedField f) with
      | some c, .ok v =>
        let all := c == everyCell
        let scope := if all then allCells else s.localExt c
        let s := s.when (enters f) fun s => s.setReplay (replayPut (replayOf scope f v) s.od.replay)
        let cells := if all then (s.servedPorts.map s.okCells).flatten else [scope]
        wrote (s.when (f.addr == K.CAL_CMD_STEP.addr && f.row.lo == K.CAL_CMD_STEP.lo && v == 2) fun s =>
          { s with od := { s.od with calDue := (s.od.calDue.filter fun i => !cells.contains i) ++ cells } })
      | _, _ => wrote s

/-- A field of the cell window: CELL_SEL is written from CELL first (R534). -/
def State.windowAccess (s : State) (x : Session) (c : Nat) (fs : List OdField) (f : OdField) (a : ObjAccess) : State × Done :=
  if c = everyCell then fails s Abort.discard
  else (s.wr R.CELL_SEL_HANDLE (s.localExt c % 2 ^ 16)).ownAccess x fs f a

/-- A sub-index from 02h on, under a SELECT that is legal. -/
def State.fieldAccess (s : State) (x : Session) (job : Nat) (a : ObjAccess) : State × Done :=
  let sel := x.selFor a
  match odWords a.index (sel / 65536) with
  | some w => if a.sub = 2 then s.wordsAccess x w (a.index - 0x2100) (sel % 65536) a else fails s Abort.noSub
  | none =>
    let fs := odFields a.index sel
    match fs[a.sub - 2]? with
    | none => fails s Abort.noSub
    | some f =>
      let e := (f.addr - 0x40240000) / 0x20
      if 0x2400 ≤ a.index ∧ a.index < 0x2430 ∧ sel / 65536 = 4 ∧ s.on (R.MEMB_W2_EXPECT e) ∧
          bitsOf (s.rd (R.MEMB_W6_HEAD e)) 7 6 ≠ a.index - 0x2400 then fails s Abort.noSub
      else if a.index = 0x2500 then
        match x.cell with
        | none => fails s Abort.noSub
        | some c => if f.cell then s.cellAccess x job c fs f a else s.windowAccess x c fs f a
      else s.ownAccess x fs f a

/-- The highest sub-index in use under a SELECT (R524). -/
def highestSub (index sel : Nat) : Nat :=
  if index = 0x2500 ∨ index = 0x2C00 then 0x40
  else if (odWords index (sel / 65536)).isSome then 2
  else 1 + (odFields index sel).length

/-- A Glothal object of this unit. -/
def State.glothal (s : State) (x : Session) (job : Nat) (a : ObjAccess) : State × Done :=
  if a.index = 0x2500 ∧ a.sub = 0x40 then s.cellObject x a
  else if a.index = 0x2500 ∧ x.cell.isNone then fails s Abort.noSub
  else if a.index = 0x2C00 ∧ a.sub = 0x40 then s.domain a
  else if a.sub = 1 then
    if !a.write then reads s (bytesLE 4 (x.sel a.index))
    else
      match a.bytes 4 with
      | .error e => fails s e
      | .ok v =>
        if selectOk a.index v then wrote (s.putSession { x with select := mapSet (fun _ => 0) x.select a.index v })
        else fails s Abort.range
  else if !selectOk a.index (x.selFor a) then fails s Abort.range
  else if a.sub = 0 then
    if a.write then fails s Abort.readOnly else reads s (bytesLE 1 (highestSub a.index (x.selFor a)))
  else if 0x40 ≤ a.sub then fails s Abort.noSub
  else s.fieldAccess x job a

/-- One access of a session, on this unit. After a failed secure start the boot ROM holds 1018h and 2000h alone (R47). -/
def State.access (s : State) (x : Session) (job : Nat) (a : ObjAccess) : State × Done :=
  if s.on R.ST_SUMMARY_SECURE_FAIL && a.index != 0x1018 && a.index != 0x2000 then fails s Abort.noIndex
  else if a.index < 0x2000 then s.comm x.client a
  else if !odIndex a.index then fails s Abort.noIndex
  else s.glothal x job a

end Sys2Proof.Machine
end

