-- ==== Sys2Proof/Machine/OdJobs.lean ====
section
/-! DEFINITION. Requests in service (R533, R545, R546, R550): their accesses in order, what they wait for, and the answers
that leave. -/

namespace Sys2Proof.Machine

/-! ### Datagrams of the service (R542, R545, R547) -/

/-- Bytes 0 to 15 + L of a datagram. -/
def dgHead (ver op session count seq : Nat) (body : List Byte) : List Byte :=
  bytesLE 2 0x4B47 ++ [BitVec.ofNat 8 ver, BitVec.ofNat 8 op] ++ bytesLE 2 session ++ bytesLE 2 count ++ bytesLE 4 seq ++
    bytesLE 2 body.length ++ bytesLE 2 0 ++ body

/-- A whole datagram, with its CRC. -/
def dgram (ver op session count seq : Nat) (body : List Byte) : List Byte :=
  let h := dgHead ver op session count seq body
  h ++ bytesLE 4 (crc32c h)

/-- A value in the 8 bytes of DATA, extended. -/
def dataBytes (v : List Byte) (signed : Bool) : List Byte :=
  let fill := if signed && (v.getLast?.map fun (b : Byte) => b.msb).getD false then 255#8 else 0#8
  (v ++ List.replicate (8 - v.length) fill).take 8

/-- A response entry. -/
def Answer.entry (a : Answer) : List Byte :=
  bytesLE 2 a.index ++ bytesLE 1 a.sub ++ [0#8] ++ bytesLE 4 a.abort ++ dataBytes a.value a.signed

/-- The single entry that answers a request that is not executed. -/
def refusedEntry : Answer := { index := 0, sub := 0, abort := Abort.discard, value := [], signed := false }

/-- The body of a response: entries, or for a DREAD or DWRITE the entry with its range and data. -/
def responseBody (op : Nat) (dom : Option (Nat × Nat)) (l : List Answer) : List Byte :=
  match dom, l with
  | some (off, len), [a] =>
    ({ a with value := [] } : Answer).entry ++ bytesLE 4 off ++ bytesLE 4 len ++ (if op = 0x13 then pad8 a.value else [])
  | _, l => (l.map Answer.entry).flatten

/-! ### Jobs -/

def State.putJob (s : State) (j : Job) : State :=
  { s with od := { s.od with jobs := s.od.jobs.map fun k => if k.id == j.id then j else k } }

def State.dropJob (s : State) (id : Nat) : State :=
  { s with od := { s.od with jobs := s.od.jobs.filter fun k => k.id != id, answers := s.od.answers.filter fun a => a.1 != id } }

/-- A request enters service. -/
def State.addJob (s : State) (c : Client) (form : Form) (range : Option (Nat × Nat)) (accesses : List ObjAccess)
    (done : List Answer) : State :=
  let id := s.od.lastJob + 1
  { s with od := { s.od with lastJob := id, jobs := s.od.jobs ++
      [{ id := id, client := c, form := form, range := range, rest := accesses, done := done, failed := false, wait := .ready }] } }

/-- The level at which an ODREQ came. -/
def Job.arrived (j : Job) : Option Nat :=
  match j.form with
  | .routed _ _ l _ _ => some l
  | _ => none

/-- An access has ended with an answer. -/
def Job.ended (j : Job) (a : ObjAccess) (abort : Nat) (value : List Byte) (signed : Bool) : Job :=
  { j with rest := j.rest.tail, wait := .ready, failed := j.failed || abort != 0,
           done := j.done ++ [{ index := a.index, sub := a.sub, abort := abort, value := value, signed := signed }] }

/-- A UDP response leaves, and is kept for a request that comes again (R546). -/
def State.respond (s : State) (x : Session) (net ip port seq : Nat) (bytes : List Byte) : State :=
  let keep := (x.last.map fun l => l.1 == seq).getD false
  (s.when keep fun s => s.putSession { x with last := some (seq, some bytes) }).send (.udp net ip port bytes)

/-- A request has ended: its answer leaves, and BYE closes the session. -/
def State.answerOut (s : State) (x : Session) (j : Job) : State :=
  let s := s.dropJob j.id
  match j.form with
  | .single | .usdo => s.forL j.done fun a s => s.send (.object j.client a.index a.sub a.value a.abort)
  | .udp op seq net ip port =>
    let s := s.respond x net ip port seq (dgram x.ver (op + 0x80) x.id j.done.length seq (responseBody op j.range j.done))
    s.when (op == 2) fun s => s.closeSession j.client
  | .routed op seq l m tag =>
    s.sendAccord l 8 tag (dgHead 0x12 (op + 0x80) x.id j.done.length seq (j.done.map Answer.entry).flatten) m

/-! ### Accesses that go to a member (R550) -/

/-- The access is a write of CELL. -/
def ObjAccess.setsCell (a : ObjAccess) : Bool := a.write && a.index == 0x2500 && a.sub == 0x40

/-- The entry of an ODREQ for an access: SELECT as this unit holds it, CELL with the indices that are left. -/
def ObjAccess.routedEntry (a : ObjAccess) (x : Session) (rest : List Nat) : List Byte :=
  let data := if a.setsCell ∧ a.data ≠ everyCell then withIndices a.data rest else a.data
  bytesLE 2 a.index ++ bytesLE 1 a.sub ++ [0#8] ++ bytesLE 4 (x.selFor a) ++ bytesLE 8 data

/-- The first accesses of a list that go one way together, at most 9; a write of CELL goes alone. -/
def State.batch (s : State) (x : Session) (arrived : Option Nat) (w : Way) (l : List ObjAccess) : List ObjAccess :=
  match l with
  | [] => []
  | a :: r =>
    if a.setsCell then [a]
    else a :: (r.takeWhile fun b => b.write == a.write && !b.setsCell && b.dom.isNone && s.wayOf x arrived b == .ok w).take 8

/-- An ODREQ for the first accesses of a request leaves for a member. -/
def State.sendOdreq (s : State) (x : Session) (j : Job) (w : Way) (l m : Nat) (rest : List Nat) : State :=
  let b := s.batch x j.arrived w j.rest
  let op := if (b.head?.map ObjAccess.write).getD false then 0x11 else 0x10
  let tag := (s.od.lastTag + 1) % 65536
  let ver := if x.ver = 0 then 0x12 else x.ver
  let s := { s with od := { s.od with lastTag := tag } }.putJob { j with wait := .routed tag b.length }
  s.sendAccord l 7 tag (dgHead ver op x.id b.length tag (b.map fun a => a.routedEntry x rest).flatten) m

/-- The next access of a request: after an abort it is not executed; else it is done here, or goes to a member. -/
def State.nextAccess (s : State) (x : Session) (j : Job) (a : ObjAccess) : State :=
  if j.failed then s.putJob (j.ended a Abort.notRun [] false)
  else
    match s.wayOf x j.arrived a with
    | .error e => s.putJob (j.ended a e [] false)
    | .ok (.member l m root rest) =>
      if a.dom.isSome then s.putJob (j.ended a Abort.discard [] false) else s.sendOdreq x j (.member l m root rest) l m rest
    | .ok .here =>
      match s.access x j.id a with
      | (t, .ans e v g) => t.putJob (j.ended a e v g)
      | (t, .wait w) => t.putJob { j with wait := w }

/-- Answers from mailboxes are taken; when none is left to come, the access ends. -/
def State.takeMail (s : State) (x : Session) (j : Job) (a : ObjAccess) (left value abort : Nat) : State :=
  let mine := s.od.answers.filter fun e => e.1 == j.id
  let s := { s with od := { s.od with answers := s.od.answers.filter fun e => e.1 != j.id } }
  let abort := mine.foldl (fun (c : Nat) (e : Nat × Nat × Nat) => if c = 0 then e.2.1 else c) abort
  let value := (mine.getLast?.map fun (e : Nat × Nat × Nat) => e.2.2).getD value
  if mine.length < left then s.putJob { j with wait := .mail (left - mine.length) value abort }
  else
    match s.cellEnded x a abort value with
    | (t, .ans e v g) => t.putJob (j.ended a e v g)
    | (t, .wait _) => t

/-- A request goes on by one step. -/
def State.jobStep (s : State) (j : Job) : State :=
  match s.session j.client with
  | none => s.dropJob j.id
  | some x =>
    match j.rest, j.wait with
    | [], .ready => s.answerOut x j
    | a :: _, .ready => s.nextAccess x j a
    | a :: _, .mail left value abort => s.takeMail x j a left value abort
    | _, _ => s

/-- A request can go on: nothing it waits for is still to come. -/
def State.jobReady (s : State) (j : Job) : Bool :=
  match j.wait with
  | .ready => true
  | .mail 0 _ _ => true
  | .mail _ _ _ => s.od.answers.any fun e => e.1 == j.id
  | _ => false

/-- The request that goes on next: the oldest that can, none of a client before its earlier ones, none during a store. -/
def State.nextJob (s : State) : Option Job :=
  if s.od.jobs.any fun j => j.wait == .store then none
  else s.od.jobs.find? fun j => s.jobReady j && ((s.od.jobs.find? fun k => k.client == j.client).map Job.id) == some j.id

/-- Requests go on until each waits. -/
def State.odLoop : Nat → State → State
  | 0, s => s
  | n + 1, s =>
    match s.nextJob with
    | none => s
    | some j => State.odLoop n (s.jobStep j)

/-- The steps that the requests in service can take at most. -/
def State.odSteps (s : State) : Nat := sumOf (s.od.jobs.map fun j => 2 * j.rest.length + 3) + s.od.answers.length

/-- The object service runs as far as it can (R533). -/
def State.odRun (s : State) : State := State.odLoop s.odSteps s

end Sys2Proof.Machine
end

