-- ==== Sys2Proof/Machine/OdServe.lean ====
section
/-! DEFINITION. The object services as commands: single accesses, CANopen FD (R540), the UDP service (R541 to R549), object
requests between members (R550), the mailbox commands that answer them, and the store (R538). -/

namespace Sys2Proof.Machine

/-! ### Clients -/

/-- Client sessions of a CAN FD port. -/
def State.canClients (s : State) (p : Nat) : Nat :=
  (s.od.sessions.filter fun x => match x.client with
    | .can q _ => q.val == p
    | _ => false).length

/-- The session of a client is there, or opens: a CAN FD port has four, and a UDP session opens by HELLO alone. -/
def State.openClient (s : State) (c : Client) : Option State :=
  match s.session c, c with
  | some _, _ => some s
  | none, .can p _ => if s.canClients p < 4 then some (s.addSession c 0 0) else none
  | none, .routed n => some (s.setSessions (s.od.sessions ++ [Session.fresh c n.toNat 0x12 0]))
  | none, .udp _ => none

/-- The object service runs: not in RESET and SELF-TEST, nor where LBIST has failed both the APP and the RT island (R48). -/
def State.odServes (s : State) : Bool :=
  s.st != St.reset && s.st != St.selfTest && !(s.bit R.ST_ISLAND_ISLAND 1 && s.bit R.ST_ISLAND_ISLAND 2)

/-- After a failed secure start the boot ROM serves CAN FD port 0 and NETA alone (R47). -/
def State.clientServed (s : State) (c : Client) : Bool :=
  !s.on R.ST_SUMMARY_SECURE_FAIL || match c with
    | .can p _ => p == 0
    | .udp _ => ((s.session c).map fun x => x.net == 0).getD false
    | .routed _ => false

/-- One access of a client enters service. -/
def State.single (s : State) (c : Client) (a : ObjAccess) : State :=
  if !s.odServes || !s.clientServed c then s
  else
    match s.openClient c with
    | some t => (t.addJob c .single none [a] []).odRun
    | none => s.send (.object c a.index a.sub [] Abort.discard)

/-- An access that brings no SELECT. -/
def plainAccess (index sub : Nat) (write : Bool) (data : Nat) : ObjAccess :=
  { index := index, sub := sub, select := 0, write := write, data := data, len := none, dom := none }

def execOdRead (client : Client) (index : BitVec 16) (sub : BitVec 8) (s : State) : Out :=
  .next (s.single client (plainAccess index.toNat sub.toNat false 0))

def execOdWrite (client : Client) (index : BitVec 16) (sub : BitVec 8) (data : BitVec 64) (s : State) : Out :=
  .next (s.single client (plainAccess index.toNat sub.toNat true data.toNat))

/-- A write of sub-index 01h. -/
def execOdSelectWrite (client : Client) (index : BitVec 16) (data : BitVec 32) (s : State) : Out :=
  .next (s.single client (plainAccess index.toNat 1 true data.toNat))

/-- A write of 2500h:40. -/
def execOdCellWrite (client : Client) (data : BitVec 64) (s : State) : Out :=
  .next (s.single client (plainAccess 0x2500 0x40 true data.toNat))

/-- A write of 1010h:01. -/
def execOdStore (client : Client) (data : BitVec 32) (s : State) : Out :=
  .next (s.single client (plainAccess 0x1010 1 true data.toNat))

/-- A write of 1011h:01. -/
def execOdRestoreDefaults (client : Client) (data : BitVec 32) (s : State) : Out :=
  .next (s.single client (plainAccess 0x1011 1 true data.toNat))

/-! ### CANopen FD (R523, R540) -/

/-- The USDO server of a CAN FD port is enabled. -/
def State.canServes (s : State) (p : Nat) : Bool := s.odServes && (p == 0 || !s.on R.ST_SUMMARY_SECURE_FAIL) && (if p = 0 then s.on R.OD_CAN_EN0 else s.on R.OD_CAN_EN1)

/-- An upload, or a download of the bytes of the value; the image domain is moved whole or from its start. -/
def canAccess (index sub : Nat) (write : Option (List Byte)) : ObjAccess :=
  let b := write.getD []
  let dom := if index = 0x2C00 ∧ sub = 0x40 then some (0, if write.isSome then b.length else imageBytes, b) else none
  { index := index, sub := sub, select := 0, write := write.isSome, data := natLE b, len := some b.length, dom := dom }

def execUsdoRequest (port : Fin 2) (node : BitVec 7) (index : BitVec 16) (sub : BitVec 8) (write : Option (List Byte))
    (s : State) : Out :=
  let a := canAccess index.toNat sub.toNat write
  .next (s.when (s.canServes port) fun s =>
    match s.openClient (.can port node) with
    | some t => (t.addJob (.can port node) .usdo none [a] []).odRun
    | none => s.send (.object (.can port node) a.index a.sub [] Abort.discard))

def execCanSessionIdle (port : Fin 2) (node : BitVec 7) (s : State) : Out :=
  .next (s.when s.odServes fun s => (s.closeSession (.can port node)).odRun)

/-- A heartbeat or boot-up message with the state code. -/
def State.sendNmt (s : State) (p : Nat) : State :=
  s.send (.can p (0x700 + s.rd R.OD_CAN_NODE_ID) [BitVec.ofNat 8 s.nmtState])

def execHeartbeat (port : Fin 2) (s : State) : Out :=
  .next (s.when (s.canServes port && s.rd R.OD_CAN_HB_MS != 0) fun s => s.sendNmt port)

/-! ### Datagrams (R541 to R544) -/

namespace Dg
def op (b : List Byte) : Nat := byteAt b 3
def ver (b : List Byte) : Nat := byteAt b 2
def session (b : List Byte) : Nat := leAt b 4 2
def count (b : List Byte) : Nat := leAt b 6 2
def seq (b : List Byte) : Nat := leAt b 8 4
def length (b : List Byte) : Nat := leAt b 12 2
def body (b : List Byte) : List Byte := (b.drop 16).take (length b)
/-- Length, the first two bytes and the CRC are right. -/
def sound (b : List Byte) : Bool :=
  decide (20 ≤ b.length) && b.length == 20 + length b && leAt b 0 2 == 0x4B47 &&
    leAt b (16 + length b) 4 == crc32c (b.take (16 + length b))
end Dg

/-- The address of a station port; 0 while it carries no IP traffic. -/
def State.netIp (s : State) (n : Nat) : Nat := s.rd (R.OD_NET_IP_IP n)

/-- A datagram reaches the service: it is for this unit and its UDP port, and is one the port takes (R541). -/
def State.forService (s : State) (d : Datagram) : Bool :=
  s.odServes && (d.net == 0 || !s.on R.ST_SUMMARY_SECURE_FAIL) && s.netIp d.net != 0 && d.dest.toNat == s.netIp d.net && d.destPort.toNat == s.rd R.OD_UDP_PORT && d.plain

def State.badDatagram (s : State) : State := s.incMod R.OD_UDP_BAD

/-- A datagram goes back to the source of another. -/
def State.sendBack (s : State) (d : Datagram) (bytes : List Byte) : State :=
  s.send (.udp d.net d.source.toNat d.sourcePort.toNat bytes)

/-- A good datagram of an open session acts with its session; a bad one counts, one of an unknown SESSION is told so. -/
def State.withSession (s : State) (d : Datagram) (act : Session → State → State) : State :=
  let b := d.bytes
  if !s.forService d then s
  else if !Dg.sound b then s.badDatagram
  else
    match s.od.sessions.find? fun x => x.isUdp && x.id == Dg.session b with
    | none => s.sendBack d (dgram (Dg.ver b) (Dg.op b + 0x80) (Dg.session b) 0xFFFF (Dg.seq b) [])
    | some x => if Dg.ver b ≠ x.ver then s.badDatagram else act x s

/-- A request becomes the last of its session and enters service. -/
def State.enterRequest (s : State) (d : Datagram) (x : Session) (range : Option (Nat × Nat)) (accesses : List ObjAccess)
    (done : List Answer) : State :=
  let q := Dg.seq d.bytes
  ((s.putSession { x with last := some (q, none) }).addJob x.client
    (.udp (Dg.op d.bytes) q d.net d.source.toNat d.sourcePort.toNat) range accesses done).odRun

/-- A request that comes again is answered with its stored response; any other becomes the last (R546). -/
def State.request (s : State) (d : Datagram) (x : Session) (range : Option (Nat × Nat)) (accesses : List ObjAccess)
    (done : List Answer) : State :=
  match x.last with
  | some (r, kept) =>
    if r = Dg.seq d.bytes then
      match kept with
      | some bytes => s.sendBack d bytes
      | none => s
    else s.enterRequest d x range accesses done
  | none => s.enterRequest d x range accesses done

/-- An OP that the session may not use is answered by a single entry (R543). -/
def State.refuseOp (s : State) (d : Datagram) (x : Session) : State := s.request d x none [] [refusedEntry]

/-- HELLO (R544): RESULT 0 open, 1 no common version, 2 no free session. -/
def State.hello (s : State) (d : Datagram) : State :=
  let b := d.bytes
  let body := Dg.body b
  let answer := fun (s : State) (ver session result : Nat) =>
    s.sendBack d (dgram (if ver = 0 then 0x12 else ver) 0x81 session 0 (Dg.seq b)
      ([BitVec.ofNat 8 ver, 0x10#8, 0x12#8, BitVec.ofNat 8 result] ++ List.replicate 4 0#8))
  match sharedVersion 0x10 0x12 (byteAt body 0) (byteAt body 1) with
  | none => answer (s.put (R.IF_VER_NONE 3) true) 0 0 1
  | some v =>
    match (List.finRange 8).find? fun i => (s.session (.udp i)).isNone with
    | none => answer s 0 0 2
    | some i =>
      let t := (s.addSession (.udp i) v d.net).wr (R.IF_VER_RUN 3) v
      answer t v t.od.lastId 0

def execHello (d : Datagram) (s : State) : Out :=
  .next (if !s.forService d then s else if !Dg.sound d.bytes then s.badDatagram
    else if Dg.op d.bytes = 1 then s.hello d else s)

def execBye (d : Datagram) (s : State) : Out :=
  .next (s.withSession d fun x s => if Dg.op d.bytes = 2 then s.request d x none [] [] else s)

/-! ### READ, WRITE, DREAD, DWRITE (R545, R547) -/

/-- The accesses of READ or WRITE entries from some bytes on. -/
def entriesOf (write : Bool) (n : Nat) (b : List Byte) : List ObjAccess :=
  (upto n).map fun k =>
    { index := leAt b (16 * k) 2, sub := byteAt b (16 * k + 2), select := leAt b (16 * k + 4) 4, write := write,
      data := leAt b (16 * k + 8) 8, len := none, dom := none }

/-- Entries that a request holds, and whether its COUNT is allowed. -/
def countOk (ver count held : Nat) : Bool := decide (1 ≤ count) && decide (count ≤ if ver = 0x10 then 1 else 32) && decide (count ≤ held)

def State.readWrite (s : State) (d : Datagram) (x : Session) : State :=
  let b := d.bytes
  let held := Dg.length b / 16
  let l := entriesOf (Dg.op b == 0x11) (Nat.min (Dg.count b) held) (Dg.body b)
  if countOk x.ver (Dg.count b) held then s.request d x none l []
  else s.request d x none [] (l.map fun a => { refusedEntry with index := a.index, sub := a.sub })

/-- The OP codes of R543. -/
def knownOp (op : Nat) : Bool := [1, 2, 0x10, 0x11, 0x13, 0x14, 0x20].contains op

def execUdpRead (d : Datagram) (s : State) : Out :=
  .next (s.withSession d fun x s =>
    if Dg.op d.bytes = 0x10 then s.readWrite d x else if knownOp (Dg.op d.bytes) then s else s.refuseOp d x)

def execUdpWrite (d : Datagram) (s : State) : Out :=
  .next (s.withSession d fun x s => if Dg.op d.bytes = 0x11 then s.readWrite d x else s)

/-- DREAD or DWRITE: one access with offset, length and data. -/
def State.domainRequest (s : State) (d : Datagram) (x : Session) : State :=
  let b := d.bytes
  let body := Dg.body b
  if x.ver < 0x12 then s.refuseOp d x
  else
    let off := leAt body 16 4
    let len := leAt body 20 4
    match entriesOf (Dg.op b == 0x14) 1 body with
    | a :: _ => s.request d x (some (off, len)) [{ a with dom := some (off, len, body.drop 24) }] []
    | [] => s

def execDread (d : Datagram) (s : State) : Out :=
  .next (s.withSession d fun x s => if Dg.op d.bytes = 0x13 then s.domainRequest d x else s)

def execDwrite (d : Datagram) (s : State) : Out :=
  .next (s.withSession d fun x s => if Dg.op d.bytes = 0x14 then s.domainRequest d x else s)

/-! ### SETPOINT (R94, R548) -/

/-- The values of a message reach their slots; a value that is not finite is discarded. -/
def State.takeSetpoints (s : State) (n : Nat) (body : List Byte) : State :=
  s.forN n fun k s =>
    let slot := byteAt body (8 * k)
    let v := leAt body (8 * k + 4) 4
    s.when (f32Finite v) fun s =>
      { s with ctl := { s.ctl with slotVal := mapSet (fun _ => f0) s.ctl.slotVal slot v,
                                   slotNew := s.ctl.slotNew.filter (· != slot) ++ [slot] } }

def execSetpoint (d : Datagram) (s : State) : Out :=
  .next (s.withSession d fun x s =>
    let b := d.bytes
    let q := Dg.seq b
    let ahead := (x.spSeq.map fun p => (q + 2 ^ 32 - p) % 2 ^ 32).getD 1
    let n := Dg.count b
    if Dg.op b ≠ 0x20 then s
    else if (s.rd R.OD_SP_SRC_SP_SRC = 0 ∨ s.rd R.OD_SP_SRC_SP_SRC = d.source.toNat) ∧ 1 ≤ ahead ∧ ahead ≤ 2 ^ 31 ∧
        1 ≤ n ∧ n ≤ 64 ∧ 8 * n ≤ Dg.length b then
      (s.putSession { x with spSeq := some q }).takeSetpoints n (Dg.body b)
    else s)

def execUdpSessionIdle (slot : Fin 8) (s : State) : Out :=
  .next (s.when s.odServes fun s => (s.closeSession (.udp slot)).odRun)

/-! ### ARP and ICMP (R541) -/

def execArpRequest (net : Fin 2) (asker target : BitVec 32) (s : State) : Out :=
  .next (s.when (s.odServes && s.netIp net != 0 && target.toNat == s.netIp net) fun s =>
    s.send (.arp net (s.netIp net) asker.toNat))

def execIcmpEcho (net : Fin 2) (source dest : BitVec 32) (plain : Bool) (payload : List Byte) (s : State) : Out :=
  .next (s.when (s.odServes && s.netIp net != 0 && dest.toNat == s.netIp net && plain) fun s =>
    s.send (.echo net source.toNat payload))

/-! ### Between members (R331, R550) -/

/-- An ODREQ is served by the unit that speaks for its pair. -/
def execOdreq (port : Fin 4) (frame : List Byte) (s : State) : Out :=
  .next (s.accordIn port 7 frame fun l m s =>
    let b := Acf.body frame
    let op := Dg.op b
    if !s.controls || !s.odServes || s.on R.ST_SUMMARY_SECURE_FAIL || (op != 0x10 && op != 0x11) then s
    else
      match s.openClient (.routed (BitVec.ofNat 16 (Dg.session b))) with
      | none => s
      | some t => (t.addJob (.routed (BitVec.ofNat 16 (Dg.session b))) (.routed op (Dg.seq b) l m (Acf.arg frame)) none
          (entriesOf (op == 0x11) (Nat.min (Dg.count b) (Dg.length b / 16)) (Dg.body b)) []).odRun)

/-- The job that waits for an ODRSP with a tag. -/
def State.routedJob (s : State) (tag : Nat) : Option (Job × Nat) :=
  (s.od.jobs.find? fun j => match j.wait with
    | .routed t _ => t == tag
    | _ => false).map fun j => (j, match j.wait with
      | .routed _ n => n
      | _ => 0)

/-- The bytes of an object's type, of DATA (R529): for a field those of its type. -/
def fieldBytes (a : ObjAccess) (x : Session) : Nat × Bool :=
  if a.sub = 0x40 then (8, false)
  else if (odWords a.index (x.selFor a / 65536)).isSome then (4, false)
  else match (odFields a.index (x.selFor a))[a.sub - 2]? with
    | some f => (typeBytes f.row.width, signedField f)
    | none => (8, false)

/-- Entry `k` of an ODRSP answers an access; an accepted CELL is kept. -/
def State.routedAnswer (s : State) (x : Session) (j : Job) (b : List Byte) (k : Nat) (a : ObjAccess) : State × Session × Job :=
  let e := (Dg.body b).drop (16 * k)
  let abort := if Dg.count b ≤ k ∨ Dg.count b = 0xFFFF then Abort.discard else leAt e 4 4
  let (n, g) := fieldBytes a x
  let x := if a.setsCell && abort == 0 then { x with cell := some a.data } else x
  (s.putSession x, x, j.ended a abort (if a.write || abort != 0 then [] else (e.drop 8).take n) g)

/-- The answers for the accesses that one ODREQ carried. -/
def State.routedAnswers (s : State) (x : Session) (j : Job) (n : Nat) (b : List Byte) : State :=
  let r := ((j.rest.take n).zip (upto n)).foldl (fun (t : State × Session × Job) e => t.1.routedAnswer t.2.1 t.2.2 b e.2 e.1) (s, x, j)
  r.1.putJob r.2.2

/-- An ODRSP with its transaction tag ends the wait. -/
def execOdrsp (port : Fin 4) (frame : List Byte) (s : State) : Out :=
  .next (s.accordIn port 8 frame fun _ _ s =>
    match s.routedJob (Acf.arg frame) with
    | none => s
    | some (j, n) =>
      match s.session j.client with
      | none => s
      | some x => (s.routedAnswers x j n (Acf.body frame)).odRun)

/-- 100 ms have passed without the ODRSP: its entries end so, and the ones after them go on. -/
def execOdrspTimeout (tag : BitVec 16) (s : State) : Out :=
  .next (match s.routedJob tag.toNat with
  | none => s
  | some (j, n) =>
    let k := (j.rest.take n).foldl (fun (k : Job) a => { k.ended a Abort.timeout [] false with failed := j.failed }) j
    (s.putJob k).odRun)

/-! ### Mailbox commands that may answer an access (R191, R211, R537) -/

def execCommandLaunch (port : Fin 48) (s : State) : Out := .next (s.commandLaunch port).odRun

def execMbResponse (port : Fin 48) (s : State) : Out := .next (s.mbResponse port).odRun

def execMbTimeout (port : Fin 48) (s : State) : Out := .next (s.mbTimeout port).odRun

/-- 10 ms have passed in a FULL step: CAL_STATUS of the cell is read, unless a read of it is still out. -/
def execCalFullPoll (cell : BitVec 64) (s : State) : Out :=
  let id := cell.toNat
  let p := bitsOf id 7 6
  .next (s.when (s.od.calDue.contains id && decide (p < 48) && (s.port p).own.all fun o => o.tag != .calPoll id) fun s =>
    s.ask p [own (.calPoll id) (reqTo 1 (bitsOf id 0 7) (pathOf id) 0x30038 0)])

/-! ### The store (R538) -/

/-- The bits of a register that the store covers: fields of access RW or RWL. -/
def RegRow.stored (r : RegRow) (word : Nat) : Nat :=
  r.fields.foldl (fun w f => if f.acc == .rw || f.acc == .rwl then setBits w f.lo f.width (bitsOf word f.lo f.width) else w) 0

/-- A word of the shadow page of a context in a stored copy. -/
def shadowKey (i w : Nat) : Nat := 0x20000000 + (i * 2048 + w) * 4

/-- The words of the shadow pages. -/
def State.shadowWords (s : State) : List (Nat × Nat) :=
  (s.ctl.coef.filter fun (e : Nat × Word) => e.1 / 2048 % 2 == 1 - s.page (e.1 / 4096)).map fun (e : Nat × Word) =>
    (shadowKey (e.1 / 4096) (e.1 % 2048), e.2.toNat)

/-- The words that a stored copy holds: registers that differ from reset, outside the safety island and the page of
CELL_SEL, and the shadow pages of the coefficients (log entry 31). -/
def State.storedWords (s : State) : List (Nat × Nat) :=
  let regs := (s.regs.filter fun (e : Nat × Word) => e.1 / 0x100000 != 0x410 && e.1 / 0x100 != 0x40100F).map fun (e : Nat × Word) =>
    (e.1, ((kcRow e.1).map fun r => r.stored e.2.toNat).getD 0)
  regs ++ s.shadowWords

/-- The store has ended: its copy takes the place of the older one, or that one is lost; the write is answered. -/
def State.storeEnds (s : State) (j : Job) (ok : Bool) : State :=
  let area := (s.od.copies.head?.map fun c => 1 - c.area).getD 0
  let others := s.od.copies.filter fun c => c.area != area
  let copies := if ok then { area := area, words := s.storedWords, replay := s.od.replay } :: others else others
  let s := ({ s with od := { s.od with copies := copies } }).put R.OD_STORE_STORED (!copies.isEmpty)
  let s := (s.wr R.OD_STORE_COPY ((copies.head?.map Copy.area).getD 0)).when ok fun s => s.inc R.OD_STORE_STORES
  match j.rest with
  | a :: _ => s.putJob (j.ended a (if ok then 0 else Abort.discard) [] false)
  | [] => s

def execStoreComplete (ok : Bool) (s : State) : Out :=
  .next (match s.od.jobs.find? fun j => j.wait == .store with
  | some j => (s.storeEnds j ok).odRun
  | none => s)

end Sys2Proof.Machine
end

