-- ==== Sys2Proof/Machine/Start.lean ====
section
/-! DEFINITION. Power, reset, self-test and start-up (R31, R42 to R49, R370, R372, R411, R419, R493, R539, R563, R575), and
the clock monitors (R46). -/

namespace Sys2Proof.Machine

/-! ### Power and reset -/

/-- Fuses. -/
def fuseWord (a : Nat) : Bool := decide (0x40B00204 ≤ a) && decide (a ≤ 0x40B0020C)

/-- Power-on of VDD_CORE: RESET, with every latch clear. The pins, the fuses, the boot flash, the safety island on its own
supply, and the cells keep. VDD_CORE is outside its window, so RESET lasts until the monitors are good. -/
def State.powerOn (s : State) : State :=
  let t := { State.reset with
    pending := s.pending, draws := s.draws, sent := s.sent, cells := s.cells,
    regs := s.regs.filter fun e => e.1 / 0x100000 == 0x410 || fuseWord e.1,
    sys := { Sys.reset with rstHigh := s.sys.rstHigh, supplyBad := setBits s.sys.supplyBad 0 1 1, pairId := s.sys.pairId,
                            selfTest := false, hardBlock := s.sys.hardBlock },
    isl := s.isl, od := { Od.reset with copies := s.od.copies, loadPend := s.od.loadPend } }
  let t := (t.put R.OD_STORE_STORED (!s.od.copies.isEmpty)).wr R.OD_STORE_COPY ((s.od.copies.head?.map Copy.area).getD 0)
  let t := (t.put R.OD_STORE_LOAD_PEND s.od.loadPend).put R.TIE_STATUS_YIELD_IN (s.on R.TIE_STATUS_YIELD_IN)
  let t := (t.put R.DEV_STATE_SAFE_BLOCK (s.on R.DEV_STATE_SAFE_BLOCK)).put R.TIE_STATUS_PAIR_ID s.sys.pairId
  ((t.wr R.DEV_STATE_STATE St.reset).wr R.STATE_CAUSE_CAUSE Cause.powerOn).driveYield.summarise

def execPowerOn (s : State) : Out := .next s.powerOn

/-- SYS_RST_N goes low: RESET, and RESET of the island unless it is in HALT. -/
def execSysRstNLow (s : State) : Out :=
  let s := { s with sys := { s.sys with rstHigh := false } }
  let s := s.enterReset Cause.sysRst
  .next (s.when (s.ist != Is.halt) State.islandReset)

/-- SYS_RST_N goes high: the PAIR_ID strap is sampled, the island goes to TEST, and with the monitors good the self-test
starts. -/
def execSysRstNHigh (pairId : Bool) (s : State) : Out :=
  .next (if s.sys.rstHigh then s
  else
    let s := { s with sys := { s.sys with rstHigh := true, pairId := pairId } }.put R.TIE_STATUS_PAIR_ID pairId
    (s.when (s.ist == Is.reset) fun s => s.wr R.SAFE_STATE_STATE Is.test).endReset)

/-- A supply by its row of R574 leaves its monitor window (R575); VDD_SAFE, row 2, is the island's own (R370). -/
def execSupplyMonitor (supply : Fin 16) (s : State) : Out :=
  .next (if supply = 2 then s
  else
    let s := { s with sys := { s.sys with supplyBad := setBits s.sys.supplyBad supply 1 1 } }
    s.when (s.sys.rstHigh && s.st != St.reset) fun s => s.causePresent 11)

/-- The last supply returns inside its window. -/
def execSupplyMonitorsGood (s : State) : Out :=
  .next (({ s with sys := { s.sys with supplyBad := 0 } }.causeAbsent 11).endReset)

/-! ### Clock monitors (R46) -/

/-- Two clocks agree: the ratio of their counts lies within 100 ppm of the nominal one; an absent clock agrees with none. -/
def agree (c n c' n' : Nat) : Bool :=
  let x := c * n'
  let y := c' * n
  c != 0 && c' != 0 && decide ((if x < y then y - x else x - y) * 10000 ≤ y)

/-- Which of the three clocks fail, by their counts in 10 ms: absent, more than 2 % off, the odd one of three, or all where
no two agree. -/
def clocksFail (r a b : Nat) : List Bool :=
  let nr := 250000
  let ns := 1562500
  let off := fun c n => c == 0 || decide (2 * n < 100 * (if c < n then n - c else c - n))
  let ra := agree r nr a ns
  let rb := agree r nr b ns
  let ab := agree a ns b ns
  if !ra && !rb && !ab then [true, true, true]
  else [off r nr || (ab && !ra && !rb), off a ns || (rb && !ra && !ab), off b ns || (ra && !rb && !ab)]

def execClockMonitorWindow (ref sd0 sd1 : BitVec 32) (s : State) : Out :=
  .next (s.when s.inputsRun fun s =>
    s.forN 3 fun i s => s.causeIs (7 + i) ((clocksFail ref.toNat sd0.toNat sd1.toNat).getD i false))

/-! ### Entry to SAFE HOLD -/

/-- The place in the dictionary of a word of a stored copy (R539). -/
def storedPlace (a : Nat) : Nat :=
  if a < 0x30000000 then
    let k := (a - 0x20000000) / 4
    ((0x2100 + k / 2048) * 16 + 4) * 2 ^ 32 + k % 2048 * 2 ^ 16
  else (odPlace a).getD 0

/-- The context of a stored coefficient word. -/
def coefCtx (a : Nat) : Nat := (a - 0x20000000) / 4 / 2048

/-- One word of the stored copy is written; one that is refused leaves the reset value and sets RESTORE_ERR. -/
def State.restoreWord (s : State) (e : Nat × Nat) : State :=
  let x :=
    if e.1 < 0x30000000 then s.coefWrite (coefCtx e.1) (1 - s.page (coefCtx e.1)) ((e.1 - 0x20000000) / 4 % 2048) e.2
    else
      match kcRow e.1 with
      | some r => s.mergeWrite e.1 (r.stored (2 ^ 32 - 1)) e.2
      | none => (s, 0)
  if x.2 = 0 then x.1 else s.put R.OD_STORE_RESTORE_ERR true

/-- The firmware writes the newest good copy, in rising index, group, instance and sub-index (R539). -/
def State.restoreCopy (s : State) : State :=
  match s.od.copies.head? with
  | none => s
  | some c => (s.forL (sortBy (fun (e : Nat × Nat) => storedPlace e.1) c.words) fun e s => s.restoreWord e).setReplay c.replay

/-- Stored copies are erased where "load" asked for it (R539). -/
def State.eraseCopies (s : State) : State :=
  s.when s.od.loadPend fun s =>
    let s := { s with od := { s.od with copies := [], loadPend := false } }
    ((s.put R.OD_STORE_STORED false).wr R.OD_STORE_COPY 0).put R.OD_STORE_LOAD_PEND false

/-- What the resident firmware does as it starts: the stored copy, and the stored safe parameters (R496, R539). -/
def State.firmwareStarts (s : State) : State :=
  let s := s.eraseCopies.restoreCopy
  { s with isl := { s.isl with area := s.isl.stored } }

/-- CONFIGURE that AUTOCONF issues (R31, R36). -/
def State.autoConfigure (s : State) : State :=
  if !s.on R.ENERGISE_CFG_AUTOCONF then s
  else
    let code := s.configureCode
    if code = 0 then s.configureNow Cause.command else s.refuse Cmd.configure code

/-- SAFE HOLD is entered: the firmware starts where secure start succeeded, the wait of R291 begins, the boot-up message
leaves (R523), and AUTOCONF acts. -/
def State.enterSafeHold (s : State) (firmware : Bool) : State :=
  let s := s.goto St.safeHold Cause.testEnd 0
  let s := (s.put R.DEV_STATE_ST_PASS (s.on R.ST_SUMMARY_PASS && firmware)).when firmware State.firmwareStarts
  let s := { s with tie := { s.tie with safeAt := s.now, wait := s.rd R.TIE_CFG_TIE_WAIT, held := false } }.driveYield
  let s := s.when s.soloDue fun s => s.changeRole Role.solo
  let s := s.causeIs 26 (!s.on R.DEV_STATE_ST_PASS)
  let s := s.forN 2 fun p s => s.when (s.canServes p) fun s => s.sendNmt p
  s.autoConfigure

/-! ### The self-test and secure start -/

/-- The self-test has ended with its verdict: LOCKED with the Lock latch set, else secure start. -/
def State.testEnds (s : State) : State :=
  let n := Nat.min 15 (s.sys.runCount + 1)
  let s := { s with sys := { s.sys with selfTest := false, runCount := n } }
  let s := (s.put R.ST_SUMMARY_DONE true).wr R.ST_SUMMARY_RUN_COUNT n
  if s.on R.FLT_SUMMARY_LOCK_LATCH then (s.goto St.locked Cause.testEnd 0).driveYield
  else { s with sys := { s.sys with secure := true } }

/-- The report of R44. -/
def State.writeReport (s : State) (r : StReport) : State :=
  let safe := r.safe != 0#6
  let islands := setBits r.islands.toNat 14 1 safe.toNat
  let s := (s.setWord R.ST_ISLAND_ISLAND.addr islands).setWord R.ST_BANK_BANK.addr r.banks.toNat
  let s := (s.setWord R.ST_LANE_LO_STRAND_LO.addr r.lanesLo.toNat).setWord R.ST_LANE_HI_STRAND_HI.addr r.lanesHi.toNat
  let s := (s.setWord R.ST_REF_REFCLK.addr r.ref.toNat).setWord R.ST_SAFE_LOCKSTEP.addr r.safe.toNat
  let lbist := setBits r.islands.toNat 14 1 0 != 0
  let serdes := r.lanesLo != 0#32 || r.lanesHi != 0#24
  let s := ((s.put R.ST_SUMMARY_REF_FAIL (r.ref != 0#5)).put R.ST_SUMMARY_LBIST_FAIL lbist).put R.ST_SUMMARY_MBIST_FAIL (r.banks != 0#32)
  let s := ((s.put R.ST_SUMMARY_SERDES_FAIL serdes).put R.ST_SUMMARY_SAFE_FAIL safe).wr R.ST_SUMMARY_DURATION r.duration.toNat
  s.put R.ST_SUMMARY_PASS (r.ref == 0#5 && !lbist && r.banks == 0#32 && !serdes && !safe)

def execSelfTestEnd (report : StReport) (s : State) : Out :=
  .next (s.when (s.st == St.selfTest && s.sys.selfTest) fun s => (s.writeReport report).testEnds)

/-- 400 ms have passed: the watchdog ends the self-test in a step (R45). -/
def execSelfTestTimeout (step : Fin 6) (s : State) : Out :=
  .next (s.when (s.st == St.selfTest && s.sys.selfTest) fun s =>
    let s := ((s.put R.ST_SUMMARY_TIMEOUT true).wr R.ST_SUMMARY_STEP step).wr R.ST_SUMMARY_DURATION 4000
    s.testEnds)

/-- Secure start has ended (R47, R493, R494). -/
def execSecureStartEnd (res : SecResult) (s : State) : Out :=
  .next (s.when (s.st == St.selfTest && s.sys.secure) fun s =>
    let s := { s with sys := { s.sys with secure := false } }
    let s := (s.put R.SEC_STATUS_OK res.ok).wr R.SEC_STATUS_SLOT res.slot
    let s := (s.wr R.SEC_STATUS_KEY res.key).wr R.SEC_STATUS_CODE res.code
    let s := ((s.wr R.SEC_STATUS_PART_OK res.partOk.toNat).wr R.SEC_STATUS_PART_FAIL res.partFail.toNat).wr R.SEC_STATUS_PCODE res.pcode
    let runs := fun (t : Nat) => if t = 0 then res.ok else res.partOk.getLsbD (t - 1)
    let svn := (upto 9).foldl (fun m t => if runs t then mapSet (fun _ => 0) m t (res.svn.getD t 0).val else m) ([] : NMap Nat)
    let s := ({ s with mem := { s.mem with svn := svn } }).put R.ST_SUMMARY_SECURE_FAIL (!res.ok)
    s.enterSafeHold res.ok)

end Sys2Proof.Machine
end

