-- ==== Sys2Proof/Machine/Boundary.lean ====
section
/-! DEFINITION. The boundary of a period (R30 to R33, R38, R191, R271, R351): what the KC8400 samples, which transitions take
effect, and what starts anew. -/

namespace Sys2Proof.Machine

/-- An instant is reached. Where it lies in a new second, the duties of a second follow. -/
def State.reach (s : State) (t : Nat) : State :=
  let n := Nat.max s.now t
  ({ s with now := n }).when (decide (s.now / 1000000000 < n / 1000000000)) State.secondPassed

/-- T64 wraps with its 48 bits of seconds (R349). -/
def timeEnd : Nat := 2 ^ 48 * 1000000000

/-- One tick of the TIM clock, 4 ns and the rate correction of it in units of 10^-12 (R349, R366). In RESET time stands. -/
def State.tick (s : State) : State :=
  if s.st = St.reset then s
  else
    let d := ((s.nowFrac + 4000000000000 : Nat) : Int) + 4 * toSigned 32 (s.rd R.TIM_RATE_RATE)
    let n := d.toNat
    let t := s.reach (s.now + n / 1000000000000)
    { t with nowFrac := n % 1000000000000, now := t.now % timeEnd }

/-- Entries of a launch queue that nothing has launched are dropped and count (R191). -/
def State.dropLaunches (s : State) (p : Nat) : State :=
  s.when (!(s.port p).queue.isEmpty) fun s => (s.inc (R.ERR_C_LATE p) (s.port p).queue.length).raise 68

/-- A strand port starts a period: what came in the last one moves up, and a head takes its two launches (R191). -/
def State.portBoundary (s : State) (p : Nat) : State :=
  let s := s.dropLaunches p
  let q := if s.mayLaunch p then [(2, s.tColOf p), (1, s.tCmd)] else []
  s.onPort p fun x => { x with queue := q, goodLast := x.good, good := [], gotFrame := false, viaTail := [] }

/-- Sillage of the last period is no longer present (R197). -/
def State.dropSillage (s : State) : State :=
  s.forL (mapKeys s.lvl.views) fun k s => s.onView k fun v => { v with sil := [] }

/-- The partner takes the state that the accepting unit holds at this boundary, with cause 0Ch (R34, R43). -/
def State.followPartner (s : State) (dst : Nat) : State :=
  let follows := (s.role == Role.standby || (s.role == Role.relay && s.tieUp)) && dst != s.st
  if !follows then s
  else if dst = St.configured then
    if s.inService then s.deenergiseNow Cause.follow else if s.st = St.safeHold then s.configureNow Cause.follow else s
  else if dst = St.energised ∨ dst = St.deblocked ∨ dst = St.faultBlock then
    if s.inService then
      if dst = St.faultBlock then s.faultBlock Cause.follow else s.endDry.settled.goto dst Cause.follow s.transPeriod
    else if s.writable then
      let cells := ((upto 48).map fun p => ((s.expectedOn p).filter (s.availableCold p)).map (cellKey p)).flatten
      let s := s.followLayout
      let s := (((s.initEngine).enterLevels cells).nextEpoch).goto dst Cause.follow s.transPeriod
      s.when (s.role == Role.relay) State.startJoining
    else s
  else s

/-- What happens at a boundary once the number has advanced: inputs are latched; faults and the pair, then the accord, then
commanded transitions act; ports, cells' views and budgets start anew. `was` is the state before it. -/
def State.openPeriod (s : State) (x : Samples) (follow : Option (Fin 8)) (was : Nat) : State :=
  let s := s.sampleInputs x
  let s := s.tieBoundary.accordBoundary.syncBoundary
  let s := s.pendingBoundary.dryExpire.dryBoundary
  let s := match follow with
    | some d => s.followPartner d
    | none => s
  let s := s.when (s.sys.restore && s.sys.pend.isNone) State.restoreBounds
  let s := s.forN 48 fun p s => s.portBoundary p
  let s := s.dropSillage
  let entered := if s.st = was then none else some s.st
  { s with lvl := { s.lvl with slotBad := false, decayed := false }, sch := { s.sch with suspended := [] },
           acq := { s.acq with entered := entered } }

/-- The next boundary of the layout in force begins; from the last maintenance boundary before t_1 on nothing launches. -/
def State.nextPeriod (s : State) : State :=
  let p := s.sys.period + 1
  let t := p * s.periodNs
  let s := (s.reach t).beginPeriod p t
  let quiet := match s.sys.prep with
    | some q => decide (q.t1 < t + 100000)
    | none => false
  { s with sys := { s.sys with quiet := quiet } }

/-- The period timer reaches a boundary: t_1 where an ENERGISE waits for it, else the next one. -/
def State.boundary (s : State) (x : Samples) (follow : Option (Fin 8)) : State :=
  if !s.inputsRun ∨ s.st = St.locked then s
  else
    let next := (s.nextPeriod).openPeriod x follow s.st
    match s.sys.prep with
    | none => next
    | some q =>
      if s.sys.committed ∨ (!s.sys.quiet ∧ (s.sys.period + 1) * 100000 < q.t1) then next
      else
        let t := (s.reach q.t1).energiseDue
        if t.sys.committed then t.openPeriod x follow s.st else t

def execPeriodBoundary (samples : Samples) (follow : Option (Fin 8)) (s : State) : Out :=
  .next (s.boundary samples follow).odRun

end Sys2Proof.Machine
end

