-- ==== Sys2Proof/Machine/IslandCmds.lean ====
section
/-! DEFINITION. Commands of the safety island (R370 to R405). -/

namespace Sys2Proof.Machine

/-- VDD_SAFE power-on: RESET from any state, and TEST while SYS_RST_N is high (R372). -/
def execVddSafePowerOn (s : State) : Out :=
  .next (s.islandReset.when s.sys.rstHigh fun s => s.wr R.SAFE_STATE_STATE Is.test)

/-- The island test ends with the items of ST_SAFE that failed (R372). -/
def execIslandTestEnd (fails : BitVec 6) (s : State) : Out :=
  .next (if s.sys.rstHigh ∧ (s.ist = Is.test ∨ s.ist = Is.reset) then
    let s := s.wr R.SAFE_STATE_STATE Is.test
    if fails = 0#6 then (s.wr R.SAFE_STATE_STATE Is.wait).islandUpdate else s.islandHalt 1
  else s)

/-- The set found in the exchange area, or the one the island or the firmware has put there (R405, R496). -/
def execParamSetPoll (found : Option (List ParamWord)) (s : State) : Out :=
  .next (if s.ist = Is.wait then
    match found.map fun l => l.map fun e => (e.1.toNat, e.2.toNat) with
    | some l => s.loadSet l
    | none => ((s.isl.area.map fun l => s.loadSet l).getD s)
  else s)

def execIslandLockstepMismatch (s : State) : Out := .next (s.islandHalt 2)

def execIslandWatchdogExpiry (s : State) : Out := .next (s.islandHalt 3)

def execIslandMemoryError (corrected : Bool) (s : State) : Out :=
  .next (if corrected then s.inc R.SAFE_DIAG_ECC_CNT else s.islandHalt 4)

def execIslandOscDeviation (absent : Bool) (dev : BitVec 8) (s : State) : Out :=
  .next (if s.ist = Is.reset then s
  else if absent then (s.put R.SAFE_DIAG_REF_ABSENT true).causesAre [(107, true)]
  else
    let s := (s.wr R.SAFE_DIAG_OSC_DEV dev.toNat).put R.SAFE_DIAG_REF_ABSENT false
    let d := (toSigned 8 dev.toNat).natAbs
    (s.causesAre [(107, decide (10 < d))]).when (decide (20 < d)) fun s => s.islandHalt 5)

def execSafeMonitorTrip (s : State) : Out :=
  .next { s with isl := { s.isl with monitor := true } }.islandUpdate

/-- One cycle: the pins are read, inputs, functions and outputs follow, and a committed set applies at its end. -/
def execIslandCycle (pins : SafePins) (s : State) : Out :=
  .next (if !s.islandUp then s
  else
    let s := { s with isl := { s.isl with dev := s.st } }
    let s := ((s.put R.MATE_LIVE_A (pins.mate.getLsbD 0)).put R.MATE_LIVE_B (pins.mate.getLsbD 1)).wr R.TP_STATUS_FB pins.tp.toNat
    let s := s.forN 2 fun n s => ((s.put (R.SO_STATUS_HS_RB n) (pins.readback.getLsbD (2 * n))).put (R.SO_STATUS_LS_RB n)
      (pins.readback.getLsbD (2 * n + 1))).put (R.SO_STATUS_FBK n) (pins.feedback.getLsbD n)
    let s := (s.forN 8 fun n s => s.siCycle n).noteAgreement
    let still := s.on (R.SI_STATUS_DEMAND (s.rd R.BT_CFG_STILL_IN))
    let s := { s with isl := { s.isl with btBad := s.isl.btBad || (s.isl.bt == 2 && still) } }
    s.islandUpdate.applyCommit.islandUpdate)

def execSafeInputFilter (input : Fin 8) (chanB level : Bool) (s : State) : Out :=
  .next (if !s.islandUp || s.siHeld input chanB then s
  else
    (s.put (if chanB then R.SI_STATUS_LVL_B input else R.SI_STATUS_LVL_A input) level).noteAgreement)

def execDiscrepancyFault (input : Fin 8) (s : State) : Out :=
  .next (if s.islandUp && s.siTooLong input then
    ((s.put (R.SI_STATUS_DISC_FLT input) true).siDemand input).islandUpdate
  else s)

/-- A test pulse goes dark: its window opens, the samples before it are kept, and TP0 begins a blotter cycle (R377 to R379,
R381). -/
def execTestPulseDark (tp : Fin 4) (samples : BitVec 16) (s : State) : Out :=
  .next (if !s.islandUp then s
  else
    let i := s.isl
    let i := if tp.val = 0 then { i with badLast := i.badNow, badNow := 0, tpLast := i.tpNow, tpNow := 0 } else i
    { s with isl := { i with excl := putBit i.excl tp true, pre := samples.toNat, low := 0 } })

/-- The check instant: a checked channel of its own pulse that reads high is stuck; one of another pulse that reads low is
looked at again (R379). -/
def execTestPulseCheck (tp : Fin 4) (samples : BitVec 16) (s : State) : Out :=
  .next (if !s.islandUp then s
  else
    (s.forN 16 fun k s =>
      let n := k / 2
      let b := k % 2 == 1
      match s.siTp n b with
      | none => s
      | some t =>
        if !bitOf s.isl.pre k then s
        else if t = tp.val then
          s.when (samples.getLsbD k) fun s =>
            let s := s.put (if b then R.SI_STATUS_STUCK_B n else R.SI_STATUS_STUCK_A n) true
            { s with isl := { s.isl with badNow := putBit s.isl.badNow n true } }.siDemand n
        else if samples.getLsbD k then s
        else { s with isl := { s.isl with low := putBit s.isl.low k true } }).islandUpdate)

/-- The window closes; a channel of another pulse that is high again is cross-shorted, one still low is open (R379). -/
def execTestPulseSettleCheck (tp : Fin 4) (samples : BitVec 16) (s : State) : Out :=
  .next (if !s.islandUp then s
  else
    let low := s.isl.low
    let s := { s with isl := { s.isl with excl := putBit s.isl.excl tp false, low := 0 } }
    (s.forN 16 fun k s =>
      let n := k / 2
      let b := k % 2 == 1
      s.when (bitOf low k && samples.getLsbD k) fun s =>
        let s := (s.put (if b then R.SI_STATUS_XS_B n else R.SI_STATUS_XS_A n) true).wr
          (if b then R.SI_STATUS_XS_TP_B n else R.SI_STATUS_XS_TP_A n) tp
        { s with isl := { s.isl with badNow := putBit s.isl.badNow n true } }.siDemand n).islandUpdate)

def execTpFeedbackFault (tp : Fin 4) (level : Bool) (s : State) : Out :=
  .next (if !s.islandUp then s
  else
    let s := (s.putBit R.TP_STATUS_TP_FLT tp true).putBit R.TP_STATUS_FB tp level
    let s := { s with isl := { s.isl with tpNow := putBit s.isl.tpNow tp true } }
    (s.forN 8 fun n s => s.when (s.siTp n false == some tp.val || s.siTp n true == some tp.val) fun s =>
      (s.put (R.SI_STATUS_TP_FLT n) true).siDemand n).islandUpdate)

/-- SRST_N has been low for its filter time (R382). -/
def execResetButtonPress (s : State) : Out :=
  .next (if !s.islandUp then s
  else
    let s := s.put R.SAFE_RST_PRESSED true
    { s with isl := { s.isl with press := some s.now, stuck := false } }.setAgree 8)

def execResetButtonRelease (s : State) : Out :=
  .next (match s.isl.press with
  | none => s
  | some t =>
    let stuck := s.isl.stuck
    let s' := { s.put R.SAFE_RST_PRESSED false with isl := { (s.put R.SAFE_RST_PRESSED false).isl with press := none, stuck := false } }
    if !s.islandUp then s'
    else if stuck then (s'.put R.SAFE_STATE_RST_STUCK false).islandUpdate
    else if s.on R.SAFE_RST_PIN_EN && s.validPress t then s'.validReset (mapGet (fun _ => 0) s.isl.agree 8)
    else s')

/-- A press of SRST_N, or of the RESET bit of a connection, reaches 5.0 s (R382). -/
def execResetStuck (conn : Option (Fin 8)) (s : State) : Out :=
  .next (if !s.islandUp then s
  else
    match conn with
    | none =>
      if s.isl.press.isNone || !s.on R.SAFE_RST_PIN_EN then s
      else { s.put R.SAFE_STATE_RST_STUCK true with isl := { (s.put R.SAFE_STATE_RST_STUCK true).isl with stuck := true } }.islandUpdate
    | some c =>
      if (s.conn c).press.isNone then s
      else ((s.put R.SAFE_STATE_RST_STUCK true).setConn c { s.conn c with stuck := true }).islandUpdate)

/-- A readback has differed from its drive for longer than RB_T; a test window of the channel hides it (R385). -/
def execOutputReadbackFault (out : Fin 2) (low level : Bool) (s : State) : Out :=
  .next (if !s.islandUp || mapGet (fun _ => none) s.isl.test out != none then s
  else
    let s := s.put (if low then R.SO_STATUS_LS_RB out else R.SO_STATUS_HS_RB out) level
    let drv := s.on (if low then R.SO_STATUS_LS_DRV out else R.SO_STATUS_HS_DRV out)
    if drv = level then s else (s.put (R.SO_STATUS_RB_FLT out) true).islandUpdate)

/-- A dark or light test turns one switch over (R386); a channel with FUNC = 0 is never tested. -/
def execOutputTestStart (out : Fin 2) (low : Bool) (s : State) : Out :=
  .next (if s.ist ≠ Is.run ∨ s.rd (R.SO_CFG_FUNC out) = 0 ∨ mapGet (fun _ => none) s.isl.test out ≠ none then s
  else
    (s.setTest out (some low)).put (if low then R.SO_STATUS_LS_DRV out else R.SO_STATUS_HS_DRV out)
      (!s.on (R.SO_STATUS_ENERGISED out)))

/-- The end of a test window: the readback must follow the test, and the switch turns back (R386). -/
def execOutputTestEnd (out : Fin 2) (level : Bool) (s : State) : Out :=
  .next (match mapGet (fun _ => none) s.isl.test out with
  | none => s
  | some low =>
    let e := s.on (R.SO_STATUS_ENERGISED out)
    let s := (s.setTest out none).put (if low then R.SO_STATUS_LS_DRV out else R.SO_STATUS_HS_DRV out) e
    if level = !e then s.inc (R.SO_STATUS_DP_CNT out) else (s.put (R.SO_STATUS_DP_FLT out) true).islandUpdate)

/-- The feedback after a change of the channel, or at any time after it (R387). -/
def execOutputFeedbackCheck (out : Fin 2) (level : Bool) (s : State) : Out :=
  .next (if !s.islandUp then s
  else
    let s := s.put (R.SO_STATUS_FBK out) level
    match s.fbkExpected out with
    | none => s
    | some e =>
      if e = level then s
      else ((s.put (R.SO_STATUS_FBK_FLT out) true).when (s.rd (R.SO_CFG_FUNC out) == 1) fun s =>
        s.put (R.SO_STATUS_OPEN_FAIL out) true).islandUpdate)

def execSbcBlockDelay (s : State) : Out :=
  .next (if s.islandUp && s.on R.SAFE_STATE_SBC && s.on R.SBC_CFG_SBC_MODE then
    { s with isl := { s.isl with sbcBlock := true } }.islandUpdate
  else s)

/-- FBK_T into the brake test each brake channel must show its brake applied (R393). -/
def execBrakeTestFeedback (levels : BitVec 2) (s : State) : Out :=
  .next (if s.isl.bt ≠ 1 then s
  else
    let ok := (upto 2).all fun n => s.rd (R.SO_CFG_FUNC n) != 2 || levels.getLsbD n == !s.on (R.SO_CFG_FBK_POL n)
    if ok then { s.put R.BT_STATUS_RUNNING true with isl := { (s.put R.BT_STATUS_RUNNING true).isl with bt := 2 } }
    else s.failBrakeTest.islandUpdate)

def execBrakeTestEnd (s : State) : Out :=
  .next (if s.isl.bt ≠ 2 then s
  else if s.isl.btBad then s.failBrakeTest.islandUpdate
  else
    let s := { s with isl := { s.isl with bt := 0 } }
    let s := (((s.put R.BT_STATUS_RUNNING false).put R.BT_STATUS_PASSED true).put R.BT_STATUS_DUE false).put R.BT_STATUS_INHIBIT
      false
    (s.wr R.BT_STATUS_HOURS 0).islandUpdate)

/-- An hour in RUN (R393); BT_INT = 0 asks for no test. -/
def execBrakeTestHour (s : State) : Out :=
  .next (if s.ist ≠ Is.run then s
  else
    let s := s.inc R.BT_STATUS_HOURS
    let h := s.rd R.BT_STATUS_HOURS
    let bt := s.rd R.BT_CFG_BT_INT
    let s := s.when (bt != 0 && decide (bt ≤ h)) fun s => s.put R.BT_STATUS_DUE true
    (s.when (bt != 0 && decide (bt + s.rd R.BT_CFG_BT_GRACE ≤ h)) fun s => s.put R.BT_STATUS_INHIBIT true).islandUpdate)

def execMateNotLive (chanB : Bool) (s : State) : Out :=
  .next (if s.islandUp then (s.put (if chanB then R.MATE_LIVE_B else R.MATE_LIVE_A) false).islandUpdate else s)

def execMateFault (s : State) : Out :=
  .next (if s.islandUp && s.on R.MATE_MATE_EN && s.on R.MATE_LIVE_A != s.on R.MATE_LIVE_B then
    (s.put R.MATE_MATE_FLT true).islandUpdate
  else s)

def execTelegramReceived (path : TelegramPath) (bytes : List Byte) (s : State) : Out := .next (s.telegramIn path bytes)

/-- The first copy held is discarded where no second copy came (R399). -/
def execTelegramSkewExpiry (conn : Fin 8) (s : State) : Out :=
  .next (match (s.conn conn).held with
  | [] => s
  | _ :: r => (s.inc (R.CONN_ERR_SINGLE conn)).setConn conn { s.conn conn with held := r })

def execConnectionWatchdog (conn : Fin 8) (s : State) : Out :=
  .next (if s.islandUp && (s.rd (R.CONN_STATE_CSTATE conn) == 1 || s.rd (R.CONN_STATE_CSTATE conn) == 2) then
    (s.connLost conn).islandUpdate
  else s)

def execTelegramSend (conn : Fin 8) (s : State) : Out := .next (s.telegramOut conn)

def execParamStage (conn : Fin 8) (payload : List Byte) (s : State) : Out :=
  .next (if s.on (R.CONN_CFG_PARAM_EN conn) && s.islandUp then s.paramStageOp conn payload else s)

def execParamCommit (conn : Fin 8) (payload : List Byte) (s : State) : Out :=
  .next (if s.on (R.CONN_CFG_PARAM_EN conn) && s.islandUp then s.paramCommitOp conn payload else s)

def execParamAbort (conn : Fin 8) (payload : List Byte) (s : State) : Out :=
  .next (if s.on (R.CONN_CFG_PARAM_EN conn) && s.islandUp then s.paramAbortOp conn payload else s)

def execParamRead (conn : Fin 8) (payload : List Byte) (s : State) : Out :=
  .next (if s.on (R.CONN_CFG_PARAM_EN conn) && s.islandUp then s.paramReadOp conn payload else s)

def execParamTransactionTimeout (s : State) : Out :=
  .next (if s.on R.PT_STATUS_OPEN then s.closeTransaction else s)

end Sys2Proof.Machine
end

