-- ==== Sys2Proof/Machine/Dispatch.lean ====
section
/-! DEFINITION. Which meaning each command has: one arm per constructor of Instr, one direct call each. -/

namespace Sys2Proof.Machine

def exec (i : Instr) (s : State) : Host.Outcome State Fault Refusal :=
  match i with
  | .powerOn => Sys2Proof.Machine.execPowerOn s
  | .sysRstNLow => Sys2Proof.Machine.execSysRstNLow s
  | .sysRstNHigh pairId => Sys2Proof.Machine.execSysRstNHigh pairId s
  | .selfTestEnd report => Sys2Proof.Machine.execSelfTestEnd report s
  | .selfTestTimeout step => Sys2Proof.Machine.execSelfTestTimeout step s
  | .secureStartEnd res => Sys2Proof.Machine.execSecureStartEnd res s
  | .configure via => Sys2Proof.Machine.execConfigure via s
  | .energise via => Sys2Proof.Machine.execEnergise via s
  | .prepDeadline => Sys2Proof.Machine.execPrepDeadline s
  | .energiseTakesEffect samples => Sys2Proof.Machine.execEnergiseTakesEffect samples s
  | .deblock via => Sys2Proof.Machine.execDeblock via s
  | .drydown via => Sys2Proof.Machine.execDrydown via s
  | .dryWaitEnd => Sys2Proof.Machine.execDryWaitEnd s
  | .dryArmBlock arm => Sys2Proof.Machine.execDryArmBlock arm s
  | .dryTimeout => Sys2Proof.Machine.execDryTimeout s
  | .clear via => Sys2Proof.Machine.execClear via s
  | .deenergise via => Sys2Proof.Machine.execDeenergise via s
  | .restart via key => Sys2Proof.Machine.execRestart via key s
  | .periodBoundary samples follow => Sys2Proof.Machine.execPeriodBoundary samples follow s
  | .collectionLaunch port => Sys2Proof.Machine.execCollectionLaunch port s
  | .controlEngineWindow errors => Sys2Proof.Machine.execControlEngineWindow errors s
  | .levelEngineWindow => Sys2Proof.Machine.execLevelEngineWindow s
  | .cellAdmission cell => Sys2Proof.Machine.execCellAdmission cell s
  | .cellMissIneligible cell => Sys2Proof.Machine.execCellMissIneligible cell s
  | .bypassRequest cell => Sys2Proof.Machine.execBypassRequest cell s
  | .epochBypass cell => Sys2Proof.Machine.execEpochBypass cell s
  | .swcDecay => Sys2Proof.Machine.execSwcDecay s
  | .rotationBar cell => Sys2Proof.Machine.execRotationBar cell s
  | .commandLaunch port => Sys2Proof.Machine.execCommandLaunch port s
  | .lvlSyncInEdge => Sys2Proof.Machine.execLvlSyncInEdge s
  | .cellHoldLimit cell => Sys2Proof.Machine.execCellHoldLimit cell s
  | .cellBoundary cell => Sys2Proof.Machine.execCellBoundary cell s
  | .pwmPartEnd cell => Sys2Proof.Machine.execPwmPartEnd cell s
  | .carrierCrossing cell leg => Sys2Proof.Machine.execCarrierCrossing cell leg s
  | .deadTimeEnd cell gate => Sys2Proof.Machine.execDeadTimeEnd cell gate s
  | .maskOpen cell => Sys2Proof.Machine.execMaskOpen cell s
  | .maskOpenMax cell => Sys2Proof.Machine.execMaskOpenMax cell s
  | .horizonPlayedOut cell => Sys2Proof.Machine.execHorizonPlayedOut cell s
  | .synciEdge cell => Sys2Proof.Machine.execSynciEdge cell s
  | .syncLost cell => Sys2Proof.Machine.execSyncLost cell s
  | .comparatorActive cell cmp => Sys2Proof.Machine.execComparatorActive cell cmp s
  | .comparatorInactive cell cmp => Sys2Proof.Machine.execComparatorInactive cell cmp s
  | .hwBypass cell => Sys2Proof.Machine.execHwBypass cell s
  | .tripClear cell value => Sys2Proof.Machine.execTripClear cell value s
  | .gateReadbackFault cell gate => Sys2Proof.Machine.execGateReadbackFault cell gate s
  | .bypReadbackFault cell => Sys2Proof.Machine.execBypReadbackFault cell s
  | .bypCmd cell value => Sys2Proof.Machine.execBypCmd cell value s
  | .bypAssert cell => Sys2Proof.Machine.execBypAssert cell s
  | .vsupReset cell => Sys2Proof.Machine.execVsupReset cell s
  | .supervisorRelease cell bridge => Sys2Proof.Machine.execSupervisorRelease cell bridge s
  | .cellSelfTestEnd cell pass => Sys2Proof.Machine.execCellSelfTestEnd cell pass s
  | .cellSelfTestTimeout cell => Sys2Proof.Machine.execCellSelfTestTimeout cell s
  | .cellFrameTimeout cell => Sys2Proof.Machine.execCellFrameTimeout cell s
  | .blockLock link => Sys2Proof.Machine.execBlockLock link s
  | .blockLockLoss link => Sys2Proof.Machine.execBlockLockLoss link s
  | .upstreamSelected cell port d2 d3 => Sys2Proof.Machine.execUpstreamSelected cell port d2 d3 s
  | .segmentTrained link d2 d3 members prop => Sys2Proof.Machine.execSegmentTrained link d2 d3 members prop s
  | .trainFail port => Sys2Proof.Machine.execTrainFail port s
  | .blockOrderedSet cell port d2 d3 => Sys2Proof.Machine.execBlockOrderedSet cell port d2 d3 s
  | .commandFrameAtCell cell port frame => Sys2Proof.Machine.execCommandFrameAtCell cell port frame s
  | .collectionFrameAtCell cell port frame => Sys2Proof.Machine.execCollectionFrameAtCell cell port frame s
  | .upstreamOriginate cell => Sys2Proof.Machine.execUpstreamOriginate cell s
  | .statusLatch cell => Sys2Proof.Machine.execStatusLatch cell s
  | .collectionFrameReceived port frame => Sys2Proof.Machine.execCollectionFrameReceived port frame s
  | .commandFrameAtTail port frame => Sys2Proof.Machine.execCommandFrameAtTail port frame s
  | .mbGo port => Sys2Proof.Machine.execMbGo port s
  | .mbRead cell => Sys2Proof.Machine.execMbRead cell s
  | .mbWrite cell => Sys2Proof.Machine.execMbWrite cell s
  | .mbReadClear cell => Sys2Proof.Machine.execMbReadClear cell s
  | .mbCmdReset cell => Sys2Proof.Machine.execMbCmdReset cell s
  | .mbCmdBypass cell => Sys2Proof.Machine.execMbCmdBypass cell s
  | .mbMaskedWrite cell => Sys2Proof.Machine.execMbMaskedWrite cell s
  | .mbIdentify cell => Sys2Proof.Machine.execMbIdentify cell s
  | .mbAccept cell => Sys2Proof.Machine.execMbAccept cell s
  | .mbResponse port => Sys2Proof.Machine.execMbResponse port s
  | .mbTimeout port => Sys2Proof.Machine.execMbTimeout port s
  | .errClr port => Sys2Proof.Machine.execErrClr port s
  | .lnkClr cell => Sys2Proof.Machine.execLnkClr cell s
  | .enumStart port => Sys2Proof.Machine.execEnumStart port s
  | .enumAccept port value => Sys2Proof.Machine.execEnumAccept port value s
  | .cellJoinRetry cell => Sys2Proof.Machine.execCellJoinRetry cell s
  | .conversionDone cell kind raw range => Sys2Proof.Machine.execConversionDone cell kind raw range s
  | .injReq cell ch urgent => Sys2Proof.Machine.execInjReq cell ch urgent s
  | .calZero cell ch => Sys2Proof.Machine.execCalZero cell ch s
  | .calFull cell ch ref => Sys2Proof.Machine.execCalFull cell ch ref s
  | .calAbort cell => Sys2Proof.Machine.execCalAbort cell s
  | .calStepDone cell => Sys2Proof.Machine.execCalStepDone cell s
  | .openWireTest cell ch => Sys2Proof.Machine.execOpenWireTest cell ch s
  | .openWireDone cell ref test refRange testRange => Sys2Proof.Machine.execOpenWireDone cell ref test refRange testRange s
  | .sarFault n => Sys2Proof.Machine.execSarFault n s
  | .sdClkLoss d => Sys2Proof.Machine.execSdClkLoss d s
  | .sdModFault d level => Sys2Proof.Machine.execSdModFault d level s
  | .piEdge n a b => Sys2Proof.Machine.execPiEdge n a b s
  | .piCntPreset n value => Sys2Proof.Machine.execPiCntPreset n value s
  | .gpioEdge line level => Sys2Proof.Machine.execGpioEdge line level s
  | .gpioChatterRelease line => Sys2Proof.Machine.execGpioChatterRelease line s
  | .gpioStuck line => Sys2Proof.Machine.execGpioStuck line s
  | .gpioRateWrite line stuck value => Sys2Proof.Machine.execGpioRateWrite line stuck value s
  | .evtNext => Sys2Proof.Machine.execEvtNext s
  | .spValueWrite c value => Sys2Proof.Machine.execSpValueWrite c value s
  | .setpointLost c => Sys2Proof.Machine.execSetpointLost c s
  | .feedbackTimeoutDrop ctx j => Sys2Proof.Machine.execFeedbackTimeoutDrop ctx j s
  | .frozenDrop ctx j => Sys2Proof.Machine.execFrozenDrop ctx j s
  | .gateDrop ctx j => Sys2Proof.Machine.execGateDrop ctx j s
  | .autoReadmit ctx j => Sys2Proof.Machine.execAutoReadmit ctx j s
  | .coastDrop ctx mask => Sys2Proof.Machine.execCoastDrop ctx mask s
  | .coastReadmit ctx mask => Sys2Proof.Machine.execCoastReadmit ctx mask s
  | .coastLimit ctx => Sys2Proof.Machine.execCoastLimit ctx s
  | .descriptorWrite addr value => Sys2Proof.Machine.execDescriptorWrite addr value s
  | .swap loadX0 => Sys2Proof.Machine.execSwap loadX0 s
  | .loadX0 => Sys2Proof.Machine.execLoadX0 s
  | .forceOvr ctx => Sys2Proof.Machine.execForceOvr ctx s
  | .clearPeak => Sys2Proof.Machine.execClearPeak s
  | .clearOvrCount => Sys2Proof.Machine.execClearOvrCount s
  | .clearNumCount => Sys2Proof.Machine.execClearNumCount s
  | .clearCtxCounts => Sys2Proof.Machine.execClearCtxCounts s
  | .coefApertureAccess word write => Sys2Proof.Machine.execCoefApertureAccess word write s
  | .tieLaneTrained lane lowest highest d2 => Sys2Proof.Machine.execTieLaneTrained lane lowest highest d2 s
  | .tieLinkDown => Sys2Proof.Machine.execTieLinkDown s
  | .tieHoldExpiry => Sys2Proof.Machine.execTieHoldExpiry s
  | .tieWaitExpiry => Sys2Proof.Machine.execTieWaitExpiry s
  | .inputMessage lane message => Sys2Proof.Machine.execInputMessage lane message s
  | .lvlwMessage lane message => Sys2Proof.Machine.execLvlwMessage lane message s
  | .slotReq lane message => Sys2Proof.Machine.execSlotReq lane message s
  | .slotMessage lane message => Sys2Proof.Machine.execSlotMessage lane message s
  | .digest lane message => Sys2Proof.Machine.execDigest lane message s
  | .tailframe lane message => Sys2Proof.Machine.execTailframe lane message s
  | .controlYield lane message => Sys2Proof.Machine.execControlYield lane message s
  | .controlTakeover lane message => Sys2Proof.Machine.execControlTakeover lane message s
  | .controlRole lane message => Sys2Proof.Machine.execControlRole lane message s
  | .controlBroken lane message => Sys2Proof.Machine.execControlBroken lane message s
  | .controlIntact lane message => Sys2Proof.Machine.execControlIntact lane message s
  | .sweep lane message => Sys2Proof.Machine.execSweep lane message s
  | .image lane message => Sys2Proof.Machine.execImage lane message s
  | .mailboxMessage lane message => Sys2Proof.Machine.execMailboxMessage lane message s
  | .healthMessage lane message => Sys2Proof.Machine.execHealthMessage lane message s
  | .yieldInChange level => Sys2Proof.Machine.execYieldInChange level s
  | .takeover => Sys2Proof.Machine.execTakeover s
  | .yieldPinFault => Sys2Proof.Machine.execYieldPinFault s
  | .strandBroken port => Sys2Proof.Machine.execStrandBroken port s
  | .strandIntact port => Sys2Proof.Machine.execStrandIntact port s
  | .tailTrainingStart port => Sys2Proof.Machine.execTailTrainingStart port s
  | .joinImageComplete state => Sys2Proof.Machine.execJoinImageComplete state s
  | .joinComplete => Sys2Proof.Machine.execJoinComplete s
  | .tieSwitch key => Sys2Proof.Machine.execTieSwitch key s
  | .tieDemote key => Sys2Proof.Machine.execTieDemote key s
  | .tieJoin key => Sys2Proof.Machine.execTieJoin key s
  | .tieClr => Sys2Proof.Machine.execTieClr s
  | .healthSend => Sys2Proof.Machine.execHealthSend s
  | .healthLate => Sys2Proof.Machine.execHealthLate s
  | .dualHead => Sys2Proof.Machine.execDualHead s
  | .accordPortTrained port lowest highest d2 prop ownPair => Sys2Proof.Machine.execAccordPortTrained port lowest highest d2 prop ownPair s
  | .accordFrameForward port frame => Sys2Proof.Machine.execAccordFrameForward port frame s
  | .agg port frame => Sys2Proof.Machine.execAgg port frame s
  | .dist port frame => Sys2Proof.Machine.execDist port frame s
  | .stage port frame => Sys2Proof.Machine.execStage port frame s
  | .ack port frame => Sys2Proof.Machine.execAck port frame s
  | .commit port frame => Sys2Proof.Machine.execCommit port frame s
  | .cancel port frame => Sys2Proof.Machine.execCancel port frame s
  | .odreq port frame => Sys2Proof.Machine.execOdreq port frame s
  | .odrsp port frame => Sys2Proof.Machine.execOdrsp port frame s
  | .odrspTimeout tag => Sys2Proof.Machine.execOdrspTimeout tag s
  | .leadElection level cand => Sys2Proof.Machine.execLeadElection level cand s
  | .stageDeadline => Sys2Proof.Machine.execStageDeadline s
  | .activationInstant => Sys2Proof.Machine.execActivationInstant s
  | .stageRevert => Sys2Proof.Machine.execStageRevert s
  | .accordMemberLost level member => Sys2Proof.Machine.execAccordMemberLost level member s
  | .accordLeadLost level => Sys2Proof.Machine.execAccordLeadLost level s
  | .acqFrameArm port frame => Sys2Proof.Machine.execAcqFrameArm port frame s
  | .acqFrameReq port frame => Sys2Proof.Machine.execAcqFrameReq port frame s
  | .acqFrameTrig port frame => Sys2Proof.Machine.execAcqFrameTrig port frame s
  | .acqFrameClosed port frame => Sys2Proof.Machine.execAcqFrameClosed port frame s
  | .acqFrameDisarm port frame => Sys2Proof.Machine.execAcqFrameDisarm port frame s
  | .timSetGo value => Sys2Proof.Machine.execTimSetGo value s
  | .ptpMessage port domain msg => Sys2Proof.Machine.execPtpMessage port domain msg s
  | .announceTimeout => Sys2Proof.Machine.execAnnounceTimeout s
  | .holdoverLimit => Sys2Proof.Machine.execHoldoverLimit s
  | .txtsNext port => Sys2Proof.Machine.execTxtsNext port s
  | .launchPush port value => Sys2Proof.Machine.execLaunchPush port value s
  | .timedLaunch port => Sys2Proof.Machine.execTimedLaunch port s
  | .dlyReq link d2 d3 => Sys2Proof.Machine.execDlyReq link d2 d3 s
  | .dlyRspSend link => Sys2Proof.Machine.execDlyRspSend link s
  | .dlyRsp link d2 d3 rtt => Sys2Proof.Machine.execDlyRsp link d2 d3 rtt s
  | .tmArm cell per frac => Sys2Proof.Machine.execTmArm cell per frac s
  | .tmBoundWrite cell value => Sys2Proof.Machine.execTmBoundWrite cell value s
  | .vddSafePowerOn => Sys2Proof.Machine.execVddSafePowerOn s
  | .islandTestEnd fails => Sys2Proof.Machine.execIslandTestEnd fails s
  | .paramSetPoll found => Sys2Proof.Machine.execParamSetPoll found s
  | .islandLockstepMismatch => Sys2Proof.Machine.execIslandLockstepMismatch s
  | .islandWatchdogExpiry => Sys2Proof.Machine.execIslandWatchdogExpiry s
  | .islandMemoryError corrected => Sys2Proof.Machine.execIslandMemoryError corrected s
  | .islandOscDeviation absent dev => Sys2Proof.Machine.execIslandOscDeviation absent dev s
  | .safeMonitorTrip => Sys2Proof.Machine.execSafeMonitorTrip s
  | .islandCycle pins => Sys2Proof.Machine.execIslandCycle pins s
  | .safeInputFilter input chanB level => Sys2Proof.Machine.execSafeInputFilter input chanB level s
  | .discrepancyFault input => Sys2Proof.Machine.execDiscrepancyFault input s
  | .testPulseDark tp samples => Sys2Proof.Machine.execTestPulseDark tp samples s
  | .testPulseCheck tp samples => Sys2Proof.Machine.execTestPulseCheck tp samples s
  | .testPulseSettleCheck tp samples => Sys2Proof.Machine.execTestPulseSettleCheck tp samples s
  | .tpFeedbackFault tp level => Sys2Proof.Machine.execTpFeedbackFault tp level s
  | .resetButtonPress => Sys2Proof.Machine.execResetButtonPress s
  | .resetButtonRelease => Sys2Proof.Machine.execResetButtonRelease s
  | .resetStuck conn => Sys2Proof.Machine.execResetStuck conn s
  | .outputReadbackFault out low level => Sys2Proof.Machine.execOutputReadbackFault out low level s
  | .outputTestStart out low => Sys2Proof.Machine.execOutputTestStart out low s
  | .outputTestEnd out level => Sys2Proof.Machine.execOutputTestEnd out level s
  | .outputFeedbackCheck out level => Sys2Proof.Machine.execOutputFeedbackCheck out level s
  | .sbcBlockDelay => Sys2Proof.Machine.execSbcBlockDelay s
  | .brakeTestFeedback levels => Sys2Proof.Machine.execBrakeTestFeedback levels s
  | .brakeTestEnd => Sys2Proof.Machine.execBrakeTestEnd s
  | .brakeTestHour => Sys2Proof.Machine.execBrakeTestHour s
  | .mateNotLive chanB => Sys2Proof.Machine.execMateNotLive chanB s
  | .mateFault => Sys2Proof.Machine.execMateFault s
  | .telegramReceived path bytes => Sys2Proof.Machine.execTelegramReceived path bytes s
  | .telegramSkewExpiry conn => Sys2Proof.Machine.execTelegramSkewExpiry conn s
  | .connectionWatchdog conn => Sys2Proof.Machine.execConnectionWatchdog conn s
  | .telegramSend conn => Sys2Proof.Machine.execTelegramSend conn s
  | .paramStage conn payload => Sys2Proof.Machine.execParamStage conn payload s
  | .paramCommit conn payload => Sys2Proof.Machine.execParamCommit conn payload s
  | .paramAbort conn payload => Sys2Proof.Machine.execParamAbort conn payload s
  | .paramRead conn payload => Sys2Proof.Machine.execParamRead conn payload s
  | .paramTransactionTimeout => Sys2Proof.Machine.execParamTransactionTimeout s
  | .faultSourceRaise events => Sys2Proof.Machine.execFaultSourceRaise events s
  | .faultCauseAbsent src => Sys2Proof.Machine.execFaultCauseAbsent src s
  | .fltStatClear w mask => Sys2Proof.Machine.execFltStatClear w mask s
  | .fltInject src key => Sys2Proof.Machine.execFltInject src key s
  | .fltRearm => Sys2Proof.Machine.execFltRearm s
  | .fltClrAll key => Sys2Proof.Machine.execFltClrAll key s
  | .fltApp => Sys2Proof.Machine.execFltApp s
  | .fltSrcConfig src win value => Sys2Proof.Machine.execFltSrcConfig src win value s
  | .cellSourceLatch cell src => Sys2Proof.Machine.execCellSourceLatch cell src s
  | .cfltStatClear cell mask => Sys2Proof.Machine.execCfltStatClear cell mask s
  | .cfltRearm cell => Sys2Proof.Machine.execCfltRearm cell s
  | .acqArm => Sys2Proof.Machine.execAcqArm s
  | .acqDisarm => Sys2Proof.Machine.execAcqDisarm s
  | .acqForce => Sys2Proof.Machine.execAcqForce s
  | .acqEvaluation => Sys2Proof.Machine.execAcqEvaluation s
  | .sequencerMatch => Sys2Proof.Machine.execSequencerMatch s
  | .sequencerTimeout => Sys2Proof.Machine.execSequencerTimeout s
  | .recordClose copied => Sys2Proof.Machine.execRecordClose copied s
  | .acqMarkNext => Sys2Proof.Machine.execAcqMarkNext s
  | .acqClr => Sys2Proof.Machine.execAcqClr s
  | .ctrgForce cell => Sys2Proof.Machine.execCtrgForce cell s
  | .ctrgHoldoffEnd cell => Sys2Proof.Machine.execCtrgHoldoffEnd cell s
  | .lockstepMismatch hart => Sys2Proof.Machine.execLockstepMismatch hart s
  | .lockstepInject mask key missed => Sys2Proof.Machine.execLockstepInject mask key missed s
  | .lockstepInjectPeriodic missed => Sys2Proof.Machine.execLockstepInjectPeriodic missed s
  | .partitionFault hart => Sys2Proof.Machine.execPartitionFault hart s
  | .partitionBudgetExhausted hart => Sys2Proof.Machine.execPartitionBudgetExhausted hart s
  | .partWrite hart part => Sys2Proof.Machine.execPartWrite hart part s
  | .queueDepthWrite queue depth => Sys2Proof.Machine.execQueueDepthWrite queue depth s
  | .schPush master queue nb => Sys2Proof.Machine.execSchPush master queue nb s
  | .pushStallComplete master => Sys2Proof.Machine.execPushStallComplete master s
  | .pushBackpressureTimeout master => Sys2Proof.Machine.execPushBackpressureTimeout master s
  | .queueTick queue => Sys2Proof.Machine.execQueueTick queue s
  | .schGet hart => Sys2Proof.Machine.execSchGet hart s
  | .schGetWait hart => Sys2Proof.Machine.execSchGetWait hart s
  | .getWaitResume hart => Sys2Proof.Machine.execGetWaitResume hart s
  | .getWaitTimeout hart => Sys2Proof.Machine.execGetWaitTimeout hart s
  | .hartLoadUpdate hart busy cycles => Sys2Proof.Machine.execHartLoadUpdate hart busy cycles s
  | .schClr => Sys2Proof.Machine.execSchClr s
  | .counterWrap hart n => Sys2Proof.Machine.execCounterWrap hart n s
  | .counterWrite master hart n high value => Sys2Proof.Machine.execCounterWrite master hart n high value s
  | .pmcFreeze freeze advance => Sys2Proof.Machine.execPmcFreeze freeze advance s
  | .snapshotGo advance => Sys2Proof.Machine.execSnapshotGo advance s
  | .snapshotTimed advance => Sys2Proof.Machine.execSnapshotTimed advance s
  | .sramEccError access master addr corrected => Sys2Proof.Machine.execSramEccError access master addr corrected s
  | .protectedWrite master addr => Sys2Proof.Machine.execProtectedWrite master addr s
  | .memPwrWrite w value => Sys2Proof.Machine.execMemPwrWrite w value s
  | .bankPowerDone bank => Sys2Proof.Machine.execBankPowerDone bank s
  | .bgTestRegion => Sys2Proof.Machine.execBgTestRegion s
  | .bgTestRegionDone corrected uncorrectable march => Sys2Proof.Machine.execBgTestRegionDone corrected uncorrectable march s
  | .codeCheck bad => Sys2Proof.Machine.execCodeCheck bad s
  | .ddrInit => Sys2Proof.Machine.execDdrInit s
  | .ddrInitDone ok => Sys2Proof.Machine.execDdrInitDone ok s
  | .ddrTempRead temp => Sys2Proof.Machine.execDdrTempRead temp s
  | .ddrScrub => Sys2Proof.Machine.execDdrScrub s
  | .ddrEccError master addr corrected => Sys2Proof.Machine.execDdrEccError master addr corrected s
  | .secRoll type key vpp => Sys2Proof.Machine.execSecRoll type key vpp s
  | .secRevoke slot key vpp => Sys2Proof.Machine.execSecRevoke slot key vpp s
  | .fuseProgramDone => Sys2Proof.Machine.execFuseProgramDone s
  | .cellSramRetention cell => Sys2Proof.Machine.execCellSramRetention cell s
  | .cellBgTestRegion cell corrected uncorrectable march => Sys2Proof.Machine.execCellBgTestRegion cell corrected uncorrectable march s
  | .tempSample cell => Sys2Proof.Machine.execTempSample cell s
  | .hoursTick cell => Sys2Proof.Machine.execHoursTick cell s
  | .damageCalc cell => Sys2Proof.Machine.execDamageCalc cell s
  | .dailyHistory cell => Sys2Proof.Machine.execDailyHistory cell s
  | .healthRank => Sys2Proof.Machine.execHealthRank s
  | .healthImageSave => Sys2Proof.Machine.execHealthImageSave s
  | .hctlLoaded cell => Sys2Proof.Machine.execHctlLoaded cell s
  | .hcfgNomWrite cell esr value => Sys2Proof.Machine.execHcfgNomWrite cell esr value s
  | .ageingMeasure ratios => Sys2Proof.Machine.execAgeingMeasure ratios s
  | .ageHour => Sys2Proof.Machine.execAgeHour s
  | .odRead client index sub => Sys2Proof.Machine.execOdRead client index sub s
  | .odWrite client index sub data => Sys2Proof.Machine.execOdWrite client index sub data s
  | .odSelectWrite client index data => Sys2Proof.Machine.execOdSelectWrite client index data s
  | .odCellWrite client data => Sys2Proof.Machine.execOdCellWrite client data s
  | .odStore client data => Sys2Proof.Machine.execOdStore client data s
  | .odRestoreDefaults client data => Sys2Proof.Machine.execOdRestoreDefaults client data s
  | .odReplayClr => Sys2Proof.Machine.execOdReplayClr s
  | .calFullPoll cell => Sys2Proof.Machine.execCalFullPoll cell s
  | .usdoRequest port node index sub write => Sys2Proof.Machine.execUsdoRequest port node index sub write s
  | .canSessionIdle port node => Sys2Proof.Machine.execCanSessionIdle port node s
  | .heartbeat port => Sys2Proof.Machine.execHeartbeat port s
  | .hello d => Sys2Proof.Machine.execHello d s
  | .bye d => Sys2Proof.Machine.execBye d s
  | .udpRead d => Sys2Proof.Machine.execUdpRead d s
  | .udpWrite d => Sys2Proof.Machine.execUdpWrite d s
  | .dread d => Sys2Proof.Machine.execDread d s
  | .dwrite d => Sys2Proof.Machine.execDwrite d s
  | .setpoint d => Sys2Proof.Machine.execSetpoint d s
  | .udpSessionIdle slot => Sys2Proof.Machine.execUdpSessionIdle slot s
  | .arpRequest net asker target => Sys2Proof.Machine.execArpRequest net asker target s
  | .icmpEcho net source dest plain payload => Sys2Proof.Machine.execIcmpEcho net source dest plain payload s
  | .supplyMonitor supply => Sys2Proof.Machine.execSupplyMonitor supply s
  | .clockMonitorWindow ref sd0 sd1 => Sys2Proof.Machine.execClockMonitorWindow ref sd0 sd1 s
  | .registerWrite master addr width data => Sys2Proof.Machine.execRegisterWrite master addr width data s
  | .supplyMonitorsGood => Sys2Proof.Machine.execSupplyMonitorsGood s
  | .storeComplete ok => Sys2Proof.Machine.execStoreComplete ok s
  | .snapshotComplete => Sys2Proof.Machine.execSnapshotComplete s
  | .cellLiveCauseAbsent cell src => Sys2Proof.Machine.execCellLiveCauseAbsent cell src s

end Sys2Proof.Machine
end

