-- ==== Sys2Proof/Safety.lean ====
section
/-! DEFINITION. What claims about runs speak of: completion, the canonical form of the block's data, the parts of the state
that a command may touch, and when a cell or the block is safe. -/

namespace Sys2Proof.Machine

/-- The command completes: it answers a next state. -/
def Completes (o : Out) : Prop := ∃ t, o = .next t

/-- The command completes in a state with a property. -/
def Reaches (o : Out) (p : State → Prop) : Prop := ∃ t, o = .next t ∧ p t

/-- The register bank, the cells and the memory stand in their canonical form. -/
def State.Canonical (s : State) : Prop :=
  mapWf kcReset s.regs = true ∧ mapWf cellDefault s.cells = true ∧ mapWf memDefault s.mem.bytes = true

/-- The command completes, and all it does is to give the cell at `id` a content with a property: every other cell and every
other part of the state stays as it is. -/
def CellBecomes (o : Out) (s : State) (id : Nat) (p : Cell → Prop) : Prop := ∃ c, o = .next (s.setCell id c) ∧ p c

/-- The word at an address as it would stand after a write of a local master that every field admits; none where a field or
the address refuses it. -/
def State.wouldStand (s : State) (a v : Nat) : Option Nat :=
  match kcRow a with
  | none => none
  | some r => (r.write (s.word a) v s.writable false).toOption

/-- The bytes of the frame or datagram that the block sent last. -/
def State.lastBytes (s : State) : List Byte :=
  match s.sent with
  | .frame _ b :: _ | .cellFrame _ _ b :: _ | .tie _ b :: _ | .accord _ b :: _ | .station _ b :: _ | .udp _ _ _ b :: _
  | .can _ _ b :: _ => b
  | _ => []

/-- A good message of a type arrives on a trained lane of a tie link that carries messages. -/
def State.hears (s : State) (lane type : Nat) (m : List Byte) : Bool :=
  s.bit R.TIE_STATUS_LANES lane && !s.on R.TIE_STATUS_ID_CONFLICT && Msg.good m && Msg.type m == type

/-- A good accord frame of a type is at its destination on a live port and carries the TAG of a level entry. -/
def State.takesAccord (s : State) (k type l : Nat) (f : List Byte) : Bool :=
  s.accordLive k && Acf.hop f == Acf.hops f && Acf.good f && Acf.type f == type &&
    (s.levelEntries.find? fun l => s.rd (R.LVLE_W0_TAG l) == Acf.tag f) == some l

/-- The block has sent an image of its mirrored fields. -/
def State.sentImage (s : State) : Bool := s.sent.any fun e => match e with
  | .image _ => true
  | _ => false

/-- The object service would take up an access of client `c`, whose session is `x`, at once and on this unit. -/
abbrev State.ObjectsReady (s : State) (c : Client) (x : Session) : Prop :=
  s.odServes = true ∧ s.on R.ST_SUMMARY_SECURE_FAIL = false ∧ s.session c = some x ∧ s.od.jobs = [] ∧ s.od.answers = [] ∧ s.on R.ACD_CFG_EN = false

/-- A good datagram of an open session, which has nothing in service, reaches the UDP service (R541, R542, R544). -/
abbrev State.InSession (s : State) (d : Datagram) (x : Session) : Prop :=
  s.forService d = true ∧ Dg.sound d.bytes = true ∧ (s.od.sessions.find? fun y => y.isUdp && y.id == Dg.session d.bytes) = some x ∧
    Dg.ver d.bytes = x.ver ∧ s.session x.client = some x ∧ s.od.jobs = [] ∧ s.od.answers = [] ∧ s.on R.ACD_CFG_EN = false ∧
    s.on R.ST_SUMMARY_SECURE_FAIL = false

/-- The answer to a datagram has left for its source. -/
abbrev State.answered (s : State) (d : Datagram) (bytes : List Byte) (sent : List Emission) : Prop :=
  s.sent = .udp d.net d.source.toNat d.sourcePort.toNat bytes :: sent

/-- The safe outputs and the BLOCK path follow the safety functions (R371, R384, R388 to R392): no output is energised under
its function, a fault of its own or outside RUN; Safe Trip brings the other two; the BLOCK path and the SAFE_BLOCK line
stand under Safe Block. -/
abbrev State.SafeSide (s : State) : Prop :=
  (∀ n, n < 2 → s.on (R.SO_STATUS_ENERGISED n) = true → s.ist = 3 ∧ s.soFault n = false ∧ s.isl.monitor = false ∧
    ((s.rd (R.SO_CFG_FUNC n) = 1 ∧ s.on R.SAFE_STATE_ST = false) ∨ (s.rd (R.SO_CFG_FUNC n) = 2 ∧ s.on R.SAFE_STATE_SBC = false))) ∧
  (s.on R.SAFE_STATE_ST = true → s.on R.SAFE_STATE_SB = true ∧ s.on R.SAFE_STATE_SBC = true) ∧
  (s.islandUp = false → s.on R.SAFE_STATE_SB = true ∧ s.on R.SAFE_STATE_ST = true) ∧
  s.sys.hardBlock = (s.on R.SAFE_STATE_SB || s.isl.monitor) ∧ s.on R.DEV_STATE_SAFE_BLOCK = s.on R.SAFE_STATE_SB

/-- No gate of the cell is on. -/
abbrev Cell.GatesOff (c : Cell) : Prop := c.rd K.PWM_STATUS_GATES = 0

/-- No leg of the cell has both of its gates on, or both demanded. -/
def Cell.LegsApart (c : Cell) : Prop :=
  ∀ g, g < 4 → ¬(bitOf (c.rd K.PWM_STATUS_GATES) g = true ∧ bitOf (c.rd K.PWM_STATUS_GATES) (otherGate g) = true) ∧
    ¬(bitOf c.pw.demand g = true ∧ bitOf c.pw.demand (otherGate g) = true)

/-- A strand frame formed outside DEBLOCKED carries BLOCK = 1, but for the command frame of the period before DEBLOCKED. -/
def State.BlocksOutside (s : State) : Prop :=
  s.st ≠ St.deblocked → ∀ type, (type = 1 → s.deblocks = false) → s.headerBlock type = true

/-- The parts of the state that a command may touch; the queue is none of them. -/
inductive Part where
  | now
  | nowFrac
  | draws
  | regs
  | sent
  | sys
  | ctl
  | cells
  | ports
  | dly
  | lvl
  | inp
  | tie
  | acd
  | tim
  | isl
  | flt
  | acq
  | sch
  | mem
  | hlt
  | od
  deriving DecidableEq, Repr

/-- A part reads the same in both states. -/
def Part.same (p : Part) (s t : State) : Prop :=
  match p with
  | .now => t.now = s.now
  | .nowFrac => t.nowFrac = s.nowFrac
  | .draws => t.draws = s.draws
  | .regs => t.regs = s.regs
  | .sent => t.sent = s.sent
  | .sys => t.sys = s.sys
  | .ctl => t.ctl = s.ctl
  | .cells => t.cells = s.cells
  | .ports => t.ports = s.ports
  | .dly => t.dly = s.dly
  | .lvl => t.lvl = s.lvl
  | .inp => t.inp = s.inp
  | .tie => t.tie = s.tie
  | .acd => t.acd = s.acd
  | .tim => t.tim = s.tim
  | .isl => t.isl = s.isl
  | .flt => t.flt = s.flt
  | .acq => t.acq = s.acq
  | .sch => t.sch = s.sch
  | .mem => t.mem = s.mem
  | .hlt => t.hlt = s.hlt
  | .od => t.od = s.od

/-- From `s` to `t` only the parts listed may differ. -/
def Agrees (changed : List Part) (s t : State) : Prop :=
  t.pending = s.pending ∧ ∀ p, p ∉ changed → p.same s t

/-- Every part. -/
def allParts : List Part :=
  [.now, .nowFrac, .draws, .regs, .sent, .sys, .ctl,
   .cells, .ports, .dly, .lvl, .inp, .tie, .acd, .tim, .isl, .flt,
   .acq, .sch, .mem, .hlt, .od]

/-- The parts of the state that each command may touch. -/
def footprint (c : Instr) : List Part :=
  match c with
  | .ddrScrub =>
    []
  | .cellHoldLimit _ | .pwmPartEnd _ | .carrierCrossing _ _ | .deadTimeEnd _ _ | .maskOpen _ | .maskOpenMax _
  | .horizonPlayedOut _ | .syncLost _ | .comparatorActive _ _ | .comparatorInactive _ _ | .hwBypass _
  | .tripClear _ _ | .gateReadbackFault _ _ | .bypReadbackFault _ | .bypCmd _ _ | .bypAssert _ | .vsupReset _
  | .supervisorRelease _ _ | .cellSelfTestEnd _ _ | .cellSelfTestTimeout _ | .cellFrameTimeout _ | .statusLatch _
  | .mbRead _ | .mbWrite _ | .mbReadClear _ | .mbCmdReset _ | .mbCmdBypass _ | .mbMaskedWrite _ | .mbIdentify _
  | .mbAccept _ | .lnkClr _ | .conversionDone _ _ _ _ | .injReq _ _ _ | .calZero _ _ | .calFull _ _ _ | .calAbort _
  | .calStepDone _ | .openWireTest _ _ | .openWireDone _ _ _ _ _ | .tmArm _ _ _ | .tmBoundWrite _ _
  | .cellSourceLatch _ _ | .cfltStatClear _ _ | .cfltRearm _ | .ctrgForce _ | .ctrgHoldoffEnd _
  | .cellSramRetention _ | .cellBgTestRegion _ _ _ _ | .tempSample _ | .hoursTick _ | .damageCalc _
  | .dailyHistory _ | .hctlLoaded _ | .hcfgNomWrite _ _ _ | .cellLiveCauseAbsent _ _ =>
    [.cells]
  | .feedbackTimeoutDrop _ _ | .frozenDrop _ _ | .gateDrop _ _ | .autoReadmit _ _ =>
    [.ctl]
  | .testPulseDark _ _ =>
    [.isl]
  | .cellAdmission _ | .cellMissIneligible _ | .swcDecay | .rotationBar _ =>
    [.lvl]
  | .ddrTempRead _ =>
    [.mem]
  | .dryWaitEnd | .tieClr | .leadElection _ _ | .faultCauseAbsent _ | .hartLoadUpdate _ _ _ | .schClr
  | .memPwrWrite _ _ | .healthRank | .ageingMeasure _ | .ageHour | .snapshotComplete =>
    [.regs]
  | .tailTrainingStart _ | .accordFrameForward _ _ | .heartbeat _ | .arpRequest _ _ _ | .icmpEcho _ _ _ _ _ =>
    [.sent]
  | .tieSwitch _ | .tieDemote _ =>
    [.tie]
  | .holdoverLimit | .txtsNext _ =>
    [.tim]
  | .agg _ _ | .dist _ _ =>
    [.regs, .acd]
  | .sequencerTimeout =>
    [.regs, .acq]
  | .blockLock _ =>
    [.regs, .cells]
  | .safeInputFilter _ _ _ | .resetButtonPress | .outputTestStart _ _ | .telegramSkewExpiry _ | .paramStage _ _
  | .paramCommit _ _ | .paramAbort _ _ | .paramRead _ _ | .paramTransactionTimeout =>
    [.regs, .isl]
  | .bankPowerDone _ | .bgTestRegion | .ddrInit | .ddrInitDone _ | .secRoll _ _ _ | .secRevoke _ _ _
  | .fuseProgramDone =>
    [.regs, .mem]
  | .counterWrite _ _ _ _ _ =>
    [.regs, .sch]
  | .counterWrap _ _ | .pmcFreeze _ _ =>
    [.regs, .sent]
  | .commandFrameAtTail _ _ | .yieldInChange _ | .tieJoin _ =>
    [.regs, .tie]
  | .launchPush _ _ =>
    [.regs, .tim]
  | .cellBoundary _ | .synciEdge _ | .upstreamSelected _ _ _ _ | .blockOrderedSet _ _ _ _
  | .collectionFrameAtCell _ _ _ | .upstreamOriginate _ =>
    [.sent, .cells]
  | .dlyRspSend _ =>
    [.sent, .dly]
  | .telegramSend _ =>
    [.sent, .isl]
  | .getWaitTimeout _ =>
    [.sent, .sch]
  | .healthSend =>
    [.draws, .sent, .tie]
  | .dlyReq _ _ _ =>
    [.regs, .cells, .dly]
  | .ack _ _ =>
    [.regs, .sent, .acd]
  | .sequencerMatch =>
    [.regs, .sent, .acq]
  | .hello _ =>
    [.regs, .sent, .od]
  | .snapshotGo _ | .snapshotTimed _ =>
    [.regs, .sent, .sch]
  | .selfTestEnd _ | .selfTestTimeout _ | .dryArmBlock _ =>
    [.regs, .sent, .sys]
  | .timedLaunch _ =>
    [.regs, .sent, .tim]
  | .stageDeadline =>
    [.regs, .sys, .acd]
  | .cellJoinRetry _ | .healthImageSave | .calFullPoll _ =>
    [.draws, .regs, .sent, .ports]
  | .acqFrameReq _ _ | .acqFrameClosed _ _ =>
    [.regs, .sent, .acd, .acq]
  | .recordClose _ =>
    [.regs, .sent, .acq, .mem]
  | .setpoint _ =>
    [.regs, .sent, .ctl, .od]
  | .configure _ | .deblock _ | .drydown _ | .clear _ | .deenergise _ | .commit _ _ =>
    [.regs, .sent, .sys, .acd]
  | .partWrite _ _ | .queueDepthWrite _ _ | .pushStallComplete _ | .schGet _ | .schGetWait _ | .getWaitResume _ =>
    [.draws, .regs, .sent, .sch, .mem]
  | .acqFrameTrig _ _ | .acqFrameDisarm _ _ =>
    [.regs, .sent, .acd, .acq, .mem]
  | .acqFrameArm _ _ =>
    [.regs, .sent, .acd, .flt, .acq]
  | .acqEvaluation =>
    [.regs, .sent, .flt, .acq, .mem]
  | .dualHead =>
    [.regs, .sent, .tie, .acq, .mem]
  | .prepDeadline | .cancel _ _ =>
    [.draws, .regs, .sent, .sys, .ports, .acd]
  | .joinImageComplete _ =>
    [.regs, .sent, .sys, .ctl, .lvl, .tie]
  | .sysRstNHigh _ | .dryTimeout | .trainFail _ | .sarFault _ | .gpioStuck _ | .setpointLost _ | .tieLinkDown
  | .tieHoldExpiry | .tieWaitExpiry | .slotReq _ _ | .digest _ _ | .controlYield _ _ | .controlTakeover _ _
  | .controlRole _ _ | .controlBroken _ _ | .controlIntact _ _ | .healthMessage _ _ | .yieldPinFault
  | .strandBroken _ | .joinComplete | .healthLate | .announceTimeout | .faultSourceRaise _ | .partitionFault _
  | .sramEccError _ _ _ _ | .protectedWrite _ _ | .bgTestRegionDone _ _ _ | .codeCheck _ | .ddrEccError _ _ _
  | .supplyMonitor _ | .clockMonitorWindow _ _ _ | .supplyMonitorsGood =>
    [.regs, .sent, .sys, .tie, .flt, .acq, .mem]
  | .energise _ | .stage _ _ =>
    [.draws, .regs, .sent, .sys, .ctl, .ports, .lvl, .acd]
  | .blockLockLoss _ =>
    [.regs, .sent, .sys, .cells, .tie, .flt, .acq, .mem]
  | .coastLimit _ =>
    [.regs, .sent, .sys, .ctl, .tie, .flt, .acq, .mem]
  | .tieLaneTrained _ _ _ _ | .accordPortTrained _ _ _ _ _ _ =>
    [.regs, .sent, .sys, .dly, .tie, .flt, .acq, .mem]
  | .sdClkLoss _ | .sdModFault _ _ | .piEdge _ _ _ | .gpioEdge _ _ | .gpioChatterRelease _ =>
    [.regs, .sent, .sys, .inp, .tie, .flt, .acq, .mem]
  | .bypassRequest _ | .epochBypass _ =>
    [.regs, .sent, .sys, .lvl, .tie, .flt, .acq, .mem]
  | .collectionLaunch _ | .takeover | .strandIntact _ =>
    [.regs, .sent, .sys, .ports, .tie, .flt, .acq, .mem]
  | .accordMemberLost _ _ | .accordLeadLost _ =>
    [.regs, .sent, .sys, .tie, .acd, .flt, .acq, .mem]
  | .lockstepMismatch _ | .lockstepInject _ _ _ | .lockstepInjectPeriodic _ | .partitionBudgetExhausted _ =>
    [.regs, .sent, .sys, .tie, .flt, .acq, .sch, .mem]
  | .vddSafePowerOn | .islandTestEnd _ | .paramSetPoll _ | .islandLockstepMismatch | .islandWatchdogExpiry
  | .islandMemoryError _ | .islandOscDeviation _ _ | .safeMonitorTrip | .islandCycle _ | .discrepancyFault _
  | .testPulseCheck _ _ | .testPulseSettleCheck _ _ | .tpFeedbackFault _ _ | .resetButtonRelease | .resetStuck _
  | .outputReadbackFault _ _ _ | .outputTestEnd _ _ | .outputFeedbackCheck _ _ | .sbcBlockDelay
  | .brakeTestFeedback _ | .brakeTestEnd | .brakeTestHour | .mateNotLive _ | .mateFault | .telegramReceived _ _
  | .connectionWatchdog _ =>
    [.regs, .sent, .sys, .tie, .isl, .flt, .acq, .mem]
  | .mailboxMessage _ _ =>
    [.draws, .regs, .sent, .sys, .ports, .tie, .flt, .acq, .mem]
  | .schPush _ _ _ | .pushBackpressureTimeout _ | .queueTick _ =>
    [.draws, .regs, .sent, .sys, .tie, .flt, .acq, .sch, .mem]
  | .timSetGo _ =>
    [.now, .nowFrac, .draws, .regs, .sent, .sys, .cells, .ports, .tim]
  | .sweep _ _ =>
    [.regs, .sent, .sys, .ctl, .lvl, .tie, .flt, .acq, .mem]
  | .collectionFrameReceived _ _ | .slotMessage _ _ | .tailframe _ _ =>
    [.regs, .sent, .sys, .ports, .lvl, .tie, .flt, .acq, .mem]
  | .commandFrameAtCell _ _ _ =>
    [.draws, .regs, .sent, .sys, .cells, .ports, .tie, .flt, .acq, .mem]
  | .lvlSyncInEdge =>
    [.draws, .regs, .sent, .sys, .ports, .lvl, .tie, .flt, .acq, .mem]
  | .stageRevert =>
    [.draws, .regs, .sent, .sys, .ports, .tie, .acd, .flt, .acq, .mem]
  | .dlyRsp _ _ _ _ =>
    [.regs, .sent, .sys, .cells, .ports, .dly, .tie, .flt, .acq, .mem]
  | .controlEngineWindow _ =>
    [.regs, .sent, .sys, .ctl, .lvl, .tie, .acd, .flt, .acq, .mem]
  | .segmentTrained _ _ _ _ _ =>
    [.draws, .regs, .sent, .sys, .cells, .ports, .dly, .tie, .flt, .acq, .mem]
  | .levelEngineWindow =>
    [.draws, .regs, .sent, .sys, .ports, .lvl, .tie, .acd, .flt, .acq, .mem]
  | .ptpMessage _ _ _ =>
    [.now, .nowFrac, .draws, .regs, .sent, .sys, .cells, .ports, .tie, .tim, .flt, .acq, .mem]
  | .energiseTakesEffect _ =>
    [.now, .draws, .regs, .sent, .sys, .ctl, .ports, .lvl, .inp, .tie, .acd, .flt, .acq, .mem]
  | .powerOn | .sysRstNLow | .secureStartEnd _ | .restart _ _ | .periodBoundary _ _ | .commandLaunch _ | .mbGo _
  | .mbResponse _ | .mbTimeout _ | .errClr _ | .enumStart _ | .enumAccept _ _ | .piCntPreset _ _
  | .gpioRateWrite _ _ _ | .evtNext | .spValueWrite _ _ | .coastDrop _ _ | .coastReadmit _ _ | .descriptorWrite _ _
  | .swap _ | .loadX0 | .forceOvr _ | .clearPeak | .clearOvrCount | .clearNumCount | .clearCtxCounts
  | .coefApertureAccess _ _ | .inputMessage _ _ | .lvlwMessage _ _ | .image _ _ | .odreq _ _ | .odrsp _ _
  | .odrspTimeout _ | .activationInstant | .fltStatClear _ _ | .fltInject _ _ | .fltRearm | .fltClrAll _ | .fltApp
  | .fltSrcConfig _ _ _ | .acqArm | .acqDisarm | .acqForce | .acqMarkNext | .acqClr | .odRead _ _ _
  | .odWrite _ _ _ _ | .odSelectWrite _ _ _ | .odCellWrite _ _ | .odStore _ _ | .odRestoreDefaults _ _
  | .odReplayClr | .usdoRequest _ _ _ _ _ | .canSessionIdle _ _ | .bye _ | .udpRead _ | .udpWrite _ | .dread _
  | .dwrite _ | .udpSessionIdle _ | .registerWrite _ _ _ _ | .storeComplete _ =>
    allParts

end Sys2Proof.Machine
end

