-- ==== Sys2Proof/WellFormed.lean ====
section
/-! DEFINITION. Which commands a sender can send: operands inside the ranges that the spec gives them, byte strings of the
lengths that their carriers have. The meanings are total and do not ask for it. -/

namespace Sys2Proof

/-- An extended address that names a cell of this pair (R224): strand below 48, position below 96, at most 9 compound
levels, no accord level, and nothing above the levels in use. -/
def cellWf (id : BitVec 64) : Bool :=
  let n := id.toNat
  let depth := n / 2 ^ 16 % 16
  decide (n / 2 ^ 7 % 64 < 48) && decide (n % 2 ^ 7 < 96) && decide (depth ≤ 9) && decide (n / 2 ^ (20 + 3 * depth) = 0)

def LinkEnd.wf : LinkEnd → Bool
  | .strand _ => true
  | .tie _ => true
  | .accord _ => true
  | .cell id _ => cellWf id

/-- A frame of R189 with a 32-byte header and at most 96 slots of 24 bytes. -/
def strandWf (f : List Byte) : Bool := decide (f.length % 8 = 0) && decide (32 ≤ f.length) && decide (f.length ≤ 2336)

/-- A message of R323: header of 16 bytes, body in multiples of 8, trailer of 8. -/
def tieWf (m : List Byte) : Bool := decide (m.length % 8 = 0) && decide (24 ≤ m.length)

/-- An accord frame of R330: header of 24 bytes, trailer of 8, at most 192. -/
def accordWf (f : List Byte) : Bool := decide (f.length % 8 = 0) && decide (32 ≤ f.length) && decide (f.length ≤ 192)

/-- Eight converters (R273) and 24 decimators (R275). -/
def Samples.wf (x : Samples) : Bool := decide (x.sar.length ≤ 8) && decide (x.sd.length ≤ 24)

/-- The payload of one UDP datagram over IPv4 (R541). -/
def Datagram.wf (d : Datagram) : Bool := decide (d.bytes.length ≤ 65507)

/-- Security versions of at most nine images (R495). -/
def SecResult.wf (r : SecResult) : Bool := decide (r.svn.length ≤ 9)

/-- Words at multiples of 4 (R404). -/
def foundWf : Option (List ParamWord) → Bool
  | none => true
  | some l => l.all fun e => decide (e.1.toNat % 4 = 0)

/-- 44 bytes in a datagram; 48 in a CAN FD frame, whose plain identifiers have 11 bits (R396). -/
def telegramWf (p : TelegramPath) (bytes : List Byte) : Bool :=
  match p with
  | .ethernet _ _ => decide (bytes.length = 44)
  | .can _ id extended => decide (bytes.length = 48) && (extended || decide (id.toNat < 2 ^ 11))

/-- Node-IDs 1 to 127 (R540). -/
def nodeWf (n : BitVec 7) : Bool := decide (0 < n.toNat)

def Client.wf : Client → Bool
  | .udp _ => true
  | .can _ node => nodeWf node
  | .routed _ => true

/-- A download carries at least one byte. -/
def usdoWf : Option (List Byte) → Bool
  | none => true
  | some l => decide (0 < l.length)

/-- A whole number of bytes, at most 8. -/
def widthWf (addr : BitVec 36) (width : Fin 9) : Bool := decide (0 < width.val) && decide (addr.toNat + width.val ≤ 2 ^ 36)

/-- The address of a word (R5). -/
def wordWf (addr : BitVec 32) : Bool := decide (addr.toNat % 4 = 0)

def Instr.wf : Instr → Bool
  | .powerOn => true
  | .sysRstNLow => true
  | .sysRstNHigh _ => true
  | .selfTestEnd _ => true
  | .selfTestTimeout _ => true
  | .secureStartEnd res => res.wf
  | .configure _ => true
  | .energise _ => true
  | .prepDeadline => true
  | .energiseTakesEffect samples => samples.wf
  | .deblock _ => true
  | .drydown _ => true
  | .dryWaitEnd => true
  | .dryArmBlock _ => true
  | .dryTimeout => true
  | .clear _ => true
  | .deenergise _ => true
  | .restart _ _ => true
  | .periodBoundary samples _ => samples.wf
  | .collectionLaunch _ => true
  | .controlEngineWindow _ => true
  | .levelEngineWindow => true
  | .cellAdmission cell => cellWf cell
  | .cellMissIneligible cell => cellWf cell
  | .bypassRequest cell => cellWf cell
  | .epochBypass cell => cellWf cell
  | .swcDecay => true
  | .rotationBar cell => cellWf cell
  | .commandLaunch _ => true
  | .lvlSyncInEdge => true
  | .cellHoldLimit cell => cellWf cell
  | .cellBoundary cell => cellWf cell
  | .pwmPartEnd cell => cellWf cell
  | .carrierCrossing cell _ => cellWf cell
  | .deadTimeEnd cell _ => cellWf cell
  | .maskOpen cell => cellWf cell
  | .maskOpenMax cell => cellWf cell
  | .horizonPlayedOut cell => cellWf cell
  | .synciEdge cell => cellWf cell
  | .syncLost cell => cellWf cell
  | .comparatorActive cell _ => cellWf cell
  | .comparatorInactive cell _ => cellWf cell
  | .hwBypass cell => cellWf cell
  | .tripClear cell _ => cellWf cell
  | .gateReadbackFault cell _ => cellWf cell
  | .bypReadbackFault cell => cellWf cell
  | .bypCmd cell _ => cellWf cell
  | .bypAssert cell => cellWf cell
  | .vsupReset cell => cellWf cell
  | .supervisorRelease cell _ => cellWf cell
  | .cellSelfTestEnd cell _ => cellWf cell
  | .cellSelfTestTimeout cell => cellWf cell
  | .cellFrameTimeout cell => cellWf cell
  | .blockLock link => link.wf
  | .blockLockLoss link => link.wf
  | .upstreamSelected cell _ _ _ => cellWf cell
  | .segmentTrained link _ _ _ _ => link.wf
  | .trainFail _ => true
  | .blockOrderedSet cell _ _ _ => cellWf cell
  | .commandFrameAtCell cell _ frame => cellWf cell && strandWf frame
  | .collectionFrameAtCell cell _ frame => cellWf cell && strandWf frame
  | .upstreamOriginate cell => cellWf cell
  | .statusLatch cell => cellWf cell
  | .collectionFrameReceived _ frame => strandWf frame
  | .commandFrameAtTail _ frame => strandWf frame
  | .mbGo _ => true
  | .mbRead cell => cellWf cell
  | .mbWrite cell => cellWf cell
  | .mbReadClear cell => cellWf cell
  | .mbCmdReset cell => cellWf cell
  | .mbCmdBypass cell => cellWf cell
  | .mbMaskedWrite cell => cellWf cell
  | .mbIdentify cell => cellWf cell
  | .mbAccept cell => cellWf cell
  | .mbResponse _ => true
  | .mbTimeout _ => true
  | .errClr _ => true
  | .lnkClr cell => cellWf cell
  | .enumStart _ => true
  | .enumAccept _ _ => true
  | .cellJoinRetry cell => cellWf cell
  | .conversionDone cell _ _ _ => cellWf cell
  | .injReq cell _ _ => cellWf cell
  | .calZero cell _ => cellWf cell
  | .calFull cell _ _ => cellWf cell
  | .calAbort cell => cellWf cell
  | .calStepDone cell => cellWf cell
  | .openWireTest cell _ => cellWf cell
  | .openWireDone cell _ _ _ _ => cellWf cell
  | .sarFault _ => true
  | .sdClkLoss _ => true
  | .sdModFault _ _ => true
  | .piEdge _ _ _ => true
  | .piCntPreset _ _ => true
  | .gpioEdge _ _ => true
  | .gpioChatterRelease _ => true
  | .gpioStuck _ => true
  | .gpioRateWrite _ _ _ => true
  | .evtNext => true
  | .spValueWrite _ _ => true
  | .setpointLost _ => true
  | .feedbackTimeoutDrop _ _ => true
  | .frozenDrop _ _ => true
  | .gateDrop _ _ => true
  | .autoReadmit _ _ => true
  | .coastDrop _ _ => true
  | .coastReadmit _ _ => true
  | .coastLimit _ => true
  | .descriptorWrite addr _ => wordWf addr
  | .swap _ => true
  | .loadX0 => true
  | .forceOvr _ => true
  | .clearPeak => true
  | .clearOvrCount => true
  | .clearNumCount => true
  | .clearCtxCounts => true
  | .coefApertureAccess _ _ => true
  | .tieLaneTrained _ _ _ _ => true
  | .tieLinkDown => true
  | .tieHoldExpiry => true
  | .tieWaitExpiry => true
  | .inputMessage _ message => tieWf message
  | .lvlwMessage _ message => tieWf message
  | .slotReq _ message => tieWf message
  | .slotMessage _ message => tieWf message
  | .digest _ message => tieWf message
  | .tailframe _ message => tieWf message
  | .controlYield _ message => tieWf message
  | .controlTakeover _ message => tieWf message
  | .controlRole _ message => tieWf message
  | .controlBroken _ message => tieWf message
  | .controlIntact _ message => tieWf message
  | .sweep _ message => tieWf message
  | .image _ message => tieWf message
  | .mailboxMessage _ message => tieWf message
  | .healthMessage _ message => tieWf message
  | .yieldInChange _ => true
  | .takeover => true
  | .yieldPinFault => true
  | .strandBroken _ => true
  | .strandIntact _ => true
  | .tailTrainingStart _ => true
  | .joinImageComplete _ => true
  | .joinComplete => true
  | .tieSwitch _ => true
  | .tieDemote _ => true
  | .tieJoin _ => true
  | .tieClr => true
  | .healthSend => true
  | .healthLate => true
  | .dualHead => true
  | .accordPortTrained _ _ _ _ _ _ => true
  | .accordFrameForward _ frame => accordWf frame
  | .agg _ frame => accordWf frame
  | .dist _ frame => accordWf frame
  | .stage _ frame => accordWf frame
  | .ack _ frame => accordWf frame
  | .commit _ frame => accordWf frame
  | .cancel _ frame => accordWf frame
  | .odreq _ frame => accordWf frame
  | .odrsp _ frame => accordWf frame
  | .odrspTimeout _ => true
  | .leadElection _ _ => true
  | .stageDeadline => true
  | .activationInstant => true
  | .stageRevert => true
  | .accordMemberLost _ _ => true
  | .accordLeadLost _ => true
  | .acqFrameArm _ frame => accordWf frame
  | .acqFrameReq _ frame => accordWf frame
  | .acqFrameTrig _ frame => accordWf frame
  | .acqFrameClosed _ frame => accordWf frame
  | .acqFrameDisarm _ frame => accordWf frame
  | .timSetGo _ => true
  | .ptpMessage _ _ _ => true
  | .announceTimeout => true
  | .holdoverLimit => true
  | .txtsNext _ => true
  | .launchPush _ _ => true
  | .timedLaunch _ => true
  | .dlyReq link _ _ => link.wf
  | .dlyRspSend link => link.wf
  | .dlyRsp link _ _ _ => link.wf
  | .tmArm cell _ _ => cellWf cell
  | .tmBoundWrite cell _ => cellWf cell
  | .vddSafePowerOn => true
  | .islandTestEnd _ => true
  | .paramSetPoll found => foundWf found
  | .islandLockstepMismatch => true
  | .islandWatchdogExpiry => true
  | .islandMemoryError _ => true
  | .islandOscDeviation _ _ => true
  | .safeMonitorTrip => true
  | .islandCycle _ => true
  | .safeInputFilter _ _ _ => true
  | .discrepancyFault _ => true
  | .testPulseDark _ _ => true
  | .testPulseCheck _ _ => true
  | .testPulseSettleCheck _ _ => true
  | .tpFeedbackFault _ _ => true
  | .resetButtonPress => true
  | .resetButtonRelease => true
  | .resetStuck _ => true
  | .outputReadbackFault _ _ _ => true
  | .outputTestStart _ _ => true
  | .outputTestEnd _ _ => true
  | .outputFeedbackCheck _ _ => true
  | .sbcBlockDelay => true
  | .brakeTestFeedback _ => true
  | .brakeTestEnd => true
  | .brakeTestHour => true
  | .mateNotLive _ => true
  | .mateFault => true
  | .telegramReceived path bytes => telegramWf path bytes
  | .telegramSkewExpiry _ => true
  | .connectionWatchdog _ => true
  | .telegramSend _ => true
  | .paramStage _ payload => decide (payload.length = 32)
  | .paramCommit _ payload => decide (payload.length = 32)
  | .paramAbort _ payload => decide (payload.length = 32)
  | .paramRead _ payload => decide (payload.length = 32)
  | .paramTransactionTimeout => true
  | .faultSourceRaise events => decide (0 < events.length)
  | .faultCauseAbsent _ => true
  | .fltStatClear _ _ => true
  | .fltInject _ _ => true
  | .fltRearm => true
  | .fltClrAll _ => true
  | .fltApp => true
  | .fltSrcConfig _ _ _ => true
  | .cellSourceLatch cell _ => cellWf cell
  | .cfltStatClear cell _ => cellWf cell
  | .cfltRearm cell => cellWf cell
  | .acqArm => true
  | .acqDisarm => true
  | .acqForce => true
  | .acqEvaluation => true
  | .sequencerMatch => true
  | .sequencerTimeout => true
  | .recordClose _ => true
  | .acqMarkNext => true
  | .acqClr => true
  | .ctrgForce cell => cellWf cell
  | .ctrgHoldoffEnd cell => cellWf cell
  | .lockstepMismatch _ => true
  | .lockstepInject _ _ _ => true
  | .lockstepInjectPeriodic _ => true
  | .partitionFault _ => true
  | .partitionBudgetExhausted _ => true
  | .partWrite _ _ => true
  | .queueDepthWrite _ _ => true
  | .schPush _ _ _ => true
  | .pushStallComplete _ => true
  | .pushBackpressureTimeout _ => true
  | .queueTick _ => true
  | .schGet _ => true
  | .schGetWait _ => true
  | .getWaitResume _ => true
  | .getWaitTimeout _ => true
  | .hartLoadUpdate _ _ _ => true
  | .schClr => true
  | .counterWrap _ _ => true
  | .counterWrite _ _ _ _ _ => true
  | .pmcFreeze _ advance => decide (advance.length = 72)
  | .snapshotGo advance => decide (advance.length = 72)
  | .snapshotTimed advance => decide (advance.length = 72)
  | .sramEccError _ _ _ _ => true
  | .protectedWrite _ _ => true
  | .memPwrWrite _ _ => true
  | .bankPowerDone _ => true
  | .bgTestRegion => true
  | .bgTestRegionDone _ _ _ => true
  | .codeCheck _ => true
  | .ddrInit => true
  | .ddrInitDone _ => true
  | .ddrTempRead _ => true
  | .ddrScrub => true
  | .ddrEccError _ _ _ => true
  | .secRoll _ _ _ => true
  | .secRevoke _ _ _ => true
  | .fuseProgramDone => true
  | .cellSramRetention cell => cellWf cell
  | .cellBgTestRegion cell _ _ _ => cellWf cell
  | .tempSample cell => cellWf cell
  | .hoursTick cell => cellWf cell
  | .damageCalc cell => cellWf cell
  | .dailyHistory cell => cellWf cell
  | .healthRank => true
  | .healthImageSave => true
  | .hctlLoaded cell => cellWf cell
  | .hcfgNomWrite cell _ _ => cellWf cell
  | .ageingMeasure ratios => decide (ratios.length = 0 ∨ ratios.length = 16)
  | .ageHour => true
  | .odRead client _ _ => client.wf
  | .odWrite client _ _ _ => client.wf
  | .odSelectWrite client _ _ => client.wf
  | .odCellWrite client _ => client.wf
  | .odStore client _ => client.wf
  | .odRestoreDefaults client _ => client.wf
  | .odReplayClr => true
  | .calFullPoll cell => cellWf cell
  | .usdoRequest _ node _ _ write => nodeWf node && usdoWf write
  | .canSessionIdle _ node => nodeWf node
  | .heartbeat _ => true
  | .hello d => d.wf
  | .bye d => d.wf
  | .udpRead d => d.wf
  | .udpWrite d => d.wf
  | .dread d => d.wf
  | .dwrite d => d.wf
  | .setpoint d => d.wf
  | .udpSessionIdle _ => true
  | .arpRequest _ _ _ => true
  | .icmpEcho _ _ _ _ payload => decide (payload.length ≤ 65507)
  | .supplyMonitor _ => true
  | .clockMonitorWindow _ _ _ => true
  | .registerWrite _ addr width _ => widthWf addr width
  | .supplyMonitorsGood => true
  | .storeComplete _ => true
  | .snapshotComplete => true
  | .cellLiveCauseAbsent cell _ => cellWf cell

end Sys2Proof
end

