-- ==== Sys2Proof/Certificates/Slice0/Obligations.lean ====
section
/-! DEFINITION. The statements about the block that the provers are asked for, family by family of commands. -/

open Sys2Proof Sys2Proof.Machine

/-! ### The block as a whole -/

/-- A step takes the command at the front of the queue and runs it on the state with the queue's rest. -/
def Obligations.StepRunsTheFrontCommand : Prop :=
  ∀ (s : State) (c : Instr) (rest : List Instr), s.pending = c :: rest → step s = exec c { s with pending := rest }

/-- The model's choice (log entry 3): an empty queue lets a tick of time pass and changes nothing else. -/
def Obligations.EmptyQueueLetsOnlyTimePass : Prop :=
  (∀ s : State, s.pending = [] → s.st ≠ St.reset → s.nowFrac < 10 ^ 12 → (s.now + 5) / 10 ^ 9 = s.now / 10 ^ 9 →
    s.now + 5 < timeEnd →
    Reaches (step s) fun t => t = { s with now := t.now, nowFrac := t.nowFrac } ∧ s.now + 3 ≤ t.now ∧ t.now ≤ s.now + 5) ∧
  (∀ s : State, s.pending = [] → s.st = St.reset → step s = .next s)

/-- The queue is the environment's: no command adds to it or takes from it. -/
def Obligations.CommandsLeaveTheQueue : Prop :=
  ∀ (c : Instr) (s t : State), exec c s = .next t → t.pending = s.pending

/-- The frame of every command at the grain of the state's parts; `footprint` lists them command by command. -/
def Obligations.CommandsChangeOnlyTheirFootprint : Prop :=
  ∀ (c : Instr) (s t : State), exec c s = .next t → Agrees (footprint c) s t

/-- The block answers every command in every state: a command that the rules turn away leaves a next state too. -/
def Obligations.EveryCommandCompletes : Prop :=
  ∀ (c : Instr) (s : State), Completes (exec c s)

/-- Equal banks, cells and memories are equal data, in every state that a step can reach from such a state. -/
def Obligations.StepKeepsCanonicalForm : Prop :=
  ∀ s t : State, s.Canonical → step s = .next t → t.Canonical

/-- R7: after RESET a field holds the value of the Reset column; the state of a cell before any command is log entry 5's choice. -/
def Obligations.ResetHoldsResetValues : Prop :=
  State.reset.Canonical ∧ (∀ a, State.reset.word a = (kcReset a).toNat) ∧
    ∀ id a, (State.reset.cell id).word a = (cellReset a).toNat

/-- R591 and R5 for the blocks whose registers trigger nothing: whole or not at all, and a bus error for another width. -/
def Obligations.RegisterWriteIsWholeOrNothing : Prop :=
  (∀ (s : State) (m : Fin 19) (addr : BitVec 36) (data : BitVec 64) (r : RegRow) (w : Nat),
    s.st ≠ St.reset → s.st ≠ St.selfTest → s.role = Role.solo →
    (addr.toNat / 0x100000 = 0x404 ∨ addr.toNat / 0x100000 = 0x40C) → addr.toNat % 4 = 0 → kcRow addr.toNat = some r →
    r.write (s.word addr.toNat) (data.toNat % 2 ^ 32) s.writable false = .ok w →
    exec (.registerWrite m addr 4 data) s = .next (s.setWord addr.toNat w)) ∧
  (∀ (s : State) (m : Fin 19) (addr : BitVec 36) (data : BitVec 64) (r : RegRow) (why : Refused),
    s.st ≠ St.reset → s.st ≠ St.selfTest → s.role = Role.solo →
    (addr.toNat / 0x100000 = 0x404 ∨ addr.toNat / 0x100000 = 0x40C) → addr.toNat % 4 = 0 → kcRow addr.toNat = some r →
    r.write (s.word addr.toNat) (data.toNat % 2 ^ 32) s.writable false = .error why →
    exec (.registerWrite m addr 4 data) s = .next s) ∧
  (∀ (s : State) (m : Fin 19) (addr : BitVec 36) (width : Fin 9) (data : BitVec 64),
    s.st ≠ St.reset → s.st ≠ St.selfTest → 0 < width.val → 0x40000000 ≤ addr.toNat → addr.toNat < 0x41200000 →
    (width.val ≠ 4 ∨ addr.toNat % 4 ≠ 0) →
    Reaches (exec (.registerWrite m addr width data) s) fun t => Emission.busError addr.toNat ∈ t.sent)

/-! ### Reset, self-test and start-up (02) -/

/-- Start-up by R31, R44, R45, R46, R493 and R575, each command where it has its effect. -/
def Obligations.StartUpReachesSafeHold : Prop :=
  (∀ s : State, Reaches (exec .powerOn s) fun t => t.st = St.reset ∧ t.rd R.STATE_CAUSE_CAUSE = 1 ∧ t.cells = s.cells ∧
    t.isl = s.isl ∧ t.mem = Mem.reset ∧ t.ctl = Ctl.reset) ∧
  (∀ s : State, Reaches (exec .sysRstNLow s) fun t => t.st = St.reset ∧ t.sys.rstHigh = false ∧
    t.rd R.STATE_CAUSE_CAUSE = 2 ∧ t.cells = s.cells ∧ t.ctl = Ctl.reset) ∧
  (∀ (s : State) (p : Bool), s.sys.rstHigh = false → s.st = St.reset → s.sys.supplyBad = 0 →
    Reaches (exec (.sysRstNHigh p) s) fun t => t.st = St.selfTest ∧ t.sys.selfTest = true ∧ t.sys.rstHigh = true ∧
      t.sys.pairId = p ∧ t.rd R.DEV_STATE_PREV = St.reset) ∧
  (∀ s : State, s.sys.rstHigh = true → s.st = St.reset →
    Reaches (exec .supplyMonitorsGood s) fun t => t.st = St.selfTest ∧ t.sys.selfTest = true ∧ t.sys.supplyBad = 0) ∧
  (∀ (s : State) (i : Fin 16), i ≠ 2 →
    Reaches (exec (.supplyMonitor i) s) fun t => t.sys.supplyBad = setBits s.sys.supplyBad i 1 1) ∧
  (∀ s : State, exec (.supplyMonitor 2) s = .next s) ∧
  (∀ (s : State) (r : StReport), s.st = St.selfTest → s.sys.selfTest = true →
    Reaches (exec (.selfTestEnd r) s) fun t =>
      t.word R.ST_BANK_BANK.addr = r.banks.toNat ∧ t.word R.ST_LANE_LO_STRAND_LO.addr = r.lanesLo.toNat ∧
      t.on R.ST_SUMMARY_DONE = true ∧ t.rd R.ST_SUMMARY_DURATION = r.duration.toNat ∧
      t.on R.ST_SUMMARY_MBIST_FAIL = (r.banks != 0#32) ∧ t.sys.selfTest = false ∧
      (if s.on R.FLT_SUMMARY_LOCK_LATCH then t.st = St.locked else t.st = St.selfTest ∧ t.sys.secure = true)) ∧
  (∀ (s : State) (i : Fin 6), s.st = St.selfTest → s.sys.selfTest = true →
    Reaches (exec (.selfTestTimeout i) s) fun t =>
      t.on R.ST_SUMMARY_TIMEOUT = true ∧ t.rd R.ST_SUMMARY_STEP = i ∧ t.rd R.ST_SUMMARY_DURATION = 4000 ∧
      t.on R.ST_SUMMARY_DONE = true ∧ t.sys.selfTest = false ∧
      (if s.on R.FLT_SUMMARY_LOCK_LATCH then t.st = St.locked else t.st = St.selfTest ∧ t.sys.secure = true)) ∧
  (∀ (s : State) (r : SecResult), s.st = St.selfTest → s.sys.secure = true → s.on R.ST_SUMMARY_PASS = true → r.ok = true →
    s.od.copies = [] → s.od.loadPend = false → s.on R.ENERGISE_CFG_AUTOCONF = false →
    Reaches (exec (.secureStartEnd r) s) fun t => t.st = St.safeHold ∧ t.rd R.STATE_CAUSE_CAUSE = 4 ∧ t.sys.secure = false ∧
      t.on R.SEC_STATUS_OK = true ∧ t.rd R.SEC_STATUS_SLOT = r.slot ∧ t.rd R.SEC_STATUS_KEY = r.key ∧
      t.rd R.SEC_STATUS_CODE = r.code ∧ t.on R.DEV_STATE_ST_PASS = true) ∧
  (∀ s : State, s.inputsRun = true → Reaches (exec (.clockMonitorWindow 250000 1562500 1562500) s) fun t =>
    ∀ i, 7 ≤ i → i < 10 → t.bit (R.FLT_LIVE_LIVE 0) i = false)

/-! ### State commands (02) -/

/-- Acceptance of each state command by R31, R32, R36 to R40 and R55. -/
def Obligations.AcceptedStateCommandsTakeEffect : Prop :=
  (∀ (s : State) (via : Via), s.gateCode [St.safeHold] = 0 → s.configureCode = 0 → s.twoPhase = false →
    Reaches (exec (.configure via) s) fun t => t.st = St.configured ∧ t.rd R.DEV_STATE_PREV = St.safeHold ∧
      t.rd R.STATE_CAUSE_CAUSE = 5 ∧ t.on R.DEV_STATE_BUSY = false ∧ t.mem = s.mem ∧ t.cells = s.cells) ∧
  (∀ (s : State) (via : Via), s.gateCode [St.configured] = 0 → (s.energiseCode 0).2 = 0 → s.twoPhase = false →
    Reaches (exec (.energise via) s) fun t => t.st = St.configured ∧ t.on R.DEV_STATE_BUSY = true ∧
      t.sys.pend = some { cmd := 2, target := St.energised, atPeriod := none } ∧
      ∃ q, t.sys.prep = some q ∧ q.t1 = q.p1 * (s.rd R.PERIOD_CFG_TC * 500) ∧
        s.now + s.rd R.ENERGISE_CFG_PREP * 1000000 ≤ q.t1) ∧
  (∀ (s : State) (via : Via), s.gateCode [St.energised] = 0 → s.deblockCode = 0 → s.twoPhase = false →
    Reaches (exec (.deblock via) s) fun t => t.st = St.energised ∧ t.on R.DEV_STATE_BUSY = true ∧
      t.on R.DRY_STATUS_DRY_FORCED = false ∧
      t.sys.pend = some { cmd := 3, target := St.deblocked, atPeriod := some (s.sys.period + if s.sys.leDone then 2 else 1) }) ∧
  (∀ (s : State) (via : Via), s.gateCode [St.deblocked] = 0 → s.twoPhase = false →
    Reaches (exec (.drydown via) s) fun t => t.st = St.deblocked ∧ t.on R.DEV_STATE_BUSY = true ∧
      t.on R.DEV_STATE_DRY_ACTIVE = true ∧ t.rd R.DRY_STATUS_PHASE = 1 ∧ t.rd R.DRY_STATUS_ARM_BLOCKED = 0 ∧
      t.sys.dry.count = 0) ∧
  (∀ (s : State) (via : Via), s.gateCode [St.faultBlock] = 0 → s.clearCode = 0 → s.twoPhase = false →
    Reaches (exec (.clear via) s) fun t => t.st = St.faultBlock ∧ t.on R.DEV_STATE_BUSY = true ∧
      t.sys.pend = some { cmd := 5, target := St.energised, atPeriod := some (s.sys.period + 1) }) ∧
  (∀ (s : State) (via : Via), s.gateCode [St.energised, St.faultBlock] = 0 → s.deenergiseCode = 0 → s.twoPhase = false →
    Reaches (exec (.deenergise via) s) fun t => t.st = s.st ∧ t.on R.DEV_STATE_BUSY = true ∧
      t.sys.pend = some { cmd := 6, target := St.configured, atPeriod := some (s.sys.period + 1) }) ∧
  (∀ (s : State) (via : Via), s.gateCode [St.safeHold, St.configured, St.faultBlock] = 0 → s.twoPhase = false →
    s.sys.rstHigh = true → s.sys.supplyBad = 0 →
    Reaches (exec (.restart via 0x5A5A) s) fun t => t.st = St.selfTest ∧ t.sys.selfTest = true ∧ t.cells = s.cells ∧ t.isl = s.isl)

/-- R35, R33 and R34: the code and the command are recorded and the state stays as it is. -/
def Obligations.RefusedStateCommandsOnlyRecord : Prop :=
  (∀ (s : State) (m : Fin 19), s.gateCode [St.safeHold] ≠ 0 →
    exec (.configure (.master m)) s = .next (s.refuse 1 (s.gateCode [St.safeHold]))) ∧
  (∀ (s : State) (m : Fin 19), s.gateCode [St.safeHold] = 0 → s.configureCode ≠ 0 →
    exec (.configure (.master m)) s = .next (s.refuse 1 s.configureCode)) ∧
  (∀ (s : State) (m : Fin 19), s.gateCode [St.configured] ≠ 0 →
    exec (.energise (.master m)) s = .next (s.refuse 2 (s.gateCode [St.configured]))) ∧
  (∀ (s : State) (m : Fin 19), s.gateCode [St.configured] = 0 → (s.energiseCode 0).2 ≠ 0 →
    exec (.energise (.master m)) s = .next ((s.energiseCode 0).1.refuse 2 (s.energiseCode 0).2)) ∧
  (∀ (s : State) (m : Fin 19), s.gateCode [St.energised] ≠ 0 →
    exec (.deblock (.master m)) s = .next (s.refuse 3 (s.gateCode [St.energised]))) ∧
  (∀ (s : State) (m : Fin 19), s.gateCode [St.energised] = 0 → s.deblockCode ≠ 0 →
    exec (.deblock (.master m)) s = .next (s.refuse 3 s.deblockCode)) ∧
  (∀ (s : State) (m : Fin 19), s.gateCode [St.deblocked] ≠ 0 →
    exec (.drydown (.master m)) s = .next (s.refuse 4 (s.gateCode [St.deblocked]))) ∧
  (∀ (s : State) (m : Fin 19), s.gateCode [St.faultBlock] ≠ 0 →
    exec (.clear (.master m)) s = .next (s.refuse 5 (s.gateCode [St.faultBlock]))) ∧
  (∀ (s : State) (m : Fin 19), s.gateCode [St.faultBlock] = 0 → s.clearCode ≠ 0 →
    exec (.clear (.master m)) s = .next (s.refuse 5 s.clearCode)) ∧
  (∀ (s : State) (m : Fin 19), s.gateCode [St.energised, St.faultBlock] = 0 → s.deenergiseCode ≠ 0 →
    exec (.deenergise (.master m)) s = .next (s.refuse 6 s.deenergiseCode)) ∧
  (∀ (s : State) (m : Fin 19) (key : BitVec 16), s.gateCode [St.safeHold, St.configured, St.faultBlock] = 0 → key ≠ 0x5A5A →
    exec (.restart (.master m) key) s = .next (s.refuse 7 0xB))

/-- R38, R55, R56 and R57, each row where it acts. -/
def Obligations.PreparationAndDryDownAdvance : Prop :=
  (∀ (s : State) (q : Prep) (p : Pend), s.sys.prep = some q → s.sys.pend = some p → q.t1 ≤ s.now + 200000 → s.prepDone = false →
    Reaches (exec .prepDeadline s) fun t => t.sys.pend = none ∧ t.sys.prep = none ∧ t.rd R.STATE_CAUSE_REFUSE = 0xD ∧
      t.rd R.STATE_CAUSE_REFUSED_CMD = p.cmd % 256 ∧ t.on R.DEV_STATE_BUSY = false ∧ t.st = s.st) ∧
  (∀ (s : State) (q : Prep) (x : Samples), s.sys.prep = some q → s.blockLatched = false → s.prepDone = true →
    s.acd.staged = none → s.on R.DEV_STATE_SAFE_BLOCK = false →
    ∃ u : State, exec (.energiseTakesEffect x) s = .next (u.sampleInputs x) ∧ u.st = St.energised ∧ u.sys.committed = true ∧
      u.sys.period = q.p1 ∧ u.sys.t0 = q.t1 ∧ u.sys.pend = none ∧ u.sys.epoch = (s.sys.epoch + 1) % 256) ∧
  (∀ s : State, s.on R.DEV_STATE_DRY_ACTIVE = true → s.rd R.DRY_STATUS_PHASE = 1 →
    s.rd R.DRYDOWN_CFG_DRY_HOLD ≤ s.sys.dry.count →
    Reaches (exec .dryWaitEnd s) fun t => t.rd R.DRY_STATUS_PHASE = 2 ∧ t.st = s.st ∧
      ∀ a, a < 6 → s.crd (R.ARM_CFG_EN a) = 0 → t.bit R.DRY_STATUS_ARM_BLOCKED a = true) ∧
  (∀ (s : State) (a : Fin 6), s.on R.DEV_STATE_DRY_ACTIVE = true → bitOf s.sys.dry.reversed a = true →
    s.bit R.DRY_STATUS_ARM_BLOCKED a = false →
    Reaches (exec (.dryArmBlock a) s) fun t => t.bit R.DRY_STATUS_ARM_BLOCKED a = true ∧
      (t.rd R.DRY_STATUS_ARM_BLOCKED = 0x3F → t.st = St.energised ∧ t.on R.DEV_STATE_DRY_ACTIVE = false ∧
        t.on R.DEV_STATE_BUSY = false) ∧
      (t.rd R.DRY_STATUS_ARM_BLOCKED ≠ 0x3F → t.st = s.st)) ∧
  (∀ s : State, s.on R.DEV_STATE_DRY_ACTIVE = true → s.on R.DRY_STATUS_DRY_FORCED = false →
    s.sys.dry.accepted + s.rd R.DRYDOWN_CFG_DRY_TIMEOUT * 1000000 ≤ s.now →
    Reaches (exec .dryTimeout s) fun t => t.on R.DRY_STATUS_DRY_FORCED = true ∧ t.sys.dry.reversed = 0x3F)

/-- R29: BLOCK is set in every header while the state is not DEBLOCKED; R32's exception is the command frame whose records
apply at the boundary of DEBLOCKED. -/
def Obligations.HeadersBlockOutsideDeblocked : Prop := ∀ s : State, s.BlocksOutside

/-! ### States of a cell (01, 02) -/

/-- R51, R52, R54 and R17, each row on one cell, and nothing else changes. -/
def Obligations.CellStartsAndHoldsItsRecord : Prop :=
  (∀ (s : State) (id : BitVec 64),
    CellBecomes (exec (.vsupReset id) s) s id.toNat fun c => c = { Cell.reset with bridge := (s.cell id.toNat).bridge } ∧
      c.mode = Mode.reset ∧ c.GatesOff) ∧
  (∀ (s : State) (id : BitVec 64) (b : Bool), (s.cell id.toNat).mode = Mode.reset → (s.cell id.toNat).rd K.CFLT_LIVE_LIVE = 0 →
    (s.cell id.toNat).rd K.TRIP_STATUS_CMP_ACT = 0 →
    CellBecomes (exec (.supervisorRelease id b) s) s id.toNat fun c =>
      c.mode = Mode.selfTest ∧ c.bridge = b ∧ c.on K.PWM_CFG_BRIDGE = b ∧ c.down = false) ∧
  (∀ (s : State) (id : BitVec 64), (s.cell id.toNat).mode = Mode.selfTest → (s.cell id.toNat).on K.CFLT_SUM_LOCK_LATCH = false →
    CellBecomes (exec (.cellSelfTestEnd id true) s) s id.toNat fun c =>
      c = { s.cell id.toNat with mode := Mode.safeHold, stFail := false }) ∧
  (∀ (s : State) (id : BitVec 64), (s.cell id.toNat).mode = Mode.selfTest → (s.cell id.toNat).on K.CFLT_SUM_LOCK_LATCH = true →
    CellBecomes (exec (.cellSelfTestEnd id true) s) s id.toNat fun c =>
      c = { s.cell id.toNat with mode := Mode.locked, stFail := false }) ∧
  (∀ (s : State) (id : BitVec 64), (s.cell id.toNat).mode = Mode.selfTest → (s.cell id.toNat).on K.CFLT_SUM_LOCK_LATCH = false →
    (s.cell id.toNat).rd (K.CFLT_CLASS_CLASS 3 0) ≠ 0 →
    CellBecomes (exec (.cellSelfTestEnd id false) s) s id.toNat fun c =>
      c.stFail = true ∧ c.latched 24 = true ∧ c.bit K.CFLT_LIVE_LIVE 24 = true ∧ c.GatesOff) ∧
  (∀ (s : State) (id : BitVec 64), (s.cell id.toNat).mode = Mode.selfTest →
    (s.cell id.toNat).rd (K.CFLT_CLASS_CLASS 3 0) ≠ 0 →
    CellBecomes (exec (.cellSelfTestTimeout id) s) s id.toNat fun c =>
      c.stFail = true ∧ c.latched 24 = true ∧ c.bit K.CFLT_LIVE_LIVE 24 = true ∧ c.GatesOff) ∧
  (∀ (s : State) (id : BitVec 64), (s.cell id.toNat).mode = Mode.enumerated ∨ (s.cell id.toNat).mode = Mode.blocked →
    CellBecomes (exec (.cellFrameTimeout id) s) s id.toNat fun c => c.mode = Mode.safeHold ∧ c.rd K.PWM_ACC_ACC = 0 ∧
      c.pw.entries = [] ∧ c.lk.next = none ∧ c.lk.recLow = none ∧ c.lk.recHigh = none) ∧
  (∀ (s : State) (id : BitVec 64), bitOf (s.cell id.toNat).lk.got (s.cell id.toNat).lk.high.toNat = true ∨ (s.cell id.toNat).lk.got = 0 →
    CellBecomes (exec (.cellHoldLimit id) s) s id.toNat fun c => c.lk.high = (s.cell id.toNat).lk.high ∧
      c.lk.next = if (s.cell id.toNat).lk.high then (s.cell id.toNat).lk.recHigh else (s.cell id.toNat).lk.recLow) ∧
  (∀ (s : State) (id : BitVec 64), bitOf (s.cell id.toNat).lk.got (s.cell id.toNat).lk.high.toNat = false →
    bitOf (s.cell id.toNat).lk.got (1 - (s.cell id.toNat).lk.high.toNat) = true →
    CellBecomes (exec (.cellHoldLimit id) s) s id.toNat fun c => c.lk.high = (!(s.cell id.toNat).lk.high) ∧
      c.lk.next = if (s.cell id.toNat).lk.high then (s.cell id.toNat).lk.recLow else (s.cell id.toNat).lk.recHigh)

/-! ### Control engine (03) -/

/-- R77, R82 to R84, R87 to R89, R91. -/
def Obligations.EngineWritesAreCheckedAndTakeEffect : Prop :=
  (∀ (s : State) (i : Fin 256) (a : Nat) (v : BitVec 32) (w : Nat), s.role = Role.solo → s.writable = true →
    a = (R.DESC_DIM_N_STATE i).addr ∨ a = (R.DESC_CTRL_EN i).addr → s.wouldStand a v.toNat = some w →
    checkContext s.rd (s.setWord a w).rd i true = 0 →
    exec (.descriptorWrite (BitVec.ofNat 32 a) v) s =
      .next (((s.setWord a w).wr (R.DESC_COST_MACS i) (ctxMacs (s.setWord a w).rd i)).wr (R.DESC_COST_COST i)
        (ctxCost (s.setWord a w).rd i))) ∧
  (∀ (s : State) (i : Fin 256) (e : Fin 32) (v : BitVec 32) (w : Nat), s.role = Role.solo → s.writable = true →
    s.wouldStand (R.BIND_KIND i e).addr v.toNat = some w →
    checkContext s.rd (s.setWord (R.BIND_KIND i e).addr w).rd i (kindOk (bitsOf w 0 4) (bitsOf w 4 12)) = 0 →
    exec (.descriptorWrite (BitVec.ofNat 32 (R.BIND_KIND i e).addr) v) s = .next (s.setWord (R.BIND_KIND i e).addr w)) ∧
  (∀ (s : State) (i : Fin 256) (e : Fin 32) (v : BitVec 32) (w : Nat), s.role = Role.solo → s.writable = true →
    s.wouldStand (R.BIND_KIND i e).addr v.toNat = some w →
    checkContext s.rd (s.setWord (R.BIND_KIND i e).addr w).rd i (kindOk (bitsOf w 0 4) (bitsOf w 4 12)) ≠ 0 →
    exec (.descriptorWrite (BitVec.ofNat 32 (R.BIND_KIND i e).addr) v) s =
      .next (((s.put R.CTL_STATUS_CHECK_ERR true).wr R.CTL_STATUS_CHECK_CODE
        (checkContext s.rd (s.setWord (R.BIND_KIND i e).addr w).rd i (kindOk (bitsOf w 0 4) (bitsOf w 4 12)))).wr
        R.CTL_STATUS_CHECK_CTX i)) ∧
  (∀ (s : State) (load : Bool), s.role = Role.solo → s.inService = true → s.on R.SWAP_STATUS_PENDING = false →
    exec (.swap load) s = .next (({ s with ctl := { s.ctl with swap := (some
      { sel := (upto 8).map fun w => s.rd (R.SWAP_SEL_SEL w), swap := true, load := load,
        atPeriod := if s.now < s.sys.t0 + s.tCa then s.sys.period else s.sys.period + 1 }) } } : State).put
          R.SWAP_STATUS_PENDING true)) ∧
  (∀ s : State, s.role = Role.solo → s.inService = true → s.on R.SWAP_STATUS_PENDING = false →
    exec .loadX0 s = .next (({ s with ctl := { s.ctl with swap := (some
      { sel := (upto 8).map fun w => s.rd (R.SWAP_SEL_SEL w), swap := false, load := true,
        atPeriod := if s.now < s.sys.t0 + s.tCa then s.sys.period else s.sys.period + 1 }) } } : State).put
          R.SWAP_STATUS_PENDING true)) ∧
  (∀ (s : State) (load : Bool), s.role = Role.solo → s.inService = true → s.on R.SWAP_STATUS_PENDING = true →
    exec (.swap load) s = .next (s.put R.SWAP_STATUS_REFUSED true)) ∧
  (∀ s : State, s.role = Role.solo → s.inService = true → s.on R.SWAP_STATUS_PENDING = true →
    exec .loadX0 s = .next (s.put R.SWAP_STATUS_REFUSED true)) ∧
  (∀ (s : State) (i : Fin 256), s.role = Role.solo → s.inService = true →
    exec (.forceOvr i) s = .next { s with ctl := { s.ctl with inject := s.ctl.inject ++ [i.val] } }) ∧
  (∀ (s : State) (i : Fin 256), s.role = Role.solo → s.inService = false →
    exec (.forceOvr i) s = .next s) ∧
  (∀ s : State, s.role = Role.solo → s.inputsRun = true →
    exec .clearPeak s = .next (s.wr R.CTL_PEAK_PEAK 0)) ∧
  (∀ s : State, s.role = Role.solo → s.inputsRun = true →
    exec .clearOvrCount s = .next (s.wr R.CTL_OVR_COUNT_COUNT 0)) ∧
  (∀ s : State, s.role = Role.solo → s.inputsRun = true →
    exec .clearNumCount s = .next (s.wr R.CTL_NUM_COUNT_COUNT 0)) ∧
  (∀ s : State, s.role = Role.solo → s.inputsRun = true →
    Reaches (exec .clearCtxCounts s) fun t => (∀ i, i < 256 → t.rd (R.DESC_COUNT_OVR_CNT i) = 0 ∧ t.rd (R.DESC_COUNT_NUM_CNT i) = 0) ∧
      t.ctl = s.ctl ∧ t.cells = s.cells ∧ t.sent = s.sent) ∧
  (∀ (s : State) (w : Fin 2048) (v : BitVec 32), s.role = Role.solo → s.inputsRun = true → s.on R.COEF_SEL_VIEW = false →
    w.val < 1392 →
    exec (.coefApertureAccess w (some v)) s = .next (s.setCoef (s.rd R.COEF_SEL_CTX) (1 - s.page (s.rd R.COEF_SEL_CTX)) w v.toNat)) ∧
  (∀ (s : State) (w : Fin 2048) (v : BitVec 32), s.role = Role.solo → s.inputsRun = true → s.on R.COEF_SEL_VIEW = true →
    exec (.coefApertureAccess w (some v)) s = .next s) ∧
  (∀ (s : State) (w : Fin 2048), w.val < 1392 →
    exec (.coefApertureAccess w none) s = .next (s.send (.reply (s.coefAt (s.rd R.COEF_SEL_CTX)
      (if s.on R.COEF_SEL_VIEW then s.page (s.rd R.COEF_SEL_CTX) else 1 - s.page (s.rd R.COEF_SEL_CTX)) w) 0)))

/-- R60, R62, R68, R79 and R87's inject mark. -/
def Obligations.EngineWindowRunsTheLaw : Prop :=
  (∀ (s : State) (errs : List EngineError), s.inService = true → s.role ≠ Role.relay →
    Reaches (exec (.controlEngineWindow errs) s) fun t => t.ctl.first = false ∧ t.ctl.spNew = [] ∧ t.ctl.slotNew = [] ∧
      t.ctl.inject = [] ∧ t.ctl.load = [] ∧ t.cells = s.cells ∧ t.isl = s.isl ∧ t.sch = s.sch ∧ t.od = s.od) ∧
  (∀ (s : State) (prev : Delivered) (errs : List EngineError) (i : Nat) (j : Nat), j < ctxP s.crd i →
    el (s.outputStep prev errs i).u j =
      fClamp (fAdd (el (s.ctxAt i).v j) (el (s.outputStep prev errs i).h j)) (s.coef i (1376 + j)) (s.coef i (1384 + j))) ∧
  (∀ (s : State) (prev : Delivered) (errs : List EngineError) (i : Nat), groupOf s.crd i = none →
    (s.runNode prev errs [(i, false)]).ctxAt i = { s.ctxAt i with out := ((upto (s.ctxAt i).uol.length).map fun j =>
      if f32Finite (el (s.ctxAt i).uol j) then el (s.ctxAt i).uol j else el (s.ctxAt i).out j) })

/-- R67, with the comparison spelled out for zeros, infinities and values that are not numbers. -/
def Obligations.ClampOfBinary32 : Prop :=
  (∀ x lo hi : Nat, fLt x lo = true → fClamp x lo hi = lo) ∧
  (∀ x lo hi : Nat, fLt x lo = false → fLt hi x = true → fClamp x lo hi = hi) ∧
  (∀ x lo hi : Nat, fLt x lo = false → fLt hi x = false → fClamp x lo hi = x) ∧
  (fEq 0x80000000 0 = true ∧ fLt 0x80000000 0 = false ∧ fLt 0 0x80000000 = false) ∧
  (∀ x : Nat, x < 2 ^ 32 → f32Finite x = true → fLt x fInf = true ∧ fLt fNegInf x = true) ∧
  (∀ x lo hi : Nat, f32NaN x = true → fClamp x lo hi = x)

/-! ### Set-points, competition and feedback (04) -/

/-- R93, R96, R98, R111, R113, R114, each row where it acts. -/
def Obligations.SetpointsDropsAndReturns : Prop :=
  (∀ (s : State) (c : Fin 256) (v : BitVec 32), s.role = Role.solo → s.inputsRun = true → f32Finite v.toNat = true →
    checkPoint (s.setWord (R.SP_VALUE_VALUE c).addr v.toNat).rd c = true → s.ctl.spNew.contains c.val = false →
    exec (.spValueWrite c v) s = .next { s.setWord (R.SP_VALUE_VALUE c).addr v.toNat with
      ctl := { s.ctl with spNew := s.ctl.spNew ++ [c.val] } }) ∧
  (∀ (s : State) (c : Fin 256) (v : BitVec 32), s.role = Role.solo → s.inputsRun = true → f32Finite v.toNat = false →
    exec (.spValueWrite c v) s = .next ((s.put R.CTL_STATUS_CHECK_ERR true).wr R.CTL_STATUS_CHECK_CODE 1)) ∧
  (∀ (s : State) (c : Fin 256), s.inService = true → s.on (R.SP_STATUS_LOST c) = false → s.spTimeout c ≠ 0 →
    s.spTimeout c ≤ s.rd (R.SP_STATUS_AGE c) →
    exec (.setpointLost c) s = .next (((s.put (R.SP_STATUS_LOST c) true).put (R.SP_STATUS_LOST_SEEN c) true).raise 35)) ∧
  (∀ (s : State) (i : Fin 256) (j : Fin 16), s.inService = true → s.on (R.FB_CFG_TO_EN i j) = true →
    s.rd (R.FB_CFG_TO_N i j) ≤ s.rd (R.FB_COUNT_TO_CNT i j) → s.dropped i j = false → (s.ctxAt i).found = [] →
    exec (.feedbackTimeoutDrop i j) s = .next (s.onCtx i fun x => { x with found := [(j.val, 1)] })) ∧
  (∀ (s : State) (i : Fin 256) (j : Fin 16), s.inService = true → s.on (R.FB_CFG_FRZ_EN i j) = true →
    s.rd (R.FB_CFG_FRZ_N i j) ≤ s.rd (R.FB_COUNT_FRZ_CNT i j) → s.dropped i j = false → (s.ctxAt i).found = [] →
    exec (.frozenDrop i j) s = .next (s.onCtx i fun x => { x with found := [(j.val, 2)] })) ∧
  (∀ (s : State) (i : Fin 256) (j : Fin 16), s.inService = true → s.on (R.FB_CFG_GATE_EN i j) = true →
    s.rd (R.FB_CFG_GATE_N i j) ≤ s.rd (R.FB_COUNT_GATE_CNT i j) → s.dropped i j = false → (s.ctxAt i).found = [] →
    exec (.gateDrop i j) s = .next (s.onCtx i fun x => { x with found := [(j.val, 3)] })) ∧
  (∀ (s : State) (i : Fin 256) (j : Fin 16), s.inService = true → s.dropped i j = true →
    bitsOf (s.rd (R.DROP_CAUSE_CAUSE i)) (2 * j) 2 ≠ 0 → s.on (R.FB_CFG_AUTO_READMIT i j) = true →
    s.rd (R.FB_RECOV_RECOV_N i j) ≤ s.rd (R.FB_COUNT_PASS_CNT i j) →
    exec (.autoReadmit i j) s = .next (s.onCtx i fun x => { x with pass := putBit x.pass j true })) ∧
  (∀ (s : State) (i : Fin 256) (mask : BitVec 16), s.role = Role.solo → s.inputsRun = true →
    exec (.coastDrop i mask) s = .next (s.onCtx i fun x => 
      { x with drop := x.drop ||| mask.toNat, back := x.back &&& (0xFFFF - (x.drop ||| mask.toNat)) })) ∧
  (∀ (s : State) (i : Fin 256) (mask : BitVec 16), s.role = Role.solo → s.inputsRun = true →
    exec (.coastReadmit i mask) s = .next (s.onCtx i fun x => 
      { x with back := (x.back ||| mask.toNat) &&& (0xFFFF - x.drop) })) ∧
  (∀ (s : State) (i : Fin 256), s.inService = true → s.on (R.COAST_STATUS_COASTING i) = true → (s.ctxAt i).limited = false →
    s.coastLimit i ≤ s.rd (R.COAST_TIME_PERIODS i) →
    exec (.coastLimit i) s = .next (((s.onCtx i fun x => { x with limited := true }).put (R.COAST_STATUS_LIMIT i) true).raise 37))

/-- R101. -/
def Obligations.CompetitionTakesTheSmallest : Prop :=
  (∀ (l : List (Nat × Nat)) (k v : Nat), winnerOf l = some (k, v) →
    (k, v) ∈ l ∧ f32NaN v = false ∧ ∀ e ∈ l, f32NaN e.2 = false → fLt e.2 v = false) ∧
  (∀ (l : List (Nat × Nat)) (k v : Nat), l.Pairwise (fun a b => a.1 < b.1) → winnerOf l = some (k, v) →
    ∀ e ∈ l, e.1 ≠ k → fEq e.2 v = true → k < e.1) ∧
  (∀ l : List (Nat × Nat), (winnerOf l).isSome = l.any fun e => !f32NaN e.2)

/-! ### Level engine (05) -/

/-- R123 to R125, R135, R138, R148, R150, R346, each row where it acts. -/
def Obligations.LevelEngineCommandsTakeEffect : Prop :=
  (∀ s : State, s.inService = true → s.role ≠ Role.relay →
    Reaches (exec .levelEngineWindow s) fun t => t.sys.leDone = true ∧ t.lvl.decayed = true ∧ t.cells = s.cells ∧
      t.isl = s.isl ∧ t.ctl = s.ctl) ∧
  (∀ (s : State) (id : BitVec 64), s.inService = true → s.levelsOf (keyOfExt id.toNat) = 1 →
    s.cellCause (keyOfExt id.toNat) (s.view (keyOfExt id.toNat)) = 0 →
    s.rd (R.ARM_MISS_ADMIT_N (s.portArm (keyOfExt id.toNat / 128))) ≤ (s.view (keyOfExt id.toNat)).runAdmit.getD 0 0 →
    (s.view (keyOfExt id.toNat)).eligible.all (fun b => !b) = true →
    exec (.cellAdmission id) s = .next (s.onView (keyOfExt id.toNat) fun v => { v with admitted := [true], swc := 0 })) ∧
  (∀ (s : State) (id : BitVec 64), s.inService = true → s.levelsOf (keyOfExt id.toNat) = 1 →
    s.cellCause (keyOfExt id.toNat) (s.view (keyOfExt id.toNat)) = 4 →
    exec (.cellMissIneligible id) s = .next (s.onView (keyOfExt id.toNat) fun v =>
      { v with eligible := [false], admitted := [false], runAdmit := [0], cause := 4 })) ∧
  (∀ (s : State) (id : BitVec 64), s.inService = true → s.missBypDue (keyOfExt id.toNat) = true →
    Reaches (exec (.bypassRequest id) s) fun t => (t.view (keyOfExt id.toNat)).bypReq = true ∧
      bitOf (byteAt (mapGet (fun _ => idleRecord) t.lvl.records (keyOfExt id.toNat)) 0) 4 = true ∧ t.cells = s.cells ∧ t.ctl = s.ctl) ∧
  (∀ (s : State) (id : BitVec 64), s.inService = true → s.epochBypDue (keyOfExt id.toNat) = true →
    Reaches (exec (.epochBypass id) s) fun t => (t.view (keyOfExt id.toNat)).bypReq = true ∧
      bitOf (byteAt (mapGet (fun _ => idleRecord) t.lvl.records (keyOfExt id.toNat)) 0) 4 = true ∧ t.cells = s.cells ∧ t.ctl = s.ctl) ∧
  (∀ (s : State) (k : Nat), s.inService = true → s.lvl.decayed = false → mapSorted none s.lvl.levels = true →
    (mapKeys s.lvl.levels).contains k = true → s.portArm (k / 128) < 6 →
    s.sys.period % 2 ^ s.rd (R.ARM_BAL_SW_DECAY (s.portArm (k / 128))) = 0 →
    Reaches (exec .swcDecay s) fun t => (t.view k).swc = (s.view k).swc / 2 ∧ t.lvl.decayed = true ∧ t.regs = s.regs) ∧
  (∀ s : State, s.inService = true → s.lvl.decayed = true → exec .swcDecay s = .next s) ∧
  (∀ (s : State) (id : BitVec 64), s.inService = true → s.levelsOf (keyOfExt id.toNat) ≠ 0 → s.rotationDue (keyOfExt id.toNat) = true →
    exec (.rotationBar id) s = .next (s.onView (keyOfExt id.toNat) fun v => { v with rotBar := true })) ∧
  (∀ s : State, s.inputsRun = true → s.st ≠ St.locked → s.rd R.SYNC_CFG_IN_EN = 1 → s.nearBoundary = none →
    exec .lvlSyncInEdge s = .next (s.inc R.SYNC_STATUS_ERR_CNT)) ∧
  (∀ (s : State) (k : Nat), s.st = St.energised → s.rd R.SYNC_CFG_IN_EN = 1 → s.nearBoundary = some k →
    Reaches (exec .lvlSyncInEdge s) fun t => t.lvl.alignNext = some k ∧ t.on R.SYNC_STATUS_ALIGNED = true ∧ t.st = s.st) ∧
  (∀ (s : State) (k : Nat), s.st = St.deblocked → s.rd R.SYNC_CFG_IN_EN = 1 → s.nearBoundary = some k →
    ((upto 6).any fun a => s.crd (R.ARM_CFG_EN a) == 1 && s.crd (R.ARM_CFG_MODE a) == 1 && !s.carrierStart a k) = true →
    Reaches (exec .lvlSyncInEdge s) fun t => t.on R.SYNC_STATUS_ERR = true ∧ t.lvl.syncErr = true ∧
      t.lvl.pAlign = s.lvl.pAlign ∧ t.lvl.alignNext = s.lvl.alignNext)

/-- R136 to R138. -/
def Obligations.SelectionFollowsTheSortedKeys : Prop :=
  (∀ (s : State) (a : Nat) (chg neg : Bool), (s.ranked a chg neg).Perm (s.eligibleKeys a) ∧
    (s.ranked a chg neg).Pairwise fun x y => s.keyWord a chg neg x ≤ s.keyWord a chg neg y) ∧
  (∀ (s : State) (order : List (Nat × Nat)) (neg : Bool) (n d frac r : Nat), r < order.length →
    (s.entry0 order neg n d frac).length = order.length ∧
    (r < n → (s.entry0 order neg n d frac).getD r (0, 0) = (insertState neg, 0)) ∧
    (n ≤ r → (s.view (order.getD r (0, 0)).1).rotBar = true → (s.entry0 order neg n d frac).getD r (0, 0) = (1, 0)) ∧
    (n ≤ r → d = 0 → (s.entry0 order neg n d frac).getD r (0, 0) = (1, 0))) ∧
  (∀ d k : Nat, 0 < k → sumOf ((upto k).map (share d k)) = d) ∧
  (∀ d k i j : Nat, share d k i ≤ share d k j + 1)

/-! ### Switching of a cell (06, 09) -/

/-- R157, R160, R161, R165, R168, R170, R171, each row on one cell. -/
def Obligations.CellPlaysItsRecord : Prop :=
  (∀ (s : State) (id : BitVec 64) (r : Rec), (s.cell id.toNat).lk.next = some r → (s.cell id.toNat).rd K.PWM_CFG_SYNC_MODE = 0 →
    (s.cell id.toNat).mode = Mode.blocked ∨ (s.cell id.toNat).mode = Mode.running ∨ (s.cell id.toNat).mode = Mode.coasting →
    (s.cell id.toNat).tm.pend = none → (s.cell id.toNat).tm.layout = false → bitOf (byteAt r.header 0) 3 = false →
    bitsOf (byteAt r.body 0) 0 5 = 1 → bitsOf (leAt r.body 2 3) 0 4 ≤ 2 →
    CellBecomes (exec (.cellBoundary id) s) s id.toNat fun c => c.mode = Mode.running ∧ c.rd K.PWM_STATUS_ENTRY = 0 ∧
      c.rd K.PWM_STATUS_STATE = bitsOf (leAt r.body 2 3) 0 4 ∧ c.pw.demand = c.demandOf (bitsOf (leAt r.body 2 3) 0 4) ∧
      c.pw.tb = s.now ∧ c.pw.entries = [leAt r.body 2 3, leAt r.body 5 3, leAt r.body 8 3, leAt r.body 11 3]) ∧
  (∀ (s : State) (id : BitVec 64), (s.cell id.toNat).lk.next = none → (s.cell id.toNat).rd K.PWM_CFG_SYNC_MODE = 0 →
    (s.cell id.toNat).mode = Mode.running ∨ (s.cell id.toNat).mode = Mode.coasting →
    (s.cell id.toNat).tm.pend = none → (s.cell id.toNat).tm.layout = false →
    bitsOf ((s.cell id.toNat).pw.entries.getD (Nat.min 4 ((s.cell id.toNat).pw.ix + 1)) 0) 0 4 ≤ 2 →
    CellBecomes (exec (.cellBoundary id) s) s id.toNat fun c => c.mode = Mode.coasting ∧ c.pw.tb = s.now ∧
      c.pw.ix = Nat.min 4 ((s.cell id.toNat).pw.ix + 1) ∧ c.pw.opened.isSome = true) ∧
  (∀ (s : State) (id : BitVec 64) (at' cls : Nat) (rest : List (Nat × Nat)), (s.cell id.toNat).pw.parts = (at', cls) :: rest →
    CellBecomes (exec (.pwmPartEnd id) s) s id.toNat fun c => c.pw.parts = rest ∧ c.pw.demand = c.demandOf cls ∧
      c.mode = (s.cell id.toNat).mode) ∧
  (∀ (s : State) (id : BitVec 64) (leg : Fin 2), (s.cell id.toNat).rd K.PWM_STATUS_STATE = 6 →
    leg = 0 ∨ (s.cell id.toNat).bridge = true → bitOf (s.cell id.toNat).pw.skip leg = false →
    (s.cell id.toNat).rd K.PWM_MINP_MINP ≤ (s.cell id.toNat).legWidth leg (!bitOf (s.cell id.toNat).pw.demand (2 * leg.val)) -
      (s.cell id.toNat).deadTime (if bitOf (s.cell id.toNat).pw.demand (2 * leg.val) then 2 * leg.val + 1 else 2 * leg.val) →
    CellBecomes (exec (.carrierCrossing id leg) s) s id.toNat fun c =>
      c.pw.demand = legDemand (s.cell id.toNat).pw.demand leg (!bitOf (s.cell id.toNat).pw.demand (2 * leg.val)) ∧
      c.mode = (s.cell id.toNat).mode) ∧
  (∀ (s : State) (id : BitVec 64) (g : Fin 4), bitOf (s.cell id.toNat).pw.wait g = true →
    bitOf ((s.cell id.toNat).rd K.PWM_STATUS_GATES) (otherGate g) = false →
    CellBecomes (exec (.deadTimeEnd id g) s) s id.toNat fun c => bitOf (c.rd K.PWM_STATUS_GATES) g = true ∧
      bitOf c.pw.wait g = false ∧ c.pw.demand = (s.cell id.toNat).pw.demand) ∧
  (∀ (s : State) (id : BitVec 64), (s.cell id.toNat).pw.openAt.isSome = true →
    CellBecomes (exec (.maskOpen id) s) s id.toNat fun c => c.pw.openAt = none ∧
      c.pw.opened = some ((s.cell id.toNat).pw.pos, 0)) ∧
  (∀ (s : State) (id : BitVec 64) (sign : Bool) (n : Nat), (s.cell id.toNat).pw.opened = some (sign, n) →
    (s.cell id.toNat).rd K.PWM_MASKT_OPEN_MAX ≤ n → (s.cell id.toNat).pw.coastOpen = false → (s.cell id.toNat).mode ≠ Mode.coasting →
    CellBecomes (exec (.maskOpenMax id) s) s id.toNat fun c => c.pw.opened = none ∧ c.pw.pos = sign) ∧
  (∀ (s : State) (id : BitVec 64), (s.cell id.toNat).mode = Mode.coasting → 3 ≤ (s.cell id.toNat).pw.ix →
    (s.cell id.toNat).rd (K.CFLT_CLASS_CLASS 3 1) ≤ 4 → (s.cell id.toNat).on (K.CFLT_CLASS_BYP 3 1) = false →
    CellBecomes (exec (.horizonPlayedOut id) s) s id.toNat fun c => c.mode = Mode.blocked ∧ c.GatesOff ∧ c.pw.entries = [] ∧
      c.rd K.PWM_ACC_ACC = 0 ∧ ((s.cell id.toNat).rd (K.CFLT_CLASS_CLASS 3 1) ≠ 0 → c.latched 25 = true)) ∧
  (∀ (s : State) (id : BitVec 64), (s.cell id.toNat).rd K.PWM_CFG_SYNC_MODE = 2 →
    ((s.now : Int) - 5 * (s.cell id.toNat).syncComp - (s.cell id.toNat).pw.carAt) % (5 * (s.cell id.toNat).tCar) ≤
      5 * (s.cell id.toNat).syncTol →
    exec (.synciEdge id) s = .next ((s.setCell id.toNat (({ s.cell id.toNat with pw := { (s.cell id.toNat).pw with
      carAt := ((s.now : Int) - 5 * (s.cell id.toNat).syncComp).toNat } }.put K.PWM_STATUS_SYNC_LOST false).absent 10)).send
        (.synco id.toNat))) ∧
  (∀ (s : State) (id : BitVec 64), (s.cell id.toNat).rd K.PWM_CFG_SYNC_MODE = 2 →
    5 * ((s.cell id.toNat).syncTol : Int) <
      ((s.now : Int) - 5 * (s.cell id.toNat).syncComp - (s.cell id.toNat).pw.carAt) % (5 * (s.cell id.toNat).tCar) →
    5 * ((s.cell id.toNat).syncTol : Int) < 5 * (s.cell id.toNat).tCar -
      ((s.now : Int) - 5 * (s.cell id.toNat).syncComp - (s.cell id.toNat).pw.carAt) % (5 * (s.cell id.toNat).tCar) →
    CellBecomes (exec (.synciEdge id) s) s id.toNat fun c => c = (s.cell id.toNat).inc K.PWM_SYNCST_ERR_CNT) ∧
  (∀ (s : State) (id : BitVec 64), (s.cell id.toNat).rd K.PWM_CFG_SYNC_MODE = 2 →
    CellBecomes (exec (.syncLost id) s) s id.toNat fun c => c.on K.PWM_STATUS_SYNC_LOST = true ∧ c.bit K.CFLT_LIVE_LIVE 10 = true)

/-- R173 to R180. -/
def Obligations.TripsAndBypassesHoldTheGatesOff : Prop :=
  (∀ (s : State) (id : BitVec 64) (i : Fin 4), (s.cell id.toNat).bit K.TRIP_CFG_TRIP_EN i = true →
    CellBecomes (exec (.comparatorActive id i) s) s id.toNat fun c => c.bit K.TRIP_STATUS_TRIP i = true ∧
      c.bit K.TRIP_STATUS_CMP_ACT i = true ∧ c.bit K.CFLT_LIVE_LIVE i = true ∧ c.GatesOff) ∧
  (∀ (s : State) (id : BitVec 64) (i : Fin 4), (s.cell id.toNat).bit K.TRIP_STATUS_CMP_ACT i = true →
    CellBecomes (exec (.comparatorInactive id i) s) s id.toNat fun c =>
      c = ((s.cell id.toNat).putBit K.TRIP_STATUS_CMP_ACT i false).putBit K.CFLT_LIVE_LIVE i false) ∧
  (∀ (s : State) (id : BitVec 64) (i : Fin 4) (v : BitVec 32), bitOf v.toNat i = true → (s.cell id.toNat).bit K.TRIP_STATUS_TRIP i = true →
    (s.cell id.toNat).bit K.TRIP_STATUS_CMP_ACT i = false → mapGet (fun _ => 0) (s.cell id.toNat).cls i.val ≠ 5 →
    CellBecomes (exec (.tripClear id v) s) s id.toNat fun c => c.bit K.TRIP_STATUS_TRIP i = false ∧ c.latched i = false ∧
      c.mode = (s.cell id.toNat).mode) ∧
  (∀ (s : State) (id : BitVec 64) (i : Fin 4) (v : BitVec 32), bitOf v.toNat i = true → (s.cell id.toNat).bit K.TRIP_STATUS_TRIP i = true →
    (s.cell id.toNat).bit K.TRIP_STATUS_CMP_ACT i = true →
    CellBecomes (exec (.tripClear id v) s) s id.toNat fun c => c.bit K.TRIP_STATUS_TRIP i = true ∧
      c.on K.TRIP_STATUS_CLEAR_REFUSED = true ∧ c.on K.CFLT_SUM_CLEAR_REFUSED = true ∧ c.GatesOff) ∧
  (∀ (s : State) (id : BitVec 64) (g : Fin 4), (s.cell id.toNat).mode ≠ Mode.reset →
    CellBecomes (exec (.gateReadbackFault id g) s) s id.toNat fun c => c.bit K.TRIP_STATUS_GATE_FLT g = true ∧
      c.bit K.CFLT_LIVE_LIVE 5 = true ∧ c.GatesOff) ∧
  (∀ (s : State) (id : BitVec 64), (s.cell id.toNat).mode ≠ Mode.reset →
    CellBecomes (exec (.bypReadbackFault id) s) s id.toNat fun c => c.on K.TRIP_STATUS_BYP_FLT = true ∧
      c.bit K.CFLT_LIVE_LIVE 6 = true ∧ c.pw.byp = (s.cell id.toNat).pw.byp) ∧
  (∀ (s : State) (id : BitVec 64), (s.cell id.toNat).mode ≠ Mode.reset → (s.cell id.toNat).mode ≠ Mode.locked →
    (s.cell id.toNat).rd (K.CFLT_CLASS_CLASS 0 4) ≤ 4 →
    CellBecomes (exec (.hwBypass id) s) s id.toNat fun c => c.on K.TRIP_STATUS_HW_BYP = true ∧ c.pw.byp = true ∧
      c.mode = Mode.bypassed ∧ c.GatesOff) ∧
  (∀ (s : State) (id : BitVec 64) (v : BitVec 32), bitOf v.toNat 0 = true → bitsOf v.toNat 16 16 = 0xA5A5 →
    (s.cell id.toNat).mode ≠ Mode.reset → (s.cell id.toNat).mode ≠ Mode.locked → (s.cell id.toNat).pw.byp = false →
    CellBecomes (exec (.bypCmd id v) s) s id.toNat fun c => c.mode = Mode.bypassed ∧ c.pw.bypassing = true ∧ c.pw.byp = false ∧
      c.GatesOff ∧ c.pw.entries = [] ∧ c.lk.next = none) ∧
  (∀ (s : State) (id : BitVec 64) (v : BitVec 32), bitsOf v.toNat 16 16 ≠ 0xA5A5 →
    CellBecomes (exec (.bypCmd id v) s) s id.toNat fun c => c = s.cell id.toNat) ∧
  (∀ (s : State) (id : BitVec 64), (s.cell id.toNat).pw.bypassing = true →
    CellBecomes (exec (.bypAssert id) s) s id.toNat fun c => c.pw.byp = true ∧ c.pw.bypassing = false ∧
      c.on K.GATE_RB_BYP_PIN = true ∧ c.mode = (s.cell id.toNat).mode)

/-- R157, R159, R160: shoot-through is excluded by the switching unit itself. -/
def Obligations.NoShootThrough : Prop :=
  (∀ (s t : State) (id : BitVec 64) (c : Instr),
    (c = .cellBoundary id ∨ c = .pwmPartEnd id ∨ (∃ leg, c = .carrierCrossing id leg) ∨ (∃ g, c = .deadTimeEnd id g) ∨
      c = .maskOpen id ∨ c = .maskOpenMax id ∨ c = .horizonPlayedOut id ∨ c = .synciEdge id ∨ c = .syncLost id ∨
      (∃ i, c = .comparatorActive id i) ∨ (∃ i, c = .comparatorInactive id i) ∨ c = .hwBypass id ∨ (∃ v, c = .tripClear id v) ∨
      (∃ g, c = .gateReadbackFault id g) ∨ c = .bypReadbackFault id ∨ (∃ v, c = .bypCmd id v) ∨ c = .bypAssert id) →
    (∀ k, (s.cell k).LegsApart) → exec c s = .next t → ∀ k, (t.cell k).LegsApart) ∧
  (∀ (c : Cell) (now g : Nat), g < 4 → bitOf (c.rd K.PWM_STATUS_GATES) g = false →
    bitOf ((c.regate now).rd K.PWM_STATUS_GATES) g = true → c.LegsApart →
    bitOf ((c.regate now).rd K.PWM_STATUS_GATES) (otherGate g) = false ∧
      (c.regate now).offAt (otherGate g) + 5 * c.deadTime g ≤ now) ∧
  (∀ (c : Cell) (now : Nat), c.driving = false → (c.regate now).GatesOff)

/-! ### Strand link (07) and enumeration (08) -/

/-- R184, R186 to R191, R204, R209, R211, R213 to R215, R228. -/
def Obligations.LinksLockTrainAndLaunch : Prop :=
  (∀ (s : State) (p : Fin 48), s.portLive p = true → exec (.blockLock (.strand p)) s = .next (s.put (R.PORT_STATUS_LOCK p) true)) ∧
  (∀ (s : State) (id : BitVec 64) (p : Fin 3), (s.cell id.toNat).mode ≠ Mode.reset → (s.cell id.toNat).mode ≠ Mode.selfTest →
    CellBecomes (exec (.blockLock (.cell id p)) s) s id.toNat fun c => bitOf c.lk.locks p = true ∧ c.mode = (s.cell id.toNat).mode) ∧
  (∀ (s : State) (p : Fin 48), s.on (R.PORT_STATUS_LOCK p) = true → s.rd (R.FLT_SRC_CFG_BASE 66) ≤ 2 → s.rd (R.FLT_SRC_CFG_ESC_N 66) = 0 →
    Reaches (exec (.blockLockLoss (.strand p)) s) fun t => t.on (R.PORT_STATUS_LOCK p) = false ∧ t.on (R.PORT_STATUS_TRAINED p) = false ∧
      t.rd (R.ERR_C_LOCK_LOSS p) = Nat.min 255 (s.rd (R.ERR_C_LOCK_LOSS p) + 1) ∧
      (s.rd (R.FLT_SRC_CFG_BASE 66) ≠ 0 → t.latched 66 = true) ∧ t.st = s.st ∧ t.cells = s.cells) ∧
  (∀ (s : State) (id : BitVec 64) (p : Fin 3), p.val < 2 → (s.cell id.toNat).lk.ref = some p.val →
    bitOf (s.cell id.toNat).lk.locks (otherPort p) = false →
    CellBecomes (exec (.blockLockLoss (.cell id p)) s) s id.toNat fun c => bitOf c.lk.locks p = false ∧ bitOf c.lk.trained p = false ∧
      c.lk.recLow = none ∧ c.lk.recHigh = none ∧ c.lk.next = none ∧
      ((s.cell id.toNat).rd (K.CFLT_CLASS_CLASS 1 3) ≠ 0 → c.latched 11 = true)) ∧
  (∀ (s : State) (a : Fin 4), s.on (R.ACD_PORTST_TRAINED a) = true →
    exec (.blockLockLoss (.accord a)) s = .next ((s.put (R.ACD_PORTST_TRAINED a) false).inc (R.ACD_PORTERR_LOCK_LOSS a))) ∧
  (∀ (s : State) (p : Fin 48) (d2 d3 members : BitVec 8) (prop : BitVec 16), s.portLive p = true → s.launching = true →
    s.inService = false → s.on (R.ENUM_STATUS_BUSY p) = false →
    Reaches (exec (.segmentTrained (.strand p) d2 d3 members prop) s) fun t => t.on (R.PORT_STATUS_TRAINED p) = true ∧
      t.on (R.PORT_STATUS_LOCK p) = true ∧ t.on (R.PORT_STATUS_TRAIN_FAIL p) = false ∧ t.rd (R.PORT_STATUS_END p) = 1 ∧
      (t.port p).ver0 = Nat.min 0x13 d2.toNat ∧ Emission.orderedSet p 3 0 0 ∈ t.sent ∧
      t.on (R.ENUM_STATUS_BUSY p) = s.on (R.ENUM_CTRL_AUTO p)) ∧
  (∀ (s : State) (p : Fin 48) (d2 d3 members : BitVec 8) (prop : BitVec 16), s.portLive p = true → s.launching = false →
    0 < d3.toNat → d3.toNat ≤ 95 → s.inService = false ∨ s.crd R.PERIOD_CFG_DS = 0 ∨ (s.port p).out = false →
    Reaches (exec (.segmentTrained (.strand p) d2 d3 members prop) s) fun t => t.on (R.PORT_STATUS_TRAINED p) = true ∧
      t.on (R.PORT_STATUS_LOCK p) = true ∧ t.on (R.PORT_STATUS_TRAIN_FAIL p) = false ∧ t.rd (R.PORT_STATUS_END p) = 2 ∧
      t.rd (R.PORT_STATUS_NCELL p) = d3.toNat) ∧
  (∀ (s : State) (id : BitVec 64) (d2 d3 members : BitVec 8) (prop : BitVec 16), (s.cell id.toNat).mode ≠ Mode.reset →
    (s.cell id.toNat).mode ≠ Mode.selfTest → (s.cell id.toNat).lk.up ≠ some 2 →
    Reaches (exec (.segmentTrained (.cell id 2) d2 d3 members prop) s) fun t => bitOf (t.cell id.toNat).lk.trained 2 = true ∧
      (t.cell id.toNat).rd K.SUB_STATUS_K = Nat.min members.toNat 8 ∧
      (t.cell id.toNat).on K.SUB_STATUS_SUB_OVER = decide (8 < members.toNat) ∧
      (t.cell id.toNat).on K.SUB_STATUS_SUB_LONG = decide (100 < prop.toNat) ∧ (t.cell id.toNat).rd K.SUB_LAT_PROP = prop.toNat ∧
      t.regs = s.regs ∧ Emission.cellSet id.toNat 2 3 0 0 ∈ t.sent) ∧
  (∀ (s : State) (p : Fin 48), s.portLive p = true → s.on (R.PORT_STATUS_TRAINED p) = false →
    s.rd (R.FLT_SRC_CFG_BASE 67) ≤ 2 → s.rd (R.FLT_SRC_CFG_ESC_N 67) = 0 →
    Reaches (exec (.trainFail p) s) fun t => t.on (R.PORT_STATUS_TRAIN_FAIL p) = true ∧ t.bit (R.FLT_LIVE_LIVE 2) 3 = true ∧ t.st = s.st) ∧
  (∀ (s : State) (p : Fin 48) (at' : Nat) (rest : List (Nat × Nat)), (s.port p).queue = (2, at') :: rest → s.now ≤ s.sys.t0 + 10 * at' →
    s.mayLaunch p = true → s.tie.turn = false → s.servedFromTail p = false →
    Reaches (exec (.collectionLaunch p) s) fun t => (t.port p).queue = rest ∧ t.sent = .frame p (s.collectionFrame p) :: s.sent ∧
      t.regs = s.regs ∧ t.cells = s.cells) ∧
  (∀ (s : State) (p : Fin 48) (at' : Nat) (rest : List (Nat × Nat)), (s.port p).queue = (2, at') :: rest →
    s.sys.t0 + 10 * at' < s.now → s.rd (R.FLT_SRC_CFG_BASE 68) ≤ 2 → s.rd (R.FLT_SRC_CFG_ESC_N 68) = 0 →
    Reaches (exec (.collectionLaunch p) s) fun t => (t.port p).queue = rest ∧ t.sent = s.sent ∧
      t.rd (R.ERR_C_LATE p) = Nat.min 255 (s.rd (R.ERR_C_LATE p) + 1)) ∧
  (∀ (s : State) (p : Fin 48) (at' : Nat) (rest : List (Nat × Nat)), (s.port p).queue = (1, at') :: rest → s.now ≤ s.sys.t0 + 10 * at' →
    s.mayLaunch p = true → s.servedFromTail p = false → (s.port p).txn = none → s.od.jobs = [] →
    Reaches (exec (.commandLaunch p) s) fun t => (t.port p).queue = rest ∧
      t.sent = .frame p (s.commandFrame p (List.replicate 16 0#8)) :: s.sent ∧ t.regs = s.regs ∧ t.cells = s.cells) ∧
  (∀ (s : State) (p : Fin 48) (at' : Nat) (rest : List (Nat × Nat)) (x : Txn), (s.port p).queue = (1, at') :: rest →
    s.now ≤ s.sys.t0 + 10 * at' → s.mayLaunch p = true → s.role = Role.solo ∨ s.role = Role.active → s.servedFromTail p = false →
    (s.port p).txn = some x → x.ready = true → x.tag = .soft → x.closesAtLaunch = false → x.req.op ≠ 5 → s.od.jobs = [] →
    Reaches (exec (.commandLaunch p) s) fun t => t.sent = .frame p (s.commandFrame p (reqBytes x.req)) :: s.sent ∧
      (t.port p).txn = some { x with ready := false, tries := x.tries + 1, due := s.sys.period + 2 + 2 * bitsOf x.req.path 0 4 } ∧
      t.rd (R.MB_STATUS_TRIES p) = Nat.min 15 (x.tries + 1)) ∧
  (∀ (s : State) (p : Fin 48), s.st ≠ St.reset → s.st ≠ St.selfTest → s.role = Role.solo →
    exec (.errClr p) s = .next (s.errClr p)) ∧
  (∀ (s : State) (id : BitVec 64),
    CellBecomes (exec (.lnkClr id) s) s id.toNat fun c => c = ((s.cell id.toNat).setWord 0x10010 0).setWord 0x10014 0)

/-- R192 to R203 and R208 at a cell and at the head. -/
def Obligations.FramesReachCellsAndHead : Prop :=
  (∀ (s : State) (id : BitVec 64) (p : Fin 2), (s.cell id.toNat).mode ≠ Mode.reset → (s.cell id.toNat).mode ≠ Mode.selfTest →
    Reaches (exec (.blockOrderedSet id p 0x5A 0xA5) s) fun t => (t.cell id.toNat).mode ≠ Mode.running ∧
      (t.cell id.toNat).mode ≠ Mode.coasting ∧ (t.cell id.toNat).lk.next = none ∧ (t.cell id.toNat).lk.recLow = none ∧
      (t.cell id.toNat).lk.recHigh = none ∧ (t.cell id.toNat).pw.entries = [] ∧
      ((s.cell id.toNat).forwards p = true → Emission.cellSet id.toNat (otherPort p) 0x0B 0x5A 0xA5 ∈ t.sent) ∧ t.regs = s.regs) ∧
  (∀ (s : State) (id : BitVec 64) (p : Fin 2) (d2 d3 : BitVec 8), (s.cell id.toNat).mode ≠ Mode.reset →
    (s.cell id.toNat).mode ≠ Mode.selfTest → d2 ≠ 0x5A ∨ d3 ≠ 0xA5 →
    CellBecomes (exec (.blockOrderedSet id p d2 d3) s) s id.toNat fun c => c = (s.cell id.toNat).inc K.LNK_ERR2_BLK_ERR) ∧
  (∀ (s : State) (id : BitVec 64) (p : Fin 2) (f : List Byte), (s.cell id.toNat).mode ≠ Mode.reset → (s.cell id.toNat).mode ≠ Mode.selfTest →
    Hdr.type f = 1 ∨ Hdr.type f = 2 → Hdr.block f = true ∨ Hdr.nblock f = false → f ≠ [] → Hdr.crc f = .bad →
    Reaches (exec (.commandFrameAtCell id p f) s) fun t => (t.cell id.toNat).mode ≠ Mode.running ∧
      (t.cell id.toNat).mode ≠ Mode.coasting ∧ (t.cell id.toNat).lk.next = none ∧ (t.cell id.toNat).lk.recLow = none ∧
      (t.cell id.toNat).pw.entries = [] ∧ (Hdr.type f = 1 →
        (t.cell id.toNat).rd K.LNK_ERR_HDR_CRC = Nat.min 65535 ((s.cell id.toNat).rd K.LNK_ERR_HDR_CRC + 1))) ∧
  (∀ (s : State) (id : BitVec 64) (p : Fin 2) (f : List Byte), (s.cell id.toNat).mode = Mode.running → Hdr.type f = 1 →
    Hdr.block f = false → Hdr.nblock f = true → Hdr.maint f = false → Hdr.crc f = .good → 32 ≤ f.length → Hdr.ver f ≤ 0x12 →
    (s.cell id.toNat).hasPos = true → (s.cell id.toNat).isLow p = true → (s.cell id.toNat).on K.SUB_CFG_HEAD_EN = false →
    (s.cell id.toNat).tm.armed = false → (s.cell id.toNat).lk.counted = false ∨ Hdr.period f = (s.cell id.toNat).lk.period →
    slotState (s.cell id.toNat).pos f ((s.cell id.toNat).rd K.LNK_CFG_CMD_OFF) 16 = .good →
    Reaches (exec (.commandFrameAtCell id p f) s) fun t => (t.cell id.toNat).lk.recLow =
        some { header := f.take 32, body := (f.drop ((s.cell id.toNat).rd K.LNK_CFG_CMD_OFF)).take 14 } ∧
      (t.cell id.toNat).lk.period = Hdr.period f ∧ (t.cell id.toNat).lk.epoch = Hdr.epoch f ∧ (t.cell id.toNat).lk.lastGood = s.now ∧
      (t.cell id.toNat).mode = Mode.running ∧
      t.sent = (if (s.cell id.toNat).forwards p then [.cellFrame id.toNat (otherPort p) f] else []) ++ s.sent) ∧
  (∀ (s : State) (id : BitVec 64) (p : Fin 2) (f : List Byte), (s.cell id.toNat).mode ≠ Mode.reset → (s.cell id.toNat).mode ≠ Mode.selfTest →
    Hdr.type f = 3 → (s.cell id.toNat).hasPos = true → (s.cell id.toNat).lk.owed = [] → (s.cell id.toNat).forwards p = true →
    (s.cell id.toNat).lk.originated = false →
    exec (.collectionFrameAtCell id (p.castSucc) f) s = .next ((s.setCell id.toNat (s.cell id.toNat)).send (.cellFrame id.toNat (otherPort p)
      (patch f ((s.cell id.toNat).colOff p) ((s.cell id.toNat).ownSlots (Hdr.period f)))))) ∧
  (∀ (s : State) (id : BitVec 64) (p : Fin 2) (f : List Byte) (r : MbRsp) (rest : List MbRsp), (s.cell id.toNat).mode ≠ Mode.reset →
    (s.cell id.toNat).mode ≠ Mode.selfTest → Hdr.type f = 3 → Hdr.crc f = .good → (s.cell id.toNat).hasPos = true →
    (s.cell id.toNat).lk.owed = r :: rest → r.due ≤ Hdr.period f → bitsOf (byteAt f 12) 0 4 = 0 → 32 ≤ (s.cell id.toNat).colOff p →
    (s.cell id.toNat).forwards p = true → (s.cell id.toNat).lk.originated = false → 32 ≤ f.length →
    Reaches (exec (.collectionFrameAtCell id (p.castSucc) f) s) fun t => t.sent = .cellFrame id.toNat (otherPort p) t.lastBytes :: s.sent ∧
      (t.lastBytes.drop 12).take 16 = mbBytes r.req r.data r.result ∧ Hdr.crc t.lastBytes = .good) ∧
  (∀ (s : State) (id : BitVec 64) (p : Fin 2) (f : List Byte) (r : MbRsp) (rest : List MbRsp), (s.cell id.toNat).mode ≠ Mode.reset →
    (s.cell id.toNat).mode ≠ Mode.selfTest → Hdr.type f = 3 → (s.cell id.toNat).hasPos = true → 32 ≤ f.length →
    (s.cell id.toNat).lk.owed = r :: rest → r.due ≤ Hdr.period f → bitsOf (byteAt f 12) 0 4 ≠ 0 → 32 ≤ (s.cell id.toNat).colOff p →
    Reaches (exec (.collectionFrameAtCell id (p.castSucc) f) s) fun t => (t.cell id.toNat).lk.owed = r :: rest ∧
      (t.cell id.toNat).rd K.LNK_ERR2_MB_COLL = Nat.min 255 ((s.cell id.toNat).rd K.LNK_ERR2_MB_COLL + 1)) ∧
  (∀ (s : State) (id : BitVec 64), (s.cell id.toNat).originator = true → (s.cell id.toNat).lk.header.length = 32 →
    Reaches (exec (.upstreamOriginate id) s) fun t => (t.cell id.toNat).on K.LNK_STATUS_ORIGINATES = true ∧
      (t.cell id.toNat).lk.originated = true ∧
      t.sent = .cellFrame id.toNat (s.cell id.toNat).towardsHead t.lastBytes :: s.sent ∧ Hdr.type t.lastBytes = 3 ∧
      Hdr.period t.lastBytes = (s.cell id.toNat).lk.period % 2 ^ 32) ∧
  (∀ (s : State) (id : BitVec 64), (s.cell id.toNat).originator = false →
    CellBecomes (exec (.upstreamOriginate id) s) s id.toNat fun c => c = (s.cell id.toNat).put K.LNK_STATUS_ORIGINATES false) ∧
  (∀ (s : State) (p : Fin 48) (f : List Byte), s.on (R.PORT_STATUS_TRAINED p) = true → s.rd (R.PORT_STATUS_END p) = 1 → Hdr.type f = 3 →
    Hdr.crc f = .good → bitsOf (byteAt f 12) 0 4 = 0 → s.now ≤ s.sys.t0 + s.tCa → s.fCol p ≤ f.length → (s.port p).good = [] →
    (upto (s.ncell p)).all (fun pos => slotState pos f (s.cupOff p pos) 16 == .good && !s.sillage p pos &&
      bitsOf (byteAt f (s.cupOff p pos + 8)) 0 3 == 0) = true →
    Reaches (exec (.collectionFrameReceived p f) s) fun t => (t.port p).good = upto (s.ncell p) ∧ (t.port p).gotFrame = true ∧
      ∀ pos, pos < s.ncell p → (t.view (cellKey p pos)).slot = (f.drop (s.cupOff p pos)).take 14 ∧ (t.view (cellKey p pos)).cls = 0 ∧
        (t.view (cellKey p pos)).epochOk = decide (byteAt f (s.cupOff p pos + 1) = s.sys.echoEpoch % 256)) ∧
  (∀ (s : State) (p : Fin 48) (f : List Byte), s.on (R.PORT_STATUS_TRAINED p) = true → s.rd (R.PORT_STATUS_END p) = 1 → Hdr.type f = 3 →
    Hdr.crc f ≠ .good → s.sys.t0 + s.tCa < s.now →
    exec (.collectionFrameReceived p f) s = .next ({ s with lvl := { s.lvl with slotBad := true } }.inc (R.ERR_A_HDR_CRC p)))

/-- R198. -/
def Obligations.SlotCrcBindsPositionAndPeriod : Prop :=
  (∀ l : List Byte, crc16From 0xFFFF l =
    ((l.flatMap fun b => (List.range 8).map fun i => b.getLsbD (7 - i)).foldl
      (fun (c : BitVec 16) bit => if c.msb != bit then (c <<< 1) ^^^ 0x1021#16 else c <<< 1) 0xFFFF#16).toNat) ∧
  crc16From 0xFFFF [0x31#8, 0x32#8, 0x33#8, 0x34#8, 0x35#8, 0x36#8, 0x37#8, 0x38#8, 0x39#8] = 0x29B1 ∧
  (∀ (pos period : Nat) (body : List Byte), (slotBytes pos period body).take body.length = body ∧
    (slotBytes pos period body).length = body.length + 2 ∧
    leAt (slotBytes pos period body) body.length 2 = crc16From 0xFFFF (BitVec.ofNat 8 pos :: BitVec.ofNat 8 period :: body)) ∧
  (∀ (pos pos' : Nat) (f : List Byte) (off len : Nat) (g : List Byte), 2 ≤ len → off + len ≤ f.length → off + len ≤ g.length →
    (f.drop off).take len = (g.drop off).take len → slotState pos f off len = .good →
    (pos % 256 ≠ pos' % 256 ∨ Hdr.period f % 256 ≠ Hdr.period g % 256) → slotState pos' g off len ≠ .good)

/-- R205 to R211, R217, R218. -/
def Obligations.MailboxTransactionsRunOnce : Prop :=
  (∀ (s : State) (p : Fin 48), s.st ≠ St.reset → s.st ≠ St.selfTest → s.role = Role.solo → s.on (R.MB_STATUS_BUSY p) = false →
    s.goRefused p (s.softReq p) = none →
    Reaches (exec (.mbGo p) s) fun t => (t.port p).txn = some { tag := .soft, req := { s.softReq p with seq := ((s.port p).seq + 1) % 16, orig := s.rd R.TIE_STATUS_PAIR_ID }, ready := true, due := 0, tries := 0 } ∧
      t.on (R.MB_STATUS_BUSY p) = true ∧ t.rd (R.MB_STATUS_SEQ p) = ((s.port p).seq + 1) % 16 ∧ t.sent = s.sent ∧ t.cells = s.cells) ∧
  (∀ (s : State) (p : Fin 48), s.st ≠ St.reset → s.st ≠ St.selfTest → s.role = Role.solo → s.on (R.MB_STATUS_BUSY p) = true →
    exec (.mbGo p) s = .next (s.put (R.MB_STATUS_REFUSED p) true)) ∧
  (∀ (s : State) (id : BitVec 64) (r : MbReq) (d : Nat), (s.cell id.toNat).lk.inbox = some r → r.op = 1 → r.bc = false → r.addr % 4 = 0 →
    (s.cell id.toNat).readReg s.now (uidOf id.toNat) r.addr = some d →
    CellBecomes (exec (.mbRead id) s) s id.toNat fun c => c.lk.inbox = none ∧
      c.lk.owed = (s.cell id.toNat).lk.owed ++ [{ req := r, result := 0, data := d, due := (s.cell id.toNat).lk.period + 2 }] ∧
      c.regs = (s.cell id.toNat).regs ∧ c.mode = (s.cell id.toNat).mode) ∧
  (∀ (s : State) (id : BitVec 64) (r : MbReq), (s.cell id.toNat).lk.inbox = some r → r.op = 2 → r.bc = false → r.addr = 0x10008 →
    (s.cell id.toNat).writable = false → bitsOf r.data 0 16 ≠ (s.cell id.toNat).rd K.LNK_ORIG_T_ORIG →
    CellBecomes (exec (.mbWrite id) s) s id.toNat fun c => c.lk.inbox = none ∧
      c.lk.owed = (s.cell id.toNat).lk.owed ++ [{ req := r, result := 2, data := 0, due := (s.cell id.toNat).lk.period + 2 }] ∧
      c.regs = (s.cell id.toNat).regs) ∧
  (∀ (s : State) (id : BitVec 64) (r : MbReq), (s.cell id.toNat).lk.inbox = some r → r.op = 2 → r.bc = false → r.addr = 0x10008 →
    (s.cell id.toNat).writable = true →
    CellBecomes (exec (.mbWrite id) s) s id.toNat fun c => c.lk.inbox = none ∧
      c.lk.owed = (s.cell id.toNat).lk.owed ++ [{ req := r, result := 0, data := 0, due := (s.cell id.toNat).lk.period + 2 }] ∧
      c.rd K.LNK_ORIG_T_ORIG = bitsOf r.data 0 16 ∧ c.rd K.LNK_ORIG_NCELL = bitsOf r.data 16 7 ∧
      ∀ a, a ≠ 0x10008 → c.word a = (s.cell id.toNat).word a) ∧
  (∀ (s : State) (id : BitVec 64) (r : MbReq) (d : Nat), (s.cell id.toNat).lk.inbox = some r → r.op = 3 → r.bc = false → r.addr % 4 = 0 →
    0x13 ≤ (s.cell id.toNat).runVer → (s.cell id.toNat).readReg s.now (uidOf id.toNat) r.addr = some d →
    ((s.cell id.toNat).writeReg s.now r.addr d).1.lk = (s.cell id.toNat).lk →
    CellBecomes (exec (.mbReadClear id) s) s id.toNat fun c => c.lk.inbox = none ∧
      c.lk.owed = (s.cell id.toNat).lk.owed ++
        [{ req := r, result := ((s.cell id.toNat).writeReg s.now r.addr d).2, data := d, due := (s.cell id.toNat).lk.period + 2 }] ∧
      c.regs = ((s.cell id.toNat).writeReg s.now r.addr d).1.regs) ∧
  (∀ (s : State) (id : BitVec 64) (r : MbReq), (s.cell id.toNat).lk.inbox = some r → r.op = 4 → r.addr = 1 →
    (s.cell id.toNat).mode = Mode.safeHold ∨ (s.cell id.toNat).mode = Mode.enumerated ∨ (s.cell id.toNat).mode = Mode.blocked ∨
      (s.cell id.toNat).mode = Mode.bypassed →
    CellBecomes (exec (.mbCmdReset id) s) s id.toNat fun c => c.mode = Mode.reset ∧ c.lk.owed = [] ∧ c.lk.inbox = none ∧ c.GatesOff ∧
      c.lk.up = none) ∧
  (∀ (s : State) (id : BitVec 64) (r : MbReq), (s.cell id.toNat).lk.inbox = some r → r.op = 4 → r.addr = 2 → r.data = 0xA5A5 → r.bc = false →
    (s.cell id.toNat).mode ≠ Mode.reset → (s.cell id.toNat).mode ≠ Mode.locked → (s.cell id.toNat).pw.byp = false →
    CellBecomes (exec (.mbCmdBypass id) s) s id.toNat fun c => c.mode = Mode.bypassed ∧ c.pw.bypassing = true ∧ c.GatesOff ∧
      c.lk.owed = (s.cell id.toNat).lk.owed ++ [{ req := r, result := 0, data := 0, due := (s.cell id.toNat).lk.period + 2 }]) ∧
  (∀ (s : State) (id : BitVec 64) (r : MbReq), (s.cell id.toNat).lk.inbox = some r → r.op = 5 → r.addr = 0x10008 →
    (s.cell id.toNat).writable = true → r.path < 2 ^ 16 →
    CellBecomes (exec (.mbMaskedWrite id) s) s id.toNat fun c => c.lk.inbox = none ∧ c.lk.owed = (s.cell id.toNat).lk.owed ∧
      c.rd K.LNK_ORIG_T_ORIG = (((s.cell id.toNat).rd K.LNK_ORIG_T_ORIG &&& (0xFFFF ^^^ r.path)) ||| (r.data &&& r.path)) ∧
      c.rd K.LNK_ORIG_NCELL = (s.cell id.toNat).rd K.LNK_ORIG_NCELL) ∧
  (∀ (s : State) (id : BitVec 64) (r : MbReq), (s.cell id.toNat).lk.inbox = some r → r.op = 6 → r.bc = false → r.addr < 6 →
    CellBecomes (exec (.mbIdentify id) s) s id.toNat fun c => c.lk.inbox = none ∧
      c.lk.owed = (s.cell id.toNat).lk.owed ++ [{ req := r, result := 0, due := (s.cell id.toNat).lk.period + 2, data :=
        [uidOf id.toNat % 2 ^ 32, uidOf id.toNat / 2 ^ 32, 0x00010002, (s.cell id.toNat).verItem, (s.cell id.toNat).compoundItem, (s.cell id.toNat).rd K.SUB_LAT_PROP].getD r.addr 0 }] ∧
      c.regs = (s.cell id.toNat).regs) ∧
  (∀ (s : State) (id : BitVec 64) (r : MbReq), (s.cell id.toNat).lk.inbox = some r → r.op = 6 → r.bc = false → 6 ≤ r.addr →
    CellBecomes (exec (.mbIdentify id) s) s id.toNat fun c => c.regs = (s.cell id.toNat).regs ∧
      c.lk.owed = (s.cell id.toNat).lk.owed ++ [{ req := r, result := 1, data := 0, due := (s.cell id.toNat).lk.period + 2 }]) ∧
  (∀ (s : State) (id : BitVec 64) (r : MbReq), (s.cell id.toNat).lk.inbox = some r → r.op = 7 → r.bc = false → r.addr = 1 →
    (s.cell id.toNat).mode = Mode.safeHold ∨ (s.cell id.toNat).mode = Mode.enumerated →
    CellBecomes (exec (.mbAccept id) s) s id.toNat fun c =>
      c.mode = (if (s.cell id.toNat).stFail = false ∧ r.data = uidOf id.toNat % 2 ^ 32 then Mode.enumerated else (s.cell id.toNat).mode) ∧
      c.lk.owed = (s.cell id.toNat).lk.owed ++ [{ req := r, data := 0, due := (s.cell id.toNat).lk.period + 2, result := if (s.cell id.toNat).stFail then 2 else if r.data = uidOf id.toNat % 2 ^ 32 then 0 else 3 }] ∧
      c.regs = (s.cell id.toNat).regs) ∧
  (∀ (s : State) (p : Fin 48) (x : Txn) (b : List Byte), (s.port p).rsp = some b → (s.port p).txn = some x → x.tag = .soft → 0 < x.tries →
    bitsOf (byteAt b 0) 0 4 = x.req.op → bitsOf (byteAt b 0) 4 4 = x.req.seq → bitsOf (byteAt b 1) 0 7 = x.req.pos →
    bitsOf (byteAt b 14) 0 1 = x.req.orig → (s.port p).own = [] → (s.port p).partner = [] → s.od.jobs = [] →
    Reaches (exec (.mbResponse p) s) fun t => (t.port p).txn = none ∧ (t.port p).rsp = none ∧ t.on (R.MB_STATUS_BUSY p) = false ∧
      t.on (R.MB_STATUS_DONE p) = true ∧ t.rd (R.MB_STATUS_RESULT p) = byteAt b 15 ∧ t.rd (R.MB_RDATA_RDATA p) = leAt b 10 4 ∧
      t.on (R.MB_STATUS_TIMEOUT p) = s.on (R.MB_STATUS_TIMEOUT p)) ∧
  (∀ (s : State) (p : Fin 48) (x : Txn), (s.port p).txn = some x → x.ready = false → x.due + s.rd (R.PORT_CFG_MB_TO p) ≤ s.sys.period →
    x.tries ≤ s.rd (R.PORT_CFG_MB_RETRY p) → s.od.jobs = [] →
    exec (.mbTimeout p) s = .next (s.onPort p fun y => { y with txn := some { x with ready := true } })) ∧
  (∀ (s : State) (p : Fin 48) (x : Txn), (s.port p).txn = some x → x.ready = false → x.due + s.rd (R.PORT_CFG_MB_TO p) ≤ s.sys.period →
    s.rd (R.PORT_CFG_MB_RETRY p) < x.tries → x.tag = .soft → (s.port p).own = [] → (s.port p).partner = [] → s.od.jobs = [] →
    Reaches (exec (.mbTimeout p) s) fun t => (t.port p).txn = none ∧ t.on (R.MB_STATUS_TIMEOUT p) = true ∧
      t.on (R.MB_STATUS_BUSY p) = false ∧ t.on (R.MB_STATUS_DONE p) = s.on (R.MB_STATUS_DONE p))

/-- R186, R215, R216, R218 to R223. -/
def Obligations.CellsAreFoundAcceptedAndJoined : Prop :=
  (∀ (s : State) (id : BitVec 64) (p : Fin 2) (d2 d3 : BitVec 8), (s.cell id.toNat).mode ≠ Mode.reset →
    (s.cell id.toNat).mode ≠ Mode.selfTest → (s.cell id.toNat).lk.up = none → d3.toNat ≤ 0x5F →
    Reaches (exec (.upstreamSelected id p d2 d3) s) fun t => (t.cell id.toNat).lk.up = some p.val ∧ (t.cell id.toNat).pos = d3.toNat ∧
      (t.cell id.toNat).rd K.LNK_STATUS_UP_PORT = p.val ∧ t.regs = s.regs ∧
      t.sent = [.cellSet id.toNat (otherPort p) 1 (Nat.min d2.toNat 0x12) (d3.toNat + 1), .cellSet id.toNat p 2 0x12 0] ++ s.sent) ∧
  (∀ (s : State) (id : BitVec 64) (p : Fin 2) (d2 d3 : BitVec 8), (s.cell id.toNat).mode ≠ Mode.reset →
    (s.cell id.toNat).mode ≠ Mode.selfTest → (s.cell id.toNat).lk.up = some (otherPort p) →
    CellBecomes (exec (.upstreamSelected id p d2 d3) s) s id.toNat fun c => c.lk.dualUp = true ∧ c.pos = (s.cell id.toNat).pos ∧
      c.lk.up = some (otherPort p)) ∧
  (∀ (s : State) (p : Fin 48), s.st ≠ St.reset → s.st ≠ St.selfTest → s.role = Role.solo → s.on (R.ENUM_STATUS_BUSY p) = false →
    Reaches (exec (.enumStart p) s) fun t => t.on (R.ENUM_STATUS_BUSY p) = true ∧ t.cells = s.cells ∧ t.st = s.st ∧
      ((s.port p).txn = none → (s.port p).own = [] → ∃ x, (t.port p).txn = some x ∧ x.req.op = 6 ∧ x.req.pos = 0 ∧ x.req.addr = 0)) ∧
  (∀ (s : State) (p : Fin 48) (pos : Fin 96) (v : BitVec 32), s.writable = true → s.role = Role.solo → s.on (R.ENUM_STATUS_BUSY p) = false →
    bitOf v.toNat 3 = false → bitOf v.toNat 4 = false → bitsOf v.toNat 8 7 = pos.val →
    s.rd (R.EXP_W3_VERDICT p pos) = Verdict.foreign ∨ s.rd (R.EXP_W3_VERDICT p pos) = Verdict.unexpected →
    (s.port p).txn = none → (s.port p).own = [] →
    Reaches (exec (.enumAccept p v) s) fun t => t.rd (R.EXP_W3_VERDICT p pos) = Verdict.ok ∧ t.on (R.EXP_W2_EXPECT p pos) = true ∧
      t.rd (R.EXP_W0_UID_LO p pos) = s.rd (R.EXP_RPTLO_UID p pos) ∧ t.rd (R.EXP_W1_UID_HI p pos) = s.rd (R.EXP_RPTHI_UID p pos) ∧
      ((t.port p).txn.map fun x => (x.req.op, x.req.pos, x.req.addr, x.req.data)) = some (7, pos.val, 1, s.rd (R.EXP_RPTLO_UID p pos))) ∧
  (∀ (s : State) (p : Fin 48) (pos : Fin 96) (v : BitVec 32), s.writable = true → s.role = Role.solo → s.on (R.ENUM_STATUS_BUSY p) = false →
    bitOf v.toNat 3 = false → bitOf v.toNat 4 = false → bitsOf v.toNat 8 7 = pos.val →
    s.rd (R.EXP_W3_VERDICT p pos) ≠ Verdict.foreign → s.rd (R.EXP_W3_VERDICT p pos) ≠ Verdict.unexpected →
    exec (.enumAccept p v) s = .next (s.put (R.ENUM_STATUS_REFUSED p) true)) ∧
  (∀ (s : State) (p : Fin 48) (pos : Fin 96), s.inService = true → s.controls = true → (s.port p).joinFailed = [(pos.val, 0)] →
    (s.port p).txn = none → (s.port p).own = [] →
    Reaches (exec (.cellJoinRetry (BitVec.ofNat 64 (p.val * 128 + pos.val))) s) fun t => (t.port p).joinFailed = [] ∧
      ((t.port p).txn.map fun x => (x.req.op, x.req.pos, x.req.addr)) = some (2, pos.val, 0x40004)) ∧
  (∀ (s : State) (p uid ver low : Nat), bitsOf ver 8 8 = low → s.rd (R.ENUM_VER_RUN p) = 0 → low ≤ 0x13 → bitsOf ver 4 4 = 1 →
    s.judge p none uid ver = Verdict.unexpected ∧
      ∀ u e port, s.judge p (some (u, e, port)) uid ver = if e = false then Verdict.unexpected else if u ≠ uid then Verdict.foreign
        else if bitOf ver 26 then Verdict.stFail else Verdict.ok)

/-! ### Cell measurement (09) -/

/-- R244 to R247, R252 to R258, R261, R262. -/
def Obligations.CellsMeasureAndCalibrate : Prop :=
  (∀ (s : State) (id : BitVec 64) (raw : BitVec 16), (s.cell id.toNat).ad.elem < (s.cell id.toNat).hrd K.SEQ_CFG_SEQ_LEN →
    (s.cell id.toNat).channelOk ((s.cell id.toNat).element (s.cell id.toNat).ad.elem) = true → (s.cell id.toNat).ad.suspect = 0 →
    CellBecomes (exec (.conversionDone id 0 raw 0) s) s id.toNat fun c => c.ad.elem = (s.cell id.toNat).ad.elem + 1 ∧
      c.rd (K.RES_VALUE ((s.cell id.toNat).element (s.cell id.toNat).ad.elem)) =
        (s.cell id.toNat).aligned ((s.cell id.toNat).element (s.cell id.toNat).ad.elem) ((s.cell id.toNat).calibrated ((s.cell id.toNat).element (s.cell id.toNat).ad.elem) raw.toNat) ∧
      c.on (K.RES_ST_SUSPECT ((s.cell id.toNat).element (s.cell id.toNat).ad.elem)) = false ∧
      c.on (K.RES_ST_OVR_LAST ((s.cell id.toNat).element (s.cell id.toNat).ad.elem)) = false ∧
      c.on (K.RES_ST_STALE ((s.cell id.toNat).element (s.cell id.toNat).ad.elem)) = false ∧
      c.rd K.OVR_FLAG_OVR = (s.cell id.toNat).rd K.OVR_FLAG_OVR ∧ c.mode = (s.cell id.toNat).mode) ∧
  (∀ (s : State) (id : BitVec 64) (raw : BitVec 16) (range : Fin 3), range ≠ 0 →
    (s.cell id.toNat).ad.elem < (s.cell id.toNat).hrd K.SEQ_CFG_SEQ_LEN →
    (s.cell id.toNat).channelOk ((s.cell id.toNat).element (s.cell id.toNat).ad.elem) = true →
    (s.cell id.toNat).rd (K.CFLT_CLASS_CLASS 1 0) ≤ 2 → (s.cell id.toNat).on (K.CFLT_CLASS_BYP 1 0) = false →
    CellBecomes (exec (.conversionDone id 0 raw range) s) s id.toNat fun c => c.ad.suspect = 2 ∧
      c.bit K.OVR_FLAG_OVR ((s.cell id.toNat).element (s.cell id.toNat).ad.elem) = true ∧
      c.rd (K.RES_VALUE ((s.cell id.toNat).element (s.cell id.toNat).ad.elem)) =
        (s.cell id.toNat).aligned ((s.cell id.toNat).element (s.cell id.toNat).ad.elem)
          (if (s.cell id.toNat).signed ((s.cell id.toNat).element (s.cell id.toNat).ad.elem) then (if range = 1 then 0x7FFF else 0x8000)
            else (if range = 1 then 0xFFFF else 0)) ∧
      c.on (K.RES_ST_OVR_LAST ((s.cell id.toNat).element (s.cell id.toNat).ad.elem)) = true) ∧
  (∀ (s : State) (id : BitVec 64) (raw : BitVec 16) (ch : Nat) (urgent : Bool), injNext (s.cell id.toNat).ad.inj = some (ch, urgent) →
    ch < 12 → (s.cell id.toNat).ad.inj.length ≤ 4 →
    CellBecomes (exec (.conversionDone id 1 raw 0) s) s id.toNat fun c => c.ad.inj = (s.cell id.toNat).ad.inj.erase (ch, urgent) ∧
      c.rd K.INJ_RESULT_VALUE = (s.cell id.toNat).aligned ch ((s.cell id.toNat).calibrated ch raw.toNat) ∧
      c.rd K.INJ_INFO_CH = ch ∧ c.on K.INJ_INFO_URGENT = urgent ∧ c.on K.INJ_INFO_OVR = false ∧ c.on K.INJ_STATUS_DONE = true ∧
      c.rd K.INJ_STATUS_COUNT = ((s.cell id.toNat).rd K.INJ_STATUS_COUNT + 1) % 256 ∧
      c.rd K.INJ_STATUS_DEPTH = (s.cell id.toNat).ad.inj.length - 1) ∧
  (∀ (s : State) (id : BitVec 64) (raw : BitVec 16) (step ch ref n : Nat) (sum : Int), (s.cell id.toNat).ad.cal = some (step, ch, ref, n, sum) →
    (s.cell id.toNat).ad.suspect = 0 → (s.cell id.toNat).rd K.CAL_STATUS_CONV < n → n ≤ 64 →
    CellBecomes (exec (.conversionDone id 2 raw 0) s) s id.toNat fun c =>
      c.ad.cal = some (step, ch, ref, n, sum + (s.cell id.toNat).codeInt ch raw.toNat) ∧
      c.rd K.CAL_STATUS_CONV = (s.cell id.toNat).rd K.CAL_STATUS_CONV + 1) ∧
  (∀ (s : State) (id : BitVec 64) (ch : Fin 16) (urgent : Bool), (s.cell id.toNat).hold.channelOk ch = true →
    (s.cell id.toNat).ad.inj.length < 4 →
    CellBecomes (exec (.injReq id ch urgent) s) s id.toNat fun c => c.ad.inj = (s.cell id.toNat).ad.inj ++ [(ch.val, urgent)] ∧
      c.rd K.INJ_STATUS_DEPTH = (s.cell id.toNat).ad.inj.length + 1) ∧
  (∀ (s : State) (id : BitVec 64) (ch : Fin 16) (urgent : Bool), 4 ≤ (s.cell id.toNat).ad.inj.length →
    (s.cell id.toNat).hold.channelOk ch = true →
    CellBecomes (exec (.injReq id ch urgent) s) s id.toNat fun c => c = (s.cell id.toNat).put K.INJ_STATUS_OVF true) ∧
  (∀ (s : State) (id : BitVec 64) (ch : Fin 16), (s.cell id.toNat).writable = true → (s.cell id.toNat).on K.CAL_STATUS_CAL_BUSY = false →
    (s.cell id.toNat).hold.channelOk ch = true →
    CellBecomes (exec (.calZero id ch) s) s id.toNat fun c => c.ad.cal = some (1, ch.val, 0, 8 * 2 ^ (s.cell id.toNat).rd K.ADC_CFG_CAL_N, 0) ∧
      c.on K.CAL_STATUS_CAL_BUSY = true ∧ c.on K.ADC_STATUS_CAL_BUSY = true ∧ c.rd K.CAL_STATUS_CH = ch ∧ c.rd K.CAL_STATUS_CONV = 0) ∧
  (∀ (s : State) (id : BitVec 64) (ch : Fin 16), (s.cell id.toNat).writable = false ∨ (s.cell id.toNat).on K.CAL_STATUS_CAL_BUSY = true →
    CellBecomes (exec (.calZero id ch) s) s id.toNat fun c => c = s.cell id.toNat) ∧
  (∀ (s : State) (id : BitVec 64) (ch : Fin 16) (ref : BitVec 16), (s.cell id.toNat).writable = true →
    (s.cell id.toNat).on K.CAL_STATUS_CAL_BUSY = false → (s.cell id.toNat).hold.channelOk ch = true →
    (s.cell id.toNat).ad.zero.map Prod.fst = some ch.val →
    CellBecomes (exec (.calFull id ch ref) s) s id.toNat fun c =>
      c.ad.cal = some (2, ch.val, ref.toNat, 8 * 2 ^ (s.cell id.toNat).rd K.ADC_CFG_CAL_N, 0) ∧ c.ad.zero = (s.cell id.toNat).ad.zero ∧
      c.on K.CAL_STATUS_CAL_BUSY = true ∧ c.on K.CAL_STATUS_ZERO_DONE = true) ∧
  (∀ (s : State) (id : BitVec 64) (ch : Fin 16) (ref : BitVec 16), (s.cell id.toNat).writable = true →
    (s.cell id.toNat).on K.CAL_STATUS_CAL_BUSY = false → (s.cell id.toNat).hold.channelOk ch = true →
    (s.cell id.toNat).ad.zero.map Prod.fst ≠ some ch.val →
    CellBecomes (exec (.calFull id ch ref) s) s id.toNat fun c => c.ad.cal = none ∧ c.on K.CAL_STATUS_CAL_BUSY = false ∧
      c.on K.CAL_STATUS_CAL_ERR = true ∧ c.rd K.CAL_STATUS_ERR_CODE = 3 ∧ ∀ i, i < 12 → c.rd (K.CAL_OFF i) = (s.cell id.toNat).rd (K.CAL_OFF i)) ∧
  (∀ (s : State) (id : BitVec 64), (s.cell id.toNat).on K.CAL_STATUS_CAL_BUSY = true →
    CellBecomes (exec (.calAbort id) s) s id.toNat fun c => c.ad.cal = none ∧ c.on K.CAL_STATUS_CAL_BUSY = false ∧
      c.on K.CAL_STATUS_CAL_ERR = true ∧ c.rd K.CAL_STATUS_ERR_CODE = 3 ∧ ∀ i, i < 12 → c.rd (K.CAL_OFF i) = (s.cell id.toNat).rd (K.CAL_OFF i)) ∧
  (∀ (s : State) (id : BitVec 64) (ch ref n : Nat) (sum : Int), (s.cell id.toNat).ad.cal = some (1, ch, ref, n, sum) →
    n ≤ (s.cell id.toNat).rd K.CAL_STATUS_CONV →
    CellBecomes (exec (.calStepDone id) s) s id.toNat fun c => c.ad.zero = some (ch, rneDivInt sum n) ∧ c.ad.cal = none ∧
      c.on K.CAL_STATUS_ZERO_DONE = true ∧ c.on K.CAL_STATUS_DONE = true ∧ c.on K.CAL_STATUS_CAL_BUSY = false) ∧
  (∀ (s : State) (id : BitVec 64) (ch ref n : Nat) (sum z : Int), (s.cell id.toNat).ad.cal = some (2, ch, ref, n, sum) → ch < 12 →
    n ≤ (s.cell id.toNat).rd K.CAL_STATUS_CONV → (s.cell id.toNat).ad.zero = some (ch, z) → -32768 ≤ z → z ≤ 32767 → z < rneDivInt sum n →
    0x4000 ≤ rneDivInt ((s.cell id.toNat).codeInt ch ref * 32768) (rneDivInt sum n - z).toNat →
    rneDivInt ((s.cell id.toNat).codeInt ch ref * 32768) (rneDivInt sum n - z).toNat ≤ 0xFFFF →
    CellBecomes (exec (.calStepDone id) s) s id.toNat fun c => toSigned 16 (c.rd (K.CAL_OFF ch)) = z ∧
      (c.rd (K.CAL_GAIN ch) : Int) = rneDivInt ((s.cell id.toNat).codeInt ch ref * 32768) (rneDivInt sum n - z).toNat ∧
      c.on K.CAL_STATUS_ZERO_DONE = false ∧ c.on K.CAL_STATUS_DONE = true ∧ c.ad.zero = none ∧ c.on K.CAL_STATUS_CAL_BUSY = false) ∧
  (∀ (s : State) (id : BitVec 64) (ch ref n : Nat) (sum z : Int), (s.cell id.toNat).ad.cal = some (2, ch, ref, n, sum) →
    n ≤ (s.cell id.toNat).rd K.CAL_STATUS_CONV → (s.cell id.toNat).ad.zero = some (ch, z) → rneDivInt sum n = z →
    CellBecomes (exec (.calStepDone id) s) s id.toNat fun c => c.on K.CAL_STATUS_CAL_ERR = true ∧ c.rd K.CAL_STATUS_ERR_CODE = 2 ∧
      c.ad.cal = none ∧ c.on K.CAL_STATUS_CAL_BUSY = false ∧ ∀ i, i < 12 → c.rd (K.CAL_OFF i) = (s.cell id.toNat).rd (K.CAL_OFF i)) ∧
  (∀ (s : State) (id : BitVec 64) (ch : Fin 12), (s.cell id.toNat).on (K.OW_CFG_EN ch) = true → (s.cell id.toNat).channelOk ch = true →
    (s.cell id.toNat).rd (K.OW_CFG_PER ch) ≤ mapGet (fun _ => 0) (s.cell id.toNat).ad.owPer ch → (s.cell id.toNat).ad.inj = [] →
    CellBecomes (exec (.openWireTest id ch) s) s id.toNat fun c => c.ad.owOn = some ch.val ∧
      mapGet (fun _ => 0) c.ad.owPer ch = 0 ∧ c.regs = (s.cell id.toNat).regs) ∧
  (∀ (s : State) (id : BitVec 64) (ref test : BitVec 16) (ch : Nat), (s.cell id.toNat).ad.owOn = some ch → ch < 12 →
    (s.cell id.toNat).ad.suspect = 0 → (s.cell id.toNat).rd (K.OW_CFG_N ch) ≤ mapGet (fun _ => 0) (s.cell id.toNat).ad.owRun ch + 1 →
    (s.cell id.toNat).rd (K.OW_CFG_DELTA ch) * 16 < ((s.cell id.toNat).codeInt ch test.toNat - (s.cell id.toNat).codeInt ch ref.toNat).natAbs →
    CellBecomes (exec (.openWireDone id ref test 0 0) s) s id.toNat fun c => c.bit K.OW_OPEN_OPEN ch = true ∧ c.ad.owOn = none ∧
      mapGet (fun _ => 0) c.ad.owRun ch = 0) ∧
  (∀ (s : State) (id : BitVec 64) (ref test : BitVec 16) (ch : Nat), (s.cell id.toNat).ad.owOn = some ch → (s.cell id.toNat).ad.suspect = 0 →
    ((s.cell id.toNat).codeInt ch test.toNat - (s.cell id.toNat).codeInt ch ref.toNat).natAbs ≤ (s.cell id.toNat).rd (K.OW_CFG_DELTA ch) * 16 →
    CellBecomes (exec (.openWireDone id ref test 0 0) s) s id.toNat fun c => c.regs = (s.cell id.toNat).regs ∧ c.ad.owOn = none ∧
      mapGet (fun _ => 0) c.ad.owRun ch = 0)

/-- R244. -/
def Obligations.CalibratedCodeIsRoundedAndClamped : Prop :=
  (∀ (c : Cell) (ch raw : Nat), ch < 12 → raw < 2 ^ 16 → ∃ v : Int,
    2 * ((c.codeInt ch raw - toSigned 16 (c.rd (K.CAL_OFF ch))) * c.rd (K.CAL_GAIN ch) - 32768 * v).natAbs ≤ 32768 ∧
    (2 * ((c.codeInt ch raw - toSigned 16 (c.rd (K.CAL_OFF ch))) * c.rd (K.CAL_GAIN ch) - 32768 * v).natAbs = 32768 → v % 2 = 0) ∧
    c.codeInt ch (c.calibrated ch raw) = if c.signed ch then max (-32768) (min 32767 v) else max 0 (min 65535 v)) ∧
  (∀ (s : State) (id : BitVec 64) (raw : BitVec 16), (s.cell id.toNat).ad.elem < (s.cell id.toNat).hrd K.SEQ_CFG_SEQ_LEN →
    (s.cell id.toNat).channelOk ((s.cell id.toNat).element (s.cell id.toNat).ad.elem) = true →
    CellBecomes (exec (.conversionDone id 0 raw 0) s) s id.toNat fun c =>
      c.rd (K.RES_VALUE ((s.cell id.toNat).element (s.cell id.toNat).ad.elem)) =
        (s.cell id.toNat).aligned ((s.cell id.toNat).element (s.cell id.toNat).ad.elem) ((s.cell id.toNat).calibrated ((s.cell id.toNat).element (s.cell id.toNat).ad.elem) raw.toNat) ∧
      c.rd K.OVR_FLAG_OVR = (s.cell id.toNat).rd K.OVR_FLAG_OVR ∧
      c.on (K.RES_ST_OVR_LAST ((s.cell id.toNat).element (s.cell id.toNat).ad.elem)) = false) ∧
  (∀ (c : Cell) (now v ch : Nat), ch < 12 → bitsOf v 16 16 < 0x4000 → 0x4000 ≤ c.rd (K.CAL_GAIN ch) →
    (c.writeReg now (K.CAL_GAIN ch).addr v).1 = c) ∧
  (∀ ch raw : Nat, ch < 12 → raw < 2 ^ 16 → Cell.reset.rd (K.CAL_OFF ch) = 0 ∧ Cell.reset.rd (K.CAL_GAIN ch) = 0x8000 ∧
    Cell.reset.calibrated ch raw = raw)

/-! ### Central analogue and event inputs (10) -/

/-- R274, R277, R278, R281 to R286. -/
def Obligations.CentralInputEventsTakeEffect : Prop :=
  (∀ (s : State) (n : Fin 8), s.inputsRun = true → s.rd (R.FLT_SRC_CFG_BASE 53) ≤ 2 → s.rd (R.FLT_SRC_CFG_ESC_N 53) = 0 →
    Reaches (exec (.sarFault n) s) fun t => t.on (R.SAR_STATUS_FAULT n) = true ∧ t.on (R.SAR_STATUS_STALE n) = true ∧
      t.rd (R.SAR_RES_CODE n) = s.rd (R.SAR_RES_CODE n) ∧ t.rd (R.FLT_SRC_ST_EVT_CNT 53) = Nat.min 65535 (s.rd (R.FLT_SRC_ST_EVT_CNT 53) + 1)) ∧
  (∀ (s : State) (d : Fin 24), s.inputsRun = true → s.on (R.SD_CFG_EN d) = true → s.rd (R.FLT_SRC_CFG_BASE 54) ≤ 2 →
    s.rd (R.FLT_SRC_CFG_ESC_N 54) = 0 →
    Reaches (exec (.sdClkLoss d) s) fun t => t.on (R.SD_STATUS_CLK_LOSS d) = true ∧ mapGet noneAt t.inp.sdBits d = [] ∧
      mapGet (fun _ => none) t.inp.sdRun d = none ∧ t.rd (R.SD_RES_CODE d) = s.rd (R.SD_RES_CODE d)) ∧
  (∀ (s : State) (d : Fin 24) (level : Bool), s.inputsRun = true → s.on (R.SD_CFG_EN d) = true → s.rd (R.FLT_SRC_CFG_BASE 54) ≤ 2 →
    s.rd (R.FLT_SRC_CFG_ESC_N 54) = 0 →
    Reaches (exec (.sdModFault d level) s) fun t => t.on (R.SD_STATUS_MOD_FAULT d) = true ∧ mapGet noneAt t.inp.sdBits d = [] ∧
      mapGet (fun _ => none) t.inp.sdRun d = some level) ∧
  (∀ (s : State) (i : Fin 4), s.inputsRun = true → s.rd (R.PI_CFG_MODE i) = 3 → s.on (R.PI_CFG_DIR_INV i) = false →
    bitOf s.inp.piA i = false → bitOf s.inp.piB i = false →
    Reaches (exec (.piEdge i true false) s) fun t => t.rd (R.PI_CNT_CNT i) = (s.rd (R.PI_CNT_CNT i) + 1) % 2 ^ 32 ∧
      bitOf t.inp.piA i = true ∧ bitOf t.inp.piB i = false) ∧
  (∀ (s : State) (i : Fin 4), s.inputsRun = true → s.rd (R.PI_CFG_MODE i) = 3 → bitOf s.inp.piA i = false → bitOf s.inp.piB i = false →
    s.rd (R.FLT_SRC_CFG_BASE 55) ≤ 2 → s.rd (R.FLT_SRC_CFG_ESC_N 55) = 0 →
    Reaches (exec (.piEdge i true true) s) fun t => t.rd (R.PI_CNT_CNT i) = s.rd (R.PI_CNT_CNT i) ∧ t.on (R.PI_STATUS_QERR i) = true ∧
      t.rd (R.PI_STATUS_QERR_CNT i) = Nat.min (2 ^ (R.PI_STATUS_QERR_CNT i).width - 1) (s.rd (R.PI_STATUS_QERR_CNT i) + 1)) ∧
  (∀ (s : State) (i : Fin 4) (b : Bool), s.inputsRun = true → s.rd (R.PI_CFG_MODE i) = 2 → bitOf s.inp.piA i = false →
    s.on (R.PI_CFG_DIR_INV i) = false →
    Reaches (exec (.piEdge i true b) s) fun t =>
      t.rd (R.PI_CNT_CNT i) = (if b then s.rd (R.PI_CNT_CNT i) + (2 ^ 32 - 1) else s.rd (R.PI_CNT_CNT i) + 1) % 2 ^ 32) ∧
  (∀ (s : State) (i : Fin 4) (v : BitVec 32), s.st ≠ St.reset → s.st ≠ St.selfTest → s.role = Role.solo →
    Reaches (exec (.piCntPreset i v) s) fun t => t.rd (R.PI_CNT_CNT i) = v.toNat ∧ t.inp = s.inp) ∧
  (∀ (s : State) (n : Fin 64), s.inputsRun = true → s.on (R.GPIO_CFG_DIR n) = false → s.on (R.GPIO_STATUS_FILTERED n) = false →
    s.rd (R.GPIO_RATE_RATE_N n) = 0 → s.on (R.GPIO_STATUS_FROZEN n) = false → s.rd (R.GPIO_CFG_EDGE n) % 2 = 1 →
    s.inp.fifo.length < 256 → (∀ e, e < 8 → s.on (R.FLT_EXT_EN e) = false) →
    Reaches (exec (.gpioEdge n true) s) fun t => t.on (R.GPIO_STATUS_FILTERED n) = true ∧ t.on (R.GPIO_STATUS_DELIVERED n) = true ∧
      t.inp.fifo = insertEvt ⟨s.now - 4 * (s.rd (R.GPIO_CFG_FILT n) + 2), n, true, false⟩ s.inp.fifo ∧
      t.rd R.EVT_STATUS_DEPTH = s.inp.fifo.length + 1) ∧
  (∀ (s : State) (n : Fin 64) (level : Bool) (at' : Nat), s.inputsRun = true → s.on (R.GPIO_CFG_DIR n) = false →
    s.on (R.GPIO_STATUS_FILTERED n) = !level → s.rd (R.GPIO_RATE_RATE_N n) = 1 → mapGet noneAt s.inp.edges n = [at'] →
    s.now - at' < s.rd (R.GPIO_RATE_RATE_W n) * 1000 → s.rd (R.FLT_SRC_CFG_BASE 56) ≤ 2 → s.rd (R.FLT_SRC_CFG_ESC_N 56) = 0 →
    Reaches (exec (.gpioEdge n level) s) fun t => t.inp.fifo = s.inp.fifo ∧ t.on (R.GPIO_STATUS_FILTERED n) = level ∧
      t.on (R.GPIO_STATUS_DELIVERED n) = s.on (R.GPIO_STATUS_DELIVERED n) ∧ t.on (R.GPIO_STATUS_FROZEN n) = true ∧
      (s.on (R.GPIO_STATUS_FROZEN n) = false → t.on (R.GPIO_STATUS_CHATTER n) = true) ∧ mapGet noneAt t.inp.edges n = [s.now]) ∧
  (∀ (s : State) (n : Fin 64), s.inputsRun = true → s.on (R.GPIO_STATUS_FROZEN n) = true →
    (mapGet noneAt s.inp.edges n).getLastD 0 + s.rd (R.GPIO_RATE_RATE_W n) * 1000 ≤ s.now →
    (∀ e, e < 8 → s.on (R.FLT_EXT_EN e) = false) → s.inp.fifo.length < 256 →
    Reaches (exec (.gpioChatterRelease n) s) fun t => t.on (R.GPIO_STATUS_FROZEN n) = false ∧
      t.on (R.GPIO_STATUS_DELIVERED n) = s.on (R.GPIO_STATUS_FILTERED n) ∧
      t.inp.fifo = (if s.on (R.GPIO_STATUS_DELIVERED n) = s.on (R.GPIO_STATUS_FILTERED n) then s.inp.fifo
        else insertEvt ⟨s.now, n, s.on (R.GPIO_STATUS_FILTERED n), true⟩ s.inp.fifo)) ∧
  (∀ (s : State) (n : Fin 64) (at' : Nat), s.inputsRun = true → mapGet (fun _ => none) s.inp.since n = some at' →
    s.rd (R.GPIO_STUCK_MAX_ACT n) ≠ 0 → at' + s.rd (R.GPIO_STUCK_MAX_ACT n) * 1000000 < s.now → s.on (R.GPIO_STATUS_STUCK n) = false →
    s.rd (R.FLT_SRC_CFG_BASE 57) ≤ 2 → s.rd (R.FLT_SRC_CFG_ESC_N 57) = 0 →
    Reaches (exec (.gpioStuck n) s) fun t => t.on (R.GPIO_STATUS_STUCK n) = true ∧ t.on (R.GPIO_STATUS_STUCK_SEEN n) = true ∧
      t.on (R.GPIO_STATUS_DELIVERED n) = s.on (R.GPIO_STATUS_DELIVERED n) ∧ t.inp = s.inp) ∧
  (∀ (s : State) (n : Fin 64) (v : BitVec 32), s.writable = true → s.role = Role.solo → bitsOf v.toNat 0 16 = 0 →
    Reaches (exec (.gpioRateWrite n true v) s) fun t => t.rd (R.GPIO_STUCK_MAX_ACT n) = 0 ∧ mapGet noneAt t.inp.edges n = []) ∧
  (∀ (s : State) (e : Evt) (rest : List Evt), s.st ≠ St.reset → s.st ≠ St.selfTest → s.role = Role.solo → s.inp.fifo = e :: rest → rest.length < 256 →
    Reaches (exec .evtNext s) fun t => t.inp.fifo = rest ∧ t.rd R.EVT_STATUS_DEPTH = rest.length ∧
      t.on R.EVT_HEAD2_VALID = !rest.isEmpty)

/-- R275, R276, R279, R282. -/
def Obligations.FiltersAndEventOrder : Prop :=
  (∀ k r : Nat, 0 < r → sumOf (sincTaps k r) = r ^ k ∧ (sincTaps k r).length = k * (r - 1) + 1 ∧ (sincTaps k r).reverse = sincTaps k r) ∧
  (∀ k b sum : Nat, 0 < k → 0 < b → sum ≤ (2 ^ b) ^ k →
    -0x800000 ≤ (sdCode k (2 ^ b) b sum).1 ∧ (sdCode k (2 ^ b) b sum).1 ≤ 0x7FFFFF ∧
    ((sdCode k (2 ^ b) b sum).2 = true ↔ sum = (2 ^ b) ^ k)) ∧
  (∀ (e : Evt) (l : List Evt), l.Pairwise (fun x y => x.time < y.time ∨ (x.time = y.time ∧ x.line ≤ y.line)) →
    (insertEvt e l).Pairwise (fun x y => x.time < y.time ∨ (x.time = y.time ∧ x.line ≤ y.line)) ∧ (insertEvt e l).Perm (e :: l)) ∧
  (∀ m cnt : Nat, 0 < m → m ≤ 2 ^ 24 → piValue m cnt = fOfInt (toSigned 32 cnt % (m : Int)) ∧
    0 ≤ toSigned 32 cnt % (m : Int) ∧ toSigned 32 cnt % (m : Int) < m)

/-! ### Active and standby pairs (11) -/

/-- R289, R291, R303 to R305, R316, R317, R319, R321, R322. -/
def Obligations.RolesFollowTheTieLink : Prop :=
  (∀ (s : State) (lane : Fin 2) (lo hi d2 : BitVec 8), s.st ≠ St.reset → s.st ≠ St.selfTest → lo.toNat = 0x10 → hi.toNat = 0x11 → s.tieUp = true →
    Reaches (exec (.tieLaneTrained lane lo hi d2) s) fun t => t.bit R.TIE_STATUS_LANES lane = true ∧ t.rd (R.IF_VER_RUN 1) = 0x11 ∧
      t.role = s.role ∧ t.tie.ver = 0x11) ∧
  (∀ (s : State) (lane : Fin 2) (lo hi d2 : BitVec 8) (v : Nat), s.st ≠ St.reset → s.st ≠ St.selfTest → s.st ≠ St.locked → s.tie.yielded = false →
    sharedVersion 0x10 0x11 lo.toNat hi.toNat = some v → s.tieUp = false → bitOf d2.toNat 0 ≠ s.on R.TIE_STATUS_PAIR_ID → bitOf d2.toNat 1 = false →
    s.rd (R.FLT_SRC_CFG_BASE 74) ≤ 2 → s.rd (R.FLT_SRC_CFG_ESC_N 74) = 0 → s.inService = false →
    Reaches (exec (.tieLaneTrained lane lo hi d2) s) fun t => t.rd (R.IF_VER_RUN 1) = v ∧ t.on R.TIE_STATUS_ID_CONFLICT = false ∧
      t.role = (if s.role = Role.solo ∨ s.role = Role.active ∨ s.on R.TIE_STATUS_PAIR_ID = false then Role.active else Role.relay) ∧
      (t.role = Role.relay → t.tie.joining = true)) ∧
  (∀ (s : State) (lane : Fin 2) (lo hi d2 : BitVec 8) (v : Nat), s.st ≠ St.reset → s.st ≠ St.selfTest → s.st ≠ St.locked → s.tie.yielded = false →
    sharedVersion 0x10 0x11 lo.toNat hi.toNat = some v → s.tieUp = false → bitOf d2.toNat 0 ≠ s.on R.TIE_STATUS_PAIR_ID → bitOf d2.toNat 1 = true →
    Reaches (exec (.tieLaneTrained lane lo hi d2) s) fun t => t.role = Role.relay ∧ t.tie.joining = true ∧ t.on R.TIE_STATUS_READY = false) ∧
  (∀ (s : State) (lane : Fin 2) (lo hi d2 : BitVec 8), s.st ≠ St.reset → s.st ≠ St.selfTest → lo.toNat = 0x10 → hi.toNat = 0x11 → s.tieUp = false →
    bitOf d2.toNat 0 = s.on R.TIE_STATUS_PAIR_ID →
    Reaches (exec (.tieLaneTrained lane lo hi d2) s) fun t => t.on R.TIE_STATUS_ID_CONFLICT = true ∧ t.role = s.role ∧ t.st = s.st) ∧
  (∀ s : State, s.tieUp = true → s.role ≠ Role.active → s.rd (R.FLT_SRC_CFG_BASE 75) ≤ 2 → s.rd (R.FLT_SRC_CFG_ESC_N 75) = 0 →
    Reaches (exec .tieLinkDown s) fun t => t.tieUp = false ∧ t.tie.downSince = some s.now ∧ t.role = s.role ∧ t.bit (R.FLT_LIVE_LIVE 2) 11 = true) ∧
  (∀ (s : State) (at' : Nat), s.tie.downSince = some at' → s.role = Role.standby → s.rd R.TIE_CFG_TIE_HOLD * 1000000 ≤ s.now - at' →
    Reaches (exec .tieHoldExpiry s) fun t => t.role = Role.relay ∧ t.on R.TIE_STATUS_READY = false ∧ t.on R.TIE_STATUS_YIELD_OUT = true ∧ t.st = s.st) ∧
  (∀ s : State, s.tieUp = false → s.on R.TIE_STATUS_PAIR_ID = false → s.tie.held = false → s.tie.yielded = false → s.role = Role.relay →
    s.inputsRun = true → s.st ≠ St.locked → s.tie.safeAt + s.tie.wait * 1000000 ≤ s.now →
    Reaches (exec .tieWaitExpiry s) fun t => t.role = Role.solo ∧ t.tie.held = true ∧ t.st = s.st) ∧
  (∀ (s : State) (level : Bool), level = true →
    exec (.yieldInChange level) s = .next (s.put R.TIE_STATUS_YIELD_IN true)) ∧
  (∀ s : State, 2 ≤ s.tie.yieldHigh → s.tie.yieldIgnored = false → s.rd (R.FLT_SRC_CFG_BASE 72) ≤ 2 → s.rd (R.FLT_SRC_CFG_ESC_N 72) = 0 →
    Reaches (exec .yieldPinFault s) fun t => t.on R.TIE_STATUS_YIELD_FLT = true ∧ t.tie.yieldIgnored = true ∧ t.bit (R.FLT_LIVE_LIVE 2) 8 = true) ∧
  (∀ (s : State) (cause : Nat), s.takeoverCause = cause → cause ≠ 0 → s.rd (R.FLT_SRC_CFG_BASE 74) ≤ 2 → s.rd (R.FLT_SRC_CFG_ESC_N 74) = 0 →
    Reaches (exec .takeover s) fun t => t.role = Role.active ∧ t.rd R.TIE_TAKE_CAUSE = cause ∧ t.rd R.TIE_TAKE_BRIDGE = Nat.min 255 s.tie.bridgeRun ∧
      t.rd R.TIE_TAKE_PER_PERIOD = s.sys.period % 2 ^ 32 ∧ t.rd R.TIE_STATUS_AE = (s.rd R.TIE_STATUS_AE + 1) % 256 ∧ t.tie.turn = true ∧ t.sys.pend = none ∧
      (∀ p, p < 48 → s.on (R.PORT_STATUS_TRAINED p) = true → t.rd (R.PORT_STATUS_END p) = 1)) ∧
  (∀ (s : State) (key : BitVec 16), s.role = Role.active → s.partnerReady = true →
    exec (.tieSwitch key) s = .next (if key = 0x5A5A then { s with tie := { s.tie with switch := true } } else s)) ∧
  (∀ (s : State) (key : BitVec 16), s.role = Role.standby →
    exec (.tieDemote key) s = .next (if key = 0x5A5A then { s with tie := { s.tie with demote := true } } else s)) ∧
  (∀ (s : State) (key : BitVec 16), key ≠ 0x5A5A → exec (.tieSwitch key) s = .next s ∧ exec (.tieDemote key) s = .next s ∧ exec (.tieJoin key) s = .next s) ∧
  (∀ (s : State) (key : BitVec 16), key = 0x5A5A → s.role = Role.relay → s.tieUp = true → s.tie.yielded = false →
    Reaches (exec (.tieJoin key) s) fun t => t.tie.joining = true ∧ t.tie.shadowing = false ∧ t.tie.matched = false ∧
      t.on R.TIE_STATUS_IMAGE_DONE = false ∧ t.on R.TIE_STATUS_SWEEP_DONE = false ∧ t.on R.TIE_STATUS_READY = false) ∧
  (∀ (s : State) (state : Fin 8), s.tie.joining = true → s.role = Role.relay → s.tie.shadowing = false → (state = 4 ∨ state = 5 ∨ state = 6) →
    Reaches (exec (.joinImageComplete state) s) fun t => t.st = state ∧ t.rd R.STATE_CAUSE_CAUSE = 0xC ∧ t.rd R.DEV_STATE_PREV = s.st ∧
      t.tie.shadowing = true ∧ t.on R.TIE_STATUS_IMAGE_DONE = true ∧ t.sys.committed = true) ∧
  (∀ s : State, s.role = Role.relay → s.tie.matched = true → s.tie.joining = true → s.on R.TIE_STATUS_SWEEP_DONE = true →
    Reaches (exec .joinComplete s) fun t => t.role = Role.standby ∧ t.on R.TIE_STATUS_READY = true ∧ t.tie.joining = false) ∧
  (∀ s : State, s.role = Role.active → s.tieUp = false → s.st ≠ St.locked →
    (s.heads.filter s.strandInService).length < 2 * ((s.heads.filter s.strandInService).filter fun p => decide (2 ≤ mapGet (fun _ => 0) s.tie.tailRun p)).length →
    Reaches (exec .dualHead s) fun t => t.on R.TIE_STATUS_DUAL_HEAD = true ∧ t.on R.TIE_STATUS_YIELD_OUT = true ∧ t.role = Role.relay ∧ t.tie.yielded = true) ∧
  (∀ s : State, s.role ≠ Role.active → s.rd (R.FLT_SRC_CFG_BASE 73) ≤ 2 → s.rd (R.FLT_SRC_CFG_ESC_N 73) = 0 →
    Reaches (exec .healthLate s) fun t => t.on R.TIE_STATUS_HEALTH_LATE = true ∧ t.tie.healthMiss = 3 ∧ t.bit (R.FLT_LIVE_LIVE 2) 9 = true) ∧
  (∀ s : State, s.role ≠ Role.solo →
    Reaches (exec .tieClr s) fun t => t.rd R.TIE_CMP_EXPLAINED = 0 ∧ t.rd R.TIE_CMP_UNEXPLAINED = 0 ∧ t.rd R.TIE_SWEEP_FIX = 0 ∧ t.rd R.TIE_SWEEP_CYCLES = 0 ∧
      t.rd R.TIE_BRIDGE_BRIDGE_CNT = 0 ∧ (∀ l, l < 2 → t.rd (R.TIE_LANE_BLK_ERR l) = 0 ∧ t.rd (R.TIE_LANE_LOCK_LOSS l) = 0 ∧ t.rd (R.TIE_LANE_CRC_ERR l) = 0)) ∧
  (∀ s : State, s.tieUp = true → s.on R.TIE_STATUS_ID_CONFLICT = false →
    Reaches (exec .healthSend s) fun t => t.lastBytes.length = 88 ∧ Msg.type t.lastBytes = 0x0B ∧ Msg.good t.lastBytes = true ∧
      leAt (Msg.body t.lastBytes) 0 4 = s.sys.period % 2 ^ 32 ∧
      byteAt (Msg.body t.lastBytes) 4 = (s.st + 16 * s.role + 128 * s.rd R.TIE_STATUS_YIELD_OUT) % 256 ∧ t.tie.since = Since.reset)

/-- R296 to R300, R303, R312, R315, R316, R319, R322 to R325. -/
def Obligations.TieMessagesActOrAreDiscarded : Prop :=
  (∀ (s : State) (lane : Fin 2) (m : List Byte), s.bit R.TIE_STATUS_LANES lane = true → s.on R.TIE_STATUS_ID_CONFLICT = false → Msg.good m = false →
    s.rd (R.FLT_SRC_CFG_BASE 76) ≤ 2 → s.rd (R.FLT_SRC_CFG_ESC_N 76) = 0 →
    Reaches (exec (.digest lane m) s) fun t => t.rd (R.TIE_LANE_CRC_ERR lane) = Nat.min 255 (s.rd (R.TIE_LANE_CRC_ERR lane) + 1) ∧ t.tie = s.tie ∧
      t.role = s.role ∧ t.rd R.TIE_STATUS_PART_ROLE = s.rd R.TIE_STATUS_PART_ROLE ∧
      exec (.inputMessage lane m) s = .next t ∧ exec (.lvlwMessage lane m) s = .next t ∧ exec (.slotReq lane m) s = .next t ∧
      exec (.slotMessage lane m) s = .next t ∧ exec (.tailframe lane m) s = .next t ∧ exec (.controlYield lane m) s = .next t ∧
      exec (.controlTakeover lane m) s = .next t ∧ exec (.controlRole lane m) s = .next t ∧ exec (.controlBroken lane m) s = .next t ∧
      exec (.controlIntact lane m) s = .next t ∧ exec (.sweep lane m) s = .next t ∧ exec (.image lane m) s = .next t ∧
      exec (.mailboxMessage lane m) s = .next t ∧ exec (.healthMessage lane m) s = .next t) ∧
  (∀ (s : State) (lane : Fin 2) (m : List Byte), s.hears lane 7 m = true → Msg.arg m = 1 → s.role = Role.standby →
    Reaches (exec (.controlYield lane m) s) fun t => t.tie.yieldMsg = some (Msg.role m == Role.active) ∧ t.rd R.TIE_STATUS_PART_ROLE = Msg.role m ∧
      t.tie.partYield = Msg.yieldOut m ∧ t.role = s.role) ∧
  (∀ (s : State) (lane : Fin 2) (m : List Byte), s.hears lane 7 m = true → Msg.arg m = 2 → s.role = Role.active → s.st ≠ St.locked →
    Reaches (exec (.controlTakeover lane m) s) fun t => t.role = Role.relay ∧ t.on R.TIE_STATUS_YIELD_OUT = true ∧ t.tie.yielded = true ∧
      t.tie.lastPeriod = true ∧ t.on R.TIE_STATUS_READY = false) ∧
  (∀ (s : State) (lane : Fin 2) (m : List Byte), s.hears lane 7 m = true → Msg.arg m = 3 → Msg.role m = Role.relay → s.role = Role.active → s.inService = true →
    s.rd (R.FLT_SRC_CFG_BASE 74) ≤ 2 → s.rd (R.FLT_SRC_CFG_ESC_N 74) = 0 →
    Reaches (exec (.controlRole lane m) s) fun t => t.rd R.TIE_STATUS_PART_ROLE = Role.relay ∧ t.on R.TIE_STATUS_READY = false ∧ t.sentImage = true ∧
      t.bit (R.FLT_LIVE_LIVE 2) 10 = true) ∧
  (∀ (s : State) (lane : Fin 2) (m : List Byte), s.hears lane 7 m = true → Msg.arg m = 4 → s.role = Role.standby →
    Reaches (exec (.controlBroken lane m) s) fun t => t.broken = s.broken ||| (leAt (Msg.body m) 0 8 % 2 ^ 48) ∧ t.role = s.role) ∧
  (∀ (s : State) (lane : Fin 2) (m : List Byte), s.hears lane 7 m = true → Msg.arg m = 5 → s.role = Role.standby →
    Reaches (exec (.controlIntact lane m) s) fun t => (∀ p, p < 48 → bitOf t.broken p = (bitOf s.broken p && !bitOf (leAt (Msg.body m) 0 8) p)) ∧ t.role = s.role) ∧
  (∀ (s : State) (lane : Fin 2) (m : List Byte), s.hears lane 1 m = true → Msg.role m = Role.active → s.role = Role.standby → s.computes = true →
    Msg.period m = s.sys.period % 2 ^ 32 → s.tooLate s.tCa = false → s.mergeLacks (exceptionsOf (Msg.body m)) = false → byteAt (Msg.body m) 134 = 0 →
    Reaches (exec (.inputMessage lane m) s) fun t => t.tie.shadow = some (inputsOf (Msg.body m)) ∧ t.tie.bridge = s.tie.bridge ∧
      (∀ p pos, p < 48 → (pos ∈ (t.port p).good ↔ pos ∈ (s.port p).good ∧ pos ∉ missingAt (exceptionsOf (Msg.body m)) p))) ∧
  (∀ (s : State) (lane : Fin 2) (m : List Byte), s.hears lane 1 m = true → Msg.role m = Role.active → s.role = Role.standby → s.computes = true →
    Msg.period m = s.sys.period % 2 ^ 32 → s.tooLate s.tCa = false → s.mergeLacks (exceptionsOf (Msg.body m)) = true → s.tie.bridge = false →
    Reaches (exec (.inputMessage lane m) s) fun t => t.tie.bridge = true ∧ t.tie.shadow = s.tie.shadow ∧ t.ctl = s.ctl ∧ t.ports = s.ports ∧
      t.rd R.TIE_BRIDGE_BRIDGE_CNT = Nat.min (2 ^ 32 - 1) (s.rd R.TIE_BRIDGE_BRIDGE_CNT + 1)) ∧
  (∀ (s : State) (lane : Fin 2) (m : List Byte), s.hears lane 2 m = true → Msg.role m = Role.active → s.role = Role.standby →
    Msg.period m = s.sys.period % 2 ^ 32 → s.tooLate (s.crd R.LAYOUT_0_T_LE * 10) = false → s.tie.bridge = false → Msg.arg m = 0 →
    Reaches (exec (.lvlwMessage lane m) s) fun t => t.tie.lvlw = true ∧ t.ctl = s.ctl ∧ t.rd R.TIE_STATUS_AE = Msg.ae m) ∧
  (∀ (s : State) (lane : Fin 2) (m : List Byte) (pos : Nat), s.hears lane 3 m = true → s.role = Role.standby → Msg.period m = s.sys.period % 2 ^ 32 →
    Msg.arg m < 48 → pos < 96 → Msg.body m = BitVec.ofNat 8 pos :: List.replicate 7 0xFF#8 → pos ∈ (s.port (Msg.arg m)).good →
    (s.view (cellKey (Msg.arg m) pos)).slot.length = 14 →
    Reaches (exec (.slotReq lane m) s) fun t => Msg.type t.lastBytes = 4 ∧ Msg.arg t.lastBytes = Msg.arg m ∧
      Msg.body t.lastBytes = s.slotCopy (Msg.arg m) pos ∧ t.ports = s.ports) ∧
  (∀ (s : State) (lane : Fin 2) (m : List Byte) (p pos : Nat), s.hears lane 4 m = true → s.role = Role.active → s.rd (R.FLT_SRC_CFG_BASE 74) ≤ 2 →
    s.rd (R.FLT_SRC_CFG_ESC_N 74) = 0 → Msg.arg m = p → p < 48 → s.now ≤ s.sys.t0 + s.tCa → Msg.length m = 24 → byteAt (Msg.body m) 0 = pos → pos < 96 →
    pos ∉ (s.port p).good →
    crc16From 0xFFFF (BitVec.ofNat 8 pos :: BitVec.ofNat 8 s.sys.period :: ((Msg.body m).drop 8).take 14) = leAt (Msg.body m) 22 2 →
    bitsOf (byteAt (Msg.body m) 16) 0 3 ≤ (s.view (cellKey p pos)).cls →
    Reaches (exec (.slotMessage lane m) s) fun t => (t.port p).good = (s.port p).good ++ [pos] ∧ (t.port p).viaTail = (s.port p).viaTail ++ [pos] ∧
      (t.view (cellKey p pos)).slot = ((Msg.body m).drop 8).take 14) ∧
  (∀ (s : State) (lane : Fin 2) (m : List Byte), s.hears lane 5 m = true → s.tie.digest = [] → s.role = Role.standby →
    Reaches (exec (.digest lane m) s) fun t => t.tie.partDigest = Msg.body m ∧ t.tie.judged = s.tie.judged ∧
      t.rd R.TIE_CMP_UNEXPLAINED = s.rd R.TIE_CMP_UNEXPLAINED) ∧
  (∀ (s : State) (lane : Fin 2) (m : List Byte), s.hears lane 5 m = true → s.tie.digest ≠ [] → s.role = Role.standby → s.neutral = false →
    (Msg.body m).take 8 ≠ s.tie.digest.take 8 → Msg.body m ≠ [] → byteAt (Msg.body m) 8 = 0 → byteAt s.tie.digest 8 = 0 → s.tie.judged = false →
    s.rd (R.FLT_SRC_CFG_BASE 71) ≤ 2 → s.rd (R.FLT_SRC_CFG_ESC_N 71) = 0 →
    Reaches (exec (.digest lane m) s) fun t => t.rd R.TIE_CMP_UNEXPLAINED = Nat.min 65535 (s.rd R.TIE_CMP_UNEXPLAINED + 1) ∧
      t.rd R.TIE_CMP_EXPLAINED = s.rd R.TIE_CMP_EXPLAINED ∧ t.tie.judged = true ∧ t.role = s.role ∧
      t.rd (R.FLT_SRC_ST_EVT_CNT 71) = Nat.min 65535 (s.rd (R.FLT_SRC_ST_EVT_CNT 71) + 1)) ∧
  (∀ (s : State) (lane : Fin 2) (m : List Byte), s.hears lane 5 m = true → s.tie.digest ≠ [] → s.role = Role.standby →
    (Msg.body m).take 8 ≠ s.tie.digest.take 8 → Msg.body m ≠ [] → byteAt s.tie.digest 8 ≠ 0 → s.tie.judged = false →
    Reaches (exec (.digest lane m) s) fun t => t.rd R.TIE_CMP_EXPLAINED = Nat.min 65535 (s.rd R.TIE_CMP_EXPLAINED + 1) ∧
      t.rd R.TIE_CMP_UNEXPLAINED = s.rd R.TIE_CMP_UNEXPLAINED ∧ t.flt = s.flt) ∧
  (∀ (s : State) (lane : Fin 2) (m : List Byte), s.hears lane 8 m = true → s.role = Role.standby → s.inService = true →
    s.sweepMap.length ≤ 512 * (Msg.arg m + 1) → Msg.body m = s.sweepBody (Msg.arg m) →
    Msg.period m = s.sys.period % 2 ^ 32 →
    Reaches (exec (.sweep lane m) s) fun t => t.rd R.TIE_SWEEP_FIX = s.rd R.TIE_SWEEP_FIX ∧
      t.rd R.TIE_SWEEP_CYCLES = Nat.min 65535 (s.rd R.TIE_SWEEP_CYCLES + 1) ∧ t.ctl = s.ctl ∧ t.lvl = s.lvl ∧ t.mem = s.mem) ∧
  (∀ (s : State) (lane : Fin 2) (m : List Byte) (w : Nat), s.hears lane 9 m = true → s.tie.joining = true → s.role = Role.relay → w < 2046 →
    (Msg.body m).length = 16 → leAt (Msg.body m) 0 8 = 0x30000000 + 4 * w →
    Reaches (exec (.image lane m) s) fun t => t.coefAt 0 0 w = leAt (Msg.body m) 8 4 ∧ t.coefAt 0 0 (w + 1) = leAt (Msg.body m) 12 4 ∧ t.st = s.st) ∧
  (∀ (s : State) (lane : Fin 2) (m : List Byte), s.hears lane 0x0A m = true → Msg.arg m < 48 → s.role = Role.standby → s.tie.lastPeriod = false →
    Reaches (exec (.mailboxMessage lane m) s) fun t => (t.port (Msg.arg m)).rsp = some (Msg.body m) ∧ t.lvl = s.lvl) ∧
  (∀ (s : State) (lane : Fin 2) (m : List Byte), s.hears lane 0x0A m = true → Msg.arg m < 48 → s.role = Role.active → (s.port (Msg.arg m)).txn ≠ none →
    s.rd (R.FLT_SRC_CFG_BASE 74) ≤ 2 → s.rd (R.FLT_SRC_CFG_ESC_N 74) = 0 →
    Reaches (exec (.mailboxMessage lane m) s) fun t =>
      (t.port (Msg.arg m)).partner = (s.port (Msg.arg m)).partner ++ [mbReqOf (List.replicate 12 0#8 ++ Msg.body m)]) ∧
  (∀ (s : State) (lane : Fin 2) (m : List Byte), s.hears lane 0x0B m = true → s.role = Role.standby →
    Reaches (exec (.healthMessage lane m) s) fun t => t.tie.healthMiss = 0 ∧ t.bit (R.FLT_LIVE_LIVE 2) 9 = false ∧
      (∀ w, w < 16 → t.rd (R.PART_HEALTH_REPORT w) = leAt (Msg.body m) (4 * w) 4)) ∧
  (∀ (s : State) (lane : Fin 2) (m : List Byte), s.hears lane 6 m = true → Msg.arg m < 48 → bitOf s.broken (Msg.arg m) = true → s.role = Role.relay →
    s.tie.lastPeriod = false →
    Reaches (exec (.tailframe lane m) s) fun t => t.lastBytes = Msg.body m ∧ t.ports = s.ports)

/-- R295, R299, R300, R311, R313, R314, R318. -/
def Obligations.TailsBreaksAndStatusLatch : Prop :=
  (∀ (s : State) (p : Fin 48) (f : List Byte) (per : Nat), s.portLive p = true → s.on (R.PORT_STATUS_TRAINED p) = true → Hdr.type f = 1 → Hdr.crc f = .good →
    Hdr.period f = per → s.sys.period = per → per < 2 ^ 32 → s.role = Role.active → s.tie.shadowing = false →
    exec (.commandFrameAtTail p f) s = .next { s with tie := { s.tie with tailGot := s.tie.tailGot ++ [p.val] } }) ∧
  (∀ (s : State) (p : Fin 48) (f : List Byte), s.portLive p = true → s.on (R.PORT_STATUS_TRAINED p) = true → Hdr.type f = 1 → Hdr.crc f = .good →
    Hdr.period f = s.sys.period % 2 ^ 32 → s.role = Role.standby → s.ncell p = 1 → slotState 0 f 32 16 = .good →
    Reaches (exec (.commandFrameAtTail p f) s) fun t => t.tie.tailGot = s.tie.tailGot ++ [p.val] ∧ t.regs = s.regs ∧
      t.tie.since.compared = s.tie.since.compared + 1 ∧
      t.tie.tailDiff = (s.tie.tailDiff || (f.drop 32).take 14 != s.record p 0 || (f.drop 9).take 3 != s.eventBytes (s.portArm p))) ∧
  (∀ (s : State) (p : Fin 48), s.role = Role.active → bitOf s.broken p = false → s.rd (R.FLT_SRC_CFG_BASE 70) ≤ 2 → s.rd (R.FLT_SRC_CFG_ESC_N 70) = 0 →
    s.tieUp = true → s.on R.TIE_STATUS_ID_CONFLICT = false →
    Reaches (exec (.strandBroken p) s) fun t => t.broken = s.broken + 2 ^ p.val ∧ t.bit (R.FLT_LIVE_LIVE 2) 6 = true ∧ Msg.type t.lastBytes = 7 ∧
      Msg.arg t.lastBytes = 4 ∧ leAt (Msg.body t.lastBytes) 0 8 = 2 ^ p.val ∧ t.st = s.st) ∧
  (∀ (s : State) (p : Fin 48), s.role = Role.active → bitOf s.broken p = true → s.rd (R.FLT_SRC_CFG_BASE 70) ≤ 2 → s.rd (R.FLT_SRC_CFG_ESC_N 70) = 0 →
    s.tieUp = true → s.on R.TIE_STATUS_ID_CONFLICT = false →
    Reaches (exec (.strandIntact p) s) fun t => t.broken + 2 ^ p.val = s.broken ∧ t.bit (R.FLT_LIVE_LIVE 2) 6 = decide (t.broken ≠ 0) ∧
      Msg.type t.lastBytes = 7 ∧ Msg.arg t.lastBytes = 5 ∧ leAt (Msg.body t.lastBytes) 0 8 = 2 ^ p.val ∧ t.st = s.st) ∧
  (∀ (s : State) (p : Fin 48), s.portLive p = true → s.launching = false → s.on (R.PORT_STATUS_LOCK p) = true → bitOf s.broken p = true → s.tailN p ≠ 0 →
    exec (.tailTrainingStart p) s = .next (s.send (.orderedSet p 1 (s.runVer p) (0x80 + s.tailN p - 1)))) ∧
  (∀ (s : State) (id : BitVec 64), 0 ≤ s.now →
    CellBecomes (exec (.statusLatch id) s) s id.toNat fun c => c.sl.slot.length = 14 ∧ bitsOf (byteAt c.sl.slot 0) 0 4 = (s.cell id.toNat).mode % 16 ∧
      byteAt c.sl.slot 1 = (s.cell id.toNat).lk.epoch % 256 ∧ c.mode = (s.cell id.toNat).mode ∧ c.lk = (s.cell id.toNat).lk ∧ c.pw = (s.cell id.toNat).pw) ∧
  (∀ (s : State) (missed : BitVec 6), (s.role = Role.standby ∨ s.role = Role.relay) → s.tie.yielded = false → s.st ≠ St.reset → s.st ≠ St.selfTest →
    missed = 0 → s.sch.injAt = [] →
    Reaches (exec (.lockstepInjectPeriodic missed) s) fun t =>
      t.rd R.SCH_LS_STAT_INJ_PASS = Nat.min 65535 (s.rd R.SCH_LS_STAT_INJ_PASS + ((upto 6).filter fun h => !s.stopped h).length) ∧
      t.rd R.SCH_LS_STAT_INJ_FAIL = s.rd R.SCH_LS_STAT_INJ_FAIL) ∧
  (∀ (s : State) (missed : BitVec 6), s.tie.yielded = true → exec (.lockstepInjectPeriodic missed) s = .next s) ∧
  (∀ (s : State) (i w v : Nat), i < 256 → w < 48 → v < 2 ^ 32 →
    (s.sweepPut (.live i w) v).sweepGet (.live i w) = v ∧ (s.sweepPut (.cell i 1) v).sweepGet (.cell i 1) = v ∧
    (s.sweepPut (.point i 0) v).sweepGet (.point i 0) = v ∧ (s.sweepPut (.group (i % 32) 0) v).sweepGet (.group (i % 32) 0) = v)

/-! ### Accords (12) -/

/-- R327, R329 to R331, R334, R338, R340 to R345. -/
def Obligations.AccordFramesAndModeChanges : Prop :=
  (∀ (s : State) (k : Fin 4) (lo hi d2 : BitVec 8) (prop : BitVec 16) (own : Bool) (v : Nat), s.inputsRun = true → sharedVersion 0x10 0x11 lo.toNat hi.toNat = some v →
    own = (k == 3) → s.rd (R.FLT_SRC_CFG_BASE 79) ≤ 2 → s.rd (R.FLT_SRC_CFG_ESC_N 79) = 0 →
    Reaches (exec (.accordPortTrained k lo hi d2 prop own) s) fun t => t.on (R.ACD_PORTST_TRAINED k) = true ∧ t.rd (R.ACD_PORTST_VER k) = v ∧ t.rd (R.IF_VER_RUN 2) = v ∧
      t.on (R.ACD_PORTST_PEER_ID k) = bitOf d2.toNat 0 ∧ t.rd (R.ACD_PORTST_DELAY k) = prop.toNat ∧ t.on (R.ACD_PORTST_LONG k) = decide (1000 < prop.toNat) ∧
      t.on R.ACD_STATUS_WIRING = s.on R.ACD_STATUS_WIRING) ∧
  (∀ (s : State) (k : Fin 4) (lo hi d2 : BitVec 8) (prop : BitVec 16) (own : Bool), s.inputsRun = true → lo.toNat = 0x10 → hi.toNat = 0x11 →
    own ≠ (k == 3) → s.rd (R.FLT_SRC_CFG_BASE 79) ≤ 2 → s.rd (R.FLT_SRC_CFG_ESC_N 79) = 0 →
    Reaches (exec (.accordPortTrained k lo hi d2 prop own) s) fun t => t.on R.ACD_STATUS_WIRING = true ∧ t.bit (R.FLT_LIVE_LIVE 2) 15 = true ∧
      (s.on R.ACD_CFG_EN = true → t.accordLinksBad = true)) ∧
  (∀ (s : State) (k : Fin 4) (f : List Byte), s.inputsRun = true → s.st ≠ St.locked → s.on (R.ACD_PORTST_TRAINED k) = true → 32 ≤ f.length → Acf.headGood f = false →
    Acf.hop f < Acf.hops f → s.on (R.ACD_PORTST_TRAINED (bitsOf (Acf.route f) (2 * Acf.hop f) 2)) = true →
    Reaches (exec (.accordFrameForward k f) s) fun t => Acf.hop t.lastBytes = (Acf.hop f + 1) % 16 ∧ Acf.hops t.lastBytes = Acf.hops f ∧ t.lastBytes.length = f.length ∧
      t.lastBytes.drop 24 = f.drop 24 ∧ t.lastBytes.take 2 = f.take 2 ∧ crcState 32 (leAt t.lastBytes 20 4) (crc32c (t.lastBytes.take 20)) = .stomped ∧ t.acd = s.acd) ∧
  (∀ (s : State) (k : Fin 4) (f : List Byte), s.inputsRun = true → s.st ≠ St.locked → s.on (R.ACD_PORTST_TRAINED k) = true → Acf.hop f = Acf.hops f → Acf.good f = false →
    exec (.agg k f) s = .next (s.inc (R.ACD_PORTERR_CRC_ERR k)) ∧ exec (.dist k f) s = exec (.agg k f) s ∧ exec (.stage k f) s = exec (.agg k f) s ∧
    exec (.ack k f) s = exec (.agg k f) s ∧ exec (.commit k f) s = exec (.agg k f) s ∧ exec (.cancel k f) s = exec (.agg k f) s) ∧
  (∀ (s : State) (k : Fin 4) (f : List Byte) (l g : Nat), s.takesAccord k 1 l f = true → s.inService = false → g < 256 → s.cfg (R.ACD_SLOT_EN g) = 1 →
    s.cfg (R.ACD_SLOT_LVL g) = l → s.cfg (R.ACD_SLOT_DIR g) = 0 → s.cfg (R.ACD_SLOT_MEMBER g) = Acf.sender f →
    bitOf (leAt (Acf.body f) 128 4) (s.cfg (R.ACD_SLOT_VALUE g)) = true →
    Reaches (exec (.agg k f) s) fun t => mapGet (fun _ => 0) t.acd.agg g = leAt (Acf.body f) (4 * s.cfg (R.ACD_SLOT_VALUE g)) 4 ∧ g ∈ t.acd.fresh ∧
      8 * l + Acf.sender f ∈ t.acd.aggGot ∧ mapGet (fun _ => 8) t.acd.leads (8 * l + Acf.sender f) = byteAt (Acf.body f) 134 % 8 ∧ t.regs = s.regs) ∧
  (∀ (s : State) (k : Fin 4) (f : List Byte) (l : Nat), s.takesAccord k 2 l f = true → (s.st = St.energised ∨ s.st = St.deblocked) → byteAt (Acf.body f) 133 % 16 = 6 →
    Reaches (exec (.dist k f) s) fun t => t.acd.fault = true ∧ l ∈ t.acd.distGot ∧ t.st = s.st ∧ t.regs = s.regs) ∧
  (∀ (s : State) (k : Fin 4) (f : List Byte) (l : Nat), s.takesAccord k 2 l f = true → s.acd.staged ≠ none → s.acd.pAct = none →
    bitsOf (byteAt (Acf.body f) 133) 4 3 = 2 → byteAt (Acf.body f) 132 ≠ s.sys.epoch →
    Reaches (exec (.dist k f) s) fun t => t.acd.follow = some (byteAt (Acf.body f) 132, byteAt (Acf.body f) 133 % 16) ∧ t.sys = s.sys ∧ t.regs = s.regs) ∧
  (∀ (s : State) (k : Fin 4) (f : List Byte) (l : Nat), s.takesAccord k 3 l f = true → byteAt (Acf.body f) 0 = 4 → s.st = St.deblocked → s.on R.DEV_STATE_BUSY = false →
    Reaches (exec (.stage k f) s) fun t => t.rd R.ACD_STATUS_PH = 1 ∧ t.on R.DEV_STATE_BUSY = true ∧ t.rd R.ACD_MODE_CMD = 4 ∧ t.rd R.ACD_MODE_NEW_EPOCH = byteAt (Acf.body f) 1 ∧
      t.rd R.ACD_MODE_RESULT = 0 ∧ t.acd.staged.map (fun g => (g.cmd, g.epoch, g.deadline, g.above, g.acked)) =
        some (4, byteAt (Acf.body f) 1, nearest32 s.sys.period (leAt (Acf.body f) 4 4), leAt (Acf.body f) 8 4, false) ∧
      t.sys.pend = some { cmd := 4, target := St.energised, atPeriod := none } ∧ t.st = s.st ∧ t.sys.epoch = s.sys.epoch) ∧
  (∀ (s : State) (k : Fin 4) (f : List Byte) (l : Nat), s.takesAccord k 3 l f = true → byteAt (Acf.body f) 0 = 4 → s.st ≠ St.deblocked → s.on R.DEV_STATE_BUSY = false →
    s.speaks = true → s.rd (R.LVLE_ROUTE_HOPS l (2 * s.rd (R.LVLE_W1_LEAD l))) ≠ 0 → s.rd (R.LVLE_ROUTE_HOPS l (2 * s.rd (R.LVLE_W1_LEAD l) + 1)) = 0 →
    s.on (R.ACD_PORTST_TRAINED (s.rd (R.LVLE_ROUTE_ROUTE l (2 * s.rd (R.LVLE_W1_LEAD l))) % 4)) = true →
    Reaches (exec (.stage k f) s) fun t => Acf.type t.lastBytes = 4 ∧ Acf.good t.lastBytes = true ∧ (Acf.body t.lastBytes).take 2 = [4#8, 1#8] ∧ t.regs = s.regs ∧
      t.acd.staged = s.acd.staged ∧ t.sys = s.sys) ∧
  (∀ (s : State) (k : Fin 4) (f : List Byte) (l : Nat) (g : Staged), s.takesAccord k 4 l f = true → s.acd.staged = some g → byteAt (Acf.body f) 0 = g.cmd →
    s.on (R.LVLE_W1_IS_LEAD l) = true → s.acd.pAct = none → byteAt (Acf.body f) 1 = 0 →
    Reaches (exec (.ack k f) s) fun t => t.bit (R.LVLE_W1_ACKED l) (Acf.sender f) = true ∧ t.acd.staged = s.acd.staged ∧ t.sys = s.sys) ∧
  (∀ (s : State) (k : Fin 4) (f : List Byte) (l : Nat) (g : Staged), s.takesAccord k 4 l f = true → s.acd.staged = some g → byteAt (Acf.body f) 0 = g.cmd →
    s.on (R.LVLE_W1_IS_LEAD l) = true → s.acd.pAct = none → byteAt (Acf.body f) 1 ≠ 0 → s.twoPhase = true → s.acd.cancelDue = none →
    Reaches (exec (.ack k f) s) fun t => t.acd.cancelDue = some (byteAt (Acf.body f) 1) ∧ t.regs = s.regs ∧ t.sys = s.sys) ∧
  (∀ (s : State) (k : Fin 4) (f : List Byte) (l : Nat) (g : Staged), s.takesAccord k 5 l f = true → s.acd.staged = some g → byteAt (Acf.body f) 0 = g.cmd →
    g.cmd ≠ 2 → s.sys.pend ≠ none → s.ledLevels = [] →
    Reaches (exec (.commit k f) s) fun t => t.acd.pAct = some (nearest32 s.sys.period (leAt (Acf.body f) 4 4)) ∧ t.rd R.ACD_STATUS_PH = 2 ∧ t.rd R.ACD_MODE_RESULT = 1 ∧
      t.rd R.ACD_MODE_P_P_ACT = nearest32 s.sys.period (leAt (Acf.body f) 4 4) % 2 ^ 32 ∧ t.sys.pend.map Pend.atPeriod = some t.acd.pAct ∧ t.st = s.st) ∧
  (∀ (s : State) (k : Fin 4) (f : List Byte) (l : Nat) (g : Staged), s.takesAccord k 6 l f = true → s.acd.staged = some g → byteAt (Acf.body f) 0 = g.cmd →
    s.ledLevels = [] → s.sys.prep = none →
    Reaches (exec (.cancel k f) s) fun t => t.acd.staged = none ∧ t.rd R.ACD_STATUS_PH = 0 ∧ t.on R.DEV_STATE_BUSY = false ∧ t.sys.pend = none ∧
      t.rd R.ACD_MODE_CODE = byteAt (Acf.body f) 1 ∧ t.rd R.ACD_MODE_RESULT = (if byteAt (Acf.body f) 1 = 4 then 3 else 2) ∧ t.st = s.st ∧ t.sys.epoch = s.sys.epoch) ∧
  (∀ (s : State) (g : Staged), s.acd.staged = some g → s.twoPhase = true → s.acd.pAct = none → s.acd.cancelDue = none → g.code = 0 → s.sys.pend ≠ none → s.allAcked = true →
    g.cmd ≠ 2 → s.sys.period ≤ g.deadline →
    Reaches (exec .stageDeadline s) fun t => t.acd.pAct = some (s.sys.period + Nat.max (s.rd R.ACD_CFG_ACT_LEAD) (s.rd R.ACD_STATUS_ACT_MIN)) ∧ t.acd.commitDue = true ∧
      t.rd R.ACD_STATUS_PH = 2 ∧ t.rd R.ACD_MODE_RESULT = 1) ∧
  (∀ (s : State) (g : Staged), s.acd.staged = some g → s.twoPhase = true → s.acd.pAct = none → s.acd.cancelDue = none → s.sys.pend ≠ none → s.allAcked = false →
    g.deadline ≤ s.sys.period →
    exec .stageDeadline s = .next { s with acd := { s.acd with cancelDue := some 4 } }) ∧
  (∀ (s : State) (p : Nat) (q : Pend), s.acd.pAct = some p → s.sys.period = p → s.sys.pend = some q → q.atPeriod = some p → q.cmd = 5 → s.clearCode = 0 →
    Reaches (exec .activationInstant s) fun t => t.st = St.energised ∧ t.rd R.DEV_STATE_PREV = s.st ∧ t.on R.DEV_STATE_BUSY = false ∧ t.sys.pend = none ∧
      t.rd R.STATE_CAUSE_CAUSE = s.commandCause) ∧
  (∀ (s : State) (g : Staged), s.acd.staged = some g → s.twoPhase = false → s.acd.pAct = none → g.deadline + s.rd R.ACD_CFG_ACT_LEAD + s.rd R.ACD_EPOCH_LOST_N ≤ s.sys.period →
    s.sys.prep = none → s.rd (R.FLT_SRC_CFG_BASE 77) ≤ 2 → s.rd (R.FLT_SRC_CFG_ESC_N 77) = 0 →
    Reaches (exec .stageRevert s) fun t => t.acd.staged = none ∧ t.rd R.ACD_STATUS_PH = 0 ∧ t.on R.DEV_STATE_BUSY = false ∧ t.st = s.st ∧ t.sys.epoch = s.sys.epoch ∧
      t.rd (R.FLT_SRC_ST_EVT_CNT 77) = Nat.min 65535 (s.rd (R.FLT_SRC_ST_EVT_CNT 77) + 1)) ∧
  (∀ (s : State) (l : Fin 1024) (m : Fin 8), s.inService = true → s.on R.ACD_CFG_EN = true → s.on (R.LVLE_W1_IS_LEAD l) = true →
    mapGet (fun _ => 0) s.acd.aggMiss (8 * l.val + m.val) + 1 = s.rd R.ACD_EPOCH_LOST_N → s.rd (R.FLT_SRC_CFG_BASE 77) ≤ 2 → s.rd (R.FLT_SRC_CFG_ESC_N 77) = 0 →
    Reaches (exec (.accordMemberLost l m) s) fun t => mapGet (fun _ => 0) t.acd.aggMiss (8 * l.val + m.val) = s.rd R.ACD_EPOCH_LOST_N ∧
      t.rd (R.FLT_SRC_ST_EVT_CNT 77) = Nat.min 65535 (s.rd (R.FLT_SRC_ST_EVT_CNT 77) + 1)) ∧
  (∀ (s : State) (l : Fin 1024), s.inService = true → s.on R.ACD_CFG_EN = true → s.on (R.LVLE_W1_IS_LEAD l) = false →
    mapGet (fun _ => 0) s.acd.distMiss l + 1 = s.rd R.ACD_EPOCH_LOST_N → s.rd (R.FLT_SRC_CFG_BASE 78) ≤ 2 → s.rd (R.FLT_SRC_CFG_ESC_N 78) = 0 →
    Reaches (exec (.accordLeadLost l) s) fun t => mapGet (fun _ => 0) t.acd.distMiss l = s.rd R.ACD_EPOCH_LOST_N ∧
      t.rd (R.FLT_SRC_ST_EVT_CNT 78) = Nat.min 65535 (s.rd (R.FLT_SRC_ST_EVT_CNT 78) + 1)) ∧
  (∀ (s : State) (l : Fin 1024) (cand : BitVec 8) (m : Nat), s.writable = true → l.val ∈ s.levelEntries → m ≠ s.rd (R.LVLE_W0_MIDX l) → m ∈ s.presentMembers l →
    bitOf cand.toNat m = true → (∀ m', m' < m → m' ∉ s.presentMembers l ∨ (m' ≠ s.rd (R.LVLE_W0_MIDX l) ∧ bitOf cand.toNat m' = false)) →
    Reaches (exec (.leadElection l cand) s) fun t => t.rd (R.LVLE_W1_LEAD l) = m ∧ t.on (R.LVLE_W1_IS_LEAD l) = false ∧
      (∀ m', m' < 8 → (t.bit (R.LVLE_W1_PRESENT l) m' = true ↔ m' ∈ s.presentMembers l)))

/-- R331, R332, R342. -/
def Obligations.CommittedPeriodSurvivesItsFrame : Prop :=
  (∀ near p : Nat, near < p + 2 ^ 31 → p < near + 2 ^ 31 → nearest32 near (p % 2 ^ 32) = p) ∧
  (∀ (s : State) (g : Staged) (p near : Nat), near < p + 2 ^ 31 → p < near + 2 ^ 31 →
    (s.commitBody g p).length = 24 ∧ nearest32 near (leAt (s.commitBody g p) 4 4) = p ∧ byteAt (s.commitBody g p) 0 = g.cmd % 256 ∧
    byteAt (s.commitBody g p) 1 = g.epoch % 256) ∧
  (∀ (s : State) (l v : Nat), v < 32 → (s.valueBody l).length = 136 ∧
    (s.on (R.LVLE_PUB_EN l v) = true → leAt (s.valueBody l) (4 * v) 4 =
      (s.source s.delivered (s.rd (R.LVLE_PUB_KIND l v)) (s.rd (R.LVLE_PUB_INDEX l v))).1 % 2 ^ 32 ∧
      bitOf (leAt (s.valueBody l) 128 4) v = (s.source s.delivered (s.rd (R.LVLE_PUB_KIND l v)) (s.rd (R.LVLE_PUB_INDEX l v))).2) ∧
    (s.on (R.LVLE_PUB_EN l v) = false → leAt (s.valueBody l) (4 * v) 4 = 0 ∧ bitOf (leAt (s.valueBody l) 128 4) v = false)) ∧
  (∀ (s t : State) (g : Staged), s.acd.staged = some g → s.acd.pAct = none → g.cmd ≠ 2 → exec .stageDeadline s = .next t → t.acd.pAct ≠ none →
    ∃ p, t.acd.pAct = some p ∧ s.sys.period + s.rd R.ACD_STATUS_ACT_MIN ≤ p ∧ s.sys.period + s.rd R.ACD_CFG_ACT_LEAD ≤ p)

/-! ### Time (13) -/

/-- R351 to R360, R362, R363. -/
def Obligations.TimeIsKeptAndSteered : Prop :=
  (∀ (s : State) (x : Samples), s.writable = true → s.sys.committed = false → s.sys.prep = none → s.sys.pend = none → s.sys.restore = false → s.role = Role.solo →
    s.on R.ACD_CFG_EN = false → s.od.jobs = [] → s.on R.DEV_STATE_DRY_ACTIVE = false →
    Reaches (exec (.periodBoundary x none) s) fun t => t.sys.period = s.sys.period + 1 ∧ t.sys.t0 = (s.sys.period + 1) * 100000 ∧
      t.now = Nat.max s.now ((s.sys.period + 1) * 100000) ∧ t.st = s.st ∧ t.sys.committed = false ∧
      (∀ p, p < 48 → (t.port p).queue = if t.mayLaunch p then [(2, t.tColOf p), (1, t.tCmd)] else [])) ∧
  (∀ (s : State) (v : BitVec 32), s.writable = true → s.od.jobs = [] →
    Reaches (exec (.timSetGo v) s) fun t =>
      t.now = (bitsOf v.toNat 0 16 * 2 ^ 32 + s.rd R.TIM_SET_SECLO_SEC_LO) * 1000000000 + s.rd R.TIM_SET_NS_NS ∧ t.on R.TIM_STATUS_STEPPED = true ∧
      t.sys.period = t.now / s.periodNs ∧ t.sys.t0 = t.sys.period * s.periodNs ∧ t.tim.valid = true ∧ t.st = s.st) ∧
  (∀ (s : State) (v : BitVec 32), (s.st = St.energised ∨ s.st = St.deblocked ∨ s.st = St.faultBlock) →
    exec (.timSetGo v) s = .next (s.put R.TIM_STATUS_STEP_REFUSED true)) ∧
  (∀ (s : State) (n : Fin 2) (dom : BitVec 8) (origin : BitVec 80) (corr : BitVec 48), (s.st = St.energised ∨ s.st = St.deblocked) → s.ptpOn n = true →
    dom.toNat = s.rd (R.PTP_CFG_DOMAIN n) → s.rd (R.PTP_STATE_PSTATE n) = 9 → s.timeSource = true → s.rd (R.FLT_SRC_CFG_BASE 81) ≤ 2 →
    s.rd (R.FLT_SRC_CFG_ESC_N 81) = 0 →
    Reaches (exec (.ptpMessage n dom (.sync origin corr)) s) fun t => t.now = s.now ∧ t.sys = s.sys ∧ t.cells = s.cells ∧
      t.on R.TIM_STATUS_HOLDOVER = false ∧ t.on R.TIM_STATUS_LOCKED = true ∧ (toSigned 32 (t.rd R.TIM_RATE_RATE)).natAbs ≤ s.rd R.TIM_CFG_RATE_MAX * 1000000 ∧
      t.on R.TIM_STATUS_SLEWING = decide (1000 < (toSigned 32 (t.rd R.TIM_OFFSET_OFFSET)).natAbs)) ∧
  (∀ (s : State) (n : Fin 2) (dom : BitVec 8) (role : Fin 3), s.inputsRun = true → s.ptpOn n = true → dom.toNat = s.rd (R.PTP_CFG_DOMAIN n) →
    exec (.ptpMessage n dom (.announce role)) s = .next (s.wr (R.PTP_STATE_PSTATE n)
      (if role = 0 then (if s.on (R.PTP_CFG_SLAVE_ONLY n) then 4 else 6) else if role = 1 then 9 else 7))) ∧
  (∀ (s : State) (n : Fin 2) (dom : BitVec 8), s.inputsRun = true → exec (.ptpMessage n dom .discarded) s = .next s) ∧
  (∀ s : State, s.timeSource = true → s.rd R.TIM_CFG_SRC ≠ 0 → s.on R.TIM_STATUS_HOLDOVER = false → s.rd (R.FLT_SRC_CFG_BASE 80) ≤ 2 → s.rd (R.FLT_SRC_CFG_ESC_N 80) = 0 →
    Reaches (exec .announceTimeout s) fun t => t.on R.TIM_STATUS_HOLDOVER = true ∧ t.on R.TIM_STATUS_LOCKED = false ∧ t.rd R.TIM_HOLD_HOLD_S = 0 ∧
      t.bit (R.FLT_LIVE_LIVE 2) 16 = true ∧ t.rd R.TIM_RATE_RATE = s.rd R.TIM_RATE_RATE ∧ t.now = s.now) ∧
  (∀ s : State, s.on R.TIM_STATUS_HOLDOVER = true → s.rd R.TIM_HOLD_HOLD_LIM ≤ s.rd R.TIM_HOLD_HOLD_S →
    exec .holdoverLimit s = .next { s with tim := { s.tim with limit := true } }) ∧
  (∀ (s : State) (n : Fin 2) (e : Stamp) (rest : List Stamp), mapGet noneAt s.tim.stamps n = e :: rest →
    Reaches (exec (.txtsNext n) s) fun t => mapGet noneAt t.tim.stamps n = rest ∧ mapGet noneAt t.tim.stamps (1 - n) = mapGet noneAt s.tim.stamps (1 - n) ∧ t.regs = s.regs) ∧
  (∀ (s : State) (n : Fin 2) (v : BitVec 32), (mapGet noneAt s.tim.queue n).length < 16 →
    Reaches (exec (.launchPush n v) s) fun t => mapGet noneAt t.tim.queue n = mapGet noneAt s.tim.queue n ++ [⟨s.rd (R.LQ_ADDR_ADDR n), s.rd (R.LQ_LEN_LEN n),
        (v.toNat % 2 ^ 16 * 2 ^ 32 + s.rd (R.LQ_SECLO_T_SEC_LO n)) * 1000000000 + s.rd (R.LQ_NS_T_NS n)⟩] ∧
      t.rd (R.LQ_STATUS_DEPTH n) = (mapGet noneAt s.tim.queue n).length + 1 ∧ t.on (R.LQ_STATUS_FULL_REF n) = s.on (R.LQ_STATUS_FULL_REF n)) ∧
  (∀ (s : State) (n : Fin 2) (v : BitVec 32), 16 ≤ (mapGet noneAt s.tim.queue n).length →
    Reaches (exec (.launchPush n v) s) fun t => t.tim = s.tim ∧ t.on (R.LQ_STATUS_FULL_REF n) = true) ∧
  (∀ (s : State) (n : Fin 2) (e : LaunchE) (rest : List LaunchE), mapGet noneAt s.tim.queue n = e :: rest → s.now ≤ e.time → rest.length < 16 →
    Reaches (exec (.timedLaunch n) s) fun t => t.lastBytes = s.loadBytes e.addr e.len ∧ mapGet noneAt t.tim.queue n = rest ∧ t.rd (R.LQ_STATUS_DEPTH n) = rest.length ∧
      t.rd (R.LQ_STATUS_LATE n) = s.rd (R.LQ_STATUS_LATE n)) ∧
  (∀ (s : State) (n : Fin 2) (e : LaunchE) (rest : List LaunchE), mapGet noneAt s.tim.queue n = e :: rest → e.time < s.now → rest.length < 16 →
    Reaches (exec (.timedLaunch n) s) fun t => t.sent = s.sent ∧ mapGet noneAt t.tim.queue n = rest ∧
      t.rd (R.LQ_STATUS_LATE n) = Nat.min 65535 (s.rd (R.LQ_STATUS_LATE n) + 1)) ∧
  (∀ (s : State) (p : Fin 48) (d2 : BitVec 8), s.dly = s.dly →
    Reaches (exec (.dlyReq (.strand p) d2 d2) s) fun t => (t.dlyAt (.strand p)).answer = some d2.toNat ∧ t.regs = s.regs) ∧
  (∀ (s : State) (p : Fin 48) (d2 d3 : BitVec 8), d2 ≠ d3 →
    exec (.dlyReq (.strand p) d2 d3) s = .next (s.inc (R.ERR_C_BLK_ERR p))) ∧
  (∀ (s : State) (p : Fin 48) (n : Nat), (s.dlyAt (.strand p)).answer = some n →
    Reaches (exec (.dlyRspSend (.strand p)) s) fun t => (t.dlyAt (.strand p)).answer = none ∧ t.sent = .orderedSet p 4 n n :: s.sent) ∧
  (∀ (s : State) (p : Fin 48) (d2 : BitVec 8) (rtt : BitVec 40), (s.dlyAt (.strand p)).out = some d2.toNat → (s.dlyAt (.strand p)).done = 15 → s.inService = false →
    (s.dlyAt (.strand p)).sum = 15 * rtt.toNat → 10240 ≤ rtt.toNat → (rtt.toNat - 10240) / 2 < 2 ^ 24 - 1 → rtt.toNat % 2 = 0 →
    Reaches (exec (.dlyRsp (.strand p) d2 d2 rtt) s) fun t => t.rd (R.STR_DLY_D_HEAD p) = (rtt.toNat - 10240) / 2 ∧ (t.dlyAt (.strand p)).out = none ∧ t.sent = s.sent) ∧
  (∀ (s : State) (p : Fin 48) (d2 : BitVec 8) (rtt : BitVec 40), (s.dlyAt (.strand p)).out = some d2.toNat → (s.dlyAt (.strand p)).done < 15 →
    Reaches (exec (.dlyRsp (.strand p) d2 d2 rtt) s) fun t => t.regs = s.regs ∧ t.sent = .orderedSet p 3 ((d2.toNat + 1) % 256) ((d2.toNat + 1) % 256) :: s.sent ∧
      (t.dlyAt (.strand p)).done = (s.dlyAt (.strand p)).done + 1 ∧ (t.dlyAt (.strand p)).sum = (s.dlyAt (.strand p)).sum + rtt.toNat) ∧
  (∀ (s : State) (id : BitVec 64) (per frac : BitVec 8), (s.cell id.toNat).mode ≠ Mode.running → (s.cell id.toNat).mode ≠ Mode.coasting →
    CellBecomes (exec (.tmArm id per frac) s) s id.toNat fun c => c.on K.TM_ST_ARMED = true ∧ c.rd K.TM_CTL_PER = per.toNat ∧ c.rd K.TM_CTL_FRAC = frac.toNat) ∧
  (∀ (s : State) (id : BitVec 64) (per frac : BitVec 8), ((s.cell id.toNat).mode = Mode.running ∨ (s.cell id.toNat).mode = Mode.coasting) →
    CellBecomes (exec (.tmArm id per frac) s) s id.toNat fun c => c = s.cell id.toNat) ∧
  (∀ (s : State) (id : BitVec 64) (v : BitVec 32), (v.toNat + 2 ^ 32 - (s.cell id.toNat).clock s.now) % 2 ^ 32 ≤ 2 ^ 31 →
    CellBecomes (exec (.tmBoundWrite id v) s) s id.toNat fun c => c.tm.pend = some v.toNat ∧ c.rd K.TM_BOUND = v.toNat ∧ c.pw = (s.cell id.toNat).pw) ∧
  (∀ (s : State) (id : BitVec 64) (v : BitVec 32), 2 ^ 31 < (v.toNat + 2 ^ 32 - (s.cell id.toNat).clock s.now) % 2 ^ 32 →
    CellBecomes (exec (.tmBoundWrite id v) s) s id.toNat fun c => c = s.cell id.toNat)

/-- R349, R351, R360, R365. -/
def Obligations.TimesExtendAndTick : Prop :=
  (∀ near t : Nat, near < t + 2 ^ 31 → t < near + 2 ^ 31 → nearest32 near (t % 2 ^ 32) = t) ∧
  (∀ s : State, s.st ≠ St.reset → s.nowFrac < 1000000000000 → (toSigned 32 (s.rd R.TIM_RATE_RATE)).natAbs ≤ 50000000 → s.now + 5 < timeEnd →
    ∃ t, step { s with pending := [] } = .next t ∧
      (t.now * 1000000000000 + t.nowFrac : Int) = s.now * 1000000000000 + s.nowFrac + 4000000000000 + 4 * toSigned 32 (s.rd R.TIM_RATE_RATE) ∧
      t.nowFrac < 1000000000000) ∧
  (∀ d : Nat, rneDiv (16 * (2 * d + 10240) - 16 * turnTime (.strand 0)) 32 = d) ∧
  (∀ (s : State) (v : BitVec 32) (t : State), s.writable = true → exec (.timSetGo v) s = .next t → t.sys.t0 ≤ t.now ∧ t.now < t.sys.t0 + t.periodNs)

/-! ### The safety island (14) -/

/-- R369 to R372, R389 to R391, R405. -/
def Obligations.IslandStatesAreSafe : Prop :=
  (∀ s : State, s.sys.rstHigh = true → Reaches (exec .vddSafePowerOn s) fun t => t.ist = 1 ∧ t.SafeSide ∧ t.on R.SAFE_STATE_SB = true ∧ t.on R.SAFE_STATE_PARAM_VALID = false) ∧
  (∀ (s : State) (fails : BitVec 6), s.sys.rstHigh = true → s.ist = 1 → fails = 0 → Reaches (exec (.islandTestEnd fails) s) fun t => t.ist = 2 ∧ t.SafeSide) ∧
  (∀ (s : State) (fails : BitVec 6), s.sys.rstHigh = true → s.ist = 1 → fails ≠ 0 →
    Reaches (exec (.islandTestEnd fails) s) fun t => t.ist = 4 ∧ t.rd R.SAFE_STATE_HALT_CAUSE = 1 ∧ t.SafeSide) ∧
  (∀ s : State, s.ist ≠ 0 → s.ist ≠ 4 → Reaches (exec .islandLockstepMismatch s) fun t => t.ist = 4 ∧ t.rd R.SAFE_STATE_HALT_CAUSE = 2 ∧ t.SafeSide) ∧
  (∀ s : State, s.ist ≠ 0 → s.ist ≠ 4 → Reaches (exec .islandWatchdogExpiry s) fun t => t.ist = 4 ∧ t.rd R.SAFE_STATE_HALT_CAUSE = 3 ∧ t.SafeSide) ∧
  (∀ (s : State) (corrected : Bool), s.ist ≠ 0 → s.ist ≠ 4 → corrected = false →
    Reaches (exec (.islandMemoryError corrected) s) fun t => t.ist = 4 ∧ t.rd R.SAFE_STATE_HALT_CAUSE = 4 ∧ t.SafeSide) ∧
  (∀ (s : State) (corrected : Bool), corrected = true → exec (.islandMemoryError corrected) s = .next (s.inc R.SAFE_DIAG_ECC_CNT)) ∧
  (∀ (s : State) (dev : BitVec 8), s.ist ≠ 0 → s.ist ≠ 4 → 20 < (toSigned 8 dev.toNat).natAbs →
    Reaches (exec (.islandOscDeviation false dev) s) fun t => t.ist = 4 ∧ t.rd R.SAFE_STATE_HALT_CAUSE = 5 ∧ t.SafeSide ∧ t.rd R.SAFE_DIAG_OSC_DEV = dev.toNat) ∧
  (∀ (s : State) (dev : BitVec 8), s.ist = 3 →
    Reaches (exec (.islandOscDeviation true dev) s) fun t => t.ist = 3 ∧ t.on R.SAFE_DIAG_REF_ABSENT = true ∧ t.rd R.SAFE_STATE_HALT_CAUSE = s.rd R.SAFE_STATE_HALT_CAUSE) ∧
  (∀ s : State, s.ist = 3 → Reaches (exec .safeMonitorTrip s) fun t => t.sys.hardBlock = true ∧ t.SafeSide ∧
    (∀ n, n < 2 → t.on (R.SO_STATUS_ENERGISED n) = false ∧ t.on (R.SO_STATUS_HS_DRV n) = false ∧ t.on (R.SO_STATUS_LS_DRV n) = false)) ∧
  (∀ (s : State) (set : Option (List ParamWord)), s.ist = 2 → set ≠ none →
    Reaches (exec (.paramSetPoll set) s) fun t => t.ist = 3 ∧ t.on R.SAFE_STATE_PARAM_VALID = true ∧ t.on R.SAFE_LATCH_START = true ∧ t.SafeSide ∧
      t.on R.SAFE_STATE_ST = true ∧ t.rd R.SAFE_PCRC_PARAM_CRC = t.paramCrc) ∧
  (∀ (s : State) (pins : SafePins), s.islandUp = true →
    Reaches (exec (.islandCycle pins) s) fun t => t.SafeSide ∧ t.isl.dev = s.st ∧ t.on R.MATE_LIVE_A = pins.mate.getLsbD 0 ∧
      (∀ n, n < 2 → t.on (R.SO_STATUS_HS_RB n) = pins.readback.getLsbD (2 * n) ∧ t.on (R.SO_STATUS_FBK n) = pins.feedback.getLsbD n))

/-- R374 to R383. -/
def Obligations.SafeInputsLatchUntilReset : Prop :=
  (∀ (s : State) (n : Fin 8) (b level : Bool), s.islandUp = true → s.siHeld n b = false →
    Reaches (exec (.safeInputFilter n b level) s) fun t => t.on (if b then R.SI_STATUS_LVL_B n else R.SI_STATUS_LVL_A n) = level ∧
      t.on (if b then R.SI_STATUS_LVL_A n else R.SI_STATUS_LVL_B n) = s.on (if b then R.SI_STATUS_LVL_A n else R.SI_STATUS_LVL_B n) ∧ t.sys = s.sys) ∧
  (∀ (s : State) (n : Fin 8) (b level : Bool), s.siHeld n b = true → exec (.safeInputFilter n b level) s = .next s) ∧
  (∀ (s : State) (n : Fin 8), s.islandUp = true → s.rd (R.SI_CFG_DISC n) * 20 < mapGet (fun _ => 0) s.isl.disc n →
    Reaches (exec (.discrepancyFault n) s) fun t => t.on (R.SI_STATUS_DISC_FLT n) = true ∧ t.on (R.SI_STATUS_DEMAND n) = true ∧
      t.bit R.SAFE_LATCH_SI n = true ∧ t.SafeSide ∧ (s.on (R.SI_CFG_MAP_SB n) = true → t.on R.SAFE_STATE_SB = true)) ∧
  (∀ (s : State) (tp : Fin 4) (x : BitVec 16), s.islandUp = true →
    Reaches (exec (.testPulseDark tp x) s) fun t => bitOf t.isl.excl tp = true ∧ t.isl.pre = x.toNat ∧ t.regs = s.regs ∧
      (tp ≠ 0 → t.isl.badNow = s.isl.badNow) ∧ (tp = 0 → t.isl.badLast = s.isl.badNow ∧ t.isl.badNow = 0)) ∧
  (∀ (s : State) (tp : Fin 4) (x : BitVec 16), s.islandUp = true → s.siTp 0 false = some tp.val → bitOf s.isl.pre 0 = true → x.getLsbD 0 = true →
    Reaches (exec (.testPulseCheck tp x) s) fun t => t.on (R.SI_STATUS_STUCK_A 0) = true ∧ t.on (R.SI_STATUS_DEMAND 0) = true ∧ t.bit R.SAFE_LATCH_SI 0 = true ∧ t.SafeSide) ∧
  (∀ (s : State) (tp : Fin 4) (x : BitVec 16), s.islandUp = true → bitOf s.isl.low 1 = true → x.getLsbD 1 = true →
    Reaches (exec (.testPulseSettleCheck tp x) s) fun t => t.on (R.SI_STATUS_XS_B 0) = true ∧ t.rd (R.SI_STATUS_XS_TP_B 0) = tp.val ∧
      t.on (R.SI_STATUS_DEMAND 0) = true ∧ bitOf t.isl.excl tp = false ∧ t.SafeSide) ∧
  (∀ (s : State) (tp : Fin 4) (level : Bool), s.islandUp = true → s.siTp 0 true = some tp.val →
    Reaches (exec (.tpFeedbackFault tp level) s) fun t => t.bit R.TP_STATUS_TP_FLT tp = true ∧ t.on (R.SI_STATUS_TP_FLT 0) = true ∧
      t.on (R.SI_STATUS_DEMAND 0) = true ∧ t.SafeSide) ∧
  (∀ s : State, s.islandUp = true → Reaches (exec .resetButtonPress s) fun t => t.on R.SAFE_RST_PRESSED = true ∧ t.isl.press = some s.now ∧ t.sys = s.sys ∧
    t.rd R.SAFE_RST_VALID_CNT = s.rd R.SAFE_RST_VALID_CNT) ∧
  (∀ (s : State) (at' : Nat), s.islandUp = true → s.isl.press = some at' → s.isl.stuck = false → s.on R.SAFE_RST_PIN_EN = true → at' + 100000000 ≤ s.now →
    s.now < at' + 5000000000 →
    Reaches (exec .resetButtonRelease s) fun t => t.rd R.SAFE_RST_VALID_CNT = Nat.min 65535 (s.rd R.SAFE_RST_VALID_CNT + 1) ∧ t.on R.SAFE_LATCH_START = false ∧
      t.on R.SAFE_RST_PRESSED = false ∧ t.isl.press = none ∧ t.SafeSide ∧ t.on R.SAFE_STATE_RST_NOEFF = t.anyLatch) ∧
  (∀ (s : State) (at' : Nat), s.islandUp = true → s.isl.press = some at' → s.isl.stuck = true →
    Reaches (exec .resetButtonRelease s) fun t => t.rd R.SAFE_RST_VALID_CNT = s.rd R.SAFE_RST_VALID_CNT ∧ t.on R.SAFE_LATCH_START = s.on R.SAFE_LATCH_START ∧
      t.on R.SAFE_RST_PRESSED = false ∧ t.on R.SAFE_STATE_RST_STUCK = false ∧ t.isl.stuck = false) ∧
  (∀ (s : State) (at' : Nat), s.islandUp = true → s.isl.press = some at' → s.on R.SAFE_RST_PIN_EN = true →
    Reaches (exec (.resetStuck none) s) fun t => t.on R.SAFE_STATE_RST_STUCK = true ∧ t.isl.stuck = true ∧ t.rd R.SAFE_RST_VALID_CNT = s.rd R.SAFE_RST_VALID_CNT ∧ t.SafeSide)

/-- R384 to R388, R391 to R393, R395. -/
def Obligations.SafeOutputsBrakeAndMate : Prop :=
  (∀ (s : State) (n : Fin 2) (low level : Bool), s.islandUp = true → mapGet (fun _ => none) s.isl.test n.val = none →
    s.on (if low then R.SO_STATUS_LS_DRV n else R.SO_STATUS_HS_DRV n) = !level →
    Reaches (exec (.outputReadbackFault n low level) s) fun t => t.on (R.SO_STATUS_RB_FLT n) = true ∧ t.on (R.SO_STATUS_ENERGISED n) = false ∧
      t.on (R.SO_STATUS_HS_DRV n) = false ∧ t.on (R.SO_STATUS_LS_DRV n) = false ∧ t.SafeSide ∧ (s.rd (R.SO_CFG_FUNC n) = 1 → t.on R.SAFE_STATE_ST = true)) ∧
  (∀ (s : State) (n : Fin 2) (low : Bool), s.ist = 3 → s.rd (R.SO_CFG_FUNC n) ≠ 0 → mapGet (fun _ => none) s.isl.test n.val = none →
    Reaches (exec (.outputTestStart n low) s) fun t => t.on (if low then R.SO_STATUS_LS_DRV n else R.SO_STATUS_HS_DRV n) = !s.on (R.SO_STATUS_ENERGISED n) ∧
      t.on (if low then R.SO_STATUS_HS_DRV n else R.SO_STATUS_LS_DRV n) = s.on (if low then R.SO_STATUS_HS_DRV n else R.SO_STATUS_LS_DRV n) ∧
      t.on (R.SO_STATUS_ENERGISED n) = s.on (R.SO_STATUS_ENERGISED n) ∧ mapGet (fun _ => none) t.isl.test n.val = some low) ∧
  (∀ (s : State) (n : Fin 2) (level low : Bool), mapGet (fun _ => none) s.isl.test n.val = some low → level = !s.on (R.SO_STATUS_ENERGISED n) →
    Reaches (exec (.outputTestEnd n level) s) fun t => t.rd (R.SO_STATUS_DP_CNT n) = Nat.min 65535 (s.rd (R.SO_STATUS_DP_CNT n) + 1) ∧
      t.on (if low then R.SO_STATUS_LS_DRV n else R.SO_STATUS_HS_DRV n) = s.on (R.SO_STATUS_ENERGISED n) ∧ mapGet (fun _ => none) t.isl.test n.val = none ∧
      t.on (R.SO_STATUS_DP_FLT n) = s.on (R.SO_STATUS_DP_FLT n)) ∧
  (∀ (s : State) (n : Fin 2) (level low : Bool), mapGet (fun _ => none) s.isl.test n.val = some low → level = s.on (R.SO_STATUS_ENERGISED n) →
    Reaches (exec (.outputTestEnd n level) s) fun t => t.on (R.SO_STATUS_DP_FLT n) = true ∧ t.on (R.SO_STATUS_ENERGISED n) = false ∧ t.SafeSide) ∧
  (∀ (s : State) (n : Fin 2) (level : Bool), s.islandUp = true → s.fbkExpected n = some (!level) →
    Reaches (exec (.outputFeedbackCheck n level) s) fun t => t.on (R.SO_STATUS_FBK_FLT n) = true ∧ t.on (R.SO_STATUS_FBK n) = level ∧
      t.on (R.SO_STATUS_ENERGISED n) = false ∧ t.SafeSide ∧ (s.rd (R.SO_CFG_FUNC n) = 1 → t.on (R.SO_STATUS_OPEN_FAIL n) = true ∧ t.on R.SAFE_STATE_ST = true)) ∧
  (∀ s : State, s.islandUp = true → s.on R.SAFE_STATE_SBC = true → s.on R.SBC_CFG_SBC_MODE = true →
    Reaches (exec .sbcBlockDelay s) fun t => t.SafeSide ∧ (t.on R.SAFE_STATE_SBC = true → t.on R.SAFE_STATE_SB = true ∧ t.isl.sbcBlock = true)) ∧
  (∀ (s : State) (l : BitVec 2), s.isl.bt = 1 → (∀ n, n < 2 → s.rd (R.SO_CFG_FUNC n) = 2 → l.getLsbD n = !s.on (R.SO_CFG_FBK_POL n)) →
    Reaches (exec (.brakeTestFeedback l) s) fun t => t.on R.BT_STATUS_RUNNING = true ∧ t.isl.bt = 2 ∧ t.on R.BT_STATUS_FAILED = s.on R.BT_STATUS_FAILED) ∧
  (∀ (s : State) (l : BitVec 2), s.isl.bt = 1 → s.rd (R.SO_CFG_FUNC 1) = 2 → l.getLsbD 1 = s.on (R.SO_CFG_FBK_POL 1) →
    Reaches (exec (.brakeTestFeedback l) s) fun t => t.on R.BT_STATUS_FAILED = true ∧ t.on R.BT_STATUS_INHIBIT = true ∧ t.on R.SAFE_LATCH_BT_FAIL = true ∧
      t.on R.SAFE_STATE_SB = true ∧ t.on R.SAFE_STATE_SBC = true ∧ t.SafeSide) ∧
  (∀ s : State, s.isl.bt = 2 → s.isl.btBad = false →
    Reaches (exec .brakeTestEnd s) fun t => t.on R.BT_STATUS_PASSED = true ∧ t.on R.BT_STATUS_RUNNING = false ∧ t.on R.BT_STATUS_DUE = false ∧
      t.on R.BT_STATUS_INHIBIT = false ∧ t.rd R.BT_STATUS_HOURS = 0 ∧ t.SafeSide) ∧
  (∀ s : State, s.isl.bt = 2 → s.isl.btBad = true →
    Reaches (exec .brakeTestEnd s) fun t => t.on R.BT_STATUS_FAILED = true ∧ t.on R.BT_STATUS_INHIBIT = true ∧ t.on R.SAFE_STATE_SBC = true ∧ t.SafeSide) ∧
  (∀ s : State, s.ist = 3 →
    Reaches (exec .brakeTestHour s) fun t => t.rd R.BT_STATUS_HOURS = Nat.min 65535 (s.rd R.BT_STATUS_HOURS + 1) ∧
      (s.rd R.BT_CFG_BT_INT ≠ 0 → s.rd R.BT_CFG_BT_INT ≤ t.rd R.BT_STATUS_HOURS → t.on R.BT_STATUS_DUE = true) ∧
      (s.rd R.BT_CFG_BT_INT ≠ 0 → s.rd R.BT_CFG_BT_INT + s.rd R.BT_CFG_BT_GRACE ≤ t.rd R.BT_STATUS_HOURS → t.on R.BT_STATUS_INHIBIT = true) ∧
      (s.rd R.BT_CFG_BT_INT = 0 → t.on R.BT_STATUS_DUE = s.on R.BT_STATUS_DUE) ∧ t.SafeSide) ∧
  (∀ (s : State) (b : Bool), s.islandUp = true → s.on R.MATE_MATE_EN = true →
    Reaches (exec (.mateNotLive b) s) fun t => t.on (if b then R.MATE_LIVE_B else R.MATE_LIVE_A) = false ∧ t.on R.SAFE_STATE_SB = true ∧ t.on R.SAFE_DEMAND_MATE = true ∧ t.SafeSide) ∧
  (∀ s : State, s.islandUp = true → s.on R.MATE_MATE_EN = true → s.on R.MATE_LIVE_A ≠ s.on R.MATE_LIVE_B →
    Reaches (exec .mateFault s) fun t => t.on R.MATE_MATE_FLT = true ∧ t.on R.SAFE_STATE_SB = true ∧ t.on R.SAFE_LATCH_MATE = true ∧ t.SafeSide)

/-- R396 to R404. -/
def Obligations.SafeTelegramsPairAndCommit : Prop :=
  (∀ (s : State) (p : TelegramPath) (l : List Byte), s.islandUp = true → s.telegramConn p l = some 0 → s.telegramGood 0 p l = true → (s.conn 0).held = [] →
    s.rd (R.CONN_STATE_CSTATE 0) = 2 → leAt l 4 4 = (s.rd (R.CONN_SEQ_SEQ 0) + 1) % 2 ^ 32 →
    Reaches (exec (.telegramReceived p l) s) fun t => (t.conn 0).held.map Held.seq = [leAt l 4 4] ∧ t.rd (R.CONN_SEQ_SEQ 0) = s.rd (R.CONN_SEQ_SEQ 0) ∧
      t.rd (R.CONN_DATA_DATA 0 0) = s.rd (R.CONN_DATA_DATA 0 0) ∧ t.rd (R.CONN_ERR_OLD 0) = s.rd (R.CONN_ERR_OLD 0) ∧ t.SafeSide) ∧
  (∀ (s : State) (p : TelegramPath) (l : List Byte) (h : Held), s.ist = 3 → s.telegramConn p l = some 0 → s.telegramGood 0 p l = true → (s.conn 0).held = [h] →
    s.rd (R.CONN_STATE_CSTATE 0) = 2 → leAt l 4 4 = (s.rd (R.CONN_SEQ_SEQ 0) + 1) % 2 ^ 32 → h.seq = leAt l 4 4 → some h.net ≠ s.pathNet 0 p →
    some h.bytes = telegramOf p l → s.now - h.at' ≤ s.rd (R.CONN_TIME_SKEW 0) * 100000 → byteAt l 2 = 1 → (s.conn 0).press = none → s.on (R.CONN_CFG_RST_EN 0) = false →
    Reaches (exec (.telegramReceived p l) s) fun t => t.rd (R.CONN_STATE_CSTATE 0) = 2 ∧ t.rd (R.CONN_SEQ_SEQ 0) = leAt l 4 4 ∧ (t.conn 0).held = [] ∧
      (t.conn 0).since = s.now ∧ (∀ w, w < 8 → t.rd (R.CONN_DATA_DATA 0 w) = leAt l (8 + 4 * w) 4) ∧ t.SafeSide ∧
      (bitOf (byteAt l 8) 0 = false → t.on R.SAFE_STATE_SB = true)) ∧
  (∀ (s : State) (p : TelegramPath) (l : List Byte) (h : Held), s.islandUp = true → s.telegramConn p l = some 0 → s.telegramGood 0 p l = true → (s.conn 0).held = [h] →
    s.rd (R.CONN_STATE_CSTATE 0) = 2 → leAt l 4 4 = (s.rd (R.CONN_SEQ_SEQ 0) + 1) % 2 ^ 32 → h.seq = leAt l 4 4 → some h.net ≠ s.pathNet 0 p →
    some h.bytes ≠ telegramOf p l → s.now - h.at' ≤ s.rd (R.CONN_TIME_SKEW 0) * 100000 →
    Reaches (exec (.telegramReceived p l) s) fun t => t.rd (R.CONN_STATE_CSTATE 0) = 3 ∧ t.bit R.SAFE_LATCH_CONN 0 = true ∧
      t.rd (R.CONN_ERR_MISMATCH 0) = Nat.min 255 (s.rd (R.CONN_ERR_MISMATCH 0) + 1) ∧ t.rd (R.CONN_SEQ_SEQ 0) = s.rd (R.CONN_SEQ_SEQ 0) ∧
      (s.on (R.CONN_CFG_LOSS_SB 0) = true → t.on R.SAFE_STATE_SB = true) ∧ t.SafeSide) ∧
  (∀ (s : State) (p : TelegramPath) (l : List Byte) (c : Nat), s.islandUp = true → s.telegramConn p l = some c → s.telegramGood c p l = false →
    exec (.telegramReceived p l) s = .next (s.inc (R.CONN_ERR_CRC_ERR c))) ∧
  (∀ (s : State) (c : Fin 8) (h : Held) (rest : List Held), (s.conn c).held = h :: rest →
    Reaches (exec (.telegramSkewExpiry c) s) fun t => (t.conn c).held = rest ∧ t.rd (R.CONN_ERR_SINGLE c) = Nat.min 255 (s.rd (R.CONN_ERR_SINGLE c) + 1) ∧
      t.rd (R.CONN_STATE_CSTATE c) = s.rd (R.CONN_STATE_CSTATE c)) ∧
  (∀ (s : State) (c : Fin 8), s.islandUp = true → s.rd (R.CONN_STATE_CSTATE c) = 2 →
    Reaches (exec (.connectionWatchdog c) s) fun t => t.rd (R.CONN_STATE_CSTATE c) = 3 ∧ t.bit R.SAFE_LATCH_CONN c = true ∧ (t.conn c).held = [] ∧
      (s.on (R.CONN_CFG_LOSS_SB c) = true → t.on R.SAFE_STATE_SB = true) ∧ (s.on (R.CONN_CFG_LOSS_ST c) = true → t.on R.SAFE_STATE_ST = true) ∧ t.SafeSide) ∧
  (∀ (s : State) (c : Fin 8), s.islandUp = true → s.on (R.CONN_CFG_EN c) = true →
    Reaches (exec (.telegramSend c) s) fun t => (t.conn c).tx = ((s.conn c).tx + 1) % 2 ^ 32 ∧ (t.conn c).rsp = none ∧
      leAt t.lastBytes 0 2 = s.rd (R.CONN_CFG_CONN_ID c) ∧ byteAt t.lastBytes 2 = (if (s.conn c).rsp = none then 0x81 else 0x83) ∧
      leAt t.lastBytes 4 4 = (s.conn c).tx % 2 ^ 32 ∧ t.regs = s.regs) ∧
  (∀ (s : State) (c : Fin 8) (l : List Byte), s.on (R.CONN_CFG_PARAM_EN c) = true → s.islandUp = true → s.on R.PT_STATUS_OPEN = false → s.isl.staged = [] → byteAt l 2 = 1 →
    rwsLegal (leAt l 4 2) (leAt l 8 4) = true →
    Reaches (exec (.paramStage c l) s) fun t => t.on R.PT_STATUS_OPEN = true ∧ t.rd R.PT_STATUS_TXID = byteAt l 1 ∧ t.rd R.PT_STATUS_STAGED = 1 ∧
      t.isl.staged = [(leAt l 4 2, leAt l 8 4)] ∧ t.rd R.PT_CRC_CRC = crc32c (bytesLE 4 (leAt l 4 2) ++ bytesLE 4 (leAt l 8 4)) ∧ t.rd R.PT_LAST_RESULT = 0 ∧
      t.rd R.PT_LAST_CONN = c.val ∧ t.safeSet = s.safeSet) ∧
  (∀ (s : State) (c : Fin 8) (l : List Byte), s.on (R.CONN_CFG_PARAM_EN c) = true → s.islandUp = true → s.on R.PT_STATUS_OPEN = false → 3 < byteAt l 2 →
    Reaches (exec (.paramStage c l) s) fun t => t.rd R.PT_LAST_RESULT = 3 ∧ t.on R.PT_STATUS_OPEN = false ∧ t.isl.staged = s.isl.staged) ∧
  (∀ (s : State) (c : Fin 8) (l : List Byte), s.on (R.CONN_CFG_PARAM_EN c) = true → s.islandUp = true → s.on R.PT_STATUS_OPEN = true → s.rd R.PT_STATUS_TXID = byteAt l 1 →
    leAt l 28 4 = s.rd R.PT_CRC_CRC → s.on R.SAFE_STATE_SB = true → s.on R.SAFE_STATE_ST = true → s.on R.SAFE_STATE_SBC = true →
    s.on (R.SO_STATUS_ENERGISED 0) = false → s.on (R.SO_STATUS_ENERGISED 1) = false → (s.applySet s.isl.staged).setLegal = true →
    Reaches (exec (.paramCommit c l) s) fun t => t.isl.commit = some s.isl.staged ∧ t.rd R.PT_LAST_RESULT = 0 ∧ t.on R.PT_STATUS_OPEN = false ∧ t.isl.staged = [] ∧
      t.safeSet = s.safeSet) ∧
  (∀ (s : State) (c : Fin 8) (l : List Byte), s.on (R.CONN_CFG_PARAM_EN c) = true → s.islandUp = true → s.on R.PT_STATUS_OPEN = true → s.rd R.PT_STATUS_TXID = byteAt l 1 →
    Reaches (exec (.paramAbort c l) s) fun t => t.on R.PT_STATUS_OPEN = false ∧ t.isl.staged = [] ∧ t.rd R.PT_CRC_CRC = 0 ∧ t.rd R.PT_LAST_RESULT = 0 ∧ t.safeSet = s.safeSet) ∧
  (∀ (s : State) (c : Fin 8) (l : List Byte), s.on (R.CONN_CFG_PARAM_EN c) = true → s.islandUp = true → leAt l 4 2 = 0x100 →
    Reaches (exec (.paramRead c l) s) fun t => t.rd R.PT_LAST_RESULT = 0 ∧ t.isl.staged = s.isl.staged ∧
      ((t.conn c).rsp.map fun b => (bitsOf (leAt b 12 4) 0 2, bitsOf (leAt b 12 4) 16 5)) = some (s.rd (R.SI_CFG_MODE 0), s.rd (R.SI_CFG_FILT 0))) ∧
  (∀ s : State, s.on R.PT_STATUS_OPEN = true →
    Reaches (exec .paramTransactionTimeout s) fun t => t.on R.PT_STATUS_OPEN = false ∧ t.isl.staged = [] ∧ t.rd R.PT_STATUS_STAGED = 0 ∧ t.rd R.PT_CRC_CRC = 0 ∧ t.safeSet = s.safeSet)

/-! ### Fault collection (15) -/

/-- R410 to R414, R418, R420, R424, R425, R427, R430. -/
def Obligations.FaultsLatchAndClear : Prop :=
  (∀ (s : State) (i addr : Nat), i < 128 → reservedSource i = false → s.latched i = false → s.lclass i = 0 → s.rd (R.FLT_SRC_CFG_ESC_N i) ≠ 1 →
    (mapGet (fun _ => []) s.flt.hist i) = [] → 1 ≤ s.rd (R.FLT_SRC_CFG_BASE i) → s.rd (R.FLT_SRC_CFG_BASE i) ≤ 2 → s.levelSource i = false → s.flt.armed = true →
    Reaches (exec (.faultSourceRaise [{ src := Fin.ofNat 128 i, access := 1, master := 7, addr := BitVec.ofNat 36 addr }]) s) fun t =>
      t.latched i = true ∧ t.lclass i = s.rd (R.FLT_SRC_CFG_BASE i) ∧ t.on (R.FLT_SRC_ST_ESC i) = s.on (R.FLT_SRC_ST_ESC i) ∧
      t.rd (R.FLT_SRC_ST_EVT_CNT i) = Nat.min 65535 (s.rd (R.FLT_SRC_ST_EVT_CNT i) + 1) ∧ t.st = s.st ∧
      t.rd R.FLT_FIRST_INFO_SRC = i ∧ t.on R.FLT_FIRST_INFO_VALID = true ∧ t.rd R.FLT_FIRST_INFO_ACCESS = 1 ∧ t.rd R.FLT_FIRST_INFO_MASTER = 7 ∧
      t.rd R.FLT_FIRST_INFO_CLASS = s.rd (R.FLT_SRC_CFG_BASE i) ∧ t.rd R.FLT_FIRST_ADDR_LO_ADDR = addr % 2 ^ 32 ∧ t.flt.firstTime = s.now ∧ t.flt.armed = false) ∧
  (∀ (s : State) (i addr : Nat), i < 128 → reservedSource i = false → s.latched i = false → s.lclass i = 0 → s.rd (R.FLT_SRC_CFG_ESC_N i) = 0 →
    s.rd (R.FLT_SRC_CFG_BASE i) = 0 → s.levelSource i = false →
    Reaches (exec (.faultSourceRaise [{ src := Fin.ofNat 128 i, access := 0, master := 0, addr := BitVec.ofNat 36 addr }]) s) fun t =>
      t.latched i = false ∧ t.rd (R.FLT_SRC_ST_EVT_CNT i) = Nat.min 65535 (s.rd (R.FLT_SRC_ST_EVT_CNT i) + 1) ∧ t.st = s.st ∧ t.flt.armed = s.flt.armed) ∧
  (∀ (s : State) (i cls : Nat), i < 128 → reservedSource i = false → s.levelSource i = false → 2 ≤ s.rd (R.FLT_SRC_CFG_ESC_N i) → s.rd (R.FLT_SRC_CFG_ESC_CLASS i) = cls →
    s.rd (R.FLT_SRC_CFG_BASE i) < cls → cls ≤ 2 → s.lclass i ≤ 2 → (mapGet (fun _ => []) s.flt.hist i).length + 1 = s.rd (R.FLT_SRC_CFG_ESC_N i) →
    s.us - (mapGet (fun _ => []) s.flt.hist i).headD 0 < s.rd (R.FLT_SRC_WIN_ESC_W i) * 1000 →
    Reaches (exec (.faultSourceRaise [{ src := Fin.ofNat 128 i, access := 0, master := 0, addr := 0 }]) s) fun t =>
      t.latched i = true ∧ t.lclass i = Nat.max (s.lclass i) cls ∧ t.on (R.FLT_SRC_ST_ESC i) = true ∧ t.bit (R.FLT_ESC_ESC (i / 32)) (i % 32) = true ∧ t.st = s.st) ∧
  (∀ (s : State) (i : Fin 128), s.levelSource i = true → reservedSource i = false →
    Reaches (exec (.faultCauseAbsent i) s) fun t => t.bit (R.FLT_LIVE_LIVE (i.val / 32)) (i.val % 32) = false ∧ (∀ j, j < 128 → t.latched j = s.latched j) ∧ t.st = s.st) ∧
  (∀ (s : State) (i : Fin 128), s.st ≠ St.reset → s.st ≠ St.selfTest → s.role = Role.solo → s.latched i = true → s.lclass i ≠ 5 →
    s.bit (R.FLT_LIVE_LIVE (i.val / 32)) (i.val % 32) = false →
    Reaches (exec (.fltStatClear (Fin.ofNat 4 (i.val / 32)) (BitVec.ofNat 32 (2 ^ (i.val % 32)))) s) fun t => t.latched i = false ∧ t.lclass i = 0 ∧ t.on (R.FLT_SRC_ST_ESC i) = false ∧
      mapGet (fun _ => []) t.flt.hist i = [] ∧ t.on R.FLT_SUMMARY_CLR_REFUSED = s.on R.FLT_SUMMARY_CLR_REFUSED) ∧
  (∀ (s : State) (i : Fin 128), s.st ≠ St.reset → s.st ≠ St.selfTest → s.role = Role.solo → s.latched i = true →
    (s.lclass i = 5 ∨ s.bit (R.FLT_LIVE_LIVE (i.val / 32)) (i.val % 32) = true) →
    Reaches (exec (.fltStatClear (Fin.ofNat 4 (i.val / 32)) (BitVec.ofNat 32 (2 ^ (i.val % 32)))) s) fun t => t.latched i = true ∧ t.lclass i = s.lclass i ∧
      t.on R.FLT_SUMMARY_CLR_REFUSED = true) ∧
  (∀ (s : State) (i : Fin 128), s.st ≠ St.reset → s.st ≠ St.selfTest → s.role = Role.solo → reservedSource i = false → s.rd (R.FLT_SRC_CFG_BASE i) ≤ 2 →
    s.rd (R.FLT_SRC_CFG_ESC_CLASS i) ≤ 2 → s.lclass i ≤ 2 →
    Reaches (exec (.fltInject i 0x5A5A) s) fun t => t.rd (R.FLT_SRC_ST_EVT_CNT i) = Nat.min 65535 (s.rd (R.FLT_SRC_ST_EVT_CNT i) + 1) ∧
      t.bit (R.FLT_LIVE_LIVE (i.val / 32)) (i.val % 32) = s.bit (R.FLT_LIVE_LIVE (i.val / 32)) (i.val % 32) ∧ t.st = s.st) ∧
  (∀ (s : State) (i : Fin 128) (key : BitVec 16), s.st ≠ St.reset → s.st ≠ St.selfTest → s.role = Role.solo → key ≠ 0x5A5A →
    exec (.fltInject i key) s = .next s ∧ exec (.fltClrAll key) s = .next s) ∧
  (∀ s : State, s.st ≠ St.reset → s.st ≠ St.selfTest → s.role = Role.solo →
    Reaches (exec .fltRearm s) fun t => t.on R.FLT_FIRST_INFO_VALID = false ∧ t.flt.armed = true ∧ (∀ j, j < 128 → t.latched j = s.latched j)) ∧
  (∀ (s : State) (i : Fin 128), s.st ≠ St.reset → s.st ≠ St.selfTest → s.role = Role.solo →
    (∀ j, j < 128 → s.latched j = true → j = i.val ∧ s.lclass j ≠ 5 ∧ s.bit (R.FLT_LIVE_LIVE (j / 32)) (j % 32) = false) →
    Reaches (exec (.fltClrAll 0x5A5A) s) fun t => (∀ j, j < 128 → t.latched j = false) ∧ t.rd R.FLT_SUMMARY_LATCHED = 0 ∧ t.rd R.FLT_SUMMARY_WORST = 0 ∧ t.st = s.st) ∧
  (∀ s : State, s.st ≠ St.reset → s.st ≠ St.selfTest → s.role = Role.solo → s.rd (R.FLT_SRC_CFG_BASE 31) = 1 → s.rd (R.FLT_SRC_CFG_ESC_N 31) = 0 → s.lclass 31 ≤ 1 →
    Reaches (exec .fltApp s) fun t => t.latched 31 = true ∧ t.lclass 31 = 1 ∧ t.rd (R.FLT_SRC_ST_EVT_CNT 31) = Nat.min 65535 (s.rd (R.FLT_SRC_ST_EVT_CNT 31) + 1) ∧ t.st = s.st) ∧
  (∀ (s : State) (i : Fin 128) (v : BitVec 32), s.writable = true → s.role = Role.solo → reservedSource i = false → v.toNat % 8 ≤ 5 → v.toNat / 16 % 8 ≤ 5 →
    s.rd (R.FLT_SRC_CFG_FLOOR i) ≤ v.toNat % 8 → s.rd (R.FLT_SRC_CFG_FLOOR i) ≤ v.toNat / 16 % 8 → 2 ≤ v.toNat / 256 % 256 → v.toNat % 8 < v.toNat / 16 % 8 →
    Reaches (exec (.fltSrcConfig i false v) s) fun t => t.rd (R.FLT_SRC_CFG_BASE i) = v.toNat % 8 ∧ t.rd (R.FLT_SRC_CFG_ESC_CLASS i) = v.toNat / 16 % 8 ∧
      t.rd (R.FLT_SRC_CFG_ESC_N i) = v.toNat / 256 % 256 ∧ mapGet (fun _ => []) t.flt.hist i = [] ∧ t.lclass i = s.lclass i) ∧
  (∀ (s : State) (i : Fin 128) (v : BitVec 32), s.writable = true → s.role = Role.solo → reservedSource i = false →
    v.toNat % 8 < s.rd (R.FLT_SRC_CFG_FLOOR i) → v.toNat % 8 ≠ s.rd (R.FLT_SRC_CFG_BASE i) →
    exec (.fltSrcConfig i false v) s = .next s) ∧
  (∀ (s : State) (id : BitVec 64) (i : Fin 32) (cls : Nat), (s.cell id.toNat).mode ≠ Mode.reset → (s.cell id.toNat).rd (K.CFLT_CLASS_CLASS (i / 8) (i % 8)) = cls →
    3 ≤ cls → cls ≤ 4 → (s.cell id.toNat).latched i = false → (s.cell id.toNat).on (K.CFLT_CLASS_BYP (i / 8) (i % 8)) = false →
    (s.cell id.toNat).bit K.CTRG_MASK_MASK i = false → (∀ e ∈ (s.cell id.toNat).cls, e.2 ≤ 5) →
    CellBecomes (exec (.cellSourceLatch id i) s) s id.toNat fun c => c.latched i = true ∧ c.GatesOff ∧ c.mode = (s.cell id.toNat).mode ∧
      cls ≤ c.rd K.CFLT_SUM_CLASS) ∧
  (∀ (s : State) (id : BitVec 64) (i : Fin 32), (s.cell id.toNat).mode ≠ Mode.reset → (s.cell id.toNat).rd (K.CFLT_CLASS_CLASS (i / 8) (i % 8)) = 5 →
    (s.cell id.toNat).on (K.CFLT_CLASS_BYP (i / 8) (i % 8)) = false → (s.cell id.toNat).bit K.CTRG_MASK_MASK i = false →
    CellBecomes (exec (.cellSourceLatch id i) s) s id.toNat fun c => c.latched i = true ∧ c.mode = Mode.locked ∧ c.on K.CFLT_SUM_LOCK_LATCH = true ∧ c.GatesOff) ∧
  (∀ (s : State) (id : BitVec 64) (i : Fin 32), (s.cell id.toNat).latched i = true → mapGet (fun _ => 0) (s.cell id.toNat).cls i.val ≠ 5 → cellLevelSource i = false →
    CellBecomes (exec (.cfltStatClear id (BitVec.ofNat 32 (2 ^ i.val))) s) s id.toNat fun c => c.latched i = false ∧
      c.on K.CFLT_SUM_CLEAR_REFUSED = (s.cell id.toNat).on K.CFLT_SUM_CLEAR_REFUSED ∧ c.mode = (s.cell id.toNat).mode) ∧
  (∀ (s : State) (id : BitVec 64) (i : Fin 32), (s.cell id.toNat).latched i = true → mapGet (fun _ => 0) (s.cell id.toNat).cls i.val = 5 →
    CellBecomes (exec (.cfltStatClear id (BitVec.ofNat 32 (2 ^ i.val))) s) s id.toNat fun c => c.latched i = true ∧ c.on K.CFLT_SUM_CLEAR_REFUSED = true) ∧
  (∀ (s : State) (id : BitVec 64), 0 ≤ s.now →
    CellBecomes (exec (.cfltRearm id) s) s id.toNat fun c => c.on K.CFLT_FIRST_VALID = false ∧ c.armed = true ∧ c.mode = (s.cell id.toNat).mode ∧ c.cls = (s.cell id.toNat).cls) ∧
  (∀ (s : State) (id : BitVec 64) (i : Fin 32), cellLevelSource i = true →
    CellBecomes (exec (.cellLiveCauseAbsent id i) s) s id.toNat fun c => c.bit K.CFLT_LIVE_LIVE i = false ∧ c.latched i = (s.cell id.toNat).latched i ∧
      c.cls = (s.cell id.toNat).cls ∧ c.mode = (s.cell id.toNat).mode)

/-- R411, R412, R414, R418, R419. -/
def Obligations.LockLatchesStand : Prop :=
  (∀ (s t : State) (es : List Raise) (i : Nat), i < 128 → exec (.faultSourceRaise es) s = .next t →
    s.lclass i ≤ t.lclass i ∧ (s.latched i = true → t.latched i = true)) ∧
  (∀ (s t : State) (es : List Raise) (r : Raise), r ∈ es → reservedSource r.src = false → 1 ≤ s.rd (R.FLT_SRC_CFG_BASE r.src) →
    exec (.faultSourceRaise es) s = .next t → t.latched r.src = true ∧ s.rd (R.FLT_SRC_CFG_BASE r.src) ≤ t.lclass r.src) ∧
  (∀ (s t : State) (i : Nat) (w : Fin 4) (mask : BitVec 32), i < 128 → s.latched i = true → s.lclass i = 5 →
    exec (.fltStatClear w mask) s = .next t → t.latched i = true ∧ t.lclass i = 5) ∧
  (∀ (s t : State) (i : Nat) (key : BitVec 16), i < 128 → s.latched i = true → s.lclass i = 5 →
    exec (.fltClrAll key) s = .next t → t.latched i = true ∧ t.lclass i = 5) ∧
  (∀ (s t : State) (i : Nat) (via : Via) (key : BitVec 16), i < 128 → s.latched i = true → s.lclass i = 5 →
    exec (.restart via key) s = .next t → t.latched i = true ∧ t.lclass i = 5) ∧
  (∀ (s t : State) (i : Nat), i < 128 → s.latched i = true → s.lclass i = 5 →
    exec .sysRstNLow s = .next t → t.latched i = true ∧ t.lclass i = 5 ∧ t.on R.FLT_SUMMARY_LOCK_LATCH = s.on R.FLT_SUMMARY_LOCK_LATCH)

/-! ### Disturbance capture (16) -/

/-- R435, R436, R438, R440 to R444, R447, R451, R452. -/
def Obligations.CaptureArmsFiresAndCloses : Prop :=
  (∀ s : State, s.st ≠ St.reset → s.st ≠ St.selfTest → s.role = Role.solo → s.on R.ACD_STATUS_FORMED = false → s.on R.ACD_CFG_EN = false →
    s.armCode true = 0 →
    Reaches (exec .acqArm s) fun t => t.aqs = Aq.fill ∧ t.rd R.ACQ_STATUS_SEQ_ST = 0 ∧ t.rd R.ACQ_STATUS_ARM_ERR = 0 ∧ t.on R.ACQ_STATUS_MODE = false ∧
      t.rd R.ACQ_LAYOUT_ROW_B = s.rowBytes % 2 ^ 16 ∧ t.rd R.ACQ_RINGROWS_N_RING = s.rd R.ACQ_RING_SIZE * 2 ^ 20 / s.rowBytes % 2 ^ 32 ∧
      t.acq.fill = 0 ∧ t.acq.total = 0 ∧ t.acq.cells = s.recorded ∧ t.st = s.st) ∧
  (∀ s : State, s.st ≠ St.reset → s.st ≠ St.selfTest → s.role = Role.solo → s.aqs ≠ Aq.idle → s.aqs ≠ Aq.done →
    exec .acqArm s = .next (s.wr R.ACQ_STATUS_ARM_ERR 1)) ∧
  (∀ s : State, s.st ≠ St.reset → s.st ≠ St.selfTest → s.role = Role.solo → s.on R.ACD_STATUS_FORMED = false → (s.aqs = Aq.idle ∨ s.aqs = Aq.done) →
    s.rd R.ACQ_RING_SIZE * 2 ^ 20 / s.rowBytes < s.rd R.ACQ_PRE_PRE + 1 →
    exec .acqArm s = .next (s.wr R.ACQ_STATUS_ARM_ERR 2)) ∧
  (∀ s : State, s.st ≠ St.reset → s.st ≠ St.selfTest → s.role = Role.solo → s.on R.ACD_CFG_EN = false → s.acq.rec' = none → s.aqs ≠ Aq.idle →
    Reaches (exec .acqDisarm s) fun t => t.aqs = Aq.idle ∧ t.acq.force = false ∧ t.on R.ACQ_STATUS_TRUNC = s.on R.ACQ_STATUS_TRUNC ∧ t.mem = s.mem) ∧
  (∀ (s : State) (r : RecA), s.st ≠ St.reset → s.st ≠ St.selfTest → s.role = Role.solo → s.on R.ACD_CFG_EN = false → s.acq.rec' = some r → s.aqs = Aq.post →
    Reaches (exec .acqDisarm s) fun t => t.aqs = Aq.idle ∧ t.acq.rec' = none ∧ t.on R.ACQ_STATUS_TRUNC = true ∧
      t.rd R.ACQ_REC_SEQ_SEQ = (s.rd R.ACQ_REC_SEQ_SEQ + 1) % 2 ^ 32) ∧
  (∀ s : State, s.st ≠ St.reset → s.st ≠ St.selfTest → s.role = Role.solo → s.on R.ACD_CFG_EN = false → s.acq.rec'.isSome = true → s.aqs = Aq.close →
    Reaches (exec .acqDisarm s) fun t => t.aqs = Aq.close ∧ t.acq.disarm = true ∧ t.acq.rec' = s.acq.rec' ∧ t.regs = s.regs) ∧
  (∀ s : State, s.st ≠ St.reset → s.st ≠ St.selfTest → s.role = Role.solo → s.acqRuns = true →
    Reaches (exec .acqForce s) fun t => t.acq.force = true ∧ t.acq.marks = s.acq.marks ∧ t.regs = s.regs) ∧
  (∀ s : State, s.st ≠ St.reset → s.st ≠ St.selfTest → s.role = Role.solo → s.acqRuns = false → s.acq.marks.length < 16 →
    Reaches (exec .acqForce s) fun t => t.acq.force = s.acq.force ∧ t.acq.marks = s.acq.marks ++ [⟨s.sys.period % 2 ^ 32, 16, 4⟩] ∧
      t.rd R.ACQ_MARK_INFO_DEPTH = s.acq.marks.length + 1 ∧ t.on R.ACQ_MARK_INFO_VALID = true ∧ t.aqs = s.aqs) ∧
  (∀ s : State, s.st ≠ St.reset → s.st ≠ St.selfTest → s.role = Role.solo →
    Reaches (exec .acqClr s) fun t => t.rd R.ACQ_CNT_A_EARLY_TRIG = 0 ∧ t.rd R.ACQ_CNT_A_MISSED_TRIG = 0 ∧ t.rd R.ACQ_CNT_B_IN_REC = 0 ∧
      t.rd R.ACQ_CNT_B_RECORDS = 0 ∧ t.rd R.ACQ_DEAD_MAX_MAX = 0 ∧ t.acq = s.acq ∧ t.aqs = s.aqs) ∧
  (∀ (s : State) (m : MarkA) (ms : List MarkA), s.st ≠ St.reset → s.st ≠ St.selfTest → s.role = Role.solo → s.acq.marks = m :: ms → ms.length < 16 →
    Reaches (exec .acqMarkNext s) fun t => t.acq.marks = ms ∧ t.rd R.ACQ_MARK_INFO_DEPTH = ms.length ∧ t.on R.ACQ_MARK_INFO_VALID = !ms.isEmpty ∧
      t.rd R.ACQ_MARK_P_PERIOD = (ms.headD ⟨0, 0, 0⟩).period % 2 ^ 32 ∧ t.aqs = s.aqs) ∧
  (∀ s : State, s.inputsRun = true → s.st ≠ St.locked → s.aqs = Aq.fill → s.acq.fill < s.rd R.ACQ_PRE_PRE → s.acq.armAt = none → s.acq.reqs = [] →
    s.acq.force = false → s.acq.rec' = none → s.rd (R.SQ_CFG_COND (s.rd R.ACQ_STATUS_SEQ_ST)) = 0 → s.acq.cnt < s.rd (R.SQ_CFG_CNT_N (s.rd R.ACQ_STATUS_SEQ_ST)) →
    s.rd (R.SQ_TIM_TMO (s.rd R.ACQ_STATUS_SEQ_ST)) = 0 → 16 ≤ s.rd R.ACQ_LAYOUT_ROW_B →
    Reaches (exec .acqEvaluation s) fun t => t.aqs = Aq.fill ∧ t.acq.fill = s.acq.fill + 1 ∧ t.acq.total = s.acq.total + 1 ∧ t.acq.tmr = s.acq.tmr + 1 ∧
      t.loadBytes (s.rowAddr s.acq.total) 8 = bytesLE 8 s.sys.period ∧ t.acq.marks = s.acq.marks) ∧
  (∀ s : State, s.inputsRun = true → s.st ≠ St.locked → s.aqs = Aq.fill → s.rd R.ACQ_PRE_PRE ≤ s.acq.fill → s.acq.armAt = none → s.acq.reqs = [] →
    s.acq.force = false → s.acq.rec' = none → s.rd (R.SQ_CFG_COND (s.rd R.ACQ_STATUS_SEQ_ST)) = 0 → s.acq.cnt < s.rd (R.SQ_CFG_CNT_N (s.rd R.ACQ_STATUS_SEQ_ST)) →
    Reaches (exec .acqEvaluation s) fun t => t.aqs = Aq.ready ∧ t.acq.total = s.acq.total + 1) ∧
  (∀ s : State, s.inputsRun = true → s.st ≠ St.locked → s.on R.ACD_CFG_EN = false → s.aqs = Aq.ready → s.acq.armAt = none → s.acq.reqs = [] → s.acq.force = true →
    s.acq.marks.length < 16 → s.rd R.ACQ_PRE_PRE ≤ s.acq.fill → s.acq.fill ≤ s.acq.total → s.rd R.ACQ_PRE_PRE < s.rd R.ACQ_RINGROWS_N_RING → 1 ≤ s.rd R.ACQ_POST_POST →
    s.rd (R.SQ_CFG_COND (s.rd R.ACQ_STATUS_SEQ_ST)) = 0 → s.acq.cnt < s.rd (R.SQ_CFG_CNT_N (s.rd R.ACQ_STATUS_SEQ_ST)) →
    Reaches (exec .acqEvaluation s) fun t => t.aqs = Aq.post ∧ t.acq.force = false ∧ t.acq.marks = s.acq.marks ++ [⟨s.sys.period % 2 ^ 32, 16, 0⟩] ∧
      t.acq.rec'.map (fun r => (r.cause, r.pTrig, r.pre, r.trig)) = some (16, s.sys.period, s.rd R.ACQ_PRE_PRE, s.acq.total) ∧
      t.acq.rec'.map (fun r => (r.last, r.flags, r.slot)) = some (s.acq.total + s.rd R.ACQ_POST_POST, 0, s.acq.slot) ∧ t.acq.total = s.acq.total + 1) ∧
  (∀ s : State, s.inputsRun = true → s.st ≠ St.locked → s.on R.ACD_CFG_EN = false → s.aqs = Aq.fill → s.acq.fill < s.rd R.ACQ_PRE_PRE → s.acq.armAt = none →
    s.acq.reqs = [] → s.acq.force = true → s.acq.rec' = none → s.acq.marks.length < 16 → s.rd (R.SQ_CFG_COND (s.rd R.ACQ_STATUS_SEQ_ST)) = 0 →
    s.acq.cnt < s.rd (R.SQ_CFG_CNT_N (s.rd R.ACQ_STATUS_SEQ_ST)) →
    Reaches (exec .acqEvaluation s) fun t => t.aqs = Aq.fill ∧ t.acq.force = false ∧ t.acq.rec' = none ∧ t.acq.marks = s.acq.marks ++ [⟨s.sys.period % 2 ^ 32, 16, 1⟩] ∧
      t.rd R.ACQ_CNT_A_EARLY_TRIG = Nat.min 65535 (s.rd R.ACQ_CNT_A_EARLY_TRIG + 1)) ∧
  (∀ s : State, s.acqRuns = true → s.on R.ACD_CFG_EN = false → s.rd (R.SQ_CFG_CNT_N (s.rd R.ACQ_STATUS_SEQ_ST)) ≤ s.acq.cnt →
    s.on (R.SQ_CFG_FIRE (s.rd R.ACQ_STATUS_SEQ_ST)) = true →
    Reaches (exec .sequencerMatch s) fun t => t.rd R.ACQ_STATUS_SEQ_ST = s.rd (R.SQ_CFG_NEXT (s.rd R.ACQ_STATUS_SEQ_ST)) ∧ t.acq.cnt = 0 ∧ t.acq.tmr = 0 ∧
      t.acq.reqs = s.acq.reqs ++ [(s.sys.period, 8 + s.rd R.ACQ_STATUS_SEQ_ST)] ∧ t.aqs = s.aqs) ∧
  (∀ s : State, s.acqRuns = true → s.rd (R.SQ_CFG_CNT_N (s.rd R.ACQ_STATUS_SEQ_ST)) ≤ s.acq.cnt → s.on (R.SQ_CFG_FIRE (s.rd R.ACQ_STATUS_SEQ_ST)) = false →
    Reaches (exec .sequencerMatch s) fun t => t.rd R.ACQ_STATUS_SEQ_ST = s.rd (R.SQ_CFG_NEXT (s.rd R.ACQ_STATUS_SEQ_ST)) ∧ t.acq.cnt = 0 ∧ t.acq.tmr = 0 ∧
      t.acq.reqs = s.acq.reqs ∧ t.aqs = s.aqs) ∧
  (∀ s : State, s.acqRuns = true → s.acq.cnt < s.rd (R.SQ_CFG_CNT_N (s.rd R.ACQ_STATUS_SEQ_ST)) → s.rd (R.SQ_TIM_TMO (s.rd R.ACQ_STATUS_SEQ_ST)) ≠ 0 →
    s.rd (R.SQ_TIM_TMO (s.rd R.ACQ_STATUS_SEQ_ST)) ≤ s.acq.tmr →
    Reaches (exec .sequencerTimeout s) fun t => t.rd R.ACQ_STATUS_SEQ_ST = s.rd (R.SQ_CFG_TMO_NEXT (s.rd R.ACQ_STATUS_SEQ_ST)) ∧ t.acq.cnt = 0 ∧ t.acq.tmr = 0 ∧
      t.acq.reqs = s.acq.reqs ∧ t.aqs = s.aqs) ∧
  (∀ (s : State) (r : RecA), s.aqs = Aq.close → s.acq.rec' = some r → s.acq.disarm = false → s.on R.ACQ_STATUS_MODE = false → r.slot < 255 →
    Reaches (exec (.recordClose none) s) fun t => t.aqs = Aq.done ∧ t.acq.rec' = none ∧ t.rd R.ACQ_REC_SEQ_SEQ = (s.rd R.ACQ_REC_SEQ_SEQ + 1) % 2 ^ 32 ∧
      t.rd R.ACQ_CNT_B_RECORDS = Nat.min 65535 (s.rd R.ACQ_CNT_B_RECORDS + 1) ∧ t.rd R.ACQ_TRIG_LO_P_LO = r.pTrig % 2 ^ 32 ∧
      t.rd R.ACQ_STATUS_SLOT = r.slot ∧ t.acq.slot = (r.slot + 1) % Nat.max 1 (s.rd R.ACQ_SLOT_N_SLOT))

/-- R431, R432, R441, R449, R450, R454. -/
def Obligations.AccordCaptureAndCellTrigger : Prop :=
  (∀ (s : State) (k : Fin 4) (f : List Byte) (l : Nat), s.takesAccord k 9 l f = true → Acf.arg f = 1 → s.armCode true = 0 →
    Reaches (exec (.acqFrameArm k f) s) fun t => t.aqs = Aq.fill ∧ t.acq.armAt = some (leAt (Acf.body f) 0 8) ∧ t.acq.fill = 0 ∧ t.rd R.ACQ_STATUS_SEQ_ST = 0) ∧
  (∀ (s : State) (k : Fin 4) (f : List Byte) (l : Nat), s.takesAccord k 9 l f = true → Acf.arg f = 2 → s.upLevel = none → s.acqRuns = true →
    Reaches (exec (.acqFrameReq k f) s) fun t => t.acq.reqs = s.acq.reqs ++ [(leAt (Acf.body f) 0 8, putBit (byteAt (Acf.body f) 12) 5 true)] ∧ t.regs = s.regs) ∧
  (∀ (s : State) (k : Fin 4) (f : List Byte) (l : Nat), s.takesAccord k 9 l f = true → Acf.arg f = 3 → (s.aqs = Aq.fill ∨ s.aqs = Aq.ready) →
    leAt (Acf.body f) 0 8 ≤ s.sys.period → s.sys.period - leAt (Acf.body f) 0 8 + s.rd R.ACQ_PRE_PRE ≤ s.acq.fill → s.acq.fill ≤ s.acq.total → s.acq.total - (s.sys.period - leAt (Acf.body f) 0 8) + s.rd R.ACQ_POST_POST ≥ s.acq.total →
    s.sys.period - leAt (Acf.body f) 0 8 + s.rd R.ACQ_PRE_PRE < s.rd R.ACQ_RINGROWS_N_RING → s.sys.period - leAt (Acf.body f) 0 8 < s.acq.total →
    Reaches (exec (.acqFrameTrig k f) s) fun t => t.aqs = Aq.post ∧ t.acq.rec'.map (fun r => (r.cause, r.pTrig, r.pre, r.flags)) =
      some (putBit (byteAt (Acf.body f) 12) 5 true, leAt (Acf.body f) 0 8, s.rd R.ACQ_PRE_PRE, 0)) ∧
  (∀ (s : State) (k : Fin 4) (f : List Byte) (l : Nat), s.takesAccord k 9 l f = true → Acf.arg f = 3 → (s.aqs = Aq.fill ∨ s.aqs = Aq.ready) →
    s.acq.fill < s.rd R.ACQ_PRE_PRE →
    Reaches (exec (.acqFrameTrig k f) s) fun t => t.acq.rec'.map (fun r => (r.pTrig, r.flags)) = some (leAt (Acf.body f) 0 8, 1)) ∧
  (∀ (s : State) (k : Fin 4) (f : List Byte) (l : Nat), s.takesAccord k 9 l f = true → Acf.arg f = 4 → s.aqs = Aq.close → s.acq.closed = false →
    Reaches (exec (.acqFrameClosed k f) s) fun t => t.acq.closedBy = s.acq.closedBy ++ [8 * l + Acf.sender f] ∧ t.aqs = Aq.close ∧ t.regs = s.regs) ∧
  (∀ (s : State) (k : Fin 4) (f : List Byte) (l : Nat), s.takesAccord k 9 l f = true → Acf.arg f = 5 → s.aqs ≠ Aq.close →
    Reaches (exec (.acqFrameDisarm k f) s) fun t => t.aqs = Aq.idle ∧ t.st = s.st) ∧
  (∀ (s : State) (id : BitVec 64), (s.cell id.toNat).hon K.CTRG_CFG_EN = true → (s.cell id.toNat).on K.CTRG_ST_HOLD = false →
    (s.cell id.toNat).sl.fire = none →
    CellBecomes (exec (.ctrgForce id) s) s id.toNat fun c => c.sl.fire = some ((s.cell id.toNat).clock s.now) ∧ c.rd K.CTRG_ST_CAUSE = 4 ∧
      c.rd K.CTRG_ST_FIRES = Nat.min 65535 ((s.cell id.toNat).rd K.CTRG_ST_FIRES + 1) ∧ c.rd K.CTRG_TIME_TIME = (s.cell id.toNat).clock s.now ∧
      c.on K.CTRG_ST_HOLD = ((s.cell id.toNat).hrd K.CTRG_CFG_HOLDOFF != 0) ∧ c.sl.holdoff = (s.cell id.toNat).hrd K.CTRG_CFG_HOLDOFF ∧
      c.mode = (s.cell id.toNat).mode ∧ c.pw = (s.cell id.toNat).pw) ∧
  (∀ (s : State) (id : BitVec 64), (s.cell id.toNat).hon K.CTRG_CFG_EN = true → (s.cell id.toNat).on K.CTRG_ST_HOLD = true →
    CellBecomes (exec (.ctrgForce id) s) s id.toNat fun c => c.rd K.CTRG_ST_IGNORED = Nat.min 255 ((s.cell id.toNat).rd K.CTRG_ST_IGNORED + 1) ∧
      c.sl = (s.cell id.toNat).sl ∧ c.rd K.CTRG_ST_FIRES = (s.cell id.toNat).rd K.CTRG_ST_FIRES) ∧
  (∀ (s : State) (id : BitVec 64), (s.cell id.toNat).sl.holdoff = 0 →
    CellBecomes (exec (.ctrgHoldoffEnd id) s) s id.toNat fun c => c.on K.CTRG_ST_HOLD = false ∧ c.sl = (s.cell id.toNat).sl ∧ c.mode = (s.cell id.toNat).mode)

/-! ### Processors, scheduling and counters (17) -/

/-- R459, R461 to R467, R469. -/
def Obligations.SchedulerPushesAndTakes : Prop :=
  (∀ (s : State) (m : Fin 19) (q : Fin 64) (nb : Bool), s.st ≠ St.reset → s.st ≠ St.selfTest → s.rd R.SCH_LS_STOPPED = 63 → s.sch.stalls = [] → s.sch.waiting = [] →
    (s.queue q).length < s.rd (R.Q_CFG_DEPTH q) → s.bit (R.Q_OWN_OWN q) (s.pushPart m) = true →
    Reaches (exec (.schPush m q nb) s) fun t => mapGet (fun _ => (0, 0)) t.sch.pushSt m.val = (0, q.val) ∧ t.sch.stalls = [] ∧
      t.queue q = s.queue q ++ [{ words := mapGet (fun _ => List.replicate 8 0) s.sch.staged m.val, pushed := s.now }] ∧ t.sch.staged = s.sch.staged) ∧
  (∀ (s : State) (m : Fin 19) (q : Fin 64) (nb : Bool), s.st ≠ St.reset → s.st ≠ St.selfTest → s.sch.queues = [] → s.sch.slots = [] → s.sch.stalls = [] → s.sch.waiting = [] →
    s.stopped 0 = false → s.serves 0 q = true → 1 ≤ s.rd (R.H_CFG_PREF_N 0) → 1 ≤ s.rd (R.Q_CFG_DEPTH q) → s.bit (R.Q_OWN_OWN q) (s.pushPart m) = true →
    Reaches (exec (.schPush m q nb) s) fun t => t.queue q = [] ∧
      t.slots 0 = [{ slot := 0, queue := q.val, item := { words := mapGet (fun _ => List.replicate 8 0) s.sch.staged m.val, pushed := s.now } }]) ∧
  (∀ (s : State) (m : Fin 19) (q : Fin 64), s.st ≠ St.reset → s.st ≠ St.selfTest → s.rd R.SCH_LS_STOPPED = 63 → s.sch.stalls = [] → s.sch.waiting = [] →
    1 ≤ s.rd (R.Q_CFG_DEPTH q) → s.rd (R.Q_CFG_DEPTH q) ≤ (s.queue q).length → s.bit (R.Q_OWN_OWN q) (s.pushPart m) = true →
    Reaches (exec (.schPush m q true) s) fun t => mapGet (fun _ => (0, 0)) t.sch.pushSt m.val = (1, q.val) ∧ t.sch.queues = s.sch.queues ∧ t.sch.stalls = []) ∧
  (∀ (s : State) (m : Fin 19) (q : Fin 64), s.st ≠ St.reset → s.st ≠ St.selfTest → s.rd R.SCH_LS_STOPPED = 63 → s.sch.stalls = [] → s.sch.waiting = [] →
    1 ≤ s.rd (R.Q_CFG_DEPTH q) → s.rd (R.Q_CFG_DEPTH q) ≤ (s.queue q).length → s.bit (R.Q_OWN_OWN q) (s.pushPart m) = true →
    Reaches (exec (.schPush m q false) s) fun t => t.sch.stalls = [⟨m.val, q.val, mapGet (fun _ => List.replicate 8 0) s.sch.staged m.val⟩] ∧
      t.sch.queues = s.sch.queues ∧ t.sch.pushSt = s.sch.pushSt) ∧
  (∀ (s : State) (m : Fin 19) (q : Fin 64) (nb : Bool), s.st ≠ St.reset → s.st ≠ St.selfTest → s.rd R.SCH_LS_STOPPED = 63 → s.sch.stalls = [] → s.sch.waiting = [] →
    s.rd (R.Q_CFG_DEPTH q) = 0 →
    Reaches (exec (.schPush m q nb) s) fun t => mapGet (fun _ => (0, 0)) t.sch.pushSt m.val = (4, q.val) ∧ t.sch.queues = s.sch.queues) ∧
  (∀ (s : State) (m : Fin 19) (q : Fin 64) (nb : Bool), s.st ≠ St.reset → s.st ≠ St.selfTest → s.rd R.SCH_LS_STOPPED = 63 → s.sch.stalls = [] → s.sch.waiting = [] →
    1 ≤ s.rd (R.Q_CFG_DEPTH q) → s.bit (R.Q_OWN_OWN q) (s.pushPart m) = false → 1 ≤ s.rd (R.FLT_SRC_CFG_BASE 28) → s.rd (R.FLT_SRC_CFG_BASE 28) ≤ 2 →
    s.rd (R.FLT_SRC_CFG_ESC_N 28) = 0 →
    Reaches (exec (.schPush m q nb) s) fun t => mapGet (fun _ => (0, 0)) t.sch.pushSt m.val = (3, q.val) ∧ t.sch.queues = s.sch.queues ∧ t.latched 28 = true) ∧
  (∀ (s : State) (m : Fin 19) (q : Nat) (words : List Nat), s.rd R.SCH_LS_STOPPED = 63 → s.sch.stalls = [⟨m.val, q, words⟩] → s.sch.waiting = [] → q < 64 →
    (s.queue q).length < s.rd (R.Q_CFG_DEPTH q) →
    Reaches (exec (.pushStallComplete m) s) fun t => t.sch.stalls = [] ∧ mapGet (fun _ => (0, 0)) t.sch.pushSt m.val = (0, q) ∧
      t.queue q = s.queue q ++ [{ words := words, pushed := s.now }]) ∧
  (∀ (s : State) (m : Fin 19) (q : Nat) (words : List Nat), s.rd R.SCH_LS_STOPPED = 63 → s.sch.stalls = [⟨m.val, q, words⟩] → s.sch.waiting = [] → q < 64 →
    1 ≤ s.rd (R.FLT_SRC_CFG_BASE 29) → s.rd (R.FLT_SRC_CFG_BASE 29) ≤ 2 → s.rd (R.FLT_SRC_CFG_ESC_N 29) = 0 →
    Reaches (exec (.pushBackpressureTimeout m) s) fun t => t.sch.stalls = [] ∧ mapGet (fun _ => (0, 0)) t.sch.pushSt m.val = (2, q) ∧ t.sch.queues = s.sch.queues ∧
      t.rd (R.Q_CNT_DROP q) = Nat.min 65535 (s.rd (R.Q_CNT_DROP q) + 1) ∧ t.latched 29 = true) ∧
  (∀ (s : State) (q : Fin 64), s.st ≠ St.reset → s.st ≠ St.selfTest → s.rd R.SCH_LS_STOPPED = 63 → s.sch.stalls = [] → s.sch.waiting = [] →
    s.on (R.Q_CFG_TICK q) = true → (s.queue q).length < s.rd (R.Q_CFG_DEPTH q) →
    Reaches (exec (.queueTick q) s) fun t => t.sch.pushSt = s.sch.pushSt ∧
      t.queue q = s.queue q ++ [{ words := [s.sys.period % 2 ^ 32, s.sys.period / 2 ^ 32 % 2 ^ 32, q.val, 0, 0, 0, 0, 0], pushed := s.now }]) ∧
  (∀ (s : State) (q : Fin 64), s.st ≠ St.reset → s.st ≠ St.selfTest → s.rd R.SCH_LS_STOPPED = 63 → s.sch.stalls = [] → s.sch.waiting = [] →
    s.on (R.Q_CFG_TICK q) = true → 1 ≤ s.rd (R.Q_CFG_DEPTH q) → s.rd (R.Q_CFG_DEPTH q) ≤ (s.queue q).length → 1 ≤ s.rd (R.FLT_SRC_CFG_BASE 29) →
    s.rd (R.FLT_SRC_CFG_BASE 29) ≤ 2 → s.rd (R.FLT_SRC_CFG_ESC_N 29) = 0 →
    Reaches (exec (.queueTick q) s) fun t => t.sch.queues = s.sch.queues ∧ t.rd (R.Q_CNT_DROP q) = Nat.min 65535 (s.rd (R.Q_CNT_DROP q) + 1) ∧ t.latched 29 = true) ∧
  (∀ (s : State) (h : Fin 6) (x : SlotI) (rest : List SlotI), s.st ≠ St.reset → s.st ≠ St.selfTest → s.stopped h = false → s.sch.queues = [] → s.sch.stalls = [] →
    s.sch.waiting = [] → s.slots h = x :: rest → s.on R.TRC_CFG_EN = false →
    Reaches (exec (.schGet h) s) fun t => t.slots h = rest ∧ mapGet (fun _ => []) t.sch.item h.val = x.item.words ∧ t.sent = .reply (getWord true x.slot x.queue) 0 :: s.sent ∧
      t.rd (R.H_HIST_COUNT h (waitBin (s.now - x.item.pushed))) = Nat.min (2 ^ 32 - 1) (s.rd (R.H_HIST_COUNT h (waitBin (s.now - x.item.pushed))) + 1)) ∧
  (∀ (s : State) (h : Fin 6), s.st ≠ St.reset → s.st ≠ St.selfTest → s.stopped h = false → s.slots h = [] →
    exec (.schGet h) s = .next (s.send (.reply 0 0))) ∧
  (∀ (s : State) (h : Fin 6), s.st ≠ St.reset → s.st ≠ St.selfTest → s.stopped h = false → s.sch.waiting = [] → s.slots h = [] →
    exec (.schGetWait h) s = .next { s with sch := { s.sch with waiting := [h.val] } }) ∧
  (∀ (s : State) (h : Fin 6) (x : SlotI) (rest : List SlotI), s.st ≠ St.reset → s.st ≠ St.selfTest → s.stopped h = false → s.sch.waiting = [] → s.slots h = x :: rest →
    exec (.schGetWait h) s = exec (.schGet h) s) ∧
  (∀ (s : State) (h : Fin 6) (x : SlotI) (rest : List SlotI), s.stopped h = false → s.sch.queues = [] → s.sch.stalls = [] → s.sch.waiting = [h.val] →
    s.slots h = x :: rest →
    Reaches (exec (.getWaitResume h) s) fun t => t.sch.waiting = [] ∧ t.slots h = rest ∧ mapGet (fun _ => []) t.sch.item h.val = x.item.words ∧
      t.sent = .reply (getWord true x.slot x.queue) 0 :: s.sent) ∧
  (∀ (s : State) (h : Fin 6), h.val ∈ s.sch.waiting →
    Reaches (exec (.getWaitTimeout h) s) fun t => h.val ∉ t.sch.waiting ∧ t.sent = .reply 0 0 :: s.sent ∧ t.sch.slots = s.sch.slots ∧ t.regs = s.regs) ∧
  (∀ (s : State) (h : Fin 6) (part : Fin 9), s.st ≠ St.reset → s.st ≠ St.selfTest → s.sch.queues = [] → s.sch.stalls = [] → s.sch.waiting = [] →
    s.rd (R.H_CFG_PART h) ≠ part.val → (∀ x ∈ s.slots h, s.bit (R.Q_OWN_OWN x.queue) part.val = false) → (∀ g, g < 6 → s.stopped g = decide (g ≠ h.val)) →
    (∀ q, q < 64 → s.bit (R.Q_OWN_OWN q) part.val = false) → (s.slots h).length ≤ 2 → s.on R.TRC_CFG_EN = false →
    Reaches (exec (.partWrite h part) s) fun t => t.rd (R.H_CFG_PART h) = part.val ∧ t.slots h = [] ∧
      t.rd (R.H_CNT_RETURNED h) = Nat.min 65535 (s.rd (R.H_CNT_RETURNED h) + (s.slots h).length) ∧ (∀ x ∈ s.slots h, x.item ∈ t.queue x.queue)) ∧
  (∀ (s : State) (q : Fin 64) (depth : BitVec 11), s.writable = true → s.rd R.SCH_LS_STOPPED = 63 → s.sch.stalls = [] → s.sch.waiting = [] →
    depth.toNat ≤ 1024 → depth.toNat ≠ s.rd (R.Q_CFG_DEPTH q) → s.allotted - s.rd (R.Q_CFG_DEPTH q) + depth.toNat ≤ 4096 →
    Reaches (exec (.queueDepthWrite q depth) s) fun t => t.rd (R.Q_CFG_DEPTH q) = depth.toNat ∧ t.queue q = [] ∧
      t.rd (R.Q_CNT_DISCARD q) = Nat.min 65535 (s.rd (R.Q_CNT_DISCARD q) + (s.queue q).length) ∧ t.rd R.SCH_STATUS_USED = t.allotted) ∧
  (∀ (s : State) (q : Fin 64) (depth : BitVec 11), s.writable = true → depth.toNat ≤ 1024 → depth.toNat ≠ s.rd (R.Q_CFG_DEPTH q) →
    4096 < s.allotted - s.rd (R.Q_CFG_DEPTH q) + depth.toNat →
    exec (.queueDepthWrite q depth) s = .next (s.put R.SCH_STATUS_ALLOT_ERR true))

/-- R456, R457, R460, R469, R472 to R476. -/
def Obligations.PairsPartitionsAndCounters : Prop :=
  (∀ (s : State) (h : Fin 6), s.stopped h = false → 1 ≤ s.rd (R.FLT_SRC_CFG_BASE h) →
    Reaches (exec (.lockstepMismatch h) s) fun t => t.stopped h = true ∧ t.slots h = [] ∧ h.val ∉ t.sch.waiting ∧ t.latched h = true ∧
      t.rd (R.H_CNT_LOST h) = Nat.min 65535 (s.rd (R.H_CNT_LOST h) + (s.slots h).length)) ∧
  (∀ (s : State) (mask missed : BitVec 6), s.st ≠ St.reset → s.st ≠ St.selfTest → s.rd R.SCH_LS_STOPPED = 0 → s.sch.injAt = [] → missed.toNat = 0 →
    Reaches (exec (.lockstepInject mask 0x5A5A missed) s) fun t => t.rd R.SCH_LS_STAT_INJ_FAIL = s.rd R.SCH_LS_STAT_INJ_FAIL ∧
      t.rd R.SCH_LS_STAT_INJ_PASS = Nat.min 65535 (s.rd R.SCH_LS_STAT_INJ_PASS + sumOf ((upto 6).map fun h => (bitOf mask.toNat h).toNat)) ∧
      t.rd R.SCH_LS_STOPPED = 0 ∧ t.st = s.st) ∧
  (∀ (s : State) (mask missed : BitVec 6), s.st ≠ St.reset → s.st ≠ St.selfTest → s.rd R.SCH_LS_STOPPED = 0 → s.sch.injAt = [] → mask.toNat = 4 → missed.toNat = 4 →
    1 ≤ s.rd (R.FLT_SRC_CFG_BASE 2) → s.rd (R.FLT_SRC_CFG_BASE 2) ≤ 2 → s.rd (R.FLT_SRC_CFG_ESC_N 2) = 0 →
    Reaches (exec (.lockstepInject mask 0x5A5A missed) s) fun t => t.bit R.SCH_LS_STAT_INJ_FAIL 2 = true ∧ t.latched 2 = true ∧
      t.rd R.SCH_LS_STAT_INJ_PASS = s.rd R.SCH_LS_STAT_INJ_PASS ∧ t.stopped 2 = false) ∧
  (∀ (s : State) (mask missed : BitVec 6) (key : BitVec 16), key ≠ 0x5A5A →
    exec (.lockstepInject mask key missed) s = .next s) ∧
  (∀ (s : State) (h : Fin 6), s.stopped h = false → s.rd (R.H_CFG_PART h) ≠ 0 → 1 ≤ s.rd (R.FLT_SRC_CFG_BASE 28) → s.rd (R.FLT_SRC_CFG_BASE 28) ≤ 2 →
    s.rd (R.FLT_SRC_CFG_ESC_N 28) = 0 →
    Reaches (exec (.partitionFault h) s) fun t => t.latched 28 = true ∧ t.rd (R.FLT_SRC_ST_EVT_CNT 28) = Nat.min 65535 (s.rd (R.FLT_SRC_ST_EVT_CNT 28) + 1) ∧ t.sch = s.sch) ∧
  (∀ (s : State) (h : Fin 6) (p : Nat), s.stopped h = false → s.rd (R.H_CFG_PART h) = p → p ≠ 0 → s.rd (R.P_BUDGET_BUDGET p) ≠ 0 →
    1 ≤ s.rd (R.FLT_SRC_CFG_BASE 28) → s.rd (R.FLT_SRC_CFG_BASE 28) ≤ 2 → s.rd (R.FLT_SRC_CFG_ESC_N 28) = 0 →
    Reaches (exec (.partitionBudgetExhausted h) s) fun t => p ∈ t.sch.suspended ∧ t.latched 28 = true ∧ Emission.irq h.val 18 ∈ t.sent) ∧
  (∀ (s : State) (h : Fin 6) (busy cycles : BitVec 48), busy.toNat < cycles.toNat →
    Reaches (exec (.hartLoadUpdate h busy cycles) s) fun t => t.rd (R.H_LOAD_LOAD h) = busy.toNat * 65536 / cycles.toNat ∧
      t.rd (R.H_LOAD_LOAD_WIN h) = s.rd (R.H_LOAD_LOAD_WIN h) ∧ t.sch = s.sch) ∧
  (∀ s : State, s.st ≠ St.reset → s.st ≠ St.selfTest →
    Reaches (exec .schClr s) fun t => (∀ q, q < 64 → t.rd (R.Q_CNT_DROP q) = 0 ∧ t.rd (R.Q_CNT_DISCARD q) = 0 ∧ t.rd (R.Q_STAT_PEAK q) = 0) ∧
      (∀ h, h < 6 → ∀ b, b < 16 → t.rd (R.H_HIST_COUNT h b) = 0 ∧ t.rd (R.H_CNT_LOST h) = 0 ∧ t.rd (R.H_CNT_RETURNED h) = 0 ∧ t.rd (R.H_STAT_PEAK_ELIG h) = 0) ∧
      t.rd R.TRC_STAT_LOST = 0 ∧ t.on R.TRC_STAT_FULL = false ∧ t.sch = s.sch) ∧
  (∀ (s : State) (h : Fin 6) (n : Fin 12), s.on R.PMC_CTRL_FREEZE = false →
    Reaches (exec (.counterWrap h n) s) fun t => t.counter h n = 0 ∧ t.bit (R.PMC_WRAP_WRAP h) n = true ∧
      t.sent = (if s.bit (R.PMC_WRAP_WRAP_IE h) n then [Emission.irq h.val 17] else []) ++ s.sent) ∧
  (∀ (s : State) (m : Fin 19) (h : Fin 6) (n : Fin 12) (lo hi : BitVec 32), s.st ≠ St.reset → s.st ≠ St.selfTest →
    Reaches (exec (.counterWrite m h n false lo) s) fun u => u.counter h n = s.counter h n ∧
      Reaches (exec (.counterWrite m h n true hi) u) fun t => t.counter h n = lo.toNat + 2 ^ 32 * (hi.toNat % 65536)) ∧
  (∀ (s : State) (freeze : Bool), s.st ≠ St.reset → s.st ≠ St.selfTest →
    exec (.pmcFreeze freeze []) s = .next (s.put R.PMC_CTRL_FREEZE freeze)) ∧
  (∀ (s : State) (advance : List (BitVec 48)), s.st ≠ St.reset → s.st ≠ St.selfTest → s.on R.PMC_CTRL_FREEZE = true → s.on R.PMC_SNAP_ST_BUSY = false →
    Reaches (exec (.snapshotGo advance) s) fun t => t.on R.PMC_SNAP_ST_BUSY = true ∧ t.sch.snapAt = s.now ∧
      (∀ h, h < 6 → ∀ n, n < 12 → t.rd (R.PMC_SCNT_LO_LO h n) + 2 ^ 32 * t.rd (R.PMC_SCNT_HI_HI h n) = s.counter h n) ∧
      (∀ h, h < 6 → t.rd (R.PMC_SWRAP_SWRAP h) = s.rd (R.PMC_WRAP_WRAP h)) ∧ t.rd R.PMC_SNAP_ST_SNAP_SEQ = s.rd R.PMC_SNAP_ST_SNAP_SEQ) ∧
  (∀ (s : State) (advance : List (BitVec 48)), s.st ≠ St.reset → s.st ≠ St.selfTest → s.on R.PMC_SNAP_ST_BUSY = true →
    exec (.snapshotGo advance) s = .next (s.put R.PMC_SNAP_ST_REFUSED true)) ∧
  (∀ (s : State) (advance : List (BitVec 48)), s.rd R.PMC_CTRL_SNAP_MODE = 2 → s.on R.PMC_SNAP_ST_BUSY = false →
    Reaches (exec (.snapshotTimed advance) s) fun t => t.on R.PMC_SNAP_ST_BUSY = true ∧ t.sch.snapAt = s.now ∧
      (∀ h, h < 6 → ∀ n, n < 12 → t.rd (R.PMC_SCNT_LO_LO h n) + 2 ^ 32 * t.rd (R.PMC_SCNT_HI_HI h n) = t.counter h n)) ∧
  (∀ s : State, s.on R.PMC_SNAP_ST_BUSY = true →
    Reaches (exec .snapshotComplete s) fun t => t.on R.PMC_SNAP_ST_BUSY = false ∧ t.rd R.PMC_SNAP_ST_SNAP_SEQ = (s.rd R.PMC_SNAP_ST_SNAP_SEQ + 1) % 65536 ∧
      t.rd R.PMC_SNAP_NS_NS = s.sch.snapAt % 1000000000 ∧ t.rd R.PMC_SNAP_SECLO_SEC_LO = s.sch.snapAt / 1000000000 % 2 ^ 32 ∧
      t.rd R.PMC_SNAP_SECHI_SEC_HI = s.sch.snapAt / 1000000000 / 2 ^ 32 % 65536)

/-! ### Memory and fuses (18) -/

/-- R479, R481 to R486, R488, R489. -/
def Obligations.MemoryErrorsPowerAndTests : Prop :=
  (∀ (s : State) (access : Fin 6) (m : Fin 19) (addr : BitVec 32), 1 ≤ s.rd (R.FLT_SRC_CFG_BASE 14) → s.rd (R.FLT_SRC_CFG_BASE 14) ≤ 2 → s.rd (R.FLT_SRC_CFG_ESC_N 14) = 0 →
    Reaches (exec (.sramEccError access m addr true) s) fun t => t.rd R.MEM_ECC_CE = Nat.min 65535 (s.rd R.MEM_ECC_CE + 1) ∧ t.rd R.MEM_CE_ADDR_ADDR = addr.toNat ∧
      t.rd R.MEM_ECC_UE = s.rd R.MEM_ECC_UE ∧ t.latched 14 = true ∧ t.mem = s.mem) ∧
  (∀ (s : State) (access : Fin 6) (m : Fin 19) (addr : BitVec 32), 1 ≤ s.rd (R.FLT_SRC_CFG_BASE 15) → s.rd (R.FLT_SRC_CFG_BASE 15) ≤ 2 → s.rd (R.FLT_SRC_CFG_ESC_N 15) = 0 →
    access.val ≠ 4 →
    Reaches (exec (.sramEccError access m addr false) s) fun t => t.rd R.MEM_ECC_UE = Nat.min 65535 (s.rd R.MEM_ECC_UE + 1) ∧ t.rd R.MEM_UE_ADDR_ADDR = addr.toNat ∧
      t.rd R.MEM_ECC_CE = s.rd R.MEM_ECC_CE ∧ t.latched 15 = true ∧ Emission.busError addr.toNat ∈ t.sent ∧ t.mem = s.mem) ∧
  (∀ (s : State) (m : Fin 19) (addr : BitVec 32), 1 ≤ s.rd (R.FLT_SRC_CFG_BASE 22) → s.rd (R.FLT_SRC_CFG_BASE 22) ≤ 2 → s.rd (R.FLT_SRC_CFG_ESC_N 22) = 0 →
    Reaches (exec (.protectedWrite m addr) s) fun t => t.latched 22 = true ∧ Emission.busError addr.toNat ∈ t.sent ∧ t.mem = s.mem) ∧
  (∀ (s : State) (v : BitVec 32) (w : Fin 4), s.st ≠ St.reset → s.st ≠ St.selfTest → w.val = 1 → s.repRegion = none → s.traceRegion = none → s.acqRuns = false →
    (∀ j, j < 8 → bitsOf v.toNat (2 * j) 2 ≠ 3) →
    Reaches (exec (.memPwrWrite w v) s) fun t => (∀ j, j < 8 → t.rd (R.MEM_PWR_REQ w j) = bitsOf v.toNat (2 * j) 2) ∧ t.mem = s.mem ∧
      t.on R.MEM_STATUS_PWR_REF = s.on R.MEM_STATUS_PWR_REF) ∧
  (∀ (s : State) (v : BitVec 32) (w : Fin 4), s.st ≠ St.reset → s.st ≠ St.selfTest → w.val = 0 → s.bankState 0 = 0 → bitsOf v.toNat 0 2 ≠ 0 →
    (∀ j, j < 8 → bitsOf v.toNat (2 * j) 2 ≠ 3) →
    exec (.memPwrWrite w v) s = .next (s.put R.MEM_STATUS_PWR_REF true)) ∧
  (∀ (s : State) (b : Fin 32), s.bankState b = 0 → s.rd (R.MEM_PWR_REQ (b.val / 8) (b.val % 8)) = 1 →
    Reaches (exec (.bankPowerDone b) s) fun t => t.bankState b = 1 ∧ t.bit R.MEM_STATUS_AVAIL (b.val / 4) = false ∧ t.mem = s.mem) ∧
  (∀ (s : State) (b : Fin 32) (a : Nat), s.bankState b ≠ 2 → s.rd (R.MEM_PWR_REQ (b.val / 8) (b.val % 8)) = 2 → 0x10000000 ≤ a → a < 0x18000000 → bankOf a = b.val →
    Reaches (exec (.bankPowerDone b) s) fun t => t.bankState b = 2 ∧ t.bit R.MEM_STATUS_AVAIL (b.val / 4) = false ∧ t.loadByte a = 0) ∧
  (∀ s : State, s.st ≠ St.reset → s.st ≠ St.selfTest → s.on R.BGT_CFG_EN = true → s.mem.testing = false → s.inService = false → s.rd R.MEM_STATUS_AVAIL = 255 →
    Reaches (exec .bgTestRegion s) fun t => t.mem.testing = true ∧ t.mem.startWaits = false ∧ t.regs = s.regs ∧ t.mem.bytes = s.mem.bytes) ∧
  (∀ s : State, s.on R.BGT_CFG_EN = true → s.mem.testing = false → s.windowsBusy = true →
    Reaches (exec .bgTestRegion s) fun t => t.mem.startWaits = true ∧ t.mem.testing = false ∧ t.rd R.BGT_CNT_DEFER = Nat.min 255 (s.rd R.BGT_CNT_DEFER + 1)) ∧
  (∀ s : State, s.mem.testing = true → s.mem.startWaits = false → s.rd R.BGT_STATUS_REGION < 524287 →
    Reaches (exec (.bgTestRegionDone none none none) s) fun t => t.mem.testing = false ∧ t.rd R.BGT_STATUS_REGION = s.rd R.BGT_STATUS_REGION + 1 ∧
      t.rd R.BGT_PASS_PASSES = s.rd R.BGT_PASS_PASSES ∧ t.mem.bytes = s.mem.bytes) ∧
  (∀ (s : State) (a : BitVec 32), s.mem.testing = true → s.mem.startWaits = false → 1 ≤ s.rd (R.FLT_SRC_CFG_BASE 18) → s.rd (R.FLT_SRC_CFG_BASE 18) ≤ 2 →
    s.rd (R.FLT_SRC_CFG_ESC_N 18) = 0 →
    Reaches (exec (.bgTestRegionDone none none (some a)) s) fun t => t.rd R.BGT_FAIL_ADDR = a.toNat ∧ t.latched 18 = true ∧ t.mem.testing = false ∧ t.mem.bytes = s.mem.bytes) ∧
  (∀ s : State, s.st ≠ St.reset → s.st ≠ St.selfTest →
    Reaches (exec (.codeCheck 0) s) fun t => t.rd R.FW_CHK_COUNT = (s.rd R.FW_CHK_COUNT + 1) % 256 ∧ t.on R.FW_CHK_FAIL = s.on R.FW_CHK_FAIL ∧ t.st = s.st ∧ t.mem = s.mem) ∧
  (∀ s : State, s.st ≠ St.reset → s.st ≠ St.selfTest → s.rd (R.FLT_SRC_CFG_BASE 23) = 5 → s.role = Role.solo → s.st ≠ St.locked →
    Reaches (exec (.codeCheck 1) s) fun t => t.on R.FW_CHK_FAIL = true ∧ t.latched 23 = true ∧ t.lclass 23 = 5 ∧ t.st = St.locked) ∧
  (∀ s : State, s.writable = true →
    Reaches (exec .ddrInit s) fun t => t.mem.ddrInit = true ∧ t.on R.DDR_STATUS_READY = false ∧ t.on R.DDR_STATUS_TRAIN_FAIL = false ∧ t.st = s.st) ∧
  (∀ s : State, s.mem.ddrInit = true →
    Reaches (exec (.ddrInitDone true) s) fun t => t.mem.ddrInit = false ∧ t.on R.DDR_STATUS_READY = true ∧ t.on R.DDR_STATUS_TRAIN_FAIL = false ∧
      t.rd R.DDR_STATUS_SIZE_GB = s.ddrSize) ∧
  (∀ s : State, s.mem.ddrInit = true →
    Reaches (exec (.ddrInitDone false) s) fun t => t.mem.ddrInit = false ∧ t.on R.DDR_STATUS_READY = false ∧ t.on R.DDR_STATUS_TRAIN_FAIL = true) ∧
  (∀ (s : State) (temp : BitVec 8), s.on R.DDR_STATUS_READY = true →
    Reaches (exec (.ddrTempRead temp) s) fun t => t.mem.fastRefresh = decide (85 < temp.toInt) ∧ t.regs = s.regs) ∧
  (∀ s : State, 0 ≤ s.now → exec .ddrScrub s = .next s) ∧
  (∀ (s : State) (m : Fin 19) (addr : BitVec 36), 1 ≤ s.rd (R.FLT_SRC_CFG_BASE 20) → s.rd (R.FLT_SRC_CFG_BASE 20) ≤ 2 → s.rd (R.FLT_SRC_CFG_ESC_N 20) = 0 →
    Reaches (exec (.ddrEccError m addr true) s) fun t => t.rd R.DDR_ECC_CE = Nat.min 65535 (s.rd R.DDR_ECC_CE + 1) ∧ t.latched 20 = true ∧ t.mem = s.mem) ∧
  (∀ (s : State) (m : Fin 19) (addr : BitVec 36), 1 ≤ s.rd (R.FLT_SRC_CFG_BASE 21) → s.rd (R.FLT_SRC_CFG_BASE 21) ≤ 2 → s.rd (R.FLT_SRC_CFG_ESC_N 21) = 0 →
    1 ≤ m.val → m.val ≤ 6 →
    Reaches (exec (.ddrEccError m addr false) s) fun t => t.rd R.DDR_ECC_UE = Nat.min 65535 (s.rd R.DDR_ECC_UE + 1) ∧ t.latched 21 = true ∧
      Emission.busError addr.toNat ∈ t.sent ∧ t.acq = s.acq)

/-- R495, R497, R499. -/
def Obligations.FusesAndCellMemory : Prop :=
  (∀ (s : State) (type : Fin 16) (v : Nat), s.writable = true → type.val ≤ 8 → mapGet (fun _ => 0) s.mem.svn type.val = v → s.rd (rollField type) < v →
    s.mem.roll = none → s.mem.revoke = none →
    Reaches (exec (.secRoll type 0x5A5A true) s) fun t => t.mem.roll = some (type.val, v) ∧ t.regs = s.regs) ∧
  (∀ (s : State) (type : Fin 16), s.writable = true →
    exec (.secRoll type 0x5A5A false) s = .next (s.put R.SEC_STATUS_CMD_REF true)) ∧
  (∀ (s : State) (slot : Fin 4), s.writable = true → s.rd R.SEC_STATUS_KEY ≠ slot.val → s.rd R.SEC_KEYS_REVOKED = 0 → s.mem.roll = none → s.mem.revoke = none →
    Reaches (exec (.secRevoke slot 0x5A5A true) s) fun t => t.mem.revoke = some slot.val ∧ t.regs = s.regs) ∧
  (∀ (s : State) (slot : Fin 4), s.rd R.SEC_STATUS_KEY = slot.val →
    exec (.secRevoke slot 0x5A5A true) s = .next (s.put R.SEC_STATUS_CMD_REF true)) ∧
  (∀ (s : State) (type : Fin 16) (slot : Fin 4) (key : BitVec 16), key ≠ 0x5A5A →
    exec (.secRoll type key true) s = .next s ∧ exec (.secRevoke slot key true) s = .next s) ∧
  (∀ (s : State) (type v : Nat), s.mem.roll = some (type, v) → s.mem.revoke = none → type ≤ 8 → v < 64 →
    Reaches (exec .fuseProgramDone s) fun t => t.rd (rollField type) = v ∧ t.mem.roll = none ∧ t.on R.SEC_STATUS_CMD_DONE = true) ∧
  (∀ (s : State) (slot : Nat), s.mem.revoke = some slot → slot < 4 →
    Reaches (exec .fuseProgramDone s) fun t => t.bit R.SEC_KEYS_REVOKED slot = true ∧ t.mem.revoke = none ∧ t.on R.SEC_STATUS_CMD_DONE = true) ∧
  (∀ (s : State) (id : BitVec 64), (s.cell id.toNat).mode = Mode.bypassed →
    CellBecomes (exec (.cellSramRetention id) s) s id.toNat fun c => c.rd K.SMEM_STATE_STATE = 0x55 ∧ c.mode = Mode.bypassed ∧ c.pw = (s.cell id.toNat).pw) ∧
  (∀ (s : State) (id : BitVec 64), Mode.safeHold ≤ (s.cell id.toNat).mode → (s.cell id.toNat).mode ≠ Mode.bypassed → (s.cell id.toNat).on K.SMEM_BT_EN = true →
    CellBecomes (exec (.cellBgTestRegion id false false false) s) s id.toNat fun c => c.rd K.SMEM_BTST_REGION = ((s.cell id.toNat).rd K.SMEM_BTST_REGION + 1) % 1024 ∧
      c.rd K.SMEM_BTST_PASSES = (if (s.cell id.toNat).rd K.SMEM_BTST_REGION = 1023 then Nat.min 65535 ((s.cell id.toNat).rd K.SMEM_BTST_PASSES + 1)
        else (s.cell id.toNat).rd K.SMEM_BTST_PASSES) ∧ c.mode = (s.cell id.toNat).mode) ∧
  (∀ (s : State) (id : BitVec 64), Mode.safeHold ≤ (s.cell id.toNat).mode → (s.cell id.toNat).mode ≠ Mode.bypassed → (s.cell id.toNat).on K.SMEM_BT_EN = true →
    (s.cell id.toNat).rd (K.CFLT_CLASS_CLASS 1 7) = 1 →
    CellBecomes (exec (.cellBgTestRegion id true false false) s) s id.toNat fun c => c.rd K.SMEM_ECC_CE = Nat.min 65535 ((s.cell id.toNat).rd K.SMEM_ECC_CE + 1) ∧
      c.latched 15 = true)

/-! ### Health and ageing (19) -/

/-- R502, R505 to R509, R515, R518. -/
def Obligations.CellHealthCounts : Prop :=
  (∀ (s : State) (id : BitVec 64), (s.cell id.toNat).counted = true → (s.cell id.toNat).hon K.HCFG_EN = true → (s.cell id.toNat).hrd K.TEMP_CFG_MASK ≠ 0 →
    (s.cell id.toNat).temp ≠ 0x8000 → (s.cell id.toNat).hl.ext = none →
    CellBecomes (exec (.tempSample id) s) s id.toNat fun c => c.hl.ext = some (toSigned 16 (s.cell id.toNat).temp) ∧ c.hl.stack = (s.cell id.toNat).hl.stack ∧
      c.regs = (s.cell id.toNat).regs) ∧
  (∀ (s : State) (id : BitVec 64) (e : Int), (s.cell id.toNat).counted = true → (s.cell id.toNat).hon K.HCFG_EN = true → (s.cell id.toNat).hrd K.TEMP_CFG_MASK ≠ 0 →
    (s.cell id.toNat).temp ≠ 0x8000 → (s.cell id.toNat).hl.ext = some e → (s.cell id.toNat).hl.dir = 1 → (s.cell id.toNat).hl.stack = [] →
    16 * ((s.cell id.toNat).rd K.HCFG_TR_HYST : Int) ≤ e - toSigned 16 (s.cell id.toNat).temp → 1 ≤ (s.cell id.toNat).rd K.HCFG_TR_HYST →
    CellBecomes (exec (.tempSample id) s) s id.toNat fun c => c.hl.ext = some (toSigned 16 (s.cell id.toNat).temp) ∧ c.hl.stack = [e] ∧ c.hl.dir = 2 ∧
      c.regs = (s.cell id.toNat).regs) ∧
  (∀ (s : State) (id : BitVec 64) (e x y a : Int), (s.cell id.toNat).counted = true → (s.cell id.toNat).hon K.HCFG_EN = true → (s.cell id.toNat).hrd K.TEMP_CFG_MASK ≠ 0 →
    (s.cell id.toNat).temp ≠ 0x8000 → (s.cell id.toNat).hl.ext = some e → (s.cell id.toNat).hl.dir = 1 → (s.cell id.toNat).hl.stack = [x, y, a] →
    16 * ((s.cell id.toNat).rd K.HCFG_TR_HYST : Int) ≤ e - toSigned 16 (s.cell id.toNat).temp → 1 ≤ (s.cell id.toNat).rd K.HCFG_TR_HYST →
    (x - y).natAbs ≤ (a - y).natAbs → (x - y).natAbs ≤ (e - x).natAbs → 1 ≤ (s.cell id.toNat).rd K.HCFG_BIN_W →
    CellBecomes (exec (.tempSample id) s) s id.toNat fun c => c.hl.stack = [e, a] ∧
      c.rd (K.A_RF_RF (Nat.min 15 ((x - y).natAbs / (16 * (s.cell id.toNat).rd K.HCFG_BIN_W)))) =
        Nat.min (2 ^ 32 - 1) ((s.cell id.toNat).rd (K.A_RF_RF (Nat.min 15 ((x - y).natAbs / (16 * (s.cell id.toNat).rd K.HCFG_BIN_W)))) + 2)) ∧
  (∀ (s : State) (id : BitVec 64), (s.cell id.toNat).counted = true → (s.cell id.toNat).hon K.HCFG_EN = true → (s.cell id.toNat).temp ≠ 0x8000 →
    1 ≤ (s.cell id.toNat).rd K.HCFG2_HT_W →
    CellBecomes (exec (.hoursTick id) s) s id.toNat fun c => c.rd K.A_HISTN_HIST_SEC = Nat.min (2 ^ 26 - 1) ((s.cell id.toNat).rd K.A_HISTN_HIST_SEC + 1) ∧
      (∀ j, j < 8 → c.rd (K.A_HRS_HRS j) = if j = (clampInt 0 7 ((toSigned 16 (s.cell id.toNat).temp - toSigned 16 ((s.cell id.toNat).rd K.HCFG2_HT_LO)) /
        (64 * (s.cell id.toNat).rd K.HCFG2_HT_W : Nat))).toNat then Nat.min (2 ^ 32 - 1) ((s.cell id.toNat).rd (K.A_HRS_HRS j) + 1) else (s.cell id.toNat).rd (K.A_HRS_HRS j))) ∧
  (∀ (s : State) (id : BitVec 64), (s.cell id.toNat).counted = true → (s.cell id.toNat).temp = 0x8000 →
    CellBecomes (exec (.hoursTick id) s) s id.toNat fun c => c.rd K.A_HISTN_HIST_SEC = Nat.min (2 ^ 26 - 1) ((s.cell id.toNat).rd K.A_HISTN_HIST_SEC + 1) ∧
      (∀ j, j < 8 → c.rd (K.A_HRS_HRS j) = (s.cell id.toNat).rd (K.A_HRS_HRS j))) ∧
  (∀ (s : State) (id : BitVec 64), (s.cell id.toNat).counted = true → (s.cell id.toNat).rd K.H_ALM_ALM_D > codeOf ((s.cell id.toNat).components.foldl fMax f0) →
    (s.cell id.toNat).rd K.H_DAYS_DAYS = 0xFFFF → (s.cell id.toNat).components.foldl fMax f0 < 2 ^ 32 → (s.cell id.toNat).components.getD 0 0 < 2 ^ 32 →
    CellBecomes (exec (.damageCalc id) s) s id.toNat fun c => c.rd K.H_D_D = (s.cell id.toNat).components.foldl fMax f0 ∧
      c.rd K.H_D_WEAR_D_WEAR = (s.cell id.toNat).components.getD 0 0 ∧ c.bit K.CFLT_LIVE_LIVE 29 = false ∧ c.mode = (s.cell id.toNat).mode) ∧
  (∀ (s : State) (id : BitVec 64), (s.cell id.toNat).counted = true → (s.cell id.toNat).rd K.H_ALM_ALM_D ≤ codeOf ((s.cell id.toNat).components.foldl fMax f0) →
    (s.cell id.toNat).rd (K.CFLT_CLASS_CLASS 3 5) = 1 → (s.cell id.toNat).components.foldl fMax f0 < 2 ^ 32 → (s.cell id.toNat).bit K.CFLT_LIVE_LIVE 29 = false →
    CellBecomes (exec (.damageCalc id) s) s id.toNat fun c => c.bit K.CFLT_LIVE_LIVE 29 = true ∧ c.latched 29 = true) ∧
  (∀ (s : State) (id : BitVec 64), (s.cell id.toNat).counted = true → fLe f1 ((s.cell id.toNat).rd K.H_D_D) = false → (s.cell id.toNat).rd K.A_HISTN_HIST_N = 0 →
    (s.cell id.toNat).hl.histAt < 32 →
    CellBecomes (exec (.dailyHistory id) s) s id.toNat fun c => c.rd K.A_HISTN_HIST_N = 1 ∧ c.rd K.A_HISTN_HIST_SEC = 0 ∧ c.rd K.H_DAYS_DAYS = 0xFFFF ∧
      c.histEntry (s.cell id.toNat).hl.histAt = codeOf ((s.cell id.toNat).rd K.H_D_D) ∧ c.hl.histAt = ((s.cell id.toNat).hl.histAt + 1) % 32) ∧
  (∀ (s : State) (id : BitVec 64), (s.cell id.toNat).counted = true → fLe f1 ((s.cell id.toNat).rd K.H_D_D) = true →
    (s.cell id.toNat).rd (K.CFLT_CLASS_CLASS 3 5) = 1 → (s.cell id.toNat).bit K.CFLT_LIVE_LIVE 29 = false →
    CellBecomes (exec (.dailyHistory id) s) s id.toNat fun c => c.rd K.H_DAYS_DAYS = 0 ∧ c.latched 29 = true) ∧
  (∀ (s : State) (id : BitVec 64), (s.cell id.toNat).mode ≠ Mode.reset →
    CellBecomes (exec (.hctlLoaded id) s) s id.toNat fun c => c.on K.HCTL_FRESH = false ∧ c.mode = (s.cell id.toNat).mode ∧ c.hl = (s.cell id.toNat).hl) ∧
  (∀ (s : State) (id : BitVec 64) (v : BitVec 32), (s.cell id.toNat).mode ≠ Mode.reset → f32Finite v.toNat = true → fLt f0 v.toNat = true →
    fDiv f1 v.toNat < 2 ^ 32 →
    CellBecomes (exec (.hcfgNomWrite id false v) s) s id.toNat fun c => c.rd K.H_C_NOM_C_NOM = v.toNat ∧ c.rd K.A_THETA0_THETA0 = fDiv f1 v.toNat ∧
      c.rd K.A_THETA1_THETA1 = (s.cell id.toNat).rd K.H_ESR0_ESR0 ∧ c.rd K.H_N_UPD_N_UPD = 0) ∧
  (∀ (s : State) (id : BitVec 64) (v : BitVec 32), (s.cell id.toNat).mode ≠ Mode.reset → f32Finite v.toNat = true → fLt f0 v.toNat = true →
    CellBecomes (exec (.hcfgNomWrite id true v) s) s id.toNat fun c => c.rd K.H_ESR0_ESR0 = v.toNat ∧ c.rd K.A_THETA1_THETA1 = v.toNat ∧ c.rd K.H_N_UPD_N_UPD = 0) ∧
  (∀ (s : State) (id : BitVec 64) (v : BitVec 32), (v.toNat = 0 ∨ fLt v.toNat f0 = true ∨ f32Finite v.toNat = false) →
    CellBecomes (exec (.hcfgNomWrite id false v) s) s id.toNat fun c => c = s.cell id.toNat)

/-- R513, R514, R516, R517. -/
def Obligations.HealthRanksImagesAndAgeing : Prop :=
  (∀ (s : State) (a : Fin 6), (∀ b, b < 6 → s.on (R.ARM_CFG_EN b) = decide (b = a.val)) → (∀ k ∈ s.healthOrder a, s.kcx * 2 ^ 13 + k < 2 ^ 16) → (s.armCells a).length < 2 ^ 10 →
    Reaches (exec .healthRank s) fun t =>
      (∀ r, r < 8 → t.rd (R.HLT_RANK_HANDLE a r) = ((s.healthOrder a)[r]?.map fun k => s.kcx * 2 ^ 13 + k).getD 0xFFFF ∧
        t.rd (R.HLT_RANK_DAYS a r) = ((s.healthOrder a)[r]?.map s.keptDays).getD 0xFFFF) ∧
      t.rd (R.HARM_ST_N_ALARM a) = ((s.armCells a).filter fun k => bitOf (s.keptItem k 8) 7).length ∧
      t.rd (R.HARM_ST_N_KNOWN a) = ((s.armCells a).filter fun k => bitOf (s.keptItem k 8) 6).length ∧
      t.rd (R.HARM_WORST_HANDLE a) = t.rd (R.HLT_RANK_HANDLE a 0) ∧ t.rd (R.HARM_WORST_DAYS a) = t.rd (R.HLT_RANK_DAYS a 0)) ∧
  (∀ s : State, s.on R.HLT_CFG_IMG_EN = false → exec .healthImageSave s = .next s) ∧
  (∀ s : State, s.on R.HLT_CFG_IMG_EN = true → s.imageAvailable = false →
    exec .healthImageSave s = .next (s.put R.HLT_IMG_ST_IMG_ERR true)) ∧
  (∀ (s : State) (p : Fin 48), s.on R.HLT_CFG_IMG_EN = true → s.imageAvailable = true → s.role = Role.solo → s.okCells p = [s.extAddr p 0 0] →
    (s.port p).own = [] → (s.port p).txn = none →
    Reaches (exec .healthImageSave s) fun t => (t.port p).txn.map (fun x => (x.req.op, x.req.addr, x.ready)) = some (1, 0x800C0, true) ∧ (t.port p).own = [] ∧
      t.on (R.MB_STATUS_BUSY p) = true ∧ t.mem = s.mem) ∧
  (∀ s : State, s.on R.HLT_CHIP_ST_ALARM = false →
    Reaches (exec (.ageingMeasure (List.replicate 16 0x3F800000)) s) fun t => t.rd R.HLT_CHIP_DAYS = 0xFFFFFFFF ∧ t.on R.HLT_CHIP_ST_ALARM = false ∧
      (∀ m, m < 16 → t.rd (R.HLT_MON_DELTA m) = 0)) ∧
  (∀ (s : State) (x : BitVec 32), s.rd R.AGE_H ≠ 0 → fLt f0 (fSub f1 x.toNat) = true → fLe (s.rd R.MON_DLIM_DLIM) (fSub f1 x.toNat) = true →
    Reaches (exec (.ageingMeasure (x :: List.replicate 15 0x3F800000)) s) fun t => t.rd R.HLT_CHIP_DAYS = 0 ∧ t.rd R.HLT_CHIP_ST_WORST_MON = 0 ∧
      t.on R.HLT_CHIP_ST_ALARM = true) ∧
  (∀ s : State, 0 ≤ s.now → exec (.ageingMeasure []) s = .next s) ∧
  (∀ s : State, s.st ≠ St.reset → s.st ≠ St.selfTest → exec .ageHour s = .next (s.wr R.AGE_H (Nat.min (2 ^ 32 - 1) (s.rd R.AGE_H + 1))))

/-! ### Object dictionary (20) -/

/-- R521 to R525, R528 to R534, R536, R538, R539, R551. -/
def Obligations.ObjectAccessesAnswer : Prop :=
  (∀ (s : State) (c : Client) (x : Session), s.ObjectsReady c x →
    Reaches (exec (.odRead c 0x1018 2) s) fun t => t.sent = .object c 0x1018 2 (bytesLE 4 0x8400) 0 :: s.sent ∧ t.regs = s.regs ∧ t.od.sessions = s.od.sessions ∧ t.od.jobs = []) ∧
  (∀ (s : State) (c : Client) (x : Session), s.ObjectsReady c x → x.sel 0x2000 = 0 →
    Reaches (exec (.odRead c 0x2000 2) s) fun t => t.sent = .object c 0x2000 2 [BitVec.ofNat 8 s.st] 0 :: s.sent ∧ t.regs = s.regs) ∧
  (∀ (s : State) (c : Client) (x : Session) (index : BitVec 16), s.ObjectsReady c x → commIndex index.toNat = false → odIndex index.toNat = false →
    Reaches (exec (.odRead c index 2) s) fun t => t.sent = .object c index.toNat 2 [] 0x06020000 :: s.sent ∧ t.regs = s.regs) ∧
  (∀ (s : State) (c : Client) (x : Session), s.ObjectsReady c x → x.sel 0x2000 = 0 →
    Reaches (exec (.odRead c 0x2000 0x50) s) fun t => t.sent = .object c 0x2000 0x50 [] 0x06090011 :: s.sent ∧ t.regs = s.regs) ∧
  (∀ (s : State) (c : Client) (x : Session) (q : Fin 64) (data : BitVec 64), s.ObjectsReady c x → s.st ≠ St.locked → s.st ≠ St.reset → s.st ≠ St.selfTest →
    x.sel 0x2A00 = 0x10000 + q.val → data.toNat < 8 → x.staged = [] →
    Reaches (exec (.odWrite c 0x2A00 3 data) s) fun t => t.rd (R.Q_CFG_PRIO q) = data.toNat ∧ t.rd (R.Q_CFG_DEPTH q) = s.rd (R.Q_CFG_DEPTH q) ∧
      t.rd (R.Q_CFG_TICK_OFF q) = s.rd (R.Q_CFG_TICK_OFF q) ∧ t.sent = .object c 0x2A00 3 [] 0 :: s.sent) ∧
  (∀ (s : State) (c : Client) (x : Session) (q : Fin 64) (data : BitVec 64), s.ObjectsReady c x → x.sel 0x2A00 = 0x10000 + q.val → 8 ≤ data.toNat →
    Reaches (exec (.odWrite c 0x2A00 3 data) s) fun t => t.sent = .object c 0x2A00 3 [] 0x06090030 :: s.sent ∧ t.regs = s.regs) ∧
  (∀ (s : State) (c : Client) (x : Session) (data : BitVec 64), s.ObjectsReady c x → x.sel 0x2000 = 0 →
    Reaches (exec (.odWrite c 0x2000 2 data) s) fun t => t.sent = .object c 0x2000 2 [] 0x06010002 :: s.sent ∧ t.regs = s.regs) ∧
  (∀ (s : State) (c : Client) (x : Session) (index : BitVec 16) (data : BitVec 32), s.ObjectsReady c x → odIndex index.toNat = true → index.toNat ≠ 0x2500 → 0x2000 ≤ index.toNat →
    selectOk index.toNat data.toNat = true →
    Reaches (exec (.odSelectWrite c index data) s) fun t => (t.session c).map (fun y => y.sel index.toNat) = some data.toNat ∧ t.regs = s.regs ∧
      t.sent = .object c index.toNat 1 [] 0 :: s.sent) ∧
  (∀ (s : State) (c : Client) (x : Session) (index : BitVec 16) (data : BitVec 32), s.ObjectsReady c x → odIndex index.toNat = true → index.toNat ≠ 0x2500 → 0x2000 ≤ index.toNat →
    selectOk index.toNat data.toNat = false →
    Reaches (exec (.odSelectWrite c index data) s) fun t => t.session c = some x ∧ t.regs = s.regs ∧ t.sent = .object c index.toNat 1 [] 0x06090030 :: s.sent) ∧
  (∀ (s : State) (c : Client) (x : Session), s.ObjectsReady c x →
    Reaches (exec (.odCellWrite c 0xFFFFFFFFFFFFFFFF) s) fun t => (t.session c).map Session.cell = some (some (2 ^ 64 - 1)) ∧ t.regs = s.regs ∧
      t.sent = .object c 0x2500 0x40 [] 0 :: s.sent) ∧
  (∀ (s : State) (c : Client) (x : Session) (data : BitVec 64), s.ObjectsReady c x → s.cellKnown data.toNat = false →
    Reaches (exec (.odCellWrite c data) s) fun t => t.session c = some x ∧ t.sent = .object c 0x2500 0x40 [] 0x06090030 :: s.sent) ∧
  (∀ (s : State) (c : Client) (x : Session), s.ObjectsReady c x → s.writable = true →
    Reaches (exec (.odStore c 0x65766173) s) fun t => t.od.jobs.map Job.wait = [.store] ∧ t.sent = s.sent ∧ t.regs = s.regs ∧ t.od.copies = s.od.copies) ∧
  (∀ (s : State) (c : Client) (x : Session), s.ObjectsReady c x → s.writable = false →
    Reaches (exec (.odStore c 0x65766173) s) fun t => t.od.jobs = [] ∧ t.sent = .object c 0x1010 1 [] 0x08000022 :: s.sent ∧ t.regs = s.regs) ∧
  (∀ (s : State) (c : Client) (x : Session), s.ObjectsReady c x → s.writable = true →
    Reaches (exec (.odRestoreDefaults c 0x64616F6C) s) fun t => t.od.loadPend = true ∧ t.on R.OD_STORE_LOAD_PEND = true ∧ t.od.copies = s.od.copies ∧
      t.sent = .object c 0x1011 1 [] 0 :: s.sent) ∧
  (∀ (s : State) (j : Job) (x : Session) (a : ObjAccess), s.od.jobs = [j] → s.od.answers = [] → j.wait = .store → j.form = .single → j.rest = [a] → j.done = [] →
    s.session j.client = some x →
    Reaches (exec (.storeComplete true) s) fun t => t.od.jobs = [] ∧ t.on R.OD_STORE_STORED = true ∧ t.od.copies.head?.map Copy.words = some s.storedWords ∧
      t.od.copies.head?.map Copy.replay = some s.od.replay ∧ t.rd R.OD_STORE_STORES = Nat.min 65535 (s.rd R.OD_STORE_STORES + 1) ∧
      t.sent = .object j.client a.index a.sub [] 0 :: s.sent) ∧
  (∀ (s : State) (j : Job) (x : Session) (a : ObjAccess), s.od.jobs = [j] → s.od.answers = [] → j.wait = .store → j.form = .single → j.rest = [a] → j.done = [] →
    s.session j.client = some x →
    Reaches (exec (.storeComplete false) s) fun t => t.od.jobs = [] ∧ t.rd R.OD_STORE_STORES = s.rd R.OD_STORE_STORES ∧
      t.sent = .object j.client a.index a.sub [] 0x08000020 :: s.sent) ∧
  (∀ s : State, s.st ≠ St.reset → s.st ≠ St.selfTest → s.role = Role.solo →
    Reaches (exec .odReplayClr s) fun t => t.od.replay = [] ∧ t.rd R.OD_REPLAY_USED = 0 ∧ t.st = s.st)

/-- R522, R523, R533, R540 to R548. -/
def Obligations.CanAndUdpServicesAnswer : Prop :=
  (∀ (s : State) (p : Fin 2) (node : BitVec 7), s.canServes p = true → s.on R.ST_SUMMARY_SECURE_FAIL = false → s.session (.can p node) = none → s.canClients p < 4 → s.od.jobs = [] →
    s.od.answers = [] → s.on R.ACD_CFG_EN = false →
    Reaches (exec (.usdoRequest p node 0x1018 2 none) s) fun t => (t.session (.can p node)).isSome = true ∧ t.od.sessions.length = s.od.sessions.length + 1 ∧
      t.sent = .object (.can p node) 0x1018 2 (bytesLE 4 0x8400) 0 :: s.sent) ∧
  (∀ (s : State) (p : Fin 2) (node : BitVec 7), s.canServes p = true → s.session (.can p node) = none → 4 ≤ s.canClients p →
    exec (.usdoRequest p node 0x1018 2 none) s = .next (s.send (.object (.can p node) 0x1018 2 [] 0x08000020))) ∧
  (∀ (s : State) (p : Fin 2) (node : BitVec 7), s.odServes = true → s.od.jobs = [] →
    Reaches (exec (.canSessionIdle p node) s) fun t => t.session (.can p node) = none ∧
      t.od.sessions = (s.od.sessions.filter fun x => x.client != .can p node) ∧ t.sent = s.sent) ∧
  (∀ (s : State) (p : Fin 2), s.canServes p = true → s.rd R.OD_CAN_HB_MS ≠ 0 →
    exec (.heartbeat p) s = .next (s.send (.can p (0x700 + s.rd R.OD_CAN_NODE_ID) [BitVec.ofNat 8 (if s.st = St.locked then 4 else if s.inService then 5 else 0x7F)]))) ∧
  (∀ (s : State) (d : Datagram), s.forService d = true → Dg.sound d.bytes = false →
    Reaches (exec (.udpRead d) s) fun t => t.rd R.OD_UDP_BAD = (s.rd R.OD_UDP_BAD + 1) % 16 ∧ t.sent = s.sent ∧ t.od = s.od ∧
      exec (.udpWrite d) s = .next t ∧ exec (.hello d) s = .next t ∧ exec (.bye d) s = .next t ∧ exec (.dread d) s = .next t ∧ exec (.dwrite d) s = .next t ∧
      exec (.setpoint d) s = .next t) ∧
  (∀ (s : State) (d : Datagram), s.forService d = true → Dg.sound d.bytes = true → (∀ x ∈ s.od.sessions, x.isUdp = true → x.id ≠ Dg.session d.bytes) →
    Reaches (exec (.udpRead d) s) fun t => t.sent = .udp d.net d.source.toNat d.sourcePort.toNat (dgram (Dg.ver d.bytes) (Dg.op d.bytes + 0x80) (Dg.session d.bytes) 0xFFFF (Dg.seq d.bytes) []) :: s.sent ∧
      t.od = s.od ∧ t.regs = s.regs) ∧
  (∀ (s : State) (d : Datagram) (v : Nat), s.forService d = true → Dg.sound d.bytes = true → Dg.op d.bytes = 1 →
    sharedVersion 0x10 0x12 (byteAt (Dg.body d.bytes) 0) (byteAt (Dg.body d.bytes) 1) = some v → s.session (.udp 0) = none → s.od.sessions.length ≤ 8 → s.od.jobs = [] →
    Reaches (exec (.hello d) s) fun t => t.session (.udp 0) = some (Session.fresh (.udp 0) t.od.lastId v d.net) ∧ t.rd (R.IF_VER_RUN 3) = v % 256 ∧
      t.sent = .udp d.net d.source.toNat d.sourcePort.toNat (dgram v 0x81 t.od.lastId 0 (Dg.seq d.bytes) ([BitVec.ofNat 8 v, 0x10#8, 0x12#8, 0#8] ++ List.replicate 4 0#8)) :: s.sent ∧
      (∀ x ∈ s.od.sessions, x.id ≠ t.od.lastId) ∧ 1 ≤ t.od.lastId) ∧
  (∀ (s : State) (d : Datagram), s.forService d = true → Dg.sound d.bytes = true → Dg.op d.bytes = 1 →
    sharedVersion 0x10 0x12 (byteAt (Dg.body d.bytes) 0) (byteAt (Dg.body d.bytes) 1) = none →
    Reaches (exec (.hello d) s) fun t => t.od = s.od ∧
      t.sent = .udp d.net d.source.toNat d.sourcePort.toNat (dgram 0x12 0x81 0 0 (Dg.seq d.bytes) ([0#8, 0x10#8, 0x12#8, 1#8] ++ List.replicate 4 0#8)) :: s.sent) ∧
  (∀ (s : State) (d : Datagram) (x : Session), s.InSession d x → Dg.op d.bytes = 2 → x.last = none →
    Reaches (exec (.bye d) s) fun t => t.session x.client = none ∧ t.answered d (dgram x.ver 0x82 x.id 0 (Dg.seq d.bytes) []) s.sent) ∧
  (∀ (s : State) (d : Datagram) (x : Session), s.InSession d x → Dg.op d.bytes = 0x10 → x.last = none → Dg.count d.bytes = 1 → Dg.length d.bytes = 16 →
    leAt (Dg.body d.bytes) 0 2 = 0x1018 → byteAt (Dg.body d.bytes) 2 = 2 →
    Reaches (exec (.udpRead d) s) fun t => t.answered d (dgram x.ver 0x90 x.id 1 (Dg.seq d.bytes) ([0x18#8, 0x10#8, 2#8, 0#8] ++ bytesLE 4 0 ++ bytesLE 8 0x8400)) s.sent ∧
      t.regs = s.regs ∧ (t.session x.client).map (fun y => y.last.map Prod.fst) = some (some (Dg.seq d.bytes))) ∧
  (∀ (s : State) (d : Datagram) (x : Session) (q : Fin 64), s.InSession d x → Dg.op d.bytes = 0x11 → x.last = none → Dg.count d.bytes = 1 → Dg.length d.bytes = 16 →
    s.st ≠ St.locked → leAt (Dg.body d.bytes) 0 2 = 0x2A00 → byteAt (Dg.body d.bytes) 2 = 3 → leAt (Dg.body d.bytes) 4 4 = 0x10000 + q.val → leAt (Dg.body d.bytes) 8 8 < 8 → x.staged = [] →
    Reaches (exec (.udpWrite d) s) fun t => t.rd (R.Q_CFG_PRIO q) = leAt (Dg.body d.bytes) 8 8 ∧ t.rd (R.Q_CFG_DEPTH q) = s.rd (R.Q_CFG_DEPTH q) ∧
      t.answered d (dgram x.ver 0x91 x.id 1 (Dg.seq d.bytes) ([0#8, 0x2A#8, 3#8, 0#8] ++ List.replicate 12 0#8)) s.sent) ∧
  (∀ (s : State) (d : Datagram) (x : Session) (kept : List Byte), s.InSession d x → Dg.op d.bytes = 0x11 → x.last = some (Dg.seq d.bytes, some kept) →
    exec (.udpWrite d) s = .next (s.send (.udp d.net d.source.toNat d.sourcePort.toNat kept))) ∧
  (∀ (s : State) (d : Datagram) (x : Session), s.InSession d x → Dg.op d.bytes = 0x13 → x.last = none → x.ver = 0x12 → leAt (Dg.body d.bytes) 0 2 = 0x2C00 → byteAt (Dg.body d.bytes) 2 = 0x40 →
    1 ≤ leAt (Dg.body d.bytes) 20 4 → leAt (Dg.body d.bytes) 20 4 ≤ 1024 → leAt (Dg.body d.bytes) 16 4 + leAt (Dg.body d.bytes) 20 4 ≤ imageBytes →
    s.sramFits (s.rd R.IMG_BASE_BASE, imageBytes) = true →
    Reaches (exec (.dread d) s) fun t => t.regs = s.regs ∧ t.mem = s.mem ∧
      (Dg.body t.lastBytes).drop 24 = pad8 (s.loadBytes (s.rd R.IMG_BASE_BASE + leAt (Dg.body d.bytes) 16 4) (leAt (Dg.body d.bytes) 20 4)) ∧
      Dg.op t.lastBytes = 0x93 ∧ leAt (Dg.body t.lastBytes) 4 4 = 0) ∧
  (∀ (s : State) (d : Datagram) (x : Session), s.InSession d x → Dg.op d.bytes = 0x14 → x.last = none → x.ver = 0x12 → leAt (Dg.body d.bytes) 0 2 = 0x2C00 → byteAt (Dg.body d.bytes) 2 = 0x40 →
    1 ≤ leAt (Dg.body d.bytes) 20 4 → leAt (Dg.body d.bytes) 20 4 ≤ 1024 → leAt (Dg.body d.bytes) 16 4 + leAt (Dg.body d.bytes) 20 4 ≤ imageBytes →
    s.sramFits (s.rd R.IMG_BASE_BASE, imageBytes) = true → s.writable = true →
    Reaches (exec (.dwrite d) s) fun t => t.regs = s.regs ∧
      t.loadBytes (s.rd R.IMG_BASE_BASE + leAt (Dg.body d.bytes) 16 4) (leAt (Dg.body d.bytes) 20 4) = fitTo (leAt (Dg.body d.bytes) 20 4) ((Dg.body d.bytes).drop 24) ∧
      Dg.op t.lastBytes = 0x94 ∧ leAt (Dg.body t.lastBytes) 4 4 = 0) ∧
  (∀ (s : State) (d : Datagram) (x : Session), s.InSession d x → Dg.op d.bytes = 0x14 → x.last = none → x.ver = 0x12 → leAt (Dg.body d.bytes) 0 2 = 0x2C00 → byteAt (Dg.body d.bytes) 2 = 0x40 →
    1 ≤ leAt (Dg.body d.bytes) 20 4 → leAt (Dg.body d.bytes) 20 4 ≤ 1024 → leAt (Dg.body d.bytes) 16 4 + leAt (Dg.body d.bytes) 20 4 ≤ imageBytes → s.writable = false →
    Reaches (exec (.dwrite d) s) fun t => t.mem = s.mem ∧ t.regs = s.regs ∧ leAt (Dg.body t.lastBytes) 4 4 = 0x08000022) ∧
  (∀ (s : State) (d : Datagram) (x : Session), s.InSession d x → Dg.op d.bytes = 0x20 → Dg.count d.bytes = 1 → Dg.length d.bytes = 8 → x.spSeq = none →
    (s.rd R.OD_SP_SRC_SP_SRC = 0 ∨ s.rd R.OD_SP_SRC_SP_SRC = d.source.toNat) → f32Finite (leAt (Dg.body d.bytes) 4 4) = true →
    Reaches (exec (.setpoint d) s) fun t => mapGet (fun _ => f0) t.ctl.slotVal (byteAt (Dg.body d.bytes) 0) = leAt (Dg.body d.bytes) 4 4 ∧
      byteAt (Dg.body d.bytes) 0 ∈ t.ctl.slotNew ∧ t.sent = s.sent ∧ t.regs = s.regs) ∧
  (∀ (s : State) (d : Datagram) (x : Session), s.InSession d x → Dg.op d.bytes = 0x20 → s.rd R.OD_SP_SRC_SP_SRC ≠ 0 → s.rd R.OD_SP_SRC_SP_SRC ≠ d.source.toNat →
    exec (.setpoint d) s = .next s) ∧
  (∀ (s : State) (slot : Fin 8), s.odServes = true → s.od.jobs = [] →
    Reaches (exec (.udpSessionIdle slot) s) fun t => t.session (.udp slot) = none ∧ t.sent = s.sent ∧ t.od.sessions = (s.od.sessions.filter fun x => x.client != .udp slot)) ∧
  (∀ (s : State) (n : Fin 2) (asker : BitVec 32), s.odServes = true → s.netIp n ≠ 0 →
    exec (.arpRequest n asker (BitVec.ofNat 32 (s.netIp n))) s = .next (s.send (.arp n (s.netIp n) asker.toNat))) ∧
  (∀ (s : State) (n : Fin 2) (source : BitVec 32) (payload : List Byte), s.odServes = true → s.netIp n ≠ 0 →
    exec (.icmpEcho n source (BitVec.ofNat 32 (s.netIp n)) true payload) s = .next (s.send (.echo n source.toNat payload)))

/-- R331, R537, R550. -/
def Obligations.RoutedObjectRequests : Prop :=
  (∀ (s : State) (k : Fin 4) (f : List Byte) (l : Nat), s.takesAccord k 7 l f = true → s.controls = true → s.odServes = true → s.on R.ST_SUMMARY_SECURE_FAIL = false →
    s.od.jobs = [] → s.od.answers = [] → s.session (.routed (BitVec.ofNat 16 (Dg.session (Acf.body f)))) = none → Dg.op (Acf.body f) = 0x10 →
    Dg.count (Acf.body f) = 1 → Dg.length (Acf.body f) = 16 → leAt (Dg.body (Acf.body f)) 0 2 = 0x1018 → byteAt (Dg.body (Acf.body f)) 2 = 2 →
    s.rd (R.LVLE_ROUTE_HOPS l (2 * Acf.sender f)) ≠ 0 → s.rd (R.LVLE_ROUTE_HOPS l (2 * Acf.sender f + 1)) = 0 →
    s.on (R.ACD_PORTST_TRAINED (s.rd (R.LVLE_ROUTE_ROUTE l (2 * Acf.sender f)) % 4)) = true →
    Reaches (exec (.odreq k f) s) fun t => t.od.jobs = [] ∧ t.regs = s.regs ∧ Acf.type t.lastBytes = 8 ∧ Acf.arg t.lastBytes = Acf.arg f ∧
      leAt (Dg.body (Acf.body t.lastBytes)) 8 8 = 0x8400 ∧ leAt (Dg.body (Acf.body t.lastBytes)) 4 4 = 0) ∧
  (∀ (s : State) (k : Fin 4) (f : List Byte) (l : Nat) (j : Job) (x : Session) (a : ObjAccess), s.takesAccord k 8 l f = true → s.od.jobs = [j] → s.od.answers = [] →
    j.wait = .routed (Acf.arg f) 1 → j.form = .single → j.rest = [a] → j.done = [] → j.failed = false → s.session j.client = some x → a.write = false → a.index = 0x2000 → a.sub = 2 →
    x.selFor a = 0 → Dg.count (Acf.body f) = 1 → leAt (Dg.body (Acf.body f)) 4 4 = 0 → 16 ≤ (Dg.body (Acf.body f)).length →
    Reaches (exec (.odrsp k f) s) fun t => t.od.jobs = [] ∧ t.regs = s.regs ∧
      t.sent = .object j.client 0x2000 2 (((Dg.body (Acf.body f)).drop 8).take 1) 0 :: s.sent) ∧
  (∀ (s : State) (j : Job) (x : Session) (a : ObjAccess) (tag : BitVec 16), s.od.jobs = [j] → s.od.answers = [] → j.wait = .routed tag.toNat 1 → j.form = .single →
    j.rest = [a] → j.done = [] → s.session j.client = some x →
    Reaches (exec (.odrspTimeout tag) s) fun t => t.od.jobs = [] ∧ t.regs = s.regs ∧ t.sent = .object j.client a.index a.sub [] 0x05040000 :: s.sent) ∧
  (∀ (s : State) (tag : BitVec 16), s.od.jobs = [] → exec (.odrspTimeout tag) s = .next s) ∧
  (∀ (s : State) (cell : BitVec 64), cell.toNat ∈ s.od.calDue → bitsOf cell.toNat 7 6 < 48 → (s.port (bitsOf cell.toNat 7 6)).own = [] → (s.port (bitsOf cell.toNat 7 6)).txn = none →
    Reaches (exec (.calFullPoll cell) s) fun t => (t.port (bitsOf cell.toNat 7 6)).txn.map (fun q => (q.req.op, q.req.addr, q.req.pos)) =
      some (1, 0x30038, bitsOf cell.toNat 0 7) ∧ t.on (R.MB_STATUS_BUSY (bitsOf cell.toNat 7 6)) = true ∧ t.od = s.od)
end

