-- ==== Sys2Proof/Laws/Bits.lean ====
section
/-! SUPPORT. Laws of bit fields: what a field reads as after it, or another one, has been replaced. -/

namespace Sys2Proof.Machine

theorem bitsOf_lt (n lo w : Nat) : bitsOf n lo w < 2 ^ w := Nat.mod_lt _ (Nat.two_pow_pos w)

theorem setBits_eq (n lo w v : Nat) : setBits n lo w v =
    n % 2 ^ lo + 2 ^ lo * (v % 2 ^ w + 2 ^ w * (n / 2 ^ (lo + w))) := by
  unfold setBits
  rw [Nat.pow_add]
  ring

theorem setBits_mod (n lo w v : Nat) : setBits n lo w v % 2 ^ lo = n % 2 ^ lo := by
  rw [setBits_eq, Nat.add_mul_mod_self_left, Nat.mod_mod]

theorem setBits_div (n lo w v : Nat) : setBits n lo w v / 2 ^ lo = v % 2 ^ w + 2 ^ w * (n / 2 ^ (lo + w)) := by
  rw [setBits_eq, Nat.add_mul_div_left _ _ (Nat.two_pow_pos lo), Nat.div_eq_of_lt (Nat.mod_lt _ (Nat.two_pow_pos lo)),
    Nat.zero_add]

/-- A field reads what was put into it. -/
@[simp] theorem bitsOf_setBits_same (n lo w v : Nat) : bitsOf (setBits n lo w v) lo w = v % 2 ^ w := by
  unfold bitsOf
  rw [setBits_div, Nat.add_mul_mod_self_left, Nat.mod_mod]

theorem setBits_div_above (n lo w v : Nat) : setBits n lo w v / 2 ^ (lo + w) = n / 2 ^ (lo + w) := by
  rw [Nat.pow_add, ← Nat.div_div_eq_div_mul, setBits_div, Nat.add_mul_div_left _ _ (Nat.two_pow_pos w),
    Nat.div_eq_of_lt (Nat.mod_lt _ (Nat.two_pow_pos w)), Nat.zero_add, Nat.pow_add]

/-- A field above the one replaced reads as before. -/
theorem bitsOf_setBits_above (n lo w v lo' w' : Nat) (h : lo + w ≤ lo') :
    bitsOf (setBits n lo w v) lo' w' = bitsOf n lo' w' := by
  unfold bitsOf
  obtain ⟨k, rfl⟩ := Nat.exists_eq_add_of_le h
  rw [Nat.pow_add 2 (lo + w) k, ← Nat.div_div_eq_div_mul, setBits_div_above, Nat.div_div_eq_div_mul]

/-- A field below the one replaced reads as before. -/
theorem bitsOf_setBits_below (n lo w v lo' w' : Nat) (h : lo' + w' ≤ lo) :
    bitsOf (setBits n lo w v) lo' w' = bitsOf n lo' w' := by
  unfold bitsOf
  have key : ∀ m, m / 2 ^ lo' % 2 ^ w' = m % 2 ^ lo / 2 ^ lo' % 2 ^ w' := by
    intro m
    obtain ⟨k, rfl⟩ := Nat.exists_eq_add_of_le (show lo' ≤ lo by omega)
    rw [Nat.pow_add, Nat.mod_mul_right_div_self, Nat.mod_mod_of_dvd]
    exact Nat.pow_dvd_pow 2 (by omega)
  rw [key (setBits n lo w v), key n, setBits_mod]

theorem setBits_lt (n lo w v k : Nat) (hn : n < 2 ^ k) (hk : lo + w ≤ k) : setBits n lo w v < 2 ^ k := by
  obtain ⟨j, rfl⟩ := Nat.exists_eq_add_of_le hk
  rw [setBits_eq]
  have h1 : n / 2 ^ (lo + w) < 2 ^ j := by
    rw [Nat.div_lt_iff_lt_mul (Nat.two_pow_pos _), Nat.mul_comm, ← Nat.pow_add]; exact hn
  have h2 : v % 2 ^ w < 2 ^ w := Nat.mod_lt _ (Nat.two_pow_pos w)
  have h3 : n % 2 ^ lo < 2 ^ lo := Nat.mod_lt _ (Nat.two_pow_pos lo)
  have h4 : v % 2 ^ w + 2 ^ w * (n / 2 ^ (lo + w)) < 2 ^ w * 2 ^ j := by
    calc _ < 2 ^ w + 2 ^ w * (n / 2 ^ (lo + w)) := by omega
      _ = 2 ^ w * (n / 2 ^ (lo + w) + 1) := by ring
      _ ≤ 2 ^ w * 2 ^ j := Nat.mul_le_mul_left _ h1
  calc _ < 2 ^ lo + 2 ^ lo * (v % 2 ^ w + 2 ^ w * (n / 2 ^ (lo + w))) := by omega
    _ = 2 ^ lo * (v % 2 ^ w + 2 ^ w * (n / 2 ^ (lo + w)) + 1) := by ring
    _ ≤ 2 ^ lo * (2 ^ w * 2 ^ j) := Nat.mul_le_mul_left _ h4
    _ = 2 ^ (lo + w + j) := by rw [Nat.pow_add, Nat.pow_add]; ring

/-- A field put back as it stood changes nothing. -/
theorem setBits_self (n lo w : Nat) : setBits n lo w (bitsOf n lo w) = n := by
  rw [setBits_eq, bitsOf, Nat.mod_mod]
  have h : n / 2 ^ (lo + w) = n / 2 ^ lo / 2 ^ w := by rw [Nat.pow_add, Nat.div_div_eq_div_mul]
  rw [h, Nat.mod_add_div, Nat.mod_add_div]

theorem bitOf_eq (n i : Nat) : bitOf n i = (bitsOf n i 1 == 1) := by simp [bitOf, bitsOf]

@[simp] theorem bitOf_putBit_same (n i : Nat) (b : Bool) : bitOf (putBit n i b) i = b := by
  rw [bitOf_eq, putBit, bitsOf_setBits_same]
  cases b <;> rfl

theorem bitOf_putBit_ne (n i j : Nat) (b : Bool) (h : i ≠ j) : bitOf (putBit n i b) j = bitOf n j := by
  rw [bitOf_eq, bitOf_eq, putBit]
  rcases Nat.lt_or_gt_of_ne h with h | h
  · rw [bitsOf_setBits_above _ _ _ _ _ _ (by omega)]
  · rw [bitsOf_setBits_below _ _ _ _ _ _ (by omega)]

/-- Bytes of a number spell it again, modulo their width. -/
theorem natLE_bytesLE (k n : Nat) : natLE (bytesLE k n) = n % 256 ^ k := by
  induction k generalizing n with
  | zero => simp [bytesLE, natLE, Nat.mod_one]
  | succ k ih =>
    simp only [bytesLE, natLE, ih, BitVec.toNat_ofNat]
    have h : (256 : Nat) ^ (k + 1) = 256 * 256 ^ k := by ring
    rw [h, Nat.mod_mul]

@[simp] theorem length_bytesLE (k n : Nat) : (bytesLE k n).length = k := by
  induction k generalizing n with
  | zero => rfl
  | succ k ih => simp [bytesLE, ih]

/-- A saturating count does not pass its limit and never falls. -/
theorem satAdd_le (w a b : Nat) : satAdd w a b ≤ 2 ^ w - 1 := Nat.min_le_left _ _

end Sys2Proof.Machine
end

