-- ==== Sys2Proof/Laws/Maps.lean ====
section
/-! SUPPORT. Laws of sparse maps: a read after a write, and the canonical form that every write keeps. -/

namespace Sys2Proof.Machine

variable {α : Type}

@[simp] theorem mapGet_nil (d : Nat → α) (k : Nat) : mapGet d [] k = d k := rfl

theorem mapGet_cons (d : Nat → α) (e : Nat × α) (m : NMap α) (k : Nat) :
    mapGet d (e :: m) k = if e.1 = k then e.2 else mapGet d m k := rfl

theorem mapErase_cons (e : Nat × α) (m : NMap α) (k : Nat) :
    mapErase (e :: m) k = if e.1 = k then mapErase m k else e :: mapErase m k := by
  by_cases h : e.1 = k <;> simp [mapErase, h]

/-- An erased key reads as an unlisted one; every other key reads as before. -/
theorem mapGet_mapErase (d : Nat → α) (m : NMap α) (k k' : Nat) :
    mapGet d (mapErase m k) k' = if k' = k then d k else mapGet d m k' := by
  induction m with
  | nil => by_cases h : k' = k <;> simp [mapErase, mapGet, h]
  | cons e m ih =>
    rw [mapErase_cons, mapGet_cons]
    by_cases h : e.1 = k
    · rw [if_pos h, ih]
      by_cases hk : k' = k
      · simp [hk]
      · have : ¬ e.1 = k' := fun c => hk (c ▸ h)
        simp [hk, this]
    · rw [if_neg h, mapGet_cons, ih]
      by_cases hk : k' = k
      · subst hk; simp [h]
      · simp [hk]

theorem mapGet_mapInsert (d : Nat → α) (k : Nat) (v : α) (m : NMap α) (hm : ∀ e ∈ m, e.1 ≠ k) (k' : Nat) :
    mapGet d (mapInsert k v m) k' = if k' = k then v else mapGet d m k' := by
  induction m with
  | nil =>
    simp only [mapInsert, mapGet]
    by_cases h : k' = k
    · simp [h]
    · rw [if_neg (fun c => h c.symm), if_neg h]
  | cons e m ih =>
    have he : e.1 ≠ k := hm e (by simp)
    have ih := ih fun x hx => hm x (List.mem_cons_of_mem _ hx)
    unfold mapInsert
    by_cases hl : k < e.1
    · rw [if_pos hl, mapGet_cons]
      by_cases h : k' = k
      · simp [h]
      · have : ¬ k = k' := fun c => h c.symm
        simp [h, this]
    · rw [if_neg hl, mapGet_cons, mapGet_cons, ih]
      by_cases h : k' = k
      · subst h; simp [he]
      · simp [h]

theorem mapErase_ne (m : NMap α) (k : Nat) : ∀ e ∈ mapErase m k, e.1 ≠ k := by
  intro e he
  simpa using (List.mem_filter.1 he).2

/-- What any key reads as after a write (the write's whole effect). -/
theorem mapGet_mapSet [DecidableEq α] (d : Nat → α) (m : NMap α) (k : Nat) (v : α) (k' : Nat) :
    mapGet d (mapSet d m k v) k' = if k' = k then v else mapGet d m k' := by
  unfold mapSet
  by_cases h : v = d k
  · rw [if_pos h, mapGet_mapErase, h]
  · rw [if_neg h, mapGet_mapInsert d k v _ (mapErase_ne m k), mapGet_mapErase]
    by_cases hk : k' = k <;> simp [hk]

@[simp] theorem mapGet_mapSet_same [DecidableEq α] (d : Nat → α) (m : NMap α) (k : Nat) (v : α) :
    mapGet d (mapSet d m k v) k = v := by simp [mapGet_mapSet]

theorem mapGet_mapSet_ne [DecidableEq α] (d : Nat → α) (m : NMap α) (k : Nat) (v : α) (k' : Nat) (h : k' ≠ k) :
    mapGet d (mapSet d m k v) k' = mapGet d m k' := by simp [mapGet_mapSet, h]

@[simp] theorem mapGet_mapUpd_same [DecidableEq α] (d : Nat → α) (m : NMap α) (k : Nat) (f : α → α) :
    mapGet d (mapUpd d m k f) k = f (mapGet d m k) := by simp [mapUpd]

/-! ### The canonical form -/

theorem mapSorted_some_le {lo lo' : Nat} (h : lo' ≤ lo) (m : NMap α) (hm : mapSorted (some lo) m = true) :
    mapSorted (some lo') m = true := by
  cases m with
  | nil => rfl
  | cons e m =>
    obtain ⟨k, v⟩ := e
    simp only [mapSorted, Bool.and_eq_true, decide_eq_true_eq] at hm ⊢
    exact ⟨by omega, hm.2⟩

theorem mapSorted_none {lo : Nat} (m : NMap α) (hm : mapSorted (some lo) m = true) : mapSorted none m = true := by
  cases m with
  | nil => rfl
  | cons e m =>
    obtain ⟨k, v⟩ := e
    simp only [mapSorted, Bool.and_eq_true] at hm ⊢
    exact hm.2

/-- Keys strictly rising, said of neighbours at any distance. -/
theorem mapSorted_iff (o : Option Nat) (m : NMap α) :
    mapSorted o m = true ↔ m.Pairwise (fun a b => a.1 < b.1) ∧ ∀ lo ∈ o, ∀ e ∈ m, lo < e.1 := by
  induction m generalizing o with
  | nil => simp [mapSorted]
  | cons e m ih =>
    obtain ⟨k, v⟩ := e
    cases o with
    | none => simp only [mapSorted, ih, List.pairwise_cons]; simp; tauto
    | some lo =>
      simp only [mapSorted, Bool.and_eq_true, decide_eq_true_eq, ih, List.pairwise_cons]
      constructor
      · rintro ⟨h1, h2, h3⟩
        refine ⟨⟨fun b hb => h3 k rfl b hb, h2⟩, ?_⟩
        rintro l hl b hb
        cases hl
        rcases List.mem_cons.1 hb with rfl | hb
        · exact h1
        · exact lt_trans h1 (h3 k rfl b hb)
      · rintro ⟨⟨h1, h2⟩, h3⟩
        exact ⟨h3 lo rfl (k, v) (by simp), h2, fun l hl b hb => by cases hl; exact h1 b hb⟩

theorem mapWf_iff [DecidableEq α] (d : Nat → α) (m : NMap α) :
    mapWf d m = true ↔ m.Pairwise (fun a b => a.1 < b.1) ∧ ∀ e ∈ m, e.2 ≠ d e.1 := by
  simp [mapWf, mapSorted_iff]

@[simp] theorem mapWf_nil [DecidableEq α] (d : Nat → α) : mapWf d [] = true := rfl

/-- A part of a canonical map is canonical. -/
theorem mapWf_filter [DecidableEq α] (d : Nat → α) (m : NMap α) (p : Nat × α → Bool) (h : mapWf d m = true) :
    mapWf d (m.filter p) = true := by
  rw [mapWf_iff] at h ⊢
  exact ⟨h.1.filter p, fun e he => h.2 e (List.mem_filter.1 he).1⟩

theorem mapWf_mapErase [DecidableEq α] (d : Nat → α) (m : NMap α) (k : Nat) (h : mapWf d m = true) :
    mapWf d (mapErase m k) = true := mapWf_filter d m _ h

theorem mapInsert_mem (k : Nat) (v : α) (m : NMap α) (e : Nat × α) (h : e ∈ mapInsert k v m) : e = (k, v) ∨ e ∈ m := by
  induction m with
  | nil => simpa [mapInsert] using h
  | cons x m ih =>
    unfold mapInsert at h
    split at h
    · simpa using h
    · rcases List.mem_cons.1 h with rfl | h
      · simp
      · rcases ih h with h | h <;> simp [h]

theorem mapInsert_sorted (k : Nat) (v : α) (m : NMap α) (hs : m.Pairwise (fun a b => a.1 < b.1))
    (hn : ∀ e ∈ m, e.1 ≠ k) : (mapInsert k v m).Pairwise (fun a b => a.1 < b.1) := by
  induction m with
  | nil => simp [mapInsert]
  | cons x m ih =>
    obtain ⟨h1, h2⟩ := List.pairwise_cons.1 hs
    unfold mapInsert
    by_cases hl : k < x.1
    · rw [if_pos hl]
      refine List.pairwise_cons.2 ⟨?_, hs⟩
      intro b hb
      rcases List.mem_cons.1 hb with rfl | hb
      · exact hl
      · exact lt_trans hl (h1 b hb)
    · rw [if_neg hl]
      refine List.pairwise_cons.2 ⟨?_, ih h2 fun e he => hn e (List.mem_cons_of_mem _ he)⟩
      intro b hb
      rcases mapInsert_mem k v m b hb with rfl | hb
      · exact lt_of_le_of_ne (not_lt.1 hl) (hn x (by simp))
      · exact h1 b hb

/-- A write keeps the canonical form. -/
theorem mapWf_mapSet [DecidableEq α] (d : Nat → α) (m : NMap α) (k : Nat) (v : α) (h : mapWf d m = true) :
    mapWf d (mapSet d m k v) = true := by
  have he := mapWf_mapErase d m k h
  unfold mapSet
  by_cases hv : v = d k
  · rwa [if_pos hv]
  · rw [if_neg hv]
    rw [mapWf_iff] at he ⊢
    refine ⟨mapInsert_sorted k v _ he.1 (mapErase_ne m k), fun e hm => ?_⟩
    rcases mapInsert_mem k v _ e hm with rfl | hm
    · exact hv
    · exact he.2 e hm

theorem mapWf_mapUpd [DecidableEq α] (d : Nat → α) (m : NMap α) (k : Nat) (f : α → α) (h : mapWf d m = true) :
    mapWf d (mapUpd d m k f) = true := mapWf_mapSet d m k _ h

/-- Canonical maps that read alike are equal. -/
theorem mapWf_ext [DecidableEq α] (d : Nat → α) : ∀ (m m' : NMap α), mapWf d m = true → mapWf d m' = true →
    (∀ k, mapGet d m k = mapGet d m' k) → m = m' := by
  have unl : ∀ (m : NMap α) (k : Nat), (∀ e ∈ m, k < e.1) → mapGet d m k = d k := by
    intro m k h
    induction m with
    | nil => rfl
    | cons e m ih =>
      rw [mapGet_cons, if_neg (by have := h e (by simp); omega)]
      exact ih fun x hx => h x (List.mem_cons_of_mem _ hx)
  intro m
  induction m with
  | nil =>
    intro m' _ h' hr
    cases m' with
    | nil => rfl
    | cons e m' =>
      rw [mapWf_iff] at h'
      have := hr e.1
      rw [mapGet_cons, if_pos rfl] at this
      exact absurd this.symm (h'.2 e (by simp))
  | cons e m ih =>
    intro m' h h' hr
    cases m' with
    | nil =>
      rw [mapWf_iff] at h
      have := hr e.1
      rw [mapGet_cons, if_pos rfl] at this
      exact absurd this (h.2 e (by simp))
    | cons e' m' =>
      have w := (mapWf_iff d _).1 h
      have w' := (mapWf_iff d _).1 h'
      obtain ⟨a1, a2⟩ := List.pairwise_cons.1 w.1
      obtain ⟨b1, b2⟩ := List.pairwise_cons.1 w'.1
      have hk : e.1 = e'.1 := by
        rcases lt_trichotomy e.1 e'.1 with c | c | c
        · exfalso
          have := hr e.1
          rw [mapGet_cons, if_pos rfl, mapGet_cons, if_neg (by omega), unl m' e.1 (fun x hx => lt_trans c (b1 x hx))] at this
          exact w.2 e (by simp) this
        · exact c
        · exfalso
          have := hr e'.1
          rw [mapGet_cons, if_neg (by omega), mapGet_cons, if_pos rfl, unl m e'.1 (fun x hx => lt_trans c (a1 x hx))] at this
          exact w'.2 e' (by simp) this.symm
      have hv : e.2 = e'.2 := by
        have := hr e.1
        rwa [mapGet_cons, if_pos rfl, mapGet_cons, if_pos hk.symm] at this
      have ht : m = m' := by
        apply ih m' ((mapWf_iff d m).2 ⟨a2, fun x hx => w.2 x (List.mem_cons_of_mem _ hx)⟩)
          ((mapWf_iff d m').2 ⟨b2, fun x hx => w'.2 x (List.mem_cons_of_mem _ hx)⟩)
        intro k
        have := hr k
        rw [mapGet_cons, mapGet_cons] at this
        by_cases c : e.1 = k
        · rw [unl m k (fun x hx => c ▸ a1 x hx), unl m' k (fun x hx => by rw [← c, hk]; exact b1 x hx)]
        · rwa [if_neg c, if_neg (by omega)] at this
      rw [ht, Prod.ext hk hv]

end Sys2Proof.Machine
end

