-- ==== Sys2Proof/Laws/Fields.lean ====
section
/-! SUPPORT. Register fields: what a field reads as after a field has been written, in the KC8400 and in a KS210. -/

namespace Sys2Proof.Machine

/-- Two fields share no bit. -/
def Fld.apart (f g : Fld) : Bool :=
  decide (f.addr ≠ g.addr) || decide (f.lo + f.width ≤ g.lo) || decide (g.lo + g.width ≤ f.lo)

/-- A field lies in its word. -/
def Fld.inWord (f : Fld) : Bool := decide (f.lo + f.width ≤ 32)

theorem State.word_lt (s : State) (a : Nat) : s.word a < 2 ^ 32 := (mapGet kcReset s.regs a).isLt

/-- The effect of a register update on every register word. -/
theorem State.word_setWord (s : State) (a v b : Nat) :
    (s.setWord a v).word b = if b = a then v % 2 ^ 32 else s.word b := by
  by_cases h : b = a <;> simp [State.word, State.setWord, mapGet_mapSet, h]

theorem State.word_wr (s : State) (f : Fld) (v b : Nat) (hf : f.inWord = true) :
    (s.wr f v).word b = if b = f.addr then setBits (s.word f.addr) f.lo f.width v else s.word b := by
  rw [State.wr, State.word_setWord, Nat.mod_eq_of_lt (setBits_lt _ _ _ _ 32 (s.word_lt _) (by simpa [Fld.inWord] using hf))]

theorem State.rd_lt (s : State) (f : Fld) : s.rd f < 2 ^ f.width := bitsOf_lt _ _ _

/-- A field reads what was written into it. -/
theorem State.rd_wr_same (s : State) (f : Fld) (v : Nat) (hf : f.inWord = true) : (s.wr f v).rd f = v % 2 ^ f.width := by
  rw [State.rd, State.word_wr s f v _ hf, if_pos rfl, bitsOf_setBits_same]

/-- A field apart from the one written reads as before. -/
theorem State.rd_wr_apart (s : State) (f g : Fld) (v : Nat) (hf : f.inWord = true) (h : f.apart g = true) :
    (s.wr f v).rd g = s.rd g := by
  rw [State.rd, State.word_wr s f v _ hf]
  by_cases ha : g.addr = f.addr
  · rw [if_pos ha, State.rd, ha]
    simp only [Fld.apart, ha, Bool.or_eq_true, decide_eq_true_eq] at h
    rcases h with (h | h) | h
    · exact absurd rfl h
    · exact bitsOf_setBits_above _ _ _ _ _ _ h
    · exact bitsOf_setBits_below _ _ _ _ _ _ h
  · rw [if_neg ha, State.rd]

theorem State.word_wr_ne (s : State) (f : Fld) (v b : Nat) (h : b ≠ f.addr) : (s.wr f v).word b = s.word b := by
  rw [State.wr, State.word_setWord, if_neg h]

theorem State.on_put_same (s : State) (f : Fld) (b : Bool) (hf : f.inWord = true) (hw : f.width = 1) :
    (s.put f b).on f = b := by
  rw [State.on, State.put, State.rd_wr_same s f _ hf, hw]
  cases b <;> rfl

theorem State.rd_put_apart (s : State) (f g : Fld) (b : Bool) (hf : f.inWord = true) (h : f.apart g = true) :
    (s.put f b).rd g = s.rd g := State.rd_wr_apart s f g _ hf h

theorem State.on_put_apart (s : State) (f g : Fld) (b : Bool) (hf : f.inWord = true) (h : f.apart g = true) :
    (s.put f b).on g = s.on g := by rw [State.on, State.rd_put_apart s f g b hf h, State.on]

theorem State.rd_putBit_apart (s : State) (f g : Fld) (i : Nat) (b : Bool) (hf : f.inWord = true) (h : f.apart g = true) :
    (s.putBit f i b).rd g = s.rd g := State.rd_wr_apart s f g _ hf h

theorem State.rd_inc_apart (s : State) (f g : Fld) (n : Nat) (hf : f.inWord = true) (h : f.apart g = true) :
    (s.inc f n).rd g = s.rd g := State.rd_wr_apart s f g _ hf h

/-- Two states with the same register words read every field alike. -/
theorem State.rd_congr (s t : State) (h : s.regs = t.regs) (f : Fld) : s.rd f = t.rd f := by
  simp [State.rd, State.word, h]

/-! ### Cells -/

theorem Cell.word_lt (c : Cell) (a : Nat) : c.word a < 2 ^ 32 := (mapGet cellReset c.regs a).isLt

theorem Cell.word_setWord (c : Cell) (a v b : Nat) :
    (c.setWord a v).word b = if b = a then v % 2 ^ 32 else c.word b := by
  by_cases h : b = a <;> simp [Cell.word, Cell.setWord, mapGet_mapSet, h]

theorem Cell.word_wr (c : Cell) (f : Fld) (v b : Nat) (hf : f.inWord = true) :
    (c.wr f v).word b = if b = f.addr then setBits (c.word f.addr) f.lo f.width v else c.word b := by
  rw [Cell.wr, Cell.word_setWord, Nat.mod_eq_of_lt (setBits_lt _ _ _ _ 32 (c.word_lt _) (by simpa [Fld.inWord] using hf))]

theorem Cell.rd_wr_same (c : Cell) (f : Fld) (v : Nat) (hf : f.inWord = true) : (c.wr f v).rd f = v % 2 ^ f.width := by
  rw [Cell.rd, Cell.word_wr c f v _ hf, if_pos rfl, bitsOf_setBits_same]

theorem Cell.rd_wr_apart (c : Cell) (f g : Fld) (v : Nat) (hf : f.inWord = true) (h : f.apart g = true) :
    (c.wr f v).rd g = c.rd g := by
  rw [Cell.rd, Cell.word_wr c f v _ hf]
  by_cases ha : g.addr = f.addr
  · rw [if_pos ha, Cell.rd, ha]
    simp only [Fld.apart, ha, Bool.or_eq_true, decide_eq_true_eq] at h
    rcases h with (h | h) | h
    · exact absurd rfl h
    · exact bitsOf_setBits_above _ _ _ _ _ _ h
    · exact bitsOf_setBits_below _ _ _ _ _ _ h
  · rw [if_neg ha, Cell.rd]

theorem Cell.on_put_same (c : Cell) (f : Fld) (b : Bool) (hf : f.inWord = true) (hw : f.width = 1) :
    (c.put f b).on f = b := by
  rw [Cell.on, Cell.put, Cell.rd_wr_same c f _ hf, hw]
  cases b <;> rfl

theorem Cell.rd_put_apart (c : Cell) (f g : Fld) (b : Bool) (hf : f.inWord = true) (h : f.apart g = true) :
    (c.put f b).rd g = c.rd g := Cell.rd_wr_apart c f g _ hf h

end Sys2Proof.Machine
end

