-- ==== Sys2Proof/Laws/State.lean ====
section
/-! SUPPORT. What the primitive updates of the state leave alone: one lemma per field per update, and what a register field
reads as after an update of something else. -/

namespace Sys2Proof.Machine

/-! ### setWord -/

@[simp] theorem State.setWord_pending (s : State) (a v : Nat) : (s.setWord a v).pending = s.pending := rfl
@[simp] theorem State.setWord_now (s : State) (a v : Nat) : (s.setWord a v).now = s.now := rfl
@[simp] theorem State.setWord_nowFrac (s : State) (a v : Nat) : (s.setWord a v).nowFrac = s.nowFrac := rfl
@[simp] theorem State.setWord_draws (s : State) (a v : Nat) : (s.setWord a v).draws = s.draws := rfl
@[simp] theorem State.setWord_sent (s : State) (a v : Nat) : (s.setWord a v).sent = s.sent := rfl
@[simp] theorem State.setWord_sys (s : State) (a v : Nat) : (s.setWord a v).sys = s.sys := rfl
@[simp] theorem State.setWord_ctl (s : State) (a v : Nat) : (s.setWord a v).ctl = s.ctl := rfl
@[simp] theorem State.setWord_cells (s : State) (a v : Nat) : (s.setWord a v).cells = s.cells := rfl
@[simp] theorem State.setWord_ports (s : State) (a v : Nat) : (s.setWord a v).ports = s.ports := rfl
@[simp] theorem State.setWord_dly (s : State) (a v : Nat) : (s.setWord a v).dly = s.dly := rfl
@[simp] theorem State.setWord_lvl (s : State) (a v : Nat) : (s.setWord a v).lvl = s.lvl := rfl
@[simp] theorem State.setWord_inp (s : State) (a v : Nat) : (s.setWord a v).inp = s.inp := rfl
@[simp] theorem State.setWord_tie (s : State) (a v : Nat) : (s.setWord a v).tie = s.tie := rfl
@[simp] theorem State.setWord_acd (s : State) (a v : Nat) : (s.setWord a v).acd = s.acd := rfl
@[simp] theorem State.setWord_tim (s : State) (a v : Nat) : (s.setWord a v).tim = s.tim := rfl
@[simp] theorem State.setWord_isl (s : State) (a v : Nat) : (s.setWord a v).isl = s.isl := rfl
@[simp] theorem State.setWord_flt (s : State) (a v : Nat) : (s.setWord a v).flt = s.flt := rfl
@[simp] theorem State.setWord_acq (s : State) (a v : Nat) : (s.setWord a v).acq = s.acq := rfl
@[simp] theorem State.setWord_sch (s : State) (a v : Nat) : (s.setWord a v).sch = s.sch := rfl
@[simp] theorem State.setWord_mem (s : State) (a v : Nat) : (s.setWord a v).mem = s.mem := rfl
@[simp] theorem State.setWord_hlt (s : State) (a v : Nat) : (s.setWord a v).hlt = s.hlt := rfl
@[simp] theorem State.setWord_od (s : State) (a v : Nat) : (s.setWord a v).od = s.od := rfl
@[simp] theorem State.setWord_crd (s : State) (a v : Nat) (x : Fld) : (s.setWord a v).crd x = s.crd x := rfl
@[simp] theorem State.setWord_con (s : State) (a v : Nat) (x : Fld) : (s.setWord a v).con x = s.con x := rfl

/-! ### wr -/

@[simp] theorem State.wr_pending (s : State) (f : Fld) (v : Nat) : (s.wr f v).pending = s.pending := rfl
@[simp] theorem State.wr_now (s : State) (f : Fld) (v : Nat) : (s.wr f v).now = s.now := rfl
@[simp] theorem State.wr_nowFrac (s : State) (f : Fld) (v : Nat) : (s.wr f v).nowFrac = s.nowFrac := rfl
@[simp] theorem State.wr_draws (s : State) (f : Fld) (v : Nat) : (s.wr f v).draws = s.draws := rfl
@[simp] theorem State.wr_sent (s : State) (f : Fld) (v : Nat) : (s.wr f v).sent = s.sent := rfl
@[simp] theorem State.wr_sys (s : State) (f : Fld) (v : Nat) : (s.wr f v).sys = s.sys := rfl
@[simp] theorem State.wr_ctl (s : State) (f : Fld) (v : Nat) : (s.wr f v).ctl = s.ctl := rfl
@[simp] theorem State.wr_cells (s : State) (f : Fld) (v : Nat) : (s.wr f v).cells = s.cells := rfl
@[simp] theorem State.wr_ports (s : State) (f : Fld) (v : Nat) : (s.wr f v).ports = s.ports := rfl
@[simp] theorem State.wr_dly (s : State) (f : Fld) (v : Nat) : (s.wr f v).dly = s.dly := rfl
@[simp] theorem State.wr_lvl (s : State) (f : Fld) (v : Nat) : (s.wr f v).lvl = s.lvl := rfl
@[simp] theorem State.wr_inp (s : State) (f : Fld) (v : Nat) : (s.wr f v).inp = s.inp := rfl
@[simp] theorem State.wr_tie (s : State) (f : Fld) (v : Nat) : (s.wr f v).tie = s.tie := rfl
@[simp] theorem State.wr_acd (s : State) (f : Fld) (v : Nat) : (s.wr f v).acd = s.acd := rfl
@[simp] theorem State.wr_tim (s : State) (f : Fld) (v : Nat) : (s.wr f v).tim = s.tim := rfl
@[simp] theorem State.wr_isl (s : State) (f : Fld) (v : Nat) : (s.wr f v).isl = s.isl := rfl
@[simp] theorem State.wr_flt (s : State) (f : Fld) (v : Nat) : (s.wr f v).flt = s.flt := rfl
@[simp] theorem State.wr_acq (s : State) (f : Fld) (v : Nat) : (s.wr f v).acq = s.acq := rfl
@[simp] theorem State.wr_sch (s : State) (f : Fld) (v : Nat) : (s.wr f v).sch = s.sch := rfl
@[simp] theorem State.wr_mem (s : State) (f : Fld) (v : Nat) : (s.wr f v).mem = s.mem := rfl
@[simp] theorem State.wr_hlt (s : State) (f : Fld) (v : Nat) : (s.wr f v).hlt = s.hlt := rfl
@[simp] theorem State.wr_od (s : State) (f : Fld) (v : Nat) : (s.wr f v).od = s.od := rfl
@[simp] theorem State.wr_crd (s : State) (f : Fld) (v : Nat) (x : Fld) : (s.wr f v).crd x = s.crd x := rfl
@[simp] theorem State.wr_con (s : State) (f : Fld) (v : Nat) (x : Fld) : (s.wr f v).con x = s.con x := rfl

/-! ### put -/

@[simp] theorem State.put_pending (s : State) (f : Fld) (b : Bool) : (s.put f b).pending = s.pending := rfl
@[simp] theorem State.put_now (s : State) (f : Fld) (b : Bool) : (s.put f b).now = s.now := rfl
@[simp] theorem State.put_nowFrac (s : State) (f : Fld) (b : Bool) : (s.put f b).nowFrac = s.nowFrac := rfl
@[simp] theorem State.put_draws (s : State) (f : Fld) (b : Bool) : (s.put f b).draws = s.draws := rfl
@[simp] theorem State.put_sent (s : State) (f : Fld) (b : Bool) : (s.put f b).sent = s.sent := rfl
@[simp] theorem State.put_sys (s : State) (f : Fld) (b : Bool) : (s.put f b).sys = s.sys := rfl
@[simp] theorem State.put_ctl (s : State) (f : Fld) (b : Bool) : (s.put f b).ctl = s.ctl := rfl
@[simp] theorem State.put_cells (s : State) (f : Fld) (b : Bool) : (s.put f b).cells = s.cells := rfl
@[simp] theorem State.put_ports (s : State) (f : Fld) (b : Bool) : (s.put f b).ports = s.ports := rfl
@[simp] theorem State.put_dly (s : State) (f : Fld) (b : Bool) : (s.put f b).dly = s.dly := rfl
@[simp] theorem State.put_lvl (s : State) (f : Fld) (b : Bool) : (s.put f b).lvl = s.lvl := rfl
@[simp] theorem State.put_inp (s : State) (f : Fld) (b : Bool) : (s.put f b).inp = s.inp := rfl
@[simp] theorem State.put_tie (s : State) (f : Fld) (b : Bool) : (s.put f b).tie = s.tie := rfl
@[simp] theorem State.put_acd (s : State) (f : Fld) (b : Bool) : (s.put f b).acd = s.acd := rfl
@[simp] theorem State.put_tim (s : State) (f : Fld) (b : Bool) : (s.put f b).tim = s.tim := rfl
@[simp] theorem State.put_isl (s : State) (f : Fld) (b : Bool) : (s.put f b).isl = s.isl := rfl
@[simp] theorem State.put_flt (s : State) (f : Fld) (b : Bool) : (s.put f b).flt = s.flt := rfl
@[simp] theorem State.put_acq (s : State) (f : Fld) (b : Bool) : (s.put f b).acq = s.acq := rfl
@[simp] theorem State.put_sch (s : State) (f : Fld) (b : Bool) : (s.put f b).sch = s.sch := rfl
@[simp] theorem State.put_mem (s : State) (f : Fld) (b : Bool) : (s.put f b).mem = s.mem := rfl
@[simp] theorem State.put_hlt (s : State) (f : Fld) (b : Bool) : (s.put f b).hlt = s.hlt := rfl
@[simp] theorem State.put_od (s : State) (f : Fld) (b : Bool) : (s.put f b).od = s.od := rfl
@[simp] theorem State.put_crd (s : State) (f : Fld) (b : Bool) (x : Fld) : (s.put f b).crd x = s.crd x := rfl
@[simp] theorem State.put_con (s : State) (f : Fld) (b : Bool) (x : Fld) : (s.put f b).con x = s.con x := rfl

/-! ### putBit -/

@[simp] theorem State.putBit_pending (s : State) (f : Fld) (i : Nat) (b : Bool) : (s.putBit f i b).pending = s.pending := rfl
@[simp] theorem State.putBit_now (s : State) (f : Fld) (i : Nat) (b : Bool) : (s.putBit f i b).now = s.now := rfl
@[simp] theorem State.putBit_nowFrac (s : State) (f : Fld) (i : Nat) (b : Bool) : (s.putBit f i b).nowFrac = s.nowFrac := rfl
@[simp] theorem State.putBit_draws (s : State) (f : Fld) (i : Nat) (b : Bool) : (s.putBit f i b).draws = s.draws := rfl
@[simp] theorem State.putBit_sent (s : State) (f : Fld) (i : Nat) (b : Bool) : (s.putBit f i b).sent = s.sent := rfl
@[simp] theorem State.putBit_sys (s : State) (f : Fld) (i : Nat) (b : Bool) : (s.putBit f i b).sys = s.sys := rfl
@[simp] theorem State.putBit_ctl (s : State) (f : Fld) (i : Nat) (b : Bool) : (s.putBit f i b).ctl = s.ctl := rfl
@[simp] theorem State.putBit_cells (s : State) (f : Fld) (i : Nat) (b : Bool) : (s.putBit f i b).cells = s.cells := rfl
@[simp] theorem State.putBit_ports (s : State) (f : Fld) (i : Nat) (b : Bool) : (s.putBit f i b).ports = s.ports := rfl
@[simp] theorem State.putBit_dly (s : State) (f : Fld) (i : Nat) (b : Bool) : (s.putBit f i b).dly = s.dly := rfl
@[simp] theorem State.putBit_lvl (s : State) (f : Fld) (i : Nat) (b : Bool) : (s.putBit f i b).lvl = s.lvl := rfl
@[simp] theorem State.putBit_inp (s : State) (f : Fld) (i : Nat) (b : Bool) : (s.putBit f i b).inp = s.inp := rfl
@[simp] theorem State.putBit_tie (s : State) (f : Fld) (i : Nat) (b : Bool) : (s.putBit f i b).tie = s.tie := rfl
@[simp] theorem State.putBit_acd (s : State) (f : Fld) (i : Nat) (b : Bool) : (s.putBit f i b).acd = s.acd := rfl
@[simp] theorem State.putBit_tim (s : State) (f : Fld) (i : Nat) (b : Bool) : (s.putBit f i b).tim = s.tim := rfl
@[simp] theorem State.putBit_isl (s : State) (f : Fld) (i : Nat) (b : Bool) : (s.putBit f i b).isl = s.isl := rfl
@[simp] theorem State.putBit_flt (s : State) (f : Fld) (i : Nat) (b : Bool) : (s.putBit f i b).flt = s.flt := rfl
@[simp] theorem State.putBit_acq (s : State) (f : Fld) (i : Nat) (b : Bool) : (s.putBit f i b).acq = s.acq := rfl
@[simp] theorem State.putBit_sch (s : State) (f : Fld) (i : Nat) (b : Bool) : (s.putBit f i b).sch = s.sch := rfl
@[simp] theorem State.putBit_mem (s : State) (f : Fld) (i : Nat) (b : Bool) : (s.putBit f i b).mem = s.mem := rfl
@[simp] theorem State.putBit_hlt (s : State) (f : Fld) (i : Nat) (b : Bool) : (s.putBit f i b).hlt = s.hlt := rfl
@[simp] theorem State.putBit_od (s : State) (f : Fld) (i : Nat) (b : Bool) : (s.putBit f i b).od = s.od := rfl
@[simp] theorem State.putBit_crd (s : State) (f : Fld) (i : Nat) (b : Bool) (x : Fld) : (s.putBit f i b).crd x = s.crd x := rfl
@[simp] theorem State.putBit_con (s : State) (f : Fld) (i : Nat) (b : Bool) (x : Fld) : (s.putBit f i b).con x = s.con x := rfl

/-! ### inc -/

@[simp] theorem State.inc_pending (s : State) (f : Fld) (n : Nat) : (s.inc f n).pending = s.pending := rfl
@[simp] theorem State.inc_now (s : State) (f : Fld) (n : Nat) : (s.inc f n).now = s.now := rfl
@[simp] theorem State.inc_nowFrac (s : State) (f : Fld) (n : Nat) : (s.inc f n).nowFrac = s.nowFrac := rfl
@[simp] theorem State.inc_draws (s : State) (f : Fld) (n : Nat) : (s.inc f n).draws = s.draws := rfl
@[simp] theorem State.inc_sent (s : State) (f : Fld) (n : Nat) : (s.inc f n).sent = s.sent := rfl
@[simp] theorem State.inc_sys (s : State) (f : Fld) (n : Nat) : (s.inc f n).sys = s.sys := rfl
@[simp] theorem State.inc_ctl (s : State) (f : Fld) (n : Nat) : (s.inc f n).ctl = s.ctl := rfl
@[simp] theorem State.inc_cells (s : State) (f : Fld) (n : Nat) : (s.inc f n).cells = s.cells := rfl
@[simp] theorem State.inc_ports (s : State) (f : Fld) (n : Nat) : (s.inc f n).ports = s.ports := rfl
@[simp] theorem State.inc_dly (s : State) (f : Fld) (n : Nat) : (s.inc f n).dly = s.dly := rfl
@[simp] theorem State.inc_lvl (s : State) (f : Fld) (n : Nat) : (s.inc f n).lvl = s.lvl := rfl
@[simp] theorem State.inc_inp (s : State) (f : Fld) (n : Nat) : (s.inc f n).inp = s.inp := rfl
@[simp] theorem State.inc_tie (s : State) (f : Fld) (n : Nat) : (s.inc f n).tie = s.tie := rfl
@[simp] theorem State.inc_acd (s : State) (f : Fld) (n : Nat) : (s.inc f n).acd = s.acd := rfl
@[simp] theorem State.inc_tim (s : State) (f : Fld) (n : Nat) : (s.inc f n).tim = s.tim := rfl
@[simp] theorem State.inc_isl (s : State) (f : Fld) (n : Nat) : (s.inc f n).isl = s.isl := rfl
@[simp] theorem State.inc_flt (s : State) (f : Fld) (n : Nat) : (s.inc f n).flt = s.flt := rfl
@[simp] theorem State.inc_acq (s : State) (f : Fld) (n : Nat) : (s.inc f n).acq = s.acq := rfl
@[simp] theorem State.inc_sch (s : State) (f : Fld) (n : Nat) : (s.inc f n).sch = s.sch := rfl
@[simp] theorem State.inc_mem (s : State) (f : Fld) (n : Nat) : (s.inc f n).mem = s.mem := rfl
@[simp] theorem State.inc_hlt (s : State) (f : Fld) (n : Nat) : (s.inc f n).hlt = s.hlt := rfl
@[simp] theorem State.inc_od (s : State) (f : Fld) (n : Nat) : (s.inc f n).od = s.od := rfl
@[simp] theorem State.inc_crd (s : State) (f : Fld) (n : Nat) (x : Fld) : (s.inc f n).crd x = s.crd x := rfl
@[simp] theorem State.inc_con (s : State) (f : Fld) (n : Nat) (x : Fld) : (s.inc f n).con x = s.con x := rfl

/-! ### incMod -/

@[simp] theorem State.incMod_pending (s : State) (f : Fld) (n : Nat) : (s.incMod f n).pending = s.pending := rfl
@[simp] theorem State.incMod_now (s : State) (f : Fld) (n : Nat) : (s.incMod f n).now = s.now := rfl
@[simp] theorem State.incMod_nowFrac (s : State) (f : Fld) (n : Nat) : (s.incMod f n).nowFrac = s.nowFrac := rfl
@[simp] theorem State.incMod_draws (s : State) (f : Fld) (n : Nat) : (s.incMod f n).draws = s.draws := rfl
@[simp] theorem State.incMod_sent (s : State) (f : Fld) (n : Nat) : (s.incMod f n).sent = s.sent := rfl
@[simp] theorem State.incMod_sys (s : State) (f : Fld) (n : Nat) : (s.incMod f n).sys = s.sys := rfl
@[simp] theorem State.incMod_ctl (s : State) (f : Fld) (n : Nat) : (s.incMod f n).ctl = s.ctl := rfl
@[simp] theorem State.incMod_cells (s : State) (f : Fld) (n : Nat) : (s.incMod f n).cells = s.cells := rfl
@[simp] theorem State.incMod_ports (s : State) (f : Fld) (n : Nat) : (s.incMod f n).ports = s.ports := rfl
@[simp] theorem State.incMod_dly (s : State) (f : Fld) (n : Nat) : (s.incMod f n).dly = s.dly := rfl
@[simp] theorem State.incMod_lvl (s : State) (f : Fld) (n : Nat) : (s.incMod f n).lvl = s.lvl := rfl
@[simp] theorem State.incMod_inp (s : State) (f : Fld) (n : Nat) : (s.incMod f n).inp = s.inp := rfl
@[simp] theorem State.incMod_tie (s : State) (f : Fld) (n : Nat) : (s.incMod f n).tie = s.tie := rfl
@[simp] theorem State.incMod_acd (s : State) (f : Fld) (n : Nat) : (s.incMod f n).acd = s.acd := rfl
@[simp] theorem State.incMod_tim (s : State) (f : Fld) (n : Nat) : (s.incMod f n).tim = s.tim := rfl
@[simp] theorem State.incMod_isl (s : State) (f : Fld) (n : Nat) : (s.incMod f n).isl = s.isl := rfl
@[simp] theorem State.incMod_flt (s : State) (f : Fld) (n : Nat) : (s.incMod f n).flt = s.flt := rfl
@[simp] theorem State.incMod_acq (s : State) (f : Fld) (n : Nat) : (s.incMod f n).acq = s.acq := rfl
@[simp] theorem State.incMod_sch (s : State) (f : Fld) (n : Nat) : (s.incMod f n).sch = s.sch := rfl
@[simp] theorem State.incMod_mem (s : State) (f : Fld) (n : Nat) : (s.incMod f n).mem = s.mem := rfl
@[simp] theorem State.incMod_hlt (s : State) (f : Fld) (n : Nat) : (s.incMod f n).hlt = s.hlt := rfl
@[simp] theorem State.incMod_od (s : State) (f : Fld) (n : Nat) : (s.incMod f n).od = s.od := rfl
@[simp] theorem State.incMod_crd (s : State) (f : Fld) (n : Nat) (x : Fld) : (s.incMod f n).crd x = s.crd x := rfl
@[simp] theorem State.incMod_con (s : State) (f : Fld) (n : Nat) (x : Fld) : (s.incMod f n).con x = s.con x := rfl

/-! ### send -/

@[simp] theorem State.send_pending (s : State) (e : Emission) : (s.send e).pending = s.pending := rfl
@[simp] theorem State.send_now (s : State) (e : Emission) : (s.send e).now = s.now := rfl
@[simp] theorem State.send_nowFrac (s : State) (e : Emission) : (s.send e).nowFrac = s.nowFrac := rfl
@[simp] theorem State.send_draws (s : State) (e : Emission) : (s.send e).draws = s.draws := rfl
@[simp] theorem State.send_regs (s : State) (e : Emission) : (s.send e).regs = s.regs := rfl
@[simp] theorem State.send_sys (s : State) (e : Emission) : (s.send e).sys = s.sys := rfl
@[simp] theorem State.send_ctl (s : State) (e : Emission) : (s.send e).ctl = s.ctl := rfl
@[simp] theorem State.send_cells (s : State) (e : Emission) : (s.send e).cells = s.cells := rfl
@[simp] theorem State.send_ports (s : State) (e : Emission) : (s.send e).ports = s.ports := rfl
@[simp] theorem State.send_dly (s : State) (e : Emission) : (s.send e).dly = s.dly := rfl
@[simp] theorem State.send_lvl (s : State) (e : Emission) : (s.send e).lvl = s.lvl := rfl
@[simp] theorem State.send_inp (s : State) (e : Emission) : (s.send e).inp = s.inp := rfl
@[simp] theorem State.send_tie (s : State) (e : Emission) : (s.send e).tie = s.tie := rfl
@[simp] theorem State.send_acd (s : State) (e : Emission) : (s.send e).acd = s.acd := rfl
@[simp] theorem State.send_tim (s : State) (e : Emission) : (s.send e).tim = s.tim := rfl
@[simp] theorem State.send_isl (s : State) (e : Emission) : (s.send e).isl = s.isl := rfl
@[simp] theorem State.send_flt (s : State) (e : Emission) : (s.send e).flt = s.flt := rfl
@[simp] theorem State.send_acq (s : State) (e : Emission) : (s.send e).acq = s.acq := rfl
@[simp] theorem State.send_sch (s : State) (e : Emission) : (s.send e).sch = s.sch := rfl
@[simp] theorem State.send_mem (s : State) (e : Emission) : (s.send e).mem = s.mem := rfl
@[simp] theorem State.send_hlt (s : State) (e : Emission) : (s.send e).hlt = s.hlt := rfl
@[simp] theorem State.send_od (s : State) (e : Emission) : (s.send e).od = s.od := rfl
@[simp] theorem State.send_word (s : State) (e : Emission) (x : Nat) : (s.send e).word x = s.word x := rfl
@[simp] theorem State.send_rd (s : State) (e : Emission) (x : Fld) : (s.send e).rd x = s.rd x := rfl
@[simp] theorem State.send_on (s : State) (e : Emission) (x : Fld) : (s.send e).on x = s.on x := rfl
@[simp] theorem State.send_bit (s : State) (e : Emission) (x : Fld) (j : Nat) : (s.send e).bit x j = s.bit x j := rfl
@[simp] theorem State.send_crd (s : State) (e : Emission) (x : Fld) : (s.send e).crd x = s.crd x := rfl
@[simp] theorem State.send_con (s : State) (e : Emission) (x : Fld) : (s.send e).con x = s.con x := rfl
@[simp] theorem State.send_cfg (s : State) (e : Emission) (x : Fld) : (s.send e).cfg x = s.cfg x := rfl
@[simp] theorem State.send_st (s : State) (e : Emission) : (s.send e).st = s.st := rfl
@[simp] theorem State.send_role (s : State) (e : Emission) : (s.send e).role = s.role := rfl
@[simp] theorem State.send_inService (s : State) (e : Emission) : (s.send e).inService = s.inService := rfl
@[simp] theorem State.send_writable (s : State) (e : Emission) : (s.send e).writable = s.writable := rfl

/-! ### setCell -/

@[simp] theorem State.setCell_pending (s : State) (id : Nat) (c : Cell) : (s.setCell id c).pending = s.pending := rfl
@[simp] theorem State.setCell_now (s : State) (id : Nat) (c : Cell) : (s.setCell id c).now = s.now := rfl
@[simp] theorem State.setCell_nowFrac (s : State) (id : Nat) (c : Cell) : (s.setCell id c).nowFrac = s.nowFrac := rfl
@[simp] theorem State.setCell_draws (s : State) (id : Nat) (c : Cell) : (s.setCell id c).draws = s.draws := rfl
@[simp] theorem State.setCell_regs (s : State) (id : Nat) (c : Cell) : (s.setCell id c).regs = s.regs := rfl
@[simp] theorem State.setCell_sent (s : State) (id : Nat) (c : Cell) : (s.setCell id c).sent = s.sent := rfl
@[simp] theorem State.setCell_sys (s : State) (id : Nat) (c : Cell) : (s.setCell id c).sys = s.sys := rfl
@[simp] theorem State.setCell_ctl (s : State) (id : Nat) (c : Cell) : (s.setCell id c).ctl = s.ctl := rfl
@[simp] theorem State.setCell_ports (s : State) (id : Nat) (c : Cell) : (s.setCell id c).ports = s.ports := rfl
@[simp] theorem State.setCell_dly (s : State) (id : Nat) (c : Cell) : (s.setCell id c).dly = s.dly := rfl
@[simp] theorem State.setCell_lvl (s : State) (id : Nat) (c : Cell) : (s.setCell id c).lvl = s.lvl := rfl
@[simp] theorem State.setCell_inp (s : State) (id : Nat) (c : Cell) : (s.setCell id c).inp = s.inp := rfl
@[simp] theorem State.setCell_tie (s : State) (id : Nat) (c : Cell) : (s.setCell id c).tie = s.tie := rfl
@[simp] theorem State.setCell_acd (s : State) (id : Nat) (c : Cell) : (s.setCell id c).acd = s.acd := rfl
@[simp] theorem State.setCell_tim (s : State) (id : Nat) (c : Cell) : (s.setCell id c).tim = s.tim := rfl
@[simp] theorem State.setCell_isl (s : State) (id : Nat) (c : Cell) : (s.setCell id c).isl = s.isl := rfl
@[simp] theorem State.setCell_flt (s : State) (id : Nat) (c : Cell) : (s.setCell id c).flt = s.flt := rfl
@[simp] theorem State.setCell_acq (s : State) (id : Nat) (c : Cell) : (s.setCell id c).acq = s.acq := rfl
@[simp] theorem State.setCell_sch (s : State) (id : Nat) (c : Cell) : (s.setCell id c).sch = s.sch := rfl
@[simp] theorem State.setCell_mem (s : State) (id : Nat) (c : Cell) : (s.setCell id c).mem = s.mem := rfl
@[simp] theorem State.setCell_hlt (s : State) (id : Nat) (c : Cell) : (s.setCell id c).hlt = s.hlt := rfl
@[simp] theorem State.setCell_od (s : State) (id : Nat) (c : Cell) : (s.setCell id c).od = s.od := rfl
@[simp] theorem State.setCell_word (s : State) (id : Nat) (c : Cell) (x : Nat) : (s.setCell id c).word x = s.word x := rfl
@[simp] theorem State.setCell_rd (s : State) (id : Nat) (c : Cell) (x : Fld) : (s.setCell id c).rd x = s.rd x := rfl
@[simp] theorem State.setCell_on (s : State) (id : Nat) (c : Cell) (x : Fld) : (s.setCell id c).on x = s.on x := rfl
@[simp] theorem State.setCell_bit (s : State) (id : Nat) (c : Cell) (x : Fld) (j : Nat) : (s.setCell id c).bit x j = s.bit x j := rfl
@[simp] theorem State.setCell_crd (s : State) (id : Nat) (c : Cell) (x : Fld) : (s.setCell id c).crd x = s.crd x := rfl
@[simp] theorem State.setCell_con (s : State) (id : Nat) (c : Cell) (x : Fld) : (s.setCell id c).con x = s.con x := rfl
@[simp] theorem State.setCell_cfg (s : State) (id : Nat) (c : Cell) (x : Fld) : (s.setCell id c).cfg x = s.cfg x := rfl
@[simp] theorem State.setCell_st (s : State) (id : Nat) (c : Cell) : (s.setCell id c).st = s.st := rfl
@[simp] theorem State.setCell_role (s : State) (id : Nat) (c : Cell) : (s.setCell id c).role = s.role := rfl
@[simp] theorem State.setCell_inService (s : State) (id : Nat) (c : Cell) : (s.setCell id c).inService = s.inService := rfl
@[simp] theorem State.setCell_writable (s : State) (id : Nat) (c : Cell) : (s.setCell id c).writable = s.writable := rfl

/-! ### onCell -/

@[simp] theorem State.onCell_pending (s : State) (id : Nat) (f : Cell → Cell) : (s.onCell id f).pending = s.pending := rfl
@[simp] theorem State.onCell_now (s : State) (id : Nat) (f : Cell → Cell) : (s.onCell id f).now = s.now := rfl
@[simp] theorem State.onCell_nowFrac (s : State) (id : Nat) (f : Cell → Cell) : (s.onCell id f).nowFrac = s.nowFrac := rfl
@[simp] theorem State.onCell_draws (s : State) (id : Nat) (f : Cell → Cell) : (s.onCell id f).draws = s.draws := rfl
@[simp] theorem State.onCell_regs (s : State) (id : Nat) (f : Cell → Cell) : (s.onCell id f).regs = s.regs := rfl
@[simp] theorem State.onCell_sent (s : State) (id : Nat) (f : Cell → Cell) : (s.onCell id f).sent = s.sent := rfl
@[simp] theorem State.onCell_sys (s : State) (id : Nat) (f : Cell → Cell) : (s.onCell id f).sys = s.sys := rfl
@[simp] theorem State.onCell_ctl (s : State) (id : Nat) (f : Cell → Cell) : (s.onCell id f).ctl = s.ctl := rfl
@[simp] theorem State.onCell_ports (s : State) (id : Nat) (f : Cell → Cell) : (s.onCell id f).ports = s.ports := rfl
@[simp] theorem State.onCell_dly (s : State) (id : Nat) (f : Cell → Cell) : (s.onCell id f).dly = s.dly := rfl
@[simp] theorem State.onCell_lvl (s : State) (id : Nat) (f : Cell → Cell) : (s.onCell id f).lvl = s.lvl := rfl
@[simp] theorem State.onCell_inp (s : State) (id : Nat) (f : Cell → Cell) : (s.onCell id f).inp = s.inp := rfl
@[simp] theorem State.onCell_tie (s : State) (id : Nat) (f : Cell → Cell) : (s.onCell id f).tie = s.tie := rfl
@[simp] theorem State.onCell_acd (s : State) (id : Nat) (f : Cell → Cell) : (s.onCell id f).acd = s.acd := rfl
@[simp] theorem State.onCell_tim (s : State) (id : Nat) (f : Cell → Cell) : (s.onCell id f).tim = s.tim := rfl
@[simp] theorem State.onCell_isl (s : State) (id : Nat) (f : Cell → Cell) : (s.onCell id f).isl = s.isl := rfl
@[simp] theorem State.onCell_flt (s : State) (id : Nat) (f : Cell → Cell) : (s.onCell id f).flt = s.flt := rfl
@[simp] theorem State.onCell_acq (s : State) (id : Nat) (f : Cell → Cell) : (s.onCell id f).acq = s.acq := rfl
@[simp] theorem State.onCell_sch (s : State) (id : Nat) (f : Cell → Cell) : (s.onCell id f).sch = s.sch := rfl
@[simp] theorem State.onCell_mem (s : State) (id : Nat) (f : Cell → Cell) : (s.onCell id f).mem = s.mem := rfl
@[simp] theorem State.onCell_hlt (s : State) (id : Nat) (f : Cell → Cell) : (s.onCell id f).hlt = s.hlt := rfl
@[simp] theorem State.onCell_od (s : State) (id : Nat) (f : Cell → Cell) : (s.onCell id f).od = s.od := rfl
@[simp] theorem State.onCell_word (s : State) (id : Nat) (f : Cell → Cell) (x : Nat) : (s.onCell id f).word x = s.word x := rfl
@[simp] theorem State.onCell_rd (s : State) (id : Nat) (f : Cell → Cell) (x : Fld) : (s.onCell id f).rd x = s.rd x := rfl
@[simp] theorem State.onCell_on (s : State) (id : Nat) (f : Cell → Cell) (x : Fld) : (s.onCell id f).on x = s.on x := rfl
@[simp] theorem State.onCell_bit (s : State) (id : Nat) (f : Cell → Cell) (x : Fld) (j : Nat) : (s.onCell id f).bit x j = s.bit x j := rfl
@[simp] theorem State.onCell_crd (s : State) (id : Nat) (f : Cell → Cell) (x : Fld) : (s.onCell id f).crd x = s.crd x := rfl
@[simp] theorem State.onCell_con (s : State) (id : Nat) (f : Cell → Cell) (x : Fld) : (s.onCell id f).con x = s.con x := rfl
@[simp] theorem State.onCell_cfg (s : State) (id : Nat) (f : Cell → Cell) (x : Fld) : (s.onCell id f).cfg x = s.cfg x := rfl
@[simp] theorem State.onCell_st (s : State) (id : Nat) (f : Cell → Cell) : (s.onCell id f).st = s.st := rfl
@[simp] theorem State.onCell_role (s : State) (id : Nat) (f : Cell → Cell) : (s.onCell id f).role = s.role := rfl
@[simp] theorem State.onCell_inService (s : State) (id : Nat) (f : Cell → Cell) : (s.onCell id f).inService = s.inService := rfl
@[simp] theorem State.onCell_writable (s : State) (id : Nat) (f : Cell → Cell) : (s.onCell id f).writable = s.writable := rfl

/-! ### setPort -/

@[simp] theorem State.setPort_pending (s : State) (p : Nat) (q : Port) : (s.setPort p q).pending = s.pending := rfl
@[simp] theorem State.setPort_now (s : State) (p : Nat) (q : Port) : (s.setPort p q).now = s.now := rfl
@[simp] theorem State.setPort_nowFrac (s : State) (p : Nat) (q : Port) : (s.setPort p q).nowFrac = s.nowFrac := rfl
@[simp] theorem State.setPort_draws (s : State) (p : Nat) (q : Port) : (s.setPort p q).draws = s.draws := rfl
@[simp] theorem State.setPort_regs (s : State) (p : Nat) (q : Port) : (s.setPort p q).regs = s.regs := rfl
@[simp] theorem State.setPort_sent (s : State) (p : Nat) (q : Port) : (s.setPort p q).sent = s.sent := rfl
@[simp] theorem State.setPort_sys (s : State) (p : Nat) (q : Port) : (s.setPort p q).sys = s.sys := rfl
@[simp] theorem State.setPort_ctl (s : State) (p : Nat) (q : Port) : (s.setPort p q).ctl = s.ctl := rfl
@[simp] theorem State.setPort_cells (s : State) (p : Nat) (q : Port) : (s.setPort p q).cells = s.cells := rfl
@[simp] theorem State.setPort_dly (s : State) (p : Nat) (q : Port) : (s.setPort p q).dly = s.dly := rfl
@[simp] theorem State.setPort_lvl (s : State) (p : Nat) (q : Port) : (s.setPort p q).lvl = s.lvl := rfl
@[simp] theorem State.setPort_inp (s : State) (p : Nat) (q : Port) : (s.setPort p q).inp = s.inp := rfl
@[simp] theorem State.setPort_tie (s : State) (p : Nat) (q : Port) : (s.setPort p q).tie = s.tie := rfl
@[simp] theorem State.setPort_acd (s : State) (p : Nat) (q : Port) : (s.setPort p q).acd = s.acd := rfl
@[simp] theorem State.setPort_tim (s : State) (p : Nat) (q : Port) : (s.setPort p q).tim = s.tim := rfl
@[simp] theorem State.setPort_isl (s : State) (p : Nat) (q : Port) : (s.setPort p q).isl = s.isl := rfl
@[simp] theorem State.setPort_flt (s : State) (p : Nat) (q : Port) : (s.setPort p q).flt = s.flt := rfl
@[simp] theorem State.setPort_acq (s : State) (p : Nat) (q : Port) : (s.setPort p q).acq = s.acq := rfl
@[simp] theorem State.setPort_sch (s : State) (p : Nat) (q : Port) : (s.setPort p q).sch = s.sch := rfl
@[simp] theorem State.setPort_mem (s : State) (p : Nat) (q : Port) : (s.setPort p q).mem = s.mem := rfl
@[simp] theorem State.setPort_hlt (s : State) (p : Nat) (q : Port) : (s.setPort p q).hlt = s.hlt := rfl
@[simp] theorem State.setPort_od (s : State) (p : Nat) (q : Port) : (s.setPort p q).od = s.od := rfl
@[simp] theorem State.setPort_word (s : State) (p : Nat) (q : Port) (x : Nat) : (s.setPort p q).word x = s.word x := rfl
@[simp] theorem State.setPort_rd (s : State) (p : Nat) (q : Port) (x : Fld) : (s.setPort p q).rd x = s.rd x := rfl
@[simp] theorem State.setPort_on (s : State) (p : Nat) (q : Port) (x : Fld) : (s.setPort p q).on x = s.on x := rfl
@[simp] theorem State.setPort_bit (s : State) (p : Nat) (q : Port) (x : Fld) (j : Nat) : (s.setPort p q).bit x j = s.bit x j := rfl
@[simp] theorem State.setPort_crd (s : State) (p : Nat) (q : Port) (x : Fld) : (s.setPort p q).crd x = s.crd x := rfl
@[simp] theorem State.setPort_con (s : State) (p : Nat) (q : Port) (x : Fld) : (s.setPort p q).con x = s.con x := rfl
@[simp] theorem State.setPort_cfg (s : State) (p : Nat) (q : Port) (x : Fld) : (s.setPort p q).cfg x = s.cfg x := rfl
@[simp] theorem State.setPort_st (s : State) (p : Nat) (q : Port) : (s.setPort p q).st = s.st := rfl
@[simp] theorem State.setPort_role (s : State) (p : Nat) (q : Port) : (s.setPort p q).role = s.role := rfl
@[simp] theorem State.setPort_inService (s : State) (p : Nat) (q : Port) : (s.setPort p q).inService = s.inService := rfl
@[simp] theorem State.setPort_writable (s : State) (p : Nat) (q : Port) : (s.setPort p q).writable = s.writable := rfl

/-! ### onPort -/

@[simp] theorem State.onPort_pending (s : State) (p : Nat) (f : Port → Port) : (s.onPort p f).pending = s.pending := rfl
@[simp] theorem State.onPort_now (s : State) (p : Nat) (f : Port → Port) : (s.onPort p f).now = s.now := rfl
@[simp] theorem State.onPort_nowFrac (s : State) (p : Nat) (f : Port → Port) : (s.onPort p f).nowFrac = s.nowFrac := rfl
@[simp] theorem State.onPort_draws (s : State) (p : Nat) (f : Port → Port) : (s.onPort p f).draws = s.draws := rfl
@[simp] theorem State.onPort_regs (s : State) (p : Nat) (f : Port → Port) : (s.onPort p f).regs = s.regs := rfl
@[simp] theorem State.onPort_sent (s : State) (p : Nat) (f : Port → Port) : (s.onPort p f).sent = s.sent := rfl
@[simp] theorem State.onPort_sys (s : State) (p : Nat) (f : Port → Port) : (s.onPort p f).sys = s.sys := rfl
@[simp] theorem State.onPort_ctl (s : State) (p : Nat) (f : Port → Port) : (s.onPort p f).ctl = s.ctl := rfl
@[simp] theorem State.onPort_cells (s : State) (p : Nat) (f : Port → Port) : (s.onPort p f).cells = s.cells := rfl
@[simp] theorem State.onPort_dly (s : State) (p : Nat) (f : Port → Port) : (s.onPort p f).dly = s.dly := rfl
@[simp] theorem State.onPort_lvl (s : State) (p : Nat) (f : Port → Port) : (s.onPort p f).lvl = s.lvl := rfl
@[simp] theorem State.onPort_inp (s : State) (p : Nat) (f : Port → Port) : (s.onPort p f).inp = s.inp := rfl
@[simp] theorem State.onPort_tie (s : State) (p : Nat) (f : Port → Port) : (s.onPort p f).tie = s.tie := rfl
@[simp] theorem State.onPort_acd (s : State) (p : Nat) (f : Port → Port) : (s.onPort p f).acd = s.acd := rfl
@[simp] theorem State.onPort_tim (s : State) (p : Nat) (f : Port → Port) : (s.onPort p f).tim = s.tim := rfl
@[simp] theorem State.onPort_isl (s : State) (p : Nat) (f : Port → Port) : (s.onPort p f).isl = s.isl := rfl
@[simp] theorem State.onPort_flt (s : State) (p : Nat) (f : Port → Port) : (s.onPort p f).flt = s.flt := rfl
@[simp] theorem State.onPort_acq (s : State) (p : Nat) (f : Port → Port) : (s.onPort p f).acq = s.acq := rfl
@[simp] theorem State.onPort_sch (s : State) (p : Nat) (f : Port → Port) : (s.onPort p f).sch = s.sch := rfl
@[simp] theorem State.onPort_mem (s : State) (p : Nat) (f : Port → Port) : (s.onPort p f).mem = s.mem := rfl
@[simp] theorem State.onPort_hlt (s : State) (p : Nat) (f : Port → Port) : (s.onPort p f).hlt = s.hlt := rfl
@[simp] theorem State.onPort_od (s : State) (p : Nat) (f : Port → Port) : (s.onPort p f).od = s.od := rfl
@[simp] theorem State.onPort_word (s : State) (p : Nat) (f : Port → Port) (x : Nat) : (s.onPort p f).word x = s.word x := rfl
@[simp] theorem State.onPort_rd (s : State) (p : Nat) (f : Port → Port) (x : Fld) : (s.onPort p f).rd x = s.rd x := rfl
@[simp] theorem State.onPort_on (s : State) (p : Nat) (f : Port → Port) (x : Fld) : (s.onPort p f).on x = s.on x := rfl
@[simp] theorem State.onPort_bit (s : State) (p : Nat) (f : Port → Port) (x : Fld) (j : Nat) : (s.onPort p f).bit x j = s.bit x j := rfl
@[simp] theorem State.onPort_crd (s : State) (p : Nat) (f : Port → Port) (x : Fld) : (s.onPort p f).crd x = s.crd x := rfl
@[simp] theorem State.onPort_con (s : State) (p : Nat) (f : Port → Port) (x : Fld) : (s.onPort p f).con x = s.con x := rfl
@[simp] theorem State.onPort_cfg (s : State) (p : Nat) (f : Port → Port) (x : Fld) : (s.onPort p f).cfg x = s.cfg x := rfl
@[simp] theorem State.onPort_st (s : State) (p : Nat) (f : Port → Port) : (s.onPort p f).st = s.st := rfl
@[simp] theorem State.onPort_role (s : State) (p : Nat) (f : Port → Port) : (s.onPort p f).role = s.role := rfl
@[simp] theorem State.onPort_inService (s : State) (p : Nat) (f : Port → Port) : (s.onPort p f).inService = s.inService := rfl
@[simp] theorem State.onPort_writable (s : State) (p : Nat) (f : Port → Port) : (s.onPort p f).writable = s.writable := rfl

/-! ### onView -/

@[simp] theorem State.onView_pending (s : State) (k : Nat) (f : View → View) : (s.onView k f).pending = s.pending := rfl
@[simp] theorem State.onView_now (s : State) (k : Nat) (f : View → View) : (s.onView k f).now = s.now := rfl
@[simp] theorem State.onView_nowFrac (s : State) (k : Nat) (f : View → View) : (s.onView k f).nowFrac = s.nowFrac := rfl
@[simp] theorem State.onView_draws (s : State) (k : Nat) (f : View → View) : (s.onView k f).draws = s.draws := rfl
@[simp] theorem State.onView_regs (s : State) (k : Nat) (f : View → View) : (s.onView k f).regs = s.regs := rfl
@[simp] theorem State.onView_sent (s : State) (k : Nat) (f : View → View) : (s.onView k f).sent = s.sent := rfl
@[simp] theorem State.onView_sys (s : State) (k : Nat) (f : View → View) : (s.onView k f).sys = s.sys := rfl
@[simp] theorem State.onView_ctl (s : State) (k : Nat) (f : View → View) : (s.onView k f).ctl = s.ctl := rfl
@[simp] theorem State.onView_cells (s : State) (k : Nat) (f : View → View) : (s.onView k f).cells = s.cells := rfl
@[simp] theorem State.onView_ports (s : State) (k : Nat) (f : View → View) : (s.onView k f).ports = s.ports := rfl
@[simp] theorem State.onView_dly (s : State) (k : Nat) (f : View → View) : (s.onView k f).dly = s.dly := rfl
@[simp] theorem State.onView_inp (s : State) (k : Nat) (f : View → View) : (s.onView k f).inp = s.inp := rfl
@[simp] theorem State.onView_tie (s : State) (k : Nat) (f : View → View) : (s.onView k f).tie = s.tie := rfl
@[simp] theorem State.onView_acd (s : State) (k : Nat) (f : View → View) : (s.onView k f).acd = s.acd := rfl
@[simp] theorem State.onView_tim (s : State) (k : Nat) (f : View → View) : (s.onView k f).tim = s.tim := rfl
@[simp] theorem State.onView_isl (s : State) (k : Nat) (f : View → View) : (s.onView k f).isl = s.isl := rfl
@[simp] theorem State.onView_flt (s : State) (k : Nat) (f : View → View) : (s.onView k f).flt = s.flt := rfl
@[simp] theorem State.onView_acq (s : State) (k : Nat) (f : View → View) : (s.onView k f).acq = s.acq := rfl
@[simp] theorem State.onView_sch (s : State) (k : Nat) (f : View → View) : (s.onView k f).sch = s.sch := rfl
@[simp] theorem State.onView_mem (s : State) (k : Nat) (f : View → View) : (s.onView k f).mem = s.mem := rfl
@[simp] theorem State.onView_hlt (s : State) (k : Nat) (f : View → View) : (s.onView k f).hlt = s.hlt := rfl
@[simp] theorem State.onView_od (s : State) (k : Nat) (f : View → View) : (s.onView k f).od = s.od := rfl
@[simp] theorem State.onView_word (s : State) (k : Nat) (f : View → View) (x : Nat) : (s.onView k f).word x = s.word x := rfl
@[simp] theorem State.onView_rd (s : State) (k : Nat) (f : View → View) (x : Fld) : (s.onView k f).rd x = s.rd x := rfl
@[simp] theorem State.onView_on (s : State) (k : Nat) (f : View → View) (x : Fld) : (s.onView k f).on x = s.on x := rfl
@[simp] theorem State.onView_bit (s : State) (k : Nat) (f : View → View) (x : Fld) (j : Nat) : (s.onView k f).bit x j = s.bit x j := rfl
@[simp] theorem State.onView_crd (s : State) (k : Nat) (f : View → View) (x : Fld) : (s.onView k f).crd x = s.crd x := rfl
@[simp] theorem State.onView_con (s : State) (k : Nat) (f : View → View) (x : Fld) : (s.onView k f).con x = s.con x := rfl
@[simp] theorem State.onView_cfg (s : State) (k : Nat) (f : View → View) (x : Fld) : (s.onView k f).cfg x = s.cfg x := rfl
@[simp] theorem State.onView_st (s : State) (k : Nat) (f : View → View) : (s.onView k f).st = s.st := rfl
@[simp] theorem State.onView_role (s : State) (k : Nat) (f : View → View) : (s.onView k f).role = s.role := rfl
@[simp] theorem State.onView_inService (s : State) (k : Nat) (f : View → View) : (s.onView k f).inService = s.inService := rfl
@[simp] theorem State.onView_writable (s : State) (k : Nat) (f : View → View) : (s.onView k f).writable = s.writable := rfl

/-! ### onDly -/

@[simp] theorem State.onDly_pending (s : State) (e : LinkEnd) (f : Dly → Dly) : (s.onDly e f).pending = s.pending := rfl
@[simp] theorem State.onDly_now (s : State) (e : LinkEnd) (f : Dly → Dly) : (s.onDly e f).now = s.now := rfl
@[simp] theorem State.onDly_nowFrac (s : State) (e : LinkEnd) (f : Dly → Dly) : (s.onDly e f).nowFrac = s.nowFrac := rfl
@[simp] theorem State.onDly_draws (s : State) (e : LinkEnd) (f : Dly → Dly) : (s.onDly e f).draws = s.draws := rfl
@[simp] theorem State.onDly_regs (s : State) (e : LinkEnd) (f : Dly → Dly) : (s.onDly e f).regs = s.regs := rfl
@[simp] theorem State.onDly_sent (s : State) (e : LinkEnd) (f : Dly → Dly) : (s.onDly e f).sent = s.sent := rfl
@[simp] theorem State.onDly_sys (s : State) (e : LinkEnd) (f : Dly → Dly) : (s.onDly e f).sys = s.sys := rfl
@[simp] theorem State.onDly_ctl (s : State) (e : LinkEnd) (f : Dly → Dly) : (s.onDly e f).ctl = s.ctl := rfl
@[simp] theorem State.onDly_cells (s : State) (e : LinkEnd) (f : Dly → Dly) : (s.onDly e f).cells = s.cells := rfl
@[simp] theorem State.onDly_ports (s : State) (e : LinkEnd) (f : Dly → Dly) : (s.onDly e f).ports = s.ports := rfl
@[simp] theorem State.onDly_lvl (s : State) (e : LinkEnd) (f : Dly → Dly) : (s.onDly e f).lvl = s.lvl := rfl
@[simp] theorem State.onDly_inp (s : State) (e : LinkEnd) (f : Dly → Dly) : (s.onDly e f).inp = s.inp := rfl
@[simp] theorem State.onDly_tie (s : State) (e : LinkEnd) (f : Dly → Dly) : (s.onDly e f).tie = s.tie := rfl
@[simp] theorem State.onDly_acd (s : State) (e : LinkEnd) (f : Dly → Dly) : (s.onDly e f).acd = s.acd := rfl
@[simp] theorem State.onDly_tim (s : State) (e : LinkEnd) (f : Dly → Dly) : (s.onDly e f).tim = s.tim := rfl
@[simp] theorem State.onDly_isl (s : State) (e : LinkEnd) (f : Dly → Dly) : (s.onDly e f).isl = s.isl := rfl
@[simp] theorem State.onDly_flt (s : State) (e : LinkEnd) (f : Dly → Dly) : (s.onDly e f).flt = s.flt := rfl
@[simp] theorem State.onDly_acq (s : State) (e : LinkEnd) (f : Dly → Dly) : (s.onDly e f).acq = s.acq := rfl
@[simp] theorem State.onDly_sch (s : State) (e : LinkEnd) (f : Dly → Dly) : (s.onDly e f).sch = s.sch := rfl
@[simp] theorem State.onDly_mem (s : State) (e : LinkEnd) (f : Dly → Dly) : (s.onDly e f).mem = s.mem := rfl
@[simp] theorem State.onDly_hlt (s : State) (e : LinkEnd) (f : Dly → Dly) : (s.onDly e f).hlt = s.hlt := rfl
@[simp] theorem State.onDly_od (s : State) (e : LinkEnd) (f : Dly → Dly) : (s.onDly e f).od = s.od := rfl
@[simp] theorem State.onDly_word (s : State) (e : LinkEnd) (f : Dly → Dly) (x : Nat) : (s.onDly e f).word x = s.word x := rfl
@[simp] theorem State.onDly_rd (s : State) (e : LinkEnd) (f : Dly → Dly) (x : Fld) : (s.onDly e f).rd x = s.rd x := rfl
@[simp] theorem State.onDly_on (s : State) (e : LinkEnd) (f : Dly → Dly) (x : Fld) : (s.onDly e f).on x = s.on x := rfl
@[simp] theorem State.onDly_bit (s : State) (e : LinkEnd) (f : Dly → Dly) (x : Fld) (j : Nat) : (s.onDly e f).bit x j = s.bit x j := rfl
@[simp] theorem State.onDly_crd (s : State) (e : LinkEnd) (f : Dly → Dly) (x : Fld) : (s.onDly e f).crd x = s.crd x := rfl
@[simp] theorem State.onDly_con (s : State) (e : LinkEnd) (f : Dly → Dly) (x : Fld) : (s.onDly e f).con x = s.con x := rfl
@[simp] theorem State.onDly_cfg (s : State) (e : LinkEnd) (f : Dly → Dly) (x : Fld) : (s.onDly e f).cfg x = s.cfg x := rfl
@[simp] theorem State.onDly_st (s : State) (e : LinkEnd) (f : Dly → Dly) : (s.onDly e f).st = s.st := rfl
@[simp] theorem State.onDly_role (s : State) (e : LinkEnd) (f : Dly → Dly) : (s.onDly e f).role = s.role := rfl
@[simp] theorem State.onDly_inService (s : State) (e : LinkEnd) (f : Dly → Dly) : (s.onDly e f).inService = s.inService := rfl
@[simp] theorem State.onDly_writable (s : State) (e : LinkEnd) (f : Dly → Dly) : (s.onDly e f).writable = s.writable := rfl

/-! ### draw -/

@[simp] theorem State.draw_pending (s : State) : s.draw.2.pending = s.pending := rfl
@[simp] theorem State.draw_now (s : State) : s.draw.2.now = s.now := rfl
@[simp] theorem State.draw_nowFrac (s : State) : s.draw.2.nowFrac = s.nowFrac := rfl
@[simp] theorem State.draw_regs (s : State) : s.draw.2.regs = s.regs := rfl
@[simp] theorem State.draw_sent (s : State) : s.draw.2.sent = s.sent := rfl
@[simp] theorem State.draw_sys (s : State) : s.draw.2.sys = s.sys := rfl
@[simp] theorem State.draw_ctl (s : State) : s.draw.2.ctl = s.ctl := rfl
@[simp] theorem State.draw_cells (s : State) : s.draw.2.cells = s.cells := rfl
@[simp] theorem State.draw_ports (s : State) : s.draw.2.ports = s.ports := rfl
@[simp] theorem State.draw_dly (s : State) : s.draw.2.dly = s.dly := rfl
@[simp] theorem State.draw_lvl (s : State) : s.draw.2.lvl = s.lvl := rfl
@[simp] theorem State.draw_inp (s : State) : s.draw.2.inp = s.inp := rfl
@[simp] theorem State.draw_tie (s : State) : s.draw.2.tie = s.tie := rfl
@[simp] theorem State.draw_acd (s : State) : s.draw.2.acd = s.acd := rfl
@[simp] theorem State.draw_tim (s : State) : s.draw.2.tim = s.tim := rfl
@[simp] theorem State.draw_isl (s : State) : s.draw.2.isl = s.isl := rfl
@[simp] theorem State.draw_flt (s : State) : s.draw.2.flt = s.flt := rfl
@[simp] theorem State.draw_acq (s : State) : s.draw.2.acq = s.acq := rfl
@[simp] theorem State.draw_sch (s : State) : s.draw.2.sch = s.sch := rfl
@[simp] theorem State.draw_mem (s : State) : s.draw.2.mem = s.mem := rfl
@[simp] theorem State.draw_hlt (s : State) : s.draw.2.hlt = s.hlt := rfl
@[simp] theorem State.draw_od (s : State) : s.draw.2.od = s.od := rfl
@[simp] theorem State.draw_draws (s : State) : s.draw.2.draws = s.draws + 1 := rfl

/-! ### A cell, a port -/

@[simp] theorem Cell.setWord_mode (c : Cell) (a v : Nat) : (c.setWord a v).mode = c.mode := rfl
@[simp] theorem Cell.setWord_down (c : Cell) (a v : Nat) : (c.setWord a v).down = c.down := rfl
@[simp] theorem Cell.setWord_stFail (c : Cell) (a v : Nat) : (c.setWord a v).stFail = c.stFail := rfl
@[simp] theorem Cell.setWord_bridge (c : Cell) (a v : Nat) : (c.setWord a v).bridge = c.bridge := rfl
@[simp] theorem Cell.setWord_cls (c : Cell) (a v : Nat) : (c.setWord a v).cls = c.cls := rfl
@[simp] theorem Cell.setWord_armed (c : Cell) (a v : Nat) : (c.setWord a v).armed = c.armed := rfl
@[simp] theorem Cell.setWord_lk (c : Cell) (a v : Nat) : (c.setWord a v).lk = c.lk := rfl
@[simp] theorem Cell.setWord_tm (c : Cell) (a v : Nat) : (c.setWord a v).tm = c.tm := rfl
@[simp] theorem Cell.setWord_pw (c : Cell) (a v : Nat) : (c.setWord a v).pw = c.pw := rfl
@[simp] theorem Cell.setWord_ad (c : Cell) (a v : Nat) : (c.setWord a v).ad = c.ad := rfl
@[simp] theorem Cell.setWord_sl (c : Cell) (a v : Nat) : (c.setWord a v).sl = c.sl := rfl
@[simp] theorem Cell.setWord_hl (c : Cell) (a v : Nat) : (c.setWord a v).hl = c.hl := rfl
@[simp] theorem Cell.wr_mode (c : Cell) (f : Fld) (v : Nat) : (c.wr f v).mode = c.mode := rfl
@[simp] theorem Cell.wr_down (c : Cell) (f : Fld) (v : Nat) : (c.wr f v).down = c.down := rfl
@[simp] theorem Cell.wr_stFail (c : Cell) (f : Fld) (v : Nat) : (c.wr f v).stFail = c.stFail := rfl
@[simp] theorem Cell.wr_bridge (c : Cell) (f : Fld) (v : Nat) : (c.wr f v).bridge = c.bridge := rfl
@[simp] theorem Cell.wr_cls (c : Cell) (f : Fld) (v : Nat) : (c.wr f v).cls = c.cls := rfl
@[simp] theorem Cell.wr_armed (c : Cell) (f : Fld) (v : Nat) : (c.wr f v).armed = c.armed := rfl
@[simp] theorem Cell.wr_lk (c : Cell) (f : Fld) (v : Nat) : (c.wr f v).lk = c.lk := rfl
@[simp] theorem Cell.wr_tm (c : Cell) (f : Fld) (v : Nat) : (c.wr f v).tm = c.tm := rfl
@[simp] theorem Cell.wr_pw (c : Cell) (f : Fld) (v : Nat) : (c.wr f v).pw = c.pw := rfl
@[simp] theorem Cell.wr_ad (c : Cell) (f : Fld) (v : Nat) : (c.wr f v).ad = c.ad := rfl
@[simp] theorem Cell.wr_sl (c : Cell) (f : Fld) (v : Nat) : (c.wr f v).sl = c.sl := rfl
@[simp] theorem Cell.wr_hl (c : Cell) (f : Fld) (v : Nat) : (c.wr f v).hl = c.hl := rfl
@[simp] theorem Cell.put_mode (c : Cell) (f : Fld) (b : Bool) : (c.put f b).mode = c.mode := rfl
@[simp] theorem Cell.put_down (c : Cell) (f : Fld) (b : Bool) : (c.put f b).down = c.down := rfl
@[simp] theorem Cell.put_stFail (c : Cell) (f : Fld) (b : Bool) : (c.put f b).stFail = c.stFail := rfl
@[simp] theorem Cell.put_bridge (c : Cell) (f : Fld) (b : Bool) : (c.put f b).bridge = c.bridge := rfl
@[simp] theorem Cell.put_cls (c : Cell) (f : Fld) (b : Bool) : (c.put f b).cls = c.cls := rfl
@[simp] theorem Cell.put_armed (c : Cell) (f : Fld) (b : Bool) : (c.put f b).armed = c.armed := rfl
@[simp] theorem Cell.put_lk (c : Cell) (f : Fld) (b : Bool) : (c.put f b).lk = c.lk := rfl
@[simp] theorem Cell.put_tm (c : Cell) (f : Fld) (b : Bool) : (c.put f b).tm = c.tm := rfl
@[simp] theorem Cell.put_pw (c : Cell) (f : Fld) (b : Bool) : (c.put f b).pw = c.pw := rfl
@[simp] theorem Cell.put_ad (c : Cell) (f : Fld) (b : Bool) : (c.put f b).ad = c.ad := rfl
@[simp] theorem Cell.put_sl (c : Cell) (f : Fld) (b : Bool) : (c.put f b).sl = c.sl := rfl
@[simp] theorem Cell.put_hl (c : Cell) (f : Fld) (b : Bool) : (c.put f b).hl = c.hl := rfl
@[simp] theorem Cell.putBit_mode (c : Cell) (f : Fld) (i : Nat) (b : Bool) : (c.putBit f i b).mode = c.mode := rfl
@[simp] theorem Cell.putBit_down (c : Cell) (f : Fld) (i : Nat) (b : Bool) : (c.putBit f i b).down = c.down := rfl
@[simp] theorem Cell.putBit_stFail (c : Cell) (f : Fld) (i : Nat) (b : Bool) : (c.putBit f i b).stFail = c.stFail := rfl
@[simp] theorem Cell.putBit_bridge (c : Cell) (f : Fld) (i : Nat) (b : Bool) : (c.putBit f i b).bridge = c.bridge := rfl
@[simp] theorem Cell.putBit_cls (c : Cell) (f : Fld) (i : Nat) (b : Bool) : (c.putBit f i b).cls = c.cls := rfl
@[simp] theorem Cell.putBit_armed (c : Cell) (f : Fld) (i : Nat) (b : Bool) : (c.putBit f i b).armed = c.armed := rfl
@[simp] theorem Cell.putBit_lk (c : Cell) (f : Fld) (i : Nat) (b : Bool) : (c.putBit f i b).lk = c.lk := rfl
@[simp] theorem Cell.putBit_tm (c : Cell) (f : Fld) (i : Nat) (b : Bool) : (c.putBit f i b).tm = c.tm := rfl
@[simp] theorem Cell.putBit_pw (c : Cell) (f : Fld) (i : Nat) (b : Bool) : (c.putBit f i b).pw = c.pw := rfl
@[simp] theorem Cell.putBit_ad (c : Cell) (f : Fld) (i : Nat) (b : Bool) : (c.putBit f i b).ad = c.ad := rfl
@[simp] theorem Cell.putBit_sl (c : Cell) (f : Fld) (i : Nat) (b : Bool) : (c.putBit f i b).sl = c.sl := rfl
@[simp] theorem Cell.putBit_hl (c : Cell) (f : Fld) (i : Nat) (b : Bool) : (c.putBit f i b).hl = c.hl := rfl
@[simp] theorem Cell.inc_mode (c : Cell) (f : Fld) (n : Nat) : (c.inc f n).mode = c.mode := rfl
@[simp] theorem Cell.inc_down (c : Cell) (f : Fld) (n : Nat) : (c.inc f n).down = c.down := rfl
@[simp] theorem Cell.inc_stFail (c : Cell) (f : Fld) (n : Nat) : (c.inc f n).stFail = c.stFail := rfl
@[simp] theorem Cell.inc_bridge (c : Cell) (f : Fld) (n : Nat) : (c.inc f n).bridge = c.bridge := rfl
@[simp] theorem Cell.inc_cls (c : Cell) (f : Fld) (n : Nat) : (c.inc f n).cls = c.cls := rfl
@[simp] theorem Cell.inc_armed (c : Cell) (f : Fld) (n : Nat) : (c.inc f n).armed = c.armed := rfl
@[simp] theorem Cell.inc_lk (c : Cell) (f : Fld) (n : Nat) : (c.inc f n).lk = c.lk := rfl
@[simp] theorem Cell.inc_tm (c : Cell) (f : Fld) (n : Nat) : (c.inc f n).tm = c.tm := rfl
@[simp] theorem Cell.inc_pw (c : Cell) (f : Fld) (n : Nat) : (c.inc f n).pw = c.pw := rfl
@[simp] theorem Cell.inc_ad (c : Cell) (f : Fld) (n : Nat) : (c.inc f n).ad = c.ad := rfl
@[simp] theorem Cell.inc_sl (c : Cell) (f : Fld) (n : Nat) : (c.inc f n).sl = c.sl := rfl
@[simp] theorem Cell.inc_hl (c : Cell) (f : Fld) (n : Nat) : (c.inc f n).hl = c.hl := rfl

@[simp] theorem State.cell_setCell (s : State) (id : Nat) (c : Cell) : (s.setCell id c).cell id = c := by
  simp [State.cell, State.setCell, mapGet_mapSet_same]

@[simp] theorem State.cell_onCell (s : State) (id : Nat) (f : Cell → Cell) : (s.onCell id f).cell id = f (s.cell id) := by
  simp [State.onCell]

theorem State.cell_setCell_ne (s : State) (id i : Nat) (c : Cell) (h : homeKey i ≠ homeKey id) :
    (s.setCell id c).cell i = s.cell i := by simp [State.cell, State.setCell, mapGet_mapSet_ne _ _ _ _ _ h]

@[simp] theorem State.port_setPort (s : State) (p : Nat) (x : Port) : (s.setPort p x).port p = x := by
  simp [State.port, State.setPort, mapGet_mapSet_same]

@[simp] theorem State.port_onPort (s : State) (p : Nat) (f : Port → Port) : (s.onPort p f).port p = f (s.port p) := by
  simp [State.onPort]

theorem State.port_setPort_ne (s : State) (p q : Nat) (x : Port) (h : q ≠ p) : (s.setPort p x).port q = s.port q := by
  simp [State.port, State.setPort, mapGet_mapSet_ne _ _ _ _ _ h]

/-! ### The combinators -/

@[simp] theorem State.when_true (s : State) (f : State → State) : s.when true f = f s := rfl

@[simp] theorem State.when_false (s : State) (f : State → State) : s.when false f = s := rfl

/-- A closed property survives a change made where a condition holds. -/
theorem State.when_keeps (P : State → Prop) (s : State) (c : Bool) (f : State → State) (hs : P s) (hf : P (f s)) :
    P (s.when c f) := by cases c <;> assumption

/-- A property that every single change keeps survives a loop over a list. -/
theorem State.forL_keeps {α : Type} (P : State → Prop) (l : List α) (f : α → State → State)
    (hf : ∀ a ∈ l, ∀ s, P s → P (f a s)) (s : State) (hs : P s) : P (s.forL l f) := by
  induction l generalizing s with
  | nil => exact hs
  | cons a l ih =>
    exact ih (fun b hb t ht => hf b (List.mem_cons_of_mem _ hb) t ht) (f a s) (hf a (by simp) s hs)

theorem State.forN_keeps (P : State → Prop) (n : Nat) (f : Nat → State → State)
    (hf : ∀ i, i < n → ∀ s, P s → P (f i s)) (s : State) (hs : P s) : P (s.forN n f) :=
  State.forL_keeps P (upto n) f (fun i hi => hf i (by simpa [upto] using hi)) s hs

theorem State.foldl_keeps {α : Type} (P : State → Prop) (l : List α) (f : State → α → State)
    (hf : ∀ s a, P s → P (f s a)) (s : State) (hs : P s) : P (l.foldl f s) := by
  induction l generalizing s with
  | nil => exact hs
  | cons a l ih => exact ih (f s a) (hf s a hs)

end Sys2Proof.Machine
end

