-- ==== Sys2Proof/Laws/Keeps.lean ====
section
/-! SUPPORT. What every shared operation keeps: the queue, the parts of the state outside its footprint, and the canonical
form of the register bank, the cells and the memory. One lemma per operation; a meaning follows from those it calls. -/

namespace Sys2Proof.Machine

/-- From `s` to `t` only the parts in `F` may differ, and the canonical form is kept. -/
def Keeps (F : List Part) (s t : State) : Prop := Agrees F s t ∧ (s.Canonical → t.Canonical)

variable {F : List Part} {z s : State}

theorem Keeps.refl (F : List Part) (s : State) : Keeps F s s := ⟨⟨rfl, fun p _ => by cases p <;> rfl⟩, id⟩

/-- One more change, of one part in `F`. -/
theorem Keeps.step {t : State} (h : Keeps F z s) (q : Part) (hq : q ∈ F) (hp : t.pending = s.pending)
    (hs : ∀ p, p ≠ q → p.same s t) (hc : s.Canonical → t.Canonical) : Keeps F z t := by
  refine ⟨⟨hp.trans h.1.1, fun p hF => ?_⟩, hc ∘ h.2⟩
  have h1 := h.1.2 p hF
  have h2 := hs p (fun e => hF (e ▸ hq))
  cases p <;> exact h2.trans h1

/-- Where every part may differ, only the queue and the canonical form are left to show. -/
theorem keeps_all {t : State} (hF : allParts ⊆ F) (h : Keeps F z s) (hp : t.pending = s.pending)
    (hc : s.Canonical → t.Canonical) : Keeps F z t :=
  ⟨⟨hp.trans h.1.1, fun p hn => absurd (hF (by cases p <;> decide)) hn⟩, hc ∘ h.2⟩

theorem keeps_setWord (a v : Nat) (hF : [.regs] ⊆ F) (h : Keeps F z s) : Keeps F z (s.setWord a v) :=
  h.step .regs (hF (by simp)) rfl (by intro p hp; cases p <;> first | rfl | exact absurd rfl hp) (fun c => ⟨mapWf_mapSet _ _ _ _ c.1, c.2⟩)

theorem keeps_setCell (i : Nat) (c : Cell) (hF : [.cells] ⊆ F) (h : Keeps F z s) : Keeps F z (s.setCell i c) :=
  h.step .cells (hF (by simp)) rfl (by intro p hp; cases p <;> first | rfl | exact absurd rfl hp) (fun c => ⟨c.1, mapWf_mapSet _ _ _ _ c.2.1, c.2.2⟩)

theorem keeps_storeByte (a : Nat) (b : Byte) (hF : [.mem] ⊆ F) (h : Keeps F z s) : Keeps F z (s.storeByte a b) :=
  h.step .mem (hF (by simp)) rfl (by intro p hp; cases p <;> first | rfl | exact absurd rfl hp) (fun c => ⟨c.1, c.2.1, mapWf_mapSet _ _ _ _ c.2.2⟩)

theorem keeps_draw  (hF : [.draws] ⊆ F) (h : Keeps F z s) : Keeps F z (s.draw.2) :=
  h.step .draws (hF (by simp)) rfl (by intro p hp; cases p <;> first | rfl | exact absurd rfl hp) (fun c => c)

theorem keeps_when (c : Bool) (f : State → State) (h : Keeps F z s) (hf : ∀ s, Keeps F z s → Keeps F z (f s)) :
    Keeps F z (s.when c f) := by
  cases c
  · exact h
  · exact hf s h

theorem keeps_forL {α : Type} (l : List α) (f : α → State → State) (h : Keeps F z s)
    (hf : ∀ a s, Keeps F z s → Keeps F z (f a s)) : Keeps F z (s.forL l f) :=
  State.forL_keeps (Keeps F z) l f (fun a _ s hs => hf a s hs) s h

theorem keeps_forN (n : Nat) (f : Nat → State → State) (h : Keeps F z s)
    (hf : ∀ a s, Keeps F z s → Keeps F z (f a s)) : Keeps F z (s.forN n f) := keeps_forL _ f h hf

theorem keeps_foldl {α : Type} (l : List α) (f : State → α → State) (h : Keeps F z s)
    (hf : ∀ s a, Keeps F z s → Keeps F z (f s a)) : Keeps F z (l.foldl f s) :=
  State.foldl_keeps (Keeps F z) l f hf s h

theorem keeps_ite {c : Prop} [Decidable c] {a b : State} (ha : c → Keeps F z a) (hb : ¬ c → Keeps F z b) :
    Keeps F z (if c then a else b) := by
  by_cases h : c
  · rw [if_pos h]; exact ha h
  · rw [if_neg h]; exact hb h

theorem keeps_foldl_fst {α β : Type} (l : List α) (f : State × β → α → State × β) (x : State × β) (h : Keeps F z x.1)
    (hf : ∀ x a, Keeps F z x.1 → Keeps F z (f x a).1) : Keeps F z (l.foldl f x).1 := by
  induction l generalizing x with
  | nil => exact h
  | cons a l ih => exact ih _ (hf x a h)

theorem keeps_optmap {α : Type} (o : Option α) (f : α → State) (h : Keeps F z s) (hf : ∀ a, Keeps F z (f a)) :
    Keeps F z ((o.map f).getD s) := by
  cases o with
  | none => exact h
  | some a => exact hf a

theorem keeps_ite_fst {α : Type} {c : Prop} [Decidable c] {a b : State × α} (ha : c → Keeps F z a.1) (hb : ¬ c → Keeps F z b.1) :
    Keeps F z (if c then a else b).1 := by
  by_cases h : c
  · rw [if_pos h]; exact ha h
  · rw [if_neg h]; exact hb h

theorem keeps_ite_snd {α : Type} {c : Prop} [Decidable c] {a b : α × State} (ha : c → Keeps F z a.2) (hb : ¬ c → Keeps F z b.2) :
    Keeps F z (if c then a else b).2 := by
  by_cases h : c
  · rw [if_pos h]; exact ha h
  · rw [if_neg h]; exact hb h

theorem keeps_fst {α : Type} {x : State × α} {t : State} {y : α} (h : Keeps F z x.1) (e : x = (t, y)) : Keeps F z t := by
  rw [e] at h; exact h

theorem keeps_snd {α : Type} {x : α × State} {t : State} {y : α} (h : Keeps F z x.2) (e : x = (y, t)) : Keeps F z t := by
  rw [e] at h; exact h

/-- `Keeps` of a state written out field by field. -/
def KeepsLit (F : List Part) (s t : State) : Prop := Keeps F s t

theorem keeps_lit (pending0 : List Instr) (now0 : Nat) (nowFrac0 : Nat) (draws0 : Nat) (regs0 : NMap Word) (sent0 : List Emission) (sys0 : Sys) (ctl0 : Ctl) (cells0 : NMap Cell) (ports0 : NMap Port) (dly0 : NMap Dly) (lvl0 : Lvl) (inp0 : Inp) (tie0 : Tie) (acd0 : Acd) (tim0 : Tim) (isl0 : Isl) (flt0 : Flt) (acq0 : Acq) (sch0 : Sch) (mem0 : Mem) (hlt0 : Hlt) (od0 : Od) :
    Keeps F z (State.mk pending0 now0 nowFrac0 draws0 regs0 sent0 sys0 ctl0 cells0 ports0 dly0 lvl0 inp0 tie0 acd0 tim0 isl0 flt0 acq0 sch0 mem0 hlt0 od0) = KeepsLit F z (State.mk pending0 now0 nowFrac0 draws0 regs0 sent0 sys0 ctl0 cells0 ports0 dly0 lvl0 inp0 tie0 acd0 tim0 isl0 flt0 acq0 sch0 mem0 hlt0 od0) := rfl

/-- A record update keeps what its parts keep. -/
theorem keeps_mk {pending0 : List Instr} {now0 : Nat} {nowFrac0 : Nat} {draws0 : Nat} {regs0 : NMap Word} {sent0 : List Emission} {sys0 : Sys} {ctl0 : Ctl} {cells0 : NMap Cell} {ports0 : NMap Port} {dly0 : NMap Dly} {lvl0 : Lvl} {inp0 : Inp} {tie0 : Tie} {acd0 : Acd} {tim0 : Tim} {isl0 : Isl} {flt0 : Flt} {acq0 : Acq} {sch0 : Sch} {mem0 : Mem} {hlt0 : Hlt} {od0 : Od}
    (h : Keeps F z s) (hpending : pending0 = s.pending) (hregs : regs0 = s.regs) (hcells : cells0 = s.cells)
    (hnow : .now ∈ F ∨ now0 = s.now)
    (hnowFrac : .nowFrac ∈ F ∨ nowFrac0 = s.nowFrac)
    (hdraws : .draws ∈ F ∨ draws0 = s.draws)
    (hsent : .sent ∈ F ∨ sent0 = s.sent)
    (hsys : .sys ∈ F ∨ sys0 = s.sys)
    (hctl : .ctl ∈ F ∨ ctl0 = s.ctl)
    (hports : .ports ∈ F ∨ ports0 = s.ports)
    (hdly : .dly ∈ F ∨ dly0 = s.dly)
    (hlvl : .lvl ∈ F ∨ lvl0 = s.lvl)
    (hinp : .inp ∈ F ∨ inp0 = s.inp)
    (htie : .tie ∈ F ∨ tie0 = s.tie)
    (hacd : .acd ∈ F ∨ acd0 = s.acd)
    (htim : .tim ∈ F ∨ tim0 = s.tim)
    (hisl : .isl ∈ F ∨ isl0 = s.isl)
    (hflt : .flt ∈ F ∨ flt0 = s.flt)
    (hacq : .acq ∈ F ∨ acq0 = s.acq)
    (hsch : .sch ∈ F ∨ sch0 = s.sch)
    (hmem : .mem ∈ F ∨ mem0 = s.mem)
    (hhlt : .hlt ∈ F ∨ hlt0 = s.hlt)
    (hod : .od ∈ F ∨ od0 = s.od)
    (hb : mem0.bytes = s.mem.bytes) :
    KeepsLit F z (State.mk pending0 now0 nowFrac0 draws0 regs0 sent0 sys0 ctl0 cells0 ports0 dly0 lvl0 inp0 tie0 acd0 tim0 isl0 flt0 acq0 sch0 mem0 hlt0 od0) := by
  refine ⟨⟨hpending.trans h.1.1, fun p hp => ?_⟩, fun c => ?_⟩
  · cases p with
      | now => exact (hnow.resolve_left hp).trans (h.1.2 .now hp)
      | nowFrac => exact (hnowFrac.resolve_left hp).trans (h.1.2 .nowFrac hp)
      | draws => exact (hdraws.resolve_left hp).trans (h.1.2 .draws hp)
      | regs => exact hregs.trans (h.1.2 .regs hp)
      | sent => exact (hsent.resolve_left hp).trans (h.1.2 .sent hp)
      | sys => exact (hsys.resolve_left hp).trans (h.1.2 .sys hp)
      | ctl => exact (hctl.resolve_left hp).trans (h.1.2 .ctl hp)
      | cells => exact hcells.trans (h.1.2 .cells hp)
      | ports => exact (hports.resolve_left hp).trans (h.1.2 .ports hp)
      | dly => exact (hdly.resolve_left hp).trans (h.1.2 .dly hp)
      | lvl => exact (hlvl.resolve_left hp).trans (h.1.2 .lvl hp)
      | inp => exact (hinp.resolve_left hp).trans (h.1.2 .inp hp)
      | tie => exact (htie.resolve_left hp).trans (h.1.2 .tie hp)
      | acd => exact (hacd.resolve_left hp).trans (h.1.2 .acd hp)
      | tim => exact (htim.resolve_left hp).trans (h.1.2 .tim hp)
      | isl => exact (hisl.resolve_left hp).trans (h.1.2 .isl hp)
      | flt => exact (hflt.resolve_left hp).trans (h.1.2 .flt hp)
      | acq => exact (hacq.resolve_left hp).trans (h.1.2 .acq hp)
      | sch => exact (hsch.resolve_left hp).trans (h.1.2 .sch hp)
      | mem => exact (hmem.resolve_left hp).trans (h.1.2 .mem hp)
      | hlt => exact (hhlt.resolve_left hp).trans (h.1.2 .hlt hp)
      | od => exact (hod.resolve_left hp).trans (h.1.2 .od hp)
  · have := h.2 c
    subst hregs hcells
    exact ⟨this.1, this.2.1, by show mapWf memDefault mem0.bytes = true; rw [hb]; exact this.2.2⟩


end Sys2Proof.Machine
end

