-- ==== Sys2Proof/Laws/KeepsOps.lean ====
section
/-! SUPPORT. What the shared operations, transitions, the collector and the inputs keep, one lemma per operation. -/

namespace Sys2Proof.Machine

variable {F : List Part} {z : State}

theorem keeps_wr (s : State) (a1) (a2) (hF : [.regs] ⊆ F) (hs : Keeps F z s) :
    Keeps F z (State.wr s a1 a2) := by
  unfold State.wr
  repeat' first
    | with_reducible assumption
    | with_reducible apply keeps_setWord

theorem keeps_put (s : State) (a1) (a2) (hF : [.regs] ⊆ F) (hs : Keeps F z s) :
    Keeps F z (State.put s a1 a2) := by
  unfold State.put
  repeat' first
    | with_reducible assumption
    | with_reducible apply keeps_wr

theorem keeps_putBit (s : State) (a1) (a2) (a3) (hF : [.regs] ⊆ F) (hs : Keeps F z s) :
    Keeps F z (State.putBit s a1 a2 a3) := by
  unfold State.putBit
  repeat' first
    | with_reducible assumption
    | with_reducible apply keeps_wr

theorem keeps_inc (s : State) (a1) (a2) (hF : [.regs] ⊆ F) (hs : Keeps F z s) :
    Keeps F z (State.inc s a1 a2) := by
  unfold State.inc
  repeat' first
    | with_reducible assumption
    | with_reducible apply keeps_wr

theorem keeps_incMod (s : State) (a1) (a2) (hF : [.regs] ⊆ F) (hs : Keeps F z s) :
    Keeps F z (State.incMod s a1 a2) := by
  unfold State.incMod
  repeat' first
    | with_reducible assumption
    | with_reducible apply keeps_wr

theorem keeps_send (s : State) (a1) (hF : [.sent] ⊆ F) (hs : Keeps F z s) :
    Keeps F z (State.send s a1) := by
  unfold State.send
  repeat' first
    | with_reducible assumption
    | exact List.Subset.trans (by decide) hF
    | exact Or.inl (hF (by decide))
    | with_reducible exact Or.inr rfl
    | with_reducible rfl
    | simp only [keeps_lit]
    | (with_reducible refine keeps_mk ?_ rfl rfl rfl ?_ ?_ ?_ ?_ ?_ ?_ ?_ ?_ ?_ ?_ ?_ ?_ ?_ ?_ ?_ ?_ ?_ ?_ ?_ ?_ ?_)

theorem keeps_sendTie (s : State) (a1) (a2) (a3) (hF : [.sent] ⊆ F) (hs : Keeps F z s) :
    Keeps F z (State.sendTie s a1 a2 a3) := by
  unfold State.sendTie
  repeat' first
    | with_reducible assumption
    | with_reducible apply keeps_send
    | exact List.Subset.trans (by decide) hF
    | with_reducible apply keeps_ite
    | (intro _)

theorem keeps_sendBlockSets (s : State) (hF : [.sent] ⊆ F) (hs : Keeps F z s) :
    Keeps F z (State.sendBlockSets s) := by
  unfold State.sendBlockSets
  repeat' first
    | with_reducible assumption
    | with_reducible apply keeps_forL
    | with_reducible apply keeps_send
    | exact List.Subset.trans (by decide) hF
    | with_reducible apply keeps_ite
    | (intro _)

theorem keeps_summarise (s : State) (hF : [.regs] ⊆ F) (hs : Keeps F z s) :
    Keeps F z (State.summarise s) := by
  unfold State.summarise
  repeat' first
    | with_reducible assumption
    | with_reducible apply keeps_put
    | with_reducible apply keeps_wr

theorem keeps_storeBytes (s : State) (a : Nat) (b : List Byte) (hF : [.mem] ⊆ F) (h : Keeps F z s) :
    Keeps F z (s.storeBytes a b) := by
  induction b generalizing s a with
  | nil => exact h
  | cons x r ih => exact ih _ _ (keeps_storeByte _ _ hF h)

theorem keeps_store32 (s : State) (a1) (a2) (hF : [.mem] ⊆ F) (hs : Keeps F z s) :
    Keeps F z (State.store32 s a1 a2) := by
  unfold State.store32
  repeat' first
    | with_reducible assumption
    | with_reducible apply keeps_storeBytes

theorem keeps_setAqs (s : State) (a1) (hF : [.regs] ⊆ F) (hs : Keeps F z s) :
    Keeps F z (State.setAqs s a1) := by
  unfold State.setAqs
  repeat' first
    | with_reducible assumption
    | with_reducible apply keeps_wr

theorem keeps_copyRows (s : State) (hF : [.acq, .mem] ⊆ F) (hs : Keeps F z s) :
    Keeps F z (State.copyRows s) := by
  unfold State.copyRows
  repeat' first
    | with_reducible assumption
    | with_reducible apply keeps_forN
    | with_reducible apply keeps_storeBytes
    | exact List.Subset.trans (by decide) hF
    | exact Or.inl (hF (by decide))
    | with_reducible exact Or.inr rfl
    | with_reducible rfl
    | simp only [keeps_lit]
    | (with_reducible refine keeps_mk ?_ rfl rfl rfl ?_ ?_ ?_ ?_ ?_ ?_ ?_ ?_ ?_ ?_ ?_ ?_ ?_ ?_ ?_ ?_ ?_ ?_ ?_ ?_ ?_)
    | exact Or.inr rfl
    | rfl
    | with_reducible apply keeps_ite
    | (intro _)
    | with_reducible apply keeps_foldl
    | with_reducible apply keeps_foldl_fst
    | with_reducible apply keeps_optmap
    | split

theorem keeps_finishRecord (s : State) (a1) (a2) (hF : [.regs, .acq, .mem] ⊆ F) (hs : Keeps F z s) :
    Keeps F z (State.finishRecord s a1 a2) := by
  unfold State.finishRecord
  repeat' first
    | with_reducible assumption
    | with_reducible apply keeps_storeBytes
    | with_reducible apply keeps_inc
    | with_reducible apply keeps_wr
    | with_reducible apply keeps_when
    | with_reducible apply keeps_put
    | exact List.Subset.trans (by decide) hF
    | exact Or.inl (hF (by decide))
    | with_reducible exact Or.inr rfl
    | with_reducible rfl
    | simp only [keeps_lit]
    | (with_reducible refine keeps_mk ?_ rfl rfl rfl ?_ ?_ ?_ ?_ ?_ ?_ ?_ ?_ ?_ ?_ ?_ ?_ ?_ ?_ ?_ ?_ ?_ ?_ ?_ ?_ ?_)
    | exact Or.inr rfl
    | rfl
    | with_reducible apply keeps_ite
    | (intro _)

theorem keeps_acqStop (s : State) (hF : [.regs, .acq, .mem] ⊆ F) (hs : Keeps F z s) :
    Keeps F z (State.acqStop s) := by
  unfold State.acqStop
  repeat' first
    | with_reducible assumption
    | with_reducible apply keeps_finishRecord
    | with_reducible apply keeps_setAqs
    | exact List.Subset.trans (by decide) hF
    | exact Or.inl (hF (by decide))
    | with_reducible exact Or.inr rfl
    | with_reducible rfl
    | simp only [keeps_lit]
    | (with_reducible refine keeps_mk ?_ rfl rfl rfl ?_ ?_ ?_ ?_ ?_ ?_ ?_ ?_ ?_ ?_ ?_ ?_ ?_ ?_ ?_ ?_ ?_ ?_ ?_ ?_ ?_)
    | exact Or.inr rfl
    | rfl
    | with_reducible apply keeps_ite
    | (intro _)
    | with_reducible apply keeps_foldl
    | with_reducible apply keeps_foldl_fst
    | with_reducible apply keeps_optmap
    | split

theorem keeps_goto (s : State) (a1) (a2) (a3) (hF : [.regs, .sent] ⊆ F) (hs : Keeps F z s) :
    Keeps F z (State.goto s a1 a2 a3) := by
  unfold State.goto
  repeat' first
    | with_reducible assumption
    | with_reducible apply keeps_wr
    | with_reducible apply keeps_when
    | with_reducible apply keeps_sendBlockSets
    | exact List.Subset.trans (by decide) hF
    | with_reducible apply keeps_ite
    | (intro _)

theorem keeps_refuse (s : State) (a1) (a2) (hF : [.regs] ⊆ F) (hs : Keeps F z s) :
    Keeps F z (State.refuse s a1 a2) := by
  unfold State.refuse
  repeat' first
    | with_reducible assumption
    | with_reducible apply keeps_wr

theorem keeps_endDry (s : State) (hF : [.regs] ⊆ F) (hs : Keeps F z s) :
    Keeps F z (State.endDry s) := by
  unfold State.endDry
  repeat' first
    | with_reducible assumption
    | with_reducible apply keeps_wr
    | with_reducible apply keeps_put
    | exact List.Subset.trans (by decide) hF
    | with_reducible apply keeps_ite
    | (intro _)

theorem keeps_dropPending (s : State) (a1) (hF : [.regs, .sys] ⊆ F) (hs : Keeps F z s) :
    Keeps F z (State.dropPending s a1) := by
  unfold State.dropPending
  repeat' first
    | with_reducible assumption
    | with_reducible apply keeps_put
    | with_reducible apply keeps_refuse
    | exact List.Subset.trans (by decide) hF
    | exact Or.inl (hF (by decide))
    | with_reducible exact Or.inr rfl
    | with_reducible rfl
    | simp only [keeps_lit]
    | (with_reducible refine keeps_mk ?_ rfl rfl rfl ?_ ?_ ?_ ?_ ?_ ?_ ?_ ?_ ?_ ?_ ?_ ?_ ?_ ?_ ?_ ?_ ?_ ?_ ?_ ?_ ?_)
    | exact Or.inr rfl
    | rfl
    | with_reducible apply keeps_ite
    | (intro _)
    | with_reducible apply keeps_foldl
    | with_reducible apply keeps_foldl_fst
    | with_reducible apply keeps_optmap
    | split

theorem keeps_faultBlock (s : State) (a1) (hF : [.regs, .sent, .sys] ⊆ F) (hs : Keeps F z s) :
    Keeps F z (State.faultBlock s a1) := by
  unfold State.faultBlock
  repeat' first
    | with_reducible assumption
    | with_reducible apply keeps_goto
    | with_reducible apply keeps_endDry
    | with_reducible apply keeps_dropPending
    | exact List.Subset.trans (by decide) hF
    | with_reducible apply keeps_ite
    | (intro _)

theorem keeps_driveYield (s : State) (hF : [.regs] ⊆ F) (hs : Keeps F z s) :
    Keeps F z (State.driveYield s) := by
  unfold State.driveYield
  repeat' first
    | with_reducible assumption
    | with_reducible apply keeps_put

theorem keeps_takeRole (s : State) (a1) (hF : [.regs, .tie] ⊆ F) (hs : Keeps F z s) :
    Keeps F z (State.takeRole s a1) := by
  unfold State.takeRole
  repeat' first
    | with_reducible assumption
    | with_reducible apply keeps_driveYield
    | with_reducible apply keeps_wr
    | exact List.Subset.trans (by decide) hF
    | exact Or.inl (hF (by decide))
    | with_reducible exact Or.inr rfl
    | with_reducible rfl
    | simp only [keeps_lit]
    | (with_reducible refine keeps_mk ?_ rfl rfl rfl ?_ ?_ ?_ ?_ ?_ ?_ ?_ ?_ ?_ ?_ ?_ ?_ ?_ ?_ ?_ ?_ ?_ ?_ ?_ ?_ ?_)

theorem keeps_yield (s : State) (hF : [.regs, .sent, .tie, .acq, .mem] ⊆ F) (hs : Keeps F z s) :
    Keeps F z (State.yield s) := by
  unfold State.yield
  repeat' first
    | with_reducible assumption
    | with_reducible apply keeps_when
    | with_reducible apply keeps_put
    | with_reducible apply keeps_wr
    | with_reducible apply keeps_acqStop
    | with_reducible apply keeps_sendTie
    | exact List.Subset.trans (by decide) hF
    | exact Or.inl (hF (by decide))
    | with_reducible exact Or.inr rfl
    | with_reducible rfl
    | simp only [keeps_lit]
    | (with_reducible refine keeps_mk ?_ rfl rfl rfl ?_ ?_ ?_ ?_ ?_ ?_ ?_ ?_ ?_ ?_ ?_ ?_ ?_ ?_ ?_ ?_ ?_ ?_ ?_ ?_ ?_)
    | exact Or.inr rfl
    | rfl
    | with_reducible apply keeps_ite
    | (intro _)

theorem keeps_lock (s : State) (hF : [.regs, .sent, .sys, .tie, .acq, .mem] ⊆ F) (hs : Keeps F z s) :
    Keeps F z (State.lock s) := by
  unfold State.lock
  repeat' first
    | with_reducible assumption
    | with_reducible apply keeps_put
    | with_reducible apply keeps_when
    | with_reducible apply keeps_endDry
    | with_reducible apply keeps_dropPending
    | with_reducible apply keeps_acqStop
    | with_reducible apply keeps_goto
    | with_reducible apply keeps_yield
    | exact List.Subset.trans (by decide) hF
    | exact Or.inl (hF (by decide))
    | with_reducible exact Or.inr rfl
    | with_reducible rfl
    | simp only [keeps_lit]
    | (with_reducible refine keeps_mk ?_ rfl rfl rfl ?_ ?_ ?_ ?_ ?_ ?_ ?_ ?_ ?_ ?_ ?_ ?_ ?_ ?_ ?_ ?_ ?_ ?_ ?_ ?_ ?_)
    | exact Or.inr rfl
    | rfl
    | with_reducible apply keeps_ite
    | (intro _)

theorem keeps_setHist (s : State) (a1) (a2) (hF : [.flt] ⊆ F) (hs : Keeps F z s) :
    Keeps F z (State.setHist s a1 a2) := by
  unfold State.setHist
  repeat' first
    | with_reducible assumption
    | exact List.Subset.trans (by decide) hF
    | exact Or.inl (hF (by decide))
    | with_reducible exact Or.inr rfl
    | with_reducible rfl
    | simp only [keeps_lit]
    | (with_reducible refine keeps_mk ?_ rfl rfl rfl ?_ ?_ ?_ ?_ ?_ ?_ ?_ ?_ ?_ ?_ ?_ ?_ ?_ ?_ ?_ ?_ ?_ ?_ ?_ ?_ ?_)

theorem keeps_fltEvent (s : State) (a1) (hF : [.regs, .flt] ⊆ F) (hs : Keeps F z s) :
    Keeps F z (State.fltEvent s a1) := by
  unfold State.fltEvent
  repeat' first
    | with_reducible assumption
    | with_reducible apply keeps_setHist
    | with_reducible apply keeps_inc
    | with_reducible apply keeps_wr
    | with_reducible apply keeps_putBit
    | with_reducible apply keeps_when
    | with_reducible apply keeps_put
    | exact List.Subset.trans (by decide) hF
    | exact Or.inl (hF (by decide))
    | with_reducible exact Or.inr rfl
    | with_reducible rfl
    | simp only [keeps_lit]
    | (with_reducible refine keeps_mk ?_ rfl rfl rfl ?_ ?_ ?_ ?_ ?_ ?_ ?_ ?_ ?_ ?_ ?_ ?_ ?_ ?_ ?_ ?_ ?_ ?_ ?_ ?_ ?_)
    | exact Or.inr rfl
    | rfl
    | with_reducible apply keeps_ite
    | (intro _)

theorem keeps_capture (s : State) (a1) (hF : [.regs, .flt] ⊆ F) (hs : Keeps F z s) :
    Keeps F z (State.capture s a1) := by
  unfold State.capture
  repeat' first
    | with_reducible assumption
    | with_reducible apply keeps_put
    | with_reducible apply keeps_wr
    | with_reducible apply keeps_when
    | with_reducible apply keeps_inc
    | exact List.Subset.trans (by decide) hF
    | exact Or.inl (hF (by decide))
    | with_reducible exact Or.inr rfl
    | with_reducible rfl
    | simp only [keeps_lit]
    | (with_reducible refine keeps_mk ?_ rfl rfl rfl ?_ ?_ ?_ ?_ ?_ ?_ ?_ ?_ ?_ ?_ ?_ ?_ ?_ ?_ ?_ ?_ ?_ ?_ ?_ ?_ ?_)
    | exact Or.inr rfl
    | rfl
    | with_reducible apply keeps_ite
    | (intro _)
    | with_reducible apply keeps_foldl
    | with_reducible apply keeps_foldl_fst
    | with_reducible apply keeps_optmap
    | split

theorem keeps_selfDiagnosisFails (s : State) (hF : [.regs, .tie] ⊆ F) (hs : Keeps F z s) :
    Keeps F z (State.selfDiagnosisFails s) := by
  unfold State.selfDiagnosisFails
  repeat' first
    | with_reducible assumption
    | with_reducible apply keeps_put
    | exact List.Subset.trans (by decide) hF
    | exact Or.inl (hF (by decide))
    | with_reducible exact Or.inr rfl
    | with_reducible rfl
    | simp only [keeps_lit]
    | (with_reducible refine keeps_mk ?_ rfl rfl rfl ?_ ?_ ?_ ?_ ?_ ?_ ?_ ?_ ?_ ?_ ?_ ?_ ?_ ?_ ?_ ?_ ?_ ?_ ?_ ?_ ?_)

theorem keeps_react (s : State) (a1) (a2) (hF : [.regs, .sent, .sys, .tie, .acq, .mem] ⊆ F) (hs : Keeps F z s) :
    Keeps F z (State.react s a1 a2) := by
  unfold State.react
  repeat' first
    | with_reducible assumption
    | with_reducible apply keeps_when
    | with_reducible apply keeps_faultBlock
    | with_reducible apply keeps_lock
    | with_reducible apply keeps_put
    | with_reducible apply keeps_yield
    | with_reducible apply keeps_selfDiagnosisFails
    | exact List.Subset.trans (by decide) hF
    | with_reducible apply keeps_ite
    | (intro _)
    | with_reducible apply keeps_foldl
    | with_reducible apply keeps_foldl_fst
    | with_reducible apply keeps_optmap
    | split

theorem keeps_raiseAll (s : State) (a1) (hF : [.regs, .sent, .sys, .tie, .flt, .acq, .mem] ⊆ F) (hs : Keeps F z s) :
    Keeps F z (State.raiseAll s a1) := by
  unfold State.raiseAll
  repeat' first
    | with_reducible assumption
    | with_reducible apply keeps_forL
    | with_reducible apply keeps_fltEvent
    | with_reducible apply keeps_when
    | with_reducible apply keeps_putBit
    | with_reducible apply keeps_capture
    | with_reducible apply keeps_summarise
    | with_reducible apply keeps_react
    | exact List.Subset.trans (by decide) hF
    | with_reducible apply keeps_ite
    | (intro _)

theorem keeps_raiseAt (s : State) (a1) (a2) (a3) (a4) (hF : [.regs, .sent, .sys, .tie, .flt, .acq, .mem] ⊆ F) (hs : Keeps F z s) :
    Keeps F z (State.raiseAt s a1 a2 a3 a4) := by
  unfold State.raiseAt
  repeat' first
    | with_reducible assumption
    | with_reducible apply keeps_raiseAll

theorem keeps_raise (s : State) (a1) (hF : [.regs, .sent, .sys, .tie, .flt, .acq, .mem] ⊆ F) (hs : Keeps F z s) :
    Keeps F z (State.raise s a1) := by
  unfold State.raise
  repeat' first
    | with_reducible assumption
    | with_reducible apply keeps_raiseAt

theorem keeps_causePresent (s : State) (a1) (hF : [.regs, .sent, .sys, .tie, .flt, .acq, .mem] ⊆ F) (hs : Keeps F z s) :
    Keeps F z (State.causePresent s a1) := by
  unfold State.causePresent
  repeat' first
    | with_reducible assumption
    | with_reducible apply keeps_raise
    | exact List.Subset.trans (by decide) hF
    | with_reducible apply keeps_ite
    | (intro _)

theorem keeps_causeAbsent (s : State) (a1) (hF : [.regs] ⊆ F) (hs : Keeps F z s) :
    Keeps F z (State.causeAbsent s a1) := by
  unfold State.causeAbsent
  repeat' first
    | with_reducible assumption
    | with_reducible apply keeps_putBit

theorem keeps_causeIs (s : State) (a1) (a2) (hF : [.regs, .sent, .sys, .tie, .flt, .acq, .mem] ⊆ F) (hs : Keeps F z s) :
    Keeps F z (State.causeIs s a1 a2) := by
  unfold State.causeIs
  repeat' first
    | with_reducible assumption
    | with_reducible apply keeps_causePresent
    | with_reducible apply keeps_causeAbsent
    | exact List.Subset.trans (by decide) hF
    | with_reducible apply keeps_ite
    | (intro _)

theorem keeps_clearLatch (s : State) (a1) (hF : [.regs, .flt] ⊆ F) (hs : Keeps F z s) :
    Keeps F z (State.clearLatch s a1) := by
  unfold State.clearLatch
  repeat' first
    | with_reducible assumption
    | with_reducible apply keeps_setHist
    | with_reducible apply keeps_put
    | with_reducible apply keeps_wr
    | with_reducible apply keeps_putBit
    | exact List.Subset.trans (by decide) hF
    | with_reducible apply keeps_ite
    | (intro _)

theorem keeps_clearWord (s : State) (a1) (a2) (hF : [.regs, .flt] ⊆ F) (hs : Keeps F z s) :
    Keeps F z (State.clearWord s a1 a2) := by
  unfold State.clearWord
  repeat' first
    | with_reducible assumption
    | with_reducible apply keeps_summarise
    | with_reducible apply keeps_forN
    | with_reducible apply keeps_when
    | with_reducible apply keeps_clearLatch
    | exact List.Subset.trans (by decide) hF
    | with_reducible apply keeps_ite
    | (intro _)

theorem keeps_rearmFirst (s : State) (hF : [.regs, .flt] ⊆ F) (hs : Keeps F z s) :
    Keeps F z (State.rearmFirst s) := by
  unfold State.rearmFirst
  repeat' first
    | with_reducible assumption
    | with_reducible apply keeps_put
    | exact List.Subset.trans (by decide) hF
    | exact Or.inl (hF (by decide))
    | with_reducible exact Or.inr rfl
    | with_reducible rfl
    | simp only [keeps_lit]
    | (with_reducible refine keeps_mk ?_ rfl rfl rfl ?_ ?_ ?_ ?_ ?_ ?_ ?_ ?_ ?_ ?_ ?_ ?_ ?_ ?_ ?_ ?_ ?_ ?_ ?_ ?_ ?_)

theorem keeps_injectEvent (s : State) (a1) (hF : [.regs, .sent, .sys, .tie, .flt, .acq, .mem] ⊆ F) (hs : Keeps F z s) :
    Keeps F z (State.injectEvent s a1) := by
  unfold State.injectEvent
  repeat' first
    | with_reducible assumption
    | with_reducible apply keeps_putBit
    | with_reducible apply keeps_raise
    | exact List.Subset.trans (by decide) hF

theorem keeps_fltCtrl (s : State) (a1) (hF : [.regs, .sent, .sys, .tie, .flt, .acq, .mem] ⊆ F) (hs : Keeps F z s) :
    Keeps F z (State.fltCtrl s a1).1 := by
  unfold State.fltCtrl
  repeat' first
    | with_reducible assumption
    | with_reducible apply keeps_when
    | with_reducible apply keeps_injectEvent
    | with_reducible apply keeps_rearmFirst
    | with_reducible apply keeps_forN
    | with_reducible apply keeps_clearWord
    | with_reducible apply keeps_raise
    | exact List.Subset.trans (by decide) hF
    | with_reducible apply keeps_ite
    | with_reducible apply keeps_ite_fst
    | (intro _)

theorem keeps_fltSrcWrite (s : State) (a1) (a2) (a3) (hF : [.regs, .flt] ⊆ F) (hs : Keeps F z s) :
    Keeps F z (State.fltSrcWrite s a1 a2 a3).1 := by
  unfold State.fltSrcWrite
  repeat' first
    | with_reducible assumption
    | with_reducible apply keeps_setHist
    | with_reducible apply keeps_wr
    | exact List.Subset.trans (by decide) hF
    | with_reducible apply keeps_ite
    | with_reducible apply keeps_ite_fst
    | (intro _)

theorem keeps_sarWritten (s : State) (a1) (a2) (hF : [.inp] ⊆ F) (hs : Keeps F z s) :
    Keeps F z (State.sarWritten s a1 a2) := by
  unfold State.sarWritten
  repeat' first
    | with_reducible assumption
    | exact List.Subset.trans (by decide) hF
    | exact Or.inl (hF (by decide))
    | with_reducible exact Or.inr rfl
    | with_reducible rfl
    | simp only [keeps_lit]
    | (with_reducible refine keeps_mk ?_ rfl rfl rfl ?_ ?_ ?_ ?_ ?_ ?_ ?_ ?_ ?_ ?_ ?_ ?_ ?_ ?_ ?_ ?_ ?_ ?_ ?_ ?_ ?_)
    | exact Or.inr rfl
    | rfl
    | with_reducible apply keeps_ite
    | (intro _)

theorem keeps_sarPromote (s : State) (hF : [.inp] ⊆ F) (hs : Keeps F z s) :
    Keeps F z (State.sarPromote s) := by
  unfold State.sarPromote
  repeat' first
    | with_reducible assumption
    | exact List.Subset.trans (by decide) hF
    | exact Or.inl (hF (by decide))
    | with_reducible exact Or.inr rfl
    | with_reducible rfl
    | simp only [keeps_lit]
    | (with_reducible refine keeps_mk ?_ rfl rfl rfl ?_ ?_ ?_ ?_ ?_ ?_ ?_ ?_ ?_ ?_ ?_ ?_ ?_ ?_ ?_ ?_ ?_ ?_ ?_ ?_ ?_)

theorem keeps_sarSample (s : State) (a1) (a2) (hF : [.regs, .sent, .sys, .tie, .flt, .acq, .mem] ⊆ F) (hs : Keeps F z s) :
    Keeps F z (State.sarSample s a1 a2) := by
  unfold State.sarSample
  repeat' first
    | with_reducible assumption
    | with_reducible apply keeps_put
    | with_reducible apply keeps_wr
    | with_reducible apply keeps_raise
    | exact List.Subset.trans (by decide) hF
    | with_reducible apply keeps_ite
    | (intro _)

theorem keeps_sdBits (s : State) (a1) (a2) (hF : [.inp] ⊆ F) (hs : Keeps F z s) :
    Keeps F z (State.sdBits s a1 a2) := by
  unfold State.sdBits
  repeat' first
    | with_reducible assumption
    | exact List.Subset.trans (by decide) hF
    | exact Or.inl (hF (by decide))
    | with_reducible exact Or.inr rfl
    | with_reducible rfl
    | simp only [keeps_lit]
    | (with_reducible refine keeps_mk ?_ rfl rfl rfl ?_ ?_ ?_ ?_ ?_ ?_ ?_ ?_ ?_ ?_ ?_ ?_ ?_ ?_ ?_ ?_ ?_ ?_ ?_ ?_ ?_)

theorem keeps_sdClear (s : State) (a1) (a2) (hF : [.inp] ⊆ F) (hs : Keeps F z s) :
    Keeps F z (State.sdClear s a1 a2) := by
  unfold State.sdClear
  repeat' first
    | with_reducible assumption
    | exact List.Subset.trans (by decide) hF
    | exact Or.inl (hF (by decide))
    | with_reducible exact Or.inr rfl
    | with_reducible rfl
    | simp only [keeps_lit]
    | (with_reducible refine keeps_mk ?_ rfl rfl rfl ?_ ?_ ?_ ?_ ?_ ?_ ?_ ?_ ?_ ?_ ?_ ?_ ?_ ?_ ?_ ?_ ?_ ?_ ?_ ?_ ?_)

theorem keeps_sdSample (s : State) (a1) (a2) (hF : [.regs, .inp] ⊆ F) (hs : Keeps F z s) :
    Keeps F z (State.sdSample s a1 a2) := by
  unfold State.sdSample
  repeat' first
    | with_reducible assumption
    | with_reducible apply keeps_put
    | with_reducible apply keeps_sdBits
    | with_reducible apply keeps_wr
    | with_reducible apply keeps_when
    | exact List.Subset.trans (by decide) hF
    | with_reducible apply keeps_ite
    | (intro _)

theorem keeps_piCount (s : State) (a1) (a2) (hF : [.regs] ⊆ F) (hs : Keeps F z s) :
    Keeps F z (State.piCount s a1 a2) := by
  unfold State.piCount
  repeat' first
    | with_reducible assumption
    | with_reducible apply keeps_wr
    | exact List.Subset.trans (by decide) hF
    | with_reducible apply keeps_ite
    | (intro _)

theorem keeps_piEdge (s : State) (a1) (a2) (a3) (hF : [.regs, .sent, .sys, .inp, .tie, .flt, .acq, .mem] ⊆ F) (hs : Keeps F z s) :
    Keeps F z (State.piEdge s a1 a2 a3) := by
  unfold State.piEdge
  repeat' first
    | with_reducible assumption
    | with_reducible apply keeps_piCount
    | with_reducible apply keeps_when
    | with_reducible apply keeps_put
    | with_reducible apply keeps_inc
    | with_reducible apply keeps_raise
    | exact List.Subset.trans (by decide) hF
    | exact Or.inl (hF (by decide))
    | with_reducible exact Or.inr rfl
    | with_reducible rfl
    | simp only [keeps_lit]
    | (with_reducible refine keeps_mk ?_ rfl rfl rfl ?_ ?_ ?_ ?_ ?_ ?_ ?_ ?_ ?_ ?_ ?_ ?_ ?_ ?_ ?_ ?_ ?_ ?_ ?_ ?_ ?_)
    | exact Or.inr rfl
    | rfl
    | with_reducible apply keeps_ite
    | (intro _)
    | with_reducible apply keeps_foldl
    | with_reducible apply keeps_foldl_fst
    | with_reducible apply keeps_optmap
    | split

theorem keeps_piSample (s : State) (a1) (hF : [.regs, .inp] ⊆ F) (hs : Keeps F z s) :
    Keeps F z (State.piSample s a1) := by
  unfold State.piSample
  repeat' first
    | with_reducible assumption
    | with_reducible apply keeps_put
    | with_reducible apply keeps_wr
    | exact List.Subset.trans (by decide) hF
    | exact Or.inl (hF (by decide))
    | with_reducible exact Or.inr rfl
    | with_reducible rfl
    | simp only [keeps_lit]
    | (with_reducible refine keeps_mk ?_ rfl rfl rfl ?_ ?_ ?_ ?_ ?_ ?_ ?_ ?_ ?_ ?_ ?_ ?_ ?_ ?_ ?_ ?_ ?_ ?_ ?_ ?_ ?_)
    | exact Or.inr rfl
    | rfl
    | with_reducible apply keeps_ite
    | (intro _)
    | with_reducible apply keeps_foldl
    | with_reducible apply keeps_foldl_fst
    | with_reducible apply keeps_optmap
    | split

theorem keeps_sampleInputs (s : State) (a1) (hF : [.regs, .sent, .sys, .inp, .tie, .flt, .acq, .mem] ⊆ F) (hs : Keeps F z s) :
    Keeps F z (State.sampleInputs s a1) := by
  unfold State.sampleInputs
  repeat' first
    | with_reducible assumption
    | with_reducible apply keeps_forN
    | with_reducible apply keeps_sarSample
    | with_reducible apply keeps_sarPromote
    | with_reducible apply keeps_sdSample
    | with_reducible apply keeps_piSample
    | exact List.Subset.trans (by decide) hF
    | with_reducible apply keeps_ite
    | (intro _)

theorem keeps_showEvents (s : State) (hF : [.regs] ⊆ F) (hs : Keeps F z s) :
    Keeps F z (State.showEvents s) := by
  unfold State.showEvents
  repeat' first
    | with_reducible assumption
    | with_reducible apply keeps_wr
    | with_reducible apply keeps_setWord
    | with_reducible apply keeps_put
    | exact List.Subset.trans (by decide) hF
    | with_reducible apply keeps_ite
    | (intro _)
    | with_reducible apply keeps_foldl
    | with_reducible apply keeps_foldl_fst
    | with_reducible apply keeps_optmap
    | split
    | (dsimp only; split)

theorem keeps_addEvent (s : State) (a1) (hF : [.regs, .inp] ⊆ F) (hs : Keeps F z s) :
    Keeps F z (State.addEvent s a1) := by
  unfold State.addEvent
  repeat' first
    | with_reducible assumption
    | with_reducible apply keeps_inc
    | with_reducible apply keeps_showEvents
    | exact List.Subset.trans (by decide) hF
    | exact Or.inl (hF (by decide))
    | with_reducible exact Or.inr rfl
    | with_reducible rfl
    | simp only [keeps_lit]
    | (with_reducible refine keeps_mk ?_ rfl rfl rfl ?_ ?_ ?_ ?_ ?_ ?_ ?_ ?_ ?_ ?_ ?_ ?_ ?_ ?_ ?_ ?_ ?_ ?_ ?_ ?_ ?_)
    | exact Or.inr rfl
    | rfl
    | with_reducible apply keeps_ite
    | (intro _)

theorem keeps_externals (s : State) (a1) (a2) (hF : [.regs, .sent, .sys, .tie, .flt, .acq, .mem] ⊆ F) (hs : Keeps F z s) :
    Keeps F z (State.externals s a1 a2) := by
  unfold State.externals
  repeat' first
    | with_reducible assumption
    | with_reducible apply keeps_forN
    | with_reducible apply keeps_when
    | with_reducible apply keeps_raise
    | with_reducible apply keeps_causeIs
    | exact List.Subset.trans (by decide) hF
    | with_reducible apply keeps_ite
    | (intro _)

theorem keeps_deliver (s : State) (a1) (a2) (a3) (hF : [.regs, .sent, .sys, .inp, .tie, .flt, .acq, .mem] ⊆ F) (hs : Keeps F z s) :
    Keeps F z (State.deliver s a1 a2 a3) := by
  unfold State.deliver
  repeat' first
    | with_reducible assumption
    | with_reducible apply keeps_put
    | with_reducible apply keeps_addEvent
    | with_reducible apply keeps_externals
    | exact List.Subset.trans (by decide) hF
    | with_reducible apply keeps_ite
    | (intro _)
    | with_reducible apply keeps_foldl
    | with_reducible apply keeps_foldl_fst
    | with_reducible apply keeps_optmap
    | split

theorem keeps_gpioEdge (s : State) (a1) (a2) (hF : [.regs, .sent, .sys, .inp, .tie, .flt, .acq, .mem] ⊆ F) (hs : Keeps F z s) :
    Keeps F z (State.gpioEdge s a1 a2) := by
  unfold State.gpioEdge
  repeat' first
    | with_reducible assumption
    | with_reducible apply keeps_put
    | with_reducible apply keeps_when
    | with_reducible apply keeps_inc
    | with_reducible apply keeps_raise
    | with_reducible apply keeps_deliver
    | exact List.Subset.trans (by decide) hF
    | exact Or.inl (hF (by decide))
    | with_reducible exact Or.inr rfl
    | with_reducible rfl
    | simp only [keeps_lit]
    | (with_reducible refine keeps_mk ?_ rfl rfl rfl ?_ ?_ ?_ ?_ ?_ ?_ ?_ ?_ ?_ ?_ ?_ ?_ ?_ ?_ ?_ ?_ ?_ ?_ ?_ ?_ ?_)
    | exact Or.inr rfl
    | rfl
    | with_reducible apply keeps_ite
    | (intro _)

theorem keeps_gpioRelease (s : State) (a1) (hF : [.regs, .sent, .sys, .inp, .tie, .flt, .acq, .mem] ⊆ F) (hs : Keeps F z s) :
    Keeps F z (State.gpioRelease s a1) := by
  unfold State.gpioRelease
  repeat' first
    | with_reducible assumption
    | with_reducible apply keeps_put
    | with_reducible apply keeps_deliver
    | exact List.Subset.trans (by decide) hF
    | with_reducible apply keeps_ite
    | (intro _)

theorem keeps_gpioStuck (s : State) (a1) (hF : [.regs, .sent, .sys, .tie, .flt, .acq, .mem] ⊆ F) (hs : Keeps F z s) :
    Keeps F z (State.gpioStuck s a1) := by
  unfold State.gpioStuck
  repeat' first
    | with_reducible assumption
    | with_reducible apply keeps_raise
    | with_reducible apply keeps_put
    | exact List.Subset.trans (by decide) hF
    | with_reducible apply keeps_ite
    | (intro _)
    | with_reducible apply keeps_foldl
    | with_reducible apply keeps_foldl_fst
    | with_reducible apply keeps_optmap
    | split

theorem keeps_lineRestart (s : State) (a1) (hF : [.inp] ⊆ F) (hs : Keeps F z s) :
    Keeps F z (State.lineRestart s a1) := by
  unfold State.lineRestart
  repeat' first
    | with_reducible assumption
    | exact List.Subset.trans (by decide) hF
    | exact Or.inl (hF (by decide))
    | with_reducible exact Or.inr rfl
    | with_reducible rfl
    | simp only [keeps_lit]
    | (with_reducible refine keeps_mk ?_ rfl rfl rfl ?_ ?_ ?_ ?_ ?_ ?_ ?_ ?_ ?_ ?_ ?_ ?_ ?_ ?_ ?_ ?_ ?_ ?_ ?_ ?_ ?_)

theorem keeps_nextEvent (s : State) (hF : [.regs, .inp] ⊆ F) (hs : Keeps F z s) :
    Keeps F z (State.nextEvent s) := by
  unfold State.nextEvent
  repeat' first
    | with_reducible assumption
    | with_reducible apply keeps_showEvents
    | exact List.Subset.trans (by decide) hF
    | exact Or.inl (hF (by decide))
    | with_reducible exact Or.inr rfl
    | with_reducible rfl
    | simp only [keeps_lit]
    | (with_reducible refine keeps_mk ?_ rfl rfl rfl ?_ ?_ ?_ ?_ ?_ ?_ ?_ ?_ ?_ ?_ ?_ ?_ ?_ ?_ ?_ ?_ ?_ ?_ ?_ ?_ ?_)

end Sys2Proof.Machine
end

