-- ==== Sys2Proof/Laws/KeepsStrand.lean ====
section
/-! SUPPORT. What cells, strands, enumeration and the time ports keep, one lemma per operation. -/

namespace Sys2Proof.Machine

variable {F : List Part} {z : State}

theorem keeps_onCell (s : State) (a1) (a2) (hF : [.cells] ⊆ F) (hs : Keeps F z s) :
    Keeps F z (State.onCell s a1 a2) := by
  unfold State.onCell
  repeat' first
    | with_reducible assumption
    | with_reducible apply keeps_setCell

theorem keeps_commandAtCell (s : State) (a1) (a2) (a3) (hF : [.sent, .cells] ⊆ F) (hs : Keeps F z s) :
    Keeps F z (State.commandAtCell s a1 a2 a3) := by
  unfold State.commandAtCell
  repeat' first
    | with_reducible assumption
    | with_reducible apply keeps_when
    | with_reducible apply keeps_setCell
    | with_reducible apply keeps_send
    | exact List.Subset.trans (by decide) hF
    | with_reducible apply keeps_ite
    | (intro _)
    | with_reducible apply keeps_foldl
    | with_reducible apply keeps_foldl_fst
    | with_reducible apply keeps_optmap
    | split

theorem keeps_setPort (s : State) (a1) (a2) (hF : [.ports] ⊆ F) (hs : Keeps F z s) :
    Keeps F z (State.setPort s a1 a2) := by
  unfold State.setPort
  repeat' first
    | with_reducible assumption
    | exact List.Subset.trans (by decide) hF
    | exact Or.inl (hF (by decide))
    | with_reducible exact Or.inr rfl
    | with_reducible rfl
    | simp only [keeps_lit]
    | (with_reducible refine keeps_mk ?_ rfl rfl rfl ?_ ?_ ?_ ?_ ?_ ?_ ?_ ?_ ?_ ?_ ?_ ?_ ?_ ?_ ?_ ?_ ?_ ?_ ?_ ?_ ?_)

theorem keeps_onPort (s : State) (a1) (a2) (hF : [.ports] ⊆ F) (hs : Keeps F z s) :
    Keeps F z (State.onPort s a1 a2) := by
  unfold State.onPort
  repeat' first
    | with_reducible assumption
    | with_reducible apply keeps_setPort

theorem keeps_formLoad (s : State) (a1) (a2) (hF : [.draws, .ports] ⊆ F) (hs : Keeps F z s) :
    Keeps F z (State.formLoad s a1 a2).2 := by
  unfold State.formLoad
  repeat' first
    | with_reducible assumption
    | with_reducible apply keeps_draw
    | with_reducible refine keeps_snd (keeps_draw _ ?_ ?_) (by assumption)
    | with_reducible apply keeps_onPort
    | exact List.Subset.trans (by decide) hF

theorem keeps_lateData (s : State) (a1) (a2) (hF : [.draws, .ports] ⊆ F) (hs : Keeps F z s) :
    Keeps F z (State.lateData s a1 a2).2 := by
  unfold State.lateData
  repeat' first
    | with_reducible assumption
    | with_reducible apply keeps_formLoad
    | with_reducible refine keeps_snd (keeps_formLoad _ _ _ ?_ ?_) (by assumption)
    | exact List.Subset.trans (by decide) hF
    | with_reducible apply keeps_ite
    | with_reducible apply keeps_ite_snd
    | (intro _)
    | with_reducible apply keeps_foldl
    | with_reducible apply keeps_foldl_fst
    | with_reducible apply keeps_optmap
    | split

theorem keeps_openTxn (s : State) (a1) (a2) (hF : [.draws, .regs, .sent, .ports] ⊆ F) (hs : Keeps F z s) :
    Keeps F z (State.openTxn s a1 a2) := by
  unfold State.openTxn
  repeat' first
    | with_reducible assumption
    | with_reducible apply keeps_lateData
    | with_reducible refine keeps_snd (keeps_lateData _ _ _ ?_ ?_) (by assumption)
    | with_reducible apply keeps_onPort
    | with_reducible apply keeps_wr
    | with_reducible apply keeps_put
    | with_reducible apply keeps_when
    | with_reducible apply keeps_sendTie
    | exact List.Subset.trans (by decide) hF
    | with_reducible apply keeps_ite
    | (intro _)

theorem keeps_nextOwn (s : State) (a1) (hF : [.draws, .regs, .sent, .ports] ⊆ F) (hs : Keeps F z s) :
    Keeps F z (State.nextOwn s a1) := by
  unfold State.nextOwn
  repeat' first
    | with_reducible assumption
    | with_reducible apply keeps_openTxn
    | with_reducible apply keeps_onPort
    | with_reducible apply keeps_put
    | exact List.Subset.trans (by decide) hF
    | with_reducible apply keeps_ite
    | (intro _)
    | with_reducible apply keeps_foldl
    | with_reducible apply keeps_foldl_fst
    | with_reducible apply keeps_optmap
    | split

theorem keeps_ask (s : State) (a1) (a2) (hF : [.draws, .regs, .sent, .ports] ⊆ F) (hs : Keeps F z s) :
    Keeps F z (State.ask s a1 a2) := by
  unfold State.ask
  repeat' first
    | with_reducible assumption
    | with_reducible apply keeps_nextOwn
    | with_reducible apply keeps_onPort
    | exact List.Subset.trans (by decide) hF

theorem keeps_askFirst (s : State) (a1) (a2) (hF : [.draws, .regs, .sent, .ports] ⊆ F) (hs : Keeps F z s) :
    Keeps F z (State.askFirst s a1 a2) := by
  unfold State.askFirst
  repeat' first
    | with_reducible assumption
    | with_reducible apply keeps_nextOwn
    | with_reducible apply keeps_onPort
    | exact List.Subset.trans (by decide) hF

theorem keeps_mbGo (s : State) (a1) (hF : [.draws, .regs, .sent, .ports] ⊆ F) (hs : Keeps F z s) :
    Keeps F z (State.mbGo s a1) := by
  unfold State.mbGo
  repeat' first
    | with_reducible assumption
    | with_reducible apply keeps_put
    | with_reducible apply keeps_when
    | with_reducible apply keeps_wr
    | with_reducible apply keeps_openTxn
    | exact List.Subset.trans (by decide) hF
    | with_reducible apply keeps_ite
    | (intro _)
    | with_reducible apply keeps_foldl
    | with_reducible apply keeps_foldl_fst
    | with_reducible apply keeps_optmap
    | split

theorem keeps_recount (s : State) (a1) (hF : [.regs] ⊆ F) (hs : Keeps F z s) :
    Keeps F z (State.recount s a1) := by
  unfold State.recount
  repeat' first
    | with_reducible assumption
    | with_reducible apply keeps_wr

theorem keeps_reportPos (s : State) (a1) (a2) (a3) (a4) (a5) (a6) (hF : [.regs, .ports] ⊆ F) (hs : Keeps F z s) :
    Keeps F z (State.reportPos s a1 a2 a3 a4 a5 a6) := by
  unfold State.reportPos
  repeat' first
    | with_reducible assumption
    | with_reducible apply keeps_put
    | with_reducible apply keeps_wr
    | with_reducible apply keeps_onPort
    | exact List.Subset.trans (by decide) hF

theorem keeps_reportMember (s : State) (a1) (a2) (a3) (a4) (a5) (hF : [.regs] ⊆ F) (hs : Keeps F z s) :
    Keeps F z (State.reportMember s a1 a2 a3 a4 a5) := by
  unfold State.reportMember
  repeat' first
    | with_reducible assumption
    | with_reducible apply keeps_put
    | with_reducible apply keeps_wr

theorem keeps_startJoin (s : State) (a1) (a2) (a3) (hF : [.draws, .regs, .sent, .ports] ⊆ F) (hs : Keeps F z s) :
    Keeps F z (State.startJoin s a1 a2 a3) := by
  unfold State.startJoin
  repeat' first
    | with_reducible assumption
    | with_reducible apply keeps_ask
    | with_reducible apply keeps_onPort
    | exact List.Subset.trans (by decide) hF

theorem keeps_settleCell (s : State) (a1) (a2) (a3) (hF : [.draws, .regs, .sent, .ports] ⊆ F) (hs : Keeps F z s) :
    Keeps F z (State.settleCell s a1 a2 a3) := by
  unfold State.settleCell
  repeat' first
    | with_reducible assumption
    | with_reducible apply keeps_ask

theorem keeps_setRun (s : State) (a1) (a2) (hF : [.regs] ⊆ F) (hs : Keeps F z s) :
    Keeps F z (State.setRun s a1 a2) := by
  unfold State.setRun
  repeat' first
    | with_reducible assumption
    | with_reducible apply keeps_put
    | with_reducible apply keeps_wr

theorem keeps_endWalk (s : State) (a1) (a2) (hF : [.draws, .regs, .sent, .ports] ⊆ F) (hs : Keeps F z s) :
    Keeps F z (State.endWalk s a1 a2) := by
  unfold State.endWalk
  repeat' first
    | with_reducible assumption
    | with_reducible apply keeps_forN
    | with_reducible apply keeps_when
    | with_reducible apply keeps_wr
    | with_reducible apply keeps_onPort
    | with_reducible apply keeps_recount
    | with_reducible apply keeps_put
    | with_reducible apply keeps_setRun
    | with_reducible apply keeps_ask
    | with_reducible apply keeps_settleCell
    | exact List.Subset.trans (by decide) hF
    | with_reducible apply keeps_ite
    | (intro _)

theorem keeps_walkOn (s : State) (a1) (hF : [.draws, .regs, .sent, .ports] ⊆ F) (hs : Keeps F z s) :
    Keeps F z (State.walkOn s a1) := by
  unfold State.walkOn
  repeat' first
    | with_reducible assumption
    | with_reducible apply keeps_endWalk
    | with_reducible apply keeps_onPort
    | with_reducible apply keeps_ask
    | exact List.Subset.trans (by decide) hF
    | with_reducible apply keeps_ite
    | (intro _)
    | with_reducible apply keeps_foldl
    | with_reducible apply keeps_foldl_fst
    | with_reducible apply keeps_optmap
    | split

theorem keeps_startWalk (s : State) (a1) (a2) (a3) (hF : [.draws, .regs, .sent, .ports] ⊆ F) (hs : Keeps F z s) :
    Keeps F z (State.startWalk s a1 a2 a3) := by
  unfold State.startWalk
  repeat' first
    | with_reducible assumption
    | with_reducible apply keeps_onPort
    | with_reducible apply keeps_walkOn
    | with_reducible apply keeps_put
    | exact List.Subset.trans (by decide) hF

theorem keeps_enumerate (s : State) (a1) (hF : [.draws, .regs, .sent, .ports] ⊆ F) (hs : Keeps F z s) :
    Keeps F z (State.enumerate s a1) := by
  unfold State.enumerate
  repeat' first
    | with_reducible assumption
    | with_reducible apply keeps_startWalk
    | exact List.Subset.trans (by decide) hF
    | with_reducible apply keeps_ite
    | (intro _)

theorem keeps_memberSlot (s : State) (a1) (a2) (hF : [.regs] ⊆ F) (hs : Keeps F z s) :
    Keeps F z (State.memberSlot s a1 a2).1 := by
  unfold State.memberSlot
  repeat' first
    | with_reducible assumption
    | with_reducible apply keeps_wr
    | exact List.Subset.trans (by decide) hF
    | with_reducible apply keeps_ite
    | with_reducible apply keeps_ite_fst
    | (intro _)
    | with_reducible apply keeps_foldl
    | with_reducible apply keeps_foldl_fst
    | with_reducible apply keeps_optmap
    | split
    | (dsimp only; split)

theorem keeps_verdictFor (s : State) (a1) (a2) (a3) (a4) (a5) (a6) (a7) (hF : [.draws, .regs, .sent, .sys, .ports, .tie, .flt, .acq, .mem] ⊆ F) (hs : Keeps F z s) :
    Keeps F z (State.verdictFor s a1 a2 a3 a4 a5 a6 a7) := by
  unfold State.verdictFor
  repeat' first
    | with_reducible assumption
    | with_reducible apply keeps_recount
    | with_reducible apply keeps_reportPos
    | with_reducible apply keeps_memberSlot
    | with_reducible refine keeps_fst (keeps_memberSlot _ _ _ ?_ ?_) (by assumption)
    | with_reducible apply keeps_reportMember
    | with_reducible apply keeps_put
    | with_reducible apply keeps_when
    | with_reducible apply keeps_raiseAt
    | with_reducible apply keeps_ask
    | exact List.Subset.trans (by decide) hF
    | with_reducible apply keeps_ite
    | (intro _)
    | with_reducible apply keeps_foldl
    | with_reducible apply keeps_foldl_fst
    | with_reducible apply keeps_optmap
    | split

theorem keeps_judgeTarget (s : State) (a1) (a2) (a3) (a4) (hF : [.draws, .regs, .sent, .sys, .ports, .tie, .flt, .acq, .mem] ⊆ F) (hs : Keeps F z s) :
    Keeps F z (State.judgeTarget s a1 a2 a3 a4) := by
  unfold State.judgeTarget
  repeat' first
    | with_reducible assumption
    | with_reducible apply keeps_onPort
    | with_reducible apply keeps_when
    | with_reducible apply keeps_put
    | with_reducible apply keeps_verdictFor
    | with_reducible apply keeps_forL
    | with_reducible apply keeps_ask
    | with_reducible apply keeps_walkOn
    | exact List.Subset.trans (by decide) hF
    | with_reducible apply keeps_ite
    | (intro _)
    | with_reducible apply keeps_foldl
    | with_reducible apply keeps_foldl_fst
    | with_reducible apply keeps_optmap
    | split

theorem keeps_itemDone (s : State) (a1) (a2) (a3) (a4) (hF : [.draws, .regs, .sent, .sys, .ports, .tie, .flt, .acq, .mem] ⊆ F) (hs : Keeps F z s) :
    Keeps F z (State.itemDone s a1 a2 a3 a4) := by
  unfold State.itemDone
  repeat' first
    | with_reducible assumption
    | with_reducible apply keeps_onPort
    | with_reducible apply keeps_judgeTarget
    | with_reducible apply keeps_walkOn
    | with_reducible apply keeps_verdictFor
    | exact List.Subset.trans (by decide) hF
    | with_reducible apply keeps_ite
    | (intro _)
    | with_reducible apply keeps_foldl
    | with_reducible apply keeps_foldl_fst
    | with_reducible apply keeps_optmap
    | split

theorem keeps_belowDone (s : State) (a1) (a2) (a3) (hF : [.draws, .regs, .sent, .ports] ⊆ F) (hs : Keeps F z s) :
    Keeps F z (State.belowDone s a1 a2 a3) := by
  unfold State.belowDone
  repeat' first
    | with_reducible assumption
    | with_reducible apply keeps_walkOn
    | with_reducible apply keeps_put
    | with_reducible apply keeps_onPort
    | exact List.Subset.trans (by decide) hF
    | with_reducible apply keeps_ite
    | (intro _)
    | with_reducible apply keeps_foldl
    | with_reducible apply keeps_foldl_fst
    | with_reducible apply keeps_optmap
    | split

theorem keeps_acceptDone (s : State) (a1) (a2) (a3) (a4) (hF : [.draws, .regs, .sent, .ports] ⊆ F) (hs : Keeps F z s) :
    Keeps F z (State.acceptDone s a1 a2 a3 a4) := by
  unfold State.acceptDone
  repeat' first
    | with_reducible assumption
    | with_reducible apply keeps_startJoin
    | with_reducible apply keeps_settleCell
    | exact List.Subset.trans (by decide) hF
    | with_reducible apply keeps_ite
    | (intro _)
    | with_reducible apply keeps_foldl
    | with_reducible apply keeps_foldl_fst
    | with_reducible apply keeps_optmap
    | split

theorem keeps_prepDrop (s : State) (a1) (a2) (hF : [.sys, .ports] ⊆ F) (hs : Keeps F z s) :
    Keeps F z (State.prepDrop s a1 a2) := by
  unfold State.prepDrop
  repeat' first
    | with_reducible assumption
    | with_reducible apply keeps_onPort
    | exact List.Subset.trans (by decide) hF
    | exact Or.inl (hF (by decide))
    | with_reducible exact Or.inr rfl
    | with_reducible rfl
    | simp only [keeps_lit]
    | (with_reducible refine keeps_mk ?_ rfl rfl rfl ?_ ?_ ?_ ?_ ?_ ?_ ?_ ?_ ?_ ?_ ?_ ?_ ?_ ?_ ?_ ?_ ?_ ?_ ?_ ?_ ?_)

theorem keeps_joinDrop (s : State) (a1) (a2) (hF : [.ports] ⊆ F) (hs : Keeps F z s) :
    Keeps F z (State.joinDrop s a1 a2) := by
  unfold State.joinDrop
  repeat' first
    | with_reducible assumption
    | with_reducible apply keeps_onPort

theorem keeps_imageError (s : State) (hF : [.regs] ⊆ F) (hs : Keeps F z s) :
    Keeps F z (State.imageError s) := by
  unfold State.imageError
  repeat' first
    | with_reducible assumption
    | with_reducible apply keeps_when
    | with_reducible apply keeps_put
    | exact List.Subset.trans (by decide) hF
    | with_reducible apply keeps_ite
    | (intro _)

theorem keeps_imageDrop (s : State) (a1) (a2) (hF : [.ports, .hlt] ⊆ F) (hs : Keeps F z s) :
    Keeps F z (State.imageDrop s a1 a2) := by
  unfold State.imageDrop
  repeat' first
    | with_reducible assumption
    | with_reducible apply keeps_onPort
    | exact List.Subset.trans (by decide) hF
    | exact Or.inl (hF (by decide))
    | with_reducible exact Or.inr rfl
    | with_reducible rfl
    | simp only [keeps_lit]
    | (with_reducible refine keeps_mk ?_ rfl rfl rfl ?_ ?_ ?_ ?_ ?_ ?_ ?_ ?_ ?_ ?_ ?_ ?_ ?_ ?_ ?_ ?_ ?_ ?_ ?_ ?_ ?_)

theorem keeps_imageSave (s : State) (a1) (a2) (hF : [.draws, .regs, .sent, .ports] ⊆ F) (hs : Keeps F z s) :
    Keeps F z (State.imageSave s a1 a2) := by
  unfold State.imageSave
  repeat' first
    | with_reducible assumption
    | with_reducible apply keeps_askFirst

theorem keeps_keepImage (s : State) (a1) (a2) (a3) (a4) (hF : [.regs, .mem, .hlt] ⊆ F) (hs : Keeps F z s) :
    Keeps F z (State.keepImage s a1 a2 a3 a4) := by
  unfold State.keepImage
  repeat' first
    | with_reducible assumption
    | with_reducible apply keeps_imageError
    | with_reducible apply keeps_storeBytes
    | exact List.Subset.trans (by decide) hF
    | exact Or.inl (hF (by decide))
    | with_reducible exact Or.inr rfl
    | with_reducible rfl
    | simp only [keeps_lit]
    | (with_reducible refine keeps_mk ?_ rfl rfl rfl ?_ ?_ ?_ ?_ ?_ ?_ ?_ ?_ ?_ ?_ ?_ ?_ ?_ ?_ ?_ ?_ ?_ ?_ ?_ ?_ ?_)
    | exact Or.inr rfl
    | rfl
    | with_reducible apply keeps_ite
    | (intro _)
    | with_reducible apply keeps_foldl
    | with_reducible apply keeps_foldl_fst
    | with_reducible apply keeps_optmap
    | split

theorem keeps_imageRestore (s : State) (a1) (a2) (hF : [.draws, .regs, .sent, .ports] ⊆ F) (hs : Keeps F z s) :
    Keeps F z (State.imageRestore s a1 a2) := by
  unfold State.imageRestore
  repeat' first
    | with_reducible assumption
    | with_reducible apply keeps_imageError
    | with_reducible apply keeps_inc
    | with_reducible apply keeps_askFirst
    | exact List.Subset.trans (by decide) hF
    | with_reducible apply keeps_ite
    | (intro _)
    | with_reducible apply keeps_foldl
    | with_reducible apply keeps_foldl_fst
    | with_reducible apply keeps_optmap
    | split

theorem keeps_calPolled (s : State) (a1) (hF : [.od] ⊆ F) (hs : Keeps F z s) :
    Keeps F z (State.calPolled s a1) := by
  unfold State.calPolled
  repeat' first
    | with_reducible assumption
    | exact List.Subset.trans (by decide) hF
    | exact Or.inl (hF (by decide))
    | with_reducible exact Or.inr rfl
    | with_reducible rfl
    | simp only [keeps_lit]
    | (with_reducible refine keeps_mk ?_ rfl rfl rfl ?_ ?_ ?_ ?_ ?_ ?_ ?_ ?_ ?_ ?_ ?_ ?_ ?_ ?_ ?_ ?_ ?_ ?_ ?_ ?_ ?_)

theorem keeps_setReplay (s : State) (a1) (hF : [.regs, .od] ⊆ F) (hs : Keeps F z s) :
    Keeps F z (State.setReplay s a1) := by
  unfold State.setReplay
  repeat' first
    | with_reducible assumption
    | with_reducible apply keeps_wr
    | exact List.Subset.trans (by decide) hF
    | exact Or.inl (hF (by decide))
    | with_reducible exact Or.inr rfl
    | with_reducible rfl
    | simp only [keeps_lit]
    | (with_reducible refine keeps_mk ?_ rfl rfl rfl ?_ ?_ ?_ ?_ ?_ ?_ ?_ ?_ ?_ ?_ ?_ ?_ ?_ ?_ ?_ ?_ ?_ ?_ ?_ ?_ ?_)

theorem keeps_keepCal (s : State) (a1) (a2) (a3) (hF : [.regs, .od] ⊆ F) (hs : Keeps F z s) :
    Keeps F z (State.keepCal s a1 a2 a3) := by
  unfold State.keepCal
  repeat' first
    | with_reducible assumption
    | with_reducible apply keeps_put
    | with_reducible apply keeps_setReplay
    | exact List.Subset.trans (by decide) hF
    | with_reducible apply keeps_ite
    | (intro _)

theorem keeps_answerJob (s : State) (a1) (a2) (a3) (hF : [.od] ⊆ F) (hs : Keeps F z s) :
    Keeps F z (State.answerJob s a1 a2 a3) := by
  unfold State.answerJob
  repeat' first
    | with_reducible assumption
    | exact List.Subset.trans (by decide) hF
    | exact Or.inl (hF (by decide))
    | with_reducible exact Or.inr rfl
    | with_reducible rfl
    | simp only [keeps_lit]
    | (with_reducible refine keeps_mk ?_ rfl rfl rfl ?_ ?_ ?_ ?_ ?_ ?_ ?_ ?_ ?_ ?_ ?_ ?_ ?_ ?_ ?_ ?_ ?_ ?_ ?_ ?_ ?_)

theorem keeps_objectStep (s : State) (a1) (a2) (a3) (a4) (a5) (a6) (a7) (a8) (hF : [.draws, .regs, .sent, .ports, .od] ⊆ F) (hs : Keeps F z s) :
    Keeps F z (State.objectStep s a1 a2 a3 a4 a5 a6 a7 a8) := by
  unfold State.objectStep
  repeat' first
    | with_reducible assumption
    | with_reducible apply keeps_askFirst
    | with_reducible apply keeps_answerJob
    | exact List.Subset.trans (by decide) hF
    | with_reducible apply keeps_ite
    | (intro _)
    | with_reducible apply keeps_foldl
    | with_reducible apply keeps_foldl_fst
    | with_reducible apply keeps_optmap
    | split

theorem keeps_replayStep (s : State) (a1) (a2) (a3) (a4) (hF : [.draws, .regs, .sent, .ports] ⊆ F) (hs : Keeps F z s) :
    Keeps F z (State.replayStep s a1 a2 a3 a4) := by
  unfold State.replayStep
  repeat' first
    | with_reducible assumption
    | with_reducible apply keeps_askFirst
    | with_reducible apply keeps_inc
    | with_reducible apply keeps_when
    | with_reducible apply keeps_joinDrop
    | exact List.Subset.trans (by decide) hF
    | with_reducible apply keeps_ite
    | (intro _)
    | with_reducible apply keeps_foldl
    | with_reducible apply keeps_foldl_fst
    | with_reducible apply keeps_optmap
    | split

theorem keeps_finish (s : State) (a1) (a2) (a3) (a4) (hF : [.draws, .regs, .sent, .sys, .ports, .tie, .flt, .acq, .mem, .hlt, .od] ⊆ F) (hs : Keeps F z s) :
    Keeps F z (State.finish s a1 a2 a3 a4) := by
  unfold State.finish
  repeat' first
    | with_reducible assumption
    | with_reducible apply keeps_when
    | with_reducible apply keeps_put
    | with_reducible apply keeps_itemDone
    | with_reducible apply keeps_belowDone
    | with_reducible apply keeps_acceptDone
    | with_reducible apply keeps_onPort
    | with_reducible apply keeps_prepDrop
    | with_reducible apply keeps_joinDrop
    | with_reducible apply keeps_imageSave
    | with_reducible apply keeps_imageRestore
    | with_reducible apply keeps_keepImage
    | with_reducible apply keeps_imageDrop
    | with_reducible apply keeps_inc
    | with_reducible apply keeps_calPolled
    | with_reducible apply keeps_askFirst
    | with_reducible apply keeps_keepCal
    | with_reducible apply keeps_objectStep
    | with_reducible apply keeps_replayStep
    | exact List.Subset.trans (by decide) hF
    | with_reducible apply keeps_ite
    | (intro _)
    | with_reducible apply keeps_foldl
    | with_reducible apply keeps_foldl_fst
    | with_reducible apply keeps_optmap
    | split

theorem keeps_closeTxn (s : State) (a1) (a2) (a3) (hF : [.draws, .regs, .sent, .sys, .ports, .tie, .flt, .acq, .mem, .hlt, .od] ⊆ F) (hs : Keeps F z s) :
    Keeps F z (State.closeTxn s a1 a2 a3) := by
  unfold State.closeTxn
  repeat' first
    | with_reducible assumption
    | with_reducible apply keeps_onPort
    | with_reducible apply keeps_put
    | with_reducible apply keeps_when
    | with_reducible apply keeps_wr
    | with_reducible apply keeps_nextOwn
    | with_reducible apply keeps_finish
    | exact List.Subset.trans (by decide) hF
    | with_reducible apply keeps_ite
    | (intro _)
    | with_reducible apply keeps_foldl
    | with_reducible apply keeps_foldl_fst
    | with_reducible apply keeps_optmap
    | split

theorem keeps_onView (s : State) (a1) (a2) (hF : [.lvl] ⊆ F) (hs : Keeps F z s) :
    Keeps F z (State.onView s a1 a2) := by
  unfold State.onView
  repeat' first
    | with_reducible assumption
    | exact List.Subset.trans (by decide) hF
    | exact Or.inl (hF (by decide))
    | with_reducible exact Or.inr rfl
    | with_reducible rfl
    | simp only [keeps_lit]
    | (with_reducible refine keeps_mk ?_ rfl rfl rfl ?_ ?_ ?_ ?_ ?_ ?_ ?_ ?_ ?_ ?_ ?_ ?_ ?_ ?_ ?_ ?_ ?_ ?_ ?_ ?_ ?_)

theorem keeps_onDly (s : State) (a1) (a2) (hF : [.dly] ⊆ F) (hs : Keeps F z s) :
    Keeps F z (State.onDly s a1 a2) := by
  unfold State.onDly
  repeat' first
    | with_reducible assumption
    | exact List.Subset.trans (by decide) hF
    | exact Or.inl (hF (by decide))
    | with_reducible exact Or.inr rfl
    | with_reducible rfl
    | simp only [keeps_lit]
    | (with_reducible refine keeps_mk ?_ rfl rfl rfl ?_ ?_ ?_ ?_ ?_ ?_ ?_ ?_ ?_ ?_ ?_ ?_ ?_ ?_ ?_ ?_ ?_ ?_ ?_ ?_ ?_)

theorem keeps_sendSet (s : State) (a1) (a2) (a3) (hF : [.sent] ⊆ F) (hs : Keeps F z s) :
    Keeps F z (State.sendSet s a1 a2 a3) := by
  unfold State.sendSet
  repeat' first
    | with_reducible assumption
    | with_reducible apply keeps_send
    | exact List.Subset.trans (by decide) hF
    | with_reducible apply keeps_ite
    | (intro _)
    | with_reducible apply keeps_foldl
    | with_reducible apply keeps_foldl_fst
    | with_reducible apply keeps_optmap
    | split

theorem keeps_startDly (s : State) (a1) (hF : [.sent, .dly] ⊆ F) (hs : Keeps F z s) :
    Keeps F z (State.startDly s a1) := by
  unfold State.startDly
  repeat' first
    | with_reducible assumption
    | with_reducible apply keeps_sendSet
    | with_reducible apply keeps_onDly
    | exact List.Subset.trans (by decide) hF

theorem keeps_erroredBlock (s : State) (a1) (hF : [.regs, .cells] ⊆ F) (hs : Keeps F z s) :
    Keeps F z (State.erroredBlock s a1) := by
  unfold State.erroredBlock
  repeat' first
    | with_reducible assumption
    | with_reducible apply keeps_inc
    | with_reducible apply keeps_onCell
    | exact List.Subset.trans (by decide) hF
    | with_reducible apply keeps_ite
    | (intro _)
    | with_reducible apply keeps_foldl
    | with_reducible apply keeps_foldl_fst
    | with_reducible apply keeps_optmap
    | split

theorem keeps_checkOver (s : State) (a1) (hF : [.regs, .sent, .sys, .ports, .tie, .flt, .acq, .mem] ⊆ F) (hs : Keeps F z s) :
    Keeps F z (State.checkOver s a1) := by
  unfold State.checkOver
  repeat' first
    | with_reducible assumption
    | with_reducible apply keeps_onPort
    | with_reducible apply keeps_causePresent
    | with_reducible apply keeps_put
    | with_reducible apply keeps_causeIs
    | exact List.Subset.trans (by decide) hF
    | with_reducible apply keeps_ite
    | (intro _)

theorem keeps_accordLinkCause (s : State) (hF : [.regs, .sent, .sys, .tie, .flt, .acq, .mem] ⊆ F) (hs : Keeps F z s) :
    Keeps F z (State.accordLinkCause s) := by
  unfold State.accordLinkCause
  repeat' first
    | with_reducible assumption
    | with_reducible apply keeps_causeIs

theorem keeps_dlyResult (s : State) (a1) (a2) (hF : [.regs, .sent, .sys, .cells, .ports, .tie, .flt, .acq, .mem] ⊆ F) (hs : Keeps F z s) :
    Keeps F z (State.dlyResult s a1 a2) := by
  unfold State.dlyResult
  repeat' first
    | with_reducible assumption
    | with_reducible apply keeps_checkOver
    | with_reducible apply keeps_wr
    | with_reducible apply keeps_onCell
    | with_reducible apply keeps_accordLinkCause
    | with_reducible apply keeps_put
    | exact List.Subset.trans (by decide) hF
    | with_reducible apply keeps_ite
    | (intro _)
    | with_reducible apply keeps_foldl
    | with_reducible apply keeps_foldl_fst
    | with_reducible apply keeps_optmap
    | split

theorem keeps_dlyRsp (s : State) (a1) (a2) (a3) (hF : [.regs, .sent, .sys, .cells, .ports, .dly, .tie, .flt, .acq, .mem] ⊆ F) (hs : Keeps F z s) :
    Keeps F z (State.dlyRsp s a1 a2 a3) := by
  unfold State.dlyRsp
  repeat' first
    | with_reducible assumption
    | with_reducible apply keeps_sendSet
    | with_reducible apply keeps_onDly
    | with_reducible apply keeps_dlyResult
    | exact List.Subset.trans (by decide) hF
    | with_reducible apply keeps_ite
    | (intro _)

theorem keeps_trainFailCause (s : State) (hF : [.regs, .sent, .sys, .tie, .flt, .acq, .mem] ⊆ F) (hs : Keeps F z s) :
    Keeps F z (State.trainFailCause s) := by
  unfold State.trainFailCause
  repeat' first
    | with_reducible assumption
    | with_reducible apply keeps_causeIs

theorem keeps_portLost (s : State) (a1) (hF : [.regs, .sent, .sys, .tie, .flt, .acq, .mem] ⊆ F) (hs : Keeps F z s) :
    Keeps F z (State.portLost s a1) := by
  unfold State.portLost
  repeat' first
    | with_reducible assumption
    | with_reducible apply keeps_raise
    | with_reducible apply keeps_inc
    | with_reducible apply keeps_put
    | exact List.Subset.trans (by decide) hF
    | with_reducible apply keeps_ite
    | (intro _)

theorem keeps_restartWalk (s : State) (a1) (a2) (hF : [.draws, .regs, .sent, .ports] ⊆ F) (hs : Keeps F z s) :
    Keeps F z (State.restartWalk s a1 a2) := by
  unfold State.restartWalk
  repeat' first
    | with_reducible assumption
    | with_reducible apply keeps_setPort
    | with_reducible apply keeps_walkOn
    | with_reducible apply keeps_put
    | exact List.Subset.trans (by decide) hF
    | with_reducible apply keeps_ite
    | (intro _)
    | with_reducible apply keeps_foldl
    | with_reducible apply keeps_foldl_fst
    | with_reducible apply keeps_optmap
    | split

theorem keeps_segmentUp (s : State) (a1) (a2) (a3) (hF : [.draws, .regs, .sent, .ports] ⊆ F) (hs : Keeps F z s) :
    Keeps F z (State.segmentUp s a1 a2 a3) := by
  unfold State.segmentUp
  repeat' first
    | with_reducible assumption
    | with_reducible apply keeps_restartWalk
    | with_reducible apply keeps_startWalk
    | with_reducible apply keeps_when
    | with_reducible apply keeps_enumerate
    | exact List.Subset.trans (by decide) hF
    | with_reducible apply keeps_ite
    | (intro _)
    | with_reducible apply keeps_foldl
    | with_reducible apply keeps_foldl_fst
    | with_reducible apply keeps_optmap
    | split

theorem keeps_portTrained (s : State) (a1) (a2) (a3) (hF : [.draws, .regs, .sent, .sys, .ports, .dly, .tie, .flt, .acq, .mem] ⊆ F) (hs : Keeps F z s) :
    Keeps F z (State.portTrained s a1 a2 a3) := by
  unfold State.portTrained
  repeat' first
    | with_reducible assumption
    | with_reducible apply keeps_put
    | with_reducible apply keeps_trainFailCause
    | with_reducible apply keeps_wr
    | with_reducible apply keeps_when
    | with_reducible apply keeps_segmentUp
    | with_reducible apply keeps_startDly
    | with_reducible apply keeps_onPort
    | exact List.Subset.trans (by decide) hF
    | with_reducible apply keeps_ite
    | (intro _)

theorem keeps_launch (s : State) (a1) (a2) (a3) (hF : [.regs, .sent, .sys, .ports, .tie, .flt, .acq, .mem] ⊆ F) (hs : Keeps F z s) (ha3 : ∀ x0, Keeps F z x0 → Keeps F z (a3 x0)) :
    Keeps F z (State.launch s a1 a2 a3) := by
  unfold State.launch
  repeat' first
    | with_reducible assumption
    | with_reducible apply ha3
    | with_reducible apply keeps_onPort
    | with_reducible apply keeps_raise
    | with_reducible apply keeps_inc
    | exact List.Subset.trans (by decide) hF
    | with_reducible apply keeps_ite
    | (intro _)
    | with_reducible apply keeps_foldl
    | with_reducible apply keeps_foldl_fst
    | with_reducible apply keeps_optmap
    | split

theorem keeps_launchCommand (s : State) (a1) (hF : [.draws, .regs, .sent, .sys, .ports, .lvl, .tie, .flt, .acq, .mem, .hlt, .od] ⊆ F) (hs : Keeps F z s) :
    Keeps F z (State.launchCommand s a1) := by
  unfold State.launchCommand
  repeat' first
    | with_reducible assumption
    | with_reducible apply keeps_send
    | with_reducible apply keeps_wr
    | with_reducible apply keeps_onPort
    | with_reducible apply keeps_closeTxn
    | exact List.Subset.trans (by decide) hF
    | exact Or.inl (hF (by decide))
    | with_reducible exact Or.inr rfl
    | with_reducible rfl
    | simp only [keeps_lit]
    | (with_reducible refine keeps_mk ?_ rfl rfl rfl ?_ ?_ ?_ ?_ ?_ ?_ ?_ ?_ ?_ ?_ ?_ ?_ ?_ ?_ ?_ ?_ ?_ ?_ ?_ ?_ ?_)
    | exact Or.inr rfl
    | rfl
    | with_reducible apply keeps_ite
    | (intro _)
    | with_reducible apply keeps_foldl
    | with_reducible apply keeps_foldl_fst
    | with_reducible apply keeps_optmap
    | split

theorem keeps_takeSlot (s : State) (a1) (a2) (a3) (hF : [.regs, .sent, .sys, .ports, .lvl, .tie, .flt, .acq, .mem] ⊆ F) (hs : Keeps F z s) :
    Keeps F z (State.takeSlot s a1 a2 a3) := by
  unfold State.takeSlot
  repeat' first
    | with_reducible assumption
    | with_reducible apply keeps_onPort
    | with_reducible apply keeps_onView
    | with_reducible apply keeps_when
    | with_reducible apply keeps_raiseAt
    | exact List.Subset.trans (by decide) hF
    | with_reducible apply keeps_ite
    | (intro _)

theorem keeps_slotRequest (s : State) (a1) (a2) (hF : [.sent] ⊆ F) (hs : Keeps F z s) :
    Keeps F z (State.slotRequest s a1 a2) := by
  unfold State.slotRequest
  repeat' first
    | with_reducible assumption
    | with_reducible apply keeps_sendTie

theorem keeps_takePosition (s : State) (a1) (a2) (a3) (a4) (hF : [.regs, .sent, .sys, .ports, .lvl, .tie, .flt, .acq, .mem] ⊆ F) (hs : Keeps F z s) :
    Keeps F z (State.takePosition s a1 a2 a3 a4) := by
  unfold State.takePosition
  repeat' first
    | with_reducible assumption
    | with_reducible apply keeps_takeSlot
    | with_reducible apply keeps_slotRequest
    | with_reducible apply keeps_inc
    | with_reducible apply keeps_onView
    | exact List.Subset.trans (by decide) hF
    | exact Or.inl (hF (by decide))
    | with_reducible exact Or.inr rfl
    | with_reducible rfl
    | simp only [keeps_lit]
    | (with_reducible refine keeps_mk ?_ rfl rfl rfl ?_ ?_ ?_ ?_ ?_ ?_ ?_ ?_ ?_ ?_ ?_ ?_ ?_ ?_ ?_ ?_ ?_ ?_ ?_ ?_ ?_)
    | exact Or.inr rfl
    | rfl
    | with_reducible apply keeps_ite
    | (intro _)
    | with_reducible apply keeps_foldl
    | with_reducible apply keeps_foldl_fst
    | with_reducible apply keeps_optmap
    | split

theorem keeps_takeResponse (s : State) (a1) (a2) (hF : [.sent, .ports] ⊆ F) (hs : Keeps F z s) :
    Keeps F z (State.takeResponse s a1 a2) := by
  unfold State.takeResponse
  repeat' first
    | with_reducible assumption
    | with_reducible apply keeps_onPort
    | with_reducible apply keeps_sendTie
    | with_reducible apply keeps_when
    | exact List.Subset.trans (by decide) hF
    | with_reducible apply keeps_ite
    | (intro _)

theorem keeps_collectionAt (s : State) (a1) (a2) (a3) (hF : [.regs, .sent, .sys, .ports, .lvl, .tie, .flt, .acq, .mem] ⊆ F) (hs : Keeps F z s) :
    Keeps F z (State.collectionAt s a1 a2 a3) := by
  unfold State.collectionAt
  repeat' first
    | with_reducible assumption
    | with_reducible apply keeps_when
    | with_reducible apply keeps_inc
    | with_reducible apply keeps_forN
    | with_reducible apply keeps_takePosition
    | with_reducible apply keeps_onPort
    | with_reducible apply keeps_takeResponse
    | exact List.Subset.trans (by decide) hF
    | exact Or.inl (hF (by decide))
    | with_reducible exact Or.inr rfl
    | with_reducible rfl
    | simp only [keeps_lit]
    | (with_reducible refine keeps_mk ?_ rfl rfl rfl ?_ ?_ ?_ ?_ ?_ ?_ ?_ ?_ ?_ ?_ ?_ ?_ ?_ ?_ ?_ ?_ ?_ ?_ ?_ ?_ ?_)
    | exact Or.inr rfl
    | rfl
    | with_reducible apply keeps_ite
    | (intro _)

theorem keeps_collectionReceived (s : State) (a1) (a2) (hF : [.regs, .sent, .sys, .ports, .lvl, .tie, .flt, .acq, .mem] ⊆ F) (hs : Keeps F z s) :
    Keeps F z (State.collectionReceived s a1 a2) := by
  unfold State.collectionReceived
  repeat' first
    | with_reducible assumption
    | with_reducible apply keeps_collectionAt
    | exact List.Subset.trans (by decide) hF
    | with_reducible apply keeps_ite
    | (intro _)

theorem keeps_mbResponse (s : State) (a1) (hF : [.draws, .regs, .sent, .sys, .ports, .tie, .flt, .acq, .mem, .hlt, .od] ⊆ F) (hs : Keeps F z s) :
    Keeps F z (State.mbResponse s a1) := by
  unfold State.mbResponse
  repeat' first
    | with_reducible assumption
    | with_reducible apply keeps_onPort
    | with_reducible apply keeps_closeTxn
    | exact List.Subset.trans (by decide) hF
    | with_reducible apply keeps_ite
    | (intro _)
    | with_reducible apply keeps_foldl
    | with_reducible apply keeps_foldl_fst
    | with_reducible apply keeps_optmap
    | split
    | (dsimp only; split)

theorem keeps_mbTimeout (s : State) (a1) (hF : [.draws, .regs, .sent, .sys, .ports, .tie, .flt, .acq, .mem, .hlt, .od] ⊆ F) (hs : Keeps F z s) :
    Keeps F z (State.mbTimeout s a1) := by
  unfold State.mbTimeout
  repeat' first
    | with_reducible assumption
    | with_reducible apply keeps_onPort
    | with_reducible apply keeps_closeTxn
    | exact List.Subset.trans (by decide) hF
    | with_reducible apply keeps_ite
    | (intro _)
    | with_reducible apply keeps_foldl
    | with_reducible apply keeps_foldl_fst
    | with_reducible apply keeps_optmap
    | split

theorem keeps_errClr (s : State) (a1) (hF : [.regs] ⊆ F) (hs : Keeps F z s) :
    Keeps F z (State.errClr s a1) := by
  unfold State.errClr
  repeat' first
    | with_reducible assumption
    | with_reducible apply keeps_setWord

theorem keeps_acceptPos (s : State) (a1) (a2) (hF : [.draws, .regs, .sent, .ports] ⊆ F) (hs : Keeps F z s) :
    Keeps F z (State.acceptPos s a1 a2) := by
  unfold State.acceptPos
  repeat' first
    | with_reducible assumption
    | with_reducible apply keeps_wr
    | with_reducible apply keeps_recount
    | with_reducible apply keeps_put
    | with_reducible apply keeps_ask
    | exact List.Subset.trans (by decide) hF

theorem keeps_acceptMember (s : State) (a1) (a2) (hF : [.draws, .regs, .sent, .ports] ⊆ F) (hs : Keeps F z s) :
    Keeps F z (State.acceptMember s a1 a2) := by
  unfold State.acceptMember
  repeat' first
    | with_reducible assumption
    | with_reducible apply keeps_wr
    | with_reducible apply keeps_put
    | with_reducible apply keeps_ask
    | exact List.Subset.trans (by decide) hF

theorem keeps_enumAccept (s : State) (a1) (a2) (hF : [.draws, .regs, .sent, .ports] ⊆ F) (hs : Keeps F z s) :
    Keeps F z (State.enumAccept s a1 a2).1 := by
  unfold State.enumAccept
  repeat' first
    | with_reducible assumption
    | with_reducible apply keeps_put
    | with_reducible apply keeps_forN
    | with_reducible apply keeps_when
    | with_reducible apply keeps_acceptPos
    | with_reducible apply keeps_acceptMember
    | exact List.Subset.trans (by decide) hF
    | with_reducible apply keeps_ite
    | with_reducible apply keeps_ite_fst
    | (intro _)

end Sys2Proof.Machine
end

