-- ==== Sys2Proof/Laws/KeepsEngines.lean ====
section
/-! SUPPORT. What the control engine, the level engine and the time base keep, one lemma per operation. -/

namespace Sys2Proof.Machine

variable {F : List Part} {z : State}

theorem keeps_onCtx (s : State) (a1) (a2) (hF : [.ctl] ⊆ F) (hs : Keeps F z s) :
    Keeps F z (State.onCtx s a1 a2) := by
  unfold State.onCtx
  repeat' first
    | with_reducible assumption
    | exact List.Subset.trans (by decide) hF
    | exact Or.inl (hF (by decide))
    | with_reducible exact Or.inr rfl
    | with_reducible rfl
    | simp only [keeps_lit]
    | (with_reducible refine keeps_mk ?_ rfl rfl rfl ?_ ?_ ?_ ?_ ?_ ?_ ?_ ?_ ?_ ?_ ?_ ?_ ?_ ?_ ?_ ?_ ?_ ?_ ?_ ?_ ?_)

theorem keeps_setCoef (s : State) (a1) (a2) (a3) (a4) (hF : [.ctl] ⊆ F) (hs : Keeps F z s) :
    Keeps F z (State.setCoef s a1 a2 a3 a4) := by
  unfold State.setCoef
  repeat' first
    | with_reducible assumption
    | exact List.Subset.trans (by decide) hF
    | exact Or.inl (hF (by decide))
    | with_reducible exact Or.inr rfl
    | with_reducible rfl
    | simp only [keeps_lit]
    | (with_reducible refine keeps_mk ?_ rfl rfl rfl ?_ ?_ ?_ ?_ ?_ ?_ ?_ ?_ ?_ ?_ ?_ ?_ ?_ ?_ ?_ ?_ ?_ ?_ ?_ ?_ ?_)

theorem keeps_numEvent (s : State) (a1) (hF : [.regs, .ctl] ⊆ F) (hs : Keeps F z s) :
    Keeps F z (State.numEvent s a1) := by
  unfold State.numEvent
  repeat' first
    | with_reducible assumption
    | with_reducible apply keeps_inc
    | with_reducible apply keeps_putBit
    | exact List.Subset.trans (by decide) hF
    | exact Or.inl (hF (by decide))
    | with_reducible exact Or.inr rfl
    | with_reducible rfl
    | simp only [keeps_lit]
    | (with_reducible refine keeps_mk ?_ rfl rfl rfl ?_ ?_ ?_ ?_ ?_ ?_ ?_ ?_ ?_ ?_ ?_ ?_ ?_ ?_ ?_ ?_ ?_ ?_ ?_ ?_ ?_)

theorem keeps_onArm (s : State) (a1) (a2) (hF : [.lvl] ⊆ F) (hs : Keeps F z s) :
    Keeps F z (State.onArm s a1 a2) := by
  unfold State.onArm
  repeat' first
    | with_reducible assumption
    | exact List.Subset.trans (by decide) hF
    | exact Or.inl (hF (by decide))
    | with_reducible exact Or.inr rfl
    | with_reducible rfl
    | simp only [keeps_lit]
    | (with_reducible refine keeps_mk ?_ rfl rfl rfl ?_ ?_ ?_ ?_ ?_ ?_ ?_ ?_ ?_ ?_ ?_ ?_ ?_ ?_ ?_ ?_ ?_ ?_ ?_ ?_ ?_)

theorem keeps_spLose (s : State) (a1) (hF : [.regs, .sent, .sys, .tie, .flt, .acq, .mem] ⊆ F) (hs : Keeps F z s) :
    Keeps F z (State.spLose s a1) := by
  unfold State.spLose
  repeat' first
    | with_reducible assumption
    | with_reducible apply keeps_raise
    | with_reducible apply keeps_put
    | exact List.Subset.trans (by decide) hF
    | with_reducible apply keeps_ite
    | (intro _)

theorem keeps_spUpdate (s : State) (a1) (hF : [.regs, .sent, .sys, .ctl, .tie, .flt, .acq, .mem] ⊆ F) (hs : Keeps F z s) :
    Keeps F z (State.spUpdate s a1) := by
  unfold State.spUpdate
  repeat' first
    | with_reducible assumption
    | with_reducible apply keeps_wr
    | with_reducible apply keeps_put
    | with_reducible apply keeps_inc
    | with_reducible apply keeps_when
    | with_reducible apply keeps_spLose
    | exact List.Subset.trans (by decide) hF
    | exact Or.inl (hF (by decide))
    | with_reducible exact Or.inr rfl
    | with_reducible rfl
    | simp only [keeps_lit]
    | (with_reducible refine keeps_mk ?_ rfl rfl rfl ?_ ?_ ?_ ?_ ?_ ?_ ?_ ?_ ?_ ?_ ?_ ?_ ?_ ?_ ?_ ?_ ?_ ?_ ?_ ?_ ?_)
    | exact Or.inr rfl
    | rfl
    | with_reducible apply keeps_ite
    | (intro _)
    | with_reducible apply keeps_foldl
    | with_reducible apply keeps_foldl_fst
    | with_reducible apply keeps_optmap
    | split

theorem keeps_repCount (s : State) (hF : [.ctl] ⊆ F) (hs : Keeps F z s) :
    Keeps F z (State.repCount s) := by
  unfold State.repCount
  repeat' first
    | with_reducible assumption
    | with_reducible apply keeps_forN
    | with_reducible apply keeps_when
    | exact List.Subset.trans (by decide) hF
    | exact Or.inl (hF (by decide))
    | with_reducible exact Or.inr rfl
    | with_reducible rfl
    | simp only [keeps_lit]
    | (with_reducible refine keeps_mk ?_ rfl rfl rfl ?_ ?_ ?_ ?_ ?_ ?_ ?_ ?_ ?_ ?_ ?_ ?_ ?_ ?_ ?_ ?_ ?_ ?_ ?_ ?_ ?_)
    | exact Or.inr rfl
    | rfl
    | with_reducible apply keeps_ite
    | (intro _)
    | with_reducible apply keeps_foldl

theorem keeps_showStale (s : State) (a1) (a2) (hF : [.regs] ⊆ F) (hs : Keeps F z s) :
    Keeps F z (State.showStale s a1 a2) := by
  unfold State.showStale
  repeat' first
    | with_reducible assumption
    | with_reducible apply keeps_wr

theorem keeps_deliverOut (s : State) (a1) (a2) (hF : [.regs, .ctl] ⊆ F) (hs : Keeps F z s) :
    Keeps F z (State.deliverOut s a1 a2) := by
  unfold State.deliverOut
  repeat' first
    | with_reducible assumption
    | with_reducible apply keeps_when
    | with_reducible apply keeps_onCtx
    | with_reducible apply keeps_numEvent
    | exact List.Subset.trans (by decide) hF
    | with_reducible apply keeps_ite
    | (intro _)

theorem keeps_fire (s : State) (a1) (a2) (a3) (hF : [.ctl] ⊆ F) (hs : Keeps F z s) :
    Keeps F z (State.fire s a1 a2 a3) := by
  unfold State.fire
  repeat' first
    | with_reducible assumption
    | with_reducible apply keeps_onCtx
    | exact List.Subset.trans (by decide) hF
    | with_reducible apply keeps_ite
    | (intro _)

theorem keeps_markReturn (s : State) (a1) (a2) (hF : [.ctl] ⊆ F) (hs : Keeps F z s) :
    Keeps F z (State.markReturn s a1 a2) := by
  unfold State.markReturn
  repeat' first
    | with_reducible assumption
    | with_reducible apply keeps_onCtx

theorem keeps_monitor (s : State) (a1) (a2) (a3) (a4) (a5) (a6) (a7) (hF : [.regs, .ctl] ⊆ F) (hs : Keeps F z s) :
    Keeps F z (State.monitor s a1 a2 a3 a4 a5 a6 a7) := by
  unfold State.monitor
  repeat' first
    | with_reducible assumption
    | with_reducible apply keeps_wr
    | with_reducible apply keeps_when
    | with_reducible apply keeps_onCtx
    | with_reducible apply keeps_fire
    | with_reducible apply keeps_markReturn
    | exact List.Subset.trans (by decide) hF
    | with_reducible apply keeps_ite
    | (intro _)

theorem keeps_readmit (s : State) (a1) (a2) (hF : [.regs, .ctl] ⊆ F) (hs : Keeps F z s) :
    Keeps F z (State.readmit s a1 a2) := by
  unfold State.readmit
  repeat' first
    | with_reducible assumption
    | with_reducible apply keeps_setWord
    | with_reducible apply keeps_putBit
    | with_reducible apply keeps_onCtx
    | exact List.Subset.trans (by decide) hF

theorem keeps_coastExpire (s : State) (a1) (hF : [.regs, .sent, .sys, .ctl, .tie, .flt, .acq, .mem] ⊆ F) (hs : Keeps F z s) :
    Keeps F z (State.coastExpire s a1) := by
  unfold State.coastExpire
  repeat' first
    | with_reducible assumption
    | with_reducible apply keeps_raise
    | with_reducible apply keeps_put
    | with_reducible apply keeps_onCtx
    | exact List.Subset.trans (by decide) hF
    | with_reducible apply keeps_ite
    | (intro _)

theorem keeps_coastTick (s : State) (a1) (hF : [.regs, .sent, .sys, .ctl, .tie, .flt, .acq, .mem] ⊆ F) (hs : Keeps F z s) :
    Keeps F z (State.coastTick s a1) := by
  unfold State.coastTick
  repeat' first
    | with_reducible assumption
    | with_reducible apply keeps_onCtx
    | with_reducible apply keeps_wr
    | with_reducible apply keeps_put
    | with_reducible apply keeps_coastExpire
    | with_reducible apply keeps_inc
    | with_reducible apply keeps_raise
    | exact List.Subset.trans (by decide) hF
    | with_reducible apply keeps_ite
    | (intro _)

theorem keeps_repLearn (s : State) (a1) (a2) (a3) (a4) (a5) (a6) (a7) (hF : [.regs, .sent, .sys, .ctl, .tie, .flt, .acq, .mem] ⊆ F) (hs : Keeps F z s) :
    Keeps F z (State.repLearn s a1 a2 a3 a4 a5 a6 a7) := by
  unfold State.repLearn
  repeat' first
    | with_reducible assumption
    | with_reducible apply keeps_when
    | with_reducible apply keeps_store32
    | with_reducible apply keeps_putBit
    | with_reducible apply keeps_raise
    | with_reducible apply keeps_wr
    | with_reducible apply keeps_numEvent
    | exact List.Subset.trans (by decide) hF
    | with_reducible apply keeps_ite
    | (intro _)

theorem keeps_finishStep (s : State) (a1) (a2) (a3) (a4) (a5) (hF : [.regs, .sent, .sys, .ctl, .tie, .flt, .acq, .mem] ⊆ F) (hs : Keeps F z s) :
    Keeps F z (State.finishStep s a1 a2 a3 a4 a5) := by
  unfold State.finishStep
  repeat' first
    | with_reducible assumption
    | with_reducible apply keeps_deliverOut
    | with_reducible apply keeps_when
    | with_reducible apply keeps_readmit
    | with_reducible apply keeps_coastTick
    | with_reducible apply keeps_numEvent
    | with_reducible apply keeps_repLearn
    | with_reducible apply keeps_onCtx
    | with_reducible apply keeps_monitor
    | exact List.Subset.trans (by decide) hF
    | with_reducible apply keeps_ite
    | (intro _)
    | with_reducible apply keeps_foldl

theorem keeps_unfinished (s : State) (a1) (hF : [.regs, .sent, .sys, .ctl, .tie, .flt, .acq, .mem] ⊆ F) (hs : Keeps F z s) :
    Keeps F z (State.unfinished s a1) := by
  unfold State.unfinished
  repeat' first
    | with_reducible assumption
    | with_reducible apply keeps_coastTick
    | with_reducible apply keeps_inc
    | with_reducible apply keeps_putBit
    | with_reducible apply keeps_when
    | exact List.Subset.trans (by decide) hF
    | with_reducible apply keeps_ite
    | (intro _)
    | with_reducible apply keeps_foldl

theorem keeps_groupResolved (s : State) (a1) (a2) (a3) (a4) (hF : [.regs, .ctl] ⊆ F) (hs : Keeps F z s) :
    Keeps F z (State.groupResolved s a1 a2 a3 a4) := by
  unfold State.groupResolved
  repeat' first
    | with_reducible assumption
    | with_reducible apply keeps_put
    | with_reducible apply keeps_wr
    | with_reducible apply keeps_inc
    | exact List.Subset.trans (by decide) hF
    | exact Or.inl (hF (by decide))
    | with_reducible exact Or.inr rfl
    | with_reducible rfl
    | simp only [keeps_lit]
    | (with_reducible refine keeps_mk ?_ rfl rfl rfl ?_ ?_ ?_ ?_ ?_ ?_ ?_ ?_ ?_ ?_ ?_ ?_ ?_ ?_ ?_ ?_ ?_ ?_ ?_ ?_ ?_)
    | exact Or.inr rfl
    | rfl
    | with_reducible apply keeps_ite
    | (intro _)
    | with_reducible apply keeps_foldl
    | with_reducible apply keeps_foldl_fst
    | with_reducible apply keeps_optmap
    | split

theorem keeps_runNode (s : State) (a1) (a2) (a3) (hF : [.regs, .sent, .sys, .ctl, .tie, .flt, .acq, .mem] ⊆ F) (hs : Keeps F z s) :
    Keeps F z (State.runNode s a1 a2 a3) := by
  unfold State.runNode
  repeat' first
    | with_reducible assumption
    | with_reducible apply keeps_when
    | with_reducible apply keeps_showStale
    | with_reducible apply keeps_finishStep
    | with_reducible apply keeps_deliverOut
    | with_reducible apply keeps_unfinished
    | with_reducible apply keeps_groupResolved
    | exact List.Subset.trans (by decide) hF
    | with_reducible apply keeps_ite
    | (intro _)
    | with_reducible apply keeps_foldl
    | with_reducible apply keeps_foldl_fst
    | with_reducible apply keeps_optmap
    | split
    | (dsimp only; split)

theorem keeps_scheduleNode (a0) (a1) (a2) (a3) (hF : [.regs, .sent, .sys, .ctl, .tie, .flt, .acq, .mem] ⊆ F) (ha2 : Keeps F z a2.1) :
    Keeps F z (State.scheduleNode a0 a1 a2 a3).1 := by
  unfold State.scheduleNode
  repeat' first
    | with_reducible assumption
    | with_reducible apply keeps_runNode
    | exact List.Subset.trans (by decide) hF
    | with_reducible apply keeps_ite
    | with_reducible apply keeps_ite_fst
    | (intro _)

theorem keeps_overrun (s : State) (a1) (hF : [.regs, .sent, .sys, .tie, .flt, .acq, .mem] ⊆ F) (hs : Keeps F z s) :
    Keeps F z (State.overrun s a1) := by
  unfold State.overrun
  repeat' first
    | with_reducible assumption
    | with_reducible apply keeps_wr
    | with_reducible apply keeps_inc
    | with_reducible apply keeps_put
    | with_reducible apply keeps_raise
    | exact List.Subset.trans (by decide) hF
    | with_reducible apply keeps_ite
    | (intro _)
    | with_reducible apply keeps_foldl
    | with_reducible apply keeps_foldl_fst
    | with_reducible apply keeps_optmap
    | split

theorem keeps_coastStart (s : State) (a1) (hF : [.regs, .ctl] ⊆ F) (hs : Keeps F z s) :
    Keeps F z (State.coastStart s a1) := by
  unfold State.coastStart
  repeat' first
    | with_reducible assumption
    | with_reducible apply keeps_wr
    | with_reducible apply keeps_putBit
    | with_reducible apply keeps_onCtx
    | with_reducible apply keeps_readmit
    | exact List.Subset.trans (by decide) hF
    | with_reducible apply keeps_ite
    | (intro _)
    | with_reducible apply keeps_foldl

theorem keeps_applySwap (s : State) (a1) (hF : [.regs, .ctl] ⊆ F) (hs : Keeps F z s) :
    Keeps F z (State.applySwap s a1) := by
  unfold State.applySwap
  repeat' first
    | with_reducible assumption
    | with_reducible apply keeps_forN
    | with_reducible apply keeps_putBit
    | with_reducible apply keeps_wr
    | with_reducible apply keeps_put
    | with_reducible apply keeps_when
    | with_reducible apply keeps_onCtx
    | exact List.Subset.trans (by decide) hF
    | exact Or.inl (hF (by decide))
    | with_reducible exact Or.inr rfl
    | with_reducible rfl
    | simp only [keeps_lit]
    | (with_reducible refine keeps_mk ?_ rfl rfl rfl ?_ ?_ ?_ ?_ ?_ ?_ ?_ ?_ ?_ ?_ ?_ ?_ ?_ ?_ ?_ ?_ ?_ ?_ ?_ ?_ ?_)
    | exact Or.inr rfl
    | rfl
    | with_reducible apply keeps_ite
    | (intro _)

theorem keeps_swapGo (s : State) (a1) (a2) (hF : [.regs, .ctl] ⊆ F) (hs : Keeps F z s) :
    Keeps F z (State.swapGo s a1 a2) := by
  unfold State.swapGo
  repeat' first
    | with_reducible assumption
    | with_reducible apply keeps_put
    | with_reducible apply keeps_applySwap
    | exact List.Subset.trans (by decide) hF
    | exact Or.inl (hF (by decide))
    | with_reducible exact Or.inr rfl
    | with_reducible rfl
    | simp only [keeps_lit]
    | (with_reducible refine keeps_mk ?_ rfl rfl rfl ?_ ?_ ?_ ?_ ?_ ?_ ?_ ?_ ?_ ?_ ?_ ?_ ?_ ?_ ?_ ?_ ?_ ?_ ?_ ?_ ?_)
    | exact Or.inr rfl
    | rfl
    | with_reducible apply keeps_ite
    | (intro _)

theorem keeps_runEngine (s : State) (a1) (hF : [.regs, .sent, .sys, .ctl, .tie, .flt, .acq, .mem] ⊆ F) (hs : Keeps F z s) :
    Keeps F z (State.runEngine s a1) := by
  unfold State.runEngine
  repeat' first
    | with_reducible assumption
    | with_reducible apply keeps_applySwap
    | with_reducible apply keeps_forN
    | with_reducible apply keeps_spUpdate
    | with_reducible apply keeps_coastStart
    | with_reducible apply keeps_repCount
    | with_reducible apply keeps_put
    | with_reducible apply keeps_scheduleNode
    | with_reducible refine keeps_fst (keeps_scheduleNode _ _ _ _ ?_ ?_) (by assumption)
    | with_reducible apply keeps_wr
    | with_reducible apply keeps_overrun
    | with_reducible apply keeps_when
    | with_reducible apply keeps_raise
    | with_reducible apply keeps_inc
    | exact List.Subset.trans (by decide) hF
    | exact Or.inl (hF (by decide))
    | with_reducible exact Or.inr rfl
    | with_reducible rfl
    | simp only [keeps_lit]
    | (with_reducible refine keeps_mk ?_ rfl rfl rfl ?_ ?_ ?_ ?_ ?_ ?_ ?_ ?_ ?_ ?_ ?_ ?_ ?_ ?_ ?_ ?_ ?_ ?_ ?_ ?_ ?_)
    | exact Or.inr rfl
    | rfl
    | with_reducible apply keeps_ite
    | (intro _)
    | with_reducible apply keeps_foldl
    | with_reducible apply keeps_foldl_fst
    | with_reducible apply keeps_optmap
    | split

theorem keeps_initEngine (s : State) (hF : [.regs, .ctl] ⊆ F) (hs : Keeps F z s) :
    Keeps F z (State.initEngine s) := by
  unfold State.initEngine
  repeat' first
    | with_reducible assumption
    | with_reducible apply keeps_onCtx
    | with_reducible apply keeps_forN
    | with_reducible apply keeps_wr
    | with_reducible apply keeps_setWord
    | with_reducible apply keeps_put
    | exact List.Subset.trans (by decide) hF
    | exact Or.inl (hF (by decide))
    | with_reducible exact Or.inr rfl
    | with_reducible rfl
    | simp only [keeps_lit]
    | (with_reducible refine keeps_mk ?_ rfl rfl rfl ?_ ?_ ?_ ?_ ?_ ?_ ?_ ?_ ?_ ?_ ?_ ?_ ?_ ?_ ?_ ?_ ?_ ?_ ?_ ?_ ?_)
    | exact Or.inr rfl
    | rfl
    | with_reducible apply keeps_ite
    | (intro _)
    | with_reducible apply keeps_foldl

theorem keeps_coastCmd (s : State) (a1) (a2) (a3) (hF : [.ctl] ⊆ F) (hs : Keeps F z s) :
    Keeps F z (State.coastCmd s a1 a2 a3) := by
  unfold State.coastCmd
  repeat' first
    | with_reducible assumption
    | with_reducible apply keeps_onCtx

theorem keeps_injectOverrun (s : State) (a1) (hF : [.ctl] ⊆ F) (hs : Keeps F z s) :
    Keeps F z (State.injectOverrun s a1) := by
  unfold State.injectOverrun
  repeat' first
    | with_reducible assumption
    | with_reducible apply keeps_when
    | exact List.Subset.trans (by decide) hF
    | exact Or.inl (hF (by decide))
    | with_reducible exact Or.inr rfl
    | with_reducible rfl
    | simp only [keeps_lit]
    | (with_reducible refine keeps_mk ?_ rfl rfl rfl ?_ ?_ ?_ ?_ ?_ ?_ ?_ ?_ ?_ ?_ ?_ ?_ ?_ ?_ ?_ ?_ ?_ ?_ ?_ ?_ ?_)
    | exact Or.inr rfl
    | rfl
    | with_reducible apply keeps_ite
    | (intro _)

theorem keeps_ctlClear (s : State) (a1) (hF : [.regs] ⊆ F) (hs : Keeps F z s) :
    Keeps F z (State.ctlClear s a1) := by
  unfold State.ctlClear
  repeat' first
    | with_reducible assumption
    | with_reducible apply keeps_when
    | with_reducible apply keeps_wr
    | with_reducible apply keeps_forN
    | with_reducible apply keeps_setWord
    | exact List.Subset.trans (by decide) hF
    | with_reducible apply keeps_ite
    | (intro _)

theorem keeps_commitKeys (s : State) (hF : [.lvl] ⊆ F) (hs : Keeps F z s) :
    Keeps F z (State.commitKeys s) := by
  unfold State.commitKeys
  repeat' first
    | with_reducible assumption
    | with_reducible apply keeps_forL
    | with_reducible apply keeps_when
    | with_reducible apply keeps_onView
    | exact List.Subset.trans (by decide) hF
    | exact Or.inl (hF (by decide))
    | with_reducible exact Or.inr rfl
    | with_reducible rfl
    | simp only [keeps_lit]
    | (with_reducible refine keeps_mk ?_ rfl rfl rfl ?_ ?_ ?_ ?_ ?_ ?_ ?_ ?_ ?_ ?_ ?_ ?_ ?_ ?_ ?_ ?_ ?_ ?_ ?_ ?_ ?_)
    | exact Or.inr rfl
    | rfl
    | with_reducible apply keeps_ite
    | (intro _)

theorem keeps_testCells (s : State) (hF : [.lvl] ⊆ F) (hs : Keeps F z s) :
    Keeps F z (State.testCells s) := by
  unfold State.testCells
  repeat' first
    | with_reducible assumption
    | with_reducible apply keeps_forL
    | with_reducible apply keeps_onView
    | exact List.Subset.trans (by decide) hF
    | with_reducible apply keeps_ite
    | (intro _)

theorem keeps_enterLevels (s : State) (a1) (hF : [.lvl] ⊆ F) (hs : Keeps F z s) :
    Keeps F z (State.enterLevels s a1) := by
  unfold State.enterLevels
  repeat' first
    | with_reducible assumption
    | with_reducible apply keeps_forL
    | with_reducible apply keeps_onView
    | exact List.Subset.trans (by decide) hF
    | exact Or.inl (hF (by decide))
    | with_reducible exact Or.inr rfl
    | with_reducible rfl
    | simp only [keeps_lit]
    | (with_reducible refine keeps_mk ?_ rfl rfl rfl ?_ ?_ ?_ ?_ ?_ ?_ ?_ ?_ ?_ ?_ ?_ ?_ ?_ ?_ ?_ ?_ ?_ ?_ ?_ ?_ ?_)
    | exact Or.inr rfl
    | rfl
    | with_reducible apply keeps_ite
    | (intro _)

theorem keeps_requestBypass (s : State) (a1) (hF : [.regs, .sent, .sys, .lvl, .tie, .flt, .acq, .mem] ⊆ F) (hs : Keeps F z s) :
    Keeps F z (State.requestBypass s a1) := by
  unfold State.requestBypass
  repeat' first
    | with_reducible assumption
    | with_reducible apply keeps_onView
    | with_reducible apply keeps_raiseAt
    | exact List.Subset.trans (by decide) hF
    | exact Or.inl (hF (by decide))
    | with_reducible exact Or.inr rfl
    | with_reducible rfl
    | simp only [keeps_lit]
    | (with_reducible refine keeps_mk ?_ rfl rfl rfl ?_ ?_ ?_ ?_ ?_ ?_ ?_ ?_ ?_ ?_ ?_ ?_ ?_ ?_ ?_ ?_ ?_ ?_ ?_ ?_ ?_)

theorem keeps_bypassDone (s : State) (a1) (hF : [.lvl] ⊆ F) (hs : Keeps F z s) :
    Keeps F z (State.bypassDone s a1) := by
  unfold State.bypassDone
  repeat' first
    | with_reducible assumption
    | with_reducible apply keeps_when
    | with_reducible apply keeps_onView
    | exact List.Subset.trans (by decide) hF
    | with_reducible apply keeps_ite
    | (intro _)

theorem keeps_bypassRequests (s : State) (hF : [.regs, .sent, .sys, .lvl, .tie, .flt, .acq, .mem] ⊆ F) (hs : Keeps F z s) :
    Keeps F z (State.bypassRequests s) := by
  unfold State.bypassRequests
  repeat' first
    | with_reducible assumption
    | with_reducible apply keeps_forL
    | with_reducible apply keeps_bypassDone
    | with_reducible apply keeps_when
    | with_reducible apply keeps_requestBypass
    | exact List.Subset.trans (by decide) hF
    | with_reducible apply keeps_ite
    | (intro _)

theorem keeps_decay (s : State) (hF : [.lvl] ⊆ F) (hs : Keeps F z s) :
    Keeps F z (State.decay s) := by
  unfold State.decay
  repeat' first
    | with_reducible assumption
    | with_reducible apply keeps_forN
    | with_reducible apply keeps_when
    | with_reducible apply keeps_forL
    | with_reducible apply keeps_onView
    | exact List.Subset.trans (by decide) hF
    | exact Or.inl (hF (by decide))
    | with_reducible exact Or.inr rfl
    | with_reducible rfl
    | simp only [keeps_lit]
    | (with_reducible refine keeps_mk ?_ rfl rfl rfl ?_ ?_ ?_ ?_ ?_ ?_ ?_ ?_ ?_ ?_ ?_ ?_ ?_ ?_ ?_ ?_ ?_ ?_ ?_ ?_ ?_)
    | exact Or.inr rfl
    | rfl
    | with_reducible apply keeps_ite
    | (intro _)

theorem keeps_keepRecord (s : State) (a1) (a2) (a3) (hF : [.regs, .lvl] ⊆ F) (hs : Keeps F z s) :
    Keeps F z (State.keepRecord s a1 a2 a3) := by
  unfold State.keepRecord
  repeat' first
    | with_reducible assumption
    | with_reducible apply keeps_onView
    | with_reducible apply keeps_when
    | with_reducible apply keeps_inc
    | exact List.Subset.trans (by decide) hF
    | exact Or.inl (hF (by decide))
    | with_reducible exact Or.inr rfl
    | with_reducible rfl
    | simp only [keeps_lit]
    | (with_reducible refine keeps_mk ?_ rfl rfl rfl ?_ ?_ ?_ ?_ ?_ ?_ ?_ ?_ ?_ ?_ ?_ ?_ ?_ ?_ ?_ ?_ ?_ ?_ ?_ ?_ ?_)
    | exact Or.inr rfl
    | rfl
    | with_reducible apply keeps_ite
    | (intro _)

theorem keeps_buildSorted (s : State) (a1) (a2) (a3) (a4) (hF : [.regs, .lvl] ⊆ F) (hs : Keeps F z s) :
    Keeps F z (State.buildSorted s a1 a2 a3 a4) := by
  unfold State.buildSorted
  repeat' first
    | with_reducible assumption
    | with_reducible apply keeps_forL
    | with_reducible apply keeps_keepRecord
    | exact List.Subset.trans (by decide) hF
    | with_reducible apply keeps_ite
    | (intro _)

theorem keeps_buildCarrier (s : State) (a1) (a2) (a3) (a4) (hF : [.draws, .regs, .lvl] ⊆ F) (hs : Keeps F z s) :
    Keeps F z (State.buildCarrier s a1 a2 a3 a4) := by
  unfold State.buildCarrier
  repeat' first
    | with_reducible assumption
    | with_reducible apply keeps_forL
    | with_reducible apply keeps_draw
    | with_reducible refine keeps_snd (keeps_draw _ ?_ ?_) (by assumption)
    | with_reducible apply keeps_keepRecord
    | exact List.Subset.trans (by decide) hF
    | with_reducible apply keeps_ite
    | (intro _)
    | with_reducible apply keeps_foldl
    | with_reducible apply keeps_foldl_fst
    | with_reducible apply keeps_optmap
    | split

theorem keeps_buildArm (s : State) (a1) (hF : [.draws, .regs, .lvl] ⊆ F) (hs : Keeps F z s) :
    Keeps F z (State.buildArm s a1).1 := by
  unfold State.buildArm
  repeat' first
    | with_reducible assumption
    | with_reducible apply keeps_wr
    | with_reducible apply keeps_onArm
    | with_reducible apply keeps_onView
    | with_reducible apply keeps_put
    | with_reducible apply keeps_putBit
    | with_reducible apply keeps_setWord
    | with_reducible apply keeps_forL
    | with_reducible apply keeps_keepRecord
    | with_reducible apply keeps_buildCarrier
    | with_reducible apply keeps_buildSorted
    | with_reducible apply keeps_when
    | exact List.Subset.trans (by decide) hF
    | with_reducible apply keeps_ite
    | with_reducible apply keeps_ite_fst
    | (intro _)
    | with_reducible apply keeps_foldl

theorem keeps_buildLevels (s : State) (hF : [.draws, .regs, .sent, .sys, .lvl, .tie, .flt, .acq, .mem] ⊆ F) (hs : Keeps F z s) :
    Keeps F z (State.buildLevels s) := by
  unfold State.buildLevels
  repeat' first
    | with_reducible assumption
    | with_reducible apply keeps_bypassRequests
    | with_reducible apply keeps_testCells
    | with_reducible apply keeps_decay
    | with_reducible apply keeps_buildArm
    | with_reducible refine keeps_fst (keeps_buildArm _ _ ?_ ?_) (by assumption)
    | with_reducible apply keeps_causeIs
    | with_reducible apply keeps_when
    | with_reducible apply keeps_raise
    | exact List.Subset.trans (by decide) hF
    | with_reducible apply keeps_ite
    | (intro _)
    | with_reducible apply keeps_foldl
    | with_reducible apply keeps_foldl_fst

theorem keeps_armAggregates (s : State) (s1 : State) (a2) (hF : [.regs, .lvl] ⊆ F) (hs : Keeps F z s) (hs1 : Keeps F z s1) :
    Keeps F z (State.armAggregates s s1 a2) := by
  unfold State.armAggregates
  repeat' first
    | with_reducible assumption
    | with_reducible apply keeps_onArm
    | with_reducible apply keeps_forN
    | with_reducible apply keeps_wr
    | exact List.Subset.trans (by decide) hF
    | with_reducible apply keeps_ite
    | (intro _)

theorem keeps_formAggregates (s : State) (hF : [.regs, .lvl] ⊆ F) (hs : Keeps F z s) :
    Keeps F z (State.formAggregates s) := by
  unfold State.formAggregates
  repeat' first
    | with_reducible assumption
    | with_reducible apply keeps_forN
    | with_reducible apply keeps_armAggregates
    | with_reducible apply keeps_testCells
    | exact List.Subset.trans (by decide) hF
    | with_reducible apply keeps_ite
    | (intro _)

theorem keeps_syncIgnored (s : State) (hF : [.regs] ⊆ F) (hs : Keeps F z s) :
    Keeps F z (State.syncIgnored s) := by
  unfold State.syncIgnored
  repeat' first
    | with_reducible assumption
    | with_reducible apply keeps_inc

theorem keeps_realign (s : State) (a1) (hF : [.draws, .regs, .sent, .ports, .lvl] ⊆ F) (hs : Keeps F z s) :
    Keeps F z (State.realign s a1) := by
  unfold State.realign
  repeat' first
    | with_reducible assumption
    | with_reducible apply keeps_put
    | with_reducible apply keeps_forL
    | with_reducible apply keeps_askFirst
    | with_reducible apply keeps_when
    | exact List.Subset.trans (by decide) hF
    | exact Or.inl (hF (by decide))
    | with_reducible exact Or.inr rfl
    | with_reducible rfl
    | simp only [keeps_lit]
    | (with_reducible refine keeps_mk ?_ rfl rfl rfl ?_ ?_ ?_ ?_ ?_ ?_ ?_ ?_ ?_ ?_ ?_ ?_ ?_ ?_ ?_ ?_ ?_ ?_ ?_ ?_ ?_)
    | exact Or.inr rfl
    | rfl
    | with_reducible apply keeps_ite
    | (intro _)

theorem keeps_syncEdge (s : State) (hF : [.draws, .regs, .sent, .sys, .ports, .lvl, .tie, .flt, .acq, .mem] ⊆ F) (hs : Keeps F z s) :
    Keeps F z (State.syncEdge s) := by
  unfold State.syncEdge
  repeat' first
    | with_reducible assumption
    | with_reducible apply keeps_syncIgnored
    | with_reducible apply keeps_realign
    | with_reducible apply keeps_when
    | with_reducible apply keeps_put
    | with_reducible apply keeps_raise
    | exact List.Subset.trans (by decide) hF
    | exact Or.inl (hF (by decide))
    | with_reducible exact Or.inr rfl
    | with_reducible rfl
    | simp only [keeps_lit]
    | (with_reducible refine keeps_mk ?_ rfl rfl rfl ?_ ?_ ?_ ?_ ?_ ?_ ?_ ?_ ?_ ?_ ?_ ?_ ?_ ?_ ?_ ?_ ?_ ?_ ?_ ?_ ?_)
    | exact Or.inr rfl
    | rfl
    | with_reducible apply keeps_ite
    | (intro _)
    | with_reducible apply keeps_foldl
    | with_reducible apply keeps_foldl_fst
    | with_reducible apply keeps_optmap
    | split

theorem keeps_syncBoundary (s : State) (hF : [.sent, .lvl] ⊆ F) (hs : Keeps F z s) :
    Keeps F z (State.syncBoundary s) := by
  unfold State.syncBoundary
  repeat' first
    | with_reducible assumption
    | with_reducible apply keeps_when
    | with_reducible apply keeps_send
    | exact List.Subset.trans (by decide) hF
    | exact Or.inl (hF (by decide))
    | with_reducible exact Or.inr rfl
    | with_reducible rfl
    | simp only [keeps_lit]
    | (with_reducible refine keeps_mk ?_ rfl rfl rfl ?_ ?_ ?_ ?_ ?_ ?_ ?_ ?_ ?_ ?_ ?_ ?_ ?_ ?_ ?_ ?_ ?_ ?_ ?_ ?_ ?_)
    | exact Or.inr rfl
    | rfl
    | with_reducible apply keeps_ite
    | (intro _)
    | with_reducible apply keeps_foldl
    | with_reducible apply keeps_foldl_fst
    | with_reducible apply keeps_optmap
    | split

theorem keeps_reloadPort (s : State) (a1) (hF : [.draws, .regs, .sent, .ports] ⊆ F) (hs : Keeps F z s) :
    Keeps F z (State.reloadPort s a1) := by
  unfold State.reloadPort
  repeat' first
    | with_reducible assumption
    | with_reducible apply keeps_forN
    | with_reducible apply keeps_when
    | with_reducible apply keeps_ask
    | exact List.Subset.trans (by decide) hF
    | with_reducible apply keeps_ite
    | (intro _)

theorem keeps_stepTo (s : State) (t : Nat) (hF : [.now, .nowFrac, .draws, .regs, .sent, .sys, .cells, .ports] ⊆ F) (h : Keeps F z s) : Keeps F z (s.stepTo t) := by
  unfold State.stepTo
  refine keeps_foldl _ _ (keeps_put _ _ _ (List.Subset.trans (by decide) hF) ⟨⟨h.1.1, fun p hp => ?_⟩, fun c => ?_⟩)
    fun s p h => keeps_reloadPort _ _ (List.Subset.trans (by decide) hF) h
  · have := h.1.2 p hp
    cases p <;> first | exact this | exact absurd (hF (by decide)) hp
  · have c := h.2 c
    refine ⟨c.1, ?_, c.2.2⟩
    show mapWf cellDefault (List.foldl _ s.cells (mapKeys s.cells)) = true
    generalize mapKeys s.cells = l
    have := c.2.1
    generalize s.cells = m at this
    induction l generalizing m with
    | nil => exact this
    | cons k l ih => exact ih _ (mapWf_mapUpd _ _ _ _ this)

theorem keeps_timSetGo (s : State) (a1) (hF : [.now, .nowFrac, .draws, .regs, .sent, .sys, .cells, .ports, .tim] ⊆ F) (hs : Keeps F z s) :
    Keeps F z (State.timSetGo s a1) := by
  unfold State.timSetGo
  repeat' first
    | with_reducible assumption
    | with_reducible apply keeps_wr
    | with_reducible apply keeps_stepTo
    | with_reducible apply keeps_when
    | with_reducible apply keeps_put
    | exact List.Subset.trans (by decide) hF
    | exact Or.inl (hF (by decide))
    | with_reducible exact Or.inr rfl
    | with_reducible rfl
    | simp only [keeps_lit]
    | (with_reducible refine keeps_mk ?_ rfl rfl rfl ?_ ?_ ?_ ?_ ?_ ?_ ?_ ?_ ?_ ?_ ?_ ?_ ?_ ?_ ?_ ?_ ?_ ?_ ?_ ?_ ?_)
    | exact Or.inr rfl
    | rfl
    | with_reducible apply keeps_ite
    | (intro _)

theorem keeps_addStamp (s : State) (a1) (a2) (hF : [.regs, .tim] ⊆ F) (hs : Keeps F z s) :
    Keeps F z (State.addStamp s a1 a2) := by
  unfold State.addStamp
  repeat' first
    | with_reducible assumption
    | with_reducible apply keeps_put
    | exact List.Subset.trans (by decide) hF
    | exact Or.inl (hF (by decide))
    | with_reducible exact Or.inr rfl
    | with_reducible rfl
    | simp only [keeps_lit]
    | (with_reducible refine keeps_mk ?_ rfl rfl rfl ?_ ?_ ?_ ?_ ?_ ?_ ?_ ?_ ?_ ?_ ?_ ?_ ?_ ?_ ?_ ?_ ?_ ?_ ?_ ?_ ?_)
    | exact Or.inr rfl
    | rfl
    | with_reducible apply keeps_ite
    | (intro _)

theorem keeps_sendPtp (s : State) (a1) (a2) (a3) (hF : [.regs, .sent, .tim] ⊆ F) (hs : Keeps F z s) :
    Keeps F z (State.sendPtp s a1 a2 a3) := by
  unfold State.sendPtp
  repeat' first
    | with_reducible assumption
    | with_reducible apply keeps_when
    | with_reducible apply keeps_send
    | with_reducible apply keeps_addStamp
    | exact List.Subset.trans (by decide) hF
    | with_reducible apply keeps_ite
    | (intro _)

theorem keeps_ptpSecond (s : State) (hF : [.regs, .sent, .tim] ⊆ F) (hs : Keeps F z s) :
    Keeps F z (State.ptpSecond s) := by
  unfold State.ptpSecond
  repeat' first
    | with_reducible assumption
    | with_reducible apply keeps_forN
    | with_reducible apply keeps_when
    | with_reducible apply keeps_sendPtp
    | exact List.Subset.trans (by decide) hF
    | exact Or.inl (hF (by decide))
    | with_reducible exact Or.inr rfl
    | with_reducible rfl
    | simp only [keeps_lit]
    | (with_reducible refine keeps_mk ?_ rfl rfl rfl ?_ ?_ ?_ ?_ ?_ ?_ ?_ ?_ ?_ ?_ ?_ ?_ ?_ ?_ ?_ ?_ ?_ ?_ ?_ ?_ ?_)
    | exact Or.inr rfl
    | rfl
    | with_reducible apply keeps_ite
    | (intro _)

theorem keeps_holdoverEnds (s : State) (hF : [.regs, .tim] ⊆ F) (hs : Keeps F z s) :
    Keeps F z (State.holdoverEnds s) := by
  unfold State.holdoverEnds
  repeat' first
    | with_reducible assumption
    | with_reducible apply keeps_causeAbsent
    | with_reducible apply keeps_put
    | exact List.Subset.trans (by decide) hF
    | exact Or.inl (hF (by decide))
    | with_reducible exact Or.inr rfl
    | with_reducible rfl
    | simp only [keeps_lit]
    | (with_reducible refine keeps_mk ?_ rfl rfl rfl ?_ ?_ ?_ ?_ ?_ ?_ ?_ ?_ ?_ ?_ ?_ ?_ ?_ ?_ ?_ ?_ ?_ ?_ ?_ ?_ ?_)

theorem keeps_servo (s : State) (hF : [.draws, .regs, .sent, .sys, .tie, .flt, .acq, .mem] ⊆ F) (hs : Keeps F z s) :
    Keeps F z (State.servo s) := by
  unfold State.servo
  repeat' first
    | with_reducible assumption
    | with_reducible apply keeps_draw
    | with_reducible refine keeps_snd (keeps_draw _ ?_ ?_) (by assumption)
    | with_reducible apply keeps_wr
    | with_reducible apply keeps_when
    | with_reducible apply keeps_raise
    | with_reducible apply keeps_put
    | exact List.Subset.trans (by decide) hF
    | with_reducible apply keeps_ite
    | (intro _)

theorem keeps_newOffset (s : State) (a1) (hF : [.now, .nowFrac, .draws, .regs, .sent, .sys, .cells, .ports, .tie, .tim, .flt, .acq, .mem] ⊆ F) (hs : Keeps F z s) :
    Keeps F z (State.newOffset s a1) := by
  unfold State.newOffset
  repeat' first
    | with_reducible assumption
    | with_reducible apply keeps_wr
    | with_reducible apply keeps_holdoverEnds
    | with_reducible apply keeps_put
    | with_reducible apply keeps_stepTo
    | with_reducible apply keeps_servo
    | exact List.Subset.trans (by decide) hF
    | exact Or.inl (hF (by decide))
    | with_reducible exact Or.inr rfl
    | with_reducible rfl
    | simp only [keeps_lit]
    | (with_reducible refine keeps_mk ?_ rfl rfl rfl ?_ ?_ ?_ ?_ ?_ ?_ ?_ ?_ ?_ ?_ ?_ ?_ ?_ ?_ ?_ ?_ ?_ ?_ ?_ ?_ ?_)
    | exact Or.inr rfl
    | rfl
    | with_reducible apply keeps_ite
    | (intro _)

theorem keeps_ptpMessage (s : State) (a1) (a2) (hF : [.now, .nowFrac, .draws, .regs, .sent, .sys, .cells, .ports, .tie, .tim, .flt, .acq, .mem] ⊆ F) (hs : Keeps F z s) :
    Keeps F z (State.ptpMessage s a1 a2) := by
  unfold State.ptpMessage
  repeat' first
    | with_reducible assumption
    | with_reducible apply keeps_wr
    | with_reducible apply keeps_newOffset
    | with_reducible apply keeps_sendPtp
    | exact List.Subset.trans (by decide) hF
    | with_reducible apply keeps_ite
    | (intro _)
    | with_reducible apply keeps_foldl
    | with_reducible apply keeps_foldl_fst
    | with_reducible apply keeps_optmap
    | split

theorem keeps_launchPush (s : State) (a1) (a2) (hF : [.regs, .tim] ⊆ F) (hs : Keeps F z s) :
    Keeps F z (State.launchPush s a1 a2) := by
  unfold State.launchPush
  repeat' first
    | with_reducible assumption
    | with_reducible apply keeps_wr
    | with_reducible apply keeps_put
    | exact List.Subset.trans (by decide) hF
    | exact Or.inl (hF (by decide))
    | with_reducible exact Or.inr rfl
    | with_reducible rfl
    | simp only [keeps_lit]
    | (with_reducible refine keeps_mk ?_ rfl rfl rfl ?_ ?_ ?_ ?_ ?_ ?_ ?_ ?_ ?_ ?_ ?_ ?_ ?_ ?_ ?_ ?_ ?_ ?_ ?_ ?_ ?_)
    | exact Or.inr rfl
    | rfl
    | with_reducible apply keeps_ite
    | (intro _)

theorem keeps_timedLaunch (s : State) (a1) (hF : [.regs, .sent, .tim] ⊆ F) (hs : Keeps F z s) :
    Keeps F z (State.timedLaunch s a1) := by
  unfold State.timedLaunch
  repeat' first
    | with_reducible assumption
    | with_reducible apply keeps_wr
    | with_reducible apply keeps_inc
    | with_reducible apply keeps_send
    | exact List.Subset.trans (by decide) hF
    | exact Or.inl (hF (by decide))
    | with_reducible exact Or.inr rfl
    | with_reducible rfl
    | simp only [keeps_lit]
    | (with_reducible refine keeps_mk ?_ rfl rfl rfl ?_ ?_ ?_ ?_ ?_ ?_ ?_ ?_ ?_ ?_ ?_ ?_ ?_ ?_ ?_ ?_ ?_ ?_ ?_ ?_ ?_)
    | exact Or.inr rfl
    | rfl
    | with_reducible apply keeps_ite
    | (intro _)
    | with_reducible apply keeps_foldl
    | with_reducible apply keeps_foldl_fst
    | with_reducible apply keeps_optmap
    | split

theorem keeps_secondPassed (s : State) (hF : [.regs, .sent, .tim] ⊆ F) (hs : Keeps F z s) :
    Keeps F z (State.secondPassed s) := by
  unfold State.secondPassed
  repeat' first
    | with_reducible assumption
    | with_reducible apply keeps_when
    | with_reducible apply keeps_inc
    | with_reducible apply keeps_ptpSecond
    | exact List.Subset.trans (by decide) hF
    | with_reducible apply keeps_ite
    | (intro _)

end Sys2Proof.Machine
end

