-- ==== Sys2Proof/Laws/KeepsUnit.lean ====
section
/-! SUPPORT. What the tie, the unit states, accords and their windows keep, one lemma per operation. -/

namespace Sys2Proof.Machine

variable {F : List Part} {z : State}

theorem keeps_redundancy (s : State) (hF : [.regs, .sent, .sys, .tie, .flt, .acq, .mem] ⊆ F) (hs : Keeps F z s) :
    Keeps F z (State.redundancy s) := by
  unfold State.redundancy
  repeat' first
    | with_reducible assumption
    | with_reducible apply keeps_causeIs
    | with_reducible apply keeps_put
    | with_reducible apply keeps_causeAbsent
    | exact List.Subset.trans (by decide) hF
    | with_reducible apply keeps_ite
    | (intro _)

theorem keeps_changeRole (s : State) (a1) (hF : [.regs, .sent, .sys, .tie, .flt, .acq, .mem] ⊆ F) (hs : Keeps F z s) :
    Keeps F z (State.changeRole s a1) := by
  unfold State.changeRole
  repeat' first
    | with_reducible assumption
    | with_reducible apply keeps_redundancy
    | with_reducible apply keeps_sendTie
    | with_reducible apply keeps_takeRole
    | exact List.Subset.trans (by decide) hF
    | with_reducible apply keeps_ite
    | (intro _)

theorem keeps_startJoining (s : State) (hF : [.regs, .tie] ⊆ F) (hs : Keeps F z s) :
    Keeps F z (State.startJoining s) := by
  unfold State.startJoining
  repeat' first
    | with_reducible assumption
    | with_reducible apply keeps_put
    | exact List.Subset.trans (by decide) hF
    | exact Or.inl (hF (by decide))
    | with_reducible exact Or.inr rfl
    | with_reducible rfl
    | simp only [keeps_lit]
    | (with_reducible refine keeps_mk ?_ rfl rfl rfl ?_ ?_ ?_ ?_ ?_ ?_ ?_ ?_ ?_ ?_ ?_ ?_ ?_ ?_ ?_ ?_ ?_ ?_ ?_ ?_ ?_)

theorem keeps_sendImage (s : State) (hF : [.sent] ⊆ F) (hs : Keeps F z s) :
    Keeps F z (State.sendImage s) := by
  unfold State.sendImage
  repeat' first
    | with_reducible assumption
    | with_reducible apply keeps_send
    | exact List.Subset.trans (by decide) hF
    | with_reducible apply keeps_ite
    | (intro _)

theorem keeps_laneTrained (s : State) (a1) (a2) (a3) (a4) (hF : [.regs, .sent, .sys, .dly, .tie, .flt, .acq, .mem] ⊆ F) (hs : Keeps F z s) :
    Keeps F z (State.laneTrained s a1 a2 a3 a4) := by
  unfold State.laneTrained
  repeat' first
    | with_reducible assumption
    | with_reducible apply keeps_put
    | with_reducible apply keeps_wr
    | with_reducible apply keeps_putBit
    | with_reducible apply keeps_startDly
    | with_reducible apply keeps_causeAbsent
    | with_reducible apply keeps_changeRole
    | with_reducible apply keeps_sendImage
    | with_reducible apply keeps_when
    | with_reducible apply keeps_startJoining
    | exact List.Subset.trans (by decide) hF
    | exact Or.inl (hF (by decide))
    | with_reducible exact Or.inr rfl
    | with_reducible rfl
    | simp only [keeps_lit]
    | (with_reducible refine keeps_mk ?_ rfl rfl rfl ?_ ?_ ?_ ?_ ?_ ?_ ?_ ?_ ?_ ?_ ?_ ?_ ?_ ?_ ?_ ?_ ?_ ?_ ?_ ?_ ?_)
    | exact Or.inr rfl
    | rfl
    | with_reducible apply keeps_ite
    | (intro _)
    | with_reducible apply keeps_foldl
    | with_reducible apply keeps_foldl_fst
    | with_reducible apply keeps_optmap
    | split

theorem keeps_linkDown (s : State) (hF : [.regs, .sent, .sys, .tie, .flt, .acq, .mem] ⊆ F) (hs : Keeps F z s) :
    Keeps F z (State.linkDown s) := by
  unfold State.linkDown
  repeat' first
    | with_reducible assumption
    | with_reducible apply keeps_wr
    | with_reducible apply keeps_redundancy
    | with_reducible apply keeps_causePresent
    | exact List.Subset.trans (by decide) hF
    | exact Or.inl (hF (by decide))
    | with_reducible exact Or.inr rfl
    | with_reducible rfl
    | simp only [keeps_lit]
    | (with_reducible refine keeps_mk ?_ rfl rfl rfl ?_ ?_ ?_ ?_ ?_ ?_ ?_ ?_ ?_ ?_ ?_ ?_ ?_ ?_ ?_ ?_ ?_ ?_ ?_ ?_ ?_)

theorem keeps_laneLost (s : State) (a1) (hF : [.regs, .sent, .sys, .tie, .flt, .acq, .mem] ⊆ F) (hs : Keeps F z s) :
    Keeps F z (State.laneLost s a1) := by
  unfold State.laneLost
  repeat' first
    | with_reducible assumption
    | with_reducible apply keeps_inc
    | with_reducible apply keeps_putBit
    | with_reducible apply keeps_when
    | with_reducible apply keeps_linkDown
    | exact List.Subset.trans (by decide) hF
    | with_reducible apply keeps_ite
    | (intro _)

theorem keeps_followPeriod (s : State) (a1) (hF : [.sys] ⊆ F) (hs : Keeps F z s) :
    Keeps F z (State.followPeriod s a1) := by
  unfold State.followPeriod
  repeat' first
    | with_reducible assumption
    | exact List.Subset.trans (by decide) hF
    | exact Or.inl (hF (by decide))
    | with_reducible exact Or.inr rfl
    | with_reducible rfl
    | simp only [keeps_lit]
    | (with_reducible refine keeps_mk ?_ rfl rfl rfl ?_ ?_ ?_ ?_ ?_ ?_ ?_ ?_ ?_ ?_ ?_ ?_ ?_ ?_ ?_ ?_ ?_ ?_ ?_ ?_ ?_)
    | exact Or.inr rfl
    | rfl
    | with_reducible apply keeps_ite
    | (intro _)

theorem keeps_tieMessageIn (s : State) (a1) (a2) (a3) (a4) (hF : [.regs, .sent, .sys, .tie, .flt, .acq, .mem] ⊆ F) (hs : Keeps F z s) (ha4 : ∀ x0, Keeps F z x0 → Keeps F z (a4 x0)) :
    Keeps F z (State.tieMessageIn s a1 a2 a3 a4) := by
  unfold State.tieMessageIn
  repeat' first
    | with_reducible assumption
    | with_reducible apply ha4
    | with_reducible apply keeps_raise
    | with_reducible apply keeps_inc
    | with_reducible apply keeps_wr
    | with_reducible apply keeps_when
    | with_reducible apply keeps_followPeriod
    | with_reducible apply keeps_redundancy
    | exact List.Subset.trans (by decide) hF
    | exact Or.inl (hF (by decide))
    | with_reducible exact Or.inr rfl
    | with_reducible rfl
    | simp only [keeps_lit]
    | (with_reducible refine keeps_mk ?_ rfl rfl rfl ?_ ?_ ?_ ?_ ?_ ?_ ?_ ?_ ?_ ?_ ?_ ?_ ?_ ?_ ?_ ?_ ?_ ?_ ?_ ?_ ?_)
    | exact Or.inr rfl
    | rfl
    | with_reducible apply keeps_ite
    | (intro _)

theorem keeps_takeCopies (s : State) (p n : Nat) (b : List Byte) (hF : [.regs, .sent, .sys, .ports, .lvl, .tie, .flt, .acq, .mem] ⊆ F) (h : Keeps F z s) :
    Keeps F z (s.takeCopies p n b) := by
  induction n generalizing s b with
  | zero => exact h
  | succ k ih =>
    refine ih _ _ (keeps_when _ _ h fun s h => ?_)
    exact keeps_onPort _ _ _ (List.Subset.trans (by decide) hF) (keeps_takeSlot _ _ _ _ (List.Subset.trans (by decide) hF) h)

theorem keeps_judgeMismatch (s : State) (a1) (hF : [.regs, .sent, .sys, .tie, .flt, .acq, .mem] ⊆ F) (hs : Keeps F z s) :
    Keeps F z (State.judgeMismatch s a1) := by
  unfold State.judgeMismatch
  repeat' first
    | with_reducible assumption
    | with_reducible apply keeps_inc
    | with_reducible apply keeps_raise
    | exact List.Subset.trans (by decide) hF
    | exact Or.inl (hF (by decide))
    | with_reducible exact Or.inr rfl
    | with_reducible rfl
    | simp only [keeps_lit]
    | (with_reducible refine keeps_mk ?_ rfl rfl rfl ?_ ?_ ?_ ?_ ?_ ?_ ?_ ?_ ?_ ?_ ?_ ?_ ?_ ?_ ?_ ?_ ?_ ?_ ?_ ?_ ?_)
    | exact Or.inr rfl
    | rfl
    | with_reducible apply keeps_ite
    | (intro _)

theorem keeps_compareDigests (s : State) (hF : [.regs, .sent, .sys, .tie, .flt, .acq, .mem] ⊆ F) (hs : Keeps F z s) :
    Keeps F z (State.compareDigests s) := by
  unfold State.compareDigests
  repeat' first
    | with_reducible assumption
    | with_reducible apply keeps_judgeMismatch
    | exact List.Subset.trans (by decide) hF
    | exact Or.inl (hF (by decide))
    | with_reducible exact Or.inr rfl
    | with_reducible rfl
    | simp only [keeps_lit]
    | (with_reducible refine keeps_mk ?_ rfl rfl rfl ?_ ?_ ?_ ?_ ?_ ?_ ?_ ?_ ?_ ?_ ?_ ?_ ?_ ?_ ?_ ?_ ?_ ?_ ?_ ?_ ?_)
    | exact Or.inr rfl
    | rfl
    | with_reducible apply keeps_ite
    | (intro _)

theorem keeps_tailFrame (s : State) (a1) (a2) (hF : [.regs, .tie] ⊆ F) (hs : Keeps F z s) :
    Keeps F z (State.tailFrame s a1 a2) := by
  unfold State.tailFrame
  repeat' first
    | with_reducible assumption
    | with_reducible apply keeps_inc
    | exact List.Subset.trans (by decide) hF
    | exact Or.inl (hF (by decide))
    | with_reducible exact Or.inr rfl
    | with_reducible rfl
    | simp only [keeps_lit]
    | (with_reducible refine keeps_mk ?_ rfl rfl rfl ?_ ?_ ?_ ?_ ?_ ?_ ?_ ?_ ?_ ?_ ?_ ?_ ?_ ?_ ?_ ?_ ?_ ?_ ?_ ?_ ?_)
    | exact Or.inr rfl
    | rfl
    | with_reducible apply keeps_ite
    | (intro _)

theorem keeps_healthMissed (s : State) (hF : [.regs, .sent, .sys, .tie, .flt, .acq, .mem] ⊆ F) (hs : Keeps F z s) :
    Keeps F z (State.healthMissed s) := by
  unfold State.healthMissed
  repeat' first
    | with_reducible assumption
    | with_reducible apply keeps_redundancy
    | with_reducible apply keeps_when
    | with_reducible apply keeps_causePresent
    | with_reducible apply keeps_put
    | exact List.Subset.trans (by decide) hF
    | exact Or.inl (hF (by decide))
    | with_reducible exact Or.inr rfl
    | with_reducible rfl
    | simp only [keeps_lit]
    | (with_reducible refine keeps_mk ?_ rfl rfl rfl ?_ ?_ ?_ ?_ ?_ ?_ ?_ ?_ ?_ ?_ ?_ ?_ ?_ ?_ ?_ ?_ ?_ ?_ ?_ ?_ ?_)
    | exact Or.inr rfl
    | rfl
    | with_reducible apply keeps_ite
    | (intro _)

theorem keeps_setBroken (s : State) (a1) (hF : [.regs] ⊆ F) (hs : Keeps F z s) :
    Keeps F z (State.setBroken s a1) := by
  unfold State.setBroken
  repeat' first
    | with_reducible assumption
    | with_reducible apply keeps_wr

theorem keeps_showBroken (s : State) (hF : [.regs] ⊆ F) (hs : Keeps F z s) :
    Keeps F z (State.showBroken s) := by
  unfold State.showBroken
  repeat' first
    | with_reducible assumption
    | with_reducible apply keeps_wr

theorem keeps_yieldPinBad (s : State) (hF : [.regs, .sent, .sys, .tie, .flt, .acq, .mem] ⊆ F) (hs : Keeps F z s) :
    Keeps F z (State.yieldPinBad s) := by
  unfold State.yieldPinBad
  repeat' first
    | with_reducible assumption
    | with_reducible apply keeps_causePresent
    | with_reducible apply keeps_put
    | exact List.Subset.trans (by decide) hF
    | exact Or.inl (hF (by decide))
    | with_reducible exact Or.inr rfl
    | with_reducible rfl
    | simp only [keeps_lit]
    | (with_reducible refine keeps_mk ?_ rfl rfl rfl ?_ ?_ ?_ ?_ ?_ ?_ ?_ ?_ ?_ ?_ ?_ ?_ ?_ ?_ ?_ ?_ ?_ ?_ ?_ ?_ ?_)
    | exact Or.inr rfl
    | rfl
    | with_reducible apply keeps_ite
    | (intro _)

theorem keeps_resendMailbox (s : State) (hF : [.ports] ⊆ F) (hs : Keeps F z s) :
    Keeps F z (State.resendMailbox s) := by
  unfold State.resendMailbox
  repeat' first
    | with_reducible assumption
    | with_reducible apply keeps_forN
    | with_reducible apply keeps_onPort
    | exact List.Subset.trans (by decide) hF
    | with_reducible apply keeps_ite
    | (intro _)

theorem keeps_takeover (s : State) (a1) (hF : [.regs, .sent, .sys, .ports, .tie, .flt, .acq, .mem] ⊆ F) (hs : Keeps F z s) :
    Keeps F z (State.takeover s a1) := by
  unfold State.takeover
  repeat' first
    | with_reducible assumption
    | with_reducible apply keeps_wr
    | with_reducible apply keeps_incMod
    | with_reducible apply keeps_takeRole
    | with_reducible apply keeps_dropPending
    | with_reducible apply keeps_sendTie
    | with_reducible apply keeps_forN
    | with_reducible apply keeps_when
    | with_reducible apply keeps_redundancy
    | with_reducible apply keeps_resendMailbox
    | exact List.Subset.trans (by decide) hF
    | exact Or.inl (hF (by decide))
    | with_reducible exact Or.inr rfl
    | with_reducible rfl
    | simp only [keeps_lit]
    | (with_reducible refine keeps_mk ?_ rfl rfl rfl ?_ ?_ ?_ ?_ ?_ ?_ ?_ ?_ ?_ ?_ ?_ ?_ ?_ ?_ ?_ ?_ ?_ ?_ ?_ ?_ ?_)
    | exact Or.inr rfl
    | rfl
    | with_reducible apply keeps_ite
    | (intro _)

theorem keeps_strandBroken (s : State) (a1) (hF : [.regs, .sent, .sys, .tie, .flt, .acq, .mem] ⊆ F) (hs : Keeps F z s) :
    Keeps F z (State.strandBroken s a1) := by
  unfold State.strandBroken
  repeat' first
    | with_reducible assumption
    | with_reducible apply keeps_showBroken
    | with_reducible apply keeps_setBroken
    | with_reducible apply keeps_sendTie
    | with_reducible apply keeps_causePresent
    | exact List.Subset.trans (by decide) hF
    | with_reducible apply keeps_ite
    | (intro _)

theorem keeps_strandIntact (s : State) (a1) (hF : [.regs, .sent, .sys, .ports, .tie, .flt, .acq, .mem] ⊆ F) (hs : Keeps F z s) :
    Keeps F z (State.strandIntact s a1) := by
  unfold State.strandIntact
  repeat' first
    | with_reducible assumption
    | with_reducible apply keeps_showBroken
    | with_reducible apply keeps_setBroken
    | with_reducible apply keeps_onPort
    | with_reducible apply keeps_sendTie
    | with_reducible apply keeps_causeIs
    | exact List.Subset.trans (by decide) hF
    | with_reducible apply keeps_ite
    | (intro _)

theorem keeps_handTail (s : State) (a1) (a2) (hF : [.sent] ⊆ F) (hs : Keeps F z s) :
    Keeps F z (State.handTail s a1 a2) := by
  unfold State.handTail
  repeat' first
    | with_reducible assumption
    | with_reducible apply keeps_sendTie
    | exact List.Subset.trans (by decide) hF
    | with_reducible apply keeps_ite
    | (intro _)

theorem keeps_commandLaunch (s : State) (a1) (hF : [.draws, .regs, .sent, .sys, .ports, .lvl, .tie, .flt, .acq, .mem, .hlt, .od] ⊆ F) (hs : Keeps F z s) :
    Keeps F z (State.commandLaunch s a1) := by
  unfold State.commandLaunch
  repeat' first
    | with_reducible assumption
    | with_reducible apply keeps_launch
    | with_reducible apply keeps_launchCommand
    | with_reducible apply keeps_handTail
    | exact List.Subset.trans (by decide) hF
    | with_reducible apply keeps_ite
    | (intro _)

theorem keeps_joinEnds (s : State) (hF : [.regs, .sent, .sys, .tie, .flt, .acq, .mem] ⊆ F) (hs : Keeps F z s) :
    Keeps F z (State.joinEnds s) := by
  unfold State.joinEnds
  repeat' first
    | with_reducible assumption
    | with_reducible apply keeps_put
    | with_reducible apply keeps_changeRole
    | exact List.Subset.trans (by decide) hF
    | exact Or.inl (hF (by decide))
    | with_reducible exact Or.inr rfl
    | with_reducible rfl
    | simp only [keeps_lit]
    | (with_reducible refine keeps_mk ?_ rfl rfl rfl ?_ ?_ ?_ ?_ ?_ ?_ ?_ ?_ ?_ ?_ ?_ ?_ ?_ ?_ ?_ ?_ ?_ ?_ ?_ ?_ ?_)
    | exact Or.inr rfl
    | rfl
    | with_reducible apply keeps_ite
    | (intro _)

theorem keeps_plannedYield (s : State) (hF : [.regs, .sent, .tie] ⊆ F) (hs : Keeps F z s) :
    Keeps F z (State.plannedYield s) := by
  unfold State.plannedYield
  repeat' first
    | with_reducible assumption
    | with_reducible apply keeps_sendTie
    | with_reducible apply keeps_put
    | exact List.Subset.trans (by decide) hF
    | exact Or.inl (hF (by decide))
    | with_reducible exact Or.inr rfl
    | with_reducible rfl
    | simp only [keeps_lit]
    | (with_reducible refine keeps_mk ?_ rfl rfl rfl ?_ ?_ ?_ ?_ ?_ ?_ ?_ ?_ ?_ ?_ ?_ ?_ ?_ ?_ ?_ ?_ ?_ ?_ ?_ ?_ ?_)
    | exact Or.inr rfl
    | rfl
    | with_reducible apply keeps_ite
    | (intro _)

theorem keeps_roleBoundary (s : State) (hF : [.regs, .sent, .sys, .tie, .flt, .acq, .mem] ⊆ F) (hs : Keeps F z s) :
    Keeps F z (State.roleBoundary s) := by
  unfold State.roleBoundary
  repeat' first
    | with_reducible assumption
    | with_reducible apply keeps_when
    | with_reducible apply keeps_changeRole
    | with_reducible apply keeps_forN
    | with_reducible apply keeps_wr
    | with_reducible apply keeps_put
    | exact List.Subset.trans (by decide) hF
    | exact Or.inl (hF (by decide))
    | with_reducible exact Or.inr rfl
    | with_reducible rfl
    | simp only [keeps_lit]
    | (with_reducible refine keeps_mk ?_ rfl rfl rfl ?_ ?_ ?_ ?_ ?_ ?_ ?_ ?_ ?_ ?_ ?_ ?_ ?_ ?_ ?_ ?_ ?_ ?_ ?_ ?_ ?_)
    | exact Or.inr rfl
    | rfl
    | with_reducible apply keeps_ite
    | (intro _)

theorem keeps_sweepPut (s : State) (a1) (a2) (hF : [.regs, .ctl, .lvl, .mem] ⊆ F) (hs : Keeps F z s) :
    Keeps F z (State.sweepPut s a1 a2) := by
  unfold State.sweepPut
  repeat' first
    | with_reducible assumption
    | with_reducible apply keeps_onCtx
    | with_reducible apply keeps_wr
    | with_reducible apply keeps_setWord
    | with_reducible apply keeps_onView
    | with_reducible apply keeps_store32
    | exact List.Subset.trans (by decide) hF
    | exact Or.inl (hF (by decide))
    | with_reducible exact Or.inr rfl
    | with_reducible rfl
    | simp only [keeps_lit]
    | (with_reducible refine keeps_mk ?_ rfl rfl rfl ?_ ?_ ?_ ?_ ?_ ?_ ?_ ?_ ?_ ?_ ?_ ?_ ?_ ?_ ?_ ?_ ?_ ?_ ?_ ?_ ?_)
    | exact Or.inr rfl
    | rfl
    | with_reducible apply keeps_ite
    | (intro _)
    | with_reducible apply keeps_foldl
    | with_reducible apply keeps_foldl_fst
    | with_reducible apply keeps_optmap
    | split

theorem keeps_sendSweep (s : State) (hF : [.sent, .tie] ⊆ F) (hs : Keeps F z s) :
    Keeps F z (State.sendSweep s) := by
  unfold State.sendSweep
  repeat' first
    | with_reducible assumption
    | with_reducible apply keeps_sendTie
    | exact List.Subset.trans (by decide) hF
    | exact Or.inl (hF (by decide))
    | with_reducible exact Or.inr rfl
    | with_reducible rfl
    | simp only [keeps_lit]
    | (with_reducible refine keeps_mk ?_ rfl rfl rfl ?_ ?_ ?_ ?_ ?_ ?_ ?_ ?_ ?_ ?_ ?_ ?_ ?_ ?_ ?_ ?_ ?_ ?_ ?_ ?_ ?_)
    | exact Or.inr rfl
    | rfl
    | with_reducible apply keeps_ite
    | (intro _)

theorem keeps_applySweep (s : State) (a1) (a2) (hF : [.regs, .ctl, .lvl, .mem] ⊆ F) (hs : Keeps F z s) :
    Keeps F z (State.applySweep s a1 a2) := by
  unfold State.applySweep
  repeat' first
    | with_reducible assumption
    | with_reducible apply keeps_inc
    | with_reducible apply keeps_sweepPut
    | with_reducible apply keeps_when
    | with_reducible apply keeps_put
    | exact List.Subset.trans (by decide) hF
    | with_reducible apply keeps_ite
    | (intro _)
    | with_reducible apply keeps_foldl
    | with_reducible apply keeps_foldl_fst
    | with_reducible apply keeps_optmap
    | split

theorem keeps_tieBoundary (s : State) (hF : [.regs, .sent, .sys, .ports, .tie, .flt, .acq, .mem] ⊆ F) (hs : Keeps F z s) :
    Keeps F z (State.tieBoundary s) := by
  unfold State.tieBoundary
  repeat' first
    | with_reducible assumption
    | with_reducible apply keeps_when
    | with_reducible apply keeps_judgeMismatch
    | with_reducible apply keeps_yieldPinBad
    | with_reducible apply keeps_takeover
    | with_reducible apply keeps_joinEnds
    | with_reducible apply keeps_roleBoundary
    | exact List.Subset.trans (by decide) hF
    | exact Or.inl (hF (by decide))
    | with_reducible exact Or.inr rfl
    | with_reducible rfl
    | simp only [keeps_lit]
    | (with_reducible refine keeps_mk ?_ rfl rfl rfl ?_ ?_ ?_ ?_ ?_ ?_ ?_ ?_ ?_ ?_ ?_ ?_ ?_ ?_ ?_ ?_ ?_ ?_ ?_ ?_ ?_)
    | exact Or.inr rfl
    | rfl
    | with_reducible apply keeps_ite
    | (intro _)

theorem keeps_bridgePeriod (s : State) (hF : [.regs, .tie] ⊆ F) (hs : Keeps F z s) :
    Keeps F z (State.bridgePeriod s) := by
  unfold State.bridgePeriod
  repeat' first
    | with_reducible assumption
    | with_reducible apply keeps_inc
    | exact List.Subset.trans (by decide) hF
    | exact Or.inl (hF (by decide))
    | with_reducible exact Or.inr rfl
    | with_reducible rfl
    | simp only [keeps_lit]
    | (with_reducible refine keeps_mk ?_ rfl rfl rfl ?_ ?_ ?_ ?_ ?_ ?_ ?_ ?_ ?_ ?_ ?_ ?_ ?_ ?_ ?_ ?_ ?_ ?_ ?_ ?_ ?_)
    | exact Or.inr rfl
    | rfl
    | with_reducible apply keeps_ite
    | (intro _)

theorem keeps_showLevels (s : State) (hF : [.regs] ⊆ F) (hs : Keeps F z s) :
    Keeps F z (State.showLevels s) := by
  unfold State.showLevels
  repeat' first
    | with_reducible assumption
    | with_reducible apply keeps_forL
    | with_reducible apply keeps_wr
    | exact List.Subset.trans (by decide) hF
    | with_reducible apply keeps_ite
    | (intro _)

theorem keeps_fitCheck (s : State) (a1) (hF : [.regs] ⊆ F) (hs : Keeps F z s) :
    Keeps F z (State.fitCheck s a1).1 := by
  unfold State.fitCheck
  repeat' first
    | with_reducible assumption
    | with_reducible apply keeps_showLevels
    | with_reducible apply keeps_wr
    | with_reducible apply keeps_put
    | with_reducible apply keeps_when
    | exact List.Subset.trans (by decide) hF
    | with_reducible apply keeps_ite
    | with_reducible apply keeps_ite_fst
    | (intro _)

theorem keeps_energiseCode (s : State) (a1) (hF : [.regs] ⊆ F) (hs : Keeps F z s) :
    Keeps F z (State.energiseCode s a1).1 := by
  unfold State.energiseCode
  repeat' first
    | with_reducible assumption
    | with_reducible apply keeps_fitCheck

theorem keeps_commit (s : State) (hF : [.regs, .sys, .ctl, .lvl] ⊆ F) (hs : Keeps F z s) :
    Keeps F z (State.commit s) := by
  unfold State.commit
  repeat' first
    | with_reducible assumption
    | with_reducible apply keeps_wr
    | with_reducible apply keeps_forN
    | with_reducible apply keeps_commitKeys
    | exact List.Subset.trans (by decide) hF
    | exact Or.inl (hF (by decide))
    | with_reducible exact Or.inr rfl
    | with_reducible rfl
    | simp only [keeps_lit]
    | (with_reducible refine keeps_mk ?_ rfl rfl rfl ?_ ?_ ?_ ?_ ?_ ?_ ?_ ?_ ?_ ?_ ?_ ?_ ?_ ?_ ?_ ?_ ?_ ?_ ?_ ?_ ?_)
    | exact Or.inr rfl
    | rfl
    | with_reducible apply keeps_ite
    | (intro _)

theorem keeps_startPrep (s : State) (a1) (hF : [.draws, .regs, .sent, .sys, .ports, .lvl] ⊆ F) (hs : Keeps F z s) :
    Keeps F z (State.startPrep s a1) := by
  unfold State.startPrep
  repeat' first
    | with_reducible assumption
    | with_reducible apply keeps_forL
    | with_reducible apply keeps_ask
    | exact List.Subset.trans (by decide) hF
    | exact Or.inl (hF (by decide))
    | with_reducible exact Or.inr rfl
    | with_reducible rfl
    | simp only [keeps_lit]
    | (with_reducible refine keeps_mk ?_ rfl rfl rfl ?_ ?_ ?_ ?_ ?_ ?_ ?_ ?_ ?_ ?_ ?_ ?_ ?_ ?_ ?_ ?_ ?_ ?_ ?_ ?_ ?_)
    | exact Or.inr rfl
    | rfl
    | with_reducible apply keeps_ite
    | (intro _)

theorem keeps_prepStop (s : State) (hF : [.ports] ⊆ F) (hs : Keeps F z s) :
    Keeps F z (State.prepStop s) := by
  unfold State.prepStop
  repeat' first
    | with_reducible assumption
    | with_reducible apply keeps_forN
    | with_reducible apply keeps_onPort
    | exact List.Subset.trans (by decide) hF
    | with_reducible apply keeps_ite
    | (intro _)

theorem keeps_restoreBounds (s : State) (hF : [.draws, .regs, .sent, .sys, .ports] ⊆ F) (hs : Keeps F z s) :
    Keeps F z (State.restoreBounds s) := by
  unfold State.restoreBounds
  repeat' first
    | with_reducible assumption
    | with_reducible apply keeps_prepStop
    | with_reducible apply keeps_forL
    | with_reducible apply keeps_ask
    | exact List.Subset.trans (by decide) hF
    | exact Or.inl (hF (by decide))
    | with_reducible exact Or.inr rfl
    | with_reducible rfl
    | simp only [keeps_lit]
    | (with_reducible refine keeps_mk ?_ rfl rfl rfl ?_ ?_ ?_ ?_ ?_ ?_ ?_ ?_ ?_ ?_ ?_ ?_ ?_ ?_ ?_ ?_ ?_ ?_ ?_ ?_ ?_)
    | exact Or.inr rfl
    | rfl
    | with_reducible apply keeps_ite
    | (intro _)

theorem keeps_stagedFails (s : State) (a1) (hF : [.acd] ⊆ F) (hs : Keeps F z s) :
    Keeps F z (State.stagedFails s a1) := by
  unfold State.stagedFails
  repeat' first
    | with_reducible assumption
    | exact List.Subset.trans (by decide) hF
    | exact Or.inl (hF (by decide))
    | with_reducible exact Or.inr rfl
    | with_reducible rfl
    | simp only [keeps_lit]
    | (with_reducible refine keeps_mk ?_ rfl rfl rfl ?_ ?_ ?_ ?_ ?_ ?_ ?_ ?_ ?_ ?_ ?_ ?_ ?_ ?_ ?_ ?_ ?_ ?_ ?_ ?_ ?_)

theorem keeps_energiseFails (s : State) (a1) (hF : [.draws, .regs, .sent, .sys, .ports, .acd] ⊆ F) (hs : Keeps F z s) :
    Keeps F z (State.energiseFails s a1) := by
  unfold State.energiseFails
  repeat' first
    | with_reducible assumption
    | with_reducible apply keeps_restoreBounds
    | with_reducible apply keeps_stagedFails
    | with_reducible apply keeps_dropPending
    | exact List.Subset.trans (by decide) hF

theorem keeps_prepDeadline (s : State) (hF : [.draws, .regs, .sent, .sys, .ports, .acd] ⊆ F) (hs : Keeps F z s) :
    Keeps F z (State.prepDeadline s) := by
  unfold State.prepDeadline
  repeat' first
    | with_reducible assumption
    | with_reducible apply keeps_when
    | with_reducible apply keeps_energiseFails
    | exact List.Subset.trans (by decide) hF
    | with_reducible apply keeps_ite
    | (intro _)
    | with_reducible apply keeps_foldl
    | with_reducible apply keeps_foldl_fst
    | with_reducible apply keeps_optmap
    | split

theorem keeps_beginPeriod (s : State) (a1) (a2) (hF : [.now, .sys] ⊆ F) (hs : Keeps F z s) :
    Keeps F z (State.beginPeriod s a1 a2) := by
  unfold State.beginPeriod
  repeat' first
    | with_reducible assumption
    | exact List.Subset.trans (by decide) hF
    | exact Or.inl (hF (by decide))
    | with_reducible exact Or.inr rfl
    | with_reducible rfl
    | simp only [keeps_lit]
    | (with_reducible refine keeps_mk ?_ rfl rfl rfl ?_ ?_ ?_ ?_ ?_ ?_ ?_ ?_ ?_ ?_ ?_ ?_ ?_ ?_ ?_ ?_ ?_ ?_ ?_ ?_ ?_)

theorem keeps_nextEpoch (s : State) (hF : [.regs, .sys] ⊆ F) (hs : Keeps F z s) :
    Keeps F z (State.nextEpoch s) := by
  unfold State.nextEpoch
  repeat' first
    | with_reducible assumption
    | with_reducible apply keeps_wr
    | exact List.Subset.trans (by decide) hF
    | exact Or.inl (hF (by decide))
    | with_reducible exact Or.inr rfl
    | with_reducible rfl
    | simp only [keeps_lit]
    | (with_reducible refine keeps_mk ?_ rfl rfl rfl ?_ ?_ ?_ ?_ ?_ ?_ ?_ ?_ ?_ ?_ ?_ ?_ ?_ ?_ ?_ ?_ ?_ ?_ ?_ ?_ ?_)

theorem keeps_settled (s : State) (hF : [.regs, .sys] ⊆ F) (hs : Keeps F z s) :
    Keeps F z (State.settled s) := by
  unfold State.settled
  repeat' first
    | with_reducible assumption
    | with_reducible apply keeps_put
    | exact List.Subset.trans (by decide) hF
    | exact Or.inl (hF (by decide))
    | with_reducible exact Or.inr rfl
    | with_reducible rfl
    | simp only [keeps_lit]
    | (with_reducible refine keeps_mk ?_ rfl rfl rfl ?_ ?_ ?_ ?_ ?_ ?_ ?_ ?_ ?_ ?_ ?_ ?_ ?_ ?_ ?_ ?_ ?_ ?_ ?_ ?_ ?_)

theorem keeps_energiseNow (s : State) (a1) (a2) (hF : [.now, .regs, .sent, .sys, .ctl, .lvl, .acq, .mem] ⊆ F) (hs : Keeps F z s) :
    Keeps F z (State.energiseNow s a1 a2) := by
  unfold State.energiseNow
  repeat' first
    | with_reducible assumption
    | with_reducible apply keeps_acqStop
    | with_reducible apply keeps_beginPeriod
    | with_reducible apply keeps_goto
    | with_reducible apply keeps_nextEpoch
    | with_reducible apply keeps_settled
    | with_reducible apply keeps_enterLevels
    | with_reducible apply keeps_initEngine
    | with_reducible apply keeps_when
    | with_reducible apply keeps_sendImage
    | with_reducible apply keeps_faultBlock
    | exact List.Subset.trans (by decide) hF
    | exact Or.inl (hF (by decide))
    | with_reducible exact Or.inr rfl
    | with_reducible rfl
    | simp only [keeps_lit]
    | (with_reducible refine keeps_mk ?_ rfl rfl rfl ?_ ?_ ?_ ?_ ?_ ?_ ?_ ?_ ?_ ?_ ?_ ?_ ?_ ?_ ?_ ?_ ?_ ?_ ?_ ?_ ?_)
    | exact Or.inr rfl
    | rfl
    | with_reducible apply keeps_ite
    | (intro _)

theorem keeps_energiseDue (s : State) (hF : [.now, .draws, .regs, .sent, .sys, .ctl, .ports, .lvl, .acd, .acq, .mem] ⊆ F) (hs : Keeps F z s) :
    Keeps F z (State.energiseDue s) := by
  unfold State.energiseDue
  repeat' first
    | with_reducible assumption
    | with_reducible apply keeps_energiseFails
    | with_reducible apply keeps_energiseNow
    | exact List.Subset.trans (by decide) hF
    | with_reducible apply keeps_ite
    | (intro _)
    | with_reducible apply keeps_foldl
    | with_reducible apply keeps_foldl_fst
    | with_reducible apply keeps_optmap
    | split

theorem keeps_deenergiseNow (s : State) (a1) (hF : [.draws, .regs, .sent, .sys, .ports, .acq, .mem] ⊆ F) (hs : Keeps F z s) :
    Keeps F z (State.deenergiseNow s a1) := by
  unfold State.deenergiseNow
  repeat' first
    | with_reducible assumption
    | with_reducible apply keeps_goto
    | with_reducible apply keeps_nextEpoch
    | with_reducible apply keeps_settled
    | with_reducible apply keeps_acqStop
    | with_reducible apply keeps_restoreBounds
    | exact List.Subset.trans (by decide) hF
    | exact Or.inl (hF (by decide))
    | with_reducible exact Or.inr rfl
    | with_reducible rfl
    | simp only [keeps_lit]
    | (with_reducible refine keeps_mk ?_ rfl rfl rfl ?_ ?_ ?_ ?_ ?_ ?_ ?_ ?_ ?_ ?_ ?_ ?_ ?_ ?_ ?_ ?_ ?_ ?_ ?_ ?_ ?_)

theorem keeps_clearNow (s : State) (a1) (hF : [.regs, .sent, .sys] ⊆ F) (hs : Keeps F z s) :
    Keeps F z (State.clearNow s a1) := by
  unfold State.clearNow
  repeat' first
    | with_reducible assumption
    | with_reducible apply keeps_goto
    | with_reducible apply keeps_settled
    | with_reducible apply keeps_dropPending
    | exact List.Subset.trans (by decide) hF
    | with_reducible apply keeps_ite
    | (intro _)

theorem keeps_startDry (s : State) (hF : [.regs, .sys] ⊆ F) (hs : Keeps F z s) :
    Keeps F z (State.startDry s) := by
  unfold State.startDry
  repeat' first
    | with_reducible assumption
    | with_reducible apply keeps_wr
    | with_reducible apply keeps_put
    | exact List.Subset.trans (by decide) hF
    | exact Or.inl (hF (by decide))
    | with_reducible exact Or.inr rfl
    | with_reducible rfl
    | simp only [keeps_lit]
    | (with_reducible refine keeps_mk ?_ rfl rfl rfl ?_ ?_ ?_ ?_ ?_ ?_ ?_ ?_ ?_ ?_ ?_ ?_ ?_ ?_ ?_ ?_ ?_ ?_ ?_ ?_ ?_)

theorem keeps_drySample (s : State) (hF : [.sys] ⊆ F) (hs : Keeps F z s) :
    Keeps F z (State.drySample s) := by
  unfold State.drySample
  repeat' first
    | with_reducible assumption
    | exact List.Subset.trans (by decide) hF
    | exact Or.inl (hF (by decide))
    | with_reducible exact Or.inr rfl
    | with_reducible rfl
    | simp only [keeps_lit]
    | (with_reducible refine keeps_mk ?_ rfl rfl rfl ?_ ?_ ?_ ?_ ?_ ?_ ?_ ?_ ?_ ?_ ?_ ?_ ?_ ?_ ?_ ?_ ?_ ?_ ?_ ?_ ?_)
    | exact Or.inr rfl
    | rfl
    | with_reducible apply keeps_ite
    | (intro _)

theorem keeps_dryWaitEnd (s : State) (hF : [.regs] ⊆ F) (hs : Keeps F z s) :
    Keeps F z (State.dryWaitEnd s) := by
  unfold State.dryWaitEnd
  repeat' first
    | with_reducible assumption
    | with_reducible apply keeps_when
    | with_reducible apply keeps_wr
    | exact List.Subset.trans (by decide) hF
    | with_reducible apply keeps_ite
    | (intro _)

theorem keeps_dryComplete (s : State) (hF : [.regs, .sent, .sys] ⊆ F) (hs : Keeps F z s) :
    Keeps F z (State.dryComplete s) := by
  unfold State.dryComplete
  repeat' first
    | with_reducible assumption
    | with_reducible apply keeps_when
    | with_reducible apply keeps_goto
    | with_reducible apply keeps_settled
    | with_reducible apply keeps_endDry
    | exact List.Subset.trans (by decide) hF
    | with_reducible apply keeps_ite
    | (intro _)

theorem keeps_dryArmBlock (s : State) (a1) (hF : [.regs, .sent, .sys] ⊆ F) (hs : Keeps F z s) :
    Keeps F z (State.dryArmBlock s a1) := by
  unfold State.dryArmBlock
  repeat' first
    | with_reducible assumption
    | with_reducible apply keeps_when
    | with_reducible apply keeps_dryComplete
    | with_reducible apply keeps_putBit
    | exact List.Subset.trans (by decide) hF
    | with_reducible apply keeps_ite
    | (intro _)

theorem keeps_dryExpire (s : State) (hF : [.regs, .sent, .sys, .tie, .flt, .acq, .mem] ⊆ F) (hs : Keeps F z s) :
    Keeps F z (State.dryExpire s) := by
  unfold State.dryExpire
  repeat' first
    | with_reducible assumption
    | with_reducible apply keeps_when
    | with_reducible apply keeps_put
    | with_reducible apply keeps_raise
    | exact List.Subset.trans (by decide) hF
    | exact Or.inl (hF (by decide))
    | with_reducible exact Or.inr rfl
    | with_reducible rfl
    | simp only [keeps_lit]
    | (with_reducible refine keeps_mk ?_ rfl rfl rfl ?_ ?_ ?_ ?_ ?_ ?_ ?_ ?_ ?_ ?_ ?_ ?_ ?_ ?_ ?_ ?_ ?_ ?_ ?_ ?_ ?_)
    | exact Or.inr rfl
    | rfl
    | with_reducible apply keeps_ite
    | (intro _)

theorem keeps_dryBoundary (s : State) (hF : [.regs, .sent, .sys] ⊆ F) (hs : Keeps F z s) :
    Keeps F z (State.dryBoundary s) := by
  unfold State.dryBoundary
  repeat' first
    | with_reducible assumption
    | with_reducible apply keeps_dryWaitEnd
    | with_reducible apply keeps_forN
    | with_reducible apply keeps_dryArmBlock
    | exact List.Subset.trans (by decide) hF
    | with_reducible apply keeps_ite
    | (intro _)

theorem keeps_enterReset (s : State) (a1) (hF : allParts ⊆ F) (hs : Keeps F z s) :
    Keeps F z (State.enterReset s a1) := by
  unfold State.enterReset
  repeat' first
    | with_reducible assumption
    | with_reducible apply keeps_forL
    | with_reducible apply keeps_wr
    | with_reducible apply keeps_putBit
    | with_reducible apply keeps_put
    | with_reducible apply keeps_summarise
    | with_reducible apply keeps_driveYield
    | exact List.Subset.trans (by decide) hF
    | exact keeps_all hF hs rfl (fun c => ⟨mapWf_filter _ _ _ c.1, c.2.1, mapWf_filter _ _ _ c.2.2⟩)
    | with_reducible apply keeps_ite
    | (intro _)

theorem keeps_endReset (s : State) (hF : [.regs, .sent, .sys, .tie, .flt, .acq, .mem] ⊆ F) (hs : Keeps F z s) :
    Keeps F z (State.endReset s) := by
  unfold State.endReset
  repeat' first
    | with_reducible assumption
    | with_reducible apply keeps_wr
    | with_reducible apply keeps_forN
    | with_reducible apply keeps_when
    | with_reducible apply keeps_raise
    | with_reducible apply keeps_causeAbsent
    | exact List.Subset.trans (by decide) hF
    | exact Or.inl (hF (by decide))
    | with_reducible exact Or.inr rfl
    | with_reducible rfl
    | simp only [keeps_lit]
    | (with_reducible refine keeps_mk ?_ rfl rfl rfl ?_ ?_ ?_ ?_ ?_ ?_ ?_ ?_ ?_ ?_ ?_ ?_ ?_ ?_ ?_ ?_ ?_ ?_ ?_ ?_ ?_)
    | exact Or.inr rfl
    | rfl
    | with_reducible apply keeps_ite
    | (intro _)

theorem keeps_stageOwn (s : State) (a1) (a2) (a3) (hF : [.regs, .acd] ⊆ F) (hs : Keeps F z s) :
    Keeps F z (State.stageOwn s a1 a2 a3) := by
  unfold State.stageOwn
  repeat' first
    | with_reducible assumption
    | with_reducible apply keeps_forL
    | with_reducible apply keeps_wr
    | exact List.Subset.trans (by decide) hF
    | exact Or.inl (hF (by decide))
    | with_reducible exact Or.inr rfl
    | with_reducible rfl
    | simp only [keeps_lit]
    | (with_reducible refine keeps_mk ?_ rfl rfl rfl ?_ ?_ ?_ ?_ ?_ ?_ ?_ ?_ ?_ ?_ ?_ ?_ ?_ ?_ ?_ ?_ ?_ ?_ ?_ ?_ ?_)
    | exact Or.inr rfl
    | rfl
    | with_reducible apply keeps_ite
    | (intro _)

theorem keeps_acceptCommand (s : State) (a1) (a2) (a3) (hF : [.regs, .sys, .acd] ⊆ F) (hs : Keeps F z s) :
    Keeps F z (State.acceptCommand s a1 a2 a3) := by
  unfold State.acceptCommand
  repeat' first
    | with_reducible assumption
    | with_reducible apply keeps_when
    | with_reducible apply keeps_put
    | with_reducible apply keeps_stageOwn
    | exact List.Subset.trans (by decide) hF
    | exact Or.inl (hF (by decide))
    | with_reducible exact Or.inr rfl
    | with_reducible rfl
    | simp only [keeps_lit]
    | (with_reducible refine keeps_mk ?_ rfl rfl rfl ?_ ?_ ?_ ?_ ?_ ?_ ?_ ?_ ?_ ?_ ?_ ?_ ?_ ?_ ?_ ?_ ?_ ?_ ?_ ?_ ?_)
    | exact Or.inr rfl
    | rfl
    | with_reducible apply keeps_ite
    | (intro _)

theorem keeps_configureNow (s : State) (a1) (hF : [.regs, .sent, .sys] ⊆ F) (hs : Keeps F z s) :
    Keeps F z (State.configureNow s a1) := by
  unfold State.configureNow
  repeat' first
    | with_reducible assumption
    | with_reducible apply keeps_goto
    | with_reducible apply keeps_settled
    | exact List.Subset.trans (by decide) hF

theorem keeps_configure (s : State) (hF : [.regs, .sent, .sys, .acd] ⊆ F) (hs : Keeps F z s) :
    Keeps F z (State.configure s).1 := by
  unfold State.configure
  repeat' first
    | with_reducible assumption
    | with_reducible apply keeps_refuse
    | with_reducible apply keeps_acceptCommand
    | with_reducible apply keeps_configureNow
    | exact List.Subset.trans (by decide) hF
    | with_reducible apply keeps_ite
    | with_reducible apply keeps_ite_fst
    | (intro _)

theorem keeps_energiseStarts (s : State) (a1) (hF : [.draws, .regs, .sent, .sys, .ctl, .ports, .lvl] ⊆ F) (hs : Keeps F z s) :
    Keeps F z (State.energiseStarts s a1) := by
  unfold State.energiseStarts
  repeat' first
    | with_reducible assumption
    | with_reducible apply keeps_startPrep
    | with_reducible apply keeps_commit
    | with_reducible apply keeps_put
    | exact List.Subset.trans (by decide) hF
    | exact Or.inl (hF (by decide))
    | with_reducible exact Or.inr rfl
    | with_reducible rfl
    | simp only [keeps_lit]
    | (with_reducible refine keeps_mk ?_ rfl rfl rfl ?_ ?_ ?_ ?_ ?_ ?_ ?_ ?_ ?_ ?_ ?_ ?_ ?_ ?_ ?_ ?_ ?_ ?_ ?_ ?_ ?_)

theorem keeps_energise (s : State) (hF : [.draws, .regs, .sent, .sys, .ctl, .ports, .lvl, .acd] ⊆ F) (hs : Keeps F z s) :
    Keeps F z (State.energise s).1 := by
  unfold State.energise
  repeat' first
    | with_reducible assumption
    | with_reducible apply keeps_refuse
    | with_reducible apply keeps_energiseCode
    | with_reducible refine keeps_fst (keeps_energiseCode _ _ ?_ ?_) (by assumption)
    | with_reducible apply keeps_energiseStarts
    | with_reducible apply keeps_when
    | with_reducible apply keeps_stageOwn
    | exact List.Subset.trans (by decide) hF
    | exact Or.inl (hF (by decide))
    | with_reducible exact Or.inr rfl
    | with_reducible rfl
    | simp only [keeps_lit]
    | (with_reducible refine keeps_mk ?_ rfl rfl rfl ?_ ?_ ?_ ?_ ?_ ?_ ?_ ?_ ?_ ?_ ?_ ?_ ?_ ?_ ?_ ?_ ?_ ?_ ?_ ?_ ?_)
    | exact Or.inr rfl
    | rfl
    | with_reducible apply keeps_ite
    | with_reducible apply keeps_ite_fst
    | (intro _)

theorem keeps_deblock (s : State) (hF : [.regs, .sys, .acd] ⊆ F) (hs : Keeps F z s) :
    Keeps F z (State.deblock s).1 := by
  unfold State.deblock
  repeat' first
    | with_reducible assumption
    | with_reducible apply keeps_refuse
    | with_reducible apply keeps_acceptCommand
    | with_reducible apply keeps_put
    | exact List.Subset.trans (by decide) hF
    | with_reducible apply keeps_ite
    | with_reducible apply keeps_ite_fst
    | (intro _)

theorem keeps_drydown (s : State) (hF : [.regs, .sys, .acd] ⊆ F) (hs : Keeps F z s) :
    Keeps F z (State.drydown s).1 := by
  unfold State.drydown
  repeat' first
    | with_reducible assumption
    | with_reducible apply keeps_refuse
    | with_reducible apply keeps_acceptCommand
    | with_reducible apply keeps_startDry
    | exact List.Subset.trans (by decide) hF
    | exact Or.inl (hF (by decide))
    | with_reducible exact Or.inr rfl
    | with_reducible rfl
    | simp only [keeps_lit]
    | (with_reducible refine keeps_mk ?_ rfl rfl rfl ?_ ?_ ?_ ?_ ?_ ?_ ?_ ?_ ?_ ?_ ?_ ?_ ?_ ?_ ?_ ?_ ?_ ?_ ?_ ?_ ?_)
    | exact Or.inr rfl
    | rfl
    | with_reducible apply keeps_ite
    | with_reducible apply keeps_ite_fst
    | (intro _)

theorem keeps_clear (s : State) (hF : [.regs, .sys, .acd] ⊆ F) (hs : Keeps F z s) :
    Keeps F z (State.clear s).1 := by
  unfold State.clear
  repeat' first
    | with_reducible assumption
    | with_reducible apply keeps_refuse
    | with_reducible apply keeps_acceptCommand
    | exact List.Subset.trans (by decide) hF
    | with_reducible apply keeps_ite
    | with_reducible apply keeps_ite_fst
    | (intro _)

theorem keeps_deenergise (s : State) (hF : [.regs, .sys, .acd] ⊆ F) (hs : Keeps F z s) :
    Keeps F z (State.deenergise s).1 := by
  unfold State.deenergise
  repeat' first
    | with_reducible assumption
    | with_reducible apply keeps_refuse
    | with_reducible apply keeps_acceptCommand
    | exact List.Subset.trans (by decide) hF
    | with_reducible apply keeps_ite
    | with_reducible apply keeps_ite_fst
    | (intro _)

theorem keeps_restartNow (s : State) (hF : allParts ⊆ F) (hs : Keeps F z s) :
    Keeps F z (State.restartNow s) := by
  unfold State.restartNow
  repeat' first
    | with_reducible assumption
    | with_reducible apply keeps_endReset
    | with_reducible apply keeps_enterReset
    | exact List.Subset.trans (by decide) hF

theorem keeps_restart (s : State) (a1) (hF : allParts ⊆ F) (hs : Keeps F z s) :
    Keeps F z (State.restart s a1).1 := by
  unfold State.restart
  repeat' first
    | with_reducible assumption
    | with_reducible apply keeps_refuse
    | with_reducible apply keeps_acceptCommand
    | with_reducible apply keeps_restartNow
    | exact List.Subset.trans (by decide) hF
    | with_reducible apply keeps_ite
    | with_reducible apply keeps_ite_fst
    | (intro _)

theorem keeps_stateCommand (s : State) (a1) (a2) (hF : allParts ⊆ F) (hs : Keeps F z s) :
    Keeps F z (State.stateCommand s a1 a2).1 := by
  unfold State.stateCommand
  repeat' first
    | with_reducible assumption
    | with_reducible apply keeps_configure
    | with_reducible refine keeps_fst (keeps_configure _ ?_ ?_) (by assumption)
    | with_reducible apply keeps_energise
    | with_reducible refine keeps_fst (keeps_energise _ ?_ ?_) (by assumption)
    | with_reducible apply keeps_deblock
    | with_reducible refine keeps_fst (keeps_deblock _ ?_ ?_) (by assumption)
    | with_reducible apply keeps_drydown
    | with_reducible refine keeps_fst (keeps_drydown _ ?_ ?_) (by assumption)
    | with_reducible apply keeps_clear
    | with_reducible refine keeps_fst (keeps_clear _ ?_ ?_) (by assumption)
    | with_reducible apply keeps_deenergise
    | with_reducible refine keeps_fst (keeps_deenergise _ ?_ ?_) (by assumption)
    | with_reducible apply keeps_restart
    | with_reducible refine keeps_fst (keeps_restart _ _ ?_ ?_) (by assumption)
    | with_reducible apply keeps_refuse
    | exact List.Subset.trans (by decide) hF
    | with_reducible apply keeps_ite
    | with_reducible apply keeps_ite_fst
    | (intro _)
    | with_reducible apply keeps_foldl
    | with_reducible apply keeps_foldl_fst
    | with_reducible apply keeps_optmap
    | split

theorem keeps_answer (s : State) (a1) (a2) (a3) (hF : [.sent] ⊆ F) (hs : Keeps F z s) :
    Keeps F z (State.answer s a1 a2 a3) := by
  unfold State.answer
  repeat' first
    | with_reducible assumption
    | with_reducible apply keeps_send
    | exact List.Subset.trans (by decide) hF
    | with_reducible apply keeps_ite
    | (intro _)
    | with_reducible apply keeps_foldl
    | with_reducible apply keeps_foldl_fst
    | with_reducible apply keeps_optmap
    | split

theorem keeps_commanded (via : Via) (x : State × Nat) (hF : [.sent] ⊆ F) (h : Keeps F z x.1) :
    ∀ t, commanded via x = .next t → Keeps F z t := by
  intro t e
  rw [← Host.Outcome.next.inj e]
  exact keeps_answer _ _ _ _ hF h

theorem keeps_applyCommand (s : State) (a1) (a2) (hF : allParts ⊆ F) (hs : Keeps F z s) :
    Keeps F z (State.applyCommand s a1 a2) := by
  unfold State.applyCommand
  repeat' first
    | with_reducible assumption
    | with_reducible apply keeps_configureNow
    | with_reducible apply keeps_goto
    | with_reducible apply keeps_settled
    | with_reducible apply keeps_startDry
    | with_reducible apply keeps_clearNow
    | with_reducible apply keeps_deenergiseNow
    | with_reducible apply keeps_restartNow
    | exact List.Subset.trans (by decide) hF
    | with_reducible apply keeps_ite
    | (intro _)
    | with_reducible apply keeps_foldl
    | with_reducible apply keeps_foldl_fst
    | with_reducible apply keeps_optmap
    | split

theorem keeps_pendingBoundary (s : State) (hF : allParts ⊆ F) (hs : Keeps F z s) :
    Keeps F z (State.pendingBoundary s) := by
  unfold State.pendingBoundary
  repeat' first
    | with_reducible assumption
    | with_reducible apply keeps_when
    | with_reducible apply keeps_applyCommand
    | exact List.Subset.trans (by decide) hF
    | with_reducible apply keeps_ite
    | (intro _)
    | with_reducible apply keeps_foldl
    | with_reducible apply keeps_foldl_fst
    | with_reducible apply keeps_optmap
    | split

theorem keeps_accordTrained (s : State) (a1) (a2) (a3) (a4) (a5) (a6) (hF : [.regs, .sent, .sys, .dly, .tie, .flt, .acq, .mem] ⊆ F) (hs : Keeps F z s) :
    Keeps F z (State.accordTrained s a1 a2 a3 a4 a5 a6) := by
  unfold State.accordTrained
  repeat' first
    | with_reducible assumption
    | with_reducible apply keeps_put
    | with_reducible apply keeps_wr
    | with_reducible apply keeps_when
    | with_reducible apply keeps_startDly
    | with_reducible apply keeps_accordLinkCause
    | exact List.Subset.trans (by decide) hF
    | with_reducible apply keeps_ite
    | (intro _)
    | with_reducible apply keeps_foldl
    | with_reducible apply keeps_foldl_fst
    | with_reducible apply keeps_optmap
    | split

theorem keeps_sendAccordTo (s : State) (a1) (a2) (a3) (a4) (a5) (a6) (hF : [.sent] ⊆ F) (hs : Keeps F z s) :
    Keeps F z (State.sendAccordTo s a1 a2 a3 a4 a5 a6) := by
  unfold State.sendAccordTo
  repeat' first
    | with_reducible assumption
    | with_reducible apply keeps_send
    | exact List.Subset.trans (by decide) hF
    | with_reducible apply keeps_ite
    | (intro _)

theorem keeps_sendAccord (s : State) (a1) (a2) (a3) (a4) (a5) (hF : [.sent] ⊆ F) (hs : Keeps F z s) :
    Keeps F z (State.sendAccord s a1 a2 a3 a4 a5) := by
  unfold State.sendAccord
  repeat' first
    | with_reducible assumption
    | with_reducible apply keeps_sendAccordTo

theorem keeps_sendMembers (s : State) (a1) (a2) (a3) (a4) (hF : [.sent] ⊆ F) (hs : Keeps F z s) :
    Keeps F z (State.sendMembers s a1 a2 a3 a4) := by
  unfold State.sendMembers
  repeat' first
    | with_reducible assumption
    | with_reducible apply keeps_forL
    | with_reducible apply keeps_sendAccord
    | exact List.Subset.trans (by decide) hF
    | with_reducible apply keeps_ite
    | (intro _)

theorem keeps_sendStaged (s : State) (a1) (a2) (a3) (hF : [.sent] ⊆ F) (hs : Keeps F z s) :
    Keeps F z (State.sendStaged s a1 a2 a3) := by
  unfold State.sendStaged
  repeat' first
    | with_reducible assumption
    | with_reducible apply keeps_sendAccordTo
    | with_reducible apply keeps_sendMembers

theorem keeps_sendLead (s : State) (a1) (a2) (a3) (a4) (hF : [.sent] ⊆ F) (hs : Keeps F z s) :
    Keeps F z (State.sendLead s a1 a2 a3 a4) := by
  unfold State.sendLead
  repeat' first
    | with_reducible assumption
    | with_reducible apply keeps_sendAccord

theorem keeps_forwardAccord (s : State) (a1) (hF : [.sent] ⊆ F) (hs : Keeps F z s) :
    Keeps F z (State.forwardAccord s a1) := by
  unfold State.forwardAccord
  repeat' first
    | with_reducible assumption
    | with_reducible apply keeps_send
    | exact List.Subset.trans (by decide) hF
    | with_reducible apply keeps_ite
    | (intro _)

theorem keeps_accordIn (s : State) (a1) (a2) (a3) (a4) (hF : [.regs, .acd] ⊆ F) (hs : Keeps F z s) (ha4 : ∀ x0 x1 x2, Keeps F z x2 → Keeps F z (a4 x0 x1 x2)) :
    Keeps F z (State.accordIn s a1 a2 a3 a4) := by
  unfold State.accordIn
  repeat' first
    | with_reducible assumption
    | with_reducible apply ha4
    | with_reducible apply keeps_inc
    | exact List.Subset.trans (by decide) hF
    | exact Or.inl (hF (by decide))
    | with_reducible exact Or.inr rfl
    | with_reducible rfl
    | simp only [keeps_lit]
    | (with_reducible refine keeps_mk ?_ rfl rfl rfl ?_ ?_ ?_ ?_ ?_ ?_ ?_ ?_ ?_ ?_ ?_ ?_ ?_ ?_ ?_ ?_ ?_ ?_ ?_ ?_ ?_)
    | exact Or.inr rfl
    | rfl
    | with_reducible apply keeps_ite
    | (intro _)
    | with_reducible apply keeps_foldl
    | with_reducible apply keeps_foldl_fst
    | with_reducible apply keeps_optmap
    | split

theorem keeps_sendValues (s : State) (hF : [.sent] ⊆ F) (hs : Keeps F z s) :
    Keeps F z (State.sendValues s) := by
  unfold State.sendValues
  repeat' first
    | with_reducible assumption
    | with_reducible apply keeps_when
    | with_reducible apply keeps_forL
    | with_reducible apply keeps_sendMembers
    | with_reducible apply keeps_sendLead
    | exact List.Subset.trans (by decide) hF
    | with_reducible apply keeps_ite
    | (intro _)

theorem keeps_takeValues (s : State) (a1) (a2) (a3) (a4) (hF : [.acd] ⊆ F) (hs : Keeps F z s) :
    Keeps F z (State.takeValues s a1 a2 a3 a4) := by
  unfold State.takeValues
  repeat' first
    | with_reducible assumption
    | with_reducible apply keeps_forN
    | exact List.Subset.trans (by decide) hF
    | exact Or.inl (hF (by decide))
    | with_reducible exact Or.inr rfl
    | with_reducible rfl
    | simp only [keeps_lit]
    | (with_reducible refine keeps_mk ?_ rfl rfl rfl ?_ ?_ ?_ ?_ ?_ ?_ ?_ ?_ ?_ ?_ ?_ ?_ ?_ ?_ ?_ ?_ ?_ ?_ ?_ ?_ ?_)
    | exact Or.inr rfl
    | rfl
    | with_reducible apply keeps_ite
    | (intro _)

theorem keeps_takeReport (s : State) (a1) (a2) (a3) (hF : [.acd] ⊆ F) (hs : Keeps F z s) :
    Keeps F z (State.takeReport s a1 a2 a3) := by
  unfold State.takeReport
  repeat' first
    | with_reducible assumption
    | exact List.Subset.trans (by decide) hF
    | exact Or.inl (hF (by decide))
    | with_reducible exact Or.inr rfl
    | with_reducible rfl
    | simp only [keeps_lit]
    | (with_reducible refine keeps_mk ?_ rfl rfl rfl ?_ ?_ ?_ ?_ ?_ ?_ ?_ ?_ ?_ ?_ ?_ ?_ ?_ ?_ ?_ ?_ ?_ ?_ ?_ ?_ ?_)

theorem keeps_showSlots (s : State) (hF : [.regs] ⊆ F) (hs : Keeps F z s) :
    Keeps F z (State.showSlots s) := by
  unfold State.showSlots
  repeat' first
    | with_reducible assumption
    | with_reducible apply keeps_forN
    | with_reducible apply keeps_when
    | with_reducible apply keeps_put
    | exact List.Subset.trans (by decide) hF
    | with_reducible apply keeps_ite
    | (intro _)

theorem keeps_memberLost (s : State) (a1) (a2) (hF : [.regs, .sent, .sys, .tie, .flt, .acq, .mem] ⊆ F) (hs : Keeps F z s) :
    Keeps F z (State.memberLost s a1 a2) := by
  unfold State.memberLost
  repeat' first
    | with_reducible assumption
    | with_reducible apply keeps_when
    | with_reducible apply keeps_raiseAt
    | exact List.Subset.trans (by decide) hF
    | with_reducible apply keeps_ite
    | (intro _)

theorem keeps_leadLost (s : State) (a1) (hF : [.regs, .sent, .sys, .tie, .flt, .acq, .mem] ⊆ F) (hs : Keeps F z s) :
    Keeps F z (State.leadLost s a1) := by
  unfold State.leadLost
  repeat' first
    | with_reducible assumption
    | with_reducible apply keeps_when
    | with_reducible apply keeps_raise
    | exact List.Subset.trans (by decide) hF
    | with_reducible apply keeps_ite
    | (intro _)

theorem keeps_countValues (s : State) (hF : [.regs, .sent, .sys, .tie, .acd, .flt, .acq, .mem] ⊆ F) (hs : Keeps F z s) :
    Keeps F z (State.countValues s) := by
  unfold State.countValues
  repeat' first
    | with_reducible assumption
    | with_reducible apply keeps_forL
    | with_reducible apply keeps_memberLost
    | with_reducible apply keeps_leadLost
    | exact List.Subset.trans (by decide) hF
    | exact Or.inl (hF (by decide))
    | with_reducible exact Or.inr rfl
    | with_reducible rfl
    | simp only [keeps_lit]
    | (with_reducible refine keeps_mk ?_ rfl rfl rfl ?_ ?_ ?_ ?_ ?_ ?_ ?_ ?_ ?_ ?_ ?_ ?_ ?_ ?_ ?_ ?_ ?_ ?_ ?_ ?_ ?_)
    | exact Or.inr rfl
    | rfl
    | with_reducible apply keeps_ite
    | (intro _)

theorem keeps_showFormed (s : State) (hF : [.regs] ⊆ F) (hs : Keeps F z s) :
    Keeps F z (State.showFormed s) := by
  unfold State.showFormed
  repeat' first
    | with_reducible assumption
    | with_reducible apply keeps_put

theorem keeps_elect (s : State) (a1) (a2) (hF : [.regs] ⊆ F) (hs : Keeps F z s) :
    Keeps F z (State.elect s a1 a2) := by
  unfold State.elect
  repeat' first
    | with_reducible assumption
    | with_reducible apply keeps_wr
    | with_reducible apply keeps_showFormed
    | with_reducible apply keeps_put
    | exact List.Subset.trans (by decide) hF
    | with_reducible apply keeps_ite
    | (intro _)
    | with_reducible apply keeps_foldl
    | with_reducible apply keeps_foldl_fst
    | with_reducible apply keeps_optmap
    | split
    | (dsimp only; split)

theorem keeps_stagedCode (s : State) (a1) (a2) (hF : [.regs] ⊆ F) (hs : Keeps F z s) :
    Keeps F z (State.stagedCode s a1 a2).1 := by
  unfold State.stagedCode
  repeat' first
    | with_reducible assumption
    | with_reducible apply keeps_energiseCode
    | with_reducible refine keeps_fst (keeps_energiseCode _ _ ?_ ?_) (by assumption)
    | exact List.Subset.trans (by decide) hF
    | with_reducible apply keeps_ite
    | with_reducible apply keeps_ite_fst
    | (intro _)
    | with_reducible apply keeps_foldl
    | with_reducible apply keeps_foldl_fst
    | with_reducible apply keeps_optmap
    | split

theorem keeps_sendAck (s : State) (a1) (a2) (a3) (hF : [.sent] ⊆ F) (hs : Keeps F z s) :
    Keeps F z (State.sendAck s a1 a2 a3) := by
  unfold State.sendAck
  repeat' first
    | with_reducible assumption
    | with_reducible apply keeps_sendLead
    | exact List.Subset.trans (by decide) hF
    | with_reducible apply keeps_ite
    | (intro _)

theorem keeps_refusalKnown (s : State) (a1) (hF : [.sent, .acd] ⊆ F) (hs : Keeps F z s) :
    Keeps F z (State.refusalKnown s a1) := by
  unfold State.refusalKnown
  repeat' first
    | with_reducible assumption
    | with_reducible apply keeps_stagedFails
    | with_reducible apply keeps_sendAck
    | exact List.Subset.trans (by decide) hF
    | exact Or.inl (hF (by decide))
    | with_reducible exact Or.inr rfl
    | with_reducible rfl
    | simp only [keeps_lit]
    | (with_reducible refine keeps_mk ?_ rfl rfl rfl ?_ ?_ ?_ ?_ ?_ ?_ ?_ ?_ ?_ ?_ ?_ ?_ ?_ ?_ ?_ ?_ ?_ ?_ ?_ ?_ ?_)
    | exact Or.inr rfl
    | rfl
    | with_reducible apply keeps_ite
    | (intro _)
    | with_reducible apply keeps_foldl
    | with_reducible apply keeps_foldl_fst
    | with_reducible apply keeps_optmap
    | split

theorem keeps_ackDue (s : State) (hF : [.sent, .acd] ⊆ F) (hs : Keeps F z s) :
    Keeps F z (State.ackDue s) := by
  unfold State.ackDue
  repeat' first
    | with_reducible assumption
    | with_reducible apply keeps_sendAck
    | exact List.Subset.trans (by decide) hF
    | exact Or.inl (hF (by decide))
    | with_reducible exact Or.inr rfl
    | with_reducible rfl
    | simp only [keeps_lit]
    | (with_reducible refine keeps_mk ?_ rfl rfl rfl ?_ ?_ ?_ ?_ ?_ ?_ ?_ ?_ ?_ ?_ ?_ ?_ ?_ ?_ ?_ ?_ ?_ ?_ ?_ ?_ ?_)
    | exact Or.inr rfl
    | rfl
    | with_reducible apply keeps_ite
    | (intro _)
    | with_reducible apply keeps_foldl
    | with_reducible apply keeps_foldl_fst
    | with_reducible apply keeps_optmap
    | split

theorem keeps_commitChange (s : State) (a1) (hF : [.regs, .sys, .acd] ⊆ F) (hs : Keeps F z s) :
    Keeps F z (State.commitChange s a1) := by
  unfold State.commitChange
  repeat' first
    | with_reducible assumption
    | with_reducible apply keeps_wr
    | exact List.Subset.trans (by decide) hF
    | exact Or.inl (hF (by decide))
    | with_reducible exact Or.inr rfl
    | with_reducible rfl
    | simp only [keeps_lit]
    | (with_reducible refine keeps_mk ?_ rfl rfl rfl ?_ ?_ ?_ ?_ ?_ ?_ ?_ ?_ ?_ ?_ ?_ ?_ ?_ ?_ ?_ ?_ ?_ ?_ ?_ ?_ ?_)

theorem keeps_commitOwn (s : State) (hF : [.regs, .sys, .acd] ⊆ F) (hs : Keeps F z s) :
    Keeps F z (State.commitOwn s) := by
  unfold State.commitOwn
  repeat' first
    | with_reducible assumption
    | with_reducible apply keeps_commitChange
    | exact List.Subset.trans (by decide) hF
    | exact Or.inl (hF (by decide))
    | with_reducible exact Or.inr rfl
    | with_reducible rfl
    | simp only [keeps_lit]
    | (with_reducible refine keeps_mk ?_ rfl rfl rfl ?_ ?_ ?_ ?_ ?_ ?_ ?_ ?_ ?_ ?_ ?_ ?_ ?_ ?_ ?_ ?_ ?_ ?_ ?_ ?_ ?_)
    | exact Or.inr rfl
    | rfl
    | with_reducible apply keeps_ite
    | (intro _)
    | with_reducible apply keeps_foldl
    | with_reducible apply keeps_foldl_fst
    | with_reducible apply keeps_optmap
    | split

theorem keeps_stageDeadline (s : State) (hF : [.acd] ⊆ F) (hs : Keeps F z s) :
    Keeps F z (State.stageDeadline s) := by
  unfold State.stageDeadline
  repeat' first
    | with_reducible assumption
    | exact List.Subset.trans (by decide) hF
    | exact Or.inl (hF (by decide))
    | with_reducible exact Or.inr rfl
    | with_reducible rfl
    | simp only [keeps_lit]
    | (with_reducible refine keeps_mk ?_ rfl rfl rfl ?_ ?_ ?_ ?_ ?_ ?_ ?_ ?_ ?_ ?_ ?_ ?_ ?_ ?_ ?_ ?_ ?_ ?_ ?_ ?_ ?_)
    | exact Or.inr rfl
    | rfl
    | with_reducible apply keeps_ite
    | (intro _)
    | with_reducible apply keeps_foldl
    | with_reducible apply keeps_foldl_fst
    | with_reducible apply keeps_optmap
    | split

theorem keeps_revert (s : State) (a1) (a2) (hF : [.draws, .regs, .sent, .sys, .ports, .acd] ⊆ F) (hs : Keeps F z s) :
    Keeps F z (State.revert s a1 a2) := by
  unfold State.revert
  repeat' first
    | with_reducible assumption
    | with_reducible apply keeps_wr
    | with_reducible apply keeps_settled
    | with_reducible apply keeps_when
    | with_reducible apply keeps_restoreBounds
    | exact List.Subset.trans (by decide) hF
    | exact Or.inl (hF (by decide))
    | with_reducible exact Or.inr rfl
    | with_reducible rfl
    | simp only [keeps_lit]
    | (with_reducible refine keeps_mk ?_ rfl rfl rfl ?_ ?_ ?_ ?_ ?_ ?_ ?_ ?_ ?_ ?_ ?_ ?_ ?_ ?_ ?_ ?_ ?_ ?_ ?_ ?_ ?_)
    | exact Or.inr rfl
    | rfl
    | with_reducible apply keeps_ite
    | (intro _)

theorem keeps_sendModes (s : State) (hF : [.draws, .regs, .sent, .sys, .ports, .acd] ⊆ F) (hs : Keeps F z s) :
    Keeps F z (State.sendModes s) := by
  unfold State.sendModes
  repeat' first
    | with_reducible assumption
    | with_reducible apply keeps_when
    | with_reducible apply keeps_forL
    | with_reducible apply keeps_sendStaged
    | with_reducible apply keeps_refuse
    | with_reducible apply keeps_revert
    | exact List.Subset.trans (by decide) hF
    | exact Or.inl (hF (by decide))
    | with_reducible exact Or.inr rfl
    | with_reducible rfl
    | simp only [keeps_lit]
    | (with_reducible refine keeps_mk ?_ rfl rfl rfl ?_ ?_ ?_ ?_ ?_ ?_ ?_ ?_ ?_ ?_ ?_ ?_ ?_ ?_ ?_ ?_ ?_ ?_ ?_ ?_ ?_)
    | exact Or.inr rfl
    | rfl
    | with_reducible apply keeps_ite
    | (intro _)
    | with_reducible apply keeps_foldl
    | with_reducible apply keeps_foldl_fst
    | with_reducible apply keeps_optmap
    | split

theorem keeps_stageRevert (s : State) (hF : [.draws, .regs, .sent, .sys, .ports, .tie, .acd, .flt, .acq, .mem] ⊆ F) (hs : Keeps F z s) :
    Keeps F z (State.stageRevert s) := by
  unfold State.stageRevert
  repeat' first
    | with_reducible assumption
    | with_reducible apply keeps_when
    | with_reducible apply keeps_raise
    | with_reducible apply keeps_revert
    | exact List.Subset.trans (by decide) hF
    | with_reducible apply keeps_ite
    | (intro _)
    | with_reducible apply keeps_foldl
    | with_reducible apply keeps_foldl_fst
    | with_reducible apply keeps_optmap
    | split

theorem keeps_followDist (s : State) (hF : allParts ⊆ F) (hs : Keeps F z s) :
    Keeps F z (State.followDist s) := by
  unfold State.followDist
  repeat' first
    | with_reducible assumption
    | with_reducible apply keeps_commitChange
    | with_reducible apply keeps_put
    | with_reducible apply keeps_energiseNow
    | with_reducible apply keeps_applyCommand
    | with_reducible apply keeps_wr
    | exact List.Subset.trans (by decide) hF
    | exact Or.inl (hF (by decide))
    | with_reducible exact Or.inr rfl
    | with_reducible rfl
    | simp only [keeps_lit]
    | (with_reducible refine keeps_mk ?_ rfl rfl rfl ?_ ?_ ?_ ?_ ?_ ?_ ?_ ?_ ?_ ?_ ?_ ?_ ?_ ?_ ?_ ?_ ?_ ?_ ?_ ?_ ?_)
    | exact Or.inr rfl
    | rfl
    | with_reducible apply keeps_ite
    | (intro _)
    | with_reducible apply keeps_foldl
    | with_reducible apply keeps_foldl_fst
    | with_reducible apply keeps_optmap
    | split

theorem keeps_activation (s : State) (hF : allParts ⊆ F) (hs : Keeps F z s) :
    Keeps F z (State.activation s) := by
  unfold State.activation
  repeat' first
    | with_reducible assumption
    | with_reducible apply keeps_when
    | with_reducible apply keeps_pendingBoundary
    | exact List.Subset.trans (by decide) hF
    | with_reducible apply keeps_ite
    | (intro _)

theorem keeps_accordBoundary (s : State) (hF : allParts ⊆ F) (hs : Keeps F z s) :
    Keeps F z (State.accordBoundary s) := by
  unfold State.accordBoundary
  repeat' first
    | with_reducible assumption
    | with_reducible apply keeps_when
    | with_reducible apply keeps_countValues
    | with_reducible apply keeps_showFormed
    | with_reducible apply keeps_faultBlock
    | with_reducible apply keeps_stageRevert
    | with_reducible apply keeps_followDist
    | with_reducible apply keeps_wr
    | exact List.Subset.trans (by decide) hF
    | exact Or.inl (hF (by decide))
    | with_reducible exact Or.inr rfl
    | with_reducible rfl
    | simp only [keeps_lit]
    | (with_reducible refine keeps_mk ?_ rfl rfl rfl ?_ ?_ ?_ ?_ ?_ ?_ ?_ ?_ ?_ ?_ ?_ ?_ ?_ ?_ ?_ ?_ ?_ ?_ ?_ ?_ ?_)
    | exact Or.inr rfl
    | rfl
    | with_reducible apply keeps_ite
    | (intro _)

theorem keeps_judgeFrames (s : State) (hF : [.regs, .sent, .sys, .lvl, .tie, .flt, .acq, .mem] ⊆ F) (hs : Keeps F z s) :
    Keeps F z (State.judgeFrames s) := by
  unfold State.judgeFrames
  repeat' first
    | with_reducible assumption
    | with_reducible apply keeps_forN
    | with_reducible apply keeps_when
    | with_reducible apply keeps_raise
    | with_reducible apply keeps_inc
    | exact List.Subset.trans (by decide) hF
    | exact Or.inl (hF (by decide))
    | with_reducible exact Or.inr rfl
    | with_reducible rfl
    | simp only [keeps_lit]
    | (with_reducible refine keeps_mk ?_ rfl rfl rfl ?_ ?_ ?_ ?_ ?_ ?_ ?_ ?_ ?_ ?_ ?_ ?_ ?_ ?_ ?_ ?_ ?_ ?_ ?_ ?_ ?_)
    | exact Or.inr rfl
    | rfl
    | with_reducible apply keeps_ite
    | (intro _)

theorem keeps_sendInput (s : State) (hF : [.sent, .tie] ⊆ F) (hs : Keeps F z s) :
    Keeps F z (State.sendInput s) := by
  unfold State.sendInput
  repeat' first
    | with_reducible assumption
    | with_reducible apply keeps_sendTie
    | exact List.Subset.trans (by decide) hF
    | exact Or.inl (hF (by decide))
    | with_reducible exact Or.inr rfl
    | with_reducible rfl
    | simp only [keeps_lit]
    | (with_reducible refine keeps_mk ?_ rfl rfl rfl ?_ ?_ ?_ ?_ ?_ ?_ ?_ ?_ ?_ ?_ ?_ ?_ ?_ ?_ ?_ ?_ ?_ ?_ ?_ ?_ ?_)
    | exact Or.inr rfl
    | rfl
    | with_reducible apply keeps_ite
    | (intro _)

theorem keeps_controlWindow (s : State) (a1) (hF : [.regs, .sent, .sys, .ctl, .lvl, .tie, .acd, .flt, .acq, .mem] ⊆ F) (hs : Keeps F z s) :
    Keeps F z (State.controlWindow s a1) := by
  unfold State.controlWindow
  repeat' first
    | with_reducible assumption
    | with_reducible apply keeps_judgeFrames
    | with_reducible apply keeps_when
    | with_reducible apply keeps_bridgePeriod
    | with_reducible apply keeps_runEngine
    | with_reducible apply keeps_sendInput
    | with_reducible apply keeps_formAggregates
    | with_reducible apply keeps_ackDue
    | with_reducible apply keeps_sendValues
    | with_reducible apply keeps_showSlots
    | exact List.Subset.trans (by decide) hF
    | with_reducible apply keeps_ite
    | (intro _)

theorem keeps_sendLvlw (s : State) (hF : [.sent, .tie] ⊆ F) (hs : Keeps F z s) :
    Keeps F z (State.sendLvlw s) := by
  unfold State.sendLvlw
  repeat' first
    | with_reducible assumption
    | with_reducible apply keeps_sendTie
    | exact List.Subset.trans (by decide) hF
    | exact Or.inl (hF (by decide))
    | with_reducible exact Or.inr rfl
    | with_reducible rfl
    | simp only [keeps_lit]
    | (with_reducible refine keeps_mk ?_ rfl rfl rfl ?_ ?_ ?_ ?_ ?_ ?_ ?_ ?_ ?_ ?_ ?_ ?_ ?_ ?_ ?_ ?_ ?_ ?_ ?_ ?_ ?_)
    | exact Or.inr rfl
    | rfl
    | with_reducible apply keeps_ite
    | (intro _)

theorem keeps_sendDigest (s : State) (hF : [.regs, .sent, .sys, .tie, .flt, .acq, .mem] ⊆ F) (hs : Keeps F z s) :
    Keeps F z (State.sendDigest s) := by
  unfold State.sendDigest
  repeat' first
    | with_reducible assumption
    | with_reducible apply keeps_compareDigests
    | with_reducible apply keeps_sendTie
    | exact List.Subset.trans (by decide) hF
    | exact Or.inl (hF (by decide))
    | with_reducible exact Or.inr rfl
    | with_reducible rfl
    | simp only [keeps_lit]
    | (with_reducible refine keeps_mk ?_ rfl rfl rfl ?_ ?_ ?_ ?_ ?_ ?_ ?_ ?_ ?_ ?_ ?_ ?_ ?_ ?_ ?_ ?_ ?_ ?_ ?_ ?_ ?_)
    | exact Or.inr rfl
    | rfl
    | with_reducible apply keeps_ite
    | (intro _)

theorem keeps_levelWindow (s : State) (hF : [.draws, .regs, .sent, .sys, .ports, .lvl, .tie, .acd, .flt, .acq, .mem] ⊆ F) (hs : Keeps F z s) :
    Keeps F z (State.levelWindow s) := by
  unfold State.levelWindow
  repeat' first
    | with_reducible assumption
    | with_reducible apply keeps_stageDeadline
    | with_reducible apply keeps_commitOwn
    | with_reducible apply keeps_drySample
    | with_reducible apply keeps_when
    | with_reducible apply keeps_bridgePeriod
    | with_reducible apply keeps_buildLevels
    | with_reducible apply keeps_sendLvlw
    | with_reducible apply keeps_plannedYield
    | with_reducible apply keeps_sendSweep
    | with_reducible apply keeps_sendDigest
    | with_reducible apply keeps_sendModes
    | exact List.Subset.trans (by decide) hF
    | exact Or.inl (hF (by decide))
    | with_reducible exact Or.inr rfl
    | with_reducible rfl
    | simp only [keeps_lit]
    | (with_reducible refine keeps_mk ?_ rfl rfl rfl ?_ ?_ ?_ ?_ ?_ ?_ ?_ ?_ ?_ ?_ ?_ ?_ ?_ ?_ ?_ ?_ ?_ ?_ ?_ ?_ ?_)
    | exact Or.inr rfl
    | rfl
    | with_reducible apply keeps_ite
    | (intro _)

end Sys2Proof.Machine
end

