-- ==== Sys2Proof/Laws/KeepsIsland.lean ====
section
/-! SUPPORT. What the safety island, acquisition and telegrams keep, one lemma per operation. -/

namespace Sys2Proof.Machine

variable {F : List Part} {z : State}

theorem keeps_setConn (s : State) (a1) (a2) (hF : [.isl] ⊆ F) (hs : Keeps F z s) :
    Keeps F z (State.setConn s a1 a2) := by
  unfold State.setConn
  repeat' first
    | with_reducible assumption
    | exact List.Subset.trans (by decide) hF
    | exact Or.inl (hF (by decide))
    | with_reducible exact Or.inr rfl
    | with_reducible rfl
    | simp only [keeps_lit]
    | (with_reducible refine keeps_mk ?_ rfl rfl rfl ?_ ?_ ?_ ?_ ?_ ?_ ?_ ?_ ?_ ?_ ?_ ?_ ?_ ?_ ?_ ?_ ?_ ?_ ?_ ?_ ?_)

theorem keeps_siDemand (s : State) (a1) (hF : [.regs] ⊆ F) (hs : Keeps F z s) :
    Keeps F z (State.siDemand s a1) := by
  unfold State.siDemand
  repeat' first
    | with_reducible assumption
    | with_reducible apply keeps_put

theorem keeps_siCycle (s : State) (a1) (hF : [.regs, .isl] ⊆ F) (hs : Keeps F z s) :
    Keeps F z (State.siCycle s a1) := by
  unfold State.siCycle
  repeat' first
    | with_reducible assumption
    | with_reducible apply keeps_wr
    | with_reducible apply keeps_siDemand
    | with_reducible apply keeps_when
    | with_reducible apply keeps_put
    | exact List.Subset.trans (by decide) hF
    | exact Or.inl (hF (by decide))
    | with_reducible exact Or.inr rfl
    | with_reducible rfl
    | simp only [keeps_lit]
    | (with_reducible refine keeps_mk ?_ rfl rfl rfl ?_ ?_ ?_ ?_ ?_ ?_ ?_ ?_ ?_ ?_ ?_ ?_ ?_ ?_ ?_ ?_ ?_ ?_ ?_ ?_ ?_)
    | exact Or.inr rfl
    | rfl
    | with_reducible apply keeps_ite
    | (intro _)

theorem keeps_noteAgreement (s : State) (hF : [.isl] ⊆ F) (hs : Keeps F z s) :
    Keeps F z (State.noteAgreement s) := by
  unfold State.noteAgreement
  repeat' first
    | with_reducible assumption
    | with_reducible apply keeps_forN
    | exact List.Subset.trans (by decide) hF
    | exact Or.inl (hF (by decide))
    | with_reducible exact Or.inr rfl
    | with_reducible rfl
    | simp only [keeps_lit]
    | (with_reducible refine keeps_mk ?_ rfl rfl rfl ?_ ?_ ?_ ?_ ?_ ?_ ?_ ?_ ?_ ?_ ?_ ?_ ?_ ?_ ?_ ?_ ?_ ?_ ?_ ?_ ?_)
    | exact Or.inr rfl
    | rfl
    | with_reducible apply keeps_ite
    | (intro _)

theorem keeps_showSources (s : State) (hF : [.regs] ⊆ F) (hs : Keeps F z s) :
    Keeps F z (State.showSources s) := by
  unfold State.showSources
  repeat' first
    | with_reducible assumption
    | with_reducible apply keeps_wr
    | with_reducible apply keeps_put

theorem keeps_drivePath (s : State) (hF : [.sent, .sys] ⊆ F) (hs : Keeps F z s) :
    Keeps F z (State.drivePath s) := by
  unfold State.drivePath
  repeat' first
    | with_reducible assumption
    | with_reducible apply keeps_when
    | with_reducible apply keeps_sendBlockSets
    | exact List.Subset.trans (by decide) hF
    | exact Or.inl (hF (by decide))
    | with_reducible exact Or.inr rfl
    | with_reducible rfl
    | simp only [keeps_lit]
    | (with_reducible refine keeps_mk ?_ rfl rfl rfl ?_ ?_ ?_ ?_ ?_ ?_ ?_ ?_ ?_ ?_ ?_ ?_ ?_ ?_ ?_ ?_ ?_ ?_ ?_ ?_ ?_)
    | exact Or.inr rfl
    | rfl
    | with_reducible apply keeps_ite
    | (intro _)

theorem keeps_setTest (s : State) (a1) (a2) (hF : [.isl] ⊆ F) (hs : Keeps F z s) :
    Keeps F z (State.setTest s a1 a2) := by
  unfold State.setTest
  repeat' first
    | with_reducible assumption
    | exact List.Subset.trans (by decide) hF
    | exact Or.inl (hF (by decide))
    | with_reducible exact Or.inr rfl
    | with_reducible rfl
    | simp only [keeps_lit]
    | (with_reducible refine keeps_mk ?_ rfl rfl rfl ?_ ?_ ?_ ?_ ?_ ?_ ?_ ?_ ?_ ?_ ?_ ?_ ?_ ?_ ?_ ?_ ?_ ?_ ?_ ?_ ?_)

theorem keeps_driveSo (s : State) (a1) (hF : [.regs, .isl] ⊆ F) (hs : Keeps F z s) :
    Keeps F z (State.driveSo s a1) := by
  unfold State.driveSo
  repeat' first
    | with_reducible assumption
    | with_reducible apply keeps_put
    | with_reducible apply keeps_setTest
    | exact List.Subset.trans (by decide) hF
    | with_reducible apply keeps_ite
    | (intro _)

theorem keeps_causesAre (s : State) (a1) (hF : [.regs, .sent, .sys, .tie, .flt, .acq, .mem] ⊆ F) (hs : Keeps F z s) :
    Keeps F z (State.causesAre s a1) := by
  unfold State.causesAre
  repeat' first
    | with_reducible assumption
    | with_reducible apply keeps_forL
    | with_reducible apply keeps_causeAbsent
    | with_reducible apply keeps_raiseAll
    | exact List.Subset.trans (by decide) hF
    | with_reducible apply keeps_ite
    | (intro _)

theorem keeps_islandUpdate (s : State) (hF : [.regs, .sent, .sys, .tie, .isl, .flt, .acq, .mem] ⊆ F) (hs : Keeps F z s) :
    Keeps F z (State.islandUpdate s) := by
  unfold State.islandUpdate
  repeat' first
    | with_reducible assumption
    | with_reducible apply keeps_put
    | with_reducible apply keeps_showSources
    | with_reducible apply keeps_forN
    | with_reducible apply keeps_driveSo
    | with_reducible apply keeps_when
    | with_reducible apply keeps_drivePath
    | with_reducible apply keeps_faultBlock
    | with_reducible apply keeps_causesAre
    | exact List.Subset.trans (by decide) hF
    | exact Or.inl (hF (by decide))
    | with_reducible exact Or.inr rfl
    | with_reducible rfl
    | simp only [keeps_lit]
    | (with_reducible refine keeps_mk ?_ rfl rfl rfl ?_ ?_ ?_ ?_ ?_ ?_ ?_ ?_ ?_ ?_ ?_ ?_ ?_ ?_ ?_ ?_ ?_ ?_ ?_ ?_ ?_)
    | exact Or.inr rfl
    | rfl
    | with_reducible apply keeps_ite
    | (intro _)

theorem keeps_islandClear (s : State) (hF : [.regs, .isl] ⊆ F) (h : Keeps F z s) : Keeps F z s.islandClear := by
  refine ⟨⟨h.1.1, fun p hp => ?_⟩, fun c => ?_⟩
  · have := h.1.2 p hp
    cases p <;> first | exact this | exact absurd (hF (by decide)) hp
  · have := h.2 c
    exact ⟨mapWf_filter _ _ _ this.1, this.2⟩

theorem keeps_islandReset (s : State) (hF : [.regs, .sent, .sys, .tie, .isl, .flt, .acq, .mem] ⊆ F) (hs : Keeps F z s) :
    Keeps F z (State.islandReset s) := by
  unfold State.islandReset
  repeat' first
    | with_reducible assumption
    | with_reducible apply keeps_islandUpdate
    | with_reducible apply keeps_islandClear
    | exact List.Subset.trans (by decide) hF

theorem keeps_islandHalt (s : State) (a1) (hF : [.regs, .sent, .sys, .tie, .isl, .flt, .acq, .mem] ⊆ F) (hs : Keeps F z s) :
    Keeps F z (State.islandHalt s a1) := by
  unfold State.islandHalt
  repeat' first
    | with_reducible assumption
    | with_reducible apply keeps_put
    | with_reducible apply keeps_wr
    | with_reducible apply keeps_islandUpdate
    | exact List.Subset.trans (by decide) hF
    | exact Or.inl (hF (by decide))
    | with_reducible exact Or.inr rfl
    | with_reducible rfl
    | simp only [keeps_lit]
    | (with_reducible refine keeps_mk ?_ rfl rfl rfl ?_ ?_ ?_ ?_ ?_ ?_ ?_ ?_ ?_ ?_ ?_ ?_ ?_ ?_ ?_ ?_ ?_ ?_ ?_ ?_ ?_)
    | exact Or.inr rfl
    | rfl
    | with_reducible apply keeps_ite
    | (intro _)

theorem keeps_islandRun (s : State) (hF : [.regs, .isl] ⊆ F) (hs : Keeps F z s) :
    Keeps F z (State.islandRun s) := by
  unfold State.islandRun
  repeat' first
    | with_reducible assumption
    | with_reducible apply keeps_put
    | with_reducible apply keeps_wr
    | with_reducible apply keeps_forN
    | with_reducible apply keeps_setConn
    | with_reducible apply keeps_when
    | exact List.Subset.trans (by decide) hF
    | exact Or.inl (hF (by decide))
    | with_reducible exact Or.inr rfl
    | with_reducible rfl
    | simp only [keeps_lit]
    | (with_reducible refine keeps_mk ?_ rfl rfl rfl ?_ ?_ ?_ ?_ ?_ ?_ ?_ ?_ ?_ ?_ ?_ ?_ ?_ ?_ ?_ ?_ ?_ ?_ ?_ ?_ ?_)
    | exact Or.inr rfl
    | rfl
    | with_reducible apply keeps_ite
    | (intro _)

theorem keeps_siReset (s : State) (a1) (a2) (hF : [.regs] ⊆ F) (hs : Keeps F z s) :
    Keeps F z (State.siReset s a1 a2) := by
  unfold State.siReset
  repeat' first
    | with_reducible assumption
    | with_reducible apply keeps_when
    | with_reducible apply keeps_put
    | exact List.Subset.trans (by decide) hF
    | with_reducible apply keeps_ite
    | (intro _)

theorem keeps_validReset (s : State) (a1) (hF : [.regs, .sent, .sys, .tie, .isl, .flt, .acq, .mem] ⊆ F) (hs : Keeps F z s) :
    Keeps F z (State.validReset s a1) := by
  unfold State.validReset
  repeat' first
    | with_reducible assumption
    | with_reducible apply keeps_inc
    | with_reducible apply keeps_forN
    | with_reducible apply keeps_siReset
    | with_reducible apply keeps_when
    | with_reducible apply keeps_putBit
    | with_reducible apply keeps_put
    | with_reducible apply keeps_islandUpdate
    | exact List.Subset.trans (by decide) hF
    | with_reducible apply keeps_ite
    | (intro _)

theorem keeps_setAgree (s : State) (a1) (hF : [.isl] ⊆ F) (hs : Keeps F z s) :
    Keeps F z (State.setAgree s a1) := by
  unfold State.setAgree
  repeat' first
    | with_reducible assumption
    | exact List.Subset.trans (by decide) hF
    | exact Or.inl (hF (by decide))
    | with_reducible exact Or.inr rfl
    | with_reducible rfl
    | simp only [keeps_lit]
    | (with_reducible refine keeps_mk ?_ rfl rfl rfl ?_ ?_ ?_ ?_ ?_ ?_ ?_ ?_ ?_ ?_ ?_ ?_ ?_ ?_ ?_ ?_ ?_ ?_ ?_ ?_ ?_)

theorem keeps_failBrakeTest (s : State) (hF : [.regs, .isl] ⊆ F) (hs : Keeps F z s) :
    Keeps F z (State.failBrakeTest s) := by
  unfold State.failBrakeTest
  repeat' first
    | with_reducible assumption
    | with_reducible apply keeps_put
    | exact List.Subset.trans (by decide) hF
    | exact Or.inl (hF (by decide))
    | with_reducible exact Or.inr rfl
    | with_reducible rfl
    | simp only [keeps_lit]
    | (with_reducible refine keeps_mk ?_ rfl rfl rfl ?_ ?_ ?_ ?_ ?_ ?_ ?_ ?_ ?_ ?_ ?_ ?_ ?_ ?_ ?_ ?_ ?_ ?_ ?_ ?_ ?_)

theorem keeps_startBrakeTest (s : State) (hF : [.isl] ⊆ F) (hs : Keeps F z s) :
    Keeps F z (State.startBrakeTest s) := by
  unfold State.startBrakeTest
  repeat' first
    | with_reducible assumption
    | exact List.Subset.trans (by decide) hF
    | exact Or.inl (hF (by decide))
    | with_reducible exact Or.inr rfl
    | with_reducible rfl
    | simp only [keeps_lit]
    | (with_reducible refine keeps_mk ?_ rfl rfl rfl ?_ ?_ ?_ ?_ ?_ ?_ ?_ ?_ ?_ ?_ ?_ ?_ ?_ ?_ ?_ ?_ ?_ ?_ ?_ ?_ ?_)
    | exact Or.inr rfl
    | rfl
    | with_reducible apply keeps_ite
    | (intro _)

theorem keeps_acqStart (s : State) (a1) (hF : [.regs, .flt, .acq] ⊆ F) (hs : Keeps F z s) :
    Keeps F z (State.acqStart s a1) := by
  unfold State.acqStart
  repeat' first
    | with_reducible assumption
    | with_reducible apply keeps_wr
    | with_reducible apply keeps_put
    | with_reducible apply keeps_setAqs
    | exact List.Subset.trans (by decide) hF
    | exact Or.inl (hF (by decide))
    | with_reducible exact Or.inr rfl
    | with_reducible rfl
    | simp only [keeps_lit]
    | (with_reducible refine keeps_mk ?_ rfl rfl rfl ?_ ?_ ?_ ?_ ?_ ?_ ?_ ?_ ?_ ?_ ?_ ?_ ?_ ?_ ?_ ?_ ?_ ?_ ?_ ?_ ?_)

theorem keeps_acqDown (s : State) (a1) (a2) (a3) (hF : [.sent] ⊆ F) (hs : Keeps F z s) :
    Keeps F z (State.acqDown s a1 a2 a3) := by
  unfold State.acqDown
  repeat' first
    | with_reducible assumption
    | with_reducible apply keeps_when
    | with_reducible apply keeps_forL
    | with_reducible apply keeps_sendMembers
    | exact List.Subset.trans (by decide) hF
    | with_reducible apply keeps_ite
    | (intro _)

theorem keeps_acqUp (s : State) (a1) (a2) (a3) (hF : [.sent] ⊆ F) (hs : Keeps F z s) :
    Keeps F z (State.acqUp s a1 a2 a3) := by
  unfold State.acqUp
  repeat' first
    | with_reducible assumption
    | with_reducible apply keeps_when
    | with_reducible apply keeps_sendLead
    | exact List.Subset.trans (by decide) hF
    | with_reducible apply keeps_ite
    | (intro _)
    | with_reducible apply keeps_foldl
    | with_reducible apply keeps_foldl_fst
    | with_reducible apply keeps_optmap

theorem keeps_acqArm (s : State) (a1) (hF : [.regs, .sent, .flt, .acq] ⊆ F) (hs : Keeps F z s) :
    Keeps F z (State.acqArm s a1).1 := by
  unfold State.acqArm
  repeat' first
    | with_reducible assumption
    | with_reducible apply keeps_wr
    | with_reducible apply keeps_acqDown
    | with_reducible apply keeps_acqStart
    | exact List.Subset.trans (by decide) hF
    | with_reducible apply keeps_ite
    | with_reducible apply keeps_ite_fst
    | (intro _)

theorem keeps_acqDisarm (s : State) (hF : [.regs, .sent, .acq, .mem] ⊆ F) (hs : Keeps F z s) :
    Keeps F z (State.acqDisarm s) := by
  unfold State.acqDisarm
  repeat' first
    | with_reducible assumption
    | with_reducible apply keeps_acqDown
    | with_reducible apply keeps_acqStop
    | exact List.Subset.trans (by decide) hF

theorem keeps_showMarks (s : State) (hF : [.regs] ⊆ F) (hs : Keeps F z s) :
    Keeps F z (State.showMarks s) := by
  unfold State.showMarks
  repeat' first
    | with_reducible assumption
    | with_reducible apply keeps_wr
    | with_reducible apply keeps_put

theorem keeps_addMark (s : State) (a1) (a2) (a3) (hF : [.regs, .acq] ⊆ F) (hs : Keeps F z s) :
    Keeps F z (State.addMark s a1 a2 a3) := by
  unfold State.addMark
  repeat' first
    | with_reducible assumption
    | with_reducible apply keeps_inc
    | with_reducible apply keeps_showMarks
    | exact List.Subset.trans (by decide) hF
    | exact Or.inl (hF (by decide))
    | with_reducible exact Or.inr rfl
    | with_reducible rfl
    | simp only [keeps_lit]
    | (with_reducible refine keeps_mk ?_ rfl rfl rfl ?_ ?_ ?_ ?_ ?_ ?_ ?_ ?_ ?_ ?_ ?_ ?_ ?_ ?_ ?_ ?_ ?_ ?_ ?_ ?_ ?_)
    | exact Or.inr rfl
    | rfl
    | with_reducible apply keeps_ite
    | (intro _)

theorem keeps_markNext (s : State) (hF : [.regs, .acq] ⊆ F) (hs : Keeps F z s) :
    Keeps F z (State.markNext s) := by
  unfold State.markNext
  repeat' first
    | with_reducible assumption
    | with_reducible apply keeps_showMarks
    | exact List.Subset.trans (by decide) hF
    | exact Or.inl (hF (by decide))
    | with_reducible exact Or.inr rfl
    | with_reducible rfl
    | simp only [keeps_lit]
    | (with_reducible refine keeps_mk ?_ rfl rfl rfl ?_ ?_ ?_ ?_ ?_ ?_ ?_ ?_ ?_ ?_ ?_ ?_ ?_ ?_ ?_ ?_ ?_ ?_ ?_ ?_ ?_)

theorem keeps_acqForce (s : State) (hF : [.regs, .acq] ⊆ F) (hs : Keeps F z s) :
    Keeps F z (State.acqForce s) := by
  unfold State.acqForce
  repeat' first
    | with_reducible assumption
    | with_reducible apply keeps_addMark
    | exact List.Subset.trans (by decide) hF
    | exact Or.inl (hF (by decide))
    | with_reducible exact Or.inr rfl
    | with_reducible rfl
    | simp only [keeps_lit]
    | (with_reducible refine keeps_mk ?_ rfl rfl rfl ?_ ?_ ?_ ?_ ?_ ?_ ?_ ?_ ?_ ?_ ?_ ?_ ?_ ?_ ?_ ?_ ?_ ?_ ?_ ?_ ?_)
    | exact Or.inr rfl
    | rfl
    | with_reducible apply keeps_ite
    | (intro _)

theorem keeps_acqClr (s : State) (hF : [.regs] ⊆ F) (hs : Keeps F z s) :
    Keeps F z (State.acqClr s) := by
  unfold State.acqClr
  repeat' first
    | with_reducible assumption
    | with_reducible apply keeps_wr
    | with_reducible apply keeps_setWord

theorem keeps_sqEnter (s : State) (a1) (hF : [.regs, .acq] ⊆ F) (hs : Keeps F z s) :
    Keeps F z (State.sqEnter s a1) := by
  unfold State.sqEnter
  repeat' first
    | with_reducible assumption
    | with_reducible apply keeps_wr
    | exact List.Subset.trans (by decide) hF
    | exact Or.inl (hF (by decide))
    | with_reducible exact Or.inr rfl
    | with_reducible rfl
    | simp only [keeps_lit]
    | (with_reducible refine keeps_mk ?_ rfl rfl rfl ?_ ?_ ?_ ?_ ?_ ?_ ?_ ?_ ?_ ?_ ?_ ?_ ?_ ?_ ?_ ?_ ?_ ?_ ?_ ?_ ?_)

theorem keeps_sqMatch (s : State) (hF : [.regs, .acq] ⊆ F) (hs : Keeps F z s) :
    Keeps F z (State.sqMatch s).1 := by
  unfold State.sqMatch
  repeat' first
    | with_reducible assumption
    | with_reducible apply keeps_sqEnter

theorem keeps_sqTimeout (s : State) (hF : [.regs, .acq] ⊆ F) (hs : Keeps F z s) :
    Keeps F z (State.sqTimeout s) := by
  unfold State.sqTimeout
  repeat' first
    | with_reducible assumption
    | with_reducible apply keeps_sqEnter

theorem keeps_sequencer (s : State) (hF : [.regs, .acq] ⊆ F) (hs : Keeps F z s) :
    Keeps F z (State.sequencer s).1 := by
  unfold State.sequencer
  repeat' first
    | with_reducible assumption
    | with_reducible apply keeps_sqMatch
    | with_reducible refine keeps_fst (keeps_sqMatch _ ?_ ?_) (by assumption)
    | with_reducible apply keeps_when
    | with_reducible apply keeps_sqTimeout
    | exact List.Subset.trans (by decide) hF
    | exact Or.inl (hF (by decide))
    | with_reducible exact Or.inr rfl
    | with_reducible rfl
    | simp only [keeps_lit]
    | (with_reducible refine keeps_mk ?_ rfl rfl rfl ?_ ?_ ?_ ?_ ?_ ?_ ?_ ?_ ?_ ?_ ?_ ?_ ?_ ?_ ?_ ?_ ?_ ?_ ?_ ?_ ?_)
    | exact Or.inr rfl
    | rfl
    | with_reducible apply keeps_ite
    | with_reducible apply keeps_ite_fst
    | (intro _)

theorem keeps_writeRow (s : State) (a1) (a2) (hF : [.acq, .mem] ⊆ F) (hs : Keeps F z s) :
    Keeps F z (State.writeRow s a1 a2) := by
  unfold State.writeRow
  repeat' first
    | with_reducible assumption
    | with_reducible apply keeps_storeBytes
    | exact List.Subset.trans (by decide) hF
    | exact Or.inl (hF (by decide))
    | with_reducible exact Or.inr rfl
    | with_reducible rfl
    | simp only [keeps_lit]
    | (with_reducible refine keeps_mk ?_ rfl rfl rfl ?_ ?_ ?_ ?_ ?_ ?_ ?_ ?_ ?_ ?_ ?_ ?_ ?_ ?_ ?_ ?_ ?_ ?_ ?_ ?_ ?_)

theorem keeps_beginRecord (s : State) (a1) (a2) (a3) (hF : [.regs, .acq, .mem] ⊆ F) (hs : Keeps F z s) :
    Keeps F z (State.beginRecord s a1 a2 a3) := by
  unfold State.beginRecord
  repeat' first
    | with_reducible assumption
    | with_reducible apply keeps_setAqs
    | with_reducible apply keeps_when
    | with_reducible apply keeps_storeByte
    | exact List.Subset.trans (by decide) hF
    | exact Or.inl (hF (by decide))
    | with_reducible exact Or.inr rfl
    | with_reducible rfl
    | simp only [keeps_lit]
    | (with_reducible refine keeps_mk ?_ rfl rfl rfl ?_ ?_ ?_ ?_ ?_ ?_ ?_ ?_ ?_ ?_ ?_ ?_ ?_ ?_ ?_ ?_ ?_ ?_ ?_ ?_ ?_)
    | exact Or.inr rfl
    | rfl
    | with_reducible apply keeps_ite
    | (intro _)

theorem keeps_judge' (s : State) (a1) (a2) (hF : [.regs, .acq, .mem] ⊆ F) (hs : Keeps F z s) :
    Keeps F z (State.judge' s a1 a2).1 := by
  unfold State.judge'
  repeat' first
    | with_reducible assumption
    | with_reducible apply keeps_beginRecord
    | with_reducible apply keeps_inc
    | exact List.Subset.trans (by decide) hF
    | exact Or.inl (hF (by decide))
    | with_reducible exact Or.inr rfl
    | with_reducible rfl
    | simp only [keeps_lit]
    | (with_reducible refine keeps_mk ?_ rfl rfl rfl ?_ ?_ ?_ ?_ ?_ ?_ ?_ ?_ ?_ ?_ ?_ ?_ ?_ ?_ ?_ ?_ ?_ ?_ ?_ ?_ ?_)
    | exact Or.inr rfl
    | rfl
    | with_reducible apply keeps_ite
    | with_reducible apply keeps_ite_fst
    | (intro _)

theorem keeps_acqReady (s : State) (hF : [.regs, .acq] ⊆ F) (hs : Keeps F z s) :
    Keeps F z (State.acqReady s) := by
  unfold State.acqReady
  repeat' first
    | with_reducible assumption
    | with_reducible apply keeps_setAqs
    | with_reducible apply keeps_when
    | with_reducible apply keeps_wr
    | exact List.Subset.trans (by decide) hF
    | exact Or.inl (hF (by decide))
    | with_reducible exact Or.inr rfl
    | with_reducible rfl
    | simp only [keeps_lit]
    | (with_reducible refine keeps_mk ?_ rfl rfl rfl ?_ ?_ ?_ ?_ ?_ ?_ ?_ ?_ ?_ ?_ ?_ ?_ ?_ ?_ ?_ ?_ ?_ ?_ ?_ ?_ ?_)
    | exact Or.inr rfl
    | rfl
    | with_reducible apply keeps_ite
    | (intro _)

theorem keeps_acqClose (s : State) (hF : [.regs, .acq] ⊆ F) (hs : Keeps F z s) :
    Keeps F z (State.acqClose s) := by
  unfold State.acqClose
  repeat' first
    | with_reducible assumption
    | with_reducible apply keeps_setAqs
    | exact List.Subset.trans (by decide) hF
    | exact Or.inl (hF (by decide))
    | with_reducible exact Or.inr rfl
    | with_reducible rfl
    | simp only [keeps_lit]
    | (with_reducible refine keeps_mk ?_ rfl rfl rfl ?_ ?_ ?_ ?_ ?_ ?_ ?_ ?_ ?_ ?_ ?_ ?_ ?_ ?_ ?_ ?_ ?_ ?_ ?_ ?_ ?_)
    | exact Or.inr rfl
    | rfl
    | with_reducible apply keeps_ite
    | (intro _)
    | with_reducible apply keeps_foldl
    | with_reducible apply keeps_foldl_fst
    | with_reducible apply keeps_optmap
    | split

theorem keeps_acqRemember (s : State) (hF : [.flt, .acq] ⊆ F) (hs : Keeps F z s) :
    Keeps F z (State.acqRemember s) := by
  unfold State.acqRemember
  repeat' first
    | with_reducible assumption
    | exact List.Subset.trans (by decide) hF
    | exact Or.inl (hF (by decide))
    | with_reducible exact Or.inr rfl
    | with_reducible rfl
    | simp only [keeps_lit]
    | (with_reducible refine keeps_mk ?_ rfl rfl rfl ?_ ?_ ?_ ?_ ?_ ?_ ?_ ?_ ?_ ?_ ?_ ?_ ?_ ?_ ?_ ?_ ?_ ?_ ?_ ?_ ?_)

theorem keeps_acqEvaluate (s : State) (hF : [.regs, .sent, .flt, .acq, .mem] ⊆ F) (hs : Keeps F z s) :
    Keeps F z (State.acqEvaluate s) := by
  unfold State.acqEvaluate
  repeat' first
    | with_reducible assumption
    | with_reducible apply keeps_acqReady
    | with_reducible apply keeps_sequencer
    | with_reducible refine keeps_fst (keeps_sequencer _ ?_ ?_) (by assumption)
    | with_reducible apply keeps_forL
    | with_reducible apply keeps_judge'
    | with_reducible refine keeps_fst (keeps_judge' _ _ _ ?_ ?_) (by assumption)
    | with_reducible apply keeps_when
    | with_reducible apply keeps_addMark
    | with_reducible apply keeps_acqDown
    | with_reducible apply keeps_acqUp
    | with_reducible apply keeps_acqRemember
    | with_reducible apply keeps_acqClose
    | with_reducible apply keeps_copyRows
    | with_reducible apply keeps_writeRow
    | exact List.Subset.trans (by decide) hF
    | exact Or.inl (hF (by decide))
    | with_reducible exact Or.inr rfl
    | with_reducible rfl
    | simp only [keeps_lit]
    | (with_reducible refine keeps_mk ?_ rfl rfl rfl ?_ ?_ ?_ ?_ ?_ ?_ ?_ ?_ ?_ ?_ ?_ ?_ ?_ ?_ ?_ ?_ ?_ ?_ ?_ ?_ ?_)
    | exact Or.inr rfl
    | rfl
    | with_reducible apply keeps_ite
    | (intro _)
    | with_reducible apply keeps_foldl
    | with_reducible apply keeps_foldl_fst
    | with_reducible apply keeps_optmap
    | split

theorem keeps_leaveClose (s : State) (hF : [.regs, .sent, .acq] ⊆ F) (hs : Keeps F z s) :
    Keeps F z (State.leaveClose s) := by
  unfold State.leaveClose
  repeat' first
    | with_reducible assumption
    | with_reducible apply keeps_setAqs
    | with_reducible apply keeps_acqUp
    | with_reducible apply keeps_acqReady
    | exact List.Subset.trans (by decide) hF
    | exact Or.inl (hF (by decide))
    | with_reducible exact Or.inr rfl
    | with_reducible rfl
    | simp only [keeps_lit]
    | (with_reducible refine keeps_mk ?_ rfl rfl rfl ?_ ?_ ?_ ?_ ?_ ?_ ?_ ?_ ?_ ?_ ?_ ?_ ?_ ?_ ?_ ?_ ?_ ?_ ?_ ?_ ?_)
    | exact Or.inr rfl
    | rfl
    | with_reducible apply keeps_ite
    | (intro _)

theorem keeps_recordClose (s : State) (a1) (hF : [.regs, .sent, .acq, .mem] ⊆ F) (hs : Keeps F z s) :
    Keeps F z (State.recordClose s a1) := by
  unfold State.recordClose
  repeat' first
    | with_reducible assumption
    | with_reducible apply keeps_finishRecord
    | with_reducible apply keeps_leaveClose
    | exact List.Subset.trans (by decide) hF
    | exact Or.inl (hF (by decide))
    | with_reducible exact Or.inr rfl
    | with_reducible rfl
    | simp only [keeps_lit]
    | (with_reducible refine keeps_mk ?_ rfl rfl rfl ?_ ?_ ?_ ?_ ?_ ?_ ?_ ?_ ?_ ?_ ?_ ?_ ?_ ?_ ?_ ?_ ?_ ?_ ?_ ?_ ?_)
    | exact Or.inr rfl
    | rfl
    | with_reducible apply keeps_ite
    | (intro _)
    | with_reducible apply keeps_foldl
    | with_reducible apply keeps_foldl_fst
    | with_reducible apply keeps_optmap
    | split

theorem keeps_acqFrame (s : State) (a1) (a2) (a3) (a4) (hF : [.regs, .acd] ⊆ F) (hs : Keeps F z s) (ha4 : ∀ x0 x1 x2 x3 x4, Keeps F z x4 → Keeps F z (a4 x0 x1 x2 x3 x4)) :
    Keeps F z (State.acqFrame s a1 a2 a3 a4) := by
  unfold State.acqFrame
  repeat' first
    | with_reducible assumption
    | with_reducible apply ha4
    | with_reducible apply keeps_accordIn
    | with_reducible apply keeps_when
    | exact List.Subset.trans (by decide) hF
    | with_reducible apply keeps_ite
    | (intro _)

theorem keeps_putRws (s : State) (a1) (a2) (hF : [.regs] ⊆ F) (hs : Keeps F z s) :
    Keeps F z (State.putRws s a1 a2) := by
  unfold State.putRws
  repeat' first
    | with_reducible assumption
    | with_reducible apply keeps_setWord
    | exact List.Subset.trans (by decide) hF
    | with_reducible apply keeps_ite
    | (intro _)
    | with_reducible apply keeps_foldl
    | with_reducible apply keeps_foldl_fst
    | with_reducible apply keeps_optmap
    | split

theorem keeps_applySet (s : State) (a1) (hF : [.regs] ⊆ F) (hs : Keeps F z s) :
    Keeps F z (State.applySet s a1) := by
  unfold State.applySet
  repeat' first
    | with_reducible assumption
    | with_reducible apply keeps_forL
    | with_reducible apply keeps_putRws
    | exact List.Subset.trans (by decide) hF
    | with_reducible apply keeps_ite
    | (intro _)

theorem keeps_takeSet (s : State) (a1) (hF : [.regs, .isl] ⊆ F) (hs : Keeps F z s) :
    Keeps F z (State.takeSet s a1) := by
  unfold State.takeSet
  repeat' first
    | with_reducible assumption
    | with_reducible apply keeps_applySet
    | with_reducible apply keeps_put
    | with_reducible apply keeps_wr
    | with_reducible apply keeps_forN
    | with_reducible apply keeps_putBit
    | with_reducible apply keeps_setConn
    | exact List.Subset.trans (by decide) hF
    | with_reducible apply keeps_ite
    | (intro _)

theorem keeps_loadSet (s : State) (a1) (hF : [.regs, .sent, .sys, .tie, .isl, .flt, .acq, .mem] ⊆ F) (hs : Keeps F z s) :
    Keeps F z (State.loadSet s a1) := by
  unfold State.loadSet
  repeat' first
    | with_reducible assumption
    | with_reducible apply keeps_islandUpdate
    | with_reducible apply keeps_islandRun
    | with_reducible apply keeps_takeSet
    | exact List.Subset.trans (by decide) hF

theorem keeps_applyCommit (s : State) (hF : [.regs, .isl] ⊆ F) (hs : Keeps F z s) :
    Keeps F z (State.applyCommit s) := by
  unfold State.applyCommit
  repeat' first
    | with_reducible assumption
    | with_reducible apply keeps_put
    | with_reducible apply keeps_takeSet
    | with_reducible apply keeps_islandRun
    | exact List.Subset.trans (by decide) hF
    | exact Or.inl (hF (by decide))
    | with_reducible exact Or.inr rfl
    | with_reducible rfl
    | simp only [keeps_lit]
    | (with_reducible refine keeps_mk ?_ rfl rfl rfl ?_ ?_ ?_ ?_ ?_ ?_ ?_ ?_ ?_ ?_ ?_ ?_ ?_ ?_ ?_ ?_ ?_ ?_ ?_ ?_ ?_)
    | exact Or.inr rfl
    | rfl
    | with_reducible apply keeps_ite
    | (intro _)
    | with_reducible apply keeps_foldl
    | with_reducible apply keeps_foldl_fst
    | with_reducible apply keeps_optmap
    | split

theorem keeps_closeTransaction (s : State) (hF : [.regs, .isl] ⊆ F) (hs : Keeps F z s) :
    Keeps F z (State.closeTransaction s) := by
  unfold State.closeTransaction
  repeat' first
    | with_reducible assumption
    | with_reducible apply keeps_wr
    | with_reducible apply keeps_put
    | exact List.Subset.trans (by decide) hF
    | exact Or.inl (hF (by decide))
    | with_reducible exact Or.inr rfl
    | with_reducible rfl
    | simp only [keeps_lit]
    | (with_reducible refine keeps_mk ?_ rfl rfl rfl ?_ ?_ ?_ ?_ ?_ ?_ ?_ ?_ ?_ ?_ ?_ ?_ ?_ ?_ ?_ ?_ ?_ ?_ ?_ ?_ ?_)

theorem keeps_answerParam (s : State) (a1) (a2) (a3) (a4) (hF : [.regs, .isl] ⊆ F) (hs : Keeps F z s) :
    Keeps F z (State.answerParam s a1 a2 a3 a4) := by
  unfold State.answerParam
  repeat' first
    | with_reducible assumption
    | with_reducible apply keeps_wr
    | with_reducible apply keeps_setConn
    | exact List.Subset.trans (by decide) hF

theorem keeps_paramStageOp (s : State) (a1) (a2) (hF : [.regs, .isl] ⊆ F) (hs : Keeps F z s) :
    Keeps F z (State.paramStageOp s a1 a2) := by
  unfold State.paramStageOp
  repeat' first
    | with_reducible assumption
    | with_reducible apply keeps_answerParam
    | with_reducible apply keeps_wr
    | with_reducible apply keeps_put
    | exact List.Subset.trans (by decide) hF
    | exact Or.inl (hF (by decide))
    | with_reducible exact Or.inr rfl
    | with_reducible rfl
    | simp only [keeps_lit]
    | (with_reducible refine keeps_mk ?_ rfl rfl rfl ?_ ?_ ?_ ?_ ?_ ?_ ?_ ?_ ?_ ?_ ?_ ?_ ?_ ?_ ?_ ?_ ?_ ?_ ?_ ?_ ?_)
    | exact Or.inr rfl
    | rfl
    | with_reducible apply keeps_ite
    | (intro _)

theorem keeps_paramCommitOp (s : State) (a1) (a2) (hF : [.regs, .isl] ⊆ F) (hs : Keeps F z s) :
    Keeps F z (State.paramCommitOp s a1 a2) := by
  unfold State.paramCommitOp
  repeat' first
    | with_reducible assumption
    | with_reducible apply keeps_answerParam
    | with_reducible apply keeps_applySet
    | with_reducible apply keeps_closeTransaction
    | exact List.Subset.trans (by decide) hF
    | exact Or.inl (hF (by decide))
    | with_reducible exact Or.inr rfl
    | with_reducible rfl
    | simp only [keeps_lit]
    | (with_reducible refine keeps_mk ?_ rfl rfl rfl ?_ ?_ ?_ ?_ ?_ ?_ ?_ ?_ ?_ ?_ ?_ ?_ ?_ ?_ ?_ ?_ ?_ ?_ ?_ ?_ ?_)
    | exact Or.inr rfl
    | rfl
    | with_reducible apply keeps_ite
    | (intro _)

theorem keeps_paramAbortOp (s : State) (a1) (a2) (hF : [.regs, .isl] ⊆ F) (hs : Keeps F z s) :
    Keeps F z (State.paramAbortOp s a1 a2) := by
  unfold State.paramAbortOp
  repeat' first
    | with_reducible assumption
    | with_reducible apply keeps_answerParam
    | with_reducible apply keeps_closeTransaction
    | exact List.Subset.trans (by decide) hF
    | with_reducible apply keeps_ite
    | (intro _)

theorem keeps_paramReadOp (s : State) (a1) (a2) (hF : [.regs, .isl] ⊆ F) (hs : Keeps F z s) :
    Keeps F z (State.paramReadOp s a1 a2) := by
  unfold State.paramReadOp
  repeat' first
    | with_reducible assumption
    | with_reducible apply keeps_answerParam
    | exact List.Subset.trans (by decide) hF
    | with_reducible apply keeps_ite
    | (intro _)
    | with_reducible apply keeps_foldl
    | with_reducible apply keeps_foldl_fst
    | with_reducible apply keeps_optmap
    | split
    | (dsimp only; split)

theorem keeps_paramRequest (s : State) (a1) (a2) (hF : [.regs, .isl] ⊆ F) (hs : Keeps F z s) :
    Keeps F z (State.paramRequest s a1 a2) := by
  unfold State.paramRequest
  repeat' first
    | with_reducible assumption
    | with_reducible apply keeps_paramStageOp
    | with_reducible apply keeps_paramCommitOp
    | with_reducible apply keeps_paramAbortOp
    | with_reducible apply keeps_paramReadOp
    | exact List.Subset.trans (by decide) hF
    | with_reducible apply keeps_ite
    | (intro _)
    | with_reducible apply keeps_foldl
    | with_reducible apply keeps_foldl_fst
    | with_reducible apply keeps_optmap
    | split

theorem keeps_connLost (s : State) (a1) (hF : [.regs, .isl] ⊆ F) (hs : Keeps F z s) :
    Keeps F z (State.connLost s a1) := by
  unfold State.connLost
  repeat' first
    | with_reducible assumption
    | with_reducible apply keeps_setConn
    | with_reducible apply keeps_putBit
    | with_reducible apply keeps_wr
    | exact List.Subset.trans (by decide) hF

theorem keeps_connReset (s : State) (a1) (a2) (hF : [.regs, .sent, .sys, .tie, .isl, .flt, .acq, .mem] ⊆ F) (hs : Keeps F z s) :
    Keeps F z (State.connReset s a1 a2) := by
  unfold State.connReset
  repeat' first
    | with_reducible assumption
    | with_reducible apply keeps_setAgree
    | with_reducible apply keeps_setConn
    | with_reducible apply keeps_put
    | with_reducible apply keeps_validReset
    | exact List.Subset.trans (by decide) hF
    | with_reducible apply keeps_ite
    | (intro _)
    | with_reducible apply keeps_foldl
    | with_reducible apply keeps_foldl_fst
    | with_reducible apply keeps_optmap
    | split
    | (dsimp only; split)

theorem keeps_acceptPair (s : State) (a1) (a2) (hF : [.regs, .sent, .sys, .tie, .isl, .flt, .acq, .mem] ⊆ F) (hs : Keeps F z s) :
    Keeps F z (State.acceptPair s a1 a2) := by
  unfold State.acceptPair
  repeat' first
    | with_reducible assumption
    | with_reducible apply keeps_wr
    | with_reducible apply keeps_setConn
    | with_reducible apply keeps_forN
    | with_reducible apply keeps_when
    | with_reducible apply keeps_startBrakeTest
    | with_reducible apply keeps_connReset
    | with_reducible apply keeps_paramRequest
    | exact List.Subset.trans (by decide) hF
    | with_reducible apply keeps_ite
    | (intro _)
    | with_reducible apply keeps_foldl
    | with_reducible apply keeps_foldl_fst
    | with_reducible apply keeps_optmap
    | split

theorem keeps_takeCopy (s : State) (a1) (a2) (a3) (hF : [.regs, .sent, .sys, .tie, .isl, .flt, .acq, .mem] ⊆ F) (hs : Keeps F z s) :
    Keeps F z (State.takeCopy s a1 a2 a3) := by
  unfold State.takeCopy
  repeat' first
    | with_reducible assumption
    | with_reducible apply keeps_setConn
    | with_reducible apply keeps_inc
    | with_reducible apply keeps_acceptPair
    | with_reducible apply keeps_connLost
    | exact List.Subset.trans (by decide) hF
    | with_reducible apply keeps_ite
    | (intro _)
    | with_reducible apply keeps_foldl
    | with_reducible apply keeps_foldl_fst
    | with_reducible apply keeps_optmap
    | split

theorem keeps_telegramIn (s : State) (a1) (a2) (hF : [.regs, .sent, .sys, .tie, .isl, .flt, .acq, .mem] ⊆ F) (hs : Keeps F z s) :
    Keeps F z (State.telegramIn s a1 a2) := by
  unfold State.telegramIn
  repeat' first
    | with_reducible assumption
    | with_reducible apply keeps_islandUpdate
    | with_reducible apply keeps_takeCopy
    | with_reducible apply keeps_inc
    | exact List.Subset.trans (by decide) hF
    | with_reducible apply keeps_ite
    | (intro _)
    | with_reducible apply keeps_foldl
    | with_reducible apply keeps_foldl_fst
    | with_reducible apply keeps_optmap
    | split

theorem keeps_telegramOut (s : State) (a1) (hF : [.sent, .isl] ⊆ F) (hs : Keeps F z s) :
    Keeps F z (State.telegramOut s a1) := by
  unfold State.telegramOut
  repeat' first
    | with_reducible assumption
    | with_reducible apply keeps_setConn
    | with_reducible apply keeps_send
    | exact List.Subset.trans (by decide) hF
    | with_reducible apply keeps_ite
    | (intro _)

end Sys2Proof.Machine
end

