-- ==== Sys2Proof/Laws/KeepsPlatform.lean ====
section
/-! SUPPORT. What the memories, register reads, the scheduler and health keep, one lemma per operation. -/

namespace Sys2Proof.Machine

variable {F : List Part} {z : State}

theorem keeps_busFault (s : State) (a1) (a2) (a3) (hF : [.regs, .sent, .sys, .tie, .flt, .acq, .mem] ⊆ F) (hs : Keeps F z s) :
    Keeps F z (State.busFault s a1 a2 a3) := by
  unfold State.busFault
  repeat' first
    | with_reducible assumption
    | with_reducible apply keeps_raiseAt
    | with_reducible apply keeps_send
    | exact List.Subset.trans (by decide) hF

theorem keeps_sramError (s : State) (a1) (a2) (a3) (a4) (hF : [.regs, .sent, .sys, .tie, .flt, .acq, .mem] ⊆ F) (hs : Keeps F z s) :
    Keeps F z (State.sramError s a1 a2 a3 a4) := by
  unfold State.sramError
  repeat' first
    | with_reducible assumption
    | with_reducible apply keeps_wr
    | with_reducible apply keeps_inc
    | with_reducible apply keeps_raiseAt
    | with_reducible apply keeps_when
    | with_reducible apply keeps_send
    | exact List.Subset.trans (by decide) hF
    | exact Or.inl (hF (by decide))
    | with_reducible exact Or.inr rfl
    | with_reducible rfl
    | simp only [keeps_lit]
    | (with_reducible refine keeps_mk ?_ rfl rfl rfl ?_ ?_ ?_ ?_ ?_ ?_ ?_ ?_ ?_ ?_ ?_ ?_ ?_ ?_ ?_ ?_ ?_ ?_ ?_ ?_ ?_)
    | exact Or.inr rfl
    | rfl
    | with_reducible apply keeps_ite
    | (intro _)

theorem keeps_pwrWrite (s : State) (a1) (a2) (hF : [.regs] ⊆ F) (hs : Keeps F z s) :
    Keeps F z (State.pwrWrite s a1 a2).1 := by
  unfold State.pwrWrite
  repeat' first
    | with_reducible assumption
    | with_reducible apply keeps_put
    | with_reducible apply keeps_setWord
    | exact List.Subset.trans (by decide) hF
    | with_reducible apply keeps_ite
    | with_reducible apply keeps_ite_fst
    | (intro _)

theorem keeps_wipeBank (s : State) (b : Nat) (hF : [.mem] ⊆ F) (h : Keeps F z s) : Keeps F z (s.wipeBank b) :=
  h.step .mem (hF (by simp)) rfl (by intro p hp; cases p <;> first | rfl | exact absurd rfl hp)
    (fun c => ⟨c.1, c.2.1, mapWf_filter _ _ _ c.2.2⟩)

theorem keeps_bankDone (s : State) (a1) (hF : [.regs, .mem] ⊆ F) (hs : Keeps F z s) :
    Keeps F z (State.bankDone s a1) := by
  unfold State.bankDone
  repeat' first
    | with_reducible assumption
    | with_reducible apply keeps_when
    | with_reducible apply keeps_wr
    | with_reducible apply keeps_wipeBank
    | with_reducible apply keeps_putBit
    | exact List.Subset.trans (by decide) hF
    | with_reducible apply keeps_ite
    | (intro _)

theorem keeps_regionAt (s : State) (a1) (a2) (hF : [.regs, .mem] ⊆ F) (hs : Keeps F z s) :
    Keeps F z (State.regionAt s a1 a2) := by
  unfold State.regionAt
  repeat' first
    | with_reducible assumption
    | with_reducible apply keeps_wr
    | with_reducible apply keeps_inc
    | exact List.Subset.trans (by decide) hF
    | exact Or.inl (hF (by decide))
    | with_reducible exact Or.inr rfl
    | with_reducible rfl
    | simp only [keeps_lit]
    | (with_reducible refine keeps_mk ?_ rfl rfl rfl ?_ ?_ ?_ ?_ ?_ ?_ ?_ ?_ ?_ ?_ ?_ ?_ ?_ ?_ ?_ ?_ ?_ ?_ ?_ ?_ ?_)
    | exact Or.inr rfl
    | rfl
    | with_reducible apply keeps_ite
    | (intro _)

theorem keeps_startRegion (s : State) (hF : [.regs, .mem] ⊆ F) (h : Keeps F z s) : Keeps F z s.startRegion := by
  have hm : ∀ (u : State) (m : Mem), m.bytes = u.mem.bytes → Keeps F z u → Keeps F z { u with mem := m } := fun u m e h =>
    h.step .mem (hF (by simp)) rfl (by intro p hp; cases p <;> first | rfl | exact absurd rfl hp)
      (fun c => ⟨c.1, c.2.1, by show mapWf memDefault m.bytes = true; rw [e]; exact c.2.2⟩)
  have hi : ∀ f n, Keeps F z (s.inc f n) := fun f n => keeps_inc _ _ _ (List.Subset.trans (by decide) hF) h
  unfold State.startRegion
  refine keeps_ite (fun _ => h) fun _ => keeps_ite (fun _ => hm s _ rfl h) fun _ => keeps_ite (fun _ => hm (s.inc _) _ rfl (hi _ _)) fun _ => ?_
  dsimp only
  split
  · exact h
  · exact hm _ _ rfl (keeps_when _ _ (hi _ _) fun s h => keeps_regionAt _ _ _ (List.Subset.trans (by decide) hF) h)

theorem keeps_regionDone (s : State) (a1) (a2) (a3) (hF : [.regs, .sent, .sys, .tie, .flt, .acq, .mem] ⊆ F) (hs : Keeps F z s) :
    Keeps F z (State.regionDone s a1 a2 a3) := by
  unfold State.regionDone
  repeat' first
    | with_reducible assumption
    | with_reducible apply keeps_sramError
    | with_reducible apply keeps_raiseAt
    | with_reducible apply keeps_wr
    | with_reducible apply keeps_inc
    | with_reducible apply keeps_when
    | with_reducible apply keeps_regionAt
    | with_reducible apply keeps_startRegion
    | exact List.Subset.trans (by decide) hF
    | exact Or.inl (hF (by decide))
    | with_reducible exact Or.inr rfl
    | with_reducible rfl
    | simp only [keeps_lit]
    | (with_reducible refine keeps_mk ?_ rfl rfl rfl ?_ ?_ ?_ ?_ ?_ ?_ ?_ ?_ ?_ ?_ ?_ ?_ ?_ ?_ ?_ ?_ ?_ ?_ ?_ ?_ ?_)
    | exact Or.inr rfl
    | rfl
    | with_reducible apply keeps_ite
    | (intro _)
    | with_reducible apply keeps_foldl
    | with_reducible apply keeps_foldl_fst
    | with_reducible apply keeps_optmap
    | split

theorem keeps_startDdr (s : State) (hF : [.regs, .mem] ⊆ F) (hs : Keeps F z s) :
    Keeps F z (State.startDdr s) := by
  unfold State.startDdr
  repeat' first
    | with_reducible assumption
    | with_reducible apply keeps_put
    | exact List.Subset.trans (by decide) hF
    | exact Or.inl (hF (by decide))
    | with_reducible exact Or.inr rfl
    | with_reducible rfl
    | simp only [keeps_lit]
    | (with_reducible refine keeps_mk ?_ rfl rfl rfl ?_ ?_ ?_ ?_ ?_ ?_ ?_ ?_ ?_ ?_ ?_ ?_ ?_ ?_ ?_ ?_ ?_ ?_ ?_ ?_ ?_)
    | exact Or.inr rfl
    | rfl
    | with_reducible apply keeps_ite
    | (intro _)

theorem keeps_secRoll (s : State) (a1) (a2) (hF : [.regs, .mem] ⊆ F) (hs : Keeps F z s) :
    Keeps F z (State.secRoll s a1 a2) := by
  unfold State.secRoll
  repeat' first
    | with_reducible assumption
    | with_reducible apply keeps_put
    | exact List.Subset.trans (by decide) hF
    | exact Or.inl (hF (by decide))
    | with_reducible exact Or.inr rfl
    | with_reducible rfl
    | simp only [keeps_lit]
    | (with_reducible refine keeps_mk ?_ rfl rfl rfl ?_ ?_ ?_ ?_ ?_ ?_ ?_ ?_ ?_ ?_ ?_ ?_ ?_ ?_ ?_ ?_ ?_ ?_ ?_ ?_ ?_)
    | exact Or.inr rfl
    | rfl
    | with_reducible apply keeps_ite
    | (intro _)

theorem keeps_secRevoke (s : State) (a1) (a2) (hF : [.regs, .mem] ⊆ F) (hs : Keeps F z s) :
    Keeps F z (State.secRevoke s a1 a2) := by
  unfold State.secRevoke
  repeat' first
    | with_reducible assumption
    | with_reducible apply keeps_put
    | exact List.Subset.trans (by decide) hF
    | exact Or.inl (hF (by decide))
    | with_reducible exact Or.inr rfl
    | with_reducible rfl
    | simp only [keeps_lit]
    | (with_reducible refine keeps_mk ?_ rfl rfl rfl ?_ ?_ ?_ ?_ ?_ ?_ ?_ ?_ ?_ ?_ ?_ ?_ ?_ ?_ ?_ ?_ ?_ ?_ ?_ ?_ ?_)
    | exact Or.inr rfl
    | rfl
    | with_reducible apply keeps_ite
    | (intro _)

theorem keeps_readKc (s : State) (a1) (hF : [.tim] ⊆ F) (hs : Keeps F z s) :
    Keeps F z (State.readKc s a1).2 := by
  unfold State.readKc
  repeat' first
    | with_reducible assumption
    | exact List.Subset.trans (by decide) hF
    | exact Or.inl (hF (by decide))
    | with_reducible exact Or.inr rfl
    | with_reducible rfl
    | simp only [keeps_lit]
    | (with_reducible refine keeps_mk ?_ rfl rfl rfl ?_ ?_ ?_ ?_ ?_ ?_ ?_ ?_ ?_ ?_ ?_ ?_ ?_ ?_ ?_ ?_ ?_ ?_ ?_ ?_ ?_)
    | exact Or.inr rfl
    | rfl
    | with_reducible apply keeps_ite
    | with_reducible apply keeps_ite_snd
    | (intro _)
    | with_reducible apply keeps_foldl
    | with_reducible apply keeps_foldl_fst
    | with_reducible apply keeps_optmap
    | split

theorem keeps_readWhole (s : State) (a1) (hF : [.tim] ⊆ F) (hs : Keeps F z s) :
    Keeps F z (State.readWhole s a1).2 := by
  unfold State.readWhole
  repeat' first
    | with_reducible assumption
    | with_reducible apply keeps_readKc
    | with_reducible refine keeps_snd (keeps_readKc _ _ ?_ ?_) (by assumption)
    | exact List.Subset.trans (by decide) hF
    | with_reducible apply keeps_ite
    | with_reducible apply keeps_ite_snd
    | (intro _)
    | with_reducible apply keeps_foldl
    | with_reducible apply keeps_foldl_fst
    | with_reducible apply keeps_optmap
    | split

theorem keeps_trace (s : State) (a1) (a2) (a3) (a4) (a5) (a6) (hF : [.regs, .sch, .mem] ⊆ F) (hs : Keeps F z s) :
    Keeps F z (State.trace s a1 a2 a3 a4 a5 a6) := by
  unfold State.trace
  repeat' first
    | with_reducible assumption
    | with_reducible apply keeps_inc
    | with_reducible apply keeps_storeBytes
    | with_reducible apply keeps_wr
    | with_reducible apply keeps_when
    | with_reducible apply keeps_put
    | exact List.Subset.trans (by decide) hF
    | exact Or.inl (hF (by decide))
    | with_reducible exact Or.inr rfl
    | with_reducible rfl
    | simp only [keeps_lit]
    | (with_reducible refine keeps_mk ?_ rfl rfl rfl ?_ ?_ ?_ ?_ ?_ ?_ ?_ ?_ ?_ ?_ ?_ ?_ ?_ ?_ ?_ ?_ ?_ ?_ ?_ ?_ ?_)
    | exact Or.inr rfl
    | rfl
    | with_reducible apply keeps_ite
    | (intro _)

theorem keeps_traceOn (s : State) (hF : [.regs, .sch] ⊆ F) (hs : Keeps F z s) :
    Keeps F z (State.traceOn s) := by
  unfold State.traceOn
  repeat' first
    | with_reducible assumption
    | with_reducible apply keeps_wr
    | exact List.Subset.trans (by decide) hF
    | exact Or.inl (hF (by decide))
    | with_reducible exact Or.inr rfl
    | with_reducible rfl
    | simp only [keeps_lit]
    | (with_reducible refine keeps_mk ?_ rfl rfl rfl ?_ ?_ ?_ ?_ ?_ ?_ ?_ ?_ ?_ ?_ ?_ ?_ ?_ ?_ ?_ ?_ ?_ ?_ ?_ ?_ ?_)

theorem keeps_setQueue (s : State) (a1) (a2) (hF : [.sch] ⊆ F) (hs : Keeps F z s) :
    Keeps F z (State.setQueue s a1 a2) := by
  unfold State.setQueue
  repeat' first
    | with_reducible assumption
    | exact List.Subset.trans (by decide) hF
    | exact Or.inl (hF (by decide))
    | with_reducible exact Or.inr rfl
    | with_reducible rfl
    | simp only [keeps_lit]
    | (with_reducible refine keeps_mk ?_ rfl rfl rfl ?_ ?_ ?_ ?_ ?_ ?_ ?_ ?_ ?_ ?_ ?_ ?_ ?_ ?_ ?_ ?_ ?_ ?_ ?_ ?_ ?_)

theorem keeps_setSlots (s : State) (a1) (a2) (hF : [.sch] ⊆ F) (hs : Keeps F z s) :
    Keeps F z (State.setSlots s a1 a2) := by
  unfold State.setSlots
  repeat' first
    | with_reducible assumption
    | exact List.Subset.trans (by decide) hF
    | exact Or.inl (hF (by decide))
    | with_reducible exact Or.inr rfl
    | with_reducible rfl
    | simp only [keeps_lit]
    | (with_reducible refine keeps_mk ?_ rfl rfl rfl ?_ ?_ ?_ ?_ ?_ ?_ ?_ ?_ ?_ ?_ ?_ ?_ ?_ ?_ ?_ ?_ ?_ ?_ ?_ ?_ ?_)

theorem keeps_schShow (s : State) (hF : [.regs] ⊆ F) (hs : Keeps F z s) :
    Keeps F z (State.schShow s) := by
  unfold State.schShow
  repeat' first
    | with_reducible assumption
    | with_reducible apply keeps_forN
    | with_reducible apply keeps_wr
    | exact List.Subset.trans (by decide) hF
    | with_reducible apply keeps_ite
    | (intro _)

theorem keeps_anyItem (s : State) (q : Nat) (hF : [.draws, .sch] ⊆ F) (h : Keeps F z s) :
    ∀ t, s.anyItem q = some t → Keeps F z t.2 := by
  have hq : ∀ u l, Keeps F z u → Keeps F z (u.setQueue q l) := fun u l h => keeps_setQueue _ _ _ (List.Subset.trans (by decide) hF) h
  unfold State.anyItem
  intro t e
  split at e
  · exact absurd e (by simp)
  · rw [← Option.some.inj e]; exact hq _ _ h
  · obtain ⟨x, -, e⟩ := Option.map_eq_some_iff.1 e
    rw [← e]
    exact hq _ _ (keeps_draw (List.Subset.trans (by decide) hF) h)

theorem keeps_fillSlot (s : State) (a1) (hF : [.draws, .regs, .sch, .mem] ⊆ F) (hs : Keeps F z s) :
    Keeps F z (State.fillSlot s a1) := by
  unfold State.fillSlot
  repeat' first
    | with_reducible assumption
    | with_reducible refine keeps_anyItem _ _ ?_ ?_ (_, _) (by assumption)
    | with_reducible apply keeps_setSlots
    | with_reducible apply keeps_trace
    | exact List.Subset.trans (by decide) hF
    | exact Or.inl (hF (by decide))
    | with_reducible exact Or.inr rfl
    | with_reducible rfl
    | simp only [keeps_lit]
    | (with_reducible refine keeps_mk ?_ rfl rfl rfl ?_ ?_ ?_ ?_ ?_ ?_ ?_ ?_ ?_ ?_ ?_ ?_ ?_ ?_ ?_ ?_ ?_ ?_ ?_ ?_ ?_)
    | exact Or.inr rfl
    | rfl
    | with_reducible apply keeps_ite
    | (intro _)
    | with_reducible apply keeps_foldl
    | with_reducible apply keeps_foldl_fst
    | with_reducible apply keeps_optmap
    | split

theorem keeps_fillAll (s : State) (hF : [.draws, .regs, .sch, .mem] ⊆ F) (hs : Keeps F z s) :
    Keeps F z (State.fillAll s) := by
  unfold State.fillAll
  repeat' first
    | with_reducible assumption
    | with_reducible apply keeps_forN
    | with_reducible apply keeps_fillSlot
    | exact List.Subset.trans (by decide) hF
    | with_reducible apply keeps_ite
    | (intro _)

theorem keeps_setPushSt (s : State) (a1) (a2) (a3) (hF : [.sch] ⊆ F) (hs : Keeps F z s) :
    Keeps F z (State.setPushSt s a1 a2 a3) := by
  unfold State.setPushSt
  repeat' first
    | with_reducible assumption
    | exact List.Subset.trans (by decide) hF
    | exact Or.inl (hF (by decide))
    | with_reducible exact Or.inr rfl
    | with_reducible rfl
    | simp only [keeps_lit]
    | (with_reducible refine keeps_mk ?_ rfl rfl rfl ?_ ?_ ?_ ?_ ?_ ?_ ?_ ?_ ?_ ?_ ?_ ?_ ?_ ?_ ?_ ?_ ?_ ?_ ?_ ?_ ?_)

theorem keeps_commitPush (s : State) (a1) (a2) (a3) (hF : [.regs, .sch, .mem] ⊆ F) (hs : Keeps F z s) :
    Keeps F z (State.commitPush s a1 a2 a3) := by
  unfold State.commitPush
  repeat' first
    | with_reducible assumption
    | with_reducible apply keeps_setQueue
    | with_reducible apply keeps_wr
    | with_reducible apply keeps_setPushSt
    | with_reducible apply keeps_trace
    | exact List.Subset.trans (by decide) hF

theorem keeps_dropPush (s : State) (a1) (a2) (a3) (hF : [.regs, .sch, .mem] ⊆ F) (hs : Keeps F z s) :
    Keeps F z (State.dropPush s a1 a2 a3) := by
  unfold State.dropPush
  repeat' first
    | with_reducible assumption
    | with_reducible apply keeps_setPushSt
    | with_reducible apply keeps_trace
    | exact List.Subset.trans (by decide) hF

theorem keeps_takeItem (s : State) (a1) (hF : [.regs, .sent, .sch, .mem] ⊆ F) (hs : Keeps F z s) :
    ∀ t, (State.takeItem s a1) = some t → Keeps F z t := by
  unfold State.takeItem
  repeat' first
    | with_reducible assumption
    | with_reducible apply keeps_setSlots
    | with_reducible apply keeps_inc
    | with_reducible apply keeps_trace
    | with_reducible apply keeps_send
    | exact List.Subset.trans (by decide) hF
    | exact Or.inl (hF (by decide))
    | with_reducible exact Or.inr rfl
    | with_reducible rfl
    | simp only [keeps_lit]
    | (with_reducible refine keeps_mk ?_ rfl rfl rfl ?_ ?_ ?_ ?_ ?_ ?_ ?_ ?_ ?_ ?_ ?_ ?_ ?_ ?_ ?_ ?_ ?_ ?_ ?_ ?_ ?_)
    | exact Or.inr rfl
    | rfl
    | with_reducible apply keeps_ite
    | (show ∀ _ : State, _; split)
    | (intro t e; rw [← Option.some.inj e]; clear e t)
    | (intro t e; exact absurd e (by simp))

theorem keeps_completeStalls (s : State) (hF : [.regs, .sch, .mem] ⊆ F) (hs : Keeps F z s) :
    Keeps F z (State.completeStalls s) := by
  unfold State.completeStalls
  repeat' first
    | with_reducible assumption
    | with_reducible apply keeps_forL
    | with_reducible apply keeps_commitPush
    | exact List.Subset.trans (by decide) hF
    | exact Or.inl (hF (by decide))
    | with_reducible exact Or.inr rfl
    | with_reducible rfl
    | simp only [keeps_lit]
    | (with_reducible refine keeps_mk ?_ rfl rfl rfl ?_ ?_ ?_ ?_ ?_ ?_ ?_ ?_ ?_ ?_ ?_ ?_ ?_ ?_ ?_ ?_ ?_ ?_ ?_ ?_ ?_)
    | exact Or.inr rfl
    | rfl
    | with_reducible apply keeps_ite
    | (intro _)

theorem keeps_completeWaits (s : State) (hF : [.regs, .sent, .sch, .mem] ⊆ F) (hs : Keeps F z s) :
    Keeps F z (State.completeWaits s) := by
  unfold State.completeWaits
  repeat' first
    | with_reducible assumption
    | with_reducible apply keeps_forL
    | with_reducible refine keeps_takeItem _ _ ?_ ?_ _ (by assumption)
    | exact List.Subset.trans (by decide) hF
    | exact Or.inl (hF (by decide))
    | with_reducible exact Or.inr rfl
    | with_reducible rfl
    | simp only [keeps_lit]
    | (with_reducible refine keeps_mk ?_ rfl rfl rfl ?_ ?_ ?_ ?_ ?_ ?_ ?_ ?_ ?_ ?_ ?_ ?_ ?_ ?_ ?_ ?_ ?_ ?_ ?_ ?_ ?_)
    | exact Or.inr rfl
    | rfl
    | with_reducible apply keeps_ite
    | (intro _)
    | with_reducible apply keeps_foldl
    | with_reducible apply keeps_foldl_fst
    | with_reducible apply keeps_optmap
    | split

theorem keeps_settleRounds (n : Nat) (s : State) (hF : [.draws, .regs, .sent, .sch, .mem] ⊆ F) (h : Keeps F z s) : Keeps F z (State.settleRounds n s) := by
  induction n generalizing s with
  | zero => exact keeps_fillAll _ (List.Subset.trans (by decide) hF) h
  | succ k ih =>
    have ht := keeps_completeStalls _ (List.Subset.trans (by decide) hF)
      (keeps_completeWaits _ (List.Subset.trans (by decide) hF) (keeps_fillAll _ (List.Subset.trans (by decide) hF) h))
    exact keeps_ite (fun _ => keeps_fillAll _ (List.Subset.trans (by decide) hF) ht) fun _ => ih _ ht

theorem keeps_settle (s : State) (hF : [.draws, .regs, .sent, .sch, .mem] ⊆ F) (hs : Keeps F z s) :
    Keeps F z (State.settle s) := by
  unfold State.settle
  repeat' first
    | with_reducible assumption
    | with_reducible apply keeps_schShow
    | with_reducible apply keeps_settleRounds
    | exact List.Subset.trans (by decide) hF

theorem keeps_push (s : State) (a1) (a2) (a3) (hF : [.draws, .regs, .sent, .sys, .tie, .flt, .acq, .sch, .mem] ⊆ F) (hs : Keeps F z s) :
    Keeps F z (State.push s a1 a2 a3) := by
  unfold State.push
  repeat' first
    | with_reducible assumption
    | with_reducible apply keeps_settle
    | with_reducible apply keeps_dropPush
    | with_reducible apply keeps_raise
    | with_reducible apply keeps_commitPush
    | exact List.Subset.trans (by decide) hF
    | exact Or.inl (hF (by decide))
    | with_reducible exact Or.inr rfl
    | with_reducible rfl
    | simp only [keeps_lit]
    | (with_reducible refine keeps_mk ?_ rfl rfl rfl ?_ ?_ ?_ ?_ ?_ ?_ ?_ ?_ ?_ ?_ ?_ ?_ ?_ ?_ ?_ ?_ ?_ ?_ ?_ ?_ ?_)
    | exact Or.inr rfl
    | rfl
    | with_reducible apply keeps_ite
    | (intro _)

theorem keeps_queueTick (s : State) (a1) (hF : [.draws, .regs, .sent, .sys, .tie, .flt, .acq, .sch, .mem] ⊆ F) (hs : Keeps F z s) :
    Keeps F z (State.queueTick s a1) := by
  unfold State.queueTick
  repeat' first
    | with_reducible assumption
    | with_reducible apply keeps_settle
    | with_reducible apply keeps_raise
    | with_reducible apply keeps_trace
    | with_reducible apply keeps_inc
    | with_reducible apply keeps_setQueue
    | with_reducible apply keeps_wr
    | exact List.Subset.trans (by decide) hF
    | with_reducible apply keeps_ite
    | (intro _)

theorem keeps_get (s : State) (a1) (hF : [.draws, .regs, .sent, .sch, .mem] ⊆ F) (hs : Keeps F z s) :
    Keeps F z (State.get s a1) := by
  unfold State.get
  repeat' first
    | with_reducible assumption
    | with_reducible refine keeps_takeItem _ _ ?_ ?_ _ (by assumption)
    | with_reducible apply keeps_settle
    | with_reducible apply keeps_send
    | exact List.Subset.trans (by decide) hF
    | with_reducible apply keeps_ite
    | (intro _)
    | with_reducible apply keeps_foldl
    | with_reducible apply keeps_foldl_fst
    | with_reducible apply keeps_optmap
    | split

theorem keeps_setPart (s : State) (a1) (a2) (hF : [.draws, .regs, .sent, .sch, .mem] ⊆ F) (hs : Keeps F z s) :
    Keeps F z (State.setPart s a1 a2) := by
  unfold State.setPart
  repeat' first
    | with_reducible assumption
    | with_reducible apply keeps_wr
    | with_reducible apply keeps_setSlots
    | with_reducible apply keeps_forL
    | with_reducible apply keeps_setQueue
    | with_reducible apply keeps_trace
    | with_reducible apply keeps_settle
    | with_reducible apply keeps_inc
    | exact List.Subset.trans (by decide) hF
    | with_reducible apply keeps_ite
    | (intro _)

theorem keeps_setDepth (s : State) (a1) (a2) (hF : [.draws, .regs, .sent, .sch, .mem] ⊆ F) (hs : Keeps F z s) :
    Keeps F z (State.setDepth s a1 a2) := by
  unfold State.setDepth
  repeat' first
    | with_reducible assumption
    | with_reducible apply keeps_put
    | with_reducible apply keeps_wr
    | with_reducible apply keeps_setQueue
    | with_reducible apply keeps_when
    | with_reducible apply keeps_inc
    | with_reducible apply keeps_trace
    | with_reducible apply keeps_settle
    | exact List.Subset.trans (by decide) hF
    | with_reducible apply keeps_ite
    | (intro _)

theorem keeps_schClr (s : State) (hF : [.regs] ⊆ F) (hs : Keeps F z s) :
    Keeps F z (State.schClr s) := by
  unfold State.schClr
  repeat' first
    | with_reducible assumption
    | with_reducible apply keeps_forN
    | with_reducible apply keeps_wr
    | with_reducible apply keeps_setWord
    | with_reducible apply keeps_put
    | exact List.Subset.trans (by decide) hF
    | with_reducible apply keeps_ite
    | (intro _)

theorem keeps_stopPair (s : State) (a1) (hF : [.regs, .sent, .sys, .tie, .flt, .acq, .sch, .mem] ⊆ F) (hs : Keeps F z s) :
    Keeps F z (State.stopPair s a1) := by
  unfold State.stopPair
  repeat' first
    | with_reducible assumption
    | with_reducible apply keeps_inc
    | with_reducible apply keeps_setSlots
    | with_reducible apply keeps_putBit
    | with_reducible apply keeps_raise
    | with_reducible apply keeps_schShow
    | exact List.Subset.trans (by decide) hF
    | exact Or.inl (hF (by decide))
    | with_reducible exact Or.inr rfl
    | with_reducible rfl
    | simp only [keeps_lit]
    | (with_reducible refine keeps_mk ?_ rfl rfl rfl ?_ ?_ ?_ ?_ ?_ ?_ ?_ ?_ ?_ ?_ ?_ ?_ ?_ ?_ ?_ ?_ ?_ ?_ ?_ ?_ ?_)
    | exact Or.inr rfl
    | rfl
    | with_reducible apply keeps_ite
    | (intro _)

theorem keeps_injectPair (s : State) (a1) (a2) (hF : [.regs, .sent, .sys, .tie, .flt, .acq, .sch, .mem] ⊆ F) (hs : Keeps F z s) :
    Keeps F z (State.injectPair s a1 a2) := by
  unfold State.injectPair
  repeat' first
    | with_reducible assumption
    | with_reducible apply keeps_raise
    | with_reducible apply keeps_putBit
    | with_reducible apply keeps_inc
    | exact List.Subset.trans (by decide) hF
    | exact Or.inl (hF (by decide))
    | with_reducible exact Or.inr rfl
    | with_reducible rfl
    | simp only [keeps_lit]
    | (with_reducible refine keeps_mk ?_ rfl rfl rfl ?_ ?_ ?_ ?_ ?_ ?_ ?_ ?_ ?_ ?_ ?_ ?_ ?_ ?_ ?_ ?_ ?_ ?_ ?_ ?_ ?_)
    | exact Or.inr rfl
    | rfl
    | with_reducible apply keeps_ite
    | (intro _)

theorem keeps_injectMask (s : State) (a1) (a2) (hF : [.regs, .sent, .sys, .tie, .flt, .acq, .sch, .mem] ⊆ F) (hs : Keeps F z s) :
    Keeps F z (State.injectMask s a1 a2) := by
  unfold State.injectMask
  repeat' first
    | with_reducible assumption
    | with_reducible apply keeps_forN
    | with_reducible apply keeps_when
    | with_reducible apply keeps_injectPair
    | exact List.Subset.trans (by decide) hF
    | with_reducible apply keeps_ite
    | (intro _)

theorem keeps_setCounter (s : State) (a1) (a2) (a3) (hF : [.regs] ⊆ F) (hs : Keeps F z s) :
    Keeps F z (State.setCounter s a1 a2 a3) := by
  unfold State.setCounter
  repeat' first
    | with_reducible assumption
    | with_reducible apply keeps_wr

theorem keeps_wrapped (s : State) (a1) (a2) (hF : [.regs, .sent] ⊆ F) (hs : Keeps F z s) :
    Keeps F z (State.wrapped s a1 a2) := by
  unfold State.wrapped
  repeat' first
    | with_reducible assumption
    | with_reducible apply keeps_when
    | with_reducible apply keeps_putBit
    | with_reducible apply keeps_send
    | exact List.Subset.trans (by decide) hF
    | with_reducible apply keeps_ite
    | (intro _)

theorem keeps_advance (s : State) (a1) (hF : [.regs, .sent] ⊆ F) (hs : Keeps F z s) :
    Keeps F z (State.advance s a1) := by
  unfold State.advance
  repeat' first
    | with_reducible assumption
    | with_reducible apply keeps_forN
    | with_reducible apply keeps_when
    | with_reducible apply keeps_setCounter
    | with_reducible apply keeps_wrapped
    | exact List.Subset.trans (by decide) hF
    | with_reducible apply keeps_ite
    | (intro _)

theorem keeps_counterWrite (s : State) (a1) (a2) (a3) (a4) (a5) (hF : [.regs, .sch] ⊆ F) (hs : Keeps F z s) :
    Keeps F z (State.counterWrite s a1 a2 a3 a4 a5) := by
  unfold State.counterWrite
  repeat' first
    | with_reducible assumption
    | with_reducible apply keeps_setCounter
    | exact List.Subset.trans (by decide) hF
    | exact Or.inl (hF (by decide))
    | with_reducible exact Or.inr rfl
    | with_reducible rfl
    | simp only [keeps_lit]
    | (with_reducible refine keeps_mk ?_ rfl rfl rfl ?_ ?_ ?_ ?_ ?_ ?_ ?_ ?_ ?_ ?_ ?_ ?_ ?_ ?_ ?_ ?_ ?_ ?_ ?_ ?_ ?_)
    | exact Or.inr rfl
    | rfl
    | with_reducible apply keeps_ite
    | (intro _)

theorem keeps_snapshot (s : State) (a1) (hF : [.regs, .sent, .sch] ⊆ F) (hs : Keeps F z s) :
    Keeps F z (State.snapshot s a1) := by
  unfold State.snapshot
  repeat' first
    | with_reducible assumption
    | with_reducible apply keeps_put
    | with_reducible apply keeps_advance
    | with_reducible apply keeps_forN
    | with_reducible apply keeps_wr
    | exact List.Subset.trans (by decide) hF
    | exact Or.inl (hF (by decide))
    | with_reducible exact Or.inr rfl
    | with_reducible rfl
    | simp only [keeps_lit]
    | (with_reducible refine keeps_mk ?_ rfl rfl rfl ?_ ?_ ?_ ?_ ?_ ?_ ?_ ?_ ?_ ?_ ?_ ?_ ?_ ?_ ?_ ?_ ?_ ?_ ?_ ?_ ?_)
    | exact Or.inr rfl
    | rfl
    | with_reducible apply keeps_ite
    | (intro _)

theorem keeps_rankArm (s : State) (a1) (hF : [.regs] ⊆ F) (hs : Keeps F z s) :
    Keeps F z (State.rankArm s a1) := by
  unfold State.rankArm
  repeat' first
    | with_reducible assumption
    | with_reducible apply keeps_forN
    | with_reducible apply keeps_wr
    | exact List.Subset.trans (by decide) hF
    | with_reducible apply keeps_ite
    | (intro _)
    | with_reducible apply keeps_foldl
    | with_reducible apply keeps_foldl_fst
    | with_reducible apply keeps_optmap
    | split

theorem keeps_ageingMeasure (s : State) (a1) (hF : [.regs] ⊆ F) (hs : Keeps F z s) :
    Keeps F z (State.ageingMeasure s a1) := by
  unfold State.ageingMeasure
  repeat' first
    | with_reducible assumption
    | with_reducible apply keeps_forN
    | with_reducible apply keeps_wr
    | with_reducible apply keeps_put
    | exact List.Subset.trans (by decide) hF
    | with_reducible apply keeps_ite
    | (intro _)
    | with_reducible apply keeps_foldl
    | with_reducible apply keeps_foldl_fst
    | with_reducible apply keeps_optmap
    | split

end Sys2Proof.Machine
end

