-- ==== Sys2Proof/Laws/KeepsAccess.lean ====
section
/-! SUPPORT. What register writes, the object services, the mirror, start-up and the period boundary keep, one lemma per operation. -/

namespace Sys2Proof.Machine

variable {F : List Part} {z : State}

theorem keeps_ctlCheck (s : State) (a1) (a2) (hF : [.regs] ⊆ F) (hs : Keeps F z s) :
    Keeps F z (State.ctlCheck s a1 a2) := by
  unfold State.ctlCheck
  repeat' first
    | with_reducible assumption
    | with_reducible apply keeps_wr
    | with_reducible apply keeps_put
    | exact List.Subset.trans (by decide) hF
    | with_reducible apply keeps_ite
    | (intro _)
    | with_reducible apply keeps_foldl
    | with_reducible apply keeps_foldl_fst
    | with_reducible apply keeps_optmap
    | split

theorem keeps_lvlCheck (s : State) (a1) (hF : [.regs] ⊆ F) (hs : Keeps F z s) :
    Keeps F z (State.lvlCheck s a1) := by
  unfold State.lvlCheck
  repeat' first
    | with_reducible assumption
    | with_reducible apply keeps_wr
    | with_reducible apply keeps_put

theorem keeps_ctlWrite (s : State) (a w v : Nat) (hF : [.regs, .ctl] ⊆ F) (h : Keeps F z s) : Keeps F z (s.ctlWrite a w v).1 := by
  have sub : ∀ {G : List Part}, G ⊆ [.regs, .ctl] → G ⊆ F := fun g => List.Subset.trans g hF
  have hj : ∀ code u, Keeps F z u → Keeps F z (if code = 0 then (u, 0) else (s.ctlCheck a code, checkAbort code)).1 :=
    fun code u hu => keeps_ite_fst (fun _ => hu) fun _ => keeps_ctlCheck _ _ _ (sub (by decide)) h
  have ht : Keeps F z (s.setWord a w) := keeps_setWord _ _ (sub (by decide)) h
  unfold State.ctlWrite
  refine keeps_ite_fst (fun _ => keeps_ctlClear _ _ (sub (by decide)) h) fun _ => ?_
  refine keeps_ite_fst (fun _ => keeps_ite_fst (fun _ => h) fun _ => keeps_swapGo _ _ _ (sub (by decide)) h) fun _ => ?_
  refine keeps_ite_fst (fun _ => keeps_ite_fst (fun _ => h) fun _ => keeps_injectOverrun _ _ (sub (by decide)) h) fun _ => ?_
  refine keeps_ite_fst (fun _ => hj _ _ (keeps_wr _ _ _ (sub (by decide)) (keeps_wr _ _ _ (sub (by decide)) ht))) fun _ => ?_
  refine keeps_ite_fst (fun _ => keeps_ite_fst (fun _ => hj _ _ ht) fun _ => ht) fun _ => ?_
  refine keeps_ite_fst (fun _ => hj _ _ (keeps_ite (fun _ => ?_) fun _ => ht)) fun _ => ?_
  · exact ht.step .ctl (sub (by decide) (List.mem_singleton.2 rfl)) rfl (by intro p hp; cases p <;> first | rfl | exact absurd rfl hp) id
  refine keeps_ite_fst (fun _ => keeps_when _ _ ht fun _ h => keeps_setWord _ _ (sub (by decide)) h) fun _ => ?_
  refine keeps_ite_fst (fun _ => keeps_coastCmd _ _ _ _ (sub (by decide)) h) fun _ => ?_
  exact keeps_ite_fst (fun _ => hj _ _ ht) fun _ => ht

theorem keeps_coefWrite (s : State) (a1) (a2) (a3) (a4) (hF : [.ctl] ⊆ F) (hs : Keeps F z s) :
    Keeps F z (State.coefWrite s a1 a2 a3 a4).1 := by
  unfold State.coefWrite
  repeat' first
    | with_reducible assumption
    | with_reducible apply keeps_setCoef
    | exact List.Subset.trans (by decide) hF
    | with_reducible apply keeps_ite
    | with_reducible apply keeps_ite_fst
    | (intro _)

theorem keeps_lvlWrite (s : State) (a1) (a2) (a3) (hF : [.regs, .lvl] ⊆ F) (hs : Keeps F z s) :
    Keeps F z (State.lvlWrite s a1 a2 a3).1 := by
  unfold State.lvlWrite
  repeat' first
    | with_reducible assumption
    | with_reducible apply keeps_onView
    | with_reducible apply keeps_lvlCheck
    | with_reducible apply keeps_when
    | with_reducible apply keeps_setWord
    | with_reducible apply keeps_putBit
    | exact List.Subset.trans (by decide) hF
    | with_reducible apply keeps_ite
    | with_reducible apply keeps_ite_fst
    | (intro _)

theorem keeps_strWrite (s : State) (a1) (a2) (a3) (hF : [.draws, .regs, .sent, .ports] ⊆ F) (hs : Keeps F z s) :
    Keeps F z (State.strWrite s a1 a2 a3).1 := by
  unfold State.strWrite
  repeat' first
    | with_reducible assumption
    | with_reducible apply keeps_when
    | with_reducible apply keeps_errClr
    | with_reducible apply keeps_mbGo
    | with_reducible apply keeps_setWord
    | with_reducible apply keeps_enumerate
    | with_reducible apply keeps_enumAccept
    | with_reducible refine keeps_fst (keeps_enumAccept _ _ _ ?_ ?_) (by assumption)
    | with_reducible apply keeps_put
    | exact List.Subset.trans (by decide) hF
    | with_reducible apply keeps_ite
    | with_reducible apply keeps_ite_fst
    | (intro _)
    | with_reducible apply keeps_foldl
    | with_reducible apply keeps_foldl_fst
    | with_reducible apply keeps_optmap
    | split

theorem keeps_tieCmd (s : State) (a1) (hF : [.regs, .tie] ⊆ F) (hs : Keeps F z s) :
    Keeps F z (State.tieCmd s a1).1 := by
  unfold State.tieCmd
  repeat' first
    | with_reducible assumption
    | with_reducible apply keeps_when
    | with_reducible apply keeps_startJoining
    | exact List.Subset.trans (by decide) hF
    | exact Or.inl (hF (by decide))
    | with_reducible exact Or.inr rfl
    | with_reducible rfl
    | simp only [keeps_lit]
    | (with_reducible refine keeps_mk ?_ rfl rfl rfl ?_ ?_ ?_ ?_ ?_ ?_ ?_ ?_ ?_ ?_ ?_ ?_ ?_ ?_ ?_ ?_ ?_ ?_ ?_ ?_ ?_)
    | exact Or.inr rfl
    | rfl
    | with_reducible apply keeps_ite
    | with_reducible apply keeps_ite_fst
    | (intro _)

theorem keeps_tieClear (s : State) (hF : [.regs] ⊆ F) (hs : Keeps F z s) :
    Keeps F z (State.tieClear s) := by
  unfold State.tieClear
  repeat' first
    | with_reducible assumption
    | with_reducible apply keeps_setWord

theorem keeps_tieWrite (s : State) (a1) (a2) (a3) (hF : [.regs, .tie] ⊆ F) (hs : Keeps F z s) :
    Keeps F z (State.tieWrite s a1 a2 a3).1 := by
  unfold State.tieWrite
  repeat' first
    | with_reducible assumption
    | with_reducible apply keeps_tieCmd
    | with_reducible refine keeps_fst (keeps_tieCmd _ _ ?_ ?_) (by assumption)
    | with_reducible apply keeps_when
    | with_reducible apply keeps_tieClear
    | with_reducible apply keeps_setWord
    | exact List.Subset.trans (by decide) hF
    | with_reducible apply keeps_ite
    | with_reducible apply keeps_ite_fst
    | (intro _)

theorem keeps_stampNext (s : State) (a1) (hF : [.tim] ⊆ F) (hs : Keeps F z s) :
    Keeps F z (State.stampNext s a1) := by
  unfold State.stampNext
  repeat' first
    | with_reducible assumption
    | exact List.Subset.trans (by decide) hF
    | exact Or.inl (hF (by decide))
    | with_reducible exact Or.inr rfl
    | with_reducible rfl
    | simp only [keeps_lit]
    | (with_reducible refine keeps_mk ?_ rfl rfl rfl ?_ ?_ ?_ ?_ ?_ ?_ ?_ ?_ ?_ ?_ ?_ ?_ ?_ ?_ ?_ ?_ ?_ ?_ ?_ ?_ ?_)

theorem keeps_timWrite (s : State) (a1) (a2) (a3) (hF : [.now, .nowFrac, .draws, .regs, .sent, .sys, .cells, .ports, .tim] ⊆ F) (hs : Keeps F z s) :
    Keeps F z (State.timWrite s a1 a2 a3).1 := by
  unfold State.timWrite
  repeat' first
    | with_reducible assumption
    | with_reducible apply keeps_timSetGo
    | with_reducible apply keeps_setWord
    | with_reducible apply keeps_when
    | with_reducible apply keeps_stampNext
    | with_reducible apply keeps_launchPush
    | exact List.Subset.trans (by decide) hF
    | with_reducible apply keeps_ite
    | with_reducible apply keeps_ite_fst
    | (intro _)

theorem keeps_adcWrite (s : State) (a1) (a2) (a3) (hF : [.regs, .inp] ⊆ F) (hs : Keeps F z s) :
    Keeps F z (State.adcWrite s a1 a2 a3).1 := by
  unfold State.adcWrite
  repeat' first
    | with_reducible assumption
    | with_reducible apply keeps_sarWritten
    | with_reducible apply keeps_setWord
    | with_reducible apply keeps_sdClear
    | with_reducible apply keeps_forN
    | with_reducible apply keeps_when
    | exact List.Subset.trans (by decide) hF
    | with_reducible apply keeps_ite
    | with_reducible apply keeps_ite_fst
    | (intro _)

theorem keeps_gpioWrite (s : State) (a1) (a2) (a3) (hF : [.regs, .inp] ⊆ F) (hs : Keeps F z s) :
    Keeps F z (State.gpioWrite s a1 a2 a3).1 := by
  unfold State.gpioWrite
  repeat' first
    | with_reducible assumption
    | with_reducible apply keeps_when
    | with_reducible apply keeps_nextEvent
    | with_reducible apply keeps_lineRestart
    | with_reducible apply keeps_setWord
    | exact List.Subset.trans (by decide) hF
    | with_reducible apply keeps_ite
    | with_reducible apply keeps_ite_fst
    | (intro _)

theorem keeps_acqWrite (s : State) (a1) (a2) (a3) (a4) (hF : [.regs, .sent, .flt, .acq, .mem] ⊆ F) (hs : Keeps F z s) :
    Keeps F z (State.acqWrite s a1 a2 a3 a4).1 := by
  unfold State.acqWrite
  repeat' first
    | with_reducible assumption
    | with_reducible apply keeps_acqArm
    | with_reducible refine keeps_fst (keeps_acqArm _ _ ?_ ?_) (by assumption)
    | with_reducible apply keeps_when
    | with_reducible apply keeps_acqDisarm
    | with_reducible apply keeps_acqForce
    | with_reducible apply keeps_acqClr
    | with_reducible apply keeps_markNext
    | with_reducible apply keeps_setWord
    | exact List.Subset.trans (by decide) hF
    | with_reducible apply keeps_ite
    | with_reducible apply keeps_ite_fst
    | (intro _)

theorem keeps_fltWrite (s : State) (a1) (a2) (a3) (hF : [.regs, .sent, .sys, .tie, .flt, .acq, .mem] ⊆ F) (hs : Keeps F z s) :
    Keeps F z (State.fltWrite s a1 a2 a3).1 := by
  unfold State.fltWrite
  repeat' first
    | with_reducible assumption
    | with_reducible apply keeps_clearWord
    | with_reducible apply keeps_fltCtrl
    | with_reducible refine keeps_fst (keeps_fltCtrl _ _ ?_ ?_) (by assumption)
    | with_reducible apply keeps_setWord
    | with_reducible apply keeps_causeIs
    | with_reducible apply keeps_fltSrcWrite
    | with_reducible refine keeps_fst (keeps_fltSrcWrite _ _ _ _ ?_ ?_) (by assumption)
    | exact List.Subset.trans (by decide) hF
    | with_reducible apply keeps_ite
    | with_reducible apply keeps_ite_fst
    | (intro _)

theorem keeps_schWrite (s : State) (a1) (a2) (a3) (a4) (hF : [.draws, .regs, .sent, .sys, .tie, .flt, .acq, .sch, .mem] ⊆ F) (hs : Keeps F z s) :
    Keeps F z (State.schWrite s a1 a2 a3 a4).1 := by
  unfold State.schWrite
  repeat' first
    | with_reducible assumption
    | with_reducible apply keeps_push
    | with_reducible apply keeps_injectMask
    | with_reducible apply keeps_when
    | with_reducible apply keeps_schClr
    | with_reducible apply keeps_traceOn
    | with_reducible apply keeps_setWord
    | with_reducible apply keeps_put
    | with_reducible apply keeps_setDepth
    | with_reducible apply keeps_setPart
    | with_reducible apply keeps_settle
    | exact List.Subset.trans (by decide) hF
    | exact Or.inl (hF (by decide))
    | with_reducible exact Or.inr rfl
    | with_reducible rfl
    | simp only [keeps_lit]
    | (with_reducible refine keeps_mk ?_ rfl rfl rfl ?_ ?_ ?_ ?_ ?_ ?_ ?_ ?_ ?_ ?_ ?_ ?_ ?_ ?_ ?_ ?_ ?_ ?_ ?_ ?_ ?_)
    | exact Or.inr rfl
    | rfl
    | with_reducible apply keeps_ite
    | with_reducible apply keeps_ite_fst
    | (intro _)

theorem keeps_pmcWrite (s : State) (a1) (a2) (a3) (a4) (hF : [.regs, .sent, .sch] ⊆ F) (hs : Keeps F z s) :
    Keeps F z (State.pmcWrite s a1 a2 a3 a4).1 := by
  unfold State.pmcWrite
  repeat' first
    | with_reducible assumption
    | with_reducible apply keeps_put
    | with_reducible apply keeps_when
    | with_reducible apply keeps_setWord
    | with_reducible apply keeps_snapshot
    | with_reducible apply keeps_counterWrite
    | exact List.Subset.trans (by decide) hF
    | exact Or.inl (hF (by decide))
    | with_reducible exact Or.inr rfl
    | with_reducible rfl
    | simp only [keeps_lit]
    | (with_reducible refine keeps_mk ?_ rfl rfl rfl ?_ ?_ ?_ ?_ ?_ ?_ ?_ ?_ ?_ ?_ ?_ ?_ ?_ ?_ ?_ ?_ ?_ ?_ ?_ ?_ ?_)
    | exact Or.inr rfl
    | rfl
    | with_reducible apply keeps_ite
    | with_reducible apply keeps_ite_fst
    | (intro _)

theorem keeps_memWrite (s : State) (a1) (a2) (a3) (hF : [.regs, .mem] ⊆ F) (hs : Keeps F z s) :
    Keeps F z (State.memWrite s a1 a2 a3).1 := by
  unfold State.memWrite
  repeat' first
    | with_reducible assumption
    | with_reducible apply keeps_pwrWrite
    | with_reducible refine keeps_fst (keeps_pwrWrite _ _ _ ?_ ?_) (by assumption)
    | with_reducible apply keeps_startDdr
    | with_reducible apply keeps_when
    | with_reducible apply keeps_secRoll
    | with_reducible apply keeps_secRevoke
    | with_reducible apply keeps_setWord
    | exact List.Subset.trans (by decide) hF
    | with_reducible apply keeps_ite
    | with_reducible apply keeps_ite_fst
    | (intro _)

theorem keeps_setSessions (s : State) (a1) (hF : [.regs, .od] ⊆ F) (hs : Keeps F z s) :
    Keeps F z (State.setSessions s a1) := by
  unfold State.setSessions
  repeat' first
    | with_reducible assumption
    | with_reducible apply keeps_wr
    | exact List.Subset.trans (by decide) hF
    | exact Or.inl (hF (by decide))
    | with_reducible exact Or.inr rfl
    | with_reducible rfl
    | simp only [keeps_lit]
    | (with_reducible refine keeps_mk ?_ rfl rfl rfl ?_ ?_ ?_ ?_ ?_ ?_ ?_ ?_ ?_ ?_ ?_ ?_ ?_ ?_ ?_ ?_ ?_ ?_ ?_ ?_ ?_)

theorem keeps_closeNet (s : State) (a1) (hF : [.regs, .od] ⊆ F) (hs : Keeps F z s) :
    Keeps F z (State.closeNet s a1) := by
  unfold State.closeNet
  repeat' first
    | with_reducible assumption
    | with_reducible apply keeps_setSessions

theorem keeps_sysWrite (s : State) (a1) (a2) (a3) (hF : [.regs, .od] ⊆ F) (hs : Keeps F z s) :
    Keeps F z (State.sysWrite s a1 a2 a3).1 := by
  unfold State.sysWrite
  repeat' first
    | with_reducible assumption
    | with_reducible apply keeps_closeNet
    | with_reducible apply keeps_setWord
    | with_reducible apply keeps_when
    | with_reducible apply keeps_setReplay
    | exact List.Subset.trans (by decide) hF
    | with_reducible apply keeps_ite
    | with_reducible apply keeps_ite_fst
    | (intro _)

theorem keeps_applyWrite (s : State) (a1) (a2) (a3) (a4) (a5) (hF : allParts ⊆ F) (hs : Keeps F z s) :
    Keeps F z (State.applyWrite s a1 a2 a3 a4 a5).1 := by
  unfold State.applyWrite
  repeat' first
    | with_reducible assumption
    | with_reducible apply keeps_ctlWrite
    | with_reducible refine keeps_fst (keeps_ctlWrite _ _ _ _ ?_ ?_) (by assumption)
    | with_reducible apply keeps_lvlWrite
    | with_reducible refine keeps_fst (keeps_lvlWrite _ _ _ _ ?_ ?_) (by assumption)
    | with_reducible apply keeps_strWrite
    | with_reducible refine keeps_fst (keeps_strWrite _ _ _ _ ?_ ?_) (by assumption)
    | with_reducible apply keeps_tieWrite
    | with_reducible refine keeps_fst (keeps_tieWrite _ _ _ _ ?_ ?_) (by assumption)
    | with_reducible apply keeps_timWrite
    | with_reducible refine keeps_fst (keeps_timWrite _ _ _ _ ?_ ?_) (by assumption)
    | with_reducible apply keeps_adcWrite
    | with_reducible refine keeps_fst (keeps_adcWrite _ _ _ _ ?_ ?_) (by assumption)
    | with_reducible apply keeps_acqWrite
    | with_reducible refine keeps_fst (keeps_acqWrite _ _ _ _ _ ?_ ?_) (by assumption)
    | with_reducible apply keeps_fltWrite
    | with_reducible refine keeps_fst (keeps_fltWrite _ _ _ _ ?_ ?_) (by assumption)
    | with_reducible apply keeps_schWrite
    | with_reducible refine keeps_fst (keeps_schWrite _ _ _ _ _ ?_ ?_) (by assumption)
    | with_reducible apply keeps_pmcWrite
    | with_reducible refine keeps_fst (keeps_pmcWrite _ _ _ _ _ ?_ ?_) (by assumption)
    | with_reducible apply keeps_memWrite
    | with_reducible refine keeps_fst (keeps_memWrite _ _ _ _ ?_ ?_) (by assumption)
    | with_reducible apply keeps_gpioWrite
    | with_reducible refine keeps_fst (keeps_gpioWrite _ _ _ _ ?_ ?_) (by assumption)
    | with_reducible apply keeps_stateCommand
    | with_reducible refine keeps_fst (keeps_stateCommand _ _ _ ?_ ?_) (by assumption)
    | with_reducible apply keeps_sysWrite
    | with_reducible refine keeps_fst (keeps_sysWrite _ _ _ _ ?_ ?_) (by assumption)
    | with_reducible apply keeps_setWord
    | exact List.Subset.trans (by decide) hF
    | with_reducible apply keeps_ite
    | with_reducible apply keeps_ite_fst
    | (intro _)
    | with_reducible apply keeps_foldl
    | with_reducible apply keeps_foldl_fst
    | with_reducible apply keeps_optmap
    | split

theorem keeps_mirror (s : State) (a1) (a2) (hF : [.tie] ⊆ F) (hs : Keeps F z s) :
    Keeps F z (State.mirror s a1 a2) := by
  unfold State.mirror
  repeat' first
    | with_reducible assumption
    | exact List.Subset.trans (by decide) hF
    | exact Or.inl (hF (by decide))
    | with_reducible exact Or.inr rfl
    | with_reducible rfl
    | simp only [keeps_lit]
    | (with_reducible refine keeps_mk ?_ rfl rfl rfl ?_ ?_ ?_ ?_ ?_ ?_ ?_ ?_ ?_ ?_ ?_ ?_ ?_ ?_ ?_ ?_ ?_ ?_ ?_ ?_ ?_)
    | exact Or.inr rfl
    | rfl
    | with_reducible apply keeps_ite
    | (intro _)

theorem keeps_fieldRefused (s : State) (a1) (a2) (hF : [.regs] ⊆ F) (hs : Keeps F z s) :
    Keeps F z (State.fieldRefused s a1 a2).1 := by
  unfold State.fieldRefused
  repeat' first
    | with_reducible assumption
    | with_reducible apply keeps_ctlCheck
    | with_reducible apply keeps_lvlCheck
    | exact List.Subset.trans (by decide) hF
    | with_reducible apply keeps_ite
    | with_reducible apply keeps_ite_fst
    | (intro _)
    | with_reducible apply keeps_foldl
    | with_reducible apply keeps_foldl_fst
    | with_reducible apply keeps_optmap
    | split

theorem keeps_regWrite (s : State) (m a v : Nat) (hF : allParts ⊆ F) (h : Keeps F z s) : Keeps F z (s.regWrite m a v).1 := by
  have sub : ∀ {G : List Part}, G ⊆ allParts → G ⊆ F := fun g => List.Subset.trans g hF
  unfold State.regWrite
  refine keeps_ite_fst (fun _ => h) fun _ => ?_
  refine keeps_ite_fst (fun _ => keeps_ite_fst (fun _ => h) fun _ => ?_) fun _ => ?_
  · have hc := keeps_coefWrite s (s.rd R.COEF_SEL_CTX) (s.shownPage (s.rd R.COEF_SEL_CTX)) ((a - 0x40080000) / 4) v (sub (by decide)) h
    exact keeps_ite (fun _ => keeps_mirror _ _ _ (sub (by decide)) hc) fun _ => hc
  split
  · exact h
  refine keeps_ite_fst (fun _ => h) fun _ => keeps_ite_fst (fun _ => h) fun _ =>
    keeps_ite_fst (fun _ => keeps_lvlWrite _ _ _ _ (sub (by decide)) h) fun _ => ?_
  split
  · exact keeps_fieldRefused _ _ _ (sub (by decide)) h
  · rename_i w _
    have hw := keeps_applyWrite s m a w v s.accepting (sub (by decide)) h
    exact keeps_ite (fun _ => keeps_mirror _ _ _ (sub (by decide)) hw) fun _ => hw

theorem keeps_write (s : State) (a1) (a2) (hF : allParts ⊆ F) (hs : Keeps F z s) :
    ∀ t, (State.write s a1 a2) = .next t → Keeps F z t := by
  unfold State.write
  repeat' first
    | with_reducible assumption
    | with_reducible apply keeps_regWrite
    | with_reducible refine keeps_fst (keeps_regWrite _ _ _ _ ?_ ?_) (by assumption)
    | exact List.Subset.trans (by decide) hF
    | with_reducible apply keeps_ite
    | (intro t e; rw [← Host.Outcome.next.inj e]; clear e t)

theorem keeps_mirrorStore (s : State) (a1) (a2) (a3) (hF : [.tie] ⊆ F) (hs : Keeps F z s) :
    Keeps F z (State.mirrorStore s a1 a2 a3) := by
  unfold State.mirrorStore
  repeat' first
    | with_reducible assumption
    | with_reducible apply keeps_mirror
    | exact List.Subset.trans (by decide) hF
    | with_reducible apply keeps_ite
    | (intro _)

theorem keeps_busWrite (s : State) (a1) (a2) (a3) (a4) (hF : allParts ⊆ F) (hs : Keeps F z s) :
    Keeps F z (State.busWrite s a1 a2 a3 a4) := by
  unfold State.busWrite
  repeat' first
    | with_reducible assumption
    | with_reducible apply keeps_regWrite
    | with_reducible refine keeps_fst (keeps_regWrite _ _ _ _ ?_ ?_) (by assumption)
    | with_reducible apply keeps_busFault
    | with_reducible apply keeps_mirrorStore
    | with_reducible apply keeps_storeBytes
    | exact List.Subset.trans (by decide) hF
    | with_reducible apply keeps_ite
    | (intro _)

theorem keeps_fails (s : State) (a1) (hs : Keeps F z s) :
    Keeps F z (fails s a1).1 := by
  unfold fails
  repeat' first
    | with_reducible assumption

theorem keeps_reads (s : State) (a1) (hs : Keeps F z s) :
    Keeps F z (reads s a1).1 := by
  unfold reads
  repeat' first
    | with_reducible assumption

theorem keeps_wrote (s : State) (hs : Keeps F z s) :
    Keeps F z (wrote s).1 := by
  unfold wrote
  repeat' first
    | with_reducible assumption

theorem keeps_putSession (s : State) (a1) (hF : [.od] ⊆ F) (hs : Keeps F z s) :
    Keeps F z (State.putSession s a1) := by
  unfold State.putSession
  repeat' first
    | with_reducible assumption
    | exact List.Subset.trans (by decide) hF
    | exact Or.inl (hF (by decide))
    | with_reducible exact Or.inr rfl
    | with_reducible rfl
    | simp only [keeps_lit]
    | (with_reducible refine keeps_mk ?_ rfl rfl rfl ?_ ?_ ?_ ?_ ?_ ?_ ?_ ?_ ?_ ?_ ?_ ?_ ?_ ?_ ?_ ?_ ?_ ?_ ?_ ?_ ?_)

theorem keeps_closeSession (s : State) (a1) (hF : [.regs, .od] ⊆ F) (hs : Keeps F z s) :
    Keeps F z (State.closeSession s a1) := by
  unfold State.closeSession
  repeat' first
    | with_reducible assumption
    | with_reducible apply keeps_setSessions

theorem keeps_addSession (s : State) (a1) (a2) (a3) (hF : [.regs, .od] ⊆ F) (hs : Keeps F z s) :
    Keeps F z (State.addSession s a1 a2 a3) := by
  unfold State.addSession
  repeat' first
    | with_reducible assumption
    | with_reducible apply keeps_setSessions
    | exact List.Subset.trans (by decide) hF
    | exact Or.inl (hF (by decide))
    | with_reducible exact Or.inr rfl
    | with_reducible rfl
    | simp only [keeps_lit]
    | (with_reducible refine keeps_mk ?_ rfl rfl rfl ?_ ?_ ?_ ?_ ?_ ?_ ?_ ?_ ?_ ?_ ?_ ?_ ?_ ?_ ?_ ?_ ?_ ?_ ?_ ?_ ?_)

theorem keeps_storeWrite (s : State) (a1) (hF : [.regs, .od] ⊆ F) (hs : Keeps F z s) :
    Keeps F z (State.storeWrite s a1).1 := by
  unfold State.storeWrite
  repeat' first
    | with_reducible assumption
    | with_reducible apply keeps_fails
    | with_reducible refine keeps_fst (keeps_fails _ _ ?_) (by assumption)
    | with_reducible apply keeps_wrote
    | with_reducible refine keeps_fst (keeps_wrote _ ?_) (by assumption)
    | with_reducible apply keeps_put
    | exact List.Subset.trans (by decide) hF
    | exact Or.inl (hF (by decide))
    | with_reducible exact Or.inr rfl
    | with_reducible rfl
    | simp only [keeps_lit]
    | (with_reducible refine keeps_mk ?_ rfl rfl rfl ?_ ?_ ?_ ?_ ?_ ?_ ?_ ?_ ?_ ?_ ?_ ?_ ?_ ?_ ?_ ?_ ?_ ?_ ?_ ?_ ?_)
    | exact Or.inr rfl
    | rfl
    | with_reducible apply keeps_ite
    | with_reducible apply keeps_ite_fst
    | (intro _)
    | with_reducible apply keeps_foldl
    | with_reducible apply keeps_foldl_fst
    | with_reducible apply keeps_optmap
    | split

theorem keeps_mergeWrite (s : State) (a1) (a2) (a3) (hF : allParts ⊆ F) (hs : Keeps F z s) :
    Keeps F z (State.mergeWrite s a1 a2 a3).1 := by
  unfold State.mergeWrite
  repeat' first
    | with_reducible assumption
    | with_reducible apply keeps_regWrite
    | with_reducible refine keeps_fst (keeps_regWrite _ _ _ _ ?_ ?_) (by assumption)
    | exact List.Subset.trans (by decide) hF
    | with_reducible apply keeps_ite
    | with_reducible apply keeps_ite_fst
    | (intro _)
    | with_reducible apply keeps_foldl
    | with_reducible apply keeps_foldl_fst
    | with_reducible apply keeps_optmap
    | split

theorem keeps_comm (s : State) (a1) (a2) (hF : allParts ⊆ F) (hs : Keeps F z s) :
    Keeps F z (State.comm s a1 a2).1 := by
  unfold State.comm
  repeat' first
    | with_reducible assumption
    | with_reducible apply keeps_fails
    | with_reducible refine keeps_fst (keeps_fails _ _ ?_) (by assumption)
    | with_reducible apply keeps_reads
    | with_reducible refine keeps_fst (keeps_reads _ _ ?_) (by assumption)
    | with_reducible apply keeps_storeWrite
    | with_reducible refine keeps_fst (keeps_storeWrite _ _ ?_ ?_) (by assumption)
    | with_reducible apply keeps_mergeWrite
    | with_reducible refine keeps_fst (keeps_mergeWrite _ _ _ _ ?_ ?_) (by assumption)
    | exact List.Subset.trans (by decide) hF
    | with_reducible apply keeps_ite
    | with_reducible apply keeps_ite_fst
    | (intro _)
    | with_reducible apply keeps_foldl
    | with_reducible apply keeps_foldl_fst
    | with_reducible apply keeps_optmap
    | split

theorem keeps_cellObject (s : State) (a1) (a2) (hF : [.od] ⊆ F) (hs : Keeps F z s) :
    Keeps F z (State.cellObject s a1 a2).1 := by
  unfold State.cellObject
  repeat' first
    | with_reducible assumption
    | with_reducible apply keeps_reads
    | with_reducible refine keeps_fst (keeps_reads _ _ ?_) (by assumption)
    | with_reducible apply keeps_fails
    | with_reducible refine keeps_fst (keeps_fails _ _ ?_) (by assumption)
    | with_reducible apply keeps_wrote
    | with_reducible refine keeps_fst (keeps_wrote _ ?_) (by assumption)
    | with_reducible apply keeps_putSession
    | exact List.Subset.trans (by decide) hF
    | with_reducible apply keeps_ite
    | with_reducible apply keeps_ite_fst
    | (intro _)
    | with_reducible apply keeps_foldl
    | with_reducible apply keeps_foldl_fst
    | with_reducible apply keeps_optmap
    | split

theorem keeps_domain (s : State) (a1) (hF : [.mem] ⊆ F) (hs : Keeps F z s) :
    Keeps F z (State.domain s a1).1 := by
  unfold State.domain
  repeat' first
    | with_reducible assumption
    | with_reducible apply keeps_fails
    | with_reducible refine keeps_fst (keeps_fails _ _ ?_) (by assumption)
    | with_reducible apply keeps_wrote
    | with_reducible refine keeps_fst (keeps_wrote _ ?_) (by assumption)
    | with_reducible apply keeps_storeBytes
    | with_reducible apply keeps_reads
    | with_reducible refine keeps_fst (keeps_reads _ _ ?_) (by assumption)
    | exact List.Subset.trans (by decide) hF
    | with_reducible apply keeps_ite
    | with_reducible apply keeps_ite_fst
    | (intro _)
    | with_reducible apply keeps_foldl
    | with_reducible apply keeps_foldl_fst
    | with_reducible apply keeps_optmap
    | split

theorem keeps_wordsAccess (s : State) (a1) (a2) (a3) (a4) (a5) (hF : [.ctl, .tie, .tim] ⊆ F) (hs : Keeps F z s) :
    Keeps F z (State.wordsAccess s a1 a2 a3 a4 a5).1 := by
  unfold State.wordsAccess
  repeat' first
    | with_reducible assumption
    | with_reducible apply keeps_fails
    | with_reducible refine keeps_fst (keeps_fails _ _ ?_) (by assumption)
    | with_reducible apply keeps_readWhole
    | with_reducible refine keeps_snd (keeps_readWhole _ _ ?_ ?_) (by assumption)
    | with_reducible apply keeps_reads
    | with_reducible refine keeps_fst (keeps_reads _ _ ?_) (by assumption)
    | with_reducible apply keeps_coefWrite
    | with_reducible refine keeps_fst (keeps_coefWrite _ _ _ _ _ ?_ ?_) (by assumption)
    | with_reducible apply keeps_mirror
    | exact List.Subset.trans (by decide) hF
    | with_reducible apply keeps_ite
    | with_reducible apply keeps_ite_fst
    | (intro _)
    | with_reducible apply keeps_foldl
    | with_reducible apply keeps_foldl_fst
    | with_reducible apply keeps_optmap
    | split

theorem keeps_ownAccess (s : State) (a1) (a2) (a3) (a4) (hF : allParts ⊆ F) (hs : Keeps F z s) :
    Keeps F z (State.ownAccess s a1 a2 a3 a4).1 := by
  unfold State.ownAccess
  repeat' first
    | with_reducible assumption
    | with_reducible apply keeps_fails
    | with_reducible refine keeps_fst (keeps_fails _ _ ?_) (by assumption)
    | with_reducible apply keeps_readWhole
    | with_reducible refine keeps_snd (keeps_readWhole _ _ ?_ ?_) (by assumption)
    | with_reducible apply keeps_wrote
    | with_reducible refine keeps_fst (keeps_wrote _ ?_) (by assumption)
    | with_reducible apply keeps_putSession
    | with_reducible apply keeps_mergeWrite
    | with_reducible refine keeps_fst (keeps_mergeWrite _ _ _ _ ?_ ?_) (by assumption)
    | exact List.Subset.trans (by decide) hF
    | with_reducible apply keeps_ite
    | with_reducible apply keeps_ite_fst
    | (intro _)
    | with_reducible apply keeps_foldl
    | with_reducible apply keeps_foldl_fst
    | with_reducible apply keeps_optmap
    | split

theorem keeps_askAccess (s : State) (a1) (a2) (hF : [.draws, .regs, .sent, .ports] ⊆ F) (hs : Keeps F z s) :
    Keeps F z (State.askAccess s a1 a2).1 := by
  unfold State.askAccess
  repeat' first
    | with_reducible assumption
    | with_reducible apply keeps_fails
    | with_reducible refine keeps_fst (keeps_fails _ _ ?_) (by assumption)
    | with_reducible apply keeps_ask
    | exact List.Subset.trans (by decide) hF
    | with_reducible apply keeps_ite
    | with_reducible apply keeps_ite_fst
    | (intro _)
    | with_reducible apply keeps_foldl
    | with_reducible apply keeps_foldl_fst
    | with_reducible apply keeps_optmap
    | split

theorem keeps_cellAccess (s : State) (a1) (a2) (a3) (a4) (a5) (a6) (hF : [.draws, .regs, .sent, .ports, .od] ⊆ F) (hs : Keeps F z s) :
    Keeps F z (State.cellAccess s a1 a2 a3 a4 a5 a6).1 := by
  unfold State.cellAccess
  repeat' first
    | with_reducible assumption
    | with_reducible apply keeps_fails
    | with_reducible refine keeps_fst (keeps_fails _ _ ?_) (by assumption)
    | with_reducible apply keeps_askAccess
    | with_reducible refine keeps_fst (keeps_askAccess _ _ _ ?_ ?_) (by assumption)
    | with_reducible apply keeps_wrote
    | with_reducible refine keeps_fst (keeps_wrote _ ?_) (by assumption)
    | with_reducible apply keeps_putSession
    | with_reducible apply keeps_put
    | with_reducible apply keeps_forL
    | with_reducible apply keeps_ask
    | exact List.Subset.trans (by decide) hF
    | with_reducible apply keeps_ite
    | with_reducible apply keeps_ite_fst
    | (intro _)
    | with_reducible apply keeps_foldl
    | with_reducible apply keeps_foldl_fst
    | with_reducible apply keeps_optmap
    | split

theorem keeps_cellEnded (s : State) (a1) (a2) (a3) (a4) (hF : [.regs, .od] ⊆ F) (hs : Keeps F z s) :
    Keeps F z (State.cellEnded s a1 a2 a3 a4).1 := by
  unfold State.cellEnded
  repeat' first
    | with_reducible assumption
    | with_reducible apply keeps_fails
    | with_reducible refine keeps_fst (keeps_fails _ _ ?_) (by assumption)
    | with_reducible apply keeps_when
    | with_reducible apply keeps_setReplay
    | with_reducible apply keeps_wrote
    | with_reducible refine keeps_fst (keeps_wrote _ ?_) (by assumption)
    | exact List.Subset.trans (by decide) hF
    | exact Or.inl (hF (by decide))
    | with_reducible exact Or.inr rfl
    | with_reducible rfl
    | simp only [keeps_lit]
    | (with_reducible refine keeps_mk ?_ rfl rfl rfl ?_ ?_ ?_ ?_ ?_ ?_ ?_ ?_ ?_ ?_ ?_ ?_ ?_ ?_ ?_ ?_ ?_ ?_ ?_ ?_ ?_)
    | exact Or.inr rfl
    | rfl
    | with_reducible apply keeps_ite
    | with_reducible apply keeps_ite_fst
    | (intro _)
    | with_reducible apply keeps_foldl
    | with_reducible apply keeps_foldl_fst
    | with_reducible apply keeps_optmap
    | split

theorem keeps_windowAccess (s : State) (a1) (a2) (a3) (a4) (a5) (hF : allParts ⊆ F) (hs : Keeps F z s) :
    Keeps F z (State.windowAccess s a1 a2 a3 a4 a5).1 := by
  unfold State.windowAccess
  repeat' first
    | with_reducible assumption
    | with_reducible apply keeps_fails
    | with_reducible refine keeps_fst (keeps_fails _ _ ?_) (by assumption)
    | with_reducible apply keeps_ownAccess
    | with_reducible refine keeps_fst (keeps_ownAccess _ _ _ _ _ ?_ ?_) (by assumption)
    | with_reducible apply keeps_wr
    | exact List.Subset.trans (by decide) hF
    | with_reducible apply keeps_ite
    | with_reducible apply keeps_ite_fst
    | (intro _)

theorem keeps_fieldAccess (s : State) (a1) (a2) (a3) (hF : allParts ⊆ F) (hs : Keeps F z s) :
    Keeps F z (State.fieldAccess s a1 a2 a3).1 := by
  unfold State.fieldAccess
  repeat' first
    | with_reducible assumption
    | with_reducible apply keeps_wordsAccess
    | with_reducible refine keeps_fst (keeps_wordsAccess _ _ _ _ _ _ ?_ ?_) (by assumption)
    | with_reducible apply keeps_fails
    | with_reducible refine keeps_fst (keeps_fails _ _ ?_) (by assumption)
    | with_reducible apply keeps_cellAccess
    | with_reducible refine keeps_fst (keeps_cellAccess _ _ _ _ _ _ _ ?_ ?_) (by assumption)
    | with_reducible apply keeps_windowAccess
    | with_reducible refine keeps_fst (keeps_windowAccess _ _ _ _ _ _ ?_ ?_) (by assumption)
    | with_reducible apply keeps_ownAccess
    | with_reducible refine keeps_fst (keeps_ownAccess _ _ _ _ _ ?_ ?_) (by assumption)
    | exact List.Subset.trans (by decide) hF
    | with_reducible apply keeps_ite
    | with_reducible apply keeps_ite_fst
    | (intro _)
    | with_reducible apply keeps_foldl
    | with_reducible apply keeps_foldl_fst
    | with_reducible apply keeps_optmap
    | split
    | (dsimp only; split)

theorem keeps_glothal (s : State) (a1) (a2) (a3) (hF : allParts ⊆ F) (hs : Keeps F z s) :
    Keeps F z (State.glothal s a1 a2 a3).1 := by
  unfold State.glothal
  repeat' first
    | with_reducible assumption
    | with_reducible apply keeps_cellObject
    | with_reducible refine keeps_fst (keeps_cellObject _ _ _ ?_ ?_) (by assumption)
    | with_reducible apply keeps_fails
    | with_reducible refine keeps_fst (keeps_fails _ _ ?_) (by assumption)
    | with_reducible apply keeps_domain
    | with_reducible refine keeps_fst (keeps_domain _ _ ?_ ?_) (by assumption)
    | with_reducible apply keeps_reads
    | with_reducible refine keeps_fst (keeps_reads _ _ ?_) (by assumption)
    | with_reducible apply keeps_wrote
    | with_reducible refine keeps_fst (keeps_wrote _ ?_) (by assumption)
    | with_reducible apply keeps_putSession
    | with_reducible apply keeps_fieldAccess
    | with_reducible refine keeps_fst (keeps_fieldAccess _ _ _ _ ?_ ?_) (by assumption)
    | exact List.Subset.trans (by decide) hF
    | with_reducible apply keeps_ite
    | with_reducible apply keeps_ite_fst
    | (intro _)
    | with_reducible apply keeps_foldl
    | with_reducible apply keeps_foldl_fst
    | with_reducible apply keeps_optmap
    | split

theorem keeps_access (s : State) (a1) (a2) (a3) (hF : allParts ⊆ F) (hs : Keeps F z s) :
    Keeps F z (State.access s a1 a2 a3).1 := by
  unfold State.access
  repeat' first
    | with_reducible assumption
    | with_reducible apply keeps_fails
    | with_reducible refine keeps_fst (keeps_fails _ _ ?_) (by assumption)
    | with_reducible apply keeps_comm
    | with_reducible refine keeps_fst (keeps_comm _ _ _ ?_ ?_) (by assumption)
    | with_reducible apply keeps_glothal
    | with_reducible refine keeps_fst (keeps_glothal _ _ _ _ ?_ ?_) (by assumption)
    | exact List.Subset.trans (by decide) hF
    | with_reducible apply keeps_ite
    | with_reducible apply keeps_ite_fst
    | (intro _)

theorem keeps_putJob (s : State) (a1) (hF : [.od] ⊆ F) (hs : Keeps F z s) :
    Keeps F z (State.putJob s a1) := by
  unfold State.putJob
  repeat' first
    | with_reducible assumption
    | exact List.Subset.trans (by decide) hF
    | exact Or.inl (hF (by decide))
    | with_reducible exact Or.inr rfl
    | with_reducible rfl
    | simp only [keeps_lit]
    | (with_reducible refine keeps_mk ?_ rfl rfl rfl ?_ ?_ ?_ ?_ ?_ ?_ ?_ ?_ ?_ ?_ ?_ ?_ ?_ ?_ ?_ ?_ ?_ ?_ ?_ ?_ ?_)

theorem keeps_dropJob (s : State) (a1) (hF : [.od] ⊆ F) (hs : Keeps F z s) :
    Keeps F z (State.dropJob s a1) := by
  unfold State.dropJob
  repeat' first
    | with_reducible assumption
    | exact List.Subset.trans (by decide) hF
    | exact Or.inl (hF (by decide))
    | with_reducible exact Or.inr rfl
    | with_reducible rfl
    | simp only [keeps_lit]
    | (with_reducible refine keeps_mk ?_ rfl rfl rfl ?_ ?_ ?_ ?_ ?_ ?_ ?_ ?_ ?_ ?_ ?_ ?_ ?_ ?_ ?_ ?_ ?_ ?_ ?_ ?_ ?_)

theorem keeps_addJob (s : State) (a1) (a2) (a3) (a4) (a5) (hF : [.od] ⊆ F) (hs : Keeps F z s) :
    Keeps F z (State.addJob s a1 a2 a3 a4 a5) := by
  unfold State.addJob
  repeat' first
    | with_reducible assumption
    | exact List.Subset.trans (by decide) hF
    | exact Or.inl (hF (by decide))
    | with_reducible exact Or.inr rfl
    | with_reducible rfl
    | simp only [keeps_lit]
    | (with_reducible refine keeps_mk ?_ rfl rfl rfl ?_ ?_ ?_ ?_ ?_ ?_ ?_ ?_ ?_ ?_ ?_ ?_ ?_ ?_ ?_ ?_ ?_ ?_ ?_ ?_ ?_)

theorem keeps_respond (s : State) (a1) (a2) (a3) (a4) (a5) (a6) (hF : [.sent, .od] ⊆ F) (hs : Keeps F z s) :
    Keeps F z (State.respond s a1 a2 a3 a4 a5 a6) := by
  unfold State.respond
  repeat' first
    | with_reducible assumption
    | with_reducible apply keeps_send
    | with_reducible apply keeps_when
    | with_reducible apply keeps_putSession
    | exact List.Subset.trans (by decide) hF
    | with_reducible apply keeps_ite
    | (intro _)

theorem keeps_answerOut (s : State) (a1) (a2) (hF : [.regs, .sent, .od] ⊆ F) (hs : Keeps F z s) :
    Keeps F z (State.answerOut s a1 a2) := by
  unfold State.answerOut
  repeat' first
    | with_reducible assumption
    | with_reducible apply keeps_dropJob
    | with_reducible apply keeps_forL
    | with_reducible apply keeps_send
    | with_reducible apply keeps_respond
    | with_reducible apply keeps_when
    | with_reducible apply keeps_closeSession
    | with_reducible apply keeps_sendAccord
    | exact List.Subset.trans (by decide) hF
    | with_reducible apply keeps_ite
    | (intro _)
    | with_reducible apply keeps_foldl
    | with_reducible apply keeps_foldl_fst
    | with_reducible apply keeps_optmap
    | split

theorem keeps_sendOdreq (s : State) (a1) (a2) (a3) (a4) (a5) (a6) (hF : [.sent, .od] ⊆ F) (hs : Keeps F z s) :
    Keeps F z (State.sendOdreq s a1 a2 a3 a4 a5 a6) := by
  unfold State.sendOdreq
  repeat' first
    | with_reducible assumption
    | with_reducible apply keeps_putJob
    | with_reducible apply keeps_sendAccord
    | exact List.Subset.trans (by decide) hF
    | exact Or.inl (hF (by decide))
    | with_reducible exact Or.inr rfl
    | with_reducible rfl
    | simp only [keeps_lit]
    | (with_reducible refine keeps_mk ?_ rfl rfl rfl ?_ ?_ ?_ ?_ ?_ ?_ ?_ ?_ ?_ ?_ ?_ ?_ ?_ ?_ ?_ ?_ ?_ ?_ ?_ ?_ ?_)

theorem keeps_nextAccess (s : State) (a1) (a2) (a3) (hF : allParts ⊆ F) (hs : Keeps F z s) :
    Keeps F z (State.nextAccess s a1 a2 a3) := by
  unfold State.nextAccess
  repeat' first
    | with_reducible assumption
    | with_reducible apply keeps_putJob
    | with_reducible apply keeps_sendOdreq
    | with_reducible apply keeps_access
    | with_reducible refine keeps_fst (keeps_access _ _ _ _ ?_ ?_) (by assumption)
    | exact List.Subset.trans (by decide) hF
    | with_reducible apply keeps_ite
    | (intro _)
    | with_reducible apply keeps_foldl
    | with_reducible apply keeps_foldl_fst
    | with_reducible apply keeps_optmap
    | split

theorem keeps_takeMail (s : State) (a1) (a2) (a3) (a4) (a5) (a6) (hF : [.regs, .od] ⊆ F) (hs : Keeps F z s) :
    Keeps F z (State.takeMail s a1 a2 a3 a4 a5 a6) := by
  unfold State.takeMail
  repeat' first
    | with_reducible assumption
    | with_reducible apply keeps_putJob
    | with_reducible apply keeps_cellEnded
    | with_reducible refine keeps_fst (keeps_cellEnded _ _ _ _ _ ?_ ?_) (by assumption)
    | exact List.Subset.trans (by decide) hF
    | exact Or.inl (hF (by decide))
    | with_reducible exact Or.inr rfl
    | with_reducible rfl
    | simp only [keeps_lit]
    | (with_reducible refine keeps_mk ?_ rfl rfl rfl ?_ ?_ ?_ ?_ ?_ ?_ ?_ ?_ ?_ ?_ ?_ ?_ ?_ ?_ ?_ ?_ ?_ ?_ ?_ ?_ ?_)
    | exact Or.inr rfl
    | rfl
    | with_reducible apply keeps_ite
    | (intro _)
    | with_reducible apply keeps_foldl
    | with_reducible apply keeps_foldl_fst
    | with_reducible apply keeps_optmap
    | split

theorem keeps_jobStep (s : State) (a1) (hF : allParts ⊆ F) (hs : Keeps F z s) :
    Keeps F z (State.jobStep s a1) := by
  unfold State.jobStep
  repeat' first
    | with_reducible assumption
    | with_reducible apply keeps_dropJob
    | with_reducible apply keeps_answerOut
    | with_reducible apply keeps_nextAccess
    | with_reducible apply keeps_takeMail
    | exact List.Subset.trans (by decide) hF
    | with_reducible apply keeps_ite
    | (intro _)
    | with_reducible apply keeps_foldl
    | with_reducible apply keeps_foldl_fst
    | with_reducible apply keeps_optmap
    | split

theorem keeps_odLoop (n : Nat) (s : State) (hF : allParts ⊆ F) (h : Keeps F z s) : Keeps F z (State.odLoop n s) := by
  induction n generalizing s with
  | zero => exact h
  | succ k ih =>
    unfold State.odLoop
    split
    · exact h
    · exact ih _ (keeps_jobStep _ _ (List.Subset.trans (by decide) hF) h)

theorem keeps_odRun (s : State) (hF : allParts ⊆ F) (hs : Keeps F z s) :
    Keeps F z (State.odRun s) := by
  unfold State.odRun
  repeat' first
    | with_reducible assumption
    | with_reducible apply keeps_odLoop

theorem keeps_openClient (s : State) (a1) (hF : [.regs, .od] ⊆ F) (hs : Keeps F z s) :
    ∀ t, (State.openClient s a1) = some t → Keeps F z t := by
  unfold State.openClient
  repeat' first
    | with_reducible assumption
    | with_reducible apply keeps_addSession
    | with_reducible apply keeps_setSessions
    | exact List.Subset.trans (by decide) hF
    | with_reducible apply keeps_ite
    | (show ∀ _ : State, _; split)
    | (intro t e; rw [← Option.some.inj e]; clear e t)
    | (intro t e; exact absurd e (by simp))

theorem keeps_single (s : State) (a1) (a2) (hF : allParts ⊆ F) (hs : Keeps F z s) :
    Keeps F z (State.single s a1 a2) := by
  unfold State.single
  repeat' first
    | with_reducible assumption
    | with_reducible refine keeps_openClient _ _ ?_ ?_ _ (by assumption)
    | with_reducible apply keeps_odRun
    | with_reducible apply keeps_addJob
    | with_reducible apply keeps_send
    | exact List.Subset.trans (by decide) hF
    | with_reducible apply keeps_ite
    | (intro _)
    | with_reducible apply keeps_foldl
    | with_reducible apply keeps_foldl_fst
    | with_reducible apply keeps_optmap
    | split

theorem keeps_sendNmt (s : State) (a1) (hF : [.sent] ⊆ F) (hs : Keeps F z s) :
    Keeps F z (State.sendNmt s a1) := by
  unfold State.sendNmt
  repeat' first
    | with_reducible assumption
    | with_reducible apply keeps_send

theorem keeps_badDatagram (s : State) (hF : [.regs] ⊆ F) (hs : Keeps F z s) :
    Keeps F z (State.badDatagram s) := by
  unfold State.badDatagram
  repeat' first
    | with_reducible assumption
    | with_reducible apply keeps_incMod

theorem keeps_sendBack (s : State) (a1) (a2) (hF : [.sent] ⊆ F) (hs : Keeps F z s) :
    Keeps F z (State.sendBack s a1 a2) := by
  unfold State.sendBack
  repeat' first
    | with_reducible assumption
    | with_reducible apply keeps_send

theorem keeps_withSession (s : State) (a1) (a2) (hF : [.regs, .sent] ⊆ F) (hs : Keeps F z s) (ha2 : ∀ x0 x1, Keeps F z x1 → Keeps F z (a2 x0 x1)) :
    Keeps F z (State.withSession s a1 a2) := by
  unfold State.withSession
  repeat' first
    | with_reducible assumption
    | with_reducible apply ha2
    | with_reducible apply keeps_badDatagram
    | with_reducible apply keeps_sendBack
    | exact List.Subset.trans (by decide) hF
    | with_reducible apply keeps_ite
    | (intro _)
    | with_reducible apply keeps_foldl
    | with_reducible apply keeps_foldl_fst
    | with_reducible apply keeps_optmap
    | split

theorem keeps_enterRequest (s : State) (a1) (a2) (a3) (a4) (a5) (hF : allParts ⊆ F) (hs : Keeps F z s) :
    Keeps F z (State.enterRequest s a1 a2 a3 a4 a5) := by
  unfold State.enterRequest
  repeat' first
    | with_reducible assumption
    | with_reducible apply keeps_odRun
    | with_reducible apply keeps_addJob
    | with_reducible apply keeps_putSession
    | exact List.Subset.trans (by decide) hF

theorem keeps_request (s : State) (a1) (a2) (a3) (a4) (a5) (hF : allParts ⊆ F) (hs : Keeps F z s) :
    Keeps F z (State.request s a1 a2 a3 a4 a5) := by
  unfold State.request
  repeat' first
    | with_reducible assumption
    | with_reducible apply keeps_sendBack
    | with_reducible apply keeps_enterRequest
    | exact List.Subset.trans (by decide) hF
    | with_reducible apply keeps_ite
    | (intro _)
    | with_reducible apply keeps_foldl
    | with_reducible apply keeps_foldl_fst
    | with_reducible apply keeps_optmap
    | split

theorem keeps_refuseOp (s : State) (a1) (a2) (hF : allParts ⊆ F) (hs : Keeps F z s) :
    Keeps F z (State.refuseOp s a1 a2) := by
  unfold State.refuseOp
  repeat' first
    | with_reducible assumption
    | with_reducible apply keeps_request

theorem keeps_hello (s : State) (a1) (hF : [.regs, .sent, .od] ⊆ F) (hs : Keeps F z s) :
    Keeps F z (State.hello s a1) := by
  unfold State.hello
  repeat' first
    | with_reducible assumption
    | with_reducible apply keeps_sendBack
    | with_reducible apply keeps_put
    | with_reducible apply keeps_wr
    | with_reducible apply keeps_addSession
    | exact List.Subset.trans (by decide) hF
    | with_reducible apply keeps_ite
    | (intro _)
    | with_reducible apply keeps_foldl
    | with_reducible apply keeps_foldl_fst
    | with_reducible apply keeps_optmap
    | split
    | (dsimp only; split)

theorem keeps_readWrite (s : State) (a1) (a2) (hF : allParts ⊆ F) (hs : Keeps F z s) :
    Keeps F z (State.readWrite s a1 a2) := by
  unfold State.readWrite
  repeat' first
    | with_reducible assumption
    | with_reducible apply keeps_request
    | exact List.Subset.trans (by decide) hF
    | with_reducible apply keeps_ite
    | (intro _)

theorem keeps_domainRequest (s : State) (a1) (a2) (hF : allParts ⊆ F) (hs : Keeps F z s) :
    Keeps F z (State.domainRequest s a1 a2) := by
  unfold State.domainRequest
  repeat' first
    | with_reducible assumption
    | with_reducible apply keeps_refuseOp
    | with_reducible apply keeps_request
    | exact List.Subset.trans (by decide) hF
    | with_reducible apply keeps_ite
    | (intro _)
    | with_reducible apply keeps_foldl
    | with_reducible apply keeps_foldl_fst
    | with_reducible apply keeps_optmap
    | split

theorem keeps_takeSetpoints (s : State) (a1) (a2) (hF : [.ctl] ⊆ F) (hs : Keeps F z s) :
    Keeps F z (State.takeSetpoints s a1 a2) := by
  unfold State.takeSetpoints
  repeat' first
    | with_reducible assumption
    | with_reducible apply keeps_forN
    | with_reducible apply keeps_when
    | exact List.Subset.trans (by decide) hF
    | exact Or.inl (hF (by decide))
    | with_reducible exact Or.inr rfl
    | with_reducible rfl
    | simp only [keeps_lit]
    | (with_reducible refine keeps_mk ?_ rfl rfl rfl ?_ ?_ ?_ ?_ ?_ ?_ ?_ ?_ ?_ ?_ ?_ ?_ ?_ ?_ ?_ ?_ ?_ ?_ ?_ ?_ ?_)
    | exact Or.inr rfl
    | rfl
    | with_reducible apply keeps_ite
    | (intro _)

theorem keeps_routedAnswer (s : State) (a1) (a2) (a3) (a4) (a5) (hF : [.od] ⊆ F) (hs : Keeps F z s) :
    Keeps F z (State.routedAnswer s a1 a2 a3 a4 a5).1 := by
  unfold State.routedAnswer
  repeat' first
    | with_reducible assumption
    | with_reducible apply keeps_putSession

theorem keeps_routedAnswers (s : State) (a1) (a2) (a3) (a4) (hF : [.od] ⊆ F) (hs : Keeps F z s) :
    Keeps F z (State.routedAnswers s a1 a2 a3 a4) := by
  unfold State.routedAnswers
  repeat' first
    | with_reducible assumption
    | with_reducible apply keeps_routedAnswer
    | with_reducible refine keeps_fst (keeps_routedAnswer _ _ _ _ _ _ ?_ ?_) (by assumption)
    | with_reducible apply keeps_putJob
    | exact List.Subset.trans (by decide) hF
    | with_reducible apply keeps_ite
    | (intro _)
    | with_reducible apply keeps_foldl
    | with_reducible apply keeps_foldl_fst

theorem keeps_storeEnds (s : State) (a1) (a2) (hF : [.regs, .od] ⊆ F) (hs : Keeps F z s) :
    Keeps F z (State.storeEnds s a1 a2) := by
  unfold State.storeEnds
  repeat' first
    | with_reducible assumption
    | with_reducible apply keeps_put
    | with_reducible apply keeps_when
    | with_reducible apply keeps_wr
    | with_reducible apply keeps_inc
    | with_reducible apply keeps_putJob
    | exact List.Subset.trans (by decide) hF
    | exact Or.inl (hF (by decide))
    | with_reducible exact Or.inr rfl
    | with_reducible rfl
    | simp only [keeps_lit]
    | (with_reducible refine keeps_mk ?_ rfl rfl rfl ?_ ?_ ?_ ?_ ?_ ?_ ?_ ?_ ?_ ?_ ?_ ?_ ?_ ?_ ?_ ?_ ?_ ?_ ?_ ?_ ?_)
    | exact Or.inr rfl
    | rfl
    | with_reducible apply keeps_ite
    | (intro _)
    | with_reducible apply keeps_foldl
    | with_reducible apply keeps_foldl_fst
    | with_reducible apply keeps_optmap
    | split

theorem keeps_takeWrite (s : State) (a1) (hF : allParts ⊆ F) (hs : Keeps F z s) :
    Keeps F z (State.takeWrite s a1) := by
  unfold State.takeWrite
  repeat' first
    | with_reducible assumption
    | with_reducible apply keeps_setCoef
    | with_reducible apply keeps_store32
    | with_reducible apply keeps_applyWrite
    | with_reducible refine keeps_fst (keeps_applyWrite _ _ _ _ _ _ ?_ ?_) (by assumption)
    | exact List.Subset.trans (by decide) hF
    | with_reducible apply keeps_ite
    | (intro _)
    | with_reducible apply keeps_foldl
    | with_reducible apply keeps_foldl_fst
    | with_reducible apply keeps_optmap
    | split

theorem keeps_takeImage (s : State) (a1) (hF : allParts ⊆ F) (hs : Keeps F z s) :
    Keeps F z (State.takeImage s a1) := by
  unfold State.takeImage
  repeat' first
    | with_reducible assumption
    | with_reducible apply keeps_takeWrite
    | with_reducible apply keeps_setWord
    | exact List.Subset.trans (by decide) hF
    | with_reducible apply keeps_ite
    | (intro _)
    | with_reducible apply keeps_foldl
    | with_reducible apply keeps_foldl_fst
    | with_reducible apply keeps_optmap
    | split

theorem keeps_applyMerge (s : State) (a1) (hF : [.ports] ⊆ F) (hs : Keeps F z s) :
    Keeps F z (State.applyMerge s a1) := by
  unfold State.applyMerge
  repeat' first
    | with_reducible assumption
    | with_reducible apply keeps_forN
    | with_reducible apply keeps_onPort
    | exact List.Subset.trans (by decide) hF
    | with_reducible apply keeps_ite
    | (intro _)

theorem keeps_takeInput (s : State) (a1) (hF : allParts ⊆ F) (hs : Keeps F z s) :
    Keeps F z (State.takeInput s a1) := by
  unfold State.takeInput
  repeat' first
    | with_reducible assumption
    | with_reducible apply keeps_bridgePeriod
    | with_reducible apply keeps_when
    | with_reducible apply keeps_applyMerge
    | with_reducible apply keeps_forL
    | with_reducible apply keeps_takeWrite
    | exact List.Subset.trans (by decide) hF
    | exact Or.inl (hF (by decide))
    | with_reducible exact Or.inr rfl
    | with_reducible rfl
    | simp only [keeps_lit]
    | (with_reducible refine keeps_mk ?_ rfl rfl rfl ?_ ?_ ?_ ?_ ?_ ?_ ?_ ?_ ?_ ?_ ?_ ?_ ?_ ?_ ?_ ?_ ?_ ?_ ?_ ?_ ?_)
    | exact Or.inr rfl
    | rfl
    | with_reducible apply keeps_ite
    | (intro _)

theorem keeps_takeLvlw (s : State) (a1) (a2) (hF : allParts ⊆ F) (hs : Keeps F z s) :
    Keeps F z (State.takeLvlw s a1 a2) := by
  unfold State.takeLvlw
  repeat' first
    | with_reducible assumption
    | with_reducible apply keeps_forL
    | with_reducible apply keeps_takeWrite
    | exact List.Subset.trans (by decide) hF
    | exact Or.inl (hF (by decide))
    | with_reducible exact Or.inr rfl
    | with_reducible rfl
    | simp only [keeps_lit]
    | (with_reducible refine keeps_mk ?_ rfl rfl rfl ?_ ?_ ?_ ?_ ?_ ?_ ?_ ?_ ?_ ?_ ?_ ?_ ?_ ?_ ?_ ?_ ?_ ?_ ?_ ?_ ?_)
    | exact Or.inr rfl
    | rfl
    | with_reducible apply keeps_ite
    | (intro _)

theorem keeps_followLayout (s : State) (hF : [.regs, .sys, .ctl, .lvl] ⊆ F) (h : Keeps F z s) : Keeps F z s.followLayout := by
  have hy : ∀ (u : State) (y : Sys), Keeps F z u → Keeps F z { u with sys := y } := fun u y h =>
    h.step .sys (hF (by decide)) rfl (by intro p hp; cases p <;> first | rfl | exact absurd rfl hp) id
  exact hy _ _ (hy _ _ (keeps_commit _ (List.Subset.trans (by decide) hF) h))

theorem keeps_powerOn (s : State) (hF : allParts ⊆ F) (hs : Keeps F z s) :
    Keeps F z (State.powerOn s) := by
  unfold State.powerOn
  repeat' first
    | with_reducible assumption
    | with_reducible apply keeps_wr
    | with_reducible apply keeps_put
    | with_reducible apply keeps_summarise
    | with_reducible apply keeps_driveYield
    | exact List.Subset.trans (by decide) hF
    | exact keeps_all hF hs rfl (fun c => ⟨mapWf_filter _ _ _ c.1, c.2.1, rfl⟩)

theorem keeps_restoreWord (s : State) (e : Nat × Nat) (hF : allParts ⊆ F) (h : Keeps F z s) : Keeps F z (s.restoreWord e) := by
  unfold State.restoreWord
  refine keeps_ite (fun _ => keeps_ite_fst (fun _ => keeps_coefWrite _ _ _ _ _ (List.Subset.trans (by decide) hF) h) fun _ => ?_)
    fun _ => keeps_put _ _ _ (List.Subset.trans (by decide) hF) h
  split
  · exact keeps_mergeWrite _ _ _ _ (List.Subset.trans (by decide) hF) h
  · exact h

theorem keeps_restoreCopy (s : State) (hF : allParts ⊆ F) (hs : Keeps F z s) :
    Keeps F z (State.restoreCopy s) := by
  unfold State.restoreCopy
  repeat' first
    | with_reducible assumption
    | with_reducible apply keeps_setReplay
    | with_reducible apply keeps_forL
    | with_reducible apply keeps_restoreWord
    | exact List.Subset.trans (by decide) hF
    | with_reducible apply keeps_ite
    | (intro _)
    | with_reducible apply keeps_foldl
    | with_reducible apply keeps_foldl_fst
    | with_reducible apply keeps_optmap
    | split

theorem keeps_eraseCopies (s : State) (hF : [.regs, .od] ⊆ F) (hs : Keeps F z s) :
    Keeps F z (State.eraseCopies s) := by
  unfold State.eraseCopies
  repeat' first
    | with_reducible assumption
    | with_reducible apply keeps_when
    | with_reducible apply keeps_put
    | with_reducible apply keeps_wr
    | exact List.Subset.trans (by decide) hF
    | exact Or.inl (hF (by decide))
    | with_reducible exact Or.inr rfl
    | with_reducible rfl
    | simp only [keeps_lit]
    | (with_reducible refine keeps_mk ?_ rfl rfl rfl ?_ ?_ ?_ ?_ ?_ ?_ ?_ ?_ ?_ ?_ ?_ ?_ ?_ ?_ ?_ ?_ ?_ ?_ ?_ ?_ ?_)
    | exact Or.inr rfl
    | rfl
    | with_reducible apply keeps_ite
    | (intro _)

theorem keeps_firmwareStarts (s : State) (hF : allParts ⊆ F) (hs : Keeps F z s) :
    Keeps F z (State.firmwareStarts s) := by
  unfold State.firmwareStarts
  repeat' first
    | with_reducible assumption
    | with_reducible apply keeps_restoreCopy
    | with_reducible apply keeps_eraseCopies
    | exact List.Subset.trans (by decide) hF
    | exact Or.inl (hF (by decide))
    | with_reducible exact Or.inr rfl
    | with_reducible rfl
    | simp only [keeps_lit]
    | (with_reducible refine keeps_mk ?_ rfl rfl rfl ?_ ?_ ?_ ?_ ?_ ?_ ?_ ?_ ?_ ?_ ?_ ?_ ?_ ?_ ?_ ?_ ?_ ?_ ?_ ?_ ?_)

theorem keeps_autoConfigure (s : State) (hF : [.regs, .sent, .sys] ⊆ F) (hs : Keeps F z s) :
    Keeps F z (State.autoConfigure s) := by
  unfold State.autoConfigure
  repeat' first
    | with_reducible assumption
    | with_reducible apply keeps_configureNow
    | with_reducible apply keeps_refuse
    | exact List.Subset.trans (by decide) hF
    | with_reducible apply keeps_ite
    | (intro _)

theorem keeps_enterSafeHold (s : State) (a1) (hF : allParts ⊆ F) (hs : Keeps F z s) :
    Keeps F z (State.enterSafeHold s a1) := by
  unfold State.enterSafeHold
  repeat' first
    | with_reducible assumption
    | with_reducible apply keeps_goto
    | with_reducible apply keeps_when
    | with_reducible apply keeps_put
    | with_reducible apply keeps_firmwareStarts
    | with_reducible apply keeps_driveYield
    | with_reducible apply keeps_changeRole
    | with_reducible apply keeps_causeIs
    | with_reducible apply keeps_forN
    | with_reducible apply keeps_sendNmt
    | with_reducible apply keeps_autoConfigure
    | exact List.Subset.trans (by decide) hF
    | exact Or.inl (hF (by decide))
    | with_reducible exact Or.inr rfl
    | with_reducible rfl
    | simp only [keeps_lit]
    | (with_reducible refine keeps_mk ?_ rfl rfl rfl ?_ ?_ ?_ ?_ ?_ ?_ ?_ ?_ ?_ ?_ ?_ ?_ ?_ ?_ ?_ ?_ ?_ ?_ ?_ ?_ ?_)
    | exact Or.inr rfl
    | rfl
    | with_reducible apply keeps_ite
    | (intro _)

theorem keeps_testEnds (s : State) (hF : [.regs, .sent, .sys] ⊆ F) (hs : Keeps F z s) :
    Keeps F z (State.testEnds s) := by
  unfold State.testEnds
  repeat' first
    | with_reducible assumption
    | with_reducible apply keeps_wr
    | with_reducible apply keeps_put
    | with_reducible apply keeps_driveYield
    | with_reducible apply keeps_goto
    | exact List.Subset.trans (by decide) hF
    | exact Or.inl (hF (by decide))
    | with_reducible exact Or.inr rfl
    | with_reducible rfl
    | simp only [keeps_lit]
    | (with_reducible refine keeps_mk ?_ rfl rfl rfl ?_ ?_ ?_ ?_ ?_ ?_ ?_ ?_ ?_ ?_ ?_ ?_ ?_ ?_ ?_ ?_ ?_ ?_ ?_ ?_ ?_)
    | exact Or.inr rfl
    | rfl
    | with_reducible apply keeps_ite
    | (intro _)

theorem keeps_writeReport (s : State) (a1) (hF : [.regs] ⊆ F) (hs : Keeps F z s) :
    Keeps F z (State.writeReport s a1) := by
  unfold State.writeReport
  repeat' first
    | with_reducible assumption
    | with_reducible apply keeps_setWord
    | with_reducible apply keeps_put
    | with_reducible apply keeps_wr

theorem keeps_reach (s : State) (a1) (hF : [.now, .regs, .sent, .tim] ⊆ F) (hs : Keeps F z s) :
    Keeps F z (State.reach s a1) := by
  unfold State.reach
  repeat' first
    | with_reducible assumption
    | with_reducible apply keeps_when
    | with_reducible apply keeps_secondPassed
    | exact List.Subset.trans (by decide) hF
    | exact Or.inl (hF (by decide))
    | with_reducible exact Or.inr rfl
    | with_reducible rfl
    | simp only [keeps_lit]
    | (with_reducible refine keeps_mk ?_ rfl rfl rfl ?_ ?_ ?_ ?_ ?_ ?_ ?_ ?_ ?_ ?_ ?_ ?_ ?_ ?_ ?_ ?_ ?_ ?_ ?_ ?_ ?_)
    | exact Or.inr rfl
    | rfl
    | with_reducible apply keeps_ite
    | (intro _)

theorem keeps_tick (s : State) (hF : [.now, .nowFrac, .regs, .sent, .tim] ⊆ F) (hs : Keeps F z s) :
    Keeps F z (State.tick s) := by
  unfold State.tick
  repeat' first
    | with_reducible assumption
    | with_reducible apply keeps_reach
    | exact List.Subset.trans (by decide) hF
    | exact Or.inl (hF (by decide))
    | with_reducible exact Or.inr rfl
    | with_reducible rfl
    | simp only [keeps_lit]
    | (with_reducible refine keeps_mk ?_ rfl rfl rfl ?_ ?_ ?_ ?_ ?_ ?_ ?_ ?_ ?_ ?_ ?_ ?_ ?_ ?_ ?_ ?_ ?_ ?_ ?_ ?_ ?_)
    | exact Or.inr rfl
    | rfl
    | with_reducible apply keeps_ite
    | (intro _)

theorem keeps_dropLaunches (s : State) (a1) (hF : [.regs, .sent, .sys, .tie, .flt, .acq, .mem] ⊆ F) (hs : Keeps F z s) :
    Keeps F z (State.dropLaunches s a1) := by
  unfold State.dropLaunches
  repeat' first
    | with_reducible assumption
    | with_reducible apply keeps_when
    | with_reducible apply keeps_raise
    | with_reducible apply keeps_inc
    | exact List.Subset.trans (by decide) hF
    | with_reducible apply keeps_ite
    | (intro _)

theorem keeps_portBoundary (s : State) (a1) (hF : [.regs, .sent, .sys, .ports, .tie, .flt, .acq, .mem] ⊆ F) (hs : Keeps F z s) :
    Keeps F z (State.portBoundary s a1) := by
  unfold State.portBoundary
  repeat' first
    | with_reducible assumption
    | with_reducible apply keeps_dropLaunches
    | with_reducible apply keeps_onPort
    | exact List.Subset.trans (by decide) hF

theorem keeps_dropSillage (s : State) (hF : [.lvl] ⊆ F) (hs : Keeps F z s) :
    Keeps F z (State.dropSillage s) := by
  unfold State.dropSillage
  repeat' first
    | with_reducible assumption
    | with_reducible apply keeps_forL
    | with_reducible apply keeps_onView
    | exact List.Subset.trans (by decide) hF
    | with_reducible apply keeps_ite
    | (intro _)

theorem keeps_followPartner (s : State) (a1) (hF : [.draws, .regs, .sent, .sys, .ctl, .ports, .lvl, .tie, .acq, .mem] ⊆ F) (hs : Keeps F z s) :
    Keeps F z (State.followPartner s a1) := by
  unfold State.followPartner
  repeat' first
    | with_reducible assumption
    | with_reducible apply keeps_deenergiseNow
    | with_reducible apply keeps_configureNow
    | with_reducible apply keeps_faultBlock
    | with_reducible apply keeps_goto
    | with_reducible apply keeps_settled
    | with_reducible apply keeps_endDry
    | with_reducible apply keeps_followLayout
    | with_reducible apply keeps_nextEpoch
    | with_reducible apply keeps_enterLevels
    | with_reducible apply keeps_initEngine
    | with_reducible apply keeps_when
    | with_reducible apply keeps_startJoining
    | exact List.Subset.trans (by decide) hF
    | with_reducible apply keeps_ite
    | (intro _)

theorem keeps_openPeriod (s : State) (a1) (a2) (a3) (hF : allParts ⊆ F) (hs : Keeps F z s) :
    Keeps F z (State.openPeriod s a1 a2 a3) := by
  unfold State.openPeriod
  repeat' first
    | with_reducible assumption
    | with_reducible apply keeps_sampleInputs
    | with_reducible apply keeps_syncBoundary
    | with_reducible apply keeps_accordBoundary
    | with_reducible apply keeps_tieBoundary
    | with_reducible apply keeps_dryBoundary
    | with_reducible apply keeps_dryExpire
    | with_reducible apply keeps_pendingBoundary
    | with_reducible apply keeps_followPartner
    | with_reducible apply keeps_when
    | with_reducible apply keeps_restoreBounds
    | with_reducible apply keeps_forN
    | with_reducible apply keeps_portBoundary
    | with_reducible apply keeps_dropSillage
    | exact List.Subset.trans (by decide) hF
    | exact Or.inl (hF (by decide))
    | with_reducible exact Or.inr rfl
    | with_reducible rfl
    | simp only [keeps_lit]
    | (with_reducible refine keeps_mk ?_ rfl rfl rfl ?_ ?_ ?_ ?_ ?_ ?_ ?_ ?_ ?_ ?_ ?_ ?_ ?_ ?_ ?_ ?_ ?_ ?_ ?_ ?_ ?_)
    | exact Or.inr rfl
    | rfl
    | with_reducible apply keeps_ite
    | (intro _)
    | with_reducible apply keeps_foldl
    | with_reducible apply keeps_foldl_fst
    | with_reducible apply keeps_optmap
    | split

theorem keeps_nextPeriod (s : State) (hF : [.now, .regs, .sent, .sys, .tim] ⊆ F) (hs : Keeps F z s) :
    Keeps F z (State.nextPeriod s) := by
  unfold State.nextPeriod
  repeat' first
    | with_reducible assumption
    | with_reducible apply keeps_beginPeriod
    | with_reducible apply keeps_reach
    | exact List.Subset.trans (by decide) hF
    | exact Or.inl (hF (by decide))
    | with_reducible exact Or.inr rfl
    | with_reducible rfl
    | simp only [keeps_lit]
    | (with_reducible refine keeps_mk ?_ rfl rfl rfl ?_ ?_ ?_ ?_ ?_ ?_ ?_ ?_ ?_ ?_ ?_ ?_ ?_ ?_ ?_ ?_ ?_ ?_ ?_ ?_ ?_)

theorem keeps_boundary (s : State) (a1) (a2) (hF : allParts ⊆ F) (hs : Keeps F z s) :
    Keeps F z (State.boundary s a1 a2) := by
  unfold State.boundary
  repeat' first
    | with_reducible assumption
    | with_reducible apply keeps_openPeriod
    | with_reducible apply keeps_nextPeriod
    | with_reducible apply keeps_energiseDue
    | with_reducible apply keeps_reach
    | exact List.Subset.trans (by decide) hF
    | with_reducible apply keeps_ite
    | (intro _)
    | with_reducible apply keeps_foldl
    | with_reducible apply keeps_foldl_fst
    | with_reducible apply keeps_optmap
    | split

end Sys2Proof.Machine
end

