-- ==== Sys2Proof/Tests/Slice0.lean ====
section
/-! SUPPORT. The author's own tests: the checks of WellFormed, hand-computed results of the spec, and a witness for the
hypotheses of each obligation. -/

set_option linter.unusedVariables false
set_option Elab.async false

namespace Sys2Proof.Tests

open Machine

/-- The state after reset with the state code `n`, in the SOLO role: the start of most witnesses. -/
def inState (n : Nat) : State := (State.reset.wr R.DEV_STATE_STATE n).wr R.DEV_STATE_ROLE Role.solo

/-- A cell like a fresh one with the mode `m`. -/
def cellIn (m : Nat) : Cell := { Cell.reset with mode := m, down := false }

/-! ### The checks of WellFormed: an ill-formed command for each -/

theorem wf_cell : Instr.wf (.cellBoundary 0x1FE0) = false := by decide
theorem wf_cell_depth : Instr.wf (.cellBoundary 0xA0000) = false := by decide
theorem wf_cell_above : Instr.wf (.cellBoundary 0x100000) = false := by decide
theorem wf_cell_good : Instr.wf (.cellBoundary 0x310080) = true := by decide
theorem wf_link : Instr.wf (.blockLock (.cell 0x60 0)) = false := by decide
theorem wf_strand : Instr.wf (.collectionFrameReceived 0 [0#8]) = false := by decide
theorem wf_tie : Instr.wf (.sweep 0 [0#8]) = false := by decide
theorem wf_accord : Instr.wf (.agg 0 []) = false := by decide
theorem wf_samples : Instr.wf (.periodBoundary ⟨List.replicate 9 [], []⟩ none) = false := by decide
theorem wf_datagram : Instr.wf (.telegramReceived (.ethernet 0 0) []) = false := by decide
theorem wf_canTelegram : Instr.wf (.telegramReceived (.can 0 0x800 false) (List.replicate 48 0#8)) = false := by decide
theorem wf_found : Instr.wf (.paramSetPoll (some [(2, 0)])) = false := by decide
theorem wf_payload : Instr.wf (.paramStage 0 []) = false := by decide
theorem wf_advance : Instr.wf (.snapshotGo []) = false := by decide
theorem wf_ratios : Instr.wf (.ageingMeasure [0]) = false := by decide
theorem wf_events : Instr.wf (.faultSourceRaise []) = false := by decide
theorem wf_svn : Instr.wf (.secureStartEnd ⟨true, 0, 0, 0, 0, 0, 0, List.replicate 10 0⟩) = false := by decide
theorem wf_node : Instr.wf (.canSessionIdle 0 0) = false := by decide
theorem wf_client : Instr.wf (.odRead (.can 0 0) 0x1000 0) = false := by decide
theorem wf_usdo : Instr.wf (.usdoRequest 0 1 0x1000 0 (some [])) = false := by decide
theorem wf_width : Instr.wf (.registerWrite 0 0 0 0) = false := by decide
theorem wf_word : Instr.wf (.descriptorWrite 2 0) = false := by decide

/-! ### Witnesses of the statements about the block as a whole -/

theorem wit_front : (inState 2).pending ≠ [] ∨ ({ inState 2 with pending := [.powerOn] } : State).pending = .powerOn :: [] := by
  decide

theorem wit_empty : (inState 2).pending = [] := by decide

theorem wit_canonical : State.reset.Canonical := by refine ⟨?_, ?_, ?_⟩ <;> decide

theorem wit_step_next : ∃ t, step State.reset = .next t := ⟨_, rfl⟩

theorem wit_registerWrite_ok : ∃ r w, kcRow 0x40C00000 = some r ∧ (inState 2).role = Role.solo ∧
    r.write ((inState 2).word 0x40C00000) 0x3C0001 (inState 2).writable false = .ok w := ⟨_, _, rfl, by decide, rfl⟩

theorem wit_registerWrite_refused : ∃ r e, kcRow 0x40400000 = some r ∧
    r.write ((inState 4).word 0x40400000) 1 (inState 4).writable false = .error e := ⟨_, _, rfl, rfl⟩

/-! ### States for reset, self-test and the state commands -/

/-- RESET with SYS_RST_N low. -/
def heldReset : State := { inState 0 with sys := { (inState 0).sys with rstHigh := false } }

/-- The self-test runs. -/
def testing : State := { inState 1 with sys := { (inState 1).sys with selfTest := true } }

/-- The self-test has passed and secure start runs. -/
def securing : State := { (inState 1).put R.ST_SUMMARY_PASS true with sys := { (inState 1).sys with selfTest := false, secure := true } }

/-- A secure start that found everything good. -/
def goodStart : SecResult := ⟨true, 0, 1, 2, 0, 0, 0, List.replicate 6 0⟩

/-- SAFE HOLD with the self-test and secure start passed. -/
def ready : State := ((inState 2).put R.ST_SUMMARY_PASS true).put R.SEC_STATUS_OK true

/-- A preparation with nothing left to do, for the boundary at 1 ms. -/
def prepared : State :=
  { inState 3 with
    now := 900000,
    sys := { (inState 3).sys with prep := some { p1 := 100, t1 := 1000000, accepted := 0, dropped := [] },
                                  pend := some { cmd := 2, target := 4, atPeriod := none } } }

/-- A dry-down in its phase 1 or 2. -/
def drying (phase : Nat) : State :=
  { ((inState 5).put R.DEV_STATE_DRY_ACTIVE true).wr R.DRY_STATUS_PHASE phase with
    sys := { (inState 5).sys with dry := ⟨2000, 0, 0x3F, 0, 1⟩ }, now := 2000000000 }

/-- A cell with the content `c` at the end P of port 0 of arm 0. -/
def holding (c : Cell) : State := (inState 4).setCell 0 c

/-- A running cell that drives the upper switch of a half-bridge. -/
def driving : Cell :=
  { (cellIn Mode.running).wr K.PWM_STATUS_GATES 1 with pw := { (cellIn Mode.running).pw with demand := 1, tb := 1000 } }

/-- A preparation that still has transactions of its own to send. -/
def unprepared : State := prepared.onPort 0 fun x => { x with own := [⟨.prepAll, reqAll 2 0 0 0, 0⟩] }

/-- ENERGISED with one cell above VCELL_SAFE. -/
def charged : State :=
  (((inState 4).onPort 0 fun x => { x with good := [0], goodLast := [0] }).wr R.DISCHARGE_CFG_VCELL_SAFE 1).onView 0
    fun v => { v with slot := List.replicate 14 255#8 }

/-! ### States for the level engine -/

/-- The committed word of a field changed as well as the word itself, as a commit leaves them. -/
def committing (s : State) (f : Fld) (v : Nat) : State :=
  { s.wr f v with sys := { s.sys with com := (s.wr f v).regs } }

/-- ENERGISED with one plain cell, at position 0 of port 0 in arm 0, whose last good slot reports BLOCKED at 255 V and more. -/
def keyed : State :=
  (({ inState 4 with
    lvl := { (inState 4).lvl with levels := [(0, 1)], keys := [1, 0, 0, 0, 0, 0] } }.wr (R.STRAND_ARM_ARM 0 0) 0).onPort 0
      fun x => { x with good := [0] }).onView 0 fun v =>
        { v with slot := [4#8, 0#8, 0#8, 0#8, 1#8] ++ List.replicate 9 0#8, runAdmit := [1000] }

/-- DEBLOCKED in period 1, arm 0 committed in carrier mode with 50 periods to a carrier. -/
def carrying : State :=
  let s := committing (committing (committing (inState 5) (R.ARM_CFG_EN 0) 1) (R.ARM_CFG_MODE 0) 1) (R.ARM_PSC_CAR_N 0) 50
  { s.put R.SYNC_CFG_IN_EN true with sys := { s.sys with period := 1 } }

/-! ### States for the switching of a cell -/

/-- A good record of format 1 with ZERO in every entry, under a header with BLOCK = 0. -/
def zeroRecord : Rec :=
  { header := [0#8, 0#8, 0#8, 0#8, 0#8, 0#8, 0#8, 0#8, 0#8, 7#8, 0#8, 0#8],
    body := [1#8, 3#8, 1#8, 0#8, 0#8, 1#8, 0#8, 0#8, 1#8, 0#8, 0#8, 1#8, 0#8, 0#8] }

/-! ### States for the strand link and enumeration -/

/-- A cell with lock on port P only, which is its reference port, and a record for the next boundary. -/
def linked : Cell :=
  { cellIn 4 with lk := { (cellIn 4).lk with locks := 1, trained := 1, up := some 0, ref := some 0, next := some zeroRecord } }

/-- Port 3 trained as a head, with a frame of a type at 1 µs in front of its launch queue. -/
def queued (type : Nat) : State :=
  (((inState 4).put (R.PORT_STATUS_TRAINED 3) true).wr (R.PORT_STATUS_END 3) 1).onPort 3 fun x => { x with queue := [(type, 100)] }

/-- A READ of PWM_CNT at position 10 that waits for its frame. -/
def aTxn : Txn := { tag := .soft, req := { reqTo 1 10 0 0x20048 0 with seq := 5 }, ready := true, due := 0, tries := 0 }

/-- A cell at position 0 of a strand of one, its upstream on port P, both strand ports trained. -/
def joined : Cell :=
  let c := { cellIn 4 with lk := { (cellIn 4).lk with locks := 3, trained := 3, up := some 0, ref := some 0 } }
  (((c.wr K.LNK_CFG_CMD_OFF 32).wr K.LNK_CFG_CDN_OFF 32).wr K.LNK_CFG2_CUP_OFF 32).put K.SUB_CFG_HEAD_EN false

/-- A header of a type with BLOCK as given and an OP. -/
def aHeader (type : Nat) (block : Bool) (op : Nat) : List Byte :=
  let h := [BitVec.ofNat 8 (type + 8 * block.toNat + 128 * (!block).toNat), 0x12#8, 3#8, 2#8, 7#8, 0#8, 0#8, 0#8, 5#8, 7#8, 0#8, 0#8,
    BitVec.ofNat 8 op] ++ List.replicate 15 0#8
  h ++ bytesLE 4 (crc32c h)

/-- A command header that blocks, with a wrong HCRC. -/
def blockFrame : List Byte := patch (aHeader 1 true 0) 28 [1#8, 2#8, 3#8, 4#8]

/-- A command frame for one cell. -/
def goodFrame : List Byte := aHeader 1 false 0 ++ slotBytes 0 7 (List.replicate 14 1#8)

/-- Upstream collection frames of one slot, with OP 0h and with OP 1h under a wrong HCRC. -/
def upFrame : List Byte := aHeader 3 false 0 ++ slotBytes 0 7 (List.replicate 14 0#8)
def busyFrame : List Byte := patch (aHeader 3 false 1) 28 [1#8, 2#8, 3#8, 4#8] ++ slotBytes 0 7 (List.replicate 14 0#8)

/-- A response due. -/
def aRsp : MbRsp := { req := { reqTo 1 0 0 0x20048 0 with seq := 5 }, result := 0, data := 3, due := 7 }

/-- Port 3 trained as a head with one cell. -/
def heading : State :=
  let s := ((inState 3).put (R.PORT_STATUS_TRAINED 3) true).wr (R.PORT_STATUS_END 3) 1
  { s.wr (R.PORT_STATUS_NCELL 3) 1 with now := 100 }

/-- A cell in ENUMERATED that has taken a request. -/
def asking (op addr data : Nat) : Cell :=
  { cellIn 3 with lk := { (cellIn 3).lk with inbox := some { reqTo op 0 0 addr data with seq := 5 } } }

/-- Port 3 waits for the response to its READ. -/
def waiting : State :=
  ((inState 4).put (R.MB_STATUS_BUSY 3) true).onPort 3 fun x =>
    { x with txn := some { aTxn with ready := false, due := 9, tries := 1 }, rsp := some [81#8, 10#8, 0#8, 0#8, 0#8, 0#8, 72#8, 0#8, 2#8, 0#8, 3#8, 0#8, 0#8, 0#8, 0#8, 0#8, 1#8, 1#8, 1#8, 1#8] }

/-! ### States for the measurement -/

/-- A ZERO step of channel 4 runs in ENUMERATED. -/
def calibrating : Cell :=
  { ((cellIn 3).put K.CAL_STATUS_CAL_BUSY true).wr K.CAL_STATUS_CH 4 with ad := { (cellIn 3).ad with cal := some (1, 4, 0, 16, 0) } }

/-- The FULL step of the example, with its sixteen conversions. -/
def fullStep : Cell :=
  { calibrating.wr K.CAL_STATUS_CONV 16 with ad := { calibrating.ad with cal := some (2, 4, 60000, 16, 953920), zero := some (4, 212) } }

/-! ### States for the central inputs -/

/-- CONFIGURED with every fault class at Notice. -/
def quiet : State := ((((inState 3).wr (R.FLT_SRC_CFG_BASE 53) 1).wr (R.FLT_SRC_CFG_BASE 54) 1).wr (R.FLT_SRC_CFG_BASE 55) 1)

/-! ### States of a pair -/

/-- A tie message with sender byte 2, PERIOD 0, ARG and body. -/
def aMsg (type b2 arg : Nat) (body : List Byte) : List Byte :=
  let head := [BitVec.ofNat 8 type, 0x11#8, BitVec.ofNat 8 b2, 0#8] ++ bytesLE 4 0 ++ bytesLE 2 body.length ++ bytesLE 2 arg
  head ++ bytesLE 4 (crc32c head) ++ body ++ bytesLE 4 (crc32c body) ++ bytesLE 4 0

theorem leAt_append (a b : List Byte) (i k n : Nat) (h : a.length = i) : leAt (a ++ (bytesLE k n ++ b)) i k = n % 256 ^ k := by
  subst h
  rw [leAt, List.drop_append_of_le_length (Nat.le_refl _), List.drop_length, List.nil_append,
    List.take_append_of_le_length (by simp), List.take_of_length_le (by simp), natLE_bytesLE]

theorem crcLsb_lt (p : Nat) (hp : p < 2 ^ 32) : ∀ k c, c < 2 ^ 32 → crcLsbBits p k c < 2 ^ 32 := by
  intro k
  induction k with
  | zero => intro c h; exact h
  | succ k ih =>
    intro c h
    simp only [crcLsbBits]
    apply ih
    split
    · exact Nat.xor_lt_two_pow (by omega) hp
    · omega

theorem crc32c_lt (l : List Byte) : crc32c l < 2 ^ 32 := by
  unfold crc32c
  refine Nat.xor_lt_two_pow ?_ (by decide)
  suffices ∀ (l : List Byte) (c : Nat), c < 2 ^ 32 → l.foldl (fun c b => crcLsbBits 0x82F63B78 8 (c ^^^ b.toNat)) c < 2 ^ 32 from
    this l _ (by decide)
  intro l
  induction l with
  | nil => intro c h; exact h
  | cons b l ih =>
    intro c h
    exact ih _ (crcLsb_lt _ (by decide) 8 _ (Nat.xor_lt_two_pow h (by have := b.isLt; omega)))

/-- A tie message formed so is good. -/
theorem aMsg_good (type b2 arg : Nat) (body : List Byte) (h : body.length < 2 ^ 16) (h8 : body.length % 8 = 0) :
    Msg.good (aMsg type b2 arg body) = true := by
  generalize hh : ([BitVec.ofNat 8 type, 0x11#8, BitVec.ofNat 8 b2, 0#8] ++ bytesLE 4 0 : List Byte) = a
  have ha : a.length = 8 := by rw [← hh]; simp
  have hm : aMsg type b2 arg body = a ++ (bytesLE 2 body.length ++ (bytesLE 2 arg ++ (bytesLE 4 (crc32c (a ++ bytesLE 2 body.length ++ bytesLE 2 arg)) ++
      (body ++ (bytesLE 4 (crc32c body) ++ bytesLE 4 0))))) := by
    simp only [aMsg, ← hh, List.append_assoc]
  have hl : Msg.length (aMsg type b2 arg body) = body.length := by
    rw [Msg.length, hm, leAt_append _ _ _ _ _ ha]; omega
  have hd : (aMsg type b2 arg body).drop 16 = body ++ (bytesLE 4 (crc32c body) ++ bytesLE 4 0) := by
    rw [hm, show a ++ (bytesLE 2 body.length ++ (bytesLE 2 arg ++ (bytesLE 4 (crc32c (a ++ bytesLE 2 body.length ++ bytesLE 2 arg)) ++
      (body ++ (bytesLE 4 (crc32c body) ++ bytesLE 4 0))))) = (a ++ bytesLE 2 body.length ++ bytesLE 2 arg ++ bytesLE 4 (crc32c (a ++ bytesLE 2 body.length ++ bytesLE 2 arg))) ++
      (body ++ (bytesLE 4 (crc32c body) ++ bytesLE 4 0)) by simp only [List.append_assoc]]
    exact List.drop_left' (by simp [ha])
  have ht : (aMsg type b2 arg body).take 12 = a ++ bytesLE 2 body.length ++ bytesLE 2 arg := by
    rw [hm, show a ++ (bytesLE 2 body.length ++ (bytesLE 2 arg ++ (bytesLE 4 (crc32c (a ++ bytesLE 2 body.length ++ bytesLE 2 arg)) ++
      (body ++ (bytesLE 4 (crc32c body) ++ bytesLE 4 0))))) = (a ++ bytesLE 2 body.length ++ bytesLE 2 arg) ++ (bytesLE 4 (crc32c (a ++ bytesLE 2 body.length ++ bytesLE 2 arg)) ++
      (body ++ (bytesLE 4 (crc32c body) ++ bytesLE 4 0))) by simp only [List.append_assoc]]
    exact List.take_left' (by simp [ha])
  have hb : Msg.body (aMsg type b2 arg body) = body := by
    rw [Msg.body, hd, hl]; exact List.take_left' rfl
  have hc : leAt (aMsg type b2 arg body) 12 4 = crc32c ((aMsg type b2 arg body).take 12) := by
    rw [ht, hm, show a ++ (bytesLE 2 body.length ++ (bytesLE 2 arg ++ (bytesLE 4 (crc32c (a ++ bytesLE 2 body.length ++ bytesLE 2 arg)) ++
      (body ++ (bytesLE 4 (crc32c body) ++ bytesLE 4 0))))) = (a ++ bytesLE 2 body.length ++ bytesLE 2 arg) ++ (bytesLE 4 (crc32c (a ++ bytesLE 2 body.length ++ bytesLE 2 arg)) ++
      (body ++ (bytesLE 4 (crc32c body) ++ bytesLE 4 0))) by simp only [List.append_assoc], leAt_append _ _ _ _ _ (by simp [ha])]
    exact Nat.mod_eq_of_lt (crc32c_lt _)
  have he : leAt (aMsg type b2 arg body) (16 + body.length) 4 = crc32c body := by
    have : leAt (aMsg type b2 arg body) (16 + body.length) 4 = leAt ((aMsg type b2 arg body).drop 16) body.length 4 := by
      simp only [leAt, List.drop_drop]
    rw [this, hd, leAt_append _ _ _ _ _ rfl]
    exact Nat.mod_eq_of_lt (crc32c_lt _)
  have hn : (aMsg type b2 arg body).length = 24 + body.length := by rw [hm]; simp [ha]; omega
  simp only [Msg.good, hl, hb, hn, hc, he, h8, beq_self_eq_true, Bool.and_self]

/-- A unit in a state and role with tie lane 0 trained. -/
def paired (st role : Nat) : State := ((inState st).wr R.DEV_STATE_ROLE role).wr R.TIE_STATUS_LANES 1

/-- A ready STANDBY in DEBLOCKED whose partner has announced that it yields. -/
def successor : State :=
  let s := ((paired 5 Role.standby).put R.TIE_STATUS_READY true).put R.TIE_STATUS_YIELD_IN true
  { s with tie := { s.tie with yieldMsg := some false } }

/-- A RELAY that joins. -/
def joiner : State := { paired 2 Role.relay with tie := { (paired 2 Role.relay).tie with joining := true } }

/-- A joined RELAY after a matching DIGEST. -/
def matched : State :=
  let s := (paired 5 Role.relay).put R.TIE_STATUS_SWEEP_DONE true
  { s with tie := { s.tie with joining := true, matched := true } }

/-- Port 3 broken and served from the tail, at the RELAY. -/
def servedTail : State :=
  ((((paired 2 Role.relay).wr R.TIE_BROKEN_LO_BROKEN 8).put (R.PORT_STATUS_TRAINED 3) true).wr (R.PORT_STATUS_NCELL 3) 1).put
    (R.PORT_STATUS_LOCK 3) true

/-- An INPUT body without set-points, writes or exceptions. -/
def inputBody : List Byte := List.replicate 136 0#8

/-- A slot copy of position 2 with its check code. -/
def slotEntry : List Byte :=
  let c := crc16From 0xFFFF ([2#8, 0#8] ++ List.replicate 14 8#8)
  [2#8, 0#8, 0#8, 0#8, 0#8, 0#8, 0#8, 0#8] ++ List.replicate 14 8#8 ++ bytesLE 2 c

/-! ### States of an accord -/

/-- An accord frame at its destination with TAG 77 from a member. -/
def anAcf (type sender arg : Nat) (body : List Byte) : List Byte :=
  let head := [BitVec.ofNat 8 type, 0x11#8, 0x11#8, 0#8] ++ bytesLE 2 0 ++ bytesLE 2 77 ++ [BitVec.ofNat 8 sender, 0#8] ++
    bytesLE 2 body.length ++ bytesLE 4 0 ++ bytesLE 2 arg ++ bytesLE 2 0
  head ++ bytesLE 4 (crc32c head) ++ body ++ bytesLE 4 (crc32c body) ++ bytesLE 4 0

/-- A SOLO unit, member 1 of two in an accord with TAG 77 that member 0 leads, port A trained. -/
def memberIn (st : Nat) : State :=
  (((((((((inState st).put R.ACD_CFG_EN true).wr R.ACD_CFG_LVLS 1).wr (R.LVLE_W0_TAG 0) 77).wr (R.LVLE_W0_MIDX 0) 1).wr (R.LVLE_W0_NMEM 0) 1).put
    (R.ACD_PORTST_TRAINED 0) true).wr (R.LVLE_ROUTE_HOPS 0 0) 1).put R.ACD_STATUS_FORMED true)

/-- The lead of the same accord as member 0. -/
def leadIn (st : Nat) : State :=
  ((((memberIn st).wr (R.LVLE_W0_MIDX 0) 0).put (R.LVLE_W1_IS_LEAD 0) true).put R.ACD_STATUS_TOP true).wr (R.LVLE_ROUTE_HOPS 0 2) 1

/-- A change to DRYDOWN, or CLEAR, staged with DEADLINE 8. -/
def aStage (cmd : Nat) : Staged := { cmd := cmd, epoch := 3, deadline := 8, above := 0, p1 := 0, code := 0, acked := false }
def staging (s : State) (cmd : Nat) : State :=
  { s with acd := { s.acd with staged := some (aStage cmd) }, sys := { s.sys with pend := some { cmd := cmd, target := 4, atPeriod := none } } }

/-- STAGE of DRYDOWN with epoch 3 and DEADLINE 8. -/
def stageBody : List Byte := [4#8, 3#8, 0#8, 0#8] ++ bytesLE 4 8 ++ bytesLE 4 0 ++ bytesLE 4 0

/-- A DIST body: epoch, state and phase. -/
def distBody (epoch stPh : Nat) : List Byte := List.replicate 132 0#8 ++ [BitVec.ofNat 8 epoch, BitVec.ofNat 8 stPh, 0#8, 0#8]

/-! ### The safety island -/

/-- The island in a state with a parameter set, the KC8400 in SAFE HOLD. -/
def island (i : Nat) : State :=
  let s := ((inState 2).wr R.SAFE_STATE_STATE i).put R.SAFE_STATE_PARAM_VALID true
  { s with sys := { s.sys with rstHigh := true } }

/-- All pins low. -/
def noPins : SafePins := ⟨0, 0, 0, 0⟩

/-- SI0 as an equivalent, tested input on TP0 and TP1, both channels high. -/
def testedInput : State :=
  ((((((island 3).wr (R.SI_CFG_MODE 0) 1).wr (R.SI_CFG_TPA 0) 0).wr (R.SI_CFG_TPB 0) 1).put (R.SI_STATUS_LVL_A 0) true).put
    (R.SI_STATUS_LVL_B 0) true)

/-- Connection 0 enabled in RUN with parameters, last sequence number 7. -/
def connected (i : Nat) : State :=
  ((((island i).put (R.CONN_CFG_EN 0) true).put (R.CONN_CFG_PARAM_EN 0) true).wr (R.CONN_STATE_CSTATE 0) 2).wr (R.CONN_SEQ_SEQ 0) 7

/-- A cyclic telegram of sequence number 8 that says OK, with its CRC. -/
def aTelegram : List Byte :=
  let h := [0#8, 0#8, 1#8, 0#8, 8#8, 0#8, 0#8, 0#8, 7#8] ++ List.replicate 31 0#8
  h ++ bytesLE 4 (crc32c (bytesLE 4 0 ++ h))

/-- A payload that stages one entry, FILT 5 of SI0. -/
def stagePayload : List Byte := [1#8, 9#8, 1#8, 0#8] ++ bytesLE 4 0x100 ++ bytesLE 4 0x0C850110 ++ List.replicate 20 0#8

/-! ### States of the disturbance capture -/

/-- A unit with DDR4 ready and every SRAM group available. -/
def armable : State := (((inState 4).wr R.DDR_STATUS_SIZE_GB 4).put R.DDR_STATUS_READY true).wr R.MEM_STATUS_AVAIL 255

/-- A capture in a state of ACQ_STATUS, with rows of 16 bytes in a ring of 64 and PRE and POST of 2 rows. -/
def capture (n : Nat) : State :=
  (((((armable.wr R.ACQ_STATUS_STATE n).wr R.ACQ_LAYOUT_ROW_B 16).wr R.ACQ_RINGROWS_N_RING 64).wr R.ACQ_PRE_PRE 2).wr R.ACQ_POST_POST 2)

def rowsHeld (s : State) (total fill : Nat) : State := { s with acq := { s.acq with total := total, fill := fill } }

/-- A record whose trigger row is row 4. -/
def aRecord : RecA :=
  { cause := 9, pTrig := 4, time := 0, pre := 2, trig := 4, last := 6, next := 7, slot := 0, flags := 0, dead := 0, missed := 0, early := 0, ae := 0 }

def recording (n : Nat) : State := { capture n with acq := { (capture n).acq with total := 7, fill := 7, rec' := some aRecord } }

/-- The acquisition of a member, or of the lead, of an accord. -/
def capturing (s : State) (n total fill : Nat) : State :=
  rowsHeld ((((((((s.wr R.ACQ_STATUS_STATE n).wr R.ACQ_LAYOUT_ROW_B 16).wr R.ACQ_RINGROWS_N_RING 64).wr R.ACQ_PRE_PRE 2).wr R.ACQ_POST_POST 2).wr
    R.DDR_STATUS_SIZE_GB 4).put R.DDR_STATUS_READY true).wr R.MEM_STATUS_AVAIL 255) total fill

def acqBytes (p cause : Nat) : List Byte := bytesLE 8 p ++ bytesLE 4 1 ++ [BitVec.ofNat 8 cause, 0#8, 0#8, 0#8]

/-- A cell whose trigger is enabled in the snapshot of its last strobe. -/
def triggering (hold : Nat) : Cell :=
  { cellIn 4 with ad := { (cellIn 4).ad with held := mapSet cellReset [] K.CTRG_CFG_EN.addr (BitVec.ofNat 32 (1 + 65536 * hold)) } }

/-! ### States of the scheduler and the counters -/

/-- Queue 5 with DEPTH 2 and every pair stopped, so that no slot fills. -/
def still : State := ((inState 4).wr R.SCH_LS_STOPPED 63).wr (R.Q_CFG_DEPTH 5) 2

def anItem (k : Nat) : Item := { words := [k, 0, 0, 0, 0, 0, 0, 0], pushed := 0 }

/-- A state with items in queue 5. -/
def queuedItems (s : State) (l : List Item) : State := { s with sch := { s.sch with queues := [(5, l)] } }

/-- Queue 5 full. -/
def fullQueue : State := queuedItems still [anItem 1, anItem 2]

/-- A push of master 3 to queue 5 stalls. -/
def stalled (s : State) : State := { s with sch := { s.sch with stalls := [⟨3, 5, [9, 0, 0, 0, 0, 0, 0, 0]⟩] } }

/-- Hart 2 has an item of queue 5 in slot 1; and hart 2 waits for one. -/
def slotFilled : State := { (inState 4).wr (R.Q_CFG_DEPTH 5) 2 with now := 5000, sch := { Sch.reset with slots := [(2, [⟨1, 5, anItem 7⟩])] } }
def getting (s : State) : State := { s with sch := { s.sch with waiting := [2] } }

/-! ### States of health -/

/-- A cell in BLOCKED whose TEMP is that of channel 0, 100.0 °C; health as the snapshot of the last strobe has it. -/
def warmCell : Cell :=
  let c := cellIn 4
  let held := ([(K.HCFG_EN.addr, 0x14040001#32), (K.TEMP_CFG_MASK.addr, 0x19000001#32), (0x30018, 0#32)] : List (Nat × Word))
  { c with ad := { c.ad with held := held.foldl (fun m x => mapSet cellReset m x.1 x.2) [], have' := 1, codes := [] } }

/-- The same with an extreme, a direction and reversals. -/
def turning (ext : Int) (dir : Nat) (stack : List Int) : Cell :=
  { warmCell with hl := { warmCell.hl with ext := some ext, dir := dir, stack := stack } }

/-- Two cells of arm 0 in the level engine with their kept DAYS. -/
def rankable : State :=
  let s := ((inState 4).wr (R.STRAND_ARM_ARM 0 0) 0).put (R.ARM_CFG_EN 0) true
  { s with lvl := { s.lvl with levels := [(0, 1), (1, 1)], views := [(0, { s.view 0 with items := [(7, 900), (8, 64)] }), (1, { s.view 1 with items := [(7, 30), (8, 192)] })] } }

/-! ### States of the object service -/

/-- The session of client 5 on CAN FD port 0, and of UDP slot 0 at a version on NETA. -/
def canSession : Session := Session.fresh (.can 0 5) 1 0 0
def udpSession (ver : Nat) : Session := Session.fresh (.udp 0) 1 ver 0

/-- A unit with sessions in service and NETA at 10.0.0.1. -/
def serving (n : Nat) (l : List Session) : State :=
  let s := (inState n).wr (R.OD_NET_IP_IP 0) 0x0A000001
  { s with od := { s.od with sessions := l, lastId := 1 } }

/-- A datagram of the service from 10.0.0.2 on NETA. -/
def aDatagram (ver op session count seq : Nat) (body : List Byte) : Datagram :=
  { net := 0, source := 0x0A000002, sourcePort := 4000, dest := 0x0A000001, destPort := 5620, plain := true, bytes := dgram ver op session count seq body }

/-- An entry of a READ or WRITE. -/
def anEntry (index sub select data : Nat) : List Byte := bytesLE 2 index ++ [BitVec.ofNat 8 sub, 0#8] ++ bytesLE 4 select ++ bytesLE 8 data

/-- A write of "save" waits for its store. -/
def storing : State :=
  let s := serving 3 [canSession]
  { s with od := { s.od with jobs := [{ id := 1, client := .can 0 5, form := .single, range := none, rest := [plainAccess 0x1010 1 true saveCode], done := [], failed := false, wait := .store }] } }

/-- The lead of an accord waits for the ODRSP with tag 7 to a read of client 5. -/
def routing : State :=
  let s := leadIn 3
  { s with od := { s.od with sessions := [canSession], lastTag := 7, jobs := [{ id := 1, client := .can 0 5, form := .single, range := none, rest := [plainAccess 0x2000 2 false 0], done := [], failed := false, wait := .routed 7 1 }] } }

/-- A region of the health image within the SRAM. -/
def imaged (n : Nat) : State := (serving n [udpSession 0x12]).wr R.MEM_STATUS_AVAIL 255

/-! ### Each clause with hypotheses has a state and operands that meet them -/

theorem wit_emptyQueueLetsOnlyTimePass_1 :
    ¬ (∀ s : State, s.pending = [] → s.st ≠ St.reset → s.nowFrac < 10 ^ 12 → (s.now + 5) / 10 ^ 9 = s.now / 10 ^ 9 →
    s.now + 5 < timeEnd → False) :=
  fun h => h (inState 4) (by decide +kernel) (by decide +kernel) (by decide +kernel) (by decide +kernel) (by decide +kernel)

theorem wit_emptyQueueLetsOnlyTimePass_2 :
    ¬ (∀ s : State, s.pending = [] → s.st = St.reset → False) :=
  fun h => h (inState 0) (by decide +kernel) (by decide +kernel)

theorem wit_startUpReachesSafeHold_3 :
    ¬ (∀ (s : State) (p : Bool), s.sys.rstHigh = false → s.st = St.reset → s.sys.supplyBad = 0 → False) :=
  fun h => h (heldReset) (true) (by decide +kernel) (by decide +kernel) (by decide +kernel)

theorem wit_startUpReachesSafeHold_4 :
    ¬ (∀ s : State, s.sys.rstHigh = true → s.st = St.reset → False) :=
  fun h => h (inState 0) (by decide +kernel) (by decide +kernel)

theorem wit_startUpReachesSafeHold_5 :
    ¬ (∀ (s : State) (i : Fin 16), i ≠ 2 → False) :=
  fun h => h (inState 4) (3) (by decide +kernel)

theorem wit_startUpReachesSafeHold_7 :
    ¬ (∀ (s : State) (r : StReport), s.st = St.selfTest → s.sys.selfTest = true → False) :=
  fun h => h (testing) (⟨0, 0, 1, 0, 0, 0, 2000⟩) (by decide +kernel) (by decide +kernel)

theorem wit_startUpReachesSafeHold_8 :
    ¬ (∀ (s : State) (i : Fin 6), s.st = St.selfTest → s.sys.selfTest = true → False) :=
  fun h => h (testing) (3) (by decide +kernel) (by decide +kernel)

theorem wit_startUpReachesSafeHold_9 :
    ¬ (∀ (s : State) (r : SecResult), s.st = St.selfTest → s.sys.secure = true → s.on R.ST_SUMMARY_PASS = true → r.ok = true →
    s.od.copies = [] → s.od.loadPend = false → s.on R.ENERGISE_CFG_AUTOCONF = false → False) :=
  fun h => h (securing) (goodStart) (by decide +kernel) (by decide +kernel) (by decide +kernel) (by decide +kernel) (by decide +kernel) (by decide +kernel) (by decide +kernel)

theorem wit_startUpReachesSafeHold_10 :
    ¬ (∀ s : State, s.inputsRun = true → False) :=
  fun h => h (inState 4) (by decide +kernel)

theorem wit_acceptedStateCommandsTakeEffect_1 :
    ¬ (∀ (s : State) (via : Via), s.gateCode [St.safeHold] = 0 → s.configureCode = 0 → s.twoPhase = false → False) :=
  fun h => h (ready) (.master 0) (by decide +kernel) (by decide +kernel) (by decide +kernel)

theorem wit_acceptedStateCommandsTakeEffect_2 :
    ¬ (∀ (s : State) (via : Via), s.gateCode [St.configured] = 0 → (s.energiseCode 0).2 = 0 → s.twoPhase = false → False) :=
  fun h => h (inState 3) (.master 0) (by decide +kernel) (by decide +kernel) (by decide +kernel)

theorem wit_acceptedStateCommandsTakeEffect_3 :
    ¬ (∀ (s : State) (via : Via), s.gateCode [St.energised] = 0 → s.deblockCode = 0 → s.twoPhase = false → False) :=
  fun h => h (inState 4) (.master 0) (by decide +kernel) (by decide +kernel) (by decide +kernel)

theorem wit_acceptedStateCommandsTakeEffect_4 :
    ¬ (∀ (s : State) (via : Via), s.gateCode [St.deblocked] = 0 → s.twoPhase = false → False) :=
  fun h => h (inState 5) (.master 0) (by decide +kernel) (by decide +kernel)

theorem wit_acceptedStateCommandsTakeEffect_5 :
    ¬ (∀ (s : State) (via : Via), s.gateCode [St.faultBlock] = 0 → s.clearCode = 0 → s.twoPhase = false → False) :=
  fun h => h (inState 6) (.master 0) (by decide +kernel) (by decide +kernel) (by decide +kernel)

theorem wit_acceptedStateCommandsTakeEffect_6 :
    ¬ (∀ (s : State) (via : Via), s.gateCode [St.energised, St.faultBlock] = 0 → s.deenergiseCode = 0 → s.twoPhase = false → False) :=
  fun h => h (inState 4) (.master 0) (by decide +kernel) (by decide +kernel) (by decide +kernel)

theorem wit_acceptedStateCommandsTakeEffect_7 :
    ¬ (∀ (s : State) (via : Via), s.gateCode [St.safeHold, St.configured, St.faultBlock] = 0 → s.twoPhase = false →
    s.sys.rstHigh = true → s.sys.supplyBad = 0 → False) :=
  fun h => h (inState 2) (.master 0) (by decide +kernel) (by decide +kernel) (by decide +kernel) (by decide +kernel)

theorem wit_refusedStateCommandsOnlyRecord_1 :
    ¬ (∀ (s : State) (m : Fin 19), s.gateCode [St.safeHold] ≠ 0 → False) :=
  fun h => h (inState 3) (0) (by decide +kernel)

theorem wit_refusedStateCommandsOnlyRecord_2 :
    ¬ (∀ (s : State) (m : Fin 19), s.gateCode [St.safeHold] = 0 → s.configureCode ≠ 0 → False) :=
  fun h => h (inState 2) (0) (by decide +kernel) (by decide +kernel)

theorem wit_refusedStateCommandsOnlyRecord_3 :
    ¬ (∀ (s : State) (m : Fin 19), s.gateCode [St.configured] ≠ 0 → False) :=
  fun h => h (inState 2) (0) (by decide +kernel)

theorem wit_refusedStateCommandsOnlyRecord_4 :
    ¬ (∀ (s : State) (m : Fin 19), s.gateCode [St.configured] = 0 → (s.energiseCode 0).2 ≠ 0 → False) :=
  fun h => h ((inState 3).put R.ACD_CFG_EN true) (0) (by decide +kernel) (by decide +kernel)

theorem wit_refusedStateCommandsOnlyRecord_5 :
    ¬ (∀ (s : State) (m : Fin 19), s.gateCode [St.energised] ≠ 0 → False) :=
  fun h => h (inState 2) (0) (by decide +kernel)

theorem wit_refusedStateCommandsOnlyRecord_6 :
    ¬ (∀ (s : State) (m : Fin 19), s.gateCode [St.energised] = 0 → s.deblockCode ≠ 0 → False) :=
  fun h => h ((inState 4).put R.DEV_STATE_SAFE_BLOCK true) (0) (by decide +kernel) (by decide +kernel)

theorem wit_refusedStateCommandsOnlyRecord_7 :
    ¬ (∀ (s : State) (m : Fin 19), s.gateCode [St.deblocked] ≠ 0 → False) :=
  fun h => h (inState 2) (0) (by decide +kernel)

theorem wit_refusedStateCommandsOnlyRecord_8 :
    ¬ (∀ (s : State) (m : Fin 19), s.gateCode [St.faultBlock] ≠ 0 → False) :=
  fun h => h (inState 2) (0) (by decide +kernel)

theorem wit_refusedStateCommandsOnlyRecord_9 :
    ¬ (∀ (s : State) (m : Fin 19), s.gateCode [St.faultBlock] = 0 → s.clearCode ≠ 0 → False) :=
  fun h => h ((inState 6).put R.DEV_STATE_SAFE_BLOCK true) (0) (by decide +kernel) (by decide +kernel)

theorem wit_refusedStateCommandsOnlyRecord_10 :
    ¬ (∀ (s : State) (m : Fin 19), s.gateCode [St.energised, St.faultBlock] = 0 → s.deenergiseCode ≠ 0 → False) :=
  fun h => h (charged) (0) (by decide +kernel) (by decide +kernel)

theorem wit_refusedStateCommandsOnlyRecord_11 :
    ¬ (∀ (s : State) (m : Fin 19) (key : BitVec 16), s.gateCode [St.safeHold, St.configured, St.faultBlock] = 0 → key ≠ 0x5A5A → False) :=
  fun h => h (inState 2) (0) (1) (by decide +kernel) (by decide +kernel)

theorem wit_preparationAndDryDownAdvance_1 :
    ¬ (∀ (s : State) (q : Prep) (p : Pend), s.sys.prep = some q → s.sys.pend = some p → q.t1 ≤ s.now + 200000 → s.prepDone = false → False) :=
  fun h => h (unprepared) (⟨100, 1000000, 0, []⟩) (⟨2, 4, none⟩) (by decide +kernel) (by decide +kernel) (by decide +kernel) (by decide +kernel)

theorem wit_preparationAndDryDownAdvance_3 :
    ¬ (∀ s : State, s.on R.DEV_STATE_DRY_ACTIVE = true → s.rd R.DRY_STATUS_PHASE = 1 →
    s.rd R.DRYDOWN_CFG_DRY_HOLD ≤ s.sys.dry.count → False) :=
  fun h => h (drying 1) (by decide +kernel) (by decide +kernel) (by decide +kernel)

theorem wit_preparationAndDryDownAdvance_4 :
    ¬ (∀ (s : State) (a : Fin 6), s.on R.DEV_STATE_DRY_ACTIVE = true → bitOf s.sys.dry.reversed a = true →
    s.bit R.DRY_STATUS_ARM_BLOCKED a = false → False) :=
  fun h => h (drying 2) (0) (by decide +kernel) (by decide +kernel) (by decide +kernel)

theorem wit_preparationAndDryDownAdvance_5 :
    ¬ (∀ s : State, s.on R.DEV_STATE_DRY_ACTIVE = true → s.on R.DRY_STATUS_DRY_FORCED = false →
    s.sys.dry.accepted + s.rd R.DRYDOWN_CFG_DRY_TIMEOUT * 1000000 ≤ s.now → False) :=
  fun h => h (drying 2) (by decide +kernel) (by decide +kernel) (by decide +kernel)

theorem wit_cellStartsAndHoldsItsRecord_2 :
    ¬ (∀ (s : State) (id : BitVec 64) (b : Bool), (s.cell id.toNat).mode = Mode.reset → (s.cell id.toNat).rd K.CFLT_LIVE_LIVE = 0 →
    (s.cell id.toNat).rd K.TRIP_STATUS_CMP_ACT = 0 → False) :=
  fun h => h (holding Cell.reset) (0) (true) (by decide +kernel) (by decide +kernel) (by decide +kernel)

theorem wit_cellStartsAndHoldsItsRecord_3 :
    ¬ (∀ (s : State) (id : BitVec 64), (s.cell id.toNat).mode = Mode.selfTest → (s.cell id.toNat).on K.CFLT_SUM_LOCK_LATCH = false → False) :=
  fun h => h (holding (cellIn 1)) (0) (by decide +kernel) (by decide +kernel)

theorem wit_cellStartsAndHoldsItsRecord_4 :
    ¬ (∀ (s : State) (id : BitVec 64), (s.cell id.toNat).mode = Mode.selfTest → (s.cell id.toNat).on K.CFLT_SUM_LOCK_LATCH = true → False) :=
  fun h => h (holding ((cellIn 1).put K.CFLT_SUM_LOCK_LATCH true)) (0) (by decide +kernel) (by decide +kernel)

theorem wit_cellStartsAndHoldsItsRecord_5 :
    ¬ (∀ (s : State) (id : BitVec 64), (s.cell id.toNat).mode = Mode.selfTest → (s.cell id.toNat).on K.CFLT_SUM_LOCK_LATCH = false →
    (s.cell id.toNat).rd (K.CFLT_CLASS_CLASS 3 0) ≠ 0 → False) :=
  fun h => h (holding (cellIn 1)) (0) (by decide +kernel) (by decide +kernel) (by decide +kernel)

theorem wit_cellStartsAndHoldsItsRecord_6 :
    ¬ (∀ (s : State) (id : BitVec 64), (s.cell id.toNat).mode = Mode.selfTest →
    (s.cell id.toNat).rd (K.CFLT_CLASS_CLASS 3 0) ≠ 0 → False) :=
  fun h => h (holding (cellIn 1)) (0) (by decide +kernel) (by decide +kernel)

theorem wit_cellStartsAndHoldsItsRecord_7 :
    ¬ (∀ (s : State) (id : BitVec 64), (s.cell id.toNat).mode = Mode.enumerated ∨ (s.cell id.toNat).mode = Mode.blocked → False) :=
  fun h => h (holding (cellIn 4)) (0) (by decide +kernel)

theorem wit_cellStartsAndHoldsItsRecord_8 :
    ¬ (∀ (s : State) (id : BitVec 64), bitOf (s.cell id.toNat).lk.got (s.cell id.toNat).lk.high.toNat = true ∨ (s.cell id.toNat).lk.got = 0 → False) :=
  fun h => h (holding (cellIn 4)) (0) (by decide +kernel)

theorem wit_cellStartsAndHoldsItsRecord_9 :
    ¬ (∀ (s : State) (id : BitVec 64), bitOf (s.cell id.toNat).lk.got (s.cell id.toNat).lk.high.toNat = false →
    bitOf (s.cell id.toNat).lk.got (1 - (s.cell id.toNat).lk.high.toNat) = true → False) :=
  fun h => h (holding { cellIn 4 with lk := { (cellIn 4).lk with got := 2 } }) (0) (by decide +kernel) (by decide +kernel)

theorem wit_engineWritesAreCheckedAndTakeEffect_1 :
    ¬ (∀ (s : State) (i : Fin 256) (a : Nat) (v : BitVec 32) (w : Nat), s.role = Role.solo → s.writable = true →
    a = (R.DESC_DIM_N_STATE i).addr ∨ a = (R.DESC_CTRL_EN i).addr → s.wouldStand a v.toNat = some w →
    checkContext s.rd (s.setWord a w).rd i true = 0 → False) :=
  fun h => h (inState 3) (7) (0x400101C4) (3) (3) (by decide +kernel) (by decide +kernel) (by decide +kernel) (by decide +kernel) (by decide +kernel)

theorem wit_engineWritesAreCheckedAndTakeEffect_2 :
    ¬ (∀ (s : State) (i : Fin 256) (e : Fin 32) (v : BitVec 32) (w : Nat), s.role = Role.solo → s.writable = true →
    s.wouldStand (R.BIND_KIND i e).addr v.toNat = some w →
    checkContext s.rd (s.setWord (R.BIND_KIND i e).addr w).rd i (kindOk (bitsOf w 0 4) (bitsOf w 4 12)) = 0 → False) :=
  fun h => h (inState 3) (5) (4) (0x52) (0x52) (by decide +kernel) (by decide +kernel) (by decide +kernel) (by decide +kernel)

theorem wit_engineWritesAreCheckedAndTakeEffect_3 :
    ¬ (∀ (s : State) (i : Fin 256) (e : Fin 32) (v : BitVec 32) (w : Nat), s.role = Role.solo → s.writable = true →
    s.wouldStand (R.BIND_KIND i e).addr v.toNat = some w →
    checkContext s.rd (s.setWord (R.BIND_KIND i e).addr w).rd i (kindOk (bitsOf w 0 4) (bitsOf w 4 12)) ≠ 0 → False) :=
  fun h => h (inState 3) (5) (4) (0x2038) (0x2038) (by decide +kernel) (by decide +kernel) (by decide +kernel) (by decide +kernel)

theorem wit_engineWritesAreCheckedAndTakeEffect_4 :
    ¬ (∀ (s : State) (load : Bool), s.role = Role.solo → s.inService = true → s.on R.SWAP_STATUS_PENDING = false → False) :=
  fun h => h (inState 4) (true) (by decide +kernel) (by decide +kernel) (by decide +kernel)

theorem wit_engineWritesAreCheckedAndTakeEffect_5 :
    ¬ (∀ s : State, s.role = Role.solo → s.inService = true → s.on R.SWAP_STATUS_PENDING = false → False) :=
  fun h => h (inState 4) (by decide +kernel) (by decide +kernel) (by decide +kernel)

theorem wit_engineWritesAreCheckedAndTakeEffect_6 :
    ¬ (∀ (s : State) (load : Bool), s.role = Role.solo → s.inService = true → s.on R.SWAP_STATUS_PENDING = true → False) :=
  fun h => h ((inState 4).put R.SWAP_STATUS_PENDING true) (true) (by decide +kernel) (by decide +kernel) (by decide +kernel)

theorem wit_engineWritesAreCheckedAndTakeEffect_7 :
    ¬ (∀ s : State, s.role = Role.solo → s.inService = true → s.on R.SWAP_STATUS_PENDING = true → False) :=
  fun h => h ((inState 4).put R.SWAP_STATUS_PENDING true) (by decide +kernel) (by decide +kernel) (by decide +kernel)

theorem wit_engineWritesAreCheckedAndTakeEffect_8 :
    ¬ (∀ (s : State) (i : Fin 256), s.role = Role.solo → s.inService = true → False) :=
  fun h => h (inState 4) (9) (by decide +kernel) (by decide +kernel)

theorem wit_engineWritesAreCheckedAndTakeEffect_9 :
    ¬ (∀ (s : State) (i : Fin 256), s.role = Role.solo → s.inService = false → False) :=
  fun h => h (inState 3) (9) (by decide +kernel) (by decide +kernel)

theorem wit_engineWritesAreCheckedAndTakeEffect_10 :
    ¬ (∀ s : State, s.role = Role.solo → s.inputsRun = true → False) :=
  fun h => h (inState 4) (by decide +kernel) (by decide +kernel)

theorem wit_engineWritesAreCheckedAndTakeEffect_11 :
    ¬ (∀ s : State, s.role = Role.solo → s.inputsRun = true → False) :=
  fun h => h (inState 4) (by decide +kernel) (by decide +kernel)

theorem wit_engineWritesAreCheckedAndTakeEffect_12 :
    ¬ (∀ s : State, s.role = Role.solo → s.inputsRun = true → False) :=
  fun h => h (inState 4) (by decide +kernel) (by decide +kernel)

theorem wit_engineWritesAreCheckedAndTakeEffect_13 :
    ¬ (∀ s : State, s.role = Role.solo → s.inputsRun = true → False) :=
  fun h => h (inState 4) (by decide +kernel) (by decide +kernel)

theorem wit_engineWritesAreCheckedAndTakeEffect_14 :
    ¬ (∀ (s : State) (w : Fin 2048) (v : BitVec 32), s.role = Role.solo → s.inputsRun = true → s.on R.COEF_SEL_VIEW = false →
    w.val < 1392 → False) :=
  fun h => h (inState 3) (955) (0x3F800000) (by decide +kernel) (by decide +kernel) (by decide +kernel) (by decide +kernel)

theorem wit_engineWritesAreCheckedAndTakeEffect_15 :
    ¬ (∀ (s : State) (w : Fin 2048) (v : BitVec 32), s.role = Role.solo → s.inputsRun = true → s.on R.COEF_SEL_VIEW = true → False) :=
  fun h => h ((inState 3).put R.COEF_SEL_VIEW true) (955) (0x3F800000) (by decide +kernel) (by decide +kernel) (by decide +kernel)

theorem wit_engineWritesAreCheckedAndTakeEffect_16 :
    ¬ (∀ (s : State) (w : Fin 2048), w.val < 1392 → False) :=
  fun h => h (inState 3) (955) (by decide +kernel)

theorem wit_engineWindowRunsTheLaw_1 :
    ¬ (∀ (s : State) (errs : List EngineError), s.inService = true → s.role ≠ Role.relay → False) :=
  fun h => h (inState 4) ([]) (by decide +kernel) (by decide +kernel)

theorem wit_engineWindowRunsTheLaw_2 :
    ¬ (∀ (s : State) (prev : Delivered) (errs : List EngineError) (i : Nat) (j : Nat), j < ctxP s.crd i → False) :=
  fun h => h (inState 4) ((fun _ _ => 0)) ([]) (0) (0) (by decide +kernel)

theorem wit_engineWindowRunsTheLaw_3 :
    ¬ (∀ (s : State) (prev : Delivered) (errs : List EngineError) (i : Nat), groupOf s.crd i = none → False) :=
  fun h => h ((inState 4).onCtx 3 fun x => { x with uol := [0x3F800000] }) ((fun _ _ => 0)) ([]) (3) (by decide +kernel)

theorem wit_setpointsDropsAndReturns_1 :
    ¬ (∀ (s : State) (c : Fin 256) (v : BitVec 32), s.role = Role.solo → s.inputsRun = true → f32Finite v.toNat = true →
    checkPoint (s.setWord (R.SP_VALUE_VALUE c).addr v.toNat).rd c = true → s.ctl.spNew.contains c.val = false → False) :=
  fun h => h (inState 4) (5) (0x3F800000) (by decide +kernel) (by decide +kernel) (by decide +kernel) (by decide +kernel) (by decide +kernel)

theorem wit_setpointsDropsAndReturns_2 :
    ¬ (∀ (s : State) (c : Fin 256) (v : BitVec 32), s.role = Role.solo → s.inputsRun = true → f32Finite v.toNat = false → False) :=
  fun h => h (inState 4) (5) (0x7F800000) (by decide +kernel) (by decide +kernel) (by decide +kernel)

theorem wit_setpointsDropsAndReturns_3 :
    ¬ (∀ (s : State) (c : Fin 256), s.inService = true → s.on (R.SP_STATUS_LOST c) = false → s.spTimeout c ≠ 0 →
    s.spTimeout c ≤ s.rd (R.SP_STATUS_AGE c) → False) :=
  fun h => h (((inState 4).wr (R.SP_CFG_TIMEOUT 5) 1).wr (R.SP_STATUS_AGE 5) 50000) (5) (by decide +kernel) (by decide +kernel) (by decide +kernel) (by decide +kernel)

theorem wit_setpointsDropsAndReturns_4 :
    ¬ (∀ (s : State) (i : Fin 256) (j : Fin 16), s.inService = true → s.on (R.FB_CFG_TO_EN i j) = true →
    s.rd (R.FB_CFG_TO_N i j) ≤ s.rd (R.FB_COUNT_TO_CNT i j) → s.dropped i j = false → (s.ctxAt i).found = [] → False) :=
  fun h => h (((inState 4).put (R.FB_CFG_TO_EN 2 1) true).wr (R.FB_COUNT_TO_CNT 2 1) 3) (2) (1) (by decide +kernel) (by decide +kernel) (by decide +kernel) (by decide +kernel) (by decide +kernel)

theorem wit_setpointsDropsAndReturns_5 :
    ¬ (∀ (s : State) (i : Fin 256) (j : Fin 16), s.inService = true → s.on (R.FB_CFG_FRZ_EN i j) = true →
    s.rd (R.FB_CFG_FRZ_N i j) ≤ s.rd (R.FB_COUNT_FRZ_CNT i j) → s.dropped i j = false → (s.ctxAt i).found = [] → False) :=
  fun h => h (((inState 4).put (R.FB_CFG_FRZ_EN 2 1) true).wr (R.FB_COUNT_FRZ_CNT 2 1) 32) (2) (1) (by decide +kernel) (by decide +kernel) (by decide +kernel) (by decide +kernel) (by decide +kernel)

theorem wit_setpointsDropsAndReturns_6 :
    ¬ (∀ (s : State) (i : Fin 256) (j : Fin 16), s.inService = true → s.on (R.FB_CFG_GATE_EN i j) = true →
    s.rd (R.FB_CFG_GATE_N i j) ≤ s.rd (R.FB_COUNT_GATE_CNT i j) → s.dropped i j = false → (s.ctxAt i).found = [] → False) :=
  fun h => h (((inState 4).put (R.FB_CFG_GATE_EN 2 1) true).wr (R.FB_COUNT_GATE_CNT 2 1) 5) (2) (1) (by decide +kernel) (by decide +kernel) (by decide +kernel) (by decide +kernel) (by decide +kernel)

theorem wit_setpointsDropsAndReturns_7 :
    ¬ (∀ (s : State) (i : Fin 256) (j : Fin 16), s.inService = true → s.dropped i j = true →
    bitsOf (s.rd (R.DROP_CAUSE_CAUSE i)) (2 * j) 2 ≠ 0 → s.on (R.FB_CFG_AUTO_READMIT i j) = true →
    s.rd (R.FB_RECOV_RECOV_N i j) ≤ s.rd (R.FB_COUNT_PASS_CNT i j) → False) :=
  fun h => h ((((inState 4).wr (R.COAST_STATUS_DROPPED 2) 2).wr (R.DROP_CAUSE_CAUSE 2) 4).wr (R.FB_COUNT_PASS_CNT 2 1) 16) (2) (1) (by decide +kernel) (by decide +kernel) (by decide +kernel) (by decide +kernel) (by decide +kernel)

theorem wit_setpointsDropsAndReturns_8 :
    ¬ (∀ (s : State) (i : Fin 256) (mask : BitVec 16), s.role = Role.solo → s.inputsRun = true → False) :=
  fun h => h (inState 4) (2) (5) (by decide +kernel) (by decide +kernel)

theorem wit_setpointsDropsAndReturns_9 :
    ¬ (∀ (s : State) (i : Fin 256) (mask : BitVec 16), s.role = Role.solo → s.inputsRun = true → False) :=
  fun h => h ((inState 4).onCtx 2 (fun x => { x with drop := 1 })) (2) (5) (by decide +kernel) (by decide +kernel)

theorem wit_setpointsDropsAndReturns_10 :
    ¬ (∀ (s : State) (i : Fin 256), s.inService = true → s.on (R.COAST_STATUS_COASTING i) = true → (s.ctxAt i).limited = false →
    s.coastLimit i ≤ s.rd (R.COAST_TIME_PERIODS i) → False) :=
  fun h => h (((inState 4).put (R.COAST_STATUS_COASTING 2) true).wr (R.COAST_TIME_PERIODS 2) 500) (2) (by decide +kernel) (by decide +kernel) (by decide +kernel) (by decide +kernel)

theorem wit_levelEngineCommandsTakeEffect_1 :
    ¬ (∀ s : State, s.inService = true → s.role ≠ Role.relay → False) :=
  fun h => h (inState 4) (by decide +kernel) (by decide +kernel)

theorem wit_levelEngineCommandsTakeEffect_2 :
    ¬ (∀ (s : State) (id : BitVec 64), s.inService = true → s.levelsOf (keyOfExt id.toNat) = 1 →
    s.cellCause (keyOfExt id.toNat) (s.view (keyOfExt id.toNat)) = 0 →
    s.rd (R.ARM_MISS_ADMIT_N (s.portArm (keyOfExt id.toNat / 128))) ≤ (s.view (keyOfExt id.toNat)).runAdmit.getD 0 0 →
    (s.view (keyOfExt id.toNat)).eligible.all (fun b => !b) = true → False) :=
  fun h => h (keyed) (0) (by decide +kernel) (by decide +kernel) (by decide +kernel) (by decide +kernel) (by decide +kernel)

theorem wit_levelEngineCommandsTakeEffect_3 :
    ¬ (∀ (s : State) (id : BitVec 64), s.inService = true → s.levelsOf (keyOfExt id.toNat) = 1 →
    s.cellCause (keyOfExt id.toNat) (s.view (keyOfExt id.toNat)) = 4 → False) :=
  fun h => h (keyed.onView 0 (fun v => { v with missed := 4 })) (0) (by decide +kernel) (by decide +kernel) (by decide +kernel)

theorem wit_levelEngineCommandsTakeEffect_4 :
    ¬ (∀ (s : State) (id : BitVec 64), s.inService = true → s.missBypDue (keyOfExt id.toNat) = true → False) :=
  fun h => h ((keyed.wr (R.ARM_MISS_MISS_BYP 0) 10).onView 0 (fun v => { v with missed := 10 })) (0) (by decide +kernel) (by decide +kernel)

theorem wit_levelEngineCommandsTakeEffect_5 :
    ¬ (∀ (s : State) (id : BitVec 64), s.inService = true → s.epochBypDue (keyOfExt id.toNat) = true → False) :=
  fun h => h ((keyed.wr R.ACD_EPOCH_EPOCH_BYP 10).onView 0 (fun v => { v with stale := 10 })) (0) (by decide +kernel) (by decide +kernel)

theorem wit_levelEngineCommandsTakeEffect_6 :
    ¬ (∀ (s : State) (k : Nat), s.inService = true → s.lvl.decayed = false → mapSorted none s.lvl.levels = true →
    (mapKeys s.lvl.levels).contains k = true → s.portArm (k / 128) < 6 →
    s.sys.period % 2 ^ s.rd (R.ARM_BAL_SW_DECAY (s.portArm (k / 128))) = 0 → False) :=
  fun h => h (keyed.onView 0 (fun v => { v with swc := 9 })) (0) (by decide +kernel) (by decide +kernel) (by decide +kernel) (by decide +kernel) (by decide +kernel) (by decide +kernel)

theorem wit_levelEngineCommandsTakeEffect_7 :
    ¬ (∀ s : State, s.inService = true → s.lvl.decayed = true → False) :=
  fun h => h ({ inState 4 with lvl := { (inState 4).lvl with decayed := true } }) (by decide +kernel) (by decide +kernel)

theorem wit_levelEngineCommandsTakeEffect_8 :
    ¬ (∀ (s : State) (id : BitVec 64), s.inService = true → s.levelsOf (keyOfExt id.toNat) ≠ 0 → s.rotationDue (keyOfExt id.toNat) = true → False) :=
  fun h => h ((keyed.wr (R.ARM_CFG_ROT_LIM 0) 8).onView 0 (fun v => { v with pwmRun := 8 })) (0) (by decide +kernel) (by decide +kernel) (by decide +kernel)

theorem wit_levelEngineCommandsTakeEffect_9 :
    ¬ (∀ s : State, s.inputsRun = true → s.st ≠ St.locked → s.rd R.SYNC_CFG_IN_EN = 1 → s.nearBoundary = none → False) :=
  fun h => h ({ (inState 4).put R.SYNC_CFG_IN_EN true with now := 50000 }) (by decide +kernel) (by decide +kernel) (by decide +kernel) (by decide +kernel)

theorem wit_levelEngineCommandsTakeEffect_10 :
    ¬ (∀ (s : State) (k : Nat), s.st = St.energised → s.rd R.SYNC_CFG_IN_EN = 1 → s.nearBoundary = some k → False) :=
  fun h => h ((inState 4).put R.SYNC_CFG_IN_EN true) (0) (by decide +kernel) (by decide +kernel) (by decide +kernel)

theorem wit_levelEngineCommandsTakeEffect_11 :
    ¬ (∀ (s : State) (k : Nat), s.st = St.deblocked → s.rd R.SYNC_CFG_IN_EN = 1 → s.nearBoundary = some k →
    ((upto 6).any fun a => s.crd (R.ARM_CFG_EN a) == 1 && s.crd (R.ARM_CFG_MODE a) == 1 && !s.carrierStart a k) = true → False) :=
  fun h => h (carrying) (1) (by decide +kernel) (by decide +kernel) (by decide +kernel) (by decide +kernel)

theorem wit_cellPlaysItsRecord_1 :
    ¬ (∀ (s : State) (id : BitVec 64) (r : Rec), (s.cell id.toNat).lk.next = some r → (s.cell id.toNat).rd K.PWM_CFG_SYNC_MODE = 0 →
    (s.cell id.toNat).mode = Mode.blocked ∨ (s.cell id.toNat).mode = Mode.running ∨ (s.cell id.toNat).mode = Mode.coasting →
    (s.cell id.toNat).tm.pend = none → (s.cell id.toNat).tm.layout = false → bitOf (byteAt r.header 0) 3 = false →
    bitsOf (byteAt r.body 0) 0 5 = 1 → bitsOf (leAt r.body 2 3) 0 4 ≤ 2 → False) :=
  fun h => h (holding { cellIn 4 with lk := { (cellIn 4).lk with next := some zeroRecord } }) (0) (zeroRecord) (by decide +kernel) (by decide +kernel) (by decide +kernel) (by decide +kernel) (by decide +kernel) (by decide +kernel) (by decide +kernel) (by decide +kernel)

theorem wit_cellPlaysItsRecord_2 :
    ¬ (∀ (s : State) (id : BitVec 64), (s.cell id.toNat).lk.next = none → (s.cell id.toNat).rd K.PWM_CFG_SYNC_MODE = 0 →
    (s.cell id.toNat).mode = Mode.running ∨ (s.cell id.toNat).mode = Mode.coasting →
    (s.cell id.toNat).tm.pend = none → (s.cell id.toNat).tm.layout = false →
    bitsOf ((s.cell id.toNat).pw.entries.getD (Nat.min 4 ((s.cell id.toNat).pw.ix + 1)) 0) 0 4 ≤ 2 → False) :=
  fun h => h (holding (cellIn 5)) (0) (by decide +kernel) (by decide +kernel) (by decide +kernel) (by decide +kernel) (by decide +kernel) (by decide +kernel)

theorem wit_cellPlaysItsRecord_3 :
    ¬ (∀ (s : State) (id : BitVec 64) (at' cls : Nat) (rest : List (Nat × Nat)), (s.cell id.toNat).pw.parts = (at', cls) :: rest → False) :=
  fun h => h (holding { cellIn 5 with pw := { (cellIn 5).pw with parts := [(40, 1)] } }) (0) (40) (1) ([]) (by decide +kernel)

theorem wit_cellPlaysItsRecord_4 :
    ¬ (∀ (s : State) (id : BitVec 64) (leg : Fin 2), (s.cell id.toNat).rd K.PWM_STATUS_STATE = 6 →
    leg = 0 ∨ (s.cell id.toNat).bridge = true → bitOf (s.cell id.toNat).pw.skip leg = false →
    (s.cell id.toNat).rd K.PWM_MINP_MINP ≤ (s.cell id.toNat).legWidth leg (!bitOf (s.cell id.toNat).pw.demand (2 * leg.val)) -
      (s.cell id.toNat).deadTime (if bitOf (s.cell id.toNat).pw.demand (2 * leg.val) then 2 * leg.val + 1 else 2 * leg.val) → False) :=
  fun h => h (holding { (cellIn 5).wr K.PWM_STATUS_STATE 6 with pw := { (cellIn 5).pw with demand := 1 } }) (0) (0) (by decide +kernel) (by decide +kernel) (by decide +kernel) (by decide +kernel)

theorem wit_cellPlaysItsRecord_5 :
    ¬ (∀ (s : State) (id : BitVec 64) (g : Fin 4), bitOf (s.cell id.toNat).pw.wait g = true →
    bitOf ((s.cell id.toNat).rd K.PWM_STATUS_GATES) (otherGate g) = false → False) :=
  fun h => h (holding { cellIn 5 with pw := { (cellIn 5).pw with wait := 2 } }) (0) (1) (by decide +kernel) (by decide +kernel)

theorem wit_cellPlaysItsRecord_6 :
    ¬ (∀ (s : State) (id : BitVec 64), (s.cell id.toNat).pw.openAt.isSome = true → False) :=
  fun h => h (holding { cellIn 5 with pw := { (cellIn 5).pw with openAt := some 100 } }) (0) (by decide +kernel)

theorem wit_cellPlaysItsRecord_7 :
    ¬ (∀ (s : State) (id : BitVec 64) (sign : Bool) (n : Nat), (s.cell id.toNat).pw.opened = some (sign, n) →
    (s.cell id.toNat).rd K.PWM_MASKT_OPEN_MAX ≤ n → (s.cell id.toNat).pw.coastOpen = false → (s.cell id.toNat).mode ≠ Mode.coasting → False) :=
  fun h => h (holding { cellIn 5 with pw := { (cellIn 5).pw with opened := some (true, 200) } }) (0) (true) (200) (by decide +kernel) (by decide +kernel) (by decide +kernel) (by decide +kernel)

theorem wit_cellPlaysItsRecord_8 :
    ¬ (∀ (s : State) (id : BitVec 64), (s.cell id.toNat).mode = Mode.coasting → 3 ≤ (s.cell id.toNat).pw.ix →
    (s.cell id.toNat).rd (K.CFLT_CLASS_CLASS 3 1) ≤ 4 → (s.cell id.toNat).on (K.CFLT_CLASS_BYP 3 1) = false → False) :=
  fun h => h (holding { cellIn 6 with pw := { (cellIn 6).pw with ix := 3 } }) (0) (by decide +kernel) (by decide +kernel) (by decide +kernel) (by decide +kernel)

theorem wit_cellPlaysItsRecord_9 :
    ¬ (∀ (s : State) (id : BitVec 64), (s.cell id.toNat).rd K.PWM_CFG_SYNC_MODE = 2 →
    ((s.now : Int) - 5 * (s.cell id.toNat).syncComp - (s.cell id.toNat).pw.carAt) % (5 * (s.cell id.toNat).tCar) ≤
      5 * (s.cell id.toNat).syncTol → False) :=
  fun h => h (holding ((cellIn 5).wr K.PWM_CFG_SYNC_MODE 2)) (0) (by decide +kernel) (by decide +kernel)

theorem wit_cellPlaysItsRecord_10 :
    ¬ (∀ (s : State) (id : BitVec 64), (s.cell id.toNat).rd K.PWM_CFG_SYNC_MODE = 2 →
    5 * ((s.cell id.toNat).syncTol : Int) <
      ((s.now : Int) - 5 * (s.cell id.toNat).syncComp - (s.cell id.toNat).pw.carAt) % (5 * (s.cell id.toNat).tCar) →
    5 * ((s.cell id.toNat).syncTol : Int) < 5 * (s.cell id.toNat).tCar -
      ((s.now : Int) - 5 * (s.cell id.toNat).syncComp - (s.cell id.toNat).pw.carAt) % (5 * (s.cell id.toNat).tCar) → False) :=
  fun h => h ({ holding (((cellIn 5).wr K.PWM_CFG_SYNC_MODE 2).wr K.PWM_TIME_CAR_N 1) with now := 5000 }) (0) (by decide +kernel) (by decide +kernel) (by decide +kernel)

theorem wit_cellPlaysItsRecord_11 :
    ¬ (∀ (s : State) (id : BitVec 64), (s.cell id.toNat).rd K.PWM_CFG_SYNC_MODE = 2 → False) :=
  fun h => h (holding ((cellIn 5).wr K.PWM_CFG_SYNC_MODE 2)) (0) (by decide +kernel)

theorem wit_tripsAndBypassesHoldTheGatesOff_1 :
    ¬ (∀ (s : State) (id : BitVec 64) (i : Fin 4), (s.cell id.toNat).bit K.TRIP_CFG_TRIP_EN i = true → False) :=
  fun h => h (holding ((cellIn 5).wr K.TRIP_CFG_TRIP_EN 15)) (0) (2) (by decide +kernel)

theorem wit_tripsAndBypassesHoldTheGatesOff_2 :
    ¬ (∀ (s : State) (id : BitVec 64) (i : Fin 4), (s.cell id.toNat).bit K.TRIP_STATUS_CMP_ACT i = true → False) :=
  fun h => h (holding ((cellIn 5).wr K.TRIP_STATUS_CMP_ACT 4)) (0) (2) (by decide +kernel)

theorem wit_tripsAndBypassesHoldTheGatesOff_3 :
    ¬ (∀ (s : State) (id : BitVec 64) (i : Fin 4) (v : BitVec 32), bitOf v.toNat i = true → (s.cell id.toNat).bit K.TRIP_STATUS_TRIP i = true →
    (s.cell id.toNat).bit K.TRIP_STATUS_CMP_ACT i = false → mapGet (fun _ => 0) (s.cell id.toNat).cls i.val ≠ 5 → False) :=
  fun h => h (holding ((cellIn 5).wr K.TRIP_STATUS_TRIP 4)) (0) (2) (4) (by decide +kernel) (by decide +kernel) (by decide +kernel) (by decide +kernel)

theorem wit_tripsAndBypassesHoldTheGatesOff_4 :
    ¬ (∀ (s : State) (id : BitVec 64) (i : Fin 4) (v : BitVec 32), bitOf v.toNat i = true → (s.cell id.toNat).bit K.TRIP_STATUS_TRIP i = true →
    (s.cell id.toNat).bit K.TRIP_STATUS_CMP_ACT i = true → False) :=
  fun h => h (holding (((cellIn 5).wr K.TRIP_STATUS_TRIP 4).wr K.TRIP_STATUS_CMP_ACT 4)) (0) (2) (4) (by decide +kernel) (by decide +kernel) (by decide +kernel)

theorem wit_tripsAndBypassesHoldTheGatesOff_5 :
    ¬ (∀ (s : State) (id : BitVec 64) (g : Fin 4), (s.cell id.toNat).mode ≠ Mode.reset → False) :=
  fun h => h (holding driving) (0) (0) (by decide +kernel)

theorem wit_tripsAndBypassesHoldTheGatesOff_6 :
    ¬ (∀ (s : State) (id : BitVec 64), (s.cell id.toNat).mode ≠ Mode.reset → False) :=
  fun h => h (holding driving) (0) (by decide +kernel)

theorem wit_tripsAndBypassesHoldTheGatesOff_7 :
    ¬ (∀ (s : State) (id : BitVec 64), (s.cell id.toNat).mode ≠ Mode.reset → (s.cell id.toNat).mode ≠ Mode.locked →
    (s.cell id.toNat).rd (K.CFLT_CLASS_CLASS 0 4) ≤ 4 → False) :=
  fun h => h (holding driving) (0) (by decide +kernel) (by decide +kernel) (by decide +kernel)

theorem wit_tripsAndBypassesHoldTheGatesOff_8 :
    ¬ (∀ (s : State) (id : BitVec 64) (v : BitVec 32), bitOf v.toNat 0 = true → bitsOf v.toNat 16 16 = 0xA5A5 →
    (s.cell id.toNat).mode ≠ Mode.reset → (s.cell id.toNat).mode ≠ Mode.locked → (s.cell id.toNat).pw.byp = false → False) :=
  fun h => h (holding driving) (0) (0xA5A50001) (by decide +kernel) (by decide +kernel) (by decide +kernel) (by decide +kernel) (by decide +kernel)

theorem wit_tripsAndBypassesHoldTheGatesOff_9 :
    ¬ (∀ (s : State) (id : BitVec 64) (v : BitVec 32), bitsOf v.toNat 16 16 ≠ 0xA5A5 → False) :=
  fun h => h (holding driving) (0) (0xA5A40001) (by decide +kernel)

theorem wit_tripsAndBypassesHoldTheGatesOff_10 :
    ¬ (∀ (s : State) (id : BitVec 64), (s.cell id.toNat).pw.bypassing = true → False) :=
  fun h => h (holding { driving with pw := { driving.pw with bypassing := true } }) (0) (by decide +kernel)

theorem wit_linksLockTrainAndLaunch_1 :
    ¬ (∀ (s : State) (p : Fin 48), s.portLive p = true → False) :=
  fun h => h (inState 4) (3) (by decide +kernel)

theorem wit_linksLockTrainAndLaunch_2 :
    ¬ (∀ (s : State) (id : BitVec 64) (p : Fin 3), (s.cell id.toNat).mode ≠ Mode.reset → (s.cell id.toNat).mode ≠ Mode.selfTest → False) :=
  fun h => h (holding (cellIn 2)) (0) (0) (by decide +kernel) (by decide +kernel)

theorem wit_linksLockTrainAndLaunch_3 :
    ¬ (∀ (s : State) (p : Fin 48), s.on (R.PORT_STATUS_LOCK p) = true → s.rd (R.FLT_SRC_CFG_BASE 66) ≤ 2 → s.rd (R.FLT_SRC_CFG_ESC_N 66) = 0 → False) :=
  fun h => h ((inState 4).put (R.PORT_STATUS_LOCK 3) true) (3) (by decide +kernel) (by decide +kernel) (by decide +kernel)

theorem wit_linksLockTrainAndLaunch_4 :
    ¬ (∀ (s : State) (id : BitVec 64) (p : Fin 3), p.val < 2 → (s.cell id.toNat).lk.ref = some p.val →
    bitOf (s.cell id.toNat).lk.locks (otherPort p) = false → False) :=
  fun h => h (holding linked) (0) (0) (by decide +kernel) (by decide +kernel) (by decide +kernel)

theorem wit_linksLockTrainAndLaunch_5 :
    ¬ (∀ (s : State) (a : Fin 4), s.on (R.ACD_PORTST_TRAINED a) = true → False) :=
  fun h => h ((inState 4).put (R.ACD_PORTST_TRAINED 1) true) (1) (by decide +kernel)

theorem wit_linksLockTrainAndLaunch_6 :
    ¬ (∀ (s : State) (p : Fin 48) (d2 d3 members : BitVec 8) (prop : BitVec 16), s.portLive p = true → s.launching = true →
    s.inService = false → s.on (R.ENUM_STATUS_BUSY p) = false → False) :=
  fun h => h (inState 3) (3) (0x12) (0) (0) (0) (by decide +kernel) (by decide +kernel) (by decide +kernel) (by decide +kernel)

theorem wit_linksLockTrainAndLaunch_7 :
    ¬ (∀ (s : State) (p : Fin 48) (d2 d3 members : BitVec 8) (prop : BitVec 16), s.portLive p = true → s.launching = false →
    0 < d3.toNat → d3.toNat ≤ 95 → s.inService = false ∨ s.crd R.PERIOD_CFG_DS = 0 ∨ (s.port p).out = false → False) :=
  fun h => h ((inState 4).wr R.DEV_STATE_ROLE Role.standby) (3) (0x12) (40) (0) (0) (by decide +kernel) (by decide +kernel) (by decide +kernel) (by decide +kernel) (by decide +kernel)

theorem wit_linksLockTrainAndLaunch_8 :
    ¬ (∀ (s : State) (id : BitVec 64) (d2 d3 members : BitVec 8) (prop : BitVec 16), (s.cell id.toNat).mode ≠ Mode.reset →
    (s.cell id.toNat).mode ≠ Mode.selfTest → (s.cell id.toNat).lk.up ≠ some 2 → False) :=
  fun h => h (holding (cellIn 2)) (0) (0x12) (0) (3) (50) (by decide +kernel) (by decide +kernel) (by decide +kernel)

theorem wit_linksLockTrainAndLaunch_9 :
    ¬ (∀ (s : State) (p : Fin 48), s.portLive p = true → s.on (R.PORT_STATUS_TRAINED p) = false →
    s.rd (R.FLT_SRC_CFG_BASE 67) ≤ 2 → s.rd (R.FLT_SRC_CFG_ESC_N 67) = 0 → False) :=
  fun h => h (inState 4) (3) (by decide +kernel) (by decide +kernel) (by decide +kernel) (by decide +kernel)

theorem wit_linksLockTrainAndLaunch_10 :
    ¬ (∀ (s : State) (p : Fin 48) (at' : Nat) (rest : List (Nat × Nat)), (s.port p).queue = (2, at') :: rest → s.now ≤ s.sys.t0 + 10 * at' →
    s.mayLaunch p = true → s.tie.turn = false → s.servedFromTail p = false → False) :=
  fun h => h (queued 2) (3) (100) ([]) (by decide +kernel) (by decide +kernel) (by decide +kernel) (by decide +kernel) (by decide +kernel)

theorem wit_linksLockTrainAndLaunch_11 :
    ¬ (∀ (s : State) (p : Fin 48) (at' : Nat) (rest : List (Nat × Nat)), (s.port p).queue = (2, at') :: rest →
    s.sys.t0 + 10 * at' < s.now → s.rd (R.FLT_SRC_CFG_BASE 68) ≤ 2 → s.rd (R.FLT_SRC_CFG_ESC_N 68) = 0 → False) :=
  fun h => h ({ queued 2 with now := 2000 }) (3) (100) ([]) (by decide +kernel) (by decide +kernel) (by decide +kernel) (by decide +kernel)

theorem wit_linksLockTrainAndLaunch_12 :
    ¬ (∀ (s : State) (p : Fin 48) (at' : Nat) (rest : List (Nat × Nat)), (s.port p).queue = (1, at') :: rest → s.now ≤ s.sys.t0 + 10 * at' →
    s.mayLaunch p = true → s.servedFromTail p = false → (s.port p).txn = none → s.od.jobs = [] → False) :=
  fun h => h (queued 1) (3) (100) ([]) (by decide +kernel) (by decide +kernel) (by decide +kernel) (by decide +kernel) (by decide +kernel) (by decide +kernel)

theorem wit_linksLockTrainAndLaunch_13 :
    ¬ (∀ (s : State) (p : Fin 48) (at' : Nat) (rest : List (Nat × Nat)) (x : Txn), (s.port p).queue = (1, at') :: rest →
    s.now ≤ s.sys.t0 + 10 * at' → s.mayLaunch p = true → s.role = Role.solo ∨ s.role = Role.active → s.servedFromTail p = false →
    (s.port p).txn = some x → x.ready = true → x.tag = .soft → x.closesAtLaunch = false → x.req.op ≠ 5 → s.od.jobs = [] → False) :=
  fun h => h ((queued 1).onPort 3 (fun x => { x with txn := some aTxn })) (3) (100) ([]) (aTxn) (by decide +kernel) (by decide +kernel) (by decide +kernel) (by decide +kernel) (by decide +kernel) (by decide +kernel) (by decide +kernel) (by decide +kernel) (by decide +kernel) (by decide +kernel) (by decide +kernel)

theorem wit_linksLockTrainAndLaunch_14 :
    ¬ (∀ (s : State) (p : Fin 48), s.st ≠ St.reset → s.st ≠ St.selfTest → s.role = Role.solo → False) :=
  fun h => h ((inState 4).wr (R.ERR_A_HDR_CRC 3) 5) (3) (by decide +kernel) (by decide +kernel) (by decide +kernel)

theorem wit_framesReachCellsAndHead_1 :
    ¬ (∀ (s : State) (id : BitVec 64) (p : Fin 2), (s.cell id.toNat).mode ≠ Mode.reset → (s.cell id.toNat).mode ≠ Mode.selfTest → False) :=
  fun h => h (holding joined) (0) (0) (by decide +kernel) (by decide +kernel)

theorem wit_framesReachCellsAndHead_2 :
    ¬ (∀ (s : State) (id : BitVec 64) (p : Fin 2) (d2 d3 : BitVec 8), (s.cell id.toNat).mode ≠ Mode.reset →
    (s.cell id.toNat).mode ≠ Mode.selfTest → d2 ≠ 0x5A ∨ d3 ≠ 0xA5 → False) :=
  fun h => h (holding joined) (0) (0) (1) (2) (by decide +kernel) (by decide +kernel) (by decide +kernel)

theorem wit_framesReachCellsAndHead_3 :
    ¬ (∀ (s : State) (id : BitVec 64) (p : Fin 2) (f : List Byte), (s.cell id.toNat).mode ≠ Mode.reset → (s.cell id.toNat).mode ≠ Mode.selfTest →
    Hdr.type f = 1 ∨ Hdr.type f = 2 → Hdr.block f = true ∨ Hdr.nblock f = false → f ≠ [] → Hdr.crc f = .bad → False) :=
  fun h => h (holding joined) (0) (0) (blockFrame) (by decide +kernel) (by decide +kernel) (by decide +kernel) (by decide +kernel) (by decide +kernel) (by decide +kernel)

theorem wit_framesReachCellsAndHead_4 :
    ¬ (∀ (s : State) (id : BitVec 64) (p : Fin 2) (f : List Byte), (s.cell id.toNat).mode = Mode.running → Hdr.type f = 1 →
    Hdr.block f = false → Hdr.nblock f = true → Hdr.maint f = false → Hdr.crc f = .good → 32 ≤ f.length → Hdr.ver f ≤ 0x12 →
    (s.cell id.toNat).hasPos = true → (s.cell id.toNat).isLow p = true → (s.cell id.toNat).on K.SUB_CFG_HEAD_EN = false →
    (s.cell id.toNat).tm.armed = false → (s.cell id.toNat).lk.counted = false ∨ Hdr.period f = (s.cell id.toNat).lk.period →
    slotState (s.cell id.toNat).pos f ((s.cell id.toNat).rd K.LNK_CFG_CMD_OFF) 16 = .good → False) :=
  fun h => h (holding { joined with mode := Mode.running }) (0) (0) (goodFrame) (by decide +kernel) (by decide +kernel) (by decide +kernel) (by decide +kernel) (by decide +kernel) (by decide +kernel) (by decide +kernel) (by decide +kernel) (by decide +kernel) (by decide +kernel) (by decide +kernel) (by decide +kernel) (by decide +kernel) (by decide +kernel)

theorem wit_framesReachCellsAndHead_5 :
    ¬ (∀ (s : State) (id : BitVec 64) (p : Fin 2) (f : List Byte), (s.cell id.toNat).mode ≠ Mode.reset → (s.cell id.toNat).mode ≠ Mode.selfTest →
    Hdr.type f = 3 → (s.cell id.toNat).hasPos = true → (s.cell id.toNat).lk.owed = [] → (s.cell id.toNat).forwards p = true →
    (s.cell id.toNat).lk.originated = false → False) :=
  fun h => h (holding joined) (0) (0) (upFrame) (by decide +kernel) (by decide +kernel) (by decide +kernel) (by decide +kernel) (by decide +kernel) (by decide +kernel) (by decide +kernel)

theorem wit_framesReachCellsAndHead_6 :
    ¬ (∀ (s : State) (id : BitVec 64) (p : Fin 2) (f : List Byte) (r : MbRsp) (rest : List MbRsp), (s.cell id.toNat).mode ≠ Mode.reset →
    (s.cell id.toNat).mode ≠ Mode.selfTest → Hdr.type f = 3 → Hdr.crc f = .good → (s.cell id.toNat).hasPos = true →
    (s.cell id.toNat).lk.owed = r :: rest → r.due ≤ Hdr.period f → bitsOf (byteAt f 12) 0 4 = 0 → 32 ≤ (s.cell id.toNat).colOff p →
    (s.cell id.toNat).forwards p = true → (s.cell id.toNat).lk.originated = false → 32 ≤ f.length → False) :=
  fun h => h (holding { joined with lk := { joined.lk with owed := [aRsp] } }) (0) (0) (upFrame) (aRsp) ([]) (by decide +kernel) (by decide +kernel) (by decide +kernel) (by decide +kernel) (by decide +kernel) (by decide +kernel) (by decide +kernel) (by decide +kernel) (by decide +kernel) (by decide +kernel) (by decide +kernel) (by decide +kernel)

theorem wit_framesReachCellsAndHead_7 :
    ¬ (∀ (s : State) (id : BitVec 64) (p : Fin 2) (f : List Byte) (r : MbRsp) (rest : List MbRsp), (s.cell id.toNat).mode ≠ Mode.reset →
    (s.cell id.toNat).mode ≠ Mode.selfTest → Hdr.type f = 3 → (s.cell id.toNat).hasPos = true → 32 ≤ f.length →
    (s.cell id.toNat).lk.owed = r :: rest → r.due ≤ Hdr.period f → bitsOf (byteAt f 12) 0 4 ≠ 0 → 32 ≤ (s.cell id.toNat).colOff p → False) :=
  fun h => h (holding { joined with lk := { joined.lk with owed := [aRsp] } }) (0) (0) (busyFrame) (aRsp) ([]) (by decide +kernel) (by decide +kernel) (by decide +kernel) (by decide +kernel) (by decide +kernel) (by decide +kernel) (by decide +kernel) (by decide +kernel) (by decide +kernel)

theorem wit_framesReachCellsAndHead_8 :
    ¬ (∀ (s : State) (id : BitVec 64), (s.cell id.toNat).originator = true → (s.cell id.toNat).lk.header.length = 32 → False) :=
  fun h => h (holding { joined.put K.LNK_CFG2_FAR_END true with lk := { joined.lk with headerSince := true, header := goodFrame.take 32 } }) (0) (by decide +kernel) (by decide +kernel)

theorem wit_framesReachCellsAndHead_9 :
    ¬ (∀ (s : State) (id : BitVec 64), (s.cell id.toNat).originator = false → False) :=
  fun h => h (holding joined) (0) (by decide +kernel)

theorem wit_framesReachCellsAndHead_10 :
    ¬ (∀ (s : State) (p : Fin 48) (f : List Byte), s.on (R.PORT_STATUS_TRAINED p) = true → s.rd (R.PORT_STATUS_END p) = 1 → Hdr.type f = 3 →
    Hdr.crc f = .good → bitsOf (byteAt f 12) 0 4 = 0 → s.now ≤ s.sys.t0 + s.tCa → s.fCol p ≤ f.length → (s.port p).good = [] →
    (upto (s.ncell p)).all (fun pos => slotState pos f (s.cupOff p pos) 16 == .good && !s.sillage p pos &&
      bitsOf (byteAt f (s.cupOff p pos + 8)) 0 3 == 0) = true → False) :=
  fun h => h (heading) (3) (upFrame) (by decide +kernel) (by decide +kernel) (by decide +kernel) (by decide +kernel) (by decide +kernel) (by decide +kernel) (by decide +kernel) (by decide +kernel) (by decide +kernel)

theorem wit_framesReachCellsAndHead_11 :
    ¬ (∀ (s : State) (p : Fin 48) (f : List Byte), s.on (R.PORT_STATUS_TRAINED p) = true → s.rd (R.PORT_STATUS_END p) = 1 → Hdr.type f = 3 →
    Hdr.crc f ≠ .good → s.sys.t0 + s.tCa < s.now → False) :=
  fun h => h ({ heading with now := 60000 }) (3) (busyFrame) (by decide +kernel) (by decide +kernel) (by decide +kernel) (by decide +kernel) (by decide +kernel)

theorem wit_mailboxTransactionsRunOnce_1 :
    ¬ (∀ (s : State) (p : Fin 48), s.st ≠ St.reset → s.st ≠ St.selfTest → s.role = Role.solo → s.on (R.MB_STATUS_BUSY p) = false →
    s.goRefused p (s.softReq p) = none → False) :=
  fun h => h (inState 4) (3) (by decide +kernel) (by decide +kernel) (by decide +kernel) (by decide +kernel) (by decide +kernel)

theorem wit_mailboxTransactionsRunOnce_2 :
    ¬ (∀ (s : State) (p : Fin 48), s.st ≠ St.reset → s.st ≠ St.selfTest → s.role = Role.solo → s.on (R.MB_STATUS_BUSY p) = true → False) :=
  fun h => h ((inState 4).put (R.MB_STATUS_BUSY 3) true) (3) (by decide +kernel) (by decide +kernel) (by decide +kernel) (by decide +kernel)

theorem wit_mailboxTransactionsRunOnce_3 :
    ¬ (∀ (s : State) (id : BitVec 64) (r : MbReq) (d : Nat), (s.cell id.toNat).lk.inbox = some r → r.op = 1 → r.bc = false → r.addr % 4 = 0 →
    (s.cell id.toNat).readReg s.now (uidOf id.toNat) r.addr = some d → False) :=
  fun h => h (holding (asking 1 0x20048 0)) (0) ({ reqTo 1 0 0 0x20048 0 with seq := 5 }) (0) (by decide +kernel) (by decide +kernel) (by decide +kernel) (by decide +kernel) (by decide +kernel)

theorem wit_mailboxTransactionsRunOnce_4 :
    ¬ (∀ (s : State) (id : BitVec 64) (r : MbReq), (s.cell id.toNat).lk.inbox = some r → r.op = 2 → r.bc = false → r.addr = 0x10008 →
    (s.cell id.toNat).writable = false → bitsOf r.data 0 16 ≠ (s.cell id.toNat).rd K.LNK_ORIG_T_ORIG → False) :=
  fun h => h (holding { asking 2 0x10008 100 with mode := 4 }) (0) ({ reqTo 2 0 0 0x10008 100 with seq := 5 }) (by decide +kernel) (by decide +kernel) (by decide +kernel) (by decide +kernel) (by decide +kernel) (by decide +kernel)

theorem wit_mailboxTransactionsRunOnce_5 :
    ¬ (∀ (s : State) (id : BitVec 64) (r : MbReq), (s.cell id.toNat).lk.inbox = some r → r.op = 2 → r.bc = false → r.addr = 0x10008 →
    (s.cell id.toNat).writable = true → False) :=
  fun h => h (holding { asking 2 0x10008 100 with mode := 3 }) (0) ({ reqTo 2 0 0 0x10008 100 with seq := 5 }) (by decide +kernel) (by decide +kernel) (by decide +kernel) (by decide +kernel) (by decide +kernel)

theorem wit_mailboxTransactionsRunOnce_6 :
    ¬ (∀ (s : State) (id : BitVec 64) (r : MbReq) (d : Nat), (s.cell id.toNat).lk.inbox = some r → r.op = 3 → r.bc = false → r.addr % 4 = 0 →
    0x13 ≤ (s.cell id.toNat).runVer → (s.cell id.toNat).readReg s.now (uidOf id.toNat) r.addr = some d →
    ((s.cell id.toNat).writeReg s.now r.addr d).1.lk = (s.cell id.toNat).lk → False) :=
  fun h => h (holding { asking 3 0x20048 0 with lk := { (asking 3 0x20048 0).lk with header := 129#8 :: 0x13#8 :: List.replicate 30 0#8 } }) (0) ({ reqTo 3 0 0 0x20048 0 with seq := 5 }) (0) (by decide +kernel) (by decide +kernel) (by decide +kernel) (by decide +kernel) (by decide +kernel) (by decide +kernel) (by decide +kernel)

theorem wit_mailboxTransactionsRunOnce_7 :
    ¬ (∀ (s : State) (id : BitVec 64) (r : MbReq), (s.cell id.toNat).lk.inbox = some r → r.op = 4 → r.addr = 1 →
    (s.cell id.toNat).mode = Mode.safeHold ∨ (s.cell id.toNat).mode = Mode.enumerated ∨ (s.cell id.toNat).mode = Mode.blocked ∨
      (s.cell id.toNat).mode = Mode.bypassed → False) :=
  fun h => h (holding (asking 4 1 0)) (0) ({ reqTo 4 0 0 1 0 with seq := 5 }) (by decide +kernel) (by decide +kernel) (by decide +kernel) (by decide +kernel)

theorem wit_mailboxTransactionsRunOnce_8 :
    ¬ (∀ (s : State) (id : BitVec 64) (r : MbReq), (s.cell id.toNat).lk.inbox = some r → r.op = 4 → r.addr = 2 → r.data = 0xA5A5 → r.bc = false →
    (s.cell id.toNat).mode ≠ Mode.reset → (s.cell id.toNat).mode ≠ Mode.locked → (s.cell id.toNat).pw.byp = false → False) :=
  fun h => h (holding (asking 4 2 0xA5A5)) (0) ({ reqTo 4 0 0 2 0xA5A5 with seq := 5 }) (by decide +kernel) (by decide +kernel) (by decide +kernel) (by decide +kernel) (by decide +kernel) (by decide +kernel) (by decide +kernel) (by decide +kernel)

theorem wit_mailboxTransactionsRunOnce_9 :
    ¬ (∀ (s : State) (id : BitVec 64) (r : MbReq), (s.cell id.toNat).lk.inbox = some r → r.op = 5 → r.addr = 0x10008 →
    (s.cell id.toNat).writable = true → r.path < 2 ^ 16 → False) :=
  fun h => h (holding (asking 5 0x10008 0)) (0) ({ reqTo 5 0 0 0x10008 0 with seq := 5 }) (by decide +kernel) (by decide +kernel) (by decide +kernel) (by decide +kernel) (by decide +kernel)

theorem wit_mailboxTransactionsRunOnce_10 :
    ¬ (∀ (s : State) (id : BitVec 64) (r : MbReq), (s.cell id.toNat).lk.inbox = some r → r.op = 6 → r.bc = false → r.addr < 6 → False) :=
  fun h => h (holding (asking 6 2 0)) (0) ({ reqTo 6 0 0 2 0 with seq := 5 }) (by decide +kernel) (by decide +kernel) (by decide +kernel) (by decide +kernel)

theorem wit_mailboxTransactionsRunOnce_11 :
    ¬ (∀ (s : State) (id : BitVec 64) (r : MbReq), (s.cell id.toNat).lk.inbox = some r → r.op = 6 → r.bc = false → 6 ≤ r.addr → False) :=
  fun h => h (holding { asking 6 2 0 with lk := { (asking 6 9 0).lk with inbox := some (reqTo 6 0 0 9 0) } }) (0) (reqTo 6 0 0 9 0) (by decide +kernel) (by decide +kernel) (by decide +kernel) (by decide +kernel)

theorem wit_mailboxTransactionsRunOnce_12 :
    ¬ (∀ (s : State) (id : BitVec 64) (r : MbReq), (s.cell id.toNat).lk.inbox = some r → r.op = 7 → r.bc = false → r.addr = 1 →
    (s.cell id.toNat).mode = Mode.safeHold ∨ (s.cell id.toNat).mode = Mode.enumerated → False) :=
  fun h => h (holding { asking 7 1 0 with mode := 2, stFail := true }) (0) ({ reqTo 7 0 0 1 0 with seq := 5 }) (by decide +kernel) (by decide +kernel) (by decide +kernel) (by decide +kernel) (by decide +kernel)

theorem wit_mailboxTransactionsRunOnce_13 :
    ¬ (∀ (s : State) (p : Fin 48) (x : Txn) (b : List Byte), (s.port p).rsp = some b → (s.port p).txn = some x → x.tag = .soft → 0 < x.tries →
    bitsOf (byteAt b 0) 0 4 = x.req.op → bitsOf (byteAt b 0) 4 4 = x.req.seq → bitsOf (byteAt b 1) 0 7 = x.req.pos →
    bitsOf (byteAt b 14) 0 1 = x.req.orig → (s.port p).own = [] → (s.port p).partner = [] → s.od.jobs = [] → False) :=
  fun h => h (waiting) (3) ({ aTxn with ready := false, due := 9, tries := 1 }) ([81#8, 10#8, 0#8, 0#8, 0#8, 0#8, 72#8, 0#8, 2#8, 0#8, 3#8, 0#8, 0#8, 0#8, 0#8, 0#8, 1#8, 1#8, 1#8, 1#8]) (by decide +kernel) (by decide +kernel) (by decide +kernel) (by decide +kernel) (by decide +kernel) (by decide +kernel) (by decide +kernel) (by decide +kernel) (by decide +kernel) (by decide +kernel) (by decide +kernel)

theorem wit_mailboxTransactionsRunOnce_14 :
    ¬ (∀ (s : State) (p : Fin 48) (x : Txn), (s.port p).txn = some x → x.ready = false → x.due + s.rd (R.PORT_CFG_MB_TO p) ≤ s.sys.period →
    x.tries ≤ s.rd (R.PORT_CFG_MB_RETRY p) → s.od.jobs = [] → False) :=
  fun h => h ({ waiting with sys := { waiting.sys with period := 13 } }) (3) ({ aTxn with ready := false, due := 9, tries := 1 }) (by decide +kernel) (by decide +kernel) (by decide +kernel) (by decide +kernel) (by decide +kernel)

theorem wit_mailboxTransactionsRunOnce_15 :
    ¬ (∀ (s : State) (p : Fin 48) (x : Txn), (s.port p).txn = some x → x.ready = false → x.due + s.rd (R.PORT_CFG_MB_TO p) ≤ s.sys.period →
    s.rd (R.PORT_CFG_MB_RETRY p) < x.tries → x.tag = .soft → (s.port p).own = [] → (s.port p).partner = [] → s.od.jobs = [] → False) :=
  fun h => h ({ (waiting.wr (R.PORT_CFG_MB_RETRY 3) 0) with sys := { waiting.sys with period := 13 } }) (3) ({ aTxn with ready := false, due := 9, tries := 1 }) (by decide +kernel) (by decide +kernel) (by decide +kernel) (by decide +kernel) (by decide +kernel) (by decide +kernel) (by decide +kernel) (by decide +kernel)

theorem wit_cellsAreFoundAcceptedAndJoined_1 :
    ¬ (∀ (s : State) (id : BitVec 64) (p : Fin 2) (d2 d3 : BitVec 8), (s.cell id.toNat).mode ≠ Mode.reset →
    (s.cell id.toNat).mode ≠ Mode.selfTest → (s.cell id.toNat).lk.up = none → d3.toNat ≤ 0x5F → False) :=
  fun h => h (holding (cellIn 2)) (0) (0) (0x13) (4) (by decide +kernel) (by decide +kernel) (by decide +kernel) (by decide +kernel)

theorem wit_cellsAreFoundAcceptedAndJoined_2 :
    ¬ (∀ (s : State) (id : BitVec 64) (p : Fin 2) (d2 d3 : BitVec 8), (s.cell id.toNat).mode ≠ Mode.reset →
    (s.cell id.toNat).mode ≠ Mode.selfTest → (s.cell id.toNat).lk.up = some (otherPort p) → False) :=
  fun h => h (holding { cellIn 2 with lk := { (cellIn 2).lk with up := some 1 } }) (0) (0) (0x13) (4) (by decide +kernel) (by decide +kernel) (by decide +kernel)

theorem wit_cellsAreFoundAcceptedAndJoined_3 :
    ¬ (∀ (s : State) (p : Fin 48), s.st ≠ St.reset → s.st ≠ St.selfTest → s.role = Role.solo → s.on (R.ENUM_STATUS_BUSY p) = false → False) :=
  fun h => h (inState 3) (3) (by decide +kernel) (by decide +kernel) (by decide +kernel) (by decide +kernel)

theorem wit_cellsAreFoundAcceptedAndJoined_4 :
    ¬ (∀ (s : State) (p : Fin 48) (pos : Fin 96) (v : BitVec 32), s.writable = true → s.role = Role.solo → s.on (R.ENUM_STATUS_BUSY p) = false →
    bitOf v.toNat 3 = false → bitOf v.toNat 4 = false → bitsOf v.toNat 8 7 = pos.val →
    s.rd (R.EXP_W3_VERDICT p pos) = Verdict.foreign ∨ s.rd (R.EXP_W3_VERDICT p pos) = Verdict.unexpected →
    (s.port p).txn = none → (s.port p).own = [] → False) :=
  fun h => h ((inState 3).wr (R.EXP_W3_VERDICT 3 5) 2) (3) (5) (0x500) (by decide +kernel) (by decide +kernel) (by decide +kernel) (by decide +kernel) (by decide +kernel) (by decide +kernel) (by decide +kernel) (by decide +kernel) (by decide +kernel)

theorem wit_cellsAreFoundAcceptedAndJoined_5 :
    ¬ (∀ (s : State) (p : Fin 48) (pos : Fin 96) (v : BitVec 32), s.writable = true → s.role = Role.solo → s.on (R.ENUM_STATUS_BUSY p) = false →
    bitOf v.toNat 3 = false → bitOf v.toNat 4 = false → bitsOf v.toNat 8 7 = pos.val →
    s.rd (R.EXP_W3_VERDICT p pos) ≠ Verdict.foreign → s.rd (R.EXP_W3_VERDICT p pos) ≠ Verdict.unexpected → False) :=
  fun h => h (inState 3) (3) (5) (0x500) (by decide +kernel) (by decide +kernel) (by decide +kernel) (by decide +kernel) (by decide +kernel) (by decide +kernel) (by decide +kernel) (by decide +kernel)

theorem wit_cellsAreFoundAcceptedAndJoined_6 :
    ¬ (∀ (s : State) (p : Fin 48) (pos : Fin 96), s.inService = true → s.controls = true → (s.port p).joinFailed = [(pos.val, 0)] →
    (s.port p).txn = none → (s.port p).own = [] → False) :=
  fun h => h ((inState 4).onPort 3 (fun x => { x with joinFailed := [(5, 0)] })) (3) (5) (by decide +kernel) (by decide +kernel) (by decide +kernel) (by decide +kernel) (by decide +kernel)

theorem wit_cellsAreFoundAcceptedAndJoined_7 :
    ¬ (∀ (s : State) (p uid ver low : Nat), bitsOf ver 8 8 = low → s.rd (R.ENUM_VER_RUN p) = 0 → low ≤ 0x13 → bitsOf ver 4 4 = 1 → False) :=
  fun h => h (inState 3) (3) (5) (0x1012) (0x10) (by decide +kernel) (by decide +kernel) (by decide +kernel) (by decide +kernel)

theorem wit_cellsMeasureAndCalibrate_1 :
    ¬ (∀ (s : State) (id : BitVec 64) (raw : BitVec 16), (s.cell id.toNat).ad.elem < (s.cell id.toNat).hrd K.SEQ_CFG_SEQ_LEN →
    (s.cell id.toNat).channelOk ((s.cell id.toNat).element (s.cell id.toNat).ad.elem) = true → (s.cell id.toNat).ad.suspect = 0 → False) :=
  fun h => h (holding (cellIn 2)) (0) (1000) (by decide +kernel) (by decide +kernel) (by decide +kernel)

theorem wit_cellsMeasureAndCalibrate_2 :
    ¬ (∀ (s : State) (id : BitVec 64) (raw : BitVec 16) (range : Fin 3), range ≠ 0 →
    (s.cell id.toNat).ad.elem < (s.cell id.toNat).hrd K.SEQ_CFG_SEQ_LEN →
    (s.cell id.toNat).channelOk ((s.cell id.toNat).element (s.cell id.toNat).ad.elem) = true →
    (s.cell id.toNat).rd (K.CFLT_CLASS_CLASS 1 0) ≤ 2 → (s.cell id.toNat).on (K.CFLT_CLASS_BYP 1 0) = false → False) :=
  fun h => h (holding (cellIn 2)) (0) (1000) (1) (by decide +kernel) (by decide +kernel) (by decide +kernel) (by decide +kernel) (by decide +kernel)

theorem wit_cellsMeasureAndCalibrate_3 :
    ¬ (∀ (s : State) (id : BitVec 64) (raw : BitVec 16) (ch : Nat) (urgent : Bool), injNext (s.cell id.toNat).ad.inj = some (ch, urgent) →
    ch < 12 → (s.cell id.toNat).ad.inj.length ≤ 4 → False) :=
  fun h => h (holding { cellIn 2 with ad := { (cellIn 2).ad with inj := [(3, true)] } }) (0) (1000) (3) (true) (by decide +kernel) (by decide +kernel) (by decide +kernel)

theorem wit_cellsMeasureAndCalibrate_4 :
    ¬ (∀ (s : State) (id : BitVec 64) (raw : BitVec 16) (step ch ref n : Nat) (sum : Int), (s.cell id.toNat).ad.cal = some (step, ch, ref, n, sum) →
    (s.cell id.toNat).ad.suspect = 0 → (s.cell id.toNat).rd K.CAL_STATUS_CONV < n → n ≤ 64 → False) :=
  fun h => h (holding calibrating) (0) (1000) (1) (4) (0) (16) (0) (by decide +kernel) (by decide +kernel) (by decide +kernel) (by decide +kernel)

theorem wit_cellsMeasureAndCalibrate_5 :
    ¬ (∀ (s : State) (id : BitVec 64) (ch : Fin 16) (urgent : Bool), (s.cell id.toNat).hold.channelOk ch = true →
    (s.cell id.toNat).ad.inj.length < 4 → False) :=
  fun h => h (holding (cellIn 2)) (0) (3) (true) (by decide +kernel) (by decide +kernel)

theorem wit_cellsMeasureAndCalibrate_6 :
    ¬ (∀ (s : State) (id : BitVec 64) (ch : Fin 16) (urgent : Bool), 4 ≤ (s.cell id.toNat).ad.inj.length →
    (s.cell id.toNat).hold.channelOk ch = true → False) :=
  fun h => h (holding { cellIn 2 with ad := { (cellIn 2).ad with inj := List.replicate 4 (3, false) } }) (0) (3) (true) (by decide +kernel) (by decide +kernel)

theorem wit_cellsMeasureAndCalibrate_7 :
    ¬ (∀ (s : State) (id : BitVec 64) (ch : Fin 16), (s.cell id.toNat).writable = true → (s.cell id.toNat).on K.CAL_STATUS_CAL_BUSY = false →
    (s.cell id.toNat).hold.channelOk ch = true → False) :=
  fun h => h (holding (cellIn 2)) (0) (4) (by decide +kernel) (by decide +kernel) (by decide +kernel)

theorem wit_cellsMeasureAndCalibrate_8 :
    ¬ (∀ (s : State) (id : BitVec 64) (ch : Fin 16), (s.cell id.toNat).writable = false ∨ (s.cell id.toNat).on K.CAL_STATUS_CAL_BUSY = true → False) :=
  fun h => h (holding (cellIn 4)) (0) (4) (by decide +kernel)

theorem wit_cellsMeasureAndCalibrate_9 :
    ¬ (∀ (s : State) (id : BitVec 64) (ch : Fin 16) (ref : BitVec 16), (s.cell id.toNat).writable = true →
    (s.cell id.toNat).on K.CAL_STATUS_CAL_BUSY = false → (s.cell id.toNat).hold.channelOk ch = true →
    (s.cell id.toNat).ad.zero.map Prod.fst = some ch.val → False) :=
  fun h => h (holding { cellIn 3 with ad := { (cellIn 3).ad with zero := some (4, 212) } }) (0) (4) (60000) (by decide +kernel) (by decide +kernel) (by decide +kernel) (by decide +kernel)

theorem wit_cellsMeasureAndCalibrate_10 :
    ¬ (∀ (s : State) (id : BitVec 64) (ch : Fin 16) (ref : BitVec 16), (s.cell id.toNat).writable = true →
    (s.cell id.toNat).on K.CAL_STATUS_CAL_BUSY = false → (s.cell id.toNat).hold.channelOk ch = true →
    (s.cell id.toNat).ad.zero.map Prod.fst ≠ some ch.val → False) :=
  fun h => h (holding (cellIn 3)) (0) (4) (60000) (by decide +kernel) (by decide +kernel) (by decide +kernel) (by decide +kernel)

theorem wit_cellsMeasureAndCalibrate_11 :
    ¬ (∀ (s : State) (id : BitVec 64), (s.cell id.toNat).on K.CAL_STATUS_CAL_BUSY = true → False) :=
  fun h => h (holding calibrating) (0) (by decide +kernel)

theorem wit_cellsMeasureAndCalibrate_12 :
    ¬ (∀ (s : State) (id : BitVec 64) (ch ref n : Nat) (sum : Int), (s.cell id.toNat).ad.cal = some (1, ch, ref, n, sum) →
    n ≤ (s.cell id.toNat).rd K.CAL_STATUS_CONV → False) :=
  fun h => h (holding (calibrating.wr K.CAL_STATUS_CONV 16)) (0) (4) (0) (16) (0) (by decide +kernel) (by decide +kernel)

theorem wit_cellsMeasureAndCalibrate_13 :
    ¬ (∀ (s : State) (id : BitVec 64) (ch ref n : Nat) (sum z : Int), (s.cell id.toNat).ad.cal = some (2, ch, ref, n, sum) → ch < 12 →
    n ≤ (s.cell id.toNat).rd K.CAL_STATUS_CONV → (s.cell id.toNat).ad.zero = some (ch, z) → -32768 ≤ z → z ≤ 32767 → z < rneDivInt sum n →
    0x4000 ≤ rneDivInt ((s.cell id.toNat).codeInt ch ref * 32768) (rneDivInt sum n - z).toNat →
    rneDivInt ((s.cell id.toNat).codeInt ch ref * 32768) (rneDivInt sum n - z).toNat ≤ 0xFFFF → False) :=
  fun h => h (holding fullStep) (0) (4) (60000) (16) (953920) (212) (by decide +kernel) (by decide +kernel) (by decide +kernel) (by decide +kernel) (by decide +kernel) (by decide +kernel) (by decide +kernel) (by decide +kernel) (by decide +kernel)

theorem wit_cellsMeasureAndCalibrate_14 :
    ¬ (∀ (s : State) (id : BitVec 64) (ch ref n : Nat) (sum z : Int), (s.cell id.toNat).ad.cal = some (2, ch, ref, n, sum) →
    n ≤ (s.cell id.toNat).rd K.CAL_STATUS_CONV → (s.cell id.toNat).ad.zero = some (ch, z) → rneDivInt sum n = z → False) :=
  fun h => h (holding { fullStep with ad := { fullStep.ad with zero := some (4, 59620) } }) (0) (4) (60000) (16) (953920) (59620) (by decide +kernel) (by decide +kernel) (by decide +kernel) (by decide +kernel)

theorem wit_cellsMeasureAndCalibrate_15 :
    ¬ (∀ (s : State) (id : BitVec 64) (ch : Fin 12), (s.cell id.toNat).on (K.OW_CFG_EN ch) = true → (s.cell id.toNat).channelOk ch = true →
    (s.cell id.toNat).rd (K.OW_CFG_PER ch) ≤ mapGet (fun _ => 0) (s.cell id.toNat).ad.owPer ch → (s.cell id.toNat).ad.inj = [] → False) :=
  fun h => h (holding { (cellIn 2).put (K.OW_CFG_EN 3) true with ad := { (cellIn 2).ad with owPer := [(3, 255)] } }) (0) (3) (by decide +kernel) (by decide +kernel) (by decide +kernel) (by decide +kernel)

theorem wit_cellsMeasureAndCalibrate_16 :
    ¬ (∀ (s : State) (id : BitVec 64) (ref test : BitVec 16) (ch : Nat), (s.cell id.toNat).ad.owOn = some ch → ch < 12 →
    (s.cell id.toNat).ad.suspect = 0 → (s.cell id.toNat).rd (K.OW_CFG_N ch) ≤ mapGet (fun _ => 0) (s.cell id.toNat).ad.owRun ch + 1 →
    (s.cell id.toNat).rd (K.OW_CFG_DELTA ch) * 16 < ((s.cell id.toNat).codeInt ch test.toNat - (s.cell id.toNat).codeInt ch ref.toNat).natAbs → False) :=
  fun h => h (holding { (cellIn 2).wr (K.OW_CFG_N 3) 1 with ad := { (cellIn 2).ad with owOn := some 3 } }) (0) (100) (9000) (3) (by decide +kernel) (by decide +kernel) (by decide +kernel) (by decide +kernel) (by decide +kernel)

theorem wit_cellsMeasureAndCalibrate_17 :
    ¬ (∀ (s : State) (id : BitVec 64) (ref test : BitVec 16) (ch : Nat), (s.cell id.toNat).ad.owOn = some ch → (s.cell id.toNat).ad.suspect = 0 →
    ((s.cell id.toNat).codeInt ch test.toNat - (s.cell id.toNat).codeInt ch ref.toNat).natAbs ≤ (s.cell id.toNat).rd (K.OW_CFG_DELTA ch) * 16 → False) :=
  fun h => h (holding { (cellIn 2).wr (K.OW_CFG_N 3) 1 with ad := { (cellIn 2).ad with owOn := some 3, owRun := [(3, 5)] } }) (0) (100) (100) (3) (by decide +kernel) (by decide +kernel) (by decide +kernel)

theorem wit_centralInputEventsTakeEffect_1 :
    ¬ (∀ (s : State) (n : Fin 8), s.inputsRun = true → s.rd (R.FLT_SRC_CFG_BASE 53) ≤ 2 → s.rd (R.FLT_SRC_CFG_ESC_N 53) = 0 → False) :=
  fun h => h (quiet) (3) (by decide +kernel) (by decide +kernel) (by decide +kernel)

theorem wit_centralInputEventsTakeEffect_2 :
    ¬ (∀ (s : State) (d : Fin 24), s.inputsRun = true → s.on (R.SD_CFG_EN d) = true → s.rd (R.FLT_SRC_CFG_BASE 54) ≤ 2 →
    s.rd (R.FLT_SRC_CFG_ESC_N 54) = 0 → False) :=
  fun h => h (quiet.put (R.SD_CFG_EN 5) true) (5) (by decide +kernel) (by decide +kernel) (by decide +kernel) (by decide +kernel)

theorem wit_centralInputEventsTakeEffect_3 :
    ¬ (∀ (s : State) (d : Fin 24) (level : Bool), s.inputsRun = true → s.on (R.SD_CFG_EN d) = true → s.rd (R.FLT_SRC_CFG_BASE 54) ≤ 2 →
    s.rd (R.FLT_SRC_CFG_ESC_N 54) = 0 → False) :=
  fun h => h (quiet.put (R.SD_CFG_EN 5) true) (5) (true) (by decide +kernel) (by decide +kernel) (by decide +kernel) (by decide +kernel)

theorem wit_centralInputEventsTakeEffect_4 :
    ¬ (∀ (s : State) (i : Fin 4), s.inputsRun = true → s.rd (R.PI_CFG_MODE i) = 3 → s.on (R.PI_CFG_DIR_INV i) = false →
    bitOf s.inp.piA i = false → bitOf s.inp.piB i = false → False) :=
  fun h => h (quiet.wr (R.PI_CFG_MODE 1) 3) (1) (by decide +kernel) (by decide +kernel) (by decide +kernel) (by decide +kernel) (by decide +kernel)

theorem wit_centralInputEventsTakeEffect_5 :
    ¬ (∀ (s : State) (i : Fin 4), s.inputsRun = true → s.rd (R.PI_CFG_MODE i) = 3 → bitOf s.inp.piA i = false → bitOf s.inp.piB i = false →
    s.rd (R.FLT_SRC_CFG_BASE 55) ≤ 2 → s.rd (R.FLT_SRC_CFG_ESC_N 55) = 0 → False) :=
  fun h => h (quiet.wr (R.PI_CFG_MODE 1) 3) (1) (by decide +kernel) (by decide +kernel) (by decide +kernel) (by decide +kernel) (by decide +kernel) (by decide +kernel)

theorem wit_centralInputEventsTakeEffect_6 :
    ¬ (∀ (s : State) (i : Fin 4) (b : Bool), s.inputsRun = true → s.rd (R.PI_CFG_MODE i) = 2 → bitOf s.inp.piA i = false →
    s.on (R.PI_CFG_DIR_INV i) = false → False) :=
  fun h => h (quiet.wr (R.PI_CFG_MODE 1) 2) (1) (true) (by decide +kernel) (by decide +kernel) (by decide +kernel) (by decide +kernel)

theorem wit_centralInputEventsTakeEffect_7 :
    ¬ (∀ (s : State) (i : Fin 4) (v : BitVec 32), s.st ≠ St.reset → s.st ≠ St.selfTest → s.role = Role.solo → False) :=
  fun h => h (inState 2) (1) (77) (by decide +kernel) (by decide +kernel) (by decide +kernel)

theorem wit_centralInputEventsTakeEffect_8 :
    ¬ (∀ (s : State) (n : Fin 64), s.inputsRun = true → s.on (R.GPIO_CFG_DIR n) = false → s.on (R.GPIO_STATUS_FILTERED n) = false →
    s.rd (R.GPIO_RATE_RATE_N n) = 0 → s.on (R.GPIO_STATUS_FROZEN n) = false → s.rd (R.GPIO_CFG_EDGE n) % 2 = 1 →
    s.inp.fifo.length < 256 → (∀ e, e < 8 → s.on (R.FLT_EXT_EN e) = false) → False) :=
  fun h => h ((quiet.wr (R.GPIO_CFG_EDGE 7) 1)) (7) (by decide +kernel) (by decide +kernel) (by decide +kernel) (by decide +kernel) (by decide +kernel) (by decide +kernel) (by decide +kernel) (by decide +kernel)

theorem wit_centralInputEventsTakeEffect_9 :
    ¬ (∀ (s : State) (n : Fin 64) (level : Bool) (at' : Nat), s.inputsRun = true → s.on (R.GPIO_CFG_DIR n) = false →
    s.on (R.GPIO_STATUS_FILTERED n) = !level → s.rd (R.GPIO_RATE_RATE_N n) = 1 → mapGet noneAt s.inp.edges n = [at'] →
    s.now - at' < s.rd (R.GPIO_RATE_RATE_W n) * 1000 → s.rd (R.FLT_SRC_CFG_BASE 56) ≤ 2 → s.rd (R.FLT_SRC_CFG_ESC_N 56) = 0 → False) :=
  fun h => h ({ ((quiet.wr (R.GPIO_RATE_RATE_N 7) 1).wr (R.GPIO_RATE_RATE_W 7) 10) with inp := { quiet.inp with edges := [(7, [4000])] }, now := 5000 }) (7) (true) (4000) (by decide +kernel) (by decide +kernel) (by decide +kernel) (by decide +kernel) (by decide +kernel) (by decide +kernel) (by decide +kernel) (by decide +kernel)

theorem wit_centralInputEventsTakeEffect_10 :
    ¬ (∀ (s : State) (n : Fin 64), s.inputsRun = true → s.on (R.GPIO_STATUS_FROZEN n) = true →
    (mapGet noneAt s.inp.edges n).getLastD 0 + s.rd (R.GPIO_RATE_RATE_W n) * 1000 ≤ s.now →
    (∀ e, e < 8 → s.on (R.FLT_EXT_EN e) = false) → s.inp.fifo.length < 256 → False) :=
  fun h => h ({ (((quiet.put (R.GPIO_STATUS_FROZEN 7) true).put (R.GPIO_STATUS_FILTERED 7) true).wr (R.GPIO_RATE_RATE_W 7) 10) with now := 50000 }) (7) (by decide +kernel) (by decide +kernel) (by decide +kernel) (by decide +kernel) (by decide +kernel)

theorem wit_centralInputEventsTakeEffect_11 :
    ¬ (∀ (s : State) (n : Fin 64) (at' : Nat), s.inputsRun = true → mapGet (fun _ => none) s.inp.since n = some at' →
    s.rd (R.GPIO_STUCK_MAX_ACT n) ≠ 0 → at' + s.rd (R.GPIO_STUCK_MAX_ACT n) * 1000000 < s.now → s.on (R.GPIO_STATUS_STUCK n) = false →
    s.rd (R.FLT_SRC_CFG_BASE 57) ≤ 2 → s.rd (R.FLT_SRC_CFG_ESC_N 57) = 0 → False) :=
  fun h => h ({ (quiet.wr (R.GPIO_STUCK_MAX_ACT 7) 1) with inp := { quiet.inp with since := [(7, some 4)] }, now := 5000000 }) (7) (4) (by decide +kernel) (by decide +kernel) (by decide +kernel) (by decide +kernel) (by decide +kernel) (by decide +kernel) (by decide +kernel)

theorem wit_centralInputEventsTakeEffect_12 :
    ¬ (∀ (s : State) (n : Fin 64) (v : BitVec 32), s.writable = true → s.role = Role.solo → bitsOf v.toNat 0 16 = 0 → False) :=
  fun h => h (inState 3) (7) (0) (by decide +kernel) (by decide +kernel) (by decide +kernel)

theorem wit_centralInputEventsTakeEffect_13 :
    ¬ (∀ (s : State) (e : Evt) (rest : List Evt), s.st ≠ St.reset → s.st ≠ St.selfTest → s.role = Role.solo → s.inp.fifo = e :: rest → rest.length < 256 → False) :=
  fun h => h ({ quiet with inp := { quiet.inp with fifo := [⟨5, 1, true, false⟩, ⟨7, 2, true, false⟩] } }) (⟨5, 1, true, false⟩) ([⟨7, 2, true, false⟩]) (by decide +kernel) (by decide +kernel) (by decide +kernel) (by decide +kernel) (by decide +kernel)

theorem wit_rolesFollowTheTieLink_1 :
    ¬ (∀ (s : State) (lane : Fin 2) (lo hi d2 : BitVec 8), s.st ≠ St.reset → s.st ≠ St.selfTest → lo.toNat = 0x10 → hi.toNat = 0x11 → s.tieUp = true → False) :=
  fun h => h (paired 2 0) (1) (0x10) (0x11) (3) (by decide +kernel) (by decide +kernel) (by decide +kernel) (by decide +kernel) (by decide +kernel)

theorem wit_rolesFollowTheTieLink_2 :
    ¬ (∀ (s : State) (lane : Fin 2) (lo hi d2 : BitVec 8) (v : Nat), s.st ≠ St.reset → s.st ≠ St.selfTest → s.st ≠ St.locked → s.tie.yielded = false →
    sharedVersion 0x10 0x11 lo.toNat hi.toNat = some v → s.tieUp = false → bitOf d2.toNat 0 ≠ s.on R.TIE_STATUS_PAIR_ID → bitOf d2.toNat 1 = false →
    s.rd (R.FLT_SRC_CFG_BASE 74) ≤ 2 → s.rd (R.FLT_SRC_CFG_ESC_N 74) = 0 → s.inService = false → False) :=
  fun h => h ((inState 2).wr R.DEV_STATE_ROLE Role.relay) (0) (0x10) (0x11) (1) (0x11) (by decide +kernel) (by decide +kernel) (by decide +kernel) (by decide +kernel) (by decide +kernel) (by decide +kernel) (by decide +kernel) (by decide +kernel) (by decide +kernel) (by decide +kernel) (by decide +kernel)

theorem wit_rolesFollowTheTieLink_3 :
    ¬ (∀ (s : State) (lane : Fin 2) (lo hi d2 : BitVec 8) (v : Nat), s.st ≠ St.reset → s.st ≠ St.selfTest → s.st ≠ St.locked → s.tie.yielded = false →
    sharedVersion 0x10 0x11 lo.toNat hi.toNat = some v → s.tieUp = false → bitOf d2.toNat 0 ≠ s.on R.TIE_STATUS_PAIR_ID → bitOf d2.toNat 1 = true → False) :=
  fun h => h ((inState 2).wr R.DEV_STATE_ROLE Role.relay) (0) (0x10) (0x11) (3) (0x11) (by decide +kernel) (by decide +kernel) (by decide +kernel) (by decide +kernel) (by decide +kernel) (by decide +kernel) (by decide +kernel) (by decide +kernel)

theorem wit_rolesFollowTheTieLink_4 :
    ¬ (∀ (s : State) (lane : Fin 2) (lo hi d2 : BitVec 8), s.st ≠ St.reset → s.st ≠ St.selfTest → lo.toNat = 0x10 → hi.toNat = 0x11 → s.tieUp = false →
    bitOf d2.toNat 0 = s.on R.TIE_STATUS_PAIR_ID → False) :=
  fun h => h (inState 2) (0) (0x10) (0x11) (0) (by decide +kernel) (by decide +kernel) (by decide +kernel) (by decide +kernel) (by decide +kernel) (by decide +kernel)

theorem wit_rolesFollowTheTieLink_5 :
    ¬ (∀ s : State, s.tieUp = true → s.role ≠ Role.active → s.rd (R.FLT_SRC_CFG_BASE 75) ≤ 2 → s.rd (R.FLT_SRC_CFG_ESC_N 75) = 0 → False) :=
  fun h => h (paired 5 Role.standby) (by decide +kernel) (by decide +kernel) (by decide +kernel) (by decide +kernel)

theorem wit_rolesFollowTheTieLink_6 :
    ¬ (∀ (s : State) (at' : Nat), s.tie.downSince = some at' → s.role = Role.standby → s.rd R.TIE_CFG_TIE_HOLD * 1000000 ≤ s.now - at' → False) :=
  fun h => h ({ (inState 5).wr R.DEV_STATE_ROLE Role.standby with now := 200000000, tie := { State.reset.tie with downSince := some 0 } }) (0) (by decide +kernel) (by decide +kernel) (by decide +kernel)

theorem wit_rolesFollowTheTieLink_7 :
    ¬ (∀ s : State, s.tieUp = false → s.on R.TIE_STATUS_PAIR_ID = false → s.tie.held = false → s.tie.yielded = false → s.role = Role.relay →
    s.inputsRun = true → s.st ≠ St.locked → s.tie.safeAt + s.tie.wait * 1000000 ≤ s.now → False) :=
  fun h => h ({ (inState 2).wr R.DEV_STATE_ROLE Role.relay with now := 2000000000 }) (by decide +kernel) (by decide +kernel) (by decide +kernel) (by decide +kernel) (by decide +kernel) (by decide +kernel) (by decide +kernel) (by decide +kernel)

theorem wit_rolesFollowTheTieLink_8 :
    ¬ (∀ (s : State) (level : Bool), level = true → False) :=
  fun h => h (paired 5 Role.standby) (true) (by decide +kernel)

theorem wit_rolesFollowTheTieLink_9 :
    ¬ (∀ s : State, 2 ≤ s.tie.yieldHigh → s.tie.yieldIgnored = false → s.rd (R.FLT_SRC_CFG_BASE 72) ≤ 2 → s.rd (R.FLT_SRC_CFG_ESC_N 72) = 0 → False) :=
  fun h => h ({ (paired 5 Role.standby).put R.TIE_STATUS_YIELD_IN true with tie := { State.reset.tie with yieldHigh := 2 } }) (by decide +kernel) (by decide +kernel) (by decide +kernel) (by decide +kernel)

theorem wit_rolesFollowTheTieLink_10 :
    ¬ (∀ (s : State) (cause : Nat), s.takeoverCause = cause → cause ≠ 0 → s.rd (R.FLT_SRC_CFG_BASE 74) ≤ 2 → s.rd (R.FLT_SRC_CFG_ESC_N 74) = 0 → False) :=
  fun h => h (successor) (1) (by decide +kernel) (by decide +kernel) (by decide +kernel) (by decide +kernel)

theorem wit_rolesFollowTheTieLink_11 :
    ¬ (∀ (s : State) (key : BitVec 16), s.role = Role.active → s.partnerReady = true → False) :=
  fun h => h (((paired 5 Role.active).wr R.TIE_STATUS_PART_ROLE Role.standby)) (0x5A5A) (by decide +kernel) (by decide +kernel)

theorem wit_rolesFollowTheTieLink_12 :
    ¬ (∀ (s : State) (key : BitVec 16), s.role = Role.standby → False) :=
  fun h => h (paired 5 Role.standby) (0x5A5A) (by decide +kernel)

theorem wit_rolesFollowTheTieLink_13 :
    ¬ (∀ (s : State) (key : BitVec 16), key ≠ 0x5A5A → False) :=
  fun h => h ((paired 5 Role.standby)) (3) (by decide +kernel)

theorem wit_rolesFollowTheTieLink_14 :
    ¬ (∀ (s : State) (key : BitVec 16), key = 0x5A5A → s.role = Role.relay → s.tieUp = true → s.tie.yielded = false → False) :=
  fun h => h (paired 2 Role.relay) (0x5A5A) (by decide +kernel) (by decide +kernel) (by decide +kernel) (by decide +kernel)

theorem wit_rolesFollowTheTieLink_15 :
    ¬ (∀ (s : State) (state : Fin 8), s.tie.joining = true → s.role = Role.relay → s.tie.shadowing = false → (state = 4 ∨ state = 5 ∨ state = 6) → False) :=
  fun h => h (joiner) (5) (by decide +kernel) (by decide +kernel) (by decide +kernel) (by decide +kernel)

theorem wit_rolesFollowTheTieLink_16 :
    ¬ (∀ s : State, s.role = Role.relay → s.tie.matched = true → s.tie.joining = true → s.on R.TIE_STATUS_SWEEP_DONE = true → False) :=
  fun h => h (matched) (by decide +kernel) (by decide +kernel) (by decide +kernel) (by decide +kernel)

theorem wit_rolesFollowTheTieLink_17 :
    ¬ (∀ s : State, s.role = Role.active → s.tieUp = false → s.st ≠ St.locked →
    (s.heads.filter s.strandInService).length < 2 * ((s.heads.filter s.strandInService).filter fun p => decide (2 ≤ mapGet (fun _ => 0) s.tie.tailRun p)).length → False) :=
  fun h => h ({ (((((inState 5).wr R.DEV_STATE_ROLE Role.active).put (R.PORT_STATUS_TRAINED 3) true).put (R.PORT_CFG_EN 3) true).wr (R.PORT_STATUS_END 3) 1).wr (R.STRAND_ARM_ARM 0 3) 0 with tie := { State.reset.tie with tailRun := [(3, 2)] } }) (by decide +kernel) (by decide +kernel) (by decide +kernel) (by decide +kernel)

theorem wit_rolesFollowTheTieLink_18 :
    ¬ (∀ s : State, s.role ≠ Role.active → s.rd (R.FLT_SRC_CFG_BASE 73) ≤ 2 → s.rd (R.FLT_SRC_CFG_ESC_N 73) = 0 → False) :=
  fun h => h (paired 5 Role.standby) (by decide +kernel) (by decide +kernel) (by decide +kernel)

theorem wit_rolesFollowTheTieLink_19 :
    ¬ (∀ s : State, s.role ≠ Role.solo → False) :=
  fun h => h ((paired 5 Role.standby).wr R.TIE_CMP_EXPLAINED 4) (by decide +kernel)

theorem wit_rolesFollowTheTieLink_20 :
    ¬ (∀ s : State, s.tieUp = true → s.on R.TIE_STATUS_ID_CONFLICT = false → False) :=
  fun h => h (paired 5 Role.standby) (by decide +kernel) (by decide +kernel)

theorem wit_tieMessagesActOrAreDiscarded_1 :
    ¬ (∀ (s : State) (lane : Fin 2) (m : List Byte), s.bit R.TIE_STATUS_LANES lane = true → s.on R.TIE_STATUS_ID_CONFLICT = false → Msg.good m = false →
    s.rd (R.FLT_SRC_CFG_BASE 76) ≤ 2 → s.rd (R.FLT_SRC_CFG_ESC_N 76) = 0 → False) :=
  fun h => h ((paired 5 Role.standby).wr (R.FLT_SRC_CFG_ESC_N 76) 0) (0) ([1#8]) (by decide +kernel) (by decide +kernel) (by decide +kernel) (by decide +kernel) (by decide +kernel)

theorem wit_tieMessagesActOrAreDiscarded_2 :
    ¬ (∀ (s : State) (lane : Fin 2) (m : List Byte), s.hears lane 7 m = true → Msg.arg m = 1 → s.role = Role.standby → False) :=
  fun h => h (paired 5 Role.standby) (0) (aMsg 7 2 1 (bytesLE 8 0)) (by decide +kernel) (by decide +kernel) (by decide +kernel)

theorem wit_tieMessagesActOrAreDiscarded_3 :
    ¬ (∀ (s : State) (lane : Fin 2) (m : List Byte), s.hears lane 7 m = true → Msg.arg m = 2 → s.role = Role.active → s.st ≠ St.locked → False) :=
  fun h => h (paired 5 Role.active) (0) (aMsg 7 2 2 (bytesLE 8 0)) (by decide +kernel) (by decide +kernel) (by decide +kernel) (by decide +kernel)

theorem wit_tieMessagesActOrAreDiscarded_4 :
    ¬ (∀ (s : State) (lane : Fin 2) (m : List Byte), s.hears lane 7 m = true → Msg.arg m = 3 → Msg.role m = Role.relay → s.role = Role.active → s.inService = true →
    s.rd (R.FLT_SRC_CFG_BASE 74) ≤ 2 → s.rd (R.FLT_SRC_CFG_ESC_N 74) = 0 → False) :=
  fun h => h (paired 5 Role.active) (0) (aMsg 7 6 3 (bytesLE 8 0)) (by decide +kernel) (by decide +kernel) (by decide +kernel) (by decide +kernel) (by decide +kernel) (by decide +kernel) (by decide +kernel)

theorem wit_tieMessagesActOrAreDiscarded_5 :
    ¬ (∀ (s : State) (lane : Fin 2) (m : List Byte), s.hears lane 7 m = true → Msg.arg m = 4 → s.role = Role.standby → False) :=
  fun h => h (paired 5 Role.standby) (0) (aMsg 7 2 4 (bytesLE 8 8)) (by decide +kernel) (by decide +kernel) (by decide +kernel)

theorem wit_tieMessagesActOrAreDiscarded_6 :
    ¬ (∀ (s : State) (lane : Fin 2) (m : List Byte), s.hears lane 7 m = true → Msg.arg m = 5 → s.role = Role.standby → False) :=
  fun h => h ((paired 5 Role.standby).wr R.TIE_BROKEN_LO_BROKEN 9) (0) (aMsg 7 2 5 (bytesLE 8 8)) (by decide +kernel) (by decide +kernel) (by decide +kernel)

theorem wit_tieMessagesActOrAreDiscarded_7 :
    ¬ (∀ (s : State) (lane : Fin 2) (m : List Byte), s.hears lane 1 m = true → Msg.role m = Role.active → s.role = Role.standby → s.computes = true →
    Msg.period m = s.sys.period % 2 ^ 32 → s.tooLate s.tCa = false → s.mergeLacks (exceptionsOf (Msg.body m)) = false → byteAt (Msg.body m) 134 = 0 → False) :=
  fun h => h (paired 5 Role.standby) (0) (aMsg 1 2 0 inputBody) (by decide +kernel) (by decide +kernel) (by decide +kernel) (by decide +kernel) (by decide +kernel) (by decide +kernel) (by decide +kernel) (by decide +kernel)

theorem wit_tieMessagesActOrAreDiscarded_8 :
    ¬ (∀ (s : State) (lane : Fin 2) (m : List Byte), s.hears lane 1 m = true → Msg.role m = Role.active → s.role = Role.standby → s.computes = true →
    Msg.period m = s.sys.period % 2 ^ 32 → s.tooLate s.tCa = false → s.mergeLacks (exceptionsOf (Msg.body m)) = true → s.tie.bridge = false → False) :=
  fun h => h ((((paired 5 Role.standby).put (R.PORT_CFG_EN 3) true).wr (R.PORT_STATUS_NCELL 3) 1).wr (R.STRAND_ARM_ARM 0 3) 0) (0) (aMsg 1 2 0 inputBody) (by decide +kernel) (by decide +kernel) (by decide +kernel) (by decide +kernel) (by decide +kernel) (by decide +kernel) (by decide +kernel) (by decide +kernel)

theorem wit_tieMessagesActOrAreDiscarded_9 :
    ¬ (∀ (s : State) (lane : Fin 2) (m : List Byte), s.hears lane 2 m = true → Msg.role m = Role.active → s.role = Role.standby →
    Msg.period m = s.sys.period % 2 ^ 32 → s.tooLate (s.crd R.LAYOUT_0_T_LE * 10) = false → s.tie.bridge = false → Msg.arg m = 0 → False) :=
  fun h => h (paired 5 Role.standby) (0) (aMsg 2 2 0 []) (by decide +kernel) (by decide +kernel) (by decide +kernel) (by decide +kernel) (by decide +kernel) (by decide +kernel) (by decide +kernel)

theorem wit_tieMessagesActOrAreDiscarded_10 :
    ¬ (∀ (s : State) (lane : Fin 2) (m : List Byte) (pos : Nat), s.hears lane 3 m = true → s.role = Role.standby → Msg.period m = s.sys.period % 2 ^ 32 →
    Msg.arg m < 48 → pos < 96 → Msg.body m = BitVec.ofNat 8 pos :: List.replicate 7 0xFF#8 → pos ∈ (s.port (Msg.arg m)).good →
    (s.view (cellKey (Msg.arg m) pos)).slot.length = 14 → False) :=
  fun h => h (((paired 5 Role.standby).onPort 3 (fun x => { x with good := [2] })).onView (cellKey 3 2) (fun v => { v with slot := List.replicate 14 9#8 })) (0) (aMsg 3 2 3 [2#8, 0xFF#8, 0xFF#8, 0xFF#8, 0xFF#8, 0xFF#8, 0xFF#8, 0xFF#8]) (2) (by decide +kernel) (by decide +kernel) (by decide +kernel) (by decide +kernel) (by decide +kernel) (by decide +kernel) (by decide +kernel) (by decide +kernel)

theorem wit_tieMessagesActOrAreDiscarded_11 :
    ¬ (∀ (s : State) (lane : Fin 2) (m : List Byte) (p pos : Nat), s.hears lane 4 m = true → s.role = Role.active → s.rd (R.FLT_SRC_CFG_BASE 74) ≤ 2 →
    s.rd (R.FLT_SRC_CFG_ESC_N 74) = 0 → Msg.arg m = p → p < 48 → s.now ≤ s.sys.t0 + s.tCa → Msg.length m = 24 → byteAt (Msg.body m) 0 = pos → pos < 96 →
    pos ∉ (s.port p).good →
    crc16From 0xFFFF (BitVec.ofNat 8 pos :: BitVec.ofNat 8 s.sys.period :: ((Msg.body m).drop 8).take 14) = leAt (Msg.body m) 22 2 →
    bitsOf (byteAt (Msg.body m) 16) 0 3 ≤ (s.view (cellKey p pos)).cls → False) :=
  fun h => h (paired 5 Role.active) (0) (aMsg 4 4 3 slotEntry) (3) (2) (by decide +kernel) (by decide +kernel) (by decide +kernel) (by decide +kernel) (by decide +kernel) (by decide +kernel) (by decide +kernel) (by decide +kernel) (by decide +kernel) (by decide +kernel) (by decide +kernel) (by decide +kernel) (by decide +kernel)

theorem wit_tieMessagesActOrAreDiscarded_12 :
    ¬ (∀ (s : State) (lane : Fin 2) (m : List Byte), s.hears lane 5 m = true → s.tie.digest = [] → s.role = Role.standby → False) :=
  fun h => h ((paired 5 Role.standby)) (0) (aMsg 5 2 0 (List.replicate 16 0#8)) (by decide +kernel) (by decide +kernel) (by decide +kernel)

theorem wit_tieMessagesActOrAreDiscarded_13 :
    ¬ (∀ (s : State) (lane : Fin 2) (m : List Byte), s.hears lane 5 m = true → s.tie.digest ≠ [] → s.role = Role.standby → s.neutral = false →
    (Msg.body m).take 8 ≠ s.tie.digest.take 8 → Msg.body m ≠ [] → byteAt (Msg.body m) 8 = 0 → byteAt s.tie.digest 8 = 0 → s.tie.judged = false →
    s.rd (R.FLT_SRC_CFG_BASE 71) ≤ 2 → s.rd (R.FLT_SRC_CFG_ESC_N 71) = 0 → False) :=
  fun h => h ({ (paired 5 Role.standby).wr (R.FLT_SRC_CFG_ESC_N 71) 0 with tie := { State.reset.tie with digest := List.replicate 8 1#8 ++ List.replicate 8 0#8 } }) (0) (aMsg 5 2 0 (List.replicate 16 0#8)) (by decide +kernel) (by decide +kernel) (by decide +kernel) (by decide +kernel) (by decide +kernel) (by decide +kernel) (by decide +kernel) (by decide +kernel) (by decide +kernel) (by decide +kernel) (by decide +kernel)

theorem wit_tieMessagesActOrAreDiscarded_14 :
    ¬ (∀ (s : State) (lane : Fin 2) (m : List Byte), s.hears lane 5 m = true → s.tie.digest ≠ [] → s.role = Role.standby →
    (Msg.body m).take 8 ≠ s.tie.digest.take 8 → Msg.body m ≠ [] → byteAt s.tie.digest 8 ≠ 0 → s.tie.judged = false → False) :=
  fun h => h ({ (paired 5 Role.standby) with tie := { State.reset.tie with digest := List.replicate 16 1#8 } }) (0) (aMsg 5 2 0 (List.replicate 16 0#8)) (by decide +kernel) (by decide +kernel) (by decide +kernel) (by decide +kernel) (by decide +kernel) (by decide +kernel) (by decide +kernel)

theorem wit_tieMessagesActOrAreDiscarded_15 :
    ¬ (∀ (s : State) (lane : Fin 2) (m : List Byte), s.hears lane 8 m = true → s.role = Role.standby → s.inService = true →
    s.sweepMap.length ≤ 512 * (Msg.arg m + 1) → Msg.body m = s.sweepBody (Msg.arg m) →
    Msg.period m = s.sys.period % 2 ^ 32 → False) :=
  fun h => h ((paired 5 Role.standby)) (0) (aMsg 8 2 1 ((paired 5 Role.standby).sweepBody 1)) (by unfold State.hears; rw [aMsg_good _ _ _ _ (by decide +kernel) (by decide +kernel)]; decide +kernel) (by decide +kernel) (by decide +kernel) (by decide +kernel) (by decide +kernel) (by decide +kernel)

theorem wit_tieMessagesActOrAreDiscarded_16 :
    ¬ (∀ (s : State) (lane : Fin 2) (m : List Byte) (w : Nat), s.hears lane 9 m = true → s.tie.joining = true → s.role = Role.relay → w < 2046 →
    (Msg.body m).length = 16 → leAt (Msg.body m) 0 8 = 0x30000000 + 4 * w → False) :=
  fun h => h (joiner) (0) (aMsg 9 2 0 (bytesLE 8 0x30000010 ++ bytesLE 4 5 ++ bytesLE 4 6)) (4) (by decide +kernel) (by decide +kernel) (by decide +kernel) (by decide +kernel) (by decide +kernel) (by decide +kernel)

theorem wit_tieMessagesActOrAreDiscarded_17 :
    ¬ (∀ (s : State) (lane : Fin 2) (m : List Byte), s.hears lane 0x0A m = true → Msg.arg m < 48 → s.role = Role.standby → s.tie.lastPeriod = false → False) :=
  fun h => h (paired 5 Role.standby) (0) (aMsg 0x0A 2 3 (List.replicate 16 7#8)) (by decide +kernel) (by decide +kernel) (by decide +kernel) (by decide +kernel)

theorem wit_tieMessagesActOrAreDiscarded_18 :
    ¬ (∀ (s : State) (lane : Fin 2) (m : List Byte), s.hears lane 0x0A m = true → Msg.arg m < 48 → s.role = Role.active → (s.port (Msg.arg m)).txn ≠ none →
    s.rd (R.FLT_SRC_CFG_BASE 74) ≤ 2 → s.rd (R.FLT_SRC_CFG_ESC_N 74) = 0 → False) :=
  fun h => h (((paired 5 Role.active).onPort 3 fun x => { x with txn := some aTxn })) (0) (aMsg 0x0A 4 3 (List.replicate 16 7#8)) (by decide +kernel) (by decide +kernel) (by decide +kernel) (by decide +kernel) (by decide +kernel) (by decide +kernel)

theorem wit_tieMessagesActOrAreDiscarded_19 :
    ¬ (∀ (s : State) (lane : Fin 2) (m : List Byte), s.hears lane 0x0B m = true → s.role = Role.standby → False) :=
  fun h => h (paired 5 Role.standby) (0) (aMsg 0x0B 2 0 (List.replicate 64 7#8)) (by decide +kernel) (by decide +kernel)

theorem wit_tieMessagesActOrAreDiscarded_20 :
    ¬ (∀ (s : State) (lane : Fin 2) (m : List Byte), s.hears lane 6 m = true → Msg.arg m < 48 → bitOf s.broken (Msg.arg m) = true → s.role = Role.relay →
    s.tie.lastPeriod = false → False) :=
  fun h => h (servedTail) (0) (aMsg 6 2 3 goodFrame) (by decide +kernel) (by decide +kernel) (by decide +kernel) (by decide +kernel) (by decide +kernel)

theorem wit_tailsBreaksAndStatusLatch_1 :
    ¬ (∀ (s : State) (p : Fin 48) (f : List Byte) (per : Nat), s.portLive p = true → s.on (R.PORT_STATUS_TRAINED p) = true → Hdr.type f = 1 → Hdr.crc f = .good →
    Hdr.period f = per → s.sys.period = per → per < 2 ^ 32 → s.role = Role.active → s.tie.shadowing = false → False) :=
  fun h => h ({ ((paired 5 Role.active).put (R.PORT_STATUS_TRAINED 3) true).put (R.PORT_CFG_EN 3) true with sys := { State.reset.sys with period := 7 } }) (3) ((aHeader 1 false 0)) (7) (by decide +kernel) (by decide +kernel) (by decide +kernel) (by decide +kernel) (by decide +kernel) (by decide +kernel) (by decide +kernel) (by decide +kernel) (by decide +kernel)

theorem wit_tailsBreaksAndStatusLatch_2 :
    ¬ (∀ (s : State) (p : Fin 48) (f : List Byte), s.portLive p = true → s.on (R.PORT_STATUS_TRAINED p) = true → Hdr.type f = 1 → Hdr.crc f = .good →
    Hdr.period f = s.sys.period % 2 ^ 32 → s.role = Role.standby → s.ncell p = 1 → slotState 0 f 32 16 = .good → False) :=
  fun h => h ({ (((paired 5 Role.standby).put (R.PORT_STATUS_TRAINED 3) true).put (R.PORT_CFG_EN 3) true).wr (R.PORT_STATUS_NCELL 3) 1 with sys := { State.reset.sys with period := 7 } }) (3) (goodFrame) (by decide +kernel) (by decide +kernel) (by decide +kernel) (by decide +kernel) (by decide +kernel) (by decide +kernel) (by decide +kernel) (by decide +kernel)

theorem wit_tailsBreaksAndStatusLatch_3 :
    ¬ (∀ (s : State) (p : Fin 48), s.role = Role.active → bitOf s.broken p = false → s.rd (R.FLT_SRC_CFG_BASE 70) ≤ 2 → s.rd (R.FLT_SRC_CFG_ESC_N 70) = 0 →
    s.tieUp = true → s.on R.TIE_STATUS_ID_CONFLICT = false → False) :=
  fun h => h (paired 5 Role.active) (3) (by decide +kernel) (by decide +kernel) (by decide +kernel) (by decide +kernel) (by decide +kernel) (by decide +kernel)

theorem wit_tailsBreaksAndStatusLatch_4 :
    ¬ (∀ (s : State) (p : Fin 48), s.role = Role.active → bitOf s.broken p = true → s.rd (R.FLT_SRC_CFG_BASE 70) ≤ 2 → s.rd (R.FLT_SRC_CFG_ESC_N 70) = 0 →
    s.tieUp = true → s.on R.TIE_STATUS_ID_CONFLICT = false → False) :=
  fun h => h ((paired 5 Role.active).wr R.TIE_BROKEN_LO_BROKEN 8) (3) (by decide +kernel) (by decide +kernel) (by decide +kernel) (by decide +kernel) (by decide +kernel) (by decide +kernel)

theorem wit_tailsBreaksAndStatusLatch_5 :
    ¬ (∀ (s : State) (p : Fin 48), s.portLive p = true → s.launching = false → s.on (R.PORT_STATUS_LOCK p) = true → bitOf s.broken p = true → s.tailN p ≠ 0 → False) :=
  fun h => h (servedTail) (3) (by decide +kernel) (by decide +kernel) (by decide +kernel) (by decide +kernel) (by decide +kernel)

theorem wit_tailsBreaksAndStatusLatch_6 :
    ¬ (∀ (s : State) (id : BitVec 64), 0 ≤ s.now → False) :=
  fun h => h (holding (cellIn 4)) (0) (by decide +kernel)

theorem wit_tailsBreaksAndStatusLatch_7 :
    ¬ (∀ (s : State) (missed : BitVec 6), (s.role = Role.standby ∨ s.role = Role.relay) → s.tie.yielded = false → s.st ≠ St.reset → s.st ≠ St.selfTest →
    missed = 0 → s.sch.injAt = [] → False) :=
  fun h => h (paired 2 Role.relay) (0) (by decide +kernel) (by decide +kernel) (by decide +kernel) (by decide +kernel) (by decide +kernel) (by decide +kernel)

theorem wit_tailsBreaksAndStatusLatch_8 :
    ¬ (∀ (s : State) (missed : BitVec 6), s.tie.yielded = true → False) :=
  fun h => h ({ inState 2 with tie := { State.reset.tie with yielded := true } }) (63) (by decide +kernel)

theorem wit_tailsBreaksAndStatusLatch_9 :
    ¬ (∀ (s : State) (i w v : Nat), i < 256 → w < 48 → v < 2 ^ 32 → False) :=
  fun h => h (inState 4) (0) (17) (1065353216) (by decide +kernel) (by decide +kernel) (by decide +kernel)

theorem wit_accordFramesAndModeChanges_1 :
    ¬ (∀ (s : State) (k : Fin 4) (lo hi d2 : BitVec 8) (prop : BitVec 16) (own : Bool) (v : Nat), s.inputsRun = true → sharedVersion 0x10 0x11 lo.toNat hi.toNat = some v →
    own = (k == 3) → s.rd (R.FLT_SRC_CFG_BASE 79) ≤ 2 → s.rd (R.FLT_SRC_CFG_ESC_N 79) = 0 → False) :=
  fun h => h (inState 2) (0) (0x10) (0x11) (1) (300) (false) (0x11) (by decide +kernel) (by decide +kernel) (by decide +kernel) (by decide +kernel) (by decide +kernel)

theorem wit_accordFramesAndModeChanges_2 :
    ¬ (∀ (s : State) (k : Fin 4) (lo hi d2 : BitVec 8) (prop : BitVec 16) (own : Bool), s.inputsRun = true → lo.toNat = 0x10 → hi.toNat = 0x11 →
    own ≠ (k == 3) → s.rd (R.FLT_SRC_CFG_BASE 79) ≤ 2 → s.rd (R.FLT_SRC_CFG_ESC_N 79) = 0 → False) :=
  fun h => h (inState 2) (0) (0x10) (0x11) (1) (300) (true) (by decide +kernel) (by decide +kernel) (by decide +kernel) (by decide +kernel) (by decide +kernel) (by decide +kernel)

theorem wit_accordFramesAndModeChanges_3 :
    ¬ (∀ (s : State) (k : Fin 4) (f : List Byte), s.inputsRun = true → s.st ≠ St.locked → s.on (R.ACD_PORTST_TRAINED k) = true → 32 ≤ f.length → Acf.headGood f = false →
    Acf.hop f < Acf.hops f → s.on (R.ACD_PORTST_TRAINED (bitsOf (Acf.route f) (2 * Acf.hop f) 2)) = true → False) :=
  fun h => h (memberIn 5) (0) (patch (anAcf 2 0 0 (distBody 0 0)) 2 [0x12#8]) (by decide +kernel) (by decide +kernel) (by decide +kernel) (by decide +kernel) (by decide +kernel) (by decide +kernel) (by decide +kernel)

theorem wit_accordFramesAndModeChanges_4 :
    ¬ (∀ (s : State) (k : Fin 4) (f : List Byte), s.inputsRun = true → s.st ≠ St.locked → s.on (R.ACD_PORTST_TRAINED k) = true → Acf.hop f = Acf.hops f → Acf.good f = false → False) :=
  fun h => h (memberIn 5) (0) (patch (anAcf 2 0 0 (distBody 0 0)) 40 [9#8]) (by decide +kernel) (by decide +kernel) (by decide +kernel) (by decide +kernel) (by decide +kernel)

theorem wit_accordFramesAndModeChanges_5 :
    ¬ (∀ (s : State) (k : Fin 4) (f : List Byte) (l g : Nat), s.takesAccord k 1 l f = true → s.inService = false → g < 256 → s.cfg (R.ACD_SLOT_EN g) = 1 →
    s.cfg (R.ACD_SLOT_LVL g) = l → s.cfg (R.ACD_SLOT_DIR g) = 0 → s.cfg (R.ACD_SLOT_MEMBER g) = Acf.sender f →
    bitOf (leAt (Acf.body f) 128 4) (s.cfg (R.ACD_SLOT_VALUE g)) = true → False) :=
  fun h => h (((leadIn 2).wr (R.ACD_SLOT_MEMBER 5) 1).put (R.ACD_SLOT_EN 5) true) (0) (anAcf 1 1 0 (patch (distBody 0 2) 128 [1#8])) (0) (5) (by decide +kernel) (by decide +kernel) (by decide +kernel) (by decide +kernel) (by decide +kernel) (by decide +kernel) (by decide +kernel) (by decide +kernel)

theorem wit_accordFramesAndModeChanges_6 :
    ¬ (∀ (s : State) (k : Fin 4) (f : List Byte) (l : Nat), s.takesAccord k 2 l f = true → (s.st = St.energised ∨ s.st = St.deblocked) → byteAt (Acf.body f) 133 % 16 = 6 → False) :=
  fun h => h (memberIn 5) (0) (anAcf 2 0 0 (distBody 0 6)) (0) (by decide +kernel) (by decide +kernel) (by decide +kernel)

theorem wit_accordFramesAndModeChanges_7 :
    ¬ (∀ (s : State) (k : Fin 4) (f : List Byte) (l : Nat), s.takesAccord k 2 l f = true → s.acd.staged ≠ none → s.acd.pAct = none →
    bitsOf (byteAt (Acf.body f) 133) 4 3 = 2 → byteAt (Acf.body f) 132 ≠ s.sys.epoch → False) :=
  fun h => h (staging (memberIn 5) 4) (0) (anAcf 2 0 0 (distBody 3 0x25)) (0) (by decide +kernel) (by decide +kernel) (by decide +kernel) (by decide +kernel) (by decide +kernel)

theorem wit_accordFramesAndModeChanges_8 :
    ¬ (∀ (s : State) (k : Fin 4) (f : List Byte) (l : Nat), s.takesAccord k 3 l f = true → byteAt (Acf.body f) 0 = 4 → s.st = St.deblocked → s.on R.DEV_STATE_BUSY = false → False) :=
  fun h => h (memberIn 5) (0) (anAcf 3 0 0 stageBody) (0) (by decide +kernel) (by decide +kernel) (by decide +kernel) (by decide +kernel)

theorem wit_accordFramesAndModeChanges_9 :
    ¬ (∀ (s : State) (k : Fin 4) (f : List Byte) (l : Nat), s.takesAccord k 3 l f = true → byteAt (Acf.body f) 0 = 4 → s.st ≠ St.deblocked → s.on R.DEV_STATE_BUSY = false →
    s.speaks = true → s.rd (R.LVLE_ROUTE_HOPS l (2 * s.rd (R.LVLE_W1_LEAD l))) ≠ 0 → s.rd (R.LVLE_ROUTE_HOPS l (2 * s.rd (R.LVLE_W1_LEAD l) + 1)) = 0 →
    s.on (R.ACD_PORTST_TRAINED (s.rd (R.LVLE_ROUTE_ROUTE l (2 * s.rd (R.LVLE_W1_LEAD l))) % 4)) = true → False) :=
  fun h => h (memberIn 4) (0) (anAcf 3 0 0 stageBody) (0) (by decide +kernel) (by decide +kernel) (by decide +kernel) (by decide +kernel) (by decide +kernel) (by decide +kernel) (by decide +kernel) (by decide +kernel)

theorem wit_accordFramesAndModeChanges_10 :
    ¬ (∀ (s : State) (k : Fin 4) (f : List Byte) (l : Nat) (g : Staged), s.takesAccord k 4 l f = true → s.acd.staged = some g → byteAt (Acf.body f) 0 = g.cmd →
    s.on (R.LVLE_W1_IS_LEAD l) = true → s.acd.pAct = none → byteAt (Acf.body f) 1 = 0 → False) :=
  fun h => h (staging (leadIn 5) 4) (0) (anAcf 4 1 0 ([4#8, 0#8] ++ List.replicate 6 0#8)) (0) (aStage 4) (by decide +kernel) (by decide +kernel) (by decide +kernel) (by decide +kernel) (by decide +kernel) (by decide +kernel)

theorem wit_accordFramesAndModeChanges_11 :
    ¬ (∀ (s : State) (k : Fin 4) (f : List Byte) (l : Nat) (g : Staged), s.takesAccord k 4 l f = true → s.acd.staged = some g → byteAt (Acf.body f) 0 = g.cmd →
    s.on (R.LVLE_W1_IS_LEAD l) = true → s.acd.pAct = none → byteAt (Acf.body f) 1 ≠ 0 → s.twoPhase = true → s.acd.cancelDue = none → False) :=
  fun h => h (staging (leadIn 5) 4) (0) (anAcf 4 1 0 ([4#8, 5#8] ++ List.replicate 6 0#8)) (0) (aStage 4) (by decide +kernel) (by decide +kernel) (by decide +kernel) (by decide +kernel) (by decide +kernel) (by decide +kernel) (by decide +kernel) (by decide +kernel)

theorem wit_accordFramesAndModeChanges_12 :
    ¬ (∀ (s : State) (k : Fin 4) (f : List Byte) (l : Nat) (g : Staged), s.takesAccord k 5 l f = true → s.acd.staged = some g → byteAt (Acf.body f) 0 = g.cmd →
    g.cmd ≠ 2 → s.sys.pend ≠ none → s.ledLevels = [] → False) :=
  fun h => h (staging (memberIn 5) 4) (0) (anAcf 5 0 0 ([4#8, 3#8, 0#8, 0#8] ++ bytesLE 4 3 ++ List.replicate 16 0#8)) (0) (aStage 4) (by decide +kernel) (by decide +kernel) (by decide +kernel) (by decide +kernel) (by decide +kernel) (by decide +kernel)

theorem wit_accordFramesAndModeChanges_13 :
    ¬ (∀ (s : State) (k : Fin 4) (f : List Byte) (l : Nat) (g : Staged), s.takesAccord k 6 l f = true → s.acd.staged = some g → byteAt (Acf.body f) 0 = g.cmd →
    s.ledLevels = [] → s.sys.prep = none → False) :=
  fun h => h (staging (memberIn 5) 4) (0) (anAcf 6 0 0 ([4#8, 5#8] ++ List.replicate 6 0#8)) (0) (aStage 4) (by decide +kernel) (by decide +kernel) (by decide +kernel) (by decide +kernel) (by decide +kernel)

theorem wit_accordFramesAndModeChanges_14 :
    ¬ (∀ (s : State) (g : Staged), s.acd.staged = some g → s.twoPhase = true → s.acd.pAct = none → s.acd.cancelDue = none → g.code = 0 → s.sys.pend ≠ none → s.allAcked = true →
    g.cmd ≠ 2 → s.sys.period ≤ g.deadline → False) :=
  fun h => h (staging ((leadIn 5).wr (R.LVLE_W1_ACKED 0) 2) 4) (aStage 4) (by decide +kernel) (by decide +kernel) (by decide +kernel) (by decide +kernel) (by decide +kernel) (by decide +kernel) (by decide +kernel) (by decide +kernel) (by decide +kernel)

theorem wit_accordFramesAndModeChanges_15 :
    ¬ (∀ (s : State) (g : Staged), s.acd.staged = some g → s.twoPhase = true → s.acd.pAct = none → s.acd.cancelDue = none → s.sys.pend ≠ none → s.allAcked = false →
    g.deadline ≤ s.sys.period → False) :=
  fun h => h ({ staging (leadIn 5) 4 with sys := { (staging (leadIn 5) 4).sys with period := 9 } }) (aStage 4) (by decide +kernel) (by decide +kernel) (by decide +kernel) (by decide +kernel) (by decide +kernel) (by decide +kernel) (by decide +kernel)

theorem wit_accordFramesAndModeChanges_16 :
    ¬ (∀ (s : State) (p : Nat) (q : Pend), s.acd.pAct = some p → s.sys.period = p → s.sys.pend = some q → q.atPeriod = some p → q.cmd = 5 → s.clearCode = 0 → False) :=
  fun h => h ({ staging (memberIn 6) 5 with acd := { (staging (memberIn 6) 5).acd with pAct := some 3 }, sys := { (staging (memberIn 6) 5).sys with period := 3, pend := some { cmd := 5, target := 4, atPeriod := some 3 } } }) (3) ({ cmd := 5, target := 4, atPeriod := some 3 }) (by decide +kernel) (by decide +kernel) (by decide +kernel) (by decide +kernel) (by decide +kernel) (by decide +kernel)

theorem wit_accordFramesAndModeChanges_17 :
    ¬ (∀ (s : State) (g : Staged), s.acd.staged = some g → s.twoPhase = false → s.acd.pAct = none → g.deadline + s.rd R.ACD_CFG_ACT_LEAD + s.rd R.ACD_EPOCH_LOST_N ≤ s.sys.period →
    s.sys.prep = none → s.rd (R.FLT_SRC_CFG_BASE 77) ≤ 2 → s.rd (R.FLT_SRC_CFG_ESC_N 77) = 0 → False) :=
  fun h => h ({ (staging (memberIn 5) 4).wr (R.FLT_SRC_CFG_BASE 77) 1 with sys := { (staging (memberIn 5) 4).sys with period := 13 } }) (aStage 4) (by decide +kernel) (by decide +kernel) (by decide +kernel) (by decide +kernel) (by decide +kernel) (by decide +kernel) (by decide +kernel)

theorem wit_accordFramesAndModeChanges_18 :
    ¬ (∀ (s : State) (l : Fin 1024) (m : Fin 8), s.inService = true → s.on R.ACD_CFG_EN = true → s.on (R.LVLE_W1_IS_LEAD l) = true →
    mapGet (fun _ => 0) s.acd.aggMiss (8 * l.val + m.val) + 1 = s.rd R.ACD_EPOCH_LOST_N → s.rd (R.FLT_SRC_CFG_BASE 77) ≤ 2 → s.rd (R.FLT_SRC_CFG_ESC_N 77) = 0 → False) :=
  fun h => h ({ (leadIn 5).wr (R.FLT_SRC_CFG_BASE 77) 1 with acd := { Acd.reset with aggMiss := [(1, 2)] } }) (0) (1) (by decide +kernel) (by decide +kernel) (by decide +kernel) (by decide +kernel) (by decide +kernel) (by decide +kernel)

theorem wit_accordFramesAndModeChanges_19 :
    ¬ (∀ (s : State) (l : Fin 1024), s.inService = true → s.on R.ACD_CFG_EN = true → s.on (R.LVLE_W1_IS_LEAD l) = false →
    mapGet (fun _ => 0) s.acd.distMiss l + 1 = s.rd R.ACD_EPOCH_LOST_N → s.rd (R.FLT_SRC_CFG_BASE 78) ≤ 2 → s.rd (R.FLT_SRC_CFG_ESC_N 78) = 0 → False) :=
  fun h => h ({ (memberIn 5).wr (R.FLT_SRC_CFG_BASE 78) 1 with acd := { Acd.reset with distMiss := [(0, 2)] } }) (0) (by decide +kernel) (by decide +kernel) (by decide +kernel) (by decide +kernel) (by decide +kernel) (by decide +kernel)

theorem wit_accordFramesAndModeChanges_20 :
    ¬ (∀ (s : State) (l : Fin 1024) (cand : BitVec 8) (m : Nat), s.writable = true → l.val ∈ s.levelEntries → m ≠ s.rd (R.LVLE_W0_MIDX l) → m ∈ s.presentMembers l →
    bitOf cand.toNat m = true → (∀ m', m' < m → m' ∉ s.presentMembers l ∨ (m' ≠ s.rd (R.LVLE_W0_MIDX l) ∧ bitOf cand.toNat m' = false)) → False) :=
  fun h => h ({ ((memberIn 2).put R.ACD_CFG_EN true) with acd := { Acd.reset with heardRun := [(0, 16)] } }) (0) (1) (0) (by decide +kernel) (by decide +kernel) (by decide +kernel) (by decide +kernel) (by decide +kernel) (by decide +kernel)

theorem wit_timeIsKeptAndSteered_1 :
    ¬ (∀ (s : State) (x : Samples), s.writable = true → s.sys.committed = false → s.sys.prep = none → s.sys.pend = none → s.sys.restore = false → s.role = Role.solo →
    s.on R.ACD_CFG_EN = false → s.od.jobs = [] → s.on R.DEV_STATE_DRY_ACTIVE = false → False) :=
  fun h => h (inState 2) (⟨[], []⟩) (by decide +kernel) (by decide +kernel) (by decide +kernel) (by decide +kernel) (by decide +kernel) (by decide +kernel) (by decide +kernel) (by decide +kernel) (by decide +kernel)

theorem wit_timeIsKeptAndSteered_2 :
    ¬ (∀ (s : State) (v : BitVec 32), s.writable = true → s.od.jobs = [] → False) :=
  fun h => h ((inState 2).wr R.TIM_SET_NS_NS 77) (0) (by decide +kernel) (by decide +kernel)

theorem wit_timeIsKeptAndSteered_3 :
    ¬ (∀ (s : State) (v : BitVec 32), (s.st = St.energised ∨ s.st = St.deblocked ∨ s.st = St.faultBlock) → False) :=
  fun h => h (inState 5) (9) (by decide +kernel)

theorem wit_timeIsKeptAndSteered_4 :
    ¬ (∀ (s : State) (n : Fin 2) (dom : BitVec 8) (origin : BitVec 80) (corr : BitVec 48), (s.st = St.energised ∨ s.st = St.deblocked) → s.ptpOn n = true →
    dom.toNat = s.rd (R.PTP_CFG_DOMAIN n) → s.rd (R.PTP_STATE_PSTATE n) = 9 → s.timeSource = true → s.rd (R.FLT_SRC_CFG_BASE 81) ≤ 2 →
    s.rd (R.FLT_SRC_CFG_ESC_N 81) = 0 → False) :=
  fun h => h (((((inState 5).wr R.TIM_CFG_SRC 1).put (R.PTP_CFG_EN 0) true).wr (R.PTP_STATE_PSTATE 0) 9).wr (R.FLT_SRC_CFG_ESC_N 81) 0) (0) (0) (100) (0) (by decide +kernel) (by decide +kernel) (by decide +kernel) (by decide +kernel) (by decide +kernel) (by decide +kernel) (by decide +kernel)

theorem wit_timeIsKeptAndSteered_5 :
    ¬ (∀ (s : State) (n : Fin 2) (dom : BitVec 8) (role : Fin 3), s.inputsRun = true → s.ptpOn n = true → dom.toNat = s.rd (R.PTP_CFG_DOMAIN n) → False) :=
  fun h => h (((inState 2).wr R.TIM_CFG_SRC 1).put (R.PTP_CFG_EN 0) true) (0) (0) (1) (by decide +kernel) (by decide +kernel) (by decide +kernel)

theorem wit_timeIsKeptAndSteered_6 :
    ¬ (∀ (s : State) (n : Fin 2) (dom : BitVec 8), s.inputsRun = true → False) :=
  fun h => h (((inState 2).wr R.TIM_CFG_SRC 1).put (R.PTP_CFG_EN 0) true) (0) (0) (by decide +kernel)

theorem wit_timeIsKeptAndSteered_7 :
    ¬ (∀ s : State, s.timeSource = true → s.rd R.TIM_CFG_SRC ≠ 0 → s.on R.TIM_STATUS_HOLDOVER = false → s.rd (R.FLT_SRC_CFG_BASE 80) ≤ 2 → s.rd (R.FLT_SRC_CFG_ESC_N 80) = 0 → False) :=
  fun h => h ((inState 5).wr R.TIM_CFG_SRC 1) (by decide +kernel) (by decide +kernel) (by decide +kernel) (by decide +kernel) (by decide +kernel)

theorem wit_timeIsKeptAndSteered_8 :
    ¬ (∀ s : State, s.on R.TIM_STATUS_HOLDOVER = true → s.rd R.TIM_HOLD_HOLD_LIM ≤ s.rd R.TIM_HOLD_HOLD_S → False) :=
  fun h => h (((inState 5).put R.TIM_STATUS_HOLDOVER true).wr R.TIM_HOLD_HOLD_S 60) (by decide +kernel) (by decide +kernel)

theorem wit_timeIsKeptAndSteered_9 :
    ¬ (∀ (s : State) (n : Fin 2) (e : Stamp) (rest : List Stamp), mapGet noneAt s.tim.stamps n = e :: rest → False) :=
  fun h => h ({ inState 2 with tim := { Tim.reset with stamps := [(0, [⟨5, 1, 0⟩, ⟨6, 2, 0⟩])] } }) (0) (⟨5, 1, 0⟩) ([⟨6, 2, 0⟩]) (by decide +kernel)

theorem wit_timeIsKeptAndSteered_10 :
    ¬ (∀ (s : State) (n : Fin 2) (v : BitVec 32), (mapGet noneAt s.tim.queue n).length < 16 → False) :=
  fun h => h ((inState 2).wr (R.LQ_LEN_LEN 0) 60) (0) (0x80000007) (by decide +kernel)

theorem wit_timeIsKeptAndSteered_11 :
    ¬ (∀ (s : State) (n : Fin 2) (v : BitVec 32), 16 ≤ (mapGet noneAt s.tim.queue n).length → False) :=
  fun h => h ({ inState 2 with tim := { Tim.reset with queue := [(0, List.replicate 16 ⟨0x10000000, 60, 9⟩)] } }) (0) (0x80000000) (by decide +kernel)

theorem wit_timeIsKeptAndSteered_12 :
    ¬ (∀ (s : State) (n : Fin 2) (e : LaunchE) (rest : List LaunchE), mapGet noneAt s.tim.queue n = e :: rest → s.now ≤ e.time → rest.length < 16 → False) :=
  fun h => h ({ inState 2 with tim := { Tim.reset with queue := [(1, [⟨0x10000000, 60, 9⟩])] } }) (1) (⟨0x10000000, 60, 9⟩) ([]) (by decide +kernel) (by decide +kernel) (by decide +kernel)

theorem wit_timeIsKeptAndSteered_13 :
    ¬ (∀ (s : State) (n : Fin 2) (e : LaunchE) (rest : List LaunchE), mapGet noneAt s.tim.queue n = e :: rest → e.time < s.now → rest.length < 16 → False) :=
  fun h => h ({ inState 2 with now := 10, tim := { Tim.reset with queue := [(1, [⟨0x10000000, 60, 9⟩])] } }) (1) (⟨0x10000000, 60, 9⟩) ([]) (by decide +kernel) (by decide +kernel) (by decide +kernel)

theorem wit_timeIsKeptAndSteered_14 :
    ¬ (∀ (s : State) (p : Fin 48) (d2 : BitVec 8), s.dly = s.dly → False) :=
  fun h => h (inState 2) (3) (5) (by decide +kernel)

theorem wit_timeIsKeptAndSteered_15 :
    ¬ (∀ (s : State) (p : Fin 48) (d2 d3 : BitVec 8), d2 ≠ d3 → False) :=
  fun h => h (inState 2) (3) (5) (6) (by decide +kernel)

theorem wit_timeIsKeptAndSteered_16 :
    ¬ (∀ (s : State) (p : Fin 48) (n : Nat), (s.dlyAt (.strand p)).answer = some n → False) :=
  fun h => h ((inState 2).onDly (.strand 3) (fun d => { d with answer := some 9 })) (3) (9) (by decide +kernel)

theorem wit_timeIsKeptAndSteered_17 :
    ¬ (∀ (s : State) (p : Fin 48) (d2 : BitVec 8) (rtt : BitVec 40), (s.dlyAt (.strand p)).out = some d2.toNat → (s.dlyAt (.strand p)).done = 15 → s.inService = false →
    (s.dlyAt (.strand p)).sum = 15 * rtt.toNat → 10240 ≤ rtt.toNat → (rtt.toNat - 10240) / 2 < 2 ^ 24 - 1 → rtt.toNat % 2 = 0 → False) :=
  fun h => h ((inState 2).onDly (.strand 3) (fun d => { d with out := some 15, done := 15, sum := 15 * 12240 })) (3) (15) (12240) (by decide +kernel) (by decide +kernel) (by decide +kernel) (by decide +kernel) (by decide +kernel) (by decide +kernel) (by decide +kernel)

theorem wit_timeIsKeptAndSteered_18 :
    ¬ (∀ (s : State) (p : Fin 48) (d2 : BitVec 8) (rtt : BitVec 40), (s.dlyAt (.strand p)).out = some d2.toNat → (s.dlyAt (.strand p)).done < 15 → False) :=
  fun h => h ((inState 2).onDly (.strand 3) (fun d => { d with out := some 4, done := 4, sum := 40 })) (3) (4) (12240) (by decide +kernel) (by decide +kernel)

theorem wit_timeIsKeptAndSteered_19 :
    ¬ (∀ (s : State) (id : BitVec 64) (per frac : BitVec 8), (s.cell id.toNat).mode ≠ Mode.running → (s.cell id.toNat).mode ≠ Mode.coasting → False) :=
  fun h => h (holding (cellIn 3)) (0) (7) (9) (by decide +kernel) (by decide +kernel)

theorem wit_timeIsKeptAndSteered_20 :
    ¬ (∀ (s : State) (id : BitVec 64) (per frac : BitVec 8), ((s.cell id.toNat).mode = Mode.running ∨ (s.cell id.toNat).mode = Mode.coasting) → False) :=
  fun h => h (holding (cellIn Mode.running)) (0) (7) (9) (by decide +kernel)

theorem wit_timeIsKeptAndSteered_21 :
    ¬ (∀ (s : State) (id : BitVec 64) (v : BitVec 32), (v.toNat + 2 ^ 32 - (s.cell id.toNat).clock s.now) % 2 ^ 32 ≤ 2 ^ 31 → False) :=
  fun h => h (holding (cellIn 3)) (0) (1000) (by decide +kernel)

theorem wit_timeIsKeptAndSteered_22 :
    ¬ (∀ (s : State) (id : BitVec 64) (v : BitVec 32), 2 ^ 31 < (v.toNat + 2 ^ 32 - (s.cell id.toNat).clock s.now) % 2 ^ 32 → False) :=
  fun h => h (holding (cellIn 3)) (0) (0x80000001) (by decide +kernel)

theorem wit_islandStatesAreSafe_1 :
    ¬ (∀ s : State, s.sys.rstHigh = true → False) :=
  fun h => h (island 4) (by decide +kernel)

theorem wit_islandStatesAreSafe_2 :
    ¬ (∀ (s : State) (fails : BitVec 6), s.sys.rstHigh = true → s.ist = 1 → fails = 0 → False) :=
  fun h => h (island 1) (0) (by decide +kernel) (by decide +kernel) (by decide +kernel)

theorem wit_islandStatesAreSafe_3 :
    ¬ (∀ (s : State) (fails : BitVec 6), s.sys.rstHigh = true → s.ist = 1 → fails ≠ 0 → False) :=
  fun h => h (island 1) (4) (by decide +kernel) (by decide +kernel) (by decide +kernel)

theorem wit_islandStatesAreSafe_4 :
    ¬ (∀ s : State, s.ist ≠ 0 → s.ist ≠ 4 → False) :=
  fun h => h (island 3) (by decide +kernel) (by decide +kernel)

theorem wit_islandStatesAreSafe_5 :
    ¬ (∀ s : State, s.ist ≠ 0 → s.ist ≠ 4 → False) :=
  fun h => h (island 3) (by decide +kernel) (by decide +kernel)

theorem wit_islandStatesAreSafe_6 :
    ¬ (∀ (s : State) (corrected : Bool), s.ist ≠ 0 → s.ist ≠ 4 → corrected = false → False) :=
  fun h => h (island 3) (false) (by decide +kernel) (by decide +kernel) (by decide +kernel)

theorem wit_islandStatesAreSafe_7 :
    ¬ (∀ (s : State) (corrected : Bool), corrected = true → False) :=
  fun h => h (island 3) (true) (by decide +kernel)

theorem wit_islandStatesAreSafe_8 :
    ¬ (∀ (s : State) (dev : BitVec 8), s.ist ≠ 0 → s.ist ≠ 4 → 20 < (toSigned 8 dev.toNat).natAbs → False) :=
  fun h => h (island 3) (25) (by decide +kernel) (by decide +kernel) (by decide +kernel)

theorem wit_islandStatesAreSafe_9 :
    ¬ (∀ (s : State) (dev : BitVec 8), s.ist = 3 → False) :=
  fun h => h (island 3) (0) (by decide +kernel)

theorem wit_islandStatesAreSafe_10 :
    ¬ (∀ s : State, s.ist = 3 → False) :=
  fun h => h (island 3) (by decide +kernel)

theorem wit_islandStatesAreSafe_11 :
    ¬ (∀ (s : State) (set : Option (List ParamWord)), s.ist = 2 → set ≠ none → False) :=
  fun h => h (island 2) (some [(0x100, 0x0C850110)]) (by decide +kernel) (by decide +kernel)

theorem wit_islandStatesAreSafe_12 :
    ¬ (∀ (s : State) (pins : SafePins), s.islandUp = true → False) :=
  fun h => h (island 3) (noPins) (by decide +kernel)

theorem wit_safeInputsLatchUntilReset_1 :
    ¬ (∀ (s : State) (n : Fin 8) (b level : Bool), s.islandUp = true → s.siHeld n b = false → False) :=
  fun h => h (testedInput) (0) (false) (false) (by decide +kernel) (by decide +kernel)

theorem wit_safeInputsLatchUntilReset_2 :
    ¬ (∀ (s : State) (n : Fin 8) (b level : Bool), s.siHeld n b = true → False) :=
  fun h => h ({ testedInput with isl := { testedInput.isl with excl := 1 } }) (0) (false) (false) (by decide +kernel)

theorem wit_safeInputsLatchUntilReset_3 :
    ¬ (∀ (s : State) (n : Fin 8), s.islandUp = true → s.rd (R.SI_CFG_DISC n) * 20 < mapGet (fun _ => 0) s.isl.disc n → False) :=
  fun h => h ({ testedInput with isl := { testedInput.isl with disc := [(0, 2001)] } }) (0) (by decide +kernel) (by decide +kernel)

theorem wit_safeInputsLatchUntilReset_4 :
    ¬ (∀ (s : State) (tp : Fin 4) (x : BitVec 16), s.islandUp = true → False) :=
  fun h => h (testedInput) (1) (3) (by decide +kernel)

theorem wit_safeInputsLatchUntilReset_5 :
    ¬ (∀ (s : State) (tp : Fin 4) (x : BitVec 16), s.islandUp = true → s.siTp 0 false = some tp.val → bitOf s.isl.pre 0 = true → x.getLsbD 0 = true → False) :=
  fun h => h ({ testedInput with isl := { testedInput.isl with pre := 1 } }) (0) (1) (by decide +kernel) (by decide +kernel) (by decide +kernel) (by decide +kernel)

theorem wit_safeInputsLatchUntilReset_6 :
    ¬ (∀ (s : State) (tp : Fin 4) (x : BitVec 16), s.islandUp = true → bitOf s.isl.low 1 = true → x.getLsbD 1 = true → False) :=
  fun h => h ({ testedInput with isl := { testedInput.isl with low := 2, excl := 1 } }) (0) (2) (by decide +kernel) (by decide +kernel) (by decide +kernel)

theorem wit_safeInputsLatchUntilReset_7 :
    ¬ (∀ (s : State) (tp : Fin 4) (level : Bool), s.islandUp = true → s.siTp 0 true = some tp.val → False) :=
  fun h => h (testedInput) (1) (false) (by decide +kernel) (by decide +kernel)

theorem wit_safeInputsLatchUntilReset_8 :
    ¬ (∀ s : State, s.islandUp = true → False) :=
  fun h => h (island 3) (by decide +kernel)

theorem wit_safeInputsLatchUntilReset_9 :
    ¬ (∀ (s : State) (at' : Nat), s.islandUp = true → s.isl.press = some at' → s.isl.stuck = false → s.on R.SAFE_RST_PIN_EN = true → at' + 100000000 ≤ s.now →
    s.now < at' + 5000000000 → False) :=
  fun h => h ({ (island 3).put R.SAFE_LATCH_START true with now := 400000000, isl := { Isl.reset with press := some 0 } }) (0) (by decide +kernel) (by decide +kernel) (by decide +kernel) (by decide +kernel) (by decide +kernel) (by decide +kernel)

theorem wit_safeInputsLatchUntilReset_10 :
    ¬ (∀ (s : State) (at' : Nat), s.islandUp = true → s.isl.press = some at' → s.isl.stuck = true → False) :=
  fun h => h ({ island 3 with now := 5400000000, isl := { Isl.reset with press := some 0, stuck := true } }) (0) (by decide +kernel) (by decide +kernel) (by decide +kernel)

theorem wit_safeInputsLatchUntilReset_11 :
    ¬ (∀ (s : State) (at' : Nat), s.islandUp = true → s.isl.press = some at' → s.on R.SAFE_RST_PIN_EN = true → False) :=
  fun h => h ({ island 3 with now := 5000000000, isl := { Isl.reset with press := some 0 } }) (0) (by decide +kernel) (by decide +kernel) (by decide +kernel)

theorem wit_safeOutputsBrakeAndMate_1 :
    ¬ (∀ (s : State) (n : Fin 2) (low level : Bool), s.islandUp = true → mapGet (fun _ => none) s.isl.test n.val = none →
    s.on (if low then R.SO_STATUS_LS_DRV n else R.SO_STATUS_HS_DRV n) = !level → False) :=
  fun h => h (island 3) (0) (false) (true) (by decide +kernel) (by decide +kernel) (by decide +kernel)

theorem wit_safeOutputsBrakeAndMate_2 :
    ¬ (∀ (s : State) (n : Fin 2) (low : Bool), s.ist = 3 → s.rd (R.SO_CFG_FUNC n) ≠ 0 → mapGet (fun _ => none) s.isl.test n.val = none → False) :=
  fun h => h ((island 3).wr (R.SO_CFG_FUNC 1) 2) (1) (true) (by decide +kernel) (by decide +kernel) (by decide +kernel)

theorem wit_safeOutputsBrakeAndMate_3 :
    ¬ (∀ (s : State) (n : Fin 2) (level low : Bool), mapGet (fun _ => none) s.isl.test n.val = some low → level = !s.on (R.SO_STATUS_ENERGISED n) → False) :=
  fun h => h ({ island 3 with isl := { Isl.reset with test := [(1, some true)] } }) (1) (true) (true) (by decide +kernel) (by decide +kernel)

theorem wit_safeOutputsBrakeAndMate_4 :
    ¬ (∀ (s : State) (n : Fin 2) (level low : Bool), mapGet (fun _ => none) s.isl.test n.val = some low → level = s.on (R.SO_STATUS_ENERGISED n) → False) :=
  fun h => h ({ island 3 with isl := { Isl.reset with test := [(1, some true)] } }) (1) (false) (true) (by decide +kernel) (by decide +kernel)

theorem wit_safeOutputsBrakeAndMate_5 :
    ¬ (∀ (s : State) (n : Fin 2) (level : Bool), s.islandUp = true → s.fbkExpected n = some (!level) → False) :=
  fun h => h (((island 3).put (R.SO_CFG_FBK_EN 1) true).wr (R.SO_CFG_FUNC 1) 1) (1) (false) (by decide +kernel) (by decide +kernel)

theorem wit_safeOutputsBrakeAndMate_6 :
    ¬ (∀ s : State, s.islandUp = true → s.on R.SAFE_STATE_SBC = true → s.on R.SBC_CFG_SBC_MODE = true → False) :=
  fun h => h (((island 3).put R.SBC_CFG_SBC_MODE true).put R.SAFE_STATE_SBC true) (by decide +kernel) (by decide +kernel) (by decide +kernel)

theorem wit_safeOutputsBrakeAndMate_7 :
    ¬ (∀ (s : State) (l : BitVec 2), s.isl.bt = 1 → (∀ n, n < 2 → s.rd (R.SO_CFG_FUNC n) = 2 → l.getLsbD n = !s.on (R.SO_CFG_FBK_POL n)) → False) :=
  fun h => h ({ (island 3).wr (R.SO_CFG_FUNC 1) 2 with isl := { Isl.reset with bt := 1 } }) (2) (by decide +kernel) (by decide +kernel)

theorem wit_safeOutputsBrakeAndMate_8 :
    ¬ (∀ (s : State) (l : BitVec 2), s.isl.bt = 1 → s.rd (R.SO_CFG_FUNC 1) = 2 → l.getLsbD 1 = s.on (R.SO_CFG_FBK_POL 1) → False) :=
  fun h => h ({ (island 3).wr (R.SO_CFG_FUNC 1) 2 with isl := { Isl.reset with bt := 1 } }) (0) (by decide +kernel) (by decide +kernel) (by decide +kernel)

theorem wit_safeOutputsBrakeAndMate_9 :
    ¬ (∀ s : State, s.isl.bt = 2 → s.isl.btBad = false → False) :=
  fun h => h ({ island 3 with isl := { Isl.reset with bt := 2 } }) (by decide +kernel) (by decide +kernel)

theorem wit_safeOutputsBrakeAndMate_10 :
    ¬ (∀ s : State, s.isl.bt = 2 → s.isl.btBad = true → False) :=
  fun h => h ({ island 3 with isl := { Isl.reset with bt := 2, btBad := true } }) (by decide +kernel) (by decide +kernel)

theorem wit_safeOutputsBrakeAndMate_11 :
    ¬ (∀ s : State, s.ist = 3 → False) :=
  fun h => h ((island 3).wr R.BT_CFG_BT_INT 1) (by decide +kernel)

theorem wit_safeOutputsBrakeAndMate_12 :
    ¬ (∀ (s : State) (b : Bool), s.islandUp = true → s.on R.MATE_MATE_EN = true → False) :=
  fun h => h ((island 3).put R.MATE_MATE_EN true) (false) (by decide +kernel) (by decide +kernel)

theorem wit_safeOutputsBrakeAndMate_13 :
    ¬ (∀ s : State, s.islandUp = true → s.on R.MATE_MATE_EN = true → s.on R.MATE_LIVE_A ≠ s.on R.MATE_LIVE_B → False) :=
  fun h => h (((island 3).put R.MATE_MATE_EN true).put R.MATE_LIVE_A true) (by decide +kernel) (by decide +kernel) (by decide +kernel)

theorem wit_safeTelegramsPairAndCommit_1 :
    ¬ (∀ (s : State) (p : TelegramPath) (l : List Byte), s.islandUp = true → s.telegramConn p l = some 0 → s.telegramGood 0 p l = true → (s.conn 0).held = [] →
    s.rd (R.CONN_STATE_CSTATE 0) = 2 → leAt l 4 4 = (s.rd (R.CONN_SEQ_SEQ 0) + 1) % 2 ^ 32 → False) :=
  fun h => h (connected 3) (.ethernet 0 0) (aTelegram) (by decide +kernel) (by decide +kernel) (by decide +kernel) (by decide +kernel) (by decide +kernel) (by decide +kernel)

theorem wit_safeTelegramsPairAndCommit_2 :
    ¬ (∀ (s : State) (p : TelegramPath) (l : List Byte) (h : Held), s.ist = 3 → s.telegramConn p l = some 0 → s.telegramGood 0 p l = true → (s.conn 0).held = [h] →
    s.rd (R.CONN_STATE_CSTATE 0) = 2 → leAt l 4 4 = (s.rd (R.CONN_SEQ_SEQ 0) + 1) % 2 ^ 32 → h.seq = leAt l 4 4 → some h.net ≠ s.pathNet 0 p →
    some h.bytes = telegramOf p l → s.now - h.at' ≤ s.rd (R.CONN_TIME_SKEW 0) * 100000 → byteAt l 2 = 1 → (s.conn 0).press = none → s.on (R.CONN_CFG_RST_EN 0) = false → False) :=
  fun h => h ({ connected 3 with isl := { Isl.reset with conns := [(0, { ConnI.reset with held := [{ seq := 8, net := 1, bytes := aTelegram, at' := 0 }] })] } }) (.ethernet 0 0) (aTelegram) ({ seq := 8, net := 1, bytes := aTelegram, at' := 0 }) (by decide +kernel) (by decide +kernel) (by decide +kernel) (by decide +kernel) (by decide +kernel) (by decide +kernel) (by decide +kernel) (by decide +kernel) (by decide +kernel) (by decide +kernel) (by decide +kernel) (by decide +kernel) (by decide +kernel)

theorem wit_safeTelegramsPairAndCommit_3 :
    ¬ (∀ (s : State) (p : TelegramPath) (l : List Byte) (h : Held), s.islandUp = true → s.telegramConn p l = some 0 → s.telegramGood 0 p l = true → (s.conn 0).held = [h] →
    s.rd (R.CONN_STATE_CSTATE 0) = 2 → leAt l 4 4 = (s.rd (R.CONN_SEQ_SEQ 0) + 1) % 2 ^ 32 → h.seq = leAt l 4 4 → some h.net ≠ s.pathNet 0 p →
    some h.bytes ≠ telegramOf p l → s.now - h.at' ≤ s.rd (R.CONN_TIME_SKEW 0) * 100000 → False) :=
  fun h => h ({ connected 3 with isl := { Isl.reset with conns := [(0, { ConnI.reset with held := [{ seq := 8, net := 1, bytes := patch aTelegram 9 [9#8], at' := 0 }] })] } }) (.ethernet 0 0) (aTelegram) ({ seq := 8, net := 1, bytes := patch aTelegram 9 [9#8], at' := 0 }) (by decide +kernel) (by decide +kernel) (by decide +kernel) (by decide +kernel) (by decide +kernel) (by decide +kernel) (by decide +kernel) (by decide +kernel) (by decide +kernel) (by decide +kernel)

theorem wit_safeTelegramsPairAndCommit_4 :
    ¬ (∀ (s : State) (p : TelegramPath) (l : List Byte) (c : Nat), s.islandUp = true → s.telegramConn p l = some c → s.telegramGood c p l = false → False) :=
  fun h => h (connected 3) (.ethernet 0 0) (patch aTelegram 40 [1#8, 2#8]) (0) (by decide +kernel) (by decide +kernel) (by decide +kernel)

theorem wit_safeTelegramsPairAndCommit_5 :
    ¬ (∀ (s : State) (c : Fin 8) (h : Held) (rest : List Held), (s.conn c).held = h :: rest → False) :=
  fun h => h ({ connected 3 with isl := { Isl.reset with conns := [(0, { ConnI.reset with held := [{ seq := 8, net := 1, bytes := aTelegram, at' := 0 }] })] } }) (0) ({ seq := 8, net := 1, bytes := aTelegram, at' := 0 }) ([]) (by decide +kernel)

theorem wit_safeTelegramsPairAndCommit_6 :
    ¬ (∀ (s : State) (c : Fin 8), s.islandUp = true → s.rd (R.CONN_STATE_CSTATE c) = 2 → False) :=
  fun h => h (connected 3) (0) (by decide +kernel) (by decide +kernel)

theorem wit_safeTelegramsPairAndCommit_7 :
    ¬ (∀ (s : State) (c : Fin 8), s.islandUp = true → s.on (R.CONN_CFG_EN c) = true → False) :=
  fun h => h (connected 3) (0) (by decide +kernel) (by decide +kernel)

theorem wit_safeTelegramsPairAndCommit_8 :
    ¬ (∀ (s : State) (c : Fin 8) (l : List Byte), s.on (R.CONN_CFG_PARAM_EN c) = true → s.islandUp = true → s.on R.PT_STATUS_OPEN = false → s.isl.staged = [] → byteAt l 2 = 1 →
    rwsLegal (leAt l 4 2) (leAt l 8 4) = true → False) :=
  fun h => h (connected 3) (0) (stagePayload) (by decide +kernel) (by decide +kernel) (by decide +kernel) (by decide +kernel) (by decide +kernel) (by decide +kernel)

theorem wit_safeTelegramsPairAndCommit_9 :
    ¬ (∀ (s : State) (c : Fin 8) (l : List Byte), s.on (R.CONN_CFG_PARAM_EN c) = true → s.islandUp = true → s.on R.PT_STATUS_OPEN = false → 3 < byteAt l 2 → False) :=
  fun h => h (connected 3) (0) (patch stagePayload 2 [4#8]) (by decide +kernel) (by decide +kernel) (by decide +kernel) (by decide +kernel)

theorem wit_safeTelegramsPairAndCommit_10 :
    ¬ (∀ (s : State) (c : Fin 8) (l : List Byte), s.on (R.CONN_CFG_PARAM_EN c) = true → s.islandUp = true → s.on R.PT_STATUS_OPEN = true → s.rd R.PT_STATUS_TXID = byteAt l 1 →
    leAt l 28 4 = s.rd R.PT_CRC_CRC → s.on R.SAFE_STATE_SB = true → s.on R.SAFE_STATE_ST = true → s.on R.SAFE_STATE_SBC = true →
    s.on (R.SO_STATUS_ENERGISED 0) = false → s.on (R.SO_STATUS_ENERGISED 1) = false → (s.applySet s.isl.staged).setLegal = true → False) :=
  fun h => h (((((connected 2).put R.PT_STATUS_OPEN true).wr R.PT_STATUS_TXID 9).put R.SAFE_STATE_SB true).put R.SAFE_STATE_SBC true) (0) (patch stagePayload 0 [2#8] ++ [0#8, 0#8, 0#8, 0#8]) (by decide +kernel) (by decide +kernel) (by decide +kernel) (by decide +kernel) (by decide +kernel) (by decide +kernel) (by decide +kernel) (by decide +kernel) (by decide +kernel) (by decide +kernel) (by decide +kernel)

theorem wit_safeTelegramsPairAndCommit_11 :
    ¬ (∀ (s : State) (c : Fin 8) (l : List Byte), s.on (R.CONN_CFG_PARAM_EN c) = true → s.islandUp = true → s.on R.PT_STATUS_OPEN = true → s.rd R.PT_STATUS_TXID = byteAt l 1 → False) :=
  fun h => h (((connected 3).put R.PT_STATUS_OPEN true).wr R.PT_STATUS_TXID 9) (0) (stagePayload) (by decide +kernel) (by decide +kernel) (by decide +kernel) (by decide +kernel)

theorem wit_safeTelegramsPairAndCommit_12 :
    ¬ (∀ (s : State) (c : Fin 8) (l : List Byte), s.on (R.CONN_CFG_PARAM_EN c) = true → s.islandUp = true → leAt l 4 2 = 0x100 → False) :=
  fun h => h (connected 3) (0) (stagePayload) (by decide +kernel) (by decide +kernel) (by decide +kernel)

theorem wit_safeTelegramsPairAndCommit_13 :
    ¬ (∀ s : State, s.on R.PT_STATUS_OPEN = true → False) :=
  fun h => h ((connected 3).put R.PT_STATUS_OPEN true) (by decide +kernel)

theorem wit_faultsLatchAndClear_1 :
    ¬ (∀ (s : State) (i addr : Nat), i < 128 → reservedSource i = false → s.latched i = false → s.lclass i = 0 → s.rd (R.FLT_SRC_CFG_ESC_N i) ≠ 1 →
    (mapGet (fun _ => []) s.flt.hist i) = [] → 1 ≤ s.rd (R.FLT_SRC_CFG_BASE i) → s.rd (R.FLT_SRC_CFG_BASE i) ≤ 2 → s.levelSource i = false → s.flt.armed = true → False) :=
  fun h => h (inState 2) (14) (0) (by decide +kernel) (by decide +kernel) (by decide +kernel) (by decide +kernel) (by decide +kernel) (by decide +kernel) (by decide +kernel) (by decide +kernel) (by decide +kernel) (by decide +kernel)

theorem wit_faultsLatchAndClear_2 :
    ¬ (∀ (s : State) (i addr : Nat), i < 128 → reservedSource i = false → s.latched i = false → s.lclass i = 0 → s.rd (R.FLT_SRC_CFG_ESC_N i) = 0 →
    s.rd (R.FLT_SRC_CFG_BASE i) = 0 → s.levelSource i = false → False) :=
  fun h => h ((inState 2).wr (R.FLT_SRC_CFG_ESC_N 43) 0) (43) (0) (by decide +kernel) (by decide +kernel) (by decide +kernel) (by decide +kernel) (by decide +kernel) (by decide +kernel) (by decide +kernel)

theorem wit_faultsLatchAndClear_3 :
    ¬ (∀ (s : State) (i cls : Nat), i < 128 → reservedSource i = false → s.levelSource i = false → 2 ≤ s.rd (R.FLT_SRC_CFG_ESC_N i) → s.rd (R.FLT_SRC_CFG_ESC_CLASS i) = cls →
    s.rd (R.FLT_SRC_CFG_BASE i) < cls → cls ≤ 2 → s.lclass i ≤ 2 → (mapGet (fun _ => []) s.flt.hist i).length + 1 = s.rd (R.FLT_SRC_CFG_ESC_N i) →
    s.us - (mapGet (fun _ => []) s.flt.hist i).headD 0 < s.rd (R.FLT_SRC_WIN_ESC_W i) * 1000 → False) :=
  fun h => h ({ (inState 2).wr (R.FLT_SRC_CFG_BASE 14) 1 with now := 1000000, flt := { (inState 2).flt with hist := [(14, List.replicate 15 900)] } }) (14) (2) (by decide +kernel) (by decide +kernel) (by decide +kernel) (by decide +kernel) (by decide +kernel) (by decide +kernel) (by decide +kernel) (by decide +kernel) (by decide +kernel) (by decide +kernel)

theorem wit_faultsLatchAndClear_4 :
    ¬ (∀ (s : State) (i : Fin 128), s.levelSource i = true → reservedSource i = false → False) :=
  fun h => h ((inState 2).putBit (R.FLT_LIVE_LIVE 2) 3 true) (67) (by decide +kernel) (by decide +kernel)

theorem wit_faultsLatchAndClear_5 :
    ¬ (∀ (s : State) (i : Fin 128), s.st ≠ St.reset → s.st ≠ St.selfTest → s.role = Role.solo → s.latched i = true → s.lclass i ≠ 5 →
    s.bit (R.FLT_LIVE_LIVE (i.val / 32)) (i.val % 32) = false → False) :=
  fun h => h (((inState 2).putBit (R.FLT_STAT_LATCH 1) 16 true).wr (R.FLT_SRC_ST_LCLASS 48) 1) (48) (by decide +kernel) (by decide +kernel) (by decide +kernel) (by decide +kernel) (by decide +kernel) (by decide +kernel)

theorem wit_faultsLatchAndClear_6 :
    ¬ (∀ (s : State) (i : Fin 128), s.st ≠ St.reset → s.st ≠ St.selfTest → s.role = Role.solo → s.latched i = true →
    (s.lclass i = 5 ∨ s.bit (R.FLT_LIVE_LIVE (i.val / 32)) (i.val % 32) = true) → False) :=
  fun h => h (((inState 2).putBit (R.FLT_STAT_LATCH 2) 3 true).putBit (R.FLT_LIVE_LIVE 2) 3 true) (67) (by decide +kernel) (by decide +kernel) (by decide +kernel) (by decide +kernel) (by decide +kernel)

theorem wit_faultsLatchAndClear_7 :
    ¬ (∀ (s : State) (i : Fin 128), s.st ≠ St.reset → s.st ≠ St.selfTest → s.role = Role.solo → reservedSource i = false → s.rd (R.FLT_SRC_CFG_BASE i) ≤ 2 →
    s.rd (R.FLT_SRC_CFG_ESC_CLASS i) ≤ 2 → s.lclass i ≤ 2 → False) :=
  fun h => h (inState 2) (14) (by decide +kernel) (by decide +kernel) (by decide +kernel) (by decide +kernel) (by decide +kernel) (by decide +kernel) (by decide +kernel)

theorem wit_faultsLatchAndClear_8 :
    ¬ (∀ (s : State) (i : Fin 128) (key : BitVec 16), s.st ≠ St.reset → s.st ≠ St.selfTest → s.role = Role.solo → key ≠ 0x5A5A → False) :=
  fun h => h (inState 2) (14) (3) (by decide +kernel) (by decide +kernel) (by decide +kernel) (by decide +kernel)

theorem wit_faultsLatchAndClear_9 :
    ¬ (∀ s : State, s.st ≠ St.reset → s.st ≠ St.selfTest → s.role = Role.solo → False) :=
  fun h => h ({ (inState 2).put R.FLT_FIRST_INFO_VALID true with flt := { (inState 2).flt with armed := false } }) (by decide +kernel) (by decide +kernel) (by decide +kernel)

theorem wit_faultsLatchAndClear_10 :
    ¬ (∀ (s : State) (i : Fin 128), s.st ≠ St.reset → s.st ≠ St.selfTest → s.role = Role.solo →
    (∀ j, j < 128 → s.latched j = true → j = i.val ∧ s.lclass j ≠ 5 ∧ s.bit (R.FLT_LIVE_LIVE (j / 32)) (j % 32) = false) → False) :=
  fun h => h (((inState 2).putBit (R.FLT_STAT_LATCH 1) 16 true).wr (R.FLT_SRC_ST_LCLASS 48) 1) (48) (by decide +kernel) (by decide +kernel) (by decide +kernel) (by decide +kernel)

theorem wit_faultsLatchAndClear_11 :
    ¬ (∀ s : State, s.st ≠ St.reset → s.st ≠ St.selfTest → s.role = Role.solo → s.rd (R.FLT_SRC_CFG_BASE 31) = 1 → s.rd (R.FLT_SRC_CFG_ESC_N 31) = 0 → s.lclass 31 ≤ 1 → False) :=
  fun h => h (inState 2) (by decide +kernel) (by decide +kernel) (by decide +kernel) (by decide +kernel) (by decide +kernel) (by decide +kernel)

theorem wit_faultsLatchAndClear_12 :
    ¬ (∀ (s : State) (i : Fin 128) (v : BitVec 32), s.writable = true → s.role = Role.solo → reservedSource i = false → v.toNat % 8 ≤ 5 → v.toNat / 16 % 8 ≤ 5 →
    s.rd (R.FLT_SRC_CFG_FLOOR i) ≤ v.toNat % 8 → s.rd (R.FLT_SRC_CFG_FLOOR i) ≤ v.toNat / 16 % 8 → 2 ≤ v.toNat / 256 % 256 → v.toNat % 8 < v.toNat / 16 % 8 → False) :=
  fun h => h (inState 2) (14) (0x0221) (by decide +kernel) (by decide +kernel) (by decide +kernel) (by decide +kernel) (by decide +kernel) (by decide +kernel) (by decide +kernel) (by decide +kernel) (by decide +kernel)

theorem wit_faultsLatchAndClear_13 :
    ¬ (∀ (s : State) (i : Fin 128) (v : BitVec 32), s.writable = true → s.role = Role.solo → reservedSource i = false →
    v.toNat % 8 < s.rd (R.FLT_SRC_CFG_FLOOR i) → v.toNat % 8 ≠ s.rd (R.FLT_SRC_CFG_BASE i) → False) :=
  fun h => h (inState 2) (15) (0x0002) (by decide +kernel) (by decide +kernel) (by decide +kernel) (by decide +kernel) (by decide +kernel)

theorem wit_faultsLatchAndClear_14 :
    ¬ (∀ (s : State) (id : BitVec 64) (i : Fin 32) (cls : Nat), (s.cell id.toNat).mode ≠ Mode.reset → (s.cell id.toNat).rd (K.CFLT_CLASS_CLASS (i / 8) (i % 8)) = cls →
    3 ≤ cls → cls ≤ 4 → (s.cell id.toNat).latched i = false → (s.cell id.toNat).on (K.CFLT_CLASS_BYP (i / 8) (i % 8)) = false →
    (s.cell id.toNat).bit K.CTRG_MASK_MASK i = false → (∀ e ∈ (s.cell id.toNat).cls, e.2 ≤ 5) → False) :=
  fun h => h (holding (cellIn 4)) (0) (0) (4) (by decide +kernel) (by decide +kernel) (by decide +kernel) (by decide +kernel) (by decide +kernel) (by decide +kernel) (by decide +kernel) (by decide +kernel)

theorem wit_faultsLatchAndClear_15 :
    ¬ (∀ (s : State) (id : BitVec 64) (i : Fin 32), (s.cell id.toNat).mode ≠ Mode.reset → (s.cell id.toNat).rd (K.CFLT_CLASS_CLASS (i / 8) (i % 8)) = 5 →
    (s.cell id.toNat).on (K.CFLT_CLASS_BYP (i / 8) (i % 8)) = false → (s.cell id.toNat).bit K.CTRG_MASK_MASK i = false → False) :=
  fun h => h (holding (cellIn 4)) (0) (16) (by decide +kernel) (by decide +kernel) (by decide +kernel) (by decide +kernel)

theorem wit_faultsLatchAndClear_16 :
    ¬ (∀ (s : State) (id : BitVec 64) (i : Fin 32), (s.cell id.toNat).latched i = true → mapGet (fun _ => 0) (s.cell id.toNat).cls i.val ≠ 5 → cellLevelSource i = false → False) :=
  fun h => h (holding { (cellIn 4).putBit K.CFLT_STAT_STAT 7 true with cls := [(7, 1)] }) (0) (7) (by decide +kernel) (by decide +kernel) (by decide +kernel)

theorem wit_faultsLatchAndClear_17 :
    ¬ (∀ (s : State) (id : BitVec 64) (i : Fin 32), (s.cell id.toNat).latched i = true → mapGet (fun _ => 0) (s.cell id.toNat).cls i.val = 5 → False) :=
  fun h => h (holding { (cellIn 4).putBit K.CFLT_STAT_STAT 16 true with cls := [(16, 5)] }) (0) (16) (by decide +kernel) (by decide +kernel)

theorem wit_faultsLatchAndClear_18 :
    ¬ (∀ (s : State) (id : BitVec 64), 0 ≤ s.now → False) :=
  fun h => h (holding ((cellIn 4).put K.CFLT_FIRST_VALID true)) (0) (by decide +kernel)

theorem wit_faultsLatchAndClear_19 :
    ¬ (∀ (s : State) (id : BitVec 64) (i : Fin 32), cellLevelSource i = true → False) :=
  fun h => h (holding ((cellIn 4).putBit K.CFLT_LIVE_LIVE 21 true)) (0) (21) (by decide +kernel)

theorem wit_captureArmsFiresAndCloses_1 :
    ¬ (∀ s : State, s.st ≠ St.reset → s.st ≠ St.selfTest → s.role = Role.solo → s.on R.ACD_STATUS_FORMED = false → s.on R.ACD_CFG_EN = false →
    s.armCode true = 0 → False) :=
  fun h => h (armable) (by decide +kernel) (by decide +kernel) (by decide +kernel) (by decide +kernel) (by decide +kernel) (by decide +kernel)

theorem wit_captureArmsFiresAndCloses_2 :
    ¬ (∀ s : State, s.st ≠ St.reset → s.st ≠ St.selfTest → s.role = Role.solo → s.aqs ≠ Aq.idle → s.aqs ≠ Aq.done → False) :=
  fun h => h (capture 2) (by decide +kernel) (by decide +kernel) (by decide +kernel) (by decide +kernel) (by decide +kernel)

theorem wit_captureArmsFiresAndCloses_3 :
    ¬ (∀ s : State, s.st ≠ St.reset → s.st ≠ St.selfTest → s.role = Role.solo → s.on R.ACD_STATUS_FORMED = false → (s.aqs = Aq.idle ∨ s.aqs = Aq.done) →
    s.rd R.ACQ_RING_SIZE * 2 ^ 20 / s.rowBytes < s.rd R.ACQ_PRE_PRE + 1 → False) :=
  fun h => h (armable.wr R.ACQ_PRE_PRE 0xFFFFFF) (by decide +kernel) (by decide +kernel) (by decide +kernel) (by decide +kernel) (by decide +kernel) (by decide +kernel)

theorem wit_captureArmsFiresAndCloses_4 :
    ¬ (∀ s : State, s.st ≠ St.reset → s.st ≠ St.selfTest → s.role = Role.solo → s.on R.ACD_CFG_EN = false → s.acq.rec' = none → s.aqs ≠ Aq.idle → False) :=
  fun h => h (capture 2) (by decide +kernel) (by decide +kernel) (by decide +kernel) (by decide +kernel) (by decide +kernel) (by decide +kernel)

theorem wit_captureArmsFiresAndCloses_5 :
    ¬ (∀ (s : State) (r : RecA), s.st ≠ St.reset → s.st ≠ St.selfTest → s.role = Role.solo → s.on R.ACD_CFG_EN = false → s.acq.rec' = some r → s.aqs = Aq.post → False) :=
  fun h => h (recording 3) (aRecord) (by decide +kernel) (by decide +kernel) (by decide +kernel) (by decide +kernel) (by decide +kernel) (by decide +kernel)

theorem wit_captureArmsFiresAndCloses_6 :
    ¬ (∀ s : State, s.st ≠ St.reset → s.st ≠ St.selfTest → s.role = Role.solo → s.on R.ACD_CFG_EN = false → s.acq.rec'.isSome = true → s.aqs = Aq.close → False) :=
  fun h => h (recording 4) (by decide +kernel) (by decide +kernel) (by decide +kernel) (by decide +kernel) (by decide +kernel) (by decide +kernel)

theorem wit_captureArmsFiresAndCloses_7 :
    ¬ (∀ s : State, s.st ≠ St.reset → s.st ≠ St.selfTest → s.role = Role.solo → s.acqRuns = true → False) :=
  fun h => h (capture 2) (by decide +kernel) (by decide +kernel) (by decide +kernel) (by decide +kernel)

theorem wit_captureArmsFiresAndCloses_8 :
    ¬ (∀ s : State, s.st ≠ St.reset → s.st ≠ St.selfTest → s.role = Role.solo → s.acqRuns = false → s.acq.marks.length < 16 → False) :=
  fun h => h (armable) (by decide +kernel) (by decide +kernel) (by decide +kernel) (by decide +kernel) (by decide +kernel)

theorem wit_captureArmsFiresAndCloses_9 :
    ¬ (∀ s : State, s.st ≠ St.reset → s.st ≠ St.selfTest → s.role = Role.solo → False) :=
  fun h => h ((((capture 1).wr R.ACQ_CNT_A_EARLY_TRIG 4).wr R.ACQ_DEAD_MAX_MAX 5)) (by decide +kernel) (by decide +kernel) (by decide +kernel)

theorem wit_captureArmsFiresAndCloses_10 :
    ¬ (∀ (s : State) (m : MarkA) (ms : List MarkA), s.st ≠ St.reset → s.st ≠ St.selfTest → s.role = Role.solo → s.acq.marks = m :: ms → ms.length < 16 → False) :=
  fun h => h ({ armable with acq := { Acq.reset with marks := [⟨7, 16, 1⟩, ⟨9, 8, 0⟩] } }) (⟨7, 16, 1⟩) ([⟨9, 8, 0⟩]) (by decide +kernel) (by decide +kernel) (by decide +kernel) (by decide +kernel) (by decide +kernel)

theorem wit_captureArmsFiresAndCloses_11 :
    ¬ (∀ s : State, s.inputsRun = true → s.st ≠ St.locked → s.aqs = Aq.fill → s.acq.fill < s.rd R.ACQ_PRE_PRE → s.acq.armAt = none → s.acq.reqs = [] →
    s.acq.force = false → s.acq.rec' = none → s.rd (R.SQ_CFG_COND (s.rd R.ACQ_STATUS_SEQ_ST)) = 0 → s.acq.cnt < s.rd (R.SQ_CFG_CNT_N (s.rd R.ACQ_STATUS_SEQ_ST)) →
    s.rd (R.SQ_TIM_TMO (s.rd R.ACQ_STATUS_SEQ_ST)) = 0 → 16 ≤ s.rd R.ACQ_LAYOUT_ROW_B → False) :=
  fun h => h (rowsHeld (capture 1) 5 1) (by decide +kernel) (by decide +kernel) (by decide +kernel) (by decide +kernel) (by decide +kernel) (by decide +kernel) (by decide +kernel) (by decide +kernel) (by decide +kernel) (by decide +kernel) (by decide +kernel) (by decide +kernel)

theorem wit_captureArmsFiresAndCloses_12 :
    ¬ (∀ s : State, s.inputsRun = true → s.st ≠ St.locked → s.aqs = Aq.fill → s.rd R.ACQ_PRE_PRE ≤ s.acq.fill → s.acq.armAt = none → s.acq.reqs = [] →
    s.acq.force = false → s.acq.rec' = none → s.rd (R.SQ_CFG_COND (s.rd R.ACQ_STATUS_SEQ_ST)) = 0 → s.acq.cnt < s.rd (R.SQ_CFG_CNT_N (s.rd R.ACQ_STATUS_SEQ_ST)) → False) :=
  fun h => h (rowsHeld (capture 1) 5 2) (by decide +kernel) (by decide +kernel) (by decide +kernel) (by decide +kernel) (by decide +kernel) (by decide +kernel) (by decide +kernel) (by decide +kernel) (by decide +kernel) (by decide +kernel)

theorem wit_captureArmsFiresAndCloses_13 :
    ¬ (∀ s : State, s.inputsRun = true → s.st ≠ St.locked → s.on R.ACD_CFG_EN = false → s.aqs = Aq.ready → s.acq.armAt = none → s.acq.reqs = [] → s.acq.force = true →
    s.acq.marks.length < 16 → s.rd R.ACQ_PRE_PRE ≤ s.acq.fill → s.acq.fill ≤ s.acq.total → s.rd R.ACQ_PRE_PRE < s.rd R.ACQ_RINGROWS_N_RING → 1 ≤ s.rd R.ACQ_POST_POST →
    s.rd (R.SQ_CFG_COND (s.rd R.ACQ_STATUS_SEQ_ST)) = 0 → s.acq.cnt < s.rd (R.SQ_CFG_CNT_N (s.rd R.ACQ_STATUS_SEQ_ST)) → False) :=
  fun h => h ({ rowsHeld (capture 2) 5 5 with acq := { (rowsHeld (capture 2) 5 5).acq with force := true } }) (by decide +kernel) (by decide +kernel) (by decide +kernel) (by decide +kernel) (by decide +kernel) (by decide +kernel) (by decide +kernel) (by decide +kernel) (by decide +kernel) (by decide +kernel) (by decide +kernel) (by decide +kernel) (by decide +kernel) (by decide +kernel)

theorem wit_captureArmsFiresAndCloses_14 :
    ¬ (∀ s : State, s.inputsRun = true → s.st ≠ St.locked → s.on R.ACD_CFG_EN = false → s.aqs = Aq.fill → s.acq.fill < s.rd R.ACQ_PRE_PRE → s.acq.armAt = none →
    s.acq.reqs = [] → s.acq.force = true → s.acq.rec' = none → s.acq.marks.length < 16 → s.rd (R.SQ_CFG_COND (s.rd R.ACQ_STATUS_SEQ_ST)) = 0 →
    s.acq.cnt < s.rd (R.SQ_CFG_CNT_N (s.rd R.ACQ_STATUS_SEQ_ST)) → False) :=
  fun h => h ({ rowsHeld (capture 1) 5 1 with acq := { (rowsHeld (capture 1) 5 1).acq with force := true } }) (by decide +kernel) (by decide +kernel) (by decide +kernel) (by decide +kernel) (by decide +kernel) (by decide +kernel) (by decide +kernel) (by decide +kernel) (by decide +kernel) (by decide +kernel) (by decide +kernel) (by decide +kernel)

theorem wit_captureArmsFiresAndCloses_15 :
    ¬ (∀ s : State, s.acqRuns = true → s.on R.ACD_CFG_EN = false → s.rd (R.SQ_CFG_CNT_N (s.rd R.ACQ_STATUS_SEQ_ST)) ≤ s.acq.cnt →
    s.on (R.SQ_CFG_FIRE (s.rd R.ACQ_STATUS_SEQ_ST)) = true → False) :=
  fun h => h ({ (capture 2).put (R.SQ_CFG_FIRE 0) true with acq := { (capture 2).acq with cnt := 1 } }) (by decide +kernel) (by decide +kernel) (by decide +kernel) (by decide +kernel)

theorem wit_captureArmsFiresAndCloses_16 :
    ¬ (∀ s : State, s.acqRuns = true → s.rd (R.SQ_CFG_CNT_N (s.rd R.ACQ_STATUS_SEQ_ST)) ≤ s.acq.cnt → s.on (R.SQ_CFG_FIRE (s.rd R.ACQ_STATUS_SEQ_ST)) = false → False) :=
  fun h => h ({ capture 2 with acq := { (capture 2).acq with cnt := 1 } }) (by decide +kernel) (by decide +kernel) (by decide +kernel)

theorem wit_captureArmsFiresAndCloses_17 :
    ¬ (∀ s : State, s.acqRuns = true → s.acq.cnt < s.rd (R.SQ_CFG_CNT_N (s.rd R.ACQ_STATUS_SEQ_ST)) → s.rd (R.SQ_TIM_TMO (s.rd R.ACQ_STATUS_SEQ_ST)) ≠ 0 →
    s.rd (R.SQ_TIM_TMO (s.rd R.ACQ_STATUS_SEQ_ST)) ≤ s.acq.tmr → False) :=
  fun h => h ({ (capture 2).wr (R.SQ_TIM_TMO 0) 3 with acq := { (capture 2).acq with tmr := 3 } }) (by decide +kernel) (by decide +kernel) (by decide +kernel) (by decide +kernel)

theorem wit_captureArmsFiresAndCloses_18 :
    ¬ (∀ (s : State) (r : RecA), s.aqs = Aq.close → s.acq.rec' = some r → s.acq.disarm = false → s.on R.ACQ_STATUS_MODE = false → r.slot < 255 → False) :=
  fun h => h (recording 4) (aRecord) (by decide +kernel) (by decide +kernel) (by decide +kernel) (by decide +kernel) (by decide +kernel)

theorem wit_accordCaptureAndCellTrigger_1 :
    ¬ (∀ (s : State) (k : Fin 4) (f : List Byte) (l : Nat), s.takesAccord k 9 l f = true → Acf.arg f = 1 → s.armCode true = 0 → False) :=
  fun h => h (capturing (memberIn 4) 0 0 0) (0) (anAcf 9 0 1 (acqBytes 9 0)) (0) (by decide +kernel) (by decide +kernel) (by decide +kernel)

theorem wit_accordCaptureAndCellTrigger_2 :
    ¬ (∀ (s : State) (k : Fin 4) (f : List Byte) (l : Nat), s.takesAccord k 9 l f = true → Acf.arg f = 2 → s.upLevel = none → s.acqRuns = true → False) :=
  fun h => h (capturing (leadIn 4) 2 7 7) (0) (anAcf 9 1 2 (acqBytes 3 8)) (0) (by decide +kernel) (by decide +kernel) (by decide +kernel) (by decide +kernel)

theorem wit_accordCaptureAndCellTrigger_3 :
    ¬ (∀ (s : State) (k : Fin 4) (f : List Byte) (l : Nat), s.takesAccord k 9 l f = true → Acf.arg f = 3 → (s.aqs = Aq.fill ∨ s.aqs = Aq.ready) →
    leAt (Acf.body f) 0 8 ≤ s.sys.period → s.sys.period - leAt (Acf.body f) 0 8 + s.rd R.ACQ_PRE_PRE ≤ s.acq.fill → s.acq.fill ≤ s.acq.total → s.acq.total - (s.sys.period - leAt (Acf.body f) 0 8) + s.rd R.ACQ_POST_POST ≥ s.acq.total →
    s.sys.period - leAt (Acf.body f) 0 8 + s.rd R.ACQ_PRE_PRE < s.rd R.ACQ_RINGROWS_N_RING → s.sys.period - leAt (Acf.body f) 0 8 < s.acq.total → False) :=
  fun h => h ({ capturing (memberIn 4) 1 7 3 with sys := { (capturing (memberIn 4) 1 7 3).sys with period := 6 } }) (0) (anAcf 9 0 3 (acqBytes 5 8)) (0) (by decide +kernel) (by decide +kernel) (by decide +kernel) (by decide +kernel) (by decide +kernel) (by decide +kernel) (by decide +kernel) (by decide +kernel) (by decide +kernel)

theorem wit_accordCaptureAndCellTrigger_4 :
    ¬ (∀ (s : State) (k : Fin 4) (f : List Byte) (l : Nat), s.takesAccord k 9 l f = true → Acf.arg f = 3 → (s.aqs = Aq.fill ∨ s.aqs = Aq.ready) →
    s.acq.fill < s.rd R.ACQ_PRE_PRE → False) :=
  fun h => h ({ capturing (memberIn 4) 1 7 1 with sys := { (capturing (memberIn 4) 1 7 1).sys with period := 6 } }) (0) (anAcf 9 0 3 (acqBytes 5 8)) (0) (by decide +kernel) (by decide +kernel) (by decide +kernel) (by decide +kernel)

theorem wit_accordCaptureAndCellTrigger_5 :
    ¬ (∀ (s : State) (k : Fin 4) (f : List Byte) (l : Nat), s.takesAccord k 9 l f = true → Acf.arg f = 4 → s.aqs = Aq.close → s.acq.closed = false → False) :=
  fun h => h (capturing (leadIn 4) 4 7 0) (0) (anAcf 9 1 4 (acqBytes 3 0)) (0) (by decide +kernel) (by decide +kernel) (by decide +kernel) (by decide +kernel)

theorem wit_accordCaptureAndCellTrigger_6 :
    ¬ (∀ (s : State) (k : Fin 4) (f : List Byte) (l : Nat), s.takesAccord k 9 l f = true → Acf.arg f = 5 → s.aqs ≠ Aq.close → False) :=
  fun h => h (capturing (memberIn 4) 1 7 3) (0) (anAcf 9 0 5 (acqBytes 3 0)) (0) (by decide +kernel) (by decide +kernel) (by decide +kernel)

theorem wit_accordCaptureAndCellTrigger_7 :
    ¬ (∀ (s : State) (id : BitVec 64), (s.cell id.toNat).hon K.CTRG_CFG_EN = true → (s.cell id.toNat).on K.CTRG_ST_HOLD = false →
    (s.cell id.toNat).sl.fire = none → False) :=
  fun h => h ({ (inState 4).setCell 0x310000 (triggering 3) with now := 9 }) (0x310000) (by decide +kernel) (by decide +kernel) (by decide +kernel)

theorem wit_accordCaptureAndCellTrigger_8 :
    ¬ (∀ (s : State) (id : BitVec 64), (s.cell id.toNat).hon K.CTRG_CFG_EN = true → (s.cell id.toNat).on K.CTRG_ST_HOLD = true → False) :=
  fun h => h ((inState 4).setCell 0x310000 ((triggering 3).put K.CTRG_ST_HOLD true)) (0x310000) (by decide +kernel) (by decide +kernel)

theorem wit_accordCaptureAndCellTrigger_9 :
    ¬ (∀ (s : State) (id : BitVec 64), (s.cell id.toNat).sl.holdoff = 0 → False) :=
  fun h => h ((inState 4).setCell 0x310000 ((triggering 3).put K.CTRG_ST_HOLD true)) (0x310000) (by decide +kernel)

theorem wit_schedulerPushesAndTakes_1 :
    ¬ (∀ (s : State) (m : Fin 19) (q : Fin 64) (nb : Bool), s.st ≠ St.reset → s.st ≠ St.selfTest → s.rd R.SCH_LS_STOPPED = 63 → s.sch.stalls = [] → s.sch.waiting = [] →
    (s.queue q).length < s.rd (R.Q_CFG_DEPTH q) → s.bit (R.Q_OWN_OWN q) (s.pushPart m) = true → False) :=
  fun h => h (still) (3) (5) (false) (by decide +kernel) (by decide +kernel) (by decide +kernel) (by decide +kernel) (by decide +kernel) (by decide +kernel) (by decide +kernel)

theorem wit_schedulerPushesAndTakes_2 :
    ¬ (∀ (s : State) (m : Fin 19) (q : Fin 64) (nb : Bool), s.st ≠ St.reset → s.st ≠ St.selfTest → s.sch.queues = [] → s.sch.slots = [] → s.sch.stalls = [] → s.sch.waiting = [] →
    s.stopped 0 = false → s.serves 0 q = true → 1 ≤ s.rd (R.H_CFG_PREF_N 0) → 1 ≤ s.rd (R.Q_CFG_DEPTH q) → s.bit (R.Q_OWN_OWN q) (s.pushPart m) = true → False) :=
  fun h => h ({ (inState 4).wr (R.Q_CFG_DEPTH 5) 2 with sch := Sch.reset }) (3) (5) (false) (by decide +kernel) (by decide +kernel) (by decide +kernel) (by decide +kernel) (by decide +kernel) (by decide +kernel) (by decide +kernel) (by decide +kernel) (by decide +kernel) (by decide +kernel) (by decide +kernel)

theorem wit_schedulerPushesAndTakes_3 :
    ¬ (∀ (s : State) (m : Fin 19) (q : Fin 64), s.st ≠ St.reset → s.st ≠ St.selfTest → s.rd R.SCH_LS_STOPPED = 63 → s.sch.stalls = [] → s.sch.waiting = [] →
    1 ≤ s.rd (R.Q_CFG_DEPTH q) → s.rd (R.Q_CFG_DEPTH q) ≤ (s.queue q).length → s.bit (R.Q_OWN_OWN q) (s.pushPart m) = true → False) :=
  fun h => h (fullQueue) (3) (5) (by decide +kernel) (by decide +kernel) (by decide +kernel) (by decide +kernel) (by decide +kernel) (by decide +kernel) (by decide +kernel) (by decide +kernel)

theorem wit_schedulerPushesAndTakes_4 :
    ¬ (∀ (s : State) (m : Fin 19) (q : Fin 64), s.st ≠ St.reset → s.st ≠ St.selfTest → s.rd R.SCH_LS_STOPPED = 63 → s.sch.stalls = [] → s.sch.waiting = [] →
    1 ≤ s.rd (R.Q_CFG_DEPTH q) → s.rd (R.Q_CFG_DEPTH q) ≤ (s.queue q).length → s.bit (R.Q_OWN_OWN q) (s.pushPart m) = true → False) :=
  fun h => h (fullQueue) (3) (5) (by decide +kernel) (by decide +kernel) (by decide +kernel) (by decide +kernel) (by decide +kernel) (by decide +kernel) (by decide +kernel) (by decide +kernel)

theorem wit_schedulerPushesAndTakes_5 :
    ¬ (∀ (s : State) (m : Fin 19) (q : Fin 64) (nb : Bool), s.st ≠ St.reset → s.st ≠ St.selfTest → s.rd R.SCH_LS_STOPPED = 63 → s.sch.stalls = [] → s.sch.waiting = [] →
    s.rd (R.Q_CFG_DEPTH q) = 0 → False) :=
  fun h => h (still) (3) (6) (false) (by decide +kernel) (by decide +kernel) (by decide +kernel) (by decide +kernel) (by decide +kernel) (by decide +kernel)

theorem wit_schedulerPushesAndTakes_6 :
    ¬ (∀ (s : State) (m : Fin 19) (q : Fin 64) (nb : Bool), s.st ≠ St.reset → s.st ≠ St.selfTest → s.rd R.SCH_LS_STOPPED = 63 → s.sch.stalls = [] → s.sch.waiting = [] →
    1 ≤ s.rd (R.Q_CFG_DEPTH q) → s.bit (R.Q_OWN_OWN q) (s.pushPart m) = false → 1 ≤ s.rd (R.FLT_SRC_CFG_BASE 28) → s.rd (R.FLT_SRC_CFG_BASE 28) ≤ 2 →
    s.rd (R.FLT_SRC_CFG_ESC_N 28) = 0 → False) :=
  fun h => h ((still.wr (R.Q_OWN_OWN 5) 2).wr (R.FLT_SRC_CFG_ESC_N 28) 0) (3) (5) (false) (by decide +kernel) (by decide +kernel) (by decide +kernel) (by decide +kernel) (by decide +kernel) (by decide +kernel) (by decide +kernel) (by decide +kernel) (by decide +kernel) (by decide +kernel)

theorem wit_schedulerPushesAndTakes_7 :
    ¬ (∀ (s : State) (m : Fin 19) (q : Nat) (words : List Nat), s.rd R.SCH_LS_STOPPED = 63 → s.sch.stalls = [⟨m.val, q, words⟩] → s.sch.waiting = [] → q < 64 →
    (s.queue q).length < s.rd (R.Q_CFG_DEPTH q) → False) :=
  fun h => h (stalled (queuedItems still [anItem 1])) (3) (5) ([9, 0, 0, 0, 0, 0, 0, 0]) (by decide +kernel) (by decide +kernel) (by decide +kernel) (by decide +kernel) (by decide +kernel)

theorem wit_schedulerPushesAndTakes_8 :
    ¬ (∀ (s : State) (m : Fin 19) (q : Nat) (words : List Nat), s.rd R.SCH_LS_STOPPED = 63 → s.sch.stalls = [⟨m.val, q, words⟩] → s.sch.waiting = [] → q < 64 →
    1 ≤ s.rd (R.FLT_SRC_CFG_BASE 29) → s.rd (R.FLT_SRC_CFG_BASE 29) ≤ 2 → s.rd (R.FLT_SRC_CFG_ESC_N 29) = 0 → False) :=
  fun h => h (stalled (fullQueue.wr (R.FLT_SRC_CFG_ESC_N 29) 0)) (3) (5) ([9, 0, 0, 0, 0, 0, 0, 0]) (by decide +kernel) (by decide +kernel) (by decide +kernel) (by decide +kernel) (by decide +kernel) (by decide +kernel) (by decide +kernel)

theorem wit_schedulerPushesAndTakes_9 :
    ¬ (∀ (s : State) (q : Fin 64), s.st ≠ St.reset → s.st ≠ St.selfTest → s.rd R.SCH_LS_STOPPED = 63 → s.sch.stalls = [] → s.sch.waiting = [] →
    s.on (R.Q_CFG_TICK q) = true → (s.queue q).length < s.rd (R.Q_CFG_DEPTH q) → False) :=
  fun h => h (still.put (R.Q_CFG_TICK 5) true) (5) (by decide +kernel) (by decide +kernel) (by decide +kernel) (by decide +kernel) (by decide +kernel) (by decide +kernel) (by decide +kernel)

theorem wit_schedulerPushesAndTakes_10 :
    ¬ (∀ (s : State) (q : Fin 64), s.st ≠ St.reset → s.st ≠ St.selfTest → s.rd R.SCH_LS_STOPPED = 63 → s.sch.stalls = [] → s.sch.waiting = [] →
    s.on (R.Q_CFG_TICK q) = true → 1 ≤ s.rd (R.Q_CFG_DEPTH q) → s.rd (R.Q_CFG_DEPTH q) ≤ (s.queue q).length → 1 ≤ s.rd (R.FLT_SRC_CFG_BASE 29) →
    s.rd (R.FLT_SRC_CFG_BASE 29) ≤ 2 → s.rd (R.FLT_SRC_CFG_ESC_N 29) = 0 → False) :=
  fun h => h ((fullQueue.put (R.Q_CFG_TICK 5) true).wr (R.FLT_SRC_CFG_ESC_N 29) 0) (5) (by decide +kernel) (by decide +kernel) (by decide +kernel) (by decide +kernel) (by decide +kernel) (by decide +kernel) (by decide +kernel) (by decide +kernel) (by decide +kernel) (by decide +kernel) (by decide +kernel)

theorem wit_schedulerPushesAndTakes_11 :
    ¬ (∀ (s : State) (h : Fin 6) (x : SlotI) (rest : List SlotI), s.st ≠ St.reset → s.st ≠ St.selfTest → s.stopped h = false → s.sch.queues = [] → s.sch.stalls = [] →
    s.sch.waiting = [] → s.slots h = x :: rest → s.on R.TRC_CFG_EN = false → False) :=
  fun h => h (slotFilled) (2) (⟨1, 5, anItem 7⟩) ([]) (by decide +kernel) (by decide +kernel) (by decide +kernel) (by decide +kernel) (by decide +kernel) (by decide +kernel) (by decide +kernel) (by decide +kernel)

theorem wit_schedulerPushesAndTakes_12 :
    ¬ (∀ (s : State) (h : Fin 6), s.st ≠ St.reset → s.st ≠ St.selfTest → s.stopped h = false → s.slots h = [] → False) :=
  fun h => h (slotFilled) (3) (by decide +kernel) (by decide +kernel) (by decide +kernel) (by decide +kernel)

theorem wit_schedulerPushesAndTakes_13 :
    ¬ (∀ (s : State) (h : Fin 6), s.st ≠ St.reset → s.st ≠ St.selfTest → s.stopped h = false → s.sch.waiting = [] → s.slots h = [] → False) :=
  fun h => h (slotFilled) (3) (by decide +kernel) (by decide +kernel) (by decide +kernel) (by decide +kernel) (by decide +kernel)

theorem wit_schedulerPushesAndTakes_14 :
    ¬ (∀ (s : State) (h : Fin 6) (x : SlotI) (rest : List SlotI), s.st ≠ St.reset → s.st ≠ St.selfTest → s.stopped h = false → s.sch.waiting = [] → s.slots h = x :: rest → False) :=
  fun h => h (slotFilled) (2) (⟨1, 5, anItem 7⟩) ([]) (by decide +kernel) (by decide +kernel) (by decide +kernel) (by decide +kernel) (by decide +kernel)

theorem wit_schedulerPushesAndTakes_15 :
    ¬ (∀ (s : State) (h : Fin 6) (x : SlotI) (rest : List SlotI), s.stopped h = false → s.sch.queues = [] → s.sch.stalls = [] → s.sch.waiting = [h.val] →
    s.slots h = x :: rest → False) :=
  fun h => h (getting slotFilled) (2) (⟨1, 5, anItem 7⟩) ([]) (by decide +kernel) (by decide +kernel) (by decide +kernel) (by decide +kernel) (by decide +kernel)

theorem wit_schedulerPushesAndTakes_16 :
    ¬ (∀ (s : State) (h : Fin 6), h.val ∈ s.sch.waiting → False) :=
  fun h => h (getting (inState 4)) (2) (by decide +kernel)

theorem wit_schedulerPushesAndTakes_17 :
    ¬ (∀ (s : State) (h : Fin 6) (part : Fin 9), s.st ≠ St.reset → s.st ≠ St.selfTest → s.sch.queues = [] → s.sch.stalls = [] → s.sch.waiting = [] →
    s.rd (R.H_CFG_PART h) ≠ part.val → (∀ x ∈ s.slots h, s.bit (R.Q_OWN_OWN x.queue) part.val = false) → (∀ g, g < 6 → s.stopped g = decide (g ≠ h.val)) →
    (∀ q, q < 64 → s.bit (R.Q_OWN_OWN q) part.val = false) → (s.slots h).length ≤ 2 → s.on R.TRC_CFG_EN = false → False) :=
  fun h => h (slotFilled.wr R.SCH_LS_STOPPED 59) (2) (3) (by decide +kernel) (by decide +kernel) (by decide +kernel) (by decide +kernel) (by decide +kernel) (by decide +kernel) (by decide +kernel) (by decide +kernel) (by decide +kernel) (by decide +kernel) (by decide +kernel)

theorem wit_schedulerPushesAndTakes_18 :
    ¬ (∀ (s : State) (q : Fin 64) (depth : BitVec 11), s.writable = true → s.rd R.SCH_LS_STOPPED = 63 → s.sch.stalls = [] → s.sch.waiting = [] →
    depth.toNat ≤ 1024 → depth.toNat ≠ s.rd (R.Q_CFG_DEPTH q) → s.allotted - s.rd (R.Q_CFG_DEPTH q) + depth.toNat ≤ 4096 → False) :=
  fun h => h ((queuedItems still [anItem 1]).wr R.DEV_STATE_STATE 3) (5) (9) (by decide +kernel) (by decide +kernel) (by decide +kernel) (by decide +kernel) (by decide +kernel) (by decide +kernel) (by decide +kernel)

theorem wit_schedulerPushesAndTakes_19 :
    ¬ (∀ (s : State) (q : Fin 64) (depth : BitVec 11), s.writable = true → depth.toNat ≤ 1024 → depth.toNat ≠ s.rd (R.Q_CFG_DEPTH q) →
    4096 < s.allotted - s.rd (R.Q_CFG_DEPTH q) + depth.toNat → False) :=
  fun h => h (((((still.wr (R.Q_CFG_DEPTH 9) 1024).wr (R.Q_CFG_DEPTH 10) 1024).wr (R.Q_CFG_DEPTH 11) 1024).wr (R.Q_CFG_DEPTH 12) 1024).wr R.DEV_STATE_STATE 3) (5) (200) (by decide +kernel) (by decide +kernel) (by decide +kernel) (by decide +kernel)

theorem wit_pairsPartitionsAndCounters_1 :
    ¬ (∀ (s : State) (h : Fin 6), s.stopped h = false → 1 ≤ s.rd (R.FLT_SRC_CFG_BASE h) → False) :=
  fun h => h ({ (inState 4) with sch := { Sch.reset with slots := [(2, [⟨0, 5, anItem 1⟩])] } }) (2) (by decide +kernel) (by decide +kernel)

theorem wit_pairsPartitionsAndCounters_2 :
    ¬ (∀ (s : State) (mask missed : BitVec 6), s.st ≠ St.reset → s.st ≠ St.selfTest → s.rd R.SCH_LS_STOPPED = 0 → s.sch.injAt = [] → missed.toNat = 0 → False) :=
  fun h => h (inState 4) (0x2A) (0) (by decide +kernel) (by decide +kernel) (by decide +kernel) (by decide +kernel) (by decide +kernel)

theorem wit_pairsPartitionsAndCounters_3 :
    ¬ (∀ (s : State) (mask missed : BitVec 6), s.st ≠ St.reset → s.st ≠ St.selfTest → s.rd R.SCH_LS_STOPPED = 0 → s.sch.injAt = [] → mask.toNat = 4 → missed.toNat = 4 →
    1 ≤ s.rd (R.FLT_SRC_CFG_BASE 2) → s.rd (R.FLT_SRC_CFG_BASE 2) ≤ 2 → s.rd (R.FLT_SRC_CFG_ESC_N 2) = 0 → False) :=
  fun h => h ((inState 4).wr (R.FLT_SRC_CFG_BASE 2) 2) (4) (4) (by decide +kernel) (by decide +kernel) (by decide +kernel) (by decide +kernel) (by decide +kernel) (by decide +kernel) (by decide +kernel) (by decide +kernel) (by decide +kernel)

theorem wit_pairsPartitionsAndCounters_4 :
    ¬ (∀ (s : State) (mask missed : BitVec 6) (key : BitVec 16), key ≠ 0x5A5A → False) :=
  fun h => h (inState 4) (4) (0) (1) (by decide +kernel)

theorem wit_pairsPartitionsAndCounters_5 :
    ¬ (∀ (s : State) (h : Fin 6), s.stopped h = false → s.rd (R.H_CFG_PART h) ≠ 0 → 1 ≤ s.rd (R.FLT_SRC_CFG_BASE 28) → s.rd (R.FLT_SRC_CFG_BASE 28) ≤ 2 →
    s.rd (R.FLT_SRC_CFG_ESC_N 28) = 0 → False) :=
  fun h => h ((((inState 4).wr (R.H_CFG_PART 2) 3).wr (R.FLT_SRC_CFG_ESC_N 28) 0)) (2) (by decide +kernel) (by decide +kernel) (by decide +kernel) (by decide +kernel) (by decide +kernel)

theorem wit_pairsPartitionsAndCounters_6 :
    ¬ (∀ (s : State) (h : Fin 6) (p : Nat), s.stopped h = false → s.rd (R.H_CFG_PART h) = p → p ≠ 0 → s.rd (R.P_BUDGET_BUDGET p) ≠ 0 →
    1 ≤ s.rd (R.FLT_SRC_CFG_BASE 28) → s.rd (R.FLT_SRC_CFG_BASE 28) ≤ 2 → s.rd (R.FLT_SRC_CFG_ESC_N 28) = 0 → False) :=
  fun h => h (((((inState 4).wr (R.H_CFG_PART 2) 3).wr (R.FLT_SRC_CFG_ESC_N 28) 0).wr (R.P_BUDGET_BUDGET 3) 100)) (2) (3) (by decide +kernel) (by decide +kernel) (by decide +kernel) (by decide +kernel) (by decide +kernel) (by decide +kernel) (by decide +kernel)

theorem wit_pairsPartitionsAndCounters_7 :
    ¬ (∀ (s : State) (h : Fin 6) (busy cycles : BitVec 48), busy.toNat < cycles.toNat → False) :=
  fun h => h (inState 4) (2) (3) (4) (by decide +kernel)

theorem wit_pairsPartitionsAndCounters_8 :
    ¬ (∀ s : State, s.st ≠ St.reset → s.st ≠ St.selfTest → False) :=
  fun h => h (((inState 4).wr (R.Q_CNT_DROP 5) 3).wr (R.H_HIST_COUNT 2 7) 4) (by decide +kernel) (by decide +kernel)

theorem wit_pairsPartitionsAndCounters_9 :
    ¬ (∀ (s : State) (h : Fin 6) (n : Fin 12), s.on R.PMC_CTRL_FREEZE = false → False) :=
  fun h => h ((inState 4).putBit (R.PMC_WRAP_WRAP_IE 2) 3 true) (2) (3) (by decide +kernel)

theorem wit_pairsPartitionsAndCounters_10 :
    ¬ (∀ (s : State) (m : Fin 19) (h : Fin 6) (n : Fin 12) (lo hi : BitVec 32), s.st ≠ St.reset → s.st ≠ St.selfTest → False) :=
  fun h => h (inState 4) (3) (2) (1) (0x1234) (0xFF0005) (by decide +kernel) (by decide +kernel)

theorem wit_pairsPartitionsAndCounters_11 :
    ¬ (∀ (s : State) (freeze : Bool), s.st ≠ St.reset → s.st ≠ St.selfTest → False) :=
  fun h => h (inState 4) (true) (by decide +kernel) (by decide +kernel)

theorem wit_pairsPartitionsAndCounters_12 :
    ¬ (∀ (s : State) (advance : List (BitVec 48)), s.st ≠ St.reset → s.st ≠ St.selfTest → s.on R.PMC_CTRL_FREEZE = true → s.on R.PMC_SNAP_ST_BUSY = false → False) :=
  fun h => h (((inState 4).put R.PMC_CTRL_FREEZE true).wr (R.PMC_CNT_HI_HI 2 3) 7) ([]) (by decide +kernel) (by decide +kernel) (by decide +kernel) (by decide +kernel)

theorem wit_pairsPartitionsAndCounters_13 :
    ¬ (∀ (s : State) (advance : List (BitVec 48)), s.st ≠ St.reset → s.st ≠ St.selfTest → s.on R.PMC_SNAP_ST_BUSY = true → False) :=
  fun h => h ((inState 4).put R.PMC_SNAP_ST_BUSY true) ([]) (by decide +kernel) (by decide +kernel) (by decide +kernel)

theorem wit_pairsPartitionsAndCounters_14 :
    ¬ (∀ (s : State) (advance : List (BitVec 48)), s.rd R.PMC_CTRL_SNAP_MODE = 2 → s.on R.PMC_SNAP_ST_BUSY = false → False) :=
  fun h => h ((inState 4).wr R.PMC_CTRL_SNAP_MODE 2) ([]) (by decide +kernel) (by decide +kernel)

theorem wit_pairsPartitionsAndCounters_15 :
    ¬ (∀ s : State, s.on R.PMC_SNAP_ST_BUSY = true → False) :=
  fun h => h ({ (inState 4).put R.PMC_SNAP_ST_BUSY true with sch := { Sch.reset with snapAt := 3000000007 } }) (by decide +kernel)

theorem wit_memoryErrorsPowerAndTests_1 :
    ¬ (∀ (s : State) (access : Fin 6) (m : Fin 19) (addr : BitVec 32), 1 ≤ s.rd (R.FLT_SRC_CFG_BASE 14) → s.rd (R.FLT_SRC_CFG_BASE 14) ≤ 2 → s.rd (R.FLT_SRC_CFG_ESC_N 14) = 0 → False) :=
  fun h => h ((inState 3).wr (R.FLT_SRC_CFG_ESC_N 14) 0) (1) (3) (0x11000000) (by decide +kernel) (by decide +kernel) (by decide +kernel)

theorem wit_memoryErrorsPowerAndTests_2 :
    ¬ (∀ (s : State) (access : Fin 6) (m : Fin 19) (addr : BitVec 32), 1 ≤ s.rd (R.FLT_SRC_CFG_BASE 15) → s.rd (R.FLT_SRC_CFG_BASE 15) ≤ 2 → s.rd (R.FLT_SRC_CFG_ESC_N 15) = 0 →
    access.val ≠ 4 → False) :=
  fun h => h ((inState 3).wr (R.FLT_SRC_CFG_BASE 15) 2) (1) (3) (0x11000000) (by decide +kernel) (by decide +kernel) (by decide +kernel) (by decide +kernel)

theorem wit_memoryErrorsPowerAndTests_3 :
    ¬ (∀ (s : State) (m : Fin 19) (addr : BitVec 32), 1 ≤ s.rd (R.FLT_SRC_CFG_BASE 22) → s.rd (R.FLT_SRC_CFG_BASE 22) ≤ 2 → s.rd (R.FLT_SRC_CFG_ESC_N 22) = 0 → False) :=
  fun h => h ((inState 3).wr (R.FLT_SRC_CFG_ESC_N 22) 0) (3) (0x10000100) (by decide +kernel) (by decide +kernel) (by decide +kernel)

theorem wit_memoryErrorsPowerAndTests_4 :
    ¬ (∀ (s : State) (v : BitVec 32) (w : Fin 4), s.st ≠ St.reset → s.st ≠ St.selfTest → w.val = 1 → s.repRegion = none → s.traceRegion = none → s.acqRuns = false →
    (∀ j, j < 8 → bitsOf v.toNat (2 * j) 2 ≠ 3) → False) :=
  fun h => h (inState 3) (0x1000000) (1) (by decide +kernel) (by decide +kernel) (by decide +kernel) (by decide +kernel) (by decide +kernel) (by decide +kernel) (by decide +kernel)

theorem wit_memoryErrorsPowerAndTests_5 :
    ¬ (∀ (s : State) (v : BitVec 32) (w : Fin 4), s.st ≠ St.reset → s.st ≠ St.selfTest → w.val = 0 → s.bankState 0 = 0 → bitsOf v.toNat 0 2 ≠ 0 →
    (∀ j, j < 8 → bitsOf v.toNat (2 * j) 2 ≠ 3) → False) :=
  fun h => h (inState 3) (1) (0) (by decide +kernel) (by decide +kernel) (by decide +kernel) (by decide +kernel) (by decide +kernel) (by decide +kernel)

theorem wit_memoryErrorsPowerAndTests_6 :
    ¬ (∀ (s : State) (b : Fin 32), s.bankState b = 0 → s.rd (R.MEM_PWR_REQ (b.val / 8) (b.val % 8)) = 1 → False) :=
  fun h => h ((inState 3).wr (R.MEM_PWR_REQ 1 0) 1) (8) (by decide +kernel) (by decide +kernel)

theorem wit_memoryErrorsPowerAndTests_7 :
    ¬ (∀ (s : State) (b : Fin 32) (a : Nat), s.bankState b ≠ 2 → s.rd (R.MEM_PWR_REQ (b.val / 8) (b.val % 8)) = 2 → 0x10000000 ≤ a → a < 0x18000000 → bankOf a = b.val → False) :=
  fun h => h ({ (inState 3).wr (R.MEM_PWR_REQ 1 0) 2 with mem := { Mem.reset with bytes := [(0x12000000, 1#8)] } }) (8) (0x12000000) (by decide +kernel) (by decide +kernel) (by decide +kernel) (by decide +kernel) (by decide +kernel)

theorem wit_memoryErrorsPowerAndTests_8 :
    ¬ (∀ s : State, s.st ≠ St.reset → s.st ≠ St.selfTest → s.on R.BGT_CFG_EN = true → s.mem.testing = false → s.inService = false → s.rd R.MEM_STATUS_AVAIL = 255 → False) :=
  fun h => h ({ inState 3 with mem := Mem.reset }) (by decide +kernel) (by decide +kernel) (by decide +kernel) (by decide +kernel) (by decide +kernel) (by decide +kernel)

theorem wit_memoryErrorsPowerAndTests_9 :
    ¬ (∀ s : State, s.on R.BGT_CFG_EN = true → s.mem.testing = false → s.windowsBusy = true → False) :=
  fun h => h ({ committing (inState 5) R.LAYOUT_0_T_LE 4500 with now := 44700 }) (by decide +kernel) (by decide +kernel) (by decide +kernel)

theorem wit_memoryErrorsPowerAndTests_10 :
    ¬ (∀ s : State, s.mem.testing = true → s.mem.startWaits = false → s.rd R.BGT_STATUS_REGION < 524287 → False) :=
  fun h => h ({ (inState 3).wr (R.BGT_STATUS_REGION) 7 with mem := { Mem.reset with testing := true } }) (by decide +kernel) (by decide +kernel) (by decide +kernel)

theorem wit_memoryErrorsPowerAndTests_11 :
    ¬ (∀ (s : State) (a : BitVec 32), s.mem.testing = true → s.mem.startWaits = false → 1 ≤ s.rd (R.FLT_SRC_CFG_BASE 18) → s.rd (R.FLT_SRC_CFG_BASE 18) ≤ 2 →
    s.rd (R.FLT_SRC_CFG_ESC_N 18) = 0 → False) :=
  fun h => h ({ (inState 3).wr (R.FLT_SRC_CFG_BASE 18) 2 with mem := { Mem.reset with testing := true } }) (0x11000100) (by decide +kernel) (by decide +kernel) (by decide +kernel) (by decide +kernel) (by decide +kernel)

theorem wit_memoryErrorsPowerAndTests_12 :
    ¬ (∀ s : State, s.st ≠ St.reset → s.st ≠ St.selfTest → False) :=
  fun h => h (inState 3) (by decide +kernel) (by decide +kernel)

theorem wit_memoryErrorsPowerAndTests_13 :
    ¬ (∀ s : State, s.st ≠ St.reset → s.st ≠ St.selfTest → s.rd (R.FLT_SRC_CFG_BASE 23) = 5 → s.role = Role.solo → s.st ≠ St.locked → False) :=
  fun h => h (inState 4) (by decide +kernel) (by decide +kernel) (by decide +kernel) (by decide +kernel) (by decide +kernel)

theorem wit_memoryErrorsPowerAndTests_14 :
    ¬ (∀ s : State, s.writable = true → False) :=
  fun h => h (inState 3) (by decide +kernel)

theorem wit_memoryErrorsPowerAndTests_15 :
    ¬ (∀ s : State, s.mem.ddrInit = true → False) :=
  fun h => h ({ inState 3 with mem := { Mem.reset with ddrInit := true } }) (by decide +kernel)

theorem wit_memoryErrorsPowerAndTests_16 :
    ¬ (∀ s : State, s.mem.ddrInit = true → False) :=
  fun h => h ({ inState 3 with mem := { Mem.reset with ddrInit := true } }) (by decide +kernel)

theorem wit_memoryErrorsPowerAndTests_17 :
    ¬ (∀ (s : State) (temp : BitVec 8), s.on R.DDR_STATUS_READY = true → False) :=
  fun h => h ((inState 3).put R.DDR_STATUS_READY true) (90) (by decide +kernel)

theorem wit_memoryErrorsPowerAndTests_18 :
    ¬ (∀ s : State, 0 ≤ s.now → False) :=
  fun h => h (inState 3) (by decide +kernel)

theorem wit_memoryErrorsPowerAndTests_19 :
    ¬ (∀ (s : State) (m : Fin 19) (addr : BitVec 36), 1 ≤ s.rd (R.FLT_SRC_CFG_BASE 20) → s.rd (R.FLT_SRC_CFG_BASE 20) ≤ 2 → s.rd (R.FLT_SRC_CFG_ESC_N 20) = 0 → False) :=
  fun h => h ((inState 3).wr (R.FLT_SRC_CFG_ESC_N 20) 0) (3) (0x800000100) (by decide +kernel) (by decide +kernel) (by decide +kernel)

theorem wit_memoryErrorsPowerAndTests_20 :
    ¬ (∀ (s : State) (m : Fin 19) (addr : BitVec 36), 1 ≤ s.rd (R.FLT_SRC_CFG_BASE 21) → s.rd (R.FLT_SRC_CFG_BASE 21) ≤ 2 → s.rd (R.FLT_SRC_CFG_ESC_N 21) = 0 →
    1 ≤ m.val → m.val ≤ 6 → False) :=
  fun h => h ((inState 3).wr (R.FLT_SRC_CFG_BASE 21) 2) (3) (0x800000100) (by decide +kernel) (by decide +kernel) (by decide +kernel) (by decide +kernel) (by decide +kernel)

theorem wit_fusesAndCellMemory_1 :
    ¬ (∀ (s : State) (type : Fin 16) (v : Nat), s.writable = true → type.val ≤ 8 → mapGet (fun _ => 0) s.mem.svn type.val = v → s.rd (rollField type) < v →
    s.mem.roll = none → s.mem.revoke = none → False) :=
  fun h => h ({ inState 3 with mem := { Mem.reset with svn := [(2, 5)] } }) (2) (5) (by decide +kernel) (by decide +kernel) (by decide +kernel) (by decide +kernel) (by decide +kernel) (by decide +kernel)

theorem wit_fusesAndCellMemory_2 :
    ¬ (∀ (s : State) (type : Fin 16), s.writable = true → False) :=
  fun h => h ({ inState 3 with mem := { Mem.reset with svn := [(2, 5)] } }) (2) (by decide +kernel)

theorem wit_fusesAndCellMemory_3 :
    ¬ (∀ (s : State) (slot : Fin 4), s.writable = true → s.rd R.SEC_STATUS_KEY ≠ slot.val → s.rd R.SEC_KEYS_REVOKED = 0 → s.mem.roll = none → s.mem.revoke = none → False) :=
  fun h => h (inState 3) (1) (by decide +kernel) (by decide +kernel) (by decide +kernel) (by decide +kernel) (by decide +kernel)

theorem wit_fusesAndCellMemory_4 :
    ¬ (∀ (s : State) (slot : Fin 4), s.rd R.SEC_STATUS_KEY = slot.val → False) :=
  fun h => h (inState 3) (0) (by decide +kernel)

theorem wit_fusesAndCellMemory_5 :
    ¬ (∀ (s : State) (type : Fin 16) (slot : Fin 4) (key : BitVec 16), key ≠ 0x5A5A → False) :=
  fun h => h (inState 3) (2) (1) (0) (by decide +kernel)

theorem wit_fusesAndCellMemory_6 :
    ¬ (∀ (s : State) (type v : Nat), s.mem.roll = some (type, v) → s.mem.revoke = none → type ≤ 8 → v < 64 → False) :=
  fun h => h ({ inState 3 with mem := { Mem.reset with roll := some (2, 5) } }) (2) (5) (by decide +kernel) (by decide +kernel) (by decide +kernel) (by decide +kernel)

theorem wit_fusesAndCellMemory_7 :
    ¬ (∀ (s : State) (slot : Nat), s.mem.revoke = some slot → slot < 4 → False) :=
  fun h => h ({ inState 3 with mem := { Mem.reset with revoke := some 1 } }) (1) (by decide +kernel) (by decide +kernel)

theorem wit_fusesAndCellMemory_8 :
    ¬ (∀ (s : State) (id : BitVec 64), (s.cell id.toNat).mode = Mode.bypassed → False) :=
  fun h => h ((inState 3).setCell 0x310000 (cellIn Mode.bypassed)) (0x310000) (by decide +kernel)

theorem wit_fusesAndCellMemory_9 :
    ¬ (∀ (s : State) (id : BitVec 64), Mode.safeHold ≤ (s.cell id.toNat).mode → (s.cell id.toNat).mode ≠ Mode.bypassed → (s.cell id.toNat).on K.SMEM_BT_EN = true → False) :=
  fun h => h ((inState 3).setCell 0x310000 ((cellIn 4).wr K.SMEM_BTST_REGION 1023)) (0x310000) (by decide +kernel) (by decide +kernel) (by decide +kernel)

theorem wit_fusesAndCellMemory_10 :
    ¬ (∀ (s : State) (id : BitVec 64), Mode.safeHold ≤ (s.cell id.toNat).mode → (s.cell id.toNat).mode ≠ Mode.bypassed → (s.cell id.toNat).on K.SMEM_BT_EN = true →
    (s.cell id.toNat).rd (K.CFLT_CLASS_CLASS 1 7) = 1 → False) :=
  fun h => h ((inState 3).setCell 0x310000 (cellIn 4)) (0x310000) (by decide +kernel) (by decide +kernel) (by decide +kernel) (by decide +kernel)

theorem wit_cellHealthCounts_1 :
    ¬ (∀ (s : State) (id : BitVec 64), (s.cell id.toNat).counted = true → (s.cell id.toNat).hon K.HCFG_EN = true → (s.cell id.toNat).hrd K.TEMP_CFG_MASK ≠ 0 →
    (s.cell id.toNat).temp ≠ 0x8000 → (s.cell id.toNat).hl.ext = none → False) :=
  fun h => h ((inState 4).setCell 0x310000 warmCell) (0x310000) (by decide +kernel) (by decide +kernel) (by decide +kernel) (by decide +kernel) (by decide +kernel)

theorem wit_cellHealthCounts_2 :
    ¬ (∀ (s : State) (id : BitVec 64) (e : Int), (s.cell id.toNat).counted = true → (s.cell id.toNat).hon K.HCFG_EN = true → (s.cell id.toNat).hrd K.TEMP_CFG_MASK ≠ 0 →
    (s.cell id.toNat).temp ≠ 0x8000 → (s.cell id.toNat).hl.ext = some e → (s.cell id.toNat).hl.dir = 1 → (s.cell id.toNat).hl.stack = [] →
    16 * ((s.cell id.toNat).rd K.HCFG_TR_HYST : Int) ≤ e - toSigned 16 (s.cell id.toNat).temp → 1 ≤ (s.cell id.toNat).rd K.HCFG_TR_HYST → False) :=
  fun h => h ((inState 4).setCell 0x310000 (turning 9000 1 [])) (0x310000) (9000) (by decide +kernel) (by decide +kernel) (by decide +kernel) (by decide +kernel) (by decide +kernel) (by decide +kernel) (by decide +kernel) (by decide +kernel) (by decide +kernel)

theorem wit_cellHealthCounts_3 :
    ¬ (∀ (s : State) (id : BitVec 64) (e x y a : Int), (s.cell id.toNat).counted = true → (s.cell id.toNat).hon K.HCFG_EN = true → (s.cell id.toNat).hrd K.TEMP_CFG_MASK ≠ 0 →
    (s.cell id.toNat).temp ≠ 0x8000 → (s.cell id.toNat).hl.ext = some e → (s.cell id.toNat).hl.dir = 1 → (s.cell id.toNat).hl.stack = [x, y, a] →
    16 * ((s.cell id.toNat).rd K.HCFG_TR_HYST : Int) ≤ e - toSigned 16 (s.cell id.toNat).temp → 1 ≤ (s.cell id.toNat).rd K.HCFG_TR_HYST →
    (x - y).natAbs ≤ (a - y).natAbs → (x - y).natAbs ≤ (e - x).natAbs → 1 ≤ (s.cell id.toNat).rd K.HCFG_BIN_W → False) :=
  fun h => h ((inState 4).setCell 0x310000 (turning 9000 1 [7000, 8000, 5000])) (0x310000) (9000) (7000) (8000) (5000) (by decide +kernel) (by decide +kernel) (by decide +kernel) (by decide +kernel) (by decide +kernel) (by decide +kernel) (by decide +kernel) (by decide +kernel) (by decide +kernel) (by decide +kernel) (by decide +kernel) (by decide +kernel)

theorem wit_cellHealthCounts_4 :
    ¬ (∀ (s : State) (id : BitVec 64), (s.cell id.toNat).counted = true → (s.cell id.toNat).hon K.HCFG_EN = true → (s.cell id.toNat).temp ≠ 0x8000 →
    1 ≤ (s.cell id.toNat).rd K.HCFG2_HT_W → False) :=
  fun h => h ((inState 4).setCell 0x310000 warmCell) (0x310000) (by decide +kernel) (by decide +kernel) (by decide +kernel) (by decide +kernel)

theorem wit_cellHealthCounts_5 :
    ¬ (∀ (s : State) (id : BitVec 64), (s.cell id.toNat).counted = true → (s.cell id.toNat).temp = 0x8000 → False) :=
  fun h => h ((inState 4).setCell 0x310000 (cellIn 4)) (0x310000) (by decide +kernel) (by decide +kernel)

theorem wit_cellHealthCounts_6 :
    ¬ (∀ (s : State) (id : BitVec 64), (s.cell id.toNat).counted = true → (s.cell id.toNat).rd K.H_ALM_ALM_D > codeOf ((s.cell id.toNat).components.foldl fMax f0) →
    (s.cell id.toNat).rd K.H_DAYS_DAYS = 0xFFFF → (s.cell id.toNat).components.foldl fMax f0 < 2 ^ 32 → (s.cell id.toNat).components.getD 0 0 < 2 ^ 32 → False) :=
  fun h => h ((inState 4).setCell 0x310000 warmCell) (0x310000) (by decide +kernel) (by decide +kernel) (by decide +kernel) (by decide +kernel) (by decide +kernel)

theorem wit_cellHealthCounts_7 :
    ¬ (∀ (s : State) (id : BitVec 64), (s.cell id.toNat).counted = true → (s.cell id.toNat).rd K.H_ALM_ALM_D ≤ codeOf ((s.cell id.toNat).components.foldl fMax f0) →
    (s.cell id.toNat).rd (K.CFLT_CLASS_CLASS 3 5) = 1 → (s.cell id.toNat).components.foldl fMax f0 < 2 ^ 32 → (s.cell id.toNat).bit K.CFLT_LIVE_LIVE 29 = false → False) :=
  fun h => h ((inState 4).setCell 0x310000 ((warmCell.wr K.H_ALM_ALM_D 0).wr (K.CFLT_CLASS_CLASS 3 5) 1)) (0x310000) (by decide +kernel) (by decide +kernel) (by decide +kernel) (by decide +kernel) (by decide +kernel)

theorem wit_cellHealthCounts_8 :
    ¬ (∀ (s : State) (id : BitVec 64), (s.cell id.toNat).counted = true → fLe f1 ((s.cell id.toNat).rd K.H_D_D) = false → (s.cell id.toNat).rd K.A_HISTN_HIST_N = 0 →
    (s.cell id.toNat).hl.histAt < 32 → False) :=
  fun h => h ((inState 4).setCell 0x310000 warmCell) (0x310000) (by decide +kernel) (by decide +kernel) (by decide +kernel) (by decide +kernel)

theorem wit_cellHealthCounts_9 :
    ¬ (∀ (s : State) (id : BitVec 64), (s.cell id.toNat).counted = true → fLe f1 ((s.cell id.toNat).rd K.H_D_D) = true →
    (s.cell id.toNat).rd (K.CFLT_CLASS_CLASS 3 5) = 1 → (s.cell id.toNat).bit K.CFLT_LIVE_LIVE 29 = false → False) :=
  fun h => h ((inState 4).setCell 0x310000 ((warmCell.wr K.H_D_D 0x3F800000).wr (K.CFLT_CLASS_CLASS 3 5) 1)) (0x310000) (by decide +kernel) (by decide +kernel) (by decide +kernel) (by decide +kernel)

theorem wit_cellHealthCounts_10 :
    ¬ (∀ (s : State) (id : BitVec 64), (s.cell id.toNat).mode ≠ Mode.reset → False) :=
  fun h => h ((inState 4).setCell 0x310000 warmCell) (0x310000) (by decide +kernel)

theorem wit_cellHealthCounts_11 :
    ¬ (∀ (s : State) (id : BitVec 64) (v : BitVec 32), (s.cell id.toNat).mode ≠ Mode.reset → f32Finite v.toNat = true → fLt f0 v.toNat = true →
    fDiv f1 v.toNat < 2 ^ 32 → False) :=
  fun h => h ((inState 4).setCell 0x310000 warmCell) (0x310000) (0x3DCCCCCD) (by decide +kernel) (by decide +kernel) (by decide +kernel) (by decide +kernel)

theorem wit_cellHealthCounts_12 :
    ¬ (∀ (s : State) (id : BitVec 64) (v : BitVec 32), (s.cell id.toNat).mode ≠ Mode.reset → f32Finite v.toNat = true → fLt f0 v.toNat = true → False) :=
  fun h => h ((inState 4).setCell 0x310000 warmCell) (0x310000) (0x3DCCCCCD) (by decide +kernel) (by decide +kernel) (by decide +kernel)

theorem wit_cellHealthCounts_13 :
    ¬ (∀ (s : State) (id : BitVec 64) (v : BitVec 32), (v.toNat = 0 ∨ fLt v.toNat f0 = true ∨ f32Finite v.toNat = false) → False) :=
  fun h => h ((inState 4).setCell 0x310000 warmCell) (0x310000) (0) (by decide +kernel)

theorem wit_healthRanksImagesAndAgeing_1 :
    ¬ (∀ (s : State) (a : Fin 6), (∀ b, b < 6 → s.on (R.ARM_CFG_EN b) = decide (b = a.val)) → (∀ k ∈ s.healthOrder a, s.kcx * 2 ^ 13 + k < 2 ^ 16) → (s.armCells a).length < 2 ^ 10 → False) :=
  fun h => h (rankable) (0) (by decide +kernel) (by decide +kernel) (by decide +kernel)

theorem wit_healthRanksImagesAndAgeing_2 :
    ¬ (∀ s : State, s.on R.HLT_CFG_IMG_EN = false → False) :=
  fun h => h (inState 4) (by decide +kernel)

theorem wit_healthRanksImagesAndAgeing_3 :
    ¬ (∀ s : State, s.on R.HLT_CFG_IMG_EN = true → s.imageAvailable = false → False) :=
  fun h => h (((inState 4).put R.HLT_CFG_IMG_EN true).wr R.MEM_STATUS_AVAIL 0) (by decide +kernel) (by decide +kernel)

theorem wit_healthRanksImagesAndAgeing_4 :
    ¬ (∀ (s : State) (p : Fin 48), s.on R.HLT_CFG_IMG_EN = true → s.imageAvailable = true → s.role = Role.solo → s.okCells p = [s.extAddr p 0 0] →
    (s.port p).own = [] → (s.port p).txn = none → False) :=
  fun h => h (((inState 4).put R.HLT_CFG_IMG_EN true).wr (R.EXP_W3_VERDICT 3 0) Verdict.ok) (3) (by decide +kernel) (by decide +kernel) (by decide +kernel) (by decide +kernel) (by decide +kernel) (by decide +kernel)

theorem wit_healthRanksImagesAndAgeing_5 :
    ¬ (∀ s : State, s.on R.HLT_CHIP_ST_ALARM = false → False) :=
  fun h => h (inState 4) (by decide +kernel)

theorem wit_healthRanksImagesAndAgeing_6 :
    ¬ (∀ (s : State) (x : BitVec 32), s.rd R.AGE_H ≠ 0 → fLt f0 (fSub f1 x.toNat) = true → fLe (s.rd R.MON_DLIM_DLIM) (fSub f1 x.toNat) = true → False) :=
  fun h => h ((inState 4).wr R.AGE_H 10) (0x3F000000) (by decide +kernel) (by decide +kernel) (by decide +kernel)

theorem wit_healthRanksImagesAndAgeing_7 :
    ¬ (∀ s : State, 0 ≤ s.now → False) :=
  fun h => h (inState 4) (by decide +kernel)

theorem wit_healthRanksImagesAndAgeing_8 :
    ¬ (∀ s : State, s.st ≠ St.reset → s.st ≠ St.selfTest → False) :=
  fun h => h (inState 4) (by decide +kernel) (by decide +kernel)

theorem wit_objectAccessesAnswer_1 :
    ¬ (∀ (s : State) (c : Client) (x : Session), s.ObjectsReady c x → False) :=
  fun h => h (serving 3 [canSession]) (.can 0 5) (canSession) (by decide +kernel)

theorem wit_objectAccessesAnswer_2 :
    ¬ (∀ (s : State) (c : Client) (x : Session), s.ObjectsReady c x → x.sel 0x2000 = 0 → False) :=
  fun h => h (serving 3 [canSession]) (.can 0 5) (canSession) (by decide +kernel) (by decide +kernel)

theorem wit_objectAccessesAnswer_3 :
    ¬ (∀ (s : State) (c : Client) (x : Session) (index : BitVec 16), s.ObjectsReady c x → commIndex index.toNat = false → odIndex index.toNat = false → False) :=
  fun h => h (serving 3 [canSession]) (.can 0 5) (canSession) (0x2307) (by decide +kernel) (by decide +kernel) (by decide +kernel)

theorem wit_objectAccessesAnswer_4 :
    ¬ (∀ (s : State) (c : Client) (x : Session), s.ObjectsReady c x → x.sel 0x2000 = 0 → False) :=
  fun h => h (serving 3 [canSession]) (.can 0 5) (canSession) (by decide +kernel) (by decide +kernel)

theorem wit_objectAccessesAnswer_5 :
    ¬ (∀ (s : State) (c : Client) (x : Session) (q : Fin 64) (data : BitVec 64), s.ObjectsReady c x → s.st ≠ St.locked → s.st ≠ St.reset → s.st ≠ St.selfTest →
    x.sel 0x2A00 = 0x10000 + q.val → data.toNat < 8 → x.staged = [] → False) :=
  fun h => h (serving 4 [{ canSession with select := [(0x2A00, 0x10005)] }]) (.can 0 5) ({ canSession with select := [(0x2A00, 0x10005)] }) (5) (6) (by decide +kernel) (by decide +kernel) (by decide +kernel) (by decide +kernel) (by decide +kernel) (by decide +kernel) (by decide +kernel)

theorem wit_objectAccessesAnswer_6 :
    ¬ (∀ (s : State) (c : Client) (x : Session) (q : Fin 64) (data : BitVec 64), s.ObjectsReady c x → x.sel 0x2A00 = 0x10000 + q.val → 8 ≤ data.toNat → False) :=
  fun h => h (serving 4 [{ canSession with select := [(0x2A00, 0x10005)] }]) (.can 0 5) ({ canSession with select := [(0x2A00, 0x10005)] }) (5) (9) (by decide +kernel) (by decide +kernel) (by decide +kernel)

theorem wit_objectAccessesAnswer_7 :
    ¬ (∀ (s : State) (c : Client) (x : Session) (data : BitVec 64), s.ObjectsReady c x → x.sel 0x2000 = 0 → False) :=
  fun h => h (serving 4 [canSession]) (.can 0 5) (canSession) (1) (by decide +kernel) (by decide +kernel)

theorem wit_objectAccessesAnswer_8 :
    ¬ (∀ (s : State) (c : Client) (x : Session) (index : BitVec 16) (data : BitVec 32), s.ObjectsReady c x → odIndex index.toNat = true → index.toNat ≠ 0x2500 → 0x2000 ≤ index.toNat →
    selectOk index.toNat data.toNat = true → False) :=
  fun h => h (serving 3 [canSession]) (.can 0 5) (canSession) (0x2A00) (0x10005) (by decide +kernel) (by decide +kernel) (by decide +kernel) (by decide +kernel) (by decide +kernel)

theorem wit_objectAccessesAnswer_9 :
    ¬ (∀ (s : State) (c : Client) (x : Session) (index : BitVec 16) (data : BitVec 32), s.ObjectsReady c x → odIndex index.toNat = true → index.toNat ≠ 0x2500 → 0x2000 ≤ index.toNat →
    selectOk index.toNat data.toNat = false → False) :=
  fun h => h (serving 3 [canSession]) (.can 0 5) (canSession) (0x2A00) (0x10040) (by decide +kernel) (by decide +kernel) (by decide +kernel) (by decide +kernel) (by decide +kernel)

theorem wit_objectAccessesAnswer_10 :
    ¬ (∀ (s : State) (c : Client) (x : Session), s.ObjectsReady c x → False) :=
  fun h => h (serving 3 [canSession]) (.can 0 5) (canSession) (by decide +kernel)

theorem wit_objectAccessesAnswer_11 :
    ¬ (∀ (s : State) (c : Client) (x : Session) (data : BitVec 64), s.ObjectsReady c x → s.cellKnown data.toNat = false → False) :=
  fun h => h (serving 3 [canSession]) (.can 0 5) (canSession) (0x105) (by decide +kernel) (by decide +kernel)

theorem wit_objectAccessesAnswer_12 :
    ¬ (∀ (s : State) (c : Client) (x : Session), s.ObjectsReady c x → s.writable = true → False) :=
  fun h => h (serving 3 [canSession]) (.can 0 5) (canSession) (by decide +kernel) (by decide +kernel)

theorem wit_objectAccessesAnswer_13 :
    ¬ (∀ (s : State) (c : Client) (x : Session), s.ObjectsReady c x → s.writable = false → False) :=
  fun h => h (serving 5 [canSession]) (.can 0 5) (canSession) (by decide +kernel) (by decide +kernel)

theorem wit_objectAccessesAnswer_14 :
    ¬ (∀ (s : State) (c : Client) (x : Session), s.ObjectsReady c x → s.writable = true → False) :=
  fun h => h (serving 3 [canSession]) (.can 0 5) (canSession) (by decide +kernel) (by decide +kernel)

theorem wit_objectAccessesAnswer_15 :
    ¬ (∀ (s : State) (j : Job) (x : Session) (a : ObjAccess), s.od.jobs = [j] → s.od.answers = [] → j.wait = .store → j.form = .single → j.rest = [a] → j.done = [] →
    s.session j.client = some x → False) :=
  fun h => h (storing) ({ id := 1, client := .can 0 5, form := .single, range := none, rest := [plainAccess 0x1010 1 true saveCode], done := [], failed := false, wait := .store }) (canSession) (plainAccess 0x1010 1 true saveCode) (by decide +kernel) (by decide +kernel) (by decide +kernel) (by decide +kernel) (by decide +kernel) (by decide +kernel) (by decide +kernel)

theorem wit_objectAccessesAnswer_16 :
    ¬ (∀ (s : State) (j : Job) (x : Session) (a : ObjAccess), s.od.jobs = [j] → s.od.answers = [] → j.wait = .store → j.form = .single → j.rest = [a] → j.done = [] →
    s.session j.client = some x → False) :=
  fun h => h (storing) ({ id := 1, client := .can 0 5, form := .single, range := none, rest := [plainAccess 0x1010 1 true saveCode], done := [], failed := false, wait := .store }) (canSession) (plainAccess 0x1010 1 true saveCode) (by decide +kernel) (by decide +kernel) (by decide +kernel) (by decide +kernel) (by decide +kernel) (by decide +kernel) (by decide +kernel)

theorem wit_objectAccessesAnswer_17 :
    ¬ (∀ s : State, s.st ≠ St.reset → s.st ≠ St.selfTest → s.role = Role.solo → False) :=
  fun h => h ({ serving 3 [] with od := { (serving 3 []).od with replay := [⟨0, 0x10004, 255, 3⟩] } }) (by decide +kernel) (by decide +kernel) (by decide +kernel)

theorem wit_canAndUdpServicesAnswer_1 :
    ¬ (∀ (s : State) (p : Fin 2) (node : BitVec 7), s.canServes p = true → s.on R.ST_SUMMARY_SECURE_FAIL = false → s.session (.can p node) = none → s.canClients p < 4 → s.od.jobs = [] →
    s.od.answers = [] → s.on R.ACD_CFG_EN = false → False) :=
  fun h => h (serving 3 []) (0) (5) (by decide +kernel) (by decide +kernel) (by decide +kernel) (by decide +kernel) (by decide +kernel) (by decide +kernel) (by decide +kernel)

theorem wit_canAndUdpServicesAnswer_2 :
    ¬ (∀ (s : State) (p : Fin 2) (node : BitVec 7), s.canServes p = true → s.session (.can p node) = none → 4 ≤ s.canClients p → False) :=
  fun h => h (serving 3 [Session.fresh (.can 0 1) 1 0 0, Session.fresh (.can 0 2) 2 0 0, Session.fresh (.can 0 3) 3 0 0, Session.fresh (.can 0 4) 4 0 0]) (0) (5) (by decide +kernel) (by decide +kernel) (by decide +kernel)

theorem wit_canAndUdpServicesAnswer_3 :
    ¬ (∀ (s : State) (p : Fin 2) (node : BitVec 7), s.odServes = true → s.od.jobs = [] → False) :=
  fun h => h (serving 3 [canSession]) (0) (5) (by decide +kernel) (by decide +kernel)

theorem wit_canAndUdpServicesAnswer_4 :
    ¬ (∀ (s : State) (p : Fin 2), s.canServes p = true → s.rd R.OD_CAN_HB_MS ≠ 0 → False) :=
  fun h => h ((serving 5 []).wr R.OD_CAN_HB_MS 100) (0) (by decide +kernel) (by decide +kernel)

theorem wit_canAndUdpServicesAnswer_5 :
    ¬ (∀ (s : State) (d : Datagram), s.forService d = true → Dg.sound d.bytes = false → False) :=
  fun h => h (serving 3 []) ({ aDatagram 0x12 1 0 0 1 [] with bytes := [1#8] }) (by decide +kernel) (by decide +kernel)

theorem wit_canAndUdpServicesAnswer_6 :
    ¬ (∀ (s : State) (d : Datagram), s.forService d = true → Dg.sound d.bytes = true → (∀ x ∈ s.od.sessions, x.isUdp = true → x.id ≠ Dg.session d.bytes) → False) :=
  fun h => h (serving 3 []) (aDatagram 0x12 0x10 9 1 4 (anEntry 0x1018 2 0 0)) (by decide +kernel) (by decide +kernel) (by decide +kernel)

theorem wit_canAndUdpServicesAnswer_7 :
    ¬ (∀ (s : State) (d : Datagram) (v : Nat), s.forService d = true → Dg.sound d.bytes = true → Dg.op d.bytes = 1 →
    sharedVersion 0x10 0x12 (byteAt (Dg.body d.bytes) 0) (byteAt (Dg.body d.bytes) 1) = some v → s.session (.udp 0) = none → s.od.sessions.length ≤ 8 → s.od.jobs = [] → False) :=
  fun h => h (serving 3 []) (aDatagram 0x10 1 0 0 4 [0x10#8, 0x12#8, 0#8, 0#8, 0#8, 0#8, 0#8, 0#8]) (0x12) (by decide +kernel) (by decide +kernel) (by decide +kernel) (by decide +kernel) (by decide +kernel) (by decide +kernel) (by decide +kernel)

theorem wit_canAndUdpServicesAnswer_8 :
    ¬ (∀ (s : State) (d : Datagram), s.forService d = true → Dg.sound d.bytes = true → Dg.op d.bytes = 1 →
    sharedVersion 0x10 0x12 (byteAt (Dg.body d.bytes) 0) (byteAt (Dg.body d.bytes) 1) = none → False) :=
  fun h => h (serving 3 []) (aDatagram 0x20 1 0 0 4 [0x20#8, 0x21#8, 0#8, 0#8, 0#8, 0#8, 0#8, 0#8]) (by decide +kernel) (by decide +kernel) (by decide +kernel) (by decide +kernel)

theorem wit_canAndUdpServicesAnswer_9 :
    ¬ (∀ (s : State) (d : Datagram) (x : Session), s.InSession d x → Dg.op d.bytes = 2 → x.last = none → False) :=
  fun h => h (serving 3 [udpSession 0x12]) (aDatagram 0x12 2 1 0 4 []) (udpSession 0x12) (by decide +kernel) (by decide +kernel) (by decide +kernel)

theorem wit_canAndUdpServicesAnswer_10 :
    ¬ (∀ (s : State) (d : Datagram) (x : Session), s.InSession d x → Dg.op d.bytes = 0x10 → x.last = none → Dg.count d.bytes = 1 → Dg.length d.bytes = 16 →
    leAt (Dg.body d.bytes) 0 2 = 0x1018 → byteAt (Dg.body d.bytes) 2 = 2 → False) :=
  fun h => h (serving 3 [udpSession 0x12]) (aDatagram 0x12 0x10 1 1 4 (anEntry 0x1018 2 0 0)) (udpSession 0x12) (by decide +kernel) (by decide +kernel) (by decide +kernel) (by decide +kernel) (by decide +kernel) (by decide +kernel) (by decide +kernel)

theorem wit_canAndUdpServicesAnswer_11 :
    ¬ (∀ (s : State) (d : Datagram) (x : Session) (q : Fin 64), s.InSession d x → Dg.op d.bytes = 0x11 → x.last = none → Dg.count d.bytes = 1 → Dg.length d.bytes = 16 →
    s.st ≠ St.locked → leAt (Dg.body d.bytes) 0 2 = 0x2A00 → byteAt (Dg.body d.bytes) 2 = 3 → leAt (Dg.body d.bytes) 4 4 = 0x10000 + q.val → leAt (Dg.body d.bytes) 8 8 < 8 → x.staged = [] → False) :=
  fun h => h (serving 3 [udpSession 0x12]) (aDatagram 0x12 0x11 1 1 4 (anEntry 0x2A00 3 0x10005 6)) (udpSession 0x12) (5) (by decide +kernel) (by decide +kernel) (by decide +kernel) (by decide +kernel) (by decide +kernel) (by decide +kernel) (by decide +kernel) (by decide +kernel) (by decide +kernel) (by decide +kernel) (by decide +kernel)

theorem wit_canAndUdpServicesAnswer_12 :
    ¬ (∀ (s : State) (d : Datagram) (x : Session) (kept : List Byte), s.InSession d x → Dg.op d.bytes = 0x11 → x.last = some (Dg.seq d.bytes, some kept) → False) :=
  fun h => h (serving 3 [{ udpSession 0x12 with last := some (4, some [1#8]) }]) (aDatagram 0x12 0x11 1 1 4 (anEntry 0x2A00 3 0x10005 6)) ({ udpSession 0x12 with last := some (4, some [1#8]) }) ([1#8]) (by decide +kernel) (by decide +kernel) (by decide +kernel)

theorem wit_canAndUdpServicesAnswer_13 :
    ¬ (∀ (s : State) (d : Datagram) (x : Session), s.InSession d x → Dg.op d.bytes = 0x13 → x.last = none → x.ver = 0x12 → leAt (Dg.body d.bytes) 0 2 = 0x2C00 → byteAt (Dg.body d.bytes) 2 = 0x40 →
    1 ≤ leAt (Dg.body d.bytes) 20 4 → leAt (Dg.body d.bytes) 20 4 ≤ 1024 → leAt (Dg.body d.bytes) 16 4 + leAt (Dg.body d.bytes) 20 4 ≤ imageBytes →
    s.sramFits (s.rd R.IMG_BASE_BASE, imageBytes) = true → False) :=
  fun h => h (imaged 3) (aDatagram 0x12 0x13 1 1 4 (anEntry 0x2C00 0x40 0 0 ++ bytesLE 4 8 ++ bytesLE 4 8)) (udpSession 0x12) (by decide +kernel) (by decide +kernel) (by decide +kernel) (by decide +kernel) (by decide +kernel) (by decide +kernel) (by decide +kernel) (by decide +kernel) (by decide +kernel) (by decide +kernel)

theorem wit_canAndUdpServicesAnswer_14 :
    ¬ (∀ (s : State) (d : Datagram) (x : Session), s.InSession d x → Dg.op d.bytes = 0x14 → x.last = none → x.ver = 0x12 → leAt (Dg.body d.bytes) 0 2 = 0x2C00 → byteAt (Dg.body d.bytes) 2 = 0x40 →
    1 ≤ leAt (Dg.body d.bytes) 20 4 → leAt (Dg.body d.bytes) 20 4 ≤ 1024 → leAt (Dg.body d.bytes) 16 4 + leAt (Dg.body d.bytes) 20 4 ≤ imageBytes →
    s.sramFits (s.rd R.IMG_BASE_BASE, imageBytes) = true → s.writable = true → False) :=
  fun h => h (imaged 3) (aDatagram 0x12 0x14 1 1 4 (anEntry 0x2C00 0x40 0 0 ++ bytesLE 4 8 ++ bytesLE 4 8 ++ List.replicate 8 7#8)) (udpSession 0x12) (by decide +kernel) (by decide +kernel) (by decide +kernel) (by decide +kernel) (by decide +kernel) (by decide +kernel) (by decide +kernel) (by decide +kernel) (by decide +kernel) (by decide +kernel) (by decide +kernel)

theorem wit_canAndUdpServicesAnswer_15 :
    ¬ (∀ (s : State) (d : Datagram) (x : Session), s.InSession d x → Dg.op d.bytes = 0x14 → x.last = none → x.ver = 0x12 → leAt (Dg.body d.bytes) 0 2 = 0x2C00 → byteAt (Dg.body d.bytes) 2 = 0x40 →
    1 ≤ leAt (Dg.body d.bytes) 20 4 → leAt (Dg.body d.bytes) 20 4 ≤ 1024 → leAt (Dg.body d.bytes) 16 4 + leAt (Dg.body d.bytes) 20 4 ≤ imageBytes → s.writable = false → False) :=
  fun h => h (imaged 5) (aDatagram 0x12 0x14 1 1 4 (anEntry 0x2C00 0x40 0 0 ++ bytesLE 4 8 ++ bytesLE 4 8 ++ List.replicate 8 7#8)) (udpSession 0x12) (by decide +kernel) (by decide +kernel) (by decide +kernel) (by decide +kernel) (by decide +kernel) (by decide +kernel) (by decide +kernel) (by decide +kernel) (by decide +kernel) (by decide +kernel)

theorem wit_canAndUdpServicesAnswer_16 :
    ¬ (∀ (s : State) (d : Datagram) (x : Session), s.InSession d x → Dg.op d.bytes = 0x20 → Dg.count d.bytes = 1 → Dg.length d.bytes = 8 → x.spSeq = none →
    (s.rd R.OD_SP_SRC_SP_SRC = 0 ∨ s.rd R.OD_SP_SRC_SP_SRC = d.source.toNat) → f32Finite (leAt (Dg.body d.bytes) 4 4) = true → False) :=
  fun h => h (serving 5 [udpSession 0x12]) (aDatagram 0x12 0x20 1 1 4 ([3#8, 0#8, 0#8, 0#8] ++ bytesLE 4 0x3F800000)) (udpSession 0x12) (by decide +kernel) (by decide +kernel) (by decide +kernel) (by decide +kernel) (by decide +kernel) (by decide +kernel) (by decide +kernel)

theorem wit_canAndUdpServicesAnswer_17 :
    ¬ (∀ (s : State) (d : Datagram) (x : Session), s.InSession d x → Dg.op d.bytes = 0x20 → s.rd R.OD_SP_SRC_SP_SRC ≠ 0 → s.rd R.OD_SP_SRC_SP_SRC ≠ d.source.toNat → False) :=
  fun h => h ((serving 5 [udpSession 0x12]).wr R.OD_SP_SRC_SP_SRC 9) (aDatagram 0x12 0x20 1 1 4 ([3#8, 0#8, 0#8, 0#8] ++ bytesLE 4 0x3F800000)) (udpSession 0x12) (by decide +kernel) (by decide +kernel) (by decide +kernel) (by decide +kernel)

theorem wit_canAndUdpServicesAnswer_18 :
    ¬ (∀ (s : State) (slot : Fin 8), s.odServes = true → s.od.jobs = [] → False) :=
  fun h => h (serving 3 [udpSession 0x12]) (0) (by decide +kernel) (by decide +kernel)

theorem wit_canAndUdpServicesAnswer_19 :
    ¬ (∀ (s : State) (n : Fin 2) (asker : BitVec 32), s.odServes = true → s.netIp n ≠ 0 → False) :=
  fun h => h (serving 3 []) (0) (0x0A000002) (by decide +kernel) (by decide +kernel)

theorem wit_canAndUdpServicesAnswer_20 :
    ¬ (∀ (s : State) (n : Fin 2) (source : BitVec 32) (payload : List Byte), s.odServes = true → s.netIp n ≠ 0 → False) :=
  fun h => h (serving 3 []) (0) (0x0A000002) ([1#8, 2#8]) (by decide +kernel) (by decide +kernel)

theorem wit_routedObjectRequests_1 :
    ¬ (∀ (s : State) (k : Fin 4) (f : List Byte) (l : Nat), s.takesAccord k 7 l f = true → s.controls = true → s.odServes = true → s.on R.ST_SUMMARY_SECURE_FAIL = false →
    s.od.jobs = [] → s.od.answers = [] → s.session (.routed (BitVec.ofNat 16 (Dg.session (Acf.body f)))) = none → Dg.op (Acf.body f) = 0x10 →
    Dg.count (Acf.body f) = 1 → Dg.length (Acf.body f) = 16 → leAt (Dg.body (Acf.body f)) 0 2 = 0x1018 → byteAt (Dg.body (Acf.body f)) 2 = 2 →
    s.rd (R.LVLE_ROUTE_HOPS l (2 * Acf.sender f)) ≠ 0 → s.rd (R.LVLE_ROUTE_HOPS l (2 * Acf.sender f + 1)) = 0 →
    s.on (R.ACD_PORTST_TRAINED (s.rd (R.LVLE_ROUTE_ROUTE l (2 * Acf.sender f)) % 4)) = true → False) :=
  fun h => h (memberIn 3) (0) (anAcf 7 0 9 (pad8 (dgHead 0x12 0x10 4 1 2 (anEntry 0x1018 2 0 0)))) (0) (by decide +kernel) (by decide +kernel) (by decide +kernel) (by decide +kernel) (by decide +kernel) (by decide +kernel) (by decide +kernel) (by decide +kernel) (by decide +kernel) (by decide +kernel) (by decide +kernel) (by decide +kernel) (by decide +kernel) (by decide +kernel) (by decide +kernel)

theorem wit_routedObjectRequests_2 :
    ¬ (∀ (s : State) (k : Fin 4) (f : List Byte) (l : Nat) (j : Job) (x : Session) (a : ObjAccess), s.takesAccord k 8 l f = true → s.od.jobs = [j] → s.od.answers = [] →
    j.wait = .routed (Acf.arg f) 1 → j.form = .single → j.rest = [a] → j.done = [] → j.failed = false → s.session j.client = some x → a.write = false → a.index = 0x2000 → a.sub = 2 →
    x.selFor a = 0 → Dg.count (Acf.body f) = 1 → leAt (Dg.body (Acf.body f)) 4 4 = 0 → 16 ≤ (Dg.body (Acf.body f)).length → False) :=
  fun h => h (routing) (0) (anAcf 8 1 7 (pad8 (dgHead 0x12 0x90 1 1 7 ([0#8, 0x20#8, 2#8, 0#8] ++ bytesLE 4 0 ++ bytesLE 8 3)))) (0) ((routing.od.jobs.headD { id := 1, client := .can 0 5, form := .single, range := none, rest := [], done := [], failed := false, wait := .ready })) (canSession) (plainAccess 0x2000 2 false 0) (by decide +kernel) (by decide +kernel) (by decide +kernel) (by decide +kernel) (by decide +kernel) (by decide +kernel) (by decide +kernel) (by decide +kernel) (by decide +kernel) (by decide +kernel) (by decide +kernel) (by decide +kernel) (by decide +kernel) (by decide +kernel) (by decide +kernel) (by decide +kernel)

theorem wit_routedObjectRequests_3 :
    ¬ (∀ (s : State) (j : Job) (x : Session) (a : ObjAccess) (tag : BitVec 16), s.od.jobs = [j] → s.od.answers = [] → j.wait = .routed tag.toNat 1 → j.form = .single →
    j.rest = [a] → j.done = [] → s.session j.client = some x → False) :=
  fun h => h (routing) ((routing.od.jobs.headD { id := 1, client := .can 0 5, form := .single, range := none, rest := [], done := [], failed := false, wait := .ready })) (canSession) (plainAccess 0x2000 2 false 0) (7) (by decide +kernel) (by decide +kernel) (by decide +kernel) (by decide +kernel) (by decide +kernel) (by decide +kernel) (by decide +kernel)

theorem wit_routedObjectRequests_4 :
    ¬ (∀ (s : State) (tag : BitVec 16), s.od.jobs = [] → False) :=
  fun h => h (inState 3) (7) (by decide +kernel)

theorem wit_routedObjectRequests_5 :
    ¬ (∀ (s : State) (cell : BitVec 64), cell.toNat ∈ s.od.calDue → bitsOf cell.toNat 7 6 < 48 → (s.port (bitsOf cell.toNat 7 6)).own = [] → (s.port (bitsOf cell.toNat 7 6)).txn = none → False) :=
  fun h => h ({ inState 3 with od := { Od.reset with calDue := [0x105] } }) (0x105) (by decide +kernel) (by decide +kernel) (by decide +kernel) (by decide +kernel)

end Sys2Proof.Tests
end

section
/-! The order of binary32 patterns and the clamp built on it (R64, R67): magnitudes, values that are not numbers,
infinities, and one equation of `fClamp` per case. -/

namespace Sys2Proof.Machine

/-- The exponent is not all ones exactly where the magnitude lies below that of infinity. -/
theorem f32Finite_iff (b : Nat) : f32Finite b = true ↔ b % 2 ^ 31 < fInf := by
  simp only [f32Finite, bitsOf, fInf, bne_iff_ne]
  omega

theorem f32NaN_eq_false_of_finite {b : Nat} (h : f32Finite b = true) : f32NaN b = false := by
  have hexp : bitsOf b 23 8 ≠ 255 := by simpa [f32Finite] using h
  simp [f32NaN, hexp]

/-- The order key of a pattern is its magnitude with the pattern's sign. -/
@[simp] theorem natAbs_f32Key (b : Nat) : (f32Key b).natAbs = b % 2 ^ 31 := by
  unfold f32Key
  split
  · rw [Int.natAbs_neg, Int.natAbs_natCast]
  · rw [Int.natAbs_natCast]

/-- Reading a subnormal as zero (R64) never raises the magnitude. -/
theorem fFlush_magnitude_le (b : Nat) : fFlush b % 2 ^ 31 ≤ b % 2 ^ 31 := by
  unfold fFlush
  split
  · rw [Nat.mul_mod_left]
    exact Nat.zero_le _
  · exact le_rfl

/-- The key of a finite value lies strictly between the keys of the two infinities. -/
theorem natAbs_f32Key_fFlush_lt {b : Nat} (h : f32Finite b = true) : (f32Key (fFlush b)).natAbs < fInf :=
  calc (f32Key (fFlush b)).natAbs = fFlush b % 2 ^ 31 := natAbs_f32Key _
    _ ≤ b % 2 ^ 31 := fFlush_magnitude_le b
    _ < fInf := (f32Finite_iff b).mp h

theorem f32Key_fFlush_fInf : f32Key (fFlush fInf) = fInf := by decide

theorem f32Key_fFlush_fNegInf : f32Key (fFlush fNegInf) = -fInf := by decide

/-- Between numbers, below is the order of the keys. -/
theorem fLt_iff_of_numbers {a b : Nat} (ha : f32NaN a = false) (hb : f32NaN b = false) :
    fLt a b = true ↔ f32Key (fFlush a) < f32Key (fFlush b) := by
  simp [fLt, ha, hb]

theorem fLt_NaN_left {a : Nat} (b : Nat) (h : f32NaN a = true) : fLt a b = false := by simp [fLt, h]

theorem fLt_NaN_right (a : Nat) {b : Nat} (h : f32NaN b = true) : fLt a b = false := by simp [fLt, h]

theorem fLt_fInf_of_finite {x : Nat} (h : f32Finite x = true) : fLt x fInf = true := by
  rw [fLt_iff_of_numbers (f32NaN_eq_false_of_finite h) (by decide), f32Key_fFlush_fInf]
  have hmag := natAbs_f32Key_fFlush_lt h
  omega

theorem fNegInf_fLt_of_finite {x : Nat} (h : f32Finite x = true) : fLt fNegInf x = true := by
  rw [fLt_iff_of_numbers (by decide) (f32NaN_eq_false_of_finite h), f32Key_fFlush_fNegInf]
  have hmag := natAbs_f32Key_fFlush_lt h
  omega

/-- The zeros of both signs compare equal, so neither is below the other. -/
theorem fEq_and_not_fLt_of_signed_zeros :
    fEq 0x80000000 0 = true ∧ fLt 0x80000000 0 = false ∧ fLt 0 0x80000000 = false := by decide

theorem fClamp_of_below {x lo : Nat} (hi : Nat) (h : fLt x lo = true) : fClamp x lo hi = lo := by simp [fClamp, h]

theorem fClamp_of_above {x lo hi : Nat} (hlo : fLt x lo = false) (hhi : fLt hi x = true) : fClamp x lo hi = hi := by
  simp [fClamp, hlo, hhi]

theorem fClamp_of_within {x lo hi : Nat} (hlo : fLt x lo = false) (hhi : fLt hi x = false) : fClamp x lo hi = x := by
  simp [fClamp, hlo, hhi]

/-- What is not a number is neither below nor above a bound. -/
theorem fClamp_NaN {x : Nat} (lo hi : Nat) (h : f32NaN x = true) : fClamp x lo hi = x :=
  fClamp_of_within (fLt_NaN_left lo h) (fLt_NaN_right hi h)

/-- Settles O17: one equation of the clamp per case; the finite values lie between the infinities because their
magnitudes lie below that of infinity. -/
theorem clampOfBinary32 : Obligations.ClampOfBinary32 := by
  unfold Obligations.ClampOfBinary32
  refine ⟨?below, ?above, ?within, fEq_and_not_fLt_of_signed_zeros, ?infinities, ?nan⟩
  case below => exact fun _ _ hi h => fClamp_of_below hi h
  case above => exact fun _ _ _ hlo hhi => fClamp_of_above hlo hhi
  case within => exact fun _ _ _ hlo hhi => fClamp_of_within hlo hhi
  case infinities => exact fun _ _ h => ⟨fLt_fInf_of_finite h, fNegInf_fLt_of_finite h⟩
  case nan => exact fun _ lo hi h => fClamp_NaN lo hi h

end Sys2Proof.Machine
end

section
/-! CRC-16 as the serial register of R198: the model's byte-wise computation follows the register bit by bit, the register
can be read backwards, and so the prefix of position and period stands in the check value of a slot. -/

namespace Sys2Proof.Machine

/-! ### The serial register -/

/-- One bit into the serial register of R198: it goes left, and polynomial 1021h enters where the bit that leaves differs
from the one that comes. -/
def crc16Shift (c : BitVec 16) (bit : Bool) : BitVec 16 := if c.msb != bit then (c <<< 1) ^^^ 0x1021#16 else c <<< 1

/-- The first `k` bits of a byte on the wire, most significant first. -/
def byteBits (b : Byte) (k : Nat) : List Bool := (List.range k).map fun i => b.getLsbD (7 - i)

@[simp] theorem length_byteBits (b : Byte) (k : Nat) : (byteBits b k).length = k := by simp [byteBits]

theorem byteBits_succ (b : Byte) (k : Nat) : byteBits b (k + 1) = byteBits b k ++ [b.getLsbD (7 - k)] := by
  simp [byteBits, List.range_succ]

/-- The eight bits of a byte spell it. -/
theorem byteBits_inj {a b : Byte} (h : byteBits a 8 = byteBits b 8) : a = b := by
  refine BitVec.eq_of_getLsbD_eq fun i hi => ?_
  have hbit : a.getLsbD (7 - (7 - i)) = b.getLsbD (7 - (7 - i)) :=
    List.map_inj_left.mp h (7 - i) (List.mem_range.mpr (by omega))
  rwa [show 7 - (7 - i) = i by omega] at hbit

/-! ### The model's computation is the serial one -/

/-- One step of `crcMsbBits` is the serial register fed with a zero. -/
theorem crcMsbBits_succ_toNat (k : Nat) (c : BitVec 16) :
    crcMsbBits 16 0x1021 (k + 1) c.toNat = crcMsbBits 16 0x1021 k (crc16Shift c false).toNat := by
  have hmsb : c.msb = decide (c.toNat / 2 ^ 15 % 2 = 1) := by
    rw [BitVec.msb_eq_decide, decide_eq_decide]
    have := c.isLt
    omega
  have hshl : (c <<< 1).toNat = 2 * c.toNat % 2 ^ 16 := by
    rw [BitVec.toNat_shiftLeft, Nat.shiftLeft_eq]
    omega
  simp only [crcMsbBits, crc16Shift, hmsb, Bool.bne_false, decide_eq_true_eq]
  congr 1
  by_cases h : c.toNat / 2 ^ 15 % 2 = 1
  · rw [if_pos h, if_pos h, BitVec.toNat_xor, hshl]
    rfl
  · rw [if_neg h, if_neg h, hshl]

/-- A word xored into the register enters like a bit at the input, if its top bit is taken as that bit and the rest
moves on. -/
theorem crc16Shift_xor_false (c w : BitVec 16) : crc16Shift (c ^^^ w) false = crc16Shift c w.msb ^^^ (w <<< 1) := by
  simp only [crc16Shift, BitVec.msb_xor, BitVec.shiftLeft_xor_distrib, Bool.bne_false]
  split
  · ac_rfl
  · rfl

/-- The top bit of a byte placed high and moved on by `k` is the byte's bit that comes after `k` others. -/
theorem msb_byte_shiftLeft (b : Byte) {k : Nat} (hk : k < 8) :
    (b.setWidth 16 <<< (8 + k)).msb = b.getLsbD (7 - k) := by
  rw [BitVec.msb_eq_getLsbD_last, BitVec.getLsbD_shiftLeft, BitVec.getLsbD_setWidth]
  have hi : 16 - 1 - (8 + k) = 7 - k := by omega
  have hpast : ¬ 15 < 8 + k := by omega
  have hin : 7 - k < 16 := by omega
  simp [hi, hpast, hin]

/-- After `k` bits of a byte, the register with the byte xored in at its top differs from the serial one by the bits that
are still to come; `j` steps remain. -/
theorem crcMsbBits_byte_remaining (c : BitVec 16) (b : Byte) (j k : Nat) (hk : k + j = 8) :
    crcMsbBits 16 0x1021 j ((byteBits b k).foldl crc16Shift c ^^^ (b.setWidth 16 <<< (8 + k))).toNat =
      ((byteBits b 8).foldl crc16Shift c).toNat := by
  induction j generalizing k with
  | zero =>
    obtain rfl : k = 8 := by omega
    have hout : b.setWidth 16 <<< (8 + 8) = 0#16 := BitVec.shiftLeft_eq_zero (by omega)
    rw [hout, BitVec.xor_zero, crcMsbBits]
  | succ j ih =>
    rw [crcMsbBits_succ_toNat, crc16Shift_xor_false, msb_byte_shiftLeft b (by omega), ← BitVec.shiftLeft_add,
      ← ih (k + 1) (by omega), byteBits_succ, List.foldl_append, Nat.add_assoc]
    rfl

/-- A byte of the model's CRC-16 is its eight bits through the serial register. -/
theorem crc16From_cons_toNat (c : BitVec 16) (b : Byte) (l : List Byte) :
    crc16From c.toNat (b :: l) = crc16From ((byteBits b 8).foldl crc16Shift c).toNat l := by
  have hword : b.toNat * 256 = (b.setWidth 16 <<< 8).toNat := by
    have := b.isLt
    rw [BitVec.toNat_shiftLeft, BitVec.toNat_setWidth, Nat.shiftLeft_eq]
    omega
  rw [← crcMsbBits_byte_remaining c b 8 0 rfl]
  simp [crc16From, hword, byteBits]

/-- The bits of a byte string in the order in which they enter the register. -/
def bytesBits (l : List Byte) : List Bool := l.flatMap (byteBits · 8)

@[simp] theorem bytesBits_cons (b : Byte) (l : List Byte) : bytesBits (b :: l) = byteBits b 8 ++ bytesBits l := rfl

theorem crc16From_toNat (c : BitVec 16) (l : List Byte) :
    crc16From c.toNat l = ((bytesBits l).foldl crc16Shift c).toNat := by
  induction l generalizing c with
  | nil => rfl
  | cons b l ih => rw [crc16From_cons_toNat, ih, bytesBits_cons, List.foldl_append]

theorem crc16From_FFFF (l : List Byte) : crc16From 0xFFFF l = ((bytesBits l).foldl crc16Shift 0xFFFF#16).toNat :=
  crc16From_toNat 0xFFFF#16 l

theorem crc16From_FFFF_lt (l : List Byte) : crc16From 0xFFFF l < 2 ^ 16 := crc16From_FFFF l ▸ BitVec.isLt _

/-! ### The register read backwards -/

@[simp] theorem getElem_zero_crc16Shift (c : BitVec 16) (a : Bool) : (crc16Shift c a)[0] = (c.msb != a) := by
  unfold crc16Shift
  split <;> simp_all

/-- As long as the low bit of a shifted register is in sight, it tells whether the polynomial entered, and so the word
before. -/
theorem crc16Shift_shiftLeft_inj {n : Nat} (hn : n < 16) {c d : BitVec 16} {a b : Bool}
    (h : crc16Shift c a <<< n = crc16Shift d b <<< n) : (c.msb != a) = (d.msb != b) ∧ c <<< (1 + n) = d <<< (1 + n) := by
  have hfeed : (c.msb != a) = (d.msb != b) := by
    have hbit := congrArg (·.getLsbD n) h
    simpa [hn] using hbit
  refine ⟨hfeed, ?_⟩
  unfold crc16Shift at h
  rw [hfeed] at h
  rw [BitVec.shiftLeft_add, BitVec.shiftLeft_add]
  split at h
  · simpa [BitVec.shiftLeft_xor_distrib] using h
  · exact h

/-- The same bit into the register from two words leads to two words. -/
theorem crc16Shift_left_inj {c d : BitVec 16} {a : Bool} (h : crc16Shift c a = crc16Shift d a) : c = d := by
  obtain ⟨hfeed, hshl⟩ := crc16Shift_shiftLeft_inj (n := 0) (by omega) (by simpa using h)
  have hmsb : c.msb = d.msb := by simpa using hfeed
  refine BitVec.eq_of_getLsbD_eq fun i hi => ?_
  rcases Nat.lt_or_ge i 15 with hlow | htop
  · have hbit := congrArg (·.getLsbD (i + 1)) hshl
    simpa [show i + 1 < 16 by omega, hi] using hbit
  · obtain rfl : i = 15 := by omega
    exact hmsb

/-- The same bits from two words lead to two words. -/
theorem crc16_foldl_left_inj {bits : List Bool} {c d : BitVec 16}
    (h : bits.foldl crc16Shift c = bits.foldl crc16Shift d) : c = d := by
  induction bits generalizing c d with
  | nil => exact h
  | cons a bits ih => exact crc16Shift_left_inj (ih h)

/-- Two registers that meet after `n` bits agreed in all but their top `n` bits. -/
theorem crc16_foldl_eq_shiftLeft {as bs : List Bool} (hlen : as.length = bs.length) {c d : BitVec 16}
    (h : as.foldl crc16Shift c = bs.foldl crc16Shift d) : c <<< as.length = d <<< as.length := by
  induction as generalizing bs c d with
  | nil =>
    obtain rfl : bs = [] := List.length_eq_zero_iff.mp hlen.symm
    simpa using h
  | cons a as ih =>
    obtain ⟨b, bs, rfl⟩ := List.exists_cons_of_length_eq_add_one hlen.symm
    have hafter := ih (Nat.succ.inj hlen) h
    rw [List.length_cons, Nat.add_comm]
    rcases Nat.lt_or_ge as.length 16 with hn | hn
    · exact (crc16Shift_shiftLeft_inj hn hafter).2
    · rw [BitVec.shiftLeft_eq_zero (by omega), BitVec.shiftLeft_eq_zero (by omega)]

/-- Up to sixteen bits from one word can be told from the word they lead to. -/
theorem crc16_foldl_right_inj {as bs : List Bool} (hlen : as.length = bs.length) (hmax : as.length ≤ 16) {c : BitVec 16}
    (h : as.foldl crc16Shift c = bs.foldl crc16Shift c) : as = bs := by
  induction as generalizing bs c with
  | nil => exact (List.length_eq_zero_iff.mp hlen.symm).symm
  | cons a as ih =>
    obtain ⟨b, bs, rfl⟩ := List.exists_cons_of_length_eq_add_one hlen.symm
    have htail : as.length = bs.length := Nat.succ.inj hlen
    have hfeed := (crc16Shift_shiftLeft_inj hmax (crc16_foldl_eq_shiftLeft htail h)).1
    obtain rfl : a = b := by simpa using hfeed
    rw [ih htail (Nat.le_of_succ_le hmax) h]

/-- Over the same bytes, the CRC-16 tells the two bytes that come before them. -/
theorem crc16From_prefix_inj {p q p' q' : Byte} {l : List Byte}
    (h : crc16From 0xFFFF (p :: q :: l) = crc16From 0xFFFF (p' :: q' :: l)) : p = p' ∧ q = q' := by
  simp only [crc16From_FFFF, bytesBits_cons, ← List.append_assoc] at h
  rw [List.foldl_append (l' := bytesBits l), List.foldl_append (l' := bytesBits l)] at h
  have hprefix := crc16_foldl_left_inj (BitVec.eq_of_toNat_eq h)
  have hbits := crc16_foldl_right_inj (by simp) (by simp) hprefix
  obtain ⟨hp, hq⟩ := List.append_inj hbits (by simp)
  exact ⟨byteBits_inj hp, byteBits_inj hq⟩

/-! ### The check field of a slot -/

theorem slotBytes_crc (pos period : Nat) (body : List Byte) :
    leAt (slotBytes pos period body) body.length 2 =
      crc16From 0xFFFF (BitVec.ofNat 8 pos :: BitVec.ofNat 8 period :: body) := by
  rw [leAt, slotBytes, List.drop_left, List.take_of_length_le (by simp), natLE_bytesLE]
  exact Nat.mod_eq_of_lt (crc16From_FFFF_lt _)

@[simp] theorem crcState_eq_good_iff (w got want : Nat) : crcState w got want = .good ↔ got = want := by
  unfold crcState
  split
  · simp_all
  · split <;> simp_all

/-- A slot is good where the frame holds all of it and its check field is the code over position, period and bytes. -/
theorem slotState_eq_good_iff (pos : Nat) (f : List Byte) (off len : Nat) :
    slotState pos f off len = .good ↔ len ≤ ((f.drop off).take len).length ∧
      leAt ((f.drop off).take len) (len - 2) 2 = crc16From 0xFFFF
        (BitVec.ofNat 8 pos :: BitVec.ofNat 8 (Hdr.period f) :: ((f.drop off).take len).take (len - 2)) := by
  simp only [slotState]
  split
  next hshort => exact iff_of_false nofun fun h => Nat.not_le.mpr hshort h.1
  next hwhole => simp only [crcState_eq_good_iff, Nat.not_lt.mp hwhole, true_and]

/-- The same bytes are good in two places only at one position and one PERIOD[7:0]. -/
theorem slotState_good_same_prefix {pos pos' : Nat} {f g : List Byte} {off len : Nat}
    (hsame : (f.drop off).take len = (g.drop off).take len) (hf : slotState pos f off len = .good)
    (hg : slotState pos' g off len = .good) : pos % 256 = pos' % 256 ∧ Hdr.period f % 256 = Hdr.period g % 256 := by
  obtain ⟨-, hf⟩ := (slotState_eq_good_iff ..).mp hf
  obtain ⟨-, hg⟩ := (slotState_eq_good_iff ..).mp hg
  rw [hsame] at hf
  obtain ⟨hpos, hperiod⟩ := crc16From_prefix_inj (hf.symm.trans hg)
  exact ⟨by simpa using congrArg BitVec.toNat hpos, by simpa using congrArg BitVec.toNat hperiod⟩

/-- Settles O27: the model's CRC-16 is the serial register, and the register read backwards gives the prefix. -/
theorem slotCrcBindsPositionAndPeriod : Obligations.SlotCrcBindsPositionAndPeriod := by
  unfold Obligations.SlotCrcBindsPositionAndPeriod
  refine ⟨?serial, ?checkValue, ?slot, ?replayed⟩
  case serial => exact crc16From_FFFF
  case checkValue => decide +kernel
  case slot => exact fun pos period body => ⟨List.take_left, by simp [slotBytes], slotBytes_crc pos period body⟩
  case replayed =>
    intro pos pos' f off len g _ _ _ hsame hf hother hg
    obtain ⟨hpos, hperiod⟩ := slotState_good_same_prefix hsame hf hg
    exact hother.elim (· hpos) (· hperiod)

end Sys2Proof.Machine
end

section
/-! System calibration of the cell's converter (R244): the rounding of the product, the clamp, what a regular result in
range leaves in the register words, and the legal range of GAIN. -/

namespace Sys2Proof.Machine

/-! ### Rounding to nearest, ties to even -/

/-- `v` is a nearest integer to `a / b`, and the even one on a tie. -/
def NearestEven (a : Int) (b : Nat) (v : Int) : Prop :=
  2 * (a - b * v).natAbs ≤ b ∧ (2 * (a - b * v).natAbs = b → v % 2 = 0)

theorem NearestEven.neg {a : Int} {b : Nat} {v : Int} (h : NearestEven a b v) : NearestEven (-a) b (-v) := by
  obtain ⟨hnear, htie⟩ := h
  have hdist : (-a - b * -v).natAbs = (a - b * v).natAbs := by
    rw [← Int.natAbs_neg]
    congr 1
    ring
  refine ⟨hdist ▸ hnear, fun heq => ?_⟩
  have heven := htie (hdist ▸ heq)
  omega

/-- The quotient `q` with its remainder `r`, and the quotient above it, leave the errors `r` and `b - r`. -/
theorem nearestEven_rneDiv (a : Nat) {b : Nat} (hb : 0 < b) : NearestEven a b (rneDiv a b) := by
  have hlt : a % b < b := Nat.mod_lt a hb
  have hdown : (a : Int) - b * (a / b : Nat) = (a % b : Nat) := by
    have hdiv : ((b * (a / b) + a % b : Nat) : Int) = a := congrArg Nat.cast (Nat.div_add_mod a b)
    push_cast at hdiv ⊢
    linarith
  have hup : (a : Int) - b * (a / b + 1 : Nat) = (a % b : Nat) - b := by
    rw [← hdown]
    push_cast
    ring
  unfold rneDiv NearestEven
  dsimp only
  split_ifs <;> simp only [hdown, hup] <;> omega

theorem nearestEven_rneDivInt (a : Int) {b : Nat} (hb : 0 < b) : NearestEven a b (rneDivInt a b) := by
  unfold rneDivInt
  split
  next hpos => simpa [Int.toNat_of_nonneg hpos] using nearestEven_rneDiv a.toNat hb
  next hneg =>
    have hmag : ((-a).toNat : Int) = -a := Int.toNat_of_nonneg (by omega)
    simpa [hmag] using (nearestEven_rneDiv (-a).toNat hb).neg

/-- A multiple of the divisor is divided without rounding. -/
theorem rneDivInt_mul_self (n : Nat) {b : Nat} (hb : 0 < b) : rneDivInt (n * b : Int) b = n := by
  have hpos : (0 : Int) ≤ (n * b : Nat) := Int.natCast_nonneg _
  rw [← Nat.cast_mul, rneDivInt, if_pos hpos, Int.toNat_natCast]
  simp [rneDiv, hb]

/-! ### The clamp and the 16-bit pattern -/

theorem clampInt_eq_max_min {lo hi : Int} (h : lo ≤ hi) (i : Int) : clampInt lo hi i = max lo (min hi i) := by
  unfold clampInt
  split_ifs <;> omega

theorem ofSigned_16_lt (i : Int) : ofSigned 16 i < 2 ^ 16 := by
  unfold ofSigned
  omega

theorem ofSigned_32_lt (i : Int) : ofSigned 32 i < 2 ^ 32 := by
  unfold ofSigned
  omega

theorem toSigned_ofSigned_16 {i : Int} (hlo : -32768 ≤ i) (hhi : i ≤ 32767) : toSigned 16 (ofSigned 16 i) = i := by
  simp only [toSigned, ofSigned]
  split_ifs <;> omega

/-! ### The calibrated code -/

/-- The product of R244 after rounding, before the clamp. -/
def Cell.rounded (c : Cell) (ch raw : Nat) : Int :=
  rneDivInt ((c.codeInt ch raw - toSigned 16 (c.rd (K.CAL_OFF ch))) * c.rd (K.CAL_GAIN ch)) 32768

theorem Cell.nearestEven_rounded (c : Cell) (ch raw : Nat) : NearestEven
    ((c.codeInt ch raw - toSigned 16 (c.rd (K.CAL_OFF ch))) * c.rd (K.CAL_GAIN ch)) 32768 (c.rounded ch raw) :=
  nearestEven_rneDivInt _ (by decide)

theorem Cell.calibrated_signed {c : Cell} {ch : Nat} (h : c.signed ch = true) (raw : Nat) :
    c.calibrated ch raw = ofSigned 16 (clampInt (-32768) 32767 (c.rounded ch raw)) := by
  simp [Cell.calibrated, Cell.rounded, h]

theorem Cell.calibrated_unsigned {c : Cell} {ch : Nat} (h : c.signed ch = false) (raw : Nat) :
    c.calibrated ch raw = (clampInt 0 65535 (c.rounded ch raw)).toNat := by
  simp [Cell.calibrated, Cell.rounded, h]

/-- The integer that the calibrated code stands for is the clamped one. -/
theorem Cell.codeInt_calibrated (c : Cell) (ch raw : Nat) : c.codeInt ch (c.calibrated ch raw) =
    if c.signed ch then max (-32768) (min 32767 (c.rounded ch raw)) else max 0 (min 65535 (c.rounded ch raw)) := by
  cases hs : c.signed ch
  case true =>
    rw [c.calibrated_signed hs, clampInt_eq_max_min (by decide), Cell.codeInt, if_pos hs,
      toSigned_ofSigned_16 (by omega) (by omega), if_pos rfl]
  case false =>
    rw [c.calibrated_unsigned hs, clampInt_eq_max_min (by decide)]
    simp [Cell.codeInt, hs]

theorem Cell.calibrated_lt (c : Cell) (ch raw : Nat) : c.calibrated ch raw < 2 ^ 16 := by
  cases hs : c.signed ch
  case true => exact c.calibrated_signed hs raw ▸ ofSigned_16_lt _
  case false =>
    rw [c.calibrated_unsigned hs, clampInt_eq_max_min (by decide)]
    omega

/-- A 16-bit code fits its 32-bit result register in either alignment (R243). -/
theorem Cell.aligned_lt (c : Cell) (ch : Nat) {code : Nat} (h : code < 2 ^ 16) : c.aligned ch code < 2 ^ 32 := by
  unfold Cell.aligned
  split_ifs
  · omega
  · exact ofSigned_32_lt _
  · omega

/-! ### A regular result in range -/

theorem Cell.word_congr {c d : Cell} (h : c.regs = d.regs) (a : Nat) : c.word a = d.word a := by
  simp only [Cell.word, h]

theorem Cell.rd_congr {c d : Cell} {f : Fld} (h : c.word f.addr = d.word f.addr) : c.rd f = d.rd f := by
  rw [Cell.rd, Cell.rd, h]

theorem Cell.on_put_apart (c : Cell) (f g : Fld) (b : Bool) (hf : f.inWord = true) (h : f.apart g = true) :
    (c.put f b).on g = c.on g := by rw [Cell.on, Cell.rd_put_apart c f g b hf h, Cell.on]

theorem Cell.word_wr_ne (c : Cell) (f : Fld) (v : Nat) {a : Nat} (h : a ≠ f.addr) : (c.wr f v).word a = c.word a := by
  rw [Cell.wr, Cell.word_setWord, if_neg h]

theorem Cell.word_put_ne (c : Cell) (f : Fld) (b : Bool) {a : Nat} (h : a ≠ f.addr) : (c.put f b).word a = c.word a :=
  c.word_wr_ne f _ h

/-- The trigger of the cell writes its own words only (R431). -/
theorem Cell.word_trigger (c : Cell) (cause time : Nat) {a : Nat} (h : a < 0x60000) :
    (c.trigger cause time).word a = c.word a := by
  have hst : a ≠ 0x60010 := by omega
  have htime : a ≠ 0x60014 := by omega
  unfold Cell.trigger
  split_ifs
  · rfl
  · exact c.word_wr_ne _ _ hst
  · simp only [Cell.inc, Cell.put]
    rw [Cell.word_wr_ne _ _ _ htime, Cell.word_wr_ne _ _ _ hst, Cell.word_wr_ne _ _ _ hst, Cell.word_wr_ne _ _ _ hst]
    rfl

theorem Cell.word_when (c : Cell) (b : Bool) (f : Cell → Cell) {a : Nat} (h : (f c).word a = c.word a) :
    (c.when b f).word a = c.word a := by
  cases b
  · rfl
  · exact h

theorem Cell.word_triggerOn (c : Cell) (hold ch code : Nat) {a : Nat} (h : a < 0x60000) :
    (c.triggerOn hold ch code).word a = c.word a := by
  unfold Cell.triggerOn
  split
  · rfl
  · exact Cell.word_when _ _ _ (Cell.word_trigger _ _ _ h)

/-- Keeping a switch voltage writes no register. -/
theorem Cell.word_keepVon (c : Cell) (hold ch code a : Nat) : (c.keepVon hold ch code).word a = c.word a := rfl

/-- The cell with one conversion less to mark SUSPECT (R259). -/
def Cell.suspectCounted (c : Cell) : Cell := { c with ad := { c.ad with suspect := c.ad.suspect - 1 } }

@[simp] theorem Cell.suspectCounted_rd (c : Cell) (f : Fld) : c.suspectCounted.rd f = c.rd f := rfl

@[simp] theorem Cell.suspectCounted_aligned (c : Cell) (ch code : Nat) :
    c.suspectCounted.aligned ch code = c.aligned ch code := rfl

@[simp] theorem Cell.suspectCounted_calibrated (c : Cell) (ch raw : Nat) :
    c.suspectCounted.calibrated ch raw = c.calibrated ch raw := rfl

/-- A conversion in range counts SUSPECT down and marks nothing (R258, R259). -/
theorem Cell.ended_inRange (c : Cell) (now hold ch : Nat) :
    c.ended now hold ch 0 false = (decide (0 < c.ad.suspect), c.suspectCounted) := by
  unfold Cell.ended
  cases c.ad.ovrEnd <;> simp [Cell.suspectCounted]

/-- What follows the delivery of a regular result, the switch voltages and the trigger, leaves the converter's words. -/
theorem Cell.word_afterDelivery (c : Cell) (unsuspect inRange : Bool) (hold ch code : Nat) {a : Nat} (h : a < 0x60000) :
    (c.when unsuspect fun c => (c.when inRange fun c => c.keepVon hold ch code).triggerOn hold ch code).word a = c.word a := by
  apply Cell.word_when
  rw [Cell.word_triggerOn _ _ _ _ h]
  exact Cell.word_when _ _ _ (Cell.word_keepVon ..)

/-- A result in range delivered into the register words of its channel: the value and its status bits (R243, R247). -/
def Cell.delivered (c : Cell) (ch code : Nat) (suspect : Bool) : Cell :=
  ((((c.wr (K.RES_VALUE ch) (c.aligned ch code)).put (K.RES_ST_SUSPECT ch) suspect).put
    (K.RES_ST_OVR_LAST ch) false).put (K.RES_ST_RESTARTED ch) c.ad.aborted).put (K.RES_ST_STALE ch) false

/-- A regular conversion in range leaves in the converter's words what its delivery writes. -/
theorem Cell.word_regularDone_inRange (c : Cell) (now raw : Nat) {a : Nat} (ha : a < 0x60000)
    (hlen : c.ad.elem < c.hrd K.SEQ_CFG_SEQ_LEN) (hch : c.channelOk (c.element c.ad.elem) = true) :
    (c.regularDone now raw 0).word a = (c.suspectCounted.delivered (c.element c.ad.elem)
      (c.calibrated (c.element c.ad.elem) raw) (decide (0 < c.ad.suspect))).word a := by
  have hrun : ¬ (c.hrd K.SEQ_CFG_SEQ_LEN ≤ c.ad.elem ∨ c.channelOk (c.element c.ad.elem) = false) := by simp [hlen, hch]
  unfold Cell.regularDone
  extract_lets
  rw [if_neg hrun, Cell.ended_inRange, ← c.suspectCounted_calibrated]
  generalize c.suspectCounted = d
  refine (Cell.word_afterDelivery _ _ _ _ _ _ ha).trans (Cell.word_congr ?_ a)
  rfl

theorem Cell.word_delivered_of_ne_status (c : Cell) (ch code : Nat) (suspect : Bool) {a : Nat}
    (h : a ≠ (K.RES_ST_STALE ch).addr) :
    (c.delivered ch code suspect).word a = (c.wr (K.RES_VALUE ch) (c.aligned ch code)).word a := by
  unfold Cell.delivered
  exact (Cell.word_put_ne _ (K.RES_ST_STALE ch) _ h).trans <| (Cell.word_put_ne _ (K.RES_ST_RESTARTED ch) _ h).trans <|
    (Cell.word_put_ne _ (K.RES_ST_OVR_LAST ch) _ h).trans <| Cell.word_put_ne _ (K.RES_ST_SUSPECT ch) _ h

theorem Cell.delivered_value (c : Cell) (ch : Nat) {code : Nat} (h : code < 2 ^ 16) (suspect : Bool) :
    (c.delivered ch code suspect).rd (K.RES_VALUE ch) = c.aligned ch code := by
  have hst : (K.RES_VALUE ch).addr ≠ (K.RES_ST_STALE ch).addr := by simp [K.RES_VALUE, K.RES_ST_STALE]
  rw [Cell.rd_congr (c.word_delivered_of_ne_status ch code suspect hst), Cell.rd_wr_same _ _ _ rfl]
  exact Nat.mod_eq_of_lt (c.aligned_lt ch h)

theorem Cell.delivered_ovrFlag (c : Cell) (ch code : Nat) (suspect : Bool) :
    (c.delivered ch code suspect).rd K.OVR_FLAG_OVR = c.rd K.OVR_FLAG_OVR := by
  have hst : K.OVR_FLAG_OVR.addr ≠ (K.RES_ST_STALE ch).addr := by
    simp only [K.OVR_FLAG_OVR, K.RES_ST_STALE]
    omega
  have hval : K.OVR_FLAG_OVR.addr ≠ (K.RES_VALUE ch).addr := by
    simp only [K.OVR_FLAG_OVR, K.RES_VALUE]
    omega
  exact Cell.rd_congr ((c.word_delivered_of_ne_status ch code suspect hst).trans (c.word_wr_ne _ _ hval))

theorem Cell.delivered_ovrLast (c : Cell) (ch code : Nat) (suspect : Bool) :
    (c.delivered ch code suspect).on (K.RES_ST_OVR_LAST ch) = false := by
  have hstale : (K.RES_ST_STALE ch).apart (K.RES_ST_OVR_LAST ch) = true := by
    simp [Fld.apart, K.RES_ST_STALE, K.RES_ST_OVR_LAST]
  have hrestarted : (K.RES_ST_RESTARTED ch).apart (K.RES_ST_OVR_LAST ch) = true := by
    simp [Fld.apart, K.RES_ST_RESTARTED, K.RES_ST_OVR_LAST]
  unfold Cell.delivered
  rw [Cell.on_put_apart _ _ _ _ rfl hstale, Cell.on_put_apart _ _ _ _ rfl hrestarted, Cell.on_put_same _ _ _ rfl rfl]

theorem exec_regularDone (id : BitVec 64) (raw : BitVec 16) (s : State) :
    exec (.conversionDone id 0 raw 0) s =
      .next (s.setCell id.toNat ((s.cell id.toNat).regularDone s.now raw.toNat 0)) := rfl

/-! ### The CAL registers -/

/-- The register row of the twelve CAL registers: OFF, and GAIN from 4000h on. -/
def calRow : RegRow :=
  ⟨0x30108, 12, 0x10, 1, 0x4, [⟨0, 16, .rwl, 0, .any⟩, ⟨16, 16, .rwl, 0x8000, .range 16384 65535⟩]⟩

theorem cellRow_CAL {ch : Nat} (h : ch < 12) : cellRow (K.CAL_GAIN ch).addr = some calRow := by
  have hall : ∀ i : Fin 12, cellRow (K.CAL_GAIN i).addr = some calRow := by decide +kernel
  exact hall ⟨ch, h⟩

/-- A word with one writable field left outside its range is refused, whatever else it holds (R7). -/
theorem RegRow.write_illegal {r : RegRow} {f : FieldRow} (hf : f ∈ r.fields) (hro : f.acc ≠ .ro) (hw1c : f.acc ≠ .w1c)
    {old new : Nat} (h : f.legal.ok (f.judged old new) = false) (lockOpen island : Bool) :
    ∃ e, r.write old new lockOpen island = .error e := by
  have hany : (r.fields.any fun f => f.acc != .ro && f.acc != .w1c && !f.legal.ok (f.judged old new)) = true :=
    List.any_eq_true.mpr ⟨f, hf, by simp [hro, hw1c, h]⟩
  unfold RegRow.write
  dsimp only
  split_ifs <;> exact ⟨_, rfl⟩

theorem calRow_write_lowGain {v : Nat} (h : bitsOf v 16 16 < 0x4000) (old : Nat) (lockOpen island : Bool) :
    ∃ e, calRow.write old v lockOpen island = .error e := by
  refine RegRow.write_illegal (f := ⟨16, 16, .rwl, 0x8000, .range 16384 65535⟩) (by simp [calRow]) (by decide)
    (by decide) ?_ _ _
  simp [Legal.ok, FieldRow.judged, FieldRow.after, Nat.not_le.mpr h]

/-- The addresses of a KS210 whose write is a command, not a word kept. -/
def commandAddrs : List Nat := [0x20050, 0x50000, 0x30020, 0x30034, 0x40008, 0x4000C]

/-- A write that the row of its register refuses leaves the cell as it is. -/
theorem Cell.writeReg_of_row_error (c : Cell) (now : Nat) {a v : Nat} {r : RegRow} {e : Refused} (hrow : cellRow a = some r)
    (hcmd : a ∉ commandAddrs) (hw : r.write (c.word a) v c.writable false = .error e) : (c.writeReg now a v).1 = c := by
  simp only [commandAddrs, List.mem_cons, List.not_mem_nil, or_false, not_or] at hcmd
  obtain ⟨htrip, hstat, hinj, hcal, htm, hbound⟩ := hcmd
  simp only [Cell.writeReg, hrow, if_neg htrip, if_neg hstat, if_neg hinj, if_neg hcal, if_neg htm, if_neg hbound, hw]
  split_ifs
  · rfl
  · rfl
  · cases e <;> rfl

theorem Cell.writeReg_lowGain (c : Cell) (now : Nat) {v ch : Nat} (hch : ch < 12) (hv : bitsOf v 16 16 < 0x4000) :
    (c.writeReg now (K.CAL_GAIN ch).addr v).1 = c := by
  obtain ⟨e, he⟩ := calRow_write_lowGain hv (c.word (K.CAL_GAIN ch).addr) c.writable false
  refine c.writeReg_of_row_error now (cellRow_CAL hch) ?_ he
  simp only [commandAddrs, K.CAL_GAIN, List.mem_cons, List.not_mem_nil, or_false]
  omega

/-! ### After reset -/

theorem Cell.reset_word_CAL {ch : Nat} (h : ch < 12) : Cell.reset.word (K.CAL_GAIN ch).addr = 0x80000000 := by
  show (cellReset (K.CAL_GAIN ch).addr).toNat = _
  rw [cellReset, cellRow_CAL h]
  rfl

theorem Cell.reset_CAL_OFF {ch : Nat} (h : ch < 12) : Cell.reset.rd (K.CAL_OFF ch) = 0 := by
  show bitsOf (Cell.reset.word (K.CAL_GAIN ch).addr) 0 16 = 0
  rw [Cell.reset_word_CAL h]
  rfl

theorem Cell.reset_CAL_GAIN {ch : Nat} (h : ch < 12) : Cell.reset.rd (K.CAL_GAIN ch) = 0x8000 := by
  show bitsOf (Cell.reset.word (K.CAL_GAIN ch).addr) 16 16 = 0x8000
  rw [Cell.reset_word_CAL h]
  rfl

theorem Cell.reset_signed (ch : Nat) : Cell.reset.signed ch = false := by
  have hdiff : Cell.reset.hon K.ADC_CFG_DIFF01 = false ∧ Cell.reset.hon K.ADC_CFG_DIFF23 = false := by decide +kernel
  simp [Cell.signed, hdiff]

/-- OFF 0 and GAIN 1.0 give the raw code back. -/
theorem Cell.reset_calibrated {ch raw : Nat} (hch : ch < 12) (hraw : raw < 2 ^ 16) :
    Cell.reset.calibrated ch raw = raw := by
  have hround : Cell.reset.rounded ch raw = raw := by
    have hoff : toSigned 16 0 = 0 := rfl
    rw [Cell.rounded, Cell.reset_CAL_OFF hch, Cell.reset_CAL_GAIN hch, hoff, Int.sub_zero, Cell.codeInt, Cell.reset_signed]
    exact rneDivInt_mul_self raw (by decide)
  rw [Cell.calibrated_unsigned (Cell.reset_signed ch), hround, clampInt_eq_max_min (by decide)]
  omega

/-- Settles O31: the rounded product is a nearest integer and the code its clamp; a result in range writes the words of
its channel only; the row of CAL refuses a lower GAIN; OFF 0 and GAIN 1.0 are the identity. -/
theorem calibratedCodeIsRoundedAndClamped : Obligations.CalibratedCodeIsRoundedAndClamped := by
  unfold Obligations.CalibratedCodeIsRoundedAndClamped
  refine ⟨?code, ?noFlag, ?gain, ?reset⟩
  case code =>
    intro c ch raw _ _
    obtain ⟨hnear, htie⟩ := c.nearestEven_rounded ch raw
    exact ⟨c.rounded ch raw, hnear, htie, c.codeInt_calibrated ch raw⟩
  case noFlag =>
    intro s id raw hlen hch
    refine ⟨_, exec_regularDone id raw s, ?_⟩
    have hword := fun {a : Nat} (ha : a < 0x60000) =>
      (s.cell id.toNat).word_regularDone_inRange s.now raw.toNat ha hlen hch
    have hlt : (s.cell id.toNat).element (s.cell id.toNat).ad.elem < 12 := by
      simp only [Cell.channelOk, Bool.and_eq_true, decide_eq_true_eq] at hch
      exact hch.1.1
    refine ⟨?_, ?_, ?_⟩
    · rw [Cell.rd_congr (hword (by simp only [K.RES_VALUE]; omega))]
      exact Cell.delivered_value _ _ (Cell.calibrated_lt _ _ _) _
    · rw [Cell.rd_congr (hword (by decide))]
      exact Cell.delivered_ovrFlag _ _ _ _
    · rw [Cell.on, Cell.rd_congr (hword (by simp only [K.RES_ST_OVR_LAST]; omega))]
      exact Cell.delivered_ovrLast _ _ _ _
  case gain => exact fun c now v ch hch hv _ => c.writeReg_lowGain now hch hv
  case reset => exact fun ch raw hch hraw => ⟨Cell.reset_CAL_OFF hch, Cell.reset_CAL_GAIN hch, Cell.reset_calibrated hch hraw⟩

end Sys2Proof.Machine
end

section
/-! The frame of each command (O3 to O6): its meaning answers a next state, in which the queue, the canonical form and
every part outside its footprint stand as before. Each follows from the frames of the operations that the meaning calls. -/

namespace Sys2Proof.Machine

/-- The command answers a next state, and what it keeps besides the parts in `F` is kept. -/
def Kept (F : List Part) (s : State) (o : Out) : Prop := ∃ t, o = .next t ∧ Keeps F s t

section Rules

variable {F : List Part} {z s t : State}

theorem kept_next (h : Keeps F s t) : Kept F s (.next t) := ⟨t, rfl, h⟩

theorem kept_ite {c : Prop} [Decidable c] {a b : Out} (ha : Kept F s a) (hb : Kept F s b) : Kept F s (if c then a else b) := by
  split <;> assumption

theorem kept_onCell (s : State) (k : Nat) (f : Cell → Cell) : Kept [.cells] s (.next (s.onCell k f)) :=
  kept_next (keeps_setCell _ _ (List.Subset.refl _) (.refl _ s))

theorem kept_write (s : State) (f : Fld) (v : Nat) : Kept allParts s (s.write f v) :=
  kept_next (keeps_regWrite s 0 f.addr v (List.Subset.refl _) (.refl _ s))

theorem kept_commanded {via : Via} {x : State × Nat} (hF : [.sent] ⊆ F) (h : Keeps F s x.1) : Kept F s (commanded via x) :=
  kept_next (keeps_answer _ _ _ _ hF h)

/-- A state written out field by field keeps what the state it updates keeps, with the untouched parts in one place. -/
theorem keeps_rec {pending0 : List Instr} {now0 : Nat} {nowFrac0 : Nat} {draws0 : Nat} {regs0 : NMap Word} {sent0 : List Emission}
    {sys0 : Sys} {ctl0 : Ctl} {cells0 : NMap Cell} {ports0 : NMap Port} {dly0 : NMap Dly} {lvl0 : Lvl} {inp0 : Inp}
    {tie0 : Tie} {acd0 : Acd} {tim0 : Tim} {isl0 : Isl} {flt0 : Flt} {acq0 : Acq} {sch0 : Sch} {mem0 : Mem}
    {hlt0 : Hlt} {od0 : Od}
    (h : Keeps F z s) (hpending : pending0 = s.pending) (hregs : regs0 = s.regs) (hcells : cells0 = s.cells)
    (hparts : (.now ∈ F ∨ now0 = s.now) ∧ (.nowFrac ∈ F ∨ nowFrac0 = s.nowFrac) ∧ (.draws ∈ F ∨ draws0 = s.draws) ∧ (.sent ∈ F
      ∨ sent0 = s.sent) ∧ (.sys ∈ F ∨ sys0 = s.sys) ∧ (.ctl ∈ F ∨ ctl0 = s.ctl) ∧ (.ports ∈ F ∨ ports0 = s.ports) ∧
      (.dly ∈ F ∨ dly0 = s.dly) ∧ (.lvl ∈ F ∨ lvl0 = s.lvl) ∧ (.inp ∈ F ∨ inp0 = s.inp) ∧ (.tie ∈ F ∨ tie0 = s.tie) ∧
      (.acd ∈ F ∨ acd0 = s.acd) ∧ (.tim ∈ F ∨ tim0 = s.tim) ∧ (.isl ∈ F ∨ isl0 = s.isl) ∧ (.flt ∈ F ∨ flt0 = s.flt) ∧
      (.acq ∈ F ∨ acq0 = s.acq) ∧ (.sch ∈ F ∨ sch0 = s.sch) ∧ (.mem ∈ F ∨ mem0 = s.mem) ∧ (.hlt ∈ F ∨ hlt0 = s.hlt) ∧
      (.od ∈ F ∨ od0 = s.od))
    (hb : mem0.bytes = s.mem.bytes) :
    KeepsLit F z (State.mk pending0 now0 nowFrac0 draws0 regs0 sent0 sys0 ctl0 cells0 ports0 dly0 lvl0 inp0 tie0 acd0 tim0 isl0 flt0 acq0
      sch0 mem0 hlt0 od0) := by
  obtain ⟨h1, h2, h3, h4, h5, h6, h7, h8, h9, h10, h11, h12, h13, h14, h15, h16, h17, h18, h19, h20⟩ := hparts
  exact keeps_mk h hpending hregs hcells h1 h2 h3 h4 h5 h6 h7 h8 h9 h10 h11 h12 h13 h14 h15 h16 h17 h18 h19 h20 hb

end Rules

theorem execPowerOn_kept (s : State) : Kept allParts s (execPowerOn s) :=
  kept_next (keeps_powerOn s (by decide) (.refl _ _))

theorem execSysRstNLow_kept (s : State) : Kept allParts s (execSysRstNLow s) := by
  refine kept_next ?_
  repeat' first
    | with_reducible first
      | assumption | exact .refl _ _ | apply keeps_enterReset | apply keeps_when | apply keeps_islandReset
    | decide | intro _ | simp only [keeps_lit] | with_reducible refine keeps_rec ?_ rfl rfl rfl ?_ ?_
    | with_reducible apply And.intro | exact Or.inl (by decide)

theorem execSysRstNHigh_kept (pairId : Bool) (s : State) :
    Kept [.regs, .sent, .sys, .tie, .flt, .acq, .mem] s (execSysRstNHigh pairId s) := by
  refine kept_next ?_
  repeat' first
    | with_reducible first
      | assumption | exact .refl _ _ | apply keeps_put | apply keeps_when | apply keeps_wr | apply keeps_endReset
      | apply keeps_ite
    | decide | intro _ | simp only [keeps_lit] | with_reducible refine keeps_rec ?_ rfl rfl rfl ?_ ?_
    | with_reducible apply And.intro | exact Or.inl (by decide)

theorem execSelfTestEnd_kept (report : StReport) (s : State) :
    Kept [.regs, .sent, .sys] s (execSelfTestEnd report s) := by
  refine kept_next ?_
  repeat' first
    | with_reducible first
      | assumption | exact .refl _ _ | apply keeps_when | apply keeps_writeReport | apply keeps_testEnds
    | decide | intro _

theorem execSelfTestTimeout_kept (step : Fin 6) (s : State) :
    Kept [.regs, .sent, .sys] s (execSelfTestTimeout step s) := by
  refine kept_next ?_
  repeat' first
    | with_reducible first
      | assumption | exact .refl _ _ | apply keeps_when | apply keeps_put | apply keeps_wr | apply keeps_testEnds
    | decide | intro _

theorem execSecureStartEnd_kept (res : SecResult) (s : State) : Kept allParts s (execSecureStartEnd res s) := by
  refine kept_next ?_
  repeat' first
    | with_reducible first
      | assumption | exact .refl _ _ | apply keeps_when | apply keeps_put | apply keeps_wr | apply keeps_foldl
      | apply keeps_enterSafeHold | apply keeps_ite
    | decide | intro _ | simp only [keeps_lit] | with_reducible refine keeps_rec ?_ rfl rfl rfl ?_ ?_
    | with_reducible apply And.intro | exact Or.inl (by decide)

theorem execConfigure_kept (via : Via) (s : State) : Kept [.regs, .sent, .sys, .acd] s (execConfigure via s) :=
  kept_commanded (by decide) (keeps_configure s (by decide) (.refl _ _))

theorem execEnergise_kept (via : Via) (s : State) :
    Kept [.draws, .regs, .sent, .sys, .ctl, .ports, .lvl, .acd] s (execEnergise via s) :=
  kept_commanded (by decide) (keeps_energise s (by decide) (.refl _ _))

theorem execPrepDeadline_kept (s : State) : Kept [.draws, .regs, .sent, .sys, .ports, .acd] s (execPrepDeadline s) :=
  kept_next (keeps_prepDeadline s (by decide) (.refl _ _))

theorem execEnergiseTakesEffect_kept (samples : Samples) (s : State) :
    Kept [.now, .draws, .regs, .sent, .sys, .ctl, .ports, .lvl, .inp, .tie, .acd, .flt, .acq, .mem] s (execEnergiseTakesEffect samples s) := by
  refine kept_next ?_
  repeat' first
    | with_reducible first
      | assumption | exact .refl _ _ | apply keeps_when | apply keeps_energiseDue | apply keeps_sampleInputs
    | decide | intro _

theorem execDeblock_kept (via : Via) (s : State) : Kept [.regs, .sent, .sys, .acd] s (execDeblock via s) :=
  kept_commanded (by decide) (keeps_deblock s (by decide) (.refl _ _))

theorem execDrydown_kept (via : Via) (s : State) : Kept [.regs, .sent, .sys, .acd] s (execDrydown via s) :=
  kept_commanded (by decide) (keeps_drydown s (by decide) (.refl _ _))

theorem execDryWaitEnd_kept (s : State) : Kept [.regs] s (execDryWaitEnd s) :=
  kept_next (keeps_dryWaitEnd s (by decide) (.refl _ _))

theorem execDryArmBlock_kept (arm : Fin 6) (s : State) : Kept [.regs, .sent, .sys] s (execDryArmBlock arm s) :=
  kept_next (keeps_dryArmBlock s _ (by decide) (.refl _ _))

theorem execDryTimeout_kept (s : State) : Kept [.regs, .sent, .sys, .tie, .flt, .acq, .mem] s (execDryTimeout s) :=
  kept_next (keeps_dryExpire s (by decide) (.refl _ _))

theorem execClear_kept (via : Via) (s : State) : Kept [.regs, .sent, .sys, .acd] s (execClear via s) :=
  kept_commanded (by decide) (keeps_clear s (by decide) (.refl _ _))

theorem execDeenergise_kept (via : Via) (s : State) : Kept [.regs, .sent, .sys, .acd] s (execDeenergise via s) :=
  kept_commanded (by decide) (keeps_deenergise s (by decide) (.refl _ _))

theorem execRestart_kept (via : Via) (key : BitVec 16) (s : State) : Kept allParts s (execRestart via key s) :=
  kept_commanded (by decide) (keeps_restart s _ (by decide) (.refl _ _))

theorem execPeriodBoundary_kept (samples : Samples) (follow : Option (Fin 8)) (s : State) :
    Kept allParts s (execPeriodBoundary samples follow s) := by
  refine kept_next ?_
  repeat' first
    | with_reducible first
      | assumption | exact .refl _ _ | apply keeps_boundary | apply keeps_odRun
    | decide

theorem execCollectionLaunch_kept (port : Fin 48) (s : State) :
    Kept [.regs, .sent, .sys, .ports, .tie, .flt, .acq, .mem] s (execCollectionLaunch port s) := by
  refine kept_next ?_
  repeat' first
    | with_reducible first
      | assumption | exact .refl _ _ | apply keeps_launch | apply keeps_send | apply keeps_handTail | apply keeps_ite
    | decide | intro _

theorem execControlEngineWindow_kept (errors : List EngineError) (s : State) :
    Kept [.regs, .sent, .sys, .ctl, .lvl, .tie, .acd, .flt, .acq, .mem] s (execControlEngineWindow errors s) :=
  kept_next (keeps_when _ _ (.refl _ _) fun s h => keeps_controlWindow s _ (by decide) h)

theorem execLevelEngineWindow_kept (s : State) :
    Kept [.draws, .regs, .sent, .sys, .ports, .lvl, .tie, .acd, .flt, .acq, .mem] s (execLevelEngineWindow s) := by
  refine kept_next ?_
  repeat' first
    | with_reducible first
      | assumption | exact .refl _ _ | apply keeps_when | apply keeps_levelWindow
    | decide | intro _

theorem execCellAdmission_kept (cell : BitVec 64) (s : State) : Kept [.lvl] s (execCellAdmission cell s) := by
  refine kept_next ?_
  repeat' first
    | with_reducible first
      | assumption | exact .refl _ _ | apply keeps_when | apply keeps_onView | apply keeps_ite
    | decide | intro _

theorem execCellMissIneligible_kept (cell : BitVec 64) (s : State) :
    Kept [.lvl] s (execCellMissIneligible cell s) := by
  refine kept_next ?_
  repeat' first
    | with_reducible first
      | assumption | exact .refl _ _ | apply keeps_when | apply keeps_onView | apply keeps_ite
    | decide | intro _

theorem execBypassRequest_kept (cell : BitVec 64) (s : State) :
    Kept [.regs, .sent, .sys, .lvl, .tie, .flt, .acq, .mem] s (execBypassRequest cell s) :=
  kept_next (keeps_when _ _ (.refl _ _) fun s h => keeps_requestBypass s _ (by decide) h)

theorem execEpochBypass_kept (cell : BitVec 64) (s : State) :
    Kept [.regs, .sent, .sys, .lvl, .tie, .flt, .acq, .mem] s (execEpochBypass cell s) :=
  kept_next (keeps_when _ _ (.refl _ _) fun s h => keeps_requestBypass s _ (by decide) h)

theorem execSwcDecay_kept (s : State) : Kept [.lvl] s (execSwcDecay s) :=
  kept_next (keeps_when _ _ (.refl _ _) fun s h => keeps_decay s (by decide) h)

theorem execRotationBar_kept (cell : BitVec 64) (s : State) : Kept [.lvl] s (execRotationBar cell s) := by
  refine kept_next ?_
  repeat' first
    | with_reducible first
      | assumption | exact .refl _ _ | apply keeps_when | apply keeps_onView
    | decide | intro _

theorem execCommandLaunch_kept (port : Fin 48) (s : State) : Kept allParts s (execCommandLaunch port s) := by
  refine kept_next ?_
  repeat' first
    | with_reducible first
      | assumption | exact .refl _ _ | apply keeps_commandLaunch | apply keeps_odRun
    | decide

theorem execLvlSyncInEdge_kept (s : State) :
    Kept [.draws, .regs, .sent, .sys, .ports, .lvl, .tie, .flt, .acq, .mem] s (execLvlSyncInEdge s) := by
  refine kept_next ?_
  repeat' first
    | with_reducible first
      | assumption | exact .refl _ _ | apply keeps_when | apply keeps_syncEdge
    | decide | intro _

theorem execCellBoundary_kept (cell : BitVec 64) (s : State) : Kept [.sent, .cells] s (execCellBoundary cell s) := by
  refine kept_next ?_
  repeat' first
    | with_reducible first
      | assumption | exact .refl _ _ | apply keeps_boundary | apply keeps_setCell | apply keeps_when
      | apply keeps_send
    | decide | intro _

theorem execSynciEdge_kept (cell : BitVec 64) (s : State) : Kept [.sent, .cells] s (execSynciEdge cell s) := by
  refine kept_next ?_
  repeat' first
    | with_reducible first
      | assumption | exact .refl _ _ | apply keeps_setCell | apply keeps_when | apply keeps_send
    | decide | intro _

theorem execBlockLock_kept (link : LinkEnd) (s : State) : Kept [.regs, .cells] s (execBlockLock link s) := by
  refine kept_next ?_
  repeat' first
    | with_reducible first
      | assumption | exact .refl _ _ | apply keeps_when | apply keeps_put | apply keeps_onCell | apply keeps_ite
    | decide | intro _ | simp only [keeps_lit] | with_reducible refine keeps_rec ?_ rfl rfl rfl ?_ ?_
    | with_reducible apply And.intro | exact Or.inl (by decide) | exact Or.inr rfl | rfl | split

theorem execBlockLockLoss_kept (link : LinkEnd) (s : State) :
    Kept [.regs, .sent, .sys, .cells, .tie, .flt, .acq, .mem] s (execBlockLockLoss link s) := by
  refine kept_next ?_
  repeat' first
    | with_reducible first
      | assumption | exact .refl _ _ | apply keeps_portLost | apply keeps_onCell | apply keeps_laneLost
      | apply keeps_when | apply keeps_put | apply keeps_inc
    | decide | intro _ | simp only [keeps_lit] | with_reducible refine keeps_rec ?_ rfl rfl rfl ?_ ?_
    | with_reducible apply And.intro | exact Or.inl (by decide) | exact Or.inr rfl | rfl | split

theorem execUpstreamSelected_kept (cell : BitVec 64) (port : Fin 2) (d2 d3 : BitVec 8) (s : State) :
    Kept [.sent, .cells] s (execUpstreamSelected cell port d2 d3 s) := by
  refine kept_next ?_
  repeat' first
    | with_reducible first
      | assumption | exact .refl _ _ | apply keeps_setCell | apply keeps_forL | apply keeps_send
    | decide | intro _

theorem execSegmentTrained_kept (link : LinkEnd) (d2 d3 members : BitVec 8) (prop : BitVec 16) (s : State) :
    Kept [.draws, .regs, .sent, .sys, .cells, .ports, .dly, .tie, .flt, .acq, .mem] s (execSegmentTrained link d2 d3 members prop s) := by
  refine kept_next ?_
  repeat' first
    | with_reducible first
      | assumption | exact .refl _ _ | apply keeps_when | apply keeps_portTrained | apply keeps_checkOver
      | apply keeps_onCell | apply keeps_startDly | apply keeps_segmentUp | apply keeps_ite
    | decide | intro _ | simp only [keeps_lit] | with_reducible refine keeps_rec ?_ rfl rfl rfl ?_ ?_
    | with_reducible apply And.intro | exact Or.inl (by decide) | exact Or.inr rfl | rfl | split

theorem execTrainFail_kept (port : Fin 48) (s : State) :
    Kept [.regs, .sent, .sys, .tie, .flt, .acq, .mem] s (execTrainFail port s) := by
  refine kept_next ?_
  repeat' first
    | with_reducible first
      | assumption | exact .refl _ _ | apply keeps_when | apply keeps_put | apply keeps_trainFailCause
    | decide | intro _

theorem execBlockOrderedSet_kept (cell : BitVec 64) (port : Fin 2) (d2 d3 : BitVec 8) (s : State) :
    Kept [.sent, .cells] s (execBlockOrderedSet cell port d2 d3 s) := by
  refine kept_ite (kept_next ?_) (kept_ite (kept_next ?_) (kept_next ?_))
  all_goals repeat' first
    | with_reducible first
      | assumption | exact .refl _ _ | apply keeps_setCell | apply keeps_when | apply keeps_send
    | decide | intro _

theorem execCommandFrameAtCell_kept (cell : BitVec 64) (port : Fin 2) (frame : List Byte) (s : State) :
    Kept [.draws, .regs, .sent, .sys, .cells, .ports, .tie, .flt, .acq, .mem] s (execCommandFrameAtCell cell port frame s) := by
  refine kept_next ?_
  repeat' first
    | with_reducible first
      | assumption | exact .refl _ _ | apply keeps_commandAtCell | apply keeps_raiseAt | apply keeps_ask
      | apply keeps_ite
    | decide | intro _ | simp only [keeps_lit] | with_reducible refine keeps_rec ?_ rfl rfl rfl ?_ ?_
    | with_reducible apply And.intro | exact Or.inl (by decide) | exact Or.inr rfl | rfl | split

theorem execCollectionFrameAtCell_kept (cell : BitVec 64) (port : Fin 3) (frame : List Byte) (s : State) :
    Kept [.sent, .cells] s (execCollectionFrameAtCell cell port frame s) := by
  refine kept_ite (kept_next ?_) (kept_next ?_)
  all_goals repeat' first
    | with_reducible first
      | assumption | exact .refl _ _ | apply keeps_onCell | apply keeps_setCell | apply keeps_when
      | apply keeps_send
    | decide | intro _

theorem execUpstreamOriginate_kept (cell : BitVec 64) (s : State) :
    Kept [.sent, .cells] s (execUpstreamOriginate cell s) := by
  refine kept_ite (kept_next ?_) (kept_next ?_)
  all_goals repeat' first
    | with_reducible first
      | assumption | exact .refl _ _ | apply keeps_setCell | apply keeps_send
    | decide

theorem execCollectionFrameReceived_kept (port : Fin 48) (frame : List Byte) (s : State) :
    Kept [.regs, .sent, .sys, .ports, .lvl, .tie, .flt, .acq, .mem] s (execCollectionFrameReceived port frame s) :=
  kept_next (keeps_collectionReceived s _ _ (by decide) (.refl _ _))

theorem execCommandFrameAtTail_kept (port : Fin 48) (frame : List Byte) (s : State) :
    Kept [.regs, .tie] s (execCommandFrameAtTail port frame s) :=
  kept_next (keeps_when _ _ (.refl _ _) fun s h => keeps_tailFrame s _ _ (by decide) h)

theorem execMbResponse_kept (port : Fin 48) (s : State) : Kept allParts s (execMbResponse port s) := by
  refine kept_next ?_
  repeat' first
    | with_reducible first
      | assumption | exact .refl _ _ | apply keeps_mbResponse | apply keeps_odRun
    | decide

theorem execMbTimeout_kept (port : Fin 48) (s : State) : Kept allParts s (execMbTimeout port s) := by
  refine kept_next ?_
  repeat' first
    | with_reducible first
      | assumption | exact .refl _ _ | apply keeps_mbTimeout | apply keeps_odRun
    | decide

theorem execCellJoinRetry_kept (cell : BitVec 64) (s : State) :
    Kept [.draws, .regs, .sent, .ports] s (execCellJoinRetry cell s) := by
  refine kept_next ?_
  repeat' first
    | with_reducible first
      | assumption | exact .refl _ _ | apply keeps_when | apply keeps_startJoin
    | decide | intro _

theorem execSarFault_kept (n : Fin 8) (s : State) :
    Kept [.regs, .sent, .sys, .tie, .flt, .acq, .mem] s (execSarFault n s) := by
  refine kept_next ?_
  repeat' first
    | with_reducible first
      | assumption | exact .refl _ _ | apply keeps_when | apply keeps_put | apply keeps_raise
    | decide | intro _

theorem execSdClkLoss_kept (d : Fin 24) (s : State) :
    Kept [.regs, .sent, .sys, .inp, .tie, .flt, .acq, .mem] s (execSdClkLoss d s) := by
  refine kept_next ?_
  repeat' first
    | with_reducible first
      | assumption | exact .refl _ _ | apply keeps_when | apply keeps_sdClear | apply keeps_put | apply keeps_raise
    | decide | intro _

theorem execSdModFault_kept (d : Fin 24) (level : Bool) (s : State) :
    Kept [.regs, .sent, .sys, .inp, .tie, .flt, .acq, .mem] s (execSdModFault d level s) := by
  refine kept_next ?_
  repeat' first
    | with_reducible first
      | assumption | exact .refl _ _ | apply keeps_when | apply keeps_sdClear | apply keeps_put | apply keeps_raise
    | decide | intro _

theorem execPiEdge_kept (i : Fin 4) (a b : Bool) (s : State) :
    Kept [.regs, .sent, .sys, .inp, .tie, .flt, .acq, .mem] s (execPiEdge n a b s) :=
  kept_next (keeps_when _ _ (.refl _ _) fun s h => keeps_piEdge s _ _ _ (by decide) h)

theorem execGpioEdge_kept (line : Fin 64) (level : Bool) (s : State) :
    Kept [.regs, .sent, .sys, .inp, .tie, .flt, .acq, .mem] s (execGpioEdge line level s) :=
  kept_next (keeps_when _ _ (.refl _ _) fun s h => keeps_gpioEdge s _ _ (by decide) h)

theorem execGpioChatterRelease_kept (line : Fin 64) (s : State) :
    Kept [.regs, .sent, .sys, .inp, .tie, .flt, .acq, .mem] s (execGpioChatterRelease line s) :=
  kept_next (keeps_when _ _ (.refl _ _) fun s h => keeps_gpioRelease s _ (by decide) h)

theorem execGpioStuck_kept (line : Fin 64) (s : State) :
    Kept [.regs, .sent, .sys, .tie, .flt, .acq, .mem] s (execGpioStuck line s) :=
  kept_next (keeps_when _ _ (.refl _ _) fun s h => keeps_gpioStuck s _ (by decide) h)

theorem execSetpointLost_kept (c : Fin 256) (s : State) :
    Kept [.regs, .sent, .sys, .tie, .flt, .acq, .mem] s (execSetpointLost c s) :=
  kept_next (keeps_when _ _ (.refl _ _) fun s h => keeps_spLose s _ (by decide) h)

theorem execFeedbackTimeoutDrop_kept (ctx : Fin 256) (j : Fin 16) (s : State) :
    Kept [.ctl] s (execFeedbackTimeoutDrop ctx j s) :=
  kept_next (keeps_when _ _ (.refl _ _) fun s h => keeps_fire s _ _ _ (by decide) h)

theorem execFrozenDrop_kept (ctx : Fin 256) (j : Fin 16) (s : State) : Kept [.ctl] s (execFrozenDrop ctx j s) :=
  kept_next (keeps_when _ _ (.refl _ _) fun s h => keeps_fire s _ _ _ (by decide) h)

theorem execGateDrop_kept (ctx : Fin 256) (j : Fin 16) (s : State) : Kept [.ctl] s (execGateDrop ctx j s) :=
  kept_next (keeps_when _ _ (.refl _ _) fun s h => keeps_fire s _ _ _ (by decide) h)

theorem execAutoReadmit_kept (ctx : Fin 256) (j : Fin 16) (s : State) : Kept [.ctl] s (execAutoReadmit ctx j s) :=
  kept_next (keeps_when _ _ (.refl _ _) fun s h => keeps_markReturn s _ _ (by decide) h)

theorem execCoastLimit_kept (ctx : Fin 256) (s : State) :
    Kept [.regs, .sent, .sys, .ctl, .tie, .flt, .acq, .mem] s (execCoastLimit ctx s) :=
  kept_next (keeps_when _ _ (.refl _ _) fun s h => keeps_coastExpire s _ (by decide) h)

theorem execDescriptorWrite_kept (addr value : BitVec 32) (s : State) :
    Kept allParts s (execDescriptorWrite addr value s) := by
  refine kept_next ?_
  repeat' first
    | with_reducible first
      | assumption | exact .refl _ _ | apply keeps_regWrite | apply keeps_ite
    | decide | intro _

theorem execCoefApertureAccess_kept (word : Fin 2048) (write : Option (BitVec 32)) (s : State) :
    Kept allParts s (execCoefApertureAccess word write s) := by
  refine kept_next ?_
  repeat' first
    | with_reducible first
      | assumption | exact .refl _ _ | apply keeps_regWrite | apply keeps_send
    | decide | intro _ | simp only [keeps_lit] | with_reducible refine keeps_rec ?_ rfl rfl rfl ?_ ?_
    | with_reducible apply And.intro | exact Or.inl (by decide) | exact Or.inr rfl | rfl | split

theorem execTieLaneTrained_kept (lane : Fin 2) (lowest highest d2 : BitVec 8) (s : State) :
    Kept [.regs, .sent, .sys, .dly, .tie, .flt, .acq, .mem] s (execTieLaneTrained lane lowest highest d2 s) :=
  kept_next (keeps_when _ _ (.refl _ _) fun s h => keeps_laneTrained s _ _ _ _ (by decide) h)

theorem execTieLinkDown_kept (s : State) :
    Kept [.regs, .sent, .sys, .tie, .flt, .acq, .mem] s (execTieLinkDown s) := by
  refine kept_next ?_
  repeat' first
    | with_reducible first
      | assumption | exact .refl _ _ | apply keeps_when | apply keeps_linkDown
    | decide | intro _

theorem execTieHoldExpiry_kept (s : State) :
    Kept [.regs, .sent, .sys, .tie, .flt, .acq, .mem] s (execTieHoldExpiry s) := by
  refine kept_next ?_
  repeat' first
    | with_reducible first
      | assumption | exact .refl _ _ | apply keeps_when | apply keeps_put | apply keeps_changeRole
    | decide | intro _ | simp only [keeps_lit] | with_reducible refine keeps_rec ?_ rfl rfl rfl ?_ ?_
    | with_reducible apply And.intro | exact Or.inl (by decide) | exact Or.inr rfl | rfl | split

theorem execTieWaitExpiry_kept (s : State) :
    Kept [.regs, .sent, .sys, .tie, .flt, .acq, .mem] s (execTieWaitExpiry s) :=
  kept_next (keeps_when _ _ (.refl _ _) fun s h => keeps_changeRole s _ (by decide) h)

theorem execInputMessage_kept (lane : Fin 2) (message : List Byte) (s : State) :
    Kept allParts s (execInputMessage lane message s) := by
  refine kept_next ?_
  repeat' first
    | with_reducible first
      | assumption | exact .refl _ _ | apply keeps_tieMessageIn | apply keeps_when | apply keeps_takeInput
    | decide | intro _

theorem execLvlwMessage_kept (lane : Fin 2) (message : List Byte) (s : State) :
    Kept allParts s (execLvlwMessage lane message s) := by
  refine kept_next ?_
  repeat' first
    | with_reducible first
      | assumption | exact .refl _ _ | apply keeps_tieMessageIn | apply keeps_when | apply keeps_takeLvlw
    | decide | intro _

theorem execSlotReq_kept (lane : Fin 2) (message : List Byte) (s : State) :
    Kept [.regs, .sent, .sys, .tie, .flt, .acq, .mem] s (execSlotReq lane message s) := by
  refine kept_next ?_
  repeat' first
    | with_reducible first
      | assumption | exact .refl _ _ | apply keeps_tieMessageIn | apply keeps_sendTie | apply keeps_ite
    | decide | intro _

theorem execSlotMessage_kept (lane : Fin 2) (message : List Byte) (s : State) :
    Kept [.regs, .sent, .sys, .ports, .lvl, .tie, .flt, .acq, .mem] s (execSlotMessage lane message s) := by
  refine kept_next ?_
  repeat' first
    | with_reducible first
      | assumption | exact .refl _ _ | apply keeps_tieMessageIn | apply keeps_when | apply keeps_takeCopies
    | decide | intro _

theorem execDigest_kept (lane : Fin 2) (message : List Byte) (s : State) :
    Kept [.regs, .sent, .sys, .tie, .flt, .acq, .mem] s (execDigest lane message s) := by
  refine kept_next ?_
  repeat' first
    | with_reducible first
      | assumption | exact .refl _ _ | apply keeps_tieMessageIn | apply keeps_compareDigests
    | decide | intro _ | simp only [keeps_lit] | with_reducible refine keeps_rec ?_ rfl rfl rfl ?_ ?_
    | with_reducible apply And.intro | exact Or.inl (by decide)

theorem execTailframe_kept (lane : Fin 2) (message : List Byte) (s : State) :
    Kept [.regs, .sent, .sys, .ports, .lvl, .tie, .flt, .acq, .mem] s (execTailframe lane message s) := by
  refine kept_next ?_
  repeat' first
    | with_reducible first
      | assumption | exact .refl _ _ | apply keeps_tieMessageIn | apply keeps_collectionAt | apply keeps_onPort
      | apply keeps_when | apply keeps_send | apply keeps_ite
    | decide | intro _

theorem execControlYield_kept (lane : Fin 2) (message : List Byte) (s : State) :
    Kept [.regs, .sent, .sys, .tie, .flt, .acq, .mem] s (execControlYield lane message s) := by
  refine kept_next ?_
  repeat' first
    | with_reducible first
      | assumption | exact .refl _ _ | apply keeps_tieMessageIn | apply keeps_when
    | decide | intro _ | simp only [keeps_lit] | with_reducible refine keeps_rec ?_ rfl rfl rfl ?_ ?_
    | with_reducible apply And.intro | exact Or.inl (by decide)

theorem execControlTakeover_kept (lane : Fin 2) (message : List Byte) (s : State) :
    Kept [.regs, .sent, .sys, .tie, .flt, .acq, .mem] s (execControlTakeover lane message s) := by
  refine kept_next ?_
  repeat' first
    | with_reducible first
      | assumption | exact .refl _ _ | apply keeps_tieMessageIn | apply keeps_when | apply keeps_yield
    | decide | intro _

theorem execControlRole_kept (lane : Fin 2) (message : List Byte) (s : State) :
    Kept [.regs, .sent, .sys, .tie, .flt, .acq, .mem] s (execControlRole lane message s) := by
  refine kept_next ?_
  repeat' first
    | with_reducible first
      | assumption | exact .refl _ _ | apply keeps_tieMessageIn | apply keeps_when | apply keeps_sendImage
    | decide | intro _

theorem execControlBroken_kept (lane : Fin 2) (message : List Byte) (s : State) :
    Kept [.regs, .sent, .sys, .tie, .flt, .acq, .mem] s (execControlBroken lane message s) := by
  refine kept_next ?_
  repeat' first
    | with_reducible first
      | assumption | exact .refl _ _ | apply keeps_tieMessageIn | apply keeps_when | apply keeps_setBroken
      | apply keeps_showBroken
    | decide | intro _

theorem execControlIntact_kept (lane : Fin 2) (message : List Byte) (s : State) :
    Kept [.regs, .sent, .sys, .tie, .flt, .acq, .mem] s (execControlIntact lane message s) := by
  refine kept_next ?_
  repeat' first
    | with_reducible first
      | assumption | exact .refl _ _ | apply keeps_tieMessageIn | apply keeps_when | apply keeps_setBroken
      | apply keeps_showBroken
    | decide | intro _

theorem execSweep_kept (lane : Fin 2) (message : List Byte) (s : State) :
    Kept [.regs, .sent, .sys, .ctl, .lvl, .tie, .flt, .acq, .mem] s (execSweep lane message s) := by
  refine kept_next ?_
  repeat' first
    | with_reducible first
      | assumption | exact .refl _ _ | apply keeps_tieMessageIn | apply keeps_when | apply keeps_applySweep
    | decide | intro _

theorem execImage_kept (lane : Fin 2) (message : List Byte) (s : State) :
    Kept allParts s (execImage lane message s) := by
  refine kept_next ?_
  repeat' first
    | with_reducible first
      | assumption | exact .refl _ _ | apply keeps_tieMessageIn | apply keeps_when | apply keeps_forN
      | apply keeps_takeImage
    | decide | intro _

theorem execMailboxMessage_kept (lane : Fin 2) (message : List Byte) (s : State) :
    Kept [.draws, .regs, .sent, .sys, .ports, .tie, .flt, .acq, .mem] s (execMailboxMessage lane message s) := by
  refine kept_next ?_
  repeat' first
    | with_reducible first
      | assumption | exact .refl _ _ | apply keeps_tieMessageIn | apply keeps_onPort | apply keeps_nextOwn
      | apply keeps_ite
    | decide | intro _

theorem execHealthMessage_kept (lane : Fin 2) (message : List Byte) (s : State) :
    Kept [.regs, .sent, .sys, .tie, .flt, .acq, .mem] s (execHealthMessage lane message s) := by
  refine kept_next ?_
  repeat' first
    | with_reducible first
      | assumption | exact .refl _ _ | apply keeps_tieMessageIn | apply keeps_forN | apply keeps_wr
      | apply keeps_causeAbsent
    | decide | intro _ | simp only [keeps_lit] | with_reducible refine keeps_rec ?_ rfl rfl rfl ?_ ?_
    | with_reducible apply And.intro | exact Or.inl (by decide)

theorem execYieldInChange_kept (level : Bool) (s : State) : Kept [.regs, .tie] s (execYieldInChange level s) := by
  refine kept_next ?_
  repeat' first
    | with_reducible first
      | assumption | exact .refl _ _ | apply keeps_put | apply keeps_causeAbsent | apply keeps_ite
    | decide | intro _ | simp only [keeps_lit] | with_reducible refine keeps_rec ?_ rfl rfl rfl ?_ ?_
    | with_reducible apply And.intro | exact Or.inl (by decide)

theorem execTakeover_kept (s : State) :
    Kept [.regs, .sent, .sys, .ports, .tie, .flt, .acq, .mem] s (execTakeover s) :=
  kept_next (keeps_when _ _ (.refl _ _) fun s h => keeps_takeover s _ (by decide) h)

theorem execYieldPinFault_kept (s : State) :
    Kept [.regs, .sent, .sys, .tie, .flt, .acq, .mem] s (execYieldPinFault s) :=
  kept_next (keeps_yieldPinBad s (by decide) (.refl _ _))

theorem execStrandBroken_kept (port : Fin 48) (s : State) :
    Kept [.regs, .sent, .sys, .tie, .flt, .acq, .mem] s (execStrandBroken port s) :=
  kept_next (keeps_strandBroken s _ (by decide) (.refl _ _))

theorem execStrandIntact_kept (port : Fin 48) (s : State) :
    Kept [.regs, .sent, .sys, .ports, .tie, .flt, .acq, .mem] s (execStrandIntact port s) :=
  kept_next (keeps_strandIntact s _ (by decide) (.refl _ _))

theorem execTailTrainingStart_kept (port : Fin 48) (s : State) : Kept [.sent] s (execTailTrainingStart port s) :=
  kept_next (keeps_when _ _ (.refl _ _) fun s h => keeps_send s _ (by decide) h)

theorem execJoinImageComplete_kept (state : Fin 8) (s : State) :
    Kept [.regs, .sent, .sys, .ctl, .lvl, .tie] s (execJoinImageComplete state s) := by
  refine kept_next ?_
  repeat' first
    | with_reducible first
      | assumption | exact .refl _ _ | apply keeps_when | apply keeps_followLayout | apply keeps_put
      | apply keeps_goto
    | decide | intro _ | simp only [keeps_lit] | with_reducible refine keeps_rec ?_ rfl rfl rfl ?_ ?_
    | with_reducible apply And.intro | exact Or.inl (by decide)

theorem execJoinComplete_kept (s : State) :
    Kept [.regs, .sent, .sys, .tie, .flt, .acq, .mem] s (execJoinComplete s) :=
  kept_next (keeps_joinEnds s (by decide) (.refl _ _))

theorem execTieSwitch_kept (key : BitVec 16) (s : State) : Kept [.tie] s (execTieSwitch key s) := by
  refine kept_next ?_
  repeat' first
    | with_reducible first
      | assumption | exact .refl _ _ | apply keeps_when
    | decide | intro _ | simp only [keeps_lit] | with_reducible refine keeps_rec ?_ rfl rfl rfl ?_ ?_
    | with_reducible apply And.intro | exact Or.inl (by decide)

theorem execTieDemote_kept (key : BitVec 16) (s : State) : Kept [.tie] s (execTieDemote key s) := by
  refine kept_next ?_
  repeat' first
    | with_reducible first
      | assumption | exact .refl _ _ | apply keeps_when
    | decide | intro _ | simp only [keeps_lit] | with_reducible refine keeps_rec ?_ rfl rfl rfl ?_ ?_
    | with_reducible apply And.intro | exact Or.inl (by decide)

theorem execTieJoin_kept (key : BitVec 16) (s : State) : Kept [.regs, .tie] s (execTieJoin key s) := by
  refine kept_next ?_
  repeat' first
    | with_reducible first
      | assumption | exact .refl _ _ | apply keeps_when | apply keeps_startJoining
    | decide | intro _

theorem execTieClr_kept (s : State) : Kept [.regs] s (execTieClr s) := by
  refine kept_next ?_
  repeat' first | (with_reducible first | assumption | exact .refl _ _ | apply keeps_setWord) | decide

theorem execHealthSend_kept (s : State) : Kept [.draws, .sent, .tie] s (execHealthSend s) := by
  refine kept_next ?_
  repeat' first
    | with_reducible first
      | assumption | exact .refl _ _ | apply keeps_draw | apply keeps_sendTie | apply keeps_ite
    | decide | intro _ | simp only [keeps_lit] | with_reducible refine keeps_rec ?_ rfl rfl rfl ?_ ?_
    | with_reducible apply And.intro | exact Or.inl (by decide)

theorem execHealthLate_kept (s : State) : Kept [.regs, .sent, .sys, .tie, .flt, .acq, .mem] s (execHealthLate s) := by
  refine kept_next ?_
  repeat' first
    | with_reducible first
      | assumption | exact .refl _ _ | apply keeps_healthMissed
    | decide | intro _ | simp only [keeps_lit] | with_reducible refine keeps_rec ?_ rfl rfl rfl ?_ ?_
    | with_reducible apply And.intro | exact Or.inl (by decide)

theorem execDualHead_kept (s : State) : Kept [.regs, .sent, .tie, .acq, .mem] s (execDualHead s) := by
  refine kept_next ?_
  repeat' first
    | with_reducible first
      | assumption | exact .refl _ _ | apply keeps_when | apply keeps_put | apply keeps_yield
    | decide | intro _

theorem execAccordPortTrained_kept (port : Fin 4) (lowest highest d2 : BitVec 8) (prop : BitVec 16) (ownPair : Bool) (s : State) :
    Kept [.regs, .sent, .sys, .dly, .tie, .flt, .acq, .mem] s (execAccordPortTrained port lowest highest d2 prop ownPair s) :=
  kept_next (keeps_when _ _ (.refl _ _) fun s h => keeps_accordTrained s _ _ _ _ _ _ (by decide) h)

theorem execAccordFrameForward_kept (port : Fin 4) (frame : List Byte) (s : State) :
    Kept [.sent] s (execAccordFrameForward port frame s) :=
  kept_next (keeps_when _ _ (.refl _ _) fun s h => keeps_forwardAccord s _ (by decide) h)

theorem execAgg_kept (port : Fin 4) (frame : List Byte) (s : State) :
    Kept [.regs, .acd] s (execAgg port frame s) := by
  refine kept_next ?_
  repeat' first
    | with_reducible first
      | assumption | exact .refl _ _ | apply keeps_accordIn | apply keeps_takeValues | apply keeps_takeReport
    | decide | intro _ | simp only [keeps_lit] | with_reducible refine keeps_rec ?_ rfl rfl rfl ?_ ?_
    | with_reducible apply And.intro | exact Or.inl (by decide)

theorem execDist_kept (port : Fin 4) (frame : List Byte) (s : State) :
    Kept [.regs, .acd] s (execDist port frame s) := by
  refine kept_next ?_
  repeat' first
    | with_reducible first
      | assumption | exact .refl _ _ | apply keeps_accordIn | apply keeps_takeValues | apply keeps_takeReport
      | apply keeps_ite
    | decide | intro _ | simp only [keeps_lit] | with_reducible refine keeps_rec ?_ rfl rfl rfl ?_ ?_
    | with_reducible apply And.intro | exact Or.inl (by decide)

theorem execStage_kept (port : Fin 4) (frame : List Byte) (s : State) :
    Kept [.draws, .regs, .sent, .sys, .ctl, .ports, .lvl, .acd] s (execStage port frame s) := by
  refine kept_next ?_
  repeat' first
    | with_reducible first
      | assumption | exact .refl _ _ | apply keeps_accordIn | apply keeps_stagedCode | apply keeps_sendAck
      | apply keeps_energise | apply keeps_energiseStarts | apply keeps_put | apply keeps_forL | apply keeps_wr
      | apply keeps_ite | apply keeps_ite_fst
    | decide | intro _ | simp only [keeps_lit] | with_reducible refine keeps_rec ?_ rfl rfl rfl ?_ ?_
    | with_reducible apply And.intro | exact Or.inl (by decide)

theorem execAck_kept (port : Fin 4) (frame : List Byte) (s : State) :
    Kept [.regs, .sent, .acd] s (execAck port frame s) := by
  refine kept_next ?_
  repeat' first
    | with_reducible first
      | assumption | exact .refl _ _ | apply keeps_accordIn | apply keeps_putBit | apply keeps_refusalKnown
      | apply keeps_ite
    | decide | intro _ | simp only [keeps_lit] | with_reducible refine keeps_rec ?_ rfl rfl rfl ?_ ?_
    | with_reducible apply And.intro | exact Or.inl (by decide) | exact Or.inr rfl | rfl | split

theorem execCommit_kept (port : Fin 4) (frame : List Byte) (s : State) :
    Kept [.regs, .sent, .sys, .acd] s (execCommit port frame s) := by
  refine kept_next ?_
  repeat' first
    | with_reducible first
      | assumption | exact .refl _ _ | apply keeps_accordIn | apply keeps_energise | apply keeps_commitChange
      | apply keeps_when | apply keeps_forL | apply keeps_sendStaged | apply keeps_ite
    | decide | intro _ | simp only [keeps_lit] | with_reducible refine keeps_rec ?_ rfl rfl rfl ?_ ?_
    | with_reducible apply And.intro | exact Or.inl (by decide) | exact Or.inr rfl | rfl | split

theorem execCancel_kept (port : Fin 4) (frame : List Byte) (s : State) :
    Kept [.draws, .regs, .sent, .sys, .ports, .acd] s (execCancel port frame s) := by
  refine kept_next ?_
  repeat' first
    | with_reducible first
      | assumption | exact .refl _ _ | apply keeps_accordIn | apply keeps_revert | apply keeps_ite
    | decide | intro _ | simp only [keeps_lit] | with_reducible refine keeps_rec ?_ rfl rfl rfl ?_ ?_
    | with_reducible apply And.intro | exact Or.inl (by decide) | exact Or.inr rfl | rfl | split

theorem execOdreq_kept (port : Fin 4) (frame : List Byte) (s : State) : Kept allParts s (execOdreq port frame s) := by
  refine kept_next ?_
  repeat' first
    | with_reducible first
      | assumption | exact .refl _ _ | apply keeps_accordIn | apply keeps_addJob | apply keeps_odRun | apply keeps_ite
    | decide | intro _ | simp only [keeps_lit] | with_reducible refine keeps_rec ?_ rfl rfl rfl ?_ ?_
    | with_reducible apply And.intro | exact Or.inl (by decide) | exact Or.inr rfl | rfl | split
    | exact keeps_openClient _ _ (by decide) (by assumption) _ (by assumption)

theorem execOdrsp_kept (port : Fin 4) (frame : List Byte) (s : State) : Kept allParts s (execOdrsp port frame s) := by
  refine kept_next ?_
  repeat' first
    | with_reducible first
      | assumption | exact .refl _ _ | apply keeps_accordIn | apply keeps_routedAnswers | apply keeps_odRun
    | decide | intro _ | simp only [keeps_lit] | with_reducible refine keeps_rec ?_ rfl rfl rfl ?_ ?_
    | with_reducible apply And.intro | exact Or.inl (by decide) | exact Or.inr rfl | rfl | split

theorem execOdrspTimeout_kept (tag : BitVec 16) (s : State) : Kept allParts s (execOdrspTimeout tag s) := by
  refine kept_next ?_
  repeat' first
    | with_reducible first
      | assumption | exact .refl _ _ | apply keeps_foldl | apply keeps_putJob | apply keeps_odRun
    | decide | intro _ | simp only [keeps_lit] | with_reducible refine keeps_rec ?_ rfl rfl rfl ?_ ?_
    | with_reducible apply And.intro | exact Or.inl (by decide) | exact Or.inr rfl | rfl | split

theorem execLeadElection_kept (level : Fin 1024) (cand : BitVec 8) (s : State) :
    Kept [.regs] s (execLeadElection level cand s) :=
  kept_next (keeps_when _ _ (.refl _ _) fun s h => keeps_elect s _ _ (by decide) h)

theorem execStageDeadline_kept (s : State) : Kept [.regs, .sys, .acd] s (execStageDeadline s) := by
  refine kept_next ?_
  repeat' first
    | with_reducible first
      | assumption | exact .refl _ _ | apply keeps_commitOwn | apply keeps_stageDeadline
    | decide

theorem execActivationInstant_kept (s : State) : Kept allParts s (execActivationInstant s) :=
  kept_next (keeps_activation s (by decide) (.refl _ _))

theorem execStageRevert_kept (s : State) :
    Kept [.draws, .regs, .sent, .sys, .ports, .tie, .acd, .flt, .acq, .mem] s (execStageRevert s) :=
  kept_next (keeps_stageRevert s (by decide) (.refl _ _))

theorem execAccordMemberLost_kept (level : Fin 1024) (member : Fin 8) (s : State) :
    Kept [.regs, .sent, .sys, .tie, .acd, .flt, .acq, .mem] s (execAccordMemberLost level member s) := by
  refine kept_next ?_
  repeat' first
    | with_reducible first
      | assumption | exact .refl _ _ | apply keeps_when | apply keeps_memberLost
    | decide | intro _ | simp only [keeps_lit] | with_reducible refine keeps_rec ?_ rfl rfl rfl ?_ ?_
    | with_reducible apply And.intro | exact Or.inl (by decide)

theorem execAccordLeadLost_kept (level : Fin 1024) (s : State) :
    Kept [.regs, .sent, .sys, .tie, .acd, .flt, .acq, .mem] s (execAccordLeadLost level s) := by
  refine kept_next ?_
  repeat' first
    | with_reducible first
      | assumption | exact .refl _ _ | apply keeps_when | apply keeps_leadLost
    | decide | intro _ | simp only [keeps_lit] | with_reducible refine keeps_rec ?_ rfl rfl rfl ?_ ?_
    | with_reducible apply And.intro | exact Or.inl (by decide)

theorem execAcqFrameArm_kept (port : Fin 4) (frame : List Byte) (s : State) :
    Kept [.regs, .sent, .acd, .flt, .acq] s (execAcqFrameArm port frame s) := by
  refine kept_next ?_
  repeat' first
    | with_reducible first
      | assumption | exact .refl _ _ | apply keeps_acqFrame | apply keeps_wr | apply keeps_acqStart
      | apply keeps_acqDown | apply keeps_ite
    | decide | intro _

theorem execAcqFrameReq_kept (port : Fin 4) (frame : List Byte) (s : State) :
    Kept [.regs, .sent, .acd, .acq] s (execAcqFrameReq port frame s) := by
  refine kept_next ?_
  repeat' first
    | with_reducible first
      | assumption | exact .refl _ _ | apply keeps_acqFrame | apply keeps_when | apply keeps_acqUp | apply keeps_ite
    | decide | intro _ | simp only [keeps_lit] | with_reducible refine keeps_rec ?_ rfl rfl rfl ?_ ?_
    | with_reducible apply And.intro | exact Or.inl (by decide)

theorem execAcqFrameTrig_kept (port : Fin 4) (frame : List Byte) (s : State) :
    Kept [.regs, .sent, .acd, .acq, .mem] s (execAcqFrameTrig port frame s) := by
  refine kept_next ?_
  repeat' first
    | with_reducible first
      | assumption | exact .refl _ _ | apply keeps_acqFrame | apply keeps_acqDown | apply keeps_beginRecord
      | apply keeps_copyRows | apply keeps_acqClose | apply keeps_ite
    | decide | intro _

theorem execAcqFrameClosed_kept (port : Fin 4) (frame : List Byte) (s : State) :
    Kept [.regs, .sent, .acd, .acq] s (execAcqFrameClosed port frame s) := by
  refine kept_next ?_
  repeat' first
    | with_reducible first
      | assumption | exact .refl _ _ | apply keeps_acqFrame | apply keeps_when | apply keeps_leaveClose
    | decide | intro _ | simp only [keeps_lit] | with_reducible refine keeps_rec ?_ rfl rfl rfl ?_ ?_
    | with_reducible apply And.intro | exact Or.inl (by decide)

theorem execAcqFrameDisarm_kept (port : Fin 4) (frame : List Byte) (s : State) :
    Kept [.regs, .sent, .acd, .acq, .mem] s (execAcqFrameDisarm port frame s) := by
  refine kept_next ?_
  repeat' first
    | with_reducible first
      | assumption | exact .refl _ _ | apply keeps_acqFrame | apply keeps_acqStop | apply keeps_acqDown
    | decide | intro _

theorem execTimSetGo_kept (value : BitVec 32) (s : State) :
    Kept [.now, .nowFrac, .draws, .regs, .sent, .sys, .cells, .ports, .tim] s (execTimSetGo value s) :=
  kept_next (keeps_timSetGo s _ (by decide) (.refl _ _))

theorem execPtpMessage_kept (port : Fin 2) (domain : BitVec 8) (msg : PtpMsg) (s : State) :
    Kept [.now, .nowFrac, .draws, .regs, .sent, .sys, .cells, .ports, .tie, .tim, .flt, .acq, .mem] s (execPtpMessage port domain msg s) :=
  kept_next (keeps_when _ _ (.refl _ _) fun s h => keeps_ptpMessage s _ _ (by decide) h)

theorem execAnnounceTimeout_kept (s : State) :
    Kept [.regs, .sent, .sys, .tie, .flt, .acq, .mem] s (execAnnounceTimeout s) := by
  refine kept_next ?_
  repeat' first
    | with_reducible first
      | assumption | exact .refl _ _ | apply keeps_when | apply keeps_put | apply keeps_wr | apply keeps_causePresent
    | decide | intro _

theorem execHoldoverLimit_kept (s : State) : Kept [.tim] s (execHoldoverLimit s) := by
  refine kept_next ?_
  repeat' first
    | with_reducible first
      | assumption | exact .refl _ _ | apply keeps_when
    | decide | intro _ | simp only [keeps_lit] | with_reducible refine keeps_rec ?_ rfl rfl rfl ?_ ?_
    | with_reducible apply And.intro | exact Or.inl (by decide)

theorem execTxtsNext_kept (port : Fin 2) (s : State) : Kept [.tim] s (execTxtsNext port s) := by
  refine kept_next ?_
  repeat' first
    | with_reducible first
      | assumption | exact .refl _ _
    | decide | intro _ | simp only [keeps_lit] | with_reducible refine keeps_rec ?_ rfl rfl rfl ?_ ?_
    | with_reducible apply And.intro | exact Or.inl (by decide)

theorem execLaunchPush_kept (port : Fin 2) (value : BitVec 32) (s : State) :
    Kept [.regs, .tim] s (execLaunchPush port value s) :=
  kept_next (keeps_launchPush s _ _ (by decide) (.refl _ _))

theorem execTimedLaunch_kept (port : Fin 2) (s : State) : Kept [.regs, .sent, .tim] s (execTimedLaunch port s) :=
  kept_next (keeps_timedLaunch s _ (by decide) (.refl _ _))

theorem execDlyReq_kept (link : LinkEnd) (d2 d3 : BitVec 8) (s : State) :
    Kept [.regs, .cells, .dly] s (execDlyReq link d2 d3 s) := by
  refine kept_next ?_
  repeat' first
    | with_reducible first
      | assumption | exact .refl _ _ | apply keeps_onDly | apply keeps_erroredBlock | apply keeps_ite
    | decide | intro _

theorem execDlyRspSend_kept (link : LinkEnd) (s : State) : Kept [.sent, .dly] s (execDlyRspSend link s) := by
  refine kept_next ?_
  repeat' first
    | with_reducible first
      | assumption | exact .refl _ _ | apply keeps_answer | apply keeps_onDly | apply keeps_sendSet
    | decide | intro _ | simp only [keeps_lit] | with_reducible refine keeps_rec ?_ rfl rfl rfl ?_ ?_
    | with_reducible apply And.intro | exact Or.inl (by decide) | exact Or.inr rfl | rfl | split

theorem execDlyRsp_kept (link : LinkEnd) (d2 d3 : BitVec 8) (rtt : BitVec 40) (s : State) :
    Kept [.regs, .sent, .sys, .cells, .ports, .dly, .tie, .flt, .acq, .mem] s (execDlyRsp link d2 d3 rtt s) := by
  refine kept_next ?_
  repeat' first
    | with_reducible first
      | assumption | exact .refl _ _ | apply keeps_dlyRsp | apply keeps_erroredBlock | apply keeps_ite
    | decide | intro _

theorem execVddSafePowerOn_kept (s : State) :
    Kept [.regs, .sent, .sys, .tie, .isl, .flt, .acq, .mem] s (execVddSafePowerOn s) := by
  refine kept_next ?_
  repeat' first
    | with_reducible first
      | assumption | exact .refl _ _ | apply keeps_islandReset | apply keeps_when | apply keeps_wr
    | decide | intro _

theorem execIslandTestEnd_kept (fails : BitVec 6) (s : State) :
    Kept [.regs, .sent, .sys, .tie, .isl, .flt, .acq, .mem] s (execIslandTestEnd fails s) := by
  refine kept_next ?_
  repeat' first
    | with_reducible first
      | assumption | exact .refl _ _ | apply keeps_wr | apply keeps_islandUpdate | apply keeps_islandHalt
      | apply keeps_ite
    | decide | intro _

theorem execParamSetPoll_kept (found : Option (List ParamWord)) (s : State) :
    Kept [.regs, .sent, .sys, .tie, .isl, .flt, .acq, .mem] s (execParamSetPoll found s) := by
  refine kept_next ?_
  repeat' first
    | with_reducible first
      | assumption | exact .refl _ _ | apply keeps_loadSet | apply keeps_ite | apply keeps_optmap
    | decide | intro _ | split

theorem execIslandLockstepMismatch_kept (s : State) :
    Kept [.regs, .sent, .sys, .tie, .isl, .flt, .acq, .mem] s (execIslandLockstepMismatch s) :=
  kept_next (keeps_islandHalt s _ (by decide) (.refl _ _))

theorem execIslandWatchdogExpiry_kept (s : State) :
    Kept [.regs, .sent, .sys, .tie, .isl, .flt, .acq, .mem] s (execIslandWatchdogExpiry s) :=
  kept_next (keeps_islandHalt s _ (by decide) (.refl _ _))

theorem execIslandMemoryError_kept (corrected : Bool) (s : State) :
    Kept [.regs, .sent, .sys, .tie, .isl, .flt, .acq, .mem] s (execIslandMemoryError corrected s) := by
  refine kept_next ?_
  repeat' first
    | with_reducible first
      | assumption | exact .refl _ _ | apply keeps_inc | apply keeps_islandHalt | apply keeps_ite
    | decide | intro _

theorem execIslandOscDeviation_kept (absent : Bool) (dev : BitVec 8) (s : State) :
    Kept [.regs, .sent, .sys, .tie, .isl, .flt, .acq, .mem] s (execIslandOscDeviation absent dev s) := by
  refine kept_next ?_
  repeat' first
    | with_reducible first
      | assumption | exact .refl _ _ | apply keeps_put | apply keeps_causesAre | apply keeps_wr | apply keeps_when
      | apply keeps_islandHalt | apply keeps_ite
    | decide | intro _

theorem execSafeMonitorTrip_kept (s : State) :
    Kept [.regs, .sent, .sys, .tie, .isl, .flt, .acq, .mem] s (execSafeMonitorTrip s) := by
  refine kept_next ?_
  repeat' first
    | with_reducible first
      | assumption | exact .refl _ _ | apply keeps_islandUpdate
    | decide | intro _ | simp only [keeps_lit] | with_reducible refine keeps_rec ?_ rfl rfl rfl ?_ ?_
    | with_reducible apply And.intro | exact Or.inl (by decide)

theorem execIslandCycle_kept (pins : SafePins) (s : State) :
    Kept [.regs, .sent, .sys, .tie, .isl, .flt, .acq, .mem] s (execIslandCycle pins s) := by
  refine kept_next ?_
  repeat' first
    | with_reducible first
      | assumption | exact .refl _ _ | apply keeps_put | apply keeps_wr | apply keeps_forN | apply keeps_siCycle
      | apply keeps_noteAgreement | apply keeps_islandUpdate | apply keeps_applyCommit | apply keeps_ite
    | decide | intro _ | simp only [keeps_lit] | with_reducible refine keeps_rec ?_ rfl rfl rfl ?_ ?_
    | with_reducible apply And.intro | exact Or.inl (by decide)

theorem execSafeInputFilter_kept (input : Fin 8) (chanB level : Bool) (s : State) :
    Kept [.regs, .isl] s (execSafeInputFilter input chanB level s) := by
  refine kept_next ?_
  repeat' first
    | with_reducible first
      | assumption | exact .refl _ _ | apply keeps_put | apply keeps_noteAgreement | apply keeps_ite
    | decide | intro _

theorem execDiscrepancyFault_kept (input : Fin 8) (s : State) :
    Kept [.regs, .sent, .sys, .tie, .isl, .flt, .acq, .mem] s (execDiscrepancyFault input s) := by
  refine kept_next ?_
  repeat' first
    | with_reducible first
      | assumption | exact .refl _ _ | apply keeps_put | apply keeps_siDemand | apply keeps_islandUpdate
      | apply keeps_ite
    | decide | intro _

theorem execTestPulseDark_kept (tp : Fin 4) (samples : BitVec 16) (s : State) :
    Kept [.isl] s (execTestPulseDark tp samples s) := by
  refine kept_next ?_
  repeat' first
    | with_reducible first
      | assumption | exact .refl _ _ | apply keeps_ite
    | decide | intro _ | simp only [keeps_lit] | with_reducible refine keeps_rec ?_ rfl rfl rfl ?_ ?_
    | with_reducible apply And.intro | exact Or.inl (by decide)

theorem execTestPulseCheck_kept (tp : Fin 4) (samples : BitVec 16) (s : State) :
    Kept [.regs, .sent, .sys, .tie, .isl, .flt, .acq, .mem] s (execTestPulseCheck tp samples s) := by
  refine kept_next ?_
  repeat' first
    | with_reducible first
      | assumption | exact .refl _ _ | apply keeps_forN | apply keeps_when | apply keeps_put | apply keeps_siDemand
      | apply keeps_islandUpdate | apply keeps_ite
    | decide | intro _ | simp only [keeps_lit] | with_reducible refine keeps_rec ?_ rfl rfl rfl ?_ ?_
    | with_reducible apply And.intro | exact Or.inl (by decide) | exact Or.inr rfl | rfl | split

theorem execTestPulseSettleCheck_kept (tp : Fin 4) (samples : BitVec 16) (s : State) :
    Kept [.regs, .sent, .sys, .tie, .isl, .flt, .acq, .mem] s (execTestPulseSettleCheck tp samples s) := by
  refine kept_next ?_
  repeat' first
    | with_reducible first
      | assumption | exact .refl _ _ | apply keeps_forN | apply keeps_when | apply keeps_put | apply keeps_wr
      | apply keeps_siDemand | apply keeps_islandUpdate | apply keeps_ite
    | decide | intro _ | simp only [keeps_lit] | with_reducible refine keeps_rec ?_ rfl rfl rfl ?_ ?_
    | with_reducible apply And.intro | exact Or.inl (by decide)

theorem execTpFeedbackFault_kept (tp : Fin 4) (level : Bool) (s : State) :
    Kept [.regs, .sent, .sys, .tie, .isl, .flt, .acq, .mem] s (execTpFeedbackFault tp level s) := by
  refine kept_next ?_
  repeat' first
    | with_reducible first
      | assumption | exact .refl _ _ | apply keeps_putBit | apply keeps_forN | apply keeps_when | apply keeps_put
      | apply keeps_siDemand | apply keeps_islandUpdate | apply keeps_ite
    | decide | intro _ | simp only [keeps_lit] | with_reducible refine keeps_rec ?_ rfl rfl rfl ?_ ?_
    | with_reducible apply And.intro | exact Or.inl (by decide)

theorem execResetButtonPress_kept (s : State) : Kept [.regs, .isl] s (execResetButtonPress s) := by
  refine kept_next ?_
  repeat' first
    | with_reducible first
      | assumption | exact .refl _ _ | apply keeps_put | apply keeps_setAgree | apply keeps_ite
    | decide | intro _ | simp only [keeps_lit] | with_reducible refine keeps_rec ?_ rfl rfl rfl ?_ ?_
    | with_reducible apply And.intro | exact Or.inl (by decide)

theorem execResetButtonRelease_kept (s : State) :
    Kept [.regs, .sent, .sys, .tie, .isl, .flt, .acq, .mem] s (execResetButtonRelease s) := by
  refine kept_next ?_
  repeat' first
    | with_reducible first
      | assumption | exact .refl _ _ | apply keeps_put | apply keeps_islandUpdate | apply keeps_validReset
      | apply keeps_ite
    | decide | intro _ | simp only [keeps_lit] | with_reducible refine keeps_rec ?_ rfl rfl rfl ?_ ?_
    | with_reducible apply And.intro | exact Or.inl (by decide) | exact Or.inr rfl | rfl | split

theorem execResetStuck_kept (conn : Option (Fin 8)) (s : State) :
    Kept [.regs, .sent, .sys, .tie, .isl, .flt, .acq, .mem] s (execResetStuck conn s) := by
  refine kept_next ?_
  repeat' first
    | with_reducible first
      | assumption | exact .refl _ _ | apply keeps_put | apply keeps_islandUpdate | apply keeps_setConn
      | apply keeps_ite
    | decide | intro _ | simp only [keeps_lit] | with_reducible refine keeps_rec ?_ rfl rfl rfl ?_ ?_
    | with_reducible apply And.intro | exact Or.inl (by decide) | exact Or.inr rfl | rfl | split

theorem execOutputReadbackFault_kept (out : Fin 2) (low level : Bool) (s : State) :
    Kept [.regs, .sent, .sys, .tie, .isl, .flt, .acq, .mem] s (execOutputReadbackFault out low level s) := by
  refine kept_next ?_
  repeat' first
    | with_reducible first
      | assumption | exact .refl _ _ | apply keeps_put | apply keeps_islandUpdate | apply keeps_ite
    | decide | intro _

theorem execOutputTestStart_kept (out : Fin 2) (low : Bool) (s : State) :
    Kept [.regs, .isl] s (execOutputTestStart out low s) := by
  refine kept_next ?_
  repeat' first
    | with_reducible first
      | assumption | exact .refl _ _ | apply keeps_setTest | apply keeps_put | apply keeps_ite
    | decide | intro _

theorem execOutputTestEnd_kept (out : Fin 2) (level : Bool) (s : State) :
    Kept [.regs, .sent, .sys, .tie, .isl, .flt, .acq, .mem] s (execOutputTestEnd out level s) := by
  refine kept_next ?_
  repeat' first
    | with_reducible first
      | assumption | exact .refl _ _ | apply keeps_setTest | apply keeps_put | apply keeps_inc
      | apply keeps_islandUpdate | apply keeps_ite
    | decide | intro _ | simp only [keeps_lit] | with_reducible refine keeps_rec ?_ rfl rfl rfl ?_ ?_
    | with_reducible apply And.intro | exact Or.inl (by decide) | exact Or.inr rfl | rfl | split

theorem execOutputFeedbackCheck_kept (out : Fin 2) (level : Bool) (s : State) :
    Kept [.regs, .sent, .sys, .tie, .isl, .flt, .acq, .mem] s (execOutputFeedbackCheck out level s) := by
  refine kept_next ?_
  repeat' first
    | with_reducible first
      | assumption | exact .refl _ _ | apply keeps_put | apply keeps_when | apply keeps_islandUpdate | apply keeps_ite
    | decide | intro _ | simp only [keeps_lit] | with_reducible refine keeps_rec ?_ rfl rfl rfl ?_ ?_
    | with_reducible apply And.intro | exact Or.inl (by decide) | exact Or.inr rfl | rfl | split

theorem execSbcBlockDelay_kept (s : State) :
    Kept [.regs, .sent, .sys, .tie, .isl, .flt, .acq, .mem] s (execSbcBlockDelay s) := by
  refine kept_next ?_
  repeat' first
    | with_reducible first
      | assumption | exact .refl _ _ | apply keeps_islandUpdate | apply keeps_ite
    | decide | intro _ | simp only [keeps_lit] | with_reducible refine keeps_rec ?_ rfl rfl rfl ?_ ?_
    | with_reducible apply And.intro | exact Or.inl (by decide)

theorem execBrakeTestFeedback_kept (levels : BitVec 2) (s : State) :
    Kept [.regs, .sent, .sys, .tie, .isl, .flt, .acq, .mem] s (execBrakeTestFeedback levels s) := by
  refine kept_next ?_
  repeat' first
    | with_reducible first
      | assumption | exact .refl _ _ | apply keeps_put | apply keeps_failBrakeTest | apply keeps_islandUpdate
      | apply keeps_ite
    | decide | intro _ | simp only [keeps_lit] | with_reducible refine keeps_rec ?_ rfl rfl rfl ?_ ?_
    | with_reducible apply And.intro | exact Or.inl (by decide)

theorem execBrakeTestEnd_kept (s : State) :
    Kept [.regs, .sent, .sys, .tie, .isl, .flt, .acq, .mem] s (execBrakeTestEnd s) := by
  refine kept_next ?_
  repeat' first
    | with_reducible first
      | assumption | exact .refl _ _ | apply keeps_failBrakeTest | apply keeps_islandUpdate | apply keeps_put
      | apply keeps_wr | apply keeps_ite
    | decide | intro _ | simp only [keeps_lit] | with_reducible refine keeps_rec ?_ rfl rfl rfl ?_ ?_
    | with_reducible apply And.intro | exact Or.inl (by decide)

theorem execBrakeTestHour_kept (s : State) :
    Kept [.regs, .sent, .sys, .tie, .isl, .flt, .acq, .mem] s (execBrakeTestHour s) := by
  refine kept_next ?_
  repeat' first
    | with_reducible first
      | assumption | exact .refl _ _ | apply keeps_inc | apply keeps_when | apply keeps_put | apply keeps_islandUpdate
      | apply keeps_ite
    | decide | intro _

theorem execMateNotLive_kept (chanB : Bool) (s : State) :
    Kept [.regs, .sent, .sys, .tie, .isl, .flt, .acq, .mem] s (execMateNotLive chanB s) := by
  refine kept_next ?_
  repeat' first
    | with_reducible first
      | assumption | exact .refl _ _ | apply keeps_put | apply keeps_islandUpdate | apply keeps_ite
    | decide | intro _

theorem execMateFault_kept (s : State) :
    Kept [.regs, .sent, .sys, .tie, .isl, .flt, .acq, .mem] s (execMateFault s) := by
  refine kept_next ?_
  repeat' first
    | with_reducible first
      | assumption | exact .refl _ _ | apply keeps_put | apply keeps_islandUpdate | apply keeps_ite
    | decide | intro _

theorem execTelegramReceived_kept (path : TelegramPath) (bytes : List Byte) (s : State) :
    Kept [.regs, .sent, .sys, .tie, .isl, .flt, .acq, .mem] s (execTelegramReceived path bytes s) :=
  kept_next (keeps_telegramIn s _ _ (by decide) (.refl _ _))

theorem execTelegramSkewExpiry_kept (conn : Fin 8) (s : State) :
    Kept [.regs, .isl] s (execTelegramSkewExpiry conn s) := by
  refine kept_next ?_
  repeat' first
    | with_reducible first
      | assumption | exact .refl _ _ | apply keeps_inc | apply keeps_setConn
    | decide | intro _ | simp only [keeps_lit] | with_reducible refine keeps_rec ?_ rfl rfl rfl ?_ ?_
    | with_reducible apply And.intro | exact Or.inl (by decide) | exact Or.inr rfl | rfl | split

theorem execConnectionWatchdog_kept (conn : Fin 8) (s : State) :
    Kept [.regs, .sent, .sys, .tie, .isl, .flt, .acq, .mem] s (execConnectionWatchdog conn s) := by
  refine kept_next ?_
  repeat' first
    | with_reducible first
      | assumption | exact .refl _ _ | apply keeps_connLost | apply keeps_islandUpdate | apply keeps_ite
    | decide | intro _

theorem execTelegramSend_kept (conn : Fin 8) (s : State) : Kept [.sent, .isl] s (execTelegramSend conn s) :=
  kept_next (keeps_telegramOut s _ (by decide) (.refl _ _))

theorem execParamStage_kept (conn : Fin 8) (payload : List Byte) (s : State) :
    Kept [.regs, .isl] s (execParamStage conn payload s) := by
  refine kept_next ?_
  repeat' first
    | with_reducible first
      | assumption | exact .refl _ _ | apply keeps_paramStageOp | apply keeps_ite
    | decide | intro _

theorem execParamCommit_kept (conn : Fin 8) (payload : List Byte) (s : State) :
    Kept [.regs, .isl] s (execParamCommit conn payload s) := by
  refine kept_next ?_
  repeat' first
    | with_reducible first
      | assumption | exact .refl _ _ | apply keeps_paramCommitOp | apply keeps_ite
    | decide | intro _

theorem execParamAbort_kept (conn : Fin 8) (payload : List Byte) (s : State) :
    Kept [.regs, .isl] s (execParamAbort conn payload s) := by
  refine kept_next ?_
  repeat' first
    | with_reducible first
      | assumption | exact .refl _ _ | apply keeps_paramAbortOp | apply keeps_ite
    | decide | intro _

theorem execParamRead_kept (conn : Fin 8) (payload : List Byte) (s : State) :
    Kept [.regs, .isl] s (execParamRead conn payload s) := by
  refine kept_next ?_
  repeat' first
    | with_reducible first
      | assumption | exact .refl _ _ | apply keeps_paramReadOp | apply keeps_ite
    | decide | intro _

theorem execParamTransactionTimeout_kept (s : State) : Kept [.regs, .isl] s (execParamTransactionTimeout s) := by
  refine kept_next ?_
  repeat' first
    | with_reducible first
      | assumption | exact .refl _ _ | apply keeps_closeTransaction | apply keeps_ite
    | decide | intro _

theorem execFaultSourceRaise_kept (events : List Raise) (s : State) :
    Kept [.regs, .sent, .sys, .tie, .flt, .acq, .mem] s (execFaultSourceRaise events s) :=
  kept_next (keeps_raiseAll s _ (by decide) (.refl _ _))

theorem execFaultCauseAbsent_kept (src : Fin 128) (s : State) : Kept [.regs] s (execFaultCauseAbsent src s) :=
  kept_next (keeps_when _ _ (.refl _ _) fun s h => keeps_causeAbsent s _ (by decide) h)

theorem execAcqEvaluation_kept (s : State) : Kept [.regs, .sent, .flt, .acq, .mem] s (execAcqEvaluation s) := by
  refine kept_next ?_
  repeat' first
    | with_reducible first
      | assumption | exact .refl _ _ | apply keeps_when | apply keeps_acqEvaluate
    | decide | intro _

theorem execSequencerMatch_kept (s : State) : Kept [.regs, .sent, .acq] s (execSequencerMatch s) := by
  refine kept_next ?_
  repeat' first
    | with_reducible first
      | assumption | exact .refl _ _ | apply keeps_sqMatch | apply keeps_acqUp | apply keeps_ite
    | decide | intro _ | simp only [keeps_lit] | with_reducible refine keeps_rec ?_ rfl rfl rfl ?_ ?_
    | with_reducible apply And.intro | exact Or.inl (by decide) | exact Or.inr rfl | rfl | split

theorem execSequencerTimeout_kept (s : State) : Kept [.regs, .acq] s (execSequencerTimeout s) := by
  refine kept_next ?_
  repeat' first
    | with_reducible first
      | assumption | exact .refl _ _ | apply keeps_when | apply keeps_sqTimeout
    | decide | intro _

theorem execRecordClose_kept (copied : Option (BitVec 25)) (s : State) :
    Kept [.regs, .sent, .acq, .mem] s (execRecordClose copied s) :=
  kept_next (keeps_recordClose s _ (by decide) (.refl _ _))

theorem execLockstepMismatch_kept (hart : Fin 6) (s : State) :
    Kept [.regs, .sent, .sys, .tie, .flt, .acq, .sch, .mem] s (execLockstepMismatch hart s) :=
  kept_next (keeps_stopPair s _ (by decide) (.refl _ _))

theorem execLockstepInject_kept (mask : BitVec 6) (key : BitVec 16) (missed : BitVec 6) (s : State) :
    Kept [.regs, .sent, .sys, .tie, .flt, .acq, .sch, .mem] s (execLockstepInject mask key missed s) :=
  kept_next (keeps_when _ _ (.refl _ _) fun s h => keeps_injectMask s _ _ (by decide) h)

theorem execLockstepInjectPeriodic_kept (missed : BitVec 6) (s : State) :
    Kept [.regs, .sent, .sys, .tie, .flt, .acq, .sch, .mem] s (execLockstepInjectPeriodic missed s) :=
  kept_next (keeps_when _ _ (.refl _ _) fun s h => keeps_injectMask s _ _ (by decide) h)

theorem execPartitionFault_kept (hart : Fin 6) (s : State) :
    Kept [.regs, .sent, .sys, .tie, .flt, .acq, .mem] s (execPartitionFault hart s) :=
  kept_next (keeps_when _ _ (.refl _ _) fun s h => keeps_raise s _ (by decide) h)

theorem execPartitionBudgetExhausted_kept (hart : Fin 6) (s : State) :
    Kept [.regs, .sent, .sys, .tie, .flt, .acq, .sch, .mem] s (execPartitionBudgetExhausted hart s) := by
  refine kept_next ?_
  repeat' first
    | with_reducible first
      | assumption | exact .refl _ _ | apply keeps_when | apply keeps_send | apply keeps_raise | apply keeps_ite
    | decide | intro _ | simp only [keeps_lit] | with_reducible refine keeps_rec ?_ rfl rfl rfl ?_ ?_
    | with_reducible apply And.intro | exact Or.inl (by decide)

theorem execPartWrite_kept (hart : Fin 6) (part : Fin 9) (s : State) :
    Kept [.draws, .regs, .sent, .sch, .mem] s (execPartWrite hart part s) :=
  kept_next (keeps_when _ _ (.refl _ _) fun s h => keeps_setPart s _ _ (by decide) h)

theorem execQueueDepthWrite_kept (queue : Fin 64) (depth : BitVec 11) (s : State) :
    Kept [.draws, .regs, .sent, .sch, .mem] s (execQueueDepthWrite queue depth s) := by
  refine kept_next ?_
  repeat' first
    | with_reducible first
      | assumption | exact .refl _ _ | apply keeps_setDepth | apply keeps_ite
    | decide | intro _

theorem execSchPush_kept (master : Fin 19) (queue : Fin 64) (nb : Bool) (s : State) :
    Kept [.draws, .regs, .sent, .sys, .tie, .flt, .acq, .sch, .mem] s (execSchPush master queue nb s) :=
  kept_next (keeps_when _ _ (.refl _ _) fun s h => keeps_push s _ _ _ (by decide) h)

theorem execPushStallComplete_kept (master : Fin 19) (s : State) :
    Kept [.draws, .regs, .sent, .sch, .mem] s (execPushStallComplete master s) := by
  refine kept_next ?_
  repeat' first
    | with_reducible first
      | assumption | exact .refl _ _ | apply keeps_settle | apply keeps_ite
    | decide | intro _

theorem execPushBackpressureTimeout_kept (master : Fin 19) (s : State) :
    Kept [.draws, .regs, .sent, .sys, .tie, .flt, .acq, .sch, .mem] s (execPushBackpressureTimeout master s) := by
  refine kept_next ?_
  repeat' first
    | with_reducible first
      | assumption | exact .refl _ _ | apply keeps_inc | apply keeps_dropPush | apply keeps_raise | apply keeps_settle
    | decide | intro _ | simp only [keeps_lit] | with_reducible refine keeps_rec ?_ rfl rfl rfl ?_ ?_
    | with_reducible apply And.intro | exact Or.inl (by decide) | exact Or.inr rfl | rfl | split

theorem execQueueTick_kept (queue : Fin 64) (s : State) :
    Kept [.draws, .regs, .sent, .sys, .tie, .flt, .acq, .sch, .mem] s (execQueueTick queue s) :=
  kept_next (keeps_when _ _ (.refl _ _) fun s h => keeps_queueTick s _ (by decide) h)

theorem execSchGet_kept (hart : Fin 6) (s : State) :
    Kept [.draws, .regs, .sent, .sch, .mem] s (execSchGet hart s) := by
  refine kept_next ?_
  repeat' first
    | with_reducible first
      | assumption | exact .refl _ _ | apply keeps_get | apply keeps_ite
    | decide | intro _

theorem execSchGetWait_kept (hart : Fin 6) (s : State) :
    Kept [.draws, .regs, .sent, .sch, .mem] s (execSchGetWait hart s) := by
  refine kept_next ?_
  repeat' first
    | with_reducible first
      | assumption | exact .refl _ _ | apply keeps_settle | apply keeps_ite
    | decide | intro _ | simp only [keeps_lit] | with_reducible refine keeps_rec ?_ rfl rfl rfl ?_ ?_
    | with_reducible apply And.intro | exact Or.inl (by decide) | exact Or.inr rfl | rfl | split
    | exact keeps_takeItem _ _ (by decide) (.refl _ _) _ (by assumption)

theorem execGetWaitResume_kept (hart : Fin 6) (s : State) :
    Kept [.draws, .regs, .sent, .sch, .mem] s (execGetWaitResume hart s) := by
  refine kept_next ?_
  repeat' first
    | with_reducible first
      | assumption | exact .refl _ _ | apply keeps_settle | apply keeps_ite
    | decide | intro _

theorem execGetWaitTimeout_kept (hart : Fin 6) (s : State) : Kept [.sent, .sch] s (execGetWaitTimeout hart s) := by
  refine kept_next ?_
  repeat' first
    | with_reducible first
      | assumption | exact .refl _ _ | apply keeps_send | apply keeps_ite
    | decide | intro _ | simp only [keeps_lit] | with_reducible refine keeps_rec ?_ rfl rfl rfl ?_ ?_
    | with_reducible apply And.intro | exact Or.inl (by decide)

theorem execHartLoadUpdate_kept (hart : Fin 6) (busy cycles : BitVec 48) (s : State) :
    Kept [.regs] s (execHartLoadUpdate hart busy cycles s) := by
  refine kept_next ?_
  repeat' first
    | with_reducible first
      | assumption | exact .refl _ _ | apply keeps_wr | apply keeps_ite
    | decide | intro _

theorem execSchClr_kept (s : State) : Kept [.regs] s (execSchClr s) := by
  refine kept_next ?_
  repeat' first
    | with_reducible first
      | assumption | exact .refl _ _ | apply keeps_when | apply keeps_schClr
    | decide | intro _

theorem execCounterWrap_kept (hart : Fin 6) (n : Fin 12) (s : State) :
    Kept [.regs, .sent] s (execCounterWrap hart n s) := by
  refine kept_next ?_
  repeat' first
    | with_reducible first
      | assumption | exact .refl _ _ | apply keeps_setCounter | apply keeps_wrapped | apply keeps_ite
    | decide | intro _

theorem execCounterWrite_kept (master : Fin 19) (hart : Fin 6) (n : Fin 12) (high : Bool) (value : BitVec 32) (s : State) :
    Kept [.regs, .sch] s (execCounterWrite master hart n high value s) :=
  kept_next (keeps_when _ _ (.refl _ _) fun s h => keeps_counterWrite s _ _ _ _ _ (by decide) h)

theorem execPmcFreeze_kept (freeze : Bool) (advance : List (BitVec 48)) (s : State) :
    Kept [.regs, .sent] s (execPmcFreeze freeze advance s) := by
  refine kept_next ?_
  repeat' first
    | with_reducible first
      | assumption | exact .refl _ _ | apply keeps_when | apply keeps_advance | apply keeps_put
    | decide | intro _

theorem execSnapshotGo_kept (advance : List (BitVec 48)) (s : State) :
    Kept [.regs, .sent, .sch] s (execSnapshotGo advance s) :=
  kept_next (keeps_when _ _ (.refl _ _) fun s h => keeps_snapshot s _ (by decide) h)

theorem execSnapshotTimed_kept (advance : List (BitVec 48)) (s : State) :
    Kept [.regs, .sent, .sch] s (execSnapshotTimed advance s) := by
  refine kept_next ?_
  repeat' first
    | with_reducible first
      | assumption | exact .refl _ _ | apply keeps_snapshot | apply keeps_ite
    | decide | intro _ | simp only [keeps_lit] | with_reducible refine keeps_rec ?_ rfl rfl rfl ?_ ?_
    | with_reducible apply And.intro | exact Or.inl (by decide)

theorem execSramEccError_kept (access : Fin 6) (master : Fin 19) (addr : BitVec 32) (corrected : Bool) (s : State) :
    Kept [.regs, .sent, .sys, .tie, .flt, .acq, .mem] s (execSramEccError access master addr corrected s) :=
  kept_next (keeps_sramError s _ _ _ _ (by decide) (.refl _ _))

theorem execProtectedWrite_kept (master : Fin 19) (addr : BitVec 32) (s : State) :
    Kept [.regs, .sent, .sys, .tie, .flt, .acq, .mem] s (execProtectedWrite master addr s) :=
  kept_next (keeps_busFault s _ _ _ (by decide) (.refl _ _))

theorem execMemPwrWrite_kept (w : Fin 4) (value : BitVec 32) (s : State) :
    Kept [.regs] s (execMemPwrWrite w value s) := by
  refine kept_next ?_
  repeat' first
    | with_reducible first
      | assumption | exact .refl _ _ | apply keeps_pwrWrite | apply keeps_ite
    | decide | intro _

theorem execBankPowerDone_kept (bank : Fin 32) (s : State) : Kept [.regs, .mem] s (execBankPowerDone bank s) :=
  kept_next (keeps_bankDone s _ (by decide) (.refl _ _))

theorem execBgTestRegion_kept (s : State) : Kept [.regs, .mem] s (execBgTestRegion s) := by
  refine kept_next ?_
  repeat' first | (with_reducible first | assumption | exact .refl _ _ | apply keeps_startRegion) | decide

theorem execBgTestRegionDone_kept (corrected uncorrectable march : Option (BitVec 32)) (s : State) :
    Kept [.regs, .sent, .sys, .tie, .flt, .acq, .mem] s (execBgTestRegionDone corrected uncorrectable march s) :=
  kept_next (keeps_regionDone s _ _ _ (by decide) (.refl _ _))

theorem execCodeCheck_kept (bad : BitVec 9) (s : State) :
    Kept [.regs, .sent, .sys, .tie, .flt, .acq, .mem] s (execCodeCheck bad s) := by
  refine kept_next ?_
  repeat' first
    | with_reducible first
      | assumption | exact .refl _ _ | apply keeps_incMod | apply keeps_when | apply keeps_put | apply keeps_raise
      | apply keeps_forN | apply keeps_ite
    | decide | intro _ | simp only [keeps_lit] | with_reducible refine keeps_rec ?_ rfl rfl rfl ?_ ?_
    | with_reducible apply And.intro | exact Or.inl (by decide)

theorem execDdrInit_kept (s : State) : Kept [.regs, .mem] s (execDdrInit s) :=
  kept_next (keeps_startDdr s (by decide) (.refl _ _))

theorem execDdrInitDone_kept (ok : Bool) (s : State) : Kept [.regs, .mem] s (execDdrInitDone ok s) := by
  refine kept_next ?_
  repeat' first
    | with_reducible first
      | assumption | exact .refl _ _ | apply keeps_put | apply keeps_when | apply keeps_wr | apply keeps_ite
    | decide | intro _ | simp only [keeps_lit] | with_reducible refine keeps_rec ?_ rfl rfl rfl ?_ ?_
    | with_reducible apply And.intro | exact Or.inl (by decide)

theorem execDdrTempRead_kept (temp : BitVec 8) (s : State) : Kept [.mem] s (execDdrTempRead temp s) := by
  refine kept_next ?_
  repeat' first
    | with_reducible first
      | assumption | exact .refl _ _ | apply keeps_when
    | decide | intro _ | simp only [keeps_lit] | with_reducible refine keeps_rec ?_ rfl rfl rfl ?_ ?_
    | with_reducible apply And.intro | exact Or.inl (by decide)

theorem execDdrScrub_kept (s : State) : Kept [] s (execDdrScrub s) := by
  refine kept_next ?_
  repeat' first | with_reducible first | assumption | exact .refl _ _

theorem execDdrEccError_kept (master : Fin 19) (addr : BitVec 36) (corrected : Bool) (s : State) :
    Kept [.regs, .sent, .sys, .tie, .flt, .acq, .mem] s (execDdrEccError master addr corrected s) := by
  refine kept_next ?_
  repeat' first
    | with_reducible first
      | assumption | exact .refl _ _ | apply keeps_inc | apply keeps_raiseAt | apply keeps_when | apply keeps_send
      | apply keeps_putBit | apply keeps_ite
    | decide | intro _ | simp only [keeps_lit] | with_reducible refine keeps_rec ?_ rfl rfl rfl ?_ ?_
    | with_reducible apply And.intro | exact Or.inl (by decide)

theorem execSecRoll_kept (type : Fin 16) (key : BitVec 16) (vpp : Bool) (s : State) :
    Kept [.regs, .mem] s (execSecRoll type key vpp s) :=
  kept_next (keeps_when _ _ (.refl _ _) fun s h => keeps_secRoll s _ _ (by decide) h)

theorem execSecRevoke_kept (slot : Fin 4) (key : BitVec 16) (vpp : Bool) (s : State) :
    Kept [.regs, .mem] s (execSecRevoke slot key vpp s) :=
  kept_next (keeps_when _ _ (.refl _ _) fun s h => keeps_secRevoke s _ _ (by decide) h)

theorem execFuseProgramDone_kept (s : State) : Kept [.regs, .mem] s (execFuseProgramDone s) := by
  refine kept_next ?_
  repeat' first
    | with_reducible first
      | assumption | exact .refl _ _ | apply keeps_wr | apply keeps_putBit | apply keeps_put | apply keeps_ite
    | decide | intro _ | simp only [keeps_lit] | with_reducible refine keeps_rec ?_ rfl rfl rfl ?_ ?_
    | with_reducible apply And.intro | exact Or.inl (by decide) | exact Or.inr rfl | rfl | split

theorem execHealthRank_kept (s : State) : Kept [.regs] s (execHealthRank s) := by
  refine kept_next ?_
  repeat' first
    | with_reducible first
      | assumption | exact .refl _ _ | apply keeps_forN | apply keeps_when | apply keeps_rankArm
    | decide | intro _

theorem execHealthImageSave_kept (s : State) : Kept [.draws, .regs, .sent, .ports] s (execHealthImageSave s) := by
  refine kept_next ?_
  repeat' first
    | with_reducible first
      | assumption | exact .refl _ _ | apply keeps_imageError | apply keeps_forN | apply keeps_ask | apply keeps_ite
    | decide | intro _

theorem execAgeingMeasure_kept (ratios : List (BitVec 32)) (s : State) :
    Kept [.regs] s (execAgeingMeasure ratios s) :=
  kept_next (keeps_ageingMeasure s _ (by decide) (.refl _ _))

theorem execAgeHour_kept (s : State) : Kept [.regs] s (execAgeHour s) :=
  kept_next (keeps_when _ _ (.refl _ _) fun s h => keeps_inc s _ _ (by decide) h)

theorem execOdRead_kept (client : Client) (index : BitVec 16) (sub : BitVec 8) (s : State) :
    Kept allParts s (execOdRead client index sub s) :=
  kept_next (keeps_single s _ _ (by decide) (.refl _ _))

theorem execOdWrite_kept (client : Client) (index : BitVec 16) (sub : BitVec 8) (data : BitVec 64) (s : State) :
    Kept allParts s (execOdWrite client index sub data s) :=
  kept_next (keeps_single s _ _ (by decide) (.refl _ _))

theorem execOdSelectWrite_kept (client : Client) (index : BitVec 16) (data : BitVec 32) (s : State) :
    Kept allParts s (execOdSelectWrite client index data s) :=
  kept_next (keeps_single s _ _ (by decide) (.refl _ _))

theorem execOdCellWrite_kept (client : Client) (data : BitVec 64) (s : State) :
    Kept allParts s (execOdCellWrite client data s) :=
  kept_next (keeps_single s _ _ (by decide) (.refl _ _))

theorem execOdStore_kept (client : Client) (data : BitVec 32) (s : State) :
    Kept allParts s (execOdStore client data s) :=
  kept_next (keeps_single s _ _ (by decide) (.refl _ _))

theorem execOdRestoreDefaults_kept (client : Client) (data : BitVec 32) (s : State) :
    Kept allParts s (execOdRestoreDefaults client data s) :=
  kept_next (keeps_single s _ _ (by decide) (.refl _ _))

theorem execCalFullPoll_kept (cell : BitVec 64) (s : State) :
    Kept [.draws, .regs, .sent, .ports] s (execCalFullPoll cell s) := by
  refine kept_next ?_
  repeat' first
    | with_reducible first
      | assumption | exact .refl _ _ | apply keeps_when | apply keeps_ask
    | decide | intro _

theorem execUsdoRequest_kept (port : Fin 2) (node : BitVec 7) (index : BitVec 16) (sub : BitVec 8) (write : Option (List Byte)) (s : State) :
    Kept allParts s (execUsdoRequest port node index sub write s) := by
  refine kept_next ?_
  repeat' first
    | with_reducible first
      | assumption | exact .refl _ _ | apply keeps_when | apply keeps_addJob | apply keeps_odRun | apply keeps_send
    | decide | intro _ | simp only [keeps_lit] | with_reducible refine keeps_rec ?_ rfl rfl rfl ?_ ?_
    | with_reducible apply And.intro | exact Or.inl (by decide) | exact Or.inr rfl | rfl | split
    | exact keeps_openClient _ _ (by decide) (by assumption) _ (by assumption)

theorem execCanSessionIdle_kept (port : Fin 2) (node : BitVec 7) (s : State) :
    Kept allParts s (execCanSessionIdle port node s) := by
  refine kept_next ?_
  repeat' first
    | with_reducible first
      | assumption | exact .refl _ _ | apply keeps_when | apply keeps_closeSession | apply keeps_odRun
    | decide | intro _

theorem execHeartbeat_kept (port : Fin 2) (s : State) : Kept [.sent] s (execHeartbeat port s) :=
  kept_next (keeps_when _ _ (.refl _ _) fun s h => keeps_sendNmt s _ (by decide) h)

theorem execHello_kept (d : Datagram) (s : State) : Kept [.regs, .sent, .od] s (execHello d s) := by
  refine kept_next ?_
  repeat' first
    | with_reducible first
      | assumption | exact .refl _ _ | apply keeps_badDatagram | apply keeps_hello | apply keeps_ite
    | decide | intro _

theorem execBye_kept (d : Datagram) (s : State) : Kept allParts s (execBye d s) := by
  refine kept_next ?_
  repeat' first
    | with_reducible first
      | assumption | exact .refl _ _ | apply keeps_withSession | apply keeps_request | apply keeps_ite
    | decide | intro _

theorem execUdpRead_kept (d : Datagram) (s : State) : Kept allParts s (execUdpRead d s) := by
  refine kept_next ?_
  repeat' first
    | with_reducible first
      | assumption | exact .refl _ _ | apply keeps_withSession | apply keeps_readWrite | apply keeps_refuseOp
      | apply keeps_ite
    | decide | intro _

theorem execUdpWrite_kept (d : Datagram) (s : State) : Kept allParts s (execUdpWrite d s) := by
  refine kept_next ?_
  repeat' first
    | with_reducible first
      | assumption | exact .refl _ _ | apply keeps_withSession | apply keeps_readWrite | apply keeps_ite
    | decide | intro _

theorem execDread_kept (d : Datagram) (s : State) : Kept allParts s (execDread d s) := by
  refine kept_next ?_
  repeat' first
    | with_reducible first
      | assumption | exact .refl _ _ | apply keeps_withSession | apply keeps_domainRequest | apply keeps_ite
    | decide | intro _

theorem execDwrite_kept (d : Datagram) (s : State) : Kept allParts s (execDwrite d s) := by
  refine kept_next ?_
  repeat' first
    | with_reducible first
      | assumption | exact .refl _ _ | apply keeps_withSession | apply keeps_domainRequest | apply keeps_ite
    | decide | intro _

theorem execSetpoint_kept (d : Datagram) (s : State) : Kept [.regs, .sent, .ctl, .od] s (execSetpoint d s) := by
  refine kept_next ?_
  repeat' first
    | with_reducible first
      | assumption | exact .refl _ _ | apply keeps_withSession | apply keeps_putSession | apply keeps_takeSetpoints
      | apply keeps_ite
    | decide | intro _

theorem execUdpSessionIdle_kept (slot : Fin 8) (s : State) : Kept allParts s (execUdpSessionIdle slot s) := by
  refine kept_next ?_
  repeat' first
    | with_reducible first
      | assumption | exact .refl _ _ | apply keeps_when | apply keeps_closeSession | apply keeps_odRun
    | decide | intro _

theorem execArpRequest_kept (net : Fin 2) (asker target : BitVec 32) (s : State) :
    Kept [.sent] s (execArpRequest net asker target s) :=
  kept_next (keeps_when _ _ (.refl _ _) fun s h => keeps_send s _ (by decide) h)

theorem execIcmpEcho_kept (net : Fin 2) (source dest : BitVec 32) (plain : Bool) (payload : List Byte) (s : State) :
    Kept [.sent] s (execIcmpEcho net source dest plain payload s) :=
  kept_next (keeps_when _ _ (.refl _ _) fun s h => keeps_send s _ (by decide) h)

theorem execSupplyMonitor_kept (supply : Fin 16) (s : State) :
    Kept [.regs, .sent, .sys, .tie, .flt, .acq, .mem] s (execSupplyMonitor supply s) := by
  refine kept_next ?_
  repeat' first
    | with_reducible first
      | assumption | exact .refl _ _ | apply keeps_when | apply keeps_causePresent | apply keeps_ite
    | decide | intro _ | simp only [keeps_lit] | with_reducible refine keeps_rec ?_ rfl rfl rfl ?_ ?_
    | with_reducible apply And.intro | exact Or.inl (by decide)

theorem execClockMonitorWindow_kept (ref sd0 sd1 : BitVec 32) (s : State) :
    Kept [.regs, .sent, .sys, .tie, .flt, .acq, .mem] s (execClockMonitorWindow ref sd0 sd1 s) := by
  refine kept_next ?_
  repeat' first
    | with_reducible first
      | assumption | exact .refl _ _ | apply keeps_when | apply keeps_forN | apply keeps_causeIs
    | decide | intro _

theorem execRegisterWrite_kept (master : Fin 19) (addr : BitVec 36) (width : Fin 9) (data : BitVec 64) (s : State) :
    Kept allParts s (execRegisterWrite master addr width data s) := by
  refine kept_next ?_
  repeat' first
    | with_reducible first
      | assumption | exact .refl _ _ | apply keeps_busWrite | apply keeps_ite
    | decide | intro _

theorem execSupplyMonitorsGood_kept (s : State) :
    Kept [.regs, .sent, .sys, .tie, .flt, .acq, .mem] s (execSupplyMonitorsGood s) := by
  refine kept_next ?_
  repeat' first
    | with_reducible first
      | assumption | exact .refl _ _ | apply keeps_causeAbsent | apply keeps_endReset
    | decide | intro _ | simp only [keeps_lit] | with_reducible refine keeps_rec ?_ rfl rfl rfl ?_ ?_
    | with_reducible apply And.intro | exact Or.inl (by decide)

theorem execStoreComplete_kept (ok : Bool) (s : State) : Kept allParts s (execStoreComplete ok s) := by
  refine kept_next ?_
  repeat' first
    | with_reducible first
      | assumption | exact .refl _ _ | apply keeps_storeEnds | apply keeps_odRun
    | decide | intro _ | simp only [keeps_lit] | with_reducible refine keeps_rec ?_ rfl rfl rfl ?_ ?_
    | with_reducible apply And.intro | exact Or.inl (by decide) | exact Or.inr rfl | rfl | split

theorem execSnapshotComplete_kept (s : State) : Kept [.regs] s (execSnapshotComplete s) := by
  refine kept_next ?_
  repeat' first
    | with_reducible first
      | assumption | exact .refl _ _ | apply keeps_put | apply keeps_incMod | apply keeps_wr | apply keeps_ite
    | decide | intro _

end Sys2Proof.Machine
end

section
/-! The block as a whole: what one step does, and what it keeps. -/

namespace Sys2Proof.Machine

/-- Every command answers a next state, in which only the parts of its footprint may differ. -/
theorem exec_kept (c : Instr) (s : State) : Kept (footprint c) s (exec c s) :=
  match c with
  | .powerOn => execPowerOn_kept  _
  | .sysRstNLow => execSysRstNLow_kept  _
  | .sysRstNHigh _ => execSysRstNHigh_kept _ _
  | .selfTestEnd _ => execSelfTestEnd_kept _ _
  | .selfTestTimeout _ => execSelfTestTimeout_kept _ _
  | .secureStartEnd _ => execSecureStartEnd_kept _ _
  | .configure _ => execConfigure_kept _ _
  | .energise _ => execEnergise_kept _ _
  | .prepDeadline => execPrepDeadline_kept  _
  | .energiseTakesEffect _ => execEnergiseTakesEffect_kept _ _
  | .deblock _ => execDeblock_kept _ _
  | .drydown _ => execDrydown_kept _ _
  | .dryWaitEnd => execDryWaitEnd_kept  _
  | .dryArmBlock _ => execDryArmBlock_kept _ _
  | .dryTimeout => execDryTimeout_kept  _
  | .clear _ => execClear_kept _ _
  | .deenergise _ => execDeenergise_kept _ _
  | .restart _ _ => execRestart_kept _ _ _
  | .periodBoundary _ _ => execPeriodBoundary_kept _ _ _
  | .collectionLaunch _ => execCollectionLaunch_kept _ _
  | .controlEngineWindow _ => execControlEngineWindow_kept _ _
  | .levelEngineWindow => execLevelEngineWindow_kept  _
  | .cellAdmission _ => execCellAdmission_kept _ _
  | .cellMissIneligible _ => execCellMissIneligible_kept _ _
  | .bypassRequest _ => execBypassRequest_kept _ _
  | .epochBypass _ => execEpochBypass_kept _ _
  | .swcDecay => execSwcDecay_kept  _
  | .rotationBar _ => execRotationBar_kept _ _
  | .commandLaunch _ => execCommandLaunch_kept _ _
  | .lvlSyncInEdge => execLvlSyncInEdge_kept  _
  | .cellHoldLimit _ => kept_onCell _ _ _
  | .cellBoundary _ => execCellBoundary_kept _ _
  | .pwmPartEnd _ => kept_onCell _ _ _
  | .carrierCrossing _ _ => kept_onCell _ _ _
  | .deadTimeEnd _ _ => kept_onCell _ _ _
  | .maskOpen _ => kept_onCell _ _ _
  | .maskOpenMax _ => kept_onCell _ _ _
  | .horizonPlayedOut _ => kept_onCell _ _ _
  | .synciEdge _ => execSynciEdge_kept _ _
  | .syncLost _ => kept_onCell _ _ _
  | .comparatorActive _ _ => kept_onCell _ _ _
  | .comparatorInactive _ _ => kept_onCell _ _ _
  | .hwBypass _ => kept_onCell _ _ _
  | .tripClear _ _ => kept_onCell _ _ _
  | .gateReadbackFault _ _ => kept_onCell _ _ _
  | .bypReadbackFault _ => kept_onCell _ _ _
  | .bypCmd _ _ => kept_onCell _ _ _
  | .bypAssert _ => kept_onCell _ _ _
  | .vsupReset _ => kept_onCell _ _ _
  | .supervisorRelease _ _ => kept_onCell _ _ _
  | .cellSelfTestEnd _ _ => kept_onCell _ _ _
  | .cellSelfTestTimeout _ => kept_onCell _ _ _
  | .cellFrameTimeout _ => kept_onCell _ _ _
  | .blockLock _ => execBlockLock_kept _ _
  | .blockLockLoss _ => execBlockLockLoss_kept _ _
  | .upstreamSelected _ _ _ _ => execUpstreamSelected_kept _ _ _ _ _
  | .segmentTrained _ _ _ _ _ => execSegmentTrained_kept _ _ _ _ _ _
  | .trainFail _ => execTrainFail_kept _ _
  | .blockOrderedSet _ _ _ _ => execBlockOrderedSet_kept _ _ _ _ _
  | .commandFrameAtCell _ _ _ => execCommandFrameAtCell_kept _ _ _ _
  | .collectionFrameAtCell _ _ _ => execCollectionFrameAtCell_kept _ _ _ _
  | .upstreamOriginate _ => execUpstreamOriginate_kept _ _
  | .statusLatch _ => kept_onCell _ _ _
  | .collectionFrameReceived _ _ => execCollectionFrameReceived_kept _ _ _
  | .commandFrameAtTail _ _ => execCommandFrameAtTail_kept _ _ _
  | .mbGo _ => kept_write _ _ _
  | .mbRead _ => kept_onCell _ _ _
  | .mbWrite _ => kept_onCell _ _ _
  | .mbReadClear _ => kept_onCell _ _ _
  | .mbCmdReset _ => kept_onCell _ _ _
  | .mbCmdBypass _ => kept_onCell _ _ _
  | .mbMaskedWrite _ => kept_onCell _ _ _
  | .mbIdentify _ => kept_onCell _ _ _
  | .mbAccept _ => kept_onCell _ _ _
  | .mbResponse _ => execMbResponse_kept _ _
  | .mbTimeout _ => execMbTimeout_kept _ _
  | .errClr _ => kept_write _ _ _
  | .lnkClr _ => kept_onCell _ _ _
  | .enumStart _ => kept_write _ _ _
  | .enumAccept _ _ => kept_write _ _ _
  | .cellJoinRetry _ => execCellJoinRetry_kept _ _
  | .conversionDone _ _ _ _ => kept_onCell _ _ _
  | .injReq _ _ _ => kept_onCell _ _ _
  | .calZero _ _ => kept_onCell _ _ _
  | .calFull _ _ _ => kept_onCell _ _ _
  | .calAbort _ => kept_onCell _ _ _
  | .calStepDone _ => kept_onCell _ _ _
  | .openWireTest _ _ => kept_onCell _ _ _
  | .openWireDone _ _ _ _ _ => kept_onCell _ _ _
  | .sarFault _ => execSarFault_kept _ _
  | .sdClkLoss _ => execSdClkLoss_kept _ _
  | .sdModFault _ _ => execSdModFault_kept _ _ _
  | .piEdge n a b => execPiEdge_kept n a b s
  | .piCntPreset _ _ => kept_write _ _ _
  | .gpioEdge _ _ => execGpioEdge_kept _ _ _
  | .gpioChatterRelease _ => execGpioChatterRelease_kept _ _
  | .gpioStuck _ => execGpioStuck_kept _ _
  | .gpioRateWrite _ _ _ => kept_write _ _ _
  | .evtNext => kept_write _ _ _
  | .spValueWrite _ _ => kept_write _ _ _
  | .setpointLost _ => execSetpointLost_kept _ _
  | .feedbackTimeoutDrop _ _ => execFeedbackTimeoutDrop_kept _ _ _
  | .frozenDrop _ _ => execFrozenDrop_kept _ _ _
  | .gateDrop _ _ => execGateDrop_kept _ _ _
  | .autoReadmit _ _ => execAutoReadmit_kept _ _ _
  | .coastDrop _ _ => kept_write _ _ _
  | .coastReadmit _ _ => kept_write _ _ _
  | .coastLimit _ => execCoastLimit_kept _ _
  | .descriptorWrite _ _ => execDescriptorWrite_kept _ _ _
  | .swap _ => kept_write _ _ _
  | .loadX0 => kept_write _ _ _
  | .forceOvr _ => kept_write _ _ _
  | .clearPeak => kept_write _ _ _
  | .clearOvrCount => kept_write _ _ _
  | .clearNumCount => kept_write _ _ _
  | .clearCtxCounts => kept_write _ _ _
  | .coefApertureAccess _ _ => execCoefApertureAccess_kept _ _ _
  | .tieLaneTrained _ _ _ _ => execTieLaneTrained_kept _ _ _ _ _
  | .tieLinkDown => execTieLinkDown_kept  _
  | .tieHoldExpiry => execTieHoldExpiry_kept  _
  | .tieWaitExpiry => execTieWaitExpiry_kept  _
  | .inputMessage _ _ => execInputMessage_kept _ _ _
  | .lvlwMessage _ _ => execLvlwMessage_kept _ _ _
  | .slotReq _ _ => execSlotReq_kept _ _ _
  | .slotMessage _ _ => execSlotMessage_kept _ _ _
  | .digest _ _ => execDigest_kept _ _ _
  | .tailframe _ _ => execTailframe_kept _ _ _
  | .controlYield _ _ => execControlYield_kept _ _ _
  | .controlTakeover _ _ => execControlTakeover_kept _ _ _
  | .controlRole _ _ => execControlRole_kept _ _ _
  | .controlBroken _ _ => execControlBroken_kept _ _ _
  | .controlIntact _ _ => execControlIntact_kept _ _ _
  | .sweep _ _ => execSweep_kept _ _ _
  | .image _ _ => execImage_kept _ _ _
  | .mailboxMessage _ _ => execMailboxMessage_kept _ _ _
  | .healthMessage _ _ => execHealthMessage_kept _ _ _
  | .yieldInChange _ => execYieldInChange_kept _ _
  | .takeover => execTakeover_kept  _
  | .yieldPinFault => execYieldPinFault_kept  _
  | .strandBroken _ => execStrandBroken_kept _ _
  | .strandIntact _ => execStrandIntact_kept _ _
  | .tailTrainingStart _ => execTailTrainingStart_kept _ _
  | .joinImageComplete _ => execJoinImageComplete_kept _ _
  | .joinComplete => execJoinComplete_kept  _
  | .tieSwitch _ => execTieSwitch_kept _ _
  | .tieDemote _ => execTieDemote_kept _ _
  | .tieJoin _ => execTieJoin_kept _ _
  | .tieClr => execTieClr_kept  _
  | .healthSend => execHealthSend_kept  _
  | .healthLate => execHealthLate_kept  _
  | .dualHead => execDualHead_kept  _
  | .accordPortTrained _ _ _ _ _ _ => execAccordPortTrained_kept _ _ _ _ _ _ _
  | .accordFrameForward _ _ => execAccordFrameForward_kept _ _ _
  | .agg _ _ => execAgg_kept _ _ _
  | .dist _ _ => execDist_kept _ _ _
  | .stage _ _ => execStage_kept _ _ _
  | .ack _ _ => execAck_kept _ _ _
  | .commit _ _ => execCommit_kept _ _ _
  | .cancel _ _ => execCancel_kept _ _ _
  | .odreq _ _ => execOdreq_kept _ _ _
  | .odrsp _ _ => execOdrsp_kept _ _ _
  | .odrspTimeout _ => execOdrspTimeout_kept _ _
  | .leadElection _ _ => execLeadElection_kept _ _ _
  | .stageDeadline => execStageDeadline_kept  _
  | .activationInstant => execActivationInstant_kept  _
  | .stageRevert => execStageRevert_kept  _
  | .accordMemberLost _ _ => execAccordMemberLost_kept _ _ _
  | .accordLeadLost _ => execAccordLeadLost_kept _ _
  | .acqFrameArm _ _ => execAcqFrameArm_kept _ _ _
  | .acqFrameReq _ _ => execAcqFrameReq_kept _ _ _
  | .acqFrameTrig _ _ => execAcqFrameTrig_kept _ _ _
  | .acqFrameClosed _ _ => execAcqFrameClosed_kept _ _ _
  | .acqFrameDisarm _ _ => execAcqFrameDisarm_kept _ _ _
  | .timSetGo _ => execTimSetGo_kept _ _
  | .ptpMessage _ _ _ => execPtpMessage_kept _ _ _ _
  | .announceTimeout => execAnnounceTimeout_kept  _
  | .holdoverLimit => execHoldoverLimit_kept  _
  | .txtsNext _ => execTxtsNext_kept _ _
  | .launchPush _ _ => execLaunchPush_kept _ _ _
  | .timedLaunch _ => execTimedLaunch_kept _ _
  | .dlyReq _ _ _ => execDlyReq_kept _ _ _ _
  | .dlyRspSend _ => execDlyRspSend_kept _ _
  | .dlyRsp _ _ _ _ => execDlyRsp_kept _ _ _ _ _
  | .tmArm _ _ _ => kept_onCell _ _ _
  | .tmBoundWrite _ _ => kept_onCell _ _ _
  | .vddSafePowerOn => execVddSafePowerOn_kept  _
  | .islandTestEnd _ => execIslandTestEnd_kept _ _
  | .paramSetPoll _ => execParamSetPoll_kept _ _
  | .islandLockstepMismatch => execIslandLockstepMismatch_kept  _
  | .islandWatchdogExpiry => execIslandWatchdogExpiry_kept  _
  | .islandMemoryError _ => execIslandMemoryError_kept _ _
  | .islandOscDeviation _ _ => execIslandOscDeviation_kept _ _ _
  | .safeMonitorTrip => execSafeMonitorTrip_kept  _
  | .islandCycle _ => execIslandCycle_kept _ _
  | .safeInputFilter _ _ _ => execSafeInputFilter_kept _ _ _ _
  | .discrepancyFault _ => execDiscrepancyFault_kept _ _
  | .testPulseDark _ _ => execTestPulseDark_kept _ _ _
  | .testPulseCheck _ _ => execTestPulseCheck_kept _ _ _
  | .testPulseSettleCheck _ _ => execTestPulseSettleCheck_kept _ _ _
  | .tpFeedbackFault _ _ => execTpFeedbackFault_kept _ _ _
  | .resetButtonPress => execResetButtonPress_kept  _
  | .resetButtonRelease => execResetButtonRelease_kept  _
  | .resetStuck _ => execResetStuck_kept _ _
  | .outputReadbackFault _ _ _ => execOutputReadbackFault_kept _ _ _ _
  | .outputTestStart _ _ => execOutputTestStart_kept _ _ _
  | .outputTestEnd _ _ => execOutputTestEnd_kept _ _ _
  | .outputFeedbackCheck _ _ => execOutputFeedbackCheck_kept _ _ _
  | .sbcBlockDelay => execSbcBlockDelay_kept  _
  | .brakeTestFeedback _ => execBrakeTestFeedback_kept _ _
  | .brakeTestEnd => execBrakeTestEnd_kept  _
  | .brakeTestHour => execBrakeTestHour_kept  _
  | .mateNotLive _ => execMateNotLive_kept _ _
  | .mateFault => execMateFault_kept  _
  | .telegramReceived _ _ => execTelegramReceived_kept _ _ _
  | .telegramSkewExpiry _ => execTelegramSkewExpiry_kept _ _
  | .connectionWatchdog _ => execConnectionWatchdog_kept _ _
  | .telegramSend _ => execTelegramSend_kept _ _
  | .paramStage _ _ => execParamStage_kept _ _ _
  | .paramCommit _ _ => execParamCommit_kept _ _ _
  | .paramAbort _ _ => execParamAbort_kept _ _ _
  | .paramRead _ _ => execParamRead_kept _ _ _
  | .paramTransactionTimeout => execParamTransactionTimeout_kept  _
  | .faultSourceRaise _ => execFaultSourceRaise_kept _ _
  | .faultCauseAbsent _ => execFaultCauseAbsent_kept _ _
  | .fltStatClear _ _ => kept_write _ _ _
  | .fltInject _ _ => kept_write _ _ _
  | .fltRearm => kept_write _ _ _
  | .fltClrAll _ => kept_write _ _ _
  | .fltApp => kept_write _ _ _
  | .fltSrcConfig _ _ _ => kept_write _ _ _
  | .cellSourceLatch _ _ => kept_onCell _ _ _
  | .cfltStatClear _ _ => kept_onCell _ _ _
  | .cfltRearm _ => kept_onCell _ _ _
  | .acqArm => kept_write _ _ _
  | .acqDisarm => kept_write _ _ _
  | .acqForce => kept_write _ _ _
  | .acqEvaluation => execAcqEvaluation_kept  _
  | .sequencerMatch => execSequencerMatch_kept  _
  | .sequencerTimeout => execSequencerTimeout_kept  _
  | .recordClose _ => execRecordClose_kept _ _
  | .acqMarkNext => kept_write _ _ _
  | .acqClr => kept_write _ _ _
  | .ctrgForce _ => kept_onCell _ _ _
  | .ctrgHoldoffEnd _ => kept_onCell _ _ _
  | .lockstepMismatch _ => execLockstepMismatch_kept _ _
  | .lockstepInject _ _ _ => execLockstepInject_kept _ _ _ _
  | .lockstepInjectPeriodic _ => execLockstepInjectPeriodic_kept _ _
  | .partitionFault _ => execPartitionFault_kept _ _
  | .partitionBudgetExhausted _ => execPartitionBudgetExhausted_kept _ _
  | .partWrite _ _ => execPartWrite_kept _ _ _
  | .queueDepthWrite _ _ => execQueueDepthWrite_kept _ _ _
  | .schPush _ _ _ => execSchPush_kept _ _ _ _
  | .pushStallComplete _ => execPushStallComplete_kept _ _
  | .pushBackpressureTimeout _ => execPushBackpressureTimeout_kept _ _
  | .queueTick _ => execQueueTick_kept _ _
  | .schGet _ => execSchGet_kept _ _
  | .schGetWait _ => execSchGetWait_kept _ _
  | .getWaitResume _ => execGetWaitResume_kept _ _
  | .getWaitTimeout _ => execGetWaitTimeout_kept _ _
  | .hartLoadUpdate _ _ _ => execHartLoadUpdate_kept _ _ _ _
  | .schClr => execSchClr_kept  _
  | .counterWrap _ _ => execCounterWrap_kept _ _ _
  | .counterWrite _ _ _ _ _ => execCounterWrite_kept _ _ _ _ _ _
  | .pmcFreeze _ _ => execPmcFreeze_kept _ _ _
  | .snapshotGo _ => execSnapshotGo_kept _ _
  | .snapshotTimed _ => execSnapshotTimed_kept _ _
  | .sramEccError _ _ _ _ => execSramEccError_kept _ _ _ _ _
  | .protectedWrite _ _ => execProtectedWrite_kept _ _ _
  | .memPwrWrite _ _ => execMemPwrWrite_kept _ _ _
  | .bankPowerDone _ => execBankPowerDone_kept _ _
  | .bgTestRegion => execBgTestRegion_kept  _
  | .bgTestRegionDone _ _ _ => execBgTestRegionDone_kept _ _ _ _
  | .codeCheck _ => execCodeCheck_kept _ _
  | .ddrInit => execDdrInit_kept  _
  | .ddrInitDone _ => execDdrInitDone_kept _ _
  | .ddrTempRead _ => execDdrTempRead_kept _ _
  | .ddrScrub => execDdrScrub_kept  _
  | .ddrEccError _ _ _ => execDdrEccError_kept _ _ _ _
  | .secRoll _ _ _ => execSecRoll_kept _ _ _ _
  | .secRevoke _ _ _ => execSecRevoke_kept _ _ _ _
  | .fuseProgramDone => execFuseProgramDone_kept  _
  | .cellSramRetention _ => kept_onCell _ _ _
  | .cellBgTestRegion _ _ _ _ => kept_onCell _ _ _
  | .tempSample _ => kept_onCell _ _ _
  | .hoursTick _ => kept_onCell _ _ _
  | .damageCalc _ => kept_onCell _ _ _
  | .dailyHistory _ => kept_onCell _ _ _
  | .healthRank => execHealthRank_kept  _
  | .healthImageSave => execHealthImageSave_kept  _
  | .hctlLoaded _ => kept_onCell _ _ _
  | .hcfgNomWrite _ _ _ => kept_onCell _ _ _
  | .ageingMeasure _ => execAgeingMeasure_kept _ _
  | .ageHour => execAgeHour_kept  _
  | .odRead _ _ _ => execOdRead_kept _ _ _ _
  | .odWrite _ _ _ _ => execOdWrite_kept _ _ _ _ _
  | .odSelectWrite _ _ _ => execOdSelectWrite_kept _ _ _ _
  | .odCellWrite _ _ => execOdCellWrite_kept _ _ _
  | .odStore _ _ => execOdStore_kept _ _ _
  | .odRestoreDefaults _ _ => execOdRestoreDefaults_kept _ _ _
  | .odReplayClr => kept_write _ _ _
  | .calFullPoll _ => execCalFullPoll_kept _ _
  | .usdoRequest _ _ _ _ _ => execUsdoRequest_kept _ _ _ _ _ _
  | .canSessionIdle _ _ => execCanSessionIdle_kept _ _ _
  | .heartbeat _ => execHeartbeat_kept _ _
  | .hello _ => execHello_kept _ _
  | .bye _ => execBye_kept _ _
  | .udpRead _ => execUdpRead_kept _ _
  | .udpWrite _ => execUdpWrite_kept _ _
  | .dread _ => execDread_kept _ _
  | .dwrite _ => execDwrite_kept _ _
  | .setpoint _ => execSetpoint_kept _ _
  | .udpSessionIdle _ => execUdpSessionIdle_kept _ _
  | .arpRequest _ _ _ => execArpRequest_kept _ _ _ _
  | .icmpEcho _ _ _ _ _ => execIcmpEcho_kept _ _ _ _ _ _
  | .supplyMonitor _ => execSupplyMonitor_kept _ _
  | .clockMonitorWindow _ _ _ => execClockMonitorWindow_kept _ _ _ _
  | .registerWrite _ _ _ _ => execRegisterWrite_kept _ _ _ _ _
  | .supplyMonitorsGood => execSupplyMonitorsGood_kept  _
  | .storeComplete _ => execStoreComplete_kept _ _
  | .snapshotComplete => execSnapshotComplete_kept  _
  | .cellLiveCauseAbsent _ _ => kept_onCell _ _ _

theorem exec_completes (c : Instr) (s : State) : Completes (exec c s) :=
  let ⟨t, ht, _⟩ := exec_kept c s
  ⟨t, ht⟩

theorem keeps_of_exec {c : Instr} {s t : State} (h : exec c s = .next t) : Keeps (footprint c) s t := by
  obtain ⟨u, hu, hk⟩ := exec_kept c s
  obtain rfl : u = t := by simpa [hu] using h
  exact hk

theorem step_of_pending {s : State} {c : Instr} {rest : List Instr} (h : s.pending = c :: rest) :
    step s = exec c { s with pending := rest } := by
  simp only [step, h]

theorem step_of_empty {s : State} (h : s.pending = []) : step s = .next s.tick := by simp only [step, h]

/-- Settles O1. -/
theorem stepRunsTheFrontCommand : Obligations.StepRunsTheFrontCommand := fun _ _ _ h => step_of_pending h

/-- Settles O3. -/
theorem commandsLeaveTheQueue : Obligations.CommandsLeaveTheQueue := fun _ _ _ h => (keeps_of_exec h).1.1

/-- Settles O4. -/
theorem commandsChangeOnlyTheirFootprint : Obligations.CommandsChangeOnlyTheirFootprint :=
  fun _ _ _ h => (keeps_of_exec h).1

/-- Settles O5. -/
theorem everyCommandCompletes : Obligations.EveryCommandCompletes := exec_completes

/-- Settles O6: a tick keeps the canonical form, and so does every command, by the frame of its meaning. -/
theorem stepKeepsCanonicalForm : Obligations.StepKeepsCanonicalForm := by
  intro s t hs hstep
  cases hp : s.pending with
  | nil =>
    rw [step_of_empty hp] at hstep
    obtain rfl : s.tick = t := by simpa using hstep
    exact (keeps_tick (F := allParts) s (by decide) (.refl _ s)).2 hs
  | cons c rest =>
    rw [step_of_pending hp] at hstep
    exact (keeps_of_exec hstep).2 hs

/-! ### A tick of time -/

theorem State.reach_same_second {s : State} {n : Nat} (hn : s.now ≤ n) (h : n / 10 ^ 9 = s.now / 10 ^ 9) :
    s.reach n = { s with now := n } := by
  have hmax : Nat.max s.now n = n := Nat.max_eq_right hn
  have hsame : decide (s.now / 1000000000 < n / 1000000000) = false := by simp only [decide_eq_false_iff_not]; omega
  simp only [State.reach, hmax, hsame, State.when_false]

/-- The time by which a tick goes on, in units of 10^-12 ns: 4 ns and the rate correction of them. -/
def State.tickSpan (s : State) : Nat := (((s.nowFrac + 4000000000000 : Nat) : Int) + 4 * toSigned 32 (s.rd R.TIM_RATE_RATE)).toNat

theorem State.tickSpan_bounds {s : State} (h : s.nowFrac < 10 ^ 12) :
    3 ≤ s.tickSpan / 10 ^ 12 ∧ s.tickSpan / 10 ^ 12 ≤ 5 := by
  have hrate : -(2 ^ 31) ≤ toSigned 32 (s.rd R.TIM_RATE_RATE) ∧ toSigned 32 (s.rd R.TIM_RATE_RATE) < 2 ^ 31 := by
    unfold toSigned
    dsimp only
    split <;> omega
  unfold State.tickSpan
  omega

theorem State.tick_running {s : State} (h : s.st ≠ St.reset) : s.tick =
    { s.reach (s.now + s.tickSpan / 10 ^ 12) with
      nowFrac := s.tickSpan % 10 ^ 12, now := (s.reach (s.now + s.tickSpan / 10 ^ 12)).now % timeEnd } := by
  rw [State.tick, if_neg h]
  rfl

/-- Settles O2: the tick stays in its second and below the wrap, so that only the time differs. -/
theorem emptyQueueLetsOnlyTimePass : Obligations.EmptyQueueLetsOnlyTimePass := by
  refine ⟨fun s hp hst hfrac hsec hend => ?_, fun s hp hst => ?_⟩
  · obtain ⟨hlo, hhi⟩ := s.tickSpan_bounds hfrac
    have hreach : s.reach (s.now + s.tickSpan / 10 ^ 12) = { s with now := s.now + s.tickSpan / 10 ^ 12 } :=
      State.reach_same_second (by omega) (by omega)
    have hnow : (s.now + s.tickSpan / 10 ^ 12) % timeEnd = s.now + s.tickSpan / 10 ^ 12 := Nat.mod_eq_of_lt (by omega)
    refine ⟨_, step_of_empty hp, ?_⟩
    rw [State.tick_running hst, hreach]
    dsimp only
    rw [hnow]
    exact ⟨rfl, by omega, by omega⟩
  · rw [step_of_empty hp, State.tick, if_pos hst]

/-- Settles O7. -/
theorem resetHoldsResetValues : Obligations.ResetHoldsResetValues :=
  ⟨⟨mapWf_nil _, mapWf_nil _, mapWf_nil _⟩, fun _ => rfl, fun _ _ => rfl⟩

/-- Settles O13. -/
theorem headersBlockOutsideDeblocked : Obligations.HeadersBlockOutsideDeblocked := by
  intro s hst type hcmd
  have hturn : (type == 1 && s.deblocks) = false := by
    by_cases h : type = 1 <;> simp [h, hcmd]
  simp [State.headerBlock, hst, hturn]

end Sys2Proof.Machine
end

section
/-! The legs of a cell (R157, R159, R160): what forming the gates anew leaves on, and that no operation of the switching
unit drives or demands both gates of a leg. -/

namespace Sys2Proof.Machine

/-! ### Fields of a cell -/

theorem Cell.rd_lt (c : Cell) (f : Fld) : c.rd f < 2 ^ f.width := bitsOf_lt _ _ _

theorem Cell.rd_putBit_apart (c : Cell) (f g : Fld) (i : Nat) (b : Bool) (hf : f.inWord = true) (h : f.apart g = true) :
    (c.putBit f i b).rd g = c.rd g := Cell.rd_wr_apart c f g _ hf h

theorem Cell.rd_inc_apart (c : Cell) (f g : Fld) (n : Nat) (hf : f.inWord = true) (h : f.apart g = true) :
    (c.inc f n).rd g = c.rd g := Cell.rd_wr_apart c f g _ hf h

theorem Cell.when_keeps (P : Cell → Prop) {c : Cell} (b : Bool) {f : Cell → Cell} (hc : P c) (hf : P (f c)) :
    P (c.when b f) := by cases b <;> assumption

theorem Cell.forN_keeps (P : Cell → Prop) {c : Cell} (n : Nat) {f : Nat → Cell → Cell} (hf : ∀ i d, P d → P (f i d))
    (hc : P c) : P (c.forN n f) := by
  unfold Cell.forN
  induction upto n generalizing c with
  | nil => exact hc
  | cons i l ih => exact ih (hf i c hc)

theorem bitOf_eq_testBit (n i : Nat) : bitOf n i = n.testBit i := by
  rw [Nat.testBit_eq_decide_div_mod_eq, bitOf]
  rfl

theorem bitOf_mod_two_pow {n w g : Nat} (h : g < w) : bitOf (n % 2 ^ w) g = bitOf n g := by
  simp [bitOf_eq_testBit, Nat.testBit_mod_two_pow, h]

@[simp] theorem bitOf_zero (g : Nat) : bitOf 0 g = false := by simp [bitOf]

theorem bitOf_and (m n g : Nat) : bitOf (m &&& n) g = (bitOf m g && bitOf n g) := by
  simp [bitOf_eq_testBit]

/-! ### Gates formed anew -/

/-- Four gates set one by one read as they were set. -/
theorem bitOf_fourGates (f : Nat → Bool) (n : Nat) {g : Nat} (hg : g < 4) :
    bitOf ((upto 4).foldl (fun n g => Machine.putBit n g (f g)) n) g = f g := by
  have hlist : upto 4 = [0, 1, 2, 3] := rfl
  simp only [hlist, List.foldl_cons, List.foldl_nil]
  interval_cases g <;> simp [bitOf_putBit_ne]
theorem otherGate_lt {g : Nat} (h : g < 4) : otherGate g < 4 := by
  unfold otherGate
  split <;> omega

theorem otherGate_otherGate {g : Nat} (h : g < 4) : otherGate (otherGate g) = g := by
  interval_cases g <;> rfl

/-- The gates on before. -/
abbrev Cell.gates (c : Cell) : Nat := c.rd K.PWM_STATUS_GATES

/-- The gates that stay on when they are formed anew. -/
def Cell.kept (c : Cell) (now : Nat) : Nat :=
  (upto 4).foldl (fun n g => Machine.putBit n g (bitOf c.gates g && c.gateLevel now c.gates g == 1)) c.gates

/-- The cell with the times at which gates have turned off now. -/
def Cell.turnedOff (c : Cell) (now : Nat) : Cell :=
  { c with pw := { c.pw with offAt := (upto 4).map fun g => if bitOf c.gates g && !bitOf (c.kept now) g then now else c.offAt g } }

/-- The gates that are on once they have been formed anew. -/
def Cell.formed (c : Cell) (now : Nat) : Nat :=
  (upto 4).foldl (fun n g => Machine.putBit n g ((c.turnedOff now).gateLevel now (c.kept now) g == 1)) (c.kept now)

theorem Cell.bitOf_kept (c : Cell) (now : Nat) {g : Nat} (hg : g < 4) :
    bitOf (c.kept now) g = (bitOf c.gates g && c.gateLevel now c.gates g == 1) := bitOf_fourGates _ _ hg

theorem Cell.bitOf_formed (c : Cell) (now : Nat) {g : Nat} (hg : g < 4) :
    bitOf (c.formed now) g = ((c.turnedOff now).gateLevel now (c.kept now) g == 1) := bitOf_fourGates _ _ hg

theorem Cell.rd_pins_apart (c : Cell) (f : Fld) (h : K.GATE_RB_PIN.apart f = true) (h' : K.GATE_RB_BYP_PIN.apart f = true) :
    c.pins.rd f = c.rd f := by
  rw [Cell.pins, Cell.rd_put_apart _ _ _ _ (by decide) h', Cell.rd_wr_apart _ _ _ _ (by decide) h]

theorem Cell.gates_regate (c : Cell) (now : Nat) : (c.regate now).gates = c.formed now % 2 ^ 4 := by
  simp only [Cell.gates, Cell.regate]
  rw [Cell.rd_pins_apart _ _ (by decide) (by decide), Cell.rd_wr_apart _ _ _ _ (by decide) (by decide),
    Cell.rd_wr_same _ _ _ (by decide)]
  rfl

theorem Cell.demand_regate (c : Cell) (now : Nat) : (c.regate now).pw.demand = c.pw.demand := rfl

theorem Cell.bitOf_gates_regate (c : Cell) (now : Nat) {g : Nat} (hg : g < 4) :
    bitOf (c.regate now).gates g = ((c.turnedOff now).gateLevel now (c.kept now) g == 1) := by
  rw [Cell.gates_regate, bitOf_mod_two_pow hg, Cell.bitOf_formed _ _ hg]

/-- A gate that the entry does not demand, or that is held off, is on only if it stretches a pulse. -/
theorem Cell.on_of_gateLevel {c : Cell} {now n g : Nat} (h : c.gateLevel now n g = 1) :
    c.driving = true ∧ (bitOf n g = true ∨
      bitOf c.pw.demand g = true ∧ bitOf n (otherGate g) = false ∧ c.offAt (otherGate g) + 5 * c.deadTime g ≤ now) := by
  simp only [Cell.gateLevel, bitOf_and] at h
  cases hd : c.driving <;> cases hn : bitOf n g <;> cases ho : bitOf n (otherGate g) <;>
    simp_all <;> split at h <;> simp_all

theorem Cell.gateLevel_not_driving {c : Cell} (now n g : Nat) (h : c.driving = false) : c.gateLevel now n g = 0 := by
  simp [Cell.gateLevel, h]

theorem Cell.gatesOff_of_bits {c : Cell} (h : ∀ g, g < 4 → bitOf c.gates g = false) : c.GatesOff := by
  refine Nat.eq_of_testBit_eq fun i => ?_
  have hlt : c.gates < 2 ^ 4 := c.rd_lt _
  rw [Nat.zero_testBit]
  by_cases hi : i < 4
  · rw [← bitOf_eq_testBit]
    exact h i hi
  · exact Nat.testBit_lt_two_pow (lt_of_lt_of_le hlt (Nat.pow_le_pow_right (by decide) (by omega)))

/-- A cell that is held off has every gate off once the gates have been formed anew. -/
theorem Cell.gatesOff_regate {c : Cell} (now : Nat) (h : c.driving = false) : (c.regate now).GatesOff :=
  Cell.gatesOff_of_bits fun g hg => by
    rw [Cell.bitOf_gates_regate _ _ hg, Cell.gateLevel_not_driving]
    · rfl
    · exact h

/-! ### Both gates of a leg -/

/-- No leg has both of its bits set. -/
def LegsDisjoint (n : Nat) : Prop := ∀ g, g < 4 → ¬(bitOf n g = true ∧ bitOf n (otherGate g) = true)

theorem Cell.legsApart_iff (c : Cell) : c.LegsApart ↔ LegsDisjoint c.gates ∧ LegsDisjoint c.pw.demand :=
  ⟨fun h => ⟨fun g hg => (h g hg).1, fun g hg => (h g hg).2⟩, fun h g hg => ⟨h.1 g hg, h.2 g hg⟩⟩

theorem legsDisjoint_zero : LegsDisjoint 0 := fun g _ h => by simp at h

/-- A gate turns on only beside a partner that is off. -/
theorem Cell.other_off_of_gate_on {c : Cell} {now g : Nat} (hg : g < 4) (hc : c.LegsApart)
    (hon : bitOf (c.regate now).gates g = true) : bitOf (c.regate now).gates (otherGate g) = false := by
  obtain ⟨hgates, hdemand⟩ := c.legsApart_iff.1 hc
  have ho := otherGate_lt hg
  by_contra hother
  rw [Bool.not_eq_false] at hother
  rw [Cell.bitOf_gates_regate _ _ hg, beq_iff_eq] at hon
  rw [Cell.bitOf_gates_regate _ _ ho, beq_iff_eq] at hother
  obtain ⟨-, hon⟩ := Cell.on_of_gateLevel hon
  obtain ⟨-, hother⟩ := Cell.on_of_gateLevel hother
  rw [otherGate_otherGate hg] at hother
  rcases hon with hon | ⟨hdem, hoff, -⟩ <;> rcases hother with hother | ⟨hdem', hoff', -⟩
  · rw [Cell.bitOf_kept _ _ hg, Bool.and_eq_true] at hon
    rw [Cell.bitOf_kept _ _ ho, Bool.and_eq_true] at hother
    exact hgates g hg ⟨hon.1, hother.1⟩
  · simp [hon] at hoff'
  · simp [hother] at hoff
  · exact hdemand g hg ⟨hdem, hdem'⟩

theorem Cell.regate_legsApart {c : Cell} (now : Nat) (hc : c.LegsApart) : (c.regate now).LegsApart := by
  rw [Cell.legsApart_iff]
  refine ⟨fun g hg h => ?_, (c.legsApart_iff.1 hc).2⟩
  have := Cell.other_off_of_gate_on (now := now) hg hc h.1
  simp [h.2] at this

/-- A gate that turns on has a partner that has been off for the dead time of that edge. -/
theorem Cell.dead_time_of_turn_on {c : Cell} {now g : Nat} (hg : g < 4) (hoff : bitOf c.gates g = false)
    (hon : bitOf (c.regate now).gates g = true) : (c.regate now).offAt (otherGate g) + 5 * c.deadTime g ≤ now := by
  rw [Cell.bitOf_gates_regate _ _ hg, beq_iff_eq] at hon
  obtain ⟨-, hon⟩ := Cell.on_of_gateLevel hon
  rcases hon with hon | ⟨-, -, hdead⟩
  · simp [Cell.bitOf_kept _ _ hg, hoff] at hon
  · exact hdead

end Sys2Proof.Machine
end

section
/-! No operation of the switching unit drives or demands both gates of a leg (R157, R160), and so no switching command. -/

namespace Sys2Proof.Machine

variable {c d : Cell}

/-! ### Operations that leave gates and demand -/

theorem Cell.legsApart_congr (hregs : d.regs = c.regs) (hdemand : d.pw.demand = c.pw.demand) (h : c.LegsApart) :
    d.LegsApart := by
  rw [Cell.legsApart_iff] at h ⊢
  rw [Cell.gates, Cell.rd, Cell.word_congr hregs, hdemand]
  exact h

/-- A demand with no leg twice may replace the one in force. -/
theorem Cell.legsApart_of_demand (hregs : d.regs = c.regs) (hdemand : LegsDisjoint d.pw.demand) (h : c.LegsApart) :
    d.LegsApart := by
  rw [Cell.legsApart_iff] at h ⊢
  rw [Cell.gates, Cell.rd, Cell.word_congr hregs]
  exact ⟨h.1, hdemand⟩

theorem Cell.wr_legsApart {f : Fld} (v : Nat) (hf : f.inWord = true) (hap : f.apart K.PWM_STATUS_GATES = true)
    (h : c.LegsApart) : (c.wr f v).LegsApart := by
  rw [Cell.legsApart_iff] at h ⊢
  rw [Cell.gates, Cell.rd_wr_apart _ _ _ _ hf hap]
  exact h

theorem Cell.put_legsApart {f : Fld} (b : Bool) (hf : f.inWord = true) (hap : f.apart K.PWM_STATUS_GATES = true)
    (h : c.LegsApart) : (c.put f b).LegsApart := Cell.wr_legsApart _ hf hap h

theorem Cell.putBit_legsApart {f : Fld} (i : Nat) (b : Bool) (hf : f.inWord = true)
    (hap : f.apart K.PWM_STATUS_GATES = true) (h : c.LegsApart) : (c.putBit f i b).LegsApart := Cell.wr_legsApart _ hf hap h

theorem Cell.inc_legsApart {f : Fld} (n : Nat) (hf : f.inWord = true) (hap : f.apart K.PWM_STATUS_GATES = true)
    (h : c.LegsApart) : (c.inc f n).LegsApart := Cell.wr_legsApart _ hf hap h

theorem Cell.when_legsApart (b : Bool) {f : Cell → Cell} (h : c.LegsApart) (hf : ∀ e : Cell, e.LegsApart → (f e).LegsApart) :
    (c.when b f).LegsApart := Cell.when_keeps Cell.LegsApart b h (hf c h)

theorem Cell.tally_legsApart (now : Nat) (h : c.LegsApart) : (c.tally now).LegsApart := Cell.legsApart_congr (c := c) rfl rfl h

theorem Cell.pins_legsApart (h : c.LegsApart) : c.pins.LegsApart :=
  Cell.put_legsApart _ (by decide) (by decide) (Cell.wr_legsApart _ (by decide) (by decide) h)

theorem Cell.absent_legsApart (i : Nat) (h : c.LegsApart) : (c.absent i).LegsApart :=
  Cell.putBit_legsApart _ _ (by decide) (by decide) h

theorem Cell.summarise_legsApart (h : c.LegsApart) : c.summarise.LegsApart :=
  Cell.wr_legsApart _ (by decide) (by decide) (Cell.wr_legsApart _ (by decide) (by decide) h)

theorem Cell.refuseClear_legsApart (h : c.LegsApart) : c.refuseClear.LegsApart :=
  Cell.put_legsApart _ (by decide) (by decide) (Cell.put_legsApart _ (by decide) (by decide) h)

theorem Cell.trigger_legsApart (cause time : Nat) (h : c.LegsApart) : (c.trigger cause time).LegsApart := by
  unfold Cell.trigger
  split
  · exact h
  split
  · exact Cell.inc_legsApart _ (by decide) (by decide) h
  · exact Cell.wr_legsApart _ (by decide) (by decide) <| Cell.inc_legsApart _ (by decide) (by decide) <|
      Cell.put_legsApart _ (by decide) (by decide) <| Cell.wr_legsApart _ (by decide) (by decide) <|
      Cell.legsApart_congr (c := c) rfl rfl h

theorem Cell.dropAcc_legsApart (h : c.LegsApart) : c.dropAcc.LegsApart := by
  unfold Cell.dropAcc
  split
  · exact h
  · exact Cell.inc_legsApart _ (by decide) (by decide) (Cell.wr_legsApart _ (by decide) (by decide) h)

/-! ### Demands -/

theorem legsDisjoint_demandOf (c : Cell) (cls : Nat) : LegsDisjoint (c.demandOf cls) := by
  have hall : ∀ n ∈ [0b0010, 0b0001, 0b0101, 0b1010, 0b1001, 0b0110, 0], LegsDisjoint n := by
    unfold LegsDisjoint
    decide
  refine hall _ ?_
  unfold Cell.demandOf
  split <;> [skip; skip; split; skip; skip; skip] <;> simp

theorem legsDisjoint_legDemand {n : Nat} (leg : Fin 2) (high : Bool) (h : LegsDisjoint n) :
    LegsDisjoint (legDemand n leg high) := by
  intro g hg
  have h0 := h 0 (by decide)
  have h1 := h 1 (by decide)
  have h2 := h 2 (by decide)
  have h3 := h 3 (by decide)
  simp only [otherGate] at h0 h1 h2 h3
  fin_cases leg <;> interval_cases g <;> cases high <;> simp_all [legDemand, otherGate, bitOf_putBit_ne]

theorem Cell.discard_legsApart (h : c.LegsApart) : c.discard.LegsApart :=
  Cell.legsApart_of_demand (c := (c.wr K.PWM_ACC_ACC 0).put K.PWM_STATUS_ACC_POL false) rfl legsDisjoint_zero
    (Cell.put_legsApart (f := K.PWM_STATUS_ACC_POL) false (by decide) (by decide)
      (Cell.wr_legsApart (f := K.PWM_ACC_ACC) 0 (by decide) (by decide) h))

theorem Cell.demandClass_legsApart (now cls : Nat) (h : c.LegsApart) : (c.demandClass now cls).LegsApart :=
  Cell.regate_legsApart now (Cell.legsApart_of_demand (c := c.tally now) rfl (legsDisjoint_demandOf c cls)
    (Cell.tally_legsApart now h))

theorem Cell.legDemand_legsApart (now : Nat) (leg : Fin 2) (high : Bool) (h : c.LegsApart) :
    (Cell.regate { c.tally now with pw := { c.pw with demand := legDemand c.pw.demand leg high } } now).LegsApart :=
  Cell.regate_legsApart now (Cell.legsApart_of_demand (c := c.tally now) rfl
    (legsDisjoint_legDemand leg high (c.legsApart_iff.1 h).2) (Cell.tally_legsApart now h))

theorem Cell.crossLeg_legsApart (now : Nat) (leg : Fin 2) (high : Bool) (h : c.LegsApart) :
    (c.crossLeg now leg high).LegsApart := by
  unfold Cell.crossLeg
  refine iteInduction (fun _ => Cell.legsApart_congr (c := c) rfl rfl h) fun _ => ?_
  extract_lets g minp short
  refine iteInduction (fun _ => Cell.legsApart_congr (c := c) rfl rfl h) fun _ => iteInduction (fun _ => ?_) fun _ => ?_
  · exact Cell.inc_legsApart _ (by decide) (by decide) (Cell.legsApart_congr (c := c) rfl rfl h)
  · exact Cell.legDemand_legsApart (c := Cell.when c _ _) now leg high (Cell.when_legsApart _ h fun e he =>
      Cell.inc_legsApart _ (by decide) (by decide) (Cell.legsApart_congr (c := e) rfl rfl he))

/-! ### Latches and states -/

theorem Cell.toBlocked_legsApart (now : Nat) (h : c.LegsApart) : (c.toBlocked now).LegsApart :=
  Cell.regate_legsApart now (Cell.discard_legsApart (Cell.legsApart_congr (c := c.tally now) rfl rfl (Cell.tally_legsApart now h)))

theorem Cell.startBypass_legsApart (now : Nat) (h : c.LegsApart) : (c.startBypass now).LegsApart := by
  unfold Cell.startBypass
  split
  · exact h
  · exact Cell.regate_legsApart now (Cell.discard_legsApart
      (Cell.legsApart_congr (c := c.tally now) rfl rfl (Cell.tally_legsApart now h)))

theorem Cell.latch_legsApart (now i : Nat) (h : c.LegsApart) : (c.latch now i).LegsApart := by
  unfold Cell.latch
  dsimp only
  split
  · exact h
  refine Cell.summarise_legsApart (Cell.regate_legsApart now ?_)
  have hlatched : Cell.LegsApart { c.putBit K.CFLT_STAT_STAT i true with
      cls := mapSet (fun _ => 0) (c.putBit K.CFLT_STAT_STAT i true).cls i
        (Nat.max (c.rd (K.CFLT_CLASS_CLASS (i / 8) (i % 8))) (mapGet (fun _ => 0) (c.putBit K.CFLT_STAT_STAT i true).cls i)) } :=
    Cell.legsApart_congr (c := c.putBit K.CFLT_STAT_STAT i true) rfl rfl (Cell.putBit_legsApart _ _ (by decide) (by decide) h)
  refine Cell.when_legsApart _ (Cell.when_legsApart _ (Cell.when_legsApart _ (Cell.when_legsApart _ hlatched ?first) ?bypass) ?lock) ?trigger
  case first =>
    exact fun e he => Cell.legsApart_congr (c := Cell.wr _ K.CFLT_FTIME_FTIME _) rfl rfl <|
      Cell.wr_legsApart _ (by decide) (by decide) <| Cell.wr_legsApart _ (by decide) (by decide) <|
      Cell.put_legsApart _ (by decide) (by decide) <| Cell.wr_legsApart _ (by decide) (by decide) he
  case bypass => exact fun e he => Cell.startBypass_legsApart now he
  case lock =>
    intro e he
    have hput := Cell.put_legsApart (f := K.CFLT_SUM_LOCK_LATCH) true (by decide) (by decide) he
    split
    · exact hput
    · exact Cell.discard_legsApart (Cell.legsApart_congr (c := e.put _ _) rfl rfl hput)
  case trigger => exact fun e he => Cell.trigger_legsApart _ _ he

theorem Cell.raiseLevel_legsApart (now i : Nat) (h : c.LegsApart) : (c.raiseLevel now i).LegsApart :=
  Cell.latch_legsApart now i (Cell.putBit_legsApart _ _ (by decide) (by decide) h)

theorem Cell.cause_legsApart (now i : Nat) (h : c.LegsApart) : (c.cause now i).LegsApart := by
  unfold Cell.cause
  split
  · exact Cell.raiseLevel_legsApart now i h
  · exact Cell.latch_legsApart now i h

theorem Cell.unlatch_legsApart (i : Nat) (h : c.LegsApart) : (c.unlatch i).LegsApart := by
  have hlatch : Cell.LegsApart { c.putBit K.CFLT_STAT_STAT i false with cls := mapErase c.cls i } :=
    Cell.legsApart_congr (c := c.putBit K.CFLT_STAT_STAT i false) rfl rfl (Cell.putBit_legsApart _ _ (by decide) (by decide) h)
  unfold Cell.unlatch
  dsimp only
  split
  · exact Cell.putBit_legsApart _ _ (by decide) (by decide) hlatch
  split
  · exact Cell.wr_legsApart _ (by decide) (by decide) hlatch
  split
  · exact Cell.put_legsApart _ (by decide) (by decide) hlatch
  · exact hlatch

theorem Cell.clearShared_legsApart (i : Nat) (h : c.LegsApart) : (c.clearShared i).LegsApart := by
  unfold Cell.clearShared
  split
  · exact Cell.put_legsApart _ (by decide) (by decide) h
  · exact Cell.unlatch_legsApart i h

theorem Cell.afterClear_legsApart (was : Cell) (now : Nat) (h : c.LegsApart) : (c.afterClear was now).LegsApart :=
  Cell.summarise_legsApart (Cell.regate_legsApart now (Cell.legsApart_congr (c := c) rfl rfl h))

theorem Cell.clearTrip_legsApart (now v : Nat) (h : c.LegsApart) : (c.clearTrip now v).LegsApart := by
  unfold Cell.clearTrip
  dsimp only
  refine Cell.afterClear_legsApart _ now (Cell.when_legsApart _ (Cell.when_legsApart _ (Cell.forN_keeps Cell.LegsApart _ (fun i e he => Cell.when_legsApart _ he ?trip)
    (Cell.when_legsApart _ h ?flag)) ?gate) ?bypass)
  case flag => exact fun e he => Cell.put_legsApart _ (by decide) (by decide) he
  case trip =>
    intro e he
    split
    · exact Cell.refuseClear_legsApart he
    · exact Cell.clearShared_legsApart _ he
  case gate =>
    intro e he
    split
    · exact Cell.refuseClear_legsApart he
    split
    · exact Cell.clearShared_legsApart _ he
    · exact Cell.wr_legsApart _ (by decide) (by decide) he
  case bypass =>
    intro e he
    split
    · exact Cell.refuseClear_legsApart he
    · exact Cell.clearShared_legsApart _ he

end Sys2Proof.Machine
end

section
/-! No switching command drives or demands both gates of a leg (O24): the boundary with the entry that it starts, and the
other commands of section 06. -/

namespace Sys2Proof.Machine

variable {c : Cell}

/-! ### The boundary in parts -/

/-- The STATE code that the cell plays for an entry: OFF for one that it cannot play, and while TC differs (R143, R155). -/
def Cell.entryState (c : Cell) (e : Nat) : Nat :=
  if c.badState (bitsOf e 0 4) || c.pw.tcBad then 0 else bitsOf e 0 4

/-- The cell as an entry begins, before its demand. -/
def Cell.entryBegins (c : Cell) (now e : Nat) : Cell :=
  let d := (c.when (c.badState (bitsOf e 0 4)) fun c => c.cause now 7).wr K.PWM_STATUS_STATE (c.entryState e)
  { d with pw := { d.pw with parts := [], skip := 0 } }

/-- The parts of a PWM entry, the class at t_b first. -/
def Cell.partsOf (c : Cell) (st d : Nat) : Nat × List (Nat × Nat) :=
  pwmParts ((c.pwmTime (st == 5) d).2.on K.PWM_CFG_UPD) ((c.pwmTime (st == 5) d).2.rd K.PWM_TIME_TC) (c.pwmTime (st == 5) d).1
    (if st = 5 then 3 else 2)

/-- A PWM entry plays. -/
def Cell.playPwm (c : Cell) (now st d : Nat) : Cell :=
  let p := (c.pwmTime (st == 5) d).2
  Cell.demandClass { p with pw := { p.pw with parts := (c.partsOf st d).2 } } now (c.partsOf st d).1

/-- A carrier entry plays. -/
def Cell.playCarrier (c : Cell) (now : Nat) : Cell :=
  let d := c.crossLeg now 0 (c.legHigh now 0)
  if d.bridge then d.crossLeg now 1 (d.legHigh now 1) else d

theorem Cell.playEntry_eq (c : Cell) (now e : Nat) : c.playEntry now e =
    if c.entryState e = 4 ∨ c.entryState e = 5 then (c.entryBegins now e).playPwm now (c.entryState e) (bitsOf e 4 12)
    else if c.entryState e = 6 then (c.entryBegins now e).dropAcc.playCarrier now
    else (c.entryBegins now e).dropAcc.demandClass now (c.entryState e) := rfl

/-- The cell at a boundary once the new period is open, before it judges TC. -/
def Cell.periodOpens (c : Cell) (now : Nat) : Cell :=
  (Cell.newPeriod { c with pw := { c.pw with tb := now, held := false } }).nextBound.strobe

/-- TC differs from the committed step (R155). -/
def Cell.stepDiffers (c : Cell) : Bool := c.tm.layout && c.rd K.PWM_TIME_TC != 100 * c.tm.step

/-- TC judged against the step. -/
def Cell.judgeStep (c : Cell) (now : Nat) : Cell :=
  let d := c.when (c.stepDiffers && !c.pw.tcBad) fun c => c.cause now 7
  { d with pw := { d.pw with tcBad := c.stepDiffers } }

/-- The cell at a boundary before its record applies. -/
def Cell.boundaryBegins (c : Cell) (now : Nat) : Cell :=
  let d := (((c.periodOpens now).judgeStep now).carrierStart now).1
  { d with sl := { d.sl with holdoff := d.sl.holdoff - 1 } }

/-- A record's header lets the cell run. -/
def Cell.resume (c : Cell) (r : Rec) : Cell :=
  if (!bitOf (byteAt r.header 0) 3) && (c.mode == Mode.blocked || c.mode == Mode.coasting) then { c with mode := Mode.running } else c

/-- A record plays in a RUNNING cell. -/
def Cell.playRecord (c : Cell) (now : Nat) (r : Rec) : Cell :=
  let d := (c.maskAt r.header).takeRecord now r
  (d.playEntry now (d.pw.entries.getD 0 0)).wr K.PWM_STATUS_ENTRY 0

/-- A good record applies. -/
def Cell.applyRecord (c : Cell) (now : Nat) (r : Rec) : Cell :=
  let d := c.resume r
  if d.mode = Mode.running then
    if bitOf (byteAt r.body 0) 4 then (d.playRecord now r).startBypass now else d.playRecord now r
  else if bitOf (byteAt r.body 0) 4 && d.mode == Mode.blocked then d.startBypass now else d.regate now

/-- The place in the horizon at which a coasting cell goes on. -/
def Cell.nextIx (c : Cell) : Nat := Nat.min 4 (c.pw.ix + 1)

/-- A COASTING cell plays the next entry of its horizon. -/
def Cell.playOn (c : Cell) (now : Nat) : Cell :=
  let d : Cell := { c.maskCoast with pw := { c.maskCoast.pw with ix := c.nextIx } }
  (d.playEntry now (if c.nextIx ≤ d.pw.nPred then d.pw.entries.getD c.nextIx 0 else 0)).wr K.PWM_STATUS_ENTRY (Nat.min 3 c.nextIx)

/-- A boundary without a record. -/
def Cell.coast (c : Cell) (now : Nat) : Cell :=
  let d := if c.mode = Mode.running then { c with mode := Mode.coasting } else c
  if d.mode = Mode.coasting then d.playOn now else d.regate now

/-- What applies at a boundary: the record that t_H chose, or the horizon. -/
def Cell.applies (c : Cell) (now : Nat) (r : Option Rec) : Cell :=
  match r with
  | some r => c.applyRecord now r
  | none => c.coast now

theorem Cell.boundaryActs_fst (c : Cell) (now : Nat) :
    (c.boundaryActs now).1 = (c.boundaryBegins now).applies now c.lk.next := by
  unfold Cell.boundaryActs Cell.applies
  cases c.lk.next with
  | some r =>
    simp only [Cell.applyRecord, apply_ite Prod.fst]
    rfl
  | none =>
    simp only [Cell.coast, apply_ite Prod.fst]
    rfl

theorem Cell.boundary_fst (c : Cell) (now : Nat) :
    (c.boundary now).1 = (((c.closePeriod now).boundaryBegins now).applies now c.lk.next).openPeriod := by
  show ((c.closePeriod now).boundaryActs now).1.openPeriod = _
  rw [Cell.boundaryActs_fst]
  rfl

theorem Cell.boundaryActs_snd (c : Cell) (now : Nat) :
    (c.boundaryActs now).2 = (((c.periodOpens now).judgeStep now).carrierStart now).2 := by
  unfold Cell.boundaryActs
  cases c.lk.next with
  | some r => simp only [apply_ite Prod.snd, ite_self]; rfl
  | none => simp only [apply_ite Prod.snd, ite_self]; rfl

/-! ### Each part keeps the legs apart -/

theorem Cell.pwmTime_legsApart (neg : Bool) (d : Nat) (h : c.LegsApart) : (c.pwmTime neg d).2.LegsApart := by
  have hshort : ∀ e : Cell, e.LegsApart → (e.inc K.PWM_CNT_SHORT).LegsApart := fun e he =>
    Cell.inc_legsApart _ (by decide) (by decide) he
  have hcarry : ∀ (b : Bool) (v : Nat) (e : Cell), e.LegsApart →
      (e.when b fun e => (e.wr K.PWM_ACC_ACC v).put K.PWM_STATUS_ACC_POL neg).LegsApart := fun b v e he =>
    Cell.when_legsApart _ he fun e he => Cell.put_legsApart _ (by decide) (by decide) (Cell.wr_legsApart _ (by decide) (by decide) he)
  have hused : ∀ b b' : Bool, ((c.when b fun c => c.inc K.PWM_CNT_LOST).when b' fun c => c.wr K.PWM_ACC_ACC 0).LegsApart :=
    fun _ _ => Cell.when_legsApart _
      (Cell.when_legsApart _ h fun e he => Cell.inc_legsApart _ (by decide) (by decide) he)
      fun e he => Cell.wr_legsApart _ (by decide) (by decide) he
  unfold Cell.pwmTime
  extract_lets
  split
  · exact hcarry _ _ _ (hshort _ (hused _ _))
  split
  · exact hcarry _ _ _ (hshort _ (hused _ _))
  · exact hused _ _

theorem Cell.entryBegins_legsApart (now e : Nat) (h : c.LegsApart) : (c.entryBegins now e).LegsApart :=
  Cell.legsApart_congr (c := Cell.wr _ K.PWM_STATUS_STATE _) rfl rfl <| Cell.wr_legsApart _ (by decide) (by decide)
    (Cell.when_legsApart _ h fun _ he => Cell.cause_legsApart now 7 he)

theorem Cell.playPwm_legsApart (now st d : Nat) (h : c.LegsApart) : (c.playPwm now st d).LegsApart :=
  Cell.demandClass_legsApart now _ (Cell.legsApart_congr (c := (c.pwmTime (st == 5) d).2) rfl rfl (Cell.pwmTime_legsApart _ _ h))

theorem Cell.playCarrier_legsApart (now : Nat) (h : c.LegsApart) : (c.playCarrier now).LegsApart :=
  have h0 := Cell.crossLeg_legsApart now 0 (c.legHigh now 0) h
  iteInduction (fun _ => Cell.crossLeg_legsApart now 1 _ h0) fun _ => h0

theorem Cell.playEntry_legsApart (now e : Nat) (h : c.LegsApart) : (c.playEntry now e).LegsApart := by
  have hb := Cell.entryBegins_legsApart now e h
  rw [Cell.playEntry_eq]
  exact iteInduction (fun _ => Cell.playPwm_legsApart now _ _ hb) fun _ =>
    iteInduction (fun _ => Cell.playCarrier_legsApart now (Cell.dropAcc_legsApart hb)) fun _ =>
      Cell.demandClass_legsApart now _ (Cell.dropAcc_legsApart hb)

/-- Registers and demand stand as before. -/
def Cell.SameSwitch (c d : Cell) : Prop := d.regs = c.regs ∧ d.pw.demand = c.pw.demand

theorem Cell.maskAt_sameSwitch (c : Cell) (l : List Byte) : c.SameSwitch (c.maskAt l) := by
  unfold Cell.maskAt
  extract_lets opened
  clear_value opened
  dsimp only
  split
  · exact iteInduction (motive := c.SameSwitch) (fun _ => ⟨rfl, rfl⟩) fun _ => ⟨rfl, rfl⟩
  · exact iteInduction (motive := c.SameSwitch) (fun _ => ⟨rfl, rfl⟩) fun _ =>
      iteInduction (motive := c.SameSwitch) (fun _ => ⟨rfl, rfl⟩) fun _ => ⟨rfl, rfl⟩

theorem Cell.maskCoast_sameSwitch (c : Cell) : c.SameSwitch c.maskCoast := by
  unfold Cell.maskCoast
  dsimp only
  split <;> exact ⟨rfl, rfl⟩

theorem Cell.takeRecord_legsApart (now : Nat) (r : Rec) (h : c.LegsApart) : (c.takeRecord now r).LegsApart :=
  Cell.legsApart_congr (c := Cell.when c _ _) rfl rfl (Cell.when_legsApart _ h fun _ he => Cell.cause_legsApart now 7 he)

theorem Cell.stale_legsApart (i : Nat) (b : Bool) (h : c.LegsApart) : (c.put (K.RES_ST_STALE i) b).LegsApart :=
  Cell.put_legsApart b rfl (by simp [Fld.apart, K.RES_ST_STALE, K.PWM_STATUS_GATES]) h

theorem Cell.skip_legsApart (chan : Nat → Nat) (l : List Nat) (h : c.LegsApart) :
    (l.foldl (fun c j => (c.put (K.RES_ST_STALE (chan j)) true).inc K.ADC_STATUS_SKIP_CNT) c).LegsApart := by
  induction l generalizing c with
  | nil => exact h
  | cons j l ih => exact ih (Cell.inc_legsApart _ (by decide) (by decide) (Cell.stale_legsApart _ _ h))

theorem Cell.strobe_legsApart (h : c.LegsApart) : c.strobe.LegsApart :=
  Cell.legsApart_congr (c := Cell.forN _ 12 _) rfl rfl <| Cell.forN_keeps Cell.LegsApart _
    (fun i _ he => Cell.when_legsApart _ he fun _ he => Cell.stale_legsApart i true he)
    (Cell.legsApart_congr (c := List.foldl _ c _) rfl rfl (Cell.skip_legsApart _ _ h))

theorem Cell.nextBound_legsApart (h : c.LegsApart) : c.nextBound.LegsApart :=
  iteInduction (fun _ => Cell.legsApart_congr (c := c) rfl rfl h) fun _ => Cell.legsApart_congr (c := c) rfl rfl h

theorem Cell.carrierStart_legsApart (now : Nat) (h : c.LegsApart) : (c.carrierStart now).1.LegsApart := by
  unfold Cell.carrierStart
  extract_lets
  split
  · exact iteInduction (fun _ => Cell.legsApart_congr (c := c) rfl rfl h) fun _ => Cell.legsApart_congr (c := c) rfl rfl h
  · exact h

theorem Cell.boundaryBegins_legsApart (now : Nat) (h : c.LegsApart) : (c.boundaryBegins now).LegsApart := by
  have hopen : (c.periodOpens now).LegsApart :=
    Cell.strobe_legsApart (Cell.nextBound_legsApart (Cell.legsApart_congr (c := c) rfl rfl h))
  have hstep : ((c.periodOpens now).judgeStep now).LegsApart :=
    Cell.legsApart_congr (c := Cell.when _ _ _) rfl rfl (Cell.when_legsApart _ hopen fun _ he => Cell.cause_legsApart now 7 he)
  exact Cell.legsApart_congr (c := (Cell.carrierStart _ now).1) rfl rfl (Cell.carrierStart_legsApart now hstep)

theorem Cell.playRecord_legsApart (now : Nat) (r : Rec) (h : c.LegsApart) : (c.playRecord now r).LegsApart :=
  have hmask := c.maskAt_sameSwitch r.header
  Cell.wr_legsApart _ (by decide) (by decide)
    (Cell.playEntry_legsApart now _ (Cell.takeRecord_legsApart now r (Cell.legsApart_congr hmask.1 hmask.2 h)))

theorem Cell.applyRecord_legsApart (now : Nat) (r : Rec) (h : c.LegsApart) : (c.applyRecord now r).LegsApart := by
  have hres : (c.resume r).LegsApart := iteInduction (fun _ => Cell.legsApart_congr (c := c) rfl rfl h) fun _ => h
  have hplay := Cell.playRecord_legsApart now r hres
  exact iteInduction
    (fun _ => iteInduction (fun _ => Cell.startBypass_legsApart now hplay) fun _ => hplay)
    fun _ => iteInduction (fun _ => Cell.startBypass_legsApart now hres) fun _ => Cell.regate_legsApart now hres

theorem Cell.coast_legsApart (now : Nat) (h : c.LegsApart) : (c.coast now).LegsApart := by
  have hrun : ∀ e : Cell, e.LegsApart → (e.playOn now).LegsApart := fun e he =>
    have hmask := e.maskCoast_sameSwitch
    Cell.wr_legsApart _ (by decide) (by decide) (Cell.playEntry_legsApart now _ (Cell.legsApart_congr (c := e) hmask.1 hmask.2 he))
  have hmode : Cell.LegsApart (if c.mode = Mode.running then { c with mode := Mode.coasting } else c) :=
    iteInduction (fun _ => Cell.legsApart_congr (c := c) rfl rfl h) fun _ => h
  exact iteInduction (fun _ => hrun _ hmode) fun _ => Cell.regate_legsApart now hmode

theorem Cell.boundary_legsApart (now : Nat) (h : c.LegsApart) : (c.boundary now).1.LegsApart := by
  rw [Cell.boundary_fst]
  have hbegin : ((c.closePeriod now).boundaryBegins now).LegsApart :=
    Cell.boundaryBegins_legsApart now (Cell.legsApart_congr (c := c) rfl rfl h)
  refine Cell.legsApart_congr (c := Cell.applies _ now c.lk.next) rfl rfl ?_
  unfold Cell.applies
  cases c.lk.next with
  | some r => exact Cell.applyRecord_legsApart now r hbegin
  | none => exact Cell.coast_legsApart now hbegin

/-! ### The other commands of section 06 -/

theorem Cell.partEnd_legsApart (now : Nat) (h : c.LegsApart) : (c.partEnd now).LegsApart := by
  unfold Cell.partEnd
  split
  · exact h
  · exact Cell.demandClass_legsApart now _ (Cell.legsApart_congr (c := c) rfl rfl h)

theorem Cell.crossing_legsApart (now : Nat) (leg : Fin 2) (h : c.LegsApart) : (c.crossing now leg).LegsApart :=
  iteInduction (fun _ => Cell.crossLeg_legsApart now leg _ h) fun _ => h

/-- A gate may turn on beside a partner that is off. -/
theorem Cell.gateOn_legsApart {g : Nat} (hg : g < 4) (hoff : bitOf c.gates (otherGate g) = false) (h : c.LegsApart) :
    (c.putBit K.PWM_STATUS_GATES g true).LegsApart := by
  have hgates : (c.putBit K.PWM_STATUS_GATES g true).gates = Machine.putBit c.gates g true % 2 ^ 4 :=
    Cell.rd_wr_same _ _ _ (by decide)
  rw [Cell.legsApart_iff] at h ⊢
  refine ⟨fun k hk hboth => ?_, h.2⟩
  have ho := otherGate_lt hk
  rw [hgates, bitOf_mod_two_pow hk, bitOf_mod_two_pow ho] at hboth
  have hne : otherGate k ≠ k := by unfold otherGate; split <;> omega
  by_cases hkg : g = k
  · subst hkg
    rw [bitOf_putBit_ne _ _ _ _ hne.symm, hoff] at hboth
    exact Bool.false_ne_true hboth.2
  · by_cases hog : g = otherGate k
    · subst hog
      rw [otherGate_otherGate hk] at hoff
      rw [bitOf_putBit_ne _ _ _ _ hkg, hoff] at hboth
      exact Bool.false_ne_true hboth.1
    · rw [bitOf_putBit_ne _ _ _ _ hkg, bitOf_putBit_ne _ _ _ _ hog] at hboth
      exact h.1 k hk hboth

theorem Cell.deadEnd_legsApart (now : Nat) (g : Fin 4) (h : c.LegsApart) : (c.deadEnd now g).LegsApart := by
  unfold Cell.deadEnd
  split
  · exact h
  dsimp only
  split
  · exact Cell.regate_legsApart now h
  split
  · exact h
  · rename_i hoff
    exact Cell.pins_legsApart (Cell.gateOn_legsApart g.isLt (Bool.not_eq_true _ ▸ hoff) (Cell.legsApart_congr (c := c) rfl rfl h))

theorem Cell.maskOpen_legsApart (now : Nat) (h : c.LegsApart) : (c.maskOpen now).LegsApart := by
  unfold Cell.maskOpen
  split
  · exact h
  · exact Cell.regate_legsApart now (Cell.legsApart_congr (c := c) rfl rfl h)

theorem Cell.maskOpenMax_legsApart (now : Nat) (h : c.LegsApart) : (c.maskOpenMax now).LegsApart := by
  unfold Cell.maskOpenMax
  split
  · exact iteInduction (fun _ => Cell.regate_legsApart now (Cell.legsApart_congr (c := c) rfl rfl h)) fun _ => h
  · exact h

theorem Cell.playedOut_legsApart (now : Nat) (h : c.LegsApart) : (c.playedOut now).LegsApart :=
  iteInduction (fun _ => Cell.cause_legsApart now 25 (Cell.toBlocked_legsApart now h)) fun _ => h

theorem Cell.synci_legsApart (now : Nat) (h : c.LegsApart) : (c.synci now).1.LegsApart := by
  unfold Cell.synci
  split
  · exact h
  extract_lets
  split
  · exact Cell.absent_legsApart 10 (Cell.put_legsApart _ (by decide) (by decide) (Cell.legsApart_congr (c := c) rfl rfl h))
  · exact Cell.inc_legsApart _ (by decide) (by decide) h

theorem Cell.compActive_legsApart (now i : Nat) (h : c.LegsApart) : (c.compActive now i).LegsApart :=
  Cell.when_legsApart _
    (Cell.when_legsApart _ (Cell.putBit_legsApart _ _ (by decide) (by decide) h) fun _ he => Cell.trigger_legsApart _ _ he)
    fun e he => Cell.regate_legsApart now (Cell.raiseLevel_legsApart now i
      (Cell.legsApart_congr (c := e.putBit K.TRIP_STATUS_TRIP i true) rfl rfl (Cell.putBit_legsApart _ _ (by decide) (by decide) he)))

theorem Cell.hwBypass_legsApart (now : Nat) (h : c.LegsApart) : (c.hwBypass now).LegsApart :=
  Cell.regate_legsApart now <| Cell.raiseLevel_legsApart now 4 <| Cell.discard_legsApart <|
    Cell.legsApart_congr (c := (c.tally now).put K.TRIP_STATUS_HW_BYP true) rfl rfl
      (Cell.put_legsApart _ (by decide) (by decide) (Cell.tally_legsApart now h))

theorem Cell.gateFault_legsApart (now g : Nat) (h : c.LegsApart) : (c.gateFault now g).LegsApart :=
  Cell.putBit_legsApart _ _ (by decide) (by decide) <| Cell.regate_legsApart now <| Cell.raiseLevel_legsApart now 5 <|
    Cell.putBit_legsApart _ _ (by decide) (by decide) (Cell.legsApart_congr (c := c) rfl rfl h)

theorem Cell.bypFault_legsApart (now : Nat) (h : c.LegsApart) : (c.bypFault now).LegsApart :=
  Cell.put_legsApart _ (by decide) (by decide) <| Cell.raiseLevel_legsApart now 6 <|
    Cell.put_legsApart _ (by decide) (by decide) h

theorem Cell.bypAssert_legsApart (h : c.LegsApart) : c.bypAssert.LegsApart :=
  iteInduction (fun _ => Cell.pins_legsApart (Cell.legsApart_congr (c := c) rfl rfl h)) fun _ => h

/-! ### The commands -/

theorem State.cell_setCell_eq (s : State) (id k : Nat) (c : Cell) :
    (s.setCell id c).cell k = if homeKey k = homeKey id then c else s.cell k := by
  rw [State.cell, State.setCell, mapGet_mapSet]
  rfl

/-- No cell of the block has both gates of a leg on, or both demanded. -/
def State.LegsApart (s : State) : Prop := ∀ k, (s.cell k).LegsApart

theorem State.setCell_legsApart {s : State} (id : Nat) (h : s.LegsApart) (hc : c.LegsApart) : (s.setCell id c).LegsApart := by
  intro k
  rw [State.cell_setCell_eq]
  exact iteInduction (fun _ => hc) fun _ => h k

theorem State.onCell_legsApart {s : State} (id : Nat) {f : Cell → Cell} (h : s.LegsApart)
    (hf : ∀ c : Cell, c.LegsApart → (f c).LegsApart) : (s.onCell id f).LegsApart :=
  State.setCell_legsApart id h (hf _ (h id))

theorem State.sendWhen_legsApart {s : State} (b : Bool) (e : Emission) (h : s.LegsApart) :
    (s.when b fun s => s.send e).LegsApart := by cases b <;> exact h

theorem Reaches.of_exec {o : Out} {p : State → Prop} {t : State} (h : Reaches o p) (ht : o = .next t) : p t := by
  obtain ⟨u, hu, hp⟩ := h
  obtain rfl : u = t := by simpa [hu] using ht
  exact hp

/-- A command that changes one cell keeps every leg apart where its change of the cell does. -/
theorem State.reaches_onCell {s : State} (id : Nat) {f : Cell → Cell} (h : s.LegsApart)
    (hf : ∀ c : Cell, c.LegsApart → (f c).LegsApart) : Reaches (.next (s.onCell id f)) State.LegsApart :=
  ⟨_, rfl, State.onCell_legsApart id h hf⟩

/-- A command that may also pulse SYNCO. -/
theorem State.reaches_pulse {s : State} (id : Nat) (b : Bool) (e : Emission) (h : s.LegsApart) (hc : c.LegsApart) :
    Reaches (.next ((s.setCell id c).when b fun s => s.send e)) State.LegsApart :=
  ⟨_, rfl, State.sendWhen_legsApart _ _ (State.setCell_legsApart _ h hc)⟩

/-- Settles O24: every switching command is one change of a cell, by operations that keep its legs apart; and by R160 a
gate that `regate` turns on finds its partner off for the dead time. -/
theorem noShootThrough : Obligations.NoShootThrough := by
  refine ⟨fun s t id i hi h ht => Reaches.of_exec (p := State.LegsApart) ?switch ht, fun c now g hg hoff hon hc => ?turnOn,
    fun c now h => c.gatesOff_regate now h⟩
  case turnOn => exact ⟨Cell.other_off_of_gate_on hg hc hon, Cell.dead_time_of_turn_on hg hoff hon⟩
  case switch =>
    rcases hi with rfl | rfl | ⟨leg, rfl⟩ | ⟨g, rfl⟩ | rfl | rfl | rfl | rfl | rfl | ⟨k, rfl⟩ | ⟨k, rfl⟩ | rfl | ⟨v, rfl⟩ |
      ⟨g, rfl⟩ | rfl | ⟨v, rfl⟩ | rfl
    · exact State.reaches_pulse id.toNat _ _ h (Cell.boundary_legsApart s.now (h _))
    · exact State.reaches_onCell id.toNat h fun _ => Cell.partEnd_legsApart s.now
    · exact State.reaches_onCell id.toNat h fun _ => Cell.crossing_legsApart s.now leg
    · exact State.reaches_onCell id.toNat h fun _ => Cell.deadEnd_legsApart s.now g
    · exact State.reaches_onCell id.toNat h fun _ => Cell.maskOpen_legsApart s.now
    · exact State.reaches_onCell id.toNat h fun _ => Cell.maskOpenMax_legsApart s.now
    · exact State.reaches_onCell id.toNat h fun _ => Cell.playedOut_legsApart s.now
    · exact State.reaches_pulse id.toNat _ _ h (Cell.synci_legsApart s.now (h _))
    · exact State.reaches_onCell id.toNat h fun _ hc => Cell.when_legsApart _ hc fun _ hd =>
        Cell.raiseLevel_legsApart s.now 10 (Cell.put_legsApart _ (by decide) (by decide) hd)
    · exact State.reaches_onCell id.toNat h fun _ => Cell.compActive_legsApart s.now k
    · exact State.reaches_onCell id.toNat h fun _ hc =>
        Cell.absent_legsApart k (Cell.putBit_legsApart _ _ (by decide) (by decide) hc)
    · exact State.reaches_onCell id.toNat h fun _ => Cell.hwBypass_legsApart s.now
    · exact State.reaches_onCell id.toNat h fun _ => Cell.clearTrip_legsApart s.now v.toNat
    · exact State.reaches_onCell id.toNat h fun _ => Cell.gateFault_legsApart s.now g
    · exact State.reaches_onCell id.toNat h fun _ => Cell.bypFault_legsApart s.now
    · exact State.reaches_onCell id.toNat h fun _ hc => Cell.when_legsApart _ hc fun _ => Cell.startBypass_legsApart s.now
    · exact State.reaches_onCell id.toNat h fun _ => Cell.bypAssert_legsApart

end Sys2Proof.Machine
end

section
/-! The winner of a competition group (R101): the first of the smallest candidates that are numbers. -/

namespace Sys2Proof.Machine

/-- The order of a candidate's value. -/
def candKey (e : Nat × Nat) : Int := f32Key (fFlush e.2)

/-- `w` is the first of the smallest candidates of `l`. -/
def FirstLeast (w : Nat × Nat) (l : List (Nat × Nat)) : Prop :=
  ∃ p q, l = p ++ w :: q ∧ (∀ e ∈ p, candKey w < candKey e) ∧ ∀ e ∈ q, candKey w ≤ candKey e

/-- One candidate more. -/
def challenge (b : Option (Nat × Nat)) (e : Nat × Nat) : Option (Nat × Nat) :=
  match b with
  | none => some e
  | some x => if fLt e.2 x.2 then some e else b

/-- The candidates that are numbers. -/
abbrev numbers (l : List (Nat × Nat)) : List (Nat × Nat) := l.filter fun e => !f32NaN e.2

theorem winnerOf_eq (l : List (Nat × Nat)) : winnerOf l = (numbers l).foldl challenge none := rfl

theorem mem_numbers {l : List (Nat × Nat)} {e : Nat × Nat} : e ∈ numbers l ↔ e ∈ l ∧ f32NaN e.2 = false := by
  simp [numbers]

theorem FirstLeast.mem {w : Nat × Nat} {l : List (Nat × Nat)} (h : FirstLeast w l) : w ∈ l := by
  obtain ⟨p, q, rfl, -, -⟩ := h
  simp

theorem FirstLeast.le {w : Nat × Nat} {l : List (Nat × Nat)} (h : FirstLeast w l) : ∀ e ∈ l, candKey w ≤ candKey e := by
  obtain ⟨p, q, rfl, hp, hq⟩ := h
  intro e he
  rcases List.mem_append.1 he with he | he
  · exact (hp e he).le
  rcases List.mem_cons.1 he with rfl | he
  · exact le_refl _
  · exact hq e he

/-- The first least of a longer list: the new candidate only where it lies below the one before. -/
theorem FirstLeast.append {w e : Nat × Nat} {l : List (Nat × Nat)} (h : FirstLeast w l) :
    FirstLeast (if candKey e < candKey w then e else w) (l ++ [e]) := by
  split
  · next hlt => exact ⟨l, [], rfl, fun x hx => lt_of_lt_of_le hlt (h.le x hx), by simp⟩
  · next hge =>
    obtain ⟨p, q, rfl, hp, hq⟩ := h
    refine ⟨p, q ++ [e], by simp, hp, fun x hx => ?_⟩
    rcases List.mem_append.1 hx with hx | hx
    · exact hq x hx
    · rw [List.mem_singleton.1 hx]
      exact not_lt.1 hge

/-- What the fold has found after a list of numbers. -/
theorem foldl_challenge (l : List (Nat × Nat)) (hl : ∀ e ∈ l, f32NaN e.2 = false) :
    (l = [] ∧ l.foldl challenge none = none) ∨ ∃ w, l.foldl challenge none = some w ∧ FirstLeast w l := by
  induction l using List.reverseRecOn with
  | nil => exact .inl ⟨rfl, rfl⟩
  | append_singleton l e ih =>
    right
    rw [List.foldl_append]
    rcases ih fun x hx => hl x (List.mem_append_left _ hx) with ⟨rfl, hnone⟩ | ⟨w, hw, hleast⟩
    · exact ⟨e, by rw [hnone]; rfl, [], [], rfl, by simp, by simp⟩
    · have hlt : fLt e.2 w.2 = decide (candKey e < candKey w) := by
        rw [Bool.eq_iff_iff, decide_eq_true_iff]
        exact fLt_iff_of_numbers (hl e (by simp)) (hl w (List.mem_append_left _ hleast.mem))
      refine ⟨_, ?_, hleast.append⟩
      rw [hw]
      simp only [List.foldl_cons, List.foldl_nil, challenge, hlt, decide_eq_true_eq]
      split <;> rfl

theorem winnerOf_firstLeast {l : List (Nat × Nat)} {w : Nat × Nat} (h : winnerOf l = some w) : FirstLeast w (numbers l) := by
  rw [winnerOf_eq] at h
  rcases foldl_challenge (numbers l) fun e he => (mem_numbers.1 he).2 with ⟨-, hnone⟩ | ⟨w', hw', hleast⟩
  · simp [hnone] at h
  · obtain rfl : w' = w := by simpa [hw'] using h
    exact hleast

theorem fEq_iff_of_numbers {a b : Nat} (ha : f32NaN a = false) (hb : f32NaN b = false) :
    fEq a b = true ↔ f32Key (fFlush a) = f32Key (fFlush b) := by
  simp only [fEq, fLe, ha, hb, Bool.not_false, Bool.true_and, Bool.and_eq_true, decide_eq_true_eq]
  exact le_antisymm_iff.symm

theorem f32NaN_of_fEq {a b : Nat} (h : fEq a b = true) : f32NaN a = false := by
  by_contra hn
  rw [Bool.not_eq_false] at hn
  simp [fEq, fLe, hn] at h

/-- Settles O19: the winner is the first of the smallest candidates that are numbers. -/
theorem competitionTakesTheSmallest : Obligations.CompetitionTakesTheSmallest := by
  refine ⟨fun l k v h => ?least, fun l k v hl h e he hne heq => ?ties, fun l => ?some⟩
  case least =>
    have hleast := winnerOf_firstLeast h
    obtain ⟨hmem, hnum⟩ := mem_numbers.1 hleast.mem
    refine ⟨hmem, hnum, fun e he hn => ?_⟩
    have hle := hleast.le e (mem_numbers.2 ⟨he, hn⟩)
    rw [← Bool.not_eq_true, fLt_iff_of_numbers hn hnum]
    exact not_lt.2 hle
  case ties =>
    have hleast := winnerOf_firstLeast h
    have hnum := (mem_numbers.1 hleast.mem).2
    have hn := f32NaN_of_fEq heq
    have hmem := mem_numbers.2 ⟨he, hn⟩
    have hord : (numbers l).Pairwise fun a b => a.1 < b.1 := hl.filter _
    obtain ⟨p, q, hsplit, hp, -⟩ := hleast
    rw [hsplit] at hmem hord
    rcases List.mem_append.1 hmem with hin | hin
    · exact absurd ((fEq_iff_of_numbers hn hnum).1 heq) (ne_of_gt (hp e hin))
    rcases List.mem_cons.1 hin with rfl | hin
    · exact absurd rfl hne
    · exact (List.pairwise_cons.1 (List.pairwise_append.1 hord).2.1).1 e hin
  case some =>
    rw [winnerOf_eq]
    rcases foldl_challenge (numbers l) fun e he => (mem_numbers.1 he).2 with ⟨hnil, hnone⟩ | ⟨w, hw, hleast⟩
    · rw [hnone, Option.isSome_none, eq_comm, List.any_eq_false]
      intro e he hn
      have : e ∈ numbers l := mem_numbers.2 ⟨he, by simpa using hn⟩
      simp [hnil] at this
    · rw [hw, Option.isSome_some, eq_comm, List.any_eq_true]
      obtain ⟨hmem, hnum⟩ := mem_numbers.1 hleast.mem
      exact ⟨w, hmem, by simp [hnum]⟩

/-! ### Sorted keys and the fraction (R136 to R138) -/

theorem State.ranked_perm (s : State) (a : Nat) (chg neg : Bool) : (s.ranked a chg neg).Perm (s.eligibleKeys a) := by
  have h := (List.mergeSort_perm ((s.eligibleKeys a).map fun x => (s.keyWord a chg neg x, x))
    fun x y => decide (x.1 ≤ y.1)).map Prod.snd
  rw [List.map_map] at h
  exact h.trans (by simp [Function.comp_def])

theorem State.ranked_sorted (s : State) (a : Nat) (chg neg : Bool) :
    (s.ranked a chg neg).Pairwise fun x y => s.keyWord a chg neg x ≤ s.keyWord a chg neg y := by
  have hkey : ∀ e ∈ ((s.eligibleKeys a).map fun x => (s.keyWord a chg neg x, x)).mergeSort fun x y => decide (x.1 ≤ y.1),
      e.1 = s.keyWord a chg neg e.2 := by
    intro e he
    rw [List.mem_mergeSort] at he
    obtain ⟨x, -, rfl⟩ := List.mem_map.1 he
    rfl
  have hsorted := List.pairwise_mergeSort (le := fun x y : Nat × Nat × Nat => decide (x.1 ≤ y.1))
    (fun x y z hxy hyz => by simp only [decide_eq_true_eq] at *; omega)
    (fun x y => by simp only [Bool.or_eq_true, decide_eq_true_eq]; omega)
    ((s.eligibleKeys a).map fun x => (s.keyWord a chg neg x, x))
  refine List.pairwise_map.2 (hsorted.imp_of_mem fun {x y} hx hy hxy => ?_)
  rw [← hkey x hx, ← hkey y hy]
  simpa using hxy

/-- The ranks that share the fraction: the first that are inserted by no whole level and not barred (R137, R138). -/
def State.fracRoles (s : State) (order : List (Nat × Nat)) (n d frac : Nat) : List Nat :=
  if d = 0 then []
  else ((upto order.length).filter fun r => decide (n ≤ r) && !(s.view (order.getD r (0, 0)).1).rotBar).take frac

theorem State.entry0_getD {s : State} {order : List (Nat × Nat)} {r : Nat} (hr : r < order.length) (neg : Bool)
    (n d frac : Nat) : (s.entry0 order neg n d frac).getD r (0, 0) =
      if r < n then (insertState neg, 0)
      else match (s.fracRoles order n d frac).idxOf? r with
        | some x => fracState neg (share d (s.fracRoles order n d frac).length x)
        | none => (1, 0) := by
  rw [State.entry0, List.getD_eq_getElem _ _ (by simpa [upto] using hr), List.getElem_map]
  simp only [upto, List.getElem_range]
  rfl

theorem State.entry0_zero {s : State} {order : List (Nat × Nat)} {n d frac r : Nat} (hr : r < order.length) (neg : Bool)
    (hle : n ≤ r) (hno : r ∉ s.fracRoles order n d frac) : (s.entry0 order neg n d frac).getD r (0, 0) = (1, 0) := by
  rw [State.entry0_getD hr, if_neg (by omega), List.idxOf?_eq_none_iff.2 hno]

theorem sumOf_eq_sum (l : List Nat) : sumOf l = l.sum := List.sum_eq_foldl.symm

theorem sum_shares (d k m : Nat) : ((upto m).map (share d k)).sum = m * (d / k) + min m (d % k) := by
  induction m with
  | zero => simp [upto]
  | succ m ih =>
    have hsucc : upto (m + 1) = upto m ++ [m] := List.range_succ
    rw [hsucc, List.map_append, List.sum_append, ih]
    simp only [List.map_cons, List.map_nil, List.sum_cons, List.sum_nil, share]
    have : (m + 1) * (d / k) = m * (d / k) + d / k := by ring
    split <;> omega

/-- Settles O21. -/
theorem selectionFollowsTheSortedKeys : Obligations.SelectionFollowsTheSortedKeys := by
  refine ⟨fun s a chg neg => ⟨s.ranked_perm a chg neg, s.ranked_sorted a chg neg⟩, fun s order neg n d frac r hr => ?entry,
    fun d k hk => ?sum, fun d k i j => ?even⟩
  case entry =>
    refine ⟨by simp [State.entry0, upto], fun hlt => ?_, fun hle hbar => State.entry0_zero hr neg hle fun hmem => ?_,
      fun hle hd => State.entry0_zero hr neg hle (by simp [State.fracRoles, hd])⟩
    · rw [State.entry0_getD hr, if_pos hlt]
    · unfold State.fracRoles at hmem
      split at hmem
      · simp at hmem
      · obtain ⟨-, hfree⟩ := List.mem_filter.1 (List.mem_of_mem_take hmem)
        rw [hbar, Bool.not_true, Bool.and_false] at hfree
        exact Bool.false_ne_true hfree
  case sum =>
    rw [sumOf_eq_sum, sum_shares, Nat.min_eq_right (Nat.mod_lt d hk).le]
    exact Nat.div_add_mod d k
  case even =>
    unfold share
    split <;> split <;> omega

end Sys2Proof.Machine
end

section
/-! The sinc filter, its code, the order of the event FIFO and a count with a modulus (R275, R276, R279, R282). -/

namespace Sys2Proof.Machine

/-! ### One factor of the filter -/

theorem length_boxcar (r : Nat) (l : List Nat) : (boxcar r l).length = l.length + r - 1 := by simp [boxcar, upto]

theorem sum_take_eq (l : List Nat) (m : Nat) : (l.take m).sum = ∑ j ∈ Finset.range m, l.getD j 0 := by
  induction m generalizing l with
  | zero => simp
  | succ m ih =>
    cases l with
    | nil => simp
    | cons x l => rw [Finset.sum_range_succ', List.take_succ_cons, List.sum_cons, ih]; simp [Nat.add_comm]

/-- A coefficient of a factor: those of the list that the window of length R reaches. -/
theorem boxcar_getD (r : Nat) (l : List Nat) {i : Nat} (hi : i < l.length + r - 1) :
    (boxcar r l).getD i 0 = ∑ j ∈ Finset.range l.length, if j ≤ i ∧ i < j + r then l.getD j 0 else 0 := by
  rw [List.getD_eq_getElem _ _ (by rwa [length_boxcar])]
  simp only [boxcar, upto, List.getElem_map, List.getElem_range]
  rw [sumOf_eq_sum, sum_take_eq, ← Finset.sum_filter]
  have hshift : ∀ j, (l.drop (i + 1 - r)).getD j 0 = l.getD (i + 1 - r + j) 0 := by simp
  simp only [hshift]
  have hwindow : Nat.min r (i + 1) = i + 1 - (i + 1 - r) := by
    have : Nat.min r (i + 1) = min r (i + 1) := rfl
    omega
  rw [hwindow, ← Finset.sum_Ico_eq_sum_range fun j => l.getD j 0]
  symm
  refine Finset.sum_subset (fun j hj => ?_) fun j hj hout => ?_
  · simp only [Finset.mem_filter, Finset.mem_range, Finset.mem_Ico] at hj ⊢
    omega
  · simp only [Finset.mem_filter, Finset.mem_range, Finset.mem_Ico] at hj hout
    exact List.getD_eq_default _ _ (by omega)

theorem sum_eq_sum_getD (l : List Nat) : l.sum = ∑ j ∈ Finset.range l.length, l.getD j 0 := by
  rw [← sum_take_eq, List.take_length]

/-- Every coefficient of the list stands in R windows. -/
theorem sum_boxcar {r : Nat} (hr : 0 < r) (l : List Nat) : (boxcar r l).sum = r * l.sum := by
  rw [sum_eq_sum_getD, length_boxcar, sum_eq_sum_getD l, Finset.mul_sum]
  rw [Finset.sum_congr rfl fun i hi => boxcar_getD r l (Finset.mem_range.1 hi), Finset.sum_comm]
  refine Finset.sum_congr rfl fun j hj => ?_
  rw [← Finset.sum_filter, Finset.sum_const, smul_eq_mul]
  congr 1
  have hset : ((Finset.range (l.length + r - 1)).filter fun i => j ≤ i ∧ i < j + r) = Finset.Ico j (j + r) := by
    ext i
    simp only [Finset.mem_range] at hj
    simp only [Finset.mem_filter, Finset.mem_range, Finset.mem_Ico]
    omega
  rw [hset, Nat.card_Ico]
  omega

/-- A list reads the same in both directions. -/
theorem reverse_eq_iff_getD (l : List Nat) : l.reverse = l ↔ ∀ i, i < l.length → l.getD (l.length - 1 - i) 0 = l.getD i 0 := by
  constructor
  · intro h i hi
    conv_rhs => rw [← h]
    rw [List.getD_eq_getElem _ _ (by omega), List.getD_eq_getElem _ _ (by simpa using hi), List.getElem_reverse]
  · intro h
    refine List.ext_getElem (by simp) fun i h1 h2 => ?_
    have := h i h2
    rw [List.getD_eq_getElem _ _ (by omega), List.getD_eq_getElem _ _ h2] at this
    rw [List.getElem_reverse, this]

theorem reverse_boxcar {r : Nat} {l : List Nat} (h : l.reverse = l) : (boxcar r l).reverse = boxcar r l := by
  rw [reverse_eq_iff_getD] at h ⊢
  intro i hi
  rw [length_boxcar] at hi ⊢
  rw [boxcar_getD r l hi, boxcar_getD r l (by omega), ← Finset.sum_range_reflect]
  refine Finset.sum_congr rfl fun j hj => ?_
  rw [Finset.mem_range] at hj
  rw [h j hj]
  exact if_congr (by omega) rfl rfl

/-- Sum, number and symmetry of the taps (R275). -/
theorem sincTaps_spec (k : Nat) {r : Nat} (hr : 0 < r) :
    (sincTaps k r).sum = r ^ k ∧ (sincTaps k r).length = k * (r - 1) + 1 ∧ (sincTaps k r).reverse = sincTaps k r := by
  induction k with
  | zero => simp [sincTaps]
  | succ k ih =>
    obtain ⟨hsum, hlen, hrev⟩ := ih
    refine ⟨?_, ?_, reverse_boxcar hrev⟩
    · rw [sincTaps, sum_boxcar hr, hsum, Nat.pow_succ, Nat.mul_comm]
    · rw [sincTaps, length_boxcar, hlen, Nat.succ_mul]
      omega

/-! ### The code -/

/-- The quotient of the code before its clamp. -/
def sdRaw (k r log sum : Nat) : Int :=
  if k * log ≤ 23 then (2 * (sum : Int) - (r ^ k : Nat)) * (2 ^ (23 - k * log) : Nat)
  else (2 * (sum : Int) - (r ^ k : Nat)) / (2 ^ (k * log - 23) : Nat)

theorem sdCode_eq (k r log sum : Nat) : sdCode k r log sum =
    (clampInt (-0x800000) 0x7FFFFF (sdRaw k r log sum), decide (0x7FFFFF < sdRaw k r log sum) || decide (sdRaw k r log sum < -0x800000)) :=
  rfl

theorem clampInt_mem {lo hi : Int} (h : lo ≤ hi) (i : Int) : lo ≤ clampInt lo hi i ∧ clampInt lo hi i ≤ hi := by
  unfold clampInt
  split <;> [skip; split] <;> omega

/-- The code before its clamp reaches full scale only for the largest sum. -/
theorem sdRaw_bounds {k b sum : Nat} (h : sum ≤ (2 ^ b) ^ k) :
    -0x800000 ≤ sdRaw k (2 ^ b) b sum ∧ (0x7FFFFF < sdRaw k (2 ^ b) b sum ↔ sum = (2 ^ b) ^ k) := by
  have hpow : (2 ^ b) ^ k = 2 ^ (k * b) := by rw [← Nat.pow_mul, Nat.mul_comm]
  rw [hpow] at h ⊢
  unfold sdRaw
  rw [hpow]
  by_cases hb : k * b ≤ 23
  · rw [if_pos hb]
    have hfull : (2 ^ (k * b) : Int) * 2 ^ (23 - k * b) = 0x800000 := by
      rw [← pow_add, Nat.add_sub_cancel' hb]
      norm_num
    have hpos : (0 : Int) < 2 ^ (23 - k * b) := by positivity
    have hs : (sum : Int) ≤ 2 ^ (k * b) := by exact_mod_cast h
    push_cast
    refine ⟨by nlinarith, fun hlt => ?_, fun heq => ?_⟩
    · by_contra hne
      have : (sum : Int) + 1 ≤ 2 ^ (k * b) := by
        have : sum < 2 ^ (k * b) := lt_of_le_of_ne h hne
        exact_mod_cast this
      nlinarith
    · rw [heq]
      push_cast
      nlinarith
  · rw [if_neg hb]
    have hfull : (2 ^ (k * b) : Int) = 0x800000 * 2 ^ (k * b - 23) := by
      conv_lhs => rw [← Nat.add_sub_cancel' (not_le.1 hb).le, pow_add]
      norm_num
    have hpos : (0 : Int) < 2 ^ (k * b - 23) := by positivity
    have hs : (sum : Int) ≤ 2 ^ (k * b) := by exact_mod_cast h
    push_cast
    refine ⟨?_, fun hlt => ?_, fun heq => ?_⟩
    · rw [Int.le_ediv_iff_mul_le hpos]
      nlinarith
    · by_contra hne
      have : (sum : Int) + 1 ≤ 2 ^ (k * b) := by
        have : sum < 2 ^ (k * b) := lt_of_le_of_ne h hne
        exact_mod_cast this
      have hle := (Int.le_ediv_iff_mul_le hpos (a := 0x800000)).1 hlt
      nlinarith
    · refine (Int.le_ediv_iff_mul_le hpos (a := 0x800000)).2 ?_
      rw [heq]
      push_cast
      nlinarith

/-! ### The event FIFO -/

/-- The order of events: by time, and by line at the same time. -/
def Evt.before (x y : Evt) : Prop := x.time < y.time ∨ (x.time = y.time ∧ x.line ≤ y.line)

theorem insertEvt_perm (e : Evt) (l : List Evt) : (insertEvt e l).Perm (e :: l) := by
  induction l with
  | nil => exact .refl _
  | cons x l ih =>
    unfold insertEvt
    split
    · exact .refl _
    · exact (ih.cons x).trans (.swap e x l)

theorem insertEvt_sorted (e : Evt) {l : List Evt} (h : l.Pairwise Evt.before) : (insertEvt e l).Pairwise Evt.before := by
  induction l with
  | nil => simp [insertEvt]
  | cons x l ih =>
    obtain ⟨hx, hl⟩ := List.pairwise_cons.1 h
    unfold insertEvt
    split
    · next hlt =>
      refine List.pairwise_cons.2 ⟨fun y hy => ?_, h⟩
      rcases List.mem_cons.1 hy with rfl | hy
      · unfold Evt.before; omega
      · have := hx y hy
        unfold Evt.before at this ⊢
        omega
    · next hge =>
      refine List.pairwise_cons.2 ⟨fun y hy => ?_, ih hl⟩
      rcases List.mem_cons.1 ((insertEvt_perm e l).mem_iff.1 hy) with rfl | hy
      · unfold Evt.before; omega
      · exact hx y hy

/-- Settles O33. -/
theorem filtersAndEventOrder : Obligations.FiltersAndEventOrder := by
  refine ⟨fun k r hr => ?taps, fun k b sum _ _ hsum => ?code, fun e l h => ⟨insertEvt_sorted e h, insertEvt_perm e l⟩,
    fun m cnt hm _ => ?count⟩
  case taps =>
    rw [sumOf_eq_sum]
    exact sincTaps_spec k hr
  case code =>
    obtain ⟨hlo, hfull⟩ := sdRaw_bounds hsum
    obtain ⟨hmin, hmax⟩ := clampInt_mem (lo := -0x800000) (hi := 0x7FFFFF) (by decide) (sdRaw k (2 ^ b) b sum)
    rw [sdCode_eq]
    refine ⟨hmin, hmax, ?_⟩
    simp only [Bool.or_eq_true, decide_eq_true_eq, hfull, or_iff_left (not_lt.2 hlo)]
  case count =>
    have hm' : (0 : Int) < m := by exact_mod_cast hm
    exact ⟨by rw [piValue, if_neg hm.ne'], Int.emod_nonneg _ hm'.ne', Int.emod_lt_of_pos _ hm'⟩

end Sys2Proof.Machine
end

section
/-! The clock after a time step (R351, R352), and why it need not lie in its period: a committed period of no length. -/

namespace Sys2Proof.Machine

/-! ### The time step -/

/-- The state at the new time, before its cells are asked to load it. -/
def State.atTime (s : State) (t : Nat) : State :=
  ({ s with now := t, nowFrac := 0,
            cells := (mapKeys s.cells).foldl (fun m k => mapUpd cellDefault m k fun c => c.stepTime ((t : Int) - s.now)) s.cells,
            sys := { s.sys with period := t / s.periodNs, t0 := t / s.periodNs * s.periodNs } } : State).put R.TIM_STATUS_STEPPED true

theorem State.stepTo_keeps (s : State) (t : Nat) : Keeps [.draws, .regs, .sent, .ports] (s.atTime t) (s.stepTo t) :=
  keeps_foldl _ _ (Keeps.refl _ _) fun _ _ h => keeps_reloadPort _ _ (List.Subset.refl _) h

theorem State.stepTo_now (s : State) (t : Nat) : (s.stepTo t).now = t := (s.stepTo_keeps t).1.2 .now (by decide)

theorem State.stepTo_sys (s : State) (t : Nat) :
    (s.stepTo t).sys = { s.sys with period := t / s.periodNs, t0 := t / s.periodNs * s.periodNs } :=
  (s.stepTo_keeps t).1.2 .sys (by decide)

/-- The time that TIM_SET and a written GO word name. -/
def State.goTime (s : State) (v : Nat) : Nat :=
  (bitsOf v 0 16 * 2 ^ 32 + s.rd R.TIM_SET_SECLO_SEC_LO) * 1000000000 + s.rd R.TIM_SET_NS_NS

/-- The state with a valid time. -/
def State.timeValid (s : State) : State := { s with tim := { s.tim with valid := true } }

theorem State.timeValid_now (s : State) : s.timeValid.now = s.now := rfl

theorem State.timeValid_sys (s : State) : s.timeValid.sys = s.sys := rfl

/-- GO where fields of mode RWL may change steps to the time that TIM_SET names (R352). -/
theorem State.timSetGo_eq {s : State} (hw : s.writable = true) (v : Nat) :
    s.timSetGo v = ((s.wr R.TIM_SET_SECHI_SEC_HI (bitsOf v 0 16)).stepTo (s.goTime v)).timeValid := by
  rw [State.timSetGo, if_pos hw, State.timeValid]
  dsimp only
  rw [State.rd_wr_apart s R.TIM_SET_SECHI_SEC_HI R.TIM_SET_SECLO_SEC_LO _ (by decide) (by decide),
    State.rd_wr_apart s R.TIM_SET_SECHI_SEC_HI R.TIM_SET_NS_NS _ (by decide) (by decide), State.goTime]

theorem State.timSetGo_now {s : State} (hw : s.writable = true) (v : Nat) : (s.timSetGo v).now = s.goTime v := by
  rw [State.timSetGo_eq hw, State.timeValid_now, State.stepTo_now]

/-- Period number and boundary follow (R351). -/
theorem State.timSetGo_sys {s : State} (hw : s.writable = true) (v : Nat) : (s.timSetGo v).sys =
    { s.sys with period := s.goTime v / s.periodNs, t0 := s.goTime v / s.periodNs * s.periodNs } := by
  rw [State.timSetGo_eq hw, State.timeValid_sys, State.stepTo_sys]
  rfl

theorem exec_timSetGo (v : BitVec 32) (s : State) : exec (.timSetGo v) s = .next (s.timSetGo v.toNat) := rfl

/-! ### A period of no length -/

/-- CONFIGURED, in service with a committed PERIOD_CFG.TC of 0. -/
def noPeriod : State :=
  let s := Tests.inState St.configured
  { s with sys := { s.sys with committed := true, com := [(R.PERIOD_CFG_TC.addr, 0)] } }

theorem noPeriod_writable : noPeriod.writable = true := by decide

theorem noPeriod_periodNs : noPeriod.periodNs = 0 := by decide

/-- A time step leaves what is committed. -/
theorem State.timSetGo_periodNs {s : State} (hw : s.writable = true) (v : Nat) : (s.timSetGo v).periodNs = s.periodNs := by
  unfold State.periodNs State.crd
  rw [State.timSetGo_sys hw]

/-- Refutes O40: with a committed PERIOD_CFG.TC of 0 no time lies within its period, and GO steps to one. -/
theorem not_timesExtendAndTick : ¬ Obligations.TimesExtendAndTick := by
  rintro ⟨-, -, -, hgo⟩
  obtain ⟨-, hlt⟩ := hgo noPeriod 0 _ noPeriod_writable (exec_timSetGo 0 noPeriod)
  rw [State.timSetGo_sys noPeriod_writable, State.timSetGo_periodNs noPeriod_writable, noPeriod_periodNs, Nat.mul_zero] at hlt
  exact Nat.not_lt_zero _ hlt

end Sys2Proof.Machine
end

section
/-! Period numbers and values in the bodies of accord frames (R331, R332, R342): what the lead puts in is what a member
reads out. -/

namespace Sys2Proof.Machine

/-! ### The low 32 bits of a number -/

/-- A number is the one nearest to its neighbours that has its low 32 bits. -/
theorem nearest32_of_near {near p : Nat} (h1 : near < p + 2 ^ 31) (h2 : p < near + 2 ^ 31) : nearest32 near (p % 2 ^ 32) = p := by
  unfold nearest32
  dsimp only
  norm_num at *
  split_ifs <;> omega

/-! ### Byte strings -/

theorem leAt_of_append_left (a b : List Byte) {i k : Nat} (h : i + k ≤ a.length) : leAt (a ++ b) i k = leAt a i k := by
  rw [leAt, leAt, List.drop_append_of_le_length (by omega), List.take_append_of_le_length (by simp; omega)]

theorem leAt_append_right (a b : List Byte) {i : Nat} (j k : Nat) (h : a.length = i) : leAt (a ++ b) (i + j) k = leAt b j k := by
  subst h
  rw [leAt, leAt, ← List.drop_drop, List.drop_left]

theorem leAt_bytesLE (k n : Nat) (b : List Byte) : leAt (bytesLE k n ++ b) 0 k = n % 256 ^ k := by
  rw [leAt, List.drop_zero, List.take_left' (length_bytesLE k n), natLE_bytesLE]

theorem length_flatten_bytesLE (k : Nat) (l : List Nat) : ((l.map (bytesLE k)).flatten).length = k * l.length := by
  induction l with
  | nil => rfl
  | cons n l ih => simp [ih]; ring

/-- The words of a string of words, each at its place. -/
theorem leAt_flatten_bytesLE (k : Nat) (l : List Nat) (b : List Byte) (j : Nat) (hj : j < l.length) :
    leAt ((l.map (bytesLE k)).flatten ++ b) (k * j) k = l[j] % 256 ^ k := by
  induction l generalizing j with
  | nil => exact absurd hj (Nat.not_lt_zero j)
  | cons n l ih =>
    rw [List.map_cons, List.flatten_cons, List.append_assoc]
    cases j with
    | zero => exact leAt_bytesLE k n _
    | succ j =>
      rw [Nat.mul_succ, Nat.add_comm, leAt_append_right _ _ _ _ (length_bytesLE k n), List.getElem_cons_succ]
      exact ih j (Nat.lt_of_succ_lt_succ hj)

/-! ### Masks -/

theorem bitOf_putBits (f : Nat → Bool) (n v : Nat) :
    bitOf ((List.range n).foldl (fun m j => putBit m j (f j)) 0) v = (decide (v < n) && f v) := by
  induction n with
  | zero => simp [bitOf_zero]
  | succ n ih =>
    rw [List.range_succ, List.foldl_append, List.foldl_cons, List.foldl_nil]
    by_cases h : v = n
    · subst h; simp
    · rw [bitOf_putBit_ne _ _ _ _ (Ne.symm h), ih]
      congr 1
      exact decide_eq_decide.2 (by omega)

theorem bitOf_maskOf (l : List Bool) (v : Nat) : bitOf (maskOf l) v = l.getD v false := by
  rw [maskOf, upto, bitOf_putBits]
  by_cases h : v < l.length
  · simp [h]
  · rw [decide_eq_false h, Bool.false_and, List.getD_eq_default _ _ (not_lt.1 h)]

/-! ### The bodies -/

/-- What an AGG or DIST body gives for a value of a level entry: its bits and whether they are fresh. -/
def State.published (s : State) (l v : Nat) : Nat × Bool :=
  if s.on (R.LVLE_PUB_EN l v) then s.source s.delivered (s.rd (R.LVLE_PUB_KIND l v)) (s.rd (R.LVLE_PUB_INDEX l v)) else (f0, false)

theorem State.valueBody_eq (s : State) (l : Nat) : ∃ b : List Byte, b.length = 4 ∧ s.valueBody l =
    (((upto 32).map fun v => (s.published l v).1).map (bytesLE 4)).flatten ++
      (bytesLE 4 (maskOf ((upto 32).map fun v => (s.published l v).2)) ++ b) := by
  refine ⟨[BitVec.ofNat 8 s.sys.epoch, BitVec.ofNat 8 (s.st + 16 * s.rd R.ACD_STATUS_PH), BitVec.ofNat 8 (s.rd (R.LVLE_W1_LEAD l)), 0#8],
    rfl, ?_⟩
  rw [← List.append_assoc, List.map_map]
  simp only [State.valueBody, List.map_map]
  rfl

theorem State.length_valueBody (s : State) (l : Nat) : (s.valueBody l).length = 136 := by
  obtain ⟨b, hb, h⟩ := s.valueBody_eq l
  rw [h, List.length_append, List.length_append, length_flatten_bytesLE, length_bytesLE, hb]
  simp [upto]

theorem State.leAt_valueBody (s : State) (l : Nat) {v : Nat} (hv : v < 32) :
    leAt (s.valueBody l) (4 * v) 4 = (s.published l v).1 % 2 ^ 32 := by
  obtain ⟨b, -, h⟩ := s.valueBody_eq l
  rw [h, leAt_flatten_bytesLE 4 _ _ v (by simpa [upto] using hv)]
  simp [upto]

theorem State.bitOf_valueBody (s : State) (l : Nat) {v : Nat} (hv : v < 32) :
    bitOf (leAt (s.valueBody l) 128 4) v = (s.published l v).2 := by
  obtain ⟨b, -, h⟩ := s.valueBody_eq l
  have hlen := length_flatten_bytesLE 4 ((upto 32).map fun v => (s.published l v).1)
  rw [h, leAt_append_right (i := 128) (j := 0) _ _ _ (by rw [hlen]; simp [upto]), leAt_bytesLE, show 256 ^ 4 = 2 ^ 32 by rfl,
    bitOf_mod_two_pow hv, bitOf_maskOf]
  simp [upto, hv]

/-! ### The lead's own commit -/

/-- The staging deadline leaves P_act to the commit. -/
theorem State.stageDeadline_pAct (s : State) : s.stageDeadline.acd.pAct = s.acd.pAct := by
  unfold State.stageDeadline
  split
  · rfl
  · split_ifs <;> rfl

/-- A commit fixes its period, a whole lead time ahead. -/
theorem State.commitOwn_pAct {s : State} {g : Staged} (hg : s.acd.staged = some g) (hn : s.acd.pAct = none) (hc : g.cmd ≠ Cmd.energise) :
    s.commitOwn.acd.pAct = none ∨
      s.commitOwn.acd.pAct = some (s.sys.period + Nat.max (s.rd R.ACD_CFG_ACT_LEAD) (s.rd R.ACD_STATUS_ACT_MIN)) := by
  unfold State.commitOwn
  rw [hg]
  dsimp only
  rw [if_neg hc]
  split_ifs
  · exact .inr rfl
  · exact .inl hn

/-- Settles O38. -/
theorem committedPeriodSurvivesItsFrame : Obligations.CommittedPeriodSurvivesItsFrame := by
  refine ⟨fun near p => nearest32_of_near, fun s g p near h1 h2 => ⟨?_, ?_, ?_, ?_⟩, fun s l v hv => ⟨s.length_valueBody l, fun he => ?_, fun he => ?_⟩,
    fun s t g hg hn hc ht hp => ?_⟩
  · simp [State.commitBody]
  · rw [show leAt (s.commitBody g p) 4 4 = p % 2 ^ 32 by
      simp only [State.commitBody, List.append_assoc]
      exact Tests.leAt_append _ _ 4 4 p rfl]
    exact nearest32_of_near h1 h2
  · exact BitVec.toNat_ofNat _ _
  · exact BitVec.toNat_ofNat _ _
  · rw [s.leAt_valueBody l hv, s.bitOf_valueBody l hv, State.published, if_pos he]
    exact ⟨rfl, rfl⟩
  · rw [s.leAt_valueBody l hv, s.bitOf_valueBody l hv, State.published, if_neg (by simp [he])]
    exact ⟨rfl, rfl⟩
  · obtain rfl : s.commitOwn.stageDeadline = t := Host.Outcome.next.inj ht
    rw [State.stageDeadline_pAct] at hp ⊢
    have h := (State.commitOwn_pAct hg hn hc).resolve_left hp
    exact ⟨_, h, Nat.add_le_add_left (Nat.le_max_right _ _) _, Nat.add_le_add_left (Nat.le_max_left _ _) _⟩

end Sys2Proof.Machine
end

section
/-! Cells: the register fields that each operation of a cell writes, and what a latch and a bypass leave as it is
(R174 to R180, R424, R431). -/

namespace Sys2Proof.Machine

variable {c d : Cell} {fs gs : List Fld}

/-! ### Fields written -/

/-- Every register field of a cell that is apart from the fields `fs` reads in `d` as in `c`. -/
def Cell.Writes (fs : List Fld) (c d : Cell) : Prop := ∀ g : Fld, fs.all (·.apart g) = true → d.rd g = c.rd g

theorem Cell.Writes.refl (fs : List Fld) (c : Cell) : Cell.Writes fs c c := fun _ _ => rfl

theorem Cell.Writes.trans {e : Cell} (h : Cell.Writes fs c d) (h' : Cell.Writes fs d e) : Cell.Writes fs c e :=
  fun g hg => (h' g hg).trans (h g hg)

theorem Cell.Writes.mono (hs : gs ⊆ fs) (h : Cell.Writes gs c d) : Cell.Writes fs c d :=
  fun g hg => h g (List.all_eq_true.2 fun f hf => List.all_eq_true.1 hg f (hs hf))

theorem Cell.Writes.of_regs (h : d.regs = c.regs) : Cell.Writes fs c d := fun g _ => by
  rw [Cell.rd, Cell.rd, Cell.word, Cell.word, h]

theorem Cell.Writes.wr (h : Cell.Writes fs c d) (f : Fld) (v : Nat) (hf : f ∈ fs) (hw : f.inWord = true) :
    Cell.Writes fs c (d.wr f v) :=
  fun g hg => (Cell.rd_wr_apart d f g v hw (List.all_eq_true.1 hg f hf)).trans (h g hg)

theorem Cell.Writes.put (h : Cell.Writes fs c d) (f : Fld) (b : Bool) (hf : f ∈ fs) (hw : f.inWord = true) :
    Cell.Writes fs c (d.put f b) := h.wr f _ hf hw

theorem Cell.Writes.inc (h : Cell.Writes fs c d) (f : Fld) (n : Nat) (hf : f ∈ fs) (hw : f.inWord = true) :
    Cell.Writes fs c (d.inc f n) := h.wr f _ hf hw

theorem Cell.Writes.putBit (h : Cell.Writes fs c d) (f : Fld) (i : Nat) (b : Bool) (hf : f ∈ fs) (hw : f.inWord = true) :
    Cell.Writes fs c (d.putBit f i b) := h.wr f _ hf hw

theorem Cell.Writes.on (h : Cell.Writes fs c d) {g : Fld} (hg : fs.all (·.apart g) = true) : d.on g = c.on g := by
  rw [Cell.on, Cell.on, h g hg]

theorem Cell.Writes.bit (h : Cell.Writes fs c d) {g : Fld} (i : Nat) (hg : fs.all (·.apart g) = true) : d.bit g i = c.bit g i := by
  rw [Cell.bit, Cell.bit, h g hg]

theorem Cell.bit_putBit_same (c : Cell) (f : Fld) (i : Nat) (b : Bool) (hf : f.inWord = true) (hi : i < f.width) :
    (c.putBit f i b).bit f i = b := by
  rw [Cell.bit, Cell.putBit, Cell.rd_wr_same c f _ hf, bitOf_mod_two_pow hi, bitOf_putBit_same]

theorem Cell.bit_putBit_ne (c : Cell) (f : Fld) {i j : Nat} (b : Bool) (hf : f.inWord = true) (hj : j < f.width) (h : i ≠ j) :
    (c.putBit f i b).bit f j = c.bit f j := by
  rw [Cell.bit, Cell.putBit, Cell.rd_wr_same c f _ hf, bitOf_mod_two_pow hj, bitOf_putBit_ne _ _ _ _ h, Cell.bit]

/-- Only the registers of the cell change. -/
def Cell.RegsOnly (c d : Cell) : Prop := ∃ rs, d = { c with regs := rs }

theorem Cell.RegsOnly.refl (c : Cell) : Cell.RegsOnly c c := ⟨c.regs, rfl⟩

theorem Cell.RegsOnly.wr (h : Cell.RegsOnly c d) (f : Fld) (v : Nat) : Cell.RegsOnly c (d.wr f v) := by
  obtain ⟨rs, rfl⟩ := h
  exact ⟨_, rfl⟩

theorem Cell.RegsOnly.put (h : Cell.RegsOnly c d) (f : Fld) (b : Bool) : Cell.RegsOnly c (d.put f b) := h.wr f _

theorem Cell.RegsOnly.inc (h : Cell.RegsOnly c d) (f : Fld) (n : Nat) : Cell.RegsOnly c (d.inc f n) := h.wr f _

theorem Cell.RegsOnly.putBit (h : Cell.RegsOnly c d) (f : Fld) (i : Nat) (b : Bool) : Cell.RegsOnly c (d.putBit f i b) := h.wr f _

/-! ### The fields that operations write -/

/-- What forming the gates anew writes. -/
def Cell.gateFlds : List Fld := [K.PWM_STATUS_GATES, K.PWM_STATUS_MASK_ACT, K.GATE_RB_PIN, K.GATE_RB_BYP_PIN]

/-- What discarding the records writes. -/
def Cell.accFlds : List Fld := [K.PWM_ACC_ACC, K.PWM_STATUS_ACC_POL]

/-- What a cause of the trigger writes. -/
def Cell.triggerFlds : List Fld := [K.CTRG_ST_IGNORED, K.CTRG_ST_CAUSE, K.CTRG_ST_HOLD, K.CTRG_ST_FIRES, K.CTRG_TIME_TIME]

/-- What the reaction to a latch writes beside the latch itself. -/
def Cell.reactFlds : List Fld :=
  [K.CFLT_FIRST_SRC, K.CFLT_FIRST_VALID, K.CFLT_FIRST_CLASS, K.CFLT_FTIME_FTIME, K.CFLT_SUM_LOCK_LATCH, K.CFLT_SUM_CLASS,
    K.CFLT_SUM_SRC] ++ Cell.accFlds ++ Cell.gateFlds ++ Cell.triggerFlds

/-! ### The operations -/

theorem Cell.pins_writes (c : Cell) : Cell.Writes Cell.gateFlds c c.pins :=
  ((Cell.Writes.refl _ c).wr K.GATE_RB_PIN _ (by simp [Cell.gateFlds]) (by decide)).put K.GATE_RB_BYP_PIN _ (by simp [Cell.gateFlds]) (by decide)

theorem Cell.regate_writes (c : Cell) (now : Nat) : Cell.Writes Cell.gateFlds c (c.regate now) := by
  unfold Cell.regate
  extract_lets old keep offAt p d new wait q e
  have he : Cell.Writes Cell.gateFlds c e := .of_regs rfl
  exact ((he.wr K.PWM_STATUS_GATES _ (by simp [Cell.gateFlds]) (by decide)).wr K.PWM_STATUS_MASK_ACT _ (by simp [Cell.gateFlds])
    (by decide)).trans (Cell.pins_writes _)

/-- Forming the gates anew changes them, the waiting gates and the times of turning off. -/
theorem Cell.regate_rest (c : Cell) (now : Nat) :
    ∃ o w, Cell.RegsOnly { c with pw := { c.pw with offAt := o, wait := w } } (c.regate now) :=
  ⟨_, _, ((((Cell.RegsOnly.refl _).wr _ _).wr _ _).wr _ _).put _ _⟩

theorem Cell.discard_writes (c : Cell) : Cell.Writes Cell.accFlds c c.discard := by
  refine Cell.Writes.trans (d := (c.wr K.PWM_ACC_ACC 0).put K.PWM_STATUS_ACC_POL false) ?_ (.of_regs rfl)
  exact ((Cell.Writes.refl _ c).wr K.PWM_ACC_ACC 0 (by simp [Cell.accFlds]) (by decide)).put K.PWM_STATUS_ACC_POL false (by simp [Cell.accFlds]) (by decide)

/-- The records, the schedule horizon, the demand and the accumulator are all that a discard changes. -/
theorem Cell.discard_rest (c : Cell) : Cell.RegsOnly
    { c with lk := { c.lk with recLow := none, recHigh := none, next := none },
             pw := { c.pw with entries := [], nPred := 0, ix := 4, parts := [], demand := 0, openAt := none } } c.discard := by
  unfold Cell.discard
  extract_lets lk pw d lk' pw'
  have hd : Cell.RegsOnly c d := ((Cell.RegsOnly.refl c).wr _ _).put _ _
  clear_value d
  obtain ⟨rs, rfl⟩ := hd
  exact ⟨rs, rfl⟩

/-- The trigger unit and its registers are all that a cause of the trigger changes. -/
theorem Cell.trigger_regsOnly (c : Cell) (cause time : Nat) : ∃ sl, Cell.RegsOnly { c with sl := sl } (c.trigger cause time) := by
  unfold Cell.trigger
  split
  · exact ⟨c.sl, .refl c⟩
  · split
    · exact ⟨c.sl, (Cell.RegsOnly.refl c).inc _ _⟩
    · exact ⟨_, ((((Cell.RegsOnly.refl _).wr _ _).put _ _).inc _ _).wr _ _⟩

theorem Cell.trigger_writes (c : Cell) (cause time : Nat) : Cell.Writes Cell.triggerFlds c (c.trigger cause time) := by
  unfold Cell.trigger
  split
  · exact .refl _ _
  · split
    · exact (Cell.Writes.refl _ c).inc K.CTRG_ST_IGNORED _ (by simp [Cell.triggerFlds]) (by decide)
    · extract_lets sl e
      have he : Cell.Writes Cell.triggerFlds c e := .of_regs rfl
      exact (((he.wr K.CTRG_ST_CAUSE _ (by simp [Cell.triggerFlds]) (by decide)).put K.CTRG_ST_HOLD _ (by simp [Cell.triggerFlds])
        (by decide)).inc K.CTRG_ST_FIRES _ (by simp [Cell.triggerFlds]) (by decide)).wr K.CTRG_TIME_TIME _ (by simp [Cell.triggerFlds])
        (by decide)

theorem Cell.summarise_writes (c : Cell) : Cell.Writes [K.CFLT_SUM_CLASS, K.CFLT_SUM_SRC] c c.summarise :=
  ((Cell.Writes.refl _ c).wr K.CFLT_SUM_CLASS _ (by simp) (by decide)).wr K.CFLT_SUM_SRC _ (by simp) (by decide)

/-! ### A bypass -/

/-- A bypass that begins, its records not yet gone and its gates not yet formed anew. -/
def Cell.bypassBegins (c : Cell) (now : Nat) : Cell :=
  let mode := if c.mode = Mode.locked then Mode.locked else Mode.bypassed
  let c := c.tally now
  { c with mode := mode, pw := { c.pw with bypassing := true } }

theorem Cell.startBypass_eq (c : Cell) (now : Nat) :
    c.startBypass now = if c.mode = Mode.reset ∨ c.pw.byp then c else ((c.bypassBegins now).discard).regate now := rfl

theorem Cell.startBypass_writes (c : Cell) (now : Nat) :
    Cell.Writes (Cell.accFlds ++ Cell.gateFlds) c (c.startBypass now) := by
  rw [Cell.startBypass_eq]
  split
  · exact .refl _ _
  · have hb : Cell.Writes (Cell.accFlds ++ Cell.gateFlds) c (c.bypassBegins now) := .of_regs rfl
    exact (hb.trans ((Cell.discard_writes _).mono (List.subset_append_left _ _))).trans
      ((Cell.regate_writes _ now).mono (List.subset_append_right _ _))

/-- A bypass that starts leaves BYP, and the state only for BYPASSED. -/
theorem Cell.startBypass_rest (c : Cell) (now : Nat) : (c.startBypass now).pw.byp = c.pw.byp ∧ (c.startBypass now).bridge = c.bridge ∧
    (c.startBypass now).stFail = c.stFail ∧ (c.startBypass now).mode =
      if c.mode = Mode.reset ∨ c.pw.byp then c.mode else if c.mode = Mode.locked then Mode.locked else Mode.bypassed := by
  rw [Cell.startBypass_eq]
  split
  · exact ⟨rfl, rfl, rfl, rfl⟩
  · obtain ⟨o, w, rs, e⟩ := (c.bypassBegins now).discard.regate_rest now
    obtain ⟨rs', e'⟩ := (c.bypassBegins now).discard_rest
    rw [e, e']
    exact ⟨rfl, rfl, rfl, rfl⟩

/-! ### A latch -/

/-- The latch of a source with its class. -/
def Cell.latchMark (c : Cell) (i cls : Nat) : Cell :=
  let c := c.putBit K.CFLT_STAT_STAT i true
  { c with cls := mapSet (fun _ => 0) c.cls i (Nat.max cls (mapGet (fun _ => 0) c.cls i)) }

/-- The capture of the first source. -/
def Cell.latchFirst (c : Cell) (now i cls : Nat) : Cell :=
  { ((((c.wr K.CFLT_FIRST_SRC i).put K.CFLT_FIRST_VALID true).wr K.CFLT_FIRST_CLASS cls).wr K.CFLT_FTIME_FTIME (c.clock now)) with
    armed := false }

/-- The reaction to class Lock. -/
def Cell.latchLock (c : Cell) (now : Nat) : Cell :=
  let c := c.put K.CFLT_SUM_LOCK_LATCH true
  if c.mode = Mode.reset then c else ({ c.tally now with mode := Mode.locked } : Cell).discard

/-- The reaction to a source newly latched, or latched with class Lock, before the gates are formed anew. -/
def Cell.latchReact (c : Cell) (now i cls : Nat) (new : Bool) : Cell :=
  let c := c.when (new && c.armed) fun c => c.latchFirst now i cls
  let c := c.when (new && c.on (K.CFLT_CLASS_BYP (i / 8) (i % 8))) fun c => c.startBypass now
  let c := c.when (cls == 5) fun c => c.latchLock now
  c.when (new && c.bit K.CTRG_MASK_MASK i) fun c => c.trigger 3 (c.clock now)

theorem Cell.latch_eq (c : Cell) (now i : Nat) : c.latch now i =
    if c.rd (K.CFLT_CLASS_CLASS (i / 8) (i % 8)) = 0 then c
    else (((c.latchMark i (c.rd (K.CFLT_CLASS_CLASS (i / 8) (i % 8)))).latchReact now i (c.rd (K.CFLT_CLASS_CLASS (i / 8) (i % 8)))
      (!c.latched i)).regate now).summarise := rfl

/-- A property that each part of the reaction to a latch keeps. -/
theorem Cell.latchReact_keeps (P : Cell → Prop) {now i cls : Nat} (new : Bool) (h : P c) (first : ∀ d, P d → P (d.latchFirst now i cls))
    (bypass : ∀ d, P d → d.on (K.CFLT_CLASS_BYP (i / 8) (i % 8)) = true → P (d.startBypass now))
    (lock : cls = 5 → ∀ d, P d → P (d.latchLock now))
    (trigger : ∀ d cause time, P d → P (Cell.trigger d cause time)) : P (c.latchReact now i cls new) := by
  unfold Cell.latchReact
  extract_lets c1 c2 c3
  have h1 : P c1 := Cell.when_keeps P _ h (first c h)
  clear_value c1
  have h2 : P c2 := by
    refine iteInduction (motive := P) (fun hb => bypass c1 h1 ?_) fun _ => h1
    exact (Bool.and_eq_true_iff.1 hb).2
  clear_value c2
  have h3 : P c3 := by
    by_cases h5 : cls = 5
    · exact Cell.when_keeps P _ h2 (lock h5 c2 h2)
    · simp only [c3, Cell.when, beq_iff_eq, if_neg h5]
      exact h2
  clear_value c3
  exact Cell.when_keeps P _ h3 (trigger c3 _ _ h3)

theorem Cell.latchLock_writes (c : Cell) (now : Nat) : Cell.Writes Cell.reactFlds c (c.latchLock now) := by
  unfold Cell.latchLock
  extract_lets d
  have hput : Cell.Writes Cell.reactFlds c d :=
    (Cell.Writes.refl _ c).put K.CFLT_SUM_LOCK_LATCH true (by simp [Cell.reactFlds]) (by decide)
  clear_value d
  refine iteInduction (fun _ => hput) fun _ => ?_
  have hd : Cell.Writes Cell.reactFlds d { d.tally now with mode := Mode.locked } := .of_regs rfl
  exact (hput.trans hd).trans ((Cell.discard_writes _).mono (by simp [Cell.reactFlds, Cell.accFlds]))

theorem Cell.latchFirst_writes (c : Cell) (now i cls : Nat) : Cell.Writes Cell.reactFlds c (c.latchFirst now i cls) := by
  have h := ((((Cell.Writes.refl Cell.reactFlds c).wr K.CFLT_FIRST_SRC i (by simp [Cell.reactFlds]) (by decide)).put K.CFLT_FIRST_VALID true
    (by simp [Cell.reactFlds]) (by decide)).wr K.CFLT_FIRST_CLASS cls (by simp [Cell.reactFlds]) (by decide)).wr K.CFLT_FTIME_FTIME
    (c.clock now) (by simp [Cell.reactFlds]) (by decide)
  exact h.trans (.of_regs rfl)

/-- The reaction to a latch writes its own fields only. -/
theorem Cell.latchReact_writes (c : Cell) (now i cls : Nat) (new : Bool) : Cell.Writes Cell.reactFlds c (c.latchReact now i cls new) :=
  Cell.latchReact_keeps (Cell.Writes Cell.reactFlds c) new (.refl _ c) (fun d h => h.trans (d.latchFirst_writes now i cls))
    (fun d h _ => h.trans ((d.startBypass_writes now).mono (by simp [Cell.reactFlds, Cell.accFlds, Cell.gateFlds])))
    (fun _ d h => h.trans (d.latchLock_writes now))
    fun d k t h => h.trans ((d.trigger_writes k t).mono (by simp [Cell.reactFlds, Cell.triggerFlds]))

theorem Cell.regate_summarise_writes (c : Cell) (now : Nat) : Cell.Writes Cell.reactFlds c (c.regate now).summarise :=
  ((Cell.regate_writes c now).mono (by simp [Cell.reactFlds, Cell.gateFlds])).trans
    ((Cell.summarise_writes _).mono (by simp [Cell.reactFlds]))

/-- What a latch writes. -/
def Cell.latchFlds : List Fld := K.CFLT_STAT_STAT :: Cell.reactFlds

theorem Cell.latchMark_regs (c : Cell) (i cls : Nat) : (c.latchMark i cls).regs = (c.putBit K.CFLT_STAT_STAT i true).regs := by
  unfold Cell.latchMark
  generalize c.putBit _ _ _ = d
  rfl

theorem Cell.latchMark_writes (c : Cell) (i cls : Nat) : Cell.Writes [K.CFLT_STAT_STAT] c (c.latchMark i cls) :=
  ((Cell.Writes.refl _ c).putBit K.CFLT_STAT_STAT i true (by simp) (by decide)).trans (.of_regs (c.latchMark_regs i cls))

theorem Cell.latchMark_latched (c : Cell) {i : Nat} (cls : Nat) (hi : i < 32) : (c.latchMark i cls).latched i = true :=
  ((Cell.Writes.of_regs (fs := []) (c.latchMark_regs i cls)).bit i rfl).trans (Cell.bit_putBit_same c _ _ _ (by decide) hi)

theorem Cell.latchMark_rest (c : Cell) (i cls : Nat) : ∃ m, Cell.RegsOnly { c with cls := m } (c.latchMark i cls) := by
  unfold Cell.latchMark
  extract_lets d
  have hd : Cell.RegsOnly c d := (Cell.RegsOnly.refl c).putBit _ _ _
  clear_value d
  obtain ⟨rs, rfl⟩ := hd
  exact ⟨_, rs, rfl⟩

theorem Cell.latchFirst_rest (c : Cell) (now i cls : Nat) : Cell.RegsOnly { c with armed := false } (c.latchFirst now i cls) := by
  unfold Cell.latchFirst
  have hd := (((((Cell.RegsOnly.refl c).wr K.CFLT_FIRST_SRC i).put K.CFLT_FIRST_VALID true).wr K.CFLT_FIRST_CLASS cls).wr
    K.CFLT_FTIME_FTIME (c.clock now))
  generalize Cell.wr _ K.CFLT_FTIME_FTIME _ = d at hd ⊢
  obtain ⟨rs, rfl⟩ := hd
  exact ⟨rs, rfl⟩

theorem Cell.latch_writes (c : Cell) (now i : Nat) : Cell.Writes Cell.latchFlds c (c.latch now i) := by
  rw [Cell.latch_eq]
  refine iteInduction (fun _ => .refl _ _) fun _ => ?_
  exact (((c.latchMark_writes i _).mono (by simp [Cell.latchFlds])).trans
    ((Cell.latchReact_writes _ _ _ _ _).mono (List.subset_cons_self _ _))).trans
    ((Cell.regate_summarise_writes _ now).mono (List.subset_cons_self _ _))

theorem Cell.latched_latch {now i : Nat} (hi : i < 32) (hcls : c.rd (K.CFLT_CLASS_CLASS (i / 8) (i % 8)) ≠ 0) :
    (c.latch now i).latched i = true := by
  rw [Cell.latch_eq, if_neg hcls, Cell.latched, (Cell.regate_summarise_writes _ now).bit i (by decide),
    (Cell.latchReact_writes _ now i _ _).bit i (by decide)]
  exact c.latchMark_latched _ hi

/-- The parts of a cell that are neither registers nor changed by its gates. -/
theorem Cell.regate_summarise_rest (c : Cell) (now : Nat) :
    ∃ o w, Cell.RegsOnly { c with pw := { c.pw with offAt := o, wait := w } } (c.regate now).summarise := by
  obtain ⟨o, w, h⟩ := c.regate_rest now
  exact ⟨o, w, (h.wr _ _).wr _ _⟩

/-- A property of a cell that neither its registers nor a reaction change is kept by a latch. -/
theorem Cell.latch_keeps (P : Cell → Prop) (now i : Nat) (h : P c) (regs : ∀ d rs, P d → P { d with regs := rs })
    (cls : ∀ d m, P d → P { d with cls := m }) (armed : ∀ d, P d → P { d with armed := false }) (bypass : ∀ d, P d → P (d.startBypass now))
    (lock : ∀ d, P d → P (d.latchLock now)) (trigger : ∀ d x, P d → P { d with sl := x })
    (gates : ∀ d o w, P d → P { d with pw := { d.pw with offAt := o, wait := w } }) : P (c.latch now i) := by
  have honly : ∀ {d e : Cell}, Cell.RegsOnly d e → P d → P e := fun h hd => by
    obtain ⟨rs, rfl⟩ := h
    exact regs _ rs hd
  rw [Cell.latch_eq]
  refine iteInduction (fun _ => h) fun _ => ?_
  obtain ⟨o, w, hrest⟩ := Cell.regate_summarise_rest (Cell.latchReact (c.latchMark i (c.rd (K.CFLT_CLASS_CLASS (i / 8) (i % 8)))) now i
    (c.rd (K.CFLT_CLASS_CLASS (i / 8) (i % 8))) (!c.latched i)) now
  refine honly hrest (gates _ o w (Cell.latchReact_keeps P _ ?_ ?_ (fun d h _ => bypass d h) (fun _ => lock) ?_))
  · obtain ⟨m, hm⟩ := c.latchMark_rest i (c.rd (K.CFLT_CLASS_CLASS (i / 8) (i % 8)))
    exact honly hm (cls c m h)
  · exact fun d hd => honly (d.latchFirst_rest now i _) (armed d hd)
  · intro d k t hd
    obtain ⟨x, hx⟩ := d.trigger_regsOnly k t
    exact honly hx (trigger d x hd)

theorem Cell.latchLock_rest (c : Cell) (now : Nat) : (c.latchLock now).pw.byp = c.pw.byp ∧ (c.latchLock now).bridge = c.bridge ∧
    (c.latchLock now).stFail = c.stFail ∧ (c.latchLock now).mode = if c.mode = Mode.reset then c.mode else Mode.locked := by
  unfold Cell.latchLock
  extract_lets d
  have hd : Cell.RegsOnly c d := (Cell.RegsOnly.refl c).put _ _
  clear_value d
  obtain ⟨rs, rfl⟩ := hd
  split
  · exact ⟨rfl, rfl, rfl, rfl⟩
  · obtain ⟨rs', e⟩ := Cell.discard_rest { Cell.tally { c with regs := rs } now with mode := Mode.locked }
    rw [e]
    exact ⟨rfl, rfl, rfl, rfl⟩

/-- A latch leaves BYP, the strap and the result of the self-test. -/
theorem Cell.latch_rest (c : Cell) (now i : Nat) :
    (c.latch now i).pw.byp = c.pw.byp ∧ (c.latch now i).bridge = c.bridge ∧ (c.latch now i).stFail = c.stFail :=
  Cell.latch_keeps (fun d => d.pw.byp = c.pw.byp ∧ d.bridge = c.bridge ∧ d.stFail = c.stFail) now i ⟨rfl, rfl, rfl⟩ (fun _ _ h => h)
    (fun _ _ h => h) (fun _ h => h)
    (fun d ⟨h1, h2, h3⟩ => ⟨(d.startBypass_rest now).1.trans h1, (d.startBypass_rest now).2.1.trans h2, (d.startBypass_rest now).2.2.1.trans h3⟩)
    (fun d ⟨h1, h2, h3⟩ => ⟨(d.latchLock_rest now).1.trans h1, (d.latchLock_rest now).2.1.trans h2, (d.latchLock_rest now).2.2.1.trans h3⟩)
    (fun _ _ h => h) fun _ _ _ h => h

/-- A cell that neither runs nor coasts. -/
def Cell.Idle (c : Cell) : Prop := c.mode ≠ Mode.running ∧ c.mode ≠ Mode.coasting

theorem Cell.driving_of_idle (h : c.Idle) : c.driving = false := by
  simp [Cell.driving, h.1, h.2]

theorem Cell.startBypass_idle (now : Nat) (h : c.Idle) : (c.startBypass now).Idle := by
  unfold Cell.Idle
  rw [(c.startBypass_rest now).2.2.2]
  exact iteInduction (motive := fun m => m ≠ Mode.running ∧ m ≠ Mode.coasting) (fun _ => h) fun _ =>
    iteInduction (motive := fun m => m ≠ Mode.running ∧ m ≠ Mode.coasting) (fun _ => by decide) fun _ => by decide

theorem Cell.latchLock_idle (now : Nat) (h : c.Idle) : (c.latchLock now).Idle := by
  unfold Cell.Idle
  rw [(c.latchLock_rest now).2.2.2]
  exact iteInduction (motive := fun m => m ≠ Mode.running ∧ m ≠ Mode.coasting) (fun _ => h) fun _ => by decide

theorem Cell.latch_idle (now i : Nat) (h : c.Idle) : (c.latch now i).Idle :=
  Cell.latch_keeps Cell.Idle now i h (fun _ _ h => h) (fun _ _ h => h) (fun _ h => h) (fun _ h => Cell.startBypass_idle now h)
    (fun _ h => Cell.latchLock_idle now h) (fun _ _ h => h) fun _ _ _ h => h

theorem Cell.gatesOff_of_writes (h : Cell.Writes fs c d) (hfs : fs.all (·.apart K.PWM_STATUS_GATES) = true) (hc : c.GatesOff) :
    d.GatesOff := (h _ hfs).trans hc

/-- A latch in a cell that neither runs nor coasts leaves every gate off. -/
theorem Cell.latch_gatesOff {now i : Nat} (hcls : c.rd (K.CFLT_CLASS_CLASS (i / 8) (i % 8)) ≠ 0) (h : c.Idle) :
    (c.latch now i).GatesOff := by
  rw [Cell.latch_eq, if_neg hcls]
  refine Cell.gatesOff_of_writes (Cell.summarise_writes _) (by decide) (Cell.gatesOff_regate now (Cell.driving_of_idle ?_))
  refine Cell.latchReact_keeps Cell.Idle _ ?_ (fun d h => ?_) (fun _ h _ => Cell.startBypass_idle now h)
    (fun _ _ h => Cell.latchLock_idle now h) fun d k t h => ?_
  · obtain ⟨m, rs, e⟩ := c.latchMark_rest i (c.rd (K.CFLT_CLASS_CLASS (i / 8) (i % 8)))
    rw [e]
    exact h
  · obtain ⟨rs, e⟩ := d.latchFirst_rest now i (c.rd (K.CFLT_CLASS_CLASS (i / 8) (i % 8)))
    rw [e]
    exact h
  · obtain ⟨x, rs, e⟩ := d.trigger_regsOnly k t
    rw [e]
    exact h

end Sys2Proof.Machine
end

section
/-! Reset, self-test and time limits of a cell (R51 to R54, R307, R425, R563). -/

namespace Sys2Proof.Machine

variable {c : Cell}

theorem Cell.when_true (c : Cell) (f : Cell → Cell) : c.when true f = f c := rfl

theorem Cell.when_false (c : Cell) (f : Cell → Cell) : c.when false f = c := rfl

/-! ### Causes and discards -/

theorem Cell.live_apart_class (i : Nat) : K.CFLT_LIVE_LIVE.apart (K.CFLT_CLASS_CLASS (i / 8) (i % 8)) = true := by
  have h : 0x50004 ≠ 0x50008 + 0x4 * (i / 8) := by omega
  simp [Fld.apart, K.CFLT_LIVE_LIVE, K.CFLT_CLASS_CLASS, h]

/-- The class of a source is not changed by its live cause. -/
theorem Cell.class_putLive (c : Cell) (i j : Nat) (b : Bool) :
    (c.putBit K.CFLT_LIVE_LIVE j b).rd (K.CFLT_CLASS_CLASS (i / 8) (i % 8)) = c.rd (K.CFLT_CLASS_CLASS (i / 8) (i % 8)) :=
  Cell.rd_putBit_apart _ _ _ _ _ (by decide) (Cell.live_apart_class i)

theorem Cell.idle_of_regsOnly {d : Cell} (h : Cell.RegsOnly c d) (hc : c.Idle) : d.Idle := by
  obtain ⟨rs, rfl⟩ := h
  exact hc

theorem Cell.raiseLevel_writes (c : Cell) (now i : Nat) :
    Cell.Writes (K.CFLT_LIVE_LIVE :: Cell.latchFlds) c (c.raiseLevel now i) :=
  ((Cell.Writes.refl _ c).putBit K.CFLT_LIVE_LIVE i true (by simp) (by decide)).trans
    ((Cell.latch_writes _ now i).mono (List.subset_cons_self _ _))

/-- A raised level source is live. -/
theorem Cell.raiseLevel_live (c : Cell) (now : Nat) {i : Nat} (hi : i < 32) : (c.raiseLevel now i).bit K.CFLT_LIVE_LIVE i = true := by
  rw [Cell.raiseLevel, (Cell.latch_writes _ now i).bit i (by decide)]
  exact Cell.bit_putBit_same c _ _ _ (by decide) hi

theorem Cell.raiseLevel_latched {now i : Nat} (hi : i < 32) (hcls : c.rd (K.CFLT_CLASS_CLASS (i / 8) (i % 8)) ≠ 0) :
    (c.raiseLevel now i).latched i = true := by
  rw [← Cell.class_putLive c i i true] at hcls
  exact Cell.latched_latch hi hcls

theorem Cell.raiseLevel_gatesOff {now i : Nat} (hcls : c.rd (K.CFLT_CLASS_CLASS (i / 8) (i % 8)) ≠ 0) (h : c.Idle) :
    (c.raiseLevel now i).GatesOff := by
  rw [← Cell.class_putLive c i i true] at hcls
  exact Cell.latch_gatesOff hcls (Cell.idle_of_regsOnly ((Cell.RegsOnly.refl c).putBit _ _ _) h)

theorem Cell.raiseLevel_rest (c : Cell) (now i : Nat) : (c.raiseLevel now i).pw.byp = c.pw.byp ∧
    (c.raiseLevel now i).bridge = c.bridge ∧ (c.raiseLevel now i).stFail = c.stFail := by
  obtain ⟨rs, e⟩ := (Cell.RegsOnly.refl c).putBit K.CFLT_LIVE_LIVE i true
  rw [Cell.raiseLevel, e]
  exact Cell.latch_rest { c with regs := rs } now i

theorem Cell.discard_acc (c : Cell) : c.discard.rd K.PWM_ACC_ACC = 0 := by
  have h : Cell.Writes [] ((c.wr K.PWM_ACC_ACC 0).put K.PWM_STATUS_ACC_POL false) c.discard := by
    unfold Cell.discard
    generalize Cell.put _ _ _ = d
    exact .of_regs rfl
  rw [h _ rfl, Cell.rd_put_apart _ _ _ _ (by decide) (by decide), Cell.rd_wr_same _ _ _ (by decide)]
  rfl

theorem Cell.forN_of_fixed (n : Nat) {f : Nat → Cell → Cell} (h : ∀ i, i < n → f i c = c) : c.forN n f = c := by
  unfold Cell.forN upto
  induction n with
  | zero => rfl
  | succ n ih =>
    rw [List.range_succ, List.foldl_append, ih fun i hi => h i (by omega)]
    exact h n (by omega)

/-! ### Release from reset and self-test -/

/-- The self-test starts with the strap sampled. -/
def Cell.selfTestStarts (c : Cell) (b : Bool) : Cell :=
  Cell.put { c with down := false, mode := Mode.selfTest, bridge := b } K.PWM_CFG_BRIDGE b

theorem Cell.selfTestStarts_writes (c : Cell) (b : Bool) : Cell.Writes [K.PWM_CFG_BRIDGE] c (c.selfTestStarts b) :=
  Cell.Writes.put (d := { c with down := false, mode := Mode.selfTest, bridge := b }) (.of_regs rfl) _ _ (by simp) (by decide)

/-- Without a live cause and an active comparator the supervisor's release only starts the self-test. -/
theorem Cell.release_of_quiet (now : Nat) (b : Bool) (hmode : c.mode = Mode.reset) (hlive : c.rd K.CFLT_LIVE_LIVE = 0)
    (hcmp : c.rd K.TRIP_STATUS_CMP_ACT = 0) : c.release now b = c.selfTestStarts b := by
  have hw := c.selfTestStarts_writes b
  have hl := (hw K.CFLT_LIVE_LIVE (by decide)).trans hlive
  have hc := (hw K.TRIP_STATUS_CMP_ACT (by decide)).trans hcmp
  unfold Cell.release
  rw [if_neg (not_not.2 hmode)]
  change Cell.forN (Cell.forN (c.selfTestStarts b) 4 _) 32 (fun i d =>
    d.when (decide (4 ≤ i) && bitOf ((c.selfTestStarts b).rd K.CFLT_LIVE_LIVE) i) fun d => d.raiseLevel now i) = _
  generalize c.selfTestStarts b = e at hl hc
  rw [Cell.forN_of_fixed 4 fun i _ => by rw [Cell.bit, hc, bitOf_zero, Bool.false_and, Cell.when_false]]
  exact Cell.forN_of_fixed 32 fun i _ => by rw [hl, bitOf_zero, Bool.and_false, Cell.when_false]

/-- The state that the result of the self-test leads to. -/
def Cell.tested (c : Cell) (pass : Bool) : Cell :=
  { c with mode := if c.on K.CFLT_SUM_LOCK_LATCH then Mode.locked else Mode.safeHold, stFail := !pass }

theorem Cell.testEnd_eq (now : Nat) (pass : Bool) (hmode : c.mode = Mode.selfTest) :
    c.testEnd now pass = (c.tested pass).when (!pass) fun c => c.raiseLevel now 24 := by
  unfold Cell.testEnd
  rw [if_neg (not_not.2 hmode)]
  rfl

theorem Cell.testEnd_of_pass (now : Nat) (hmode : c.mode = Mode.selfTest) : c.testEnd now true = c.tested true := by
  rw [Cell.testEnd_eq now true hmode, Bool.not_true, Cell.when_false]

theorem Cell.tested_idle (c : Cell) (pass : Bool) : (c.tested pass).Idle := by
  unfold Cell.Idle Cell.tested
  dsimp only
  split <;> decide

/-- A failed self-test latches source 24 and leaves every gate off. -/
theorem Cell.testEnd_of_fail (now : Nat) (hmode : c.mode = Mode.selfTest) (hcls : c.rd (K.CFLT_CLASS_CLASS 3 0) ≠ 0) :
    (c.testEnd now false).stFail = true ∧ (c.testEnd now false).latched 24 = true ∧
      (c.testEnd now false).bit K.CFLT_LIVE_LIVE 24 = true ∧ (c.testEnd now false).GatesOff := by
  have hidle := c.tested_idle false
  have hfail : (c.tested false).stFail = true := rfl
  have hd : (c.tested false).rd (K.CFLT_CLASS_CLASS (24 / 8) (24 % 8)) ≠ 0 := hcls
  rw [Cell.testEnd_eq now false hmode, Bool.not_false, Cell.when_true]
  generalize c.tested false = d at hidle hfail hd
  exact ⟨(d.raiseLevel_rest now 24).2.2.trans hfail, Cell.raiseLevel_latched (by decide) hd, d.raiseLevel_live now (by decide),
    Cell.raiseLevel_gatesOff hd hidle⟩

theorem cellBecomes_onCell {s : State} {id : Nat} {f : Cell → Cell} {p : Cell → Prop} (h : p (f (s.cell id))) :
    CellBecomes (.next (s.onCell id f)) s id p := ⟨_, rfl, h⟩

/-! ### Time limits -/

theorem Cell.holdLimit_of_own (h : bitOf c.lk.got c.lk.high.toNat = true ∨ c.lk.got = 0) :
    c.holdLimit = { c with lk := { c.lk with next := if c.lk.high then c.lk.recHigh else c.lk.recLow } } := by
  unfold Cell.holdLimit
  cases hh : c.lk.high <;> rcases h with h | h <;> simp_all

/-- Where only the other side had a good header, it becomes the cell's own. -/
theorem Cell.holdLimit_of_other (h : bitOf c.lk.got c.lk.high.toNat = false) (h' : bitOf c.lk.got (1 - c.lk.high.toNat) = true) :
    c.holdLimit = { c with lk := { c.lk with high := !c.lk.high, next := if c.lk.high then c.lk.recLow else c.lk.recHigh } } := by
  unfold Cell.holdLimit
  cases hh : c.lk.high <;> simp_all

/-- Settles O14. -/
theorem cellStartsAndHoldsItsRecord : Obligations.CellStartsAndHoldsItsRecord := by
  refine ⟨fun s id => ?vsup, fun s id b hm hl hc => ?release, fun s id hm hl => ?pass, fun s id hm hl => ?locked,
    fun s id hm _ hc => ?fail, fun s id hm hc => ?overdue, fun s id hm => ?frames, fun s id h => ?own, fun s id h h' => ?other⟩
  case vsup => exact cellBecomes_onCell ⟨rfl, rfl, Cell.gatesOff_of_writes (c := Cell.reset) (fs := []) (.of_regs rfl) rfl (by decide)⟩
  case release =>
    refine cellBecomes_onCell ?_
    rw [Cell.release_of_quiet _ _ hm hl hc]
    exact ⟨Cell.put_mode _ _ _, Cell.put_bridge _ _ _, Cell.on_put_same _ _ _ (by decide) rfl, Cell.put_down _ _ _⟩
  case pass =>
    refine cellBecomes_onCell ?_
    rw [Cell.testEnd_of_pass _ hm, Cell.tested, hl]
    rfl
  case locked =>
    refine cellBecomes_onCell ?_
    rw [Cell.testEnd_of_pass _ hm, Cell.tested, hl]
    rfl
  case fail => exact cellBecomes_onCell (Cell.testEnd_of_fail _ hm hc)
  case overdue => exact cellBecomes_onCell (Cell.testEnd_of_fail _ hm hc)
  case frames =>
    refine cellBecomes_onCell ?_
    rw [if_pos hm]
    have hacc := (s.cell id.toNat).discard_acc
    obtain ⟨rs, e⟩ := (s.cell id.toNat).discard_rest
    rw [e] at hacc ⊢
    exact ⟨rfl, hacc, rfl, rfl, rfl, rfl⟩
  case own =>
    refine cellBecomes_onCell ?_
    rw [Cell.holdLimit_of_own h]
    exact ⟨rfl, rfl⟩
  case other =>
    refine cellBecomes_onCell ?_
    rw [Cell.holdLimit_of_other h h']
    exact ⟨rfl, rfl⟩

end Sys2Proof.Machine
end

section
/-! Trips, gate faults and bypasses of a cell (R173 to R181): what holds the gates off, and what a clear takes away. -/

namespace Sys2Proof.Machine

variable {c d : Cell}

/-! ### What holds the gates off -/

theorem Cell.rd_ne_zero_of_bit {f : Fld} {i : Nat} (h : c.bit f i = true) : c.rd f ≠ 0 := fun h0 => by
  rw [Cell.bit, h0, bitOf_zero] at h
  exact Bool.false_ne_true h

theorem Cell.driving_of_heldOff (h : c.heldOff = true) : c.driving = false := by simp [Cell.driving, h]

theorem Cell.heldOff_of_trip {i : Nat} (h : c.bit K.TRIP_STATUS_TRIP i = true) : c.heldOff = true := by
  simp [Cell.heldOff, Cell.rd_ne_zero_of_bit h]

theorem Cell.heldOff_of_gateFault {i : Nat} (h : c.bit K.TRIP_STATUS_GATE_FLT i = true) : c.heldOff = true := by
  simp [Cell.heldOff, Cell.rd_ne_zero_of_bit h]

theorem Cell.heldOff_of_hwBypass (h : c.on K.TRIP_STATUS_HW_BYP = true) : c.heldOff = true := by simp [Cell.heldOff, h]

theorem Cell.gatesOff_of_heldOff (now : Nat) (h : c.heldOff = true) : (c.regate now).GatesOff :=
  Cell.gatesOff_regate now (Cell.driving_of_heldOff h)

/-! ### Setting a latch -/

/-- A comparator's trip, not yet raised. -/
def Cell.tripSet (c : Cell) (i : Nat) : Cell := { c.putBit K.TRIP_STATUS_TRIP i true with hl := { c.hl with tripped := true } }

theorem Cell.tripSet_writes (c : Cell) (i : Nat) : Cell.Writes [K.TRIP_STATUS_TRIP] c (c.tripSet i) := by
  have h := (Cell.Writes.refl [K.TRIP_STATUS_TRIP] c).putBit K.TRIP_STATUS_TRIP i true (by simp) (by decide)
  unfold Cell.tripSet
  generalize c.putBit _ _ _ = d at h
  exact h.trans (.of_regs rfl)

theorem Cell.tripSet_trip (c : Cell) {i : Nat} (hi : i < 4) : (c.tripSet i).bit K.TRIP_STATUS_TRIP i = true := by
  have h : (c.putBit K.TRIP_STATUS_TRIP i true).bit K.TRIP_STATUS_TRIP i = true := Cell.bit_putBit_same c _ _ _ (by decide) hi
  unfold Cell.tripSet
  generalize c.putBit _ _ _ = d at h
  exact ((Cell.Writes.of_regs (fs := []) rfl).bit i rfl).trans h

theorem Cell.compActive_eq (c : Cell) (now i : Nat) : c.compActive now i =
    let c := (c.putBit K.TRIP_STATUS_CMP_ACT i true).when (c.hbit K.CTRG_CFG_CMP_MASK i) fun c => c.trigger 1 (c.clock now)
    c.when (c.bit K.TRIP_CFG_TRIP_EN i) fun c => ((c.tripSet i).raiseLevel now i).regate now := rfl

/-- A comparator that becomes active and may trip latches its trip and turns every gate off. -/
theorem Cell.compActive_of_enabled (now : Nat) {i : Nat} (hi : i < 4) (h : c.bit K.TRIP_CFG_TRIP_EN i = true) :
    (c.compActive now i).bit K.TRIP_STATUS_TRIP i = true ∧ (c.compActive now i).bit K.TRIP_STATUS_CMP_ACT i = true ∧
      (c.compActive now i).bit K.CFLT_LIVE_LIVE i = true ∧ (c.compActive now i).GatesOff := by
  have hw := (Cell.Writes.refl [K.TRIP_STATUS_CMP_ACT] c).putBit K.TRIP_STATUS_CMP_ACT i true (by simp) (by decide)
  have hact : (c.putBit K.TRIP_STATUS_CMP_ACT i true).bit K.TRIP_STATUS_CMP_ACT i = true := Cell.bit_putBit_same c _ _ _ (by decide) hi
  rw [Cell.compActive_eq]
  generalize c.hbit _ _ = b
  generalize c.putBit _ _ _ = d at hw hact
  have he : Cell.Writes Cell.triggerFlds d (d.when b fun c => c.trigger 1 (c.clock now)) :=
    Cell.when_keeps (Cell.Writes Cell.triggerFlds d) b (.refl _ d) (d.trigger_writes 1 _)
  dsimp only
  generalize Cell.when d _ _ = e at he
  rw [he.bit i (by decide), hw.bit i (by decide), h, Cell.when_true]
  have ht := e.tripSet_trip hi
  have hr := (e.tripSet i).raiseLevel_writes now i
  have hl := (e.tripSet i).raiseLevel_live now (i := i) (by omega)
  have ha := ((e.tripSet_writes i).bit i (by decide)).trans ((he.bit i (by decide)).trans hact)
  generalize (e.tripSet i).raiseLevel now i = x at hr hl
  have hg := x.regate_writes now
  exact ⟨(hg.bit i (by decide)).trans ((hr.bit i (by decide)).trans ht), (hg.bit i (by decide)).trans ((hr.bit i (by decide)).trans ha),
    (hg.bit i (by decide)).trans hl, Cell.gatesOff_of_heldOff now (Cell.heldOff_of_trip ((hr.bit i (by decide)).trans ht))⟩

/-- A gate pin's mismatch, not yet raised. -/
def Cell.gateFaultSet (c : Cell) (g : Nat) : Cell :=
  Cell.putBit { c with hl := { c.hl with tripped := true } } K.TRIP_STATUS_GATE_FLT g true

theorem Cell.gateFault_eq (c : Cell) (now g : Nat) : c.gateFault now g =
    ((((c.gateFaultSet g).raiseLevel now 5).regate now).putBit K.GATE_RB_PIN g
      (!bitOf (Cell.rd { c with hl := { c.hl with tripped := true } } K.GATE_RB_PIN) g)) := rfl

/-- A gate fault is latched with every gate off. -/
theorem Cell.gateFault_gatesOff (c : Cell) (now : Nat) {g : Nat} (hg : g < 4) :
    (c.gateFault now g).bit K.TRIP_STATUS_GATE_FLT g = true ∧ (c.gateFault now g).bit K.CFLT_LIVE_LIVE 5 = true ∧
      (c.gateFault now g).GatesOff := by
  have hf : (c.gateFaultSet g).bit K.TRIP_STATUS_GATE_FLT g = true := Cell.bit_putBit_same _ _ _ _ (by decide) hg
  rw [Cell.gateFault_eq]
  have hr := (c.gateFaultSet g).raiseLevel_writes now 5
  have hl := (c.gateFaultSet g).raiseLevel_live now (i := 5) (by decide)
  generalize (c.gateFaultSet g).raiseLevel now 5 = x at hr hl
  have hx := (hr.bit g (by decide)).trans hf
  have hpin : Cell.Writes Cell.gateFlds x ((x.regate now).putBit K.GATE_RB_PIN g
      (!bitOf (Cell.rd { c with hl := { c.hl with tripped := true } } K.GATE_RB_PIN) g)) :=
    (x.regate_writes now).putBit _ _ _ (by simp [Cell.gateFlds]) (by decide)
  have hoff : (x.regate now).GatesOff := Cell.gatesOff_of_heldOff now (Cell.heldOff_of_gateFault hx)
  exact ⟨(hpin.bit g (by decide)).trans hx, (hpin.bit 5 (by decide)).trans hl,
    Cell.gatesOff_of_writes ((Cell.Writes.refl [K.GATE_RB_PIN] _).putBit _ _ _ (by simp) (by decide)) (by decide) hoff⟩

/-- A mismatch of BYP is reported, and BYP stays as driven. -/
theorem Cell.bypFault_reported (c : Cell) (now : Nat) : (c.bypFault now).on K.TRIP_STATUS_BYP_FLT = true ∧
    (c.bypFault now).bit K.CFLT_LIVE_LIVE 6 = true ∧ (c.bypFault now).pw.byp = c.pw.byp := by
  have hf : (c.put K.TRIP_STATUS_BYP_FLT true).on K.TRIP_STATUS_BYP_FLT = true := Cell.on_put_same _ _ _ (by decide) rfl
  have hb : (c.put K.TRIP_STATUS_BYP_FLT true).pw = c.pw := Cell.put_pw _ _ _
  unfold Cell.bypFault
  generalize c.put K.TRIP_STATUS_BYP_FLT true = d at hf hb
  have hr := d.raiseLevel_writes now 6
  have hl := d.raiseLevel_live now (i := 6) (by decide)
  have hp := (d.raiseLevel_rest now 6).1
  generalize d.raiseLevel now 6 = x at hr hl hp
  have hpin := (Cell.Writes.refl [K.GATE_RB_BYP_PIN] x).put K.GATE_RB_BYP_PIN (!c.pw.byp) (by simp) (by decide)
  refine ⟨(hpin.on (by decide)).trans ((hr.on (by decide)).trans hf), (hpin.bit 6 (by decide)).trans hl, ?_⟩
  rw [Cell.put_pw, hp, hb]

/-! ### The hardwired bypass path -/

/-- The hardwired path shows. -/
def Cell.hwBypassPut (c : Cell) (now : Nat) : Cell := (c.tally now).put K.TRIP_STATUS_HW_BYP true

/-- The hardwired path is active: BYP drives at once. -/
def Cell.hwBypassSet (c : Cell) (now : Nat) : Cell :=
  Cell.discard { c.hwBypassPut now with
    mode := if c.mode = Mode.reset ∨ c.mode = Mode.locked then c.mode else Mode.bypassed
    pw := { c.pw with byp := true, bypassing := false } }

theorem Cell.hwBypass_eq (c : Cell) (now : Nat) : c.hwBypass now = ((c.hwBypassSet now).raiseLevel now 4).regate now := rfl

theorem Cell.startBypass_of_byp (now : Nat) (h : c.pw.byp = true) : c.startBypass now = c := by
  rw [Cell.startBypass_eq, if_pos (.inr h)]

theorem Cell.regsOnly_mode (h : Cell.RegsOnly c d) : d.mode = c.mode := by
  obtain ⟨rs, rfl⟩ := h
  rfl

theorem Cell.regsOnly_pw (h : Cell.RegsOnly c d) : d.pw = c.pw := by
  obtain ⟨rs, rfl⟩ := h
  rfl

theorem Cell.regate_mode (c : Cell) (now : Nat) : (c.regate now).mode = c.mode := by
  obtain ⟨o, w, rs, e⟩ := c.regate_rest now
  rw [e]

theorem Cell.regate_byp (c : Cell) (now : Nat) : (c.regate now).pw.byp = c.pw.byp := by
  obtain ⟨o, w, rs, e⟩ := c.regate_rest now
  rw [e]

theorem Cell.trigger_mode (c : Cell) (k t : Nat) : (c.trigger k t).mode = c.mode := by
  obtain ⟨x, rs, e⟩ := c.trigger_regsOnly k t
  rw [e]

theorem Cell.trigger_pw (c : Cell) (k t : Nat) : (c.trigger k t).pw = c.pw := by
  obtain ⟨x, rs, e⟩ := c.trigger_regsOnly k t
  rw [e]

theorem Cell.latch_apart_class {i : Nat} (hi : i < 32) : Cell.latchFlds.all (·.apart (K.CFLT_CLASS_BYP (i / 8) (i % 8))) = true := by
  have hq : i / 8 < 4 := by omega
  generalize i / 8 = q at hq ⊢
  simp only [Cell.latchFlds, Cell.reactFlds, Cell.accFlds, Cell.gateFlds, Cell.triggerFlds, List.cons_append, List.nil_append,
    List.all_cons, List.all_nil, Bool.and_true, Bool.and_eq_true]
  interval_cases q <;> exact ⟨rfl, rfl, rfl, rfl, rfl, rfl, rfl, rfl, rfl, rfl, rfl, rfl, rfl, rfl, rfl, rfl, rfl, rfl, rfl⟩

/-- A latch of no Lock class leaves the state of a cell whose bypass is closed, or where the source starts none. -/
theorem Cell.latch_mode {now i : Nat} (hi : i < 32) (hcls : c.rd (K.CFLT_CLASS_CLASS (i / 8) (i % 8)) ≤ 4)
    (hb : c.pw.byp = true ∨ c.on (K.CFLT_CLASS_BYP (i / 8) (i % 8)) = false) : (c.latch now i).mode = c.mode := by
  rw [Cell.latch_eq]
  refine iteInduction (motive := fun d : Cell => d.mode = c.mode) (fun _ => rfl) fun _ => ?_
  obtain ⟨o, w, rs, e⟩ := Cell.regate_summarise_rest (Cell.latchReact (c.latchMark i (c.rd (K.CFLT_CLASS_CLASS (i / 8) (i % 8)))) now i
    (c.rd (K.CFLT_CLASS_CLASS (i / 8) (i % 8))) (!c.latched i)) now
  rw [e]
  have hon : K.CFLT_STAT_STAT.apart (K.CFLT_CLASS_BYP (i / 8) (i % 8)) = true := List.all_eq_true.1 (Cell.latch_apart_class hi) _ (by simp [Cell.latchFlds])
  have hre : Cell.reactFlds.all (·.apart (K.CFLT_CLASS_BYP (i / 8) (i % 8))) = true :=
    List.all_eq_true.2 fun f hf => List.all_eq_true.1 (Cell.latch_apart_class hi) f (List.mem_cons_of_mem _ hf)
  refine (Cell.latchReact_keeps (fun d => d.mode = c.mode ∧ d.pw.byp = c.pw.byp ∧ d.on (K.CFLT_CLASS_BYP (i / 8) (i % 8)) =
    c.on (K.CFLT_CLASS_BYP (i / 8) (i % 8))) _ ⟨?_, ?_, ?_⟩ ?_ ?_ (fun h5 => ?_) ?_).1
  · obtain ⟨m, rs, e⟩ := c.latchMark_rest i (c.rd (K.CFLT_CLASS_CLASS (i / 8) (i % 8)))
    rw [e]
  · obtain ⟨m, rs, e⟩ := c.latchMark_rest i (c.rd (K.CFLT_CLASS_CLASS (i / 8) (i % 8)))
    rw [e]
  · exact (c.latchMark_writes i _).on (by simp [hon])
  · rintro d ⟨hm, hp, ho⟩
    have hw := (d.latchFirst_writes now i (c.rd (K.CFLT_CLASS_CLASS (i / 8) (i % 8)))).on hre
    obtain ⟨rs, e⟩ := d.latchFirst_rest now i (c.rd (K.CFLT_CLASS_CLASS (i / 8) (i % 8)))
    refine ⟨?_, ?_, hw.trans ho⟩
    · rw [e]; exact hm
    · rw [e]; exact hp
  · rintro d ⟨hm, hp, ho⟩ hon
    rcases hb with hb | hb
    · rw [Cell.startBypass_of_byp now (hp.trans hb)]
      exact ⟨hm, hp, ho⟩
    · rw [ho, hb] at hon
      exact absurd hon Bool.false_ne_true
  · omega
  · rintro d k t ⟨hm, hp, ho⟩
    exact ⟨(d.trigger_mode k t).trans hm, by rw [Cell.trigger_pw, hp], ((d.trigger_writes k t).on (List.all_eq_true.2 fun f hf =>
      List.all_eq_true.1 hre f (by simp [Cell.reactFlds, hf]))).trans ho⟩

/-- A source of no Lock class that starts no bypass leaves the state as it raises its live cause. -/
theorem Cell.raiseLevel_mode {now i : Nat} (hi : i < 32) (hcls : c.rd (K.CFLT_CLASS_CLASS (i / 8) (i % 8)) ≤ 4)
    (hb : c.pw.byp = true) : (c.raiseLevel now i).mode = c.mode := by
  obtain ⟨rs, e⟩ := (Cell.RegsOnly.refl c).putBit K.CFLT_LIVE_LIVE i true
  have hc := c.class_putLive i i true
  rw [Cell.raiseLevel, e] at *
  exact Cell.latch_mode (c := { c with regs := rs }) hi (hc.trans_le hcls) (.inl hb)

theorem Cell.hwBypassSet_rest (c : Cell) (now : Nat) : (c.hwBypassSet now).pw.byp = true ∧ (c.hwBypassSet now).mode =
      (if c.mode = Mode.reset ∨ c.mode = Mode.locked then c.mode else Mode.bypassed) ∧
    Cell.Writes (K.TRIP_STATUS_HW_BYP :: Cell.accFlds) c (c.hwBypassSet now) ∧
    (c.hwBypassSet now).on K.TRIP_STATUS_HW_BYP = true := by
  have hw : Cell.Writes (K.TRIP_STATUS_HW_BYP :: Cell.accFlds) c (c.hwBypassPut now) :=
    (Cell.Writes.of_regs (d := c.tally now) rfl).put K.TRIP_STATUS_HW_BYP true (by simp) (by decide)
  have hon : (c.hwBypassPut now).on K.TRIP_STATUS_HW_BYP = true := Cell.on_put_same _ _ _ (by decide) rfl
  unfold Cell.hwBypassSet
  generalize c.hwBypassPut now = d at hw hon
  generalize hm : (if c.mode = Mode.reset ∨ c.mode = Mode.locked then c.mode else Mode.bypassed) = m
  have hd := Cell.discard_writes { d with mode := m, pw := { c.pw with byp := true, bypassing := false } }
  have hs : Cell.Writes (K.TRIP_STATUS_HW_BYP :: Cell.accFlds) d { d with mode := m, pw := { c.pw with byp := true, bypassing := false } } :=
    .of_regs rfl
  have hs' : Cell.Writes [] d { d with mode := m, pw := { c.pw with byp := true, bypassing := false } } := .of_regs rfl
  refine ⟨?_, ?_, (hw.trans hs).trans (hd.mono (List.subset_cons_self _ _)), (hd.on (by decide)).trans ((hs'.on rfl).trans hon)⟩
  · obtain ⟨rs, e⟩ := Cell.discard_rest { d with mode := m, pw := { c.pw with byp := true, bypassing := false } }
    rw [e]
  · obtain ⟨rs, e⟩ := Cell.discard_rest { d with mode := m, pw := { c.pw with byp := true, bypassing := false } }
    rw [e]

/-- The source of the hardwired path, raised while BYP drives. -/
theorem Cell.raise_of_hwBypass {now : Nat} (hon : d.on K.TRIP_STATUS_HW_BYP = true) (hbyp : d.pw.byp = true)
    (hcls : d.rd (K.CFLT_CLASS_CLASS 0 4) ≤ 4) : ((d.raiseLevel now 4).regate now).on K.TRIP_STATUS_HW_BYP = true ∧
      ((d.raiseLevel now 4).regate now).pw.byp = true ∧ ((d.raiseLevel now 4).regate now).mode = d.mode ∧
      ((d.raiseLevel now 4).regate now).GatesOff := by
  have hm : (d.raiseLevel now 4).mode = d.mode := Cell.raiseLevel_mode (by decide) hcls hbyp
  have hr := (d.raiseLevel_writes now 4).on (g := K.TRIP_STATUS_HW_BYP) (by decide)
  have hp := (d.raiseLevel_rest now 4).1
  generalize d.raiseLevel now 4 = x at hm hr hp
  exact ⟨((x.regate_writes now).on (by decide)).trans (hr.trans hon), (x.regate_byp now).trans (hp.trans hbyp),
    (x.regate_mode now).trans hm, Cell.gatesOff_of_heldOff now (Cell.heldOff_of_hwBypass (hr.trans hon))⟩

/-- The hardwired path closes the bypass with every gate off. -/
theorem Cell.hwBypass_closes (now : Nat) (h0 : c.mode ≠ Mode.reset) (h8 : c.mode ≠ Mode.locked)
    (hcls : c.rd (K.CFLT_CLASS_CLASS 0 4) ≤ 4) : (c.hwBypass now).on K.TRIP_STATUS_HW_BYP = true ∧ (c.hwBypass now).pw.byp = true ∧
      (c.hwBypass now).mode = Mode.bypassed ∧ (c.hwBypass now).GatesOff := by
  obtain ⟨hbyp, hmode, hw, hon⟩ := c.hwBypassSet_rest now
  rw [if_neg (by simp [h0, h8])] at hmode
  rw [Cell.hwBypass_eq, ← hmode]
  exact Cell.raise_of_hwBypass hon hbyp ((hw _ (by decide)).trans_le hcls)

end Sys2Proof.Machine
end

section
/-! Clearing the latches of a cell (R175 to R177, R180, R425), and the obligations on trips and bypasses. -/

namespace Sys2Proof.Machine

variable {c d : Cell}

/-! ### One clear -/

theorem Cell.forN_succ (c : Cell) (n : Nat) (f : Nat → Cell → Cell) : c.forN (n + 1) f = f n (c.forN n f) := by
  rw [Cell.forN, Cell.forN, upto, upto, List.range_succ, List.foldl_append]
  rfl

/-- In a loop, what one turn brings about stays where the turns before it and after it leave it alone. -/
theorem Cell.forN_turn (A B : Cell → Prop) {n i : Nat} {f : Nat → Cell → Cell} (hi : i < n)
    (before : ∀ j, j ≠ i → ∀ d, A d → A (f j d)) (turn : ∀ d, A d → B (f i d)) (after : ∀ j, j ≠ i → ∀ d, B d → B (f j d))
    (hc : A c) : B (c.forN n f) := by
  induction n with
  | zero => exact absurd hi (Nat.not_lt_zero i)
  | succ n ih =>
    rw [Cell.forN_succ]
    rcases Nat.lt_or_eq_of_le (Nat.le_of_lt_succ hi) with h | rfl
    · exact after n (by omega) _ (ih h)
    · refine turn _ ?_
      clear ih
      have : ∀ m, m ≤ i → A (c.forN m f) := by
        intro m
        induction m with
        | zero => exact fun _ => hc
        | succ m ih =>
          intro hm
          rw [Cell.forN_succ]
          exact before m (by omega) _ (ih (by omega))
      exact this i (Nat.le_refl i)

/-- The fields that hold latches. -/
def Cell.latchedFlds : List Fld := [K.CFLT_STAT_STAT, K.TRIP_STATUS_TRIP, K.TRIP_STATUS_GATE_FLT, K.TRIP_STATUS_BYP_FLT]

/-- The latch of a source goes. -/
def Cell.unmark (c : Cell) (i : Nat) : Cell := { c.putBit K.CFLT_STAT_STAT i false with cls := mapErase c.cls i }

theorem Cell.unmark_regs (c : Cell) (i : Nat) : (c.unmark i).regs = (c.putBit K.CFLT_STAT_STAT i false).regs := by
  unfold Cell.unmark
  generalize c.putBit _ _ _ = d
  rfl

theorem Cell.unmark_writes (c : Cell) (i : Nat) : Cell.Writes [K.CFLT_STAT_STAT] c (c.unmark i) :=
  ((Cell.Writes.refl _ c).putBit K.CFLT_STAT_STAT i false (by simp) (by decide)).trans (.of_regs (c.unmark_regs i))

theorem Cell.unmark_latched (c : Cell) {i j : Nat} (hj : j < 32) :
    (c.unmark i).latched j = if i = j then false else c.latched j := by
  have h := (Cell.Writes.of_regs (fs := []) (c.unmark_regs i)).bit (g := K.CFLT_STAT_STAT) j rfl
  rw [Cell.latched, h]
  split
  · next hij => rw [hij]; exact Cell.bit_putBit_same c _ _ _ (by decide) hj
  · next hij => exact Cell.bit_putBit_ne c _ _ (by decide) hj hij

theorem Cell.unmark_rest (c : Cell) (i : Nat) : Cell.RegsOnly { c with cls := mapErase c.cls i } (c.unmark i) := by
  have hd := (Cell.RegsOnly.refl c).putBit K.CFLT_STAT_STAT i false
  unfold Cell.unmark
  generalize c.putBit K.CFLT_STAT_STAT i false = d at hd
  obtain ⟨rs, rfl⟩ := hd
  exact ⟨rs, rfl⟩

theorem Cell.unlatch_eq (c : Cell) (i : Nat) : c.unlatch i = if i ≤ 3 then (c.unmark i).putBit K.TRIP_STATUS_TRIP i false
    else if i = 5 then (c.unmark i).wr K.TRIP_STATUS_GATE_FLT 0 else if i = 6 then (c.unmark i).put K.TRIP_STATUS_BYP_FLT false
    else c.unmark i := rfl

theorem Cell.unlatch_rest (c : Cell) (i : Nat) : Cell.RegsOnly { c with cls := mapErase c.cls i } (c.unlatch i) := by
  have h := c.unmark_rest i
  rw [Cell.unlatch_eq]
  generalize c.unmark i = d at h
  generalize ({ c with cls := mapErase c.cls i } : Cell) = e at h
  split_ifs
  · exact h.putBit _ _ _
  · exact h.wr _ _
  · exact h.put _ _
  · exact h

theorem Cell.unlatch_writes (c : Cell) (i : Nat) : Cell.Writes Cell.latchedFlds c (c.unlatch i) := by
  have h : Cell.Writes Cell.latchedFlds c (c.unmark i) := (c.unmark_writes i).mono (by simp [Cell.latchedFlds])
  rw [Cell.unlatch_eq]
  generalize c.unmark i = d at h
  split_ifs
  · exact h.putBit _ _ _ (by simp [Cell.latchedFlds]) (by decide)
  · exact h.wr _ _ (by simp [Cell.latchedFlds]) (by decide)
  · exact h.put _ _ (by simp [Cell.latchedFlds]) (by decide)
  · exact h

theorem Cell.unlatch_latched (c : Cell) {i j : Nat} (hj : j < 32) :
    (c.unlatch i).latched j = if i = j then false else c.latched j := by
  rw [← c.unmark_latched hj, Cell.unlatch_eq, Cell.latched, Cell.latched]
  generalize c.unmark i = d
  split_ifs
  · exact ((Cell.Writes.refl [K.TRIP_STATUS_TRIP] d).putBit _ _ _ (by simp) (by decide)).bit j (by decide)
  · exact ((Cell.Writes.refl [K.TRIP_STATUS_GATE_FLT] d).wr _ _ (by simp) (by decide)).bit j (by decide)
  · exact ((Cell.Writes.refl [K.TRIP_STATUS_BYP_FLT] d).put _ _ (by simp) (by decide)).bit j (by decide)
  · rfl

/-- The trip of a comparator goes with its own latch only. -/
theorem Cell.unlatch_trip (c : Cell) {i j : Nat} (hj : j < 4) :
    (c.unlatch i).bit K.TRIP_STATUS_TRIP j = if i = j then false else c.bit K.TRIP_STATUS_TRIP j := by
  rw [← (c.unmark_writes i).bit (g := K.TRIP_STATUS_TRIP) j (by decide), Cell.unlatch_eq]
  generalize c.unmark i = d
  by_cases h3 : i ≤ 3
  · rw [if_pos h3]
    split
    · next hij => rw [hij]; exact Cell.bit_putBit_same d _ _ _ (by decide) hj
    · next hij => exact Cell.bit_putBit_ne d _ _ (by decide) hj hij
  · have hij : i ≠ j := by omega
    rw [if_neg h3, if_neg hij]
    split_ifs
    · exact ((Cell.Writes.refl [K.TRIP_STATUS_GATE_FLT] d).wr _ _ (by simp) (by decide)).bit j (by decide)
    · exact ((Cell.Writes.refl [K.TRIP_STATUS_BYP_FLT] d).put _ _ (by simp) (by decide)).bit j (by decide)
    · rfl

def Cell.refusedFlds : List Fld := [K.TRIP_STATUS_CLEAR_REFUSED, K.CFLT_SUM_CLEAR_REFUSED]

theorem Cell.refuseClear_writes (c : Cell) : Cell.Writes Cell.refusedFlds c c.refuseClear :=
  ((Cell.Writes.refl _ c).put _ _ (by simp [Cell.refusedFlds]) (by decide)).put _ _ (by simp [Cell.refusedFlds]) (by decide)

theorem Cell.refuseClear_rest (c : Cell) : Cell.RegsOnly c c.refuseClear := ((Cell.RegsOnly.refl c).put _ _).put _ _

theorem Cell.refuseClear_refused (c : Cell) :
    c.refuseClear.on K.TRIP_STATUS_CLEAR_REFUSED = true ∧ c.refuseClear.on K.CFLT_SUM_CLEAR_REFUSED = true := by
  refine ⟨?_, Cell.on_put_same _ _ _ (by decide) rfl⟩
  have h := (Cell.Writes.refl [K.CFLT_SUM_CLEAR_REFUSED] (c.put K.TRIP_STATUS_CLEAR_REFUSED true)).put K.CFLT_SUM_CLEAR_REFUSED true
    (by simp) (by decide)
  exact (h.on (by decide)).trans (Cell.on_put_same _ _ _ (by decide) rfl)

/-! ### A property of a cell that a write to TRIP_STATUS keeps -/

/-- What a turn of the loop over the trips does. -/
def Cell.clearTurn (v i : Nat) (c : Cell) : Cell :=
  c.when (bitOf v i && c.bit K.TRIP_STATUS_TRIP i) fun c => if c.bit K.TRIP_STATUS_CMP_ACT i then c.refuseClear else c.clearShared i

/-- The gate faults that a write clears. -/
def Cell.clearGate (c : Cell) (v : Nat) : Cell :=
  let gf := bitsOf v 8 4 &&& c.rd K.TRIP_STATUS_GATE_FLT
  c.when (gf != 0) fun c =>
    if c.bit K.CFLT_LIVE_LIVE 5 then c.refuseClear
    else if c.rd K.TRIP_STATUS_GATE_FLT = gf then c.clearShared 5
    else c.wr K.TRIP_STATUS_GATE_FLT (c.rd K.TRIP_STATUS_GATE_FLT ^^^ gf)

/-- The bypass fault that a write clears. -/
def Cell.clearByp (c : Cell) (v : Nat) : Cell :=
  c.when (bitOf v 12 && c.on K.TRIP_STATUS_BYP_FLT) fun c =>
    if c.bit K.CFLT_LIVE_LIVE 6 then c.refuseClear else c.clearShared 6

theorem Cell.clearTrip_eq (c : Cell) (now v : Nat) : c.clearTrip now v =
    (((((c.when (bitOf v 16) fun c => c.put K.TRIP_STATUS_CLEAR_REFUSED false).forN 4 (Cell.clearTurn v)).clearGate v).clearByp
      v).afterClear c now) := rfl

/-- A property that the single changes of a clear keep. -/
structure Cell.ClearKeeps (P : Cell → Prop) (i : Nat) : Prop where
  refuse : ∀ d, P d → P d.refuseClear
  lock : ∀ d, P d → P (d.put K.CFLT_SUM_CLEAR_REFUSED true)
  unlatch : ∀ d j, j ≠ i → P d → P (d.unlatch j)
  gate : ∀ d v, P d → P (d.wr K.TRIP_STATUS_GATE_FLT v)

variable {P : Cell → Prop} {i : Nat}

theorem Cell.ClearKeeps.shared (h : Cell.ClearKeeps P i) {j : Nat} (hj : j ≠ i) (hd : P d) : P (d.clearShared j) := by
  unfold Cell.clearShared
  split
  · exact h.lock d hd
  · exact h.unlatch d j hj hd

theorem Cell.ClearKeeps.turn (h : Cell.ClearKeeps P i) (v : Nat) {j : Nat} (hj : j ≠ i) (hd : P d) : P (Cell.clearTurn v j d) := by
  unfold Cell.clearTurn
  refine Cell.when_keeps P _ hd ?_
  split
  · exact h.refuse d hd
  · exact h.shared hj hd

theorem Cell.ClearKeeps.gates (h : Cell.ClearKeeps P i) (hi : i < 4) (v : Nat) (hd : P d) : P (d.clearGate v) := by
  unfold Cell.clearGate
  refine Cell.when_keeps P _ hd ?_
  split
  · exact h.refuse d hd
  · split
    · exact h.shared (by omega) hd
    · exact h.gate d _ hd

theorem Cell.ClearKeeps.byp (h : Cell.ClearKeeps P i) (hi : i < 4) (v : Nat) (hd : P d) : P (d.clearByp v) := by
  unfold Cell.clearByp
  refine Cell.when_keeps P _ hd ?_
  split
  · exact h.refuse d hd
  · exact h.shared (by omega) hd

/-- What the gates and the summary after a clear leave. -/
theorem Cell.afterClear_eq (c was : Cell) (now : Nat) : c.afterClear was now =
    (Cell.regate { c with pw := { c.pw with held := c.pw.held || (was.heldOff && !c.heldOff) } } now).summarise := rfl

theorem Cell.afterClear_writes (c was : Cell) (now : Nat) : Cell.Writes Cell.reactFlds c (c.afterClear was now) := by
  rw [Cell.afterClear_eq]
  generalize (c.pw.held || (was.heldOff && !c.heldOff)) = b
  have h : Cell.Writes Cell.reactFlds c { c with pw := { c.pw with held := b } } := .of_regs rfl
  exact h.trans (Cell.regate_summarise_writes _ now)

theorem Cell.afterClear_mode (c was : Cell) (now : Nat) : (c.afterClear was now).mode = c.mode := by
  rw [Cell.afterClear_eq]
  generalize (c.pw.held || (was.heldOff && !c.heldOff)) = b
  obtain ⟨o, w, rs, e⟩ := Cell.regate_summarise_rest { c with pw := { c.pw with held := b } } now
  rw [e]

/-- A trip that stands after a clear has every gate off. -/
theorem Cell.afterClear_gatesOff (was : Cell) (now : Nat) {j : Nat} (h : c.bit K.TRIP_STATUS_TRIP j = true) : (c.afterClear was now).GatesOff := by
  rw [Cell.afterClear_eq]
  generalize (c.pw.held || (was.heldOff && !c.heldOff)) = b
  have hd : Cell.Writes [] c { c with pw := { c.pw with held := b } } := .of_regs rfl
  exact Cell.gatesOff_of_writes (Cell.summarise_writes _) (by decide)
    (Cell.gatesOff_of_heldOff now (Cell.heldOff_of_trip ((hd.bit j rfl).trans h)))

/-! ### A trip that is cleared, and one that is refused -/

/-- A trip that can be cleared, in state `m`. -/
structure Cell.Clearable (i m : Nat) (c : Cell) : Prop where
  trip : c.bit K.TRIP_STATUS_TRIP i = true
  absent : c.bit K.TRIP_STATUS_CMP_ACT i = false
  soft : mapGet (fun _ => 0) c.cls i ≠ 5
  mode : c.mode = m

/-- A trip that has been cleared, in state `m`. -/
structure Cell.Cleared (i m : Nat) (c : Cell) : Prop where
  trip : c.bit K.TRIP_STATUS_TRIP i = false
  latch : c.latched i = false
  mode : c.mode = m

/-- A trip whose cause is present. -/
structure Cell.Tripping (i : Nat) (c : Cell) : Prop where
  trip : c.bit K.TRIP_STATUS_TRIP i = true
  present : c.bit K.TRIP_STATUS_CMP_ACT i = true

/-- A trip whose clear was refused. -/
structure Cell.Refused (i : Nat) (c : Cell) : Prop extends Cell.Tripping i c where
  trips : c.on K.TRIP_STATUS_CLEAR_REFUSED = true
  faults : c.on K.CFLT_SUM_CLEAR_REFUSED = true

theorem Cell.regsOnly_cls (h : Cell.RegsOnly c d) : d.cls = c.cls := by
  obtain ⟨rs, rfl⟩ := h
  rfl

theorem Cell.clearable_of_writes {fs : List Fld} {m : Nat} (h : Cell.Writes fs c d) (ho : Cell.RegsOnly c d)
    (h1 : fs.all (·.apart K.TRIP_STATUS_TRIP) = true) (h2 : fs.all (·.apart K.TRIP_STATUS_CMP_ACT) = true) (hc : Cell.Clearable i m c) :
    Cell.Clearable i m d :=
  ⟨(h.bit i h1).trans hc.trip, (h.bit i h2).trans hc.absent, by rw [Cell.regsOnly_cls ho]; exact hc.soft,
    (Cell.regsOnly_mode ho).trans hc.mode⟩

theorem Cell.unlatch_mode (c : Cell) (j : Nat) : (c.unlatch j).mode = c.mode := by
  obtain ⟨rs, e⟩ := c.unlatch_rest j
  rw [e]

theorem Cell.unlatch_cls (c : Cell) (j : Nat) : (c.unlatch j).cls = mapErase c.cls j := by
  obtain ⟨rs, e⟩ := c.unlatch_rest j
  rw [e]

theorem Cell.clearable_keeps (hi : i < 4) (m : Nat) : Cell.ClearKeeps (Cell.Clearable i m) i where
  refuse d h := Cell.clearable_of_writes d.refuseClear_writes d.refuseClear_rest (by decide) (by decide) h
  lock d h := Cell.clearable_of_writes ((Cell.Writes.refl [K.CFLT_SUM_CLEAR_REFUSED] d).put _ _ (by simp) (by decide))
    ((Cell.RegsOnly.refl d).put _ _) (by decide) (by decide) h
  unlatch d j hj h := by
    refine ⟨by rw [d.unlatch_trip hi, if_neg hj, h.trip], ((d.unlatch_writes j).bit i (by decide)).trans h.absent, ?_,
      (d.unlatch_mode j).trans h.mode⟩
    rw [d.unlatch_cls, mapGet_mapErase, if_neg (Ne.symm hj)]
    exact h.soft
  gate d v h := Cell.clearable_of_writes ((Cell.Writes.refl [K.TRIP_STATUS_GATE_FLT] d).wr _ _ (by simp) (by decide))
    ((Cell.RegsOnly.refl d).wr _ _) (by decide) (by decide) h

theorem Cell.cleared_of_writes {fs : List Fld} {m : Nat} (h : Cell.Writes fs c d) (hm : d.mode = c.mode)
    (h1 : fs.all (·.apart K.TRIP_STATUS_TRIP) = true) (h2 : fs.all (·.apart K.CFLT_STAT_STAT) = true) (hc : Cell.Cleared i m c) :
    Cell.Cleared i m d := ⟨(h.bit i h1).trans hc.trip, (h.bit i h2).trans hc.latch, hm.trans hc.mode⟩

theorem Cell.cleared_keeps (hi : i < 4) (m : Nat) : Cell.ClearKeeps (Cell.Cleared i m) i where
  refuse d h := Cell.cleared_of_writes d.refuseClear_writes (Cell.regsOnly_mode d.refuseClear_rest) (by decide) (by decide) h
  lock d h := Cell.cleared_of_writes ((Cell.Writes.refl [K.CFLT_SUM_CLEAR_REFUSED] d).put _ _ (by simp) (by decide))
    (Cell.put_mode _ _ _) (by decide) (by decide) h
  unlatch d j hj h := ⟨by rw [d.unlatch_trip hi, if_neg hj, h.trip], by rw [d.unlatch_latched (by omega), if_neg hj, h.latch],
    (d.unlatch_mode j).trans h.mode⟩
  gate d v h := Cell.cleared_of_writes ((Cell.Writes.refl [K.TRIP_STATUS_GATE_FLT] d).wr _ _ (by simp) (by decide))
    (Cell.wr_mode _ _ _) (by decide) (by decide) h

theorem Cell.clearTurn_clears {v m : Nat} (hi : i < 4) (hv : bitOf v i = true) (h : Cell.Clearable i m c) :
    Cell.Cleared i m (Cell.clearTurn v i c) := by
  unfold Cell.clearTurn
  rw [hv, h.trip, Bool.true_and, Cell.when_true, h.absent, if_neg Bool.false_ne_true, Cell.clearShared, if_neg h.soft]
  exact ⟨by rw [c.unlatch_trip hi, if_pos rfl], by rw [c.unlatch_latched (by omega), if_pos rfl], (c.unlatch_mode i).trans h.mode⟩

/-- A write of 1 clears a trip whose cause has gone, and its latch with it. -/
theorem Cell.clearTrip_clears {now v : Nat} (hi : i < 4) (hv : bitOf v i = true) (h : Cell.Clearable i c.mode c) :
    Cell.Cleared i c.mode (c.clearTrip now v) := by
  rw [Cell.clearTrip_eq]
  have h0 : Cell.Clearable i c.mode (c.when (bitOf v 16) fun c => c.put K.TRIP_STATUS_CLEAR_REFUSED false) :=
    Cell.when_keeps _ _ h (Cell.clearable_of_writes ((Cell.Writes.refl [K.TRIP_STATUS_CLEAR_REFUSED] c).put _ _ (by simp) (by decide))
      ((Cell.RegsOnly.refl c).put _ _) (by decide) (by decide) h)
  generalize Cell.when c _ _ = d at h0
  have h1 := Cell.forN_turn (f := Cell.clearTurn v) (Cell.Clearable i c.mode) (Cell.Cleared i c.mode) hi
    (fun j hj d hd => (Cell.clearable_keeps hi _).turn v hj hd) (fun d hd => Cell.clearTurn_clears hi hv hd)
    (fun j hj d hd => (Cell.cleared_keeps hi _).turn v hj hd) h0
  have h2 := (Cell.cleared_keeps hi _).byp hi v ((Cell.cleared_keeps hi _).gates hi v h1)
  exact Cell.cleared_of_writes (Cell.afterClear_writes _ c now) (Cell.afterClear_mode _ c now) (by decide) (by decide) h2

theorem Cell.tripping_of_writes {fs : List Fld} (h : Cell.Writes fs c d) (h1 : fs.all (·.apart K.TRIP_STATUS_TRIP) = true)
    (h2 : fs.all (·.apart K.TRIP_STATUS_CMP_ACT) = true) (hc : Cell.Tripping i c) : Cell.Tripping i d :=
  ⟨(h.bit i h1).trans hc.trip, (h.bit i h2).trans hc.present⟩

theorem Cell.tripping_unlatch (hi : i < 4) {j : Nat} (hj : j ≠ i) (h : Cell.Tripping i d) : Cell.Tripping i (d.unlatch j) :=
  ⟨by rw [d.unlatch_trip hi, if_neg hj, h.trip], ((d.unlatch_writes j).bit i (by decide)).trans h.present⟩

theorem Cell.tripping_keeps (hi : i < 4) : Cell.ClearKeeps (Cell.Tripping i) i where
  refuse d h := Cell.tripping_of_writes d.refuseClear_writes (by decide) (by decide) h
  lock d h := Cell.tripping_of_writes ((Cell.Writes.refl [K.CFLT_SUM_CLEAR_REFUSED] d).put _ _ (by simp) (by decide)) (by decide) (by decide) h
  unlatch d j hj h := Cell.tripping_unlatch hi hj h
  gate d v h := Cell.tripping_of_writes ((Cell.Writes.refl [K.TRIP_STATUS_GATE_FLT] d).wr _ _ (by simp) (by decide)) (by decide) (by decide) h

theorem Cell.refused_of_writes {fs : List Fld} (h : Cell.Writes fs c d) (h1 : fs.all (·.apart K.TRIP_STATUS_TRIP) = true)
    (h2 : fs.all (·.apart K.TRIP_STATUS_CMP_ACT) = true) (h3 : fs.all (·.apart K.TRIP_STATUS_CLEAR_REFUSED) = true)
    (h4 : fs.all (·.apart K.CFLT_SUM_CLEAR_REFUSED) = true) (hc : Cell.Refused i c) : Cell.Refused i d :=
  ⟨Cell.tripping_of_writes h h1 h2 hc.toTripping, (h.on h3).trans hc.trips, (h.on h4).trans hc.faults⟩

theorem Cell.refused_keeps (hi : i < 4) : Cell.ClearKeeps (Cell.Refused i) i where
  refuse d h := ⟨(Cell.tripping_keeps hi).refuse d h.toTripping, d.refuseClear_refused.1, d.refuseClear_refused.2⟩
  lock d h := ⟨(Cell.tripping_keeps hi).lock d h.toTripping,
    (((Cell.Writes.refl [K.CFLT_SUM_CLEAR_REFUSED] d).put _ _ (by simp) (by decide)).on (by decide)).trans h.trips,
    Cell.on_put_same _ _ _ (by decide) rfl⟩
  unlatch d j hj h := ⟨Cell.tripping_unlatch hi hj h.toTripping, ((d.unlatch_writes j).on (by decide)).trans h.trips,
    ((d.unlatch_writes j).on (by decide)).trans h.faults⟩
  gate d v h := Cell.refused_of_writes ((Cell.Writes.refl [K.TRIP_STATUS_GATE_FLT] d).wr _ _ (by simp) (by decide)) (by decide) (by decide)
    (by decide) (by decide) h

theorem Cell.clearTurn_refuses {v : Nat} (hv : bitOf v i = true) (h : Cell.Tripping i c) : Cell.Refused i (Cell.clearTurn v i c) := by
  unfold Cell.clearTurn
  rw [hv, h.trip, Bool.true_and, Cell.when_true, h.present, if_pos rfl]
  exact ⟨Cell.tripping_of_writes c.refuseClear_writes (by decide) (by decide) h, c.refuseClear_refused.1, c.refuseClear_refused.2⟩

/-- A write of 1 to a trip whose cause is present is refused, and the gates stay off. -/
theorem Cell.clearTrip_refuses {now v : Nat} (hi : i < 4) (hv : bitOf v i = true) (h : Cell.Tripping i c) :
    Cell.Refused i (c.clearTrip now v) ∧ (c.clearTrip now v).GatesOff := by
  rw [Cell.clearTrip_eq]
  have h0 : Cell.Tripping i (c.when (bitOf v 16) fun c => c.put K.TRIP_STATUS_CLEAR_REFUSED false) :=
    Cell.when_keeps _ _ h (Cell.tripping_of_writes ((Cell.Writes.refl [K.TRIP_STATUS_CLEAR_REFUSED] c).put _ _ (by simp) (by decide))
      (by decide) (by decide) h)
  generalize Cell.when c _ _ = d at h0
  have h1 := Cell.forN_turn (f := Cell.clearTurn v) (Cell.Tripping i) (Cell.Refused i) hi
    (fun j hj d hd => (Cell.tripping_keeps hi).turn v hj hd) (fun d hd => Cell.clearTurn_refuses hv hd)
    (fun j hj d hd => (Cell.refused_keeps hi).turn v hj hd) h0
  have h2 := (Cell.refused_keeps hi).byp hi v ((Cell.refused_keeps hi).gates hi v h1)
  exact ⟨Cell.refused_of_writes (Cell.afterClear_writes _ c now) (by decide) (by decide) (by decide) (by decide) h2,
    Cell.afterClear_gatesOff c now h2.trip⟩

/-! ### Bypasses by command -/

/-- A bypass that starts leaves nothing to play and every gate off. -/
theorem Cell.startBypass_starts (now : Nat) (h0 : c.mode ≠ Mode.reset) (h8 : c.mode ≠ Mode.locked) (hb : c.pw.byp = false) :
    (c.startBypass now).mode = Mode.bypassed ∧ (c.startBypass now).pw.bypassing = true ∧ (c.startBypass now).pw.byp = false ∧
      (c.startBypass now).GatesOff ∧ (c.startBypass now).pw.entries = [] ∧ (c.startBypass now).lk.next = none := by
  have hmode : (c.bypassBegins now).mode = Mode.bypassed := if_neg h8
  have hbyp : (c.bypassBegins now).pw.byp = false := hb
  have hon : (c.bypassBegins now).pw.bypassing = true := rfl
  rw [Cell.startBypass_eq, if_neg (by simp [h0, hb])]
  generalize c.bypassBegins now = d at hmode hbyp hon
  have hidle : d.discard.Idle := by
    obtain ⟨rs, e⟩ := d.discard_rest
    rw [e]
    exact ⟨by rw [hmode]; decide, by rw [hmode]; decide⟩
  refine ⟨?_, ?_, ?_, Cell.gatesOff_regate now (Cell.driving_of_idle hidle), ?_, ?_⟩ <;>
    (obtain ⟨o, w, rs, e⟩ := d.discard.regate_rest now; obtain ⟨rs', e'⟩ := d.discard_rest; rw [e, e']; try assumption)

/-- Settles O23. -/
theorem tripsAndBypassesHoldTheGatesOff : Obligations.TripsAndBypassesHoldTheGatesOff := by
  refine ⟨fun s id i h => ?trip, fun s id i _ => ?quiet, fun s id i v hv ht ha hs => ?cleared, fun s id i v hv ht hp => ?refused,
    fun s id g _ => ?gate, fun s id _ => ?byp, fun s id h0 h8 hc => ?hard, fun s id v h1 hk h0 h8 hb => ?cmd, fun s id v hk => ?noKey,
    fun s id hb => ?assert⟩
  case trip => exact cellBecomes_onCell (Cell.compActive_of_enabled _ i.isLt h)
  case quiet => exact cellBecomes_onCell rfl
  case cleared =>
    have h := Cell.clearTrip_clears (now := s.now) i.isLt hv ⟨ht, ha, hs, rfl⟩
    exact cellBecomes_onCell ⟨h.trip, h.latch, h.mode⟩
  case refused =>
    obtain ⟨h, hoff⟩ := Cell.clearTrip_refuses (now := s.now) i.isLt hv ⟨ht, hp⟩
    exact cellBecomes_onCell ⟨h.trip, h.trips, h.faults, hoff⟩
  case gate => exact cellBecomes_onCell (Cell.gateFault_gatesOff _ _ g.isLt)
  case byp => exact cellBecomes_onCell (Cell.bypFault_reported _ _)
  case hard => exact cellBecomes_onCell (Cell.hwBypass_closes _ h0 h8 hc)
  case cmd =>
    refine cellBecomes_onCell ?_
    rw [Cell.bypCmd, h1, hk, Bool.true_and, beq_self_eq_true, Cell.when_true]
    exact Cell.startBypass_starts _ h0 h8 hb
  case noKey =>
    refine cellBecomes_onCell ?_
    rw [Cell.bypCmd, beq_eq_false_iff_ne.2 hk, Bool.and_false, Cell.when_false]
  case assert =>
    refine cellBecomes_onCell ?_
    rw [Cell.bypAssert, if_pos hb]
    exact ⟨rfl, rfl, Cell.on_put_same _ _ _ (by decide) rfl, rfl⟩

end Sys2Proof.Machine
end

section
/-! A cell plays its record (R157 to R171): what a boundary leaves and brings about, and the other events of the switching
unit. -/

namespace Sys2Proof.Machine

variable {c d : Cell}

/-! ### The beginning of a boundary -/

theorem Cell.RegsOnly.trans {e : Cell} (h : Cell.RegsOnly c d) (h' : Cell.RegsOnly d e) : Cell.RegsOnly c e := by
  obtain ⟨rs, rfl⟩ := h
  obtain ⟨rs', rfl⟩ := h'
  exact ⟨rs', rfl⟩

/-- A strobe marks results stale, counts skips and starts the sequence anew. -/
theorem Cell.strobe_keeps (P : Cell → Prop) (h : P c) (stale : ∀ d i b, P d → P (d.put (K.RES_ST_STALE i) b))
    (skip : ∀ d, P d → P (d.inc K.ADC_STATUS_SKIP_CNT)) (ad : ∀ d x, P d → P { d with ad := x }) : P c.strobe := by
  have hskip : ∀ (chan : Nat → Nat) (l : List Nat) (d : Cell), P d →
      P (l.foldl (fun c j => (c.put (K.RES_ST_STALE (chan j)) true).inc K.ADC_STATUS_SKIP_CNT) d) := by
    intro chan l
    induction l with
    | nil => exact fun d h => h
    | cons j l ih => exact fun d h => ih _ (skip _ (stale _ _ _ h))
  exact ad _ _ (Cell.forN_keeps P _ (fun i d hd => Cell.when_keeps P _ hd (stale d i true hd)) (ad _ _ (hskip _ _ _ h)))

theorem Cell.strobe_rest (c : Cell) : ∃ x, Cell.RegsOnly { c with ad := x } c.strobe := by
  refine Cell.strobe_keeps (fun d => ∃ x, Cell.RegsOnly { c with ad := x } d) ⟨c.ad, .refl c⟩ ?_ ?_ ?_
  · exact fun d i b ⟨x, h⟩ => ⟨x, h.put _ _⟩
  · exact fun d ⟨x, h⟩ => ⟨x, h.inc _ _⟩
  · rintro d y ⟨x, rs, rfl⟩
    exact ⟨y, rs, rfl⟩

/-- A field outside the converter's words reads the same after a strobe. -/
theorem Cell.strobe_rd (c : Cell) {g : Fld} (hs : ∀ i, (K.RES_ST_STALE i).apart g = true) (hk : K.ADC_STATUS_SKIP_CNT.apart g = true) :
    c.strobe.rd g = c.rd g :=
  Cell.strobe_keeps (fun d => d.rd g = c.rd g) rfl (fun d i b h => (Cell.rd_put_apart d _ _ _ rfl (hs i)).trans h)
    (fun d h => (Cell.rd_inc_apart d _ _ _ (by decide) hk).trans h)
    fun d x h => (Cell.Writes.of_regs (fs := []) (c := d) rfl g rfl).trans h

/-- Without a boundary that is named, only the next one moves on. -/
theorem Cell.nextBound_of_none (h : c.tm.pend = none) : ∃ x, c.nextBound = { c with tm := { c.tm with bound := x } } := by
  unfold Cell.nextBound
  rw [h]
  exact ⟨_, rfl⟩

theorem Cell.periodOpens_rest (now : Nat) (h : c.tm.pend = none) : ∃ lk x ad, Cell.RegsOnly
    { c with lk := lk, tm := { c.tm with bound := x }, ad := ad, pw := { c.pw with tb := now, held := false } } (c.periodOpens now) := by
  unfold Cell.periodOpens
  obtain ⟨x, e⟩ := Cell.nextBound_of_none (c := Cell.newPeriod { c with pw := { c.pw with tb := now, held := false } }) h
  rw [e]
  obtain ⟨ad, hs⟩ := Cell.strobe_rest { Cell.newPeriod { c with pw := { c.pw with tb := now, held := false } } with
    tm := { (Cell.newPeriod { c with pw := { c.pw with tb := now, held := false } }).tm with bound := x } }
  exact ⟨_, x, ad, hs⟩

theorem Cell.periodOpens_syncMode (now : Nat) (h : c.tm.pend = none) :
    (c.periodOpens now).rd K.PWM_CFG_SYNC_MODE = c.rd K.PWM_CFG_SYNC_MODE := by
  unfold Cell.periodOpens
  obtain ⟨x, e⟩ := Cell.nextBound_of_none (c := Cell.newPeriod { c with pw := { c.pw with tb := now, held := false } }) h
  rw [e, Cell.strobe_rd _ (fun i => by simp [Fld.apart, K.RES_ST_STALE, K.PWM_CFG_SYNC_MODE]) (by decide)]
  exact Cell.Writes.of_regs (fs := []) rfl _ rfl

/-- Without a committed step there is nothing to judge. -/
theorem Cell.judgeStep_of_noLayout (now : Nat) (h : c.tm.layout = false) : c.judgeStep now = { c with pw := { c.pw with tcBad := false } } := by
  have hs : c.stepDiffers = false := by simp [Cell.stepDiffers, h]
  rw [Cell.judgeStep, hs, Bool.false_and, Cell.when_false]

theorem Cell.carrierStart_rest (c : Cell) (now : Nat) :
    ∃ x y, (c.carrierStart now).1 = { c with pw := { c.pw with sync := x, carAt := y } } := by
  unfold Cell.carrierStart
  extract_lets n pw d follow
  clear_value follow
  split
  · cases follow
    · exact ⟨_, _, rfl⟩
    · exact ⟨_, _, rfl⟩
  · exact ⟨_, _, rfl⟩

theorem Cell.carrierStart_noPulse (now : Nat) (h : c.rd K.PWM_CFG_SYNC_MODE = 0) : (c.carrierStart now).2 = false := by
  unfold Cell.carrierStart
  extract_lets n pw d follow
  have hd : d.rd K.PWM_CFG_SYNC_MODE = 0 := (Cell.Writes.of_regs (fs := []) (c := c) rfl _ rfl).trans h
  have hf : follow = false := by simp [follow, hd]
  split
  · simp [hd]
  · rfl

/-- What a boundary does before its record applies: the period, the boundaries, the converter and the carrier move on. -/
theorem Cell.boundaryBegins_rest (now : Nat) (h : c.tm.pend = none) (hl : c.tm.layout = false) : ∃ lk tm ad sl x y, Cell.RegsOnly
    { c with lk := lk, tm := tm, ad := ad, sl := sl,
             pw := { c.pw with tb := now, held := false, tcBad := false, sync := x, carAt := y } } (c.boundaryBegins now) := by
  obtain ⟨lk, b, ad, hd⟩ := Cell.periodOpens_rest now h
  unfold Cell.boundaryBegins
  generalize c.periodOpens now = d at hd
  obtain ⟨x, y, e⟩ := Cell.carrierStart_rest { d with pw := { d.pw with tcBad := false } } now
  have hlay : d.tm.layout = false := by
    obtain ⟨rs, rfl⟩ := hd
    exact hl
  rw [Cell.judgeStep_of_noLayout now hlay, e]
  obtain ⟨rs, rfl⟩ := hd
  exact ⟨lk, _, ad, _, x, y, rs, rfl⟩

theorem Cell.boundary_noPulse (now : Nat) (h : c.tm.pend = none) (hl : c.tm.layout = false) (hs : c.rd K.PWM_CFG_SYNC_MODE = 0) :
    (c.boundary now).2 = false := by
  show ((c.closePeriod now).boundaryActs now).2 = false
  rw [Cell.boundaryActs_snd]
  have hs' : ((c.closePeriod now).periodOpens now).rd K.PWM_CFG_SYNC_MODE = 0 := by
    rw [Cell.periodOpens_syncMode now (by exact h)]
    exact (Cell.Writes.of_regs (fs := []) (c := c) rfl _ rfl).trans hs
  obtain ⟨lk, b, ad, rs, e⟩ := Cell.periodOpens_rest (c := c.closePeriod now) now (by exact h)
  have hlay : ((c.closePeriod now).periodOpens now).tm.layout = false := by
    rw [e]
    exact hl
  generalize (c.closePeriod now).periodOpens now = d at hs' hlay
  rw [Cell.judgeStep_of_noLayout now hlay]
  exact Cell.carrierStart_noPulse now ((Cell.Writes.of_regs (fs := []) (c := d) rfl _ rfl).trans hs')

/-! ### An entry without parts -/

theorem Cell.demandOf_congr (hb : d.bridge = c.bridge) (hz : d.on K.PWM_CFG_ZSEL = c.on K.PWM_CFG_ZSEL) (cls : Nat) :
    d.demandOf cls = c.demandOf cls := by
  unfold Cell.demandOf
  rw [hb, hz]

theorem Cell.demandClass_rest (c : Cell) (now cls : Nat) : ∃ hl o w, Cell.RegsOnly
    { c with hl := hl, pw := { c.pw with demand := c.demandOf cls, offAt := o, wait := w } } (c.demandClass now cls) := by
  obtain ⟨o, w, h⟩ := Cell.regate_rest { c.tally now with pw := { c.pw with demand := c.demandOf cls } } now
  exact ⟨_, o, w, h⟩

theorem Cell.demandClass_writes (c : Cell) (now cls : Nat) : Cell.Writes Cell.gateFlds c (c.demandClass now cls) := by
  have h : Cell.Writes Cell.gateFlds c { c.tally now with pw := { c.pw with demand := c.demandOf cls } } := .of_regs rfl
  exact h.trans (Cell.regate_writes _ now)

theorem Cell.dropAcc_rest (c : Cell) : Cell.RegsOnly c c.dropAcc := by
  unfold Cell.dropAcc
  split
  · exact .refl c
  · exact ((Cell.RegsOnly.refl c).wr _ _).inc _ _

theorem Cell.dropAcc_writes (c : Cell) : Cell.Writes [K.PWM_ACC_ACC, K.PWM_CNT_LOST] c c.dropAcc := by
  unfold Cell.dropAcc
  split
  · exact .refl _ c
  · exact ((Cell.Writes.refl _ c).wr K.PWM_ACC_ACC 0 (by simp) (by decide)).inc K.PWM_CNT_LOST _ (by simp) (by decide)

/-- An entry of state OFF, ZERO or INSERT_POS plays: its demand stands for the whole period. -/
theorem Cell.playEntry_plain (now e : Nat) (hbad : c.pw.tcBad = false) (hst : bitsOf e 0 4 ≤ 2) :
    (∃ hl o w, Cell.RegsOnly
      { c with hl := hl,
               pw := { c.pw with parts := [], skip := 0, demand := c.demandOf (bitsOf e 0 4), offAt := o, wait := w } }
      (c.playEntry now e)) ∧ (c.playEntry now e).rd K.PWM_STATUS_STATE = bitsOf e 0 4 ∧
      (c.playEntry now e).on K.PWM_CFG_ZSEL = c.on K.PWM_CFG_ZSEL := by
  have hb : c.badState (bitsOf e 0 4) = false := by
    simp only [Cell.badState, Bool.or_eq_false_iff, decide_eq_false_iff_not, Bool.and_eq_false_iff, beq_eq_false_iff_ne]
    omega
  have he : c.entryState e = bitsOf e 0 4 := by simp [Cell.entryState, hb, hbad]
  have hrest : Cell.RegsOnly { c with pw := { c.pw with parts := [], skip := 0 } } (c.entryBegins now e) := by
    unfold Cell.entryBegins
    rw [hb, Cell.when_false]
    obtain ⟨rs, h⟩ := (Cell.RegsOnly.refl c).wr K.PWM_STATUS_STATE (c.entryState e)
    rw [h]
    exact ⟨rs, rfl⟩
  have hregs : (c.entryBegins now e).regs = (c.wr K.PWM_STATUS_STATE (bitsOf e 0 4)).regs := by
    unfold Cell.entryBegins
    rw [hb, Cell.when_false, he]
  have hstate : (c.entryBegins now e).rd K.PWM_STATUS_STATE = bitsOf e 0 4 := by
    rw [Cell.Writes.of_regs (fs := []) hregs _ rfl, Cell.rd_wr_same _ _ _ (by decide)]
    exact Nat.mod_eq_of_lt (by simp only [K.PWM_STATUS_STATE]; omega)
  have hz : (c.entryBegins now e).on K.PWM_CFG_ZSEL = c.on K.PWM_CFG_ZSEL :=
    ((Cell.Writes.of_regs (fs := []) hregs).on rfl).trans
      (((Cell.Writes.refl [K.PWM_STATUS_STATE] c).wr _ _ (by simp) (by decide)).on (by decide))
  rw [Cell.playEntry_eq, he, if_neg (by omega), if_neg (by omega)]
  generalize c.entryBegins now e = x at hrest hstate hz
  have hd := x.dropAcc_writes
  have hdr := hrest.trans x.dropAcc_rest
  generalize x.dropAcc = y at hd hdr
  have hw := y.demandClass_writes now (bitsOf e 0 4)
  refine ⟨?_, (hw _ (by decide)).trans ((hd _ (by decide)).trans hstate), (hw.on (by decide)).trans ((hd.on (by decide)).trans hz)⟩
  obtain ⟨hl, o, w, h⟩ := y.demandClass_rest now (bitsOf e 0 4)
  have hdem : y.demandOf (bitsOf e 0 4) = c.demandOf (bitsOf e 0 4) :=
    Cell.demandOf_congr (by obtain ⟨rs, rfl⟩ := hdr; rfl) ((hd.on (by decide)).trans hz) _
  rw [hdem] at h
  obtain ⟨rs, rfl⟩ := hdr
  obtain ⟨rs', e'⟩ := h
  exact ⟨hl, o, w, rs', e'⟩

/-! ### A record, and the horizon -/

theorem Cell.maskAt_rest (c : Cell) (l : List Byte) : ∃ a b x p,
    c.maskAt l = { c with pw := { c.pw with coastOpen := a, openAt := b, opened := x, pos := p } } := by
  unfold Cell.maskAt
  extract_lets opened
  clear_value opened
  dsimp only
  split
  · split
    · exact ⟨_, _, _, _, rfl⟩
    · exact ⟨_, _, _, _, rfl⟩
  · split
    · exact ⟨_, _, _, _, rfl⟩
    · split
      · exact ⟨_, _, _, _, rfl⟩
      · exact ⟨_, _, _, _, rfl⟩

theorem Cell.maskCoast_rest (c : Cell) : ∃ a x, x.isSome = true ∧
    c.maskCoast = { c with pw := { c.pw with coastOpen := a, openAt := none, opened := x } } := by
  unfold Cell.maskCoast
  dsimp only
  split
  · exact ⟨_, _, rfl, rfl⟩
  · next x h => exact ⟨_, _, rfl, by rw [h]⟩

/-- The entries of a record of format 1. -/
def Rec.entries (r : Rec) : List Nat := [leAt r.body 2 3, leAt r.body 5 3, leAt r.body 8 3, leAt r.body 11 3]

theorem Cell.takeRecord_format1 (now : Nat) {r : Rec} (h : bitsOf (byteAt r.body 0) 0 4 = 1) : c.takeRecord now r =
    { c with pw := { c.pw with entries := r.entries, nPred := bitsOf (byteAt r.body 1) 0 2, ix := 0 } } := by
  unfold Cell.takeRecord
  rw [h]
  rfl

/-- What a record in a running cell brings about. -/
structure Cell.Playing (r : Rec) (now : Nat) (c : Cell) : Prop where
  mode : c.mode = Mode.running
  state : c.rd K.PWM_STATUS_STATE = bitsOf (leAt r.body 2 3) 0 4
  demand : c.pw.demand = c.demandOf (bitsOf (leAt r.body 2 3) 0 4)
  tb : c.pw.tb = now
  entries : c.pw.entries = r.entries

theorem Cell.playRecord_plays {now : Nat} {r : Rec} (hm : c.mode = Mode.running) (htb : c.pw.tb = now) (hbad : c.pw.tcBad = false)
    (hf : bitsOf (byteAt r.body 0) 0 4 = 1) (hst : bitsOf (leAt r.body 2 3) 0 4 ≤ 2) :
    Cell.Playing r now (c.playRecord now r) ∧ (c.playRecord now r).rd K.PWM_STATUS_ENTRY = 0 := by
  obtain ⟨a, b, x, p, hmask⟩ := c.maskAt_rest r.header
  unfold Cell.playRecord
  rw [hmask, Cell.takeRecord_format1 now hf]
  generalize hd : ({ ({ c with pw := { c.pw with coastOpen := a, openAt := b, opened := x, pos := p } } : Cell) with
    pw := { ({ c with pw := { c.pw with coastOpen := a, openAt := b, opened := x, pos := p } } : Cell).pw with
      entries := r.entries, nPred := bitsOf (byteAt r.body 1) 0 2, ix := 0 } } : Cell) = d
  have hdm : d.mode = Mode.running := by rw [← hd]; exact hm
  have hdt : d.pw.tb = now := by rw [← hd]; exact htb
  have hdb : d.pw.tcBad = false := by rw [← hd]; exact hbad
  have hde : d.pw.entries = r.entries := by rw [← hd]
  dsimp only
  rw [show d.pw.entries.getD 0 0 = leAt r.body 2 3 by rw [hde]; rfl]
  obtain ⟨⟨hl, o, w, hrest⟩, hs, hz⟩ := d.playEntry_plain now (leAt r.body 2 3) hdb hst
  generalize d.playEntry now (leAt r.body 2 3) = e at hrest hs hz
  have hw := (Cell.Writes.refl [K.PWM_STATUS_ENTRY] e).wr K.PWM_STATUS_ENTRY 0 (by simp) (by decide)
  refine ⟨⟨?_, (hw _ (by decide)).trans hs, ?_, ?_, ?_⟩, Cell.rd_wr_same _ _ _ (by decide)⟩
  · rw [Cell.wr_mode, Cell.regsOnly_mode hrest]
    exact hdm
  · rw [Cell.wr_pw, Cell.regsOnly_pw hrest]
    refine (Cell.demandOf_congr ?_ ((hw.on (by decide)).trans hz) _).symm
    obtain ⟨rs, rfl⟩ := hrest
    exact Cell.wr_bridge _ _ _
  · rw [Cell.wr_pw, Cell.regsOnly_pw hrest]
    exact hdt
  · rw [Cell.wr_pw, Cell.regsOnly_pw hrest]
    exact hde

/-- A good record puts a BLOCKED, RUNNING or COASTING cell in RUNNING. -/
theorem Cell.resume_runs {r : Rec} (hr : bitOf (byteAt r.header 0) 3 = false)
    (hm : c.mode = Mode.blocked ∨ c.mode = Mode.running ∨ c.mode = Mode.coasting) : c.resume r = { c with mode := Mode.running } := by
  unfold Cell.resume
  rw [hr]
  rcases hm with h | h | h
  · rw [if_pos (by simp [h])]
  · rw [if_neg (by simp [h, Mode.running, Mode.blocked, Mode.coasting]), ← h]
  · rw [if_pos (by simp [h])]

theorem Cell.applyRecord_plays {now : Nat} {r : Rec} (hm : c.mode = Mode.blocked ∨ c.mode = Mode.running ∨ c.mode = Mode.coasting)
    (htb : c.pw.tb = now) (hbad : c.pw.tcBad = false) (hr : bitOf (byteAt r.header 0) 3 = false)
    (hf : bitsOf (byteAt r.body 0) 0 5 = 1) (hst : bitsOf (leAt r.body 2 3) 0 4 ≤ 2) :
    Cell.Playing r now (c.applyRecord now r) ∧ (c.applyRecord now r).rd K.PWM_STATUS_ENTRY = 0 := by
  have hf4 : bitsOf (byteAt r.body 0) 0 4 = 1 := by
    simp only [bitsOf] at hf ⊢
    omega
  have hb4 : bitOf (byteAt r.body 0) 4 = false := by
    simp only [bitsOf, bitOf, beq_eq_false_iff_ne] at hf ⊢
    omega
  unfold Cell.applyRecord
  rw [Cell.resume_runs hr hm, if_pos rfl, hb4, if_neg Bool.false_ne_true]
  exact Cell.playRecord_plays (c := { c with mode := Mode.running }) rfl htb hbad hf4 hst

theorem Cell.openPeriod_writes (c : Cell) : Cell.Writes [] c c.openPeriod := .of_regs rfl

/-- A boundary with a good record of format 1 plays its first entry from this boundary. -/
theorem Cell.boundary_plays {now : Nat} {r : Rec} (hrec : c.lk.next = some r)
    (hm : c.mode = Mode.blocked ∨ c.mode = Mode.running ∨ c.mode = Mode.coasting) (hp : c.tm.pend = none) (hl : c.tm.layout = false)
    (hr : bitOf (byteAt r.header 0) 3 = false) (hf : bitsOf (byteAt r.body 0) 0 5 = 1) (hst : bitsOf (leAt r.body 2 3) 0 4 ≤ 2) :
    Cell.Playing r now (c.boundary now).1 ∧ (c.boundary now).1.rd K.PWM_STATUS_ENTRY = 0 := by
  rw [Cell.boundary_fst, hrec, Cell.applies]
  obtain ⟨lk, tm, ad, sl, x, y, rs, e⟩ := Cell.boundaryBegins_rest (c := c.closePeriod now) now (by exact hp) (by exact hl)
  have hm' : ((c.closePeriod now).boundaryBegins now).mode = c.mode := by
    rw [e]
    rfl
  have htb : ((c.closePeriod now).boundaryBegins now).pw.tb = now := by rw [e]
  have hbad : ((c.closePeriod now).boundaryBegins now).pw.tcBad = false := by rw [e]
  generalize (c.closePeriod now).boundaryBegins now = d at hm' htb hbad
  obtain ⟨h, h0⟩ := Cell.applyRecord_plays (by rw [hm']; exact hm) htb hbad hr hf hst
  generalize d.applyRecord now r = z at h h0
  have hw := z.openPeriod_writes
  exact ⟨⟨h.mode, (hw _ rfl).trans h.state, h.demand.trans (Cell.demandOf_congr (c := z) rfl (hw.on rfl) _).symm, h.tb, h.entries⟩,
    (hw _ rfl).trans h0⟩

/-- A boundary without a record goes on in the horizon, with the mask open. -/
theorem Cell.playOn_plays {now : Nat} (hbad : c.pw.tcBad = false) (hst : bitsOf (c.pw.entries.getD c.nextIx 0) 0 4 ≤ 2) :
    (c.playOn now).mode = c.mode ∧ (c.playOn now).pw.tb = c.pw.tb ∧ (c.playOn now).pw.ix = c.nextIx ∧
      (c.playOn now).pw.opened.isSome = true := by
  obtain ⟨a, x, hx, hmask⟩ := c.maskCoast_rest
  unfold Cell.playOn
  rw [hmask]
  generalize hd : ({ ({ c with pw := { c.pw with coastOpen := a, openAt := none, opened := x } } : Cell) with
    pw := { ({ c with pw := { c.pw with coastOpen := a, openAt := none, opened := x } } : Cell).pw with ix := c.nextIx } } : Cell) = d
  have hdb : d.pw.tcBad = false := by rw [← hd]; exact hbad
  have hde : d.pw.entries = c.pw.entries := by rw [← hd]
  have hrest : d.mode = c.mode ∧ d.pw.tb = c.pw.tb ∧ d.pw.ix = c.nextIx ∧ d.pw.opened.isSome = true := by
    rw [← hd]
    exact ⟨rfl, rfl, rfl, hx⟩
  dsimp only
  have he : bitsOf (if c.nextIx ≤ d.pw.nPred then d.pw.entries.getD c.nextIx 0 else 0) 0 4 ≤ 2 := by
    rw [hde]
    split
    · exact hst
    · decide
  generalize (if c.nextIx ≤ d.pw.nPred then d.pw.entries.getD c.nextIx 0 else 0) = e at he
  obtain ⟨⟨hl, o, w, h⟩, -, -⟩ := d.playEntry_plain now e hdb he
  generalize d.playEntry now e = z at h
  rw [Cell.wr_mode, Cell.wr_pw, Cell.regsOnly_mode h, Cell.regsOnly_pw h]
  exact hrest

theorem Cell.boundary_coasts {now : Nat} (hrec : c.lk.next = none) (hm : c.mode = Mode.running ∨ c.mode = Mode.coasting)
    (hp : c.tm.pend = none) (hl : c.tm.layout = false) (hst : bitsOf (c.pw.entries.getD c.nextIx 0) 0 4 ≤ 2) :
    (c.boundary now).1.mode = Mode.coasting ∧ (c.boundary now).1.pw.tb = now ∧ (c.boundary now).1.pw.ix = c.nextIx ∧
      (c.boundary now).1.pw.opened.isSome = true := by
  rw [Cell.boundary_fst, hrec, Cell.applies]
  obtain ⟨lk, tm, ad, sl, x, y, rs, e⟩ := Cell.boundaryBegins_rest (c := c.closePeriod now) now (by exact hp) (by exact hl)
  have hm' : ((c.closePeriod now).boundaryBegins now).mode = c.mode := by
    rw [e]
    rfl
  have htb : ((c.closePeriod now).boundaryBegins now).pw.tb = now := by rw [e]
  have hbad : ((c.closePeriod now).boundaryBegins now).pw.tcBad = false := by rw [e]
  have hix : ((c.closePeriod now).boundaryBegins now).nextIx = c.nextIx := by
    rw [e]
    rfl
  have hent : ((c.closePeriod now).boundaryBegins now).pw.entries = c.pw.entries := by
    rw [e]
    rfl
  generalize (c.closePeriod now).boundaryBegins now = d at hm' htb hbad hix hent
  have hcoast : d.coast now = Cell.playOn { d with mode := Mode.coasting } now := by
    unfold Cell.coast
    rcases hm with h | h
    · rw [if_pos (hm'.trans h)]
      exact if_pos rfl
    · have hd : d.mode = Mode.coasting := hm'.trans h
      have hself : ({ d with mode := Mode.coasting } : Cell) = d := by rw [← hd]
      rw [if_neg (c := d.mode = Mode.running) (by rw [hd]; decide), hself]
      exact if_pos hd
  obtain ⟨h1, h2, h3, h4⟩ := Cell.playOn_plays (c := { d with mode := Mode.coasting }) (now := now) hbad (by
    rw [← hix, ← hent] at hst
    exact hst)
  rw [hcoast]
  generalize Cell.playOn { d with mode := Mode.coasting } now = z at h1 h2 h3 h4
  exact ⟨h1, h2.trans htb, h3.trans hix, h4⟩

end Sys2Proof.Machine
end

section
/-! The events of a cell between boundaries (R161 to R171), and the obligation on cells that play their records. -/

namespace Sys2Proof.Machine

variable {c d : Cell}

theorem Cell.demandClass_demand (c : Cell) (now cls : Nat) : (c.demandClass now cls).pw.demand = (c.demandClass now cls).demandOf cls ∧
    (c.demandClass now cls).pw.parts = c.pw.parts ∧ (c.demandClass now cls).mode = c.mode := by
  obtain ⟨hl, o, w, h⟩ := c.demandClass_rest now cls
  have hz := (c.demandClass_writes now cls).on (g := K.PWM_CFG_ZSEL) (by decide)
  generalize c.demandClass now cls = e at h hz
  have hb : e.bridge = c.bridge := by
    obtain ⟨rs, rfl⟩ := h
    rfl
  rw [Cell.demandOf_congr hb hz, Cell.regsOnly_pw h, Cell.regsOnly_mode h]
  exact ⟨rfl, rfl, rfl⟩

/-- The next part of a PWM entry begins. -/
theorem Cell.partEnd_next {now at' cls : Nat} {rest : List (Nat × Nat)} (h : c.pw.parts = (at', cls) :: rest) :
    (c.partEnd now).pw.parts = rest ∧ (c.partEnd now).pw.demand = (c.partEnd now).demandOf cls ∧ (c.partEnd now).mode = c.mode := by
  unfold Cell.partEnd
  rw [h]
  obtain ⟨h1, h2, h3⟩ := Cell.demandClass_demand { c with pw := { c.pw with parts := rest } } now cls
  exact ⟨h2, h1, h3⟩

/-- A leg whose part is long enough changes over. -/
theorem Cell.crossing_changes {now : Nat} {leg : Nat} (hs : c.rd K.PWM_STATUS_STATE = 6) (hl : leg = 0 ∨ c.bridge = true)
    (hk : bitOf c.pw.skip leg = false)
    (hw : c.rd K.PWM_MINP_MINP ≤ c.legWidth leg (!bitOf c.pw.demand (2 * leg)) -
      c.deadTime (if bitOf c.pw.demand (2 * leg) then 2 * leg + 1 else 2 * leg)) :
    (c.crossing now leg).pw.demand = legDemand c.pw.demand leg (!bitOf c.pw.demand (2 * leg)) ∧ (c.crossing now leg).mode = c.mode := by
  have hcross : c.crossLeg now leg (!bitOf c.pw.demand (2 * leg)) = Cell.regate
      { c.tally now with pw := { c.pw with demand := legDemand c.pw.demand leg (!bitOf c.pw.demand (2 * leg)) } } now := by
    have hg : (if (!bitOf c.pw.demand (2 * leg)) = true then 2 * leg else 2 * leg + 1) =
        (if bitOf c.pw.demand (2 * leg) = true then 2 * leg + 1 else 2 * leg) := by cases bitOf c.pw.demand (2 * leg) <;> rfl
    unfold Cell.crossLeg
    dsimp only
    rw [hg, hk, decide_eq_false (not_lt.2 hw), if_neg (by cases bitOf c.pw.demand (2 * leg) <;> simp), if_neg Bool.false_ne_true,
      Bool.false_and, if_neg Bool.false_ne_true, Cell.when_false]
  unfold Cell.crossing
  rw [if_pos ⟨hs, hl⟩, hcross]
  obtain ⟨o, w, h⟩ := Cell.regate_rest
    { c.tally now with pw := { c.pw with demand := legDemand c.pw.demand leg (!bitOf c.pw.demand (2 * leg)) } } now
  rw [Cell.regsOnly_pw h, Cell.regsOnly_mode h]
  exact ⟨rfl, rfl⟩

/-- A gate that waited turns on once its partner is off. -/
theorem Cell.deadEnd_turnsOn {now g : Nat} (hg : g < 4) (hw : bitOf c.pw.wait g = true)
    (ho : bitOf (c.rd K.PWM_STATUS_GATES) (otherGate g) = false) : bitOf ((c.deadEnd now g).rd K.PWM_STATUS_GATES) g = true ∧
      bitOf (c.deadEnd now g).pw.wait g = false ∧ (c.deadEnd now g).pw.demand = c.pw.demand := by
  have he : c.deadEnd now g =
      (Cell.putBit { c with pw := { c.pw with wait := Machine.putBit c.pw.wait g false } } K.PWM_STATUS_GATES g true).pins := by
    unfold Cell.deadEnd
    rw [hw, Bool.not_true, if_neg Bool.false_ne_true]
    dsimp only
    rw [ho, Bool.false_and, if_neg Bool.false_ne_true, if_neg Bool.false_ne_true]
  have hon := Cell.bit_putBit_same { c with pw := { c.pw with wait := Machine.putBit c.pw.wait g false } } K.PWM_STATUS_GATES g true
    (by decide) hg
  have hrest : Cell.RegsOnly { c with pw := { c.pw with wait := Machine.putBit c.pw.wait g false } } (c.deadEnd now g) := by
    rw [he]
    exact (((Cell.RegsOnly.refl _).putBit _ _ _).wr _ _).put _ _
  refine ⟨?_, by rw [Cell.regsOnly_pw hrest]; exact bitOf_putBit_same _ _ _, by rw [Cell.regsOnly_pw hrest]⟩
  rw [he, Cell.rd_pins_apart _ _ (by decide) (by decide)]
  exact hon

theorem Cell.regate_mask (c : Cell) (now : Nat) : (c.regate now).pw.openAt = c.pw.openAt ∧ (c.regate now).pw.opened = c.pw.opened ∧
    (c.regate now).pw.pos = c.pw.pos := by
  obtain ⟨o, w, h⟩ := c.regate_rest now
  rw [Cell.regsOnly_pw h]
  exact ⟨rfl, rfl, rfl⟩

/-! ### The end of the horizon -/

/-- A property that a latch of no Lock class, by a source that starts no bypass, keeps. -/
theorem Cell.latch_keeps_quiet (P : Cell → Prop) {now i : Nat} (hi : i < 32) (hcls : c.rd (K.CFLT_CLASS_CLASS (i / 8) (i % 8)) ≤ 4)
    (hb : c.on (K.CFLT_CLASS_BYP (i / 8) (i % 8)) = false) (h : P c) (mark : ∀ cls, P (c.latchMark i cls))
    (first : ∀ d cls, P d → P (d.latchFirst now i cls)) (trigger : ∀ d k t, P d → P (Cell.trigger d k t))
    (gates : ∀ d, P d → P (d.regate now).summarise) : P (c.latch now i) := by
  have hall := Cell.latch_apart_class hi
  have hstat : K.CFLT_STAT_STAT.apart (K.CFLT_CLASS_BYP (i / 8) (i % 8)) = true := List.all_eq_true.1 hall _ (by simp [Cell.latchFlds])
  have hreact : Cell.reactFlds.all (·.apart (K.CFLT_CLASS_BYP (i / 8) (i % 8))) = true :=
    List.all_eq_true.2 fun f hf => List.all_eq_true.1 hall f (List.mem_cons_of_mem _ hf)
  have htrig : Cell.triggerFlds.all (·.apart (K.CFLT_CLASS_BYP (i / 8) (i % 8))) = true :=
    List.all_eq_true.2 fun f hf => List.all_eq_true.1 hreact f (by simp [Cell.reactFlds, hf])
  rw [Cell.latch_eq]
  refine iteInduction (fun _ => h) fun _ => gates _ (Cell.latchReact_keeps
    (fun d => P d ∧ d.on (K.CFLT_CLASS_BYP (i / 8) (i % 8)) = false) _ ⟨mark _, ?_⟩ ?_ ?_ (fun h5 => by omega) ?_).1
  · exact ((c.latchMark_writes i _).on (by simp [hstat])).trans hb
  · exact fun d ⟨hd, ho⟩ => ⟨first d _ hd, ((d.latchFirst_writes now i _).on hreact).trans ho⟩
  · exact fun d ⟨_, ho⟩ hon => absurd (ho.symm.trans hon) Bool.false_ne_true
  · exact fun d k t ⟨hd, ho⟩ => ⟨trigger d k t hd, ((d.trigger_writes k t).on htrig).trans ho⟩

/-- What blocks a cell at the end of its horizon. -/
structure Cell.PlayedOut (c : Cell) : Prop where
  mode : c.mode = Mode.blocked
  entries : c.pw.entries = []
  acc : c.rd K.PWM_ACC_ACC = 0

theorem Cell.playedOut_of {fs : List Fld} (hw : Cell.Writes fs c d) (hfs : fs.all (·.apart K.PWM_ACC_ACC) = true) (hm : d.mode = c.mode)
    (he : d.pw.entries = c.pw.entries) (h : c.PlayedOut) : d.PlayedOut := ⟨hm.trans h.mode, he.trans h.entries, (hw _ hfs).trans h.acc⟩

theorem Cell.toBlocked_eq (c : Cell) (now : Nat) :
    c.toBlocked now = (Cell.discard { c.tally now with mode := Mode.blocked }).regate now := rfl

theorem Cell.toBlocked_playedOut (c : Cell) (now : Nat) : (c.toBlocked now).PlayedOut ∧ (c.toBlocked now).GatesOff := by
  rw [Cell.toBlocked_eq]
  have hacc := Cell.discard_acc { c.tally now with mode := Mode.blocked }
  have hr := Cell.discard_rest { c.tally now with mode := Mode.blocked }
  generalize Cell.discard { c.tally now with mode := Mode.blocked } = d at hacc hr
  have hd : d.PlayedOut := ⟨Cell.regsOnly_mode hr, by rw [Cell.regsOnly_pw hr], hacc⟩
  obtain ⟨o, w, h⟩ := d.regate_rest now
  refine ⟨Cell.playedOut_of (d.regate_writes now) (by decide) (d.regate_mode now) (by rw [Cell.regsOnly_pw h]) hd,
    Cell.gatesOff_regate now (Cell.driving_of_idle ⟨?_, ?_⟩)⟩ <;> (rw [hd.mode]; decide)

theorem Cell.toBlocked_writes (c : Cell) (now : Nat) : Cell.Writes (Cell.accFlds ++ Cell.gateFlds) c (c.toBlocked now) := by
  rw [Cell.toBlocked_eq]
  have h : Cell.Writes (Cell.accFlds ++ Cell.gateFlds) c { c.tally now with mode := Mode.blocked } := .of_regs rfl
  exact (h.trans ((Cell.discard_writes _).mono (List.subset_append_left _ _))).trans
    ((Cell.regate_writes _ now).mono (List.subset_append_right _ _))

/-- A latch of source 25 leaves a blocked cell blocked. -/
theorem Cell.latch_playedOut {now i : Nat} (hi : i < 32) (hcls : c.rd (K.CFLT_CLASS_CLASS (i / 8) (i % 8)) ≤ 4)
    (hb : c.on (K.CFLT_CLASS_BYP (i / 8) (i % 8)) = false) (h : c.PlayedOut) : (c.latch now i).PlayedOut := by
  refine Cell.latch_keeps_quiet Cell.PlayedOut hi hcls hb h ?_ ?_ ?_ ?_
  · intro cls
    obtain ⟨m, hr⟩ := c.latchMark_rest i cls
    exact Cell.playedOut_of (c.latchMark_writes i cls) (by decide) (by rw [Cell.regsOnly_mode hr]) (by rw [Cell.regsOnly_pw hr]) h
  · intro d cls hd
    have hr := d.latchFirst_rest now i cls
    have hw : Cell.Writes [K.CFLT_FIRST_SRC, K.CFLT_FIRST_VALID, K.CFLT_FIRST_CLASS, K.CFLT_FTIME_FTIME] d (d.latchFirst now i cls) := by
      have h := ((((Cell.Writes.refl [K.CFLT_FIRST_SRC, K.CFLT_FIRST_VALID, K.CFLT_FIRST_CLASS, K.CFLT_FTIME_FTIME] d).wr
        K.CFLT_FIRST_SRC i (by simp) (by decide)).put K.CFLT_FIRST_VALID true (by simp) (by decide)).wr K.CFLT_FIRST_CLASS cls (by simp)
        (by decide)).wr K.CFLT_FTIME_FTIME (d.clock now) (by simp) (by decide)
      exact h.trans (.of_regs rfl)
    exact Cell.playedOut_of hw (by decide) (by rw [Cell.regsOnly_mode hr]) (by rw [Cell.regsOnly_pw hr]) hd
  · exact fun d k t hd => Cell.playedOut_of (d.trigger_writes k t) (by decide) (d.trigger_mode k t) (by rw [d.trigger_pw k t]) hd
  · intro d hd
    obtain ⟨o, w, hr⟩ := d.regate_summarise_rest now
    have hw : Cell.Writes ([K.CFLT_SUM_CLASS, K.CFLT_SUM_SRC] ++ Cell.gateFlds) d (d.regate now).summarise :=
      ((d.regate_writes now).mono (List.subset_append_right _ _)).trans ((Cell.summarise_writes _).mono (List.subset_append_left _ _))
    exact Cell.playedOut_of hw (by decide) (by rw [Cell.regsOnly_mode hr]) (by rw [Cell.regsOnly_pw hr]) hd

/-- The fourth boundary without a record blocks the cell. -/
theorem Cell.playedOut_blocks {now : Nat} (hm : c.mode = Mode.coasting) (hx : 3 ≤ c.pw.ix) (hcls : c.rd (K.CFLT_CLASS_CLASS 3 1) ≤ 4)
    (hb : c.on (K.CFLT_CLASS_BYP 3 1) = false) : (c.playedOut now).PlayedOut ∧ (c.playedOut now).GatesOff ∧
      (c.rd (K.CFLT_CLASS_CLASS 3 1) ≠ 0 → (c.playedOut now).latched 25 = true) := by
  obtain ⟨hp, hg⟩ := c.toBlocked_playedOut now
  have hw := c.toBlocked_writes now
  have hcls' : (c.toBlocked now).rd (K.CFLT_CLASS_CLASS (25 / 8) (25 % 8)) = c.rd (K.CFLT_CLASS_CLASS 3 1) := hw _ (by decide)
  have hb' : (c.toBlocked now).on (K.CFLT_CLASS_BYP (25 / 8) (25 % 8)) = false := (hw.on (by decide)).trans hb
  unfold Cell.playedOut
  rw [if_pos ⟨hm, hx⟩, Cell.cause, if_neg (by decide), ← hcls']
  generalize c.toBlocked now = d at hp hg hcls' hb'
  refine ⟨Cell.latch_playedOut (by decide) (hcls'.trans_le hcls) hb' hp, ?_, fun h => Cell.latched_latch (by decide) h⟩
  by_cases h0 : d.rd (K.CFLT_CLASS_CLASS (25 / 8) (25 % 8)) = 0
  · rw [Cell.latch_eq, if_pos h0]
    exact hg
  · exact Cell.latch_gatesOff h0 ⟨by rw [hp.mode]; decide, by rw [hp.mode]; decide⟩

/-! ### Synchronisation -/

/-- How far an edge of SYNCI lies behind the last carrier start, in nanoseconds, within a carrier period. -/
def Cell.syncPhase (c : Cell) (now : Nat) : Int := ((now : Int) - 5 * c.syncComp - c.pw.carAt) % (5 * c.tCar)

theorem Cell.synci_inside {now : Nat} (hs : c.rd K.PWM_CFG_SYNC_MODE = 2) (h : c.syncPhase now ≤ 5 * c.syncTol) :
    c.synci now = ((Cell.put { c with pw := { c.pw with carAt := ((now : Int) - 5 * c.syncComp).toNat } } K.PWM_STATUS_SYNC_LOST
      false).absent 10, true) := by
  unfold Cell.synci
  rw [hs, if_neg (by decide)]
  refine if_pos ?_
  change (if 2 * c.syncPhase now ≤ 5 * c.tCar then c.syncPhase now else 5 * c.tCar - c.syncPhase now) ≤ 5 * (c.syncTol : Int)
  split <;> omega

theorem Cell.synci_outside {now : Nat} (hs : c.rd K.PWM_CFG_SYNC_MODE = 2) (h : 5 * (c.syncTol : Int) < c.syncPhase now)
    (h' : 5 * (c.syncTol : Int) < 5 * c.tCar - c.syncPhase now) : c.synci now = (c.inc K.PWM_SYNCST_ERR_CNT, false) := by
  unfold Cell.synci
  rw [hs, if_neg (by decide)]
  refine if_neg ?_
  change ¬ (if 2 * c.syncPhase now ≤ 5 * c.tCar then c.syncPhase now else 5 * c.tCar - c.syncPhase now) ≤ 5 * (c.syncTol : Int)
  split <;> omega

theorem exec_synciEdge (id : BitVec 64) (s : State) : exec (.synciEdge id) s =
    .next ((s.setCell id.toNat ((s.cell id.toNat).synci s.now).1).when ((s.cell id.toNat).synci s.now).2 fun s => s.send (.synco id.toNat)) :=
  rfl

theorem exec_cellBoundary (id : BitVec 64) (s : State) : exec (.cellBoundary id) s =
    .next ((s.setCell id.toNat ((s.cell id.toNat).boundary s.now).1).when ((s.cell id.toNat).boundary s.now).2
      fun s => s.send (.synco id.toNat)) := rfl

/-- A boundary that sends no pulse changes its cell only. -/
theorem cellBecomes_boundary {s : State} {id : BitVec 64} {p : Cell → Prop} (hs : (s.cell id.toNat).rd K.PWM_CFG_SYNC_MODE = 0)
    (hp : (s.cell id.toNat).tm.pend = none) (hl : (s.cell id.toNat).tm.layout = false) (h : p ((s.cell id.toNat).boundary s.now).1) :
    CellBecomes (exec (.cellBoundary id) s) s id.toNat p := by
  refine ⟨_, ?_, h⟩
  rw [exec_cellBoundary, Cell.boundary_noPulse s.now hp hl hs, State.when_false]

/-- Settles O22. -/
theorem cellPlaysItsRecord : Obligations.CellPlaysItsRecord := by
  refine ⟨fun s id r hrec hs hm hp hl hr hf hst => ?record, fun s id hrec hs hm hp hl hst => ?coasts, fun s id at' cls rest h => ?part,
    fun s id leg hst hl hk hw => ?crossing, fun s id g hw ho => ?dead, fun s id ho => ?maskOpen, fun s id sign n ho hn hc hm => ?maskMax,
    fun s id hm hx hc hb => ?playedOut, fun s id hs h => ?inside, fun s id hs h h' => ?outside, fun s id hs => ?lost⟩
  case record =>
    obtain ⟨h, he⟩ := Cell.boundary_plays (now := s.now) hrec hm hp hl hr hf hst
    exact cellBecomes_boundary hs hp hl ⟨h.mode, he, h.state, h.demand, h.tb, h.entries⟩
  case coasts => exact cellBecomes_boundary hs hp hl (Cell.boundary_coasts hrec hm hp hl hst)
  case part => exact cellBecomes_onCell (Cell.partEnd_next h)
  case crossing =>
    refine cellBecomes_onCell (Cell.crossing_changes hst (hl.imp_left fun h => ?_) hk hw)
    rw [h]
    rfl
  case dead => exact cellBecomes_onCell (Cell.deadEnd_turnsOn g.isLt hw ho)
  case maskOpen =>
    refine cellBecomes_onCell ?_
    obtain ⟨x, hx⟩ := Option.isSome_iff_exists.1 ho
    unfold Cell.maskOpen
    rw [hx]
    obtain ⟨h1, h2, -⟩ := Cell.regate_mask
      { s.cell id.toNat with pw := { (s.cell id.toNat).pw with openAt := none, opened := some ((s.cell id.toNat).pw.pos, 0) } } s.now
    exact ⟨h1, h2⟩
  case maskMax =>
    refine cellBecomes_onCell ?_
    unfold Cell.maskOpenMax
    rw [ho]
    dsimp only
    rw [if_pos (by simp [hn, hc, hm])]
    obtain ⟨-, h1, h2⟩ := Cell.regate_mask { s.cell id.toNat with pw := { (s.cell id.toNat).pw with opened := none, pos := sign } } s.now
    exact ⟨h1, h2⟩
  case playedOut =>
    obtain ⟨h, hg, hlat⟩ := Cell.playedOut_blocks (now := s.now) hm hx hc hb
    exact cellBecomes_onCell ⟨h.mode, hg, h.entries, h.acc, hlat⟩
  case inside =>
    rw [exec_synciEdge, Cell.synci_inside hs h]
    rfl
  case outside =>
    refine ⟨_, ?_, rfl⟩
    rw [exec_synciEdge, Cell.synci_outside hs h h']
    rfl
  case lost =>
    refine cellBecomes_onCell ?_
    rw [hs, beq_self_eq_true, Cell.when_true]
    have hl : ((s.cell id.toNat).put K.PWM_STATUS_SYNC_LOST true).on K.PWM_STATUS_SYNC_LOST = true := Cell.on_put_same _ _ _ (by decide) rfl
    exact ⟨((Cell.raiseLevel_writes _ s.now 10).on (by decide)).trans hl, Cell.raiseLevel_live _ s.now (by decide)⟩

end Sys2Proof.Machine
end

section
/-! Health of a cell (O53): a LOCKED cell takes no write, so LOADED does not clear its FRESH flag. -/

namespace Sys2Proof.Machine

/-- A LOCKED cell discards every write (R206). -/
theorem Cell.writeReg_locked {c : Cell} (h : c.mode = Mode.locked) (now a v : Nat) : (c.writeReg now a v).1 = c := by
  unfold Cell.writeReg
  split
  · rfl
  · split
    · rfl
    · simp only [if_pos h]

theorem exec_hctlLoaded (id : BitVec 64) (s : State) :
    exec (.hctlLoaded id) s = .next (s.onCell id.toNat fun c => (c.writeReg s.now 0x800C0 2).1) := rfl

/-- What a cell becomes is what the next state holds. -/
theorem cellBecomes_iff {s : State} {id : Nat} {f : Cell → Cell} {p : Cell → Prop} :
    CellBecomes (.next (s.onCell id f)) s id p ↔ p (f (s.cell id)) := by
  refine ⟨fun ⟨c, h, hp⟩ => ?_, cellBecomes_onCell⟩
  have hc : (s.onCell id f).cell id = (s.setCell id c).cell id := congrArg (State.cell · id) (Host.Outcome.next.inj h)
  rw [State.onCell, State.cell_setCell, State.cell_setCell] at hc
  rwa [hc]

/-- A LOCKED cell whose ageing data are fresh. -/
def freshLocked : Cell := ({ Cell.reset with mode := Mode.locked } : Cell).put K.HCTL_FRESH true

theorem freshLocked_mode : freshLocked.mode = Mode.locked := Cell.put_mode _ _ _

theorem freshLocked_fresh : freshLocked.on K.HCTL_FRESH = true := Cell.on_put_same _ _ _ (by decide) rfl

/-- Refutes O53: a LOCKED cell discards the write of LOADED, and FRESH stays set. -/
theorem not_cellHealthCounts : ¬ Obligations.CellHealthCounts := by
  rintro ⟨-, -, -, -, -, -, -, -, -, hloaded, -⟩
  have hcell : (State.reset.setCell 0 freshLocked).cell (0 : BitVec 64).toNat = freshLocked := State.cell_setCell _ _ _
  have h := hloaded (State.reset.setCell 0 freshLocked) 0 (by rw [hcell, freshLocked_mode]; decide)
  rw [exec_hctlLoaded, cellBecomes_iff, hcell, Cell.writeReg_locked freshLocked_mode] at h
  exact absurd (freshLocked_fresh.symm.trans h.1) (by decide)

end Sys2Proof.Machine
end

section
/-! Refutations of O16, O25, O34, O35, O37, O39 and O51. One event of a source acts by the class that the source holds after
it, and a latched class never falls: a source that stands latched with class Trip or Lock makes the unit yield or lock at an
event of base class None. -/

set_option Elab.async false

namespace Sys2Proof.Machine

open Tests

/-- A command completes in a state that passes a test. -/
def Passes (o : Out) (f : State → Bool) : Bool :=
  match o with
  | .next t => f t
  | _ => false

theorem passes_of_reaches {o : Out} {p : State → Prop} {f : State → Bool} (h : Reaches o p) (hp : ∀ t, p t → f t = true) :
    Passes o f = true := by
  obtain ⟨t, rfl, ht⟩ := h
  exact hp t ht

/-- Source `i`, unit-side and now of base class None, stands latched with class `c`. -/
def standing (s : State) (i c : Nat) : State :=
  ((((s.wr (R.FLT_SRC_CFG_BASE i) 0).wr (R.FLT_SRC_CFG_ESC_N i) 0).put (R.FLT_SRC_CFG_SIDE i) true).wr (R.FLT_SRC_ST_LCLASS i) c).putBit
    (R.FLT_STAT_LATCH (i / 32)) (i % 32) true

/-- ENERGISED, the first window still to come, with a bad slot in the period and Lock as the class of bad slots. -/
def badSlotLocks : State :=
  let s := ((inState St.energised).wr (R.FLT_SRC_CFG_BASE 64) 5).put (R.FLT_SRC_CFG_SIDE 64) true
  { s with lvl := { s.lvl with slotBad := true }, ctl := { s.ctl with first := true } }

/-- Refutes O16: the frames are judged before the engine runs, and a bad slot of Lock class takes the unit to LOCKED, where
the engine no longer computes. -/
theorem not_engineWindowRunsTheLaw : ¬ Obligations.EngineWindowRunsTheLaw := by
  rintro ⟨hwindow, -⟩
  have h := hwindow badSlotLocks [] (by decide +kernel) (by decide +kernel)
  have hfirst := passes_of_reaches (f := fun t => !t.ctl.first) h fun t ⟨hf, _⟩ => by simp [hf]
  exact absurd hfirst (by decide +kernel)

/-- ENERGISED with port 0 locked and source 66 latched with Lock class. -/
def lockedPort : State := (standing (inState St.energised) 66 5).put (R.PORT_STATUS_LOCK 0) true

/-- Refutes O25: the event of source 66 that the loss of block lock raises takes the unit to LOCKED. -/
theorem not_linksLockTrainAndLaunch : ¬ Obligations.LinksLockTrainAndLaunch := by
  rintro ⟨-, -, hloss, -⟩
  have h := hloss lockedPort 0 (by decide +kernel) (by decide +kernel) (by decide +kernel)
  have hst := passes_of_reaches (f := fun t => t.st == lockedPort.st) h fun t ⟨_, _, _, _, hst, _⟩ => by simp [hst]
  exact absurd hst (by decide +kernel)

/-- CONFIGURED in the SOLO role with source 74 latched with Trip class. -/
def trippedSolo : State := standing (inState St.configured) 74 4

/-- Refutes O34: a SOLO unit becomes ACTIVE as its link trains, its partner is not yet ready, and the event of source 74,
latched with Trip class, makes it yield at once. -/
theorem not_rolesFollowTheTieLink : ¬ Obligations.RolesFollowTheTieLink := by
  rintro ⟨-, htrained, -⟩
  have h := htrained trippedSolo 0 0x10 0x11 1 0x11 (by decide +kernel) (by decide +kernel) (by decide +kernel) (by decide +kernel)
    (by decide +kernel) (by decide +kernel) (by decide +kernel) (by decide +kernel) (by decide +kernel) (by decide +kernel)
    (by decide +kernel)
  have hrole := passes_of_reaches (f := fun t => t.role == Role.active) h fun t ⟨_, _, hr, _⟩ => by
    rw [hr]
    decide +kernel
  exact absurd hrole (by decide +kernel)

/-- A STANDBY with a trained tie lane and source 76 latched with Trip class. -/
def trippedStandby : State :=
  ((standing (inState St.configured) 76 4).wr R.DEV_STATE_ROLE Role.standby).putBit R.TIE_STATUS_LANES 0 true

/-- Refutes O35: the event of source 76 that a bad message raises is a failed self-diagnosis of the STANDBY. -/
theorem not_tieMessagesActOrAreDiscarded : ¬ Obligations.TieMessagesActOrAreDiscarded := by
  rintro ⟨hbad, -⟩
  have h := hbad trippedStandby 0 [] (by decide +kernel) (by decide +kernel) (by decide +kernel) (by decide +kernel) (by decide +kernel)
  have htie := passes_of_reaches (f := fun t => t.tie.selfBad == trippedStandby.tie.selfBad) h fun t ⟨_, htie, _⟩ => by simp [htie]
  exact absurd htie (by decide +kernel)

/-- A staged change that nothing has committed. -/
def aStaged : Staged := { cmd := 4, epoch := 0, deadline := 0, above := 0, p1 := 0, code := 0, acked := false }

/-- A member past the limit of its staged change, with source 77 latched with Lock class. -/
def overdueMember : State :=
  let s := standing (inState St.configured) 77 5
  { s with acd := { s.acd with staged := some aStaged }, sys := { s.sys with period := 1000000 } }

/-- Refutes O37: the event of source 77 that ends an overdue change takes the unit to LOCKED. -/
theorem not_accordFramesAndModeChanges : ¬ Obligations.AccordFramesAndModeChanges := by
  rintro ⟨-, -, -, -, -, -, -, -, -, -, -, -, -, -, -, -, hrevert, -⟩
  have h := hrevert overdueMember aStaged rfl (by decide +kernel) (by decide +kernel) (by decide +kernel) (by decide +kernel)
    (by decide +kernel) (by decide +kernel)
  have hst := passes_of_reaches (f := fun t => t.st == overdueMember.st) h fun t ⟨_, _, _, hst, _⟩ => by simp [hst]
  exact absurd hst (by decide +kernel)

/-- CONFIGURED with a launch that has not left port 0, and Lock as the class of late launches. -/
def lateLaunchLocks : State :=
  (((inState St.configured).wr (R.FLT_SRC_CFG_BASE 68) 5).put (R.FLT_SRC_CFG_SIDE 68) true).onPort 0 fun x => { x with queue := [(1, 0)] }

/-- Refutes O39: a launch that is dropped at the boundary is an event of source 68, and with Lock class it takes the unit to
LOCKED. -/
theorem not_timeIsKeptAndSteered : ¬ Obligations.TimeIsKeptAndSteered := by
  rintro ⟨hboundary, -⟩
  have h := hboundary lateLaunchLocks ⟨[], []⟩ (by decide +kernel) (by decide +kernel) (by decide +kernel) (by decide +kernel)
    (by decide +kernel) (by decide +kernel) (by decide +kernel) (by decide +kernel) (by decide +kernel)
  have hst := passes_of_reaches (f := fun t => t.st == lateLaunchLocks.st) h fun t ⟨_, _, _, hst, _⟩ => by simp [hst]
  exact absurd hst (by decide +kernel)

/-- A capture record that runs. -/
def runningRecord : RecA :=
  { cause := 16, pTrig := 3, time := 0, pre := 0, trig := 0, last := 5, next := 0, slot := 0, flags := 0, dead := 0, missed := 0,
    early := 0, ae := 0 }

/-- ENERGISED in the committed layout with a capture record that runs, and source 14 latched with Lock class. -/
def capturing : State :=
  let s := ((standing (inState St.energised) 14 5).wr (R.FLT_SRC_CFG_BASE 14) 1).setAqs Aq.post
  { s with sys := { s.sys with committed := true }, acq := { s.acq with rec' := some runningRecord } }

/-- Refutes O51: the event of source 14 takes the unit to LOCKED, and the capture that ends there writes the header of its
record to the memory. -/
theorem not_memoryErrorsPowerAndTests : ¬ Obligations.MemoryErrorsPowerAndTests := by
  rintro ⟨hcorrected, -⟩
  have h := hcorrected capturing 0 0 0 (by decide +kernel) (by decide +kernel) (by decide +kernel)
  have hmem := passes_of_reaches (f := fun t => decide (t.mem = capturing.mem)) h fun t ⟨_, _, _, _, hm⟩ => by simp [hm]
  exact absurd hmem (by decide +kernel)

end Sys2Proof.Machine
end

section
/-! O11: a state command that its gate or its own conditions refuse (R33 to R35). -/

namespace Sys2Proof.Machine

theorem State.configure_of_gate {s : State} (h : s.gateCode [St.safeHold] ≠ 0) :
    (s.configure).1 = s.refuse 1 (s.gateCode [St.safeHold]) := by
  simp [State.configure, h, Cmd.configure]

theorem State.configure_of_code {s : State} (h : s.gateCode [St.safeHold] = 0) (hc : s.configureCode ≠ 0) :
    (s.configure).1 = s.refuse 1 s.configureCode := by
  simp [State.configure, h, hc, Cmd.configure]

theorem State.energise_of_gate {s : State} (h : s.gateCode [St.configured] ≠ 0) :
    (s.energise).1 = s.refuse 2 (s.gateCode [St.configured]) := by
  simp [State.energise, h, Cmd.energise]

theorem State.energise_of_code {s : State} (h : s.gateCode [St.configured] = 0) (hc : (s.energiseCode 0).2 ≠ 0) :
    (s.energise).1 = (s.energiseCode 0).1.refuse 2 (s.energiseCode 0).2 := by
  simp [State.energise, h, hc, Cmd.energise]

theorem State.deblock_of_gate {s : State} (h : s.gateCode [St.energised] ≠ 0) :
    (s.deblock).1 = s.refuse 3 (s.gateCode [St.energised]) := by
  simp [State.deblock, h, Cmd.deblock]

theorem State.deblock_of_code {s : State} (h : s.gateCode [St.energised] = 0) (hc : s.deblockCode ≠ 0) :
    (s.deblock).1 = s.refuse 3 s.deblockCode := by
  simp [State.deblock, h, hc, Cmd.deblock]

theorem State.drydown_of_gate {s : State} (h : s.gateCode [St.deblocked] ≠ 0) :
    (s.drydown).1 = s.refuse 4 (s.gateCode [St.deblocked]) := by
  simp [State.drydown, h, Cmd.drydown]

theorem State.clear_of_gate {s : State} (h : s.gateCode [St.faultBlock] ≠ 0) :
    (s.clear).1 = s.refuse 5 (s.gateCode [St.faultBlock]) := by
  simp [State.clear, h, Cmd.clear]

theorem State.clear_of_code {s : State} (h : s.gateCode [St.faultBlock] = 0) (hc : s.clearCode ≠ 0) :
    (s.clear).1 = s.refuse 5 s.clearCode := by
  simp [State.clear, h, hc, Cmd.clear]

theorem State.deenergise_of_code {s : State} (h : s.gateCode [St.energised, St.faultBlock] = 0) (hc : s.deenergiseCode ≠ 0) :
    (s.deenergise).1 = s.refuse 6 s.deenergiseCode := by
  simp [State.deenergise, h, hc, Cmd.deenergise]

theorem State.restart_of_key {s : State} {key : Nat} (h : s.gateCode [St.safeHold, St.configured, St.faultBlock] = 0)
    (hk : key ≠ 0x5A5A) : (s.restart key).1 = s.refuse 7 0xB := by
  simp [State.restart, h, hk, Cmd.restart]

/-- Settles O11: the gate is asked before the conditions of the command, and the code of either goes to `refuse`. -/
theorem refusedStateCommandsOnlyRecord : Obligations.RefusedStateCommandsOnlyRecord := by
  refine ⟨fun s m h => ?_, fun s m h hc => ?_, fun s m h => ?_, fun s m h hc => ?_, fun s m h => ?_, fun s m h hc => ?_,
    fun s m h => ?_, fun s m h => ?_, fun s m h hc => ?_, fun s m h hc => ?_, fun s m key h hk => ?_⟩
  · rw [← State.configure_of_gate h]; rfl
  · rw [← State.configure_of_code h hc]; rfl
  · rw [← State.energise_of_gate h]; rfl
  · rw [← State.energise_of_code h hc]; rfl
  · rw [← State.deblock_of_gate h]; rfl
  · rw [← State.deblock_of_code h hc]; rfl
  · rw [← State.drydown_of_gate h]; rfl
  · rw [← State.clear_of_gate h]; rfl
  · rw [← State.clear_of_code h hc]; rfl
  · rw [← State.deenergise_of_code h hc]; rfl
  · have hk' : key.toNat ≠ 0x5A5A := fun e => hk (BitVec.eq_of_toNat_eq e)
    rw [← State.restart_of_key h hk']; rfl

end Sys2Proof.Machine
end

section
/-! Registers of the KC8400: the fields that an event of the fault collector may write, by its own latches and by the
reaction of a class (R410 to R420). -/

namespace Sys2Proof.Machine

variable {s t : State} {W : Fld → Bool} {f g : Fld}

/-! ### Fields written -/

/-- Every register field outside `W` reads in `t` as in `s`. -/
def State.Writes (W : Fld → Bool) (s t : State) : Prop := ∀ g, W g = false → t.rd g = s.rd g

/-- A write of field `f` changes fields in `W` alone. -/
def Fld.Within (f : Fld) (W : Fld → Bool) : Prop := f.inWord = true ∧ ∀ g, W g = false → f.apart g = true

/-- The fields that share a bit with a listed field or lie in a chosen word. -/
def near (fs : List Fld) (ws : Nat → Bool) (g : Fld) : Bool := fs.any (fun f => !f.apart g) || ws g.addr

theorem Fld.apart_of_addr (h : g.addr ≠ f.addr) : f.apart g = true := by
  simp [Fld.apart, Ne.symm h]

theorem Fld.within_of_mem {fs : List Fld} {ws : Nat → Bool} (h : f ∈ fs) (hf : f.inWord = true) : f.Within (near fs ws) := by
  refine ⟨hf, fun g hg => ?_⟩
  have hall := (Bool.or_eq_false_iff.1 hg).1
  rw [List.any_eq_false] at hall
  simpa using hall f h

theorem Fld.within_of_word {fs : List Fld} {ws : Nat → Bool} (h : ws f.addr = true) (hf : f.inWord = true) : f.Within (near fs ws) := by
  refine ⟨hf, fun g hg => Fld.apart_of_addr fun ha => ?_⟩
  have hw := (Bool.or_eq_false_iff.1 hg).2
  rw [ha, h] at hw
  cases hw

theorem State.Writes.refl (W : Fld → Bool) (s : State) : State.Writes W s s := fun _ _ => rfl

theorem State.Writes.trans {u : State} (h : State.Writes W s t) (h' : State.Writes W t u) : State.Writes W s u :=
  fun g hg => (h' g hg).trans (h g hg)

theorem State.Writes.mono {V : Fld → Bool} (h : State.Writes V s t) (hV : ∀ g, W g = false → V g = false) : State.Writes W s t :=
  fun g hg => h g (hV g hg)

theorem State.Writes.of_regs (h : t.regs = s.regs) : State.Writes W s t := fun g _ => State.rd_congr t s h g

theorem State.Writes.wr (h : State.Writes W s t) (hf : f.Within W) (v : Nat) : State.Writes W s (t.wr f v) :=
  fun g hg => (State.rd_wr_apart t f g v hf.1 (hf.2 g hg)).trans (h g hg)

theorem State.Writes.put (h : State.Writes W s t) (hf : f.Within W) (b : Bool) : State.Writes W s (t.put f b) := h.wr hf _

theorem State.Writes.inc (h : State.Writes W s t) (hf : f.Within W) (n : Nat) : State.Writes W s (t.inc f n) := h.wr hf _

theorem State.Writes.putBit (h : State.Writes W s t) (hf : f.Within W) (i : Nat) (b : Bool) : State.Writes W s (t.putBit f i b) :=
  h.wr hf _

theorem State.Writes.when {c : Bool} {k : State → State} (h : State.Writes W s t) (hk : ∀ u, State.Writes W u (k u)) :
    State.Writes W s (t.when c k) := by
  cases c
  · exact h
  · exact h.trans (hk t)

theorem State.Writes.on (h : State.Writes W s t) (hg : W g = false) : t.on g = s.on g := by
  rw [State.on, State.on, h g hg]

theorem State.Writes.bit (h : State.Writes W s t) (hg : W g = false) (i : Nat) : t.bit g i = s.bit g i := by
  rw [State.bit, State.bit, h g hg]

/-! ### What a reaction writes -/

/-- The summary and the first-error capture of the collector, but for the Lock latch. -/
def recordFlds : List Fld :=
  [R.FLT_SUMMARY_WORST, R.FLT_SUMMARY_LATCHED, R.FLT_SUMMARY_WORST_SRC, R.FLT_SUMMARY_TRIP_OUT, R.FLT_FIRST_INFO_SRC,
    R.FLT_FIRST_INFO_VALID, R.FLT_FIRST_INFO_ACCESS, R.FLT_FIRST_INFO_MASTER, R.FLT_FIRST_INFO_CLASS, R.FLT_FIRST_INFO_ESC,
    R.FLT_FIRST_INFO_TIED, R.FLT_FIRST_INFO_FOLLOW, R.FLT_FIRST_ADDR_LO_ADDR, R.FLT_FIRST_ADDR_HI_ADDR]

/-- What a unit that yields or fails its self-diagnosis writes of its role, of the tie link and of the capture. -/
def yieldFlds : List Fld :=
  [R.DEV_STATE_ROLE, R.TIE_STATUS_YIELD_OUT, R.TIE_STATUS_READY, R.ACQ_STATUS_STATE, R.ACQ_STATUS_OVERRUN, R.ACQ_STATUS_TRUNC,
    R.ACQ_STATUS_SLOT, R.ACQ_REC_SEQ_SEQ, R.ACQ_TRIG_LO_P_LO, R.ACQ_TRIG_HI_P_HI, R.ACQ_CNT_B_RECORDS]

/-- What a reaction in RESET and SELF-TEST may write. -/
def stillFlds : List Fld := R.FLT_SUMMARY_LOCK_LATCH :: yieldFlds ++ recordFlds

/-- What a reaction to a class may write beside the words of the source. -/
def reactionFlds : List Fld :=
  [R.DEV_STATE_STATE, R.DEV_STATE_PREV, R.DEV_STATE_BUSY, R.DEV_STATE_DRY_ACTIVE, R.STATE_CAUSE_CAUSE, R.STATE_CAUSE_REFUSE,
    R.STATE_CAUSE_REFUSED_CMD, R.TRANS_PERIOD_PERIOD, R.DRY_STATUS_PHASE] ++ stillFlds

/-- The words of the collector that hold a bit or a status per source. -/
def sourceWord (a : Nat) : Bool :=
  (decide (0x40800000 ≤ a) && decide (a < 0x40800030)) || (decide (0x40800408 ≤ a) && decide (a < 0x40800C08) && a % 16 == 8)

theorem sourceWord_iff {a : Nat} : sourceWord a = true ↔
    (0x40800000 ≤ a ∧ a < 0x40800030) ∨ (0x40800408 ≤ a ∧ a < 0x40800C08 ∧ a % 16 = 8) := by
  simp only [sourceWord, Bool.or_eq_true, Bool.and_eq_true, decide_eq_true_eq, beq_iff_eq, and_assoc]

/-- The fields that an event writes in the words of its source. -/
def bySource : Fld → Bool := near [] sourceWord

/-- The fields that an event and the reaction to it may write. -/
def byEvent : Fld → Bool := near reactionFlds sourceWord

theorem reactionFlds_inWord : ∀ f ∈ reactionFlds, f.inWord = true := by decide

/-- The fields that the reaction to a class and the record of the event may write. -/
def byReaction : Fld → Bool := near reactionFlds fun _ => false

theorem within_byReaction (h : f ∈ reactionFlds) : f.Within byReaction := Fld.within_of_mem h (reactionFlds_inWord f h)

theorem bySource_of_byEvent (h : byEvent g = false) : bySource g = false := (Bool.or_eq_false_iff.1 h).2

theorem near_of_subset {fs gs : List Fld} {ws : Nat → Bool} (h : fs ⊆ gs) (hg : near gs ws g = false) : near fs ws g = false := by
  obtain ⟨hf, hw⟩ := Bool.or_eq_false_iff.1 hg
  exact Bool.or_eq_false_iff.2 ⟨List.any_eq_false.2 fun f hm => List.any_eq_false.1 hf f (h hm), hw⟩

/-- The fields that the first-error capture and the summary write. -/
def byRecord : Fld → Bool := near recordFlds fun _ => false

/-- The fields that a yield writes. -/
def byYield : Fld → Bool := near yieldFlds fun _ => false

/-- The fields that a reaction in RESET and SELF-TEST may write. -/
def byStill : Fld → Bool := near stillFlds fun _ => false

theorem recordFlds_still : recordFlds ⊆ stillFlds := List.subset_append_right _ _

theorem yieldFlds_still : yieldFlds ⊆ stillFlds := fun _ h => List.mem_cons_of_mem _ (List.mem_append_left _ h)

theorem stillFlds_reaction : stillFlds ⊆ reactionFlds := List.subset_append_right _ _

theorem within_byRecord (h : f ∈ recordFlds) : f.Within byRecord :=
  Fld.within_of_mem h (reactionFlds_inWord f (stillFlds_reaction (recordFlds_still h)))

theorem within_byYield (h : f ∈ yieldFlds) : f.Within byYield :=
  Fld.within_of_mem h (reactionFlds_inWord f (stillFlds_reaction (yieldFlds_still h)))

theorem within_byStill (h : f ∈ stillFlds) : f.Within byStill := Fld.within_of_mem h (reactionFlds_inWord f (stillFlds_reaction h))

theorem byRecord_of_byStill (h : byStill g = false) : byRecord g = false := near_of_subset recordFlds_still h

theorem byYield_of_byStill (h : byStill g = false) : byYield g = false := near_of_subset yieldFlds_still h

theorem byStill_of_byReaction (h : byReaction g = false) : byStill g = false := near_of_subset stillFlds_reaction h

theorem byRecord_of_byReaction (h : byReaction g = false) : byRecord g = false := byRecord_of_byStill (byStill_of_byReaction h)

theorem byReaction_of_byEvent (h : byEvent g = false) : byReaction g = false :=
  Bool.or_eq_false_iff.2 ⟨(Bool.or_eq_false_iff.1 h).1, rfl⟩

theorem lclass_within {i : Nat} (h : i < 128) : (R.FLT_SRC_ST_LCLASS i).Within bySource :=
  Fld.within_of_word (sourceWord_iff.2 (by dsimp only [R.FLT_SRC_ST_LCLASS]; omega)) rfl

theorem evtCnt_within {i : Nat} (h : i < 128) : (R.FLT_SRC_ST_EVT_CNT i).Within bySource :=
  Fld.within_of_word (sourceWord_iff.2 (by dsimp only [R.FLT_SRC_ST_EVT_CNT]; omega)) rfl

theorem esc_within {i : Nat} (h : i < 128) : (R.FLT_SRC_ST_ESC i).Within bySource :=
  Fld.within_of_word (sourceWord_iff.2 (by dsimp only [R.FLT_SRC_ST_ESC]; omega)) rfl

theorem latch_within {k : Nat} (h : k < 4) : (R.FLT_STAT_LATCH k).Within bySource :=
  Fld.within_of_word (sourceWord_iff.2 (by dsimp only [R.FLT_STAT_LATCH]; omega)) rfl

theorem live_within {k : Nat} (h : k < 4) : (R.FLT_LIVE_LIVE k).Within bySource :=
  Fld.within_of_word (sourceWord_iff.2 (by dsimp only [R.FLT_LIVE_LIVE]; omega)) rfl

theorem escBit_within {k : Nat} (h : k < 4) : (R.FLT_ESC_ESC k).Within bySource :=
  Fld.within_of_word (sourceWord_iff.2 (by dsimp only [R.FLT_ESC_ESC]; omega)) rfl

/-! ### The functions that react -/

/-- What a reaction that writes fields in `W` may change of the registers and of the state machine. -/
structure State.ReactsIn (W : Fld → Bool) (s t : State) : Prop where
  writes : State.Writes W s t
  sys : ∃ p q r c u, t.sys = { s.sys with pend := p, prep := q, restore := r, committed := c, quiet := u }

theorem State.ReactsIn.of_eq (hr : t.regs = s.regs) (hs : t.sys = s.sys) : State.ReactsIn W s t :=
  ⟨.of_regs hr, _, _, _, _, _, hs⟩

theorem State.ReactsIn.refl (s : State) : State.ReactsIn W s s := .of_eq rfl rfl

theorem State.ReactsIn.trans {u : State} (h : State.ReactsIn W s t) (h' : State.ReactsIn W t u) : State.ReactsIn W s u := by
  obtain ⟨hw, _, _, _, _, _, hs⟩ := h
  obtain ⟨hw', p, q, r, c, v, hs'⟩ := h'
  exact ⟨hw.trans hw', p, q, r, c, v, by rw [hs', hs]⟩

theorem State.ReactsIn.wr (h : State.ReactsIn W s t) (hf : f.Within W) (v : Nat) : State.ReactsIn W s (t.wr f v) :=
  ⟨h.writes.wr hf v, h.sys⟩

theorem State.ReactsIn.put (h : State.ReactsIn W s t) (hf : f.Within W) (b : Bool) : State.ReactsIn W s (t.put f b) := h.wr hf _

theorem State.ReactsIn.inc (h : State.ReactsIn W s t) (hf : f.Within W) (n : Nat) : State.ReactsIn W s (t.inc f n) := h.wr hf _

theorem State.ReactsIn.putBit (h : State.ReactsIn W s t) (hf : f.Within W) (i : Nat) (b : Bool) :
    State.ReactsIn W s (t.putBit f i b) := h.wr hf _

theorem State.ReactsIn.when {c : Bool} {k : State → State} (h : State.ReactsIn W s t) (hk : ∀ u, State.ReactsIn W u (k u)) :
    State.ReactsIn W s (t.when c k) := by
  cases c
  · exact h
  · exact h.trans (hk t)

theorem State.ReactsIn.forL {α : Type} {l : List α} {k : α → State → State} (h : State.ReactsIn W s t)
    (hk : ∀ a ∈ l, ∀ u, State.ReactsIn W u (k a u)) : State.ReactsIn W s (t.forL l k) :=
  State.forL_keeps (State.ReactsIn W s) l k (fun a ha u hu => hu.trans (hk a ha u)) t h

theorem State.ReactsIn.withFlt (h : State.ReactsIn W s t) (x : Flt) : State.ReactsIn W s { t with flt := x } := ⟨h.writes, h.sys⟩

theorem State.ReactsIn.withTie (h : State.ReactsIn W s t) (x : Tie) : State.ReactsIn W s { t with tie := x } := ⟨h.writes, h.sys⟩

theorem State.ReactsIn.withAcq (h : State.ReactsIn W s t) (x : Acq) : State.ReactsIn W s { t with acq := x } := ⟨h.writes, h.sys⟩

theorem State.ReactsIn.withSys (h : State.ReactsIn W s t) (p : Option Pend) (q : Option Prep) (r c u : Bool) :
    State.ReactsIn W s { t with sys := { t.sys with pend := p, prep := q, restore := r, committed := c, quiet := u } } := by
  obtain ⟨hw, _, _, _, _, _, hs⟩ := h
  exact ⟨hw, p, q, r, c, u, by rw [hs]⟩

theorem State.ReactsIn.mono {V : Fld → Bool} (h : State.ReactsIn V s t) (hV : ∀ g, W g = false → V g = false) :
    State.ReactsIn W s t := ⟨h.writes.mono hV, h.sys⟩

/-- What an event and the reaction to it may change. -/
abbrev State.Reacts (s t : State) : Prop := State.ReactsIn byEvent s t

theorem State.ReactsIn.ofReaction (h : State.ReactsIn byReaction s t) : State.Reacts s t := h.mono fun _ => byReaction_of_byEvent

theorem State.ReactsIn.ofYield (h : State.ReactsIn byYield s t) : State.ReactsIn byStill s t := h.mono fun _ => byYield_of_byStill

theorem State.ReactsIn.ofStill (h : State.ReactsIn byStill s t) : State.ReactsIn byReaction s t := h.mono fun _ => byStill_of_byReaction

theorem State.ReactsIn.ofRecord (h : State.ReactsIn byRecord s t) : State.ReactsIn byReaction s t := h.mono fun _ => byRecord_of_byReaction

theorem State.ReactsIn.ofSource (h : State.ReactsIn bySource s t) : State.Reacts s t := h.mono fun _ => bySource_of_byEvent

theorem State.send_reacts (s : State) (e : Emission) : State.ReactsIn W s (s.send e) := .of_eq rfl rfl

theorem State.sendBlockSets_reacts (s : State) : State.ReactsIn W s s.sendBlockSets :=
  (State.ReactsIn.refl s).forL fun _ _ _ => .of_eq rfl rfl

theorem State.sendTie_reacts (s : State) (a b : Nat) (c : List Byte) : State.ReactsIn W s (s.sendTie a b c) := by
  unfold State.sendTie
  split
  · exact State.send_reacts _ _
  · exact .refl _

theorem State.storeBytes_reacts (s : State) (a : Nat) (b : List Byte) : State.ReactsIn W s (s.storeBytes a b) :=
  have hk : Keeps [.mem] s (s.storeBytes a b) := keeps_storeBytes s a b (by decide) (.refl _ _)
  .of_eq (hk.1.2 .regs (by decide)) (hk.1.2 .sys (by decide))

theorem State.goto_reacts (s : State) (dst cause per : Nat) : State.ReactsIn byReaction s (s.goto dst cause per) :=
  (((((State.ReactsIn.refl s).when State.sendBlockSets_reacts).wr (within_byReaction (by decide)) _).wr (within_byReaction (by decide)) _).wr
    (within_byReaction (by decide)) _).wr (within_byReaction (by decide)) _

theorem State.endDry_reacts (s : State) : State.ReactsIn byReaction s s.endDry := by
  unfold State.endDry
  split
  · exact (((State.ReactsIn.refl s).put (within_byReaction (by decide)) _).put (within_byReaction (by decide)) _).wr
      (within_byReaction (by decide)) _
  · exact .refl s

theorem State.refuse_reacts (s : State) (cmd code : Nat) : State.ReactsIn byReaction s (s.refuse cmd code) :=
  ((State.ReactsIn.refl s).wr (within_byReaction (by decide)) _).wr (within_byReaction (by decide)) _

theorem State.dropPending_reacts (s : State) (code : Nat) : State.ReactsIn byReaction s (s.dropPending code) := by
  unfold State.dropPending
  split
  · exact .refl s
  next p _ =>
    have h := (State.refuse_reacts s p.cmd code).put (f := R.DEV_STATE_BUSY) (within_byReaction (by decide)) false
    exact h.withSys _ _ _ _ _

theorem State.faultBlock_reacts (s : State) (cause : Nat) : State.ReactsIn byReaction s (s.faultBlock cause) := by
  unfold State.faultBlock
  split
  · exact ((State.dropPending_reacts s 7).trans (State.endDry_reacts _)).trans (State.goto_reacts _ _ _ _)
  · exact .refl s

theorem State.finishRecord_reacts (s : State) (r : RecA) (flags : Nat) : State.ReactsIn byYield s (s.finishRecord r flags) := by
  unfold State.finishRecord
  extract_lets rb d a have' rows s₁ s₂ seq head s₃ s₄ s₅ s₆
  have h₃ : State.ReactsIn byYield s s₃ := ((State.storeBytes_reacts s _ _).trans (State.storeBytes_reacts _ _ _)).trans
    (State.storeBytes_reacts _ _ _)
  have h₄ : State.ReactsIn byYield s s₄ := (((h₃.wr (within_byYield (by decide)) _).wr (within_byYield (by decide)) _).wr
    (within_byYield (by decide)) _).inc (within_byYield (by decide)) _
  have h₅ : State.ReactsIn byYield s s₅ := (h₄.wr (within_byYield (by decide)) _).when fun u =>
    (State.ReactsIn.refl u).put (within_byYield (by decide)) _
  have h₆ : State.ReactsIn byYield s s₆ := h₅.when fun u => (State.ReactsIn.refl u).put (within_byYield (by decide)) _
  exact h₆.withAcq _

theorem State.acqStop_reacts (s : State) : State.ReactsIn byYield s s.acqStop := by
  unfold State.acqStop
  split
  · exact .refl s
  · split
    · exact (State.ReactsIn.refl s).withAcq _
    · extract_lets s₁ t₁
      have h₁ : State.ReactsIn byYield s s₁ := by
        unfold s₁
        split
        · exact State.finishRecord_reacts _ _ _
        · exact .refl s
      exact (h₁.wr (f := R.ACQ_STATUS_STATE) (within_byYield (by decide)) Aq.idle).withAcq _

theorem State.yield_reacts (s : State) : State.ReactsIn byYield s s.yield := by
  unfold State.yield
  extract_lets notReady tie s₁ s₂
  have h₁ : State.ReactsIn byYield s s₁ := (State.ReactsIn.refl s).withTie _
  have h₂ : State.ReactsIn byYield s s₂ := (h₁.put (within_byYield (by decide)) _).when fun u =>
    (State.ReactsIn.refl u).wr (within_byYield (by decide)) _
  exact ((h₂.trans (State.sendTie_reacts _ _ _ _)).put (within_byYield (by decide)) _).trans (State.acqStop_reacts _)

theorem State.lock_reacts (s : State) : State.ReactsIn byReaction s s.lock := by
  unfold State.lock
  extract_lets s₁ active s₂ s₃ sys s₄
  have h₁ : State.ReactsIn byReaction s s₁ := (State.ReactsIn.refl s).put (within_byReaction (by decide)) _
  split
  · exact h₁
  · have h₂ : State.ReactsIn byReaction s s₂ := ((h₁.trans (State.dropPending_reacts _ _)).trans (State.endDry_reacts _)).when fun u => (State.acqStop_reacts u).ofYield.ofStill
    have h₃ : State.ReactsIn byReaction s s₃ := h₂.trans (State.goto_reacts _ _ _ _)
    have h₄ : State.ReactsIn byReaction s s₄ := h₃.withSys _ _ _ _ _
    exact (h₄.when fun u => (State.yield_reacts u).ofYield.ofStill).put (within_byReaction (by decide)) _

theorem State.selfDiagnosisFails_reacts (s : State) : State.ReactsIn byYield s s.selfDiagnosisFails := by
  unfold State.selfDiagnosisFails
  extract_lets tie s₁
  have h₁ : State.ReactsIn byYield s s₁ := (State.ReactsIn.refl s).withTie _
  exact (h₁.put (within_byYield (by decide)) _).put (within_byYield (by decide)) _

theorem State.react_reacts (s : State) (unit : Bool) (cls : Nat) : State.ReactsIn byReaction s (s.react unit cls) := by
  unfold State.react
  split
  · exact (State.ReactsIn.refl s).when fun u => State.faultBlock_reacts u _
  · exact (State.ReactsIn.refl s).when fun u => State.faultBlock_reacts u _
  · exact (State.ReactsIn.refl s).when State.lock_reacts
  · split
    · exact State.faultBlock_reacts s _
    · exact (State.ReactsIn.refl s).put (within_byReaction (by decide)) _
  · split
    · exact State.faultBlock_reacts s _
    · split
      · exact (State.yield_reacts s).ofYield.ofStill.trans (State.faultBlock_reacts _ _)
      · exact (State.selfDiagnosisFails_reacts s).ofYield.ofStill
  · exact State.lock_reacts s
  · exact .refl s

/-! In RESET and SELF-TEST no class changes the state. -/

theorem State.faultBlock_still (h : s.st = St.reset ∨ s.st = St.selfTest) (cause : Nat) : s.faultBlock cause = s := by
  unfold State.faultBlock
  rcases h with h | h
  · rw [h]
    rfl
  · rw [h]
    rfl

theorem State.lock_still (h : s.st = St.reset ∨ s.st = St.selfTest) : s.lock = s.put R.FLT_SUMMARY_LOCK_LATCH true := by
  have hst : (s.put R.FLT_SUMMARY_LOCK_LATCH true).st = s.st := State.rd_put_apart _ _ _ _ (by decide) (by decide)
  unfold State.lock
  rw [if_pos]
  rw [hst]
  rcases h with h | h
  · rw [h]
    rfl
  · rw [h]
    rfl

theorem State.react_still (h : s.st = St.reset ∨ s.st = St.selfTest) (unit : Bool) (cls : Nat) :
    State.ReactsIn byStill s (s.react unit cls) := by
  have hf : ∀ c, State.ReactsIn byStill s (s.faultBlock c) := fun c => by
    rw [State.faultBlock_still h]
    exact .refl s
  have hl : State.ReactsIn byStill s s.lock := by
    rw [State.lock_still h]
    exact (State.ReactsIn.refl s).put (within_byStill (by decide)) _
  have hy : State.ReactsIn byStill s s.yield := (State.yield_reacts s).ofYield
  have hys : s.yield.st = s.st := (State.yield_reacts s).writes _ (by decide)
  unfold State.react
  split
  · exact State.when_keeps (State.ReactsIn byStill s) _ _ _ (.refl s) (hf _)
  · exact State.when_keeps (State.ReactsIn byStill s) _ _ _ (.refl s) (hf _)
  · exact State.when_keeps (State.ReactsIn byStill s) _ _ _ (.refl s) hl
  · split
    · exact hf _
    · exact (State.ReactsIn.refl s).put (within_byStill (by decide)) _
  · split
    · exact hf _
    · split
      · rw [State.faultBlock_still (by rw [hys]; exact h)]
        exact hy
      · exact (State.selfDiagnosisFails_reacts s).ofYield
  · exact hl
  · exact .refl s

theorem State.summarise_reacts (s : State) : State.ReactsIn byRecord s s.summarise :=
  ((((State.ReactsIn.refl s).wr (within_byRecord (by decide)) _).wr (within_byRecord (by decide)) _).wr (within_byRecord (by decide)) _).put
    (within_byRecord (by decide)) _

theorem State.fltEvent_reacts (s : State) {i : Nat} (hi : i < 128) : State.ReactsIn bySource s (s.fltEvent i) := by
  have hw : i / 32 < 4 := by omega
  unfold State.fltEvent
  extract_lets base
  split
  next h esc _ =>
    extract_lets cls s₁ flt s₂ s₃
    have h₁ : State.ReactsIn bySource s s₁ := ((State.ReactsIn.refl s).inc (evtCnt_within hi) _).withFlt _
    have h₂ : State.ReactsIn bySource s s₂ := h₁.withFlt _
    split
    · exact h₂
    · have h₃ : State.ReactsIn bySource s s₃ := (h₂.putBit (latch_within hw) _ _).wr (lclass_within hi) _
      exact h₃.when fun u => ((State.ReactsIn.refl u).put (esc_within hi) _).putBit (escBit_within hw) _ _

theorem State.capture_reacts (s : State) (new : List Raise) : State.ReactsIn byRecord s (s.capture new) := by
  unfold State.capture
  split
  · exact .refl s
  · split
    · extract_lets r i s₁ s₂
      have h₁ : State.ReactsIn byRecord s s₁ := (((((((State.ReactsIn.refl s).wr (within_byRecord (by decide)) _).put (within_byRecord (by decide)) _).wr
        (within_byRecord (by decide)) _).wr (within_byRecord (by decide)) _).wr (within_byRecord (by decide)) _).put
        (within_byRecord (by decide)) _).put (within_byRecord (by decide)) _
      have h₂ : State.ReactsIn byRecord s s₂ := ((h₁.wr (within_byRecord (by decide)) _).wr (within_byRecord (by decide)) _).wr
        (within_byRecord (by decide)) _
      exact h₂.withFlt _
    · exact (State.ReactsIn.refl s).when fun u => (State.ReactsIn.refl u).inc (within_byRecord (by decide)) _

/-- The events of one cycle latch their sources (R412 to R414). -/
def State.latchAll (s : State) (rs : List Raise) : State :=
  s.forL rs fun r s => (s.when (s.levelSource r.src.val) fun s =>
    s.putBit (R.FLT_LIVE_LIVE (r.src.val / 32)) (r.src.val % 32) true).fltEvent r.src.val

/-- What follows once the sources of a cycle are latched (R415, R416, R420). -/
def State.reactAll (s : State) (new rs : List Raise) : State :=
  let s := s.capture new
  let u := s.worstOf true rs
  let p := s.worstOf false rs
  (if p ≤ u then (s.react true u).react false p else (s.react false p).react true u).summarise

/-- The events of a list from sources that are not reserved. -/
def raisable (rs : List Raise) : List Raise := rs.filter fun r => !reservedSource r.src.val

theorem State.raiseAll_eq (s : State) (rs : List Raise) :
    s.raiseAll rs = (s.latchAll (raisable rs)).reactAll
      (((raisable rs).filter fun r => !s.latched r.src.val).filter fun r => (s.latchAll (raisable rs)).latched r.src.val) (raisable rs) := rfl

theorem State.latchAll_reacts (s : State) (rs : List Raise) : State.ReactsIn bySource s (s.latchAll rs) :=
  (State.ReactsIn.refl s).forL fun r _ v =>
    ((State.ReactsIn.refl v).when fun w => (State.ReactsIn.refl w).putBit (live_within (by omega)) _ _).trans
      (State.fltEvent_reacts _ r.src.isLt)

theorem State.reactAll_reacts (s : State) (new rs : List Raise) : State.ReactsIn byReaction s (s.reactAll new rs) := by
  unfold State.reactAll
  extract_lets s₁ u p
  have h₁ : State.ReactsIn byReaction s s₁ := (State.capture_reacts s new).ofRecord
  refine State.ReactsIn.trans ?_ (State.summarise_reacts _).ofRecord
  split
  · exact (h₁.trans (State.react_reacts _ _ _)).trans (State.react_reacts _ _ _)
  · exact (h₁.trans (State.react_reacts _ _ _)).trans (State.react_reacts _ _ _)

theorem State.raiseAll_reacts (s : State) (rs : List Raise) : State.Reacts s (s.raiseAll rs) := by
  rw [State.raiseAll_eq]
  exact (State.latchAll_reacts s _).ofSource.trans (State.reactAll_reacts _ _ _).ofReaction

theorem State.raise_reacts (s : State) (i : Nat) : State.Reacts s (s.raise i) := State.raiseAll_reacts s _

theorem State.raiseAt_reacts (s : State) (i a m d : Nat) : State.Reacts s (s.raiseAt i a m d) := State.raiseAll_reacts s _

theorem State.causeAbsent_reacts (s : State) {i : Nat} (hi : i < 128) : State.Reacts s (s.causeAbsent i) :=
  ((State.ReactsIn.refl s).putBit (live_within (by omega)) _ _).ofSource

theorem State.causePresent_reacts (s : State) (i : Nat) : State.Reacts s (s.causePresent i) := by
  unfold State.causePresent
  split
  · exact .refl s
  · exact State.raise_reacts s i

theorem State.causeIs_reacts (s : State) {i : Nat} (hi : i < 128) (b : Bool) : State.Reacts s (s.causeIs i b) := by
  unfold State.causeIs
  split
  · exact State.causePresent_reacts s i
  · exact State.causeAbsent_reacts s hi

theorem State.causesAre_reacts (s : State) (l : List (Nat × Bool)) (hl : ∀ e ∈ l, e.1 < 128) : State.Reacts s (s.causesAre l) := by
  unfold State.causesAre
  extract_lets gone new
  have hg : State.Reacts s gone := (State.ReactsIn.refl s).forL fun e he u => State.causeAbsent_reacts u (hl e (List.mem_filter.1 he).1)
  split
  · exact hg
  · exact hg.trans (State.raiseAll_reacts _ _)

/-! In RESET and SELF-TEST an event is recorded and the unit may yield, and no more. -/

/-- What an event in RESET and SELF-TEST may write. -/
def byStillEvent : Fld → Bool := near stillFlds sourceWord

theorem bySource_of_byStillEvent (h : byStillEvent g = false) : bySource g = false := (Bool.or_eq_false_iff.1 h).2

theorem byStill_of_byStillEvent (h : byStillEvent g = false) : byStill g = false :=
  Bool.or_eq_false_iff.2 ⟨(Bool.or_eq_false_iff.1 h).1, rfl⟩

theorem State.ReactsIn.st_still (h : State.ReactsIn byStill s t) (hs : s.st = St.reset ∨ s.st = St.selfTest) :
    t.st = St.reset ∨ t.st = St.selfTest := by
  rwa [State.st, h.writes _ (by decide)]

theorem State.reactAll_still (h : s.st = St.reset ∨ s.st = St.selfTest) (new rs : List Raise) :
    State.ReactsIn byStill s (s.reactAll new rs) := by
  have ofRec : ∀ {u v : State}, State.ReactsIn byRecord u v → State.ReactsIn byStill u v := fun h => h.mono fun _ => byRecord_of_byStill
  unfold State.reactAll
  extract_lets s₁ u p
  have h₁ : State.ReactsIn byStill s s₁ := ofRec (State.capture_reacts s new)
  have hs₁ := h₁.st_still h
  refine State.ReactsIn.trans ?_ (ofRec (State.summarise_reacts _))
  split
  · have h₂ := State.react_still hs₁ true u
    exact (h₁.trans h₂).trans (State.react_still (h₂.st_still hs₁) _ _)
  · have h₂ := State.react_still hs₁ false p
    exact (h₁.trans h₂).trans (State.react_still (h₂.st_still hs₁) _ _)

theorem State.raiseAll_still (h : s.st = St.reset ∨ s.st = St.selfTest) (rs : List Raise) :
    State.ReactsIn byStillEvent s (s.raiseAll rs) := by
  have hl := State.latchAll_reacts s (raisable rs)
  have hst : (s.latchAll (raisable rs)).st = St.reset ∨ (s.latchAll (raisable rs)).st = St.selfTest := by
    rwa [State.st, hl.writes _ (by decide)]
  rw [State.raiseAll_eq]
  exact (hl.mono fun _ => bySource_of_byStillEvent).trans ((State.reactAll_still hst _ _).mono fun _ => byStill_of_byStillEvent)

theorem State.causePresent_still (h : s.st = St.reset ∨ s.st = St.selfTest) (i : Nat) :
    State.ReactsIn byStillEvent s (s.causePresent i) := by
  unfold State.causePresent
  split
  · exact .refl s
  · exact State.raiseAll_still h _

theorem State.ReactsIn.st_stillEvent (h : State.ReactsIn byStillEvent s t) (hs : s.st = St.reset ∨ s.st = St.selfTest) :
    t.st = St.reset ∨ t.st = St.selfTest := by
  rwa [State.st, h.writes _ (by decide)]

theorem State.causeAbsent_still (s : State) {i : Nat} (hi : i < 128) : State.ReactsIn byStillEvent s (s.causeAbsent i) :=
  ((State.ReactsIn.refl s).putBit (live_within (by omega)) _ _).mono fun _ => bySource_of_byStillEvent

theorem State.causesAre_still (h : s.st = St.reset ∨ s.st = St.selfTest) {l : List (Nat × Bool)} (hl : ∀ e ∈ l, e.1 < 128) :
    State.ReactsIn byStillEvent s (s.causesAre l) := by
  unfold State.causesAre
  extract_lets gone new
  have hg : State.ReactsIn byStillEvent s gone := (State.ReactsIn.refl s).forL fun e he u =>
    State.causeAbsent_still u (hl e (List.mem_filter.1 he).1)
  split
  · exact hg
  · exact hg.trans (State.raiseAll_still (hg.st_stillEvent h) _)

/-! ### What a reaction leaves -/

theorem byEvent_of_addr (h : 0x41000000 ≤ g.addr) (h' : g.addr < 0x41100000) : byEvent g = false := by
  have hw : sourceWord g.addr = false := Bool.eq_false_iff.2 fun hw => by
    rcases sourceWord_iff.1 hw with ⟨_, _⟩ | ⟨_, _, _⟩ <;> omega
  refine Bool.or_eq_false_iff.2 ⟨List.any_eq_false.2 fun f hf => ?_, hw⟩
  have hf' : f.addr < 0x41000000 ∨ 0x41100000 ≤ f.addr := (by decide : ∀ f ∈ reactionFlds, f.addr < 0x41000000 ∨ 0x41100000 ≤ f.addr) f hf
  simp [Fld.apart_of_addr (f := f) (g := g) (by omega)]

end Sys2Proof.Machine
end

section
/-! The safety island: what bringing its functions and outputs up to date writes and leaves, and that it ends on the safe
side (R384 to R392). -/

namespace Sys2Proof.Machine

variable {s t : State} {g : Fld}

/-! ### Fields written -/

/-- What the island shows of its functions and outputs. -/
def shownFlds : List Fld :=
  [R.SAFE_DEMAND_SI, R.SAFE_LATCH_SI, R.SAFE_DEMAND_CONN, R.SAFE_DEMAND_MATE, R.SAFE_LATCH_MATE, R.SAFE_DEMAND_SO0, R.SAFE_LATCH_SO0,
    R.SAFE_DEMAND_SO1, R.SAFE_LATCH_SO1, R.SAFE_DEMAND_BT_FAIL, R.SAFE_DEMAND_NO_PARAM, R.SAFE_LATCH_NO_PARAM, R.SAFE_DEMAND_START]

/-- The switches of one output. -/
def switchFlds (n : Nat) : List Fld := [R.SO_STATUS_ENERGISED n, R.SO_STATUS_HS_DRV n, R.SO_STATUS_LS_DRV n]

/-- What follows the functions: the sources shown, the outputs, and the two lines to the state machine. -/
def islandFlds : List Fld :=
  shownFlds ++ [R.SAFE_STATE_SB, R.SAFE_STATE_ST, R.SAFE_STATE_SBC, R.SAFE_STATE_BRK_OPEN, R.SAFE_STATE_TRIP_ON] ++ switchFlds 0 ++
    switchFlds 1 ++ [R.DEV_STATE_SAFE_BLOCK]

/-- The fields that the functions, the outputs and the two lines write. -/
def byLines : Fld → Bool := near islandFlds fun _ => false

/-- The fields that bringing the island up to date may write. -/
def byIsland : Fld → Bool := near (islandFlds ++ reactionFlds) sourceWord

theorem within_byIsland {f : Fld} (h : f ∈ islandFlds) : f.Within byIsland :=
  Fld.within_of_mem (List.mem_append_left _ h) ((by decide : ∀ f ∈ islandFlds, f.inWord = true) f h)

theorem within_byLines {f : Fld} (h : f ∈ islandFlds) : f.Within byLines :=
  Fld.within_of_mem h ((by decide : ∀ f ∈ islandFlds, f.inWord = true) f h)

theorem byLines_of_byIsland (h : byIsland g = false) : byLines g = false := by
  obtain ⟨hf, -⟩ := Bool.or_eq_false_iff.1 h
  rw [List.any_append] at hf
  exact Bool.or_eq_false_iff.2 ⟨(Bool.or_eq_false_iff.1 hf).1, rfl⟩

theorem byEvent_of_byIsland (h : byIsland g = false) : byEvent g = false := by
  obtain ⟨hf, hw⟩ := Bool.or_eq_false_iff.1 h
  rw [List.any_append] at hf
  exact Bool.or_eq_false_iff.2 ⟨(Bool.or_eq_false_iff.1 hf).2, hw⟩

/-- The island's words apart from the states, demands and latches and the two outputs are left. -/
theorem byIsland_of_addr (h : 0x4100000C ≤ g.addr) (h' : g.addr < 0x41100000) (h0 : g.addr ≠ 0x41000208) (h1 : g.addr ≠ 0x41000228) :
    byIsland g = false := by
  have he := byEvent_of_addr (g := g) (by omega) h'
  obtain ⟨hf, hw⟩ := Bool.or_eq_false_iff.1 he
  refine Bool.or_eq_false_iff.2 ⟨?_, hw⟩
  rw [List.any_append, hf, Bool.or_false]
  refine List.any_eq_false.2 fun f hf => ?_
  have ha : f.addr < 0x4100000C ∨ f.addr = 0x41000208 ∨ f.addr = 0x41000228 ∨ 0x41100000 ≤ f.addr :=
    (by decide : ∀ f ∈ islandFlds, f.addr < 0x4100000C ∨ f.addr = 0x41000208 ∨ f.addr = 0x41000228 ∨ 0x41100000 ≤ f.addr) f hf
  simp [Fld.apart_of_addr (f := f) (g := g) (by omega)]

/-! ### The steps of an update -/

/-- The functions that act (R389). -/
def State.actingFn (s : State) : Fn := if s.islandUp then s.closeFn (s.ownFn.join s.mateFn) else Fn.all

/-- The times and the mate output that go with the functions. -/
def State.noteFns (s : State) : State :=
  { s with isl := { s.isl with sbcAt := if s.actingFn.sbc then some (s.isl.sbcAt.getD s.now) else none,
                               sbcBlock := s.isl.sbcBlock && s.actingFn.sbc,
                               mateOut := s.on R.MATE_MATE_EN && s.islandUp && !(s.closeFn s.ownFn).sb } }

def State.showFns (s : State) (f : Fn) : State :=
  ((s.showSources.put R.SAFE_STATE_SB f.sb).put R.SAFE_STATE_ST f.st).put R.SAFE_STATE_SBC f.sbc

/-- An output with FUNC `k` is energised. -/
def State.soIs (s : State) (k n : Nat) : Bool := s.rd (R.SO_CFG_FUNC n) == k && s.on (R.SO_STATUS_ENERGISED n)

def State.showOutputs (s : State) : State :=
  (s.put R.SAFE_STATE_BRK_OPEN (s.soIs 2 0 || s.soIs 2 1)).put R.SAFE_STATE_TRIP_ON (s.soIs 1 0 || s.soIs 1 1)

/-- The state in which the outputs have followed the functions. -/
def State.outputsDriven (s : State) : State := (s.noteFns.showFns s.actingFn).forN 2 fun n s => s.driveSo n

/-- The state with functions and outputs up to date and the BLOCK path still to follow. -/
def State.functionsDone (s : State) : State := s.outputsDriven.showOutputs

/-- The state with the two lines to the state machine, before it reacts. -/
def State.linesDone (s : State) : State := s.functionsDone.drivePath.put R.DEV_STATE_SAFE_BLOCK s.actingFn.sb

/-- The state before the live causes of the island follow. -/
def State.blockDone (s : State) : State :=
  s.linesDone.when (s.actingFn.sb && !s.functionsDone.on R.DEV_STATE_SAFE_BLOCK) fun s => s.faultBlock Cause.safeBlock

theorem State.islandUpdate_eq (s : State) : s.islandUpdate = s.blockDone.causesAre s.blockDone.islandCauses := rfl

theorem State.islandCauses_sources (s : State) :
    s.islandCauses.map Prod.fst = [96, 97, 98, 99, 100, 101, 102, 103, 104, 105, 106, 107] := rfl

theorem State.islandCauses_lt (s : State) (e : Nat × Bool) (he : e ∈ s.islandCauses) : e.1 < 128 := by
  have hm := List.mem_map_of_mem (f := Prod.fst) he
  rw [State.islandCauses_sources] at hm
  exact (by decide : ∀ i ∈ [96, 97, 98, 99, 100, 101, 102, 103, 104, 105, 106, 107], i < 128) _ hm

/-- After the lines stand, only the reactions of the state machine and of the collector follow. -/
theorem State.islandUpdate_reacts (s : State) : State.Reacts s.linesDone s.islandUpdate := by
  rw [State.islandUpdate_eq]
  exact ((State.ReactsIn.refl _).when fun u => (State.faultBlock_reacts u _).ofReaction).trans (State.causesAre_reacts _ _ (State.islandCauses_lt _))

theorem State.islandUpdate_isl (s : State) : s.islandUpdate.isl = s.linesDone.isl := by
  rw [State.islandUpdate_eq]
  have hb : Keeps [.regs, .sent, .sys] s.linesDone s.blockDone :=
    State.when_keeps (Keeps _ _) _ _ _ (.refl _ _) (keeps_faultBlock _ _ (by decide) (.refl _ _))
  have hc : Keeps [.regs, .sent, .sys, .tie, .flt, .acq, .mem] s.blockDone (s.blockDone.causesAre s.blockDone.islandCauses) :=
    keeps_causesAre _ _ (by decide) (.refl _ _)
  exact (hc.1.2 .isl (by decide)).trans (hb.1.2 .isl (by decide))

/-! ### Outputs -/

theorem switchFlds_within {n : Nat} {f : Fld} (h : f ∈ switchFlds n) : f.Within (near (switchFlds n) fun _ => false) := by
  refine Fld.within_of_mem h ?_
  simp only [switchFlds, List.mem_cons, List.not_mem_nil, or_false] at h
  rcases h with rfl | rfl | rfl <;> rfl

theorem State.driveSo_writes (s : State) (n : Nat) : State.Writes (near (switchFlds n) fun _ => false) s (s.driveSo n) := by
  unfold State.driveSo
  extract_lets e tests
  split
  · exact .refl _ s
  · have h : State.Writes (near (switchFlds n) fun _ => false) s (s.setTest n none) := .of_regs rfl
    exact ((h.put (switchFlds_within (by simp [switchFlds])) _).put (switchFlds_within (by simp [switchFlds])) _).put
      (switchFlds_within (by simp [switchFlds])) _

theorem State.driveSo_isl (s : State) (n : Nat) : ∃ l, (s.driveSo n).isl = { s.isl with test := l } := by
  unfold State.driveSo
  extract_lets e tests
  split
  · exact ⟨s.isl.test, rfl⟩
  · exact ⟨_, rfl⟩

theorem State.driveSo_energised (s : State) (n : Nat) : (s.driveSo n).on (R.SO_STATUS_ENERGISED n) = s.soWanted n := by
  unfold State.driveSo
  extract_lets e tests
  split
  next h => exact (beq_iff_eq.1 (Bool.and_eq_true_iff.1 h).2).symm
  · rw [State.on_put_apart _ _ _ _ rfl (by simp [Fld.apart, R.SO_STATUS_LS_DRV, R.SO_STATUS_ENERGISED]),
      State.on_put_apart _ _ _ _ rfl (by simp [Fld.apart, R.SO_STATUS_HS_DRV, R.SO_STATUS_ENERGISED]), State.on_put_same _ _ _ rfl rfl]

/-- A channel that no test holds drives both of its switches as it is energised. -/
theorem State.driveSo_switches (s : State) (n : Nat)
    (h : (s.ist == Is.run && !s.isl.monitor && mapGet (fun _ => none) s.isl.test n != none) = false ∨
      s.soWanted n ≠ s.on (R.SO_STATUS_ENERGISED n)) :
    (s.driveSo n).on (R.SO_STATUS_HS_DRV n) = s.soWanted n ∧ (s.driveSo n).on (R.SO_STATUS_LS_DRV n) = s.soWanted n := by
  unfold State.driveSo
  extract_lets e tests
  split
  next hk =>
    obtain ⟨ht, he⟩ := Bool.and_eq_true_iff.1 hk
    rcases h with h | h
    · exact absurd (ht.symm.trans h) (by decide)
    · exact absurd (beq_iff_eq.1 he) h
  · refine ⟨?_, State.on_put_same _ _ _ rfl rfl⟩
    rw [State.on_put_apart _ _ _ _ rfl (by simp [Fld.apart, R.SO_STATUS_LS_DRV, R.SO_STATUS_HS_DRV]), State.on_put_same _ _ _ rfl rfl]

/-! ### What an update leaves of the island -/

/-- What bringing the island up to date may change of the island itself. -/
def Isl.Shown (x y : Isl) : Prop := ∃ at' b l o, y = { x with sbcAt := at', sbcBlock := b, test := l, mateOut := o }

theorem Isl.Shown.withTest {x y : Isl} (h : Isl.Shown x y) {z : Isl} {l : NMap (Option Bool)} (hz : z = { y with test := l }) : Isl.Shown x z := by
  obtain ⟨at', b, _, o, rfl⟩ := h
  exact ⟨at', b, l, o, hz⟩

theorem State.showFns_writes (s : State) (f : Fn) : State.Writes byLines s (s.showFns f) := by
  have hw := fun {g} (hg : g ∈ islandFlds) => within_byLines hg
  exact (((((((((((((((((State.Writes.refl _ s).wr (hw (by decide)) _).wr (hw (by decide)) _).wr (hw (by decide)) _).put (hw (by decide)) _).put
    (hw (by decide)) _).put (hw (by decide)) _).put (hw (by decide)) _).put (hw (by decide)) _).put (hw (by decide)) _).put
    (hw (by decide)) _).put (hw (by decide)) _).put (hw (by decide)) _).put (hw (by decide)) _).put (hw (by decide)) _).put
    (hw (by decide)) _).put (hw (by decide)) _)

theorem State.functionsDone_writes (s : State) : State.Writes byLines s s.functionsDone := by
  have h0 : State.Writes byLines s s.noteFns := .of_regs rfl
  have hdrive : ∀ n, n < 2 → ∀ t, State.Writes byLines s t → State.Writes byLines s (t.driveSo n) := fun n hn t ht =>
    ht.trans ((State.driveSo_writes t n).mono fun g hg => by
      refine Bool.or_eq_false_iff.2 ⟨List.any_eq_false.2 fun f hf => ?_, rfl⟩
      have hmem : f ∈ islandFlds := by
        rcases (by omega : n = 0 ∨ n = 1) with rfl | rfl
        · exact (by decide : switchFlds 0 ⊆ islandFlds) hf
        · exact (by decide : switchFlds 1 ⊆ islandFlds) hf
      simp [(within_byLines hmem).2 g hg])
  have h2 : State.Writes byLines s s.outputsDriven :=
    State.forN_keeps (State.Writes byLines s) 2 (fun n t => t.driveSo n) hdrive _ (h0.trans (State.showFns_writes _ _))
  exact (h2.put (f := R.SAFE_STATE_BRK_OPEN) (within_byLines (by decide)) _).put (within_byLines (by decide)) _

theorem State.showFns_keeps (s : State) (f : Fn) : Keeps [.regs] s (s.showFns f) :=
  keeps_put _ _ _ (by decide) (keeps_put _ _ _ (by decide) (keeps_put _ _ _ (by decide) (keeps_showSources _ (by decide) (.refl _ _))))

theorem State.showOutputs_keeps (s : State) : Keeps [.regs] s s.showOutputs :=
  keeps_put _ _ _ (by decide) (keeps_put _ _ _ (by decide) (.refl _ _))

theorem State.noteFns_isl (s : State) : Isl.Shown s.isl s.noteFns.isl := ⟨_, _, _, _, rfl⟩

theorem State.functionsDone_isl (s : State) : Isl.Shown s.isl s.functionsDone.isl := by
  have hdrive : ∀ n, n < 2 → ∀ t : State, Isl.Shown s.isl t.isl → Isl.Shown s.isl (t.driveSo n).isl := fun n _ t ht =>
    have ⟨_, hl⟩ := State.driveSo_isl t n
    ht.withTest hl
  have h0 : Isl.Shown s.isl (s.noteFns.showFns s.actingFn).isl := by
    rw [(State.showFns_keeps _ _).1.2 .isl (by decide)]
    exact s.noteFns_isl
  rw [State.functionsDone, (State.showOutputs_keeps _).1.2 .isl (by decide)]
  exact State.forN_keeps (fun t => Isl.Shown s.isl t.isl) 2 (fun n t => t.driveSo n) hdrive _ h0

theorem State.drivePath_regs (s : State) : s.drivePath.regs = s.regs :=
  (keeps_drivePath (F := [.sent, .sys]) s (by decide) (.refl _ _)).1.2 .regs (by decide)

theorem State.drivePath_isl (s : State) : s.drivePath.isl = s.isl :=
  (keeps_drivePath (F := [.sent, .sys]) s (by decide) (.refl _ _)).1.2 .isl (by decide)

theorem State.drivePath_sys (s : State) : s.drivePath.sys = { s.sys with hardBlock := s.on R.SAFE_STATE_SB || s.isl.monitor } := rfl

theorem State.linesDone_writes (s : State) : State.Writes byLines s s.linesDone :=
  (s.functionsDone_writes.trans (.of_regs (State.drivePath_regs _))).put (within_byLines (by decide)) _

theorem State.linesDone_isl (s : State) : s.linesDone.isl = s.functionsDone.isl := by
  rw [State.linesDone, State.put_isl, State.drivePath_isl]

/-- The fields outside `byIsland` read as before the update. -/
theorem State.islandUpdate_writes (s : State) : State.Writes byIsland s s.islandUpdate :=
  (s.linesDone_writes.mono fun _ => byLines_of_byIsland).trans (s.islandUpdate_reacts.writes.mono fun _ => byEvent_of_byIsland)

theorem State.islandUpdate_shown (s : State) : Isl.Shown s.isl s.islandUpdate.isl := by
  rw [State.islandUpdate_isl, State.linesDone_isl]
  exact s.functionsDone_isl

/-! ### The values after an update -/

theorem State.islandUpdate_rd (s : State) (h : byEvent g = false) : s.islandUpdate.rd g = s.linesDone.rd g :=
  s.islandUpdate_reacts.writes g h

/-- The island's words read, at the end of the update, as when its functions were done. -/
theorem State.islandUpdate_rd_done (s : State) (h : 0x41000000 ≤ g.addr) (h' : g.addr < 0x41100000) :
    s.islandUpdate.rd g = s.functionsDone.rd g := by
  rw [State.islandUpdate_rd s (byEvent_of_addr h h'), State.linesDone, State.rd_put_apart _ _ _ _ (by decide)
    (Fld.apart_of_addr (by dsimp only [R.DEV_STATE_SAFE_BLOCK]; omega)), State.rd_congr _ _ (State.drivePath_regs _)]

theorem State.islandUpdate_on_done (s : State) (h : 0x41000000 ≤ g.addr) (h' : g.addr < 0x41100000) :
    s.islandUpdate.on g = s.functionsDone.on g := by
  rw [State.on, State.on, State.islandUpdate_rd_done s h h']

/-- The fields that follow the functions shown: the outputs, not the functions. -/
def driveFlds : List Fld := switchFlds 0 ++ switchFlds 1 ++ [R.SAFE_STATE_BRK_OPEN, R.SAFE_STATE_TRIP_ON]

theorem within_driveFlds {f : Fld} (h : f ∈ driveFlds) : f.Within (near driveFlds fun _ => false) :=
  Fld.within_of_mem h ((by decide : ∀ f ∈ driveFlds, f.inWord = true) f h)

theorem State.driveSo_drives (s : State) {n : Nat} (hn : n < 2) : State.Writes (near driveFlds fun _ => false) s (s.driveSo n) :=
  (State.driveSo_writes s n).mono fun g hg => by
    refine Bool.or_eq_false_iff.2 ⟨List.any_eq_false.2 fun f hf => ?_, rfl⟩
    have hmem : f ∈ driveFlds := by
      rcases (by omega : n = 0 ∨ n = 1) with rfl | rfl
      · exact (by decide : switchFlds 0 ⊆ driveFlds) hf
      · exact (by decide : switchFlds 1 ⊆ driveFlds) hf
    simp [(within_driveFlds hmem).2 g hg]

theorem State.functionsDone_drives (s : State) :
    State.Writes (near driveFlds fun _ => false) (s.noteFns.showFns s.actingFn) s.functionsDone := by
  have h2 : State.Writes (near driveFlds fun _ => false) (s.noteFns.showFns s.actingFn) s.outputsDriven :=
    State.forN_keeps (State.Writes _ _) 2 (fun n t => t.driveSo n) (fun n hn t ht => ht.trans (State.driveSo_drives t hn)) _ (.refl _ _)
  exact (h2.put (f := R.SAFE_STATE_BRK_OPEN) (within_driveFlds (by decide)) _).put (within_driveFlds (by decide)) _

theorem State.showFns_on (s : State) (f : Fn) : (s.showFns f).on R.SAFE_STATE_SB = f.sb ∧ (s.showFns f).on R.SAFE_STATE_ST = f.st ∧
    (s.showFns f).on R.SAFE_STATE_SBC = f.sbc := by
  refine ⟨?_, ?_, State.on_put_same _ _ _ (by decide) rfl⟩
  · rw [State.showFns, State.on_put_apart _ _ _ _ (by decide) (by decide), State.on_put_apart _ _ _ _ (by decide) (by decide),
      State.on_put_same _ _ _ (by decide) rfl]
  · rw [State.showFns, State.on_put_apart _ _ _ _ (by decide) (by decide), State.on_put_same _ _ _ (by decide) rfl]

/-- Safe Block, Safe Trip and Safe Brake Control stand as the functions ask. -/
theorem State.islandUpdate_fns (s : State) : s.islandUpdate.on R.SAFE_STATE_SB = s.actingFn.sb ∧
    s.islandUpdate.on R.SAFE_STATE_ST = s.actingFn.st ∧ s.islandUpdate.on R.SAFE_STATE_SBC = s.actingFn.sbc := by
  obtain ⟨hsb, hst, hsbc⟩ := s.noteFns.showFns_on s.actingFn
  have hd := s.functionsDone_drives
  refine ⟨?_, ?_, ?_⟩
  · rw [State.islandUpdate_on_done s (by decide) (by decide), hd.on (by decide), hsb]
  · rw [State.islandUpdate_on_done s (by decide) (by decide), hd.on (by decide), hst]
  · rw [State.islandUpdate_on_done s (by decide) (by decide), hd.on (by decide), hsbc]

/-! ### The safe side -/

/-- An output with its function may be energised. -/
def State.SoMay (s : State) (n : Nat) : Prop :=
  s.ist = 3 ∧ s.soFault n = false ∧ s.isl.monitor = false ∧
    ((s.rd (R.SO_CFG_FUNC n) = 1 ∧ s.on R.SAFE_STATE_ST = false) ∨ (s.rd (R.SO_CFG_FUNC n) = 2 ∧ s.on R.SAFE_STATE_SBC = false))

theorem State.soMay_of_wanted {n : Nat} (h : s.soWanted n = true) : s.SoMay n := by
  unfold State.soWanted at h
  simp only [Bool.and_eq_true, Bool.not_eq_true', beq_iff_eq] at h
  obtain ⟨⟨⟨hrun, hmon⟩, hflt⟩, hfn⟩ := h
  refine ⟨hrun, hflt, hmon, ?_⟩
  split at hfn
  next hf => exact .inl ⟨hf, by simpa using hfn⟩
  next hf =>
    simp only [Bool.and_eq_true, Bool.not_eq_true'] at hfn
    exact .inr ⟨hf, hfn.1.1.1⟩
  · cases hfn

/-- What decides whether an output may be energised. -/
def soReads (n : Nat) : List Fld :=
  [R.SAFE_STATE_STATE, R.SO_STATUS_RB_FLT n, R.SO_STATUS_DP_FLT n, R.SO_STATUS_FBK_FLT n, R.SO_CFG_FUNC n, R.SAFE_STATE_ST, R.SAFE_STATE_SBC]

theorem State.SoMay.congr {n : Nat} (h : s.SoMay n) (hr : ∀ g ∈ soReads n, t.rd g = s.rd g) (hm : t.isl.monitor = s.isl.monitor) :
    t.SoMay n := by
  simp only [soReads, List.mem_cons, List.not_mem_nil, or_false, forall_eq_or_imp, forall_eq] at hr
  obtain ⟨hist, hrb, hdp, hfbk, hfunc, hst, hsbc⟩ := hr
  simpa only [State.SoMay, State.ist, State.soFault, State.on, hist, hrb, hdp, hfbk, hfunc, hst, hsbc, hm] using h

theorem State.driveSo_test (s : State) {n m : Nat} (h : m ≠ n) :
    mapGet (fun _ => none) (s.driveSo n).isl.test m = mapGet (fun _ => none) s.isl.test m := by
  unfold State.driveSo
  extract_lets e tests
  split
  · rfl
  · simp only [State.put_isl, State.setTest, mapGet_mapSet, if_neg h]

/-- The state as output `n` finds it. -/
def State.beforeSo (s : State) (n : Nat) : State :=
  if n = 0 then s.noteFns.showFns s.actingFn else (s.noteFns.showFns s.actingFn).driveSo 0

theorem State.forN_two (s : State) (f : Nat → State → State) : s.forN 2 f = f 1 (f 0 s) := rfl

theorem State.outputsDriven_eq (s : State) : s.outputsDriven = ((s.noteFns.showFns s.actingFn).driveSo 0).driveSo 1 := by
  rw [State.outputsDriven, State.forN_two]

theorem State.showOutputs_rd (s : State) {n : Nat} (hn : n < 2) {g : Fld} (hg : g ∈ switchFlds n) : s.showOutputs.rd g = s.rd g := by
  have ha : ∀ k, k < 2 → ∀ g ∈ switchFlds k, R.SAFE_STATE_BRK_OPEN.apart g = true ∧ R.SAFE_STATE_TRIP_ON.apart g = true := by decide
  obtain ⟨hb, ht⟩ := ha n hn g hg
  rw [State.showOutputs, State.rd_put_apart _ _ _ _ (by decide) ht, State.rd_put_apart _ _ _ _ (by decide) hb]

/-- The switches of an output read as the output itself has set them. -/
theorem State.functionsDone_switches (s : State) {n : Nat} (hn : n < 2) {g : Fld} (hg : g ∈ switchFlds n) :
    s.functionsDone.rd g = ((s.beforeSo n).driveSo n).rd g := by
  rw [State.functionsDone, State.showOutputs_rd _ hn hg, State.outputsDriven_eq]
  rcases (by omega : n = 0 ∨ n = 1) with rfl | rfl
  · rw [State.beforeSo, if_pos rfl]
    exact State.driveSo_writes _ 1 g ((by decide : ∀ g ∈ switchFlds 0, near (switchFlds 1) (fun _ => false) g = false) g hg)
  · rw [State.beforeSo, if_neg (by decide)]

theorem State.beforeSo_drives (s : State) (n : Nat) :
    State.Writes (near driveFlds fun _ => false) (s.noteFns.showFns s.actingFn) (s.beforeSo n) := by
  unfold State.beforeSo
  split
  · exact .refl _ _
  · exact State.driveSo_drives _ (by decide)

theorem State.beforeSo_isl (s : State) (n : Nat) : ∃ l, (s.beforeSo n).isl = { s.noteFns.isl with test := l } := by
  unfold State.beforeSo
  split
  · exact ⟨_, (State.showFns_keeps s.noteFns s.actingFn).1.2 .isl (by decide)⟩
  · obtain ⟨l, hl⟩ := State.driveSo_isl (s.noteFns.showFns s.actingFn) 0
    exact ⟨l, by rw [hl, (State.showFns_keeps s.noteFns s.actingFn).1.2 .isl (by decide)]⟩

theorem State.beforeSo_monitor (s : State) (n : Nat) : (s.beforeSo n).isl.monitor = s.isl.monitor := by
  obtain ⟨l, hl⟩ := s.beforeSo_isl n
  rw [hl, State.noteFns]

theorem State.beforeSo_test (s : State) {n : Nat} (hn : n < 2) :
    mapGet (fun _ => none) (s.beforeSo n).isl.test n = mapGet (fun _ => none) s.isl.test n := by
  have h0 : (s.noteFns.showFns s.actingFn).isl.test = s.isl.test := by
    rw [(State.showFns_keeps s.noteFns s.actingFn).1.2 .isl (by decide), State.noteFns]
  rcases (by omega : n = 0 ∨ n = 1) with rfl | rfl
  · rw [State.beforeSo, if_pos rfl, h0]
  · rw [State.beforeSo, if_neg (by decide), State.driveSo_test _ (by decide), h0]

/-- An output that an update leaves energised may be so. -/
theorem State.functionsDone_soMay (s : State) {n : Nat} (hn : n < 2) (h : s.functionsDone.on (R.SO_STATUS_ENERGISED n) = true) :
    (s.beforeSo n).SoMay n := by
  rw [State.on, State.functionsDone_switches s hn (by simp [switchFlds]), ← State.on, State.driveSo_energised] at h
  exact State.soMay_of_wanted h

/-- The functions close: Safe Trip brings the other two, and all three act while the island does not evaluate. -/
theorem State.actingFn_closed (s : State) : (s.actingFn.st = true → s.actingFn.sb = true ∧ s.actingFn.sbc = true) ∧
    (s.islandUp = false → s.actingFn = Fn.all) := by
  unfold State.actingFn
  split
  next h => exact ⟨fun hst => by simp only [State.closeFn] at hst ⊢; simp [hst], fun hu => absurd (h.symm.trans hu) (by decide)⟩
  · exact ⟨fun _ => ⟨rfl, rfl⟩, fun _ => rfl⟩

theorem State.islandUpdate_monitor (s : State) : s.islandUpdate.isl.monitor = s.isl.monitor := by
  obtain ⟨_, _, _, _, h⟩ := s.islandUpdate_shown
  rw [h]

theorem State.functionsDone_monitor (s : State) : s.functionsDone.isl.monitor = s.isl.monitor := by
  obtain ⟨_, _, _, _, h⟩ := s.functionsDone_isl
  rw [h]

/-- The BLOCK path stands under Safe Block or the monitor. -/
theorem State.islandUpdate_hardBlock (s : State) : s.islandUpdate.sys.hardBlock = (s.actingFn.sb || s.isl.monitor) := by
  obtain ⟨_, _, _, _, _, hs⟩ := s.islandUpdate_reacts.sys
  have hsb : s.functionsDone.on R.SAFE_STATE_SB = s.actingFn.sb := by
    rw [s.functionsDone_drives.on (by decide)]
    exact (s.noteFns.showFns_on s.actingFn).1
  rw [hs, State.linesDone, State.put_sys, State.drivePath_sys, hsb, State.functionsDone_monitor]

theorem State.islandUpdate_safeBlock (s : State) : s.islandUpdate.on R.DEV_STATE_SAFE_BLOCK = s.actingFn.sb := by
  rw [State.on, State.islandUpdate_rd s (by decide), ← State.on]
  exact State.on_put_same _ _ _ (by decide) rfl

theorem State.islandUpdate_ist (s : State) : s.islandUpdate.ist = s.ist := s.islandUpdate_writes _ (by decide)

theorem State.islandUpdate_islandUp (s : State) : s.islandUpdate.islandUp = s.islandUp := by
  rw [State.islandUp, State.islandUpdate_ist, State.islandUp]

theorem State.islandUpdate_soMay (s : State) {n : Nat} (hn : n < 2) (h : s.islandUpdate.on (R.SO_STATUS_ENERGISED n) = true) :
    s.islandUpdate.SoMay n := by
  have ha : ∀ k, k < 2 → 0x41000000 ≤ (R.SO_STATUS_ENERGISED k).addr ∧ (R.SO_STATUS_ENERGISED k).addr < 0x41100000 := by decide
  obtain ⟨hlo, hhi⟩ := ha n hn
  rw [State.islandUpdate_on_done s hlo hhi] at h
  refine (s.functionsDone_soMay hn h).congr (fun g hg => ?_) ?_
  · have hr : ∀ k, k < 2 → ∀ g ∈ soReads k, 0x41000000 ≤ g.addr ∧ g.addr < 0x41100000 ∧ near driveFlds (fun _ => false) g = false := by
      decide
    obtain ⟨hg0, hg1, hd⟩ := hr n hn g hg
    rw [State.islandUpdate_rd_done s hg0 hg1, s.functionsDone_drives g hd, s.beforeSo_drives n g hd]
  · rw [State.islandUpdate_monitor, State.beforeSo_monitor]

/-- Whatever the state, bringing the island up to date leaves the outputs and the two lines on the safe side. -/
theorem State.islandUpdate_safeSide (s : State) : s.islandUpdate.SafeSide := by
  obtain ⟨hsb, hst, hsbc⟩ := s.islandUpdate_fns
  obtain ⟨hclosed, hall⟩ := s.actingFn_closed
  refine ⟨fun n hn h => s.islandUpdate_soMay hn h, fun h => ?_, fun h => ?_, ?_, ?_⟩
  · rw [hsb, hsbc]
    exact hclosed (hst.symm.trans h)
  · rw [State.islandUpdate_islandUp] at h
    rw [hsb, hst, hall h]
    exact ⟨rfl, rfl⟩
  · rw [State.islandUpdate_hardBlock, hsb, State.islandUpdate_monitor]
  · rw [State.islandUpdate_safeBlock, hsb]

end Sys2Proof.Machine
end

section
/-! O41: the states of the island (R369 to R372, R389 to R391, R405). -/

namespace Sys2Proof.Machine

variable {s t : State} {g : Fld}

/-! ### RESET and HALT of the island -/

theorem mapGet_filter_of_not {α : Type} (d : Nat → α) (m : NMap α) (p : Nat → Bool) {k : Nat} (h : p k = false) :
    mapGet d (m.filter fun e => p e.1) k = d k := by
  induction m with
  | nil => rfl
  | cons e m ih =>
    rw [List.filter_cons]
    split
    next he =>
      have hk : e.1 ≠ k := fun hk => by rw [hk, h] at he; cases he
      rw [mapGet_cons, if_neg hk, ih]
    · exact ih

/-- After RESET of the island its fields read their reset values. -/
theorem State.islandClear_rd (s : State) (h : 0x41000000 ≤ g.addr) (h' : g.addr < 0x41100000) :
    s.islandClear.rd g = bitsOf (kcReset g.addr).toNat g.lo g.width := by
  have hw : s.islandClear.word g.addr = (kcReset g.addr).toNat :=
    congrArg BitVec.toNat (mapGet_filter_of_not kcReset s.regs
      (fun a => !(decide (0x41000000 ≤ a) && decide (a < 0x41100000))) (by simp [h, h']))
  rw [State.rd, hw]

theorem State.islandReset_ist (s : State) : s.islandReset.ist = 0 := by
  rw [State.islandReset, State.islandUpdate_ist, State.ist, State.islandClear_rd s (by decide) (by decide)]
  decide +kernel

theorem State.withIsl_rd (s : State) (x : Isl) (g : Fld) : ({ s with isl := x } : State).rd g = s.rd g := rfl

/-- HALT before the outputs follow. -/
def State.halted (s : State) (cause : Nat) : State :=
  ((s.wr R.SAFE_STATE_STATE Is.halt).wr R.SAFE_STATE_HALT_CAUSE cause).put R.BT_STATUS_RUNNING false

theorem State.islandHalt_eq {cause : Nat} (h0 : s.ist ≠ 0) (h4 : s.ist ≠ 4) :
    s.islandHalt cause = ({ s.halted cause with isl := { (s.halted cause).isl with bt := 0, excl := 0 } } : State).islandUpdate :=
  if_neg fun h => h.elim h0 h4

theorem State.halted_rd {cause : Nat} (hs : R.SAFE_STATE_STATE.apart g = true) (hc : R.SAFE_STATE_HALT_CAUSE.apart g = true)
    (hr : R.BT_STATUS_RUNNING.apart g = true) : (s.halted cause).rd g = s.rd g := by
  rw [State.halted, State.rd_put_apart _ _ _ _ (by decide) hr, State.rd_wr_apart _ _ _ _ (by decide) hc,
    State.rd_wr_apart _ _ _ _ (by decide) hs]

/-- HALT from any state but RESET and HALT (R372). -/
theorem State.islandHalt_halts {cause : Nat} (h0 : s.ist ≠ 0) (h4 : s.ist ≠ 4) (hc : cause < 16) :
    (s.islandHalt cause).ist = 4 ∧ (s.islandHalt cause).rd R.SAFE_STATE_HALT_CAUSE = cause ∧ (s.islandHalt cause).SafeSide := by
  rw [State.islandHalt_eq h0 h4]
  refine ⟨?_, ?_, State.islandUpdate_safeSide _⟩
  · rw [State.islandUpdate_ist, State.ist, State.withIsl_rd, State.halted, State.rd_put_apart _ _ _ _ (by decide) (by decide),
      State.rd_wr_apart _ _ _ _ (by decide) (by decide), State.rd_wr_same _ _ _ (by decide)]
    rfl
  · rw [State.islandUpdate_writes _ _ (by decide), State.withIsl_rd, State.halted, State.rd_put_apart _ _ _ _ (by decide) (by decide),
      State.rd_wr_same _ _ _ (by decide)]
    exact Nat.mod_eq_of_lt hc

theorem State.islandHalt_rd {cause : Nat} (h0 : s.ist ≠ 0) (h4 : s.ist ≠ 4) (hg : byIsland g = false)
    (hs : R.SAFE_STATE_STATE.apart g = true) (hc : R.SAFE_STATE_HALT_CAUSE.apart g = true) (hr : R.BT_STATUS_RUNNING.apart g = true) :
    (s.islandHalt cause).rd g = s.rd g := by
  rw [State.islandHalt_eq h0 h4, State.islandUpdate_writes _ g hg, State.withIsl_rd, State.halted_rd hs hc hr]

/-! ### A stored set -/

/-- The fields of the island that a parameter set holds. -/
def rwsFlds : List Fld :=
  rwsOrder.flatMap fun a => ((kcRow a).map fun r => (r.fields.filter fun f => f.acc == .rws).map fun f => (⟨a, f.lo, f.width⟩ : Fld)).getD []

theorem mem_rwsFlds {a : Nat} {r : RegRow} {f : FieldRow} (ha : a ∈ rwsOrder) (hr : kcRow a = some r) (hf : f ∈ r.fields)
    (hacc : (f.acc == .rws) = true) : (⟨a, f.lo, f.width⟩ : Fld) ∈ rwsFlds := by
  refine List.mem_flatMap.2 ⟨a, ha, ?_⟩
  rw [hr]
  exact List.mem_map_of_mem (f := fun f : FieldRow => (⟨a, f.lo, f.width⟩ : Fld)) (List.mem_filter.2 ⟨hf, hacc⟩)

theorem foldl_congr_of_mem {α β : Type} {f k : β → α → β} (l : List α) (h : ∀ a ∈ l, ∀ b, f b a = k b a) (b : β) :
    l.foldl f b = l.foldl k b := by
  induction l generalizing b with
  | nil => rfl
  | cons a l ih =>
    rw [List.foldl_cons, List.foldl_cons, h a (by simp) b, ih fun c hc => h c (List.mem_cons_of_mem _ hc)]

/-- The set is made of its fields. -/
theorem State.safeSet_congr (h : ∀ g ∈ rwsFlds, t.rd g = s.rd g) : t.safeSet = s.safeSet := by
  refine List.map_congr_left fun a ha => ?_
  cases hr : kcRow a with
  | none => rfl
  | some r =>
    have hw : r.rwsOf (t.word a) = r.rwsOf (s.word a) :=
      foldl_congr_of_mem r.fields (fun f hf b => by
        split
        next hacc => rw [show bitsOf (t.word a) f.lo f.width = bitsOf (s.word a) f.lo f.width from h _ (mem_rwsFlds ha hr hf hacc)]
        · rfl) 0
    simp [hw]

theorem State.paramCrc_congr (h : ∀ g ∈ rwsFlds, t.rd g = s.rd g) : t.paramCrc = s.paramCrc := by
  rw [State.paramCrc, State.paramCrc, State.safeSet_congr h]

/-- A field shares no bit with the fields of its word that a set holds. -/
def besideRws (g : Fld) : Bool :=
  ((kcRow g.addr).map fun r => r.fields.all fun f => f.acc != .rws || (⟨g.addr, f.lo, f.width⟩ : Fld).apart g).getD true

theorem bitsOf_mod_word {n lo w : Nat} (h : lo + w ≤ 32) : bitsOf (n % 2 ^ 32) lo w = bitsOf n lo w := by
  have hd : (2 : Nat) ^ (lo + w) ∣ 2 ^ 32 := Nat.pow_dvd_pow 2 h
  simp only [bitsOf]
  rw [← Nat.mod_mul_right_div_self, ← Nat.mod_mul_right_div_self n, ← Nat.pow_add, Nat.mod_mod_of_dvd _ hd]

theorem bitsOf_setBits_beside {f : FieldRow} {a : Nat} (h : (⟨a, f.lo, f.width⟩ : Fld).apart ⟨a, g.lo, g.width⟩ = true) (n v : Nat) :
    bitsOf (setBits n f.lo f.width v) g.lo g.width = bitsOf n g.lo g.width := by
  simp only [Fld.apart, ne_eq, not_true_eq_false, decide_false, Bool.false_or, Bool.or_eq_true, decide_eq_true_eq] at h
  rcases h with h | h
  · exact bitsOf_setBits_above _ _ _ _ _ _ h
  · exact bitsOf_setBits_below _ _ _ _ _ _ h

theorem State.putRws_rd (s : State) (a v : Nat) (hg : besideRws g = true) (hw : g.inWord = true) : (s.putRws a v).rd g = s.rd g := by
  unfold State.putRws
  split
  · rfl
  next r hr =>
    by_cases ha : g.addr = a
    · subst ha
      have hall : (r.fields.all fun f => f.acc != .rws || (⟨g.addr, f.lo, f.width⟩ : Fld).apart g) = true := by
        simpa [besideRws, hr] using hg
      have hkeep : ∀ l : List FieldRow, (∀ f ∈ l, f ∈ r.fields) → ∀ n,
          bitsOf (l.foldl (fun w f => if f.acc == .rws then setBits w f.lo f.width (bitsOf v f.lo f.width) else w) n) g.lo g.width =
            bitsOf n g.lo g.width := by
        intro l hl
        induction l with
        | nil => exact fun _ => rfl
        | cons f l ih =>
          intro n
          rw [List.foldl_cons, ih fun x hx => hl x (List.mem_cons_of_mem _ hx)]
          have hf := List.all_eq_true.1 hall f (hl f (by simp))
          split
          next hacc =>
            rw [bne, hacc] at hf
            exact bitsOf_setBits_beside hf _ _
          · rfl
      rw [State.rd, State.word_setWord, if_pos rfl, bitsOf_mod_word (by simpa [Fld.inWord] using hw), hkeep _ (fun _ h => h)]
      rfl
    · rw [State.rd, State.word_setWord, if_neg ha, State.rd]

theorem State.applySet_rd (s : State) (l : List (Nat × Nat)) (hg : besideRws g = true) (hw : g.inWord = true) :
    (s.applySet l).rd g = s.rd g :=
  State.forL_keeps (fun t => t.rd g = s.rd g) l _ (fun _ _ t ht => (State.putRws_rd t _ _ hg hw).trans ht) s rfl

/-! ### Entry to RUN -/

/-- What the connections show of their states. -/
def connFlds : List Fld := ((List.range 8).map R.CONN_STATE_CSTATE) ++ [R.SAFE_LATCH_CONN]

/-- What entry to RUN writes after the state itself. -/
def runFlds : List Fld := connFlds ++ [R.BT_STATUS_HOURS, R.BT_STATUS_DUE, R.BT_STATUS_INHIBIT, R.SAFE_STATE_RST_STUCK]

/-- What taking a set and entering RUN writes beside the set. -/
def setFlds : List Fld := runFlds ++ [R.SAFE_PCRC_PARAM_CRC, R.SAFE_STATE_PARAM_VALID, R.SAFE_STATE_STATE, R.SAFE_LATCH_START]

theorem within_connFlds {f : Fld} (h : f ∈ connFlds) : f.Within (near connFlds fun _ => false) :=
  Fld.within_of_mem h ((by decide : ∀ f ∈ connFlds, f.inWord = true) f h)

theorem within_runFlds {f : Fld} (h : f ∈ runFlds) : f.Within (near runFlds fun _ => false) :=
  Fld.within_of_mem h ((by decide : ∀ f ∈ runFlds, f.inWord = true) f h)

theorem within_setFlds {f : Fld} (h : f ∈ setFlds) : f.Within (near setFlds fun _ => false) :=
  Fld.within_of_mem h ((by decide : ∀ f ∈ setFlds, f.inWord = true) f h)

theorem cstate_mem {c : Nat} (h : c < 8) : R.CONN_STATE_CSTATE c ∈ connFlds :=
  List.mem_append_left _ (List.mem_map_of_mem (List.mem_range.2 h))

/-- The set counts as valid, with its CRC. -/
def State.setTaken (s : State) : State := (s.wr R.SAFE_PCRC_PARAM_CRC s.paramCrc).put R.SAFE_STATE_PARAM_VALID true

/-- Connections switched on wait and those switched off go to OFF. -/
def State.connsSwitched (s : State) : State :=
  s.forN 8 fun c s =>
    if !s.on (R.CONN_CFG_EN c) then (s.wr (R.CONN_STATE_CSTATE c) 0).putBit R.SAFE_LATCH_CONN c false
    else if s.rd (R.CONN_STATE_CSTATE c) = 0 then
      (s.wr (R.CONN_STATE_CSTATE c) 1).setConn c { s.conn c with held := [], since := s.now, data := false }
    else s

theorem State.takeSet_eq (s : State) (l : List (Nat × Nat)) : s.takeSet l = (s.applySet l).setTaken.connsSwitched := rfl

theorem State.connsSwitched_writes (s : State) : State.Writes (near connFlds fun _ => false) s s.connsSwitched := by
  refine State.forN_keeps (State.Writes _ s) 8 _ (fun c hc t ht => ?_) s (.refl _ s)
  split
  · exact (ht.wr (within_connFlds (cstate_mem hc)) _).putBit (within_connFlds (by decide)) _ _
  · split
    · exact (ht.wr (within_connFlds (cstate_mem hc)) _).trans (.of_regs rfl)
    · exact ht

theorem State.setTaken_writes (s : State) : State.Writes (near setFlds fun _ => false) s s.setTaken :=
  ((State.Writes.refl _ s).wr (within_setFlds (by decide)) _).put (within_setFlds (by decide)) _

theorem State.takeSet_writes (s : State) (l : List (Nat × Nat)) : State.Writes (near setFlds fun _ => false) (s.applySet l) (s.takeSet l) := by
  rw [State.takeSet_eq]
  exact (State.setTaken_writes _).trans ((State.connsSwitched_writes _).mono fun _ => near_of_subset (by decide))

/-- RUN with START latched. -/
def State.runStarts (s : State) : State := (s.wr R.SAFE_STATE_STATE Is.run).put R.SAFE_LATCH_START true

def State.connsWait (s : State) : State :=
  s.forN 8 fun c s =>
    (s.wr (R.CONN_STATE_CSTATE c) (s.rd (R.CONN_CFG_EN c))).setConn c
      { s.conn c with held := [], since := s.now, data := false, btest := false, press := none, stuck := false }

/-- The hours of the brake test start at BT_INT. -/
def State.hoursStart (s : State) : State :=
  ((s.wr R.BT_STATUS_HOURS (s.rd R.BT_CFG_BT_INT)).put R.BT_STATUS_DUE (s.rd R.BT_CFG_BT_INT != 0)).put R.BT_STATUS_INHIBIT
    (s.on R.BT_STATUS_INHIBIT || (s.rd R.BT_CFG_BT_INT != 0 && s.rd R.BT_CFG_BT_GRACE == 0))

/-- A press that stands counts as stuck. -/
def State.pressSticks (s : State) : State :=
  s.when (s.on R.SAFE_RST_PRESSED) fun s => { s.put R.SAFE_STATE_RST_STUCK true with isl := { s.isl with stuck := true } }

theorem State.islandRun_eq (s : State) : s.islandRun = s.runStarts.connsWait.hoursStart.pressSticks := rfl

theorem State.Writes.setConn {W : Fld → Bool} (h : State.Writes W s t) (c : Nat) (x : ConnI) : State.Writes W s (t.setConn c x) :=
  fun g hg => h g hg

theorem State.connsWait_writes (s : State) : State.Writes (near connFlds fun _ => false) s s.connsWait := by
  refine State.forN_keeps (State.Writes _ s) 8 _ (fun c hc t ht => ?_) s (.refl _ s)
  exact (ht.wr (within_connFlds (cstate_mem hc)) _).setConn _ _

theorem State.hoursStart_writes (s : State) : State.Writes (near runFlds fun _ => false) s s.hoursStart :=
  (((State.Writes.refl _ s).wr (within_runFlds (by decide)) _).put (within_runFlds (by decide)) _).put (within_runFlds (by decide)) _

theorem State.pressSticks_writes (s : State) : State.Writes (near runFlds fun _ => false) s s.pressSticks :=
  (State.Writes.refl _ s).when fun u =>
    ((State.Writes.refl _ u).put (f := R.SAFE_STATE_RST_STUCK) (within_runFlds (by decide)) true).trans (.of_regs rfl)

/-- What follows the entry to RUN and the START latch. -/
theorem State.islandRun_after (s : State) : State.Writes (near runFlds fun _ => false) s.runStarts s.islandRun := by
  rw [State.islandRun_eq]
  exact (((State.connsWait_writes _).mono fun _ => near_of_subset (by decide)).trans (State.hoursStart_writes _)).trans
    (State.pressSticks_writes _)

theorem State.islandRun_writes (s : State) : State.Writes (near setFlds fun _ => false) s s.islandRun :=
  (((State.Writes.refl _ s).wr (f := R.SAFE_STATE_STATE) (within_setFlds (by decide)) Is.run).put (f := R.SAFE_LATCH_START)
    (within_setFlds (by decide)) true).trans ((State.islandRun_after s).mono fun _ => near_of_subset (by decide))

theorem State.islandRun_ist (s : State) : s.islandRun.ist = 3 := by
  rw [State.ist, State.islandRun_after s _ (by decide), State.runStarts, State.rd_put_apart _ _ _ _ (by decide) (by decide),
    State.rd_wr_same _ _ _ (by decide)]
  rfl

theorem State.islandRun_start (s : State) : s.islandRun.on R.SAFE_LATCH_START = true := by
  rw [(State.islandRun_after s).on (by decide)]
  exact State.on_put_same _ _ _ (by decide) rfl

/-! ### A set found in WAIT -/

/-- Neither entry to RUN nor the outputs touch a field of the set. -/
theorem rwsFlds_left : ∀ g ∈ rwsFlds, near setFlds (fun _ => false) g = false ∧ byIsland g = false := by
  decide +kernel

theorem State.loadSet_ist (s : State) (l : List (Nat × Nat)) : (s.loadSet l).ist = 3 := by
  rw [State.loadSet, State.islandUpdate_ist, State.islandRun_ist]

theorem State.loadSet_valid (s : State) (l : List (Nat × Nat)) : (s.loadSet l).on R.SAFE_STATE_PARAM_VALID = true := by
  rw [State.loadSet, (State.islandUpdate_writes _).on (by decide), (State.islandRun_after _).on (by decide), State.runStarts,
    State.on_put_apart _ _ _ _ (by decide) (by decide), State.on, State.rd_wr_apart _ _ _ _ (by decide) (by decide),
    State.takeSet_eq, ← State.on, (State.connsSwitched_writes _).on (by decide)]
  exact State.on_put_same _ _ _ (by decide) rfl

theorem State.loadSet_start (s : State) (l : List (Nat × Nat)) : (s.loadSet l).on R.SAFE_LATCH_START = true := by
  rw [State.loadSet, (State.islandUpdate_writes _).on (by decide), State.islandRun_start]

theorem Fn.join_all (f : Fn) : f.join Fn.all = Fn.all := by simp [Fn.join, Fn.all]

/-- START demands all three functions. -/
theorem State.actingFn_of_start (h : s.on R.SAFE_LATCH_START = true) : s.actingFn = Fn.all := by
  unfold State.actingFn
  split
  · have hown : s.ownFn = Fn.all := by
      simp only [State.ownFn, List.foldl_append, List.foldl_cons, List.foldl_nil, h, Bool.or_true, if_true]
      exact Fn.join_all _
    rw [hown]
    simp [Fn.join, Fn.all, State.closeFn]
  · rfl

theorem State.loadSet_trip (s : State) (l : List (Nat × Nat)) : (s.loadSet l).on R.SAFE_STATE_ST = true := by
  rw [State.loadSet, (State.islandUpdate_fns _).2.1, State.actingFn_of_start (State.islandRun_start _)]
  rfl

/-- The fields of the set stand in the end as applied. -/
theorem State.loadSet_rws (s : State) (l : List (Nat × Nat)) (hg : g ∈ rwsFlds) : (s.loadSet l).rd g = (s.applySet l).rd g := by
  obtain ⟨hset, hisl⟩ := rwsFlds_left g hg
  rw [State.loadSet, State.islandUpdate_writes _ g hisl, State.islandRun_writes _ g hset, State.takeSet_writes _ _ g hset]

theorem State.loadSet_crc (s : State) (l : List (Nat × Nat)) : (s.loadSet l).rd R.SAFE_PCRC_PARAM_CRC = (s.loadSet l).paramCrc := by
  rw [State.paramCrc_congr fun g hg => s.loadSet_rws l hg, State.loadSet, State.islandUpdate_writes _ _ (by decide),
    State.islandRun_after _ _ (by decide), State.runStarts, State.rd_put_apart _ _ _ _ (by decide) (by decide),
    State.rd_wr_apart _ _ _ _ (by decide) (by decide), State.takeSet_eq, State.connsSwitched_writes _ _ (by decide),
    State.setTaken, State.rd_put_apart _ _ _ _ (by decide) (by decide), State.rd_wr_same _ _ _ (by decide)]
  exact Nat.mod_eq_of_lt (Tests.crc32c_lt _)

/-! ### A cycle -/

/-- The pins of one output shown. -/
def State.soPinsShown (s : State) (pins : SafePins) (n : Nat) : State :=
  ((s.put (R.SO_STATUS_HS_RB n) (pins.readback.getLsbD (2 * n))).put (R.SO_STATUS_LS_RB n)
    (pins.readback.getLsbD (2 * n + 1))).put (R.SO_STATUS_FBK n) (pins.feedback.getLsbD n)

/-- The mate and test pulse pins shown. -/
def State.matePinsShown (s : State) (pins : SafePins) : State :=
  ((s.put R.MATE_LIVE_A (pins.mate.getLsbD 0)).put R.MATE_LIVE_B (pins.mate.getLsbD 1)).wr R.TP_STATUS_FB pins.tp.toNat

/-- The levels of the pins shown, those of the outputs last. -/
def State.pinsShown (s : State) (pins : SafePins) : State := (s.matePinsShown pins).forN 2 fun n s => s.soPinsShown pins n

/-- The inputs after the pins. -/
def State.inputsCycled (s : State) : State := (s.forN 8 fun n s => s.siCycle n).noteAgreement

/-- The standstill input that demands in step 3 of the brake test spoils it. -/
def State.standstillNoted (s : State) : State :=
  { s with isl := { s.isl with btBad := s.isl.btBad || (s.isl.bt == 2 && s.on (R.SI_STATUS_DEMAND (s.rd R.BT_CFG_STILL_IN))) } }

/-- The state with the STATE lines read. -/
def State.devRead (s : State) : State := { s with isl := { s.isl with dev := s.st } }

/-- The state before the first update of a cycle. -/
def State.cycleStarts (s : State) (pins : SafePins) : State := (s.devRead.pinsShown pins).inputsCycled.standstillNoted

theorem execIslandCycle_eq (s : State) (pins : SafePins) (h : s.islandUp = true) :
    execIslandCycle pins s = .next ((s.cycleStarts pins).islandUpdate.applyCommit.islandUpdate) := by
  unfold execIslandCycle State.cycleStarts State.devRead State.standstillNoted State.inputsCycled State.pinsShown State.matePinsShown State.soPinsShown
  rw [if_neg (by simp [h])]

/-- The words of the safe inputs' status. -/
def inputWord (a : Nat) : Bool := decide (0x41000104 ≤ a) && decide (a < 0x41000180)

theorem within_input {f : Fld} (h : inputWord f.addr = true) (hf : f.inWord = true) : f.Within (near [] inputWord) :=
  Fld.within_of_word h hf

theorem inputWord_status {n : Nat} (h : n < 8) : inputWord (0x41000104 + 0x10 * n) = true := by
  simp only [inputWord, Bool.and_eq_true, decide_eq_true_eq]
  omega

theorem State.siDemand_writes (s : State) {n : Nat} (h : n < 8) : State.Writes (near [] inputWord) s (s.siDemand n) :=
  ((State.Writes.refl _ s).put (f := R.SI_STATUS_DEMAND n) (within_input (inputWord_status h) rfl) _).put
    (f := R.SI_STATUS_WAIT_RST n) (within_input (inputWord_status h) rfl) _

theorem State.siCycle_writes (s : State) {n : Nat} (h : n < 8) : State.Writes (near [] inputWord) s (s.siCycle n) := by
  unfold State.siCycle
  extract_lets k isl s₁ s₂
  have h₁ : State.Writes (near [] inputWord) s s₁ := .of_regs rfl
  have h₂ : State.Writes (near [] inputWord) s s₂ := h₁.wr (f := R.SI_STATUS_DISC_MAX n) (within_input (inputWord_status h) rfl) _
  exact (h₂.when fun u => (State.Writes.refl _ u).put (f := R.SI_STATUS_DISC_FLT n) (within_input (inputWord_status h) rfl) _).trans
    (State.siDemand_writes _ h)

theorem State.inputsCycled_writes (s : State) : State.Writes (near [] inputWord) s s.inputsCycled := by
  have h : State.Writes (near [] inputWord) s (s.forN 8 fun n s => s.siCycle n) :=
    State.forN_keeps (State.Writes _ s) 8 _ (fun n hn t ht => ht.trans (State.siCycle_writes t hn)) s (.refl _ s)
  exact h.trans (.of_regs ((keeps_noteAgreement (F := [.isl]) (z := _) _ (by decide) (.refl _ _)).1.2 .regs (by decide)))

theorem State.pinsShown_eq (s : State) (pins : SafePins) :
    s.pinsShown pins = ((s.matePinsShown pins).soPinsShown pins 0).soPinsShown pins 1 := by
  rw [State.pinsShown, State.forN_two]

theorem State.soPinsShown_apart (s : State) (pins : SafePins) (n : Nat) (h : R.SO_STATUS_HS_RB n |>.apart g)
    (h' : R.SO_STATUS_LS_RB n |>.apart g) (h'' : R.SO_STATUS_FBK n |>.apart g) : (s.soPinsShown pins n).on g = s.on g := by
  rw [State.soPinsShown, State.on_put_apart _ _ _ _ rfl h'', State.on_put_apart _ _ _ _ rfl h', State.on_put_apart _ _ _ _ rfl h]

theorem State.soPinsShown_same (s : State) (pins : SafePins) (n : Nat) :
    (s.soPinsShown pins n).on (R.SO_STATUS_HS_RB n) = pins.readback.getLsbD (2 * n) ∧
      (s.soPinsShown pins n).on (R.SO_STATUS_FBK n) = pins.feedback.getLsbD n := by
  refine ⟨?_, State.on_put_same _ _ _ rfl rfl⟩
  rw [State.soPinsShown, State.on_put_apart _ _ _ _ rfl (by simp [Fld.apart, R.SO_STATUS_FBK, R.SO_STATUS_HS_RB]),
    State.on_put_apart _ _ _ _ rfl (by simp [Fld.apart, R.SO_STATUS_LS_RB, R.SO_STATUS_HS_RB]), State.on_put_same _ _ _ rfl rfl]

theorem State.pinsShown_mate (s : State) (pins : SafePins) : (s.pinsShown pins).on R.MATE_LIVE_A = pins.mate.getLsbD 0 := by
  rw [State.pinsShown_eq, State.soPinsShown_apart _ _ _ (by decide) (by decide) (by decide),
    State.soPinsShown_apart _ _ _ (by decide) (by decide) (by decide), State.matePinsShown, State.on,
    State.rd_wr_apart _ _ _ _ (by decide) (by decide), ← State.on, State.on_put_apart _ _ _ _ (by decide) (by decide),
    State.on_put_same _ _ _ (by decide) rfl]

theorem State.pinsShown_outputs (s : State) (pins : SafePins) {n : Nat} (hn : n < 2) :
    (s.pinsShown pins).on (R.SO_STATUS_HS_RB n) = pins.readback.getLsbD (2 * n) ∧
      (s.pinsShown pins).on (R.SO_STATUS_FBK n) = pins.feedback.getLsbD n := by
  rw [State.pinsShown_eq]
  rcases (by omega : n = 0 ∨ n = 1) with rfl | rfl
  · rw [State.soPinsShown_apart _ pins 1 (by decide) (by decide) (by decide),
      State.soPinsShown_apart _ pins 1 (by decide) (by decide) (by decide)]
    exact State.soPinsShown_same _ pins 0
  · exact State.soPinsShown_same _ pins 1

theorem State.standstillNoted_rd (s : State) (g : Fld) : s.standstillNoted.rd g = s.rd g := rfl

theorem State.cycleStarts_rd (s : State) (pins : SafePins) (hg : near [] inputWord g = false) :
    (s.cycleStarts pins).rd g = (s.devRead.pinsShown pins).rd g := by
  rw [State.cycleStarts, State.standstillNoted_rd, State.inputsCycled_writes _ g hg]

/-- The set in force goes to the exchange area and is stored. -/
def State.exchanged (s : State) : State :=
  { s with isl := { s.isl with commit := none, area := some s.safeSet, stored := some s.safeSet } }

theorem State.exchanged_rd (s : State) (g : Fld) : s.exchanged.rd g = s.rd g := rfl

theorem State.exchanged_dev (s : State) : s.exchanged.isl.dev = s.isl.dev := rfl

/-- The state with a committed set in force, exchanged and stored. -/
def State.setCommitted (s : State) (l : List (Nat × Nat)) : State := ((s.takeSet l).put R.SAFE_LATCH_START true).exchanged

theorem State.applyCommit_eq (s : State) : s.applyCommit = match s.isl.commit with
    | none => s
    | some l => if (s.setCommitted l).ist = Is.wait then (s.setCommitted l).islandRun else s.setCommitted l := by
  unfold State.applyCommit State.setCommitted State.exchanged
  rfl

theorem State.setCommitted_rd (s : State) (l : List (Nat × Nat)) (g : Fld) :
    (s.setCommitted l).rd g = ((s.takeSet l).put R.SAFE_LATCH_START true).rd g :=
  State.exchanged_rd _ g

theorem State.setCommitted_apart (s : State) (l : List (Nat × Nat)) (hb : besideRws g = true) (hw : g.inWord = true)
    (hs : near setFlds (fun _ => false) g = false) : (s.setCommitted l).rd g = s.rd g := by
  rw [State.setCommitted_rd, State.rd_put_apart _ _ _ _ (by decide) ((within_setFlds (by decide)).2 g hs), State.takeSet_writes _ _ g hs,
    State.applySet_rd s l hb hw]

theorem State.applyCommit_rd (s : State) (hb : besideRws g = true) (hw : g.inWord = true) (hs : near setFlds (fun _ => false) g = false) :
    s.applyCommit.rd g = s.rd g := by
  rw [State.applyCommit_eq]
  split
  · rfl
  next l _ =>
    split
    · rw [State.islandRun_writes _ g hs, State.setCommitted_apart s l hb hw hs]
    · exact State.setCommitted_apart s l hb hw hs

/-! ### The STATE lines through a cycle -/

theorem State.siCycle_dev (s : State) (n : Nat) : (s.siCycle n).isl.dev = s.isl.dev := by
  unfold State.siCycle
  extract_lets k isl s₁ s₂
  have hk : Keeps [.regs] s₁ ((s₂.when (s₂.siTooLong n) fun s => s.put (R.SI_STATUS_DISC_FLT n) true).siDemand n) :=
    keeps_siDemand _ _ (by decide) (keeps_when _ _ (keeps_wr _ _ _ (by decide) (.refl _ _)) fun u hu => keeps_put _ _ _ (by decide) hu)
  rw [hk.1.2 .isl (by decide)]

theorem State.noteAgreement_dev (s : State) : s.noteAgreement.isl.dev = s.isl.dev :=
  State.forN_keeps (fun t => t.isl.dev = s.isl.dev) 9 _ (fun _ _ _ ht => ht) s rfl

theorem State.pinsShown_keeps (s : State) (pins : SafePins) : Keeps [.regs] s (s.pinsShown pins) :=
  keeps_forN 2 _ (keeps_wr _ _ _ (by decide) (keeps_put _ _ _ (by decide) (keeps_put _ _ _ (by decide) (.refl _ _)))) fun _ _ hu =>
    keeps_put _ _ _ (by decide) (keeps_put _ _ _ (by decide) (keeps_put _ _ _ (by decide) hu))

theorem State.standstillNoted_dev (s : State) : s.standstillNoted.isl.dev = s.isl.dev := rfl

theorem State.devRead_dev (s : State) : s.devRead.isl.dev = s.st := rfl

theorem State.cycleStarts_dev (s : State) (pins : SafePins) : (s.cycleStarts pins).isl.dev = s.st := by
  have h : (s.devRead.pinsShown pins).isl.dev = s.st := by
    rw [(s.devRead.pinsShown_keeps pins).1.2 .isl (by decide), State.devRead_dev]
  have hc : ((s.devRead.pinsShown pins).forN 8 fun n s => s.siCycle n).isl.dev = s.st :=
    State.forN_keeps (fun t => t.isl.dev = s.st) 8 _ (fun n _ t ht => (State.siCycle_dev t n).trans ht) _ h
  rw [State.cycleStarts, State.standstillNoted_dev, State.inputsCycled, State.noteAgreement_dev, hc]

theorem State.islandUpdate_dev (s : State) : s.islandUpdate.isl.dev = s.isl.dev := by
  obtain ⟨_, _, _, _, h⟩ := s.islandUpdate_shown
  rw [h]

theorem State.setConn_dev (s : State) (c : Nat) (x : ConnI) : (s.setConn c x).isl.dev = s.isl.dev := rfl

theorem State.connsSwitched_dev (s : State) : s.connsSwitched.isl.dev = s.isl.dev := by
  refine State.forN_keeps (fun t => t.isl.dev = s.isl.dev) 8 _ (fun c _ t ht => ?_) s rfl
  split
  · exact ht
  · split
    · exact ht
    · exact ht

theorem State.takeSet_dev (s : State) (l : List (Nat × Nat)) : (s.takeSet l).isl.dev = s.isl.dev := by
  have hk : Keeps [.regs] s (s.applySet l).setTaken :=
    keeps_put _ _ _ (by decide) (keeps_wr _ _ _ (by decide) (keeps_applySet _ _ (by decide) (.refl _ _)))
  rw [State.takeSet_eq, State.connsSwitched_dev, hk.1.2 .isl (by decide)]

theorem State.connsWait_dev (s : State) : s.connsWait.isl.dev = s.isl.dev :=
  State.forN_keeps (fun t => t.isl.dev = s.isl.dev) 8 _ (fun _ _ _ ht => by rw [State.setConn_dev, State.wr_isl, ht]) s rfl

theorem State.pressSticks_dev (s : State) : s.pressSticks.isl.dev = s.isl.dev := by
  unfold State.pressSticks
  generalize s.put R.SAFE_STATE_RST_STUCK true = u
  cases s.on R.SAFE_RST_PRESSED
  · rfl
  · rw [State.when_true]

theorem State.hoursStart_isl (s : State) : s.hoursStart.isl = s.isl := by
  rw [State.hoursStart, State.put_isl, State.put_isl, State.wr_isl]

theorem State.runStarts_isl (s : State) : s.runStarts.isl = s.isl := by
  rw [State.runStarts, State.put_isl, State.wr_isl]

theorem State.islandRun_dev (s : State) : s.islandRun.isl.dev = s.isl.dev := by
  rw [State.islandRun_eq, State.pressSticks_dev, State.hoursStart_isl, State.connsWait_dev, State.runStarts_isl]

theorem State.setCommitted_dev (s : State) (l : List (Nat × Nat)) : (s.setCommitted l).isl.dev = s.isl.dev := by
  rw [State.setCommitted, State.exchanged_dev, State.put_isl, State.takeSet_dev]

theorem State.applyCommit_dev (s : State) : s.applyCommit.isl.dev = s.isl.dev := by
  rw [State.applyCommit_eq]
  split
  · rfl
  next l _ =>
    split
    · rw [State.islandRun_dev, State.setCommitted_dev]
    · exact s.setCommitted_dev l

/-! ### The clauses -/

theorem reaches_next {t : State} {p : State → Prop} (h : p t) : Reaches (.next t) p := ⟨t, rfl, h⟩

theorem State.islandUp_false_of_ist (h2 : s.ist ≠ 2) (h3 : s.ist ≠ 3) : s.islandUp = false := by
  simp [State.islandUp, Is.wait, Is.run, h2, h3]

theorem State.on_wr_apart (s : State) (f : Fld) (v : Nat) (hf : f.inWord = true) (h : f.apart g = true) : (s.wr f v).on g = s.on g := by
  rw [State.on, State.rd_wr_apart s f g v hf h, State.on]

/-- An island that does not evaluate and energises nothing stays on the safe side in TEST. -/
theorem State.SafeSide.test (h : s.SafeSide) (h0 : s.ist = 0) : (s.wr R.SAFE_STATE_STATE Is.test).SafeSide := by
  obtain ⟨hso, hst, hup, hblock, hline⟩ := h
  obtain ⟨hsb, htrip⟩ := hup (State.islandUp_false_of_ist (by omega) (by omega))
  have hen : ∀ k, k < 2 → R.SAFE_STATE_STATE.apart (R.SO_STATUS_ENERGISED k) = true := by decide
  refine ⟨fun n hn he => ?_, fun _ => ?_, fun _ => ?_, ?_, ?_⟩
  · rw [State.on_wr_apart _ _ _ (by decide) (hen n hn)] at he
    exact absurd (h0.symm.trans (hso n hn he).1) (by decide)
  · rw [State.on_wr_apart _ _ _ (by decide) (by decide), State.on_wr_apart _ _ _ (by decide) (by decide)]
    exact hst htrip
  · rw [State.on_wr_apart _ _ _ (by decide) (by decide), State.on_wr_apart _ _ _ (by decide) (by decide)]
    exact ⟨hsb, htrip⟩
  · rw [State.on_wr_apart _ _ _ (by decide) (by decide), State.wr_sys, State.wr_isl]
    exact hblock
  · rw [State.on_wr_apart _ _ _ (by decide) (by decide), State.on_wr_apart _ _ _ (by decide) (by decide)]
    exact hline

theorem State.vddSafePowerOn_test (s : State) : (s.islandReset.wr R.SAFE_STATE_STATE Is.test).ist = 1 ∧
    (s.islandReset.wr R.SAFE_STATE_STATE Is.test).SafeSide ∧
    (s.islandReset.wr R.SAFE_STATE_STATE Is.test).on R.SAFE_STATE_SB = true ∧
    (s.islandReset.wr R.SAFE_STATE_STATE Is.test).on R.SAFE_STATE_PARAM_VALID = false := by
  have hsafe : s.islandReset.SafeSide := State.islandUpdate_safeSide _
  have h0 := s.islandReset_ist
  refine ⟨State.rd_wr_same _ _ _ (by decide), hsafe.test h0, ?_, ?_⟩
  · rw [State.on_wr_apart _ _ _ (by decide) (by decide)]
    exact (hsafe.2.2.1 (State.islandUp_false_of_ist (by omega) (by omega))).1
  · rw [State.on_wr_apart _ _ _ (by decide) (by decide), State.islandReset, (State.islandUpdate_writes _).on (by decide), State.on,
      State.islandClear_rd s (by decide) (by decide)]
    decide +kernel

/-- While the monitor of R370 holds, no switch is driven. -/
theorem State.islandUpdate_monitor_off (hm : s.isl.monitor = true) {n : Nat} (hn : n < 2) :
    s.islandUpdate.on (R.SO_STATUS_ENERGISED n) = false ∧ s.islandUpdate.on (R.SO_STATUS_HS_DRV n) = false ∧
      s.islandUpdate.on (R.SO_STATUS_LS_DRV n) = false := by
  have hb : (s.beforeSo n).isl.monitor = true := (s.beforeSo_monitor n).trans hm
  have hw : (s.beforeSo n).soWanted n = false := by simp [State.soWanted, hb]
  obtain ⟨hhs, hls⟩ := (s.beforeSo n).driveSo_switches n (.inl (by simp [hb]))
  have ha : ∀ k, k < 2 → ∀ g ∈ switchFlds k, 0x41000000 ≤ g.addr ∧ g.addr < 0x41100000 := by decide
  have hon : ∀ g ∈ switchFlds n, s.islandUpdate.on g = ((s.beforeSo n).driveSo n).on g := fun g hg => by
    obtain ⟨h0, h1⟩ := ha n hn g hg
    rw [State.islandUpdate_on_done s h0 h1, State.on, State.functionsDone_switches s hn hg, State.on]
  rw [hon _ (by simp [switchFlds]), hon _ (by simp [switchFlds]), hon _ (by simp [switchFlds]), State.driveSo_energised, hhs, hls]
  exact ⟨hw, hw, hw⟩

/-- The monitor of R370 holds. -/
def State.monitorHeld (s : State) : State := { s with isl := { s.isl with monitor := true } }

theorem exec_safeMonitorTrip (s : State) : exec .safeMonitorTrip s = .next s.monitorHeld.islandUpdate := rfl

/-- The measured deviation shown. -/
def State.deviationShown (s : State) (dev : Nat) : State := (s.wr R.SAFE_DIAG_OSC_DEV dev).put R.SAFE_DIAG_REF_ABSENT false

theorem State.causesAre_ist (s : State) (b : Bool) : (s.causesAre [(107, b)]).ist = s.ist :=
  (State.causesAre_reacts s _ (by simp)).writes _ (by decide)

theorem execIslandOscDeviation_halts {dev : BitVec 8} (h0 : s.ist ≠ 0) (hd : 20 < (toSigned 8 dev.toNat).natAbs) :
    exec (.islandOscDeviation false dev) s =
      .next (((s.deviationShown dev.toNat).causesAre [(107, decide (10 < (toSigned 8 dev.toNat).natAbs))]).islandHalt 5) := by
  have he : exec (.islandOscDeviation false dev) s = execIslandOscDeviation false dev s := rfl
  have hr : ¬s.ist = Is.reset := h0
  rw [he, execIslandOscDeviation, if_neg hr, if_neg (by decide)]
  dsimp only
  rw [decide_eq_true hd, State.when_true]
  rfl

theorem State.deviationShown_ist (s : State) (dev : Nat) : (s.deviationShown dev).ist = s.ist := by
  rw [State.ist, State.deviationShown, State.rd_put_apart _ _ _ _ (by decide) (by decide), State.rd_wr_apart _ _ _ _ (by decide) (by decide),
    State.ist]

/-- A deviation above 2 % halts and shows (R370). -/
theorem State.deviation_halts {dev : BitVec 8} {b : Bool} (h0 : s.ist ≠ 0) (h4 : s.ist ≠ 4) :
    (((s.deviationShown dev.toNat).causesAre [(107, b)]).islandHalt 5).ist = 4 ∧
      (((s.deviationShown dev.toNat).causesAre [(107, b)]).islandHalt 5).rd R.SAFE_STATE_HALT_CAUSE = 5 ∧
      (((s.deviationShown dev.toNat).causesAre [(107, b)]).islandHalt 5).SafeSide ∧
      (((s.deviationShown dev.toNat).causesAre [(107, b)]).islandHalt 5).rd R.SAFE_DIAG_OSC_DEV = dev.toNat := by
  have hist : ((s.deviationShown dev.toNat).causesAre [(107, b)]).ist = s.ist := by rw [State.causesAre_ist, State.deviationShown_ist]
  obtain ⟨h1, h2, h3⟩ := State.islandHalt_halts (cause := 5) (hist ▸ h0) (hist ▸ h4) (by decide)
  refine ⟨h1, h2, h3, ?_⟩
  rw [State.islandHalt_rd (hist ▸ h0) (hist ▸ h4) (by decide) (by decide) (by decide) (by decide),
    (State.causesAre_reacts _ _ (by simp)).writes _ (by decide), State.deviationShown, State.rd_put_apart _ _ _ _ (by decide) (by decide),
    State.rd_wr_same _ _ _ (by decide)]
  exact Nat.mod_eq_of_lt dev.isLt

theorem exec_islandOscDeviation_absent (dev : BitVec 8) (h3 : s.ist = 3) :
    exec (.islandOscDeviation true dev) s = .next ((s.put R.SAFE_DIAG_REF_ABSENT true).causesAre [(107, true)]) := by
  have he : exec (.islandOscDeviation true dev) s = execIslandOscDeviation true dev s := rfl
  have hr : ¬s.ist = Is.reset := by rw [h3]; decide
  rw [he, execIslandOscDeviation, if_neg hr, if_pos rfl]

theorem exec_islandTestEnd (h1 : s.ist = 1) (hrst : s.sys.rstHigh = true) (fails : BitVec 6) : exec (.islandTestEnd fails) s =
    .next (if fails = 0 then ((s.wr R.SAFE_STATE_STATE Is.test).wr R.SAFE_STATE_STATE Is.wait).islandUpdate
      else (s.wr R.SAFE_STATE_STATE Is.test).islandHalt 1) := by
  have he : exec (.islandTestEnd fails) s = execIslandTestEnd fails s := rfl
  have ht : s.ist = Is.test := h1
  rw [he, execIslandTestEnd, if_pos ⟨hrst, .inl ht⟩]
  rfl

theorem exec_paramSetPoll_some (h2 : s.ist = 2) (l : List ParamWord) :
    exec (.paramSetPoll (some l)) s = .next (s.loadSet (l.map fun e => (e.1.toNat, e.2.toNat))) := by
  have he : exec (.paramSetPoll (some l)) s = execParamSetPoll (some l) s := rfl
  have hw : s.ist = Is.wait := h2
  rw [he, execParamSetPoll, if_pos hw]
  rfl

/-- What a cycle shows of a pin stands to its end. -/
theorem State.cycle_on (s : State) (pins : SafePins) (h1 : near [] inputWord g = false) (h2 : byIsland g = false)
    (hb : besideRws g = true) (hw : g.inWord = true) (hs : near setFlds (fun _ => false) g = false) :
    ((s.cycleStarts pins).islandUpdate.applyCommit.islandUpdate).on g = (s.devRead.pinsShown pins).on g := by
  rw [State.on, State.islandUpdate_writes _ g h2, State.applyCommit_rd _ hb hw hs, State.islandUpdate_writes _ g h2,
    State.cycleStarts_rd s pins h1, State.on]

/-- Settles O41: bringing the island up to date always ends on the safe side, and each event fixes the state before it. -/
theorem islandStatesAreSafe : Obligations.IslandStatesAreSafe := by
  refine ⟨fun s hrst => ?_, fun s fails hrst h1 hf => ?_, fun s fails hrst h1 hf => ?_, fun s h0 h4 => ?_, fun s h0 h4 => ?_,
    fun s corrected h0 h4 hc => ?_, fun s corrected hc => ?_, fun s dev h0 h4 hd => ?_, fun s dev h3 => ?_, fun s _ => ?_,
    fun s set h2 hset => ?_, fun s pins hup => ?_⟩
  · have he : exec .vddSafePowerOn s = .next (s.islandReset.when s.sys.rstHigh fun s => s.wr R.SAFE_STATE_STATE Is.test) := rfl
    rw [he, hrst, State.when_true]
    exact reaches_next s.vddSafePowerOn_test
  · rw [exec_islandTestEnd h1 hrst, if_pos hf]
    refine reaches_next ⟨?_, State.islandUpdate_safeSide _⟩
    rw [State.islandUpdate_ist]
    exact State.rd_wr_same _ _ _ (by decide)
  · have ht : (s.wr R.SAFE_STATE_STATE Is.test).ist = 1 := State.rd_wr_same _ _ _ (by decide)
    rw [exec_islandTestEnd h1 hrst, if_neg hf]
    exact reaches_next (State.islandHalt_halts (by rw [ht]; decide) (by rw [ht]; decide) (by decide))
  · exact reaches_next (State.islandHalt_halts h0 h4 (by decide))
  · exact reaches_next (State.islandHalt_halts h0 h4 (by decide))
  · subst hc
    exact reaches_next (State.islandHalt_halts h0 h4 (by decide))
  · subst hc
    rfl
  · rw [execIslandOscDeviation_halts h0 hd]
    exact reaches_next (State.deviation_halts h0 h4)
  · have hr := (State.causesAre_reacts (s.put R.SAFE_DIAG_REF_ABSENT true) [(107, true)] (by simp)).writes
    rw [exec_islandOscDeviation_absent dev h3]
    refine reaches_next ⟨?_, ?_, ?_⟩
    · rw [State.causesAre_ist, State.ist, State.rd_put_apart _ _ _ _ (by decide) (by decide)]
      exact h3
    · rw [hr.on (by decide)]
      exact State.on_put_same _ _ _ (by decide) rfl
    · rw [hr _ (by decide), State.rd_put_apart _ _ _ _ (by decide) (by decide)]
  · rw [exec_safeMonitorTrip]
    exact reaches_next ⟨by rw [State.islandUpdate_hardBlock, Bool.or_eq_true]; exact .inr rfl, State.islandUpdate_safeSide _,
      fun n hn => State.islandUpdate_monitor_off rfl hn⟩
  · obtain ⟨l, rfl⟩ := Option.ne_none_iff_exists'.1 hset
    rw [exec_paramSetPoll_some h2]
    exact reaches_next ⟨s.loadSet_ist _, s.loadSet_valid _, s.loadSet_start _, State.islandUpdate_safeSide _, s.loadSet_trip _, s.loadSet_crc _⟩
  · have he : exec (.islandCycle pins) s = execIslandCycle pins s := rfl
    rw [he, execIslandCycle_eq s pins hup]
    refine reaches_next ⟨State.islandUpdate_safeSide _, ?_, ?_, fun n hn => ?_⟩
    · rw [State.islandUpdate_dev, State.applyCommit_dev, State.islandUpdate_dev, State.cycleStarts_dev]
    · rw [s.cycle_on pins (by decide) (by decide) (by decide +kernel) (by decide) (by decide), State.pinsShown_mate]
    · have hfree : ∀ k, k < 2 → ∀ g ∈ [R.SO_STATUS_HS_RB k, R.SO_STATUS_FBK k], near [] inputWord g = false ∧ byIsland g = false ∧
          besideRws g = true ∧ g.inWord = true ∧ near setFlds (fun _ => false) g = false := by decide +kernel
      obtain ⟨a1, a2, a3, a4, a5⟩ := hfree n hn _ (by simp : R.SO_STATUS_HS_RB n ∈ _)
      obtain ⟨b1, b2, b3, b4, b5⟩ := hfree n hn _ (by simp : R.SO_STATUS_FBK n ∈ _)
      rw [s.cycle_on pins a1 a2 a3 a4 a5, s.cycle_on pins b1 b2 b3 b4 b5]
      exact State.pinsShown_outputs _ pins hn

end Sys2Proof.Machine
end

section
/-! The demand table and the latches that an update of the island shows, and one safe input (R374 to R376, R389). -/

namespace Sys2Proof.Machine

variable {s t : State} {g : Fld}

/-! ### Loops -/

theorem State.forN_succ (s : State) (n : Nat) (f : Nat → State → State) : s.forN (n + 1) f = f n (s.forN n f) := by
  rw [State.forN, State.forN, upto, upto, List.range_succ, List.foldl_append]
  rfl

/-- In a loop, what one turn brings about stays where the later turns leave it alone. -/
theorem State.forN_turn (A B : State → Prop) {n i : Nat} {f : Nat → State → State} (hi : i < n)
    (before : ∀ j, j < i → ∀ t, A t → A (f j t)) (turn : ∀ t, A t → B (f i t)) (after : ∀ j, i < j → j < n → ∀ t, B t → B (f j t))
    (hs : A s) : B (s.forN n f) := by
  induction n with
  | zero => exact absurd hi (Nat.not_lt_zero i)
  | succ n ih =>
    rw [State.forN_succ]
    rcases Nat.lt_or_eq_of_le (Nat.le_of_lt_succ hi) with h | rfl
    · exact after n h (Nat.lt_succ_self n) _ (ih h fun j hj hn => after j hj (Nat.lt_succ_of_lt hn))
    · exact turn _ (State.forN_keeps A i f (fun j hj t ht => before j hj t ht) s hs)

/-! ### The demand table -/

/-- The sources of the demand table beside the mate link (R389). -/
def State.demands (s : State) : List Fn :=
  (upto 8).map s.siFn ++ (upto 8).map s.connFn ++ (upto 2).map s.soFn ++
    [if s.on R.SAFE_LATCH_BT_FAIL then ⟨true, false, true⟩ else Fn.none,
     if s.noParam || s.on R.SAFE_LATCH_START then Fn.all else Fn.none]

theorem State.ownFn_eq (s : State) : s.ownFn = s.demands.foldl Fn.join Fn.none := rfl

/-- A function that some source demands is among those of all. -/
theorem foldl_join_of_mem {p : Fn → Bool} (hp : ∀ a b, p (a.join b) = (p a || p b)) {l : List Fn} {f : Fn} (hf : f ∈ l) (h : p f = true)
    (a : Fn) : p (l.foldl Fn.join a) = true := by
  have hkeep : ∀ (l : List Fn) (a : Fn), p a = true → p (l.foldl Fn.join a) = true := by
    intro l
    induction l with
    | nil => exact fun _ h => h
    | cons b l ih => exact fun a ha => ih _ (by rw [hp, ha, Bool.true_or])
  induction l generalizing a with
  | nil => cases hf
  | cons b l ih =>
    rcases List.mem_cons.1 hf with rfl | hf
    · exact hkeep l _ (by rw [hp, h, Bool.or_true])
    · exact ih hf _

/-- What acts is at least what a source demands. -/
theorem State.actingFn_of_demand {f : Fn} (hf : f ∈ s.demands) : (f.sb = true → s.actingFn.sb = true) ∧ (f.st = true → s.actingFn.st = true) ∧
    (f.sbc = true → s.actingFn.sbc = true) := by
  have hown : ∀ {p : Fn → Bool}, (∀ a b, p (a.join b) = (p a || p b)) → p f = true → p (s.ownFn.join s.mateFn) = true := by
    intro p hp h
    rw [hp, State.ownFn_eq, foldl_join_of_mem hp hf h, Bool.true_or]
  unfold State.actingFn
  split
  · refine ⟨fun h => ?_, fun h => ?_, fun h => ?_⟩
    · simp [State.closeFn, hown (p := Fn.sb) (fun _ _ => rfl) h]
    · simp [State.closeFn, hown (p := Fn.st) (fun _ _ => rfl) h]
    · simp [State.closeFn, hown (p := Fn.sbc) (fun _ _ => rfl) h]
  · exact ⟨fun _ => rfl, fun _ => rfl, fun _ => rfl⟩

theorem State.siFn_mem (s : State) {n : Nat} (hn : n < 8) : s.siFn n ∈ s.demands := by
  simp only [State.demands, List.mem_append, List.mem_map]
  exact .inl (.inl (.inl ⟨n, List.mem_range.2 hn, rfl⟩))

theorem State.soFn_mem (s : State) {n : Nat} (hn : n < 2) : s.soFn n ∈ s.demands := by
  simp only [State.demands, List.mem_append, List.mem_map]
  exact .inl (.inr ⟨n, List.mem_range.2 hn, rfl⟩)

theorem State.btFn_mem (s : State) : (if s.on R.SAFE_LATCH_BT_FAIL then ⟨true, false, true⟩ else Fn.none) ∈ s.demands := by
  simp [State.demands]

/-! ### The latches shown -/

/-- A sum of distinct powers of two has the bits it was made of. -/
theorem bitOf_sumOf_pow (f : Nat → Bool) {n : Nat} (hn : n < 8) :
    bitOf (sumOf ((upto 8).map fun n => if f n then 2 ^ n else 0) % 2 ^ 8) n = f n := by
  have hall : ∀ b0 b1 b2 b3 b4 b5 b6 b7 : Bool, ∀ k, k < 8 →
      bitOf (sumOf [if b0 then 2 ^ 0 else 0, if b1 then 2 ^ 1 else 0, if b2 then 2 ^ 2 else 0, if b3 then 2 ^ 3 else 0,
        if b4 then 2 ^ 4 else 0, if b5 then 2 ^ 5 else 0, if b6 then 2 ^ 6 else 0, if b7 then 2 ^ 7 else 0] % 2 ^ 8) k =
        [b0, b1, b2, b3, b4, b5, b6, b7].getD k false := by decide +kernel
  have h := hall (f 0) (f 1) (f 2) (f 3) (f 4) (f 5) (f 6) (f 7) n hn
  have hd : [f 0, f 1, f 2, f 3, f 4, f 5, f 6, f 7].getD n false = f n := by
    have hm : [f 0, f 1, f 2, f 3, f 4, f 5, f 6, f 7] = (List.range 8).map f := rfl
    simp [hm, List.getD_eq_getElem?_getD, hn]
  exact h.trans hd

/-- An input shows as latched: a fault, or a demand that waits for a reset. -/
def State.siLatched (s : State) (n : Nat) : Bool := s.siFault n || (s.on (R.SI_STATUS_DEMAND n) && s.on (R.SI_CFG_RESTART n))

theorem State.siLatched_congr (h : State.Writes byIsland s t) {n : Nat} (hn : n < 8) : t.siLatched n = s.siLatched n := by
  have hf : ∀ g : Fld, g.addr = 0x41000104 + 0x10 * n ∨ g.addr = 0x41000100 + 0x10 * n → t.on g = s.on g := fun g hg =>
    h.on (byIsland_of_addr (by omega) (by omega) (by omega) (by omega))
  simp only [State.siLatched, State.siFault, hf _ (.inl rfl : (R.SI_STATUS_DISC_FLT n).addr = _ ∨ _),
    hf _ (.inl rfl : (R.SI_STATUS_STUCK_A n).addr = _ ∨ _), hf _ (.inl rfl : (R.SI_STATUS_STUCK_B n).addr = _ ∨ _),
    hf _ (.inl rfl : (R.SI_STATUS_XS_A n).addr = _ ∨ _), hf _ (.inl rfl : (R.SI_STATUS_XS_B n).addr = _ ∨ _),
    hf _ (.inl rfl : (R.SI_STATUS_TP_FLT n).addr = _ ∨ _), hf _ (.inl rfl : (R.SI_STATUS_DEMAND n).addr = _ ∨ _),
    hf _ (.inr rfl : (R.SI_CFG_RESTART n).addr = _ ∨ _)]

/-- The demands of the inputs shown. -/
def State.demandsShown (s : State) : State := s.wr R.SAFE_DEMAND_SI (sumOf ((upto 8).map fun n => if s.on (R.SI_STATUS_DEMAND n) then 2 ^ n else 0))

/-- The latches of the inputs shown. -/
def State.latchesShown (s : State) : State :=
  s.demandsShown.wr R.SAFE_LATCH_SI (sumOf ((upto 8).map fun n => if s.demandsShown.siLatched n then 2 ^ n else 0))

/-- The demands of the connections and of the mate link shown. -/
def State.mateShown (s : State) : State :=
  let s := s.wr R.SAFE_DEMAND_CONN (sumOf ((upto 8).map fun c => if (s.connFn c).any then 2 ^ c else 0))
  (s.put R.SAFE_DEMAND_MATE s.mateFn.sb).put R.SAFE_LATCH_MATE (s.on R.MATE_MATE_FLT)

/-- The other sources shown. -/
def State.restShown (s : State) : State :=
  let s := (s.put R.SAFE_DEMAND_SO0 (s.soFault 0)).put R.SAFE_LATCH_SO0 (s.soFault 0)
  let s := (s.put R.SAFE_DEMAND_SO1 (s.soFault 1)).put R.SAFE_LATCH_SO1 (s.soFault 1)
  let s := s.put R.SAFE_DEMAND_BT_FAIL (s.on R.SAFE_LATCH_BT_FAIL)
  let s := (s.put R.SAFE_DEMAND_NO_PARAM s.noParam).put R.SAFE_LATCH_NO_PARAM s.noParam
  s.put R.SAFE_DEMAND_START (s.on R.SAFE_LATCH_START)

theorem State.showSources_eq (s : State) : s.showSources = s.latchesShown.mateShown.restShown := by
  unfold State.showSources State.restShown State.mateShown State.latchesShown State.demandsShown State.siLatched
  rfl

/-- The fields of the last sources shown. -/
def restFlds : List Fld :=
  [R.SAFE_DEMAND_SO0, R.SAFE_LATCH_SO0, R.SAFE_DEMAND_SO1, R.SAFE_LATCH_SO1, R.SAFE_DEMAND_BT_FAIL, R.SAFE_DEMAND_NO_PARAM,
    R.SAFE_LATCH_NO_PARAM, R.SAFE_DEMAND_START]

theorem within_restFlds {f : Fld} (h : f ∈ restFlds) : f.Within (near restFlds fun _ => false) :=
  Fld.within_of_mem h ((by decide : ∀ f ∈ restFlds, f.inWord = true) f h)

theorem State.restShown_writes (s : State) : State.Writes (near restFlds fun _ => false) s s.restShown := by
  unfold State.restShown
  extract_lets s₁ s₂ s₃ s₄
  have h₁ : State.Writes (near restFlds fun _ => false) s s₁ :=
    ((State.Writes.refl _ s).put (within_restFlds (by decide)) _).put (within_restFlds (by decide)) _
  have h₂ : State.Writes (near restFlds fun _ => false) s s₂ := (h₁.put (within_restFlds (by decide)) _).put (within_restFlds (by decide)) _
  have h₃ : State.Writes (near restFlds fun _ => false) s s₃ := h₂.put (within_restFlds (by decide)) _
  have h₄ : State.Writes (near restFlds fun _ => false) s s₄ := (h₃.put (within_restFlds (by decide)) _).put (within_restFlds (by decide)) _
  exact h₄.put (within_restFlds (by decide)) _

theorem State.mateShown_rd (s : State) (h0 : R.SAFE_DEMAND_CONN.apart g = true) (h1 : R.SAFE_DEMAND_MATE.apart g = true)
    (h2 : R.SAFE_LATCH_MATE.apart g = true) : s.mateShown.rd g = s.rd g := by
  rw [State.mateShown, State.rd_put_apart _ _ _ _ (by decide) h2, State.rd_put_apart _ _ _ _ (by decide) h1,
    State.rd_wr_apart _ _ _ _ (by decide) h0]

theorem State.showFns_rd (s : State) (f : Fn) (h0 : R.SAFE_STATE_SB.apart g = true) (h1 : R.SAFE_STATE_ST.apart g = true)
    (h2 : R.SAFE_STATE_SBC.apart g = true) : (s.showFns f).rd g = s.showSources.rd g := by
  rw [State.showFns, State.rd_put_apart _ _ _ _ (by decide) h2, State.rd_put_apart _ _ _ _ (by decide) h1,
    State.rd_put_apart _ _ _ _ (by decide) h0]

/-- A source shown reads after the update as it was shown. -/
theorem State.islandUpdate_shown_rd (s : State) (h0 : 0x41000004 ≤ g.addr) (h1 : g.addr < 0x4100000C)
    (hd : near driveFlds (fun _ => false) g = false) (hr : near restFlds (fun _ => false) g = false) :
    s.islandUpdate.rd g = s.noteFns.latchesShown.mateShown.rd g := by
  have ha : ∀ f : Fld, f.addr = 0x41000000 → f.apart g = true := fun f hf => Fld.apart_of_addr (by omega)
  rw [State.islandUpdate_rd_done s (by omega) (by omega), s.functionsDone_drives g hd, State.showFns_rd _ _ (ha _ rfl) (ha _ rfl) (ha _ rfl),
    State.showSources_eq, State.restShown_writes _ g hr]

theorem State.noteFns_on (s : State) (g : Fld) : s.noteFns.on g = s.on g := rfl

theorem State.noteFns_siLatched (s : State) (n : Nat) : s.noteFns.siLatched n = s.siLatched n := rfl

/-- The latches of the inputs after an update (R375). -/
theorem State.islandUpdate_latchSi (s : State) {n : Nat} (hn : n < 8) : s.islandUpdate.bit R.SAFE_LATCH_SI n = s.siLatched n := by
  have hl : s.noteFns.demandsShown.siLatched n = s.noteFns.siLatched n :=
    State.siLatched_congr ((State.Writes.refl byIsland _).wr (within_byIsland (by decide)) _) hn
  rw [State.bit, State.islandUpdate_shown_rd s (by decide) (by decide) (by decide) (by decide),
    State.mateShown_rd _ (by decide) (by decide) (by decide), State.latchesShown, State.rd_wr_same _ _ _ (by decide)]
  exact (bitOf_sumOf_pow _ hn).trans (hl.trans (s.noteFns_siLatched n))

theorem State.latchesShown_writes (s : State) : State.Writes byIsland s s.latchesShown :=
  ((State.Writes.refl _ s).wr (f := R.SAFE_DEMAND_SI) (within_byIsland (by decide)) _).wr (f := R.SAFE_LATCH_SI)
    (within_byIsland (by decide)) _

/-- The demand and the latch of the mate link after an update (R395). -/
theorem State.islandUpdate_mate (s : State) : s.islandUpdate.on R.SAFE_DEMAND_MATE = s.mateFn.sb ∧
    s.islandUpdate.on R.SAFE_LATCH_MATE = s.on R.MATE_MATE_FLT := by
  have hw : State.Writes byIsland s.noteFns (s.noteFns.latchesShown.wr R.SAFE_DEMAND_CONN
      (sumOf ((upto 8).map fun c => if (s.noteFns.latchesShown.connFn c).any then 2 ^ c else 0))) :=
    (State.latchesShown_writes _).wr (within_byIsland (by decide)) _
  constructor
  · rw [State.on, State.islandUpdate_shown_rd s (by decide) (by decide) (by decide) (by decide), State.mateShown,
      State.rd_put_apart _ _ _ _ (by decide) (by decide), ← State.on, State.on_put_same _ _ _ (by decide) rfl, State.mateFn, hw.on (by decide),
      hw.on (by decide), hw.on (by decide), hw.on (by decide)]
    rfl
  · rw [State.on, State.islandUpdate_shown_rd s (by decide) (by decide) (by decide) (by decide), State.mateShown, ← State.on,
      State.on_put_same _ _ _ (by decide) rfl, hw.on (by decide), State.noteFns_on]

end Sys2Proof.Machine
end

section
/-! O42: safe inputs, their test pulses, and the monitored reset (R374 to R383). -/

namespace Sys2Proof.Machine

variable {s t : State} {g : Fld} {n : Nat}

/-! ### One input -/

/-- The level fields of an input's channels. -/
def siLevel (n : Nat) (b : Bool) : Fld := if b then R.SI_STATUS_LVL_B n else R.SI_STATUS_LVL_A n

theorem siLevel_inWord (n : Nat) (b : Bool) : (siLevel n b).inWord = true := by cases b <;> rfl

theorem siLevel_apart (n : Nat) (b : Bool) : (siLevel n b).apart (siLevel n (!b)) = true := by
  cases b <;> simp [siLevel, Fld.apart, R.SI_STATUS_LVL_A, R.SI_STATUS_LVL_B]

theorem State.noteAgreement_on (s : State) (g : Fld) : s.noteAgreement.on g = s.on g := by
  rw [State.on, State.on, State.rd_congr _ _ ((keeps_noteAgreement (F := [.isl]) (z := s) s (by decide) (.refl _ _)).1.2 .regs (by decide))]

theorem exec_safeInputFilter (n : Fin 8) (b level : Bool) (hup : s.islandUp = true) (hh : s.siHeld n b = false) :
    exec (.safeInputFilter n b level) s = .next (s.put (siLevel n b) level).noteAgreement := by
  have he : exec (.safeInputFilter n b level) s = execSafeInputFilter n b level s := rfl
  rw [he, execSafeInputFilter, if_neg (by simp [hup, hh])]
  rfl

theorem exec_safeInputFilter_held (n : Fin 8) (b level : Bool) (hh : s.siHeld n b = true) :
    exec (.safeInputFilter n b level) s = .next s := by
  have he : exec (.safeInputFilter n b level) s = execSafeInputFilter n b level s := rfl
  rw [he, execSafeInputFilter, if_pos (by simp [hh])]

theorem State.siDemand_on (s : State) {m : Nat} (h0 : (R.SI_STATUS_DEMAND m).apart g = true) (h1 : (R.SI_STATUS_WAIT_RST m).apart g = true) :
    (s.siDemand m).on g = s.on g := by
  rw [State.siDemand, State.on_put_apart _ _ _ _ rfl h1, State.on_put_apart _ _ _ _ rfl h0]

theorem State.siDemand_rd (s : State) {m : Nat} (h0 : (R.SI_STATUS_DEMAND m).apart g = true) (h1 : (R.SI_STATUS_WAIT_RST m).apart g = true) :
    (s.siDemand m).rd g = s.rd g := by
  rw [State.siDemand, State.rd_put_apart _ _ _ _ rfl h1, State.rd_put_apart _ _ _ _ rfl h0]

/-- A faulty input demands (R375). -/
theorem State.siDemand_of_fault (h : s.siFault n = true) : (s.siDemand n).on (R.SI_STATUS_DEMAND n) = true := by
  rw [State.siDemand, State.on_put_apart _ _ _ _ rfl (by simp [Fld.apart, R.SI_STATUS_WAIT_RST, R.SI_STATUS_DEMAND]),
    State.on_put_same _ _ _ rfl rfl, h, Bool.or_true, Bool.true_or]

/-- A fault of an input shown after an update: it demands and latches, and so do the functions it is mapped to. -/
theorem State.islandUpdate_siFault (hn : n < 8) (hf : s.siFault n = true) (hd : s.on (R.SI_STATUS_DEMAND n) = true) :
    s.islandUpdate.on (R.SI_STATUS_DEMAND n) = true ∧ s.islandUpdate.bit R.SAFE_LATCH_SI n = true ∧
      (s.on (R.SI_CFG_MAP_SB n) = true → s.islandUpdate.on R.SAFE_STATE_SB = true) := by
  refine ⟨?_, ?_, fun hm => ?_⟩
  · rw [(State.islandUpdate_writes s).on (byIsland_of_addr (by dsimp only [R.SI_STATUS_DEMAND]; omega)
      (by dsimp only [R.SI_STATUS_DEMAND]; omega) (by dsimp only [R.SI_STATUS_DEMAND]; omega) (by dsimp only [R.SI_STATUS_DEMAND]; omega))]
    exact hd
  · rw [State.islandUpdate_latchSi s hn, State.siLatched, hf, Bool.true_or]
  · rw [(State.islandUpdate_fns s).1]
    exact (State.actingFn_of_demand (s.siFn_mem hn)).1 (by rw [State.siFn, if_pos hd]; exact hm)

/-- A field of an input's status or configuration reads after an update as before. -/
theorem State.islandUpdate_on_input (s : State) (h : 0x41000100 ≤ g.addr) (h' : g.addr < 0x41000200) : s.islandUpdate.on g = s.on g :=
  (State.islandUpdate_writes s).on (byIsland_of_addr (by omega) (by omega) (by omega) (by omega))

theorem State.islandUpdate_rd_input (s : State) (h : 0x41000100 ≤ g.addr) (h' : g.addr < 0x41000200) : s.islandUpdate.rd g = s.rd g :=
  State.islandUpdate_writes s g (byIsland_of_addr (by omega) (by omega) (by omega) (by omega))

/-! ### Disagreement -/

theorem exec_discrepancyFault (n : Fin 8) (hup : s.islandUp = true) (hl : s.rd (R.SI_CFG_DISC n) * 20 < mapGet (fun _ => 0) s.isl.disc n) :
    exec (.discrepancyFault n) s = .next ((s.put (R.SI_STATUS_DISC_FLT n) true).siDemand n).islandUpdate := by
  have he : exec (.discrepancyFault n) s = execDiscrepancyFault n s := rfl
  rw [he, execDiscrepancyFault, if_pos (by simp [hup, State.siTooLong, hl])]

theorem siStatus_apart {f g : Fld} (ha : f.addr = 0x41000104 + 0x10 * n) (hb : ∃ m, g.addr = 0x41000104 + 0x10 * m)
    (h : f.lo + f.width ≤ g.lo ∨ g.lo + g.width ≤ f.lo) : f.apart g = true := by
  simp only [Fld.apart, Bool.or_eq_true, decide_eq_true_eq]
  rcases h with h | h
  · exact .inl (.inr h)
  · exact .inr h

/-- Setting a fault of an input and letting its demand follow. -/
theorem State.siFault_demands {f : Fld} (hf : f ∈ [R.SI_STATUS_DISC_FLT n, R.SI_STATUS_STUCK_A n, R.SI_STATUS_STUCK_B n, R.SI_STATUS_XS_A n,
    R.SI_STATUS_XS_B n, R.SI_STATUS_TP_FLT n]) (hs : s.on f = true) :
    s.siFault n = true ∧ (s.siDemand n).on f = true ∧ (s.siDemand n).siFault n = true ∧
      (s.siDemand n).on (R.SI_STATUS_DEMAND n) = true := by
  have hfault : ∀ t : State, t.on f = true → t.siFault n = true := by
    intro t ht
    simp only [List.mem_cons, List.not_mem_nil, or_false] at hf
    rcases hf with rfl | rfl | rfl | rfl | rfl | rfl <;> simp [State.siFault, ht]
  have hkeep : (s.siDemand n).on f = true := by
    have ha : (R.SI_STATUS_DEMAND n).apart f = true ∧ (R.SI_STATUS_WAIT_RST n).apart f = true := by
      simp only [List.mem_cons, List.not_mem_nil, or_false] at hf
      rcases hf with rfl | rfl | rfl | rfl | rfl | rfl <;>
        simp [Fld.apart, R.SI_STATUS_DEMAND, R.SI_STATUS_WAIT_RST, R.SI_STATUS_DISC_FLT, R.SI_STATUS_STUCK_A, R.SI_STATUS_STUCK_B,
          R.SI_STATUS_XS_A, R.SI_STATUS_XS_B, R.SI_STATUS_TP_FLT]
    rw [State.siDemand_on _ ha.1 ha.2, hs]
  exact ⟨hfault s hs, hkeep, hfault _ hkeep, State.siDemand_of_fault (hfault s hs)⟩

/-! ### Test pulses -/

/-- The stuck flag of channel `k % 2` of input `k / 2`. -/
def stuckFld (k : Nat) : Fld := if k % 2 == 1 then R.SI_STATUS_STUCK_B (k / 2) else R.SI_STATUS_STUCK_A (k / 2)

/-- The cross-short flag of the channel, and the field of its test pulse. -/
def crossFld (k : Nat) : Fld := if k % 2 == 1 then R.SI_STATUS_XS_B (k / 2) else R.SI_STATUS_XS_A (k / 2)

def crossTpFld (k : Nat) : Fld := if k % 2 == 1 then R.SI_STATUS_XS_TP_B (k / 2) else R.SI_STATUS_XS_TP_A (k / 2)

/-- A failed check of input `n` counts in the present blotter cycle. -/
def State.noteBad (s : State) (n : Nat) : State := { s with isl := { s.isl with badNow := Machine.putBit s.isl.badNow n true } }

theorem State.noteBad_on (s : State) (n : Nat) (g : Fld) : (s.noteBad n).on g = s.on g := rfl

theorem State.noteBad_rd (s : State) (n : Nat) (g : Fld) : (s.noteBad n).rd g = s.rd g := rfl

theorem State.noteBad_excl (s : State) (n : Nat) : (s.noteBad n).isl.excl = s.isl.excl := rfl

/-- A channel that reads low under another pulse is looked at again. -/
def State.noteLow (s : State) (k : Nat) : State := { s with isl := { s.isl with low := Machine.putBit s.isl.low k true } }

theorem State.noteLow_on (s : State) (k : Nat) (g : Fld) : (s.noteLow k).on g = s.on g := rfl

/-- The check of one channel (R379). -/
def State.checkChannel (s : State) (tp : Fin 4) (x : BitVec 16) (k : Nat) : State :=
  match s.siTp (k / 2) (k % 2 == 1) with
  | none => s
  | some t =>
    if !bitOf s.isl.pre k then s
    else if t = tp.val then
      s.when (x.getLsbD k) fun s => ((s.put (stuckFld k) true).noteBad (k / 2)).siDemand (k / 2)
    else if x.getLsbD k then s
    else s.noteLow k

theorem exec_testPulseCheck (tp : Fin 4) (x : BitVec 16) (hup : s.islandUp = true) :
    exec (.testPulseCheck tp x) s = .next (s.forN 16 fun k s => s.checkChannel tp x k).islandUpdate := by
  have he : exec (.testPulseCheck tp x) s = execTestPulseCheck tp x s := rfl
  unfold State.checkChannel State.noteBad State.noteLow stuckFld
  rw [he, execTestPulseCheck, if_neg (by simp [hup])] <;> rfl

/-- The settling check of one channel. -/
def State.settleChannel (s : State) (tp : Fin 4) (x : BitVec 16) (low k : Nat) : State :=
  s.when (bitOf low k && x.getLsbD k) fun s =>
    (((s.put (crossFld k) true).wr (crossTpFld k) tp).noteBad (k / 2)).siDemand (k / 2)

/-- The window of a test pulse closes. -/
def State.windowClosed (s : State) (tp : Nat) : State := { s with isl := { s.isl with excl := Machine.putBit s.isl.excl tp false, low := 0 } }

theorem exec_testPulseSettleCheck (tp : Fin 4) (x : BitVec 16) (hup : s.islandUp = true) :
    exec (.testPulseSettleCheck tp x) s =
      .next ((s.windowClosed tp).forN 16 fun k t => t.settleChannel tp x s.isl.low k).islandUpdate := by
  have he : exec (.testPulseSettleCheck tp x) s = execTestPulseSettleCheck tp x s := rfl
  unfold State.settleChannel State.windowClosed State.noteBad crossFld crossTpFld
  rw [he, execTestPulseSettleCheck, if_neg (by simp [hup])]

/-- The faults of an input. -/
def siFaultFlds (n : Nat) : List Fld := [R.SI_STATUS_DISC_FLT n, R.SI_STATUS_STUCK_A n, R.SI_STATUS_STUCK_B n, R.SI_STATUS_XS_A n,
    R.SI_STATUS_XS_B n, R.SI_STATUS_TP_FLT n]

/-- A fault of input `n` stands and the input demands. -/
def State.Faulty (s : State) (n : Nat) (f : Fld) : Prop := s.on f = true ∧ s.on (R.SI_STATUS_DEMAND n) = true

/-- The bits of an input's status that a check sets. -/
theorem siFaultFlds_mem {f : Fld} (hf : f ∈ siFaultFlds n) : f.addr = 0x41000104 + 0x10 * n ∧ f.width = 1 ∧ f.inWord = true ∧
    (f.lo = 4 ∨ f.lo = 5 ∨ f.lo = 6 ∨ f.lo = 7 ∨ f.lo = 8 ∨ f.lo = 13) := by
  simp only [siFaultFlds, List.mem_cons, List.not_mem_nil, or_false] at hf
  rcases hf with rfl | rfl | rfl | rfl | rfl | rfl <;>
    simp [R.SI_STATUS_DISC_FLT, R.SI_STATUS_STUCK_A, R.SI_STATUS_STUCK_B, R.SI_STATUS_XS_A, R.SI_STATUS_XS_B, R.SI_STATUS_TP_FLT, Fld.inWord]

theorem Fld.apart_of_lo {f : Fld} (h : f.lo + f.width ≤ g.lo ∨ g.lo + g.width ≤ f.lo) : f.apart g = true := by
  simp only [Fld.apart, Bool.or_eq_true, decide_eq_true_eq]
  rcases h with h | h
  · exact .inl (.inr h)
  · exact .inr h

/-- A fault that stands still stands when faults are set or demands follow. -/
theorem State.Faulty.put {f f' : Fld} {m : Nat} (h : s.Faulty n f) (hf : f ∈ siFaultFlds n) (hf' : f' ∈ siFaultFlds m) :
    (s.put f' true).Faulty n f := by
  obtain ⟨ha, hw, -, hlo⟩ := siFaultFlds_mem hf
  obtain ⟨ha', hw', hin', hlo'⟩ := siFaultFlds_mem hf'
  refine ⟨?_, ?_⟩
  · by_cases he : f' = f
    · rw [he] at hw' hin' ⊢
      exact State.on_put_same _ _ _ hin' hw'
    · have hap : f'.apart f = true := by
        by_cases hadr : f'.addr = f.addr
        · refine Fld.apart_of_lo ?_
          have hlo2 : f'.lo ≠ f.lo := fun hl => he (by
            cases f
            cases f'
            simp_all)
          omega
        · exact Fld.apart_of_addr fun h => hadr h.symm
      rw [State.on_put_apart _ _ _ _ hin' hap]
      exact h.1
  · rw [State.on_put_apart _ _ _ _ hin' (Fld.apart_of_lo (.inr (by dsimp only [R.SI_STATUS_DEMAND]; omega)))]
    exact h.2

theorem State.Faulty.demand {f : Fld} (h : s.Faulty n f) (hf : f ∈ siFaultFlds n) (m : Nat) : (s.siDemand m).Faulty n f := by
  by_cases hm : m = n
  · subst hm
    obtain ⟨-, h1, -, h2⟩ := State.siFault_demands hf h.1
    exact ⟨h1, h2⟩
  · obtain ⟨ha, -⟩ := siFaultFlds_mem hf
    have hap : ∀ g : Fld, g.addr = 0x41000104 + 0x10 * n → (s.siDemand m).on g = s.on g := fun g hg =>
      State.siDemand_on s (Fld.apart_of_addr (by dsimp only [R.SI_STATUS_DEMAND]; omega))
        (Fld.apart_of_addr (by dsimp only [R.SI_STATUS_WAIT_RST]; omega))
    exact ⟨(hap _ ha).trans h.1, (hap _ rfl).trans h.2⟩

theorem State.Faulty.noteBad {f : Fld} (h : s.Faulty n f) (m : Nat) : (s.noteBad m).Faulty n f :=
  ⟨(s.noteBad_on m _).trans h.1, (s.noteBad_on m _).trans h.2⟩

theorem State.faulty_of_put {f : Fld} (hf : f ∈ siFaultFlds n) (hs : s.on f = true) : (s.siDemand n).Faulty n f := by
  obtain ⟨-, h1, -, h2⟩ := State.siFault_demands hf hs
  exact ⟨h1, h2⟩

theorem stuckFld_mem (k : Nat) : stuckFld k ∈ siFaultFlds (k / 2) := by
  unfold stuckFld
  split <;> simp [siFaultFlds]

theorem crossFld_mem (k : Nat) : crossFld k ∈ siFaultFlds (k / 2) := by
  unfold crossFld
  split <;> simp [siFaultFlds]

theorem crossTpFld_lo (k : Nat) : 9 ≤ (crossTpFld k).lo ∧ (crossTpFld k).lo + (crossTpFld k).width ≤ 13 ∧ (crossTpFld k).inWord = true ∧
    (crossTpFld k).addr = 0x41000104 + 0x10 * (k / 2) := by
  unfold crossTpFld
  split <;> simp [R.SI_STATUS_XS_TP_A, R.SI_STATUS_XS_TP_B, Fld.inWord]

theorem State.Faulty.crossTp {f : Fld} (h : s.Faulty n f) (hf : f ∈ siFaultFlds n) (k v : Nat) : (s.wr (crossTpFld k) v).Faulty n f := by
  obtain ⟨-, hw, -, hlo⟩ := siFaultFlds_mem hf
  obtain ⟨h9, h13, hin, -⟩ := crossTpFld_lo k
  refine ⟨?_, ?_⟩
  · rw [State.on_wr_apart _ _ _ hin (Fld.apart_of_lo (by omega))]
    exact h.1
  · rw [State.on_wr_apart _ _ _ hin (Fld.apart_of_lo (.inr (by dsimp only [R.SI_STATUS_DEMAND]; omega)))]
    exact h.2

theorem State.Faulty.checkChannel {f : Fld} (h : s.Faulty n f) (hf : f ∈ siFaultFlds n) (tp : Fin 4) (x : BitVec 16) (k : Nat) :
    (s.checkChannel tp x k).Faulty n f := by
  unfold State.checkChannel
  split
  · exact h
  · split
    · exact h
    · split
      · refine State.when_keeps (fun t => t.Faulty n f) s _ _ h ?_
        exact ((h.put hf (stuckFld_mem k)).noteBad _).demand hf _
      · split
        · exact h
        · exact h

/-- A channel of its own pulse that reads high at the check is stuck (R379). -/
theorem State.checkChannel_stuck {tp : Fin 4} {x : BitVec 16} {k : Nat} (htp : s.siTp (k / 2) (k % 2 == 1) = some tp.val)
    (hpre : bitOf s.isl.pre k = true) (hx : x.getLsbD k = true) : (s.checkChannel tp x k).Faulty (k / 2) (stuckFld k) := by
  obtain ⟨-, hw, hin, -⟩ := siFaultFlds_mem (stuckFld_mem k)
  rw [State.checkChannel, htp]
  simp only [hpre, Bool.not_true, Bool.false_eq_true, if_false, if_true, hx, State.when_true]
  refine State.faulty_of_put (stuckFld_mem k) ?_
  rw [State.noteBad_on, State.on_put_same _ _ _ hin hw]

theorem State.Faulty.settleChannel {f : Fld} (h : s.Faulty n f) (hf : f ∈ siFaultFlds n) (tp : Fin 4) (x : BitVec 16) (low k : Nat) :
    (s.settleChannel tp x low k).Faulty n f := by
  refine State.when_keeps (fun t => t.Faulty n f) s _ _ h ?_
  exact (((h.put hf (crossFld_mem k)).crossTp hf k tp).noteBad _).demand hf _

/-- A channel of another pulse that is high again is cross-shorted with its pulse (R379). -/
theorem State.settleChannel_crossed {tp : Fin 4} {x : BitVec 16} {low k : Nat} (hl : bitOf low k = true) (hx : x.getLsbD k = true) :
    (s.settleChannel tp x low k).Faulty (k / 2) (crossFld k) ∧ (s.settleChannel tp x low k).rd (crossTpFld k) = tp % 2 ^ (crossTpFld k).width := by
  obtain ⟨-, hw, hin, hlo⟩ := siFaultFlds_mem (crossFld_mem k)
  obtain ⟨h9, h13, hint, -⟩ := crossTpFld_lo k
  have hon : (crossTpFld k).apart (crossFld k) = true := Fld.apart_of_lo (by
    unfold crossTpFld crossFld
    split <;> simp [R.SI_STATUS_XS_TP_A, R.SI_STATUS_XS_TP_B, R.SI_STATUS_XS_A, R.SI_STATUS_XS_B])
  rw [State.settleChannel, hl, hx, Bool.and_self, State.when_true]
  refine ⟨State.faulty_of_put (crossFld_mem k) ?_, ?_⟩
  · rw [State.noteBad_on, State.on_wr_apart _ _ _ hint hon, State.on_put_same _ _ _ hin hw]
  · rw [State.siDemand_rd _ (Fld.apart_of_lo (.inl (by dsimp only [R.SI_STATUS_DEMAND]; omega)))
      (Fld.apart_of_lo (.inl (by dsimp only [R.SI_STATUS_WAIT_RST]; omega))), State.noteBad_rd, State.rd_wr_same _ _ _ hint]

/-- A turn leaves the fields of another input's word. -/
theorem State.settleChannel_rd {tp : Fin 4} {x : BitVec 16} {low k : Nat} (h : g.addr ≠ 0x41000104 + 0x10 * (k / 2)) :
    (s.settleChannel tp x low k).rd g = s.rd g := by
  obtain ⟨hca, -, hin, -⟩ := siFaultFlds_mem (crossFld_mem k)
  obtain ⟨-, -, hint, hta⟩ := crossTpFld_lo k
  refine State.when_keeps (fun t => t.rd g = s.rd g) s _ _ rfl ?_
  rw [State.siDemand_rd _ (Fld.apart_of_addr h) (Fld.apart_of_addr h), State.noteBad_rd,
    State.rd_wr_apart _ _ _ _ hint (Fld.apart_of_addr (hta ▸ h)), State.rd_put_apart _ _ _ _ hin (Fld.apart_of_addr (hca ▸ h))]

theorem State.siDemand_isl (s : State) (m : Nat) : (s.siDemand m).isl = s.isl :=
  (keeps_siDemand (F := [.regs]) (z := s) s m (by decide) (.refl _ _)).1.2 .isl (by decide)

theorem State.settleChannel_excl (s : State) (tp : Fin 4) (x : BitVec 16) (low k : Nat) :
    (s.settleChannel tp x low k).isl.excl = s.isl.excl := by
  refine State.when_keeps (fun t => t.isl.excl = s.isl.excl) s _ _ rfl ?_
  rw [State.siDemand_isl, State.noteBad_excl, State.wr_isl, State.put_isl]

theorem State.windowClosed_excl (s : State) (tp : Nat) : (s.windowClosed tp).isl.excl = Machine.putBit s.isl.excl tp false := rfl

/-- Every channel settled. -/
def State.settled16 (s : State) (tp : Fin 4) (x : BitVec 16) : State :=
  (s.windowClosed tp).forN 16 fun k t => t.settleChannel tp x s.isl.low k

theorem State.settled16_crossed {tp : Fin 4} {x : BitVec 16} (hl : bitOf s.isl.low 1 = true) (hx : x.getLsbD 1 = true) :
    (s.settled16 tp x).Faulty 0 (R.SI_STATUS_XS_B 0) ∧ (s.settled16 tp x).rd (R.SI_STATUS_XS_TP_B 0) = tp % 4 := by
  refine State.forN_turn (fun _ => True) (fun t => t.Faulty 0 (R.SI_STATUS_XS_B 0) ∧ t.rd (R.SI_STATUS_XS_TP_B 0) = tp % 4) (i := 1)
    (by decide) (fun _ _ _ _ => trivial) (fun t _ => t.settleChannel_crossed hl hx) (fun j hj _ t ht => ⟨?_, ?_⟩) trivial
  · exact ht.1.settleChannel (crossFld_mem 1) _ _ _ _
  · rw [State.settleChannel_rd (by dsimp only [R.SI_STATUS_XS_TP_B]; omega)]
    exact ht.2

theorem State.settled16_excl (s : State) (tp : Fin 4) (x : BitVec 16) : (s.settled16 tp x).isl.excl = Machine.putBit s.isl.excl tp false :=
  State.forN_keeps (fun t => t.isl.excl = Machine.putBit s.isl.excl tp false) 16 _
    (fun k _ t ht => (t.settleChannel_excl tp x s.isl.low k).trans ht) _ (s.windowClosed_excl tp)

theorem State.islandUpdate_excl (s : State) : s.islandUpdate.isl.excl = s.isl.excl := by
  obtain ⟨_, _, _, _, h⟩ := s.islandUpdate_shown
  rw [h]

/-! ### A test pulse that reads back wrongly -/

/-- The readback of a test pulse is noted as wrong. -/
def State.pulseBad (s : State) (tp : Fin 4) (level : Bool) : State :=
  { (s.putBit R.TP_STATUS_TP_FLT tp true).putBit R.TP_STATUS_FB tp level with
    isl := { ((s.putBit R.TP_STATUS_TP_FLT tp true).putBit R.TP_STATUS_FB tp level).isl with
      tpNow := Machine.putBit ((s.putBit R.TP_STATUS_TP_FLT tp true).putBit R.TP_STATUS_FB tp level).isl.tpNow tp true } }

theorem State.pulseBad_rd (s : State) (tp : Fin 4) (level : Bool) (g : Fld) :
    (s.pulseBad tp level).rd g = ((s.putBit R.TP_STATUS_TP_FLT tp true).putBit R.TP_STATUS_FB tp level).rd g := State.withIsl_rd _ _ g

/-- An input on a test pulse takes its fault. -/
def State.pulseFault (s : State) (tp : Fin 4) (n : Nat) : State :=
  s.when (s.siTp n false == some tp.val || s.siTp n true == some tp.val) fun s => (s.put (R.SI_STATUS_TP_FLT n) true).siDemand n

theorem exec_tpFeedbackFault (tp : Fin 4) (level : Bool) (hup : s.islandUp = true) :
    exec (.tpFeedbackFault tp level) s = .next ((s.pulseBad tp level).forN 8 fun n s => s.pulseFault tp n).islandUpdate := by
  have he : exec (.tpFeedbackFault tp level) s = execTpFeedbackFault tp level s := rfl
  unfold State.pulseFault State.pulseBad
  rw [he, execTpFeedbackFault, if_neg (by simp [hup])]

/-- Every input on the pulse has its fault. -/
def State.pulseFaults (s : State) (tp : Fin 4) (level : Bool) : State := (s.pulseBad tp level).forN 8 fun n s => s.pulseFault tp n

theorem State.pulseFault_rd {tp : Fin 4} (h : g.addr ≠ 0x41000104 + 0x10 * n) : (s.pulseFault tp n).rd g = s.rd g := by
  refine State.when_keeps (fun t => t.rd g = s.rd g) s _ _ rfl ?_
  rw [State.siDemand_rd _ (Fld.apart_of_addr h) (Fld.apart_of_addr h), State.rd_put_apart _ _ _ _ rfl (Fld.apart_of_addr h)]

theorem State.pulseFaults_rd {tp : Fin 4} {level : Bool} (h : g.addr < 0x41000104 ∨ 0x41000174 < g.addr ∨ g.addr % 16 ≠ 4) :
    (s.pulseFaults tp level).rd g = (s.pulseBad tp level).rd g :=
  State.forN_keeps (fun t => t.rd g = (s.pulseBad tp level).rd g) 8 _ (fun n hn t ht => (State.pulseFault_rd (by omega)).trans ht) _ rfl

theorem State.siTp_congr (hm : t.rd (R.SI_CFG_MODE n) = s.rd (R.SI_CFG_MODE n)) (ha : t.rd (R.SI_CFG_TPA n) = s.rd (R.SI_CFG_TPA n))
    (hb : t.rd (R.SI_CFG_TPB n) = s.rd (R.SI_CFG_TPB n)) (b : Bool) : t.siTp n b = s.siTp n b := by
  simp only [State.siTp, hm, ha, hb]

theorem State.pulseBad_apart {tp : Fin 4} {level : Bool} (h : g.addr ≠ 0x41000184) : (s.pulseBad tp level).rd g = s.rd g := by
  rw [State.pulseBad_rd, State.rd_putBit_apart _ _ _ _ _ (by decide) (Fld.apart_of_addr h),
    State.rd_putBit_apart _ _ _ _ _ (by decide) (Fld.apart_of_addr h)]

theorem State.bit_putBit_same (s : State) (f : Fld) (i : Nat) (b : Bool) (hf : f.inWord = true) (hi : i < f.width) :
    (s.putBit f i b).bit f i = b := by
  rw [State.bit, State.putBit, State.rd_wr_same s f _ hf, bitOf_mod_two_pow hi, bitOf_putBit_same]

theorem State.pulseFault_faulty {tp : Fin 4} (h : s.siTp n true = some tp.val) : (s.pulseFault tp n).Faulty n (R.SI_STATUS_TP_FLT n) := by
  have hc : (s.siTp n false == some tp.val || s.siTp n true == some tp.val) = true := by simp [h]
  rw [State.pulseFault, hc, State.when_true]
  exact State.faulty_of_put (by simp [siFaultFlds]) (State.on_put_same _ _ _ rfl rfl)

theorem State.Faulty.pulseFault {f : Fld} (h : s.Faulty n f) (hf : f ∈ siFaultFlds n) (tp : Fin 4) (m : Nat) :
    (s.pulseFault tp m).Faulty n f :=
  State.when_keeps (fun t => t.Faulty n f) s _ _ h ((h.put (m := m) hf (by simp [siFaultFlds])).demand hf m)

/-- An input with a channel on a test pulse that reads back wrongly is faulty (R378). -/
theorem State.pulseFaults_faulty {tp : Fin 4} (level : Bool) (h : s.siTp 0 true = some tp.val) :
    (s.pulseFaults tp level).Faulty 0 (R.SI_STATUS_TP_FLT 0) := by
  have h0 : (s.pulseBad tp level).siTp 0 true = some tp.val := by
    rw [State.siTp_congr (State.pulseBad_apart (by decide)) (State.pulseBad_apart (by decide)) (State.pulseBad_apart (by decide)), h]
  exact State.forN_turn (fun t => t.siTp 0 true = some tp.val) (fun t => t.Faulty 0 (R.SI_STATUS_TP_FLT 0)) (i := 0) (by decide)
    (fun j hj => absurd hj (Nat.not_lt_zero j)) (fun t ht => State.pulseFault_faulty ht)
    (fun j _ _ t ht => ht.pulseFault (by simp [siFaultFlds]) tp j) h0

theorem State.pulseFaults_latch (s : State) (tp : Fin 4) (level : Bool) : (s.pulseFaults tp level).bit R.TP_STATUS_TP_FLT tp = true := by
  rw [State.bit, State.pulseFaults_rd (by decide), State.pulseBad_rd, State.rd_putBit_apart _ _ _ _ _ (by decide) (by decide)]
  exact State.bit_putBit_same _ _ _ _ (by decide) tp.isLt

/-! ### A test pulse goes dark -/

/-- TP0 begins a blotter cycle. -/
def Isl.blotter (x : Isl) (tp : Nat) : Isl :=
  if tp = 0 then { x with badLast := x.badNow, badNow := 0, tpLast := x.tpNow, tpNow := 0 } else x

theorem exec_testPulseDark (tp : Fin 4) (x : BitVec 16) (hup : s.islandUp = true) : exec (.testPulseDark tp x) s =
    .next { s with isl := { s.isl.blotter tp with excl := Machine.putBit (s.isl.blotter tp).excl tp true, pre := x.toNat, low := 0 } } := by
  have he : exec (.testPulseDark tp x) s = execTestPulseDark tp x s := rfl
  unfold Isl.blotter
  rw [he, execTestPulseDark, if_neg (by simp [hup])]

/-! ### The reset button -/

/-- A press begins. -/
def State.pressed (s : State) : State :=
  { s.put R.SAFE_RST_PRESSED true with isl := { (s.put R.SAFE_RST_PRESSED true).isl with press := some (s.put R.SAFE_RST_PRESSED true).now, stuck := false } }

theorem exec_resetButtonPress (hup : s.islandUp = true) : exec .resetButtonPress s = .next (s.pressed.setAgree 8) := by
  have he : exec .resetButtonPress s = execResetButtonPress s := rfl
  unfold State.pressed
  rw [he, execResetButtonPress, if_neg (by simp [hup])]

theorem State.setAgree_rd (s : State) (k : Nat) (g : Fld) : (s.setAgree k).rd g = s.rd g := rfl

theorem State.setAgree_sys (s : State) (k : Nat) : (s.setAgree k).sys = s.sys := rfl

theorem State.setAgree_press (s : State) (k : Nat) : (s.setAgree k).isl.press = s.isl.press := rfl

/-- A press ends. -/
def State.released (s : State) : State :=
  { s.put R.SAFE_RST_PRESSED false with isl := { (s.put R.SAFE_RST_PRESSED false).isl with press := none, stuck := false } }

theorem State.released_rd (s : State) (g : Fld) : s.released.rd g = (s.put R.SAFE_RST_PRESSED false).rd g := State.withIsl_rd _ _ g

theorem State.pressed_rd (s : State) (g : Fld) : s.pressed.rd g = (s.put R.SAFE_RST_PRESSED true).rd g := State.withIsl_rd _ _ g

theorem State.validPress_of_times {at' : Nat} (h0 : at' + 100000000 ≤ s.now) (h1 : s.now < at' + 5000000000) : s.validPress at' = true := by
  simp only [State.validPress, Bool.and_eq_true, decide_eq_true_eq]
  omega

theorem exec_resetButtonRelease_valid {at' : Nat} (hup : s.islandUp = true) (hp : s.isl.press = some at') (hs : s.isl.stuck = false)
    (hen : s.on R.SAFE_RST_PIN_EN = true) (hv : s.validPress at' = true) :
    exec .resetButtonRelease s = .next (s.released.validReset (mapGet (fun _ => 0) s.isl.agree 8)) := by
  have he : exec .resetButtonRelease s = execResetButtonRelease s := rfl
  unfold State.released
  rw [he, execResetButtonRelease, hp]
  simp only [hup, hs, hen, hv, Bool.not_true, Bool.false_eq_true, if_false, Bool.and_self, if_true]

theorem exec_resetButtonRelease_stuck {at' : Nat} (hup : s.islandUp = true) (hp : s.isl.press = some at') (hs : s.isl.stuck = true) :
    exec .resetButtonRelease s = .next (s.released.put R.SAFE_STATE_RST_STUCK false).islandUpdate := by
  have he : exec .resetButtonRelease s = execResetButtonRelease s := rfl
  unfold State.released
  rw [he, execResetButtonRelease, hp]
  simp only [hup, hs, Bool.not_true, Bool.false_eq_true, if_false, if_true]

/-! ### A valid reset -/

/-- The faults of one output clear where it agrees (R388). -/
def State.soCleared (s : State) (n : Nat) : State :=
  s.when (s.soAgrees n) fun s =>
    (((s.put (R.SO_STATUS_RB_FLT n) false).put (R.SO_STATUS_DP_FLT n) false).put (R.SO_STATUS_FBK_FLT n) false).put
      (R.SO_STATUS_OPEN_FAIL n) false

/-- What a valid reset clears beside START (R375, R376, R381, R388, R393, R395, R400). -/
def State.faultsCleared (s : State) (agree : Nat) : State :=
  let s := s.forN 8 fun n s => s.siReset agree n
  let s := s.forN 4 fun t s => s.when (!bitOf s.isl.tpNow t && !bitOf s.isl.tpLast t) fun s => s.putBit R.TP_STATUS_TP_FLT t false
  let s := s.forN 2 fun n s => s.soCleared n
  let s := (s.put R.SAFE_LATCH_BT_FAIL false).put R.BT_STATUS_FAILED false
  let s := s.when (s.on R.MATE_LIVE_A && s.on R.MATE_LIVE_B) fun s => s.put R.MATE_MATE_FLT false
  s.forN 8 fun c s => s.when (s.rd (R.CONN_STATE_CSTATE c) != 3) fun s => s.putBit R.SAFE_LATCH_CONN c false

/-- The reset has counted, and START is gone. -/
def State.resetCounted (s : State) (agree : Nat) : State := ((s.inc R.SAFE_RST_VALID_CNT).faultsCleared agree).put R.SAFE_LATCH_START false

/-- It shows whether a latch stands. -/
def State.effectShown (s : State) : State := s.put R.SAFE_STATE_RST_NOEFF s.anyLatch

theorem State.validReset_eq (s : State) (agree : Nat) : s.validReset agree = (s.resetCounted agree).effectShown.islandUpdate := rfl

/-- The fields that a reset clears beside those of the inputs. -/
def clearedFlds : List Fld :=
  [R.TP_STATUS_TP_FLT, R.SAFE_LATCH_BT_FAIL, R.BT_STATUS_FAILED, R.MATE_MATE_FLT, R.SAFE_LATCH_CONN] ++
    ([0, 1].flatMap fun n => [R.SO_STATUS_RB_FLT n, R.SO_STATUS_DP_FLT n, R.SO_STATUS_FBK_FLT n, R.SO_STATUS_OPEN_FAIL n])

def byReset : Fld → Bool := near clearedFlds inputWord

theorem within_clearedFlds {f : Fld} (h : f ∈ clearedFlds) : f.Within byReset :=
  Fld.within_of_mem h ((by decide : ∀ f ∈ clearedFlds, f.inWord = true) f h)

theorem within_siStatus {f : Fld} (hn : n < 8) (ha : f.addr = 0x41000104 + 0x10 * n) (hf : f.inWord = true) : f.Within byReset :=
  Fld.within_of_word (ha ▸ inputWord_status hn) hf

theorem State.siReset_writes (s : State) (agree : Nat) (hn : n < 8) : State.Writes byReset s (s.siReset agree n) := by
  have hw : ∀ {f : Fld}, f.addr = 0x41000104 + 0x10 * n → f.inWord = true → f.Within byReset := fun ha hf => within_siStatus hn ha hf
  unfold State.siReset
  extract_lets s₁ clean s₂ tps tpOk s₃
  have h₁ : State.Writes byReset s s₁ := (State.Writes.refl _ s).when fun u =>
    (State.Writes.refl _ u).put (f := R.SI_STATUS_DISC_FLT n) (hw rfl rfl) _
  have h₂ : State.Writes byReset s s₂ := h₁.when fun u =>
    ((((State.Writes.refl _ u).put (f := R.SI_STATUS_STUCK_A n) (hw rfl rfl) _).put (f := R.SI_STATUS_STUCK_B n) (hw rfl rfl) _).put
      (f := R.SI_STATUS_XS_A n) (hw rfl rfl) _).put (f := R.SI_STATUS_XS_B n) (hw rfl rfl) _
  have h₃ : State.Writes byReset s s₃ := h₂.when fun u => (State.Writes.refl _ u).put (f := R.SI_STATUS_TP_FLT n) (hw rfl rfl) _
  split
  · exact h₃
  · exact (h₃.put (f := R.SI_STATUS_DEMAND n) (hw rfl rfl) _).put (f := R.SI_STATUS_WAIT_RST n) (hw rfl rfl) _

theorem State.soCleared_writes (s : State) (hn : n < 2) : State.Writes byReset s (s.soCleared n) := by
  have hm : ∀ k, k < 2 → R.SO_STATUS_RB_FLT k ∈ clearedFlds ∧ R.SO_STATUS_DP_FLT k ∈ clearedFlds ∧ R.SO_STATUS_FBK_FLT k ∈ clearedFlds ∧
      R.SO_STATUS_OPEN_FAIL k ∈ clearedFlds := by decide
  obtain ⟨h0, h1, h2, h3⟩ := hm n hn
  exact (State.Writes.refl _ s).when fun u =>
    ((((State.Writes.refl _ u).put (within_clearedFlds h0) _).put (within_clearedFlds h1) _).put (within_clearedFlds h2) _).put
      (within_clearedFlds h3) _

theorem State.faultsCleared_writes (s : State) (agree : Nat) : State.Writes byReset s (s.faultsCleared agree) := by
  unfold State.faultsCleared
  extract_lets s₁ s₂ s₃ s₄ s₅
  have h₁ : State.Writes byReset s s₁ :=
    State.forN_keeps (State.Writes _ s) 8 _ (fun n hn t ht => ht.trans (t.siReset_writes agree hn)) s (.refl _ s)
  have h₂ : State.Writes byReset s s₂ := State.forN_keeps (State.Writes _ s) 4 _
    (fun k _ t ht => ht.when fun u => (State.Writes.refl _ u).putBit (within_clearedFlds (by decide)) _ _) s₁ h₁
  have h₃ : State.Writes byReset s s₃ :=
    State.forN_keeps (State.Writes _ s) 2 _ (fun n hn t ht => ht.trans (t.soCleared_writes hn)) s₂ h₂
  have h₄ : State.Writes byReset s s₄ := (h₃.put (within_clearedFlds (by decide)) _).put (within_clearedFlds (by decide)) _
  have h₅ : State.Writes byReset s s₅ := h₄.when fun u => (State.Writes.refl _ u).put (within_clearedFlds (by decide)) _
  exact State.forN_keeps (State.Writes _ s) 8 _
    (fun c _ t ht => ht.when fun u => (State.Writes.refl _ u).putBit (within_clearedFlds (by decide)) _ _) s₅ h₅

theorem State.faultsCleared_keeps (s : State) (agree : Nat) : Keeps [.regs] s (s.faultsCleared agree) :=
  keeps_forN 8 _ (keeps_when _ _ (keeps_put _ _ _ (by decide) (keeps_put _ _ _ (by decide) (keeps_forN 2 _ (keeps_forN 4 _
    (keeps_forN 8 _ (.refl _ _) fun _ _ h => keeps_siReset _ _ _ (by decide) h)
    fun _ _ h => keeps_when _ _ h fun _ h => keeps_putBit _ _ _ _ (by decide) h)
    fun _ _ h => keeps_when _ _ h fun _ h => keeps_put _ _ _ (by decide) (keeps_put _ _ _ (by decide) (keeps_put _ _ _ (by decide)
      (keeps_put _ _ _ (by decide) h))))))
    fun _ h => keeps_put _ _ _ (by decide) h) fun _ _ h => keeps_when _ _ h fun _ h => keeps_putBit _ _ _ _ (by decide) h

theorem State.resetCounted_rd (s : State) (agree : Nat) (hr : byReset g = false) (hs : R.SAFE_LATCH_START.apart g = true) :
    (s.resetCounted agree).rd g = (s.inc R.SAFE_RST_VALID_CNT).rd g := by
  rw [State.resetCounted, State.rd_put_apart _ _ _ _ (by decide) hs, State.faultsCleared_writes _ _ g hr]

theorem State.resetCounted_isl (s : State) (agree : Nat) : (s.resetCounted agree).isl = s.isl := by
  rw [State.resetCounted, State.put_isl, (State.faultsCleared_keeps _ _).1.2 .isl (by decide), State.inc_isl]

/-- The effect of a reset is shown as the latches stand in the end. -/
theorem State.anyLatch_congr (h : ∀ g, byIsland g = false → R.SAFE_STATE_RST_NOEFF.apart g = true → t.rd g = s.rd g) :
    t.anyLatch = s.anyLatch := by
  have hon : ∀ g, byIsland g = false → R.SAFE_STATE_RST_NOEFF.apart g = true → t.on g = s.on g := fun g h0 h1 => by
    rw [State.on, State.on, h g h0 h1]
  have hsi : ∀ n, n < 8 → t.siFault n = s.siFault n := by
    intro n hn
    have hf : ∀ g : Fld, g.addr = 0x41000104 + 0x10 * n → t.on g = s.on g := fun g hg =>
      hon g (byIsland_of_addr (by omega) (by omega) (by omega) (by omega)) (Fld.apart_of_addr (by dsimp only [R.SAFE_STATE_RST_NOEFF]; omega))
    simp only [State.siFault, hf (R.SI_STATUS_DISC_FLT n) rfl, hf (R.SI_STATUS_STUCK_A n) rfl, hf (R.SI_STATUS_STUCK_B n) rfl,
      hf (R.SI_STATUS_XS_A n) rfl, hf (R.SI_STATUS_XS_B n) rfl, hf (R.SI_STATUS_TP_FLT n) rfl]
  have hso : ∀ n, n < 2 → t.soFault n = s.soFault n := by
    intro n hn
    have hfree : ∀ k, k < 2 → ∀ g ∈ [R.SO_STATUS_RB_FLT k, R.SO_STATUS_DP_FLT k, R.SO_STATUS_FBK_FLT k], byIsland g = false ∧
        R.SAFE_STATE_RST_NOEFF.apart g = true := by decide
    have hf := fun g hg => hon g (hfree n hn g hg).1 (hfree n hn g hg).2
    simp only [State.soFault, hf (R.SO_STATUS_RB_FLT n) (by simp), hf (R.SO_STATUS_DP_FLT n) (by simp), hf (R.SO_STATUS_FBK_FLT n) (by simp)]
  have hany : (upto 8).any t.siFault = (upto 8).any s.siFault := by
    rw [Bool.eq_iff_iff, List.any_eq_true, List.any_eq_true]
    exact exists_congr fun n => and_congr_right fun hn => by rw [hsi n (List.mem_range.1 hn)]
  rw [State.anyLatch, State.anyLatch, hany, h _ (by decide) (by decide), hon _ (by decide) (by decide), hso 0 (by decide), hso 1 (by decide),
    hon _ (by decide) (by decide), hon _ (by decide) (by decide)]

theorem State.effectShown_rd (s : State) (h : R.SAFE_STATE_RST_NOEFF.apart g = true) : s.effectShown.rd g = s.rd g :=
  State.rd_put_apart _ _ _ _ (by decide) h

theorem State.effect_after_update (s : State) : s.effectShown.islandUpdate.on R.SAFE_STATE_RST_NOEFF = s.effectShown.islandUpdate.anyLatch := by
  rw [(State.islandUpdate_writes _).on (by decide), State.anyLatch_congr fun g h0 h1 => (State.islandUpdate_writes _ g h0).trans (s.effectShown_rd h1),
    State.effectShown, State.on_put_same _ _ _ (by decide) rfl]

theorem State.islandUpdate_press (s : State) : s.islandUpdate.isl.press = s.isl.press := by
  obtain ⟨_, _, _, _, h⟩ := s.islandUpdate_shown
  rw [h]

theorem State.islandUpdate_stuck (s : State) : s.islandUpdate.isl.stuck = s.isl.stuck := by
  obtain ⟨_, _, _, _, h⟩ := s.islandUpdate_shown
  rw [h]

theorem State.released_isl (s : State) : s.released.isl.press = none ∧ s.released.isl.stuck = false := ⟨rfl, rfl⟩

/-- What a valid reset leaves (R382). -/
theorem State.validReset_spec (s : State) (agree : Nat) :
    (s.validReset agree).rd R.SAFE_RST_VALID_CNT = Nat.min 65535 (s.rd R.SAFE_RST_VALID_CNT + 1) ∧
      (s.validReset agree).on R.SAFE_LATCH_START = false ∧ (s.validReset agree).on R.SAFE_RST_PRESSED = s.on R.SAFE_RST_PRESSED ∧
      (s.validReset agree).isl.press = s.isl.press ∧ (s.validReset agree).SafeSide ∧
      (s.validReset agree).on R.SAFE_STATE_RST_NOEFF = (s.validReset agree).anyLatch := by
  rw [State.validReset_eq]
  have hrd : ∀ g, byIsland g = false → R.SAFE_STATE_RST_NOEFF.apart g = true →
      (s.resetCounted agree).effectShown.islandUpdate.rd g = (s.resetCounted agree).rd g := fun g h0 h1 =>
    (State.islandUpdate_writes _ g h0).trans (State.effectShown_rd _ h1)
  have hinc : (s.inc R.SAFE_RST_VALID_CNT).rd R.SAFE_RST_VALID_CNT = satAdd 16 (s.rd R.SAFE_RST_VALID_CNT) 1 := by
    rw [State.inc, State.rd_wr_same _ _ _ (by decide)]
    exact Nat.mod_eq_of_lt (Nat.lt_of_le_of_lt (Nat.min_le_left _ _) (by decide))
  refine ⟨?_, ?_, ?_, ?_, State.islandUpdate_safeSide _, State.effect_after_update _⟩
  · rw [hrd _ (by decide) (by decide), State.resetCounted_rd _ _ (by decide) (by decide), hinc]
    rfl
  · rw [State.on, hrd _ (by decide) (by decide), ← State.on]
    exact State.on_put_same _ _ _ (by decide) rfl
  · rw [State.on, hrd _ (by decide) (by decide), State.resetCounted_rd _ _ (by decide) (by decide),
      State.rd_inc_apart _ _ _ _ (by decide) (by decide), State.on]
  · rw [State.islandUpdate_press, State.effectShown, State.put_isl, State.resetCounted_isl]

/-- A press counts as stuck. -/
def State.pressStuck (s : State) : State :=
  { s.put R.SAFE_STATE_RST_STUCK true with isl := { (s.put R.SAFE_STATE_RST_STUCK true).isl with stuck := true } }

theorem State.pressStuck_rd (s : State) (g : Fld) : s.pressStuck.rd g = (s.put R.SAFE_STATE_RST_STUCK true).rd g := State.withIsl_rd _ _ g

theorem State.pressStuck_stuck (s : State) : s.pressStuck.isl.stuck = true := rfl

theorem exec_resetStuck {at' : Nat} (hup : s.islandUp = true) (hp : s.isl.press = some at') (hen : s.on R.SAFE_RST_PIN_EN = true) :
    exec (.resetStuck none) s = .next s.pressStuck.islandUpdate := by
  have he : exec (.resetStuck none) s = execResetStuck none s := rfl
  unfold State.pressStuck
  rw [he, execResetStuck, if_neg (by simp [hup])]
  simp only [hp, hen, Option.isNone_some, Bool.not_true, Bool.or_self, Bool.false_eq_true, if_false]

/-! ### The obligation -/

/-- Settles O42: every fault goes through the demand of its input and the update, and a reset through `validReset`. -/
theorem safeInputsLatchUntilReset : Obligations.SafeInputsLatchUntilReset := by
  refine ⟨fun s n b level hup hh => ?_, fun s n b level hh => exec_safeInputFilter_held n b level hh, fun s n hup hl => ?_,
    fun s tp x hup => ?_, fun s tp x hup htp hpre hx => ?_, fun s tp x hup hl hx => ?_, fun s tp level hup htp => ?_, fun s hup => ?_,
    fun s at' hup hp hs hen h0 h1 => ?_, fun s at' hup hp hs => ?_, fun s at' hup hp hen => ?_⟩
  · have hother : (s.put (siLevel n b) level).noteAgreement.on (siLevel n (!b)) = s.on (siLevel n (!b)) := by
      rw [State.noteAgreement_on, State.on_put_apart _ _ _ _ (siLevel_inWord _ _) (siLevel_apart _ _)]
    rw [exec_safeInputFilter n b level hup hh]
    refine reaches_next ⟨?_, ?_, ?_⟩
    · rw [State.noteAgreement_on]
      exact State.on_put_same _ (siLevel n b) _ (siLevel_inWord _ _) (by cases b <;> rfl)
    · cases b <;> exact hother
    · rw [(keeps_noteAgreement (F := [.isl]) (z := s.put (siLevel n b) level) _ (by decide) (.refl _ _)).1.2 .sys (by decide), State.put_sys]
  · have hf := State.faulty_of_put (s := s.put (R.SI_STATUS_DISC_FLT n) true) (n := n) (f := R.SI_STATUS_DISC_FLT n) (by simp [siFaultFlds])
      (State.on_put_same _ _ _ rfl rfl)
    obtain ⟨h1, h2, h3⟩ := State.islandUpdate_siFault n.isLt (State.siFault_demands (by simp) hf.1).1 hf.2
    have hn := n.isLt
    rw [exec_discrepancyFault n hup hl]
    refine reaches_next ⟨?_, h1, h2, State.islandUpdate_safeSide _, fun hm => h3 ?_⟩
    · rw [State.islandUpdate_on_input _ (by dsimp only [R.SI_STATUS_DISC_FLT]; omega) (by dsimp only [R.SI_STATUS_DISC_FLT]; omega)]
      exact hf.1
    · have ha : ∀ g : Fld, g.addr = 0x41000104 + 0x10 * n.val → g.apart (R.SI_CFG_MAP_SB n) = true := fun g hg =>
        Fld.apart_of_addr (by dsimp only [R.SI_CFG_MAP_SB]; omega)
      rw [State.siDemand_on _ (ha _ rfl) (ha _ rfl), State.on_put_apart _ _ _ _ rfl (ha _ rfl)]
      exact hm
  · rw [exec_testPulseDark tp x hup]
    refine reaches_next ⟨bitOf_putBit_same _ _ _, rfl, rfl, fun h0 => ?_, fun h0 => ?_⟩
    · have h0' : tp.val ≠ 0 := fun h => h0 (Fin.ext h)
      simp [Isl.blotter, h0']
    · subst h0
      exact ⟨rfl, rfl⟩
  · have hf : (s.forN 16 fun k s => s.checkChannel tp x k).Faulty 0 (R.SI_STATUS_STUCK_A 0) :=
      State.forN_turn (fun t => t = s) (fun t => t.Faulty 0 (R.SI_STATUS_STUCK_A 0)) (i := 0) (by decide)
        (fun j hj => absurd hj (Nat.not_lt_zero j)) (fun t ht => ht ▸ State.checkChannel_stuck (k := 0) htp hpre hx)
        (fun j _ _ t ht => ht.checkChannel (stuckFld_mem 0) tp x j) rfl
    obtain ⟨h1, h2, -⟩ := State.islandUpdate_siFault (by decide) (State.siFault_demands (by simp) hf.1).1 hf.2
    rw [exec_testPulseCheck tp x hup]
    refine reaches_next ⟨?_, h1, h2, State.islandUpdate_safeSide _⟩
    rw [State.islandUpdate_on_input _ (by decide) (by decide)]
    exact hf.1
  · obtain ⟨hf, htp⟩ := State.settled16_crossed (tp := tp) hl hx
    obtain ⟨h1, -, -⟩ := State.islandUpdate_siFault (by decide) (State.siFault_demands (by simp) hf.1).1 hf.2
    have he : exec (.testPulseSettleCheck tp x) s = .next (s.settled16 tp x).islandUpdate := exec_testPulseSettleCheck tp x hup
    rw [he]
    refine reaches_next ⟨?_, ?_, h1, ?_, State.islandUpdate_safeSide _⟩
    · rw [State.islandUpdate_on_input _ (by decide) (by decide)]
      exact hf.1
    · rw [State.islandUpdate_rd_input _ (by decide) (by decide), htp, Nat.mod_eq_of_lt tp.isLt]
    · rw [State.islandUpdate_excl, State.settled16_excl, bitOf_putBit_same]
  · have hf := State.pulseFaults_faulty level htp
    obtain ⟨h1, -, -⟩ := State.islandUpdate_siFault (by decide) (State.siFault_demands (by simp) hf.1).1 hf.2
    have he : exec (.tpFeedbackFault tp level) s = .next (s.pulseFaults tp level).islandUpdate := exec_tpFeedbackFault tp level hup
    rw [he]
    refine reaches_next ⟨?_, ?_, h1, State.islandUpdate_safeSide _⟩
    · rw [(State.islandUpdate_writes _).bit (by decide), State.pulseFaults_latch]
    · rw [State.islandUpdate_on_input _ (by decide) (by decide)]
      exact hf.1
  · rw [exec_resetButtonPress hup]
    refine reaches_next ⟨?_, rfl, rfl, ?_⟩
    · rw [State.on, State.setAgree_rd, State.pressed_rd, ← State.on, State.on_put_same _ _ _ (by decide) rfl]
    · rw [State.setAgree_rd, State.pressed_rd, State.rd_put_apart _ _ _ _ (by decide) (by decide)]
  · obtain ⟨h2, h3, h4, h5, h6, h7⟩ := s.released.validReset_spec (mapGet (fun _ => 0) s.isl.agree 8)
    rw [exec_resetButtonRelease_valid hup hp hs hen (State.validPress_of_times h0 h1)]
    refine reaches_next ⟨?_, h3, ?_, h5.trans s.released_isl.1, h6, h7⟩
    · rw [h2, State.released_rd, State.rd_put_apart _ _ _ _ (by decide) (by decide)]
    · rw [h4, State.on, State.released_rd, ← State.on, State.on_put_same _ _ _ (by decide) rfl]
  · have hrd : ∀ g, byIsland g = false → R.SAFE_STATE_RST_STUCK.apart g = true →
        (s.released.put R.SAFE_STATE_RST_STUCK false).islandUpdate.rd g = (s.put R.SAFE_RST_PRESSED false).rd g := fun g h0 h1 => by
      rw [State.islandUpdate_writes _ g h0, State.rd_put_apart _ _ _ _ (by decide) h1, State.released_rd]
    rw [exec_resetButtonRelease_stuck hup hp hs]
    refine reaches_next ⟨?_, ?_, ?_, ?_, ?_⟩
    · rw [hrd _ (by decide) (by decide), State.rd_put_apart _ _ _ _ (by decide) (by decide)]
    · rw [State.on, hrd _ (by decide) (by decide), State.rd_put_apart _ _ _ _ (by decide) (by decide), State.on]
    · rw [State.on, hrd _ (by decide) (by decide), ← State.on, State.on_put_same _ _ _ (by decide) rfl]
    · rw [(State.islandUpdate_writes _).on (by decide), State.on_put_same _ _ _ (by decide) rfl]
    · rw [State.islandUpdate_stuck, State.put_isl]
      exact s.released_isl.2
  · rw [exec_resetStuck hup hp hen]
    refine reaches_next ⟨?_, ?_, ?_, State.islandUpdate_safeSide _⟩
    · rw [(State.islandUpdate_writes _).on (by decide), State.on, State.pressStuck_rd, ← State.on, State.on_put_same _ _ _ (by decide) rfl]
    · rw [State.islandUpdate_stuck, State.pressStuck_stuck]
    · rw [State.islandUpdate_writes _ _ (by decide), State.pressStuck_rd, State.rd_put_apart _ _ _ _ (by decide) (by decide)]

end Sys2Proof.Machine
end

section
/-! O43: safe outputs, the brake test and the mate link (R384 to R395). -/

namespace Sys2Proof.Machine

variable {s t : State} {g : Fld} {n : Nat}

/-! ### One output -/

theorem soFlt_free (hn : n < 2) : byIsland (R.SO_STATUS_RB_FLT n) = false ∧ byIsland (R.SO_STATUS_DP_FLT n) = false ∧
    byIsland (R.SO_STATUS_FBK_FLT n) = false ∧ byIsland (R.SO_STATUS_FBK n) = false ∧ byIsland (R.SO_STATUS_OPEN_FAIL n) = false ∧
    byIsland (R.SO_CFG_FUNC n) = false := by
  rcases (by omega : n = 0 ∨ n = 1) with rfl | rfl <;> decide

theorem State.islandUpdate_switch (s : State) (hn : n < 2) (hg : g ∈ switchFlds n) :
    s.islandUpdate.on g = ((s.beforeSo n).driveSo n).on g := by
  have ha : ∀ k, k < 2 → ∀ g ∈ switchFlds k, 0x41000000 ≤ g.addr ∧ g.addr < 0x41100000 := by decide
  obtain ⟨h0, h1⟩ := ha n hn g hg
  rw [State.islandUpdate_on_done s h0 h1, State.on, State.functionsDone_switches s hn hg, State.on]

theorem State.beforeSo_writes (s : State) (n : Nat) : State.Writes byIsland s (s.beforeSo n) := by
  have h0 : State.Writes byIsland s s.noteFns := .of_regs rfl
  have hs := h0.trans ((State.showFns_writes s.noteFns s.actingFn).mono fun _ => byLines_of_byIsland)
  unfold State.beforeSo
  split
  · exact hs
  · refine hs.trans ((State.driveSo_writes _ 0).mono fun g hg => ?_)
    refine Bool.or_eq_false_iff.2 ⟨List.any_eq_false.2 fun f hf => ?_, rfl⟩
    simp [(within_byIsland ((by decide : switchFlds 0 ⊆ islandFlds) hf)).2 g hg]

theorem State.beforeSo_soFault (s : State) (hn : n < 2) : (s.beforeSo n).soFault n = s.soFault n := by
  obtain ⟨h0, h1, h2, -⟩ := soFlt_free hn
  have hw := s.beforeSo_writes n
  rw [State.soFault, hw.on h0, hw.on h1, hw.on h2, State.soFault]

/-- A faulty output is not energised, and drives nothing while no test runs (R385 to R388). -/
theorem State.islandUpdate_faulty (hn : n < 2) (hf : s.soFault n = true) : s.islandUpdate.on (R.SO_STATUS_ENERGISED n) = false ∧
    (mapGet (fun _ => none) s.isl.test n = none →
      s.islandUpdate.on (R.SO_STATUS_HS_DRV n) = false ∧ s.islandUpdate.on (R.SO_STATUS_LS_DRV n) = false) := by
  have hb : (s.beforeSo n).soFault n = true := (s.beforeSo_soFault hn).trans hf
  have hw : (s.beforeSo n).soWanted n = false := by simp [State.soWanted, hb]
  refine ⟨?_, fun ht => ?_⟩
  · rw [State.islandUpdate_switch s hn (by simp [switchFlds]), State.driveSo_energised, hw]
  · have ht' : mapGet (fun _ => none) (s.beforeSo n).isl.test n = none := (s.beforeSo_test hn).trans ht
    obtain ⟨h1, h2⟩ := (s.beforeSo n).driveSo_switches n (.inl (by simp [ht']))
    rw [State.islandUpdate_switch s hn (by simp [switchFlds]), State.islandUpdate_switch s hn (by simp [switchFlds]), h1, h2]
    exact ⟨hw, hw⟩

/-- A faulty trip output trips (R389). -/
theorem State.islandUpdate_faultyTrip (hn : n < 2) (hf : s.soFault n = true) (hfn : s.rd (R.SO_CFG_FUNC n) = 1) :
    s.islandUpdate.on R.SAFE_STATE_ST = true := by
  rw [(State.islandUpdate_fns s).2.1]
  exact (State.actingFn_of_demand (s.soFn_mem hn)).2.1 (by simp [State.soFn, hf, hfn])

/-- The switch that a test turns over. -/
def testedFld (n : Nat) (low : Bool) : Fld := if low then R.SO_STATUS_LS_DRV n else R.SO_STATUS_HS_DRV n

def readbackFld (n : Nat) (low : Bool) : Fld := if low then R.SO_STATUS_LS_RB n else R.SO_STATUS_HS_RB n

theorem testedFld_width (n : Nat) (low : Bool) : (testedFld n low).width = 1 ∧ (testedFld n low).inWord = true := by cases low <;> exact ⟨rfl, rfl⟩

theorem readbackFld_width (n : Nat) (low : Bool) : (readbackFld n low).width = 1 ∧ (readbackFld n low).inWord = true := by
  cases low <;> exact ⟨rfl, rfl⟩

theorem testedFld_apart (n : Nat) (low : Bool) : (testedFld n low).apart (testedFld n (!low)) = true ∧
    (testedFld n low).apart (R.SO_STATUS_ENERGISED n) = true ∧ (testedFld n low).apart (R.SO_STATUS_DP_CNT n) = true ∧
    (testedFld n low).apart (R.SO_STATUS_DP_FLT n) = true := by
  cases low <;>
    simp [testedFld, Fld.apart, R.SO_STATUS_LS_DRV, R.SO_STATUS_HS_DRV, R.SO_STATUS_ENERGISED, R.SO_STATUS_DP_CNT, R.SO_STATUS_DP_FLT]

theorem readbackFld_apart (n : Nat) (low : Bool) : (readbackFld n low).apart (testedFld n low) = true := by
  cases low <;> simp [testedFld, readbackFld, Fld.apart, R.SO_STATUS_LS_DRV, R.SO_STATUS_HS_DRV, R.SO_STATUS_LS_RB, R.SO_STATUS_HS_RB]

/-! ### Readback and tests -/

/-- A readback that differs from its drive counts as a fault (R385). -/
def State.readbackBad (s : State) (n : Nat) (low level : Bool) : State :=
  (s.put (readbackFld n low) level).put (R.SO_STATUS_RB_FLT n) true

theorem exec_outputReadbackFault (n : Fin 2) (low level : Bool) (hup : s.islandUp = true) (ht : mapGet (fun _ => none) s.isl.test n.val = none)
    (hd : s.on (testedFld n low) = !level) : exec (.outputReadbackFault n low level) s = .next (s.readbackBad n low level).islandUpdate := by
  have he : exec (.outputReadbackFault n low level) s = execOutputReadbackFault n low level s := rfl
  have hdrv : (s.put (readbackFld n low) level).on (testedFld n low) = !level := by
    rw [State.on_put_apart _ _ _ _ (readbackFld_width _ _).2 (readbackFld_apart _ _), hd]
  have hne : ¬(s.put (readbackFld n low) level).on (testedFld n low) = level := by
    rw [hdrv]
    cases level <;> decide
  rw [he, execOutputReadbackFault, if_neg (by simp [hup, ht])]
  exact congrArg Host.Outcome.next (if_neg hne)

theorem State.readbackBad_faulty (s : State) (n : Nat) (low level : Bool) :
    (s.readbackBad n low level).on (R.SO_STATUS_RB_FLT n) = true ∧ (s.readbackBad n low level).soFault n = true := by
  have h : (s.readbackBad n low level).on (R.SO_STATUS_RB_FLT n) = true := State.on_put_same _ _ _ rfl rfl
  exact ⟨h, by simp [State.soFault, h]⟩

theorem exec_outputTestStart (n : Fin 2) (low : Bool) (h3 : s.ist = 3) (hf : s.rd (R.SO_CFG_FUNC n) ≠ 0)
    (ht : mapGet (fun _ => none) s.isl.test n.val = none) : exec (.outputTestStart n low) s =
      .next ((s.setTest n (some low)).put (testedFld n low) (!s.on (R.SO_STATUS_ENERGISED n))) := by
  have he : exec (.outputTestStart n low) s = execOutputTestStart n low s := rfl
  have hr : ¬(s.ist ≠ Is.run ∨ s.rd (R.SO_CFG_FUNC n) = 0 ∨ mapGet (fun _ => none) s.isl.test n.val ≠ none) := by
    rintro (h | h | h)
    · exact h h3
    · exact hf h
    · exact h ht
  rw [he, execOutputTestStart, if_neg hr]
  rfl

theorem State.setTest_on (s : State) (n : Nat) (x : Option Bool) (g : Fld) : (s.setTest n x).on g = s.on g := rfl

theorem State.setTest_rd (s : State) (n : Nat) (x : Option Bool) (g : Fld) : (s.setTest n x).rd g = s.rd g := rfl

theorem State.setTest_test (s : State) (n : Nat) (x : Option Bool) : mapGet (fun _ => none) (s.setTest n x).isl.test n = x :=
  mapGet_mapSet_same _ _ _ _

/-- The test has ended and its switch has turned back. -/
def State.testBack (s : State) (n : Nat) (low : Bool) : State :=
  (s.setTest n none).put (testedFld n low) (s.on (R.SO_STATUS_ENERGISED n))

theorem exec_outputTestEnd (n : Fin 2) (level low : Bool) (ht : mapGet (fun _ => none) s.isl.test n.val = some low) :
    exec (.outputTestEnd n level) s = .next (if level = !s.on (R.SO_STATUS_ENERGISED n) then (s.testBack n low).inc (R.SO_STATUS_DP_CNT n)
      else ((s.testBack n low).put (R.SO_STATUS_DP_FLT n) true).islandUpdate) := by
  have he : exec (.outputTestEnd n level) s = execOutputTestEnd n level s := rfl
  rw [he, execOutputTestEnd, ht]
  rfl

/-! ### Feedback -/

/-- A wrong feedback counts as a fault; of a trip output, as one that fails to open (R387). -/
def State.feedbackBad (s : State) (n : Nat) (level : Bool) : State :=
  let s := s.put (R.SO_STATUS_FBK n) level
  (s.put (R.SO_STATUS_FBK_FLT n) true).when (s.rd (R.SO_CFG_FUNC n) == 1) fun s => s.put (R.SO_STATUS_OPEN_FAIL n) true

theorem State.fbkExpected_put (s : State) (hn : n < 2) (b : Bool) : (s.put (R.SO_STATUS_FBK n) b).fbkExpected n = s.fbkExpected n := by
  have hfree : ∀ k, k < 2 → (R.SO_STATUS_FBK k).apart (R.SO_STATUS_ENERGISED k) = true ∧ (R.SO_STATUS_FBK k).apart (R.SO_CFG_FBK_EN k) = true ∧
      (R.SO_STATUS_FBK k).apart (R.SO_CFG_FUNC k) = true ∧ (R.SO_STATUS_FBK k).apart (R.SO_CFG_FBK_POL k) = true := by decide
  obtain ⟨h0, h1, h2, h3⟩ := hfree n hn
  simp only [State.fbkExpected, State.on_put_apart s _ _ b (rfl : (R.SO_STATUS_FBK n).inWord = true) h0,
    State.on_put_apart s _ _ b (rfl : (R.SO_STATUS_FBK n).inWord = true) h1, State.rd_put_apart s _ _ b (rfl : (R.SO_STATUS_FBK n).inWord = true) h2,
    State.on_put_apart s _ _ b (rfl : (R.SO_STATUS_FBK n).inWord = true) h3]

theorem exec_outputFeedbackCheck (n : Fin 2) (level : Bool) (hup : s.islandUp = true) (hf : s.fbkExpected n = some (!level)) :
    exec (.outputFeedbackCheck n level) s = .next (s.feedbackBad n level).islandUpdate := by
  have he : exec (.outputFeedbackCheck n level) s = execOutputFeedbackCheck n level s := rfl
  rw [he, execOutputFeedbackCheck, if_neg (by simp [hup])]
  dsimp only
  rw [State.fbkExpected_put s n.isLt, hf]
  exact congrArg Host.Outcome.next (if_neg (by cases level <;> decide))

/-- The feedback flags of an output with a wrong feedback. -/
theorem State.feedbackBad_spec (s : State) (hn : n < 2) (level : Bool) :
    (s.feedbackBad n level).on (R.SO_STATUS_FBK_FLT n) = true ∧ (s.feedbackBad n level).on (R.SO_STATUS_FBK n) = level ∧
      (s.feedbackBad n level).rd (R.SO_CFG_FUNC n) = s.rd (R.SO_CFG_FUNC n) ∧
      (s.rd (R.SO_CFG_FUNC n) = 1 → (s.feedbackBad n level).on (R.SO_STATUS_OPEN_FAIL n) = true) := by
  have hfree : ∀ k, k < 2 → (R.SO_STATUS_FBK k).apart (R.SO_CFG_FUNC k) = true ∧ (R.SO_STATUS_FBK_FLT k).apart (R.SO_CFG_FUNC k) = true ∧
      (R.SO_STATUS_OPEN_FAIL k).apart (R.SO_CFG_FUNC k) = true ∧ (R.SO_STATUS_OPEN_FAIL k).apart (R.SO_STATUS_FBK_FLT k) = true ∧
      (R.SO_STATUS_OPEN_FAIL k).apart (R.SO_STATUS_FBK k) = true ∧ (R.SO_STATUS_FBK_FLT k).apart (R.SO_STATUS_FBK k) = true := by decide
  obtain ⟨h0, h1, h2, h3, h4, h5⟩ := hfree n hn
  have hfunc : (s.put (R.SO_STATUS_FBK n) level).rd (R.SO_CFG_FUNC n) = s.rd (R.SO_CFG_FUNC n) := State.rd_put_apart _ _ _ _ rfl h0
  have hkeep : ∀ {f}, (R.SO_STATUS_OPEN_FAIL n).apart f = true →
      (s.feedbackBad n level).rd f = ((s.put (R.SO_STATUS_FBK n) level).put (R.SO_STATUS_FBK_FLT n) true).rd f := fun hf =>
    State.when_keeps (fun t => t.rd _ = _) _ _ _ rfl (State.rd_put_apart _ _ _ _ rfl hf)
  refine ⟨?_, ?_, ?_, fun h1' => ?_⟩
  · rw [State.on, hkeep h3, ← State.on, State.on_put_same _ _ _ rfl rfl]
  · rw [State.on, hkeep h4, ← State.on, State.on_put_apart _ _ _ _ rfl h5, State.on_put_same _ _ _ rfl rfl]
  · rw [hkeep h2, State.rd_put_apart _ _ _ _ rfl h1, hfunc]
  · have hc : ((s.put (R.SO_STATUS_FBK n) level).rd (R.SO_CFG_FUNC n) == 1) = true := by simp [hfunc, h1']
    rw [State.feedbackBad, hc, State.when_true, State.on_put_same _ _ _ rfl rfl]

/-! ### Safe Brake Control and the brake test -/

/-- SBC_DLY has passed. -/
def State.sbcBlocks (s : State) : State := { s with isl := { s.isl with sbcBlock := true } }

theorem exec_sbcBlockDelay (hup : s.islandUp = true) (hsbc : s.on R.SAFE_STATE_SBC = true) (hm : s.on R.SBC_CFG_SBC_MODE = true) :
    exec .sbcBlockDelay s = .next s.sbcBlocks.islandUpdate := by
  have he : exec .sbcBlockDelay s = execSbcBlockDelay s := rfl
  rw [he, execSbcBlockDelay, if_pos (by simp [hup, hsbc, hm])]
  rfl

theorem State.noteFns_sbcBlock (s : State) : s.noteFns.isl.sbcBlock = (s.isl.sbcBlock && s.actingFn.sbc) := rfl

theorem State.islandUpdate_sbcBlock (s : State) : s.islandUpdate.isl.sbcBlock = (s.isl.sbcBlock && s.actingFn.sbc) := by
  have hx : (s.noteFns.showFns s.actingFn).isl.sbcBlock = (s.isl.sbcBlock && s.actingFn.sbc) := by
    rw [(State.showFns_keeps _ _).1.2 .isl (by decide), State.noteFns_sbcBlock]
  have hd : s.outputsDriven.isl.sbcBlock = (s.isl.sbcBlock && s.actingFn.sbc) := by
    obtain ⟨l0, h0⟩ := State.driveSo_isl (s.noteFns.showFns s.actingFn) 0
    obtain ⟨l1, h1⟩ := State.driveSo_isl ((s.noteFns.showFns s.actingFn).driveSo 0) 1
    rw [State.outputsDriven_eq, h1, h0, hx]
  rw [State.islandUpdate_isl, State.linesDone_isl, State.functionsDone, (State.showOutputs_keeps _).1.2 .isl (by decide), hd]

/-- Once SBC_DLY has passed, Safe Brake Control demands Safe Block. -/
theorem State.actingFn_sbcBlock (hb : s.isl.sbcBlock = true) (h : s.actingFn.sbc = true) : s.actingFn.sb = true := by
  revert h
  unfold State.actingFn
  split
  · intro h
    simp only [State.closeFn, hb] at h ⊢
    simp [h]
  · exact fun _ => rfl

/-- The brake test has its feedback. -/
def State.brakeHeld (s : State) : State :=
  { s.put R.BT_STATUS_RUNNING true with isl := { (s.put R.BT_STATUS_RUNNING true).isl with bt := 2 } }

theorem State.brakeHeld_rd (s : State) (g : Fld) : s.brakeHeld.rd g = (s.put R.BT_STATUS_RUNNING true).rd g := State.withIsl_rd _ _ g

/-- Every brake channel shows its brake applied. -/
def State.brakesShow (s : State) (l : BitVec 2) : Bool :=
  (upto 2).all fun n => s.rd (R.SO_CFG_FUNC n) != 2 || l.getLsbD n == !s.on (R.SO_CFG_FBK_POL n)

theorem exec_brakeTestFeedback (l : BitVec 2) (h : s.isl.bt = 1) :
    exec (.brakeTestFeedback l) s = .next (if s.brakesShow l then s.brakeHeld else s.failBrakeTest.islandUpdate) := by
  have he : exec (.brakeTestFeedback l) s = execBrakeTestFeedback l s := rfl
  rw [he, execBrakeTestFeedback, if_neg (by simp [h])]
  rfl

/-- No brake test runs. -/
def State.brakeIdle (s : State) : State := { s with isl := { s.isl with bt := 0 } }

theorem State.brakeIdle_rd (s : State) (g : Fld) : s.brakeIdle.rd g = s.rd g := State.withIsl_rd _ _ g

theorem State.failBrakeTest_eq (s : State) : s.failBrakeTest =
    ((((s.brakeIdle.put R.BT_STATUS_RUNNING false).put R.BT_STATUS_PASSED false).put R.BT_STATUS_FAILED true).put R.BT_STATUS_INHIBIT
      true).put R.SAFE_LATCH_BT_FAIL true := rfl

/-- A failed brake test shows and demands (R393). -/
theorem State.failBrakeTest_spec (s : State) : s.failBrakeTest.islandUpdate.on R.BT_STATUS_FAILED = true ∧
    s.failBrakeTest.islandUpdate.on R.BT_STATUS_INHIBIT = true ∧ s.failBrakeTest.islandUpdate.on R.SAFE_LATCH_BT_FAIL = true ∧
    s.failBrakeTest.islandUpdate.on R.SAFE_STATE_SB = true ∧ s.failBrakeTest.islandUpdate.on R.SAFE_STATE_SBC = true ∧
    s.failBrakeTest.islandUpdate.SafeSide := by
  have hbt : s.failBrakeTest.on R.SAFE_LATCH_BT_FAIL = true := by
    rw [State.failBrakeTest_eq, State.on_put_same _ _ _ (by decide) rfl]
  obtain ⟨hsb, -, hsbc⟩ := State.actingFn_of_demand s.failBrakeTest.btFn_mem
  obtain ⟨h1, -, h3⟩ := s.failBrakeTest.islandUpdate_fns
  refine ⟨?_, ?_, ?_, ?_, ?_, State.islandUpdate_safeSide _⟩
  · rw [(State.islandUpdate_writes _).on (by decide), State.failBrakeTest_eq, State.on_put_apart _ _ _ _ (by decide) (by decide),
      State.on_put_apart _ _ _ _ (by decide) (by decide), State.on_put_same _ _ _ (by decide) rfl]
  · rw [(State.islandUpdate_writes _).on (by decide), State.failBrakeTest_eq, State.on_put_apart _ _ _ _ (by decide) (by decide),
      State.on_put_same _ _ _ (by decide) rfl]
  · rw [(State.islandUpdate_writes _).on (by decide), hbt]
  · rw [h1]
    exact hsb (by rw [hbt]; rfl)
  · rw [h3]
    exact hsbc (by rw [hbt]; rfl)

/-- A brake test has passed. -/
def State.brakePassed (s : State) : State :=
  ((((s.brakeIdle.put R.BT_STATUS_RUNNING false).put R.BT_STATUS_PASSED true).put R.BT_STATUS_DUE false).put R.BT_STATUS_INHIBIT
    false).wr R.BT_STATUS_HOURS 0

theorem exec_brakeTestEnd (h : s.isl.bt = 2) :
    exec .brakeTestEnd s = .next (if s.isl.btBad then s.failBrakeTest.islandUpdate else s.brakePassed.islandUpdate) := by
  have he : exec .brakeTestEnd s = execBrakeTestEnd s := rfl
  rw [he, execBrakeTestEnd, if_neg (by simp [h])]
  rfl

/-- An hour of the brake test has passed (R393). -/
def State.hourCounted (s : State) : State :=
  let s := s.inc R.BT_STATUS_HOURS
  let h := s.rd R.BT_STATUS_HOURS
  let bt := s.rd R.BT_CFG_BT_INT
  let s := s.when (bt != 0 && decide (bt ≤ h)) fun s => s.put R.BT_STATUS_DUE true
  s.when (bt != 0 && decide (bt + s.rd R.BT_CFG_BT_GRACE ≤ h)) fun s => s.put R.BT_STATUS_INHIBIT true

theorem exec_brakeTestHour (h3 : s.ist = 3) : exec .brakeTestHour s = .next s.hourCounted.islandUpdate := by
  have he : exec .brakeTestHour s = execBrakeTestHour s := rfl
  rw [he, execBrakeTestHour, if_neg (by simp [h3, Is.run])]
  rfl

theorem State.rd_when_put (s : State) (c b : Bool) {f : Fld} (hf : f.inWord = true) (h : f.apart g = true) :
    (s.when c fun s => s.put f b).rd g = s.rd g :=
  State.when_keeps (fun t => t.rd g = s.rd g) s _ _ rfl (State.rd_put_apart _ _ _ _ hf h)

theorem State.on_when_put (s : State) (c : Bool) {f : Fld} (hf : f.inWord = true) (hw : f.width = 1) (hc : c = true) :
    (s.when c fun s => s.put f true).on f = true := by
  rw [hc, State.when_true, State.on_put_same _ _ _ hf hw]

theorem State.hourCounted_eq (s : State) : s.hourCounted =
    ((s.inc R.BT_STATUS_HOURS).when (s.rd R.BT_CFG_BT_INT != 0 &&
      decide (s.rd R.BT_CFG_BT_INT ≤ (s.inc R.BT_STATUS_HOURS).rd R.BT_STATUS_HOURS)) fun s => s.put R.BT_STATUS_DUE true).when
      (s.rd R.BT_CFG_BT_INT != 0 &&
        decide (s.rd R.BT_CFG_BT_INT + s.rd R.BT_CFG_BT_GRACE ≤ (s.inc R.BT_STATUS_HOURS).rd R.BT_STATUS_HOURS))
      fun s => s.put R.BT_STATUS_INHIBIT true := by
  have hbt : (s.inc R.BT_STATUS_HOURS).rd R.BT_CFG_BT_INT = s.rd R.BT_CFG_BT_INT := State.rd_inc_apart _ _ _ _ (by decide) (by decide)
  have hgr : (s.inc R.BT_STATUS_HOURS).rd R.BT_CFG_BT_GRACE = s.rd R.BT_CFG_BT_GRACE := State.rd_inc_apart _ _ _ _ (by decide) (by decide)
  unfold State.hourCounted
  dsimp only
  rw [State.rd_when_put _ _ _ (by decide) (by decide), hbt, hgr]

theorem State.hourCounted_hours (s : State) : s.hourCounted.rd R.BT_STATUS_HOURS = (s.inc R.BT_STATUS_HOURS).rd R.BT_STATUS_HOURS := by
  rw [State.hourCounted_eq, State.rd_when_put _ _ _ (by decide) (by decide), State.rd_when_put _ _ _ (by decide) (by decide)]

theorem State.hourCounted_spec (s : State) : s.hourCounted.rd R.BT_STATUS_HOURS = Nat.min 65535 (s.rd R.BT_STATUS_HOURS + 1) ∧
    (s.rd R.BT_CFG_BT_INT ≠ 0 → s.rd R.BT_CFG_BT_INT ≤ s.hourCounted.rd R.BT_STATUS_HOURS → s.hourCounted.on R.BT_STATUS_DUE = true) ∧
    (s.rd R.BT_CFG_BT_INT ≠ 0 → s.rd R.BT_CFG_BT_INT + s.rd R.BT_CFG_BT_GRACE ≤ s.hourCounted.rd R.BT_STATUS_HOURS →
      s.hourCounted.on R.BT_STATUS_INHIBIT = true) ∧
    (s.rd R.BT_CFG_BT_INT = 0 → s.hourCounted.on R.BT_STATUS_DUE = s.on R.BT_STATUS_DUE) := by
  rw [State.hourCounted_hours]
  refine ⟨?_, fun h0 hle => ?_, fun h0 hle => ?_, fun h0 => ?_⟩
  · rw [State.inc, State.rd_wr_same _ _ _ (by decide)]
    exact Nat.mod_eq_of_lt (Nat.lt_of_le_of_lt (Nat.min_le_left _ _) (by decide))
  · rw [State.hourCounted_eq, State.on, State.rd_when_put _ _ _ (by decide) (by decide), ← State.on]
    exact State.on_when_put _ _ (by decide) rfl (by simp [h0, hle])
  · rw [State.hourCounted_eq]
    exact State.on_when_put _ _ (by decide) rfl (by simp [h0, hle])
  · rw [State.hourCounted_eq, State.on, State.rd_when_put _ _ _ (by decide) (by decide), h0, bne_self_eq_false, Bool.false_and,
      State.when_false, State.rd_inc_apart _ _ _ _ (by decide) (by decide), State.on]

/-! ### The mate link -/

theorem exec_mateNotLive (b : Bool) (hup : s.islandUp = true) :
    exec (.mateNotLive b) s = .next (s.put (if b then R.MATE_LIVE_B else R.MATE_LIVE_A) false).islandUpdate := by
  have he : exec (.mateNotLive b) s = execMateNotLive b s := rfl
  rw [he, execMateNotLive, if_pos hup]

theorem exec_mateFault (hup : s.islandUp = true) (hen : s.on R.MATE_MATE_EN = true) (hne : s.on R.MATE_LIVE_A ≠ s.on R.MATE_LIVE_B) :
    exec .mateFault s = .next (s.put R.MATE_MATE_FLT true).islandUpdate := by
  have he : exec .mateFault s = execMateFault s := rfl
  rw [he, execMateFault, if_pos (by simp [hup, hen, hne])]

/-- The mate link that demands brings Safe Block (R395). -/
theorem State.islandUpdate_mateDemand (h : s.mateFn.sb = true) : s.islandUpdate.on R.SAFE_STATE_SB = true := by
  rw [(State.islandUpdate_fns s).1]
  unfold State.actingFn
  split
  · simp [State.closeFn, Fn.join, h]
  · rfl

/-! ### The obligation -/

/-- Settles O43: an output with a fault is not wanted, and each demand of the table acts at the update that follows it. -/
theorem safeOutputsBrakeAndMate : Obligations.SafeOutputsBrakeAndMate := by
  refine ⟨fun s n low level hup ht hd => ?_, fun s n low h3 hf ht => ?_, fun s n level low ht hl => ?_, fun s n level low ht hl => ?_,
    fun s n level hup hf => ?_, fun s hup hsbc hm => ?_, fun s l hbt hl => ?_, fun s l hbt hf hl => ?_, fun s hbt hb => ?_, fun s hbt hb => ?_,
    fun s h3 => ?_, fun s b hup hen => ?_, fun s hup hen hne => ?_⟩
  · obtain ⟨hrb, hflt⟩ := s.readbackBad_faulty n low level
    have hfree := soFlt_free n.isLt
    have ht' : mapGet (fun _ => none) (s.readbackBad n low level).isl.test n.val = none := by
      rw [State.readbackBad, State.put_isl, State.put_isl, ht]
    obtain ⟨hen, hoff⟩ := State.islandUpdate_faulty n.isLt hflt
    obtain ⟨hhs, hls⟩ := hoff ht'
    have hcfg : ∀ k, k < 2 → ∀ b, (readbackFld k b).apart (R.SO_CFG_FUNC k) = true ∧ (R.SO_STATUS_RB_FLT k).apart (R.SO_CFG_FUNC k) = true := by
      decide
    rw [exec_outputReadbackFault n low level hup ht hd]
    refine reaches_next ⟨?_, hen, hhs, hls, State.islandUpdate_safeSide _, fun hfn => State.islandUpdate_faultyTrip n.isLt hflt ?_⟩
    · rw [(State.islandUpdate_writes _).on hfree.1, hrb]
    · rw [State.readbackBad, State.rd_put_apart _ _ _ _ rfl (hcfg n n.isLt low).2,
        State.rd_put_apart _ _ _ _ (readbackFld_width _ _).2 (hcfg n n.isLt low).1, hfn]
  · obtain ⟨hw, hin⟩ := testedFld_width n low
    obtain ⟨hother, hen, -⟩ := testedFld_apart n low
    rw [exec_outputTestStart n low h3 hf ht]
    refine reaches_next ⟨State.on_put_same _ (testedFld n low) _ hin hw, ?_, ?_, ?_⟩
    · have h := State.on_put_apart (s.setTest n (some low)) _ _ (!s.on (R.SO_STATUS_ENERGISED n)) hin hother
      rw [State.setTest_on] at h
      cases low <;> exact h
    · rw [State.on_put_apart _ _ _ _ hin hen, State.setTest_on]
    · rw [State.put_isl, State.setTest_test]
  · obtain ⟨hw, hin⟩ := testedFld_width n low
    obtain ⟨-, -, hcnt, hflt⟩ := testedFld_apart n low
    have hcd : ∀ k, (R.SO_STATUS_DP_CNT k).apart (R.SO_STATUS_DP_FLT k) = true ∧ (R.SO_STATUS_DP_CNT k).apart (testedFld k low) = true := by
      intro k
      cases low <;> simp [testedFld, Fld.apart, R.SO_STATUS_DP_CNT, R.SO_STATUS_DP_FLT, R.SO_STATUS_LS_DRV, R.SO_STATUS_HS_DRV]
    rw [exec_outputTestEnd n level low ht, if_pos hl]
    refine reaches_next ⟨?_, ?_, ?_, ?_⟩
    · rw [State.inc, State.rd_wr_same _ _ _ rfl, State.testBack, State.rd_put_apart _ _ _ _ hin hcnt, State.setTest_rd]
      exact Nat.mod_eq_of_lt (Nat.lt_of_le_of_lt (Nat.min_le_left 65535 _) (by decide : 65535 < 2 ^ 16))
    · have h : ((s.testBack n low).inc (R.SO_STATUS_DP_CNT n)).on (testedFld n low) = s.on (R.SO_STATUS_ENERGISED n) := by
        rw [State.on, State.rd_inc_apart _ _ _ _ rfl (hcd n).2, ← State.on, State.testBack, State.on_put_same _ _ _ hin hw]
      exact h
    · rw [State.inc_isl, State.testBack, State.put_isl, State.setTest_test]
    · rw [State.on, State.rd_inc_apart _ _ _ _ rfl (hcd n).1, State.testBack, State.rd_put_apart _ _ _ _ hin hflt, State.setTest_rd, State.on]
  · have hne : ¬level = !s.on (R.SO_STATUS_ENERGISED n) := by
      rw [hl]
      cases s.on (R.SO_STATUS_ENERGISED n) <;> decide
    have hdp : ((s.testBack n low).put (R.SO_STATUS_DP_FLT n) true).on (R.SO_STATUS_DP_FLT n) = true := State.on_put_same _ _ _ rfl rfl
    have hflt : ((s.testBack n low).put (R.SO_STATUS_DP_FLT n) true).soFault n = true := by simp [State.soFault, hdp]
    rw [exec_outputTestEnd n level low ht, if_neg hne]
    exact reaches_next ⟨((State.islandUpdate_writes _).on (soFlt_free n.isLt).2.1).trans hdp, (State.islandUpdate_faulty n.isLt hflt).1,
      State.islandUpdate_safeSide _⟩
  · obtain ⟨hflt, hfbk, hfunc, hopen⟩ := s.feedbackBad_spec n.isLt level
    obtain ⟨-, -, h2, h3, h4, -⟩ := soFlt_free n.isLt
    have hso : (s.feedbackBad n level).soFault n = true := by simp [State.soFault, hflt]
    rw [exec_outputFeedbackCheck n level hup hf]
    refine reaches_next ⟨((State.islandUpdate_writes _).on h2).trans hflt, ((State.islandUpdate_writes _).on h3).trans hfbk,
      (State.islandUpdate_faulty n.isLt hso).1, State.islandUpdate_safeSide _, fun hfn => ⟨((State.islandUpdate_writes _).on h4).trans (hopen hfn), ?_⟩⟩
    exact State.islandUpdate_faultyTrip n.isLt hso (hfunc.trans hfn)
  · rw [exec_sbcBlockDelay hup hsbc hm]
    refine reaches_next ⟨State.islandUpdate_safeSide _, fun h => ?_⟩
    rw [(State.islandUpdate_fns _).2.2] at h
    rw [(State.islandUpdate_fns _).1, State.islandUpdate_sbcBlock, h]
    exact ⟨State.actingFn_sbcBlock rfl h, rfl⟩
  · have hs : s.brakesShow l = true := List.all_eq_true.2 fun n hn => by
      by_cases h2 : s.rd (R.SO_CFG_FUNC n) = 2
      · simp [hl n (List.mem_range.1 hn) h2]
      · simp [h2]
    rw [exec_brakeTestFeedback l hbt, if_pos hs]
    refine reaches_next ⟨?_, rfl, ?_⟩
    · rw [State.on, State.brakeHeld_rd, ← State.on, State.on_put_same _ _ _ (by decide) rfl]
    · rw [State.on, State.brakeHeld_rd, State.rd_put_apart _ _ _ _ (by decide) (by decide), State.on]
  · have hs : ¬s.brakesShow l = true := fun h => by
      have h1 := List.all_eq_true.1 h 1 (by decide)
      rw [hf, hl] at h1
      revert h1
      cases s.on (R.SO_CFG_FBK_POL 1) <;> decide
    rw [exec_brakeTestFeedback l hbt, if_neg hs]
    exact reaches_next s.failBrakeTest_spec
  · rw [exec_brakeTestEnd hbt, hb, if_neg (by decide)]
    have hrd : ∀ g, byIsland g = false → s.brakePassed.islandUpdate.rd g = s.brakePassed.rd g := fun g hg => State.islandUpdate_writes _ g hg
    refine reaches_next ⟨?_, ?_, ?_, ?_, ?_, State.islandUpdate_safeSide _⟩
    · rw [State.on, hrd _ (by decide), State.brakePassed, State.rd_wr_apart _ _ _ _ (by decide) (by decide),
        State.rd_put_apart _ _ _ _ (by decide) (by decide), State.rd_put_apart _ _ _ _ (by decide) (by decide), ← State.on,
        State.on_put_same _ _ _ (by decide) rfl]
    · rw [State.on, hrd _ (by decide), State.brakePassed, State.rd_wr_apart _ _ _ _ (by decide) (by decide),
        State.rd_put_apart _ _ _ _ (by decide) (by decide), State.rd_put_apart _ _ _ _ (by decide) (by decide),
        State.rd_put_apart _ _ _ _ (by decide) (by decide), ← State.on, State.on_put_same _ _ _ (by decide) rfl]
    · rw [State.on, hrd _ (by decide), State.brakePassed, State.rd_wr_apart _ _ _ _ (by decide) (by decide),
        State.rd_put_apart _ _ _ _ (by decide) (by decide), ← State.on, State.on_put_same _ _ _ (by decide) rfl]
    · rw [State.on, hrd _ (by decide), State.brakePassed, State.rd_wr_apart _ _ _ _ (by decide) (by decide), ← State.on,
        State.on_put_same _ _ _ (by decide) rfl]
    · rw [hrd _ (by decide), State.brakePassed, State.rd_wr_same _ _ _ (by decide)]
      rfl
  · obtain ⟨h1, h2, -, -, h5, h6⟩ := s.failBrakeTest_spec
    rw [exec_brakeTestEnd hbt, hb, if_pos rfl]
    exact reaches_next ⟨h1, h2, h5, h6⟩
  · obtain ⟨hh, hdue, hinh, hsame⟩ := s.hourCounted_spec
    have hrd : ∀ g, byIsland g = false → s.hourCounted.islandUpdate.rd g = s.hourCounted.rd g := fun g hg => State.islandUpdate_writes _ g hg
    have hon : ∀ g, byIsland g = false → s.hourCounted.islandUpdate.on g = s.hourCounted.on g := fun g hg => (State.islandUpdate_writes _).on hg
    rw [exec_brakeTestHour h3]
    refine reaches_next ?_
    rw [hrd _ (by decide), hon _ (by decide), hon _ (by decide)]
    exact ⟨hh, hdue, hinh, hsame, State.islandUpdate_safeSide _⟩
  · have hlive : (s.put (if b then R.MATE_LIVE_B else R.MATE_LIVE_A) false).on (if b then R.MATE_LIVE_B else R.MATE_LIVE_A) = false := by
      cases b <;> exact State.on_put_same _ _ _ (by decide) rfl
    have hen' : (s.put (if b then R.MATE_LIVE_B else R.MATE_LIVE_A) false).on R.MATE_MATE_EN = true := by
      rw [State.on_put_apart _ _ _ _ (by cases b <;> decide) (by cases b <;> decide), hen]
    have hfn : (s.put (if b then R.MATE_LIVE_B else R.MATE_LIVE_A) false).mateFn.sb = true := by
      simp only [State.mateFn, hen', Bool.true_and, Bool.or_eq_true, Bool.not_eq_true', Bool.and_eq_false_iff]
      cases b
      · exact .inl (.inl hlive)
      · exact .inl (.inr hlive)
    rw [exec_mateNotLive b hup]
    refine reaches_next ⟨?_, State.islandUpdate_mateDemand hfn, by rw [(State.islandUpdate_mate _).1, hfn], State.islandUpdate_safeSide _⟩
    rw [(State.islandUpdate_writes _).on (by cases b <;> decide), hlive]
  · have hflt : (s.put R.MATE_MATE_FLT true).on R.MATE_MATE_FLT = true := State.on_put_same _ _ _ (by decide) rfl
    have hen' : (s.put R.MATE_MATE_FLT true).on R.MATE_MATE_EN = true := by rw [State.on_put_apart _ _ _ _ (by decide) (by decide), hen]
    have hfn : (s.put R.MATE_MATE_FLT true).mateFn.sb = true := by simp [State.mateFn, hen', hflt]
    rw [exec_mateFault hup hen hne]
    refine reaches_next ⟨((State.islandUpdate_writes _).on (by decide)).trans hflt, State.islandUpdate_mateDemand hfn, ?_,
      State.islandUpdate_safeSide _⟩
    rw [(State.islandUpdate_mate _).2, hflt]

end Sys2Proof.Machine
end

section
/-! O46: latched classes never fall by an event, and Lock-class latches stand under clears and resets (R411 to R419). -/

namespace Sys2Proof.Machine

variable {s t u : State} {f g : Fld} {i j : Nat}

/-! ### Single bits and loops -/

theorem State.bit_putBit_ne (s : State) (f : Fld) {i j : Nat} (b : Bool) (hf : f.inWord = true) (hj : j < f.width) (h : i ≠ j) :
    (s.putBit f i b).bit f j = s.bit f j := by
  rw [State.bit, State.putBit, State.rd_wr_same s f _ hf, bitOf_mod_two_pow hj, bitOf_putBit_ne _ _ _ _ h, State.bit]

theorem State.bit_wr_apart (s : State) (f g : Fld) (v k : Nat) (hf : f.inWord = true) (h : f.apart g = true) :
    (s.wr f v).bit g k = s.bit g k := by
  rw [State.bit, State.rd_wr_apart s f g v hf h, State.bit]

/-- What a loop brings about for one element stays where every turn keeps it. -/
theorem State.forL_sets {α : Type} {A B : State → Prop} {l : List α} {k : α → State → State} {a : α}
    (before : ∀ b ∈ l, ∀ u, A u → A (k b u)) (keep : ∀ b ∈ l, ∀ u, B u → B (k b u)) (ha : a ∈ l) (turn : ∀ u, A u → B (k a u))
    {s : State} (hs : A s) : B (s.forL l k) := by
  induction l generalizing s with
  | nil => cases ha
  | cons b l ih =>
    have hkeep : ∀ b ∈ l, ∀ u, B u → B (k b u) := fun c hc => keep c (List.mem_cons_of_mem _ hc)
    rcases List.mem_cons.1 ha with rfl | ha
    · exact State.forL_keeps B l k hkeep _ (turn s hs)
    · exact ih (fun c hc => before c (List.mem_cons_of_mem _ hc)) hkeep ha (before b (by simp) s hs)

/-! ### What an event adds to the latches -/

/-- Source `i` holds in `t` at least what it holds in `s`. -/
def State.Rises (i : Nat) (s t : State) : Prop := s.lclass i ≤ t.lclass i ∧ (s.latched i = true → t.latched i = true)

theorem State.Rises.refl (i : Nat) (s : State) : State.Rises i s s := ⟨Nat.le_refl _, id⟩

theorem State.Rises.trans (h : State.Rises i s t) (h' : State.Rises i t u) : State.Rises i s u :=
  ⟨h.1.trans h'.1, fun hs => h'.2 (h.2 hs)⟩

/-- Both words of source `i` read alike. -/
theorem State.Rises.of_rd (hl : t.rd (R.FLT_SRC_ST_LCLASS i) = s.rd (R.FLT_SRC_ST_LCLASS i))
    (hs : t.rd (R.FLT_STAT_LATCH (i / 32)) = s.rd (R.FLT_STAT_LATCH (i / 32))) : State.Rises i s t := by
  refine ⟨Nat.le_of_eq hl.symm, fun h => ?_⟩
  rw [State.latched, State.bit, hs]
  exact h

theorem State.Rises.of_writes {W : Fld → Bool} (h : State.Writes W s t) (hl : W (R.FLT_SRC_ST_LCLASS i) = false)
    (hs : W (R.FLT_STAT_LATCH (i / 32)) = false) : State.Rises i s t := .of_rd (h _ hl) (h _ hs)

theorem State.Rises.wr_apart (s : State) (f : Fld) (v : Nat) (hf : f.inWord = true) (hl : f.apart (R.FLT_SRC_ST_LCLASS i) = true)
    (hs : f.apart (R.FLT_STAT_LATCH (i / 32)) = true) : State.Rises i s (s.wr f v) :=
  .of_rd (State.rd_wr_apart s f _ v hf hl) (State.rd_wr_apart s f _ v hf hs)

/-- The words that hold the latches, and the classes and configurations of the sources. -/
def standWord (a : Nat) : Bool :=
  (decide (0x40800000 ≤ a) && decide (a < 0x40800010)) || (decide (0x40800400 ≤ a) && decide (a < 0x40800C08) && a % 8 == 0)

theorem standWord_iff {a : Nat} : standWord a = true ↔
    (0x40800000 ≤ a ∧ a < 0x40800010) ∨ (0x40800400 ≤ a ∧ a < 0x40800C08 ∧ a % 8 = 0) := by
  simp only [standWord, Bool.or_eq_true, Bool.and_eq_true, decide_eq_true_eq, beq_iff_eq, and_assoc]

theorem latch_word (hi : i < 128) : standWord (R.FLT_STAT_LATCH (i / 32)).addr = true :=
  standWord_iff.2 (by dsimp only [R.FLT_STAT_LATCH]; omega)

theorem lclass_word (hi : i < 128) : standWord (R.FLT_SRC_ST_LCLASS i).addr = true :=
  standWord_iff.2 (by dsimp only [R.FLT_SRC_ST_LCLASS]; omega)

theorem base_word (hi : i < 128) : standWord (R.FLT_SRC_CFG_BASE i).addr = true :=
  standWord_iff.2 (by dsimp only [R.FLT_SRC_CFG_BASE]; omega)

theorem live_apart_word (hi : i < 128) : standWord (R.FLT_LIVE_LIVE (i / 32)).addr = false :=
  Bool.eq_false_iff.2 fun h => by have := standWord_iff.1 h; dsimp only [R.FLT_LIVE_LIVE] at this; omega

theorem Fld.apart_of_standWord (hf : standWord f.addr = false) (hg : standWord g.addr = true) : f.apart g = true :=
  Fld.apart_of_addr fun he => by rw [he, hf] at hg; cases hg

theorem byReaction_standWord (h : standWord g.addr = true) : byReaction g = false := by
  refine Bool.or_eq_false_iff.2 ⟨List.any_eq_false.2 fun f hf => ?_, rfl⟩
  simp [Fld.apart_of_standWord ((by decide : ∀ f ∈ reactionFlds, standWord f.addr = false) f hf) h]

/-- A write outside those words leaves every latch. -/
theorem State.Rises.wr_word (s : State) (f : Fld) (v : Nat) (hi : i < 128) (hf : f.inWord = true) (h : standWord f.addr = false) :
    State.Rises i s (s.wr f v) :=
  .of_rd (State.rd_wr_apart s f _ v hf (Fld.apart_of_standWord h (lclass_word hi)))
    (State.rd_wr_apart s f _ v hf (Fld.apart_of_standWord h (latch_word hi)))

theorem State.Rises.of_reaction (hi : i < 128) (h : State.ReactsIn byReaction s t) : State.Rises i s t :=
  .of_rd (h.writes _ (byReaction_standWord (lclass_word hi))) (h.writes _ (byReaction_standWord (latch_word hi)))

/-! ### One event -/

/-- The class that an event of source `i` latches with (R412, R413). -/
def State.eventClass (s : State) (i : Nat) : Nat :=
  if (s.escalation i).2 then Nat.max (s.rd (R.FLT_SRC_CFG_BASE i)) (s.rd (R.FLT_SRC_CFG_ESC_CLASS i)) else s.rd (R.FLT_SRC_CFG_BASE i)

/-- The event is counted. -/
def State.countEvent (s : State) (i : Nat) : State :=
  let s := (s.inc (R.FLT_SRC_ST_EVT_CNT i)).setHist i (s.escalation i).1
  { s with flt := { s.flt with events := if s.flt.events.contains i then s.flt.events else s.flt.events ++ [i] } }

/-- The source stands latched with a class. -/
def State.setLatch (s : State) (i cls : Nat) : State :=
  (s.putBit (R.FLT_STAT_LATCH (i / 32)) (i % 32) true).wr (R.FLT_SRC_ST_LCLASS i) cls

/-- The source latches with a class, or keeps a class above it. -/
def State.latchClass (s : State) (i cls : Nat) : State := s.setLatch i (Nat.max (s.lclass i) cls)

/-- The source shows that it has escalated. -/
def State.showEscalated (s : State) (i : Nat) : State :=
  (s.put (R.FLT_SRC_ST_ESC i) true).putBit (R.FLT_ESC_ESC (i / 32)) (i % 32) true

theorem State.fltEvent_eq (s : State) (i : Nat) : s.fltEvent i =
    if s.eventClass i = 0 then s.countEvent i
    else ((s.countEvent i).latchClass i (s.eventClass i)).when (s.escalation i).2 fun s => s.showEscalated i := rfl

theorem State.eventClass_lt (s : State) (i : Nat) : s.eventClass i < 8 := by
  have hb := s.rd_lt (R.FLT_SRC_CFG_BASE i)
  have he := s.rd_lt (R.FLT_SRC_CFG_ESC_CLASS i)
  unfold State.eventClass
  split
  · exact Nat.max_lt.2 ⟨hb, he⟩
  · exact hb

theorem State.base_le_eventClass (s : State) (i : Nat) : s.rd (R.FLT_SRC_CFG_BASE i) ≤ s.eventClass i := by
  unfold State.eventClass
  split
  · exact Nat.le_max_left _ _
  · exact Nat.le_refl _

theorem State.eventClass_le {c : Nat} (hb : s.rd (R.FLT_SRC_CFG_BASE i) ≤ c) (he : s.rd (R.FLT_SRC_CFG_ESC_CLASS i) ≤ c) :
    s.eventClass i ≤ c := by
  unfold State.eventClass
  split
  · exact Nat.max_le.2 ⟨hb, he⟩
  · exact hb

theorem State.withFlt_regs (s : State) (x : Flt) : ({ s with flt := x } : State).regs = s.regs := rfl

theorem State.setHist_regs (s : State) (i : Nat) (h : List Nat) : (s.setHist i h).regs = s.regs := rfl

theorem State.countEvent_regs (s : State) (i : Nat) : (s.countEvent i).regs = (s.inc (R.FLT_SRC_ST_EVT_CNT i)).regs :=
  (State.withFlt_regs _ _).trans (State.setHist_regs _ _ _)

theorem State.countEvent_rd (h : (R.FLT_SRC_ST_EVT_CNT i).apart g = true) : (s.countEvent i).rd g = s.rd g :=
  (State.rd_congr _ _ (State.countEvent_regs s i) g).trans (State.rd_inc_apart s _ _ _ rfl h)

theorem State.countEvent_lclass (s : State) (i j : Nat) : (s.countEvent i).lclass j = s.lclass j :=
  State.countEvent_rd (by simp [Fld.apart, R.FLT_SRC_ST_EVT_CNT, R.FLT_SRC_ST_LCLASS])

theorem State.countEvent_latched (s : State) (i : Nat) (hj : j < 128) : (s.countEvent i).latched j = s.latched j := by
  rw [State.latched, State.bit, State.countEvent_rd (Fld.apart_of_addr (by dsimp only [R.FLT_SRC_ST_EVT_CNT, R.FLT_STAT_LATCH]; omega)),
    State.latched, State.bit]

theorem State.setLatch_lclass (s : State) (hi : i < 128) (j : Nat) {c : Nat} (hc : c < 8) :
    (s.setLatch i c).lclass j = if j = i then c else s.lclass j := by
  split
  next h =>
    subst h
    rw [State.lclass, State.setLatch, State.rd_wr_same _ _ _ rfl]
    exact Nat.mod_eq_of_lt hc
  next h =>
    rw [State.lclass, State.setLatch, State.rd_wr_apart _ _ _ _ rfl (Fld.apart_of_addr (by dsimp only [R.FLT_SRC_ST_LCLASS]; omega)),
      State.rd_putBit_apart _ _ _ _ _ rfl (Fld.apart_of_addr (by dsimp only [R.FLT_SRC_ST_LCLASS, R.FLT_STAT_LATCH]; omega)), State.lclass]

theorem State.latched_putLatch (s : State) (hi : i < 128) (hj : j < 128) (b : Bool) :
    (s.putBit (R.FLT_STAT_LATCH (i / 32)) (i % 32) b).latched j = if j = i then b else s.latched j := by
  rw [State.latched]
  by_cases hw : j / 32 = i / 32
  · rw [hw]
    split
    next hij => rw [hij, State.bit_putBit_same _ _ _ _ rfl (show i % 32 < 32 by omega)]
    next hij => rw [State.bit_putBit_ne _ _ _ rfl (show j % 32 < 32 by omega) (by omega), State.latched, hw]
  · rw [State.putBit, State.bit_wr_apart _ _ _ _ _ rfl (Fld.apart_of_addr (by dsimp only [R.FLT_STAT_LATCH]; omega)),
      if_neg (by omega), State.latched]

theorem State.setLatch_latched (s : State) (hi : i < 128) (hj : j < 128) (c : Nat) :
    (s.setLatch i c).latched j = (j == i || s.latched j) := by
  rw [State.latched, State.setLatch, State.bit_wr_apart _ _ _ _ _ rfl
    (Fld.apart_of_addr (by dsimp only [R.FLT_SRC_ST_LCLASS, R.FLT_STAT_LATCH]; omega)), ← State.latched, State.latched_putLatch s hi hj]
  by_cases hij : j = i
  · rw [if_pos hij, hij, beq_self_eq_true, Bool.true_or]
  · rw [if_neg hij, beq_eq_false_iff_ne.2 hij, Bool.false_or]

theorem State.latchClass_lclass (s : State) (hi : i < 128) (j : Nat) {c : Nat} (hc : c < 8) :
    (s.latchClass i c).lclass j = if j = i then Nat.max (s.lclass i) c else s.lclass j :=
  State.setLatch_lclass s hi j (Nat.max_lt.2 ⟨s.rd_lt (R.FLT_SRC_ST_LCLASS i), hc⟩)

theorem State.latchClass_latched (s : State) (hi : i < 128) (hj : j < 128) (c : Nat) :
    (s.latchClass i c).latched j = (j == i || s.latched j) := State.setLatch_latched s hi hj _

theorem State.showEscalated_lclass (s : State) (hi : i < 128) (j : Nat) : (s.showEscalated i).lclass j = s.lclass j := by
  rw [State.lclass, State.showEscalated, State.rd_putBit_apart _ _ _ _ _ rfl
      (Fld.apart_of_addr (by dsimp only [R.FLT_SRC_ST_LCLASS, R.FLT_ESC_ESC]; omega)),
    State.rd_put_apart _ _ _ _ rfl (by simp [Fld.apart, R.FLT_SRC_ST_LCLASS, R.FLT_SRC_ST_ESC]), State.lclass]

theorem State.showEscalated_latched (s : State) (hi : i < 128) (hj : j < 128) : (s.showEscalated i).latched j = s.latched j := by
  rw [State.latched, State.bit, State.showEscalated, State.rd_putBit_apart _ _ _ _ _ rfl
      (Fld.apart_of_addr (by dsimp only [R.FLT_STAT_LATCH, R.FLT_ESC_ESC]; omega)),
    State.rd_put_apart _ _ _ _ rfl (Fld.apart_of_addr (by dsimp only [R.FLT_STAT_LATCH, R.FLT_SRC_ST_ESC]; omega)), State.latched, State.bit]

/-- An event raises the class of its own source, to the class of the event (R412). -/
theorem State.fltEvent_lclass (s : State) (hi : i < 128) (j : Nat) :
    (s.fltEvent i).lclass j = if j = i then Nat.max (s.lclass i) (s.eventClass i) else s.lclass j := by
  rw [State.fltEvent_eq]
  split
  next h0 =>
    rw [State.countEvent_lclass, h0]
    split
    next h => rw [h]; exact (Nat.max_eq_left (Nat.zero_le _)).symm
    · rfl
  · refine State.when_keeps (fun t => t.lclass j = _) _ _ _ ?_ ?_
    · rw [State.latchClass_lclass _ hi j (s.eventClass_lt i), State.countEvent_lclass, State.countEvent_lclass]
    · rw [State.showEscalated_lclass _ hi, State.latchClass_lclass _ hi j (s.eventClass_lt i), State.countEvent_lclass, State.countEvent_lclass]

/-- An event of a class above None latches its source. -/
theorem State.fltEvent_latched (s : State) (hi : i < 128) (hj : j < 128) :
    (s.fltEvent i).latched j = (j == i && s.eventClass i != 0 || s.latched j) := by
  rw [State.fltEvent_eq]
  split
  next h0 => rw [State.countEvent_latched s i hj, h0, bne_self_eq_false, Bool.and_false, Bool.false_or]
  next h0 =>
    rw [bne_iff_ne.2 h0, Bool.and_true]
    refine State.when_keeps (fun t => t.latched j = _) _ _ _ ?_ ?_
    · rw [State.latchClass_latched _ hi hj, State.countEvent_latched s i hj]
    · rw [State.showEscalated_latched _ hi hj, State.latchClass_latched _ hi hj, State.countEvent_latched s i hj]

theorem State.fltEvent_rises (s : State) (hi : i < 128) (hj : j < 128) : State.Rises j s (s.fltEvent i) := by
  refine ⟨?_, fun h => by rw [State.fltEvent_latched s hi hj, h, Bool.or_true]⟩
  rw [State.fltEvent_lclass s hi]
  split
  next h => rw [h]; exact Nat.le_max_left _ _
  · exact Nat.le_refl _

/-! ### The events of a cycle -/

/-- The live cause of a level source shows (R411). -/
def State.noteLive (s : State) (i : Nat) : State :=
  s.when (s.levelSource i) fun s => s.putBit (R.FLT_LIVE_LIVE (i / 32)) (i % 32) true

theorem State.latchAll_eq (s : State) (rs : List Raise) :
    s.latchAll rs = s.forL rs fun r s => (s.noteLive r.src.val).fltEvent r.src.val := rfl

theorem State.noteLive_rd (s : State) (hi : i < 128) (h : standWord g.addr = true) : (s.noteLive i).rd g = s.rd g :=
  State.when_keeps (fun t => t.rd g = s.rd g) s _ _ rfl
    (State.rd_putBit_apart _ _ _ _ _ rfl (Fld.apart_of_standWord (live_apart_word hi) h))

theorem State.eventTurn_rises (s : State) (hi : i < 128) (hj : j < 128) : State.Rises j s ((s.noteLive i).fltEvent i) :=
  (State.Rises.of_rd (s.noteLive_rd hi (lclass_word hj)) (s.noteLive_rd hi (latch_word hj))).trans (State.fltEvent_rises _ hi hj)

theorem State.latchAll_rises (s : State) (rs : List Raise) (hj : j < 128) : State.Rises j s (s.latchAll rs) := by
  rw [State.latchAll_eq]
  exact State.forL_keeps (State.Rises j s) rs _ (fun r _ u hu => hu.trans (State.eventTurn_rises u r.src.isLt hj)) s (.refl j s)

/-- No event makes a latched class fall (R414). -/
theorem State.raiseAll_rises (s : State) (rs : List Raise) (hj : j < 128) : State.Rises j s (s.raiseAll rs) := by
  rw [State.raiseAll_eq]
  exact (State.latchAll_rises s _ hj).trans (.of_reaction hj (State.reactAll_reacts _ _ _))

theorem bySource_cfg {a : Nat} (ha : a % 16 = 0) (h : 0x40800400 ≤ a) (lo w : Nat) : bySource ⟨a, lo, w⟩ = false := by
  have hw : sourceWord a = false := Bool.eq_false_iff.2 fun hw => by have := sourceWord_iff.1 hw; omega
  rw [bySource, near, hw]
  rfl

theorem bySource_base (i : Nat) : bySource (R.FLT_SRC_CFG_BASE i) = false := bySource_cfg (by omega) (by omega) _ _

theorem bySource_escClass (i : Nat) : bySource (R.FLT_SRC_CFG_ESC_CLASS i) = false := bySource_cfg (by omega) (by omega) _ _

theorem State.eventTurn_reacts (s : State) (hi : i < 128) : State.ReactsIn bySource s ((s.noteLive i).fltEvent i) :=
  ((State.ReactsIn.refl s).when fun w => (State.ReactsIn.refl w).putBit (live_within (by omega)) _ _).trans (State.fltEvent_reacts _ hi)

/-- Source `i` is latched with class `b` or above. -/
def State.LatchedFrom (i b : Nat) (s : State) : Prop := s.latched i = true ∧ b ≤ s.lclass i

theorem State.LatchedFrom.rises {b : Nat} (h : State.LatchedFrom i b s) (hr : State.Rises i s t) : State.LatchedFrom i b t :=
  ⟨hr.2 h.1, h.2.trans hr.1⟩

theorem State.fltEvent_latchedFrom {b : Nat} (hi : i < 128) (hb : s.rd (R.FLT_SRC_CFG_BASE i) = b) (h1 : 1 ≤ b) :
    State.LatchedFrom i b (s.fltEvent i) := by
  have hle := s.base_le_eventClass i
  constructor
  · rw [State.fltEvent_latched s hi hi, beq_self_eq_true, bne_iff_ne.2 (by omega), Bool.and_self, Bool.true_or]
  · rw [State.fltEvent_lclass s hi, if_pos rfl, ← hb]
    exact hle.trans (Nat.le_max_right _ _)

/-- Every source with an event of base class Notice or above is latched after the cycle (R412). -/
theorem State.raiseAll_latches {rs : List Raise} {r : Raise} (hr : r ∈ rs) (hres : reservedSource r.src = false)
    (hb : 1 ≤ s.rd (R.FLT_SRC_CFG_BASE r.src)) : State.LatchedFrom r.src (s.rd (R.FLT_SRC_CFG_BASE r.src)) (s.raiseAll rs) := by
  have hi := r.src.isLt
  have hmem : r ∈ raisable rs := List.mem_filter.2 ⟨hr, by simp [hres]⟩
  rw [State.raiseAll_eq]
  refine State.LatchedFrom.rises ?_ (.of_reaction hi (State.reactAll_reacts _ _ _))
  rw [State.latchAll_eq]
  refine State.forL_sets (A := fun u => u.rd (R.FLT_SRC_CFG_BASE r.src) = s.rd (R.FLT_SRC_CFG_BASE r.src))
    (fun q _ u hu => ?_) (fun q _ u hu => hu.rises (State.eventTurn_rises u q.src.isLt hi)) hmem (fun u hu => ?_) rfl
  · exact ((State.eventTurn_reacts u q.src.isLt).writes _ (bySource_base _)).trans hu
  · exact State.fltEvent_latchedFrom hi ((u.noteLive_rd hi (base_word hi)).trans hu) hb

/-! ### A Lock-class latch -/

/-- Source `i` stands latched with class Lock. -/
def State.Locked (i : Nat) (s : State) : Prop := s.latched i = true ∧ s.lclass i = 5

theorem State.Locked.of_rd (h : s.Locked i) (hi : i < 128) (hr : ∀ g, standWord g.addr = true → t.rd g = s.rd g) : t.Locked i := by
  refine ⟨?_, (hr _ (lclass_word hi)).trans h.2⟩
  rw [State.latched, State.bit, hr _ (latch_word hi)]
  exact h.1

theorem State.Locked.wr (h : s.Locked i) (hi : i < 128) (v : Nat) (hf : f.inWord = true) (hw : standWord f.addr = false) :
    (s.wr f v).Locked i :=
  h.of_rd hi fun _ hg => State.rd_wr_apart s f _ v hf (Fld.apart_of_standWord hw hg)

theorem State.Locked.of_reaction (h : s.Locked i) (hi : i < 128) (hr : State.ReactsIn byReaction s t) : t.Locked i :=
  h.of_rd hi fun g hg => hr.writes g (byReaction_standWord hg)

/-- Source `i` stands latched with class Lock, and no event of it has a class above. -/
structure State.Capped (i : Nat) (s : State) : Prop where
  locked : s.Locked i
  base : s.rd (R.FLT_SRC_CFG_BASE i) ≤ 5
  escClass : s.rd (R.FLT_SRC_CFG_ESC_CLASS i) ≤ 5

theorem State.Capped.of_rd (h : s.Capped i) (hi : i < 128) (hr : ∀ g, standWord g.addr = true → t.rd g = s.rd g) : t.Capped i :=
  ⟨h.locked.of_rd hi hr, (hr _ (base_word hi)).trans_le h.base,
    (hr (R.FLT_SRC_CFG_ESC_CLASS i) (base_word hi)).trans_le h.escClass⟩

theorem State.Capped.wr (h : s.Capped i) (hi : i < 128) (v : Nat) (hf : f.inWord = true) (hw : standWord f.addr = false) :
    (s.wr f v).Capped i :=
  h.of_rd hi fun _ hg => State.rd_wr_apart s f _ v hf (Fld.apart_of_standWord hw hg)

theorem State.Capped.of_reaction (h : s.Capped i) (hi : i < 128) (hr : State.ReactsIn byReaction s t) : t.Capped i :=
  h.of_rd hi fun g hg => hr.writes g (byReaction_standWord hg)

theorem State.Capped.fltEvent (h : s.Capped i) (hi : i < 128) (hj : j < 128) : (s.fltEvent j).Capped i := by
  obtain ⟨⟨hl, hc⟩, hb, he⟩ := h
  have hr := (s.fltEvent_reacts hj).writes
  refine ⟨⟨(State.fltEvent_rises s hj hi).2 hl, ?_⟩, (hr _ (bySource_base i)).trans_le hb, (hr _ (bySource_escClass i)).trans_le he⟩
  rw [State.fltEvent_lclass s hj]
  split
  next hij =>
    subst hij
    rw [hc]
    exact Nat.max_eq_left (State.eventClass_le hb he)
  · exact hc

theorem State.Capped.raiseAll (h : s.Capped i) (hi : i < 128) (rs : List Raise) : (s.raiseAll rs).Capped i := by
  rw [State.raiseAll_eq]
  refine State.Capped.of_reaction ?_ hi (State.reactAll_reacts _ _ _)
  rw [State.latchAll_eq]
  exact State.forL_keeps (fun u => u.Capped i) _ _
    (fun r _ u hu => (hu.of_rd hi fun g hg => u.noteLive_rd r.src.isLt hg).fltEvent hi r.src.isLt) s h

theorem State.Capped.raise (h : s.Capped i) (hi : i < 128) (j : Nat) : (s.raise j).Capped i := h.raiseAll hi _

theorem State.Capped.causeAbsent (h : s.Capped i) (hi : i < 128) (hj : j < 128) : (s.causeAbsent j).Capped i :=
  h.wr hi _ rfl (live_apart_word hj)

theorem State.Capped.causesAre (h : s.Capped i) (hi : i < 128) {l : List (Nat × Bool)} (hl : ∀ e ∈ l, e.1 < 128) :
    (s.causesAre l).Capped i := by
  unfold State.causesAre
  extract_lets gone new
  have hg : gone.Capped i := State.forL_keeps (fun u => u.Capped i) _ _
    (fun e he u hu => hu.causeAbsent hi (hl e (List.mem_filter.1 he).1)) s h
  split
  · exact hg
  · exact hg.raiseAll hi _

/-! ### Clears -/

theorem State.Locked.of_regs (h : s.Locked i) (hi : i < 128) (hr : t.regs = s.regs) : t.Locked i :=
  h.of_rd hi fun g _ => State.rd_congr t s hr g

theorem State.Locked.putLatch (h : s.Locked i) (hi : i < 128) (hj : j < 128) (hij : i ≠ j) (b : Bool) :
    (s.putBit (R.FLT_STAT_LATCH (j / 32)) (j % 32) b).Locked i := by
  refine ⟨?_, (State.rd_putBit_apart s _ _ _ b rfl ?_).trans h.2⟩
  · rw [State.latched_putLatch s hj hi, if_neg hij]
    exact h.1
  · exact Fld.apart_of_addr (by dsimp only [R.FLT_STAT_LATCH, R.FLT_SRC_ST_LCLASS]; omega)

theorem State.Locked.wr_apart (h : s.Locked i) (v : Nat) (hf : f.inWord = true) (hl : f.apart (R.FLT_STAT_LATCH (i / 32)) = true)
    (hc : f.apart (R.FLT_SRC_ST_LCLASS i) = true) : (s.wr f v).Locked i := by
  refine ⟨?_, (State.rd_wr_apart s f _ v hf hc).trans h.2⟩
  rw [State.latched, State.bit_wr_apart s f _ v _ hf hl]
  exact h.1

/-- A clear of source `j` is refused for a latched Lock class and touches no other source (R418). -/
theorem State.Locked.clearLatch (h : s.Locked i) (hi : i < 128) (hj : j < 128) : (s.clearLatch j).Locked i := by
  unfold State.clearLatch
  by_cases hl : s.latched j = true
  · rw [if_neg (by simp [hl])]
    by_cases hc : s.lclass j = 5 ∨ s.bit (R.FLT_LIVE_LIVE (j / 32)) (j % 32) = true
    · rw [if_pos hc]
      exact h.wr hi _ (by decide) (by decide)
    · rw [if_neg hc]
      have hij : i ≠ j := fun hij => hc (.inl (hij ▸ h.2))
      have h1 := (h.putLatch hi hj hij false).wr_apart (f := R.FLT_ESC_ESC (j / 32))
        (Machine.putBit ((s.putBit (R.FLT_STAT_LATCH (j / 32)) (j % 32) false).rd (R.FLT_ESC_ESC (j / 32))) (j % 32) false) rfl
        (Fld.apart_of_addr (by dsimp only [R.FLT_STAT_LATCH, R.FLT_ESC_ESC]; omega))
        (Fld.apart_of_addr (by dsimp only [R.FLT_SRC_ST_LCLASS, R.FLT_ESC_ESC]; omega))
      have h2 := h1.wr_apart (f := R.FLT_SRC_ST_LCLASS j) 0 rfl
        (Fld.apart_of_addr (by dsimp only [R.FLT_SRC_ST_LCLASS, R.FLT_STAT_LATCH]; omega))
        (Fld.apart_of_addr (by dsimp only [R.FLT_SRC_ST_LCLASS]; omega))
      have h3 := h2.wr_apart (f := R.FLT_SRC_ST_ESC j) false.toNat rfl
        (Fld.apart_of_addr (by dsimp only [R.FLT_SRC_ST_ESC, R.FLT_STAT_LATCH]; omega))
        (Fld.apart_of_addr (by dsimp only [R.FLT_SRC_ST_ESC, R.FLT_SRC_ST_LCLASS]; omega))
      exact h3.of_regs hi (State.setHist_regs _ _ _)
  · rw [if_pos (by simp [hl])]
    exact h.of_regs hi (State.setHist_regs _ _ _)

theorem State.Locked.clearWord (h : s.Locked i) (hi : i < 128) {w : Nat} (hw : w < 4) (mask : Nat) : (s.clearWord w mask).Locked i := by
  have turn : ∀ b, b < 32 → ∀ u : State, u.Locked i → (u.when (bitOf mask b) fun s => s.clearLatch (32 * w + b)).Locked i :=
    fun b hb u hu => State.when_keeps (fun u => u.Locked i) u _ _ hu (hu.clearLatch hi (by omega))
  unfold State.clearWord
  exact State.Locked.of_reaction (State.forN_keeps (fun u => u.Locked i) 32 _ turn s h) hi (State.summarise_reacts _).ofRecord

theorem State.Locked.rearmFirst (h : s.Locked i) (hi : i < 128) : s.rearmFirst.Locked i := by
  have hp : (s.put R.FLT_FIRST_INFO_VALID false).Locked i := h.wr hi _ (by decide) (by decide)
  exact hp.of_regs hi (State.withFlt_regs _ _)

theorem State.fltCtrl_fst (s : State) (v : Nat) : (s.fltCtrl v).1 =
    if (bitOf v 7 || bitOf v 9) && bitsOf v 16 16 != 0x5A5A then s
    else if bitOf v 7 && reservedSource (bitsOf v 0 7) then s
    else (((s.when (bitOf v 7) fun s => s.injectEvent (bitsOf v 0 7)).when (bitOf v 8) State.rearmFirst).when (bitOf v 9) fun s =>
      s.forN 4 fun w s => s.clearWord w 0xFFFFFFFF).when (bitOf v 10) fun s => s.raise 31 := by
  unfold State.fltCtrl
  extract_lets src s₁ s₂ s₃
  split
  · rfl
  · split
    · rfl
    · rfl

/-- A write of FLT_CTRL that injects nothing and raises no application event (R427). -/
theorem State.Locked.fltCtrl (h : s.Locked i) (hi : i < 128) {v : Nat} (h7 : bitOf v 7 = false) (h10 : bitOf v 10 = false) :
    (s.fltCtrl v).1.Locked i := by
  have h₂ : (s.when (bitOf v 8) State.rearmFirst).Locked i := State.when_keeps (fun u => u.Locked i) s _ _ h (h.rearmFirst hi)
  have turn : ∀ w, w < 4 → ∀ u : State, u.Locked i → (u.clearWord w 0xFFFFFFFF).Locked i := fun w hw u hu => hu.clearWord hi hw _
  rw [State.fltCtrl_fst, h7, h10, State.when_false, State.when_false]
  split
  · exact h
  · split
    · exact h
    · exact State.when_keeps (fun u => u.Locked i) _ (bitOf v 9) _ h₂ (State.forN_keeps (fun u => u.Locked i) 4 _ turn _ h₂)

/-! ### A write of a word of the collector -/

theorem State.mirror_keeps {P : State → Prop} (hP : ∀ (u : State) x, P u → P { u with tie := x }) (hs : P s) (a v : Nat) :
    P (s.mirror a v) := by
  unfold State.mirror
  split
  · exact hs
  · split
    · exact hP s _ hs
    · exact hP s _ hs

theorem State.fieldRefused_of_flt (s : State) {a : Nat} (ha : a / 0x100000 = 0x408) (why : Refused) : (s.fieldRefused a why).1 = s := by
  unfold State.fieldRefused
  split
  · rfl
  · rfl
  · rw [if_neg (by omega), if_neg (by omega)]

/-- A write of a word of the collector is discarded or done by `fltWrite`, and then mirrored. -/
theorem State.regWrite_flt {P : State → Prop} {a : Nat} (hs : P s) (ha : a / 0x100000 = 0x408) (v : Nat)
    (hw : ∀ w, P (s.fltWrite a w v).1) (hP : ∀ (u : State) x, P u → P { u with tie := x }) (m : Nat) : P (s.regWrite m a v).1 := by
  have happly : ∀ w g, s.applyWrite m a w v g = s.fltWrite a w v := fun w g => by
    unfold State.applyWrite
    simp only [ha]
  unfold State.regWrite
  split
  · exact hs
  · rw [if_neg (by omega)]
    split
    · exact hs
    next r _ =>
      rw [if_neg (by omega)]
      split
      · exact hs
      · rw [if_neg (by dsimp only [R.CELL_HP_HP]; omega)]
        split
        · rw [State.fieldRefused_of_flt s ha]
          exact hs
        · rw [happly]
          dsimp only
          split
          · exact State.mirror_keeps hP (hw _) a v
          · exact hw _

theorem State.Locked.withTie (h : s.Locked i) (hi : i < 128) (x : Tie) : ({ s with tie := x } : State).Locked i := h.of_regs hi rfl

theorem State.fltWrite_latch (s : State) {k : Nat} (hk : k < 4) (w v : Nat) :
    (s.fltWrite (R.FLT_STAT_LATCH k).addr w v).1 = s.clearWord k v := by
  have ha : ((R.FLT_STAT_LATCH k).addr - 0x40800000) / 4 = k := by dsimp only [R.FLT_STAT_LATCH]; omega
  unfold State.fltWrite
  rw [if_pos (by dsimp only [R.FLT_STAT_LATCH]; omega), ha]

theorem State.fltWrite_ctrl (s : State) (w v : Nat) : s.fltWrite R.FLT_CTRL_SRC.addr w v = s.fltCtrl v := by
  unfold State.fltWrite
  rw [if_neg (by decide), if_pos rfl]

/-! ### RESET -/

/-- The state that RESET starts from: what it keeps, and no latch. -/
def State.resetBase (s : State) : State :=
  { State.reset with
    pending := s.pending, draws := s.draws, sent := s.sent, cells := s.cells,
    regs := s.regs.filter fun e => keptInReset e.1,
    sys := { Sys.reset with rstHigh := s.sys.rstHigh, supplyBad := s.sys.supplyBad, pairId := s.sys.pairId,
                            selfTest := false, runCount := s.sys.runCount, hardBlock := s.sys.hardBlock },
    flt := { Flt.reset with armed := s.flt.armed, firstTime := s.flt.firstTime },
    isl := s.isl, od := { Od.reset with copies := s.od.copies, loadPend := s.od.loadPend },
    mem := { Mem.reset with bytes := s.mem.bytes.filter fun e => decide (0x800000000 ≤ e.1) } }

/-- The latches and live causes that RESET keeps. -/
def State.resetLatches (s : State) : State :=
  (s.resetBase.forL ((upto 128).filter fun i => s.lclass i == 5) fun i t => t.setLatch i 5).forL
    ((upto 128).filter fun i => outsideCause i && s.bit (R.FLT_LIVE_LIVE (i / 32)) (i % 32)) fun i t =>
      t.putBit (R.FLT_LIVE_LIVE (i / 32)) (i % 32) true

/-- The marks that RESET keeps or sets. -/
def State.resetMarks (s t : State) (cause : Nat) : State :=
  let t := (t.put R.FLT_SUMMARY_LOCK_LATCH (s.on R.FLT_SUMMARY_LOCK_LATCH)).put R.TIE_STATUS_YIELD_IN (s.on R.TIE_STATUS_YIELD_IN)
  let t := ((t.put R.OD_STORE_RESTORE_ERR false).put R.DEV_STATE_SAFE_BLOCK (s.on R.DEV_STATE_SAFE_BLOCK)).put R.TIE_STATUS_PAIR_ID s.sys.pairId
  ((t.wr R.DEV_STATE_PREV s.st).wr R.DEV_STATE_STATE St.reset).wr R.STATE_CAUSE_CAUSE cause

theorem State.enterReset_eq (s : State) (cause : Nat) :
    s.enterReset cause = (s.resetMarks s.resetLatches cause).driveYield.summarise := rfl

theorem State.resetBase_rd (s : State) (h : keptInReset g.addr = false) :
    s.resetBase.rd g = bitsOf (kcReset g.addr).toNat g.lo g.width := by
  have hw : s.resetBase.word g.addr = (kcReset g.addr).toNat :=
    congrArg BitVec.toNat (mapGet_filter_of_not kcReset s.regs keptInReset h)
  rw [State.rd, hw]

theorem keptInReset_base : ∀ i, i < 128 → keptInReset (R.FLT_SRC_CFG_BASE i).addr = false := by decide

/-- No class is configured above Lock as a source leaves RESET. -/
theorem reset_classes : ∀ i, i < 128 → bitsOf (kcReset (R.FLT_SRC_CFG_BASE i).addr).toNat 0 3 ≤ 5 ∧
    bitsOf (kcReset (R.FLT_SRC_CFG_BASE i).addr).toNat 4 3 ≤ 5 := by decide +kernel

theorem setLatch_within (hi : i < 128) (c : Nat) : State.ReactsIn bySource s (s.setLatch i c) :=
  ((State.ReactsIn.refl s).putBit (latch_within (by omega)) _ _).wr (lclass_within hi) _

theorem State.Capped.setLatch (h : s.Capped i) (hi : i < 128) (hj : j < 128) : (s.setLatch j 5).Capped i := by
  have hr := (setLatch_within (s := s) hj 5).writes
  refine ⟨⟨?_, ?_⟩, (hr _ (bySource_base i)).trans_le h.base, (hr _ (bySource_escClass i)).trans_le h.escClass⟩
  · rw [State.setLatch_latched s hj hi, h.locked.1, Bool.or_true]
  · rw [State.setLatch_lclass s hj i (by decide), h.locked.2, ite_self]

/-- A source locked before is locked in RESET, and its class cannot rise (R411, R419). -/
theorem State.Locked.resetLatches (h : s.Locked i) (hi : i < 128) : s.resetLatches.Capped i := by
  have lt : ∀ {j : Nat} {p : Nat → Bool}, j ∈ (upto 128).filter p → j < 128 := fun hj => List.mem_range.1 (List.mem_filter.1 hj).1
  have hmem : i ∈ (upto 128).filter fun i => s.lclass i == 5 :=
    List.mem_filter.2 ⟨List.mem_range.2 hi, beq_iff_eq.2 h.2⟩
  have hbase : s.resetBase.rd (R.FLT_SRC_CFG_BASE i) ≤ 5 ∧ s.resetBase.rd (R.FLT_SRC_CFG_ESC_CLASS i) ≤ 5 := by
    rw [State.resetBase_rd s (keptInReset_base i hi), State.resetBase_rd s (g := R.FLT_SRC_CFG_ESC_CLASS i) (keptInReset_base i hi)]
    exact reset_classes i hi
  refine State.forL_keeps (fun u => u.Capped i) _ _ (fun j hj u hu => ?_) _ ?_
  · exact hu.wr hi _ rfl (live_apart_word (lt hj))
  · refine State.forL_sets (A := fun u => u.rd (R.FLT_SRC_CFG_BASE i) ≤ 5 ∧ u.rd (R.FLT_SRC_CFG_ESC_CLASS i) ≤ 5)
      (fun j hj u hu => ?_) (fun j hj u hu => hu.setLatch hi (lt hj)) hmem (fun u hu => ?_) hbase
    · have hr := (setLatch_within (s := u) (lt hj) 5).writes
      exact ⟨(hr _ (bySource_base i)).trans_le hu.1, (hr _ (bySource_escClass i)).trans_le hu.2⟩
    · have hr := (setLatch_within (s := u) hi 5).writes
      refine ⟨⟨?_, ?_⟩, (hr _ (bySource_base i)).trans_le hu.1, (hr _ (bySource_escClass i)).trans_le hu.2⟩
      · rw [State.setLatch_latched u hi hi, beq_self_eq_true, Bool.true_or]
      · rw [State.setLatch_lclass u hi i (by decide), if_pos rfl]

theorem State.Capped.resetMarks (h : t.Capped i) (hi : i < 128) (s : State) (cause : Nat) : (s.resetMarks t cause).Capped i :=
  (((((((h.wr hi _ (by decide) (by decide)).wr hi _ (by decide) (by decide)).wr hi _ (by decide) (by decide)).wr hi _ (by decide)
    (by decide)).wr hi _ (by decide) (by decide)).wr hi _ (by decide) (by decide)).wr hi _ (by decide) (by decide)).wr hi _ (by decide)
    (by decide)

theorem State.Locked.enterReset (h : s.Locked i) (hi : i < 128) (cause : Nat) : (s.enterReset cause).Capped i := by
  rw [State.enterReset_eq]
  refine State.Capped.of_reaction ?_ hi (State.summarise_reacts _).ofRecord
  exact ((h.resetLatches hi).resetMarks hi s cause).wr hi (f := R.TIE_STATUS_YIELD_OUT) _ (by decide) (by decide)

theorem State.Capped.endReset (h : s.Capped i) (hi : i < 128) : s.endReset.Capped i := by
  unfold State.endReset
  split
  · extract_lets s₁ sys s₂
    have h₁ : s₁.Capped i := (h.wr hi _ (by decide) (by decide)).wr hi _ (by decide) (by decide)
    have h₂ : s₂.Capped i := h₁.of_rd hi fun g _ => rfl
    refine State.forN_keeps (fun u => u.Capped i) 128 _ (fun j hj u hu => ?_) s₂ h₂
    exact State.when_keeps (fun u => u.Capped i) u _ _ hu ((hu.causeAbsent hi hj).raise hi j)
  · exact h

theorem State.Locked.restartNow (h : s.Locked i) (hi : i < 128) : s.restartNow.Locked i :=
  ((h.enterReset hi _).endReset hi).locked

/-! ### RESTART -/

theorem State.ledLevels_lt {l : Nat} (h : l ∈ s.ledLevels) : l < 2 ^ 11 := by
  have hl := (List.mem_filter.1 h).1
  unfold State.levelEntries at hl
  split at hl
  · exact Nat.lt_trans (List.mem_range.1 hl) (s.rd_lt R.ACD_CFG_LVLS)
  · cases hl

theorem State.Locked.stageOwn (h : s.Locked i) (hi : i < 128) (cmd p1 deadline : Nat) : (s.stageOwn cmd p1 deadline).Locked i := by
  unfold State.stageOwn
  extract_lets epoch g acd s₁ s₂ s₃
  have h₁ : s₁.Locked i := h.of_regs hi rfl
  have h₂ : s₂.Locked i := State.forL_keeps (fun u => u.Locked i) _ _ (fun l hl u hu => hu.wr hi _ rfl
    (Bool.eq_false_iff.2 fun hw => by
      have := standWord_iff.1 hw
      have := State.ledLevels_lt hl
      dsimp only [R.LVLE_W1_ACKED] at *
      omega)) s₁ h₁
  have h₃ : s₃.Locked i := ((h₂.wr hi _ (by decide) (by decide)).wr hi _ (by decide) (by decide)).wr hi _ (by decide) (by decide)
  exact (h₃.wr hi _ (by decide) (by decide)).wr hi _ (by decide) (by decide)

theorem State.Locked.acceptCommand (h : s.Locked i) (hi : i < 128) (cmd target at' : Nat) : (s.acceptCommand cmd target at').Locked i := by
  unfold State.acceptCommand
  extract_lets two sys s₁
  have h₁ : s₁.Locked i := h.of_regs hi rfl
  have h₂ : (s₁.put R.DEV_STATE_BUSY true).Locked i := h₁.wr hi _ (by decide) (by decide)
  exact State.when_keeps (fun u => u.Locked i) _ _ _ h₂ (h₂.stageOwn hi _ _ _)

theorem State.Locked.restart (h : s.Locked i) (hi : i < 128) (key : Nat) : (s.restart key).1.Locked i := by
  unfold State.restart
  extract_lets g code
  split
  · exact h.of_reaction hi (State.refuse_reacts _ _ _)
  · split
    · exact h.acceptCommand hi _ _ _
    · exact h.restartNow hi

theorem State.Locked.answer (h : s.Locked i) (hi : i < 128) (via : Via) (d a : Nat) : (s.answer via d a).Locked i := by
  unfold State.answer
  split
  · exact h
  · exact h.of_regs hi rfl
  · exact h.of_regs hi rfl

/-! ### SYS_RST_N -/

theorem mapGet_filter_of {α : Type} (d : Nat → α) (m : NMap α) (p : Nat → Bool) {k : Nat} (h : p k = true) :
    mapGet d (m.filter fun e => p e.1) k = mapGet d m k := by
  induction m with
  | nil => rfl
  | cons e m ih =>
    rw [List.filter_cons, mapGet_cons]
    split
    · rw [mapGet_cons, ih]
    next he =>
      have hk : e.1 ≠ k := fun hk => he (by rw [hk, h])
      rw [if_neg hk, ih]

/-- RESET of the island leaves the fields outside its block. -/
theorem State.islandClear_rd_outside (s : State) (h : g.addr < 0x41000000 ∨ 0x41100000 ≤ g.addr) : s.islandClear.rd g = s.rd g := by
  have hw : s.islandClear.word g.addr = s.word g.addr :=
    congrArg BitVec.toNat (mapGet_filter_of kcReset s.regs
      (fun a => !(decide (0x41000000 ≤ a) && decide (a < 0x41100000))) (by simp; omega))
  rw [State.rd, hw, State.rd]

theorem byLines_standWord (h : standWord g.addr = true) : byLines g = false := by
  refine Bool.or_eq_false_iff.2 ⟨List.any_eq_false.2 fun f hf => ?_, rfl⟩
  simp [Fld.apart_of_standWord ((by decide : ∀ f ∈ islandFlds, standWord f.addr = false) f hf) h]

theorem State.Capped.islandUpdate (h : s.Capped i) (hi : i < 128) : s.islandUpdate.Capped i := by
  have hl : s.linesDone.Capped i := h.of_rd hi fun g hg => s.linesDone_writes g (byLines_standWord hg)
  have hb : s.blockDone.Capped i := State.when_keeps (fun u => u.Capped i) _ _ _ hl (hl.of_reaction hi (State.faultBlock_reacts _ _))
  rw [State.islandUpdate_eq]
  exact hb.causesAre hi (State.islandCauses_lt _)

theorem State.Capped.islandReset (h : s.Capped i) (hi : i < 128) : s.islandReset.Capped i :=
  State.Capped.islandUpdate (h.of_rd hi fun g hg => State.islandClear_rd_outside s (by
    have := standWord_iff.1 hg
    omega)) hi

/-- A unit that does not accept commands does not react to a class of a plant-side source (R415). -/
theorem State.react_plant (h : s.accepting = false) (c : Nat) : s.react false c = s := by
  unfold State.react
  split <;> simp_all

theorem maxOf_zero {l : List Nat} (h : ∀ x ∈ l, x = 0) : maxOf l = 0 := by
  rw [List.eq_replicate_of_mem h, maxOf]
  induction l.length with
  | zero => rfl
  | succ n ih => exact ih

theorem State.worstOf_unit {rs : List Raise} (h : ∀ r ∈ rs, s.unitSide r.src.val = false) : s.worstOf true rs = 0 := by
  refine maxOf_zero fun x hx => ?_
  obtain ⟨r, hr, rfl⟩ := List.mem_map.1 hx
  rw [h r hr]
  rfl

theorem bySource_side (i : Nat) : bySource (R.FLT_SRC_CFG_SIDE i) = false := bySource_cfg (by omega) (by omega) _ _

theorem byRecord_side (hi : i < 128) : byRecord (R.FLT_SRC_CFG_SIDE i) = false :=
  byRecord_of_byReaction (byReaction_standWord (base_word hi))

theorem State.accepting_of_role (h : s.role ≠ Role.solo) (h' : s.role ≠ Role.active) : s.accepting = false := by
  simp [State.accepting, h, h']

/-- Events of plant-side sources leave the Lock latch of a unit that is neither SOLO nor ACTIVE. -/
theorem State.raiseAll_lockLatch {rs : List Raise} (hside : ∀ r ∈ rs, s.unitSide r.src.val = false) (hs : s.role ≠ Role.solo)
    (ha : s.role ≠ Role.active) : (s.raiseAll rs).on R.FLT_SUMMARY_LOCK_LATCH = s.on R.FLT_SUMMARY_LOCK_LATCH := by
  rw [State.raiseAll_eq, State.reactAll]
  set new := ((raisable rs).filter fun r => !s.latched r.src.val).filter fun r => (s.latchAll (raisable rs)).latched r.src.val
  have hl := (State.latchAll_reacts s (raisable rs)).writes
  have hc := (State.capture_reacts (s.latchAll (raisable rs)) new).writes
  have hrole : ((s.latchAll (raisable rs)).capture new).role = s.role := (hc _ (by decide)).trans (hl _ (by decide))
  have hunit : ((s.latchAll (raisable rs)).capture new).worstOf true (raisable rs) = 0 := State.worstOf_unit fun r hr => by
    rw [State.unitSide, hc.on (byRecord_side r.src.isLt), hl.on (bySource_side _)]
    exact hside r (List.mem_filter.1 hr).1
  have hacc : ((s.latchAll (raisable rs)).capture new).accepting = false := State.accepting_of_role (hrole ▸ hs) (hrole ▸ ha)
  have hnone : ((s.latchAll (raisable rs)).capture new).react true 0 = (s.latchAll (raisable rs)).capture new := rfl
  rw [hunit, State.react_plant hacc, hnone, State.react_plant hacc, ite_self, (State.summarise_reacts _).writes.on (by decide),
    hc.on (by decide), hl.on (by decide)]

theorem State.linesDone_st (s : State) : s.linesDone.st = s.st := s.linesDone_writes _ (by decide)

/-- In RESET the outputs follow without a reaction of the state machine. -/
theorem State.blockDone_of_reset (h : s.st = St.reset) : s.blockDone = s.linesDone := by
  have hf : s.linesDone.faultBlock Cause.safeBlock = s.linesDone := by
    rw [State.faultBlock, State.linesDone_st, h]
    rfl
  exact State.when_keeps (fun t => t = s.linesDone) _ _ _ rfl hf

theorem State.causesAre_lockLatch {l : List (Nat × Bool)} (hl : ∀ e ∈ l, e.1 < 128)
    (hside : ∀ e ∈ l, e.2 = true → s.unitSide e.1 = false) (hs : s.role ≠ Role.solo) (ha : s.role ≠ Role.active) :
    (s.causesAre l).on R.FLT_SUMMARY_LOCK_LATCH = s.on R.FLT_SUMMARY_LOCK_LATCH := by
  unfold State.causesAre
  extract_lets gone new
  have hg : State.Writes bySource s gone := ((State.ReactsIn.refl s).forL fun e he u => (State.ReactsIn.refl u).putBit
    (live_within (by have := hl e (List.mem_filter.1 he).1; omega)) _ _).writes
  have hrole : gone.role = s.role := hg _ (by decide)
  split
  · exact hg.on (by decide)
  · refine (State.raiseAll_lockLatch (fun r hr => ?_) (hrole ▸ hs) (hrole ▸ ha)).trans (hg.on (by decide))
    obtain ⟨e, he, rfl⟩ := List.mem_map.1 hr
    obtain ⟨hmem, hnew⟩ := List.mem_filter.1 he
    have hval : (Fin.ofNat 128 e.1).val = e.1 := Nat.mod_eq_of_lt (hl e hmem)
    rw [State.unitSide, hg.on (bySource_side _)]
    show s.unitSide (Fin.ofNat 128 e.1).val = false
    rw [hval]
    exact hside e hmem (Bool.and_eq_true_iff.1 hnew).1

/-! What RESET leaves in the registers. -/

/-- The fields that RESET writes once its latches stand. -/
def markFlds : List Fld :=
  [R.FLT_SUMMARY_LOCK_LATCH, R.TIE_STATUS_YIELD_IN, R.OD_STORE_RESTORE_ERR, R.DEV_STATE_SAFE_BLOCK, R.TIE_STATUS_PAIR_ID,
    R.DEV_STATE_PREV, R.DEV_STATE_STATE, R.STATE_CAUSE_CAUSE, R.TIE_STATUS_YIELD_OUT] ++ recordFlds

def byMarks : Fld → Bool := near markFlds fun _ => false

theorem within_byMarks (h : f ∈ markFlds) : f.Within byMarks :=
  Fld.within_of_mem h ((by decide : ∀ f ∈ markFlds, f.inWord = true) f h)

theorem byRecord_of_byMarks (h : byMarks g = false) : byRecord g = false := by
  obtain ⟨hf, -⟩ := Bool.or_eq_false_iff.1 h
  rw [markFlds, List.any_append] at hf
  exact Bool.or_eq_false_iff.2 ⟨(Bool.or_eq_false_iff.1 hf).2, rfl⟩

theorem State.resetLatches_writes (s : State) : State.Writes bySource s.resetBase s.resetLatches := by
  have lt : ∀ {j : Nat} {p : Nat → Bool}, j ∈ (upto 128).filter p → j < 128 := fun hj => List.mem_range.1 (List.mem_filter.1 hj).1
  exact (((State.ReactsIn.refl s.resetBase).forL fun j hj u => setLatch_within (lt hj) 5).forL fun j hj u =>
    (State.ReactsIn.refl u).putBit (live_within (by have := lt hj; omega)) _ _).writes

theorem State.resetMarks_writes (s t : State) (cause : Nat) : State.Writes byMarks t (s.resetMarks t cause) :=
  ((((((((State.Writes.refl _ t).put (within_byMarks (by decide)) _).put (within_byMarks (by decide)) _).put (within_byMarks (by decide))
    _).put (within_byMarks (by decide)) _).put (within_byMarks (by decide)) _).wr (within_byMarks (by decide)) _).wr
    (within_byMarks (by decide)) _).wr (within_byMarks (by decide)) _

/-- In RESET a field that is not kept, nor written by RESET, reads its reset value. -/
theorem State.enterReset_rd (s : State) (cause : Nat) (hk : keptInReset g.addr = false) (hs : bySource g = false)
    (hm : byMarks g = false) : (s.enterReset cause).rd g = bitsOf (kcReset g.addr).toNat g.lo g.width := by
  have hw : State.Writes byMarks s.resetLatches (s.enterReset cause) :=
    ((s.resetMarks_writes s.resetLatches cause).put (f := R.TIE_STATUS_YIELD_OUT) (within_byMarks (by decide)) _).trans
      ((State.summarise_reacts _).writes.mono fun _ => byRecord_of_byMarks)
  rw [hw g hm, s.resetLatches_writes g hs, State.resetBase_rd s hk]

theorem State.enterReset_lockLatch (s : State) (cause : Nat) :
    (s.enterReset cause).on R.FLT_SUMMARY_LOCK_LATCH = s.on R.FLT_SUMMARY_LOCK_LATCH := by
  have hp : (s.resetLatches.put R.FLT_SUMMARY_LOCK_LATCH (s.on R.FLT_SUMMARY_LOCK_LATCH)).on R.FLT_SUMMARY_LOCK_LATCH =
      s.on R.FLT_SUMMARY_LOCK_LATCH := State.on_put_same _ _ _ (by decide) rfl
  rw [← hp, State.enterReset_eq, (State.summarise_reacts _).writes.on (by decide), State.driveYield, State.on_put_apart _ _ _ _ (by decide)
    (by decide), State.resetMarks]
  rw [State.on, State.rd_wr_apart _ _ _ _ (by decide) (by decide), State.rd_wr_apart _ _ _ _ (by decide) (by decide),
    State.rd_wr_apart _ _ _ _ (by decide) (by decide), State.rd_put_apart _ _ _ _ (by decide) (by decide),
    State.rd_put_apart _ _ _ _ (by decide) (by decide), State.rd_put_apart _ _ _ _ (by decide) (by decide),
    State.rd_put_apart _ _ _ _ (by decide) (by decide), ← State.on]

theorem State.enterReset_st (s : State) (cause : Nat) : (s.enterReset cause).st = St.reset := by
  rw [State.st, State.enterReset_eq, (State.summarise_reacts _).writes _ (by decide), State.driveYield,
    State.rd_put_apart _ _ _ _ (by decide) (by decide), State.resetMarks, State.rd_wr_apart _ _ _ _ (by decide) (by decide),
    State.rd_wr_same _ _ _ (by decide)]
  rfl

theorem State.enterReset_role (s : State) (cause : Nat) : (s.enterReset cause).role = Role.relay := by
  rw [State.role, State.enterReset_rd s cause (by decide) (by decide) (by decide)]
  decide +kernel

/-- Of the sources of the island only those of its own state and of its reference are unit-side as RESET is left. -/
theorem reset_sides : ∀ i, i < 128 → 96 ≤ i → i < 106 → bitsOf (kcReset (R.FLT_SRC_CFG_SIDE i).addr).toNat 20 1 = 0 := by decide +kernel

theorem byMarks_standWord (h : standWord g.addr = true) : byMarks g = false := by
  refine Bool.or_eq_false_iff.2 ⟨List.any_eq_false.2 fun f hf => ?_, rfl⟩
  simp [Fld.apart_of_standWord ((by decide : ∀ f ∈ markFlds, standWord f.addr = false) f hf) h]

theorem State.enterReset_side (s : State) (cause : Nat) (hi : i < 128) (h : 96 ≤ i) (h' : i < 106) : (s.enterReset cause).unitSide i = false := by
  have hr := State.enterReset_rd s cause (g := R.FLT_SRC_CFG_SIDE i) (keptInReset_base i hi) (bySource_side i)
    (byMarks_standWord (base_word hi))
  rw [State.unitSide, State.on, hr]
  exact beq_eq_false_iff_ne.2 fun h1 => absurd (h1.symm.trans (reset_sides i hi h h')) (by decide)

/-- The reset of the island in RESET demands its functions, which are causes of plant-side sources, and the unit holds no
role in which it reacts to them. -/
theorem State.islandReset_lockLatch (s : State) (cause : Nat) : (s.enterReset cause).islandReset.on R.FLT_SUMMARY_LOCK_LATCH =
    (s.enterReset cause).on R.FLT_SUMMARY_LOCK_LATCH := by
  set u := s.enterReset cause with hu
  have out : ∀ {g : Fld}, byLines g = false → g.addr < 0x41000000 ∨ 0x41100000 ≤ g.addr → u.islandClear.linesDone.rd g = u.rd g :=
    fun hg ha => (u.islandClear.linesDone_writes _ hg).trans (State.islandClear_rd_outside u ha)
  have inn : ∀ {g : Fld}, byLines g = false → 0x41000000 ≤ g.addr → g.addr < 0x41100000 →
      u.islandClear.linesDone.rd g = bitsOf (kcReset g.addr).toNat g.lo g.width := fun hg ha hb =>
    (u.islandClear.linesDone_writes _ hg).trans (State.islandClear_rd u ha hb)
  have hst : u.islandClear.st = St.reset := (State.islandClear_rd_outside u (.inr (by decide))).trans (s.enterReset_st cause)
  have hrole : u.islandClear.linesDone.role = Role.relay := (out (by decide) (.inr (by decide))).trans (s.enterReset_role cause)
  have hhalt : (u.islandClear.linesDone.ist == Is.halt) = false := by
    rw [State.ist, inn (by decide) (by decide) (by decide)]
    decide +kernel
  have href : (u.islandClear.linesDone.on R.SAFE_DIAG_REF_ABSENT ||
      decide (10 < (toSigned 8 (u.islandClear.linesDone.rd R.SAFE_DIAG_OSC_DEV)).natAbs)) = false := by
    rw [State.on, inn (by decide) (by decide) (by decide), inn (by decide) (by decide) (by decide)]
    decide +kernel
  rw [State.islandReset, State.islandUpdate_eq, State.blockDone_of_reset hst,
    State.causesAre_lockLatch (State.islandCauses_lt _) ?_ (by rw [hrole]; decide) (by rw [hrole]; decide), State.on,
    out (by decide) (.inl (by decide)), ← State.on]
  intro e he h2
  have hlt := State.islandCauses_lt _ e he
  have hrange : 96 ≤ e.1 ∧ e.1 < 106 := by
    simp only [State.islandCauses, List.mem_cons, List.not_mem_nil, or_false, hhalt, href] at he
    rcases he with rfl | rfl | rfl | rfl | rfl | rfl | rfl | rfl | rfl | rfl | rfl | rfl <;> simp_all
  rw [State.unitSide, State.on, out (g := R.FLT_SRC_CFG_SIDE e.1) (byLines_standWord (base_word hlt)) (.inl (by dsimp only [R.FLT_SRC_CFG_SIDE]; omega)), ← State.on]
  exact State.enterReset_side s cause hlt hrange.1 hrange.2

/-- RESET by SYS_RST_N, before the island follows. -/
def State.resetPin (s : State) : State := State.enterReset { s with sys := { s.sys with rstHigh := false } } Cause.sysRst

theorem State.Locked.resetPin (h : s.Locked i) (hi : i < 128) : s.resetPin.Capped i := by
  have hs : ({ s with sys := { s.sys with rstHigh := false } } : State).Locked i := h.of_regs hi rfl
  exact hs.enterReset hi _

theorem State.resetPin_lockLatch (s : State) : s.resetPin.on R.FLT_SUMMARY_LOCK_LATCH = s.on R.FLT_SUMMARY_LOCK_LATCH :=
  State.enterReset_lockLatch _ _

/-- Settles O46: an event only raises what its source holds, a clear leaves a Lock-class latch, and RESET sets it again with
no class above it configured; the demands that the island's reset raises are of plant-side sources, to which a RELAY does not
react. -/
theorem lockLatchesStand : Obligations.LockLatchesStand := by
  have tie : ∀ {i : Nat}, i < 128 → ∀ (u : State) x, u.Locked i → ({ u with tie := x } : State).Locked i := fun hi u x hu => hu.withTie hi x
  refine ⟨fun s t es i hi h => ?_, fun s t es r hr hres hb h => ?_, fun s t i w mask hi hl hc h => ?_, fun s t i key hi hl hc h => ?_,
    fun s t i via key hi hl hc h => ?_, fun s t i hi hl hc h => ?_⟩
  · obtain rfl : s.raiseAll es = t := Host.Outcome.next.inj h
    exact State.raiseAll_rises s es hi
  · obtain rfl : s.raiseAll es = t := Host.Outcome.next.inj h
    exact State.raiseAll_latches hr hres hb
  · obtain rfl : (s.regWrite 0 (R.FLT_STAT_LATCH w).addr mask.toNat).1 = t := Host.Outcome.next.inj h
    have hs : s.Locked i := ⟨hl, hc⟩
    have ha : (R.FLT_STAT_LATCH w).addr / 0x100000 = 0x408 := by dsimp only [R.FLT_STAT_LATCH]; omega
    exact State.regWrite_flt (P := State.Locked i) hs ha _ (fun v => by rw [State.fltWrite_latch s w.isLt]; exact hs.clearWord hi w.isLt _)
      (tie hi) 0
  · obtain rfl : (s.regWrite 0 R.FLT_CTRL_SRC.addr (512 + 65536 * key.toNat)).1 = t := Host.Outcome.next.inj h
    have hs : s.Locked i := ⟨hl, hc⟩
    have h7 : bitOf (512 + 65536 * key.toNat) 7 = false := beq_eq_false_iff_ne.2 (by omega)
    have h10 : bitOf (512 + 65536 * key.toNat) 10 = false := beq_eq_false_iff_ne.2 (by omega)
    exact State.regWrite_flt (P := State.Locked i) hs (by decide) _ (fun v => by rw [State.fltWrite_ctrl]; exact hs.fltCtrl hi h7 h10)
      (tie hi) 0
  · obtain rfl : ((s.restart key.toNat).1.answer via 0 (if (s.restart key.toNat).2 = 0 then 0 else 0x08000022)) = t := Host.Outcome.next.inj h
    have hs : s.Locked i := ⟨hl, hc⟩
    exact (hs.restart hi _).answer hi _ _ _
  · obtain rfl : (State.resetPin s).when ((State.resetPin s).ist != Is.halt) State.islandReset = t := Host.Outcome.next.inj h
    have hs : (State.resetPin s).Capped i := State.Locked.resetPin ⟨hl, hc⟩ hi
    have hlock : (State.resetPin s).on R.FLT_SUMMARY_LOCK_LATCH = s.on R.FLT_SUMMARY_LOCK_LATCH := State.resetPin_lockLatch s
    have hisl : (State.resetPin s).islandReset.on R.FLT_SUMMARY_LOCK_LATCH = s.on R.FLT_SUMMARY_LOCK_LATCH :=
      (State.islandReset_lockLatch _ _).trans hlock
    have ht : ((State.resetPin s).when ((State.resetPin s).ist != Is.halt) State.islandReset).Capped i :=
      State.when_keeps (State.Capped i) _ _ _ hs (hs.islandReset hi)
    exact ⟨ht.locked.1, ht.locked.2, State.when_keeps (fun u => u.on R.FLT_SUMMARY_LOCK_LATCH = s.on R.FLT_SUMMARY_LOCK_LATCH) _ _ _ hlock hisl⟩

end Sys2Proof.Machine
end

section
/-! O45: a source whose kept class is above the class it latches with (R424). -/

set_option Elab.async false

namespace Sys2Proof.Machine

open Tests

/-- A running half-bridge with its lower gate on. No source is latched, and class Lock is kept for source 0. -/
def lockKeptUnlatched : Cell :=
  let c : Cell := { Cell.reset with mode := Mode.running, cls := [(0, 5)], pw := { Cell.reset.pw with demand := 1 } }
  c.wr K.PWM_STATUS_GATES 1

/-- The cell at key 0 of an energised unit. -/
def unlatchedState : State := (inState St.energised).setCell 0 lockKeptUnlatched

/-- Refutes O45: source 0 latches with class Trip, but the class kept for it stays Lock, which holds no gate off, and the cell
does not lock either: its gate stays on. -/
theorem not_faultsLatchAndClear : ¬ Obligations.FaultsLatchAndClear := by
  rintro ⟨-, -, -, -, -, -, -, -, -, -, -, -, -, hlatch, -⟩
  obtain ⟨c, hnext, -, hoff, -⟩ := hlatch unlatchedState 0 0 4 (by decide +kernel) (by decide +kernel) (by decide) (by decide) (by decide +kernel)
    (by decide +kernel) (by decide +kernel) (by decide +kernel)
  have h := passes_of_reaches (f := fun t => (t.cell 0).rd K.PWM_STATUS_GATES == 0) (p := fun t => t = unlatchedState.setCell 0 c) ⟨_, hnext, rfl⟩
    fun t ht => by rw [ht, State.cell_setCell]; exact beq_iff_eq.2 hoff
  exact absurd h (by decide +kernel)

end Sys2Proof.Machine
end

section
/-! O9: power-on, reset, self-test and secure start (R31, R42 to R49, R370, R419, R575). -/

namespace Sys2Proof.Machine

variable {s t : State} {g : Fld}

/-! ### Power-on -/

/-- The state that power-on starts from. -/
def State.powerBase (s : State) : State :=
  { State.reset with
    pending := s.pending, draws := s.draws, sent := s.sent, cells := s.cells,
    regs := s.regs.filter fun e => e.1 / 0x100000 == 0x410 || fuseWord e.1,
    sys := { Sys.reset with rstHigh := s.sys.rstHigh, supplyBad := setBits s.sys.supplyBad 0 1 1, pairId := s.sys.pairId,
                            selfTest := false, hardBlock := s.sys.hardBlock },
    isl := s.isl, od := { Od.reset with copies := s.od.copies, loadPend := s.od.loadPend } }

/-- What power-on writes of the stores and the pins. -/
def State.powerMarks (s t : State) : State :=
  let t := (t.put R.OD_STORE_STORED (!s.od.copies.isEmpty)).wr R.OD_STORE_COPY ((s.od.copies.head?.map Copy.area).getD 0)
  let t := (t.put R.OD_STORE_LOAD_PEND s.od.loadPend).put R.TIE_STATUS_YIELD_IN (s.on R.TIE_STATUS_YIELD_IN)
  (t.put R.DEV_STATE_SAFE_BLOCK (s.on R.DEV_STATE_SAFE_BLOCK)).put R.TIE_STATUS_PAIR_ID s.sys.pairId

theorem State.powerOn_eq (s : State) : s.powerOn =
    (((s.powerMarks s.powerBase).wr R.DEV_STATE_STATE St.reset).wr R.STATE_CAUSE_CAUSE Cause.powerOn).driveYield.summarise := rfl

theorem State.powerMarks_keeps (s t : State) : Keeps [.regs] t (s.powerMarks t) := by
  unfold State.powerMarks
  repeat' first | with_reducible exact .refl _ _ | with_reducible apply keeps_put _ _ _ (by decide) | with_reducible apply keeps_wr _ _ _ (by decide)

theorem State.powerOn_keeps (s : State) : Keeps [.regs] s.powerBase s.powerOn :=
  keeps_summarise _ (by decide) (keeps_driveYield _ (by decide) (keeps_wr _ _ _ (by decide) (keeps_wr _ _ _ (by decide)
    (s.powerMarks_keeps s.powerBase))))

theorem State.summarise_rd (s : State) (h : byRecord g = false) : s.summarise.rd g = s.rd g := (State.summarise_reacts s).writes g h

theorem State.driveYield_rd (s : State) (h : R.TIE_STATUS_YIELD_OUT.apart g = true) : s.driveYield.rd g = s.rd g :=
  State.rd_put_apart _ _ _ _ (by decide) h

theorem State.powerOn_st (s : State) : s.powerOn.st = St.reset := by
  rw [State.st, State.powerOn_eq, State.summarise_rd _ (by decide), State.driveYield_rd _ (by decide),
    State.rd_wr_apart _ _ _ _ (by decide) (by decide), State.rd_wr_same _ _ _ (by decide)]
  rfl

theorem State.powerOn_cause (s : State) : s.powerOn.rd R.STATE_CAUSE_CAUSE = 1 := by
  rw [State.powerOn_eq, State.summarise_rd _ (by decide), State.driveYield_rd _ (by decide), State.rd_wr_same _ _ _ (by decide)]
  rfl

/-! ### SYS_RST_N -/

theorem State.resetLatches_keeps (s : State) : Keeps [.regs] s.resetBase s.resetLatches := by
  refine State.forL_keeps (Keeps [.regs] s.resetBase) _ _ (fun i _ t ht => keeps_putBit _ _ _ _ (by decide) ht) _ ?_
  exact State.forL_keeps (Keeps [.regs] s.resetBase) _ _
    (fun i _ t ht => keeps_wr _ _ _ (by decide) (keeps_putBit _ _ _ _ (by decide) ht)) _ (.refl _ _)

theorem State.resetMarks_keeps (s t : State) (cause : Nat) : Keeps [.regs] t (s.resetMarks t cause) := by
  unfold State.resetMarks
  repeat' first | with_reducible exact .refl _ _ | with_reducible apply keeps_put _ _ _ (by decide) | with_reducible apply keeps_wr _ _ _ (by decide)

/-- What two changes both leave. -/
theorem Keeps.trans {F : List Part} {u : State} (h : Keeps F s t) (h' : Keeps F t u) : Keeps F s u := by
  refine ⟨⟨h'.1.1.trans h.1.1, fun p hp => ?_⟩, h'.2 ∘ h.2⟩
  have h1 := h.1.2 p hp
  have h2 := h'.1.2 p hp
  cases p <;> exact h2.trans h1

theorem State.enterReset_keeps (s : State) (cause : Nat) : Keeps [.regs] s.resetBase (s.enterReset cause) := by
  rw [State.enterReset_eq]
  exact keeps_summarise _ (by decide) (keeps_driveYield _ (by decide) (s.resetLatches_keeps.trans (s.resetMarks_keeps _ cause)))

theorem State.enterReset_cause (s : State) (cause : Nat) (h : cause < 16) : (s.enterReset cause).rd R.STATE_CAUSE_CAUSE = cause := by
  rw [State.enterReset_eq, State.summarise_rd _ (by decide), State.driveYield_rd _ (by decide), State.resetMarks,
    State.rd_wr_same _ _ _ (by decide)]
  exact Nat.mod_eq_of_lt (h.trans_le (by decide))

/-- In RESET the island's reset changes its own block, and of the rest the latches and the links of a unit that yields. -/
theorem State.islandReset_rd (hs : s.st = St.reset) (ha : g.addr < 0x41000000 ∨ 0x41100000 ≤ g.addr) (hl : byLines g = false)
    (hq : byStillEvent g = false) : s.islandReset.rd g = s.rd g := by
  have hst : s.islandClear.st = St.reset := (State.islandClear_rd_outside s (.inr (by decide))).trans hs
  have hdone : s.islandClear.linesDone.st = St.reset := (State.linesDone_st _).trans hst
  rw [State.islandReset, State.islandUpdate_eq, State.blockDone_of_reset hst,
    (State.causesAre_still (.inl hdone) (State.islandCauses_lt _)).writes g hq, s.islandClear.linesDone_writes g hl,
    State.islandClear_rd_outside s ha]

theorem State.functionsDone_sys (s : State) : s.functionsDone.sys = s.sys := by
  have h0 : (s.noteFns.showFns s.actingFn).sys = s.sys := (State.showFns_keeps _ _).1.2 .sys (by decide)
  rw [State.functionsDone, (State.showOutputs_keeps _).1.2 .sys (by decide)]
  exact State.forN_keeps (fun t => t.sys = s.sys) 2 (fun n t => t.driveSo n)
    (fun n _ t ht => ((keeps_driveSo (F := [.regs, .isl]) t n (by decide) (.refl _ _)).1.2 .sys (by decide)).trans ht) _ h0

theorem State.islandReset_rstHigh (s : State) : s.islandReset.sys.rstHigh = s.sys.rstHigh := by
  obtain ⟨_, _, _, _, _, hs⟩ := s.islandClear.islandUpdate_reacts.sys
  have hf : s.islandClear.functionsDone.sys = s.sys := State.functionsDone_sys _
  rw [State.islandReset, hs, State.linesDone, State.put_sys, State.drivePath_sys, hf]

/-! ### The end of RESET -/

/-- SELF-TEST is entered. -/
def State.leaveReset (s : State) : State :=
  let s := (s.wr R.DEV_STATE_PREV s.st).wr R.DEV_STATE_STATE St.selfTest
  { s with sys := { s.sys with selfTest := true } }

theorem State.endReset_eq (h : s.st = St.reset ∧ s.sys.rstHigh = true ∧ s.sys.supplyBad = 0) : s.endReset =
    s.leaveReset.forN 128 fun i s => s.when (s.bit (R.FLT_LIVE_LIVE (i / 32)) (i % 32)) fun s => (s.causeAbsent i).raise i :=
  if_pos h

theorem State.leaveReset_rd (s : State) (g : Fld) :
    s.leaveReset.rd g = ((s.wr R.DEV_STATE_PREV s.st).wr R.DEV_STATE_STATE St.selfTest).rd g := rfl

theorem State.leaveReset_st (s : State) : s.leaveReset.st = St.selfTest := by
  rw [State.st, State.leaveReset_rd, State.rd_wr_same _ _ _ (by decide)]
  rfl

theorem State.leaveReset_prev (s : State) : s.leaveReset.rd R.DEV_STATE_PREV = s.st := by
  rw [State.leaveReset_rd, State.rd_wr_apart _ _ _ _ (by decide) (by decide), State.rd_wr_same _ _ _ (by decide)]
  exact Nat.mod_eq_of_lt (s.rd_lt R.DEV_STATE_STATE)

/-- The causes that stand raise their sources again, which leaves the self-test running (R411). -/
theorem State.endReset_after (h : s.st = St.reset ∧ s.sys.rstHigh = true ∧ s.sys.supplyBad = 0) :
    State.ReactsIn byStillEvent s.leaveReset s.endReset := by
  rw [State.endReset_eq h]
  have turn : ∀ i, i < 128 → ∀ u, State.ReactsIn byStillEvent s.leaveReset u → State.ReactsIn byStillEvent s.leaveReset
      (u.when (u.bit (R.FLT_LIVE_LIVE (i / 32)) (i % 32)) fun s => (s.causeAbsent i).raise i) := fun i hi u hu => by
    have ha := u.causeAbsent_still hi
    have hst := ha.st_stillEvent (hu.st_stillEvent (.inr s.leaveReset_st))
    exact State.when_keeps (State.ReactsIn byStillEvent s.leaveReset) u _ _ hu ((hu.trans ha).trans (State.raiseAll_still hst _))
  exact State.forN_keeps (State.ReactsIn byStillEvent s.leaveReset) 128 _ turn _ (.refl _)

theorem State.endReset_shows (h : s.st = St.reset ∧ s.sys.rstHigh = true ∧ s.sys.supplyBad = 0) :
    s.endReset.st = St.selfTest ∧ s.endReset.rd R.DEV_STATE_PREV = St.reset ∧
      ∃ p q r c u, s.endReset.sys = { s.sys with selfTest := true, pend := p, prep := q, restore := r, committed := c, quiet := u } := by
  obtain ⟨hw, p, q, r, c, u, hs⟩ := State.endReset_after h
  exact ⟨(hw _ (by decide)).trans s.leaveReset_st, (hw _ (by decide)).trans (s.leaveReset_prev.trans h.1), p, q, r, c, u, hs⟩

/-! ### The self-test -/

/-- A whole register word is a field of 32 bits. -/
theorem State.word_eq_rd (s : State) (a : Nat) : s.word a = s.rd ⟨a, 0, 32⟩ := by
  simp only [State.rd, bitsOf, Nat.pow_zero, Nat.div_one, Nat.mod_eq_of_lt (s.word_lt a)]

/-- The fields written as the self-test ends. -/
def testEndFlds : List Fld :=
  [R.ST_SUMMARY_DONE, R.ST_SUMMARY_RUN_COUNT, R.DEV_STATE_PREV, R.DEV_STATE_STATE, R.STATE_CAUSE_CAUSE, R.TRANS_PERIOD_PERIOD,
    R.TIE_STATUS_YIELD_OUT]

/-- The self-test runs no longer, and its run counts. -/
def State.testCounted (s : State) : State :=
  { s with sys := { s.sys with selfTest := false, runCount := Nat.min 15 (s.sys.runCount + 1) } }

/-- The self-test is over. -/
def State.testDone (s : State) : State :=
  (s.testCounted.put R.ST_SUMMARY_DONE true).wr R.ST_SUMMARY_RUN_COUNT (Nat.min 15 (s.sys.runCount + 1))

theorem State.testEnds_eq (s : State) : s.testEnds =
    if s.testDone.on R.FLT_SUMMARY_LOCK_LATCH then (s.testDone.goto St.locked Cause.testEnd 0).driveYield
    else { s.testDone with sys := { s.testDone.sys with secure := true } } := rfl

theorem State.testDone_rd (s : State) (h : R.ST_SUMMARY_DONE.apart g = true) (h' : R.ST_SUMMARY_RUN_COUNT.apart g = true) :
    s.testDone.rd g = s.rd g :=
  (State.rd_wr_apart _ _ _ _ (by decide) h').trans (State.rd_put_apart s.testCounted _ _ _ (by decide) h)

theorem State.testDone_done (s : State) : s.testDone.on R.ST_SUMMARY_DONE = true := by
  rw [State.testDone, State.on, State.rd_wr_apart _ _ _ _ (by decide) (by decide), ← State.on]
  exact State.on_put_same _ _ _ (by decide) rfl

theorem State.goto_rd (s : State) (dst cause per : Nat) (h : R.DEV_STATE_PREV.apart g = true) (h1 : R.DEV_STATE_STATE.apart g = true)
    (h2 : R.STATE_CAUSE_CAUSE.apart g = true) (h3 : R.TRANS_PERIOD_PERIOD.apart g = true) : (s.goto dst cause per).rd g = s.rd g := by
  rw [State.goto, State.rd_wr_apart _ _ _ _ (by decide) h3, State.rd_wr_apart _ _ _ _ (by decide) h2,
    State.rd_wr_apart _ _ _ _ (by decide) h1, State.rd_wr_apart _ _ _ _ (by decide) h]
  exact State.when_keeps (fun t => t.rd g = s.rd g) s _ _ rfl
    (State.rd_congr _ _ ((keeps_sendBlockSets (F := [.sent]) s (by decide) (.refl _ _)).1.2 .regs (by decide)) g)

theorem State.goto_st (s : State) (dst cause per : Nat) (h : dst < 16) : (s.goto dst cause per).st = dst := by
  rw [State.st, State.goto, State.rd_wr_apart _ _ _ _ (by decide) (by decide), State.rd_wr_apart _ _ _ _ (by decide) (by decide),
    State.rd_wr_same _ _ _ (by decide)]
  exact Nat.mod_eq_of_lt h

theorem State.goto_cause (s : State) (dst cause per : Nat) (h : cause < 16) : (s.goto dst cause per).rd R.STATE_CAUSE_CAUSE = cause := by
  rw [State.goto, State.rd_wr_apart _ _ _ _ (by decide) (by decide), State.rd_wr_same _ _ _ (by decide)]
  exact Nat.mod_eq_of_lt (h.trans_le (by decide))

theorem State.goto_sys (s : State) (dst cause per : Nat) : (s.goto dst cause per).sys = s.sys :=
  (keeps_goto (F := [.regs, .sent]) s dst cause per (by decide) (.refl _ _)).1.2 .sys (by decide)

/-- What the end of the self-test leaves and decides. -/
theorem State.testEnds_shows (s : State) (hst : s.st = St.selfTest) :
    (∀ g, testEndFlds.all (·.apart g) = true → s.testEnds.rd g = s.rd g) ∧ s.testEnds.on R.ST_SUMMARY_DONE = true ∧
      s.testEnds.sys.selfTest = false ∧
      (if s.on R.FLT_SUMMARY_LOCK_LATCH then s.testEnds.st = St.locked else s.testEnds.st = St.selfTest ∧ s.testEnds.sys.secure = true) := by
  have hlock : s.testDone.on R.FLT_SUMMARY_LOCK_LATCH = s.on R.FLT_SUMMARY_LOCK_LATCH := by
    rw [State.on, s.testDone_rd (by decide) (by decide), State.on]
  have hdone : s.testDone.st = St.selfTest := (s.testDone_rd (by decide) (by decide)).trans hst
  rw [State.testEnds_eq, hlock]
  split
  · refine ⟨fun g hg => ?_, ?_, ?_, ?_⟩
    · simp only [testEndFlds, List.all_cons, List.all_nil, Bool.and_true, Bool.and_eq_true] at hg
      obtain ⟨h1, h2, h3, h4, h5, h6, h7⟩ := hg
      rw [State.driveYield_rd _ h7, State.goto_rd _ _ _ _ h3 h4 h5 h6, s.testDone_rd h1 h2]
    · rw [State.on, State.driveYield_rd _ (by decide), State.goto_rd _ _ _ _ (by decide) (by decide) (by decide) (by decide), ← State.on]
      exact s.testDone_done
    · have hy : ∀ u : State, u.driveYield.sys = u.sys := fun u => rfl
      rw [hy, State.goto_sys]
      rfl
    · rw [State.st, State.driveYield_rd _ (by decide)]
      exact State.goto_st _ _ _ _ (by decide)
  · refine ⟨fun g hg => ?_, s.testDone_done, rfl, hdone, rfl⟩
    simp only [testEndFlds, List.all_cons, List.all_nil, Bool.and_true, Bool.and_eq_true] at hg
    exact s.testDone_rd hg.1 hg.2.1

theorem State.rd_setWord_ne (s : State) (a v : Nat) (h : g.addr ≠ a) : (s.setWord a v).rd g = s.rd g := by
  rw [State.rd, State.word_setWord, if_neg h, State.rd]

theorem State.word_setWord_same (s : State) (a v : Nat) : (s.setWord a v).word a = v % 2 ^ 32 := by rw [State.word_setWord, if_pos rfl]

theorem State.word_setWord_ne (s : State) (a v b : Nat) (h : b ≠ a) : (s.setWord a v).word b = s.word b := by
  rw [State.word_setWord, if_neg h]

/-- What the report leaves: its words, its verdicts, and the state. -/
theorem State.writeReport_shows (s : State) (r : StReport) :
    (s.writeReport r).word R.ST_BANK_BANK.addr = r.banks.toNat ∧ (s.writeReport r).word R.ST_LANE_LO_STRAND_LO.addr = r.lanesLo.toNat ∧
      (s.writeReport r).rd R.ST_SUMMARY_DURATION = r.duration.toNat ∧
      (s.writeReport r).on R.ST_SUMMARY_MBIST_FAIL = (r.banks != 0#32) ∧ (s.writeReport r).st = s.st ∧
      (s.writeReport r).on R.FLT_SUMMARY_LOCK_LATCH = s.on R.FLT_SUMMARY_LOCK_LATCH := by
  have hb : r.banks.toNat % 2 ^ 32 = r.banks.toNat := Nat.mod_eq_of_lt r.banks.isLt
  have hl : r.lanesLo.toNat % 2 ^ 32 = r.lanesLo.toNat := Nat.mod_eq_of_lt r.lanesLo.isLt
  have hd : r.duration.toNat % 2 ^ 16 = r.duration.toNat := Nat.mod_eq_of_lt r.duration.isLt
  unfold State.writeReport
  refine ⟨?_, ?_, ?_, ?_, ?_, ?_⟩
  · simp (disch := decide) only [State.put, State.word_wr_ne, State.word_setWord_ne, State.word_setWord_same, hb]
  · simp (disch := decide) only [State.put, State.word_wr_ne, State.word_setWord_ne, State.word_setWord_same, hl]
  · simp (disch := decide) only [State.put, State.rd_wr_apart, State.rd_wr_same]
    exact hd
  · simp (disch := decide) only [State.on, State.put, State.rd_wr_apart, State.rd_wr_same]
    cases r.banks != 0#32 <;> rfl
  · simp (disch := decide) only [State.st, State.put, State.rd_wr_apart, State.rd_setWord_ne]
  · simp (disch := decide) only [State.on, State.put, State.rd_wr_apart, State.rd_setWord_ne]

/-- The watchdog's record of the step in which the self-test stood. -/
def State.timeoutReport (s : State) (step : Nat) : State :=
  ((s.put R.ST_SUMMARY_TIMEOUT true).wr R.ST_SUMMARY_STEP step).wr R.ST_SUMMARY_DURATION 4000

theorem State.timeoutReport_shows (s : State) (i : Fin 6) :
    (s.timeoutReport i).on R.ST_SUMMARY_TIMEOUT = true ∧ (s.timeoutReport i).rd R.ST_SUMMARY_STEP = i ∧
      (s.timeoutReport i).rd R.ST_SUMMARY_DURATION = 4000 ∧ (s.timeoutReport i).st = s.st ∧
      (s.timeoutReport i).on R.FLT_SUMMARY_LOCK_LATCH = s.on R.FLT_SUMMARY_LOCK_LATCH := by
  unfold State.timeoutReport
  refine ⟨?_, ?_, ?_, ?_, ?_⟩
  · simp (disch := decide) only [State.on, State.put, State.rd_wr_apart, State.rd_wr_same]
    rfl
  · simp (disch := decide) only [State.put, State.rd_wr_apart, State.rd_wr_same]
    exact Nat.mod_eq_of_lt (i.isLt.trans (by decide))
  · simp (disch := decide) only [State.put, State.rd_wr_apart, State.rd_wr_same]
    rfl
  · simp (disch := decide) only [State.st, State.put, State.rd_wr_apart]
  · simp (disch := decide) only [State.on, State.put, State.rd_wr_apart]

/-! ### Secure start and SAFE HOLD -/

/-- What entering SAFE HOLD may write once the state stands: the role and its pin, and live causes. -/
def byStart : Fld → Bool := near [R.DEV_STATE_ROLE, R.TIE_STATUS_YIELD_OUT] sourceWord

theorem within_byStart {f : Fld} (h : f ∈ [R.DEV_STATE_ROLE, R.TIE_STATUS_YIELD_OUT]) : f.Within byStart :=
  Fld.within_of_mem h ((by decide : ∀ f ∈ [R.DEV_STATE_ROLE, R.TIE_STATUS_YIELD_OUT], f.inWord = true) f h)

theorem bySource_of_byStart (h : byStart g = false) : bySource g = false := (Bool.or_eq_false_iff.1 h).2

theorem State.causeAbsent_start (s : State) {i : Nat} (hi : i < 128) : State.ReactsIn byStart s (s.causeAbsent i) :=
  ((State.ReactsIn.refl s).putBit (live_within (by omega)) _ _).mono fun _ => bySource_of_byStart

theorem State.driveYield_start (s : State) : State.ReactsIn byStart s s.driveYield :=
  (State.ReactsIn.refl s).put (within_byStart (by decide)) _

theorem State.takeRole_start (s : State) (r : Nat) : State.ReactsIn byStart s (s.takeRole r) := by
  unfold State.takeRole
  extract_lets tie s₁
  have h₁ : State.ReactsIn byStart s s₁ := (State.ReactsIn.refl s).withTie _
  exact (h₁.wr (within_byStart (by decide)) r).trans (State.driveYield_start _)

theorem State.takeRole_role (s : State) {r : Nat} (h : r < 8) : (s.takeRole r).role = r := by
  unfold State.takeRole
  extract_lets tie s₁
  rw [State.role, State.driveYield_rd _ (by decide), State.rd_wr_same _ _ _ (by decide)]
  exact Nat.mod_eq_of_lt h

/-- A unit that becomes SOLO has no partner to wait for (R319). -/
theorem State.changeRole_solo (s : State) : State.ReactsIn byStart s (s.changeRole Role.solo) := by
  unfold State.changeRole
  split
  · exact .refl s
  · have hs : ∀ W, State.ReactsIn W (s.takeRole Role.solo) ((s.takeRole Role.solo).sendTie 7 3 (bytesLE 8 0)) := fun _ =>
      State.sendTie_reacts _ _ _ _
    have hrole : ((s.takeRole Role.solo).sendTie 7 3 (bytesLE 8 0)).role = Role.solo :=
      ((hs fun _ => false).writes _ rfl).trans (s.takeRole_role (by decide))
    rw [State.redundancy, hrole, if_neg (by decide)]
    exact ((s.takeRole_start Role.solo).trans (hs _)).trans (State.causeAbsent_start _ (by decide))

/-- SAFE HOLD with the verdict of the tests. -/
def State.holdEntered (s : State) : State := (s.goto St.safeHold Cause.testEnd 0).put R.DEV_STATE_ST_PASS (s.on R.ST_SUMMARY_PASS && true)

theorem State.holdEntered_keeps (s : State) : Keeps [.regs, .sent] s s.holdEntered :=
  keeps_put _ _ _ (by decide) (keeps_goto _ _ _ _ (by decide) (.refl _ _))

theorem State.goto_on (s : State) (dst cause per : Nat) (h : R.DEV_STATE_PREV.apart g = true) (h1 : R.DEV_STATE_STATE.apart g = true)
    (h2 : R.STATE_CAUSE_CAUSE.apart g = true) (h3 : R.TRANS_PERIOD_PERIOD.apart g = true) : (s.goto dst cause per).on g = s.on g := by
  rw [State.on, State.goto_rd _ _ _ _ h h1 h2 h3, State.on]

theorem State.firmwareStarts_of_none (h : s.od.copies = []) (hl : s.od.loadPend = false) :
    s.firmwareStarts = { s with isl := { s.isl with area := s.isl.stored } } := by
  have he : s.eraseCopies = s := by rw [State.eraseCopies, hl, State.when_false]
  rw [State.firmwareStarts, he, State.restoreCopy, h]
  rfl

theorem State.causeIs_start (s : State) {i : Nat} (hi : i < 128) {b : Bool} (h : b = false) : State.ReactsIn byStart s (s.causeIs i b) := by
  rw [State.causeIs, h]
  exact State.causeAbsent_start _ hi

/-- Without a stored copy and without AUTOCONF the entry to SAFE HOLD ends with the role taken and the boot-up message. -/
theorem State.enterSafeHold_reacts (hp : s.on R.ST_SUMMARY_PASS = true) (hc : s.od.copies = []) (hl : s.od.loadPend = false)
    (ha : s.on R.ENERGISE_CFG_AUTOCONF = false) : State.ReactsIn byStart s.holdEntered (s.enterSafeHold true) := by
  unfold State.enterSafeHold
  extract_lets s₁ s₂ tie s₃ s₄ s₅ s₆
  have h₂ : State.ReactsIn byStart s.holdEntered s₂ := by
    have hod : s.holdEntered.od = s.od := s.holdEntered_keeps.1.2 .od (by decide)
    have hpass : s₁.on R.ST_SUMMARY_PASS = s.on R.ST_SUMMARY_PASS := State.goto_on _ _ _ _ (by decide) (by decide) (by decide) (by decide)
    have hfirm : s₂ = s.holdEntered.firmwareStarts := by
      unfold s₂
      rw [hpass]
      rfl
    rw [hfirm, State.firmwareStarts_of_none (hod ▸ hc) (hod ▸ hl)]
    exact .of_eq rfl rfl
  have h₃ : State.ReactsIn byStart s.holdEntered s₃ := (h₂.withTie _).trans (State.driveYield_start _)
  have h₄ : State.ReactsIn byStart s.holdEntered s₄ := h₃.when State.changeRole_solo
  have hpass : s₄.on R.DEV_STATE_ST_PASS = true := by
    rw [h₄.writes.on (by decide), State.holdEntered, State.on_put_same _ _ _ (by decide) rfl, hp]
    rfl
  have h₅ : State.ReactsIn byStart s.holdEntered s₅ := h₄.trans (State.causeIs_start _ (by decide) (by rw [hpass]; rfl))
  have h₆ : State.ReactsIn byStart s.holdEntered s₆ := State.forN_keeps (State.ReactsIn byStart s.holdEntered) 2 _
    (fun p _ u hu => hu.when fun v => State.send_reacts _ _) _ h₅
  have hauto : s₆.on R.ENERGISE_CFG_AUTOCONF = false := by
    rw [h₆.writes.on (by decide), State.holdEntered, State.on_put_apart _ _ _ _ (by decide) (by decide),
      State.goto_on _ _ _ _ (by decide) (by decide) (by decide) (by decide), ha]
  rw [State.autoConfigure, hauto, if_pos (by decide)]
  exact h₆

/-- SEC_STATUS as secure start leaves it. -/
def State.secureStatus (s : State) (res : SecResult) : State :=
  let s := (s.put R.SEC_STATUS_OK res.ok).wr R.SEC_STATUS_SLOT res.slot
  let s := (s.wr R.SEC_STATUS_KEY res.key).wr R.SEC_STATUS_CODE res.code
  ((s.wr R.SEC_STATUS_PART_OK res.partOk.toNat).wr R.SEC_STATUS_PART_FAIL res.partFail.toNat).wr R.SEC_STATUS_PCODE res.pcode

/-- The security versions of the images that run. -/
def secureVersions (res : SecResult) : NMap Nat :=
  let runs := fun (t : Nat) => if t = 0 then res.ok else res.partOk.getLsbD (t - 1)
  (upto 9).foldl (fun m t => if runs t then mapSet (fun _ => 0) m t (res.svn.getD t 0).val else m) []

def State.withVersions (s : State) (v : NMap Nat) : State := { s with mem := { s.mem with svn := v } }

def State.secureOver (s : State) : State := { s with sys := { s.sys with secure := false } }

/-- The state in which SAFE HOLD is entered. -/
def State.secureDone (s : State) (res : SecResult) : State :=
  ((s.secureOver.secureStatus res).withVersions (secureVersions res)).put R.ST_SUMMARY_SECURE_FAIL (!res.ok)

theorem exec_secureStartEnd (r : SecResult) (h : s.st = St.selfTest) (hs : s.sys.secure = true) :
    exec (.secureStartEnd r) s = .next ((s.secureDone r).enterSafeHold r.ok) := by
  have he : exec (.secureStartEnd r) s = execSecureStartEnd r s := rfl
  have hc : (s.st == St.selfTest && s.sys.secure) = true := by rw [h, hs]; rfl
  rw [he, execSecureStartEnd, hc, State.when_true]
  rfl

theorem State.secureStatus_keeps (s : State) (r : SecResult) : Keeps [.regs] s (s.secureStatus r) := by
  unfold State.secureStatus
  repeat' first | with_reducible exact .refl _ _ | with_reducible apply keeps_put _ _ _ (by decide) | with_reducible apply keeps_wr _ _ _ (by decide)

theorem State.withVersions_sys (s : State) (v : NMap Nat) : (s.withVersions v).sys = s.sys := rfl

theorem State.withVersions_od (s : State) (v : NMap Nat) : (s.withVersions v).od = s.od := rfl

theorem State.withVersions_rd (s : State) (v : NMap Nat) (g : Fld) : (s.withVersions v).rd g = s.rd g := rfl

theorem State.secureOver_rd (s : State) (g : Fld) : s.secureOver.rd g = s.rd g := rfl

theorem State.secureDone_sys (s : State) (r : SecResult) : (s.secureDone r).sys = { s.sys with secure := false } := by
  rw [State.secureDone, State.put_sys, State.withVersions_sys, (s.secureOver.secureStatus_keeps r).1.2 .sys (by decide), State.secureOver]

theorem State.secureDone_od (s : State) (r : SecResult) : (s.secureDone r).od = s.od := by
  rw [State.secureDone, State.put_od, State.withVersions_od, (s.secureOver.secureStatus_keeps r).1.2 .od (by decide), State.secureOver]

theorem State.secureDone_rd (s : State) (r : SecResult) (h : R.ST_SUMMARY_SECURE_FAIL.apart g = true) :
    (s.secureDone r).rd g = (s.secureOver.secureStatus r).rd g := by
  rw [State.secureDone, State.rd_put_apart _ _ _ _ (by decide) h, State.withVersions_rd]

theorem State.secureStatus_rd (s : State) (r : SecResult) (h : g.addr ≠ R.SEC_STATUS_OK.addr) : (s.secureStatus r).rd g = s.rd g := by
  have hf : ∀ {f : Fld}, f.addr = R.SEC_STATUS_OK.addr → f.apart g = true := fun hf => Fld.apart_of_addr (by rw [hf]; exact h)
  unfold State.secureStatus
  simp (disch := first | decide | exact hf rfl) only [State.put, State.rd_wr_apart]

theorem State.secureStatus_shows (s : State) (r : SecResult) (h : r.ok = true) :
    (s.secureStatus r).on R.SEC_STATUS_OK = true ∧ (s.secureStatus r).rd R.SEC_STATUS_SLOT = r.slot ∧
      (s.secureStatus r).rd R.SEC_STATUS_KEY = r.key ∧ (s.secureStatus r).rd R.SEC_STATUS_CODE = r.code := by
  unfold State.secureStatus
  refine ⟨?_, ?_, ?_, ?_⟩
  · simp (disch := decide) only [State.on, State.put, State.rd_wr_apart, State.rd_wr_same, h]
    rfl
  · simp (disch := decide) only [State.rd_wr_apart, State.rd_wr_same]
    exact Nat.mod_eq_of_lt r.slot.isLt
  · simp (disch := decide) only [State.rd_wr_apart, State.rd_wr_same]
    exact Nat.mod_eq_of_lt r.key.isLt
  · simp (disch := decide) only [State.rd_wr_apart, State.rd_wr_same]
    exact Nat.mod_eq_of_lt r.code.isLt

/-! ### Clock monitors -/

theorem clocksFail_nominal (i : Nat) :
    (clocksFail (250000#32).toNat (1562500#32).toNat (1562500#32).toNat).getD i false = false := by
  have h : clocksFail (250000#32).toNat (1562500#32).toNat (1562500#32).toNat = [false, false, false] := by decide
  rw [h]
  rcases i with _ | _ | _ | i <;> rfl

/-- With the nominal counts no clock fails. -/
theorem exec_clockMonitorWindow (h : s.inputsRun = true) :
    exec (.clockMonitorWindow 250000#32 1562500#32 1562500#32) s = .next (s.forN 3 fun i s => s.causeAbsent (7 + i)) := by
  have he : exec (.clockMonitorWindow 250000#32 1562500#32 1562500#32) s = execClockMonitorWindow 250000#32 1562500#32 1562500#32 s := rfl
  rw [he, execClockMonitorWindow, h, State.when_true]
  simp only [clocksFail_nominal, State.causeIs, Bool.false_eq_true, if_false]

theorem State.clockCauses_absent (s : State) (i : Nat) (h : 7 ≤ i) (h' : i < 10) :
    (s.forN 3 fun i s => s.causeAbsent (7 + i)).bit (R.FLT_LIVE_LIVE 0) i = false := by
  have word : ∀ j, j < 3 → (7 + j) / 32 = 0 ∧ (7 + j) % 32 = 7 + j := by decide
  refine State.forN_turn (fun _ => True) (fun u => u.bit (R.FLT_LIVE_LIVE 0) i = false) (i := i - 7) (by omega) (fun _ _ _ _ => trivial)
    (fun u _ => ?_) (fun j hj hn u hu => ?_) trivial
  · obtain ⟨hw, hm⟩ := word (i - 7) (by omega)
    have hi : 7 + (i - 7) = i := by omega
    rw [State.causeAbsent, hw, hm, hi]
    exact State.bit_putBit_same _ _ _ _ (by decide) (by show i < 32; omega)
  · obtain ⟨hw, hm⟩ := word j hn
    rw [State.causeAbsent, hw, hm, State.bit_putBit_ne _ _ _ (by decide) (by show i < 32; omega) (by omega)]
    exact hu

/-! ### The obligation -/

theorem State.secureStart_shows (s : State) (r : SecResult) (hp : s.on R.ST_SUMMARY_PASS = true) (hok : r.ok = true) (hc : s.od.copies = [])
    (hl : s.od.loadPend = false) (ha : s.on R.ENERGISE_CFG_AUTOCONF = false) :
    ((s.secureDone r).enterSafeHold true).st = St.safeHold ∧ ((s.secureDone r).enterSafeHold true).rd R.STATE_CAUSE_CAUSE = 4 ∧
      ((s.secureDone r).enterSafeHold true).sys.secure = false ∧ ((s.secureDone r).enterSafeHold true).on R.SEC_STATUS_OK = true ∧
      ((s.secureDone r).enterSafeHold true).rd R.SEC_STATUS_SLOT = r.slot ∧ ((s.secureDone r).enterSafeHold true).rd R.SEC_STATUS_KEY = r.key ∧
      ((s.secureDone r).enterSafeHold true).rd R.SEC_STATUS_CODE = r.code ∧
      ((s.secureDone r).enterSafeHold true).on R.DEV_STATE_ST_PASS = true := by
  have below : ∀ {g : Fld}, R.ST_SUMMARY_SECURE_FAIL.apart g = true → g.addr ≠ R.SEC_STATUS_OK.addr → (s.secureDone r).rd g = s.rd g :=
    fun h h' => (s.secureDone_rd r h).trans ((State.secureStatus_rd _ r h').trans (s.secureOver_rd _))
  have hpass : (s.secureDone r).on R.ST_SUMMARY_PASS = true := by
    rw [State.on, below (by decide) (by decide)]
    exact hp
  have hauto : (s.secureDone r).on R.ENERGISE_CFG_AUTOCONF = false := by
    rw [State.on, below (by decide) (by decide)]
    exact ha
  have hcopies : (s.secureDone r).od.copies = [] := by rw [s.secureDone_od r, hc]
  have hload : (s.secureDone r).od.loadPend = false := by rw [s.secureDone_od r, hl]
  have hr := State.enterSafeHold_reacts hpass hcopies hload hauto
  generalize (s.secureDone r).enterSafeHold true = t at hr ⊢
  obtain ⟨hw, _, _, _, _, _, hsys⟩ := hr
  have hgoto : ∀ {g : Fld}, byStart g = false → R.DEV_STATE_ST_PASS.apart g = true →
      t.rd g = ((s.secureDone r).goto St.safeHold Cause.testEnd 0).rd g := fun h h' =>
    (hw _ h).trans (by rw [State.holdEntered, State.rd_put_apart _ _ _ _ (by decide) h'])
  have hstat : ∀ {g : Fld}, byStart g = false → R.DEV_STATE_ST_PASS.apart g = true → R.DEV_STATE_PREV.apart g = true →
      R.DEV_STATE_STATE.apart g = true → R.STATE_CAUSE_CAUSE.apart g = true → R.TRANS_PERIOD_PERIOD.apart g = true →
      R.ST_SUMMARY_SECURE_FAIL.apart g = true → t.rd g = (s.secureOver.secureStatus r).rd g :=
    fun h h' h1 h2 h3 h4 h5 => (hgoto h h').trans ((State.goto_rd _ _ _ _ h1 h2 h3 h4).trans (s.secureDone_rd r h5))
  obtain ⟨h1, h2, h3, h4⟩ := s.secureOver.secureStatus_shows r hok
  refine ⟨?_, ?_, ?_, ?_, ?_, ?_, ?_, ?_⟩
  · exact (hgoto (by decide) (by decide)).trans (State.goto_st _ _ _ _ (by decide))
  · exact (hgoto (by decide) (by decide)).trans (State.goto_cause _ _ _ _ (by decide))
  · rw [hsys, (s.secureDone r).holdEntered_keeps.1.2 .sys (by decide), State.secureDone_sys]
  · rw [State.on, hstat (by decide) (by decide) (by decide) (by decide) (by decide) (by decide) (by decide)]
    exact h1
  · exact (hstat (by decide) (by decide) (by decide) (by decide) (by decide) (by decide) (by decide)).trans h2
  · exact (hstat (by decide) (by decide) (by decide) (by decide) (by decide) (by decide) (by decide)).trans h3
  · exact (hstat (by decide) (by decide) (by decide) (by decide) (by decide) (by decide) (by decide)).trans h4
  · rw [hw.on (by decide), State.holdEntered, State.on_put_same _ _ _ (by decide) rfl, hpass]
    rfl

theorem exec_selfTestEnd (r : StReport) (h : s.st = St.selfTest) (hs : s.sys.selfTest = true) :
    exec (.selfTestEnd r) s = .next (s.writeReport r).testEnds := by
  have he : exec (.selfTestEnd r) s = execSelfTestEnd r s := rfl
  have hc : (s.st == St.selfTest && s.sys.selfTest) = true := by rw [h, hs]; rfl
  rw [he, execSelfTestEnd, hc, State.when_true]

theorem exec_selfTestTimeout (i : Fin 6) (h : s.st = St.selfTest) (hs : s.sys.selfTest = true) :
    exec (.selfTestTimeout i) s = .next (s.timeoutReport i).testEnds := by
  have he : exec (.selfTestTimeout i) s = execSelfTestTimeout i s := rfl
  have hc : (s.st == St.selfTest && s.sys.selfTest) = true := by rw [h, hs]; rfl
  rw [he, execSelfTestTimeout, hc, State.when_true]
  rfl

/-- SYS_RST_N is high with its strap sampled, and the island goes to TEST. -/
def State.pinHigh (s : State) (pairId : Bool) : State :=
  (State.put { s with sys := { s.sys with rstHigh := true, pairId := pairId } } R.TIE_STATUS_PAIR_ID pairId).when
    ((State.put { s with sys := { s.sys with rstHigh := true, pairId := pairId } } R.TIE_STATUS_PAIR_ID pairId).ist == Is.reset)
    fun s => s.wr R.SAFE_STATE_STATE Is.test

theorem exec_sysRstNHigh (p : Bool) (h : s.sys.rstHigh = false) : exec (.sysRstNHigh p) s = .next (s.pinHigh p).endReset := by
  have he : exec (.sysRstNHigh p) s = execSysRstNHigh p s := rfl
  rw [he, execSysRstNHigh, h, if_neg (by decide)]
  rfl

theorem State.pinHigh_sys (s : State) (p : Bool) : (s.pinHigh p).sys = { s.sys with rstHigh := true, pairId := p } :=
  State.when_keeps (fun t => t.sys = { s.sys with rstHigh := true, pairId := p }) _ _ _ rfl rfl

theorem State.pinHigh_st (s : State) (p : Bool) : (s.pinHigh p).st = s.st := by
  have hput : (State.put { s with sys := { s.sys with rstHigh := true, pairId := p } } R.TIE_STATUS_PAIR_ID p).st = s.st :=
    State.rd_put_apart _ _ _ _ (by decide) (by decide)
  exact State.when_keeps (fun t => t.st = s.st) _ _ _ hput ((State.rd_wr_apart _ _ _ _ (by decide) (by decide)).trans hput)

/-- The monitors are good again. -/
def State.suppliesGood (s : State) : State := State.causeAbsent { s with sys := { s.sys with supplyBad := 0 } } 11

theorem exec_supplyMonitorsGood (s : State) : exec .supplyMonitorsGood s = .next s.suppliesGood.endReset := rfl

theorem State.suppliesGood_st (s : State) : s.suppliesGood.st = s.st := State.rd_putBit_apart _ _ _ _ _ (by decide) (by decide)

theorem State.suppliesGood_sys (s : State) : s.suppliesGood.sys = { s.sys with supplyBad := 0 } := by
  rw [State.suppliesGood, State.causeAbsent, State.putBit_sys]

/-- A supply outside its window shows at once (R575). -/
def State.supplyFails (s : State) (i : Nat) : State := { s with sys := { s.sys with supplyBad := setBits s.sys.supplyBad i 1 1 } }

theorem exec_supplyMonitor (i : Fin 16) (h : i ≠ 2) : exec (.supplyMonitor i) s =
    .next ((s.supplyFails i).when (s.sys.rstHigh && (s.supplyFails i).st != St.reset) fun s => s.causePresent 11) := by
  have he : exec (.supplyMonitor i) s = execSupplyMonitor i s := rfl
  rw [he, execSupplyMonitor, if_neg h]
  rfl

theorem exec_powerOn (s : State) : exec .powerOn s = .next s.powerOn := rfl

theorem exec_sysRstNLow (s : State) : exec .sysRstNLow s = .next (s.resetPin.when (s.resetPin.ist != Is.halt) State.islandReset) := rfl

theorem State.resetPin_shows (s : State) :
    (s.resetPin.when (s.resetPin.ist != Is.halt) State.islandReset).st = St.reset ∧
      (s.resetPin.when (s.resetPin.ist != Is.halt) State.islandReset).sys.rstHigh = false ∧
      (s.resetPin.when (s.resetPin.ist != Is.halt) State.islandReset).rd R.STATE_CAUSE_CAUSE = 2 ∧
      (s.resetPin.when (s.resetPin.ist != Is.halt) State.islandReset).cells = s.cells ∧
      (s.resetPin.when (s.resetPin.ist != Is.halt) State.islandReset).ctl = Ctl.reset := by
  have hk := (State.enterReset_keeps { s with sys := { s.sys with rstHigh := false } } Cause.sysRst).1.2
  have hst : s.resetPin.st = St.reset := State.enterReset_st _ _
  have hcause : s.resetPin.rd R.STATE_CAUSE_CAUSE = 2 := State.enterReset_cause _ _ (by decide)
  have hhigh : s.resetPin.sys.rstHigh = false := by rw [State.resetPin, hk .sys (by decide)]; rfl
  have hcells : s.resetPin.cells = s.cells := by rw [State.resetPin, hk .cells (by decide)]; rfl
  have hctl : s.resetPin.ctl = Ctl.reset := by rw [State.resetPin, hk .ctl (by decide)]; rfl
  clear hk
  generalize s.resetPin = u at *
  have hi := (keeps_islandReset (F := [.regs, .sent, .sys, .tie, .isl, .flt, .acq, .mem]) u (by decide) (.refl _ _)).1.2
  cases u.ist != Is.halt
  · exact ⟨hst, hhigh, hcause, hcells, hctl⟩
  · rw [State.when_true]
    exact ⟨(State.islandReset_rd hst (.inr (by decide)) (by decide) (by decide)).trans hst, u.islandReset_rstHigh.trans hhigh,
      (State.islandReset_rd hst (.inr (by decide)) (by decide) (by decide)).trans hcause, (hi .cells (by decide)).trans hcells,
      (hi .ctl (by decide)).trans hctl⟩

/-- Settles O9: each of these commands writes the state and its cause last, and what follows in RESET, SELF-TEST or at the entry
to SAFE HOLD (the island, the sources that rise again, the role) does not change them. -/
theorem startUpReachesSafeHold : Obligations.StartUpReachesSafeHold := by
  refine ⟨fun s => ⟨_, exec_powerOn s, ?_⟩, fun s => ⟨_, exec_sysRstNLow s, ?_⟩, fun s p hr hst hb => ⟨_, exec_sysRstNHigh p hr, ?_⟩, fun s hr hst =>
    ⟨_, exec_supplyMonitorsGood s, ?_⟩, fun s i hi => ⟨_, exec_supplyMonitor i hi, ?_⟩, fun s => rfl, fun s r hst ht =>
    ⟨_, exec_selfTestEnd r hst ht, ?_⟩, fun s i hst ht => ⟨_, exec_selfTestTimeout i hst ht, ?_⟩,
    fun s r hst hsec hp hok hc hl ha => ⟨_, exec_secureStartEnd r hst hsec, ?_⟩, fun s hi => ⟨_, exec_clockMonitorWindow hi, ?_⟩⟩
  · have hk := s.powerOn_keeps.1.2
    exact ⟨s.powerOn_st, s.powerOn_cause, hk .cells (by decide), hk .isl (by decide), hk .mem (by decide), hk .ctl (by decide)⟩
  · exact s.resetPin_shows
  · obtain ⟨hs, hp, _, _, _, _, _, hsys⟩ := State.endReset_shows (s := s.pinHigh p)
      ⟨(s.pinHigh_st p).trans hst, by rw [s.pinHigh_sys], by rw [s.pinHigh_sys]; exact hb⟩
    exact ⟨hs, by rw [hsys], by rw [hsys, s.pinHigh_sys], by rw [hsys, s.pinHigh_sys], hp⟩
  · obtain ⟨hs, -, _, _, _, _, _, hsys⟩ := State.endReset_shows (s := s.suppliesGood)
      ⟨s.suppliesGood_st.trans hst, by rw [s.suppliesGood_sys]; exact hr, by rw [s.suppliesGood_sys]⟩
    exact ⟨hs, by rw [hsys], by rw [hsys, s.suppliesGood_sys]⟩
  · have hc : ((s.supplyFails i).causePresent 11).sys.supplyBad = setBits s.sys.supplyBad i 1 1 := by
      obtain ⟨_, _, _, _, _, hsys⟩ := ((s.supplyFails i).causePresent_reacts 11).sys
      rw [hsys]
      rfl
    exact State.when_keeps (fun t => t.sys.supplyBad = setBits s.sys.supplyBad i 1 1) _ _ _ rfl hc
  · obtain ⟨hb, hlo, hd, hm, hs, hlock⟩ := s.writeReport_shows r
    obtain ⟨hrd, hdone, htest, hend⟩ := (s.writeReport r).testEnds_shows (hs.trans hst)
    rw [hlock] at hend
    refine ⟨?_, ?_, hdone, (hrd _ (by decide)).trans hd, ?_, htest, hend⟩
    · rw [State.word_eq_rd, hrd _ (by decide), ← State.word_eq_rd, hb]
    · rw [State.word_eq_rd, hrd _ (by decide), ← State.word_eq_rd, hlo]
    · rw [State.on, hrd _ (by decide), ← State.on, hm]
  · obtain ⟨hto, hstep, hd, hs, hlock⟩ := s.timeoutReport_shows i
    obtain ⟨hrd, hdone, htest, hend⟩ := (s.timeoutReport i).testEnds_shows (hs.trans hst)
    rw [hlock] at hend
    refine ⟨?_, (hrd _ (by decide)).trans hstep, (hrd _ (by decide)).trans hd, hdone, htest, hend⟩
    rw [State.on, hrd _ (by decide), ← State.on, hto]
  · rw [hok]
    exact s.secureStart_shows r hp hok hc hl ha
  · intro i h h'
    exact State.clockCauses_absent s i h h'

end Sys2Proof.Machine
end

section
/-! Refutations of O26, O55, O56 and O57, each at a state that the words of the statement allow: a cell that knows its position
but not yet its offsets, a queue whose DEPTH stands above its legal range, and a session count that has not followed the
sessions. -/

set_option Elab.async false

namespace Sys2Proof.Machine

open Tests

/-- A cell that has its position from training and both strand ports up, and whose slot offsets still have their reset values. -/
def unplacedCell : Cell :=
  { Cell.reset with mode := Mode.safeHold, lk := { Cell.reset.lk with up := some 0, locks := 3, trained := 3 } }

/-- The cell at key 0 of a configured unit. -/
def unplacedState : State := (inState St.configured).setCell 0 unplacedCell

/-- A collection frame of type 3 and nothing but zeros. -/
def bareFrame : List Byte := 3#8 :: List.replicate 31 0#8

/-- Refutes O26: an offset below 32 lies in the header and names no slot, so a cell that is not enumerated passes the frame on
as it came, without its slots. -/
theorem not_framesReachCellsAndHead : ¬ Obligations.FramesReachCellsAndHead := by
  rintro ⟨-, -, -, -, hpass, -⟩
  have h := hpass unplacedState 0 0 bareFrame (by decide +kernel) (by decide +kernel) (by decide +kernel) (by decide +kernel)
    (by decide +kernel) (by decide +kernel) (by decide +kernel)
  have hlong := passes_of_reaches (f := fun t => t.lastBytes.headD 0#8 != 3#8)
    (p := fun t => t = (unplacedState.setCell 0 (unplacedState.cell 0)).send (.cellFrame 0 1
      (patch bareFrame ((unplacedState.cell 0).colOff 0) ((unplacedState.cell 0).ownSlots (Hdr.period bareFrame)))))
    ⟨_, h, rfl⟩ fun t ht => by
      rw [ht]
      decide +kernel
  exact absurd hlong (by decide +kernel)

/-- A CAN FD client that has selected queue 5. -/
def queueSession : Session := { canSession with select := [(0x2A00, 0x10005)] }

/-- ENERGISED with that session open, and a DEPTH of queue 5 above 1,024. -/
def deepQueue : State := (serving 4 [queueSession]).wr (R.Q_CFG_DEPTH 5) 2000

/-- Refutes O55: PRIO and DEPTH share a word, and a word that leaves a field outside its range is discarded whole. -/
theorem not_objectAccessesAnswer : ¬ Obligations.ObjectAccessesAnswer := by
  rintro ⟨-, -, -, -, hprio, -⟩
  have h := hprio deepQueue (.can 0 5) queueSession 5 6 (by decide +kernel) (by decide +kernel) (by decide +kernel) (by decide +kernel)
    (by decide +kernel) (by decide +kernel) (by decide +kernel)
  have hset := passes_of_reaches (f := fun t => t.rd (R.Q_CFG_PRIO 5) == 6) h fun t ⟨hp, _⟩ => beq_iff_eq.2 hp
  exact absurd hset (by decide +kernel)

/-- SAFE HOLD with a UDP session open, and a DEPTH of queue 5 above 1,024. -/
def deepQueueUdp : State := (serving 3 [udpSession 0x12]).wr (R.Q_CFG_DEPTH 5) 2000

/-- A WRITE of PRIO of queue 5. -/
def prioWrite : Datagram := aDatagram 0x12 0x11 1 1 4 (anEntry 0x2A00 3 0x10005 6)

/-- Refutes O56: the WRITE of PRIO is discarded for the DEPTH that stands beside it. -/
theorem not_canAndUdpServicesAnswer : ¬ Obligations.CanAndUdpServicesAnswer := by
  rintro ⟨-, -, -, -, -, -, -, -, -, -, hwrite, -⟩
  have h := hwrite deepQueueUdp prioWrite (udpSession 0x12) 5 (by decide +kernel) (by decide +kernel) (by decide +kernel)
    (by decide +kernel) (by decide +kernel) (by decide +kernel) (by decide +kernel) (by decide +kernel) (by decide +kernel)
    (by decide +kernel) (by decide +kernel)
  have hset := passes_of_reaches (f := fun t => t.rd (R.Q_CFG_PRIO 5) == 6) h fun t ⟨hp, _⟩ =>
    beq_iff_eq.2 (hp.trans (by decide +kernel))
  exact absurd hset (by decide +kernel)

/-- A member of an accord whose session count shows a UDP session that is not there. -/
def miscountingMember : State := (memberIn 3).wr R.OD_UDP_SESSIONS 1

/-- A read of the product code, as the top lead routes it. -/
def routedRead : List Byte := anAcf 7 0 9 (pad8 (dgHead 0x12 0x10 4 1 2 (anEntry 0x1018 2 0 0)))

/-- Refutes O57: an ODREQ opens a routed session, and with it the session count is formed anew. -/
theorem not_routedObjectRequests : ¬ Obligations.RoutedObjectRequests := by
  rintro ⟨hserve, -⟩
  have h := hserve miscountingMember 0 routedRead 0 (by decide +kernel) (by decide +kernel) (by decide +kernel) (by decide +kernel)
    (by decide +kernel) (by decide +kernel) (by decide +kernel) (by decide +kernel) (by decide +kernel) (by decide +kernel)
    (by decide +kernel) (by decide +kernel) (by decide +kernel) (by decide +kernel) (by decide +kernel)
  have hregs := passes_of_reaches (f := fun t => decide (t.regs = miscountingMember.regs)) h fun t ⟨_, hr, _⟩ => by simp [hr]
  exact absurd hregs (by decide +kernel)

end Sys2Proof.Machine
end

section
/-! O54: the ranking of an arm, the images and the ageing monitors (R513 to R517). -/

namespace Sys2Proof.Machine

variable {s t : State} {g : Fld}

/-- A write changes no field of another word. -/
theorem State.rd_wr_far (s : State) {f : Fld} (v : Nat) (h : g.addr ≠ f.addr) : (s.wr f v).rd g = s.rd g := by
  rw [State.rd, State.word_wr_ne _ _ _ _ h, State.rd]

theorem State.on_wr_far (s : State) {f : Fld} (v : Nat) (h : g.addr ≠ f.addr) : (s.wr f v).on g = s.on g := by
  rw [State.on, State.rd_wr_far s v h, State.on]

/-- A field holds what was written into it where the value fits. -/
theorem State.rd_wr_fits (s : State) {f : Fld} {v : Nat} (hf : f.inWord = true) (hv : v < 2 ^ f.width) : (s.wr f v).rd f = v := by
  rw [State.rd_wr_same _ _ _ hf, Nat.mod_eq_of_lt hv]

/-! ### Ranking (R513) -/

/-- The handle at a rank of an arm, FFFFh past the last cell. -/
def State.rankHandle (s : State) (a r : Nat) : Nat := ((s.healthOrder a)[r]?.map fun k => s.kcx * 2 ^ 13 + k).getD 0xFFFF

/-- The kept DAYS at a rank of an arm, FFFFh past the last cell. -/
def State.rankDays (s : State) (a r : Nat) : Nat := ((s.healthOrder a)[r]?.map s.keptDays).getD 0xFFFF

/-- The word of rank `r` as the ranking of `s` gives it. -/
def State.rankWord (s : State) (a r : Nat) (x : State) : State :=
  (x.wr (R.HLT_RANK_HANDLE a r) (s.rankHandle a r)).wr (R.HLT_RANK_DAYS a r) (s.rankDays a r)

/-- The cells of an arm whose item 8 has a bit set. -/
def State.healthCount (s : State) (a b : Nat) : Nat := ((s.armCells a).filter fun k => bitOf (s.keptItem k 8) b).length

/-- The rank words and the counts of an arm, before its worst cell is shown. -/
def State.rankCounted (s : State) (a : Nat) : State :=
  ((s.forN 8 (s.rankWord a)).wr (R.HARM_ST_N_ALARM a) (s.healthCount a 7)).wr (R.HARM_ST_N_KNOWN a) (s.healthCount a 6)

theorem State.rankArm_eq (s : State) (a : Nat) : s.rankArm a =
    ((s.rankCounted a).wr (R.HARM_WORST_DAYS a) ((s.rankCounted a).rd (R.HLT_RANK_DAYS a 0))).wr (R.HARM_WORST_HANDLE a)
      ((s.rankCounted a).rd (R.HLT_RANK_HANDLE a 0)) := by
  have hloop : (fun r x => match (s.healthOrder a)[r]? with
      | some k => (x.wr (R.HLT_RANK_HANDLE a r) (s.kcx * 2 ^ 13 + k)).wr (R.HLT_RANK_DAYS a r) (s.keptDays k)
      | none => (x.wr (R.HLT_RANK_HANDLE a r) 0xFFFF).wr (R.HLT_RANK_DAYS a r) 0xFFFF) = s.rankWord a := by
    funext r x
    unfold State.rankWord State.rankHandle State.rankDays
    cases (s.healthOrder a)[r]? <;> rfl
  rw [State.rankCounted, ← hloop]
  rfl

theorem State.rankDays_le (s : State) (a r : Nat) : s.rankDays a r ≤ 0xFFFF := by
  unfold State.rankDays
  cases (s.healthOrder a)[r]? with
  | none => exact Nat.le_refl _
  | some k => exact Nat.min_le_left _ _

theorem State.rankHandle_lt {a : Nat} (h : ∀ k ∈ s.healthOrder a, s.kcx * 2 ^ 13 + k < 2 ^ 16) (r : Nat) : s.rankHandle a r < 2 ^ 16 := by
  unfold State.rankHandle
  cases hr : (s.healthOrder a)[r]? with
  | none => exact (by decide : 0xFFFF < 2 ^ 16)
  | some k => exact h k (List.mem_of_getElem? hr)

/-- The word of a rank after the loop over the ranks. -/
theorem State.rankWords_rd {a : Nat} (h : ∀ k ∈ s.healthOrder a, s.kcx * 2 ^ 13 + k < 2 ^ 16) {r : Nat} (hr : r < 8) (x : State) :
    (x.forN 8 (s.rankWord a)).rd (R.HLT_RANK_HANDLE a r) = s.rankHandle a r ∧
    (x.forN 8 (s.rankWord a)).rd (R.HLT_RANK_DAYS a r) = s.rankDays a r := by
  refine State.forN_turn (fun _ => True) (fun y => y.rd (R.HLT_RANK_HANDLE a r) = s.rankHandle a r ∧ y.rd (R.HLT_RANK_DAYS a r) = s.rankDays a r)
    hr (fun _ _ _ _ => trivial) (fun y _ => ⟨?_, ?_⟩) (fun j hj _ y hy => ?_) trivial
  · unfold State.rankWord
    rw [State.rd_wr_apart _ _ _ _ rfl (by simp [Fld.apart, R.HLT_RANK_HANDLE, R.HLT_RANK_DAYS]), State.rd_wr_fits _ rfl (State.rankHandle_lt h r)]
  · exact State.rd_wr_fits _ rfl (Nat.lt_succ_of_le (s.rankDays_le a r))
  · have hne : 0x40C00200 + 0x20 * a + 0x4 * r ≠ 0x40C00200 + 0x20 * a + 0x4 * j := by omega
    obtain ⟨hh, hd⟩ := hy
    unfold State.rankWord
    constructor
    · rw [State.rd_wr_far _ _ hne, State.rd_wr_far _ _ hne, hh]
    · rw [State.rd_wr_far _ _ hne, State.rd_wr_far _ _ hne, hd]

theorem State.rankWords_keep (s x : State) (a : Nat) (h : g.addr < 0x40C00200) : (x.forN 8 (s.rankWord a)).rd g = x.rd g := by
  refine State.forN_keeps (fun y => y.rd g = x.rd g) 8 _ (fun r _ y hy => ?_) x rfl
  have hne : g.addr ≠ 0x40C00200 + 0x20 * a + 0x4 * r := by omega
  unfold State.rankWord
  rw [State.rd_wr_far _ _ hne, State.rd_wr_far _ _ hne, hy]

/-- Outside the word of its worst cell the ranking of an arm is done with its counts. -/
theorem State.rankArm_rd_counted (s : State) (a : Nat) (h : g.addr ≠ 0x40C0010C + 0x20 * a) : (s.rankArm a).rd g = (s.rankCounted a).rd g := by
  rw [State.rankArm_eq, State.rd_wr_far _ _ h, State.rd_wr_far _ _ h]

theorem State.rankCounted_rd (s : State) (a : Nat) (h : g.addr ≠ 0x40C00108 + 0x20 * a) :
    (s.rankCounted a).rd g = (s.forN 8 (s.rankWord a)).rd g := by
  rw [State.rankCounted, State.rd_wr_far _ _ h, State.rd_wr_far _ _ h]

/-- The ranking of an arm leaves the configuration of the arms alone. -/
theorem State.rankArm_rd (s : State) (a : Nat) (h : g.addr < 0x40C00100) : (s.rankArm a).rd g = s.rd g := by
  rw [State.rankArm_rd_counted s a (by omega), State.rankCounted_rd s a (by omega), State.rankWords_keep s s a (by omega)]

theorem State.healthCount_lt {a : Nat} (hn : (s.armCells a).length < 2 ^ 10) (b : Nat) : s.healthCount a b < 2 ^ 11 := by
  have := List.length_filter_le (fun k => bitOf (s.keptItem k 8) b) (s.armCells a)
  unfold State.healthCount
  omega

/-- The rank words of an arm. -/
theorem State.rankArm_ranks {a : Nat} (ha : a < 6) (h : ∀ k ∈ s.healthOrder a, s.kcx * 2 ^ 13 + k < 2 ^ 16) {r : Nat} (hr : r < 8) :
    (s.rankArm a).rd (R.HLT_RANK_HANDLE a r) = s.rankHandle a r ∧ (s.rankArm a).rd (R.HLT_RANK_DAYS a r) = s.rankDays a r := by
  have h1 : 0x40C00200 + 0x20 * a + 0x4 * r ≠ 0x40C00108 + 0x20 * a := by omega
  have h2 : 0x40C00200 + 0x20 * a + 0x4 * r ≠ 0x40C0010C + 0x20 * a := by omega
  rw [State.rankArm_rd_counted s a h2, State.rankArm_rd_counted s a h2, State.rankCounted_rd s a h1, State.rankCounted_rd s a h1]
  exact State.rankWords_rd h hr s

/-- The counts of an arm. -/
theorem State.rankArm_counts {a : Nat} (hn : (s.armCells a).length < 2 ^ 10) :
    (s.rankArm a).rd (R.HARM_ST_N_ALARM a) = s.healthCount a 7 ∧ (s.rankArm a).rd (R.HARM_ST_N_KNOWN a) = s.healthCount a 6 := by
  have hne : 0x40C00108 + 0x20 * a ≠ 0x40C0010C + 0x20 * a := by omega
  rw [State.rankArm_rd_counted s a hne, State.rankArm_rd_counted s a hne, State.rankCounted,
    State.rd_wr_apart _ _ (R.HARM_ST_N_ALARM a) _ rfl (by simp [Fld.apart, R.HARM_ST_N_ALARM, R.HARM_ST_N_KNOWN]),
    State.rd_wr_fits _ rfl (State.healthCount_lt hn 7), State.rd_wr_fits _ rfl (State.healthCount_lt hn 6)]
  exact ⟨rfl, rfl⟩

/-- The worst cell of an arm is that of its first rank. -/
theorem State.rankArm_worst {a : Nat} (ha : a < 6) :
    (s.rankArm a).rd (R.HARM_WORST_HANDLE a) = (s.rankArm a).rd (R.HLT_RANK_HANDLE a 0) ∧
    (s.rankArm a).rd (R.HARM_WORST_DAYS a) = (s.rankArm a).rd (R.HLT_RANK_DAYS a 0) := by
  have h2 : 0x40C00200 + 0x20 * a + 0x4 * 0 ≠ 0x40C0010C + 0x20 * a := by omega
  rw [State.rankArm_rd_counted s a (g := R.HLT_RANK_HANDLE a 0) h2, State.rankArm_rd_counted s a (g := R.HLT_RANK_DAYS a 0) h2, State.rankArm_eq]
  constructor
  · exact State.rd_wr_fits _ rfl (State.rd_lt _ _)
  · rw [State.rd_wr_apart _ _ _ _ rfl (by simp [Fld.apart, R.HARM_WORST_HANDLE, R.HARM_WORST_DAYS])]
    exact State.rd_wr_fits _ rfl (State.rd_lt _ _)

/-- With one arm enabled the ranking is that of the arm. -/
theorem execHealthRank_one {a : Nat} (ha : a < 6) (hen : ∀ b, b < 6 → s.on (R.ARM_CFG_EN b) = decide (b = a)) :
    exec .healthRank s = .next (s.rankArm a) := by
  have h : s.forN 6 (fun b s => s.when (s.on (R.ARM_CFG_EN b)) fun s => s.rankArm b) = s.rankArm a := by
    refine (State.forN_turn (fun y => y = s) (fun y => y = s.rankArm a) ha (fun j hj y hy => ?_) (fun y hy => ?_) (fun j hj hj6 y hy => ?_) rfl)
    · rw [hy, hen j (by omega), decide_eq_false (by omega), State.when_false]
    · rw [hy, hen a ha, decide_eq_true rfl, State.when_true]
    · rw [hy, State.on, State.rankArm_rd s a (by show 0x40101000 + 0x100 * j < 0x40C00100; omega), ← State.on, hen j hj6,
        decide_eq_false (by omega), State.when_false]
  exact congrArg Host.Outcome.next h

/-! ### Images (R514) -/

theorem State.wr_port (s : State) (f : Fld) (v q : Nat) : (s.wr f v).port q = s.port q := rfl

theorem State.put_port (s : State) (f : Fld) (b : Bool) (q : Nat) : (s.put f b).port q = s.port q := rfl

theorem State.lateData_word (s : State) (p : Nat) (o : Own) (a : Nat) : (s.lateData p o).2.word a = s.word a := by
  unfold State.lateData
  split <;> rfl

theorem State.lateData_port (s : State) {p q : Nat} (o : Own) (h : q ≠ p) : (s.lateData p o).2.port q = s.port q := by
  unfold State.lateData
  split
  · exact State.port_setPort_ne _ _ _ _ h
  all_goals rfl

theorem State.sendTie_word (s : State) (ty arg : Nat) (body : List Byte) (a : Nat) : (s.sendTie ty arg body).word a = s.word a := by
  unfold State.sendTie
  split <;> rfl

theorem State.sendTie_port (s : State) (ty arg : Nat) (body : List Byte) (q : Nat) : (s.sendTie ty arg body).port q = s.port q := by
  unfold State.sendTie
  split <;> rfl

/-- A transaction that opens shows in MB_STATUS of its port alone. -/
theorem State.openTxn_word (s : State) {p a : Nat} (o : Own) (h : a ≠ 0x40201034 + 0x100 * p) : (s.openTxn p o).word a = s.word a := by
  unfold State.openTxn
  refine State.when_keeps (fun y => y.word a = s.word a) _ _ _ ?_ ((State.sendTie_word _ _ _ _ _).trans ?_) <;>
    rw [State.word_wr_ne _ _ _ _ h, State.word_wr_ne _ _ _ _ h, State.put, State.word_wr_ne _ _ _ _ h] <;>
    exact State.lateData_word s p o a

theorem State.openTxn_port (s : State) {p q : Nat} (o : Own) (h : q ≠ p) : (s.openTxn p o).port q = s.port q := by
  unfold State.openTxn
  refine State.when_keeps (fun y => y.port q = s.port q) _ _ _ ?_ ((State.sendTie_port _ _ _ _ _).trans ?_) <;>
    rw [State.wr_port, State.wr_port, State.put_port, State.onPort, State.port_setPort_ne _ _ _ _ h] <;>
    exact State.lateData_port s o h

/-- The start of the next transaction of a port shows in MB_STATUS of the port alone. -/
theorem State.nextOwn_word (s : State) {p a : Nat} (h : a ≠ 0x40201034 + 0x100 * p) : (s.nextOwn p).word a = s.word a := by
  unfold State.nextOwn
  split
  · rfl
  · split
    · exact State.openTxn_word _ _ h
    · split
      · exact State.word_wr_ne _ _ _ _ h
      · rfl

theorem State.nextOwn_port (s : State) {p q : Nat} (h : q ≠ p) : (s.nextOwn p).port q = s.port q := by
  unfold State.nextOwn
  split
  · rfl
  · split
    · exact (State.openTxn_port _ _ h).trans (State.port_setPort_ne _ _ _ _ h)
    · split
      · exact State.port_setPort_ne _ _ _ _ h
      · rfl

theorem State.ask_word (s : State) {p a : Nat} (os : List Own) (h : a ≠ 0x40201034 + 0x100 * p) : (s.ask p os).word a = s.word a :=
  State.nextOwn_word _ h

theorem State.ask_port (s : State) {p q : Nat} (os : List Own) (h : q ≠ p) : (s.ask p os).port q = s.port q :=
  (State.nextOwn_port _ h).trans (State.port_setPort_ne _ _ _ _ h)

/-- A transaction of a unit that controls its strands is open, ready to be sent and shown as BUSY. -/
theorem State.openTxn_opens (p : Nat) (o : Own) (hc : s.controls = true) (hl : o.late = 0) :
    ((s.openTxn p o).port p).txn.map (fun x => (x.req.op, x.req.addr, x.ready)) = some (o.req.op, o.req.addr, true) ∧
    ((s.openTxn p o).port p).own = (s.port p).own ∧ (s.openTxn p o).on (R.MB_STATUS_BUSY p) = true := by
  have hd : s.lateData p o = (o.req.data, s) := by
    rw [State.lateData, hl]
    rfl
  have hc' : ∀ f : Port → Port, ∀ b v w, ((((s.onPort p f).put (R.MB_STATUS_BUSY p) b).wr (R.MB_STATUS_SEQ p) v).wr (R.MB_STATUS_TRIES p) w).controls = true := by
    intro f b v w
    have hne : R.DEV_STATE_ROLE.addr ≠ 0x40201034 + 0x100 * p := by show 0x41100000 ≠ _; omega
    have hr : ((((s.onPort p f).put (R.MB_STATUS_BUSY p) b).wr (R.MB_STATUS_SEQ p) v).wr (R.MB_STATUS_TRIES p) w).role = s.role := by
      rw [State.role, State.rd_wr_far _ _ hne, State.rd_wr_far _ _ hne, State.put, State.rd_wr_far _ _ hne]
      rfl
    rw [State.controls, hr, ← State.controls, hc]
  simp only [State.openTxn, hd, hc', Bool.not_true, State.when_false]
  refine ⟨?_, ?_, ?_⟩
  · rw [State.wr_port, State.wr_port, State.put_port, State.port_onPort]
    rfl
  · rw [State.wr_port, State.wr_port, State.put_port, State.port_onPort]
  · rw [State.on, State.rd_wr_apart _ _ _ _ rfl (by simp [Fld.apart, R.MB_STATUS_BUSY, R.MB_STATUS_TRIES]),
      State.rd_wr_apart _ _ _ _ rfl (by simp [Fld.apart, R.MB_STATUS_BUSY, R.MB_STATUS_SEQ]), ← State.on, State.on_put_same _ _ _ rfl rfl]

/-- On a free port of a unit that controls its strands the first request asked for opens at once. -/
theorem State.ask_opens {p : Nat} (o : Own) (hc : s.controls = true) (hl : o.late = 0) (ho : (s.port p).own = []) (hx : (s.port p).txn = none) :
    ((s.ask p [o]).port p).txn.map (fun x => (x.req.op, x.req.addr, x.ready)) = some (o.req.op, o.req.addr, true) ∧
    ((s.ask p [o]).port p).own = [] ∧ (s.ask p [o]).on (R.MB_STATUS_BUSY p) = true := by
  have ha : s.asked [o] = [o] := by simp [State.asked, hc]
  have he : s.ask p [o] = ((s.onPort p fun x => { x with own := x.own ++ [o] }).onPort p fun x => { x with own := [] }).openTxn p o := by
    simp only [State.ask, ha, State.nextOwn, State.port_onPort, hx, ho, List.nil_append]
  obtain ⟨h1, h2, h3⟩ := State.openTxn_opens (s := (s.onPort p fun x => { x with own := x.own ++ [o] }).onPort p fun x => { x with own := [] }) p o hc hl
  rw [he]
  exact ⟨h1, by rw [h2]; simp, h3⟩

/-- What requests to the ports leave: every word but MB_STATUS of the ports. -/
def State.PortsAsked (s t : State) : Prop := (∀ a, (∀ q, q < 48 → a ≠ 0x40201034 + 0x100 * q) → t.word a = s.word a) ∧ t.mem = s.mem

theorem State.PortsAsked.rd (h : s.PortsAsked t) (hg : ∀ q, q < 48 → g.addr ≠ 0x40201034 + 0x100 * q) : t.rd g = s.rd g := by
  rw [State.rd, h.1 _ hg, State.rd]

theorem State.PortsAsked.on (h : s.PortsAsked t) (hg : ∀ q, q < 48 → g.addr ≠ 0x40201034 + 0x100 * q) : t.on g = s.on g := by
  rw [State.on, h.rd hg, State.on]

theorem State.PortsAsked.ask (h : s.PortsAsked t) {p : Nat} (hp : p < 48) (os : List Own) : s.PortsAsked (t.ask p os) :=
  ⟨fun a ha => (State.ask_word t os (ha p hp)).trans (h.1 a ha),
    ((keeps_ask (F := [.draws, .regs, .sent, .ports]) t p os (by decide) (.refl _ _)).1.2 .mem (by decide)).trans h.2⟩

theorem State.PortsAsked.controls (h : s.PortsAsked t) : t.controls = s.controls := by
  rw [State.controls, State.role, h.rd (fun q _ => by show 0x41100000 ≠ _; omega)]
  rfl

/-- The cells of a port with verdict OK stay those cells. -/
theorem State.PortsAsked.okCells (h : s.PortsAsked t) (p : Fin 48) : t.okCells p = s.okCells p := by
  have hx : ∀ i, t.rd (R.EXP_W3_VERDICT p i) = s.rd (R.EXP_W3_VERDICT p i) := fun i => h.rd (fun q _ => by show 0x4020800C + 0x1000 * p.val + 0x20 * i ≠ _; omega)
  have hm : ∀ e, t.on (R.MEMB_W2_EXPECT e) = s.on (R.MEMB_W2_EXPECT e) := fun e => h.on (fun q _ => by show 0x40240008 + 0x20 * e ≠ _; omega)
  have hv : ∀ e, t.rd (R.MEMB_W3_VERDICT e) = s.rd (R.MEMB_W3_VERDICT e) := fun e => h.rd (fun q _ => by show 0x4024000C + 0x20 * e ≠ _; omega)
  have hh : ∀ e, t.rd (R.MEMB_W6_HEAD e) = s.rd (R.MEMB_W6_HEAD e) := fun e => h.rd (fun q _ => by show 0x40240018 + 0x20 * e ≠ _; omega)
  have hw : ∀ e, t.rd (R.MEMB_W7_PATH e) = s.rd (R.MEMB_W7_PATH e) := fun e => h.rd (fun q _ => by show 0x4024001C + 0x20 * e ≠ _; omega)
  have hk : t.kcx = s.kcx := by
    rw [State.kcx, State.kcx, h.on (fun q _ => by show 0x40400000 ≠ _; omega), h.rd (fun q _ => by show 0x40404000 + 0x100 * 0 ≠ _; omega)]
  simp only [State.okCells, State.extAddr, State.handle, hk, hx, hm, hv, hh, hw]

/-- The request for the health word of a cell. -/
def freshRequest (c : Nat) : Own := Machine.own (.imageFresh c true) (imageReq 1 c 0x800C0 0)

theorem execHealthImageSave_available (hen : s.on R.HLT_CFG_IMG_EN = true) (ha : s.imageAvailable = true) :
    exec .healthImageSave s = .next (s.forN 48 fun p s => s.ask p ((s.okCells p).map freshRequest)) := by
  have h : exec .healthImageSave s = execHealthImageSave s := rfl
  rw [h, execHealthImageSave, hen, ha]
  rfl

/-- A free port with one cell has the read of that cell's health word open. -/
theorem imageSave_asks (p : Fin 48) {c : Nat} (hen : s.on R.HLT_CFG_IMG_EN = true) (ha : s.imageAvailable = true) (hc : s.controls = true)
    (hcells : s.okCells p = [c]) (ho : (s.port p).own = []) (hx : (s.port p).txn = none) :
    Reaches (exec .healthImageSave s) fun t => (t.port p).txn.map (fun x => (x.req.op, x.req.addr, x.ready)) = some (1, 0x800C0, true) ∧ (t.port p).own = [] ∧
      t.on (R.MB_STATUS_BUSY p) = true ∧ t.mem = s.mem := by
  rw [execHealthImageSave_available hen ha]
  have h := State.forN_turn (f := fun p s => s.ask p ((s.okCells p).map freshRequest)) (fun y => s.PortsAsked y ∧ y.port p = s.port p)
    (fun y => ((y.port p).txn.map (fun x => (x.req.op, x.req.addr, x.ready)) = some (1, 0x800C0, true) ∧ (y.port p).own = [] ∧
      y.on (R.MB_STATUS_BUSY p) = true) ∧ s.PortsAsked y) p.isLt
    (fun j hj y ⟨hy, hport⟩ => ⟨hy.ask (by omega) _, by rw [State.ask_port _ _ (by omega), hport]⟩)
    (fun y ⟨hy, hport⟩ => ?_) (fun j hj hj48 y ⟨⟨ht, hown, hbusy⟩, hy⟩ => ⟨?_, hy.ask hj48 _⟩) ⟨⟨fun _ _ => rfl, rfl⟩, rfl⟩ (s := s)
  · obtain ⟨⟨ht, hown, hbusy⟩, hy⟩ := h
    exact ⟨_, rfl, ht, hown, hbusy, hy.2⟩
  · rw [hy.okCells p, hcells]
    exact ⟨State.ask_opens (freshRequest c) (hy.controls.trans hc) rfl (hport ▸ ho) (hport ▸ hx), hy.ask p.isLt _⟩
  · rw [State.ask_port _ _ (by omega), State.on, State.rd, State.ask_word _ _ (by show 0x40201034 + 0x100 * p.val ≠ _; omega)]
    exact ⟨ht, hown, hbusy⟩

/-! ### Ageing monitors (R516, R517) -/

/-- The words of the monitors as a measurement leaves them. -/
def State.monitorWords (s : State) (ds : List Nat) : State := s.forN 16 fun m s => s.wr (R.HLT_MON_DELTA m) (deltaCode (ds.getD m 0))

/-- The days and the monitor that a measurement shows. -/
def State.monitorShown (s : State) : Option (Nat × Nat) → State
  | some (n, m) => (s.wr R.HLT_CHIP_DAYS n).wr R.HLT_CHIP_ST_WORST_MON m
  | none => (s.wr R.HLT_CHIP_DAYS 0xFFFFFFFF).wr R.HLT_CHIP_ST_WORST_MON 0

theorem State.monitorShown_eq (s : State) (b : Option (Nat × Nat)) :
    s.monitorShown b = (s.wr R.HLT_CHIP_DAYS ((b.map Prod.fst).getD 0xFFFFFFFF)).wr R.HLT_CHIP_ST_WORST_MON ((b.map Prod.snd).getD 0) := by
  cases b <;> rfl

/-- The alarm that follows the days shown. -/
def State.monitorAlarm (s : State) : State :=
  s.put R.HLT_CHIP_ST_ALARM (decide (s.rd R.HLT_CHIP_DAYS ≤ s.rd R.HLT_CHIP_ST_CHIP_ALM_DAYS))

/-- The days of each monitor that has some, in the order of the monitors. -/
def State.monitorList (s : State) (ds : List Nat) : List (Nat × Nat) :=
  ds.zipIdx.filterMap fun x => (s.monitorDays x.1).map fun n => (n, x.2)

/-- The entry with the fewest days, the first of equals. -/
def fewestDays (l : List (Nat × Nat)) : Option (Nat × Nat) :=
  l.foldl (fun b x => match b with
    | none => some x
    | some y => if x.1 < y.1 then some x else b) none

theorem State.ageingMeasure_eq (s : State) {ratios : List Nat} (h : ratios.isEmpty = false) :
    s.ageingMeasure ratios =
      ((s.monitorWords ((upto 16).map fun m => fSub f1 (ratios.getD m f1))).monitorShown
        (fewestDays ((s.monitorWords ((upto 16).map fun m => fSub f1 (ratios.getD m f1))).monitorList
          ((upto 16).map fun m => fSub f1 (ratios.getD m f1))))).monitorAlarm := by
  unfold State.ageingMeasure
  rw [h]
  rfl

theorem State.monitorWords_rd (s : State) (ds : List Nat) (h : ∀ m, m < 16 → g.addr ≠ 0x40C00040 + 0x4 * m) : (s.monitorWords ds).rd g = s.rd g := by
  refine State.forN_keeps (fun y => y.rd g = s.rd g) 16 _ (fun m hm y hy => ?_) s rfl
  rw [State.rd_wr_far _ _ (h m hm), hy]

/-- The word of a monitor holds its own code. -/
theorem State.monitorWords_delta (s : State) (ds : List Nat) {m : Nat} (hm : m < 16) :
    (s.monitorWords ds).rd (R.HLT_MON_DELTA m) = deltaCode (ds.getD m 0) % 2 ^ 16 := by
  refine State.forN_turn (fun _ => True) (fun y => y.rd (R.HLT_MON_DELTA m) = deltaCode (ds.getD m 0) % 2 ^ 16) hm
    (fun _ _ _ _ => trivial) (fun y _ => State.rd_wr_same _ _ _ rfl) (fun j hj _ y hy => ?_) trivial
  rw [State.rd_wr_far _ _ (by show 0x40C00040 + 0x4 * m ≠ 0x40C00040 + 0x4 * j; omega), hy]

/-- What a measurement shows, from the days it finds. -/
theorem State.monitorAlarm_shows (s : State) (b : Option (Nat × Nat)) (hd : (b.map Prod.fst).getD 0xFFFFFFFF < 2 ^ 32) (hm : (b.map Prod.snd).getD 0 < 2 ^ 4) :
    (s.monitorShown b).monitorAlarm.rd R.HLT_CHIP_DAYS = (b.map Prod.fst).getD 0xFFFFFFFF ∧
    (s.monitorShown b).monitorAlarm.rd R.HLT_CHIP_ST_WORST_MON = (b.map Prod.snd).getD 0 ∧
    (s.monitorShown b).monitorAlarm.on R.HLT_CHIP_ST_ALARM = decide ((b.map Prod.fst).getD 0xFFFFFFFF ≤ s.rd R.HLT_CHIP_ST_CHIP_ALM_DAYS) := by
  have h : (s.monitorShown b).rd R.HLT_CHIP_DAYS = (b.map Prod.fst).getD 0xFFFFFFFF := by
    rw [State.monitorShown_eq, State.rd_wr_apart _ _ _ _ rfl (by decide), State.rd_wr_fits _ rfl hd]
  refine ⟨?_, ?_, ?_⟩
  · rw [State.monitorAlarm, State.rd_put_apart _ _ _ _ rfl (by decide), h]
  · rw [State.monitorAlarm, State.rd_put_apart _ _ _ _ rfl (by decide), State.monitorShown_eq, State.rd_wr_fits _ rfl hm]
  · rw [State.monitorAlarm, State.on_put_same _ _ _ rfl rfl, h, State.monitorShown_eq, State.rd_wr_apart _ _ _ _ rfl (by decide),
      State.rd_wr_apart _ _ _ _ rfl (by decide)]

theorem State.monitorAlarm_delta (s : State) (b : Option (Nat × Nat)) {m : Nat} (hm : m < 16) :
    (s.monitorShown b).monitorAlarm.rd (R.HLT_MON_DELTA m) = s.rd (R.HLT_MON_DELTA m) := by
  rw [State.monitorAlarm, State.put, State.rd_wr_far _ _ (by show 0x40C00040 + 0x4 * m ≠ 0x40C00024; omega), State.monitorShown_eq,
    State.rd_wr_far _ _ (by show 0x40C00040 + 0x4 * m ≠ 0x40C00024; omega), State.rd_wr_far _ _ (by show 0x40C00040 + 0x4 * m ≠ 0x40C00020; omega)]

/-- A monitor without degradation gives no days. -/
theorem State.monitorDays_none (s : State) : s.monitorDays 0 = none := by
  rw [State.monitorDays, if_pos (.inl (by decide))]

/-- A monitor at or above the limit has no days left. -/
theorem State.monitorDays_over (h : s.rd R.AGE_H ≠ 0) {d : Nat} (hd : fLt f0 d = true) (hl : fLe (s.rd R.MON_DLIM_DLIM) d = true) : s.monitorDays d = some 0 := by
  rw [State.monitorDays, if_neg (by simp [hd, h]), if_pos hl]

/-- The days of a measurement whose monitors beyond the first show no degradation. -/
theorem State.monitorList_first (s : State) (d : Nat) :
    s.monitorList (d :: List.replicate 15 0) = ((s.monitorDays d).map fun n => (n, 0)).toList := by
  have h : ∀ n k, (List.zipIdx (List.replicate n 0) k).filterMap (fun x => (s.monitorDays x.1).map fun n => (n, x.2)) = [] := by
    intro n
    induction n with
    | zero => exact fun _ => rfl
    | succ n ih =>
      intro k
      rw [List.replicate_succ, List.zipIdx_cons, List.filterMap_cons, State.monitorDays_none]
      exact ih (k + 1)
  rw [State.monitorList, List.zipIdx_cons, List.filterMap_cons, h]
  cases s.monitorDays d <;> rfl

/-- A monitor whose ratio is 1 has not changed. -/
theorem fSub_one_one : fSub f1 0x3F800000 = 0 := by decide

theorem monitorChanges_cons (x : Nat) :
    ((upto 16).map fun m => fSub f1 ((x :: List.replicate 15 0x3F800000).getD m f1)) = fSub f1 x :: List.replicate 15 0 := by
  rw [← fSub_one_one]
  rfl

/-- A measurement of which only the first monitor differs from 1. -/
theorem exec_ageingMeasure_first (s : State) (x : BitVec 32) :
    exec (.ageingMeasure (x :: List.replicate 15 0x3F800000)) s =
      .next ((s.monitorWords (fSub f1 x.toNat :: List.replicate 15 0)).monitorShown
        (fewestDays (((s.monitorWords (fSub f1 x.toNat :: List.replicate 15 0)).monitorDays (fSub f1 x.toNat)).map fun n => (n, 0)).toList)).monitorAlarm := by
  have h : exec (.ageingMeasure (x :: List.replicate 15 0x3F800000)) s = .next (s.ageingMeasure (x.toNat :: List.replicate 15 0x3F800000)) := rfl
  rw [h, State.ageingMeasure_eq s rfl, monitorChanges_cons, State.monitorList_first]

/-- Settles O54: the ranking writes each rank once, a free port asks for its cell's health word, and a measurement shows the fewest days. -/
theorem healthRanksImagesAndAgeing : Obligations.HealthRanksImagesAndAgeing := by
  refine ⟨fun s a hen hh hn => ?_, fun s h => ?_, fun s h ha => ?_, fun s p hen ha hr hc ho hx => ?_, fun s _ => ?_, fun s x hage hlt hle => ?_, fun s _ => rfl, fun s h1 h2 => ?_⟩
  · obtain ⟨hal, hkn⟩ := State.rankArm_counts (a := a.val) hn
    exact ⟨_, execHealthRank_one a.isLt hen, fun r hr => State.rankArm_ranks a.isLt hh hr, hal, hkn, State.rankArm_worst a.isLt⟩
  · have he : exec .healthImageSave s = execHealthImageSave s := rfl
    rw [he, execHealthImageSave, h]
    rfl
  · have he : exec .healthImageSave s = execHealthImageSave s := rfl
    rw [he, execHealthImageSave, h, ha]
    exact congrArg Host.Outcome.next (by rw [State.imageError, h]; rfl)
  · exact imageSave_asks p hen ha (by rw [State.controls, hr]; rfl) hc ho hx
  · obtain ⟨hdays, hworst, halarm⟩ := (s.monitorWords (List.replicate 16 0)).monitorAlarm_shows none (by decide) (by decide)
    have he := exec_ageingMeasure_first s 0x3F800000
    have h0 : fSub f1 (0x3F800000 : BitVec 32).toNat = 0 := fSub_one_one
    rw [h0, State.monitorDays_none] at he
    refine ⟨_, he, hdays, halarm.trans (decide_eq_false ?_), fun m hm => ?_⟩
    · have := State.rd_lt (s.monitorWords (List.replicate 16 0)) R.HLT_CHIP_ST_CHIP_ALM_DAYS
      exact Nat.not_le.mpr (Nat.lt_trans this (by decide))
    · refine (State.monitorAlarm_delta _ none hm).trans ((s.monitorWords_delta (List.replicate 16 0) hm).trans ?_)
      rw [List.getD_replicate _ hm]
      decide
  · have hd := State.monitorDays_over (s := s.monitorWords (fSub f1 x.toNat :: List.replicate 15 0)) (d := fSub f1 x.toNat)
      (by rw [State.monitorWords_rd _ _ (fun m hm => by show 0x40C0001C ≠ _; omega)]; exact hage) hlt
      (by rw [State.monitorWords_rd _ _ (fun m hm => by show 0x40C00014 ≠ _; omega)]; exact hle)
    obtain ⟨hdays, hworst, halarm⟩ := (s.monitorWords (fSub f1 x.toNat :: List.replicate 15 0)).monitorAlarm_shows (some (0, 0)) (by decide) (by decide)
    have he := exec_ageingMeasure_first s x
    rw [hd] at he
    exact ⟨_, he, hdays, hworst, halarm.trans (decide_eq_true (Nat.zero_le _))⟩
  · have he : exec .ageHour s = .next (s.when (s.st != St.reset && s.st != St.selfTest) fun s => s.inc R.AGE_H) := rfl
    rw [he, bne_iff_ne.mpr h1, bne_iff_ne.mpr h2]
    rfl

end Sys2Proof.Machine
end

section
/-! O15 and O18: register writes that reach the control engine of a SOLO unit (R77, R81 to R87), set-points, drops and
returns (R95 to R97, R111 to R115). -/

namespace Sys2Proof.Machine

variable {s : State} {a v w : Nat}

/-! ### A write in a SOLO unit -/

theorem State.isPartner_solo (h : s.role = Role.solo) : s.isPartner = false := by
  rw [State.isPartner, h]
  rfl

theorem State.mirror_solo (h : s.role = Role.solo) (a v : Nat) : s.mirror a v = s := by
  rw [State.mirror, if_pos (by rw [h]; decide)]

theorem State.runs_iff (s : State) : s.inputsRun = true ↔ ¬(s.st = St.reset ∨ s.st = St.selfTest) := by
  simp [State.inputsRun, not_or]

theorem State.inputsRun_of_writable (h : s.writable = true) : s.inputsRun = true := by
  simp only [State.writable, Bool.or_eq_true, beq_iff_eq] at h
  rw [State.runs_iff]
  rcases h with h | h <;> rw [h] <;> decide

theorem State.inputsRun_of_inService (h : s.inService = true) : s.inputsRun = true := by
  simp only [State.inService, Bool.or_eq_true, beq_iff_eq] at h
  rw [State.runs_iff]
  rcases h with (h | h) | h <;> rw [h] <;> decide

/-- A change of other words leaves the role. -/
theorem State.role_setWord (s : State) (v : Nat) (h : a ≠ 0x41100000) : (s.setWord a v).role = s.role :=
  State.rd_setWord_ne s a v (g := R.DEV_STATE_ROLE) (Ne.symm h)

theorem State.role_wr (s : State) (v : Nat) {f : Fld} (h : f.addr ≠ 0x41100000) : (s.wr f v).role = s.role :=
  State.rd_wr_far s v (g := R.DEV_STATE_ROLE) (Ne.symm h)

theorem State.wouldStand_iff : s.wouldStand a v = some w ↔ ∃ r, kcRow a = some r ∧ r.write (s.word a) v s.writable false = .ok w := by
  unfold State.wouldStand
  cases kcRow a with
  | none => simp
  | some r =>
    cases h : r.write (s.word a) v s.writable false with
    | error e => simp [h, Except.toOption]
    | ok x => simp [h, Except.toOption]

/-- A word of write-only fields without a range takes every write. -/
theorem State.wouldStand_of_row {r : RegRow} (hk : kcRow a = some r) (hw : r.fields.all (fun f => f.acc == .wo && f.legal == .any) = true) (s : State) (v : Nat) :
    ∃ w, s.wouldStand a v = some w := by
  have hf : ∀ f ∈ r.fields, f.acc = .wo ∧ f.legal = .any := fun f h => by simpa using List.all_eq_true.mp hw f h
  refine ⟨r.fields.foldl (fun w f => setBits w f.lo f.width (f.after (s.word a) v)) (s.word a), State.wouldStand_iff.mpr ⟨r, hk, ?_⟩⟩
  unfold RegRow.write
  rw [if_neg, if_neg, if_neg]
  all_goals
    rw [List.any_eq_true]
    rintro ⟨f, h, hb⟩
    obtain ⟨hacc, hleg⟩ := hf f h
    simp [hacc, hleg, Legal.ok] at hb

/-- In RESET and SELF-TEST a write is discarded. -/
theorem State.regWrite_stopped (hrun : ¬s.inputsRun = true) (m a v : Nat) : (s.regWrite m a v).1 = s := by
  rw [State.regWrite, if_pos (not_not.mp (mt (State.runs_iff s).mpr hrun))]

/-- A write of a SOLO unit that the row of the register takes is carried out by its block. -/
theorem State.regWrite_block (hr : s.role = Role.solo) (hrun : s.inputsRun = true) (hn : ¬(0x40080000 ≤ a ∧ a < 0x40082000)) (hc : a / 0x100000 ≠ 0x410)
    (hp : a ≠ R.CELL_HP_HP.addr) (hw : s.wouldStand a v = some w) {m : Nat} {t : State} (hx : (s.applyWrite m a w v s.accepting).1 = t)
    (ht : t.role = Role.solo) : (s.regWrite m a v).1 = t := by
  obtain ⟨r, hk, hok⟩ := State.wouldStand_iff.mp hw
  unfold State.regWrite
  rw [if_neg ((State.runs_iff s).mp hrun), if_neg hn, hk]
  simp only [State.isPartner_solo hr, Bool.false_and, hok]
  rw [if_neg hc, if_neg (by decide), if_neg hp]
  simp only [hx, State.mirror_solo ht, ite_self]

/-- A write to the control engine of a SOLO unit that the row of the register takes is carried out by the engine. -/
theorem State.regWrite_ctl (hr : s.role = Role.solo) (hrun : s.inputsRun = true) (ha : a / 0x100000 = 0x400) (hn : ¬(0x40080000 ≤ a ∧ a < 0x40082000))
    (hw : s.wouldStand a v = some w) (ht : (s.ctlWrite a w v).1.role = Role.solo) (m : Nat) : (s.regWrite m a v).1 = (s.ctlWrite a w v).1 := by
  have hx : s.applyWrite m a w v s.accepting = s.ctlWrite a w v := by
    unfold State.applyWrite
    rw [ha]
    rfl
  exact State.regWrite_block hr hrun hn (by rw [ha]; decide) (by intro h; rw [h] at ha; exact absurd ha (by decide)) hw (congrArg Prod.fst hx) ht

/-- A write to the control engine that leaves a field outside its range is reported with code 1. -/
theorem State.regWrite_ctl_range {r : RegRow} (hr : s.role = Role.solo) (hrun : s.inputsRun = true) (ha : a / 0x100000 = 0x400)
    (hn : ¬(0x40080000 ≤ a ∧ a < 0x40082000)) (hk : kcRow a = some r) (hw : r.write (s.word a) v s.writable false = .error .range) (m : Nat) :
    (s.regWrite m a v).1 = s.ctlCheck a 1 := by
  unfold State.regWrite
  rw [if_neg ((State.runs_iff s).mp hrun), if_neg hn, hk]
  simp only [State.isPartner_solo hr, Bool.false_and, hw]
  rw [if_neg (by rw [ha]; decide), if_neg (by decide), if_neg (by intro h; rw [h] at ha; exact absurd ha (by decide)), State.fieldRefused, if_pos ha]

/-- A write-only word of the engine is carried out by the engine. -/
theorem State.regWrite_command {r : RegRow} (hr : s.role = Role.solo) (hrun : s.inputsRun = true) (ha : a / 0x100000 = 0x400)
    (hn : ¬(0x40080000 ≤ a ∧ a < 0x40082000)) (hk : kcRow a = some r) (hw : r.fields.all (fun f => f.acc == .wo && f.legal == .any) = true)
    {t : State} (he : ∀ w, (s.ctlWrite a w v).1 = t) (ht : t.role = Role.solo) (m : Nat) : (s.regWrite m a v).1 = t := by
  obtain ⟨w, h⟩ := State.wouldStand_of_row hk hw s v
  rw [State.regWrite_ctl hr hrun ha hn h (by rw [he]; exact ht), he]

/-! ### Commands of the engine's registers -/

theorem kcRow_ctlClear : kcRow 0x4000001C = some ⟨0x4000001c, 1, 0x4, 1, 0x4, [⟨0, 1, .wo, 0, .any⟩, ⟨1, 1, .wo, 0, .any⟩, ⟨2, 1, .wo, 0, .any⟩, ⟨3, 1, .wo, 0, .any⟩]⟩ := rfl

theorem kcRow_swapCmd : kcRow 0x40000020 = some ⟨0x40000020, 1, 0x4, 1, 0x4, [⟨0, 1, .wo, 0, .any⟩, ⟨1, 1, .wo, 0, .any⟩, ⟨2, 1, .wo, 0, .any⟩]⟩ := rfl

theorem kcRow_ctlInject : kcRow 0x4000002C = some ⟨0x4000002c, 1, 0x4, 1, 0x4, [⟨0, 8, .wo, 0, .any⟩, ⟨8, 1, .wo, 0, .any⟩]⟩ := rfl

theorem kcRow_coastCmd (i : Fin 256) : kcRow (0x400D0004 + 0x20 * i.val) = some ⟨0x400d0004, 256, 0x20, 1, 0x4, [⟨0, 16, .wo, 0, .any⟩, ⟨16, 16, .wo, 0, .any⟩]⟩ := by
  revert i
  decide +kernel

theorem kcRow_spValue (c : Fin 256) : kcRow (0x400A0018 + 0x40 * c.val) = some ⟨0x400a0018, 256, 0x40, 1, 0x4, [⟨0, 32, .rw, 0, .f32 .finite⟩]⟩ := by
  revert c
  decide +kernel

theorem State.write_clear (hr : s.role = Role.solo) (hrun : s.inputsRun = true) (ht : (s.ctlClear v).role = Role.solo) :
    s.write R.CTL_CLEAR_PEAK v = .next (s.ctlClear v) :=
  congrArg Host.Outcome.next (State.regWrite_command hr hrun (by decide) (by decide) kcRow_ctlClear (by decide) (fun _ => rfl) ht 0)

theorem State.write_swap (hr : s.role = Role.solo) (hrun : s.inputsRun = true) (hv : bitOf v 0 = true) (ht : (s.swapGo (bitOf v 1) (bitOf v 2)).role = Role.solo) :
    s.write R.SWAP_CMD_GO v = .next (s.swapGo (bitOf v 1) (bitOf v 2)) := by
  refine congrArg Host.Outcome.next (State.regWrite_command hr hrun (by decide) (by decide) kcRow_swapCmd (by decide) (fun w => ?_) ht 0)
  unfold State.ctlWrite
  rw [if_neg (by decide), if_pos rfl, hv]
  rfl

theorem State.write_inject (hr : s.role = Role.solo) (hrun : s.inputsRun = true) (i : Fin 256) (ht : (s.injectOverrun i).role = Role.solo) :
    s.write R.CTL_INJECT_CTX (i.val + 256) = .next (s.injectOverrun i) := by
  have h8 : bitOf (i.val + 256) 8 = true := by
    have := i.isLt
    simp only [bitOf, beq_iff_eq]
    omega
  have hi : bitsOf (i.val + 256) 0 8 = i.val := by
    have := i.isLt
    simp only [bitsOf]
    omega
  refine congrArg Host.Outcome.next (State.regWrite_command hr hrun (by decide) (by decide) kcRow_ctlInject (by decide) (fun w => ?_) ht 0)
  unfold State.ctlWrite
  rw [if_neg (by decide), if_neg (by decide), if_pos rfl, h8, hi]
  rfl

theorem State.write_coast (hr : s.role = Role.solo) (hrun : s.inputsRun = true) (i : Fin 256) :
    s.write (R.COAST_CMD_DROP i) v = .next (s.coastCmd i (bitsOf v 0 16) (bitsOf v 16 16)) := by
  have hi := i.isLt
  have ha : 0x400D0004 + 0x20 * i.val - 0x400D0000 = 4 + 0x20 * i.val := by omega
  have hq : (4 + 0x20 * i.val) / 0x20 = i.val := by omega
  have ht : (s.coastCmd i (bitsOf v 0 16) (bitsOf v 16 16)).role = Role.solo := hr
  refine congrArg Host.Outcome.next (State.regWrite_command (a := 0x400D0004 + 0x20 * i.val) hr hrun (by omega) (by omega) (kcRow_coastCmd i) (by decide) (fun w => ?_) ht 0)
  unfold State.ctlWrite
  rw [if_neg (by show _ ≠ 0x4000001C; omega), if_neg (by show _ ≠ 0x40000020; omega), if_neg (by show _ ≠ 0x4000002C; omega), if_neg (by omega),
    if_neg (by omega), if_neg (by omega), if_neg (by omega), if_pos (by omega), ha, hq]

/-! ### Set-points -/

/-- A word of one finite number takes a finite number as it is. -/
theorem State.wouldStand_spValue (c : Fin 256) (v : BitVec 32) (hf : f32Finite v.toNat = true) : s.wouldStand (0x400A0018 + 0x40 * c.val) v.toNat = some v.toNat := by
  have hv := v.isLt
  refine State.wouldStand_iff.mpr ⟨_, kcRow_spValue c, ?_⟩
  have hb : bitsOf v.toNat 0 32 = v.toNat := by
    simp only [bitsOf]
    omega
  have hw := s.word_lt (0x400A0018 + 0x40 * c.val)
  have hs : setBits (s.word (0x400A0018 + 0x40 * c.val)) 0 32 v.toNat = v.toNat := by
    rw [setBits_eq]
    omega
  simp [RegRow.write, FieldRow.after, FieldRow.judged, Legal.ok, F32Legal.ok, hb, hf, hs]

/-- A word of one finite number refuses what is not finite. -/
theorem spValue_refused (old : Nat) (v : BitVec 32) (hf : f32Finite v.toNat = false) (lockOpen island : Bool) :
    (⟨0x400a0018, 256, 0x40, 1, 0x4, [⟨0, 32, .rw, 0, .f32 .finite⟩]⟩ : RegRow).write old v.toNat lockOpen island = .error .range := by
  have hv := v.isLt
  have hb : bitsOf v.toNat 0 32 = v.toNat := by
    simp only [bitsOf]
    omega
  simp [RegRow.write, FieldRow.after, FieldRow.judged, Legal.ok, F32Legal.ok, hb, hf]

/-- A finite set-point that passes the checks of its channel is stored and counts as fresh. -/
theorem State.write_spValue (c : Fin 256) (v : BitVec 32) (hr : s.role = Role.solo) (hrun : s.inputsRun = true) (hf : f32Finite v.toNat = true)
    (hc : checkPoint (s.setWord (R.SP_VALUE_VALUE c).addr v.toNat).rd c = true) (hnew : s.ctl.spNew.contains c.val = false) :
    s.write (R.SP_VALUE_VALUE c) v.toNat = .next { s.setWord (R.SP_VALUE_VALUE c).addr v.toNat with ctl := { s.ctl with spNew := s.ctl.spNew ++ [c.val] } } := by
  have hlt := c.isLt
  have ha : 0x400A0018 + 0x40 * c.val - 0x400A0000 = 0x18 + 0x40 * c.val := by omega
  have hq : (0x18 + 0x40 * c.val) / 0x40 = c.val := by omega
  have hm : (0x400A0018 + 0x40 * c.val) % 0x40 = 0x18 := by omega
  have hx : (s.ctlWrite (0x400A0018 + 0x40 * c.val) v.toNat v.toNat).1 =
      { s.setWord (R.SP_VALUE_VALUE c).addr v.toNat with ctl := { s.ctl with spNew := s.ctl.spNew ++ [c.val] } } := by
    unfold State.ctlWrite
    rw [if_neg (by show _ ≠ 0x4000001C; omega), if_neg (by show _ ≠ 0x40000020; omega), if_neg (by show _ ≠ 0x4000002C; omega), if_neg (by omega),
      if_neg (by omega), if_pos (by omega), ha, hq, hm]
    dsimp only
    have hc' : checkPoint (s.setWord (0x400A0018 + 0x40 * c.val) v.toNat).rd c = true := hc
    rw [if_pos hc', if_pos rfl, if_pos rfl]
    simp only [State.setWord_ctl, hnew]
    rfl
  refine congrArg Host.Outcome.next ((State.regWrite_ctl hr hrun (by show (0x400A0018 + 0x40 * c.val) / _ = _; omega)
    (by show ¬(_ ≤ 0x400A0018 + 0x40 * c.val ∧ _); omega) (State.wouldStand_spValue c v hf) ?_ 0).trans hx)
  rw [hx]
  exact (s.role_setWord v.toNat (by show 0x400A0018 + 0x40 * c.val ≠ _; omega)).trans hr

/-- A set-point that is not finite leaves only the report. -/
theorem State.write_spValue_refused (c : Fin 256) (v : BitVec 32) (hr : s.role = Role.solo) (hrun : s.inputsRun = true) (hf : f32Finite v.toNat = false) :
    s.write (R.SP_VALUE_VALUE c) v.toNat = .next ((s.put R.CTL_STATUS_CHECK_ERR true).wr R.CTL_STATUS_CHECK_CODE 1) := by
  have hlt := c.isLt
  have hc : ctlContext (0x400A0018 + 0x40 * c.val) = none := by
    unfold ctlContext
    rw [if_neg (by omega), if_neg (by omega), if_neg (by omega), if_neg (by omega), if_neg (by omega)]
  have hx : s.ctlCheck (0x400A0018 + 0x40 * c.val) 1 = (s.put R.CTL_STATUS_CHECK_ERR true).wr R.CTL_STATUS_CHECK_CODE 1 := by
    rw [State.ctlCheck, hc]
  refine congrArg Host.Outcome.next ((State.regWrite_ctl_range hr hrun (by show (0x400A0018 + 0x40 * c.val) / _ = _; omega)
    (by show ¬(_ ≤ 0x400A0018 + 0x40 * c.val ∧ _); omega) (kcRow_spValue c) (spValue_refused _ v hf _ _) 0).trans hx)

/-! ### Detections -/

/-- A detection of a measurement that is neither dropped nor found marks it. -/
theorem State.fire_marks {i j cause : Nat} (hd : s.dropped i j = false) (hf : (s.ctxAt i).found = []) :
    s.fire i j cause = s.onCtx i fun x => { x with found := [(j, cause)] } := by
  have hany : (s.ctxAt i).found.any (fun e => e.1 == j) = false := by rw [hf]; rfl
  have hx : mapGet ctxDefault s.ctl.ctx i = s.ctxAt i := rfl
  rw [State.fire, hd, hany, if_neg (by decide), State.onCtx, State.onCtx, mapUpd, mapUpd, hx, hf]
  rfl

/-- Settles O18: each write and each detection is the branch of its rule that the hypotheses leave. -/
theorem setpointsDropsAndReturns : Obligations.SetpointsDropsAndReturns := by
  refine ⟨fun s c v hr hrun hf hc hnew => State.write_spValue c v hr hrun hf hc hnew, fun s c v hr hrun hf => State.write_spValue_refused c v hr hrun hf,
    fun s c hs hl ht hle => ?_, fun s i j hs hen hle hd hf => ?_, fun s i j hs hen hle hd hf => ?_, fun s i j hs hen hle hd hf => ?_,
    fun s i j hs hd hc hen hle => ?_, fun s i mask hr hrun => ?_, fun s i mask hr hrun => ?_, fun s i hs hc hl hle => ?_⟩
  · have he : exec (.setpointLost c) s = execSetpointLost c s := rfl
    have hx : s.spExpired c = true := by rw [State.spExpired, bne_iff_ne.mpr ht, decide_eq_true hle]; rfl
    rw [he, execSetpointLost, hs, hx, Bool.and_self, State.when_true, State.spLose, hl]
    rfl
  · have he : exec (.feedbackTimeoutDrop i j) s = execFeedbackTimeoutDrop i j s := rfl
    have hx : s.timeoutFires i j = true := by rw [State.timeoutFires, hen, decide_eq_true hle]; rfl
    rw [he, execFeedbackTimeoutDrop, hs, hx, Bool.and_self, State.when_true, State.fire_marks hd hf]
  · have he : exec (.frozenDrop i j) s = execFrozenDrop i j s := rfl
    have hx : s.frozenFires i j = true := by rw [State.frozenFires, hen, decide_eq_true hle]; rfl
    rw [he, execFrozenDrop, hs, hx, Bool.and_self, State.when_true, State.fire_marks hd hf]
  · have he : exec (.gateDrop i j) s = execGateDrop i j s := rfl
    have hx : s.gateFires i j = true := by rw [State.gateFires, hen, decide_eq_true hle]; rfl
    rw [he, execGateDrop, hs, hx, Bool.and_self, State.when_true, State.fire_marks hd hf]
  · have he : exec (.autoReadmit i j) s = execAutoReadmit i j s := rfl
    have hx : s.autoReturns i j = true := by rw [State.autoReturns, hd, bne_iff_ne.mpr hc, hen, decide_eq_true hle]; rfl
    rw [he, execAutoReadmit, hs, hx, Bool.and_self, State.when_true, State.markReturn]
  · have he : exec (.coastDrop i mask) s = s.write (R.COAST_CMD_DROP i) mask.toNat := rfl
    have h0 : bitsOf mask.toNat 0 16 = mask.toNat := by have := mask.isLt; simp only [bitsOf]; omega
    have h1 : bitsOf mask.toNat 16 16 = 0 := by have := mask.isLt; simp only [bitsOf]; omega
    rw [he, State.write_coast hr hrun, h0, h1]
    simp only [State.coastCmd, Nat.or_zero]
  · have he : exec (.coastReadmit i mask) s = s.write (R.COAST_CMD_DROP i) (65536 * mask.toNat) := rfl
    have h0 : bitsOf (65536 * mask.toNat) 0 16 = 0 := by simp only [bitsOf]; omega
    have h1 : bitsOf (65536 * mask.toNat) 16 16 = mask.toNat := by have := mask.isLt; simp only [bitsOf]; omega
    rw [he, State.write_coast hr hrun, h0, h1]
    simp only [State.coastCmd, Nat.or_zero]
  · have he : exec (.coastLimit i) s = execCoastLimit i s := rfl
    rw [he, execCoastLimit, hs, State.when_true, State.coastExpire, hc, hl, decide_eq_true hle]
    rfl

/-! ### Descriptors (R77) -/

theorem exec_descriptorWrite {a : Nat} (v : BitVec 32) (hlt : a < 2 ^ 32) (hc : (ctlContext a).isSome = true) :
    exec (.descriptorWrite (BitVec.ofNat 32 a) v) s = .next (s.regWrite 0 a v.toNat).1 := by
  have he : exec (.descriptorWrite (BitVec.ofNat 32 a) v) s = execDescriptorWrite (BitVec.ofNat 32 a) v s := rfl
  rw [he, execDescriptorWrite, BitVec.toNat_ofNat, Nat.mod_eq_of_lt hlt, hc]
  rfl

theorem ctlContext_desc {i : Fin 256} {d : Nat} (hd : d < 0x40) : ctlContext (0x40010000 + 0x40 * i.val + d) = some i.val := by
  have hi := i.isLt
  have hq : (0x40010000 + 0x40 * i.val + d - 0x40010000) / 0x40 = i.val := by omega
  rw [ctlContext, if_pos (by omega), hq]

theorem ctlContext_bind (i : Fin 256) (e : Fin 32) : ctlContext (R.BIND_KIND i e).addr = some i.val := by
  have hi := i.isLt
  have he := e.isLt
  have ha : (R.BIND_KIND i e).addr = 0x40020000 + 0x180 * i.val + 0xc * e.val := rfl
  have hq : (0x40020000 + 0x180 * i.val + 0xc * e.val - 0x40020000) / 0x180 = i.val := by omega
  rw [ha, ctlContext, if_neg (by omega), if_pos (by omega), hq]

/-- What a write of a descriptor word does, once its row takes it. -/
theorem State.ctlWrite_desc {i : Fin 256} {d : Nat} (hd : d < 0x40)
    (hc : checkContext s.rd (s.setWord (0x40010000 + 0x40 * i.val + d) w).rd i true = 0) :
    (s.ctlWrite (0x40010000 + 0x40 * i.val + d) w v).1 =
      ((s.setWord (0x40010000 + 0x40 * i.val + d) w).wr (R.DESC_COST_MACS i) (ctxMacs (s.setWord (0x40010000 + 0x40 * i.val + d) w).rd i)).wr
        (R.DESC_COST_COST i) (ctxCost (s.setWord (0x40010000 + 0x40 * i.val + d) w).rd i) := by
  have hi := i.isLt
  have hq : (0x40010000 + 0x40 * i.val + d - 0x40010000) / 0x40 = i.val := by omega
  unfold State.ctlWrite
  rw [if_neg (by show _ ≠ 0x4000001C; omega), if_neg (by show _ ≠ 0x40000020; omega), if_neg (by show _ ≠ 0x4000002C; omega), if_pos (by omega), hq]
  dsimp only
  rw [hc]
  rfl

/-- What a write of a binding does, once its row takes it. -/
theorem State.ctlWrite_bind (i : Fin 256) (e : Fin 32) {code : Nat}
    (hc : checkContext s.rd (s.setWord (R.BIND_KIND i e).addr w).rd i (kindOk (bitsOf w 0 4) (bitsOf w 4 12)) = code) :
    (s.ctlWrite (R.BIND_KIND i e).addr w v).1 = if code = 0 then s.setWord (R.BIND_KIND i e).addr w else s.ctlCheck (R.BIND_KIND i e).addr code := by
  have hi := i.isLt
  have he := e.isLt
  have ha : (R.BIND_KIND i e).addr = 0x40020000 + 0x180 * i.val + 0xc * e.val := rfl
  have hq : (0x40020000 + 0x180 * i.val + 0xc * e.val - 0x40020000) / 0x180 = i.val := by omega
  have hm : (0x40020000 + 0x180 * i.val + 0xc * e.val - 0x40020000) % 12 = 0 := by omega
  rw [ha] at hc ⊢
  unfold State.ctlWrite
  rw [if_neg (by show _ ≠ 0x4000001C; omega), if_neg (by show _ ≠ 0x40000020; omega), if_neg (by show _ ≠ 0x4000002C; omega), if_neg (by omega), if_pos (by omega),
    if_pos hm, hq]
  dsimp only
  rw [hc]
  split <;> rfl

/-- A write of a binding in a SOLO unit whose row takes it. -/
theorem exec_bindingWrite (i : Fin 256) (e : Fin 32) {v : BitVec 32} (hr : s.role = Role.solo) (hwr : s.writable = true)
    (hw : s.wouldStand (R.BIND_KIND i e).addr v.toNat = some w) {t : State}
    (hx : (s.ctlWrite (R.BIND_KIND i e).addr w v.toNat).1 = t) (ht : t.role = Role.solo) :
    exec (.descriptorWrite (BitVec.ofNat 32 (R.BIND_KIND i e).addr) v) s = .next t := by
  have hi := i.isLt
  have he := e.isLt
  have ha : (R.BIND_KIND i e).addr = 0x40020000 + 0x180 * i.val + 0xc * e.val := rfl
  rw [exec_descriptorWrite v (by rw [ha]; omega) (by rw [ctlContext_bind]; rfl),
    State.regWrite_ctl hr (State.inputsRun_of_writable hwr) (by rw [ha]; omega) (by rw [ha]; omega) hw (by rw [hx, ht]), hx]

/-! ### Clears -/

theorem State.ctlClear_counts (s : State) : s.ctlClear 8 = s.forN 256 fun i s => s.setWord (R.DESC_COUNT_OVR_CNT i).addr 0 := rfl

theorem State.clearCtxCounts_rd (s : State) {i : Nat} (hi : i < 256) :
    (s.ctlClear 8).rd (R.DESC_COUNT_OVR_CNT i) = 0 ∧ (s.ctlClear 8).rd (R.DESC_COUNT_NUM_CNT i) = 0 := by
  have h : (s.ctlClear 8).word (0x40010014 + 0x40 * i) = 0 := by
    rw [State.ctlClear_counts]
    refine State.forN_turn (fun _ => True) (fun y => y.word (0x40010014 + 0x40 * i) = 0) hi (fun _ _ _ _ => trivial) (fun y _ => ?_) (fun j hj _ y hy => ?_) trivial
    · rw [State.word_setWord]
      exact if_pos rfl
    · rw [State.word_setWord, if_neg (by show _ ≠ 0x40010014 + 0x40 * j; omega), hy]
  constructor
  · show bitsOf ((s.ctlClear 8).word (0x40010014 + 0x40 * i)) 0 16 = 0
    rw [h]
    rfl
  · show bitsOf ((s.ctlClear 8).word (0x40010014 + 0x40 * i)) 16 16 = 0
    rw [h]
    rfl

theorem State.clearCtxCounts_keeps (s : State) :
    (s.ctlClear 8).ctl = s.ctl ∧ (s.ctlClear 8).cells = s.cells ∧ (s.ctlClear 8).sent = s.sent ∧ (s.ctlClear 8).role = s.role := by
  rw [State.ctlClear_counts]
  refine State.forN_keeps (fun t => t.ctl = s.ctl ∧ t.cells = s.cells ∧ t.sent = s.sent ∧ t.role = s.role) 256 _ (fun i _ t ht => ?_) s ⟨rfl, rfl, rfl, rfl⟩
  obtain ⟨hctl, hcells, hsent, hrole⟩ := ht
  exact ⟨hctl, hcells, hsent, (t.role_setWord 0 (by show 0x40010014 + 0x40 * i ≠ _; omega)).trans hrole⟩

/-! ### The coefficient aperture (R82) -/

theorem State.regWrite_coef (hr : s.role = Role.solo) (hrun : s.inputsRun = true) (k : Fin 2048) (v : Nat)
    (ht : (s.coefWrite (s.rd R.COEF_SEL_CTX) (s.shownPage (s.rd R.COEF_SEL_CTX)) k v).1.role = Role.solo) (m : Nat) :
    (s.regWrite m (0x40080000 + 4 * k.val) v).1 = (s.coefWrite (s.rd R.COEF_SEL_CTX) (s.shownPage (s.rd R.COEF_SEL_CTX)) k v).1 := by
  have hk := k.isLt
  have hq : (0x40080000 + 4 * k.val - 0x40080000) / 4 = k.val := by omega
  unfold State.regWrite
  rw [if_neg ((State.runs_iff s).mp hrun), if_pos (by omega), State.isPartner_solo hr, hq, if_neg (by decide)]
  simp only [State.mirror_solo ht, ite_self]

theorem State.page_le (s : State) (i : Nat) : s.page i ≤ 1 := by
  unfold State.page
  exact Bool.toNat_le _

/-- The active page does not take a write. -/
theorem State.coefWrite_active (s : State) (i k v : Nat) : (s.coefWrite i (s.page i) k v).1 = s := by
  unfold State.coefWrite
  split
  · rfl
  · rw [if_pos rfl]

/-- The shadow page takes a write of a word it has. -/
theorem State.coefWrite_shadow (s : State) (i v : Nat) {k : Nat} (hk : k < 1392) : (s.coefWrite i (1 - s.page i) k v).1 = s.setCoef i (1 - s.page i) k v := by
  have := s.page_le i
  rw [State.coefWrite, if_neg (by omega), if_neg (by omega)]

/-- A GO with none waiting waits for its window. -/
theorem State.swapGo_waits (hs : s.inService = true) (hp : s.on R.SWAP_STATUS_PENDING = false) (swap load : Bool) :
    s.swapGo swap load = ({ s with ctl := { s.ctl with swap := (some
      { sel := (upto 8).map fun w => s.rd (R.SWAP_SEL_SEL w), swap := swap, load := load,
        atPeriod := if s.now < s.sys.t0 + s.tCa then s.sys.period else s.sys.period + 1 }) } } : State).put R.SWAP_STATUS_PENDING true := by
  rw [State.swapGo, hp, hs]
  rfl

theorem State.swapGo_refused (hp : s.on R.SWAP_STATUS_PENDING = true) (swap load : Bool) : s.swapGo swap load = s.put R.SWAP_STATUS_REFUSED true := by
  rw [State.swapGo, hp]
  rfl

theorem State.swapGo_role (hs : s.inService = true) (swap load : Bool) : (s.swapGo swap load).role = s.role := by
  cases hp : s.on R.SWAP_STATUS_PENDING with
  | true => rw [State.swapGo_refused hp]; exact State.role_wr s 1 (f := R.SWAP_STATUS_REFUSED) (by decide)
  | false => rw [State.swapGo_waits hs hp]; exact State.role_wr (f := R.SWAP_STATUS_PENDING) _ 1 (by decide)

theorem exec_swap (hr : s.role = Role.solo) (hs : s.inService = true) (load : Bool) : exec (.swap load) s = .next (s.swapGo true load) := by
  have he : exec (.swap load) s = s.write R.SWAP_CMD_GO (3 + 4 * load.toNat) := rfl
  cases load <;>
    exact he.trans (State.write_swap hr (State.inputsRun_of_inService hs) rfl ((State.swapGo_role hs _ _).trans hr))

theorem exec_loadX0 (hr : s.role = Role.solo) (hs : s.inService = true) : exec .loadX0 s = .next (s.swapGo false true) :=
  State.write_swap hr (State.inputsRun_of_inService hs) rfl ((State.swapGo_role hs _ _).trans hr)

/-- A write of a descriptor word whose checks pass stores it and its cost. -/
theorem exec_dimWrite (i : Fin 256) {d : Nat} (hd : d < 0x40) {v : BitVec 32} (hr : s.role = Role.solo) (hwr : s.writable = true)
    (hw : s.wouldStand (0x40010000 + 0x40 * i.val + d) v.toNat = some w)
    (hc : checkContext s.rd (s.setWord (0x40010000 + 0x40 * i.val + d) w).rd i true = 0) :
    exec (.descriptorWrite (BitVec.ofNat 32 (0x40010000 + 0x40 * i.val + d)) v) s =
      .next (((s.setWord (0x40010000 + 0x40 * i.val + d) w).wr (R.DESC_COST_MACS i) (ctxMacs (s.setWord (0x40010000 + 0x40 * i.val + d) w).rd i)).wr
        (R.DESC_COST_COST i) (ctxCost (s.setWord (0x40010000 + 0x40 * i.val + d) w).rd i)) := by
  have hi := i.isLt
  rw [exec_descriptorWrite v (by omega) (by rw [ctlContext_desc hd]; rfl),
    State.regWrite_ctl hr (State.inputsRun_of_writable hwr) (by omega) (by omega) hw ?_, State.ctlWrite_desc hd hc]
  have hcost : 0x40010008 + 0x40 * i.val ≠ 0x41100000 := by omega
  rw [State.ctlWrite_desc hd hc, State.role_wr _ _ hcost, State.role_wr _ _ hcost, State.role_setWord _ _ (by omega), hr]

/-- A binding that breaks a rule of R77 leaves only the report, with its context. -/
theorem State.ctlCheck_bind (i : Fin 256) (e : Fin 32) (code : Nat) :
    s.ctlCheck (R.BIND_KIND i e).addr code = ((s.put R.CTL_STATUS_CHECK_ERR true).wr R.CTL_STATUS_CHECK_CODE code).wr R.CTL_STATUS_CHECK_CTX i := by
  rw [State.ctlCheck, ctlContext_bind]

/-- Settles O15: each write meets the branch of R77, R81 to R87 that its word and the hypotheses leave. -/
theorem engineWritesAreCheckedAndTakeEffect : Obligations.EngineWritesAreCheckedAndTakeEffect := by
  refine ⟨fun s i a v w hr hwr ha hw hc => ?_, fun s i e v w hr hwr hw hc => ?_, fun s i e v w hr hwr hw hc => ?_, fun s load hr hs hp => ?_,
    fun s hr hs hp => ?_, fun s load hr hs hp => ?_, fun s hr hs hp => ?_, fun s i hr hs => ?_, fun s i hr hs => ?_, fun s hr hrun => ?_,
    fun s hr hrun => ?_, fun s hr hrun => ?_, fun s hr hrun => ?_, fun s k v hr hrun hview hk => ?_, fun s k v hr hrun hview => ?_, fun s k hk => ?_⟩
  · rcases ha with rfl | rfl
    · exact exec_dimWrite i (d := 0) (by decide) hr hwr hw hc
    · have hx : (R.DESC_CTRL_EN i).addr = 0x40010000 + 0x40 * i.val + 4 := by show 0x40010004 + 0x40 * i.val = _; omega
      rw [hx] at hw hc ⊢
      exact exec_dimWrite i (by decide) hr hwr hw hc
  · refine exec_bindingWrite i e hr hwr hw ((State.ctlWrite_bind i e hc).trans (if_pos rfl)) ((s.role_setWord w ?_).trans hr)
    have := i.isLt
    have := e.isLt
    show 0x40020000 + 0x180 * i.val + 0xc * e.val ≠ _
    omega
  · refine exec_bindingWrite i e hr hwr hw ((State.ctlWrite_bind i e rfl).trans ((if_neg hc).trans (State.ctlCheck_bind i e _))) ?_
    rw [State.role_wr _ _ (by decide), State.role_wr _ _ (by decide), State.put, State.role_wr _ _ (by decide), hr]
  · rw [exec_swap hr hs, State.swapGo_waits hs hp]
  · rw [exec_loadX0 hr hs, State.swapGo_waits hs hp]
  · rw [exec_swap hr hs, State.swapGo_refused hp]
  · rw [exec_loadX0 hr hs, State.swapGo_refused hp]
  · have hx : s.injectOverrun i = { s with ctl := { s.ctl with inject := s.ctl.inject ++ [i.val] } } := by rw [State.injectOverrun, hs, State.when_true]
    have h := State.write_inject hr (State.inputsRun_of_inService hs) i (by rw [hx]; exact hr)
    rw [hx] at h
    exact h
  · have hx : s.injectOverrun i = s := by rw [State.injectOverrun, hs, State.when_false]
    by_cases hrun : s.inputsRun = true
    · have h := State.write_inject hr hrun i (by rw [hx]; exact hr)
      rw [hx] at h
      exact h
    · exact congrArg Host.Outcome.next (State.regWrite_stopped hrun 0 _ _)
  · exact State.write_clear (v := 1) hr hrun ((State.role_wr (f := R.CTL_PEAK_PEAK) s 0 (by decide)).trans hr)
  · exact State.write_clear (v := 2) hr hrun ((State.role_wr (f := R.CTL_OVR_COUNT_COUNT) s 0 (by decide)).trans hr)
  · exact State.write_clear (v := 4) hr hrun ((State.role_wr (f := R.CTL_NUM_COUNT_COUNT) s 0 (by decide)).trans hr)
  · obtain ⟨hctl, hcells, hsent, hrole⟩ := s.clearCtxCounts_keeps
    exact ⟨_, State.write_clear (v := 8) hr hrun (hrole.trans hr), fun i hi => s.clearCtxCounts_rd hi, hctl, hcells, hsent⟩
  · have hx : s.shownPage (s.rd R.COEF_SEL_CTX) = 1 - s.page (s.rd R.COEF_SEL_CTX) := by rw [State.shownPage, hview]; rfl
    have hw := s.coefWrite_shadow (s.rd R.COEF_SEL_CTX) v.toNat hk
    rw [← hx] at hw
    exact congrArg Host.Outcome.next ((State.regWrite_coef hr hrun k v.toNat (by rw [hw]; exact hr) 0).trans (hw.trans (by rw [hx])))
  · have hx : s.shownPage (s.rd R.COEF_SEL_CTX) = s.page (s.rd R.COEF_SEL_CTX) := by rw [State.shownPage, hview]; rfl
    have hw := s.coefWrite_active (s.rd R.COEF_SEL_CTX) k v.toNat
    rw [← hx] at hw
    exact congrArg Host.Outcome.next ((State.regWrite_coef hr hrun k v.toNat (by rw [hw]; exact hr) 0).trans hw)
  · have he : exec (.coefApertureAccess k none) s = .next (s.send (.reply (s.apertureWord k) 0)) := rfl
    rw [he, State.apertureWord, if_pos hk]
    rfl

end Sys2Proof.Machine
end

section
/-! O12: how a preparation ends at its deadline and at its boundary, and how a dry-down goes on (R30, R38, R55 to R58). -/

namespace Sys2Proof.Machine

variable {s t : State} {g : Fld}

/-! ### Requests of the preparation -/

theorem State.PortsAsked.refl (s : State) : s.PortsAsked s := ⟨fun _ _ => rfl, rfl⟩

/-- Requests to many ports leave every word but MB_STATUS of the ports, and the state machine. -/
theorem State.PortsAsked.askAll (s : State) (l : List Nat) (hl : ∀ p ∈ l, p < 48) (f : Nat → State → List Own) :
    s.PortsAsked (s.forL l fun p s => s.ask p (f p s)) ∧ (s.forL l fun p s => s.ask p (f p s)).sys = s.sys :=
  State.forL_keeps (fun t => s.PortsAsked t ∧ t.sys = s.sys) l _
    (fun p hp t ⟨h, hs⟩ => ⟨h.ask (hl p hp) _, ((keeps_ask (F := [.draws, .regs, .sent, .ports]) t p _ (by decide) (.refl _ _)).1.2 .sys (by decide)).trans hs⟩)
    s ⟨.refl s, rfl⟩

theorem strandsInService_lt (s : State) : ∀ p ∈ (upto 48).filter s.strandInService, p < 48 :=
  fun _ hp => List.mem_range.mp (List.mem_filter.mp hp).1

theorem State.prepStop_keeps (s : State) : s.prepStop.regs = s.regs ∧ s.prepStop.sys = s.sys := by
  refine State.forN_keeps (fun t => t.regs = s.regs ∧ t.sys = s.sys) 48 _ (fun p _ t ht => ?_) s ⟨rfl, rfl⟩
  exact ht

/-- The state with another state machine. -/
def State.withSys (s : State) (x : Sys) : State := { s with sys := x }

theorem State.withSys_regs (s : State) (x : Sys) : (s.withSys x).regs = s.regs := rfl

theorem State.withSys_sys (s : State) (x : Sys) : (s.withSys x).sys = x := rfl

theorem State.withSys_rd (s : State) (x : Sys) (g : Fld) : (s.withSys x).rd g = s.rd g := rfl

theorem State.withSys_on (s : State) (x : Sys) (g : Fld) : (s.withSys x).on g = s.on g := rfl

theorem State.withSys_st (s : State) (x : Sys) : (s.withSys x).st = s.st := rfl

/-- The state machine with its restored boundaries. -/
def Sys.restored (x : Sys) : Sys := { x with restore := false, quiet := false }

/-- The state before the maintenance boundaries are asked for again. -/
def State.restoreBase (s : State) : State := s.prepStop.withSys s.prepStop.sys.restored

theorem State.restoreBase_regs (s : State) : s.restoreBase.regs = s.regs := by
  rw [State.restoreBase, State.withSys_regs, s.prepStop_keeps.1]

theorem State.restoreBase_sys (s : State) : s.restoreBase.sys = s.sys.restored := by
  rw [State.restoreBase, State.withSys_sys, s.prepStop_keeps.2]

/-- The requests that restore the boundaries of a port. -/
def restoreAsks : List Own := [own .plain (reqAll 2 0 0x40010 200), ownLate .plain (reqAll 2 0 0x4000C 0) 3]

theorem State.restoreBounds_eq (s : State) : s.restoreBounds =
    s.restoreBase.forL ((upto 48).filter s.restoreBase.strandInService) fun p x => x.ask p restoreAsks := rfl

/-- The restored boundaries leave the system block and what the state machine waits for. -/
theorem State.restoreBounds_rd (s : State) (h : ∀ q, q < 48 → g.addr ≠ 0x40201034 + 0x100 * q) : s.restoreBounds.rd g = s.rd g := by
  have hx := (State.PortsAsked.askAll s.restoreBase _ (strandsInService_lt s.restoreBase) fun _ _ => restoreAsks).1.rd h
  rw [State.restoreBounds_eq, hx, State.rd_congr _ _ s.restoreBase_regs]

theorem State.restoreBounds_sys (s : State) : s.restoreBounds.sys = s.sys.restored := by
  have hx := (State.PortsAsked.askAll s.restoreBase _ (strandsInService_lt s.restoreBase) fun _ _ => restoreAsks).2
  rw [State.restoreBounds_eq, hx, State.restoreBase_sys]

/-- The state machine without its pending command. -/
def Sys.given (x : Sys) : Sys := { x with pend := none, prep := none, restore := x.restore || x.prep.isSome }

/-- The registers of a command that is given up. -/
def State.givenUp (s : State) (cmd code : Nat) : State := (s.refuse cmd code).put R.DEV_STATE_BUSY false

theorem State.givenUp_shows (s : State) (cmd code : Nat) :
    (s.givenUp cmd code).rd R.STATE_CAUSE_REFUSE = code % 256 ∧ (s.givenUp cmd code).rd R.STATE_CAUSE_REFUSED_CMD = cmd % 256 ∧
    (s.givenUp cmd code).on R.DEV_STATE_BUSY = false ∧ (s.givenUp cmd code).st = s.st := by
  refine ⟨?_, ?_, State.on_put_same _ _ _ rfl rfl, ?_⟩ <;>
    simp (disch := decide) only [State.givenUp, State.refuse, State.st, State.put, State.rd_wr_apart, State.rd_wr_same] <;> rfl

theorem State.dropPending_eq {p : Pend} (h : s.sys.pend = some p) (code : Nat) :
    s.dropPending code = (s.givenUp p.cmd code).withSys (s.givenUp p.cmd code).sys.given := by
  rw [State.dropPending, h]
  rfl

/-- A pending command is given up with a code. -/
theorem State.dropPending_some {p : Pend} (h : s.sys.pend = some p) (code : Nat) :
    (s.dropPending code).sys.pend = none ∧ (s.dropPending code).sys.prep = none ∧ (s.dropPending code).rd R.STATE_CAUSE_REFUSE = code % 256 ∧
    (s.dropPending code).rd R.STATE_CAUSE_REFUSED_CMD = p.cmd % 256 ∧ (s.dropPending code).on R.DEV_STATE_BUSY = false ∧ (s.dropPending code).st = s.st := by
  rw [State.dropPending_eq h, State.withSys_sys, State.withSys_rd, State.withSys_rd, State.withSys_on, State.withSys_st]
  exact ⟨rfl, rfl, s.givenUp_shows p.cmd code⟩

theorem State.stagedFails_rd (s : State) (code : Nat) (g : Fld) : (s.stagedFails code).rd g = s.rd g := rfl

theorem State.stagedFails_sys (s : State) (code : Nat) : (s.stagedFails code).sys = s.sys := rfl

/-- An ENERGISE refused after its acceptance leaves its code and its command. -/
theorem State.energiseFails_shows {p : Pend} (h : s.sys.pend = some p) {code : Nat} (hc : code < 256) :
    (s.energiseFails code).sys.pend = none ∧ (s.energiseFails code).sys.prep = none ∧ (s.energiseFails code).rd R.STATE_CAUSE_REFUSE = code ∧
    (s.energiseFails code).rd R.STATE_CAUSE_REFUSED_CMD = p.cmd % 256 ∧ (s.energiseFails code).on R.DEV_STATE_BUSY = false ∧ (s.energiseFails code).st = s.st := by
  have hr : ∀ g : Fld, 0x41100000 ≤ g.addr → (s.energiseFails code).rd g = (s.dropPending code).rd g := fun g hg => by
    rw [State.energiseFails, State.restoreBounds_rd _ (fun q _ => by omega), State.stagedFails_rd]
  have hs : (s.energiseFails code).sys = (s.dropPending code).sys.restored := by
    rw [State.energiseFails, State.restoreBounds_sys, State.stagedFails_sys]
  obtain ⟨hpend, hprep, href, hcmd, hbusy, hst⟩ := State.dropPending_some h code
  refine ⟨by rw [hs]; exact hpend, by rw [hs]; exact hprep, ?_, ?_, ?_, ?_⟩
  · rw [hr _ (by decide), href, Nat.mod_eq_of_lt hc]
  · rw [hr _ (by decide), hcmd]
  · rw [State.on, hr _ (by decide), ← State.on, hbusy]
  · rw [State.st, hr _ (by decide), ← State.st, hst]

/-! ### ENERGISED at the boundary of the preparation -/

/-- What stands as ENERGISED is entered, before the engines start. -/
def State.energiseStart (s : State) (q : Prep) (cause : Nat) : State :=
  ((({ { s.acqStop with acq := { s.acqStop.acq with entered := some St.energised } } with
    sys := { s.acqStop.sys with committed := true, quiet := false } } : State).beginPeriod q.p1 q.t1).settled.nextEpoch).goto St.energised cause q.p1

/-- The cells that the preparation made ready. -/
def State.preparedCells (s : State) : List Nat := ((upto 48).map fun p => ((s.expectedOn p).filter (s.prepared p)).map (cellKey p)).flatten

/-- The engines of a unit that has entered ENERGISED start. -/
def State.enginesStart (s : State) (cells : List Nat) : State :=
  ((s.initEngine).enterLevels cells).when (((s.initEngine).enterLevels cells).rd R.TIE_STATUS_PART_ROLE == Role.relay) State.sendImage

theorem State.energiseNow_eq (s : State) (q : Prep) (cause : Nat) : s.energiseNow q cause =
    ((s.energiseStart q cause).enginesStart s.preparedCells).when (((s.energiseStart q cause).enginesStart s.preparedCells).on R.DEV_STATE_SAFE_BLOCK) fun s =>
      s.faultBlock Cause.safeBlock := rfl

theorem State.sendImage_regs (s : State) : s.sendImage.regs = s.regs := by
  unfold State.sendImage
  split <;> rfl

theorem State.sendImage_sys (s : State) : s.sendImage.sys = s.sys := by
  unfold State.sendImage
  split <;> rfl

/-- The start values of the contexts in service. -/
def State.initContexts (s : State) : State :=
  (enabledCtx s.crd).foldl (fun s i => s.onCtx i fun z =>
    { z with xhat := s.x0 i, v := s.vOf i (s.x0 i), h := List.replicate (ctxP s.crd i) f0, uol := s.clampU i (s.vOf i (s.x0 i)), out := s.clampU i (s.vOf i (s.x0 i)) }) s

/-- The coasts of all contexts begin anew. -/
def State.initCoasts (s : State) : State :=
  s.forN 256 fun i s =>
    ((((s.onCtx i fun z => { z with raws := [], found := [], pass := 0, limited := false }).setWord (R.COAST_STATUS_DROPPED i).addr
      (setBits (s.word (R.COAST_STATUS_DROPPED i).addr) 0 17 0)).wr (R.COAST_TIME_PERIODS i) 0)).forN 16 fun j s => s.setWord (R.FB_COUNT_TO_CNT i j).addr 0

/-- The target that a set-point channel starts from. -/
def State.startTarget (s : State) (c : Nat) : Nat :=
  if s.crd (R.SP_CFG_WRAP c) = 1 then f0 else fClamp f0 (s.rd (R.SP_MIN_MIN c)) (s.rd (R.SP_MAX_MAX c))

/-- The words of a set-point channel that begins anew. -/
def State.clearSetpoint (s : State) (c : Nat) : State := (s.wr (R.SP_STATUS_AGE c) 0).put (R.SP_STATUS_LOST c) false

/-- A set-point channel begins anew. -/
def State.initSetpoint (c : Nat) (s : State) : State :=
  { s.clearSetpoint c with
    ctl := { (s.clearSetpoint c).ctl with sp := mapSet spDefault (s.clearSetpoint c).ctl.sp c { target := s.startTarget c, first := true } } }

theorem State.initSetpoint_word (s : State) (c a : Nat) : (s.initSetpoint c).word a = (s.clearSetpoint c).word a := by
  rw [State.word, State.initSetpoint, State.word]

/-- The set-point channels begin anew. -/
def State.initSetpoints (s : State) : State := s.forN 256 State.initSetpoint

def State.initGroups (s : State) : State := s.forN 32 fun g s => s.wr (R.GRP_CHANGES_CHANGES g) 0

def State.initMarks (s : State) : State := { s with ctl := { s.ctl with winner := [], first := true, inject := [] } }

theorem State.initEngine_eq (s : State) : s.initEngine = s.initContexts.initCoasts.initSetpoints.initGroups.initMarks := by
  unfold State.initEngine
  extract_lets s1 s2 s3 s4
  have h1 : s1 = s.initContexts := rfl
  clear_value s1
  have h2 : s2 = s1.initCoasts := rfl
  clear_value s2
  have h3 : s3 = s2.initSetpoints := rfl
  clear_value s3
  have h4 : s4 = s3.initGroups := rfl
  clear_value s4
  rw [← h1, ← h2, ← h3, ← h4]
  rfl

theorem State.initContexts_regs (s : State) : s.initContexts.regs = s.regs :=
  State.foldl_keeps (fun t => t.regs = s.regs) _ (fun s i => s.onCtx i fun z =>
    { z with xhat := s.x0 i, v := s.vOf i (s.x0 i), h := List.replicate (ctxP s.crd i) f0, uol := s.clampU i (s.vOf i (s.x0 i)), out := s.clampU i (s.vOf i (s.x0 i)) })
    (fun _ _ h => h) s rfl

theorem State.initMarks_word (s : State) (a : Nat) : s.initMarks.word a = s.word a := rfl

theorem State.initCoasts_word (s : State) {a : Nat} (ha : 0x41100000 ≤ a) : s.initCoasts.word a = s.word a := by
  refine State.forN_keeps (fun t => t.word a = s.word a) 256 _ (fun i hi t ht => ?_) s rfl
  refine State.forN_keeps (fun t => t.word a = s.word a) 16 _ (fun j hj t ht => ?_) _ ?_
  · rw [State.word_setWord_ne _ _ _ _ (by show a ≠ 0x400C000C + 0x100 * i + 0x10 * j; omega), ht]
  · rw [State.word_wr_ne _ _ _ _ (by show a ≠ 0x400D0010 + 0x20 * i; omega), State.word_setWord_ne _ _ _ _ (by show a ≠ 0x400D0008 + 0x20 * i; omega)]
    exact ht

theorem State.initSetpoints_word (s : State) {a : Nat} (ha : 0x41100000 ≤ a) : s.initSetpoints.word a = s.word a := by
  unfold State.initSetpoints
  refine State.forN_keeps (fun t => t.word a = s.word a) 256 _ (fun i hi t ht => ?_) s rfl
  have hne : a ≠ 0x400A0020 + 0x40 * i := by omega
  rw [State.initSetpoint_word, State.clearSetpoint, State.put, State.word_wr_ne _ _ _ _ hne, State.word_wr_ne _ _ _ _ hne, ht]

theorem State.initGroups_word (s : State) {a : Nat} (ha : 0x41100000 ≤ a) : s.initGroups.word a = s.word a := by
  refine State.forN_keeps (fun t => t.word a = s.word a) 32 _ (fun i hi t ht => ?_) s rfl
  rw [State.word_wr_ne _ _ _ _ (by show a ≠ 0x400B0008 + 0x10 * i; omega), ht]

/-- The start of the control engine leaves the system block. -/
theorem State.initEngine_word (s : State) {a : Nat} (ha : 0x41100000 ≤ a) : s.initEngine.word a = s.word a := by
  rw [State.initEngine_eq, State.initMarks_word, State.initGroups_word _ ha, State.initSetpoints_word _ ha, State.initCoasts_word _ ha,
    State.word, s.initContexts_regs, State.word]

/-- The engines start without touching the system block or the state machine. -/
theorem State.enginesStart_keeps (s : State) (cells : List Nat) :
    (∀ g : Fld, 0x41100000 ≤ g.addr → (s.enginesStart cells).rd g = s.rd g) ∧ (s.enginesStart cells).sys = s.sys := by
  have hk : Keeps [.regs, .ctl, .lvl] s ((s.initEngine).enterLevels cells) :=
    keeps_enterLevels _ _ (by decide) (keeps_initEngine _ (by decide) (.refl _ _))
  have hregs : ((s.initEngine).enterLevels cells).regs = s.initEngine.regs :=
    (keeps_enterLevels (F := [.lvl]) s.initEngine cells (by decide) (.refl _ _)).1.2 .regs (by decide)
  unfold State.enginesStart
  refine State.when_keeps (fun t => (∀ g : Fld, 0x41100000 ≤ g.addr → t.rd g = s.rd g) ∧ t.sys = s.sys) _ _ _ ⟨fun g hg => ?_, hk.1.2 .sys (by decide)⟩
    ⟨fun g hg => ?_, (State.sendImage_sys _).trans (hk.1.2 .sys (by decide))⟩
  · rw [State.rd_congr _ _ hregs, State.rd, State.initEngine_word s hg, State.rd]
  · rw [State.rd_congr _ _ (State.sendImage_regs _), State.rd_congr _ _ hregs, State.rd, State.initEngine_word s hg, State.rd]

/-- The state machine as ENERGISED is entered. -/
def Sys.energised (x : Sys) (q : Prep) : Sys :=
  { x with committed := true, quiet := false, period := q.p1, t0 := q.t1, echoEpoch := x.sentEpoch, leDone := false, pend := none, prep := none,
           epoch := (x.epoch + 1) % 256 }

/-- The state before its change to ENERGISED is recorded. -/
def State.energiseReady (s : State) (q : Prep) : State :=
  (({ s with acq := { s.acq with entered := some St.energised }, sys := { s.sys with committed := true, quiet := false } } : State).beginPeriod q.p1 q.t1).settled.nextEpoch

theorem State.energiseStart_eq (s : State) (q : Prep) (cause : Nat) :
    s.energiseStart q cause = (s.acqStop.energiseReady q).goto St.energised cause q.p1 := rfl

theorem State.energiseReady_sys (s : State) (q : Prep) : (s.energiseReady q).sys = s.sys.energised q := rfl

theorem State.energiseReady_on (s : State) (q : Prep) (h : R.DEV_STATE_BUSY.apart g = true) (h' : R.ACD_STATUS_EPOCH.apart g = true) :
    (s.energiseReady q).on g = s.on g := by
  have hx : (s.energiseReady q).rd g = ((s.put R.DEV_STATE_BUSY false).wr R.ACD_STATUS_EPOCH ((s.sys.epoch + 1) % 256)).rd g := rfl
  rw [State.on, hx, State.rd_wr_apart _ _ _ _ rfl h', State.rd_put_apart _ _ _ _ rfl h, State.on]

/-- What ENERGISED is entered with. -/
theorem State.energiseStart_shows (s : State) (q : Prep) (cause : Nat) :
    (s.energiseStart q cause).st = St.energised ∧ (s.energiseStart q cause).on R.DEV_STATE_SAFE_BLOCK = s.on R.DEV_STATE_SAFE_BLOCK ∧
    (s.energiseStart q cause).sys = s.sys.energised q := by
  have hsys : s.acqStop.sys = s.sys := (keeps_acqStop (F := [.regs, .acq, .mem]) s (by decide) (.refl _ _)).1.2 .sys (by decide)
  have hon : s.acqStop.on R.DEV_STATE_SAFE_BLOCK = s.on R.DEV_STATE_SAFE_BLOCK := s.acqStop_reacts.writes.on (by decide)
  rw [State.energiseStart_eq]
  refine ⟨State.goto_st _ _ _ _ (by decide), ?_, ?_⟩
  · rw [State.goto_on _ _ _ _ (by decide) (by decide) (by decide) (by decide), State.energiseReady_on _ _ (by decide) (by decide), hon]
  · rw [State.goto_sys, State.energiseReady_sys, hsys]

/-- ENERGISED as it is entered where Safe Block is not active. -/
theorem State.energiseNow_shows (s : State) (q : Prep) (cause : Nat) (h : s.on R.DEV_STATE_SAFE_BLOCK = false) :
    (s.energiseNow q cause).st = St.energised ∧ (s.energiseNow q cause).sys = s.sys.energised q := by
  obtain ⟨hst, hon, hsys⟩ := s.energiseStart_shows q cause
  obtain ⟨hrd, hs⟩ := (s.energiseStart q cause).enginesStart_keeps s.preparedCells
  have hblock : ((s.energiseStart q cause).enginesStart s.preparedCells).on R.DEV_STATE_SAFE_BLOCK = false := by
    rw [State.on, hrd _ (by decide), ← State.on, hon, h]
  rw [State.energiseNow_eq, hblock, State.when_false]
  exact ⟨(hrd _ (by decide)).trans hst, hs.trans hsys⟩

/-! ### Dry-down -/

theorem State.dryWaitEnd_eq (hd : s.on R.DEV_STATE_DRY_ACTIVE = true) (hp : s.rd R.DRY_STATUS_PHASE = 1)
    (hc : s.rd R.DRYDOWN_CFG_DRY_HOLD ≤ s.sys.dry.count) : s.dryWaitEnd = (s.wr R.DRY_STATUS_PHASE 2).wr R.DRY_STATUS_ARM_BLOCKED
      (s.rd R.DRY_STATUS_ARM_BLOCKED ||| maskOf ((upto 6).map fun a => s.crd (R.ARM_CFG_EN a) == 0)) := by
  rw [State.dryWaitEnd, hd, hp, decide_eq_true hc]
  exact congrArg _ rfl

theorem State.bit_wr (s : State) {f : Fld} (v : Nat) {i : Nat} (hf : f.inWord = true) (hi : i < f.width) : (s.wr f v).bit f i = bitOf v i := by
  rw [State.bit, State.rd_wr_same _ _ _ hf, bitOf_mod_two_pow hi]

theorem getD_map_upto {α : Type} (f : Nat → α) {n i : Nat} (h : i < n) (d : α) : ((upto n).map f).getD i d = f i := by
  rw [List.getD_eq_getElem?_getD, List.getElem?_map, upto, List.getElem?_range h]
  rfl

/-- The state in which the last arm of a dry-down has blocked. -/
def State.dryOver (s : State) : State := s.endDry.settled

theorem State.dryOver_shows (hd : s.on R.DEV_STATE_DRY_ACTIVE = true) :
    s.dryOver.rd R.DRY_STATUS_ARM_BLOCKED = s.rd R.DRY_STATUS_ARM_BLOCKED ∧ s.dryOver.on R.DEV_STATE_DRY_ACTIVE = false ∧ s.dryOver.on R.DEV_STATE_BUSY = false := by
  have hr : ∀ g, s.dryOver.rd g = ((((s.put R.DEV_STATE_DRY_ACTIVE false).put R.DEV_STATE_BUSY false).wr R.DRY_STATUS_PHASE 0).put R.DEV_STATE_BUSY false).rd g := by
    intro g
    rw [State.dryOver, State.endDry, hd, if_pos rfl]
    rfl
  refine ⟨?_, ?_, ?_⟩ <;>
    simp (disch := decide) only [State.on, hr, State.put, State.rd_wr_apart, State.rd_wr_same] <;> rfl

theorem State.dryComplete_done (hd : s.on R.DEV_STATE_DRY_ACTIVE = true) (hb : s.rd R.DRY_STATUS_ARM_BLOCKED = 0x3F) :
    s.dryComplete = s.dryOver.goto St.energised (if s.on R.DRY_STATUS_DRY_FORCED then Cause.dryTimeout else Cause.dryDone) s.transPeriod := by
  rw [State.dryComplete, hd, hb]
  rfl

theorem State.dryComplete_on (hb : s.rd R.DRY_STATUS_ARM_BLOCKED ≠ 0x3F) : s.dryComplete = s := by
  rw [State.dryComplete, beq_false_of_ne hb, Bool.and_false, State.when_false]

/-- An arm that blocks stays blocked, and completes the dry-down exactly where it was the last. -/
theorem State.dryComplete_shows (hd : s.on R.DEV_STATE_DRY_ACTIVE = true) :
    s.dryComplete.rd R.DRY_STATUS_ARM_BLOCKED = s.rd R.DRY_STATUS_ARM_BLOCKED ∧
    (s.rd R.DRY_STATUS_ARM_BLOCKED = 0x3F → s.dryComplete.st = St.energised ∧ s.dryComplete.on R.DEV_STATE_DRY_ACTIVE = false ∧ s.dryComplete.on R.DEV_STATE_BUSY = false) ∧
    (s.rd R.DRY_STATUS_ARM_BLOCKED ≠ 0x3F → s.dryComplete.st = s.st) := by
  by_cases hb : s.rd R.DRY_STATUS_ARM_BLOCKED = 0x3F
  · obtain ⟨harm, hact, hbusy⟩ := State.dryOver_shows hd
    rw [State.dryComplete_done hd hb, State.goto_rd _ _ _ _ (by decide) (by decide) (by decide) (by decide),
      State.goto_on _ _ _ _ (by decide) (by decide) (by decide) (by decide), State.goto_on _ _ _ _ (by decide) (by decide) (by decide) (by decide)]
    exact ⟨harm, fun _ => ⟨State.goto_st _ _ _ _ (by decide), hact, hbusy⟩, fun h => absurd hb h⟩
  · rw [State.dryComplete_on hb]
    exact ⟨rfl, fun h => absurd h hb, fun _ => rfl⟩

/-- The state in which every arm is to block. -/
def State.dryForced (s : State) : State :=
  { s.put R.DRY_STATUS_DRY_FORCED true with sys := { s.sys with dry := { s.sys.dry with reversed := 0x3F } } }

theorem State.dryExpire_eq (hd : s.on R.DEV_STATE_DRY_ACTIVE = true) (hf : s.on R.DRY_STATUS_DRY_FORCED = false)
    (ht : s.sys.dry.accepted + s.rd R.DRYDOWN_CFG_DRY_TIMEOUT * 1000000 ≤ s.now) : s.dryExpire = s.dryForced.raise 44 := by
  rw [State.dryExpire, hd, hf, decide_eq_true ht]
  rfl

/-- Settles O12: the deadline refuses, the boundary enters ENERGISED, and a dry-down waits, blocks arm by arm, or is forced. -/
theorem preparationAndDryDownAdvance : Obligations.PreparationAndDryDownAdvance := by
  refine ⟨fun s q p hq hp ht hd => ?_, fun s q x hq hb hdone hstaged hsafe => ?_, fun s hd hp hc => ?_, fun s a hd hrev hblk => ?_, fun s hd hf ht => ?_⟩
  · have he : exec .prepDeadline s = .next (s.energiseFails 0xD) := by
      have hx : exec .prepDeadline s = .next s.prepDeadline := rfl
      rw [hx, State.prepDeadline, hq]
      dsimp only
      rw [decide_eq_true ht, hd]
      rfl
    exact ⟨_, he, State.energiseFails_shows hp (by decide)⟩
  · obtain ⟨hst, hsys⟩ := s.energiseNow_shows q s.commandCause hsafe
    have hdue : s.energiseDue = s.energiseNow q s.commandCause := by
      rw [State.energiseDue, hq]
      dsimp only
      rw [hb, hdone, hstaged]
      rfl
    have hcom : s.energiseDue.sys.committed = true := by rw [hdue, hsys]; rfl
    have he : exec (.energiseTakesEffect x) s = .next (s.energiseDue.sampleInputs x) := by
      have hx : exec (.energiseTakesEffect x) s = execEnergiseTakesEffect x s := rfl
      rw [hx, execEnergiseTakesEffect, hq, Option.isSome_some, State.when_true]
      dsimp only
      rw [hcom, State.when_true]
    exact ⟨s.energiseDue, he, by rw [hdue, hst], hcom, by rw [hdue, hsys]; rfl, by rw [hdue, hsys]; rfl, by rw [hdue, hsys]; rfl, by rw [hdue, hsys]; rfl⟩
  · have he : exec .dryWaitEnd s = .next s.dryWaitEnd := rfl
    refine ⟨_, he, ?_⟩
    rw [State.dryWaitEnd_eq hd hp hc]
    refine ⟨?_, ?_, fun a ha hen => ?_⟩
    · rw [State.rd_wr_apart _ _ _ _ (by decide) (by decide), State.rd_wr_same _ _ _ (by decide)]
      rfl
    · rw [State.st, State.rd_wr_apart _ _ _ _ (by decide) (by decide), State.rd_wr_apart _ _ _ _ (by decide) (by decide)]
      rfl
    · rw [State.bit_wr _ _ (by decide) ha, bitOf_eq_testBit, Nat.testBit_or, ← bitOf_eq_testBit, ← bitOf_eq_testBit, bitOf_maskOf, getD_map_upto _ ha, hen]
      exact Bool.or_true _
  · have he : exec (.dryArmBlock a) s = .next (s.putBit R.DRY_STATUS_ARM_BLOCKED a true).dryComplete := by
      have hx : exec (.dryArmBlock a) s = .next (s.dryArmBlock a) := rfl
      rw [hx, State.dryArmBlock, hd, hrev, hblk]
      rfl
    obtain ⟨harm, hlast, hmore⟩ := State.dryComplete_shows (s := s.putBit R.DRY_STATUS_ARM_BLOCKED a true)
      (by rw [State.on, State.rd_putBit_apart _ _ _ _ _ (by decide) (by decide), ← State.on, hd])
    refine ⟨_, he, ?_, fun h => hlast (harm ▸ h), fun h => (hmore (harm ▸ h)).trans (State.rd_putBit_apart _ _ _ _ _ (by decide) (by decide))⟩
    rw [State.bit, harm, ← State.bit, State.bit_putBit_same _ _ _ _ (by decide) a.isLt]
  · obtain ⟨hw, _, _, _, _, _, hsys⟩ := s.dryForced.raise_reacts 44
    refine ⟨_, (show exec .dryTimeout s = .next s.dryExpire from rfl).trans (congrArg Host.Outcome.next (State.dryExpire_eq hd hf ht)), ?_, ?_⟩
    · rw [hw.on (by decide)]
      exact State.on_put_same s R.DRY_STATUS_DRY_FORCED true (by decide) rfl
    · rw [hsys]
      rfl

end Sys2Proof.Machine
end

section
/-! O10: the state commands of R31 to R35 that are accepted. -/

namespace Sys2Proof.Machine

variable {s t : State} {g : Fld}

/-! ### The answer of a command -/

/-- The answer to a command only sends. -/
theorem State.answer_same (s : State) (via : Via) (d a : Nat) :
    (s.answer via d a).regs = s.regs ∧ (s.answer via d a).sys = s.sys ∧ (s.answer via d a).mem = s.mem ∧ (s.answer via d a).cells = s.cells ∧
    (s.answer via d a).isl = s.isl := by
  cases via <;> exact ⟨rfl, rfl, rfl, rfl, rfl⟩

/-- What holds of registers, state machine, memory, cells and island as a command is accepted holds of the state it answers. -/
theorem reaches_commanded {P : State → Prop} {via : Via} {x : State × Nat} (h : x = (t, 0))
    (hP : ∀ u : State, u.regs = t.regs → u.sys = t.sys → u.mem = t.mem → u.cells = t.cells → u.isl = t.isl → P u) : Reaches (commanded via x) P := by
  obtain ⟨h1, h2, h3, h4, h5⟩ := t.answer_same via 0 0
  rw [h]
  exact ⟨_, rfl, hP _ h1 h2 h3 h4 h5⟩

theorem State.st_congr (h : t.regs = s.regs) : t.st = s.st := State.rd_congr _ _ h _

theorem State.on_congr (h : t.regs = s.regs) (g : Fld) : t.on g = s.on g := by rw [State.on, State.rd_congr _ _ h, State.on]

/-- A command that passes its gate finds the state it starts from. -/
theorem State.st_of_gate {l : List Nat} (h : s.gateCode l = 0) : s.st ∈ l := by
  unfold State.gateCode at h
  split at h
  · exact absurd h (by decide)
  · split at h
    · exact absurd h (by decide)
    · split at h
      next hc => simpa using hc
      next => exact absurd h (by decide)

/-! ### CONFIGURE -/

theorem State.settled_rd (s : State) (h : R.DEV_STATE_BUSY.apart g = true) : s.settled.rd g = s.rd g := by
  have hx : s.settled.rd g = (s.put R.DEV_STATE_BUSY false).rd g := rfl
  rw [hx, State.rd_put_apart _ _ _ _ (by decide) h]

theorem State.settled_busy (s : State) : s.settled.on R.DEV_STATE_BUSY = false := State.on_put_same _ _ _ (by decide) rfl

theorem State.goto_prev (s : State) (dst cause per : Nat) : (s.goto dst cause per).rd R.DEV_STATE_PREV = s.st := by
  rw [State.goto, State.rd_wr_apart _ _ _ _ (by decide) (by decide), State.rd_wr_apart _ _ _ _ (by decide) (by decide),
    State.rd_wr_apart _ _ _ _ (by decide) (by decide), State.rd_wr_same _ _ _ (by decide)]
  exact Nat.mod_eq_of_lt (State.rd_lt s R.DEV_STATE_STATE)

theorem State.configure_accepted (h : s.gateCode [St.safeHold] = 0) (hc : s.configureCode = 0) (h2 : s.twoPhase = false) :
    s.configure = (s.configureNow Cause.command, 0) := by
  simp [State.configure, h, hc, h2]

theorem State.configureNow_keeps (s : State) (cause : Nat) : Keeps [.regs, .sent, .sys] s (s.configureNow cause) :=
  keeps_goto _ _ _ _ (by decide) (keeps_settled _ (by decide) (.refl _ _))

theorem State.configureNow_shows (s : State) :
    (s.configureNow Cause.command).st = St.configured ∧ (s.configureNow Cause.command).rd R.DEV_STATE_PREV = s.st ∧
    (s.configureNow Cause.command).rd R.STATE_CAUSE_CAUSE = 5 ∧ (s.configureNow Cause.command).on R.DEV_STATE_BUSY = false := by
  unfold State.configureNow
  refine ⟨State.goto_st _ _ _ _ (by decide), (State.goto_prev _ _ _ _).trans (s.settled_rd (by decide)), State.goto_cause _ _ _ _ (by decide), ?_⟩
  rw [State.goto_on _ _ _ _ (by decide) (by decide) (by decide) (by decide), State.settled_busy]

/-! ### Commands that wait for their boundary -/

/-- A command that waits, stand-alone, for a period. -/
theorem State.acceptCommand_waits (h : s.twoPhase = false) (cmd target p : Nat) :
    s.acceptCommand cmd target p = ({ s with sys := { s.sys with pend := some { cmd := cmd, target := target, atPeriod := some p } } } : State).put R.DEV_STATE_BUSY true := by
  rw [State.acceptCommand, h]
  rfl

theorem State.acceptCommand_shows (h : s.twoPhase = false) (cmd target p : Nat) :
    (s.acceptCommand cmd target p).st = s.st ∧ (s.acceptCommand cmd target p).on R.DEV_STATE_BUSY = true ∧
    (s.acceptCommand cmd target p).sys.pend = some { cmd := cmd, target := target, atPeriod := some p } ∧
    ∀ g, R.DEV_STATE_BUSY.apart g = true → (s.acceptCommand cmd target p).on g = s.on g := by
  rw [State.acceptCommand_waits h]
  refine ⟨State.rd_put_apart _ _ _ _ (by decide) (by decide), State.on_put_same _ _ _ (by decide) rfl, rfl, fun g hg => ?_⟩
  rw [State.on, State.rd_put_apart _ _ _ _ (by decide) hg]
  rfl

theorem State.deblock_accepted (h : s.gateCode [St.energised] = 0) (hc : s.deblockCode = 0) :
    s.deblock = ((s.put R.DRY_STATUS_DRY_FORCED false).acceptCommand Cmd.deblock St.deblocked (s.sys.period + if s.sys.leDone then 2 else 1), 0) := by
  simp [State.deblock, h, hc]

theorem State.clear_accepted (h : s.gateCode [St.faultBlock] = 0) (hc : s.clearCode = 0) :
    s.clear = (s.acceptCommand Cmd.clear St.energised (s.sys.period + 1), 0) := by
  simp [State.clear, h, hc]

theorem State.deenergise_accepted (h : s.gateCode [St.energised, St.faultBlock] = 0) (hc : s.deenergiseCode = 0) :
    s.deenergise = (s.acceptCommand Cmd.deenergise St.configured (s.sys.period + 1), 0) := by
  simp [State.deenergise, h, hc]

/-! ### DRYDOWN -/

/-- The unit with its dry-down command pending. -/
def State.dryPending (s : State) : State :=
  { s with sys := { s.sys with pend := some { cmd := Cmd.drydown, target := St.energised, atPeriod := none } } }

theorem State.dryPending_st (s : State) : s.dryPending.st = s.st := rfl

theorem State.drydown_accepted (h : s.gateCode [St.deblocked] = 0) (h2 : s.twoPhase = false) : s.drydown = (s.dryPending.startDry, 0) := by
  simp [State.drydown, h, h2, State.dryPending]

/-- The registers of a dry-down that starts. -/
def State.dryStarted (s : State) : State :=
  (((s.put R.DEV_STATE_BUSY true).put R.DEV_STATE_DRY_ACTIVE true).wr R.DRY_STATUS_PHASE 1).wr R.DRY_STATUS_ARM_BLOCKED 0

theorem State.startDry_eq (s : State) : s.startDry =
    s.dryStarted.withSys { s.dryStarted.sys with dry := { count := 0, accepted := s.dryStarted.now, above := 0, below := 0, reversed := 0 } } := rfl

theorem State.startDry_rd (s : State) (g : Fld) : s.startDry.rd g = s.dryStarted.rd g := by rw [State.startDry_eq, State.withSys_rd]

theorem State.startDry_shows (s : State) :
    s.startDry.st = s.st ∧ s.startDry.on R.DEV_STATE_BUSY = true ∧ s.startDry.on R.DEV_STATE_DRY_ACTIVE = true ∧ s.startDry.rd R.DRY_STATUS_PHASE = 1 ∧
    s.startDry.rd R.DRY_STATUS_ARM_BLOCKED = 0 ∧ s.startDry.sys.dry.count = 0 := by
  refine ⟨?_, ?_, ?_, ?_, ?_, rfl⟩ <;>
    simp (disch := decide) only [State.st, State.on, State.startDry_rd, State.dryStarted, State.put, State.rd_wr_apart, State.rd_wr_same] <;> rfl

/-! ### ENERGISE (R25, R37, R38) -/

/-- The words that the fit check, the commit and the requests of the preparation may write. -/
def energiseWord (a : Nat) : Bool :=
  decide (a < 0x40400000) || (decide (0x40404000 ≤ a) && decide (a < 0x41000000)) || (decide (0x41100104 ≤ a) && decide (a < 0x4110011C))

theorem energiseWord_iff {a : Nat} : energiseWord a = true ↔ a < 0x40400000 ∨ (0x40404000 ≤ a ∧ a < 0x41000000) ∨ (0x41100104 ≤ a ∧ a < 0x4110011C) := by
  simp [energiseWord, or_assoc]

def byEnergise : Fld → Bool := near [R.ACD_STATUS_ACT_MIN] energiseWord

theorem within_byEnergise {f : Fld} (h : energiseWord f.addr = true) (hf : f.inWord = true) : f.Within byEnergise := Fld.within_of_word h hf

theorem actMin_within : R.ACD_STATUS_ACT_MIN.Within byEnergise := Fld.within_of_mem (List.mem_singleton_self _) (by decide)

theorem State.showLevels_writes (s : State) : State.Writes byEnergise s s.showLevels := by
  refine State.forL_keeps (State.Writes byEnergise s) _ _ (fun l hl t ht => ?_) s (.refl _ _)
  have hlt : l < 2048 := by
    unfold State.levelEntries at hl
    split at hl
    · exact (List.mem_range.mp hl).trans (State.rd_lt s R.ACD_CFG_LVLS)
    · exact absurd hl List.not_mem_nil
  have hw : energiseWord (0x40404008 + 0x100 * l) = true := energiseWord_iff.mpr (by omega)
  exact (ht.wr (within_byEnergise hw rfl) _).wr (within_byEnergise hw rfl) _

/-- The report of the fit check, once it is decided. -/
theorem State.fitCheck_writes (s : State) (above : Nat) : State.Writes byEnergise s (s.fitCheck above).1 := by
  unfold State.fitCheck
  extract_lets ports long worst port tc ds window own all short ceOver acdOver ok hs s1 s2 s3 s4 s5 ca le ml
  have h1 : State.Writes byEnergise s s1 := s.showLevels_writes
  have h2 : State.Writes byEnergise s s2 :=
    ((h1.wr (within_byEnergise (by decide) (by decide)) _).wr (within_byEnergise (by decide) (by decide)) _).wr (within_byEnergise (by decide) (by decide)) _
  have h3 : State.Writes byEnergise s s3 := (h2.wr (within_byEnergise (by decide) (by decide)) _).wr actMin_within _
  have h4 : State.Writes byEnergise s s4 :=
    ((h3.put (within_byEnergise (by decide) (by decide)) _).put (within_byEnergise (by decide) (by decide)) _).put (within_byEnergise (by decide) (by decide)) _
  have h5 : State.Writes byEnergise s s5 := (h4.put (within_byEnergise (by decide) (by decide)) _).put (within_byEnergise (by decide) (by decide)) _
  refine h5.when fun u => ?_
  exact ((((State.Writes.refl _ u).wr (within_byEnergise (by decide) (by decide)) _).wr (within_byEnergise (by decide) (by decide)) _).wr
    (within_byEnergise (by decide) (by decide)) _).wr (within_byEnergise (by decide) (by decide)) _

/-- A control period that is not set fails the fit check. -/
theorem State.fitCheck_tc (s : State) (above : Nat) (h : (s.fitCheck above).2 = true) : 0 < s.rd R.PERIOD_CFG_TC := by
  by_contra h0
  have hz : s.rd R.PERIOD_CFG_TC = 0 := by omega
  unfold State.fitCheck at h
  simp [hz] at h

/-- ENERGISE whose checks pass has passed the fit check. -/
theorem State.energiseCode_zero (h : (s.energiseCode 0).2 = 0) : (s.energiseCode 0).1 = (s.fitCheck 0).1 ∧ 0 < s.rd R.PERIOD_CFG_TC := by
  refine ⟨rfl, s.fitCheck_tc 0 ?_⟩
  unfold State.energiseCode at h
  by_contra hf
  simp only [Bool.not_eq_true] at hf
  simp [hf] at h

/-- The commit writes the order of the contexts, and no register of the system block. -/
theorem State.commit_writes (s : State) : State.Writes byEnergise s s.commit := by
  unfold State.commit
  extract_lets order depths s1 s2 s3
  have h1 : State.Writes byEnergise s s1 :=
    ((State.Writes.refl _ s).wr (within_byEnergise (by decide) (by decide)) _).wr (within_byEnergise (by decide) (by decide)) _
  have h2 : State.Writes byEnergise s s2 := by
    refine State.forN_keeps (State.Writes byEnergise s) 256 _ (fun i hi t ht => ?_) s1 h1
    have hw : energiseWord (0x4001000C + 0x40 * i) = true := energiseWord_iff.mpr (by omega)
    exact (ht.wr (within_byEnergise hw rfl) _).wr (within_byEnergise hw rfl) _
  have h3 : s3.regs = s2.regs := (keeps_commitKeys (F := [.lvl]) s2 (by decide) (.refl _ _)).1.2 .regs (by decide)
  clear_value s3 s2
  exact fun g hg => (State.rd_congr s3 _ rfl g).symm.trans ((State.rd_congr s3 s2 h3 g).trans (h2 g hg))

/-- The preparation for the boundary `p1`, before its requests. -/
def State.prepBase (s : State) (p1 : Nat) : State :=
  { s with lvl := { s.lvl with pAlign := 0, alignNext := none },
           sys := { s.sys with prep := some { p1 := p1, t1 := p1 * (s.rd R.PERIOD_CFG_TC * 500), accepted := s.now, dropped := [] } } }

theorem State.startPrep_eq (s : State) (p1 : Nat) : s.startPrep p1 =
    (s.prepBase p1).forL ((upto 48).filter (s.prepBase p1).strandInService) fun p x => x.ask p (x.prepWrites p (p1 * (s.rd R.PERIOD_CFG_TC * 500) % 2 ^ 32)) := rfl

theorem State.prepBase_regs (s : State) (p1 : Nat) : (s.prepBase p1).regs = s.regs := rfl

theorem State.prepBase_prep (s : State) (p1 : Nat) :
    (s.prepBase p1).sys.prep = some { p1 := p1, t1 := p1 * (s.rd R.PERIOD_CFG_TC * 500), accepted := s.now, dropped := [] } := rfl

theorem State.startPrep_keeps (s : State) (p1 : Nat) : State.Writes byEnergise s (s.startPrep p1) ∧ (s.startPrep p1).sys = (s.prepBase p1).sys := by
  obtain ⟨hw, hsys⟩ := State.PortsAsked.askAll (s.prepBase p1) _ (strandsInService_lt (s.prepBase p1)) fun p x => x.prepWrites p (p1 * (s.rd R.PERIOD_CFG_TC * 500) % 2 ^ 32)
  rw [State.startPrep_eq]
  refine ⟨fun g hg => (hw.rd fun q hq ha => ?_).trans (State.rd_congr _ _ (s.prepBase_regs p1) g), hsys⟩
  have hn := (Bool.or_eq_false_iff.1 hg).2
  rw [energiseWord_iff.mpr (by omega)] at hn
  exact absurd hn (by decide)

theorem State.commit_now (s : State) : s.commit.now = s.now := (keeps_commit (F := [.regs, .sys, .ctl, .lvl]) s (by decide) (.refl _ _)).1.2 .now (by decide)

/-- The pending ENERGISE. -/
def Sys.energising (x : Sys) : Sys := { x with pend := some { cmd := 2, target := St.energised, atPeriod := none } }

theorem State.energiseStarts_eq (s : State) (p1 : Nat) : s.energiseStarts p1 =
    ((s.commit.startPrep p1).withSys (s.commit.startPrep p1).sys.energising).put R.DEV_STATE_BUSY true := rfl

/-- What a preparation that starts leaves. -/
theorem State.energiseStarts_shows (s : State) (p1 : Nat) :
    (∀ g, byEnergise g = false → R.DEV_STATE_BUSY.apart g = true → (s.energiseStarts p1).rd g = s.rd g) ∧ (s.energiseStarts p1).on R.DEV_STATE_BUSY = true ∧
    (s.energiseStarts p1).sys.pend = some { cmd := 2, target := St.energised, atPeriod := none } ∧
    ∃ q, (s.energiseStarts p1).sys.prep = some q ∧ q.p1 = p1 ∧ q.t1 = p1 * (s.rd R.PERIOD_CFG_TC * 500) := by
  obtain ⟨hw, hsys⟩ := s.commit.startPrep_keeps p1
  have hx : (s.energiseStarts p1).sys = (s.commit.prepBase p1).sys.energising := by
    rw [State.energiseStarts_eq, State.put_sys, State.withSys_sys, hsys]
  have htc : s.commit.rd R.PERIOD_CFG_TC = s.rd R.PERIOD_CFG_TC := s.commit_writes _ (by decide)
  refine ⟨fun g hg hb => ?_, State.on_put_same _ _ _ (by decide) rfl, by rw [hx]; rfl, ?_⟩
  · rw [State.energiseStarts_eq, State.rd_put_apart _ _ _ _ (by decide) hb, State.withSys_rd, hw g hg, s.commit_writes g hg]
  · refine ⟨_, by rw [hx]; exact s.commit.prepBase_prep p1, rfl, ?_⟩
    rw [htc]

theorem le_ceilDiv_mul {a b : Nat} (hb : 0 < b) : a ≤ ceilDiv a b * b := by
  unfold ceilDiv
  have := Nat.div_add_mod (a + b - 1) b
  have := Nat.mod_lt (a + b - 1) hb
  rw [Nat.mul_comm]
  omega

/-- The state in which an accepted ENERGISE waits for its boundary. -/
def State.energising (s : State) : State := (s.fitCheck 0).1.energiseStarts (s.fitCheck 0).1.firstPeriod

/-- No demand of levels above. -/
def State.withoutAbove (s : State) : State := { s with acd := { s.acd with above := 0 } }

theorem State.withoutAbove_rd (s : State) (g : Fld) : s.withoutAbove.rd g = s.rd g := rfl

theorem State.withoutAbove_sys (s : State) : s.withoutAbove.sys = s.sys := rfl

theorem State.energise_accepted (h : s.gateCode [St.configured] = 0) (hc : (s.energiseCode 0).2 = 0) (h2 : s.energising.withoutAbove.twoPhase = false) :
    s.energise = (s.energising.withoutAbove, 0) := by
  have he : s.energiseCode 0 = ((s.fitCheck 0).1, 0) := Prod.ext (State.energiseCode_zero hc).1 hc
  unfold State.energising at h2 ⊢
  unfold State.energise
  rw [h, he]
  generalize (s.fitCheck 0).1 = x at h2 ⊢
  dsimp only
  generalize hu : x.energiseStarts x.firstPeriod = u at h2 ⊢
  have hw : u.withoutAbove.when u.withoutAbove.twoPhase (fun s => s.stageOwn Cmd.energise x.firstPeriod (s.energiseDeadline x.firstPeriod)) = u.withoutAbove := by
    rw [h2, State.when_false]
  exact Prod.ext hw rfl

/-- What an accepted ENERGISE leaves. -/
theorem State.energising_shows (hc : (s.energiseCode 0).2 = 0) :
    (∀ g, byEnergise g = false → R.DEV_STATE_BUSY.apart g = true → s.energising.rd g = s.rd g) ∧ s.energising.on R.DEV_STATE_BUSY = true ∧
    s.energising.sys.pend = some { cmd := 2, target := St.energised, atPeriod := none } ∧
    ∃ q, s.energising.sys.prep = some q ∧ q.t1 = q.p1 * (s.rd R.PERIOD_CFG_TC * 500) ∧ s.now + s.rd R.ENERGISE_CFG_PREP * 1000000 ≤ q.t1 := by
  obtain ⟨hrd, hbusy, hpend, q, hq, hp1, ht1⟩ := (s.fitCheck 0).1.energiseStarts_shows (s.fitCheck 0).1.firstPeriod
  have hfit := s.fitCheck_writes 0
  have hnow : (s.fitCheck 0).1.now = s.now := (keeps_fitCheck (F := [.regs]) s 0 (by decide) (.refl _ _)).1.2 .now (by decide)
  have htc := hfit R.PERIOD_CFG_TC (by decide)
  have hp : (s.fitCheck 0).1.firstPeriod = ceilDiv (s.now + s.rd R.ENERGISE_CFG_PREP * 1000000) (s.rd R.PERIOD_CFG_TC * 500) := by
    rw [State.firstPeriod, hnow, htc, hfit R.ENERGISE_CFG_PREP (by decide)]
  have hpos := (State.energiseCode_zero hc).2
  refine ⟨fun g hg hb => (hrd g hg hb).trans (hfit g hg), hbusy, hpend, q, hq, by rw [ht1, hp1, htc], ?_⟩
  rw [ht1, htc, hp]
  exact le_ceilDiv_mul (by omega)

/-! ### RESTART -/

theorem State.restart_accepted (h : s.gateCode [St.safeHold, St.configured, St.faultBlock] = 0) (h2 : s.twoPhase = false) :
    s.restart 0x5A5A = (s.restartNow, 0) := by
  simp [State.restart, h, h2]

theorem State.restartNow_shows (hh : s.sys.rstHigh = true) (hb : s.sys.supplyBad = 0) :
    s.restartNow.st = St.selfTest ∧ s.restartNow.sys.selfTest = true ∧ s.restartNow.cells = s.cells ∧ s.restartNow.isl = s.isl := by
  have hk := (s.enterReset_keeps Cause.restart).1.2
  have hsys : (s.enterReset Cause.restart).sys = s.resetBase.sys := hk .sys (by decide)
  obtain ⟨hst, _, p, q, r, c, u, hs⟩ := State.endReset_shows (s := s.enterReset Cause.restart)
    ⟨s.enterReset_st _, by rw [hsys]; exact hh, by rw [hsys]; exact hb⟩
  have he := (keeps_endReset (F := [.regs, .sent, .sys, .tie, .flt, .acq, .mem]) (s.enterReset Cause.restart) (by decide) (.refl _ _)).1.2
  refine ⟨hst, (congrArg Sys.selfTest hs).trans rfl, (he .cells (by decide)).trans ((hk .cells (by decide)).trans rfl), (he .isl (by decide)).trans ((hk .isl (by decide)).trans rfl)⟩

/-- Settles O10: an accepted command takes its branch of R31 to R35, and its answer only sends. -/
theorem acceptedStateCommandsTakeEffect : Obligations.AcceptedStateCommandsTakeEffect := by
  refine ⟨fun s via h hc h2 => ?_, fun s via h hc h2 => ?_, fun s via h hc h2 => ?_, fun s via h h2 => ?_, fun s via h hc h2 => ?_, fun s via h hc h2 => ?_,
    fun s via h h2 hh hb => ?_⟩
  · obtain ⟨hst, hprev, hcause, hbusy⟩ := s.configureNow_shows
    have hk := (s.configureNow_keeps Cause.command).1.2
    refine reaches_commanded (State.configure_accepted h hc h2) fun u hr hs hm hcells _ => ⟨?_, ?_, ?_, ?_, hm.trans (hk .mem (by decide)), hcells.trans (hk .cells (by decide))⟩
    · rw [State.st_congr hr, hst]
    · rw [State.rd_congr _ _ hr, hprev]
      simpa using State.st_of_gate h
    · rw [State.rd_congr _ _ hr, hcause]
    · rw [State.on_congr hr, hbusy]
  · obtain ⟨hrd, hbusy, hpend, hprep⟩ := State.energising_shows hc
    have htwo : s.energising.withoutAbove.twoPhase = false := by
      rw [State.twoPhase, State.on, State.on, State.withoutAbove_rd, State.withoutAbove_rd, hrd _ (by decide) (by decide), hrd _ (by decide) (by decide)]
      exact h2
    refine reaches_commanded (State.energise_accepted h hc htwo) fun u hr hs _ _ _ => ⟨?_, ?_, ?_, ?_⟩
    · rw [State.st_congr hr, State.st, State.withoutAbove_rd, hrd _ (by decide) (by decide), ← State.st]
      simpa using State.st_of_gate h
    · rw [State.on_congr hr, State.on, State.withoutAbove_rd]
      exact hbusy
    · rw [hs, State.withoutAbove_sys, hpend]
    · rw [hs, State.withoutAbove_sys]
      exact hprep
  · have htwo : (s.put R.DRY_STATUS_DRY_FORCED false).twoPhase = false := by
      rw [State.twoPhase, State.on, State.rd_put_apart _ _ _ _ (by decide) (by decide), State.on, State.rd_put_apart _ _ _ _ (by decide) (by decide)]
      exact h2
    obtain ⟨hst, hbusy, hpend, hkeep⟩ := State.acceptCommand_shows htwo Cmd.deblock St.deblocked (s.sys.period + if s.sys.leDone then 2 else 1)
    refine reaches_commanded (State.deblock_accepted h hc) fun u hr hs _ _ _ => ⟨?_, ?_, ?_, ?_⟩
    · rw [State.st_congr hr, hst, State.st, State.rd_put_apart _ _ _ _ (by decide) (by decide), ← State.st]
      simpa using State.st_of_gate h
    · rw [State.on_congr hr, hbusy]
    · rw [State.on_congr hr, hkeep _ (by decide), State.on_put_same _ _ _ (by decide) rfl]
    · rw [hs, hpend]
      rfl
  · obtain ⟨hst, hbusy, hact, hph, harm, hcount⟩ := s.dryPending.startDry_shows
    refine reaches_commanded (State.drydown_accepted h h2) fun u hr hs _ _ _ => ⟨?_, ?_, ?_, ?_, ?_, ?_⟩
    · rw [State.st_congr hr, hst, State.dryPending_st]
      simpa using State.st_of_gate h
    · rw [State.on_congr hr, hbusy]
    · rw [State.on_congr hr, hact]
    · rw [State.rd_congr _ _ hr, hph]
    · rw [State.rd_congr _ _ hr, harm]
    · rw [hs, hcount]
  · obtain ⟨hst, hbusy, hpend, _⟩ := State.acceptCommand_shows h2 Cmd.clear St.energised (s.sys.period + 1)
    refine reaches_commanded (State.clear_accepted h hc) fun u hr hs _ _ _ => ⟨?_, ?_, ?_⟩
    · rw [State.st_congr hr, hst]
      simpa using State.st_of_gate h
    · rw [State.on_congr hr, hbusy]
    · rw [hs, hpend]
      rfl
  · obtain ⟨hst, hbusy, hpend, _⟩ := State.acceptCommand_shows h2 Cmd.deenergise St.configured (s.sys.period + 1)
    refine reaches_commanded (State.deenergise_accepted h hc) fun u hr hs _ _ _ => ⟨?_, ?_, ?_⟩
    · rw [State.st_congr hr, hst]
    · rw [State.on_congr hr, hbusy]
    · rw [hs, hpend]
      rfl
  · obtain ⟨hst, hself, hcells, hisl⟩ := State.restartNow_shows hh hb
    refine reaches_commanded (State.restart_accepted h h2) fun u hr hs _ hc hi => ⟨?_, ?_, ?_, ?_⟩
    · rw [State.st_congr hr, hst]
    · rw [hs, hself]
    · rw [hc, hcells]
    · rw [hi, hisl]

end Sys2Proof.Machine
end

section
/-! O20: the window of the level engine and the commands on its cells and on LVL_SYNC_IN (R123 to R126, R135, R138, R147, R150, R346). -/

namespace Sys2Proof.Machine

variable {s t : State} {k : Nat}

/-! ### The build leaves the switching counts marked as halved -/

theorem State.onView_decayed (s : State) (k : Nat) (f : View → View) : (s.onView k f).lvl.decayed = s.lvl.decayed := rfl

theorem State.onArm_decayed (s : State) (a : Nat) (f : ArmL → ArmL) : (s.onArm a f).lvl.decayed = s.lvl.decayed := rfl

theorem State.decay_decayed (s : State) : s.decay.lvl.decayed = true := by
  unfold State.decay
  split
  next h => exact h
  next => rfl

theorem State.testCells_decayed (s : State) : s.testCells.lvl.decayed = s.lvl.decayed :=
  State.forL_keeps (fun t => t.lvl.decayed = s.lvl.decayed) _ (fun k s => s.onView k fun v => s.testCell k v) (fun k _ t h => h) s rfl

theorem State.raiseAt_lvl (s : State) (i a m d : Nat) : (s.raiseAt i a m d).lvl = s.lvl :=
  (keeps_raiseAt (F := [.regs, .sent, .sys, .tie, .flt, .acq, .mem]) s i a m d (by decide) (.refl _ _)).1.2 .lvl (by decide)

theorem State.requestBypass_decayed (s : State) (k : Nat) : (s.requestBypass k).lvl.decayed = s.lvl.decayed := by
  unfold State.requestBypass
  dsimp only
  rw [State.raiseAt_lvl]
  rfl

theorem State.bypassRequests_decayed (s : State) : s.bypassRequests.lvl.decayed = s.lvl.decayed := by
  unfold State.bypassRequests
  refine State.forL_keeps (fun t => t.lvl.decayed = s.lvl.decayed) _ _ (fun k _ t h => ?_) s rfl
  have hd : (t.bypassDone k).lvl.decayed = s.lvl.decayed := State.when_keeps (fun u => u.lvl.decayed = s.lvl.decayed) t _ _ h h
  exact State.when_keeps (fun u => u.lvl.decayed = s.lvl.decayed) _ _ _ hd ((State.requestBypass_decayed _ _).trans hd)

theorem State.keepRecord_decayed (s : State) (a k : Nat) (r : List Byte) : (s.keepRecord a k r).lvl.decayed = s.lvl.decayed := by
  unfold State.keepRecord
  exact State.when_keeps (fun u => u.lvl.decayed = s.lvl.decayed) _ _ _ rfl rfl

theorem State.buildSorted_decayed (s : State) (a n prev i : Nat) : (s.buildSorted a n prev i).lvl.decayed = s.lvl.decayed := by
  unfold State.buildSorted
  exact State.forL_keeps (fun t => t.lvl.decayed = s.lvl.decayed) _ _ (fun k _ t h => (State.keepRecord_decayed _ _ _ _).trans h) s rfl

theorem State.buildCarrier_decayed (s : State) (a uc n prev : Nat) : (s.buildCarrier a uc n prev).lvl.decayed = s.lvl.decayed := by
  unfold State.buildCarrier
  refine State.forL_keeps (fun t => t.lvl.decayed = s.lvl.decayed) _ _ (fun k _ t h => ?_) s rfl
  split
  · dsimp only
    split
    · exact (State.keepRecord_decayed _ _ _ _).trans h
    · exact (State.keepRecord_decayed _ _ _ _).trans h
  · exact (State.keepRecord_decayed _ _ _ _).trans h

theorem State.buildArm_decayed (s : State) (a : Nat) : (s.buildArm a).1.lvl.decayed = s.lvl.decayed := by
  unfold State.buildArm
  extract_lets i neg zc s1 s2 s3 avail cause s4 s5 s6 s7 u lo c sat uc n prev x s8 s9 s10
  have h2 : s2.lvl.decayed = s.lvl.decayed := by
    rw [State.onArm_decayed, State.wr_lvl, State.wr_lvl, State.wr_lvl]
  clear_value s2 s1
  have h3 : s3.lvl.decayed = s.lvl.decayed := by
    refine State.foldl_keeps (fun t => t.lvl.decayed = s.lvl.decayed) _ _ (fun t k h => ?_) s2 h2
    exact h
  clear_value s3
  have h6 : s6.lvl.decayed = s.lvl.decayed := by
    rw [State.wr_lvl, State.wr_lvl, State.putBit_lvl, State.put_lvl, State.put_lvl, State.wr_lvl, State.wr_lvl, h3]
  clear_value s6
  have h7 : (s7.forL (s7.armCells a) fun k s => s.keepRecord a k (recordOf 0 (s.view k).bypReq [0, 0, 0, 0])).lvl.decayed = s.lvl.decayed :=
    State.forL_keeps (fun t => t.lvl.decayed = s.lvl.decayed) _ _ (fun k _ t h => (State.keepRecord_decayed _ _ _ _).trans h) _
      (by rw [State.onArm_decayed, State.wr_lvl, State.setWord_lvl, h6])
  have h8 : s8.lvl.decayed = s.lvl.decayed := by
    rw [State.wr_lvl, State.wr_lvl, State.wr_lvl, State.wr_lvl, h6]
  clear_value s7 s8
  have h9 : s9.lvl.decayed = s.lvl.decayed := by
    simp only [s9]
    split
    · exact (State.buildCarrier_decayed _ _ _ _ _).trans h8
    · exact (State.buildSorted_decayed _ _ _ _ _).trans h8
  clear_value s9
  have h10 : (s10.when sat fun s => s.put (R.ARM_STATUS_INS_SAT a) true).lvl.decayed = s.lvl.decayed :=
    State.when_keeps (fun t => t.lvl.decayed = s.lvl.decayed) _ _ _ h9 h9
  clear_value s10
  split
  next y b hx =>
    have hy : y.lvl.decayed = s.lvl.decayed := by
      split at hx
      · exact (Prod.mk.inj hx).1 ▸ h7
      · exact (Prod.mk.inj hx).1 ▸ h10
    exact hy

theorem State.causeIs_lvl (s : State) (i : Nat) (b : Bool) : (s.causeIs i b).lvl = s.lvl :=
  (keeps_causeIs (F := [.regs, .sent, .sys, .tie, .flt, .acq, .mem]) s i b (by decide) (.refl _ _)).1.2 .lvl (by decide)

theorem State.raise_lvl (s : State) (i : Nat) : (s.raise i).lvl = s.lvl := s.raiseAt_lvl i 0 0 0

/-- One arm of the build, with the flag of saturation. -/
def buildTurn (x : State × Bool) (a : Nat) : State × Bool := ((x.1.buildArm a).1, x.2 || (x.1.buildArm a).2)

theorem buildTurns_decayed (l : List Nat) (x : State × Bool) (h : x.1.lvl.decayed = true) : (l.foldl buildTurn x).1.lvl.decayed = true := by
  induction l generalizing x with
  | nil => exact h
  | cons a l ih => exact ih _ ((State.buildArm_decayed _ _).trans h)

/-- The events of the build. -/
def State.buildEvents (x : State × Bool) : State :=
  (x.1.causeIs 40 ((upto 6).any fun a => x.1.on (R.ARM_STATUS_SHORT a))).when x.2 fun s => s.raise 43

theorem State.buildLevels_eq (s : State) : s.buildLevels = State.buildEvents ((upto 6).foldl buildTurn (s.decay.testCells.bypassRequests, false)) := rfl

theorem State.buildLevels_decayed (s : State) : s.buildLevels.lvl.decayed = true := by
  rw [State.buildLevels_eq]
  have h := buildTurns_decayed (upto 6) (s.decay.testCells.bypassRequests, false)
    ((State.bypassRequests_decayed _).trans ((State.testCells_decayed _).trans s.decay_decayed))
  generalize (upto 6).foldl buildTurn (s.decay.testCells.bypassRequests, false) = x at h ⊢
  unfold State.buildEvents
  refine State.when_keeps (fun t => t.lvl.decayed = true) _ _ _ ?_ ?_
  · rw [State.causeIs_lvl, h]
  · rw [State.raise_lvl, State.causeIs_lvl, h]

/-! ### The window -/

theorem State.commitChange_rd (s : State) (p : Nat) {g : Fld} (h : 0x41100000 ≤ g.addr) : (s.commitChange p).rd g = s.rd g := by
  have hm : R.ACD_MODE_P_P_ACT.addr < 0x41100000 ∧ R.ACD_MODE_RESULT.addr < 0x41100000 ∧ R.ACD_STATUS_PH.addr < 0x41100000 := by decide
  rw [State.commitChange, State.rd_wr_far _ _ (by omega), State.rd_wr_far _ _ (by omega), State.rd_wr_far _ _ (by omega)]
  exact State.rd_congr _ s rfl g

theorem State.commitOwn_regs (s : State) : s.commitOwn.regs = s.regs ∨ ∃ p, s.commitOwn.regs = (s.commitChange p).regs := by
  unfold State.commitOwn
  split
  · exact .inl rfl
  · split
    · dsimp only
      exact .inr ⟨_, rfl⟩
    · exact .inl rfl

theorem State.commitOwn_rd (s : State) {g : Fld} (h : 0x41100000 ≤ g.addr) : s.commitOwn.rd g = s.rd g := by
  rcases s.commitOwn_regs with hr | ⟨p, hr⟩
  · exact State.rd_congr _ _ hr g
  · exact (State.rd_congr _ _ hr g).trans (s.commitChange_rd p h)

theorem State.stageDeadline_regs (s : State) : s.stageDeadline.regs = s.regs :=
  (keeps_stageDeadline (F := [.acd]) s (by decide) (.refl _ _)).1.2 .regs (by decide)

/-- The mode changes of the window leave the state and the role. -/
theorem State.modes_rd (s : State) {g : Fld} (h : 0x41100000 ≤ g.addr) : s.commitOwn.stageDeadline.rd g = s.rd g := by
  rw [State.rd_congr _ _ s.commitOwn.stageDeadline_regs, State.commitOwn_rd s h]

theorem State.computes_of_service (h : s.inService = true) (hr : s.role ≠ Role.relay) : s.computes = true := by
  rw [State.computes, h, bne_iff_ne.mpr hr]
  rfl

/-- What the window computes, once the changes of the accord are decided. -/
def State.levelComputed (s : State) : State :=
  ((((s.drySample).when (s.drySample.shadows && !s.drySample.tie.lvlw) State.bridgePeriod).plannedYield.sendLvlw).buildLevels).sendDigest.sendSweep

theorem State.levelComputed_decayed (s : State) : s.levelComputed.lvl.decayed = true := by
  have hsweep : ∀ u : State, u.sendDigest.sendSweep.lvl = u.lvl := fun u =>
    ((keeps_sendSweep (F := [.sent, .tie]) u.sendDigest (by decide) (.refl _ _)).1.2 .lvl (by decide)).trans
      ((keeps_sendDigest (F := [.regs, .sent, .sys, .tie, .flt, .acq, .mem]) u (by decide) (.refl _ _)).1.2 .lvl (by decide))
  unfold State.levelComputed
  rw [hsweep, State.buildLevels_decayed]

/-- The window is over. -/
def State.levelOver (s : State) : State := s.sendModes.withSys { s.sendModes.sys with leDone := true }

theorem State.levelWindow_eq (s : State) : s.levelWindow =
    (if s.commitOwn.stageDeadline.computes then s.commitOwn.stageDeadline.levelComputed else s.commitOwn.stageDeadline.sendLvlw).levelOver := rfl

/-! ### A request for bypass -/

/-- The record of a cell with BYP_REQ. -/
def bypassRecord (r : List Byte) : List Byte := patch r 0 [BitVec.ofNat 8 (Machine.putBit (byteAt r 0) 4 true)]

theorem bypassRecord_bit (r : List Byte) : bitOf (byteAt (bypassRecord r) 0) 4 = true := by
  have h : byteAt (bypassRecord r) 0 = Machine.putBit (byteAt r 0) 4 true % 2 ^ 8 := rfl
  rw [h, bitOf_mod_two_pow (by decide), bitOf_putBit_same]

/-- The view and the record of a cell that is to be bypassed. -/
def State.bypassMarked (s : State) (k : Nat) : State :=
  { s.onView k (fun v => { v with bypReq := true }) with
    lvl := { (s.onView k fun v => { v with bypReq := true }).lvl with
      records := mapSet (fun _ => idleRecord) (s.onView k fun v => { v with bypReq := true }).lvl.records k
        (bypassRecord (mapGet (fun _ => idleRecord) s.lvl.records k)) } }

theorem State.requestBypass_eq (s : State) (k : Nat) : s.requestBypass k =
    (s.bypassMarked k).raiseAt 41 0 0 ((s.bypassMarked k).handle (k / 128) (k % 128)) := rfl

/-- A request for bypass shows in the view and in the record of its cell, and raises source 41. -/
theorem State.requestBypass_shows (s : State) (k : Nat) :
    ((s.requestBypass k).view k).bypReq = true ∧ bitOf (byteAt (mapGet (fun _ => idleRecord) (s.requestBypass k).lvl.records k) 0) 4 = true ∧
    (s.requestBypass k).cells = s.cells ∧ (s.requestBypass k).ctl = s.ctl := by
  have hk := (keeps_raiseAt (F := [.regs, .sent, .sys, .tie, .flt, .acq, .mem]) (s.bypassMarked k) 41 0 0 ((s.bypassMarked k).handle (k / 128) (k % 128)) (by decide)
    (.refl _ _)).1.2
  rw [State.requestBypass_eq, State.view, State.raiseAt_lvl]
  refine ⟨?_, ?_, (hk .cells (by decide)).trans rfl, (hk .ctl (by decide)).trans rfl⟩
  · have h : mapGet viewDefault (s.bypassMarked k).lvl.views k = { mapGet viewDefault s.lvl.views k with bypReq := true } :=
      mapGet_mapUpd_same viewDefault s.lvl.views k fun v => { v with bypReq := true }
    rw [h]
  · have h : mapGet (fun _ => idleRecord) (s.bypassMarked k).lvl.records k = bypassRecord (mapGet (fun _ => idleRecord) s.lvl.records k) := mapGet_mapSet_same _ _ _ _
    rw [h, bypassRecord_bit]

/-! ### Admission (R124) -/

/-- A change of a view is what it does to the view as it stands. -/
theorem State.onView_congr {f f' : View → View} (h : f (s.view k) = f' (s.view k)) : s.onView k f = s.onView k f' := by
  have hx : mapGet viewDefault s.lvl.views k = s.view k := rfl
  rw [State.onView, State.onView, mapUpd, mapUpd, hx, h]

/-! ### The decay of the switching counts (R135) -/

/-- What a loop over views leaves. -/
def State.SameButViews (s t : State) : Prop := ∃ v, t = { s with lvl := { s.lvl with views := v } }

theorem State.SameButViews.onView (h : s.SameButViews t) (k : Nat) (f : View → View) : s.SameButViews (t.onView k f) := by
  obtain ⟨v, rfl⟩ := h
  exact ⟨_, rfl⟩

theorem State.SameButViews.armCells (h : s.SameButViews t) (a : Nat) : t.armCells a = s.armCells a := by
  obtain ⟨v, rfl⟩ := h
  rfl

theorem State.SameButViews.decayDue (h : s.SameButViews t) (a : Nat) :
    (t.sys.period % 2 ^ t.rd (R.ARM_BAL_SW_DECAY a) == 0) = (s.sys.period % 2 ^ s.rd (R.ARM_BAL_SW_DECAY a) == 0) := by
  obtain ⟨v, rfl⟩ := h
  rfl

theorem State.SameButViews.regs (h : s.SameButViews t) : t.regs = s.regs := by
  obtain ⟨v, rfl⟩ := h
  rfl

theorem State.view_onView_same (s : State) (k : Nat) (f : View → View) : (s.onView k f).view k = f (s.view k) := mapGet_mapUpd_same _ _ _ _

theorem State.view_onView_ne (s : State) {k j : Nat} (h : k ≠ j) (f : View → View) : (s.onView j f).view k = s.view k := mapGet_mapSet_ne _ _ _ _ _ h

/-- One halving of a switching count. -/
def View.halve (v : View) : View := { v with swc := v.swc / 2 }

/-- The cells of an arm are halved once each. -/
theorem halveCells_view (l : List Nat) (hl : l.Nodup) (t : State) (k : Nat) :
    (t.forL l fun k s => s.onView k View.halve).view k = if k ∈ l then (t.view k).halve else t.view k := by
  induction l generalizing t with
  | nil => rfl
  | cons j l ih =>
    obtain ⟨hj, hl⟩ := List.nodup_cons.mp hl
    have hstep : t.forL (j :: l) (fun k s => s.onView k View.halve) = (t.onView j View.halve).forL l fun k s => s.onView k View.halve := rfl
    rw [hstep, ih hl]
    by_cases hkj : k = j
    · rw [hkj, if_neg hj, if_pos List.mem_cons_self, State.view_onView_same]
    · rw [State.view_onView_ne _ hkj]
      simp only [List.mem_cons, hkj, false_or]

theorem halveCells_same (h : s.SameButViews t) (l : List Nat) : s.SameButViews (t.forL l fun k s => s.onView k View.halve) :=
  State.forL_keeps s.SameButViews l _ (fun k _ _ hu => hu.onView k View.halve) t h

/-- One arm of the decay. -/
def State.decayArm (a : Nat) (s : State) : State :=
  s.when (s.sys.period % 2 ^ s.rd (R.ARM_BAL_SW_DECAY a) == 0) fun s => s.forL (s.armCells a) fun k s => s.onView k View.halve

/-- The counts are marked as halved in this period. -/
def State.halved (s : State) : State := { s with lvl := { s.lvl with decayed := true } }

theorem State.halved_view (s : State) (k : Nat) : s.halved.view k = s.view k := rfl

theorem State.decay_eq (h : s.lvl.decayed = false) : s.decay = (s.forN 6 State.decayArm).halved := by
  rw [State.decay, h, if_neg (by decide)]
  rfl

theorem State.armCells_nodup (h : mapSorted none s.lvl.levels = true) (a : Nat) : (s.armCells a).Nodup := by
  refine List.Nodup.filter _ ?_
  rw [mapKeys]
  have hp := ((mapSorted_iff none _).mp h).1
  exact List.pairwise_map.mpr (hp.imp fun hlt => Nat.ne_of_lt hlt)

theorem State.mem_armCells (a : Nat) (hk : (mapKeys s.lvl.levels).contains k = true) : k ∈ s.armCells a ↔ s.portArm (k / 128) = a := by
  simp only [State.armCells, List.mem_filter, beq_iff_eq, and_iff_right_iff_imp]
  exact fun _ => by simpa using hk

theorem State.decayArm_same (h : s.SameButViews t) (a : Nat) : s.SameButViews (t.decayArm a) :=
  State.when_keeps s.SameButViews t _ _ h (halveCells_same h _)

/-- The decay halves the count of a cell whose arm is due, once. -/
theorem State.decay_view (hs : mapSorted none s.lvl.levels = true) (hk : (mapKeys s.lvl.levels).contains k = true) (ha : s.portArm (k / 128) < 6)
    (hd : s.sys.period % 2 ^ s.rd (R.ARM_BAL_SW_DECAY (s.portArm (k / 128))) = 0) :
    (s.forN 6 State.decayArm).view k = (s.view k).halve ∧ s.SameButViews (s.forN 6 State.decayArm) := by
  have hother : ∀ j, j ≠ s.portArm (k / 128) → ∀ t, s.SameButViews t → (t.decayArm j).view k = t.view k := fun j hj t ht => by
    unfold State.decayArm
    refine State.when_keeps (fun u => u.view k = t.view k) t _ _ rfl ?_
    rw [halveCells_view _ (ht.armCells j ▸ State.armCells_nodup hs j), ht.armCells, if_neg]
    rw [State.mem_armCells j hk]
    exact fun h => hj h.symm
  refine State.forN_turn (fun t => t.view k = s.view k ∧ s.SameButViews t) (fun t => t.view k = (s.view k).halve ∧ s.SameButViews t) ha
    (fun j hj t ⟨hv, ht⟩ => ⟨(hother j (by omega) t ht).trans hv, State.decayArm_same ht j⟩) (fun t ⟨hv, ht⟩ => ⟨?_, State.decayArm_same ht _⟩)
    (fun j hj _ t ⟨hv, ht⟩ => ⟨(hother j (by omega) t ht).trans hv, State.decayArm_same ht j⟩) ⟨rfl, s.lvl.views, rfl⟩
  rw [State.decayArm, ht.decayDue, hd, beq_self_eq_true, State.when_true, halveCells_view _ (ht.armCells _ ▸ State.armCells_nodup hs _), ht.armCells,
    if_pos ((State.mem_armCells _ hk).mpr rfl), hv]

/-! ### Edges on LVL_SYNC_IN (R147) -/

theorem State.askFirst_word (s : State) {p a : Nat} (os : List Own) (h : a ≠ 0x40201034 + 0x100 * p) : (s.askFirst p os).word a = s.word a :=
  State.nextOwn_word _ h

theorem exec_syncEdge (h : s.inputsRun = true) (hl : s.st ≠ St.locked) : exec .lvlSyncInEdge s = .next s.syncEdge := by
  have he : exec .lvlSyncInEdge s = execLvlSyncInEdge s := rfl
  have hx : (s.st != St.reset && s.st != St.selfTest) = true := h
  rw [he, execLvlSyncInEdge, hx, bne_iff_ne.mpr hl]
  rfl

/-- The requests of an alignment to the carriers of a port. -/
def State.alignAsk (k p : Nat) (s : State) : State :=
  (s.when s.controls fun s => s.put R.DEV_STATE_BUSY true).askFirst p
    [own .align (reqAll 2 0 0x20018 (if s.crd (R.ARM_PSC_CAR_N (s.portArm p)) = 0 then 0 else k % s.crd (R.ARM_PSC_CAR_N (s.portArm p))))]

/-- The alignment that waits, and its mark. -/
def State.alignMarked (s : State) (k : Nat) : State :=
  { s with lvl := { s.lvl with alignNext := some k, syncErr := false } }.put R.SYNC_STATUS_ALIGNED true

theorem State.realign_eq (s : State) (k : Nat) : s.realign k = (s.alignMarked k).forL (s.alignMarked k).carrierPorts fun p s => s.alignAsk k p := rfl

theorem State.alignAsk_lvl (s : State) (k p : Nat) : (s.alignAsk k p).lvl = s.lvl := by
  rw [State.alignAsk, (keeps_askFirst (F := [.draws, .regs, .sent, .ports]) _ _ _ (by decide) (.refl _ _)).1.2 .lvl (by decide)]
  exact State.when_keeps (fun t => t.lvl = s.lvl) s _ _ rfl rfl

theorem State.alignAsk_rd (s : State) {k p : Nat} (hp : p < 48) {g : Fld} (hb : R.DEV_STATE_BUSY.apart g = true)
    (hg : g.addr < 0x40201000 ∨ 0x41100000 ≤ g.addr) : (s.alignAsk k p).rd g = s.rd g := by
  rw [State.alignAsk, State.rd, State.askFirst_word _ _ (by omega), ← State.rd]
  exact State.when_keeps (fun t => t.rd g = s.rd g) s _ _ rfl (State.rd_put_apart _ _ _ _ (by decide) hb)

/-- An alignment waits for its boundary and leaves the state. -/
theorem State.realign_shows (s : State) (k : Nat) :
    (s.realign k).lvl.alignNext = some k ∧ (s.realign k).on R.SYNC_STATUS_ALIGNED = true ∧ (s.realign k).st = s.st := by
  have hon : (s.alignMarked k).on R.SYNC_STATUS_ALIGNED = true := State.on_put_same _ _ _ (by decide) rfl
  have hst : (s.alignMarked k).st = s.st := State.rd_put_apart _ _ _ _ (by decide) (by decide)
  have hlvl : (s.alignMarked k).lvl.alignNext = some k := by rw [State.alignMarked, State.put_lvl]
  rw [State.realign_eq]
  refine State.forL_keeps (fun t => t.lvl.alignNext = some k ∧ t.on R.SYNC_STATUS_ALIGNED = true ∧ t.st = s.st) _ _ (fun p hp t ht => ?_) _ ⟨hlvl, hon, hst⟩
  obtain ⟨hl, ho, hs⟩ := ht
  have hp48 : p < 48 := List.mem_range.mp (List.mem_filter.mp hp).1
  refine ⟨by rw [State.alignAsk_lvl, hl], ?_, ?_⟩
  · rw [State.on, State.alignAsk_rd t hp48 (by decide) (by decide), ← State.on, ho]
  · rw [State.st, State.alignAsk_rd t hp48 (by decide) (by decide), ← State.st, hs]

/-- The mark of an edge that is no carrier start. -/
def State.syncErrMarked (s : State) : State := { s with lvl := { s.lvl with syncErr := true } }.put R.SYNC_STATUS_ERR true

theorem State.syncEdge_error (h1 : s.rd R.SYNC_CFG_IN_EN = 1) (hn : s.nearBoundary = some k) (hst : s.st = St.deblocked)
    (hbad : ((upto 6).any fun a => s.crd (R.ARM_CFG_EN a) == 1 && s.crd (R.ARM_CFG_MODE a) == 1 && !s.carrierStart a k) = true) :
    s.syncEdge = s.syncErrMarked.syncIgnored.when (!s.lvl.syncErr) fun s => s.raise 42 := by
  have hall : (((upto 6).filter fun a => s.crd (R.ARM_CFG_EN a) == 1 && s.crd (R.ARM_CFG_MODE a) == 1).all fun a => s.carrierStart a k) = false := by
    obtain ⟨a, ha, hx⟩ := List.any_eq_true.mp hbad
    simp only [Bool.and_eq_true, Bool.not_eq_true'] at hx
    obtain ⟨hx, hno⟩ := hx
    rw [List.all_eq_false]
    exact ⟨a, List.mem_filter.mpr ⟨ha, by simpa using hx⟩, by simp [hno]⟩
  unfold State.syncEdge
  rw [h1, if_neg (by decide), hn, hst]
  dsimp only
  rw [if_neg (by decide), if_pos (by decide), hall, if_neg (by decide)]
  rfl

theorem State.syncIgnored_rd (s : State) {g : Fld} (h : R.SYNC_STATUS_ERR_CNT.apart g = true) : s.syncIgnored.rd g = s.rd g :=
  State.rd_inc_apart _ _ _ _ (by decide) h

theorem State.syncErr_shows (s : State) (b : Bool) :
    (s.syncErrMarked.syncIgnored.when b fun s => s.raise 42).on R.SYNC_STATUS_ERR = true ∧
    (s.syncErrMarked.syncIgnored.when b fun s => s.raise 42).lvl = { s.lvl with syncErr := true } := by
  have hon : s.syncErrMarked.syncIgnored.on R.SYNC_STATUS_ERR = true := by
    rw [State.on, State.syncIgnored_rd _ (by decide), ← State.on]
    exact State.on_put_same _ _ _ (by decide) rfl
  have hl : s.syncErrMarked.syncIgnored.lvl = { s.lvl with syncErr := true } := by
    rw [State.syncIgnored, State.inc_lvl, State.syncErrMarked, State.put_lvl]
  refine State.when_keeps (fun t => t.on R.SYNC_STATUS_ERR = true ∧ t.lvl = { s.lvl with syncErr := true }) _ _ _ ⟨hon, hl⟩ ⟨?_, ?_⟩
  · rw [(State.raise_reacts _ 42).writes.on (by decide), hon]
  · rw [State.raise_lvl, hl]

theorem State.not_locked_of_runs {st : Nat} (h : s.st = st) (h' : st ≠ St.locked) : s.st ≠ St.locked := h ▸ h'

/-- Settles O20: the window builds, and each command acts on its cell, its arm or its edge as its rule says. -/
theorem levelEngineCommandsTakeEffect : Obligations.LevelEngineCommandsTakeEffect := by
  refine ⟨fun s hs hr => ?_, fun s id hs hl hc hn he => ?_, fun s id hs hl hc => ?_, fun s id hs hd => ?_, fun s id hs hd => ?_,
    fun s k hs hd hm hk ha hp => ?_, fun s hs hd => ?_, fun s id hs hl hd => ?_, fun s hrun hlk hen hn => ?_, fun s k hst hen hn => ?_,
    fun s k hst hen hn hbad => ?_⟩
  · have hrun := State.inputsRun_of_inService hs
    have hlk : s.st ≠ St.locked := by
      intro h
      rw [State.inService, h] at hs
      exact absurd hs (by decide)
    have he : exec .levelEngineWindow s = .next s.levelWindow := by
      have hx : exec .levelEngineWindow s = execLevelEngineWindow s := rfl
      rw [hx, execLevelEngineWindow, hrun, bne_iff_ne.mpr hlk]
      rfl
    have hst : s.commitOwn.stageDeadline.st = s.st := s.modes_rd (by decide)
    have hcomp : s.commitOwn.stageDeadline.computes = true := by
      refine State.computes_of_service ?_ ?_
      · rw [State.inService, hst]
        exact hs
      · rw [State.role, s.modes_rd (by decide)]
        exact hr
    have hk := (keeps_levelWindow (F := [.draws, .regs, .sent, .sys, .ports, .lvl, .tie, .acd, .flt, .acq, .mem]) s (by decide) (.refl _ _)).1.2
    refine ⟨_, he, ?_, ?_, hk .cells (by decide), hk .isl (by decide), hk .ctl (by decide)⟩
    · rw [State.levelWindow_eq]
      rfl
    · rw [State.levelWindow_eq, hcomp, if_pos rfl]
      have hm : ∀ u : State, u.levelOver.lvl = u.lvl := fun u =>
        (keeps_sendModes (F := [.draws, .regs, .sent, .sys, .ports, .acd]) u (by decide) (.refl _ _)).1.2 .lvl (by decide)
      rw [hm, State.levelComputed_decayed]
  · have hx : exec (.cellAdmission id) s = execCellAdmission id s := rfl
    have hgo : s.rd (R.ARM_MISS_ADMIT_N (s.portArm (keyOfExt id.toNat / 128))) ≤ (s.view (keyOfExt id.toNat)).runAdmit[0]?.getD 0 := by simpa using hn
    have hel : true ∉ (s.view (keyOfExt id.toNat)).eligible := fun h => by simpa using List.all_eq_true.mp he true h
    rw [hx, execCellAdmission, hs, hl]
    refine congrArg Host.Outcome.next ((State.when_true _ _).trans (State.onView_congr ?_))
    simp [hc, hl, hgo, hel, upto, List.range_succ]
  · have hx : exec (.cellMissIneligible id) s = execCellMissIneligible id s := rfl
    rw [hx, execCellMissIneligible, hs, hl]
    refine congrArg Host.Outcome.next ((State.when_true _ _).trans (State.onView_congr ?_))
    simp [hc, hl]
  · have hx : exec (.bypassRequest id) s = execBypassRequest id s := rfl
    exact ⟨_, by rw [hx, execBypassRequest, hs, hd]; rfl, s.requestBypass_shows _⟩
  · have hx : exec (.epochBypass id) s = execEpochBypass id s := rfl
    exact ⟨_, by rw [hx, execEpochBypass, hs, hd]; rfl, s.requestBypass_shows _⟩
  · have hx : exec .swcDecay s = execSwcDecay s := rfl
    obtain ⟨hv, hsame⟩ := State.decay_view hm hk ha hp
    refine ⟨(s.forN 6 State.decayArm).halved, by rw [hx, execSwcDecay, hs, State.when_true, State.decay_eq hd], ?_, rfl, hsame.regs⟩
    rw [State.halved_view, hv]
    rfl
  · have hx : exec .swcDecay s = execSwcDecay s := rfl
    rw [hx, execSwcDecay, hs, State.when_true, State.decay, hd, if_pos rfl]
  · have hx : exec (.rotationBar id) s = execRotationBar id s := rfl
    rw [hx, execRotationBar, hs, bne_iff_ne.mpr hl, hd]
    rfl
  · rw [exec_syncEdge hrun hlk, State.syncEdge, hen, if_neg (by decide), hn]
    rfl
  · have hrun : s.inputsRun = true := by rw [State.runs_iff, hst]; decide
    have hx : s.syncEdge = s.realign k := by
      rw [State.syncEdge, hen, if_neg (by decide), hn, hst]
      rfl
    exact ⟨_, by rw [exec_syncEdge hrun (State.not_locked_of_runs hst (by decide)), hx], s.realign_shows k⟩
  · have hrun : s.inputsRun = true := by rw [State.runs_iff, hst]; decide
    obtain ⟨hon, hlvl⟩ := s.syncErr_shows (!s.lvl.syncErr)
    exact ⟨_, by rw [exec_syncEdge hrun (State.not_locked_of_runs hst (by decide)), State.syncEdge_error hen hn hst hbad], hon, by rw [hlvl], by rw [hlvl], by rw [hlvl]⟩

end Sys2Proof.Machine
end

section
/-! O32: the events of the central inputs (R274, R277 to R284, R286). -/

namespace Sys2Proof.Machine

variable {s : State} {f g : Fld} {i n : Nat}

/-! ### What a raised source leaves of the inputs -/

/-- The words of the analogue, pulse, event and GPIO inputs. -/
def lineWord (a : Nat) : Bool :=
  (decide (0x40600000 ≤ a) && decide (a < 0x40700000)) || (decide (0x40F00000 ≤ a) && decide (a < 0x41000000))

theorem lineWord_iff {a : Nat} : lineWord a = true ↔ (0x40600000 ≤ a ∧ a < 0x40700000) ∨ (0x40F00000 ≤ a ∧ a < 0x41000000) := by
  simp only [lineWord, Bool.or_eq_true, Bool.and_eq_true, decide_eq_true_eq]

theorem byEvent_lineWord (h : lineWord g.addr = true) : byEvent g = false := by
  have h' := lineWord_iff.1 h
  have hw : sourceWord g.addr = false := Bool.eq_false_iff.2 fun hw => by
    rcases sourceWord_iff.1 hw with ⟨_, _⟩ | ⟨_, _, _⟩ <;> omega
  refine Bool.or_eq_false_iff.2 ⟨List.any_eq_false.2 fun f hf => ?_, hw⟩
  have hne : f.addr ≠ g.addr := fun he => by
    have hf' := (by decide : ∀ f ∈ reactionFlds, lineWord f.addr = false) f hf
    rw [he, h] at hf'
    cases hf'
  simp [Fld.apart_of_addr (f := f) (g := g) (Ne.symm hne)]

theorem State.raise_rd_input (s : State) (i : Nat) (h : lineWord g.addr = true) : (s.raise i).rd g = s.rd g :=
  (s.raise_reacts i).writes g (byEvent_lineWord h)

theorem State.raise_on_input (s : State) (i : Nat) (h : lineWord g.addr = true) : (s.raise i).on g = s.on g :=
  (s.raise_reacts i).writes.on (byEvent_lineWord h)

theorem State.raise_inp (s : State) (i : Nat) : (s.raise i).inp = s.inp :=
  (keeps_raise (F := [.regs, .sent, .sys, .tie, .flt, .acq, .mem]) s i (by decide) (.refl _ _)).1.2 .inp (by decide)

/-! ### One event counts at its source -/

theorem State.setLatch_evtCnt (s : State) (hi : i < 128) (c : Nat) : (s.setLatch i c).rd (R.FLT_SRC_ST_EVT_CNT i) = s.rd (R.FLT_SRC_ST_EVT_CNT i) := by
  rw [State.setLatch, State.rd_wr_apart _ _ _ _ rfl (by simp [Fld.apart, R.FLT_SRC_ST_LCLASS, R.FLT_SRC_ST_EVT_CNT]),
    State.rd_putBit_apart _ _ _ _ _ rfl (Fld.apart_of_addr (by dsimp only [R.FLT_SRC_ST_EVT_CNT, R.FLT_STAT_LATCH]; omega))]

theorem State.showEscalated_evtCnt (s : State) (hi : i < 128) : (s.showEscalated i).rd (R.FLT_SRC_ST_EVT_CNT i) = s.rd (R.FLT_SRC_ST_EVT_CNT i) := by
  rw [State.showEscalated, State.rd_putBit_apart _ _ _ _ _ rfl (Fld.apart_of_addr (by dsimp only [R.FLT_SRC_ST_EVT_CNT, R.FLT_ESC_ESC]; omega)),
    State.rd_put_apart _ _ _ _ rfl (by simp [Fld.apart, R.FLT_SRC_ST_ESC, R.FLT_SRC_ST_EVT_CNT])]

theorem State.fltEvent_evtCnt (s : State) (hi : i < 128) :
    (s.fltEvent i).rd (R.FLT_SRC_ST_EVT_CNT i) = Nat.min 65535 (s.rd (R.FLT_SRC_ST_EVT_CNT i) + 1) := by
  have hc : (s.countEvent i).rd (R.FLT_SRC_ST_EVT_CNT i) = Nat.min 65535 (s.rd (R.FLT_SRC_ST_EVT_CNT i) + 1) := by
    rw [State.rd_congr _ _ (State.countEvent_regs s i)]
    exact State.rd_wr_fits s rfl (Nat.lt_of_le_of_lt (Nat.min_le_left 65535 _) (show 65535 < 2 ^ 16 by decide))
  rw [State.fltEvent_eq]
  split
  · exact hc
  · refine State.when_keeps (fun t => t.rd (R.FLT_SRC_ST_EVT_CNT i) = _) _ _ _ ?_ ?_
    · rw [State.latchClass, State.setLatch_evtCnt _ hi, hc]
    · rw [State.showEscalated_evtCnt _ hi, State.latchClass, State.setLatch_evtCnt _ hi, hc]

/-- A fault of a SAR converter counts at source 53. -/
theorem State.raise_sarCount (s : State) :
    (s.raise 53).rd (R.FLT_SRC_ST_EVT_CNT 53) = Nat.min 65535 (s.rd (R.FLT_SRC_ST_EVT_CNT 53) + 1) := by
  have hlive : (s.noteLive 53).rd (R.FLT_SRC_ST_EVT_CNT 53) = s.rd (R.FLT_SRC_ST_EVT_CNT 53) :=
    State.when_keeps (fun t => t.rd (R.FLT_SRC_ST_EVT_CNT 53) = _) s _ _ rfl (State.rd_putBit_apart _ _ _ _ _ rfl (by decide))
  rw [State.raise, State.raiseAt, State.raiseAll_eq, (State.reactAll_reacts _ _ _).writes _ (by decide), State.latchAll_eq]
  exact (State.fltEvent_evtCnt (s.noteLive 53) (i := 53) (by decide)).trans (by rw [hlive])

/-! ### Analogue inputs -/

theorem State.sdClear_sees (s : State) (d : Nat) (run : Option Bool) :
    mapGet noneAt (s.sdClear d run).inp.sdBits d = [] ∧ mapGet (fun _ => none) (s.sdClear d run).inp.sdRun d = run :=
  ⟨mapGet_mapSet_same noneAt s.inp.sdBits d [], mapGet_mapSet_same (fun _ => none) s.inp.sdRun d run⟩

/-- A fault of a decimator shows, and its bits count anew (R277). -/
theorem State.sdFails (s : State) (d : Fin 24) (run : Option Bool) {f : Fld} (hf : f.addr = 0x40600408 + 0x10 * d.val) (hw : f.inWord = true) (h0 : f.width = 1)
    {t : State} (ht : t = ((s.sdClear d run).put f true).raise 54) :
    t.on f = true ∧ mapGet noneAt t.inp.sdBits d = [] ∧ mapGet (fun _ => none) t.inp.sdRun d = run ∧ t.rd (R.SD_RES_CODE d) = s.rd (R.SD_RES_CODE d) := by
  have hd := d.isLt
  obtain ⟨hb, hr⟩ := s.sdClear_sees d run
  have hi : t.inp = (s.sdClear d run).inp := by rw [ht, State.raise_inp, State.put_inp]
  rw [hi]
  refine ⟨?_, hb, hr, ?_⟩
  · rw [ht, State.raise_on_input _ _ (lineWord_iff.2 (by omega)), State.on_put_same _ _ _ hw h0]
  · rw [ht, State.raise_rd_input _ _ (lineWord_iff.2 (by dsimp only [R.SD_RES_CODE]; omega)), State.put, State.rd_wr_far _ _ (by rw [hf]; dsimp only [R.SD_RES_CODE]; omega)]
    exact State.rd_congr _ _ rfl _

/-! ### Pulse inputs -/

/-- The filtered levels of a pulse input as they are now. -/
def State.piLevels (s : State) (i : Nat) (a b : Bool) : State :=
  { s with inp := { s.inp with piA := Machine.putBit s.inp.piA i a, piB := Machine.putBit s.inp.piB i b } }

theorem State.piLevels_rd (s : State) (i : Nat) (a b : Bool) (g : Fld) : (s.piLevels i a b).rd g = s.rd g := rfl

theorem State.piLevels_on (s : State) (i : Nat) (a b : Bool) (g : Fld) : (s.piLevels i a b).on g = s.on g := rfl

theorem State.piLevels_sees (s : State) (i : Nat) (a b : Bool) :
    bitOf (s.piLevels i a b).inp.piA i = a ∧ bitOf (s.piLevels i a b).inp.piB i = b := ⟨bitOf_putBit_same _ _ _, bitOf_putBit_same _ _ _⟩

/-- Pulse and direction: each rise of the first line counts, by the level of the second (R278). -/
theorem State.piEdge_pulse (i : Nat) (b : Bool) (hm : s.rd (R.PI_CFG_MODE i) = 2) (ha : bitOf s.inp.piA i = false) :
    s.piEdge i true b = (s.piLevels i true b).piCount i (!b) := by
  rw [← State.piLevels_rd s i true b] at hm
  unfold State.piEdge
  rw [ha]
  extract_lets a₀ b₀ x t
  have ht : t = s.piLevels i true b := rfl
  clear_value t
  rw [← ht] at hm ⊢
  simp only [hm]
  exact if_pos rfl

/-- Quadrature: an edge of the first line alone counts (R278). -/
theorem State.piEdge_step (i : Nat) (hm : s.rd (R.PI_CFG_MODE i) = 3) (ha : bitOf s.inp.piA i = false) (hb : bitOf s.inp.piB i = false) :
    s.piEdge i true false = (s.piLevels i true false).piCount i true := by
  rw [← State.piLevels_rd s i true false] at hm
  unfold State.piEdge
  rw [ha, hb]
  extract_lets a₀ x t y f₁
  have ht : t = s.piLevels i true false := rfl
  clear_value t
  rw [← ht] at hm ⊢
  simp only [hm]
  exact (if_neg (by simp [a₀])).trans (if_pos rfl)

/-- Quadrature: both lines at once are no count but an illegal transition (R280). -/
theorem State.piEdge_illegal (i : Nat) (hm : s.rd (R.PI_CFG_MODE i) = 3) (ha : bitOf s.inp.piA i = false) (hb : bitOf s.inp.piB i = false) :
    s.piEdge i true true = (((s.piLevels i true true).inc (R.PI_STATUS_QERR_CNT i)).put (R.PI_STATUS_QERR i) true).when
      (!(s.piLevels i true true).on (R.PI_STATUS_QERR i)) fun s => s.raise 55 := by
  rw [← State.piLevels_rd s i true true] at hm
  unfold State.piEdge
  rw [ha, hb]
  extract_lets a₀ x t y f₁
  have ht : t = s.piLevels i true true := rfl
  clear_value t
  rw [← ht] at hm ⊢
  simp only [hm]
  exact if_pos rfl

theorem State.piCount_rd (i : Nat) (up : Bool) (h : s.on (R.PI_CFG_DIR_INV i) = false) :
    (s.piCount i up).rd (R.PI_CNT_CNT i) = (if up then s.rd (R.PI_CNT_CNT i) + 1 else s.rd (R.PI_CNT_CNT i) + (2 ^ 32 - 1)) % 2 ^ 32 := by
  unfold State.piCount
  extract_lets f
  rw [h]
  cases up
  · rw [if_neg (by decide), State.rd_wr_same _ _ _ rfl, if_neg (by decide)]
    norm_num [f, R.PI_CNT_CNT]
  · rw [if_pos (by decide), State.rd_wr_same _ _ _ rfl, if_pos rfl]
    rfl

theorem State.piCount_inp (s : State) (i : Nat) (up : Bool) : (s.piCount i up).inp = s.inp := by
  unfold State.piCount
  split <;> rw [State.wr_inp]

theorem kcRow_piCnt (i : Fin 4) : kcRow (0x4060080C + 0x20 * i.val) = some ⟨0x4060080c, 4, 0x20, 1, 4, [⟨0, 32, .rw, 0, .any⟩]⟩ := by
  revert i
  decide

/-! ### The event FIFO -/

/-- The words that show the front of the FIFO, for an empty one. -/
def State.showNone (s : State) : State :=
  ((s.setWord R.EVT_HEAD0_NS.addr 0).setWord R.EVT_HEAD1_SEC_LO.addr 0).setWord R.EVT_HEAD2_SEC_HI.addr 0

/-- The words that show the front of the FIFO, for its oldest event. -/
def State.showFront (s : State) (e : Evt) : State :=
  (((((s.wr R.EVT_HEAD0_NS (e.time % 1000000000)).wr R.EVT_HEAD1_SEC_LO (e.time / 1000000000 % 2 ^ 32)).wr
    R.EVT_HEAD2_SEC_HI (e.time / 1000000000 / 2 ^ 32)).wr R.EVT_HEAD2_LINE e.line).put R.EVT_HEAD2_RISE e.rise).put
      R.EVT_HEAD2_VALID true |>.put R.EVT_HEAD2_RELEASE e.release

/-- What is shown beside the depth. -/
def State.showHead (s : State) : List Evt → State
  | [] => s.showNone
  | e :: _ => s.showFront e

theorem State.showEvents_eq (s : State) : s.showEvents = (s.wr R.EVT_STATUS_DEPTH s.inp.fifo.length).showHead s.inp.fifo := by
  unfold State.showEvents
  extract_lets t
  have ht : s.wr R.EVT_STATUS_DEPTH s.inp.fifo.length = t := rfl
  rw [ht]
  have hi : t.inp.fifo = s.inp.fifo := by rw [← ht, State.wr_inp]
  clear_value t
  rw [hi]
  generalize s.inp.fifo = l
  clear hi ht
  cases l with
  | nil => rw [State.showHead, State.showNone]
  | cons e r => rw [State.showHead, State.showFront]

theorem State.showHead_inp (s : State) (l : List Evt) : (s.showHead l).inp = s.inp := by
  cases l with
  | nil => rw [State.showHead, State.showNone, State.setWord_inp, State.setWord_inp, State.setWord_inp]
  | cons e r => rw [State.showHead, State.showFront, State.put_inp, State.put_inp, State.put_inp, State.wr_inp, State.wr_inp, State.wr_inp, State.wr_inp]

theorem State.showHead_rd (s : State) (l : List Evt) (h : g.addr < 0x40F00014 ∨ 0x40F0001C < g.addr) : (s.showHead l).rd g = s.rd g := by
  have hne : ∀ a, 0x40F00014 ≤ a → a ≤ 0x40F0001C → g.addr ≠ a := fun a _ _ => by omega
  cases l with
  | nil =>
    rw [State.showHead, State.showNone, State.rd_setWord_ne _ _ _ (hne _ (by decide) (by decide)), State.rd_setWord_ne _ _ _ (hne _ (by decide) (by decide)),
      State.rd_setWord_ne _ _ _ (hne _ (by decide) (by decide))]
  | cons e r =>
    rw [State.showHead, State.showFront]
    simp only [State.put]
    rw [State.rd_wr_far _ _ (hne _ (by decide) (by decide)), State.rd_wr_far _ _ (hne _ (by decide) (by decide)),
      State.rd_wr_far _ _ (hne _ (by decide) (by decide)), State.rd_wr_far _ _ (hne _ (by decide) (by decide)),
      State.rd_wr_far _ _ (hne _ (by decide) (by decide)), State.rd_wr_far _ _ (hne _ (by decide) (by decide)),
      State.rd_wr_far _ _ (hne _ (by decide) (by decide))]

theorem State.showHead_valid (s : State) (l : List Evt) : (s.showHead l).on R.EVT_HEAD2_VALID = !l.isEmpty := by
  cases l with
  | nil =>
    rw [State.showHead, State.showNone, State.on, State.rd, State.word_setWord, if_pos (by decide)]
    rfl
  | cons e r =>
    rw [State.showHead, State.showFront]
    simp (disch := decide) only [State.on, State.put, State.rd_wr_apart, State.rd_wr_same]
    rfl

theorem State.showEvents_inp (s : State) : s.showEvents.inp = s.inp := by
  rw [State.showEvents_eq, State.showHead_inp, State.wr_inp]

/-- The words that show the front of the FIFO are all that it writes. -/
theorem State.showEvents_rd (s : State) (h : g.addr < 0x40F00010 ∨ 0x40F0001C < g.addr) : s.showEvents.rd g = s.rd g := by
  rw [State.showEvents_eq, State.showHead_rd _ _ (by omega), State.rd_wr_far _ _ (by dsimp only [R.EVT_STATUS_DEPTH]; omega)]

theorem State.showEvents_depth (h : s.inp.fifo.length < 2 ^ 9) : s.showEvents.rd R.EVT_STATUS_DEPTH = s.inp.fifo.length := by
  rw [State.showEvents_eq, State.showHead_rd _ _ (by decide), State.rd_wr_fits s rfl h]

theorem State.showEvents_valid (s : State) : s.showEvents.on R.EVT_HEAD2_VALID = !s.inp.fifo.isEmpty := by
  rw [State.showEvents_eq, State.showHead_valid]

/-! ### GPIO lines -/

/-- The history and the start of activity of a line take their values. -/
def State.withLine (s : State) (n : Nat) (h : List Nat) (since : Option Nat) : State :=
  { s with inp := { s.inp with edges := mapSet noneAt s.inp.edges n h, since := mapSet (fun _ => none) s.inp.since n since } }

theorem State.withLine_regs (s : State) (n : Nat) (h : List Nat) (x : Option Nat) : (s.withLine n h x).regs = s.regs := rfl

theorem State.withLine_now (s : State) (n : Nat) (h : List Nat) (x : Option Nat) : (s.withLine n h x).now = s.now := rfl

theorem State.withLine_fifo (s : State) (n : Nat) (h : List Nat) (x : Option Nat) : (s.withLine n h x).inp.fifo = s.inp.fifo := rfl

theorem State.withLine_edges (s : State) (n : Nat) (h : List Nat) (x : Option Nat) : mapGet noneAt (s.withLine n h x).inp.edges n = h :=
  mapGet_mapSet_same noneAt s.inp.edges n h

/-- The edges that a line remembers after one more now. -/
def State.lineHistory (s : State) (n : Nat) : List Nat :=
  (mapGet noneAt s.inp.edges n ++ [s.now]).drop ((mapGet noneAt s.inp.edges n).length + 1 - Nat.max 1 (s.rd (R.GPIO_RATE_RATE_N n)))

/-- One more edge now is an edge too many (R283). -/
def State.chatters (s : State) (n : Nat) : Bool :=
  decide (0 < s.rd (R.GPIO_RATE_RATE_N n)) && decide (s.rd (R.GPIO_RATE_RATE_N n) ≤ (mapGet noneAt s.inp.edges n).length) &&
    decide (s.now - (mapGet noneAt s.inp.edges n).getD ((mapGet noneAt s.inp.edges n).length - s.rd (R.GPIO_RATE_RATE_N n)) 0 <
      s.rd (R.GPIO_RATE_RATE_W n) * 1000)

/-- The line has taken its level, before anything is delivered. -/
def State.lineTaken (s : State) (n : Nat) (level : Bool) : State :=
  (((s.withLine n (s.lineHistory n) (if s.lineActive n level then some s.now else none)).put (R.GPIO_STATUS_RAW n) level).put
    (R.GPIO_STATUS_FILTERED n) level).when (!s.lineActive n level) fun s => s.put (R.GPIO_STATUS_STUCK n) false

/-- The line freezes, with its report where it was not frozen. -/
def State.freeze (s : State) (n : Nat) : State :=
  (s.inc (R.GPIO_STATUS_CHAT_CNT n)).when (!s.on (R.GPIO_STATUS_FROZEN n)) fun s =>
    ((s.put (R.GPIO_STATUS_FROZEN n) true).put (R.GPIO_STATUS_CHATTER n) true).raise 56

/-- The event of a filtered edge, where EDGE picks it (R281, R282). -/
def State.edgeEvent (s : State) (n : Nat) (level : Bool) : Option Evt :=
  if (if level then s.rd (R.GPIO_CFG_EDGE n) % 2 == 1 else decide (2 ≤ s.rd (R.GPIO_CFG_EDGE n))) then
    some { time := s.now - 4 * (s.rd (R.GPIO_CFG_FILT n) + 2), line := n, rise := level, release := false }
  else none

theorem State.gpioEdge_eq {level : Bool} (hd : s.on (R.GPIO_CFG_DIR n) = false) (hf : s.on (R.GPIO_STATUS_FILTERED n) = !level) :
    s.gpioEdge n level =
      if s.chatters n || (s.lineTaken n level).on (R.GPIO_STATUS_FROZEN n) then (s.lineTaken n level).freeze n
      else (s.lineTaken n level).deliver n level ((s.lineTaken n level).edgeEvent n level) := by
  unfold State.gpioEdge
  rw [hd, hf, if_neg (by cases level <;> decide)]
  rfl

theorem State.lineTaken_rd {level : Bool} (hr : (R.GPIO_STATUS_RAW n).apart g = true) (hf : (R.GPIO_STATUS_FILTERED n).apart g = true)
    (hs : (R.GPIO_STATUS_STUCK n).apart g = true) : (s.lineTaken n level).rd g = s.rd g := by
  rw [State.lineTaken]
  refine State.when_keeps (fun t => t.rd g = s.rd g) _ _ _ ?_ ?_
  · rw [State.rd_put_apart _ _ _ _ rfl hf, State.rd_put_apart _ _ _ _ rfl hr, State.rd_congr _ _ (State.withLine_regs _ _ _ _)]
  · rw [State.rd_put_apart _ _ _ _ rfl hs, State.rd_put_apart _ _ _ _ rfl hf, State.rd_put_apart _ _ _ _ rfl hr, State.rd_congr _ _ (State.withLine_regs _ _ _ _)]

theorem State.lineTaken_rd_far {level : Bool} (h : g.addr ≠ 0x40F0100C + 0x10 * n) : (s.lineTaken n level).rd g = s.rd g :=
  State.lineTaken_rd (Fld.apart_of_addr h) (Fld.apart_of_addr h) (Fld.apart_of_addr h)

theorem State.lineTaken_delivered {level : Bool} : (s.lineTaken n level).on (R.GPIO_STATUS_DELIVERED n) = s.on (R.GPIO_STATUS_DELIVERED n) := by
  rw [State.on, State.lineTaken_rd, State.on] <;> simp [Fld.apart, R.GPIO_STATUS_DELIVERED, R.GPIO_STATUS_RAW, R.GPIO_STATUS_FILTERED, R.GPIO_STATUS_STUCK]

theorem State.lineTaken_frozen {level : Bool} : (s.lineTaken n level).on (R.GPIO_STATUS_FROZEN n) = s.on (R.GPIO_STATUS_FROZEN n) := by
  rw [State.on, State.lineTaken_rd, State.on] <;> simp [Fld.apart, R.GPIO_STATUS_FROZEN, R.GPIO_STATUS_RAW, R.GPIO_STATUS_FILTERED, R.GPIO_STATUS_STUCK]

theorem State.lineTaken_filtered {level : Bool} : (s.lineTaken n level).on (R.GPIO_STATUS_FILTERED n) = level := by
  rw [State.lineTaken]
  refine State.when_keeps (fun t => t.on (R.GPIO_STATUS_FILTERED n) = level) _ _ _ (State.on_put_same _ _ _ rfl rfl) ?_
  rw [State.on_put_apart _ _ _ _ rfl (by simp [Fld.apart, R.GPIO_STATUS_FILTERED, R.GPIO_STATUS_STUCK]), State.on_put_same _ _ _ rfl rfl]

theorem State.lineTaken_inp {level : Bool} :
    (s.lineTaken n level).inp = (s.withLine n (s.lineHistory n) (if s.lineActive n level then some s.now else none)).inp := by
  rw [State.lineTaken]
  refine State.when_keeps (fun t => t.inp = _) _ _ _ ?_ ?_
  · rw [State.put_inp, State.put_inp]
  · rw [State.put_inp, State.put_inp, State.put_inp]

theorem State.lineTaken_now {level : Bool} : (s.lineTaken n level).now = s.now := by
  rw [State.lineTaken]
  refine State.when_keeps (fun t => t.now = _) _ _ _ ?_ ?_
  · rw [State.put_now, State.put_now, State.withLine_now]
  · rw [State.put_now, State.put_now, State.put_now, State.withLine_now]

/-- A line freezes without an event, and its levels stay. -/
theorem State.freeze_sees (s : State) (hn : n < 64) :
    (s.freeze n).inp = s.inp ∧ (s.freeze n).on (R.GPIO_STATUS_FILTERED n) = s.on (R.GPIO_STATUS_FILTERED n) ∧
      (s.freeze n).on (R.GPIO_STATUS_DELIVERED n) = s.on (R.GPIO_STATUS_DELIVERED n) ∧ (s.freeze n).on (R.GPIO_STATUS_FROZEN n) = true ∧
      (s.on (R.GPIO_STATUS_FROZEN n) = false → (s.freeze n).on (R.GPIO_STATUS_CHATTER n) = true) := by
  have hw : lineWord (0x40F0100C + 0x10 * n) = true := lineWord_iff.2 (by omega)
  have hc : ∀ (u : State) j, j < 16 → (u.inc (R.GPIO_STATUS_CHAT_CNT n)).on ⟨0x40F0100C + 0x10 * n, j, 1⟩ = u.on ⟨0x40F0100C + 0x10 * n, j, 1⟩ := fun u j hj =>
    State.on_wr_apart _ _ _ rfl (by simp [Fld.apart, R.GPIO_STATUS_CHAT_CNT]; omega)
  have hp : ∀ (u : State) i j, i < 16 → i ≠ j → (u.put ⟨0x40F0100C + 0x10 * n, i, 1⟩ true).on ⟨0x40F0100C + 0x10 * n, j, 1⟩ = u.on ⟨0x40F0100C + 0x10 * n, j, 1⟩ := fun u i j hi hij =>
    State.on_put_apart _ _ _ _ (by simp [Fld.inWord]; omega) (by simp [Fld.apart]; omega)
  rw [State.freeze]
  rcases Bool.eq_false_or_eq_true (s.on (R.GPIO_STATUS_FROZEN n)) with h | h
  · rw [h, Bool.not_true, State.when_false]
    refine ⟨State.wr_inp _ _ _, hc _ 1 (by decide), hc _ 2 (by decide), (hc _ 3 (by decide)).trans h, fun h' => by cases h'⟩
  · rw [h, Bool.not_false, State.when_true]
    refine ⟨?_, ?_, ?_, ?_, fun _ => ?_⟩
    · rw [State.raise_inp, State.put_inp, State.put_inp, State.inc, State.wr_inp]
    · exact (State.raise_on_input _ _ hw).trans ((hp _ 4 1 (by decide) (by decide)).trans ((hp _ 3 1 (by decide) (by decide)).trans (hc _ 1 (by decide))))
    · exact (State.raise_on_input _ _ hw).trans ((hp _ 4 2 (by decide) (by decide)).trans ((hp _ 3 2 (by decide) (by decide)).trans (hc _ 2 (by decide))))
    · exact (State.raise_on_input _ _ hw).trans ((hp _ 4 3 (by decide) (by decide)).trans (State.on_put_same _ (R.GPIO_STATUS_FROZEN n) true rfl rfl))
    · exact (State.raise_on_input _ _ hw).trans (State.on_put_same _ (R.GPIO_STATUS_CHATTER n) true rfl rfl)

/-- With no external source enabled none follows a line. -/
theorem State.externals_none (h : ∀ e, e < 8 → s.on (R.FLT_EXT_EN e) = false) (n : Nat) (rose : Bool) : s.externals n rose = s := by
  unfold State.externals
  extract_lets active
  refine State.forN_keeps (fun t => t = s) 8 _ (fun e he t ht => ?_) s rfl
  rw [ht, h e he, Bool.false_and, State.when_false]

/-- An event has entered the FIFO. -/
def State.entered (s : State) (e : Evt) : State := { s with inp := { s.inp with fifo := insertEvt e s.inp.fifo } }

theorem State.entered_regs (s : State) (e : Evt) : (s.entered e).regs = s.regs := rfl

theorem State.entered_fifo (s : State) (e : Evt) : (s.entered e).inp.fifo = insertEvt e s.inp.fifo := rfl

theorem State.addEvent_eq (e : Evt) (h : s.inp.fifo.length < 256) : s.addEvent e = (s.entered e).showEvents := by
  rw [State.addEvent, if_neg (by omega), State.entered]

theorem State.put_delivered_ext {level : Bool} (h : ∀ e, e < 8 → s.on (R.FLT_EXT_EN e) = false) (hn : n < 64) (e : Nat) (he : e < 8) :
    (s.put (R.GPIO_STATUS_DELIVERED n) level).on (R.FLT_EXT_EN e) = false := by
  rw [State.put, State.on_wr_far _ _ (by dsimp only [R.FLT_EXT_EN, R.GPIO_STATUS_DELIVERED]; omega), h e he]

theorem State.deliver_some {level : Bool} (h : ∀ e, e < 8 → s.on (R.FLT_EXT_EN e) = false) (hn : n < 64) (hl : s.inp.fifo.length < 256) (e : Evt) :
    s.deliver n level (some e) = ((s.put (R.GPIO_STATUS_DELIVERED n) level).entered e).showEvents := by
  have hx : (s.put (R.GPIO_STATUS_DELIVERED n) level).addEvent e = ((s.put (R.GPIO_STATUS_DELIVERED n) level).entered e).showEvents :=
    State.addEvent_eq e (by rw [State.put_inp]; exact hl)
  unfold State.deliver
  extract_lets was t u
  have ht : t = s.put (R.GPIO_STATUS_DELIVERED n) level := rfl
  have hu : u = t.addEvent e := rfl
  rw [← ht] at hx ⊢
  have hext : ∀ e, e < 8 → t.on (R.FLT_EXT_EN e) = false := fun e he => by rw [ht, State.put_delivered_ext h hn e he]
  clear_value u t
  rw [hu, hx]
  refine State.externals_none (fun k hk => ?_) _ _
  rw [State.on, State.showEvents_rd _ (by dsimp only [R.FLT_EXT_EN]; omega), State.rd_congr _ _ (State.entered_regs _ _)]
  exact hext k hk

theorem insertEvt_length (e : Evt) (l : List Evt) : (insertEvt e l).length = l.length + 1 := (insertEvt_perm e l).length_eq

/-- A delivered event shows, with the depth of the FIFO. -/
theorem State.shown_entered (hl : s.inp.fifo.length < 256) (e : Evt) :
    (s.entered e).showEvents.inp.fifo = insertEvt e s.inp.fifo ∧ (s.entered e).showEvents.rd R.EVT_STATUS_DEPTH = s.inp.fifo.length + 1 ∧
      ∀ g, 0x40F0001C < g.addr → (s.entered e).showEvents.rd g = s.rd g := by
  have hlen : (s.entered e).inp.fifo.length = s.inp.fifo.length + 1 := by rw [State.entered_fifo, insertEvt_length]
  refine ⟨by rw [State.showEvents_inp, State.entered_fifo], ?_, fun g hg => ?_⟩
  · rw [State.showEvents_depth (by rw [hlen]; omega), hlen]
  · rw [State.showEvents_rd _ (.inr hg), State.rd_congr _ _ (State.entered_regs _ _)]

/-! ### Writes of the lines and of the FIFO -/

theorem kcRow_stuck (n : Fin 64) : kcRow (0x40F01008 + 0x10 * n.val) = some ⟨0x40f01008, 64, 0x10, 1, 4, [⟨0, 16, .rw, 0, .any⟩]⟩ := by
  revert n
  decide

theorem kcRow_evtNext : kcRow 0x40F00020 = some ⟨0x40f00020, 1, 4, 1, 4, [⟨0, 1, .wo, 0, .any⟩]⟩ := rfl

/-- A word of one field that a write sets as it is. -/
theorem State.wouldStand_plain {r : RegRow} {a v w : Nat} (hk : kcRow a = some r) (hf : r.fields = [⟨0, w, .rw, 0, .any⟩]) :
    s.wouldStand a v = some (setBits (s.word a) 0 w (bitsOf v 0 w)) := by
  refine State.wouldStand_iff.2 ⟨r, hk, ?_⟩
  simp [RegRow.write, hf, FieldRow.after, Legal.ok]

/-- The count of a pulse input is written. -/
theorem exec_piCntPreset (i : Fin 4) (v : BitVec 32) (hr : s.role = Role.solo) (hrun : s.inputsRun = true) :
    exec (.piCntPreset i v) s = .next (s.setWord (R.PI_CNT_CNT i).addr v.toNat) := by
  have hi := i.isLt
  have hx : ∀ m w, (s.applyWrite m (0x4060080C + 0x20 * i.val) w v.toNat s.accepting).1 = s.setWord (R.PI_CNT_CNT i).addr v.toNat := fun m w => by
    have hq : (0x4060080C + 0x20 * i.val) / 0x100000 = 0x406 := by omega
    rw [State.applyWrite, hq]
    show (s.adcWrite _ _ _).1 = _
    rw [State.adcWrite, if_neg (by omega), if_neg (by omega), if_neg (by dsimp only [R.SDCLK_CFG_DIV]; omega), if_pos (by omega)]
    rfl
  exact congrArg Host.Outcome.next (State.regWrite_block hr hrun (by show ¬(_ ≤ 0x4060080C + 0x20 * i.val ∧ _); omega)
    (by show (0x4060080C + 0x20 * i.val) / _ ≠ _; omega) (by show 0x4060080C + 0x20 * i.val ≠ _; dsimp only [R.CELL_HP_HP]; omega)
    (State.wouldStand_plain (kcRow_piCnt i) rfl) (hx 0 _) ((s.role_setWord _ (by show 0x4060080C + 0x20 * i.val ≠ _; omega)).trans hr))

/-- A write of GPIO_STUCK sets its time, and the line starts anew (R286). -/
theorem exec_stuckWrite (n : Fin 64) (v : BitVec 32) (hr : s.role = Role.solo) (hrun : s.inputsRun = true) :
    exec (.gpioRateWrite n true v) s =
      .next ((s.setWord (R.GPIO_STUCK_MAX_ACT n).addr (setBits (s.word (R.GPIO_STUCK_MAX_ACT n).addr) 0 16 (bitsOf v.toNat 0 16))).lineRestart n) := by
  have hn := n.isLt
  have hx : ∀ m w, (s.applyWrite m (0x40F01008 + 0x10 * n.val) w v.toNat s.accepting).1 = (s.setWord (0x40F01008 + 0x10 * n.val) w).lineRestart n := fun m w => by
    have hq : (0x40F01008 + 0x10 * n.val) / 0x100000 = 0x40F := by omega
    have hl : (0x40F01008 + 0x10 * n.val - 0x40F01000) / 16 = n.val := by omega
    rw [State.applyWrite, hq]
    show (s.gpioWrite _ _ _).1 = _
    rw [State.gpioWrite, if_neg (by show _ ≠ 0x40F00020; omega), if_pos (by omega), hl]
  exact congrArg Host.Outcome.next (State.regWrite_block hr hrun (by show ¬(_ ≤ 0x40F01008 + 0x10 * n.val ∧ _); omega)
    (by show (0x40F01008 + 0x10 * n.val) / _ ≠ _; omega) (by show 0x40F01008 + 0x10 * n.val ≠ _; dsimp only [R.CELL_HP_HP]; omega)
    (State.wouldStand_plain (kcRow_stuck n) rfl) (hx 0 _) ((s.role_setWord _ (by show 0x40F01008 + 0x10 * n.val ≠ _; omega)).trans hr))

theorem State.lineRestart_sees (s : State) (n : Nat) :
    mapGet noneAt (s.lineRestart n).inp.edges n = [] ∧ (s.lineRestart n).regs = s.regs := ⟨mapGet_mapSet_same noneAt s.inp.edges n [], rfl⟩

/-- The FIFO without its oldest event. -/
def State.dropped1 (s : State) : State := { s with inp := { s.inp with fifo := s.inp.fifo.drop 1 } }

theorem State.nextEvent_eq (s : State) : s.nextEvent = s.dropped1.showEvents := rfl

theorem State.dropped1_regs (s : State) : s.dropped1.regs = s.regs := rfl

theorem State.dropped1_fifo (s : State) : s.dropped1.inp.fifo = s.inp.fifo.drop 1 := rfl

theorem exec_evtNext (hr : s.role = Role.solo) (hrun : s.inputsRun = true) : exec .evtNext s = .next s.nextEvent := by
  have hx : ∀ m w, (s.applyWrite m 0x40F00020 w 1 s.accepting).1 = s.nextEvent := fun m w => by
    rw [State.applyWrite]
    show (s.gpioWrite _ _ _).1 = _
    rw [State.gpioWrite, if_pos (by decide), show bitOf 1 0 = true from rfl, State.when_true]
  obtain ⟨w, hw⟩ := State.wouldStand_of_row kcRow_evtNext (by decide) s 1
  refine congrArg Host.Outcome.next (State.regWrite_block hr hrun (by decide) (by decide) (by decide) hw (hx 0 w) ?_)
  rw [State.role, State.nextEvent_eq, State.showEvents_rd _ (by decide), State.rd_congr _ _ s.dropped1_regs]
  exact hr

/-- A filtered edge that is no chatter is delivered, and becomes an event where EDGE picks it. -/
theorem State.gpioEdge_delivers (hn : n < 64) (hd : s.on (R.GPIO_CFG_DIR n) = false) (hf : s.on (R.GPIO_STATUS_FILTERED n) = false)
    (hr : s.rd (R.GPIO_RATE_RATE_N n) = 0) (hz : s.on (R.GPIO_STATUS_FROZEN n) = false) (he : s.rd (R.GPIO_CFG_EDGE n) % 2 = 1)
    (hl : s.inp.fifo.length < 256) (hx : ∀ e, e < 8 → s.on (R.FLT_EXT_EN e) = false) :
    s.gpioEdge n true = (((s.lineTaken n true).put (R.GPIO_STATUS_DELIVERED n) true).entered
      ⟨s.now - 4 * (s.rd (R.GPIO_CFG_FILT n) + 2), n, true, false⟩).showEvents := by
  have hc : s.chatters n = false := by rw [State.chatters, hr]; rfl
  have hedge : (s.lineTaken n true).rd (R.GPIO_CFG_EDGE n) = s.rd (R.GPIO_CFG_EDGE n) := State.lineTaken_rd_far (by dsimp only [R.GPIO_CFG_EDGE]; omega)
  have hfilt : (s.lineTaken n true).rd (R.GPIO_CFG_FILT n) = s.rd (R.GPIO_CFG_FILT n) := State.lineTaken_rd_far (by dsimp only [R.GPIO_CFG_FILT]; omega)
  have hev : (s.lineTaken n true).edgeEvent n true = some ⟨s.now - 4 * (s.rd (R.GPIO_CFG_FILT n) + 2), n, true, false⟩ := by
    rw [State.edgeEvent, if_pos rfl, hedge, he, hfilt, State.lineTaken_now, if_pos (by decide)]
  rw [State.gpioEdge_eq (level := true) hd hf, State.lineTaken_frozen, hz, hc, if_neg (by decide), hev]
  refine State.deliver_some (fun e h8 => ?_) hn ?_ _
  · rw [State.on, State.lineTaken_rd_far (by dsimp only [R.FLT_EXT_EN]; omega)]
    exact hx e h8
  · rw [State.lineTaken_inp, State.withLine_fifo]
    exact hl

/-- A second edge inside RATE_W with RATE_N = 1 freezes the line. -/
theorem State.gpioEdge_freezes {level : Bool} {at' : Nat} (hd : s.on (R.GPIO_CFG_DIR n) = false) (hf : s.on (R.GPIO_STATUS_FILTERED n) = !level)
    (hr : s.rd (R.GPIO_RATE_RATE_N n) = 1) (hh : mapGet noneAt s.inp.edges n = [at']) (hlt : s.now - at' < s.rd (R.GPIO_RATE_RATE_W n) * 1000) :
    s.gpioEdge n level = (s.lineTaken n level).freeze n ∧ s.lineHistory n = [s.now] := by
  have hc : s.chatters n = true := by
    rw [State.chatters, hr, hh, Bool.and_eq_true, Bool.and_eq_true]
    exact ⟨⟨rfl, rfl⟩, decide_eq_true hlt⟩
  constructor
  · rw [State.gpioEdge_eq hd hf, hc, Bool.true_or, if_pos rfl]
  · rw [State.lineHistory, hr, hh]
    rfl

/-- A release without a change of level leaves only the line thawed; with one it is delivered as a release event (R283). -/
theorem State.gpioRelease_eq (hn : n < 64) (hz : s.on (R.GPIO_STATUS_FROZEN n) = true)
    (ht : (mapGet noneAt s.inp.edges n).getLastD 0 + s.rd (R.GPIO_RATE_RATE_W n) * 1000 ≤ s.now)
    (hx : ∀ e, e < 8 → s.on (R.FLT_EXT_EN e) = false) (hl : s.inp.fifo.length < 256) :
    s.gpioRelease n = if s.on (R.GPIO_STATUS_FILTERED n) = s.on (R.GPIO_STATUS_DELIVERED n) then s.put (R.GPIO_STATUS_FROZEN n) false
      else (((s.put (R.GPIO_STATUS_FROZEN n) false).put (R.GPIO_STATUS_DELIVERED n) (s.on (R.GPIO_STATUS_FILTERED n))).entered
        ⟨s.now, n, s.on (R.GPIO_STATUS_FILTERED n), true⟩).showEvents := by
  have h1 : (s.put (R.GPIO_STATUS_FROZEN n) false).on (R.GPIO_STATUS_FILTERED n) = s.on (R.GPIO_STATUS_FILTERED n) :=
    State.on_put_apart _ _ _ _ rfl (by simp [Fld.apart, R.GPIO_STATUS_FILTERED, R.GPIO_STATUS_FROZEN])
  have h2 : (s.put (R.GPIO_STATUS_FROZEN n) false).on (R.GPIO_STATUS_DELIVERED n) = s.on (R.GPIO_STATUS_DELIVERED n) :=
    State.on_put_apart _ _ _ _ rfl (by simp [Fld.apart, R.GPIO_STATUS_DELIVERED, R.GPIO_STATUS_FROZEN])
  unfold State.gpioRelease
  extract_lets last t level
  have hlevel : level = s.on (R.GPIO_STATUS_FILTERED n) := h1
  have hput : t = s.put (R.GPIO_STATUS_FROZEN n) false := rfl
  have hnow : t.now = s.now := by rw [hput, State.put_now]
  rw [hz, decide_eq_true (show last + _ ≤ _ from ht), Bool.and_self, if_pos rfl, hnow, ← hput]
  rw [← hput] at h2
  have hdel : t.deliver n level (some ⟨s.now, n, level, true⟩) = ((t.put (R.GPIO_STATUS_DELIVERED n) level).entered ⟨s.now, n, level, true⟩).showEvents :=
    State.deliver_some (fun e he => by rw [hput, State.put, State.on_wr_far _ _ (by dsimp only [R.FLT_EXT_EN, R.GPIO_STATUS_FROZEN]; omega), hx e he]) hn
      (by rw [hput, State.put_inp]; exact hl) _
  clear_value level t last
  rw [hdel, hlevel, h2]
  by_cases he : s.on (R.GPIO_STATUS_FILTERED n) = s.on (R.GPIO_STATUS_DELIVERED n)
  · rw [if_pos (beq_iff_eq.2 he), if_pos he]
  · rw [if_neg (mt beq_iff_eq.1 he), if_neg he]

/-- A line that has been active for too long is stuck, with its report. -/
theorem State.gpioStuck_eq {at' : Nat} (ht : mapGet (fun _ => none) s.inp.since n = some at') (hm : s.rd (R.GPIO_STUCK_MAX_ACT n) ≠ 0)
    (hlt : at' + s.rd (R.GPIO_STUCK_MAX_ACT n) * 1000000 < s.now) (hs : s.on (R.GPIO_STATUS_STUCK n) = false) :
    s.gpioStuck n = ((s.put (R.GPIO_STATUS_STUCK n) true).put (R.GPIO_STATUS_STUCK_SEEN n) true).raise 57 := by
  unfold State.gpioStuck
  extract_lets m
  have hm' : m = s.rd (R.GPIO_STUCK_MAX_ACT n) := rfl
  clear_value m
  subst hm'
  rw [ht]
  dsimp only
  rw [if_pos ⟨hm, hlt, by rw [hs]; rfl⟩]

/-- Settles O32: each event of an input meets the branch of its rule that the hypotheses leave. -/
theorem centralInputEventsTakeEffect : Obligations.CentralInputEventsTakeEffect := by
  refine ⟨fun s n hrun _ _ => ?_, fun s d hrun hen _ _ => ?_, fun s d level hrun hen _ _ => ?_, fun s i hrun hm hinv ha hb => ?_,
    fun s i hrun hm ha hb _ _ => ?_, fun s i b hrun hm ha hinv => ?_, fun s i v hr0 hr1 hr => ?_, fun s n hrun hd hf hr hz he hl hx => ?_,
    fun s n level at' hrun hd hf hr hh hlt _ _ => ?_, fun s n hrun hz ht hx hl => ?_, fun s n at' hrun ht hm hlt hs _ _ => ?_,
    fun s n v hw hr hv => ?_, fun s e rest hr0 hr1 hr hfifo hl => ?_⟩
  · have hn := n.isLt
    have hw : lineWord (0x4060010C + 0x10 * n.val) = true := lineWord_iff.2 (by omega)
    have hres : lineWord (0x40600108 + 0x10 * n.val) = true := lineWord_iff.2 (by omega)
    have hx : exec (.sarFault n) s = .next (((s.put (R.SAR_STATUS_FAULT n) true).put (R.SAR_STATUS_STALE n) true).raise 53) :=
      (show exec (.sarFault n) s = execSarFault n s from rfl).trans (by rw [execSarFault, hrun, State.when_true])
    refine ⟨_, hx, ?_, ?_, ?_, ?_⟩
    · rw [State.raise_on_input _ _ hw, State.on_put_apart _ _ _ _ rfl (by simp [Fld.apart, R.SAR_STATUS_FAULT, R.SAR_STATUS_STALE]), State.on_put_same _ _ _ rfl rfl]
    · rw [State.raise_on_input _ _ hw, State.on_put_same _ _ _ rfl rfl]
    · rw [State.raise_rd_input _ _ hres, State.put, State.put, State.rd_wr_far _ _ (by dsimp only [R.SAR_RES_CODE, R.SAR_STATUS_STALE]; omega),
        State.rd_wr_far _ _ (by dsimp only [R.SAR_RES_CODE, R.SAR_STATUS_FAULT]; omega)]
    · have hc : ∀ (u : State) (f : Fld) b, f.addr < 0x40700000 → (u.put f b).rd (R.FLT_SRC_ST_EVT_CNT 53) = u.rd (R.FLT_SRC_ST_EVT_CNT 53) := fun u f b hf =>
        State.rd_wr_far _ _ (by show 0x40800408 + 0x10 * 53 ≠ f.addr; omega)
      rw [State.raise_sarCount, hc _ _ _ (by dsimp only [R.SAR_STATUS_STALE]; omega), hc _ _ _ (by dsimp only [R.SAR_STATUS_FAULT]; omega)]
  · have hx : exec (.sdClkLoss d) s = .next (((s.sdClear d none).put (R.SD_STATUS_CLK_LOSS d) true).raise 54) :=
      (show exec (.sdClkLoss d) s = execSdClkLoss d s from rfl).trans (by rw [execSdClkLoss, hrun, hen, Bool.and_self, State.when_true])
    exact ⟨_, hx, s.sdFails d none rfl rfl rfl rfl⟩
  · have hx : exec (.sdModFault d level) s = .next (((s.sdClear d (some level)).put (R.SD_STATUS_MOD_FAULT d) true).raise 54) :=
      (show exec (.sdModFault d level) s = execSdModFault d level s from rfl).trans (by rw [execSdModFault, hrun, hen, Bool.and_self, State.when_true])
    obtain ⟨hst, hb, hr, _⟩ := s.sdFails d (some level) (f := R.SD_STATUS_MOD_FAULT d) rfl rfl rfl rfl
    exact ⟨_, hx, hst, hb, hr⟩
  · have hx : exec (.piEdge i true false) s = .next ((s.piLevels i true false).piCount i true) :=
      (show exec (.piEdge i true false) s = execPiEdge i true false s from rfl).trans (by rw [execPiEdge, hrun, State.when_true, State.piEdge_step i hm ha hb])
    refine ⟨_, hx, ?_, ?_⟩
    · rw [State.piCount_rd (s := s.piLevels i true false) _ _ hinv, if_pos rfl, State.piLevels_rd]
    · rw [State.piCount_inp]
      exact s.piLevels_sees i true false
  · have hi := i.isLt
    have hw : lineWord (0x40600810 + 0x20 * i.val) = true := lineWord_iff.2 (by omega)
    have hcnt : lineWord (0x4060080C + 0x20 * i.val) = true := lineWord_iff.2 (by omega)
    have hx : exec (.piEdge i true true) s = .next ((((s.piLevels i true true).inc (R.PI_STATUS_QERR_CNT i)).put (R.PI_STATUS_QERR i) true).when
        (!(s.piLevels i true true).on (R.PI_STATUS_QERR i)) fun s => s.raise 55) :=
      (show exec (.piEdge i true true) s = execPiEdge i true true s from rfl).trans (by rw [execPiEdge, hrun, State.when_true, State.piEdge_illegal i hm ha hb])
    refine ⟨_, hx, ?_, ?_, ?_⟩
    · have h : (((s.piLevels i true true).inc (R.PI_STATUS_QERR_CNT i)).put (R.PI_STATUS_QERR i) true).rd (R.PI_CNT_CNT i) = s.rd (R.PI_CNT_CNT i) := by
        rw [State.put, State.inc, State.rd_wr_far _ _ (by dsimp only [R.PI_CNT_CNT, R.PI_STATUS_QERR]; omega),
          State.rd_wr_far _ _ (by dsimp only [R.PI_CNT_CNT, R.PI_STATUS_QERR_CNT]; omega), State.piLevels_rd]
      exact State.when_keeps (fun t => t.rd (R.PI_CNT_CNT i) = s.rd (R.PI_CNT_CNT i)) _ _ _ h ((State.raise_rd_input _ _ hcnt).trans h)
    · have h := State.on_put_same ((s.piLevels i true true).inc (R.PI_STATUS_QERR_CNT i)) (R.PI_STATUS_QERR i) true rfl rfl
      exact State.when_keeps (fun t => t.on (R.PI_STATUS_QERR i) = true) _ _ _ h ((State.raise_on_input _ _ hw).trans h)
    · have h : (((s.piLevels i true true).inc (R.PI_STATUS_QERR_CNT i)).put (R.PI_STATUS_QERR i) true).rd (R.PI_STATUS_QERR_CNT i) =
          Nat.min (2 ^ (R.PI_STATUS_QERR_CNT i).width - 1) (s.rd (R.PI_STATUS_QERR_CNT i) + 1) := by
        rw [State.rd_put_apart _ _ _ _ rfl (by simp [Fld.apart, R.PI_STATUS_QERR, R.PI_STATUS_QERR_CNT])]
        exact State.rd_wr_fits _ rfl (Nat.lt_of_le_of_lt (Nat.min_le_left 65535 _) (show 65535 < 2 ^ 16 by decide))
      exact State.when_keeps (fun t => t.rd (R.PI_STATUS_QERR_CNT i) = _) _ _ _ h ((State.raise_rd_input _ _ hw).trans h)
  · have hx : exec (.piEdge i true b) s = .next ((s.piLevels i true b).piCount i (!b)) :=
      (show exec (.piEdge i true b) s = execPiEdge i true b s from rfl).trans (by rw [execPiEdge, hrun, State.when_true, State.piEdge_pulse i b hm ha])
    refine ⟨_, hx, (State.piCount_rd (s := s.piLevels i true b) _ _ hinv).trans ?_⟩
    rw [State.piLevels_rd]
    cases b <;> rfl
  · refine ⟨_, exec_piCntPreset i v hr (s.runs_iff.2 (not_or.2 ⟨hr0, hr1⟩)), ?_, State.setWord_inp _ _ _⟩
    have hv := v.isLt
    rw [State.rd, State.word_setWord_same, bitsOf]
    show v.toNat % 2 ^ 32 / 2 ^ 0 % 2 ^ 32 = v.toNat
    omega
  · have hn := n.isLt
    have hx8 : exec (.gpioEdge n true) s = .next (s.gpioEdge n true) :=
      (show exec (.gpioEdge n true) s = execGpioEdge n true s from rfl).trans (by rw [execGpioEdge, hrun, State.when_true])
    rw [State.gpioEdge_delivers hn hd hf hr hz he hl hx] at hx8
    have hff : ((s.lineTaken n true).put (R.GPIO_STATUS_DELIVERED n) true).inp.fifo = s.inp.fifo := by rw [State.put_inp, State.lineTaken_inp, State.withLine_fifo]
    obtain ⟨hfifo, hdepth, hfar⟩ := State.shown_entered (s := (s.lineTaken n true).put (R.GPIO_STATUS_DELIVERED n) true) (by rw [hff]; exact hl)
      ⟨s.now - 4 * (s.rd (R.GPIO_CFG_FILT n) + 2), n, true, false⟩
    have hgt : 0x40F0001C < 0x40F0100C + 0x10 * n.val := by omega
    refine ⟨_, hx8, ?_, ?_, by rw [hfifo, hff], by rw [hdepth, hff]⟩
    · rw [State.on, hfar _ hgt, ← State.on, State.on_put_apart _ _ _ _ rfl (by simp [Fld.apart, R.GPIO_STATUS_FILTERED, R.GPIO_STATUS_DELIVERED]), State.lineTaken_filtered]
    · rw [State.on, hfar _ hgt, ← State.on, State.on_put_same _ _ _ rfl rfl]
  · obtain ⟨hfreeze, hhist⟩ := State.gpioEdge_freezes hd hf hr hh hlt
    have hx9 : exec (.gpioEdge n level) s = .next (s.gpioEdge n level) :=
      (show exec (.gpioEdge n level) s = execGpioEdge n level s from rfl).trans (by rw [execGpioEdge, hrun, State.when_true])
    rw [hfreeze] at hx9
    obtain ⟨hinp, hfil, hdel, hfro, hchat⟩ := (s.lineTaken n level).freeze_sees n.isLt
    refine ⟨_, hx9, ?_, hfil.trans State.lineTaken_filtered, hdel.trans State.lineTaken_delivered, hfro, fun h => hchat (State.lineTaken_frozen.trans h), ?_⟩
    · rw [hinp, State.lineTaken_inp, State.withLine_fifo]
    · rw [hinp, State.lineTaken_inp, State.withLine_edges, hhist]
  · have hn := n.isLt
    have hx10 : exec (.gpioChatterRelease n) s = .next (s.gpioRelease n) :=
      (show exec (.gpioChatterRelease n) s = execGpioChatterRelease n s from rfl).trans (by rw [execGpioChatterRelease, hrun, State.when_true])
    rw [State.gpioRelease_eq hn hz ht hx hl] at hx10
    by_cases heq : s.on (R.GPIO_STATUS_FILTERED n) = s.on (R.GPIO_STATUS_DELIVERED n)
    · rw [if_pos heq] at hx10
      refine ⟨_, hx10, State.on_put_same _ _ _ rfl rfl, ?_, ?_⟩
      · rw [State.on_put_apart _ _ _ _ rfl (by simp [Fld.apart, R.GPIO_STATUS_DELIVERED, R.GPIO_STATUS_FROZEN]), heq]
      · rw [if_pos heq.symm, State.put_inp]
    · rw [if_neg heq] at hx10
      have hff : ((s.put (R.GPIO_STATUS_FROZEN n) false).put (R.GPIO_STATUS_DELIVERED n) (s.on (R.GPIO_STATUS_FILTERED n))).inp.fifo = s.inp.fifo := by
        rw [State.put_inp, State.put_inp]
      obtain ⟨hfifo, _, hfar⟩ := State.shown_entered
        (s := (s.put (R.GPIO_STATUS_FROZEN n) false).put (R.GPIO_STATUS_DELIVERED n) (s.on (R.GPIO_STATUS_FILTERED n))) (by rw [hff]; exact hl)
        ⟨s.now, n, s.on (R.GPIO_STATUS_FILTERED n), true⟩
      have hgt : 0x40F0001C < 0x40F0100C + 0x10 * n.val := by omega
      refine ⟨_, hx10, ?_, ?_, ?_⟩
      · rw [State.on, hfar _ hgt, ← State.on, State.on_put_apart _ _ _ _ rfl (by simp [Fld.apart, R.GPIO_STATUS_DELIVERED, R.GPIO_STATUS_FROZEN]),
          State.on_put_same _ _ _ rfl rfl]
      · rw [State.on, hfar _ hgt, ← State.on, State.on_put_same _ _ _ rfl rfl]
      · rw [if_neg (Ne.symm heq), hfifo, hff]
  · have hn := n.isLt
    have hw : lineWord (0x40F0100C + 0x10 * n.val) = true := lineWord_iff.2 (by omega)
    have hx11 : exec (.gpioStuck n) s = .next (s.gpioStuck n) :=
      (show exec (.gpioStuck n) s = execGpioStuck n s from rfl).trans (by rw [execGpioStuck, hrun, State.when_true])
    rw [State.gpioStuck_eq ht hm hlt hs] at hx11
    refine ⟨_, hx11, ?_, ?_, ?_, ?_⟩
    · rw [State.raise_on_input _ _ hw, State.on_put_apart _ _ _ _ rfl (by simp [Fld.apart, R.GPIO_STATUS_STUCK, R.GPIO_STATUS_STUCK_SEEN]), State.on_put_same _ _ _ rfl rfl]
    · rw [State.raise_on_input _ _ hw, State.on_put_same _ _ _ rfl rfl]
    · rw [State.raise_on_input _ _ hw, State.on_put_apart _ _ _ _ rfl (by simp [Fld.apart, R.GPIO_STATUS_DELIVERED, R.GPIO_STATUS_STUCK_SEEN]),
        State.on_put_apart _ _ _ _ rfl (by simp [Fld.apart, R.GPIO_STATUS_DELIVERED, R.GPIO_STATUS_STUCK])]
    · rw [State.raise_inp, State.put_inp, State.put_inp]
  · refine ⟨_, exec_stuckWrite n v hr (State.inputsRun_of_writable hw), ?_, ?_⟩
    · have hlt := s.word_lt (R.GPIO_STUCK_MAX_ACT n).addr
      rw [State.rd_congr _ _ (State.lineRestart_sees _ _).2, State.rd, State.word_setWord_same, hv, setBits_eq]
      simp only [bitsOf, R.GPIO_STUCK_MAX_ACT]
      omega
    · exact (State.lineRestart_sees _ _).1
  · have hf : s.dropped1.inp.fifo = rest := by rw [State.dropped1_fifo, hfifo]; rfl
    refine ⟨_, exec_evtNext hr (s.runs_iff.2 (not_or.2 ⟨hr0, hr1⟩)), ?_, ?_, ?_⟩
    · rw [State.nextEvent_eq, State.showEvents_inp, hf]
    · rw [State.nextEvent_eq, State.showEvents_depth (by rw [hf]; omega), hf]
    · rw [State.nextEvent_eq, State.showEvents_valid, hf]

end Sys2Proof.Machine
end

section
/-! The scheduler: what the trace, the shown counts and a settling without work leave (R462 to R469, R475). -/

namespace Sys2Proof.Machine

variable {s t : State} {f g : Fld} {h q m k : Nat}

/-! ### Trace -/

theorem State.withSch_regs (s : State) (x : Sch) : ({ s with sch := x } : State).regs = s.regs := rfl

theorem State.withSch_sch (s : State) (x : Sch) : ({ s with sch := x } : State).sch = x := rfl

/-- A trace changes the ring's time alone of the scheduler. -/
theorem State.trace_sch (s : State) (kind q who result count wait : Nat) :
    ∃ a, (s.trace kind q who result count wait).sch = { s.sch with trcAt := a } := by
  unfold State.trace
  split
  · exact ⟨s.sch.trcAt, rfl⟩
  · split
    · exact ⟨s.sch.trcAt, State.wr_sch _ _ _⟩
    · extract_lets wr e u x v
      have hu : u.sch = s.sch := (keeps_storeBytes (F := [.mem]) s _ _ (by decide) (.refl _ _)).1.2 .sch (by decide)
      have hv : v.sch = { u.sch with trcAt := some u.now } := State.withSch_sch u _
      rw [hu] at hv
      clear_value v
      refine ⟨some u.now, ?_⟩
      split
      · rw [State.wr_sch, hv]
      · refine State.when_keeps (fun t => t.sch = _) _ _ _ ?_ ?_
        · rw [State.wr_sch, hv]
        · rw [State.put_sch, State.wr_sch, hv]

/-- Of the registers a trace changes its own alone. -/
theorem State.trace_rd (s : State) (kind q who result count wait : Nat) (h : g.addr < 0x4090008C ∨ 0x40900090 < g.addr) :
    (s.trace kind q who result count wait).rd g = s.rd g := by
  have hw : g.addr ≠ R.TRC_WR_WR.addr := by show g.addr ≠ 0x4090008C; omega
  have hs : g.addr ≠ R.TRC_STAT_LOST.addr := by show g.addr ≠ 0x40900090; omega
  unfold State.trace
  split
  · rfl
  · split
    · rw [State.inc, State.rd_wr_far _ _ hs]
    · extract_lets wr e u x v
      have hu : u.regs = s.regs := (keeps_storeBytes (F := [.mem]) s _ _ (by decide) (.refl _ _)).1.2 .regs (by decide)
      have hv : v.regs = s.regs := (State.withSch_regs u _).trans hu
      clear_value v
      split
      · rw [State.rd_wr_far _ _ hw, State.rd_congr _ _ hv]
      · refine State.when_keeps (fun t => t.rd g = _) _ _ _ ?_ ?_
        · rw [State.rd_wr_far _ _ hw, State.rd_congr _ _ hv]
        · rw [State.put, State.rd_wr_far (f := R.TRC_STAT_FULL) _ _ hs, State.rd_wr_far _ _ hw, State.rd_congr _ _ hv]

theorem State.trace_now (s : State) (kind q who result count wait : Nat) : (s.trace kind q who result count wait).now = s.now :=
  (keeps_trace (F := [.regs, .sch, .mem]) s kind q who result count wait (by decide) (.refl _ _)).1.2 .now (by decide)

theorem State.trace_sent (s : State) (kind q who result count wait : Nat) : (s.trace kind q who result count wait).sent = s.sent :=
  (keeps_trace (F := [.regs, .sch, .mem]) s kind q who result count wait (by decide) (.refl _ _)).1.2 .sent (by decide)

/-- Without the trace nothing happens. -/
theorem State.trace_off (h : s.on R.TRC_CFG_EN = false) (kind q who result count wait : Nat) : s.trace kind q who result count wait = s := by
  rw [State.trace, h]
  rfl

/-! ### What is shown -/

/-- The words that show counts and peaks of queues and harts. -/
def countWord (a : Nat) : Bool :=
  (decide (0x40901000 ≤ a) && decide (a < 0x40901400) && a % 16 == 8) || (decide (0x40902000 ≤ a) && decide (a < 0x40902180) && a % 64 == 12)

theorem countWord_iff {a : Nat} : countWord a = true ↔
    (0x40901000 ≤ a ∧ a < 0x40901400 ∧ a % 16 = 8) ∨ (0x40902000 ≤ a ∧ a < 0x40902180 ∧ a % 64 = 12) := by
  simp only [countWord, Bool.or_eq_true, Bool.and_eq_true, decide_eq_true_eq, beq_iff_eq, and_assoc]

theorem Fld.ne_of_countWord (hf : countWord f.addr = true) (hg : countWord g.addr = false) : g.addr ≠ f.addr := fun he => by
  rw [← he, hg] at hf
  cases hf

/-- Of the registers only the counts and HELD are written. -/
theorem State.schShow_rd (s : State) (h : countWord g.addr = false) (hh : R.SCH_STATUS_HELD.apart g = true) : s.schShow.rd g = s.rd g := by
  unfold State.schShow
  extract_lets u v
  have hu : u.rd g = s.rd g := by
    refine State.forN_keeps (fun t => t.rd g = s.rd g) 64 _ (fun q hq t ht => ?_) s rfl
    have hw : countWord (R.Q_STAT_COUNT q).addr = true := countWord_iff.2 (by dsimp only [R.Q_STAT_COUNT]; omega)
    exact (State.rd_wr_far (f := R.Q_STAT_PEAK q) _ _ (Fld.ne_of_countWord (f := R.Q_STAT_PEAK q) hw h)).trans
      ((State.rd_wr_far (f := R.Q_STAT_COUNT q) _ _ (Fld.ne_of_countWord hw h)).trans ht)
  have hv : v.rd g = u.rd g := by
    refine State.forN_keeps (fun t => t.rd g = u.rd g) 6 _ (fun k hk t ht => ?_) u rfl
    have hw : countWord (R.H_STAT_SLOTS k).addr = true := countWord_iff.2 (by dsimp only [R.H_STAT_SLOTS]; omega)
    exact (State.rd_wr_far (f := R.H_STAT_PEAK_ELIG k) _ _ (Fld.ne_of_countWord (f := R.H_STAT_PEAK_ELIG k) hw h)).trans
      ((State.rd_wr_far (f := R.H_STAT_ELIG k) _ _ (Fld.ne_of_countWord (f := R.H_STAT_ELIG k) hw h)).trans
        ((State.rd_wr_far (f := R.H_STAT_SLOTS k) _ _ (Fld.ne_of_countWord hw h)).trans ht))
  clear_value u v
  rw [State.rd_wr_apart _ _ _ _ rfl hh, hv, hu]

theorem State.schShow_sch (s : State) : s.schShow.sch = s.sch :=
  (keeps_schShow (F := [.regs]) s (by decide) (.refl _ _)).1.2 .sch (by decide)

theorem State.schShow_sent (s : State) : s.schShow.sent = s.sent :=
  (keeps_schShow (F := [.regs]) s (by decide) (.refl _ _)).1.2 .sent (by decide)

theorem State.queue_of_sch (h : t.sch.queues = s.sch.queues) (q : Nat) : t.queue q = s.queue q := by
  rw [State.queue, h, State.queue]

theorem State.slots_of_sch (h : t.sch.slots = s.sch.slots) (k : Nat) : t.slots k = s.slots k := by
  rw [State.slots, h, State.slots]

/-! ### Settling without work -/

/-- No pair that runs has an item to take. -/
def State.NoFill (s : State) : Prop := ∀ k, k < 6 → s.stopped k = true ∨ ∀ q, q < 64 → s.eligible k q = false

theorem State.pickQueue_none (h : ∀ q, q < 64 → s.eligible k q = false) : s.pickQueue k = none := by
  unfold State.pickQueue
  extract_lets last cands top
  have hc : cands = [] := List.filter_eq_nil_iff.2 fun q hq => by
    obtain ⟨i, _, rfl⟩ := List.mem_map.1 hq
    rw [h _ (Nat.mod_lt _ (by decide))]
    decide
  rw [hc]
  rfl

theorem State.fillSlot_idle (h : s.stopped k = true ∨ ∀ q, q < 64 → s.eligible k q = false) : s.fillSlot k = s := by
  rw [State.fillSlot]
  rcases h with h | h
  · rw [h, Bool.true_or, if_pos rfl]
  · split
    · rfl
    · rw [State.pickQueue_none h]

theorem State.NoFill.fillAll (h : s.NoFill) : s.fillAll = s := by
  rw [State.fillAll]
  refine State.forN_keeps (fun t => t = s) 6 _ (fun k hk t ht => ?_) s rfl
  rw [ht, State.fillSlot_idle (h k hk), State.fillSlot_idle (h k hk)]

theorem State.completeWaits_none (h : s.sch.waiting = []) : s.completeWaits = s := by
  rw [State.completeWaits, h]
  rfl

theorem State.completeStalls_none (h : s.sch.stalls = []) : s.completeStalls = s := by
  rw [State.completeStalls, h]
  rfl

/-- A round that changes no stall and no waiting hart is the last. -/
theorem State.settleRounds_still (n : Nat) (hf : s.NoFill) (hw : s.completeWaits = s) (hs : s.completeStalls = s) : State.settleRounds n s = s := by
  cases n with
  | zero => rw [State.settleRounds, hf.fillAll]
  | succ n => rw [State.settleRounds, hf.fillAll, hw, hs, if_pos ⟨rfl, rfl⟩, hf.fillAll]

theorem State.settle_still (hf : s.NoFill) (hs : s.sch.stalls = []) (hw : s.sch.waiting = []) : s.settle = s.schShow := by
  rw [State.settle, State.settleRounds_still 26 hf (State.completeWaits_none hw) (State.completeStalls_none hs)]

/-- With all pairs stopped nothing is filled. -/
theorem State.noFill_of_stopped (h : s.rd R.SCH_LS_STOPPED = 63) : s.NoFill := fun k hk => by
  refine .inl ?_
  rw [State.stopped, State.bit, h]
  exact (by decide : ∀ k, k < 6 → bitOf 63 k = true) k hk

/-- With every queue empty nothing is filled. -/
theorem State.noFill_of_empty (h : s.sch.queues = []) : s.NoFill := fun k _ => by
  refine .inr fun q _ => ?_
  rw [State.eligible, State.queue, h]
  exact Bool.and_false _

end Sys2Proof.Machine
end

section
/-! O49: pushes, ticks, takes and the configuration of the scheduler (R461 to R467, R469). -/

namespace Sys2Proof.Machine

variable {s t : State} {f g : Fld} {h q m k : Nat}

/-! ### Pushes and drops -/

/-- A count rises up to its largest value. -/
theorem State.rd_inc_same (s : State) (n : Nat) (hf : f.inWord = true) : (s.inc f n).rd f = Nat.min (2 ^ f.width - 1) (s.rd f + n) :=
  State.rd_wr_fits s hf (Nat.lt_of_le_of_lt (Nat.min_le_left _ _) (Nat.sub_lt (Nat.two_pow_pos _) Nat.one_pos))

theorem State.setQueue_regs (s : State) (q : Nat) (l : List Item) : (s.setQueue q l).regs = s.regs := rfl

theorem State.setQueue_sch (s : State) (q : Nat) (l : List Item) :
    (s.setQueue q l).sch = { s.sch with queues := mapSet (fun _ => []) s.sch.queues q l } := rfl

theorem State.setQueue_queue (s : State) (q : Nat) (l : List Item) (j : Nat) : (s.setQueue q l).queue j = if j = q then l else s.queue j :=
  mapGet_mapSet _ _ _ _ _

theorem State.setPushSt_regs (s : State) (m r q : Nat) : (s.setPushSt m r q).regs = s.regs := rfl

theorem State.setPushSt_sch (s : State) (m r q : Nat) :
    (s.setPushSt m r q).sch = { s.sch with pushSt := mapSet (fun _ => (0, 0)) s.sch.pushSt m (r, q) } := rfl

/-- The words that a push, a tick or a take may write beside the counts. -/
def schedWord (a : Nat) : Bool := countWord a || (decide (0x4090008C ≤ a) && decide (a ≤ 0x40900090))

theorem schedWord_false (h : schedWord g.addr = false) : countWord g.addr = false ∧ (g.addr < 0x4090008C ∨ 0x40900090 < g.addr) := by
  obtain ⟨h1, h2⟩ := Bool.or_eq_false_iff.1 h
  refine ⟨h1, ?_⟩
  simp only [Bool.and_eq_false_iff, decide_eq_false_iff_not, not_le] at h2
  exact h2

theorem countWord_stat (hq : q < 64) : countWord (0x40901008 + 0x10 * q) = true := countWord_iff.2 (by omega)

/-- An item enters its queue, with the peak and the trace. -/
def State.enqueue (s : State) (m q : Nat) (w : List Nat) : State :=
  ((s.setQueue q (s.queue q ++ [{ words := w, pushed := s.now }])).wr (R.Q_STAT_PEAK q)
    (Nat.max ((s.setQueue q (s.queue q ++ [{ words := w, pushed := s.now }])).queue q).length
      ((s.setQueue q (s.queue q ++ [{ words := w, pushed := s.now }])).rd (R.Q_STAT_PEAK q)))).trace 0 q m 0
        ((s.setQueue q (s.queue q ++ [{ words := w, pushed := s.now }])).queue q).length 0

theorem State.enqueue_sch (s : State) (m q : Nat) (w : List Nat) : ∃ a, (s.enqueue m q w).sch =
    { s.sch with queues := mapSet (fun _ => []) s.sch.queues q (s.queue q ++ [⟨w, s.now⟩]), trcAt := a } := by
  unfold State.enqueue
  generalize hv : (s.setQueue q _).wr (R.Q_STAT_PEAK q) _ = v
  have hv' : v.sch = { s.sch with queues := mapSet (fun _ => []) s.sch.queues q (s.queue q ++ [⟨w, s.now⟩]) } := by
    rw [← hv, State.wr_sch, State.setQueue_sch]
  obtain ⟨a, ha⟩ := v.trace_sch 0 q m 0 ((s.setQueue q (s.queue q ++ [⟨w, s.now⟩])).queue q).length 0
  exact ⟨a, by rw [ha, hv']⟩

theorem State.enqueue_rd (s : State) (m : Nat) (w : List Nat) (hq : q < 64) (h : schedWord g.addr = false) : (s.enqueue m q w).rd g = s.rd g := by
  obtain ⟨hc, ht⟩ := schedWord_false h
  rw [State.enqueue, State.trace_rd _ _ _ _ _ _ _ ht,
    State.rd_wr_far (f := R.Q_STAT_PEAK q) _ _ (Fld.ne_of_countWord (f := R.Q_STAT_PEAK q) (countWord_stat hq) hc), State.rd_congr _ _ (s.setQueue_regs _ _) g]

theorem State.enqueue_queue (s : State) (m q : Nat) (w : List Nat) (j : Nat) :
    (s.enqueue m q w).queue j = if j = q then s.queue q ++ [⟨w, s.now⟩] else s.queue j := by
  obtain ⟨a, ha⟩ := s.enqueue_sch m q w
  rw [State.queue, ha]
  exact mapGet_mapSet _ _ _ _ _

theorem State.commitPush_eq (s : State) (m q : Nat) (w : List Nat) : s.commitPush m q w = (s.enqueue m q w).setPushSt m 0 q := by
  unfold State.commitPush State.enqueue
  extract_lets u n v
  rfl

theorem State.commitPush_sch (s : State) (m q : Nat) (w : List Nat) : ∃ a, (s.commitPush m q w).sch =
    { s.sch with queues := mapSet (fun _ => []) s.sch.queues q (s.queue q ++ [⟨w, s.now⟩]), pushSt := mapSet (fun _ => (0, 0)) s.sch.pushSt m (0, q), trcAt := a } := by
  obtain ⟨a, ha⟩ := s.enqueue_sch m q w
  exact ⟨a, by rw [State.commitPush_eq, State.setPushSt_sch, ha]⟩

theorem State.commitPush_rd (s : State) (m : Nat) (w : List Nat) (hq : q < 64) (h : schedWord g.addr = false) : (s.commitPush m q w).rd g = s.rd g := by
  rw [State.commitPush_eq, State.rd_congr _ _ (State.setPushSt_regs _ _ _ _), State.enqueue_rd s m w hq h]

theorem State.commitPush_queue (s : State) (m q : Nat) (w : List Nat) (j : Nat) :
    (s.commitPush m q w).queue j = if j = q then s.queue q ++ [⟨w, s.now⟩] else s.queue j := by
  obtain ⟨a, ha⟩ := s.commitPush_sch m q w
  rw [State.queue, ha]
  exact mapGet_mapSet _ _ _ _ _

theorem State.dropPush_sch (s : State) (m q r : Nat) : ∃ a, (s.dropPush m q r).sch =
    { s.sch with pushSt := mapSet (fun _ => (0, 0)) s.sch.pushSt m (r, q), trcAt := a } := by
  obtain ⟨a, ha⟩ := s.trace_sch 3 q m r (s.queue q).length 0
  exact ⟨a, by rw [State.dropPush, State.setPushSt_sch, ha]⟩

theorem State.dropPush_rd (s : State) (m q r : Nat) (h : schedWord g.addr = false) : (s.dropPush m q r).rd g = s.rd g := by
  rw [State.dropPush, State.rd_congr _ _ (State.setPushSt_regs _ _ _ _), State.trace_rd _ _ _ _ _ _ _ (schedWord_false h).2]

theorem State.full_eq (s : State) (q : Nat) : s.full q = decide (s.rd (R.Q_CFG_DEPTH q) ≤ (s.queue q).length) := rfl

/-- A push goes by the depth and the grant of its queue (R463, R464). -/
theorem State.push_eq (m q : Nat) (nb : Bool) (hs : s.sch.stalls = []) : s.push m q nb =
    if s.rd (R.Q_CFG_DEPTH q) = 0 then (s.dropPush m q 4).settle
    else if !s.bit (R.Q_OWN_OWN q) (s.pushPart m) then ((s.dropPush m q 3).raise 28).settle
    else if !s.full q then (s.commitPush m q (mapGet (fun _ => List.replicate 8 0) s.sch.staged m)).settle
    else if nb then (s.dropPush m q 1).settle
    else ({ s with sch := { s.sch with stalls := s.sch.stalls ++ [StallI.mk m q (mapGet (fun _ => List.replicate 8 0) s.sch.staged m)] } } : State).settle := by
  unfold State.push
  extract_lets words
  rw [if_neg (by rw [hs]; simp)]

theorem exec_schPush (m : Fin 19) (q : Fin 64) (nb : Bool) (h0 : s.st ≠ St.reset) (h1 : s.st ≠ St.selfTest) :
    exec (.schPush m q nb) s = .next (s.push m q nb) := by
  have hx : exec (.schPush m q nb) s = execSchPush m q nb s := rfl
  rw [hx, execSchPush, State.answers, bne_iff_ne.2 h0, bne_iff_ne.2 h1, Bool.and_self, State.when_true]

/-! ### A raised source leaves the scheduler -/

theorem State.raise_sch (s : State) (i : Nat) : (s.raise i).sch = s.sch :=
  (keeps_raise (F := [.regs, .sent, .sys, .tie, .flt, .acq, .mem]) s i (by decide) (.refl _ _)).1.2 .sch (by decide)

/-- A source with a base class is latched by its event. -/
theorem State.raise_latched {i : Nat} (hi : i < 128) (hr : reservedSource i = false) (hb : 1 ≤ s.rd (R.FLT_SRC_CFG_BASE i)) : (s.raise i).latched i = true := by
  have hm : (Fin.ofNat 128 i).val = i := Nat.mod_eq_of_lt hi
  have h := State.raiseAll_latches (s := s) (rs := [{ src := Fin.ofNat 128 i, access := Fin.ofNat 6 0, master := Fin.ofNat 19 0, addr := BitVec.ofNat 36 0 }])
    (List.mem_singleton_self _) (by rw [hm]; exact hr) (by rw [hm]; exact hb)
  rw [hm] at h
  exact h.1

/-! ### Takes -/

/-- The state in which a hart has taken its oldest item. -/
def State.taken (s : State) (h : Nat) (x : SlotI) (r : List SlotI) : State :=
  { s.setSlots h r with sch := { (s.setSlots h r).sch with item := mapSet (fun _ => []) (s.setSlots h r).sch.item h x.item.words } }

theorem State.taken_regs (s : State) (h : Nat) (x : SlotI) (r : List SlotI) : (s.taken h x r).regs = s.regs := rfl

theorem State.taken_sent (s : State) (h : Nat) (x : SlotI) (r : List SlotI) : (s.taken h x r).sent = s.sent := rfl

theorem State.taken_sch (s : State) (h : Nat) (x : SlotI) (r : List SlotI) : (s.taken h x r).sch =
    { s.sch with slots := mapSet (fun _ => []) s.sch.slots h r, item := mapSet (fun _ => []) s.sch.item h x.item.words } := rfl

/-- A take with its histogram, its trace and its answer. -/
def State.served (s : State) (h : Nat) (x : SlotI) (r : List SlotI) : State :=
  (((s.taken h x r).inc (R.H_HIST_COUNT h (waitBin (s.now - x.item.pushed)))).trace 2 x.queue h x.slot
    (((s.taken h x r).inc (R.H_HIST_COUNT h (waitBin (s.now - x.item.pushed)))).queue x.queue).length (s.now - x.item.pushed)).send
      (.reply (getWord true x.slot x.queue) 0)

theorem State.takeItem_none (hs : s.slots h = []) : s.takeItem h = none := by
  rw [State.takeItem, hs]

theorem State.takeItem_cons {x : SlotI} {r : List SlotI} (hs : s.slots h = x :: r) : s.takeItem h = some (s.served h x r) := by
  rw [State.takeItem, hs]
  rfl

theorem State.served_sch (s : State) (h : Nat) (x : SlotI) (r : List SlotI) : ∃ a, (s.served h x r).sch =
    { s.sch with slots := mapSet (fun _ => []) s.sch.slots h r, item := mapSet (fun _ => []) s.sch.item h x.item.words, trcAt := a } := by
  obtain ⟨a, ha⟩ := ((s.taken h x r).inc (R.H_HIST_COUNT h (waitBin (s.now - x.item.pushed)))).trace_sch 2 x.queue h x.slot
    (((s.taken h x r).inc (R.H_HIST_COUNT h (waitBin (s.now - x.item.pushed)))).queue x.queue).length (s.now - x.item.pushed)
  exact ⟨a, by rw [State.served, State.send_sch, ha, State.inc, State.wr_sch, State.taken_sch]⟩

theorem State.served_sent (s : State) (h : Nat) (x : SlotI) (r : List SlotI) : (s.served h x r).sent = .reply (getWord true x.slot x.queue) 0 :: s.sent := by
  rw [State.served, State.send, State.trace_sent, State.inc, State.wr_sent, State.taken_sent]

theorem waitBin_lt (w : Nat) : waitBin w < 16 := by
  have h := List.length_filter_le (fun b => decide (64 * 2 ^ b ≤ w)) (upto 15)
  rw [upto, List.length_range] at h
  exact Nat.lt_succ_of_le h

theorem State.served_hist (s : State) (hh : h < 6) (x : SlotI) (r : List SlotI) :
    (s.served h x r).rd (R.H_HIST_COUNT h (waitBin (s.now - x.item.pushed))) =
      Nat.min (2 ^ 32 - 1) (s.rd (R.H_HIST_COUNT h (waitBin (s.now - x.item.pushed))) + 1) := by
  have hb := waitBin_lt (s.now - x.item.pushed)
  rw [State.served, State.rd_congr _ _ (State.send_regs _ _),
    State.trace_rd _ _ _ _ _ _ _ (.inr (by show 0x40900090 < 0x40903000 + 0x40 * h + 0x4 * waitBin _; omega)),
    State.rd_inc_same _ _ rfl, State.rd_congr _ _ (s.taken_regs h x r)]
  rfl

/-! ### One fill -/

theorem maxOf_replicate (n v : Nat) : maxOf (List.replicate (n + 1) v) = v := by
  have h : ∀ n, (List.replicate n v).foldl Nat.max v = v := fun n => by
    induction n with
    | zero => rfl
    | succ n ih => rw [List.replicate_succ, List.foldl_cons, show Nat.max v v = v from Nat.max_self v, ih]
  rw [maxOf, List.replicate_succ, List.foldl_cons, show Nat.max 0 v = v from Nat.zero_max v, h]

/-- A hart that one queue alone can fill is filled from it. -/
theorem State.pickQueue_one (hq : q < 64) (he : ∀ j, j < 64 → s.eligible k j = decide (j = q)) : s.pickQueue k = some q := by
  unfold State.pickQueue
  extract_lets last cands top
  have hall : ∀ j ∈ cands, j = q := fun j hj => by
    obtain ⟨hm, hel⟩ := List.mem_filter.1 hj
    obtain ⟨i, _, rfl⟩ := List.mem_map.1 hm
    rw [he _ (Nat.mod_lt _ (by decide))] at hel
    exact of_decide_eq_true hel
  have hmem : q ∈ cands := by
    refine List.mem_filter.2 ⟨List.mem_map.2 ⟨(q + 64 * (last + 1) - (last + 1)) % 64, List.mem_range.2 (Nat.mod_lt _ (by decide)), ?_⟩, ?_⟩
    · omega
    · rw [he q hq, decide_eq_true rfl]
  have hrep : cands = List.replicate cands.length q := List.eq_replicate_of_mem hall
  obtain ⟨n, hn⟩ : ∃ n, cands.length = n + 1 := Nat.exists_eq_succ_of_ne_zero (List.length_pos_of_mem hmem).ne'
  rw [hn] at hrep
  have htop : top = s.rd (R.Q_CFG_PRIO q) := by
    show maxOf (cands.map _) = _
    rw [hrep, List.map_replicate, maxOf_replicate]
  rw [hrep, List.replicate_succ, List.find?_cons_of_pos (by rw [htop]; exact beq_self_eq_true _)]

/-- The state in which a hart's first slot is filled with the only item of a queue. -/
def State.filled (s : State) (k q : Nat) (x : Item) : State :=
  { (s.setQueue q []).setSlots k [{ slot := 0, queue := q, item := x }] with
    sch := { ((s.setQueue q []).setSlots k [{ slot := 0, queue := q, item := x }]).sch with lastQ := mapSet (fun _ => 63) s.sch.lastQ k q } }

theorem State.filled_regs (s : State) (k q : Nat) (x : Item) : (s.filled k q x).regs = s.regs := rfl

theorem State.filled_sch (s : State) (k q : Nat) (x : Item) : (s.filled k q x).sch =
    { s.sch with queues := mapSet (fun _ => []) s.sch.queues q [], slots := mapSet (fun _ => []) s.sch.slots k [⟨0, q, x⟩],
                 lastQ := mapSet (fun _ => 63) s.sch.lastQ k q } := rfl

theorem State.fillSlot_one {x : Item} (hst : s.stopped k = false) (hs : s.slots k = []) (hp : 1 ≤ s.rd (R.H_CFG_PREF_N k)) (hq : q < 64)
    (hx : s.queue q = [x]) (he : ∀ j, j < 64 → s.eligible k j = decide (j = q)) :
    s.fillSlot k = (s.filled k q x).trace 1 q k 0 ((s.filled k q x).queue q).length 0 := by
  have ha : s.anyItem q = some (x, s.setQueue q []) := by rw [State.anyItem, hx]
  have hsl : (s.setQueue q []).slots k = [] := hs
  rw [State.fillSlot, hst, hs, Bool.false_or, if_neg (by simp; omega), State.pickQueue_one hq he]
  dsimp only
  rw [ha]
  dsimp only
  rw [hsl]
  rfl

/-! ### What a settling without work shows -/

theorem State.queue_schShow (s : State) (q : Nat) : s.schShow.queue q = s.queue q := by
  rw [State.queue, State.schShow_sch, State.queue]

theorem State.slots_schShow (s : State) (k : Nat) : s.schShow.slots k = s.slots k := by
  rw [State.slots, State.schShow_sch, State.slots]

theorem State.settle_stopped (h : s.rd R.SCH_LS_STOPPED = 63) (hs : s.sch.stalls = []) (hw : s.sch.waiting = []) : s.settle = s.schShow :=
  State.settle_still (State.noFill_of_stopped h) hs hw

theorem State.settle_empty (h : s.sch.queues = []) (hs : s.sch.stalls = []) (hw : s.sch.waiting = []) : s.settle = s.schShow :=
  State.settle_still (State.noFill_of_empty h) hs hw

/-- A raised source leaves the stopped pairs. -/
theorem State.raise_stopped (s : State) (i : Nat) : (s.raise i).rd R.SCH_LS_STOPPED = s.rd R.SCH_LS_STOPPED :=
  (s.raise_reacts i).writes _ (by decide)

theorem State.latched_schShow (s : State) {i : Nat} (hi : i < 128) : s.schShow.latched i = s.latched i := by
  rw [State.latched, State.bit, State.schShow_rd, State.latched, State.bit]
  · exact Bool.eq_false_iff.2 fun h => by have := countWord_iff.1 h; dsimp only [R.FLT_STAT_LATCH] at this; omega
  · exact Fld.apart_of_addr (by dsimp only [R.FLT_STAT_LATCH, R.SCH_STATUS_HELD]; omega)

/-! ### Pushes while no pair runs -/

/-- A push that ends at once shows its result and leaves the queues. -/
theorem State.dropped_sees (m q r : Nat) (h63 : s.rd R.SCH_LS_STOPPED = 63) (hs : s.sch.stalls = []) (hw : s.sch.waiting = []) :
    mapGet (fun _ => (0, 0)) (s.dropPush m q r).settle.sch.pushSt m = (r, q) ∧ (s.dropPush m q r).settle.sch.queues = s.sch.queues ∧
      (s.dropPush m q r).settle.sch.stalls = [] := by
  obtain ⟨a, ha⟩ := s.dropPush_sch m q r
  rw [State.settle_stopped ((s.dropPush_rd m q r (by decide)).trans h63) (by rw [ha]; exact hs) (by rw [ha]; exact hw), State.schShow_sch, ha]
  exact ⟨mapGet_mapSet_same _ _ _ _, rfl, hs⟩

theorem State.committed_sees (m : Nat) (w : List Nat) (hq : q < 64) (h63 : s.rd R.SCH_LS_STOPPED = 63) (hs : s.sch.stalls = []) (hw : s.sch.waiting = []) :
    mapGet (fun _ => (0, 0)) (s.commitPush m q w).settle.sch.pushSt m = (0, q) ∧ (s.commitPush m q w).settle.sch.stalls = [] ∧
      (s.commitPush m q w).settle.queue q = s.queue q ++ [⟨w, s.now⟩] ∧ (s.commitPush m q w).settle.sch.staged = s.sch.staged := by
  obtain ⟨a, ha⟩ := s.commitPush_sch m q w
  rw [State.settle_stopped ((s.commitPush_rd m w hq (by decide)).trans h63) (by rw [ha]; exact hs) (by rw [ha]; exact hw), State.queue_schShow,
    State.commitPush_queue, if_pos rfl, State.schShow_sch, ha]
  exact ⟨mapGet_mapSet_same _ _ _ _, hs, rfl, rfl⟩

/-- The stalled pushes take their value. -/
def State.withStalls (s : State) (l : List StallI) : State := { s with sch := { s.sch with stalls := l } }

theorem State.withStalls_regs (s : State) (l : List StallI) : (s.withStalls l).regs = s.regs := rfl

theorem State.withStalls_sch (s : State) (l : List StallI) : (s.withStalls l).sch = { s.sch with stalls := l } := rfl

theorem State.withStalls_now (s : State) (l : List StallI) : (s.withStalls l).now = s.now := rfl

theorem State.withStalls_queue (s : State) (l : List StallI) (q : Nat) : (s.withStalls l).queue q = s.queue q := rfl

theorem filter_ne_self {α : Type} [DecidableEq α] (x : α) : [x].filter (· != x) = [] := by simp

/-- A stalled push whose queue stays full goes on waiting. -/
theorem State.completeStalls_full {x : StallI} (h : s.sch.stalls = [x]) (hf : s.full x.queue = true) : s.completeStalls = s := by
  rw [State.completeStalls, h]
  show (if s.full x.queue || !s.sch.stalls.contains x then s else _) = s
  rw [hf, Bool.true_or, if_pos rfl]

/-- A stalled push whose queue has a place completes. -/
theorem State.completeStalls_place {x : StallI} (h : s.sch.stalls = [x]) (hf : s.full x.queue = false) :
    s.completeStalls = (s.withStalls []).commitPush x.master x.queue x.words := by
  have hc : s.sch.stalls.contains x = true := by rw [h]; simp
  have hl : s.sch.stalls.filter (· != x) = [] := by rw [h, filter_ne_self]
  rw [State.completeStalls]
  rw [show sortBy StallI.master s.sch.stalls = [x] by rw [h]; rfl]
  show (if s.full x.queue || !s.sch.stalls.contains x then s else ({ s with sch := { s.sch with stalls := s.sch.stalls.filter (· != x) } } : State).commitPush x.master x.queue x.words) = _
  rw [hf, hc, if_neg (by decide), hl, State.withStalls]

theorem State.settle_completes {x : StallI} (h63 : s.rd R.SCH_LS_STOPPED = 63) (h : s.sch.stalls = [x]) (hw : s.sch.waiting = []) (hq : x.queue < 64)
    (hf : s.full x.queue = false) : s.settle = ((s.withStalls []).commitPush x.master x.queue x.words).settle := by
  obtain ⟨a, ha⟩ := (s.withStalls []).commitPush_sch x.master x.queue x.words
  have h63' : ((s.withStalls []).commitPush x.master x.queue x.words).rd R.SCH_LS_STOPPED = 63 :=
    ((s.withStalls []).commitPush_rd x.master x.words hq (by decide)).trans ((State.rd_congr _ _ (s.withStalls_regs _) _).trans h63)
  have hst : ((s.withStalls []).commitPush x.master x.queue x.words).sch.stalls = [] := by rw [ha]; rfl
  have hwt : ((s.withStalls []).commitPush x.master x.queue x.words).sch.waiting = [] := by rw [ha]; exact hw
  rw [State.settle, show (26 : Nat) = 25 + 1 from rfl, State.settleRounds, (State.noFill_of_stopped h63).fillAll, State.completeWaits_none hw,
    State.completeStalls_place h hf, if_neg (fun h' => by rw [hst, h] at h'; exact absurd h'.1 (by simp)),
    State.settleRounds_still 25 (State.noFill_of_stopped h63') (State.completeWaits_none hwt) (State.completeStalls_none hst), State.settle_stopped h63' hst hwt]

theorem exec_pushTimeout (m : Fin 19) {x : StallI} (h : s.sch.stalls = [x]) (hm : x.master = m.val) :
    exec (.pushBackpressureTimeout m) s = .next (((((s.withStalls []).inc (R.Q_CNT_DROP x.queue)).dropPush x.master x.queue 2).raise 29).settle) := by
  have hx : exec (.pushBackpressureTimeout m) s = execPushBackpressureTimeout m s := rfl
  have hl : s.sch.stalls.filter (· != x) = [] := by rw [h, filter_ne_self]
  rw [hx, execPushBackpressureTimeout, show s.sch.stalls.find? (fun x => x.master == m.val) = some x by rw [h]; exact List.find?_cons_of_pos (by simp [hm])]
  dsimp only
  rw [hl, State.withStalls]

end Sys2Proof.Machine
end

section
/-! O49: ticks, fills, gets, a change of partition and a write of DEPTH (R459, R461, R465 to R467). -/

namespace Sys2Proof.Machine

variable {s t : State} {f g : Fld} {h q m k : Nat}

/-! ### Ticks -/

/-- The words of a tick item. -/
def State.tickWords (s : State) (q : Nat) : List Nat := [s.sys.period % 2 ^ 32, s.sys.period / 2 ^ 32 % 2 ^ 32, q, 0, 0, 0, 0, 0]

theorem exec_queueTick (q : Fin 64) (h0 : s.st ≠ St.reset) (h1 : s.st ≠ St.selfTest) : exec (.queueTick q) s = .next (s.queueTick q) := by
  have hx : exec (.queueTick q) s = execQueueTick q s := rfl
  rw [hx, execQueueTick, State.answers, bne_iff_ne.2 h0, bne_iff_ne.2 h1, Bool.and_self, State.when_true]

theorem State.queueTick_place (hen : s.on (R.Q_CFG_TICK q) = true) (hl : (s.queue q).length < s.rd (R.Q_CFG_DEPTH q)) :
    s.queueTick q = (s.enqueue 0 q (s.tickWords q)).settle := by
  have hd : (s.rd (R.Q_CFG_DEPTH q) == 0) = false := beq_eq_false_iff_ne.2 (by omega)
  unfold State.queueTick State.enqueue State.tickWords
  extract_lets words u n v
  rw [hen, hd, if_neg (by decide), State.full_eq, decide_eq_false (by omega), if_neg (by decide)]

theorem State.queueTick_drops (hen : s.on (R.Q_CFG_TICK q) = true) (h1 : 1 ≤ s.rd (R.Q_CFG_DEPTH q)) (hl : s.rd (R.Q_CFG_DEPTH q) ≤ (s.queue q).length) :
    s.queueTick q = (((s.inc (R.Q_CNT_DROP q)).trace 3 q 0 2 (s.queue q).length 0).raise 29).settle := by
  have hd : (s.rd (R.Q_CFG_DEPTH q) == 0) = false := beq_eq_false_iff_ne.2 (by omega)
  unfold State.queueTick
  extract_lets words u n v
  rw [hen, hd, if_neg (by decide), State.full_eq, decide_eq_true hl, if_pos rfl]

theorem dropCount_word (hq : q < 64) : countWord (R.Q_CNT_DROP q).addr = false :=
  Bool.eq_false_iff.2 fun h => by have := countWord_iff.1 h; dsimp only [R.Q_CNT_DROP] at this; omega

/-- A lost item counts at its queue, and source 29 latches (R464). -/
theorem State.lost_sees {u : State} (hq : q < 64) (h63 : s.rd R.SCH_LS_STOPPED = 63) (hs : u.sch.stalls = []) (hw : u.sch.waiting = [])
    (hb : 1 ≤ s.rd (R.FLT_SRC_CFG_BASE 29)) (hu : ∀ g, schedWord g.addr = false → u.rd g = (s.inc (R.Q_CNT_DROP q)).rd g) :
    (u.raise 29).settle = (u.raise 29).schShow ∧ (u.raise 29).settle.rd (R.Q_CNT_DROP q) = Nat.min 65535 (s.rd (R.Q_CNT_DROP q) + 1) ∧
      (u.raise 29).settle.latched 29 = true := by
  have hfar : ∀ g, schedWord g.addr = false → g.addr ≠ 0x4090100C + 0x10 * q → u.rd g = s.rd g := fun g hg hne => (hu g hg).trans (State.rd_wr_far _ _ hne)
  have hset : (u.raise 29).settle = (u.raise 29).schShow := State.settle_stopped
    ((u.raise_stopped 29).trans ((hfar _ (by decide) (by show 0x40900008 ≠ _; omega)).trans h63)) (by rw [State.raise_sch, hs]) (by rw [State.raise_sch, hw])
  have hc := dropCount_word hq
  have hd : schedWord (R.Q_CNT_DROP q).addr = false := by
    rw [schedWord, hc, Bool.false_or, Bool.and_eq_false_iff]
    exact .inr (decide_eq_false (by dsimp only [R.Q_CNT_DROP]; omega))
  have hev : byEvent (R.Q_CNT_DROP q) = false := by
    have hw : sourceWord (R.Q_CNT_DROP q).addr = false := Bool.eq_false_iff.2 fun hw => by
      dsimp only [R.Q_CNT_DROP] at hw
      rcases sourceWord_iff.1 hw with ⟨_, _⟩ | ⟨_, _, _⟩ <;> omega
    refine Bool.or_eq_false_iff.2 ⟨List.any_eq_false.2 fun f hf => ?_, hw⟩
    have hf' : f.addr < 0x40901000 ∨ 0x40901400 ≤ f.addr := (by decide : ∀ f ∈ reactionFlds, f.addr < 0x40901000 ∨ 0x40901400 ≤ f.addr) f hf
    simp [Fld.apart_of_addr (f := f) (g := R.Q_CNT_DROP q) (by dsimp only [R.Q_CNT_DROP]; omega)]
  refine ⟨hset, ?_, ?_⟩
  · rw [hset, State.schShow_rd _ hc (Fld.apart_of_addr (by dsimp only [R.Q_CNT_DROP, R.SCH_STATUS_HELD]; omega)), (u.raise_reacts 29).writes _ hev, hu _ hd,
      State.rd_inc_same _ _ rfl]
    rfl
  · rw [hset, State.latched_schShow _ (by decide)]
    exact State.raise_latched (by decide) (by decide) (by rw [hfar _ (by decide) (by show 0x40800400 + 0x10 * 29 ≠ _; omega)]; exact hb)

/-! ### A push that a running pair takes -/

theorem State.fillAll_first {u : State} (h1 : s.fillSlot 0 = u) (hu : u.NoFill) : s.fillAll = u := by
  have hk : ∀ k, k < 6 → (u.fillSlot k).fillSlot k = u := fun k hk => by rw [State.fillSlot_idle (hu k hk), State.fillSlot_idle (hu k hk)]
  have hx : s.fillAll = ((s.fillSlot 0).fillSlot 0).forL [1, 2, 3, 4, 5] fun k s => (s.fillSlot k).fillSlot k := by
    rw [State.fillAll, State.forN, State.forL]
    rfl
  rw [hx, h1, State.fillSlot_idle (hu 0 (by decide))]
  refine State.forL_keeps (fun t => t = u) _ _ (fun k hmem t ht => ?_) u rfl
  rw [ht, hk k ((by decide : ∀ k ∈ [1, 2, 3, 4, 5], k < 6) k hmem)]

/-- With one item in one queue, hart 0 takes it and nothing more is to do. -/
theorem State.settle_fills {x : Item} (hst : s.stopped 0 = false) (hs : s.slots 0 = []) (hp : 1 ≤ s.rd (R.H_CFG_PREF_N 0)) (hq : q < 64)
    (hx : s.queue q = [x]) (hne : ∀ j, j ≠ q → s.queue j = []) (hsv : s.serves 0 q = true) (hsl : s.sch.stalls = []) (hw : s.sch.waiting = []) :
    s.settle.queue q = [] ∧ s.settle.slots 0 = [⟨0, q, x⟩] := by
  have hel : ∀ j, j < 64 → s.eligible 0 j = decide (j = q) := fun j _ => by
    rw [State.eligible]
    by_cases hj : j = q
    · rw [hj, hsv, hx, decide_eq_true rfl]
      rfl
    · rw [hne j hj, decide_eq_false hj]
      exact Bool.and_false _
  obtain ⟨a, ha⟩ := (s.filled 0 q x).trace_sch 1 q 0 0 ((s.filled 0 q x).queue q).length 0
  have hfill := State.fillSlot_one hst hs hp hq hx hel
  generalize (s.filled 0 q x).trace 1 q 0 0 ((s.filled 0 q x).queue q).length 0 = u at ha hfill
  rw [State.filled_sch] at ha
  have hqu : ∀ j, u.queue j = [] := fun j => by
    rw [State.queue, ha]
    refine (mapGet_mapSet (fun _ => []) s.sch.queues q [] j).trans ?_
    split
    · rfl
    · exact hne j (by assumption)
  have hnf : u.NoFill := fun k _ => .inr fun j _ => by
    rw [State.eligible, hqu]
    exact Bool.and_false _
  have husl : u.sch.stalls = [] := by rw [ha]; exact hsl
  have huw : u.sch.waiting = [] := by rw [ha]; exact hw
  have hset : s.settle = u.schShow := by
    rw [State.settle, show (26 : Nat) = 25 + 1 from rfl, State.settleRounds, State.fillAll_first hfill hnf, State.completeWaits_none huw,
      State.completeStalls_none husl, if_pos ⟨husl.trans hsl.symm, huw.trans hw.symm⟩, hnf.fillAll]
  rw [hset, State.queue_schShow, State.slots_schShow, hqu]
  refine ⟨rfl, ?_⟩
  rw [State.slots, ha]
  exact mapGet_mapSet_same (fun _ => []) s.sch.slots 0 [⟨0, q, x⟩]

/-! ### Gets -/

theorem exec_schGet (k : Fin 6) (h0 : s.st ≠ St.reset) (h1 : s.st ≠ St.selfTest) (hst : s.stopped k = false) : exec (.schGet k) s = .next (s.get k) := by
  have hx : exec (.schGet k) s = execSchGet k s := rfl
  rw [hx, execSchGet, hst, State.answers, bne_iff_ne.2 h0, bne_iff_ne.2 h1]
  rfl

theorem State.get_cons {x : SlotI} {r : List SlotI} (hs : s.slots k = x :: r) : s.get k = (s.served k x r).settle := by
  rw [State.get, State.takeItem_cons hs]

theorem State.get_nil (hs : s.slots k = []) : s.get k = s.send (.reply 0 0) := by
  rw [State.get, State.takeItem_none hs]
  rfl

/-- What a take leaves where no queue holds an item and nothing else waits. -/
theorem State.served_settles {x : SlotI} {r : List SlotI} (hq : s.sch.queues = []) (hs : s.sch.stalls = []) (hw : s.sch.waiting = []) :
    (s.served k x r).settle = (s.served k x r).schShow ∧ (s.served k x r).settle.slots k = r ∧ mapGet (fun _ => []) (s.served k x r).settle.sch.item k = x.item.words ∧
      (s.served k x r).settle.sent = .reply (getWord true x.slot x.queue) 0 :: s.sent := by
  obtain ⟨a, ha⟩ := s.served_sch k x r
  have hset : (s.served k x r).settle = (s.served k x r).schShow := State.settle_empty (by rw [ha]; exact hq) (by rw [ha]; exact hs) (by rw [ha]; exact hw)
  refine ⟨hset, ?_, ?_, ?_⟩
  · rw [hset, State.slots_schShow, State.slots, ha]
    exact mapGet_mapSet_same _ _ _ _
  · rw [hset, State.schShow_sch, ha]
    exact mapGet_mapSet_same _ _ _ _
  · rw [hset, State.schShow_sent, State.served_sent]

/-- The harts that wait take their value. -/
def State.withWaiting (s : State) (l : List Nat) : State := { s with sch := { s.sch with waiting := l } }

theorem State.withWaiting_sch (s : State) (l : List Nat) : (s.withWaiting l).sch = { s.sch with waiting := l } := rfl

theorem State.withWaiting_sent (s : State) (l : List Nat) : (s.withWaiting l).sent = s.sent := rfl

theorem State.withWaiting_regs (s : State) (l : List Nat) : (s.withWaiting l).regs = s.regs := rfl

theorem State.completeWaits_one {x : SlotI} {r : List SlotI} (hw : s.sch.waiting = [k]) (hs : s.slots k = x :: r) :
    s.completeWaits = (s.served k x r).withWaiting [] := by
  obtain ⟨a, ha⟩ := s.served_sch k x r
  have hl : (s.served k x r).sch.waiting.filter (· != k) = [] := by rw [ha, hw, filter_ne_self]
  rw [State.completeWaits, hw, State.forL, List.foldl_cons, List.foldl_nil, State.takeItem_cons hs]
  dsimp only
  rw [hl, State.withWaiting]

/-- A waiting hart that has an item resumes with it. -/
theorem State.settle_resumes {x : SlotI} {r : List SlotI} (hq : s.sch.queues = []) (hs : s.sch.stalls = []) (hw : s.sch.waiting = [k]) (hx : s.slots k = x :: r) :
    s.settle = ((s.served k x r).withWaiting []).schShow := by
  obtain ⟨a, ha⟩ := s.served_sch k x r
  have hq' : ((s.served k x r).withWaiting []).sch.queues = [] := by rw [State.withWaiting_sch, ha]; exact hq
  have hs' : ((s.served k x r).withWaiting []).sch.stalls = [] := by rw [State.withWaiting_sch, ha]; exact hs
  have hw' : ((s.served k x r).withWaiting []).sch.waiting = [] := by rw [State.withWaiting_sch]
  rw [State.settle, show (26 : Nat) = 25 + 1 from rfl, State.settleRounds, (State.noFill_of_empty hq).fillAll, State.completeWaits_one hw hx,
    State.completeStalls_none hs', if_neg (fun h => by rw [hw', hw] at h; exact absurd h.2 (by simp)),
    State.settleRounds_still 25 (State.noFill_of_empty hq') (State.completeWaits_none hw') (State.completeStalls_none hs')]

/-! ### A change of partition -/

/-- An item goes back to the queue it came from. -/
def State.putBack (x : SlotI) (s : State) : State := s.setQueue x.queue (s.queue x.queue ++ [x.item])

theorem State.putBack_regs (s : State) (x : SlotI) : (State.putBack x s).regs = s.regs := rfl

theorem State.putBack_sch (s : State) (x : SlotI) :
    (State.putBack x s).sch = { s.sch with queues := mapSet (fun _ => []) s.sch.queues x.queue (s.queue x.queue ++ [x.item]) } := rfl

theorem State.mem_putBack (s : State) (x : SlotI) : x.item ∈ (State.putBack x s).queue x.queue := by
  rw [State.putBack, State.setQueue_queue, if_pos rfl]
  exact List.mem_append_right _ (List.mem_singleton_self _)

theorem State.mem_putBack_of_mem {i : Item} (hi : i ∈ s.queue q) (x : SlotI) : i ∈ (State.putBack x s).queue q := by
  rw [State.putBack, State.setQueue_queue]
  split
  next he => exact List.mem_append_left _ (he ▸ hi)
  · exact hi

/-- The slots of a hart whose items its new partition may not hold are emptied into their queues (R459). -/
def State.returned (s : State) (h part : Nat) : State :=
  (((s.wr (R.H_CFG_PART h) part).setSlots h []).forL (s.slots h) State.putBack).inc (R.H_CNT_RETURNED h) (s.slots h).length

/-- While the items go back, the registers, the stalls and the empty slots stay. -/
def State.Returning (s : State) (h part : Nat) (t : State) : Prop :=
  t.regs = (s.wr (R.H_CFG_PART h) part).regs ∧ t.sch.stalls = s.sch.stalls ∧ t.sch.waiting = s.sch.waiting ∧ t.slots h = []

theorem State.returning_start (s : State) (h part : Nat) : s.Returning h part ((s.wr (R.H_CFG_PART h) part).setSlots h []) :=
  ⟨rfl, rfl, rfl, mapGet_mapSet_same (fun _ => []) s.sch.slots h []⟩

theorem State.Returning.putBack {part : Nat} (ht : s.Returning h part t) (x : SlotI) : s.Returning h part (State.putBack x t) := by
  obtain ⟨hr, hs, hw, hsl⟩ := ht
  exact ⟨(t.putBack_regs x).trans hr, hs, hw, hsl⟩

theorem State.Returning.trace_off {part : Nat} (ht : s.Returning h part t) (hx : s.on R.TRC_CFG_EN = false) : t.on R.TRC_CFG_EN = false := by
  rw [State.on, State.rd_congr _ _ ht.1, State.rd_wr_far _ _ (by dsimp only [R.TRC_CFG_EN, R.H_CFG_PART]; omega)]
  exact hx

theorem State.setPart_eq {part : Nat} (hne : s.rd (R.H_CFG_PART h) ≠ part) (hx : ∀ x ∈ s.slots h, s.bit (R.Q_OWN_OWN x.queue) part = false)
    (htr : s.on R.TRC_CFG_EN = false) : s.setPart h part = (s.returned h part).settle := by
  have hu : (s.wr (R.H_CFG_PART h) part).slots h = s.slots h := State.slots_of_sch (by rw [State.wr_sch]) h
  have hown : ∀ x ∈ s.slots h, (s.wr (R.H_CFG_PART h) part).bit (R.Q_OWN_OWN x.queue) part = false := fun x hm => by
    rw [State.bit, State.rd_wr_far _ _ (by dsimp only [R.Q_OWN_OWN, R.H_CFG_PART]; omega), ← State.bit]
    exact hx x hm
  unfold State.setPart
  rw [if_neg hne]
  extract_lets u back v w
  have hback : back = s.slots h := by
    show (u.slots h).filter _ = _
    rw [hu]
    exact List.filter_eq_self.2 fun x hm => by rw [hown x hm]; rfl
  have hv : v = u.setSlots h [] := by
    show u.setSlots h ((u.slots h).filter _) = _
    rw [hu, List.filter_eq_nil_iff.2 fun x hm => by rw [hown x hm]; decide]
  have hw : w = v.forL (s.slots h) State.putBack := by
    show v.forL back _ = _
    rw [hback, hv]
    have hgo : ∀ (l : List SlotI) (t : State), s.Returning h part t →
        t.forL l (fun x s => (s.setQueue x.queue (s.queue x.queue ++ [x.item])).trace 3 x.queue (h + 1) 0
          ((s.setQueue x.queue (s.queue x.queue ++ [x.item])).queue x.queue).length 0) = t.forL l State.putBack := fun l => by
      induction l with
      | nil => exact fun t _ => rfl
      | cons x l ih =>
        intro t ht
        have h1 : (t.setQueue x.queue (t.queue x.queue ++ [x.item])).trace 3 x.queue (h + 1) 0
            ((t.setQueue x.queue (t.queue x.queue ++ [x.item])).queue x.queue).length 0 = State.putBack x t := State.trace_off ((ht.putBack x).trace_off htr) _ _ _ _ _ _
        rw [State.forL, List.foldl_cons, h1, State.forL, List.foldl_cons]
        exact ih _ (ht.putBack x)
    exact hgo _ _ (s.returning_start h part)
  rw [State.returned, hw, hv, hback]

end Sys2Proof.Machine
end

section
/-! O49: what a change of partition and a write of DEPTH leave, and the settling theorem (R459, R461). -/

namespace Sys2Proof.Machine

variable {s t : State} {f g : Fld} {h q m k : Nat}

/-! ### A change of partition -/

/-- The items that go back are in their queues, whatever follows them. -/
theorem State.forL_putBack (l : List SlotI) (t : State) {x : SlotI} (hx : x ∈ l) : x.item ∈ (t.forL l State.putBack).queue x.queue :=
  State.forL_sets (A := fun _ => True) (B := fun u => x.item ∈ u.queue x.queue) (fun _ _ _ _ => trivial) (fun y _ _ hu => State.mem_putBack_of_mem hu y)
    hx (fun u _ => u.mem_putBack x) trivial

theorem State.returned_returning (s : State) (h part : Nat) :
    s.Returning h part (((s.wr (R.H_CFG_PART h) part).setSlots h []).forL (s.slots h) State.putBack) :=
  State.forL_keeps (s.Returning h part) _ _ (fun x _ _ ht => ht.putBack x) _ (s.returning_start h part)

/-- What a change of partition leaves of the hart whose items all go back. -/
theorem State.returned_sees (s : State) (h : Nat) {part : Nat} (hp : part < 9) :
    (s.returned h part).rd (R.H_CFG_PART h) = part ∧ (s.returned h part).slots h = [] ∧
      (s.returned h part).rd (R.H_CNT_RETURNED h) = Nat.min 65535 (s.rd (R.H_CNT_RETURNED h) + (s.slots h).length) ∧
      (∀ x ∈ s.slots h, x.item ∈ (s.returned h part).queue x.queue) ∧ (s.returned h part).sch.stalls = s.sch.stalls ∧
      (s.returned h part).sch.waiting = s.sch.waiting ∧
      ∀ g, g.addr ≠ 0x40902008 + 0x40 * h → g.addr ≠ 0x40902014 + 0x40 * h → (s.returned h part).rd g = s.rd g := by
  obtain ⟨hr, hs, hw, hsl⟩ := s.returned_returning h part
  have hmem := fun x hx => State.forL_putBack (s.slots h) ((s.wr (R.H_CFG_PART h) part).setSlots h []) (x := x) hx
  unfold State.returned
  generalize ((s.wr (R.H_CFG_PART h) part).setSlots h []).forL (s.slots h) State.putBack = u at hr hs hw hsl hmem
  have hsch : (u.inc (R.H_CNT_RETURNED h) (s.slots h).length).sch = u.sch := State.wr_sch _ _ _
  refine ⟨?_, (State.slots_of_sch (by rw [hsch]) h).trans hsl, ?_, fun x hx => ?_, by rw [hsch, hs], by rw [hsch, hw], fun g h1 h2 => ?_⟩
  · rw [State.inc, State.rd_wr_far _ _ (by dsimp only [R.H_CFG_PART, R.H_CNT_RETURNED]; omega), State.rd_congr _ _ hr, State.rd_wr_same _ _ _ rfl]
    exact Nat.mod_eq_of_lt (show part < 2 ^ 4 by omega)
  · rw [State.rd_inc_same _ _ rfl, State.rd_congr _ _ hr, State.rd_wr_far _ _ (by dsimp only [R.H_CFG_PART, R.H_CNT_RETURNED]; omega)]
    rfl
  · rw [State.queue_of_sch (t := u.inc _ _) (s := u) (by rw [hsch])]
    exact hmem x hx
  · rw [State.inc, State.rd_wr_far _ _ h2, State.rd_congr _ _ hr, State.rd_wr_far _ _ h1]

/-- No hart is filled where the others are stopped and the partition is granted no queue. -/
theorem State.noFill_of_part {part : Nat} (hp : t.rd (R.H_CFG_PART h) = part) (hst : ∀ k, k < 6 → t.stopped k = decide (k ≠ h))
    (hown : ∀ q, q < 64 → t.bit (R.Q_OWN_OWN q) part = false) : t.NoFill := fun k hk => by
  by_cases hkh : k = h
  · refine .inr fun q hq => ?_
    rw [State.eligible, State.serves, hkh, hp, hown q hq, Bool.and_false, Bool.false_and]
  · exact .inl (by rw [hst k hk, decide_eq_true hkh])

/-! ### A write of DEPTH -/

theorem sumOf_upto (f : Nat → Nat) (n : Nat) : sumOf ((upto n).map f) = ∑ i ∈ Finset.range n, f i := by
  rw [sumOf_eq_sum, upto]
  rfl

theorem State.allotted_congr (hd : ∀ q, q < 64 → t.rd (R.Q_CFG_DEPTH q) = s.rd (R.Q_CFG_DEPTH q)) : t.allotted = s.allotted := by
  rw [State.allotted, State.allotted, sumOf_upto, sumOf_upto]
  exact Finset.sum_congr rfl fun q hq => hd q (Finset.mem_range.1 hq)

/-- A change of one depth changes the sum by the difference. -/
theorem State.allotted_set (hq : q < 64) {d : Nat} (hd : t.rd (R.Q_CFG_DEPTH q) = d)
    (hne : ∀ j, j < 64 → j ≠ q → t.rd (R.Q_CFG_DEPTH j) = s.rd (R.Q_CFG_DEPTH j)) : t.allotted = s.allotted - s.rd (R.Q_CFG_DEPTH q) + d := by
  have hmem : q ∈ Finset.range 64 := Finset.mem_range.2 hq
  rw [State.allotted, State.allotted, sumOf_upto, sumOf_upto, ← Finset.add_sum_erase _ _ hmem, ← Finset.add_sum_erase _ _ hmem, hd,
    Finset.sum_congr rfl fun j hj => hne j (Finset.mem_range.1 (Finset.mem_of_mem_erase hj)) (Finset.ne_of_mem_erase hj)]
  omega

/-- A queue with its new depth, its items gone and counted. -/
def State.emptied (s : State) (q depth : Nat) : State :=
  ((s.setQueue q []).wr (R.Q_CFG_DEPTH q) depth).inc (R.Q_CNT_DISCARD q) (s.queue q).length

theorem State.emptied_sch (s : State) (q depth : Nat) : (s.emptied q depth).sch = { s.sch with queues := mapSet (fun _ => []) s.sch.queues q [] } :=
  (State.wr_sch _ _ _).trans ((State.wr_sch _ _ _).trans (s.setQueue_sch q []))

/-- The same with its trace. -/
def State.resized (s : State) (q depth : Nat) : State := (s.emptied q depth).when ((s.queue q).length != 0) fun s => s.trace 3 q 0 0 0 0

theorem State.when_trace_sch (v : State) (c : Bool) (kind q : Nat) : ∃ a, (v.when c fun s => s.trace kind q 0 0 0 0).sch = { v.sch with trcAt := a } := by
  obtain ⟨a, ha⟩ := v.trace_sch kind q 0 0 0 0
  exact State.when_keeps (fun t => ∃ a, t.sch = { v.sch with trcAt := a }) v _ _ ⟨v.sch.trcAt, rfl⟩ ⟨a, ha⟩

theorem State.resized_sch (s : State) (q depth : Nat) : ∃ a, (s.resized q depth).sch =
    { s.sch with queues := mapSet (fun _ => []) s.sch.queues q [], trcAt := a } := by
  obtain ⟨a, ha⟩ := (s.emptied q depth).when_trace_sch ((s.queue q).length != 0) 3 q
  exact ⟨a, by rw [State.resized, ha, State.emptied_sch]⟩

theorem State.resized_rd (s : State) (q depth : Nat) (h : g.addr < 0x4090008C ∨ 0x40900090 < g.addr) :
    (s.resized q depth).rd g = (s.emptied q depth).rd g := by
  rw [State.resized]
  exact State.when_keeps (fun t => t.rd g = _) _ _ _ rfl (State.trace_rd _ _ _ _ _ _ _ h)

theorem State.resized_rd_far (s : State) (q depth : Nat) (h : g.addr < 0x4090008C ∨ 0x40900090 < g.addr) (h1 : g.addr ≠ 0x40901000 + 0x10 * q)
    (h2 : g.addr ≠ 0x4090100C + 0x10 * q) : (s.resized q depth).rd g = s.rd g := by
  rw [State.resized_rd _ _ _ h, State.emptied, State.inc, State.rd_wr_far _ _ h2, State.rd_wr_far _ _ h1, State.rd_congr _ _ (s.setQueue_regs _ _)]

theorem State.resized_depth (s : State) (q : Nat) {depth : Nat} (hd : depth ≤ 1024) : (s.resized q depth).rd (R.Q_CFG_DEPTH q) = depth := by
  rw [State.resized_rd _ _ _ (.inr (by dsimp only [R.Q_CFG_DEPTH]; omega)), State.emptied, State.inc, State.rd_wr_far _ _ (by dsimp only [R.Q_CFG_DEPTH, R.Q_CNT_DISCARD]; omega),
    State.rd_wr_same _ _ _ rfl]
  exact Nat.mod_eq_of_lt (show depth < 2 ^ 11 by omega)

theorem State.resized_discard (s : State) (q depth : Nat) :
    (s.resized q depth).rd (R.Q_CNT_DISCARD q) = Nat.min 65535 (s.rd (R.Q_CNT_DISCARD q) + (s.queue q).length) := by
  rw [State.resized_rd _ _ _ (.inr (by dsimp only [R.Q_CNT_DISCARD]; omega)), State.emptied, State.rd_inc_same _ _ rfl,
    State.rd_wr_far _ _ (by dsimp only [R.Q_CFG_DEPTH, R.Q_CNT_DISCARD]; omega), State.rd_congr _ _ (s.setQueue_regs _ _)]
  rfl

theorem State.setDepth_eq {depth : Nat} (h : s.allotted - s.rd (R.Q_CFG_DEPTH q) + depth ≤ 4096) :
    s.setDepth q depth = ((s.resized q depth).wr R.SCH_STATUS_USED (s.resized q depth).allotted).settle := by
  unfold State.setDepth State.resized State.emptied
  rw [if_neg (by omega)]

theorem depth_far {j : Nat} (hne : j ≠ q) : (R.Q_CFG_DEPTH j).addr ≠ 0x40901000 + 0x10 * q ∧ (R.Q_CFG_DEPTH j).addr ≠ 0x4090100C + 0x10 * q := by
  dsimp only [R.Q_CFG_DEPTH]
  omega

theorem State.resized_allotted (s : State) (hq : q < 64) {depth : Nat} (hd : depth ≤ 1024) :
    (s.resized q depth).allotted = s.allotted - s.rd (R.Q_CFG_DEPTH q) + depth :=
  State.allotted_set hq (s.resized_depth q hd) fun j _ hne =>
    s.resized_rd_far q depth (.inr (by dsimp only [R.Q_CFG_DEPTH]; omega)) (depth_far hne).1 (depth_far hne).2

/-- What a write of DEPTH within the sum leaves. -/
theorem State.setDepth_sees (hq : q < 64) {depth : Nat} (h63 : s.rd R.SCH_LS_STOPPED = 63) (hs : s.sch.stalls = []) (hw : s.sch.waiting = [])
    (hd : depth ≤ 1024) (hsum : s.allotted - s.rd (R.Q_CFG_DEPTH q) + depth ≤ 4096) :
    (s.setDepth q depth).rd (R.Q_CFG_DEPTH q) = depth ∧ (s.setDepth q depth).queue q = [] ∧
      (s.setDepth q depth).rd (R.Q_CNT_DISCARD q) = Nat.min 65535 (s.rd (R.Q_CNT_DISCARD q) + (s.queue q).length) ∧
      (s.setDepth q depth).rd R.SCH_STATUS_USED = (s.setDepth q depth).allotted := by
  obtain ⟨a, ha⟩ := s.resized_sch q depth
  have hall := s.resized_allotted hq hd
  have hst := s.resized_rd_far (g := R.SCH_LS_STOPPED) q depth (by decide) (by show 0x40900008 ≠ _; omega) (by show 0x40900008 ≠ _; omega)
  have hde := s.resized_depth q hd
  have hdi := s.resized_discard q depth
  rw [State.setDepth_eq hsum]
  generalize s.resized q depth = u at ha hall hst hde hdi
  have husch : (u.wr R.SCH_STATUS_USED u.allotted).sch = u.sch := State.wr_sch _ _ _
  have hfar : ∀ g, g.addr ≠ 0x40900004 → countWord g.addr = false → (u.wr R.SCH_STATUS_USED u.allotted).schShow.rd g = u.rd g := fun g hne hc => by
    rw [State.schShow_rd _ hc (Fld.apart_of_addr (f := R.SCH_STATUS_HELD) hne), State.rd_wr_far _ _ hne]
  have hdw : ∀ j, countWord (R.Q_CFG_DEPTH j).addr = false := fun j =>
    Bool.eq_false_iff.2 fun h => by have := countWord_iff.1 h; dsimp only [R.Q_CFG_DEPTH] at this; omega
  have hiw : countWord (R.Q_CNT_DISCARD q).addr = false := dropCount_word hq
  have hset : (u.wr R.SCH_STATUS_USED u.allotted).settle = (u.wr R.SCH_STATUS_USED u.allotted).schShow :=
    State.settle_stopped ((State.rd_wr_far _ _ (by decide)).trans (hst.trans h63)) (by rw [husch, ha]; exact hs) (by rw [husch, ha]; exact hw)
  rw [hset]
  refine ⟨?_, ?_, ?_, ?_⟩
  · rw [hfar _ (by dsimp only [R.Q_CFG_DEPTH]; omega) (hdw q), hde]
  · rw [State.queue_schShow, State.queue_of_sch (t := u.wr R.SCH_STATUS_USED u.allotted) (s := u) (by rw [husch]), State.queue, ha]
    exact mapGet_mapSet_same (fun _ => []) s.sch.queues q []
  · rw [hfar _ (by dsimp only [R.Q_CNT_DISCARD]; omega) hiw, hdi]
  · rw [State.allotted_congr fun j _ => hfar _ (by dsimp only [R.Q_CFG_DEPTH]; omega) (hdw j), State.schShow_rd _ (by decide) (by decide),
      State.rd_wr_fits _ rfl (by rw [hall]; show _ < 2 ^ 13; omega)]

theorem exec_queueDepthWrite (q : Fin 64) (depth : BitVec 11) (hw : s.writable = true) (hd : depth.toNat ≤ 1024) (hne : depth.toNat ≠ s.rd (R.Q_CFG_DEPTH q)) :
    exec (.queueDepthWrite q depth) s = .next (s.setDepth q depth.toNat) := by
  have hx : exec (.queueDepthWrite q depth) s = execQueueDepthWrite q depth s := rfl
  rw [hx, execQueueDepthWrite, if_neg]
  rintro (h | h | h)
  · exact hne h
  · rw [hw] at h
    cases h
  · omega

theorem exec_partWrite (k : Fin 6) (part : Fin 9) (h0 : s.st ≠ St.reset) (h1 : s.st ≠ St.selfTest) :
    exec (.partWrite k part) s = .next (s.setPart k part) := by
  have hx : exec (.partWrite k part) s = execPartWrite k part s := rfl
  rw [hx, execPartWrite, State.answers, bne_iff_ne.2 h0, bne_iff_ne.2 h1, Bool.and_self, State.when_true]

/-- Settles O49: each command of the scheduler meets the branch of its rule that the hypotheses leave, and settles without further work. -/
theorem schedulerPushesAndTakes : Obligations.SchedulerPushesAndTakes := by
  refine ⟨fun s m q nb h0 h1 h63 hs hw hl hown => ?_, fun s m q nb h0 h1 hqs hsl hs hw hst hsv hp hd hown => ?_, fun s m q h0 h1 h63 hs hw hd hl hown => ?_,
    fun s m q h0 h1 h63 hs hw hd hl hown => ?_, fun s m q nb h0 h1 h63 hs hw hd => ?_, fun s m q nb h0 h1 h63 hs hw hd hown hb _ _ => ?_,
    fun s m q words h63 hs hw hq hl => ?_, fun s m q words h63 hs hw hq hb _ _ => ?_, fun s q h0 h1 h63 hs hw hen hl => ?_,
    fun s q h0 h1 h63 hs hw hen hd hl hb _ _ => ?_, fun s k x r h0 h1 hst hq hs hw hx _ => ?_, fun s k h0 h1 hst hx => ?_, fun s k h0 h1 hst hw hx => ?_,
    fun s k x r h0 h1 hst hw hx => ?_, fun s k x r _ hq hs hw hx => ?_, fun s k hk => ?_, fun s k part h0 h1 hq hs hw hne hx hst hown _ htr => ?_,
    fun s q depth hwr h63 hs hw hd hne hsum => ?_, fun s q depth hwr hd hne hsum => ?_⟩
  · refine ⟨_, exec_schPush m q nb h0 h1, ?_⟩
    rw [State.push_eq _ _ _ hs, if_neg (by omega), hown, if_neg (by decide), State.full_eq, decide_eq_false (by omega), if_pos Bool.not_false]
    obtain ⟨hp, hst, hq, hstg⟩ := State.committed_sees m.val (mapGet (fun _ => List.replicate 8 0) s.sch.staged m.val) q.isLt h63 hs hw
    exact ⟨hp, hst, hq, hstg⟩
  · have hqe : ∀ j, s.queue j = [] := fun j => by rw [State.queue, hqs]; rfl
    refine ⟨_, exec_schPush m q nb h0 h1, ?_⟩
    rw [State.push_eq _ _ _ hs, if_neg (by omega), hown, if_neg (by decide), State.full_eq, hqe, decide_eq_false (by rw [List.length_nil]; omega), if_pos Bool.not_false]
    obtain ⟨a, ha⟩ := s.commitPush_sch m q (mapGet (fun _ => List.replicate 8 0) s.sch.staged m.val)
    have hqc := s.commitPush_queue m q (mapGet (fun _ => List.replicate 8 0) s.sch.staged m.val)
    have hrd := fun g hg => s.commitPush_rd (g := g) m (mapGet (fun _ => List.replicate 8 0) s.sch.staged m.val) q.isLt hg
    refine State.settle_fills ?_ ?_ ?_ q.isLt ?_ (fun j hj => ?_) ?_ ?_ ?_
    · rw [State.stopped, State.bit, hrd _ (by decide)]
      exact hst
    · rw [State.slots, ha]
      show mapGet _ s.sch.slots 0 = []
      rw [hsl]
      rfl
    · rw [hrd _ (by decide)]
      exact hp
    · rw [hqc, if_pos rfl, hqe, List.nil_append]
    · rw [hqc, if_neg hj, hqe]
    · have hown' : schedWord (R.Q_OWN_OWN q).addr = false := by
        have hc : countWord (R.Q_OWN_OWN q).addr = false := Bool.eq_false_iff.2 fun h => by have := countWord_iff.1 h; dsimp only [R.Q_OWN_OWN] at this; omega
        rw [schedWord, hc, Bool.false_or, Bool.and_eq_false_iff]
        exact .inr (decide_eq_false (by dsimp only [R.Q_OWN_OWN]; omega))
      rw [State.serves, State.bit, State.bit, State.bit, hrd _ (by decide), hrd _ (by decide), hrd _ hown', hrd _ (by decide)]
      exact hsv
    · rw [ha]
      exact hs
    · rw [ha]
      exact hw
  · refine ⟨_, exec_schPush m q true h0 h1, ?_⟩
    rw [State.push_eq _ _ _ hs, if_neg (by omega), hown, if_neg (by decide), State.full_eq, decide_eq_true hl, if_neg (by decide), if_pos rfl]
    exact State.dropped_sees m.val q.val 1 h63 hs hw
  · refine ⟨_, exec_schPush m q false h0 h1, ?_⟩
    rw [State.push_eq _ _ _ hs, if_neg (by omega), hown, if_neg (by decide), State.full_eq, decide_eq_true hl, if_neg (by decide), if_neg (by decide), hs, List.nil_append,
      ← State.withStalls]
    have hset : (s.withStalls [⟨m.val, q.val, mapGet (fun _ => List.replicate 8 0) s.sch.staged m.val⟩]).settle =
        (s.withStalls [⟨m.val, q.val, mapGet (fun _ => List.replicate 8 0) s.sch.staged m.val⟩]).schShow := by
      rw [State.settle, State.settleRounds_still 26 (State.noFill_of_stopped ((State.rd_congr _ _ (s.withStalls_regs _) _).trans h63))
        (State.completeWaits_none (by rw [State.withStalls_sch]; exact hw)) (State.completeStalls_full (x := ⟨m.val, q.val, mapGet (fun _ => List.replicate 8 0) s.sch.staged m.val⟩) (by rw [State.withStalls_sch]) ?_)]
      rw [State.full_eq, State.withStalls_queue, State.rd_congr _ _ (s.withStalls_regs _)]
      exact decide_eq_true hl
    rw [hset]
    beta_reduce
    rw [State.schShow_sch, State.withStalls_sch]
    exact ⟨rfl, rfl, rfl⟩
  · refine ⟨_, exec_schPush m q nb h0 h1, ?_⟩
    rw [State.push_eq _ _ _ hs, if_pos hd]
    obtain ⟨hp, hqs, _⟩ := State.dropped_sees m.val q.val 4 h63 hs hw
    exact ⟨hp, hqs⟩
  · refine ⟨_, exec_schPush m q nb h0 h1, ?_⟩
    rw [State.push_eq _ _ _ hs, if_neg (by omega), hown, if_pos Bool.not_false]
    obtain ⟨a, ha⟩ := s.dropPush_sch m q 3
    have hsch : ((s.dropPush m q 3).raise 28).sch = _ := (State.raise_sch _ _).trans ha
    rw [State.settle_stopped ((State.raise_stopped _ _).trans ((s.dropPush_rd m q 3 (by decide)).trans h63)) (by rw [hsch]; exact hs) (by rw [hsch]; exact hw)]
    rw [State.latched_schShow _ (by decide), State.schShow_sch, hsch]
    exact ⟨mapGet_mapSet_same (fun _ => (0, 0)) s.sch.pushSt m.val (3, q.val), rfl, State.raise_latched (by decide) (by decide) (by rw [s.dropPush_rd m q 3 (by decide)]; exact hb)⟩
  · have hx : exec (.pushStallComplete m) s = .next s.settle := by
      have he : exec (.pushStallComplete m) s = execPushStallComplete m s := rfl
      rw [he, execPushStallComplete, if_pos (by rw [hs]; simp)]
    refine ⟨_, hx, ?_⟩
    rw [State.settle_completes (x := ⟨m.val, q, words⟩) h63 hs hw hq (by rw [State.full_eq]; exact decide_eq_false (Nat.not_le.2 hl))]
    obtain ⟨hp, hst, hqc, _⟩ := State.committed_sees (s := s.withStalls []) m.val words hq ((State.rd_congr _ _ (s.withStalls_regs _) _).trans h63)
      (by rw [State.withStalls_sch]) (by rw [State.withStalls_sch]; exact hw)
    exact ⟨hst, hp, hqc⟩
  · refine ⟨_, exec_pushTimeout m hs rfl, ?_⟩
    have h63' := (State.rd_congr _ _ (s.withStalls_regs []) R.SCH_LS_STOPPED).trans h63
    obtain ⟨a, ha⟩ := ((s.withStalls []).inc (R.Q_CNT_DROP q)).dropPush_sch m q 2
    rw [State.inc, State.wr_sch, State.withStalls_sch, ← State.inc] at ha
    obtain ⟨hset, hdrop, hlat⟩ := State.lost_sees (s := s.withStalls []) (u := ((s.withStalls []).inc (R.Q_CNT_DROP q)).dropPush m q 2) hq h63' (by rw [ha])
      (by rw [ha]; exact hw) ((State.rd_congr _ _ (s.withStalls_regs []) _).symm ▸ hb) (fun g hg => State.dropPush_rd _ _ _ _ hg)
    refine ⟨?_, ?_, ?_, hdrop.trans (by rw [State.rd_congr _ _ (s.withStalls_regs [])]), hlat⟩
    all_goals rw [hset, State.schShow_sch, State.raise_sch, ha]
    exact mapGet_mapSet_same (fun _ => (0, 0)) s.sch.pushSt m.val (2, q)
  · refine ⟨_, exec_queueTick q h0 h1, ?_⟩
    rw [State.queueTick_place hen hl]
    obtain ⟨a, ha⟩ := s.enqueue_sch 0 q (s.tickWords q)
    rw [State.settle_stopped ((s.enqueue_rd 0 _ q.isLt (by decide)).trans h63) (by rw [ha]; exact hs) (by rw [ha]; exact hw)]
    rw [State.queue_schShow, State.enqueue_queue, if_pos rfl, State.schShow_sch, ha]
    exact ⟨rfl, rfl⟩
  · refine ⟨_, exec_queueTick q h0 h1, ?_⟩
    rw [State.queueTick_drops hen hd hl]
    obtain ⟨a, ha⟩ := (s.inc (R.Q_CNT_DROP q)).trace_sch 3 q 0 2 (s.queue q).length 0
    rw [State.inc, State.wr_sch, ← State.inc] at ha
    obtain ⟨hset, hdrop, hlat⟩ := State.lost_sees (s := s) (u := (s.inc (R.Q_CNT_DROP q)).trace 3 q 0 2 (s.queue q).length 0) q.isLt h63 (by rw [ha]; exact hs)
      (by rw [ha]; exact hw) hb (fun g hg => State.trace_rd _ _ _ _ _ _ _ (schedWord_false hg).2)
    refine ⟨?_, hdrop, hlat⟩
    rw [hset, State.schShow_sch, State.raise_sch, ha]
  · refine ⟨_, (exec_schGet k h0 h1 hst).trans (by rw [State.get_cons hx]), ?_⟩
    obtain ⟨hset, hsl, hit, hsent⟩ := State.served_settles (k := k.val) (x := x) (r := r) hq hs hw
    refine ⟨hsl, hit, hsent, ?_⟩
    have hk := k.isLt
    have hb := waitBin_lt (s.now - x.item.pushed)
    have hc : countWord (R.H_HIST_COUNT k (waitBin (s.now - x.item.pushed))).addr = false :=
      Bool.eq_false_iff.2 fun h => by have := countWord_iff.1 h; dsimp only [R.H_HIST_COUNT] at this; omega
    rw [hset, State.schShow_rd _ hc (Fld.apart_of_addr (by dsimp only [R.H_HIST_COUNT, R.SCH_STATUS_HELD]; omega)), s.served_hist hk x r]
  · rw [exec_schGet k h0 h1 hst, State.get_nil hx]
  · have he : exec (.schGetWait k) s = execSchGetWait k s := rfl
    rw [he, execSchGetWait, hst, State.answers, bne_iff_ne.2 h0, bne_iff_ne.2 h1, hw, State.takeItem_none hx]
    rfl
  · have he : exec (.schGetWait k) s = execSchGetWait k s := rfl
    rw [exec_schGet k h0 h1 hst, State.get_cons hx, he, execSchGetWait, hst, State.answers, bne_iff_ne.2 h0, bne_iff_ne.2 h1, hw, State.takeItem_cons hx]
    rfl
  · have hx15 : exec (.getWaitResume k) s = .next s.settle := by
      have he : exec (.getWaitResume k) s = execGetWaitResume k s := rfl
      rw [he, execGetWaitResume, if_pos (by rw [hw]; simp)]
    obtain ⟨a, ha⟩ := s.served_sch k x r
    have hsch : ((s.served k x r).withWaiting []).sch = _ := (State.withWaiting_sch _ _).trans (by rw [ha])
    refine ⟨_, hx15, ?_⟩
    rw [State.settle_resumes hq hs hw hx]
    beta_reduce
    rw [State.slots_schShow, State.slots, State.schShow_sch, State.schShow_sent, State.withWaiting_sent, State.served_sent, hsch]
    exact ⟨rfl, mapGet_mapSet_same _ _ _ _, mapGet_mapSet_same _ _ _ _, rfl⟩
  · have he : exec (.getWaitTimeout k) s = .next ((s.withWaiting (s.sch.waiting.filter (· != k.val))).send (.reply (getWord false 0 0) 0)) := by
      have he : exec (.getWaitTimeout k) s = execGetWaitTimeout k s := rfl
      rw [he, execGetWaitTimeout, if_pos (List.contains_iff_mem.2 hk), State.withWaiting]
    refine ⟨_, he, ?_, ?_, ?_, ?_⟩
    · rw [State.send_sch, State.withWaiting_sch]
      exact fun h => by simpa using (List.mem_filter.1 h).2
    · rw [State.send, State.withWaiting_sent]
      rfl
    · rw [State.send_sch, State.withWaiting_sch]
    · rw [State.send_regs, State.withWaiting_regs]
  · have hk := k.isLt
    refine ⟨_, (exec_partWrite k part h0 h1).trans (by rw [State.setPart_eq hne hx htr]), ?_⟩
    obtain ⟨hpt, hsl, hret, hmem, hstl, hwt, hfar⟩ := s.returned_sees k part.isLt
    have hnf : (s.returned k part).NoFill := State.noFill_of_part hpt
      (fun j hj => by rw [State.stopped, State.bit, hfar _ (by show 0x40900008 ≠ _; omega) (by show 0x40900008 ≠ _; omega)]; exact hst j hj)
      (fun q hq => by rw [State.bit, hfar _ (by dsimp only [R.Q_OWN_OWN]; omega) (by dsimp only [R.Q_OWN_OWN]; omega)]; exact hown q hq)
    rw [State.settle_still hnf (hstl.trans hs) (hwt.trans hw)]
    have hw1 : countWord (R.H_CFG_PART k).addr = false := Bool.eq_false_iff.2 fun h => by have := countWord_iff.1 h; dsimp only [R.H_CFG_PART] at this; omega
    have hw2 : countWord (R.H_CNT_RETURNED k).addr = false := Bool.eq_false_iff.2 fun h => by have := countWord_iff.1 h; dsimp only [R.H_CNT_RETURNED] at this; omega
    refine ⟨?_, ?_, ?_, fun x hm => ?_⟩
    · rw [State.schShow_rd _ hw1 (Fld.apart_of_addr (by dsimp only [R.H_CFG_PART, R.SCH_STATUS_HELD]; omega)), hpt]
    · rw [State.slots_schShow, hsl]
    · rw [State.schShow_rd _ hw2 (Fld.apart_of_addr (by dsimp only [R.H_CNT_RETURNED, R.SCH_STATUS_HELD]; omega)), hret]
    · rw [State.queue_schShow]
      exact hmem x hm
  · exact ⟨_, exec_queueDepthWrite q depth hwr hd hne, State.setDepth_sees q.isLt h63 hs hw hd hsum⟩
  · rw [exec_queueDepthWrite q depth hwr hd hne, State.setDepth, if_pos hsum]

end Sys2Proof.Machine
end

section
/-! O28: mailbox operations at their cell (R205 to R210, R217, R218). -/

namespace Sys2Proof.Machine

variable {c d : Cell} {r : MbReq}

/-! ### The response that a request owes -/

/-- An executed request leaves the inbox, and its response is kept for its ORIG. -/
def Cell.answered (c : Cell) (r : MbReq) (x : MbRsp) : Cell :=
  if r.orig = 0 then { c with lk := { c.lk with inbox := none, done0 := some x } } else { c with lk := { c.lk with inbox := none, done1 := some x } }

theorem Cell.respond_eq (c : Cell) (r : MbReq) (result data : Nat) : c.respond r result data =
    if r.bc then c.answered r ⟨r, result, data, c.lk.period + 2⟩
    else { c.answered r ⟨r, result, data, c.lk.period + 2⟩ with
      lk := { (c.answered r ⟨r, result, data, c.lk.period + 2⟩).lk with owed := (c.answered r ⟨r, result, data, c.lk.period + 2⟩).lk.owed ++ [⟨r, result, data, c.lk.period + 2⟩] } } := rfl

theorem Cell.answered_sees (c : Cell) (r : MbReq) (x : MbRsp) : (c.answered r x).lk.inbox = none ∧ (c.answered r x).lk.owed = c.lk.owed ∧
    (c.answered r x).regs = c.regs ∧ (c.answered r x).mode = c.mode ∧ (c.answered r x).pw = c.pw := by
  unfold Cell.answered
  split <;> exact ⟨rfl, rfl, rfl, rfl, rfl⟩

theorem Cell.respond_inbox (c : Cell) (r : MbReq) (result data : Nat) : (c.respond r result data).lk.inbox = none := by
  rw [Cell.respond_eq]
  split <;> exact (c.answered_sees r _).1

theorem Cell.respond_owed (c : Cell) (result data : Nat) (hb : r.bc = false) :
    (c.respond r result data).lk.owed = c.lk.owed ++ [⟨r, result, data, c.lk.period + 2⟩] := by
  rw [Cell.respond_eq, hb, if_neg (by decide)]
  show (c.answered r _).lk.owed ++ _ = _
  rw [(c.answered_sees r _).2.1]

theorem Cell.respond_silent (c : Cell) (result data : Nat) (hb : r.bc = true) : (c.respond r result data).lk.owed = c.lk.owed := by
  rw [Cell.respond_eq, hb, if_pos rfl, (c.answered_sees r _).2.1]

theorem Cell.respond_keeps (c : Cell) (r : MbReq) (result data : Nat) :
    (c.respond r result data).regs = c.regs ∧ (c.respond r result data).mode = c.mode ∧ (c.respond r result data).pw = c.pw := by
  obtain ⟨_, _, hregs, hmode, hpw⟩ := c.answered_sees r ⟨r, result, data, c.lk.period + 2⟩
  rw [Cell.respond_eq]
  split <;> exact ⟨hregs, hmode, hpw⟩

theorem Cell.request_of_inbox {op : Nat} (h : c.lk.inbox = some r) (ho : r.op = op) : c.request op = some r := by
  rw [Cell.request, h]
  exact if_pos ho

/-! ### Writes of LNK_ORIG -/

/-- The row of LNK_ORIG. -/
def origRow : RegRow := ⟨0x10008, 1, 0x4, 1, 0x4, [⟨0, 16, .rwl, 0x14, .any⟩, ⟨16, 7, .rwl, 0, .any⟩]⟩

theorem cellRow_orig : cellRow 0x10008 = some origRow := rfl

/-- The word that a write of LNK_ORIG leaves. -/
def origWord (old v : Nat) : Nat := setBits (setBits old 0 16 (bitsOf v 0 16)) 16 7 (bitsOf v 16 7)

theorem origRow_write (old v : Nat) : origRow.write old v true false = .ok (origWord old v) := by
  unfold RegRow.write
  rw [if_neg (by simp [origRow]), if_neg (by simp [origRow]), if_neg (by simp [origRow, Legal.ok])]
  rw [origRow, List.foldl_cons, List.foldl_cons, List.foldl_nil, FieldRow.after, FieldRow.after, origWord]

theorem origRow_write_locked {old v : Nat} (h : bitsOf v 0 16 ≠ bitsOf old 0 16) : origRow.write old v false false = .error .state := by
  simp [RegRow.write, origRow, FieldRow.after, h]

theorem origWord_fields {old : Nat} (v : Nat) (h : old < 2 ^ 32) :
    bitsOf (origWord old v) 0 16 = bitsOf v 0 16 ∧ bitsOf (origWord old v) 16 7 = bitsOf v 16 7 ∧ origWord old v < 2 ^ 32 := by
  simp only [origWord, setBits_eq, bitsOf]
  omega

theorem Cell.writeReg_orig (c : Cell) (now v : Nat) (hm : c.mode ≠ Mode.locked) : c.writeReg now 0x10008 v =
    match origRow.write (c.word 0x10008) v c.writable false with
    | .error .state => (c, 2)
    | .error _ => (c, 3)
    | .ok w => (c.setWord 0x10008 w, 0) := by
  rw [Cell.writeReg, if_neg (by decide), cellRow_orig]
  dsimp only
  rw [if_neg hm]
  rfl

theorem Cell.writeReg_orig_ok (now v : Nat) (hw : c.writable = true) :
    c.writeReg now 0x10008 v = (c.setWord 0x10008 (origWord (c.word 0x10008) v), 0) := by
  have hm : c.mode ≠ Mode.locked := fun h => by simp [Cell.writable, h] at hw; revert hw; decide
  rw [Cell.writeReg_orig c now v hm, hw, origRow_write]

theorem Cell.writeReg_orig_locked (now : Nat) {v : Nat} (hw : c.writable = false) (h : bitsOf v 0 16 ≠ c.rd K.LNK_ORIG_T_ORIG) :
    c.writeReg now 0x10008 v = (c, 2) := by
  by_cases hm : c.mode = Mode.locked
  · rw [Cell.writeReg, if_neg (by decide), cellRow_orig]
    exact if_pos hm
  · rw [Cell.writeReg_orig c now v hm, hw, origRow_write_locked (old := c.word 0x10008) h]

theorem Cell.origWord_rd (c : Cell) (v : Nat) : (c.setWord 0x10008 (origWord (c.word 0x10008) v)).rd K.LNK_ORIG_T_ORIG = bitsOf v 0 16 ∧
    (c.setWord 0x10008 (origWord (c.word 0x10008) v)).rd K.LNK_ORIG_NCELL = bitsOf v 16 7 := by
  obtain ⟨h1, h2, hlt⟩ := origWord_fields v (c.word_lt 0x10008)
  have hword : (c.setWord 0x10008 (origWord (c.word 0x10008) v)).word 0x10008 = origWord (c.word 0x10008) v := by
    rw [Cell.word_setWord, if_pos rfl, Nat.mod_eq_of_lt hlt]
  exact ⟨(congrArg (bitsOf · 0 16) hword).trans h1, (congrArg (bitsOf · 16 7) hword).trans h2⟩

/-! ### A masked write of LNK_ORIG -/

theorem testBit_bitsOf (v lo w i : Nat) : (bitsOf v lo w).testBit i = (decide (i < w) && v.testBit (lo + i)) := by
  rw [bitsOf, Nat.testBit_mod_two_pow, Nat.testBit_div_two_pow, Nat.add_comm i lo]

/-- The complement of a mask of 16 bits in a word. -/
theorem testBit_unmask {m i : Nat} (hm : m < 2 ^ 16) : (2 ^ 32 - 1 - m).testBit i = (decide (i < 32) && !m.testBit i) := by
  rw [show 2 ^ 32 - 1 - m = 2 ^ 32 - (m + 1) by omega, Nat.testBit_two_pow_sub_succ (by omega)]

/-- The word that a masked write hands to LNK_ORIG. -/
def origMasked (old m v : Nat) : Nat := (old % 2 ^ 23 &&& (2 ^ 32 - 1 - m)) ||| (v &&& m)

theorem origRow_masked (old m v : Nat) : origRow.masked old m v = origMasked old m v := by
  have hk : setBits (setBits 0 0 16 (bitsOf old 0 16)) 16 7 (bitsOf old 16 7) = old % 2 ^ 23 := by
    simp only [setBits_eq, bitsOf]
    omega
  unfold RegRow.masked
  extract_lets keep
  have hkeep : keep = old % 2 ^ 23 := by
    show List.foldl _ 0 origRow.fields = _
    rw [origRow, List.foldl_cons, List.foldl_cons, List.foldl_nil, if_pos (by decide), if_pos (by decide), hk]
  rw [hkeep, origMasked]

theorem testBit_mask_high {m i : Nat} (hm : m < 2 ^ 16) (hi : 16 ≤ i) : m.testBit i = false :=
  Nat.testBit_lt_two_pow (lt_of_lt_of_le hm (Nat.pow_le_pow_right (by decide) hi))

theorem origMasked_low {old m : Nat} (v : Nat) (hm : m < 2 ^ 16) :
    bitsOf (origMasked old m v) 0 16 = (bitsOf old 0 16 &&& (0xFFFF ^^^ m)) ||| (v &&& m) := by
  refine Nat.eq_of_testBit_eq fun i => ?_
  rw [testBit_bitsOf, origMasked, Nat.testBit_or, Nat.testBit_and, Nat.testBit_and, Nat.zero_add, testBit_unmask hm, Nat.testBit_mod_two_pow,
    Nat.testBit_or, Nat.testBit_and, Nat.testBit_and, Nat.testBit_xor, testBit_bitsOf, Nat.zero_add, show 0xFFFF = 2 ^ 16 - 1 from rfl, Nat.testBit_two_pow_sub_one]
  by_cases hi : i < 16
  · simp [hi, show i < 23 by omega, show i < 32 by omega]
  · simp [hi, testBit_mask_high hm (Nat.not_lt.1 hi)]

theorem origMasked_high {old m : Nat} (v : Nat) (hm : m < 2 ^ 16) : bitsOf (origMasked old m v) 16 7 = bitsOf old 16 7 := by
  refine Nat.eq_of_testBit_eq fun i => ?_
  rw [testBit_bitsOf, testBit_bitsOf, origMasked, Nat.testBit_or, Nat.testBit_and, Nat.testBit_and, testBit_unmask hm, Nat.testBit_mod_two_pow,
    testBit_mask_high hm (Nat.le_add_right 16 i)]
  by_cases hi : i < 7
  · simp [hi, show 16 + i < 23 by omega, show 16 + i < 32 by omega]
  · simp [hi]

/-- A masked write changes the bits of its mask in T_ORIG, and answers nothing. -/
theorem Cell.mbMasked_orig (now : Nat) (h : c.lk.inbox = some r) (ho : r.op = 5) (ha : r.addr = 0x10008) (hw : c.writable = true) (hm : r.path < 2 ^ 16) :
    (c.mbMasked now).lk.inbox = none ∧ (c.mbMasked now).lk.owed = c.lk.owed ∧
      (c.mbMasked now).rd K.LNK_ORIG_T_ORIG = ((c.rd K.LNK_ORIG_T_ORIG &&& (0xFFFF ^^^ r.path)) ||| (r.data &&& r.path)) ∧
      (c.mbMasked now).rd K.LNK_ORIG_NCELL = c.rd K.LNK_ORIG_NCELL := by
  have hml : c.mode ≠ Mode.locked := fun h => by simp [Cell.writable, h] at hw; revert hw; decide
  have he : c.mbMasked now = (c.setWord 0x10008 (origWord (c.word 0x10008) (origMasked (c.word 0x10008) r.path r.data))).respond { r with bc := true } 0 0 := by
    rw [Cell.mbMasked, Cell.request_of_inbox h ho]
    dsimp only
    rw [if_neg hml, Cell.maskedWrite, ha, cellRow_orig]
    dsimp only
    rw [origRow_masked, Cell.writeReg_orig_ok now _ hw]
  have hrd := c.origWord_rd (origMasked (c.word 0x10008) r.path r.data)
  rw [he]
  generalize hu : c.setWord 0x10008 (origWord (c.word 0x10008) (origMasked (c.word 0x10008) r.path r.data)) = u at hrd ⊢
  have hl : u.lk = c.lk := by rw [← hu, Cell.setWord_lk]
  have hregs := (u.respond_keeps { r with bc := true } 0 0).1
  refine ⟨Cell.respond_inbox _ _ _ _, (u.respond_silent 0 0 rfl).trans (by rw [hl]), ?_, ?_⟩
  · rw [Cell.rd_congr (d := u) (Cell.word_congr hregs _), hrd.1, origMasked_low _ hm, show bitsOf (c.word 0x10008) 0 16 = c.rd K.LNK_ORIG_T_ORIG from rfl]
  · rw [Cell.rd_congr (d := u) (Cell.word_congr hregs _), hrd.2, origMasked_high _ hm, show bitsOf (c.word 0x10008) 16 7 = c.rd K.LNK_ORIG_NCELL from rfl]

/-! ### RESET and BYPASS by mailbox -/

theorem Cell.RegsOnly.summarise (h : Cell.RegsOnly c d) : Cell.RegsOnly c d.summarise := (h.wr _ _).wr _ _

/-- A cell that resets by command is in RESET with its gates off and its link unknown. -/
theorem Cell.doReset_sees (c : Cell) (now : Nat) : (c.doReset now).mode = Mode.reset ∧ (c.doReset now).lk.owed = [] ∧ (c.doReset now).lk.inbox = none ∧
    (c.doReset now).GatesOff ∧ (c.doReset now).lk.up = none := by
  obtain ⟨x, hx, hm, hl⟩ : ∃ x : Cell, c.doReset now = (x.regate now).summarise ∧ x.mode = Mode.reset ∧ x.lk = Cell.reset.lk := ⟨_, rfl, rfl, rfl⟩
  rw [hx]
  obtain ⟨o, w, hreg⟩ := x.regate_rest now
  have hidle : x.Idle := by
    constructor <;> rw [hm] <;> decide
  obtain ⟨rs, he⟩ := hreg.summarise
  refine ⟨by rw [he]; exact hm, ?_, ?_, ?_, ?_⟩
  · rw [he]
    exact (congrArg LinkC.owed hl).trans rfl
  · rw [he]
    exact (congrArg LinkC.inbox hl).trans rfl
  · exact Cell.gatesOff_of_writes (Cell.summarise_writes _) (by decide) (Cell.gatesOff_regate now (Cell.driving_of_idle hidle))
  · rw [he]
    exact (congrArg LinkC.up hl).trans rfl

/-- A bypass that starts leaves what the link owes. -/
theorem Cell.startBypass_link (c : Cell) (now : Nat) : (c.startBypass now).lk.owed = c.lk.owed ∧ (c.startBypass now).lk.period = c.lk.period := by
  rw [Cell.startBypass_eq]
  split
  · exact ⟨rfl, rfl⟩
  · have hd : (c.bypassBegins now).lk = c.lk := rfl
    generalize c.bypassBegins now = d at hd
    obtain ⟨o, w, rs, e⟩ := d.discard.regate_rest now
    obtain ⟨rs', e'⟩ := d.discard_rest
    rw [e, e', ← hd]
    exact ⟨rfl, rfl⟩

end Sys2Proof.Machine
end

section
/-! O28: mailbox transactions at a port of the KC8400, and the settling theorem (R205 to R212). -/

namespace Sys2Proof.Machine

variable {s : State} {c : Cell} {r : MbReq} {p : Nat}

/-! ### The object service without requests -/

theorem State.odRun_idle (h : s.od.jobs = []) : s.odRun = s := by
  rw [State.odRun]
  cases s.odSteps with
  | zero => rfl
  | succ n => rw [State.odLoop, State.nextJob, h]; rfl

/-! ### GO -/

theorem kcRow_mbCtrl (p : Fin 48) : kcRow (0x40201030 + 0x100 * p.val) = some ⟨0x40201030, 48, 0x100, 1, 4, [⟨0, 1, .wo, 0, .any⟩]⟩ := by
  revert p
  decide

/-- A GO of a SOLO unit goes to the mailbox of its port. -/
theorem exec_mbGo (p : Fin 48) (hr : s.role = Role.solo) (hrun : s.inputsRun = true) (ht : (s.mbGo p).role = Role.solo) :
    exec (.mbGo p) s = .next (s.mbGo p) := by
  have hp := p.isLt
  have hx : ∀ m w, (s.applyWrite m (0x40201030 + 0x100 * p.val) w 1 s.accepting).1 = s.mbGo p := fun m w => by
    have hq : (0x40201030 + 0x100 * p.val) / 0x100000 = 0x402 := by omega
    have hl : (0x40201030 + 0x100 * p.val - 0x40201000) / 0x100 = p.val := by omega
    have ho : (0x40201030 + 0x100 * p.val) % 0x100 = 0x30 := by omega
    rw [State.applyWrite, hq]
    show (s.strWrite _ _ _).1 = _
    rw [State.strWrite, if_pos (by omega), hl, ho]
    dsimp only
    rw [if_neg (by decide), if_pos rfl, if_neg (by decide)]
  obtain ⟨w, hw⟩ := State.wouldStand_of_row (kcRow_mbCtrl p) (by decide) s 1
  exact congrArg Host.Outcome.next (State.regWrite_block hr hrun (by show ¬(_ ≤ 0x40201030 + 0x100 * p.val ∧ _); omega)
    (by show (0x40201030 + 0x100 * p.val) / _ ≠ _; omega) (by show 0x40201030 + 0x100 * p.val ≠ _; dsimp only [R.CELL_HP_HP]; omega) hw (hx 0 w) ht)

/-- The transaction that a request of a unit becomes at its port. -/
def State.ownTxn (s : State) (p : Nat) (o : Own) : Txn :=
  { tag := o.tag, req := { o.req with data := o.req.data, seq := ((s.port p).seq + 1) % 16, orig := s.rd R.TIE_STATUS_PAIR_ID }, ready := true, due := 0, tries := 0 }

/-- A transaction of a SOLO unit that opens. -/
def State.opened (s : State) (p : Nat) (o : Own) : State :=
  (((s.onPort p fun x => { x with seq := ((s.port p).seq + 1) % 16, txn := some (s.ownTxn p o) }).put (R.MB_STATUS_BUSY p) true).wr
    (R.MB_STATUS_SEQ p) (((s.port p).seq + 1) % 16)).wr (R.MB_STATUS_TRIES p) 0

theorem State.opened_rd_far (o : Own) {g : Fld} (h : g.addr ≠ 0x40201034 + 0x100 * p) : (s.opened p o).rd g = s.rd g := by
  rw [State.opened, State.rd_wr_far _ _ h, State.rd_wr_far _ _ h, State.put, State.rd_wr_far _ _ h, State.rd_congr _ _ (State.onPort_regs _ _ _)]

theorem State.opened_port (s : State) (p : Nat) (o : Own) : ((s.opened p o).port p).txn = some (s.ownTxn p o) := by
  rw [State.opened, State.wr_port, State.wr_port, State.put_port, State.port_onPort]

theorem State.opened_shows (s : State) (p : Nat) (o : Own) : (s.opened p o).on (R.MB_STATUS_BUSY p) = true ∧
    (s.opened p o).rd (R.MB_STATUS_SEQ p) = ((s.port p).seq + 1) % 16 := by
  rw [State.opened]
  constructor
  · rw [State.on_wr_apart (g := R.MB_STATUS_BUSY p) _ _ _ rfl (by simp [Fld.apart, R.MB_STATUS_BUSY, R.MB_STATUS_TRIES]),
      State.on_wr_apart (g := R.MB_STATUS_BUSY p) _ _ _ rfl (by simp [Fld.apart, R.MB_STATUS_BUSY, R.MB_STATUS_SEQ]), State.on_put_same _ _ _ rfl rfl]
  · rw [State.rd_wr_apart _ (R.MB_STATUS_TRIES p) (R.MB_STATUS_SEQ p) _ rfl (by simp [Fld.apart, R.MB_STATUS_SEQ, R.MB_STATUS_TRIES]), State.rd_wr_fits _ rfl (show _ < 2 ^ 4 by omega)]

theorem State.opened_keeps (s : State) (p : Nat) (o : Own) : (s.opened p o).sent = s.sent ∧ (s.opened p o).cells = s.cells := by
  rw [State.opened]
  constructor
  · rw [State.wr_sent, State.wr_sent, State.put_sent]
    rfl
  · rw [State.wr_cells, State.wr_cells, State.put_cells]
    rfl

theorem State.openTxn_eq (o : Own) (hr : s.role = Role.solo) (hl : o.late = 0) : s.openTxn p o = s.opened p o := by
  have hd : s.lateData p o = (o.req.data, s) := by
    rw [State.lateData, hl]
    rfl
  have hc : (s.opened p o).controls = true := by
    have : (s.opened p o).role = Role.solo := (State.opened_rd_far (g := R.DEV_STATE_ROLE) o (by show 0x41100000 ≠ _; omega)).trans hr
    rw [State.controls, this]
    rfl
  rw [State.openTxn, hd]
  show (s.opened p o).when (!(s.opened p o).controls) _ = _
  rw [hc, Bool.not_true, State.when_false]

/-! ### The end of a transaction -/

/-- The transaction of a port is gone. -/
def State.withoutTxn (s : State) (p : Nat) : State := s.onPort p fun x => { x with txn := none }

theorem State.withoutTxn_regs (s : State) (p : Nat) : (s.withoutTxn p).regs = s.regs := rfl

theorem State.withoutTxn_od (s : State) (p : Nat) : (s.withoutTxn p).od = s.od := rfl

theorem State.withoutTxn_port (s : State) (p : Nat) : (s.withoutTxn p).port p = { s.port p with txn := none } := State.port_onPort _ _ _

theorem State.nextOwn_idle (hx : (s.port p).txn = none) (ho : (s.port p).own = []) (hq : (s.port p).partner = []) : s.nextOwn p = s := by
  rw [State.nextOwn, hx]
  dsimp only
  rw [ho]
  dsimp only
  rw [hq]

/-- A transaction of software that ends with its response. -/
def State.closedDone (s : State) (p res data : Nat) : State :=
  ((((s.withoutTxn p).put (R.MB_STATUS_BUSY p) false).put (R.MB_STATUS_DONE p) true).wr (R.MB_STATUS_RESULT p) res).wr (R.MB_RDATA_RDATA p) data

/-- A transaction of software that ends without one. -/
def State.closedLate (s : State) (p : Nat) : State :=
  ((s.withoutTxn p).put (R.MB_STATUS_BUSY p) false).put (R.MB_STATUS_TIMEOUT p) true

theorem State.closedDone_port (s : State) (p res data : Nat) : (s.closedDone p res data).port p = { s.port p with txn := none } := by
  rw [State.closedDone, State.wr_port, State.wr_port, State.put_port, State.put_port, State.withoutTxn_port]

theorem State.closedLate_port (s : State) (p : Nat) : (s.closedLate p).port p = { s.port p with txn := none } := by
  rw [State.closedLate, State.put_port, State.put_port, State.withoutTxn_port]

theorem State.closedDone_od (s : State) (p res data : Nat) : (s.closedDone p res data).od = s.od := by
  rw [State.closedDone, State.wr_od, State.wr_od, State.put_od, State.put_od, State.withoutTxn_od]

theorem State.closedLate_od (s : State) (p : Nat) : (s.closedLate p).od = s.od := by
  rw [State.closedLate, State.put_od, State.put_od, State.withoutTxn_od]

theorem State.closeTxn_done {x : Txn} (hx : (s.port p).txn = some x) (ht : x.tag = .soft) (ho : (s.port p).own = []) (hq : (s.port p).partner = []) (res data : Nat) :
    s.closeTxn p (some (res, data)) false = s.closedDone p res data := by
  have hport := s.closedDone_port p res data
  have hidle : (s.closedDone p res data).nextOwn p = s.closedDone p res data := State.nextOwn_idle (by rw [hport]) (by rw [hport]; exact ho) (by rw [hport]; exact hq)
  rw [State.closeTxn, hx]
  show ((s.closedDone p res data).finish p x.tag x.req _).nextOwn p = _
  rw [ht]
  exact hidle

theorem State.closeTxn_late {x : Txn} (hx : (s.port p).txn = some x) (ht : x.tag = .soft) (ho : (s.port p).own = []) (hq : (s.port p).partner = []) :
    s.closeTxn p none false = s.closedLate p := by
  have hport := s.closedLate_port p
  have hidle : (s.closedLate p).nextOwn p = s.closedLate p := State.nextOwn_idle (by rw [hport]) (by rw [hport]; exact ho) (by rw [hport]; exact hq)
  rw [State.closeTxn, hx]
  show ((s.closedLate p).finish p x.tag x.req _).nextOwn p = _
  rw [ht]
  exact hidle

/-- The flags and counts of MB_STATUS of a port as a write of one leaves the others. -/
theorem State.on_mbStatus (u : State) {i j : Nat} (b : Bool) (hi : i < 16) (hij : i ≠ j) :
    (u.put ⟨0x40201034 + 0x100 * p, i, 1⟩ b).on ⟨0x40201034 + 0x100 * p, j, 1⟩ = u.on ⟨0x40201034 + 0x100 * p, j, 1⟩ :=
  State.on_put_apart _ _ _ _ (by simp [Fld.inWord]; omega) (by simp [Fld.apart]; omega)

theorem State.closedDone_shows (s : State) (p : Nat) {res data : Nat} (hr : res < 2 ^ 8) (hd : data < 2 ^ 32) :
    (s.closedDone p res data).on (R.MB_STATUS_BUSY p) = false ∧ (s.closedDone p res data).on (R.MB_STATUS_DONE p) = true ∧
      (s.closedDone p res data).rd (R.MB_STATUS_RESULT p) = res ∧ (s.closedDone p res data).rd (R.MB_RDATA_RDATA p) = data ∧
      (s.closedDone p res data).on (R.MB_STATUS_TIMEOUT p) = s.on (R.MB_STATUS_TIMEOUT p) := by
  have hfar : ∀ (u : State) j, (u.wr (R.MB_RDATA_RDATA p) data).on ⟨0x40201034 + 0x100 * p, j, 1⟩ = u.on ⟨0x40201034 + 0x100 * p, j, 1⟩ := fun u j =>
    State.on_wr_far _ _ (by dsimp only [R.MB_RDATA_RDATA]; omega)
  have hres : ∀ (u : State) j, j < 8 → (u.wr (R.MB_STATUS_RESULT p) res).on ⟨0x40201034 + 0x100 * p, j, 1⟩ = u.on ⟨0x40201034 + 0x100 * p, j, 1⟩ := fun u j hj =>
    State.on_wr_apart _ _ _ rfl (by simp [Fld.apart, R.MB_STATUS_RESULT]; omega)
  rw [State.closedDone]
  refine ⟨?_, ?_, ?_, State.rd_wr_fits _ rfl hd, ?_⟩
  · exact (hfar _ 0).trans ((hres _ 0 (by decide)).trans ((State.on_mbStatus _ _ (by decide) (by decide)).trans (State.on_put_same _ (R.MB_STATUS_BUSY p) _ rfl rfl)))
  · exact (hfar _ 1).trans ((hres _ 1 (by decide)).trans (State.on_put_same _ (R.MB_STATUS_DONE p) _ rfl rfl))
  · rw [State.rd_wr_far _ _ (by dsimp only [R.MB_RDATA_RDATA, R.MB_STATUS_RESULT]; omega), State.rd_wr_fits _ rfl hr]
  · exact (hfar _ 2).trans ((hres _ 2 (by decide)).trans ((State.on_mbStatus _ _ (by decide) (by decide)).trans ((State.on_mbStatus _ _ (by decide) (by decide)).trans
      (State.on_congr (s.withoutTxn_regs p) _))))

theorem State.closedLate_shows (s : State) (p : Nat) : (s.closedLate p).on (R.MB_STATUS_TIMEOUT p) = true ∧ (s.closedLate p).on (R.MB_STATUS_BUSY p) = false ∧
    (s.closedLate p).on (R.MB_STATUS_DONE p) = s.on (R.MB_STATUS_DONE p) := by
  rw [State.closedLate]
  refine ⟨State.on_put_same _ _ _ rfl rfl, ?_, ?_⟩
  · exact (State.on_mbStatus _ _ (by decide) (by decide)).trans (State.on_put_same _ (R.MB_STATUS_BUSY p) _ rfl rfl)
  · exact (State.on_mbStatus _ _ (by decide) (by decide)).trans ((State.on_mbStatus _ _ (by decide) (by decide)).trans (State.on_congr (s.withoutTxn_regs p) _))

/-! ### Responses and time limits -/

theorem byteAt_header (b : List Byte) (i : Nat) : byteAt (List.replicate 12 0#8 ++ b) (12 + i) = byteAt b i := by
  rw [byteAt, byteAt, List.getD_append_right _ _ _ _ (by simp), List.length_replicate, Nat.add_sub_cancel_left]

theorem byteAt_lt (b : List Byte) (i : Nat) : byteAt b i < 2 ^ 8 := (b.getD i 0#8).isLt

theorem natLE_lt : ∀ l : List Byte, natLE l < 2 ^ (8 * l.length)
  | [] => by decide
  | b :: r => by
    have h := natLE_lt r
    have hb := b.isLt
    rw [natLE, List.length_cons, Nat.mul_add, Nat.pow_add]
    omega

theorem leAt_lt (b : List Byte) (i : Nat) : leAt b i 4 < 2 ^ 32 :=
  lt_of_lt_of_le (natLE_lt _) (Nat.pow_le_pow_right (by decide) (by have := List.length_take_le 4 (b.drop i); omega))

/-- The response of a port is taken. -/
def State.rspTaken (s : State) (p : Nat) : State := s.onPort p fun x => { x with rsp := none }

theorem State.rspTaken_port (s : State) (p : Nat) : (s.rspTaken p).port p = { s.port p with rsp := none } := State.port_onPort _ _ _

theorem State.rspTaken_regs (s : State) (p : Nat) : (s.rspTaken p).regs = s.regs := rfl

theorem State.rspTaken_od (s : State) (p : Nat) : (s.rspTaken p).od = s.od := rfl

/-- A response that matches a transaction of software closes it. -/
theorem State.mbResponse_closes {x : Txn} {b : List Byte} (hb : (s.port p).rsp = some b) (hx : (s.port p).txn = some x) (ht : x.tag = .soft) (htr : 0 < x.tries)
    (h1 : bitsOf (byteAt b 0) 0 4 = x.req.op) (h2 : bitsOf (byteAt b 0) 4 4 = x.req.seq) (h3 : bitsOf (byteAt b 1) 0 7 = x.req.pos)
    (h4 : bitsOf (byteAt b 14) 0 1 = x.req.orig) (ho : (s.port p).own = []) (hq : (s.port p).partner = []) :
    s.mbResponse p = (s.rspTaken p).closedDone p (byteAt b 15) (leAt b 10 4) := by
  have hport := s.rspTaken_port p
  have hx' : ((s.rspTaken p).port p).txn = some x := by rw [hport]; exact hx
  have e12 := byteAt_header b 0
  have e13 := byteAt_header b 1
  have e26 := byteAt_header b 14
  rw [State.mbResponse, hb]
  dsimp only
  rw [← State.rspTaken, hx']
  dsimp only
  rw [if_pos ⟨(congrArg (bitsOf · 0 4) e12).trans h1, (congrArg (bitsOf · 4 4) e12).trans h2, (congrArg (bitsOf · 0 7) e13).trans h3,
    (congrArg (bitsOf · 0 1) e26).trans h4, .inl htr⟩]
  exact State.closeTxn_done hx' ht (by rw [hport]; exact ho) (by rw [hport]; exact hq) _ _

theorem State.mbTimeout_again {x : Txn} (hx : (s.port p).txn = some x) (hr : x.ready = false) (hd : x.due + s.rd (R.PORT_CFG_MB_TO p) ≤ s.sys.period)
    (ht : x.tries ≤ s.rd (R.PORT_CFG_MB_RETRY p)) : s.mbTimeout p = s.onPort p fun y => { y with txn := some { x with ready := true } } := by
  rw [State.mbTimeout, hx]
  dsimp only
  rw [hr, decide_eq_false (Nat.not_lt.2 hd), if_neg (by decide), if_pos ht]

theorem State.mbTimeout_closes {x : Txn} (hx : (s.port p).txn = some x) (hr : x.ready = false) (hd : x.due + s.rd (R.PORT_CFG_MB_TO p) ≤ s.sys.period)
    (ht : s.rd (R.PORT_CFG_MB_RETRY p) < x.tries) : s.mbTimeout p = s.closeTxn p none false := by
  rw [State.mbTimeout, hx]
  dsimp only
  rw [hr, decide_eq_false (Nat.not_lt.2 hd), if_neg (by decide), if_neg (Nat.not_le.2 ht)]

/-- Settles O28: each operation is the branch of its rule at the cell, and each event of a port opens, repeats or closes its transaction. -/
theorem mailboxTransactionsRunOnce : Obligations.MailboxTransactionsRunOnce := by
  refine ⟨fun s p h0 h1 hr hb hg => ?go, fun s p h0 h1 hr hb => ?busy, fun s id r d hi ho hb ha hd => ?read, fun s id r hi ho hb ha hw hne => ?refused,
    fun s id r hi ho hb ha hw => ?write, fun s id r d hi ho hb ha hv hd hl => ?clear, fun s id r hi ho ha hm => ?reset, fun s id r hi ho ha hk hb h0 h8 hby => ?bypass,
    fun s id r hi ho ha hw hm => ?masked, fun s id r hi ho hb ha => ?item, fun s id r hi ho hb ha => ?noItem, fun s id r hi ho hb ha hm => ?accept,
    fun s p x b hb hx ht htr h1 h2 h3 h4 ho hq hj => ?done, fun s p x hx hr hd ht hj => ?again, fun s p x hx hr hd htr ht ho hq hj => ?late⟩
  case go =>
    have hopen : s.mbGo p = (s.opened p { tag := .soft, req := s.softReq p, late := 0 }).wr (R.MB_REQ_ORIG p) (s.rd R.TIE_STATUS_PAIR_ID) := by
      rw [State.mbGo, hb, if_neg (by decide), hg]
      dsimp only
      rw [State.openTxn_eq _ hr rfl]
    have hrole : (s.mbGo p).role = Role.solo := by
      rw [hopen, State.role_wr _ _ (by dsimp only [R.MB_REQ_ORIG]; omega), State.role, State.opened_rd_far (g := R.DEV_STATE_ROLE) _ (by show 0x41100000 ≠ _; omega)]
      exact hr
    obtain ⟨hbusy, hseq⟩ := s.opened_shows p { tag := .soft, req := s.softReq p, late := 0 }
    obtain ⟨hsent, hcells⟩ := s.opened_keeps p { tag := .soft, req := s.softReq p, late := 0 }
    refine ⟨_, (exec_mbGo p hr (s.runs_iff.2 (not_or.2 ⟨h0, h1⟩)) hrole).trans (by rw [hopen]), ?_, ?_, ?_, ?_, ?_⟩
    · rw [State.wr_port, State.opened_port]
      rfl
    · rw [State.on_wr_far _ _ (by dsimp only [R.MB_STATUS_BUSY, R.MB_REQ_ORIG]; omega), hbusy]
    · rw [State.rd_wr_far _ _ (by dsimp only [R.MB_STATUS_SEQ, R.MB_REQ_ORIG]; omega), hseq]
    · rw [State.wr_sent, hsent]
    · rw [State.wr_cells, hcells]
  case busy =>
    have hgo : s.mbGo p = s.put (R.MB_STATUS_REFUSED p) true := by
      rw [State.mbGo]
      exact if_pos hb
    rw [exec_mbGo p hr (s.runs_iff.2 (not_or.2 ⟨h0, h1⟩)) (by rw [hgo, State.put, State.role_wr _ _ (by dsimp only [R.MB_STATUS_REFUSED]; omega), hr]), hgo]
  case read =>
    refine cellBecomes_onCell ?_
    rw [Cell.mbRead, Cell.request_of_inbox hi ho]
    dsimp only
    rw [if_neg (not_not.2 ha), hd]
    obtain ⟨hregs, hmode, _⟩ := (s.cell id.toNat).respond_keeps r 0 d
    exact ⟨Cell.respond_inbox _ _ _ _, Cell.respond_owed _ _ _ hb, hregs, hmode⟩
  case refused =>
    refine cellBecomes_onCell ?_
    rw [Cell.mbWrite, Cell.request_of_inbox hi ho]
    dsimp only
    rw [ha, Cell.writeReg_orig_locked _ hw hne]
    exact ⟨Cell.respond_inbox _ _ _ _, Cell.respond_owed _ _ _ hb, ((s.cell id.toNat).respond_keeps r 2 0).1⟩
  case write =>
    refine cellBecomes_onCell ?_
    rw [Cell.mbWrite, Cell.request_of_inbox hi ho]
    dsimp only
    rw [ha, Cell.writeReg_orig_ok _ _ hw]
    obtain ⟨h1, h2⟩ := (s.cell id.toNat).origWord_rd r.data
    have hne : ∀ a, a ≠ 0x10008 → ((s.cell id.toNat).setWord 0x10008 (origWord ((s.cell id.toNat).word 0x10008) r.data)).word a = (s.cell id.toNat).word a := fun a h => by
      rw [Cell.word_setWord, if_neg h]
    have hl := (s.cell id.toNat).setWord_lk 0x10008 (origWord ((s.cell id.toNat).word 0x10008) r.data)
    generalize (s.cell id.toNat).setWord 0x10008 (origWord ((s.cell id.toNat).word 0x10008) r.data) = u at h1 h2 hne hl ⊢
    have hregs := (u.respond_keeps r 0 0).1
    refine ⟨Cell.respond_inbox _ _ _ _, (u.respond_owed 0 0 hb).trans (by rw [hl]), ?_, ?_, fun a h => ?_⟩
    · rw [Cell.rd_congr (d := u) (Cell.word_congr hregs _), h1]
    · rw [Cell.rd_congr (d := u) (Cell.word_congr hregs _), h2]
    · rw [Cell.word_congr hregs, hne a h]
  case clear =>
    refine cellBecomes_onCell ?_
    rw [Cell.mbReadClear, Cell.request_of_inbox hi ho]
    dsimp only
    rw [if_neg (Nat.not_lt.2 hv), if_neg (not_not.2 ha), hd]
    refine ⟨Cell.respond_inbox _ _ _ _, (Cell.respond_owed _ _ _ hb).trans (by rw [hl]), ?_⟩
    exact (Cell.respond_keeps _ _ _ _).1
  case reset =>
    refine cellBecomes_onCell ?_
    rw [Cell.mbReset, Cell.request_of_inbox hi ho]
    dsimp only
    rw [if_neg (not_not.2 ha), if_pos hm]
    exact (s.cell id.toNat).doReset_sees s.now
  case bypass =>
    refine cellBecomes_onCell ?_
    rw [Cell.mbBypass, Cell.request_of_inbox hi ho]
    dsimp only
    rw [if_neg (by rw [ha]; decide), if_neg (not_not.2 ha), if_neg (not_or.2 ⟨h0, h8⟩), if_neg (not_not.2 hk)]
    obtain ⟨hmode, hon, _, hoff, _⟩ := Cell.startBypass_starts s.now h0 h8 hby
    obtain ⟨howed, hper⟩ := (s.cell id.toNat).startBypass_link s.now
    obtain ⟨hregs, hmode', hpw⟩ := ((s.cell id.toNat).startBypass s.now).respond_keeps r 0 0
    refine ⟨hmode'.trans hmode, by rw [hpw, hon], ?_, (Cell.respond_owed _ _ _ hb).trans (by rw [howed, hper])⟩
    exact (Cell.rd_congr (Cell.word_congr hregs _)).trans hoff
  case masked => exact cellBecomes_onCell (Cell.mbMasked_orig s.now hi ho ha hw hm)
  case item =>
    refine cellBecomes_onCell ?_
    rw [Cell.mbIdentify, Cell.request_of_inbox hi ho]
    obtain ⟨op, seq, pos, bc, path, addr, data, orig⟩ := r
    dsimp only at ha hb ⊢
    interval_cases addr <;> exact ⟨Cell.respond_inbox _ _ _ _, Cell.respond_owed _ _ _ hb, (Cell.respond_keeps _ _ _ _).1⟩
  case noItem =>
    refine cellBecomes_onCell ?_
    have he : (s.cell id.toNat).mbIdentify (uidOf id.toNat) = (s.cell id.toNat).respond r 1 0 := by
      obtain ⟨k, hk⟩ := Nat.exists_eq_add_of_le' ha
      rw [Cell.mbIdentify, Cell.request_of_inbox hi ho]
      dsimp only
      rw [hk] <;> rfl
    rw [he]
    exact ⟨(Cell.respond_keeps _ _ _ _).1, Cell.respond_owed _ _ _ hb⟩
  case accept =>
    refine cellBecomes_onCell ?_
    have hm' : ¬((s.cell id.toNat).mode ≠ Mode.safeHold ∧ (s.cell id.toNat).mode ≠ Mode.enumerated) := fun h => hm.elim h.1 h.2
    rw [Cell.mbAccept, Cell.request_of_inbox hi ho]
    dsimp only
    rw [if_neg (not_not.2 ha), if_neg hm']
    cases hst : (s.cell id.toNat).stFail with
    | true =>
      rw [if_pos rfl, if_neg (fun h => by cases h.1), if_pos rfl]
      obtain ⟨hregs, hmode, _⟩ := (s.cell id.toNat).respond_keeps r 2 0
      exact ⟨hmode, Cell.respond_owed _ _ _ hb, hregs⟩
    | false =>
      rw [if_neg Bool.false_ne_true, if_neg Bool.false_ne_true]
      by_cases hu : r.data = uidOf id.toNat % 2 ^ 32
      · rw [if_neg (not_not.2 hu), if_pos ⟨rfl, hu⟩, if_pos hu]
        obtain ⟨hregs, hmode, _⟩ := Cell.respond_keeps { s.cell id.toNat with mode := Mode.enumerated, stFail := false } r 0 0
        exact ⟨hmode, Cell.respond_owed _ _ _ hb, hregs⟩
      · rw [if_pos hu, if_neg (fun h => hu h.2), if_neg hu]
        obtain ⟨hregs, hmode, _⟩ := (s.cell id.toNat).respond_keeps r 3 0
        exact ⟨hmode, Cell.respond_owed _ _ _ hb, hregs⟩
  case done =>
    have he : exec (.mbResponse p) s = .next (s.mbResponse p).odRun := rfl
    rw [State.mbResponse_closes hb hx ht htr h1 h2 h3 h4 ho hq, State.odRun_idle (by rw [State.closedDone_od, State.rspTaken_od, hj])] at he
    obtain ⟨hbusy, hdone, hres, hdata, hto⟩ := (s.rspTaken p).closedDone_shows p (byteAt_lt b 15) (leAt_lt b 10)
    refine ⟨_, he, ?_, ?_, hbusy, hdone, hres, hdata, hto.trans (State.on_congr (s.rspTaken_regs p) _)⟩
    · rw [State.closedDone_port]
    · rw [State.closedDone_port, State.rspTaken_port]
  case again =>
    have he : exec (.mbTimeout p) s = .next (s.mbTimeout p).odRun := rfl
    rw [he, State.mbTimeout_again hx hr hd ht, State.odRun_idle (by rw [State.onPort_od, hj])]
  case late =>
    have he : exec (.mbTimeout p) s = .next (s.mbTimeout p).odRun := rfl
    rw [State.mbTimeout_closes hx hr hd htr, State.closeTxn_late hx ht ho hq, State.odRun_idle (by rw [State.closedLate_od, hj])] at he
    obtain ⟨hto, hbusy, hdone⟩ := s.closedLate_shows p
    refine ⟨_, he, ?_, hto, hbusy, hdone⟩
    rw [State.closedLate_port]

end Sys2Proof.Machine
end

section
/-! O47, O48: bytes of the memory, the rows of the capture and the record they belong to (R435 to R442, R446). -/

namespace Sys2Proof.Machine

variable {s : State} {g : Fld}

/-! ### Bytes stored and loaded -/

theorem State.storeBytes_regs (s : State) (a : Nat) (b : List Byte) : (s.storeBytes a b).regs = s.regs :=
  (keeps_storeBytes (F := [.mem]) s a b (by decide) (.refl _ _)).1.2 .regs (by decide)

theorem State.storeBytes_acq (s : State) (a : Nat) (b : List Byte) : (s.storeBytes a b).acq = s.acq :=
  (keeps_storeBytes (F := [.mem]) s a b (by decide) (.refl _ _)).1.2 .acq (by decide)

theorem State.loadByte_storeByte (s : State) (a : Nat) (b : Byte) (x : Nat) : (s.storeByte a b).loadByte x = if x = a then b else s.loadByte x :=
  mapGet_mapSet memDefault s.mem.bytes a b x

theorem State.loadByte_storeBytes_below (s : State) (l : List Byte) {a x : Nat} (h : x < a) : (s.storeBytes a l).loadByte x = s.loadByte x := by
  induction l generalizing s a with
  | nil => rfl
  | cons b l ih => rw [State.storeBytes, ih _ (by omega), State.loadByte_storeByte, if_neg (by omega)]

theorem State.loadByte_storeBytes (s : State) (l : List Byte) {a i : Nat} (h : i < l.length) : (s.storeBytes a l).loadByte (a + i) = l[i] := by
  induction l generalizing s a i with
  | nil => cases h
  | cons b l ih =>
    rw [State.storeBytes]
    cases i with
    | zero =>
      show ((s.storeByte a b).storeBytes (a + 1) l).loadByte a = b
      rw [State.loadByte_storeBytes_below _ _ (show a < a + 1 by omega), State.loadByte_storeByte, if_pos rfl]
    | succ i => rw [show a + (i + 1) = a + 1 + i by omega, ih _ (Nat.lt_of_succ_lt_succ h), List.getElem_cons_succ]

/-- What was stored is loaded again. -/
theorem State.loadBytes_storeBytes (s : State) (l : List Byte) (a : Nat) {n : Nat} (h : n ≤ l.length) : (s.storeBytes a l).loadBytes a n = l.take n := by
  refine List.ext_getElem (by simp [State.loadBytes, upto, h]) fun i hi _ => ?_
  have hn : i < n := by simpa [State.loadBytes, upto] using hi
  simp [State.loadBytes, upto, State.loadByte_storeBytes s l (Nat.lt_of_lt_of_le hn h)]

theorem le_length_fitTo (n : Nat) (l : List Byte) : n ≤ (fitTo n l).length := by
  rw [fitTo, List.length_append, List.length_take, List.length_replicate]
  omega

/-- A byte string that is cut or filled to a length keeps the bytes it has below that length. -/
theorem take_fitTo {k n : Nat} {l : List Byte} (hn : k ≤ n) (hl : k ≤ l.length) : (fitTo n l).take k = l.take k := by
  rw [fitTo, List.take_append_of_le_length (by rw [List.length_take]; omega), List.take_take, Nat.min_eq_left hn]

/-! ### A row, its copy, and what the next evaluation compares with -/

/-- A state with another capture. -/
def State.withAcq (s : State) (a : Acq) : State := { s with acq := a }

@[simp] theorem State.withAcq_acq (s : State) (a : Acq) : (s.withAcq a).acq = a := rfl

@[simp] theorem State.withAcq_regs (s : State) (a : Acq) : (s.withAcq a).regs = s.regs := rfl

@[simp] theorem State.withAcq_mem (s : State) (a : Acq) : (s.withAcq a).mem = s.mem := rfl

@[simp] theorem State.withAcq_sys (s : State) (a : Acq) : (s.withAcq a).sys = s.sys := rfl

/-- The row begins with the number of its period and goes to its place in the ring. -/
theorem State.writeRow_eq (s : State) (mark trig : Bool) : ∃ row v, 8 ≤ row.length ∧ row.take 8 = bytesLE 8 s.sys.period ∧
    s.writeRow mark trig = (s.storeBytes (s.rowAddr s.acq.total) (fitTo (s.rd R.ACQ_LAYOUT_ROW_B) row)).withAcq
      { s.acq with total := s.acq.total + 1, fill := s.acq.fill + 1, vals := v } := by
  have h : ∃ row v, 8 ≤ row.length ∧ row.take 8 = bytesLE 8 s.sys.period ∧
      s.writeRow mark trig = (s.storeBytes (s.rowAddr s.acq.total) (fitTo (s.rd R.ACQ_LAYOUT_ROW_B) row)).withAcq
        { (s.storeBytes (s.rowAddr s.acq.total) (fitTo (s.rd R.ACQ_LAYOUT_ROW_B) row)).acq with
          total := (s.storeBytes (s.rowAddr s.acq.total) (fitTo (s.rd R.ACQ_LAYOUT_ROW_B) row)).acq.total + 1,
          fill := (s.storeBytes (s.rowAddr s.acq.total) (fitTo (s.rd R.ACQ_LAYOUT_ROW_B) row)).acq.fill + 1, vals := v } := by
    refine ⟨_, _, ?_, ?_, rfl⟩
    · simp only [List.append_assoc, List.length_append, length_bytesLE]
      omega
    · simp only [List.append_assoc]
      exact List.take_left' (length_bytesLE 8 _)
  obtain ⟨row, v, hl, ht, he⟩ := h
  rw [State.storeBytes_acq] at he
  exact ⟨row, v, hl, ht, he⟩

theorem State.writeRow_regs (s : State) (mark trig : Bool) : (s.writeRow mark trig).regs = s.regs :=
  (keeps_writeRow (F := [.acq, .mem]) s mark trig (by decide) (.refl _ _)).1.2 .regs (by decide)

theorem State.writeRow_acq (s : State) (mark trig : Bool) :
    ∃ v, (s.writeRow mark trig).acq = { s.acq with total := s.acq.total + 1, fill := s.acq.fill + 1, vals := v } := by
  obtain ⟨row, v, _, _, he⟩ := s.writeRow_eq mark trig
  exact ⟨v, by rw [he, State.withAcq_acq]⟩

/-- A row begins with the number of its period. -/
theorem State.writeRow_row (s : State) (mark trig : Bool) (h : 8 ≤ s.rd R.ACQ_LAYOUT_ROW_B) :
    (s.writeRow mark trig).loadBytes (s.rowAddr s.acq.total) 8 = bytesLE 8 s.sys.period := by
  obtain ⟨row, v, hl, ht, he⟩ := s.writeRow_eq mark trig
  rw [he, ← ht, ← take_fitTo h hl, ← s.loadBytes_storeBytes _ (s.rowAddr s.acq.total) (h.trans (le_length_fitTo _ _))]
  simp only [State.loadBytes, State.loadByte, State.withAcq_mem]

theorem State.copyRows_none (h : s.acq.rec' = none) : s.copyRows = s := by rw [State.copyRows, h]

theorem State.copyRows_regs (s : State) : s.copyRows.regs = s.regs :=
  (keeps_copyRows (F := [.acq, .mem]) s (by decide) (.refl _ _)).1.2 .regs (by decide)

/-- A record after a copy of the rows that stand in the ring: only its next row to copy moves. -/
def RecA.copied (total : Nat) (r : RecA) : RecA := { r with next := Nat.max r.next (min total (r.last + 1)) }

theorem State.copyRows_acq (s : State) : s.copyRows.acq = { s.acq with rec' := s.acq.rec'.map (RecA.copied s.acq.total) } := by
  cases h : s.acq.rec' with
  | none => rw [State.copyRows_none h, Option.map_none, ← h]
  | some r =>
    have hcopy : ∀ (f : Nat → Nat) (b : Nat → State → List Byte) (n : Nat), (s.forN n fun i s => s.storeBytes (f i) (b i s)).acq = s.acq := fun f b n =>
      State.forN_keeps (fun t => t.acq = s.acq) n _ (fun i _ t ht => (t.storeBytes_acq _ _).trans ht) s rfl
    have he : ∃ (n : Nat) (f : Nat → Nat) (b : Nat → State → List Byte), s.copyRows = (s.forN n fun i s => s.storeBytes (f i) (b i s)).withAcq
        { (s.forN n fun i s => s.storeBytes (f i) (b i s)).acq with rec' := some (r.copied s.acq.total) } := by
      rw [State.copyRows, h]
      exact ⟨_, fun i => s.slotAddr r.slot + 64 + s.acqDescriptor.length + (r.next + i - (r.trig - r.pre)) * s.rd R.ACQ_LAYOUT_ROW_B,
        fun i t => t.loadBytes (t.rowAddr (r.next + i)) (s.rd R.ACQ_LAYOUT_ROW_B), rfl⟩
    obtain ⟨n, f, b, he⟩ := he
    rw [he, State.withAcq_acq, hcopy, Option.map_some]

theorem State.acqClose_open (h : ∀ r, s.acq.rec' = some r → s.acq.total ≤ r.last) : s.acqClose = s := by
  rw [State.acqClose]
  cases hr : s.acq.rec' with
  | none => rfl
  | some r => exact if_neg fun hc => absurd (h r hr) (Nat.not_le.2 hc.2)

theorem State.acqRemember_regs (s : State) : s.acqRemember.regs = s.regs := rfl

theorem State.acqRemember_mem (s : State) : s.acqRemember.mem = s.mem := rfl

theorem State.acqRemember_acq (s : State) : ∃ p o l, s.acqRemember.acq = { s.acq with prev := p, outs := o, lines := l } := ⟨_, _, _, rfl⟩

/-! ### The end of an evaluation -/

/-- An evaluation after its requests: the row, its copy, the end of a record, and what the next one compares with. -/
def State.rowEnd (s : State) (mark : Bool) : State :=
  ((s.writeRow mark ((s.acq.rec'.map fun r => r.trig == s.acq.total).getD false)).copyRows.acqClose).acqRemember

/-- While the record has rows to come, the end of an evaluation writes one row and changes no register. -/
theorem State.rowEnd_open (mark : Bool) (h : ∀ r, s.acq.rec' = some r → s.acq.total < r.last) :
    (s.rowEnd mark).regs = s.regs ∧ ∃ v p o l, (s.rowEnd mark).acq = { s.acq with
      total := s.acq.total + 1, fill := s.acq.fill + 1, vals := v, prev := p, outs := o, lines := l,
      rec' := s.acq.rec'.map (RecA.copied (s.acq.total + 1)) } := by
  rw [State.rowEnd]
  generalize ((s.acq.rec'.map fun r => r.trig == s.acq.total).getD false) = trig
  obtain ⟨v, hv⟩ := s.writeRow_acq mark trig
  have hc := (s.writeRow mark trig).copyRows_acq
  have hg := (s.writeRow mark trig).copyRows_regs.trans (s.writeRow_regs mark trig)
  rw [hv] at hc
  generalize (s.writeRow mark trig).copyRows = u at hc hg ⊢
  have hopen : u.acqClose = u := State.acqClose_open fun r hr => by
    rw [hc, Option.map_eq_some_iff] at hr
    obtain ⟨r', hr', rfl⟩ := hr
    rw [hc]
    exact h r' hr'
  obtain ⟨p, o, l, hr⟩ := u.acqRemember_acq
  rw [hopen]
  exact ⟨(State.acqRemember_regs u).trans hg, v, p, o, l, by rw [hr, hc]⟩

/-- Without a record the row stays where it was written. -/
theorem State.rowEnd_row (mark : Bool) (hr : s.acq.rec' = none) (h : 8 ≤ s.rd R.ACQ_LAYOUT_ROW_B) :
    (s.rowEnd mark).loadBytes (s.rowAddr s.acq.total) 8 = bytesLE 8 s.sys.period := by
  rw [State.rowEnd]
  generalize ((s.acq.rec'.map fun r => r.trig == s.acq.total).getD false) = trig
  obtain ⟨v, hv⟩ := s.writeRow_acq mark trig
  have hn : (s.writeRow mark trig).acq.rec' = none := by rw [hv, hr]
  rw [State.copyRows_none hn, State.acqClose_open (fun r h => by rw [hn] at h; cases h), ← s.writeRow_row mark trig h]
  simp only [State.loadBytes, State.loadByte, State.acqRemember_mem]

/-! ### The mark log (R451) -/

theorem State.showMarks_acq (s : State) : s.showMarks.acq = s.acq := by
  rw [State.showMarks]
  rw [State.wr_acq, State.put_acq, State.wr_acq, State.wr_acq, State.wr_acq]

theorem State.showMarks_rd (s : State) (h1 : g.addr ≠ 0x40700048) (h2 : g.addr ≠ 0x4070004C) : s.showMarks.rd g = s.rd g := by
  rw [State.showMarks]
  rw [State.rd_wr_far _ _ h2, State.put, State.rd_wr_far _ _ h2, State.rd_wr_far _ _ h2, State.rd_wr_far _ _ h2, State.rd_wr_far _ _ h1]

/-- The log shows its depth and its oldest entry. -/
theorem State.showMarks_shows (h : s.acq.marks.length < 32) : s.showMarks.rd R.ACQ_MARK_INFO_DEPTH = s.acq.marks.length ∧
    s.showMarks.on R.ACQ_MARK_INFO_VALID = (!s.acq.marks.isEmpty) ∧ s.showMarks.rd R.ACQ_MARK_P_PERIOD = (s.acq.marks.headD ⟨0, 0, 0⟩).period % 2 ^ 32 := by
  rw [State.showMarks]
  generalize s.acq.marks.headD ⟨0, 0, 0⟩ = m
  refine ⟨State.rd_wr_fits _ rfl h, ?_, ?_⟩
  · rw [State.on_wr_apart _ _ _ rfl (by decide), State.on_put_same _ _ _ rfl rfl]
  · rw [State.rd_wr_far _ _ (by decide), State.put, State.rd_wr_far _ _ (by decide), State.rd_wr_far _ _ (by decide), State.rd_wr_far _ _ (by decide),
      State.rd_wr_same _ _ _ rfl] <;> rfl

/-- The log with another entry. -/
def Acq.marked (a : Acq) (p c o : Nat) : Acq := { a with marks := a.marks ++ [⟨p % 2 ^ 32, c, o⟩] }

/-- A log with a free place takes an entry. -/
theorem State.addMark_room (p c o : Nat) (h : s.acq.marks.length < 16) : s.addMark p c o = (s.withAcq (s.acq.marked p c o)).showMarks := by
  rw [State.addMark, if_neg (Nat.not_le.2 h)] <;> rfl

theorem State.addMark_acq (p c o : Nat) (h : s.acq.marks.length < 16) : (s.addMark p c o).acq = s.acq.marked p c o := by
  rw [State.addMark_room p c o h, State.showMarks_acq, State.withAcq_acq]

theorem State.addMark_rd (p c o : Nat) (h : s.acq.marks.length < 16) (h1 : g.addr ≠ 0x40700048) (h2 : g.addr ≠ 0x4070004C) : (s.addMark p c o).rd g = s.rd g := by
  rw [State.addMark_room p c o h, State.showMarks_rd _ h1 h2, State.rd_congr _ _ (s.withAcq_regs _)]

/-! ### A record begins and ends -/

/-- What a record begins with: its period, its rows and its flags. -/
theorem State.beginRecord_begins (s : State) (p back cause : Nat) : (s.beginRecord p back cause).aqs = Aq.post ∧
    (∀ g : Fld, g.addr ≠ 0x40700004 → (s.beginRecord p back cause).rd g = s.rd g) ∧
    ∃ r, (s.beginRecord p back cause).acq = { s.acq with rec' := some r, missed := 0, early := 0, closed := false, closedBy := [] } ∧ r.cause = cause ∧ r.pTrig = p ∧
      r.pre = min (s.rd R.ACQ_PRE_PRE) (min (s.acq.fill - back) (s.rd R.ACQ_RINGROWS_N_RING - back - 1)) ∧ r.trig = s.acq.total - back ∧
      r.last = s.acq.total - back + s.rd R.ACQ_POST_POST ∧ r.flags = (decide (r.pre < s.rd R.ACQ_PRE_PRE)).toNat ∧ r.slot = s.acq.slot := by
  unfold State.beginRecord
  extract_lets trig held pre r u a v x
  have hm : ∀ f : State → State, (∀ t, (f t).regs = t.regs ∧ (f t).acq = t.acq) → (v.when (back != 0) f).regs = v.regs ∧ (v.when (back != 0) f).acq = v.acq := fun f hf =>
    State.when_keeps (fun t => t.regs = v.regs ∧ t.acq = v.acq) v _ f ⟨rfl, rfl⟩ (hf v)
  obtain ⟨hr, ha⟩ := hm (fun s => s.storeByte x (BitVec.ofNat 8 (Machine.putBit (s.loadByte x).toNat 5 true))) fun t => ⟨rfl, rfl⟩
  refine ⟨?_, fun g hg => ?_, r, ha, rfl, rfl, rfl, rfl, rfl, rfl, rfl⟩
  · rw [State.aqs, State.rd_congr _ _ hr]
    exact State.rd_wr_fits s rfl (show Aq.post < 2 ^ 3 by decide)
  · rw [State.rd_congr _ _ hr]
    exact State.rd_wr_far s _ hg

end Sys2Proof.Machine
end

section
/-! O47, O48: the end of a record, requests and their outcomes, the sequencer and one evaluation (R438 to R442, R446, R450). -/

namespace Sys2Proof.Machine

variable {s t : State} {g : Fld}

/-! ### The end of a record -/

/-- The registers count a record that ends. -/
def State.countRecord (s : State) (r : RecA) (flags seq : Nat) : State :=
  (((((((s.wr R.ACQ_REC_SEQ_SEQ seq).wr R.ACQ_TRIG_LO_P_LO r.pTrig).wr R.ACQ_TRIG_HI_P_HI (r.pTrig / 2 ^ 32)).inc R.ACQ_CNT_B_RECORDS).wr
    R.ACQ_STATUS_SLOT r.slot).when (bitOf flags 1) fun s => s.put R.ACQ_STATUS_OVERRUN true).when (bitOf flags 2) fun s => s.put R.ACQ_STATUS_TRUNC true)

/-- The capture after a record has ended. -/
def Acq.ended (a : Acq) (r : RecA) (slots : Nat) : Acq := { a with rec' := none, had := true, slot := (r.slot + 1) % Nat.max 1 slots }

/-- The words that the end of a record writes. -/
def recordWord (a : Nat) : Bool := a == 0x40700004 || a == 0x4070002C || a == 0x40700038 || a == 0x4070003C || a == 0x40700040

theorem State.countRecord_far (s : State) (r : RecA) (flags seq : Nat) (h : recordWord g.addr = false) : (s.countRecord r flags seq).rd g = s.rd g := by
  simp only [recordWord, Bool.or_eq_false_iff, beq_eq_false_iff_ne] at h
  obtain ⟨⟨⟨⟨h1, h2⟩, h3⟩, h4⟩, h5⟩ := h
  rw [State.countRecord, State.rd_when_put _ _ _ rfl (Fld.apart_of_addr h1), State.rd_when_put _ _ _ rfl (Fld.apart_of_addr h1), State.rd_wr_far _ _ h1,
    State.inc, State.rd_wr_far _ _ h2, State.rd_wr_far _ _ h5, State.rd_wr_far _ _ h4, State.rd_wr_far _ _ h3]

/-- A field of the status that the end of a record does not write. -/
theorem State.countRecord_status (s : State) (r : RecA) (flags seq : Nat) (ha : g.addr = 0x40700004) (h1 : R.ACQ_STATUS_SLOT.apart g = true)
    (h2 : R.ACQ_STATUS_OVERRUN.apart g = true) (h3 : R.ACQ_STATUS_TRUNC.apart g = true) : (s.countRecord r flags seq).rd g = s.rd g := by
  rw [State.countRecord, State.rd_when_put _ _ _ rfl h3, State.rd_when_put _ _ _ rfl h2, State.rd_wr_apart _ _ _ _ rfl h1,
    State.inc, State.rd_wr_far _ _ (by rw [ha]; decide), State.rd_wr_far _ _ (by rw [ha]; decide), State.rd_wr_far _ _ (by rw [ha]; decide),
    State.rd_wr_far _ _ (by rw [ha]; decide)]

theorem State.countRecord_seq (s : State) (r : RecA) (flags seq : Nat) : (s.countRecord r flags seq).rd R.ACQ_REC_SEQ_SEQ = seq % 2 ^ 32 := by
  rw [State.countRecord, State.rd_when_put _ _ _ rfl (by decide), State.rd_when_put _ _ _ rfl (by decide), State.rd_wr_far _ _ (by decide),
    State.inc, State.rd_wr_far _ _ (by decide), State.rd_wr_far _ _ (by decide), State.rd_wr_far _ _ (by decide), State.rd_wr_same _ _ _ rfl] <;> rfl

theorem State.countRecord_trig (s : State) (r : RecA) (flags seq : Nat) : (s.countRecord r flags seq).rd R.ACQ_TRIG_LO_P_LO = r.pTrig % 2 ^ 32 := by
  rw [State.countRecord, State.rd_when_put _ _ _ rfl (by decide), State.rd_when_put _ _ _ rfl (by decide), State.rd_wr_far _ _ (by decide),
    State.inc, State.rd_wr_far _ _ (by decide), State.rd_wr_far _ _ (by decide), State.rd_wr_same _ _ _ rfl] <;> rfl

theorem State.countRecord_records (s : State) (r : RecA) (flags seq : Nat) :
    (s.countRecord r flags seq).rd R.ACQ_CNT_B_RECORDS = Nat.min 65535 (s.rd R.ACQ_CNT_B_RECORDS + 1) := by
  rw [State.countRecord, State.rd_when_put _ _ _ rfl (by decide), State.rd_when_put _ _ _ rfl (by decide), State.rd_wr_far _ _ (by decide),
    State.rd_inc_same _ _ rfl, State.rd_wr_far _ _ (by decide), State.rd_wr_far _ _ (by decide), State.rd_wr_far _ _ (by decide)] <;> rfl

theorem State.countRecord_slot (s : State) (r : RecA) (flags seq : Nat) (h : r.slot < 256) : (s.countRecord r flags seq).rd R.ACQ_STATUS_SLOT = r.slot := by
  rw [State.countRecord, State.rd_when_put _ _ _ rfl (by decide), State.rd_when_put _ _ _ rfl (by decide)]
  exact State.rd_wr_fits _ rfl h

theorem State.countRecord_trunc (s : State) (r : RecA) (seq : Nat) {flags : Nat} (h : bitOf flags 2 = true) :
    (s.countRecord r flags seq).on R.ACQ_STATUS_TRUNC = true := by
  rw [State.countRecord, h, State.when_true, State.on_put_same _ _ _ rfl rfl]

theorem State.acq_when_put (s : State) (c b : Bool) (f : Fld) : (s.when c fun s => s.put f b).acq = s.acq :=
  State.when_keeps (fun t => t.acq = s.acq) s c _ rfl (s.put_acq f b)

theorem State.countRecord_acq (s : State) (r : RecA) (flags seq : Nat) : (s.countRecord r flags seq).acq = s.acq := by
  rw [State.countRecord, State.acq_when_put, State.acq_when_put, State.wr_acq, State.inc_acq, State.wr_acq, State.wr_acq, State.wr_acq]

/-- The end of a record writes the slot, counts the record, and leaves none. -/
theorem State.finishRecord_eq (s : State) (r : RecA) (flags : Nat) : ∃ u : State, u.regs = s.regs ∧
    s.finishRecord r flags = (u.countRecord r flags (s.rd R.ACQ_REC_SEQ_SEQ + 1)).withAcq (s.acq.ended r (s.rd R.ACQ_SLOT_N_SLOT)) := by
  unfold State.finishRecord
  extract_lets rb d a have' rows s1 s2 seq head s3 s4 s5 s6 x
  have hr2 : s2.regs = s.regs := (s1.storeBytes_regs _ _).trans (s.storeBytes_regs _ _)
  have hr : s3.regs = s.regs := (s2.storeBytes_regs _ _).trans hr2
  have ha : s3.acq = s.acq := (s2.storeBytes_acq _ _).trans ((s1.storeBytes_acq _ _).trans (s.storeBytes_acq _ _))
  have hseq : seq = s.rd R.ACQ_REC_SEQ_SEQ + 1 := congrArg (· + 1) (State.rd_congr s2 s hr2 _)
  have h6 : s6 = s3.countRecord r flags seq := rfl
  clear_value s6
  have hn : s6.rd R.ACQ_SLOT_N_SLOT = s.rd R.ACQ_SLOT_N_SLOT := by rw [h6, State.countRecord_far _ _ _ _ (by decide), State.rd_congr s3 s hr]
  have ha6 : s6.acq = s.acq := by rw [h6, State.countRecord_acq, ha]
  refine ⟨s3, hr, ?_⟩
  rw [← hseq, ← h6, ← hn, ← ha6]
  rfl

/-! ### Requests -/

theorem State.levelEntries_off (h : s.on R.ACD_CFG_EN = false) : s.levelEntries = [] := by
  rw [State.levelEntries, h, if_neg Bool.false_ne_true]

/-- A unit in no accord leads its capture and tells nobody. -/
theorem State.acqLeads_off (h : s.on R.ACD_CFG_EN = false) : s.acqLeads = true := by
  rw [State.acqLeads, h, Bool.not_false, Bool.true_or]

theorem State.ledLevels_off (h : s.on R.ACD_CFG_EN = false) : s.ledLevels = [] := by rw [State.ledLevels, State.levelEntries_off h, List.filter_nil]

theorem State.acqDown_off (h : s.on R.ACD_CFG_EN = false) (arg p cause : Nat) : s.acqDown arg p cause = s := by
  refine State.when_keeps (fun t => t = s) s s.speaks _ rfl ?_
  beta_reduce
  rw [State.ledLevels_off h, State.forL, List.foldl_nil]

theorem State.acqDown_regs (s : State) (arg p cause : Nat) : (s.acqDown arg p cause).regs = s.regs :=
  (keeps_acqDown (F := [.sent]) s arg p cause (by decide) (.refl _ _)).1.2 .regs (by decide)

theorem State.acqDown_acq (s : State) (arg p cause : Nat) : (s.acqDown arg p cause).acq = s.acq :=
  (keeps_acqDown (F := [.sent]) s arg p cause (by decide) (.refl _ _)).1.2 .acq (by decide)

theorem State.acqDown_mem (s : State) (arg p cause : Nat) : (s.acqDown arg p cause).mem = s.mem :=
  (keeps_acqDown (F := [.sent]) s arg p cause (by decide) (.refl _ _)).1.2 .mem (by decide)

theorem State.acqDown_sys (s : State) (arg p cause : Nat) : (s.acqDown arg p cause).sys = s.sys :=
  (keeps_acqDown (F := [.sent]) s arg p cause (by decide) (.refl _ _)).1.2 .sys (by decide)

/-- A request at the unit that leads: judged, logged and, where a record begins, told to the members. -/
def State.answerTrigger (p c : Nat) (s : State) : State :=
  let (s, outcome) := s.judge' p c
  (s.addMark p c outcome).when (outcome == 0) fun s => s.acqDown 3 p c

/-- In READY a request for the present period begins a record. -/
theorem State.answerTrigger_ready (c : Nat) (hacd : s.on R.ACD_CFG_EN = false) (hq : s.aqs = Aq.ready) (hm : s.acq.marks.length < 16) :
    State.answerTrigger s.sys.period c s = (s.beginRecord s.sys.period 0 c).addMark s.sys.period c 0 := by
  have hj : s.judge' s.sys.period c = (s.beginRecord s.sys.period 0 c, 0) := by
    rw [State.judge', Nat.sub_self, if_pos ⟨hq, .inl rfl⟩]
  obtain ⟨_, hfar, r, ha, _⟩ := s.beginRecord_begins s.sys.period 0 c
  have hoff : ((s.beginRecord s.sys.period 0 c).addMark s.sys.period c 0).on R.ACD_CFG_EN = false := by
    rw [State.on, State.addMark_rd _ _ _ (by rw [ha]; exact hm) (by decide) (by decide), hfar _ (by decide)]
    exact hacd
  rw [State.answerTrigger, hj]
  exact State.acqDown_off hoff 3 _ _

/-- A fill that is not ready counts a request as early. -/
theorem State.answerTrigger_fill (p c : Nat) (hq : s.aqs = Aq.fill) :
    State.answerTrigger p c s = ((s.inc R.ACQ_CNT_A_EARLY_TRIG).withAcq { s.acq with early := satAdd 16 s.acq.early 1 }).addMark p c 1 := by
  have hj : s.judge' p c = ((s.inc R.ACQ_CNT_A_EARLY_TRIG).withAcq { s.acq with early := satAdd 16 s.acq.early 1 }, 1) := by
    rw [State.judge', if_neg (fun h => absurd (hq.symm.trans h.1) (by decide)), if_neg (by rw [hq]; decide), if_neg (by rw [hq]; decide)] <;> rfl
  rw [State.answerTrigger, hj] <;> rfl

/-! ### The sequencer -/

/-- Condition 0 (Never) does not hold. -/
theorem State.sqCond_never {q : Nat} (h : s.rd (R.SQ_CFG_COND q) = 0) : s.sqCond q = false := by
  rw [State.sqCond, h] <;> rfl

/-- A state entered: only SEQ_ST, the count and the timer change. -/
theorem State.sqEnter_eq (s : State) (q : Nat) : s.sqEnter q = (s.wr R.ACQ_STATUS_SEQ_ST q).withAcq { s.acq with cnt := 0, tmr := 0 } := rfl

theorem State.sqEnter_shows (s : State) {q : Nat} (h : q < 8) : (s.sqEnter q).rd R.ACQ_STATUS_SEQ_ST = q ∧ (s.sqEnter q).aqs = s.aqs ∧
    (s.sqEnter q).acq = { s.acq with cnt := 0, tmr := 0 } ∧ ∀ g : Fld, g.addr ≠ 0x40700004 → (s.sqEnter q).rd g = s.rd g := by
  rw [State.sqEnter_eq, State.aqs]
  refine ⟨?_, ?_, State.withAcq_acq _ _, fun g hg => ?_⟩
  · rw [State.rd_congr _ _ (State.withAcq_regs _ _), State.rd_wr_fits s rfl h]
  · rw [State.rd_congr _ _ (State.withAcq_regs _ _), State.rd_wr_apart _ _ _ _ rfl (by decide), State.aqs]
  · rw [State.rd_congr _ _ (State.withAcq_regs _ _), State.rd_wr_far _ _ hg]

/-- Whether a sequencer state runs out its timeout or not: what an evaluation of a sequencer that does not match leaves. -/
def State.Quiet (s t : State) : Prop :=
  t.aqs = s.aqs ∧ t.sys = s.sys ∧ (∀ g : Fld, g.addr ≠ 0x40700004 → t.rd g = s.rd g) ∧ ∃ c m, t.acq = { s.acq with cnt := c, tmr := m }

theorem State.Quiet.counted (s : State) (c m : Nat) : s.Quiet (s.withAcq { s.acq with cnt := c, tmr := m }) :=
  ⟨State.rd_congr _ _ (State.withAcq_regs _ _) _, State.withAcq_sys _ _, fun g _ => State.rd_congr _ _ (State.withAcq_regs _ _) g, c, m, State.withAcq_acq _ _⟩

theorem State.Quiet.timedOut (s : State) (c m : Nat) : s.Quiet (s.withAcq { s.acq with cnt := c, tmr := m }).sqTimeout := by
  obtain ⟨haqs, hsys, hrd, c', m', ha⟩ := State.Quiet.counted s c m
  generalize s.withAcq { s.acq with cnt := c, tmr := m } = t at haqs hsys hrd ha ⊢
  obtain ⟨_, haqs', ha', hrd'⟩ := t.sqEnter_shows (t.rd_lt (R.SQ_CFG_TMO_NEXT (t.rd R.ACQ_STATUS_SEQ_ST)))
  exact ⟨haqs'.trans haqs, hsys, fun g hg => (hrd' g hg).trans (hrd g hg), 0, 0, by rw [State.sqTimeout, ha', ha]⟩

/-- A sequencer whose condition is Never and whose count is not reached makes no request. -/
theorem State.sequencer_never (hc : s.rd (R.SQ_CFG_COND (s.rd R.ACQ_STATUS_SEQ_ST)) = 0) (hn : s.acq.cnt < s.rd (R.SQ_CFG_CNT_N (s.rd R.ACQ_STATUS_SEQ_ST))) :
    ∃ t, s.sequencer = (t, none) ∧ s.Quiet t ∧
      (s.rd (R.SQ_TIM_TMO (s.rd R.ACQ_STATUS_SEQ_ST)) = 0 → t.regs = s.regs ∧ t.acq.tmr = s.acq.tmr + 1) := by
  have hcnt : ∃ c, c < s.rd (R.SQ_CFG_CNT_N (s.rd R.ACQ_STATUS_SEQ_ST)) ∧
      (if s.sqCond (s.rd R.ACQ_STATUS_SEQ_ST) then s.acq.cnt + 1 else if s.on (R.SQ_CFG_CONSEC (s.rd R.ACQ_STATUS_SEQ_ST)) then 0 else s.acq.cnt) = c := by
    rw [State.sqCond_never hc, if_neg Bool.false_ne_true]
    split
    · exact ⟨0, Nat.zero_lt_of_lt hn, rfl⟩
    · exact ⟨_, hn, rfl⟩
  obtain ⟨c, hlt, hcnt⟩ := hcnt
  have hmatch : (s.withAcq { s.acq with cnt := c }).sqMatched = false := decide_eq_false (Nat.not_le.2 hlt)
  have he : s.sequencer = ((s.withAcq { s.acq with cnt := c, tmr := s.acq.tmr + 1 }).when (s.withAcq { s.acq with cnt := c, tmr := s.acq.tmr + 1 }).sqTimedOut State.sqTimeout, none) := by
    rw [State.sequencer, hcnt]
    exact if_neg (by rw [Bool.not_eq_true]; exact hmatch)
  refine ⟨_, he, ?_, fun ht => ?_⟩
  · exact State.when_keeps s.Quiet _ _ _ (State.Quiet.counted _ _ _) (State.Quiet.timedOut _ _ _)
  · have hto : (s.withAcq { s.acq with cnt := c, tmr := s.acq.tmr + 1 }).sqTimedOut = false := Bool.and_eq_false_imp.2 fun h => absurd ht (bne_iff_ne.1 h)
    rw [hto, State.when_false]
    exact ⟨State.withAcq_regs _ _, rfl⟩

/-! ### One evaluation -/

/-- What the end of the dead time leaves (R442). -/
def State.Waited (s t : State) : Prop :=
  t.sys = s.sys ∧ (∀ g : Fld, g.addr ≠ 0x40700030 → g.addr ≠ 0x40700034 → t.rd g = s.rd g) ∧ ∃ d, t.acq = { s.acq with dead := d }

/-- The dead time ends: its length shows. -/
def State.endWait (s : State) : State :=
  let t := (s.wr R.ACQ_DEAD_LAST_LAST s.acq.fill).wr R.ACQ_DEAD_MAX_MAX (Nat.max (s.rd R.ACQ_DEAD_MAX_MAX) s.acq.fill)
  t.withAcq { t.acq with dead := s.acq.fill }

theorem State.Waited.refl (s : State) : s.Waited s := ⟨rfl, fun _ _ _ => rfl, s.acq.dead, rfl⟩

theorem State.Waited.endWait (s : State) : s.Waited s.endWait := by
  rw [State.endWait]
  refine ⟨?_, fun g h1 h2 => ?_, s.acq.fill, ?_⟩
  · rw [State.withAcq_sys, State.wr_sys, State.wr_sys]
  · rw [State.rd_congr _ _ (State.withAcq_regs _ _), State.rd_wr_far _ _ h2, State.rd_wr_far _ _ h1]
  · rw [State.withAcq_acq, State.wr_acq, State.wr_acq]

/-- A fill that holds its rows becomes READY, and the dead time ends. -/
theorem State.acqReady_of_held (hq : s.aqs = Aq.fill) (hp : s.rd R.ACQ_PRE_PRE ≤ s.acq.fill) : (s.setAqs Aq.ready).Waited s.acqReady := by
  have he : s.acqReady = (s.setAqs Aq.ready).when (s.setAqs Aq.ready).acq.had State.endWait := by
    rw [State.acqReady, if_pos ⟨hq, hp⟩] <;> rfl
  rw [he]
  exact State.when_keeps (s.setAqs Aq.ready).Waited _ _ _ (State.Waited.refl _) (State.Waited.endWait _)

theorem State.acqReady_unheld (h : ¬(s.aqs = Aq.fill ∧ s.rd R.ACQ_PRE_PRE ≤ s.acq.fill)) : s.acqReady = s := by
  rw [State.acqReady, if_neg h]

/-- The requests of an evaluation have been taken up. -/
def State.cleared (s : State) : State := s.withAcq { s.acq with force := false, armAt := none, reqs := [] }

theorem State.cleared_regs (s : State) : s.cleared.regs = s.regs := rfl

theorem State.cleared_sys (s : State) : s.cleared.sys = s.sys := rfl

theorem State.cleared_acq (s : State) : s.cleared.acq = { s.acq with force := false, armAt := none, reqs := [] } := rfl

/-- Without a request an evaluation only writes its row. -/
theorem State.acqEvaluate_quiet (hr : s.acqRuns = true) (ha : s.acq.armAt = none) (hs : s.acqReady.sequencer = (t, none)) (hf : t.acq.force = false)
    (hreqs : t.acq.reqs = []) : s.acqEvaluate = t.cleared.rowEnd false := by
  rw [State.acqEvaluate, hr, ha, if_neg (by rw [Option.map_none]; decide)]
  extract_lets u
  rw [show u.sequencer = (t, none) from hs]
  dsimp only
  rw [hf, hreqs, if_neg (by decide : ¬((none : Option Nat).isSome || false) = true)]
  dsimp only [Option.map_none, Option.toList_none]
  split
  · rfl
  · rfl

/-- A FORCE in a unit that leads is the one request of the evaluation. -/
theorem State.acqEvaluate_forced (hr : s.acqRuns = true) (ha : s.acq.armAt = none) (hs : s.acqReady.sequencer = (t, none)) (hf : t.acq.force = true)
    (hreqs : t.acq.reqs = []) (hl : t.acqLeads = true) : s.acqEvaluate = (State.answerTrigger t.sys.period 16 t.cleared).rowEnd true := by
  rw [State.acqEvaluate, hr, ha, if_neg (by rw [Option.map_none]; decide)]
  extract_lets u
  rw [show u.sequencer = (t, none) from hs]
  dsimp only
  rw [hf, hreqs, hl, if_pos (by decide : ((none : Option Nat).isSome || true) = true)]
  rfl

end Sys2Proof.Machine
end

section
/-! O47: the commands of the capture registers (R438 to R445, R451). -/

namespace Sys2Proof.Machine

variable {s t : State} {g : Fld} {a v : Nat}

/-! ### Writes of the capture registers -/

theorem kcRow_acqCtrl : kcRow 0x40700000 = some ⟨0x40700000, 1, 0x4, 1, 0x4, [⟨0, 1, .wo, 0, .any⟩, ⟨1, 1, .wo, 0, .any⟩, ⟨2, 1, .wo, 0, .any⟩]⟩ := rfl

theorem kcRow_acqClr : kcRow 0x40700044 = some ⟨0x40700044, 1, 0x4, 1, 0x4, [⟨0, 1, .wo, 0, .any⟩]⟩ := rfl

theorem kcRow_acqMarkNext : kcRow 0x40700050 = some ⟨0x40700050, 1, 0x4, 1, 0x4, [⟨0, 1, .wo, 0, .any⟩]⟩ := rfl

/-- A command word of the capture is carried out by the capture. -/
theorem State.write_acq {r : RegRow} {f : Fld} (hr : s.role = Role.solo) (hrun : s.inputsRun = true) (hk : kcRow f.addr = some r)
    (hw : r.fields.all (fun f => f.acc == .wo && f.legal == .any) = true) (ha : f.addr / 0x100000 = 0x407)
    (hx : ∀ w, (s.acqWrite f.addr w v s.accepting).1 = t) (ht : t.role = Role.solo) : s.write f v = .next t := by
  obtain ⟨w, h⟩ := State.wouldStand_of_row hk hw s v
  have he : s.applyWrite 0 f.addr w v s.accepting = s.acqWrite f.addr w v s.accepting := by
    unfold State.applyWrite
    rw [ha]
    rfl
  exact congrArg Host.Outcome.next (State.regWrite_block hr hrun (by omega) (by rw [ha]; decide) (fun h => absurd (h ▸ ha) (by decide)) h
    ((congrArg Prod.fst he).trans (hx w)) ht)

theorem State.acqWrite_ctrl (s : State) (w v : Nat) (gate : Bool) : (s.acqWrite R.ACQ_CTRL_ARM.addr w v gate).1 =
    ((if bitOf v 0 then s.acqArm gate else (s, 0)).1.when (bitOf v 1) State.acqDisarm).when (bitOf v 2) State.acqForce := by
  rw [State.acqWrite, show acqConfig R.ACQ_CTRL_ARM.addr = false by decide, Bool.false_and, if_neg Bool.false_ne_true, if_pos rfl]

theorem State.acqWrite_arm (s : State) (w : Nat) (gate : Bool) : (s.acqWrite R.ACQ_CTRL_ARM.addr w 1 gate).1 = (s.acqArm gate).1 := by
  rw [State.acqWrite_ctrl, if_pos (by decide), show bitOf 1 1 = false by decide, show bitOf 1 2 = false by decide, State.when_false, State.when_false]

theorem State.acqWrite_disarm (s : State) (w : Nat) (gate : Bool) : (s.acqWrite R.ACQ_CTRL_ARM.addr w 2 gate).1 = s.acqDisarm := by
  rw [State.acqWrite_ctrl, if_neg (by decide), show bitOf 2 1 = true by decide, show bitOf 2 2 = false by decide, State.when_true, State.when_false]

theorem State.acqWrite_force (s : State) (w : Nat) (gate : Bool) : (s.acqWrite R.ACQ_CTRL_ARM.addr w 4 gate).1 = s.acqForce := by
  rw [State.acqWrite_ctrl, if_neg (by decide), show bitOf 4 1 = false by decide, show bitOf 4 2 = true by decide, State.when_true, State.when_false]

theorem State.acqWrite_clr (s : State) (w : Nat) (gate : Bool) : (s.acqWrite R.ACQ_CLR_CLR.addr w 1 gate).1 = s.acqClr := by
  rw [State.acqWrite, show acqConfig R.ACQ_CLR_CLR.addr = false by decide, Bool.false_and, if_neg Bool.false_ne_true, if_neg (by decide), if_pos rfl,
    show bitOf 1 0 = true by decide, State.when_true]

theorem State.acqWrite_markNext (s : State) (w : Nat) (gate : Bool) : (s.acqWrite R.ACQ_MARK_NEXT_NEXT.addr w 1 gate).1 = s.markNext := by
  rw [State.acqWrite, show acqConfig R.ACQ_MARK_NEXT_NEXT.addr = false by decide, Bool.false_and, if_neg Bool.false_ne_true, if_neg (by decide),
    if_neg (by decide), if_pos rfl, show bitOf 1 0 = true by decide, State.when_true]

theorem exec_acqArm (hr : s.role = Role.solo) (hrun : s.inputsRun = true) (ht : (s.acqArm s.accepting).1.role = Role.solo) :
    exec .acqArm s = .next (s.acqArm s.accepting).1 :=
  State.write_acq (f := R.ACQ_CTRL_ARM) hr hrun kcRow_acqCtrl (by decide) (by decide) (fun w => s.acqWrite_arm w _) ht

theorem exec_acqDisarm (hr : s.role = Role.solo) (hrun : s.inputsRun = true) (ht : s.acqDisarm.role = Role.solo) : exec .acqDisarm s = .next s.acqDisarm :=
  State.write_acq (f := R.ACQ_CTRL_ARM) hr hrun kcRow_acqCtrl (by decide) (by decide) (fun w => s.acqWrite_disarm w _) ht

theorem exec_acqForce (hr : s.role = Role.solo) (hrun : s.inputsRun = true) (ht : s.acqForce.role = Role.solo) : exec .acqForce s = .next s.acqForce :=
  State.write_acq (f := R.ACQ_CTRL_ARM) hr hrun kcRow_acqCtrl (by decide) (by decide) (fun w => s.acqWrite_force w _) ht

theorem exec_acqClr (hr : s.role = Role.solo) (hrun : s.inputsRun = true) (ht : s.acqClr.role = Role.solo) : exec .acqClr s = .next s.acqClr :=
  State.write_acq (f := R.ACQ_CLR_CLR) hr hrun kcRow_acqClr (by decide) (by decide) (fun w => s.acqWrite_clr w _) ht

theorem exec_acqMarkNext (hr : s.role = Role.solo) (hrun : s.inputsRun = true) (ht : s.markNext.role = Role.solo) : exec .acqMarkNext s = .next s.markNext :=
  State.write_acq (f := R.ACQ_MARK_NEXT_NEXT) hr hrun kcRow_acqMarkNext (by decide) (by decide) (fun w => s.acqWrite_markNext w _) ht

/-! ### ARM -/

theorem State.armCode_running (gate : Bool) (hi : s.aqs ≠ Aq.idle) (hd : s.aqs ≠ Aq.done) : s.armCode gate = 1 := by
  rw [State.armCode]
  exact if_pos (by rw [bne_iff_ne.2 hi, bne_iff_ne.2 hd, Bool.and_true, Bool.or_true])

/-- Conditions of an ARM are judged in order: a ring too small where the capture may be armed. -/
theorem State.armCode_small (hq : s.aqs = Aq.idle ∨ s.aqs = Aq.done) (hn : s.rd R.ACQ_RING_SIZE * 2 ^ 20 / s.rowBytes < s.rd R.ACQ_PRE_PRE + 1) :
    s.armCode true = 2 := by
  have hs : ¬((!true || (s.aqs != Aq.idle && s.aqs != Aq.done)) = true) := by
    rcases hq with h | h <;> rw [h] <;> decide
  rw [State.armCode]
  exact (if_neg hs).trans (if_pos (Nat.lt_of_lt_of_le hn (Nat.le_add_right _ _)))

theorem State.acqArm_refused {gate : Bool} (h : s.armCode gate ≠ 0) : (s.acqArm gate).1 = s.wr R.ACQ_STATUS_ARM_ERR (s.armCode gate) := by
  rw [State.acqArm]
  exact congrArg Prod.fst (if_pos h)

theorem State.acqArm_starts {gate : Bool} (h : s.armCode gate = 0) (hacd : s.on R.ACD_CFG_EN = false) : (s.acqArm gate).1 = s.acqStart none := by
  rw [State.acqArm]
  exact congrArg Prod.fst ((if_neg (not_not.2 h)).trans (if_neg (by rw [hacd]; decide)))

theorem State.accepting_solo (hr : s.role = Role.solo) (hf : s.on R.ACD_STATUS_FORMED = false) : s.accepting = true := by
  rw [State.accepting, hr, hf, Bool.not_false, Bool.true_or]
  decide

/-- The words that the start of a capture writes. -/
def armWord (a : Nat) : Bool := a == 0x40700004 || a == 0x40700020 || a == 0x40700024

theorem armWord_far (h : a < 0x40700000) : armWord a = false := by
  simp only [armWord, Bool.or_eq_false_iff, beq_eq_false_iff_ne]
  omega

/-- The cells to record depend on no word that the start of a capture writes. -/
theorem State.recorded_congr (hs : t.sys = s.sys) (hg : ∀ g : Fld, armWord g.addr = false → t.rd g = s.rd g) : t.recorded = s.recorded := by
  have hcfg : ∀ g : Fld, armWord g.addr = false → t.cfg g = s.cfg g := fun g h => by
    rw [State.cfg, State.cfg, State.crd, State.crd, hs, hg g h]
  have harm : ∀ p, p < 48 → t.portArm p = s.portArm p := fun p hp => hcfg _ (armWord_far (by dsimp only [R.STRAND_ARM_ARM]; omega))
  have hncell : ∀ p, p < 48 → t.ncell p = s.ncell p := fun p hp => by
    rw [State.ncell, State.ncell, State.crd, State.crd, hs, hg _ (armWord_far (by dsimp only [R.PORT_STATUS_NCELL]; omega))]
  have hhandle : ∀ p i, t.handle p i = s.handle p i := fun p i => by
    rw [State.handle, State.handle, State.kcx, State.kcx, State.on, State.on, hg R.ACD_CFG_EN (by decide), hg (R.LVLE_W0_MIDX 0) (by decide)]
  have hf : ((upto 48).filter fun p => decide (t.portArm p < 6) && t.bit R.ACQ_CFG_CELL_ARMS (t.portArm p)) =
      (upto 48).filter fun p => decide (s.portArm p < 6) && s.bit R.ACQ_CFG_CELL_ARMS (s.portArm p) :=
    List.filter_congr fun p hp => by
      rw [harm p (List.mem_range.1 hp), State.bit, State.bit, hg R.ACQ_CFG_CELL_ARMS (by decide)]
  rw [State.recorded, State.recorded, hf]
  refine List.flatMap_congr fun p hp => ?_
  rw [hncell p (List.mem_range.1 (List.mem_filter.1 hp).1)]
  exact List.map_congr_left fun i _ => hhandle p i

/-- The words of a capture that starts. -/
def State.startWords (s : State) (acd : Bool) : State := (((s.setAqs Aq.fill).put R.ACQ_STATUS_MODE acd).wr R.ACQ_STATUS_SEQ_ST 0).wr R.ACQ_STATUS_ARM_ERR 0

def State.layoutWords (s : State) (rb n rows : Nat) : State := ((s.wr R.ACQ_LAYOUT_ROW_B rb).wr R.ACQ_LAYOUT_N_CELL n).wr R.ACQ_RINGROWS_N_RING rows

theorem State.startWords_far (s : State) (acd : Bool) (h : g.addr ≠ 0x40700004) : (s.startWords acd).rd g = s.rd g := by
  rw [State.startWords, State.rd_wr_far _ _ h, State.rd_wr_far _ _ h, State.put, State.rd_wr_far _ _ h, State.setAqs, State.rd_wr_far _ _ h]

theorem State.startWords_shows (s : State) (acd : Bool) : (s.startWords acd).aqs = Aq.fill ∧ (s.startWords acd).rd R.ACQ_STATUS_SEQ_ST = 0 ∧
    (s.startWords acd).rd R.ACQ_STATUS_ARM_ERR = 0 ∧ (s.startWords acd).on R.ACQ_STATUS_MODE = acd := by
  rw [State.startWords]
  refine ⟨?_, ?_, State.rd_wr_fits _ rfl (by decide), ?_⟩
  · rw [State.aqs, State.rd_wr_apart _ _ _ _ rfl (by decide), State.rd_wr_apart _ _ _ _ rfl (by decide), State.rd_put_apart _ _ _ _ rfl (by decide)]
    exact State.rd_wr_fits s rfl (by decide)
  · rw [State.rd_wr_apart _ _ _ _ rfl (by decide)]
    exact State.rd_wr_fits _ rfl (by decide)
  · rw [State.on_wr_apart _ _ _ rfl (by decide), State.on_wr_apart _ _ _ rfl (by decide), State.on_put_same _ _ _ rfl rfl]

theorem State.layoutWords_far (s : State) (rb n rows : Nat) (h1 : g.addr ≠ 0x40700020) (h2 : g.addr ≠ 0x40700024) : (s.layoutWords rb n rows).rd g = s.rd g := by
  rw [State.layoutWords, State.rd_wr_far _ _ h2, State.rd_wr_far _ _ h1, State.rd_wr_far _ _ h1]

theorem State.layoutWords_shows (s : State) (rb n rows : Nat) : (s.layoutWords rb n rows).rd R.ACQ_LAYOUT_ROW_B = rb % 2 ^ 16 ∧
    (s.layoutWords rb n rows).rd R.ACQ_RINGROWS_N_RING = rows % 2 ^ 32 := by
  rw [State.layoutWords]
  refine ⟨?_, State.rd_wr_same _ _ _ rfl⟩
  rw [State.rd_wr_far _ _ (by decide), State.rd_wr_apart _ _ _ _ rfl (by decide)]
  exact State.rd_wr_same _ _ _ rfl

theorem State.startWords_sys (s : State) (acd : Bool) : (s.startWords acd).sys = s.sys := by
  rw [State.startWords, State.wr_sys, State.wr_sys, State.put_sys, State.setAqs, State.wr_sys]

theorem State.layoutWords_sys (s : State) (rb n rows : Nat) : (s.layoutWords rb n rows).sys = s.sys := by
  rw [State.layoutWords, State.wr_sys, State.wr_sys, State.wr_sys]

theorem State.ringRegion_size (s : State) : s.ringRegion.2 = s.rd R.ACQ_RING_SIZE * 2 ^ 20 := rfl

/-- The capture starts with its words, its cells and no row. -/
theorem State.acqStart_eq (s : State) (armAt : Option Nat) : ∃ n,
    (s.acqStart armAt).regs = ((s.startWords (s.on R.ACD_CFG_EN)).layoutWords s.rowBytes n (s.rd R.ACQ_RING_SIZE * 2 ^ 20 / s.rowBytes)).regs ∧
    (s.acqStart armAt).sys = s.sys ∧ (s.acqStart armAt).acq.fill = 0 ∧ (s.acqStart armAt).acq.total = 0 ∧ (s.acqStart armAt).acq.armAt = armAt ∧
    (s.acqStart armAt).acq.cells = s.recorded := by
  unfold State.acqStart
  extract_lets rb u w lines
  have hu : u = s.startWords (s.on R.ACD_CFG_EN) := rfl
  have hring : u.ringRegion.2 = s.rd R.ACQ_RING_SIZE * 2 ^ 20 := by
    rw [State.ringRegion_size, hu, State.startWords_far _ _ (by decide)]
  have hw : w = u.layoutWords rb u.recorded.length (u.ringRegion.2 / rb) := rfl
  clear_value u
  have hsys : w.sys = s.sys := by rw [hw, State.layoutWords_sys, hu, State.startWords_sys]
  have hrec : w.recorded = s.recorded := State.recorded_congr hsys fun g h => by
    simp only [armWord, Bool.or_eq_false_iff, beq_eq_false_iff_ne] at h
    rw [hw, State.layoutWords_far _ _ _ _ h.1.2 h.2, hu, State.startWords_far _ _ h.1.1]
  clear_value w
  exact ⟨u.recorded.length, by rw [hw, hring, hu], hsys, rfl, rfl, rfl, hrec⟩

/-! ### DISARM (R441, R443) -/

/-- The capture stands in IDLE. -/
def State.toIdle (s : State) : State := (s.setAqs Aq.idle).withAcq { s.acq with force := false, armAt := none, reqs := [] }

theorem State.toIdle_aqs (s : State) : s.toIdle.aqs = Aq.idle := by
  rw [State.toIdle, State.aqs, State.rd_congr _ _ (State.withAcq_regs _ _)]
  exact State.rd_wr_fits s rfl (by decide)

theorem State.toIdle_rd (s : State) (h : R.ACQ_STATUS_STATE.apart g = true) : s.toIdle.rd g = s.rd g := by
  rw [State.toIdle, State.rd_congr _ _ (State.withAcq_regs _ _)]
  exact State.rd_wr_apart s _ g _ rfl h

theorem State.toIdle_acq (s : State) : s.toIdle.acq = { s.acq with force := false, armAt := none, reqs := [] } := rfl

theorem State.toIdle_mem (s : State) : s.toIdle.mem = s.mem := rfl

theorem State.acqStop_idle (h : s.aqs = Aq.idle) : s.acqStop = s := by rw [State.acqStop, if_pos h]

theorem State.acqStop_none (hi : s.aqs ≠ Aq.idle) (hn : s.acq.rec' = none) : s.acqStop = s.toIdle := by
  rw [State.acqStop, if_neg hi, hn, if_neg (by rw [Option.isSome_none]; exact fun h => absurd h.2 (by decide))] <;> rfl

theorem State.acqStop_close (hq : s.aqs = Aq.close) (hr : s.acq.rec'.isSome = true) : s.acqStop = s.withAcq { s.acq with disarm := true } := by
  rw [State.acqStop, if_neg (by rw [hq]; decide), if_pos ⟨hq, hr⟩] <;> rfl

/-- A record that runs ends with TRUNC. -/
theorem State.acqStop_record {r : RecA} (hi : s.aqs ≠ Aq.idle) (hc : s.aqs ≠ Aq.close) (hr : s.acq.rec' = some r) :
    s.acqStop = (s.finishRecord r (Machine.putBit (s.endFlags r) 2 true)).toIdle := by
  rw [State.acqStop, if_neg hi, if_neg (fun h => hc h.1), hr] <;> rfl

theorem State.acqDisarm_off (h : s.acqStop.on R.ACD_CFG_EN = false) : s.acqDisarm = s.acqStop := State.acqDown_off h 5 _ 0

/-- An ended record shows where the state that it leaves is read. -/
theorem State.finishRecord_rd (s : State) (r : RecA) (flags : Nat) : ∃ u : State, u.regs = s.regs ∧
    (∀ g, (s.finishRecord r flags).rd g = (u.countRecord r flags (s.rd R.ACQ_REC_SEQ_SEQ + 1)).rd g) ∧
    (s.finishRecord r flags).acq = s.acq.ended r (s.rd R.ACQ_SLOT_N_SLOT) := by
  obtain ⟨u, hu, he⟩ := s.finishRecord_eq r flags
  refine ⟨u, hu, fun g => ?_, ?_⟩
  · rw [he, State.rd_congr _ _ (State.withAcq_regs _ _)]
  · rw [he, State.withAcq_acq]

theorem State.finishRecord_far (s : State) (r : RecA) (flags : Nat) (h : recordWord g.addr = false) : (s.finishRecord r flags).rd g = s.rd g := by
  obtain ⟨u, hu, hrd, _⟩ := s.finishRecord_rd r flags
  rw [hrd, State.countRecord_far _ _ _ _ h, State.rd_congr u s hu]

/-! ### FORCE, CLR and the mark log (R440, R445, R451) -/

theorem State.acqForce_runs (h : s.acqRuns = true) : s.acqForce = s.withAcq { s.acq with force := true } := by
  rw [State.acqForce, if_pos h] <;> rfl

theorem State.acqForce_stopped (h : s.acqRuns = false) : s.acqForce = s.addMark s.sys.period 16 4 := by
  rw [State.acqForce, if_neg (by rw [h]; decide)]

theorem State.acqClr_far (s : State) (h1 : g.addr ≠ 0x40700028) (h2 : g.addr ≠ 0x4070002C) (h3 : g.addr ≠ 0x40700034) : s.acqClr.rd g = s.rd g := by
  rw [State.acqClr, State.rd_wr_far _ _ h3, State.rd_setWord_ne _ R.ACQ_CNT_B_IN_REC.addr _ h2, State.rd_setWord_ne _ R.ACQ_CNT_A_EARLY_TRIG.addr _ h1]

theorem State.rd_setWord_zero (s : State) (h : g.addr = a) : (s.setWord a 0).rd g = 0 := by
  rw [State.rd, h, State.word_setWord_same, bitsOf, Nat.zero_mod, Nat.zero_div, Nat.zero_mod]

/-- The counts and the longest dead time are 0 after a CLR. -/
theorem State.acqClr_shows (s : State) : s.acqClr.rd R.ACQ_CNT_A_EARLY_TRIG = 0 ∧ s.acqClr.rd R.ACQ_CNT_A_MISSED_TRIG = 0 ∧ s.acqClr.rd R.ACQ_CNT_B_IN_REC = 0 ∧
    s.acqClr.rd R.ACQ_CNT_B_RECORDS = 0 ∧ s.acqClr.rd R.ACQ_DEAD_MAX_MAX = 0 := by
  have hA : ∀ g : Fld, g.addr = 0x40700028 → s.acqClr.rd g = 0 := fun g h => by
    rw [State.acqClr, State.rd_wr_far _ _ (by rw [h]; decide), State.rd_setWord_ne _ R.ACQ_CNT_B_IN_REC.addr _ (by rw [h]; decide),
      State.rd_setWord_zero (a := R.ACQ_CNT_A_EARLY_TRIG.addr) _ h]
  have hB : ∀ g : Fld, g.addr = 0x4070002C → s.acqClr.rd g = 0 := fun g h => by
    rw [State.acqClr, State.rd_wr_far _ _ (by rw [h]; decide), State.rd_setWord_zero (a := R.ACQ_CNT_B_IN_REC.addr) _ h]
  exact ⟨hA _ rfl, hA _ rfl, hB _ rfl, hB _ rfl, State.rd_wr_fits _ rfl (by decide)⟩

theorem State.acqClr_acq (s : State) : s.acqClr.acq = s.acq := by
  rw [State.acqClr, State.wr_acq, State.setWord_acq, State.setWord_acq]

theorem State.markNext_eq (s : State) : s.markNext = (s.withAcq { s.acq with marks := s.acq.marks.tail }).showMarks := rfl

/-! ### The sequencer's own events (R438) -/

theorem State.sqMatch_fire (h : s.on (R.SQ_CFG_FIRE (s.rd R.ACQ_STATUS_SEQ_ST)) = true) :
    s.sqMatch = (s.sqEnter (s.rd (R.SQ_CFG_NEXT (s.rd R.ACQ_STATUS_SEQ_ST))), some (s.rd R.ACQ_STATUS_SEQ_ST + 8)) := by
  rw [State.sqMatch]
  rw [if_pos h]

theorem State.sqMatch_silent (h : s.on (R.SQ_CFG_FIRE (s.rd R.ACQ_STATUS_SEQ_ST)) = false) :
    s.sqMatch = (s.sqEnter (s.rd (R.SQ_CFG_NEXT (s.rd R.ACQ_STATUS_SEQ_ST))), none) := by
  rw [State.sqMatch]
  rw [if_neg (by rw [h]; decide)]

theorem State.sqMatched_of_count (h : s.rd (R.SQ_CFG_CNT_N (s.rd R.ACQ_STATUS_SEQ_ST)) ≤ s.acq.cnt) : s.sqMatched = true := decide_eq_true h

theorem exec_sequencerMatch_fire (hr : s.acqRuns = true) (hm : s.sqMatched = true) (hacd : s.on R.ACD_CFG_EN = false)
    (hf : s.on (R.SQ_CFG_FIRE (s.rd R.ACQ_STATUS_SEQ_ST)) = true) (ht : t = s.sqEnter (s.rd (R.SQ_CFG_NEXT (s.rd R.ACQ_STATUS_SEQ_ST)))) :
    exec .sequencerMatch s = .next (t.withAcq { t.acq with reqs := t.acq.reqs ++ [(t.sys.period, s.rd R.ACQ_STATUS_SEQ_ST + 8)] }) := by
  have hx : exec .sequencerMatch s = execSequencerMatch s := rfl
  have hl : t.acqLeads = true := by
    obtain ⟨_, _, _, hfar⟩ := s.sqEnter_shows (s.rd_lt (R.SQ_CFG_NEXT (s.rd R.ACQ_STATUS_SEQ_ST)))
    exact State.acqLeads_off (by rw [ht, State.on, hfar _ (by decide)]; exact hacd)
  rw [hx, execSequencerMatch, hr, hm, State.sqMatch_fire hf, ← ht]
  dsimp only
  rw [hl, if_pos rfl, if_pos (Bool.and_true true)] <;> rfl

theorem exec_sequencerMatch_silent (hr : s.acqRuns = true) (hm : s.sqMatched = true) (hf : s.on (R.SQ_CFG_FIRE (s.rd R.ACQ_STATUS_SEQ_ST)) = false) :
    exec .sequencerMatch s = .next (s.sqEnter (s.rd (R.SQ_CFG_NEXT (s.rd R.ACQ_STATUS_SEQ_ST)))) := by
  have hx : exec .sequencerMatch s = execSequencerMatch s := rfl
  rw [hx, execSequencerMatch, hr, hm, State.sqMatch_silent hf] <;> rfl

theorem exec_sequencerTimeout_due (hr : s.acqRuns = true) (hm : s.acq.cnt < s.rd (R.SQ_CFG_CNT_N (s.rd R.ACQ_STATUS_SEQ_ST)))
    (h0 : s.rd (R.SQ_TIM_TMO (s.rd R.ACQ_STATUS_SEQ_ST)) ≠ 0) (h : s.rd (R.SQ_TIM_TMO (s.rd R.ACQ_STATUS_SEQ_ST)) ≤ s.acq.tmr) :
    exec .sequencerTimeout s = .next (s.sqEnter (s.rd (R.SQ_CFG_TMO_NEXT (s.rd R.ACQ_STATUS_SEQ_ST)))) := by
  have hx : exec .sequencerTimeout s = execSequencerTimeout s := rfl
  have hto : s.sqTimedOut = true := Bool.and_eq_true_iff.2 ⟨bne_iff_ne.2 h0, decide_eq_true h⟩
  rw [hx, execSequencerTimeout, hr, hto, show s.sqMatched = false from decide_eq_false (Nat.not_le.2 hm)] <;> rfl

/-! ### The copy of a record ends (R441) -/

theorem State.leaveClose_single (hq : s.aqs = Aq.close) (hc : s.acq.closed = true) (hd : s.acq.disarm = false) (hm : s.on R.ACQ_STATUS_MODE = false) :
    s.leaveClose = s.setAqs Aq.done := by
  rw [State.leaveClose, if_neg (by rw [hq, hc]; decide), if_neg (by rw [hd]; decide), if_pos (by rw [hm]; decide)]

theorem State.leaveClose_open (hc : s.acq.closed = false) : s.leaveClose = s := by
  rw [State.leaveClose, if_pos (.inr (by rw [hc]; decide))]

theorem State.recordClose_whole {r : RecA} (hq : s.aqs = Aq.close) (hr : s.acq.rec' = some r) :
    s.recordClose none = ((s.finishRecord r (s.endFlags r)).withAcq { (s.finishRecord r (s.endFlags r)).acq with closed := true }).leaveClose := by
  rw [State.recordClose, hr]
  dsimp only
  rw [if_neg (not_not.2 hq)] <;> rfl

end Sys2Proof.Machine
end

section
/-! O47: the capture arms, fills, fires and closes (R438 to R446, R451). -/

namespace Sys2Proof.Machine

variable {s t : State} {g : Fld}

theorem exec_acqEvaluation (hrun : s.inputsRun = true) (hl : s.st ≠ St.locked) : exec .acqEvaluation s = .next s.acqEvaluate := by
  have hx : exec .acqEvaluation s = execAcqEvaluation s := rfl
  rw [hx, execAcqEvaluation, hrun, bne_iff_ne.2 hl, Bool.and_true, State.when_true]

theorem State.acqRuns_of (h1 : 1 ≤ s.aqs) (h4 : s.aqs ≤ 4) : s.acqRuns = true := by
  rw [State.acqRuns, decide_eq_true h1, decide_eq_true h4, Bool.and_true]

theorem State.rowAddr_congr (h : t.regs = s.regs) (i : Nat) : t.rowAddr i = s.rowAddr i := by
  rw [State.rowAddr, State.rowAddr, State.rd_congr t s h, State.rd_congr t s h, State.rd_congr t s h]

/-- What stands before the row of an evaluation, once its requests have been taken up. -/
theorem State.Quiet.cleared (h : s.Quiet t) : t.cleared.aqs = s.aqs ∧ t.cleared.sys = s.sys ∧ (∀ g : Fld, g.addr ≠ 0x40700004 → t.cleared.rd g = s.rd g) ∧
    ∃ c m, t.cleared.acq = { s.acq with cnt := c, tmr := m, force := false, armAt := none, reqs := [] } := by
  obtain ⟨haqs, hsys, hrd, c, m, ha⟩ := h
  refine ⟨?_, ?_, fun g hg => ?_, c, m, ?_⟩
  · rw [State.aqs, State.rd_congr _ _ t.cleared_regs, ← haqs, State.aqs]
  · rw [State.cleared_sys, hsys]
  · rw [State.rd_congr _ _ t.cleared_regs, hrd g hg]
  · rw [State.cleared_acq, ha]

/-- A fill without a request takes one row. -/
theorem State.acqEvaluate_fills (hq : s.aqs = Aq.fill) (hp : s.acq.fill < s.rd R.ACQ_PRE_PRE) (ha : s.acq.armAt = none) (hreqs : s.acq.reqs = [])
    (hforce : s.acq.force = false) (hrec : s.acq.rec' = none) (hcond : s.rd (R.SQ_CFG_COND (s.rd R.ACQ_STATUS_SEQ_ST)) = 0)
    (hcnt : s.acq.cnt < s.rd (R.SQ_CFG_CNT_N (s.rd R.ACQ_STATUS_SEQ_ST))) (htmo : s.rd (R.SQ_TIM_TMO (s.rd R.ACQ_STATUS_SEQ_ST)) = 0)
    (hrow : 8 ≤ s.rd R.ACQ_LAYOUT_ROW_B) : s.acqEvaluate.aqs = Aq.fill ∧ s.acqEvaluate.acq.fill = s.acq.fill + 1 ∧ s.acqEvaluate.acq.total = s.acq.total + 1 ∧
      s.acqEvaluate.acq.tmr = s.acq.tmr + 1 ∧ s.acqEvaluate.loadBytes (s.rowAddr s.acq.total) 8 = bytesLE 8 s.sys.period ∧ s.acqEvaluate.acq.marks = s.acq.marks := by
  obtain ⟨t, hseq, hquiet, htmr⟩ := State.sequencer_never hcond hcnt
  obtain ⟨hregs, htmr⟩ := htmr htmo
  obtain ⟨_, hsys, _, c', m', hca⟩ := hquiet.cleared
  obtain ⟨_, _, _, c, m, hta⟩ := hquiet
  have he := State.acqEvaluate_quiet (t := t) (State.acqRuns_of (by rw [hq]; decide) (by rw [hq]; decide)) ha
    (by rw [State.acqReady_unheld fun h => Nat.not_le.2 hp h.2]; exact hseq) (by rw [hta]; exact hforce) (by rw [hta]; exact hreqs)
  have hcr : t.cleared.regs = s.regs := t.cleared_regs.trans hregs
  have hcrec : t.cleared.acq.rec' = none := by rw [hca, ← hrec]
  have htmr' : t.cleared.acq.tmr = s.acq.tmr + 1 := by rw [State.cleared_acq, htmr]
  have hrow' := t.cleared.rowEnd_row false hcrec (by rw [State.rd_congr _ s hcr]; exact hrow)
  rw [State.rowAddr_congr hcr, hca, hsys] at hrow'
  obtain ⟨hend, v, p, o, l, hacq⟩ := t.cleared.rowEnd_open false fun r h => by rw [hcrec] at h; cases h
  rw [he]
  refine ⟨(State.rd_congr _ _ (hend.trans hcr) _).trans hq, ?_, ?_, ?_, hrow', ?_⟩
  · rw [hacq, hca]
  · rw [hacq, hca]
  · rw [hacq, htmr']
  · rw [hacq, hca]

/-- A fill that holds its rows is READY and takes one row more. -/
theorem State.acqEvaluate_ready (hq : s.aqs = Aq.fill) (hp : s.rd R.ACQ_PRE_PRE ≤ s.acq.fill) (ha : s.acq.armAt = none) (hreqs : s.acq.reqs = [])
    (hforce : s.acq.force = false) (hrec : s.acq.rec' = none) (hcond : s.rd (R.SQ_CFG_COND (s.rd R.ACQ_STATUS_SEQ_ST)) = 0)
    (hcnt : s.acq.cnt < s.rd (R.SQ_CFG_CNT_N (s.rd R.ACQ_STATUS_SEQ_ST))) :
    s.acqEvaluate.aqs = Aq.ready ∧ s.acqEvaluate.acq.total = s.acq.total + 1 := by
  obtain ⟨_, hwr, d, hwa⟩ := State.acqReady_of_held hq hp
  have hra : s.acqReady.acq = { s.acq with dead := d } := by rw [hwa, State.setAqs, State.wr_acq]
  have hst : s.acqReady.rd R.ACQ_STATUS_SEQ_ST = s.rd R.ACQ_STATUS_SEQ_ST :=
    (hwr _ (by decide) (by decide)).trans (State.rd_wr_apart _ _ _ _ rfl (by decide))
  have hsq : ∀ g : Fld, 0x40700200 ≤ g.addr → s.acqReady.rd g = s.rd g := fun g h =>
    (hwr g (by omega) (by omega)).trans (State.rd_wr_far s _ (by dsimp only [R.ACQ_STATUS_STATE]; omega))
  obtain ⟨t, hseq, hquiet, _⟩ := State.sequencer_never (s := s.acqReady) (by rw [hst, hsq _ (Nat.le_add_right _ _)]; exact hcond)
    (by rw [hst, hsq _ (Nat.le_add_right _ _), hra]; exact hcnt)
  obtain ⟨haqs, _, _, c', m', hca⟩ := hquiet.cleared
  obtain ⟨_, _, _, c, m, hta⟩ := hquiet
  rw [hra] at hta hca
  have he := State.acqEvaluate_quiet (t := t) (State.acqRuns_of (by rw [hq]; decide) (by rw [hq]; decide)) ha hseq (by rw [hta]; exact hforce) (by rw [hta]; exact hreqs)
  obtain ⟨hend, v, p, o, l, hacq⟩ := t.cleared.rowEnd_open false fun r h => by
    rw [hca] at h
    exact absurd (hrec.symm.trans h) (Option.some_ne_none r).symm
  rw [he]
  refine ⟨(State.rd_congr _ _ hend _).trans (haqs.trans ((hwr _ (by decide) (by decide)).trans (State.rd_wr_fits s rfl (by decide)))), ?_⟩
  rw [hacq, hca]

/-- A FORCE in READY begins a record with the row of the present period as its trigger. -/
theorem State.acqEvaluate_fires (hacd : s.on R.ACD_CFG_EN = false) (hq : s.aqs = Aq.ready) (ha : s.acq.armAt = none) (hreqs : s.acq.reqs = [])
    (hforce : s.acq.force = true) (hm : s.acq.marks.length < 16) (hp : s.rd R.ACQ_PRE_PRE ≤ s.acq.fill) (hn : s.rd R.ACQ_PRE_PRE < s.rd R.ACQ_RINGROWS_N_RING)
    (hpost : 1 ≤ s.rd R.ACQ_POST_POST) (hcond : s.rd (R.SQ_CFG_COND (s.rd R.ACQ_STATUS_SEQ_ST)) = 0)
    (hcnt : s.acq.cnt < s.rd (R.SQ_CFG_CNT_N (s.rd R.ACQ_STATUS_SEQ_ST))) :
    s.acqEvaluate.aqs = Aq.post ∧ s.acqEvaluate.acq.force = false ∧ s.acqEvaluate.acq.marks = s.acq.marks ++ [⟨s.sys.period % 2 ^ 32, 16, 0⟩] ∧
      s.acqEvaluate.acq.rec'.map (fun r => (r.cause, r.pTrig, r.pre, r.trig)) = some (16, s.sys.period, s.rd R.ACQ_PRE_PRE, s.acq.total) ∧
      s.acqEvaluate.acq.rec'.map (fun r => (r.last, r.flags, r.slot)) = some (s.acq.total + s.rd R.ACQ_POST_POST, 0, s.acq.slot) ∧
      s.acqEvaluate.acq.total = s.acq.total + 1 := by
  obtain ⟨t, hseq, hquiet, _⟩ := State.sequencer_never hcond hcnt
  obtain ⟨haqs, hsys, hfar, c', m', hca⟩ := hquiet.cleared
  obtain ⟨_, hts, htr, c, m, hta⟩ := hquiet
  have htl : t.acqLeads = true := State.acqLeads_off (by rw [State.on, htr _ (by decide)]; exact hacd)
  have he := State.acqEvaluate_forced (t := t) (State.acqRuns_of (by rw [hq]; decide) (by rw [hq]; decide)) ha
    (by rw [State.acqReady_unheld fun h => absurd (hq.symm.trans h.1) (by decide)]; exact hseq) (by rw [hta]; exact hforce) (by rw [hta]; exact hreqs) htl
  rw [show t.sys.period = t.cleared.sys.period from rfl, State.answerTrigger_ready 16 (by rw [State.on, hfar _ (by decide)]; exact hacd) (haqs.trans hq) (by rw [hca]; exact hm)] at he
  obtain ⟨hbq, _, r, hba, hcause, hper, hpre, htrig, hlast, hflags, hslot⟩ := t.cleared.beginRecord_begins t.cleared.sys.period 0 16
  have hpre' : r.pre = s.rd R.ACQ_PRE_PRE := by
    rw [hpre, hfar _ (by decide), hfar _ (by decide), hca]
    dsimp only
    omega
  rw [hfar _ (by decide), hpre', decide_eq_false (Nat.lt_irrefl _)] at hflags
  rw [hca, Nat.sub_zero] at htrig
  rw [hca] at hslot
  rw [hfar _ (by decide), hca, Nat.sub_zero] at hlast
  have hma := State.addMark_acq (s := t.cleared.beginRecord t.cleared.sys.period 0 16) t.cleared.sys.period 16 0 (by rw [hba, hca]; exact hm)
  have hmq : ((t.cleared.beginRecord t.cleared.sys.period 0 16).addMark t.cleared.sys.period 16 0).aqs = Aq.post :=
    (State.addMark_rd _ _ _ (by rw [hba, hca]; exact hm) (by decide) (by decide)).trans hbq
  rw [hba, hca, Acq.marked, hsys] at hma
  rw [hsys] at he hmq hper
  generalize (t.cleared.beginRecord s.sys.period 0 16).addMark s.sys.period 16 0 = u at hma hmq he
  obtain ⟨hend, v, p, o, l, hacq⟩ := u.rowEnd_open true fun r' h => by
    rw [hma] at h ⊢
    cases h
    rw [hlast]
    exact Nat.lt_add_of_pos_right hpost
  rw [he]
  refine ⟨(State.rd_congr _ _ hend _).trans hmq, ?_, ?_, ?_, ?_, ?_⟩
  · rw [hacq, hma]
  · rw [hacq, hma]
  · rw [hacq, hma]
    exact congrArg some (Prod.ext hcause (Prod.ext hper (Prod.ext hpre' htrig)))
  · rw [hacq, hma]
    exact congrArg some (Prod.ext hlast (Prod.ext hflags hslot))
  · rw [hacq, hma]

/-- A FORCE in a fill that is not ready counts as an early trigger. -/
theorem State.acqEvaluate_early (hacd : s.on R.ACD_CFG_EN = false) (hq : s.aqs = Aq.fill) (hp : s.acq.fill < s.rd R.ACQ_PRE_PRE) (ha : s.acq.armAt = none)
    (hreqs : s.acq.reqs = []) (hforce : s.acq.force = true) (hrec : s.acq.rec' = none) (hm : s.acq.marks.length < 16)
    (hcond : s.rd (R.SQ_CFG_COND (s.rd R.ACQ_STATUS_SEQ_ST)) = 0) (hcnt : s.acq.cnt < s.rd (R.SQ_CFG_CNT_N (s.rd R.ACQ_STATUS_SEQ_ST))) :
    s.acqEvaluate.aqs = Aq.fill ∧ s.acqEvaluate.acq.force = false ∧ s.acqEvaluate.acq.rec' = none ∧
      s.acqEvaluate.acq.marks = s.acq.marks ++ [⟨s.sys.period % 2 ^ 32, 16, 1⟩] ∧
      s.acqEvaluate.rd R.ACQ_CNT_A_EARLY_TRIG = Nat.min 65535 (s.rd R.ACQ_CNT_A_EARLY_TRIG + 1) := by
  obtain ⟨t, hseq, hquiet, _⟩ := State.sequencer_never hcond hcnt
  obtain ⟨haqs, hsys, hfar, c', m', hca⟩ := hquiet.cleared
  obtain ⟨_, _, htr, c, m, hta⟩ := hquiet
  have htl : t.acqLeads = true := State.acqLeads_off (by rw [State.on, htr _ (by decide)]; exact hacd)
  have he := State.acqEvaluate_forced (t := t) (State.acqRuns_of (by rw [hq]; decide) (by rw [hq]; decide)) ha
    (by rw [State.acqReady_unheld fun h => Nat.not_le.2 hp h.2]; exact hseq) (by rw [hta]; exact hforce) (by rw [hta]; exact hreqs) htl
  rw [show t.sys.period = t.cleared.sys.period from rfl, State.answerTrigger_fill _ 16 (haqs.trans hq), hsys] at he
  have hcount : ∀ a : Acq, ((t.cleared.inc R.ACQ_CNT_A_EARLY_TRIG).withAcq a).rd R.ACQ_CNT_A_EARLY_TRIG = Nat.min 65535 (s.rd R.ACQ_CNT_A_EARLY_TRIG + 1) := fun a => by
    rw [State.rd_congr _ _ (State.withAcq_regs _ _), State.rd_inc_same _ _ rfl, hfar _ (by decide)] <;> rfl
  have hfill : ∀ a : Acq, ((t.cleared.inc R.ACQ_CNT_A_EARLY_TRIG).withAcq a).aqs = Aq.fill := fun a =>
    (State.rd_congr _ _ (State.withAcq_regs _ _) _).trans ((State.rd_wr_far _ _ (by decide)).trans (haqs.trans hq))
  have hwa := State.withAcq_acq (t.cleared.inc R.ACQ_CNT_A_EARLY_TRIG) { t.cleared.acq with early := satAdd 16 t.cleared.acq.early 1 }
  specialize hcount { t.cleared.acq with early := satAdd 16 t.cleared.acq.early 1 }
  specialize hfill { t.cleared.acq with early := satAdd 16 t.cleared.acq.early 1 }
  generalize (t.cleared.inc R.ACQ_CNT_A_EARLY_TRIG).withAcq { t.cleared.acq with early := satAdd 16 t.cleared.acq.early 1 } = u at he hcount hfill hwa
  rw [hca] at hwa
  have hroom : u.acq.marks.length < 16 := by rw [hwa]; exact hm
  have hma := State.addMark_acq s.sys.period 16 1 hroom
  rw [hwa, Acq.marked] at hma
  obtain ⟨hend, v, p, o, l, hacq⟩ := (u.addMark s.sys.period 16 1).rowEnd_open true fun r h => by
    rw [hma] at h
    exact absurd (hrec.symm.trans h) (Option.some_ne_none r).symm
  rw [he]
  refine ⟨(State.rd_congr _ _ hend _).trans ((State.addMark_rd _ _ _ hroom (by decide) (by decide)).trans hfill), ?_, ?_, ?_,
    (State.rd_congr _ _ hend _).trans ((State.addMark_rd _ _ _ hroom (by decide) (by decide)).trans hcount)⟩
  · rw [hacq, hma]
  · rw [hacq, hma]
    dsimp only
    rw [hrec, Option.map_none]
  · rw [hacq, hma]

/-- Settles O47: each command of the capture is one change of its status and of the record; an evaluation is READY, the sequencer, the requests and one row. -/
theorem captureArmsFiresAndCloses : Obligations.CaptureArmsFiresAndCloses := by
  refine ⟨fun s h0 h1 hr hf hacd hc => ?arm, fun s h0 h1 hr hi hd => ?running, fun s h0 h1 hr hf hq hn => ?small, fun s h0 h1 hr hacd hn hi => ?disarm,
    fun s r h0 h1 hr hacd hrec hq => ?disarmRecord, fun s h0 h1 hr hacd hrec hq => ?disarmClose, fun s h0 h1 hr hruns => ?force,
    fun s h0 h1 hr hruns hm => ?forceStopped, fun s h0 h1 hr => ?clr, fun s m ms h0 h1 hr hm hl => ?markNext,
    fun s hrun hl hq hp ha hreqs hforce hrec hcond hcnt htmo hrow => ?fills, fun s hrun hl hq hp ha hreqs hforce hrec hcond hcnt => ?ready,
    fun s hrun hl hacd hq ha hreqs hforce hm hp hft hn hpost hcond hcnt => ?fires, fun s hrun hl hacd hq hp ha hreqs hforce hrec hm hcond hcnt => ?early,
    fun s hruns hacd hcnt hfire => ?matchFire, fun s hruns hcnt hfire => ?matchSilent, fun s hruns hcnt h0 htmo => ?timeout, fun s r hq hrec hd hm hs => ?closes⟩
  case arm =>
    have hacc := State.accepting_solo hr hf
    obtain ⟨n, hregs, _, hfill, htotal, _, hcells⟩ := s.acqStart_eq none
    have hstart : (s.acqArm s.accepting).1 = s.acqStart none := by rw [hacc]; exact State.acqArm_starts hc hacd
    rw [hacd] at hregs
    obtain ⟨haqs, hseq, herr, hmode⟩ := s.startWords_shows false
    have hlay := (s.startWords false).layoutWords_shows s.rowBytes n (s.rd R.ACQ_RING_SIZE * 2 ^ 20 / s.rowBytes)
    have hfar : ∀ g : Fld, g.addr ≠ 0x40700020 → g.addr ≠ 0x40700024 → (s.acqStart none).rd g = (s.startWords false).rd g := fun g h1 h2 => by
      rw [State.rd_congr _ _ hregs, State.layoutWords_far _ _ _ _ h1 h2]
    have hst : ∀ g : Fld, g.addr = 0x41100000 → (s.acqStart none).rd g = s.rd g := fun g h => by
      rw [hfar g (by rw [h]; decide) (by rw [h]; decide), State.startWords_far _ _ (by rw [h]; decide)]
    refine ⟨_, exec_acqArm hr (s.runs_iff.2 (not_or.2 ⟨h0, h1⟩)) (by rw [hstart]; exact (hst _ rfl).trans hr), ?_⟩
    rw [hstart]
    refine ⟨(hfar _ (by decide) (by decide)).trans haqs, (hfar _ (by decide) (by decide)).trans hseq, (hfar _ (by decide) (by decide)).trans herr, ?_, ?_, ?_,
      hfill, htotal, hcells, hst _ rfl⟩
    · rw [State.on, hfar _ (by decide) (by decide)]
      exact hmode
    · rw [State.rd_congr _ _ hregs, hlay.1]
    · rw [State.rd_congr _ _ hregs, hlay.2]
  case running =>
    have hcode : s.armCode s.accepting = 1 := State.armCode_running _ hi hd
    have hw : (s.acqArm s.accepting).1 = s.wr R.ACQ_STATUS_ARM_ERR 1 := by rw [State.acqArm_refused (by rw [hcode]; decide), hcode]
    rw [exec_acqArm hr (s.runs_iff.2 (not_or.2 ⟨h0, h1⟩)) (by rw [hw, State.role_wr _ _ (by decide)]; exact hr), hw]
  case small =>
    have hcode : s.armCode s.accepting = 2 := by rw [State.accepting_solo hr hf]; exact State.armCode_small hq hn
    have hw : (s.acqArm s.accepting).1 = s.wr R.ACQ_STATUS_ARM_ERR 2 := by rw [State.acqArm_refused (by rw [hcode]; decide), hcode]
    rw [exec_acqArm hr (s.runs_iff.2 (not_or.2 ⟨h0, h1⟩)) (by rw [hw, State.role_wr _ _ (by decide)]; exact hr), hw]
  case disarm =>
    have he : s.acqDisarm = s.toIdle := by
      rw [State.acqDisarm_off] <;> rw [State.acqStop_none hi hn]
      exact (congrArg (· == 1) (s.toIdle_rd (g := R.ACD_CFG_EN) (by decide))).trans hacd
    refine ⟨_, exec_acqDisarm hr (s.runs_iff.2 (not_or.2 ⟨h0, h1⟩)) (by rw [he]; exact (s.toIdle_rd (by decide)).trans hr), ?_⟩
    rw [he]
    refine ⟨s.toIdle_aqs, by rw [State.toIdle_acq], ?_, s.toIdle_mem⟩
    rw [State.on, s.toIdle_rd (by decide), State.on]
  case disarmRecord =>
    have he := State.acqStop_record (by rw [hq]; decide) (by rw [hq]; decide) hrec
    have hb : bitOf (Machine.putBit (s.endFlags r) 2 true) 2 = true := bitOf_putBit_same _ _ _
    generalize Machine.putBit (s.endFlags r) 2 true = flags at he hb
    have hfar : ∀ g : Fld, recordWord g.addr = false → R.ACQ_STATUS_STATE.apart g = true → s.acqStop.rd g = s.rd g := fun g h1 h2 => by
      rw [he, State.toIdle_rd _ h2, State.finishRecord_far _ _ _ h1]
    have hoff : s.acqDisarm = s.acqStop := State.acqDisarm_off ((congrArg (· == 1) (hfar R.ACD_CFG_EN (by decide) (by decide))).trans hacd)
    obtain ⟨u, hu, hrd, hacq⟩ := s.finishRecord_rd r flags
    refine ⟨_, exec_acqDisarm hr (s.runs_iff.2 (not_or.2 ⟨h0, h1⟩)) (by rw [hoff]; exact (hfar _ (by decide) (by decide)).trans hr), ?_⟩
    rw [hoff, he]
    refine ⟨State.toIdle_aqs _, ?_, ?_, ?_⟩
    · rw [State.toIdle_acq, hacq] <;> rfl
    · rw [State.on, State.toIdle_rd _ (by decide), hrd]
      exact u.countRecord_trunc r _ hb
    · rw [State.toIdle_rd _ (by decide), hrd, State.countRecord_seq]
  case disarmClose =>
    have he := State.acqStop_close hq hrec
    have hregs : s.acqStop.regs = s.regs := by rw [he, State.withAcq_regs]
    have hoff : s.acqDisarm = s.acqStop := State.acqDisarm_off ((State.on_congr hregs _).trans hacd)
    refine ⟨_, exec_acqDisarm hr (s.runs_iff.2 (not_or.2 ⟨h0, h1⟩)) (by rw [hoff]; exact (State.rd_congr _ _ hregs _).trans hr), ?_⟩
    rw [hoff]
    refine ⟨(State.rd_congr _ _ hregs _).trans hq, ?_, ?_, hregs⟩
    · rw [he, State.withAcq_acq]
    · rw [he, State.withAcq_acq]
  case force =>
    have he := State.acqForce_runs hruns
    have hregs : s.acqForce.regs = s.regs := by rw [he, State.withAcq_regs]
    refine ⟨_, exec_acqForce hr (s.runs_iff.2 (not_or.2 ⟨h0, h1⟩)) ((State.rd_congr _ _ hregs _).trans hr), ?_, ?_, hregs⟩
    · rw [he, State.withAcq_acq]
    · rw [he, State.withAcq_acq]
  case forceStopped =>
    have he := State.acqForce_stopped hruns
    have hlen : (s.acq.marked s.sys.period 16 4).marks.length = s.acq.marks.length + 1 := List.length_append
    have hshow := (s.withAcq (s.acq.marked s.sys.period 16 4)).showMarks_shows (by rw [State.withAcq_acq, hlen]; omega)
    have hfar : ∀ g : Fld, g.addr ≠ 0x40700048 → g.addr ≠ 0x4070004C → s.acqForce.rd g = s.rd g := fun g h1 h2 => by rw [he, State.addMark_rd _ _ _ hm h1 h2]
    rw [← State.addMark_room _ _ _ hm, State.withAcq_acq, hlen, ← he] at hshow
    obtain ⟨hdepth, hvalid, _⟩ := hshow
    refine ⟨_, exec_acqForce hr (s.runs_iff.2 (not_or.2 ⟨h0, h1⟩)) ((hfar _ (by decide) (by decide)).trans hr), ?_, ?_, hdepth, ?_, hfar _ (by decide) (by decide)⟩
    · rw [he, State.addMark_acq _ _ _ hm, Acq.marked]
    · rw [he, State.addMark_acq _ _ _ hm, Acq.marked]
    · rw [hvalid, Acq.marked]
      exact congrArg not (List.isEmpty_eq_false_iff.2 (List.append_ne_nil_of_right_ne_nil _ (List.cons_ne_nil _ _)))
  case clr =>
    obtain ⟨he, hm, hi, hrec, hd⟩ := s.acqClr_shows
    exact ⟨_, exec_acqClr hr (s.runs_iff.2 (not_or.2 ⟨h0, h1⟩)) ((s.acqClr_far (by decide) (by decide) (by decide)).trans hr), he, hm, hi, hrec, hd, s.acqClr_acq,
      s.acqClr_far (by decide) (by decide) (by decide)⟩
  case markNext =>
    have he := s.markNext_eq
    rw [hm, List.tail_cons] at he
    have hfar : ∀ g : Fld, g.addr ≠ 0x40700048 → g.addr ≠ 0x4070004C → s.markNext.rd g = s.rd g := fun g h1 h2 => by
      rw [he, State.showMarks_rd _ h1 h2, State.rd_congr _ _ (State.withAcq_regs _ _)]
    have hshow := (s.withAcq { s.acq with marks := ms }).showMarks_shows (by rw [State.withAcq_acq]; exact Nat.lt_trans hl (by decide))
    rw [← he, State.withAcq_acq] at hshow
    obtain ⟨hdepth, hvalid, hper⟩ := hshow
    refine ⟨_, exec_acqMarkNext hr (s.runs_iff.2 (not_or.2 ⟨h0, h1⟩)) ((hfar _ (by decide) (by decide)).trans hr), ?_, hdepth, hvalid, hper, hfar _ (by decide) (by decide)⟩
    rw [he, State.showMarks_acq, State.withAcq_acq]
  case fills => exact ⟨_, exec_acqEvaluation hrun hl, State.acqEvaluate_fills hq hp ha hreqs hforce hrec hcond hcnt htmo (by omega)⟩
  case ready => exact ⟨_, exec_acqEvaluation hrun hl, State.acqEvaluate_ready hq hp ha hreqs hforce hrec hcond hcnt⟩
  case fires => exact ⟨_, exec_acqEvaluation hrun hl, State.acqEvaluate_fires hacd hq ha hreqs hforce hm hp hn hpost hcond hcnt⟩
  case early => exact ⟨_, exec_acqEvaluation hrun hl, State.acqEvaluate_early hacd hq hp ha hreqs hforce hrec hm hcond hcnt⟩
  case matchFire =>
    obtain ⟨hseq, haqs, hacq, _⟩ := s.sqEnter_shows (s.rd_lt (R.SQ_CFG_NEXT (s.rd R.ACQ_STATUS_SEQ_ST)))
    refine ⟨_, exec_sequencerMatch_fire hruns (State.sqMatched_of_count hcnt) hacd hfire rfl, ?_⟩
    have hsys : (s.sqEnter (s.rd (R.SQ_CFG_NEXT (s.rd R.ACQ_STATUS_SEQ_ST)))).sys = s.sys := by rw [State.sqEnter_eq, State.withAcq_sys, State.wr_sys]
    generalize s.sqEnter (s.rd (R.SQ_CFG_NEXT (s.rd R.ACQ_STATUS_SEQ_ST))) = u at hseq haqs hacq hsys ⊢
    rw [hacq, hsys, Nat.add_comm]
    exact ⟨(State.rd_congr _ _ (u.withAcq_regs _) _).trans hseq, rfl, rfl, rfl, (State.rd_congr _ _ (u.withAcq_regs _) _).trans haqs⟩
  case matchSilent =>
    obtain ⟨hseq, haqs, hacq, _⟩ := s.sqEnter_shows (s.rd_lt (R.SQ_CFG_NEXT (s.rd R.ACQ_STATUS_SEQ_ST)))
    refine ⟨_, exec_sequencerMatch_silent hruns (State.sqMatched_of_count hcnt) hfire, hseq, ?_, ?_, ?_, haqs⟩ <;> rw [hacq]
  case timeout =>
    obtain ⟨hseq, haqs, hacq, _⟩ := s.sqEnter_shows (s.rd_lt (R.SQ_CFG_TMO_NEXT (s.rd R.ACQ_STATUS_SEQ_ST)))
    refine ⟨_, exec_sequencerTimeout_due hruns hcnt h0 htmo, hseq, ?_, ?_, ?_, haqs⟩ <;> rw [hacq]
  case closes =>
    obtain ⟨u, hu, hrd, hacq⟩ := s.finishRecord_rd r (s.endFlags r)
    have he := State.recordClose_whole hq hrec
    have hstatus : ∀ g : Fld, g.addr = 0x40700004 → R.ACQ_STATUS_SLOT.apart g = true → R.ACQ_STATUS_OVERRUN.apart g = true → R.ACQ_STATUS_TRUNC.apart g = true →
        (s.finishRecord r (s.endFlags r)).rd g = s.rd g := fun g h h1 h2 h3 => by
      rw [hrd, State.countRecord_status _ _ _ _ h h1 h2 h3, State.rd_congr u s hu]
    generalize s.finishRecord r (s.endFlags r) = w at hrd hacq hstatus he
    have hwq : (w.withAcq { w.acq with closed := true }).aqs = Aq.close :=
      (State.rd_congr _ _ (State.withAcq_regs _ _) _).trans ((hstatus _ rfl (by decide) (by decide) (by decide)).trans hq)
    have hwm : (w.withAcq { w.acq with closed := true }).on R.ACQ_STATUS_MODE = false := by
      rw [State.on_congr (State.withAcq_regs _ _), State.on, hstatus _ rfl (by decide) (by decide) (by decide)]
      exact hm
    have hwa : (w.withAcq { w.acq with closed := true }).acq = { s.acq.ended r (s.rd R.ACQ_SLOT_N_SLOT) with closed := true } := by rw [State.withAcq_acq, hacq]
    have hwr : ∀ g, (w.withAcq { w.acq with closed := true }).rd g = (u.countRecord r (s.endFlags r) (s.rd R.ACQ_REC_SEQ_SEQ + 1)).rd g := fun g => by
      rw [State.rd_congr _ _ (State.withAcq_regs _ _), hrd]
    generalize w.withAcq { w.acq with closed := true } = x at he hwq hwm hwa hwr
    rw [State.leaveClose_single hwq (by rw [hwa]) (by rw [hwa]; exact hd) hwm] at he
    have hx : exec (.recordClose none) s = .next (s.recordClose none) := rfl
    refine ⟨_, hx, ?_⟩
    rw [he, State.setAqs]
    refine ⟨State.rd_wr_fits x rfl (by decide), ?_, ?_, ?_, ?_, ?_, ?_⟩
    · rw [State.wr_acq, hwa] <;> rfl
    · rw [State.rd_wr_far _ _ (by decide), hwr, State.countRecord_seq]
    · rw [State.rd_wr_far _ _ (by decide), hwr, State.countRecord_records, State.rd_congr u s hu]
    · rw [State.rd_wr_far _ _ (by decide), hwr, State.countRecord_trig]
    · rw [State.rd_wr_apart _ _ _ _ rfl (by decide), hwr, State.countRecord_slot _ _ _ _ (by omega)]
    · rw [State.wr_acq, hwa] <;> rfl

end Sys2Proof.Machine
end

section
/-! O48: the capture of an accord's members and the trigger of a cell (R431, R432, R449, R450). -/

namespace Sys2Proof.Machine

variable {s t : State} {g : Fld} {k l : Nat} {f : List Byte}

/-! ### A frame of the capture at its destination -/

/-- The unit has heard a sender. -/
def State.heardOf (s : State) (m : Nat) : State := { s with acd := { s.acd with heard := s.acd.heard ++ [m] } }

theorem State.heardOf_regs (s : State) (m : Nat) : (s.heardOf m).regs = s.regs := rfl

theorem State.heardOf_sys (s : State) (m : Nat) : (s.heardOf m).sys = s.sys := rfl

theorem State.heardOf_acq (s : State) (m : Nat) : (s.heardOf m).acq = s.acq := rfl

theorem State.heardOf_rd (s : State) (m : Nat) (g : Fld) : (s.heardOf m).rd g = s.rd g := State.rd_congr _ _ (s.heardOf_regs m) g

/-- What arms a capture does not depend on the senders heard. -/
theorem State.armCode_withAcd (s : State) (x : Acd) (gate : Bool) : ({ s with acd := x } : State).armCode gate = s.armCode gate := rfl

theorem State.heardOf_armCode (s : State) (m : Nat) (gate : Bool) : (s.heardOf m).armCode gate = s.armCode gate := s.armCode_withAcd _ gate

theorem State.upLevel_congr (h : t.regs = s.regs) : t.upLevel = s.upLevel := by
  have hrd : ∀ g, t.rd g = s.rd g := State.rd_congr t s h
  simp only [State.upLevel, State.levelEntries, State.on, hrd] <;> rfl

/-- A frame that is taken acts for its level entry and its sender. -/
theorem State.acqFrame_taken (ht : s.takesAccord k 9 l f = true) {arg : Nat} (ha : Acf.arg f = arg) (act : Nat → Nat → Nat → Nat → State → State) :
    s.acqFrame k arg f act = act l (Acf.sender f) (leAt (Acf.body f) 0 8) (byteAt (Acf.body f) 12) (s.heardOf (8 * l + Acf.sender f)) := by
  simp only [State.takesAccord, Bool.and_eq_true, beq_iff_eq] at ht
  obtain ⟨⟨⟨⟨hlive, hhop⟩, hgood⟩, htype⟩, hfind⟩ := ht
  rw [State.acqFrame, State.accordIn, hlive, hhop, if_neg (by rw [bne_self_eq_false]; decide), hfind]
  dsimp only
  rw [hgood, if_neg (by decide), if_neg (not_not.2 htype), ha, beq_self_eq_true, State.when_true] <;> rfl

theorem State.acqClose_rec (s : State) : s.acqClose.acq.rec' = s.acq.rec' := by
  rw [State.acqClose]
  cases hr : s.acq.rec' with
  | none => exact hr
  | some r =>
    dsimp only
    split
    · exact hr
    · exact hr

/-- A unit that stops its capture stands in IDLE, in the state that it had. -/
theorem State.acqStop_stops (h : s.aqs ≠ Aq.close) : s.acqStop.aqs = Aq.idle ∧ s.acqStop.st = s.st := by
  by_cases hi : s.aqs = Aq.idle
  · rw [State.acqStop_idle hi]
    exact ⟨hi, rfl⟩
  · cases hr : s.acq.rec' with
    | none =>
      rw [State.acqStop_none hi hr]
      exact ⟨s.toIdle_aqs, s.toIdle_rd (by decide)⟩
    | some r =>
      rw [State.acqStop_record hi h hr]
      exact ⟨State.toIdle_aqs _, (State.toIdle_rd _ (by decide)).trans (State.finishRecord_far _ _ _ (by decide))⟩

/-- TRIG at a member that fills or is ready: its record begins, no earlier than its oldest row, and takes the rows that are there. -/
theorem exec_acqFrameTrig {k : Fin 4} (ht : s.takesAccord k 9 l f = true) (ha : Acf.arg f = 3) (hq : s.aqs = Aq.fill ∨ s.aqs = Aq.ready) : ∃ u : State,
    u.regs = s.regs ∧ u.acq = s.acq ∧ exec (.acqFrameTrig k f) s = .next (u.beginRecord (leAt (Acf.body f) 0 8)
      (if s.acq.total ≤ s.sys.period - leAt (Acf.body f) 0 8 then s.acq.total else s.sys.period - leAt (Acf.body f) 0 8)
      (putBit (byteAt (Acf.body f) 12) 5 true)).copyRows.acqClose := by
  have hx : exec (.acqFrameTrig k f) s = execAcqFrameTrig k f s := rfl
  rw [hx, execAcqFrameTrig, State.acqFrame_taken ht ha]
  generalize leAt (Acf.body f) 0 8 = p, byteAt (Acf.body f) 12 = c
  dsimp only
  have hregs : ((s.heardOf (8 * l + Acf.sender f)).acqDown 3 p c).regs = s.regs := (State.acqDown_regs _ _ _ _).trans (s.heardOf_regs _)
  have hacq : ((s.heardOf (8 * l + Acf.sender f)).acqDown 3 p c).acq = s.acq := (State.acqDown_acq _ _ _ _).trans (s.heardOf_acq _)
  have hsys : ((s.heardOf (8 * l + Acf.sender f)).acqDown 3 p c).sys = s.sys := (State.acqDown_sys _ _ _ _).trans (s.heardOf_sys _)
  generalize (s.heardOf (8 * l + Acf.sender f)).acqDown 3 p c = u at hregs hacq hsys
  have hu : u.aqs = s.aqs := State.rd_congr _ _ hregs _
  rw [if_pos (by rw [hu]; exact hq), hsys, hacq]
  exact ⟨u, hregs, hacq, rfl⟩

/-! ### The trigger of a cell -/

theorem Cell.rd_wr_fits (c : Cell) {f : Fld} {v : Nat} (hf : f.inWord = true) (hv : v < 2 ^ f.width) : (c.wr f v).rd f = v := by
  rw [Cell.rd_wr_same _ _ _ hf, Nat.mod_eq_of_lt hv]

theorem Cell.rd_inc_same (c : Cell) (n : Nat) {f : Fld} (hf : f.inWord = true) : (c.inc f n).rd f = Nat.min (2 ^ f.width - 1) (c.rd f + n) := by
  rw [Cell.inc, satAdd]
  exact c.rd_wr_fits hf (Nat.lt_of_le_of_lt (Nat.min_le_left _ _) (Nat.sub_lt (Nat.two_pow_pos _) Nat.one_pos))

/-- A cell whose trigger has the slot of a cause. -/
def Cell.firing (c : Cell) (time : Nat) : Cell := { c with sl := { c.sl with fire := some time, holdoff := c.hrd K.CTRG_CFG_HOLDOFF } }

/-- An enabled trigger that is free fires. -/
theorem Cell.trigger_fires {c : Cell} (he : c.hon K.CTRG_CFG_EN = true) (hh : c.on K.CTRG_ST_HOLD = false) (hf : c.sl.fire = none) (cause time : Nat) :
    c.trigger cause time = ((((c.firing time).wr K.CTRG_ST_CAUSE cause).put K.CTRG_ST_HOLD ((c.firing time).sl.holdoff != 0)).inc K.CTRG_ST_FIRES).wr K.CTRG_TIME_TIME time := by
  rw [Cell.trigger, he, if_neg (by decide), if_neg (by rw [hh, hf]; simp)] <;> rfl

/-- The cell `d` shows that the trigger of `c` has fired at a time by FORCE. -/
def Cell.Fired (c : Cell) (time : Nat) (d : Cell) : Prop :=
  d.sl.fire = some time ∧ d.rd K.CTRG_ST_CAUSE = 4 ∧ d.rd K.CTRG_ST_FIRES = Nat.min 65535 (c.rd K.CTRG_ST_FIRES + 1) ∧ d.rd K.CTRG_TIME_TIME = time ∧
    d.on K.CTRG_ST_HOLD = (c.hrd K.CTRG_CFG_HOLDOFF != 0) ∧ d.sl.holdoff = c.hrd K.CTRG_CFG_HOLDOFF ∧ d.mode = c.mode ∧ d.pw = c.pw

theorem Cell.fired_shows (c : Cell) (time : Nat) (ht : time < 2 ^ 32) :
    c.Fired time (((((c.firing time).wr K.CTRG_ST_CAUSE 4).put K.CTRG_ST_HOLD ((c.firing time).sl.holdoff != 0)).inc K.CTRG_ST_FIRES).wr K.CTRG_TIME_TIME time) := by
  have hrd : (c.firing time).rd K.CTRG_ST_FIRES = c.rd K.CTRG_ST_FIRES := rfl
  have hfire : (c.firing time).sl.fire = some time := rfl
  have hold : (c.firing time).sl.holdoff = c.hrd K.CTRG_CFG_HOLDOFF := rfl
  have hmode : (c.firing time).mode = c.mode := rfl
  have hpw : (c.firing time).pw = c.pw := rfl
  generalize c.firing time = d at hrd hfire hold hmode hpw ⊢
  refine ⟨?_, ?_, ?_, Cell.rd_wr_fits _ rfl ht, ?_, ?_, ?_, ?_⟩
  · rw [Cell.wr_sl, Cell.inc_sl, Cell.put_sl, Cell.wr_sl, hfire]
  · rw [Cell.rd_wr_apart _ _ _ _ rfl (by decide), Cell.rd_inc_apart _ _ _ _ rfl (by decide), Cell.rd_put_apart _ _ _ _ rfl (by decide)]
    exact Cell.rd_wr_fits _ rfl (by decide)
  · rw [Cell.rd_wr_apart _ _ _ _ rfl (by decide), Cell.rd_inc_same _ _ rfl, Cell.rd_put_apart _ _ _ _ rfl (by decide), Cell.rd_wr_apart _ _ _ _ rfl (by decide), hrd] <;> rfl
  · rw [Cell.on, Cell.rd_wr_apart _ _ _ _ rfl (by decide), Cell.rd_inc_apart _ _ _ _ rfl (by decide), ← hold]
    exact Cell.on_put_same _ _ _ rfl rfl
  · rw [Cell.wr_sl, Cell.inc_sl, Cell.put_sl, Cell.wr_sl, hold]
  · rw [Cell.wr_mode, Cell.inc_mode, Cell.put_mode, Cell.wr_mode, hmode]
  · rw [Cell.wr_pw, Cell.inc_pw, Cell.put_pw, Cell.wr_pw, hpw]

theorem Cell.trigger_held {c : Cell} (he : c.hon K.CTRG_CFG_EN = true) (hh : c.on K.CTRG_ST_HOLD = true) (cause time : Nat) :
    c.trigger cause time = c.inc K.CTRG_ST_IGNORED := by
  rw [Cell.trigger, he, if_neg (by decide), if_pos (.inl hh)]

/-- Settles O48: each frame of the capture does what its ARG names at the unit that takes it; a trigger fires, or counts while its holdoff runs. -/
theorem accordCaptureAndCellTrigger : Obligations.AccordCaptureAndCellTrigger := by
  refine ⟨fun s k f l ht ha hc => ?arm, fun s k f l ht ha hu hr => ?req, fun s k f l ht ha hq hp hf hft hlast hn hback => ?trig, fun s k f l ht ha hq hp => ?short,
    fun s k f l ht ha hq hc => ?closed, fun s k f l ht ha hq => ?disarm, fun s id he hh hf => ?fire, fun s id he hh => ?held, fun s id hh => ?holdoff⟩
  case arm =>
    have hx : exec (.acqFrameArm k f) s = execAcqFrameArm k f s := rfl
    obtain ⟨n, hregs, _, hfill, _, harm, _⟩ := (s.heardOf (8 * l + Acf.sender f)).acqStart_eq (some (leAt (Acf.body f) 0 8))
    obtain ⟨haqs, hseq, _, _⟩ := (s.heardOf (8 * l + Acf.sender f)).startWords_shows ((s.heardOf (8 * l + Acf.sender f)).on R.ACD_CFG_EN)
    refine ⟨_, hx, ?_⟩
    rw [State.acqFrame_taken ht ha]
    dsimp only
    rw [s.heardOf_armCode, if_neg (not_not.2 hc), State.acqDown_acq]
    have hrd : ∀ g : Fld, g.addr ≠ 0x40700020 → g.addr ≠ 0x40700024 →
        (((s.heardOf (8 * l + Acf.sender f)).acqStart (some (leAt (Acf.body f) 0 8))).acqDown 1 (leAt (Acf.body f) 0 8) 0).rd g =
          ((s.heardOf (8 * l + Acf.sender f)).startWords ((s.heardOf (8 * l + Acf.sender f)).on R.ACD_CFG_EN)).rd g := fun g h1 h2 => by
      rw [State.rd_congr _ _ (State.acqDown_regs _ _ _ _), State.rd_congr _ _ hregs, State.layoutWords_far _ _ _ _ h1 h2]
    exact ⟨(hrd _ (by decide) (by decide)).trans haqs, harm, hfill, (hrd _ (by decide) (by decide)).trans hseq⟩
  case req =>
    have hx : exec (.acqFrameReq k f) s = execAcqFrameReq k f s := rfl
    have hlead : (s.heardOf (8 * l + Acf.sender f)).acqLeads = true := by
      rw [State.acqLeads, State.upLevel_congr (s.heardOf_regs _), hu, Option.isNone_none, Bool.or_true]
    have hruns : (s.heardOf (8 * l + Acf.sender f)).acqRuns = true := by
      rw [State.acqRuns, State.aqs, s.heardOf_rd]
      exact hr
    refine ⟨_, hx, ?_⟩
    rw [State.acqFrame_taken ht ha]
    dsimp only
    rw [hlead, if_pos rfl, hruns, State.when_true]
    exact ⟨rfl, rfl⟩
  case trig =>
    obtain ⟨u, hregs, hacq, he⟩ := exec_acqFrameTrig ht ha hq
    generalize leAt (Acf.body f) 0 8 = p at hp hf hlast hn hback he ⊢
    generalize putBit (byteAt (Acf.body f) 12) 5 true = c at he ⊢
    rw [if_neg (Nat.not_le.2 hback)] at he
    obtain ⟨hbq, _, r, hba, hcause, hper, hpre, htrig, hlast', hflags, _⟩ := u.beginRecord_begins p (s.sys.period - p) c
    generalize u.beginRecord p (s.sys.period - p) c = w at he hbq hba
    have hrd : ∀ g, u.rd g = s.rd g := State.rd_congr u s hregs
    have hpre' : r.pre = s.rd R.ACQ_PRE_PRE := by
      rw [hpre, hrd, hrd, hacq]
      omega
    rw [hrd, hpre', decide_eq_false (Nat.lt_irrefl _)] at hflags
    have hca := w.copyRows_acq
    rw [hba] at hca
    have hopen : w.copyRows.acqClose = w.copyRows := State.acqClose_open fun r' h => by
      rw [hca] at h ⊢
      cases h
      show u.acq.total ≤ r.last
      rw [hlast', hrd, hacq]
      exact hlast
    refine ⟨_, he, ?_⟩
    rw [hopen]
    refine ⟨(State.rd_congr _ _ w.copyRows_regs _).trans hbq, ?_⟩
    rw [hca]
    exact congrArg some (Prod.ext hcause (Prod.ext hper (Prod.ext hpre' hflags)))
  case short =>
    obtain ⟨u, hregs, hacq, he⟩ := exec_acqFrameTrig ht ha hq
    generalize leAt (Acf.body f) 0 8 = p at he ⊢
    generalize putBit (byteAt (Acf.body f) 12) 5 true = c at he
    generalize (if s.acq.total ≤ s.sys.period - p then s.acq.total else s.sys.period - p) = back at he
    obtain ⟨_, _, r, hba, _, hper, hpre, _, _, hflags, _⟩ := u.beginRecord_begins p back c
    generalize u.beginRecord p back c = w at he hba
    have hless : r.pre < u.rd R.ACQ_PRE_PRE := by
      rw [hpre, State.rd_congr u s hregs, hacq]
      omega
    rw [decide_eq_true hless] at hflags
    refine ⟨_, he, ?_⟩
    beta_reduce
    rw [State.acqClose_rec, w.copyRows_acq, hba]
    exact congrArg some (Prod.ext hper hflags)
  case closed =>
    have hx : exec (.acqFrameClosed k f) s = execAcqFrameClosed k f s := rfl
    have hq' : (s.heardOf (8 * l + Acf.sender f)).aqs = Aq.close := (s.heardOf_rd _ _).trans hq
    refine ⟨_, hx, ?_⟩
    rw [State.acqFrame_taken ht ha]
    dsimp only
    rw [hq', show (Aq.close == Aq.close || Aq.close == Aq.post) = true by decide, State.when_true, State.leaveClose_open (by exact hc)]
    exact ⟨rfl, hq, rfl⟩
  case disarm =>
    have hx : exec (.acqFrameDisarm k f) s = execAcqFrameDisarm k f s := rfl
    obtain ⟨haqs, hst⟩ := State.acqStop_stops (s := s.heardOf (8 * l + Acf.sender f)) (fun h => hq ((s.heardOf_rd _ _).symm.trans h))
    refine ⟨_, hx, ?_⟩
    rw [State.acqFrame_taken ht ha]
    exact ⟨(State.rd_congr _ _ (State.acqDown_regs _ _ _ _) _).trans haqs, (State.rd_congr _ _ (State.acqDown_regs _ _ _ _) _).trans (hst.trans (s.heardOf_rd _ _))⟩
  case fire =>
    refine cellBecomes_onCell ?_
    rw [Cell.trigger_fires he hh hf]
    have hclock : (s.cell id.toNat).clock s.now < 2 ^ 32 := Nat.mod_lt _ (Nat.two_pow_pos 32)
    exact Cell.fired_shows _ _ hclock
  case held =>
    refine cellBecomes_onCell ?_
    rw [Cell.trigger_held he hh]
    exact ⟨Cell.rd_inc_same _ _ rfl, Cell.inc_sl _ _ _, Cell.rd_inc_apart _ _ _ _ rfl (by decide)⟩
  case holdoff =>
    refine cellBecomes_onCell ?_
    rw [hh, beq_self_eq_true]
    exact ⟨Cell.on_put_same _ _ _ rfl rfl, Cell.put_sl _ _ _, Cell.put_mode _ _ _⟩

end Sys2Proof.Machine
end
